-- ==== Sys2Proof/Word.lean ====
section
/-! DEFINITION. The words of the module: bytes, 32-bit registers, the place of a field in a register, and the description
of a register. -/
namespace Sys2Proof

/-- A byte of memory. -/
abbrev Byte := BitVec 8

/-- A register (R3): 32 bits, little-endian. -/
abbrev Word := BitVec 32

namespace Machine

/-- The place of a field: its register's address, its lowest bit and its width. -/
structure Fld where
  addr  : Nat
  lo    : Nat
  width : Nat
  deriving DecidableEq, Repr

/-- One row of the table of registers: name, first address, the (count, stride) of each index, the reset value, whether
every reset but power-on keeps the value, and the access masks of R5. -/
structure RegDesc where
  name  : String
  first : Nat
  dims  : List (Nat × Nat)
  rst   : Nat
  kept  : Bool
  rw    : Nat
  w1c   : Nat
  wo    : Nat
  img   : Nat
  deriving DecidableEq, Repr

end Machine

end Sys2Proof
end

