-- ==== Sys2Proof/Types.lean ====
section
/-! DEFINITION. The data the commands and the state are made of: tokens, time stamps, bus masters, resources with a health
state, and what a structure image, a recipe and a program hold once decoded. -/
namespace Sys2Proof.Machine

/-- A sample token (R15): VALUE, SIG, ST, TAG and CSEQ. -/
structure Token where
  value : Word
  sig   : BitVec 12
  st    : BitVec 4
  tag   : BitVec 16
  cseq  : Word
  deriving DecidableEq, Repr

/-- A reading of the network time base (R52): seconds, nanoseconds and the fraction in units of 2^-24 ns. -/
structure Stamp where
  sec  : Nat
  nsec : Nat
  sub  : Nat
  deriving DecidableEq, Repr

/-- A bus master the firewall checks (R491), by its number, or one of the engines it does not check. -/
inductive Master where
  | bus (m : Nat)
  | iml | seq | rce | evl | cyc | ctu | vlt
  deriving DecidableEq, Repr

/-- The kinds of access (R494). -/
inductive Access where
  | read | write | fetch | rmw
  deriving DecidableEq, Repr

/-- A resource that follows the health model (R29): converters 0 to 19, test DACs, physical crews, step stages (physical
crew, axis), encoders, current-loop outputs, valve drivers, CAN controllers, Ethernet ports, pair-link lanes, crew DMA
channels, record-mover channels, links, brake outputs, group outputs, Serit-S connections and domains. -/
inductive Res where
  | conv (s : Nat) | tdac (p : Nat) | crew (n : Nat) | stage (n j : Nat) | enc (n : Nat)
  | clo (n : Nat) | vdr (n : Nat) | can (n : Nat) | eth (n : Nat) | lane (l : Nat)
  | cdm (n ch : Nat) | rmv (c : Nat) | link (l : Nat)
  | brake (b : Nat) | group (g : Nat) | conn (k : Nat) | domain (d : Nat)
  deriving DecidableEq, Repr

/-- The health states (R29), with their encodings 0 to 3. -/
inductive Health where
  | service | retry | retired | testing
  deriving DecidableEq, Repr

/-- What an access to a memory finds in the ECC (R498, R499). -/
inductive Ecc where
  | clean | corrected | uncorrectable
  deriving DecidableEq, Repr

/-! ## What a structure image holds (chapters 03 to 06), decoded -/

/-- An operand slot of a task context (R96, R100): its signal identifier, the catch entry, DIV and PHASE of a CATCH slot, and
the substitute. -/
structure SlotCfg where
  sig   : BitVec 12
  e     : Nat
  div   : Nat
  phase : Nat
  subst : Word
  deriving DecidableEq, Repr

/-- The parts of a task context that no register holds (R95): its slots and its result signal identifiers. -/
structure CtxRoute where
  slots   : List SlotCfg
  results : List (BitVec 12)
  deriving DecidableEq, Repr

/-- A conversion-table entry (R131). -/
structure ConvEntry where
  valid   : Bool
  e       : Nat
  offset  : Nat
  div     : Nat
  phase   : Nat
  os      : Nat
  iir     : Nat
  ch      : Nat
  kind    : Nat
  range   : Nat
  burnout : Nat
  sig     : BitVec 12
  settle  : Nat
  poly    : Bool
  pset    : Nat
  cjc     : Nat
  a       : Word
  b       : Word
  deriving DecidableEq, Repr

/-- One crew's record of the BUDGET section (R79). -/
structure BudgetRec where
  minStrokeNs : Nat
  strokeCyc   : Nat
  loadCyc     : Nat
  retryCyc    : Nat
  slack       : Nat
  loopRate    : Nat
  waitNs      : List Nat
  deriving DecidableEq, Repr

/-- The NETWORK section's lists (R384, R393, R394, R426, R441): VIDs, EtherTypes and UDP ports handed to firmware, the EtherTypes of
Serit-S and of heartbeats, (VID, PCP) of each traffic class (Serit-S, record, register access, firmware frames), and QMAP. -/
structure NetCfg where
  vids   : List Nat
  etypes : List Nat
  udps   : List Nat
  serit  : Nat
  hb     : Nat
  cls    : List (Nat × Nat)
  qmap   : List Nat
  deriving DecidableEq, Repr

/-- The MIRROR section (R446): MDIV, MREF, the marked loops and axes (logical crew, index), and whether program variables are. -/
structure MirCfg where
  mdiv  : Nat
  mref  : Nat
  loops : List (Nat × Nat)
  axes  : List (Nat × Nat)
  prog  : Bool
  deriving DecidableEq, Repr

/-- A scheduled token of a hardware source (R17, R66, R269): its signal identifier, the logical crew whose catches it follows, and the catch entry
(notes/assumptions/113.md). -/
structure SrcTok where
  sig  : Nat
  crew : Nat
  e    : Nat
  deriving DecidableEq, Repr

/-- The tables of a structure image that no register holds (R76): the crews it binds, PARENT_ID and PART_CREW (R73), the routes, the
budget, the conversion tables and their polynomials, the crossbar, N and W of every class, each crew's four axis-task contexts,
its firewall regions (R492: master within the crew's engines and channels, word of its regions, value), and the
NETWORK and MIRROR lists, and the schedule of the hardware sources.  Per-crew tables are keyed by logical crew. -/
structure ImgTables where
  crews  : Nat
  parent : Nat
  part   : Nat
  routes : List (Nat × List (Nat × CtxRoute))
  budget : List (Nat × BudgetRec)
  conv   : List (Nat × List ConvEntry)
  polys  : List (List Word)
  xbar   : List Nat
  health : List (Nat × (Nat × Nat))
  axctx  : List (Nat × List Nat)
  fwl    : List (Nat × List (Nat × Nat × Word))
  net    : NetCfg
  mir    : MirCfg
  srcs   : List SrcTok
  deriving DecidableEq, Repr

/-- A selection entry (R286); `k` and `div` hold K and DIV themselves. -/
structure RecSel where
  crew   : Nat
  minmax : Bool
  expect : Bool
  e      : Nat
  k      : Nat
  div    : Nat
  phase  : Nat
  subst  : Word
  deriving DecidableEq, Repr

/-- A measurement of a capture set (R318). -/
structure MeasCfg where
  valid : Bool
  idx   : Nat
  kind  : Nat
  first : Int
  last  : Int
  p1    : Word
  p2    : Word
  deriving DecidableEq, Repr

/-- An envelope entry (R322): `n1` is GOLD or the capture set of a measurement, `n2` MIDX; the points of CURVE as (X, Y). -/
structure EnvEntry where
  sig    : Nat
  ekind  : Nat
  set    : Nat
  action : Nat
  capEn  : Bool
  cap    : Nat
  nhold  : Nat
  n1     : Nat
  n2     : Nat
  w2     : Word
  w3     : Word
  upper  : List (Nat × Word)
  lower  : List (Nat × Word)
  deriving DecidableEq, Repr

/-- The tables of the RECORD and TRIGGER sections: selections by SIG, signal lists and measurements by capture set, envelope
entries by logical crew. -/
structure RecImg where
  sels : List (Nat × RecSel)
  caps : List (Nat × List Nat)
  meas : List (Nat × List MeasCfg)
  envs : List (Nat × List EnvEntry)
  deriving DecidableEq, Repr

/-- What the sections of a structure image hold, decoded (R76; notes/assumptions/10.md): the tables, the RECORD and TRIGGER tables, the
values of IMG registers (module-wide, by address; per logical crew, by offset in the crew's window), the words of each crew's memory by
offset, the PAVILION section's bytes, and the module-wide part of BUDGET (R79). -/
structure ImgContent where
  tables   : ImgTables
  record   : RecImg
  regs     : List (Nat × Word)
  crewRegs : List (Nat × List (Nat × Word))
  crewMem  : List (Nat × List (Nat × Word))
  par      : List Nat
  recRate  : Nat
  lanA     : Nat
  lanB     : Nat
  mirror   : Nat
  deriving DecidableEq, Repr

/-- What the runtime's sections of a program declare (R458: they do not concern the module; notes/assumptions/11.md): the base and length
in bytes of its variables, constants, input and output images and mirrored variables, the values its image gives variables and retained
variables (R468), and whether they carry the proof of R468. -/
structure ProgAreas where
  vars    : Nat × Nat
  consts  : Nat × Nat
  inImg   : Nat × Nat
  outImg  : Nat × Nat
  mirror  : Nat × Nat
  varInit : List Nat
  retInit : List Nat
  proof   : Bool
  deriving DecidableEq, Repr

/-- What a pavilion cycle measures: for each brake output its index, the feedback of both switches, its current in mA and the counters
S_P and E_P; for each group output its index, both feedbacks and its current in mA; and the local valve drivers whose current
sense conducts. -/
structure PavMeas where
  brks   : List (Nat × Bool × Bool × Nat × Int × Int)
  grps   : List (Nat × Bool × Bool × Nat)
  valves : List Nat
  deriving DecidableEq, Repr

/-- A CAN frame as the bus carries it (R361, R365); `data` has LEN bytes. -/
structure CanFrame where
  id   : BitVec 29
  xtd  : Bool
  rtr  : Bool
  esi  : Bool
  fdf  : Bool
  brs  : Bool
  dlc  : BitVec 4
  data : List Byte
  deriving DecidableEq, Repr

/-- What an error on the bus counts under ISO 11898-1 (R369): TEC by 8 or not at all for a frame being sent, REC by 1 or 8 otherwise. -/
inductive CanErr where
  | tx8 | tx0 | rx1 | rx8
  deriving DecidableEq, Repr

/-- What leaves a unit in a step (the model's own record): tokens on their link (0 to 11 of R504; 0x100 + k: stream of converter k at the crossbar;
0x200 + n: from the ACQ port of crew n to its cox; 0x300 + k: stream of converter k to RCE), and frames or datagrams of a unit as bytes (unit 1: RCE's
datagrams). -/
inductive Emit where
  | tok (link : Nat) (t : Token)
  | frame (unit : Nat) (bytes : List Nat)
  deriving DecidableEq, Repr

def RecImg.empty : RecImg := ⟨[], [], [], []⟩

end Sys2Proof.Machine
end

