-- ==== Sys2Proof/Syntax.lean ====
section
/-! DEFINITION. The commands of the module: one constructor per row of the table of operations and events
(spec/opcode_table.json), with the operands the model gives it (notes/assumptions/1.md).  An operand of
type Unit carries nothing. -/
namespace Sys2Proof
open Machine

/-- The commands. -/
inductive Instr where
  /-- REGISTER_WRITE (R5): A write to a register field that has no behaviour of its own stores, ignores or refuses the value according to its access code. -/
  | registerWrite (src : Fin 160) (a : BitVec 40) (size : Fin 4) (v : BitVec 64)
  /-- MEMORY_ACCESS (R581): A master reads or writes a memory location, subject to alignment, read-only and firewall checks. -/
  | memoryAccess (src : Fin 160) (k : Access) (a : BitVec 40) (len : Fin 65) (v : BitVec 512) (e : Ecc) (task : Option (Fin 512 × Fin 2))
  /-- ALIAS_ACCESS (R24): an access through a logical crew alias is performed on the physical crew that the crew map names, or completes with a bus error for an unbound crew. -/
  | aliasAccess (src : Fin 160) (k : Access) (m : Fin 8) (mem : Bool) (o : BitVec 24) (len : Fin 65) (v : BitVec 512) (e : Ecc)
  /-- RETRY_WINDOW_ELAPSED (R30): the window W of a resource in RETRY elapses and the resource returns to SERVICE. -/
  | retryWindowElapsed (r : Res)
  /-- READMIT_TEST_DONE (R30): A re-admission test reaches its verdict and the resource returns to SERVICE or stays RETIRED. -/
  | readmitTestDone (r : Res) (code : BitVec 16)
  /-- SPARE_SELF_TEST (R12): every 1 s the spare crew starts its built-in lockstep test pattern. -/
  | spareSelfTest
  /-- SPARE_SELF_TEST_DONE (R12): the spare's built-in test ends and a failure retires the spare with cause 5. -/
  | spareSelfTestDone (ok : Bool)
  /-- EVL_DRAIN (R37): every 8 fabric cycles one queued entry is written to the MRAM mirror, the boathouse ring and the DRAM log. -/
  | evlDrain
  /-- EVL_DRAM_ENABLE (R38): setting DRAM_EN copies the boathouse entries since the last reset into the DRAM log and logs 0x0011. -/
  | evlDramEnable
  /-- SW_EVENT_RAISE (R36): A core write to EVL_SW_CODE logs code 0x0080 + SUBCODE with that core's software detail. -/
  | swEventRaise (c : Fin 8) (subcode : BitVec 7)
  /-- SW_EVENT_DETAIL_WRITE (R36): A core write to EVL_SW_DETAIL sets that core's own detail copy for its later software events. -/
  | swEventDetailWrite (c : Fin 8) (v : Word)
  /-- COURSE_UPDATE (R41): each course generator updates its position once per fabric cycle. -/
  | courseUpdate
  /-- CATCH_ISSUE (R48): A running catch table issues a catch when its course first passes the next entry position beyond the high-water mark. -/
  | catchIssue (m : Fin 8)
  /-- CATCH_ARRIVAL (R51): A catch reaches its subscribed consumers: the cox of the mapped crew, conversion players, SEQ, CYC and RCE. -/
  | catchArrival (m : Fin 8)
  /-- MAINS_CROSSING (R43): A positive-going zero crossing of the mains is judged valid or not, advancing lock and the course. -/
  | mainsCrossing (period peakMv : Nat)
  /-- MAINS_HOLDOVER_TIMEOUT (R43): no valid crossing within 1.5 times the last locked period puts the mains course into HOLDOVER. -/
  | mainsHoldoverTimeout (c : Fin 4)
  /-- CT_RUN_WRITE (R50): A write of CT_m_CTRL.RUN starts the table at the next stroke start or lets it stop after the current stroke. -/
  | ctRunWrite (m : Fin 8) (run : Bool)
  /-- CT_GROUP_GO (R50): A write of CTU_CT_GO sets RUN of several tables in the same fabric cycle. -/
  | ctGroupGo (mask : BitVec 8)
  /-- TIME_BASE_TICK (R52): each fabric cycle the time base adds TIME_INC plus any slew share to NSEC.FRAC and carries into SEC. -/
  | timeBaseTick
  /-- TIME_INC_WRITE (R53): A write of CTU_TIME_INC sets the increment, clamped to ±500 ppm with INC_CLAMP and event 0x0213. -/
  | timeIncWrite (v : Word)
  /-- TIME_SLEW_WRITE (R54): A write of CTU_TIME_SLEW sets the remaining slew, clamped to ±1 ms. -/
  | timeSlewWrite (v : Word)
  /-- TIME_STEP_GO (R55): CTU_STEP_CTRL.GO applies or refuses a time step by offset or absolute load. -/
  | timeStepGo (load : Bool)
  /-- TIME_STATE_WRITE (R57): A write of CTU_TIME_STATE.STATE changes the time-base state as the transition table allows. -/
  | timeStateWrite (v : BitVec 2)
  /-- SERVO_WD_EXPIRE (R57): the servo watchdog expires in LOCKED and the time base enters HOLDOVER with WD_EXP set. -/
  | servoWdExpire
  /-- TIME_SNAPSHOT (R52): A write of CTU_SNAP latches the time base into the snapshot registers in one cycle. -/
  | timeSnapshot
  /-- AON_TIME_SNAPSHOT (R61): every 1 ms the AON domain keeps a snapshot of the time base with its elapsed count. -/
  | aonTimeSnapshot
  /-- PPS_OUT_RISE (R62): PPS_OUT rises when network time reaches a whole second plus the offset. -/
  | ppsOutRise
  /-- PPS_OUT_FALL (R62): PPS_OUT falls WIDTH_US microseconds after it rose. -/
  | ppsOutFall
  /-- PPS_IN_EDGE (R63): the selected edge of PPS_IN captures the time base, or sets OVR when a capture is unread. -/
  | ppsInEdge (rising : Bool)
  /-- PPS_CAPTURE_READ (R63): A read of CTU_PPS_CAP_HI releases the capture and clears CAP_VALID. -/
  | ppsCaptureRead
  /-- DIN_RAW_EDGE (R65): A raw edge of DIN_n starts or discards a candidate transition with its time stamp. -/
  | dinRawEdge (n : Fin 64) (level : Bool)
  /-- DIN_QUALIFY (R64): the raw input stays at a new level for F and the qualified level changes, entering the edge FIFO. -/
  | dinQualify (n : Fin 64)
  /-- DIN_FIFO_POP (R66): A read of word 3 of DIO_FIFO_n pops the oldest edge entry. -/
  | dinFifoPop (n : Fin 64)
  /-- IML_STAGE (R94): the STAGE command starts verification of the image named by the staging source registers. -/
  | imlStage
  /-- IML_VERIFY_DONE (R81): verification in DRAM ends: a full image enters COPY, a partial image is STAGED, or the image is refused. -/
  | imlVerifyDone (c : ImgContent) (_u : Unit := ())
  /-- IML_COPY_DONE (R84): the image copied into the inactive slot is re-verified and the slot is marked valid or empty. -/
  | imlCopyDone (c : ImgContent) (_u : Unit := ())
  /-- IML_ACTIVATE (R84): ACTIVATE requests an image-switch reset into the valid inactive slot, or is ignored. -/
  | imlActivate
  /-- IML_REPLACE (R87): REPLACE checks the spare and starts loading the partial image's crew sections into it. -/
  | imlReplace
  /-- IML_ABORT (R94): ABORT ends a verification, copy, staged partial image or replacement before its switch. -/
  | imlAbort
  /-- REPLACE_SPARE_LOADED (R87): loading the spare ends and IML chooses the switch catch at least 2 strokes later. -/
  | replaceSpareLoaded
  /-- REPLACE_SWITCH (R87): at the switch catch the crew map and crossbar switch to the spare and the successor slot becomes active. -/
  | replaceSwitch
  /-- COX_TOKEN_ARRIVAL (R99): A token for an operand slot is placed into a match entry, discarded as late, or handled by the overrun policy. -/
  | coxTokenArrival (m : Fin 8) (x : Fin 512) (k : Fin 4) (link : Nat) (t : Token)
  /-- COX_DISPATCH (R107): each fabric cycle every target able to accept work takes the head-most eligible entry of the highest priority. -/
  | coxDispatch (n : Fin 9) (can : BitVec 3)
  /-- COX_RELEASE (R108): an ISSUED entry is released to FREE once its target completes and, for LPE and MOT, lockstep confirms. -/
  | coxRelease (n : Fin 9) (x : Fin 512) (acq : List (Word × BitVec 4))
  /-- DP_POP (R112): A read of COX_DP_c_POP moves the head descriptor into view and removes it from the FIFO. -/
  | dpPop (n : Fin 9) (c : Fin 8)
  /-- DP_DONE (R113): A write of COX_DP_c_DONE builds and tags the result tokens and releases the entry. -/
  | dpDone (n : Fin 9) (c : Fin 8) (nres : BitVec 3)
  /-- COX_WINDOW_END (R114): an observation window ends, its figures are copied, excess waits are reported and WIN_DONE is set. -/
  | coxWindowEnd (n : Fin 9)
  /-- COX_CLR_TOTALS (R115): COX_CLR.TOTALS clears the COX_TOT counters. -/
  | coxClrTotals (n : Fin 9)
  /-- COX_CLR_CTX_COUNTS (R115): COX_CLR.CTX_COUNTS clears STALE and DROP of every context. -/
  | coxClrCtxCounts (n : Fin 9)
  /-- COX_CLR_DEPTH_MAX (R117): COX_CLR.DEPTH_MAX clears the maximum of every ready-list depth. -/
  | coxClrDepthMax (n : Fin 9)
  /-- CONV_ENTRY_START (R132): A conversion entry's start position is reached and the player writes the channel register and starts settling, or queues it. -/
  | convEntryStart (k : Fin 20) (e : Fin 1024) (cseq : Word)
  /-- CONV_SETTLE_END (R132): settling ends and the converter runs OS conversions back to back. -/
  | convSettleEnd (k : Fin 20)
  /-- CONV_END (R136): the last conversion of an entry ends and the player computes, filters and tags the sample token. -/
  | convEnd (k : Fin 20) (codes : List Int)
  /-- CONV_TIMEOUT (R147): A conversion result not ready 200 ns after its expected end is a transient of cause 1. -/
  | convTimeout (k : Fin 20)
  /-- REF_MONITOR_FAULT (R147): A reference-monitor reading outside ±0.05 % is a transient of the converter with cause 2. -/
  | refMonitorFault (k : Fin 20)
  /-- ACQ_TOKEN (R140): A token reaches the ACQ port, its tag is checked and it is passed to the cox. -/
  | acqToken (n : Fin 9) (k : Fin 20) (t : Token)
  /-- PAIR_CHECK (R141): both check samples of a pair are compared and the check token, mismatch count or arbitration level follows. -/
  | pairCheck (p : Fin 8) (_u : Unit := ())
  /-- CONVERTER_READMIT (R148): AFE_READMIT naming a converter starts its five-level test-DAC re-admission test. -/
  | converterReadmit (k : Fin 20)
  /-- TDAC_READMIT (R148): AFE_READMIT with TDAC set starts the test of a pair's test DAC against both converters. -/
  | tdacReadmit (p : Fin 8)
  /-- TDAC_DIAG_REQUEST (R150): A GO to AFE_TDAC_p_CMD queues a diagnostic request for the next diagnostic slot, or refuses it. -/
  | tdacDiagRequest (p : Fin 8) (code : BitVec 12) (mode : BitVec 2) (conv : Bool) (ch : BitVec 3)
  /-- CAL_START (R152): START latches channel and range and arms calibration, or is refused. -/
  | calStart (ch : BitVec 8) (range : BitVec 2)
  /-- CAL_CAPTURE_LO (R152): CAPTURE_LO latches the known value X0 and begins averaging N samples. -/
  | calCaptureLo
  /-- CAL_CAPTURE_HI (R152): CAPTURE_HI latches the known value X1 and begins averaging N samples. -/
  | calCaptureHi
  /-- CAL_CAPTURE_DONE (R152): N usable samples complete a capture point, or a bad sample refuses it with BAD_SAMPLE. -/
  | calCaptureDone
  /-- CAL_COMMIT (R153): COMMIT computes gain and offset, checks them and writes the system record. -/
  | calCommit
  /-- CAL_COMMIT_DONE (R154): the calibration record is written and read back, and the new coefficients take effect. -/
  | calCommitDone (ok : Bool)
  /-- CAL_ABORT (R152): ABORT ends calibration without writing anything. -/
  | calAbort
  /-- CAL_REVERT (R152): REVERT writes both system records of the channel and range as zeros so the factory record is in force. -/
  | calRevert (ch : BitVec 8) (range : BitVec 2)
  /-- LOOP_UPDATE (R161): the loop pipe pair runs a loop's law for one catch, applying queued changes, mode, fallback and the envelope. -/
  | loopUpdate (n : Fin 9) (x : Fin 512) (bad : List Nat)
  /-- LOOP_MODE_REQUEST (R166): A write of LPE_MODE_x.REQ requests a mode for the next update, or is refused. -/
  | loopModeRequest (n : Fin 9) (l : Fin 128) (v : BitVec 3)
  /-- LOOP_FB_CLR (R170): A write of FB_CLR permits a latched fallback to end, or is discarded outside fallback. -/
  | loopFbClr (n : Fin 9) (l : Fin 128)
  /-- SATFB_CHANGE (R172): an output stage raises or withdraws a saturation flag, which is latched into the driving loop's STATUS. -/
  | satfbChange (m : Fin 8) (l : Fin 128) (hi lo : Bool)
  /-- PARAM_COMMIT (R174): LPE_PC_CMD.COMMIT checks the staged change whole and queues it or refuses it. -/
  | paramCommit (n : Fin 9) (clear : Bool)
  /-- PARAM_CLEAR (R174): LPE_PC_CMD.CLEAR clears the staging mask and values. -/
  | paramClear (n : Fin 9)
  /-- REP_ACTION (R188): A write of LPE_REP_x.ACTION requests CARRY, LEARN, FREEZE or RESET at the next update. -/
  | repAction (n : Fin 9) (l : Fin 128) (a : BitVec 2)
  /-- REP_TABLE_CLEAR_DONE (R189): background clearing of a repetitive table ends, RESET_PEND clears and 0x0620 is logged. -/
  | repTableClearDone (n : Fin 9) (l : Fin 128)
  /-- LSM_COMPARE (R191): the lockstep monitor compares both halves' results and state writes, releasing them or reporting a mismatch. -/
  | lsmCompare (n : Fin 9) (x : Fin 512) (ok : Bool)
  /-- SLACK_EXHAUSTED (R194): the stroke's re-run charge reaches SLACK_CYC and unconfirmed re-runs are abandoned. -/
  | slackExhausted (n : Fin 9)
  /-- MIGRATION_COPY_DONE (R197): the copy of the crew's state to the spare completes and the next stroke-0 catch becomes the switch catch. -/
  | migrationCopyDone
  /-- MIGRATION_SWITCH (R197): at the switch catch the crew map switches to the spare, which continues from the copied state. -/
  | migrationSwitch
  /-- CREW_READMIT (R202): LSM_CTRL.READMIT starts the retired crew's 25 ms re-admission test. -/
  | crewReadmit (n : Fin 9)
  /-- CREW_FORCE_RETIRE (R195): LSM_CTRL.FORCE_RETIRE with key 0xA5 retires the crew with cause 6. -/
  | crewForceRetire (n : Fin 9)
  /-- CREW_MIGRATE (R201): LSM_CTRL.MIGRATE with key 0xA5 migrates a stranded crew to an existing spare. -/
  | crewMigrate (n : Fin 9)
  /-- LSM_CLR_COUNTS (R194): LSM_CLR.COUNTS clears the retry, mismatch and exhaustion counters. -/
  | lsmClrCounts (n : Fin 9)
  /-- SEQ_LOAD (R212): LOAD starts verifying a recipe image in DRAM for slot r, or is refused. -/
  | seqLoad (r : Fin 16)
  /-- SEQ_LOAD_DONE (R213): verification, copy and re-verification end and the recipe becomes LOADED or is refused. -/
  | seqLoadDone (_u : Unit := ())
  /-- SEQ_UNLOAD (R224): UNLOAD erases the recipe area and makes the slot EMPTY. -/
  | seqUnload (r : Fin 16)
  /-- SEQ_START (R224): START submits step SEQ_ARG at the next stroke start and makes the recipe RUNNING. -/
  | seqStart (r : Fin 16)
  /-- SEQ_PAUSE (R224): PAUSE sets PAUSE_PEND so the recipe pauses at its next submission. -/
  | seqPause (r : Fin 16)
  /-- SEQ_HOLD (R224): HOLD stops step strokes at the lead crew's next stroke start. -/
  | seqHold (r : Fin 16)
  /-- SEQ_RESUME (R224): RESUME returns a held, paused or restored recipe to RUNNING. -/
  | seqResume (r : Fin 16)
  /-- SEQ_ABORT (R224): ABORT submits the abort path, or ends the recipe ABORTED. -/
  | seqAbort (r : Fin 16)
  /-- STEP_STROKE (R214): at each lead-crew stroke start SEQ counts step strokes, submits the next valve set, applies commands and detects timeouts. -/
  | stepStroke (r : Fin 16) (cseq : Word)
  /-- STEP_CONDITION_OBSERVE (R215): an observation of an end condition qualifies or resets the run count, possibly meeting the condition. -/
  | stepConditionObserve (r : Fin 16) (link : Nat) (t : Token)
  /-- STEP_CATCH (R217): on the step catch all staged changes, valve switching, envelope set and mark of the step take effect. -/
  | stepCatch (r : Fin 16)
  /-- VSET_ANSWER (R219): the pavilion's answer to a submitted valve set arms it or refuses it, putting the recipe on hold. -/
  | vsetAnswer
  /-- GROUP_CUT_NOTICE (R222): A group cut that de-energises commanded valves puts the recipe on HOLD with cause 5. -/
  | groupCutNotice (g : Fin 4)
  /-- CKPT_PERIODIC_CUT (R225): network time reaches a multiple of PERIOD_MS and a periodic checkpoint cut is made. -/
  | ckptPeriodicCut (cseq : Word)
  /-- CKPT_WRITE_DONE (R230): A checkpoint write completes with COMMIT written last, or fails and logs 0x071B. -/
  | ckptWriteDone (ok : Bool)
  /-- REP_SNAPSHOT_DONE (R228): A repetitive snapshot finishes writing into the repetitive part of its area. -/
  | repSnapshotDone (ok : Bool)
  /-- PFLAG_SET (R215): A write of SEQ_PFLAG_SET sets program flags. -/
  | pflagSet (hi : Bool) (v : Word)
  /-- PFLAG_CLR (R215): A write of SEQ_PFLAG_CLR clears program flags, winning over a set in the same cycle. -/
  | pflagClr (hi : Bool) (v : Word)
  /-- AXIS_ENABLE (R279): ENABLE moves a DISABLED axis to IDLE, or is refused when the pavilion withholds the permit. -/
  | axisEnable (a : Fin 32)
  /-- AXIS_DISABLE (R279): DISABLE stops the axis at A_STOP if moving and makes it DISABLED. -/
  | axisDisable (a : Fin 32)
  /-- AXIS_MOVE (R251): MOVE starts a move table, takes over a moving axis by blend, or retargets it. -/
  | axisMove (a : Fin 32) (k : Fin 64)
  /-- AXIS_STOP (R258): STOP begins a stop ramp and reports STOP_POS. -/
  | axisStop (a : Fin 32)
  /-- AXIS_HOME (R273): HOME starts a homing sequence in the given mode and clears REFERENCED. -/
  | axisHome (a : Fin 32) (mode : BitVec 8)
  /-- AXIS_GEAR (R263): GEAR engages electronic gearing to a master encoder from IDLE. -/
  | axisGear (a : Fin 32)
  /-- AXIS_GEAR_SET (R264): GEAR_SET stages a ratio change at master count M_SW, or is refused with PENDING. -/
  | axisGearSet (a : Fin 32)
  /-- AXIS_UNGEAR (R266): UNGEAR stops a geared axis from its following velocity. -/
  | axisUngear (a : Fin 32)
  /-- AXIS_CLEAR (R279): CLEAR returns an axis in FAULT to IDLE and zeroes its fault code. -/
  | axisClear (a : Fin 32)
  /-- STAGE_READMIT (R243): AX_CMD READMIT starts the step stage's segment replay re-admission test. -/
  | stageReadmit (a : Fin 32)
  /-- AXIS_TASK (R252): once per stroke the axis task checks segments, hands them to the stage, applies commands and evaluates stall. -/
  | axisTask (n : Fin 9) (x : Fin 512)
  /-- STEP_STAGE_CYCLE (R255): each fabric cycle the step stage interpolates, switches segments and emits STEP and DIR edges. -/
  | stepStageCycle (a : Fin 32) (differ : Bool)
  /-- AXIS_AT_REST (R258): A stop ramp reaches rest and the axis goes to IDLE, FAULT or the pending retarget table. -/
  | axisAtRest (a : Fin 32)
  /-- RT_TIMEOUT (R259): READY of the pending retarget table is not set within RT_WAIT of rest and the axis faults. -/
  | rtTimeout (a : Fin 32)
  /-- HW_LIMIT_ACTIVE (R262): A hardware limit input becomes active toward motion and the axis stops at A_LIM with HW_LIMIT. -/
  | hwLimitActive (a : Fin 32) (pos : Bool)
  /-- GEAR_SWITCH (R264): the master count reaches M_SW and the staged ratio takes over without losing a step. -/
  | gearSwitch (a : Fin 32)
  /-- HOME_REFERENCE_EDGE (R275): A reference edge or index captures p_ref during homing. -/
  | homeReferenceEdge (a : Fin 32) (index : Bool)
  /-- AXIS_PERMIT_WITHDRAWN (R279): the pavilion withdraws an axis permit and the axis halts and becomes DISABLED. -/
  | axisPermitWithdrawn (a : Fin 32)
  /-- ENCODER_EDGE (R267): A filtered edge of A or B counts in the raw accumulator, or is illegal. -/
  | encoderEdge (g : Fin 16) (a b : Bool)
  /-- ENC_LINE_FAULT (R268): A loss of differential level begins a line fault, a transient of cause 2. -/
  | encLineFault (g : Fin 16) (lines : BitVec 3)
  /-- ENC_INDEX (R269): A rising Z edge captures the accumulator into ENC_n_IDX, or sets IDX_OVR. -/
  | encIndex (g : Fin 16)
  /-- ENC_IDX_READ (R269): A read of ENC_n_IDX_HI clears IDX_VALID. -/
  | encIdxRead (g : Fin 16)
  /-- ENC_READMIT (R268): ENC_READMIT starts an encoder's line check and built-in count test. -/
  | encReadmit (g : Fin 16)
  /-- RCE_TOKEN (R288): A selected token reaches RCE, is tag-checked and placed in its row, and is evaluated by trigger units and envelopes. -/
  | rceToken (link : Nat) (t : Token)
  /-- ROW_CLOSE (R287): A catch ROW_LAG strokes later closes a row, writing it with its MINMAX and GAP rows and filling capture slots. -/
  | rowClose (m : Fin 8) (bad : List Nat)
  /-- CAPTURE_COMPLETE (R313): the last post-trigger slot is written, measurements and the header with COMPLETE are written and DONE set. -/
  | captureComplete (c : Fin 64)
  /-- BLOCK_CLOSE (R298): A block closes when a row does not fit, BLOCK_MS passes or the chain ends. -/
  | blockClose
  /-- BLOCK_TIMEOUT (R298): BLOCK_MS passes since the block's first row and the block closes. -/
  | blockTimeout
  /-- BLOCK_HASH_DONE (R298): the block's SHA-384 is computed and loaded into RCE_LAST_HASH. -/
  | blockHashDone
  /-- BLOCK_SIGNED (R299): the vault's signature over a block is written into the next block, or signing fails. -/
  | blockSigned (ok : Bool)
  /-- RECORD_START (R300): RUN going from 0 to 1 starts a chain with a new CHAIN_ID and a RECORD_START row. -/
  | recordStart
  /-- RECORD_STOP (R300): RUN = 0 closes open rows and the block and writes a signed SEAL block. -/
  | recordStop
  /-- EXPORT_DATAGRAM (R302): the streamer sends the next live datagram of a closed block, or skips a block about to be overwritten. -/
  | exportDatagram
  /-- RETX_REQUEST (R304): A retransmission request datagram is queued, or answered with a refusal. -/
  | retxRequest (dg : List Byte)
  /-- RETX_SERVE (R304): A queued retransmission request is served in free bandwidth with DKIND 1 fragments. -/
  | retxServe
  /-- TRIGGER_ARM_WRITE (R305): A write of RCE_TRG_ARM arms or disarms trigger units. -/
  | triggerArmWrite (g : Fin 4) (v : Word)
  /-- CAPTURE_ARM (R315): CAP_CTRL.ARM checks POST and arms the capture set in a free buffer, or refuses. -/
  | captureArm (c : Fin 64)
  /-- CAPTURE_DISARM (R315): CAP_CTRL.DISARM returns the set to IDLE, writing an ABORTED header if triggered. -/
  | captureDisarm (c : Fin 64)
  /-- CAPTURE_FORCE (R315): CAP_CTRL.FORCE makes a trigger event with SRC = 2 on an ARMED set. -/
  | captureForce (c : Fin 64)
  /-- CAPTURE_RELEASE0 (R315): CAP_CTRL.RELEASE0 frees buffer 0 and re-arms a FROZEN set. -/
  | captureRelease0 (c : Fin 64)
  /-- CAPTURE_RELEASE1 (R315): CAP_CTRL.RELEASE1 frees buffer 1 and re-arms a FROZEN set. -/
  | captureRelease1 (c : Fin 64)
  /-- OUTPUT_TOKEN (R333): A producer token reaches a current-loop or heater output, is checked and applied. -/
  | outputToken (out : Fin 80) (link : Nat) (t : Token) (echo : Bool)
  /-- PRODUCER_TIMEOUT (R335): TMO stroke starts pass without a token and the output takes its stop action. -/
  | producerTimeout (out : Fin 80)
  /-- HEADROOM_MEASURE (R338): every 100 µs a current-loop channel measures headroom and current. -/
  | headroomMeasure (n : Fin 16) (head meas : Word)
  /-- COMPLIANCE_SET (R338): 20 consecutive measurements below 1.5 V set COMPLIANCE and raise the high flag. -/
  | complianceSet (n : Fin 16)
  /-- COMPLIANCE_CLEAR (R338): 20 consecutive measurements at or above 2.0 V clear COMPLIANCE and withdraw the flag. -/
  | complianceClear (n : Fin 16)
  /-- LOOP_LOW_TIMEOUT (R339): commanded and measured current differ for 50 ms and the channel faults with LOOP_LOW and drives its alarm. -/
  | loopLowTimeout (n : Fin 16)
  /-- ALARM_NR_TIMEOUT (R340): the alarm level is not reached for 50 ms and ALARM_NR is set. -/
  | alarmNrTimeout (n : Fin 16)
  /-- CLO_CLR (R339): A write of CLO_CLR clears LOOP_LOW and ALARM_NR and resumes normal drive. -/
  | cloClr (mask : BitVec 16)
  /-- CLO_THERMAL_SHUTDOWN (R342): junction over temperature switches the channel below 1 mA, sets TSD and counts a transient. -/
  | cloThermalShutdown (n : Fin 16)
  /-- CLO_THERMAL_RESUME (R342): the temperature falls 15 K and the channel resumes, at most once per second. -/
  | cloThermalResume (n : Fin 16) (echo : Bool)
  /-- CLO_READMIT (R342): CLO_READMIT starts a channel's 4, 12 and 20 mA test into the internal load. -/
  | cloReadmit (n : Fin 16)
  /-- HART_GO (R344): HART_n_CMD.GO starts a transaction from the TX area, or refuses it. -/
  | hartGo (n : Fin 16)
  /-- HART_RESPONSE (R344): A response frame arrives and the transaction ends DONE with OK or after retries COMM. -/
  | hartResponse (n : Fin 16) (ok : Bool) (frame : List Word)
  /-- HART_NO_RESPONSE (R344): no response arrives after all retries and the transaction ends NO_RESPONSE. -/
  | hartNoResponse (n : Fin 16)
  /-- HART_BURST_RX (R344): A burst frame from the field device enters the burst area, setting BURST_OVR if unread. -/
  | hartBurstRx (n : Fin 16) (frame : List Word)
  /-- HART_BURST_READ (R344): A read of HART_n_BURST word 0 releases the burst frame. -/
  | hartBurstRead (n : Fin 16)
  /-- VALVE_HIT_END (R346): the hit time ends and the driver switches to 20 kHz holding at DUTY. -/
  | valveHitEnd (n : Fin 64)
  /-- VALVE_OVERCURRENT (R347): current above 1.2 A for 2 µs trips the driver off with TRIP. -/
  | valveOvercurrent (n : Fin 64)
  /-- VALVE_RETRY_EXPIRE (R347): RETRY_MS after a trip the driver is re-driven from the hit phase if still commanded. -/
  | valveRetryExpire (n : Fin 64)
  /-- VALVE_OVERTEMP (R347): driver over-temperature switches it off with OT. -/
  | valveOvertemp (n : Fin 64)
  /-- VALVE_COOLED (R347): the driver cools by 15 K and is re-driven if still commanded. -/
  | valveCooled (n : Fin 64)
  /-- VALVE_OPEN_LOAD (R347): the off-state test finds no coil, or a coil again, for 10 ms and sets or clears OPEN. -/
  | valveOpenLoad (n : Fin 64) (isOpen : Bool)
  /-- COIL_SUPPLY_ABSENT (R347): A group's coil common falls below 12 V and GRP_OFF is set. -/
  | coilSupplyAbsent (g : Fin 4)
  /-- VDR_READMIT (R347): VDR_READMIT starts a driver's 200 µs on-pulse test. -/
  | vdrReadmit (n : Fin 64)
  /-- HEATER_CYCLE_DECISION (R348): at ZC_OFS of each mains cycle a heater driver decides its state for the cycle by accumulation. -/
  | heaterCycleDecision (n : Fin 64)
  /-- CAN_FRAME_RX (R360): A received frame is filtered and stored in a FIFO or buffer and mapped into tokens. -/
  | canFrameRx (n : Fin 8) (f : CanFrame) (t : Stamp)
  /-- CAN_RXB_READ_WORD0 (R362): A read of word 0 of a FULL RX buffer locks it and clears NEW. -/
  | canRxbReadWord0 (n : Fin 8) (i : Fin 64)
  /-- CAN_RXB_READ_LAST (R362): A read of the last word of a LOCKED buffer releases it to EMPTY. -/
  | canRxbReadLast (n : Fin 8) (i : Fin 64)
  /-- CAN_RXB_REL (R362): A write of RXB_REL releases locked RX buffers. -/
  | canRxbRel (n : Fin 8) (g : Fin 2) (mask : Word)
  /-- CAN_RXF_ACK (R364): A write of RXF_s_ACK frees FIFO elements up to the written index. -/
  | canRxfAck (n : Fin 8) (f : Fin 2) (i : Fin 32)
  /-- CAN_TX_REQUEST (R366): A write of TXB_REQ requests transmission of buffers, or refuses them. -/
  | canTxRequest (n : Fin 8) (mask : Word)
  /-- CAN_TX_CANCEL (R366): A write of TXB_CANCEL withdraws pending requests or unlinks chain buffers. -/
  | canTxCancel (n : Fin 8) (mask : Word) (sof : Option Stamp)
  /-- CAN_TXC_APPEND (R367): A write of TXC_APPEND links a buffer into the transmit chain, or refuses it. -/
  | canTxcAppend (n : Fin 8) (b : Fin 32)
  /-- CAN_TX_COMPLETE (R368): A frame finishes on the bus and sets DONE, writes a journal entry and advances the chain. -/
  | canTxComplete (n : Fin 8) (t : Stamp)
  /-- CAN_BUS_ERROR (R369): A bus error updates TEC and REC and the error state, possibly entering BUS_OFF. -/
  | canBusError (n : Fin 8) (e : CanErr) (sof : Option Stamp)
  /-- CAN_RECOVER (R371): A write of RECOVER in BUS_OFF starts bus-off recovery. -/
  | canRecover (n : Fin 8)
  /-- CAN_RECOVERY_DONE (R371): 128 occurrences of 11 recessive bits end recovery with ERROR_ACTIVE. -/
  | canRecoveryDone (n : Fin 8)
  /-- CAN_INTEGRATION_DONE (R354): 11 consecutive recessive bits bring an integrating controller to ERROR_ACTIVE. -/
  | canIntegrationDone (n : Fin 8)
  /-- CAN_SUSPEND_END (R370): an error-passive controller's suspend-transmission time ends and the first pending frame arbitrates. -/
  | canSuspendEnd (n : Fin 8)
  /-- CAN_TXJ_ACK (R368): A write of TXJ_ACK frees journal entries up to the written index. -/
  | canTxjAck (n : Fin 8) (i : Fin 32)
  /-- CAN_TX_MAP_TOKEN (R375): A token for a TX map entry writes its bytes into a mapped buffer and may request it. -/
  | canTxMapToken (n : Fin 8) (i : Fin 64) (link : Nat) (t : Token) (sof : Option Stamp)
  /-- CAN_TRANSCEIVER_FAULT (R373): an integrated transceiver dominant time-out or over-temperature is a transient of cause 2. -/
  | canTransceiverFault (n : Fin 8)
  /-- CAN_READMIT (R373): CAN_READMIT starts the controller's 32-frame loopback test. -/
  | canReadmit (n : Fin 8)
  /-- ETH_FRAME_RX (R381): A received frame is verified, checked against the duplicate table and delivered or discarded. -/
  | ethFrameRx (n : Fin 6) (bytes : List Byte) (fcs : Bool) (sa : Option (Fin 8 × Nat)) (t : Stamp)
  /-- ETH_FRAME_TX (R380): A frame is sent with a PRP trailer on both ports of its pair, through its Qbv gate. -/
  | ethFrameTx (p : Fin 3) (cls : Fin 4) (addrs : List Byte) (etype : BitVec 16) (payload : List Byte)
  /-- PRP_SUPERVISION_SEND (R383): every LIFE_MS each pair sends a PRP supervision frame on both ports. -/
  | prpSupervisionSend (p : Fin 3)
  /-- LAN_DOWN (R383): A port receives no frame for LAN_TMO_MS while its partner does and is declared LAN down. -/
  | lanDown (n : Fin 6)
  /-- ETH_LINK_LOSS (R383): A port loses its link, a transient of cause 1. -/
  | ethLinkLoss (n : Fin 6)
  /-- ETH_KR_TRAINING_FAIL (R383): KR link training fails, a transient of cause 2. -/
  | ethKrTrainingFail (n : Fin 6)
  /-- ETH_READMIT (R383): ETH_READMIT starts a port's 1 000-frame loopback test. -/
  | ethReadmit (n : Fin 6)
  /-- QBV_GATE_INTERVAL (R385): A gate control list interval ends and the next entry's open mask applies. -/
  | qbvGateInterval (n : Fin 4)
  /-- ETH_TXTS_POP (R386): A read of ETH_TXTS at 0x060 pops the head transmit time stamp. -/
  | ethTxtsPop (n : Fin 6)
  /-- RRA_REQUEST (R389): an authentic remote register request is executed, repeated from storage or answered as stale. -/
  | rraRequest (ip : BitVec 32) (port : BitVec 16) (dg : List Byte)
  /-- ETH_FRX_ACK (R394): A write of ETH_FRX_ACK frees every frame-port slot of a received frame. -/
  | ethFrxAck (n : Fin 6) (i : Fin 16)
  /-- ETH_FTX_GO (R394): A write of ETH_FTX_GO sends the frame starting in a transmit slot, or is ignored. -/
  | ethFtxGo (n : Fin 6) (mask : BitVec 8)
  /-- PAVILION_START_DONE (R401): the pavilion's START ends in RUN or SAFE with the cause of the failed check. -/
  | pavilionStartDone (switches : BitVec 24) (selftest : Bool)
  /-- PAVILION_SAFE_ENTRY (R401): an internal pavilion fault enters SAFE, de-energises outputs and asserts the pavilion safe reset. -/
  | pavilionSafeEntry (cause : BitVec 4)
  /-- OUTPUT_ENABLE_GRANT (R402): with the pavilion in RUN and crews released, output enable is granted with all valves de-energised. -/
  | outputEnableGrant
  /-- SWITCH_CHECK (R404): every 1 ms in RUN the switches are compared with the latch and a change enters SAFE. -/
  | switchCheck (switches : BitVec 24)
  /-- COVER_CHECK (R405): every 1 ms the cover sensor is read and openings and closings are logged. -/
  | coverCheck (isOpen : Bool)
  /-- PAVILION_CYCLE (R415): every 500 µs the pavilion evaluates functions, group outputs, permits and valve conduction. -/
  | pavilionCycle (x : PavMeas)
  /-- SAFE_INPUT_SAMPLE (R409): every 10 µs each safe input is sampled and checked against test pulses. -/
  | safeInputSample (levels : BitVec 16)
  /-- SAFE_INPUT_QUALIFY (R409): A safe input holds a new level for T_F and its safe value changes. -/
  | safeInputQualify (i : Fin 16)
  /-- TEST_PULSE (R410): A test-pulse output pulses low for TPW in its frame. -/
  | testPulse (k : Fin 4) (low : Bool)
  /-- DISCREPANCY_TIMEOUT (R411): A pair's channels disagree for longer than T_DISC and the pair faults with DISCREPANCY. -/
  | discrepancyTimeout (i : Fin 16)
  /-- FUNCTION_RESET_PULSE (R414): the falling edge of a RESET pulse of 0.1 s to 5 s clears a function's latch. -/
  | functionResetPulse (f : Fin 4) (_u : Unit := ())
  /-- BRAKE_RELEASE_TIMER (R416): T_REL_MS after a brake is energised PVM_BRK.REL is set. -/
  | brakeReleaseTimer (b : Fin 8)
  /-- BRAKE_OUTPUT_TEST (R417): every OT_PERIOD_S each switch of an energised brake or group is pulsed off and its feedback checked. -/
  | brakeOutputTest (o : Fin 12) (ok : Bool)
  /-- BRAKE_FAULT_CLEAR (R417): feedback agrees with the off command for 1 s after a transient and the output fault clears. -/
  | brakeFaultClear (o : Fin 12)
  /-- BRAKE_TEST_DUE (R418): powered time reaches BT_INT_H and the brake test becomes DUE. -/
  | brakeTestDue (b : Fin 8)
  /-- BRAKE_TEST_OVERDUE (R418): powered time reaches BT_INT_H plus the grace and the brake test becomes OVERDUE. -/
  | brakeTestOverdue (b : Fin 8)
  /-- BRAKE_TIMER_SAVE (R418): every minute the brake powered times are saved in the pavilion's store. -/
  | brakeTimerSave
  /-- BRAKE_TEST_TIMEOUT (R419): A holding test exceeds HT_MAX_S and fails with TIMEOUT. -/
  | brakeTestTimeout (b : Fin 8)
  /-- PVM_VSET (R422): A VSET request checks a valve set against the interlock matrix and arms or refuses it. -/
  | pvmVset (mb : Fin 2)
  /-- PVM_VWITHDRAW (R423): A VWITHDRAW request withdraws an armed set whose time has not come. -/
  | pvmVwithdraw (mb : Fin 2)
  /-- PVM_PAR_WRITE (R408): A PAR_WRITE request writes parameter words into the staging copy while SW_17 is open. -/
  | pvmParWrite
  /-- PVM_PAR_COMMIT (R408): A PAR_COMMIT request checks the staged set and stores it for adoption at the next START. -/
  | pvmParCommit
  /-- PVM_BT_START (R419): A BT_START request begins a holding test, de-energising the brake and latching the counters. -/
  | pvmBtStart
  /-- PVM_BT_END (R419): A BT_END request judges the holding test and passes or fails it. -/
  | pvmBtEnd
  /-- PVM_READMIT (R434): A READMIT request starts the test of a brake, group or Serit-S connection. -/
  | pvmReadmit
  /-- VSET_SWITCH (R423): an armed set's time comes and the pavilion switches local valves and sends remote valve commands. -/
  | vsetSwitch (id : Fin 16)
  /-- SERIT_CONTAINER_RX (R426): A Serit-S container frame arrives and each PDU is checked and accepted or rejected. -/
  | seritContainerRx (pair : Fin 3) (bytes : List Byte)
  /-- SERIT_PDU_SEND (R430): every send interval a RUN connection sends a PDU with its latest output items. -/
  | seritPduSend (k : Fin 1024)
  /-- SERIT_OPEN_SEND (R427): an OPENING connection sends an OPEN PDU with a fresh SESSION. -/
  | seritOpenSend (k : Fin 1024)
  /-- SERIT_WD_EXPIRE (R427): A connection's watchdog expires and it returns to OPENING with its inputs dropped out. -/
  | seritWdExpire (k : Fin 1024)
  /-- SERIT_OUTPUT_TOKEN (R432): A token for a Serit-S output item is tag-checked and becomes the item's latest value. -/
  | seritOutputToken (link : Nat) (t : Token)
  /-- PAIR_LISTEN_TIMEOUT (R440): T_L elapses in LISTEN and the module takes the token or keeps listening. -/
  | pairListenTimeout
  /-- HEARTBEAT_SEND (R441): every LEASE_MS / 4 the module sends a heartbeat on both pair-link lanes and the field pair. -/
  | heartbeatSend
  /-- HEARTBEAT_RX (R442): A valid heartbeat renews the partner's lease and may change the role or demote. -/
  | heartbeatRx (path : Fin 4) (bytes : List Byte)
  /-- PATH_TIMEOUT (R442): A heartbeat path hears no valid heartbeat for LEASE_MS and is lost. -/
  | pathTimeout (path : Fin 4)
  /-- LEASE_EXPIRE (R442): no active heartbeat for LEASE_MS plus the guard and the standby takes the token. -/
  | leaseExpire
  /-- PLK_HANDOVER (R440): HANDOVER sends the final cut and releases the token to a STANDBY partner, or is ignored. -/
  | plkHandover
  /-- PLK_FORCE_TAKE (R440): FORCE_TAKE with key 0xA5 takes the token and resumes from the own checkpoint. -/
  | plkForceTake (key : Byte)
  /-- PLK_RESYNC (R440): RESYNC moves a demoted module to SYNCING and requests a full synchronisation. -/
  | plkResync
  /-- PLK_READMIT_LANE0 (R457): READMIT lane 0 starts the loopback test of pair-link lane 0. -/
  | plkReadmitLane0
  /-- PLK_READMIT_LANE1 (R457): READMIT lane 1 starts the loopback test of pair-link lane 1. -/
  | plkReadmitLane1
  /-- PLK_LINK_LOSS (R457): A pair-link lane loses its link or training, a transient of the lane. -/
  | plkLinkLoss (l : Fin 2) (training : Bool)
  /-- MIRROR_CUT (R446): at every MDIV-th stroke start the active module sends the marked mirror records and a trailer. -/
  | mirrorCut (cseq : Word)
  /-- MIRROR_FRAME_RX (R448): A mirror frame is buffered, and a valid trailer commits the cut or a fault loses sync. -/
  | mirrorFrameRx (l : Fin 2) (bytes : List Byte)
  /-- CYC_LOAD (R460): LOAD starts verifying a program image into the staged program. -/
  | cycLoad
  /-- CYC_LOAD_DONE (R460): program verification ends, replacing the staged program or refusing it. -/
  | cycLoadDone (areas : ProgAreas) (_u : Unit := ())
  /-- CYC_START_WARM (R467): START_WARM makes the program STARTING with retained variables kept. -/
  | cycStartWarm
  /-- CYC_START_COLD (R467): START_COLD makes the program STARTING with all variables initialised. -/
  | cycStartCold
  /-- CYC_STOP (R467): STOP makes the program STOPPED and discards a running cycle's output. -/
  | cycStop
  /-- CYC_ONLINE_CHANGE (R470): OC checks an online-change batch and applies it now or at the next cycle boundary. -/
  | cycOnlineChange
  /-- CYC_SWITCH (R471): SWITCH replaces the program's code at the next cycle boundary. -/
  | cycSwitch
  /-- CYC_START_CATCH (R461): A start catch builds the input image and starts a cycle, skips it on overrun, or sends the stop action. -/
  | cycStartCatch (cseq : Word) (arr : List (Nat × Token))
  /-- CYC_DONE (R461): the runtime writes CYC_DONE and CYC sends the output tokens and program flags. -/
  | cycDone
  /-- CYC_PROGRAM_FAULT (R467): an exception on AC_1 or its firewall freeze stops the program with cause FAULT. -/
  | cycProgramFault (mcause : Word)
  /-- CYC_FORCE_WRITE (R472): A write of a force entry sets or releases a force effective at the next cycle boundary. -/
  | cycForceWrite (x : Fin 1024) (w : Fin 4) (v : Word)
  /-- CYC_FORCE_ACK (R474): A write of CYC_FRC_ACK clears CLEARED in every force entry. -/
  | cycForceAck
  /-- CDM_GO (R483): GO starts a firmware-owned crew DMA transfer, or refuses it. -/
  | cdmGo (n : Fin 9) (ch : Fin 8)
  /-- CDM_ABORT (R483): ABORT halts an active channel after its accepted accesses complete. -/
  | cdmAbort (n : Fin 9) (ch : Fin 8)
  /-- CDM_RESUME (R483): RESUME continues a halted channel at element POS. -/
  | cdmResume (n : Fin 9) (ch : Fin 8)
  /-- CDM_ACCESS (R482): each fabric cycle the read and write engines issue one access for the channels in priority order. -/
  | cdmAccess (n : Fin 9) (e b : Ecc)
  /-- CDM_READMIT (R486): CDM_READMIT starts a channel's 64 KiB move-and-compare test. -/
  | cdmReadmit (n : Fin 9) (ch : Fin 8)
  /-- RMV_GO (R488): GO starts a record-mover transfer, or refuses it. -/
  | rmvGo (c : Fin 4)
  /-- RMV_ABORT (R483): ABORT halts a record-mover channel. -/
  | rmvAbort (c : Fin 4)
  /-- RMV_RESUME (R483): RESUME continues a halted record-mover channel. -/
  | rmvResume (c : Fin 4)
  /-- RMV_ACCESS (R489): the record mover moves bytes, setting HALF and FULL and waiting in circular mode. -/
  | rmvAccess (e b : Ecc)
  /-- FWL_UNFREEZE (R496): FWL_UNFREEZE with key 0xA5 from AC_0 releases a frozen master. -/
  | fwlUnfreeze (src : Fin 160) (key m : Byte)
  /-- AC0_FREEZE_TIMER (R496): 1 000 ms after AC_0 is frozen with the watchdog disabled, a SYS_WDG reset follows. -/
  | ac0FreezeTimer
  /-- LINK_READMIT (R504): FWL_READMIT starts a link's 1 000-token loopback test. -/
  | linkReadmit (l : BitVec 4)
  /-- ECC_SCRUB (R498): the background scrubber reads memories on its period and corrects errors. -/
  | eccScrub (addr : Nat) (e : Ecc)
  /-- VLT_VERIFY (R525): VERIFY checks and decrypts a firmware image in place and extends a measurement. -/
  | vltVerify (_u : Unit := ())
  /-- VLT_STORE (R513): STORE verifies a firmware image and writes it to the inactive slot of its kind. -/
  | vltStore (_u : Unit := ())
  /-- VLT_ENROL (R516): ENROL enrols a new owner in the lowest empty slot while SW_18 is on. -/
  | vltEnrol (_u : Unit := ())
  /-- VLT_REVOKE (R516): REVOKE sets the owner's slot to REVOKED while SW_18 is on. -/
  | vltRevoke (_u : Unit := ())
  /-- VLT_IMPORT (R519): IMPORT installs a persistent key or returns a device-bound KEYWRAP block. -/
  | vltImport (_u : Unit := ())
  /-- VLT_LOAD_KEY (R518): LOAD_KEY places a key and salt into a volatile slot and returns its handle. -/
  | vltLoadKey
  /-- VLT_ERASE_KEY (R518): ERASE_KEY clears a volatile key slot. -/
  | vltEraseKey (h : BitVec 16)
  /-- VLT_ARB_ADVANCE (R517): ARB_ADVANCE programs the next row of an anti-rollback counter, or refuses. -/
  | vltArbAdvance (i : BitVec 16)
  /-- VLT_ATTEST (R522): ATTEST writes a signed attestation report over the given nonce. -/
  | vltAttest
  /-- VLT_DBG_CHALLENGE (R524): DBG_CHALLENGE places 32 random bytes in VLT_DBG_CHAL. -/
  | vltDbgChallenge (tap : Bool)
  /-- VLT_DBG_UNLOCK (R524): DBG_UNLOCK checks an owner-signed DEBUG record and unlocks its scope. -/
  | vltDbgUnlock (tap : Bool) (_u : Unit := ())
  /-- VLT_DBG_LOCK (R524): DBG_LOCK ends the debug scope and locks the TAP. -/
  | vltDbgLock
  /-- VLT_RNG_READ (R523): A read of VLT_RNG returns 32 new DRBG bits, or 0 while stopped. -/
  | vltRngRead
  /-- DEBUG_SCOPE_EXPIRE (R524): the debug scope's MINUTES run out, halted cores resume and the TAP locks. -/
  | debugScopeExpire
  /-- ENTROPY_FAIL (R523): the entropy source fails its health test and the DRBG stops until power-on. -/
  | entropyFail
  /-- POWER_ON (R531): the AON supply becomes valid and every domain is reset. -/
  | powerOn
  /-- BROWN_OUT (R551): VIN below 16.5 V for 20 µs resets IO at once, halts crews and cores and finishes writes from hold-up. -/
  | brownOut
  /-- BROWN_OUT_FINAL_RESET (R551): when checkpoint writes complete or 15 ms pass, the remaining domains are reset. -/
  | brownOutFinalReset
  /-- RESET_PIN (R531): RESET_N low for at least 10 µs resets all domains but AON. -/
  | resetPin
  /-- SYS_WDG_EXPIRE (R536): the system watchdog expires and performs a SYS_WDG reset. -/
  | sysWdgExpire
  /-- SYS_WDG_HALF (R536): the system watchdog reaches half its timeout and asserts source 6. -/
  | sysWdgHalf
  /-- SYS_WDG_KICK (R536): A write of 0x0000_5AA5 to RPC_WDG_KICK from AC_0 restarts the system watchdog. -/
  | sysWdgKick (v : Word)
  /-- RESET_RELEASE (R540): A reset's condition ends and the module comes up in order through option bytes, clocks, boot, image load and crew release. -/
  | resetRelease (sw21 : Bool) (ms : Nat) (_u : Unit := ())
  /-- REFCLK_TIMEOUT (R540): no reference clock-good within 2 ms selects the internal oscillator or folly mode. -/
  | refclkTimeout
  /-- DOMAIN_RESET_REQUEST (R533): A write of RPC_SWRST with key 0xA5 resets the named domain, or performs a SW_SYSTEM reset for SYS, or is refused. -/
  | domainResetRequest (src : Fin 160) (key d : Byte)
  /-- CORE_WDG_EXPIRE (R537): A core watchdog expires and resets its core. -/
  | coreWdgExpire (c : Fin 8)
  /-- CORE_WDG_KICK (R537): A write of RPC_CWD_KICK by a core restarts its own watchdog. -/
  | coreWdgKick (c : Fin 8)
  /-- CLOCK_GOOD_LOSS (R538): A domain loses clock-good and is re-held, or SYS and IO take a CLOCK reset. -/
  | clockGoodLoss (d : Fin 32)
  /-- CLOCK_GOOD_RETURN (R538): clock-good present for 10 µs releases a re-held domain. -/
  | clockGoodReturn (d : Fin 32)
  /-- DOMAIN_CLOCK_CHECK_DONE (R539): the 1 s clock check of a re-admitted domain ends and the domain returns to SERVICE. -/
  | domainClockCheckDone (d : Fin 32) (ok : Bool)
  /-- START_OK (R544): A write of START_OK by base firmware clears UNCONF and stops the start timer. -/
  | startOk
  /-- START_TIMER_EXPIRE (R545): the start timer expires unconfirmed and performs a SYS_WDG reset with START_TMO. -/
  | startTimerExpire
  /-- RPC_FOLLY_REQUEST (R546): RPC_FOLLY with key 0xA5 from AC_0 performs a FOLLY_REQ reset into folly mode. -/
  | rpcFollyRequest (src : Fin 160) (key : Byte) (go : Bool)
  /-- RECOVERY_IDENT (R548): IDENT returns KEY_ID, the reset cause, folly reason and owner slot states. -/
  | recoveryIdent (frame : List Byte)
  /-- RECOVERY_STORE (R548): STORE verifies and stores a firmware image or stages and activates a structure image. -/
  | recoveryStore (frame : List Byte) (c : ImgContent) (_u : Unit := ())
  /-- RECOVERY_OB_WRITE (R548): OB_WRITE commits option bytes while SW_18 is latched on. -/
  | recoveryObWrite (frame : List Byte)
  /-- RECOVERY_LOG (R548): LOG returns the 256 boathouse event entries. -/
  | recoveryLog (frame : List Byte)
  /-- RECOVERY_EXIT (R547): EXIT clears UNCONF and leaves folly mode by a SW_SYSTEM reset. -/
  | recoveryExit (frame : List Byte)
  /-- OB_COMMIT (R542): RPC_OB_CMD.COMMIT writes and reads back a new option-byte copy. -/
  | obCommit
  /-- VIN_DIP_SET (R550): VIN below 19.0 V for 50 µs sets DIP, takes a dip cut and writes the retained shadow. -/
  | vinDipSet (mv : BitVec 16)
  /-- VIN_DIP_CLEAR (R550): VIN recovers without a brown-out, DIP clears and the dip checkpoint is marked unused. -/
  | vinDipClear (mv : BitVec 16)
  /-- VFLD_WARNING (R549): VFLD crosses its warning level and the warning is set or cleared. -/
  | vfldWarning (low : Bool) (mv : BitVec 16)
  /-- VFLD_LOST (R549): VFLD falls below 10 V or returns above 12 V, unpowering or restoring the field outputs. -/
  | vfldLost (lost : Bool) (mv : BitVec 16)
  /-- HOLDUP_LOST (R549): the hold-up store falls below its limit so the next start is POWER_ON. -/
  | holdupLost
  /-- EASY_ENTER (R552): RPC_LP_CMD easy stops the crews' clocks with state kept, or is refused. -/
  | easyEnter
  /-- EASY_EXIT (R552): an enabled PLIC source for AC_0 ends easy and the crews run again. -/
  | easyExit
  /-- PARK_ENTER (R552): RPC_LP_CMD park powers off the compute die except AON, or is refused. -/
  | parkEnter
  /-- PARK_WAKE (R552): RPC_ELAPSED reaches RPC_PARK_WAKE and park ends with a PARK_EXIT reset. -/
  | parkWake
  /-- ENC_LINE_FAULT_END (R268): the differential level on A, B and Z returns, the line fault ends and an encoder course frozen in HOLDOVER resumes from the accumulator. -/
  | encLineFaultEnd (g : Fin 16)
  /-- COIL_SUPPLY_RESTORED (R347): A group's coil common returns to 12 V or more, GRP_OFF clears, the change is flagged in VDR_GRP and the open-load test resumes. -/
  | coilSupplyRestored (g : Fin 4)
  /-- ETH_LINK_UP (R383): an Ethernet port's link comes up after training, setting LINK and raising its link-change interrupt. -/
  | ethLinkUp (n : Fin 6)
  /-- PLK_LINK_UP (R457): A pair-link lane's link comes up after training and carries heartbeats and mirror frames again. -/
  | plkLinkUp (l : Fin 2)
  /-- CAN_ARBITRATION_LOST (R366): A frame of this controller loses arbitration on the bus; with DAR = 1 it is not retried and CANCELLED is set, otherwise it stays pending. -/
  | canArbitrationLost (n : Fin 8) (t : Stamp)
  /-- VLT_COMMAND_DONE (R525): A running vault command ends, BUSY clears, DONE is set with REFUSE and OUT, and source 16 is asserted. -/
  | vltCommandDone
  /-- PVM_MAILBOX_RESPONSE (R434): the pavilion answers a mailbox 1 request, writing RESULT and detail, clearing BUSY and setting DONE. -/
  | pvmMailboxResponse
  /-- REPLACE_DONE (R87): step 5 of a replacement completes: the successor slot is active, the old crew cleared and made spare, 0x0323 logged and IML returns to IDLE. -/
  | replaceDone
  /-- OB_COMMIT_DONE (R542): the option-byte write and read-back finish, BUSY clears and OB_FAIL is set if the read-back failed. -/
  | obCommitDone (ok : Bool)
  deriving DecidableEq, Repr

end Sys2Proof
end

