-- ==== Sys2Proof/Decode.lean ====
section
/-! DEFINITION. The words of commands.  The block has no instruction words: spec/opcode_table.json gives no row any bits. -/
namespace Sys2Proof

/-- The command a word spells by the table's bits: none does. -/
def decodeTableWord (_nbits _w : Nat) : Option Instr := none

end Sys2Proof
end

