-- ==== Sys2Proof/Machine/Bits.lean ====
section
/-! DEFINITION. Bit fields, sign extension and the small arithmetic on field values that every block uses. -/
namespace Sys2Proof

namespace Machine

/-- Whether `x` is a sum of one multiple of each stride, every index below its count. -/
def dimsCover : List (Nat × Nat) → Nat → Bool
  | [], x => x == 0
  | (c, st) :: ds, x => decide (x / st < c) && dimsCover ds (x % st)

/-- Whether the register at address `a` is one of this row. -/
def RegDesc.covers (d : RegDesc) (a : Nat) : Bool :=
  decide (d.first ≤ a) && dimsCover d.dims (a - d.first)

end Machine

/-- The value of the bits `lo .. lo+w-1` of a word. -/
def bitsOf (v : Word) (lo w : Nat) : Nat := (v.toNat >>> lo) % 2 ^ w

/-- The word with its bits `lo .. lo+w-1` replaced by the low bits of `x`. -/
def setBits (v : Word) (lo w x : Nat) : Word :=
  BitVec.ofNat 32 (v.toNat % 2 ^ lo + (x % 2 ^ w) * 2 ^ lo + (v.toNat >>> (lo + w)) * 2 ^ (lo + w))

/-- A truth value as a bit. -/
def b2n (b : Bool) : Nat := if b then 1 else 0

/-- A counter that stays at its greatest value. -/
def satAdd (max a b : Nat) : Nat := min max (a + b)

/-- The signed value of the low `w` bits of `n` (two's complement). -/
def toSigned (w n : Nat) : Int :=
  if 2 * (n % 2 ^ w) < 2 ^ w then (n % 2 ^ w : Nat) else ((n % 2 ^ w : Nat) : Int) - (2 ^ w : Nat)

/-- The low `w` bits of a signed value (two's complement). -/
def ofSigned (w : Nat) (z : Int) : Nat := (z % (2 ^ w : Nat)).toNat

/-- Bit `i` of a natural number. -/
def bit (n i : Nat) : Bool := (n >>> i) % 2 == 1

/-- `n` with its bit `i` set to `b`. -/
def putBit (n i : Nat) (b : Bool) : Nat :=
  if bit n i == b then n else if b then n + 2 ^ i else n - 2 ^ i

/-- A value held to a range. -/
def clampInt (lo hi x : Int) : Int := max lo (min hi x)

end Sys2Proof
end

