-- ==== Sys2Proof/Machine/F32.lean ====
section
/-! DEFINITION. binary32 arithmetic, computed exactly and rounded once to nearest, ties to even.  The spec computes with
binary32 in the loop law (R165), acquisition (R137), the trigger units and the record, and names single operations and fused
multiply-adds; each is one exact result rounded once. -/
namespace Sys2Proof.F32

/-- The sign bit. -/
def neg? (a : Word) : Bool := decide (a.toNat ≥ 2 ^ 31)
/-- The exponent field. -/
def expo (a : Word) : Nat := (a.toNat / 2 ^ 23) % 256
/-- The fraction field. -/
def frac (a : Word) : Nat := a.toNat % 2 ^ 23

def isNaN (a : Word) : Bool := expo a == 255 && frac a != 0
def isInf (a : Word) : Bool := expo a == 255 && frac a == 0
/-- Neither infinite nor a NaN. -/
def isFinite (a : Word) : Bool := expo a != 255
def isZero (a : Word) : Bool := a.toNat % 2 ^ 31 == 0
def isSubnormal (a : Word) : Bool := expo a == 0 && frac a != 0

/-- The NaN an invalid operation gives. -/
def qNaN : Word := 0x7FC00000#32
def posInf : Word := 0x7F800000#32
def zero : Word := 0#32
def one : Word := 0x3F800000#32
def negZero : Word := 0x80000000#32

/-- The word of a sign and the low 31 bits. -/
def mk (s : Bool) (m : Nat) : Word := BitVec.ofNat 32 (b2n s * 2 ^ 31 + m % 2 ^ 31)

def inf (s : Bool) : Word := mk s 0x7F800000
def neg (a : Word) : Word := mk (!neg? a) a.toNat
def abs (a : Word) : Word := mk false a.toNat

/-- The magnitude of a finite word as a whole number of units of 2^-149. -/
def mag (a : Word) : Nat :=
  if expo a = 0 then frac a else (2 ^ 23 + frac a) * 2 ^ (expo a - 1)

/-- A finite word as a signed whole number of units of 2^-149. -/
def units (a : Word) : Int := if neg? a then -(mag a : Int) else (mag a : Int)

/-- Rounds `m / 2^k` units of 2^-149 (plus a trifle when `sticky`) to the nearest binary32 magnitude, ties to even; the
result is the low 31 bits, and a result beyond the range is infinite. -/
def roundMag (m k : Nat) (sticky : Bool) : Nat :=
  let len := if m = 0 then 0 else Nat.log2 m + 1
  -- bits of the integer part in units of 2^-149
  let ip := len - k
  let drop := ip - 24          -- bits of the integer part below the 24 kept
  let sh := k + drop
  let q := m >>> sh
  let r := m % 2 ^ sh
  let twice := 2 * r
  let half := 2 ^ sh
  let up := decide (twice > half) || (decide (twice = half) && (sticky || q % 2 == 1) && decide (sh > 0))
  let q' := if up then q + 1 else q
  let res := drop * 2 ^ 23 + q'
  if res ≥ 0x7F800000 then 0x7F800000 else res

/-- Rounds a signed number of units of 2^-(149+k). -/
def ofUnits (z : Int) (k : Nat) (sticky : Bool) (zeroSign : Bool) : Word :=
  if z = 0 then mk zeroSign 0 else mk (decide (z < 0)) (roundMag z.natAbs k sticky)

/-- A whole number as binary32. -/
def ofInt (z : Int) : Word := ofUnits (z * 2 ^ 149) 0 false false

/-- `z / 2^k` as binary32. -/
def ofIntScaled (z : Int) (k : Nat) : Word := ofUnits (z * 2 ^ 149) k false false

/-- `p / q` (q > 0) as binary32, correctly rounded. -/
def ofRatio (p : Int) (q : Nat) : Word :=
  if q = 0 then qNaN
  else
    let n := p.natAbs * 2 ^ 151
    let z : Int := if p < 0 then -((n / q : Nat) : Int) else ((n / q : Nat) : Int)
    ofUnits z 2 (decide (n % q ≠ 0)) (decide (p < 0))

def add (a b : Word) : Word :=
  if isNaN a || isNaN b then qNaN
  else if isInf a then (if isInf b && (neg? a != neg? b) then qNaN else a)
  else if isInf b then b
  else ofUnits (units a + units b) 0 false (neg? a && neg? b)

def sub (a b : Word) : Word := add a (neg b)

def mul (a b : Word) : Word :=
  let s := neg? a != neg? b
  if isNaN a || isNaN b then qNaN
  else if isInf a || isInf b then (if isZero a || isZero b then qNaN else inf s)
  else ofUnits (units a * units b) 149 false s

/-- `a × b + c`, rounded once. -/
def fma (a b c : Word) : Word :=
  let s := neg? a != neg? b
  if isNaN a || isNaN b || isNaN c then qNaN
  else if isInf a || isInf b then
    (if isZero a || isZero b then qNaN else if isInf c && (neg? c != s) then qNaN else inf s)
  else if isInf c then c
  else ofUnits (units a * units b + units c * 2 ^ 149) 149 false (s && neg? c)

def div (a b : Word) : Word :=
  let s := neg? a != neg? b
  if isNaN a || isNaN b then qNaN
  else if isInf a then (if isInf b then qNaN else inf s)
  else if isInf b then mk s 0
  else if isZero b then (if isZero a then qNaN else inf s)
  else
    let n := mag a * 2 ^ 151
    let q := n / mag b
    let z : Int := if s then -(q : Int) else (q : Int)
    ofUnits z 2 (decide (n % mag b ≠ 0)) s

/-- The integer square root, by bits from `k` down. -/
def isqrtLoop : Nat → Nat → Nat → Nat
  | 0, _, r => r
  | k + 1, n, r => isqrtLoop k n (if (r + 2 ^ k) * (r + 2 ^ k) ≤ n then r + 2 ^ k else r)

def isqrt (n : Nat) : Nat := isqrtLoop (Nat.log2 n / 2 + 1) n 0

def sqrt (a : Word) : Word :=
  if isNaN a then qNaN
  else if isZero a then a
  else if neg? a then qNaN
  else if isInf a then a
  else
    let n := mag a * 2 ^ 153
    let r := isqrt n
    ofUnits r 2 (decide (r * r ≠ n)) false

/-- `a < b`; false when one is a NaN. -/
def lt (a b : Word) : Bool :=
  if isNaN a || isNaN b then false
  else if isInf a then neg? a && !(isInf b && neg? b)
  else if isInf b then !neg? b
  else decide (units a < units b)

def eq (a b : Word) : Bool :=
  if isNaN a || isNaN b then false
  else if isInf a || isInf b then decide (a = b)
  else decide (units a = units b)

def le (a b : Word) : Bool := lt a b || eq a b

def max (a b : Word) : Word := if lt a b then b else a
def min (a b : Word) : Word := if lt b a then b else a
/-- `x` held to `lo .. hi`. -/
def clamp (lo hi x : Word) : Word := if lt x lo then lo else if lt hi x then hi else x

/-- A finite word rounded to the nearest whole number, ties to even; 0 for the others. -/
def toIntNE (a : Word) : Int :=
  if isFinite a then
    let m := mag a
    let q := m / 2 ^ 149
    let r := m % 2 ^ 149
    let q' : Nat := if 2 * r > 2 ^ 149 then q + 1 else if 2 * r = 2 ^ 149 then q + q % 2 else q
    if neg? a then -(q' : Int) else (q' : Int)
  else 0

/-- A finite word rounded to the nearest whole number, ties away from zero; 0 for the others. -/
def toIntAway (a : Word) : Int :=
  if isFinite a then
    let q' : Nat := (mag a + 2 ^ 148) / 2 ^ 149
    if neg? a then -(q' : Int) else (q' : Int)
  else 0

/-- A finite word rounded toward zero; 0 for the others. -/
def toIntTrunc (a : Word) : Int :=
  if isFinite a then
    let q : Nat := mag a / 2 ^ 149
    if neg? a then -(q : Int) else (q : Int)
  else 0

/-- A finite word times 2^k, rounded down to a whole number; 0 for the others. -/
def toIntFloorScaled (a : Word) (k : Nat) : Int :=
  if isFinite a then (units a * 2 ^ k) / (2 ^ 149 : Int) else 0

/-- A finite word times 2^k, rounded to the nearest whole number, ties to even. -/
def toIntScaledNE (a : Word) (k : Nat) : Int :=
  if isFinite a then
    let m := mag a * 2 ^ k
    let q := m / 2 ^ 149
    let r := m % 2 ^ 149
    let q' : Nat := if 2 * r > 2 ^ 149 then q + 1 else if 2 * r = 2 ^ 149 then q + q % 2 else q
    if neg? a then -(q' : Int) else (q' : Int)
  else 0

/-- `z / q` units of 2^-149 (q > 0) as binary32, correctly rounded. -/
def ofUnitsRatio (z : Int) (q : Nat) : Word :=
  if q = 0 then qNaN
  else
    let n := z.natAbs * 4
    let m : Int := if z < 0 then -((n / q : Nat) : Int) else ((n / q : Nat) : Int)
    ofUnits m 2 (decide (n % q ≠ 0)) (decide (z < 0))

/-- A finite word times the exact ratio `p / q`, rounded once. -/
def mulRatio (a : Word) (p q : Nat) : Word :=
  if isFinite a then (if isZero a then a else ofUnitsRatio (units a * p) q) else a

/-- A finite word compared with the exact ratio `p / q`: `a < p / q`. -/
def ltRatio (a : Word) (p : Int) (q : Nat) : Bool := isFinite a && decide (units a * q < p * 2 ^ 149)

/-- |a| is finite and at most the exact ratio `p / q`. -/
def absLeRatio (a : Word) (p q : Nat) : Bool := isFinite a && decide ((units a).natAbs * q ≤ p * 2 ^ 149)

/-- 2^-k (k ≤ 126). -/
def pow2neg (k : Nat) : Word := BitVec.ofNat 32 ((127 - k) * 2 ^ 23)

end Sys2Proof.F32
end

