-- ==== Sys2Proof/Machine/Flags.lean ====
section
/-! DEFINITION. The computations over tokens and byte strings that every block shares: the tag CRC (R500), the ranking of
statuses (R14), CRC-32C, and the byte forms of words. -/
namespace Sys2Proof.Machine

/-- One bit of the tag CRC (R500). -/
def tagStep (crc m k : Nat) : Nat :=
  let fb := (crc >>> 15) % 2 != (m >>> k) % 2
  let c := (crc * 2) % 2 ^ 16
  if fb then c ^^^ 0x8BB7 else c

/-- The bits k-1 down to 0 of a message through the tag CRC. -/
def tagBits (m : Nat) : Nat → Nat → Nat
  | 0, crc => crc
  | k + 1, crc => tagBits m k (tagStep crc m k)

/-- TAG of VALUE, SIG, ST and CSEQ (R500). -/
def tagOf (value : Word) (sig : BitVec 12) (st : BitVec 4) (cseq : Word) : BitVec 16 :=
  BitVec.ofNat 16
    (tagBits (value.toNat * 2 ^ 48 + sig.toNat * 2 ^ 36 + st.toNat * 2 ^ 32 + cseq.toNat) 80 0xFFFF)

/-- A token with its TAG computed (R501). -/
def mkToken (value : Word) (sig : BitVec 12) (st : BitVec 4) (cseq : Nat) : Token :=
  ⟨value, sig, st, tagOf value sig st (BitVec.ofNat 32 cseq), BitVec.ofNat 32 cseq⟩

/-- Whether a token's TAG is right. -/
def Token.ok (t : Token) : Bool := t.tag == tagOf t.value t.sig t.st t.cseq

/-- The rank of a status (R14): substituted, stale, in calibration, saturated, valid. -/
def stRank (st : BitVec 4) : Nat :=
  match st.toNat with
  | 1 => 4 | 3 => 3 | 4 => 2 | 2 => 1 | _ => 0

/-- The highest-ranked of two statuses (R14). -/
def stMax (a b : BitVec 4) : BitVec 4 := if stRank a < stRank b then b else a

/-- A reserved status (R16). -/
def stReserved (st : BitVec 4) : Bool := decide (5 ≤ st.toNat)

/-- The three words of a token (R15). -/
def Token.words (t : Token) : List Word :=
  [t.value, BitVec.ofNat 32 (t.tag.toNat * 2 ^ 16 + t.st.toNat * 2 ^ 12 + t.sig.toNat), t.cseq]

/-- The `n` little-endian bytes of a number. -/
def leBytes : Nat → Nat → List Nat
  | 0, _ => []
  | n + 1, v => v % 256 :: leBytes n (v / 256)

/-- The number of little-endian bytes. -/
def ofLe : List Nat → Nat
  | [] => 0
  | b :: l => b + 256 * ofLe l

/-- One bit of CRC-32C (Castagnoli, reflected). -/
def crc32cBits : Nat → Nat → Nat
  | 0, c => c
  | k + 1, c => crc32cBits k (if c % 2 = 1 then (c / 2) ^^^ 0x82F63B78 else c / 2)

/-- CRC-32C over bytes, from a running register. -/
def crc32cRun : List Nat → Nat → Nat
  | [], c => c
  | b :: l, c => crc32cRun l (crc32cBits 8 (c ^^^ b))

/-- CRC-32C of a byte string. -/
def crc32c (l : List Nat) : Nat := crc32cRun l 0xFFFFFFFF ^^^ 0xFFFFFFFF

end Sys2Proof.Machine
end

