-- ==== Sys2Proof/Config.lean ====
section
/-! DEFINITION. What the spec leaves open: constants without a body, so that no proof can see a value.  A free value that is
fresh each time is applied to the counter `State.fresh`; one that depends on operands is applied to them. -/
namespace Sys2Proof.Config

/-- A fresh 32-bit value the spec does not state (notes/assumptions/3.md). -/
opaque freeWord : Nat → Word

/-- A fresh natural number the spec does not state (notes/assumptions/3.md). -/
opaque freeNat : Nat → Nat

/-- A fresh signed number the spec does not state (notes/assumptions/3.md). -/
opaque freeInt : Nat → Int

/-- The output of the random bit generator (R523), by the number of the draw. -/
opaque drbg : Nat → Nat

/-- The bytes of an ECDSA P-384 signature by the device key over a digest (R509, R522). -/
opaque deviceSign : Nat → List Nat

/-- KEY_ID: the first 8 bytes of SHA-384 of the identity public key, as a 64-bit number (R297). -/
opaque keyId : Nat

/-- The bytes of the key-wrap key KWK (R507). -/
opaque kwk : List Nat

/-- The 97 bytes of Dzilet key k, which the boot ROM holds, and whether its OTP revocation fuse is set (R512). -/
opaque dziletKey : Nat → List Nat
opaque dziletRevoked : Nat → Bool

end Sys2Proof.Config
end

