-- ==== Sys2Proof/Machine/Regs.lean ====
section
/-! DEFINITION. The registers of the module, as the register tables of spec/ give them: the address of every register
(R21 and R23 give the bases, each block's chapter the offsets), the place of every field, and for every register
its access masks (R5) and the value it has at reset.  A register of a unit of a crew takes the PHYSICAL crew n
first; the other indices are those of its heading.  -/
namespace Sys2Proof.Machine

namespace Reg

/-! ## RPC (19_reset_power_retention.md) -/

abbrev RPC_CAUSE : Nat := 0xE0000000
abbrev RPC_SWRST : Nat := 0xE0000004
abbrev RPC_FOLLY : Nat := 0xE0000008
abbrev RPC_START : Nat := 0xE000000C
abbrev RPC_WDG_KICK : Nat := 0xE0000010
abbrev RPC_WDG_STATUS : Nat := 0xE0000014
abbrev RPC_CWD_KICK : Nat := 0xE0000018
abbrev RPC_SUPPLY : Nat := 0xE000001C
abbrev RPC_SUP_STATUS : Nat := 0xE0000020
abbrev RPC_DIP_COUNT : Nat := 0xE0000024
abbrev RPC_LP_CMD : Nat := 0xE0000028
abbrev RPC_PARK_WAKE : Nat := 0xE000002C
abbrev RPC_ELAPSED_LO : Nat := 0xE0000030
abbrev RPC_ELAPSED_HI : Nat := 0xE0000034
abbrev RPC_RETURNED : Nat := 0xE0000038
abbrev RPC_IRQ : Nat := 0xE000003C
abbrev RPC_IRQ_EN : Nat := 0xE0000040
abbrev RPC_CWD (c : Nat) : Nat := 0xE0000080 + 0x4 * c
abbrev RPC_DOM (d : Nat) : Nat := 0xE0000100 + 0x4 * d
abbrev RPC_OB_STAGE (w : Nat) : Nat := 0xE0000200 + 0x4 * w
abbrev RPC_OB_CMD : Nat := 0xE0000220
abbrev RPC_OB_STATUS : Nat := 0xE0000224
abbrev RPC_BKP (k : Nat) : Nat := 0xE0000300 + 0x4 * k
/-! ## CTU (02_course_and_time.md) -/

abbrev CTU_SNAP : Nat := 0xE0010000
abbrev CTU_SNAP_SEC : Nat := 0xE0010004
abbrev CTU_SNAP_NSEC : Nat := 0xE0010008
abbrev CTU_SNAP_HI : Nat := 0xE001000C
abbrev CTU_TIME_INC : Nat := 0xE0010010
abbrev CTU_TIME_SLEW : Nat := 0xE0010014
abbrev CTU_STEP_SEC : Nat := 0xE0010018
abbrev CTU_STEP_NSEC : Nat := 0xE001001C
abbrev CTU_STEP_HI : Nat := 0xE0010020
abbrev CTU_STEP_CTRL : Nat := 0xE0010024
abbrev CTU_TIME_STATE : Nat := 0xE0010028
abbrev CTU_SERVO_WD : Nat := 0xE001002C
abbrev CTU_PPS_OUT_CTRL : Nat := 0xE0010030
abbrev CTU_PPS_OUT_OFFSET : Nat := 0xE0010034
abbrev CTU_PPS_IN_CTRL : Nat := 0xE0010038
abbrev CTU_PPS_CAP_SEC : Nat := 0xE001003C
abbrev CTU_PPS_CAP_NSEC : Nat := 0xE0010040
abbrev CTU_PPS_CAP_HI : Nat := 0xE0010044
abbrev CRS_CFG (n : Nat) : Nat := 0xE0010100 + 0x20 * n
abbrev CRS_STATUS (n : Nat) : Nat := 0xE0010104 + 0x20 * n
abbrev CRS_POS_LO (n : Nat) : Nat := 0xE0010108 + 0x20 * n
abbrev CRS_POS_HI (n : Nat) : Nat := 0xE001010C + 0x20 * n
abbrev CRS_PLL (n : Nat) : Nat := 0xE0010110 + 0x20 * n
abbrev CRS_FREQ (n : Nat) : Nat := 0xE0010114 + 0x20 * n
abbrev CTU_CT_GO : Nat := 0xE0010F00
abbrev CTU_SKIPPED : Nat := 0xE0010F04
abbrev CT_CFG (m : Nat) : Nat := 0xE0011000 + 0x400 * m
abbrev CT_ORIGIN_LO (m : Nat) : Nat := 0xE0011004 + 0x400 * m
abbrev CT_ORIGIN_HI (m : Nat) : Nat := 0xE0011008 + 0x400 * m
abbrev CT_PERIOD_LO (m : Nat) : Nat := 0xE001100C + 0x400 * m
abbrev CT_PERIOD_HI (m : Nat) : Nat := 0xE0011010 + 0x400 * m
abbrev CT_CTRL (m : Nat) : Nat := 0xE0011014 + 0x400 * m
abbrev CT_SKIP (m : Nat) : Nat := 0xE0011018 + 0x400 * m
abbrev CT_LAST_CSEQ (m : Nat) : Nat := 0xE001101C + 0x400 * m
abbrev CT_ENTRY_LO (m e : Nat) : Nat := 0xE0011100 + 0x400 * m + 0x8 * e
abbrev CT_ENTRY_HI (m e : Nat) : Nat := 0xE0011104 + 0x400 * m + 0x8 * e
/-! ## DIO (02_course_and_time.md) -/

abbrev DIO_STATE (g : Nat) : Nat := 0xE0020000 + 0x4 * g
abbrev DIO_RAW (g : Nat) : Nat := 0xE0020008 + 0x4 * g
abbrev DIO_OVF (g : Nat) : Nat := 0xE0020010 + 0x4 * g
abbrev DIO_COUNT (k : Nat) : Nat := 0xE0020020 + 0x4 * k
abbrev DIO_FILT (n : Nat) : Nat := 0xE0020100 + 0x4 * n
abbrev DIO_FIFO (n w : Nat) : Nat := 0xE0020400 + 0x10 * n + 0x4 * w
/-! ## ENC (09_motion.md) -/

abbrev ENC_READMIT : Nat := 0xE0030000
abbrev ENC_CFG (n : Nat) : Nat := 0xE0030100 + 0x20 * n
abbrev ENC_ACC_LO (n : Nat) : Nat := 0xE0030104 + 0x20 * n
abbrev ENC_ACC_HI (n : Nat) : Nat := 0xE0030108 + 0x20 * n
abbrev ENC_IDX_LO (n : Nat) : Nat := 0xE003010C + 0x20 * n
abbrev ENC_IDX_HI (n : Nat) : Nat := 0xE0030110 + 0x20 * n
abbrev ENC_STATUS (n : Nat) : Nat := 0xE0030114 + 0x20 * n
abbrev ENC_VEL (n : Nat) : Nat := 0xE0030118 + 0x20 * n
abbrev ENC_SCALE (n : Nat) : Nat := 0xE003011C + 0x20 * n
/-! ## IML (03_structure_image.md) -/

abbrev IML_CTRL : Nat := 0xE0040000
abbrev IML_STATUS : Nat := 0xE0040004
abbrev IML_SRC_LO : Nat := 0xE0040008
abbrev IML_SRC_HI : Nat := 0xE004000C
abbrev IML_SRC_LEN : Nat := 0xE0040010
abbrev IML_ACTIVE_ID_LO : Nat := 0xE0040014
abbrev IML_ACTIVE_ID_HI : Nat := 0xE0040018
abbrev IML_STAGED_ID_LO : Nat := 0xE004001C
abbrev IML_STAGED_ID_HI : Nat := 0xE0040020
abbrev IML_CREWMAP : Nat := 0xE0040024
abbrev IML_SPARE : Nat := 0xE0040028
abbrev IML_PART : Nat := 0xE004002C
abbrev IML_ARB : Nat := 0xE0040030
/-! ## FWL (17_data_movement_and_integrity.md) -/

abbrev FWL_STATUS : Nat := 0xE0050000
abbrev FWL_UNFREEZE : Nat := 0xE0050004
abbrev FWL_IRQ_EN : Nat := 0xE0050008
abbrev FWL_READMIT : Nat := 0xE005000C
abbrev FWL_FROZEN (g : Nat) : Nat := 0xE0050010 + 0x4 * g
abbrev FWL_VIOL_INFO : Nat := 0xE0050030
abbrev FWL_VIOL_ADDR_LO : Nat := 0xE0050034
abbrev FWL_VIOL_ADDR_HI : Nat := 0xE0050038
abbrev FWL_VIOL_COUNT : Nat := 0xE005003C
abbrev FWL_ECC_CE : Nat := 0xE0050040
abbrev FWL_ECC_UE : Nat := 0xE0050044
abbrev FWL_ECC_ADDR_LO : Nat := 0xE0050048
abbrev FWL_ECC_ADDR_HI : Nat := 0xE005004C
abbrev FWL_LINK (l : Nat) : Nat := 0xE0050100 + 0x4 * l
abbrev FWL_REG0 (m r : Nat) : Nat := 0xE0051000 + 0x100 * m + 0x10 * r
abbrev FWL_REG1 (m r : Nat) : Nat := 0xE0051004 + 0x100 * m + 0x10 * r
abbrev FWL_REG2 (m r : Nat) : Nat := 0xE0051008 + 0x100 * m + 0x10 * r
abbrev FWL_REG3 (m r : Nat) : Nat := 0xE005100C + 0x100 * m + 0x10 * r
/-! ## VLT (18_security.md) -/

abbrev VLT_CMD : Nat := 0xE0060000
abbrev VLT_ARG_LO : Nat := 0xE0060004
abbrev VLT_ARG_HI : Nat := 0xE0060008
abbrev VLT_ARG_LEN : Nat := 0xE006000C
abbrev VLT_RES : Nat := 0xE0060010
abbrev VLT_STATUS : Nat := 0xE0060014
abbrev VLT_IRQ_EN : Nat := 0xE0060018
abbrev VLT_KEYID_LO : Nat := 0xE0060020
abbrev VLT_KEYID_HI : Nat := 0xE0060024
abbrev VLT_RNG : Nat := 0xE0060028
abbrev VLT_ARB (i : Nat) : Nat := 0xE0060100 + 0x4 * i
abbrev VLT_MEAS (r w : Nat) : Nat := 0xE0060200 + 0x40 * r + 0x4 * w
abbrev VLT_DBG_CHAL (w : Nat) : Nat := 0xE0060400 + 0x4 * w
abbrev VLT_CERT (w : Nat) : Nat := 0xE0060800 + 0x4 * w
/-! ## EVL (01_architecture.md) -/

abbrev EVL_CTRL : Nat := 0xE0070000
abbrev EVL_BASE_LO : Nat := 0xE0070004
abbrev EVL_BASE_HI : Nat := 0xE0070008
abbrev EVL_SIZE : Nat := 0xE007000C
abbrev EVL_WR_IDX : Nat := 0xE0070010
abbrev EVL_LOST : Nat := 0xE0070014
abbrev EVL_BH_IDX : Nat := 0xE0070018
abbrev EVL_SW_DETAIL : Nat := 0xE007001C
abbrev EVL_SW_CODE : Nat := 0xE0070020
/-! ## SEQ (08_recipe_sequencer.md) -/

abbrev SEQ_CMD : Nat := 0xE0080000
abbrev SEQ_ARG : Nat := 0xE0080004
abbrev SEQ_SRC_LO : Nat := 0xE0080008
abbrev SEQ_SRC_HI : Nat := 0xE008000C
abbrev SEQ_SRC_LEN : Nat := 0xE0080010
abbrev SEQ_RES : Nat := 0xE0080014
abbrev SEQ_STATUS : Nat := 0xE0080018
abbrev SEQ_IRQ_EN : Nat := 0xE008001C
abbrev SEQ_RCHG : Nat := 0xE0080020
abbrev SEQ_PFLAG_LO : Nat := 0xE0080030
abbrev SEQ_PFLAG_HI : Nat := 0xE0080034
abbrev SEQ_PFLAG_SET_LO : Nat := 0xE0080038
abbrev SEQ_PFLAG_SET_HI : Nat := 0xE008003C
abbrev SEQ_PFLAG_CLR_LO : Nat := 0xE0080040
abbrev SEQ_PFLAG_CLR_HI : Nat := 0xE0080044
abbrev SEQ_CKPT_CFG : Nat := 0xE0080050
abbrev SEQ_CKPT_LAST : Nat := 0xE0080054
abbrev SEQ_CKPT_GAP : Nat := 0xE0080058
abbrev SEQ_CKPT_MERGED : Nat := 0xE008005C
abbrev SEQ_REP_SKIP : Nat := 0xE0080060
abbrev SEQ_R_STATE (r : Nat) : Nat := 0xE0080100 + 0x20 * r
abbrev SEQ_R_STEP (r : Nat) : Nat := 0xE0080104 + 0x20 * r
abbrev SEQ_R_COUNT (r : Nat) : Nat := 0xE0080108 + 0x20 * r
abbrev SEQ_R_ID_LO (r : Nat) : Nat := 0xE008010C + 0x20 * r
abbrev SEQ_R_ID_HI (r : Nat) : Nat := 0xE0080110 + 0x20 * r
abbrev SEQ_R_REFUSE (r : Nat) : Nat := 0xE0080114 + 0x20 * r
/-! ## RCE (10_record_and_trigger.md) -/

abbrev RCE_CTRL : Nat := 0xE0090000
abbrev RCE_STATUS : Nat := 0xE0090004
abbrev RCE_IRQ_EN : Nat := 0xE0090008
abbrev RCE_BLOCK_MS : Nat := 0xE009000C
abbrev RCE_CHAIN_LO : Nat := 0xE0090010
abbrev RCE_CHAIN_HI : Nat := 0xE0090014
abbrev RCE_BLKSEQ_LO : Nat := 0xE0090018
abbrev RCE_BLKSEQ_HI : Nat := 0xE009001C
abbrev RCE_WR_SLOT : Nat := 0xE0090020
abbrev RCE_EXP_SLOT : Nat := 0xE0090024
abbrev RCE_RATE : Nat := 0xE0090028
abbrev RCE_MISSING : Nat := 0xE009002C
abbrev RCE_LATE : Nat := 0xE0090030
abbrev RCE_TAGERR : Nat := 0xE0090034
abbrev RCE_EXP_LOST : Nat := 0xE0090038
abbrev RCE_RETX : Nat := 0xE009003C
abbrev RCE_LAST_HASH (w : Nat) : Nat := 0xE0090050 + 0x4 * w
abbrev RCE_TRG_ARM (g : Nat) : Nat := 0xE0090100 + 0x4 * g
abbrev RCE_TRG_FIRED (g : Nat) : Nat := 0xE0090110 + 0x4 * g
abbrev RCE_TRG_IEN (g : Nat) : Nat := 0xE0090120 + 0x4 * g
abbrev RCE_ENV (m : Nat) : Nat := 0xE0090200 + 0x8 * m
abbrev RCE_ENV_LAST (m : Nat) : Nat := 0xE0090204 + 0x8 * m
abbrev RCE_CREW (m : Nat) : Nat := 0xE0090240 + 0x4 * m
abbrev CAP_CFG (c : Nat) : Nat := 0xE0091000 + 0x40 * c
abbrev CAP_TRIG (c : Nat) : Nat := 0xE0091004 + 0x40 * c
abbrev CAP_PRE (c : Nat) : Nat := 0xE0091008 + 0x40 * c
abbrev CAP_BUF_LO (c : Nat) : Nat := 0xE009100C + 0x40 * c
abbrev CAP_BUF_HI (c : Nat) : Nat := 0xE0091010 + 0x40 * c
abbrev CAP_BUFLEN (c : Nat) : Nat := 0xE0091014 + 0x40 * c
abbrev CAP_POST (c : Nat) : Nat := 0xE0091018 + 0x40 * c
abbrev CAP_CTRL (c : Nat) : Nat := 0xE009101C + 0x40 * c
abbrev CAP_STATUS (c : Nat) : Nat := 0xE0091020 + 0x40 * c
abbrev CAP_COUNT (c : Nat) : Nat := 0xE0091024 + 0x40 * c
abbrev CAP_PREV (c : Nat) : Nat := 0xE0091028 + 0x40 * c
abbrev TRG_CFG (t : Nat) : Nat := 0xE0092000 + 0x20 * t
abbrev TRG_A (t : Nat) : Nat := 0xE0092004 + 0x20 * t
abbrev TRG_B (t : Nat) : Nat := 0xE0092008 + 0x20 * t
abbrev TRG_HYST (t : Nat) : Nat := 0xE009200C + 0x20 * t
abbrev TRG_LAST (t : Nat) : Nat := 0xE0092010 + 0x20 * t
abbrev TRG_COUNT (t : Nat) : Nat := 0xE0092014 + 0x20 * t
abbrev GOLD_ADDR_LO (g : Nat) : Nat := 0xE0093000 + 0x10 * g
abbrev GOLD_ADDR_HI (g : Nat) : Nat := 0xE0093004 + 0x10 * g
abbrev GOLD_N (g : Nat) : Nat := 0xE0093008 + 0x10 * g
abbrev GOLD_CTRL (g : Nat) : Nat := 0xE009300C + 0x10 * g
/-! ## RMV (17_data_movement_and_integrity.md) -/

abbrev RMV_SRC_LO (c : Nat) : Nat := 0xE00A0100 + 0x40 * c
abbrev RMV_SRC_HI (c : Nat) : Nat := 0xE00A0104 + 0x40 * c
abbrev RMV_DST_LO (c : Nat) : Nat := 0xE00A0108 + 0x40 * c
abbrev RMV_DST_HI (c : Nat) : Nat := 0xE00A010C + 0x40 * c
abbrev RMV_S_LINE (c : Nat) : Nat := 0xE00A0110 + 0x40 * c
abbrev RMV_S_STRIDE (c : Nat) : Nat := 0xE00A0114 + 0x40 * c
abbrev RMV_S_LINES (c : Nat) : Nat := 0xE00A0118 + 0x40 * c
abbrev RMV_D_LINE (c : Nat) : Nat := 0xE00A011C + 0x40 * c
abbrev RMV_D_STRIDE (c : Nat) : Nat := 0xE00A0120 + 0x40 * c
abbrev RMV_D_LINES (c : Nat) : Nat := 0xE00A0124 + 0x40 * c
abbrev RMV_CTRL (c : Nat) : Nat := 0xE00A0128 + 0x40 * c
abbrev RMV_STATUS (c : Nat) : Nat := 0xE00A012C + 0x40 * c
abbrev RMV_POS (c : Nat) : Nat := 0xE00A0130 + 0x40 * c
/-! ## AFE (05_analogue_acquisition.md) -/

abbrev AFE_READMIT : Nat := 0xE00B0000
abbrev AFE_CAL_CTRL : Nat := 0xE00B0010
abbrev AFE_CAL_X : Nat := 0xE00B0014
abbrev AFE_CAL_N : Nat := 0xE00B0018
abbrev AFE_CAL_STATUS : Nat := 0xE00B001C
abbrev AFE_CAL_GAIN : Nat := 0xE00B0020
abbrev AFE_CAL_OFFS : Nat := 0xE00B0024
abbrev AFE_ADC_STATUS (s : Nat) : Nat := 0xE00B0100 + 0x10 * s
abbrev AFE_ADC_CHSEL (s : Nat) : Nat := 0xE00B0104 + 0x10 * s
abbrev AFE_ADC_LATE (s : Nat) : Nat := 0xE00B0108 + 0x10 * s
abbrev AFE_PAIR_CFG (p : Nat) : Nat := 0xE00B0300 + 0x10 * p
abbrev AFE_PAIR_STATUS (p : Nat) : Nat := 0xE00B0304 + 0x10 * p
abbrev AFE_PAIR_DIFF (p : Nat) : Nat := 0xE00B0308 + 0x10 * p
abbrev AFE_TDAC_CMD (p : Nat) : Nat := 0xE00B0500 + 0x10 * p
abbrev AFE_TDAC_RES (p : Nat) : Nat := 0xE00B0504 + 0x10 * p
abbrev AFE_TDAC_MEAS (p : Nat) : Nat := 0xE00B0508 + 0x10 * p
abbrev AFE_TDAC_EXP (p : Nat) : Nat := 0xE00B050C + 0x10 * p
abbrev AFE_OW (g : Nat) : Nat := 0xE00B0600 + 0x4 * g
abbrev AFE_CH_CFG (i : Nat) : Nat := 0xE00B1000 + 0x8 * i
abbrev AFE_CH_SUBST (i : Nat) : Nat := 0xE00B1004 + 0x8 * i
/-! ## CLO (11_field_outputs.md) -/

abbrev CLO_READMIT : Nat := 0xE00C0000
abbrev CLO_CLR : Nat := 0xE00C0004
abbrev CLO_FLT : Nat := 0xE00C0008
abbrev CLO_IRQ_EN : Nat := 0xE00C000C
abbrev CLO_CFG (n : Nat) : Nat := 0xE00C0100 + 0x20 * n
abbrev CLO_SRC (n : Nat) : Nat := 0xE00C0104 + 0x20 * n
abbrev CLO_SUBST (n : Nat) : Nat := 0xE00C0108 + 0x20 * n
abbrev CLO_STATUS (n : Nat) : Nat := 0xE00C010C + 0x20 * n
abbrev CLO_CODE (n : Nat) : Nat := 0xE00C0110 + 0x20 * n
abbrev CLO_MEAS (n : Nat) : Nat := 0xE00C0114 + 0x20 * n
abbrev CLO_HEAD (n : Nat) : Nat := 0xE00C0118 + 0x20 * n
abbrev CLO_LATE (n : Nat) : Nat := 0xE00C011C + 0x20 * n
abbrev HART_CFG (n : Nat) : Nat := 0xE00C0800 + 0x10 * n
abbrev HART_CMD (n : Nat) : Nat := 0xE00C0804 + 0x10 * n
abbrev HART_RES (n : Nat) : Nat := 0xE00C0808 + 0x10 * n
abbrev HART_TX (n w : Nat) : Nat := 0xE00C4000 + 0x400 * n + 0x4 * w
abbrev HART_RSP (n w : Nat) : Nat := 0xE00C4140 + 0x400 * n + 0x4 * w
abbrev HART_BURST (n w : Nat) : Nat := 0xE00C4280 + 0x400 * n + 0x4 * w
/-! ## VDR (11_field_outputs.md) -/

abbrev VDR_READMIT : Nat := 0xE00D0000
abbrev VDR_IRQ_EN : Nat := 0xE00D0004
abbrev VDR_CMD (g : Nat) : Nat := 0xE00D0010 + 0x4 * g
abbrev VDR_OUT (g : Nat) : Nat := 0xE00D0018 + 0x4 * g
abbrev VDR_TRIP (g : Nat) : Nat := 0xE00D0020 + 0x4 * g
abbrev VDR_OT (g : Nat) : Nat := 0xE00D0028 + 0x4 * g
abbrev VDR_OPEN (g : Nat) : Nat := 0xE00D0030 + 0x4 * g
abbrev VDR_GRP : Nat := 0xE00D0040
abbrev VDR_CFG (n : Nat) : Nat := 0xE00D0100 + 0x10 * n
abbrev VDR_HEAT (n : Nat) : Nat := 0xE00D0104 + 0x10 * n
abbrev VDR_STATUS (n : Nat) : Nat := 0xE00D0108 + 0x10 * n
abbrev VDR_ZC (n : Nat) : Nat := 0xE00D010C + 0x10 * n
/-! ## PVM (14_pavilion.md) -/

abbrev PVM_STATUS : Nat := 0xE00E0000
abbrev PVM_SWITCH : Nat := 0xE00E0004
abbrev PVM_PAR_CRC : Nat := 0xE00E0008
abbrev PVM_IRQ : Nat := 0xE00E000C
abbrev PVM_IRQ_EN : Nat := 0xE00E0010
abbrev PVM_FUNC : Nat := 0xE00E0014
abbrev PVM_SIN : Nat := 0xE00E0018
abbrev PVM_GRP : Nat := 0xE00E001C
abbrev PVM_BRK : Nat := 0xE00E0020
abbrev PVM_PERMIT : Nat := 0xE00E0024
abbrev PVM_BT (b : Nat) : Nat := 0xE00E0040 + 0x4 * b
abbrev PVM_VCMD (k : Nat) : Nat := 0xE00E0200 + 0x4 * k
abbrev PVM_VARM : Nat := 0xE00E0280
abbrev PVM_MB_REQ (m w : Nat) : Nat := 0xE00E0400 + 0x400 * m + 0x4 * w
abbrev PVM_MB_GO (m : Nat) : Nat := 0xE00E0640 + 0x400 * m
abbrev PVM_MB_RSP (m w : Nat) : Nat := 0xE00E0680 + 0x400 * m + 0x4 * w
abbrev PVM_MB_STATUS (m : Nat) : Nat := 0xE00E06A0 + 0x400 * m
abbrev PVM_CONN (g : Nat) : Nat := 0xE00E0C00 + 0x4 * g
abbrev PVM_CONN_SEL : Nat := 0xE00E0D00
abbrev PVM_CONN_SESSION : Nat := 0xE00E0D04
abbrev PVM_CONN_RTT_MAX : Nat := 0xE00E0D08
abbrev PVM_CONN_LOST : Nat := 0xE00E0D0C
abbrev PVM_CONN_REJECT : Nat := 0xE00E0D10
/-! ## CYC (16_cyclic_program.md) -/

abbrev CYC_CMD : Nat := 0xE00F0000
abbrev CYC_STATUS : Nat := 0xE00F0004
abbrev CYC_IRQ : Nat := 0xE00F0008
abbrev CYC_IRQ_EN : Nat := 0xE00F000C
abbrev CYC_SRC_LO : Nat := 0xE00F0010
abbrev CYC_SRC_HI : Nat := 0xE00F0014
abbrev CYC_SRC_LEN : Nat := 0xE00F0018
abbrev CYC_RES : Nat := 0xE00F001C
abbrev CYC_PROG_ID_LO : Nat := 0xE00F0020
abbrev CYC_PROG_ID_HI : Nat := 0xE00F0024
abbrev CYC_CNT : Nat := 0xE00F0028
abbrev CYC_SKIP : Nat := 0xE00F002C
abbrev CYC_IDLE_MIN : Nat := 0xE00F0030
abbrev CYC_IDLE_MEAN : Nat := 0xE00F0034
abbrev CYC_EXEC_MAX : Nat := 0xE00F0038
abbrev CYC_WIN : Nat := 0xE00F003C
abbrev CYC_OC_SRC_LO : Nat := 0xE00F0040
abbrev CYC_OC_SRC_HI : Nat := 0xE00F0044
abbrev CYC_OC_N : Nat := 0xE00F0048
abbrev CYC_OC_RPT_LO : Nat := 0xE00F004C
abbrev CYC_OC_RPT_HI : Nat := 0xE00F0050
abbrev CYC_DONE : Nat := 0xE00F0054
abbrev CYC_START_CSEQ : Nat := 0xE00F0058
abbrev CYC_FRC_ACK : Nat := 0xE00F0060
abbrev CYC_FRC0 (x : Nat) : Nat := 0xE00F4000 + 0x10 * x
abbrev CYC_FRC1 (x : Nat) : Nat := 0xE00F4004 + 0x10 * x
abbrev CYC_FRC_VALUE_LO (x : Nat) : Nat := 0xE00F4008 + 0x10 * x
abbrev CYC_FRC_VALUE_HI (x : Nat) : Nat := 0xE00F400C + 0x10 * x
/-! ## PLK (15_redundant_pair.md) -/

abbrev PLK_CTRL : Nat := 0xE0100000
abbrev PLK_CFG : Nat := 0xE0100004
abbrev PLK_PARTNER : Nat := 0xE0100008
abbrev PLK_MIRROR : Nat := 0xE010000C
abbrev PLK_STATUS : Nat := 0xE0100010
abbrev PLK_EPOCH_LO : Nat := 0xE0100014
abbrev PLK_EPOCH_HI : Nat := 0xE0100018
abbrev PLK_PEPOCH_LO : Nat := 0xE010001C
abbrev PLK_PEPOCH_HI : Nat := 0xE0100020
abbrev PLK_MSEQ : Nat := 0xE0100024
abbrev PLK_GAP : Nat := 0xE0100028
abbrev PLK_RATE : Nat := 0xE010002C
abbrev PLK_TAKES : Nat := 0xE0100030
abbrev PLK_IRQ : Nat := 0xE0100034
abbrev PLK_IRQ_EN : Nat := 0xE0100038
abbrev PLK_RCP_MISMATCH : Nat := 0xE010003C
/-! ## CAN_n (12_can.md) -/

abbrev CAN_CTRL (n : Nat) : Nat := 0xE0200000 + 0x10000 * n
abbrev CAN_NBT (n : Nat) : Nat := 0xE0200004 + 0x10000 * n
abbrev CAN_DBT (n : Nat) : Nat := 0xE0200008 + 0x10000 * n
abbrev CAN_STATUS (n : Nat) : Nat := 0xE020000C + 0x10000 * n
abbrev CAN_IRQ (n : Nat) : Nat := 0xE0200010 + 0x10000 * n
abbrev CAN_IRQ_EN (n : Nat) : Nat := 0xE0200014 + 0x10000 * n
abbrev CAN_LOST (n : Nat) : Nat := 0xE0200018 + 0x10000 * n
abbrev CAN_BOFF (n : Nat) : Nat := 0xE020001C + 0x10000 * n
abbrev CAN_MAPOVR (n : Nat) : Nat := 0xE0200020 + 0x10000 * n
abbrev CAN_READMIT (n : Nat) : Nat := 0xE0200024 + 0x10000 * n
abbrev RXB_NEW (n g : Nat) : Nat := 0xE0200040 + 0x10000 * n + 0x4 * g
abbrev RXB_OVW (n g : Nat) : Nat := 0xE0200048 + 0x10000 * n + 0x4 * g
abbrev RXB_LOCK (n g : Nat) : Nat := 0xE0200050 + 0x10000 * n + 0x4 * g
abbrev RXB_REL (n g : Nat) : Nat := 0xE0200058 + 0x10000 * n + 0x4 * g
abbrev RXF_STATUS (n s : Nat) : Nat := 0xE0200060 + 0x10000 * n + 0x8 * s
abbrev RXF_ACK (n s : Nat) : Nat := 0xE0200064 + 0x10000 * n + 0x8 * s
abbrev TXB_REQ (n : Nat) : Nat := 0xE0200080 + 0x10000 * n
abbrev TXB_PEND (n : Nat) : Nat := 0xE0200084 + 0x10000 * n
abbrev TXB_CANCEL (n : Nat) : Nat := 0xE0200088 + 0x10000 * n
abbrev TXB_DONE (n : Nat) : Nat := 0xE020008C + 0x10000 * n
abbrev TXB_CANCELLED (n : Nat) : Nat := 0xE0200090 + 0x10000 * n
abbrev TXB_MAPPED (n : Nat) : Nat := 0xE0200094 + 0x10000 * n
abbrev TXC_STATUS (n : Nat) : Nat := 0xE0200098 + 0x10000 * n
abbrev TXC_APPEND (n : Nat) : Nat := 0xE020009C + 0x10000 * n
abbrev TXJ_STATUS (n : Nat) : Nat := 0xE02000A0 + 0x10000 * n
abbrev TXJ_ACK (n : Nat) : Nat := 0xE02000A4 + 0x10000 * n
abbrev CAN_FILTER (n i w : Nat) : Nat := 0xE0208000 + 0x10000 * n + 0x8 * i + 0x4 * w
abbrev CAN_RXMAP (n i w : Nat) : Nat := 0xE0208800 + 0x10000 * n + 0x10 * i + 0x4 * w
abbrev CAN_TXMAP (n i w : Nat) : Nat := 0xE0208C00 + 0x10000 * n + 0x10 * i + 0x4 * w
abbrev CAN_RXB (n i w : Nat) : Nat := 0xE0209000 + 0x10000 * n + 0x80 * i + 0x4 * w
abbrev CAN_RXF (n s e w : Nat) : Nat := 0xE020B000 + 0x10000 * n + 0xC00 * s + 0x60 * e + 0x4 * w
abbrev CAN_TXB (n b w : Nat) : Nat := 0xE020C800 + 0x10000 * n + 0x60 * b + 0x4 * w
abbrev CAN_TXB_PAD (n b w : Nat) : Nat := 0xE020C850 + 0x10000 * n + 0x60 * b + 0x4 * w
abbrev CAN_TXJ (n e w : Nat) : Nat := 0xE020D400 + 0x10000 * n + 0x20 * e + 0x4 * w
/-! ## ETH_n (13_ethernet_and_host.md) -/

abbrev ETH_CTRL (n : Nat) : Nat := 0xE0300000 + 0x10000 * n
abbrev ETH_STATUS (n : Nat) : Nat := 0xE0300004 + 0x10000 * n
abbrev ETH_IRQ (n : Nat) : Nat := 0xE0300008 + 0x10000 * n
abbrev ETH_IRQ_EN (n : Nat) : Nat := 0xE030000C + 0x10000 * n
abbrev ETH_PRP (n : Nat) : Nat := 0xE0300010 + 0x10000 * n
abbrev ETH_DD (n : Nat) : Nat := 0xE0300014 + 0x10000 * n
abbrev ETH_CNT_RXF (n : Nat) : Nat := 0xE0300020 + 0x10000 * n
abbrev ETH_CNT_TXF (n : Nat) : Nat := 0xE0300024 + 0x10000 * n
abbrev ETH_CNT_FCS (n : Nat) : Nat := 0xE0300028 + 0x10000 * n
abbrev ETH_CNT_DUP (n : Nat) : Nat := 0xE030002C + 0x10000 * n
abbrev ETH_CNT_DD_OVF (n : Nat) : Nat := 0xE0300030 + 0x10000 * n
abbrev ETH_CNT_WRONG_LAN (n : Nat) : Nat := 0xE0300034 + 0x10000 * n
abbrev ETH_CNT_VLAN_DROP (n : Nat) : Nat := 0xE0300038 + 0x10000 * n
abbrev ETH_CNT_SEC_DROP (n : Nat) : Nat := 0xE030003C + 0x10000 * n
abbrev ETH_CNT_FRX_DROP (n : Nat) : Nat := 0xE0300040 + 0x10000 * n
abbrev ETH_CNT_RRA_AUTH (n : Nat) : Nat := 0xE0300044 + 0x10000 * n
abbrev ETH_PTP (n : Nat) : Nat := 0xE0300050 + 0x10000 * n
abbrev ETH_TXTS_SEC (n : Nat) : Nat := 0xE0300054 + 0x10000 * n
abbrev ETH_TXTS_NSEC (n : Nat) : Nat := 0xE0300058 + 0x10000 * n
abbrev ETH_TXTS_HI (n : Nat) : Nat := 0xE030005C + 0x10000 * n
abbrev ETH_TXTS (n : Nat) : Nat := 0xE0300060 + 0x10000 * n
abbrev ETH_QBV_BASE_LO (n : Nat) : Nat := 0xE0300070 + 0x10000 * n
abbrev ETH_QBV_BASE_HI (n : Nat) : Nat := 0xE0300074 + 0x10000 * n
abbrev ETH_QBV_NENT (n : Nat) : Nat := 0xE0300078 + 0x10000 * n
abbrev ETH_FRX_STATUS (n : Nat) : Nat := 0xE0300080 + 0x10000 * n
abbrev ETH_FRX_ACK (n : Nat) : Nat := 0xE0300084 + 0x10000 * n
abbrev ETH_FTX_GO (n : Nat) : Nat := 0xE0300088 + 0x10000 * n
abbrev ETH_READMIT (n : Nat) : Nat := 0xE030008C + 0x10000 * n
abbrev ETH_SA_CFG (n k : Nat) : Nat := 0xE0300100 + 0x10000 * n + 0x10 * k
abbrev ETH_SA_SSCI (n k : Nat) : Nat := 0xE0300104 + 0x10000 * n + 0x10 * k
abbrev ETH_SA_PN_LO (n k : Nat) : Nat := 0xE0300108 + 0x10000 * n + 0x10 * k
abbrev ETH_SA_PN_HI (n k : Nat) : Nat := 0xE030010C + 0x10000 * n + 0x10 * k
abbrev ETH_GCL (n e : Nat) : Nat := 0xE0300400 + 0x10000 * n + 0x4 * e
abbrev ETH_FTX (n s w : Nat) : Nat := 0xE0304000 + 0x10000 * n + 0x800 * s + 0x4 * w
abbrev ETH_FRX (n s w : Nat) : Nat := 0xE0308000 + 0x10000 * n + 0x800 * s + 0x4 * w
/-! ## ETH_4 (13_ethernet_and_host.md) -/

abbrev ETH_HOST_IP : Nat := 0xE0340200
abbrev ETH_HOST_RRA_PORT : Nat := 0xE0340204
abbrev ETH_HOST_REC_PORT : Nat := 0xE0340208
abbrev ETH_HOST_REC_DST_IP : Nat := 0xE034020C
abbrev ETH_HOST_REC_DST_PORT : Nat := 0xE0340210
abbrev ETH_HOST_REC_DST_MAC_LO : Nat := 0xE0340214
abbrev ETH_HOST_REC_DST_MAC_HI : Nat := 0xE0340218
abbrev ETH_HOST_REC_RATE : Nat := 0xE034021C
/-! ## COX (04_cox.md) -/

abbrev COX_ID (n : Nat) : Nat := 0xE1000000 + 0x100000 * n
abbrev COX_STATUS (n : Nat) : Nat := 0xE1000004 + 0x100000 * n
abbrev COX_IRQ_EN (n : Nat) : Nat := 0xE1000008 + 0x100000 * n
abbrev COX_WIN (n : Nat) : Nat := 0xE100000C + 0x100000 * n
abbrev COX_WIN_SEQ (n : Nat) : Nat := 0xE1000010 + 0x100000 * n
abbrev COX_WIN_CYC (n : Nat) : Nat := 0xE1000014 + 0x100000 * n
abbrev COX_CLR (n : Nat) : Nat := 0xE1000018 + 0x100000 * n
abbrev COX_DEPTH (n p : Nat) : Nat := 0xE1000040 + 0x100000 * n + 0x4 * p
abbrev COX_WAITMAX (n p : Nat) : Nat := 0xE1000060 + 0x100000 * n + 0x4 * p
abbrev COX_BUSY (n t : Nat) : Nat := 0xE1000080 + 0x100000 * n + 0x4 * t
abbrev COX_TOT_DISP (n : Nat) : Nat := 0xE10000C0 + 0x100000 * n
abbrev COX_TOT_STALE (n : Nat) : Nat := 0xE10000C4 + 0x100000 * n
abbrev COX_TOT_DROP (n : Nat) : Nat := 0xE10000C8 + 0x100000 * n
abbrev COX_TOT_LATE (n : Nat) : Nat := 0xE10000CC + 0x100000 * n
abbrev COX_TOT_RETRY (n : Nat) : Nat := 0xE10000D0 + 0x100000 * n
abbrev COX_TOT_WAITX (n : Nat) : Nat := 0xE10000D4 + 0x100000 * n
abbrev COX_DP_STATUS (n c : Nat) : Nat := 0xE1001000 + 0x100000 * n + 0x80 * c
abbrev COX_DP_POP (n c : Nat) : Nat := 0xE1001004 + 0x100000 * n + 0x80 * c
abbrev COX_DP_VIEW (n c k : Nat) : Nat := 0xE1001008 + 0x100000 * n + 0x80 * c + 0x4 * k
abbrev COX_DP_RES (n c i : Nat) : Nat := 0xE1001040 + 0x100000 * n + 0x80 * c + 0x8 * i
abbrev COX_DP_RST (n c i : Nat) : Nat := 0xE1001044 + 0x100000 * n + 0x80 * c + 0x8 * i
abbrev COX_DP_DONE (n c : Nat) : Nat := 0xE1001060 + 0x100000 * n + 0x80 * c
abbrev COX_CTX_CFG (n x : Nat) : Nat := 0xE1004000 + 0x100000 * n + 0x8 * x
abbrev COX_CTX_DL (n x : Nat) : Nat := 0xE1004004 + 0x100000 * n + 0x8 * x
abbrev COX_CTX_WAIT_MAX (n x : Nat) : Nat := 0xE1008000 + 0x100000 * n + 0x10 * x
abbrev COX_CTX_WAIT_SUM (n x : Nat) : Nat := 0xE1008004 + 0x100000 * n + 0x10 * x
abbrev COX_CTX_DISP (n x : Nat) : Nat := 0xE1008008 + 0x100000 * n + 0x10 * x
abbrev COX_CTX_MISC (n x : Nat) : Nat := 0xE100800C + 0x100000 * n + 0x10 * x
/-! ## LPE (06_loop_law.md) -/

abbrev LPE_STATUS (n : Nat) : Nat := 0xE1010000 + 0x100000 * n
abbrev LPE_IRQ_EN (n : Nat) : Nat := 0xE1010004 + 0x100000 * n
abbrev LPE_UPDATES (n : Nat) : Nat := 0xE1010008 + 0x100000 * n
abbrev LPE_PC_LOOP (n : Nat) : Nat := 0xE1010010 + 0x100000 * n
abbrev LPE_PC_CSEQ (n : Nat) : Nat := 0xE1010014 + 0x100000 * n
abbrev LPE_PC_MASK (n : Nat) : Nat := 0xE1010018 + 0x100000 * n
abbrev LPE_PC_CMD (n : Nat) : Nat := 0xE101001C + 0x100000 * n
abbrev LPE_PC_RES (n : Nat) : Nat := 0xE1010020 + 0x100000 * n
abbrev LPE_PC_VAL (n k : Nat) : Nat := 0xE1010040 + 0x100000 * n + 0x4 * k
abbrev LPE_MODE (n x : Nat) : Nat := 0xE1010100 + 0x100000 * n + 0x4 * x
abbrev LPE_LSTAT (n x : Nat) : Nat := 0xE1010300 + 0x100000 * n + 0x4 * x
abbrev LPE_FB (n g : Nat) : Nat := 0xE1010500 + 0x100000 * n + 0x4 * g
abbrev LPE_REP (n x : Nat) : Nat := 0xE1010600 + 0x100000 * n + 0x4 * x
abbrev LPE_BND_MIN (n x k : Nat) : Nat := 0xE1014000 + 0x100000 * n + 0x80 * x + 0x8 * k
abbrev LPE_BND_MAX (n x k : Nat) : Nat := 0xE1014004 + 0x100000 * n + 0x80 * x + 0x8 * k
/-! ## MOT (09_motion.md) -/

abbrev MOT_STATUS (n : Nat) : Nat := 0xE1020000 + 0x100000 * n
abbrev MOT_IRQ_EN (n : Nat) : Nat := 0xE1020004 + 0x100000 * n
abbrev AX_CMD (n j : Nat) : Nat := 0xE1020100 + 0x100000 * n + 0x100 * j
abbrev AX_STATE (n j : Nat) : Nat := 0xE1020104 + 0x100000 * n + 0x100 * j
abbrev AX_POS_LO (n j : Nat) : Nat := 0xE1020108 + 0x100000 * n + 0x100 * j
abbrev AX_POS_HI (n j : Nat) : Nat := 0xE102010C + 0x100000 * n + 0x100 * j
abbrev AX_VEL_LO (n j : Nat) : Nat := 0xE1020110 + 0x100000 * n + 0x100 * j
abbrev AX_VEL_HI (n j : Nat) : Nat := 0xE1020114 + 0x100000 * n + 0x100 * j
abbrev AX_STOP_LO (n j : Nat) : Nat := 0xE1020118 + 0x100000 * n + 0x100 * j
abbrev AX_STOP_HI (n j : Nat) : Nat := 0xE102011C + 0x100000 * n + 0x100 * j
abbrev AX_STEPS (n j : Nat) : Nat := 0xE1020120 + 0x100000 * n + 0x100 * j
abbrev AX_MOVE (n j : Nat) : Nat := 0xE1020124 + 0x100000 * n + 0x100 * j
abbrev AX_QUEUE (n j : Nat) : Nat := 0xE1020128 + 0x100000 * n + 0x100 * j
abbrev AX_LOAD (n j : Nat) : Nat := 0xE102012C + 0x100000 * n + 0x100 * j
abbrev AX_EMF (n j : Nat) : Nat := 0xE1020130 + 0x100000 * n + 0x100 * j
abbrev AX_GEAR_NUM (n j : Nat) : Nat := 0xE1020134 + 0x100000 * n + 0x100 * j
abbrev AX_GEAR_DEN (n j : Nat) : Nat := 0xE1020138 + 0x100000 * n + 0x100 * j
abbrev AX_GEAR_MSW_LO (n j : Nat) : Nat := 0xE102013C + 0x100000 * n + 0x100 * j
abbrev AX_GEAR_MSW_HI (n j : Nat) : Nat := 0xE1020140 + 0x100000 * n + 0x100 * j
abbrev AX_GEAR_BLEND (n j : Nat) : Nat := 0xE1020144 + 0x100000 * n + 0x100 * j
abbrev AX_GEAR_CFG (n j : Nat) : Nat := 0xE1020148 + 0x100000 * n + 0x100 * j
abbrev AX_HOME_VAL_LO (n j : Nat) : Nat := 0xE102014C + 0x100000 * n + 0x100 * j
abbrev AX_HOME_VAL_HI (n j : Nat) : Nat := 0xE1020150 + 0x100000 * n + 0x100 * j
abbrev AX_CFG (n j : Nat) : Nat := 0xE1020180 + 0x100000 * n + 0x100 * j
abbrev AX_INPUTS (n j : Nat) : Nat := 0xE1020184 + 0x100000 * n + 0x100 * j
abbrev AX_STEP_T (n j : Nat) : Nat := 0xE1020188 + 0x100000 * n + 0x100 * j
abbrev AX_A_STOP (n j : Nat) : Nat := 0xE102018C + 0x100000 * n + 0x100 * j
abbrev AX_A_LIM (n j : Nat) : Nat := 0xE1020190 + 0x100000 * n + 0x100 * j
abbrev AX_J_STOP (n j : Nat) : Nat := 0xE1020194 + 0x100000 * n + 0x100 * j
abbrev AX_VMAX_LO (n j : Nat) : Nat := 0xE1020198 + 0x100000 * n + 0x100 * j
abbrev AX_VMAX_HI (n j : Nat) : Nat := 0xE102019C + 0x100000 * n + 0x100 * j
abbrev AX_V_SS (n j : Nat) : Nat := 0xE10201A0 + 0x100000 * n + 0x100 * j
abbrev AX_SLIM_LO_LO (n j : Nat) : Nat := 0xE10201A4 + 0x100000 * n + 0x100 * j
abbrev AX_SLIM_LO_HI (n j : Nat) : Nat := 0xE10201A8 + 0x100000 * n + 0x100 * j
abbrev AX_SLIM_HI_LO (n j : Nat) : Nat := 0xE10201AC + 0x100000 * n + 0x100 * j
abbrev AX_SLIM_HI_HI (n j : Nat) : Nat := 0xE10201B0 + 0x100000 * n + 0x100 * j
abbrev AX_HOME_VEL (n j : Nat) : Nat := 0xE10201B4 + 0x100000 * n + 0x100 * j
abbrev AX_HOME_A (n j : Nat) : Nat := 0xE10201B8 + 0x100000 * n + 0x100 * j
abbrev AX_HOME_CLEAR (n j : Nat) : Nat := 0xE10201BC + 0x100000 * n + 0x100 * j
abbrev AX_HOME_MAXDIST (n j : Nat) : Nat := 0xE10201C0 + 0x100000 * n + 0x100 * j
abbrev AX_HOME_PARK (n j : Nat) : Nat := 0xE10201C4 + 0x100000 * n + 0x100 * j
abbrev AX_RT (n j : Nat) : Nat := 0xE10201C8 + 0x100000 * n + 0x100 * j
abbrev AX_RWIND (n j : Nat) : Nat := 0xE10201CC + 0x100000 * n + 0x100 * j
abbrev AX_LWIND (n j : Nat) : Nat := 0xE10201D0 + 0x100000 * n + 0x100 * j
abbrev AX_KE (n j : Nat) : Nat := 0xE10201D4 + 0x100000 * n + 0x100 * j
abbrev AX_DMAX (n j : Nat) : Nat := 0xE10201D8 + 0x100000 * n + 0x100 * j
abbrev AX_EMF_FRAC (n j : Nat) : Nat := 0xE10201DC + 0x100000 * n + 0x100 * j
abbrev AX_VMIN (n j : Nat) : Nat := 0xE10201E0 + 0x100000 * n + 0x100 * j
abbrev AX_THETA0 (n j : Nat) : Nat := 0xE10201E4 + 0x100000 * n + 0x100 * j
abbrev AX_HSTALL (n j : Nat) : Nat := 0xE10201E8 + 0x100000 * n + 0x100 * j
abbrev AX_STALL_CFG (n j : Nat) : Nat := 0xE10201EC + 0x100000 * n + 0x100 * j
abbrev AX_EVT_SIG (n j : Nat) : Nat := 0xE10201F0 + 0x100000 * n + 0x100 * j
abbrev MT_ADDR_LO (n k : Nat) : Nat := 0xE1021000 + 0x100000 * n + 0x10 * k
abbrev MT_ADDR_HI (n k : Nat) : Nat := 0xE1021004 + 0x100000 * n + 0x10 * k
abbrev MT_NSEG (n k : Nat) : Nat := 0xE1021008 + 0x100000 * n + 0x10 * k
abbrev MT_CTRL (n k : Nat) : Nat := 0xE102100C + 0x100000 * n + 0x10 * k
/-! ## ACQ (05_analogue_acquisition.md) -/

abbrev ACQ_SRC (n : Nat) : Nat := 0xE1030000 + 0x100000 * n
abbrev ACQ_TOK (n : Nat) : Nat := 0xE1030004 + 0x100000 * n
abbrev ACQ_TAGERR (n : Nat) : Nat := 0xE1030008 + 0x100000 * n
/-! ## CDM (17_data_movement_and_integrity.md) -/

abbrev CDM_STATUS (n : Nat) : Nat := 0xE1040000 + 0x100000 * n
abbrev CDM_READMIT (n : Nat) : Nat := 0xE1040004 + 0x100000 * n
abbrev CDM_CH_CFG (n ch : Nat) : Nat := 0xE1040100 + 0x100000 * n + 0x80 * ch
abbrev CDM_CH_MODE (n ch : Nat) : Nat := 0xE1040104 + 0x100000 * n + 0x80 * ch
abbrev CDM_CH_SRC_LO (n ch : Nat) : Nat := 0xE1040108 + 0x100000 * n + 0x80 * ch
abbrev CDM_CH_SRC_HI (n ch : Nat) : Nat := 0xE104010C + 0x100000 * n + 0x80 * ch
abbrev CDM_CH_DST_LO (n ch : Nat) : Nat := 0xE1040110 + 0x100000 * n + 0x80 * ch
abbrev CDM_CH_DST_HI (n ch : Nat) : Nat := 0xE1040114 + 0x100000 * n + 0x80 * ch
abbrev CDM_CH_C0 (n ch : Nat) : Nat := 0xE1040118 + 0x100000 * n + 0x80 * ch
abbrev CDM_CH_C1 (n ch : Nat) : Nat := 0xE104011C + 0x100000 * n + 0x80 * ch
abbrev CDM_CH_C2 (n ch : Nat) : Nat := 0xE1040120 + 0x100000 * n + 0x80 * ch
abbrev CDM_CH_SS0 (n ch : Nat) : Nat := 0xE1040124 + 0x100000 * n + 0x80 * ch
abbrev CDM_CH_DS0 (n ch : Nat) : Nat := 0xE1040128 + 0x100000 * n + 0x80 * ch
abbrev CDM_CH_SS1 (n ch : Nat) : Nat := 0xE104012C + 0x100000 * n + 0x80 * ch
abbrev CDM_CH_DS1 (n ch : Nat) : Nat := 0xE1040130 + 0x100000 * n + 0x80 * ch
abbrev CDM_CH_SS2 (n ch : Nat) : Nat := 0xE1040134 + 0x100000 * n + 0x80 * ch
abbrev CDM_CH_DS2 (n ch : Nat) : Nat := 0xE1040138 + 0x100000 * n + 0x80 * ch
abbrev CDM_CH_CTRL (n ch : Nat) : Nat := 0xE104013C + 0x100000 * n + 0x80 * ch
abbrev CDM_CH_STATE (n ch : Nat) : Nat := 0xE1040140 + 0x100000 * n + 0x80 * ch
abbrev CDM_CH_POS (n ch : Nat) : Nat := 0xE1040144 + 0x100000 * n + 0x80 * ch
abbrev CDM_CH_ERR_LO (n ch : Nat) : Nat := 0xE1040148 + 0x100000 * n + 0x80 * ch
abbrev CDM_CH_ERR_HI (n ch : Nat) : Nat := 0xE104014C + 0x100000 * n + 0x80 * ch
abbrev CDM_CH_RETRIES (n ch : Nat) : Nat := 0xE1040150 + 0x100000 * n + 0x80 * ch
/-! ## LSM (07_loop_integrity.md) -/

abbrev LSM_STATUS (n : Nat) : Nat := 0xE1050000 + 0x100000 * n
abbrev LSM_IRQ_EN (n : Nat) : Nat := 0xE1050004 + 0x100000 * n
abbrev LSM_CTRL (n : Nat) : Nat := 0xE1050008 + 0x100000 * n
abbrev LSM_SLACK (n : Nat) : Nat := 0xE105000C + 0x100000 * n
abbrev LSM_MIG (n : Nat) : Nat := 0xE1050010 + 0x100000 * n
abbrev LSM_LIVE (n : Nat) : Nat := 0xE1050014 + 0x100000 * n
abbrev LSM_RETRY_MAX (n : Nat) : Nat := 0xE1050018 + 0x100000 * n
abbrev LSM_MISMATCHES (n : Nat) : Nat := 0xE105001C + 0x100000 * n
abbrev LSM_EXHAUSTS (n : Nat) : Nat := 0xE1050020 + 0x100000 * n
abbrev LSM_MIG_DROP (n : Nat) : Nat := 0xE1050024 + 0x100000 * n
abbrev LSM_LAST_CSEQ (n : Nat) : Nat := 0xE1050028 + 0x100000 * n
abbrev LSM_LAST_DETAIL (n : Nat) : Nat := 0xE105002C + 0x100000 * n
abbrev LSM_TEST (n : Nat) : Nat := 0xE1050030 + 0x100000 * n
abbrev LSM_CLR (n : Nat) : Nat := 0xE1050034 + 0x100000 * n

end Reg

namespace F


/-! ## Fields of RPC (19_reset_power_retention.md) -/

abbrev RPC_CAUSE_STARTS : Fld := ⟨Reg.RPC_CAUSE, 16, 16⟩
abbrev RPC_CAUSE_UNCONF : Fld := ⟨Reg.RPC_CAUSE, 8, 3⟩
abbrev RPC_CAUSE_FOLLY : Fld := ⟨Reg.RPC_CAUSE, 6, 1⟩
abbrev RPC_CAUSE_DIP : Fld := ⟨Reg.RPC_CAUSE, 5, 1⟩
abbrev RPC_CAUSE_START_TMO : Fld := ⟨Reg.RPC_CAUSE, 4, 1⟩
abbrev RPC_CAUSE_CAUSE : Fld := ⟨Reg.RPC_CAUSE, 0, 4⟩
abbrev RPC_SWRST_KEY : Fld := ⟨Reg.RPC_SWRST, 8, 8⟩
abbrev RPC_SWRST_DOMAIN : Fld := ⟨Reg.RPC_SWRST, 0, 8⟩
abbrev RPC_FOLLY_KEY : Fld := ⟨Reg.RPC_FOLLY, 8, 8⟩
abbrev RPC_FOLLY_GO : Fld := ⟨Reg.RPC_FOLLY, 0, 1⟩
abbrev RPC_START_CONFIRMED : Fld := ⟨Reg.RPC_START, 31, 1⟩
abbrev RPC_START_UNCONF : Fld := ⟨Reg.RPC_START, 16, 3⟩
abbrev RPC_START_START_OK : Fld := ⟨Reg.RPC_START, 0, 1⟩
abbrev RPC_WDG_STATUS_TIMEOUT_MS : Fld := ⟨Reg.RPC_WDG_STATUS, 16, 16⟩
abbrev RPC_WDG_STATUS_LEFT_MS : Fld := ⟨Reg.RPC_WDG_STATUS, 0, 16⟩
abbrev RPC_CWD_KICK_KICK : Fld := ⟨Reg.RPC_CWD_KICK, 0, 1⟩
abbrev RPC_SUPPLY_VFLD_MV : Fld := ⟨Reg.RPC_SUPPLY, 16, 16⟩
abbrev RPC_SUPPLY_VIN_MV : Fld := ⟨Reg.RPC_SUPPLY, 0, 16⟩
abbrev RPC_SUP_STATUS_VFLD_CHG : Fld := ⟨Reg.RPC_SUP_STATUS, 7, 1⟩
abbrev RPC_SUP_STATUS_DIP_END : Fld := ⟨Reg.RPC_SUP_STATUS, 6, 1⟩
abbrev RPC_SUP_STATUS_DIP_SET : Fld := ⟨Reg.RPC_SUP_STATUS, 5, 1⟩
abbrev RPC_SUP_STATUS_VFLD_LOST : Fld := ⟨Reg.RPC_SUP_STATUS, 2, 1⟩
abbrev RPC_SUP_STATUS_VFLD_LOW : Fld := ⟨Reg.RPC_SUP_STATUS, 1, 1⟩
abbrev RPC_SUP_STATUS_DIP : Fld := ⟨Reg.RPC_SUP_STATUS, 0, 1⟩
abbrev RPC_LP_CMD_KEY : Fld := ⟨Reg.RPC_LP_CMD, 8, 8⟩
abbrev RPC_LP_CMD_STATE : Fld := ⟨Reg.RPC_LP_CMD, 0, 2⟩
abbrev RPC_RETURNED_RETURNED : Fld := ⟨Reg.RPC_RETURNED, 0, 8⟩
abbrev RPC_IRQ_FLAGS : Fld := ⟨Reg.RPC_IRQ, 1, 7⟩
abbrev RPC_IRQ_EN_FLAGS : Fld := ⟨Reg.RPC_IRQ_EN, 1, 7⟩
abbrev RPC_CWD_EN (c : Nat) : Fld := ⟨Reg.RPC_CWD c, 31, 1⟩
abbrev RPC_CWD_EXPIRED (c : Nat) : Fld := ⟨Reg.RPC_CWD c, 30, 1⟩
abbrev RPC_CWD_TIMEOUT_MS (c : Nat) : Fld := ⟨Reg.RPC_CWD c, 0, 16⟩
abbrev RPC_DOM_LOSSES (d : Nat) : Fld := ⟨Reg.RPC_DOM d, 24, 8⟩
abbrev RPC_DOM_LAST (d : Nat) : Fld := ⟨Reg.RPC_DOM d, 8, 4⟩
abbrev RPC_DOM_HEALTH (d : Nat) : Fld := ⟨Reg.RPC_DOM d, 4, 2⟩
abbrev RPC_DOM_CLK_GOOD (d : Nat) : Fld := ⟨Reg.RPC_DOM d, 2, 1⟩
abbrev RPC_DOM_HELD (d : Nat) : Fld := ⟨Reg.RPC_DOM d, 1, 1⟩
abbrev RPC_DOM_RELEASED (d : Nat) : Fld := ⟨Reg.RPC_DOM d, 0, 1⟩
abbrev RPC_OB_CMD_COMMIT : Fld := ⟨Reg.RPC_OB_CMD, 0, 1⟩
abbrev RPC_OB_STATUS_OB_FAIL : Fld := ⟨Reg.RPC_OB_STATUS, 4, 1⟩
abbrev RPC_OB_STATUS_BAD_1 : Fld := ⟨Reg.RPC_OB_STATUS, 3, 1⟩
abbrev RPC_OB_STATUS_BAD_0 : Fld := ⟨Reg.RPC_OB_STATUS, 2, 1⟩
abbrev RPC_OB_STATUS_BUSY : Fld := ⟨Reg.RPC_OB_STATUS, 1, 1⟩
abbrev RPC_OB_STATUS_IN_FORCE : Fld := ⟨Reg.RPC_OB_STATUS, 0, 1⟩

/-! ## Fields of CTU (02_course_and_time.md) -/

abbrev CTU_SNAP_SNAP : Fld := ⟨Reg.CTU_SNAP, 0, 1⟩
abbrev CTU_SNAP_HI_FRAC : Fld := ⟨Reg.CTU_SNAP_HI, 16, 16⟩
abbrev CTU_SNAP_HI_SEC_HI : Fld := ⟨Reg.CTU_SNAP_HI, 0, 16⟩
abbrev CTU_TIME_INC_INC_NS : Fld := ⟨Reg.CTU_TIME_INC, 24, 8⟩
abbrev CTU_TIME_INC_INC_FRAC : Fld := ⟨Reg.CTU_TIME_INC, 0, 24⟩
abbrev CTU_STEP_NSEC_NSEC : Fld := ⟨Reg.CTU_STEP_NSEC, 0, 30⟩
abbrev CTU_STEP_HI_SEC_HI : Fld := ⟨Reg.CTU_STEP_HI, 0, 16⟩
abbrev CTU_STEP_CTRL_MODE : Fld := ⟨Reg.CTU_STEP_CTRL, 1, 1⟩
abbrev CTU_STEP_CTRL_GO : Fld := ⟨Reg.CTU_STEP_CTRL, 0, 1⟩
abbrev CTU_TIME_STATE_SLEW_CLAMP : Fld := ⟨Reg.CTU_TIME_STATE, 11, 1⟩
abbrev CTU_TIME_STATE_WD_EXP : Fld := ⟨Reg.CTU_TIME_STATE, 10, 1⟩
abbrev CTU_TIME_STATE_STEP_REFUSED : Fld := ⟨Reg.CTU_TIME_STATE, 9, 1⟩
abbrev CTU_TIME_STATE_RESTORED : Fld := ⟨Reg.CTU_TIME_STATE, 8, 1⟩
abbrev CTU_TIME_STATE_STATE_CHG : Fld := ⟨Reg.CTU_TIME_STATE, 3, 1⟩
abbrev CTU_TIME_STATE_INC_CLAMP : Fld := ⟨Reg.CTU_TIME_STATE, 2, 1⟩
abbrev CTU_TIME_STATE_STATE : Fld := ⟨Reg.CTU_TIME_STATE, 0, 2⟩
abbrev CTU_SERVO_WD_TIMEOUT_MS : Fld := ⟨Reg.CTU_SERVO_WD, 0, 16⟩
abbrev CTU_PPS_OUT_CTRL_WIDTH_US : Fld := ⟨Reg.CTU_PPS_OUT_CTRL, 2, 19⟩
abbrev CTU_PPS_OUT_CTRL_LOCK_ONLY : Fld := ⟨Reg.CTU_PPS_OUT_CTRL, 1, 1⟩
abbrev CTU_PPS_OUT_CTRL_OUT_EN : Fld := ⟨Reg.CTU_PPS_OUT_CTRL, 0, 1⟩
abbrev CTU_PPS_OUT_OFFSET_OFFSET_NS : Fld := ⟨Reg.CTU_PPS_OUT_OFFSET, 0, 30⟩
abbrev CTU_PPS_IN_CTRL_OVR : Fld := ⟨Reg.CTU_PPS_IN_CTRL, 3, 1⟩
abbrev CTU_PPS_IN_CTRL_CAP_VALID : Fld := ⟨Reg.CTU_PPS_IN_CTRL, 2, 1⟩
abbrev CTU_PPS_IN_CTRL_EDGE : Fld := ⟨Reg.CTU_PPS_IN_CTRL, 1, 1⟩
abbrev CTU_PPS_IN_CTRL_IN_EN : Fld := ⟨Reg.CTU_PPS_IN_CTRL, 0, 1⟩
abbrev CTU_PPS_CAP_HI_FRAC : Fld := ⟨Reg.CTU_PPS_CAP_HI, 16, 16⟩
abbrev CTU_PPS_CAP_HI_SEC_HI : Fld := ⟨Reg.CTU_PPS_CAP_HI, 0, 16⟩
abbrev CRS_CFG_EN (n : Nat) : Fld := ⟨Reg.CRS_CFG n, 31, 1⟩
abbrev CRS_CFG_DIR (n : Nat) : Fld := ⟨Reg.CRS_CFG n, 8, 1⟩
abbrev CRS_CFG_ENC (n : Nat) : Fld := ⟨Reg.CRS_CFG n, 4, 4⟩
abbrev CRS_CFG_SRC (n : Nat) : Fld := ⟨Reg.CRS_CFG n, 0, 2⟩
abbrev CRS_STATUS_LOSSES (n : Nat) : Fld := ⟨Reg.CRS_STATUS n, 16, 16⟩
abbrev CRS_STATUS_CHANGED (n : Nat) : Fld := ⟨Reg.CRS_STATUS n, 2, 1⟩
abbrev CRS_STATUS_STATE (n : Nat) : Fld := ⟨Reg.CRS_STATUS n, 0, 2⟩
abbrev CRS_PLL_BW (n : Nat) : Fld := ⟨Reg.CRS_PLL n, 0, 6⟩
abbrev CRS_FREQ_FREQ_MHZ (n : Nat) : Fld := ⟨Reg.CRS_FREQ n, 0, 17⟩
abbrev CTU_CT_GO_MASK : Fld := ⟨Reg.CTU_CT_GO, 0, 8⟩
abbrev CTU_SKIPPED_FLAG : Fld := ⟨Reg.CTU_SKIPPED, 0, 8⟩
abbrev CT_CFG_EN (m : Nat) : Fld := ⟨Reg.CT_CFG m, 31, 1⟩
abbrev CT_CFG_NENT (m : Nat) : Fld := ⟨Reg.CT_CFG m, 8, 7⟩
abbrev CT_CFG_CRS (m : Nat) : Fld := ⟨Reg.CT_CFG m, 0, 2⟩
abbrev CT_PERIOD_HI_PERIOD (m : Nat) : Fld := ⟨Reg.CT_PERIOD_HI m, 0, 15⟩
abbrev CT_CTRL_RUNNING (m : Nat) : Fld := ⟨Reg.CT_CTRL m, 1, 1⟩
abbrev CT_CTRL_RUN (m : Nat) : Fld := ⟨Reg.CT_CTRL m, 0, 1⟩
abbrev CT_ENTRY_HI_OFFSET (m e : Nat) : Fld := ⟨Reg.CT_ENTRY_HI m e, 0, 15⟩

/-! ## Fields of DIO (02_course_and_time.md) -/

abbrev DIO_FILT_EDGES (n : Nat) : Fld := ⟨Reg.DIO_FILT n, 16, 2⟩
abbrev DIO_FILT_FILT_US (n : Nat) : Fld := ⟨Reg.DIO_FILT n, 0, 15⟩

/-! ## Fields of ENC (09_motion.md) -/

abbrev ENC_READMIT_INDEX : Fld := ⟨Reg.ENC_READMIT, 0, 4⟩
abbrev ENC_CFG_EN (n : Nat) : Fld := ⟨Reg.ENC_CFG n, 31, 1⟩
abbrev ENC_CFG_DIR (n : Nat) : Fld := ⟨Reg.ENC_CFG n, 8, 1⟩
abbrev ENC_CFG_Z_QUAL (n : Nat) : Fld := ⟨Reg.ENC_CFG n, 6, 1⟩
abbrev ENC_CFG_MODE (n : Nat) : Fld := ⟨Reg.ENC_CFG n, 4, 2⟩
abbrev ENC_CFG_FILT (n : Nat) : Fld := ⟨Reg.ENC_CFG n, 0, 4⟩
abbrev ENC_ACC_HI_ACC (n : Nat) : Fld := ⟨Reg.ENC_ACC_HI n, 0, 16⟩
abbrev ENC_IDX_HI_IDX_VALID (n : Nat) : Fld := ⟨Reg.ENC_IDX_HI n, 31, 1⟩
abbrev ENC_IDX_HI_IDX (n : Nat) : Fld := ⟨Reg.ENC_IDX_HI n, 0, 16⟩
abbrev ENC_STATUS_ILLEGAL (n : Nat) : Fld := ⟨Reg.ENC_STATUS n, 16, 16⟩
abbrev ENC_STATUS_HEALTH (n : Nat) : Fld := ⟨Reg.ENC_STATUS n, 4, 2⟩
abbrev ENC_STATUS_IDX_OVR (n : Nat) : Fld := ⟨Reg.ENC_STATUS n, 3, 1⟩
abbrev ENC_STATUS_SAT (n : Nat) : Fld := ⟨Reg.ENC_STATUS n, 2, 1⟩
abbrev ENC_STATUS_ILL (n : Nat) : Fld := ⟨Reg.ENC_STATUS n, 1, 1⟩
abbrev ENC_STATUS_LINE (n : Nat) : Fld := ⟨Reg.ENC_STATUS n, 0, 1⟩

/-! ## Fields of IML (03_structure_image.md) -/

abbrev IML_CTRL_CMD : Fld := ⟨Reg.IML_CTRL, 0, 3⟩
abbrev IML_STATUS_REFUSE : Fld := ⟨Reg.IML_STATUS, 16, 8⟩
abbrev IML_STATUS_CMD_IGN : Fld := ⟨Reg.IML_STATUS, 15, 1⟩
abbrev IML_STATUS_NO_IMAGE : Fld := ⟨Reg.IML_STATUS, 14, 1⟩
abbrev IML_STATUS_BOOT_FALLBACK : Fld := ⟨Reg.IML_STATUS, 13, 1⟩
abbrev IML_STATUS_B_VALID : Fld := ⟨Reg.IML_STATUS, 12, 1⟩
abbrev IML_STATUS_A_VALID : Fld := ⟨Reg.IML_STATUS, 11, 1⟩
abbrev IML_STATUS_ACTIVE : Fld := ⟨Reg.IML_STATUS, 10, 1⟩
abbrev IML_STATUS_STATE : Fld := ⟨Reg.IML_STATUS, 0, 3⟩
abbrev IML_SRC_LO_ADDR : Fld := ⟨Reg.IML_SRC_LO, 6, 26⟩
abbrev IML_SRC_HI_ADDR : Fld := ⟨Reg.IML_SRC_HI, 0, 8⟩
abbrev IML_SPARE_HEALTH : Fld := ⟨Reg.IML_SPARE, 4, 2⟩
abbrev IML_SPARE_SPARE : Fld := ⟨Reg.IML_SPARE, 0, 4⟩
abbrev IML_PART_PART_CREW : Fld := ⟨Reg.IML_PART, 0, 8⟩

/-! ## Fields of FWL (17_data_movement_and_integrity.md) -/

abbrev FWL_STATUS_LINK : Fld := ⟨Reg.FWL_STATUS, 2, 1⟩
abbrev FWL_STATUS_ECC_UE : Fld := ⟨Reg.FWL_STATUS, 1, 1⟩
abbrev FWL_STATUS_VIOL : Fld := ⟨Reg.FWL_STATUS, 0, 1⟩
abbrev FWL_UNFREEZE_KEY : Fld := ⟨Reg.FWL_UNFREEZE, 8, 8⟩
abbrev FWL_UNFREEZE_MASTER : Fld := ⟨Reg.FWL_UNFREEZE, 0, 8⟩
abbrev FWL_IRQ_EN_EN : Fld := ⟨Reg.FWL_IRQ_EN, 0, 3⟩
abbrev FWL_READMIT_LINK : Fld := ⟨Reg.FWL_READMIT, 0, 4⟩
abbrev FWL_VIOL_INFO_KIND : Fld := ⟨Reg.FWL_VIOL_INFO, 8, 3⟩
abbrev FWL_VIOL_INFO_MASTER : Fld := ⟨Reg.FWL_VIOL_INFO, 0, 8⟩
abbrev FWL_VIOL_ADDR_HI_ADDR : Fld := ⟨Reg.FWL_VIOL_ADDR_HI, 0, 8⟩
abbrev FWL_ECC_ADDR_HI_ADDR : Fld := ⟨Reg.FWL_ECC_ADDR_HI, 0, 8⟩
abbrev FWL_LINK_TAGERR (l : Nat) : Fld := ⟨Reg.FWL_LINK l, 16, 16⟩
abbrev FWL_LINK_HEALTH (l : Nat) : Fld := ⟨Reg.FWL_LINK l, 0, 2⟩
abbrev FWL_REG0_BASE (m r : Nat) : Fld := ⟨Reg.FWL_REG0 m r, 12, 20⟩
abbrev FWL_REG0_EN (m r : Nat) : Fld := ⟨Reg.FWL_REG0 m r, 3, 1⟩
abbrev FWL_REG0_PERM (m r : Nat) : Fld := ⟨Reg.FWL_REG0 m r, 0, 3⟩
abbrev FWL_REG1_BASE (m r : Nat) : Fld := ⟨Reg.FWL_REG1 m r, 0, 8⟩
abbrev FWL_REG2_LIMIT (m r : Nat) : Fld := ⟨Reg.FWL_REG2 m r, 12, 20⟩
abbrev FWL_REG3_LIMIT (m r : Nat) : Fld := ⟨Reg.FWL_REG3 m r, 0, 8⟩

/-! ## Fields of VLT (18_security.md) -/

abbrev VLT_CMD_ARG : Fld := ⟨Reg.VLT_CMD, 16, 16⟩
abbrev VLT_CMD_CMD : Fld := ⟨Reg.VLT_CMD, 0, 4⟩
abbrev VLT_ARG_LO_ADDR : Fld := ⟨Reg.VLT_ARG_LO, 6, 26⟩
abbrev VLT_ARG_HI_ADDR : Fld := ⟨Reg.VLT_ARG_HI, 0, 8⟩
abbrev VLT_RES_BUSY : Fld := ⟨Reg.VLT_RES, 31, 1⟩
abbrev VLT_RES_DONE : Fld := ⟨Reg.VLT_RES, 30, 1⟩
abbrev VLT_RES_CMD : Fld := ⟨Reg.VLT_RES, 24, 4⟩
abbrev VLT_RES_REFUSE : Fld := ⟨Reg.VLT_RES, 16, 8⟩
abbrev VLT_RES_OUT : Fld := ⟨Reg.VLT_RES, 0, 16⟩
abbrev VLT_STATUS_ENTROPY_FAIL : Fld := ⟨Reg.VLT_STATUS, 31, 1⟩
abbrev VLT_STATUS_DBG_CHG : Fld := ⟨Reg.VLT_STATUS, 30, 1⟩
abbrev VLT_STATUS_SCOPE : Fld := ⟨Reg.VLT_STATUS, 16, 4⟩
abbrev VLT_STATUS_SW18 : Fld := ⟨Reg.VLT_STATUS, 8, 1⟩
abbrev VLT_STATUS_SLOTS : Fld := ⟨Reg.VLT_STATUS, 0, 8⟩
abbrev VLT_IRQ_EN_EN : Fld := ⟨Reg.VLT_IRQ_EN, 0, 2⟩

/-! ## Fields of EVL (01_architecture.md) -/

abbrev EVL_CTRL_DRAM_EN : Fld := ⟨Reg.EVL_CTRL, 0, 1⟩
abbrev EVL_BASE_LO_BASE : Fld := ⟨Reg.EVL_BASE_LO, 12, 20⟩
abbrev EVL_BASE_HI_BASE : Fld := ⟨Reg.EVL_BASE_HI, 0, 8⟩
abbrev EVL_SIZE_LOG2_ENTRIES : Fld := ⟨Reg.EVL_SIZE, 0, 5⟩
abbrev EVL_BH_IDX_BH_IDX : Fld := ⟨Reg.EVL_BH_IDX, 0, 8⟩
abbrev EVL_SW_CODE_SUBCODE : Fld := ⟨Reg.EVL_SW_CODE, 0, 7⟩

/-! ## Fields of SEQ (08_recipe_sequencer.md) -/

abbrev SEQ_CMD_RCP : Fld := ⟨Reg.SEQ_CMD, 8, 4⟩
abbrev SEQ_CMD_CMD : Fld := ⟨Reg.SEQ_CMD, 0, 3⟩
abbrev SEQ_ARG_STEP : Fld := ⟨Reg.SEQ_ARG, 0, 16⟩
abbrev SEQ_SRC_LO_ADDR : Fld := ⟨Reg.SEQ_SRC_LO, 6, 26⟩
abbrev SEQ_SRC_HI_ADDR : Fld := ⟨Reg.SEQ_SRC_HI, 0, 8⟩
abbrev SEQ_RES_BUSY : Fld := ⟨Reg.SEQ_RES, 31, 1⟩
abbrev SEQ_RES_RCP : Fld := ⟨Reg.SEQ_RES, 16, 4⟩
abbrev SEQ_RES_CMD : Fld := ⟨Reg.SEQ_RES, 12, 3⟩
abbrev SEQ_RES_REFUSE : Fld := ⟨Reg.SEQ_RES, 0, 8⟩
abbrev SEQ_STATUS_REP_BUSY : Fld := ⟨Reg.SEQ_STATUS, 9, 1⟩
abbrev SEQ_STATUS_CKPT_BUSY : Fld := ⟨Reg.SEQ_STATUS, 8, 1⟩
abbrev SEQ_STATUS_RESUME_READY : Fld := ⟨Reg.SEQ_STATUS, 3, 1⟩
abbrev SEQ_STATUS_CKPT_FAIL : Fld := ⟨Reg.SEQ_STATUS, 2, 1⟩
abbrev SEQ_STATUS_CKPT_DONE : Fld := ⟨Reg.SEQ_STATUS, 1, 1⟩
abbrev SEQ_STATUS_LOAD_DONE : Fld := ⟨Reg.SEQ_STATUS, 0, 1⟩
abbrev SEQ_IRQ_EN_ST_EN : Fld := ⟨Reg.SEQ_IRQ_EN, 16, 4⟩
abbrev SEQ_IRQ_EN_RCP_EN : Fld := ⟨Reg.SEQ_IRQ_EN, 0, 16⟩
abbrev SEQ_RCHG_CHG : Fld := ⟨Reg.SEQ_RCHG, 0, 16⟩
abbrev SEQ_CKPT_CFG_PERIOD_MS : Fld := ⟨Reg.SEQ_CKPT_CFG, 8, 8⟩
abbrev SEQ_CKPT_CFG_REF : Fld := ⟨Reg.SEQ_CKPT_CFG, 0, 3⟩
abbrev SEQ_R_STATE_LEAD (r : Nat) : Fld := ⟨Reg.SEQ_R_STATE r, 24, 8⟩
abbrev SEQ_R_STATE_CAUSE (r : Nat) : Fld := ⟨Reg.SEQ_R_STATE r, 16, 4⟩
abbrev SEQ_R_STATE_CREWS (r : Nat) : Fld := ⟨Reg.SEQ_R_STATE r, 8, 8⟩
abbrev SEQ_R_STATE_ARMED (r : Nat) : Fld := ⟨Reg.SEQ_R_STATE r, 5, 1⟩
abbrev SEQ_R_STATE_PAUSE_PEND (r : Nat) : Fld := ⟨Reg.SEQ_R_STATE r, 4, 1⟩
abbrev SEQ_R_STATE_STATE (r : Nat) : Fld := ⟨Reg.SEQ_R_STATE r, 0, 4⟩
abbrev SEQ_R_STEP_STEP (r : Nat) : Fld := ⟨Reg.SEQ_R_STEP r, 0, 16⟩
abbrev SEQ_R_REFUSE_STEP (r : Nat) : Fld := ⟨Reg.SEQ_R_REFUSE r, 16, 16⟩
abbrev SEQ_R_REFUSE_NO_ANSWER (r : Nat) : Fld := ⟨Reg.SEQ_R_REFUSE r, 8, 1⟩
abbrev SEQ_R_REFUSE_REASON (r : Nat) : Fld := ⟨Reg.SEQ_R_REFUSE r, 0, 8⟩

/-! ## Fields of RCE (10_record_and_trigger.md) -/

abbrev RCE_CTRL_AUTO_EXP : Fld := ⟨Reg.RCE_CTRL, 3, 1⟩
abbrev RCE_CTRL_EXP_EN : Fld := ⟨Reg.RCE_CTRL, 2, 1⟩
abbrev RCE_CTRL_AUTO_RUN : Fld := ⟨Reg.RCE_CTRL, 1, 1⟩
abbrev RCE_CTRL_RUN : Fld := ⟨Reg.RCE_CTRL, 0, 1⟩
abbrev RCE_STATUS_RUN_CHG : Fld := ⟨Reg.RCE_STATUS, 11, 1⟩
abbrev RCE_STATUS_ENV_VIOL : Fld := ⟨Reg.RCE_STATUS, 10, 1⟩
abbrev RCE_STATUS_EXPORTING : Fld := ⟨Reg.RCE_STATUS, 9, 1⟩
abbrev RCE_STATUS_RUNNING : Fld := ⟨Reg.RCE_STATUS, 8, 1⟩
abbrev RCE_STATUS_NORAND : Fld := ⟨Reg.RCE_STATUS, 6, 1⟩
abbrev RCE_STATUS_SIGN_FAIL : Fld := ⟨Reg.RCE_STATUS, 5, 1⟩
abbrev RCE_STATUS_RETX_REF : Fld := ⟨Reg.RCE_STATUS, 4, 1⟩
abbrev RCE_STATUS_EXP_LOST : Fld := ⟨Reg.RCE_STATUS, 3, 1⟩
abbrev RCE_STATUS_TAGERR : Fld := ⟨Reg.RCE_STATUS, 2, 1⟩
abbrev RCE_STATUS_MISSING : Fld := ⟨Reg.RCE_STATUS, 1, 1⟩
abbrev RCE_STATUS_LATE : Fld := ⟨Reg.RCE_STATUS, 0, 1⟩
abbrev RCE_IRQ_EN_EN : Fld := ⟨Reg.RCE_IRQ_EN, 0, 3⟩
abbrev RCE_BLOCK_MS_BLOCK_MS : Fld := ⟨Reg.RCE_BLOCK_MS, 0, 10⟩
abbrev RCE_WR_SLOT_SLOT : Fld := ⟨Reg.RCE_WR_SLOT, 0, 15⟩
abbrev RCE_EXP_SLOT_SLOT : Fld := ⟨Reg.RCE_EXP_SLOT, 0, 15⟩
abbrev RCE_ENV_ACTIVE (m : Nat) : Fld := ⟨Reg.RCE_ENV m, 31, 1⟩
abbrev RCE_ENV_SUSPENDED (m : Nat) : Fld := ⟨Reg.RCE_ENV m, 30, 1⟩
abbrev RCE_ENV_SET (m : Nat) : Fld := ⟨Reg.RCE_ENV m, 24, 6⟩
abbrev RCE_ENV_LAST_ENTRY (m : Nat) : Fld := ⟨Reg.RCE_ENV m, 10, 9⟩
abbrev RCE_ENV_VIOL (m : Nat) : Fld := ⟨Reg.RCE_ENV m, 0, 10⟩
abbrev RCE_CREW_ROW_LAG (m : Nat) : Fld := ⟨Reg.RCE_CREW m, 0, 2⟩
abbrev CAP_CFG_EN (c : Nat) : Fld := ⟨Reg.CAP_CFG c, 31, 1⟩
abbrev CAP_CFG_AUTO (c : Nat) : Fld := ⟨Reg.CAP_CFG c, 30, 1⟩
abbrev CAP_CFG_PREFILL (c : Nat) : Fld := ⟨Reg.CAP_CFG c, 29, 1⟩
abbrev CAP_CFG_NBUF (c : Nat) : Fld := ⟨Reg.CAP_CFG c, 28, 1⟩
abbrev CAP_CFG_CREW (c : Nat) : Fld := ⟨Reg.CAP_CFG c, 24, 3⟩
abbrev CAP_CFG_E (c : Nat) : Fld := ⟨Reg.CAP_CFG c, 16, 6⟩
abbrev CAP_CFG_NSIG_M1 (c : Nat) : Fld := ⟨Reg.CAP_CFG c, 8, 8⟩
abbrev CAP_CFG_DIV_M1 (c : Nat) : Fld := ⟨Reg.CAP_CFG c, 0, 8⟩
abbrev CAP_TRIG_TRIG_MASK (c : Nat) : Fld := ⟨Reg.CAP_TRIG c, 0, 16⟩
abbrev CAP_PRE_PRE (c : Nat) : Fld := ⟨Reg.CAP_PRE c, 0, 24⟩
abbrev CAP_BUF_LO_ADDR (c : Nat) : Fld := ⟨Reg.CAP_BUF_LO c, 6, 26⟩
abbrev CAP_BUF_HI_ADDR (c : Nat) : Fld := ⟨Reg.CAP_BUF_HI c, 0, 8⟩
abbrev CAP_POST_POST (c : Nat) : Fld := ⟨Reg.CAP_POST c, 0, 24⟩
abbrev CAP_CTRL_IEN (c : Nat) : Fld := ⟨Reg.CAP_CTRL c, 8, 1⟩
abbrev CAP_CTRL_RELEASE1 (c : Nat) : Fld := ⟨Reg.CAP_CTRL c, 4, 1⟩
abbrev CAP_CTRL_RELEASE0 (c : Nat) : Fld := ⟨Reg.CAP_CTRL c, 3, 1⟩
abbrev CAP_CTRL_FORCE (c : Nat) : Fld := ⟨Reg.CAP_CTRL c, 2, 1⟩
abbrev CAP_CTRL_DISARM (c : Nat) : Fld := ⟨Reg.CAP_CTRL c, 1, 1⟩
abbrev CAP_CTRL_ARM (c : Nat) : Fld := ⟨Reg.CAP_CTRL c, 0, 1⟩
abbrev CAP_STATUS_REFUSE (c : Nat) : Fld := ⟨Reg.CAP_STATUS c, 8, 8⟩
abbrev CAP_STATUS_LAST_BUF (c : Nat) : Fld := ⟨Reg.CAP_STATUS c, 6, 1⟩
abbrev CAP_STATUS_HELD (c : Nat) : Fld := ⟨Reg.CAP_STATUS c, 4, 2⟩
abbrev CAP_STATUS_DONE (c : Nat) : Fld := ⟨Reg.CAP_STATUS c, 2, 1⟩
abbrev CAP_STATUS_STATE (c : Nat) : Fld := ⟨Reg.CAP_STATUS c, 0, 2⟩
abbrev CAP_PREV_PRE_VALID (c : Nat) : Fld := ⟨Reg.CAP_PREV c, 0, 24⟩
abbrev TRG_CFG_EN (t : Nat) : Fld := ⟨Reg.TRG_CFG t, 31, 1⟩
abbrev TRG_CFG_KIND (t : Nat) : Fld := ⟨Reg.TRG_CFG t, 28, 3⟩
abbrev TRG_CFG_SUB (t : Nat) : Fld := ⟨Reg.TRG_CFG t, 26, 2⟩
abbrev TRG_CFG_SIG (t : Nat) : Fld := ⟨Reg.TRG_CFG t, 0, 12⟩
abbrev GOLD_ADDR_LO_ADDR (g : Nat) : Fld := ⟨Reg.GOLD_ADDR_LO g, 6, 26⟩
abbrev GOLD_ADDR_HI_ADDR (g : Nat) : Fld := ⟨Reg.GOLD_ADDR_HI g, 0, 8⟩
abbrev GOLD_N_N (g : Nat) : Fld := ⟨Reg.GOLD_N g, 0, 17⟩
abbrev GOLD_CTRL_IN_USE (g : Nat) : Fld := ⟨Reg.GOLD_CTRL g, 1, 1⟩
abbrev GOLD_CTRL_READY (g : Nat) : Fld := ⟨Reg.GOLD_CTRL g, 0, 1⟩

/-! ## Fields of RMV (17_data_movement_and_integrity.md) -/

abbrev RMV_SRC_LO_ADDR (c : Nat) : Fld := ⟨Reg.RMV_SRC_LO c, 3, 29⟩
abbrev RMV_SRC_HI_ADDR (c : Nat) : Fld := ⟨Reg.RMV_SRC_HI c, 0, 8⟩
abbrev RMV_DST_LO_ADDR (c : Nat) : Fld := ⟨Reg.RMV_DST_LO c, 3, 29⟩
abbrev RMV_DST_HI_ADDR (c : Nat) : Fld := ⟨Reg.RMV_DST_HI c, 0, 8⟩
abbrev RMV_S_LINE_LINE (c : Nat) : Fld := ⟨Reg.RMV_S_LINE c, 0, 24⟩
abbrev RMV_S_LINES_LINES (c : Nat) : Fld := ⟨Reg.RMV_S_LINES c, 0, 24⟩
abbrev RMV_D_LINE_LINE (c : Nat) : Fld := ⟨Reg.RMV_D_LINE c, 0, 24⟩
abbrev RMV_D_LINES_LINES (c : Nat) : Fld := ⟨Reg.RMV_D_LINES c, 0, 24⟩
abbrev RMV_CTRL_RETRY (c : Nat) : Fld := ⟨Reg.RMV_CTRL c, 8, 3⟩
abbrev RMV_CTRL_FULL_IE (c : Nat) : Fld := ⟨Reg.RMV_CTRL c, 6, 1⟩
abbrev RMV_CTRL_HALF_IE (c : Nat) : Fld := ⟨Reg.RMV_CTRL c, 5, 1⟩
abbrev RMV_CTRL_CIRC (c : Nat) : Fld := ⟨Reg.RMV_CTRL c, 4, 1⟩
abbrev RMV_CTRL_RESUME (c : Nat) : Fld := ⟨Reg.RMV_CTRL c, 3, 1⟩
abbrev RMV_CTRL_ABORT (c : Nat) : Fld := ⟨Reg.RMV_CTRL c, 1, 1⟩
abbrev RMV_CTRL_GO (c : Nat) : Fld := ⟨Reg.RMV_CTRL c, 0, 1⟩
abbrev RMV_STATUS_REFUSE (c : Nat) : Fld := ⟨Reg.RMV_STATUS c, 12, 4⟩
abbrev RMV_STATUS_HEALTH (c : Nat) : Fld := ⟨Reg.RMV_STATUS c, 10, 2⟩
abbrev RMV_STATUS_OVR (c : Nat) : Fld := ⟨Reg.RMV_STATUS c, 9, 1⟩
abbrev RMV_STATUS_FULL (c : Nat) : Fld := ⟨Reg.RMV_STATUS c, 8, 1⟩
abbrev RMV_STATUS_HALF (c : Nat) : Fld := ⟨Reg.RMV_STATUS c, 7, 1⟩
abbrev RMV_STATUS_CAUSE (c : Nat) : Fld := ⟨Reg.RMV_STATUS c, 4, 3⟩
abbrev RMV_STATUS_STATE (c : Nat) : Fld := ⟨Reg.RMV_STATUS c, 0, 2⟩

/-! ## Fields of AFE (05_analogue_acquisition.md) -/

abbrev AFE_READMIT_TDAC : Fld := ⟨Reg.AFE_READMIT, 8, 1⟩
abbrev AFE_READMIT_INDEX : Fld := ⟨Reg.AFE_READMIT, 0, 5⟩
abbrev AFE_CAL_CTRL_RANGE : Fld := ⟨Reg.AFE_CAL_CTRL, 16, 2⟩
abbrev AFE_CAL_CTRL_CH : Fld := ⟨Reg.AFE_CAL_CTRL, 8, 8⟩
abbrev AFE_CAL_CTRL_CMD : Fld := ⟨Reg.AFE_CAL_CTRL, 0, 3⟩
abbrev AFE_CAL_N_N : Fld := ⟨Reg.AFE_CAL_N, 0, 16⟩
abbrev AFE_CAL_STATUS_REFUSE : Fld := ⟨Reg.AFE_CAL_STATUS, 8, 8⟩
abbrev AFE_CAL_STATUS_HAVE_HI : Fld := ⟨Reg.AFE_CAL_STATUS, 4, 1⟩
abbrev AFE_CAL_STATUS_HAVE_LO : Fld := ⟨Reg.AFE_CAL_STATUS, 3, 1⟩
abbrev AFE_CAL_STATUS_STATE : Fld := ⟨Reg.AFE_CAL_STATUS, 0, 3⟩
abbrev AFE_ADC_STATUS_OVR (s : Nat) : Fld := ⟨Reg.AFE_ADC_STATUS s, 8, 8⟩
abbrev AFE_ADC_STATUS_HEALTH (s : Nat) : Fld := ⟨Reg.AFE_ADC_STATUS s, 4, 2⟩
abbrev AFE_ADC_STATUS_BUSY (s : Nat) : Fld := ⟨Reg.AFE_ADC_STATUS s, 0, 1⟩
abbrev AFE_ADC_CHSEL_ACTIVE (s : Nat) : Fld := ⟨Reg.AFE_ADC_CHSEL s, 31, 1⟩
abbrev AFE_ADC_CHSEL_ENTRY (s : Nat) : Fld := ⟨Reg.AFE_ADC_CHSEL s, 10, 10⟩
abbrev AFE_ADC_CHSEL_RANGE (s : Nat) : Fld := ⟨Reg.AFE_ADC_CHSEL s, 5, 2⟩
abbrev AFE_ADC_CHSEL_KIND (s : Nat) : Fld := ⟨Reg.AFE_ADC_CHSEL s, 3, 2⟩
abbrev AFE_ADC_CHSEL_CH (s : Nat) : Fld := ⟨Reg.AFE_ADC_CHSEL s, 0, 3⟩
abbrev AFE_PAIR_CFG_PERSIST (p : Nat) : Fld := ⟨Reg.AFE_PAIR_CFG p, 20, 4⟩
abbrev AFE_PAIR_CFG_TOL_UV (p : Nat) : Fld := ⟨Reg.AFE_PAIR_CFG p, 0, 20⟩
abbrev AFE_PAIR_STATUS_ARB_LEVEL (p : Nat) : Fld := ⟨Reg.AFE_PAIR_STATUS p, 12, 2⟩
abbrev AFE_PAIR_STATUS_MISMATCH (p : Nat) : Fld := ⟨Reg.AFE_PAIR_STATUS p, 8, 4⟩
abbrev AFE_PAIR_STATUS_TDAC_HEALTH (p : Nat) : Fld := ⟨Reg.AFE_PAIR_STATUS p, 4, 2⟩
abbrev AFE_PAIR_STATUS_STATE (p : Nat) : Fld := ⟨Reg.AFE_PAIR_STATUS p, 0, 3⟩
abbrev AFE_TDAC_CMD_GO (p : Nat) : Fld := ⟨Reg.AFE_TDAC_CMD p, 31, 1⟩
abbrev AFE_TDAC_CMD_CODE (p : Nat) : Fld := ⟨Reg.AFE_TDAC_CMD p, 16, 12⟩
abbrev AFE_TDAC_CMD_MODE (p : Nat) : Fld := ⟨Reg.AFE_TDAC_CMD p, 4, 2⟩
abbrev AFE_TDAC_CMD_CONV (p : Nat) : Fld := ⟨Reg.AFE_TDAC_CMD p, 3, 1⟩
abbrev AFE_TDAC_CMD_CH (p : Nat) : Fld := ⟨Reg.AFE_TDAC_CMD p, 0, 3⟩
abbrev AFE_TDAC_RES_DONE (p : Nat) : Fld := ⟨Reg.AFE_TDAC_RES p, 31, 1⟩
abbrev AFE_TDAC_RES_PASS (p : Nat) : Fld := ⟨Reg.AFE_TDAC_RES p, 30, 1⟩
abbrev AFE_TDAC_RES_REFUSED (p : Nat) : Fld := ⟨Reg.AFE_TDAC_RES p, 29, 1⟩
abbrev AFE_CH_CFG_OW_CNT (i : Nat) : Fld := ⟨Reg.AFE_CH_CFG i, 4, 4⟩
abbrev AFE_CH_CFG_SHUNT (i : Nat) : Fld := ⟨Reg.AFE_CH_CFG i, 0, 1⟩

/-! ## Fields of CLO (11_field_outputs.md) -/

abbrev CLO_READMIT_INDEX : Fld := ⟨Reg.CLO_READMIT, 0, 4⟩
abbrev CLO_CLR_CLR : Fld := ⟨Reg.CLO_CLR, 0, 16⟩
abbrev CLO_FLT_DONE : Fld := ⟨Reg.CLO_FLT, 16, 16⟩
abbrev CLO_FLT_FLT : Fld := ⟨Reg.CLO_FLT, 0, 16⟩
abbrev CLO_IRQ_EN_EN : Fld := ⟨Reg.CLO_IRQ_EN, 0, 2⟩
abbrev CLO_CFG_EN (n : Nat) : Fld := ⟨Reg.CLO_CFG n, 31, 1⟩
abbrev CLO_CFG_MODE (n : Nat) : Fld := ⟨Reg.CLO_CFG n, 30, 1⟩
abbrev CLO_CFG_NE43_EN (n : Nat) : Fld := ⟨Reg.CLO_CFG n, 29, 1⟩
abbrev CLO_CFG_ALARM_DIR (n : Nat) : Fld := ⟨Reg.CLO_CFG n, 27, 2⟩
abbrev CLO_CFG_STOP (n : Nat) : Fld := ⟨Reg.CLO_CFG n, 25, 2⟩
abbrev CLO_CFG_ALARM_ST1 (n : Nat) : Fld := ⟨Reg.CLO_CFG n, 24, 1⟩
abbrev CLO_CFG_TMO (n : Nat) : Fld := ⟨Reg.CLO_CFG n, 0, 16⟩
abbrev CLO_SRC_CREW (n : Nat) : Fld := ⟨Reg.CLO_SRC n, 12, 3⟩
abbrev CLO_SRC_SIG (n : Nat) : Fld := ⟨Reg.CLO_SRC n, 0, 12⟩
abbrev CLO_STATUS_HEALTH (n : Nat) : Fld := ⟨Reg.CLO_STATUS n, 12, 2⟩
abbrev CLO_STATUS_DIR_EFF (n : Nat) : Fld := ⟨Reg.CLO_STATUS n, 11, 1⟩
abbrev CLO_STATUS_ALARM (n : Nat) : Fld := ⟨Reg.CLO_STATUS n, 10, 1⟩
abbrev CLO_STATUS_STOPPED (n : Nat) : Fld := ⟨Reg.CLO_STATUS n, 9, 1⟩
abbrev CLO_STATUS_TSD (n : Nat) : Fld := ⟨Reg.CLO_STATUS n, 8, 1⟩
abbrev CLO_STATUS_ALARM_NR (n : Nat) : Fld := ⟨Reg.CLO_STATUS n, 7, 1⟩
abbrev CLO_STATUS_LOOP_LOW (n : Nat) : Fld := ⟨Reg.CLO_STATUS n, 6, 1⟩
abbrev CLO_STATUS_COMPLIANCE (n : Nat) : Fld := ⟨Reg.CLO_STATUS n, 5, 1⟩
abbrev CLO_STATUS_SAT_LO (n : Nat) : Fld := ⟨Reg.CLO_STATUS n, 4, 1⟩
abbrev CLO_STATUS_SAT_HI (n : Nat) : Fld := ⟨Reg.CLO_STATUS n, 3, 1⟩
abbrev CLO_STATUS_ENABLED (n : Nat) : Fld := ⟨Reg.CLO_STATUS n, 0, 1⟩
abbrev CLO_CODE_CODE (n : Nat) : Fld := ⟨Reg.CLO_CODE n, 0, 16⟩
abbrev HART_CFG_EN (n : Nat) : Fld := ⟨Reg.HART_CFG n, 31, 1⟩
abbrev HART_CFG_RETRIES (n : Nat) : Fld := ⟨Reg.HART_CFG n, 8, 2⟩
abbrev HART_CFG_PREAMBLE (n : Nat) : Fld := ⟨Reg.HART_CFG n, 0, 5⟩
abbrev HART_CMD_GO (n : Nat) : Fld := ⟨Reg.HART_CMD n, 0, 1⟩
abbrev HART_RES_BUSY (n : Nat) : Fld := ⟨Reg.HART_RES n, 31, 1⟩
abbrev HART_RES_BURST_OVR (n : Nat) : Fld := ⟨Reg.HART_RES n, 8, 1⟩
abbrev HART_RES_BURST (n : Nat) : Fld := ⟨Reg.HART_RES n, 7, 1⟩
abbrev HART_RES_RESULT (n : Nat) : Fld := ⟨Reg.HART_RES n, 0, 2⟩

/-! ## Fields of VDR (11_field_outputs.md) -/

abbrev VDR_READMIT_INDEX : Fld := ⟨Reg.VDR_READMIT, 0, 6⟩
abbrev VDR_IRQ_EN_EN : Fld := ⟨Reg.VDR_IRQ_EN, 0, 2⟩
abbrev VDR_GRP_CHG : Fld := ⟨Reg.VDR_GRP, 4, 4⟩
abbrev VDR_GRP_GRP_OFF : Fld := ⟨Reg.VDR_GRP, 0, 4⟩
abbrev VDR_CFG_MODE (n : Nat) : Fld := ⟨Reg.VDR_CFG n, 30, 2⟩
abbrev VDR_CFG_RETRY_MS (n : Nat) : Fld := ⟨Reg.VDR_CFG n, 20, 10⟩
abbrev VDR_CFG_DUTY (n : Nat) : Fld := ⟨Reg.VDR_CFG n, 9, 11⟩
abbrev VDR_HEAT_HIT (n : Nat) : Fld := ⟨Reg.VDR_HEAT n, 16, 14⟩
abbrev VDR_HEAT_HCRS (n : Nat) : Fld := ⟨Reg.VDR_HEAT n, 14, 2⟩
abbrev VDR_HEAT_CREW (n : Nat) : Fld := ⟨Reg.VDR_HEAT n, 11, 3⟩
abbrev VDR_HEAT_STOP (n : Nat) : Fld := ⟨Reg.VDR_HEAT n, 10, 1⟩
abbrev VDR_STATUS_SIG (n : Nat) : Fld := ⟨Reg.VDR_STATUS n, 20, 12⟩
abbrev VDR_STATUS_TMO (n : Nat) : Fld := ⟨Reg.VDR_STATUS n, 4, 16⟩
abbrev VDR_STATUS_HEALTH (n : Nat) : Fld := ⟨Reg.VDR_STATUS n, 2, 2⟩
abbrev VDR_STATUS_SAT_HI (n : Nat) : Fld := ⟨Reg.VDR_STATUS n, 1, 1⟩
abbrev VDR_STATUS_SAT_LO (n : Nat) : Fld := ⟨Reg.VDR_STATUS n, 0, 1⟩

/-! ## Fields of PVM (14_pavilion.md) -/

abbrev PVM_STATUS_PAR_DIFF : Fld := ⟨Reg.PVM_STATUS, 8, 1⟩
abbrev PVM_STATUS_SAFE_CAUSE : Fld := ⟨Reg.PVM_STATUS, 4, 4⟩
abbrev PVM_STATUS_COVER_OPEN : Fld := ⟨Reg.PVM_STATUS, 3, 1⟩
abbrev PVM_STATUS_OE : Fld := ⟨Reg.PVM_STATUS, 2, 1⟩
abbrev PVM_STATUS_STATE : Fld := ⟨Reg.PVM_STATUS, 0, 2⟩
abbrev PVM_SWITCH_SW : Fld := ⟨Reg.PVM_SWITCH, 0, 24⟩
abbrev PVM_IRQ_FLAGS : Fld := ⟨Reg.PVM_IRQ, 0, 7⟩
abbrev PVM_IRQ_EN_FLAGS : Fld := ⟨Reg.PVM_IRQ_EN, 0, 7⟩
abbrev PVM_FUNC_LATCH : Fld := ⟨Reg.PVM_FUNC, 4, 4⟩
abbrev PVM_FUNC_OK : Fld := ⟨Reg.PVM_FUNC, 0, 4⟩
abbrev PVM_SIN_FAULT : Fld := ⟨Reg.PVM_SIN, 16, 16⟩
abbrev PVM_SIN_VALUE : Fld := ⟨Reg.PVM_SIN, 0, 16⟩
abbrev PVM_GRP_FAULT : Fld := ⟨Reg.PVM_GRP, 4, 4⟩
abbrev PVM_GRP_ON : Fld := ⟨Reg.PVM_GRP, 0, 4⟩
abbrev PVM_BRK_OVERDUE : Fld := ⟨Reg.PVM_BRK, 24, 8⟩
abbrev PVM_BRK_DUE : Fld := ⟨Reg.PVM_BRK, 16, 8⟩
abbrev PVM_BRK_FAULT : Fld := ⟨Reg.PVM_BRK, 8, 8⟩
abbrev PVM_BRK_REL : Fld := ⟨Reg.PVM_BRK, 0, 8⟩
abbrev PVM_BT_RUNNING (b : Nat) : Fld := ⟨Reg.PVM_BT b, 31, 1⟩
abbrev PVM_BT_LAST (b : Nat) : Fld := ⟨Reg.PVM_BT b, 28, 3⟩
abbrev PVM_BT_LEFT_MIN (b : Nat) : Fld := ⟨Reg.PVM_BT b, 0, 16⟩
abbrev PVM_VARM_ARMED : Fld := ⟨Reg.PVM_VARM, 0, 5⟩
abbrev PVM_MB_GO_GO (m : Nat) : Fld := ⟨Reg.PVM_MB_GO m, 0, 1⟩
abbrev PVM_MB_STATUS_DONE (m : Nat) : Fld := ⟨Reg.PVM_MB_STATUS m, 1, 1⟩
abbrev PVM_MB_STATUS_BUSY (m : Nat) : Fld := ⟨Reg.PVM_MB_STATUS m, 0, 1⟩
abbrev PVM_CONN_SEL_K : Fld := ⟨Reg.PVM_CONN_SEL, 0, 10⟩

/-! ## Fields of CYC (16_cyclic_program.md) -/

abbrev CYC_CMD_CMD : Fld := ⟨Reg.CYC_CMD, 0, 3⟩
abbrev CYC_STATUS_K : Fld := ⟨Reg.CYC_STATUS, 8, 8⟩
abbrev CYC_STATUS_CAUSE : Fld := ⟨Reg.CYC_STATUS, 4, 4⟩
abbrev CYC_STATUS_RET_PARTIAL : Fld := ⟨Reg.CYC_STATUS, 3, 1⟩
abbrev CYC_STATUS_STAGED : Fld := ⟨Reg.CYC_STATUS, 2, 1⟩
abbrev CYC_STATUS_STATE : Fld := ⟨Reg.CYC_STATUS, 0, 2⟩
abbrev CYC_IRQ_FLAGS : Fld := ⟨Reg.CYC_IRQ, 1, 5⟩
abbrev CYC_IRQ_START : Fld := ⟨Reg.CYC_IRQ, 0, 1⟩
abbrev CYC_IRQ_EN_EN : Fld := ⟨Reg.CYC_IRQ_EN, 0, 6⟩
abbrev CYC_SRC_LO_ADDR : Fld := ⟨Reg.CYC_SRC_LO, 6, 26⟩
abbrev CYC_SRC_HI_ADDR : Fld := ⟨Reg.CYC_SRC_HI, 0, 8⟩
abbrev CYC_RES_BUSY : Fld := ⟨Reg.CYC_RES, 31, 1⟩
abbrev CYC_RES_CMD : Fld := ⟨Reg.CYC_RES, 8, 3⟩
abbrev CYC_RES_REFUSE : Fld := ⟨Reg.CYC_RES, 0, 8⟩
abbrev CYC_WIN_CYCLES : Fld := ⟨Reg.CYC_WIN, 0, 16⟩
abbrev CYC_OC_SRC_LO_ADDR : Fld := ⟨Reg.CYC_OC_SRC_LO, 4, 28⟩
abbrev CYC_OC_SRC_HI_ADDR : Fld := ⟨Reg.CYC_OC_SRC_HI, 0, 8⟩
abbrev CYC_OC_N_N : Fld := ⟨Reg.CYC_OC_N, 0, 13⟩
abbrev CYC_OC_RPT_LO_ADDR : Fld := ⟨Reg.CYC_OC_RPT_LO, 4, 28⟩
abbrev CYC_OC_RPT_HI_ADDR : Fld := ⟨Reg.CYC_OC_RPT_HI, 0, 8⟩
abbrev CYC_DONE_DONE : Fld := ⟨Reg.CYC_DONE, 0, 1⟩
abbrev CYC_FRC_ACK_ACK : Fld := ⟨Reg.CYC_FRC_ACK, 0, 1⟩
abbrev CYC_FRC0_ACTIVE (x : Nat) : Fld := ⟨Reg.CYC_FRC0 x, 31, 1⟩
abbrev CYC_FRC0_CLEARED (x : Nat) : Fld := ⟨Reg.CYC_FRC0 x, 30, 1⟩
abbrev CYC_FRC0_KIND (x : Nat) : Fld := ⟨Reg.CYC_FRC0 x, 28, 2⟩
abbrev CYC_FRC0_WIDTH (x : Nat) : Fld := ⟨Reg.CYC_FRC0 x, 24, 4⟩
abbrev CYC_FRC0_TARGET (x : Nat) : Fld := ⟨Reg.CYC_FRC0 x, 0, 24⟩

/-! ## Fields of PLK (15_redundant_pair.md) -/

abbrev PLK_CTRL_KEY : Fld := ⟨Reg.PLK_CTRL, 8, 8⟩
abbrev PLK_CTRL_CMD : Fld := ⟨Reg.PLK_CTRL, 0, 3⟩
abbrev PLK_CFG_PAIR_EN : Fld := ⟨Reg.PLK_CFG, 31, 1⟩
abbrev PLK_CFG_HB_PAIR : Fld := ⟨Reg.PLK_CFG, 16, 2⟩
abbrev PLK_CFG_LEASE_MS : Fld := ⟨Reg.PLK_CFG, 0, 8⟩
abbrev PLK_PARTNER_ID : Fld := ⟨Reg.PLK_PARTNER, 0, 16⟩
abbrev PLK_MIRROR_MDIV : Fld := ⟨Reg.PLK_MIRROR, 8, 8⟩
abbrev PLK_MIRROR_MREF : Fld := ⟨Reg.PLK_MIRROR, 0, 3⟩
abbrev PLK_STATUS_CMD_IGN : Fld := ⟨Reg.PLK_STATUS, 21, 1⟩
abbrev PLK_STATUS_HANDOVER : Fld := ⟨Reg.PLK_STATUS, 20, 1⟩
abbrev PLK_STATUS_LANE1_HEALTH : Fld := ⟨Reg.PLK_STATUS, 18, 2⟩
abbrev PLK_STATUS_LANE0_HEALTH : Fld := ⟨Reg.PLK_STATUS, 16, 2⟩
abbrev PLK_STATUS_IMG_MISMATCH : Fld := ⟨Reg.PLK_STATUS, 15, 1⟩
abbrev PLK_STATUS_PARTNER_ROLE : Fld := ⟨Reg.PLK_STATUS, 12, 3⟩
abbrev PLK_STATUS_PATHS : Fld := ⟨Reg.PLK_STATUS, 8, 4⟩
abbrev PLK_STATUS_IN_SYNC : Fld := ⟨Reg.PLK_STATUS, 5, 1⟩
abbrev PLK_STATUS_TOKEN : Fld := ⟨Reg.PLK_STATUS, 4, 1⟩
abbrev PLK_STATUS_ROLE : Fld := ⟨Reg.PLK_STATUS, 0, 3⟩
abbrev PLK_IRQ_FLAGS : Fld := ⟨Reg.PLK_IRQ, 0, 5⟩
abbrev PLK_IRQ_EN_EN : Fld := ⟨Reg.PLK_IRQ_EN, 0, 5⟩
abbrev PLK_RCP_MISMATCH_MISMATCH : Fld := ⟨Reg.PLK_RCP_MISMATCH, 0, 16⟩

/-! ## Fields of CAN_n (12_can.md) -/

abbrev CAN_CTRL_MODE (n : Nat) : Fld := ⟨Reg.CAN_CTRL n, 20, 2⟩
abbrev CAN_CTRL_BRS_EN (n : Nat) : Fld := ⟨Reg.CAN_CTRL n, 19, 1⟩
abbrev CAN_CTRL_FD_EN (n : Nat) : Fld := ⟨Reg.CAN_CTRL n, 18, 1⟩
abbrev CAN_CTRL_TDC_EN (n : Nat) : Fld := ⟨Reg.CAN_CTRL n, 17, 1⟩
abbrev CAN_CTRL_TS (n : Nat) : Fld := ⟨Reg.CAN_CTRL n, 16, 1⟩
abbrev CAN_CTRL_FIFO1_OVW (n : Nat) : Fld := ⟨Reg.CAN_CTRL n, 15, 1⟩
abbrev CAN_CTRL_FIFO0_OVW (n : Nat) : Fld := ⟨Reg.CAN_CTRL n, 14, 1⟩
abbrev CAN_CTRL_LOCK_OVF (n : Nat) : Fld := ⟨Reg.CAN_CTRL n, 12, 2⟩
abbrev CAN_CTRL_RTR_REJ (n : Nat) : Fld := ⟨Reg.CAN_CTRL n, 10, 1⟩
abbrev CAN_CTRL_NOMATCH (n : Nat) : Fld := ⟨Reg.CAN_CTRL n, 8, 2⟩
abbrev CAN_CTRL_CHAIN_EN (n : Nat) : Fld := ⟨Reg.CAN_CTRL n, 5, 1⟩
abbrev CAN_CTRL_DAR (n : Nat) : Fld := ⟨Reg.CAN_CTRL n, 4, 1⟩
abbrev CAN_CTRL_ABO (n : Nat) : Fld := ⟨Reg.CAN_CTRL n, 3, 1⟩
abbrev CAN_CTRL_AUTO_REC (n : Nat) : Fld := ⟨Reg.CAN_CTRL n, 2, 1⟩
abbrev CAN_CTRL_RECOVER (n : Nat) : Fld := ⟨Reg.CAN_CTRL n, 1, 1⟩
abbrev CAN_CTRL_EN (n : Nat) : Fld := ⟨Reg.CAN_CTRL n, 0, 1⟩
abbrev CAN_NBT_SJW_M1 (n : Nat) : Fld := ⟨Reg.CAN_NBT n, 24, 7⟩
abbrev CAN_NBT_SEG2_M1 (n : Nat) : Fld := ⟨Reg.CAN_NBT n, 17, 7⟩
abbrev CAN_NBT_SEG1_M1 (n : Nat) : Fld := ⟨Reg.CAN_NBT n, 9, 8⟩
abbrev CAN_NBT_BRP_M1 (n : Nat) : Fld := ⟨Reg.CAN_NBT n, 0, 9⟩
abbrev CAN_DBT_TDCO (n : Nat) : Fld := ⟨Reg.CAN_DBT n, 18, 7⟩
abbrev CAN_DBT_SJW_M1 (n : Nat) : Fld := ⟨Reg.CAN_DBT n, 14, 4⟩
abbrev CAN_DBT_SEG2_M1 (n : Nat) : Fld := ⟨Reg.CAN_DBT n, 10, 4⟩
abbrev CAN_DBT_SEG1_M1 (n : Nat) : Fld := ⟨Reg.CAN_DBT n, 5, 5⟩
abbrev CAN_DBT_BRP_M1 (n : Nat) : Fld := ⟨Reg.CAN_DBT n, 0, 5⟩
abbrev CAN_STATUS_TDCV (n : Nat) : Fld := ⟨Reg.CAN_STATUS n, 24, 7⟩
abbrev CAN_STATUS_HEALTH (n : Nat) : Fld := ⟨Reg.CAN_STATUS n, 20, 2⟩
abbrev CAN_STATUS_EW (n : Nat) : Fld := ⟨Reg.CAN_STATUS n, 18, 1⟩
abbrev CAN_STATUS_STATE (n : Nat) : Fld := ⟨Reg.CAN_STATUS n, 16, 2⟩
abbrev CAN_STATUS_RP (n : Nat) : Fld := ⟨Reg.CAN_STATUS n, 15, 1⟩
abbrev CAN_STATUS_REC (n : Nat) : Fld := ⟨Reg.CAN_STATUS n, 8, 7⟩
abbrev CAN_STATUS_TEC (n : Nat) : Fld := ⟨Reg.CAN_STATUS n, 0, 8⟩
abbrev CAN_IRQ_HEALTH (n : Nat) : Fld := ⟨Reg.CAN_IRQ n, 18, 1⟩
abbrev CAN_IRQ_TXREF (n : Nat) : Fld := ⟨Reg.CAN_IRQ n, 17, 1⟩
abbrev CAN_IRQ_TXJ_OVR (n : Nat) : Fld := ⟨Reg.CAN_IRQ n, 16, 1⟩
abbrev CAN_IRQ_ECC (n : Nat) : Fld := ⟨Reg.CAN_IRQ n, 15, 1⟩
abbrev CAN_IRQ_TAGERR (n : Nat) : Fld := ⟨Reg.CAN_IRQ n, 14, 1⟩
abbrev CAN_IRQ_SHORT (n : Nat) : Fld := ⟨Reg.CAN_IRQ n, 13, 1⟩
abbrev CAN_IRQ_RXF_OVR (n : Nat) : Fld := ⟨Reg.CAN_IRQ n, 11, 2⟩
abbrev CAN_IRQ_LOST (n : Nat) : Fld := ⟨Reg.CAN_IRQ n, 10, 1⟩
abbrev CAN_IRQ_RECOVERED (n : Nat) : Fld := ⟨Reg.CAN_IRQ n, 9, 1⟩
abbrev CAN_IRQ_BO (n : Nat) : Fld := ⟨Reg.CAN_IRQ n, 8, 1⟩
abbrev CAN_IRQ_EP (n : Nat) : Fld := ⟨Reg.CAN_IRQ n, 7, 1⟩
abbrev CAN_IRQ_EWC (n : Nat) : Fld := ⟨Reg.CAN_IRQ n, 6, 1⟩
abbrev CAN_IRQ_TXJ (n : Nat) : Fld := ⟨Reg.CAN_IRQ n, 5, 1⟩
abbrev CAN_IRQ_TXCANC (n : Nat) : Fld := ⟨Reg.CAN_IRQ n, 4, 1⟩
abbrev CAN_IRQ_TXDONE (n : Nat) : Fld := ⟨Reg.CAN_IRQ n, 3, 1⟩
abbrev CAN_IRQ_RXF (n : Nat) : Fld := ⟨Reg.CAN_IRQ n, 1, 2⟩
abbrev CAN_IRQ_RXB_NEW (n : Nat) : Fld := ⟨Reg.CAN_IRQ n, 0, 1⟩
abbrev CAN_IRQ_EN_EN (n : Nat) : Fld := ⟨Reg.CAN_IRQ_EN n, 0, 19⟩
abbrev CAN_READMIT_GO (n : Nat) : Fld := ⟨Reg.CAN_READMIT n, 0, 1⟩
abbrev RXF_STATUS_OVR (n s : Nat) : Fld := ⟨Reg.RXF_STATUS n s, 16, 16⟩
abbrev RXF_STATUS_FULL (n s : Nat) : Fld := ⟨Reg.RXF_STATUS n s, 15, 1⟩
abbrev RXF_STATUS_PUT (n s : Nat) : Fld := ⟨Reg.RXF_STATUS n s, 10, 5⟩
abbrev RXF_STATUS_GET (n s : Nat) : Fld := ⟨Reg.RXF_STATUS n s, 5, 5⟩
abbrev RXF_STATUS_FILL (n s : Nat) : Fld := ⟨Reg.RXF_STATUS n s, 0, 5⟩
abbrev RXF_ACK_INDEX (n s : Nat) : Fld := ⟨Reg.RXF_ACK n s, 0, 5⟩
abbrev TXC_STATUS_WR_IGN (n : Nat) : Fld := ⟨Reg.TXC_STATUS n, 16, 1⟩
abbrev TXC_STATUS_COUNT (n : Nat) : Fld := ⟨Reg.TXC_STATUS n, 10, 6⟩
abbrev TXC_STATUS_TAIL (n : Nat) : Fld := ⟨Reg.TXC_STATUS n, 5, 5⟩
abbrev TXC_STATUS_HEAD (n : Nat) : Fld := ⟨Reg.TXC_STATUS n, 0, 5⟩
abbrev TXC_APPEND_BUF (n : Nat) : Fld := ⟨Reg.TXC_APPEND n, 0, 5⟩
abbrev TXJ_STATUS_LOST (n : Nat) : Fld := ⟨Reg.TXJ_STATUS n, 16, 16⟩
abbrev TXJ_STATUS_FULL (n : Nat) : Fld := ⟨Reg.TXJ_STATUS n, 15, 1⟩
abbrev TXJ_STATUS_PUT (n : Nat) : Fld := ⟨Reg.TXJ_STATUS n, 10, 5⟩
abbrev TXJ_STATUS_GET (n : Nat) : Fld := ⟨Reg.TXJ_STATUS n, 5, 5⟩
abbrev TXJ_STATUS_FILL (n : Nat) : Fld := ⟨Reg.TXJ_STATUS n, 0, 5⟩
abbrev TXJ_ACK_INDEX (n : Nat) : Fld := ⟨Reg.TXJ_ACK n, 0, 5⟩

/-! ## Fields of ETH_n (13_ethernet_and_host.md) -/

abbrev ETH_CTRL_PROTECT (n : Nat) : Fld := ⟨Reg.ETH_CTRL n, 2, 1⟩
abbrev ETH_CTRL_QBV_EN (n : Nat) : Fld := ⟨Reg.ETH_CTRL n, 1, 1⟩
abbrev ETH_CTRL_EN (n : Nat) : Fld := ⟨Reg.ETH_CTRL n, 0, 1⟩
abbrev ETH_STATUS_HEALTH (n : Nat) : Fld := ⟨Reg.ETH_STATUS n, 4, 2⟩
abbrev ETH_STATUS_LAN_DOWN (n : Nat) : Fld := ⟨Reg.ETH_STATUS n, 3, 1⟩
abbrev ETH_STATUS_LINK (n : Nat) : Fld := ⟨Reg.ETH_STATUS n, 0, 1⟩
abbrev ETH_IRQ_GRP (n : Nat) : Fld := ⟨Reg.ETH_IRQ n, 0, 4⟩
abbrev ETH_IRQ_EN_GRP (n : Nat) : Fld := ⟨Reg.ETH_IRQ_EN n, 0, 4⟩
abbrev ETH_PRP_LIFE_MS (n : Nat) : Fld := ⟨Reg.ETH_PRP n, 16, 16⟩
abbrev ETH_PRP_LAN_TMO_MS (n : Nat) : Fld := ⟨Reg.ETH_PRP n, 0, 16⟩
abbrev ETH_DD_DD_AGE_MS (n : Nat) : Fld := ⟨Reg.ETH_DD n, 0, 10⟩
abbrev ETH_PTP_ROLE (n : Nat) : Fld := ⟨Reg.ETH_PTP n, 0, 2⟩
abbrev ETH_TXTS_VALID (n : Nat) : Fld := ⟨Reg.ETH_TXTS n, 31, 1⟩
abbrev ETH_TXTS_MSGTYPE (n : Nat) : Fld := ⟨Reg.ETH_TXTS n, 16, 4⟩
abbrev ETH_TXTS_SEQID (n : Nat) : Fld := ⟨Reg.ETH_TXTS n, 0, 16⟩
abbrev ETH_QBV_NENT_NENT (n : Nat) : Fld := ⟨Reg.ETH_QBV_NENT n, 0, 8⟩
abbrev ETH_FRX_STATUS_FULL (n : Nat) : Fld := ⟨Reg.ETH_FRX_STATUS n, 0, 16⟩
abbrev ETH_FRX_ACK_INDEX (n : Nat) : Fld := ⟨Reg.ETH_FRX_ACK n, 0, 4⟩
abbrev ETH_FTX_GO_GO (n : Nat) : Fld := ⟨Reg.ETH_FTX_GO n, 0, 8⟩
abbrev ETH_READMIT_GO (n : Nat) : Fld := ⟨Reg.ETH_READMIT n, 0, 1⟩
abbrev ETH_SA_CFG_ACTIVE (n k : Nat) : Fld := ⟨Reg.ETH_SA_CFG n k, 31, 1⟩
abbrev ETH_SA_CFG_KEY_HANDLE (n k : Nat) : Fld := ⟨Reg.ETH_SA_CFG n k, 0, 16⟩

/-! ## Fields of ETH_4 (13_ethernet_and_host.md) -/

abbrev ETH_HOST_RRA_PORT_VALUE : Fld := ⟨Reg.ETH_HOST_RRA_PORT, 0, 16⟩
abbrev ETH_HOST_REC_PORT_VALUE : Fld := ⟨Reg.ETH_HOST_REC_PORT, 0, 16⟩
abbrev ETH_HOST_REC_DST_PORT_VALUE : Fld := ⟨Reg.ETH_HOST_REC_DST_PORT, 0, 16⟩
abbrev ETH_HOST_REC_DST_MAC_HI_VALUE : Fld := ⟨Reg.ETH_HOST_REC_DST_MAC_HI, 0, 16⟩
abbrev ETH_HOST_REC_RATE_VALUE : Fld := ⟨Reg.ETH_HOST_REC_RATE, 0, 14⟩

/-! ## Fields of COX (04_cox.md) -/

abbrev COX_ID_NCTX (n : Nat) : Fld := ⟨Reg.COX_ID n, 16, 16⟩
abbrev COX_ID_PHYS (n : Nat) : Fld := ⟨Reg.COX_ID n, 4, 4⟩
abbrev COX_ID_LOGICAL (n : Nat) : Fld := ⟨Reg.COX_ID n, 0, 4⟩
abbrev COX_STATUS_RETRYING (n : Nat) : Fld := ⟨Reg.COX_STATUS n, 4, 1⟩
abbrev COX_STATUS_LATE (n : Nat) : Fld := ⟨Reg.COX_STATUS n, 3, 1⟩
abbrev COX_STATUS_DROPPED (n : Nat) : Fld := ⟨Reg.COX_STATUS n, 2, 1⟩
abbrev COX_STATUS_WAIT_EXC (n : Nat) : Fld := ⟨Reg.COX_STATUS n, 1, 1⟩
abbrev COX_STATUS_WIN_DONE (n : Nat) : Fld := ⟨Reg.COX_STATUS n, 0, 1⟩
abbrev COX_IRQ_EN_DP_EN (n : Nat) : Fld := ⟨Reg.COX_IRQ_EN n, 2, 8⟩
abbrev COX_IRQ_EN_ANOM_EN (n : Nat) : Fld := ⟨Reg.COX_IRQ_EN n, 1, 1⟩
abbrev COX_IRQ_EN_WIN_EN (n : Nat) : Fld := ⟨Reg.COX_IRQ_EN n, 0, 1⟩
abbrev COX_WIN_STROKES (n : Nat) : Fld := ⟨Reg.COX_WIN n, 0, 16⟩
abbrev COX_CLR_TOTALS (n : Nat) : Fld := ⟨Reg.COX_CLR n, 2, 1⟩
abbrev COX_CLR_CTX_COUNTS (n : Nat) : Fld := ⟨Reg.COX_CLR n, 1, 1⟩
abbrev COX_CLR_DEPTH_MAX (n : Nat) : Fld := ⟨Reg.COX_CLR n, 0, 1⟩
abbrev COX_DEPTH_MAX (n p : Nat) : Fld := ⟨Reg.COX_DEPTH n p, 16, 16⟩
abbrev COX_DEPTH_CUR (n p : Nat) : Fld := ⟨Reg.COX_DEPTH n p, 0, 16⟩
abbrev COX_BUSY_FRAC (n t : Nat) : Fld := ⟨Reg.COX_BUSY n t, 0, 16⟩
abbrev COX_DP_STATUS_COUNT (n c : Nat) : Fld := ⟨Reg.COX_DP_STATUS n c, 0, 5⟩
abbrev COX_DP_POP_VIEW (n c : Nat) : Fld := ⟨Reg.COX_DP_POP n c, 31, 1⟩
abbrev COX_DP_POP_NOPS (n c : Nat) : Fld := ⟨Reg.COX_DP_POP n c, 9, 3⟩
abbrev COX_DP_POP_CTX (n c : Nat) : Fld := ⟨Reg.COX_DP_POP n c, 0, 9⟩
abbrev COX_DP_RST_ST (n c i : Nat) : Fld := ⟨Reg.COX_DP_RST n c i, 0, 4⟩
abbrev COX_DP_DONE_NRES (n c : Nat) : Fld := ⟨Reg.COX_DP_DONE n c, 0, 3⟩
abbrev COX_CTX_CFG_VALID (n x : Nat) : Fld := ⟨Reg.COX_CTX_CFG n x, 31, 1⟩
abbrev COX_CTX_CFG_TARGET (n x : Nat) : Fld := ⟨Reg.COX_CTX_CFG n x, 27, 4⟩
abbrev COX_CTX_CFG_PRIO (n x : Nat) : Fld := ⟨Reg.COX_CTX_CFG n x, 24, 3⟩
abbrev COX_CTX_CFG_NOPS (n x : Nat) : Fld := ⟨Reg.COX_CTX_CFG n x, 22, 2⟩
abbrev COX_CTX_CFG_NRES (n x : Nat) : Fld := ⟨Reg.COX_CTX_CFG n x, 20, 2⟩
abbrev COX_CTX_CFG_STALE_POL (n x : Nat) : Fld := ⟨Reg.COX_CTX_CFG n x, 18, 2⟩
abbrev COX_CTX_CFG_OVR_POL (n x : Nat) : Fld := ⟨Reg.COX_CTX_CFG n x, 17, 1⟩
abbrev COX_CTX_CFG_KINDS (n x : Nat) : Fld := ⟨Reg.COX_CTX_CFG n x, 8, 8⟩
abbrev COX_CTX_CFG_MAXAGE (n x : Nat) : Fld := ⟨Reg.COX_CTX_CFG n x, 0, 8⟩
abbrev COX_CTX_DL_DL_STROKE (n x : Nat) : Fld := ⟨Reg.COX_CTX_DL n x, 8, 2⟩
abbrev COX_CTX_DL_DL_ENTRY (n x : Nat) : Fld := ⟨Reg.COX_CTX_DL n x, 0, 6⟩
abbrev COX_CTX_MISC_SAT (n x : Nat) : Fld := ⟨Reg.COX_CTX_MISC n x, 31, 1⟩
abbrev COX_CTX_MISC_DROP (n x : Nat) : Fld := ⟨Reg.COX_CTX_MISC n x, 8, 8⟩
abbrev COX_CTX_MISC_STALE (n x : Nat) : Fld := ⟨Reg.COX_CTX_MISC n x, 0, 8⟩

/-! ## Fields of LPE (06_loop_law.md) -/

abbrev LPE_STATUS_PEND (n : Nat) : Fld := ⟨Reg.LPE_STATUS n, 8, 6⟩
abbrev LPE_STATUS_BUMP (n : Nat) : Fld := ⟨Reg.LPE_STATUS n, 3, 1⟩
abbrev LPE_STATUS_FB_ENTER (n : Nat) : Fld := ⟨Reg.LPE_STATUS n, 2, 1⟩
abbrev LPE_STATUS_NUMERIC (n : Nat) : Fld := ⟨Reg.LPE_STATUS n, 1, 1⟩
abbrev LPE_STATUS_REFUSED (n : Nat) : Fld := ⟨Reg.LPE_STATUS n, 0, 1⟩
abbrev LPE_IRQ_EN_EN (n : Nat) : Fld := ⟨Reg.LPE_IRQ_EN n, 0, 4⟩
abbrev LPE_PC_LOOP_APPLY (n : Nat) : Fld := ⟨Reg.LPE_PC_LOOP n, 8, 1⟩
abbrev LPE_PC_LOOP_LOOP (n : Nat) : Fld := ⟨Reg.LPE_PC_LOOP n, 0, 7⟩
abbrev LPE_PC_MASK_MASK (n : Nat) : Fld := ⟨Reg.LPE_PC_MASK n, 0, 13⟩
abbrev LPE_PC_CMD_CLEAR (n : Nat) : Fld := ⟨Reg.LPE_PC_CMD n, 1, 1⟩
abbrev LPE_PC_CMD_COMMIT (n : Nat) : Fld := ⟨Reg.LPE_PC_CMD n, 0, 1⟩
abbrev LPE_PC_RES_WORD (n : Nat) : Fld := ⟨Reg.LPE_PC_RES n, 16, 4⟩
abbrev LPE_PC_RES_REFUSE (n : Nat) : Fld := ⟨Reg.LPE_PC_RES n, 8, 8⟩
abbrev LPE_PC_RES_LOOP (n : Nat) : Fld := ⟨Reg.LPE_PC_RES n, 0, 7⟩
abbrev LPE_MODE_FB_CLR (n x : Nat) : Fld := ⟨Reg.LPE_MODE n x, 8, 1⟩
abbrev LPE_MODE_FB_PEND (n x : Nat) : Fld := ⟨Reg.LPE_MODE n x, 7, 1⟩
abbrev LPE_MODE_ACT (n x : Nat) : Fld := ⟨Reg.LPE_MODE n x, 4, 3⟩
abbrev LPE_MODE_REQ (n x : Nat) : Fld := ⟨Reg.LPE_MODE n x, 0, 3⟩
abbrev LPE_LSTAT_ST (n x : Nat) : Fld := ⟨Reg.LPE_LSTAT n x, 8, 4⟩
abbrev LPE_LSTAT_BUMP (n x : Nat) : Fld := ⟨Reg.LPE_LSTAT n x, 7, 1⟩
abbrev LPE_LSTAT_NUMERIC (n x : Nat) : Fld := ⟨Reg.LPE_LSTAT n x, 6, 1⟩
abbrev LPE_LSTAT_FALLBACK (n x : Nat) : Fld := ⟨Reg.LPE_LSTAT n x, 5, 1⟩
abbrev LPE_LSTAT_SATFB_LO (n x : Nat) : Fld := ⟨Reg.LPE_LSTAT n x, 4, 1⟩
abbrev LPE_LSTAT_SATFB_HI (n x : Nat) : Fld := ⟨Reg.LPE_LSTAT n x, 3, 1⟩
abbrev LPE_LSTAT_LIM_LO (n x : Nat) : Fld := ⟨Reg.LPE_LSTAT n x, 2, 1⟩
abbrev LPE_LSTAT_LIM_HI (n x : Nat) : Fld := ⟨Reg.LPE_LSTAT n x, 1, 1⟩
abbrev LPE_LSTAT_VALID (n x : Nat) : Fld := ⟨Reg.LPE_LSTAT n x, 0, 1⟩
abbrev LPE_REP_IDX (n x : Nat) : Fld := ⟨Reg.LPE_REP n x, 16, 12⟩
abbrev LPE_REP_RESET_PEND (n x : Nat) : Fld := ⟨Reg.LPE_REP n x, 4, 1⟩
abbrev LPE_REP_FROZEN (n x : Nat) : Fld := ⟨Reg.LPE_REP n x, 3, 1⟩
abbrev LPE_REP_REP_EN (n x : Nat) : Fld := ⟨Reg.LPE_REP n x, 2, 1⟩
abbrev LPE_REP_ACTION (n x : Nat) : Fld := ⟨Reg.LPE_REP n x, 0, 2⟩

/-! ## Fields of MOT (09_motion.md) -/

abbrev MOT_STATUS_FLAGS (n : Nat) : Fld := ⟨Reg.MOT_STATUS n, 0, 16⟩
abbrev MOT_IRQ_EN_EN (n : Nat) : Fld := ⟨Reg.MOT_IRQ_EN n, 0, 16⟩
abbrev AX_CMD_ARG (n j : Nat) : Fld := ⟨Reg.AX_CMD n j, 8, 8⟩
abbrev AX_CMD_CMD (n j : Nat) : Fld := ⟨Reg.AX_CMD n j, 0, 4⟩
abbrev AX_STATE_STAGE_HEALTH (n j : Nat) : Fld := ⟨Reg.AX_STATE n j, 28, 2⟩
abbrev AX_STATE_HALT_FAST (n j : Nat) : Fld := ⟨Reg.AX_STATE n j, 27, 1⟩
abbrev AX_STATE_STALL_OFF (n j : Nat) : Fld := ⟨Reg.AX_STATE n j, 26, 1⟩
abbrev AX_STATE_REFUSE (n j : Nat) : Fld := ⟨Reg.AX_STATE n j, 20, 6⟩
abbrev AX_STATE_FAULT (n j : Nat) : Fld := ⟨Reg.AX_STATE n j, 8, 8⟩
abbrev AX_STATE_RT_PEND (n j : Nat) : Fld := ⟨Reg.AX_STATE n j, 7, 1⟩
abbrev AX_STATE_LIMIT_DECEL (n j : Nat) : Fld := ⟨Reg.AX_STATE n j, 6, 1⟩
abbrev AX_STATE_LOST (n j : Nat) : Fld := ⟨Reg.AX_STATE n j, 5, 1⟩
abbrev AX_STATE_REFERENCED (n j : Nat) : Fld := ⟨Reg.AX_STATE n j, 4, 1⟩
abbrev AX_STATE_STATE (n j : Nat) : Fld := ⟨Reg.AX_STATE n j, 0, 3⟩
abbrev AX_MOVE_SEG (n j : Nat) : Fld := ⟨Reg.AX_MOVE n j, 8, 24⟩
abbrev AX_MOVE_TABLE (n j : Nat) : Fld := ⟨Reg.AX_MOVE n j, 0, 6⟩
abbrev AX_QUEUE_LAG_MAX (n j : Nat) : Fld := ⟨Reg.AX_QUEUE n j, 16, 16⟩
abbrev AX_QUEUE_HELD (n j : Nat) : Fld := ⟨Reg.AX_QUEUE n j, 8, 3⟩
abbrev AX_QUEUE_COUNT (n j : Nat) : Fld := ⟨Reg.AX_QUEUE n j, 0, 7⟩
abbrev AX_GEAR_MSW_HI_MSW (n j : Nat) : Fld := ⟨Reg.AX_GEAR_MSW_HI n j, 0, 16⟩
abbrev AX_GEAR_CFG_PEND (n j : Nat) : Fld := ⟨Reg.AX_GEAR_CFG n j, 4, 1⟩
abbrev AX_GEAR_CFG_ENC (n j : Nat) : Fld := ⟨Reg.AX_GEAR_CFG n j, 0, 4⟩
abbrev AX_CFG_EN (n j : Nat) : Fld := ⟨Reg.AX_CFG n j, 31, 1⟩
abbrev AX_CFG_STALL_EN (n j : Nat) : Fld := ⟨Reg.AX_CFG n j, 30, 1⟩
abbrev AX_CFG_BRAKE_BOUND (n j : Nat) : Fld := ⟨Reg.AX_CFG n j, 29, 1⟩
abbrev AX_CFG_UNREF_MOVE (n j : Nat) : Fld := ⟨Reg.AX_CFG n j, 28, 1⟩
abbrev AX_CFG_DIR_INV (n j : Nat) : Fld := ⟨Reg.AX_CFG n j, 27, 1⟩
abbrev AX_CFG_SLIM_EN (n j : Nat) : Fld := ⟨Reg.AX_CFG n j, 26, 1⟩
abbrev AX_CFG_FB_ENC (n j : Nat) : Fld := ⟨Reg.AX_CFG n j, 16, 4⟩
abbrev AX_CFG_LAG_MAX (n j : Nat) : Fld := ⟨Reg.AX_CFG n j, 8, 8⟩
abbrev AX_INPUTS_LEVELS (n j : Nat) : Fld := ⟨Reg.AX_INPUTS n j, 24, 3⟩
abbrev AX_INPUTS_LIM_NEG (n j : Nat) : Fld := ⟨Reg.AX_INPUTS n j, 16, 8⟩
abbrev AX_INPUTS_LIM_POS (n j : Nat) : Fld := ⟨Reg.AX_INPUTS n j, 8, 8⟩
abbrev AX_INPUTS_HOME (n j : Nat) : Fld := ⟨Reg.AX_INPUTS n j, 0, 8⟩
abbrev AX_STEP_T_DIR_SETUP (n j : Nat) : Fld := ⟨Reg.AX_STEP_T n j, 20, 10⟩
abbrev AX_STEP_T_PER_MIN (n j : Nat) : Fld := ⟨Reg.AX_STEP_T n j, 10, 10⟩
abbrev AX_STEP_T_PULSE_W (n j : Nat) : Fld := ⟨Reg.AX_STEP_T n j, 0, 10⟩
abbrev AX_RT_HOME_DIR (n j : Nat) : Fld := ⟨Reg.AX_RT n j, 16, 1⟩
abbrev AX_RT_RT_WAIT_US (n j : Nat) : Fld := ⟨Reg.AX_RT n j, 0, 16⟩
abbrev AX_STALL_CFG_N (n j : Nat) : Fld := ⟨Reg.AX_STALL_CFG n j, 16, 8⟩
abbrev AX_STALL_CFG_USTEP (n j : Nat) : Fld := ⟨Reg.AX_STALL_CFG n j, 0, 16⟩
abbrev AX_EVT_SIG_VALID (n j : Nat) : Fld := ⟨Reg.AX_EVT_SIG n j, 31, 1⟩
abbrev AX_EVT_SIG_SIG (n j : Nat) : Fld := ⟨Reg.AX_EVT_SIG n j, 0, 12⟩
abbrev MT_ADDR_LO_ADDR (n k : Nat) : Fld := ⟨Reg.MT_ADDR_LO n k, 5, 27⟩
abbrev MT_ADDR_HI_ADDR (n k : Nat) : Fld := ⟨Reg.MT_ADDR_HI n k, 0, 8⟩
abbrev MT_NSEG_NSEG (n k : Nat) : Fld := ⟨Reg.MT_NSEG n k, 0, 24⟩
abbrev MT_CTRL_AXIS (n k : Nat) : Fld := ⟨Reg.MT_CTRL n k, 2, 2⟩
abbrev MT_CTRL_BUSY (n k : Nat) : Fld := ⟨Reg.MT_CTRL n k, 1, 1⟩
abbrev MT_CTRL_READY (n k : Nat) : Fld := ⟨Reg.MT_CTRL n k, 0, 1⟩

/-! ## Fields of ACQ (05_analogue_acquisition.md) -/

abbrev ACQ_SRC_STREAMS (n : Nat) : Fld := ⟨Reg.ACQ_SRC n, 0, 20⟩

/-! ## Fields of CDM (17_data_movement_and_integrity.md) -/

abbrev CDM_STATUS_ACTIVE (n : Nat) : Fld := ⟨Reg.CDM_STATUS n, 16, 8⟩
abbrev CDM_STATUS_HALT (n : Nat) : Fld := ⟨Reg.CDM_STATUS n, 8, 8⟩
abbrev CDM_STATUS_DONE (n : Nat) : Fld := ⟨Reg.CDM_STATUS n, 0, 8⟩
abbrev CDM_READMIT_CH (n : Nat) : Fld := ⟨Reg.CDM_READMIT n, 0, 3⟩
abbrev CDM_CH_CFG_EN (n ch : Nat) : Fld := ⟨Reg.CDM_CH_CFG n ch, 31, 1⟩
abbrev CDM_CH_CFG_OWNER (n ch : Nat) : Fld := ⟨Reg.CDM_CH_CFG n ch, 29, 2⟩
abbrev CDM_CH_CFG_PRIO (n ch : Nat) : Fld := ⟨Reg.CDM_CH_CFG n ch, 27, 2⟩
abbrev CDM_CH_CFG_QUOTA (n ch : Nat) : Fld := ⟨Reg.CDM_CH_CFG n ch, 24, 3⟩
abbrev CDM_CH_CFG_AXIS (n ch : Nat) : Fld := ⟨Reg.CDM_CH_CFG n ch, 16, 2⟩
abbrev CDM_CH_CFG_CTX (n ch : Nat) : Fld := ⟨Reg.CDM_CH_CFG n ch, 0, 9⟩
abbrev CDM_CH_MODE_ESIZE (n ch : Nat) : Fld := ⟨Reg.CDM_CH_MODE n ch, 16, 2⟩
abbrev CDM_CH_MODE_BSWAP (n ch : Nat) : Fld := ⟨Reg.CDM_CH_MODE n ch, 15, 1⟩
abbrev CDM_CH_MODE_HSWAP (n ch : Nat) : Fld := ⟨Reg.CDM_CH_MODE n ch, 14, 1⟩
abbrev CDM_CH_MODE_RETRY (n ch : Nat) : Fld := ⟨Reg.CDM_CH_MODE n ch, 8, 3⟩
abbrev CDM_CH_MODE_IEN (n ch : Nat) : Fld := ⟨Reg.CDM_CH_MODE n ch, 0, 1⟩
abbrev CDM_CH_SRC_HI_ADDR (n ch : Nat) : Fld := ⟨Reg.CDM_CH_SRC_HI n ch, 0, 8⟩
abbrev CDM_CH_DST_HI_ADDR (n ch : Nat) : Fld := ⟨Reg.CDM_CH_DST_HI n ch, 0, 8⟩
abbrev CDM_CH_C0_C (n ch : Nat) : Fld := ⟨Reg.CDM_CH_C0 n ch, 0, 24⟩
abbrev CDM_CH_C1_C (n ch : Nat) : Fld := ⟨Reg.CDM_CH_C1 n ch, 0, 16⟩
abbrev CDM_CH_C2_C (n ch : Nat) : Fld := ⟨Reg.CDM_CH_C2 n ch, 0, 16⟩
abbrev CDM_CH_CTRL_RESUME (n ch : Nat) : Fld := ⟨Reg.CDM_CH_CTRL n ch, 2, 1⟩
abbrev CDM_CH_CTRL_ABORT (n ch : Nat) : Fld := ⟨Reg.CDM_CH_CTRL n ch, 1, 1⟩
abbrev CDM_CH_CTRL_GO (n ch : Nat) : Fld := ⟨Reg.CDM_CH_CTRL n ch, 0, 1⟩
abbrev CDM_CH_STATE_REFUSE (n ch : Nat) : Fld := ⟨Reg.CDM_CH_STATE n ch, 12, 4⟩
abbrev CDM_CH_STATE_HEALTH (n ch : Nat) : Fld := ⟨Reg.CDM_CH_STATE n ch, 10, 2⟩
abbrev CDM_CH_STATE_CAUSE (n ch : Nat) : Fld := ⟨Reg.CDM_CH_STATE n ch, 4, 3⟩
abbrev CDM_CH_STATE_STATE (n ch : Nat) : Fld := ⟨Reg.CDM_CH_STATE n ch, 0, 2⟩
abbrev CDM_CH_ERR_HI_ADDR (n ch : Nat) : Fld := ⟨Reg.CDM_CH_ERR_HI n ch, 0, 8⟩

/-! ## Fields of LSM (07_loop_integrity.md) -/

abbrev LSM_STATUS_CAUSE (n : Nat) : Fld := ⟨Reg.LSM_STATUS n, 12, 4⟩
abbrev LSM_STATUS_HEALTH (n : Nat) : Fld := ⟨Reg.LSM_STATUS n, 8, 2⟩
abbrev LSM_STATUS_STRANDED (n : Nat) : Fld := ⟨Reg.LSM_STATUS n, 7, 1⟩
abbrev LSM_STATUS_MIGRATING (n : Nat) : Fld := ⟨Reg.LSM_STATUS n, 6, 1⟩
abbrev LSM_STATUS_TEST_PASS (n : Nat) : Fld := ⟨Reg.LSM_STATUS n, 5, 1⟩
abbrev LSM_STATUS_RETRYING (n : Nat) : Fld := ⟨Reg.LSM_STATUS n, 4, 1⟩
abbrev LSM_STATUS_TEST_DONE (n : Nat) : Fld := ⟨Reg.LSM_STATUS n, 3, 1⟩
abbrev LSM_STATUS_MIGRATED_IN (n : Nat) : Fld := ⟨Reg.LSM_STATUS n, 2, 1⟩
abbrev LSM_STATUS_EXHAUSTED (n : Nat) : Fld := ⟨Reg.LSM_STATUS n, 1, 1⟩
abbrev LSM_STATUS_MISMATCH (n : Nat) : Fld := ⟨Reg.LSM_STATUS n, 0, 1⟩
abbrev LSM_IRQ_EN_EN (n : Nat) : Fld := ⟨Reg.LSM_IRQ_EN n, 0, 4⟩
abbrev LSM_CTRL_KEY (n : Nat) : Fld := ⟨Reg.LSM_CTRL n, 8, 8⟩
abbrev LSM_CTRL_MIGRATE (n : Nat) : Fld := ⟨Reg.LSM_CTRL n, 2, 1⟩
abbrev LSM_CTRL_FORCE_RETIRE (n : Nat) : Fld := ⟨Reg.LSM_CTRL n, 1, 1⟩
abbrev LSM_CTRL_READMIT (n : Nat) : Fld := ⟨Reg.LSM_CTRL n, 0, 1⟩
abbrev LSM_LIVE_LEN64 (n : Nat) : Fld := ⟨Reg.LSM_LIVE n, 20, 10⟩
abbrev LSM_LIVE_OFFSET (n : Nat) : Fld := ⟨Reg.LSM_LIVE n, 0, 20⟩
abbrev LSM_LAST_DETAIL_DETAIL (n : Nat) : Fld := ⟨Reg.LSM_LAST_DETAIL n, 0, 11⟩
abbrev LSM_TEST_FAIL (n : Nat) : Fld := ⟨Reg.LSM_TEST n, 0, 3⟩
abbrev LSM_CLR_COUNTS (n : Nat) : Fld := ⟨Reg.LSM_CLR n, 0, 1⟩

end F

end Sys2Proof.Machine
end

