-- ==== Sys2Proof/Machine/RegTable.lean ====
section
/-! DEFINITION. The table of all registers: first address, the indices (count and stride), the reset value, whether
resets other than power-on keep it, and its access masks (R5): the bits that are RW, W1C, WO and IMG; every other bit is
RO or reserved.  -/
namespace Sys2Proof.Machine

/-- Rows of block RPC (19_reset_power_retention.md). -/
def regRowsRPC1 : List RegDesc := [
  ⟨"RPC_CAUSE", 0xE0000000, [], 0x0, false, 0x0, 0x0, 0x0, 0x0⟩,
  ⟨"RPC_SWRST", 0xE0000004, [], 0x0, false, 0x0, 0x0, 0xFFFF, 0x0⟩,
  ⟨"RPC_FOLLY", 0xE0000008, [], 0x0, false, 0x0, 0x0, 0xFF01, 0x0⟩,
  ⟨"RPC_START", 0xE000000C, [], 0x0, false, 0x0, 0x0, 0x1, 0x0⟩,
  ⟨"RPC_WDG_KICK", 0xE0000010, [], 0x0, false, 0x0, 0x0, 0xFFFFFFFF, 0x0⟩,
  ⟨"RPC_WDG_STATUS", 0xE0000014, [], 0x0, false, 0x0, 0x0, 0x0, 0x0⟩,
  ⟨"RPC_CWD_KICK", 0xE0000018, [], 0x0, false, 0x0, 0x0, 0x1, 0x0⟩,
  ⟨"RPC_SUPPLY", 0xE000001C, [], 0x0, false, 0x0, 0x0, 0x0, 0x0⟩,
  ⟨"RPC_SUP_STATUS", 0xE0000020, [], 0x0, false, 0x0, 0xE0, 0x0, 0x0⟩,
  ⟨"RPC_DIP_COUNT", 0xE0000024, [], 0x0, false, 0x0, 0x0, 0x0, 0x0⟩,
  ⟨"RPC_LP_CMD", 0xE0000028, [], 0x0, false, 0x0, 0x0, 0xFF03, 0x0⟩,
  ⟨"RPC_PARK_WAKE", 0xE000002C, [], 0x0, false, 0xFFFFFFFF, 0x0, 0x0, 0x0⟩,
  ⟨"RPC_ELAPSED_LO", 0xE0000030, [], 0x0, true, 0x0, 0x0, 0x0, 0x0⟩,
  ⟨"RPC_ELAPSED_HI", 0xE0000034, [], 0x0, true, 0x0, 0x0, 0x0, 0x0⟩,
  ⟨"RPC_RETURNED", 0xE0000038, [], 0x0, false, 0x0, 0x0, 0x0, 0x0⟩,
  ⟨"RPC_IRQ", 0xE000003C, [], 0x0, false, 0x0, 0xFE, 0x0, 0x0⟩,
  ⟨"RPC_IRQ_EN", 0xE0000040, [], 0x0, false, 0xFE, 0x0, 0x0, 0x0⟩,
  ⟨"RPC_CWD", 0xE0000084, [(7, 0x4)], 0x0, false, 0x8000FFFF, 0x40000000, 0x0, 0x0⟩,
  ⟨"RPC_DOM", 0xE0000100, [(32, 0x4)], 0x0, false, 0x0, 0x0, 0x0, 0x0⟩,
  ⟨"RPC_OB_STAGE", 0xE0000200, [(7, 0x4)], 0x0, false, 0xFFFFFFFF, 0x0, 0x0, 0x0⟩,
  ⟨"RPC_OB_CMD", 0xE0000220, [], 0x0, false, 0x0, 0x0, 0x1, 0x0⟩,
  ⟨"RPC_OB_STATUS", 0xE0000224, [], 0x0, false, 0x0, 0x10, 0x0, 0x0⟩,
  ⟨"RPC_BKP", 0xE0000300, [(32, 0x4)], 0x0, true, 0xFFFFFFFF, 0x0, 0x0, 0x0⟩]

/-- Rows of block CTU (02_course_and_time.md). -/
def regRowsCTU1 : List RegDesc := [
  ⟨"CTU_SNAP", 0xE0010000, [], 0x0, false, 0x0, 0x0, 0x1, 0x0⟩,
  ⟨"CTU_SNAP_SEC", 0xE0010004, [], 0x0, false, 0x0, 0x0, 0x0, 0x0⟩,
  ⟨"CTU_SNAP_NSEC", 0xE0010008, [], 0x0, false, 0x0, 0x0, 0x0, 0x0⟩,
  ⟨"CTU_SNAP_HI", 0xE001000C, [], 0x0, false, 0x0, 0x0, 0x0, 0x0⟩,
  ⟨"CTU_TIME_INC", 0xE0010010, [], 0x1AAAAAB, false, 0xFFFFFFFF, 0x0, 0x0, 0x0⟩,
  ⟨"CTU_TIME_SLEW", 0xE0010014, [], 0x0, false, 0xFFFFFFFF, 0x0, 0x0, 0x0⟩,
  ⟨"CTU_STEP_SEC", 0xE0010018, [], 0x0, false, 0xFFFFFFFF, 0x0, 0x0, 0x0⟩,
  ⟨"CTU_STEP_NSEC", 0xE001001C, [], 0x0, false, 0x3FFFFFFF, 0x0, 0x0, 0x0⟩,
  ⟨"CTU_STEP_HI", 0xE0010020, [], 0x0, false, 0xFFFF, 0x0, 0x0, 0x0⟩,
  ⟨"CTU_STEP_CTRL", 0xE0010024, [], 0x0, false, 0x2, 0x0, 0x1, 0x0⟩,
  ⟨"CTU_TIME_STATE", 0xE0010028, [], 0x0, false, 0x3, 0xF0C, 0x0, 0x0⟩,
  ⟨"CTU_SERVO_WD", 0xE001002C, [], 0xFA0, false, 0x0, 0x0, 0x0, 0xFFFF⟩,
  ⟨"CTU_PPS_OUT_CTRL", 0xE0010030, [], 0x61A80, false, 0x1FFFFF, 0x0, 0x0, 0x0⟩,
  ⟨"CTU_PPS_OUT_OFFSET", 0xE0010034, [], 0x0, false, 0x3FFFFFFF, 0x0, 0x0, 0x0⟩,
  ⟨"CTU_PPS_IN_CTRL", 0xE0010038, [], 0x0, false, 0x3, 0x8, 0x0, 0x0⟩,
  ⟨"CTU_PPS_CAP_SEC", 0xE001003C, [], 0x0, false, 0x0, 0x0, 0x0, 0x0⟩,
  ⟨"CTU_PPS_CAP_NSEC", 0xE0010040, [], 0x0, false, 0x0, 0x0, 0x0, 0x0⟩,
  ⟨"CTU_PPS_CAP_HI", 0xE0010044, [], 0x0, false, 0x0, 0x0, 0x0, 0x0⟩,
  ⟨"CRS_CFG", 0xE0010100, [(4, 0x20)], 0x0, false, 0x0, 0x0, 0x0, 0x800001F3⟩,
  ⟨"CRS_STATUS", 0xE0010104, [(4, 0x20)], 0x0, false, 0x0, 0x4, 0x0, 0x0⟩,
  ⟨"CRS_POS_LO", 0xE0010108, [(4, 0x20)], 0x0, false, 0x0, 0x0, 0x0, 0x0⟩,
  ⟨"CRS_POS_HI", 0xE001010C, [(4, 0x20)], 0x0, false, 0x0, 0x0, 0x0, 0x0⟩,
  ⟨"CRS_PLL", 0xE0010110, [(4, 0x20)], 0xA, false, 0x0, 0x0, 0x0, 0x3F⟩,
  ⟨"CRS_FREQ", 0xE0010114, [(4, 0x20)], 0x0, false, 0x0, 0x0, 0x0, 0x0⟩,
  ⟨"CTU_CT_GO", 0xE0010F00, [], 0x0, false, 0x0, 0x0, 0xFF, 0x0⟩,
  ⟨"CTU_SKIPPED", 0xE0010F04, [], 0x0, false, 0x0, 0xFF, 0x0, 0x0⟩,
  ⟨"CT_CFG", 0xE0011000, [(8, 0x400)], 0x0, false, 0x0, 0x0, 0x0, 0x80007F03⟩,
  ⟨"CT_ORIGIN_LO", 0xE0011004, [(8, 0x400)], 0x0, false, 0x0, 0x0, 0x0, 0xFFFFFFFF⟩,
  ⟨"CT_ORIGIN_HI", 0xE0011008, [(8, 0x400)], 0x0, false, 0x0, 0x0, 0x0, 0xFFFFFFFF⟩,
  ⟨"CT_PERIOD_LO", 0xE001100C, [(8, 0x400)], 0x0, false, 0x0, 0x0, 0x0, 0xFFFFFFFF⟩,
  ⟨"CT_PERIOD_HI", 0xE0011010, [(8, 0x400)], 0x0, false, 0x0, 0x0, 0x0, 0x7FFF⟩,
  ⟨"CT_CTRL", 0xE0011014, [(8, 0x400)], 0x0, false, 0x1, 0x0, 0x0, 0x0⟩,
  ⟨"CT_SKIP", 0xE0011018, [(8, 0x400)], 0x0, false, 0x0, 0x0, 0x0, 0x0⟩,
  ⟨"CT_LAST_CSEQ", 0xE001101C, [(8, 0x400)], 0x0, false, 0x0, 0x0, 0x0, 0x0⟩,
  ⟨"CT_ENTRY_LO", 0xE0011100, [(8, 0x400), (64, 0x8)], 0x0, false, 0x0, 0x0, 0x0, 0xFFFFFFFF⟩,
  ⟨"CT_ENTRY_HI", 0xE0011104, [(8, 0x400), (64, 0x8)], 0x0, false, 0x0, 0x0, 0x0, 0x7FFF⟩]

/-- Rows of block DIO (02_course_and_time.md). -/
def regRowsDIO1 : List RegDesc := [
  ⟨"DIO_STATE", 0xE0020000, [(2, 0x4)], 0x0, false, 0x0, 0x0, 0x0, 0x0⟩,
  ⟨"DIO_RAW", 0xE0020008, [(2, 0x4)], 0x0, false, 0x0, 0x0, 0x0, 0x0⟩,
  ⟨"DIO_OVF", 0xE0020010, [(2, 0x4)], 0x0, false, 0x0, 0xFFFFFFFF, 0x0, 0x0⟩,
  ⟨"DIO_COUNT", 0xE0020020, [(8, 0x4)], 0x0, false, 0x0, 0x0, 0x0, 0x0⟩,
  ⟨"DIO_FILT", 0xE0020100, [(64, 0x4)], 0x30000, false, 0x0, 0x0, 0x0, 0x37FFF⟩,
  ⟨"DIO_FIFO", 0xE0020400, [(64, 0x10), (4, 0x4)], 0x0, false, 0x0, 0x0, 0x0, 0x0⟩]

/-- Rows of block ENC (09_motion.md). -/
def regRowsENC1 : List RegDesc := [
  ⟨"ENC_READMIT", 0xE0030000, [], 0x0, false, 0x0, 0x0, 0xF, 0x0⟩,
  ⟨"ENC_CFG", 0xE0030100, [(16, 0x20)], 0x0, false, 0x0, 0x0, 0x0, 0x8000017F⟩,
  ⟨"ENC_ACC_LO", 0xE0030104, [(16, 0x20)], 0x0, false, 0x0, 0x0, 0x0, 0x0⟩,
  ⟨"ENC_ACC_HI", 0xE0030108, [(16, 0x20)], 0x0, false, 0x0, 0x0, 0x0, 0x0⟩,
  ⟨"ENC_IDX_LO", 0xE003010C, [(16, 0x20)], 0x0, false, 0x0, 0x0, 0x0, 0x0⟩,
  ⟨"ENC_IDX_HI", 0xE0030110, [(16, 0x20)], 0x0, false, 0x0, 0x0, 0x0, 0x0⟩,
  ⟨"ENC_STATUS", 0xE0030114, [(16, 0x20)], 0x0, false, 0x0, 0xA, 0x0, 0x0⟩,
  ⟨"ENC_VEL", 0xE0030118, [(16, 0x20)], 0x0, false, 0x0, 0x0, 0x0, 0x0⟩,
  ⟨"ENC_SCALE", 0xE003011C, [(16, 0x20)], 0x0, false, 0x0, 0x0, 0x0, 0xFFFFFFFF⟩]

/-- Rows of block IML (03_structure_image.md). -/
def regRowsIML1 : List RegDesc := [
  ⟨"IML_CTRL", 0xE0040000, [], 0x0, false, 0x0, 0x0, 0x7, 0x0⟩,
  ⟨"IML_STATUS", 0xE0040004, [], 0x0, false, 0x0, 0xA000, 0x0, 0x0⟩,
  ⟨"IML_SRC_LO", 0xE0040008, [], 0x0, false, 0xFFFFFFC0, 0x0, 0x0, 0x0⟩,
  ⟨"IML_SRC_HI", 0xE004000C, [], 0x0, false, 0xFF, 0x0, 0x0, 0x0⟩,
  ⟨"IML_SRC_LEN", 0xE0040010, [], 0x0, false, 0xFFFFFFFF, 0x0, 0x0, 0x0⟩,
  ⟨"IML_ACTIVE_ID_LO", 0xE0040014, [], 0x0, false, 0x0, 0x0, 0x0, 0x0⟩,
  ⟨"IML_ACTIVE_ID_HI", 0xE0040018, [], 0x0, false, 0x0, 0x0, 0x0, 0x0⟩,
  ⟨"IML_STAGED_ID_LO", 0xE004001C, [], 0x0, false, 0x0, 0x0, 0x0, 0x0⟩,
  ⟨"IML_STAGED_ID_HI", 0xE0040020, [], 0x0, false, 0x0, 0x0, 0x0, 0x0⟩,
  ⟨"IML_CREWMAP", 0xE0040024, [], 0xFFFFFFFF, false, 0x0, 0x0, 0x0, 0x0⟩,
  ⟨"IML_SPARE", 0xE0040028, [], 0x8, false, 0x0, 0x0, 0x0, 0x0⟩,
  ⟨"IML_PART", 0xE004002C, [], 0xFF, false, 0x0, 0x0, 0x0, 0x0⟩,
  ⟨"IML_ARB", 0xE0040030, [], 0x0, false, 0x0, 0x0, 0x0, 0x0⟩]

/-- Rows of block FWL (17_data_movement_and_integrity.md). -/
def regRowsFWL1 : List RegDesc := [
  ⟨"FWL_STATUS", 0xE0050000, [], 0x0, false, 0x0, 0x7, 0x0, 0x0⟩,
  ⟨"FWL_UNFREEZE", 0xE0050004, [], 0x0, false, 0x0, 0x0, 0xFFFF, 0x0⟩,
  ⟨"FWL_IRQ_EN", 0xE0050008, [], 0x0, false, 0x7, 0x0, 0x0, 0x0⟩,
  ⟨"FWL_READMIT", 0xE005000C, [], 0x0, false, 0x0, 0x0, 0xF, 0x0⟩,
  ⟨"FWL_FROZEN", 0xE0050010, [(5, 0x4)], 0x0, false, 0x0, 0x0, 0x0, 0x0⟩,
  ⟨"FWL_VIOL_INFO", 0xE0050030, [], 0x0, false, 0x0, 0x0, 0x0, 0x0⟩,
  ⟨"FWL_VIOL_ADDR_LO", 0xE0050034, [], 0x0, false, 0x0, 0x0, 0x0, 0x0⟩,
  ⟨"FWL_VIOL_ADDR_HI", 0xE0050038, [], 0x0, false, 0x0, 0x0, 0x0, 0x0⟩,
  ⟨"FWL_VIOL_COUNT", 0xE005003C, [], 0x0, false, 0x0, 0x0, 0x0, 0x0⟩,
  ⟨"FWL_ECC_CE", 0xE0050040, [], 0x0, false, 0x0, 0x0, 0x0, 0x0⟩,
  ⟨"FWL_ECC_UE", 0xE0050044, [], 0x0, false, 0x0, 0x0, 0x0, 0x0⟩,
  ⟨"FWL_ECC_ADDR_LO", 0xE0050048, [], 0x0, false, 0x0, 0x0, 0x0, 0x0⟩,
  ⟨"FWL_ECC_ADDR_HI", 0xE005004C, [], 0x0, false, 0x0, 0x0, 0x0, 0x0⟩,
  ⟨"FWL_LINK", 0xE0050100, [(12, 0x4)], 0x0, false, 0x0, 0x0, 0x0, 0x0⟩,
  ⟨"FWL_REG0", 0xE0051000, [(160, 0x100), (16, 0x10)], 0x0, false, 0x0, 0x0, 0x0, 0xFFFFF00F⟩,
  ⟨"FWL_REG1", 0xE0051004, [(160, 0x100), (16, 0x10)], 0x0, false, 0x0, 0x0, 0x0, 0xFF⟩,
  ⟨"FWL_REG2", 0xE0051008, [(160, 0x100), (16, 0x10)], 0x0, false, 0x0, 0x0, 0x0, 0xFFFFF000⟩,
  ⟨"FWL_REG3", 0xE005100C, [(160, 0x100), (16, 0x10)], 0x0, false, 0x0, 0x0, 0x0, 0xFF⟩]

/-- Rows of block VLT (18_security.md). -/
def regRowsVLT1 : List RegDesc := [
  ⟨"VLT_CMD", 0xE0060000, [], 0x0, false, 0x0, 0x0, 0xFFFF000F, 0x0⟩,
  ⟨"VLT_ARG_LO", 0xE0060004, [], 0x0, false, 0xFFFFFFC0, 0x0, 0x0, 0x0⟩,
  ⟨"VLT_ARG_HI", 0xE0060008, [], 0x0, false, 0xFF, 0x0, 0x0, 0x0⟩,
  ⟨"VLT_ARG_LEN", 0xE006000C, [], 0x0, false, 0xFFFFFFFF, 0x0, 0x0, 0x0⟩,
  ⟨"VLT_RES", 0xE0060010, [], 0x0, false, 0x0, 0x40000000, 0x0, 0x0⟩,
  ⟨"VLT_STATUS", 0xE0060014, [], 0x0, false, 0x0, 0x40000000, 0x0, 0x0⟩,
  ⟨"VLT_IRQ_EN", 0xE0060018, [], 0x0, false, 0x3, 0x0, 0x0, 0x0⟩,
  ⟨"VLT_KEYID_LO", 0xE0060020, [], 0x0, true, 0x0, 0x0, 0x0, 0x0⟩,
  ⟨"VLT_KEYID_HI", 0xE0060024, [], 0x0, true, 0x0, 0x0, 0x0, 0x0⟩,
  ⟨"VLT_RNG", 0xE0060028, [], 0x0, false, 0x0, 0x0, 0x0, 0x0⟩,
  ⟨"VLT_ARB", 0xE0060100, [(64, 0x4)], 0x0, true, 0x0, 0x0, 0x0, 0x0⟩,
  ⟨"VLT_MEAS", 0xE0060200, [(8, 0x40), (12, 0x4)], 0x0, false, 0x0, 0x0, 0x0, 0x0⟩,
  ⟨"VLT_DBG_CHAL", 0xE0060400, [(8, 0x4)], 0x0, false, 0x0, 0x0, 0x0, 0x0⟩,
  ⟨"VLT_CERT", 0xE0060800, [(128, 0x4)], 0x0, true, 0x0, 0x0, 0x0, 0x0⟩]

/-- Rows of block EVL (01_architecture.md). -/
def regRowsEVL1 : List RegDesc := [
  ⟨"EVL_CTRL", 0xE0070000, [], 0x0, false, 0x1, 0x0, 0x0, 0x0⟩,
  ⟨"EVL_BASE_LO", 0xE0070004, [], 0x0, false, 0xFFFFF000, 0x0, 0x0, 0x0⟩,
  ⟨"EVL_BASE_HI", 0xE0070008, [], 0x10, false, 0xFF, 0x0, 0x0, 0x0⟩,
  ⟨"EVL_SIZE", 0xE007000C, [], 0x14, false, 0x1F, 0x0, 0x0, 0x0⟩,
  ⟨"EVL_WR_IDX", 0xE0070010, [], 0x0, false, 0x0, 0x0, 0x0, 0x0⟩,
  ⟨"EVL_LOST", 0xE0070014, [], 0x0, false, 0x0, 0x0, 0x0, 0x0⟩,
  ⟨"EVL_BH_IDX", 0xE0070018, [], 0x0, true, 0x0, 0x0, 0x0, 0x0⟩,
  ⟨"EVL_SW_DETAIL", 0xE007001C, [], 0x0, false, 0x0, 0x0, 0xFFFFFFFF, 0x0⟩,
  ⟨"EVL_SW_CODE", 0xE0070020, [], 0x0, false, 0x0, 0x0, 0x7F, 0x0⟩]

/-- Rows of block SEQ (08_recipe_sequencer.md). -/
def regRowsSEQ1 : List RegDesc := [
  ⟨"SEQ_CMD", 0xE0080000, [], 0x0, false, 0x0, 0x0, 0xF07, 0x0⟩,
  ⟨"SEQ_ARG", 0xE0080004, [], 0x0, false, 0xFFFF, 0x0, 0x0, 0x0⟩,
  ⟨"SEQ_SRC_LO", 0xE0080008, [], 0x0, false, 0xFFFFFFC0, 0x0, 0x0, 0x0⟩,
  ⟨"SEQ_SRC_HI", 0xE008000C, [], 0x0, false, 0xFF, 0x0, 0x0, 0x0⟩,
  ⟨"SEQ_SRC_LEN", 0xE0080010, [], 0x0, false, 0xFFFFFFFF, 0x0, 0x0, 0x0⟩,
  ⟨"SEQ_RES", 0xE0080014, [], 0x0, false, 0x0, 0x0, 0x0, 0x0⟩,
  ⟨"SEQ_STATUS", 0xE0080018, [], 0x0, false, 0x0, 0xF, 0x0, 0x0⟩,
  ⟨"SEQ_IRQ_EN", 0xE008001C, [], 0x0, false, 0xFFFFF, 0x0, 0x0, 0x0⟩,
  ⟨"SEQ_RCHG", 0xE0080020, [], 0x0, false, 0x0, 0xFFFF, 0x0, 0x0⟩,
  ⟨"SEQ_PFLAG_LO", 0xE0080030, [], 0x0, false, 0x0, 0x0, 0x0, 0x0⟩,
  ⟨"SEQ_PFLAG_HI", 0xE0080034, [], 0x0, false, 0x0, 0x0, 0x0, 0x0⟩,
  ⟨"SEQ_PFLAG_SET_LO", 0xE0080038, [], 0x0, false, 0x0, 0x0, 0xFFFFFFFF, 0x0⟩,
  ⟨"SEQ_PFLAG_SET_HI", 0xE008003C, [], 0x0, false, 0x0, 0x0, 0xFFFFFFFF, 0x0⟩,
  ⟨"SEQ_PFLAG_CLR_LO", 0xE0080040, [], 0x0, false, 0x0, 0x0, 0xFFFFFFFF, 0x0⟩,
  ⟨"SEQ_PFLAG_CLR_HI", 0xE0080044, [], 0x0, false, 0x0, 0x0, 0xFFFFFFFF, 0x0⟩,
  ⟨"SEQ_CKPT_CFG", 0xE0080050, [], 0xA00, false, 0x0, 0x0, 0x0, 0xFF07⟩,
  ⟨"SEQ_CKPT_LAST", 0xE0080054, [], 0x0, false, 0x0, 0x0, 0x0, 0x0⟩,
  ⟨"SEQ_CKPT_GAP", 0xE0080058, [], 0x0, false, 0x0, 0x0, 0x0, 0x0⟩,
  ⟨"SEQ_CKPT_MERGED", 0xE008005C, [], 0x0, false, 0x0, 0x0, 0x0, 0x0⟩,
  ⟨"SEQ_REP_SKIP", 0xE0080060, [], 0x0, false, 0x0, 0x0, 0x0, 0x0⟩,
  ⟨"SEQ_R_STATE", 0xE0080100, [(16, 0x20)], 0x0, false, 0x0, 0x0, 0x0, 0x0⟩,
  ⟨"SEQ_R_STEP", 0xE0080104, [(16, 0x20)], 0x0, false, 0x0, 0x0, 0x0, 0x0⟩,
  ⟨"SEQ_R_COUNT", 0xE0080108, [(16, 0x20)], 0x0, false, 0x0, 0x0, 0x0, 0x0⟩,
  ⟨"SEQ_R_ID_LO", 0xE008010C, [(16, 0x20)], 0x0, false, 0x0, 0x0, 0x0, 0x0⟩,
  ⟨"SEQ_R_ID_HI", 0xE0080110, [(16, 0x20)], 0x0, false, 0x0, 0x0, 0x0, 0x0⟩,
  ⟨"SEQ_R_REFUSE", 0xE0080114, [(16, 0x20)], 0x0, false, 0x0, 0x0, 0x0, 0x0⟩]

/-- Rows of block RCE (10_record_and_trigger.md). -/
def regRowsRCE1 : List RegDesc := [
  ⟨"RCE_CTRL", 0xE0090000, [], 0x0, false, 0x5, 0x0, 0x0, 0xA⟩,
  ⟨"RCE_STATUS", 0xE0090004, [], 0x0, false, 0x0, 0xC7F, 0x0, 0x0⟩,
  ⟨"RCE_IRQ_EN", 0xE0090008, [], 0x0, false, 0x7, 0x0, 0x0, 0x0⟩,
  ⟨"RCE_BLOCK_MS", 0xE009000C, [], 0x64, false, 0x0, 0x0, 0x0, 0x3FF⟩,
  ⟨"RCE_CHAIN_LO", 0xE0090010, [], 0x0, false, 0x0, 0x0, 0x0, 0x0⟩,
  ⟨"RCE_CHAIN_HI", 0xE0090014, [], 0x0, false, 0x0, 0x0, 0x0, 0x0⟩,
  ⟨"RCE_BLKSEQ_LO", 0xE0090018, [], 0x0, false, 0x0, 0x0, 0x0, 0x0⟩,
  ⟨"RCE_BLKSEQ_HI", 0xE009001C, [], 0x0, false, 0x0, 0x0, 0x0, 0x0⟩,
  ⟨"RCE_WR_SLOT", 0xE0090020, [], 0x0, true, 0x0, 0x0, 0x0, 0x0⟩,
  ⟨"RCE_EXP_SLOT", 0xE0090024, [], 0x0, false, 0x0, 0x0, 0x0, 0x0⟩,
  ⟨"RCE_RATE", 0xE0090028, [], 0x0, false, 0x0, 0x0, 0x0, 0x0⟩,
  ⟨"RCE_MISSING", 0xE009002C, [], 0x0, false, 0x0, 0x0, 0x0, 0x0⟩,
  ⟨"RCE_LATE", 0xE0090030, [], 0x0, false, 0x0, 0x0, 0x0, 0x0⟩,
  ⟨"RCE_TAGERR", 0xE0090034, [], 0x0, false, 0x0, 0x0, 0x0, 0x0⟩,
  ⟨"RCE_EXP_LOST", 0xE0090038, [], 0x0, false, 0x0, 0x0, 0x0, 0x0⟩,
  ⟨"RCE_RETX", 0xE009003C, [], 0x0, false, 0x0, 0x0, 0x0, 0x0⟩,
  ⟨"RCE_LAST_HASH", 0xE0090050, [(12, 0x4)], 0x0, false, 0x0, 0x0, 0x0, 0x0⟩,
  ⟨"RCE_TRG_ARM", 0xE0090100, [(4, 0x4)], 0x0, false, 0xFFFFFFFF, 0x0, 0x0, 0x0⟩,
  ⟨"RCE_TRG_FIRED", 0xE0090110, [(4, 0x4)], 0x0, false, 0x0, 0xFFFFFFFF, 0x0, 0x0⟩,
  ⟨"RCE_TRG_IEN", 0xE0090120, [(4, 0x4)], 0x0, false, 0xFFFFFFFF, 0x0, 0x0, 0x0⟩,
  ⟨"RCE_ENV", 0xE0090200, [(8, 0x8)], 0x0, false, 0x0, 0x0, 0x0, 0x0⟩,
  ⟨"RCE_ENV_LAST", 0xE0090204, [(8, 0x8)], 0x0, false, 0x0, 0x0, 0x0, 0x0⟩,
  ⟨"RCE_CREW", 0xE0090240, [(8, 0x4)], 0x1, false, 0x0, 0x0, 0x0, 0x3⟩,
  ⟨"CAP_CFG", 0xE0091000, [(64, 0x40)], 0x0, false, 0x0, 0x0, 0x0, 0xF73FFFFF⟩,
  ⟨"CAP_TRIG", 0xE0091004, [(64, 0x40)], 0x0, false, 0x0, 0x0, 0x0, 0xFFFF⟩,
  ⟨"CAP_PRE", 0xE0091008, [(64, 0x40)], 0x0, false, 0x0, 0x0, 0x0, 0xFFFFFF⟩,
  ⟨"CAP_BUF_LO", 0xE009100C, [(64, 0x40)], 0x0, false, 0x0, 0x0, 0x0, 0xFFFFFFC0⟩,
  ⟨"CAP_BUF_HI", 0xE0091010, [(64, 0x40)], 0x0, false, 0x0, 0x0, 0x0, 0xFF⟩,
  ⟨"CAP_BUFLEN", 0xE0091014, [(64, 0x40)], 0x0, false, 0x0, 0x0, 0x0, 0xFFFFFFFF⟩,
  ⟨"CAP_POST", 0xE0091018, [(64, 0x40)], 0x0, false, 0xFFFFFF, 0x0, 0x0, 0x0⟩,
  ⟨"CAP_CTRL", 0xE009101C, [(64, 0x40)], 0x0, false, 0x100, 0x0, 0x1F, 0x0⟩,
  ⟨"CAP_STATUS", 0xE0091020, [(64, 0x40)], 0x0, false, 0x0, 0x4, 0x0, 0x0⟩,
  ⟨"CAP_COUNT", 0xE0091024, [(64, 0x40)], 0x0, false, 0x0, 0x0, 0x0, 0x0⟩,
  ⟨"CAP_PREV", 0xE0091028, [(64, 0x40)], 0x0, false, 0x0, 0x0, 0x0, 0x0⟩,
  ⟨"TRG_CFG", 0xE0092000, [(128, 0x20)], 0x0, false, 0x0, 0x0, 0x0, 0xFC000FFF⟩,
  ⟨"TRG_A", 0xE0092004, [(128, 0x20)], 0x0, false, 0x0, 0x0, 0x0, 0xFFFFFFFF⟩,
  ⟨"TRG_B", 0xE0092008, [(128, 0x20)], 0x0, false, 0x0, 0x0, 0x0, 0xFFFFFFFF⟩,
  ⟨"TRG_HYST", 0xE009200C, [(128, 0x20)], 0x0, false, 0x0, 0x0, 0x0, 0xFFFFFFFF⟩,
  ⟨"TRG_LAST", 0xE0092010, [(128, 0x20)], 0x0, false, 0x0, 0x0, 0x0, 0x0⟩,
  ⟨"TRG_COUNT", 0xE0092014, [(128, 0x20)], 0x0, false, 0x0, 0x0, 0x0, 0x0⟩]

/-- Rows of block RCE (10_record_and_trigger.md). -/
def regRowsRCE2 : List RegDesc := [
  ⟨"GOLD_ADDR_LO", 0xE0093000, [(256, 0x10)], 0x0, false, 0xFFFFFFC0, 0x0, 0x0, 0x0⟩,
  ⟨"GOLD_ADDR_HI", 0xE0093004, [(256, 0x10)], 0x0, false, 0xFF, 0x0, 0x0, 0x0⟩,
  ⟨"GOLD_N", 0xE0093008, [(256, 0x10)], 0x0, false, 0x1FFFF, 0x0, 0x0, 0x0⟩,
  ⟨"GOLD_CTRL", 0xE009300C, [(256, 0x10)], 0x0, false, 0x1, 0x0, 0x0, 0x0⟩]

/-- Rows of block RMV (17_data_movement_and_integrity.md). -/
def regRowsRMV1 : List RegDesc := [
  ⟨"RMV_SRC_LO", 0xE00A0100, [(4, 0x40)], 0x0, false, 0xFFFFFFF8, 0x0, 0x0, 0x0⟩,
  ⟨"RMV_SRC_HI", 0xE00A0104, [(4, 0x40)], 0x0, false, 0xFF, 0x0, 0x0, 0x0⟩,
  ⟨"RMV_DST_LO", 0xE00A0108, [(4, 0x40)], 0x0, false, 0xFFFFFFF8, 0x0, 0x0, 0x0⟩,
  ⟨"RMV_DST_HI", 0xE00A010C, [(4, 0x40)], 0x0, false, 0xFF, 0x0, 0x0, 0x0⟩,
  ⟨"RMV_S_LINE", 0xE00A0110, [(4, 0x40)], 0x0, false, 0xFFFFFF, 0x0, 0x0, 0x0⟩,
  ⟨"RMV_S_STRIDE", 0xE00A0114, [(4, 0x40)], 0x0, false, 0xFFFFFFFF, 0x0, 0x0, 0x0⟩,
  ⟨"RMV_S_LINES", 0xE00A0118, [(4, 0x40)], 0x0, false, 0xFFFFFF, 0x0, 0x0, 0x0⟩,
  ⟨"RMV_D_LINE", 0xE00A011C, [(4, 0x40)], 0x0, false, 0xFFFFFF, 0x0, 0x0, 0x0⟩,
  ⟨"RMV_D_STRIDE", 0xE00A0120, [(4, 0x40)], 0x0, false, 0xFFFFFFFF, 0x0, 0x0, 0x0⟩,
  ⟨"RMV_D_LINES", 0xE00A0124, [(4, 0x40)], 0x0, false, 0xFFFFFF, 0x0, 0x0, 0x0⟩,
  ⟨"RMV_CTRL", 0xE00A0128, [(4, 0x40)], 0x0, false, 0x770, 0x0, 0xB, 0x0⟩,
  ⟨"RMV_STATUS", 0xE00A012C, [(4, 0x40)], 0x0, false, 0x0, 0x380, 0x0, 0x0⟩,
  ⟨"RMV_POS", 0xE00A0130, [(4, 0x40)], 0x0, false, 0x0, 0x0, 0x0, 0x0⟩]

/-- Rows of block AFE (05_analogue_acquisition.md). -/
def regRowsAFE1 : List RegDesc := [
  ⟨"AFE_READMIT", 0xE00B0000, [], 0x0, false, 0x0, 0x0, 0x11F, 0x0⟩,
  ⟨"AFE_CAL_CTRL", 0xE00B0010, [], 0x0, false, 0x3FF00, 0x0, 0x7, 0x0⟩,
  ⟨"AFE_CAL_X", 0xE00B0014, [], 0x0, false, 0xFFFFFFFF, 0x0, 0x0, 0x0⟩,
  ⟨"AFE_CAL_N", 0xE00B0018, [], 0x40, false, 0xFFFF, 0x0, 0x0, 0x0⟩,
  ⟨"AFE_CAL_STATUS", 0xE00B001C, [], 0x0, false, 0x0, 0x0, 0x0, 0x0⟩,
  ⟨"AFE_CAL_GAIN", 0xE00B0020, [], 0x0, false, 0x0, 0x0, 0x0, 0x0⟩,
  ⟨"AFE_CAL_OFFS", 0xE00B0024, [], 0x0, false, 0x0, 0x0, 0x0, 0x0⟩,
  ⟨"AFE_ADC_STATUS", 0xE00B0100, [(20, 0x10)], 0x0, false, 0x0, 0x0, 0x0, 0x0⟩,
  ⟨"AFE_ADC_CHSEL", 0xE00B0104, [(20, 0x10)], 0x0, false, 0x0, 0x0, 0x0, 0x0⟩,
  ⟨"AFE_ADC_LATE", 0xE00B0108, [(20, 0x10)], 0x0, false, 0x0, 0x0, 0x0, 0x0⟩,
  ⟨"AFE_PAIR_CFG", 0xE00B0300, [(8, 0x10)], 0x0, false, 0x0, 0x0, 0x0, 0xFFFFFF⟩,
  ⟨"AFE_PAIR_STATUS", 0xE00B0304, [(8, 0x10)], 0x0, false, 0x0, 0x0, 0x0, 0x0⟩,
  ⟨"AFE_PAIR_DIFF", 0xE00B0308, [(8, 0x10)], 0x0, false, 0x0, 0x0, 0x0, 0x0⟩,
  ⟨"AFE_TDAC_CMD", 0xE00B0500, [(8, 0x10)], 0x8000000, false, 0xFFF003F, 0x0, 0x80000000, 0x0⟩,
  ⟨"AFE_TDAC_RES", 0xE00B0504, [(8, 0x10)], 0x0, false, 0x0, 0x0, 0x0, 0x0⟩,
  ⟨"AFE_TDAC_MEAS", 0xE00B0508, [(8, 0x10)], 0x0, false, 0x0, 0x0, 0x0, 0x0⟩,
  ⟨"AFE_TDAC_EXP", 0xE00B050C, [(8, 0x10)], 0x0, false, 0x0, 0x0, 0x0, 0x0⟩,
  ⟨"AFE_OW", 0xE00B0600, [(6, 0x4)], 0x0, false, 0x0, 0x0, 0x0, 0x0⟩,
  ⟨"AFE_CH_CFG", 0xE00B1000, [(176, 0x8)], 0x0, false, 0x0, 0x0, 0x0, 0xF1⟩,
  ⟨"AFE_CH_SUBST", 0xE00B1004, [(176, 0x8)], 0x0, false, 0x0, 0x0, 0x0, 0xFFFFFFFF⟩]

/-- Rows of block CLO (11_field_outputs.md). -/
def regRowsCLO1 : List RegDesc := [
  ⟨"CLO_READMIT", 0xE00C0000, [], 0x0, false, 0x0, 0x0, 0xF, 0x0⟩,
  ⟨"CLO_CLR", 0xE00C0004, [], 0x0, false, 0x0, 0x0, 0xFFFF, 0x0⟩,
  ⟨"CLO_FLT", 0xE00C0008, [], 0x0, false, 0x0, 0xFFFFFFFF, 0x0, 0x0⟩,
  ⟨"CLO_IRQ_EN", 0xE00C000C, [], 0x0, false, 0x3, 0x0, 0x0, 0x0⟩,
  ⟨"CLO_CFG", 0xE00C0100, [(16, 0x20)], 0x0, false, 0x0, 0x0, 0x0, 0xFF00FFFF⟩,
  ⟨"CLO_SRC", 0xE00C0104, [(16, 0x20)], 0x0, false, 0x0, 0x0, 0x0, 0x7FFF⟩,
  ⟨"CLO_SUBST", 0xE00C0108, [(16, 0x20)], 0x0, false, 0x0, 0x0, 0x0, 0xFFFFFFFF⟩,
  ⟨"CLO_STATUS", 0xE00C010C, [(16, 0x20)], 0x0, false, 0x0, 0x0, 0x0, 0x0⟩,
  ⟨"CLO_CODE", 0xE00C0110, [(16, 0x20)], 0x0, false, 0x0, 0x0, 0x0, 0x0⟩,
  ⟨"CLO_MEAS", 0xE00C0114, [(16, 0x20)], 0x0, false, 0x0, 0x0, 0x0, 0x0⟩,
  ⟨"CLO_HEAD", 0xE00C0118, [(16, 0x20)], 0x0, false, 0x0, 0x0, 0x0, 0x0⟩,
  ⟨"CLO_LATE", 0xE00C011C, [(16, 0x20)], 0x0, false, 0x0, 0x0, 0x0, 0x0⟩,
  ⟨"HART_CFG", 0xE00C0800, [(16, 0x10)], 0x5, false, 0x31F, 0x0, 0x0, 0x80000000⟩,
  ⟨"HART_CMD", 0xE00C0804, [(16, 0x10)], 0x0, false, 0x0, 0x0, 0x1, 0x0⟩,
  ⟨"HART_RES", 0xE00C0808, [(16, 0x10)], 0x0, false, 0x0, 0x100, 0x0, 0x0⟩,
  ⟨"HART_TX", 0xE00C4000, [(16, 0x400), (80, 0x4)], 0x0, false, 0xFFFFFFFF, 0x0, 0x0, 0x0⟩,
  ⟨"HART_RSP", 0xE00C4140, [(16, 0x400), (80, 0x4)], 0x0, false, 0x0, 0x0, 0x0, 0x0⟩,
  ⟨"HART_BURST", 0xE00C4280, [(16, 0x400), (80, 0x4)], 0x0, false, 0x0, 0x0, 0x0, 0x0⟩]

/-- Rows of block VDR (11_field_outputs.md). -/
def regRowsVDR1 : List RegDesc := [
  ⟨"VDR_READMIT", 0xE00D0000, [], 0x0, false, 0x0, 0x0, 0x3F, 0x0⟩,
  ⟨"VDR_IRQ_EN", 0xE00D0004, [], 0x0, false, 0x3, 0x0, 0x0, 0x0⟩,
  ⟨"VDR_CMD", 0xE00D0010, [(2, 0x4)], 0x0, false, 0x0, 0x0, 0x0, 0x0⟩,
  ⟨"VDR_OUT", 0xE00D0018, [(2, 0x4)], 0x0, false, 0x0, 0x0, 0x0, 0x0⟩,
  ⟨"VDR_TRIP", 0xE00D0020, [(2, 0x4)], 0x0, false, 0x0, 0xFFFFFFFF, 0x0, 0x0⟩,
  ⟨"VDR_OT", 0xE00D0028, [(2, 0x4)], 0x0, false, 0x0, 0xFFFFFFFF, 0x0, 0x0⟩,
  ⟨"VDR_OPEN", 0xE00D0030, [(2, 0x4)], 0x0, false, 0x0, 0x0, 0x0, 0x0⟩,
  ⟨"VDR_GRP", 0xE00D0040, [], 0x0, false, 0x0, 0xF0, 0x0, 0x0⟩,
  ⟨"VDR_CFG", 0xE00D0100, [(64, 0x10)], 0x0, false, 0x0, 0x0, 0x0, 0xFFFFFE00⟩,
  ⟨"VDR_HEAT", 0xE00D0104, [(64, 0x10)], 0x0, false, 0x0, 0x0, 0x0, 0x3FFFFC00⟩,
  ⟨"VDR_STATUS", 0xE00D0108, [(64, 0x10)], 0x0, false, 0x0, 0x0, 0x0, 0xFFFFFFF0⟩,
  ⟨"VDR_ZC", 0xE00D010C, [(64, 0x10)], 0x0, false, 0x0, 0x0, 0x0, 0xFFFFFFFF⟩]

/-- Rows of block PVM (14_pavilion.md). -/
def regRowsPVM1 : List RegDesc := [
  ⟨"PVM_STATUS", 0xE00E0000, [], 0x0, false, 0x0, 0x0, 0x0, 0x0⟩,
  ⟨"PVM_SWITCH", 0xE00E0004, [], 0x0, false, 0x0, 0x0, 0x0, 0x0⟩,
  ⟨"PVM_PAR_CRC", 0xE00E0008, [], 0x0, false, 0x0, 0x0, 0x0, 0x0⟩,
  ⟨"PVM_IRQ", 0xE00E000C, [], 0x0, false, 0x0, 0x7F, 0x0, 0x0⟩,
  ⟨"PVM_IRQ_EN", 0xE00E0010, [], 0x0, false, 0x7F, 0x0, 0x0, 0x0⟩,
  ⟨"PVM_FUNC", 0xE00E0014, [], 0x0, false, 0x0, 0x0, 0x0, 0x0⟩,
  ⟨"PVM_SIN", 0xE00E0018, [], 0x0, false, 0x0, 0x0, 0x0, 0x0⟩,
  ⟨"PVM_GRP", 0xE00E001C, [], 0x0, false, 0x0, 0x0, 0x0, 0x0⟩,
  ⟨"PVM_BRK", 0xE00E0020, [], 0x0, false, 0x0, 0x0, 0x0, 0x0⟩,
  ⟨"PVM_PERMIT", 0xE00E0024, [], 0x0, false, 0x0, 0x0, 0x0, 0x0⟩,
  ⟨"PVM_BT", 0xE00E0040, [(8, 0x4)], 0x0, false, 0x0, 0x0, 0x0, 0x0⟩,
  ⟨"PVM_VCMD", 0xE00E0200, [(32, 0x4)], 0x0, false, 0x0, 0x0, 0x0, 0x0⟩,
  ⟨"PVM_VARM", 0xE00E0280, [], 0x0, false, 0x0, 0x0, 0x0, 0x0⟩,
  ⟨"PVM_MB_REQ", 0xE00E0400, [(2, 0x400), (144, 0x4)], 0x0, false, 0xFFFFFFFF, 0x0, 0x0, 0x0⟩,
  ⟨"PVM_MB_GO", 0xE00E0640, [(2, 0x400)], 0x0, false, 0x0, 0x0, 0x1, 0x0⟩,
  ⟨"PVM_MB_RSP", 0xE00E0680, [(2, 0x400), (8, 0x4)], 0x0, false, 0x0, 0x0, 0x0, 0x0⟩,
  ⟨"PVM_MB_STATUS", 0xE00E06A0, [(2, 0x400)], 0x0, false, 0x0, 0x2, 0x0, 0x0⟩,
  ⟨"PVM_CONN", 0xE00E0C00, [(64, 0x4)], 0x0, false, 0x0, 0x0, 0x0, 0x0⟩,
  ⟨"PVM_CONN_SEL", 0xE00E0D00, [], 0x0, false, 0x3FF, 0x0, 0x0, 0x0⟩,
  ⟨"PVM_CONN_SESSION", 0xE00E0D04, [], 0x0, false, 0x0, 0x0, 0x0, 0x0⟩,
  ⟨"PVM_CONN_RTT_MAX", 0xE00E0D08, [], 0x0, false, 0x0, 0x0, 0x0, 0x0⟩,
  ⟨"PVM_CONN_LOST", 0xE00E0D0C, [], 0x0, false, 0x0, 0x0, 0x0, 0x0⟩,
  ⟨"PVM_CONN_REJECT", 0xE00E0D10, [], 0x0, false, 0x0, 0x0, 0x0, 0x0⟩]

/-- Rows of block CYC (16_cyclic_program.md). -/
def regRowsCYC1 : List RegDesc := [
  ⟨"CYC_CMD", 0xE00F0000, [], 0x0, false, 0x0, 0x0, 0x7, 0x0⟩,
  ⟨"CYC_STATUS", 0xE00F0004, [], 0x0, false, 0x0, 0x0, 0x0, 0x0⟩,
  ⟨"CYC_IRQ", 0xE00F0008, [], 0x0, false, 0x0, 0x3E, 0x0, 0x0⟩,
  ⟨"CYC_IRQ_EN", 0xE00F000C, [], 0x0, false, 0x3F, 0x0, 0x0, 0x0⟩,
  ⟨"CYC_SRC_LO", 0xE00F0010, [], 0x0, false, 0xFFFFFFC0, 0x0, 0x0, 0x0⟩,
  ⟨"CYC_SRC_HI", 0xE00F0014, [], 0x0, false, 0xFF, 0x0, 0x0, 0x0⟩,
  ⟨"CYC_SRC_LEN", 0xE00F0018, [], 0x0, false, 0xFFFFFFFF, 0x0, 0x0, 0x0⟩,
  ⟨"CYC_RES", 0xE00F001C, [], 0x0, false, 0x0, 0x0, 0x0, 0x0⟩,
  ⟨"CYC_PROG_ID_LO", 0xE00F0020, [], 0x0, false, 0x0, 0x0, 0x0, 0x0⟩,
  ⟨"CYC_PROG_ID_HI", 0xE00F0024, [], 0x0, false, 0x0, 0x0, 0x0, 0x0⟩,
  ⟨"CYC_CNT", 0xE00F0028, [], 0x0, false, 0x0, 0x0, 0x0, 0x0⟩,
  ⟨"CYC_SKIP", 0xE00F002C, [], 0x0, false, 0x0, 0x0, 0x0, 0x0⟩,
  ⟨"CYC_IDLE_MIN", 0xE00F0030, [], 0x0, false, 0x0, 0x0, 0x0, 0x0⟩,
  ⟨"CYC_IDLE_MEAN", 0xE00F0034, [], 0x0, false, 0x0, 0x0, 0x0, 0x0⟩,
  ⟨"CYC_EXEC_MAX", 0xE00F0038, [], 0x0, false, 0x0, 0x0, 0x0, 0x0⟩,
  ⟨"CYC_WIN", 0xE00F003C, [], 0x3E8, false, 0xFFFF, 0x0, 0x0, 0x0⟩,
  ⟨"CYC_OC_SRC_LO", 0xE00F0040, [], 0x0, false, 0xFFFFFFF0, 0x0, 0x0, 0x0⟩,
  ⟨"CYC_OC_SRC_HI", 0xE00F0044, [], 0x0, false, 0xFF, 0x0, 0x0, 0x0⟩,
  ⟨"CYC_OC_N", 0xE00F0048, [], 0x0, false, 0x1FFF, 0x0, 0x0, 0x0⟩,
  ⟨"CYC_OC_RPT_LO", 0xE00F004C, [], 0x0, false, 0xFFFFFFF0, 0x0, 0x0, 0x0⟩,
  ⟨"CYC_OC_RPT_HI", 0xE00F0050, [], 0x0, false, 0xFF, 0x0, 0x0, 0x0⟩,
  ⟨"CYC_DONE", 0xE00F0054, [], 0x0, false, 0x0, 0x0, 0x1, 0x0⟩,
  ⟨"CYC_START_CSEQ", 0xE00F0058, [], 0x0, false, 0x0, 0x0, 0x0, 0x0⟩,
  ⟨"CYC_FRC_ACK", 0xE00F0060, [], 0x0, false, 0x0, 0x0, 0x1, 0x0⟩,
  ⟨"CYC_FRC0", 0xE00F4000, [(1024, 0x10)], 0x0, true, 0xBFFFFFFF, 0x0, 0x0, 0x0⟩,
  ⟨"CYC_FRC1", 0xE00F4004, [(1024, 0x10)], 0x0, true, 0x0, 0x0, 0x0, 0x0⟩,
  ⟨"CYC_FRC_VALUE_LO", 0xE00F4008, [(1024, 0x10)], 0x0, true, 0xFFFFFFFF, 0x0, 0x0, 0x0⟩,
  ⟨"CYC_FRC_VALUE_HI", 0xE00F400C, [(1024, 0x10)], 0x0, true, 0xFFFFFFFF, 0x0, 0x0, 0x0⟩]

/-- Rows of block PLK (15_redundant_pair.md). -/
def regRowsPLK1 : List RegDesc := [
  ⟨"PLK_CTRL", 0xE0100000, [], 0x0, false, 0x0, 0x0, 0xFF07, 0x0⟩,
  ⟨"PLK_CFG", 0xE0100004, [], 0x14, false, 0x0, 0x0, 0x0, 0x800300FF⟩,
  ⟨"PLK_PARTNER", 0xE0100008, [], 0x0, false, 0x0, 0x0, 0x0, 0xFFFF⟩,
  ⟨"PLK_MIRROR", 0xE010000C, [], 0x100, false, 0x0, 0x0, 0x0, 0xFF07⟩,
  ⟨"PLK_STATUS", 0xE0100010, [], 0x0, false, 0x0, 0x200000, 0x0, 0x0⟩,
  ⟨"PLK_EPOCH_LO", 0xE0100014, [], 0x0, false, 0x0, 0x0, 0x0, 0x0⟩,
  ⟨"PLK_EPOCH_HI", 0xE0100018, [], 0x0, false, 0x0, 0x0, 0x0, 0x0⟩,
  ⟨"PLK_PEPOCH_LO", 0xE010001C, [], 0x0, false, 0x0, 0x0, 0x0, 0x0⟩,
  ⟨"PLK_PEPOCH_HI", 0xE0100020, [], 0x0, false, 0x0, 0x0, 0x0, 0x0⟩,
  ⟨"PLK_MSEQ", 0xE0100024, [], 0x0, false, 0x0, 0x0, 0x0, 0x0⟩,
  ⟨"PLK_GAP", 0xE0100028, [], 0x0, false, 0x0, 0x0, 0x0, 0x0⟩,
  ⟨"PLK_RATE", 0xE010002C, [], 0x0, false, 0x0, 0x0, 0x0, 0x0⟩,
  ⟨"PLK_TAKES", 0xE0100030, [], 0x0, false, 0x0, 0x0, 0x0, 0x0⟩,
  ⟨"PLK_IRQ", 0xE0100034, [], 0x0, false, 0x0, 0x1F, 0x0, 0x0⟩,
  ⟨"PLK_IRQ_EN", 0xE0100038, [], 0x0, false, 0x1F, 0x0, 0x0, 0x0⟩,
  ⟨"PLK_RCP_MISMATCH", 0xE010003C, [], 0x0, false, 0x0, 0x0, 0x0, 0x0⟩]

/-- Rows of block CAN_n (12_can.md). -/
def regRowsCANn1 : List RegDesc := [
  ⟨"CAN_CTRL", 0xE0200000, [(8, 0x10000)], 0x0, false, 0x0, 0x0, 0x2, 0x3FF73D⟩,
  ⟨"CAN_NBT", 0xE0200004, [(8, 0x10000)], 0x0, false, 0x0, 0x0, 0x0, 0x7FFFFFFF⟩,
  ⟨"CAN_DBT", 0xE0200008, [(8, 0x10000)], 0x0, false, 0x0, 0x0, 0x0, 0x1FFFFFF⟩,
  ⟨"CAN_STATUS", 0xE020000C, [(8, 0x10000)], 0x30000, false, 0x0, 0x0, 0x0, 0x0⟩,
  ⟨"CAN_IRQ", 0xE0200010, [(8, 0x10000)], 0x0, false, 0x0, 0x7FFFF, 0x0, 0x0⟩,
  ⟨"CAN_IRQ_EN", 0xE0200014, [(8, 0x10000)], 0x0, false, 0x7FFFF, 0x0, 0x0, 0x0⟩,
  ⟨"CAN_LOST", 0xE0200018, [(8, 0x10000)], 0x0, false, 0x0, 0x0, 0x0, 0x0⟩,
  ⟨"CAN_BOFF", 0xE020001C, [(8, 0x10000)], 0x0, false, 0x0, 0x0, 0x0, 0x0⟩,
  ⟨"CAN_MAPOVR", 0xE0200020, [(8, 0x10000)], 0x0, false, 0x0, 0x0, 0x0, 0x0⟩,
  ⟨"CAN_READMIT", 0xE0200024, [(8, 0x10000)], 0x0, false, 0x0, 0x0, 0x1, 0x0⟩,
  ⟨"RXB_NEW", 0xE0200040, [(8, 0x10000), (2, 0x4)], 0x0, false, 0x0, 0x0, 0x0, 0x0⟩,
  ⟨"RXB_OVW", 0xE0200048, [(8, 0x10000), (2, 0x4)], 0x0, false, 0x0, 0xFFFFFFFF, 0x0, 0x0⟩,
  ⟨"RXB_LOCK", 0xE0200050, [(8, 0x10000), (2, 0x4)], 0x0, false, 0x0, 0x0, 0x0, 0x0⟩,
  ⟨"RXB_REL", 0xE0200058, [(8, 0x10000), (2, 0x4)], 0x0, false, 0x0, 0x0, 0xFFFFFFFF, 0x0⟩,
  ⟨"RXF_STATUS", 0xE0200060, [(8, 0x10000), (2, 0x8)], 0x0, false, 0x0, 0x0, 0x0, 0x0⟩,
  ⟨"RXF_ACK", 0xE0200064, [(8, 0x10000), (2, 0x8)], 0x0, false, 0x0, 0x0, 0x1F, 0x0⟩,
  ⟨"TXB_REQ", 0xE0200080, [(8, 0x10000)], 0x0, false, 0x0, 0x0, 0xFFFFFFFF, 0x0⟩,
  ⟨"TXB_PEND", 0xE0200084, [(8, 0x10000)], 0x0, false, 0x0, 0x0, 0x0, 0x0⟩,
  ⟨"TXB_CANCEL", 0xE0200088, [(8, 0x10000)], 0x0, false, 0x0, 0x0, 0xFFFFFFFF, 0x0⟩,
  ⟨"TXB_DONE", 0xE020008C, [(8, 0x10000)], 0x0, false, 0x0, 0xFFFFFFFF, 0x0, 0x0⟩,
  ⟨"TXB_CANCELLED", 0xE0200090, [(8, 0x10000)], 0x0, false, 0x0, 0xFFFFFFFF, 0x0, 0x0⟩,
  ⟨"TXB_MAPPED", 0xE0200094, [(8, 0x10000)], 0x0, false, 0x0, 0x0, 0x0, 0xFFFFFFFF⟩,
  ⟨"TXC_STATUS", 0xE0200098, [(8, 0x10000)], 0x0, false, 0x0, 0x10000, 0x0, 0x0⟩,
  ⟨"TXC_APPEND", 0xE020009C, [(8, 0x10000)], 0x0, false, 0x0, 0x0, 0x1F, 0x0⟩,
  ⟨"TXJ_STATUS", 0xE02000A0, [(8, 0x10000)], 0x0, false, 0x0, 0x0, 0x0, 0x0⟩,
  ⟨"TXJ_ACK", 0xE02000A4, [(8, 0x10000)], 0x0, false, 0x0, 0x0, 0x1F, 0x0⟩,
  ⟨"CAN_FILTER", 0xE0208000, [(8, 0x10000), (256, 0x8), (2, 0x4)], 0x0, false, 0x0, 0x0, 0x0, 0xFFFFFFFF⟩,
  ⟨"CAN_RXMAP", 0xE0208800, [(8, 0x10000), (64, 0x10), (4, 0x4)], 0x0, false, 0x0, 0x0, 0x0, 0xFFFFFFFF⟩,
  ⟨"CAN_TXMAP", 0xE0208C00, [(8, 0x10000), (64, 0x10), (4, 0x4)], 0x0, false, 0x0, 0x0, 0x0, 0xFFFFFFFF⟩,
  ⟨"CAN_RXB", 0xE0209000, [(8, 0x10000), (64, 0x80), (32, 0x4)], 0x0, false, 0x0, 0x0, 0x0, 0x0⟩,
  ⟨"CAN_RXF", 0xE020B000, [(8, 0x10000), (2, 0xC00), (32, 0x60), (24, 0x4)], 0x0, false, 0x0, 0x0, 0x0, 0x0⟩,
  ⟨"CAN_TXB", 0xE020C800, [(8, 0x10000), (32, 0x60), (20, 0x4)], 0x0, false, 0xFFFFFFFF, 0x0, 0x0, 0x0⟩,
  ⟨"CAN_TXB_PAD", 0xE020C850, [(8, 0x10000), (32, 0x60), (4, 0x4)], 0x0, false, 0x0, 0x0, 0x0, 0x0⟩,
  ⟨"CAN_TXJ", 0xE020D400, [(8, 0x10000), (32, 0x20), (8, 0x4)], 0x0, false, 0x0, 0x0, 0x0, 0x0⟩]

/-- Rows of block ETH_n (13_ethernet_and_host.md). -/
def regRowsETHn1 : List RegDesc := [
  ⟨"ETH_CTRL", 0xE0300000, [(6, 0x10000)], 0x0, false, 0x0, 0x0, 0x0, 0x7⟩,
  ⟨"ETH_STATUS", 0xE0300004, [(6, 0x10000)], 0x0, false, 0x0, 0x0, 0x0, 0x0⟩,
  ⟨"ETH_IRQ", 0xE0300008, [(6, 0x10000)], 0x0, false, 0x0, 0xF, 0x0, 0x0⟩,
  ⟨"ETH_IRQ_EN", 0xE030000C, [(6, 0x10000)], 0x0, false, 0xF, 0x0, 0x0, 0x0⟩,
  ⟨"ETH_PRP", 0xE0300010, [(6, 0x10000)], 0x7D01770, false, 0x0, 0x0, 0x0, 0xFFFFFFFF⟩,
  ⟨"ETH_DD", 0xE0300014, [(6, 0x10000)], 0x190, false, 0x0, 0x0, 0x0, 0x3FF⟩,
  ⟨"ETH_CNT_RXF", 0xE0300020, [(6, 0x10000)], 0x0, false, 0x0, 0x0, 0x0, 0x0⟩,
  ⟨"ETH_CNT_TXF", 0xE0300024, [(6, 0x10000)], 0x0, false, 0x0, 0x0, 0x0, 0x0⟩,
  ⟨"ETH_CNT_FCS", 0xE0300028, [(6, 0x10000)], 0x0, false, 0x0, 0x0, 0x0, 0x0⟩,
  ⟨"ETH_CNT_DUP", 0xE030002C, [(6, 0x10000)], 0x0, false, 0x0, 0x0, 0x0, 0x0⟩,
  ⟨"ETH_CNT_DD_OVF", 0xE0300030, [(6, 0x10000)], 0x0, false, 0x0, 0x0, 0x0, 0x0⟩,
  ⟨"ETH_CNT_WRONG_LAN", 0xE0300034, [(6, 0x10000)], 0x0, false, 0x0, 0x0, 0x0, 0x0⟩,
  ⟨"ETH_CNT_VLAN_DROP", 0xE0300038, [(6, 0x10000)], 0x0, false, 0x0, 0x0, 0x0, 0x0⟩,
  ⟨"ETH_CNT_SEC_DROP", 0xE030003C, [(6, 0x10000)], 0x0, false, 0x0, 0x0, 0x0, 0x0⟩,
  ⟨"ETH_CNT_FRX_DROP", 0xE0300040, [(6, 0x10000)], 0x0, false, 0x0, 0x0, 0x0, 0x0⟩,
  ⟨"ETH_CNT_RRA_AUTH", 0xE0300044, [(6, 0x10000)], 0x0, false, 0x0, 0x0, 0x0, 0x0⟩,
  ⟨"ETH_PTP", 0xE0300050, [(6, 0x10000)], 0x0, false, 0x3, 0x0, 0x0, 0x0⟩,
  ⟨"ETH_TXTS_SEC", 0xE0300054, [(6, 0x10000)], 0x0, false, 0x0, 0x0, 0x0, 0x0⟩,
  ⟨"ETH_TXTS_NSEC", 0xE0300058, [(6, 0x10000)], 0x0, false, 0x0, 0x0, 0x0, 0x0⟩,
  ⟨"ETH_TXTS_HI", 0xE030005C, [(6, 0x10000)], 0x0, false, 0x0, 0x0, 0x0, 0x0⟩,
  ⟨"ETH_TXTS", 0xE0300060, [(6, 0x10000)], 0x0, false, 0x0, 0x0, 0x0, 0x0⟩,
  ⟨"ETH_QBV_BASE_LO", 0xE0300070, [(6, 0x10000)], 0x0, false, 0x0, 0x0, 0x0, 0xFFFFFFFF⟩,
  ⟨"ETH_QBV_BASE_HI", 0xE0300074, [(6, 0x10000)], 0x0, false, 0x0, 0x0, 0x0, 0xFFFFFFFF⟩,
  ⟨"ETH_QBV_NENT", 0xE0300078, [(6, 0x10000)], 0x0, false, 0x0, 0x0, 0x0, 0xFF⟩,
  ⟨"ETH_FRX_STATUS", 0xE0300080, [(6, 0x10000)], 0x0, false, 0x0, 0x0, 0x0, 0x0⟩,
  ⟨"ETH_FRX_ACK", 0xE0300084, [(6, 0x10000)], 0x0, false, 0x0, 0x0, 0xF, 0x0⟩,
  ⟨"ETH_FTX_GO", 0xE0300088, [(6, 0x10000)], 0x0, false, 0x0, 0x0, 0xFF, 0x0⟩,
  ⟨"ETH_READMIT", 0xE030008C, [(6, 0x10000)], 0x0, false, 0x0, 0x0, 0x1, 0x0⟩,
  ⟨"ETH_SA_CFG", 0xE0300100, [(6, 0x10000), (10, 0x10)], 0x0, false, 0x8000FFFF, 0x0, 0x0, 0x0⟩,
  ⟨"ETH_SA_SSCI", 0xE0300104, [(6, 0x10000), (10, 0x10)], 0x0, false, 0xFFFFFFFF, 0x0, 0x0, 0x0⟩,
  ⟨"ETH_SA_PN_LO", 0xE0300108, [(6, 0x10000), (10, 0x10)], 0x0, false, 0x0, 0x0, 0x0, 0x0⟩,
  ⟨"ETH_SA_PN_HI", 0xE030010C, [(6, 0x10000), (10, 0x10)], 0x0, false, 0x0, 0x0, 0x0, 0x0⟩,
  ⟨"ETH_GCL", 0xE0300400, [(6, 0x10000), (128, 0x4)], 0x0, false, 0x0, 0x0, 0x0, 0xFFFFFFFF⟩,
  ⟨"ETH_FTX", 0xE0304000, [(6, 0x10000), (8, 0x800), (512, 0x4)], 0x0, false, 0xFFFFFFFF, 0x0, 0x0, 0x0⟩,
  ⟨"ETH_FRX", 0xE0308000, [(6, 0x10000), (16, 0x800), (512, 0x4)], 0x0, false, 0x0, 0x0, 0x0, 0x0⟩]

/-- Rows of block ETH_4 (13_ethernet_and_host.md). -/
def regRowsETH41 : List RegDesc := [
  ⟨"ETH_HOST_IP", 0xE0340200, [], 0x0, false, 0x0, 0x0, 0x0, 0xFFFFFFFF⟩,
  ⟨"ETH_HOST_RRA_PORT", 0xE0340204, [], 0x0, false, 0x0, 0x0, 0x0, 0xFFFF⟩,
  ⟨"ETH_HOST_REC_PORT", 0xE0340208, [], 0x0, false, 0x0, 0x0, 0x0, 0xFFFF⟩,
  ⟨"ETH_HOST_REC_DST_IP", 0xE034020C, [], 0x0, false, 0x0, 0x0, 0x0, 0xFFFFFFFF⟩,
  ⟨"ETH_HOST_REC_DST_PORT", 0xE0340210, [], 0x0, false, 0x0, 0x0, 0x0, 0xFFFF⟩,
  ⟨"ETH_HOST_REC_DST_MAC_LO", 0xE0340214, [], 0x0, false, 0x0, 0x0, 0x0, 0xFFFFFFFF⟩,
  ⟨"ETH_HOST_REC_DST_MAC_HI", 0xE0340218, [], 0x0, false, 0x0, 0x0, 0x0, 0xFFFF⟩,
  ⟨"ETH_HOST_REC_RATE", 0xE034021C, [], 0x0, false, 0x0, 0x0, 0x0, 0x3FFF⟩]

/-- Rows of block COX (04_cox.md). -/
def regRowsCOX1 : List RegDesc := [
  ⟨"COX_ID", 0xE1000000, [(9, 0x100000)], 0xFF, false, 0x0, 0x0, 0x0, 0xFFFF0000⟩,
  ⟨"COX_STATUS", 0xE1000004, [(9, 0x100000)], 0x0, false, 0x0, 0xF, 0x0, 0x0⟩,
  ⟨"COX_IRQ_EN", 0xE1000008, [(9, 0x100000)], 0x0, false, 0x3FF, 0x0, 0x0, 0x0⟩,
  ⟨"COX_WIN", 0xE100000C, [(9, 0x100000)], 0x4E20, false, 0xFFFF, 0x0, 0x0, 0x0⟩,
  ⟨"COX_WIN_SEQ", 0xE1000010, [(9, 0x100000)], 0x0, false, 0x0, 0x0, 0x0, 0x0⟩,
  ⟨"COX_WIN_CYC", 0xE1000014, [(9, 0x100000)], 0x0, false, 0x0, 0x0, 0x0, 0x0⟩,
  ⟨"COX_CLR", 0xE1000018, [(9, 0x100000)], 0x0, false, 0x0, 0x0, 0x7, 0x0⟩,
  ⟨"COX_DEPTH", 0xE1000040, [(9, 0x100000), (8, 0x4)], 0x0, false, 0x0, 0x0, 0x0, 0x0⟩,
  ⟨"COX_WAITMAX", 0xE1000060, [(9, 0x100000), (8, 0x4)], 0x0, false, 0x0, 0x0, 0x0, 0x0⟩,
  ⟨"COX_BUSY", 0xE1000080, [(9, 0x100000), (12, 0x4)], 0x0, false, 0x0, 0x0, 0x0, 0x0⟩,
  ⟨"COX_TOT_DISP", 0xE10000C0, [(9, 0x100000)], 0x0, false, 0x0, 0x0, 0x0, 0x0⟩,
  ⟨"COX_TOT_STALE", 0xE10000C4, [(9, 0x100000)], 0x0, false, 0x0, 0x0, 0x0, 0x0⟩,
  ⟨"COX_TOT_DROP", 0xE10000C8, [(9, 0x100000)], 0x0, false, 0x0, 0x0, 0x0, 0x0⟩,
  ⟨"COX_TOT_LATE", 0xE10000CC, [(9, 0x100000)], 0x0, false, 0x0, 0x0, 0x0, 0x0⟩,
  ⟨"COX_TOT_RETRY", 0xE10000D0, [(9, 0x100000)], 0x0, false, 0x0, 0x0, 0x0, 0x0⟩,
  ⟨"COX_TOT_WAITX", 0xE10000D4, [(9, 0x100000)], 0x0, false, 0x0, 0x0, 0x0, 0x0⟩,
  ⟨"COX_DP_STATUS", 0xE1001000, [(9, 0x100000), (8, 0x80)], 0x0, false, 0x0, 0x0, 0x0, 0x0⟩,
  ⟨"COX_DP_POP", 0xE1001004, [(9, 0x100000), (8, 0x80)], 0x0, false, 0x0, 0x0, 0x0, 0x0⟩,
  ⟨"COX_DP_VIEW", 0xE1001008, [(9, 0x100000), (8, 0x80), (13, 0x4)], 0x0, false, 0x0, 0x0, 0x0, 0x0⟩,
  ⟨"COX_DP_RES", 0xE1001040, [(9, 0x100000), (8, 0x80), (4, 0x8)], 0x0, false, 0x0, 0x0, 0xFFFFFFFF, 0x0⟩,
  ⟨"COX_DP_RST", 0xE1001044, [(9, 0x100000), (8, 0x80), (4, 0x8)], 0x0, false, 0x0, 0x0, 0xF, 0x0⟩,
  ⟨"COX_DP_DONE", 0xE1001060, [(9, 0x100000), (8, 0x80)], 0x0, false, 0x0, 0x0, 0x7, 0x0⟩,
  ⟨"COX_CTX_CFG", 0xE1004000, [(9, 0x100000), (512, 0x8)], 0x0, false, 0x0, 0x0, 0x0, 0xFFFEFFFF⟩,
  ⟨"COX_CTX_DL", 0xE1004004, [(9, 0x100000), (512, 0x8)], 0x0, false, 0x0, 0x0, 0x0, 0x33F⟩,
  ⟨"COX_CTX_WAIT_MAX", 0xE1008000, [(9, 0x100000), (512, 0x10)], 0x0, false, 0x0, 0x0, 0x0, 0x0⟩,
  ⟨"COX_CTX_WAIT_SUM", 0xE1008004, [(9, 0x100000), (512, 0x10)], 0x0, false, 0x0, 0x0, 0x0, 0x0⟩,
  ⟨"COX_CTX_DISP", 0xE1008008, [(9, 0x100000), (512, 0x10)], 0x0, false, 0x0, 0x0, 0x0, 0x0⟩,
  ⟨"COX_CTX_MISC", 0xE100800C, [(9, 0x100000), (512, 0x10)], 0x0, false, 0x0, 0x0, 0x0, 0x0⟩]

/-- Rows of block LPE (06_loop_law.md). -/
def regRowsLPE1 : List RegDesc := [
  ⟨"LPE_STATUS", 0xE1010000, [(9, 0x100000)], 0x0, false, 0x0, 0xF, 0x0, 0x0⟩,
  ⟨"LPE_IRQ_EN", 0xE1010004, [(9, 0x100000)], 0x0, false, 0xF, 0x0, 0x0, 0x0⟩,
  ⟨"LPE_UPDATES", 0xE1010008, [(9, 0x100000)], 0x0, false, 0x0, 0x0, 0x0, 0x0⟩,
  ⟨"LPE_PC_LOOP", 0xE1010010, [(9, 0x100000)], 0x0, false, 0x17F, 0x0, 0x0, 0x0⟩,
  ⟨"LPE_PC_CSEQ", 0xE1010014, [(9, 0x100000)], 0x0, false, 0xFFFFFFFF, 0x0, 0x0, 0x0⟩,
  ⟨"LPE_PC_MASK", 0xE1010018, [(9, 0x100000)], 0x0, false, 0x1FFF, 0x0, 0x0, 0x0⟩,
  ⟨"LPE_PC_CMD", 0xE101001C, [(9, 0x100000)], 0x0, false, 0x0, 0x0, 0x3, 0x0⟩,
  ⟨"LPE_PC_RES", 0xE1010020, [(9, 0x100000)], 0x0, false, 0x0, 0x0, 0x0, 0x0⟩,
  ⟨"LPE_PC_VAL", 0xE1010040, [(9, 0x100000), (13, 0x4)], 0x0, false, 0xFFFFFFFF, 0x0, 0x0, 0x0⟩,
  ⟨"LPE_MODE", 0xE1010100, [(9, 0x100000), (128, 0x4)], 0x0, false, 0x7, 0x0, 0x100, 0x0⟩,
  ⟨"LPE_LSTAT", 0xE1010300, [(9, 0x100000), (128, 0x4)], 0x0, false, 0x0, 0xC0, 0x0, 0x0⟩,
  ⟨"LPE_FB", 0xE1010500, [(9, 0x100000), (4, 0x4)], 0x0, false, 0x0, 0x0, 0x0, 0x0⟩,
  ⟨"LPE_REP", 0xE1010600, [(9, 0x100000), (128, 0x4)], 0x0, false, 0x0, 0x0, 0x3, 0x0⟩,
  ⟨"LPE_BND_MIN", 0xE1014000, [(9, 0x100000), (128, 0x80), (13, 0x8)], 0x0, false, 0x0, 0x0, 0x0, 0xFFFFFFFF⟩,
  ⟨"LPE_BND_MAX", 0xE1014004, [(9, 0x100000), (128, 0x80), (13, 0x8)], 0x0, false, 0x0, 0x0, 0x0, 0xFFFFFFFF⟩]

/-- Rows of block MOT (09_motion.md). -/
def regRowsMOT1 : List RegDesc := [
  ⟨"MOT_STATUS", 0xE1020000, [(9, 0x100000)], 0x0, false, 0x0, 0xFFFF, 0x0, 0x0⟩,
  ⟨"MOT_IRQ_EN", 0xE1020004, [(9, 0x100000)], 0x0, false, 0xFFFF, 0x0, 0x0, 0x0⟩,
  ⟨"AX_CMD", 0xE1020100, [(9, 0x100000), (4, 0x100)], 0x0, false, 0x0, 0x0, 0xFF0F, 0x0⟩,
  ⟨"AX_STATE", 0xE1020104, [(9, 0x100000), (4, 0x100)], 0x0, false, 0x0, 0x60, 0x0, 0x0⟩,
  ⟨"AX_POS_LO", 0xE1020108, [(9, 0x100000), (4, 0x100)], 0x0, false, 0x0, 0x0, 0x0, 0x0⟩,
  ⟨"AX_POS_HI", 0xE102010C, [(9, 0x100000), (4, 0x100)], 0x0, false, 0x0, 0x0, 0x0, 0x0⟩,
  ⟨"AX_VEL_LO", 0xE1020110, [(9, 0x100000), (4, 0x100)], 0x0, false, 0x0, 0x0, 0x0, 0x0⟩,
  ⟨"AX_VEL_HI", 0xE1020114, [(9, 0x100000), (4, 0x100)], 0x0, false, 0x0, 0x0, 0x0, 0x0⟩,
  ⟨"AX_STOP_LO", 0xE1020118, [(9, 0x100000), (4, 0x100)], 0x0, false, 0x0, 0x0, 0x0, 0x0⟩,
  ⟨"AX_STOP_HI", 0xE102011C, [(9, 0x100000), (4, 0x100)], 0x0, false, 0x0, 0x0, 0x0, 0x0⟩,
  ⟨"AX_STEPS", 0xE1020120, [(9, 0x100000), (4, 0x100)], 0x0, false, 0x0, 0x0, 0x0, 0x0⟩,
  ⟨"AX_MOVE", 0xE1020124, [(9, 0x100000), (4, 0x100)], 0x0, false, 0x0, 0x0, 0x0, 0x0⟩,
  ⟨"AX_QUEUE", 0xE1020128, [(9, 0x100000), (4, 0x100)], 0x0, false, 0x0, 0x0, 0x0, 0x0⟩,
  ⟨"AX_LOAD", 0xE102012C, [(9, 0x100000), (4, 0x100)], 0x0, false, 0x0, 0x0, 0x0, 0x0⟩,
  ⟨"AX_EMF", 0xE1020130, [(9, 0x100000), (4, 0x100)], 0x0, false, 0x0, 0x0, 0x0, 0x0⟩,
  ⟨"AX_GEAR_NUM", 0xE1020134, [(9, 0x100000), (4, 0x100)], 0x0, false, 0xFFFFFFFF, 0x0, 0x0, 0x0⟩,
  ⟨"AX_GEAR_DEN", 0xE1020138, [(9, 0x100000), (4, 0x100)], 0x0, false, 0xFFFFFFFF, 0x0, 0x0, 0x0⟩,
  ⟨"AX_GEAR_MSW_LO", 0xE102013C, [(9, 0x100000), (4, 0x100)], 0x0, false, 0xFFFFFFFF, 0x0, 0x0, 0x0⟩,
  ⟨"AX_GEAR_MSW_HI", 0xE1020140, [(9, 0x100000), (4, 0x100)], 0x0, false, 0xFFFF, 0x0, 0x0, 0x0⟩,
  ⟨"AX_GEAR_BLEND", 0xE1020144, [(9, 0x100000), (4, 0x100)], 0x0, false, 0xFFFFFFFF, 0x0, 0x0, 0x0⟩,
  ⟨"AX_GEAR_CFG", 0xE1020148, [(9, 0x100000), (4, 0x100)], 0x0, false, 0xF, 0x0, 0x0, 0x0⟩,
  ⟨"AX_HOME_VAL_LO", 0xE102014C, [(9, 0x100000), (4, 0x100)], 0x0, false, 0xFFFFFFFF, 0x0, 0x0, 0x0⟩,
  ⟨"AX_HOME_VAL_HI", 0xE1020150, [(9, 0x100000), (4, 0x100)], 0x0, false, 0xFFFFFFFF, 0x0, 0x0, 0x0⟩,
  ⟨"AX_CFG", 0xE1020180, [(9, 0x100000), (4, 0x100)], 0x0, false, 0x0, 0x0, 0x0, 0xFC0FFF00⟩,
  ⟨"AX_INPUTS", 0xE1020184, [(9, 0x100000), (4, 0x100)], 0x0, false, 0x0, 0x0, 0x0, 0x7FFFFFF⟩,
  ⟨"AX_STEP_T", 0xE1020188, [(9, 0x100000), (4, 0x100)], 0x0, false, 0x0, 0x0, 0x0, 0x3FFFFFFF⟩,
  ⟨"AX_A_STOP", 0xE102018C, [(9, 0x100000), (4, 0x100)], 0x0, false, 0x0, 0x0, 0x0, 0xFFFFFFFF⟩,
  ⟨"AX_A_LIM", 0xE1020190, [(9, 0x100000), (4, 0x100)], 0x0, false, 0x0, 0x0, 0x0, 0xFFFFFFFF⟩,
  ⟨"AX_J_STOP", 0xE1020194, [(9, 0x100000), (4, 0x100)], 0x0, false, 0x0, 0x0, 0x0, 0xFFFFFFFF⟩,
  ⟨"AX_VMAX_LO", 0xE1020198, [(9, 0x100000), (4, 0x100)], 0x0, false, 0x0, 0x0, 0x0, 0xFFFFFFFF⟩,
  ⟨"AX_VMAX_HI", 0xE102019C, [(9, 0x100000), (4, 0x100)], 0x0, false, 0x0, 0x0, 0x0, 0xFFFFFFFF⟩,
  ⟨"AX_V_SS", 0xE10201A0, [(9, 0x100000), (4, 0x100)], 0x0, false, 0x0, 0x0, 0x0, 0xFFFFFFFF⟩,
  ⟨"AX_SLIM_LO_LO", 0xE10201A4, [(9, 0x100000), (4, 0x100)], 0x0, false, 0x0, 0x0, 0x0, 0xFFFFFFFF⟩,
  ⟨"AX_SLIM_LO_HI", 0xE10201A8, [(9, 0x100000), (4, 0x100)], 0x0, false, 0x0, 0x0, 0x0, 0xFFFFFFFF⟩,
  ⟨"AX_SLIM_HI_LO", 0xE10201AC, [(9, 0x100000), (4, 0x100)], 0x0, false, 0x0, 0x0, 0x0, 0xFFFFFFFF⟩,
  ⟨"AX_SLIM_HI_HI", 0xE10201B0, [(9, 0x100000), (4, 0x100)], 0x0, false, 0x0, 0x0, 0x0, 0xFFFFFFFF⟩,
  ⟨"AX_HOME_VEL", 0xE10201B4, [(9, 0x100000), (4, 0x100)], 0x0, false, 0x0, 0x0, 0x0, 0xFFFFFFFF⟩,
  ⟨"AX_HOME_A", 0xE10201B8, [(9, 0x100000), (4, 0x100)], 0x0, false, 0x0, 0x0, 0x0, 0xFFFFFFFF⟩,
  ⟨"AX_HOME_CLEAR", 0xE10201BC, [(9, 0x100000), (4, 0x100)], 0x0, false, 0x0, 0x0, 0x0, 0xFFFFFFFF⟩,
  ⟨"AX_HOME_MAXDIST", 0xE10201C0, [(9, 0x100000), (4, 0x100)], 0x0, false, 0x0, 0x0, 0x0, 0xFFFFFFFF⟩]

/-- Rows of block MOT (09_motion.md). -/
def regRowsMOT2 : List RegDesc := [
  ⟨"AX_HOME_PARK", 0xE10201C4, [(9, 0x100000), (4, 0x100)], 0x0, false, 0x0, 0x0, 0x0, 0xFFFFFFFF⟩,
  ⟨"AX_RT", 0xE10201C8, [(9, 0x100000), (4, 0x100)], 0x3E8, false, 0x0, 0x0, 0x0, 0x1FFFF⟩,
  ⟨"AX_RWIND", 0xE10201CC, [(9, 0x100000), (4, 0x100)], 0x0, false, 0x0, 0x0, 0x0, 0xFFFFFFFF⟩,
  ⟨"AX_LWIND", 0xE10201D0, [(9, 0x100000), (4, 0x100)], 0x0, false, 0x0, 0x0, 0x0, 0xFFFFFFFF⟩,
  ⟨"AX_KE", 0xE10201D4, [(9, 0x100000), (4, 0x100)], 0x0, false, 0x0, 0x0, 0x0, 0xFFFFFFFF⟩,
  ⟨"AX_DMAX", 0xE10201D8, [(9, 0x100000), (4, 0x100)], 0x0, false, 0x0, 0x0, 0x0, 0xFFFFFFFF⟩,
  ⟨"AX_EMF_FRAC", 0xE10201DC, [(9, 0x100000), (4, 0x100)], 0x0, false, 0x0, 0x0, 0x0, 0xFFFFFFFF⟩,
  ⟨"AX_VMIN", 0xE10201E0, [(9, 0x100000), (4, 0x100)], 0x0, false, 0x0, 0x0, 0x0, 0xFFFFFFFF⟩,
  ⟨"AX_THETA0", 0xE10201E4, [(9, 0x100000), (4, 0x100)], 0x0, false, 0x0, 0x0, 0x0, 0xFFFFFFFF⟩,
  ⟨"AX_HSTALL", 0xE10201E8, [(9, 0x100000), (4, 0x100)], 0x0, false, 0x0, 0x0, 0x0, 0xFFFFFFFF⟩,
  ⟨"AX_STALL_CFG", 0xE10201EC, [(9, 0x100000), (4, 0x100)], 0x0, false, 0x0, 0x0, 0x0, 0xFFFFFF⟩,
  ⟨"AX_EVT_SIG", 0xE10201F0, [(9, 0x100000), (4, 0x100)], 0x0, false, 0x0, 0x0, 0x0, 0x80000FFF⟩,
  ⟨"MT_ADDR_LO", 0xE1021000, [(9, 0x100000), (64, 0x10)], 0x0, false, 0xFFFFFFE0, 0x0, 0x0, 0x0⟩,
  ⟨"MT_ADDR_HI", 0xE1021004, [(9, 0x100000), (64, 0x10)], 0x0, false, 0xFF, 0x0, 0x0, 0x0⟩,
  ⟨"MT_NSEG", 0xE1021008, [(9, 0x100000), (64, 0x10)], 0x0, false, 0xFFFFFF, 0x0, 0x0, 0x0⟩,
  ⟨"MT_CTRL", 0xE102100C, [(9, 0x100000), (64, 0x10)], 0x0, false, 0x1, 0x0, 0x0, 0x0⟩]

/-- Rows of block ACQ (05_analogue_acquisition.md). -/
def regRowsACQ1 : List RegDesc := [
  ⟨"ACQ_SRC", 0xE1030000, [(9, 0x100000)], 0x0, false, 0x0, 0x0, 0x0, 0x0⟩,
  ⟨"ACQ_TOK", 0xE1030004, [(9, 0x100000)], 0x0, false, 0x0, 0x0, 0x0, 0x0⟩,
  ⟨"ACQ_TAGERR", 0xE1030008, [(9, 0x100000)], 0x0, false, 0x0, 0x0, 0x0, 0x0⟩]

/-- Rows of block CDM (17_data_movement_and_integrity.md). -/
def regRowsCDM1 : List RegDesc := [
  ⟨"CDM_STATUS", 0xE1040000, [(9, 0x100000)], 0x0, false, 0x0, 0xFFFF, 0x0, 0x0⟩,
  ⟨"CDM_READMIT", 0xE1040004, [(9, 0x100000)], 0x0, false, 0x0, 0x0, 0x7, 0x0⟩,
  ⟨"CDM_CH_CFG", 0xE1040100, [(9, 0x100000), (8, 0x80)], 0x0, false, 0x0, 0x0, 0x0, 0xFF0301FF⟩,
  ⟨"CDM_CH_MODE", 0xE1040104, [(9, 0x100000), (8, 0x80)], 0x0, false, 0x3C701, 0x0, 0x0, 0x0⟩,
  ⟨"CDM_CH_SRC_LO", 0xE1040108, [(9, 0x100000), (8, 0x80)], 0x0, false, 0xFFFFFFFF, 0x0, 0x0, 0x0⟩,
  ⟨"CDM_CH_SRC_HI", 0xE104010C, [(9, 0x100000), (8, 0x80)], 0x0, false, 0xFF, 0x0, 0x0, 0x0⟩,
  ⟨"CDM_CH_DST_LO", 0xE1040110, [(9, 0x100000), (8, 0x80)], 0x0, false, 0xFFFFFFFF, 0x0, 0x0, 0x0⟩,
  ⟨"CDM_CH_DST_HI", 0xE1040114, [(9, 0x100000), (8, 0x80)], 0x0, false, 0xFF, 0x0, 0x0, 0x0⟩,
  ⟨"CDM_CH_C0", 0xE1040118, [(9, 0x100000), (8, 0x80)], 0x0, false, 0xFFFFFF, 0x0, 0x0, 0x0⟩,
  ⟨"CDM_CH_C1", 0xE104011C, [(9, 0x100000), (8, 0x80)], 0x0, false, 0xFFFF, 0x0, 0x0, 0x0⟩,
  ⟨"CDM_CH_C2", 0xE1040120, [(9, 0x100000), (8, 0x80)], 0x0, false, 0xFFFF, 0x0, 0x0, 0x0⟩,
  ⟨"CDM_CH_SS0", 0xE1040124, [(9, 0x100000), (8, 0x80)], 0x0, false, 0xFFFFFFFF, 0x0, 0x0, 0x0⟩,
  ⟨"CDM_CH_DS0", 0xE1040128, [(9, 0x100000), (8, 0x80)], 0x0, false, 0xFFFFFFFF, 0x0, 0x0, 0x0⟩,
  ⟨"CDM_CH_SS1", 0xE104012C, [(9, 0x100000), (8, 0x80)], 0x0, false, 0xFFFFFFFF, 0x0, 0x0, 0x0⟩,
  ⟨"CDM_CH_DS1", 0xE1040130, [(9, 0x100000), (8, 0x80)], 0x0, false, 0xFFFFFFFF, 0x0, 0x0, 0x0⟩,
  ⟨"CDM_CH_SS2", 0xE1040134, [(9, 0x100000), (8, 0x80)], 0x0, false, 0xFFFFFFFF, 0x0, 0x0, 0x0⟩,
  ⟨"CDM_CH_DS2", 0xE1040138, [(9, 0x100000), (8, 0x80)], 0x0, false, 0xFFFFFFFF, 0x0, 0x0, 0x0⟩,
  ⟨"CDM_CH_CTRL", 0xE104013C, [(9, 0x100000), (8, 0x80)], 0x0, false, 0x0, 0x0, 0x7, 0x0⟩,
  ⟨"CDM_CH_STATE", 0xE1040140, [(9, 0x100000), (8, 0x80)], 0x0, false, 0x0, 0x0, 0x0, 0x0⟩,
  ⟨"CDM_CH_POS", 0xE1040144, [(9, 0x100000), (8, 0x80)], 0x0, false, 0x0, 0x0, 0x0, 0x0⟩,
  ⟨"CDM_CH_ERR_LO", 0xE1040148, [(9, 0x100000), (8, 0x80)], 0x0, false, 0x0, 0x0, 0x0, 0x0⟩,
  ⟨"CDM_CH_ERR_HI", 0xE104014C, [(9, 0x100000), (8, 0x80)], 0x0, false, 0x0, 0x0, 0x0, 0x0⟩,
  ⟨"CDM_CH_RETRIES", 0xE1040150, [(9, 0x100000), (8, 0x80)], 0x0, false, 0x0, 0x0, 0x0, 0x0⟩]

/-- Rows of block LSM (07_loop_integrity.md). -/
def regRowsLSM1 : List RegDesc := [
  ⟨"LSM_STATUS", 0xE1050000, [(9, 0x100000)], 0x0, false, 0x0, 0xF, 0x0, 0x0⟩,
  ⟨"LSM_IRQ_EN", 0xE1050004, [(9, 0x100000)], 0x0, false, 0xF, 0x0, 0x0, 0x0⟩,
  ⟨"LSM_CTRL", 0xE1050008, [(9, 0x100000)], 0x0, false, 0x0, 0x0, 0xFF07, 0x0⟩,
  ⟨"LSM_SLACK", 0xE105000C, [(9, 0x100000)], 0x0, false, 0x0, 0x0, 0x0, 0xFFFFFFFF⟩,
  ⟨"LSM_MIG", 0xE1050010, [(9, 0x100000)], 0x0, false, 0x0, 0x0, 0x0, 0xFFFFFFFF⟩,
  ⟨"LSM_LIVE", 0xE1050014, [(9, 0x100000)], 0x0, false, 0x0, 0x0, 0x0, 0x3FFFFFFF⟩,
  ⟨"LSM_RETRY_MAX", 0xE1050018, [(9, 0x100000)], 0x0, false, 0x0, 0x0, 0x0, 0x0⟩,
  ⟨"LSM_MISMATCHES", 0xE105001C, [(9, 0x100000)], 0x0, false, 0x0, 0x0, 0x0, 0x0⟩,
  ⟨"LSM_EXHAUSTS", 0xE1050020, [(9, 0x100000)], 0x0, false, 0x0, 0x0, 0x0, 0x0⟩,
  ⟨"LSM_MIG_DROP", 0xE1050024, [(9, 0x100000)], 0x0, false, 0x0, 0x0, 0x0, 0x0⟩,
  ⟨"LSM_LAST_CSEQ", 0xE1050028, [(9, 0x100000)], 0x0, false, 0x0, 0x0, 0x0, 0x0⟩,
  ⟨"LSM_LAST_DETAIL", 0xE105002C, [(9, 0x100000)], 0x0, false, 0x0, 0x0, 0x0, 0x0⟩,
  ⟨"LSM_TEST", 0xE1050030, [(9, 0x100000)], 0x0, false, 0x0, 0x0, 0x0, 0x0⟩,
  ⟨"LSM_CLR", 0xE1050034, [(9, 0x100000)], 0x0, false, 0x0, 0x0, 0x1, 0x0⟩]

/-- The rows of one control-space block, given the block (R21, R23). -/
def regRowsRPC : List RegDesc := regRowsRPC1
def regRowsCTU : List RegDesc := regRowsCTU1
def regRowsDIO : List RegDesc := regRowsDIO1
def regRowsENC : List RegDesc := regRowsENC1
def regRowsIML : List RegDesc := regRowsIML1
def regRowsFWL : List RegDesc := regRowsFWL1
def regRowsVLT : List RegDesc := regRowsVLT1
def regRowsEVL : List RegDesc := regRowsEVL1
def regRowsSEQ : List RegDesc := regRowsSEQ1
def regRowsRCE : List RegDesc := regRowsRCE1 ++ regRowsRCE2
def regRowsRMV : List RegDesc := regRowsRMV1
def regRowsAFE : List RegDesc := regRowsAFE1
def regRowsCLO : List RegDesc := regRowsCLO1
def regRowsVDR : List RegDesc := regRowsVDR1
def regRowsPVM : List RegDesc := regRowsPVM1
def regRowsCYC : List RegDesc := regRowsCYC1
def regRowsPLK : List RegDesc := regRowsPLK1
def regRowsCANn : List RegDesc := regRowsCANn1
def regRowsETHn : List RegDesc := regRowsETHn1
def regRowsETH4 : List RegDesc := regRowsETH41
def regRowsCOX : List RegDesc := regRowsCOX1
def regRowsLPE : List RegDesc := regRowsLPE1
def regRowsMOT : List RegDesc := regRowsMOT1 ++ regRowsMOT2
def regRowsACQ : List RegDesc := regRowsACQ1
def regRowsCDM : List RegDesc := regRowsCDM1
def regRowsLSM : List RegDesc := regRowsLSM1

/-- Every register of the module. -/
def regTable : List RegDesc :=
  regRowsRPC ++ regRowsCTU ++ regRowsDIO ++ regRowsENC ++ regRowsIML ++ regRowsFWL ++ regRowsVLT ++ regRowsEVL ++ regRowsSEQ ++ regRowsRCE ++ regRowsRMV ++ regRowsAFE ++ regRowsCLO ++ regRowsVDR ++ regRowsPVM ++ regRowsCYC ++ regRowsPLK ++ regRowsCANn ++ regRowsETHn ++ regRowsETH4 ++ regRowsCOX ++ regRowsLPE ++ regRowsMOT ++ regRowsACQ ++ regRowsCDM ++ regRowsLSM

/-- The registers whose reset value is not zero. -/
def regNonzero : List RegDesc := [
  ⟨"CTU_TIME_INC", 0xE0010010, [], 0x1AAAAAB, false, 0, 0, 0, 0⟩,
  ⟨"CTU_SERVO_WD", 0xE001002C, [], 0xFA0, false, 0, 0, 0, 0⟩,
  ⟨"CTU_PPS_OUT_CTRL", 0xE0010030, [], 0x61A80, false, 0, 0, 0, 0⟩,
  ⟨"CRS_PLL", 0xE0010110, [(4, 0x20)], 0xA, false, 0, 0, 0, 0⟩,
  ⟨"DIO_FILT", 0xE0020100, [(64, 0x4)], 0x30000, false, 0, 0, 0, 0⟩,
  ⟨"IML_CREWMAP", 0xE0040024, [], 0xFFFFFFFF, false, 0, 0, 0, 0⟩,
  ⟨"IML_SPARE", 0xE0040028, [], 0x8, false, 0, 0, 0, 0⟩,
  ⟨"IML_PART", 0xE004002C, [], 0xFF, false, 0, 0, 0, 0⟩,
  ⟨"EVL_BASE_HI", 0xE0070008, [], 0x10, false, 0, 0, 0, 0⟩,
  ⟨"EVL_SIZE", 0xE007000C, [], 0x14, false, 0, 0, 0, 0⟩,
  ⟨"SEQ_CKPT_CFG", 0xE0080050, [], 0xA00, false, 0, 0, 0, 0⟩,
  ⟨"RCE_BLOCK_MS", 0xE009000C, [], 0x64, false, 0, 0, 0, 0⟩,
  ⟨"RCE_CREW", 0xE0090240, [(8, 0x4)], 0x1, false, 0, 0, 0, 0⟩,
  ⟨"AFE_CAL_N", 0xE00B0018, [], 0x40, false, 0, 0, 0, 0⟩,
  ⟨"AFE_TDAC_CMD", 0xE00B0500, [(8, 0x10)], 0x8000000, false, 0, 0, 0, 0⟩,
  ⟨"HART_CFG", 0xE00C0800, [(16, 0x10)], 0x5, false, 0, 0, 0, 0⟩,
  ⟨"CYC_WIN", 0xE00F003C, [], 0x3E8, false, 0, 0, 0, 0⟩,
  ⟨"PLK_CFG", 0xE0100004, [], 0x14, false, 0, 0, 0, 0⟩,
  ⟨"PLK_MIRROR", 0xE010000C, [], 0x100, false, 0, 0, 0, 0⟩,
  ⟨"CAN_STATUS", 0xE020000C, [(8, 0x10000)], 0x30000, false, 0, 0, 0, 0⟩,
  ⟨"ETH_PRP", 0xE0300010, [(6, 0x10000)], 0x7D01770, false, 0, 0, 0, 0⟩,
  ⟨"ETH_DD", 0xE0300014, [(6, 0x10000)], 0x190, false, 0, 0, 0, 0⟩,
  ⟨"COX_ID", 0xE1000000, [(9, 0x100000)], 0xFF, false, 0, 0, 0, 0⟩,
  ⟨"COX_WIN", 0xE100000C, [(9, 0x100000)], 0x4E20, false, 0, 0, 0, 0⟩,
  ⟨"AX_RT", 0xE10201C8, [(9, 0x100000), (4, 0x100)], 0x3E8, false, 0, 0, 0, 0⟩]

end Sys2Proof.Machine
end

