-- ==== Sys2Proof/Machine/StCore.lean ====
section
/-! DEFINITION. State of the time base, the courses, the catch tables, the digital inputs, the event log, the bus, the firewall
and the health model (chapters 01, 02 and 17). -/
namespace Sys2Proof.Machine

/-- One entry of the event log (R33), before it is written to the copies. -/
structure Event where
  sec    : Nat
  nsec   : Nat
  code   : Nat
  source : Nat
  detail : Nat
  deriving DecidableEq, Repr

/-- The event log (R37, R38): the 64-entry queue, the entries lost since the last 0x0010, the next slot of the MRAM mirror,
the entries drained since the last reset, and each core's EVL_SW_DETAIL copy (R36). -/
structure EvlState where
  queue      : List Event
  lostRun    : Nat
  mirrorIdx  : Nat
  sinceReset : Nat
  swDetail   : List (Nat × Word)
  deriving DecidableEq, Repr

/-- The network time base (R52 to R61): the 96-bit time, the slew still to apply in units of 2^-24 ns, the fabric cycles
counted since power-on, the cycles since the servo watchdog was restarted, the last AON snapshot with the elapsed
milliseconds at that moment, and the level of PPS_OUT. -/
structure TimeState where
  now      : Stamp
  slew     : Int
  cycle    : Nat
  servoWd  : Nat
  aonSnap  : Stamp
  aonMs    : Nat
  ppsOut   : Bool
  deriving DecidableEq, Repr

/-- A course generator (R40 to R45): its 64-bit position, the part of a position unit below it, the run of valid mains
cycles, the last locked mains period in fabric cycles, the phase by which the course is ahead of the mains, in the unit of `sub` (R44), and the fabric
cycle of the last valid crossing (R43). -/
structure Course where
  pos    : Nat
  sub    : Nat
  valid  : Nat
  period : Nat
  err    : Int
  cross  : Nat
  deriving DecidableEq, Repr

/-- What a catch table is doing (R50). -/
inductive TabPhase where
  | stopped | waiting | running
  deriving DecidableEq, Repr

/-- The run of a catch table (R48, R50): its phase, the position up to which catches were issued, the high-water mark, and
the ordinal of the last entry to issue once RUN = 0 was written. -/
structure CatchTab where
  phase  : TabPhase
  issued : Nat
  high   : Nat
  stopAt : Option Int
  catches : Nat
  deriving DecidableEq, Repr

/-- A catch on its way to its consumers (R47, R51): the logical crew, the physical crew mapped when it was issued, its
position, its CSEQ and the time base then. -/
structure Catch where
  m    : Nat
  phys : Nat
  pos  : Nat
  cseq : Nat
  time : Stamp
  deriving DecidableEq, Repr

/-- One entry of a digital-input FIFO (R66). -/
structure DinEntry where
  stamp  : Stamp
  rising : Bool
  ovf    : Bool
  deriving DecidableEq, Repr

/-- A digital input (R64 to R66): the time stamp of a candidate transition, the FIFO, and the fabric cycle of the last raw edge. -/
structure Din where
  cand : Option Stamp
  fifo : List DinEntry
  edge : Nat
  deriving DecidableEq, Repr

/-- What the last access returned to its master (R3, R581): whether it completed with a bus error, and the data read. -/
structure BusResp where
  err  : Bool
  data : Nat
  deriving DecidableEq, Repr

/-- The count of transients in a resource's open window, the counting interval of the last one (R30, R31): the table
whose catches count (none: fabric cycles) and its number; and the fabric cycle in which the window opened. -/
structure HealthRec where
  count  : Nat
  last   : Option (Nat × Nat)
  opened : Nat
  deriving DecidableEq, Repr

/-- The access that froze a master: its address, the task of the engine that made it, and the fabric cycle. -/
structure Viol where
  addr : Nat
  task : Option (Nat × Nat)
  at_  : Nat
  deriving DecidableEq, Repr

/-- The firewall's own state (R492, R494, R496, R498): whether IML has applied a FIREWALL section since the reset, the violation that
froze each frozen master, the moment (whole ns) of the last once-per-second log of each link and each memory, whether the timer of a frozen AC_0
runs, the master numbers the pavilion has recorded, and the tokens found bad with the link that delivered them (R31). -/
structure FwlState where
  applied : Bool
  viols   : List (Nat × Viol)
  lastLog : List (Nat × Nat)
  ac0Timer : Bool
  pavLog  : List Nat
  bad     : List (Nat × Token)
  deriving DecidableEq, Repr

def Stamp.zero : Stamp := ⟨0, 0, 0⟩
def EvlState.init : EvlState := ⟨[], 0, 0, 0, []⟩
def TimeState.init : TimeState := ⟨Stamp.zero, 0, 0, 0, Stamp.zero, 0, false⟩
def Course.init : Course := ⟨0, 0, 0, 0, 0, 0⟩
def CatchTab.init : CatchTab := ⟨.stopped, 0, 0, none, 0⟩
def Din.init : Din := ⟨none, [], 0⟩
def HealthRec.init : HealthRec := ⟨0, none, 0⟩
def FwlState.init : FwlState := ⟨false, [], [], false, [], []⟩

end Sys2Proof.Machine
end

