-- ==== Sys2Proof/Machine/StCox.lean ====
section
/-! DEFINITION. State of a crew's cox (chapter 04) and of the acquisition path (chapter 05). -/
namespace Sys2Proof.Machine

/-- A token held as an operand, with the link that delivered it (R504): links 0 to 11, or 0x100 + s for converter s. -/
structure Opnd where
  tok  : Token
  link : Nat
  deriving DecidableEq, Repr

/-- The states of a match entry (R98). -/
inductive EntryState where
  | free | opened | ready | issued
  deriving DecidableEq, Repr

/-- A match entry (R98, R108, R115): its state, CSEQ and operands; the cycle it became READY, its place in the crew's
order of dispatch, whether it is a re-run; and,
while ISSUED, whether its target has completed, whether lockstep has confirmed, and the results held until its release. -/
structure MEntry where
  state     : EntryState
  cseq      : Nat
  ops       : List (Option Opnd)
  readyAt   : Nat
  order     : Nat
  rerun     : Bool
  done      : Bool
  confirmed : Bool
  results   : List Token
  deriving DecidableEq, Repr

/-- A context (R98 to R104, R115): two match entries, the held tokens with their arrival strokes (none: the table has issued
no catch since its start), the kept tokens, the once-per-window marks and the figures of the running window. -/
structure CoxCtx where
  e0        : MEntry
  e1        : MEntry
  held      : List (Option (Opnd × Option Nat))
  kept      : List (Option Opnd)
  dropLog   : Bool
  staleLog  : Bool
  waitMax   : Nat
  waitSum   : Nat
  waitSat   : Bool
  disp      : Nat
  deriving DecidableEq, Repr

/-- A descriptor of a dispatch port (R112). -/
structure Desc where
  ctx  : Nat
  cseq : Nat
  nres : Nat
  ops  : List Opnd
  deriving DecidableEq, Repr

/-- A dispatch port (R112): its FIFO and the descriptor in view. -/
structure DpState where
  fifo : List Desc
  view : Option Desc
  deriving DecidableEq, Repr

/-- The cox of a physical crew: its contexts, the eight ready lists of (context, entry), the CSEQ of the last catch of its
table since the table started, the running observation window (R114: strokes seen, length in force, first cycle, longest
wait and excess mark per priority, busy cycles per target), the dispatch ports, the entries issued so far, and the catches of this fabric cycle whose
deadlines and CATCH slots are handled when the cycle ends (R102). -/
structure CoxState where
  ctxs      : List (Nat × CoxCtx)
  lists     : List (List (Nat × Nat))
  lastCatch : Option Nat
  winStroke : Nat
  winLen    : Nat
  winStart  : Nat
  winSeen   : Bool
  prioMax   : List Nat
  prioExc   : List Bool
  busy      : List Nat
  dp        : List (Nat × DpState)
  issues    : Nat
  due       : List Nat
  deriving DecidableEq, Repr

def MEntry.init : MEntry := ⟨.free, 0, [none, none, none, none], 0, 0, false, false, false, []⟩
def CoxCtx.init : CoxCtx :=
  ⟨MEntry.init, MEntry.init, [none, none, none, none], [none, none, none, none], false, false, 0, 0, false, 0⟩
def DpState.init : DpState := ⟨[], none⟩
def CoxState.init : CoxState :=
  ⟨[], [[], [], [], [], [], [], [], []], none, 0, 0x4E20, 0, false, [0, 0, 0, 0, 0, 0, 0, 0],
   [false, false, false, false, false, false, false, false], [0, 0, 0, 0, 0, 0, 0, 0, 0, 0, 0, 0], [], 0, []⟩

/-- What a converter's player is doing (R132). -/
inductive ConvPhase where
  | idle | settling | converting
  deriving DecidableEq, Repr

/-- The last result of a conversion entry (R138): value and status. -/
structure ConvResult where
  value : Word
  st    : BitVec 4
  deriving DecidableEq, Repr

/-- An occurrence of a conversion entry on its way (R132): the entry, the CSEQ of its catch, and its start position, or, once that is reached, the
fabric cycle in which it was. -/
structure ConvDue where
  entry : Nat
  cseq  : Nat
  start : Nat
  deriving DecidableEq, Repr

/-- A re-admission test of a converter (R148): the ranges and levels (in tenths of FS) still to measure, and whether an error exceeded its bound. -/
structure ConvTest where
  left : List (Nat × Int)
  bad  : Bool
  deriving DecidableEq, Repr

/-- A converter's player (R132 to R138): its phase, the entry, the catch and the fabric cycle of the start position being played, whether the reference
monitor failed on it, the occurrences whose start position is to come, the waiting ones in order, the last result and the filter state of each entry,
the burn-out current on, whether the slot serves a diagnostic request, the range and level it measures for a re-admission test, the test in progress,
and the tokens on their way to the ACQ port of a physical crew. -/
structure Conv where
  phase   : ConvPhase
  entry   : Nat
  cseq    : Nat
  reach   : Nat
  refBad  : Bool
  due     : List ConvDue
  waiting : List ConvDue
  last    : List (Nat × ConvResult)
  filt    : List (Nat × Word)
  burnout : Nat
  diag    : Bool
  level   : Option (Nat × Int)
  test    : Option ConvTest
  fly     : List (Nat × Token)
  deriving DecidableEq, Repr

/-- A check sample (R141): x, the value of R136, its status, the CSEQ of its catch and the check range. -/
structure CheckSmp where
  x     : Word
  value : Word
  st    : BitVec 4
  cseq  : Nat
  range : Nat
  deriving DecidableEq, Repr

/-- A plausibility pair (R141 to R150): the check samples of both converters for the comparison at hand, the readings of both converters and the expected
DAC output at the arbitration levels taken so far, the level the DAC drives, a queued diagnostic request, and the test DAC's re-admission test: the
levels measured and whether an error exceeded TOL. -/
structure Pair where
  smpA    : Option CheckSmp
  smpB    : Option CheckSmp
  arb     : List (Word × Word × Word)
  driving : Option Nat
  request : Bool
  dacTest : Option (Nat × Bool)
  deriving DecidableEq, Repr

/-- The calibration unit (R152): the latched channel and range, the points X0, U0, X1, U1, which point is captured, the samples
taken, the exact sum of their u in units of 2^-149, whether a bad one came, and the state to return to; and the calibration area as it was at the
last reload or write of a record, from which the coefficients in force come (R154). -/
structure Cal where
  ch    : Nat
  range : Nat
  x0    : Word
  u0    : Word
  x1    : Word
  u1    : Word
  high  : Bool
  cnt   : Nat
  sum   : Int
  bad   : Bool
  prev  : Nat
  snap  : List Host.Cell
  deriving DecidableEq, Repr

/-- A crew DMA channel (R480, R483, R484): the elements written, the retries left for the access at hand, whether this transfer has retried, and the task
entry (context, entry) that started it. -/
structure DmaChan where
  pos     : Nat
  left    : Nat
  retried : Bool
  task    : Option (Nat × Nat)
  deriving DecidableEq, Repr

/-- A record-mover channel (R489): bytes written of the pass in progress, the retries left, whether this transfer has retried, and whether it
waits on a half already reported. -/
structure RmvChan where
  pos     : Nat
  left    : Nat
  retried : Bool
  waiting : Bool
  deriving DecidableEq, Repr

def DmaChan.init : DmaChan := ⟨0, 0, false, none⟩
def RmvChan.init : RmvChan := ⟨0, 0, false, false⟩
def Conv.init : Conv := ⟨.idle, 0, 0, 0, false, [], [], [], [], 0, false, none, none, []⟩
def Pair.init : Pair := ⟨none, none, [], none, false, none⟩
def Cal.init : Cal := ⟨0, 0, 0, 0, 0, 0, false, 0, 0, false, 0, []⟩

end Sys2Proof.Machine
end

