-- ==== Sys2Proof/Machine/StCyc.lean ====
section
/-! DEFINITION. State of the cyclic program (chapter 16) and what a program holds once decoded. -/
namespace Sys2Proof.Machine

/-- An output entry of a program (R459): `stop` says SUBST, `flag` a program flag. -/
structure ProgOut where
  sig   : Nat
  flag  : Bool
  stop  : Bool
  ofs   : Nat
  subst : Word
  deriving DecidableEq, Repr

/-- A verified program (R458, R459): its inputs as (SIG, offset). -/
structure Prog where
  id     : Nat
  image  : Nat
  retain : Nat
  period : Nat
  phase  : Nat
  crew   : Nat
  ovrMax : Nat
  auto   : Bool
  retBh  : Nat
  retMr  : Nat
  digest : List Nat
  arbIdx : Nat
  arbVer : Nat
  signer : Nat
  ins    : List (Nat × Nat)
  outs   : List ProgOut
  areas  : ProgAreas
  deriving DecidableEq, Repr

/-- An online-change entry (R470). -/
structure OcEntry where
  off   : Nat
  width : Nat
  area  : Nat
  value : Nat
  deriving DecidableEq, Repr

/-- A force in effect (R472): its entry, KIND, WIDTH, TARGET and value. -/
structure Force where
  entry  : Nat
  kind   : Nat
  width  : Nat
  target : Nat
  value  : Nat
  deriving DecidableEq, Repr

/-- A SWITCH under way (R471): waiting for the cycle boundary, or for the start catch that begins no cycle. -/
inductive SwitchPhase where
  | boundary | idle
  deriving DecidableEq, Repr

/-- The retained shadow (R468): RETAIN_ID, the CRC-32C of the boathouse part, and the journal. -/
structure RetShadow where
  retain  : Nat
  crc     : Nat
  journal : List (Nat × Nat)
  deriving DecidableEq, Repr

/-- The cyclic program: current and staged programs and the source of a LOAD in progress; the running cycle (start catch, fabric cycle);
the initialisation due at the next start catch (cold, or warm) and the PROG body it takes, of a checkpoint or of the mirror (true); RETAIN_ID
of the retained store, its undo journal (old values by address) and its shadow; the newest tokens of the input SIGs (link and token)
and the CSEQ each input used last; the VALUE last sent of each output; the online-change batch pending; a SWITCH; the outputs of the old
program that still owe their stop action, with its value; the fabric cycle of the last boundary and whether that cycle overran;
the window's cycles, least and summed idle time and longest execution time; the forces in effect; and the CSEQ of the last start catch. -/
structure CycState where
  cur     : Option Prog
  staged  : Option Prog
  loading : Option (Nat × Nat)
  run     : Option (Nat × Nat)
  due     : Option Bool
  body    : Option (Bool × List Nat)
  store   : Option Nat
  journal : List (Nat × Nat)
  shadow  : Option RetShadow
  toks    : List (Nat × List (Nat × Token))
  used    : List (Nat × Nat)
  sent    : List (Nat × Word)
  batch   : Option (List OcEntry)
  switch  : Option SwitchPhase
  owed    : List (Nat × Word)
  bound   : Option Nat
  overran : Bool
  winN    : Nat
  idleMin : Nat
  idleSum : Nat
  execMax : Nat
  forces  : List Force
  startAt : Option Nat
  deriving DecidableEq, Repr

def CycState.init : CycState :=
  ⟨none, none, none, none, none, none, none, [], none, [], [], [], none, none, [], none, false, 0, 0, 0, 0, [], none⟩

end Sys2Proof.Machine
end

