-- ==== Sys2Proof/Machine/StIml.lean ====
section
/-! DEFINITION. State of the image loader (chapter 03). -/
namespace Sys2Proof.Machine

/-- What the loader keeps of an image's header (R73). -/
structure ImgHdr where
  id     : Nat
  parent : Nat
  succ   : Nat
  part   : Nat
  crews  : Nat
  arbIdx : Nat
  arbVer : Nat
  isPart : Bool
  digest : List Nat
  deriving DecidableEq, Repr

/-- An image slot: whether it is marked empty, and the header and contents of the image whose bytes it holds. -/
structure ImgSlot where
  empty : Bool
  hdr   : Option ImgHdr
  cont  : Option ImgContent
  deriving DecidableEq, Repr

/-- A replacement (R87): the logical crew, the crew it leaves, the spare, whether the spare is loaded, the CSEQ of the switch catch,
whether the switch is done, and whether the old crew is cleared. -/
structure Replacing where
  m      : Nat
  old    : Nat
  dst    : Nat
  loaded : Bool
  sw     : Option Nat
  done   : Bool
  cleared : Bool
  deriving DecidableEq, Repr

/-- The loader: the slot a restart loads, the slots, the image in work (verified in DRAM, or a staged partial image), a replacement, and
the crew a completed replacement has cleared while its first built-in test has not passed (R88). -/
structure ImlState where
  boot  : Nat
  slots : List (Nat × ImgSlot)
  cand  : Option (ImgHdr × ImgContent)
  repl  : Option Replacing
  untested : Option Nat
  deriving DecidableEq, Repr

def ImgSlot.init : ImgSlot := ⟨true, none, none⟩
def ImlState.init : ImlState := ⟨0, [], none, none, none⟩

end Sys2Proof.Machine
end

