-- ==== Sys2Proof/Machine/StLoop.lean ====
section
/-! DEFINITION. State of the loop engine, the lockstep monitor and the migration of a crew (chapters 06 and 07). -/
namespace Sys2Proof.Machine

/-- A queued parameter commit (R174): its loop, its apply point (none: NEXT) and the P words it changes. -/
structure Commit where
  loop : Nat
  due  : Option Nat
  vals : List (Nat × Word)
  deriving DecidableEq, Repr

/-- What a step change does to a loop (R210). -/
inductive StepChg where
  | param (k : Nat) (v : Word)
  | mode (v : Nat)
  | rep (v : Nat)
  deriving DecidableEq, Repr

/-- A step change staged with a crew (R217, R218): its recipe, the CSEQ of the step catch, the loop and the change. -/
structure Staged where
  rcp  : Nat
  cseq : Nat
  loop : Nat
  chg  : StepChg
  deriving DecidableEq, Repr

/-- What a loop carries beside its context: that its first update after load is still to come (R177), that the transfer of R168
is due, the updates spent in fallback, the set-point target of the last update (R164) and firmware's pending repetitive action
(R188), and whether firmware's mode request waits for the next update (R166, R175). -/
structure LoopDyn where
  first   : Bool
  due     : Bool
  fbCount : Nat
  target  : Option Word
  rep     : Option Nat
  req     : Bool
  deriving DecidableEq, Repr

/-- What an update has computed and the lockstep monitor holds (R191): the loop, words of crew SRAM by offset, the requested mode
a step change writes, the active mode, whether FB_CLR was used, the loop's new record, the changes it took from the
queues, whether it took firmware's mode request, whether it reset the table (R189), its events, the LPE_STATUS bits it sets, and its status
flags (bits 2:1 LIM, 5 FALLBACK, 6, 7 and 11:8). -/
structure LpeHeld where
  loop    : Nat
  words   : List (Nat × Word)
  req     : Option Nat
  act     : Nat
  fbUsed  : Bool
  dyn     : LoopDyn
  steps   : List Staged
  commits : List Commit
  rep     : Option Nat
  reqTook : Bool
  reset   : Bool
  events  : List (Nat × Nat)
  bits    : Nat
  lstat   : Nat
  deriving DecidableEq, Repr

/-- The loop pipe pair of a physical crew: the commit queue, the staged step changes, the loops and the held updates by
context. -/
structure LpeState where
  queue  : List Commit
  staged : List Staged
  dyn    : List (Nat × LoopDyn)
  held   : List (Nat × LpeHeld)
  deriving DecidableEq, Repr

/-- The lockstep monitor of a physical crew (R192, R194): strokes begun, the charge of the running stroke in fabric cycles, and
the cycle since which re-runs are outstanding; whether the spare's built-in test runs (R12), whether the running stroke's slack is exhausted (R194), and
whether a migration has left this crew (R28). -/
structure LsmState where
  stroke : Nat
  charge : Nat
  since  : Option Nat
  bist   : Bool
  exh    : Bool
  left   : Bool
  deriving DecidableEq, Repr

/-- An access through a logical alias that a migration holds (R25): its master, the kind of access, the address, its bytes, the data, and the
bits of the data a read-modify-write replaces. -/
structure HeldAcc where
  src  : Nat
  kind : Access
  addr : Nat
  n    : Nat
  data : Nat
  mask : Nat
  deriving DecidableEq, Repr

/-- The migration in progress (R197): the logical crew, the crew it leaves, the crew it goes to, whether the copy is complete,
the cycle the copy started at and the cycles it took; the tokens discarded so far (SIG and CSEQ, each counted once); and the held
accesses. -/
structure Migration where
  m      : Nat
  src    : Nat
  dst    : Nat
  copied : Bool
  start  : Nat
  cycles : Nat
  toks   : List (Nat × Nat)
  held   : List HeldAcc
  deriving DecidableEq, Repr

def LoopDyn.init : LoopDyn := ⟨true, false, 0, none, none, false⟩
def LpeState.init : LpeState := ⟨[], [], [], []⟩
def LsmState.init : LsmState := ⟨0, 0, none, false, false, false⟩

end Sys2Proof.Machine
end

