-- ==== Sys2Proof/Machine/StMotion.lean ====
section
/-! DEFINITION. State of the axes and the encoders (chapter 09).  Positions are 32.32 fixed point, velocities 32.32 steps per
course unit, both as signed whole numbers of 2^-32. -/
namespace Sys2Proof.Machine

/-- A segment the stage holds (R246): duration, WAIT_E of a WAIT segment, EVTAG of an EVENT segment, end position and velocity,
BLEND, its index in the table, whether it is the table's last and whether it has a reserved bit set. -/
structure HeldSeg where
  dur   : Nat
  wait  : Option Nat
  ev    : Option Nat
  p1    : Int
  v1    : Int
  blend : Bool
  idx   : Nat
  last  : Bool
  resv  : Bool
  deriving DecidableEq, Repr

/-- A stop ramp under way (R258): the course position it began at, the state it began from, the deceleration and jerk, its
distance and its duration in course units. -/
structure StopRec where
  start : Nat
  p0    : Int
  v0    : Int
  acc   : Rat
  jerk  : Rat
  dist  : Rat
  dur   : Rat
  deriving DecidableEq, Repr

/-- A rational follower (R263): NUM, DEN, BASE, REM and M_REF. -/
structure Ratio where
  num  : Int
  den  : Nat
  base : Int
  rem  : Int
  mref : Int
  deriving DecidableEq, Repr

/-- Gearing (R263 to R265): the master encoder, the ratio in force, the one before it with M_SW and B, and a staged change (NUM',
DEN', M_SW, B). -/
structure Gear where
  enc  : Nat
  cur  : Ratio
  prev : Option (Ratio × Int × Nat)
  pend : Option (Int × Nat × Int × Nat)
  deriving DecidableEq, Repr

/-- The phases of a homing sequence (R274): moving off an active reference, stopping from that, searching, searching for the
index, stopping after the reference, parking, stopping at the park position, and stopping after a failure. -/
inductive HomePhase where
  | clear | clearStop | search | index | refStop | park | parkStop | failStop
  deriving DecidableEq, Repr

/-- A homing sequence: its mode and phase, the direction of the present motion, where the motion began (course position and
position), the position at which the reference was seen inactive, p_ref, and the failure code. -/
structure Home where
  mode  : Nat
  phase : HomePhase
  neg   : Bool
  start : Nat
  p0    : Int
  mark  : Option Int
  pref  : Option Int
  code  : Nat
  deriving DecidableEq, Repr

/-- An axis (R241): the commanded position and velocity, the AON record (R256: S, OFS, REFERENCED, HALT_FAST), the pins with the
fabric cycles since their last change (R255), the segments held with the state the current one began from and the course
position it counts from (none: waiting for its start), the table in play with the segments fetched, read and handed
over and the end state of the last handed one, the stop ramp with what follows it (a pending fault, DISABLE, a pending
table, at rest), AX_STOP, gearing, homing, stall evaluation (run, position at its first stroke, previous currents), ended
EVENT segments not yet reported, the latch of the reference input (R275: CPOS and the count of the feedback encoder), and position and velocity at the
last catches; the commands not yet taken by the axis task (R242: command, ARG and the stroke of the write); a takeover that waits for its start (R248:
that there is one, the segments of the new table and the table still played); the mode and reference of a clearance still to be run (R276); and the cycle
of the last rest (R259). -/
structure Axis where
  cpos       : Int
  cvel       : Int
  s          : Int
  ofs        : Int
  referenced : Bool
  haltFast   : Bool
  dirHigh    : Bool
  stepHigh   : Bool
  stepT      : Nat
  dirT       : Nat
  segs       : List HeldSeg
  p0         : Int
  v0         : Int
  origin     : Option Nat
  table      : Option Nat
  nseg       : Nat
  fetched    : Nat
  checked    : Nat
  rdIdx      : Nat
  chkP       : Int
  chkV       : Int
  stop       : Option StopRec
  fault      : Nat
  disable    : Bool
  rtTable    : Option Nat
  rest       : Bool
  stopPos    : Int
  gear       : Option Gear
  home       : Option Home
  stallRun   : Nat
  stallPos   : Int
  prevI      : Option (Word × Word)
  events     : List (Nat × Nat)
  latch      : Option (Int × Int)
  latched    : List (Nat × Int × Int)
  cmds       : List (Nat × Nat × Nat)
  take       : Bool
  nextSegs   : List HeldSeg
  old        : Option Nat
  clear      : Option (Nat × Int)
  restAt     : Nat
  deriving DecidableEq, Repr

/-- What an axis task has computed and the lockstep monitor holds (R191): the load angle and emf of the stall estimate with the
currents (none: no estimate), whether the stroke was bad, whether the emf test failed, and the CSEQ. -/
structure MotHeld where
  axis  : Nat
  load  : Option (Word × Word × Word × Word)
  bad   : Bool
  emfF  : Bool
  pos   : Int
  cseq  : Nat
  evs   : List (Nat × Nat)
  deriving DecidableEq, Repr

/-- An encoder (R267 to R269): the filtered levels of A and B, the lines whose differential level is lost, and the counts of the last 100 µs with their
fabric cycles, newest first (ENC_n_VEL). -/
structure Enc where
  a     : Bool
  b     : Bool
  lines : Nat
  edges : List (Nat × Int)
  deriving DecidableEq, Repr

def Axis.init : Axis :=
  { cpos := 0, cvel := 0, s := 0, ofs := 0, referenced := false, haltFast := false, dirHigh := true, stepHigh := true,
    stepT := 0, dirT := 0, segs := [], p0 := 0, v0 := 0, origin := none, table := none, nseg := 0, fetched := 0,
    checked := 0, rdIdx := 0, chkP := 0, chkV := 0, stop := none, fault := 0, disable := false, rtTable := none,
    rest := false, stopPos := 0, gear := none, home := none, stallRun := 0, stallPos := 0, prevI := none, events := [],
    latch := none, latched := [], cmds := [], take := false, nextSegs := [], old := none, clear := none, restAt := 0 }
def Enc.init : Enc := ⟨false, false, 0, []⟩

end Sys2Proof.Machine
end

