-- ==== Sys2Proof/Machine/StNet.lean ====
section
/-! DEFINITION. State of the CAN controllers, the Ethernet ports, remote register access and the pair (chapters 12, 13 and 15). -/
namespace Sys2Proof.Machine

/-- A CAN controller beside its registers: TEC and REC, the fabric cycle in which a suspension (R370) and in which bus-off recovery began, the moment of bus-off entry (ns;
none: no 0x0B13 is owed) with the lead frame, the moment each pending buffer was requested (units of 2^-24 ns), the transmit chain from its
head, frames on the bus that were withdrawn, and map bytes held (buffer, byte, value). -/
structure CanState where
  tec     : Nat
  rec_    : Nat
  suspend : Option Nat
  recov   : Option Nat
  boAt    : Option Nat
  lead    : Option Nat
  reqAt   : List (Nat × Nat)
  chain   : List Nat
  canc    : List Nat
  held    : List (Nat × Nat × Nat)
  deriving DecidableEq, Repr

def CanState.init : CanState := ⟨0, 0, none, none, none, none, [], [], [], []⟩

/-- A frame waiting for its gate: its queue, its bytes, and the transmit slot it came from. -/
structure EthWait where
  queue : Nat
  bytes : List Nat
  slot  : Option Nat
  deriving DecidableEq, Repr

/-- An Ethernet port: frames waiting for a gate, the FIFO of transmit stamps (stamp, message type, sequenceId), and the frames in the receive
slots (first slot, slots) with the slot the next one starts at; and the fabric cycle of the last frame received (R383). -/
structure EthState where
  wait : List EthWait
  txts : List (Stamp × Nat × Nat)
  rx   : List (Nat × Nat)
  next : Nat
  last : Nat
  deriving DecidableEq, Repr

/-- A PRP pair: its sequence counter, the duplicate table, oldest first (source address, sequence number, time of entry in ns), and the fabric
cycle of the last supervision frame. -/
structure PrpState where
  seq  : Nat
  dup  : List (Nat × Nat × Nat)
  sent : Option Nat
  deriving DecidableEq, Repr

/-- Remote register access (R389): the last accepted SEQ of each key slot, what MRAM holds of it, the stored responses (without tag), and
requests that wait for a migration (requester, request). -/
structure RraState where
  last : List (Nat × Nat)
  nv   : List (Nat × Nat)
  resp : List (Nat × List Nat)
  wait : List (List Nat × List Nat)
  deriving DecidableEq, Repr

/-- The header of the last complete mirror (R448): MSEQ, CUT_TIME, CUT_CSEQ of crews 0 to 7, CREW_MASK and IMAGE_ID. -/
structure MirHdr where
  mseq  : Nat
  time  : Stamp
  cseqs : List Nat
  mask  : Nat
  image : Nat
  deriving DecidableEq, Repr

/-- A mirror cut being taken (R446): whether it is full, its time and the crews' cut CSEQs, the loops still to be captured, the records so
far by type, and whether the program's blocks are in. -/
structure MirCut where
  full   : Bool
  time   : Stamp
  cseqs  : List (Option Nat)
  wanted : List (Nat × Nat)
  loopP  : List (List Nat)
  loopS  : List (List Nat)
  axis   : List (List Nat)
  rcp    : List (List Nat)
  prog   : Option (List (List Nat))
  deriving DecidableEq, Repr

/-- The pair unit: E_seen and the own epoch (kept by the pavilion), the own HANDOVER flag, HBSEQ, the partner's last FLAGS, the
time of the last heartbeat of an active partner and the connections that still owe a PDU with the new epoch (R452), which lanes have
a link; sending: the cut being taken and the P parts as last sent; receiving: the records of the cut in the buffer (MSEQ, fragments),
the mirror body and the header of the last complete mirror; and mirror bytes this second and in the last; the fabric cycles of the last heartbeat
sent, of the last valid one on each path and of the entry to LISTEN, and the stroke of the last cut. -/
structure PlkState where
  eseen   : Nat
  epoch   : Nat
  handing : Bool
  hbseq   : Nat
  pflags  : Nat
  lastHb  : Nat
  owed    : List Nat
  links   : List Nat
  cut     : Option MirCut
  sentP   : List (Nat × List Nat)
  rx      : Option (Nat × List (Nat × List Nat))
  body    : List (Nat × Nat)
  mirror  : Option MirHdr
  rateSec : Nat
  rateNow : Nat
  hbAt    : Option Nat
  heard   : List (Nat × Nat)
  listen  : Nat
  lastCut : Option Nat
  deriving DecidableEq, Repr

def EthState.init : EthState := ⟨[], [], [], 0, 0⟩
def PrpState.init : PrpState := ⟨0, [], none⟩
/-- After power-on the floor is the MRAM value plus 65 536 (R389). -/
def RraState.init : RraState := ⟨[(0, 65536), (1, 65536), (2, 65536), (3, 65536)], [], [], []⟩
def PlkState.init : PlkState := ⟨0, 0, false, 0, 0, 0, [], [], none, [], none, [], none, 0, 0, none, [], 0, none⟩

end Sys2Proof.Machine
end

