-- ==== Sys2Proof/Machine/StOut.lean ====
section
/-! DEFINITION. State of the current-loop outputs, the valve drivers and the HART modems (chapter 11). -/
namespace Sys2Proof.Machine

/-- A current-loop output: the last token applied (VALUE, ST, CSEQ), whether its clamp holds, high and low, the HART transaction's retries
used, the producer crew's stroke starts since that token (R335), how many measurements in a row had a headroom below 1.5 V and at or above
2.0 V (R338), the fabric cycle since which every measurement is out of tolerance (R339, R340), the cycle of the last thermal resume, and the
currents measured in a re-admission test (R342). -/
structure Clo where
  tok      : Option (Word × BitVec 4 × Nat)
  clampHi  : Bool
  clampLo  : Bool
  retries  : Nat
  strokes  : Nat
  low      : Nat
  okay     : Nat
  diffAt   : Option Nat
  resumed  : Option Nat
  readings : List Word
  deriving DecidableEq, Repr

/-- What a valve driver that is commanded on does (R346): the hit phase or holding at DUTY. -/
inductive VdrPhase where
  | off | hit | hold
  deriving DecidableEq, Repr

/-- A valve driver: its phase, whether it waits to retry after a trip, whether it is too hot, trips since enable, the last token
applied in heater mode, its clamp marks, whether its stop action is in force, the firing accumulator, the producer crew's stroke starts since that
token, the fabric cycle in which the hit phase began and that of the last trip, and the mains cycle of the last firing decision (R348). -/
structure Vdr where
  phase   : VdrPhase
  tripped : Bool
  hot     : Bool
  trips   : Nat
  tok     : Option (Word × BitVec 4 × Nat)
  clampHi : Bool
  clampLo : Bool
  stopped : Bool
  acc     : Rat
  strokes : Nat
  since   : Nat
  tripAt  : Nat
  cyc     : Nat
  deriving DecidableEq, Repr

def Clo.init : Clo := ⟨none, false, false, 0, 0, 0, 0, none, none, []⟩
def Vdr.init : Vdr := ⟨.off, false, false, 0, none, false, false, false, 0, 0, 0, 0, 0⟩

end Sys2Proof.Machine
end

