-- ==== Sys2Proof/Machine/StPvm.lean ====
section
/-! DEFINITION. State of the pavilion (chapter 14). -/
namespace Sys2Proof.Machine

/-- A safe input (R409 to R412): the level of the last samples (own test pulses count as 0) and their number, the qualified level,
the fault code (0 none), whether demand has been seen since the fault, the pin before another output's pulse, and, of its own
pulse, whether a sample was taken and every one read 1; the fabric cycle in which the level last qualified as 1, and, at the even input of a pair, that
since which the channels disagree. -/
structure Sin where
  cand    : Bool
  run     : Nat
  q       : Bool
  fault   : Nat
  demand  : Bool
  before  : Bool
  own     : Bool
  ownHigh : Bool
  rose    : Nat
  since   : Option Nat
  deriving DecidableEq, Repr

/-- A holding test (R419): the fabric cycle of its start, S_P, E_P, S and the accumulator then, the extremes of S_P − S0 and the greatest |E_P − E0|. -/
structure BrkTest where
  at_  : Nat
  sp0  : Int
  ep0  : Int
  s0   : Int
  e0   : Int
  hi   : Int
  lo   : Int
  slip : Nat
  deriving DecidableEq, Repr

/-- A brake output (R416 to R419): energised, cycles of feedback that disagrees and of low current, the fault's cause, powered
minutes since the last passed test, the pavilion's counters S_P and E_P, and a holding test; the fabric cycle in which it was energised, and that since
which the feedback of both switches agrees with the off command. -/
structure Brk where
  on   : Bool
  dis  : Nat
  lowI : Nat
  min  : Nat
  sp   : Int
  ep   : Int
  test : Option BrkTest
  since : Nat
  offAt : Option Nat
  deriving DecidableEq, Repr

/-- An armed valve set (R422): its ID, the CSEQ of its catch, its network time (none: T = 0), its valves; the time it switches (units of 2^-24 ns), and
whether a pavilion cycle has ended since a set with T = 0 was armed. -/
structure ArmedSet where
  id   : Nat
  cseq : Nat
  t    : Option Stamp
  vs   : List (Nat × Bool)
  due  : Nat
  ripe : Bool
  deriving DecidableEq, Repr

/-- A Serit-S connection (R427 to R430): its session, the SEQ sent and accepted last, the SEQs sent with the fabric cycle, the
greatest round-trip time in µs, PDUs lost and rejected, and whether it has been RUN since START; the fabric cycle of the last restart of its watchdog,
the send intervals' units (cycles or strokes) since the last PDU, and the fabric cycle its re-admission test began. -/
structure SConn where
  session : Nat
  tx      : Nat
  rx      : Nat
  sent    : List (Nat × Nat)
  rtt     : Nat
  lost    : Nat
  reject  : Nat
  wasRun  : Bool
  wd      : Nat
  due     : Nat
  test    : Nat
  deriving DecidableEq, Repr

/-- The pavilion's own state: the parameter set in force, the staging copy and the stored set (bytes that are not 0), whether a
valid set is in force, the test pulses low, the inputs, whether functions have been evaluated since START, the brakes, group
feedback counters, valve-sense counters (conducting uncommanded; flag disagreeing), the cover openings, the armed sets in
order of arming, responses not yet given by mailbox, the session counter, connections, the latest value of each output item, and
of each input item (raw word and VALUE); the fabric cycle of START's end, from which the test-pulse frames run, and that of each output's last test
pulse, of each group's feedback agreeing with off, of each output's last output test (R417: brakes 0 to 7, groups 8 to 11) and of the last save of the
brake timers; the functions whose RESET input has pulsed; and the network time of the last pavilion cycle (units of 2^-24 ns). -/
structure PvmState where
  par     : List (Nat × Nat)
  stage   : List (Nat × Nat)
  store   : List (Nat × Nat)
  valid   : Bool
  pulse   : Nat
  sins    : List (Nat × Sin)
  evald   : Bool
  brks    : List (Nat × Brk)
  grpDis  : List (Nat × Nat)
  sense   : List (Nat × (Nat × Nat))
  cover   : Nat
  armed   : List ArmedSet
  resp    : List (Nat × (Nat × Nat))
  session : Nat
  conns   : List (Nat × SConn)
  outs    : List (Nat × Word)
  ins     : List (Nat × (Nat × Word))
  frame0  : Nat
  pulsed  : List (Nat × Nat)
  grpOff  : List (Nat × Option Nat)
  otAt    : List (Nat × Nat)
  minAt   : Nat
  resets  : List Nat
  evalAt  : Nat
  deriving DecidableEq, Repr

def Sin.init : Sin := ⟨false, 0, false, 0, false, false, false, true, 0, none⟩
def Brk.init : Brk := ⟨false, 0, 0, 0, 0, 0, none, 0, none⟩
def SConn.init : SConn := ⟨0, 0, 0, [], 0, 0, 0, false, 0, 0, 0⟩
def PvmState.init : PvmState :=
  ⟨[], [], [], false, 0, [], false, [], [], [], 0, [], [], 0, [], [], [], 0, [], [], [], 0, [], 0⟩

end Sys2Proof.Machine
end

