-- ==== Sys2Proof/Machine/StRec.lean ====
section
/-! DEFINITION. State of the record engine (chapter 10). -/
namespace Sys2Proof.Machine

/-- A row that has not been written (R287): its CSEQ, its tokens in ascending SIG, its MARK entries, and the fabric cycle of the catch that closed it. -/
structure OpenRow where
  cseq  : Nat
  toks  : List Token
  marks : List (Nat × Nat)
  due   : Option Nat
  deriving DecidableEq, Repr

/-- The rows of a logical crew, the CSEQ of the last that closed, its catches with their time of issue (newest first), the step
strokes of its last strokes (newest first), and the run of its envelope entries (R321 to R325): run counts, the entries that
acted, samples tested, the entries inactive for the step, address and length of the golden traces as they were on the step catch, and the envelope sets
with the CSEQ of the catch they became active on (newest first). -/
structure RecCrew where
  rows    : List OpenRow
  closed  : Option Nat
  catches : List (Nat × Stamp)
  counts  : List (Nat × Nat)
  runs    : List (Nat × Nat)
  acted   : List Nat
  nth     : List (Nat × Nat)
  dead    : List Nat
  gold    : List (Nat × Nat × Nat)
  sets    : List (Nat × Nat)
  deriving DecidableEq, Repr

/-- The reduction of a signal over its interval j (R296). -/
structure MinMax where
  j    : Nat
  any  : Bool
  used : Bool
  lo   : Word
  hi   : Word
  st   : BitVec 4
  last : Word
  deriving DecidableEq, Repr

/-- The history of an armed trigger unit (R306, R307): the CSEQ last evaluated, its condition then, and whether a sample that
lets a rising or a falling edge fire was seen. -/
structure TrgHist where
  last : Option Nat
  prev : Bool
  low  : Bool
  high : Bool
  deriving DecidableEq, Repr

/-- A cause of a trigger event (R311): a unit, or an envelope entry with its set. -/
inductive TrgCause where
  | unit (u : Nat) | env (entry set : Nat)
  deriving DecidableEq, Repr

/-- A capture set at work (R311 to R317): the buffer being filled, POST as checked, the next slot position, whether FORCE is due,
the causes not yet mapped, the trigger slot with its position and time, HITS, PRIMARY, SRC, the envelope mark, TRIG_CSEQ and
TRIG_TIME, LATER, the post slots written, the envelope set at the trigger slot, the moment of arming, that of the last
completion, and the capture catch before. -/
structure Cap where
  buf      : Nat
  post     : Nat
  pos      : Nat
  forced   : Bool
  pend     : List (TrgCause × Nat)
  trig     : Option (Nat × Stamp × Nat)
  hits     : Nat
  primary  : Nat
  src      : Nat
  envHit   : Bool
  trigCseq : Nat
  trigTime : Stamp
  later    : Nat
  written  : Nat
  envSet   : Option Nat
  armedAt  : Nat
  lastDone : Option Nat
  prev     : Option Nat
  deriving DecidableEq, Repr

/-- The chain being written (R297 to R300): its identifier, the open block (number, slot, bytes and count of rows, first and last
TIME, the fabric cycle its first row was written in, GAP and SIGNED_PREV marks, whether it is the SEAL), whether a closing condition has been met, the block whose signature
is awaited, and, once RUN = 0, the rows still open. -/
structure Chain where
  id     : Nat
  blkseq : Nat
  slot   : Nat
  len    : Nat
  nrows  : Nat
  first  : Stamp
  last   : Stamp
  since  : Nat
  gap    : Bool
  signed : Bool
  isSeal : Bool
  due    : Bool
  await  : Option Nat
  stop   : Option (List (Nat × Nat))
  deriving DecidableEq, Repr

/-- A closed block, with its HASH once computed and the next fragment to export. -/
structure ClosedBlk where
  id     : Nat
  blkseq : Nat
  slot   : Nat
  hash   : Option Nat
  frag   : Nat
  deriving DecidableEq, Repr

/-- A retransmission request (R303). -/
structure RetxReq where
  id     : Nat
  blkseq : Nat
  slot   : Nat
  mask   : Nat
  deriving DecidableEq, Repr

/-- What the record engine keeps in the boathouse (R329): the last slot, and CHAIN_ID, BLKSEQ and HASH of the last chain. -/
structure RecBoat where
  slot  : Option Nat
  chain : Option (Nat × Nat × Nat)
  deriving DecidableEq, Repr

/-- The record engine: the image's tables; rows by crew; reductions by SIG; the chain; the row buffer (bytes, TIME, GAP); blocks
whose HASH is due; blocks to export; the count of live datagrams; retransmission requests; trigger histories; capture sets;
the tokens of captured signals (newest first); what the boathouse keeps; the samples stored this second and in the last. -/
structure RecState where
  cfg     : RecImg
  crews   : List (Nat × RecCrew)
  acc     : List (Nat × MinMax)
  chain   : Option Chain
  buffer  : List (List Nat × Stamp × Bool)
  closed  : List ClosedBlk
  exp     : List ClosedBlk
  dgseq   : Nat
  retx    : List RetxReq
  trg     : List (Nat × TrgHist)
  caps    : List (Nat × Cap)
  hist    : List (Nat × List Token)
  boat    : RecBoat
  rateSec : Nat
  rateNow : Nat
  rateOld : Nat
  deriving DecidableEq, Repr

def RecCrew.init : RecCrew := ⟨[], none, [], [], [], [], [], [], [], []⟩
def TrgHist.init : TrgHist := ⟨none, false, false, false⟩
def Cap.init : Cap := ⟨0, 0, 0, false, [], none, 0, 0xFF, 0, false, 0, ⟨0, 0, 0⟩, 0, 0, none, 0, none, none⟩
def RecState.init : RecState := ⟨RecImg.empty, [], [], none, [], [], [], 0, [], [], [], [], ⟨none, none⟩, 0, 0, 0⟩

end Sys2Proof.Machine
end

