-- ==== Sys2Proof/Machine/StSeq.lean ====
section
/-! DEFINITION. State of the recipe sequencer (chapter 08) and what a recipe holds once decoded. -/
namespace Sys2Proof.Machine

/-- A change record (R210). -/
structure ChgRec where
  typ   : Nat
  crew  : Nat
  tgt   : Nat
  value : Word
  deriving DecidableEq, Repr

/-- A recipe step (R209), with its change records and its valve set (R211). -/
structure RStep where
  len    : Nat
  isEnd  : Bool
  resume : Nat
  toAct  : Nat
  markEn : Bool
  envset : Nat
  csrc   : Nat
  ckind  : Nat
  op     : Nat
  nhold  : Nat
  thresh : Word
  mark   : Nat
  chgs   : List ChgRec
  vset   : Option (List (Nat × Bool))
  deriving DecidableEq, Repr

/-- A verified recipe (R208). -/
structure Recipe where
  id      : Nat
  image   : Nat
  crews   : Nat
  abortAt : Option Nat
  auto    : Bool
  maxGap  : Nat
  steps   : List RStep
  deriving DecidableEq, Repr

/-- A submission under way (R214, R219, R220, R234): the step (none: the path ends), the CSEQ of its step catch, whether no
step has begun before it, the policy with which it restores (none: it does not), the valve sets not yet sent, whether it has sent any, whether an
answer is outstanding, and the refusal. -/
structure SeqNext where
  step    : Option Nat
  cseq    : Nat
  first   : Bool
  restore : Option Nat
  sets    : List (List (Nat × Bool))
  sent    : Bool
  wait    : Bool
  refused : Option (Nat × Bool)
  deriving DecidableEq, Repr

/-- What a checkpoint or mirror recorded of a recipe (R226, R234): state, step, step strokes, and the network time of the cut in
nanoseconds. -/
structure SeqSaved where
  state : Nat
  step  : Nat
  count : Nat
  cut   : Nat
  deriving DecidableEq, Repr

/-- A recipe slot: the resident recipe, the stroke of its last step catch, the stroke counted last, the run of qualifying observations, the stroke the condition was
met in, whether the step has timed out, the submission under way, the requests that wait for a stroke start (START step,
HOLD and ABORT with their cause, RESUME), the refused step to submit again, the commanded valves, what was restored, and
whether only ABORT is accepted (R87). -/
structure SeqSlot where
  recipe  : Option Recipe
  began   : Nat
  stroke  : Nat
  run     : Nat
  met     : Option Nat
  timeout : Bool
  next    : Option SeqNext
  start   : Option Nat
  hold    : Option Nat
  abort   : Option Nat
  resume  : Bool
  redo    : Option Nat
  valves  : List (Nat × Bool)
  saved   : Option SeqSaved
  locked  : Bool
  deriving DecidableEq, Repr

/-- A checkpoint cut in a staging buffer (R226, R227): which buffer, its header fields, the crews' cut CSEQs, the loops still to be
captured, whether the program's variables are in (none: still to come), the area its write has started into, and the crews bound and the image that ran
at the cut (R229). -/
structure Cut where
  buf    : Nat
  dip    : Bool
  time   : Stamp
  cseqs  : List (Option Nat)
  wanted : List (Nat × Nat)
  vars   : Option Nat
  area   : Option Nat
  crews  : Nat
  image  : Nat
  deriving DecidableEq, Repr

/-- The sequencer: its slots, the requests waiting for mailbox 0 (recipe and request words; the first is in the mailbox), the load
in progress, cuts in their staging buffers, the area written last, CKSEQ of the newest complete snapshot, the cut of the snapshot
being written, the area of the last one, the area of the dip checkpoint not yet marked, and the multiple of PERIOD_MS the last periodic cut fell in
(R225). -/
structure SeqState where
  slots   : List (Nat × SeqSlot)
  mail    : List (Nat × List Nat)
  loading : Option Nat
  cuts    : List Cut
  area    : Nat
  repSeq  : Nat
  repCut  : Option Cut
  repLast : Nat
  dip     : Option Nat
  multiple : Nat
  deriving DecidableEq, Repr

def SeqSlot.init : SeqSlot := ⟨none, 0, 0, 0, none, false, none, none, none, none, false, none, [], none, false⟩
def SeqState.init : SeqState := ⟨[], [], none, [], 1, 0, none, 1, none, 0⟩

end Sys2Proof.Machine
end

