-- ==== Sys2Proof/Machine/StSys.lean ====
section
/-! DEFINITION. State of the vault and of reset, power and retention (chapters 18 and 19). -/
namespace Sys2Proof.Machine

/-- The vault beside its registers: REFUSE and OUT of the running command; volatile and persistent keys by handle (key, salt); SHA-384 and
bytes of the owner public keys by slot; OTP rows used by counter; the active slot and the slots marked empty (2 × KIND + slot) of the
firmware store; the running firmware by KIND (ARB_IDX, ARB_VER, SIGNER); whether a challenge is valid; MINUTES of the debug scope and the
fabric cycle of its unlocking. -/
structure VltState where
  busy    : Option (Nat × Nat)
  vkeys   : List (Nat × (List Nat × List Nat))
  pkeys   : List (Nat × (List Nat × List Nat))
  hashes  : List (Nat × List Nat)
  pubs    : List (Nat × List Nat)
  rows    : List (Nat × Nat)
  active  : List (Nat × Nat)
  bad     : List Nat
  running : List (Nat × (Nat × Nat × Nat))
  chal    : Bool
  minutes : Nat
  since   : Nat
  deriving DecidableEq, Repr

/-- Reset and power: the code of the reset in force (none: released) and whether it resets the pavilion; whether folly mode was requested and
the reason of folly mode in force (0 none); whether the start timer ended the last run and whether it runs; the low-power state (0 run,
1 easy, 2 park) and WAKE_MS of the park; the fabric cycle a dip was set in, whether its cut was made, and whether it waits for a stroke start; a
brown-out in progress; whether the hold-up store has failed; the option bytes in force and the copy being written (copy, bytes);
whether the internal oscillator is used; RPC_RETURNED and resources whose test a reset ended, for the next release; fabric cycles of the last
kicks (0 system, c cores); whether the crews have been released; the cycle AC_0 started in; whether the system watchdog has passed half its timeout since
its last kick; by domain, the cycle its clock was lost or its clock check began in; and the cycle of the brown-out. -/
structure RpcState where
  pend     : Option Nat
  pav      : Bool
  follyReq : Bool
  folly    : Nat
  startTmo : Bool
  timer    : Bool
  low      : Nat
  wake     : Nat
  dipAt    : Nat
  dipCut   : Bool
  dipWait  : Bool
  brown    : Bool
  holdLost : Bool
  ob       : List Nat
  obWrite  : Option (Nat × List Nat)
  noRef    : Bool
  returned : Nat
  ended    : List Res
  kicks    : List (Nat × Nat)
  released : Bool
  startAt  : Nat
  half     : Bool
  clkAt    : List (Nat × Nat)
  brownAt  : Nat
  deriving DecidableEq, Repr

def VltState.init : VltState := ⟨none, [], [], [], [], [], [], [], [], false, 0, 0⟩
/-- Power-on: its reset is in force until it is released (R531, R540). -/
def RpcState.init : RpcState :=
  ⟨some 0, true, false, 0, false, false, 0, 0, 0, false, false, false, false, [], none, false, 0, [], [], false, 0, false, [], 0⟩

end Sys2Proof.Machine
end

