-- ==== Sys2Proof/Machine/Tab.lean ====
section
/-! DEFINITION. Sparse tables: lists of (key, value) pairs with strictly rising keys.  `Tab.get` reads a default for a key
that is not listed; `Tab.set` removes an entry that equals the default, so that equal tables are equal lists (memory
and the registers); `Tab.put` lists whatever it is given (tables of records inside the blocks). -/
namespace Sys2Proof.Machine

/-- The value listed for a key. -/
def Tab.find {α : Type} : List (Nat × α) → Nat → Option α
  | [], _ => none
  | (k, v) :: l, a => if a = k then some v else Tab.find l a

/-- The table with the value of one key listed. -/
def Tab.put {α : Type} : List (Nat × α) → Nat → α → List (Nat × α)
  | [], a, x => [(a, x)]
  | (k, v) :: l, a, x =>
    if a = k then (a, x) :: l
    else if a < k then (a, x) :: (k, v) :: l
    else (k, v) :: Tab.put l a x

/-- The table with one key no longer listed. -/
def Tab.del {α : Type} : List (Nat × α) → Nat → List (Nat × α)
  | [], _ => []
  | (k, v) :: l, a =>
    if a = k then Tab.del l a else (k, v) :: Tab.del l a

/-- The value of a key: the listed one, or the default. -/
def Tab.get {α : Type} (d : Nat → α) (l : List (Nat × α)) (a : Nat) : α :=
  match Tab.find l a with
  | some v => v
  | none => d a

/-- The table with the value of one key replaced, in canonical form. -/
def Tab.set {α : Type} [DecidableEq α] (d : Nat → α) (l : List (Nat × α)) (a : Nat) (x : α) : List (Nat × α) :=
  if x = d a then Tab.del l a else Tab.put l a x

/-- Strictly rising keys, all above `lo` (none: no bound). -/
def Tab.rising {α : Type} : Option Nat → List (Nat × α) → Bool
  | _, [] => true
  | lo, (k, _) :: l => (match lo with | none => true | some b => decide (b < k)) && Tab.rising (some k) l

/-- The canonical form: strictly rising keys and no entry equal to the default. -/
def Tab.wf {α : Type} [DecidableEq α] (d : Nat → α) (l : List (Nat × α)) : Bool :=
  Tab.rising none l && l.all (fun e => decide (e.2 ≠ d e.1))

end Sys2Proof.Machine
end

