-- ==== Sys2Proof/Machine/State.lean ====
section
/-! DEFINITION. The state of the module, the reasons a step can stop, and the state after reset. -/
namespace Sys2Proof.Machine

/-- The reasons the module stops: none (a bus error, a fault or a refusal of the module is an effect on the state). -/
inductive Fault where
  deriving DecidableEq, Repr

/-- The reasons a command has no meaning. -/
inductive Refusal where
  /-- Raised by `exec` for a command that has no meaning yet; safe. -/
  | notModelled (mnemonic : String)
  deriving DecidableEq, Repr

/-- What a register that nothing has written holds: the reset value of its table (R5), 0 elsewhere. -/
def regReset (a : Nat) : Word :=
  match regNonzero.find? (fun d => d.covers a) with
  | some d => BitVec.ofNat 32 d.rst
  | none => 0

/-- What a byte of memory that nothing has written reads as (notes/assumptions/4.md). -/
def memReset (_ : Nat) : Byte := 0

/-- The canonical form of memory: rising addresses, no byte listed that equals what an unlisted one reads as. -/
def Memory.wf (m : List Host.Cell) : Bool := Tab.wf memReset m

/-- The tables before any image is applied. -/
def ImgTables.empty : ImgTables :=
  ⟨0, 0, 0xFF, [], [], [], [], [], [], [], [], ⟨[], [], [], 0, 0, [], []⟩, ⟨0, 0, [], [], false⟩, []⟩

/-- The state of the module. -/
structure State where
  /-- The commands waiting, first in, first out. -/
  pending  : List Instr
  /-- The control-space registers that differ from their reset value. -/
  regs     : List (Nat × Word)
  /-- The memories (R18): bytes that differ from what an unwritten byte reads as. -/
  mem      : List Host.Cell
  /-- The number of the next free value (the model's own). -/
  fresh    : Nat
  /-- The response to the last access. -/
  bus      : BusResp
  /-- High words that reads of low words have latched, by the address of the high word. -/
  latch    : List (Nat × Word)
  /-- PLIC sources claimed and not yet completed (R22). -/
  claimed  : List Nat
  /-- What has left the units, oldest first (the model's own record). -/
  wire     : List Emit
  evl      : EvlState
  time     : TimeState
  courses  : List (Nat × Course)
  tabs     : List (Nat × CatchTab)
  inflight : List Catch
  dins     : List (Nat × Din)
  fwl      : FwlState
  /-- Transient counts by `Res.key`. -/
  healths  : List (Nat × HealthRec)
  /-- Health of the resources that no register reports, by `Res.key`. -/
  healthX  : List (Nat × Health)
  /-- The tables of the running image. -/
  img      : ImgTables
  cox      : List (Nat × CoxState)
  convs    : List (Nat × Conv)
  pairs    : List (Nat × Pair)
  /-- Runs of open-wire comparisons by channel: counting toward the other state. -/
  owRun    : List (Nat × Nat)
  cal      : Cal
  /-- Crew DMA channels, by 8 × crew + channel. -/
  dma      : List (Nat × DmaChan)
  /-- The channel each crew's engines served last (round-robin, R482). -/
  dmaLast  : List (Nat × Nat)
  rmv      : List (Nat × RmvChan)
  lpe      : List (Nat × LpeState)
  lsm      : List (Nat × LsmState)
  /-- The migration in progress (R199: at most one). -/
  mig      : Option Migration
  /-- Accesses held by a migration that ended without a switch: they complete in the next fabric cycle. -/
  owed     : List HeldAcc
  axes     : List (Nat × Axis)
  /-- Axis tasks held by the lockstep monitor, by 512 × crew + context. -/
  motHeld  : List (Nat × MotHeld)
  encs     : List (Nat × Enc)
  rce      : RecState
  seq      : SeqState
  clos     : List (Nat × Clo)
  vdrs     : List (Nat × Vdr)
  pvm      : PvmState
  cyc      : CycState
  iml      : ImlState
  cans     : List (Nat × CanState)
  eths     : List (Nat × EthState)
  prps     : List (Nat × PrpState)
  rra      : RraState
  plk      : PlkState
  vlt      : VltState
  rpc      : RpcState
  deriving DecidableEq, Repr

/-- The module right after power-on. -/
def State.reset : State :=
  { pending := [], regs := [], mem := [], fresh := 0, bus := ⟨false, 0⟩, latch := [], claimed := [], wire := [], evl := EvlState.init,
    time := TimeState.init, courses := [], tabs := [], inflight := [], dins := [], fwl := FwlState.init,
    healths := [], healthX := [], img := ImgTables.empty, cox := [], convs := [], pairs := [], owRun := [],
    cal := Cal.init, dma := [], dmaLast := [], rmv := [],
    lpe := [], lsm := [], mig := none, owed := [], axes := [], motHeld := [], encs := [], rce := RecState.init, seq := SeqState.init,
    clos := [], vdrs := [], pvm := PvmState.init, cyc := CycState.init, iml := ImlState.init, cans := [], eths := [], prps := [], rra := RraState.init,
    plk := PlkState.init, vlt := VltState.init, rpc := RpcState.init }

end Sys2Proof.Machine
end

