-- ==== Sys2Proof/Machine/Ops.lean ====
section
/-! DEFINITION. The named operations over registers, memory, time, the event log, the crew map and the health model.  Every
meaning is built from them. -/
namespace Sys2Proof.Machine

/-! ## Registers -/

/-- A register word as the state holds it. -/
def State.rd (s : State) (a : Nat) : Word := Tab.get regReset s.regs a
/-- The state with a register word replaced. -/
def State.wr (s : State) (a : Nat) (v : Word) : State := { s with regs := Tab.set regReset s.regs a v }
/-- A field of a register. -/
def State.fld (s : State) (f : Fld) : Nat := bitsOf (s.rd f.addr) f.lo f.width
/-- The state with a field of a register replaced. -/
def State.setFld (s : State) (f : Fld) (v : Nat) : State := s.wr f.addr (setBits (s.rd f.addr) f.lo f.width v)
/-- A one-bit field as a truth value. -/
def State.flag (s : State) (f : Fld) : Bool := s.fld f == 1
/-- A whole register as a number. -/
def State.num (s : State) (a : Nat) : Nat := (s.rd a).toNat
/-- The state with a whole register replaced by a number. -/
def State.setNum (s : State) (a : Nat) (v : Nat) : State := s.wr a (BitVec.ofNat 32 v)
/-- One bit of a register. -/
def State.rbit (s : State) (a i : Nat) : Bool := bit (s.num a) i
/-- The state with one bit of a register replaced. -/
def State.setRbit (s : State) (a i : Nat) (b : Bool) : State := s.setNum a (putBit (s.num a) i b)
/-- A 32-bit counter register raised by `n`, staying at 0xFFFF_FFFF. -/
def State.count (s : State) (a n : Nat) : State := s.setNum a (satAdd 0xFFFFFFFF (s.num a) n)
/-- A counter field raised by `n`, staying at its greatest value. -/
def State.countFld (s : State) (f : Fld) (n : Nat) : State := s.setFld f (satAdd (2 ^ f.width - 1) (s.fld f) n)
/-- Two registers as one number, low word first. -/
def State.num64 (s : State) (lo hi : Nat) : Nat := s.num lo + 2 ^ 32 * s.num hi
/-- Two registers written from one number, low word first. -/
def State.setNum64 (s : State) (lo hi v : Nat) : State := (s.setNum lo (v % 2 ^ 32)).setNum hi (v / 2 ^ 32)

/-! ## Parts of the state, replaced whole -/

def State.setIml (s : State) (i : ImlState) : State := { s with iml := i }
def State.setTime (s : State) (t : TimeState) : State := { s with time := t }
def State.setEvl (s : State) (e : EvlState) : State := { s with evl := e }
def State.setBus (s : State) (b : BusResp) : State := { s with bus := b }
def State.setFwl (s : State) (f : FwlState) : State := { s with fwl := f }
def State.setMig (s : State) (m : Option Migration) : State := { s with mig := m }
def State.setImg (s : State) (t : ImgTables) : State := { s with img := t }
def State.setCal (s : State) (c : Cal) : State := { s with cal := c }
def State.setOwRun (s : State) (l : List (Nat × Nat)) : State := { s with owRun := l }
def State.setOwed (s : State) (l : List HeldAcc) : State := { s with owed := l }
def State.setInflight (s : State) (l : List Catch) : State := { s with inflight := l }
def State.setClaimed (s : State) (l : List Nat) : State := { s with claimed := l }
def State.setLatch (s : State) (l : List (Nat × Word)) : State := { s with latch := l }
def State.setWire (s : State) (l : List Emit) : State := { s with wire := l }
def State.setDmaLast (s : State) (l : List (Nat × Nat)) : State := { s with dmaLast := l }
def State.setHealthX (s : State) (l : List (Nat × Health)) : State := { s with healthX := l }
def State.setMotHeld (s : State) (l : List (Nat × MotHeld)) : State := { s with motHeld := l }
def State.setAxes (s : State) (l : List (Nat × Axis)) : State := { s with axes := l }
/-- The next `n` free values are taken. -/
def State.takeFresh (s : State) (n : Nat) : State := { s with fresh := s.fresh + n }

/-! ## Memory -/

/-- One byte of memory. -/
def State.rdByte (s : State) (a : Nat) : Byte := Tab.get memReset s.mem a
/-- The state with one byte of memory replaced. -/
def State.wrByte (s : State) (a : Nat) (v : Byte) : State := { s with mem := Tab.set memReset s.mem a v }
/-- `n` bytes from `a`, little-endian, as a number. -/
def State.rdMem (s : State) (a : Nat) : Nat → Nat
  | 0 => 0
  | n + 1 => (s.rdByte a).toNat + 256 * s.rdMem (a + 1) n
/-- The state with the `n` low bytes of `v` stored at `a`, little-endian. -/
def State.wrMem (s : State) (a : Nat) : Nat → Nat → State
  | 0, _ => s
  | n + 1, v => (s.wrByte a (BitVec.ofNat 8 v)).wrMem (a + 1) n (v / 256)
/-- A 32-bit word of memory. -/
def State.rdWord (s : State) (a : Nat) : Word := BitVec.ofNat 32 (s.rdMem a 4)
/-- The state with a 32-bit word of memory replaced. -/
def State.wrWord (s : State) (a : Nat) (v : Word) : State := s.wrMem a 4 v.toNat
/-- The bytes of a range as a list. -/
def State.rdList (s : State) (a : Nat) : Nat → List Nat
  | 0 => []
  | n + 1 => (s.rdByte a).toNat :: s.rdList (a + 1) n
/-- The state with a list of bytes stored at `a`. -/
def State.wrList (s : State) (a : Nat) : List Nat → State
  | [] => s
  | b :: bs => (s.wrByte a (BitVec.ofNat 8 b)).wrList (a + 1) bs

/-! ## Free values -/

/-- Takes the next free word. -/
def State.freshWord (s : State) : Word × State := (Config.freeWord s.fresh, s.takeFresh 1)
/-- Takes the next free number. -/
def State.freshNat (s : State) : Nat × State := (Config.freeNat s.fresh, s.takeFresh 1)
/-- Takes the next free signed number. -/
def State.freshInt (s : State) : Int × State := (Config.freeInt s.fresh, s.takeFresh 1)

/-! ## Time (R52) -/

/-- Nanoseconds since second 0. -/
def Stamp.ns (t : Stamp) : Nat := t.sec * 1000000000 + t.nsec
/-- A time in units of 2^-24 ns. -/
def Stamp.units (t : Stamp) : Nat := t.ns * 2 ^ 24 + t.sub
/-- The stamp of a time in units of 2^-24 ns; SEC has 48 bits. -/
def Stamp.ofUnits (u : Nat) : Stamp :=
  ⟨u / 2 ^ 24 / 1000000000 % 2 ^ 48, u / 2 ^ 24 % 1000000000, u % 2 ^ 24⟩
/-- A stamp moved by a signed number of units of 2^-24 ns, modulo the range of SEC. -/
def Stamp.move (t : Stamp) (d : Int) : Stamp :=
  Stamp.ofUnits (((t.units : Int) + d) % ((2 ^ 48 * 1000000000 * 2 ^ 24 : Nat) : Int)).toNat
/-- FRAC[15:0] of a stamp, in units of 2^-16 ns. -/
def Stamp.frac (t : Stamp) : Nat := t.sub / 256
/-- The three words of a stamp (R52). -/
def Stamp.w0 (t : Stamp) : Nat := t.sec % 2 ^ 32
def Stamp.w1 (t : Stamp) : Nat := t.nsec
def Stamp.w2 (t : Stamp) : Nat := t.frac * 2 ^ 16 + t.sec / 2 ^ 32 % 2 ^ 16
/-- The network time of the state. -/
def State.now (s : State) : Stamp := s.time.now
/-- Fabric cycles of 600 MHz in a microsecond and in a millisecond. -/
def cycPerUs : Nat := 600
def cycPerMs : Nat := 600000
/-- At least `d` fabric cycles have passed since cycle `t`: the clock of every timer but those of network time (notes/assumptions/119.md). -/
def State.lasted (s : State) (t d : Nat) : Bool := decide (t ≤ s.time.cycle) && decide (d ≤ s.time.cycle - t)

/-! ## Event log (R33 to R39) -/

/-- The place of a violation's SOURCE in the order of master numbers (R491, R497). -/
def violRank (source : Nat) : Nat :=
  if source = 0 then 8 else if source / 4096 = 7 then source % 4096 else if source / 4096 = 1 then 16 + 4 * (source % 4096)
  else if source / 256 = 0x80 then 64 + source % 256 else if source / 256 = 0x81 then 136 + source % 256
  else if source / 16 = 0x601 then 144 + source % 16 else if source / 16 = 0x602 then 150 + source % 16 else 152 + source % 16

/-- The order of events detected with one time stamp: CODE, then SOURCE (R39); violations by master (R497). -/
def Event.before (a b : Event) : Bool :=
  decide (a.sec = b.sec) && decide (a.nsec = b.nsec) &&
    (decide (a.code < b.code) ||
      (decide (a.code = b.code) &&
        (if a.code = 0x1010 then decide (violRank a.source < violRank b.source) else decide (a.source < b.source))))

/-- Places an event behind every waiting one but those of its own time stamp that it precedes (R37, R39). -/
def evlInsert (e : Event) : List Event → List Event
  | [] => [e]
  | x :: l => if e.before x then e :: x :: l else x :: evlInsert e l

/-- The event with the time of the state. -/
def State.event (s : State) (code source detail : Nat) : Event :=
  ⟨s.now.sec % 2 ^ 32, s.now.nsec, code, source, detail % 2 ^ 32⟩

/-- Accepts one event into the 64-entry queue; at a full queue the entry that comes last is lost and counted (R37, R39): an event precedes those of its
own time stamp with a higher code though they were detected before it. -/
def State.accept (s : State) (e : Event) : State :=
  let q := evlInsert e s.evl.queue
  if s.evl.queue.length < 64 then s.setEvl { s.evl with queue := q }
  else (s.setEvl { s.evl with queue := q.take 64, lostRun := s.evl.lostRun + 1 }).count Reg.EVL_LOST 1

/-- Logs an event detected now. -/
def State.log (s : State) (code source detail : Nat) : State := s.accept (s.event code source detail)

/-- Logs an event when a condition holds. -/
def State.logIf (s : State) (b : Bool) (code source detail : Nat) : State := if b then s.log code source detail else s

/-- Whether a second has passed since the last event of this once-per-second kind (R498, R504). -/
def State.secondPassed (s : State) (key : Nat) : Bool :=
  match Tab.find s.fwl.lastLog key with
  | none => true
  | some t => s.lasted t (1000 * cycPerMs)

/-- Logs an event at most once per second of its kind. -/
def State.logPerSecond (s : State) (key code source detail : Nat) : State :=
  if s.secondPassed key then
    (s.setFwl { s.fwl with lastLog := Tab.put s.fwl.lastLog key s.time.cycle }).log code source detail
  else s

/-! ## Positions and catch sequences -/

/-- The difference of two 64-bit positions as a signed 64-bit number (R41). -/
def posDiff (a b : Nat) : Int := toSigned 64 (a + 2 ^ 64 - b % 2 ^ 64)
/-- Position `p` is reached at course position `c` (R41). -/
def reached (c p : Nat) : Bool := decide (0 ≤ posDiff c p)
/-- The difference of two CSEQs as a signed 32-bit number (R99). -/
def seqDiff (a b : Nat) : Int := toSigned 32 (a + 2 ^ 32 - b % 2 ^ 32)
/-- `a` precedes `b` (R99). -/
def seqBefore (a b : Nat) : Bool := decide (seqDiff a b < 0)
/-- The stroke index CSEQ[31:6] (R47). -/
def strokeOf (cseq : Nat) : Nat := cseq / 64 % 2 ^ 26
/-- The entry index CSEQ[5:0] (R47). -/
def cseqEntry (cseq : Nat) : Nat := cseq % 64
/-- The number of strokes from stroke `b` to stroke `a`, as a signed 26-bit difference. -/
def strokeDiff (a b : Nat) : Int := toSigned 26 (a + 2 ^ 26 - b % 2 ^ 26)

/-! ## Crew map (R12, R24, R90, R91) -/

/-- The physical crew that runs logical crew `m` (none: unbound). -/
def State.physOf (s : State) (m : Nat) : Option Nat :=
  let v := bitsOf (s.rd Reg.IML_CREWMAP) (4 * m) 4
  if m < 8 ∧ v < 9 then some v else none

/-- The logical crew that physical crew `n` runs (none: free), searching the map from `m = 0`. -/
def State.logicalOf (s : State) (n : Nat) : Option Nat :=
  (List.range 8).find? (fun m => s.physOf m == some n)

/-- The crew map with one nibble replaced. -/
def State.setMap (s : State) (m : Nat) (phys : Nat) : State :=
  s.setFld ⟨Reg.IML_CREWMAP, 4 * m, 4⟩ phys

/-! ## Health model (R29 to R32) -/

/-- The two-bit encoding of R29. -/
def Health.code : Health → Nat
  | .service => 0 | .retry => 1 | .retired => 2 | .testing => 3

def Health.ofCode : Nat → Health
  | 0 => .service | 1 => .retry | 2 => .retired | _ => .testing

/-- The register field that reports a resource's health, where a chapter gives one. -/
def Res.healthFld : Res → Option Fld
  | .conv s => some (F.AFE_ADC_STATUS_HEALTH s)
  | .tdac p => some (F.AFE_PAIR_STATUS_TDAC_HEALTH p)
  | .crew n => some (F.LSM_STATUS_HEALTH n)
  | .stage n j => some (F.AX_STATE_STAGE_HEALTH n j)
  | .enc n => some (F.ENC_STATUS_HEALTH n)
  | .clo n => some (F.CLO_STATUS_HEALTH n)
  | .vdr n => some (F.VDR_STATUS_HEALTH n)
  | .can n => some (F.CAN_STATUS_HEALTH n)
  | .eth n => some (F.ETH_STATUS_HEALTH n)
  | .lane l => some (if l = 0 then F.PLK_STATUS_LANE0_HEALTH else F.PLK_STATUS_LANE1_HEALTH)
  | .cdm n ch => some (F.CDM_CH_STATE_HEALTH n ch)
  | .rmv c => some (F.RMV_STATUS_HEALTH c)
  | .link l => some (F.FWL_LINK_HEALTH l)
  | .brake _ => none
  | .group _ => none
  | .conn _ => none
  | .domain d => some (F.RPC_DOM_HEALTH d)

/-- A number for each resource, the key of its record. -/
def Res.key : Res → Nat
  | .conv s => s
  | .tdac p => 0x100 + p
  | .crew n => 0x200 + n
  | .stage n j => 0x300 + 4 * n + j
  | .enc n => 0x400 + n
  | .clo n => 0x500 + n
  | .vdr n => 0x600 + n
  | .can n => 0x700 + n
  | .eth n => 0x800 + n
  | .lane l => 0x900 + l
  | .cdm n ch => 0xA00 + 8 * n + ch
  | .rmv c => 0xB00 + c
  | .link l => 0xC00 + l
  | .brake b => 0xD00 + b
  | .group g => 0xE00 + g
  | .domain d => 0xF00 + d
  | .conn k => 0x1000 + k

/-- The key under which a reset keeps the health of the step stage of axis `a` until the crews are mapped again (R30, R32). -/
def axisKey (a : Nat) : Nat := 0x2000 + a

/-- The class of a resource, by which the HEALTH section gives N and W (R31). -/
def Res.cls : Res → Nat
  | .conv _ => 0 | .tdac _ => 0 | .crew _ => 1 | .domain _ => 2 | .eth _ => 3 | .can _ => 4
  | .clo _ => 5 | .vdr _ => 5 | .cdm _ _ => 6 | .rmv _ => 6 | .conn _ => 7 | .link _ => 8
  | .stage _ _ => 9 | .enc _ => 10 | .lane _ => 11 | .brake _ => 12 | .group _ => 12

/-- The high byte of a resource's events (R35). -/
def Res.block : Res → Nat
  | .conv _ => 0x05 | .tdac _ => 0x05 | .crew _ => 0x06 | .stage _ _ => 0x08 | .enc _ => 0x08
  | .clo _ => 0x0A | .vdr _ => 0x0A | .can _ => 0x0B | .eth _ => 0x0C | .lane _ => 0x0E
  | .cdm _ _ => 0x10 | .rmv _ => 0x10 | .link _ => 0x10 | .brake _ => 0x0D | .group _ => 0x0D
  | .conn _ => 0x0D | .domain _ => 0x01

end Sys2Proof.Machine
end

