-- ==== Sys2Proof/Machine/HealthOps.lean ====
section
/-! DEFINITION. The health model (R29 to R32) and the check of a token by its consumer (R13, R16, R504) as operations. -/
namespace Sys2Proof.Machine

/-! ## Parts of the state by index -/

def State.courseOf (s : State) (n : Nat) : Course := Tab.get (fun _ => Course.init) s.courses n
def State.setCourse (s : State) (n : Nat) (c : Course) : State := { s with courses := Tab.put s.courses n c }
def State.tabOf (s : State) (m : Nat) : CatchTab := Tab.get (fun _ => CatchTab.init) s.tabs m
def State.setTab (s : State) (m : Nat) (t : CatchTab) : State := { s with tabs := Tab.put s.tabs m t }
def State.dinOf (s : State) (n : Nat) : Din := Tab.get (fun _ => Din.init) s.dins n
def State.setDin (s : State) (n : Nat) (d : Din) : State := { s with dins := Tab.put s.dins n d }
def State.coxOf (s : State) (n : Nat) : CoxState := Tab.get (fun _ => CoxState.init) s.cox n
def State.setCox (s : State) (n : Nat) (c : CoxState) : State := { s with cox := Tab.put s.cox n c }
def State.convOf (s : State) (k : Nat) : Conv := Tab.get (fun _ => Conv.init) s.convs k
def State.setConv (s : State) (k : Nat) (c : Conv) : State := { s with convs := Tab.put s.convs k c }
def State.pairOf (s : State) (p : Nat) : Pair := Tab.get (fun _ => Pair.init) s.pairs p
def State.setPair (s : State) (p : Nat) (x : Pair) : State := { s with pairs := Tab.put s.pairs p x }
def State.lsmOf (s : State) (n : Nat) : LsmState := Tab.get (fun _ => LsmState.init) s.lsm n
def State.setLsm (s : State) (n : Nat) (x : LsmState) : State := { s with lsm := Tab.put s.lsm n x }
def State.setPlk (s : State) (p : PlkState) : State := { s with plk := p }
/-- Records what a unit sends. -/
def State.emit (s : State) (e : Emit) : State := s.setWire (s.wire ++ [e])
def State.emitToks (s : State) (link : Nat) (l : List Token) : State := s.setWire (s.wire ++ l.map (Emit.tok link))

/-! ## Health -/

/-- A domain retired for its clock (R538, R539). -/
def State.domainRetired (s : State) (d : Nat) : Bool := s.fld (F.RPC_DOM_HEALTH d) == 2

/-- The domain whose retirement makes a resource report RETIRED (R539): NET its ports and controllers, ANA its converters. -/
def Res.domainOf : Res → Option Nat
  | .can _ => some 4 | .eth _ => some 4 | .conv _ => some 5 | _ => none

/-- The health of a resource. -/
def State.health (s : State) (r : Res) : Health :=
  if r.domainOf.any s.domainRetired then .retired
  else
    match r.healthFld with
    | some f => Health.ofCode (s.fld f)
    | none => Tab.get (fun _ => Health.service) s.healthX r.key

/-- The state with a resource's health replaced. -/
def State.setHealth (s : State) (r : Res) (h : Health) : State :=
  match r.healthFld with
  | some f => s.setFld f h.code
  | none => s.setHealthX (Tab.put s.healthX r.key h)

/-- In SERVICE or RETRY. -/
def State.inUse (s : State) (r : Res) : Bool :=
  match s.health r with
  | .service => true | .retry => true | .retired => false | .testing => false

/-- A crew that issues nothing: retired or stranded (R26, R200), receiving a migration before its switch catch (R197), re-held for its clock (R538), stopped in easy (R552), or halted at a brown-out
(R551). -/
def State.crewDeaf (s : State) (n : Nat) : Bool :=
  !s.inUse (.crew n) || s.flag (F.LSM_STATUS_STRANDED n) || s.mig.any (fun g => g.dst == n) || s.flag (F.RPC_DOM_HELD (8 + n)) || s.rpc.low != 0 || s.rpc.brown

/-- Firewall master `m` is frozen (R494). -/
def State.frozen (s : State) (m : Nat) : Bool := s.rbit (Reg.FWL_FROZEN (m / 32)) (m % 32)

/-- Engine `e` of a crew (R491: 0 COX, 1 LPE, 2 MOT, 3 ACQ) is frozen: it produces no tokens (R495). -/
def State.engineFrozen (s : State) (n e : Nat) : Bool := s.frozen (16 + 4 * n + e)

/-- SOURCE of a resource's events (R34). -/
def Res.source : Res → Nat
  | .conv k => 0x3000 + k
  | .tdac p => 0x3000 + 2 * p
  | .crew n => 0x1000 + n
  | .stage n j => 0x5000 + 4 * n + j
  | .enc n => 0x20A8 + n
  | .clo n => 0x4000 + n
  | .vdr n => 0x4100 + n
  | .can n => 0x6000 + n
  | .eth n => 0x6010 + n
  | .lane l => 0x6020 + l
  | .cdm n ch => 0x8000 + 8 * n + ch
  | .rmv c => 0x8100 + c
  | .link _ => 0
  | .brake b => 0x4200 + b
  | .group g => 0x4300 + g
  | .conn k => 0xA000 + k
  | .domain d => 0xC000 + d

/-- DETAIL of a resource's events: the code or cause, with the marks of R156 (test DACs) and R506 (links). -/
def Res.detail (r : Res) (x : Nat) : Nat :=
  match r with
  | .tdac _ => x ||| 2 ^ 30
  | .link l => x ||| (l * 2 ^ 24)
  | _ => x

/-- SOURCE of a resource's events in a state: a step stage's axis counts by logical crew (R285). -/
def State.sourceOf (s : State) (r : Res) : Nat :=
  match r with
  | .stage n j => 0x5000 + 4 * (match s.logicalOf n with | some m => m | none => n) + j
  | _ => r.source

/-- Logs one of the common codes of R36 for a resource. -/
def State.logRes (s : State) (r : Res) (low detail : Nat) : State :=
  s.log (r.block * 256 + low) (s.sourceOf r) (r.detail detail)

/-- N and W (milliseconds) of a resource (R31); before an image is applied, notes/assumptions/8.md. -/
def State.healthNW (s : State) (r : Res) : Nat × Nat := Tab.get (fun _ => (3, 10000)) s.img.health r.cls

/-- The logical crew whose table's catches bound the counting interval of a resource (R31). -/
def State.followed (s : State) (r : Res) : Option Nat :=
  let dest (k : Nat) := let d := s.img.xbar.getD k 15; if d < 8 then some d else none
  match r with
  | .conv k => dest k
  | .tdac p => dest (2 * p)
  | .stage n _ => s.logicalOf n
  | .cdm n _ => s.logicalOf n
  | .clo n => some (s.fld (F.CLO_SRC_CREW n))
  | .vdr n => if s.fld (F.VDR_CFG_MODE n) = 2 then some (s.fld (F.VDR_HEAT_CREW n)) else none
  | .link l => if l < 8 then some l else none
  | _ => none

/-- The counting interval a transient detected now falls into (R31): the followed table and the number of its catches while it
issues catches, otherwise the fabric cycle. -/
def State.interval (s : State) (r : Res) : Nat × Nat :=
  match s.followed r with
  | some m => if (s.tabOf m).phase = .running then (m + 1, (s.tabOf m).catches) else (0, s.time.cycle)
  | none => (0, s.time.cycle)

def State.healthRec (s : State) (r : Res) : HealthRec := Tab.get (fun _ => HealthRec.init) s.healths r.key
def State.setHealthRec (s : State) (r : Res) (h : HealthRec) : State := { s with healths := Tab.put s.healths r.key h }

/-- A transient of a resource with the interval it counts in already named (R30). -/
def State.transientIn (s : State) (r : Res) (ivl : Nat × Nat) (cause : Nat) : State :=
  let h := s.healthRec r
  let n := (s.healthNW r).1
  if h.last = some ivl then s
  else
    match s.health r with
    | .service =>
      if n ≤ 1 then
        (((s.setHealth r .retired).setHealthRec r ⟨1, some ivl, s.time.cycle⟩).logRes r 1 cause).logRes r 3 cause
      else ((s.setHealth r .retry).setHealthRec r ⟨1, some ivl, s.time.cycle⟩).logRes r 1 cause
    | .retry =>
      if h.count + 1 < n then s.setHealthRec r { h with count := h.count + 1, last := some ivl }
      else ((s.setHealth r .retired).setHealthRec r { h with count := h.count + 1, last := some ivl }).logRes r 3 cause
    | .retired => s
    | .testing => s

/-- A transient of a resource (R30, R31). -/
def State.transient (s : State) (r : Res) (cause : Nat) : State := s.transientIn r (s.interval r) cause

/-- A fatal fault of a resource (R30). -/
def State.fatal (s : State) (r : Res) (cause : Nat) : State :=
  if s.inUse r then (s.setHealth r .retired).logRes r 3 (cause + 2 ^ 31) else s

/-- A re-admission command (R30): it starts the test of a RETIRED resource and is refused otherwise. -/
def State.readmit (s : State) (r : Res) : State :=
  match s.health r with
  | .retired => (s.setHealth r .testing).logRes r 4 0
  | h => s.logRes r 7 h.code

/-- The window W of a resource elapses (R30): W after the transient that opened it. -/
def State.windowElapsed (s : State) (r : Res) : State :=
  match s.health r with
  | .retry =>
    if s.lasted (s.healthRec r).opened ((s.healthNW r).2 * cycPerMs) then
      ((s.setHealth r .service).setHealthRec r { s.healthRec r with count := 0 }).logRes r 2 (s.healthRec r).count
    else s
  | _ => s

/-- A re-admission test passes (R30). -/
def State.testPassed (s : State) (r : Res) : State :=
  match s.health r with
  | .testing => ((s.setHealth r .service).setHealthRec r { s.healthRec r with count := 0 }).logRes r 5 0
  | _ => s

/-- A re-admission test fails with a code (R30). -/
def State.testFailed (s : State) (r : Res) (code : Nat) : State :=
  match s.health r with
  | .testing => (s.setHealth r .retired).logRes r 6 code
  | _ => s

/-! ## Converters, their tokens and their pairs (R121 to R154) -/

/-- The converter that reads a channel. -/
def convOfChan (i : Nat) : Nat := if i < 128 then i / 8 else if i < 144 then i - 128 else 16 + (i - 144) / 8

def ConvEntry.init : ConvEntry := ⟨false, 0, 0, 1, 0, 1, 0, 0, 0, 0, 0, 0, 0, false, 0, 0, 0, 0⟩
/-- The conversion table of a converter (R131). -/
def State.convTab (s : State) (k : Nat) : List ConvEntry := Tab.get (fun _ => []) s.img.conv k
def State.convEntry (s : State) (k e : Nat) : ConvEntry := (s.convTab k).getD e ConvEntry.init
/-- The destination crew of a converter stream; none when disabled (R129). -/
def State.streamDest (s : State) (k : Nat) : Option Nat :=
  let d := s.img.xbar.getD k 15
  if d < 8 then some d else none

/-- Whether the RECORD section selects a SIG (R286). -/
def State.recSelects (s : State) (sig : Nat) : Bool := (Tab.find s.rce.cfg.sels sig).isSome

/-- A token leaves converter `k` (R129): toward the ACQ port of the physical crew that the crew map names now, and toward RCE when RECORD selects
its SIG. -/
def State.convSend (s : State) (k : Nat) (t : Token) : State :=
  let s := s.emit (.tok (0x100 + k) t)
  let s := match (s.streamDest k).bind s.physOf with
    | some n => s.setConv k { s.convOf k with fly := (s.convOf k).fly ++ [(n, t)] }
    | none => s
  if s.recSelects t.sig.toNat then s.emit (.tok (0x300 + k) t) else s

/-- The substitute of a channel. -/
def State.subst (s : State) (i : Nat) : Word := s.rd (Reg.AFE_CH_SUBST i)

/-- Sends the ACHK token of a pair (R141, R145). -/
def State.sendAchk (s : State) (p : Nat) (value : Word) (st : BitVec 4) (cseq : Nat) : State :=
  s.convSend (2 * p) (mkToken (if st = 1 then s.subst (128 + 2 * p) else value) (BitVec.ofNat 12 (0x80 + p)) st cseq)

def State.pairState (s : State) (p : Nat) : Nat := s.fld (F.AFE_PAIR_STATUS_STATE p)

/-- Whether calibration of one of the pair's check channels is under way (R146). -/
def State.pairCal (s : State) (p : Nat) : Bool :=
  s.fld F.AFE_CAL_STATUS_STATE != 0 && (s.cal.ch == 128 + 2 * p || s.cal.ch == 129 + 2 * p)

/-- A pair takes a state (R146): an arbitration ends, check samples of one are discarded, with the ACHK token of their check entry carrying ST 1 (R143,
R145); those at hand when calibration begins or ends stay. -/
def State.pairSet (s : State) (p v : Nat) : State :=
  let x := s.pairOf p
  let keep := decide (v = 4) || decide (s.pairState p = 4) || decide (s.pairState p = v)
  let s := (s.setFld (F.AFE_PAIR_STATUS_STATE p) v).setPair p
    { x with arb := [], driving := none, smpA := if keep then x.smpA else none, smpB := if keep then x.smpB else none }
  match (if keep then none else x.smpA) with
  | some a => s.sendAchk p 0 1 a.cseq
  | none => s

/-- Brings a pair's state in line with its converters, its test DAC and the calibration unit (R145, R146, R148). -/
def State.pairRefresh (s : State) (p : Nat) : State :=
  let a := s.inUse (.conv (2 * p))
  let b := s.inUse (.conv (2 * p + 1))
  if !a && !b then s.pairSet p 5
  else if !a || !b then s.pairSet p 2
  else if s.pairCal p then s.pairSet p 4
  else if !s.inUse (.tdac p) then s.pairSet p 3
  else if s.pairState p = 1 then s
  else if s.pairState p = 0 then s
  else if s.pairState p = 4 then s.pairSet p 0
  else (s.pairSet p 0).setFld (F.AFE_PAIR_STATUS_MISMATCH p) 0

/-- Refuses a calibration command (R153). -/
def State.calRefuse (s : State) (code ch range : Nat) : State :=
  (s.setFld F.AFE_CAL_STATUS_REFUSE code).log 0x0519 0 (code + ch * 2 ^ 8 + range * 2 ^ 16)

/-- Returns the calibration unit to IDLE (R152). -/
def State.calIdle (s : State) : State :=
  let s := ((s.setFld F.AFE_CAL_STATUS_STATE 0).setFld F.AFE_CAL_STATUS_HAVE_LO 0).setFld F.AFE_CAL_STATUS_HAVE_HI 0
  if 128 ≤ s.cal.ch ∧ s.cal.ch < 144 then s.pairRefresh ((s.cal.ch - 128) / 2) else s

/-- What follows when a converter leaves service (R145, R152): its pair, and calibration of one of its channels. -/
def State.convRetired (s : State) (k : Nat) : State :=
  let s := if k < 16 then s.pairRefresh (k / 2) else s
  if s.fld F.AFE_CAL_STATUS_STATE ≠ 0 ∧ convOfChan s.cal.ch = k then
    s.calIdle.calRefuse 3 s.cal.ch s.cal.range
  else s

/-- A transient of a converter (R147), with what follows if it retires. -/
def State.convTransient (s : State) (k cause : Nat) : State :=
  let t := s.transient (.conv k) cause
  if s.inUse (.conv k) && !t.inUse (.conv k) then t.convRetired k else t

/-- A fatal fault of a converter (R144, R145). -/
def State.convFatal (s : State) (k cause : Nat) : State :=
  if s.inUse (.conv k) then (s.fatal (.conv k) cause).convRetired k else s

/-! ## Checking a token (R13, R16, R504) -/

/-- What a consumer makes of a token. -/
structure Checked where
  value : Word
  st    : BitVec 4
  good  : Bool
  deriving DecidableEq, Repr

/-- Whether the link that delivers a token is RETIRED, so that its tokens are treated as failing (R504). -/
def State.linkRetired (s : State) (link : Nat) : Bool :=
  decide (link < 12) && !s.inUse (.link link)

/-- The resource a mismatch is charged to (R504): a link, or the converter of a stream. -/
def linkRes (link : Nat) : Res := if link < 0x100 then .link link else .conv (link - 0x100)

/-- Notes a token found bad on a link: whether it is the first time (R31: its mismatch counts as one transient however many units find it). -/
def State.noteBad (s : State) (link : Nat) (t : Token) : Bool × State :=
  if s.fwl.bad.contains (link, t) then (false, s) else (true, s.setFwl { s.fwl with bad := s.fwl.bad ++ [(link, t)] })

/-- Charges one tag mismatch to the link that delivered the token (R13, R140, R504, R506). -/
def State.mismatch (s : State) (link : Nat) (t : Token) : State :=
  let (first, s) := s.noteBad link t
  if link < 0x100 then
    let s := s.countFld (F.FWL_LINK_TAGERR link) 1
    let s := s.logPerSecond link 0x1030 0 (t.sig.toNat + link * 2 ^ 24)
    let before := s.health (.link link)
    let s := if first then s.transient (.link link) 1 else s
    if s.health (.link link) = before then s else s.setFld F.FWL_STATUS_LINK 1
  else if first then s.convTransient (link - 0x100) 3 else s

/-- A consumer's check of a token (R13, R16): the value and status to use, and the state. -/
def State.check (s : State) (link : Nat) (subst : Word) (t : Token) : Checked × State :=
  if !t.ok then (⟨subst, 1, false⟩, s.mismatch link t)
  else if s.linkRetired link then (⟨subst, 1, false⟩, s)
  else if stReserved t.st then
    (⟨t.value, 1, true⟩, s.log 0x1030 0 (t.sig.toNat + 2 ^ 12 + link % 256 * 2 ^ 24))
  else (⟨t.value, t.st, true⟩, s)

end Sys2Proof.Machine
end

