-- ==== Sys2Proof/Machine/Plic.lean ====
section
/-! DEFINITION. The interrupt sources (R27, R28, and the rules of the owning chapters) and the PLIC that firmware reads and writes (R22). -/
namespace Sys2Proof.Machine

/-! ## Sources -/

/-- A flag register and its enable register have a common bit among those of a mask. -/
def State.gated (s : State) (flags enable mask : Nat) : Bool := s.num flags &&& s.num enable &&& mask != 0

/-- A crew a migration has left, until it passes re-admission: its sources no longer assert (R28). -/
def State.crewSilent (s : State) (n : Nat) : Bool := !s.inUse (.crew n) && (s.lsmOf n).left

/-- Source `k` of physical crew `n` (R28, R119, R179, R203, R284); a stranded crew asserts source 3 (R200). -/
def State.crewLevel (s : State) (n k : Nat) : Bool :=
  let en := s.num (Reg.COX_IRQ_EN n)
  if s.crewSilent n then false
  else if k = 0 then s.flag (F.COX_STATUS_WIN_DONE n) && bit en 0
  else if k = 1 then (s.flag (F.COX_STATUS_WAIT_EXC n) || s.flag (F.COX_STATUS_DROPPED n) || s.flag (F.COX_STATUS_LATE n)) && bit en 1
  else if k = 2 then s.gated (Reg.LPE_STATUS n) (Reg.LPE_IRQ_EN n) 15
  else if k = 3 then s.flag (F.LSM_STATUS_STRANDED n) || s.gated (Reg.LSM_STATUS n) (Reg.LSM_IRQ_EN n) 15
  else if k < 8 then s.gated (Reg.MOT_STATUS n) (Reg.MOT_IRQ_EN n) (15 * 2 ^ (4 * (k - 4)))
  else s.fld (F.COX_DP_STATUS_COUNT n (k - 8)) != 0 && bit en (2 + (k - 8))

/-- A channel's source (R28, R487). -/
def State.cdmLevel (s : State) (n ch : Nat) : Bool :=
  let st := s.num (Reg.CDM_STATUS n)
  !s.crewSilent n && (bit st ch || bit st (8 + ch)) && s.flag (F.CDM_CH_MODE_IEN n ch)

/-- A FIFO of DIN_8g to DIN_8g+7 holds an entry (R68). -/
def State.dinAny (s : State) (g : Nat) : Bool := (List.range 8).any (fun i => !(s.dinOf (8 * g + i)).fifo.isEmpty)

/-- Sources of CTU and DIO (R68). -/
def State.ctuLevel (s : State) (i : Nat) : Bool :=
  let ts := s.num Reg.CTU_TIME_STATE
  if i = 32 then s.flag F.CTU_PPS_IN_CTRL_CAP_VALID
  else if i = 33 then bit ts 3
  else if i = 34 then bit ts 10
  else if i = 35 then bit ts 2 || bit ts 9
  else if i < 40 then s.flag (F.CRS_STATUS_CHANGED (i - 36))
  else if i < 48 then s.dinAny (i - 40)
  else if i < 56 then s.num (Reg.DIO_OVF ((i - 48) / 4)) / 2 ^ (8 * ((i - 48) % 4)) % 256 != 0
  else if i = 56 then s.num Reg.CTU_SKIPPED % 256 != 0
  else false

/-- Sources of the record engine (R331). -/
def State.rceLevel (s : State) (i : Nat) : Bool :=
  let st := s.num Reg.RCE_STATUS; let en := s.num Reg.RCE_IRQ_EN
  if i = 352 then st % 64 != 0 && bit en 0
  else if i = 353 then bit st 11 && bit en 1
  else if i = 354 then bit st 10 && bit en 2
  else if 356 ≤ i ∧ i < 364 then
    (List.range 8).any (fun k => s.flag (F.CAP_STATUS_DONE (8 * (i - 356) + k)) && s.flag (F.CAP_CTRL_IEN (8 * (i - 356) + k)))
  else if 364 ≤ i ∧ i < 372 then
    let m := i - 364
    s.gated (Reg.RCE_TRG_FIRED (m / 2)) (Reg.RCE_TRG_IEN (m / 2)) (0xFFFF * 2 ^ (16 * (m % 2)))
  else false

/-- Bits of CAN_IRQ in group `k` (R378). -/
def canGroup (k : Nat) : Nat :=
  if k = 0 then 0x7 else if k = 1 then 0x20038 else if k = 2 then 0x3C0 else 0x5FC00

/-- Sources of CLO and VDR (R351). -/
def State.outLevel (s : State) (i : Nat) : Bool :=
  let ce := s.num Reg.CLO_IRQ_EN; let ve := s.num Reg.VDR_IRQ_EN
  if i = 440 then s.num Reg.CLO_FLT % 2 ^ 16 != 0 && bit ce 0
  else if i = 441 then s.num Reg.CLO_FLT / 2 ^ 16 != 0 && bit ce 1
  else if i = 442 then
    [Reg.VDR_TRIP 0, Reg.VDR_TRIP 1, Reg.VDR_OT 0, Reg.VDR_OT 1, Reg.VDR_OPEN 0, Reg.VDR_OPEN 1].any (fun a => s.num a != 0) && bit ve 0
  else if i = 443 then s.num Reg.VDR_GRP / 16 % 16 != 0 && bit ve 1
  else false

/-- Whether PLIC source `i` is asserted. -/
def State.irqLevel (s : State) (i : Nat) : Bool :=
  if i = 0 then false
  else if i < 8 then s.gated Reg.RPC_IRQ Reg.RPC_IRQ_EN (2 ^ i)
  else if i = 16 then s.flag F.VLT_RES_DONE && bit (s.num Reg.VLT_IRQ_EN) 0
  else if i = 17 then (s.flag F.VLT_STATUS_ENTROPY_FAIL || s.flag F.VLT_STATUS_DBG_CHG) && bit (s.num Reg.VLT_IRQ_EN) 1
  else if 20 ≤ i ∧ i < 23 then s.gated Reg.FWL_STATUS Reg.FWL_IRQ_EN (2 ^ (i - 20))
  else if 24 ≤ i ∧ i < 31 then s.gated Reg.PVM_IRQ Reg.PVM_IRQ_EN (2 ^ (i - 24))
  else if i < 32 then false
  else if i < 64 then s.ctuLevel i
  else if i < 96 then s.gated (Reg.CAN_IRQ ((i - 64) / 4)) (Reg.CAN_IRQ_EN ((i - 64) / 4)) (canGroup (i % 4))
  else if i < 120 then s.gated (Reg.ETH_IRQ ((i - 96) / 4)) (Reg.ETH_IRQ_EN ((i - 96) / 4)) (2 ^ (i % 4))
  else if i < 125 then s.gated Reg.PLK_IRQ Reg.PLK_IRQ_EN (2 ^ (i - 120))
  else if i < 128 then false
  else if i < 272 then s.crewLevel ((i - 128) / 16) (i % 16)
  else if i < 344 then s.cdmLevel ((i - 272) / 8) (i % 8)
  else if i < 352 then
    let c := (i - 344) / 2
    if i % 2 = 0 then s.flag (F.RMV_STATUS_HALF c) && s.flag (F.RMV_CTRL_HALF_IE c)
    else (s.flag (F.RMV_STATUS_FULL c) || s.flag (F.RMV_STATUS_OVR c) || s.fld (F.RMV_STATUS_STATE c) == 2) && s.flag (F.RMV_CTRL_FULL_IE c)
  else if i < 384 then s.rceLevel i
  else if i < 400 then bit (s.num Reg.SEQ_RCHG) (i - 384) && bit (s.num Reg.SEQ_IRQ_EN) (i - 384)
  else if i < 404 then bit (s.num Reg.SEQ_STATUS) (i - 400) && bit (s.num Reg.SEQ_IRQ_EN) (16 + (i - 400))
  else if i < 416 then false
  else if i = 416 then s.gated Reg.CYC_IRQ Reg.CYC_IRQ_EN 1
  else if i = 417 then s.gated Reg.CYC_IRQ Reg.CYC_IRQ_EN 0x3E
  else s.outLevel i

/-! ## The PLIC (R22; notes/assumptions/60.md) -/

def plicBase : Nat := 0xE0400000

/-- A source waits to be claimed: it is asserted and not being served. -/
def State.irqPending (s : State) (i : Nat) : Bool := s.irqLevel i && !s.claimed.contains i

/-- A context has enabled a source. -/
def State.irqEnabled (s : State) (ctx i : Nat) : Bool := s.rbit (plicBase + 0x2000 + 0x80 * ctx + 4 * (i / 32)) (i % 32)

def State.irqPriority (s : State) (i : Nat) : Nat := s.num (plicBase + 4 * i)

/-- The source a claim of a context names: the waiting, enabled source of the highest priority, the lowest number first; 0 when there is none. -/
def State.irqBest (s : State) (ctx : Nat) : Nat :=
  (List.range 448).foldl (fun b i =>
    if s.irqEnabled ctx i && s.irqPending i && decide ((if b = 0 then 0 else s.irqPriority b) < s.irqPriority i) then i else b) 0

/-- Whether the PLIC defines a word at an offset. -/
def plicDefined (o : Nat) : Bool :=
  decide (o < 0x1000) || (decide (0x1000 ≤ o) && decide (o < 0x1080)) || (decide (0x2000 ≤ o) && decide (o < 0x2800)) ||
    (decide (0x200000 ≤ o) && decide (o < 0x210000) && decide (o % 0x1000 < 8))

/-- A read of a PLIC word; a claim takes its source. -/
def State.plicRead (s : State) (o : Nat) : Nat × State :=
  if 0x1000 ≤ o ∧ o < 0x1080 then
    ((List.range 32).foldl (fun v k => v + b2n (s.irqPending (8 * (o - 0x1000) + k)) * 2 ^ k) 0, s)
  else if 0x200000 ≤ o ∧ o % 0x1000 = 4 then
    let i := s.irqBest ((o - 0x200000) / 0x1000)
    (i, if i = 0 then s else s.setClaimed (s.claimed ++ [i]))
  else (s.num (plicBase + o), s)

/-- A write of a PLIC word; a completion gives its source back. -/
def State.plicWrite (s : State) (o v : Nat) : State :=
  if o < 4 ∨ (0x1000 ≤ o ∧ o < 0x1080) then s
  else if 0x200000 ≤ o ∧ o % 0x1000 = 4 then
    if s.irqEnabled ((o - 0x200000) / 0x1000) v then s.setClaimed (s.claimed.filter (fun i => i != v)) else s
  else if 0x2000 ≤ o ∧ o < 0x2800 ∧ o % 0x80 = 0 then s.setNum (plicBase + o) (v / 2 * 2)
  else s.setNum (plicBase + o) v

end Sys2Proof.Machine
end

