-- ==== Sys2Proof/Machine/Evl.lean ====
section
/-! DEFINITION. The event log's copies and software events (R33 to R39). -/
namespace Sys2Proof.Machine

/-- The 16 bytes of an entry (R33). -/
def Event.bytes (e : Event) : List Nat :=
  leBytes 4 e.sec ++ leBytes 4 e.nsec ++ leBytes 2 e.code ++ leBytes 2 e.source ++ leBytes 4 e.detail

/-- A slot of the boathouse ring and of the MRAM mirror (R38, R20). -/
def bhAddr (i : Nat) : Nat := 0x0803F000 + 16 * (i % 256)
def evlMirrorAddr (i : Nat) : Nat := 0x8A800000 + 16 * (i % 524288)

/-- The first byte of the DRAM log. -/
def State.evlBase (s : State) : Nat := s.fld F.EVL_BASE_LO_BASE * 4096 + s.fld F.EVL_BASE_HI_BASE * 2 ^ 32

/-- Writes one entry's bytes to the DRAM log. -/
def State.dramLog (s : State) (b : List Nat) : State :=
  let i := s.num Reg.EVL_WR_IDX
  (s.wrList (s.evlBase + 16 * (i % 2 ^ s.fld F.EVL_SIZE_LOG2_ENTRIES)) b).setNum Reg.EVL_WR_IDX (i + 1)

/-- EVL_DRAIN (R37, R38): the oldest entry goes to every copy; once space has returned, the entries lost are logged. -/
def execEvlDrain (s : State) : Host.Outcome State Fault Refusal :=
  match s.evl.queue with
  | [] => .next s
  | e :: l =>
    let i := s.fld F.EVL_BH_IDX_BH_IDX
    let s := (s.wrList (evlMirrorAddr s.evl.mirrorIdx) e.bytes).wrList (bhAddr i) e.bytes
    let s := s.setFld F.EVL_BH_IDX_BH_IDX ((i + 1) % 256)
    let s := if s.flag F.EVL_CTRL_DRAM_EN then s.dramLog e.bytes else s
    let lost := s.evl.lostRun
    let s := s.setEvl { s.evl with
      queue := l, mirrorIdx := (s.evl.mirrorIdx + 1) % 524288, sinceReset := s.evl.sinceReset + 1, lostRun := 0 }
    .next (s.logIf (lost != 0) 0x0010 0 lost)

/-- EVL_DRAM_ENABLE (R38): a write of 1 to DRAM_EN while it is 0. -/
def execEvlDramEnable (s : State) : Host.Outcome State Fault Refusal :=
  if s.flag F.EVL_CTRL_DRAM_EN then .next s
  else
    let n := min 256 s.evl.sinceReset
    let i := s.fld F.EVL_BH_IDX_BH_IDX
    let s := s.setFld F.EVL_CTRL_DRAM_EN 1
    let s := (List.range n).foldl (fun s k => s.dramLog (s.rdList (bhAddr (i + 256 - n + k)) 16)) s
    .next (s.log 0x0011 0 n)

/-- SW_EVENT_RAISE (R36): a core's write to EVL_SW_CODE. -/
def execSwEventRaise (c : Fin 8) (subcode : BitVec 7) (s : State) : Host.Outcome State Fault Refusal :=
  .next (s.log (0x0080 + subcode.toNat) (0x7000 + c) (Tab.get (fun _ => (0 : Word)) s.evl.swDetail c).toNat)

/-- SW_EVENT_DETAIL_WRITE (R36): a core's write to EVL_SW_DETAIL. -/
def execSwEventDetailWrite (c : Fin 8) (v : Word) (s : State) : Host.Outcome State Fault Refusal :=
  .next (s.setEvl { s.evl with swDetail := Tab.put s.evl.swDetail c v })

end Sys2Proof.Machine
end

