-- ==== Sys2Proof/Machine/CtOps.lean ====
section
/-! DEFINITION. Catch tables and courses as other blocks read them (chapter 02). -/
namespace Sys2Proof.Machine

/-- Whether an encoder reports a fault (R268). -/
def State.encFaulty (s : State) (g : Nat) : Bool := s.flag (F.ENC_STATUS_LINE g) || !s.inUse (.enc g)

/-- State of the time base (R56): 0 UNSET, 1 FREE, 2 LOCKED, 3 HOLDOVER. -/
def State.timeState (s : State) : Nat := s.fld F.CTU_TIME_STATE_STATE

/-- A course generator is enabled and follows source `src`. -/
def State.courseSrc (s : State) (c src : Nat) : Bool :=
  s.flag (F.CRS_CFG_EN c) && s.fld (F.CRS_CFG_SRC c) == src

/-- The position of the course a table is bound to. -/
def State.tabCourse (s : State) (m : Nat) : Nat := (s.courseOf (s.fld (F.CT_CFG_CRS m))).pos

def State.ctPeriod (s : State) (m : Nat) : Nat := s.num (Reg.CT_PERIOD_LO m) + 2 ^ 32 * s.fld (F.CT_PERIOD_HI_PERIOD m)
def State.ctOrigin (s : State) (m : Nat) : Nat := s.num64 (Reg.CT_ORIGIN_LO m) (Reg.CT_ORIGIN_HI m)
def State.ctNent (s : State) (m : Nat) : Nat := s.fld (F.CT_CFG_NENT m)
def State.ctOffset (s : State) (m e : Nat) : Nat := s.num (Reg.CT_ENTRY_LO m e) + 2 ^ 32 * s.fld (F.CT_ENTRY_HI_OFFSET m e)

/-- Two catch tables have an equal course (R582). -/
def State.equalCourse (s : State) (a b : Nat) : Bool :=
  let ca := s.fld (F.CT_CFG_CRS a); let cb := s.fld (F.CT_CFG_CRS b)
  ca == cb || (s.courseSrc ca 0 && s.courseSrc cb 0)

/-- Equal course, ORIGIN and PERIOD (R582). -/
def State.equalTable (s : State) (a b : Nat) : Bool :=
  s.equalCourse a b && s.ctOrigin a == s.ctOrigin b && s.ctPeriod a == s.ctPeriod b

/-- The module may run its tables and recipes: it holds the pair token, or is not in a pair (R438, R439). -/
def State.holdsToken (s : State) : Bool := s.fld F.PLK_STATUS_ROLE == 0 || s.fld F.PLK_STATUS_ROLE == 2

/-- The course position relative to ORIGIN (R47): strokes begin at ORIGIN + k × PERIOD for integer k, so it is a signed difference (R41).
DESIGN CHOICE (notes/assumptions/112.md): at 2^63 units from ORIGIN the stroke index starts over at the other end. -/
def State.relPos (s : State) (m pos : Nat) : Int := posDiff pos (s.ctOrigin m)

/-- The course position of crew `m`'s catch with a CSEQ: the one nearest to the course (R47). -/
def State.cseqPos (s : State) (m cseq : Nat) : Nat :=
  let k : Int := s.relPos m (s.tabCourse m) / (s.ctPeriod m : Int)
  let k := k + strokeDiff (strokeOf cseq) (ofSigned 26 k)
  ofSigned 64 ((s.ctOrigin m : Int) + k * s.ctPeriod m + s.ctOffset m (cseqEntry cseq))

/-- A network time in whole nanoseconds as a stamp. -/
def Stamp.ofNs (ns : Nat) : Stamp := Stamp.ofUnits (ns * 2 ^ 24)

end Sys2Proof.Machine
end

