-- ==== Sys2Proof/Machine/DmaOps.lean ====
section
/-! DEFINITION. Starting and stopping crew DMA channels (R479 to R487). -/
namespace Sys2Proof.Machine

def State.dmaOf (s : State) (n ch : Nat) : DmaChan := Tab.get (fun _ => DmaChan.init) s.dma (8 * n + ch)
def State.setDma (s : State) (n ch : Nat) (d : DmaChan) : State := { s with dma := Tab.put s.dma (8 * n + ch) d }

/-- State of a channel (R483): 0 IDLE, 1 ACTIVE, 2 HALTED, 3 FROZEN. -/
def State.cdmState (s : State) (n ch : Nat) : Nat := s.fld (F.CDM_CH_STATE_STATE n ch)

/-- Moves a channel to a state and keeps CDM_STATUS.ACTIVE in step. -/
def State.setCdmState (s : State) (n ch v : Nat) : State :=
  (s.setFld (F.CDM_CH_STATE_STATE n ch) v).setRbit (Reg.CDM_STATUS n) (16 + ch) (v == 1)

/-- Records a refusal (R483): 1 BUSY, 2 OWNER, 3 ALIGN, 4 COUNT, 5 RETIRED. -/
def State.cdmRefuse (s : State) (n ch code : Nat) : State := s.setFld (F.CDM_CH_STATE_REFUSE n ch) code

/-- The bytes of an element. -/
def State.cdmEsize (s : State) (n ch : Nat) : Nat := 2 ^ s.fld (F.CDM_CH_MODE_ESIZE n ch)
def State.cdmSrc (s : State) (n ch : Nat) : Nat := s.num (Reg.CDM_CH_SRC_LO n ch) + 2 ^ 32 * s.fld (F.CDM_CH_SRC_HI_ADDR n ch)
def State.cdmDst (s : State) (n ch : Nat) : Nat := s.num (Reg.CDM_CH_DST_LO n ch) + 2 ^ 32 * s.fld (F.CDM_CH_DST_HI_ADDR n ch)

/-- The refusal of a start by the checks of R480 and R481: COUNT, then ALIGN; 0 when they pass. -/
def State.cdmCheck (s : State) (n ch : Nat) : Nat :=
  let e := s.cdmEsize n ch
  let steps := [s.num (Reg.CDM_CH_SS0 n ch), s.num (Reg.CDM_CH_SS1 n ch), s.num (Reg.CDM_CH_SS2 n ch),
                s.num (Reg.CDM_CH_DS0 n ch), s.num (Reg.CDM_CH_DS1 n ch), s.num (Reg.CDM_CH_DS2 n ch)]
  if s.fld (F.CDM_CH_C0_C n ch) = 0 ∨ s.fld (F.CDM_CH_C1_C n ch) = 0 ∨ s.fld (F.CDM_CH_C2_C n ch) = 0 then 4
  else if s.cdmSrc n ch % e ≠ 0 ∨ s.cdmDst n ch % e ≠ 0 ∨ steps.any (fun x => decide (x % e ≠ 0)) then 3
  else if s.flag (F.CDM_CH_MODE_BSWAP n ch) && decide (e < 2) then 3
  else if s.flag (F.CDM_CH_MODE_HSWAP n ch) && decide (e < 4) then 3
  else 0

/-- A start of a channel by its owner (R483, R486): refused with BUSY while ACTIVE, with RETIRED, or with a check's code;
otherwise ACTIVE from element 0. -/
def State.cdmStart (s : State) (n ch : Nat) (task : Option (Nat × Nat)) : State :=
  if !s.inUse (.cdm n ch) then s.cdmRefuse n ch 5
  else if s.cdmState n ch = 1 then s.cdmRefuse n ch 1
  else if s.cdmState n ch = 3 then s
  else if s.cdmCheck n ch ≠ 0 then s.cdmRefuse n ch (s.cdmCheck n ch)
  else
    let s := (s.setNum (Reg.CDM_CH_POS n ch) 0).setDma n ch ⟨0, s.fld (F.CDM_CH_MODE_RETRY n ch), false, task⟩
    s.setCdmState n ch 1

/-- A channel halts with a cause (R483): 1 BUS, 2 ECC, 3 ABORT, 4 FIREWALL. -/
def State.cdmHalt (s : State) (n ch cause : Nat) : State :=
  let s := (s.setCdmState n ch 2).setFld (F.CDM_CH_STATE_CAUSE n ch) cause
  let s := s.setRbit (Reg.CDM_STATUS n) (8 + ch) true
  if cause = 1 ∨ cause = 2 then
    s.log 0x1013 (0x8000 + 8 * n + ch) (cause + min (s.dmaOf n ch).pos (2 ^ 24 - 1) * 2 ^ 8)
  else s

/-- The channel of crew `n` that context `x` owns as TASK (R479). -/
def State.taskChan (s : State) (n x : Nat) : Option Nat :=
  (List.range 8).find? (fun ch =>
    s.flag (F.CDM_CH_CFG_EN n ch) && s.fld (F.CDM_CH_CFG_OWNER n ch) == 1 && s.fld (F.CDM_CH_CFG_CTX n ch) == x)

end Sys2Proof.Machine
end

