-- ==== Sys2Proof/Machine/Cox.lean ====
section
/-! DEFINITION. The cox: matching, resolution, dispatch and release of tasks, dispatch ports and observation windows
(chapter 04).  `n` is the physical crew, `x` the context. -/
namespace Sys2Proof.Machine

/-! ## Contexts -/

def CoxState.ctx (c : CoxState) (x : Nat) : CoxCtx := Tab.get (fun _ => CoxCtx.init) c.ctxs x
def State.ctxOf (s : State) (n x : Nat) : CoxCtx := (s.coxOf n).ctx x
def State.setCtx (s : State) (n x : Nat) (c : CoxCtx) : State :=
  s.setCox n { s.coxOf n with ctxs := Tab.put (s.coxOf n).ctxs x c }
/-- Match entry `w` (0 or 1) of a context. -/
def CoxCtx.entry (c : CoxCtx) (w : Nat) : MEntry := if w = 0 then c.e0 else c.e1
def CoxCtx.setEntry (c : CoxCtx) (w : Nat) (e : MEntry) : CoxCtx := if w = 0 then { c with e0 := e } else { c with e1 := e }
def State.entryOf (s : State) (n x w : Nat) : MEntry := (s.ctxOf n x).entry w
def State.setEntry (s : State) (n x w : Nat) (e : MEntry) : State := s.setCtx n x ((s.ctxOf n x).setEntry w e)

/-- The routes of the image for the logical crew that runs on crew `n`. -/
def State.routes (s : State) (n : Nat) : List (Nat × CtxRoute) :=
  match s.logicalOf n with
  | some m => Tab.get (fun _ => []) s.img.routes m
  | none => []
def State.route (s : State) (n x : Nat) : CtxRoute := Tab.get (fun _ => ⟨[], []⟩) (s.routes n) x
def SlotCfg.init : SlotCfg := ⟨0, 0, 1, 0, 0⟩
def State.slotCfg (s : State) (n x k : Nat) : SlotCfg := (s.route n x).slots.getD k SlotCfg.init

def State.ctxValid (s : State) (n x : Nat) : Bool := s.flag (F.COX_CTX_CFG_VALID n x)
def State.ctxNops (s : State) (n x : Nat) : Nat := s.fld (F.COX_CTX_CFG_NOPS n x) + 1
def State.ctxNres (s : State) (n x : Nat) : Nat := s.fld (F.COX_CTX_CFG_NRES n x) + 1
def State.ctxPrio (s : State) (n x : Nat) : Nat := s.fld (F.COX_CTX_CFG_PRIO n x)
def State.ctxTarget (s : State) (n x : Nat) : Nat := s.fld (F.COX_CTX_CFG_TARGET n x)
/-- The kind of a slot (R96): 0 SYNC, 1 HOLD, 2 CATCH. -/
def State.slotKind (s : State) (n x k : Nat) : Nat := s.fld (F.COX_CTX_CFG_KINDS n x) / 4 ^ k % 4

/-- The link of a crew's cox (R504): its logical crew. -/
def State.coxLink (s : State) (n : Nat) : Nat := (s.logicalOf n).getD 0

/-- A substitute operand (R13, R100, R103): ST = 1, tagged by the cox (R502). -/
def State.substOp (s : State) (n x k cseq : Nat) : Opnd :=
  ⟨mkToken (s.slotCfg n x k).subst (s.slotCfg n x k).sig 1 cseq, s.coxLink n⟩

/-- The operand of a CATCH slot (R96): value 0 with the catch's CSEQ. -/
def State.catchOp (s : State) (n x k cseq : Nat) : Opnd :=
  ⟨mkToken 0 (s.slotCfg n x k).sig 0 cseq, s.coxLink n⟩

/-- Marks an operand stale after checking its TAG (R101).  DESIGN CHOICE (notes/assumptions/115.md): an operand whose reserved ST is taken as 1 (R14)
is written anew with ST 1. -/
def State.markStale (s : State) (n x k : Nat) (o : Opnd) : Opnd × State :=
  let (c, s) := s.check o.link (s.slotCfg n x k).subst o.tok
  let sig := if c.good then o.tok.sig else (s.slotCfg n x k).sig
  let st : BitVec 4 := if c.st = 1 then 1 else 3
  if c.good && o.tok.st == 1 then (o, s)
  else (⟨mkToken c.value sig st o.tok.cseq.toNat, s.coxLink n⟩, s)

/-! ## Ready lists (R105) -/

/-- The length of a ready list in COX_DEPTH_p. -/
def State.syncDepth (s : State) (n p : Nat) : State :=
  let d := ((s.coxOf n).lists.getD p []).length
  let s := s.setFld (F.COX_DEPTH_CUR n p) d
  if s.fld (F.COX_DEPTH_MAX n p) < d then s.setFld (F.COX_DEPTH_MAX n p) d else s

def State.setList (s : State) (n p : Nat) (l : List (Nat × Nat)) : State :=
  (s.setCox n { s.coxOf n with lists := (s.coxOf n).lists.set p l }).syncDepth n p

/-- Joins the tail of a list; entries that became READY in this cycle stand in ascending context number (R105). -/
def State.joinList (s : State) (n x w : Nat) : List (Nat × Nat) → List (Nat × Nat)
  | [] => [(x, w)]
  | (y, v) :: l =>
    if (s.entryOf n y v).readyAt = s.time.cycle ∧ !(s.entryOf n y v).rerun ∧ x < y then (x, w) :: (y, v) :: l
    else (y, v) :: s.joinList n x w l

/-! ## Becoming READY (R100) -/

/-- The operand a HOLD slot gives an entry (R100, R101).  DESIGN CHOICE (notes/assumptions/115.md): a token that came before the first catch of the
table's run has no arrival stroke yet and counts as not stale. -/
def State.holdOp (s : State) (n x k cseq : Nat) : Opnd × State :=
  match (s.ctxOf n x).held.getD k none with
  | none => (s.substOp n x k cseq, s)
  | some (o, arr) =>
    let age := match arr with
      | some a => strokeDiff (strokeOf cseq) a
      | none => 0
    let mx := s.fld (F.COX_CTX_CFG_MAXAGE n x)
    if mx ≠ 0 ∧ (mx : Int) ≤ age then s.markStale n x k o else (o, s)

/-- Fills slot `k` of an entry. -/
def State.fillSlot (s : State) (n x w k : Nat) (o : Opnd) : State :=
  s.setEntry n x w { s.entryOf n x w with ops := (s.entryOf n x w).ops.set k (some o) }

/-- Keeps the SYNC operands of an entry that became READY with tokens of its own CSEQ (R103). -/
def State.keepOps (s : State) (n x w : Nat) (filled : List Nat) : State :=
  filled.foldl (fun s k =>
    let e := s.entryOf n x w
    match e.ops.getD k none with
    | some o =>
      if s.slotKind n x k = 0 then
        match (s.ctxOf n x).kept.getD k none with
        | some old =>
          if seqBefore old.tok.cseq.toNat e.cseq then
            s.setCtx n x { s.ctxOf n x with kept := (s.ctxOf n x).kept.set k (some o) }
          else s
        | none => s.setCtx n x { s.ctxOf n x with kept := (s.ctxOf n x).kept.set k (some o) }
      else s
    | none => s) s

/-- An entry becomes READY (R100): HOLD operands are copied, its own SYNC tokens are kept, and it joins its list. -/
def State.makeReady (s : State) (n x w : Nat) (filled : List Nat) : State :=
  let cseq := (s.entryOf n x w).cseq
  let s := s.keepOps n x w filled
  let s := (List.range (s.ctxNops n x)).foldl (fun s k =>
    if s.slotKind n x k = 1 then
      let (o, s) := s.holdOp n x k cseq
      s.fillSlot n x w k o
    else s) s
  let s := s.setEntry n x w { s.entryOf n x w with state := .ready, readyAt := s.time.cycle, rerun := false,
                                                   done := false, confirmed := false, results := [] }
  let p := s.ctxPrio n x
  s.setList n p (s.joinList n x w ((s.coxOf n).lists.getD p []))

/-- The SYNC and CATCH slots of a context that an entry has not filled. -/
def State.missing (s : State) (n x w : Nat) : List Nat :=
  (List.range (s.ctxNops n x)).filter (fun k =>
    s.slotKind n x k != 1 && ((s.entryOf n x w).ops.getD k none).isNone)

/-- The SYNC and CATCH slots an entry has filled. -/
def State.present (s : State) (n x w : Nat) : List Nat :=
  (List.range (s.ctxNops n x)).filter (fun k =>
    s.slotKind n x k != 1 && ((s.entryOf n x w).ops.getD k none).isSome)

/-- An OPEN entry becomes READY once nothing is missing (R100). -/
def State.readyIfComplete (s : State) (n x w : Nat) : State :=
  if (s.entryOf n x w).state = .opened ∧ (s.missing n x w).isEmpty then s.makeReady n x w (s.present n x w) else s

/-! ## Resolution and overrun (R103, R104) -/

/-- Counts a stale resolution (R103). -/
def State.countStale (s : State) (n x : Nat) (mask : Nat) : State :=
  let s := (s.countFld (F.COX_CTX_MISC_STALE n x) 1).count (Reg.COX_TOT_STALE n) 1
  if (s.ctxOf n x).staleLog then s
  else (s.setCtx n x { s.ctxOf n x with staleLog := true }).log 0x0411 (0x1000 + n) (x + mask * 2 ^ 16)

/-- Counts a discard at overrun (R104). -/
def State.countDrop (s : State) (n x k : Nat) : State :=
  let s := ((s.countFld (F.COX_CTX_MISC_DROP n x) 1).count (Reg.COX_TOT_DROP n) 1).setFld (F.COX_STATUS_DROPPED n) 1
  if (s.ctxOf n x).dropLog then s
  else (s.setCtx n x { s.ctxOf n x with dropLog := true }).log 0x0410 (0x1000 + n) (x + k * 2 ^ 12)

/-- Discards a late or duplicate token (R99). -/
def State.lateToken (s : State) (n x k : Nat) : State :=
  ((s.count (Reg.COX_TOT_LATE n) 1).setFld (F.COX_STATUS_LATE n) 1).log 0x0412 (0x1000 + n) (x + k * 2 ^ 12)

/-- A set of slots as a mask. -/
def slotMask (l : List Nat) : Nat := l.foldl (fun m k => m + 2 ^ k) 0

/-- Resolves an OPEN entry by the context's stale policy (R103). -/
def State.resolve (s : State) (n x w : Nat) : State :=
  let miss := s.missing n x w
  let own := s.present n x w
  let cseq := (s.entryOf n x w).cseq
  let pol := s.fld (F.COX_CTX_CFG_STALE_POL n x)
  let s := s.countStale n x (slotMask miss)
  if pol = 2 then s.setEntry n x w MEntry.init
  else
    let s := miss.foldl (fun s k =>
      if s.slotKind n x k = 2 then s.fillSlot n x w k (s.catchOp n x k cseq)
      else
        match pol, (s.ctxOf n x).kept.getD k none with
        | 0, some o =>
          if seqBefore o.tok.cseq.toNat cseq then
            let (o', s) := s.markStale n x k o
            s.fillSlot n x w k o'
          else s.fillSlot n x w k (s.substOp n x k cseq)
        | _, _ => s.fillSlot n x w k (s.substOp n x k cseq)) s
    s.makeReady n x w own

/-- The entry (0 or 1) that satisfies a test, entry 0 first. -/
def State.findEntry (s : State) (n x : Nat) (f : MEntry → Bool) : Option Nat :=
  if f (s.entryOf n x 0) then some 0 else if f (s.entryOf n x 1) then some 1 else none

/-- The OPEN entry with the older CSEQ (R104). -/
def State.olderOpen (s : State) (n x : Nat) : Option Nat :=
  let o (w : Nat) := (s.entryOf n x w).state == .opened
  match o 0, o 1 with
  | true, true => some (if seqBefore (s.entryOf n x 1).cseq (s.entryOf n x 0).cseq then 1 else 0)
  | true, false => some 0
  | false, true => some 1
  | false, false => none

/-- Places an operand with catch sequence `q` into slot `k` (R99 steps 2 to 5, R104); `fuel` bounds the retries of
RESOLVE_OLD. -/
def State.place (s : State) (n x k q : Nat) (o : Opnd) : Nat → State
  | 0 => s.countDrop n x k
  | fuel + 1 =>
    match s.findEntry n x (fun e => e.state == .opened && e.cseq == q) with
    | some w =>
      if ((s.entryOf n x w).ops.getD k none).isSome then s.lateToken n x k
      else (s.fillSlot n x w k o).readyIfComplete n x w
    | none =>
      let busy (e : MEntry) : Bool := e.state != .free
      let e0 := s.entryOf n x 0
      let e1 := s.entryOf n x 1
      let taken (e : MEntry) : Bool := (e.state == .ready || e.state == .issued) && e.cseq == q
      if taken e0 || taken e1 then s.lateToken n x k
      else if (busy e0 || busy e1) && (!busy e0 || seqBefore q e0.cseq) && (!busy e1 || seqBefore q e1.cseq) then
        s.lateToken n x k
      else
        match s.findEntry n x (fun e => e.state == .free) with
        | some w =>
          let s := s.setEntry n x w { MEntry.init with state := .opened, cseq := q }
          (s.fillSlot n x w k o).readyIfComplete n x w
        | none =>
          if s.flag (F.COX_CTX_CFG_OVR_POL n x) then
            match s.olderOpen n x with
            | some w => (s.resolve n x w).place n x k q o fuel
            | none => s.countDrop n x k
          else s.countDrop n x k

/-- A token arrives for slot `k` (R99). -/
def State.coxToken (s : State) (n x k link : Nat) (t : Token) : State :=
  if !s.ctxValid n x || decide (s.ctxNops n x ≤ k) then s
  else if s.slotKind n x k = 1 then
    let arr := (s.coxOf n).lastCatch.map strokeOf
    s.setCtx n x { s.ctxOf n x with held := (s.ctxOf n x).held.set k (some (⟨t, link⟩, arr)) }
  else s.place n x k t.cseq.toNat ⟨t, link⟩ 3

/-- A token for a migrating crew is discarded, and counted once however many contexts consume it (R198). -/
def State.dropToken (s : State) (m : Nat) (t : Token) : State :=
  match s.mig with
  | some g =>
    if g.m = m ∧ !g.toks.contains (t.sig.toNat, t.cseq.toNat) then
      (s.setMig (some { g with toks := (t.sig.toNat, t.cseq.toNat) :: g.toks })).count (Reg.LSM_MIG_DROP g.dst) 1
    else s
  | none => s

/-- A discarded item of the crew a migration leaves (R198). -/
def State.dropItem (s : State) (n : Nat) : State :=
  match s.mig with
  | some g => if g.src = n then s.count (Reg.LSM_MIG_DROP g.dst) 1 else s
  | none => s

/-- COX_TOKEN_ARRIVAL (R99): the token of link `link` for slot `k` of context `x` of logical crew `m`. -/
def execCoxTokenArrival (m : Fin 8) (x : Fin 512) (k : Fin 4) (link : Nat) (t : Token) (s : State) :
    Host.Outcome State Fault Refusal :=
  match s.physOf m with
  | some n => if s.crewDeaf n then .next (s.dropToken m t) else .next (s.coxToken n x k link t)
  | none => .next s

/-! ## Catches (R51, R96, R102) -/

/-- The deadline test of R102.  DESIGN CHOICE (notes/assumptions/115.md): of an entry opened after its deadline catch, the next catch is the deadline. -/
def State.deadlinePassed (s : State) (n x q q' : Nat) : Bool :=
  let d := (q / 64 * 64 + 64 * s.fld (F.COX_CTX_DL_DL_STROKE n x) + s.fld (F.COX_CTX_DL_DL_ENTRY n x)) % 2 ^ 32
  decide (0 ≤ seqDiff q' d) && seqBefore q q'

/-- The OPEN entries of a context whose deadline is the catch, resolved (R102, R103).  DESIGN CHOICE (notes/assumptions/115.md): of two entries with
one deadline the one with the older CSEQ is resolved first. -/
def State.deadlines (s : State) (n x q' : Nat) : State :=
  (if seqBefore (s.entryOf n x 1).cseq (s.entryOf n x 0).cseq then [1, 0] else [0, 1]).foldl (fun s w =>
    let e := s.entryOf n x w
    if e.state == .opened && s.deadlinePassed n x e.cseq q' then s.resolve n x w else s) s

/-- The CATCH slots of a context that the catch fills (R96, R99). -/
def State.catchSlots (s : State) (n x q : Nat) : State :=
  (List.range (s.ctxNops n x)).foldl (fun s k =>
    let c := s.slotCfg n x k
    if s.slotKind n x k = 2 && c.e == cseqEntry q && strokeOf q % c.div == c.phase then
      s.place n x k q (s.catchOp n x k q) 3
    else s) s

/-- Gives the held tokens that came before the table's first catch their arrival stroke (R99). -/
def State.stampHeld (s : State) (n x stroke : Nat) : State :=
  s.setCtx n x { s.ctxOf n x with held := (s.ctxOf n x).held.map (fun h =>
    match h with
    | some (o, none) => some (o, some stroke)
    | h => h) }

/-- The strokes of the observation window up to a catch that starts a stroke (R114): the stroke starts that the table passed over (R49) count too. -/
def CoxState.strokesAt (c : CoxState) (q : Nat) : Nat :=
  c.winStroke + (match c.lastCatch with
    | some q' => max 1 (strokeDiff (strokeOf q) (strokeOf q')).toNat
    | none => 1)

/-- A catch at the cox of crew `n` (R99, R102, R114): the window counts at once; deadlines and CATCH slots are handled when the fabric cycle ends, so
that every token of the same cycle counts as arrived before them. -/
def State.coxCatch (s : State) (n q : Nat) : State :=
  let c := s.coxOf n
  let first := c.lastCatch.isNone
  let c := if cseqEntry q = 0 then
      if c.winSeen then { c with winStroke := c.strokesAt q }
      else { c with winSeen := true, winStroke := 0, winStart := s.time.cycle, winLen := s.fld (F.COX_WIN_STROKES n) }
    else c
  let s := s.setCox n { c with lastCatch := some q, due := c.due ++ [q] }
  if first then
    (s.routes n).foldl (fun s r => if s.ctxValid n r.1 then s.stampHeld n r.1 (strokeOf q) else s) s
  else s

/-- What a catch of the ending fabric cycle does to the contexts: deadlines before CATCH slots (R102). -/
def State.coxDue (s : State) (n q : Nat) : State :=
  (s.routes n).foldl (fun s r =>
    if s.ctxValid n r.1 then (s.deadlines n r.1 q).catchSlots n r.1 q else s) s

/-! ## Dispatch (R107, R115, R117) -/

/-- Whether a context has an ISSUED entry other than `w` (R107). -/
def State.issuedOther (s : State) (n x w : Nat) : Bool := (s.entryOf n x (1 - w)).state == .issued

/-- Whether target `t` can take the entry: engines as `can` says, a dispatch port while its FIFO has room, the crew DMA while the
context's channel is not ACTIVE (R107, R112, R479). -/
def State.accepts (s : State) (n x t : Nat) (can : Nat) : Bool :=
  if 4 ≤ t then decide ((Tab.get (fun _ => DpState.init) (s.coxOf n).dp (t - 4)).fifo.length < 16)
  else if t = 3 then
    match s.taskChan n x with
    | some ch => s.cdmState n ch != 1
    | none => false
  else bit can t

/-- The first entry of the lists, highest priority first, that is for target `t`, eligible and acceptable. -/
def State.pick (s : State) (n t can : Nat) : Option (Nat × Nat) :=
  (s.coxOf n).lists.flatten.find? (fun e =>
    s.ctxTarget n e.1 == t && !s.issuedOther n e.1 e.2 && s.accepts n e.1 t can)

/-- Counts the wait of a first dispatch (R115). -/
def State.countWait (s : State) (n x w : Nat) : State :=
  let wait := s.time.cycle - (s.entryOf n x w).readyAt
  let c := s.ctxOf n x
  let sum := c.waitSum + wait
  let p := s.ctxPrio n x
  let s := s.setCtx n x { c with waitMax := max c.waitMax wait, waitSum := min sum 0xFFFFFFFF,
                                 waitSat := c.waitSat || decide (0xFFFFFFFF < sum), disp := c.disp + 1 }
  let k := s.coxOf n
  s.setCox n { k with prioMax := k.prioMax.set p (max (k.prioMax.getD p 0) wait) }

/-- RETRYING (COX_STATUS): a retried entry is waiting or issued. -/
def State.syncRetrying (s : State) (n : Nat) : State :=
  s.setFld (F.COX_STATUS_RETRYING n) (b2n ((s.coxOf n).ctxs.any (fun c =>
    (c.2.e0.rerun && (c.2.e0.state == .ready || c.2.e0.state == .issued)) ||
    (c.2.e1.rerun && (c.2.e1.state == .ready || c.2.e1.state == .issued)))))

/-- The operands of an entry in slot order. -/
def State.entryOps (s : State) (n x w : Nat) : List Opnd :=
  ((s.entryOf n x w).ops.take (s.ctxNops n x)).map (fun o => o.getD (s.substOp n x 0 (s.entryOf n x w).cseq))

def State.dpOf (s : State) (n c : Nat) : DpState := Tab.get (fun _ => DpState.init) (s.coxOf n).dp c
def State.setDp (s : State) (n c : Nat) (d : DpState) : State :=
  (s.setCox n { s.coxOf n with dp := Tab.put (s.coxOf n).dp c d }).setFld (F.COX_DP_STATUS_COUNT n c) d.fifo.length

/-- Issues an entry to target `t` (R107, R112, R479). -/
def State.issue (s : State) (n t x w : Nat) : State :=
  let p := s.ctxPrio n x
  let s := s.setList n p (((s.coxOf n).lists.getD p []).filter (fun e => e != (x, w)))
  let s := if (s.entryOf n x w).rerun then s else (s.countWait n x w).count (Reg.COX_TOT_DISP n) 1
  let s := s.setEntry n x w { s.entryOf n x w with state := .issued, done := false, confirmed := false, results := [],
                                                   order := (s.coxOf n).issues }
  let s := s.setCox n { s.coxOf n with issues := (s.coxOf n).issues + 1 }
  if 4 ≤ t then
    let d : Desc := ⟨x, (s.entryOf n x w).cseq, s.ctxNres n x, s.entryOps n x w⟩
    s.setDp n (t - 4) { s.dpOf n (t - 4) with fifo := (s.dpOf n (t - 4)).fifo ++ [d] }
  else if t = 3 then
    match s.taskChan n x with
    | some ch => s.cdmStart n ch (some (x, w))
    | none => s
  else s

/-- Whether an entry of context `x` is work that its target has not completed (R117); the crew DMA completes it with its channel. -/
def State.workingOn (s : State) (n x : Nat) (e : MEntry) : Bool :=
  e.state == .issued && !e.done &&
    (s.ctxTarget n x != 3 || (match s.taskChan n x with | some ch => s.cdmState n ch == 1 | none => false))

/-- Whether target `t` has work issued and not completed (R117); for DP_c, whether the core holds a descriptor in view anywhere. -/
def State.targetBusy (s : State) (n t : Nat) : Bool :=
  if 4 ≤ t then (List.range 9).any (fun k => (s.dpOf k (t - 4)).view.isSome)
  else (s.coxOf n).ctxs.any (fun c => s.ctxTarget n c.1 == t && (s.workingOn n c.1 c.2.e0 || s.workingOn n c.1 c.2.e1))

/-- One fabric cycle of dispatch (R107). -/
def State.dispatch (s : State) (n can : Nat) : State :=
  let s := (List.range 12).foldl (fun s t =>
    match s.pick n t can with
    | some (x, w) => s.issue n t x w
    | none => s) s
  s.syncRetrying n

/-- COX_DISPATCH (R107): bits 0 to 2 of `can` say whether LPE, MOT and ACQ can accept work in this cycle. -/
def execCoxDispatch (n : Fin 9) (can : BitVec 3) (s : State) : Host.Outcome State Fault Refusal :=
  if s.crewDeaf n || s.engineFrozen n 0 then .next s else .next (s.dispatch n can.toNat)

/-! ## Release (R108, R109) -/

/-- Releases an ISSUED entry and sends its results (R108, R111). -/
def State.release (s : State) (n x w : Nat) : State :=
  let e := s.entryOf n x w
  ((s.setEntry n x w MEntry.init).emitToks (s.coxLink n) e.results).syncRetrying n

/-- The ISSUED entry of a context. -/
def State.issuedEntry (s : State) (n x : Nat) : Option Nat := s.findEntry n x (fun e => e.state == .issued)

/-- Result tokens of a context from values and statuses (R113, R159). -/
def State.resultTokens (s : State) (n x cseq : Nat) (l : List (Word × BitVec 4)) : List Token :=
  (l.zip (s.route n x).results).map (fun r => mkToken r.1.1 r.2 (if stReserved r.1.2 then 1 else r.1.2) cseq)

/-- COX_RELEASE (R108): the target of the context's ISSUED entry completes; `acq` are the results of an ACQ task.  LPE and MOT
tasks also wait for lockstep. -/
def execCoxRelease (n : Fin 9) (x : Fin 512) (acq : List (Word × BitVec 4)) (s : State) :
    Host.Outcome State Fault Refusal :=
  match s.issuedEntry n x with
  | none => .next s
  | some w =>
    let e := s.entryOf n x w
    let t := s.ctxTarget n x
    if s.crewDeaf n || s.engineFrozen n 0 || (decide (t ≤ 2) && s.engineFrozen n (t + 1)) then .next s
    else if t = 2 then
      .next ((s.setEntry n x w { e with results := s.resultTokens n x e.cseq acq }).release n x w)
    else if t ≤ 1 then (if e.done && e.confirmed then .next (s.release n x w) else .next s)
    else if t = 3 then
      match s.taskChan n x with
      | some ch => if s.cdmState n ch = 1 then .next s else .next (s.release n x w)
      | none => .next (s.release n x w)
    else .next s

/-- Returns the named ISSUED entries, in dispatch order, to the heads of their lists for a re-run (R109). -/
def State.coxRetry (s : State) (n : Nat) (l : List (Nat × Nat)) : State :=
  let s := l.reverse.foldl (fun s e =>
    let m := s.entryOf n e.1 e.2
    if m.state == .issued then
      let s := s.setEntry n e.1 e.2 { m with state := .ready, rerun := true, done := false, confirmed := false, results := [] }
      let p := s.ctxPrio n e.1
      (s.setList n p (e :: (s.coxOf n).lists.getD p [])).count (Reg.COX_TOT_RETRY n) 1
    else s) s
  s.syncRetrying n

/-! ## Dispatch ports (R112, R113) -/

/-- Writes the view registers (R112). -/
def State.writeView (s : State) (n c : Nat) (d : Desc) : State :=
  let ws := BitVec.ofNat 32 d.cseq :: (d.ops.map (fun o => o.tok.words)).flatten
  (List.range 13).foldl (fun s k => s.wr (Reg.COX_DP_VIEW n c k) (ws.getD k 0)) s

/-- DP_POP (R112): a read of COX_DP_c_POP. -/
def execDpPop (n : Fin 9) (c : Fin 8) (s : State) : Host.Outcome State Fault Refusal :=
  let d := s.dpOf n c
  match d.view, (if s.crewDeaf n then [] else d.fifo) with
  | none, x :: l =>
    let v := 2 ^ 31 + x.ops.length * 2 ^ 9 + x.ctx
    let s := (s.setDp n c ⟨l, some x⟩).writeView n c x
    .next (s.setBus ⟨false, v⟩)
  | _, _ => .next (s.setBus ⟨false, 0⟩)

/-- A write of COX_DP_c_DONE (R113). -/
def State.dpDone (s : State) (n c nres : Nat) : State :=
  match (s.dpOf n c).view with
  | none => s
  | some d =>
    let s := s.setDp n c { s.dpOf n c with view := none }
    match s.issuedEntry n d.ctx with
    | none => s
    | some w =>
      if nres = d.nres then
        let vals := (List.range nres).map (fun i =>
          (s.rd (Reg.COX_DP_RES n c i), BitVec.ofNat 4 (s.fld (F.COX_DP_RST_ST n c i))))
        (s.setEntry n d.ctx w { s.entryOf n d.ctx w with results := s.resultTokens n d.ctx d.cseq vals }).release n d.ctx w
      else
        let s := (s.setEntry n d.ctx w { s.entryOf n d.ctx w with results := [] }).release n d.ctx w
        (((s.countFld (F.COX_CTX_MISC_DROP n d.ctx) 1).count (Reg.COX_TOT_DROP n) 1).setFld (F.COX_STATUS_DROPPED n) 1).log
          0x0413 (0x1000 + n) (d.ctx + nres * 2 ^ 16)

/-- DP_DONE (R113). -/
def execDpDone (n : Fin 9) (c : Fin 8) (nres : BitVec 3) (s : State) : Host.Outcome State Fault Refusal :=
  if s.crewDeaf n then .next (s.dropItem n) else .next (s.dpDone n c nres.toNat)

/-! ## Observation windows (R114 to R117) -/

/-- The figures of one context at the end of a window. -/
def State.windowCtx (s : State) (n x : Nat) : State :=
  let c := s.ctxOf n x
  let s := ((s.setNum (Reg.COX_CTX_WAIT_MAX n x) c.waitMax).setNum (Reg.COX_CTX_WAIT_SUM n x) c.waitSum).setNum
    (Reg.COX_CTX_DISP n x) c.disp
  (s.setFld (F.COX_CTX_MISC_SAT n x) (b2n c.waitSat)).setCtx n x
    { c with waitMax := 0, waitSum := 0, waitSat := false, disp := 0, dropLog := false, staleLog := false }

/-- The proved bound of a priority, in units of 100 ns; 255 states none (R79, R116). -/
def State.waitBound (s : State) (n p : Nat) : Nat :=
  match s.logicalOf n with
  | some m =>
    match Tab.find s.img.budget m with
    | some b => b.waitNs.getD p 255
    | none => 255
  | none => 255

/-- The figures of one priority at the end of a window (R116).  DESIGN CHOICE (notes/assumptions/115.md): the wait in 100 ns units is rounded down. -/
def State.windowPrio (s : State) (n p : Nat) : State :=
  let w := (s.coxOf n).prioMax.getD p 0
  let s := s.setNum (Reg.COX_WAITMAX n p) w
  let b := s.waitBound n p
  if b < 255 ∧ b * 300 < w * 5 then
    ((s.count (Reg.COX_TOT_WAITX n) 1).setFld (F.COX_STATUS_WAIT_EXC n) 1).log 0x0414 (0x1000 + n)
      (p + min (w * 5 / 300) 0xFFFF * 2 ^ 16)
  else s

/-- The busy fraction of a target in units of 2^-16 (R117). -/
def busyFrac (busy cycles : Nat) : Nat := if cycles = 0 then 0 else min 0xFFFF (busy * 2 ^ 16 / cycles)

/-- The end of an observation window (R114). -/
def State.windowEnd (s : State) (n : Nat) : State :=
  let cyc := s.time.cycle - (s.coxOf n).winStart
  let s := (s.routes n).foldl (fun s r => s.windowCtx n r.1) s
  let s := (List.range 8).foldl (fun s p => s.windowPrio n p) s
  let s := (List.range 12).foldl (fun s t => s.setFld (F.COX_BUSY_FRAC n t) (busyFrac ((s.coxOf n).busy.getD t 0) cyc)) s
  let s := (s.setNum (Reg.COX_WIN_CYC n) (min cyc 0xFFFFFFFF)).setNum (Reg.COX_WIN_SEQ n) (s.num (Reg.COX_WIN_SEQ n) + 1)
  let s := s.setFld (F.COX_STATUS_WIN_DONE n) 1
  s.setCox n { s.coxOf n with winStroke := 0, winLen := s.fld (F.COX_WIN_STROKES n), winStart := s.time.cycle,
                              prioMax := CoxState.init.prioMax, prioExc := CoxState.init.prioExc, busy := CoxState.init.busy }

/-- Whether the observation window has lasted its strokes (R114). -/
def State.windowDue (s : State) (n : Nat) : Bool :=
  (s.coxOf n).winSeen && decide ((s.coxOf n).winLen ≤ (s.coxOf n).winStroke)

/-- COX_WINDOW_END (R114): a window that has lasted its strokes ends. -/
def execCoxWindowEnd (n : Fin 9) (s : State) : Host.Outcome State Fault Refusal :=
  if s.crewDeaf n || !s.windowDue n then .next s else .next (s.windowEnd n)

/-- The end of a fabric cycle at the cox of crew `n` (R102, R114, R117): the catches of the cycle are handled, the busy targets count it, and a window
that has lasted its strokes ends if it has not yet. -/
def State.coxCycle (s : State) (n : Nat) : State :=
  if s.crewDeaf n then s.setCox n { s.coxOf n with due := [] }
  else
    let q := (s.coxOf n).due
    let s := q.foldl (fun s q => s.coxDue n q) (s.setCox n { s.coxOf n with due := [] })
    let s := s.setCox n { s.coxOf n with busy := (List.range 12).map (fun t => (s.coxOf n).busy.getD t 0 + b2n (s.targetBusy n t)) }
    if s.windowDue n then s.windowEnd n else s

/-- The end of a fabric cycle at every cox that works. -/
def State.coxCycles (s : State) : State :=
  (List.range 9).foldl (fun s n => if (s.logicalOf n).isSome then s.coxCycle n else s) s

/-- COX_CLR_TOTALS (R115): COX_CLR.TOTALS clears the COX_TOT counters. -/
def execCoxClrTotals (n : Fin 9) (s : State) : Host.Outcome State Fault Refusal :=
  if s.crewDeaf n then .next s else .next ((((((s.setNum (Reg.COX_TOT_DISP n) 0).setNum (Reg.COX_TOT_STALE n) 0).setNum (Reg.COX_TOT_DROP n) 0).setNum
    (Reg.COX_TOT_LATE n) 0).setNum (Reg.COX_TOT_RETRY n) 0).setNum (Reg.COX_TOT_WAITX n) 0)

/-- COX_CLR_CTX_COUNTS (R115): STALE and DROP of every context. -/
def execCoxClrCtxCounts (n : Fin 9) (s : State) : Host.Outcome State Fault Refusal :=
  if s.crewDeaf n then .next s else .next ((List.range 512).foldl (fun s x => (s.setFld (F.COX_CTX_MISC_STALE n x) 0).setFld (F.COX_CTX_MISC_DROP n x) 0) s)

/-- COX_CLR_DEPTH_MAX (R117): MAX of every COX_DEPTH_p. -/
def execCoxClrDepthMax (n : Fin 9) (s : State) : Host.Outcome State Fault Refusal :=
  if s.crewDeaf n then .next s else .next ((List.range 8).foldl (fun s p => s.setFld (F.COX_DEPTH_MAX n p) 0) s)

end Sys2Proof.Machine
end

