-- ==== Sys2Proof/Machine/Operands.lean ====
section
/-! DEFINITION. The arithmetic of the loop engine and the motion unit (R165) and the operands of a task as an engine sees
them. -/
namespace Sys2Proof.Machine

/-- A subnormal is replaced by zero of the same sign (R165). -/
def ftz (a : Word) : Word := if F32.isSubnormal a then F32.mk (F32.neg? a) 0 else a

def ladd (a b : Word) : Word := ftz (F32.add (ftz a) (ftz b))
def lsub (a b : Word) : Word := ftz (F32.sub (ftz a) (ftz b))
def lmul (a b : Word) : Word := ftz (F32.mul (ftz a) (ftz b))
def lfma (a b c : Word) : Word := ftz (F32.fma (ftz a) (ftz b) (ftz c))
def ldiv (a b : Word) : Word := ftz (F32.div (ftz a) (ftz b))

/-- Whether `a` ranks below `b`, −0 below +0 (R165). -/
def lbelow (a b : Word) : Bool :=
  F32.lt (ftz a) (ftz b) || (F32.isZero (ftz a) && F32.isZero (ftz b) && F32.neg? a && !F32.neg? b)

/-- The greater operand; the other one when one is a NaN (R165). -/
def lmax (a b : Word) : Word :=
  if F32.isNaN a then ftz b else if F32.isNaN b then ftz a else if lbelow a b then ftz b else ftz a

/-- The lesser operand; the other one when one is a NaN (R165). -/
def lmin (a b : Word) : Word :=
  if F32.isNaN a then ftz b else if F32.isNaN b then ftz a else if lbelow b a then ftz b else ftz a

/-- min(max(x, lo), hi). -/
def lclamp (x lo hi : Word) : Word := lmin (lmax x lo) hi
def lge (a b : Word) : Bool := F32.le (ftz b) (ftz a)
def lgt (a b : Word) : Bool := F32.lt (ftz b) (ftz a)
def lneg (a : Word) : Word := F32.neg a

/-- An operand as a task sees it: its value, its status and whether it can be used (R164). -/
structure OpVal where
  value : Word
  st    : BitVec 4
  ok    : Bool
  deriving DecidableEq, Repr

/-- A value is usable when its ST is not 1 and it is finite (R164). -/
def OpVal.of (value : Word) (st : BitVec 4) : OpVal := ⟨ftz value, st, st != 1 && F32.isFinite value⟩

/-- Checks the operands of a task in slot order (R13). -/
def State.checkOps (s : State) : List (Option Opnd × Word) → List OpVal × State
  | [] => ([], s)
  | (o, subst) :: l =>
    match o with
    | none =>
      let (r, s) := s.checkOps l
      (OpVal.of subst 1 :: r, s)
    | some o =>
      let (c, s) := s.check o.link subst o.tok
      let (r, s) := s.checkOps l
      (OpVal.of c.value c.st :: r, s)

/-- The first byte of a physical crew's memory (R11, R18). -/
def crewMem (n : Nat) : Nat := 0x40000000 + 0x1000000 * n

/-- The control window of a physical crew (R23). -/
def crewWin (n : Nat) : Nat := 0xE1000000 + 0x100000 * n

end Sys2Proof.Machine
end

