-- ==== Sys2Proof/Machine/Lpe.lean ====
section
/-! DEFINITION. The loop pipe pair: the control law, modes, fallback, parameter changes and repetitive learning (chapters 06
and 07).  `n` is the physical crew, `l` the loop. -/
namespace Sys2Proof.Machine

def State.lpeOf (s : State) (n : Nat) : LpeState := Tab.get (fun _ => LpeState.init) s.lpe n
def State.setLpe (s : State) (n : Nat) (e : LpeState) : State := { s with lpe := Tab.put s.lpe n e }
def State.loopDyn (s : State) (n l : Nat) : LoopDyn := Tab.get (fun _ => LoopDyn.init) (s.lpeOf n).dyn l
def State.setLoopDyn (s : State) (n l : Nat) (d : LoopDyn) : State :=
  s.setLpe n { s.lpeOf n with dyn := Tab.put (s.lpeOf n).dyn l d }

/-! ## Loop contexts (R157, R158, R182) -/

/-- The offset in crew SRAM of word `o` (byte offset) of a loop context. -/
def loopOff (l o : Nat) : Nat := 0x80000 + 0x100 * l + o

/-- A word of a loop context. -/
def State.lw (s : State) (n l o : Nat) : Word := s.rdWord (crewMem n + loopOff l o)
def State.setLw (s : State) (n l o : Nat) (v : Word) : State := s.wrWord (crewMem n + loopOff l o) v

/-- A field of CFG (R158). -/
def State.lcfg (s : State) (n l lo w : Nat) : Nat := bitsOf (s.lw n l 0x4C) lo w

/-- The loop in use that names task context `x` (R158). -/
def State.loopOfTask (s : State) (n x : Nat) : Option Nat :=
  (List.range 128).find? (fun l => s.lcfg n l 31 1 == 1 && s.lcfg n l 22 9 == x)

/-- The 64 words of a loop context. -/
def State.loopCtx (s : State) (n l : Nat) : List Word := (List.range 64).map (fun k => s.lw n l (4 * k))

/-- A word of a working copy, by its byte offset. -/
def cw (c : List Word) (o : Nat) : Word := c.getD (o / 4) 0
def setCw (c : List Word) (o : Nat) (v : Word) : List Word := c.set (o / 4) v

/-! ## Derived words and the bumpless adjustment (R165, R175, R176) -/

def rateH (r h : Word) : Word := if F32.isZero (ftz r) then F32.posInf else lmul r h

/-- The exact quotient of R165, rounded once: `a / (b + c)`. -/
def quotSum (a b c : Word) : Word :=
  let d := F32.units (ftz b) + F32.units (ftz c)
  if F32.isFinite a && F32.isFinite b && F32.isFinite c && decide (0 < d) then
    ftz (F32.ofRatio (F32.units (ftz a)) d.natAbs)
  else ldiv a (ladd b c)

/-- The derived words recomputed from the P and I words (R165). -/
def derive (c : List Word) : List Word :=
  let h := cw c 0x38
  let c := setCw c 0x54 (rateH (cw c 0x04) h)
  let c := setCw c 0x58 (rateH (cw c 0x08) h)
  let c := setCw c 0x5C (lmul (cw c 0x10) h)
  let c := setCw c 0x60 (quotSum (cw c 0x18) (cw c 0x18) h)
  let c := setCw c 0x64 (quotSum (cw c 0x14) (cw c 0x18) h)
  let c := setCw c 0x68 (rateH (cw c 0x44) h)
  setCw c 0x6C (rateH (cw c 0x48) h)

/-- FFSRC of a working copy. -/
def ffsrc (c : List Word) : Nat := bitsOf (cw c 0x4C) 17 2

/-- A value with the unabsorbed difference of a clamp (none: absorbed whole). -/
def clampI (c : List Word) (want : Word) : Word × Option Word :=
  let i := lclamp want (cw c 0x1C) (cw c 0x20)
  (i, if F32.eq i (ftz want) then none else some (lsub want i))

/-- The bumpless adjustment of I for a change from `old` to `new` P words (R176). -/
def bumpless (old new : List Word) : List Word × Option Word :=
  let a := lsub (cw old 0x0C) (cw new 0x0C)
  let b := if ffsrc new = 0 then 0 else lsub (cw old 0x24) (cw new 0x24)
  let c := if ffsrc new = 0 then 0 else lsub (cw old 0x28) (cw new 0x28)
  let d := lfma a (cw new 0x80) c
  let d := lfma b (cw new 0x84) d
  let (i, u) := clampI new (ladd (cw new 0x74) d)
  (setCw new 0x74 i, u)

/-- The P words of one commit or step change laid over a working copy. -/
def overlay (c : List Word) (vals : List (Nat × Word)) : List Word := vals.foldl (fun c kv => setCw c (4 * kv.1) kv.2) c

def StepChg.vals : StepChg → List (Nat × Word)
  | .param k v => [(k, v)]
  | .mode _ => []
  | .rep _ => []

/-- Whether a staged step change applies at an update with CSEQ `q` (R217). -/
def Staged.isDue (c : Staged) (l q : Nat) : Bool := c.loop == l && decide (0 ≤ seqDiff q c.cseq)

/-- Whether a commit applies at an update with CSEQ `q` (R175). -/
def Commit.isDue (c : Commit) (l q : Nat) : Bool :=
  c.loop == l && (match c.due with | none => true | some a => decide (0 ≤ seqDiff q a))

/-- The last mode a list of staged changes requests. -/
def stagedMode (l : List Staged) : Option Nat :=
  l.foldl (fun r c => match c.chg with | .mode v => some v | .param _ _ => r | .rep _ => r) none

/-- The repetitive actions of a list of staged changes, in order. -/
def stagedReps (l : List Staged) : List Nat :=
  l.filterMap (fun c => match c.chg with | .rep v => some v | .param _ _ => none | .mode _ => none)

/-! ## Repetitive memory (R182 to R190) -/

/-- The period P of a working copy. -/
def repP (c : List Word) : Nat := Nat.max 1 (bitsOf (cw c 0xAC) 0 13)
def repL (c : List Word) : Nat := bitsOf (cw c 0xAC) 16 12
def repIdx (c : List Word) : Nat := bitsOf (cw c 0xB4) 0 12
def repFrozen (c : List Word) : Bool := bitsOf (cw c 0xB4) 31 1 == 1
def repPend (c : List Word) : Bool := bitsOf (cw c 0xB4) 30 1 == 1
def repEn (c : List Word) : Bool := bitsOf (cw c 0x4C) 11 1 == 1
def setRepState (c : List Word) (lo w v : Nat) : List Word := setCw c 0xB4 (setBits (cw c 0xB4) lo w v)

/-- The crew offset of sample j of a loop's table. -/
def sampleOff (c : List Word) (j : Nat) : Nat := 4 * (bitsOf (cw c 0xB0) 0 17 + j % repP c)

/-- A sample as an update reads it: 0 while the table is being cleared or where the ECC cannot correct it (R189, R190). -/
def State.sample (s : State) (n : Nat) (c : List Word) (bad : List Nat) (j : Nat) : Word :=
  if repPend c || bad.contains (j % repP c) then 0 else s.rdWord (crewMem n + sampleOff c j)

/-- One repetitive action on a working copy (R188, R189), with the difference its clamp leaves. -/
def repAct (c : List Word) (a : Nat) : List Word × Option Word :=
  if !repEn c then (c, none)
  else
    match a with
    | 1 => (setRepState c 31 1 0, none)
    | 2 => (setRepState c 31 1 1, none)
    | 3 =>
      let c := setRepState (setRepState c 31 1 0) 30 1 1
      let (i, u) := clampI c (ladd (cw c 0x74) (cw c 0x8C))
      (setCw c 0x74 i, u)
    | _ => (c, none)

/-- The phase index after its advance (R185). -/
def advanceIdx (c : List Word) (first : Bool) (q : Nat) : List Word :=
  if !repEn c then c
  else if first then setRepState c 0 12 0
  else
    let d := (strokeOf q + 2 ^ 26 - strokeOf (cw c 0x94).toNat) % 2 ^ 26
    setRepState c 0 12 ((repIdx c + d) % repP c)

/-! ## The law (R161 to R177) -/

/-- What an update is computed with beside its context: the loop, CSEQ, the operands, the requested mode, the record of the loop, the
STATUS word, whether FB_CLR is pending, the phases whose samples the ECC cannot correct, and a free value for a
set-point target that no update gave (notes/assumptions/3.md). -/
structure LawIn where
  loop  : Nat
  q     : Nat
  ops   : List OpVal
  mode  : Nat
  dyn   : LoopDyn
  stat  : Nat
  fbClr : Bool
  bad   : List Nat
  free  : Word
  freeE : Word
  deriving DecidableEq, Repr

/-- What an update computes: the context, the samples it writes, the record of the loop, the events, the LPE_STATUS bits, the
flags of LPE_LSTAT, whether FB_CLR was used, and the results U, W, E and I with their status. -/
structure LawOut where
  ctx    : List Word
  smp    : List (Nat × Word)
  dyn    : LoopDyn
  events : List (Nat × Nat)
  bits   : Nat
  lstat  : Nat
  fbUsed : Bool
  vals   : List Word
  st     : BitVec 4
  deriving DecidableEq, Repr

/-- The kinds of update: the modes of R166 and the fallbacks HOLD and SAFE of R169. -/
inductive LawKind where
  | auto | manual | hold | track | fbHold | fbSafe
  deriving DecidableEq, Repr

/-- What an update runs as (R164, R166, R169). -/
def lawKind (c : List Word) (mode : Nat) (fallback : Bool) (y trk : OpVal) : LawKind :=
  if fallback && !(bitsOf (cw c 0x4C) 13 2 == 2 && F32.isFinite y.value) then
    (if bitsOf (cw c 0x4C) 13 2 = 1 then .fbSafe else .fbHold)
  else
    match mode with
    | 0 => .auto
    | 1 => .manual
    | 3 => if trk.ok then .track else .hold
    | _ => .hold

/-- One update (R161 to R177, R185 to R190) on a context to which the due changes have been applied; `rd` reads a sample. -/
def law (c0 : List Word) (rd : Nat → Word) (a : LawIn) : LawOut :=
  let op (k : Nat) := a.ops.getD k ⟨0, 1, false⟩
  let y := op 0
  let cfg (lo w : Nat) := bitsOf (cw c0 0x4C) lo w
  let hi := bit a.stat 1 || bit a.stat 3
  let lo := bit a.stat 2 || bit a.stat 4
  -- fallback (R169, R170)
  let was := bit a.stat 5
  let ends := was && y.ok && (cfg 12 1 == 0 || a.fbClr)
  let fallback := (was && !ends) || !y.ok
  let enters := fallback && !was
  let fbCount := if enters then 1 else if fallback then a.dyn.fbCount + 1 else 0
  let kind := lawKind c0 a.mode fallback y (op 3)
  -- set-point target (R161, R164, R167)
  let tgt0 :=
    if cfg 19 1 = 1 then (if (op 1).ok then (op 1).value else a.dyn.target.getD a.free) else ftz (cw c0 0x00)
  let c := advanceIdx c0 a.dyn.first a.q
  -- first update (R177)
  let u0 := if a.dyn.first then ftz (cw c 0x50) else ftz (cw c 0x88)
  let w0 := if a.dyn.first then (if cfg 7 1 = 1 && y.ok then y.value else tgt0) else ftz (cw c 0x70)
  let track := cfg 15 1 == 1 && (kind == .manual || kind == .hold || kind == .track)
  let tgt := if track then y.value else tgt0
  let w1 := if track then y.value else w0
  let w := ladd w1 (lmin (lmax (lsub tgt w1) (lneg (cw c 0x58))) (cw c 0x54))
  let sg : Word := if cfg 21 1 = 1 then F32.neg F32.one else F32.one
  let e := lmul sg (lsub w y.value)
  let xd := if cfg 20 1 = 0 then e else lmul (lneg sg) y.value
  -- no derivative kick at the end of fallback or at a first update with a usable measurement (R170, R177)
  let d0 := if a.dyn.first || ends then 0 else ftz (cw c 0x78)
  let xp := if ends || (a.dyn.first && y.ok) then xd else if a.dyn.first then 0 else ftz (cw c 0x7C)
  let d := lfma (cw c 0x60) d0 (lmul (cw c 0x64) (lsub xd xp))
  let v := match ffsrc c with
    | 1 => w
    | 2 => if (op 2).ok then (op 2).value else ftz (cw c 0x84)
    | _ => ftz (cw c 0x84)
  let ff := if ffsrc c = 0 then 0 else lfma (cw c 0x24) v (cw c 0x28)
  let p := lmul (cw c 0x0C) e
  -- repetitive term (R186, R187)
  let learn := repEn c && kind == .auto && !fallback
  let k := repIdx c
  let r := if learn then ftz (rd (k + repL c)) else 0
  let incr := let x := lmul (cw c 0xA0) e
              let x := if hi then lmin x 0 else x
              if lo then lmax x 0 else x
  let m := ladd (lfma (cw c 0xA4) (ladd (rd (k + repP c - 1)) (rd (k + 1)))
              (lmul (lfma (F32.neg 0x40000000#32) (cw c 0xA4) F32.one) (rd k))) incr
  let badHere := if learn then
      ([(k + repL c) % repP c, (k + repP c - 1) % repP c, (k + 1) % repP c, k % repP c].filter a.bad.contains).dedup
    else []
  let smp0 := badHere.map (fun j => (sampleOff c j, (0 : Word)))
  let smp := if learn && !repFrozen c && !repPend c then
      smp0 ++ [(sampleOff c k, lclamp m (lneg (cw c 0xA8)) (cw c 0xA8))] else smp0
  -- integral term (R161, R168)
  let transfer := (a.dyn.first && !fallback) || ends || (!a.dyn.first && a.dyn.due)
  let inc := let x := lmul (cw c 0x5C) e
             let x := if hi then lmin x 0 else x
             if lo then lmax x 0 else x
  let want := if transfer then lsub u0 (ladd (ladd (ladd p d) ff) r) else ladd (cw c 0x74) inc
  let (ci, un) := clampI c want
  let i := if kind = .auto then ci else ftz (cw c 0x74)
  let unabs := if kind = .auto && transfer then un else none
  -- output and envelope (R161, R162, R166)
  let raw := match kind with
    | .auto => ladd (ladd (ladd (ladd p i) d) ff) r
    | .manual => ftz (cw c 0x2C)
    | .track => (op 3).value
    | .fbSafe => ftz (cw c 0x30)
    | .hold => u0
    | .fbHold => u0
  let u1 := lclamp raw (cw c 0x3C) (cw c 0x40)
  let up := ladd u0 (cw c 0x68)
  let dn := lsub u0 (cw c 0x6C)
  let u := lmin (lmax u1 dn) up
  let limHi := lge raw (cw c 0x40) || lgt u1 up
  let limLo := lge (cw c 0x3C) raw || lgt dn u1
  let fb := kind == .fbHold || kind == .fbSafe
  -- state words (R161, R167, R169, R177)
  let c := if fb then
      (if a.dyn.first then setCw (setCw (setCw c 0x70 w0) 0x78 0) 0x7C xp else c)
    else
      let c := setCw (setCw (setCw c 0x70 w) 0x78 d) 0x7C xd
      let c := setCw (setCw c 0x74 i) 0x80 e
      setCw c 0x84 v
  let c := setCw c 0x88 u
  let c := setCw c 0x8C r
  -- numeric fault (R165)
  let badBits := (([0x70, 0x74, 0x78, 0x7C, 0x88].zip [8, 9, 10, 11, 12]).filter (fun z => !F32.isFinite (cw c z.1))).map
    Prod.snd
  let bad := !badBits.isEmpty
  let c := if bad then
      setCw (setCw (setCw (setCw (setCw c 0x70 y.value) 0x74 0) 0x78 0) 0x7C xd) 0x88 u0 else c
  let c := setCw c 0x94 (BitVec.ofNat 32 a.q)
  -- status (R171)
  let sat := limHi || limLo || bit a.stat 3 || bit a.stat 4
  let opsSt := [y.st] ++ (if cfg 19 1 = 1 then [(op 1).st] else []) ++ (if ffsrc c = 2 then [(op 2).st] else []) ++
    (if badHere.isEmpty then [] else [1])
  let top := opsSt.foldl stMax 0
  let st : BitVec 4 :=
    if bad || fallback then 1
    else match kind with
      | .auto => if (top = 0 || top = 2) && sat then 2 else top
      | .track => if ((op 3).st = 0 || (op 3).st = 2) && sat then 2 else (op 3).st
      | _ => if limHi || limLo then 2 else 0
  let events :=
    (if ends then [(0x0613, a.loop + min a.dyn.fbCount (2 ^ 24 - 1) * 256)] else []) ++
    (if enters then [(0x0612, a.loop + cfg 13 2 * 256)] else []) ++
    badHere.map (fun j => (0x0621, a.loop + j * 2 ^ 16)) ++
    (match unabs with | some x => [(0x0616, x.toNat)] | none => []) ++
    (if bad then [(0x0614, a.loop + badBits.foldl (fun t b => t + 2 ^ b) 0)] else [])
  { ctx := c
    smp := smp
    dyn := { a.dyn with first := false
                        due := !(kind == .auto) && (a.mode != 0 || a.dyn.due || ends)
                        fbCount := fbCount
                        target := if fb then (if a.dyn.first then some tgt0 else a.dyn.target) else some tgt }
    events := events
    bits := b2n bad * 2 + b2n enters * 4 + b2n unabs.isSome * 8
    lstat := b2n limHi * 2 + b2n limLo * 4 + b2n fallback * 32 + b2n bad * 64 + b2n unabs.isSome * 128 + st.toNat * 256
    fbUsed := ends && a.fbClr
    vals := [cw c 0x88, cw c 0x70, if fb then a.freeE else e, cw c 0x74]
    st := st }

/-! ## An update (LOOP_UPDATE) -/

/-- PEND: the commits queued. -/
def State.syncPend (s : State) (n : Nat) : State := s.setFld (F.LPE_STATUS_PEND n) (s.lpeOf n).queue.length

/-- Raises events of the LPE (R180). -/
def State.logAll (s : State) (src : Nat) (l : List (Nat × Nat)) : State := l.foldl (fun s e => s.log e.1 src e.2) s

/-- One update of loop `l` for the ISSUED entry (x, w): the changes due are applied (R175, R176, R188), then the law runs, and its
writes and results are held (R191). -/
def State.loopUpdate (s : State) (n x w l : Nat) (bad : List Nat) : State :=
  let en := s.entryOf n x w
  let (ops, s) := s.checkOps ((List.range (s.ctxNops n x)).map (fun k => (en.ops.getD k none, (s.slotCfg n x k).subst)))
  let (f1, s) := s.freshWord
  let (f2, s) := s.freshWord
  let lp := s.lpeOf n
  let dyn := s.loopDyn n l
  let steps := lp.staged.filter (fun c => c.isDue l en.cseq)
  let coms := lp.queue.filter (fun c => c.isDue l en.cseq)
  let c0 := s.loopCtx n l
  let c1 := coms.foldl (fun c k => overlay c k.vals) (steps.foldl (fun c k => overlay c k.chg.vals) c0)
  let changed := !(steps.all (fun k => k.chg.vals.isEmpty)) || !coms.isEmpty
  let (c2, un) := if changed then bumpless c0 (derive c1) else (c1, none)
  let acts := stagedReps steps ++ dyn.rep.toList
  let (c3, uns) := acts.foldl (fun (r : List Word × List Word) a =>
    let (c, u) := repAct r.1 a
    (c, r.2 ++ u.toList)) (c2, un.toList)
  let smode := if dyn.req then none else stagedMode steps
  let mode := smode.getD (s.fld (F.LPE_MODE_REQ n l))
  let o := law c3 (s.sample n c3 bad)
    ⟨l, en.cseq, ops, mode, dyn, (s.lw n l 0x90).toNat, s.flag (F.LPE_MODE_FB_PEND n l), bad, f1, f2⟩
  let skip (k : Nat) : Bool := k == 0x90 / 4
  let words := ((List.range 64).filter (fun k => !skip k)).map (fun k => (loopOff l (4 * k), cw o.ctx (4 * k)))
  let bump := !uns.isEmpty
  let h : LpeHeld :=
    { loop := l, words := words ++ o.smp, req := smode, act := mode, fbUsed := o.fbUsed,
      dyn := { o.dyn with rep := none, req := false }, steps := steps, commits := coms, rep := dyn.rep,
      reqTook := dyn.req, reset := repEn c2 && acts.contains 3,
      events := uns.map (fun d => (0x0616, d.toNat)) ++ o.events,
      bits := o.bits ||| (b2n bump * 8), lstat := o.lstat ||| (b2n bump * 128) }
  let res := s.resultTokens n x en.cseq ((o.vals.map (fun v => (v, o.st))).take (s.ctxNres n x))
  let s := s.setLpe n { lp with
    queue := lp.queue.filter (fun c => !c.isDue l en.cseq)
    staged := lp.staged.filter (fun c => !c.isDue l en.cseq)
    held := Tab.put lp.held x h }
  let s := (s.setLoopDyn n l { dyn with rep := none, req := false }).syncPend n
  s.setEntry n x w { en with done := true, confirmed := false, results := res }

/-- LOOP_UPDATE (R161): the pipe pair runs the law for the ISSUED entry of context `x`; `bad` names the phases of the loop's
table whose samples the ECC cannot correct. -/
def execLoopUpdate (n : Fin 9) (x : Fin 512) (bad : List Nat) (s : State) : Host.Outcome State Fault Refusal :=
  match s.issuedEntry n x with
  | none => .next s
  | some w =>
    if s.ctxTarget n x = 0 && !(s.entryOf n x w).done && s.inUse (.crew n) && !s.engineFrozen n 1 then
      match s.loopOfTask n x with
      | some l => .next (s.loopUpdate n x w l bad)
      | none => .next s
    else .next s

/-- Writes a held update (R191): the context and samples, the mode and status registers, the events and the count of updates.  A table whose clearing
ended meanwhile stays cleared (R189), and a mode requested meanwhile stays requested (R166). -/
def State.applyHeld (s : State) (n x : Nat) : State :=
  match Tab.find (s.lpeOf n).held x with
  | none => s
  | some h =>
    let l := h.loop
    let cleared := !h.reset && !repPend (s.loopCtx n l)
    let s := h.words.foldl (fun s w => s.wrWord (crewMem n + w.1) w.2) s
    let s := if cleared then s.setLw n l 0xB4 (setBits (s.lw n l 0xB4) 30 1 0) else s
    let old := (s.lw n l 0x90).toNat
    let keep := old % 2 + (old / 8 % 4) * 8 + (old / 64 % 4) * 64
    let s := s.setLw n l 0x90 (BitVec.ofNat 32 (keep ||| h.lstat))
    let s := match h.req with | some v => if (s.loopDyn n l).req then s else s.setFld (F.LPE_MODE_REQ n l) v | none => s
    let s := s.setFld (F.LPE_MODE_ACT n l) h.act
    let s := if h.fbUsed then s.setFld (F.LPE_MODE_FB_PEND n l) 0 else s
    let s := s.setLoopDyn n l { h.dyn with rep := (s.loopDyn n l).rep, req := (s.loopDyn n l).req }
    let s := s.setNum (Reg.LPE_STATUS n) (s.num (Reg.LPE_STATUS n) ||| h.bits)
    let s := s.setNum (Reg.LPE_UPDATES n) ((s.num (Reg.LPE_UPDATES n) + 1) % 2 ^ 32)
    let s := s.logAll (0x1000 + n) h.events
    s.setLpe n { s.lpeOf n with held := Tab.del (s.lpeOf n).held x }

/-- Discards a held update (R191): what it took from the queues returns to their heads. -/
def State.dropHeld (s : State) (n x : Nat) : State :=
  match Tab.find (s.lpeOf n).held x with
  | none => s
  | some h =>
    let lp := s.lpeOf n
    let s := s.setLpe n { lp with queue := h.commits ++ lp.queue, staged := h.steps ++ lp.staged, held := Tab.del lp.held x }
    let d := s.loopDyn n h.loop
    (s.setLoopDyn n h.loop { d with rep := if d.rep.isSome then d.rep else h.rep, req := d.req || h.reqTook }).syncPend n

/-! ## Modes, fallback and saturation feedback (R166, R170, R172) -/

/-- Records the result of a commit or mode request (R174, R166). -/
def State.pcResult (s : State) (n l code word : Nat) : State :=
  ((s.setFld (F.LPE_PC_RES_LOOP n) l).setFld (F.LPE_PC_RES_REFUSE n) code).setFld (F.LPE_PC_RES_WORD n) word

/-- A request for a mode (R166). -/
def State.modeRequest (s : State) (n l v : Nat) : State :=
  let code := if s.lcfg n l 31 1 = 0 then 3 else if 4 ≤ v ∨ (v = 3 ∧ s.lcfg n l 16 1 = 0) then 5 else 0
  if code = 0 then ((s.setFld (F.LPE_MODE_REQ n l) v).setLoopDyn n l { s.loopDyn n l with req := true }).pcResult n l 0 0
  else ((s.pcResult n l code 0).setFld (F.LPE_STATUS_REFUSED n) 1).log 0x0615 (0x1000 + n) (l + v * 256)

/-- LOOP_MODE_REQUEST (R166): a write of LPE_MODE_x.REQ. -/
def execLoopModeRequest (n : Fin 9) (l : Fin 128) (v : BitVec 3) (s : State) : Host.Outcome State Fault Refusal :=
  if s.crewDeaf n then .next s else .next (s.modeRequest n l v.toNat)

/-- LOOP_FB_CLR (R170): kept during fallback, discarded otherwise. -/
def execLoopFbClr (n : Fin 9) (l : Fin 128) (s : State) : Host.Outcome State Fault Refusal :=
  if s.crewDeaf n || !bit (s.lw n l 0x90).toNat 5 then .next s else .next (s.setFld (F.LPE_MODE_FB_PEND n l) 1)

/-- The saturation flags of the loop an output stage's image names (R172). -/
def State.satfb (s : State) (m l : Nat) (hi lo : Bool) : State :=
  match s.physOf m with
  | some n => s.setLw n l 0x90 (BitVec.ofNat 32 (putBit (putBit (s.lw n l 0x90).toNat 3 hi) 4 lo))
  | none => s

/-- SATFB_CHANGE (R172): an output stage raises or withdraws its flags to loop `l` of logical crew `m`. -/
def execSatfbChange (m : Fin 8) (l : Fin 128) (hi lo : Bool) (s : State) : Host.Outcome State Fault Refusal :=
  .next (s.satfb m l hi lo)

/-! ## Parameter changes (R174) -/

/-- The staged values of a commit, by word. -/
def State.stagedVals (s : State) (n : Nat) : List (Nat × Word) :=
  ((List.range 13).filter (fun k => bit (s.fld (F.LPE_PC_MASK_MASK n)) k)).map (fun k => (k, s.rd (Reg.LPE_PC_VAL n k)))

/-- The first masked word outside its bounds or not finite. -/
def State.outOfBounds (s : State) (n l : Nat) (vals : List (Nat × Word)) : Option Nat :=
  (vals.find? (fun kv =>
    !F32.isFinite kv.2 || F32.lt kv.2 (s.rd (Reg.LPE_BND_MIN n l kv.1)) || F32.lt (s.rd (Reg.LPE_BND_MAX n l kv.1)) kv.2)).map
    Prod.fst

/-- A commit (R174): checked whole, then queued or refused.  What an update has taken and lockstep has not confirmed counts as staged or queued still. -/
def State.paramCommit (s : State) (n : Nat) : State :=
  let l := s.fld (F.LPE_PC_LOOP_LOOP n)
  let vals := s.stagedVals n
  let lp := s.lpeOf n
  let steps := lp.held.flatMap (fun h => h.2.steps) ++ lp.staged
  let coms := lp.held.flatMap (fun h => h.2.commits) ++ lp.queue
  let c := steps.foldl (fun c k => if k.loop = l then overlay c k.chg.vals else c) (s.loopCtx n l)
  let c := coms.foldl (fun c k => if k.loop = l then overlay c k.vals else c) c
  let c := overlay c vals
  let refuse (code word : Nat) : State :=
    ((s.pcResult n l code word).setFld (F.LPE_STATUS_REFUSED n) 1).log (if code = 2 then 0x0611 else 0x0610) (0x1000 + n)
      (if code = 2 then l else l + code * 2 ^ 8 + word * 2 ^ 16)
  if s.lcfg n l 31 1 = 0 then refuse 3 0
  else
    match s.outOfBounds n l vals with
    | some k => refuse 1 k
    | none =>
      if F32.lt (cw c 0x20) (cw c 0x1C) then refuse 4 (if bit (s.fld (F.LPE_PC_MASK_MASK n)) 7 then 7 else 8)
      else if 32 ≤ lp.queue.length then refuse 2 0
      else
        let due := if s.flag (F.LPE_PC_LOOP_APPLY n) then some (s.num (Reg.LPE_PC_CSEQ n)) else none
        ((s.setLpe n { lp with queue := lp.queue ++ [⟨l, due, vals⟩] }).syncPend n).pcResult n l 0 0

/-- CLEAR of LPE_PC_CMD. -/
def State.paramClear (s : State) (n : Nat) : State :=
  (List.range 13).foldl (fun s k => s.setNum (Reg.LPE_PC_VAL n k) 0) (s.setNum (Reg.LPE_PC_MASK n) 0)

/-- PARAM_COMMIT (R174); `clear` is CLEAR of the same write. -/
def execParamCommit (n : Fin 9) (clear : Bool) (s : State) : Host.Outcome State Fault Refusal :=
  if s.crewDeaf n then .next s
  else if clear then .next ((s.paramCommit n).paramClear n) else .next (s.paramCommit n)

/-- PARAM_CLEAR (R174). -/
def execParamClear (n : Fin 9) (s : State) : Host.Outcome State Fault Refusal :=
  if s.crewDeaf n then .next s else .next (s.paramClear n)

/-! ## Repetitive actions (R188, R189) -/

/-- REP_ACTION (R188): firmware's action, taken at the loop's next update; ignored with REP_EN = 0. -/
def execRepAction (n : Fin 9) (l : Fin 128) (a : BitVec 2) (s : State) : Host.Outcome State Fault Refusal :=
  if s.crewDeaf n || s.lcfg n l 11 1 = 0 then .next s
  else .next (s.setLoopDyn n l { s.loopDyn n l with rep := some a.toNat })

/-- The samples of a loop's table set to 0. -/
def State.clearTable (s : State) (n l : Nat) : State :=
  let c := s.loopCtx n l
  (List.range (repP c)).foldl (fun s j => s.wrWord (crewMem n + sampleOff c j) 0) s

/-- REP_TABLE_CLEAR_DONE (R189). -/
def execRepTableClearDone (n : Fin 9) (l : Fin 128) (s : State) : Host.Outcome State Fault Refusal :=
  if repPend (s.loopCtx n l) then
    let s := s.clearTable n l
    .next ((s.setLw n l 0xB4 (setBits (s.lw n l 0xB4) 30 1 0)).log 0x0620 (0x1000 + n) l)
  else .next s

end Sys2Proof.Machine
end

