-- ==== Sys2Proof/Machine/MotionMath.lean ====
section
/-! DEFINITION. The arithmetic of motion: positions and velocities as rationals, the cubic of a segment (R247), stop ramps (R258),
gear ratios (R263 to R265) and the load angle of a motor (R271). -/
namespace Sys2Proof.Machine

/-- A 32.32 number as a rational. -/
def fixR (z : Int) : Rat := (z : Rat) / 4294967296
/-- A rational rounded down to 32.32. -/
def toFix (q : Rat) : Int := (q * 4294967296).floor
/-- The value of a finite binary32 word; 0 for the others. -/
def f32R (w : Word) : Rat := if F32.isFinite w then (F32.units w : Rat) / ((2 ^ 149 : Nat) : Rat) else 0
/-- A rational rounded once to binary32. -/
def ratF32 (q : Rat) : Word := F32.ofRatio q.num q.den
/-- The square root to within 2^-64. -/
def rsqrt (q : Rat) : Rat :=
  if q ≤ 0 then 0 else (F32.isqrt (q * ((2 ^ 128 : Nat) : Rat)).floor.toNat : Rat) / ((2 ^ 64 : Nat) : Rat)
def rabs (q : Rat) : Rat := if q < 0 then -q else q
/-- The sign of a whole number. -/
def isign (z : Int) : Int := if z < 0 then -1 else if z = 0 then 0 else 1
/-- The whole steps of a 32.32 position, rounded down. -/
def steps (z : Int) : Int := z / 4294967296

/-! ## Segments (R247, R249) -/

/-- p(u) of a segment from (p0, v0) to (p1, v1) over T, at s = u / T. -/
def cubic (p0 v0 p1 v1 T s : Rat) : Rat :=
  (2 * s * s * s - 3 * s * s + 1) * p0 + (s * s * s - 2 * s * s + s) * T * v0 +
    (-2 * s * s * s + 3 * s * s) * p1 + (s * s * s - s * s) * T * v1

/-- The coefficients of p'(u) = a + b s + c s². -/
def cubicVel (p0 v0 p1 v1 T : Rat) : Rat × Rat × Rat :=
  let d := (p1 - p0) / T
  (v0, 6 * d - 4 * v0 - 2 * v1, -6 * d + 3 * v0 + 3 * v1)

def quad (c : Rat × Rat × Rat) (s : Rat) : Rat := c.1 + c.2.1 * s + c.2.2 * s * s

/-- The greatest |p'(u)| over the segment. -/
def cubicVmax (p0 v0 p1 v1 T : Rat) : Rat :=
  let c := cubicVel p0 v0 p1 v1 T
  let ends := max (rabs v0) (rabs v1)
  if c.2.2 = 0 then ends
  else
    let s := -c.2.1 / (2 * c.2.2)
    if 0 < s ∧ s < 1 then max ends (rabs (quad c s)) else ends

/-- The places in the segment at which p(u) can be extreme: its ends and the zeros of p'(u). -/
def cubicTurns (p0 v0 p1 v1 T : Rat) : List Rat :=
  let c := cubicVel p0 v0 p1 v1 T
  let zs : List Rat :=
    if c.2.2 = 0 then (if c.2.1 = 0 then [] else [-c.1 / c.2.1])
    else
      let disc := c.2.1 * c.2.1 - 4 * c.2.2 * c.1
      if disc < 0 then [] else [(-c.2.1 - rsqrt disc) / (2 * c.2.2), (-c.2.1 + rsqrt disc) / (2 * c.2.2)]
  [0, 1] ++ zs.filter (fun s => decide (0 < s) && decide (s < 1))

/-- The least and the greatest position of a segment. -/
def cubicRange (p0 v0 p1 v1 T : Rat) : Rat × Rat :=
  let ps := (cubicTurns p0 v0 p1 v1 T).map (cubic p0 v0 p1 v1 T)
  (ps.foldl min p0, ps.foldl max p0)

/-! ## Stop ramps (R258) -/

/-- The stopping distance from velocity v at deceleration a and jerk J. -/
def stopDist (v a j : Rat) : Rat :=
  if a ≤ 0 then 0
  else if j = 0 then v * v / (2 * a)
  else if a * a / j ≤ v then v * v / (2 * a) + v * a / (2 * j)
  else v * rsqrt (v / j)

/-- The duration of the stop. -/
def stopDur (v a j : Rat) : Rat :=
  if a ≤ 0 then 0
  else if j = 0 then v / a
  else if a * a / j ≤ v then v / a + a / j
  else 2 * rsqrt (v / j)

/-- The distance covered after `u` course units of the stop, and the speed then. -/
def stopAt (v a j u : Rat) : Rat × Rat :=
  let d := stopDist v a j
  let t := stopDur v a j
  if t ≤ u then (d, 0)
  else if j = 0 then (v * u - a * u * u / 2, v - a * u)
  else
    let t1 := if a * a / j ≤ v then a / j else t / 2
    if u < t1 then (v * u - j * u * u * u / 6, v - j * u * u / 2)
    else if t - t1 ≤ u then (d - j * (t - u) * (t - u) * (t - u) / 6, j * (t - u) * (t - u) / 2)
    else
      let w := u - t1
      let v1 := v - a * a / (2 * j)
      (v * t1 - j * t1 * t1 * t1 / 6 + v1 * w - a * w * w / 2, v1 - a * w)

/-- Travel from rest at acceleration a up to speed V: the distance and the speed after `u` course units. -/
def travelAt (V a u : Rat) : Rat × Rat :=
  if a ≤ 0 then (V * u, V)
  else if u ≤ V / a then (a * u * u / 2, a * u)
  else (V * u - V * V / (2 * a), V)

/-! ## Gear ratios (R263 to R265) -/

/-- The exact position of a ratio at master count M. -/
def Ratio.pos (r : Ratio) (m : Int) : Rat :=
  if r.den = 0 then (r.base : Rat) else (r.base : Rat) + ((r.num * (m - r.mref) + r.rem : Int) : Rat) / (r.den : Rat)

/-- The position of a follower at master count M: the old ratio before M_SW, the blend for B counts, then the new one. -/
def Gear.pos (g : Gear) (m : Int) : Rat :=
  match g.prev with
  | none => g.cur.pos m
  | some (old, sw, b) =>
    let d := m - sw
    if d < 0 then old.pos m
    else if d < (b : Int) then
      let k0 : Rat := if old.den = 0 then 0 else (old.num : Rat) / (old.den : Rat)
      let k1 : Rat := if g.cur.den = 0 then 0 else (g.cur.num : Rat) / (g.cur.den : Rat)
      old.pos sw + k0 * (d : Rat) + (k1 - k0) * (d : Rat) * (d : Rat) / (2 * (b : Rat))
    else g.cur.pos m

/-- Whether M lies within the blend, where the position is known to within 2^-16 step only. -/
def Gear.blending (g : Gear) (m : Int) : Bool :=
  match g.prev with
  | none => false
  | some (_, sw, b) => decide (0 < m - sw) && decide (m - sw < (b : Int))

/-- The ratio anchored at count `mref` on the exact position `p` (R264). -/
def anchor (num : Int) (den : Nat) (p : Rat) (mref : Int) : Ratio :=
  ⟨num, den, p.floor, ((p - (p.floor : Rat)) * (den : Rat)).floor, mref⟩

/-- The switch to NUM', DEN' at M_SW with blend distance B from the present follower (R264, R265). -/
def Gear.switch (g : Gear) (num : Int) (den : Nat) (sw : Int) (b : Nat) : Gear :=
  let p := g.pos sw
  let old := match g.prev with
    | some (o, s, b') => if sw < s then o else if sw - s < (b' : Int) then anchor 0 1 p sw else g.cur
    | none => g.cur
  let k0 : Rat := if old.den = 0 then 0 else (old.num : Rat) / (old.den : Rat)
  let k1 : Rat := if den = 0 then 0 else (num : Rat) / (den : Rat)
  { enc := g.enc, cur := anchor num den (p + (k0 + k1) * (b : Rat) / 2) (sw + (b : Int)), prev := some (old, sw, b), pend := none }

/-! ## Angles (R271) -/

/-- π in units of 2^-96. -/
def pi96 : Int := 248902613312231085230521944622
/-- π, π/2 and 2π as binary32. -/
def piF : Word := 0x40490FDB#32
def halfPiF : Word := 0x3FC90FDB#32
def twoPiF : Word := 0x40C90FDB#32

/-- The series of the arctangent of x (units of 2^-96, at most tan π/16), from term k on. -/
def atanSeries (x2 : Int) : Nat → Nat → Int → Int
  | 0, _, _ => 0
  | f + 1, k, p => p / (2 * k + 1 : Int) - atanSeries x2 f (k + 1) (p * x2 / 2 ^ 96)

/-- tan(θ/2) from tan θ (units of 2^-96). -/
def halfTan (x : Int) : Int := x * 2 ^ 96 / (2 ^ 96 + F32.isqrt ((2 ^ 96 * 2 ^ 96 + x * x).toNat))

/-- The arctangent of x (units of 2^-96, 0 to 1). -/
def atan96 (x : Int) : Int :=
  let y := halfTan (halfTan x)
  4 * atanSeries (y * y / 2 ^ 96) 24 0 y

/-- atan2(y, x) of finite words, rounded to binary32. -/
def atan2 (y x : Word) : Word :=
  let a := (F32.units (ftz y)).natAbs
  let b := (F32.units (ftz x)).natAbs
  if !F32.isFinite y || !F32.isFinite x then F32.qNaN
  else if a = 0 ∧ b = 0 then F32.mk (F32.neg? y) (if F32.neg? x then piF.toNat else 0)
  else
    let t : Int := if a ≤ b then atan96 ((a * 2 ^ 96 / b : Nat) : Int) else pi96 / 2 - atan96 ((b * 2 ^ 96 / a : Nat) : Int)
    let t := if F32.neg? x then pi96 - t else t
    ftz (F32.ofIntScaled (if F32.neg? y then -t else t) 96)

/-- An angle brought to (−π, π] by whole turns, rounded once. -/
def wrapPi (a : Word) : Word :=
  if !F32.isFinite a then a
  else
    let n : Int := ((f32R a - f32R piF) / f32R twoPiF).ceil
    if n = 0 then ftz a else ftz (ratF32 (f32R a - (n : Rat) * f32R twoPiF))

end Sys2Proof.Machine
end

