-- ==== Sys2Proof/Machine/Acq.lean ====
section
/-! DEFINITION. Analogue acquisition: conversion players, plausibility pairs, test DACs, calibration and the ACQ ports
(chapter 05).  `k` is the converter, `i` the channel index of R123, `p` the pair. -/
namespace Sys2Proof.Machine

/-! ## Inputs and ranges (R121 to R125) -/

/-- The code width of a converter (R124). -/
def codeBits (k : Nat) : Nat := if k < 16 then 20 else 16

/-- The positive span limit of a range as a ratio (R124); MA is converted on the ±2.5 V span. -/
def fsOf (range : Nat) : Nat × Nat :=
  match range with
  | 0 => (10, 1) | 1 => (5, 2) | 2 => (5, 32) | _ => (5, 2)

/-- LSB(range) as a ratio (R124, R136): FS / 2^(N-1), for MA divided by 50 Ω. -/
def lsbOf (k range : Nat) : Nat × Nat :=
  let f := fsOf range
  (f.1, f.2 * 2 ^ (codeBits k - 1) * (if range = 3 then 50 else 1))

/-- The reported limits of a range (R124). -/
def limitsOf (range : Nat) : Word × Word :=
  match range with
  | 0 => (0xC1200000, 0x41200000)
  | 1 => (0xC0200000, 0x40200000)
  | 2 => (0xBE200000, 0x3E200000)
  | _ => (F32.ofRatio (-2) 1000, F32.ofRatio 26 1000)

/-- The channel index of input `ch` of converter `k`, or of its check input (R123). -/
def chanOf (k kind ch : Nat) : Nat :=
  if 16 ≤ k then 144 + 8 * (k - 16) + ch else if kind = 1 then 128 + k else 8 * k + ch

/-- The fixed SIG of an input (R17). -/
def sigOfChan (i : Nat) : Nat := if i < 128 then i else if i < 144 then 0x80 + (i - 128) / 2 else 0x88 + (i - 144)

/-! ## Coefficients (R151, R154) -/

/-- The address of record `r` in an area of the calibration memory: 0 factory, 1 and 2 the system slots, 3 the test DACs. -/
def calAddr (area r : Nat) : Nat := 0x8B000000 + area * 0x10000 + 16 * r

/-- Whether the CRC of a record holds (R154). -/
def State.calCrcOk (s : State) (area r : Nat) : Bool :=
  crc32c (leBytes 4 r ++ s.rdList (calAddr area r) 12) == s.rdMem (calAddr area r + 12) 4

/-- The gain and offset of a record. -/
def State.calRec (s : State) (area r : Nat) : Word × Word := (s.rdWord (calAddr area r), s.rdWord (calAddr area r + 4))
def State.calSeq (s : State) (area r : Nat) : Nat := s.rdMem (calAddr area r + 8) 4
/-- A valid system record (R154). -/
def State.calValid (s : State) (slot r : Nat) : Bool := s.calCrcOk (1 + slot) r && s.calSeq (1 + slot) r != 0

/-- The slot that holds the newest valid system record. -/
def State.calNewest (s : State) (r : Nat) : Option Nat :=
  match s.calValid 0 r, s.calValid 1 r with
  | true, true => some (if s.calSeq 1 r < s.calSeq 2 r then 1 else 0)
  | true, false => some 0
  | false, true => some 1
  | false, false => none

/-- The calibration area as it was loaded (R154): the memory the coefficients in force come from. -/
def State.calMem (s : State) : State := { s with mem := s.cal.snap }

/-- The coefficients of record `r` (R151): the newest valid system record, else the factory record. -/
def State.coefOf (s : State) (r : Nat) : Option (Word × Word) :=
  match s.calNewest r with
  | some slot => some (s.calRec (1 + slot) r)
  | none => if s.calCrcOk 0 r then some (s.calRec 0 r) else none

/-- The coefficients in force for channel `i` in a range (R151). -/
def State.coef (s : State) (i range : Nat) : Option (Word × Word) := s.calMem.coefOf (4 * i + range)

/-- Stores a record of the calibration area, in force from the next sample (R152). -/
def State.storeRec (s : State) (a : Nat) (l : List Nat) : State :=
  let snap := (s.calMem.wrList a l).mem
  (s.wrList a l).setCal { s.cal with snap := snap }

/-! ## Test DACs (R143, R148, R149) -/

/-- V of R149 for a DAC code of `TDAC_p`, corrected by its factory coefficients (none in force where their record is invalid); `tc`: through the 1/64
divider. -/
def State.dacOut (s : State) (p code : Nat) (tc : Bool) : Word :=
  let v := F32.ofRatio (((code : Int) - 2048) * 20) 4096
  let v := if s.calMem.calCrcOk 3 p then F32.add (F32.mul (s.calMem.calRec 3 p).1 v) (s.calMem.calRec 3 p).2 else v
  if tc then F32.mul v (F32.pow2neg 6) else v

/-- The DAC code nearest to `f` tenths of a range's FS. -/
def tdacCode (range : Nat) (f : Int) : Nat :=
  let fs := fsOf range
  let num : Int := f * fs.1 * (if range = 2 then 64 else 1) * 4096
  let den : Nat := fs.2 * 200
  (2048 + (2 * num + den) / (2 * den)).toNat

/-- The output of `TDAC_p` expected at `f` tenths of FS. -/
def State.dacLevel (s : State) (p range : Nat) (f : Int) : Word := s.dacOut p (tdacCode range f) (range == 2)

/-- The levels of R143 and of a test DAC's own test, in tenths of FS. -/
def arbLevel (j : Nat) : Int := if j = 0 then -8 else if j = 1 then 0 else 8

/-- The converter-side pair of a test DAC: TDAC_p for a main converter, TDAC_2j for MSC_j (R121). -/
def dacOf (k : Nat) : Nat := if k < 16 then k / 2 else 2 * (k - 16)

/-- The ranges a converter's table uses, MA as the span it is converted on (R124, R148). -/
def State.rangesUsed (s : State) (k : Nat) : List Nat :=
  (((s.convTab k).filter (fun e => e.valid)).map (fun e => if e.range = 3 then 1 else e.range)).dedup

/-- A converter's re-admission test before its first level (R148): five levels in every range; while both converters of a pair are tested, the even
one goes first. -/
def State.convTest (s : State) (k : Nat) : ConvTest :=
  ⟨(s.rangesUsed k).flatMap (fun r => [-8, -4, 0, 4, 8].map (fun f => (r, f))), false⟩

/-- The level the check entry or diagnostic slot that starts now measures for a re-admission test (R148): a slot of MSC_j does not count while TDAC_2j is
engaged by its pair's arbitration or by a diagnostic request. -/
def State.testLevel (s : State) (k kind : Nat) : Option (Nat × Int) :=
  let p := dacOf k
  let busy := if k < 16 then k % 2 = 1 && ((s.convOf (k - 1)).test.any (fun t => !t.left.isEmpty))
    else s.pairState p == 1 || (s.convOf (2 * p)).diag || (s.convOf (2 * p + 1)).diag
  if (if k < 16 then kind = 1 else kind = 2) ∧ busy = false then (s.convOf k).test.bind (fun t => t.left.head?) else none

/-- A level of a re-admission test is measured (R148): TOL of the pair bounds the error, 0.05 % of FS for a motor-sense converter. -/
def State.testMeasure (s : State) (k range : Nat) (f : Int) (x : Word) (bad : Bool) : State :=
  let d := F32.sub x (s.dacLevel (dacOf k) range f)
  let ok := !bad && (if k < 16 then F32.absLeRatio d (s.fld (F.AFE_PAIR_CFG_TOL_UV (k / 2))) 1000000
    else F32.absLeRatio d ((fsOf range).1 * 5) ((fsOf range).2 * 10000))
  let c := s.convOf k
  s.setConv k { c with test := c.test.map (fun t => ⟨t.left.drop 1, t.bad || !ok⟩) }

/-! ## Playing an entry (R132 to R134) -/

/-- Starts an occurrence on an idle converter (R132, R148, R150): the channel register, the burn-out current, settling.  A diagnostic
slot takes the pair's pending request when it names this converter and the pair is not ARBITRATING. -/
def State.convStart (s : State) (k : Nat) (w : ConvDue) : State :=
  let en := s.convEntry k w.entry
  let p := k / 2
  let req := en.kind == 2 && decide (k < 16) && (s.pairOf p).request && s.pairState p != 1 &&
    s.fld (F.AFE_TDAC_CMD_CONV p) == k % 2
  let lvl := s.testLevel k en.kind
  let ch := if req then s.fld (F.AFE_TDAC_CMD_CH p) else en.ch
  let s := if req then s.setPair p { s.pairOf p with request := false } else s
  let r := match lvl with | some l => l.1 | none => en.range
  let v := setBits (setBits (setBits (setBits (setBits 0 31 1 1) 10 10 w.entry) 5 2 r) 3 2 en.kind) 0 3 ch
  let s := (s.wr (Reg.AFE_ADC_CHSEL k) v).setFld (F.AFE_ADC_STATUS_BUSY k) 1
  let bo := if req && s.fld (F.AFE_TDAC_CMD_MODE p) == 1 then 2 else en.burnout
  s.setConv k { s.convOf k with
    phase := .settling, entry := w.entry, cseq := w.cseq, reach := w.start, refBad := false, burnout := bo, diag := req, level := lvl }

/-- A check entry that does not play: its pair is SINGLE or DOWN and no re-admission test uses it (R145, R148). -/
def State.checkSkips (s : State) (k e : Nat) : Bool :=
  (s.convEntry k e).kind == 1 && (s.pairState (k / 2) == 2 || s.pairState (k / 2) == 5) && (s.testLevel k 1).isNone

/-- The ACHK token of a check entry of a pair in SINGLE or DOWN, which ADC_2p's entry times (R145). -/
def State.achkDown (s : State) (k e cseq : Nat) : State :=
  if k % 2 = 0 ∧ (s.convEntry k e).kind = 1 ∧ (s.pairState (k / 2) = 2 ∨ s.pairState (k / 2) = 5) then s.sendAchk (k / 2) 0 1 cseq else s

/-- Starts the first of the waiting occurrences that plays (R134, R145). -/
def State.convNext (s : State) (k : Nat) : List ConvDue → State
  | [] => s.setConv k { s.convOf k with waiting := [] }
  | w :: l =>
    let s := s.achkDown k w.entry w.cseq
    if s.checkSkips k w.entry then s.convNext k l
    else (s.setConv k { s.convOf k with waiting := l }).convStart k w

/-- Ends the entry in progress and starts the next waiting one (R134). -/
def State.convFree (s : State) (k : Nat) : State :=
  let s := (s.setFld (F.AFE_ADC_CHSEL_ACTIVE k) 0).setFld (F.AFE_ADC_STATUS_BUSY k) 0
  let c := s.convOf k
  (s.setConv k { c with phase := .idle, burnout := 0, diag := false, level := none }).convNext k c.waiting

/-- Counts a dropped occurrence (R134).  DESIGN CHOICE (notes/assumptions/111.md): 0x0510 is logged for drops 1, 65 537, 131 073 and so on. -/
def State.convLate (s : State) (k e : Nat) : State :=
  let n := s.num (Reg.AFE_ADC_LATE k)
  let s := s.count (Reg.AFE_ADC_LATE k) 1
  if n % 65536 = 0 then s.log 0x0510 (0x3000 + k) (e + min (n + 1) 0xFFFF * 2 ^ 16) else s

/-- A place in the waiting order (R134): by the fabric cycle in which the start position was reached, then by table order. -/
def waitInsert (w : ConvDue) : List ConvDue → List ConvDue
  | [] => [w]
  | v :: l => if w.start = v.start ∧ w.entry < v.entry then w :: v :: l else v :: waitInsert w l

/-- The entry in progress goes back to the head of the waiting ones: an entry before it in the table started in the same fabric cycle (R134). -/
def State.convYield (s : State) (k : Nat) : State :=
  let c := s.convOf k
  let s := if c.diag then s.setPair (k / 2) { s.pairOf (k / 2) with request := true } else s
  s.setConv k { c with phase := .idle, diag := false, level := none, waiting := ⟨c.entry, c.cseq, c.reach⟩ :: c.waiting }

/-- An occurrence whose start position is reached starts or waits; one of the same entry that has not started is dropped (R134, R145). -/
def State.convReach (s : State) (k : Nat) (w : ConvDue) : State :=
  let s := s.achkDown k w.entry w.cseq
  if s.checkSkips k w.entry then s
  else
    let c := s.convOf k
    if c.phase = .idle then s.convStart k w
    else if c.reach = w.start ∧ w.entry < c.entry then (s.convYield k).convStart k w
    else
      let s := if c.waiting.any (fun v => v.entry == w.entry) then s.convLate k w.entry else s
      s.setConv k { c with waiting := waitInsert w (c.waiting.filter (fun v => v.entry != w.entry)) }

/-- CONV_ENTRY_START (R132, R134, R145): the start position of entry `e` that follows the catch with CSEQ `cseq` is reached. -/
def execConvEntryStart (k : Fin 20) (e : Fin 1024) (cseq : Word) (s : State) : Host.Outcome State Fault Refusal :=
  match (s.convOf k).due.find? (fun d => d.entry == e.val && d.cseq == cseq.toNat), s.streamDest k with
  | some d, some m =>
    if reached (s.tabCourse m) d.start then
      .next ((s.setConv k { s.convOf k with due := (s.convOf k).due.erase d }).convReach k { d with start := s.time.cycle })
    else .next s
  | _, _ => .next s

/-- CONV_SETTLE_END (R132): the conversions begin. -/
def execConvSettleEnd (k : Fin 20) (s : State) : Host.Outcome State Fault Refusal :=
  match (s.convOf k).phase with
  | .settling => .next (s.setConv k { s.convOf k with phase := .converting })
  | _ => .next s

/-! ## From code to token (R125, R128, R136 to R140) -/

/-- The sum of the codes of an entry. -/
def sumCodes : List Int → Int
  | [] => 0
  | c :: l => c + sumCodes l

/-- u of R136. -/
def convU (k range os : Nat) (codes : List Int) : Word :=
  let l := lsbOf k range
  F32.mulRatio (F32.ofRatio (sumCodes codes) os) l.1 l.2

/-- A code is the most positive or most negative one (R125). -/
def extremeCode (k : Nat) (c : Int) : Bool :=
  decide (c = (2 ^ (codeBits k - 1) : Nat) - 1) || decide (c = -((2 ^ (codeBits k - 1) : Nat) : Int))

/-- Over range (R125). -/
def overRange (k range : Nat) (codes : List Int) (x : Word) : Bool :=
  codes.any (extremeCode k) ||
    (range == 3 && (F32.lt x (limitsOf 3).1 || F32.lt (limitsOf 3).2 x))

/-- Open-wire detection (R128): a comparison with burn-out on of a clamped x, and the declaration it may complete. -/
def State.openWire (s : State) (i range : Nat) (x : Word) : State :=
  let c := s.fld (F.AFE_CH_CFG_OW_CNT i)
  let f := fsOf range
  let isOpen := s.rbit (Reg.AFE_OW (i / 32)) (i % 32)
  let toward := if isOpen then F32.ltRatio x (f.1 * 9) (f.2 * 10) else !F32.ltRatio x (f.1 * 19) (f.2 * 20)
  let run := if toward then Tab.get (fun _ => 0) s.owRun i + 1 else 0
  if c = 0 then s
  else if run < c then s.setOwRun (Tab.put s.owRun i run)
  else
    let s := s.setOwRun (Tab.put s.owRun i 0)
    (s.setRbit (Reg.AFE_OW (i / 32)) (i % 32) (!isOpen)).log (if isOpen then 0x0515 else 0x0514) (0x2000 + sigOfChan i) i

/-- Horner evaluation of a polynomial, lowest coefficient first, each operation rounded (R136). -/
def horner (x : Word) : List Word → Word
  | [] => 0
  | [c] => c
  | c :: l => F32.add c (F32.mul x (horner x l))

/-- The value of a linear or polynomial entry (R136, R138): none when the CJC entry has no result. -/
def State.convValue (s : State) (k : Nat) (en : ConvEntry) (x : Word) : Option (Word × BitVec 4) :=
  if en.poly then
    match Tab.find (s.convOf k).last en.cjc with
    | none => none
    | some r =>
      let ps := s.img.polys.getD en.pset []
      let e := F32.add x (horner r.value (ps.take 10))
      some (horner e ((ps.drop 10).take 10), r.st)
  else some (F32.add (F32.mul en.a x) en.b, 0)

/-- The samples a capture takes (R152): exact sum of u, or the mark of a bad sample. -/
def State.calSample (s : State) (i range : Nat) (u : Word) (st : BitVec 4) (ovr : Bool) : State :=
  if s.fld F.AFE_CAL_STATUS_STATE = 2 ∧ s.cal.ch = i ∧ s.cal.range = range ∧ s.cal.cnt < s.fld F.AFE_CAL_N_N then
    if ovr || (st != 0 && st != 4) then s.setCal { s.cal with bad := true }
    else s.setCal { s.cal with cnt := s.cal.cnt + 1, sum := s.cal.sum + F32.units u }
  else s

/-- What one entry's conversions give: the sample's x before the filter, and its status but for a CJC result. -/
structure Sample where
  u    : Word
  x    : Word
  st   : BitVec 4
  ovr : Bool
  bad : Bool
  deriving DecidableEq, Repr

/-- x and the status of R139 from the codes of an entry; `bad` stands for a timeout. -/
def State.convSample (s : State) (k i range os : Nat) (codes : List Int) (bad : Bool) : Sample :=
  let u := convU k range os codes
  let c := s.coef i range
  let g := c.getD (0, 0)
  let x0 := F32.add (F32.mul g.1 u) g.2
  let ovr := overRange k range codes x0
  let x := if ovr then F32.clamp (limitsOf range).1 (limitsOf range).2 x0 else x0
  let cal := s.fld F.AFE_CAL_STATUS_STATE != 0 && s.cal.ch == i
  let bad := bad || (s.convOf k).refBad || c.isNone
  let st : BitVec 4 := if bad || !s.inUse (.conv k) then 1 else if cal then 4 else if ovr then 2 else 0
  ⟨u, x, st, ovr, bad⟩

/-- Counts an over-range sample (R125). -/
def State.ovrCount (s : State) (k : Nat) (m : Sample) : State := if m.ovr then s.countFld (F.AFE_ADC_STATUS_OVR k) 1 else s

/-- The status a CJC entry's last result adds (R138, R139): 1 when there is none. -/
def State.cjcStatus (s : State) (k : Nat) (en : ConvEntry) : BitVec 4 :=
  if en.poly then (match Tab.find (s.convOf k).last en.cjc with | some r => r.st | none => 1) else 0

/-- An input entry (KIND 0) ends: open wire, filter, value, status and token (R128, R136 to R140).  DESIGN CHOICE (notes/assumptions/111.md): a sample
with burn-out on that carries ST 1 for another reason than an open input is not compared. -/
def State.inputEnd (s : State) (k e : Nat) (codes : List Int) (bad : Bool) : State :=
  let en := s.convEntry k e
  let i := chanOf k 0 en.ch
  let m := s.convSample k i en.range en.os codes bad
  let s := s.ovrCount k m
  let s := if en.burnout ≠ 0 ∧ m.st ≠ 1 then s.openWire i en.range m.x else s
  let st := stMax (if s.rbit (Reg.AFE_OW (i / 32)) (i % 32) then 1 else m.st) (s.cjcStatus k en)
  let s := s.calSample i en.range m.u st m.ovr
  let c := s.convOf k
  if st = 1 then
    let s := s.setConv k { c with filt := Tab.del c.filt e, last := Tab.put c.last e ⟨s.subst i, 1⟩ }
    s.convSend k (mkToken (s.subst i) en.sig 1 c.cseq)
  else
    let x := if en.iir = 0 then m.x
      else match Tab.find c.filt e with
        | none => m.x
        | some y => F32.add y (F32.mul (F32.sub m.x y) (F32.pow2neg en.iir))
    let v := match s.convValue k en x with | some v => v.1 | none => 0
    let s := s.setConv k { c with filt := if en.iir = 0 then c.filt else Tab.put c.filt e x, last := Tab.put c.last e ⟨v, st⟩ }
    s.convSend k (mkToken v en.sig st c.cseq)

/-- A check entry (KIND 1) ends: the sample waits for the comparison (R141), or counts toward a re-admission test (R148).  The ACHK token of a pair that
became SINGLE or DOWN meanwhile carries ST 1 (R145). -/
def State.checkEnd (s : State) (k e : Nat) (codes : List Int) (bad : Bool) : State :=
  let en := s.convEntry k e
  let i := chanOf k 1 en.ch
  match (s.convOf k).level with
  | some (r, f) =>
    let m := s.convSample k i r en.os codes bad
    (s.ovrCount k m).testMeasure k r f m.x m.bad
  | none =>
    let m := s.convSample k i en.range en.os codes bad
    let s := s.ovrCount k m
    let st := stMax m.st (s.cjcStatus k en)
    let s := s.calSample i en.range m.u st m.ovr
    let v := match s.convValue k en m.x with | some v => v.1 | none => 0
    let q := (s.convOf k).cseq
    if s.pairState (k / 2) = 2 ∨ s.pairState (k / 2) = 5 then s.achkDown k e q
    else
      let smp := some ⟨m.x, v, st, q, en.range⟩
      let p := s.pairOf (k / 2)
      s.setPair (k / 2) (if k % 2 = 0 then { p with smpA := smp } else { p with smpB := smp })

/-- A diagnostic slot (KIND 2) ends: a level of a re-admission test (R148), or a request (R150).  A slot of range MA measures amperes: the expected value,
TOL and 0.95 FS are taken through the 50 Ω shunt. -/
def State.diagEnd (s : State) (k e : Nat) (codes : List Int) (bad : Bool) : State :=
  let en := s.convEntry k e
  match (s.convOf k).level with
  | some (r, f) =>
    let m := s.convSample k (chanOf k 0 en.ch) r en.os codes bad
    (s.ovrCount k m).testMeasure k r f m.x m.bad
  | none =>
    if !(s.convOf k).diag then s
    else
      let p := k / 2
      let ch := s.fld (F.AFE_TDAC_CMD_CH p)
      let mode := s.fld (F.AFE_TDAC_CMD_MODE p)
      let m := s.convSample k (chanOf k 0 ch) en.range en.os codes bad
      let s := s.ovrCount k m
      let f := fsOf en.range
      let r := if en.range = 3 then 50 else 1
      let v := s.dacOut p (s.fld (F.AFE_TDAC_CMD_CODE p)) (en.range == 2)
      let exp := if mode = 0 then (if en.range = 3 then F32.div v (F32.ofInt 50) else v) else F32.ofRatio (f.1 * 19) (f.2 * 20 * r)
      let pass := if mode = 0 then F32.absLeRatio (F32.sub m.x exp) (s.fld (F.AFE_PAIR_CFG_TOL_UV p)) (1000000 * r)
        else F32.ltRatio m.x (f.1 * 19) (f.2 * 20 * r)
      let s := ((s.wr (Reg.AFE_TDAC_MEAS p) m.x).wr (Reg.AFE_TDAC_EXP p) exp).setFld (F.AFE_TDAC_RES_DONE p) 1
      let s := s.setFld (F.AFE_TDAC_RES_PASS p) (b2n pass)
      if pass then s else s.log 0x0516 (0x3000 + k) (ch + mode * 2 ^ 4)

/-- The entry in progress ends by its kind, and the converter is freed. -/
def State.convFinish (s : State) (k : Nat) (codes : List Int) (bad : Bool) : State :=
  let e := (s.convOf k).entry
  let s := match (s.convEntry k e).kind with
    | 0 => s.inputEnd k e codes bad
    | 1 => s.checkEnd k e codes bad
    | _ => s.diagEnd k e codes bad
  s.convFree k

/-- CONV_END (R136): the converter's codes for the OS conversions of the entry. -/
def execConvEnd (k : Fin 20) (codes : List Int) (s : State) : Host.Outcome State Fault Refusal :=
  match (s.convOf k).phase with
  | .converting => .next (s.convFinish k codes false)
  | _ => .next s

/-- CONV_TIMEOUT (R147): a transient of cause 1; the sample carries ST = 1. -/
def execConvTimeout (k : Fin 20) (s : State) : Host.Outcome State Fault Refusal :=
  match (s.convOf k).phase with
  | .converting => .next ((s.convTransient k 1).convFinish k [] true)
  | _ => .next s

/-- REF_MONITOR_FAULT (R147): a transient of cause 2; the sample in progress carries ST = 1. -/
def execRefMonitorFault (k : Fin 20) (s : State) : Host.Outcome State Fault Refusal :=
  let s := s.convTransient k 2
  .next (s.setConv k { s.convOf k with refBad := (s.convOf k).phase != .idle })

/-- The token of converter `k` on its way to crew `n` that `t` is (R129, R140): `t` itself, or, when `t` fails its check, the first of its SIG and CSEQ
or else the first there is, which was damaged on the way. -/
def State.flying (s : State) (n k : Nat) (t : Token) : Option (Nat × Token) :=
  let l := (s.convOf k).fly.filter (fun e => e.1 == n)
  if t.ok then l.find? (fun e => e.2 == t)
  else
    match l.find? (fun e => e.2.sig == t.sig && e.2.cseq == t.cseq) with
    | some e => some e
    | none => l.head?

/-- ACQ_TOKEN (R140): a token of converter `k` reaches the ACQ port of crew `n` it was sent to, is checked and passed on unchanged to the crew's cox. -/
def execAcqToken (n : Fin 9) (k : Fin 20) (t : Token) (s : State) : Host.Outcome State Fault Refusal :=
  match s.flying n k t with
  | none => .next s
  | some e =>
    let s := s.setConv k { s.convOf k with fly := (s.convOf k).fly.erase e }
    let s := if t.ok then s else (s.mismatch (0x100 + k) t).count (Reg.ACQ_TAGERR n) 1
    .next ((s.setNum (Reg.ACQ_TOK n) (s.num (Reg.ACQ_TOK n) + 1)).emit (.tok (0x200 + n) t))

/-! ## Comparison and arbitration (R141 to R145) -/

/-- |v| in whole µV, saturating. -/
def microvolts (v : Word) : Nat := min 0xFFFFFFFF ((F32.units v).natAbs * 1000000 / 2 ^ 149)

/-- Within TOL of the pair. -/
def State.inTol (s : State) (p : Nat) (v : Word) : Bool := F32.absLeRatio v (s.fld (F.AFE_PAIR_CFG_TOL_UV p)) 1000000

/-- The outcome of an arbitration (R144). -/
def State.arbOutcome (s : State) (p : Nat) (l : List (Word × Word × Word)) : Nat :=
  let a := l.any (fun t => !s.inTol p (F32.sub t.1 t.2.2))
  let b := l.any (fun t => !s.inTol p (F32.sub t.2.1 t.2.2))
  let apart := l.any (fun t => !s.inTol p (F32.sub t.1 t.2.1))
  match a, b with
  | false, false => 0
  | true, true => if apart then 2 else 3
  | _, _ => 1

/-- Ends an arbitration (R144). -/
def State.arbEnd (s : State) (p : Nat) (l : List (Word × Word × Word)) : State :=
  let o := s.arbOutcome p l
  let s := s.log 0x0513 (0x3000 + 2 * p) o
  let s := ((s.setPair p { s.pairOf p with arb := [], driving := none }).setFld (F.AFE_PAIR_STATUS_ARB_LEVEL p) 0).setFld
    (F.AFE_PAIR_STATUS_STATE p) 0
  match o with
  | 0 => s.setFld (F.AFE_PAIR_STATUS_MISMATCH p) 0
  | 1 => s.convFatal (2 * p + b2n (!l.any (fun t => !s.inTol p (F32.sub t.1 t.2.2)))) 4
  | 2 => (s.convFatal (2 * p) 5).convFatal (2 * p + 1) 5
  | _ => (s.fatal (.tdac p) 6).pairRefresh p

/-- A level of an arbitration is measured (R143). -/
def State.arbCheck (s : State) (p : Nat) (a b : CheckSmp) : State :=
  let l := (s.pairOf p).arb ++ [(a.x, b.x, s.dacLevel p a.range (arbLevel (s.pairOf p).arb.length))]
  let s := s.sendAchk p 0 1 a.cseq
  if l.length < 3 then
    (s.setPair p { s.pairOf p with arb := l, driving := some l.length }).setFld (F.AFE_PAIR_STATUS_ARB_LEVEL p) l.length
  else s.arbEnd p l

/-- A level of the test DAC's re-admission test is measured against both converters (R148). -/
def State.dacCheck (s : State) (p j : Nat) (bad : Bool) (a b : CheckSmp) : State :=
  let v := s.dacLevel p a.range (arbLevel j)
  let bad := bad || !s.inTol p (F32.sub a.x v) || !s.inTol p (F32.sub b.x v) || a.st == 1 || b.st == 1
  (s.setPair p { s.pairOf p with dacTest := some (j + 1, bad) }).sendAchk p 0 1 a.cseq

/-- The comparison of CHECKING and NO_ARB (R141, R142, R145).  DESIGN CHOICE (notes/assumptions/111.md): a check within TOL gives ST 0 as R141 says, though
a sample was over range (R139); a sample with ST 1 leaves no comparison. -/
def State.compareCheck (s : State) (p : Nat) (a b : CheckSmp) (mean : Word) : State :=
  if a.st == 1 || b.st == 1 then s.sendAchk p mean 1 a.cseq
  else
    let d := F32.sub a.x b.x
    let s := s.wr (Reg.AFE_PAIR_DIFF p) d
    if s.inTol p d then (s.setFld (F.AFE_PAIR_STATUS_MISMATCH p) 0).sendAchk p mean 0 a.cseq
    else
      let s := (s.countFld (F.AFE_PAIR_STATUS_MISMATCH p) 1).log 0x0511 (0x3000 + 2 * p) (microvolts d)
      let s := s.sendAchk p mean 1 a.cseq
      if s.fld (F.AFE_PAIR_STATUS_MISMATCH p) < s.fld (F.AFE_PAIR_CFG_PERSIST p) then s
      else if s.pairState p = 3 then (s.convFatal (2 * p) 7).convFatal (2 * p + 1) 7
      else
        ((s.setFld (F.AFE_PAIR_STATUS_STATE p) 1).setPair p { s.pairOf p with arb := [], driving := some 0 }).log
          0x0512 (0x3000 + 2 * p) (s.fld (F.AFE_PAIR_CFG_PERSIST p))

/-- What both samples of a check entry bring, by the pair's state (R141 to R146, R148); the token carries the mean of the two entries' values. -/
def State.pairCheck (s : State) (p : Nat) (a b : CheckSmp) : State :=
  let mean := F32.mul (F32.add a.value b.value) 0x3F000000
  match (s.pairOf p).dacTest.filter (fun t => decide (t.1 < 3) && s.health (.tdac p) == .testing && s.pairState p == 3), s.pairState p with
  | some (j, bad), _ => s.dacCheck p j bad a b
  | none, 4 => s.sendAchk p mean (if a.st == 1 || b.st == 1 then 1 else 4) a.cseq
  | none, 1 => s.arbCheck p a b
  | none, _ => s.compareCheck p a b mean

/-- PAIR_CHECK (R141 to R145, R148): both check samples of one catch are there.  A sample whose partner was dropped (R134) is discarded with the first
later one. -/
def execPairCheck (p : Fin 8) (_u : Unit) (s : State) : Host.Outcome State Fault Refusal :=
  match (s.pairOf p).smpA, (s.pairOf p).smpB with
  | some a, some b =>
    if a.cseq = b.cseq then .next ((s.setPair p { s.pairOf p with smpA := none, smpB := none }).pairCheck p a b)
    else if seqBefore a.cseq b.cseq then .next (s.setPair p { s.pairOf p with smpA := none })
    else .next (s.setPair p { s.pairOf p with smpB := none })
  | _, _ => .next s

/-! ## Re-admission and diagnosis (R148, R150) -/

/-- A converter's table has a diagnostic slot. -/
def State.hasDiag (s : State) (k : Nat) : Bool := (s.convTab k).any (fun e => e.valid && e.kind == 2)

/-- CONVERTER_READMIT (R148): the test begins; it takes its levels at the check entries of the pair, or at the diagnostic slots of a motor-sense
converter. -/
def execConverterReadmit (k : Fin 20) (s : State) : Host.Outcome State Fault Refusal :=
  let was := s.health (.conv k)
  let s := s.readmit (.conv k)
  if was ≠ .retired then .next s
  else if 16 ≤ k.val ∧ (!s.hasDiag k ∨ !s.inUse (.tdac (2 * (k - 16)))) then .next (s.testFailed (.conv k) 1)
  else .next (s.setConv k { s.convOf k with test := some (s.convTest k) })

/-- Both converters of a pair are in SERVICE. -/
def State.pairInService (s : State) (p : Nat) : Bool := s.health (.conv (2 * p)) == .service && s.health (.conv (2 * p + 1)) == .service

/-- TDAC_READMIT (R148): the test requires both converters in SERVICE. -/
def execTdacReadmit (p : Fin 8) (s : State) : Host.Outcome State Fault Refusal :=
  let was := s.health (.tdac p)
  let s := s.readmit (.tdac p)
  if was ≠ .retired then .next s
  else if s.pairInService p then .next (s.setPair p { s.pairOf p with dacTest := some (0, false) })
  else
    let (c, s) := s.freshNat
    .next (s.testFailed (.tdac p) c)

/-- The verdict of a converter's or a test DAC's re-admission test (R148): none while levels are still to measure, else whether it passes. -/
def State.anaVerdict (s : State) (r : Res) : Option Bool :=
  match r with
  | .conv k => match (s.convOf k).test with | some t => if t.left.isEmpty then some (!t.bad) else none | none => some false
  | .tdac p =>
    match (s.pairOf p).dacTest with
    | some (j, bad) => if !s.pairInService p then some false else if j < 3 then none else some (!bad)
    | none => some false
  | _ => none

/-- A re-admission test of a converter or a test DAC is over: the filters of a re-admitted converter start anew (R137). -/
def State.anaTestOver (s : State) (r : Res) : State :=
  match r with
  | .conv k => s.setConv k { s.convOf k with test := none, filt := [] }
  | .tdac p => s.setPair p { s.pairOf p with dacTest := none }
  | _ => s

/-- TDAC_DIAG_REQUEST (R150): a write with GO = 1 of CODE, MODE, CONV and CH. -/
def execTdacDiagRequest (p : Fin 8) (code : BitVec 12) (mode : BitVec 2) (conv : Bool) (ch : BitVec 3) (s : State) :
    Host.Outcome State Fault Refusal :=
  let s := (((s.setFld (F.AFE_TDAC_CMD_CODE p) code.toNat).setFld (F.AFE_TDAC_CMD_MODE p) mode.toNat).setFld
    (F.AFE_TDAC_CMD_CONV p) (b2n conv)).setFld (F.AFE_TDAC_CMD_CH p) ch.toNat
  let s := ((s.wr (Reg.AFE_TDAC_RES p) 0).wr (Reg.AFE_TDAC_MEAS p) 0).wr (Reg.AFE_TDAC_EXP p) 0
  let k := 2 * p.val + b2n conv
  if 2 ≤ mode.toNat || !s.inUse (.conv k) || !s.hasDiag k then
    .next ((s.setFld (F.AFE_TDAC_RES_REFUSED p) 1).setPair p { s.pairOf p with request := false })
  else .next (s.setPair p { s.pairOf p with request := true })

/-! ## System calibration (R152 to R154) -/

def State.calState (s : State) : Nat := s.fld F.AFE_CAL_STATUS_STATE

/-- A valid range for a channel (R124, R135, R153). -/
def rangeOk (i range : Nat) : Bool :=
  decide (i < 128) || (decide (i < 144) && decide (range < 3)) || (decide (i < 176) && decide (range < 2))

/-- A running entry reads (channel, range). -/
def State.hasEntry (s : State) (i range : Nat) : Bool :=
  let k := convOfChan i
  (s.streamDest k).isSome && (s.convTab k).any (fun e =>
    e.valid && e.kind != 2 && chanOf k e.kind e.ch == i && e.range == range)

/-- CAL_START (R152): START with CH and RANGE. -/
def execCalStart (ch : BitVec 8) (range : BitVec 2) (s : State) : Host.Outcome State Fault Refusal :=
  let i := ch.toNat
  let r := range.toNat
  let s := (s.setFld F.AFE_CAL_CTRL_CH i).setFld F.AFE_CAL_CTRL_RANGE r
  if s.calState ≠ 0 then .next (s.calRefuse 1 i r)
  else if !rangeOk i r then .next (s.calRefuse 9 i r)
  else if !s.hasEntry i r then .next (s.calRefuse 2 i r)
  else if !s.inUse (.conv (convOfChan i)) then .next (s.calRefuse 3 i r)
  else
    let s := (s.setFld F.AFE_CAL_STATUS_STATE 1).setCal { Cal.init with ch := i, range := r, snap := s.cal.snap }
    .next (if 128 ≤ i ∧ i < 144 then s.pairRefresh ((i - 128) / 2) else s)

/-- A capture command (R152). -/
def State.calCapture (s : State) (high : Bool) : State :=
  if s.calState = 1 ∨ s.calState = 3 ∨ s.calState = 4 then
    let x := s.rd Reg.AFE_CAL_X
    let c := { s.cal with high := high, cnt := 0, sum := 0, bad := false, prev := s.calState }
    (s.setCal (if high then { c with x1 := x } else { c with x0 := x })).setFld F.AFE_CAL_STATUS_STATE 2
  else s.calRefuse 1 s.cal.ch s.cal.range

/-- CAL_CAPTURE_LO (R152). -/
def execCalCaptureLo (s : State) : Host.Outcome State Fault Refusal := .next (s.calCapture false)

/-- CAL_CAPTURE_HI (R152). -/
def execCalCaptureHi (s : State) : Host.Outcome State Fault Refusal := .next (s.calCapture true)

/-- CAL_CAPTURE_DONE (R152): N usable samples store the point; a bad sample refuses it. -/
def execCalCaptureDone (s : State) : Host.Outcome State Fault Refusal :=
  if s.calState ≠ 2 then .next s
  else if s.cal.bad then
    .next ((s.setFld F.AFE_CAL_STATUS_STATE s.cal.prev).calRefuse 4 s.cal.ch s.cal.range)
  else if s.cal.cnt < s.fld F.AFE_CAL_N_N then .next s
  else
    let u := F32.ofUnitsRatio s.cal.sum s.cal.cnt
    let hi := s.cal.high
    let other := if hi then s.flag F.AFE_CAL_STATUS_HAVE_LO else s.flag F.AFE_CAL_STATUS_HAVE_HI
    let s := s.setCal (if hi then { s.cal with u1 := u } else { s.cal with u0 := u })
    let s := s.setFld (if hi then F.AFE_CAL_STATUS_HAVE_HI else F.AFE_CAL_STATUS_HAVE_LO) 1
    .next (s.setFld F.AFE_CAL_STATUS_STATE (if hi != other then 4 else 3))

/-- The span of a range as a ratio (R153): 20 V, 5 V, 312.5 mV, 24 mA. -/
def spanOf (range : Nat) : Nat × Nat :=
  match range with
  | 0 => (20, 1) | 1 => (5, 1) | 2 => (5, 16) | _ => (24, 1000)

/-- The refusal of a commit (R153): SPAN, GAIN, OFFSET, or 0. -/
def calVerdict (range : Nat) (dx gain offs : Word) : Nat :=
  let sp := spanOf range
  if !F32.isFinite dx || F32.ltRatio (F32.abs dx) sp.1 (sp.2 * 10) then 5
  else if !F32.isFinite gain || F32.ltRatio gain 95 100 || !F32.absLeRatio gain 105 100 then 6
  else if !F32.absLeRatio offs (sp.1 * 2) (sp.2 * 100) then 7
  else 0

/-- CAL_COMMIT (R153): gain and offset are computed and checked. -/
def execCalCommit (s : State) : Host.Outcome State Fault Refusal :=
  if (s.calState = 3 ∨ s.calState = 4) ∧ s.flag F.AFE_CAL_STATUS_HAVE_LO ∧ s.flag F.AFE_CAL_STATUS_HAVE_HI then
    let c := s.cal
    let dx := F32.sub c.x1 c.x0
    let gain := F32.div dx (F32.sub c.u1 c.u0)
    let offs := F32.sub c.x0 (F32.mul gain c.u0)
    let s := (s.wr Reg.AFE_CAL_GAIN gain).wr Reg.AFE_CAL_OFFS offs
    match calVerdict c.range dx gain offs with
    | 0 => .next (s.setFld F.AFE_CAL_STATUS_STATE 5)
    | v => .next (s.calIdle.calRefuse v c.ch c.range)
  else .next (s.calRefuse 1 s.cal.ch s.cal.range)

/-- Writes a system record (R154). -/
def State.writeCal (s : State) (slot r : Nat) (gain offs : Word) (seq : Nat) : State :=
  let body := leBytes 4 gain.toNat ++ leBytes 4 offs.toNat ++ leBytes 4 seq
  s.storeRec (calAddr (1 + slot) r) (body ++ leBytes 4 (crc32c (leBytes 4 r ++ body)))

/-- CAL_COMMIT_DONE (R154): the record is written to the slot without the newest valid one and read back (`ok`). -/
def execCalCommitDone (ok : Bool) (s : State) : Host.Outcome State Fault Refusal :=
  if s.calState ≠ 5 then .next s
  else
    let r := 4 * s.cal.ch + s.cal.range
    if ok then
      let new := s.calNewest r
      let slot := match new with | some k => 1 - k | none => 0
      let seq := match new with | some k => s.calSeq (1 + k) r + 1 | none => 1
      let s := s.writeCal slot r (s.rd Reg.AFE_CAL_GAIN) (s.rd Reg.AFE_CAL_OFFS) seq
      .next (s.calIdle.log 0x0518 0 (s.cal.ch + s.cal.range * 2 ^ 8))
    else .next (s.calIdle.calRefuse 8 s.cal.ch s.cal.range)

/-- CAL_ABORT (R152). -/
def execCalAbort (s : State) : Host.Outcome State Fault Refusal :=
  if s.calState = 0 then .next (s.calRefuse 1 s.cal.ch s.cal.range)
  else .next (s.calIdle.calRefuse 0x0A s.cal.ch s.cal.range)

/-- Logs a record without valid coefficients (R151, R156). -/
def State.noCoef (s : State) (r : Nat) : State := s.logIf (s.calMem.coefOf r).isNone 0x051B 0 r

/-- CAL_REVERT (R152): both system records are written as zeros. -/
def execCalRevert (ch : BitVec 8) (range : BitVec 2) (s : State) : Host.Outcome State Fault Refusal :=
  let i := ch.toNat
  let r := range.toNat
  let s := (s.setFld F.AFE_CAL_CTRL_CH i).setFld F.AFE_CAL_CTRL_RANGE r
  if s.calState ≠ 0 then .next (s.calRefuse 1 i r)
  else if !rangeOk i r then .next (s.calRefuse 9 i r)
  else
    let z := List.replicate 16 0
    .next ((((s.storeRec (calAddr 1 (4 * i + r)) z).storeRec (calAddr 2 (4 * i + r)) z).log 0x0518 0 (i + r * 2 ^ 8 + 2 ^ 31)).noCoef (4 * i + r))

/-! ## Reload (R151, R154) -/

/-- The records the running entries read. -/
def State.recordsRead (s : State) : List Nat :=
  ((List.range 20).flatMap (fun k => if (s.streamDest k).isNone then [] else
    ((s.convTab k).filter (fun e => e.valid && e.kind != 2)).map (fun e => 4 * chanOf k e.kind e.ch + e.range))).dedup

/-- The coefficients are reloaded (R151, R154): 0x051A for each system record that is not all zero and fails its CRC, 0x051B for each record a running
entry reads that has no valid coefficients. -/
def State.calReload (s : State) : State :=
  let s := s.setCal { s.cal with snap := s.mem.filter (fun c => decide (0x8B000000 ≤ c.1) && decide (c.1 < 0x8B040000)) }
  let s := (List.range 704).foldl (fun s r => [0, 1].foldl (fun s k =>
    s.logIf ((s.rdList (calAddr (1 + k) r) 16).any (fun b => b != 0) && !s.calCrcOk (1 + k) r) 0x051A 0 (r + k * 2 ^ 16)) s) s
  s.recordsRead.foldl State.noCoef s

/-- What a catch of table `m` schedules at the converters that follow it (R132): the occurrences of its entry index whose DIV and PHASE take the stroke. -/
def State.convCatch (s : State) (m pos q : Nat) : State :=
  (List.range 20).foldl (fun s k =>
    if s.streamDest k ≠ some m then s
    else
      let l := ((s.convTab k).zipIdx.filter (fun e => e.1.valid && e.1.e == cseqEntry q && strokeOf q % e.1.div == e.1.phase)).map
        (fun e => ConvDue.mk e.2 q ((pos + e.1.offset) % 2 ^ 64))
      if l.isEmpty then s else s.setConv k { s.convOf k with due := (s.convOf k).due ++ l }) s

end Sys2Proof.Machine
end

