-- ==== Sys2Proof/Machine/Sha.lean ====
section
/-! DEFINITION. SHA-384 (R74, R298 and R511 name it; the standard FIPS 180-4 defines it, notes/assumptions/9.md), over bytes, with 64-bit words as natural numbers.
The constants are computed from what the standard says they are: fractional parts of roots of primes. -/
namespace Sys2Proof.Machine

/-- Big-endian bytes as a number. -/
def ofBe (l : List Nat) : Nat := l.foldl (fun n b => n * 256 + b % 256) 0

/-- Big-endian bytes of a number. -/
def beBytes (n v : Nat) : List Nat := (List.range n).map (fun i => v / 256 ^ (n - 1 - i) % 256)

/-! ## Constants -/

/-- The greatest number of `b` bits above `r` whose `k`-th power is at most `v`. -/
def rootFrom (k v : Nat) : Nat → Nat → Nat
  | 0, r => r
  | b + 1, r => rootFrom k v b (if (r + 2 ^ b) ^ k ≤ v then r + 2 ^ b else r)

/-- The first 64 bits of the fractional part of the `k`-th root of `p`. -/
def fracRoot (k p : Nat) : Nat := rootFrom k (p * 2 ^ (64 * k)) 72 0 % 2 ^ 64

/-- The primes below 410: the first 80. -/
def primes80 : List Nat := (List.range 410).filter (fun p => decide (2 ≤ p) && (List.range 19).all (fun d => decide (d + 2 ≥ p) || p % (d + 2) != 0))

/-- The round constants, of the first 80 primes, and the initial hash value of SHA-384, of the ninth to the sixteenth. -/
def shaK : List Nat := primes80.map (fracRoot 3)
def sha384Init : List Nat := ((primes80.drop 8).take 8).map (fracRoot 2)

/-! ## Compression -/

/-- A 64-bit word rotated right by each amount, with the results added bit by bit. -/
def xorRot (x : Nat) (rs : List Nat) : Nat := rs.foldl (fun acc r => acc ^^^ (x / 2 ^ r + x * 2 ^ (64 - r) % 2 ^ 64)) 0

/-- One round on the eight working words: its message word and its constant come as their sum `kw`. -/
def shaRound (kw : Nat) (v : List Nat) : List Nat :=
  let at_ (i : Nat) : Nat := v.getD i 0
  let choose := at_ 6 ^^^ (at_ 4 &&& (at_ 5 ^^^ at_ 6))
  let most := (at_ 0 &&& (at_ 1 ||| at_ 2)) ||| (at_ 1 &&& at_ 2)
  let t := kw + at_ 7 + choose + xorRot (at_ 4) [14, 18, 41]
  ((t + most + xorRot (at_ 0) [28, 34, 39]) % 2 ^ 64) :: v.take 3 ++ ((at_ 3 + t) % 2 ^ 64) :: (v.drop 4).take 3

/-- The message word 16 rounds after the first of a window of 16. -/
def shaNext (win : List Nat) : Nat :=
  let lo := win.getD 1 0; let hi := win.getD 14 0
  (win.headD 0 + win.getD 9 0 + (xorRot lo [1, 8] ^^^ lo / 2 ^ 7) + (xorRot hi [19, 61] ^^^ hi / 2 ^ 6)) % 2 ^ 64

/-- The rounds with the given constants, from a window of message words. -/
def shaRounds : List Nat → List Nat → List Nat → List Nat
  | [], _, v => v
  | k :: ks, win, v => shaRounds ks (win.drop 1 ++ [shaNext win]) (shaRound (k + win.headD 0) v)

/-- One 128-byte block into the hash value. -/
def shaBlock (h blk : List Nat) : List Nat :=
  let win := (List.range 16).map (fun i => ofBe ((blk.drop (8 * i)).take 8))
  List.zipWith (fun a b => (a + b) % 2 ^ 64) h (shaRounds shaK win h)

/-- The blocks of a padded message. -/
def shaBlocks : Nat → List Nat → List Nat → List Nat
  | 0, h, _ => h
  | n + 1, h, l => shaBlocks n (shaBlock h (l.take 128)) (l.drop 128)

/-- SHA-384 of a byte string, as its 384-bit number (first byte highest). -/
def sha384 (l : List Nat) : Nat :=
  let pad := 0x80 :: List.replicate ((239 - l.length % 128) % 128) 0 ++ beBytes 16 (8 * l.length)
  let m := l ++ pad
  ((shaBlocks (m.length / 128) sha384Init m).take 6).foldl (fun n w => n * 2 ^ 64 + w) 0

end Sys2Proof.Machine
end

