-- ==== Sys2Proof/Machine/Aes.lean ====
section
/-! DEFINITION. AES-256-GCM (R7, R388, R519, R520; FIPS 197 and SP 800-38D define it, notes/assumptions/9.md), over bytes, with nonces of 12 bytes. -/
namespace Sys2Proof.Machine

/-! ## AES-256 -/

/-- Twice an element of GF(2⁸). -/
def gf8Twice (a : Nat) : Nat := if a < 128 then 2 * a else (2 * a) ^^^ 0x11B

/-- A product in GF(2⁸), over the lowest bits of `b`. -/
def gf8Mul : Nat → Nat → Nat → Nat
  | 0, _, _ => 0
  | k + 1, a, b => (if b % 2 = 1 then a else 0) ^^^ gf8Mul k (gf8Twice a) (b / 2)

/-- The inverse in GF(2⁸), x²⁵⁴ = x² · x⁴ · … · x¹²⁸, and 0 for 0. -/
def gf8Inv (x : Nat) : Nat := ((List.range 7).foldl (fun a _ => let q := gf8Mul 8 a.2 a.2; (gf8Mul 8 a.1 q, q)) (1, x)).1

/-- The S-box: an inverse, then the affine map of its bits. -/
def aesSub (x : Nat) : Nat :=
  let i := gf8Inv x
  [1, 2, 3, 4].foldl (fun y k => y ^^^ (i * 2 ^ k % 256 + i / 2 ^ (8 - k))) (i ^^^ 0x63)

def aesBox : List Nat := (List.range 256).map aesSub
def subByte (x : Nat) : Nat := aesBox.getD x 0

/-- Byte strings added bit by bit, as far as the shorter goes. -/
def xorBytes (a b : List Nat) : List Nat := List.zipWith (fun x y => x ^^^ y) a b

/-- The words of a key schedule, the newest first: `i` is the index of the next of `n` more (0 to 59 in all). -/
def aesExpand : Nat → Nat → List (List Nat) → List (List Nat)
  | 0, _, ws => ws
  | n + 1, i, ws =>
    let t := ws.headD []
    let t := if i % 8 = 0 then xorBytes ((t.drop 1 ++ t.take 1).map subByte) [2 ^ (i / 8 - 1), 0, 0, 0]
      else if i % 8 = 4 then t.map subByte else t
    aesExpand n (i + 1) (xorBytes (ws.getD 7 []) t :: ws)

/-- The 15 round keys of a 32-byte key. -/
def aesKeys (key : List Nat) : List (List Nat) :=
  let ws := (aesExpand 52 8 ((List.range 8).map (fun i => (key.drop (4 * i)).take 4)).reverse).reverse
  (List.range 15).map (fun r => ((ws.drop (4 * r)).take 4).flatten)

/-- SubBytes and ShiftRows on a block, column by column. -/
def aesShift (b : List Nat) : List Nat := (List.range 16).map (fun i => subByte (b.getD ((i + 4 * (i % 4)) % 16) 0))

/-- MixColumns. -/
def aesMix (b : List Nat) : List Nat :=
  (List.range 16).map (fun i =>
    let c (k : Nat) : Nat := b.getD (i / 4 * 4 + (i + k) % 4) 0
    gf8Twice (c 0) ^^^ gf8Twice (c 1) ^^^ c 1 ^^^ c 2 ^^^ c 3)

/-- A block encrypted under a key schedule. -/
def aesBlock (ks : List (List Nat)) (b : List Nat) : List Nat :=
  let mid := ((ks.drop 1).take 13).foldl (fun b k => xorBytes (aesMix (aesShift b)) k) (xorBytes b (ks.headD []))
  xorBytes (aesShift mid) (ks.getD 14 [])

/-! ## GCM -/

/-- A product in GF(2¹²⁸) as GCM numbers its bits (the first the highest), over the lowest bits of `x` and the highest first. -/
def ghMul (x : Nat) : Nat → Nat → Nat
  | 0, _ => 0
  | k + 1, v => (if x / 2 ^ k % 2 = 1 then v else 0) ^^^ ghMul x k (if v % 2 = 1 then (v / 2) ^^^ (0xE1 * 2 ^ 120) else v / 2)

/-- GHASH of whole blocks. -/
def ghash (h : Nat) : Nat → List Nat → Nat → Nat
  | 0, _, y => y
  | n + 1, l, y => ghash h n (l.drop 16) (ghMul (y ^^^ ofBe (l.take 16)) 128 h)

/-- Bytes filled with zeros up to a whole block. -/
def padBlock (l : List Nat) : List Nat := l ++ List.replicate ((16 - l.length % 16) % 16) 0

/-- The key stream's block `i` under a nonce. -/
def gcmBlock (ks : List (List Nat)) (nonce : List Nat) (i : Nat) : List Nat := aesBlock ks (nonce ++ beBytes 4 i)

/-- Bytes encrypted, or decrypted, in counter mode. -/
def gcmStream (key nonce l : List Nat) : List Nat :=
  let ks := aesKeys key
  (List.range ((l.length + 15) / 16)).flatMap (fun i => xorBytes ((l.drop (16 * i)).take 16) (gcmBlock ks nonce (i + 2)))

/-- The tag of a ciphertext and additional data. -/
def gcmTag (key nonce aad c : List Nat) : List Nat :=
  let ks := aesKeys key
  let h := ofBe (aesBlock ks (List.replicate 16 0))
  let l := padBlock aad ++ padBlock c ++ beBytes 8 (8 * aad.length) ++ beBytes 8 (8 * c.length)
  xorBytes (beBytes 16 (ghash h (l.length / 16) l 0)) (gcmBlock ks nonce 1)

/-- AES-256-GCM: ciphertext, then tag. -/
def gcmSeal (key nonce aad p : List Nat) : List Nat :=
  let c := gcmStream key nonce p
  c ++ gcmTag key nonce aad c

/-- The plaintext of a ciphertext with its tag at the end; none where the tag fails. -/
def gcmOpen (key nonce aad l : List Nat) : Option (List Nat) :=
  let c := l.take (l.length - 16)
  if 16 ≤ l.length ∧ l.drop (l.length - 16) = gcmTag key nonce aad c then some (gcmStream key nonce c) else none

end Sys2Proof.Machine
end

