-- ==== Sys2Proof/Machine/Ecdsa.lean ====
section
/-! DEFINITION. Verification of an ECDSA P-384 signature with SHA-384 (R7, R74, R508; the standard FIPS 186-5 defines it, notes/assumptions/9.md).  A point is
held in Jacobian form (X, Y, Z) for (X / Z², Y / Z³); Z = 0 is the point at infinity. -/
namespace Sys2Proof.Machine

/-! ## The curve -/

/-- The prime of the field, the order of the group and the coefficient b; a is −3. -/
def curveP : Nat := 2 ^ 384 - 2 ^ 128 - 2 ^ 96 + 2 ^ 32 - 1
def curveN : Nat := 2 ^ 384 - 0x389cb27e0bc8d220a7e5f24db74f58851313e695333ad68d
def curveB : Nat := 0xb3312fa7e23ee7e4988e056be3f82d19181d9c6efe8141120314088f5013875ac656398d8a2ed19d2a85c8edd3ec2aef
/-- The base point. -/
def curveG : Nat × Nat :=
  (0xaa87ca22be8b05378eb1c71ef320ad746e1d3b628ba79b9859f741e082542a385502f25dbf55296c3a545e3872760ab7,
   0x3617de4a96262c6f5d9e98bf9292dc29f8f41dbd289a147ce9da3113b5f0b8c00a60b1ce1d7e819d7a431d7c90ea0e5f)

/-- A point of the curve, not at infinity. -/
def onCurve (x y : Nat) : Bool := decide (x < curveP) && decide (y < curveP) && (y * y + 3 * x) % curveP == (x * x * x + curveB) % curveP

abbrev JPoint := Nat × Nat × Nat

def subP (a b : Nat) : Nat := (a + curveP - b) % curveP
def mulP (a b : Nat) : Nat := a * b % curveP

/-- Twice a point. -/
def ptDouble (q : JPoint) : JPoint :=
  let (x, y, z) := q
  let yy := mulP y y
  let s := mulP (4 * x) yy
  let zz := mulP z z
  let m := 3 * mulP (subP x zz) ((x + zz) % curveP)
  let x' := subP (mulP m m) (2 * s % curveP)
  (x', subP (mulP m (subP s x')) (8 * mulP yy yy % curveP), mulP (2 * y) z)

/-- The sum of a point and the affine point (x₂, y₂). -/
def ptAdd (q : JPoint) (b : Nat × Nat) : JPoint :=
  let (x, y, z) := q
  if z = 0 then (b.1, b.2, 1)
  else
    let zz := mulP z z
    let h := subP (mulP b.1 zz) x
    let r := subP (mulP b.2 (mulP zz z)) y
    if h = 0 then (if r = 0 then ptDouble q else (1, 1, 0))
    else
      let hh := mulP h h
      let hhh := mulP h hh
      let v := mulP x hh
      let x' := subP (subP (mulP r r) hhh) (2 * v % curveP)
      (x', subP (mulP r (subP v x')) (mulP y hhh), mulP z h)

/-- u·G + v·Q over the lowest bits of u and v, the highest of them first. -/
def ptMulAdd (u v : Nat) (q : Nat × Nat) : Nat → JPoint → JPoint
  | 0, acc => acc
  | k + 1, acc =>
    let d := ptDouble acc
    let d := if u / 2 ^ k % 2 = 1 then ptAdd d curveG else d
    ptMulAdd u v q k (if v / 2 ^ k % 2 = 1 then ptAdd d q else d)

/-- A power modulo the group order, over the lowest bits of the exponent. -/
def powN (e : Nat) : Nat → Nat → Nat
  | 0, _ => 1
  | k + 1, b => powN (e / 2) k (b * b % curveN) * (if e % 2 = 1 then b else 1) % curveN

/-! ## Signatures -/

/-- The 96 bytes r then s are a signature under the 97-byte public key over a message with SHA-384 digest `e` (R74, R508). -/
def ecdsaHolds (key sig : List Nat) (e : Nat) : Bool :=
  let q := (ofBe ((key.drop 1).take 48), ofBe ((key.drop 49).take 48))
  let r := ofBe (sig.take 48); let t := ofBe ((sig.drop 48).take 48)
  key.length == 97 && key.headD 0 == 4 && onCurve q.1 q.2 && sig.length == 96 &&
    decide (0 < r) && decide (r < curveN) && decide (0 < t) && decide (t < curveN) &&
    (let w := powN (curveN - 2) 384 t
     let (x, _, z) := ptMulAdd (e * w % curveN) (r * w % curveN) q 384 (1, 1, 0)
     z != 0 && (mulP r (mulP z z) == x || (decide (r + curveN < curveP) && mulP (r + curveN) (mulP z z) == x)))

end Sys2Proof.Machine
end

