-- ==== Sys2Proof/Machine/VltOps.lean ====
section
/-! DEFINITION. What loaders use of the vault and of the running image: checks of signed items (R74, R81, R212, R461), measurement
registers (R521) and compatibility (R89); and copies of ranges of memory. -/
namespace Sys2Proof.Machine

/-- A little-endian field of a byte string. -/
def fieldAt (l : List Nat) (off n : Nat) : Nat := ofLe ((l.drop off).take n)

/-! ## Ranges of memory -/

/-- Zeroes `n` bytes of memory from `a`. -/
def State.clearMem (s : State) (a n : Nat) : State :=
  { s with mem := s.mem.filter (fun c => decide (c.1 < a) || decide (a + n ≤ c.1)) }

/-- Copies `n` bytes of memory from `src` to `dst`. -/
def State.copyMem (s : State) (src dst n : Nat) : State :=
  let mid := (s.mem.filter (fun c => decide (src ≤ c.1) && decide (c.1 < src + n))).map (fun c => (c.1 - src + dst, c.2))
  { s with mem := s.mem.filter (fun c => decide (c.1 < dst)) ++ mid ++ s.mem.filter (fun c => decide (dst + n ≤ c.1)) }

/-- `n` bytes from `a` lie within general DRAM (R19). -/
def inDram (a n : Nat) : Bool := decide (0x1000000000 ≤ a) && decide (a + n ≤ 0x1100000000)

/-! ## Signed items -/

/-- State of an owner slot (R514): 0 EMPTY, 1 ENROLLED, 2 REVOKED. -/
def State.ownerSlot (s : State) (k : Nat) : Nat := bitsOf (s.rd Reg.VLT_STATUS) (2 * k) 2

/-- The last 96 bytes of an item are a signature by a public key over the bytes before them (R74). -/
def signedUnder (key l : List Nat) : Bool := ecdsaHolds key (l.drop (l.length - 96)) (sha384 (l.take (l.length - 96)))

/-- The public key of owner slot `k`, which VLT uses only while its hash matches the slot (R514). -/
def State.ownerPub (s : State) (k : Nat) : List Nat := Tab.get (fun _ => []) s.vlt.pubs k
def State.ownerKeyOk (s : State) (k : Nat) : Bool := beBytes 48 (sha384 (s.ownerPub k)) == Tab.get (fun _ => []) s.vlt.hashes k

/-- The signature of an item verifies against owner slot `k`, which must be enrolled and not revoked (R74, R81, R516). -/
def State.signedBy (s : State) (k : Nat) (l : List Nat) : Bool :=
  decide (k < 4) && s.ownerSlot k == 1 && s.ownerKeyOk k && signedUnder (s.ownerPub k) l

/-! ## Encrypted items (R519, R520) -/

/-- The content key and the nonce base that a KEYWRAP block of 96 bytes holds: none when it is for another module or its tag fails. -/
def keyUnwrap (b : List Nat) : Option (List Nat × List Nat) :=
  if b.length = 96 ∧ fieldAt b 0 4 = 1 ∧ fieldAt b 8 8 = Config.keyId % 2 ^ 64 then
    (gcmOpen Config.kwk ((b.drop 0x10).take 12) (b.take 0x10) ((b.drop 0x1C).take 48)).map (fun k => (k, (b.drop 0x4C).take 8))
  else none

/-- The plaintext of unit `i` of the item `l`. -/
def unitOpen (l : List Nat) (kw : List Nat × List Nat) (i : Nat) (unit : List Nat) : Option (List Nat) :=
  gcmOpen kw.1 (kw.2 ++ leBytes 4 i) (l.take 0x40) unit

/-- The body of a recipe, a program or firmware from HDR_LEN on, in plaintext: with ENC = 1 its single unit ends at KEY_WRAP_OFF and the KEYWRAP block at
SIG_OFF; none when the unwrapping or the tag fails. -/
def itemBody (l : List Nat) (enc : Bool) : Option (List Nat) :=
  let top := fieldAt l 0x70 4; let o := fieldAt l 0x74 4
  if !enc then some ((l.take top).drop 0x80)
  else if o + 96 ≠ top then none
  else (keyUnwrap ((l.drop o).take 96)).bind (fun kw => unitOpen l kw 0 ((l.take o).drop 0x80))

/-- The source of a load (R81, R212, R460): 64-byte aligned, within general DRAM, and as long as the item's header says. -/
def State.sourceOk (s : State) (addr len : Nat) : Bool :=
  addr % 64 == 0 && inDram addr len && s.rdMem (addr + 8) 4 == len

/-- The parts that the headers of images, recipes and programs share (R73, R208, R458): MAGIC, FORMAT, HDR_LEN, the length, ARB_IDX,
SIG_OFF and KEY_WRAP_OFF with ENC = 0; TARGET stands at offset `o`. -/
def headerOk (l : List Nat) (o magic maxLen : Nat) (enc : Bool) : Bool :=
  let len := fieldAt l 8 4
  fieldAt l 0 4 == magic && fieldAt l 4 2 == 1 && fieldAt l 6 2 == 0x80 && decide (0x80 + 96 ≤ len) && decide (len ≤ maxLen) &&
    decide (8 ≤ fieldAt l (o + 6) 1) && decide (fieldAt l (o + 6) 1 ≤ 63) && fieldAt l 0x70 4 == len - 96 &&
    (enc || fieldAt l 0x74 4 == 0)

/-- Steps 2 to 5 of a verification (R81, R212): the code of the first that fails (2 TARGET, 3 DIGEST, 4 SIGNATURE, 5 ROLLBACK), 0 when all
pass; TARGET stands at offset `o` of the header.  DESIGN CHOICE (notes/assumptions/114.md): DIGEST covers the padding between the sections too. -/
def State.itemCheck (s : State) (o : Nat) (l : List Nat) : Nat :=
  if fieldAt l o 4 ≠ 0x7200 ∨ fieldAt l (o + 4) 2 ≠ 0xB1 then 2
  else if sha384 ((l.take (fieldAt l 0x70 4)).drop 0x80) ≠ ofBe ((l.drop 0x40).take 48) then 3
  else if !s.signedBy (fieldAt l (o + 7) 1) l then 4
  else if fieldAt l (o + 8) 4 < s.num (Reg.VLT_ARB (fieldAt l (o + 6) 1)) then 5
  else 0

/-- The 48 bytes of measurement register `r`. -/
def State.measBytes (s : State) (r : Nat) : List Nat := (List.range 12).flatMap (fun w => leBytes 4 (s.num (Reg.VLT_MEAS r w)))

/-- Extends measurement register `r` by a digest of 48 bytes (R521). -/
def State.extendMeas (s : State) (r : Nat) (d : List Nat) : State :=
  let h := beBytes 48 (sha384 (s.measBytes r ++ d))
  (List.range 12).foldl (fun s w => s.setNum (Reg.VLT_MEAS r w) (fieldAt h (4 * w) 4)) s

/-! ## The running image -/

/-- IMAGE_ID of the running image. -/
def State.imageId (s : State) : Nat := s.num64 Reg.IML_ACTIVE_ID_LO Reg.IML_ACTIVE_ID_HI

/-- An item that carries an IMAGE_ID and binds a set of logical crews is compatible with the running image (R89). -/
def State.compat (s : State) (id crews : Nat) : Bool :=
  id == s.imageId || (s.img.parent != 0 && id == s.img.parent && !bit crews s.img.part)

/-- The logical crews of a mask. -/
def crewsOf (mask : Nat) : List Nat := (List.range 8).filter (bit mask)

end Sys2Proof.Machine
end

