-- ==== Sys2Proof/Machine/RceOps.lean ====
section
/-! DEFINITION. The record engine's operations that other blocks use: rows and the ring (R290 to R299), trigger units and the causes
of capture sets (R305 to R312), and requests to the sequencer (R325). -/
namespace Sys2Proof.Machine

/-! ## Recipe slots and their registers -/

def State.slotOf (s : State) (r : Nat) : SeqSlot := Tab.get (fun _ => SeqSlot.init) s.seq.slots r
def State.setSlot (s : State) (r : Nat) (x : SeqSlot) : State := { s with seq := { s.seq with slots := Tab.put s.seq.slots r x } }
def State.rcpState (s : State) (r : Nat) : Nat := s.fld (F.SEQ_R_STATE_STATE r)
def State.rcpCrews (s : State) (r : Nat) : Nat := s.fld (F.SEQ_R_STATE_CREWS r)
/-- A recipe is active in RUNNING, PAUSED, HOLD, ABORTING and RESUME_WAIT (R207). -/
def activeState (v : Nat) : Bool := v == 2 || v == 3 || v == 4 || v == 5 || v == 8
def State.rcpActive (s : State) (r : Nat) : Bool := activeState (s.rcpState r)
/-- The active recipe that binds a logical crew (R207: at most one). -/
def State.rcpOfCrew (s : State) (m : Nat) : Option Nat :=
  (List.range 16).find? (fun r => s.rcpActive r && bit (s.rcpCrews r) m)

/-- A HOLD (1) or ABORT (2) request of an envelope, with cause 3 (R224, R325). -/
def State.seqEnvRequest (s : State) (m action : Nat) : State :=
  match s.rcpOfCrew m with
  | none => s
  | some r =>
    let x := s.slotOf r
    let st := s.rcpState r
    if action = 1 && (st == 2 || st == 3) then s.setSlot r { x with hold := some (x.hold.getD 3) }
    else if action = 2 && (st == 2 || st == 3 || st == 4 || st == 8) then s.setSlot r { x with abort := some (x.abort.getD 3) }
    else s

/-! ## Parts of the record engine -/

def State.setRce (s : State) (r : RecState) : State := { s with rce := r }
def State.recCrew (s : State) (m : Nat) : RecCrew := Tab.get (fun _ => RecCrew.init) s.rce.crews m
def State.setRecCrew (s : State) (m : Nat) (c : RecCrew) : State :=
  { s with rce := { s.rce with crews := Tab.put s.rce.crews m c } }
def State.capOf (s : State) (c : Nat) : Cap := Tab.get (fun _ => Cap.init) s.rce.caps c
def State.setCap (s : State) (c : Nat) (x : Cap) : State := { s with rce := { s.rce with caps := Tab.put s.rce.caps c x } }
def State.trgOf (s : State) (t : Nat) : TrgHist := Tab.get (fun _ => TrgHist.init) s.rce.trg t
def State.setTrg (s : State) (t : Nat) (h : TrgHist) : State := { s with rce := { s.rce with trg := Tab.put s.rce.trg t h } }

/-- TIME of crew `m`'s catch with a CSEQ (R292): its position on a network course, else the time base at its issue; a catch
that was never issued on another course has a time the spec does not give. -/
def State.catchTime (s : State) (m cseq : Nat) : Stamp × State :=
  if s.fld (F.CRS_CFG_SRC (s.fld (F.CT_CFG_CRS m))) = 0 then (Stamp.ofNs (s.cseqPos m cseq), s)
  else
    match (s.recCrew m).catches.find? (fun c => c.1 == cseq) with
    | some c => (c.2, s)
    | none => let (n, s) := s.freshNat; (Stamp.ofUnits n, s)

/-! ## Rows and the ring (R291 to R298) -/

/-- Words as little-endian bytes. -/
def wordBytes (l : List Nat) : List Nat := l.flatMap (leBytes 4)

/-- A row (R291). -/
def rowBytes (kind crew cseq tstate : Nat) (t : Stamp) (es : List (Nat × Nat)) : List Nat :=
  wordBytes ([es.length + tstate * 2 ^ 22 + crew * 2 ^ 24 + kind * 2 ^ 28, cseq, t.w0, t.w1, t.w2, 0]) ++
    wordBytes (es.flatMap (fun e => [e.1, e.2]))

/-- The first byte of a ring slot (R19). -/
def ringAddr (slot : Nat) : Nat := 0x1100000000 + slot * 0x100000

/-- The 48 bytes of a HASH, as SHA-384 writes them. -/
def hashBytes (h : Nat) : List Nat := beBytes 48 h

/-- Whether the open block may close: the HASH of the block before is there and no signature is awaited (R298, R299). -/
def State.blockReady (s : State) (c : Chain) : Bool := s.rce.closed.isEmpty && c.await.isNone

/-- Appends one row to the open block; a row that does not fit, or that comes while a block waits to close, is held in the row
buffer and lets the block close (R298, R299). -/
def State.appendRow (s : State) (row : List Nat × Stamp × Bool) : State :=
  match s.rce.chain with
  | none => s
  | some c =>
    if c.due || decide (0x100000 < 0x100 + c.len + row.1.length) then
      s.setRce { s.rce with chain := some { c with due := true }, buffer := s.rce.buffer ++ [row] }
    else
      let s := s.wrList (ringAddr c.slot + 0x100 + c.len) row.1
      s.setRce { s.rce with chain := some { c with
        len := c.len + row.1.length, nrows := c.nrows + 1, last := row.2.1,
        first := if c.nrows = 0 then row.2.1 else c.first,
        since := if c.nrows = 0 then s.time.cycle else c.since, gap := c.gap || row.2.2 } }

/-- Writes a row of a kind (R291, R293). -/
def State.writeRow (s : State) (kind crew cseq : Nat) (t : Stamp) (es : List (Nat × Nat)) : State :=
  s.appendRow (rowBytes kind crew cseq s.timeState t es, t, kind == 3)

/-- Writes a MODULE row for an occurrence detected now (R295). -/
def State.recModule (s : State) (code word1 : Nat) (more : List (Nat × Nat)) : State :=
  s.writeRow 5 0xF 0 s.now ((code, word1 % 2 ^ 32) :: more)

/-! ## Firing of trigger units and envelope causes (R305 to R312) -/

/-- Gives a cause to an ARMED or TRIGGERED capture set (R311): causes wait for the slot they map to; with PREFILL, firings before PRE
slots are held are ignored. -/
def State.capCause (s : State) (c : Nat) (x : TrgCause) (cseq : Nat) : State :=
  let k := s.capOf c
  let st := s.fld (F.CAP_STATUS_STATE c)
  let early := s.flag (F.CAP_CFG_PREFILL c) && decide (s.fld (F.CAP_PREV_PRE_VALID c) < s.fld (F.CAP_PRE_PRE c))
  if st = 2 || (st == 1 && !(early && (match x with | .unit _ => true | .env _ _ => false)))
  then s.setCap c { k with pend := k.pend ++ [(x, cseq)] } else s

/-- Trigger unit `t` fires (R305). -/
def State.fireTrigger (s : State) (t cseq : Nat) : State :=
  let s := s.setRbit (Reg.RCE_TRG_FIRED (t / 32)) (t % 32) true
  let s := (s.setNum (Reg.TRG_LAST t) cseq).setNum (Reg.TRG_COUNT t) (s.num (Reg.TRG_COUNT t) + 1)
  let s := s.logPerSecond (0x30000 + t) 0x091B (0x9100 + t) cseq
  (List.range 64).foldl (fun s c =>
    if s.flag (F.CAP_CFG_EN c) && s.fld (F.CAP_CFG_CREW c) == t / 16 && bit (s.fld (F.CAP_TRIG_TRIG_MASK c)) (t % 16)
    then s.capCause c (.unit (t % 16)) cseq else s) s

/-- An armed unit in use of a kind (R305). -/
def State.trgArmed (s : State) (t kind : Nat) : Bool :=
  s.flag (F.TRG_CFG_EN t) && s.rbit (Reg.RCE_TRG_ARM (t / 32)) (t % 32) && s.fld (F.TRG_CFG_KIND t) == kind

/-- A RECIPE occurrence (R306): SUB 0 step started, 1 mark written, 2 state entered. -/
def State.fireRecipe (s : State) (r sub value cseq : Nat) : State :=
  (List.range 128).foldl (fun s t =>
    let a := s.num (Reg.TRG_A t)
    let want := if sub = 2 then a % 16 == value else a % 2 ^ 16 == 0xFFFF && sub == 0 || a % 2 ^ 16 == value
    if s.trgArmed t 3 && s.fld (F.TRG_CFG_SUB t) == sub && a / 2 ^ 16 % 16 == r && want
    then s.fireTrigger t cseq else s) s

/-- The last catch of crew `m` issued at or before a time (R307); before the first one, a value the spec does not state. -/
def State.catchAt (s : State) (m : Nat) (t : Stamp) : Nat × State :=
  match (s.recCrew m).catches.find? (fun c => decide (c.2.units ≤ t.units)) with
  | some c => (c.1, s)
  | none => let (n, s) := s.freshNat; (n % 2 ^ 32, s)

/-- A qualified transition of a digital input (R306, R307). -/
def State.fireDin (s : State) (n : Nat) (t : Stamp) (rising : Bool) : State :=
  (List.range 128).foldl (fun s u =>
    let sub := s.fld (F.TRG_CFG_SUB u)
    if s.trgArmed u 4 && s.num (Reg.TRG_A u) % 64 == n && (sub == 2 || sub == (if rising then 0 else 1))
    then let (q, s) := s.catchAt (u / 16) t; s.fireTrigger u q else s) s

/-- A TRIG row (R293). -/
def State.trigRow (s : State) (m cseq hits primary c src entry set : Nat) : State :=
  let (t, s) := s.catchTime m cseq
  s.writeRow 4 m cseq t [(hits + primary * 2 ^ 16 + c * 2 ^ 24 + src * 2 ^ 30, entry + set * 2 ^ 16)]

/-- Envelope entry `i` of crew `m` acts on a violation with a CSEQ (R325, R326, R312). -/
def State.envAct (s : State) (m i : Nat) (e : EnvEntry) (cseq : Nat) : State :=
  let s := if e.ekind = 2 then s.log 0x0921 (0x9000 + e.n1) (e.n2 + i * 2 ^ 16)
           else s.log 0x0920 (0x2000 + e.sig) (i + m * 2 ^ 12 + e.set * 2 ^ 16 + e.action * 2 ^ 22)
  let s := s.setFld F.RCE_STATUS_ENV_VIOL 1
  let s := (s.setFld (F.RCE_ENV_LAST_ENTRY m) i).setFld (F.RCE_ENV_VIOL m) (s.fld (F.RCE_ENV_VIOL m) + 1)
  let s := s.setNum (Reg.RCE_ENV_LAST m) cseq
  let s := s.setRecCrew m { s.recCrew m with acted := i :: (s.recCrew m).acted }
  let s := if e.capEn && s.fld (F.CAP_STATUS_STATE e.cap) == 1 then s.capCause e.cap (.env i e.set) cseq
           else s.trigRow m cseq 0 0xFF (if e.capEn then e.cap else 0) 3 i e.set
  let s := (List.range 16).foldl (fun s u =>
    let a := s.num (Reg.TRG_A (16 * m + u)) % 512
    if s.trgArmed (16 * m + u) 5 && (a == 0x1FF || a == i) then s.fireTrigger (16 * m + u) cseq else s) s
  s.seqEnvRequest m e.action

/-- One test of entry `i` (R325): a violation advances the run count and acts at the NHOLD-th, once per step. -/
def State.envTest (s : State) (m i : Nat) (e : EnvEntry) (cseq : Nat) (viol : Bool) : State :=
  let c := s.recCrew m
  let n := if viol then Tab.get (fun _ => 0) c.runs i + 1 else 0
  let s := s.setRecCrew m { c with runs := Tab.put c.runs i n }
  if viol && decide (e.nhold ≤ n) && !c.acted.contains i then s.envAct m i e cseq else s

end Sys2Proof.Machine
end

