-- ==== Sys2Proof/Machine/Time.lean ====
section
/-! DEFINITION. The time base, the courses, the catch tables, the PPS pins and the digital inputs (chapter 02). -/
namespace Sys2Proof.Machine

/-! ## Time base (R52 to R61) -/

/-- A change of STATE sets STATE_CHG (R57). -/
def State.setTimeState (s : State) (v : Nat) : State :=
  (s.setFld F.CTU_TIME_STATE_STATE v).setFld F.CTU_TIME_STATE_STATE_CHG 1

/-- Restarts the servo watchdog (R59). -/
def State.restartServo (s : State) : State := s.setTime { s.time with servoWd := 0 }

/-- The part of the slew one cycle takes (R54): ±(TIME_INC >> 13), at most what remains. -/
def slewShare (inc : Nat) (slew : Int) : Int :=
  if slew < 0 then -(min (inc / 2 ^ 13 : Nat) slew.natAbs : Int) else (min (inc / 2 ^ 13 : Nat) slew.natAbs : Int)

/-- One fabric cycle of the time base (R52, R54); the servo watchdog counts only in LOCKED (R59). -/
def State.tick (s : State) : State :=
  let inc := s.num Reg.CTU_TIME_INC
  let sh := slewShare inc s.time.slew
  s.setTime { s.time with
    now := s.time.now.move (inc + sh)
    slew := s.time.slew - sh
    cycle := s.time.cycle + 1
    servoWd := if s.timeState = 2 then s.time.servoWd + 1 else s.time.servoWd }

/-- Writes CTU_TIME_INC (R53, R58, R59). -/
def State.writeTimeInc (s : State) (v : Word) : State :=
  if s.timeState = 3 then s
  else if v.toNat < 0x01AA740E then
    (((s.setNum Reg.CTU_TIME_INC 0x01AA740E).setFld F.CTU_TIME_STATE_INC_CLAMP 1).log 0x0213 0 v.toNat).restartServo
  else if 0x01AAE148 < v.toNat then
    (((s.setNum Reg.CTU_TIME_INC 0x01AAE148).setFld F.CTU_TIME_STATE_INC_CLAMP 1).log 0x0213 0 v.toNat).restartServo
  else (s.wr Reg.CTU_TIME_INC v).restartServo

/-- TIME_INC_WRITE (R53). -/
def execTimeIncWrite (v : Word) (s : State) : Host.Outcome State Fault Refusal := .next (s.writeTimeInc v)

/-- Writes CTU_TIME_SLEW (R54, R58, R59). -/
def State.writeSlew (s : State) (v : Word) : State :=
  if s.timeState = 3 then s
  else
    let z := clampInt (-1000000) 1000000 (toSigned 32 v.toNat)
    let s := if z = toSigned 32 v.toNat then s else s.setFld F.CTU_TIME_STATE_SLEW_CLAMP 1
    s.setTime { s.time with slew := z * 2 ^ 24, servoWd := 0 }

/-- TIME_SLEW_WRITE (R54). -/
def execTimeSlewWrite (v : Word) (s : State) : Host.Outcome State Fault Refusal := .next (s.writeSlew v)

/-- Whether catch table `m` is bound to a network course and counts against a step (R55). -/
def State.blocksStep (s : State) (m : Nat) : Bool :=
  s.flag (F.CT_CFG_EN m) && s.fld (F.CRS_CFG_SRC (s.fld (F.CT_CFG_CRS m))) == 0 &&
    s.flag (F.CRS_CFG_EN (s.fld (F.CT_CFG_CRS m))) && (s.flag (F.CT_CTRL_RUN m) || s.flag (F.CT_CTRL_RUNNING m))

/-- The number of network-course tables that refuse a step (R55). -/
def State.stepBlockers (s : State) : Nat := ((List.range 8).filter s.blocksStep).length

/-- The signed 48-bit seconds of CTU_STEP_SEC and CTU_STEP_HI. -/
def State.stepSec (s : State) : Nat := s.num Reg.CTU_STEP_SEC + 2 ^ 32 * s.fld F.CTU_STEP_HI_SEC_HI

/-- Applies a time step (R55): the new time, no remaining slew, event 0x0210 with the signed step, and FREE from UNSET when
the step loads a time. -/
def State.applyStep (s : State) (load : Bool) : State :=
  let old := s.time.now
  let nsec := s.fld F.CTU_STEP_NSEC_NSEC
  let d : Int :=
    if load then ((s.stepSec * 1000000000 + nsec : Nat) : Int) * 2 ^ 24 - old.units
    else (toSigned 48 s.stepSec * 1000000000 + nsec) * 2 ^ 24
  let ns : Int := (if load then ((s.stepSec * 1000000000 + nsec : Nat) : Int) - old.ns else toSigned 48 s.stepSec * 1000000000 + nsec)
  let s := s.setTime { s.time with now := old.move d, slew := 0, servoWd := 0 }
  let s := if load && s.timeState == 0 then s.setTimeState 1 else s
  let d := ofSigned 32 (clampInt (-2147483648) 2147483647 ns)
  (s.log 0x0210 0 d).recModule 6 d []

/-- A write of CTU_STEP_CTRL with GO = 1 (R55, R58). -/
def State.stepGo (s : State) (load : Bool) : State :=
  if s.timeState = 3 then s
  else
    let s := s.setFld F.CTU_STEP_CTRL_MODE (b2n load)
    if 999999999 < s.fld F.CTU_STEP_NSEC_NSEC then
      (s.setFld F.CTU_TIME_STATE_STEP_REFUSED 1).log 0x021B 0 0xFFFFFFFF
    else if 0 < s.stepBlockers then
      (s.setFld F.CTU_TIME_STATE_STEP_REFUSED 1).log 0x021B 0 s.stepBlockers
    else s.applyStep load

/-- TIME_STEP_GO (R55); `load` is MODE of the write. -/
def execTimeStepGo (load : Bool) (s : State) : Host.Outcome State Fault Refusal := .next (s.stepGo load)

/-- A write of STATE in CTU_TIME_STATE (R57). -/
def State.writeTimeState (s : State) (v : Nat) : State :=
  let cancel (s : State) : State := s.setTime { s.time with slew := 0 }
  match s.timeState, v with
  | 1, 2 => (s.setTimeState 2).restartServo
  | 3, 2 => (((s.setTimeState 2).restartServo).log 0x0212 0 2).recModule 5 2 []
  | 2, 1 => s.setTimeState 1
  | 2, 2 => s.restartServo
  | 2, 3 => ((cancel (s.setTimeState 3)).log 0x0211 0 1).recModule 4 1 []
  | 3, 1 => ((s.setTimeState 1).log 0x0212 0 1).recModule 5 1 []
  | _, _ => s

/-- TIME_STATE_WRITE (R57). -/
def execTimeStateWrite (v : BitVec 2) (s : State) : Host.Outcome State Fault Refusal := .next (s.writeTimeState v.toNat)

/-- SERVO_WD_EXPIRE (R57, R59): in LOCKED with the watchdog enabled. -/
def execServoWdExpire (s : State) : Host.Outcome State Fault Refusal :=
  let t := s.fld F.CTU_SERVO_WD_TIMEOUT_MS
  if s.timeState = 2 ∧ t ≠ 0 ∧ 600000 * t ≤ s.time.servoWd then
    let s := (s.setTimeState 3).setFld F.CTU_TIME_STATE_WD_EXP 1
    let s := s.setTime { s.time with slew := 0, servoWd := 0 }
    .next ((s.log 0x0211 0 2).recModule 4 2 [])
  else .next s

/-- Latches the time base into three registers in the layout of R52. -/
def State.latchStamp (s : State) (t : Stamp) (a0 a1 a2 : Nat) : State :=
  ((s.setNum a0 t.w0).setNum a1 t.w1).setNum a2 t.w2

/-- TIME_SNAPSHOT (R52): a write of 1 to CTU_SNAP. -/
def execTimeSnapshot (s : State) : Host.Outcome State Fault Refusal :=
  .next (s.latchStamp s.now Reg.CTU_SNAP_SEC Reg.CTU_SNAP_NSEC Reg.CTU_SNAP_HI)

/-- Milliseconds since power-on, of the AON domain (R61). -/
def State.elapsed (s : State) : Nat := s.num64 Reg.RPC_ELAPSED_LO Reg.RPC_ELAPSED_HI
def State.setElapsed (s : State) (ms : Nat) : State := s.setNum64 Reg.RPC_ELAPSED_LO Reg.RPC_ELAPSED_HI (ms % 2 ^ 64)

/-- The AON domain keeps the time base with its elapsed count (R61). -/
def State.aonKeep (s : State) : State := s.setTime { s.time with aonSnap := s.time.now, aonMs := s.elapsed }

/-- AON_TIME_SNAPSHOT (R61): a millisecond has passed, and the AON domain keeps the time base. -/
def execAonTimeSnapshot (s : State) : Host.Outcome State Fault Refusal := .next (s.setElapsed (s.elapsed + 1)).aonKeep

/-! ## PPS pins (R62, R63) -/

/-- PPS_OUT_RISE (R62): network time reaches a whole second plus the offset. -/
def execPpsOutRise (s : State) : Host.Outcome State Fault Refusal :=
  if s.flag F.CTU_PPS_OUT_CTRL_OUT_EN && (!s.flag F.CTU_PPS_OUT_CTRL_LOCK_ONLY || s.timeState == 2) then
    .next (s.setTime { s.time with ppsOut := true })
  else .next s

/-- PPS_OUT_FALL (R62): WIDTH_US after the rise. -/
def execPpsOutFall (s : State) : Host.Outcome State Fault Refusal :=
  .next (s.setTime { s.time with ppsOut := false })

/-- PPS_IN_EDGE (R63): the capture is corrected by the input delay of 9.0 ns (R571). -/
def execPpsInEdge (rising : Bool) (s : State) : Host.Outcome State Fault Refusal :=
  if s.flag F.CTU_PPS_IN_CTRL_IN_EN && rising == (s.fld F.CTU_PPS_IN_CTRL_EDGE == 0) then
    if s.flag F.CTU_PPS_IN_CTRL_CAP_VALID then
      .next ((s.setFld F.CTU_PPS_IN_CTRL_OVR 1).log 0x021A 0 0)
    else
      .next ((s.latchStamp (s.now.move (-(9 * 2 ^ 24))) Reg.CTU_PPS_CAP_SEC Reg.CTU_PPS_CAP_NSEC Reg.CTU_PPS_CAP_HI).setFld
        F.CTU_PPS_IN_CTRL_CAP_VALID 1)
  else .next s

/-- PPS_CAPTURE_READ (R63): a read of CTU_PPS_CAP_HI releases the capture. -/
def execPpsCaptureRead (s : State) : Host.Outcome State Fault Refusal :=
  .next ((s.setFld F.CTU_PPS_IN_CTRL_CAP_VALID 0).setBus ⟨false, s.num Reg.CTU_PPS_CAP_HI⟩)

/-! ## Digital inputs (R64 to R66) -/

/-- The qualified or raw level of DIN_n. -/
def State.dinLevel (s : State) (n : Nat) : Bool := s.rbit (Reg.DIO_STATE (n / 32)) (n % 32)
def State.dinRaw (s : State) (n : Nat) : Bool := s.rbit (Reg.DIO_RAW (n / 32)) (n % 32)

/-- A list with its last element changed. -/
def mapLast {α : Type} (f : α → α) : List α → List α
  | [] => []
  | [x] => [f x]
  | x :: y :: l => x :: mapLast f (y :: l)

/-- Enters a qualified transition into the FIFO of DIN_n, if EDGES selects it (R66). -/
def State.dinPush (s : State) (n : Nat) (t : Stamp) (rising : Bool) : State :=
  let d := s.dinOf n
  if bit (s.fld (F.DIO_FILT_EDGES n)) (if rising then 0 else 1) then
    if d.fifo.length < 8 then s.setDin n { d with fifo := d.fifo ++ [⟨t, rising, false⟩] }
    else
      ((s.setDin n { d with fifo := mapLast (fun e => { e with ovf := true }) d.fifo }).setRbit
        (Reg.DIO_OVF (n / 32)) (n % 32) true).log 0x0218 (0x20C8 + n / 16) n
  else s

/-- The qualified level of DIN_n changes to the raw level (R64, R65). -/
def State.dinQualify (s : State) (n : Nat) : State :=
  let lvl := s.dinRaw n
  let d := s.dinOf n
  if lvl == s.dinLevel n then s.setDin n { d with cand := none }
  else
    let t := match d.cand with | some t => t | none => s.now.move (-(1500 * 2 ^ 24))
    (((s.setDin n { d with cand := none }).setRbit (Reg.DIO_STATE (n / 32)) (n % 32) lvl).dinPush n t lvl).fireDin n t lvl

/-- Word 3 of an edge-FIFO entry. -/
def DinEntry.word3 (e : DinEntry) : Nat := b2n e.ovf * 4 + b2n e.rising * 2 + 1

/-- DIN_FIFO_POP (R66): a read of word 3 of DIO_FIFO_n. -/
def execDinFifoPop (n : Fin 64) (s : State) : Host.Outcome State Fault Refusal :=
  match (s.dinOf n).fifo with
  | [] => .next (s.setBus ⟨false, 0⟩)
  | e :: l => .next ((s.setDin n { s.dinOf n with fifo := l }).setBus ⟨false, e.word3⟩)

/-! ## Courses (R40 to R45) -/

/-- Changes the state of a course generator (R42): CHANGED, and LOSSES on an entry to HOLDOVER. -/
def State.setCourseState (s : State) (c v : Nat) : State :=
  if s.fld (F.CRS_STATUS_STATE c) = v then s
  else
    let s := (s.setFld (F.CRS_STATUS_STATE c) v).setFld (F.CRS_STATUS_CHANGED c) 1
    if v = 3 then (s.countFld (F.CRS_STATUS_LOSSES c) 1).log 0x0215 0 c else s

/-- The generators of an applied image start (R40, R42): a mains course acquires, every other one tracks from the next fabric cycle on; one no longer
enabled is OFF. -/
def State.coursesOn (s : State) : State :=
  (List.range 4).foldl (fun s c =>
    match s.flag (F.CRS_CFG_EN c), s.fld (F.CRS_STATUS_STATE c) with
    | true, 0 =>
      let s := (s.setCourse c Course.init).setCourseState c (if s.fld (F.CRS_CFG_SRC c) = 1 then 1 else 2)
      if s.courseSrc c 2 && s.encFaulty (s.fld (F.CRS_CFG_ENC c)) then s.setCourseState c 3 else s
    | false, _ => s.setCourseState c 0
    | true, _ => s) s

/-- The raw count of an encoder, sign-extended to 64 bits (R45). -/
def State.encPos (s : State) (c : Nat) : Nat :=
  let n := s.fld (F.CRS_CFG_ENC c)
  let z := toSigned 48 (s.num (Reg.ENC_ACC_LO n) + 2 ^ 32 * s.fld (F.ENC_ACC_HI_ACC n))
  ofSigned 64 (if s.flag (F.CRS_CFG_DIR c) then -z else z)

/-- One fabric cycle of a mains position (R40, R41, R44), in mains units of 2^-32 cycle with the remainder over 600 000 000 × 1 000 × 1 000 000.
`pull` millionths of the frequency, at most 2 %, remove the phase error: how fast the loop filter of bandwidth BW does it is a free value. -/
def mainsAdvance (c : Course) (freqMhz : Nat) (pull : Int) : Course :=
  let base : Int := (2 ^ 32 * freqMhz : Nat)
  let most : Int := base * clampInt 0 20000 pull
  let d : Int := if 0 < c.err then -(min most c.err) else min most (-c.err)
  let z : Int := base * 1000000 + d + (c.sub : Nat)
  { c with pos := (c.pos + (z / 600000000000000000).toNat) % 2 ^ 64, sub := (z % 600000000000000000).toNat, err := c.err + d }

/-- The phase error a crossing shows (R43, R44): phase 0 is at the crossing, so the course is ahead by its phase, at most half a cycle. -/
def Course.phaseErr (c : Course) : Int := toSigned 32 (c.pos % 2 ^ 32) * 600000000000000000 + (c.sub : Nat)

/-- One fabric cycle of one course generator (R41). -/
def State.courseStep (s : State) (c : Nat) : State :=
  let g := s.courseOf c
  match s.flag (F.CRS_CFG_EN c), s.fld (F.CRS_CFG_SRC c), s.fld (F.CRS_STATUS_STATE c) with
  | true, 0, _ => s.setCourse c { g with pos := s.now.ns % 2 ^ 64 }
  | true, 1, 2 =>
    let (p, s) := s.freshInt
    s.setCourse c (mainsAdvance g (s.fld (F.CRS_FREQ_FREQ_MHZ c)) p)
  | true, 1, 3 => s.setCourse c (mainsAdvance g (s.fld (F.CRS_FREQ_FREQ_MHZ c)) 0)
  | true, 2, 2 => s.setCourse c { g with pos := s.encPos c }
  | true, 3, _ =>
    let n := g.sub + 0x01AAAAAB
    s.setCourse c { g with pos := (g.pos + n / 2 ^ 24) % 2 ^ 64, sub := n % 2 ^ 24 }
  | _, _, _ => s

/-- Raises the high-water mark of a table in use to its course's position (R48); a standing table's mark is what its axes advance by (R245). -/
def State.raiseHigh (s : State) (m : Nat) : State :=
  let t := s.tabOf m
  if s.flag (F.CT_CFG_EN m) && decide (0 < posDiff (s.tabCourse m) t.high) then s.setTab m { t with high := s.tabCourse m } else s

/-- COURSE_UPDATE (R41, R48): one fabric cycle of all four generators and the high-water marks of the running tables. -/
def execCourseUpdate (s : State) : Host.Outcome State Fault Refusal :=
  let s := (List.range 4).foldl State.courseStep s
  .next ((List.range 8).foldl State.raiseHigh s)

/-- One mains crossing at a mains course (R43, R44): `period` in fabric cycles since the crossing before, `peakMv` the cycle's
peak. -/
def State.mainsAt (s : State) (period peakMv c : Nat) : State :=
  if !s.courseSrc c 1 then s
  else
    let g := s.courseOf c
    -- a valid cycle lasts 1/70 s to 1/40 s and peaks at 8 V or more
    if 600000000 ≤ 70 * period ∧ 40 * period ≤ 600000000 ∧ 8000 ≤ peakMv then
      let g := { g with valid := g.valid + 1, cross := s.time.cycle }
      let freq := 600000000000 / period
      match s.fld (F.CRS_STATUS_STATE c) with
      | 1 =>
        if 8 ≤ g.valid then
          ((s.setCourse c { g with period := period, pos := 0, sub := 0, err := 0 }).setFld (F.CRS_FREQ_FREQ_MHZ c) freq).setCourseState c 2
        else s.setCourse c g
      | 2 => (s.setCourse c { g with period := period, err := g.phaseErr }).setFld (F.CRS_FREQ_FREQ_MHZ c) freq
      | 3 =>
        if 8 ≤ g.valid then
          (((s.setCourse c { g with period := period, err := g.phaseErr }).setFld (F.CRS_FREQ_FREQ_MHZ c) freq).setCourseState c 2).log 0x0216 0 c
        else s.setCourse c g
      | _ => s
    else s.setCourse c { g with valid := 0 }

/-- MAINS_CROSSING (R43): every enabled mains course judges the crossing. -/
def execMainsCrossing (period peakMv : Nat) (s : State) : Host.Outcome State Fault Refusal :=
  .next ((List.range 4).foldl (fun s c => s.mainsAt period peakMv c) s)

/-- MAINS_HOLDOVER_TIMEOUT (R43): no valid crossing within 1.5 times the last locked period. -/
def execMainsHoldoverTimeout (c : Fin 4) (s : State) : Host.Outcome State Fault Refusal :=
  let g := s.courseOf c
  if s.courseSrc c 1 && s.fld (F.CRS_STATUS_STATE c) == 2 && decide (3 * g.period ≤ 2 * (s.time.cycle - g.cross)) then
    .next ((s.setCourse c { g with valid := 0, err := 0 }).setCourseState c 3)
  else .next s

/-! ## Catch tables (R46 to R51) -/

/-- The ordinal, stroke × NENT + entry, of the last entry position at or before a course position relative to ORIGIN (R47). -/
def State.ordinalAt (s : State) (m : Nat) (rel : Int) : Int :=
  let w := rel % (s.ctPeriod m : Int)
  let e := ((List.range (s.ctNent m)).filter (fun e => decide ((s.ctOffset m e : Int) ≤ w))).length - 1
  rel / (s.ctPeriod m : Int) * s.ctNent m + e

/-- The entry index of an ordinal. -/
def State.ordinalEntry (s : State) (m : Nat) (o : Int) : Nat := (o % (s.ctNent m : Int)).toNat

/-- The course position of an ordinal (R47). -/
def State.ordinalPos (s : State) (m : Nat) (o : Int) : Nat :=
  ofSigned 64 ((s.ctOrigin m : Int) + o / (s.ctNent m : Int) * s.ctPeriod m + s.ctOffset m (s.ordinalEntry m o))

/-- CSEQ of an ordinal (R47). -/
def State.ordinalCseq (s : State) (m : Nat) (o : Int) : Nat := ofSigned 26 (o / (s.ctNent m : Int)) * 64 + s.ordinalEntry m o

/-- The cox of a starting table's crew has seen no catch of the run (R99). -/
def State.forgetCatch (s : State) (m : Nat) : State :=
  match s.physOf m with
  | some n => s.setCox n { s.coxOf n with lastCatch := none }
  | none => s

/-- Starts a table (R50): RUN = 1 with the course's present position as mark; it cancels a stop under way. -/
def State.ctStart (s : State) (m : Nat) : State :=
  if !s.flag (F.CT_CFG_EN m) || !s.holdsToken then s
  else
    let s := s.setFld (F.CT_CTRL_RUN m) 1
    let t := s.tabOf m
    match t.phase with
    | .stopped =>
      (s.setTab m { t with phase := .waiting, issued := s.tabCourse m, high := s.tabCourse m, stopAt := none }).forgetCatch m
    | _ => s.setTab m { t with stopAt := none }

/-- Lets a table stop after the current stroke (R50); a table that has not started, or whose stroke has no entry left, stops now. -/
def State.ctStop (s : State) (m : Nat) : State :=
  if !s.flag (F.CT_CFG_EN m) then s
  else
    let s := s.setFld (F.CT_CTRL_RUN m) 0
    let t := s.tabOf m
    match t.phase with
    | .stopped => s
    | .waiting => s.setTab m { t with phase := .stopped }
    | .running =>
      let o := s.ordinalAt m (s.relPos m t.issued)
      let last := (o / s.ctNent m + 1) * s.ctNent m - 1
      if o = last then (s.setTab m { t with phase := .stopped, stopAt := none }).setFld (F.CT_CTRL_RUNNING m) 0
      else s.setTab m { t with stopAt := some last }

/-- CT_RUN_WRITE (R50). -/
def execCtRunWrite (m : Fin 8) (run : Bool) (s : State) : Host.Outcome State Fault Refusal :=
  .next (if run then s.ctStart m else s.ctStop m)

/-- CT_GROUP_GO (R50): RUN = 1 to every table of the mask in one cycle. -/
def execCtGroupGo (mask : BitVec 8) (s : State) : Host.Outcome State Fault Refusal :=
  .next ((List.range 8).foldl (fun s m => if bit mask.toNat m then s.ctStart m else s) s)

/-- Issues the catch of ordinal `o`, having passed over `skipped` positions (R47, R49). -/
def State.issueCatch (s : State) (m : Nat) (o : Int) (skipped : Nat) : State :=
  let phys := (s.physOf m).getD 15
  let cseq := s.ordinalCseq m o
  let s := s.setInflight (s.inflight ++ [Catch.mk m phys (s.ordinalPos m o) cseq s.now])
  let s := (s.setNum (Reg.CT_LAST_CSEQ m) cseq).convCatch m (s.ordinalPos m o) cseq
  if skipped = 0 then s
  else
    ((s.count (Reg.CT_SKIP m) skipped).setRbit Reg.CTU_SKIPPED m true).log 0x0214 (0x1000 + phys)
      (m * 2 ^ 24 + min skipped (2 ^ 24 - 1))

/-- CATCH_ISSUE (R48 to R50): the last position passed since the last issue gives the catch. -/
def execCatchIssue (m : Fin 8) (s : State) : Host.Outcome State Fault Refusal :=
  let t := s.tabOf m
  if t.phase = .stopped ∨ s.ctNent m = 0 ∨ s.ctPeriod m = 0 ∨ posDiff t.high t.issued ≤ 0 then .next s
  else
    let rel := s.relPos m t.issued
    let oi := s.ordinalAt m rel
    let oh := s.ordinalAt m (rel + posDiff t.high t.issued)
    let last := match t.stopAt with | some l => min l oh | none => oh
    let first := match t.phase with
      | .waiting => (oi / s.ctNent m + 1) * s.ctNent m
      | _ => oi + 1
    if last < first then
      .next (s.setTab m { t with issued := if t.phase = .waiting then t.issued else t.high })
    else
      let stop := match t.stopAt with | some l => decide (l ≤ oh) | none => false
      let s := s.issueCatch m last (last - first).toNat
      let s := s.setTab m { t with phase := if stop then .stopped else .running, issued := t.high,
                                   stopAt := if stop then none else t.stopAt, catches := t.catches + 1 }
      .next (s.setFld (F.CT_CTRL_RUNNING m) (b2n (!stop)))

end Sys2Proof.Machine
end

