-- ==== Sys2Proof/Machine/Motion.lean ====
section
/-! DEFINITION. The axes: commands, axis tasks, step stages, gearing, homing and stall detection (chapter 09).  `a` is the axis
(0 to 31), `n` the physical crew its logical crew runs on and `j` its lane. -/
namespace Sys2Proof.Machine

def State.axisOf (s : State) (a : Nat) : Axis := Tab.get (fun _ => Axis.init) s.axes a
def State.setAxis (s : State) (a : Nat) (x : Axis) : State := { s with axes := Tab.put s.axes a x }
/-- The physical crew whose window holds the registers of axis `a` (R241). -/
def State.axCrew (s : State) (a : Nat) : Option Nat := s.physOf (a / 4)
def State.axState (s : State) (n a : Nat) : Nat := s.fld (F.AX_STATE_STATE n (a % 4))
def State.setAxState (s : State) (n a v : Nat) : State := s.setFld (F.AX_STATE_STATE n (a % 4)) v

/-- The course position an axis advances by: the high-water mark of its crew's table (R245), which a standing table keeps raising. -/
def State.axCourse (s : State) (a : Nat) : Nat := (s.tabOf (a / 4)).high

def State.encOf (s : State) (g : Nat) : Enc := Tab.get (fun _ => Enc.init) s.encs g
def State.setEnc (s : State) (g : Nat) (e : Enc) : State := { s with encs := Tab.put s.encs g e }

/-- ENC_n_VEL (R266): counts per second over the last 100 µs, which are 60 000 fabric cycles. -/
def State.encVel (s : State) (g : Nat) : Rat :=
  (((s.encOf g).edges.filter (fun e => decide (s.time.cycle < e.1 + 60000))).foldl (fun z e => z + e.2) 0 * 10000 : Int)

/-- A bit of MOT_STATUS: 0 EVT, 1 FAULT, 2 HOME, 3 STOPPED. -/
def State.motStatus (s : State) (n a b : Nat) : State := s.setRbit (Reg.MOT_STATUS n) (4 * (a % 4) + b) true

/-- An event of an axis (R285). -/
def State.axLog (s : State) (a code detail : Nat) : State := s.log code (0x5000 + a) detail

/-- A refused command (R280): 1 ENABLE to 10 READMIT. -/
def State.axRefuse (s : State) (n a code cmd : Nat) : State :=
  (s.setFld (F.AX_STATE_REFUSE n (a % 4)) code).axLog a 0x081C (code + cmd * 256)

/-- A 64-bit parameter of two registers, signed. -/
def State.num64s (s : State) (lo hi : Nat) : Int := toSigned 64 (s.num64 lo hi)

/-- Course units per second of an axis's course (R40): nanoseconds, mains position units, or master counts. -/
def State.unitsPerSec (s : State) (a : Nat) : Rat :=
  let c := s.fld (F.CT_CFG_CRS (a / 4))
  match s.fld (F.CRS_CFG_SRC c) with
  | 1 => (s.fld (F.CRS_FREQ_FREQ_MHZ c) * 2 ^ 32 : Nat) / 1000
  | 2 => rabs (s.encVel (s.fld (F.CRS_CFG_ENC c)))
  | _ => 1000000000

/-! ## Limits, inputs and descriptors -/

/-- Whether an axis input (AX_INPUTS) is configured, and whether it is active at its qualified level. -/
def State.axInput (s : State) (n a : Nat) (f : Fld) (lvl : Nat) : Option Bool :=
  let v := s.fld f
  if bit v 7 then some (s.dinLevel (v % 64) == bit (s.fld (F.AX_INPUTS_LEVELS n (a % 4))) lvl) else none
/-- The home input (level bit 2), the positive (1) and the negative (0) limit. -/
def State.homeIn (s : State) (n a : Nat) : Option Bool := s.axInput n a (F.AX_INPUTS_HOME n (a % 4)) 2
def State.limPos (s : State) (n a : Nat) : Option Bool := s.axInput n a (F.AX_INPUTS_LIM_POS n (a % 4)) 1
def State.limNeg (s : State) (n a : Nat) : Option Bool := s.axInput n a (F.AX_INPUTS_LIM_NEG n (a % 4)) 0

/-- Soft limits in force (R260). -/
def State.softOn (s : State) (n a : Nat) : Bool := s.flag (F.AX_CFG_SLIM_EN n (a % 4)) && (s.axisOf a).referenced
def State.slimLo (s : State) (n a : Nat) : Rat := (s.num64s (Reg.AX_SLIM_LO_LO n (a % 4)) (Reg.AX_SLIM_LO_HI n (a % 4)) : Rat)
def State.slimHi (s : State) (n a : Nat) : Rat := (s.num64s (Reg.AX_SLIM_HI_LO n (a % 4)) (Reg.AX_SLIM_HI_HI n (a % 4)) : Rat)

def State.aStop (s : State) (n a : Nat) : Rat := f32R (s.rd (Reg.AX_A_STOP n (a % 4)))
def State.aLim (s : State) (n a : Nat) : Rat := f32R (s.rd (Reg.AX_A_LIM n (a % 4)))
def State.jStop (s : State) (n a : Nat) : Rat := f32R (s.rd (Reg.AX_J_STOP n (a % 4)))
def State.homeA (s : State) (n a : Nat) : Rat := f32R (s.rd (Reg.AX_HOME_A n (a % 4)))
def State.homeVel (s : State) (n a : Nat) : Rat := f32R (s.rd (Reg.AX_HOME_VEL n (a % 4)))

def State.mtReady (s : State) (n k : Nat) : Bool := s.flag (F.MT_CTRL_READY n k)
def State.mtBusy (s : State) (n k : Nat) : Bool := s.flag (F.MT_CTRL_BUSY n k)
/-- The address of a move table (R250). -/
def State.mtAddr (s : State) (n k : Nat) : Nat := s.fld (F.MT_ADDR_LO_ADDR n k) * 32 + s.fld (F.MT_ADDR_HI_ADDR n k) * 2 ^ 32
/-- BLEND of the first segment of table `k`. -/
def State.mtBlend (s : State) (n k : Nat) : Bool := bit (s.rdWord (s.mtAddr n k + 4)).toNat 16

/-- Table `k` is no longer in play (R250), unless another axis of the crew plays it. -/
def State.freeTable (s : State) (n a k : Nat) : State :=
  if (List.range 4).any (fun j => decide (j ≠ a % 4) &&
      ((s.axisOf (a / 4 * 4 + j)).table == some k || (s.axisOf (a / 4 * 4 + j)).old == some k)) then s
  else s.setFld (F.MT_CTRL_BUSY n k) 0

/-- The tables of an axis are no longer in play, and a takeover that waits is dropped. -/
def State.releaseTable (s : State) (n a : Nat) : State :=
  let x := s.axisOf a
  let s := s.setAxis a { x with table := none, old := none, take := false, nextSegs := [] }
  (x.table.toList ++ x.old.toList).foldl (fun s k => s.freeTable n a k) s

/-- HELD of AX_QUEUE: the segments the stage holds. -/
def State.syncHeld (s : State) (n a : Nat) : State :=
  s.setFld (F.AX_QUEUE_HELD n (a % 4)) (min 4 ((s.axisOf a).segs.length + (s.axisOf a).nextSegs.length))
def State.axCount (s : State) (n a : Nat) : Nat := s.fld (F.AX_QUEUE_COUNT n (a % 4))

/-! ## Faults, halts and stops (R258 to R262, R279) -/

/-- The position is lost, with its reason (R285). -/
def State.axLost (s : State) (n a reason : Nat) : State :=
  ((s.setFld (F.AX_STATE_LOST n (a % 4)) 1).setAxis a { s.axisOf a with referenced := false }).axLog a 0x081B reason

/-- Homing ends without a reference (R277): 0x0817 with its code. -/
def State.homeFail (s : State) (n a code : Nat) : State :=
  match (s.axisOf a).home with
  | none => s
  | some h =>
    ((s.setAxis a { s.axisOf a with home := none, referenced := false }).motStatus n a 2).axLog a 0x0817 (code + h.mode * 256)

/-- Enters FAULT with a code (R279, R280). -/
def State.axFault (s : State) (n a code : Nat) : State :=
  ((s.setAxState n a 7).setFld (F.AX_STATE_FAULT n (a % 4)) code).motStatus n a 1

/-- A halt (R258): motion ends at once; `lose` when the position is lost whatever the speed. -/
def State.axHalt (s : State) (n a : Nat) (lose : Bool) (reason : Nat) : State :=
  let x := s.axisOf a
  let fast := decide (f32R (s.rd (Reg.AX_V_SS n (a % 4))) < rabs (fixR x.cvel))
  let s := s.releaseTable n a
  let x := s.axisOf a
  let s := s.setAxis a { x with cvel := 0, cpos := (x.s + x.ofs) * 4294967296, segs := [], origin := none, stop := none,
                                gear := none, rtTable := none, rest := false, disable := false, fault := 0,
                                haltFast := x.haltFast || fast }
  let s := (s.syncHeld n a).setFld (F.AX_STATE_RT_PEND n (a % 4)) 0
  let s := (s.setFld (F.AX_QUEUE_COUNT n (a % 4)) 0).setFld (F.AX_GEAR_CFG_PEND n (a % 4)) 0
  if fast || lose then s.axLost n a reason else s

/-- A halt into FAULT (R279). -/
def State.axHaltFault (s : State) (n a code : Nat) (lose : Bool) (reason : Nat) : State :=
  if (s.axisOf a).home.isSome then
    (((s.axHalt n a lose reason).homeFail n a (if code = 5 then 4 else 5)).axFault n a 10)
  else (s.axHalt n a lose reason).axFault n a code

/-- The deceleration of a stop at A_STOP after the check of R260: the value, LIMIT_DECEL, limit crossed, and upper limit. -/
def State.softStop (s : State) (n a : Nat) : Rat × Bool × Bool × Bool :=
  let x := s.axisOf a
  let v := rabs (fixR x.cvel)
  let j := s.jStop n a
  let up := decide (0 < x.cvel)
  let dist := if up then s.slimHi n a - fixR x.cpos else fixR x.cpos - s.slimLo n a
  if !s.softOn n a || x.cvel = 0 || decide (stopDist v (s.aStop n a) j ≤ dist) then (s.aStop n a, false, false, up)
  else if j ≠ 0 then (s.aLim n a, true, false, up)
  else if dist ≤ 0 ∨ s.aLim n a < v * v / (2 * dist) then (s.aLim n a, true, true, up)
  else (max (s.aStop n a) (v * v / (2 * dist)), true, false, up)

/-- Starts a stop ramp from the present state at deceleration `acc` (R258): STOP_POS is known. -/
def State.ramp (s : State) (n a : Nat) (acc : Rat) : State :=
  let x := s.axisOf a
  let v := rabs (fixR x.cvel)
  let j := s.jStop n a
  let d := stopDist v acc j
  s.setAxis a { x with
    stop := some ⟨s.axCourse a, x.cpos, x.cvel, acc, j, d, stopDur v acc j⟩
    stopPos := toFix (fixR x.cpos + (isign x.cvel : Rat) * d)
    segs := [], origin := none, gear := none, rest := false }

/-- Begins a stop into STOPPING (R258, R260): at A_LIM when `hard`, otherwise at A_STOP with the soft-limit check; `fault` is
pending unless an earlier one is. -/
def State.beginStop (s : State) (n a : Nat) (hard : Bool) (fault : Nat) : State :=
  let (acc, decel, cross, up) := s.softStop n a
  let s := s.releaseTable n a
  let s := if hard then s.ramp n a (s.aLim n a) else s.ramp n a acc
  let x := s.axisOf a
  let s := s.setAxis a { x with fault := if x.fault = 0 then fault else x.fault }
  let s := ((s.setAxState n a 4).syncHeld n a).setFld (F.AX_QUEUE_COUNT n (a % 4)) 0
  let s := s.setFld (F.AX_GEAR_CFG_PEND n (a % 4)) 0
  if decel && !hard then
    (s.setFld (F.AX_STATE_LIMIT_DECEL n (a % 4)) 1).axLog a 0x0813 (b2n up + 2 + b2n cross * 4)
  else s

/-- States in which an axis moves under R279. -/
def axMoving (st : Nat) : Bool := st == 2 || st == 3 || st == 5

/-! ## Move tables (R250 to R252) -/

/-- The crew DMA channel the MOTION section assigns to an axis (R252, R479). -/
def State.feedChan (s : State) (n a : Nat) : Option Nat :=
  (List.range 8).find? (fun ch =>
    s.flag (F.CDM_CH_CFG_EN n ch) && s.fld (F.CDM_CH_CFG_OWNER n ch) == 2 && s.fld (F.CDM_CH_CFG_AXIS n ch) == a % 4)

/-- A feed transfer of the table that leaves the queue ends without effect (R252). -/
def State.feedDrop (s : State) (n a : Nat) : State :=
  match s.feedChan n a with
  | some ch => if s.cdmState n ch = 1 then s.setCdmState n ch 0 else s
  | none => s

/-- Table `k` is in play: BUSY, and the queue is empty. -/
def State.enterTable (s : State) (n a k : Nat) : State :=
  let s := s.setAxis a { s.axisOf a with
    table := some k, nseg := s.fld (F.MT_NSEG_NSEG n k), fetched := 0, checked := 0, rdIdx := 0, rtTable := none }
  let s := ((s.setFld (F.MT_CTRL_BUSY n k) 1).setFld (F.MT_CTRL_AXIS n k) (a % 4)).setFld (F.AX_QUEUE_COUNT n (a % 4)) 0
  ((s.setFld (F.AX_STATE_RT_PEND n (a % 4)) 0).syncHeld n a).setAxState n a 2

/-- AX_MOVE shows table `k` from its first segment on. -/
def State.showTable (s : State) (n a k : Nat) : State :=
  (s.setFld (F.AX_MOVE_TABLE n (a % 4)) k).setFld (F.AX_MOVE_SEG n (a % 4)) 0

/-- Puts table `k` into play from rest; `origin` is the course position its first segment starts at, where it is known. -/
def State.playTable (s : State) (n a k : Nat) (origin : Option Nat) : State :=
  let s := (s.feedDrop n a).releaseTable n a
  let x := s.axisOf a
  let s := s.setAxis a { x with chkP := x.cpos, chkV := 0, origin := origin, segs := [], p0 := x.cpos, v0 := 0, stop := none, rest := false }
  (s.enterTable n a k).showTable n a k

/-- Table `k` is to take over from a moving, waiting or geared axis at the next stroke start (R248, R251, R279): until then the axis plays on what its
stage holds or follows its master; a waiting segment is dropped. -/
def State.takeTable (s : State) (n a k : Nat) : State :=
  let waiting := decide (s.axState n a = 3)
  let x := s.axisOf a
  let s := (s.feedDrop n a).setAxis a { x with table := none, old := if x.take then x.old else x.table, nextSegs := [] }
  let s := match x.take, x.table with | true, some t => s.freeTable n a t | _, _ => s
  let x := s.axisOf a
  (s.setAxis a { x with take := true, segs := if waiting then [] else x.segs, origin := if waiting then none else x.origin }).enterTable n a k

/-- Why a MOVE is refused (R251, R259, R279), 0 when it is not. -/
def State.moveRefusal (s : State) (n a k : Nat) : Nat :=
  let st := s.axState n a
  let bad := !s.mtReady n k || s.mtBusy n k
  if !s.flag (F.AX_CFG_EN n (a % 4)) then 1
  else if st = 1 then (if bad then 2 else 0)
  else if axMoving st then (if (s.mtBlend n k && bad) || s.mtBusy n k then 2 else 0)
  else if st = 4 then
    (if (s.axisOf a).fault ≠ 0 || (s.axisOf a).disable then 1 else if s.mtBusy n k then 2 else 0)
  else 1

/-- MOVE of table `k` (R251, R259); `origin` is the course position an AXIS_MOVE starts at. -/
def State.axMove (s : State) (n a k : Nat) (origin : Option Nat) : State :=
  let st := s.axState n a
  let code := s.moveRefusal n a k
  if code ≠ 0 then s.axRefuse n a code 3
  else if st = 1 then s.playTable n a k origin
  else if axMoving st && s.mtBlend n k then s.takeTable n a k
  else
    let s := if st = 4 then s else s.beginStop n a false 0
    (s.setAxis a { s.axisOf a with rtTable := some k }).setFld (F.AX_STATE_RT_PEND n (a % 4)) 1

/-! ## Commands (R242, R278, R279) -/

/-- A command written to the MOT registers waits for the axis task of the next stroke (R242). -/
def State.axQueue (s : State) (a cmd arg : Nat) : State :=
  match s.axCrew a with
  | some n =>
    if s.crewDeaf n then s
    else s.setAxis a { s.axisOf a with cmds := (s.axisOf a).cmds ++ [(cmd, arg, strokeOf (s.num (Reg.CT_LAST_CSEQ (a / 4))))] }
  | none => s

/-- AXIS_MOVE (R242, R251): MOVE with ARG = k. -/
def execAxisMove (a : Fin 32) (k : Fin 64) (s : State) : Host.Outcome State Fault Refusal := .next (s.axQueue a 3 k)

/-- ENABLE (R279). -/
def State.axEnable (s : State) (n a : Nat) : State :=
  let x := s.axisOf a
  if s.axState n a ≠ 0 ∨ !s.flag (F.AX_CFG_EN n (a % 4)) then s.axRefuse n a 1 1
  else if s.flag (F.AX_CFG_BRAKE_BOUND n (a % 4)) && !s.rbit Reg.PVM_PERMIT a then s.axRefuse n a 3 1
  else
    ((s.setAxis a { x with cpos := (x.s + x.ofs) * 4294967296, cvel := 0 }).setFld (F.AX_QUEUE_LAG_MAX n (a % 4)) 0).setAxState
      n a 1

/-- AXIS_ENABLE (R242, R279). -/
def execAxisEnable (a : Fin 32) (s : State) : Host.Outcome State Fault Refusal := .next (s.axQueue a 1 0)

/-- DISABLE (R279): a moving axis stops at A_STOP first. -/
def State.axDisable (s : State) (n a : Nat) : State :=
  let st := s.axState n a
  if st = 0 then s.axRefuse n a 1 2
  else if axMoving st || st = 4 || st = 6 then
    let s := if st = 6 then (s.homeFail n a 5) else s
    let s := if st = 4 then s else s.beginStop n a false 0
    (s.setAxis a { s.axisOf a with disable := true, rtTable := none }).setFld (F.AX_STATE_RT_PEND n (a % 4)) 0
  else s.setAxState n a 0

/-- AXIS_DISABLE (R279). -/
def execAxisDisable (a : Fin 32) (s : State) : Host.Outcome State Fault Refusal :=
  match s.axCrew a with
  | some n => if s.crewDeaf n then .next s else .next (s.axDisable n a)
  | none => .next s

/-- STOP (R258, R279): RT_PEND is cleared and homing fails with HOME_ABORTED. -/
def State.axStop (s : State) (n a : Nat) : State :=
  let st := s.axState n a
  if axMoving st || st = 6 then
    let homing := st == 6
    let s := if homing then s.homeFail n a 5 else s
    let s := s.beginStop n a false (if homing then 10 else 0)
    (s.setAxis a { s.axisOf a with rtTable := none }).setFld (F.AX_STATE_RT_PEND n (a % 4)) 0
  else s.axRefuse n a 1 4

/-- AXIS_STOP (R258). -/
def execAxisStop (a : Fin 32) (s : State) : Host.Outcome State Fault Refusal :=
  match s.axCrew a with
  | some n => if s.crewDeaf n then .next s else .next (s.axStop n a)
  | none => .next s

/-- CLEAR (R279). -/
def State.axClear (s : State) (n a : Nat) : State :=
  if s.axState n a = 7 then (s.setAxState n a 1).setFld (F.AX_STATE_FAULT n (a % 4)) 0 else s.axRefuse n a 1 9

/-- AXIS_CLEAR (R242, R279). -/
def execAxisClear (a : Fin 32) (s : State) : Host.Outcome State Fault Refusal := .next (s.axQueue a 9 0)

/-- STAGE_READMIT (R242, R243, R30): READMIT of AX_CMD. -/
def execStageReadmit (a : Fin 32) (s : State) : Host.Outcome State Fault Refusal := .next (s.axQueue a 10 0)

/-- AXIS_PERMIT_WITHDRAWN (R279): the axis halts and becomes DISABLED. -/
def State.permitWithdrawn (s : State) (n a : Nat) : State :=
  if s.axState n a = 0 then s
  else
    let homing := decide (s.axState n a = 6)
    let s := s.axHalt n a false 3
    let s := if homing then s.homeFail n a 5 else s
    s.setAxState n a 0

/-- AXIS_PERMIT_WITHDRAWN (R279, R415). -/
def execAxisPermitWithdrawn (a : Fin 32) (s : State) : Host.Outcome State Fault Refusal :=
  match s.axCrew a with
  | some n => .next ((s.setRbit Reg.PVM_PERMIT a false).permitWithdrawn n a)
  | none => .next (s.setRbit Reg.PVM_PERMIT a false)

/-! ## Gearing (R263 to R266) -/

/-- The raw accumulator of an encoder, signed (R267). -/
def State.encCount (s : State) (g : Nat) : Int := toSigned 48 (s.num (Reg.ENC_ACC_LO g) + 2 ^ 32 * s.fld (F.ENC_ACC_HI_ACC g))

/-- Whether motion in a direction would run towards an active hardware limit (R262). -/
def State.towardLimit (s : State) (n a : Nat) (neg : Bool) : Bool := (if neg then s.limNeg n a else s.limPos n a) == some true

/-- A ratio numerator with the master's present velocity would run towards an active hardware limit (R262). -/
def State.gearToward (s : State) (n a : Nat) (num : Int) (g : Nat) : Bool :=
  let v := (isign num : Rat) * s.encVel g
  (decide (0 < v) && s.towardLimit n a false) || (decide (v < 0) && s.towardLimit n a true)

/-- GEAR (R263). -/
def State.axGear (s : State) (n a : Nat) : State :=
  let j := a % 4
  let g := s.fld (F.AX_GEAR_CFG_ENC n j)
  let num := toSigned 32 (s.num (Reg.AX_GEAR_NUM n j))
  let den := s.num (Reg.AX_GEAR_DEN n j)
  let b := s.num (Reg.AX_GEAR_BLEND n j)
  if s.axState n a ≠ 1 then s.axRefuse n a 1 6
  else if den = 0 ∨ s.encFaulty g then s.axRefuse n a 5 6
  else if s.gearToward n a num g then s.axRefuse n a 1 6
  else
    let x := s.axisOf a
    let m := s.encCount g
    let g0 : Gear := { enc := g, cur := anchor 0 1 (fixR x.cpos) m, prev := none, pend := none }
    let gr := if b = 0 then { g0 with cur := anchor num den (fixR x.cpos) m } else g0.switch num den m b
    (s.setAxis a { x with gear := some gr }).setAxState n a 5

/-- AXIS_GEAR (R242, R263). -/
def execAxisGear (a : Fin 32) (s : State) : Host.Outcome State Fault Refusal := .next (s.axQueue a 6 0)

/-- The staged ratio takes over once the master count equals M_SW (R264). -/
def State.gearSwitch (s : State) (n a : Nat) : State :=
  match (s.axisOf a).gear with
  | some g =>
    match g.pend with
    | some (num, den, sw, b) =>
      if s.encCount g.enc = sw then
        (s.setAxis a { s.axisOf a with gear := some (g.switch num den sw b) }).setFld (F.AX_GEAR_CFG_PEND n (a % 4)) 0
      else s
    | none => s
  | none => s

/-- GEAR_SET (R264): stages NUM', DEN', M_SW and B. -/
def State.axGearSet (s : State) (n a : Nat) : State :=
  let j := a % 4
  match s.axState n a, (s.axisOf a).gear with
  | 5, some g =>
    if g.pend.isSome then s.axRefuse n a 6 7
    else if s.num (Reg.AX_GEAR_DEN n j) = 0 ∨ s.encFaulty g.enc then s.axRefuse n a 5 7
    else if s.gearToward n a (toSigned 32 (s.num (Reg.AX_GEAR_NUM n j))) g.enc then s.axRefuse n a 1 7
    else
      let sw := toSigned 48 (s.num (Reg.AX_GEAR_MSW_LO n j) + 2 ^ 32 * s.fld (F.AX_GEAR_MSW_HI_MSW n j))
      let p := (toSigned 32 (s.num (Reg.AX_GEAR_NUM n j)), s.num (Reg.AX_GEAR_DEN n j), sw, s.num (Reg.AX_GEAR_BLEND n j))
      ((s.setAxis a { s.axisOf a with gear := some { g with pend := some p } }).setFld (F.AX_GEAR_CFG_PEND n j) 1).gearSwitch n a
  | _, _ => s.axRefuse n a 1 7

/-- AXIS_GEAR_SET (R242, R264). -/
def execAxisGearSet (a : Fin 32) (s : State) : Host.Outcome State Fault Refusal := .next (s.axQueue a 7 0)

/-- UNGEAR (R266): a stop from the velocity of the ratio. -/
def State.axUngear (s : State) (n a : Nat) : State := if s.axState n a = 5 then s.beginStop n a false 0 else s.axRefuse n a 1 8

/-- AXIS_UNGEAR (R242, R266). -/
def execAxisUngear (a : Fin 32) (s : State) : Host.Outcome State Fault Refusal := .next (s.axQueue a 8 0)

/-- GEAR_SWITCH (R264): the master count equals M_SW. -/
def execGearSwitch (a : Fin 32) (s : State) : Host.Outcome State Fault Refusal :=
  match s.axCrew a with
  | some n => .next (s.gearSwitch n a)
  | none => .next s

/-- The master of a geared axis is lost (R266). -/
def State.gearLost (s : State) (g : Nat) : State :=
  (List.range 32).foldl (fun s a =>
    match s.axCrew a, (s.axisOf a).gear with
    | some n, some r =>
      if r.enc = g ∧ (s.axState n a = 5 ∨ s.axState n a = 2) then (s.beginStop n a false 8).axLog a 0x0819 g else s
    | _, _ => s) s

/-! ## Homing (R273 to R277) -/

/-- The reference input of a homing mode: the home input, a limit, or none. -/
def State.homeRef (s : State) (n a mode : Nat) : Option Bool :=
  match mode with
  | 2 => s.limPos n a
  | 3 => s.limNeg n a
  | 6 => none
  | 7 => none
  | _ => s.homeIn n a

/-- The search direction of a mode: true for negative. -/
def State.homeNeg (s : State) (n a mode : Nat) : Bool :=
  if mode = 6 then s.flag (F.AX_RT_HOME_DIR n (a % 4)) else mode == 1 || mode == 3 || mode == 5

/-- Step 4 of R274: the reference maps to HOME_VAL plus the fraction of p_ref. -/
def State.homeShift (s : State) (n a : Nat) (pref : Int) : State :=
  let x := s.axisOf a
  let d := s.num64s (Reg.AX_HOME_VAL_LO n (a % 4)) (Reg.AX_HOME_VAL_HI n (a % 4)) - steps pref
  s.setAxis a { x with ofs := x.ofs + d, cpos := x.cpos + d * 4294967296, stopPos := x.stopPos + d * 4294967296,
                       referenced := true, clear := x.clear.map (fun c => (c.1, c.2 + d * 4294967296)) }

/-- Where homing parks (R274 step 5). -/
def State.parkPos (s : State) (n a : Nat) : Int :=
  (s.num64s (Reg.AX_HOME_VAL_LO n (a % 4)) (Reg.AX_HOME_VAL_HI n (a % 4)) + toSigned 32 (s.num (Reg.AX_HOME_PARK n (a % 4)))) *
    4294967296

/-- Begins a leg of a homing sequence from rest. -/
def State.homeLeg (s : State) (a : Nat) (h : Home) (phase : HomePhase) (neg : Bool) : State :=
  let x := s.axisOf a
  s.setAxis a { x with
    stop := none, rest := false
    home := some { h with phase := phase, neg := neg, start := s.axCourse a, p0 := x.cpos, mark := none } }

/-- Stops a leg at HOME_A (R274). -/
def State.homeStop (s : State) (n a : Nat) (h : Home) (phase : HomePhase) : State :=
  let s := s.ramp n a (s.homeA n a)
  s.setAxis a { s.axisOf a with home := some { h with phase := phase } }

/-- Steps 4 and 5 of R274 from rest: the reference is set and the axis parks. -/
def State.homePark (s : State) (n a : Nat) (h : Home) : State :=
  let s := s.homeShift n a (h.pref.getD (s.axisOf a).cpos)
  s.homeLeg a h .park (decide (s.parkPos n a < (s.axisOf a).cpos))

/-- Why HOME is refused (R277), 0 when it is not. -/
def State.homeRefusal (s : State) (n a mode : Nat) : Nat :=
  let j := a % 4
  let needs := (mode ≤ 5 && (s.homeRef n a mode).isNone) || ((mode == 4 || mode == 5) && s.fld (F.AX_CFG_FB_ENC n j) == 15)
  let vUnits := f32R (s.rd (Reg.AX_HOME_VEL n j)) * s.unitsPerSec a
  let stall := mode == 6 && (!s.flag (F.AX_CFG_STALL_EN n j) || decide (8 ≤ a) || s.flag (F.AX_STATE_STALL_OFF n j) ||
    decide (vUnits < f32R (s.rd (Reg.AX_VMIN n j))))
  if s.axState n a ≠ 1 ∨ 7 < mode ∨ needs ∨ stall then 4
  else if mode ≠ 7 ∧ s.homeRef n a mode = some true ∧ s.towardLimit n a (!s.homeNeg n a mode) then 1
  else if mode ≠ 7 ∧ mode ≠ 2 ∧ mode ≠ 3 ∧ s.towardLimit n a (s.homeNeg n a mode) then 1
  else 0

/-- HOME (R273, R274). -/
def State.axHome (s : State) (n a mode : Nat) : State :=
  let code := s.homeRefusal n a mode
  if code ≠ 0 then s.axRefuse n a code 5
  else
    let s := s.setAxis a { s.axisOf a with referenced := false }
    if mode = 7 then (s.homeShift n a (s.axisOf a).cpos).motStatus n a 2
    else
      let h : Home := ⟨mode, .search, false, 0, 0, none, none, 0⟩
      let neg := s.homeNeg n a mode
      let s := s.setAxState n a 6
      if s.homeRef n a mode == some true then s.homeLeg a h .clear (!neg) else s.homeLeg a h .search neg

/-- AXIS_HOME (R242, R273). -/
def execAxisHome (a : Fin 32) (mode : BitVec 8) (s : State) : Host.Outcome State Fault Refusal := .next (s.axQueue a 5 mode.toNat)

/-- The axis task takes a command (R242, R279). -/
def State.axTake (s : State) (n a cmd arg : Nat) : State :=
  match cmd with
  | 1 => s.axEnable n a
  | 3 => s.axMove n a arg none
  | 5 => s.axHome n a arg
  | 6 => s.axGear n a
  | 7 => s.axGearSet n a
  | 8 => s.axUngear n a
  | 9 => s.axClear n a
  | 10 => s.readmit (.stage n (a % 4))
  | _ => s

/-- The axis task of the stroke of `q` takes the commands written before that stroke (R242). -/
def State.axTakeAll (s : State) (n a q : Nat) : State :=
  let due (c : Nat × Nat × Nat) : Bool := decide (0 < strokeDiff (strokeOf q) c.2.2)
  let l := (s.axisOf a).cmds.filter due
  let s := s.setAxis a { s.axisOf a with cmds := (s.axisOf a).cmds.filter (fun c => !due c) }
  l.foldl (fun s c => s.axTake n a c.1 c.2.1) s

/-- HOME_REFERENCE_EDGE (R274, R275): the reference input becomes active, captured at its first raw departure, or (`index`) the
feedback encoder captures an index. -/
def State.homeEdge (s : State) (n a : Nat) (index : Bool) : State :=
  let x := s.axisOf a
  let capture (p : Int) (h : Home) : State :=
    (s.setAxis a { x with clear := some (h.mode, p) }).homeStop n a { h with pref := some p } .refStop
  match x.home with
  | none => s
  | some h =>
    match h.phase, index with
    | .search, false =>
      if s.homeRef n a h.mode ≠ some true ∨ x.clear.isSome then s
      else if h.mode = 4 ∨ h.mode = 5 then
        s.setAxis a { x with home := some { h with phase := .index, mark := some ((x.latch.map Prod.fst).getD x.cpos) } }
      else if h.mode ≤ 3 then capture ((x.latch.map Prod.fst).getD x.cpos) h
      else s
    | .index, true => capture x.cpos h
    | _, _ => s

/-- HOME_REFERENCE_EDGE (R275). -/
def execHomeReferenceEdge (a : Fin 32) (index : Bool) (s : State) : Host.Outcome State Fault Refusal :=
  match s.axCrew a with
  | some n => .next (s.homeEdge n a index)
  | none => .next s

/-- HW_LIMIT_ACTIVE (R262, R277): the positive or negative limit becomes active. -/
def State.hwLimit (s : State) (n a : Nat) (pos : Bool) : State :=
  let x := s.axisOf a
  let st := s.axState n a
  let toward := if pos then decide (0 < x.cvel) else decide (x.cvel < 0)
  -- the reference limit while the clearance of R276 runs
  let own := x.clear.any (fun c => c.1 == if pos then 2 else 3)
  if !toward || own || (if pos then s.limPos n a else s.limNeg n a) != some true then s
  else
    match st, x.home with
    | 6, some h =>
      if (h.mode = 2 ∧ pos) ∨ (h.mode = 3 ∧ !pos) then s
      else s.homeStop n a { h with code := 1 } .failStop
    | _, _ =>
      if axMoving st || st = 4 then (s.beginStop n a true 4).axLog a 0x0814 (b2n pos) else s

/-- HW_LIMIT_ACTIVE (R262). -/
def execHwLimitActive (a : Fin 32) (pos : Bool) (s : State) : Host.Outcome State Fault Refusal :=
  match s.axCrew a with
  | some n => .next (s.hwLimit n a pos)
  | none => .next s

/-! ## The step stage (R243, R247, R255, R261) -/

/-- A deviation of at most 2^-16 step (R247, R258, R265; notes/assumptions/3.md). -/
def State.deviation (s : State) : Int × State :=
  let (z, s) := s.freshInt
  (clampInt (-65536) 65536 z, s)

/-- The CSEQ of the stroke a crew's table is in. -/
def State.strokeCseq (s : State) (m : Nat) : Nat := s.num (Reg.CT_LAST_CSEQ m) / 64 * 64

/-- The end of a segment's path: the axis waits, plays the next segment, or the table is over (R247, R248, R253). -/
def State.segEnd (s : State) (n a : Nat) (g : HeldSeg) (o : Nat) : State :=
  let x := s.axisOf a
  let s := match g.ev with
    | some t => (s.setAxis a { x with events := x.events ++ [(t, s.strokeCseq (a / 4))] }).motStatus n a 0
    | none => s
  let x := { s.axisOf a with cpos := g.p1, cvel := g.v1, p0 := g.p1, v0 := g.v1, segs := x.segs.tail,
                             origin := some ((o + g.dur) % 2 ^ 64) }
  let s := (s.setAxis a x).syncHeld n a
  match x.segs with
  | nx :: _ =>
    let s := s.setFld (F.AX_MOVE_SEG n (a % 4)) nx.idx
    if nx.wait.isSome then (s.setAxis a { x with cvel := 0, origin := none }).setAxState n a 3 else s
  | [] =>
    if x.take then
      -- the old path ends before the takeover starts (notes/assumptions/117.md)
      if g.v1 = 0 then s.setAxis a { x with origin := none }
      else
        let s := s.beginStop n a false 0
        (s.setAxis a { s.axisOf a with rtTable := x.table }).setFld (F.AX_STATE_RT_PEND n (a % 4)) 1
    else if g.last then
      if g.v1 = 0 then ((s.setAxis a { x with origin := none }).releaseTable n a).setAxState n a 1
      else s.beginStop n a false 0
    else
      (s.beginStop n a false 2).axLog a 0x0811 (x.table.getD 0 + (g.idx + 1) * 256)

/-- Interpolates the current segment at the course position, passing over the ends reached (R245, R247). -/
def State.interpolate (s : State) (n a : Nat) : Nat → State
  | 0 => s
  | fuel + 1 =>
    let x := s.axisOf a
    match x.segs, x.origin, s.axState n a with
    | g :: _, some o, 2 =>
      let u := posDiff (s.axCourse a) o
      if u < 0 then s
      else if (g.dur : Int) ≤ u then (s.segEnd n a g o).interpolate n a fuel
      else
        let sc : Rat := (u : Rat) / (g.dur : Rat)
        let p := cubic (fixR x.p0) (fixR x.v0) (fixR g.p1) (fixR g.v1) (g.dur : Rat) sc
        let v := quad (cubicVel (fixR x.p0) (fixR x.v0) (fixR g.p1) (fixR g.v1) (g.dur : Rat)) sc
        let (d, s) := s.deviation
        s.setAxis a { x with cpos := toFix p + d, cvel := toFix v }
    | _, _, _ => s

/-- A geared axis follows its master (R263, R265), and trips before a soft limit (R261). -/
def State.follow (s : State) (n a : Nat) (g : Gear) : State :=
  let m := s.encCount g.enc
  let (d, s) := if g.blending m then s.deviation else (0, s)
  let k : Rat := if g.cur.den = 0 then 0 else (g.cur.num : Rat) / (g.cur.den : Rat)
  let ups := s.unitsPerSec a
  let v := if ups = 0 then 0 else k * s.encVel g.enc / ups
  let x := { s.axisOf a with cpos := toFix (g.pos m) + d, cvel := toFix v }
  let s := s.setAxis a x
  let far := stopDist (rabs v) (s.aStop n a) (s.jStop n a)
  let crosses := if 0 < v then decide (s.slimHi n a < fixR x.cpos + far) else decide (fixR x.cpos - far < s.slimLo n a)
  if s.softOn n a && decide (v ≠ 0) && crosses then
    -- it stops at A_STOP (R261), whatever R260 would choose
    let s := (s.releaseTable n a).ramp n a (s.aStop n a)
    let s := s.setAxis a { s.axisOf a with fault := 3 }
    ((s.setAxState n a 4).setFld (F.AX_GEAR_CFG_PEND n (a % 4)) 0).axLog a 0x0813 (b2n (decide (0 < v)))
  else s

/-- One fabric cycle of a stop ramp (R258). -/
def State.rampCycle (s : State) (a : Nat) (r : StopRec) : State :=
  let x := s.axisOf a
  let u := max 0 (posDiff (s.axCourse a) r.start)
  let p := stopAt (rabs (fixR r.v0)) r.acc r.jerk (u : Rat)
  let sg : Rat := (isign r.v0 : Rat)
  s.setAxis a { x with cpos := toFix (fixR r.p0 + sg * p.1), cvel := toFix (sg * p.2) }

/-- The parked stop of a homing run begins where the way left is no longer than the stopping distance (R277). -/
def State.homeParkAt (s : State) (n a : Nat) (h : Home) (x : Axis) (v : Rat) : State :=
  if rabs (fixR (s.parkPos n a - x.cpos)) ≤ stopDist (rabs v) (s.homeA n a) (s.jStop n a) then
    let s := s.homeStop n a h .parkStop
    s.setAxis a { s.axisOf a with stopPos := s.parkPos n a }
  else s

/-- What a homing leg does at a position `x` reached with the speed `v` (R274, R277). -/
def State.homeMove (s : State) (n a : Nat) (h : Home) (x : Axis) (v : Rat) : State :=
  let clear := (s.num (Reg.AX_HOME_CLEAR n (a % 4)) : Int) * 4294967296
  let maxd := (s.num (Reg.AX_HOME_MAXDIST n (a % 4)) : Int) * 4294967296
  match h.phase with
  | .clear =>
    if s.homeRef n a h.mode == some true then s.setAxis a { x with home := some { h with mark := none } }
    else
      match h.mark with
      | none => s.setAxis a { x with home := some { h with mark := some x.cpos } }
      | some p => if clear ≤ ((x.cpos - p).natAbs : Int) then s.homeStop n a h .clearStop else s
  | .search => if maxd < ((x.cpos - h.p0).natAbs : Int) then s.homeStop n a { h with code := 2 } .failStop else s
  | .index => if maxd < ((x.cpos - h.mark.getD h.p0).natAbs : Int) then s.homeStop n a { h with code := 3 } .failStop else s
  | .park => s.homeParkAt n a h x v
  | _ => s

/-- One fabric cycle of a homing leg (R274, R277). -/
def State.homeCycle (s : State) (n a : Nat) (h : Home) : State :=
  let x := s.axisOf a
  match x.stop with
  | some r => s.rampCycle a r
  | none =>
    let u := max 0 (posDiff (s.axCourse a) h.start)
    let p := travelAt (s.homeVel n a) (s.homeA n a) (u : Rat)
    let sg : Rat := if h.neg then -1 else 1
    let x := { x with cpos := toFix (fixR h.p0 + sg * p.1), cvel := toFix (sg * p.2) }
    (s.setAxis a x).homeMove n a h x p.2

/-- The pins' times of one fabric cycle; a STEP pulse ends after PULSE_W (R255). -/
def State.stepTimes (s : State) (n a : Nat) : Axis :=
  let x := s.axisOf a
  let x := { x with stepT := x.stepT + 1, dirT := x.dirT + 1 }
  if !x.stepHigh && decide (6 * s.fld (F.AX_STEP_T_PULSE_W n (a % 4)) ≤ x.stepT) then { x with stepHigh := true } else x

/-- STEP and DIR of one fabric cycle (R255, R256); times are in fabric cycles of 5/3 ns. -/
def State.stepPins (s : State) (n a : Nat) : State :=
  let j := a % 4
  let x := s.stepTimes n a
  let want := steps x.cpos - x.ofs
  let lag := (want - x.s).natAbs
  let s := if s.fld (F.AX_QUEUE_LAG_MAX n j) < lag then s.setFld (F.AX_QUEUE_LAG_MAX n j) (min lag 0xFFFF) else s
  if lag = 0 then s.setAxis a x
  else
    let up := decide (x.s < want)
    let lvl := up != s.flag (F.AX_CFG_DIR_INV n j)
    if s.fld (F.AX_CFG_LAG_MAX n j) < lag then
      ((s.setAxis a x).axHaltFault n a 6 false 4).axLog a 0x0815 lag
    else if lvl != x.dirHigh then s.setAxis a { x with dirHigh := lvl, dirT := 0 }
    else if x.stepHigh && decide (6 * s.fld (F.AX_STEP_T_PER_MIN n j) ≤ x.stepT) &&
        decide (6 * s.fld (F.AX_STEP_T_DIR_SETUP n j) ≤ x.dirT) then
      s.setAxis a { x with stepHigh := false, stepT := 0, s := if up then x.s + 1 else x.s - 1 }
    else s.setAxis a x

/-- The clearance after a reference has been run (R276). -/
def State.clearDone (s : State) (n a : Nat) : State :=
  let x := s.axisOf a
  match x.clear with
  | some (_, p) =>
    if (s.num (Reg.AX_HOME_CLEAR n (a % 4)) : Int) * 4294967296 ≤ ((x.cpos - p).natAbs : Int) then s.setAxis a { x with clear := none } else s
  | none => s

/-- One fabric cycle of a step stage (R243, R255); `differ`: the two interpolators decide differently. -/
def State.stageCycle (s : State) (n a : Nat) (differ : Bool) : State :=
  let st := s.axState n a
  if st = 0 then s.setAxis a (s.stepTimes n a)
  else if differ then
    let s := (s.axLog a 0x081A 0).axHaltFault n a 7 true 2
    s.fatal (.stage n (a % 4)) 1
  else
    let x := s.axisOf a
    let s := match st with
      | 2 =>
        match x.gear, x.segs with
        | some g, [] => s.follow n a g
        | _, _ => s.interpolate n a 5
      | 4 => match x.stop with | some r => if x.rest then s else s.rampCycle a r | none => s
      | 5 => match x.gear with | some g => s.follow n a g | none => s
      | 6 => match x.home with | some h => if x.rest then s else s.homeCycle n a h | none => s
      | _ => s
    (s.clearDone n a).stepPins n a

/-- STEP_STAGE_CYCLE (R255). -/
def execStepStageCycle (a : Fin 32) (differ : Bool) (s : State) : Host.Outcome State Fault Refusal :=
  match s.axCrew a with
  | some n => .next (s.stageCycle n a differ)
  | none => .next s

/-! ## Rest (R258, R259, R274) -/

/-- A stop has reached rest: the position lies within 2^-16 step of STOP_POS. -/
def State.settle (s : State) (a : Nat) : State :=
  let (d, s) := s.deviation
  let x := s.axisOf a
  s.setAxis a { x with cpos := x.stopPos + d, cvel := 0, stop := none }

/-- The stop ramp of an axis has run its whole time (R258). -/
def State.rampOver (s : State) (a : Nat) : Bool :=
  match (s.axisOf a).stop with
  | some r => decide (r.dur ≤ ((posDiff (s.axCourse a) r.start : Int) : Rat))
  | none => false

/-- A stop comes to rest: STOPPED, and what follows it (R258, R259, R274, R279). -/
def State.axAtRest (s : State) (n a : Nat) : State :=
  if !s.rampOver a then s
  else
  let s := s.motStatus n a 3
  match s.axState n a with
  | 4 =>
    let s := s.settle a
    let x := s.axisOf a
    if x.disable then (s.setAxis a { x with disable := false, fault := 0, rtTable := none }).setAxState n a 0
    else if x.fault ≠ 0 then (s.setAxis a { x with fault := 0, rtTable := none }).axFault n a x.fault
    else
      match x.rtTable with
      | some _ => s.setAxis a { x with rest := true, restAt := s.time.cycle }
      | none => s.setAxState n a 1
  | 6 =>
    match (s.axisOf a).home with
    | none => s
    | some h =>
      match h.phase with
      | .clearStop => (s.settle a).homeLeg a h .search (s.homeNeg n a h.mode)
      | .refStop => (s.settle a).homePark n a h
      | .parkStop =>
        let s := s.settle a
        (((s.setAxis a { s.axisOf a with home := none }).setAxState n a 1).motStatus n a 2).axLog a 0x0816 h.mode
      | .failStop => ((s.settle a).homeFail n a h.code).axFault n a 10
      | _ => s
  | _ => s

/-- AXIS_AT_REST (R258). -/
def execAxisAtRest (a : Fin 32) (s : State) : Host.Outcome State Fault Refusal :=
  match s.axCrew a with
  | some n => .next (s.axAtRest n a)
  | none => .next s

/-- RT_TIMEOUT (R259): READY of the pending table is not set within RT_WAIT of rest. -/
def execRtTimeout (a : Fin 32) (s : State) : Host.Outcome State Fault Refusal :=
  match s.axCrew a, (s.axisOf a).rtTable with
  | some n, some k =>
    if s.axState n a = 4 && (s.axisOf a).rest && !s.mtReady n k &&
        decide ((s.axisOf a).restAt + 600 * s.fld (F.AX_RT_RT_WAIT_US n (a % 4)) ≤ s.time.cycle) then
      let s := s.setAxis a { s.axisOf a with rtTable := none, rest := false }
      .next (((s.setFld (F.AX_STATE_RT_PEND n (a % 4)) 0).axFault n a 9).axLog a 0x0818 k)
    else .next s
  | _, _ => .next s

/-! ## The segments of a ring (R246, R249) -/

/-- Segment `idx` of an axis's ring, as eight words (R246, R252). -/
def State.ringSeg (s : State) (n a idx : Nat) : List Word :=
  (List.range 8).map (fun w => s.rdWord (crewMem n + 0x88000 + 0x800 * (a % 4) + 32 * (idx % 64) + 4 * w))

/-- The segment of eight words (R246). -/
def segOf (ws : List Word) (idx nseg : Nat) : HeldSeg :=
  let w (k : Nat) := (ws.getD k 0).toNat
  { dur := w 0 + bitsOf (ws.getD 1 0) 0 15 * 2 ^ 32
    wait := if bit (w 1) 17 then some (w 6 % 64) else none
    ev := if bit (w 1) 18 then some (w 1 / 2 ^ 24) else none
    p1 := toSigned 64 (w 2 + w 3 * 2 ^ 32)
    v1 := toSigned 64 (w 4 + w 5 * 2 ^ 32)
    blend := bit (w 1) 16
    idx := idx
    last := decide (nseg ≤ idx + 1)
    resv := decide ((w 1) / 2 ^ 15 % 2 ≠ 0 ∨ (w 1) / 2 ^ 19 % 2 ^ 5 ≠ 0 ∨ 64 ≤ w 6 ∨ w 7 ≠ 0) }

/-- The cause for which a segment that starts from position `p` at velocity `v` is refused (R249, R262), 0 when it is not. -/
def State.segCheck (s : State) (n a : Nat) (p v : Int) (g : HeldSeg) : Nat :=
  let x := s.axisOf a
  let p0 := fixR p
  let v0 := fixR v
  let T : Rat := (g.dur : Rat)
  let (lo, hi) := cubicRange p0 v0 (fixR g.p1) (fixR g.v1) T
  if g.dur < s.ctPeriod (a / 4) ∨ g.dur = 0 then 1
  else if g.resv then 2
  else if fixR (s.num64s (Reg.AX_VMAX_LO n (a % 4)) (Reg.AX_VMAX_HI n (a % 4))) < cubicVmax p0 v0 (fixR g.p1) (fixR g.v1) T then 3
  else if (s.softOn n a && (decide (lo < s.slimLo n a) || decide (s.slimHi n a < hi))) ||
      (s.limPos n a == some true && decide (p0 < hi)) || (s.limNeg n a == some true && decide (lo < p0)) then 4
  else if g.wait.isSome ∧ v ≠ 0 then 5
  else if g.blend ∧ g.idx ≠ 0 then 6
  else if !x.referenced && !s.flag (F.AX_CFG_UNREF_MOVE n (a % 4)) then 7
  else 0

/-! ## Catches at the stage (R248, R251, R259, R271) -/

/-- A segment that may start on the catch with CSEQ `q`: it does not wait, or waits for that entry (R248). -/
def HeldSeg.startsAt (g : HeldSeg) (q : Nat) : Bool := match g.wait with | some e => e == cseqEntry q | none => true

/-- A takeover starts at a stroke start (R248, R249): its first segment is checked from the commanded position and velocity; without a segment in
the stage it starts at the next one. -/
def State.takeStart (s : State) (n a pos q : Nat) : State :=
  let x := s.axisOf a
  match x.nextSegs with
  | [] => s
  | g :: _ =>
    let cause := s.segCheck n a x.cpos x.cvel g
    if cause ≠ 0 then (s.beginStop n a false 1).axLog a 0x0810 (cause + g.idx * 256)
    else
      let s := (match x.old with | some k => s.freeTable n a k | none => s).showTable n a (x.table.getD 0)
      let s := s.setFld (F.AX_GEAR_CFG_PEND n (a % 4)) 0
      let s := s.setAxis a { x with segs := x.nextSegs, nextSegs := [], take := false, old := none, gear := none, p0 := x.cpos, v0 := x.cvel,
                                    origin := if g.startsAt q then some pos else none }
      (if g.startsAt q then s else s.setAxState n a 3).syncHeld n a

/-- A catch of the axis's crew: it starts a move, a takeover, a waiting segment or a pending table, and latches position and
velocity (R271). -/
def State.axCatch (s : State) (n a pos q : Nat) : State :=
  let x := { s.axisOf a with latched := ((s.axisOf a).latched ++ [(q, (s.axisOf a).cpos, (s.axisOf a).cvel)]).reverse.take 4 |>.reverse }
  let s := s.setAxis a x
  let stroke := cseqEntry q == 0
  if x.take && decide (s.axState n a = 2) then (if stroke then s.takeStart n a pos q else s)
  else
  match s.axState n a, x.segs, x.origin with
  | 2, g :: _, none =>
    if !stroke then s
    else if g.startsAt q then s.setAxis a { x with origin := some pos, p0 := x.cpos, v0 := 0 }
    else s.setAxState n a 3
  | 2, [], none => if stroke then s.setAxis a { x with origin := some pos, p0 := x.cpos } else s
  | 3, g :: _, _ =>
    if g.wait = some (cseqEntry q) then
      (s.setAxis a { x with origin := some pos, p0 := x.cpos, v0 := 0, cvel := 0 }).setAxState n a 2
    else s
  | 4, _, _ =>
    match x.rtTable with
    | some k =>
      if stroke && x.rest && s.mtReady n k then s.playTable n a k (some pos) else s
    | none => s
  | _, _, _ => s

/-! ## The axis task (R249, R252, R270 to R272) -/

/-- Segment `g`, just handed over as the first of a table from rest, waits for its catch (R248): the start has passed. -/
def State.firstWaits (s : State) (n a : Nat) (g : HeldSeg) : State :=
  let x := s.axisOf a
  if g.idx = 0 ∧ g.wait.isSome ∧ x.origin.isSome ∧ !x.take then (s.setAxis a { x with origin := none }).setAxState n a 3 else s

/-- Checks segments and hands them over until the stage holds the current one and 3 pending (R249, R252); the first segment of a takeover is checked
when it starts, from the state it then starts from. -/
def State.handOver (s : State) (n a : Nat) : Nat → State
  | 0 => s
  | fuel + 1 =>
    let x := s.axisOf a
    let st := s.axState n a
    if (st = 2 ∨ st = 3) ∧ (if x.take then x.nextSegs.length else x.segs.length) < 4 ∧ 0 < s.axCount n a ∧ x.checked < x.nseg then
      let ws := s.ringSeg n a x.rdIdx
      let g := segOf ws x.checked x.nseg
      let cause := if x.take && g.idx == 0 then 0 else s.segCheck n a x.chkP x.chkV g
      if cause = 0 then
        let s := s.setFld (F.AX_QUEUE_COUNT n (a % 4)) (s.axCount n a - 1)
        let s := s.setAxis a { x with
          segs := if x.take then x.segs else x.segs ++ [g], nextSegs := if x.take then x.nextSegs ++ [g] else x.nextSegs
          checked := x.checked + 1, rdIdx := (x.rdIdx + 1) % 64, chkP := g.p1, chkV := g.v1 }
        ((s.firstWaits n a g).syncHeld n a).handOver n a fuel
      else (s.beginStop n a false 1).axLog a 0x0810 (cause + g.idx * 256)
    else s

/-- The segments one feed transfer moves: what is free, what the table has left, and what fits before the ring's end. -/
def State.feedLen (s : State) (n a : Nat) : Nat :=
  let x := s.axisOf a
  let wr := (x.rdIdx + s.axCount n a) % 64
  min (min (64 - s.axCount n a) (x.nseg - x.fetched)) (64 - wr)

/-- Starts a feed transfer when 16 or more slots are free (R252); its addresses are those of the logical crew's memory. -/
def State.feed (s : State) (n a : Nat) : State :=
  let x := s.axisOf a
  match x.table, s.feedChan n a with
  | some k, some ch =>
    if s.cdmState n ch = 0 ∧ 16 ≤ 64 - s.axCount n a ∧ x.fetched < x.nseg then
      let e := s.cdmEsize n ch
      let len := s.feedLen n a
      let wr := (x.rdIdx + s.axCount n a) % 64
      let src := s.mtAddr n k + 32 * x.fetched
      let dst := 0x50000000 + 0x1000000 * (a / 4) + 0x88000 + 0x800 * (a % 4) + 32 * wr
      let s := (s.setNum (Reg.CDM_CH_SRC_LO n ch) (src % 2 ^ 32)).setFld (F.CDM_CH_SRC_HI_ADDR n ch) (src / 2 ^ 32)
      let s := (s.setNum (Reg.CDM_CH_DST_LO n ch) (dst % 2 ^ 32)).setFld (F.CDM_CH_DST_HI_ADDR n ch) (dst / 2 ^ 32)
      let s := ((s.setFld (F.CDM_CH_C0_C n ch) (32 * len / e)).setFld (F.CDM_CH_C1_C n ch) 1).setFld (F.CDM_CH_C2_C n ch) 1
      let s := (s.setNum (Reg.CDM_CH_SS0 n ch) e).setNum (Reg.CDM_CH_DS0 n ch) e
      s.cdmStart n ch none
    else s
  | _, _ => s

/-- A feed transfer has ended (R252): its segments are in the queue. -/
def State.feedDone (s : State) (n ch : Nat) : State :=
  match s.logicalOf n with
  | none => s
  | some m =>
    let a := 4 * m + s.fld (F.CDM_CH_CFG_AXIS n ch)
    let x := s.axisOf a
    let len := s.fld (F.CDM_CH_C0_C n ch) * s.cdmEsize n ch / 32
    if x.table.isSome then
      (s.setAxis a { x with fetched := x.fetched + len }).setFld (F.AX_QUEUE_COUNT n (a % 4)) (min 64 (s.axCount n a + len))
    else s

/-- The axis of a crew whose task is context `x` (MOTION section). -/
def State.axisOfTask (s : State) (n x : Nat) : Option Nat :=
  match s.logicalOf n with
  | none => none
  | some m => ((List.range 4).find? (fun j => (Tab.get (fun _ => []) s.img.axctx m)[j]? == some x)).map (fun j => 4 * m + j)

/-- The motor-sense operand MSNS_4a + i of a task (R122, R270). -/
def senseOp (ops : List (Option Opnd × OpVal)) (a i : Nat) : Option OpVal :=
  (ops.find? (fun o => match o.1 with | some p => p.tok.sig.toNat == 0x88 + 4 * a + i | none => false)).map Prod.snd

/-- Whether stall detection runs (R270). -/
def State.stallRuns (s : State) (n a : Nat) : Bool :=
  let src := s.fld (F.CRS_CFG_SRC (s.fld (F.CT_CFG_CRS (a / 4))))
  s.flag (F.AX_CFG_STALL_EN n (a % 4)) && decide (a < 8) && (src == 0 || src == 3) && s.inUse (.conv (16 + a / 2))

/-- The stall estimate of a stroke (R271): delta, emf, the currents, bad and the emf test. -/
def State.stallEst (s : State) (n a : Nat) (uA uB iA iB : Word) (p v : Int) : Word × Word × Bool × Bool :=
  let j := a % 4
  let x := s.axisOf a
  let ust : Nat := 4 * s.fld (F.AX_STALL_CFG_USTEP n j)
  let vs := ratF32 (fixR v * s.unitsPerSec a)
  let w := ldiv (lmul twoPiF vs) (ratF32 ((ust : Nat) : Rat))
  let h := s.rd (Reg.AX_HSTALL n j)
  let (pa, pb) := x.prevI.getD (iA, iB)
  let rw := s.rd (Reg.AX_RWIND n j)
  let lw := s.rd (Reg.AX_LWIND n j)
  let back (u i ip : Word) := lsub (lsub u (lmul rw i)) (ldiv (lmul lw (lsub i ip)) h)
  let eA := back uA iA pa
  let eB := back uB iB pb
  let emf := ftz (F32.sqrt (ladd (lmul eA eA) (lmul eB eB)))
  let sg : Word := if F32.isZero w then 0 else if F32.neg? w then F32.neg F32.one else F32.one
  let thm := lsub (atan2 eB eA) (lmul sg halfPiF)
  let q : Rat := if ust = 0 then 0 else (fixR p - (x.ofs : Rat)) / ((ust : Nat) : Rat)
  let thc := ladd (lmul twoPiF (ratF32 (q - (q.floor : Rat)))) (s.rd (Reg.AX_THETA0 n j))
  let delta := lmul sg (wrapPi (lsub thc thm))
  let low := F32.lt emf (lmul (lmul (s.rd (Reg.AX_EMF_FRAC n j)) (s.rd (Reg.AX_KE n j))) (F32.abs w))
  let slow := F32.lt (F32.abs vs) (ftz (s.rd (Reg.AX_VMIN n j)))
  (delta, emf, (lgt delta (s.rd (Reg.AX_DMAX n j)) || low) && !slow, low)

/-- The axis task (R252) for the ISSUED entry (x, w): the operands are checked, the stall estimate and the tokens of ended EVENT
segments are formed, and all is held for the lockstep monitor. -/
def State.axisTask (s : State) (n x w a : Nat) : State :=
  let en := s.entryOf n x w
  let opnds := (List.range (s.ctxNops n x)).map (fun k => en.ops.getD k none)
  let (vals, s) := s.checkOps ((List.range (s.ctxNops n x)).map (fun k => (en.ops.getD k none, (s.slotCfg n x k).subst)))
  let ops := opnds.zip vals
  let ax := s.axisOf a
  let (p, v) := match ax.latched.reverse.find? (fun l => l.1 == en.cseq) with
    | some (_, p, v) => (p, v)
    | none => (ax.cpos, ax.cvel)
  let sense := [0, 1, 2, 3].map (senseOp ops a)
  let held : MotHeld :=
    match s.stallRuns n a, sense with
    | true, [some uA, some uB, some iA, some iB] =>
      let (d, e, bad, low) := s.stallEst n a uA.value uB.value iA.value iB.value p v
      let lost := uA.st == 1 || uB.st == 1 || iA.st == 1 || iB.st == 1
      ⟨a, some (d, e, iA.value, iB.value), bad && !lost, low, p, en.cseq, ax.events⟩
    | _, _ => ⟨a, none, false, false, p, en.cseq, ax.events⟩
  let st := vals.foldl (fun r o => stMax r o.st) 0
  let toks := if s.flag (F.AX_EVT_SIG_VALID n (a % 4)) then
      ax.events.map (fun e => mkToken (F32.ofInt (e.1 : Int)) (BitVec.ofNat 12 (s.fld (F.AX_EVT_SIG_SIG n (a % 4)))) st e.2)
    else []
  let s := s.setMotHeld (Tab.put s.motHeld (512 * n + x) held)
  s.setEntry n x w { en with done := true, confirmed := false, results := toks }

/-- AXIS_TASK (R252): the motion unit runs the ISSUED entry of context `x`. -/
def execAxisTask (n : Fin 9) (x : Fin 512) (s : State) : Host.Outcome State Fault Refusal :=
  match s.issuedEntry n x, s.axisOfTask n x with
  | some w, some a =>
    if s.ctxTarget n x = 1 && !(s.entryOf n x w).done && s.inUse (.crew n) && !s.engineFrozen n 2 then .next (s.axisTask n x w a) else .next s
  | _, _ => .next s

/-- delta in milliradians as a signed 16-bit value (R272). -/
def milliRad (d : Word) : Nat := ofSigned 16 (clampInt (-32768) 32767 (F32.toIntNE (lmul d (F32.ofInt 1000))))

/-- A stall is declared (R272). -/
def State.stall (s : State) (n a : Nat) (h : MotHeld) : State :=
  let x := s.axisOf a
  let d := match h.load with | some (d, _) => milliRad d | none => 0
  match x.home with
  | some hm =>
    if hm.mode = 6 ∧ hm.phase = .search then
      let s := s.axLog a 0x0812 (d + b2n h.emfF * 2 ^ 16 + 2 ^ 17)
      let s := s.setAxis a { x with cvel := 0, cpos := (x.s + x.ofs) * 4294967296, stop := none, clear := some (6, x.stallPos) }
      s.homePark n a { hm with pref := some x.stallPos }
    else (s.axHaltFault n a 5 true 1).axLog a 0x0812 (d + b2n h.emfF * 2 ^ 16)
  | none => (s.axHaltFault n a 5 true 1).axLog a 0x0812 (d + b2n h.emfF * 2 ^ 16)

/-- What a confirmed axis task does (R191, R242, R252, R270, R272): stall evaluation, commands, segments handed over, feed started. -/
def State.axisTaskApply (s : State) (n : Nat) (h : MotHeld) : State :=
  let a := h.axis
  let j := a % 4
  let s := s.setAxis a { s.axisOf a with events := (s.axisOf a).events.drop h.evs.length }
  let s := s.setFld (F.AX_STATE_STALL_OFF n j)
    (b2n (s.flag (F.AX_CFG_STALL_EN n j) && decide (a < 8) && !s.inUse (.conv (16 + a / 2))))
  let x := s.axisOf a
  let s := match h.load with
    | some (d, e, iA, iB) =>
      let run := if h.bad then x.stallRun + 1 else 0
      let s := (s.wr (Reg.AX_LOAD n j) d).wr (Reg.AX_EMF n j) e
      s.setAxis a { x with stallRun := run, stallPos := if run = 1 then h.pos else x.stallPos, prevI := some (iA, iB) }
    | none => if s.stallRuns n a then s.setAxis a { x with stallRun := 0, prevI := none } else s
  let st := s.axState n a
  let s := if h.bad && decide (s.fld (F.AX_STALL_CFG_N n j) ≤ (s.axisOf a).stallRun) && decide (st ≠ 0) && decide (st ≠ 7) then
      (s.setAxis a { s.axisOf a with stallRun := 0 }).stall n a h else s
  ((s.axTakeAll n a h.cseq).handOver n a 4).feed n a

/-! ## Encoders (R267 to R269) -/

/-- Encoder health events carry the signal as SOURCE (R285). -/
def State.encFaultHooks (s : State) (g : Nat) : State :=
  if s.encFaulty g then
    let s := (List.range 4).foldl (fun s c =>
      if s.courseSrc c 2 && s.fld (F.CRS_CFG_ENC c) == g && s.fld (F.CRS_STATUS_STATE c) == 2 then s.setCourseState c 3 else s) s
    s.gearLost g
  else
    (List.range 4).foldl (fun s c =>
      if s.courseSrc c 2 && s.fld (F.CRS_CFG_ENC c) == g && s.fld (F.CRS_STATUS_STATE c) == 3 then
        (s.setCourseState c 2).log 0x0216 0 c else s) s

/-- The count of one sample (R267): +1, −1 or 0, and whether it is illegal (R268). -/
def encStep (mode : Nat) (a b a' b' : Bool) : Int × Bool :=
  match mode with
  | 0 =>
    if a != a' && b != b' then (0, true)
    else if a != a' then (if a' == b' then (-1, false) else (1, false))
    else if b != b' then (if a' == b' then (1, false) else (-1, false))
    else (0, false)
  | 1 =>
    if a != a' && b != b' then (0, true)
    else if a != a' then (if a' == b' then (-1, false) else (1, false))
    else (0, false)
  | 2 => if !a && a' then (if b' then (-1, false) else (1, false)) else (0, false)
  | _ => if !a && a' then (if b' then (-1, false) else (1, false)) else (0, false)

/-- The axes geared to an encoder whose M_SW its count has reached switch (R264). -/
def State.gearsAt (s : State) (g : Nat) : State :=
  (List.range 32).foldl (fun s a =>
    match s.axCrew a, (s.axisOf a).gear with
    | some n, some r => if r.enc = g then s.gearSwitch n a else s
    | _, _ => s) s

/-- Adds to the accumulator, which stops at ±(2^47 − 1) (R267). -/
def State.encAdd (s : State) (g : Nat) (d : Int) : State :=
  if s.flag (F.ENC_STATUS_SAT g) || d = 0 then s
  else
    let z := s.encCount g + d
    let v := ofSigned 48 z
    let s := (s.setNum (Reg.ENC_ACC_LO g) (v % 2 ^ 32)).setFld (F.ENC_ACC_HI_ACC g) (v / 2 ^ 32)
    let e := s.encOf g
    let s := s.setEnc g { e with edges := (s.time.cycle, d) :: e.edges.filter (fun x => decide (s.time.cycle < x.1 + 60000)) }
    let s := s.gearsAt g
    if z.natAbs = 2 ^ 47 - 1 then ((s.setFld (F.ENC_STATUS_SAT g) 1).fatal (.enc g) 3).encFaultHooks g else s

/-- ENCODER_EDGE (R267, R268): the filtered levels of A and B of ENC_g after an accepted change. -/
def execEncoderEdge (g : Fin 16) (a b : Bool) (s : State) : Host.Outcome State Fault Refusal :=
  if s.flag (F.ENC_CFG_EN g) then
    let e := s.encOf g
    let (d, ill) := encStep (s.fld (F.ENC_CFG_MODE g)) e.a e.b a b
    let s := s.setEnc g { e with a := a, b := b }
    if ill then
      let s := (s.countFld (F.ENC_STATUS_ILLEGAL g) 1).setFld (F.ENC_STATUS_ILL g) 1
      let s := s.log 0x0820 (0x20A8 + g) (s.fld (F.ENC_STATUS_ILLEGAL g))
      .next ((s.transient (.enc g) 1).encFaultHooks g)
    else .next (s.encAdd g (if s.flag (F.ENC_CFG_DIR g) then -d else d))
  else .next (s.setEnc g { s.encOf g with a := a, b := b })

/-- ENC_LINE_FAULT (R268, R42, R266): `lines` has bit 0 for A, 1 for B, 2 for Z. -/
def execEncLineFault (g : Fin 16) (lines : BitVec 3) (s : State) : Host.Outcome State Fault Refusal :=
  let e := s.encOf g
  if lines = 0 then .next s
  else
    let began := e.lines == 0
    let s := (s.setEnc g { e with lines := e.lines ||| lines.toNat }).setFld (F.ENC_STATUS_LINE g) 1
    if began then
      let s := s.log 0x0821 (0x20A8 + g) lines.toNat
      .next ((s.transient (.enc g) 2).encFaultHooks g)
    else .next s

/-- ENC_LINE_FAULT_END (R268, R45). -/
def execEncLineFaultEnd (g : Fin 16) (s : State) : Host.Outcome State Fault Refusal :=
  let s := (s.setEnc g { s.encOf g with lines := 0 }).setFld (F.ENC_STATUS_LINE g) 0
  .next (if s.encFaulty g then s else s.encFaultHooks g)

/-- ENC_INDEX (R269): a rising edge of Z. -/
def execEncIndex (g : Fin 16) (s : State) : Host.Outcome State Fault Refusal :=
  let e := s.encOf g
  if s.flag (F.ENC_CFG_Z_QUAL g) && !(e.a && e.b) then .next s
  else if s.flag (F.ENC_IDX_HI_IDX_VALID g) then .next (s.setFld (F.ENC_STATUS_IDX_OVR g) 1)
  else
    let v := s.num (Reg.ENC_ACC_LO g) + 2 ^ 32 * s.fld (F.ENC_ACC_HI_ACC g)
    .next (((s.setNum (Reg.ENC_IDX_LO g) (v % 2 ^ 32)).setFld (F.ENC_IDX_HI_IDX g) (v / 2 ^ 32)).setFld
      (F.ENC_IDX_HI_IDX_VALID g) 1)

/-- ENC_IDX_READ (R269): a read of ENC_n_IDX_HI. -/
def execEncIdxRead (g : Fin 16) (s : State) : Host.Outcome State Fault Refusal :=
  .next ((s.setFld (F.ENC_IDX_HI_IDX_VALID g) 0).setBus ⟨false, s.num (Reg.ENC_IDX_HI g)⟩)

/-- ENC_READMIT (R268, R30). -/
def execEncReadmit (g : Fin 16) (s : State) : Host.Outcome State Fault Refusal := .next (s.readmit (.enc g))

/-- The token of an encoder position (R269): SCALE × accumulator, rounded once. -/
def State.encValue (s : State) (g : Nat) : Word := ratF32 (f32R (s.rd (Reg.ENC_SCALE g)) * (s.encCount g : Rat))

end Sys2Proof.Machine
end

