-- ==== Sys2Proof/Machine/Out.lean ====
section
/-! DEFINITION. The field outputs (chapter 11): current loops, HART and valve drivers. -/
namespace Sys2Proof.Machine

def State.cloOf (s : State) (n : Nat) : Clo := Tab.get (fun _ => Clo.init) s.clos n
def State.setClo (s : State) (n : Nat) (c : Clo) : State := { s with clos := Tab.put s.clos n c }
def State.vdrOf (s : State) (n : Nat) : Vdr := Tab.get (fun _ => Vdr.init) s.vdrs n
def State.setVdr (s : State) (n : Nat) (v : Vdr) : State := { s with vdrs := Tab.put s.vdrs n v }
/-- Output enable (R402). -/
def State.oe (s : State) : Bool := s.flag F.PVM_STATUS_OE

/-- The loop that drives an output (R172): the one whose context in crew `m` produces the signal. -/
def State.drivingLoop (s : State) (m sig : Nat) : Option Nat :=
  match s.physOf m with
  | none => none
  | some n =>
    (s.routes n).findSome? (fun r =>
      if r.2.results.any (fun x => x.toNat == sig) && s.ctxTarget n r.1 == 0 then s.loopOfTask n r.1 else none)

/-- Reports an output's flags to its producing loop. -/
def State.reportSat (s : State) (m sig : Nat) (hi lo : Bool) : State :=
  match s.drivingLoop m sig with
  | some l => s.satfb m l hi lo
  | none => s

/-! ## Current loops (R333 to R342) -/

/-- Milliamperes in binary32. -/
def mA3_5 : Word := 0x40600000#32
def mA21_5 : Word := 0x41AC0000#32
def mA3_8 : Word := F32.ofRatio 38 10
def mA20_5 : Word := 0x41A40000#32
def mA1 : Word := 0x3F800000#32
def mA24 : Word := 0x41C00000#32

/-- The DAC code of a current (R336): I × 65 536 / 24 mA to the nearest, at most 65 535. -/
def dacCode (i : Word) : Nat :=
  let q := f32R i * 8192 / 3
  (clampInt 0 65535 ((q + 1 / 2).floor)).toNat

/-- A current in microamperes, to the nearest. -/
def microamps (i : Word) : Int := (f32R i * 1000 + 1 / 2).floor

/-- The limits of the commanded current (R337). -/
def State.cloLimits (s : State) (n : Nat) : Word × Word := if s.flag (F.CLO_CFG_NE43_EN n) then (mA3_8, mA20_5) else (mA1, mA24)

/-- The effective alarm direction (R340): high. -/
def State.alarmHigh (s : State) (n : Nat) : Bool :=
  let d := s.fld (F.CLO_CFG_ALARM_DIR n)
  if d = 0 then bit (s.fld F.PVM_SWITCH_SW) 18 else d == 2

/-- Whether the channel drives its alarm level (R334, R335, R339). -/
def State.cloAlarm (s : State) (n : Nat) : Bool :=
  s.flag (F.CLO_STATUS_LOOP_LOW n) || (s.flag (F.CLO_STATUS_STOPPED n) && s.fld (F.CLO_CFG_STOP n) == 2) ||
    (s.flag (F.CLO_CFG_ALARM_ST1 n) && ((s.cloOf n).tok.any (fun t => t.2.1 == 1)))

/-- The current the channel is commanded to before clamping: none before anything has been applied since the reset state. -/
def State.cloWant (s : State) (n : Nat) : Option Word :=
  if s.flag (F.CLO_STATUS_STOPPED n) && s.fld (F.CLO_CFG_STOP n) == 1 then some (s.rd (Reg.CLO_SUBST n))
  else (s.cloOf n).tok.map (fun t => t.1)

/-- Drives a channel by its state: DAC code, flags and status (R334 to R342).  The run of measurements out of tolerance starts anew when the channel
goes from normal drive to an alarm or back. -/
def State.cloDrive (s : State) (n : Nat) : State :=
  let usable := s.flag (F.CLO_CFG_EN n) && s.oe && s.inUse (.clo n) && !s.flag (F.CLO_STATUS_TSD n)
  let alarm := s.cloAlarm n
  let (lo, hi) := s.cloLimits n
  let level : Option Word :=
    if alarm then some (if s.alarmHigh n then mA21_5 else mA3_5)
    else (s.cloWant n).map (fun v => F32.clamp lo hi v)
  let on := usable && level.isSome
  let same := s.flag (F.CLO_STATUS_ENABLED n) == on && s.flag (F.CLO_STATUS_ALARM n) == (on && alarm)
  let s := if same then s else s.setClo n { s.cloOf n with diffAt := none }
  let s := (s.setFld (F.CLO_STATUS_ENABLED n) (b2n on)).setFld (F.CLO_CODE_CODE n) (if on then dacCode (level.getD 0) else 0)
  let s := (s.setFld (F.CLO_STATUS_ALARM n) (b2n (on && alarm))).setFld (F.CLO_STATUS_DIR_EFF n) (b2n (s.alarmHigh n))
  let c := s.cloOf n
  let both := alarm || s.flag (F.CLO_STATUS_STOPPED n) || s.flag (F.CLO_STATUS_TSD n) || s.health (.clo n) == .retired
  let satHi := both || c.clampHi || s.flag (F.CLO_STATUS_COMPLIANCE n)
  let satLo := both || c.clampLo
  if satHi == s.flag (F.CLO_STATUS_SAT_HI n) && satLo == s.flag (F.CLO_STATUS_SAT_LO n) then s
  else
    let s := (s.setFld (F.CLO_STATUS_SAT_HI n) (b2n satHi)).setFld (F.CLO_STATUS_SAT_LO n) (b2n satLo)
    s.reportSat (s.fld (F.CLO_SRC_CREW n)) (s.fld (F.CLO_SRC_SIG n)) satHi satLo

/-- What an output makes of a token (R333): value, status, and whether the tag failed. -/
def State.outCheck (s : State) (link source : Nat) (subst : Word) (t : Token) : Word × BitVec 4 × State :=
  let (c, s) := s.check link subst t
  let s := s.logIf (!t.ok) 0x0A15 source t.sig.toNat
  if F32.isFinite c.value then (c.value, c.st, s) else (subst, 1, s)

/-- A token's CSEQ precedes that of the last token applied (R333). -/
def tokLate (last : Option (Word × BitVec 4 × Nat)) (q : Nat) : Bool :=
  match last with | some t => seqBefore q t.2.2 | none => false

/-- A token with a right TAG is not the one the image names as the output's producer (R333). -/
def Token.stray (t : Token) (sig : Nat) : Bool := t.ok && t.sig.toNat != sig

/-- A channel that drives its alarm level under ALARM_ST1 takes no further token with ST 1 (R341). -/
def State.cloShut (s : State) (n : Nat) (st : BitVec 4) : Bool :=
  s.flag (F.CLO_STATUS_LOOP_LOW n) ||
    (st == 1 && s.flag (F.CLO_CFG_ALARM_ST1 n) && !s.flag (F.CLO_STATUS_STOPPED n) && (s.cloOf n).tok.any (fun t => t.2.1 == 1))

/-- A token reaches a current-loop output (R333, R334, R337, R341); `echo`, the code echo differs (R342). -/
def State.cloToken (s : State) (n link : Nat) (t : Token) (echo : Bool) : State :=
  if !s.flag (F.CLO_CFG_EN n) || !s.oe || t.stray (s.fld (F.CLO_SRC_SIG n)) then s
  else
    let c := s.cloOf n
    let (v, st, s) := s.outCheck link (0x4000 + n) (s.rd (Reg.CLO_SUBST n)) t
    if tokLate c.tok t.cseq.toNat then s.count (Reg.CLO_LATE n) 1
    else if s.cloShut n st then s
    else
      let (lo, hi) := s.cloLimits n
      let s := s.setClo n { c with tok := some (v, st, t.cseq.toNat), clampHi := F32.lt hi v, clampLo := F32.lt v lo, strokes := 0 }
      let s := s.setFld (F.CLO_STATUS_STOPPED n) 0
      let s := if echo then s.transient (.clo n) 2 else s
      s.cloDrive n

/-- PRODUCER_TIMEOUT at a current loop (R335): TMO stroke starts have come since the last token applied.  DESIGN CHOICE
(notes/assumptions/118.md): the count runs from the first token applied on. -/
def State.cloTimeout (s : State) (n : Nat) : State :=
  if !s.flag (F.CLO_CFG_EN n) || !s.oe || s.flag (F.CLO_STATUS_STOPPED n) || !(s.cloOf n).tok.isSome ||
     decide ((s.cloOf n).strokes < s.fld (F.CLO_CFG_TMO n)) then s
  else ((s.setFld (F.CLO_STATUS_STOPPED n) 1).log 0x0A16 (0x4000 + n) (s.fld (F.CLO_CFG_STOP n))).cloDrive n

/-- Sets the channel's bit of CLO_FLT (R351). -/
def State.cloFlt (s : State) (n : Nat) : State := s.setRbit Reg.CLO_FLT n true

/-- The commanded current of a channel in normal drive. -/
def State.cloLevel (s : State) (n : Nat) : Word :=
  let (lo, hi) := s.cloLimits n
  match s.cloWant n with | some v => F32.clamp lo hi v | none => 0

/-- The current the measurement of a channel is compared with: the alarm level while the alarm is driven, else the commanded current (R339, R340). -/
def State.cloTarget (s : State) (n : Nat) : Rat :=
  if s.flag (F.CLO_STATUS_ALARM n) then (if s.alarmHigh n then 43 / 2 else 7 / 2) else f32R (s.cloLevel n)

/-- What a measurement adds to the runs of R338 and R339 and, in a test, to its readings. -/
def State.cloMeasured (s : State) (n : Nat) (head meas : Rat) (word : Word) : Clo :=
  let c := s.cloOf n
  let off := decide (1 / 5 < meas - s.cloTarget n) || decide (1 / 5 < s.cloTarget n - meas)
  { c with low := if head < 3 / 2 then c.low + 1 else 0,
           okay := if 2 ≤ head then c.okay + 1 else 0,
           diffAt := if s.flag (F.CLO_STATUS_ENABLED n) && off then (match c.diffAt with | some x => some x | none => some s.time.cycle) else none,
           readings := if s.health (.clo n) = .testing && decide (c.readings.length < 3) then c.readings ++ [word] else c.readings }

/-- HEADROOM_MEASURE (R338): headroom in V and measured current in mA. -/
def execHeadroomMeasure (n : Fin 16) (head meas : Word) (s : State) : Host.Outcome State Fault Refusal :=
  .next (((s.setClo n (s.cloMeasured n (f32R head) (f32R meas) meas)).wr (Reg.CLO_HEAD n) head).wr (Reg.CLO_MEAS n) meas)

/-- Headroom in millivolts, to the nearest. -/
def State.headMv (s : State) (n : Nat) : Nat := ofSigned 32 ((f32R (s.rd (Reg.CLO_HEAD n)) * 1000 + 1 / 2).floor)

/-- COMPLIANCE_SET (R338): 20 measurements in a row lie below 1.5 V. -/
def execComplianceSet (n : Fin 16) (s : State) : Host.Outcome State Fault Refusal :=
  if s.flag (F.CLO_STATUS_ENABLED n) && !s.flag (F.CLO_STATUS_COMPLIANCE n) && decide (20 ≤ (s.cloOf n).low) then
    .next ((((s.setFld (F.CLO_STATUS_COMPLIANCE n) 1).cloFlt n).log 0x0A10 (0x4000 + n) (s.headMv n)).cloDrive n)
  else .next s

/-- COMPLIANCE_CLEAR (R338): 20 measurements in a row lie at or above 2.0 V. -/
def execComplianceClear (n : Fin 16) (s : State) : Host.Outcome State Fault Refusal :=
  if s.flag (F.CLO_STATUS_COMPLIANCE n) && decide (20 ≤ (s.cloOf n).okay) then
    .next (((s.setFld (F.CLO_STATUS_COMPLIANCE n) 0).log 0x0A11 (0x4000 + n) (s.headMv n)).cloDrive n)
  else .next s

/-- Every measurement of the last 50 ms was out of tolerance (R339, R340). -/
def State.cloOff (s : State) (n : Nat) : Bool := (s.cloOf n).diffAt.any (fun t => s.lasted t (50 * cycPerMs))

/-- LOOP_LOW_TIMEOUT (R339): in normal drive. -/
def execLoopLowTimeout (n : Fin 16) (s : State) : Host.Outcome State Fault Refusal :=
  if s.flag (F.CLO_STATUS_ENABLED n) && !s.flag (F.CLO_STATUS_ALARM n) && s.cloOff n then
    let d := ofSigned 16 (microamps (s.cloLevel n)) + ofSigned 16 (microamps (s.rd (Reg.CLO_MEAS n))) * 2 ^ 16
    .next ((((s.setFld (F.CLO_STATUS_LOOP_LOW n) 1).cloFlt n).log 0x0A12 (0x4000 + n) d).cloDrive n)
  else .next s

/-- ALARM_NR_TIMEOUT (R340): while the alarm is driven. -/
def execAlarmNrTimeout (n : Fin 16) (s : State) : Host.Outcome State Fault Refusal :=
  if s.flag (F.CLO_STATUS_ALARM n) && !s.flag (F.CLO_STATUS_ALARM_NR n) && s.cloOff n then
    let d := (if s.alarmHigh n then 21500 else 3500) + ofSigned 16 (microamps (s.rd (Reg.CLO_MEAS n))) * 2 ^ 16
    .next (((s.setFld (F.CLO_STATUS_ALARM_NR n) 1).cloFlt n).log 0x0A13 (0x4000 + n) d)
  else .next s

/-- A write of CLO_CLR (R339). -/
def State.cloClr (s : State) (mask : Nat) : State :=
  (List.range 16).foldl (fun s n =>
    if bit mask n then ((s.setFld (F.CLO_STATUS_LOOP_LOW n) 0).setFld (F.CLO_STATUS_ALARM_NR n) 0).cloDrive n else s) s

/-- CLO_CLR (R339). -/
def execCloClr (mask : BitVec 16) (s : State) : Host.Outcome State Fault Refusal := .next (s.cloClr mask.toNat)

/-- CLO_THERMAL_SHUTDOWN (R342). -/
def execCloThermalShutdown (n : Fin 16) (s : State) : Host.Outcome State Fault Refusal :=
  if s.flag (F.CLO_STATUS_TSD n) then .next s
  else .next (((((s.setFld (F.CLO_STATUS_TSD n) 1).cloFlt n).log 0x0A14 (0x4000 + n) 0).transient (.clo n) 1).cloDrive n)

/-- CLO_THERMAL_RESUME (R342): at most once per second; `echo`, the code echo differs. -/
def execCloThermalResume (n : Fin 16) (echo : Bool) (s : State) : Host.Outcome State Fault Refusal :=
  if s.flag (F.CLO_STATUS_TSD n) && (s.cloOf n).resumed.all (fun t => s.lasted t (1000 * cycPerMs)) then
    let s := (s.setFld (F.CLO_STATUS_TSD n) 0).setClo n { s.cloOf n with resumed := some s.time.cycle }
    .next ((if echo then s.transient (.clo n) 2 else s).cloDrive n)
  else .next s

/-- CLO_READMIT (R342): the test takes its readings anew. -/
def execCloReadmit (n : Fin 16) (s : State) : Host.Outcome State Fault Refusal :=
  let s := if s.health (.clo n) = .retired then s.setClo n { s.cloOf n with readings := [] } else s
  .next ((s.readmit (.clo n)).cloDrive n)

/-- The verdict of a channel's test (R342), once 4, 12 and 20 mA were measured: each reading lies within 0.05 mA.  DESIGN CHOICE
(notes/assumptions/118.md): the first three measurements of the test are its readings, in that order. -/
def State.cloVerdict (s : State) (n : Nat) : Option Bool :=
  match (s.cloOf n).readings.map f32R with
  | [a, b, c] => some ([(a, 4), (b, 12), (c, 20)].all (fun (x : Rat × Rat) => decide (x.1 - x.2 ≤ 1 / 20) && decide (x.2 - x.1 ≤ 1 / 20)))
  | _ => none

/-! ## HART (R343, R344) -/

/-- Ends a transaction with a result (R344). -/
def State.hartEnd (s : State) (n result : Nat) : State :=
  let s := (s.setFld (F.HART_RES_RESULT n) result).setRbit Reg.CLO_FLT (16 + n) true
  s.logIf (result == 1 || result == 2) 0x0A17 (0x4000 + n) (result + s.num (Reg.HART_TX n 0) % 256 * 2 ^ 8)

/-- The bytes of the request in the TX area. -/
def State.hartTx (s : State) (n : Nat) : List Nat := (List.range 68).flatMap (fun w => leBytes 4 (s.num (Reg.HART_TX n w)))

/-- A write of GO (R344). -/
def State.hartGo (s : State) (n : Nat) : State :=
  if !s.flag (F.HART_CFG_EN n) || !s.flag (F.CLO_CFG_EN n) || !s.inUse (.clo n) || s.flag (F.CLO_STATUS_TSD n) ||
     s.flag (F.HART_RES_BUSY n) then s.hartEnd n 3
  else ((s.setFld (F.HART_RES_BUSY n) 1).setClo n { s.cloOf n with retries := 0 }).emit (.frame (0x4000 + n) (s.hartTx n))

/-- HART_GO (R344). -/
def execHartGo (n : Fin 16) (s : State) : Host.Outcome State Fault Refusal := .next (s.hartGo n)

/-- The state with words stored in a register area. -/
def State.setArea (s : State) (a : Nat) (l : List Word) : State :=
  (l.zipIdx).foldl (fun s w => s.wr (a + 4 * w.2) w.1) s

/-- HART_RESPONSE (R344): a response frame, `ok` without a parity, framing or check-byte error; a corrupt one is retried. -/
def execHartResponse (n : Fin 16) (ok : Bool) (frame : List Word) (s : State) : Host.Outcome State Fault Refusal :=
  if !s.flag (F.HART_RES_BUSY n) then .next s
  else if ok then .next (((s.setArea (Reg.HART_RSP n 0) (frame.take 68)).setFld (F.HART_RES_BUSY n) 0).hartEnd n 0)
  else if (s.cloOf n).retries < s.fld (F.HART_CFG_RETRIES n) then
    .next ((s.setClo n { s.cloOf n with retries := (s.cloOf n).retries + 1 }).emit (.frame (0x4000 + n) (s.hartTx n)))
  else .next ((s.setFld (F.HART_RES_BUSY n) 0).hartEnd n 2)

/-- HART_NO_RESPONSE (R344): after all retries. -/
def execHartNoResponse (n : Fin 16) (s : State) : Host.Outcome State Fault Refusal :=
  if s.flag (F.HART_RES_BUSY n) then .next ((s.setFld (F.HART_RES_BUSY n) 0).hartEnd n 1) else .next s

/-- HART_BURST_RX (R344). -/
def execHartBurstRx (n : Fin 16) (frame : List Word) (s : State) : Host.Outcome State Fault Refusal :=
  let s := if s.flag (F.HART_RES_BURST n) then s.setFld (F.HART_RES_BURST_OVR n) 1 else s
  .next ((s.setArea (Reg.HART_BURST n 0) (frame.take 68)).setFld (F.HART_RES_BURST n) 1)

/-- HART_BURST_READ (R344): word 0 of the burst area. -/
def execHartBurstRead (n : Fin 16) (s : State) : Host.Outcome State Fault Refusal :=
  .next ((s.setFld (F.HART_RES_BURST n) 0).setBus ⟨false, s.num (Reg.HART_BURST n 0)⟩)

/-! ## Valve drivers (R345 to R348) -/

def State.vdrMode (s : State) (n : Nat) : Nat := s.fld (F.VDR_CFG_MODE n)
/-- Bit `n` of one of the driver-state registers. -/
def State.vdrBit (s : State) (f : Nat → Nat) (n : Nat) : Bool := s.rbit (f (n / 32)) (n % 32)
def State.setVdrBit (s : State) (f : Nat → Nat) (n : Nat) (b : Bool) : State := s.setRbit (f (n / 32)) (n % 32) b
/-- The group's coil supply is there: present at the driver and not cut by the pavilion. -/
def State.coilOn (s : State) (g : Nat) : Bool := !bit (s.fld F.VDR_GRP_GRP_OFF) g && bit (s.fld F.PVM_GRP_ON) g

/-- Whether a driver can conduct. -/
def State.vdrCan (s : State) (n : Nat) : Bool :=
  s.oe && s.inUse (.vdr n) && !(s.vdrOf n).tripped && !(s.vdrOf n).hot

/-- The heater's mains course gives it a firing phase: TRACKING or HOLDOVER (R348). -/
def State.heatFires (s : State) (n : Nat) : Bool :=
  let crs := s.fld (F.CRS_STATUS_STATE (s.fld (F.VDR_HEAT_HCRS n)))
  crs == 2 || crs == 3

/-- Drives a driver by its state: OUT, the phase, and the flags of a heater (R346 to R348). -/
def State.vdrDrive (s : State) (n : Nat) : State :=
  let v := s.vdrOf n
  let cmd := s.vdrBit Reg.VDR_CMD n
  match s.vdrMode n with
  | 1 =>
    let on := cmd && s.vdrCan n
    let first : VdrPhase := if s.fld (F.VDR_HEAT_HIT n) = 0 then .hold else .hit
    let v := if !on then { v with phase := .off } else if v.phase = .off then { v with phase := first, since := s.time.cycle } else v
    (s.setVdr n v).setVdrBit Reg.VDR_OUT n on
  | 2 =>
    let g := n / 16
    let fires := s.heatFires n
    let on := cmd && s.vdrCan n && fires && s.coilOn g
    let s := s.setVdrBit Reg.VDR_OUT n on
    let both := !fires || !s.coilOn g || v.tripped || v.hot || s.health (.vdr n) == .retired
    let hi := both || v.clampHi
    let lo := both || v.clampLo
    if hi == s.flag (F.VDR_STATUS_SAT_HI n) && lo == s.flag (F.VDR_STATUS_SAT_LO n) then s
    else
      let s := (s.setFld (F.VDR_STATUS_SAT_HI n) (b2n hi)).setFld (F.VDR_STATUS_SAT_LO n) (b2n lo)
      s.reportSat (s.fld (F.VDR_HEAT_CREW n)) (s.fld (F.VDR_STATUS_SIG n)) hi lo
  | _ => s.setVdrBit Reg.VDR_OUT n false

/-- The pavilion's command to a valve driver (R346): one that repeats the present state changes nothing. -/
def State.valveCommand (s : State) (n : Nat) (on : Bool) : State :=
  if s.vdrMode n ≠ 1 || on == s.vdrBit Reg.VDR_CMD n then s else (s.setVdrBit Reg.VDR_CMD n on).vdrDrive n

/-- VALVE_HIT_END (R346): HIT × 0.1 ms after the hit phase began. -/
def execValveHitEnd (n : Fin 64) (s : State) : Host.Outcome State Fault Refusal :=
  if (s.vdrOf n).phase = .hit ∧ s.lasted (s.vdrOf n).since (s.fld (F.VDR_HEAT_HIT n) * (100 * cycPerUs)) then .next (s.setVdr n { s.vdrOf n with phase := .hold }) else .next s

/-- VALVE_OVERCURRENT (R347). -/
def execValveOvercurrent (n : Fin 64) (s : State) : Host.Outcome State Fault Refusal :=
  if !s.vdrBit Reg.VDR_OUT n then .next s
  else
    let v := s.vdrOf n
    let s := s.setVdr n { v with tripped := true, trips := v.trips + 1, tripAt := s.time.cycle }
    let s := (s.setVdrBit Reg.VDR_TRIP n true).log 0x0A20 (0x4100 + n) (min (v.trips + 1) 0xFFFFFFFF)
    .next ((s.transient (.vdr n) 1).vdrDrive n)

/-- VALVE_RETRY_EXPIRE (R347): RETRY_MS after the trip. -/
def execValveRetryExpire (n : Fin 64) (s : State) : Host.Outcome State Fault Refusal :=
  if !(s.vdrOf n).tripped || !s.lasted (s.vdrOf n).tripAt (s.fld (F.VDR_CFG_RETRY_MS n) * cycPerMs) then .next s
  else .next ((s.setVdr n { s.vdrOf n with tripped := false, phase := .off }).vdrDrive n)

/-- VALVE_OVERTEMP (R347). -/
def execValveOvertemp (n : Fin 64) (s : State) : Host.Outcome State Fault Refusal :=
  if (s.vdrOf n).hot then .next s
  else
    let s := s.setVdr n { s.vdrOf n with hot := true }
    let s := (s.setVdrBit Reg.VDR_OT n true).log 0x0A22 (0x4100 + n) 0
    .next ((s.transient (.vdr n) 2).vdrDrive n)

/-- VALVE_COOLED (R347). -/
def execValveCooled (n : Fin 64) (s : State) : Host.Outcome State Fault Refusal :=
  if !(s.vdrOf n).hot then .next s
  else .next ((s.setVdr n { s.vdrOf n with hot := false, phase := .off }).vdrDrive n)

/-- VALVE_OPEN_LOAD (R347): the off-state test finds no coil for 10 ms (`isOpen`), or a coil again. -/
def execValveOpenLoad (n : Fin 64) (isOpen : Bool) (s : State) : Host.Outcome State Fault Refusal :=
  if s.vdrBit Reg.VDR_OUT n || !s.coilOn (n / 16) || s.vdrBit Reg.VDR_OPEN n == isOpen then .next s
  else
    let s := s.setVdrBit Reg.VDR_OPEN n isOpen
    .next (s.logIf isOpen 0x0A21 (0x4100 + n) 0)

/-- Every driver of a group is driven anew. -/
def State.groupDrive (s : State) (g : Nat) : State := (List.range 16).foldl (fun s i => s.vdrDrive (16 * g + i)) s

/-- The coil supply of group `g` is absent (R347). -/
def State.coilAbsent (s : State) (g : Nat) : State :=
  if bit (s.fld F.VDR_GRP_GRP_OFF) g then s
  else (((s.setRbit Reg.VDR_GRP g true).setRbit Reg.VDR_GRP (4 + g) true).log 0x0A23 (0x4100 + 16 * g) g).groupDrive g

/-- The coil supply of group `g` is back (R347): a driver commanded on starts its hit phase again. -/
def State.coilBack (s : State) (g : Nat) : State :=
  if !bit (s.fld F.VDR_GRP_GRP_OFF) g then s
  else
    let s := (s.setRbit Reg.VDR_GRP g false).setRbit Reg.VDR_GRP (4 + g) true
    let s := (List.range 16).foldl (fun s i => s.setVdr (16 * g + i) { s.vdrOf (16 * g + i) with phase := .off }) s
    s.groupDrive g

/-- COIL_SUPPLY_ABSENT (R347). -/
def execCoilSupplyAbsent (g : Fin 4) (s : State) : Host.Outcome State Fault Refusal := .next (s.coilAbsent g)

/-- COIL_SUPPLY_RESTORED (R347). -/
def execCoilSupplyRestored (g : Fin 4) (s : State) : Host.Outcome State Fault Refusal := .next (s.coilBack g)

/-- VDR_READMIT (R347). -/
def execVdrReadmit (n : Fin 64) (s : State) : Host.Outcome State Fault Refusal :=
  .next ((s.readmit (.vdr n)).vdrDrive n)

/-- 100 in binary32. -/
def hundred : Word := 0x42C80000#32

/-- A token reaches a heater driver (R333, R348). -/
def State.vdrToken (s : State) (n link : Nat) (t : Token) : State :=
  if s.vdrMode n ≠ 2 || !s.oe || t.stray (s.fld (F.VDR_STATUS_SIG n)) then s
  else
    let (x, st, s) := s.outCheck link (0x4100 + n) 0 t
    let v := s.vdrOf n
    if tokLate v.tok t.cseq.toNat then s
    else
      let v := { v with tok := some (x, st, t.cseq.toNat), clampHi := F32.lt hundred x, clampLo := F32.lt x 0, stopped := false }
      (s.setVdr n { v with strokes := 0 }).vdrDrive n

/-- PRODUCER_TIMEOUT at a heater (R335): SUBST is 0 %. -/
def State.vdrTimeout (s : State) (n : Nat) : State :=
  let v := s.vdrOf n
  if s.vdrMode n ≠ 2 || !s.oe || v.stopped || !v.tok.isSome || decide (v.strokes < s.fld (F.VDR_STATUS_TMO n)) then s
  else
    let stop := s.fld (F.VDR_HEAT_STOP n)
    let s := s.setVdr n { v with stopped := true, tok := if stop = 1 then v.tok.map (fun t => ((0 : Word), t.2)) else v.tok }
    s.log 0x0A16 (0x4100 + n) stop

/-- OUTPUT_TOKEN (R333): outputs 0 to 15 are the current loops, 16 to 79 the drivers; `echo`, the code echo differs (R342). -/
def execOutputToken (out : Fin 80) (link : Nat) (t : Token) (echo : Bool) (s : State) : Host.Outcome State Fault Refusal :=
  .next (if out.val < 16 then s.cloToken out link t echo else s.vdrToken (out - 16) link t)

/-- PRODUCER_TIMEOUT (R335). -/
def execProducerTimeout (out : Fin 80) (s : State) : Host.Outcome State Fault Refusal :=
  .next (if out.val < 16 then s.cloTimeout out else s.vdrTimeout (out - 16))

/-- The mains cycle, counted from ZC_OFS to ZC_OFS, that the heater's course is in (R348). -/
def State.heatCycle (s : State) (n : Nat) : Nat :=
  ((s.courseOf (s.fld (F.VDR_HEAT_HCRS n))).pos + 2 ^ 64 - s.num (Reg.VDR_ZC n)) % 2 ^ 64 / 2 ^ 32

/-- HEATER_CYCLE_DECISION (R348): the course phase has reached ZC_OFS since the last decision. -/
def execHeaterCycleDecision (n : Fin 64) (s : State) : Host.Outcome State Fault Refusal :=
  let v := s.vdrOf n
  if s.vdrMode n ≠ 2 || !s.oe || !s.heatFires n || v.cyc == s.heatCycle n then .next s
  else
    let d := match v.tok with | some t => f32R (F32.clamp 0 hundred t.1) | none => 0
    let a := v.acc + d
    let on := decide (100 ≤ a)
    .next (((s.setVdr n { v with acc := if on then a - 100 else a, cyc := s.heatCycle n }).setVdrBit Reg.VDR_CMD n on).vdrDrive n)

/-- A heater driver whose course is OFF or ACQUIRING is off (R348), and its next decision is that of the cycle after the lock. -/
def State.heaterFollow (s : State) (n : Nat) : State :=
  if s.vdrMode n ≠ 2 || !s.oe then s
  else if s.heatFires n then s.vdrDrive n
  else ((s.setVdr n { s.vdrOf n with cyc := s.heatCycle n }).setVdrBit Reg.VDR_CMD n false).vdrDrive n

/-- Every heater driver follows its course (R348). -/
def State.heatersFollow (s : State) : State := (s.vdrs.map (fun x => x.1)).foldl (fun s n => s.heaterFollow n) s

/-- Output enable: every heater driver is enabled, and its first decision is at the next ZC_OFS (R348). -/
def State.heatersEnable (s : State) : State :=
  (List.range 64).foldl (fun s n => if s.vdrMode n = 2 then (s.setVdr n { s.vdrOf n with cyc := s.heatCycle n }).vdrDrive n else s) s

/-- A stroke start of crew `m` counts at the outputs it produces for (R335). -/
def State.outputsStroke (s : State) (m : Nat) : State :=
  { s with clos := s.clos.map (fun x => if s.fld (F.CLO_SRC_CREW x.1) = m then (x.1, { x.2 with strokes := x.2.strokes + 1 }) else x),
           vdrs := s.vdrs.map (fun x => if s.fld (F.VDR_HEAT_CREW x.1) = m then (x.1, { x.2 with strokes := x.2.strokes + 1 }) else x) }

/-- Every output goes to its reset state (R349). -/
def State.outputsReset (s : State) : State :=
  let s := (List.range 16).foldl (fun s n =>
    let s := s.setClo n { Clo.init with retries := (s.cloOf n).retries, resumed := (s.cloOf n).resumed, readings := (s.cloOf n).readings }
    let s := [F.CLO_STATUS_LOOP_LOW n, F.CLO_STATUS_ALARM_NR n, F.CLO_STATUS_STOPPED n, F.CLO_STATUS_COMPLIANCE n].foldl
      (fun s f => s.setFld f 0) s
    s.cloDrive n) s
  (List.range 64).foldl (fun s n =>
    ((s.setVdr n { Vdr.init with hot := (s.vdrOf n).hot }).setVdrBit Reg.VDR_CMD n false).vdrDrive n) s

end Sys2Proof.Machine
end

