-- ==== Sys2Proof/Machine/PvmOps.lean ====
section
/-! DEFINITION. The pavilion's parameter set (R406, R407), its mailboxes (R434) and its lookups. -/
namespace Sys2Proof.Machine

/-! ## Parameters (R406) -/

def State.setPvm (s : State) (p : PvmState) : State := { s with pvm := p }

/-- A little-endian word of a parameter set. -/
def parWord (p : List (Nat × Nat)) (off : Nat) : Nat :=
  let b (i : Nat) : Nat := Tab.get (fun _ => 0) p (off + i)
  b 0 + 256 * b 1 + 65536 * b 2 + 16777216 * b 3

/-- Bits of a word of a parameter set. -/
def parFld (p : List (Nat × Nat)) (off lo w : Nat) : Nat := (parWord p off >>> lo) % 2 ^ w

/-- A parameter set with one byte replaced. -/
def parPut (p : List (Nat × Nat)) (off b : Nat) : List (Nat × Nat) := Tab.set (fun _ => 0) p off (b % 256)

/-- The length of a parameter set (R406). -/
def parLen : Nat := 0x49400

/-- PAR_CRC (R406). -/
def parCrc (p : List (Nat × Nat)) : Nat := crc32c ((List.range parLen).map (fun i => Tab.get (fun _ => 0) p i))

/-- A parameter set from its bytes. -/
def parOf (l : List Nat) : List (Nat × Nat) := (l.zipIdx.filter (fun x => x.1 % 256 != 0)).map (fun x => (x.2, x.1 % 256))

/-- A field of the set in force. -/
def State.par (s : State) (off lo w : Nat) : Nat := parFld s.pvm.par off lo w

/-- Offsets of the records. -/
def offSin (i : Nat) : Nat := 0x100 + 8 * i
def offFun (f : Nat) : Nat := 0x180 + 16 * f
def offBrk (b : Nat) : Nat := 0x200 + 32 * b
def offGrp (g : Nat) : Nat := 0x300 + 8 * g
def offValve (v : Nat) : Nat := 0x400 + 4 * v
def offConn (k : Nat) : Nat := 0x1400 + 32 * k
def offItem (j : Nat) : Nat := 0x9400 + 16 * j
def offRow (v : Nat) : Nat := 0x29400 + 128 * v

/-- Valves `u` and `v` conflict (R422). -/
def parConflict (p : List (Nat × Nat)) (u v : Nat) : Bool := bit (Tab.get (fun _ => 0) p (offRow v + u / 8)) (u % 8)

/-- TPO assigned to an input (R406): none for 7. -/
def parTpo (p : List (Nat × Nat)) (i : Nat) : Option Nat :=
  let k := parFld p (offSin i) 12 3
  if k < 4 then some k else none
def parTpPeriod (p : List (Nat × Nat)) (k : Nat) : Nat := parFld p (0x44 + 4 * k) 0 16
def parTpw (p : List (Nat × Nat)) (k : Nat) : Nat := parFld p (0x44 + 4 * k) 16 16

/-- The first index below `n` at which a rule is broken. -/
def firstBad (n : Nat) (f : Nat → Bool) : Option Nat := (List.range n).find? f

/-- T_SEND of a connection in microseconds (R407). -/
def State.tSend (s : State) (p : List (Nat × Nat)) (k : Nat) : Nat :=
  let per := parFld p (offConn k + 4) 0 16
  let m := parFld p (offConn k + 4) 16 3
  if parFld p (offConn k + 4) 31 1 = 0 then per * 500
  else
    let ns := if s.fld (F.CRS_CFG_SRC (s.fld (F.CT_CFG_CRS m))) = 0 then s.ctPeriod m
              else (Tab.get (fun _ => ⟨0, 0, 0, 0, 0, 0, []⟩) s.img.budget m).minStrokeNs
    per * ns / 1000

/-- The reason and offset for which a parameter set is refused (R407, R437); none for a valid set. -/
def State.parBad (s : State) (p : List (Nat × Nat)) : Option (Nat × Nat) :=
  let w (off : Nat) : Nat := parWord p off
  let f := parFld p
  let out (x lo hi : Nat) : Bool := decide (x < lo) || decide (hi < x)
  let sin (i : Nat) : Bool :=
    let mode := f (offSin i) 16 2; let tpo := f (offSin i) 12 3
    out (f (offSin i) 0 12) 25 2000 || (decide (3 < tpo) && tpo != 7) || mode == 3 || (mode != 0 && i % 2 == 1) ||
      out (w (offSin i + 4)) 10 3000 ||
      (mode != 0 && (f (offSin (i + 1)) 16 2 != 0 || f (offSin (i + 1)) 0 12 != f (offSin i) 0 12 ||
        f (offSin (i + 1)) 12 3 != tpo))
  let used := (List.range 4).filter (fun k => (List.range 16).any (fun i => parTpo p i == some k))
  let pmin := used.foldl (fun m k => if m = 0 ∨ parTpPeriod p k < m then parTpPeriod p k else m) 0
  let brk (b : Nat) : Bool :=
    f (offBrk b) 31 1 == 1 && (out (f (offBrk b + 8) 0 8) 1 168 || decide (1440 < f (offBrk b + 8) 8 16) ||
      out (w (offBrk b + 20)) 5 300 || decide (2000 < w (offBrk b + 24)))
  let conn (k : Nat) : Bool :=
    f (offConn k) 31 1 == 1 && (f (offConn k) 16 2 == 3 || out (f (offConn k + 8) 0 16) 1 1000 ||
      decide (10000 < f (offConn k + 8) 16 16) || f (offConn k + 12) 0 16 == 0 || out (f (offConn k + 12) 16 4) 1 16 ||
      f (offConn k + 4) 0 16 == 0)
  let item (j : Nat) : Bool := f (offItem j) 31 1 == 1 && decide (4 < f (offItem j) 12 3)
  let matrix (e : Nat × Nat) : Bool :=
    decide (offRow 0 ≤ e.1) && (List.range 8).any (fun i =>
      bit e.2 i && (
        let v := (e.1 - offRow 0) / 128; let u := 8 * ((e.1 - offRow 0) % 128) + i
        u == v || !parConflict p v u))
  let valve (v : Nat) : Bool :=
    f (offValve v) 2 1 == 1 && (if v < 64 then s.fld (F.VDR_CFG_MODE v) != 1
      else
        let j := f (offValve v) 4 13
        !(decide (j < 8192) && f (offItem j) 31 1 == 1 && f (offItem j) 10 1 == 1 && f (offItem j) 12 3 == 0 &&
          f (offItem j + 4) 16 4 == 15))
  let safety (j : Nat) : Bool := f (offItem j) 31 1 == 1 && f (offItem j) 11 1 == 0 && f (offItem j) 12 3 != 0
  let slow (k : Nat) : Bool :=
    f (offConn k) 31 1 == 1 && decide (f (offConn k + 8) 0 16 * 1000 < 20 * f (offConn k + 12) 0 16 + s.tSend p k)
  let at' (code : Nat) (g : Nat → Nat) (x : Option Nat) : Option (Nat × Nat) := x.map (fun i => (code, g i))
  if w 0 ≠ 0x504E4D41 ∨ f 4 0 16 ≠ 1 ∨ f 4 17 15 ≠ 0 ∨ w 8 ≠ parLen then some (1, 0)
  else if f 4 16 1 = 1 ∧ f 12 0 16 ≠ s.fld F.PVM_SWITCH_SW % 2 ^ 16 then some (2, 12)
  else if out (f 0x40 0 16) 1 3600 ∨ out (f 0x40 16 16) 100 500 then some (3, 0x40)
  else
    (at' 3 (fun k => 0x44 + 4 * k) (firstBad 4 (fun k => out (parTpPeriod p k) 1 1000 || out (parTpw p k) 50 1000))).or <|
    (at' 3 offSin (firstBad 16 sin)).or <|
    (at' 3 offFun (firstBad 4 (fun i => decide (8 < f (offFun i + 12) 16 4)))).or <|
    (at' 3 offBrk (firstBad 8 brk)).or <|
    (at' 3 offConn (firstBad 1024 conn)).or <|
    (at' 3 offItem (firstBad 8192 item)).or <|
    (at' 4 offSin (firstBad 16 (fun i => match parTpo p i with
      | some k => decide (10 * f (offSin i) 0 12 < parTpw p k + 50) | none => false))).or <|
    (at' 9 (fun k => 0x44 + 4 * k) (used.find? (fun k => parTpPeriod p k % pmin != 0))).or <|
    (if decide (1000 * pmin < (used.map (fun k => parTpw p k + 50)).sum) then some (9, 0x44) else none).or <|
    ((p.find? matrix).map (fun e => (5, e.1))).or <|
    (at' 6 offValve (firstBad 1024 valve)).or <|
    (at' 7 offItem (firstBad 8192 safety)).or <|
    (at' 8 offConn (firstBad 1024 slow))

/-! ## Flags, mailboxes and simple lookups -/

/-- Sets a bit of PVM_IRQ (R436). -/
def State.pvmIrq (s : State) (b : Nat) : State := s.setRbit Reg.PVM_IRQ b true

def State.pavState (s : State) : Nat := s.fld F.PVM_STATUS_STATE
/-- The commanded state of a valve. -/
def State.vcmd (s : State) (v : Nat) : Bool := s.rbit (Reg.PVM_VCMD (v / 32)) (v % 32)
def State.setVcmd (s : State) (v : Nat) (b : Bool) : State := s.setRbit (Reg.PVM_VCMD (v / 32)) (v % 32) b

/-- GO of a mailbox (R434): refused while BUSY. -/
def State.mbGo (s : State) (mb : Nat) : State :=
  if s.flag (F.PVM_MB_STATUS_BUSY mb) then s
  else (s.setFld (F.PVM_MB_STATUS_BUSY mb) 1).setFld (F.PVM_MB_STATUS_DONE mb) 0

/-- Request words of a mailbox. -/
def State.mbReq (s : State) (mb w : Nat) : Nat := s.num (Reg.PVM_MB_REQ mb w)

/-- A mailbox has a request of a code that has not been answered. -/
def State.mbHas (s : State) (mb code : Nat) : Bool :=
  s.flag (F.PVM_MB_STATUS_BUSY mb) && s.mbReq mb 0 % 256 == code && (Tab.find s.pvm.resp mb).isNone

/-- The pavilion's answer to a request: RESULT and detail. -/
def State.mbAnswer (s : State) (mb result detail : Nat) : State :=
  s.setPvm { s.pvm with resp := Tab.put s.pvm.resp mb (result, detail) }

/-- The answer reaches the mailbox: RSP, BUSY cleared, DONE set. -/
def State.mbDone (s : State) (mb : Nat) : State :=
  match Tab.find s.pvm.resp mb with
  | none => s
  | some r =>
    let s := s.setPvm { s.pvm with resp := Tab.del s.pvm.resp mb }
    let s := (s.setNum (Reg.PVM_MB_RSP mb 0) r.1).setNum (Reg.PVM_MB_RSP mb 1) r.2
    (s.setFld (F.PVM_MB_STATUS_BUSY mb) 0).setFld (F.PVM_MB_STATUS_DONE mb) 1

/-! ## Pages of records -/

def State.sinOf (s : State) (i : Nat) : Sin := Tab.get (fun _ => Sin.init) s.pvm.sins i
def State.setSin (s : State) (i : Nat) (x : Sin) : State := s.setPvm { s.pvm with sins := Tab.put s.pvm.sins i x }
def State.brkOf (s : State) (b : Nat) : Brk := Tab.get (fun _ => Brk.init) s.pvm.brks b
def State.setBrk (s : State) (b : Nat) (x : Brk) : State := s.setPvm { s.pvm with brks := Tab.put s.pvm.brks b x }
def State.connOf (s : State) (k : Nat) : SConn := Tab.get (fun _ => SConn.init) s.pvm.conns k
def State.setConn (s : State) (k : Nat) (x : SConn) : State := s.setPvm { s.pvm with conns := Tab.put s.pvm.conns k x }
/-- STATE of a connection: 0 CLOSED, 1 OPENING, 2 RUN, 3 RETIRED. -/
def State.connState (s : State) (k : Nat) : Nat := bitsOf (s.rd (Reg.PVM_CONN (k / 16))) (2 * (k % 16)) 2
def State.setConnState (s : State) (k v : Nat) : State :=
  if s.connState k = v then s else (s.setFld ⟨Reg.PVM_CONN (k / 16), 2 * (k % 16), 2⟩ v).pvmIrq 3

end Sys2Proof.Machine
end

