-- ==== Sys2Proof/Machine/Pvm.lean ====
section
/-! DEFINITION. The pavilion (chapter 14): safe inputs, functions, brakes, groups, the valve gate and the mailbox requests. -/
namespace Sys2Proof.Machine

/-! ## Safe inputs (R409 to R412) -/

/-- MODE of the pair an input belongs to, read at its even input (R406). -/
def State.pairMode (s : State) (i : Nat) : Nat := s.par (offSin (i - i % 2)) 16 2
/-- The channel shows no demand (R411). -/
def State.noDemand (s : State) (i : Nat) : Bool :=
  let q := (s.sinOf i).q
  if s.pairMode i = 2 ∧ i % 2 = 1 then !q else q
/-- The channels of an input or pair. -/
def State.channels (s : State) (i : Nat) : List Nat := if s.pairMode i = 0 then [i] else [i - i % 2, i - i % 2 + 1]
/-- The safe value of an input (R409, R411, R412). -/
def State.safeValue (s : State) (i : Nat) : Bool :=
  (s.channels i).all (fun c => s.noDemand c && (s.sinOf c).fault == 0)

/-- Shows the safe values and faults in PVM_SIN. -/
def State.syncSin (s : State) : State :=
  (List.range 16).foldl (fun s i =>
    (s.setRbit Reg.PVM_SIN i (s.safeValue i)).setRbit Reg.PVM_SIN (16 + i) ((s.channels i).any (fun c => (s.sinOf c).fault != 0))) s

/-- A fault of an input or its pair (R410 to R412). -/
def State.sinFault (s : State) (i code : Nat) : State :=
  let l := s.channels i
  if l.any (fun c => (s.sinOf c).fault != 0) then s
  else
    let shows := l.all (fun c => !s.noDemand c)
    let s := l.foldl (fun s c => s.setSin c { s.sinOf c with fault := code, demand := shows }) s
    (s.log 0x0D20 0 (l.headD i + code * 2 ^ 8)).syncSin

/-- The sample of one input (R409, R410). -/
def State.sinSample (s : State) (i : Nat) (raw : Bool) : State :=
  let x := s.sinOf i
  let own := match parTpo s.pvm.par i with | some k => bit s.pvm.pulse k | none => false
  let other := !own && s.pvm.pulse != 0 && (parTpo s.pvm.par i).isSome
  let lvl := raw && !own
  let x := { x with
    run := if x.cand == lvl then x.run + 1 else 1
    cand := lvl
    own := x.own || own
    ownHigh := if own then x.ownHigh && raw else x.ownHigh
    before := if s.pvm.pulse = 0 then raw else x.before }
  let s := s.setSin i x
  if other && !raw && x.q && x.before then s.sinFault i 2 else s

/-- SAFE_INPUT_SAMPLE (R409): the levels of the 16 pins. -/
def execSafeInputSample (levels : BitVec 16) (s : State) : Host.Outcome State Fault Refusal :=
  .next ((List.range 16).foldl (fun s i => s.sinSample i (bit levels.toNat i)) s)

/-- A fault clears once demand has shown on every channel and no demand shows again (R412). -/
def State.sinClear (s : State) (i : Nat) : State :=
  let l := s.channels i
  if l.all (fun c => (s.sinOf c).fault != 0 && (s.sinOf c).demand) && l.all (fun c => s.noDemand c) then
    l.foldl (fun s c => s.setSin c { s.sinOf c with fault := 0, demand := false }) s
  else s

/-- The functions whose RESET input is `i` (R406, R414). -/
def State.resetFuns (s : State) (i : Nat) : List Nat := (List.range 4).filter (fun f => s.par (offFun f) 16 4 == i)

/-- The qualified level of an input changes: the start of a pulse is kept, and a pulse of 0.1 s to 5 s of a RESET input noted (R414). -/
def State.sinEdge (s : State) (i : Nat) (q : Bool) : State :=
  let x := s.sinOf i
  let good := !q && s.lasted x.rose (100 * cycPerMs) && decide (s.time.cycle ≤ x.rose + 5000 * cycPerMs)
  let s := s.setSin i { x with q := q, rose := if q then s.time.cycle else x.rose }
  if good then s.setPvm { s.pvm with resets := s.pvm.resets ++ s.resetFuns i } else s

/-- Keeps since when the channels of a pair disagree (R411). -/
def State.pairWatch (s : State) (i : Nat) : State :=
  let b := i - i % 2
  if s.pairMode b = 0 then s
  else
    let x := s.sinOf b
    let apart := s.noDemand b != s.noDemand (b + 1)
    s.setSin b { x with since := if apart then (match x.since with | some t => some t | none => some s.time.cycle) else none }

/-- SAFE_INPUT_QUALIFY (R409, R412): the sampled level has stood for T_F. -/
def execSafeInputQualify (i : Fin 16) (s : State) : Host.Outcome State Fault Refusal :=
  let x := s.sinOf i
  if x.cand == x.q || decide (x.run < s.par (offSin i) 0 12) then .next s
  else
    let s := (s.sinEdge i x.cand).pairWatch i
    let l := s.channels i
    let s := if l.all (fun c => (s.sinOf c).fault != 0 && !s.noDemand c)
             then l.foldl (fun s c => s.setSin c { s.sinOf c with demand := true }) s else s
    .next (s.sinClear i).syncSin

/-- The test-pulse outputs that any input uses. -/
def State.tpoUsed (s : State) (k : Nat) : Bool := (List.range 16).any (fun i => parTpo s.pvm.par i == some k)

/-- The offset of TPO_k's pulse in its frame, in microseconds (R410). -/
def State.tpoOff (s : State) (k : Nat) : Nat := (((List.range k).filter s.tpoUsed).map (fun j => parTpw s.pvm.par j + 50)).sum

/-- TPO_k is due to pulse (R410): its pulse of the present TP_PERIOD lies here and has not begun.  DESIGN CHOICE (notes/assumptions/120.md): frames run
from START's end, and an output that no input uses pulses at the start of its TP_PERIOD. -/
def State.tpoDue (s : State) (k : Nat) : Bool :=
  let us := (s.time.cycle - s.pvm.frame0) / cycPerUs
  let per := parTpPeriod s.pvm.par k * 1000
  let at_ := us % per
  let off := if s.tpoUsed k then s.tpoOff k else 0
  decide (off ≤ at_) && decide (at_ < off + parTpw s.pvm.par k) && !bit s.pvm.pulse k &&
    (Tab.find s.pvm.pulsed k).all (fun t => decide ((t - s.pvm.frame0) / cycPerUs / per < us / per))

/-- TPO_k's pulse has lasted TPW. -/
def State.tpoOver (s : State) (k : Nat) : Bool :=
  bit s.pvm.pulse k && (Tab.find s.pvm.pulsed k).all (fun t => s.lasted t (parTpw s.pvm.par k * cycPerUs))

/-- TEST_PULSE (R410): a test-pulse output goes low, or high again; a closed input that read 1 throughout has a fault. -/
def execTestPulse (k : Fin 4) (low : Bool) (s : State) : Host.Outcome State Fault Refusal :=
  let mine := (List.range 16).filter (fun i => parTpo s.pvm.par i == some k.val)
  if !(if low then s.tpoDue k else s.tpoOver k) then .next s
  else
  let s := s.setPvm { s.pvm with pulse := putBit s.pvm.pulse k low, pulsed := if low then Tab.put s.pvm.pulsed k s.time.cycle else s.pvm.pulsed }
  if low then .next (mine.foldl (fun s i => s.setSin i { s.sinOf i with own := false, ownHigh := true }) s)
  else .next (mine.foldl (fun s i => if (s.sinOf i).own && (s.sinOf i).ownHigh && (s.sinOf i).q then s.sinFault i 1 else s) s)

/-- DISCREPANCY_TIMEOUT (R411): the channels of the pair have disagreed for longer than T_DISC. -/
def execDiscrepancyTimeout (i : Fin 16) (s : State) : Host.Outcome State Fault Refusal :=
  let b := i.val - i.val % 2
  if s.pairMode b ≠ 0 && s.noDemand b != s.noDemand (b + 1) &&
     s.lasted ((s.sinOf b).since.getD s.pvm.frame0 + 1) (parWord s.pvm.par (offSin b + 4) * cycPerMs) then .next (s.sinFault b 3)
  else .next s

/-! ## Functions, groups and permits (R413 to R415) -/

/-- A remote safety item reads 1 in a RUN connection (R413, R432). -/
def State.remoteOk (s : State) (j : Nat) : Bool :=
  s.connState (s.par (offItem j) 0 10) == 2 && (Tab.get (fun _ => (0, 0)) s.pvm.ins j).1 == 1

/-- The conditions of a function but for its latch (R413). -/
def State.funConds (s : State) (f : Nat) : Bool :=
  let mask := s.par (offFun f) 0 16
  let first := s.par (offFun f + 12) 0 13
  (List.range 16).all (fun i => !bit mask i || s.rbit Reg.PVM_SIN i) &&
    (List.range (s.par (offFun f + 12) 16 4)).all (fun i => s.remoteOk (first + i))

def State.funLatch (s : State) (f : Nat) : Bool := bit (s.fld F.PVM_FUNC_LATCH) f
def State.funOk (s : State) (f : Nat) : Bool := bit (s.fld F.PVM_FUNC_OK) f

/-- The axis of a brake, when it is in use. -/
def State.brkAxis (s : State) (b : Nat) : Option Nat := if s.par (offBrk b) 31 1 = 1 then some (s.par (offBrk b) 0 5) else none
/-- The axis is enabled. -/
def State.axisEnabled (s : State) (a : Nat) : Bool :=
  match s.axCrew a with
  | some n => s.axState n a != 0
  | none => false
def State.brkFault (s : State) (b : Nat) : Bool := bit (s.fld F.PVM_BRK_FAULT) b
def State.grpFault (s : State) (g : Nat) : Bool := bit (s.fld F.PVM_GRP_FAULT) g

/-- Bit `i` of a field set or cleared. -/
def State.setFldBit (s : State) (f : Fld) (i : Nat) (b : Bool) : State := s.setFld f (putBit (s.fld f) i b)

/-- A holding test ends with a code, 0 for passed (R419). -/
def State.brkTestEnd (s : State) (b code : Nat) : State :=
  let x := s.brkOf b
  match x.test with
  | none => s
  | some t =>
    let s := s.setBrk b { x with test := none, min := if code = 0 then 0 else x.min }
    let s := ((s.setFld (F.PVM_BT_RUNNING b) 0).setFld (F.PVM_BT_LAST b) code).pvmIrq 2
    if code = 0 then
      let s := (s.setFldBit F.PVM_BRK_DUE b false).setFldBit F.PVM_BRK_OVERDUE b false
      (s.setFld (F.PVM_BT_LEFT_MIN b) (s.par (offBrk b + 8) 0 8 * 60)).log 0x0D28 0 (b + t.slip % 2 ^ 24 * 2 ^ 8)
    else s.log 0x0D29 0 (b + code * 2 ^ 8)

/-- A demand of a function aborts the holding tests it covers (R419). -/
def State.demandTests (s : State) (f : Nat) : State :=
  (List.range 8).foldl (fun s b =>
    match s.brkAxis b with
    | some a => if (s.brkOf b).test.isSome && (f == 0 || bit (s.par (offFun f + 8) 0 32) a) then s.brkTestEnd b 4 else s
    | none => s) s

/-- One function in a pavilion cycle (R413, R414): a change to unsatisfied is a demand, but for the first evaluation. -/
def State.funCycle (s : State) (f : Nat) : State :=
  let manual := s.par (offFun f) 20 1 == 1
  let ok := s.funConds f && !(manual && s.funLatch f)
  let was := s.funOk f
  let s := s.setFldBit F.PVM_FUNC_OK f ok
  if was && !ok && s.pvm.evald then
    let s := if manual then s.setFldBit F.PVM_FUNC_LATCH f true else s
    ((s.log 0x0D21 0 f).pvmIrq 1).demandTests f
  else s

/-- FUNCTION_RESET_PULSE (R414): the falling edge of a RESET pulse of 0.1 s to 5 s. -/
def execFunctionResetPulse (f : Fin 4) (_u : Unit) (s : State) : Host.Outcome State Fault Refusal :=
  let mask := s.par (offFun f) 0 16
  if !s.pvm.resets.contains f.val then .next s
  else
    let s := s.setPvm { s.pvm with resets := s.pvm.resets.filter (fun x => x != f.val) }
    if s.funLatch f ∧ (List.range 16).all (fun i => !bit mask i || s.rbit Reg.PVM_SIN i) then
      .next ((s.setFldBit F.PVM_FUNC_LATCH f false).log 0x0D22 0 f)
    else .next s

/-- group_on (R415). -/
def State.groupOn (s : State) (g : Nat) : Bool :=
  s.pavState == 1 && s.oe && s.funOk 0 && s.par (offGrp g) 31 1 == 1 && !s.grpFault g &&
    (List.range 3).all (fun i => s.funOk (i + 1) || !bit (s.par (offFun (i + 1) + 4) 0 4) g)

/-- The demanding functions of a group. -/
def State.grpDemand (s : State) (g : Nat) : Nat :=
  ((List.range 4).filter (fun f => !s.funOk f && (f == 0 || bit (s.par (offFun f + 4) 0 4) g))).foldl (fun m f => m + 2 ^ f) 0

/-- One group in a pavilion cycle (R415, R420). -/
def State.groupCycle (s : State) (g : Nat) : State :=
  let on := s.groupOn g
  if on == bit (s.fld F.PVM_GRP_ON) g then s
  else
    let s := (s.setFldBit F.PVM_GRP_ON g on).pvmIrq 5
    let s := if on then s.log 0x0D24 0 g else s.log 0x0D23 0 (g + s.grpDemand g * 2 ^ 8)
    s.groupDrive g

/-- permit (R415). -/
def State.permit (s : State) (a : Nat) : Bool :=
  s.pavState == 1 && s.funOk 0 && (List.range 3).all (fun i => s.funOk (i + 1) || !bit (s.par (offFun (i + 1) + 8) 0 32) a) &&
    (List.range 8).all (fun b => s.brkAxis b != some a ||
      (!s.brkFault b && (!bit (s.fld F.PVM_BRK_OVERDUE) b || s.axisEnabled a || (s.brkOf b).test.isSome)))

/-- Energises or releases one brake (R416). -/
def State.brkCycle (s : State) (b : Nat) : State :=
  match s.brkAxis b with
  | none => s
  | some a =>
    let x := s.brkOf b
    let on := s.pavState == 1 && s.axisEnabled a && s.rbit Reg.PVM_PERMIT a && x.test.isNone && !s.brkFault b
    if on == x.on then s
    else
      let s := s.setBrk b { x with on := on, dis := 0, lowI := 0, since := if on then s.time.cycle else x.since, offAt := none }
      if on then s else s.setFldBit F.PVM_BRK_REL b false

/-- A fault of a brake output (R417). -/
def State.brkFaulted (s : State) (b cause : Nat) (fatal : Bool) : State :=
  let s := s.setFldBit F.PVM_BRK_FAULT b true
  let s := if fatal then s.fatal (.brake b) cause else s.transient (.brake b) cause
  let x := s.brkOf b
  (s.setBrk b { x with on := false, dis := 0, lowI := 0 }).setFldBit F.PVM_BRK_REL b false

/-- A fault of a group output (R417, R420, R421). -/
def State.grpFaulted (s : State) (g cause : Nat) (fatal : Bool) : State :=
  let s := s.setFldBit F.PVM_GRP_FAULT g true
  if fatal then s.fatal (.group g) cause else s.transient (.group g) cause

/-- The slip of a brake test at one pavilion cycle (R419). -/
def State.brkSlip (s : State) (b a : Nat) (sp ep : Int) : State :=
  match (s.brkOf b).test with
  | none => s
  | some t =>
    let ds := sp - t.sp0; let de := ep - t.ep0
    let g := s.par (offBrk b) 8 4
    let scale : Int := match s.fld (F.ENC_CFG_MODE g) with | 0 => 1 | 1 => 2 | _ => 4
    let cs := (s.axisOf a).s - t.s0
    let ce := toSigned 48 (ofSigned 48 (toSigned 48 (s.num (Reg.ENC_ACC_LO g) + 2 ^ 32 * s.fld (F.ENC_ACC_HI_ACC g)) - t.e0)) * scale
    let t := { t with hi := max t.hi ds, lo := min t.lo ds, slip := Nat.max t.slip de.natAbs }
    let s := s.setBrk b { s.brkOf b with test := some t }
    if s.par (offBrk b + 16) 0 32 < t.slip then s.brkTestEnd b 1
    else if 4 < (cs - ds).natAbs ∨ 4 < (ce - de).natAbs then s.brkTestEnd b 5
    else s

/-- Since when the feedback agrees with the off command (R417): `off`, it does now. -/
def State.offSince (s : State) (was : Option Nat) (off : Bool) : Option Nat :=
  if !off then none else match was with | some t => some t | none => some s.time.cycle

/-- The checks of one brake output in a cycle (R417, R419). -/
def State.brkMeasure (s : State) (b : Nat) (h l : Bool) (ma : Nat) (sp ep : Int) : State :=
  match s.brkAxis b with
  | none => s
  | some a =>
    let x := s.brkOf b
    let dis := if h != x.on || l != x.on then x.dis + 1 else 0
    let lowI := if x.on && decide (ma < s.par (offBrk b + 4) 0 16) then x.lowI + 1 else 0
    let s := s.setBrk b { x with dis := dis, lowI := lowI, sp := sp, ep := ep, offAt := s.offSince x.offAt (!x.on && !h && !l) }
    let s := if s.brkFault b then s
      else if 2 ≤ dis then s.brkFaulted b 2 true
      else if x.on && (decide (s.par (offBrk b + 4) 16 16 < ma) || decide (2600 < ma)) then s.brkFaulted b 3 false
      else if 4 ≤ lowI then s.brkFaulted b 4 false
      else s
    s.brkSlip b a sp ep

/-- The checks of one group output in a cycle (R417, R420): I_MAX is the output's rating. -/
def State.grpMeasure (s : State) (g : Nat) (h l : Bool) (ma imax : Nat) : State :=
  let on := bit (s.fld F.PVM_GRP_ON) g
  let dis := if h != on || l != on then Tab.get (fun _ => 0) s.pvm.grpDis g + 1 else 0
  let off := s.offSince (Tab.get (fun _ => none) s.pvm.grpOff g) (!on && !h && !l)
  let s := s.setPvm { s.pvm with grpDis := Tab.put s.pvm.grpDis g dis, grpOff := Tab.put s.pvm.grpOff g off }
  if s.grpFault g then s
  else if 2 ≤ dis then s.grpFaulted g 2 true
  else if on && decide (imax < ma) then s.grpFaulted g 3 false
  else s

/-- The conduction check of one local valve driver (R421). -/
def State.senseMeasure (s : State) (v : Nat) (sense : Bool) : State :=
  if s.vdrMode v ≠ 1 then s
  else
    let r := Tab.get (fun _ => (0, 0)) s.pvm.sense v
    let a := if sense && !s.vcmd v then r.1 + 1 else 0
    let b := if sense != s.vdrBit Reg.VDR_OUT v then r.2 + 1 else 0
    let s := s.setPvm { s.pvm with sense := Tab.put s.pvm.sense v (a, b) }
    let s := s.logIf (b == 2) 0x0D2B 0 v
    if a = 2 then (s.log 0x0D2A 0 v).grpFaulted (s.par (offValve v) 0 2) 2 true else s

/-- I_MAX of a group output (R420): its rating in mA (R567). -/
def sgcRating : Nat := 9000

/-- A unit of the send interval passes for connections of a kind (R406, R430): pavilion cycles, or strokes of crew `m`. -/
def State.connTick (s : State) (strokes : Bool) (m : Nat) : State :=
  s.setPvm { s.pvm with conns := s.pvm.conns.map (fun e =>
    if s.par (offConn e.1 + 4) 31 1 = b2n strokes ∧ (strokes = false ∨ s.par (offConn e.1 + 4) 16 3 = m) then (e.1, { e.2 with due := e.2.due + 1 }) else e) }

/-- What the end of a pavilion cycle counts: sets with T = 0 are due (R422), send intervals go on (R430). -/
def State.pavTick (s : State) : State :=
  let s := s.setPvm { s.pvm with armed := s.pvm.armed.map (fun a => { a with ripe := true }), evalAt := s.now.units }
  s.connTick false 0

/-- PAVILION_CYCLE (R415 to R421): in RUN the outputs and valves are checked, then functions, groups, permits and brakes computed. -/
def execPavilionCycle (x : PavMeas) (s : State) : Host.Outcome State Fault Refusal :=
  if s.pavState ≠ 1 then .next s
  else
    let s := x.brks.foldl (fun s b => if b.1 < 8 then s.brkMeasure b.1 b.2.1 b.2.2.1 b.2.2.2.1 b.2.2.2.2.1 b.2.2.2.2.2 else s) s
    let s := x.grps.foldl (fun s g => if g.1 < 4 then s.grpMeasure g.1 g.2.1 g.2.2.1 g.2.2.2 sgcRating else s) s
    let s := (List.range 64).foldl (fun s v => s.senseMeasure v (x.valves.contains v)) s
    let s := (List.range 4).foldl State.funCycle s
    let s := s.setPvm { s.pvm with evald := true }
    let s := (List.range 4).foldl State.groupCycle s
    let s := (List.range 32).foldl (fun s a => s.setRbit Reg.PVM_PERMIT a (s.permit a)) s
    .next ((List.range 8).foldl State.brkCycle s).pavTick

/-! ## Brakes (R416 to R419) -/

/-- BRAKE_RELEASE_TIMER (R416): T_REL_MS after the brake was energised. -/
def execBrakeReleaseTimer (b : Fin 8) (s : State) : Host.Outcome State Fault Refusal :=
  if (s.brkOf b).on && s.lasted (s.brkOf b).since (parWord s.pvm.par (offBrk b + 24) * cycPerMs) then .next (s.setFldBit F.PVM_BRK_REL b true)
  else .next s

/-- An output of the pavilion is on: brakes 0 to 7, groups 8 to 11. -/
def State.pavOutOn (s : State) (o : Nat) : Bool := if o < 8 then (s.brkOf o).on else bit (s.fld F.PVM_GRP_ON) (o - 8)

/-- BRAKE_OUTPUT_TEST (R417, R420): every OT_PERIOD_S an output that is on is tested; outputs 0 to 7 are the brakes, 8 to 11 the groups; `ok`, no switch
conducts in its off-pulse. -/
def execBrakeOutputTest (o : Fin 12) (ok : Bool) (s : State) : Host.Outcome State Fault Refusal :=
  if !s.pavOutOn o || !s.lasted ((Tab.find s.pvm.otAt o).getD s.pvm.frame0) (s.par 0x40 0 16 * 1000 * cycPerMs) then .next s
  else
    let s := s.setPvm { s.pvm with otAt := Tab.put s.pvm.otAt o s.time.cycle }
    if ok then .next s
    else if o.val < 8 then .next (s.brkFaulted o 1 true)
    else .next ((s.grpFaulted (o - 8) 1 true).groupCycle (o - 8))

/-- BRAKE_FAULT_CLEAR (R417, R420): the feedback has agreed with off for 1 s; a fault that retired the output stays. -/
def execBrakeFaultClear (o : Fin 12) (s : State) : Host.Outcome State Fault Refusal :=
  if o.val < 8 then
    match s.brkAxis o with
    | none => .next s
    | some a =>
      if s.brkFault o && s.inUse (.brake o) && !s.axisEnabled a && (s.brkOf o).offAt.any (fun t => s.lasted t (1000 * cycPerMs)) then .next (s.setFldBit F.PVM_BRK_FAULT o false) else .next s
  else
    let g := o.val - 8
    if s.grpFault g && s.inUse (.group g) && (Tab.get (fun _ => none) s.pvm.grpOff g).any (fun t => s.lasted t (1000 * cycPerMs)) then .next ((s.setFldBit F.PVM_GRP_FAULT g false).groupCycle g) else .next s

/-- The powered minutes at which a brake's test is due (R418). -/
def State.brkDueMin (s : State) (b : Nat) : Nat := s.par (offBrk b + 8) 0 8 * 60

/-- BRAKE_TEST_DUE (R418): the powered time has reached BT_INT_H. -/
def execBrakeTestDue (b : Fin 8) (s : State) : Host.Outcome State Fault Refusal :=
  if (s.brkAxis b).isSome && !bit (s.fld F.PVM_BRK_DUE) b && decide (s.brkDueMin b ≤ (s.brkOf b).min) then
    .next (((s.setFldBit F.PVM_BRK_DUE b true).setFld (F.PVM_BT_LEFT_MIN b) 0).log 0x0D26 0 b |>.pvmIrq 2)
  else .next s

/-- BRAKE_TEST_OVERDUE (R418): BT_GRACE_MIN more. -/
def execBrakeTestOverdue (b : Fin 8) (s : State) : Host.Outcome State Fault Refusal :=
  if (s.brkAxis b).isSome && !bit (s.fld F.PVM_BRK_OVERDUE) b && decide (s.brkDueMin b + s.par (offBrk b + 8) 8 16 ≤ (s.brkOf b).min) then
    .next ((s.setFldBit F.PVM_BRK_OVERDUE b true).log 0x0D27 0 b |>.pvmIrq 2)
  else .next s

/-- Shows the minutes left of a brake. -/
def State.brkShow (s : State) (b : Nat) : State :=
  if (s.brkAxis b).isSome then s.setFld (F.PVM_BT_LEFT_MIN b) (s.brkDueMin b - (s.brkOf b).min) else s

/-- BRAKE_TIMER_SAVE (R418): every minute one more minute of powered time for every brake, kept in the store. -/
def execBrakeTimerSave (s : State) : Host.Outcome State Fault Refusal :=
  if !s.lasted s.pvm.minAt (60000 * cycPerMs) then .next s
  else
    let s := s.setPvm { s.pvm with minAt := s.time.cycle }
    .next ((List.range 8).foldl (fun s b =>
      if (s.brkAxis b).isSome then (s.setBrk b { s.brkOf b with min := (s.brkOf b).min + 1 }).brkShow b else s) s)

/-- BRAKE_TEST_TIMEOUT (R419): HT_MAX_S after the start. -/
def execBrakeTestTimeout (b : Fin 8) (s : State) : Host.Outcome State Fault Refusal :=
  if (s.brkOf b).test.any (fun t => s.lasted t.at_ (parWord s.pvm.par (offBrk b + 20) * 1000 * cycPerMs)) then .next (s.brkTestEnd b 3) else .next s

/-- PVM_BT_START (R419, R434). -/
def execPvmBtStart (s : State) : Host.Outcome State Fault Refusal :=
  if !s.mbHas 1 5 then .next s
  else
    let b := s.mbReq 1 1
    match (if b < 8 then s.brkAxis b else none) with
    | none => .next (s.mbAnswer 1 4 0)
    | some a =>
      let rest := match s.axCrew a with | some n => decide (s.axState n a ≤ 1) | none => true
      if s.pavState ≠ 1 || s.brkFault b || !rest || (s.brkOf b).test.isSome then .next (s.mbAnswer 1 3 0)
      else
        let x := s.brkOf b
        let g := s.par (offBrk b) 8 4
        let t : BrkTest := ⟨s.time.cycle, x.sp, x.ep, (s.axisOf a).s, toSigned 48 (s.num (Reg.ENC_ACC_LO g) + 2 ^ 32 * s.fld (F.ENC_ACC_HI_ACC g)), 0, 0, 0⟩
        let s := s.setBrk b { x with on := false, dis := 0, lowI := 0, test := some t }
        let s := (s.setFldBit F.PVM_BRK_REL b false).setFld (F.PVM_BT_RUNNING b) 1
        .next (s.mbAnswer 1 0 0)

/-- PVM_BT_END (R419, R434). -/
def execPvmBtEnd (s : State) : Host.Outcome State Fault Refusal :=
  if !s.mbHas 1 6 then .next s
  else
    let b := s.mbReq 1 1
    if 8 ≤ b then .next (s.mbAnswer 1 4 0)
    else match (s.brkOf b).test with
      | none => .next (s.mbAnswer 1 3 0)
      | some t =>
        let n : Int := (s.par (offBrk b + 12) 0 32 : Nat)
        .next ((s.brkTestEnd b (if n ≤ t.hi ∧ t.lo ≤ -n then 0 else 2)).mbAnswer 1 0 0)

/-! ## Output enable, START and SAFE (R401, R402) -/

/-- No armed sets, every valve commanded de-energised. -/
def State.valvesClear (s : State) : State :=
  let s := s.setPvm { s.pvm with armed := [] }
  let s := (List.range 32).foldl (fun s k => s.setNum (Reg.PVM_VCMD k) 0) s
  s.setFld F.PVM_VARM_ARMED 0

/-- Withdraws output enable (R402): 1 SAFE, 2 system reset, 3 folly. -/
def State.oeWithdraw (s : State) (cause : Nat) : State :=
  if !s.oe then s
  else (((s.setFld F.PVM_STATUS_OE 0).pvmIrq 0).log 0x0D16 0 cause).outputsReset

/-- Every pavilion output is de-energised (R401). -/
def State.pavOff (s : State) : State :=
  let s := (List.range 4).foldl State.groupCycle s
  let s := s.setNum Reg.PVM_PERMIT 0
  let s := (List.range 8).foldl (fun s b => (s.brkTestEnd b 4).brkCycle b) s
  s.setFld F.PVM_BRK_REL 0

/-- The pavilion enters SAFE with a cause (R401); the pavilion safe reset follows. -/
def State.pavSafe (s : State) (cause : Nat) : State :=
  let s := (s.setFld F.PVM_STATUS_STATE 2).setFld F.PVM_STATUS_SAFE_CAUSE cause
  ((s.log 0x0D11 0 cause).oeWithdraw 1).pavOff

/-- A START of the pavilion begins (R401): every output is de-energised, latches and input faults are cleared. -/
def State.pavStart (s : State) : State :=
  let s := (s.setFld F.PVM_STATUS_STATE 0).pavOff
  let s := s.setPvm { s.pvm with sins := [], evald := false, pulse := 0, pulsed := [], resets := [] }
  (s.setNum Reg.PVM_FUNC 0).setNum Reg.PVM_SIN 0

/-- The result of START's checks (R401, R404): the SAFE cause, none for RUN.  START latches the switches and adopts the stored set. -/
def State.pavStartEnd (s : State) (switches : Nat) (selftest : Bool) : State × Option Nat :=
  let s := s.setFld F.PVM_SWITCH_SW switches
  let s := s.setPvm { s.pvm with par := s.pvm.store, stage := s.pvm.store, frame0 := s.time.cycle }
  let s := (List.range 8).foldl State.brkShow s
  let ok := (s.parBad s.pvm.par).isNone || (s.parBad s.pvm.par).any (fun x => x.1 == 2)
  let s := s.setPvm { s.pvm with valid := ok }
  let s := s.setNum Reg.PVM_PAR_CRC (parCrc s.pvm.par)
  let s := s.log 0x0D10 0 (s.fld F.PVM_SWITCH_SW)
  if !selftest then (s, some 7)
  else if switches / 2 ^ 21 % 8 ≠ 0 then (s, some 5)
  else if !ok then (s, some 6)
  else if s.par 4 16 1 = 1 ∧ s.par 12 0 16 ≠ switches % 2 ^ 16 then (s, some 8)
  else (s.setFld F.PVM_STATUS_STATE 1, none)

/-- SW_17 reads open. -/
def State.sw17 (s : State) : Bool := bit (s.fld F.PVM_SWITCH_SW) 16

/-- COVER_CHECK (R405). -/
def execCoverCheck (isOpen : Bool) (s : State) : Host.Outcome State Fault Refusal :=
  if isOpen == s.flag F.PVM_STATUS_COVER_OPEN then .next s
  else if isOpen then
    let s := s.setPvm { s.pvm with cover := s.pvm.cover + 1 }
    .next (((s.setFld F.PVM_STATUS_COVER_OPEN 1).log 0x0D13 0 (min s.pvm.cover 0xFFFFFFFF)).pvmIrq 6)
  else .next (((s.setFld F.PVM_STATUS_COVER_OPEN 0).log 0x0D14 0 0).pvmIrq 6)

/-! ## The valve gate (R422, R423) -/

/-- The valves a valve set names, from its words (R211); none when it is malformed: COUNT outside 1 to 256, a reserved bit set, or a
valve named twice. -/
def vsetOf (w : Nat → Nat) (off : Nat) : Option (List (Nat × Bool)) :=
  let h := w off
  let n := h % 2 ^ 16
  if h / 2 ^ 16 ≠ 0 ∨ n = 0 ∨ 256 < n then none
  else
    let e (i : Nat) : Nat := w (off + 1 + i / 2) / (if i % 2 = 0 then 1 else 2 ^ 16) % 2 ^ 16
    let l := (List.range n).map e
    if l.any (fun x => x / 2 ^ 10 % 32 != 0) || !(l.map (fun x => x % 1024)).Nodup then none
    else some (l.map (fun x => (x % 1024, bit x 15)))

/-- A commanded state, as the energised valves, with a set applied. -/
def applySet (on : List Nat) (vs : List (Nat × Bool)) : List Nat :=
  vs.foldl (fun on v => if v.2 then (if on.contains v.1 then on else v.1 :: on) else on.filter (fun x => x != v.1)) on

/-- The first pair of energised valves that conflict. -/
def State.firstConflict (s : State) (on : List Nat) : Option (Nat × Nat) :=
  let l := (List.range 1024).filter on.contains
  l.findSome? (fun u => (l.find? (fun v => decide (u < v) && parConflict s.pvm.par u v)).map (fun v => (u, v)))

/-- Armed sets in ascending switching time, equal times in order of arming. -/
def insArmed (a : ArmedSet) : List ArmedSet → List ArmedSet
  | [] => [a]
  | x :: l =>
    if a.due < x.due then a :: x :: l else x :: insArmed a l

/-- The first pair that conflicts in a state on the way (R422). -/
def State.walk (s : State) (on : List Nat) : List ArmedSet → Option (Nat × Nat)
  | [] => none
  | a :: l =>
    let on := applySet on a.vs
    match s.firstConflict on with
    | some p => some p
    | none => s.walk on l

/-- The energised valves. -/
def State.energised (s : State) : List Nat := (List.range 1024).filter s.vcmd

/-- The time a set armed now switches (R422): T, or for T = 0 the end of the next pavilion cycle, 500 µs after the last. -/
def State.setDue (s : State) (t : Option Stamp) : Nat :=
  match t with | some t => t.units | none => s.pvm.evalAt + 500000 * 2 ^ 24

/-- The reason a set is refused, with the pair of a conflict (R422). -/
def State.gateReason (s : State) (a : ArmedSet) : Option (Nat × Nat) :=
  let grp (v : Nat) : Nat := s.par (offValve v) 0 2
  if 16 ≤ s.pvm.armed.length then some (7, 0)
  else if !s.oe then some (8, 0)
  else if !s.holdsToken then some (9, 0)
  else if a.t.any (fun t => decide (t.ns < s.now.ns + 20000)) then some (6, 0)
  else if a.vs.any (fun v => s.par (offValve v.1) 2 1 == 0) then some (2, 0)
  else if a.vs.any (fun v => v.2 && !bit (s.fld F.PVM_GRP_ON) (grp v.1)) then some (3, 0)
  else if a.vs.any (fun v => decide (64 ≤ v.1) && s.connState (s.par (offItem (s.par (offValve v.1) 4 13)) 0 10) != 2) then some (4, 0)
  else if a.vs.any (fun v => s.pvm.armed.any (fun x => x.t == a.t && x.vs.any (fun y => y.1 == v.1))) then some (10, 0)
  else
    match s.walk s.energised ((s.pvm.armed ++ [a]).foldl (fun l x => insArmed x l) []) with
    | some p => some (1, p.1 * 2 ^ 8 + p.2 * 2 ^ 18)
    | none => none

/-- PVM_VSET (R422, R434): the request of a mailbox is armed or refused whole.  DEDUCED (notes/assumptions/120.md): T = 0 from mailbox 0, which only the
firmware mailbox may submit, is refused as LATE. -/
def execPvmVset (mb : Fin 2) (s : State) : Host.Outcome State Fault Refusal :=
  if !s.mbHas mb 1 then .next s
  else
    let w (i : Nat) : Nat := s.mbReq mb i
    let id := w 5 % 16
    let refuse (s : State) (r d : Nat) : State := (s.log 0x0D30 0 (r + id * 2 ^ 8)).mbAnswer mb 1 (r + d)
    match vsetOf w 6 with
    | none => .next (refuse s 5 0)
    | some vs =>
      let zero := w 1 == 0 && w 2 == 0 && w 3 == 0
      let t : Stamp := ⟨w 1 + w 3 % 2 ^ 16 * 2 ^ 32, w 2, w 3 / 2 ^ 16 * 256⟩
      let t : Option Stamp := if zero then none else some t
      let a : ArmedSet := ⟨id, w 4, t, vs, s.setDue t, false⟩
      match (if zero && mb.val == 0 then some (6, 0) else s.gateReason a) with
      | some r => .next (refuse s r.1 r.2)
      | none =>
        let s := s.setPvm { s.pvm with armed := s.pvm.armed ++ [a] }
        .next ((s.setFld F.PVM_VARM_ARMED s.pvm.armed.length).mbAnswer mb 0 0)

/-- The time of an armed set has come (R423). -/
def State.setCome (s : State) (a : ArmedSet) : Bool :=
  match a.t with | some t => decide (t.units ≤ s.now.units) | none => a.ripe

/-- PVM_VWITHDRAW (R423, R434): the armed sets of an ID whose time has not come; the detail says whether one was withdrawn. -/
def execPvmVwithdraw (mb : Fin 2) (s : State) : Host.Outcome State Fault Refusal :=
  if !s.mbHas mb 2 then .next s
  else
    let id := s.mbReq mb 1 % 16
    let mine (a : ArmedSet) : Bool := a.id == id && !s.setCome a
    let any := s.pvm.armed.any mine
    let s := s.setPvm { s.pvm with armed := s.pvm.armed.filter (fun a => !mine a) }
    let s := (s.setFld F.PVM_VARM_ARMED s.pvm.armed.length).logIf any 0x0D31 0 id
    .next (s.mbAnswer mb 0 (b2n any))

/-- The pavilion serves no parameter requests (R401): it is in SAFE with a cause other than 6.  DEDUCED (notes/assumptions/120.md): RESULT is STATE. -/
def State.parClosed (s : State) : Bool := s.pavState == 2 && s.fld F.PVM_STATUS_SAFE_CAUSE != 6

/-- PVM_PAR_WRITE (R401, R408, R434). -/
def execPvmParWrite (s : State) : Host.Outcome State Fault Refusal :=
  if !s.mbHas 1 3 then .next s
  else if s.parClosed then .next (s.mbAnswer 1 3 0)
  else if !s.sw17 then .next ((s.log 0x0D18 0 0).mbAnswer 1 2 0)
  else
    let off := s.mbReq 1 1; let n := s.mbReq 1 2
    if n = 0 ∨ 128 < n ∨ off % 4 ≠ 0 ∨ parLen < off + 4 * n ∨ s.mbReq 1 0 / 2 ^ 8 % 256 ≠ n + 2 then .next (s.mbAnswer 1 4 0)
    else
      let st := (List.range (4 * n)).foldl (fun p i => parPut p (off + i) (s.mbReq 1 (3 + i / 4) / 256 ^ (i % 4))) s.pvm.stage
      .next ((s.setPvm { s.pvm with stage := st }).mbAnswer 1 0 0)

/-- PVM_PAR_COMMIT (R401, R408, R434): a valid set is stored for the next START, which follows at once in SAFE with cause 6. -/
def execPvmParCommit (s : State) : Host.Outcome State Fault Refusal :=
  if !s.mbHas 1 4 then .next s
  else if s.parClosed then .next (s.mbAnswer 1 3 0)
  else if !s.sw17 then .next ((s.log 0x0D18 0 0).mbAnswer 1 2 0)
  else if parCrc s.pvm.stage ≠ s.mbReq 1 1 then .next (s.mbAnswer 1 4 0)
  else
    match s.parBad s.pvm.stage with
    | some r => .next ((s.log 0x0D18 0 (r.1 + r.2 * 2 ^ 8)).mbAnswer 1 1 r.1)
    | none =>
      let s := s.setPvm { s.pvm with store := s.pvm.stage }
      let s := (s.log 0x0D17 0 (parCrc s.pvm.store)).mbAnswer 1 0 0
      if s.pavState = 2 ∧ s.fld F.PVM_STATUS_SAFE_CAUSE = 6 then .next s.pavStart else .next s

/-- PVM_READMIT (R434): a brake, a group or a Serit-S connection. -/
def execPvmReadmit (s : State) : Host.Outcome State Fault Refusal :=
  if !s.mbHas 1 7 then .next s
  else
    let i := s.mbReq 1 2
    let r : Option Res := match s.mbReq 1 1 with
      | 0 => if i < 8 then some (.brake i) else none
      | 1 => if i < 4 then some (.group i) else none
      | 2 => if i < 1024 then some (.conn i) else none
      | _ => none
    match r with
    | none => .next (s.mbAnswer 1 4 0)
    | some r =>
      let t := match r with
        | .conn k => s.setConn k { s.connOf k with test := s.time.cycle }
        | _ => s
      .next ((t.readmit r).mbAnswer 1 (if s.health r = .retired then 0 else 3) 0)

/-- PVM_MAILBOX_RESPONSE (R434): the answer to a mailbox 1 request; an unknown code is a bad request. -/
def execPvmMailboxResponse (s : State) : Host.Outcome State Fault Refusal :=
  if !s.flag (F.PVM_MB_STATUS_BUSY 1) then .next s
  else
    let code := s.mbReq 1 0 % 256
    let s := if (code = 0 ∨ 7 < code) ∧ (Tab.find s.pvm.resp 1).isNone then s.mbAnswer 1 4 0 else s
    if (Tab.find s.pvm.resp 1).isSome then .next ((s.mbDone 1).pvmIrq 4) else .next s

end Sys2Proof.Machine
end

