-- ==== Sys2Proof/Machine/Serit.lean ====
section
/-! DEFINITION. Serit-S (R425 to R433) and the switching of armed valve sets (R423). -/
namespace Sys2Proof.Machine

/-! ## PDUs (R425) -/

/-- A Serit-S PDU: DST, SRC, SEQ, FLAGS and DATA. -/
structure Pdu where
  dst   : Nat
  src   : Nat
  seq   : Nat
  flags : Nat
  data  : List Nat
  deriving DecidableEq, Repr

/-- The connection key of a producer, a consumer and a session. -/
def connKey (src dst session : Nat) : Nat := crc32c (leBytes 2 src ++ leBytes 2 dst ++ leBytes 4 session)

/-- Header and DATA. -/
def Pdu.body (p : Pdu) : List Nat := leBytes 2 p.dst ++ leBytes 2 p.src ++ leBytes 2 p.seq ++ [p.flags, p.data.length] ++ p.data

/-- CRC over K, the header and DATA. -/
def Pdu.crc (p : Pdu) (session : Nat) : Nat := crc32c (leBytes 4 (connKey p.src p.dst session) ++ p.body)

/-- The bytes of a PDU in a session. -/
def Pdu.bytes (p : Pdu) (session : Nat) : List Nat := p.body ++ leBytes 4 (p.crc session)

/-- The PDUs of a container (R426), each with the CRC it carries; none for a malformed container. -/
def parsePdus : Nat → List Nat → Option (List (Pdu × Nat))
  | 0, l => if l.isEmpty then some [] else none
  | n + 1, l =>
    let len := l.getD 7 0
    if l.length < 12 + len ∨ len < 2 ∨ 64 < len then none
    else
      let p : Pdu := ⟨ofLe (l.take 2), ofLe ((l.drop 2).take 2), ofLe ((l.drop 4).take 2), l.getD 6 0, (l.drop 8).take len⟩
      match parsePdus n (l.drop (12 + len)) with
      | some r => some ((p, ofLe ((l.drop (8 + len)).take 4)) :: r)
      | none => none

def parseContainer (l : List Nat) : Option (List (Pdu × Nat)) :=
  let n := l.getD 1 0
  let len := ofLe ((l.drop 2).take 2)
  if l.getD 0 0 = 1 ∧ 1 ≤ n ∧ n ≤ 64 ∧ l.length = 4 + len then parsePdus n (l.drop 4) else none

/-- A container of PDUs sent on both LANs of a pair. -/
def State.sendPdus (s : State) (pair : Nat) (l : List (List Nat)) : State :=
  let body := l.flatten
  s.emit (.frame (0xD000 + pair) ([1, l.length] ++ leBytes 2 body.length ++ body))

/-! ## Items (R406, R432) -/

/-- The module's safety identity (R403). -/
def State.ownId (s : State) : Nat := s.fld F.PVM_SWITCH_SW % 2 ^ 16
/-- The peer of a connection. -/
def State.peerId (s : State) (k : Nat) : Nat := s.par (offConn k) 0 16
def State.connPair (s : State) (k : Nat) : Nat := s.par (offConn k) 16 2

/-- The enabled items of a connection in a direction (1 out). -/
def State.items (s : State) (k dir : Nat) : List Nat :=
  (List.range 8192).filter (fun j => s.par (offItem j) 31 1 == 1 && s.par (offItem j) 0 10 == k && s.par (offItem j) 10 1 == dir)

/-- Bytes an item takes from its BYTE on. -/
def itemSize (typ : Nat) : Nat := match typ with | 0 => 1 | 1 => 2 | 2 => 2 | _ => 4

/-- The raw number of an input item in the item bytes, as an integer; F32 as its word. -/
def State.itemRaw (s : State) (j : Nat) (l : List Nat) : Nat :=
  let b := s.par (offItem j) 16 6
  let v := ofLe ((l.drop b).take (itemSize (s.par (offItem j) 12 3)))
  if s.par (offItem j) 12 3 = 0 then b2n (bit v (s.par (offItem j) 22 3)) else v

def State.itemScale (s : State) (j : Nat) : Word := BitVec.ofNat 32 (s.par (offItem j + 12) 0 32)
def State.itemSubst (s : State) (j : Nat) : Word := BitVec.ofNat 32 (s.par (offItem j + 8) 0 32)
def State.itemSig (s : State) (j : Nat) : Nat := s.par (offItem j + 4) 0 12
def State.itemCrew (s : State) (j : Nat) : Nat := s.par (offItem j + 4) 12 3

/-- VALUE of an input item (R432). -/
def State.itemValue (s : State) (j raw : Nat) : Word :=
  match s.par (offItem j) 12 3 with
  | 4 => BitVec.ofNat 32 raw
  | 2 => ratF32 (toSigned 16 raw * f32R (s.itemScale j))
  | 3 => ratF32 (toSigned 32 raw * f32R (s.itemScale j))
  | _ => ratF32 (((raw : Int) : Rat) * f32R (s.itemScale j))

/-- A rational rounded to the nearest whole number, ties to even. -/
def roundEven (q : Rat) : Int :=
  let f := q.floor
  let r := q - f
  if r < 1 / 2 then f else if 1 / 2 < r then f + 1 else if f % 2 = 0 then f else f + 1

/-- The raw number of a process output item (R432): VALUE / SCALE, saturated; a division by a SCALE of 0, and a VALUE that is not
finite, give numbers the spec does not state. -/
def State.itemOutRaw (s : State) (j : Nat) (v : Word) : Nat × State :=
  let typ := s.par (offItem j) 12 3
  if typ = 4 then (v.toNat, s)
  else if !F32.isFinite v || F32.isZero (s.itemScale j) || !F32.isFinite (s.itemScale j) then
    let (n, s) := s.freshNat; (n % 2 ^ 32, s)
  else
    let z := roundEven (f32R v / f32R (s.itemScale j))
    match typ with
    | 0 => ((clampInt 0 1 z).toNat, s)
    | 1 => ((clampInt 0 65535 z).toNat, s)
    | 2 => (ofSigned 16 (clampInt (-32768) 32767 z), s)
    | _ => (ofSigned 32 (clampInt (-2147483648) 2147483647 z), s)

/-- The valve a remote output item switches. -/
def State.itemValve (s : State) (j : Nat) : Option Nat :=
  (List.range 1024).find? (fun v => decide (64 ≤ v) && s.par (offValve v) 2 1 == 1 && s.par (offValve v) 4 13 == j)

/-- The value of a safety output item, and 0 while output enable is withdrawn (R430); a valve of a cut group is sent as 0 (R420). -/
def State.safetyOut (s : State) (j : Nat) : Bool :=
  let src := s.par (offItem j + 4) 16 4
  s.oe && (match src with
    | 15 => match s.itemValve j with
      | some v => s.vcmd v && bit (s.fld F.PVM_GRP_ON) (s.par (offValve v) 0 2)
      | none => false
    | _ => if src < 4 then bit (s.fld F.PVM_GRP_ON) src else if 8 ≤ src ∧ src < 12 then s.funOk (src - 8) else false)

/-- The raw number of an output item and the state. -/
def State.outRaw (s : State) (j : Nat) : Nat × State :=
  if s.par (offItem j) 11 1 = 0 || s.par (offItem j + 4) 16 4 == 15 && (s.itemValve j).isSome then (b2n (s.safetyOut j), s)
  else s.itemOutRaw j (match Tab.find s.pvm.outs j with | some v => v | none => s.itemSubst j)

/-- The item bytes of a connection's PDU. -/
def State.outBytes (s : State) (k : Nat) : List Nat × State :=
  let l := s.items k 1
  let len := l.foldl (fun n j => Nat.max n (s.par (offItem j) 16 6 + itemSize (s.par (offItem j) 12 3))) 0
  let r := l.foldl (fun (r : Nat × State) j =>
    let (x, s) := r.2.outRaw j
    let sh := 8 * s.par (offItem j) 16 6 + (if s.par (offItem j) 12 3 = 0 then s.par (offItem j) 22 3 else 0)
    (r.1 ||| x * 2 ^ sh, s)) (0, s)
  (leBytes len r.1, r.2)

/-! ## Sending (R427, R430) -/

/-- Notes a SEQ sent with its time (R429); what was sent more than `keep` cycles before no ECHO may name. -/
def SConn.note (c : SConn) (seq t keep : Nat) : SConn :=
  { c with tx := seq, due := 0, sent := (seq, t) :: c.sent.filter (fun x => decide (t ≤ x.2 + keep)) }

/-- 2 × T_TR of a connection in fabric cycles (R429). -/
def State.transit (s : State) (k : Nat) : Nat := 2 * s.par (offConn k + 12) 0 16 * 10 * cycPerUs

/-- Sends one PDU of a RUN connection, TIMED with a network time if one is given (R430). -/
def State.seritSend (s : State) (k : Nat) (timed : Option Stamp) : State :=
  let c := s.connOf k
  let seq := (c.tx + 1) % 2 ^ 16
  let cmd := s.par (offConn k + 16) 0 1 == 1 && s.holdsToken
  let epoch := if s.fld F.PLK_STATUS_ROLE = 0 then 1 else s.num64 Reg.PLK_EPOCH_LO Reg.PLK_EPOCH_HI
  let (items, s) := s.outBytes k
  let data := leBytes 2 c.rx ++ (if cmd then leBytes 8 epoch else []) ++
    (match timed with | some t => wordBytes3 t | none => []) ++ items
  let p : Pdu := ⟨s.peerId k, s.ownId, seq, 2 * b2n cmd + 4 * b2n timed.isSome + 8 * b2n (!s.oe), data⟩
  let s := (s.setConn k (c.note seq s.time.cycle (s.transit k))).sendPdus (s.connPair k) [p.bytes c.session]
  if cmd && s.plk.owed.contains k then
    let s := s.setPlk { s.plk with owed := s.plk.owed.erase k }
    -- the first PDU with the new epoch is out on every connection (R452)
    if s.plk.owed.isEmpty then s.setNum Reg.PLK_GAP (min ((s.time.cycle - s.plk.lastHb) / 600) 0xFFFFFFFF) else s
  else s
where
  wordBytes3 (t : Stamp) : List Nat := leBytes 4 t.w0 ++ leBytes 4 t.w1 ++ leBytes 4 t.w2

/-- SERIT_PDU_SEND (R402, R430): a send interval has passed since the last PDU; in folly mode the connections lapse. -/
def execSeritPduSend (k : Fin 1024) (s : State) : Host.Outcome State Fault Refusal :=
  if s.pavState = 1 ∧ s.rpc.folly = 0 ∧ s.connState k = 2 ∧ s.par (offConn k + 4) 0 16 ≤ (s.connOf k).due then .next (s.seritSend k none) else .next s

/-- The OPEN PDU of a connection in a session (R425). -/
def State.openPdu (s : State) (k session : Nat) : Pdu :=
  let data := leBytes 2 0 ++ leBytes 4 session ++ leBytes 2 (s.par (offConn k + 8) 0 16) ++ leBytes 2 (s.par (offConn k + 8) 16 16) ++
    leBytes 2 (s.par (offConn k + 12) 0 16) ++ leBytes 2 (s.tSend s.pvm.par k)
  ⟨s.peerId k, s.ownId, 0, 1, data⟩

/-- SERIT_OPEN_SEND (R427): an OPENING connection, or one under test, with a fresh SESSION. -/
def execSeritOpenSend (k : Fin 1024) (s : State) : Host.Outcome State Fault Refusal :=
  if s.pavState = 1 ∧ s.rpc.folly = 0 ∧ (s.connState k = 1 ∨ (s.connState k = 3 ∧ s.health (.conn k) = .testing)) then
    let session := (s.pvm.session + 1) % 2 ^ 32
    let s := s.setPvm { s.pvm with session := session }
    let s := s.setConn k { (s.connOf k).note 0 s.time.cycle (s.transit k) with session := session, rx := 0 }
    .next (s.sendPdus (s.connPair k) [(s.openPdu k session).bytes session])
  else .next s

/-! ## Receiving (R426 to R429, R432) -/

/-- Shows RETIRED in the connection's STATE, or OPENING again. -/
def State.connRefresh (s : State) (k : Nat) : State :=
  if s.inUse (.conn k) then s else s.setConnState k 3

/-- Rejects a PDU (R427, R437): 1 CRC, 2 identity, 3 sequence; 1 and 3 are transients of cause 1. -/
def State.pduReject (s : State) (k code : Nat) : State :=
  let c := s.connOf k
  let s := s.setConn k { c with reject := satAdd 0xFFFFFFFF c.reject 1 }
  let s := s.logPerSecond (0x40000 + k) 0x0D3A (0xA000 + k) code
  if code = 2 then s else (s.transient (.conn k) 1).connRefresh k

/-- One input item of an accepted PDU (R432). -/
def State.itemIn (s : State) (j : Nat) (l : List Nat) (failsafe : Bool) : State :=
  let raw := s.itemRaw j l
  let v := s.itemValue j raw
  let s := s.setPvm { s.pvm with ins := Tab.put s.pvm.ins j (if failsafe then 0 else raw, v) }
  s.emit (.tok 10 (mkToken v (BitVec.ofNat 12 (s.itemSig j)) (if failsafe then 1 else 0) (s.num (Reg.CT_LAST_CSEQ (s.itemCrew j)))))

/-- A connection comes up in a session (R427). -/
def State.connUp (s : State) (k session : Nat) : State :=
  let s := s.setConn k { s.connOf k with session := session, tx := 0, rx := 0, rtt := 0, wasRun := true, wd := s.time.cycle, due := 0 }
  (s.setConnState k 2).log 0x0D38 (0xA000 + k) session

/-- A valid OPEN PDU (R427): the answer to the module's own, or one of the station's, which is answered; under test it ends the
exchange of R427. -/
def State.pduOpen (s : State) (k : Nat) (p : Pdu) (session : Nat) : State :=
  let testing := s.connState k == 3 && s.health (.conn k) == .testing
  let mine := (s.connState k == 1 || testing) && (s.connOf k).session == session && ofLe (p.data.take 2) == 0
  let s := if testing then s.testPassed (.conn k) else s
  if s.connState k = 3 && !testing then s
  else if mine then s.connUp k session
  else
    let s := s.logIf (s.connState k == 2) 0x0D39 (0xA000 + k) 2
    let s := (s.connUp k session).sendPdus (s.connPair k) [(s.openPdu k session).bytes session]
    s.setConn k ((s.connOf k).note 0 s.time.cycle (s.transit k))

/-- A data PDU of a RUN connection (R428, R429). -/
def State.pduData (s : State) (k : Nat) (p : Pdu) : State :=
  let c := s.connOf k
  let d := toSigned 16 (p.seq + 2 ^ 16 - c.rx)
  if d ≤ 0 then s
  else if (s.par (offConn k + 12) 16 4 : Int) < d then s.pduReject k 3
  else
    let echo := ofLe (p.data.take 2)
    let rtt := (c.sent.find? (fun x => x.1 == echo)).map (fun x => s.time.cycle - x.2)
    let good := rtt.any (fun x => decide (x ≤ s.transit k))
    let s := s.setConn k { c with
      rx := p.seq
      lost := satAdd 0xFFFFFFFF c.lost (d.toNat - 1)
      rtt := if good then Nat.max c.rtt (rtt.getD 0 / cycPerUs) else c.rtt
      wd := if good then s.time.cycle else c.wd }
    let off := 2 + (if bit p.flags 1 then 8 else 0) + (if bit p.flags 2 then 12 else 0)
    (s.items k 0).foldl (fun s j => s.itemIn j (p.data.drop off) (bit p.flags 3)) s

/-- One PDU of a container on a PRP pair (R426 to R428). -/
def State.pduIn (s : State) (pair : Nat) (x : Pdu × Nat) : State :=
  let p := x.1
  match (List.range 1024).find? (fun k => s.par (offConn k) 31 1 == 1 && s.peerId k == p.src && s.connPair k == pair) with
  | none => s
  | some k =>
    if s.health (.conn k) = .retired then s
    else if p.dst ≠ s.ownId then s.pduReject k 2
    else
      let isOpen := bit p.flags 0
      let session := if isOpen then ofLe ((p.data.drop 2).take 4) else (s.connOf k).session
      if x.2 ≠ p.crc session ∨ p.flags / 16 ≠ 0 ∨ (isOpen ∧ p.data.length < 14) then s.pduReject k 1
      else if isOpen then s.pduOpen k p session
      else if s.connState k = 2 then s.pduData k p else s

/-- SERIT_CONTAINER_RX (R426): a container from a PRP pair; a malformed one is dropped whole. -/
def execSeritContainerRx (pair : Fin 3) (bytes : List Byte) (s : State) : Host.Outcome State Fault Refusal :=
  if s.pavState ≠ 1 ∨ s.rpc.folly ≠ 0 then .next s
  else match parseContainer (bytes.map BitVec.toNat) with
    | none => .next s
    | some l => .next (l.foldl (fun s p => s.pduIn pair p) s)

/-- SERIT_WD_EXPIRE (R427, R429, R433): T_WD_MS after the last restart of the watchdog. -/
def execSeritWdExpire (k : Fin 1024) (s : State) : Host.Outcome State Fault Refusal :=
  if s.connState k = 2 ∧ s.lasted (s.connOf k).wd (s.par (offConn k + 8) 0 16 * cycPerMs) then
    let s := (s.setConnState k 1).log 0x0D39 (0xA000 + k) 1
    .next ((s.transient (.conn k) 2).connRefresh k)
  else .next s

/-- The dropout tokens of the stations that do not answer, at a stroke start of crew `m` (R433). -/
def State.seritDropout (s : State) (m cseq : Nat) : State :=
  (List.range 8192).foldl (fun s j =>
    if s.par (offItem j) 31 1 = 1 && s.par (offItem j) 10 1 == 0 && s.itemCrew j == m && s.par (offItem j) 11 1 == 1 then
      let k := s.par (offItem j) 0 10
      if (s.connOf k).wasRun && s.connState k != 2 then
        let v := if s.par (offItem j + 4) 15 1 = 1 then (Tab.get (fun _ => (0, s.itemSubst j)) s.pvm.ins j).2 else s.itemSubst j
        s.emit (.tok 10 (mkToken v (BitVec.ofNat 12 (s.itemSig j)) 1 cseq))
      else s
    else s) s

/-- SERIT_OUTPUT_TOKEN (R432): a token for the output items of its SIG. -/
def execSeritOutputToken (link : Nat) (t : Token) (s : State) : Host.Outcome State Fault Refusal :=
  .next ((List.range 8192).foldl (fun s j =>
    if s.par (offItem j) 31 1 = 1 && s.par (offItem j) 10 1 == 1 && s.itemSig j == t.sig.toNat && s.par (offItem j) 11 1 == 1 then
      let (c, s) := s.check link (s.itemSubst j) t
      let s := s.logIf (!t.ok) 0x0D3C (0xA000 + s.par (offItem j) 0 10) t.sig.toNat
      s.setPvm { s.pvm with outs := Tab.put s.pvm.outs j c.value }
    else s) s)

/-- The connections after a START: enabled ones open, the others are closed (R427). -/
def State.seritStart (s : State) : State :=
  (List.range 1024).foldl (fun s k =>
    let s := if (Tab.find s.pvm.conns k).isSome then s.setConn k SConn.init else s
    s.setConnState k (if s.par (offConn k) 31 1 = 0 then 0 else if s.inUse (.conn k) then 1 else 3)) s

/-! ## Switching (R423) -/

/-- One valve of a set that switches: a local driver is commanded, a remote item changes. -/
def State.switchValve (s : State) (v : Nat × Bool) : State :=
  let s := s.setVcmd v.1 v.2
  if v.1 < 64 then s.valveCommand v.1 v.2 else s

/-- The connections a set's remote valves are on. -/
def State.setConns (s : State) (vs : List (Nat × Bool)) : List Nat :=
  (List.range 1024).filter (fun k => vs.any (fun v => decide (64 ≤ v.1) && s.par (offItem (s.par (offValve v.1) 4 13)) 0 10 == k))

/-- Switches one armed set: its valves, then the command PDUs that carry T (R423, R430). -/
def State.switchSet (s : State) (a : ArmedSet) : State :=
  let s := a.vs.foldl State.switchValve s
  (s.setConns a.vs).foldl (fun s k => if s.connState k = 2 then s.seritSend k a.t else s) s

/-- VSET_SWITCH (R402, R423): the time of the earliest armed set with an ID has come; sets of that ID with the same time switch with it, in
order of arming. -/
def execVsetSwitch (id : Fin 16) (s : State) : Host.Outcome State Fault Refusal :=
  let mine := s.pvm.armed.filter (fun a => a.id == id.val)
  match mine.foldl (fun l x => insArmed x l) [] with
  | [] => .next s
  | a :: _ =>
    if !s.oe || !s.setCome a then .next s
    else
    let due := mine.filter (fun x => x.t == a.t)
    let s := s.setPvm { s.pvm with armed := s.pvm.armed.filter (fun x => !due.contains x) }
    let s := s.setFld F.PVM_VARM_ARMED s.pvm.armed.length
    .next (due.foldl State.switchSet s)

end Sys2Proof.Machine
end

