-- ==== Sys2Proof/Machine/Can.lean ====
section
/-! DEFINITION. The CAN controllers (chapter 12).  `n` is a controller, `b` a TX buffer. -/
namespace Sys2Proof.Machine

def State.canOf (s : State) (n : Nat) : CanState := Tab.get (fun _ => CanState.init) s.cans n
def State.setCan (s : State) (n : Nat) (c : CanState) : State := { s with cans := Tab.put s.cans n c }

/-- A controller in use that takes part in the bus (R354, R369, R373, R495). -/
def State.canUp (s : State) (n : Nat) : Bool :=
  s.flag (F.CAN_CTRL_EN n) && s.inUse (.can n) && !s.frozen (152 + n) && decide (s.fld (F.CAN_STATUS_STATE n) ≤ 1)
/-- Fabric cycles of an arbitration-phase bit (R355): (1 + SEG1 + SEG2) quanta of BRP periods of the 120 MHz protocol clock. -/
def State.canBit (s : State) (n : Nat) : Nat :=
  let w := s.rd (Reg.CAN_NBT n)
  (bitsOf w 0 9 + 1) * (bitsOf w 9 8 + bitsOf w 17 7 + 3) * 5
/-- Sets one bit of CAN_IRQ. -/
def State.canIrq (s : State) (n b : Nat) : State := s.setRbit (Reg.CAN_IRQ n) b true

/-! ## TX elements and their order (R365 to R367) -/

/-- Word `w` of TX buffer `b`. -/
def State.txw (s : State) (n b w : Nat) : Nat := s.num (Reg.CAN_TXB n b w)
def State.txPend (s : State) (n b : Nat) : Bool := s.rbit (Reg.TXB_PEND n) b
def State.txMapped (s : State) (n b : Nat) : Bool := s.rbit (Reg.TXB_MAPPED n) b
def State.txLinked (s : State) (n b : Nat) : Bool := (s.canOf n).chain.contains b

/-- The element of buffer `b` keeps R365. -/
def State.txElemOk (s : State) (n b : Nat) : Bool :=
  let w0 := s.txw n b 0; let w1 := s.txw n b 1
  let len := w1 % 2 ^ 7; let fdf := bit w1 8
  !bit w0 31 && (bit w0 29 || decide (w0 % 2 ^ 29 < 2 ^ 11)) && !(bit w0 30 && fdf) &&
    (decide (len ≤ 8) || (fdf && [12, 16, 20, 24, 32, 48, 64].contains len)) && !bit w1 7 && w1 / 2 ^ 11 % 2 ^ 13 == 0 &&
    (!fdf || s.flag (F.CAN_CTRL_FD_EN n)) && (!bit w1 9 || s.flag (F.CAN_CTRL_BRS_EN n)) && s.txw n b 2 == 0 && s.txw n b 3 == 0

/-- The rank of a frame in arbitration (R367): 11 leading bits, base before extended, the other bits, data before remote. -/
def State.txRank (s : State) (n b : Nat) : Nat :=
  let w := s.txw n b 0; let id := w % 2 ^ 29
  if bit w 29 then (id / 2 ^ 18) * 2 ^ 20 + 2 ^ 19 + id % 2 ^ 18 * 2 + b2n (bit w 30)
  else id % 2 ^ 11 * 2 ^ 20 + b2n (bit w 30)

/-- The first of a list of buffers in rank, the lower index among equals. -/
def State.firstRanked (s : State) (n : Nat) : List Nat → Option Nat
  | [] => none
  | b :: l =>
    match s.firstRanked n l with
    | none => some b
    | some c => if s.txRank n c < s.txRank n b then some c else some b

/-- The buffers that take part in the order: pending ones, of the chain only its head. -/
def State.txContend (s : State) (n : Nat) : List Nat :=
  (List.range 32).filter (fun b => s.txPend n b && (!s.txLinked n b || (s.canOf n).chain.head? == some b))

/-- The buffer whose frame went on the bus with a start of frame at `t`: the first in rank of those requested by then.  None of a controller that sends
nothing: one in LISTEN, off the bus or in its suspension (R354, R369, R370). -/
def State.onBus (s : State) (n : Nat) (t : Stamp) : Option Nat :=
  if !s.canUp n || s.fld (F.CAN_CTRL_MODE n) == 1 || (s.canOf n).suspend.isSome then none
  else s.firstRanked n ((s.txContend n).filter (fun b => decide (Tab.get (fun _ => 0) (s.canOf n).reqAt b ≤ t.units)))

/-- Shows the chain in TXC_STATUS. -/
def State.syncTxChain (s : State) (n : Nat) : State :=
  let l := (s.canOf n).chain
  let s := s.setFld (F.TXC_STATUS_COUNT n) l.length
  match l.head?, l.getLast? with
  | some h, some t => (s.setFld (F.TXC_STATUS_HEAD n) h).setFld (F.TXC_STATUS_TAIL n) t
  | _, _ => s

/-- A buffer becomes pending now. -/
def State.txRequest (s : State) (n b : Nat) : State :=
  let c := s.canOf n
  (s.setCan n { c with reqAt := Tab.put c.reqAt b s.now.units }).setRbit (Reg.TXB_PEND n) b true

/-- The frame of a buffer ends on the bus: map bytes held for it are written, so that a retry carries the newest values (R375). -/
def State.heldWrite (s : State) (n b : Nat) : State :=
  let c := s.canOf n
  (c.held.filter (fun x => x.1 == b)).foldl (fun s x => s.setFld ⟨Reg.CAN_TXB n b (4 + x.2.1 / 4), 8 * (x.2.1 % 4), 8⟩ x.2.2)
    (s.setCan n { c with held := c.held.filter (fun x => x.1 != b) })

/-- A buffer is no longer pending: it leaves the chain. -/
def State.txEnd (s : State) (n b : Nat) : State :=
  let s := s.heldWrite n b
  let c := s.canOf n
  let s := s.setCan n { c with
    chain := c.chain.filter (fun x => x != b), canc := c.canc.filter (fun x => x != b), reqAt := Tab.del c.reqAt b }
  (s.setRbit (Reg.TXB_PEND n) b false).syncTxChain n

/-- 0x0B13 is logged with its delay (R371). -/
def State.leadEvent (s : State) (n detail : Nat) : State :=
  (s.setCan n { s.canOf n with boAt := none, lead := none }).log 0x0B13 (0x6000 + n) detail

/-- A request is withdrawn or not retried (R366, R371): CANCELLED, and a lead frame that is gone reports so once recovery has ended. -/
def State.txCancelled (s : State) (n b : Nat) : State :=
  let s := ((s.txEnd n b).setRbit (Reg.TXB_CANCELLED n) b true).canIrq n 4
  let c := s.canOf n
  if c.lead = some b then
    let s := s.setCan n { c with lead := none }
    if c.boAt.isSome ∧ s.fld (F.CAN_STATUS_STATE n) ≠ 2 then s.leadEvent n 0xFFFFFFFF else s
  else s

/-- The lead frame's start of frame (R371). -/
def State.leadSof (s : State) (n b : Nat) (t : Stamp) : State :=
  match (s.canOf n).boAt with
  | some t0 => if (s.canOf n).lead = some b then s.leadEvent n (min 0xFFFFFFFE ((t.ns - t0) / 1000)) else s
  | none => s

/-- CAN_TX_REQUEST (R366). -/
def execCanTxRequest (n : Fin 8) (mask : Word) (s : State) : Host.Outcome State Fault Refusal :=
  .next (((List.range 32).filter (fun b => bit mask.toNat b)).foldl (fun s b =>
    if s.txLinked n b || s.txMapped n b || !s.txElemOk n b || !s.inUse (.can n) then
      if s.txPend n b && !s.txLinked n b then s else s.canIrq n 17
    else if s.txPend n b then s
    else s.txRequest n b) s)

/-- CAN_TX_CANCEL (R366): `sof` is the start of frame of the frame of this controller that is on the bus, if one is. -/
def execCanTxCancel (n : Fin 8) (mask : Word) (sof : Option Stamp) (s : State) : Host.Outcome State Fault Refusal :=
  .next (((List.range 32).filter (fun b => bit mask.toNat b)).foldl (fun s b =>
    if !s.txPend n b then s
    else if sof.any (fun t => s.onBus n t == some b) then
      let c := s.canOf n
      if c.canc.contains b then s else s.setCan n { c with canc := b :: c.canc }
    else s.txCancelled n b) s)

/-- CAN_TXC_APPEND (R367). -/
def execCanTxcAppend (n : Fin 8) (b : Fin 32) (s : State) : Host.Outcome State Fault Refusal :=
  if !s.flag (F.CAN_CTRL_CHAIN_EN n) then .next s
  else if s.txPend n b || s.txMapped n b || s.txLinked n b || !s.txElemOk n b || !s.inUse (.can n) then .next (s.canIrq n 17)
  else
    let s := s.txRequest n b
    .next ((s.setCan n { s.canOf n with chain := (s.canOf n).chain ++ [b.val] }).syncTxChain n)

/-! ## Index rings (R364, R368) -/

/-- Frees the elements of a ring up to an index: STATUS has FULL, PUT, GET and FILL as RXF_s_STATUS. -/
def State.ringAck (s : State) (a i : Nat) : State :=
  let f (lo w : Nat) := s.fld ⟨a, lo, w⟩
  let fill := if f 15 1 = 1 then 32 else f 0 5
  let k := (i + 32 - f 5 5) % 32 + 1
  if k ≤ fill then ((s.setFld ⟨a, 5, 5⟩ ((i + 1) % 32)).setFld ⟨a, 15, 1⟩ 0).setFld ⟨a, 0, 5⟩ (fill - k) else s

/-- The ring takes one more element; its slot. -/
def State.ringPut (s : State) (a : Nat) : Nat × State :=
  let f (lo w : Nat) := s.fld ⟨a, lo, w⟩
  let fill := f 0 5 + 1
  (f 10 5, ((s.setFld ⟨a, 10, 5⟩ ((f 10 5 + 1) % 32)).setFld ⟨a, 15, 1⟩ (b2n (fill == 32))).setFld ⟨a, 0, 5⟩ (fill % 32))

/-- CAN_RXF_ACK (R364). -/
def execCanRxfAck (n : Fin 8) (f : Fin 2) (i : Fin 32) (s : State) : Host.Outcome State Fault Refusal :=
  .next (s.ringAck (Reg.RXF_STATUS n f) i)

/-- CAN_TXJ_ACK (R368). -/
def execCanTxjAck (n : Fin 8) (i : Fin 32) (s : State) : Host.Outcome State Fault Refusal :=
  .next (s.ringAck (Reg.TXJ_STATUS n) i)

/-! ## Error states (R369 to R373) -/

/-- A health step of a controller: its flag follows a change, and a retired controller's RX buffers become EMPTY (R362). -/
def State.canHealth (s : State) (n : Nat) (f : State → State) : State :=
  let before := s.health (.can n)
  let s := f s
  let s := if s.health (.can n) = before then s else s.canIrq n 18
  if before != .retired && s.health (.can n) == .retired then
    [0, 1].foldl (fun s g => ((s.setNum (Reg.RXB_NEW n g) 0).setNum (Reg.RXB_OVW n g) 0).setNum (Reg.RXB_LOCK n g) 0) s
  else s

/-- Shows TEC and REC, and EW with its flag. -/
def State.showErr (s : State) (n : Nat) : State :=
  let c := s.canOf n
  let s := ((s.setFld (F.CAN_STATUS_TEC n) (min 255 c.tec)).setFld (F.CAN_STATUS_REC n) (min 127 c.rec_)).setFld (F.CAN_STATUS_RP n)
    (b2n (decide (128 ≤ c.rec_)))
  let ew := decide (96 ≤ c.tec) || decide (96 ≤ c.rec_)
  if s.flag (F.CAN_STATUS_EW n) = ew then s else (s.setFld (F.CAN_STATUS_EW n) (b2n ew)).canIrq n 6

/-- Entry to BUS_OFF (R371). -/
def State.busOff (s : State) (n : Nat) : State :=
  let lead := s.firstRanked n (s.txContend n)
  let s := ((s.setFld (F.CAN_STATUS_STATE n) 2).canIrq n 8).count (Reg.CAN_BOFF n) 1
  let abo := s.flag (F.CAN_CTRL_ABO n)
  let lead := if abo then none else lead
  let s := s.log 0x0B12 (0x6000 + n) (lead.getD 0x1F)
  let s := s.setCan n { s.canOf n with
    boAt := some s.now.ns, lead := lead, recov := if s.flag (F.CAN_CTRL_AUTO_REC n) then some s.time.cycle else none,
                           suspend := none }
  let s := if abo then ((List.range 32).filter (s.txPend n)).foldl (fun s b => s.txCancelled n b) s else s
  s.canHealth n (fun s => s.transient (.can n) 1)

/-- The error state that TEC and REC give (R369). -/
def State.errState (s : State) (n : Nat) : State :=
  let s := s.showErr n
  let c := s.canOf n; let st := s.fld (F.CAN_STATUS_STATE n)
  if 1 < st then s
  else if 255 < c.tec then s.busOff n
  else
    let p := decide (128 ≤ c.tec) || decide (128 ≤ c.rec_)
    if p && st == 0 then
      ((s.setFld (F.CAN_STATUS_STATE n) 1).canIrq n 7).log 0x0B10 (0x6000 + n) (c.tec % 256 + c.rec_ % 256 * 2 ^ 8)
    else if !p && st == 1 then ((s.setFld (F.CAN_STATUS_STATE n) 0).canIrq n 7).log 0x0B11 (0x6000 + n) 0
    else s

/-- CAN_BUS_ERROR (R366, R369, R371, R372): `sof` is the start of frame of this controller's own frame, if that met the error. -/
def execCanBusError (n : Fin 8) (e : CanErr) (sof : Option Stamp) (s : State) : Host.Outcome State Fault Refusal :=
  if !s.canUp n then .next s
  else
    let s : State := match sof.bind (fun t => (s.onBus n t).map (fun b => (b, t))) with
      | some (b, t) =>
        let s := s.leadSof n b t
        if s.flag (F.CAN_CTRL_DAR n) || (s.canOf n).canc.contains b then s.txCancelled n b else s.heldWrite n b
      | none => s
    let c := s.canOf n
    let c := match e with
      | .tx8 => { c with tec := c.tec + 8 }
      | .tx0 => c
      | .rx1 => { c with rec_ := c.rec_ + 1 }
      | .rx8 => { c with rec_ := c.rec_ + 8 }
    .next ((s.setCan n c).errState n)

/-- CAN_RECOVER (R371). -/
def execCanRecover (n : Fin 8) (s : State) : Host.Outcome State Fault Refusal :=
  if s.fld (F.CAN_STATUS_STATE n) = 2 ∧ (s.canOf n).recov = none then .next (s.setCan n { s.canOf n with recov := some s.time.cycle }) else .next s

/-- CAN_RECOVERY_DONE (R371, R377): 128 × 11 recessive bits take at least 1 408 bit times. -/
def execCanRecoveryDone (n : Fin 8) (s : State) : Host.Outcome State Fault Refusal :=
  if s.fld (F.CAN_STATUS_STATE n) ≠ 2 || !(s.canOf n).recov.any (fun t => s.lasted t (1408 * s.canBit n)) then .next s
  else
    let s := s.setCan n { s.canOf n with tec := 0, rec_ := 0, recov := none }
    let s := ((s.setFld (F.CAN_STATUS_STATE n) 0).canIrq n 9).showErr n
    .next (if (s.canOf n).lead.isNone then s.leadEvent n 0xFFFFFFFF else s)

/-- CAN_INTEGRATION_DONE (R354, R369). -/
def execCanIntegrationDone (n : Fin 8) (s : State) : Host.Outcome State Fault Refusal :=
  if s.fld (F.CAN_STATUS_STATE n) = 3 ∧ s.flag (F.CAN_CTRL_EN n) ∧ s.inUse (.can n) then .next (s.setFld (F.CAN_STATUS_STATE n) 0) else .next s

/-- CAN_SUSPEND_END (R370): 8 recessive bits after the frame. -/
def execCanSuspendEnd (n : Fin 8) (s : State) : Host.Outcome State Fault Refusal :=
  if (s.canOf n).suspend.any (fun t => s.lasted t (8 * s.canBit n)) then .next (s.setCan n { s.canOf n with suspend := none }) else .next s

/-- CAN_TRANSCEIVER_FAULT (R373): only CAN_0 to CAN_3 have integrated transceivers. -/
def execCanTransceiverFault (n : Fin 8) (s : State) : Host.Outcome State Fault Refusal :=
  if n.val < 4 then .next (s.canHealth n (fun s => s.transient (.can n) 2)) else .next s

/-- CAN_READMIT (R373). -/
def execCanReadmit (n : Fin 8) (s : State) : Host.Outcome State Fault Refusal :=
  .next (s.canHealth n (fun s => s.readmit (.can n)))

/-- An uncorrectable error in the message RAM at a RAM offset (R358, R373). -/
def State.canEcc (s : State) (n off : Nat) : State :=
  ((s.canIrq n 15).log 0x0B18 (0x6000 + n) off).canHealth n (fun s => s.fatal (.can n) 3)

/-! ## Completion (R366 to R370) -/

/-- A journal entry (R368). -/
def State.journal (s : State) (n b : Nat) (t : Stamp) : State :=
  if s.flag (F.TXJ_STATUS_FULL n) then (s.canIrq n 16).countFld (F.TXJ_STATUS_LOST n) 1
  else
    let (e, s) := s.ringPut (Reg.TXJ_STATUS n)
    let w1 := s.txw n b 1
    let w1 := w1 % 2 ^ 7 + w1 / 2 ^ 8 % 4 * 2 ^ 8 + b * 2 ^ 16 + b2n (s.txLinked n b) * 2 ^ 21 + w1 / 2 ^ 24 * 2 ^ 24
    (([s.txw n b 0, w1, t.w0, t.w1, t.w2, 0, 0, 0].zipIdx).foldl (fun s x => s.setNum (Reg.CAN_TXJ n e x.2) x.1) s).canIrq n 5

/-- CAN_ARBITRATION_LOST (R366): the frame whose start of frame was at `t` lost arbitration. -/
def execCanArbitrationLost (n : Fin 8) (t : Stamp) (s : State) : Host.Outcome State Fault Refusal :=
  match s.onBus n t with
  | none => .next s
  | some b =>
    let s := s.leadSof n b t
    if s.flag (F.CAN_CTRL_DAR n) || (s.canOf n).canc.contains b then .next (s.txCancelled n b) else .next (s.heldWrite n b)

/-! ## Reception (R360 to R364, R374) -/

/-- Where a frame goes. -/
inductive CanDest where
  | reject | fifo (f : Nat) | buffer (i : Nat) | discard
  deriving DecidableEq, Repr

/-- A filter element matches an identifier of its format (R359). -/
def canMatch (v id : Nat) (xtd : Bool) : Bool :=
  let a := v / 2 ^ 6 % 2 ^ 29; let b := v / 2 ^ 35 % 2 ^ 29
  (v % 2 == 1) == xtd && v / 8 % 8 != 0 &&
    (match v / 2 % 4 with
     | 0 => decide (a ≤ id) && decide (id ≤ b)
     | 1 => id == a || id == b
     | _ => (id ^^^ a) &&& b == 0)

/-- The element that decides a frame's fate, and the fate (R360). -/
def State.canFilterOf (s : State) (n : Nat) (f : CanFrame) : Option Nat × CanDest :=
  let el (i : Nat) := s.num64 (Reg.CAN_FILTER n i 0) (Reg.CAN_FILTER n i 1)
  match (List.range 256).find? (fun i => canMatch (el i) f.id.toNat f.xtd) with
  | some i =>
    (some i, match el i / 8 % 8 with
      | 1 => .fifo 0 | 2 => .fifo 1 | 3 => .buffer i | _ => .discard)
  | none =>
    (none, match s.fld (F.CAN_CTRL_NOMATCH n) with
      | 1 => .fifo 0 | 2 => .fifo 1 | _ => .reject)

/-- The words of an RX element (R361). -/
def rxElem (f : CanFrame) (idx : Option Nat) (t : Stamp) : List Nat :=
  let w0 := f.id.toNat + b2n f.xtd * 2 ^ 29 + b2n f.rtr * 2 ^ 30 + b2n f.esi * 2 ^ 31
  let w1 := f.dlc.toNat + b2n f.fdf * 2 ^ 4 + b2n f.brs * 2 ^ 5 + f.data.length * 2 ^ 8 + idx.getD 0xFF * 2 ^ 16 + b2n idx.isNone * 2 ^ 24
  let d := f.data.map (fun x => x.toNat)
  [w0, w1, t.w0, t.w1, t.w2] ++ (List.range 16).map (fun i => fieldAt (d ++ List.replicate 64 0) (4 * i) 4)

def State.rxbBit (s : State) (a : Nat → Nat → Nat) (n i : Nat) : Bool := s.rbit (a n (i / 32)) (i % 32)
def State.setRxbBit (s : State) (a : Nat → Nat → Nat) (n i : Nat) (b : Bool) : State := s.setRbit (a n (i / 32)) (i % 32) b

/-- Stores an element in RX FIFO `f` (R364). -/
def State.fifoStore (s : State) (n f : Nat) (ws : List Nat) : State :=
  let a := Reg.RXF_STATUS n f
  let full := s.flag (F.RXF_STATUS_FULL n f)
  let s := if full then
      ((s.countFld (F.RXF_STATUS_OVR n f) 1).canIrq n (11 + f)).logPerSecond (0x50000 + 2 * n + f) 0x0B15 (0x6000 + n) f
    else s
  let ovw := if f = 0 then s.flag (F.CAN_CTRL_FIFO0_OVW n) else s.flag (F.CAN_CTRL_FIFO1_OVW n)
  if full && !ovw then s
  else
    let s := if full then s.ringAck a (s.fld (F.RXF_STATUS_GET n f)) else s
    let (e, s) := s.ringPut a
    ((ws.zipIdx).foldl (fun s x => s.setNum (Reg.CAN_RXF n f e x.2) x.1) s).canIrq n (1 + f)

/-- Stores an element in RX buffer `i` (R362, R363). -/
def State.bufStore (s : State) (n i : Nat) (ws : List Nat) : State :=
  if s.rxbBit Reg.RXB_LOCK n i then
    let s := s.logPerSecond (0x58000 + n) 0x0B14 (0x6000 + n) i
    match s.fld (F.CAN_CTRL_LOCK_OVF n) with
    | 1 => s.fifoStore n 0 ws
    | 2 => s.fifoStore n 1 ws
    | _ => (s.count (Reg.CAN_LOST n) 1).canIrq n 10
  else
    let s := if s.rxbBit Reg.RXB_NEW n i then s.setRxbBit Reg.RXB_OVW n i true else s
    (((ws.zipIdx).foldl (fun s x => s.setNum (Reg.CAN_RXB n i x.2) x.1) s).setRxbBit Reg.RXB_NEW n i true).canIrq n 0

/-- Bytes and sign of a map TYPE (R374). -/
def mapSize (typ : Nat) : Nat := match typ with | 0 => 1 | 1 => 1 | 2 => 2 | 3 => 2 | _ => 4
def mapSigned (typ : Nat) : Bool := typ == 1 || typ == 3 || typ == 5

/-- raw × SCALE + OFFS, rounded once (R374, R375). -/
def fmaInt (z : Int) (scale offs : Word) : Word :=
  if z = 0 ∨ !F32.isFinite scale ∨ !F32.isFinite offs then F32.fma (F32.ofInt z) scale offs
  else F32.ofUnits (z * F32.units scale * 2 ^ 149 + F32.units offs * 2 ^ 149) 149 false false

/-- The token of RX map entry `i` for an accepted frame (R374). -/
def State.rxMapToken (s : State) (n i : Nat) (f : CanFrame) : State :=
  let w := s.rd (Reg.CAN_RXMAP n i 0)
  let typ := bitsOf w 24 3; let k := mapSize typ; let o := s.num (Reg.CAN_RXMAP n i 3) % 64
  if f.data.length < o + k then
    (s.canIrq n 13).log 0x0B16 (0x6000 + n) (i + f.data.length * 2 ^ 8)
  else
    let d := ((f.data.drop o).take k).map (fun x => x.toNat)
    let raw := ofLe (if bitsOf w 23 1 = 1 then d.reverse else d)
    let scale := s.rd (Reg.CAN_RXMAP n i 1); let offs := s.rd (Reg.CAN_RXMAP n i 2)
    let (v, st) : Word × BitVec 4 :=
      if typ = 6 then
        let x := BitVec.ofNat 32 raw
        if F32.isFinite x then (F32.fma x scale offs, 0) else (0, 1)
      else (fmaInt (if mapSigned typ then toSigned (8 * k) raw else raw) scale offs, 0)
    s.emit (.tok 9 (mkToken v (BitVec.ofNat 12 (bitsOf w 8 12)) st (s.num (Reg.CT_LAST_CSEQ (bitsOf w 20 3)))))

/-- Every valid RX map entry of the matching element yields a token (R374). -/
def State.rxMapped (s : State) (n : Nat) (idx : Option Nat) (f : CanFrame) : State :=
  match idx with
  | none => s
  | some x => ((List.range 64).filter (fun i =>
      let w := s.rd (Reg.CAN_RXMAP n i 0)
      bitsOf w 31 1 == 1 && bitsOf w 0 8 == x)).foldl (fun s i => s.rxMapToken n i f) s

/-- A received frame is filtered, stored and mapped (R360 to R364, R374). -/
def State.canAccept (s : State) (n : Nat) (f : CanFrame) (t : Stamp) : State :=
  if f.rtr && s.flag (F.CAN_CTRL_RTR_REJ n) then s
  else
    let (idx, dest) := s.canFilterOf n f
    let ws := rxElem f idx t
    match dest with
    | .reject => s
    | .discard => s
    | .fifo k => (s.fifoStore n k ws).rxMapped n idx f
    | .buffer i => (s.bufStore n i ws).rxMapped n idx f

/-- REC after a frame received without an error (R369): one lower; from above 127, a value from 119 to 127. -/
def State.recDown (s : State) (n : Nat) : State :=
  let c := s.canOf n
  if 127 < c.rec_ then let (x, s) := s.freshNat; s.setCan n { c with rec_ := 119 + x % 9 }
  else s.setCan n { c with rec_ := c.rec_ - 1 }

/-- CAN_FRAME_RX (R353, R360 to R364, R369, R374): a frame of another node ends; `t` is its start-of-frame stamp.  An FD frame with FD_EN = 0 is a form
error, which a receiver counts in REC by 1; in LOOPBACK the receiver does not hear the bus (R354). -/
def execCanFrameRx (n : Fin 8) (f : CanFrame) (t : Stamp) (s : State) : Host.Outcome State Fault Refusal :=
  if !s.canUp n || s.fld (F.CAN_CTRL_MODE n) == 2 then .next s
  else if f.fdf && !s.flag (F.CAN_CTRL_FD_EN n) then .next ((s.setCan n { s.canOf n with rec_ := (s.canOf n).rec_ + 1 }).errState n)
  else .next (((s.recDown n).errState n).canAccept n f t)

/-- The frame a TX element makes (R365). -/
def State.txFrame (s : State) (n b : Nat) : CanFrame :=
  let w0 := s.txw n b 0; let w1 := s.txw n b 1; let len := w1 % 2 ^ 7
  { id := BitVec.ofNat 29 w0, xtd := bit w0 29, rtr := bit w0 30, esi := bit w1 8 && s.fld (F.CAN_STATUS_STATE n) == 1, fdf := bit w1 8,
    brs := bit w1 8 && bit w1 9,
    dlc := BitVec.ofNat 4 (if len ≤ 8 then len else 9 + ([12, 16, 20, 24, 32, 48, 64].findIdx (fun x => x == len))),
    data := if bit w0 30 then [] else ((List.range 16).flatMap (fun i => leBytes 4 (s.txw n b (4 + i)))).take len |>.map (BitVec.ofNat 8) }

/-- CAN_TX_COMPLETE (R354, R356, R366 to R370): the frame whose start of frame was at `t` has been sent; in LOOPBACK the controller receives it. -/
def execCanTxComplete (n : Fin 8) (t : Stamp) (s : State) : Host.Outcome State Fault Refusal :=
  match s.onBus n t with
  | none => .next s
  | some b =>
    let f := s.txFrame n b
    let s := s.leadSof n b t
    let s := if bit (s.txw n b 1) 10 then s.journal n b t else s
    let s := ((s.txEnd n b).setRbit (Reg.TXB_DONE n) b true).canIrq n 3
    let s := if s.flag (F.CAN_CTRL_TDC_EN n) && f.fdf && f.brs then let (x, s) := s.freshNat; s.setFld (F.CAN_STATUS_TDCV n) (x % 128) else s
    let s := s.setCan n { s.canOf n with
      tec := (s.canOf n).tec - 1, suspend := if s.fld (F.CAN_STATUS_STATE n) = 1 then some s.time.cycle else none }
    let s := s.errState n
    .next (if s.fld (F.CAN_CTRL_MODE n) = 2 then s.canAccept n f t else s)

/-- Releases RX buffer `i`: EMPTY, its words read 0 (R362). -/
def State.rxbFree (s : State) (n i : Nat) : State :=
  ((List.range 21).foldl (fun s w => s.setNum (Reg.CAN_RXB n i w) 0) s).setRxbBit Reg.RXB_LOCK n i false

/-- What a word of an RX buffer reads as (R362): an EMPTY buffer reads 0; word 31 holds the buffer's state. -/
def State.rxbView (s : State) (n i w : Nat) : Nat :=
  let new := s.rxbBit Reg.RXB_NEW n i; let lock := s.rxbBit Reg.RXB_LOCK n i
  if w = 31 then (if lock then 2 else if new then 1 else 0) + 4 * b2n (s.rxbBit Reg.RXB_OVW n i)
  else if new || lock then s.num (Reg.CAN_RXB n i w) else 0

/-- CAN_RXB_READ_WORD0 (R362). -/
def execCanRxbReadWord0 (n : Fin 8) (i : Fin 64) (s : State) : Host.Outcome State Fault Refusal :=
  let v := s.rxbView n i 0
  if s.rxbBit Reg.RXB_NEW n i then
    .next (((s.setRxbBit Reg.RXB_NEW n i false).setRxbBit Reg.RXB_LOCK n i true).setBus ⟨false, v⟩)
  else .next (s.setBus ⟨false, v⟩)

/-- The last word of the element in an RX buffer (R361). -/
def State.rxbLast (s : State) (n i : Nat) : Nat := 4 + (bitsOf (s.rd (Reg.CAN_RXB n i 1)) 8 7 + 3) / 4

/-- CAN_RXB_READ_LAST (R362). -/
def execCanRxbReadLast (n : Fin 8) (i : Fin 64) (s : State) : Host.Outcome State Fault Refusal :=
  let v := s.rxbView n i (s.rxbLast n i)
  if s.rxbBit Reg.RXB_LOCK n i then .next ((s.rxbFree n i).setBus ⟨false, v⟩) else .next (s.setBus ⟨false, v⟩)

/-- CAN_RXB_REL (R362): a write of RXB_REL_g. -/
def execCanRxbRel (n : Fin 8) (g : Fin 2) (mask : Word) (s : State) : Host.Outcome State Fault Refusal :=
  .next (((List.range 32).filter (fun k => bit mask.toNat k)).foldl (fun s k =>
    if s.rxbBit Reg.RXB_LOCK n (32 * g + k) then s.rxbFree n (32 * g + k) else s) s)

/-! ## Tokens to frames (R375) -/

/-- The raw bytes a token gives a TX map entry, low byte first. -/
def mapRaw (typ : Nat) (v scale offs : Word) : Nat :=
  if typ = 6 then (F32.fma v scale offs).toNat
  else
    let y := f32R v * f32R scale + f32R offs
    let z := roundEven y
    let w := 8 * mapSize typ
    if mapSigned typ then ofSigned w (clampInt (-(2 ^ (w - 1) : Nat)) ((2 ^ (w - 1) : Nat) - 1) z) else (clampInt 0 ((2 ^ w : Nat) - 1) z).toNat

/-- CAN_TX_MAP_TOKEN (R375): `sof` is the start of frame of the controller's frame on the bus, if one is. -/
def execCanTxMapToken (n : Fin 8) (i : Fin 64) (link : Nat) (t : Token) (sof : Option Stamp) (s : State) :
    Host.Outcome State Fault Refusal :=
  let w := s.rd (Reg.CAN_TXMAP n i 0)
  if bitsOf w 31 1 = 0 ∨ bitsOf w 0 12 ≠ t.sig.toNat then .next s
  else
    let subst := s.rd (Reg.CAN_TXMAP n i 3)
    let (c, s) := s.check link subst t
    let s := if c.good then s else (s.canIrq n 14).log 0x0B17 (0x6000 + n) t.sig.toNat
    let v := if F32.isFinite c.value then c.value else subst
    let typ := bitsOf w 19 3; let k := mapSize typ; let b := bitsOf w 12 5
    let bytes := leBytes k (mapRaw typ v (s.rd (Reg.CAN_TXMAP n i 1)) (s.rd (Reg.CAN_TXMAP n i 2)))
    let bytes := (if bitsOf w 18 1 = 1 then bytes.reverse else bytes).zipIdx (bitsOf w 22 6)
    let bytes := bytes.filter (fun x => decide (x.2 < 64))
    let s :=
      if sof.any (fun t => s.onBus n t == some b) then
        let c := s.canOf n
        s.setCan n { c with held := c.held ++ bytes.map (fun x => (b, x.2, x.1)) }
      else bytes.foldl (fun s x => s.setFld ⟨Reg.CAN_TXB n b (4 + x.2 / 4), 8 * (x.2 % 4), 8⟩ x.1) s
    if bitsOf w 17 1 = 0 then .next s
    else if s.txPend n b then .next (s.count (Reg.CAN_MAPOVR n) 1)
    else if !s.inUse (.can n) || !s.txElemOk n b then .next (s.canIrq n 17)
    else .next (s.txRequest n b)

end Sys2Proof.Machine
end

