-- ==== Sys2Proof/Machine/Rce.lean ====
section
/-! DEFINITION. The record engine (chapter 10): rows, blocks and the chain, export, trigger units, capture sets, measurements and
envelopes. -/
namespace Sys2Proof.Machine

/-! ## Blocks and the chain (R297 to R300) -/

/-- The 256-byte header of the open block (R297), but for PREV_HASH and PREV_SIG, which are written when they are known. -/
def Chain.header (c : Chain) : List Nat :=
  wordBytes [0x424E4D41, 0x01000001] ++ leBytes 8 c.blkseq ++ leBytes 8 c.id

def Chain.tail (c : Chain) : List Nat :=
  let z : Stamp := ⟨0, 0, 0⟩
  let f := if c.nrows = 0 then z else c.first
  let l := if c.nrows = 0 then z else c.last
  wordBytes [c.len, c.nrows, f.w0, f.w1, f.w2, l.w0, l.w1, l.w2, b2n c.signed + 2 * b2n c.isSeal + 4 * b2n c.gap, c.slot] ++
    leBytes 8 Config.keyId

/-- Writes the header fields of the open block. -/
def State.writeHeader (s : State) (c : Chain) : State :=
  (s.wrList (ringAddr c.slot) c.header).wrList (ringAddr c.slot + 0x48) c.tail

/-- Shows the open block in the registers. -/
def State.syncChain (s : State) (c : Chain) : State :=
  let s := (s.setNum64 Reg.RCE_CHAIN_LO Reg.RCE_CHAIN_HI c.id).setNum64 Reg.RCE_BLKSEQ_LO Reg.RCE_BLKSEQ_HI c.blkseq
  s.setFld F.RCE_WR_SLOT_SLOT c.slot

/-- EXPORTING and RCE_EXP_SLOT (R302). -/
def State.syncExport (s : State) : State :=
  let s := s.setFld F.RCE_STATUS_EXPORTING (b2n (!s.rce.exp.isEmpty && s.flag F.RCE_CTRL_EXP_EN))
  match s.rce.exp with
  | b :: _ => s.setFld F.RCE_EXP_SLOT_SLOT b.slot
  | [] => match s.rce.chain with
    | some c => s.setFld F.RCE_EXP_SLOT_SLOT c.slot
    | none => s

/-- A block about to be overwritten is lost to export (R302). -/
def State.dropExport (s : State) (slot : Nat) : State :=
  if s.rce.exp.any (fun b => b.slot == slot) then
    let s := s.setRce { s.rce with exp := s.rce.exp.filter (fun b => b.slot != slot) }
    let s := (s.count Reg.RCE_EXP_LOST 1).setFld F.RCE_STATUS_EXP_LOST 1
    s.log 0x0915 0 (s.num Reg.RCE_EXP_LOST)
  else s

/-- Opens a block in a slot: the slot is zeroed and the header begun (R297). -/
def State.openBlock (s : State) (c : Chain) : State :=
  let s := (s.dropExport c.slot).clearMem (ringAddr c.slot) 0x100000
  let s := s.writeHeader c
  ((s.setRce { s.rce with chain := some c, boat := { s.rce.boat with slot := some c.slot } }).syncChain c).syncExport

/-- The block after `c`. -/
def Chain.succ (c : Chain) (await : Option Nat) (isSeal : Bool) : Chain :=
  { c with
    blkseq := c.blkseq + 1, slot := (c.slot + 1) % 28672, len := 0, nrows := 0, gap := false, signed := false
    isSeal := isSeal, due := false, await := await }

/-- The DRBG gives a value unless it has stopped (R523). -/
def State.rngOk (s : State) : Bool := !s.flag F.VLT_STATUS_ENTROPY_FAIL

/-- Starts a chain (R300). -/
def State.recStart (s : State) : State :=
  let old := s.rce.boat.chain
  let drawn := Config.drbg s.fresh % 2 ^ 64
  let base := match old with | some o => (o.1 + 1) % 2 ^ 64 | none => Config.keyId % 2 ^ 64
  let id := if s.rngOk then drawn else base % 2 ^ 63 + 2 ^ 63
  let s := if s.rngOk then s.takeFresh 1 else s.setFld F.RCE_STATUS_NORAND 1
  let slot := match s.rce.boat.slot with | some k => (k + 1) % 28672 | none => 0
  let c : Chain := ⟨id, 0, slot, 0, 0, ⟨0, 0, 0⟩, ⟨0, 0, 0⟩, 0, false, false, false, false, none, none⟩
  let s := s.setRce { s.rce with dgseq := 0 }
  let s := s.openBlock c
  let (pid, pseq) := match old with | some o => (o.1, o.2.1) | none => (0, 0)
  let s := s.recModule 1 (s.num Reg.RPC_CAUSE) [(pid % 2 ^ 32, pid / 2 ^ 32), (pseq % 2 ^ 32, pseq / 2 ^ 32)]
  let s := (s.setFld F.RCE_STATUS_RUNNING 1).setFld F.RCE_STATUS_RUN_CHG 1
  let s := s.log 0x0910 0 (id % 2 ^ 32)
  s.logIf (!s.rngOk) 0x091C 0 (id % 2 ^ 32)

/-- A write of 1 to RUN: a chain starts, after the SEAL block of one that is still ending (R300). -/
def State.recRun (s : State) : State :=
  let was := s.flag F.RCE_CTRL_RUN
  let s := s.setFld F.RCE_CTRL_RUN 1
  if was then s else match s.rce.chain with | none => s.recStart | some _ => s

/-- RECORD_START (R300). -/
def execRecordStart (s : State) : Host.Outcome State Fault Refusal := .next s.recRun

/-- With RUN = 0 and every open row closed, the block closes (R300). -/
def State.stopCheck (s : State) : State :=
  match s.rce.chain with
  | some c => if c.stop = some [] && !c.isSeal then s.setRce { s.rce with chain := some { c with due := true } } else s
  | none => s

/-- A write of 0 to RUN: the rows now open may still close (R300). -/
def State.recStop (s : State) : State :=
  let s := s.setFld F.RCE_CTRL_RUN 0
  match s.rce.chain with
  | some c =>
    if c.stop.isSome then s
    else
      let rows := (List.range 8).flatMap (fun m => ((s.recCrew m).rows.map (fun r => (m, r.cseq))))
      (s.setRce { s.rce with chain := some { c with stop := some rows } }).stopCheck
  | none => s

/-- RECORD_STOP (R300). -/
def execRecordStop (s : State) : Host.Outcome State Fault Refusal := .next s.recStop

/-- Closes the open block (R298 to R300): it waits for its HASH and its export; the SEAL block ends the chain, any other is followed
by the next block, which takes the rows of the row buffer. -/
def State.closeBlock (s : State) (c : Chain) : State :=
  let s := s.writeHeader c
  let b : ClosedBlk := ⟨c.id, c.blkseq, c.slot, none, 0⟩
  let s := s.setRce { s.rce with
    closed := s.rce.closed ++ [b]
    exp := if s.flag F.RCE_CTRL_EXP_EN then s.rce.exp ++ [b] else s.rce.exp
    boat := { s.rce.boat with chain := some (c.id, c.blkseq, 0) } }
  if c.isSeal then
    let s := s.setRce { s.rce with chain := none, buffer := [] }
    let s := (s.setFld F.RCE_STATUS_RUNNING 0).setFld F.RCE_STATUS_RUN_CHG 1
    let s := s.log 0x0911 0 (min (c.blkseq + 1) 0xFFFFFFFF)
    if s.flag F.RCE_CTRL_RUN then s.recStart else s.syncExport
  else
    let ends := c.stop == some [] && s.rce.buffer.isEmpty
    let s := s.openBlock (c.succ (if ends || c.blkseq % 64 == 63 then some c.blkseq else none) ends)
    let rows := s.rce.buffer
    let s := s.setRce { s.rce with buffer := [] }
    (rows.foldl State.appendRow s).stopCheck

/-- BLOCK_CLOSE (R298, R299): a block whose closing condition is met closes once nothing of it is awaited. -/
def execBlockClose (s : State) : Host.Outcome State Fault Refusal :=
  match s.rce.chain with
  | some c => .next (if c.due && s.blockReady c then s.closeBlock c else s)
  | none => .next s

/-- BLOCK_TIMEOUT (R298): BLOCK_MS has passed since the open block's first row. -/
def execBlockTimeout (s : State) : Host.Outcome State Fault Refusal :=
  match s.rce.chain with
  | some c =>
    if c.nrows = 0 ∨ s.time.cycle < c.since + 600000 * s.fld F.RCE_BLOCK_MS_BLOCK_MS then .next s
    else if s.blockReady c then .next (s.closeBlock { c with due := true })
    else .next (s.setRce { s.rce with chain := some { c with due := true } })
  | none => .next s

/-- BLOCK_HASH_DONE (R298): the oldest closed block's HASH goes to RCE_LAST_HASH, to the next block's PREV_HASH, to the boathouse and to
the export. -/
def execBlockHashDone (s : State) : Host.Outcome State Fault Refusal :=
  match s.rce.closed with
  | [] => .next s
  | b :: rest =>
    let h := sha384 (s.rdList (ringAddr b.slot) 0x100000)
    let s := (List.range 12).foldl (fun s w => s.setNum (Reg.RCE_LAST_HASH w) (ofLe ((hashBytes h).drop (4 * w) |>.take 4))) s
    let s := s.setRce { s.rce with
      closed := rest
      exp := s.rce.exp.map (fun x => if x.id == b.id && x.blkseq == b.blkseq then { x with hash := some h } else x)
      boat := { s.rce.boat with chain := some (b.id, b.blkseq, h) } }
    match s.rce.chain with
    | some c => .next (if c.id = b.id ∧ c.blkseq = b.blkseq + 1 then s.wrList (ringAddr c.slot + 0x18) (hashBytes h) else s)
    | none => .next s

/-- BLOCK_SIGNED (R299): `ok`, the vault has signed the awaited block. -/
def execBlockSigned (ok : Bool) (s : State) : Host.Outcome State Fault Refusal :=
  match s.rce.chain, s.rce.closed with
  | some c, [] =>
    match c.await with
    | none => .next s
    | some b =>
      let h := match s.rce.boat.chain with | some x => x.2.2 | none => 0
      let msg := leBytes 8 c.id ++ leBytes 8 b ++ hashBytes h
      let c' := { c with await := none, signed := ok, due := c.due || c.isSeal }
      let s := if ok then s.wrList (ringAddr c.slot + 0x80) ((Config.deviceSign (sha384 msg)).take 96)
               else (s.setFld F.RCE_STATUS_SIGN_FAIL 1).log 0x0916 0 (b % 2 ^ 32)
      .next (s.setRce { s.rce with chain := some c' })
  | _, _ => .next s

/-! ## Export and retransmission (R301 to R304) -/

/-- A datagram header (R301). -/
def dgHeader (dkind dgseq frag id blkseq slot crc : Nat) (hash : List Nat) : List Nat :=
  wordBytes [0x444E4D41] ++ leBytes 2 1 ++ leBytes 2 dkind ++ leBytes 4 dgseq ++ leBytes 2 frag ++ leBytes 2 128 ++
    leBytes 8 id ++ leBytes 8 blkseq ++ wordBytes [slot, crc] ++ hash ++ leBytes 8 0

/-- A datagram with a fragment of a ring slot. -/
def State.fragment (s : State) (dkind dgseq frag id blkseq slot hash : Nat) : List Nat :=
  let pay := s.rdList (ringAddr slot + 8192 * frag) 8192
  dgHeader dkind dgseq frag id blkseq slot (crc32c pay) (hashBytes hash) ++ pay

/-- EXPORT_DATAGRAM (R301, R302): the next fragment of the oldest hashed block. -/
def execExportDatagram (s : State) : Host.Outcome State Fault Refusal :=
  match s.flag F.RCE_CTRL_EXP_EN, s.rce.exp with
  | true, b :: rest =>
    match b.hash with
    | none => .next s
    | some h =>
      let s := s.emit (.frame 1 (s.fragment 0 (s.rce.dgseq % 2 ^ 32) b.frag b.id b.blkseq b.slot h))
      let s := s.setRce { s.rce with
        dgseq := s.rce.dgseq + 1
        exp := if b.frag = 127 then rest else { b with frag := b.frag + 1 } :: rest }
      .next s.syncExport
  | _, _ => .next s

/-- A refusal datagram (R304); the HASH it carries is a value the spec does not state. -/
def State.retxRefuse (s : State) (id blkseq slot reason : Nat) : State :=
  let (h, s) := s.freshNat
  let s := s.emit (.frame 1 (dgHeader 2 0xFFFFFFFF reason id blkseq slot (crc32c []) (leBytes 48 h)))
  (s.setFld F.RCE_STATUS_RETX_REF 1).log 0x0917 0 (reason + slot % 2 ^ 16 * 2 ^ 16)

/-- RETX_REQUEST (R303, R304); `dg` are the bytes of the request datagram. -/
def execRetxRequest (dg : List Byte) (s : State) : Host.Outcome State Fault Refusal :=
  let l := dg.map BitVec.toNat
  let id := fieldAt l 8 8; let seq := fieldAt l 0x10 8; let slot := fieldAt l 0x18 4; let mask := fieldAt l 0x20 16
  let good := l.length == 64 && fieldAt l 0 4 == 0x514E4D41 && fieldAt l 4 4 == 1 && fieldAt l 0x1C 4 == 0 &&
    fieldAt l 0x30 16 == 0 && mask != 0
  if !good then .next (s.retxRefuse id seq slot 3)
  else if 16 ≤ s.rce.retx.length then .next (s.retxRefuse id seq slot 4)
  else .next (s.setRce { s.rce with retx := s.rce.retx ++ [⟨id, seq, slot, mask⟩] })

/-- RETX_SERVE (R304): the oldest request. -/
def execRetxServe (s : State) : Host.Outcome State Fault Refusal :=
  match s.rce.retx with
  | [] => .next s
  | q :: rest =>
    let s := s.setRce { s.rce with retx := rest }
    let isOpen := match s.rce.chain with | some c => c.slot == q.slot && c.id == q.id && c.blkseq == q.blkseq | none => false
    let hdr := s.rdList (ringAddr q.slot) 0x20
    let held := decide (q.slot < 28672) && fieldAt hdr 0 4 == 0x424E4D41 && fieldAt hdr 8 8 == q.blkseq && fieldAt hdr 0x10 8 == q.id
    if isOpen then .next (s.retxRefuse q.id q.blkseq q.slot 2)
    else if !held then .next (s.retxRefuse q.id q.blkseq q.slot 1)
    else
      let h := sha384 (s.rdList (ringAddr q.slot) 0x100000)
      .next ((List.range 128).foldl (fun s f =>
        if bit q.mask f then
          (s.emit (.frame 1 (s.fragment 1 0xFFFFFFFF f q.id q.blkseq q.slot h))).count Reg.RCE_RETX 1
        else s) s)

/-! ## Tokens (R288, R306, R307, R323, R324) -/

/-- A token placed by ascending SIG. -/
def insTok (t : Token) : List Token → List Token
  | [] => [t]
  | x :: l => if t.sig.toNat < x.sig.toNat then t :: x :: l else x :: insTok t l

/-- A row placed by ascending CSEQ. -/
def insRow (r : OpenRow) : List OpenRow → List OpenRow
  | [] => [r]
  | x :: l => if seqBefore r.cseq x.cseq then r :: x :: l else x :: insRow r l

/-- The open row of a crew with a CSEQ, made when there is none. -/
def State.ensureRow (s : State) (m q : Nat) : State :=
  let c := s.recCrew m
  if c.rows.any (fun r => r.cseq == q) then s else s.setRecCrew m { c with rows := insRow ⟨q, [], [], none⟩ c.rows }

/-- A catch closes a row (R287): its CSEQ is ROW_LAG strokes on. -/
def State.closes (s : State) (m cseq row : Nat) : Bool := decide (64 * (s.fld (F.RCE_CREW_ROW_LAG m) : Int) ≤ seqDiff cseq row)

/-- A row that has closed (R287): it has been written, or the catch that closes it has come. -/
def State.rowClosed (s : State) (m q : Nat) : Bool :=
  let c := s.recCrew m
  c.closed.any (fun l => decide (seqDiff q l ≤ 0)) || c.catches.head?.any (fun x => s.closes m x.1 q)

/-- Finite numbers and their comparison as trigger units make it. -/
def fgt (a b : Word) : Bool := F32.lt b a

/-- The condition of a signal unit on a sample, and its edge history after it (R306). -/
def trgCond (kind sub : Nat) (a b hyst v : Word) (h : TrgHist) : Bool × TrgHist :=
  match kind with
  | 0 => let c := if sub = 0 then fgt v a else F32.lt v a; (c && !h.prev, { h with prev := c })
  | 2 =>
    let c := if sub = 0 then F32.le a v && F32.le v b else F32.lt v a || fgt v b
    (c && !h.prev, { h with prev := c })
  | _ =>
    let up := h.low && F32.le a v
    let dn := h.high && F32.le v a
    let low := if F32.le v (F32.sub a hyst) then true else if F32.le a v then false else h.low
    let high := if F32.le (F32.add a hyst) v then true else if F32.le v a then false else h.high
    ((sub == 0 && up) || (sub == 1 && dn) || (sub == 2 && (up || dn)), { h with low := low, high := high })

/-- One trigger unit evaluates a token (R306, R307). -/
def State.trgToken (s : State) (u : Nat) (t : Token) : State :=
  let kind := s.fld (F.TRG_CFG_KIND u)
  if !(decide (kind < 3) && s.trgArmed u kind && s.fld (F.TRG_CFG_SIG u) == t.sig.toNat) then s
  else
    let h := s.trgOf u
    let q := t.cseq.toNat
    let follows := match h.last with | none => true | some l => decide (0 < seqDiff q l)
    if !follows then s
    else if t.st = 1 then s.setTrg u { h with low := false, high := false }
    else
      let (fire, h) := trgCond kind (s.fld (F.TRG_CFG_SUB u)) (s.rd (Reg.TRG_A u)) (s.rd (Reg.TRG_B u)) (s.rd (Reg.TRG_HYST u)) t.value h
      let s := s.setTrg u { h with last := some q }
      if fire then s.fireTrigger u q else s

/-- Bound of a CURVE at a step time (R323); none: no bound on that side. -/
def curveAt (pts : List (Nat × Word)) (x : Nat) : Option Rat :=
  match pts with
  | [] => none
  | p :: l =>
    let rec go (a : Nat × Word) : List (Nat × Word) → Rat
      | [] => f32R a.2
      | b :: l =>
        if x ≤ a.1 then f32R a.2
        else if x < b.1 then
          f32R a.2 + (f32R b.2 - f32R a.2) * (((x - a.1 : Nat) : Int) : Rat) / (((b.1 - a.1 : Nat) : Int) : Rat)
        else go b l
    some (go p l)

/-- The step time of a catch of crew `m` (R323). -/
def State.stepTime (s : State) (m q : Nat) : Option Nat :=
  match (s.recCrew m).counts.find? (fun c => c.1 == strokeOf q) with
  | some c => some (c.2 * s.ctPeriod m + s.ctOffset m (cseqEntry q))
  | none => none

/-- A value the spec does not state, as a truth value. -/
def State.freshBool (s : State) : Bool × State := let (n, s) := s.freshNat; (n % 2 == 1, s)

/-- The golden value of sample `n`. -/
def State.goldAddr (s : State) (g : Nat) : Nat := s.fld (F.GOLD_ADDR_LO_ADDR g) * 64 + 2 ^ 32 * s.fld (F.GOLD_ADDR_HI_ADDR g)

/-- One envelope entry tests a token (R323, R324); a comparison with a bound that is not finite has a result the spec does not
state. -/
def State.envToken (s : State) (m i : Nat) (e : EnvEntry) (t : Token) : State :=
  if e.sig ≠ t.sig.toNat || e.set ≠ s.fld (F.RCE_ENV_SET m) || e.ekind == 2 || t.st == 1 then s
  else
    let v := f32R t.value
    let q := t.cseq.toNat
    if e.ekind = 0 then
      match s.stepTime m q with
      | none => s
      | some x =>
        if !F32.isFinite t.value then s.envTest m i e q true
        else if (e.upper ++ e.lower).any (fun p => !F32.isFinite p.2) then
          let (b, s) := s.freshBool; s.envTest m i e q b
        else
          let hi := match curveAt e.upper x with | some y => decide (y < v) | none => false
          let lo := match curveAt e.lower x with | some y => decide (v < y) | none => false
          s.envTest m i e q (hi || lo)
    else if (s.recCrew m).dead.contains i then s
    else
      let n := Tab.get (fun _ => 0) (s.recCrew m).nth i
      let (addr, len) := Tab.get (fun _ => (0, 0)) (s.recCrew m).gold i
      if len ≤ n then s
      else
        let g := s.rdWord (addr + 4 * n)
        let s := s.setRecCrew m { s.recCrew m with nth := Tab.put (s.recCrew m).nth i (n + 1) }
        if !F32.isFinite t.value then s.envTest m i e q true
        else if !(F32.isFinite g && F32.isFinite e.w2 && F32.isFinite e.w3) then
          let (b, s) := s.freshBool; s.envTest m i e q b
        else s.envTest m i e q (decide (f32R e.w2 + f32R e.w3 * rabs (f32R g) < rabs (v - f32R g)))

/-- Every entry of the active set of every crew tests a token, unless checking is suspended (R321). -/
def State.envTokens (s : State) (t : Token) : State :=
  (List.range 8).foldl (fun s m =>
    if s.flag (F.RCE_ENV_ACTIVE m) && !s.flag (F.RCE_ENV_SUSPENDED m) then
      ((Tab.get (fun _ => []) s.rce.cfg.envs m).zipIdx).foldl (fun s e => s.envToken m e.2 e.1 t) s
    else s) s

/-- Keeps a token of a captured signal (R309). -/
def State.keepTok (s : State) (t : Token) : State :=
  if s.rce.cfg.caps.any (fun c => c.2.contains t.sig.toNat) then
    s.setRce { s.rce with hist := Tab.put s.rce.hist t.sig.toNat (t :: Tab.get (fun _ => []) s.rce.hist t.sig.toNat) }
  else s

/-- Counts a late or duplicate token (R288). -/
def State.rceLate (s : State) (sig q : Nat) : State :=
  ((s.count Reg.RCE_LATE 1).setFld F.RCE_STATUS_LATE 1).logPerSecond (0x10000 + sig) 0x0914 (0x2000 + sig) q

/-- A token reaches RCE (R288). -/
def State.rceToken (s : State) (link : Nat) (t : Token) : State :=
  match Tab.find s.rce.cfg.sels t.sig.toNat with
  | none => s
  | some e =>
    let (c, s) := s.check link e.subst t
    let s := if c.good then s else (s.count Reg.RCE_TAGERR 1).setFld F.RCE_STATUS_TAGERR 1
    let q := t.cseq.toNat
    let t := if c.good && c.st == t.st then t else mkToken c.value t.sig c.st q
    let dup := ((s.recCrew e.crew).rows.find? (fun r => r.cseq == q)).any (fun r => r.toks.any (fun x => x.sig == t.sig))
    if s.rowClosed e.crew q || dup then s.rceLate t.sig.toNat q
    else
      let s := s.ensureRow e.crew q
      let rc := s.recCrew e.crew
      let s := s.setRecCrew e.crew { rc with rows := rc.rows.map (fun r => if r.cseq == q then { r with toks := insTok t r.toks } else r) }
      let s := s.keepTok t
      let s := (List.range 128).foldl (fun s u => s.trgToken u t) s
      s.envTokens t

/-- RCE_TOKEN (R288). -/
def execRceToken (link : Nat) (t : Token) (s : State) : Host.Outcome State Fault Refusal := .next (s.rceToken link t)

/-- A catch reaches RCE (R51, R287): it closes rows, and its own row opens. -/
def State.rceCatch (s : State) (m q : Nat) (t : Stamp) : State :=
  let c := s.recCrew m
  let s := s.setRecCrew m { c with
    catches := (q, t) :: c.catches
    rows := c.rows.map (fun r => if r.due.isNone && s.closes m q r.cseq then { r with due := some s.time.cycle } else r) }
  if s.rowClosed m q then s else s.ensureRow m q

/-- A MARK entry before the lead crew's row of its step catch (R290, R293). -/
def State.recMark (s : State) (m q mark r step : Nat) : State :=
  let w := (mark + r * 2 ^ 16, step)
  if s.rowClosed m q then let (t, s) := s.catchTime m q; s.writeRow 2 m q t [w]
  else
    let s := s.ensureRow m q
    let rc := s.recCrew m
    s.setRecCrew m { rc with rows := rc.rows.map (fun x => if x.cseq == q then { x with marks := x.marks ++ [w] } else x) }

/-! ## Reduction (R296) -/

/-- The lesser or greater value; the other one when one is a NaN. -/
def redMin (a b : Word) : Word := if F32.isNaN a then b else if F32.isNaN b then a else F32.min a b
def redMax (a b : Word) : Word := if F32.isNaN a then b else if F32.isNaN b then a else F32.max a b

/-- A reduction with one more sample. -/
def MinMax.add (x : MinMax) (t : Token) : MinMax :=
  if t.st = 1 then { x with any := true, last := t.value }
  else if x.used then { x with any := true, last := t.value, lo := redMin x.lo t.value, hi := redMax x.hi t.value, st := stMax x.st t.st }
  else { x with any := true, used := true, last := t.value, lo := t.value, hi := t.value, st := t.st }

def MinMax.start (j : Nat) : MinMax := ⟨j, false, false, 0, 0, 0, 0⟩

/-- What the row of `q` makes of a reduced signal: the pair (or none), and whether the interval was empty. -/
def State.reduceSig (s : State) (m q sig : Nat) (e : RecSel) (toks : List Token) (bad : List Nat) :
    State × List (Nat × Nat) × Bool :=
  let j := strokeOf q / e.k
  let acc := match Tab.find s.rce.acc sig with | some a => a | none => MinMax.start j
  let pair (s : State) (a : MinMax) : State × List (Nat × Nat) × Bool :=
    if !a.any then (s, [], true)
    else
      let differ := bad.contains sig
      let s := s.logIf differ 0x0912 (0x2000 + sig) q
      let st : BitVec 4 := if a.used && !differ then a.st else 1
      let mk (v : Word) : Nat × Nat :=
        let t := mkToken v (BitVec.ofNat 12 sig) st q
        (t.value.toNat, t.tag.toNat * 2 ^ 16 + t.st.toNat * 2 ^ 12 + t.sig.toNat)
      (s, [mk (if a.used then a.lo else a.last), mk (if a.used then a.hi else a.last)], false)
  let mine := toks.filter (fun t => t.sig.toNat == sig)
  let put (s : State) (a : MinMax) : State := s.setRce { s.rce with acc := Tab.put s.rce.acc sig a }
  if acc.j ≠ j then
    -- the interval's last catch was passed over: its pair goes with this row
    let r := pair s acc
    (put r.1 (mine.foldl MinMax.add (MinMax.start j)), r.2)
  else
    let acc := mine.foldl MinMax.add acc
    if (strokeOf q + 1) % e.k = 0 ∧ cseqEntry q + 1 = s.ctNent m then
      let r := pair s acc
      (put r.1 (MinMax.start ((strokeOf q + 1) % 2 ^ 26 / e.k)), r.2)
    else (put s acc, [], false)

/-! ## Capture sets (R308 to R317) -/

def State.capNsig (s : State) (c : Nat) : Nat := s.fld (F.CAP_CFG_NSIG_M1 c) + 1
def State.capSlotLen (s : State) (c : Nat) : Nat := 24 + 8 * s.capNsig c
def State.capNslot (s : State) (c : Nat) : Nat := (s.num (Reg.CAP_BUFLEN c) - 256) / s.capSlotLen c
def State.capBase (s : State) (c : Nat) : Nat :=
  s.fld (F.CAP_BUF_LO_ADDR c) * 64 + 2 ^ 32 * s.fld (F.CAP_BUF_HI_ADDR c) + (s.capOf c).buf * s.num (Reg.CAP_BUFLEN c)
def State.capPos (s : State) (c p : Nat) : Nat := s.capBase c + 0x100 + p * s.capSlotLen c

/-- The stored sample of a slot for one signal (R309); `prev` is the capture catch before. -/
def State.slotSample (s : State) (sig q : Nat) (prev : Option Nat) : Nat × Nat :=
  let toks := (Tab.get (fun _ => []) s.rce.hist sig).filter (fun t => decide (0 ≤ seqDiff q t.cseq.toNat))
  let newest := toks.foldl (fun b t => match b with
    | none => some t
    | some x => if 0 < seqDiff t.cseq.toNat x.cseq.toNat then some t else some x) (none : Option Token)
  let t := match newest with
    | none => mkToken 0 (BitVec.ofNat 12 sig) 1 q
    | some t =>
      let fresh := match prev with | none => true | some p => decide (0 < seqDiff t.cseq.toNat p)
      mkToken t.value t.sig (if fresh || t.st == 1 then t.st else 3) q
  (t.value.toNat, t.tag.toNat * 2 ^ 16 + t.st.toNat * 2 ^ 12 + t.sig.toNat)

/-- The envelope set that was active for crew `m` on the catch with CSEQ `q` (R321, R326). -/
def State.envSetAt (s : State) (m q : Nat) : Option Nat :=
  match (s.recCrew m).sets.find? (fun x => decide (0 ≤ seqDiff q x.1)) with
  | some (_, k) => if k = 0xFF then none else some k
  | none => none

/-- The trigger event of a slot (R311, R312). -/
def State.capTrigger (s : State) (c m q pos : Nat) (t : Stamp) : State :=
  let k := s.capOf c
  let here := k.pend.filter (fun p => decide (0 ≤ seqDiff q p.2))
  let units := here.filterMap (fun p => match p.1 with | .unit u => some (u, p.2) | .env _ _ => none)
  let envs := here.filterMap (fun p => match p.1 with | .env i st => some (i, st, p.2) | .unit _ => none)
  let hits := units.foldl (fun h u => putBit h u.1 true) 0
  let low := units.foldl (fun b u => match b with
    | none => some u
    | some x => if u.1 < x.1 then some u else some x) (none : Option (Nat × Nat))
  let env := envs.head?
  let src := match low, env with | some _, _ => 0 | none, some _ => 1 | none, none => 2
  let prim := match low with | some u => 16 * m + u.1 | none => 0xFF
  let cs := match low, env with | some u, _ => u.2 | none, some e => e.2.2 | none, none => q
  let (tt, s) := s.catchTime m cs
  let eset := s.envSetAt m q
  let s := s.setCap c { k with
    pend := [], trig := some (q, t, pos), hits := hits, primary := prim, src := src, envHit := env.isSome
    trigCseq := cs, trigTime := tt, later := 0, written := 1, envSet := eset, forced := false }
  let s := s.setFld (F.CAP_STATUS_STATE c) 2
  let s := s.trigRow m q hits prim c src (match env with | some e => if src = 1 then e.1 else 0 | none => 0)
             (match env with | some e => if src = 1 then e.2.1 else 0 | none => 0)
  s.log 0x0918 (0x9000 + c) (hits + prim * 2 ^ 16 + src * 2 ^ 24)

/-- Capture set `c` takes the slot of row (m, q) (R308 to R313). -/
def State.capSlot (s : State) (c m q : Nat) : State :=
  if !(s.flag (F.CAP_CFG_EN c) && s.fld (F.CAP_CFG_CREW c) == m && cseqEntry q == s.fld (F.CAP_CFG_E c) &&
       strokeOf q % (s.fld (F.CAP_CFG_DIV_M1 c) + 1) == 0) then s
  else
    let st := s.fld (F.CAP_STATUS_STATE c)
    let k := s.capOf c
    let prev := k.prev
    let s := s.setCap c { k with prev := some q }
    if !(st == 1 || st == 2) || (st == 2 && k.trig.isSome && decide (k.post ≤ k.written)) then s
    else
      let es := (Tab.get (fun _ => []) s.rce.cfg.caps c).map (fun sig => s.slotSample sig q prev)
      let (t, s) := s.catchTime m q
      let s := s.wrList (s.capPos c k.pos) (rowBytes 0 m q s.timeState t es)
      let k := s.capOf c
      let pos := k.pos
      let s := s.setCap c { k with pos := (pos + 1) % s.capNslot c }
      if k.trig.isSome then
        let later := (k.pend.filter (fun p => decide (0 ≤ seqDiff q p.2))).filter (fun p => match p.1 with | .unit _ => true | .env _ _ => false)
        let k := s.capOf c
        s.setCap c { k with written := k.written + 1, later := k.later + later.length, pend := k.pend.filter (fun p => decide (seqDiff q p.2 < 0)) }
      else if k.forced || k.pend.any (fun p => decide (0 ≤ seqDiff q p.2)) then s.capTrigger c m q pos t
      else s.setFld (F.CAP_PREV_PRE_VALID c) (min (s.fld (F.CAP_PRE_PRE c)) (s.fld (F.CAP_PREV_PRE_VALID c) + 1))

/-! ## Closing a row (R287, R289, R290) -/

/-- Counts stored samples for RCE_RATE. -/
def State.rateAdd (s : State) (n : Nat) : State :=
  let sec := s.now.sec
  let r := s.rce
  if r.rateSec = sec then s.setRce { r with rateNow := r.rateNow + n }
  else s.setRce { r with rateSec := sec, rateNow := n, rateOld := if r.rateSec + 1 = sec then r.rateNow else 0 }

/-- RCE_RATE: the samples stored in the last whole second. -/
def State.rceRate (s : State) : Nat :=
  let r := s.rce
  if r.rateSec = s.now.sec then r.rateOld else if r.rateSec + 1 = s.now.sec then r.rateNow else 0

/-- What a row that closes while its recording writes puts into the stream: its marks, its tokens, its reductions and its gaps
(R289, R290, R308). -/
def State.rowStore (s : State) (m q : Nat) (t : Stamp) (row : OpenRow) (stored reds : List (Nat × Nat)) (empty : List Nat) : State :=
  let s := row.marks.foldl (fun s w => s.writeRow 2 m q t [w]) s
  let s := if stored.isEmpty then s else (s.writeRow 0 m q t stored).rateAdd stored.length
  let s := if reds.isEmpty then s else (s.writeRow 1 m q t reds).rateAdd reds.length
  let missing := s.rce.cfg.sels.filter (fun e => e.2.crew == m && e.2.expect && e.2.e == cseqEntry q &&
    strokeOf q % e.2.div == e.2.phase && !row.toks.any (fun t => t.sig.toNat == e.1))
  let s := missing.foldl (fun s e =>
    ((s.count Reg.RCE_MISSING 1).setFld F.RCE_STATUS_MISSING 1).logPerSecond (0x20000 + e.1) 0x0913 (0x2000 + e.1) q) s
  let gaps := missing.map (fun e => (e.1 + 2 ^ 12, q)) ++ empty.map (fun sig => (sig + 2 * 2 ^ 12, q))
  if gaps.isEmpty then s else s.writeRow 3 m q t gaps

/-- Closes row (m, q): MARK rows, the samples, the MINMAX row, the GAP row, then the slots of the capture sets (R289, R290, R308);
`bad` names the signals on which the two reduction units differ. -/
def State.closeRow (s : State) (m : Nat) (row : OpenRow) (bad : List Nat) : State :=
  let q := row.cseq
  let rc := s.recCrew m
  let s := s.setRecCrew m { rc with rows := rc.rows.filter (fun r => r.cseq != q), closed := some q }
  let writing := match s.rce.chain with
    | none => false
    | some c => match c.stop with | none => true | some l => l.contains (m, q)
  let (t, s) := s.catchTime m q
  let isRed (t : Token) : Bool := match Tab.find s.rce.cfg.sels t.sig.toNat with | some e => e.minmax | none => false
  let native := row.toks.filter (fun t => !isRed t)
  let stored := native.map (fun t => (t.value.toNat, t.tag.toNat * 2 ^ 16 + t.st.toNat * 2 ^ 12 + t.sig.toNat))
  let red := s.rce.cfg.sels.foldl (fun (r : State × List (Nat × Nat) × List Nat) e =>
      if e.2.crew = m ∧ e.2.minmax then
        let x := r.1.reduceSig m q e.1 e.2 row.toks bad
        (x.1, r.2.1 ++ x.2.1, if x.2.2 then r.2.2 ++ [e.1] else r.2.2)
      else r) (s, [], [])
  let s := if writing then red.1.rowStore m q t row stored red.2.1 red.2.2 else red.1
  let s := (List.range 64).foldl (fun s c => s.capSlot c m q) s
  match s.rce.chain with
  | some c => match c.stop with
    | some l => (s.setRce { s.rce with chain := some { c with stop := some (l.filter (fun x => x != (m, q))) } }).stopCheck
    | none => s
  | none => s

/-- The closed rows not yet written, with the cycle in which they closed and their crew, in the order in which they are written (R290). -/
def State.dueRows (s : State) : List (Nat × Nat × OpenRow) :=
  let all := (List.range 8).flatMap (fun m => (s.recCrew m).rows.filterMap (fun r => r.due.map (fun d => (d, m, r))))
  let before (a b : Nat × Nat × OpenRow) : Bool := decide (a.1 < b.1) || (a.1 == b.1 && decide (a.2.1 < b.2.1))
  let rec ins (x : Nat × Nat × OpenRow) : List (Nat × Nat × OpenRow) → List (Nat × Nat × OpenRow)
    | [] => [x]
    | y :: l => if before x y then x :: y :: l else y :: ins x l
  all.foldl (fun l x => ins x l) []

/-- ROW_CLOSE (R287, R290): the oldest closed row of crew `m` is written, after the rows of other crews that come before it. -/
def execRowClose (m : Fin 8) (bad : List Nat) (s : State) : Host.Outcome State Fault Refusal :=
  let l := s.dueRows
  let n := (l.takeWhile (fun x => x.2.1 != m.val)).length
  if n < l.length then .next ((l.take (n + 1)).foldl (fun s x => s.closeRow x.2.1 x.2.2 bad) s) else .next s

/-! ## Measurements (R318 to R320) -/

/-- A real number rounded to a 53-bit significand, ties to even (binary64; R318). -/
def round53 (q : Rat) : Rat :=
  if q = 0 then 0
  else
    let n := q.num.natAbs
    -- 2^(e) ≤ |q| < 2^(e+1) or one below; scale to at least 53 and at most 55 bits, then keep 53
    let e : Int := (Nat.log2 n : Int) - (Nat.log2 q.den : Int)
    let sh (k : Int) : Rat := if 0 ≤ k then (((2 ^ k.toNat : Nat) : Int) : Rat) else 1 / (((2 ^ (-k).toNat : Nat) : Int) : Rat)
    let e := if rabs q < sh e then e - 1 else e
    let u := sh (52 - e)
    let x := rabs q * u
    let f := x.floor
    let r := x - f
    let f := if r < 1 / 2 then f else if 1 / 2 < r then f + 1 else if f % 2 = 0 then f else f + 1
    let y := (f : Rat) / u
    if q < 0 then -y else y

/-- A used slot of a measurement window: its time in seconds from the trigger slot, its value, its offset. -/
structure MeasPt where
  t   : Rat
  x   : Rat
  off : Int
  deriving DecidableEq, Repr

/-- Rising crossings of a level (R319): the interpolated time and the point reached. -/
def crossings (lvl : Rat) : List MeasPt → List (Rat × MeasPt)
  | a :: b :: l =>
    if a.x < lvl ∧ lvl ≤ b.x then (a.t + (b.t - a.t) * (lvl - a.x) / (b.x - a.x), b) :: crossings lvl (b :: l)
    else crossings lvl (b :: l)
  | _ => []

/-- Rising crossings of `lvl` that follow a point at or below `lvl − p1` since the crossing counted before (R319). -/
def periods (lvl p1 : Rat) : Bool → List MeasPt → List Rat
  | low, a :: b :: l =>
    let low := low || decide (a.x ≤ lvl - p1)
    if a.x < lvl ∧ lvl ≤ b.x ∧ low then
      (a.t + (b.t - a.t) * (lvl - a.x) / (b.x - a.x)) :: periods lvl p1 false (b :: l)
    else periods lvl p1 low (b :: l)
  | _, _ => []

/-- The last element of a list. -/
def lastOf {α : Type} : List α → Option α
  | [] => none
  | [x] => some x
  | _ :: l => lastOf l

def meanOf (l : List MeasPt) : Rat := round53 ((l.foldl (fun a p => round53 (a + p.x)) 0) / ((l.length : Int) : Rat))

/-- The result of a measurement over its used points (R319); none: no defined value. -/
def measure (kind : Nat) (p1 p2 : Word) (l : List MeasPt) : Option Rat :=
  match l with
  | [] => none
  | p :: _ =>
    let lo := l.foldl (fun a x => if x.x < a then x.x else a) p.x
    let hi := l.foldl (fun a x => if a < x.x then x.x else a) p.x
    let period : Option Rat :=
      let c := periods (round53 ((lo + hi) / 2)) (f32R p1) false l
      match c, lastOf c with
      | a :: _ :: _, some b => some (round53 ((b - a) / (((c.length - 1 : Nat) : Int) : Rat)))
      | _, _ => none
    match kind with
    | 0 => some lo
    | 1 => some hi
    | 2 => some (meanOf l)
    | 3 => some (round53 (rsqrt (round53 ((l.foldl (fun a p => round53 (a + round53 (p.x * p.x))) 0) / ((l.length : Int) : Rat)))))
    | 4 => some (round53 (hi - lo))
    | 5 => period
    | 6 => match period with | some x => if x = 0 then none else some (round53 (1 / x)) | none => none
    | 7 =>
      match (crossings (lo + (hi - lo) / 10) l).find? (fun c => decide (0 ≤ c.2.off)) with
      | none => none
      | some a =>
        match (crossings (lo + (hi - lo) * 9 / 10) l).find? (fun c => decide (a.1 ≤ c.1)) with
        | some b => some (b.1 - a.1)
        | none => none
    | _ =>
      let f := if F32.isNaN p2 then meanOf (l.drop (l.length - 16)) else f32R p2
      let out (x : MeasPt) : Bool := decide (f32R p1 < rabs (x.x - f))
      if !l.any out then some 0
      else match (l.reverse.takeWhile (fun x => !out x)) with
        | [] => none
        | r => match lastOf r with | some x => some x.t | none => none

/-- The window of a measurement (R318): its used points, how many samples were excluded, and whether a used one is not finite. -/
def State.measWindow (s : State) (c : Nat) (k : MeasCfg) (tr : Stamp) (trigPos pre post : Nat) : List MeasPt × Nat × Bool :=
  let n := s.capNslot c
  let offs := (List.range (pre + post)).map (fun i => (i : Int) - (pre : Int))
  (offs.filter (fun o => decide (k.first ≤ o) && decide (o ≤ k.last))).foldl (fun r o =>
    let a := s.capPos c (((trigPos : Int) + o) % (n : Int)).toNat
    let w := s.rdMem (a + 24 + 8 * k.idx + 4) 4
    let v := s.rdWord (a + 24 + 8 * k.idx)
    let hi := s.rdMem (a + 16) 4
    let t : Stamp := ⟨s.rdMem (a + 8) 4 + hi % 2 ^ 16 * 2 ^ 32, s.rdMem (a + 12) 4, hi / 2 ^ 16 * 256⟩
    let dt : Rat := (((t.units : Int) - (tr.units : Int) : Int) : Rat) / (((10 ^ 9 * 2 ^ 24 : Nat) : Int) : Rat)
    if w / 2 ^ 12 % 16 = 1 then (r.1, r.2.1 + 1, r.2.2)
    else (r.1 ++ [⟨dt, f32R v, o⟩], r.2.1, r.2.2 || !F32.isFinite v)) ([], 0, false)

/-- The 16 bytes of a measurement's result (R320), and its result and VALID for the envelopes; a window with a value that is not
finite has a result the spec does not state. -/
def State.measResult (s : State) (c : Nat) (k : MeasCfg) (tr : Stamp) (trigPos pre post : Nat) : State × List Nat × Word × Bool :=
  if !k.valid then (s, leBytes 16 0, F32.qNaN, false)
  else
    let w := s.measWindow c k tr trigPos pre post
    let sig := (Tab.get (fun _ => []) s.rce.cfg.caps c).getD k.idx 0
    let (v, ok, s) : Word × Bool × State :=
      if w.2.2 then let (x, s) := s.freshWord; (x, true, s)
      else match measure k.kind k.p1 k.p2 w.1 with
        | some q => (ratF32 q, true, s)
        | none => (0x7FC00000#32, false, s)
    (s, wordBytes [sig + k.kind * 2 ^ 12 + b2n ok * 2 ^ 16 + b2n (decide (0 < w.2.1)) * 2 ^ 17, v.toNat, w.1.length, w.2.1], v, ok)

/-! ## Completion, arming and release (R313 to R317) -/

/-- The capture header but for COMPLETE (R314): offsets 0x00 to 0xFB. -/
def State.capHeader (s : State) (c capseq : Nat) (aborted : Bool) (results : List (List Nat)) : List Nat :=
  let k := s.capOf c
  let pre := s.fld (F.CAP_PREV_PRE_VALID c)
  let (_, tTime, tPos) := match k.trig with | some x => x | none => (0, Stamp.ofNs 0, k.pos)
  let n := s.capNslot c
  let lat := (tTime.ns + 2 ^ 32 - k.trigTime.ns % 2 ^ 32) % 2 ^ 32
  let dead := match k.lastDone with | some d => (k.armedAt - d) % 2 ^ 64 | none => 2 ^ 64 - 1
  let body := wordBytes [0x434E4D41] ++ leBytes 2 1 ++
    leBytes 2 (b2n (decide (pre < s.fld (F.CAP_PRE_PRE c))) + 2 * b2n k.envHit + 4 * b2n aborted) ++
    wordBytes [capseq, s.capSlotLen c, pre + k.written, (tPos + n - pre % n) % n, tPos, pre, k.post] ++
    leBytes 2 k.hits ++ leBytes 1 k.primary ++ leBytes 1 k.src ++ wordBytes [k.trigCseq, k.later, k.trigTime.w0, k.trigTime.w1,
      k.trigTime.w2, lat] ++ leBytes 8 dead ++ wordBytes [s.now.w0, s.now.w1, s.now.w2] ++ leBytes 12 0 ++
    results.flatten
  let body := body ++ leBytes (0xF8 - body.length) 0
  body ++ leBytes 4 (crc32c body)

/-- Arms a set in the first free buffer (R315). -/
def State.capArmIn (s : State) (c buf post : Nat) : State :=
  let k := s.capOf c
  let s := s.setCap c { Cap.init with buf := buf, post := post, armedAt := s.now.ns, lastDone := k.lastDone, prev := k.prev }
  (s.setFld (F.CAP_PREV_PRE_VALID c) 0).setFld (F.CAP_STATUS_STATE c) 1

/-- The free buffer with the lowest number (R315). -/
def State.capFree (s : State) (c : Nat) : Option Nat :=
  let held := s.fld (F.CAP_STATUS_HELD c)
  if !bit held 0 then some 0 else if s.flag (F.CAP_CFG_NBUF c) && !bit held 1 then some 1 else none

/-- The MEAS entries of the crew's envelopes that name a measurement of the set (R326). -/
def State.measEnvs (s : State) (c : Nat) (i : Nat) (v : Word) (ok : Bool) : State :=
  let m := s.fld (F.CAP_CFG_CREW c)
  let k := s.capOf c
  ((Tab.get (fun _ => []) s.rce.cfg.envs m).zipIdx).foldl (fun s e =>
    if e.1.ekind = 2 ∧ e.1.n1 = c ∧ e.1.n2 = i ∧ k.envSet = some e.1.set then
      s.envTest m e.2 e.1 k.trigCseq (!ok || F32.lt v e.1.w2 || F32.lt e.1.w3 v)
    else s) s

/-- Completes a capture (R313): measurements, header, COMPLETE last, DONE, event 0x0919, and the next state of R315. -/
def State.capComplete (s : State) (c : Nat) : State :=
  let k := s.capOf c
  match k.trig with
  | none => s
  | some (_, tr, pos) =>
    let pre := s.fld (F.CAP_PREV_PRE_VALID c)
    let cfgs := Tab.get (fun _ => []) s.rce.cfg.meas c
    let r := cfgs.foldl (fun (r : State × List (List Nat) × List (Word × Bool)) m =>
      let x := r.1.measResult c m tr pos pre k.written
      (x.1, r.2.1 ++ [x.2.1], r.2.2 ++ [x.2.2])) (s, [], [])
    let s := r.1
    let n := s.num (Reg.CAP_COUNT c) + 1
    let base := s.capBase c
    let s := s.wrList base (s.capHeader c n false r.2.1)
    let s := s.wrMem (base + 0xFC) 4 1
    let s := (s.setNum (Reg.CAP_COUNT c) n).setFld (F.CAP_STATUS_DONE c) 1
    let s := (s.setFld (F.CAP_STATUS_LAST_BUF c) k.buf).setFld (F.CAP_STATUS_HELD c) (s.fld (F.CAP_STATUS_HELD c) ||| 2 ^ k.buf)
    let s := s.log 0x0919 (0x9000 + c) (s.num (Reg.CAP_COUNT c))
    let s := (r.2.2.zipIdx).foldl (fun s x => if (cfgs.getD x.2 ⟨false, 0, 0, 0, 0, 0, 0⟩).valid then s.measEnvs c x.2 x.1.1 x.1.2 else s) s
    let s := s.setCap c { s.capOf c with lastDone := some s.now.ns }
    if !s.flag (F.CAP_CFG_AUTO c) then s.setFld (F.CAP_STATUS_STATE c) 0
    else match s.capFree c with
      | some b => s.capArmIn c b k.post
      | none => s.setFld (F.CAP_STATUS_STATE c) 3

/-- CAPTURE_COMPLETE (R313): the last post-trigger slot has been written. -/
def execCaptureComplete (c : Fin 64) (s : State) : Host.Outcome State Fault Refusal :=
  let k := s.capOf c
  if s.fld (F.CAP_STATUS_STATE c) = 2 ∧ k.trig.isSome ∧ k.post ≤ k.written then .next (s.capComplete c) else .next s

/-- Refuses ARM with a code (R315, R316). -/
def State.capRefuse (s : State) (c code : Nat) : State :=
  (s.setFld (F.CAP_STATUS_REFUSE c) code).log 0x091A (0x9000 + c) code

/-- A write of ARM (R310, R315, R316). -/
def State.capArm (s : State) (c : Nat) : State :=
  let post := s.fld (F.CAP_POST_POST c)
  if !s.flag (F.CAP_CFG_EN c) then s.capRefuse c 4
  else if s.fld (F.CAP_STATUS_STATE c) ≠ 0 then s.capRefuse c 1
  else if post = 0 then s.capRefuse c 3
  else if s.capNslot c < s.fld (F.CAP_PRE_PRE c) + post then s.capRefuse c 2
  else match s.capFree c with
    | none => s.capRefuse c 5
    | some b => s.capArmIn c b post

/-- CAPTURE_ARM (R315). -/
def execCaptureArm (c : Fin 64) (s : State) : Host.Outcome State Fault Refusal := .next (s.capArm c)

/-- A write of DISARM (R315). -/
def State.capDisarm (s : State) (c : Nat) : State :=
  match s.fld (F.CAP_STATUS_STATE c) with
  | 1 => s.setFld (F.CAP_STATUS_STATE c) 0
  | 2 =>
    let k := s.capOf c
    let base := s.capBase c
    let s := s.wrList base (s.capHeader c (s.num (Reg.CAP_COUNT c)) true [])
    let s := s.wrMem (base + 0xFC) 4 1
    let s := s.setCap c { k with lastDone := none }
    (s.setFld (F.CAP_STATUS_HELD c) (s.fld (F.CAP_STATUS_HELD c) ||| 2 ^ k.buf)).setFld (F.CAP_STATUS_STATE c) 0
  | _ => s

/-- CAPTURE_DISARM (R315). -/
def execCaptureDisarm (c : Fin 64) (s : State) : Host.Outcome State Fault Refusal := .next (s.capDisarm c)

/-- A write of FORCE (R311, R315): on an ARMED set, the next slot is the trigger slot. -/
def State.capForce (s : State) (c : Nat) : State :=
  if s.fld (F.CAP_STATUS_STATE c) = 1 then
    (s.setCap c { s.capOf c with forced := true }).setFld (F.CAP_STATUS_STATE c) 2
  else s

/-- CAPTURE_FORCE (R315). -/
def execCaptureForce (c : Fin 64) (s : State) : Host.Outcome State Fault Refusal := .next (s.capForce c)

/-- A write of RELEASE (R315): a held buffer is freed, and a FROZEN set is re-armed in it. -/
def State.capRelease (s : State) (c b : Nat) : State :=
  let held := s.fld (F.CAP_STATUS_HELD c)
  if !bit held b then s
  else
    let s := s.setFld (F.CAP_STATUS_HELD c) (putBit held b false)
    if s.fld (F.CAP_STATUS_STATE c) = 3 then s.capArmIn c b (s.capOf c).post else s

/-- CAPTURE_RELEASE0 (R315). -/
def execCaptureRelease0 (c : Fin 64) (s : State) : Host.Outcome State Fault Refusal := .next (s.capRelease c 0)
/-- CAPTURE_RELEASE1 (R315). -/
def execCaptureRelease1 (c : Fin 64) (s : State) : Host.Outcome State Fault Refusal := .next (s.capRelease c 1)

/-! ## Arming of trigger units (R305) -/

/-- A write of RCE_TRG_ARM_g: bits of units that are not in use keep their value, and a unit armed anew starts without history. -/
def State.trgArmWrite (s : State) (g : Nat) (v : Nat) : State :=
  (List.range 32).foldl (fun s i =>
    let t := 32 * g + i
    if s.flag (F.TRG_CFG_EN t) then
      let was := s.rbit (Reg.RCE_TRG_ARM g) i
      let s := s.setRbit (Reg.RCE_TRG_ARM g) i (bit v i)
      if bit v i && !was then s.setTrg t TrgHist.init else s
    else s) s

/-- TRIGGER_ARM_WRITE (R305). -/
def execTriggerArmWrite (g : Fin 4) (v : Word) (s : State) : Host.Outcome State Fault Refusal :=
  .next (s.trgArmWrite g v.toNat)

/-! ## Envelope sets (R321, R324) -/

/-- IN_USE of the golden descriptors. -/
def State.syncGold (s : State) : State :=
  let used := (List.range 8).flatMap (fun m =>
    if s.flag (F.RCE_ENV_ACTIVE m) then
      ((Tab.get (fun _ => []) s.rce.cfg.envs m).zipIdx.filter (fun e => e.1.ekind == 1 && e.1.set == s.fld (F.RCE_ENV_SET m) &&
        !(s.recCrew m).dead.contains e.2)).map (fun e => e.1.n1)
    else [])
  (List.range 256).foldl (fun s g => s.setFld (F.GOLD_CTRL_IN_USE g) (b2n (used.contains g))) s

/-- A step's ENVSET becomes active for crew `m` on the step catch with CSEQ `q` (R321, R324). -/
def State.envSetChange (s : State) (m set q : Nat) : State :=
  let es := (Tab.get (fun _ => []) s.rce.cfg.envs m).zipIdx
  let mine := if set = 0xFF then [] else es.filter (fun e => e.1.set == set)
  let dead := (mine.filter (fun e => e.1.ekind == 1 && !s.flag (F.GOLD_CTRL_READY e.1.n1))).map (fun e => e.2)
  let gold := (mine.filter (fun e => e.1.ekind == 1)).map (fun e => (e.2, s.goldAddr e.1.n1, s.fld (F.GOLD_N_N e.1.n1)))
  let s := s.setRecCrew m { s.recCrew m with
    runs := [], acted := [], nth := [], dead := dead, gold := gold
    sets := if mine.isEmpty then (q, 0xFF) :: (s.recCrew m).sets else (q, set) :: (s.recCrew m).sets }
  let s := mine.foldl (fun s e => s.logIf (dead.contains e.2) 0x0922 0 (e.1.n1 + e.2 * 2 ^ 16)) s
  let s := (s.setFld (F.RCE_ENV_ACTIVE m) (b2n (!mine.isEmpty))).setFld (F.RCE_ENV_SET m) (if set = 0xFF then 0 else set)
  (s.setFld (F.RCE_ENV_VIOL m) 0).syncGold

/-- Suspends or resumes the checking of crew `m`; run counts restart on resumption (R321). -/
def State.envSuspend (s : State) (m : Nat) (b : Bool) : State :=
  let s := if !b && s.flag (F.RCE_ENV_SUSPENDED m) then s.setRecCrew m { s.recCrew m with runs := [] } else s
  s.setFld (F.RCE_ENV_SUSPENDED m) (b2n b)

/-- Records the step strokes of a stroke of crew `m` (R323). -/
def State.stepCount (s : State) (m stroke count : Nat) : State :=
  let c := s.recCrew m
  s.setRecCrew m { c with counts := (stroke, count) :: c.counts.filter (fun x => x.1 != stroke) |>.take 256 }

end Sys2Proof.Machine
end

