-- ==== Sys2Proof/Machine/Recipe.lean ====
section
/-! DEFINITION. Recipe images (R205 to R212): their layout and the checks of LOAD. -/
namespace Sys2Proof.Machine

/-! ## Layout (R208 to R211) -/

/-- The lead crew of a set of crews (R205). -/
def leadCrew (mask : Nat) : Nat := (crewsOf mask).headD 0

/-- MIN_STROKE_NS of a logical crew (R79). -/
def State.minStroke (s : State) (m : Nat) : Nat :=
  match Tab.find s.img.budget m with | some b => b.minStrokeNs | none => 0

/-- LEAD (R206). -/
def State.leadOf (s : State) (mask : Nat) : Nat :=
  let n := s.minStroke (leadCrew mask)
  if n = 0 then 1 else max 1 ((25000 + n - 1) / n)

/-- D or T of a length (R214, R216): whole strokes, rounded up. -/
def State.strokesOf (s : State) (mask len : Nat) : Nat :=
  let p := s.ctPeriod (leadCrew mask)
  if p = 0 then 0 else (len + p - 1) / p

/-- A change record (R210). -/
def chgOf (body : List Nat) (off : Nat) : ChgRec :=
  ⟨fieldAt body off 1, fieldAt body (off + 1) 1, fieldAt body (off + 2) 2, BitVec.ofNat 32 (fieldAt body (off + 4) 4)⟩

/-- Step `n` (R209) of a recipe: `l` is its header, `body` what stands from 0x80 on. -/
def rstepOf (l body : List Nat) (n : Nat) : RStep :=
  let w (k : Nat) := fieldAt body (32 * n + 4 * k) 4
  let f (k lo wd : Nat) := (w k >>> lo) % 2 ^ wd
  let vw (i : Nat) := fieldAt body (fieldAt l 0x38 4 - 0x80 + 4 * i) 4
  { len := w 0 + f 1 0 16 * 2 ^ 32
    isEnd := f 1 16 1 == 1
    resume := f 1 17 2
    toAct := f 1 19 2
    markEn := f 1 21 1 == 1
    envset := f 1 24 8
    csrc := f 2 0 12
    ckind := f 2 12 1
    op := f 2 13 3
    nhold := f 2 16 8
    thresh := BitVec.ofNat 32 (w 3)
    mark := f 5 16 16
    chgs := (List.range (f 5 0 16)).map (fun i => chgOf body (fieldAt l 0x34 4 - 0x80 + 8 * (f 4 0 24 + i)))
    vset := if f 6 0 24 = 0xFFFFFF then none else some ((vsetOf vw (f 6 0 24)).getD []) }

/-- The recipe a header and a body spell (R208). -/
def recipeOf (l body : List Nat) : Recipe :=
  let ab := fieldAt l 0x30 4
  { id := fieldAt l 0x20 8
    image := fieldAt l 0x28 8
    crews := fieldAt l 0x1C 4
    abortAt := if ab = 0xFFFFFFFF then none else some ab
    auto := bit (fieldAt l 0x3C 2) 1
    maxGap := fieldAt l 0x3E 2
    steps := (List.range (fieldAt l 0x0C 4)).map (rstepOf l body) }

/-! ## Checks of LOAD (R212) -/

/-- Reserved bits, listed values and pool bounds of step `n` (R209, R211); `top` is the length of the body. -/
def stepLayoutOk (l body : List Nat) (top n : Nat) : Bool :=
  let w (k : Nat) := fieldAt body (32 * n + 4 * k) 4
  let f (k lo wd : Nat) := (w k >>> lo) % 2 ^ wd
  let chg := fieldAt l 0x34 4; let vs := fieldAt l 0x38 4
  let vw (i : Nat) := fieldAt body (vs - 0x80 + 4 * i) 4
  let cond :=
    if f 1 16 1 = 0 then w 2 == 0 && w 3 == 0
    else decide (1 ≤ f 2 16 8) && (if f 2 12 1 = 0 then decide (f 2 13 3 ≤ 3) else decide (f 2 13 3 ≤ 1) && decide (f 2 0 12 ≤ 63))
  let vset :=
    if f 6 0 24 = 0xFFFFFF then true
    else
      let c := vw (f 6 0 24) % 2 ^ 16
      decide (0x80 ≤ vs) && decide (vs - 0x80 + 4 * (f 6 0 24 + 1 + (c + 1) / 2) ≤ top) && (vsetOf vw (f 6 0 24)).isSome &&
        (c % 2 == 0 || vw (f 6 0 24 + 1 + c / 2) / 2 ^ 16 == 0)
  f 1 22 2 == 0 && f 2 24 8 == 0 && f 4 24 8 == 0 && f 6 24 8 == 0 && w 7 == 0 && f 1 17 2 != 3 && f 1 19 2 != 3 && cond &&
    decide (f 5 0 16 ≤ 1024) && (f 5 0 16 == 0 || (decide (0x80 ≤ chg) && decide (chg - 0x80 + 8 * (f 4 0 24 + f 5 0 16) ≤ top))) && vset

/-- A change record names a crew of the recipe, a valid loop or axis, and a value within bounds (R210, R212). -/
def State.chgOk (s : State) (mask : Nat) (c : ChgRec) : Bool :=
  match s.physOf c.crew with
  | none => false
  | some n =>
    let l := c.tgt % 128
    let loopOk := s.lcfg n l 31 1 == 1
    bit mask c.crew &&
      (match c.typ with
       | 1 =>
         let k := c.tgt / 2 ^ 8 % 16
         loopOk && c.tgt == l + k * 2 ^ 8 && decide (k ≤ 12) && (s.outOfBounds n l [(k, c.value)]).isNone
       | 2 => loopOk && c.tgt == l && decide (c.value.toNat ≤ 3)
       | 3 => loopOk && c.tgt == l && decide (c.value.toNat ≤ 3)
       | 4 => decide (c.tgt ≤ 3) && s.flag (F.AX_CFG_EN n c.tgt) && decide (c.value.toNat ≤ 63)
       | _ => false)

/-- The content checks of one step (R212 step 8). -/
def State.stepOk (s : State) (mask : Nat) (p : RStep) : Bool :=
  let d := s.strokesOf mask p.len
  let long := decide (max 4 (s.leadOf mask + 1) ≤ d)
  (if p.isEnd then p.len == 0 || long else long) && p.chgs.all (s.chgOk mask) &&
    (!p.isEnd || p.ckind == 1 || (Tab.find s.rce.cfg.sels p.csrc).isSome) &&
    (match p.vset with
     | none => true
     | some vs => !vs.any (fun v => decide (64 ≤ v.1)) ||
        s.fld (F.CRS_CFG_SRC (s.fld (F.CT_CFG_CRS (leadCrew mask)))) == 0)

/-- The content checks of a recipe (R212 step 8, R205). -/
def State.recipeOk (s : State) (l body : List Nat) (top : Nat) (c : Recipe) : Bool :=
  let ns := c.steps.length
  c.crews != 0 && (crewsOf c.crews).all (fun m => (s.physOf m).isSome && s.equalTable (leadCrew c.crews) m) &&
    decide (1 ≤ ns) && decide (ns ≤ 65536) && decide (32 * ns ≤ top) && fieldAt l 0x34 4 % 8 == 0 && fieldAt l 0x38 4 % 4 == 0 &&
    (match c.abortAt with | none => true | some a => decide (1 ≤ a) && decide (a < ns)) &&
    (List.range ns).all (stepLayoutOk l body top) && c.steps.all (s.stepOk c.crews)

/-- Verification of a recipe at an address (R212): the code of the check that fails (R240), or the recipe.  The number of steps is bounded by
what the item can hold before they are read. -/
def State.recipeVerify (s : State) (addr len : Nat) : Nat × Option Recipe :=
  let l := s.rdList addr len
  let enc := bit (fieldAt l 0x3C 2) 0
  if !headerOk l 0x10 0x524E4D41 0x400000 enc || fieldAt l 8 4 != len || fieldAt l 0x1C 4 / 2 ^ 8 != 0 || fieldAt l 0x3C 2 / 4 != 0 ||
      fieldAt l 0x78 8 != 0 then (1, none)
  else
    let c := s.itemCheck 0x10 l
    if c ≠ 0 then (c, none)
    else
      match itemBody l enc with
      | none => (6, none)
      | some body =>
        if !s.compat (fieldAt l 0x28 8) (fieldAt l 0x1C 4) then (7, none)
        else if body.length < 32 * fieldAt l 0x0C 4 then (8, none)
        else
          let r := recipeOf l body
          if s.recipeOk l body body.length r then (0, some r) else (8, none)

end Sys2Proof.Machine
end

