-- ==== Sys2Proof/Machine/SeqOps.lean ====
section
/-! DEFINITION. The recipe sequencer's shared operations: states and refusals (R223, R224, R240), mailbox 0 (R219, R434), and cuts
(R225 to R229, R281). -/
namespace Sys2Proof.Machine

def State.setSeq (s : State) (q : SeqState) : State := { s with seq := q }
def State.rcpCrewList (s : State) (r : Nat) : List Nat := crewsOf (s.rcpCrews r)
def State.rcpLead (s : State) (r : Nat) : Nat := leadCrew (s.rcpCrews r)
def State.rcpLEAD (s : State) (r : Nat) : Nat := s.fld (F.SEQ_R_STATE_LEAD r)
def State.rcpStep (s : State) (r : Nat) : Nat := s.fld (F.SEQ_R_STEP_STEP r)
def State.rcpCount (s : State) (r : Nat) : Nat := s.num (Reg.SEQ_R_COUNT r)
/-- Step `k` of the resident recipe. -/
def State.stepAt (s : State) (r k : Nat) : Option RStep := (s.slotOf r).recipe.bind (fun c => c.steps[k]?)

/-! ## States (R223, R224, R239) -/

/-- DETAIL with the recipe and a step (R239). -/
def rcpDetail (r step : Nat) : Nat := r * 2 ^ 16 + step % 2 ^ 16

/-- One change of state: CAUSE, 0x0715, RCHG, the suspension of checking (R321) and the triggers of R306. -/
def State.setRcpTo (s : State) (r v cause : Nat) : State :=
  if s.rcpState r = v then s
  else
    let s := (s.setFld (F.SEQ_R_STATE_STATE r) v).setFld (F.SEQ_R_STATE_CAUSE r) cause
    let s := (s.setRbit Reg.SEQ_RCHG r true).log 0x0715 0 (r * 2 ^ 16 + v * 2 ^ 20 + cause * 2 ^ 28)
    let s := (s.rcpCrewList r).foldl (fun s m => s.envSuspend m (v != 2 && v != 5)) s
    s.fireRecipe r 2 v (s.num (Reg.CT_LAST_CSEQ (s.rcpLead r)))

/-- Whether the resident recipe is compatible with the running image (R89). -/
def State.rcpCompat (s : State) (r : Nat) : Bool :=
  match (s.slotOf r).recipe with | some c => s.compat c.image c.crews | none => false

/-- Enters a state; DONE and ABORTED become STALE when the recipe is not compatible (R224). -/
def State.setRcp (s : State) (r v cause : Nat) : State :=
  let s := s.setRcpTo r v cause
  if (v == 6 || v == 7) && !s.rcpCompat r then s.setRcpTo r 9 cause else s

/-- The result of a command (R240): SEQ_RES and 0x0711 for a refusal. -/
def State.seqResult (s : State) (r cmd code : Nat) : State :=
  let s := ((s.setFld F.SEQ_RES_RCP r).setFld F.SEQ_RES_CMD cmd).setFld F.SEQ_RES_REFUSE code
  s.logIf (code != 0) 0x0711 0 (code + r * 2 ^ 16 + cmd * 2 ^ 24)

/-! ## Mailbox 0 (R219, R434) -/

/-- Puts a request's words into mailbox 0 and submits it. -/
def State.seqPost (s : State) (ws : List Nat) : State :=
  ((ws.zipIdx).foldl (fun s w => s.setNum (Reg.PVM_MB_REQ 0 w.2) w.1) s).mbGo 0

/-- Queues a request of recipe `r`; the first one waiting goes into the mailbox. -/
def State.seqSend (s : State) (r : Nat) (ws : List Nat) : State :=
  let first := s.seq.mail.isEmpty
  let s := s.setSeq { s.seq with mail := s.seq.mail ++ [(r, ws)] }
  if first then s.seqPost ws else s

/-- The words of a valve set (R211). -/
def vsetWords (vs : List (Nat × Bool)) : List Nat :=
  let e (i : Nat) : Nat := match vs[i]? with | some v => v.1 + b2n v.2 * 2 ^ 15 | none => 0
  vs.length :: (List.range ((vs.length + 1) / 2)).map (fun i => e (2 * i) + e (2 * i + 1) * 2 ^ 16)

/-- A VSET request (R434): T, CSEQ, the recipe as ID, and the set. -/
def vsetReq (r cseq : Nat) (t : Stamp) (vs : List (Nat × Bool)) : List Nat :=
  let body := [t.w0, t.w1, t.w2, cseq, r] ++ vsetWords vs
  (1 + body.length * 2 ^ 8) :: body

/-- The network time of the catch of crew `m` with a CSEQ that lies `n` strokes ahead (R219): its position on a network course, otherwise
the present time and `n` shortest strokes (notes/assumptions/40.md). -/
def State.catchNetTime (s : State) (m cseq n : Nat) : Stamp :=
  if s.fld (F.CRS_CFG_SRC (s.fld (F.CT_CFG_CRS m))) = 0 then Stamp.ofNs (s.cseqPos m cseq)
  else s.now.move (n * s.minStroke m * 2 ^ 24 : Nat)

/-- Withdraws what recipe `r` has submitted (R220): requests not yet posted are dropped, posted ones withdrawn by ID. -/
def State.seqWithdraw (s : State) (r : Nat) : State :=
  let mail := match s.seq.mail with
    | [] => []
    | h :: l => h :: l.filter (fun x => x.1 != r)
  (s.setSeq { s.seq with mail := mail }).seqSend r [2 + 2 ^ 8, r]

/-! ## Staged changes (R217, R218) -/

/-- Stages the loop changes of a step with the crews. -/
def State.stageStep (s : State) (r cseq : Nat) (p : RStep) : State :=
  p.chgs.foldl (fun s c =>
    let chg : Option StepChg := match c.typ with
      | 1 => some (.param (c.tgt / 2 ^ 8 % 16) c.value)
      | 2 => some (.mode c.value.toNat)
      | 3 => some (.rep c.value.toNat)
      | _ => none
    match s.physOf c.crew, chg with
    | some n, some x => s.setLpe n { s.lpeOf n with staged := (s.lpeOf n).staged ++ [⟨r, cseq, c.tgt % 128, x⟩] }
    | _, _ => s) s

/-- Cancels the changes a recipe has staged for a step catch (R220). -/
def State.unstage (s : State) (r cseq : Nat) : State :=
  (List.range 9).foldl (fun s n =>
    s.setLpe n { s.lpeOf n with staged := (s.lpeOf n).staged.filter (fun x => !(x.rcp == r && x.cseq == cseq)) }) s

/-! ## Cuts (R225 to R229) -/

/-- The first byte of a staging buffer, of the fast and of the repetitive part of a checkpoint area (R227, R229). -/
def stageAddr (b : Nat) : Nat := 0x10200000 + b * 0x100000
def fastAddr (a : Nat) : Nat := 0x88000000 + a * 0x1000000
def repAddr (a : Nat) : Nat := fastAddr a + 0x800000

/-- The mode and FALLBACK word of a loop record (R229). -/
def State.loopModeWord (s : State) (n l : Nat) : Word :=
  BitVec.ofNat 32 (s.fld (F.LPE_MODE_ACT n l) % 8 + b2n (bit (s.lw n l 0x90).toNat 5) * 8)

/-- The words of the part P of a loop record, and of its part S with REPSTATE and the mode. -/
def State.loopRecP (s : State) (n l : Nat) : List Word := (List.range 14).map (fun i => s.lw n l (4 * i))
def State.loopRecS (s : State) (n l : Nat) : List Word :=
  (List.range 10).map (fun i => s.lw n l (0x70 + 4 * i)) ++ [s.lw n l 0xB4, s.loopModeWord n l]

/-- The bytes of a loop record (R229). -/
def State.loopRec (s : State) (n l : Nat) : List Nat := wordBytes ((s.loopRecP n l ++ s.loopRecS n l).map (fun w => w.toNat))

/-- The 64 bytes of an axis record (R281). -/
def State.axisRec (s : State) (a : Nat) : List Nat :=
  let x := s.axisOf a
  let n := (s.axCrew a).getD 0
  let st := s.axState n a
  let q (z : Int) : List Nat := leBytes 8 (ofSigned 64 z)
  let flags := st % 8 + b2n x.referenced * 16 + b2n (s.flag (F.AX_STATE_LOST n (a % 4))) * 32 + b2n (st != 0) * 64 +
    b2n (st == 2 || st == 3) * 128 + (x.table.getD 0) % 64 * 256
  q x.cpos ++ q x.cvel ++ q x.s ++ q x.ofs ++ leBytes 4 flags ++ leBytes 4 (match x.segs with | g :: _ => g.idx | [] => 0) ++
    List.replicate 24 0

/-- The bytes of one bit for each of the 1 024 valves. -/
def valveMask (f : Nat → Bool) : List Nat :=
  (List.range 128).map (fun i => (List.range 8).foldl (fun b j => b + b2n (f (8 * i + j)) * 2 ^ j) 0)

/-- The 512 bytes of a recipe record (R229); a slot in RESUME_WAIT keeps what it had recorded. -/
def State.rcpRec (s : State) (r : Nat) : List Nat :=
  if !s.rcpActive r then List.replicate 512 0
  else
    let x := s.slotOf r
    let (st, k, n) := match s.rcpState r, x.saved with
      | 8, some v => (v.state, v.step, v.count)
      | v, _ => (v, s.rcpStep r, s.rcpCount r)
    leBytes 4 st ++ leBytes 4 k ++ leBytes 4 n ++ [0, 0, 0, 0] ++ leBytes 4 (s.num (Reg.SEQ_R_ID_LO r)) ++
      leBytes 4 (s.num (Reg.SEQ_R_ID_HI r)) ++ List.replicate 8 0 ++
      valveMask (fun v => (Tab.find x.valves v).isSome) ++ valveMask (fun v => (Tab.find x.valves v).getD false) ++
      List.replicate 224 0

/-- The axes of crew `m`, captured into a buffer at its cut (R226, R281). -/
def State.cutAxes (s : State) (b m : Nat) : State :=
  (List.range 4).foldl (fun s j => s.wrList (stageAddr b + 0x22000 + 64 * (4 * m + j)) (s.axisRec (4 * m + j))) s

/-- Captures the loops of a cut that a test selects. -/
def State.cutLoops (s : State) (c : Cut) (f : Nat × Nat → Bool) : State × Cut :=
  let s := (c.wanted.filter f).foldl (fun s w =>
    match s.physOf w.1 with
    | some n => s.wrList (stageAddr c.buf + 0x2000 + 0x4000 * w.1 + 0x80 * w.2) (s.loopRec n w.2)
    | none => s) s
  (s, { c with wanted := c.wanted.filter (fun w => !f w) })

/-- Everything of a cut is captured. -/
def Cut.whole (c : Cut) : Bool := c.wanted.isEmpty && c.vars.isSome

/-- Starts the write of the oldest whole cut into the area not written last (R227, R230). -/
def State.ckptStart (s : State) : State :=
  if s.seq.cuts.any (fun c => c.area.isSome) then s
  else
    match s.seq.cuts.find? Cut.whole with
    | none => s
    | some c =>
      let a := 1 - s.seq.area
      let s := s.setSeq { s.seq with area := a, cuts := s.seq.cuts.map (fun x => if x.buf == c.buf then { x with area := some a } else x) }
      (s.wrMem (fastAddr a + 0xFC) 4 0).setFld F.SEQ_STATUS_CKPT_BUSY 1

/-- Replaces a cut in the list. -/
def State.putCut (s : State) (c : Cut) : State :=
  s.setSeq { s.seq with cuts := s.seq.cuts.map (fun x => if x.buf == c.buf then c else x) }

/-- The staging buffer a cut takes (R227), and whether it replaces a cut. -/
def State.cutBuf (s : State) : Nat × Bool :=
  match [0, 1].find? (fun b => !s.seq.cuts.any (fun c => c.buf == b)) with
  | some b => (b, false)
  | none =>
    match s.seq.cuts.find? (fun c => c.area.isNone) with
    | some c => (c.buf, true)
    | none => (0, true)

/-- The crews bound by the running image. -/
def State.boundCrews (s : State) : List Nat := (List.range 8).filter (fun m => (s.physOf m).isSome)
/-- The same as a mask. -/
def State.boundMask (s : State) : Nat := s.boundCrews.foldl (fun a m => a + 2 ^ m) 0

/-- Copies the mirrored program variables into a cut's buffer (R226). -/
def State.cutProg (s : State) (c : Cut) : State :=
  match s.cyc.cur with
  | none => s.putCut { c with vars := some 0 }
  | some p => (s.copyMem p.areas.mirror.1 (stageAddr c.buf + 0x24000) p.areas.mirror.2).putCut { c with vars := some p.areas.mirror.2 }

/-- A cycle boundary: the cuts that wait for the program's variables take them (R226). -/
def State.cutBoundary (s : State) : State :=
  (s.seq.cuts.foldl (fun s c => if c.vars.isNone then s.cutProg c else s) s).ckptStart

/-- The cseq at which each crew is cut for a checkpoint that catch of crew `m` asks for (R225). -/
def State.cutCseqs (s : State) (m cseq : Nat) : List (Option Nat) :=
  let cut (k : Nat) : Option Nat :=
    if (s.physOf k).isNone then none
    else if k = m || s.equalTable m k then some cseq
    else if !s.flag (F.CT_CTRL_RUNNING k) then some (s.num (Reg.CT_LAST_CSEQ k))
    else none
  (List.range 8).map cut

/-- The recipe records and the axes of the crews already cut go into buffer `b` (R226, R227). -/
def State.cutBody (s : State) (b : Nat) (cs : List (Option Nat)) : State :=
  let s := (List.range 16).foldl (fun s r => s.wrList (stageAddr b + 512 * r) (s.rcpRec r)) s
  s.boundCrews.foldl (fun s k => if (cs.getD k none).isSome then s.cutAxes b k else s) s

/-- The loops of the bound crews that a checkpoint takes (R226). -/
def State.cutLoopList (s : State) : List (Nat × Nat) :=
  s.boundCrews.flatMap (fun k =>
    match s.physOf k with
    | some n => ((List.range 128).filter (fun l => s.lcfg n l 31 1 == 1)).map (fun l => (k, l))
    | none => [])

/-- The cut `c` is entered; loops of a crew whose table stands still are copied as they stand (R227). -/
def State.cutEnter (s : State) (c : Cut) : State :=
  let s := s.setSeq { s.seq with cuts := s.seq.cuts.filter (fun x => x.buf != c.buf) ++ [c] }
  let (s, c) := s.cutLoops c (fun w => !s.flag (F.CT_CTRL_RUNNING w.1))
  let s := s.putCut c
  (if s.fld F.CYC_STATUS_STATE = 3 then s else s.cutProg c).ckptStart

/-- A cut on the catch of crew `m` with a CSEQ (R225 to R227); crews whose table does not run are cut at once, and the program's variables
too while no cycle runs. -/
def State.ckptCut (s : State) (m cseq : Nat) (dip : Bool) : State :=
  let (b, merged) := s.cutBuf
  let s := (if merged then s.count Reg.SEQ_CKPT_MERGED 1 else s).clearMem (stageAddr b) 0x100000
  let cs := s.cutCseqs m cseq
  let s := s.cutBody b cs
  s.cutEnter ⟨b, dip, s.now, cs, s.cutLoopList, none, none, s.boundMask, s.imageId⟩

/-- A loop's first update with CSEQ at or beyond its crew's cut is about to be written: its record is taken (R226). -/
def State.cutBeforeUpdate (s : State) (n l q : Nat) : State :=
  match s.logicalOf n with
  | none => s
  | some m =>
    let s := s.seq.cuts.foldl (fun s c =>
      match c.cseqs.getD m none with
      | some k =>
        if decide (0 ≤ seqDiff q k) && c.wanted.contains (m, l) then
          let (s, c) := s.cutLoops c (fun w => w == (m, l))
          s.putCut c
        else s
      | none => s) s
    s.ckptStart

/-- A stroke start of crew `m` (R225, R226): crews not yet cut are cut by it, and loops without an update for 2 strokes are copied as they
stand. -/
def State.cutStroke (s : State) (m q : Nat) : State :=
  let s := s.seq.cuts.foldl (fun s c =>
    match c.cseqs.getD m none with
    | none => if (s.physOf m).isSome then (s.cutAxes c.buf m).putCut { c with cseqs := c.cseqs.set m (some q) } else s
    | some k =>
      if 2 < strokeDiff (strokeOf q) (strokeOf k) then
        let (s, c) := s.cutLoops c (fun w => w.1 == m)
        s.putCut c
      else s) s
  s.ckptStart

/-- The header of a checkpoint without COMMIT (R229). -/
def ckptHeader (kind ckseq len repseq crc : Nat) (c : Cut) : List Nat :=
  let h := leBytes 4 0x4B434D41 ++ leBytes 2 kind ++ leBytes 2 (b2n (c.dip && kind == 1)) ++ leBytes 4 ckseq ++ leBytes 4 len ++
    wordBytes [c.time.w0, c.time.w1, c.time.w2] ++ leBytes 4 repseq ++ wordBytes (c.cseqs.map (fun q => q.getD 0)) ++
    leBytes 4 c.crews ++ [0, 0, 0, 0] ++ leBytes 8 c.image ++ leBytes 4 crc
  let h := h ++ List.replicate (0xF4 - h.length) 0
  h ++ [0, 0, 0, 0] ++ leBytes 4 (crc32c h)

/-- Starts a repetitive snapshot at a step-boundary cut, or skips it (R228). -/
def State.repStart (s : State) (r m cseq : Nat) : State :=
  if s.seq.repCut.isSome then (s.count Reg.SEQ_REP_SKIP 1).log 0x0720 0 (rcpDetail r (s.rcpStep r))
  else
    let a := 1 - s.seq.repLast
    let cs := (List.range 8).map (fun k => if k = m || s.equalTable m k then some cseq else some (s.num (Reg.CT_LAST_CSEQ k)))
    let s := s.setSeq { s.seq with repCut := some ⟨0, false, s.now, cs, [], none, some a, s.boundMask, s.imageId⟩ }
    (s.wrMem (repAddr a + 0xFC) 4 0).setFld F.SEQ_STATUS_REP_BUSY 1

end Sys2Proof.Machine
end

