-- ==== Sys2Proof/Machine/PlkOps.lean ====
section
/-! DEFINITION. The active module's mirror cuts (R446, R447): capturing the marked records and sending them. -/
namespace Sys2Proof.Machine

/-- A record: header and body (R446). -/
def mirRecord (typ crew idx : Nat) (body : List Nat) : List Nat :=
  [typ, crew] ++ leBytes 2 idx ++ leBytes 2 body.length ++ [0, 0] ++ body

/-- Captures marked loop `l` of crew `m`: part S, and part P if it changed since it was last sent (R446). -/
def State.mirLoop (s : State) (c : MirCut) (w : Nat × Nat) : State × MirCut :=
  match s.physOf w.1 with
  | none => (s, { c with wanted := c.wanted.erase w })
  | some n =>
    let b (l : List Word) : List Nat := wordBytes (l.map (fun x => x.toNat))
    let p := b (s.loopRecP n w.2)
    let new := c.full || Tab.find s.plk.sentP (128 * w.1 + w.2) != some p
    (s.setPlk { s.plk with sentP := Tab.put s.plk.sentP (128 * w.1 + w.2) p },
     { c with wanted := c.wanted.erase w
              loopP := if new then c.loopP ++ [mirRecord 2 w.1 w.2 p] else c.loopP
              loopS := c.loopS ++ [mirRecord 1 w.1 w.2 (b (s.loopRecS n w.2))] })

/-- Captures the loops that a test selects. -/
def State.mirLoops (s : State) (c : MirCut) (f : Nat × Nat → Bool) : State × MirCut :=
  (c.wanted.filter f).foldl (fun x w => x.1.mirLoop x.2 w) (s, c)

/-- The marked axes of a crew, at its cut. -/
def State.mirAxes (s : State) (m : Nat) (c : MirCut) : MirCut :=
  { c with axis := c.axis ++ (s.img.mir.axes.filter (fun w => w.1 == m)).map (fun w => mirRecord 3 m w.2 (s.axisRec (4 * m + w.2))) }

/-- The blocks of the mirrored program variables, where the image marks them (R446). -/
def State.mirBlocks (s : State) : List (List Nat) :=
  match s.cyc.cur with
  | some p =>
    if s.img.mir.prog then
      (List.range ((p.areas.mirror.2 + 4095) / 4096)).map (fun b =>
        let n := min 4096 (p.areas.mirror.2 - 4096 * b)
        mirRecord 5 0 b (s.rdList (p.areas.mirror.1 + 4096 * b) n ++ List.replicate (4096 - n) 0))
    else []
  | none => []

/-- Bytes of mirror frames of the running second (PLK_RATE). -/
def State.mirCount (s : State) (n : Nat) : State :=
  let p := s.plk
  if p.rateSec = s.now.sec then s.setPlk { p with rateNow := p.rateNow + n }
  else
    (s.setNum Reg.PLK_RATE (if p.rateSec + 1 = s.now.sec then min p.rateNow 0xFFFFFFFF else 0)).setPlk { p with rateSec := s.now.sec, rateNow := n }

/-- PLK_RATE: mirror bytes of the last whole second. -/
def State.mirRate (s : State) : Nat :=
  if s.plk.rateSec = s.now.sec then s.num Reg.PLK_RATE else if s.plk.rateSec + 1 = s.now.sec then min s.plk.rateNow 0xFFFFFFFF else 0

/-- A lane sends while it has a link and is not RETIRED (R457). -/
def State.laneUp (s : State) (l : Nat) : Bool := s.plk.links.contains l && s.inUse (.lane l)

/-- A frame on both lanes (R441, R447). -/
def State.laneSend (s : State) (bytes : List Nat) : State :=
  [0, 1].foldl (fun s l => if s.laneUp l then s.emit (.frame (0x4D00 + l) bytes) else s) s

/-- A mirror frame (R447). -/
def State.mirFrame (s : State) (kind mseq frag nfrag : Nat) (pay : List Nat) : List Nat :=
  let h := leBytes 4 0x4D4E4D41 ++ leBytes 2 1 ++ leBytes 2 kind ++ leBytes 4 mseq ++ leBytes 2 frag ++ leBytes 2 nfrag ++
    leBytes 8 s.plk.epoch ++ leBytes 4 pay.length
  h ++ leBytes 4 (crc32c (h ++ pay)) ++ pay

/-- A byte string in pieces of at most `k` bytes. -/
def pieces (k : Nat) (l : List Nat) : List (List Nat) :=
  (List.range ((l.length + k - 1) / k)).map (fun i => (l.drop (k * i)).take k)

/-- Sends a whole cut: its records in the order LOOP_P, LOOP_S, AXIS, RECIPE, PROG, then the trailer (R446, R447, R454). -/
def State.mirSend (s : State) (c : MirCut) : State :=
  let recs := c.loopP ++ c.loopS ++ c.axis ++ c.rcp ++ c.prog.getD []
  let mseq := (s.num Reg.PLK_MSEQ + 1) % 2 ^ 32
  let parts := pieces 8192 recs.flatten
  let n := parts.length
  let trailer := leBytes 4 mseq ++ wordBytes [c.time.w0, c.time.w1, c.time.w2] ++ wordBytes (c.cseqs.map (fun q => q.getD 0)) ++
    leBytes 4 (s.boundCrews.foldl (fun a m => a + 2 ^ m) 0) ++ leBytes 8 s.imageId ++ leBytes 4 recs.length ++
    leBytes 4 (crc32c recs.flatten) ++ leBytes 4 (b2n c.full)
  let frames := parts.zipIdx.map (fun x => s.mirFrame (if c.full then 2 else 0) mseq x.2 (n + 1) x.1) ++ [s.mirFrame 1 mseq n (n + 1) trailer]
  let s := frames.foldl (fun s f => (s.laneSend f).mirCount f.length) s
  (s.setNum Reg.PLK_MSEQ mseq).setPlk { s.plk with cut := none }

/-- Puts a cut back, or sends it when everything of it is captured. -/
def State.mirPut (s : State) (c : MirCut) : State :=
  if c.wanted.isEmpty && c.prog.isSome && (List.range 8).all (fun m => (s.physOf m).isNone || (c.cseqs.getD m none).isSome) then s.mirSend c
  else s.setPlk { s.plk with cut := some c }

/-- Begins a cut on a catch of crew `m` (R225, R446); `now` takes everything as it stands. -/
def State.mirStart (s : State) (m cseq : Nat) (full now : Bool) : State :=
  let q (k : Nat) : Option Nat :=
    if (s.physOf k).isNone then none
    else if k = m || s.equalTable m k then some cseq
    else if now || !s.flag (F.CT_CTRL_RUNNING k) then some (s.num (Reg.CT_LAST_CSEQ k))
    else none
  let cs := (List.range 8).map q
  let rcp := ((List.range 16).filter s.rcpActive).map (fun r => mirRecord 4 0 r (s.rcpRec r))
  let c : MirCut := ⟨full, s.now, cs, s.img.mir.loops, [], [], [], rcp, none⟩
  let c := (List.range 8).foldl (fun c k => if (cs.getD k none).isSome then s.mirAxes k c else c) c
  let (s, c) := s.mirLoops c (fun w => now || !s.flag (F.CT_CTRL_RUNNING w.1))
  let c := if now || !s.img.mir.prog || s.fld F.CYC_STATUS_STATE ≠ 3 then { c with prog := some s.mirBlocks } else c
  s.mirPut c

/-- A loop's first update at or beyond its crew's cut is about to be written (R226, R446). -/
def State.mirBeforeUpdate (s : State) (n l q : Nat) : State :=
  match s.plk.cut, s.logicalOf n with
  | some c, some m =>
    match c.cseqs.getD m none with
    | some k =>
      if decide (0 ≤ seqDiff q k) && c.wanted.contains (m, l) then
        let (s, c) := s.mirLoop c (m, l)
        s.mirPut c
      else s
    | none => s
  | _, _ => s

/-- A stroke start of crew `m` (R225, R226, R446). -/
def State.mirStroke (s : State) (m q : Nat) : State :=
  match s.plk.cut with
  | none => s
  | some c =>
    match c.cseqs.getD m none with
    | none => if (s.physOf m).isSome then s.mirPut (s.mirAxes m { c with cseqs := c.cseqs.set m (some q) }) else s
    | some k =>
      if 2 < strokeDiff (strokeOf q) (strokeOf k) then
        let (s, c) := s.mirLoops c (fun w => w.1 == m)
        s.mirPut c
      else s

/-- A cycle boundary of the program (R446). -/
def State.mirBoundary (s : State) : State :=
  match s.plk.cut with
  | some c => if c.prog.isNone then s.mirPut { c with prog := some s.mirBlocks } else s
  | none => s

end Sys2Proof.Machine
end

