-- ==== Sys2Proof/Machine/Seq.lean ====
section
/-! DEFINITION. The recipe sequencer (chapter 08): commands, steps, valve sets, and checkpoints. -/
namespace Sys2Proof.Machine

/-! ## LOAD and UNLOAD (R212, R213, R224) -/

/-- The MRAM area of recipe `r` (R20). -/
def rcpArea (r : Nat) : Nat := 0x84000000 + r * 0x400000

/-- The present state accepts LOAD, and a command while a LOAD into the slot runs does not act (notes/assumptions/41.md). -/
def State.seqLoading (s : State) (r : Nat) : Bool := s.seq.loading == some r

/-- SEQ_LOAD (R212, R213, R240): LOAD of recipe `r`. -/
def execSeqLoad (r : Fin 16) (s : State) : Host.Outcome State Fault Refusal :=
  let code := if s.flag F.SEQ_RES_BUSY then 11 else if s.rcpActive r then 9 else 0
  let s := s.seqResult r 1 code
  if code ≠ 0 then .next (s.setFld F.SEQ_STATUS_LOAD_DONE 1)
  else .next ((s.setFld F.SEQ_RES_BUSY 1).setSeq { s.seq with loading := some r })

/-- Enters a resident recipe into its slot's registers (R206, R223). -/
def State.rcpShow (s : State) (r : Nat) (c : Option Recipe) : State :=
  let (id, crews, lead) := match c with | some c => (c.id, c.crews, s.leadOf c.crews) | none => (0, 0, 0)
  let s := s.setNum64 (Reg.SEQ_R_ID_LO r) (Reg.SEQ_R_ID_HI r) id
  let s := (s.setFld (F.SEQ_R_STATE_CREWS r) crews).setFld (F.SEQ_R_STATE_LEAD r) lead
  s.setSlot r { SeqSlot.init with recipe := c }

/-- What the verification of a recipe's stored bytes leaves of its slot (R212, R213). -/
def State.seqStored (s : State) (r : Nat) : Nat × Option Recipe → State
  | (0, some rc) =>
    let s := (s.rcpShow r (some rc)).seqResult r 1 0
    let s := s.extendMeas 5 ((s.rdList (rcpArea r) 0x70).drop 0x40)
    (s.setRcp r 1 0).log 0x0710 0 (rc.id % 2 ^ 32)
  | (c, _) => (((s.clearMem (rcpArea r) 0x400000).seqResult r 1 c).setRcp r 0 0).rcpShow r none

/-- The checks of a load's source and, where they hold, the copy into the slot (R212, R213). -/
def State.seqStore (s : State) (r src len : Nat) : State :=
  if !s.sourceOk src len then s.seqResult r 1 12
  else if (s.recipeVerify src len).1 ≠ 0 then s.seqResult r 1 (s.recipeVerify src len).1
  else
    let s := (s.clearMem (rcpArea r) 0x400000).copyMem src (rcpArea r) len
    s.seqStored r (s.recipeVerify (rcpArea r) len)

/-- SEQ_LOAD_DONE (R212, R213): the verification in DRAM, the copy into the slot's area and the second verification end. -/
def execSeqLoadDone (_u : Unit) (s : State) : Host.Outcome State Fault Refusal :=
  match s.seq.loading with
  | none => .next s
  | some r =>
    let s := (s.setSeq { s.seq with loading := none }).setFld F.SEQ_RES_BUSY 0
    let s := s.setFld F.SEQ_STATUS_LOAD_DONE 1
    let src := s.fld F.SEQ_SRC_LO_ADDR * 64 + s.fld F.SEQ_SRC_HI_ADDR * 2 ^ 32
    .next (s.seqStore r src (s.num Reg.SEQ_SRC_LEN))

/-- A command of a recipe is accepted in the given states; otherwise it is refused with STATE (R224). -/
def State.seqCmd (s : State) (r cmd : Nat) (states : List Nat) (act : State → State) : State :=
  if s.seqLoading r || !states.contains (s.rcpState r) then s.seqResult r cmd 11 else act (s.seqResult r cmd 0)

/-- SEQ_UNLOAD (R224). -/
def execSeqUnload (r : Fin 16) (s : State) : Host.Outcome State Fault Refusal :=
  .next (s.seqCmd r 2 [1, 6, 7, 9] (fun s => ((s.clearMem (rcpArea r) 0x400000).setRcp r 0 0).rcpShow r none))

/-! ## Commands (R224) -/

/-- The steps of the normal run. -/
def Recipe.normal (c : Recipe) : Nat := c.abortAt.getD c.steps.length

/-- SEQ_START (R207, R224, R439). -/
def execSeqStart (r : Fin 16) (s : State) : Host.Outcome State Fault Refusal :=
  let k := s.fld F.SEQ_ARG_STEP
  match (s.slotOf r).recipe with
  | none => .next (s.seqResult r 3 11)
  | some c =>
    if s.seqLoading r || !([1, 6, 7].contains (s.rcpState r)) || !s.holdsToken then .next (s.seqResult r 3 11)
    else if (List.range 16).any (fun q => q != r.val && s.rcpActive q && s.rcpCrews q &&& c.crews != 0) then .next (s.seqResult r 3 10)
    else if c.normal ≤ k then .next (s.seqResult r 3 13)
    else
      let s := s.seqResult r 3 0
      let s := s.setSlot r { SeqSlot.init with recipe := some c, start := some k, stroke := strokeOf (s.num (Reg.CT_LAST_CSEQ (leadCrew c.crews))) }
      let s := (s.setNum (Reg.SEQ_R_STEP r) k).setNum (Reg.SEQ_R_COUNT r) 0
      .next ((s.log 0x0712 0 (rcpDetail r k)).setRcp r 2 0)

/-- SEQ_PAUSE (R224). -/
def execSeqPause (r : Fin 16) (s : State) : Host.Outcome State Fault Refusal :=
  .next (s.seqCmd r 4 [2] (fun s => s.setFld (F.SEQ_R_STATE_PAUSE_PEND r) 1))

/-- SEQ_HOLD (R224): it takes effect at the lead crew's next stroke start. -/
def execSeqHold (r : Fin 16) (s : State) : Host.Outcome State Fault Refusal :=
  .next (s.seqCmd r 5 [2, 3] (fun s => s.setSlot r { s.slotOf r with hold := some ((s.slotOf r).hold.getD 0) }))

/-- SEQ_RESUME (R224, R439, R87): refused outside ACTIVE and SOLO, and after the replacement of a bound crew. -/
def execSeqResume (r : Fin 16) (s : State) : Host.Outcome State Fault Refusal :=
  if !s.holdsToken || (s.slotOf r).locked then .next (s.seqResult r 6 11)
  else .next (s.seqCmd r 6 [3, 4, 8] (fun s => s.setSlot r { s.slotOf r with resume := true }))

/-- SEQ_ABORT (R224). -/
def execSeqAbort (r : Fin 16) (s : State) : Host.Outcome State Fault Refusal :=
  .next (s.seqCmd r 7 [2, 3, 4, 5, 8] (fun s => s.setSlot r { s.slotOf r with abort := some ((s.slotOf r).abort.getD 0) }))

/-! ## Program flags (R215, R461) -/

/-- PFLAG_SET: a write of SEQ_PFLAG_SET_LO or _HI. -/
def execPflagSet (hi : Bool) (v : Word) (s : State) : Host.Outcome State Fault Refusal :=
  let a := if hi then Reg.SEQ_PFLAG_HI else Reg.SEQ_PFLAG_LO
  .next (s.wr a (s.rd a ||| v))

/-- PFLAG_CLR: a write of SEQ_PFLAG_CLR_LO or _HI. -/
def execPflagClr (hi : Bool) (v : Word) (s : State) : Host.Outcome State Fault Refusal :=
  let a := if hi then Reg.SEQ_PFLAG_HI else Reg.SEQ_PFLAG_LO
  .next (s.wr a (s.rd a &&& ~~~v))

/-- Program flag `i`. -/
def State.pflag (s : State) (i : Nat) : Bool := s.rbit (if i < 32 then Reg.SEQ_PFLAG_LO else Reg.SEQ_PFLAG_HI) (i % 32)

/-! ## Conditions (R215) -/

/-- Whether the current step of recipe `r` runs: it has begun and no submission for its end is under way. -/
def State.inStep (s : State) (r : Nat) : Bool :=
  let x := s.slotOf r
  (s.rcpState r == 2 || s.rcpState r == 5) && x.start.isNone && x.next.isNone

/-- One observation of the current step's condition (R215). -/
def State.observe (s : State) (r nhold : Nat) (good : Bool) : State :=
  let x := s.slotOf r
  let n := if good then x.run + 1 else 0
  s.setSlot r { x with run := n, met := if decide (nhold ≤ n) && x.met.isNone && good then some x.stroke else x.met }

/-- The comparison of a signal condition. -/
def condHolds (op : Nat) (v th : Word) : Bool :=
  match op with
  | 0 => F32.lt v th
  | 1 => F32.le v th
  | 2 => F32.lt th v
  | _ => F32.le th v

/-- STEP_CONDITION_OBSERVE (R215): a token of the step's signal reaches SEQ over a link, or, for a program flag, a stroke starts and
the flag is read. -/
def execStepConditionObserve (r : Fin 16) (link : Nat) (t : Token) (s : State) : Host.Outcome State Fault Refusal :=
  match s.stepAt r (s.rcpStep r) with
  | none => .next s
  | some p =>
    if !p.isEnd || !s.inStep r then .next s
    else if p.ckind = 1 then .next (s.observe r p.nhold (s.pflag p.csrc == (p.op == 1)))
    else if t.sig.toNat ≠ p.csrc ∨ strokeDiff (strokeOf t.cseq.toNat) (s.slotOf r).began < 0 then .next s
    else
      let (c, s) := s.check link 0 t
      .next (s.observe r p.nhold (c.good && (c.st == 0 || c.st == 2 || c.st == 4) && condHolds p.op c.value p.thresh))

/-! ## Submission (R214 to R220, R234) -/

/-- Stages step `k`, submits its valve sets and fixes its step catch `n` strokes ahead of stroke start `q`; `sets` are the sets to send. -/
def State.submitSets (s : State) (r k n q : Nat) (first : Bool) (restore : Option Nat) (stage : Bool) (sets : List (List (Nat × Bool))) :
    State :=
  let cseq := (q / 64 * 64 + 64 * n) % 2 ^ 32
  let s := if stage then (match s.stepAt r k with | some p => s.stageStep r cseq p | none => s) else s
  let x := s.slotOf r
  let nx : SeqNext := ⟨some k, cseq, first, restore, sets.drop 1, !sets.isEmpty, !sets.isEmpty, none⟩
  let s := s.setSlot r { x with next := some nx, start := none, redo := none }
  match sets with
  | [] => s
  | vs :: _ => s.seqSend r (vsetReq r cseq (s.catchNetTime (s.rcpLead r) cseq n) vs)

/-- Submits step `k` at stroke start `q` (R214). -/
def State.submit (s : State) (r k q : Nat) (first : Bool) : State :=
  s.submitSets r k (s.rcpLEAD r) q first none true
    (match s.stepAt r k with | some p => p.vset.toList | none => [])

/-- The path ends LEAD strokes after stroke start `q`. -/
def State.submitEnd (s : State) (r q : Nat) : State :=
  let cseq := (q / 64 * 64 + 64 * s.rcpLEAD r) % 2 ^ 32
  s.setSlot r { s.slotOf r with next := some ⟨none, cseq, false, none, [], false, false, none⟩, redo := none }

/-- The first step of the path after step `k`, if the path goes on. -/
def State.nextStep (s : State) (r k : Nat) : Option Nat :=
  match (s.slotOf r).recipe with
  | none => none
  | some c =>
    let stop := if s.rcpState r = 5 then c.steps.length else c.normal
    if k + 1 < stop then some (k + 1) else none

/-- A submission that the run calls for at stroke start `q`: PAUSE_PEND stops it (R224). -/
def State.advance (s : State) (r q : Nat) (k : Nat) (first : Bool) : State :=
  if s.flag (F.SEQ_R_STATE_PAUSE_PEND r) && s.rcpState r == 2 then
    let x := s.slotOf r
    let s := (s.setFld (F.SEQ_R_STATE_PAUSE_PEND r) 0).setSlot r
      { x with start := if first then some k else none, redo := if first then none else some k }
    s.setRcp r 3 0
  else s.submit r k q first

/-- The current step's end is due at stroke start `q` (R214 to R216); a step that has timed out with NEXT ends too. -/
def State.stepDue (s : State) (r q : Nat) (p : RStep) : Bool :=
  let x := s.slotOf r
  let n := s.rcpCount r
  let mask := s.rcpCrews r
  if !p.isEnd then decide (s.strokesOf mask p.len ≤ n + s.rcpLEAD r)
  else
    match x.met with
    | some d => decide (0 < strokeDiff (strokeOf q) d) && decide (4 ≤ n + s.rcpLEAD r)
    | none => x.timeout && (p.toAct == 2 || s.rcpState r == 5)

/-- A timeout at stroke start (R216): once per step, when the count reaches T before the condition is met. -/
def State.stepTimeout (s : State) (r : Nat) (p : RStep) : State :=
  let x := s.slotOf r
  if p.isEnd && p.len != 0 && x.met.isNone && !x.timeout && decide (s.strokesOf (s.rcpCrews r) p.len ≤ s.rcpCount r) then
    let s := (s.setSlot r { x with timeout := true }).log 0x0716 0 (rcpDetail r (s.rcpStep r))
    let x := s.slotOf r
    if s.rcpState r = 5 then s
    else if p.toAct = 0 then s.setSlot r { x with hold := some (x.hold.getD 2) }
    else if p.toAct = 1 then s.setSlot r { x with abort := some (x.abort.getD 2) }
    else s
  else s

/-- The recipe ends ABORTED (R224). -/
def State.rcpAborted (s : State) (r cause : Nat) : State :=
  ((s.setSlot r { s.slotOf r with next := none, start := none, redo := none }).log 0x0718 0 (rcpDetail r (s.rcpStep r))).setRcp r 7 cause

/-- The recipe enters HOLD (R224). -/
def State.rcpHold (s : State) (r cause : Nat) : State := (s.setSlot r { s.slotOf r with run := 0 }).setRcp r 4 cause

/-- Drops the requests that wait for a stroke start. -/
def State.dropReqs (s : State) (r : Nat) : State :=
  (s.setSlot r { s.slotOf r with hold := none, abort := none, resume := false }).setFld (F.SEQ_R_STATE_PAUSE_PEND r) 0

/-- ABORT takes effect at stroke start `q` (R224). -/
def State.seqAbortNow (s : State) (r q cause : Nat) : State :=
  let s := s.dropReqs r
  if s.rcpState r = 5 then s.rcpAborted r cause
  else
    match (s.slotOf r).recipe.bind (fun c => c.abortAt) with
    | some a => ((s.setSlot r { s.slotOf r with start := none, redo := none, locked := false }).setRcp r 5 cause).submit r a q false
    | none => s.rcpAborted r cause

/-! ## Resume (R234, R235) -/

/-- The restoring sets: de-energisations before energisations, at most 256 valves each (R234). -/
def restoringSets (vs : List (Nat × Bool)) : List (List (Nat × Bool)) :=
  let l := vs.filter (fun v => !v.2) ++ vs.filter (fun v => v.2)
  (List.range ((l.length + 255) / 256)).map (fun i => (l.drop (256 * i)).take 256)

/-- The nanoseconds from the recorded cut to the catch at a network time, at least 0. -/
def gapNs (cut : Nat) (t : Stamp) : Nat := t.ns - cut

/-- RESUME leads through the restoring sets (R234): from RESUME_WAIT, or from HOLD after they were refused or taken back. -/
def State.restoring (s : State) (r : Nat) : Option SeqSaved :=
  if s.rcpState r = 8 ∨ s.rcpState r = 4 then (s.slotOf r).saved else none

/-- Takes back what recipe `r` has submitted (R220, R221, R224): the staged changes are cancelled, its sets are withdrawn, and the step is submitted
again by a later RESUME; a path that ends is found to end again. -/
def State.seqCancel (s : State) (r : Nat) : State :=
  match (s.slotOf r).next with
  | none => s
  | some n =>
    let s := (s.unstage r n.cseq).setFld (F.SEQ_R_STATE_ARMED r) 0
    let s := if n.sent then s.seqWithdraw r else s
    s.setSlot r { s.slotOf r with next := none, start := if n.first then n.step else none,
                                  redo := if n.first || n.restore.isSome then none else n.step }

/-- RESUME takes effect at stroke start `q` (R224, R234). -/
def State.seqResumeNow (s : State) (r q : Nat) : State :=
  let s := s.dropReqs r
  let x := s.slotOf r
  match s.rcpState r, s.restoring r, x.recipe with
  | _, some v, some c =>
    let m := s.rcpLead r
    let stroke := if s.fld (F.CRS_CFG_SRC (s.fld (F.CT_CFG_CRS m))) = 0 then s.ctPeriod m else s.minStroke m
    let n := max (s.rcpLEAD r) (if stroke = 0 then 1 else (100000 + stroke - 1) / stroke)
    let cseq := (q / 64 * 64 + 64 * n) % 2 ^ 32
    let gap := gapNs v.cut (s.catchNetTime m cseq n)
    let p := s.stepAt r v.step
    let pol := match p with | some p => p.resume | none => 0
    let exceeded := pol == 0 && c.maxGap != 0 && decide (c.maxGap * 1000000 < gap)
    let running := v.state == 2 || v.state == 5
    -- 0 continue, 1 restart, 2 abort, 3 as recorded; bit 2: the gap was exceeded
    let act := (if running then (if exceeded then 1 else pol) else 3) + (if running && exceeded then 4 else 0)
    let again := act % 4 == 1 || (act % 4 == 0 && v.count == 0)
    let own := match p with | some p => if again then p.vset.getD [] else [] | none => []
    let sets := restoringSets (own.foldl (fun l o => Tab.put l o.1 o.2) x.valves)
    let s := s.setRcp r (if v.state = 8 then 4 else v.state) 0
    s.submitSets r v.step n q false (some act) again sets
  | 4, _, _ =>
    let s := s.setRcp r 2 0
    match x.start, x.redo with
    | some k, _ => s.submit r k q true
    | none, some k => s.submit r k q false
    | none, none => s
  | 3, _, _ =>
    let s := s.setRcp r 2 0
    match x.start, x.redo with
    | some k, _ => s.submit r k q true
    | none, some k => s.submit r k q false
    | none, none => s
  | _, _, _ => s

/-- What the run itself calls for at stroke start `q` (R214 to R216). -/
def State.runOn (s : State) (r q : Nat) : State :=
  let x := s.slotOf r
  if s.rcpState r ≠ 2 ∧ s.rcpState r ≠ 5 then s
  else
    match x.start, x.redo with
    | some k, _ => s.advance r q k true
    | none, some k => s.advance r q k false
    | none, none =>
      match s.stepAt r (s.rcpStep r) with
      | none => s
      | some p =>
        if s.stepDue r q p then
          (match s.nextStep r (s.rcpStep r) with
           | some k => s.advance r q k false
           | none => s.submitEnd r q)
        else s

/-- HOLD or ABORT takes back a submission that is not armed (R221, R224). -/
def State.seqTakeBack (s : State) (r : Nat) : State :=
  let x := s.slotOf r
  if (x.abort.isSome || x.hold.isSome) && !s.flag (F.SEQ_R_STATE_ARMED r) then s.seqCancel r else s

/-- The requests and the run at stroke start `q`, in the order ABORT, HOLD, PAUSE, RESUME (R224); nothing while a submission is under way that no
HOLD or ABORT takes back (R221). -/
def State.seqRequests (s : State) (r q : Nat) : State :=
  let s := s.seqTakeBack r
  if (s.slotOf r).next.isSome then s
  else
    let s := match s.stepAt r (s.rcpStep r) with
      | some p => if s.inStep r then s.stepTimeout r p else s
      | none => s
    let x := s.slotOf r
    let st := s.rcpState r
    match x.abort, x.hold with
    | some c, _ => if s.rcpActive r then s.seqAbortNow r q c else s.dropReqs r
    | none, some c => if st = 2 ∨ st = 3 ∨ (st = 5 ∧ x.locked) then (s.dropReqs r).rcpHold r c else s.dropReqs r
    | none, none =>
      if x.resume && (st == 3 || st == 4 || st == 8) then s.seqResumeNow r q else s.runOn r q

/-! ## Refusals (R220) -/

/-- The submission of recipe `r` is refused, or withdrawn for want of an answer (R220): the staged changes are cancelled; the recipe's
state changes at the step catch. -/
def State.seqRefused (s : State) (r : Nat) (x : SeqNext) (reason : Nat) (noAnswer : Bool) : State :=
  let s := s.unstage r x.cseq
  let k := x.step.getD 0
  let s := ((s.setFld (F.SEQ_R_REFUSE_STEP r) k).setFld (F.SEQ_R_REFUSE_NO_ANSWER r) (b2n noAnswer)).setFld (F.SEQ_R_REFUSE_REASON r) reason
  let s := s.log 0x0714 0 (rcpDetail r k + reason % 2 ^ 8 * 2 ^ 20 + b2n noAnswer * 2 ^ 31)
  -- with several sets, those before the refused one are withdrawn (R234)
  let s := if noAnswer || x.restore.isSome then s.seqWithdraw r else s
  let s := s.setFld (F.SEQ_R_STATE_ARMED r) 0
  s.setSlot r { s.slotOf r with next := some { x with sets := [], wait := false, refused := some (reason, noAnswer) } }

/-- VSET_ANSWER (R219, R220): the pavilion's answer reaches mailbox 0; the next waiting request follows it. -/
def execVsetAnswer (s : State) : Host.Outcome State Fault Refusal :=
  match Tab.find s.pvm.resp 0, s.seq.mail with
  | some _, (r, ws) :: rest =>
    let s := (s.mbDone 0).setSeq { s.seq with mail := rest }
    let ok := s.num (Reg.PVM_MB_RSP 0 0) == 0
    let reason := s.num (Reg.PVM_MB_RSP 0 1) % 256
    let s := match (if ws.headD 0 % 256 = 1 then (s.slotOf r).next else none) with
      | some x =>
        if !x.wait || ws.getD 4 0 != x.cseq then s
        else if !ok then s.seqRefused r x reason false
        else
          match x.sets with
          | vs :: more =>
            let n := (strokeDiff (strokeOf x.cseq) (s.slotOf r).stroke).toNat
            (s.setSlot r { s.slotOf r with next := some { x with sets := more } }).seqSend r
              (vsetReq r x.cseq (s.catchNetTime (s.rcpLead r) x.cseq n) vs)
          | [] => (s.setSlot r { s.slotOf r with next := some { x with wait := false } }).setFld (F.SEQ_R_STATE_ARMED r) 1
      | none => s
    -- the next request already queued goes out
    .next (match s.seq.mail with
      | (_, w) :: _ => if s.flag (F.PVM_MB_STATUS_BUSY 0) then s else s.seqPost w
      | [] => s)
  | _, _ => .next s

/-! ## Step catch (R217, R224) -/

/-- Applies the non-loop changes of a step at its catch (R217): axis moves, envelope set, record mark, commanded valves. -/
def State.stepChanges (s : State) (r cseq : Nat) (p : RStep) : State :=
  let m := s.rcpLead r
  let s := p.chgs.foldl (fun s c =>
    match c.typ, s.physOf c.crew with
    | 4, some n => s.axMove n (4 * c.crew + c.tgt % 4) (c.value.toNat % 64) (some (s.cseqPos c.crew cseq))
    | _, _ => s) s
  let s := (s.rcpCrewList r).foldl (fun s m => s.envSetChange m p.envset cseq) s
  let s := if p.markEn then (s.recMark m cseq p.mark r (s.rcpStep r)).fireRecipe r 1 p.mark cseq else s
  s.setSlot r { s.slotOf r with valves := (p.vset.getD []).foldl (fun l v => Tab.put l v.1 v.2) (s.slotOf r).valves }

/-- Records the step strokes of the stroke for the recipe's crews (R323). -/
def State.noteCount (s : State) (r q : Nat) : State :=
  (s.rcpCrewList r).foldl (fun s m => s.stepCount m (strokeOf q) (s.rcpCount r)) s

/-- A step begins on its step catch (R217): cut and snapshot first (R225, R228), then its changes. -/
def State.stepBegin (s : State) (r k cseq count : Nat) (changes : Bool) : State :=
  let m := s.rcpLead r
  let s := (s.setNum (Reg.SEQ_R_STEP r) k).setNum (Reg.SEQ_R_COUNT r) count
  let s := (s.ckptCut m cseq false).repStart r m cseq
  let s := s.setSlot r { s.slotOf r with began := strokeOf cseq, stroke := strokeOf cseq, run := 0, met := none, timeout := false,
                                         next := none, start := none, redo := none, saved := none }
  let s := (s.setFld (F.SEQ_R_STATE_ARMED r) 0).noteCount r cseq
  match s.stepAt r k with
  | none => s
  | some p =>
    if changes then (((s.log 0x0713 0 (rcpDetail r k)).fireRecipe r 0 k cseq).stepChanges r cseq p) else s

/-- The resume step catch (R234, R235). -/
def State.resumeCatch (s : State) (r act : Nat) (x : SeqNext) : State :=
  let v := (s.slotOf r).saved.getD ⟨0, 0, 0, 0⟩
  let gap := gapNs v.cut (s.catchNetTime (s.rcpLead r) x.cseq 0)
  let s := s.setNum Reg.SEQ_CKPT_GAP (min (gap / 1000000) 0xFFFFFFFF)
  let s := s.logIf (act % 4 != 3) 0x071D 0 (rcpDetail r v.step + act % 4 * 2 ^ 20 + act / 4 % 2 * 2 ^ 31)
  if act % 4 = 2 then
    let s := s.setSlot r { s.slotOf r with next := none, saved := none, abort := some ((s.slotOf r).abort.getD 0) }
    s.setFld (F.SEQ_R_STATE_ARMED r) 0
  else
    let count := if act % 4 = 1 then 0 else v.count
    let s := s.stepBegin r v.step x.cseq count (act % 4 == 1 || (act % 4 == 0 && v.count == 0))
    if v.state = 3 then s.setSlot r { s.slotOf r with redo := s.nextStep r v.step } else s

/-- The step catch of recipe `r` (R217, R220, R224). -/
def State.stepCatch (s : State) (r : Nat) (x : SeqNext) : State :=
  match x.refused with
  | some _ =>
    let s := s.setSlot r { s.slotOf r with next := none, start := if x.first then x.step else none,
                                           redo := if x.first || x.restore.isSome then none else x.step }
    if s.rcpState r = 5 then s.rcpAborted r 1
    else s.rcpHold r 1
  | none =>
    match x.restore, x.step with
    | some act, _ => s.resumeCatch r act x
    | none, some k => s.stepBegin r k x.cseq 0 true
    | none, none =>
      let s := s.setSlot r { s.slotOf r with next := none }
      if s.rcpState r = 5 then s.rcpAborted r 8 else (s.log 0x0717 0 (rcpDetail r 0)).setRcp r 6 8

/-- STEP_CATCH (R217): the catch of the lead crew whose CSEQ the submission names. -/
def execStepCatch (r : Fin 16) (s : State) : Host.Outcome State Fault Refusal :=
  match (s.slotOf r).next with
  | none => .next s
  | some x =>
    let s := if x.wait then s.seqRefused r x 0 true else s
    let x := (s.slotOf r).next.getD x
    .next ((s.stepCatch r x).seqRequests r x.cseq)

/-- STEP_STROKE (R214, R220): a stroke start of the lead crew. -/
def execStepStroke (r : Fin 16) (cseq : Word) (s : State) : Host.Outcome State Fault Refusal :=
  let q := cseq.toNat
  if !s.rcpActive r then .next s
  else
    let x := s.slotOf r
    let st := s.rcpState r
    let d := (strokeDiff (strokeOf q) x.stroke).toNat
    let held := match x.next with | some n => n.first || n.restore.isSome | none => false
    let s := if (st = 2 ∨ st = 5) ∧ x.start.isNone ∧ !held then s.setNum (Reg.SEQ_R_COUNT r) (s.rcpCount r + d) else s
    let s := s.setSlot r { s.slotOf r with stroke := strokeOf q }
    let s := if st = 2 ∨ st = 5 then s.noteCount r q else s
    let s := match x.next with
      | some n => if n.wait && decide (strokeDiff (strokeOf n.cseq) (strokeOf q) ≤ 1) then s.seqRefused r n 0 true else s
      | none => s
    .next (s.seqRequests r q)

/-! ## Events that act at once (R200, R222, R87) -/

/-- The pair takes recipe `r` out of its run (R440): what it has submitted, armed or not, is withdrawn, as no catch table of this module plays on. -/
def State.seqTakeOut (s : State) (r cause : Nat) : State := (s.seqCancel r).rcpHold r cause

/-- A stranded crew, a group cut or a replacement takes recipe `r` out of its run (R200, R222, R224): at once, with what it has submitted taken back;
after an armed step has started, on its step catch (R221). -/
def State.seqForce (s : State) (r cause : Nat) : State :=
  if s.flag (F.SEQ_R_STATE_ARMED r) then s.setSlot r { s.slotOf r with hold := some cause }
  else s.seqTakeOut r cause

/-- A crew is stranded (R200): active recipes that bind it hold, or end ABORTED on the abort path, after an armed step has started (R221). -/
def State.seqStranded (s : State) (m : Nat) : State :=
  match s.rcpOfCrew m with
  | none => s
  | some r =>
    match s.rcpState r with
    | 2 => s.seqForce r 4
    | 3 => s.seqForce r 4
    | 5 => if s.flag (F.SEQ_R_STATE_ARMED r) then s.setSlot r { s.slotOf r with abort := some 4 } else (s.seqCancel r).rcpAborted r 4
    | _ => s

/-- GROUP_CUT_NOTICE (R222): group `g` is cut while it holds a valve that a recipe has commanded. -/
def execGroupCutNotice (g : Fin 4) (s : State) : Host.Outcome State Fault Refusal :=
  if bit (s.fld F.PVM_GRP_ON) g then .next s
  else .next ((List.range 16).foldl (fun s r =>
    let st := s.rcpState r
    if (st == 2 || st == 3) && (s.slotOf r).valves.any (fun v => s.par (offValve v.1) 0 2 == g.val) then s.seqForce r 5 else s) s)

/-! ## Checkpoints (R225 to R231) -/

/-- The multiple of PERIOD_MS that network time has reached (R225). -/
def State.ckptMultiple (s : State) : Nat := s.now.ns / (s.fld F.SEQ_CKPT_CFG_PERIOD_MS * 1000000)

/-- CKPT_PERIODIC_CUT (R225): the first stroke start of the reference table at or after a multiple of PERIOD_MS. -/
def execCkptPeriodicCut (cseq : Word) (s : State) : Host.Outcome State Fault Refusal :=
  let ref := s.fld F.SEQ_CKPT_CFG_REF
  if (s.tabOf ref).phase ≠ .running ∨ cseq.toNat ≠ s.num (Reg.CT_LAST_CSEQ ref) ∨ cseqEntry cseq.toNat ≠ 0 ∨ s.ckptMultiple = s.seq.multiple then .next s
  else .next ((s.setSeq { s.seq with multiple := s.ckptMultiple }).ckptCut ref cseq.toNat false)

/-- VIN recovers without a reset: the dip checkpoint is marked UNUSED (R231). -/
def State.dipUnused (s : State) : State :=
  match s.seq.dip with
  | none => s
  | some a =>
    let s := s.setSeq { s.seq with dip := none }
    (s.wrByte (fastAddr a + 0xF4) 1).log 0x0721 0 (s.rdMem (fastAddr a + 8) 4)

/-- CKPT_WRITE_DONE (R230): body and header are written and COMMIT last, or the write fails. -/
def execCkptWriteDone (ok : Bool) (s : State) : Host.Outcome State Fault Refusal :=
  match s.seq.cuts.find? (fun c => c.area.isSome) with
  | none => .next s
  | some c =>
    let a := c.area.getD 0
    let s := s.setSeq { s.seq with cuts := s.seq.cuts.filter (fun x => x.buf != c.buf) }
    let s := s.setFld F.SEQ_STATUS_CKPT_BUSY 0
    if !ok then .next (((s.setFld F.SEQ_STATUS_CKPT_FAIL 1).log 0x071B 0 (a + 1 * 2)).ckptStart)
    else
      let len := 0x24000 + c.vars.getD 0
      let seq := s.num Reg.SEQ_CKPT_LAST + 1
      let s := s.copyMem (stageAddr c.buf) (fastAddr a + 0x100) len
      let crc := crc32c (s.rdList (fastAddr a + 0x100) len)
      let s := (s.wrList (fastAddr a) (ckptHeader 1 seq len s.seq.repSeq crc c)).wrMem (fastAddr a + 0xFC) 4 1
      let s := (s.setNum Reg.SEQ_CKPT_LAST seq).setFld F.SEQ_STATUS_CKPT_DONE 1
      let s := s.setSeq { s.seq with dip := if c.dip then some a else if s.seq.dip == some a then none else s.seq.dip }
      let s := s.log 0x0719 0 seq
      let s := if c.dip && !s.flag F.RPC_SUP_STATUS_DIP then s.dipUnused else s
      .next s.ckptStart

/-- REP_SNAPSHOT_DONE (R228): the repetitive part is written, or its write fails. -/
def execRepSnapshotDone (ok : Bool) (s : State) : Host.Outcome State Fault Refusal :=
  match s.seq.repCut with
  | none => .next s
  | some c =>
    let a := c.area.getD 0
    let s := (s.setSeq { s.seq with repCut := none }).setFld F.SEQ_STATUS_REP_BUSY 0
    if !ok then .next ((s.setFld F.SEQ_STATUS_CKPT_FAIL 1).log 0x071B 0 (a + 2 * 2))
    else
      let crews := crewsOf c.crews
      let s := (crews.zipIdx).foldl (fun s m =>
        match s.physOf m.1 with
        | some n => s.copyMem (crewMem n) (repAddr a + 0x100 + 0x80000 * m.2) 0x80000
        | none => s) s
      let len := 0x80000 * crews.length
      let crc := crc32c (s.rdList (repAddr a + 0x100) len)
      let seq := s.seq.repSeq + 1
      let s := (s.wrList (repAddr a) (ckptHeader 2 seq len 0 crc c)).wrMem (repAddr a + 0xFC) 4 1
      .next (s.setSeq { s.seq with repSeq := seq, repLast := a })

end Sys2Proof.Machine
end

