-- ==== Sys2Proof/Machine/Crew.lean ====
section
/-! DEFINITION. The lockstep monitor, retirement and migration of crews, and the spare (R12, R24 to R26, R191 to R204, R534).  `n` is a
physical crew, `m` a logical one. -/
namespace Sys2Proof.Machine

/-! ## The spare (R12) -/

/-- A crew to which no logical crew is mapped. -/
def State.crewFree (s : State) (n : Nat) : Bool := (s.logicalOf n).isNone

/-- A free crew in SERVICE that no replacement is clearing (R87 step 5). -/
def State.crewReady (s : State) (n : Nat) : Bool :=
  s.crewFree n && s.health (.crew n) == .service && !s.iml.repl.any (fun p => p.done && !p.cleared && p.old == n)

/-- The spare by the rule of R12 (none: 0xF). -/
def State.spareRule (s : State) : Nat :=
  if s.crewReady 8 then 8 else ((List.range 8).find? s.crewReady).getD 0xF

/-- A crew that receives a migration or a replacement keeps the role (R12). -/
def State.spareHeld (s : State) : Option Nat :=
  match s.mig, s.iml.repl with
  | some g, _ => some g.dst
  | none, some p => if p.done then none else some p.dst
  | none, none => none

/-- IML chooses the spare anew (R12). -/
def State.chooseSpare (s : State) : State :=
  let n := s.spareHeld.getD s.spareRule
  (s.setFld F.IML_SPARE_SPARE n).setFld F.IML_SPARE_HEALTH (if n < 9 then (s.health (.crew n)).code else 0)

/-- The physical crew that can take over a logical crew now (R88, R197, R199): a crew a replacement has cleared only once it passed its test. -/
def State.spareFor (s : State) : Option Nat :=
  let n := s.fld F.IML_SPARE_SPARE
  if s.mig.isNone && n < 9 && s.crewReady n && s.iml.untested != some n then some n else none

/-! ## The crew map (R24, R91, R492) -/

/-- The firewall master of engine or channel `k` of a physical crew (R491): engines 0 to 3, then channels 0 to 7. -/
def crewMaster (n k : Nat) : Nat := if k < 4 then 16 + 4 * n + k else 64 + 8 * n + (k - 4)

/-- Clears the regions of a crew's masters and writes those of a logical crew (R492). -/
def State.crewRegions (s : State) (n : Nat) (m : Option Nat) : State :=
  let s := (List.range 12).foldl (fun s k => (List.range 64).foldl (fun s w => s.wr (Reg.FWL_REG0 (crewMaster n k) 0 + 4 * w) 0) s) s
  match m with
  | some m => (Tab.get (fun _ => []) s.img.fwl m).foldl (fun s e => s.wr (Reg.FWL_REG0 (crewMaster n e.1) 0 + e.2.1 / 4 * 4) e.2.2) s
  | none => s

/-- Maps logical crew `m` to a physical crew, with event 0x0327 (R91). -/
def State.mapCrew (s : State) (m n : Nat) : State :=
  let old := (s.physOf m).getD 0xF
  let s := if old < 9 then s.setFld ⟨Reg.COX_ID old, 0, 4⟩ 0xF else s
  let s := ((s.setMap m n).setFld ⟨Reg.COX_ID n, 0, 4⟩ m).setFld ⟨Reg.COX_ID n, 4, 4⟩ n
  s.log 0x0327 (0x1000 + n) (m + old * 2 ^ 8)

/-! ## Slack (R194) -/

/-- Entries of the lockstep engines whose re-run is not confirmed. -/
def State.reruns (s : State) (n : Nat) : List (Nat × Nat) :=
  (s.coxOf n).ctxs.flatMap (fun c =>
    if s.ctxTarget n c.1 ≤ 1 then
      ([0, 1].filter (fun w =>
        let e := c.2.entry w
        e.rerun && (e.state == .ready || (e.state == .issued && !e.confirmed)))).map (fun w => (c.1, w))
    else [])

/-- Ends the charge once no re-run is outstanding (R194), and shows RETRYING. -/
def State.syncCharge (s : State) (n : Nat) : State :=
  let x := s.lsmOf n
  let s := match x.since, s.reruns n with
    | some t, [] => s.setLsm n { x with since := none, charge := x.charge + (s.time.cycle - t) }
    | _, _ => s
  s.setFld (F.LSM_STATUS_RETRYING n) (b2n !(s.reruns n).isEmpty)

/-- The charge of the running stroke so far (R194). -/
def State.lsmCharge (s : State) (n : Nat) : Nat :=
  let x := s.lsmOf n
  x.charge + (match x.since with | some t => s.time.cycle - t | none => 0)

/-- The first catch of a stroke (R192, R194). -/
def State.lsmStroke (s : State) (n : Nat) : State :=
  let x := s.lsmOf n
  let total := s.lsmCharge n
  let s := if s.num (Reg.LSM_RETRY_MAX n) < total then s.setNum (Reg.LSM_RETRY_MAX n) (min total 0xFFFFFFFF) else s
  s.setLsm n { x with stroke := x.stroke + 1, charge := 0, since := x.since.map (fun _ => s.time.cycle), exh := false }

/-! ## Discarding entries -/

/-- Removes an entry from the ready lists. -/
def State.unlist (s : State) (n x w : Nat) : State :=
  let p := s.ctxPrio n x
  s.setList n p (((s.coxOf n).lists.getD p []).filter (fun e => e != (x, w)))

/-- Frees an entry without results; what the lockstep monitor held for it is discarded (R191, R194). -/
def State.dropEntry (s : State) (n x w : Nat) : State :=
  let s := if (s.entryOf n x w).state = .issued then
      (s.dropHeld n x).setMotHeld (Tab.del (s.dropHeld n x).motHeld (512 * n + x))
    else s.unlist n x w
  s.setEntry n x w MEntry.init

/-- The entries of a crew in the given state. -/
def State.entriesIn (s : State) (n : Nat) (st : EntryState) : List (Nat × Nat) :=
  (s.coxOf n).ctxs.flatMap (fun c => ([0, 1].filter (fun w => (c.2.entry w).state == st)).map (fun w => (c.1, w)))

/-- SLACK_EXHAUSTED (R194): the charge has reached SLACK_CYC with a re-run unconfirmed; LSM_EXHAUSTS counts the stroke once. -/
def execSlackExhausted (n : Fin 9) (s : State) : Host.Outcome State Fault Refusal :=
  let l := s.reruns n
  if l.isEmpty ∨ s.lsmCharge n < s.num (Reg.LSM_SLACK n) then .next s
  else
    let s := l.foldl (fun s e => s.dropEntry n e.1 e.2) s
    let s := if (s.lsmOf n).exh then s else s.count (Reg.LSM_EXHAUSTS n) 1
    let s := s.setLsm n { s.lsmOf n with exh := true }
    let s := (s.setFld (F.LSM_STATUS_EXHAUSTED n) 1).log 0x0632 (0x1000 + n) l.length
    .next ((s.syncCharge n).syncRetrying n)

/-! ## Replacement aborted (R88) -/

/-- A crew back at reset: its units' registers, match entries and ready lists (R534, R535); its SRAM, its LSM and health states stay, and of a crew still
mapped the registers of the step stages and of the tables they play, which a domain reset does not affect (R254, R257). -/
def State.resetCrew (s : State) (n : Nat) : State :=
  let w := crewWin n
  let keep := [Reg.LSM_STATUS n]
  let cdm := (List.range 8).map (fun ch => s.health (.cdm n ch))
  let s := { s with
    regs := s.regs.filter (fun e => decide (e.1 < w) || decide (w + 0x50000 ≤ e.1) || keep.contains e.1 ||
      ((s.logicalOf n).isSome && decide (w + 0x20100 ≤ e.1) && decide (e.1 < w + 0x21400)))
    cox := Tab.del s.cox n, lpe := Tab.del s.lpe n, dmaLast := Tab.del s.dmaLast n
    dma := s.dma.filter (fun e => decide (e.1 < 8 * n) || decide (8 * n + 8 ≤ e.1))
    motHeld := s.motHeld.filter (fun e => e.1 / 512 != n)
    axes := s.axes.map (fun x => if s.physOf (x.1 / 4) == some n then (x.1, { x.2 with cmds := [] }) else x) }
  cdm.zipIdx.foldl (fun s h => s.setHealth (.cdm n h.2) h.1) s

/-- A replacement is aborted before its switch point (R88, R94): the spare is cleared and IML returns to IDLE. -/
def State.replAbort (s : State) : State :=
  match s.iml.repl with
  | some p =>
    if p.done then s
    else
      let s := s.setIml { s.iml with repl := none, cand := none }
      let s := ((s.resetCrew p.dst).clearMem (crewMem p.dst) 0x100000).crewRegions p.dst none
      let s := (s.setFld F.IML_STATUS_STATE 0).setFld F.IML_STATUS_REFUSE 0x11
      ((s.setFld F.IML_PART_PART_CREW 0xFF).log 0x0324 0 0x11).chooseSpare
  | none => s

/-- The first built-in test of the crew a replacement has cleared is over (R87 step 5, R94): the replacement is complete. -/
def State.replTested (s : State) (n : Nat) : State :=
  let s := if s.iml.untested = some n then s.setIml { s.iml with untested := none } else s
  match s.iml.repl with
  | some p =>
    if p.done ∧ p.cleared ∧ p.old = n then
      let s := (s.setIml { s.iml with repl := none, cand := none }).setFld F.IML_PART_PART_CREW 0xFF
      ((s.setFld F.IML_STATUS_STATE 0).chooseSpare).log 0x0323 (0x1000 + p.dst) (p.m + p.old * 2 ^ 8)
    else s
  | none => s

/-! ## Retirement and migration (R195 to R201) -/

/-- Starts a migration of logical crew `m` from `src` to `dst` (R197, R199). -/
def State.migStart (s : State) (m src dst : Nat) : State :=
  let s := s.replAbort
  let s := s.setLsm dst { s.lsmOf dst with bist := false }
  let s := s.setMig (some ⟨m, src, dst, false, s.time.cycle, 0, [], []⟩)
  let s := (s.setFld (F.LSM_STATUS_MIGRATING src) 1).setFld (F.LSM_STATUS_MIGRATING dst) 1
  (s.setNum (Reg.LSM_MIG_DROP dst) 0).chooseSpare

/-- A crew that no migration can save (R200). -/
def State.strand (s : State) (m n : Nat) : State :=
  ((s.setFld (F.LSM_STATUS_STRANDED n) 1).log 0x0634 (0x1000 + n) m).seqStranded m

/-- Migrates logical crew `m` off `n`, or strands it. -/
def State.migrateOrStrand (s : State) (m n : Nat) : State :=
  match s.spareFor with
  | some d => s.migStart m n d
  | none => s.strand m n

/-- An abandoned migration starts again onto another spare with what it holds, or its crew is stranded and the accesses it holds complete
there (R25, R199, R200). -/
def State.migrateAgain (s : State) (g : Migration) : State :=
  match s.spareFor with
  | some d =>
    let s := s.migStart g.m g.src d
    let s := s.setNum (Reg.LSM_MIG_DROP d) (s.num (Reg.LSM_MIG_DROP g.dst))
    s.setMig (s.mig.map (fun x => { x with toks := g.toks, held := g.held }))
  | none => (s.strand g.m g.src).setOwed (s.owed ++ g.held)

/-- What follows the retirement of physical crew `n` with a cause of R195: it issues nothing more (R197), a replacement is aborted (R88), a
migration into it is abandoned (R199), and its logical crew migrates or is stranded; of two crews that retire in the same fabric cycle the
lower-numbered receives the spare (R199). -/
def State.crewRetire (s : State) (n cause : Nat) : State :=
  let s := s.setFld (F.LSM_STATUS_CAUSE n) cause
  let s := (s.entriesIn n .issued).foldl (fun s e => s.dropEntry n e.1 e.2) s
  let s := (s.setLsm n { s.lsmOf n with since := none, charge := 0, bist := false }).setFld (F.LSM_STATUS_RETRYING n) 0
  let s := (s.replTested n).replAbort
  match s.mig with
  | some g =>
    let off (s : State) : State :=
      ((s.setMig none).setFld (F.LSM_STATUS_MIGRATING g.src) 0).setFld (F.LSM_STATUS_MIGRATING g.dst) 0
    if g.dst = n then (off s).chooseSpare.migrateAgain g
    else
      match s.logicalOf n with
      | some m =>
        if g.start = s.time.cycle ∧ !g.copied ∧ n < g.src then
          let s := (off s).chooseSpare.migStart m n g.dst
          (s.strand g.m g.src).setOwed (s.owed ++ g.held)
        else s.chooseSpare.strand m n
      | none => s.chooseSpare
  | none =>
    let s := s.chooseSpare
    match s.logicalOf n with
    | some m => s.migrateOrStrand m n
    | none => s

/-- A fatal fault of a crew (R195). -/
def State.crewFatal (s : State) (n cause : Nat) : State :=
  if s.inUse (.crew n) then (s.fatal (.crew n) cause).crewRetire n cause else s

/-- A transient of a crew (R192): all transients of one stroke count as one. -/
def State.crewTransient (s : State) (n cause : Nat) : State :=
  let before := s.inUse (.crew n)
  let s := s.transientIn (.crew n) (0x10000 + n, (s.lsmOf n).stroke) cause
  if before && !s.inUse (.crew n) then s.crewRetire n cause else s

/-- CREW_FORCE_RETIRE (R195): FORCE_RETIRE with the key. -/
def execCrewForceRetire (n : Fin 9) (s : State) : Host.Outcome State Fault Refusal :=
  if s.inUse (.crew n) then .next ((s.log 0x0635 (0x1000 + n) ((s.logicalOf n).getD 0xF)).crewFatal n 6) else .next s

/-- CREW_MIGRATE (R201): MIGRATE with the key, ignored unless the crew is stranded and a spare exists. -/
def execCrewMigrate (n : Fin 9) (s : State) : Host.Outcome State Fault Refusal :=
  match s.logicalOf n, s.spareFor with
  | some m, some d => if s.flag (F.LSM_STATUS_STRANDED n) then .next (s.migStart m n d) else .next s
  | _, _ => .next s

/-- CREW_READMIT (R202). -/
def execCrewReadmit (n : Fin 9) (s : State) : Host.Outcome State Fault Refusal := .next (s.readmit (.crew n))

/-- The verdict of a crew's test (R202). -/
def State.crewTested (s : State) (n code : Nat) : State :=
  let ok := code == 0
  let s := if ok then s.testPassed (.crew n) else s.testFailed (.crew n) code
  let s := (s.setFld (F.LSM_STATUS_TEST_DONE n) 1).setFld (F.LSM_STATUS_TEST_PASS n) (b2n ok)
  let s := if ok then s.setLsm n { s.lsmOf n with left := false } else s
  (s.setFld (F.LSM_TEST_FAIL n) code).chooseSpare

/-- LSM_CLR_COUNTS (R194). -/
def execLsmClrCounts (n : Fin 9) (s : State) : Host.Outcome State Fault Refusal :=
  .next (((s.setNum (Reg.LSM_RETRY_MAX n) 0).setNum (Reg.LSM_MISMATCHES n) 0).setNum (Reg.LSM_EXHAUSTS n) 0)

/-- SPARE_SELF_TEST (R12): every 1 s the spare runs its lockstep pattern. -/
def execSpareSelfTest (s : State) : Host.Outcome State Fault Refusal :=
  match s.spareFor with
  | some n => if s.spareHeld.isSome then .next s else .next (s.setLsm n { s.lsmOf n with bist := true })
  | none => .next s

/-- SPARE_SELF_TEST_DONE (R12, R195): a failed pattern retires the spare with cause 5. -/
def execSpareSelfTestDone (ok : Bool) (s : State) : Host.Outcome State Fault Refusal :=
  match (List.range 9).find? (fun n => (s.lsmOf n).bist) with
  | some n =>
    let s := s.setLsm n { s.lsmOf n with bist := false }
    if ok then .next (s.replTested n) else .next ((s.crewFatal n 5).replTested n)
  | none => .next s

/-! ## Comparison (R191 to R195) -/

/-- Inserts into a list in ascending order of a key. -/
def insBy {α : Type} (f : α → Nat) (x : α) : List α → List α
  | [] => [x]
  | y :: l => if f x < f y then x :: y :: l else y :: insBy f x l

/-- A mismatch on the entry (x, w) of engine `t` (R191, R192, R195). -/
def State.lsmMismatch (s : State) (n x w t : Nat) : State :=
  let e := s.entryOf n x w
  let d := x + t * 2 ^ 9 + b2n e.rerun * 2 ^ 10
  let s := ((s.setFld (F.LSM_STATUS_MISMATCH n) 1).count (Reg.LSM_MISMATCHES n) 1).log 0x0630 (0x1000 + n) d
  let s := (s.setNum (Reg.LSM_LAST_CSEQ n) e.cseq).setNum (Reg.LSM_LAST_DETAIL n) d
  if e.rerun then s.crewFatal n 2
  else
    let s := s.crewTransient n 1
    if !s.inUse (.crew n) then s
    else
      let named := ((s.entriesIn n .issued).filter (fun y => s.ctxTarget n y.1 == t && !(s.entryOf n y.1 y.2).confirmed)).foldl
        (fun l y => insBy (fun e => (s.entryOf n e.1 e.2).order) y l) []
      let s := named.foldl (fun s y =>
        (s.dropHeld n y.1).setMotHeld (Tab.del (s.dropHeld n y.1).motHeld (512 * n + y.1))) s
      let s := s.coxRetry n named
      let l := s.lsmOf n
      (s.setLsm n { l with since := some (l.since.getD s.time.cycle) }).syncCharge n

/-- The comparison of an entry passes: its state writes are made and its results may be released (R191). -/
def State.lsmConfirm (s : State) (n x w : Nat) : State :=
  let e := s.entryOf n x w
  let s :=
    if s.ctxTarget n x = 0 then
      match Tab.find (s.lpeOf n).held x with
      | some h => ((s.cutBeforeUpdate n h.loop e.cseq).mirBeforeUpdate n h.loop e.cseq).applyHeld n x
      | none => s
    else
      match Tab.find s.motHeld (512 * n + x) with
      | some h => (s.axisTaskApply n h).setMotHeld (Tab.del (s.axisTaskApply n h).motHeld (512 * n + x))
      | none => s
  (s.setEntry n x w { s.entryOf n x w with confirmed := true }).syncCharge n

/-- LSM_COMPARE (R191): the monitor compares what both halves gave for the ISSUED entry of context `x`. -/
def execLsmCompare (n : Fin 9) (x : Fin 512) (ok : Bool) (s : State) : Host.Outcome State Fault Refusal :=
  match s.issuedEntry n x with
  | none => .next s
  | some w =>
    let e := s.entryOf n x w
    if s.crewDeaf n || !e.done || e.confirmed || decide (1 < s.ctxTarget n x) then .next s
    else if ok then .next (s.lsmConfirm n x w)
    else .next (s.lsmMismatch n x w (s.ctxTarget n x))

/-! ## Copy and switch (R197) -/

/-- The registers a migration does not copy: the identity, the destination's own LSM and the health of its DMA channels. -/
def State.copyRegs (s : State) (src dst : Nat) : State :=
  let ws := crewWin src; let wd := crewWin dst
  let id := s.rd (Reg.COX_ID dst)
  let cdm := (List.range 8).map (fun ch => s.health (.cdm dst ch))
  let mine := s.regs.filter (fun e => decide (ws ≤ e.1) && decide (e.1 < ws + 0x50000))
  let s := (s.resetCrew dst)
  let s := mine.foldl (fun s e => s.wr (e.1 - ws + wd) e.2) s
  let s := cdm.zipIdx.foldl (fun s h => s.setHealth (.cdm dst h.2) h.1) s
  let s := [Reg.LSM_IRQ_EN 0, Reg.LSM_SLACK 0, Reg.LSM_MIG 0, Reg.LSM_LIVE 0].foldl (fun s a =>
    s.wr (a - crewWin 0 + wd) (s.rd (a - crewWin 0 + ws))) s
  s.wr (Reg.COX_ID dst) id

/-- The health of the step stages moves with their axes (R29, R32, R254). -/
def State.copyStages (s : State) (src dst : Nat) : State :=
  (List.range 4).foldl (fun s j =>
    (s.setHealth (.stage dst j) (s.health (.stage src j))).setHealthRec (.stage dst j) (s.healthRec (.stage src j))) s

/-- Copies the state of R196 from crew `src` to crew `dst`: loop contexts, segment queues, crew data, the repetitive tables in use, unit
registers, and what the units hold. -/
def State.copyCrew (s : State) (src dst : Nat) : State :=
  let s := s.copyMem (crewMem src + 0x80000) (crewMem dst + 0x80000) 0x80000
  let s := ((List.range 128).filter (fun l => s.lcfg src l 31 1 == 1 && s.lcfg src l 11 1 == 1)).foldl (fun s l =>
    let c := s.loopCtx src l
    s.copyMem (crewMem src + sampleOff c 0) (crewMem dst + sampleOff c 0) (4 * repP c)) s
  let s := s.copyRegs src dst
  let s := s.copyStages src dst
  let s := (List.range 8).foldl (fun s ch => s.setDma dst ch { s.dmaOf src ch with task := none }) s
  let cox := { s.coxOf src with dp := [] }
  let s := (s.setCox dst cox).setLpe dst { s.lpeOf src with held := [] }
  s.setLsm dst { LsmState.init with stroke := (s.lsmOf dst).stroke + 1 }

/-- MIGRATION_COPY_DONE (R197 step 3). -/
def execMigrationCopyDone (s : State) : Host.Outcome State Fault Refusal :=
  match s.mig with
  | none => .next s
  | some g =>
    if g.copied then .next s
    else .next ((s.copyCrew g.src g.dst).setMig (some { g with copied := true, cycles := s.time.cycle - g.start }))

/-- OPEN and READY entries of a crew are discarded (R197 step 3). -/
def State.dropOpen (s : State) (n : Nat) : State :=
  let l := s.entriesIn n .opened ++ s.entriesIn n .ready
  l.foldl (fun s e => ((s.unlist n e.1 e.2).setEntry n e.1 e.2 MEntry.init)) s

/-- The motion unit's registers as the step stages have moved on since the copy (R254), the changes staged since (R217), and what was pending on the
crew left behind (R28). -/
def State.copyLate (s : State) (src dst : Nat) : State :=
  let s := (List.range 1280).foldl (fun s w => s.wr (crewWin dst + 0x20000 + 4 * w) (s.rd (crewWin src + 0x20000 + 4 * w))) s
  let s := (s.copyStages src dst).setLpe dst { s.lpeOf dst with staged := (s.lpeOf src).staged }
  s.setNum (Reg.LSM_STATUS dst) (s.num (Reg.LSM_STATUS dst) ||| (s.num (Reg.LSM_STATUS src) &&& 15))

/-- The switch catch of a migration (R197 steps 3 to 5): the map names the crew that received the copy, which discards its OPEN and READY
entries. -/
def State.migSwitch (s : State) : State :=
  match s.mig with
  | none => s
  | some g =>
    let drops := (s.entriesIn g.dst .opened).length + (s.entriesIn g.dst .ready).length
    let s := ((s.dropOpen g.dst).count (Reg.LSM_MIG_DROP g.dst) drops).copyLate g.src g.dst
    let s := s.setMig none
    let s := (s.setFld (F.LSM_STATUS_MIGRATING g.src) 0).setFld (F.LSM_STATUS_MIGRATING g.dst) 0
    let s := ((s.crewRegions g.dst (some g.m)).crewRegions g.src none).mapCrew g.m g.dst
    let s := (s.setFld (F.LSM_STATUS_STRANDED g.src) 0).setFld (F.LSM_STATUS_MIGRATED_IN g.dst) 1
    let s := s.setLsm g.src { s.lsmOf g.src with left := true }
    let s := s.log 0x0633 (0x1000 + g.dst) (g.m + g.src * 2 ^ 8 + min (g.cycles / 16) 0xFFFF * 2 ^ 16)
    s.chooseSpare

end Sys2Proof.Machine
end

