-- ==== Sys2Proof/Machine/ImlCheck.lean ====
section
/-! DEFINITION. What the image loader checks of an image (R73 to R83): header, directory, section list, contents, budget and the
pavilion's parameters.  The contents are checked on a blank machine the image has been applied to, with the crew map that maps m to m, so
that every rule reads the registers and memories its chapter names. -/
namespace Sys2Proof.Machine

/-! ## Applying an image's contents (R71, R77) -/

/-- IML writes a register: its IMG fields and the fields firmware may preset. -/
def State.imgWrite (s : State) (a : Nat) (v : Word) : State :=
  match regTable.find? (fun d => d.covers a) with
  | some d =>
    let k := BitVec.ofNat 32 (d.img ||| d.rw)
    s.wr a ((s.rd a &&& ~~~k) ||| (v &&& k))
  | none => s

/-- MIG_CYC of the crew at physical crew `n` (R196). -/
def State.migCyc (s : State) (n : Nat) : Nat :=
  let sum := ((List.range 128).filter (fun l => s.lcfg n l 31 1 == 1 && s.lcfg n l 11 1 == 1)).foldl
    (fun a l => a + repP (s.loopCtx n l)) 0
  let bytes := 110592 + 4 * sum + s.fld (F.LSM_LIVE_LEN64 n) * 64
  (bytes + 31) / 32 + 600

def BudgetRec.zero : BudgetRec := ⟨0, 0, 0, 0, 0, 0, []⟩
def State.budgetOf (s : State) (m : Nat) : BudgetRec := Tab.get (fun _ => BudgetRec.zero) s.img.budget m
/-- SLACK_CYC (R80). -/
def BudgetRec.slackCyc (b : BudgetRec) : Nat := b.strokeCyc * b.slack / 1024

/-- The loops of a physical crew. -/
def State.loopsOf (t : State) (n : Nat) : List Nat := (List.range 128).filter (fun l => t.lcfg n l 31 1 == 1)

/-- The words of a loop context that hold 0 whatever the image gives (R157, R182): the reserved ones; of a loop with REP_EN = 1 those of the repetitive
area are checked instead (R183). -/
def loopZero (c : List Word) : List Nat :=
  [0x98, 0x9C] ++ (if repEn c then [] else (List.range 10).map (fun i => 0xB8 + 4 * i)) ++ (List.range 8).map (fun i => 0xE0 + 4 * i)

/-- The per-crew contents of logical crew `m`, relocated to physical crew `n`, with the words the LPE derives, the modes of
the first updates and what IML computes (R77, R157, R177, R196). -/
def State.imgCrew (s : State) (c : ImgContent) (m n : Nat) : State :=
  let s := (Tab.get (fun _ => []) c.crewMem m).foldl (fun s e => s.wrWord (crewMem n + e.1) e.2) s
  let s := (Tab.get (fun _ => []) c.crewRegs m).foldl (fun s e => s.imgWrite (crewWin n + e.1) e.2) s
  let s := (s.loopsOf n).foldl (fun s l =>
    let d := derive (s.loopCtx n l)
    let s := [0x54, 0x58, 0x5C, 0x60, 0x64, 0x68, 0x6C].foldl (fun s o => s.setLw n l o (cw d o)) s
    let s := (loopZero d).foldl (fun s o => s.setLw n l o 0) (s.setLw n l 0x90 1)
    (s.setFld (F.LPE_MODE_REQ n l) (s.lcfg n l 8 3)).setFld (F.LPE_MODE_ACT n l) (s.lcfg n l 8 3)) s
  let nctx := ((List.range 512).filter (s.ctxValid n)).length
  let s := s.setFld (F.COX_ID_NCTX n) nctx
  let s := s.setNum (Reg.LSM_SLACK n) (Tab.get (fun _ => BudgetRec.zero) c.tables.budget m).slackCyc
  s.setNum (Reg.LSM_MIG n) (s.migCyc n)

/-- The blank machine with an image applied, crew m on physical crew m. -/
def State.trial (s : State) (crews : Nat) (c : ImgContent) : State :=
  let t := { State.reset with img := c.tables, rce := { RecState.init with cfg := c.record } }
  let t := t.wr Reg.PVM_SWITCH (s.rd Reg.PVM_SWITCH)
  let t := c.regs.foldl (fun t e => t.imgWrite e.1 e.2) t
  (crewsOf crews).foldl (fun t m => ((t.setMap m m).imgCrew c m m).crewRegions m (some m)) t

/-! ## Contents: courses, catches and the crossbar (R46, R129, R130, R135) -/

/-- A table follows a network or free course. -/
def State.steady (t : State) (m : Nat) : Bool :=
  let src := t.fld (F.CRS_CFG_SRC (t.fld (F.CT_CFG_CRS m)))
  src == 0 || src == 3

/-- A catch table (R46). -/
def State.catchOk (t : State) (m : Nat) : Bool :=
  let n := t.ctNent m; let p := t.ctPeriod m
  let pos (e : Nat) : Nat := if e < n then t.ctOffset m e else p
  decide (1 ≤ n) && decide (n ≤ 64) && decide (1 ≤ p) && decide (p < 2 ^ 47) && t.ctOffset m 0 == 0 &&
    (List.range n).all (fun e => decide (pos e < pos (e + 1)) && (!t.steady m || decide (pos e + 200 ≤ pos (e + 1)))) &&
    t.flag (F.CRS_CFG_EN (t.fld (F.CT_CFG_CRS m)))

/-- The destination of converter `k` in the image. -/
def State.dest (t : State) (k : Nat) : Nat := t.img.xbar.getD k 15

/-- Two check entries of a pair never start within 20 µs of each other (R135): strokes in which they fall differ by d with d mod g = r. -/
def checkApart (p : Int) (a b : ConvEntry) (oa ob : Int) (same : Bool) : Bool :=
  let g : Int := (Nat.gcd a.div b.div : Nat)
  let r : Int := ((a.phase : Int) - b.phase) % g
  let d := ob - oa
  let j := (d - p * r) / (g * p)
  [j - 1, j, j + 1, j + 2].all (fun j =>
    let k := r + g * j
    (same && k == 0) || decide (20000 ≤ (p * k - d).natAbs))

/-- An entry of converter `k` (R126, R127, R131, R135). -/
def State.convEntryOk (t : State) (k : Nat) (l : List ConvEntry) (e : ConvEntry) : Bool :=
  let m := t.dest k
  let i := chanOf k e.kind e.ch
  let shunt := t.flag (F.AFE_CH_CFG_SHUNT i)
  let kindOk :=
    if 16 ≤ k then (e.kind == 0 || e.kind == 2) && decide (e.range ≤ 1)
    else decide (e.kind ≤ 2)
  let sigOk := e.kind == 2 || e.sig.toNat == sigOfChan i || decide (0x100 ≤ e.sig.toNat)
  let cjcOk := match l[e.cjc]? with
    | some x => !e.poly || (x.valid && x.kind == 0 && !x.poly)
    | none => !e.poly
  (m == 15 || decide (e.e < t.ctNent m)) && decide (1 ≤ e.div) && decide (e.div ≤ 256) && decide (e.phase < e.div) && decide (1 ≤ e.os) &&
    decide (e.os ≤ 256) && decide (e.iir ≤ 15) && decide (e.ch ≤ 7) && decide (e.range ≤ 3) && decide (e.burnout ≤ 2) && kindOk &&
    sigOk && (e.range == 3) == shunt &&
    (e.burnout == 0 || ((e.range == 1 || e.range == 2) && e.kind == 0 && decide (k < 16))) &&
    (e.kind != 2 || decide (300 ≤ e.settle)) && cjcOk && (!e.poly || decide (e.pset < t.img.polys.length))

/-- The check entries of a converter. -/
def State.checks (t : State) (k : Nat) : List ConvEntry := (t.convTab k).filter (fun e => e.valid && e.kind == 1)

/-- The check entries of pair `p` (R135). -/
def State.pairChecksOk (t : State) (p : Nat) : Bool :=
  let key (e : ConvEntry) := (e.e, e.offset, e.div, e.phase, e.os, e.range, e.settle)
  let l := t.checks (2 * p)
  l.map key == (t.checks (2 * p + 1)).map key &&
    (t.checks (2 * p) ++ t.checks (2 * p + 1)).all (fun e => e.iir == 0 && decide (e.range ≤ 2)) &&
    (let m := t.dest (2 * p)
     m == 15 || !t.steady m || (List.range l.length).all (fun i => (List.range (i + 1)).all (fun j =>
       match l[i]?, l[j]? with
       | some a, some b =>
         checkApart (t.ctPeriod m) a b ((t.ctOffset m a.e + a.offset : Nat) : Int) ((t.ctOffset m b.e + b.offset : Nat) : Int) (i == j)
       | _, _ => true)))

/-- Ascending (E, OFFSET) of the valid entries. -/
def convOrder : List ConvEntry → Bool
  | a :: b :: l => (decide (a.e < b.e) || (a.e == b.e && decide (a.offset ≤ b.offset))) && convOrder (b :: l)
  | _ => true

/-- The CROSSBAR and CONV sections (R129, R130, R135). -/
def State.acqOk (t : State) (crews : Nat) : Bool :=
  (List.range 20).all (fun k => t.dest k == 15 || (decide (t.dest k < 8) && bit crews (t.dest k))) &&
    (List.range 8).all (fun p =>
      let a := t.dest (2 * p); let b := t.dest (2 * p + 1)
      (a == 15 || b == 15 || t.equalTable a b) && t.pairChecksOk p) &&
    (List.range 20).all (fun k =>
      let l := (t.convTab k).filter (fun e => e.valid)
      convOrder l && l.all (t.convEntryOk k (t.convTab k)))

/-! ## Contents: contexts and loops (R97, R106, R158, R183) -/

/-- The SIG of an axis's event tokens (R252, R281), when it sends any. -/
def State.axisSig (t : State) (m j : Nat) : Option Nat :=
  if t.flag (F.AX_CFG_EN m j) && t.flag (F.AX_EVT_SIG_VALID m j) then some (t.fld (F.AX_EVT_SIG_SIG m j)) else none

/-- SIG and CREW of a valid CAN receive-map entry (R374). -/
def State.rxmapOf (t : State) (n i : Nat) : Option (Nat × Nat) :=
  let w := t.rd (Reg.CAN_RXMAP n i 0)
  if bitsOf w 31 1 = 1 then some (bitsOf w 8 12, bitsOf w 20 3) else none

/-- The logical crews whose catches a signal follows (R97): their contexts' results and their axes' events, the streams of converters, the scheduled
hardware sources and the CAN receive maps. -/
def State.producers (t : State) (crews sig : Nat) : List Nat :=
  (crewsOf crews).filter (fun m =>
    (t.routes m).any (fun x => t.ctxValid m x.1 && (x.2.results.take (t.ctxNres m x.1)).any (fun r => r.toNat == sig)) ||
    (List.range 4).any (fun j => t.axisSig m j == some sig) ||
    t.img.srcs.any (fun x => x.sig == sig && x.crew == m) ||
    (List.range 8).any (fun n => (List.range 64).any (fun i => t.rxmapOf n i == some (sig, m))) ||
    (List.range 20).any (fun k => t.dest k == m && (t.convTab k).any (fun e => e.valid && e.kind != 2 && e.sig.toNat == sig)))

/-- A task context (R96, R97, R103, R106). -/
def State.ctxOk (t : State) (crews m x : Nat) : Bool :=
  let ks := List.range (t.ctxNops m x)
  t.fld (F.COX_CTX_CFG_STALE_POL m x) != 3 && decide (t.ctxTarget m x < 12) && ks.all (fun k => t.slotKind m x k != 3) &&
    ks.any (fun k => t.slotKind m x k != 1) &&
    ks.all (fun k =>
      let c := t.slotCfg m x k
      (t.slotKind m x k != 2 || (decide (c.e < 64) && decide (1 ≤ c.div) && decide (c.div ≤ 256) && decide (c.phase < c.div))) &&
      (t.slotKind m x k != 0 || (t.producers crews c.sig.toNat).all (t.equalTable m)))

def State.loopId (t : State) (n l : Nat) : Nat := bitsOf (t.lw n l 0x34) 0 16

/-- A loop of crew `m` (R158, R182, R183). -/
def State.loopOk (t : State) (m l : Nat) : Bool :=
  let x := t.lcfg m l 22 9
  let nops := t.ctxNops m x
  let w (o : Nat) := t.lw m l o
  let rep :=
    if t.lcfg m l 11 1 = 0 then true
    else
      let p := bitsOf (w 0xAC) 0 13; let ld := bitsOf (w 0xAC) 16 12
      F32.le 0 (w 0xA0) && F32.le (w 0xA0) 0x40000000#32 && F32.le 0 (w 0xA4) && F32.le (w 0xA4) 0x3E800000#32 &&
        F32.lt 0 (w 0xA8) && decide (1 ≤ p) && decide (p ≤ 4096) && decide (ld < p) &&
        bitsOf (w 0xAC) 13 3 == 0 && bitsOf (w 0xAC) 28 4 == 0 && bitsOf (w 0xB0) 17 15 == 0 && bitsOf (w 0xB4) 12 18 == 0 &&
        decide (bitsOf (w 0xB0) 0 17 + p ≤ 131072) && (List.range 10).all (fun i => w (0xB8 + 4 * i) == 0)
  t.ctxValid m x && t.ctxTarget m x == 0 && t.lcfg m l 17 2 != 3 && t.lcfg m l 13 2 != 3 && decide (t.lcfg m l 8 3 ≤ 3) &&
    t.lcfg m l 0 7 == 0 && (t.lcfg m l 19 1 == 0 || decide (2 ≤ nops)) && (t.lcfg m l 17 2 != 2 || decide (3 ≤ nops)) &&
    (t.lcfg m l 16 1 == 0 || decide (4 ≤ nops)) && rep

/-- The tables of two loops do not overlap (R183). -/
def State.repApart (t : State) (m a b : Nat) : Bool :=
  let lo (l : Nat) := bitsOf (t.lw m l 0xB0) 0 17; let p (l : Nat) := bitsOf (t.lw m l 0xAC) 0 13
  t.lcfg m a 11 1 == 0 || t.lcfg m b 11 1 == 0 || decide (lo a + p a ≤ lo b) || decide (lo b + p b ≤ lo a)

/-- Pairs of distinct positions of a list. -/
def pairsOf {α : Type} : List α → List (α × α)
  | [] => []
  | a :: l => l.map (fun b => (a, b)) ++ pairsOf l

/-- The live data region of crew `m` (R196): 64-byte aligned, at most 32 KiB, within the image-allocated crew data. -/
def State.liveOk (t : State) (m : Nat) : Bool :=
  let o := t.fld (F.LSM_LIVE_OFFSET m); let n := t.fld (F.LSM_LIVE_LEN64 m)
  n == 0 || (decide (n ≤ 512) && o % 64 == 0 && decide (0x8A000 ≤ o) && decide (o + 64 * n ≤ 0x100000))

/-- The COX, LOOP and CREWDATA sections (R97, R158, R183, R196). -/
def State.crewsOk (t : State) (crews : Nat) : Bool :=
  let loops := (crewsOf crews).flatMap (fun m => (t.loopsOf m).map (fun l => (m, l)))
  loops.all (fun x => t.loopOk x.1 x.2) &&
    (pairsOf loops).all (fun x => t.loopId x.1.1 x.1.2 != t.loopId x.2.1 x.2.2 &&
      (x.1.1 != x.2.1 || (t.lcfg x.1.1 x.1.2 22 9 != t.lcfg x.1.1 x.2.2 22 9 && t.repApart x.1.1 x.1.2 x.2.2))) &&
    (crewsOf crews).all t.liveOk &&
    (crewsOf crews).all (fun m => (List.range 512).all (fun x => !t.ctxValid m x ||
      (t.ctxOk crews m x && (t.ctxTarget m x != 0 || (t.loopsOf m).any (fun l => t.lcfg m l 22 9 == x)))))

/-! ## Contents: motion, DMA and outputs (R256, R270, R333, R348, R479) -/

/-- Converter `k` delivers signal `sig` to crew `m` in every stroke (R270). -/
def State.everyStroke (t : State) (m k sig : Nat) : Bool :=
  t.dest k == m && (t.convTab k).any (fun e => e.valid && e.kind == 0 && e.div == 1 && e.sig.toNat == sig)

/-- An axis of crew `m` (R242, R256, R270). -/
def State.axisCfgOk (t : State) (m j : Nat) : Bool :=
  let pw := t.fld (F.AX_STEP_T_PULSE_W m j); let pm := t.fld (F.AX_STEP_T_PER_MIN m j)
  let a := 4 * m + j
  let x := (Tab.get (fun _ => []) t.img.axctx m).getD j 512
  !t.flag (F.AX_CFG_EN m j) ||
    (decide (8 ≤ pw) && decide (pw ≤ 1000) && decide (20 ≤ pm) && decide (pw + 8 ≤ pm) && t.ctxValid m x && t.ctxTarget m x == 1 &&
      (List.range (t.ctxNops m x)).any (fun k => t.slotKind m x k == 2 && (t.slotCfg m x k).e == 0 && (t.slotCfg m x k).div == 1) &&
      (!t.flag (F.AX_CFG_STALL_EN m j) ||
        (decide (a < 8) && t.steady m && (List.range 4).all (fun i => t.everyStroke m (16 + a / 2) (0x88 + 4 * a + i) &&
          (List.range (t.ctxNops m x)).any (fun k => t.slotKind m x k == 0 && (t.slotCfg m x k).sig.toNat == 0x88 + 4 * a + i)))))

/-- The schedule of the hardware sources (R17). -/
def State.srcsOk (t : State) (crews : Nat) : Bool :=
  t.img.srcs.all (fun x => decide (0xA8 ≤ x.sig) && decide (x.sig ≤ 0xCD) && decide (x.crew < 8) && bit crews x.crew &&
    decide (x.e < t.ctNent x.crew))

/-- The current-loop outputs and valve drivers (R335, R345, R348). -/
def State.outputsOk (t : State) : Bool :=
  (List.range 16).all (fun n => !t.flag (F.CLO_CFG_EN n) ||
    (decide (4 ≤ t.fld (F.CLO_CFG_TMO n)) && t.fld (F.CLO_CFG_ALARM_DIR n) != 3 && t.fld (F.CLO_CFG_STOP n) != 3)) &&
    (List.range 64).all (fun n => t.fld (F.VDR_CFG_MODE n) != 3 && (t.fld (F.VDR_CFG_MODE n) != 2 ||
      (decide (4 ≤ t.fld (F.VDR_STATUS_TMO n)) && t.fld (F.CRS_CFG_SRC (t.fld (F.VDR_HEAT_HCRS n))) == 1)))

/-! ## Contents: record and triggers (R286, R306, R310, R322, R326) -/

def RecSel.ok (crews : Nat) (e : RecSel) : Bool :=
  decide (e.crew < 8) && bit crews e.crew && (if e.minmax then decide (2 ≤ e.k) && decide (e.k ≤ 65536) else e.k == 1) &&
    decide (1 ≤ e.div) && decide (e.div ≤ 256) && decide (e.phase < e.div) && decide (e.e < 64)

/-- A signal is selected. -/
def State.selected (t : State) (sig : Nat) : Bool := (Tab.find t.rce.cfg.sels sig).isSome

/-- The buffers of a capture set: first address and length. -/
def State.capRange (t : State) (c : Nat) : Nat × Nat :=
  (t.fld (F.CAP_BUF_LO_ADDR c) * 64 + 2 ^ 32 * t.fld (F.CAP_BUF_HI_ADDR c), t.num (Reg.CAP_BUFLEN c) * (t.fld (F.CAP_CFG_NBUF c) + 1))

def ascends : List (Nat × Word) → Bool
  | a :: b :: l => decide (a.1 < b.1) && ascends (b :: l)
  | _ => true

/-- An envelope entry (R322, R326). -/
def State.envOk (t : State) (e : EnvEntry) : Bool :=
  t.selected e.sig && decide (e.ekind ≤ 2) && decide (e.set < 64) && decide (e.action ≤ 2) && decide (1 ≤ e.nhold) && decide (e.nhold ≤ 255) &&
    (e.ekind != 2 || (!e.capEn && decide (e.n2 ≤ 7))) &&
    (e.ekind != 0 || (decide (e.upper.length ≤ 64) && decide (e.lower.length ≤ 64) && ascends e.upper && ascends e.lower))

/-- The RECORD and TRIGGER sections (R286, R306, R310, R318, R321, R322). -/
def State.recordOk (t : State) (crews : Nat) : Bool :=
  let sels := t.rce.cfg.sels
  let sets := (List.range 64).filter (fun c => t.flag (F.CAP_CFG_EN c))
  decide (1 ≤ sels.length) && decide (sels.length ≤ 4096) && Tab.rising none sels && sels.all (fun e => e.2.ok crews) &&
    (List.range 128).all (fun u => decide (t.fld (F.TRG_CFG_KIND u) ≤ 5) &&
      (!t.flag (F.TRG_CFG_EN u) || decide (3 ≤ t.fld (F.TRG_CFG_KIND u)) || t.selected (t.fld (F.TRG_CFG_SIG u)))) &&
    sets.all (fun c =>
      let r := t.capRange c
      bit crews (t.fld (F.CAP_CFG_CREW c)) && (Tab.get (fun _ => []) t.rce.cfg.caps c).all t.selected &&
        decide (t.fld (F.CAP_PRE_PRE c) < t.capNslot c) && inDram r.1 r.2) &&
    (pairsOf sets).all (fun x =>
      let a := t.capRange x.1; let b := t.capRange x.2
      decide (a.1 + a.2 ≤ b.1) || decide (b.1 + b.2 ≤ a.1)) &&
    t.rce.cfg.envs.all (fun x => decide (x.2.length ≤ 512) && decide (16 * (x.2.map (fun e => e.upper.length + e.lower.length)).sum ≤ 262144) &&
      x.2.all (fun e => t.envOk e && (!e.capEn || t.fld (F.CAP_CFG_CREW e.cap) == x.1) && (e.ekind != 2 || t.fld (F.CAP_CFG_CREW e.n1) == x.1))) &&
    t.rce.cfg.meas.all (fun x => decide (x.2.length ≤ 8) && x.2.all (fun k => !k.valid || (decide (k.kind ≤ 8) && decide (k.idx < t.capNsig x.1))))

/-! ## Contents: CAN, firewall, health and mirror (R353 to R359, R374, R446, R449, R490, R193, R538) -/

/-- Timing and modes of a controller (R353 to R356). -/
def State.canCfgOk (t : State) (n : Nat) : Bool :=
  let brp := t.fld (F.CAN_NBT_BRP_M1 n) + 1; let s1 := t.fld (F.CAN_NBT_SEG1_M1 n) + 1
  let s2 := t.fld (F.CAN_NBT_SEG2_M1 n) + 1; let sj := t.fld (F.CAN_NBT_SJW_M1 n) + 1
  let db := t.fld (F.CAN_DBT_BRP_M1 n) + 1; let d1 := t.fld (F.CAN_DBT_SEG1_M1 n) + 1
  let d2 := t.fld (F.CAN_DBT_SEG2_M1 n) + 1; let dj := t.fld (F.CAN_DBT_SJW_M1 n) + 1
  let q := brp * (1 + s1 + s2); let dq := db * (1 + d1 + d2)
  t.fld (F.CAN_CTRL_MODE n) != 3 && t.fld (F.CAN_CTRL_LOCK_OVF n) != 3 && t.fld (F.CAN_CTRL_NOMATCH n) != 3 && (!t.flag (F.CAN_CTRL_EN n) ||
    (decide (2 ≤ s1) && decide (s2 ≤ s1) && decide (sj ≤ s2) && decide (120 ≤ q) && decide (q ≤ 12000) &&
      (!t.flag (F.CAN_CTRL_FD_EN n) || (decide (dj ≤ d2) && decide (15 ≤ dq) && decide (dq ≤ q))) &&
      (!t.flag (F.CAN_CTRL_TS n) || decide (480 ≤ q)) && (!t.flag (F.CAN_CTRL_TDC_EN n) || decide (db ≤ 2))))

/-- A filter element (R359). -/
def State.canFilter (t : State) (n f : Nat) : Nat := t.num64 (Reg.CAN_FILTER n f 0) (Reg.CAN_FILTER n f 1)

def canFilterOk (f v : Nat) : Bool :=
  let ext := v % 2; let test := v / 2 % 4; let d := v / 8 % 8
  let a := v / 2 ^ 6 % 2 ^ 29; let b := v / 2 ^ 35 % 2 ^ 29
  test != 3 && decide (d ≤ 4) && (d != 3 || decide (f < 64)) && (test != 0 || decide (a ≤ b)) &&
    (ext == 1 || (decide (a < 2 ^ 11) && decide (b < 2 ^ 11)))

/-- The map entries of a controller (R374, R375). -/
def State.canMapOk (t : State) (crews n : Nat) : Bool :=
  (List.range 64).all (fun i =>
    let w := t.rd (Reg.CAN_RXMAP n i 0)
    let d := t.canFilter n (bitsOf w 0 8) / 8 % 8
    bitsOf w 31 1 == 0 || (d != 0 && d != 4 && bitsOf w 24 3 != 7 && bit crews (bitsOf w 20 3) && decide (0x100 ≤ bitsOf w 8 12))) &&
    (List.range 64).all (fun i =>
      let w := t.rd (Reg.CAN_TXMAP n i 0)
      bitsOf w 31 1 == 0 || bitsOf w 19 3 != 7)

def State.canOk (t : State) (crews : Nat) : Bool :=
  (List.range 8).all (fun n => t.canCfgOk n && (List.range 256).all (fun f => canFilterOk f (t.canFilter n f)) && t.canMapOk crews n)

/-- First and last byte of a region, and whether it is enabled with a permission bit (R492). -/
def State.fwlRegion (t : State) (m r : Nat) : Nat × Nat × Nat :=
  (t.fld (F.FWL_REG0_BASE m r) * 4096 + t.fld (F.FWL_REG1_BASE m r) * 2 ^ 32,
   t.fld (F.FWL_REG2_LIMIT m r) * 4096 + t.fld (F.FWL_REG3_LIMIT m r) * 2 ^ 32 + 4095,
   if t.flag (F.FWL_REG0_EN m r) then t.fld (F.FWL_REG0_PERM m r) else 0)

/-- No master may write the record ring, the image slots or the checkpoint areas (R490). -/
def State.fwlOk (t : State) : Bool :=
  (List.range 160).all (fun m => (List.range 16).all (fun r =>
    let g := t.fwlRegion m r
    !bit g.2.2 1 || [(0x1100000000, 0x17FFFFFFFF), (0x80000000, 0x83FFFFFF), (0x88000000, 0x89FFFFFF)].all (fun p =>
      decide (g.2.1 < p.1) || decide (p.2 < g.1))))

/-- The HEALTH section (R31, R193, R538). -/
def State.healthOk (t : State) : Bool :=
  let crew := (t.healthNW (.crew 0)).1
  (crew == 1 || crew == 2) && t.healthNW (.domain 0) == (3, 10000) && t.img.health.all (fun e =>
    decide (1 ≤ e.2.1) && decide (e.2.1 ≤ 15) && decide (1 ≤ e.2.2) && decide (e.2.2 ≤ 3600000))

def within (lo hi x : Nat) : Bool := decide (lo ≤ x) && decide (x ≤ hi)

/-- A gate list (R385): 1 to 128 entries, whose intervals are not 0. -/
def State.gatesOk (t : State) (n : Nat) : Bool :=
  let k := t.fld (F.ETH_QBV_NENT_NENT n)
  within 1 128 k && (List.range k).all (fun e => decide (256 ≤ t.num (Reg.ETH_GCL n e)))

/-- The NETWORK section (R383 to R385, R392, R441): the ranges its registers state, for ports in use, and the forms of its lists. -/
def State.networkOk (t : State) : Bool :=
  let c := t.img.net
  (List.range 6).all (fun n => !t.flag (F.ETH_CTRL_EN n) ||
    (within 100 10000 (t.fld (F.ETH_PRP_LIFE_MS n)) && within 10 60000 (t.fld (F.ETH_PRP_LAN_TMO_MS n)) && within 1 1000 (t.fld (F.ETH_DD_DD_AGE_MS n)) &&
      (!t.flag (F.ETH_CTRL_QBV_EN n) || (decide (n < 4) && t.gatesOk n)))) &&
    (t.num Reg.ETH_HOST_REC_RATE == 0 || within 100 9000 (t.num Reg.ETH_HOST_REC_RATE)) &&
    (!t.flag F.PLK_CFG_PAIR_EN || within 5 200 (t.fld F.PLK_CFG_LEASE_MS)) &&
    c.vids.all (fun v => decide (v < 2 ^ 12)) && c.cls.all (fun x => decide (x.1 < 2 ^ 12) && decide (x.2 < 8)) &&
    c.qmap.all (fun q => decide (q < 8)) && (c.etypes ++ c.udps ++ [c.serit, c.hb]).all (fun x => decide (x < 2 ^ 16))

/-- The ranges that chapters 2, 5, 8 to 11 state of their units' image fields, for the units in use. -/
def State.rangesOk (t : State) (crews : Nat) : Bool :=
  let tmo := t.fld F.CTU_SERVO_WD_TIMEOUT_MS
  (tmo == 0 || within 100 60000 tmo) &&
    (List.range 4).all (fun n => !t.flag (F.CRS_CFG_EN n) || t.fld (F.CRS_CFG_SRC n) != 1 || within 1 50 (t.fld (F.CRS_PLL_BW n))) &&
    (List.range 64).all (fun n => decide (t.fld (F.DIO_FILT_FILT_US n) ≤ 20000)) &&
    (List.range 8).all (fun p => t.dest (2 * p) == 15 || t.dest (2 * p + 1) == 15 || within 1 15 (t.fld (F.AFE_PAIR_CFG_PERSIST p))) &&
    within 1 100 (t.fld F.SEQ_CKPT_CFG_PERIOD_MS) && within 1 1000 (t.fld F.RCE_BLOCK_MS_BLOCK_MS) &&
    (crewsOf crews).all (fun m => within 1 3 (t.fld (F.RCE_CREW_ROW_LAG m)) && (List.range 4).all (fun j => !t.flag (F.AX_CFG_EN m j) ||
      (within 1 255 (t.fld (F.AX_CFG_LAG_MAX m j)) && decide (t.fld (F.AX_STEP_T_DIR_SETUP m j) ≤ 1000) &&
        F32.lt 0 (t.rd (Reg.AX_A_STOP m j)) && F32.le (t.rd (Reg.AX_A_STOP m j)) (t.rd (Reg.AX_A_LIM m j))))) &&
    (List.range 64).all (fun c => !t.flag (F.CAP_CFG_EN c) || (t.num (Reg.CAP_BUFLEN c) % 64 == 0 && decide (512 ≤ t.num (Reg.CAP_BUFLEN c)))) &&
    (List.range 64).all (fun n => t.fld (F.VDR_CFG_MODE n) == 0 || (within 1 1000 (t.fld (F.VDR_CFG_RETRY_MS n)) &&
      (t.fld (F.VDR_CFG_MODE n) != 1 || (within 1 256 (t.fld (F.VDR_CFG_DUTY n)) && decide (t.fld (F.VDR_HEAT_HIT n) ≤ 10000)))))

/-- The MIRROR section (R446). -/
def State.mirrorOk (t : State) : Bool :=
  let r := t.img.mir
  (!t.flag F.PLK_CFG_PAIR_EN || (within 1 255 r.mdiv && decide (r.mref < 8))) &&
  r.mdiv == t.fld F.PLK_MIRROR_MDIV && r.mref == t.fld F.PLK_MIRROR_MREF &&
  r.loops.all (fun x => decide (x.1 < 8) && decide (x.2 < 128)) && r.axes.all (fun x => decide (x.1 < 8) && decide (x.2 < 4)) &&
  (r.loops ++ r.axes).all (fun x => t.fld (F.CRS_CFG_SRC (t.fld (F.CT_CFG_CRS x.1))) == 0) &&
    ((r.loops.isEmpty && r.axes.isEmpty) || t.fld (F.CRS_CFG_SRC (t.fld (F.CT_CFG_CRS r.mref))) == 0)

/-- HOLD_MS of connections with process outputs in a pair (R449). -/
def State.holdOk (t : State) (p : List (Nat × Nat)) : Bool :=
  !t.flag F.PLK_CFG_PAIR_EN || (List.range 8192).all (fun j =>
    let f := parFld p (offItem j)
    let k := f 0 10
    f 31 1 == 0 || f 10 1 == 0 || f 11 1 == 0 || parFld p (offConn k) 31 1 == 0 ||
      decide (t.fld F.PLK_CFG_LEASE_MS + 10 ≤ parFld p (offConn k + 8) 16 16))

/-! ## The checks in order (R81) -/

/-- Contents (R81 step 9). -/
def State.contentOk (t : State) (crews : Nat) (c : ImgContent) : Bool :=
  (crewsOf crews).all t.catchOk && t.acqOk crews && t.crewsOk crews &&
    (crewsOf crews).all (fun m => (List.range 4).all (t.axisCfgOk m)) &&
    (crewsOf crews).all (fun m => (List.range 8).all (fun ch => t.fld (F.CDM_CH_CFG_OWNER m ch) != 3)) &&
    t.srcsOk crews && t.outputsOk && t.recordOk crews && t.canOk crews && t.fwlOk && t.healthOk && t.networkOk && t.rangesOk crews &&
    t.mirrorOk && t.holdOk (parOf c.par)

/-- The budget arithmetic of a crew and of the module (R80, R196). -/
def State.crewBudgetOk (t : State) (m : Nat) : Bool :=
  let b := t.budgetOf m
  decide (b.loadCyc + b.slackCyc ≤ b.strokeCyc) && decide (b.retryCyc ≤ b.slackCyc) && decide (b.loopRate ≤ 5000000) &&
    decide (t.migCyc m ≤ 2 * b.strokeCyc)
def ImgContent.ratesOk (c : ImgContent) : Bool :=
  decide (c.recRate ≤ 20000000) && decide (c.lanA ≤ 60000000) && decide (c.lanB ≤ 60000000) && decide (c.mirror ≤ 400000000)

/-- A header (R73), its checks of step 1, which the length of the image bounds.  DESIGN CHOICE (notes/assumptions/114.md): an NSECT outside 1 to 1 024, and a
PART_CREW or SUCCESSOR_ID that does not fit the kind of image, are refused here with HEADER, as step 1 does not list them. -/
def imgHeaderOk (l : List Nat) : Bool :=
  let fl := fieldAt l 0x0E 2; let part := bit fl 1; let pc := fieldAt l 0x38 1
  headerOk l 0x10 0x494E4D41 0x2000000 (bit fl 0) && decide (1 ≤ fieldAt l 0x0C 2) && decide (fieldAt l 0x0C 2 ≤ 1024) && decide (fl < 4) &&
    decide (fieldAt l 0x1C 4 < 256) && fieldAt l 0x39 7 == 0 && fieldAt l 0x78 8 == 0 &&
    (if part then decide (pc < 8) && fieldAt l 0x30 8 != 0
     else fieldAt l 0x30 8 == 0 && (if fieldAt l 0x28 8 = 0 then pc == 0xFF else decide (pc < 8)))

def imgHdrOf (l : List Nat) : ImgHdr :=
  { id := fieldAt l 0x20 8, parent := fieldAt l 0x28 8, succ := fieldAt l 0x30 8, part := fieldAt l 0x38 1, crews := fieldAt l 0x1C 4,
    arbIdx := fieldAt l 0x16 1, arbVer := fieldAt l 0x18 4, isPart := bit (fieldAt l 0x0E 2) 1, digest := (l.drop 0x40).take 48 }

/-- A directory entry (R75): type, crew, flags, offset, length and CRC. -/
structure DirEntry where
  typ  : Nat
  crew : Nat
  sfl  : Nat
  off  : Nat
  len  : Nat
  crc  : Nat
  deriving DecidableEq, Repr

def dirOf (l : List Nat) : List DirEntry :=
  (List.range (fieldAt l 0x0C 2)).map (fun i =>
    let o := 0x80 + 16 * i
    ⟨fieldAt l o 2, fieldAt l (o + 2) 1, fieldAt l (o + 3) 1, fieldAt l (o + 4) 4, fieldAt l (o + 8) 4, fieldAt l (o + 12) 4⟩)

/-- Sections in ascending offset without overlap, from `lo` to `hi` (R75). -/
def dirWalk (lo hi : Nat) : List DirEntry → Bool
  | [] => decide (lo ≤ hi)
  | d :: l => decide (lo ≤ d.off) && d.off % 64 == 0 && decide (1 ≤ d.len) && decide (d.len ≤ 0x1000000) && decide (d.sfl < 2) &&
      (decide (d.crew < 8) || d.crew == 0xFF) && dirWalk (d.off + d.len) hi l

/-- The directory and the CRC of every section (R81 step 6). -/
def dirOk (l : List Nat) : Bool :=
  let ds := dirOf l
  dirWalk (0x80 + 16 * ds.length) (fieldAt l 0x70 4) ds && ds.all (fun d => crc32c ((l.drop d.off).take d.len) == d.crc)

/-- The per-crew section types and the module-wide types of a full image (R76). -/
def crewTypes : List Nat := [0x03, 0x10, 0x11, 0x12, 0x13, 0x21]
def moduleTypes : List Nat := [0x01, 0x02, 0x04, 0x05, 0x20, 0x30, 0x31, 0x32, 0x33, 0x34, 0x35, 0x40]

/-- Presence and count of section types and PIC flags (R76, R77, R86). -/
def sectionsOk (l : List Nat) : Bool :=
  let ds := dirOf l; let h := imgHdrOf l; let enc := bit (fieldAt l 0x0E 2) 0
  let count (ty crew : Nat) := (ds.filter (fun d => d.typ == ty && d.crew == crew)).length
  ds.all (fun d =>
    if crewTypes.contains d.typ then decide (d.crew < 8) && d.sfl == 1 && (if h.isPart then d.crew == h.part else bit h.crews d.crew)
    else d.crew == 0xFF && ((d.typ == 0xF0 && enc) || (if h.isPart then [2, 4, 5].contains d.typ else moduleTypes.contains d.typ))) &&
    count 0xF0 0xFF == b2n enc &&
    (if h.isPart then crewTypes.all (fun ty => count ty h.part == 1) && [2, 4, 5].all (fun ty => decide (count ty 0xFF ≤ 1))
     else moduleTypes.all (fun ty => count ty 0xFF == 1) && (crewsOf h.crews).all (fun m => crewTypes.all (fun ty => count ty m == 1)))

/-! ## Contents from bytes: the sections whose layout the spec gives (R79, R129 to R131, R406; notes/assumptions/10.md) -/

/-- The bytes of a section. -/
def sectionOf (l : List Nat) (ty crew : Nat) : Option (List Nat) :=
  ((dirOf l).find? (fun d => d.typ == ty && d.crew == crew)).map (fun d => (l.drop d.off).take d.len)

/-- A crew's record of BUDGET (R79), at an offset. -/
def budgetAt (b : List Nat) (o : Nat) : BudgetRec :=
  ⟨fieldAt b o 4, fieldAt b (o + 4) 4, fieldAt b (o + 8) 4, fieldAt b (o + 12) 4, fieldAt b (o + 16) 2, fieldAt b (o + 20) 4,
   (b.drop (o + 24)).take 8⟩

/-- A BUDGET section for the crews of a mask: its length, the fields that must be 0 and the records of unbound crews (R79). -/
def budgetForm (b : List Nat) (crews : Nat) : Bool :=
  b.length == 0x110 && (List.range 8).all (fun m =>
    fieldAt b (0x22 + 32 * m) 2 == 0 && (bit crews m || ((b.drop (0x10 + 32 * m)).take 32).all (fun x => x == 0)))

/-- A conversion-table entry (R131) from its 32 bytes. -/
def convAt (b : List Nat) (o : Nat) : ConvEntry :=
  let f (w lo n : Nat) : Nat := bitsOf (BitVec.ofNat 32 (fieldAt b (o + 4 * w) 4)) lo n
  { valid := f 0 31 1 == 1, e := f 0 24 6, offset := f 0 0 24, div := f 1 0 8 + 1, phase := f 1 8 8, os := f 1 16 8 + 1, iir := f 1 24 4
    ch := f 2 0 3, kind := f 2 3 2, range := f 2 5 2, burnout := f 2 7 2, sig := BitVec.ofNat 12 (f 2 16 12), settle := f 3 0 12
    poly := f 3 12 1 == 1, pset := f 3 16 5, cjc := f 3 21 10, a := BitVec.ofNat 32 (fieldAt b (o + 16) 4)
    b := BitVec.ofNat 32 (fieldAt b (o + 20) 4) }

/-- The bits of an entry that must be 0 (R131). -/
def convForm (b : List Nat) (o : Nat) : Bool :=
  let z (w lo n : Nat) : Bool := bitsOf (BitVec.ofNat 32 (fieldAt b (o + 4 * w) 4)) lo n == 0
  z 0 30 1 && z 1 28 4 && z 2 9 7 && z 2 28 4 && z 3 13 3 && z 3 31 1 && fieldAt b (o + 24) 8 == 0

/-- The tables of the converters from `k` on (CONV): a descriptor with NENT, then the entries; none where NENT exceeds 1 024, a bit that must be 0 is set,
or the section does not end with the last table. -/
def convTables (b : List Nat) : Nat → Nat → Nat → Option (List (Nat × List ConvEntry))
  | 0, _, o => if o = b.length then some [] else none
  | n + 1, k, o =>
    let nent := fieldAt b o 2
    if 1024 < nent ∨ b.length < o + 16 + 32 * nent ∨ !(List.range nent).all (fun i => convForm b (o + 16 + 32 * i)) then none
    else (convTables b n (k + 1) (o + 16 + 32 * nent)).map (fun l => (k, (List.range nent).map (fun i => convAt b (o + 16 + 32 * i))) :: l)

/-- The polynomial sets of CONV: 32 sets of 20 coefficients. -/
def convPolys (b : List Nat) : List (List Word) :=
  (List.range 32).map (fun p => (List.range 20).map (fun i => BitVec.ofNat 32 (fieldAt b (80 * p + 4 * i) 4)))

/-- A selection entry (R286) from its 16 bytes: its SIG and the rest. -/
def selAt (b : List Nat) (o : Nat) : Nat × RecSel :=
  let f (w lo n : Nat) : Nat := bitsOf (BitVec.ofNat 32 (fieldAt b (o + 4 * w) 4)) lo n
  (f 0 0 12, { crew := f 0 12 3, minmax := f 0 15 1 == 1, expect := f 0 16 1 == 1, e := f 0 24 6, k := f 1 0 16 + 1, div := f 1 16 8 + 1
               phase := f 1 24 8, subst := BitVec.ofNat 32 (fieldAt b (o + 8) 4) })

/-- The RECORD section (R286): entries of 16 bytes, by SIG; none where a bit that must be 0 is set or a SIG appears twice. -/
def selTable (b : List Nat) : Option (List (Nat × RecSel)) :=
  let n := b.length / 16
  let l := (List.range n).map (fun i => selAt b (16 * i))
  let t := l.foldl (fun t e => Tab.put t e.1 e.2) []
  if b.length % 16 = 0 ∧ t.length = n ∧ (List.range n).all (fun i => let w := BitVec.ofNat 32 (fieldAt b (16 * i) 4)
      bitsOf w 17 7 == 0 && bitsOf w 30 2 == 0 && fieldAt b (16 * i + 12) 4 == 0) then some t else none

/-- The contents of an image whose sections hold the bytes `l`: BUDGET, CROSSBAR, CONV, RECORD and PAVILION and the header's fields are read from the bytes, the
rest is `c` (none: a section breaks its layout). -/
def imgContent (l : List Nat) (c : ImgContent) : Option ImgContent :=
  let h := imgHdrOf l
  let t := { c.tables with crews := h.crews, parent := h.parent, part := h.part }
  let bud := sectionOf l 0x01 0xFF; let xb := sectionOf l 0x04 0xFF; let cv := sectionOf l 0x05 0xFF
  let f (o : Nat) : Nat := match bud with | some b => fieldAt b o 4 | none => 0
  match (match cv with | some b => convTables b 20 0 2560 | none => some []), (match sectionOf l 0x20 0xFF with | some b => selTable b | none => some []) with
  | none, _ => none
  | _, none => none
  | some conv, some sels =>
    if bud.any (fun b => !budgetForm b h.crews) || xb.any (fun b => b.length != 20 || b.any (fun x => decide (16 ≤ x))) then none
    else some { c with
      tables := { t with
        budget := match bud with | some b => (crewsOf h.crews).map (fun m => (m, budgetAt b (0x10 + 32 * m))) | none => []
        conv := conv, polys := match cv with | some b => convPolys b | none => []
        xbar := xb.getD [] }
      record := { c.record with sels := sels }
      par := (sectionOf l 0x30 0xFF).getD []
      recRate := f 0, lanA := f 4, lanB := f 8, mirror := f 12 }

/-- The contents of the parent with those of a partial image for crew `m` laid over them (R86). -/
def overlayContent (p c : ImgContent) (m : Nat) : ImgContent :=
  let one {α : Type} (a b : List (Nat × α)) : List (Nat × α) :=
    match Tab.find b m with | some x => Tab.put a m x | none => Tab.del a m
  { p with
    regs := c.regs.foldl (fun l e => Tab.put l e.1 e.2) p.regs
    crewRegs := one p.crewRegs c.crewRegs
    crewMem := one p.crewMem c.crewMem
    record := { p.record with
      envs := one p.record.envs c.record.envs
      caps := c.record.caps.foldl (fun l e => Tab.put l e.1 e.2) p.record.caps
      meas := c.record.meas.foldl (fun l e => Tab.put l e.1 e.2) p.record.meas }
    tables := { p.tables with
      routes := one p.tables.routes c.tables.routes
      axctx := one p.tables.axctx c.tables.axctx
      conv := if c.tables.conv.isEmpty then p.tables.conv else c.tables.conv
      polys := if c.tables.polys.isEmpty then p.tables.polys else c.tables.polys
      xbar := if c.tables.xbar.isEmpty then p.tables.xbar else c.tables.xbar } }

/-- The registers a partial image for crew `m` may change (R86): its catch table, its course, its trigger units and its capture sets. -/
def State.partReg (t : State) (m a : Nat) : Bool :=
  (decide (Reg.CT_CFG m ≤ a) && decide (a < Reg.CT_CFG m + 0x400)) ||
    (let c := t.fld (F.CT_CFG_CRS m); decide (Reg.CRS_CFG c ≤ a) && decide (a < Reg.CRS_CFG c + 0x20)) ||
    (decide (Reg.TRG_CFG (16 * m) ≤ a) && decide (a < Reg.TRG_CFG (16 * m + 16))) ||
    (List.range 64).any (fun c => t.fld (F.CAP_CFG_CREW c) == m && decide (Reg.CAP_CFG c ≤ a) && decide (a < Reg.CAP_CFG c + 0x40))

/-- A partial image differs from its parent only in what serves its crew (R86); `t` is the trial of the overlay, `u` that of the parent. -/
def State.partOk (t u : State) (p c : ImgContent) (m : Nat) : Bool :=
  c.regs.all (fun e => Tab.get regReset p.regs e.1 == e.2 || t.partReg m e.1) &&
    c.crewRegs.all (fun e => e.1 == m) && c.crewMem.all (fun e => e.1 == m) && c.tables.routes.all (fun e => e.1 == m) &&
    c.tables.axctx.all (fun e => e.1 == m) && c.record.envs.all (fun e => e.1 == m) &&
    (List.range 20).all (fun k =>
      let mine := t.dest k == m || u.dest k == m
      (t.dest k == u.dest k || mine) && (t.convTab k == u.convTab k || mine)) &&
    (List.range 4).all (fun c => t.fld (F.CT_CFG_CRS m) == c || (t.rd (Reg.CRS_CFG c) == u.rd (Reg.CRS_CFG c)))

end Sys2Proof.Machine
end

