-- ==== Sys2Proof/Machine/Cyc.lean ====
section
/-! DEFINITION. The cyclic program (chapter 16): loading, its cycle, its states and commands, retained variables, online change and
forces. -/
namespace Sys2Proof.Machine

def State.setCyc (s : State) (c : CycState) : State := { s with cyc := c }
def State.cycState (s : State) : Nat := s.fld F.CYC_STATUS_STATE
/-- Raises flag `b` of CYC_IRQ (R477). -/
def State.cycIrq (s : State) (b : Nat) : State := s.setRbit Reg.CYC_IRQ b true
/-- A change of state with its cause (R467, R478). -/
def State.cycTo (s : State) (v cause : Nat) : State :=
  (((s.setFld F.CYC_STATUS_STATE v).setFld F.CYC_STATUS_CAUSE cause).cycIrq 1).log 0x0F10 0x7001 (v + cause * 16)
/-- The result of a command (R476): a refusal raises 0x0F14, of a LOAD 0x0F17. -/
def State.cycRes (s : State) (cmd code : Nat) : State :=
  let s := (s.setFld F.CYC_RES_CMD cmd).setFld F.CYC_RES_REFUSE code
  if code = 0 then s else if cmd = 1 then s.log 0x0F17 0x7001 code else s.log 0x0F14 0x7001 (code + cmd * 256)
/-- Fabric cycles as whole nanoseconds (600 MHz). -/
def cycNs (n : Nat) : Nat := n * 5 / 3

/-! ## Program images (R458 to R460) -/

/-- The I/O table of a program (R459): its inputs and outputs, or none if it is malformed. -/
def ioTable (l : List Nat) (off : Nat) : Option (List (Nat × Nat) × List ProgOut) :=
  let nin := fieldAt l off 2; let nout := fieldAt l (off + 2) 2
  let inp (i : Nat) := (fieldAt l (off + 8 + 8 * i) 4, fieldAt l (off + 12 + 8 * i) 4)
  let base := off + 8 + 8 * nin
  let out (i : Nat) := (fieldAt l (base + 16 * i) 4, fieldAt l (base + 16 * i + 4) 4, fieldAt l (base + 16 * i + 8) 4, fieldAt l (base + 16 * i + 12) 4)
  if 4096 < nin ∨ 4096 < nout ∨ fieldAt l (off + 4) 4 ≠ 0 ∨ l.length < base + 16 * nout then none
  else
    let ins := (List.range nin).map inp
    let outs := (List.range nout).map out
    if ins.any (fun x => decide (2 ^ 12 ≤ x.1) || decide (2 ^ 24 ≤ x.2) || x.2 % 8 != 0) ||
        outs.any (fun x => decide (2 ^ 14 ≤ x.1) || decide (2 ^ 24 ≤ x.2.1) || x.2.1 % 8 != 0 || x.2.2.2 != 0 ||
          (bit x.1 12 && decide (64 ≤ x.1 % 2 ^ 12))) then none
    else some (ins, outs.map (fun x => ⟨x.1 % 2 ^ 12, bit x.1 12, bit x.1 13, x.2.1, BitVec.ofNat 32 x.2.2.1⟩))

/-- A signal is produced in the running image: a scheduled hardware source, a converter stream, a result, a CAN receive map or a Serit-S
input item. -/
def State.sigProduced (s : State) (sig : Nat) : Bool :=
  s.img.srcs.any (fun x => x.sig == sig) || !(s.producers s.img.crews sig).isEmpty ||
    (List.range 8).any (fun n => (List.range 64).any (fun i => (s.rxmapOf n i).any (fun x => x.1 == sig))) ||
    (List.range 8192).any (fun j => s.par (offItem j) 31 1 == 1 && s.par (offItem j) 10 1 == 0 && s.itemSig j == sig)

/-- A signal is produced or consumed in logical crew `m` (R89). -/
def State.sigInCrew (s : State) (m sig : Nat) : Bool :=
  (s.producers (2 ^ m) sig).contains m ||
    (s.routes m).any (fun x => s.ctxValid m x.1 && (List.range (s.ctxNops m x.1)).any (fun k =>
      s.slotKind m x.1 k == 0 && (s.slotCfg m x.1 k).sig.toNat == sig))

/-- A program is compatible with the running image (R89). -/
def State.progCompat (s : State) (p : Prog) : Bool :=
  p.image == s.imageId ||
    (s.img.parent != 0 && p.image == s.img.parent && p.crew != s.img.part &&
      !(p.ins.map (fun x => x.1) ++ (p.outs.filter (fun o => !o.flag)).map (fun o => o.sig)).any (s.sigInCrew s.img.part))

/-- Items of 8 bytes lie within an area of `len` bytes and do not overlap. -/
def itemsOk (len : Nat) (l : List Nat) : Bool := l.all (fun o => decide (o + 8 ≤ len)) && decide l.Nodup

/-- The content checks of a program (R460, R468).  DEDUCED (notes/assumptions/116.md): the limit of R227 on the fast body falls on the mirrored variables of
the program image, as nothing else in the body varies. -/
def State.progOk (s : State) (p : Prog) : Bool :=
  let vals := p.outs.filter (fun o => !o.flag)
  let course := s.fld (F.CRS_CFG_SRC (s.fld (F.CT_CFG_CRS p.crew)))
  bit s.img.crews p.crew && decide (p.phase < p.period) && decide (1 ≤ p.ovrMax) && decide (p.retBh ≤ 0x30000) && decide (p.retMr ≤ 0x700000) &&
    decide (250000 ≤ p.period * s.minStroke p.crew) &&
    ((course != 0 && course != 3) || decide (p.period * s.ctPeriod p.crew ≤ 100000000)) &&
    decide (p.ins.map (fun x => x.1)).Nodup && decide (vals.map (fun o => o.sig)).Nodup &&
    p.ins.all (fun x => s.sigProduced x.1) && vals.all (fun o => decide (0x100 ≤ o.sig) && !s.sigProduced o.sig) &&
    decide (0x24000 + p.areas.mirror.2 ≤ 0x100000) &&
    itemsOk p.areas.inImg.2 (p.ins.map (fun x => x.2)) && itemsOk p.areas.outImg.2 (p.outs.map (fun o => o.ofs)) && p.areas.proof

/-- Verification of a program image (R460): the refusal code (R476), or the program. -/
def State.progVerify (s : State) (areas : ProgAreas) (addr len : Nat) : Nat × Option Prog :=
  if !s.sourceOk addr len then (10, none)
  else
    let l := s.rdList addr len
    let fl := fieldAt l 0x36 2
    if !headerOk l 0x0C 0x474E4D41 0x1000000 (bit fl 0) || decide (4 ≤ fl) then (1, none)
    else
      let c := s.itemCheck 0x0C l
      if c ≠ 0 then (c, none)
      else
        match itemBody l (bit fl 0) with
        | none => (6, none)
        | some body =>
          let io := fieldAt l 0x78 4
          match (if io % 8 = 0 ∧ 0x80 ≤ io then ioTable body (io - 0x80) else none) with
          | none => (8, none)
          | some (ins, outs) =>
            let p : Prog :=
              { id := fieldAt l 0x18 8, image := fieldAt l 0x20 8, retain := fieldAt l 0x28 8, period := fieldAt l 0x30 2,
                phase := fieldAt l 0x32 2, crew := fieldAt l 0x34 1, ovrMax := fieldAt l 0x35 1, auto := bit fl 1,
                retBh := fieldAt l 0x38 4, retMr := fieldAt l 0x3C 4, digest := (l.drop 0x40).take 48
                arbIdx := fieldAt l 0x12 1, signer := fieldAt l 0x13 1, arbVer := fieldAt l 0x14 4, ins := ins, outs := outs,
                areas := areas }
            if !s.progCompat p then (7, none) else if !s.progOk p then (8, none) else (0, some p)

/-- CYC_LOAD (R460, R467): a LOAD while another is verified is refused with STATE. -/
def execCycLoad (s : State) : Host.Outcome State Fault Refusal :=
  if s.cyc.loading.isSome then .next (s.cycRes 1 9)
  else
    let src := s.fld F.CYC_SRC_LO_ADDR * 64 + s.fld F.CYC_SRC_HI_ADDR * 2 ^ 32
    .next (((s.cycRes 1 0).setFld F.CYC_RES_BUSY 1).setCyc { s.cyc with loading := some (src, s.num Reg.CYC_SRC_LEN) })

/-- CYC_LOAD_DONE (R460, R467, R521). -/
def execCycLoadDone (areas : ProgAreas) (_u : Unit) (s : State) : Host.Outcome State Fault Refusal :=
  match s.cyc.loading with
  | none => .next s
  | some (src, len) =>
    let s := ((s.setCyc { s.cyc with loading := none }).setFld F.CYC_RES_BUSY 0).cycIrq 4
    match s.progVerify areas src len with
    | (0, some p) =>
      .next ((((s.cycRes 1 0).setFld F.CYC_STATUS_STAGED 1).extendMeas 4 p.digest).setCyc { s.cyc with staged := some p })
    | (c, _) => .next (s.cycRes 1 c)

/-! ## Forces (R472 to R474) -/

/-- The forces the table holds ACTIVE. -/
def State.forceTable (s : State) : List Force :=
  (List.range 1024).filterMap (fun x =>
    if s.flag (F.CYC_FRC0_ACTIVE x) then
      some ⟨x, s.fld (F.CYC_FRC0_KIND x), s.fld (F.CYC_FRC0_WIDTH x), s.fld (F.CYC_FRC0_TARGET x), s.num64 (Reg.CYC_FRC_VALUE_LO x) (Reg.CYC_FRC_VALUE_HI x)⟩
    else none)

/-- The table's entries take effect (R472). -/
def State.takeForces (s : State) : State := s.setCyc { s.cyc with forces := s.forceTable }

/-- Clears all forces (R474). -/
def State.clearForces (s : State) : State :=
  let l := (List.range 1024).filter (fun x => s.flag (F.CYC_FRC0_ACTIVE x))
  let s := l.foldl (fun s x => (s.setFld (F.CYC_FRC0_ACTIVE x) 0).setFld (F.CYC_FRC0_CLEARED x) 1) s
  (s.setCyc { s.cyc with forces := [] }).log 0x0F16 0x7001 l.length

/-- The force in effect on an item (R472). -/
def State.itemForce (s : State) (kind sig : Nat) : Option Force :=
  s.cyc.forces.find? (fun f => f.kind == kind && f.target % 2 ^ 12 == sig)

/-- A variable byte as the program reads it: the forced value over the underlying one (R472). -/
def State.forcedByte (s : State) (a : Nat) : Byte :=
  match s.cyc.cur with
  | none => s.rdByte a
  | some p =>
    if s.cycState ≠ 3 ∨ a < p.areas.vars.1 ∨ p.areas.vars.1 + p.areas.vars.2 ≤ a then s.rdByte a
    else
      let o := a - p.areas.vars.1
      match s.cyc.forces.find? (fun f => f.kind == 0 && decide (f.target ≤ o) && decide (o < f.target + 2 ^ f.width)) with
      | some f => BitVec.ofNat 8 (f.value / 2 ^ (8 * (o - f.target)))
      | none => s.rdByte a

/-- CYC_FORCE_WRITE (R472, R474): word `w` of entry `x` is written; outside STARTING and RUNNING the entry takes effect at once. -/
def execCycForceWrite (x : Fin 1024) (w : Fin 4) (v : Word) (s : State) : Host.Outcome State Fault Refusal :=
  let was := s.flag (F.CYC_FRC0_ACTIVE x)
  let s :=
    if w = 0 then s.wr (Reg.CYC_FRC0 x) (v &&& 0xBFFFFFFF)
    else if w = 1 then s
    else s.wr (if w = 2 then Reg.CYC_FRC_VALUE_LO x else Reg.CYC_FRC_VALUE_HI x) v
  let on := s.flag (F.CYC_FRC0_ACTIVE x)
  let s := s.logIf (w == 0 && (on || was)) 0x0F15 0x7001 (x.val + if on then 0 else 2 ^ 31)
  .next (if s.cycState < 2 then s.takeForces else s)

/-- CYC_FORCE_ACK (R474). -/
def execCycForceAck (s : State) : Host.Outcome State Fault Refusal :=
  .next ((List.range 1024).foldl (fun s x => if s.flag (F.CYC_FRC0_CLEARED x) then s.setFld (F.CYC_FRC0_CLEARED x) 0 else s) s)

/-! ## Retained variables (R468, R469) -/

/-- The address of byte `i` of the retained variables: the boathouse part, then the MRAM part. -/
def retAddr (p : Prog) (i : Nat) : Nat := if i < p.retBh then 0x08000000 + i else 0x8A000000 + (i - p.retBh)

/-- Address `a` holds a retained variable of the program. -/
def retained (p : Prog) (a : Nat) : Bool :=
  (decide (0x08000000 ≤ a) && decide (a < 0x08000000 + p.retBh)) || (decide (0x8A000000 ≤ a) && decide (a < 0x8A000000 + p.retMr))

/-- The runtime enters the old value of a retained byte it is about to write into the undo journal (R468). -/
def State.journalByte (s : State) (a : Nat) : State :=
  match s.cyc.cur, s.cyc.run with
  | some p, some _ =>
    if retained p a && (Tab.find s.cyc.journal a).isNone then s.setCyc { s.cyc with journal := Tab.put s.cyc.journal a (s.rdByte a).toNat } else s
  | _, _ => s

/-- Plays the undo journal back (R468). -/
def State.playJournal (s : State) : State :=
  let s := s.cyc.journal.foldl (fun s e => s.wrByte e.1 (BitVec.ofNat 8 e.2)) s
  s.setCyc { s.cyc with journal := [] }

/-- Stores retained bytes `i`, `i + 1`, … of the program. -/
def State.putRetained (s : State) (p : Prog) (i : Nat) : List Nat → State
  | [] => s
  | b :: l => (s.wrByte (retAddr p i) (BitVec.ofNat 8 b)).putRetained p (i + 1) l

/-- Stores the PROG body over the mirrored variables: of a checkpoint not over retained ones, of the mirror over all (R469). -/
def State.putBody (s : State) (p : Prog) (all : Bool) (a : Nat) : List Nat → State
  | [] => s
  | b :: l => (if all || !retained p a then s.wrByte a (BitVec.ofNat 8 b) else s).putBody p all (a + 1) l

/-- Bytes `n` of an initial value, 0 where the image gives none. -/
def padTo (n : Nat) (l : List Nat) : List Nat := l.take n ++ List.replicate (n - l.length) 0

/-- The initialisation of a start (R468, R469). -/
def State.cycInit (s : State) (p : Prog) (cold : Bool) : State :=
  let s := s.wrList p.areas.vars.1 (padTo p.areas.vars.2 p.areas.varInit)
  let s := if cold then (s.setCyc { s.cyc with journal := [] }).putRetained p 0 (padTo (p.retBh + p.retMr) p.areas.retInit) else s.playJournal
  let s := match s.cyc.body with
    | some (all, l) => if cold then s else s.putBody p all p.areas.mirror.1 (l.take p.areas.mirror.2)
    | none => s
  s.setCyc { s.cyc with due := none, body := none, store := some p.retain }

/-- The retained shadow is written at the supply dip warning (R468). -/
def State.writeShadow (s : State) : State :=
  let n := match s.cyc.cur with | some p => p.retBh | none => 0
  let s := s.copyMem 0x08000000 0x8A700100 n
  s.setCyc { s.cyc with shadow := some ⟨s.cyc.store.getD 0, crc32c (s.rdList 0x8A700100 n), s.cyc.journal⟩ }

/-- After power-on the boathouse part and the journal come from the shadow, or the part is initialised (R468). -/
def State.readShadow (s : State) (p : Prog) : State :=
  match s.cyc.shadow with
  | some h =>
    if h.retain = p.retain ∧ h.crc = crc32c (s.rdList 0x8A700100 p.retBh) then
      (s.copyMem 0x8A700100 0x08000000 p.retBh).setCyc { s.cyc with journal := h.journal }
    else ((s.wrList 0x08000000 (padTo p.retBh p.areas.retInit)).setFld F.CYC_STATUS_RET_PARTIAL 1).log 0x0F1A 0x7001 p.retBh
  | none => ((s.wrList 0x08000000 (padTo p.retBh p.areas.retInit)).setFld F.CYC_STATUS_RET_PARTIAL 1).log 0x0F1A 0x7001 p.retBh

/-! ## Online change (R470, R473) -/

/-- An entry of a batch, or none if it is malformed. -/
def State.ocEntry (s : State) (p : Prog) (a : Nat) : Option OcEntry :=
  let w := s.rdMem a 4
  let e : OcEntry := ⟨w % 2 ^ 24, w / 2 ^ 24 % 16, w / 2 ^ 28, s.rdMem (a + 8) 8⟩
  let len := match e.area with | 0 => p.areas.vars.2 | 1 => p.retBh + p.retMr | _ => p.areas.consts.2
  if 3 < e.width ∨ 2 < e.area ∨ s.rdMem (a + 4) 4 ≠ 0 ∨ e.off % 2 ^ e.width ≠ 0 ∨ len < e.off + 2 ^ e.width then none else some e

/-- The addresses of an entry's bytes. -/
def OcEntry.addrs (e : OcEntry) (p : Prog) : List Nat :=
  (List.range (2 ^ e.width)).map (fun i =>
    match e.area with | 0 => p.areas.vars.1 + e.off + i | 1 => retAddr p (e.off + i) | _ => p.areas.consts.1 + e.off + i)

/-- Applies an entry; a change of a retained variable stands when the journal is played back later. -/
def State.ocApply (s : State) (p : Prog) (e : OcEntry) : State :=
  let l := e.addrs p
  let s := (l.zip (leBytes 8 e.value)).foldl (fun s x => s.wrByte x.1 (BitVec.ofNat 8 x.2)) s
  if e.area = 1 then s.setCyc { s.cyc with journal := s.cyc.journal.filter (fun x => !l.contains x.1) } else s

/-- Writes the change report (R473). -/
def State.ocReport (s : State) (code n : Nat) (touched : List (Nat × Nat)) : State :=
  let a := s.fld F.CYC_OC_RPT_LO_ADDR * 16 + s.fld F.CYC_OC_RPT_HI_ADDR * 2 ^ 32
  let ws := [code, n, touched.length] ++ touched.map (fun x => x.1 % 4096 + x.2 % 1024 * 2 ^ 16)
  if inDram a (4 * ws.length) then s.wrList a (wordBytes ws) else s

/-- Applies a batch and reports it (R470, R473). -/
def State.ocRun (s : State) (p : Prog) (l : List OcEntry) : State :=
  let touched := l.zipIdx.flatMap (fun x =>
    if x.1.area ≠ 0 then []
    else (s.cyc.forces.filter (fun f => f.kind == 0 && decide (x.1.off < f.target + 2 ^ f.width) && decide (f.target < x.1.off + 2 ^ x.1.width))).map
      (fun f => (x.2, f.entry)))
  let s := l.foldl (fun s e => s.ocApply p e) s
  let s := s.setCyc { s.cyc with batch := none }
  ((s.ocReport 0 l.length touched).cycIrq 3).log 0x0F13 0x7001 (l.length + touched.length * 2 ^ 16)

/-- The batch that is pending is applied. -/
def State.ocFlush (s : State) : State :=
  match s.cyc.cur, s.cyc.batch with
  | some p, some l => s.ocRun p l
  | _, _ => s

/-- CYC_ONLINE_CHANGE (R470). -/
def execCycOnlineChange (s : State) : Host.Outcome State Fault Refusal :=
  let a := s.fld F.CYC_OC_SRC_LO_ADDR * 16 + s.fld F.CYC_OC_SRC_HI_ADDR * 2 ^ 32
  let n := s.fld F.CYC_OC_N_N
  let rpt := s.fld F.CYC_OC_RPT_LO_ADDR * 16 + s.fld F.CYC_OC_RPT_HI_ADDR * 2 ^ 32
  let refuse (code : Nat) : State := ((s.cycRes 5 code).ocReport code 0 []).cycIrq 3
  match s.cyc.cur with
  | none => .next (refuse 9)
  | some p =>
    if s.cycState = 0 then .next (refuse 9)
    else if s.cyc.batch.isSome then .next (refuse 12)
    else if n = 0 ∨ 4096 < n ∨ !inDram a (16 * n) ∨ !inDram rpt 12 then .next (refuse 10)
    else
      let es := (List.range n).map (fun i => s.ocEntry p (a + 16 * i))
      if es.any (fun e => e.isNone) then .next (refuse 13)
      else
        let s := s.cycRes 5 0
        let s := s.setCyc { s.cyc with batch := some (es.filterMap id) }
        .next (if s.cycState = 1 then s.ocFlush else s)

/-! ## States and commands (R466, R467, R471) -/

/-- Stops the program (R467): the running cycle is discarded. -/
def State.cycStopWith (s : State) (cause : Nat) : State :=
  let s := s.setCyc { s.cyc with run := none, due := none, body := none, bound := none, switch := none }
  (s.ocFlush.cycTo 1 cause).takeForces

/-- Makes the staged program current (R467, R471): a code change clears the forces and discards a pending batch. -/
def State.takeStaged (s : State) : State :=
  match s.cyc.staged with
  | none => s
  | some p =>
    let s := s.setCyc { s.cyc with cur := some p, staged := none, batch := none, sent := [], toks := [], used := [] }
    let s := (s.setFld F.CYC_STATUS_STAGED 0).setNum64 Reg.CYC_PROG_ID_LO Reg.CYC_PROG_ID_HI p.id
    s.clearForces

/-- A start is accepted (R467): counts since the start begin at 0. -/
def State.cycBegin (s : State) (cold : Bool) (body : Option (Bool × List Nat)) (cause : Nat) : State :=
  let s := s.setCyc { s.cyc with due := some cold, body := body, toks := [], used := [], bound := none, overran := false, run := none, winN := 0, idleMin := 0, idleSum := 0, execMax := 0 }
  let s := ((s.setNum Reg.CYC_CNT 0).setNum Reg.CYC_SKIP 0).setFld F.CYC_STATUS_K 0
  s.cycTo 2 cause

/-- START_WARM and START_COLD (R439, R467). -/
def State.cycStart (s : State) (cmd : Nat) (cold : Bool) : State :=
  match s.cyc.staged.or s.cyc.cur with
  | none => s.cycRes cmd 9
  | some p =>
    if 2 ≤ s.cycState ∨ !s.holdsToken then s.cycRes cmd 9
    else if !cold && s.cyc.store != some p.retain then s.cycRes cmd 11
    else
      let had := s.cyc.staged.isSome
      let s := (s.cycRes cmd 0).takeStaged
      let s := if cold && !had then s.clearForces else s
      s.cycBegin cold none 0

/-- CYC_START_WARM (R467). -/
def execCycStartWarm (s : State) : Host.Outcome State Fault Refusal := .next (s.cycStart 2 false)
/-- CYC_START_COLD (R467). -/
def execCycStartCold (s : State) : Host.Outcome State Fault Refusal := .next (s.cycStart 3 true)

/-- CYC_STOP (R467). -/
def execCycStop (s : State) : Host.Outcome State Fault Refusal :=
  .next (if s.cycState < 2 then s.cycRes 4 9 else (s.cycRes 4 0).cycStopWith 0)

/-- CYC_SWITCH (R439, R467, R471). -/
def execCycSwitch (s : State) : Host.Outcome State Fault Refusal :=
  match s.cyc.cur, s.cyc.staged with
  | some c, some p =>
    if s.cycState ≠ 3 ∨ !s.holdsToken then .next (s.cycRes 6 9)
    else if p.retain ≠ c.retain then .next (s.cycRes 6 11)
    else .next ((s.cycRes 6 0).setCyc { s.cyc with switch := some .boundary })
  | _, _ => .next (if s.cycState ≠ 3 ∨ !s.holdsToken then s.cycRes 6 9 else s.cycRes 6 14)

/-- The program stops with cause FAULT (R467, R495). -/
def State.cycFault (s : State) (mcause : Nat) : State :=
  if s.cycState = 3 then (s.log 0x0F19 0x7001 mcause).cycStopWith 2 else s

/-- CYC_PROGRAM_FAULT (R467): an exception on AC_1, or its freeze. -/
def execCycProgramFault (mcause : Word) (s : State) : Host.Outcome State Fault Refusal := .next (s.cycFault mcause.toNat)

/-- Demotion (R440, R467). -/
def State.cycDemote (s : State) : State := if s.cycState = 0 then s else s.cycStopWith 3

/-- The replacement switch point (R87, R89, R467). -/
def State.cycReplaced (s : State) : State :=
  let s := match s.cyc.staged with
    | some p => if s.progCompat p then s else (s.setCyc { s.cyc with staged := none }).setFld F.CYC_STATUS_STAGED 0
    | none => s
  match s.cyc.cur with
  | some p => if s.progCompat p then s else s.cycStopWith 6
  | none => s

/-- Take-over (R450, R467, R469): an AUTO_START program starts warm with the mirror's values. -/
def State.cycTakeOver (s : State) (body : List Nat) : State :=
  match s.cyc.cur with
  | some p => if p.auto then s.cycBegin false (some (true, body)) 5 else s
  | none => s

/-- What a reset that clears CYC leaves (R467, R468, R474): the program staged or current before is current again, with what a resumed
checkpoint gives its variables. -/
def State.cycReset (s : State) (powerOn : Bool) (body : Option (List Nat)) : State :=
  let p := s.cyc.staged.or s.cyc.cur
  let s := s.setCyc { CycState.init with store := s.cyc.store, journal := if powerOn then [] else s.cyc.journal, shadow := s.cyc.shadow }
  let s := s.clearForces
  match p with
  | none => s
  | some p =>
    if !s.progCompat p then s.log 0x0F17 0x7001 7
    else
      let s := (s.setCyc { s.cyc with cur := some p }).setNum64 Reg.CYC_PROG_ID_LO Reg.CYC_PROG_ID_HI p.id
      let s := if powerOn then s.readShadow p else s
      if p.auto && s.holdsToken && s.cyc.store == some p.retain then s.cycBegin false (body.map (fun l => (false, l))) 4
      else s.cycTo 1 4

/-! ## The cycle (R461 to R465) -/

/-- The newest token of a signal at or before a start catch. -/
def newestToken (start : Nat) (l : List (Nat × Token)) : Option (Nat × Token) :=
  (l.filter (fun x => decide (seqDiff x.2.cseq.toNat start ≤ 0))).foldl (fun b x =>
    match b with
    | none => some x
    | some y => if seqDiff x.2.cseq.toNat y.2.cseq.toNat < 0 then b else some x) none

/-- Tokens that reached CYC since the last start catch. -/
def State.cycArrive (s : State) (arr : List (Nat × Token)) : State :=
  arr.foldl (fun s x =>
    let k := x.2.sig.toNat
    s.setCyc { s.cyc with toks := Tab.put s.cyc.toks k ((Tab.get (fun _ => []) s.cyc.toks k) ++ [x]) }) s

/-- Writes one item of the input image (R461, R462, R472); a token that fails its check gives a free VALUE (notes/assumptions/3.md). -/
def State.cycInput (s : State) (p : Prog) (q : Nat) (i : Nat × Nat) : State :=
  let a := p.areas.inImg.1 + i.2
  let l := Tab.get (fun _ => []) s.cyc.toks i.1
  let put (s : State) (v : Word) (st : Nat) : State :=
    match s.itemForce 1 i.1 with
    | some f => (s.wrMem a 4 f.value).wrMem (a + 4) 4 0
    | none => (s.wrWord a v).wrMem (a + 4) 4 st
  match newestToken q l with
  | none => put s 0 1
  | some (link, t) =>
    let keep := t :: (l.map (fun x => x.2)).filter (fun x => decide (0 < seqDiff x.cseq.toNat q))
    let old := match Tab.find s.cyc.used i.1 with | some u => decide (seqDiff t.cseq.toNat u ≤ 0) | none => false
    let s := s.setCyc { s.cyc with
      toks := Tab.put s.cyc.toks i.1 (l.filter (fun x => keep.contains x.2))
      used := if old then s.cyc.used else Tab.put s.cyc.used i.1 t.cseq.toNat }
    let (w, s) := if t.ok && !s.linkRetired link then ((0 : Word), s) else s.freshWord
    let s := s.logIf (!t.ok) 0x0F18 0x7001 i.1
    let (c, s) := s.check link w t
    put s c.value (if old && c.st != 1 then 3 else c.st.toNat)

/-- A value output leaves (R461). -/
def State.cycSend (s : State) (o : Nat) (v : Word) (st : BitVec 4) (q : Nat) : State :=
  (s.emitToks 8 [mkToken v (BitVec.ofNat 12 o) st q]).setCyc { s.cyc with sent := Tab.put s.cyc.sent o v }

/-- A program flag follows bit 0 of an output item (R461). -/
def State.cycFlag (s : State) (i : Nat) (b : Bool) : State :=
  s.setRbit (if i < 32 then Reg.SEQ_PFLAG_LO else Reg.SEQ_PFLAG_HI) (i % 32) b

/-- The output image is sent (R461, R462, R472). -/
def State.cycOutputs (s : State) (p : Prog) (q : Nat) : State :=
  p.outs.foldl (fun s o =>
    let a := p.areas.outImg.1 + o.ofs
    let v := s.rdWord a
    let st : BitVec 4 := BitVec.ofNat 4 (s.rdMem (a + 4) 1)
    if o.flag then s.cycFlag o.sig (bit v.toNat 0)
    else
      match s.itemForce 2 o.sig with
      | some f => s.cycSend o.sig (BitVec.ofNat 32 f.value) 0 q
      | none => s.cycSend o.sig v (if stReserved st then 1 else st) q) s

/-- The value of an output's stop action (R465). -/
def State.stopValue (s : State) (o : ProgOut) : Word := if o.stop then o.subst else (Tab.find s.cyc.sent o.sig).getD o.subst

/-- The stop action at a start catch (R465): VALUE last sent stays what the program sent. -/
def State.stopAction (s : State) (p : Prog) (q : Nat) : State :=
  s.emitToks 8 ((p.outs.filter (fun o => !o.flag)).map (fun o => mkToken (s.stopValue o) (BitVec.ofNat 12 o.sig) 1 q))

/-- The outputs a switched program no longer produces take their stop action once (R471). -/
def State.sendOwed (s : State) (q : Nat) : State :=
  let s := s.emitToks 8 (s.cyc.owed.map (fun x => mkToken x.2 (BitVec.ofNat 12 x.1) 1 q))
  s.setCyc { s.cyc with owed := [] }

/-- The window of cycle times after a cycle whose idle time is known (R463). -/
def State.cycWindow (s : State) (idle : Nat) : State :=
  let c := s.cyc
  let n := c.winN + 1; let mn := if c.winN = 0 then idle else min c.idleMin idle; let sum := c.idleSum + idle
  if s.fld F.CYC_WIN_CYCLES ≤ n then
    let s := ((s.setNum Reg.CYC_IDLE_MIN (min mn 0xFFFFFFFF)).setNum Reg.CYC_IDLE_MEAN (min (sum / n) 0xFFFFFFFF)).setNum Reg.CYC_EXEC_MAX (min c.execMax 0xFFFFFFFF)
    (s.setCyc { s.cyc with winN := 0, idleMin := 0, idleSum := 0, execMax := 0 }).cycIrq 5
  else s.setCyc { c with winN := n, idleMin := mn, idleSum := sum }

/-- A start catch after a boundary closes that cycle's idle time. -/
def State.closeCycle (s : State) : State :=
  match s.cyc.bound with
  | none => s
  | some b =>
    let s := s.cycWindow (if s.cyc.overran then 0 else cycNs (s.time.cycle - b))
    s.setCyc { s.cyc with bound := none, overran := false }

/-- A cycle begins (R461, R468): the initialisation that is due, and the input image. -/
def State.beginCycle (s : State) (p : Prog) (q : Nat) : State :=
  let s := match s.cyc.due with | some cold => s.cycInit p cold | none => s
  let s := p.ins.foldl (fun s i => s.cycInput p q i) s
  let s := s.setCyc { s.cyc with run := some (q, s.time.cycle), overran := false }
  (s.setNum Reg.CYC_START_CSEQ q).setFld F.CYC_IRQ_START 1

/-- A start catch in RUNNING while the cycle before has not reached its boundary (R464). -/
def State.skipCycle (s : State) (p : Prog) (q : Nat) : State :=
  let k := min 255 (s.fld F.CYC_STATUS_K + 1)
  let s := ((s.count Reg.CYC_SKIP 1).setFld F.CYC_STATUS_K k).cycIrq 2
  let s := (s.setCyc { s.cyc with overran := true }).log 0x0F11 0x7001 k
  if p.ovrMax ≤ k then (s.log 0x0F12 0x7001 q).cycStopWith 1 else s

/-- The catch with CSEQ `q` is the stroke start of the program's crew that its running table has reached, and has not yet been taken (R461). -/
def State.isStart (s : State) (p : Prog) (q : Nat) : Bool :=
  s.flag (F.CT_CTRL_RUNNING p.crew) && cseqEntry q == 0 && strokeOf q == strokeOf (s.num (Reg.CT_LAST_CSEQ p.crew)) &&
    strokeOf q % p.period == p.phase && s.cyc.startAt != some q

/-- CYC_START_CATCH (R461 to R465, R471): a catch of the program's crew; `arr` are the tokens that reached CYC since the one before. -/
def execCycStartCatch (cseq : Word) (arr : List (Nat × Token)) (s : State) : Host.Outcome State Fault Refusal :=
  let q := cseq.toNat
  match s.cyc.cur with
  | none => .next s
  | some p =>
    let s := s.cycArrive arr
    if !s.isStart p q then .next s
    else
      let s := (s.setCyc { s.cyc with startAt := some q }).closeCycle.sendOwed q
      if s.cycState = 1 then .next (s.stopAction p q)
      else if s.cycState = 2 then .next ((s.cycTo 3 (s.fld F.CYC_STATUS_CAUSE)).beginCycle p q)
      else if s.cyc.run.isSome then .next (s.skipCycle p q)
      else if s.cyc.switch = some .idle then .next (s.setCyc { s.cyc with switch := none, due := some false })
      else .next (s.beginCycle p q)

/-- The switch of programs at the cycle boundary (R471). -/
def State.cycSwitchNow (s : State) (p : Prog) : State :=
  if s.cyc.switch ≠ some .boundary then s
  else
    match s.cyc.staged with
    | none => s.setCyc { s.cyc with switch := none }
    | some n =>
      let gone := p.outs.filter (fun o => !o.flag && !n.outs.any (fun x => !x.flag && x.sig == o.sig))
      let owed := gone.map (fun o => (o.sig, s.stopValue o))
      let s := s.takeStaged
      s.setCyc { s.cyc with switch := some .idle, owed := owed }

/-- CYC_DONE (R461 to R464, R470 to R472): the runtime on AC_1 ends the running cycle. -/
def execCycDone (s : State) : Host.Outcome State Fault Refusal :=
  match s.cyc.cur, s.cyc.run with
  | some p, some (q, t) =>
    let s := s.takeForces
    let s := s.cycOutputs p q
    let s := if s.cyc.overran then s else s.setFld F.CYC_STATUS_K 0
    let s := s.setNum Reg.CYC_CNT (s.num Reg.CYC_CNT + 1)
    let s := s.setCyc { s.cyc with run := none, bound := some s.time.cycle, execMax := max s.cyc.execMax (cycNs (s.time.cycle - t)) }
    let s := s.setFld F.CYC_IRQ_START 0
    let s := if s.cyc.switch = some .boundary then s else s.ocFlush
    let s := (s.setCyc { s.cyc with journal := [] }).cutBoundary.mirBoundary
    .next (s.cycSwitchNow p)
  | _, _ => .next s

end Sys2Proof.Machine
end

