-- ==== Sys2Proof/Machine/Fwl.lean ====
section
/-! DEFINITION. The firewall, its freezes and releases, the memory ECC and the links (R491 to R499, R504). -/
namespace Sys2Proof.Machine

/-! ## Regions (R491 to R493) -/

/-- The kinds of R494. -/
def Access.kind : Access → Nat
  | .read => 1 | .write => 2 | .fetch => 3 | .rmw => 4

/-- The permissions an access needs: bit 0 R, bit 1 W, bit 2 X (R493). -/
def Access.perm : Access → Nat
  | .read => 1 | .write => 2 | .fetch => 4 | .rmw => 3

/-- BASE and LIMIT of region `r` of a master. -/
def State.regionBase (s : State) (m r : Nat) : Nat := s.fld (F.FWL_REG0_BASE m r) * 4096 + s.fld (F.FWL_REG1_BASE m r) * 2 ^ 32
def State.regionLast (s : State) (m r : Nat) : Nat := s.fld (F.FWL_REG2_LIMIT m r) * 4096 + s.fld (F.FWL_REG3_LIMIT m r) * 2 ^ 32 + 4095

/-- One enabled region of the master covers every byte with the permission (R493). -/
def State.regionCovers (s : State) (m addr n : Nat) (k : Access) : Bool :=
  (List.range 16).any (fun r =>
    s.flag (F.FWL_REG0_EN m r) && s.fld (F.FWL_REG0_PERM m r) &&& k.perm == k.perm &&
      decide (s.regionBase m r ≤ addr) && decide (addr + n ≤ s.regionLast m r + 1))

/-- The firewall allows an access of a master to `n` bytes at an address (R492, R493, R524). -/
def State.fwlAllowed (s : State) (m addr n : Nat) (k : Access) : Bool :=
  let debug := bit (s.fld F.VLT_STATUS_SCOPE) 3
  if s.fwl.applied then (m != 8 || debug) && s.regionCovers m addr n k
  else m == 0 || (m == 8 && debug)

/-- SOURCE of a master's events (R506). -/
def masterSource (m : Nat) : Nat :=
  if m < 8 then 0x7000 + m
  else if m < 16 then 0
  else if m < 52 then 0x1000 + (m - 16) / 4
  else if m < 64 then 0
  else if m < 136 then 0x8000 + (m - 64)
  else if m < 140 then 0x8100 + (m - 136)
  else if m < 144 then 0
  else if m < 150 then 0x6010 + (m - 144)
  else if m < 152 then 0x6020 + (m - 150)
  else 0x6000 + (m - 152)

/-! ## Record mover states, as the firewall needs them (R483) -/

def State.rmvOf (s : State) (c : Nat) : RmvChan := Tab.get (fun _ => RmvChan.init) s.rmv c
def State.setRmv (s : State) (c : Nat) (x : RmvChan) : State := { s with rmv := Tab.put s.rmv c x }

/-- A record-mover channel halts with a cause (R483, R506). -/
def State.rmvHalt (s : State) (c cause : Nat) : State :=
  let s := (s.setFld (F.RMV_STATUS_STATE c) 2).setFld (F.RMV_STATUS_CAUSE c) cause
  s.logIf (cause == 1 || cause == 2) 0x1013 (0x8100 + c) (cause + min (s.rmvOf c).pos (2 ^ 24 - 1) * 2 ^ 8)

/-! ## Violations (R494 to R497) -/

/-- What the work a frozen master carries does (R483, R495, R496). -/
def State.freezeWork (s : State) (m : Nat) : State :=
  if m = 0 then
    if s.fld F.RPC_WDG_STATUS_TIMEOUT_MS = 0 then s.setFwl { s.fwl with ac0Timer := true } else s
  else if m = 1 then
    if s.cycState = 3 then
      let (c, s) := s.freshNat
      s.cycFault c
    else s
  else if 64 ≤ m ∧ m < 136 then
    if s.cdmState ((m - 64) / 8) ((m - 64) % 8) = 1 then s.setCdmState ((m - 64) / 8) ((m - 64) % 8) 3 else s
  else if 136 ≤ m ∧ m < 140 then
    if s.fld (F.RMV_STATUS_STATE (m - 136)) = 1 then s.setFld (F.RMV_STATUS_STATE (m - 136)) 3 else s
  else s

/-- A violation freezes its master (R494, R497). -/
def State.violate (s : State) (m addr : Nat) (k : Access) (task : Option (Nat × Nat)) : State :=
  let lower := s.fwl.viols.any (fun e => e.2.at_ == s.time.cycle && decide (e.1 < m))
  let s := s.setFwl { s.fwl with viols := Tab.put s.fwl.viols m ⟨addr, task, s.time.cycle⟩, pavLog := s.fwl.pavLog ++ [m] }
  let s := if lower then s
    else ((s.setNum Reg.FWL_VIOL_INFO (k.kind * 2 ^ 8 + m)).setNum Reg.FWL_VIOL_ADDR_LO (addr % 2 ^ 32)).setNum Reg.FWL_VIOL_ADDR_HI (addr / 2 ^ 32 % 256)
  let s := (s.count Reg.FWL_VIOL_COUNT 1).setRbit (Reg.FWL_FROZEN (m / 32)) (m % 32) true
  let s := (s.setFld F.FWL_STATUS_VIOL 1).log 0x1010 (masterSource m) (addr % 2 ^ 32)
  s.freezeWork m

/-- The release of a frozen master: 0 command, 1 domain reset (R496). -/
def State.unfrozen (s : State) (m detail : Nat) : State :=
  let s := (s.setRbit (Reg.FWL_FROZEN (m / 32)) (m % 32) false).setFwl { s.fwl with viols := Tab.del s.fwl.viols m }
  s.log 0x1011 (masterSource m) detail

/-- Releases every frozen master of a list, by a reset of their domain. -/
def State.releaseAll (s : State) (l : List Nat) : State := l.foldl (fun s m => if s.frozen m then s.unfrozen m 1 else s) s

/-- What an unfreeze by command does to its master (R496): a core takes an access fault, an engine discards the task that violated, and a
DMA channel goes to HALTED. -/
def State.unfreezeWork (s : State) (m : Nat) (v : Viol) : State :=
  if m < 8 then s.setBus ⟨true, 0⟩
  else if 16 ≤ m ∧ m < 52 then
    match v.task with
    | some (x, w) => if (s.entryOf ((m - 16) / 4) x w).state = .issued then s.dropEntry ((m - 16) / 4) x w else s
    | none => s
  else if 64 ≤ m ∧ m < 136 then
    if s.cdmState ((m - 64) / 8) ((m - 64) % 8) = 3 then s.cdmHalt ((m - 64) / 8) ((m - 64) % 8) 4 else s
  else if 136 ≤ m ∧ m < 140 then
    if s.fld (F.RMV_STATUS_STATE (m - 136)) = 3 then s.rmvHalt (m - 136) 4 else s
  else s

/-- FWL_UNFREEZE (R496, R497): ignored without the key, from another master than AC_0, for a master not frozen, for AC_0, and in the cycle of
the violation. -/
def State.unfreeze (s : State) (by_ key m : Nat) : State :=
  if by_ ≠ 0 ∨ key ≠ 0xA5 ∨ m = 0 ∨ !s.frozen m then s
  else
    match Tab.find s.fwl.viols m with
    | some v => if v.at_ = s.time.cycle then s else (s.unfrozen m 0).unfreezeWork m v
    | none => s.unfrozen m 0

def execFwlUnfreeze (src : Fin 160) (key m : Byte) (s : State) : Host.Outcome State Fault Refusal :=
  .next (s.unfreeze src key.toNat m.toNat)

/-! ## Memory ECC (R498, R499) -/

/-- The memory an address lies in: 0 crew, 1 scratch, 2 boathouse, 3 DRAM, 4 MRAM (R506). -/
def eccMemory (a : Nat) : Nat :=
  if 0x1000000000 ≤ a then 3
  else if 0x80000000 ≤ a ∧ a < 0x90000000 then 4
  else if 0x10000000 ≤ a ∧ a < 0x10400000 then 1
  else if 0x08000000 ≤ a ∧ a < 0x08040000 then 2
  else 0

/-- The physical crew whose state of R195 cause 3 an address lies in: a loop context, a segment queue, or the cox's contexts and store. -/
def crewStateAt (a : Nat) : Option Nat :=
  if 0x40000000 ≤ a ∧ a < 0x49000000 then
    if 0x80000 ≤ a % 0x1000000 ∧ a % 0x1000000 < 0x8A000 then some ((a - 0x40000000) / 0x1000000) else none
  else if 0xE1000000 ≤ a ∧ a < 0xE1900000 then
    if a % 0x100000 < 0x10000 then some ((a - 0xE1000000) / 0x100000) else none
  else none

/-- A corrected error (R498): written back, counted, and logged at most once per second per memory. -/
def State.eccCorrected (s : State) (mem : Nat) : State :=
  (s.count Reg.FWL_ECC_CE 1).logPerSecond (0x70000 + mem) 0x1020 0 mem

/-- An uncorrectable error (R195, R499): counted, recorded and logged; crew state retires its crew. -/
def State.eccUncorrectable (s : State) (addr : Nat) : State :=
  let s := (s.count Reg.FWL_ECC_UE 1).setNum64 Reg.FWL_ECC_ADDR_LO Reg.FWL_ECC_ADDR_HI addr
  let s := (s.setFld F.FWL_STATUS_ECC_UE 1).log 0x1021 0 (addr % 2 ^ 32)
  match crewStateAt addr with
  | some n => s.crewFatal n 3
  | none => s

/-- The message RAM of a CAN controller an address lies in, with the offset (R358). -/
def canRamAt (a : Nat) : Option (Nat × Nat) :=
  if 0xE0200000 ≤ a ∧ a < 0xE0280000 then
    if 0x8000 ≤ a % 0x10000 then some ((a - 0xE0200000) / 0x10000, a % 0x8000) else none
  else none

/-- What an access or the scrubber finds at an address. -/
def State.eccAt (s : State) (e : Ecc) (addr : Nat) : State :=
  match e with
  | .clean => s
  | .corrected => match canRamAt addr with | some _ => s | none => s.eccCorrected (eccMemory addr)
  | .uncorrectable =>
    match canRamAt addr with
    | some (n, o) => s.canEcc n o
    | none => s.eccUncorrectable addr

/-- The memories the scrubber reads (R19, R498): crew SRAM, scratch SRAM, the boathouse and general DRAM. -/
def scrubbed (a : Nat) : Bool :=
  (decide (0x40000000 ≤ a) && decide (a < 0x49000000) && decide (a % 0x1000000 < 0x100000)) || (decide (0x10000000 ≤ a) && decide (a < 0x10400000)) ||
    (decide (0x08000000 ≤ a) && decide (a < 0x08040000)) || (decide (0x1000000000 ≤ a) && decide (a < 0x1800000000))

/-- ECC_SCRUB (R498): the scrubber reads an address. -/
def execEccScrub (addr : Nat) (e : Ecc) (s : State) : Host.Outcome State Fault Refusal := .next (if scrubbed addr then s.eccAt e addr else s)

/-! ## Links (R504) -/

/-- A change of a link's health sets FWL_STATUS.LINK. -/
def State.linkHealth (s : State) (l : Nat) (f : State → State) : State :=
  let before := s.health (.link l)
  let s := f s
  if s.health (.link l) = before then s else s.setFld F.FWL_STATUS_LINK 1

/-- LINK_READMIT (R504): FWL_READMIT starts a link's test; numbers above 11 name no link. -/
def execLinkReadmit (l : BitVec 4) (s : State) : Host.Outcome State Fault Refusal :=
  if l.toNat < 12 then .next (s.linkHealth l.toNat (fun s => s.readmit (.link l.toNat))) else .next s

end Sys2Proof.Machine
end

