-- ==== Sys2Proof/Machine/Cdm.lean ====
section
/-! DEFINITION. The commands of the crew DMA channels and of the record mover (R479 to R489).  `n` is a physical crew, `ch` a channel of its
DMA, `c` a channel of the record mover. -/
namespace Sys2Proof.Machine

/-! ## Crew DMA (R479, R483, R486) -/

/-- CDM_GO (R479, R483): a GO to a channel whose owner is not FIRMWARE is refused with OWNER. -/
def execCdmGo (n : Fin 9) (ch : Fin 8) (s : State) : Host.Outcome State Fault Refusal :=
  if s.crewDeaf n then .next s
  else if s.fld (F.CDM_CH_CFG_OWNER n ch) ≠ 0 then .next (s.cdmRefuse n ch 2)
  else .next (s.cdmStart n ch none)

/-- CDM_ABORT (R483). -/
def execCdmAbort (n : Fin 9) (ch : Fin 8) (s : State) : Host.Outcome State Fault Refusal :=
  if s.crewDeaf n || s.cdmState n ch != 1 then .next s else .next (s.cdmHalt n ch 3)

/-- CDM_RESUME (R483, R485): a HALTED channel continues at element POS; a RETIRED one refuses. -/
def execCdmResume (n : Fin 9) (ch : Fin 8) (s : State) : Host.Outcome State Fault Refusal :=
  if s.crewDeaf n || s.cdmState n ch != 2 then .next s
  else if !s.inUse (.cdm n ch) then .next (s.cdmRefuse n ch 5)
  else .next ((s.setDma n ch { s.dmaOf n ch with left := s.fld (F.CDM_CH_MODE_RETRY n ch) }).setCdmState n ch 1)

/-- CDM_READMIT (R486). -/
def execCdmReadmit (n : Fin 9) (ch : Fin 8) (s : State) : Host.Outcome State Fault Refusal :=
  if s.crewDeaf n then .next s else .next (s.readmit (.cdm n ch))

/-! ## Record mover (R483, R488, R489) -/

def State.rmvSrc (s : State) (c : Nat) : Nat := s.fld (F.RMV_SRC_LO_ADDR c) * 8 + s.fld (F.RMV_SRC_HI_ADDR c) * 2 ^ 32
def State.rmvDst (s : State) (c : Nat) : Nat := s.fld (F.RMV_DST_LO_ADDR c) * 8 + s.fld (F.RMV_DST_HI_ADDR c) * 2 ^ 32
/-- The bytes of one pass. -/
def State.rmvTotal (s : State) (c : Nat) : Nat := s.fld (F.RMV_S_LINE_LINE c) * s.fld (F.RMV_S_LINES_LINES c)

/-- Records a refusal: 1 BUSY, 3 ALIGN, 5 RETIRED, 6 SIZE. -/
def State.rmvRefuse (s : State) (c code : Nat) : State := s.setFld (F.RMV_STATUS_REFUSE c) code

/-- The refusal of a GO by the checks of R488, SIZE before ALIGN; 0 when they pass. -/
def State.rmvCheck (s : State) (c : Nat) : Nat :=
  if s.rmvTotal c ≠ s.fld (F.RMV_D_LINE_LINE c) * s.fld (F.RMV_D_LINES_LINES c) then 6
  else if [s.fld (F.RMV_S_LINE_LINE c), s.fld (F.RMV_D_LINE_LINE c), s.num (Reg.RMV_S_STRIDE c), s.num (Reg.RMV_D_STRIDE c)].any
      (fun x => decide (x % 8 ≠ 0)) then 3
  else 0

/-- RMV_GO (R483, R488). -/
def execRmvGo (c : Fin 4) (s : State) : Host.Outcome State Fault Refusal :=
  let st := s.fld (F.RMV_STATUS_STATE c)
  if !s.inUse (.rmv c) then .next (s.rmvRefuse c 5)
  else if st = 1 then .next (s.rmvRefuse c 1)
  else if st = 3 then .next s
  else if s.rmvCheck c ≠ 0 then .next (s.rmvRefuse c (s.rmvCheck c))
  else .next (((s.setNum (Reg.RMV_POS c) 0).setRmv c ⟨0, s.fld (F.RMV_CTRL_RETRY c), false, false⟩).setFld (F.RMV_STATUS_STATE c) 1)

/-- RMV_ABORT (R483). -/
def execRmvAbort (c : Fin 4) (s : State) : Host.Outcome State Fault Refusal :=
  if s.fld (F.RMV_STATUS_STATE c) = 1 then .next (s.rmvHalt c 3) else .next s

/-- RMV_RESUME (R483). -/
def execRmvResume (c : Fin 4) (s : State) : Host.Outcome State Fault Refusal :=
  if s.fld (F.RMV_STATUS_STATE c) ≠ 2 then .next s
  else if !s.inUse (.rmv c) then .next (s.rmvRefuse c 5)
  else .next ((s.setRmv c { s.rmvOf c with left := s.fld (F.RMV_CTRL_RETRY c), waiting := false }).setFld (F.RMV_STATUS_STATE c) 1)

end Sys2Proof.Machine
end

