-- ==== Sys2Proof/Machine/Eth.lean ====
section
/-! DEFINITION. The Ethernet ports (R380 to R387, R394): PRP, VLANs, gates, time stamps, MACsec and the frame port.  `n` is a port, `p` a pair.
The layouts of 802.1Q tags, redundancy trailers, IPv4, UDP and PTP headers are those of their standards (notes/assumptions/14.md). -/
namespace Sys2Proof.Machine

def State.ethOf (s : State) (n : Nat) : EthState := Tab.get (fun _ => EthState.init) s.eths n
def State.setEth (s : State) (n : Nat) (e : EthState) : State := { s with eths := Tab.put s.eths n e }
def State.prpOf (s : State) (p : Nat) : PrpState := Tab.get (fun _ => PrpState.init) s.prps p
def State.setPrp (s : State) (p : Nat) (x : PrpState) : State := { s with prps := Tab.put s.prps p x }
/-- Sets group `k` of ETH_IRQ (R397). -/
def State.ethIrq (s : State) (n k : Nat) : State := s.setRbit (Reg.ETH_IRQ n) k true
/-- The port can send frames (R383, R495). -/
def State.ethUp (s : State) (n : Nat) : Bool :=
  s.flag (F.ETH_CTRL_EN n) && s.flag (F.ETH_STATUS_LINK n) && s.inUse (.eth n) && !s.frozen (144 + n)
/-- The port takes frames: R383 stops only the sending of a retired port, but one whose domain is retired or that loops its frames back in a test takes
none. -/
def State.ethHears (s : State) (n : Nat) : Bool :=
  s.flag (F.ETH_CTRL_EN n) && s.flag (F.ETH_STATUS_LINK n) && !s.domainRetired 4 && s.health (.eth n) != .testing && !s.frozen (144 + n)
/-- The other port of the pair. -/
def mate (n : Nat) : Nat := n / 2 * 2 + (1 - n % 2)

/-! ## Frame fields -/

/-- A big-endian field of a frame. -/
def be (l : List Nat) (off n : Nat) : Nat := ofBe ((l.drop off).take n)
/-- Whether a frame carries an 802.1Q tag, its VID, its EtherType, and where the payload starts. -/
def ethTagged (l : List Nat) : Bool := be l 12 2 == 0x8100
def ethVid (l : List Nat) : Option Nat := if ethTagged l then some (be l 14 2 % 2 ^ 12) else none
def ethType (l : List Nat) : Nat := if ethTagged l then be l 16 2 else be l 12 2
def ethPay (l : List Nat) : Nat := if ethTagged l then 18 else 14
/-- Link-local EtherTypes: PTP and MKA (R382). -/
def linkLocal (etype : Nat) : Bool := etype == 0x88F7 || etype == 0x888E
/-- The UDP destination port of an IPv4 frame. -/
def udpPort (l : List Nat) : Option Nat :=
  let o := ethPay l
  if ethType l = 0x0800 ∧ fieldAt l (o + 9) 1 = 17 then some (be l (o + fieldAt l o 1 % 16 * 4 + 2) 2) else none
/-- The redundancy control trailer (R381): sequence number and LAN identifier, where the size and the suffix hold. -/
def trailer (l : List Nat) : Option (Nat × Nat) :=
  let k := l.length - 6
  let w := be l (k + 2) 2
  if 20 ≤ l.length ∧ be l (k + 4) 2 = 0x88FB ∧ w % 2 ^ 12 = (l.length - ethPay l) % 2 ^ 12 then some (be l k 2, w / 2 ^ 12) else none
/-- A frame with its trailer for a port: LAN A is 0xA, LAN B 0xB. -/
def withTrailer (l : List Nat) (seq n : Nat) : List Nat :=
  l ++ beBytes 2 seq ++ beBytes 2 ((0xA + n % 2) * 2 ^ 12 + (l.length - ethPay l + 6) % 2 ^ 12) ++ [0x88, 0xFB]

/-! ## Gates (R385) -/

/-- Mask and interval of gate entry `e`. -/
def State.gcl (s : State) (n e : Nat) : Nat × Nat := (s.num (Reg.ETH_GCL n e) % 256, s.num (Reg.ETH_GCL n e) / 256)

/-- Time from a moment of the cycle until queue `q` closes: `l` lists the entries still to come, `off` how much of the first has passed. -/
def openFor (q off : Nat) : List (Nat × Nat) → Nat
  | [] => 0
  | (m, d) :: l => if bit m q then (d - off) + openFor q 0 l else 0

/-- How long the gate of queue `q` stays open from now (none: without bound). -/
def State.gateOpen (s : State) (n q : Nat) : Option Nat :=
  if !s.flag (F.ETH_CTRL_QBV_EN n) || decide (4 ≤ n) || s.timeState == 0 then none
  else
    let es := (List.range (s.fld (F.ETH_QBV_NENT_NENT n))).map (s.gcl n)
    let cyc : Nat := es.foldl (fun (a : Nat) e => a + e.2) 0
    if cyc = 0 then some 0
    else
      let base := s.num64 (Reg.ETH_QBV_BASE_LO n) (Reg.ETH_QBV_BASE_HI n)
      let t := (((s.now.ns : Int) - (base : Int)) % (cyc : Int)).toNat
      let starts := es.foldl (fun (a : List Nat × Nat) e => (a.1 ++ [a.2], a.2 + e.2)) ([], 0)
      let i := ((List.range es.length).filter (fun i => decide (starts.1.getD i 0 ≤ t))).length - 1
      let off := t - starts.1.getD i 0
      let round := es.drop i ++ es.take i
      if es.all (fun e => bit e.1 q) then none else some (openFor q off (round ++ es.take i))

/-- A frame fits before its gate closes: preamble, frame, FCS and gap at 1 Gbit/s. -/
def State.fits (s : State) (n q len : Nat) : Bool :=
  match s.gateOpen n q with | none => true | some t => decide ((len + 24) * 8 ≤ t)

/-! ## Transmission (R380 to R387) -/

/-- A packet number advances on transmit SA `k` (R387). -/
def State.txPn (s : State) (n k : Nat) : State :=
  let pn := s.num64 (Reg.ETH_SA_PN_LO n k) (Reg.ETH_SA_PN_HI n k)
  let s := s.setNum64 (Reg.ETH_SA_PN_LO n k) (Reg.ETH_SA_PN_HI n k) (min (2 ^ 64 - 1) (pn + 1))
  let s := if pn + 1 = 0xC000000000000000 then (s.log 0x0C15 (0x6010 + n) k).ethIrq n 3 else s
  if pn + 1 = 2 ^ 64 - 1 then (s.log 0x0C16 (0x6010 + n) k).ethIrq n 3 else s

/-- The transmit SA a protected port sends with (R387): active, with a packet number left. -/
def State.txSa (s : State) (n : Nat) : Option Nat :=
  [0, 1].find? (fun k => s.flag (F.ETH_SA_CFG_ACTIVE n k) && s.num64 (Reg.ETH_SA_PN_LO n k) (Reg.ETH_SA_PN_HI n k) != 2 ^ 64 - 1)

/-- Shows the head of the transmit stamps. -/
def State.syncTxts (s : State) (n : Nat) : State :=
  match (s.ethOf n).txts with
  | [] => s.setNum (Reg.ETH_TXTS n) 0
  | (t, m, q) :: _ =>
    let s := ((s.setNum (Reg.ETH_TXTS_SEC n) t.w0).setNum (Reg.ETH_TXTS_NSEC n) t.w1).setNum (Reg.ETH_TXTS_HI n) t.w2
    s.setNum (Reg.ETH_TXTS n) (2 ^ 31 + m * 2 ^ 16 + q)

/-- A frame leaves a port. -/
def State.ethEmit (s : State) (n : Nat) (l : List Nat) : State :=
  let go (s : State) : State :=
    let s := (s.emit (.frame (0xE000 + n) l)).count (Reg.ETH_CNT_TXF n) 1
    if ethType l = 0x88F7 then
      let o := ethPay l; let e := s.ethOf n
      let x := (s.now, fieldAt l o 1 % 16, be l (o + 30) 2)
      if e.txts.length < 16 then ((s.setEth n { e with txts := e.txts ++ [x] }).syncTxts n).ethIrq n 1 else s
    else s
  if s.flag (F.ETH_CTRL_PROTECT n) && !linkLocal (ethType l) then
    match s.txSa n with
    | some k => go (s.txPn n k)
    | none => s
  else go s

/-- A frame is given to a port: it goes out, or waits for its gate. -/
def State.portSend (s : State) (n q : Nat) (l : List Nat) (slot : Option Nat) : State :=
  if !s.ethUp n then s
  else if s.fits n q l.length && !(s.ethOf n).wait.any (fun w => w.queue == q) then s.ethEmit n l
  else s.setEth n { s.ethOf n with wait := (s.ethOf n).wait ++ [⟨q, l, slot⟩] }

/-- The queue of a frame (R384): its PCP through QMAP, 0 untagged. -/
def State.ethQueue (s : State) (l : List Nat) : Nat := s.img.net.qmap.getD (if ethTagged l then be l 14 2 / 2 ^ 13 else 0) 0

/-- Sends a frame: a link-local one on its port only, any other on both ports of the pair with one sequence number (R380 to R382). -/
def State.pairSend (s : State) (n : Nat) (l : List Nat) (slot : Option Nat) : State :=
  let q := s.ethQueue l
  if linkLocal (ethType l) then s.portSend n q l slot
  else
    let p := n / 2; let x := s.prpOf p
    let s := s.setPrp p { x with seq := (x.seq + 1) % 2 ^ 16 }
    let s := s.portSend (2 * p) q (withTrailer l x.seq (2 * p)) (if n % 2 = 0 then slot else none)
    s.portSend (2 * p + 1) q (withTrailer l x.seq (2 * p + 1)) (if n % 2 = 1 then slot else none)

/-- The 802.1Q tag of a traffic class (R384). -/
def State.classTag (s : State) (c : Nat) : List Nat :=
  let x := s.img.net.cls.getD c (0, 0)
  beBytes 2 0x8100 ++ beBytes 2 (x.2 * 2 ^ 13 + x.1)

/-- ETH_FRAME_TX (R380 to R387): a unit sends a frame of a traffic class on a pair: addresses, EtherType and payload. -/
def execEthFrameTx (p : Fin 3) (cls : Fin 4) (addrs : List Byte) (etype : BitVec 16) (payload : List Byte) (s : State) :
    Host.Outcome State Fault Refusal :=
  let n (l : List Byte) := l.map (fun b => b.toNat)
  .next (s.pairSend (2 * p) (n addrs ++ s.classTag cls ++ beBytes 2 etype.toNat ++ n payload) none)

/-- PRP_SUPERVISION_SEND (R383): LIFE_MS after the last one.  DESIGN CHOICE (notes/assumptions/118.md): LIFE_MS is that of the pair's LAN A port. -/
def execPrpSupervisionSend (p : Fin 3) (s : State) : Host.Outcome State Fault Refusal :=
  let x := s.prpOf p
  if x.sent.any (fun t => !s.lasted t (s.fld (F.ETH_PRP_LIFE_MS (2 * p)) * cycPerMs)) then .next s
  else .next ((s.setPrp p { x with sent := some s.time.cycle }).pairSend (2 * p) (List.replicate 12 0 ++ [0x88, 0xFB]) none)

/-- Sends the waiting frames whose gates are open, the highest queue first. -/
def State.drainWait (s : State) (n : Nat) : State :=
  ([7, 6, 5, 4, 3, 2, 1, 0].flatMap (fun q => (s.ethOf n).wait.filter (fun w => w.queue == q))).foldl (fun s w =>
    if s.fits n w.queue w.bytes.length && ((s.ethOf n).wait.find? (fun x => x.queue == w.queue)) == some w then
      (s.setEth n { s.ethOf n with wait := (s.ethOf n).wait.erase w }).ethEmit n w.bytes
    else s) s

/-- QBV_GATE_INTERVAL (R385): the next entry's mask applies to port `n`. -/
def execQbvGateInterval (n : Fin 4) (s : State) : Host.Outcome State Fault Refusal := .next (s.drainWait n)

/-- ETH_TXTS_POP (R386): a read of 0x060. -/
def execEthTxtsPop (n : Fin 6) (s : State) : Host.Outcome State Fault Refusal :=
  .next { (s.setEth n { s.ethOf n with txts := (s.ethOf n).txts.drop 1 }).syncTxts n with bus := ⟨false, s.num (Reg.ETH_TXTS n)⟩ }

/-! ## The frame port (R394) -/

def spanOfFrame (len : Nat) : Nat := (len + 16 + 2047) / 2048

/-- Stores a received frame for firmware. -/
def State.frxStore (s : State) (n : Nat) (l : List Nat) (t : Stamp) : State :=
  let e := s.ethOf n
  let k := spanOfFrame l.length
  let free (i : Nat) : Bool := (List.range k).all (fun j => !s.rbit (Reg.ETH_FRX_STATUS n) ((i + j) % 16))
  match ((List.range 16).map (fun i => (e.next + i) % 16)).find? free with
  | none => s.count (Reg.ETH_CNT_FRX_DROP n) 1
  | some a =>
    if 16 < k then s.count (Reg.ETH_CNT_FRX_DROP n) 1
    else
      let data := leBytes 4 (l.length % 2 ^ 14 + k * 2 ^ 28) ++ wordBytes [t.w0, t.w1, t.w2] ++ l
      let words := (List.range ((data.length + 3) / 4)).map (fun i => fieldAt data (4 * i) 4)
      let s := (words.zipIdx).foldl (fun s x => s.setNum (Reg.ETH_FRX n ((a + x.2 / 512) % 16) (x.2 % 512)) x.1) s
      let s := (List.range k).foldl (fun s j => s.setRbit (Reg.ETH_FRX_STATUS n) ((a + j) % 16) true) s
      (s.setEth n { e with rx := (a, k) :: e.rx, next := (a + k) % 16 }).ethIrq n 0

/-- ETH_FRX_ACK (R394). -/
def execEthFrxAck (n : Fin 6) (i : Fin 16) (s : State) : Host.Outcome State Fault Refusal :=
  let e := s.ethOf n
  match e.rx.find? (fun x => x.1 == i.val) with
  | none => .next s
  | some x =>
    let s := (List.range x.2).foldl (fun s j => s.setRbit (Reg.ETH_FRX_STATUS n) ((x.1 + j) % 16) false) s
    .next (s.setEth n { e with rx := e.rx.filter (fun y => y.1 != i.val) })

/-- ETH_FTX_GO (R394). -/
def execEthFtxGo (n : Fin 6) (mask : BitVec 8) (s : State) : Host.Outcome State Fault Refusal :=
  .next (((List.range 8).filter (bit mask.toNat)).foldl (fun s i =>
    let len := s.num (Reg.ETH_FTX n i 0) % 2 ^ 14
    if 8 < i + spanOfFrame len || (s.ethOf n).wait.any (fun w => w.slot == some i) then s.count (Reg.ETH_CNT_FRX_DROP n) 1
    else
      let bytes := ((List.range (512 * spanOfFrame len)).flatMap (fun w => leBytes 4 (s.num (Reg.ETH_FTX n (i + w / 512) (w % 512)))))
      s.pairSend n ((bytes.drop 16).take len) (some i)) s)

/-! ## Reception (R381 to R387, R393, R394) -/

/-- Looks a key up in the duplicate table of a pair and enters it; whether the frame is a duplicate (R381). -/
def State.dupCheck (s : State) (n src seq : Nat) : Bool × State :=
  let p := n / 2; let x := s.prpOf p
  let age := s.fld (F.ETH_DD_DD_AGE_MS n) * 1000000
  let live := x.dup.filter (fun d => decide (s.now.ns ≤ d.2.2 + age))
  if live.any (fun d => d.1 == src && d.2.1 == seq) then (true, (s.setPrp p { x with dup := live }).count (Reg.ETH_CNT_DUP n) 1)
  else if live.length < 2048 then (false, s.setPrp p { x with dup := live ++ [(src, seq, s.now.ns)] })
  else
    let s := (s.setPrp p { x with dup := live.drop 1 ++ [(src, seq, s.now.ns)] }).count (Reg.ETH_CNT_DD_OVF n) 1
    (false, s.logPerSecond (0x60000 + n) 0x0C12 (0x6010 + n) (s.num (Reg.ETH_CNT_DD_OVF n)))

/-- The frame port takes a frame: link-local ones (PTP while ROLE is not 0), and the EtherTypes and UDP ports the NETWORK section lists. -/
def State.forFirmware (s : State) (n : Nat) (l : List Nat) : Bool :=
  let t := ethType l
  if t = 0x88F7 then s.fld (F.ETH_PTP_ROLE n) != 0
  else t == 0x888E || s.img.net.etypes.contains t || (udpPort l).any s.img.net.udps.contains

/-- The one's-complement sum of 16-bit words. -/
def sum16 (l : List Nat) : Nat :=
  let t := (List.range ((l.length + 1) / 2)).foldl (fun a i => a + be (l ++ [0]) (2 * i) 2) 0
  let t := t % 2 ^ 16 + t / 2 ^ 16
  t % 2 ^ 16 + t / 2 ^ 16

/-- P2's answer to an ICMP echo request for its address (R393): addresses swapped, type 0, the checksum anew. -/
def State.icmpAnswer (s : State) (l : List Nat) : Option (List Nat) :=
  let o := ethPay l
  let h := o + fieldAt l o 1 % 16 * 4
  if ethType l = 0x0800 ∧ fieldAt l (o + 9) 1 = 1 ∧ fieldAt l h 1 = 8 ∧ be l (o + 16) 4 = s.num Reg.ETH_HOST_IP then
    let len := be l (o + 2) 2
    let body := (l.drop (h + 4)).take (o + len - (h + 4))
    let sum := 0xFFFF - sum16 ([0, 0, 0, 0] ++ body)
    some ((l.drop 6).take 6 ++ l.take 6 ++ (l.drop 12).take (o - 12) ++ (l.drop o).take 12 ++ (l.drop (o + 16)).take 4 ++ (l.drop (o + 12)).take 4 ++
      (l.drop (o + 20)).take (h - (o + 20)) ++ [0, 0] ++ beBytes 2 sum ++ body)
  else none

/-- P2's answer to an ARP request for its address; the module's own MAC address is not stated. -/
def State.arpAnswer (s : State) (l : List Nat) : Option (List Nat × State) :=
  let o := ethPay l
  if ethType l = 0x0806 ∧ be l (o + 6) 2 = 1 ∧ be l (o + 24) 4 = s.num Reg.ETH_HOST_IP then
    let (mac, s) := s.freshNat
    let me := beBytes 6 (mac % 2 ^ 48)
    some ((l.drop 6).take 6 ++ me ++ (l.drop 12).take (o - 12) ++ (l.drop o).take 6 ++ [0, 2] ++ me ++ (l.drop (o + 24)).take 4 ++
      (l.drop (o + 8)).take 6 ++ (l.drop (o + 14)).take 4, s)
  else none

/-- A frame that has passed duplicate discard; units that carry it themselves receive it by their own commands. -/
def State.ethDeliver (s : State) (n : Nat) (l : List Nat) (t : Stamp) : State :=
  let s := if s.forFirmware n l then s.frxStore n l t else s
  if n < 4 then s
  else
    match s.icmpAnswer l, s.arpAnswer l with
    | some a, _ => s.pairSend n a none
    | none, some (a, s) => s.pairSend n a none
    | none, none => s

/-- A frame is received on a port; one whose LAN was down is up again (R383). -/
def State.lanHeard (s : State) (n : Nat) : State :=
  let s := s.setEth n { s.ethOf n with last := s.time.cycle }
  if s.flag (F.ETH_STATUS_LAN_DOWN n) then
    ((s.setFld (F.ETH_STATUS_LAN_DOWN n) 0).log 0x0C11 (0x6010 + n) (n / 2)).ethIrq n 2 else s

/-- The packet number of an accepted secured frame is kept as the highest (R387). -/
def State.paNote (s : State) (n : Nat) (sa : Option (Fin 8 × Nat)) : State :=
  match sa with
  | some (k, pn) =>
    if s.num64 (Reg.ETH_SA_PN_LO n (2 + k)) (Reg.ETH_SA_PN_HI n (2 + k)) < pn then
      s.setNum64 (Reg.ETH_SA_PN_LO n (2 + k)) (Reg.ETH_SA_PN_HI n (2 + k)) pn
    else s
  | none => s

/-- A frame past the port's protection: VLAN, trailer and duplicate checks, then the delivery (R381, R382, R384). -/
def State.ethTake (s : State) (n : Nat) (l : List Nat) (t : Stamp) : State :=
  if linkLocal (ethType l) then s.ethDeliver n l t
  else if !s.img.net.vids.contains ((ethVid l).getD 0) then s.count (Reg.ETH_CNT_VLAN_DROP n) 1
  else
    match trailer l with
    | some (seq, lan) =>
      if lan ≠ 0xA + n % 2 then (s.count (Reg.ETH_CNT_WRONG_LAN n) 1).ethDeliver n l t
      else
        let (dup, s) := s.dupCheck n (be l 6 6) seq
        if dup then s else s.ethDeliver n l t
    | none => (s.count (Reg.ETH_CNT_WRONG_LAN n) 1).ethDeliver n l t

/-- ETH_FRAME_RX (R381 to R387): the frame without its FCS and with its protection removed, whether the FCS holds, the receive SA and packet
number under which it verifies, and its stamp at the pin. -/
def execEthFrameRx (n : Fin 6) (bytes : List Byte) (fcs : Bool) (sa : Option (Fin 8 × Nat)) (t : Stamp) (s : State) :
    Host.Outcome State Fault Refusal :=
  let l := bytes.map (fun b => b.toNat)
  if !s.ethHears n || decide (9216 < l.length) then .next s
  else if !fcs then .next (s.count (Reg.ETH_CNT_FCS n) 1)
  else
    let s := (s.count (Reg.ETH_CNT_RXF n) 1).lanHeard n
    let ok (k : Nat) : Bool := s.flag (F.ETH_SA_CFG_ACTIVE n (2 + k))
    if s.flag (F.ETH_CTRL_PROTECT n) && !linkLocal (ethType l) && !(sa.any (fun x => ok x.1)) then .next (s.count (Reg.ETH_CNT_SEC_DROP n) 1)
    else .next ((s.paNote n sa).ethTake n l t)

/-! ## Links and health (R383) -/

/-- A health step of a port, with its flag. -/
def State.ethHealth (s : State) (n : Nat) (f : State → State) : State :=
  let before := s.health (.eth n)
  let s := f s
  if s.health (.eth n) = before then s else s.ethIrq n 2

/-- LAN_DOWN (R383): the port has received nothing for LAN_TMO_MS while its partner has. -/
def execLanDown (n : Fin 6) (s : State) : Host.Outcome State Fault Refusal :=
  if s.flag (F.ETH_STATUS_LAN_DOWN n) || !s.flag (F.ETH_CTRL_EN n) || decide ((s.ethOf (mate n)).last ≤ (s.ethOf n).last) ||
     !s.lasted (s.ethOf n).last (s.fld (F.ETH_PRP_LAN_TMO_MS n) * cycPerMs) then .next s
  else .next (((s.setFld (F.ETH_STATUS_LAN_DOWN n) 1).log 0x0C10 (0x6010 + n) (n / 2)).ethIrq n 2)

/-- ETH_LINK_LOSS (R383). -/
def execEthLinkLoss (n : Fin 6) (s : State) : Host.Outcome State Fault Refusal :=
  .next (((s.setFld (F.ETH_STATUS_LINK n) 0).ethIrq n 2).ethHealth n (fun s => s.transient (.eth n) 1))

/-- ETH_LINK_UP (R383, R397). -/
def execEthLinkUp (n : Fin 6) (s : State) : Host.Outcome State Fault Refusal :=
  .next ((s.setFld (F.ETH_STATUS_LINK n) 1).ethIrq n 2)

/-- ETH_KR_TRAINING_FAIL (R383): only ETH_4 and ETH_5 train. -/
def execEthKrTrainingFail (n : Fin 6) (s : State) : Host.Outcome State Fault Refusal :=
  if n.val < 4 then .next s else .next (s.ethHealth n (fun s => s.transient (.eth n) 2))

/-- ETH_READMIT (R383). -/
def execEthReadmit (n : Fin 6) (s : State) : Host.Outcome State Fault Refusal := .next (s.ethHealth n (fun s => s.readmit (.eth n)))

end Sys2Proof.Machine
end

