-- ==== Sys2Proof/Machine/Resume.lean ====
section
/-! DEFINITION. Resume from a checkpoint or from the last complete mirror (R230, R232 to R236, R282, R450). -/
namespace Sys2Proof.Machine

/-- What a checkpoint header names (R229): CKSEQ, the body's length, CUT_TIME, REPSEQ, CREW_MASK and IMAGE_ID. -/
structure CkHdr where
  ckseq  : Nat
  len    : Nat
  time   : Stamp
  repseq : Nat
  mask   : Nat
  image  : Nat
  deriving DecidableEq, Repr

/-- A three-word time stamp (R52). -/
def stampAt (l : List Nat) (off : Nat) : Stamp :=
  ⟨fieldAt l off 4 + fieldAt l (off + 8) 2 * 2 ^ 32, fieldAt l (off + 4) 4, fieldAt l (off + 10) 2 * 256⟩

/-- The header of a complete checkpoint of a kind at an address (R230). -/
def State.ckComplete (s : State) (a kind : Nat) : Option CkHdr :=
  let h := s.rdList a 0x100
  let len := fieldAt h 0x0C 4
  if fieldAt h 0xFC 4 = 1 ∧ fieldAt h 0 4 = 0x4B434D41 ∧ fieldAt h 4 2 = kind ∧ fieldAt h 0xF8 4 = crc32c (h.take 0xF4) ∧
      fieldAt h 0x50 4 = crc32c (s.rdList (a + 0x100) len) then
    some ⟨fieldAt h 8 4, len, stampAt h 0x10, fieldAt h 0x1C 4, fieldAt h 0x40 4, fieldAt h 0x48 8⟩
  else none

/-- A checkpoint or mirror is compatible (R89): its own image's, or the parent's. -/
def State.ckCompat (s : State) (id : Nat) : Bool := id == s.imageId || (s.img.parent != 0 && id == s.img.parent)

/-- The crews a compatible checkpoint restores (R89, R232). -/
def State.ckCrews (s : State) (id mask : Nat) : List Nat :=
  s.boundCrews.filter (fun m => bit mask m && (id == s.imageId || m != s.img.part))

/-- A word of a body read through `rd`. -/
def bodyWord (rd : Nat → Nat) (o : Nat) : Word :=
  BitVec.ofNat 32 (rd o + 256 * rd (o + 1) + 65536 * rd (o + 2) + 16777216 * rd (o + 3))

/-- Restores a loop record into its context (R233): such a loop does not take the path of R177. -/
def State.restoreLoop (s : State) (rd : Nat → Nat) (m l : Nat) : State :=
  match s.physOf m with
  | none => s
  | some n =>
    let b := 0x2000 + 0x4000 * m + 0x80 * l
    let s := (List.range 14).foldl (fun s i => s.setLw n l (4 * i) (bodyWord rd (b + 4 * i))) s
    let s := (List.range 10).foldl (fun s i => s.setLw n l (0x70 + 4 * i) (bodyWord rd (b + 56 + 4 * i))) s
    let s := s.setLw n l 0xB4 (bodyWord rd (b + 96))
    let s := s.setLw n l 0x90 (setBits (s.lw n l 0x90) 0 1 (s.lcfg n l 31 1))
    let d := derive (s.loopCtx n l)
    let s := [0x54, 0x58, 0x5C, 0x60, 0x64, 0x68, 0x6C].foldl (fun s o => s.setLw n l o (cw d o)) s
    let mode := (bodyWord rd (b + 100)).toNat % 8
    let s := (s.setFld (F.LPE_MODE_ACT n l) mode).setFld (F.LPE_MODE_REQ n l) mode
    s.setLoopDyn n l { LoopDyn.init with first := false }

/-- Restores an axis (R282): its position and REFERENCED come from the AON record, and HALT_FAST is reported and cleared; after power-on it stays
DISABLED. -/
def State.restoreAxis (s : State) (rd : Nat → Nat) (power : Bool) (a : Nat) : State :=
  match s.axCrew a with
  | none => s
  | some n =>
    let x := s.axisOf a
    let b := 0x22000 + 64 * a
    let flags := (bodyWord rd (b + 0x20)).toNat
    let s := s.setAxis a { Axis.init with cpos := (x.s + x.ofs) * 4294967296, s := x.s, ofs := x.ofs, referenced := x.referenced }
    let s :=
      if x.haltFast then
        let (d, s) := s.freshNat
        (s.setFld (F.AX_STATE_LOST n (a % 4)) 1).axLog a 0x081B d
      else s
    let s := if bit flags 6 && s.rbit Reg.PVM_PERMIT a && !power then s.setAxState n a 1 else s.setAxState n a 0
    if bit flags 7 then s.axLog a 0x081D (flags / 256 % 64 + (bodyWord rd (b + 0x24)).toNat % 2 ^ 24 * 256) else s

/-- The valves a recipe record names with their states. -/
def recordValves (rd : Nat → Nat) (b : Nat) : List (Nat × Bool) :=
  ((List.range 1024).filter (fun v => bit (rd (b + 0x20 + v / 8)) (v % 8))).map (fun v => (v, bit (rd (b + 0xA0 + v / 8)) (v % 8)))

/-- Sets a recipe whose record is active and names the resident recipe to RESUME_WAIT (R233). -/
def State.restoreRcp (s : State) (rd : Nat → Nat) (cut : Stamp) (cause r : Nat) : State :=
  let b := 512 * r
  let st := (bodyWord rd b).toNat; let k := (bodyWord rd (b + 4)).toNat; let n := (bodyWord rd (b + 8)).toNat
  let id := (bodyWord rd (b + 0x10)).toNat + 2 ^ 32 * (bodyWord rd (b + 0x14)).toNat
  if !activeState st then (if s.rcpActive r then s.setRcp r 1 cause else s)
  else
    match (s.slotOf r).recipe with
    | some c =>
      if c.id = id ∧ s.rcpState r ≠ 9 then
        let s := s.setSlot r { SeqSlot.init with recipe := some c, valves := recordValves rd b, saved := some ⟨st, k, n, cut.ns⟩ }
        let s := (s.setNum (Reg.SEQ_R_STEP r) k).setNum (Reg.SEQ_R_COUNT r) n
        (s.setRcp r 8 cause).setFld F.SEQ_STATUS_RESUME_READY 1
      else s.log 0x071D 0 (rcpDetail r k + 2 ^ 30)
    | none => s.log 0x071D 0 (rcpDetail r k + 2 ^ 30)

/-- Output enable, or a take that counts as its grant, leaves RESUME_WAIT for recipes with AUTO_RESUME (R234, R450). -/
def State.autoResume (s : State) : State :=
  (List.range 16).foldl (fun s r =>
    match (s.slotOf r).recipe with
    | some c => if s.rcpState r = 8 ∧ c.auto then s.setSlot r { s.slotOf r with resume := true } else s
    | none => s) s

/-- Starts all bound catch tables (R233). -/
def State.startTables (s : State) : State := s.boundCrews.foldl (fun s m => s.ctStart m) s

/-- Restores the repetitive memory from the snapshot REPSEQ names, or starts every table from zero (R232). -/
def State.restoreReps (s : State) (repseq : Nat) (crews : List Nat) : State :=
  let snap := [0, 1].find? (fun a => match s.ckComplete (repAddr a) 2 with | some h => repseq != 0 && h.ckseq == repseq | none => false)
  crews.foldl (fun s m =>
    match s.physOf m with
    | none => s
    | some n =>
      match snap with
      | none => s.clearMem (crewMem n) 0x80000
      | some a =>
        let mask := s.rdMem (repAddr a + 0x40) 4
        if bit mask m then
          s.copyMem (repAddr a + 0x100 + 0x80000 * (((List.range m).filter (bit mask)).length)) (crewMem n) 0x80000
        else s.clearMem (crewMem n) 0x80000) s

/-- The newest complete fast checkpoint that is compatible (R232). -/
def State.ckSelect (s : State) : Option (Nat × CkHdr) :=
  let ok (a : Nat) : Option (Nat × CkHdr) :=
    match s.ckComplete (fastAddr a) 1 with
    | some h => if s.ckCompat h.image then some (a, h) else none
    | none => none
  match ok 0, ok 1 with
  | some x, some y => if x.2.ckseq < y.2.ckseq then some y else some x
  | some x, none => some x
  | none, y => y

/-- Where the next checkpoint and snapshot go, and their sequence numbers, after a reset (R227 to R229). -/
def State.ckResync (s : State) : State :=
  let f := [0, 1].filterMap (fun a => (s.ckComplete (fastAddr a) 1).map (fun h => (a, h.ckseq)))
  let g := [0, 1].filterMap (fun a => (s.ckComplete (repAddr a) 2).map (fun h => (a, h.ckseq)))
  let top (l : List (Nat × Nat)) : Nat × Nat := l.foldl (fun b x => if b.2 < x.2 then x else b) (1, 0)
  (s.setNum Reg.SEQ_CKPT_LAST (top f).2).setSeq { s.seq with area := (top f).1, repSeq := (top g).2, repLast := (top g).1 }

/-- The loops of a crew whose context is in use. -/
def State.loopsIn (s : State) (m : Nat) : List Nat :=
  match s.physOf m with
  | some n => (List.range 128).filter (fun l => s.lcfg n l 31 1 == 1)
  | none => []

/-- Resumes on the own checkpoint (R232 to R235), with the SEQ cause. -/
def State.resumeOwn (s : State) (cause : Nat) (power : Bool) : State :=
  match s.ckSelect with
  | none => s.log 0x071E 0 0
  | some (a, h) =>
    let base := fastAddr a + 0x100
    let rd (o : Nat) : Nat := (s.rdByte (base + o)).toNat
    let crews := s.ckCrews h.image h.mask
    let s := crews.foldl (fun s m => (s.loopsIn m).foldl (fun s l => s.restoreLoop rd m l) s) s
    let s := s.restoreReps h.repseq crews
    let s := crews.foldl (fun s m => (List.range 4).foldl (fun s j => s.restoreAxis rd power (4 * m + j)) s) s
    let s := (List.range 16).foldl (fun s r => s.restoreRcp rd h.time cause r) s
    let s := if s.cycState = 2 then s.setCyc { s.cyc with body := some (false, s.rdList (base + 0x24000) (h.len - 0x24000)) } else s
    (s.startTables).log 0x071C 0 h.ckseq

/-- Resumes on the last complete mirror (R236, R450): marked loops, repetitive tables from zero as RESET leaves them, no axes. -/
def State.resumeMirror (s : State) : State :=
  match s.plk.mirror with
  | none => s.log 0x071E 0 0
  | some h =>
    let body := s.plk.body
    let rd (o : Nat) : Nat := Tab.get (fun _ => 0) body o
    let crews := s.ckCrews h.image h.mask
    let s := if s.ckCompat h.image then s.img.mir.loops.foldl (fun s w => if crews.contains w.1 then s.restoreLoop rd w.1 w.2 else s) s else s
    let s := crews.foldl (fun s m =>
      match s.physOf m with
      | some n => (s.loopsIn m).foldl (fun s l => s.setLoopDyn n l { s.loopDyn n l with rep := some 3 }) s
      | none => s) s
    let s := (List.range 16).foldl (fun s r => s.restoreRcp rd h.time 7 r) s
    let len := match s.cyc.cur with | some p => p.areas.mirror.2 | none => 0
    let s := s.cycTakeOver ((List.range len).map (fun i => rd (0x24000 + i)))
    ((s.startTables).log 0x071C 0 h.mseq).autoResume

end Sys2Proof.Machine
end

