-- ==== Sys2Proof/Machine/Plk.lean ====
section
/-! DEFINITION. The redundant pair (chapter 15): roles, heartbeats, the token and its epoch, mirror reception and the lanes. -/
namespace Sys2Proof.Machine

def State.role (s : State) : Nat := s.fld F.PLK_STATUS_ROLE
def State.plkIrq (s : State) (b : Nat) : State := s.setRbit Reg.PLK_IRQ b true

/-- A change of role (R438, R440). -/
def State.setRole (s : State) (v : Nat) : State :=
  let old := s.role
  ((((s.setFld F.PLK_STATUS_ROLE v).setFld F.PLK_STATUS_TOKEN (b2n (v == 2 || v == 0))).plkIrq 0).setPlk { s.plk with rx := none }).log
    0x0E10 0 (v + old * 16)

def State.setInSync (s : State) (b : Bool) : State :=
  if s.flag F.PLK_STATUS_IN_SYNC = b then s else (s.setFld F.PLK_STATUS_IN_SYNC (b2n b)).plkIrq 1

def State.cmdIgnored (s : State) : State := s.setFld F.PLK_STATUS_CMD_IGN 1

def State.partnerId (s : State) : Nat := s.fld F.PLK_PARTNER_ID

/-- Every catch table stops (R439). -/
def State.stopTables (s : State) : State := (List.range 8).foldl (fun s m => if s.flag (F.CT_CTRL_RUN m) then s.ctStop m else s) s

/-! ## The token (R443, R450) -/

/-- The smallest epoch of the module's parity above E_seen (R443). -/
def State.nextEpoch (s : State) : Nat :=
  let e := s.plk.eseen + 1
  if e % 2 = (if s.ownId < s.partnerId then 1 else 0) then e else e + 1

/-- Takes the token (R443): the epoch is stored by the pavilion, and the connections that command owe a PDU with it. -/
def State.takeToken (s : State) : State :=
  let e := s.nextEpoch
  let s := s.setPlk { s.plk with eseen := e, epoch := e, handing := false }
  let s := ((s.setNum64 Reg.PLK_EPOCH_LO Reg.PLK_EPOCH_HI e).count Reg.PLK_TAKES 1).setInSync false
  (s.setRole 2).log 0x0E11 0 (e % 2 ^ 32)

/-- A take that resumes on the module's own checkpoint (R232, R440). -/
def State.takeOwn (s : State) : State :=
  let s := s.takeToken
  let s := match s.cyc.cur with
    | some p => if p.auto && s.cyc.store == some p.retain then s.cycBegin false none 5 else s
    | none => s
  s.resumeOwn 6 (decide (s.fld F.RPC_CAUSE_CAUSE = 0))

/-- A take from STANDBY (R450). -/
def State.takeOver (s : State) : State :=
  let s := s.takeToken
  let s := s.setPlk { s.plk with
    owed := (List.range 1024).filter (fun k => s.connState k == 2 && s.par (offConn k + 16) 0 1 == 1) }
  let s := s.resumeMirror
  let s := s.recModule 7 (s.plk.epoch % 2 ^ 32) []
  s.logIf (s.timeState != 2) 0x0E1A 0 s.timeState

/-- Demotion by a higher epoch (R440, R445). -/
def State.demote (s : State) (epoch : Nat) : State :=
  let s := (s.setRole 5).plkIrq 3
  let s := (List.range 16).foldl (fun s r => if s.rcpActive r then s.seqTakeOut r 7 else s) s
  ((s.stopTables).cycDemote).log 0x0E13 0 (epoch % 2 ^ 32)

/-- Active recipes become LOADED and the catch tables stop (R440). -/
def State.standDown (s : State) : State :=
  let s := (List.range 16).foldl (fun s r =>
    if s.rcpActive r then
      let s := if s.rcpState r = 8 then s else s.seqTakeOut r 7
      (s.setSlot r { SeqSlot.init with recipe := (s.slotOf r).recipe }).setRcp r 1 7
    else s) s
  s.stopTables

/-! ## Heartbeats (R441, R442) -/

/-- The pair key (R441). -/
def pairKey (a b : Nat) : List Nat := leBytes 2 (min a b) ++ leBytes 2 (max a b)

/-- SW_20 as latched. -/
def State.sw20 (s : State) : Bool := bit (s.fld F.PVM_SWITCH_SW) 19

/-- The 64 bytes of a heartbeat (R441). -/
def State.heartbeat (s : State) : List Nat :=
  let flags := b2n s.plk.handing + 2 * b2n s.sw20 + 4 * b2n (s.flag F.PLK_STATUS_IN_SYNC)
  let l := leBytes 4 0x4C4E4D41 ++ leBytes 2 1 ++ [s.role, flags] ++ leBytes 2 s.ownId ++ leBytes 2 s.partnerId ++
    leBytes 4 s.plk.hbseq ++ leBytes 8 s.plk.epoch ++ wordBytes [s.now.w0, s.now.w1, s.now.w2] ++
    leBytes 4 (s.fld F.PLK_CFG_LEASE_MS) ++ leBytes 8 s.imageId ++ leBytes 4 (s.num Reg.PLK_MSEQ) ++ List.replicate 8 0
  l ++ leBytes 4 (crc32c (pairKey s.ownId s.partnerId ++ l))

/-- LEASE_MS in fabric cycles: lease and guard are timed on the fabric clock (R442). -/
def State.lease (s : State) : Nat := s.fld F.PLK_CFG_LEASE_MS * cycPerMs

/-- HEARTBEAT_SEND (R441): every LEASE_MS / 4, on both lanes and the field pair. -/
def execHeartbeatSend (s : State) : Host.Outcome State Fault Refusal :=
  if s.role = 0 || s.plk.hbAt.any (fun t => !s.lasted t (s.lease / 4)) then .next s
  else
    let b := s.heartbeat
    let s := s.laneSend b
    let s := s.pairSend (2 * s.fld F.PLK_CFG_HB_PAIR) (List.replicate 12 0 ++ beBytes 2 s.img.net.hb ++ b) none
    .next (s.setPlk { s.plk with hbseq := (s.plk.hbseq + 1) % 2 ^ 32, hbAt := some s.time.cycle })

/-- A heartbeat is valid (R442). -/
def State.hbValid (s : State) (l : List Nat) : Bool :=
  l.length == 64 && fieldAt l 0x3C 4 == crc32c (pairKey s.ownId s.partnerId ++ l.take 0x3C) && fieldAt l 8 2 == s.partnerId &&
    fieldAt l 0x0A 2 == s.ownId && fieldAt l 0x24 4 == s.fld F.PLK_CFG_LEASE_MS

/-- What a valid heartbeat does to the role (R440, R445). -/
def State.hbRole (s : State) (l : List Nat) : State :=
  let prole := fieldAt l 6 1; let epoch := fieldAt l 0x10 8
  match s.role with
  | 1 => if prole = 2 ∧ !s.flag F.PLK_STATUS_IMG_MISMATCH then s.setRole 3 else s
  | 2 => if s.plk.epoch < epoch then s.demote epoch else s
  | 4 => if bit (fieldAt l 7 1) 0 && !s.flag F.PLK_STATUS_IMG_MISMATCH then s.takeOver else s
  | _ => s

/-- HEARTBEAT_RX (R440 to R445): on path 0 PLK_0, 1 PLK_1, 2 LAN A, 3 LAN B. -/
def execHeartbeatRx (path : Fin 4) (bytes : List Byte) (s : State) : Host.Outcome State Fault Refusal :=
  let l := bytes.map (fun b => b.toNat)
  if s.role = 0 ∨ !s.hbValid l then .next s
  else
    let prole := fieldAt l 6 1; let epoch := fieldAt l 0x10 8; let image := fieldAt l 0x28 8
    let paths := s.fld F.PLK_STATUS_PATHS
    let s := if bit paths path then s else ((s.setFld F.PLK_STATUS_PATHS (putBit paths path true)).plkIrq 2).log 0x0E17 0 path
    let s := (s.setFld F.PLK_STATUS_PARTNER_ROLE prole).setFld F.PLK_STATUS_HANDOVER (fieldAt l 7 1 % 2)
    let s := if s.num64 Reg.PLK_PEPOCH_LO Reg.PLK_PEPOCH_HI < epoch then s.setNum64 Reg.PLK_PEPOCH_LO Reg.PLK_PEPOCH_HI epoch else s
    let s := s.setPlk { s.plk with
      eseen := max s.plk.eseen epoch, pflags := fieldAt l 7 1
      lastHb := if prole = 2 then s.time.cycle else s.plk.lastHb
      handing := s.plk.handing && prole != 2
      heard := Tab.put s.plk.heard path s.time.cycle }
    let differs := image != s.imageId
    let s := if differs && !s.flag F.PLK_STATUS_IMG_MISMATCH then (s.log 0x0E18 0 (image % 2 ^ 32)).plkIrq 3 else s
    .next ((s.setFld F.PLK_STATUS_IMG_MISMATCH (b2n differs)).hbRole l)

/-- PATH_TIMEOUT (R442): LEASE_MS after the last valid heartbeat on the path. -/
def execPathTimeout (path : Fin 4) (s : State) : Host.Outcome State Fault Refusal :=
  let paths := s.fld F.PLK_STATUS_PATHS
  if bit paths path && s.lasted (Tab.get (fun _ => 0) s.plk.heard path) s.lease then .next (((s.setFld F.PLK_STATUS_PATHS (putBit paths path false)).plkIrq 2).log 0x0E16 0 path) else .next s

/-- LEASE_EXPIRE (R440, R442): no valid heartbeat of the active partner for LEASE_MS + 2 ms; one accepted in the same fabric cycle cancels the take, and
an image mismatch forbids it. -/
def execLeaseExpire (s : State) : Host.Outcome State Fault Refusal :=
  .next (if s.role = 4 && s.lasted s.plk.lastHb (s.lease + 2 * cycPerMs) && !s.flag F.PLK_STATUS_IMG_MISMATCH then s.takeOver else s)

/-- PAIR_LISTEN_TIMEOUT (R440): T_L after the entry to LISTEN. -/
def execPairListenTimeout (s : State) : Host.Outcome State Fault Refusal :=
  let heard := s.fld F.PLK_STATUS_PATHS != 0
  let theirs := bit s.plk.pflags 1
  let tie := if s.sw20 != theirs then s.sw20 else decide (s.ownId < s.partnerId)
  if s.role ≠ 1 || !s.lasted s.plk.listen (3 * s.lease + 2 * cycPerMs) || s.flag F.PLK_STATUS_IMG_MISMATCH then .next s
  else if heard then .next (if s.fld F.PLK_STATUS_PARTNER_ROLE = 1 ∧ tie then s.takeOwn else s)
  else .next (if s.sw20 then s.takeOwn else s)

/-- The crews are released with PAIR_EN = 1 (R440). -/
def State.pairListen (s : State) : State := (s.setRole 1).setPlk { (s.setRole 1).plk with listen := s.time.cycle }

/-! ## Commands (R440, R457) -/

/-- PLK_HANDOVER (R440): a final cut, then the token is released. -/
def execPlkHandover (s : State) : Host.Outcome State Fault Refusal :=
  if s.role ≠ 2 ∨ s.fld F.PLK_STATUS_PARTNER_ROLE ≠ 4 then .next s.cmdIgnored
  else
    let m := s.fld F.PLK_MIRROR_MREF
    let s := match s.plk.cut with
      | some c =>
        let (s, c) := s.mirLoops c (fun _ => true)
        s.mirSend { c with prog := some (c.prog.getD s.mirBlocks) }
      | none => s
    let s := s.mirStart m (s.num (Reg.CT_LAST_CSEQ m)) false true
    let s := s.setPlk { s.plk with handing := true }
    let s := (s.setRole 3).log 0x0E12 0 (s.plk.epoch % 2 ^ 32)
    .next s.standDown.cycDemote

/-- PLK_FORCE_TAKE (R440): `key` is PLK_CTRL.KEY; without 0xA5 it is ignored, which CMD_IGN shows. -/
def execPlkForceTake (key : Byte) (s : State) : Host.Outcome State Fault Refusal :=
  if key ≠ 0xA5 then .next s.cmdIgnored
  else if !([1, 3, 5].contains s.role) || s.flag F.PLK_STATUS_IMG_MISMATCH then .next s.cmdIgnored
  else .next (s.takeOwn.log 0x0E19 0 (s.nextEpoch % 2 ^ 32))

/-- PLK_RESYNC (R440). -/
def execPlkResync (s : State) : Host.Outcome State Fault Refusal :=
  if s.role ≠ 5 then .next s.cmdIgnored else .next ((s.setRole 3).standDown)

/-- A change of a lane's health sets bit 4 of PLK_IRQ. -/
def State.laneHealth (s : State) (l : Nat) (f : State → State) : State :=
  let before := s.health (.lane l)
  let s := f s
  if s.health (.lane l) = before then s else s.plkIrq 4

/-- PLK_READMIT_LANE0 (R457). -/
def execPlkReadmitLane0 (s : State) : Host.Outcome State Fault Refusal := .next (s.laneHealth 0 (fun s => s.readmit (.lane 0)))
/-- PLK_READMIT_LANE1 (R457). -/
def execPlkReadmitLane1 (s : State) : Host.Outcome State Fault Refusal := .next (s.laneHealth 1 (fun s => s.readmit (.lane 1)))

/-- PLK_LINK_LOSS (R457): cause 1 link loss, 2 training failure. -/
def execPlkLinkLoss (l : Fin 2) (training : Bool) (s : State) : Host.Outcome State Fault Refusal :=
  let s := s.setPlk { s.plk with links := s.plk.links.filter (fun x => x != l.val) }
  .next (s.laneHealth l (fun s => s.transient (.lane l) (if training then 2 else 1)))

/-- PLK_LINK_UP (R457). -/
def execPlkLinkUp (l : Fin 2) (s : State) : Host.Outcome State Fault Refusal :=
  .next (if s.plk.links.contains l.val then s else s.setPlk { s.plk with links := s.plk.links ++ [l.val] })

/-! ## The mirror (R446 to R448, R454) -/

/-- MIRROR_CUT (R446): the stroke start of MREF's present stroke, one cut a stroke; a partner in SYNCING gets a full cut. -/
def execMirrorCut (cseq : Word) (s : State) : Host.Outcome State Fault Refusal :=
  let q := cseq.toNat
  let mref := s.fld F.PLK_MIRROR_MREF
  let now := s.flag (F.CT_CTRL_RUNNING mref) && cseqEntry q == 0 && strokeOf q == strokeOf (s.num (Reg.CT_LAST_CSEQ mref)) &&
    s.plk.lastCut != some (strokeOf q)
  if s.role ≠ 2 || !now || s.fld F.PLK_MIRROR_MDIV == 0 || strokeOf q % s.fld F.PLK_MIRROR_MDIV != 0 || s.plk.cut.isSome then .next s
  else
    let s := s.setPlk { s.plk with lastCut := some (strokeOf q) }
    .next (s.mirStart mref q (s.fld F.PLK_STATUS_PARTNER_ROLE == 3) false)

/-- The records of a cut, as many as `n` (R446). -/
def mirRecords : Nat → List Nat → Option (List (Nat × Nat × Nat × List Nat))
  | 0, l => if l.isEmpty then some [] else none
  | n + 1, l =>
    let len := fieldAt l 4 2
    if l.length < 8 + len then none
    else (mirRecords n (l.drop (8 + len))).map (fun r => (fieldAt l 0 1, fieldAt l 1 1, fieldAt l 2 2, (l.drop 8).take len) :: r)

/-- Bytes stored into the mirror body. -/
def mirStore (b : List (Nat × Nat)) (off : Nat) : List Nat → List (Nat × Nat)
  | [] => b
  | x :: l => mirStore (Tab.set (fun _ => 0) b off x) (off + 1) l

/-- Where a record's body goes (R229, R446). -/
def recordOff (typ m i : Nat) : Nat :=
  match typ with
  | 1 => 0x2000 + 0x4000 * m + 0x80 * i + 56
  | 2 => 0x2000 + 0x4000 * m + 0x80 * i
  | 3 => 0x22000 + 64 * (4 * m + i)
  | 4 => 512 * i
  | _ => 0x24000 + 4096 * i

/-- Sync is lost (R440, R448): codes 1 gap, 2 bad trailer, 3 overflow; only a STANDBY module has sync to lose. -/
def State.syncLost (s : State) (code : Nat) : State :=
  let s := s.setPlk { s.plk with rx := none }
  if s.role = 4 then ((s.setInSync false).setRole 3).log 0x0E15 0 code else s

/-- Commits a cut into the mirror body (R448, R454). -/
def State.mirCommit (s : State) (t : List Nat) (recs : List (Nat × Nat × Nat × List Nat)) : State :=
  let mseq := fieldAt t 0 4; let full := bit (fieldAt t 68 4) 0
  let base := if full then [] else s.plk.body.filter (fun e => decide (0x2000 ≤ e.1))
  let body := recs.foldl (fun b r => mirStore b (recordOff r.1 r.2.1 r.2.2.1) r.2.2.2) base
  let hdr : MirHdr := ⟨mseq, stampAt t 4, (List.range 8).map (fun i => fieldAt t (16 + 4 * i) 4), fieldAt t 48 4, fieldAt t 52 8⟩
  let s := (s.setPlk { s.plk with rx := none, body := body, mirror := some hdr }).setNum Reg.PLK_MSEQ mseq
  let s := (recs.filter (fun r => r.1 == 4)).foldl (fun s r =>
    let id := fieldAt r.2.2.2 0x10 8
    let own := s.num64 (Reg.SEQ_R_ID_LO (r.2.2.1 % 16)) (Reg.SEQ_R_ID_HI (r.2.2.1 % 16))
    s.setRbit Reg.PLK_RCP_MISMATCH (r.2.2.1 % 16) (id != own)) (s.setNum Reg.PLK_RCP_MISMATCH 0)
  if s.role = 3 ∧ full then ((s.setRole 4).setInSync true).log 0x0E14 0 mseq else s

/-- A trailer arrives: the cut commits, or sync is lost (R448). -/
def State.mirTrailer (s : State) (mseq frag : Nat) (frags : List (Nat × List Nat)) (t : List Nat) : State :=
  let full := bit (fieldAt t 68 4) 0
  let parts := (List.range frag).map (fun i => Tab.find frags i)
  let data := (parts.filterMap id).flatten
  let recs := mirRecords (fieldAt t 60 4) data
  let last := match s.plk.mirror with | some h => some h.mseq | none => none
  if t.length ≠ 72 ∨ fieldAt t 0 4 ≠ mseq ∨ parts.any (fun p => p.isNone) ∨ fieldAt t 64 4 ≠ crc32c data ∨ recs.isNone then s.syncLost 2
  else if full then s.mirCommit t (recs.getD [])
  else if s.role = 3 then s.setPlk { s.plk with rx := none }
  else if last ≠ some ((mseq + 2 ^ 32 - 1) % 2 ^ 32) then s.syncLost 1
  else s.mirCommit t (recs.getD [])

/-- MIRROR_FRAME_RX (R447, R448): a frame from either lane; the first valid copy of each fragment counts. -/
def execMirrorFrameRx (_l : Fin 2) (bytes : List Byte) (s : State) : Host.Outcome State Fault Refusal :=
  let l := bytes.map (fun b => b.toNat)
  let pay := l.drop 0x20
  let mseq := fieldAt l 8 4; let frag := fieldAt l 0x0C 2
  let valid := decide (0x20 ≤ l.length) && fieldAt l 0 4 == 0x4D4E4D41 && fieldAt l 4 2 == 1 && decide (fieldAt l 6 2 ≤ 2) &&
    fieldAt l 0x18 4 == pay.length && decide (pay.length ≤ 8192) && fieldAt l 0x1C 4 == crc32c (l.take 0x1C ++ pay)
  let done : Bool := match s.plk.mirror with | some h => h.mseq == mseq | none => false
  if (s.role ≠ 3 ∧ s.role ≠ 4) ∨ (!valid || done) then .next s
  else
    let s := s.mirCount l.length
    let frags := match s.plk.rx with | some (q, f) => if q = mseq then f else [] | none => []
    if fieldAt l 6 2 = 1 then .next (s.mirTrailer mseq frag frags pay)
    else
      let frags := if (Tab.find frags frag).isSome then frags else Tab.put frags frag pay
      if 262144 < (frags.map (fun f => f.2.length)).sum then .next (s.syncLost 3)
      else .next (s.setPlk { s.plk with rx := some (mseq, frags) })

end Sys2Proof.Machine
end

