-- ==== Sys2Proof/Machine/Iml.lean ====
section
/-! DEFINITION. The image loader: staging, slots, loading and replacement (chapter 03). -/
namespace Sys2Proof.Machine

def State.imlState (s : State) : Nat := s.fld F.IML_STATUS_STATE
def State.slotIml (s : State) (k : Nat) : ImgSlot := Tab.get (fun _ => ImgSlot.init) s.iml.slots k
/-- The first byte of image slot `k` (R20). -/
def imgSlotAddr (k : Nat) : Nat := 0x80000000 + k * 0x2000000
/-- The slot that is not active. -/
def State.inactive (s : State) : Nat := 1 - s.fld F.IML_STATUS_ACTIVE
/-- A slot holds a verified image. -/
def ImgSlot.valid (x : ImgSlot) : Bool := !x.empty && x.hdr.isSome
/-- The contents of the image the running machine was loaded from. -/
def State.runCont (s : State) : Option ImgContent := (s.slotIml (s.fld F.IML_STATUS_ACTIVE)).cont

/-- Replaces a slot; A_VALID, B_VALID and IML_STAGED_ID follow. -/
def State.setSlotIml (s : State) (k : Nat) (x : ImgSlot) : State := s.setIml { s.iml with slots := Tab.put s.iml.slots k x }
def State.syncSlots (s : State) : State :=
  let s := (s.setFld F.IML_STATUS_A_VALID (b2n (s.slotIml 0).valid)).setFld F.IML_STATUS_B_VALID (b2n (s.slotIml 1).valid)
  let x := s.slotIml s.inactive
  s.setNum64 Reg.IML_STAGED_ID_LO Reg.IML_STAGED_ID_HI (if x.valid then (x.hdr.map (fun h => h.id)).getD 0 else 0)

/-- Marks a slot empty. -/
def State.emptySlot (s : State) (k : Nat) : State := (s.setSlotIml k { s.slotIml k with empty := true }).syncSlots

/-! ## Verification (R81, R82, R86) -/

/-- The pavilion's parameters at staging (R82): the refusal, 0 when they pass. -/
def State.pavStage (s t : State) (par : List Nat) : Nat :=
  if crc32c par = parCrc s.pvm.par ∧ s.pvm.valid then 0
  else if !s.sw17 then 0x0B
  else if par.length ≠ parLen ∨ (t.parBad (parOf par)).isSome then 0x0C
  else 0

/-- The pavilion's parameters at a load (R82). -/
def State.pavLoad (s t : State) (par : List Nat) : Nat := if s.pavStage t par = 0x0C then 0x0C else 0

/-- A byte string with others put over it from an offset. -/
def putAt (l : List Nat) (o : Nat) (x : List Nat) : List Nat := l.take o ++ x ++ l.drop (o + x.length)

/-- The bytes of an image with its sections decrypted, each in its place and without its tag, and as they stand with ENC = 0; none when the unwrapping or a
tag fails (R81 step 7, R520). -/
def plainImage (l : List Nat) : Option (List Nat) :=
  if !bit (fieldAt l 0x0E 2) 0 then some l
  else
    match (dirOf l).find? (fun d => d.typ == 0xF0 && d.off == fieldAt l 0x74 4) with
    | none => none
    | some w =>
      (keyUnwrap ((l.drop w.off).take 96)).bind (fun kw => (dirOf l).zipIdx.foldl (fun acc e =>
        acc.bind (fun p =>
          if e.1.typ = 0xF0 then some p
          else (unitOpen l kw e.2 ((l.drop e.1.off).take e.1.len)).map (fun x =>
            putAt (putAt p e.1.off x) (0x80 + 16 * e.2 + 8) (leBytes 4 (e.1.len - 16))))) (some l))

/-- What the sections of an image of bytes `l` hold, as far as they keep their layout. -/
def imgHolds (l : List Nat) (c : ImgContent) : ImgContent := ((plainImage l).bind (fun p => imgContent p c)).getD c

/-- Verification of the image of bytes `l`, whose contents are `c` where the spec gives a section no layout (R81, R86): the refusal code and
its step, 0 when it passes. -/
def State.imgVerify (s : State) (l : List Nat) (c : ImgContent) (load : Bool) : Nat × Nat :=
  let h := imgHdrOf l
  let form := ((plainImage l).bind (fun p => imgContent p c)).isSome
  let c := imgHolds l c
  if !imgHeaderOk l ∨ fieldAt l 8 4 ≠ l.length then (1, 1)
  else
    let k := s.itemCheck 0x10 l
    if k ≠ 0 then (k, k)
    else if !dirOk l then (6, 6)
    else if (plainImage l).isNone then (7, 7)
    else if !sectionsOk l then (8, 8)
    else if h.isPart then
      let q := s.slotIml s.inactive
      if h.parent ≠ s.imageId then (0x0D, 8)
      else if !(q.valid && q.hdr.any (fun x => x.id == h.succ && x.parent == h.parent && x.part == h.part)) then (0x0E, 8)
      else
        match s.runCont with
        | none => (0x0D, 8)
        | some p =>
          let crews := s.img.crews
          let t := s.trial crews (overlayContent p c h.part); let u := s.trial crews p
          if !form || !t.contentOk crews p || !t.partOk u p c h.part then (9, 9)
          else if !(crewsOf crews).all t.crewBudgetOk then (10, 10)
          else (0, 0)
    else
      let t := s.trial h.crews c
      if !form || !t.contentOk h.crews c then (9, 9)
      else if !((crewsOf h.crews).all t.crewBudgetOk && c.ratesOk) then (10, 10)
      else
        let k := if load then s.pavLoad t c.par else s.pavStage t c.par
        (k, if k = 0 then 0 else 11)

/-! ## Commands (R84, R86, R94) -/

/-- A command in a state that does not list it. -/
def State.imlIgnore (s : State) : State := s.setFld F.IML_STATUS_CMD_IGN 1

/-- A refusal: IDLE, REFUSE and 0x0321. -/
def State.imlRefuse (s : State) (code step : Nat) : State :=
  ((s.setFld F.IML_STATUS_STATE 0).setFld F.IML_STATUS_REFUSE code).log 0x0321 0 (code + step * 2 ^ 8)

/-- Discards a staged partial image. -/
def State.dropPart (s : State) : State := (s.setIml { s.iml with cand := none }).setFld F.IML_PART_PART_CREW 0xFF

/-- IML_STAGE (R84, R94). -/
def execImlStage (s : State) : Host.Outcome State Fault Refusal :=
  if s.imlState = 0 ∨ s.imlState = 3 then
    .next ((s.dropPart.setFld F.IML_STATUS_REFUSE 0).setFld F.IML_STATUS_STATE 1)
  else .next s.imlIgnore

/-- The staging source. -/
def State.imlSrc (s : State) : Nat := s.fld F.IML_SRC_LO_ADDR * 64 + s.fld F.IML_SRC_HI_ADDR * 2 ^ 32

/-- IML_VERIFY_DONE (R81, R84, R86): `c` is what the sections of the image in DRAM hold. -/
def execImlVerifyDone (c : ImgContent) (_u : Unit) (s : State) : Host.Outcome State Fault Refusal :=
  if s.imlState ≠ 1 then .next s
  else
    let len := s.num Reg.IML_SRC_LEN
    if !s.sourceOk s.imlSrc len then .next (s.imlRefuse 0x10 0)
    else
      let l := s.rdList s.imlSrc len
      let (code, step) := s.imgVerify l c false
      let h := imgHdrOf l
      if code ≠ 0 then .next (s.imlRefuse code step)
      else if h.isPart then
        .next (((s.setIml { s.iml with cand := some (h, imgHolds l c) }).setFld F.IML_STATUS_STATE 3).setFld F.IML_PART_PART_CREW h.part)
      else .next ((s.setFld F.IML_STATUS_STATE 2).emptySlot s.inactive)

/-- IML_COPY_DONE (R84): the image has been copied into the inactive slot and is verified again from there. -/
def execImlCopyDone (c : ImgContent) (_u : Unit) (s : State) : Host.Outcome State Fault Refusal :=
  if s.imlState ≠ 2 then .next s
  else
    let k := s.inactive
    let len := s.num Reg.IML_SRC_LEN
    let s := (s.clearMem (imgSlotAddr k) 0x2000000).copyMem s.imlSrc (imgSlotAddr k) len
    let l := s.rdList (imgSlotAddr k) len
    let (code, step) := s.imgVerify l c false
    if code ≠ 0 ∨ (imgHdrOf l).isPart then .next (((s.setSlotIml k ImgSlot.init).syncSlots).imlRefuse (if code = 0 then 8 else code) step)
    else
      let h := imgHdrOf l
      .next ((((s.setSlotIml k ⟨false, some h, some (imgHolds l c)⟩).syncSlots).setFld F.IML_STATUS_STATE 0).log 0x0320 0 (h.id % 2 ^ 32))

/-- IML_ABORT (R94). -/
def execImlAbort (s : State) : Host.Outcome State Fault Refusal :=
  match s.imlState with
  | 1 => .next (((s.emptySlot s.inactive).setFld F.IML_STATUS_STATE 0).setFld F.IML_STATUS_REFUSE 0x11)
  | 2 => .next (((s.emptySlot s.inactive).setFld F.IML_STATUS_STATE 0).setFld F.IML_STATUS_REFUSE 0x11)
  | 3 => .next (s.dropPart.setFld F.IML_STATUS_STATE 0)
  | 4 => if s.iml.repl.any (fun p => !p.done) then .next s.replAbort else .next s.imlIgnore
  | _ => .next s.imlIgnore

/-! ## Replacement (R87) -/

/-- IML_REPLACE (R87 steps 1 and 2, R94). -/
def execImlReplace (s : State) : Host.Outcome State Fault Refusal :=
  if s.imlState ≠ 3 then .next s.imlIgnore
  else
    match s.iml.cand, s.spareFor with
    | some (h, _), some d =>
      let s := s.setLsm d { s.lsmOf d with bist := false }
      .next ((s.setIml { s.iml with repl := some ⟨h.part, (s.physOf h.part).getD 0xF, d, false, none, false, false⟩ }).setFld F.IML_STATUS_STATE 4)
    | _, _ => .next (s.dropPart.imlRefuse 0x0F 0)

/-- REPLACE_SPARE_LOADED (R87 steps 2 and 3, R492): the spare holds the new contents; the switch falls on the first stroke start that lies at
least 2 strokes ahead. -/
def execReplaceSpareLoaded (s : State) : Host.Outcome State Fault Refusal :=
  match s.iml.repl, s.iml.cand, s.runCont with
  | some p, some (_, c), some base =>
    if p.loaded then .next s
    else
      let s := (s.resetCrew p.dst).clearMem (crewMem p.dst) 0x1000000
      let s := (s.imgCrew (overlayContent base c p.m) p.m p.dst).crewRegions p.dst (some p.m)
      let sw := (s.num (Reg.CT_LAST_CSEQ p.m) / 64 + 3) % 2 ^ 26 * 64
      .next (s.setIml { s.iml with repl := some { p with loaded := true, sw := some sw } })
  | _, _, _ => .next s

/-- The integrator, filter and slew-limiter state of the loops both contents hold, and their repetitive memory where P is equal (R87).  DESIGN CHOICE
(notes/assumptions/58.md): the repetitive phase (IDX and CSEQ_LAST) is the image's, as R87 carries only the memory. -/
def State.replLoops (s : State) (old dst : Nat) : State :=
  (s.loopsOf dst).foldl (fun s l =>
    match (s.loopsOf old).find? (fun k => s.loopId old k == s.loopId dst l) with
    | none => s
    | some k =>
      let s := [0x70, 0x74, 0x78, 0x7C, 0x88].foldl (fun s o => s.setLw dst l o (s.lw old k o)) s
      let s := s.setLoopDyn dst l { s.loopDyn dst l with first := false }
      let a := s.loopCtx old k; let b := s.loopCtx dst l
      if repEn a && repEn b && repP a == repP b then
        s.copyMem (crewMem old + sampleOff a 0) (crewMem dst + sampleOff b 0) (4 * repP a)
      else s) s

/-- REPLACE_DONE (R87 step 5, R94): the successor's slot becomes active, the old crew is cleared, becomes the spare and starts its built-in test, at
whose end 0x0323 is logged (`State.replTested`). -/
def execReplaceDone (s : State) : Host.Outcome State Fault Refusal :=
  match s.iml.repl with
  | some p =>
    if !p.done ∨ p.cleared then .next s
    else
      let k := s.inactive
      let s := ((s.resetCrew p.old).clearMem (crewMem p.old) 0x1000000).crewRegions p.old none
      let s := s.setIml { s.iml with repl := some { p with cleared := true }, boot := k, untested := some p.old }
      let s := (s.setFld F.IML_STATUS_ACTIVE k).syncSlots.chooseSpare
      .next (s.setLsm p.old { LsmState.init with stroke := (s.lsmOf p.old).stroke + 1, bist := true })
  | none => .next s

/-! ## Loading (R85, R90) -/

/-- The crew map at a load (R90): crews not retired first, then spares in ascending m; the logical crew that finds none. -/
def State.mapSpares (s : State) : List Nat → State ⊕ Nat
  | [] => .inl s
  | m :: l => if s.spareRule = 0xF then .inr m else ((s.mapCrew m s.spareRule).mapSpares l)

def State.mapLoad (s : State) (crews : List Nat) : State ⊕ Nat :=
  let retired (m : Nat) : Bool := s.health (.crew m) == .retired
  let s := (crews.filter (fun m => !retired m)).foldl (fun s m => s.mapCrew m m) s
  s.mapSpares (crews.filter retired)

/-- The step stages of logical crew `m` keep their health over a load, whichever crew runs it (R30, R32). -/
def State.stagesBack (s : State) (m n : Nat) : State :=
  (List.range 4).foldl (fun s j =>
    (s.setHealth (.stage n j) (Tab.get (fun _ => Health.service) s.healthX (axisKey (4 * m + j)))).setHealthRec (.stage n j)
      (Tab.get (fun _ => HealthRec.init) s.healths (axisKey (4 * m + j)))) s

/-- The firewall regions of the masters that belong to no crew: the FIREWALL section's registers are in the contents' registers. -/
def State.applyImage (s : State) (h : ImgHdr) (c : ImgContent) : State :=
  let s := ((s.setImg c.tables).setRce { s.rce with cfg := c.record }).setFwl { s.fwl with applied := true }
  let s := c.regs.foldl (fun s e => s.imgWrite e.1 e.2) s
  let s := (crewsOf h.crews).foldl (fun s m =>
    match s.physOf m with
    | some n => ((s.imgCrew c m n).crewRegions n (some m)).stagesBack m n
    | none => s) s
  let s := s.coursesOn
  let s := (s.setNum64 Reg.IML_ACTIVE_ID_LO Reg.IML_ACTIVE_ID_HI h.id).setNum Reg.IML_ARB h.arbVer
  s.extendMeas 2 h.digest

/-- The pavilion's part of a load (R82, R401, R408): a differing set is adopted by a START of its own, or reported. -/
def State.parLoad (s : State) (par : List Nat) : State :=
  if crc32c par = parCrc s.pvm.par ∧ s.pvm.valid then s.setFld F.PVM_STATUS_PAR_DIFF 0
  else if s.sw17 then (s.setFld F.PVM_STATUS_PAR_DIFF 0).setPvm { s.pvm with store := parOf par }
  else (s.setFld F.PVM_STATUS_PAR_DIFF 1).log 0x0D19 0 (parCrc s.pvm.par)

/-- The slot's image starts to run (R90): nothing is mapped when a bound crew cannot be. -/
def State.runImage (s : State) (k : Nat) (h : ImgHdr) (c : ImgContent) : State :=
  let s := (s.setFld F.IML_STATUS_ACTIVE k).setIml { s.iml with boot := k }
  let s := s.syncSlots
  match s.mapLoad (crewsOf h.crews) with
  | .inr m => ((s.setFld F.IML_STATUS_NO_IMAGE 1).log 0x0326 0 (0x100 + m)).chooseSpare
  | .inl s' =>
    let adopt := !(crc32c c.par == parCrc s'.pvm.par && s'.pvm.valid) && s'.sw17
    let s' := ((s'.applyImage h c).parLoad c.par).chooseSpare
    if adopt then s'.pavStart else s'

/-- Verification of a slot at a load (R85): the code, and what runs when it passes. -/
def State.slotVerify (s : State) (k : Nat) : Nat × Option (ImgHdr × ImgContent) :=
  let x := s.slotIml k
  match x.hdr, x.cont with
  | some h, some c =>
    if x.empty then (1, none)
    else
      let a := imgSlotAddr k
      let (code, _) := s.imgVerify (s.rdList a (s.rdMem (a + 8) 4)) c true
      if code = 0 then (0, some (h, c)) else (code, none)
  | _, _ => (1, none)

/-- The load after a reset (R85). -/
def State.imlLoad (s : State) : State :=
  let k := s.iml.boot
  match s.slotVerify k with
  | (_, some (h, c)) => s.runImage k h c
  | (code, none) =>
    let s := (s.emptySlot k).setFld F.IML_STATUS_REFUSE code
    match s.slotVerify (1 - k) with
    | (_, some (h, c)) => ((s.setFld F.IML_STATUS_BOOT_FALLBACK 1).log 0x0325 0 code).runImage (1 - k) h c
    | (code', none) =>
      let s := (s.emptySlot (1 - k)).setFld F.IML_STATUS_REFUSE code'
      ((s.setFld F.IML_STATUS_NO_IMAGE 1).log 0x0326 0 (if k = 1 then code else code')).chooseSpare

end Sys2Proof.Machine
end

