-- ==== Sys2Proof/Machine/Vlt.lean ====
section
/-! DEFINITION. The vault (chapter 18).  A command row takes effect when it is accepted; VLT_COMMAND_DONE publishes its result
(notes/assumptions/50.md). -/
namespace Sys2Proof.Machine

def State.setVlt (s : State) (v : VltState) : State := { s with vlt := v }

/-- The argument buffer (R525). -/
def State.vltArg (s : State) : Nat := s.fld F.VLT_ARG_LO_ADDR * 64 + s.fld F.VLT_ARG_HI_ADDR * 2 ^ 32
def State.vltLen (s : State) : Nat := s.num Reg.VLT_ARG_LEN
/-- SW_18 as the pavilion latched it (R404). -/
def State.sw18 (s : State) : Bool := bit (s.fld F.PVM_SWITCH_SW) 17
/-- The owner: the slot that is ENROLLED (R514). -/
def State.owner (s : State) : Option Nat := (List.range 4).find? (fun k => s.ownerSlot k == 1)
/-- The lowest EMPTY slot. -/
def State.freeSlot (s : State) : Option Nat := (List.range 4).find? (fun k => s.ownerSlot k == 0)
def State.setOwnerSlot (s : State) (k v : Nat) : State := s.setFld ⟨Reg.VLT_STATUS, 2 * k, 2⟩ v

/-- SOURCE of a command's events (R528): AC_0, or the TAP. -/
def vltSource (tap : Bool) : Nat := if tap then 0 else 0x7000

/-- A command is accepted (R525): its result waits for its end. -/
def State.vltBegin (s : State) (cmd refuse out : Nat) : State :=
  ((s.setFld F.VLT_RES_BUSY 1).setFld F.VLT_RES_CMD cmd).setVlt { s.vlt with busy := some (refuse, out) }

/-- A command is refused with a code (R526, R528). -/
def State.vltRefuse (s : State) (cmd code : Nat) (tap : Bool) : State :=
  (s.vltBegin cmd code 0).log (if cmd = 11 then 0x1117 else 0x1115) (vltSource tap) (if cmd = 11 then code else code + cmd * 2 ^ 8)

/-- A command while another runs is refused with BUSY (R525). -/
def State.vltBusy (s : State) (cmd : Nat) (tap : Bool) : State :=
  (s.setFld F.VLT_RES_REFUSE 1).log (if cmd = 11 then 0x1117 else 0x1115) (vltSource tap) (if cmd = 11 then 1 else 1 + cmd * 2 ^ 8)

/-- A command runs its effect unless another is running. -/
def State.vltCommand (s : State) (cmd : Nat) (tap : Bool) (f : State → State) : State :=
  if s.flag F.VLT_RES_BUSY then s.vltBusy cmd tap else f s

/-- VLT_COMMAND_DONE (R525, R527). -/
def execVltCommandDone (s : State) : Host.Outcome State Fault Refusal :=
  match s.vlt.busy with
  | none => .next s
  | some (refuse, out) =>
    let s := ((s.setFld F.VLT_RES_BUSY 0).setFld F.VLT_RES_DONE 1).setFld F.VLT_RES_REFUSE refuse
    .next ((s.setFld F.VLT_RES_OUT out).setVlt { s.vlt with busy := none })

/-! ## Firmware (R510 to R513) -/

/-- The first byte of slot `k` of the firmware store, and its size, by KIND (R510). -/
def fwSlotSize (kind : Nat) : Nat := if kind = 1 then 0x800000 else if kind = 2 then 0x400000 else 0x1000000
def fwSlotAddr (kind k : Nat) : Nat :=
  (if kind = 1 then 0x8C000000 else if kind = 2 then 0x8D000000 else 0x8D800000) + k * fwSlotSize kind

def fwKind (l : List Nat) : Nat := fieldAt l 0x0C 1
def fwEnc (l : List Nat) : Bool := bit (fieldAt l 0x0E 2) 0

/-- The header of a firmware image of `l.length` bytes (R511). -/
def fwFormat (l : List Nat) : Bool :=
  let kind := fwKind l; let len := fieldAt l 8 4; let cores := fieldAt l 0x0D 1; let arb := fieldAt l 0x16 1
  fieldAt l 0 4 == 0x574E4D41 && fieldAt l 4 2 == 1 && fieldAt l 6 2 == 0x80 && len == l.length &&
    decide (0x80 + 96 ≤ len) && decide (1 ≤ kind) && decide (kind ≤ 3) && decide (len ≤ fwSlotSize kind) &&
    (if kind = 3 then cores % 4 == 0 else cores == 0) && decide (fieldAt l 0x0E 2 ≤ 1) && (kind == 3 || !fwEnc l) &&
    (if kind = 3 then decide (8 ≤ arb) && decide (arb ≤ 63) else arb == kind - 1) && decide (fieldAt l 0x17 1 ≤ 3) &&
    fieldAt l 0x70 4 == len - 96 && fieldAt l 0x74 4 == (if fwEnc l then len - 192 else 0) &&
    ((l.take 0x40).drop 0x28).all (fun b => b == 0) && ((l.take 0x80).drop 0x78).all (fun b => b == 0)

/-- The signature of a firmware image verifies: KIND 1 and 2 under a Dzilet key, KIND 3 under the owner's (R511, R512, R514). -/
def State.fwSigned (s : State) (l : List Nat) : Bool :=
  let k := fieldAt l 0x17 1
  if fwKind l = 3 then s.signedBy k l else !Config.dziletRevoked k && signedUnder (Config.dziletKey k) l

/-- The checks of R512 in their order: 2 FORMAT, 3 TARGET, 4 DIGEST, 5 SIGNATURE, 6 ROLLBACK, 7 DECRYPT; 0 when all pass (R526). -/
def State.fwCheck (s : State) (l : List Nat) : Nat :=
  if !fwFormat l then 2
  else if fieldAt l 0x10 4 ≠ 0x7200 ∨ fieldAt l 0x14 2 ≠ 0xB1 then 3
  else if sha384 ((l.take (fieldAt l 0x70 4)).drop 0x80) ≠ ofBe ((l.drop 0x40).take 48) then 4
  else if !s.fwSigned l then 5
  else if fieldAt l 0x18 4 < s.num (Reg.VLT_ARB (fieldAt l 0x16 1)) then 6
  else if (itemBody l (fwEnc l)).isNone then 7
  else 0

/-- The active slot of a KIND. -/
def State.fwActive (s : State) (kind : Nat) : Nat := Tab.get (fun _ => 0) s.vlt.active kind
def State.setFwActive (s : State) (kind k : Nat) : State := s.setVlt { s.vlt with active := Tab.put s.vlt.active kind k }
def State.fwBad (s : State) (kind k : Nat) : Bool := s.vlt.bad.contains (2 * kind + k)

/-- DETAIL of 0x1110 and 0x1111. -/
def fwDetail (l : List Nat) : Nat := fwKind l + fieldAt l 0x20 3 * 2 ^ 8
def State.fwRefused (s : State) (code kind k : Nat) : State := s.log 0x1111 0x7000 (code + kind * 2 ^ 8 + k * 2 ^ 16)

/-- Firmware that a loader verified runs from now on (R517). -/
def State.fwRuns (s : State) (l : List Nat) : State :=
  s.setVlt { s.vlt with running := Tab.put s.vlt.running (fwKind l) (fieldAt l 0x16 1, fieldAt l 0x18 4, fieldAt l 0x17 1) }

/-- The bytes of the argument buffer: none unless it lies in general DRAM. -/
def State.vltBytes (s : State) : Option (List Nat) :=
  if inDram s.vltArg s.vltLen then some (s.rdList s.vltArg s.vltLen) else none

/-- The plaintext of an encrypted unit stands where the unit stood (R520, R525). -/
def State.decryptInPlace (s : State) (addr : Nat) (l : List Nat) : State :=
  match fwEnc l, itemBody l true with
  | true, some p => s.wrList (addr + 0x80) p
  | _, _ => s

/-- VERIFY (R512, R521, R525), the staged bytes given. -/
def State.vltVerifyOf (s : State) : Option (List Nat) → State
  | none => (s.vltBegin 1 2 0).fwRefused 2 0 0
  | some l =>
    let code := s.fwCheck l
    if code ≠ 0 then (s.vltBegin 1 code 0).fwRefused code (fwKind l) 0
    else
      let d := (l.drop 0x40).take 48
      let s := s.decryptInPlace s.vltArg l
      let s := if fwKind l = 2 then (s.extendMeas 1 d).fwRuns l else if fwKind l = 3 then (s.extendMeas 3 d).fwRuns l else s
      (s.vltBegin 1 0 (fwKind l)).log 0x1110 0x7000 (fwDetail l)

/-- VERIFY (R512, R521, R525). -/
def State.vltVerify (s : State) : State := s.vltVerifyOf s.vltBytes

def execVltVerify (_u : Unit) (s : State) : Host.Outcome State Fault Refusal := .next (s.vltCommand 1 false State.vltVerify)

/-- An image that passed is written to the inactive slot of its kind and verified again from there (R513): the code. -/
def State.fwStore (s : State) (l : List Nat) : Nat × State :=
  let kind := fwKind l; let k := 1 - s.fwActive kind; let a := fwSlotAddr kind k
  let s := (s.clearMem a (fwSlotSize kind)).wrList a l
  let l' := s.rdList a l.length
  let code := s.fwCheck l'
  if code ≠ 0 then (code, (s.setVlt { s.vlt with bad := (2 * kind + k) :: s.vlt.bad }).fwRefused code kind k)
  else
    let s := (s.setFwActive kind k).setVlt { (s.setFwActive kind k).vlt with bad := s.vlt.bad.filter (fun x => x != 2 * kind + k) }
    (0, s.log 0x1110 0x7000 (fwDetail l))

/-- STORE (R513, R525), the staged bytes given. -/
def State.vltStoreOf (s : State) : Option (List Nat) → State
  | none => (s.vltBegin 2 2 0).fwRefused 2 0 0
  | some l =>
    let k := 1 - s.fwActive (fwKind l)
    let code := s.fwCheck l
    if code ≠ 0 then (s.vltBegin 2 code 0).fwRefused code (fwKind l) k
    else
      let (code, s) := s.fwStore l
      s.vltBegin 2 code (if code = 0 then k else 0)

/-- STORE (R513, R525). -/
def State.vltStore (s : State) : State := s.vltStoreOf s.vltBytes

def execVltStore (_u : Unit) (s : State) : Host.Outcome State Fault Refusal := .next (s.vltCommand 2 false State.vltStore)

/-! ## Owner records (R515, R516, R519, R524) -/

/-- The bytes of a record that its KIND defines: beside the header, from 0x10 up to `n` and at the extra offsets. -/
def recordZero (l : List Nat) (used : List (Nat × Nat)) : Bool :=
  (l.take 0xA0).zipIdx.all (fun e => decide (e.2 < 7) || (decide (8 ≤ e.2) && decide (e.2 < 0x10)) ||
    used.any (fun u => decide (u.1 ≤ e.2) && decide (e.2 < u.2)) || e.1 == 0)

/-- The parts every record shares (R515): its length, MAGIC, KIND, SLOT, and zeros outside its BODY. -/
def ownRecordOk (l : List Nat) (kind : Nat) (used : List (Nat × Nat)) : Bool :=
  l.length == 256 && fieldAt l 0 4 == 0x4F4E4D41 && fieldAt l 4 2 == kind && decide (fieldAt l 6 1 ≤ 3) && recordZero l used

/-- DEV_ID names this module. -/
def recordBound (l : List Nat) : Bool := fieldAt l 8 8 == Config.keyId % 2 ^ 64

/-- A record signed by the owner: NO_OWNER, SIGNATURE, or 0. -/
def State.ownerSigned (s : State) (l : List Nat) : Nat :=
  match s.owner with
  | none => 0x0A
  | some k => if s.signedBy k l then 0 else 5

/-- An accepted record extends M7 (R521). -/
def State.extendOwner (s : State) (l : List Nat) : State := s.extendMeas 7 (beBytes 48 (sha384 l))

/-- The bytes of a record in the argument buffer (empty when it is elsewhere). -/
def State.vltRecord (s : State) : List Nat := s.vltBytes.getD []

/-- ENROL (R516). -/
def State.vltEnrol (s : State) : State :=
  let l := s.vltRecord
  let pub := (l.drop 0x10).take 97
  if !(ownRecordOk l 1 [(0x10, 0x71)] && pub.headD 0 == 4) then s.vltRefuse 3 2 false
  else if !s.sw18 then s.vltRefuse 3 8 false
  else if !recordBound l then s.vltRefuse 3 0x0B false
  else
    match s.owner, s.freeSlot with
    | none, some k =>
      if fieldAt l 6 1 ≠ k then s.vltRefuse 3 9 false
      else if !signedUnder pub l then s.vltRefuse 3 5 false
      else
        let h := beBytes 48 (sha384 pub)
        let s := (s.setOwnerSlot k 1).setVlt { s.vlt with hashes := Tab.put s.vlt.hashes k h, pubs := Tab.put s.vlt.pubs k pub }
        ((s.extendOwner l).vltBegin 3 0 k).log 0x1112 0x7000 k
    | _, _ => s.vltRefuse 3 9 false

def execVltEnrol (_u : Unit) (s : State) : Host.Outcome State Fault Refusal := .next (s.vltCommand 3 false State.vltEnrol)

/-- REVOKE (R516). -/
def State.vltRevoke (s : State) : State :=
  let l := s.vltRecord
  if !ownRecordOk l 2 [(0x10, 0x40)] then s.vltRefuse 4 2 false
  else if !s.sw18 then s.vltRefuse 4 8 false
  else if !recordBound l then s.vltRefuse 4 0x0B false
  else
    match s.owner with
    | none => s.vltRefuse 4 0x0A false
    | some k =>
      if s.ownerSigned l ≠ 0 ∨ (l.drop 0x10).take 48 ≠ Tab.get (fun _ => []) s.vlt.hashes k then s.vltRefuse 4 5 false
      else (((s.setOwnerSlot k 2).extendOwner l).vltBegin 4 0 k).log 0x1113 0x7000 k

def execVltRevoke (_u : Unit) (s : State) : Host.Outcome State Fault Refusal := .next (s.vltCommand 4 false State.vltRevoke)

/-- The KEYWRAP block of a content key (R519). -/
def keyWrap (iv nonce key : List Nat) : List Nat :=
  let head := leBytes 4 1 ++ leBytes 4 0 ++ leBytes 8 (Config.keyId % 2 ^ 64)
  head ++ iv ++ gcmSeal Config.kwk iv head key ++ nonce ++ List.replicate 12 0

/-- The parts of an IMPORT record. -/
def importOk (l : List Nat) : Bool :=
  let u := fieldAt l 0x10 1
  decide (u ≤ 2) && decide (fieldAt l 0x11 1 ≤ (if u = 2 then 0 else 3)) &&
    ownRecordOk l 3 [(0x10, 0x12), (0x18, if u = 1 then 0x44 else 0x38)]

/-- IMPORT (R518, R519). -/
def State.vltImport (s : State) : State :=
  let l := s.vltRecord
  let u := fieldAt l 0x10 1; let i := fieldAt l 0x11 1
  let key := (l.drop 0x18).take 32
  if !importOk l then s.vltRefuse 5 2 false
  else if !s.sw18 then s.vltRefuse 5 8 false
  else if !recordBound l then s.vltRefuse 5 0x0B false
  else if s.ownerSigned l ≠ 0 then s.vltRefuse 5 (s.ownerSigned l) false
  else if u = 2 then
    if !s.rngOk then s.vltRefuse 5 0x0F false
    else
      let b := keyWrap (leBytes 12 (Config.drbg s.fresh)) (leBytes 8 (Config.drbg (s.fresh + 1))) key
      let s := s.takeFresh 2
      (((s.wrList s.vltArg b).extendOwner l).vltBegin 5 0 0).log 0x111B 0x7000 (u + i * 2 ^ 8)
  else
    let h := 0x1000 + 4 * u + i
    let s := s.setVlt { s.vlt with pkeys := Tab.put s.vlt.pkeys h (key, if u = 1 then (l.drop 0x38).take 12 else []) }
    ((s.extendOwner l).vltBegin 5 0 h).log 0x111B 0x7000 (u + i * 2 ^ 8)

def execVltImport (_u : Unit) (s : State) : Host.Outcome State Fault Refusal := .next (s.vltCommand 5 false State.vltImport)

/-! ## Keys and counters (R517, R518) -/

/-- LOAD_KEY (R518), the staged bytes given. -/
def State.vltLoadKeyOf (s : State) : Option (List Nat) → State
  | none => s.vltRefuse 6 2 false
  | some l =>
    if l.length ≠ 64 then s.vltRefuse 6 2 false
    else
      match (List.range 256).find? (fun h => (Tab.find s.vlt.vkeys h).isNone) with
      | none => s.vltRefuse 6 0x0D false
      | some h =>
        let s := s.setVlt { s.vlt with vkeys := Tab.put s.vlt.vkeys h (l.take 32, (l.drop 32).take 12) }
        s.vltBegin 6 0 h

/-- LOAD_KEY (R518). -/
def State.vltLoadKey (s : State) : State := s.vltLoadKeyOf s.vltBytes

def execVltLoadKey (s : State) : Host.Outcome State Fault Refusal := .next (s.vltCommand 6 false State.vltLoadKey)

/-- ERASE_KEY (R518). -/
def State.vltEraseKey (s : State) (h : Nat) : State :=
  if (Tab.find s.vlt.vkeys h).isSome then (s.setVlt { s.vlt with vkeys := Tab.del s.vlt.vkeys h }).vltBegin 7 0 0
  else s.vltRefuse 7 0x0E false

def execVltEraseKey (h : BitVec 16) (s : State) : Host.Outcome State Fault Refusal :=
  .next (s.vltCommand 7 false (fun s => s.vltEraseKey h.toNat))

/-- The items now running, as (ARB_IDX, ARB_VER, SIGNER): the structure image, active recipes, the program and firmware (R517). -/
def State.runningItems (s : State) : List (Nat × Nat × Nat) :=
  let at_ (a o : Nat) : Nat × Nat × Nat := (s.rdMem (a + o + 6) 1, s.rdMem (a + o + 8) 4, s.rdMem (a + o + 7) 1)
  let img := if s.img.crews = 0 then [] else [at_ (imgSlotAddr (s.fld F.IML_STATUS_ACTIVE)) 0x10]
  let rcps := ((List.range 16).filter s.rcpActive).map (fun r => at_ (rcpArea r) 0x10)
  let prog := match s.cyc.cur with | some p => if 2 ≤ s.cycState then [(p.arbIdx, p.arbVer, p.signer)] else [] | none => []
  img ++ rcps ++ prog ++ s.vlt.running.map (fun e => e.2)

/-- ARB_ADVANCE of counter `i` to `ver` (R517). -/
def State.vltArbAdvance (s : State) (i ver : Nat) : State :=
  let rows := Tab.get (fun _ => 0) s.vlt.rows i
  let owned (k : Nat) : Bool := i < 8 || s.owner == some k
  if i < 64 ∧ rows < 64 ∧ s.num (Reg.VLT_ARB i) < ver ∧
      s.runningItems.any (fun t => t.1 == i && t.2.1 == ver && owned t.2.2) then
    let s := (s.setNum (Reg.VLT_ARB i) ver).setVlt { s.vlt with rows := Tab.put s.vlt.rows i (rows + 1) }
    (s.vltBegin 8 0 (ver % 2 ^ 16)).log 0x1114 0x7000 (i + (rows + 1) * 2 ^ 8)
  else s.vltRefuse 8 0x0C false

def execVltArbAdvance (i : BitVec 16) (s : State) : Host.Outcome State Fault Refusal :=
  .next (s.vltCommand 8 false (fun s => s.vltArbAdvance i.toNat s.vltLen))

/-! ## Attestation (R522) -/

/-- Bytes 0x000 to 0x2FF of a report. -/
def State.report (s : State) (nonce : List Nat) : List Nat :=
  let own := s.owner
  leBytes 4 0x414E4D41 ++ leBytes 2 1 ++ leBytes 2 0x360 ++ nonce ++
    leBytes 4 s.now.w0 ++ leBytes 4 s.now.w1 ++ leBytes 4 s.now.w2 ++ leBytes 4 s.timeState ++ leBytes 8 (Config.keyId % 2 ^ 64) ++
    leBytes 1 (own.getD 0xFF) ++ leBytes 3 (s.fld F.VLT_STATUS_SLOTS) ++ leBytes 4 (s.fld F.PVM_SWITCH_SW) ++
    ((match own with | some k => Tab.get (fun _ => []) s.vlt.hashes k | none => []) ++ List.replicate 48 0).take 48 ++
    (List.range 8).flatMap s.measBytes ++ (List.range 64).flatMap (fun i => leBytes 4 (s.num (Reg.VLT_ARB i))) ++
    leBytes 4 (s.fld F.VLT_STATUS_SCOPE) ++ leBytes 4 0

/-- ATTEST (R522), the staged bytes given. -/
def State.vltAttestOf (s : State) : Option (List Nat) → State
  | none => s.vltRefuse 9 2 false
  | some l =>
    if l.length ≠ 864 then s.vltRefuse 9 2 false
    else
      let nonce := (l.drop 8).take 32
      let r := s.report nonce
      let sig := (Config.deviceSign (sha384 r) ++ List.replicate 96 0).take 96
      ((s.wrList s.vltArg (r ++ sig)).vltBegin 9 0 864).log 0x1119 0x7000 (fieldAt nonce 0 4)

/-- ATTEST (R522). -/
def State.vltAttest (s : State) : State := s.vltAttestOf s.vltBytes

def execVltAttest (s : State) : Host.Outcome State Fault Refusal := .next (s.vltCommand 9 false State.vltAttest)

/-! ## Debug (R524) -/

/-- Replaces the challenge; none clears it. -/
def State.setChal (s : State) (c : Option Nat) : State :=
  let s := (List.range 8).foldl (fun s w => s.setNum (Reg.VLT_DBG_CHAL w) (c.getD 0 / 2 ^ (32 * w) % 2 ^ 32)) s
  s.setVlt { s.vlt with chal := c.isSome }

/-- DBG_CHALLENGE (R523, R524). -/
def State.vltChallenge (s : State) (tap : Bool) : State :=
  if !s.rngOk then s.vltRefuse 10 0x0F tap
  else
    let c := Config.drbg s.fresh
    ((s.takeFresh 1).setChal (some (c % 2 ^ 256))).vltBegin 10 0 0

def execVltDbgChallenge (tap : Bool) (s : State) : Host.Outcome State Fault Refusal :=
  .next (s.vltCommand 10 tap (fun s => s.vltChallenge tap))

/-- The debug scope changes. -/
def State.setScope (s : State) (v : Nat) : State :=
  if s.fld F.VLT_STATUS_SCOPE = v then s else (s.setFld F.VLT_STATUS_SCOPE v).setFld F.VLT_STATUS_DBG_CHG 1

/-- The bytes of the current challenge. -/
def State.chalBytes (s : State) : List Nat := (List.range 8).flatMap (fun w => leBytes 4 (s.num (Reg.VLT_DBG_CHAL w)))

/-- DBG_UNLOCK (R524). -/
def State.vltUnlock (s : State) (tap : Bool) : State :=
  let l := s.vltRecord
  let scope := fieldAt l 0x30 1; let minutes := fieldAt l 0x32 2
  if !(ownRecordOk l 4 [(0x10, 0x31), (0x32, 0x34)] && decide (scope ≤ 15) && decide (minutes ≤ 1440)) then s.vltRefuse 11 2 tap
  else if !recordBound l then s.vltRefuse 11 0x0B tap
  else if !s.vlt.chal || (l.drop 0x10).take 32 != s.chalBytes then s.vltRefuse 11 0x10 tap
  else if s.ownerSigned l ≠ 0 then s.vltRefuse 11 (s.ownerSigned l) tap
  else
    let s := (s.setScope scope).setChal none
    let s := (s.setVlt { s.vlt with minutes := minutes, since := s.time.cycle }).extendOwner l
    (s.vltBegin 11 0 scope).log 0x1116 (vltSource tap) (scope + minutes * 2 ^ 16)

def execVltDbgUnlock (tap : Bool) (_u : Unit) (s : State) : Host.Outcome State Fault Refusal :=
  .next (s.vltCommand 11 tap (fun s => s.vltUnlock tap))

/-- DBG_LOCK (R524). -/
def execVltDbgLock (s : State) : Host.Outcome State Fault Refusal :=
  .next (s.vltCommand 12 false (fun s =>
    (((s.setScope 0).setVlt { s.vlt with minutes := 0 }).vltBegin 12 0 0).log 0x1118 0x7000 0))

/-- DEBUG_SCOPE_EXPIRE (R524): MINUTES of the scope have run out. -/
def execDebugScopeExpire (s : State) : Host.Outcome State Fault Refusal :=
  if s.fld F.VLT_STATUS_SCOPE = 0 ∨ s.vlt.minutes = 0 ∨ !s.lasted s.vlt.since (s.vlt.minutes * 60000 * cycPerMs) then .next s
  else .next (((s.setScope 0).setVlt { s.vlt with minutes := 0 }).log 0x1118 0x7000 1)

/-! ## DRBG (R523) -/

/-- VLT_RNG_READ (R523): 32 new bits, or 0 while stopped. -/
def execVltRngRead (s : State) : Host.Outcome State Fault Refusal :=
  if s.rngOk then .next ((s.setBus ⟨false, Config.drbg s.fresh % 2 ^ 32⟩).takeFresh 1)
  else .next (s.setBus ⟨false, 0⟩)

/-- ENTROPY_FAIL (R523). -/
def execEntropyFail (s : State) : Host.Outcome State Fault Refusal :=
  if !s.rngOk then .next s else .next ((s.setFld F.VLT_STATUS_ENTROPY_FAIL 1).log 0x111A 0x7000 0)

end Sys2Proof.Machine
end

