-- ==== Sys2Proof/Machine/Reset.lean ====
section
/-! DEFINITION. What a reset clears and keeps (R256, R329, R376, R389, R395, R529 to R535, R553), and the bring-up that follows its release
(R540, R541, R545, R546). -/
namespace Sys2Proof.Machine

def State.setRpc (s : State) (r : RpcState) : State := { s with rpc := r }

/-! ## What a system-level reset keeps (R553) -/

/-- A register that keeps its value: OTP and identity always; the pavilion's unless PAV is reset; the boathouse's and backup registers
except at power-on; measured supplies always. -/
def keptReg (pav power : Bool) (a : Nat) : Bool :=
  if 0xE00E0000 ≤ a ∧ a < 0xE00F0000 then !pav
  else if a = Reg.VLT_KEYID_LO ∨ a = Reg.VLT_KEYID_HI ∨ (Reg.VLT_ARB 0 ≤ a ∧ a < Reg.VLT_ARB 64) ∨ (Reg.VLT_CERT 0 ≤ a ∧ a < Reg.VLT_CERT 128) then true
  else if a = Reg.RPC_SUPPLY then true
  else
    !power && (decide (a = Reg.RPC_ELAPSED_LO) || decide (a = Reg.RPC_ELAPSED_HI) || decide (a = Reg.RPC_DIP_COUNT) ||
      (decide (Reg.RPC_BKP 0 ≤ a) && decide (a < Reg.RPC_BKP 32)) || decide (a = Reg.EVL_BH_IDX) || decide (a = Reg.RCE_WR_SLOT) ||
      decide (a = Reg.PLK_TAKES) || (decide (Reg.CYC_FRC0 0 ≤ a) && decide (a < Reg.CYC_FRC0 1024)))

/-- An address of a memory that keeps its contents: boot ROM and MRAM always, the boathouse except at power-on, DRAM unless initialised. -/
def keptMem (power dram : Bool) (a : Nat) : Bool :=
  if a < 0x08000000 then true
  else if a < 0x08040000 then !power
  else if 0x80000000 ≤ a ∧ a < 0x90000000 then true
  else decide (0x1000000000 ≤ a) && !dram

/-- The resources whose health a register reports (R29). -/
def regResources : List Res :=
  (List.range 20).map Res.conv ++ (List.range 8).map Res.tdac ++ (List.range 9).map Res.crew ++
    (List.range 36).map (fun i => Res.stage (i / 4) (i % 4)) ++ (List.range 16).map Res.enc ++ (List.range 16).map Res.clo ++
    (List.range 64).map Res.vdr ++ (List.range 8).map Res.can ++ (List.range 6).map Res.eth ++ (List.range 2).map Res.lane ++
    (List.range 72).map (fun i => Res.cdm (i / 8) (i % 8)) ++ (List.range 4).map Res.rmv ++ (List.range 12).map Res.link ++
    (List.range 32).map Res.domain

/-- The health field of a resource as its register holds it. -/
def State.healthField (s : State) (r : Res) : Nat := match r.healthFld with | some f => s.fld f | none => 0

/-- The resources a reset finds under test (R30): those of the pavilion only when it resets PAV. -/
def State.testing (s : State) (pav : Bool) : List Res :=
  regResources.filter (fun r => s.healthField r == 3) ++
    (if pav then ((List.range 8).map Res.brake ++ (List.range 4).map Res.group ++ (List.range 1024).map Res.conn).filter (fun r =>
      s.health r == .testing) else [])

/-- A stage's event names its axis by logical crew, which the reset forgets (R285). -/
def State.byAxis (s : State) (r : Res) : Res :=
  match r with
  | .stage n j => .stage ((s.logicalOf n).getD n) j
  | r => r

/-- The health a reset leaves (R30, R553): TESTING becomes RETIRED, every other state stays. -/
def keptHealth (v : Nat) : Nat := if v = 3 then 2 else v

/-- What a reset keeps of the step stages' health, by axis (R30, R32). -/
def State.keptStages (s : State) : List (Nat × Health × HealthRec) :=
  (List.range 32).filterMap (fun a => (s.physOf (a / 4)).map (fun n =>
    (axisKey a, Health.ofCode (keptHealth (s.health (.stage n (a % 4))).code), { s.healthRec (.stage n (a % 4)) with last := none })))

/-- The axis's AON record after a halt (R256, R258). -/
def State.aonAxis (s : State) (a : Nat) (x : Axis) : Axis :=
  let fast : Bool := match s.axCrew a with
    | some n => decide (f32R (s.rd (Reg.AX_V_SS n (a % 4))) < rabs (fixR x.cvel))
    | none => false
  { Axis.init with s := x.s, ofs := x.ofs, cpos := (x.s + x.ofs) * 4294967296, referenced := x.referenced && !fast, haltFast := x.haltFast || fast }

/-- RPC_RETURNED (R553): the run-time state that returns to its reset value. -/
def State.returnedBits (s : State) (pav : Bool) : Nat :=
  let any (n : Nat) (f : Nat → Bool) : Nat := b2n ((List.range n).any f)
  b2n (decide (s.rd Reg.CTU_TIME_INC ≠ regReset Reg.CTU_TIME_INC)) + 2 * any 4 (fun g => decide (s.num (Reg.RCE_TRG_ARM g) ≠ 0)) +
    4 * any 64 (fun c => decide (s.fld (F.CAP_STATUS_STATE c) ≠ 0)) +
    8 * any 8 (fun n => decide ((s.canOf n).tec ≠ 0) || decide ((s.canOf n).rec_ ≠ 0)) +
    16 * any 1024 (fun x => s.flag (F.CYC_FRC0_ACTIVE x)) + 32 * any 8 (fun m => s.flag (F.CT_CTRL_RUN m)) +
    64 * (if pav then 0 else any 1024 (fun k => decide (s.connState k = 2))) + 128 * b2n (decide (s.fld F.VLT_STATUS_SCOPE ≠ 0))

/-! ## The reset itself (R530 to R532) -/

/-- The pavilion after a reset of PAV (R399): its non-volatile store stays, with the session counter, brake timers and cover count. -/
def PvmState.restart (p : PvmState) : PvmState :=
  { PvmState.init with store := p.store, cover := p.cover, session := p.session, brks := p.brks.map (fun b => (b.1, { Brk.init with min := b.2.min })), minAt := p.minAt }

/-- The state a reset leaves in force: everything that is neither kept nor in AON is at its reset value.  `power`: AON is cleared too; `pav`: the pavilion
restarts; `dram`: the DRAM is initialised. -/
def State.cleared (s : State) (power pav dram : Bool) : State :=
  let isStage (r : Res) : Bool := match r with | .stage _ _ => true | _ => false
  let hs := if power then [] else
    ((regResources.filter (fun r => !isStage r)).map (fun r => (r, keptHealth (s.healthField r)))).filter (fun e => e.2 != 0)
  let st := if power then [] else s.keptStages
  let losses := if power then [] else (List.range 32).map (fun d => (d, s.fld (F.RPC_DOM_LOSSES d)))
  let t : State :=
    { State.reset with
      pending := s.pending, fresh := s.fresh, wire := s.wire
      regs := s.regs.filter (fun e => keptReg pav power e.1)
      mem := s.mem.filter (fun e => keptMem power dram e.1)
      evl := { EvlState.init with queue := s.evl.queue, lostRun := s.evl.lostRun, mirrorIdx := s.evl.mirrorIdx }
      time := if power then { TimeState.init with cycle := s.time.cycle }
        else { s.time with slew := 0, servoWd := 0, ppsOut := false }
      fwl := { FwlState.init with pavLog := if pav then [] else s.fwl.pavLog }
      healths := if power then [] else
        st.foldl (fun l e => Tab.put l e.1 e.2.2) (s.healths.map (fun e => (e.1, { e.2 with last := none })))
      healthX := if power then [] else
        st.foldl (fun l e => Tab.put l e.1 e.2.1) (s.healthX.map (fun e => (e.1, if pav && e.2 == .testing then .retired else e.2)))
      axes := if power then [] else s.axes.map (fun e => (e.1, s.aonAxis e.1 e.2))
      rce := { RecState.init with boat := if power then ⟨none, none⟩ else s.rce.boat }
      seq := { SeqState.init with slots := s.seq.slots.map (fun e => (e.1, { SeqSlot.init with recipe := e.2.recipe })) }
      pvm := if pav then s.pvm.restart else s.pvm
      cyc := s.cyc
      iml := { s.iml with cand := none, repl := none, untested := none }
      rra := if power then { RraState.init with last := (List.range 4).map (fun k => (k, Tab.get (fun _ => 0) s.rra.nv k + 65536)), nv := s.rra.nv } else s.rra
      plk := { PlkState.init with eseen := s.plk.eseen, epoch := s.plk.epoch }
      vlt := { VltState.init with
        pkeys := s.vlt.pkeys, hashes := s.vlt.hashes, pubs := s.vlt.pubs, rows := s.vlt.rows, active := s.vlt.active, bad := s.vlt.bad }
      rpc := s.rpc }
  let t := hs.foldl (fun t e => match e.1.healthFld with | some f => t.setFld f e.2 | none => t) t
  let t := losses.foldl (fun t e => t.setFld (F.RPC_DOM_LOSSES e.1) e.2) t
  let t := t.setFld F.VLT_STATUS_SLOTS (s.fld F.VLT_STATUS_SLOTS)
  let t := if power then t else (t.setFld F.RPC_START_UNCONF (s.fld F.RPC_START_UNCONF)).setFld F.VLT_STATUS_ENTROPY_FAIL (s.fld F.VLT_STATUS_ENTROPY_FAIL)
  let t := (t.setFld F.RPC_SUP_STATUS_VFLD_LOST (s.fld F.RPC_SUP_STATUS_VFLD_LOST)).setFld F.RPC_SUP_STATUS_VFLD_LOW (s.fld F.RPC_SUP_STATUS_VFLD_LOW)
  if power then t else t.setFld F.RPC_CAUSE_STARTS (s.fld F.RPC_CAUSE_STARTS)

/-- A reset from a source with its code (R531, R532): it stays in force until its release.  With the hold-up store failed every start is a POWER_ON
(R549). -/
def State.sysReset (s : State) (code : Nat) (pav : Bool) : State :=
  let power := code == 0 || s.rpc.holdLost
  let code := if power then 0 else match s.rpc.pend with | some c => min c code | none => code
  let pav := pav || power || (s.rpc.pend.isSome && s.rpc.pav)
  let dram := power || code == 1 || code == 8
  let ended := if power then [] else (s.testing pav).map s.byAxis ++ s.rpc.ended
  let dip := s.flag F.RPC_SUP_STATUS_DIP
  let ret := if s.rpc.pend.isSome then s.rpc.returned else s.returnedBits pav
  let s := s.oeWithdraw 2
  let t := s.cleared power pav dram
  let t := if pav then t else (List.range 1024).foldl (fun t k => if t.connState k = 2 then t.setConnState k 1 else t) t
  let t := (List.range 32).foldl (fun t d => if d = 0 ∨ (d = 1 ∧ !pav) ∨ d = 6 ∨ d = 7 ∨ (17 ≤ d ∧ d < 24) then t else t.setFld (F.RPC_DOM_LAST d) 1) t
  let t := t.setFld F.RPC_SUP_STATUS_DIP (b2n (dip && !power && code != 1))
  t.setRpc { RpcState.init with
    pend := some code, pav := pav, follyReq := s.rpc.follyReq, startTmo := s.rpc.startTmo
    dipCut := s.rpc.dipCut && !power, dipAt := s.rpc.dipAt, returned := ret, ended := ended }

/-- IO in its reset state (R349, R551): outputs off, steps not yet emitted discarded. -/
def State.ioReset (s : State) : State :=
  let s := (s.oeWithdraw 2).outputsReset
  s.setAxes (s.axes.map (fun e => (e.1, s.aonAxis e.1 e.2)))

/-! ## Option bytes (R541, R542) -/

def obAddr (k : Nat) : Nat := 0x8B100000 + 0x20 * k

/-- A copy is valid (R541). -/
def obValid (l : List Nat) : Bool :=
  let f (o n : Nat) : Nat := fieldAt l o n
  f 0 4 == 0x594E4D41 && f 4 2 == 1 && decide (10 ≤ f 8 2) && decide (f 8 2 ≤ 600) && decide (1 ≤ f 10 1) && decide (f 10 1 ≤ 7) &&
    decide (f 11 1 ≤ 1) && decide (14000 ≤ f 12 2) && decide (f 12 2 ≤ 28000) &&
    (f 14 2 == 0 || (decide (10 ≤ f 14 2) && decide (f 14 2 ≤ 10000))) && ((l.take 28).drop 16).all (fun b => b == 0) &&
    f 28 4 == crc32c (l.take 28)

/-- The copy the loader uses: with both valid the one whose SEQ is ahead, copy 0 when equal. -/
def obPick (a b : List Nat) : Option Nat :=
  match obValid a, obValid b with
  | true, true => some (if 0 < toSigned 16 (fieldAt b 6 2 + 65536 - fieldAt a 6 2) then 1 else 0)
  | true, false => some 0
  | false, true => some 1
  | false, false => none

/-- Fields of the option bytes in force. -/
def State.obTmo (s : State) : Nat := fieldAt s.rpc.ob 8 2
def State.obFollyN (s : State) : Nat := fieldAt s.rpc.ob 10 1
def State.obRefReq (s : State) : Bool := bit (fieldAt s.rpc.ob 11 1) 0
def State.obWdg (s : State) : Nat := fieldAt s.rpc.ob 14 2

/-- The loader reads both copies (R541). -/
def State.obLoad (s : State) : State :=
  let a := s.rdList (obAddr 0) 32; let b := s.rdList (obAddr 1) 32
  let s := (s.setFld F.RPC_OB_STATUS_BAD_0 (b2n !(obValid a))).setFld F.RPC_OB_STATUS_BAD_1 (b2n !(obValid b))
  match obPick a b with
  | some k => (s.setFld F.RPC_OB_STATUS_IN_FORCE k).setRpc { s.rpc with ob := if k = 0 then a else b }
  | none => s.setRpc { s.rpc with ob := [] }

/-- A commit begins (R542): 24 bytes of the new copy with its SEQ and CRC, for the copy not in force. -/
def State.obBegin (s : State) (l : List Nat) : State :=
  let body := (l.take 6 ++ leBytes 2 (fieldAt s.rpc.ob 6 2 + 1) ++ l.drop 8).take 28
  let k := if s.rpc.ob.isEmpty then 0 else 1 - s.fld F.RPC_OB_STATUS_IN_FORCE
  (s.setFld F.RPC_OB_STATUS_BUSY 1).setRpc { s.rpc with obWrite := some (k, body ++ leBytes 4 (crc32c body)) }

/-! ## Bring-up (R61, R85, R154, R213, R376, R440, R512, R540, R546) -/

/-- The time base after a reset (R61): restored to within 2 ms, or 0 and UNSET at power-on. -/
def State.timeRestore (s : State) (power : Bool) : State :=
  if power then s
  else
    let (e, s) := s.freshInt
    let ms := s.elapsed - s.time.aonMs
    let s := s.setTime { s.time with now := s.time.aonSnap.move (ms * 1000000 * 2 ^ 24 + clampInt (-(2000000 * 2 ^ 24)) (2000000 * 2 ^ 24) e) }
    ((s.setNum Reg.CTU_TIME_STATE 0x101).log 0x0219 0 ms).aonKeep

/-- A domain's bits once it is released; one retired for its clock stays held (R538, R539). -/
def State.releaseDomain (s : State) (d : Nat) : State :=
  let s := s.setFld (F.RPC_DOM_CLK_GOOD d) 1
  if s.domainRetired d then s.setFld (F.RPC_DOM_HELD d) 1 else s.setFld (F.RPC_DOM_RELEASED d) 1

/-- The domains of R529. -/
def domains : List Nat := [0, 1, 2, 3, 4, 5] ++ (List.range 9).map (fun n => 8 + n) ++ (List.range 8).map (fun c => 24 + c)

/-- The boot ROM finds base firmware (R512): the slots' checks, none when both fail. -/
def State.fwBoot (s : State) : Option State :=
  let k := s.fwActive 1
  let chk (k : Nat) : Nat × List Nat :=
    let a := fwSlotAddr 1 k
    let l := s.rdList a (min (s.rdMem (a + 8) 4) 0x800000)
    (if s.fwBad 1 k then 2 else if fwKind l ≠ 1 then 2 else s.fwCheck l, l)
  let run (s : State) (l : List Nat) : State := (s.extendMeas 0 ((l.drop 0x40).take 48)).fwRuns l
  match chk k with
  | (0, l) => some (run s l)
  | (c, _) =>
    match chk (1 - k) with
    | (0, l) => some (run ((s.fwRefused c 1 k).setFwActive 1 (1 - k)) l)
    | _ => none

/-- Every resident recipe is verified again (R213). -/
def State.recipesAgain (s : State) : State :=
  (List.range 16).foldl (fun s r =>
    match (s.slotOf r).recipe with
    | none => s
    | some old =>
      match s.recipeVerify (rcpArea r) (min (s.rdMem (rcpArea r + 8) 4) 0x400000) with
      | (0, some rc) => (s.rcpShow r (some rc)).setRcp r 1 6
      | (7, _) => (s.rcpShow r (some old)).setRcp r 9 6
      | (c, _) => (((s.clearMem (rcpArea r) 0x400000).rcpShow r none).setRcp r 0 6).log 0x071F 0 (r * 2 ^ 16 + c)) s

/-- The crews are released (R85, R301, R376, R440, R465): the record engine, the program and the pair take up their work. -/
def State.crewsRelease (s : State) (power : Bool) : State :=
  let s := s.setRpc { s.rpc with released := true }
  let s := if s.flag F.RCE_CTRL_AUTO_EXP then s.setFld F.RCE_CTRL_EXP_EN 1 else s
  let s := if s.flag F.RCE_CTRL_AUTO_RUN then s.recRun else s
  let s := s.ckResync.cycReset power none
  if s.flag F.PLK_CFG_PAIR_EN then s.pairListen else s.resumeOwn 6 power

/-- Folly mode is entered (R546, R547): AON, the pavilion and AC_0 run; NET, ANA and the crews stay held. -/
def State.enterFolly (s : State) (reason : Nat) : State :=
  let s := s.setRpc { s.rpc with folly := reason, released := false, timer := false }
  let s := ((s.setFld F.RPC_CAUSE_FOLLY 1).oeWithdraw 3).clearForces
  let held := domains.filter (fun d => !([0, 1, 2, 24].contains d))
  ((held.foldl (fun s d => s.setFld (F.RPC_DOM_RELEASED d) 0) s).log 0x0116 0 reason).chooseSpare

/-- The reason to enter folly mode before AC_0 starts (R546). -/
def State.follyDue (s : State) (sw21 : Bool) : Option Nat :=
  if s.rpc.ob.isEmpty then some 1
  else if s.rpc.noRef && s.obRefReq then some 6
  else if s.obFollyN ≤ s.fld F.RPC_START_UNCONF then some 2
  else if sw21 then some 3
  else if s.rpc.follyReq then some 5
  else none

/-- The first events of a start (R30, R541, R553, R555). -/
def State.startEvents (s : State) : State :=
  let s := s.log 0x0110 0 (s.num Reg.RPC_CAUSE)
  let s := if s.rpc.ob.isEmpty then s
    else (s.logIf (s.flag F.RPC_OB_STATUS_BAD_0) 0x0115 0 0).logIf (s.flag F.RPC_OB_STATUS_BAD_1) 0x0115 0 1
  let s := s.logIf s.rpc.noRef 0x011F 0 0
  let s := s.logIf (s.rpc.returned != 0) 0x011C 0 s.rpc.returned
  s.rpc.ended.foldl (fun s r => s.logRes r 6 0xFFFFFFFF) s

/-- The bring-up after a reset with a code: `sw21` is SW_21 as a pavilion START of this reset latches it, `ms` the milliseconds AON counted
while the reset was in force. -/
def State.bringUp (s : State) (sw21 : Bool) (ms code : Nat) : State :=
  let power := code == 0
  let s := s.setElapsed (if power then 0 else s.elapsed + ms)
  let s := s.obLoad
  let sw := if s.rpc.pav then sw21 else bit (s.fld F.PVM_SWITCH_SW) 20
  let due := s.follyDue sw
  let starts := min 0xFFFF (s.fld F.RPC_CAUSE_STARTS + 1)
  let unconf := if due.isSome then s.fld F.RPC_START_UNCONF else min 7 (s.fld F.RPC_START_UNCONF + 1)
  let s := s.setFld F.RPC_START_UNCONF unconf
  let s := s.setNum Reg.RPC_CAUSE (starts * 2 ^ 16 + unconf * 2 ^ 8 + b2n due.isSome * 2 ^ 6 + b2n s.rpc.dipCut * 2 ^ 5 + b2n s.rpc.startTmo * 2 ^ 4 + code)
  let s := (s.setFld F.RPC_RETURNED_RETURNED s.rpc.returned).timeRestore power
  let s := s.setFld F.VLT_STATUS_SW18 (bitsOf (s.rd Reg.PVM_SWITCH) 17 1)
  let s := s.setFld F.RPC_WDG_STATUS_TIMEOUT_MS s.obWdg
  let s := domains.foldl (fun s d => s.releaseDomain d) s.startEvents
  let s := s.setRpc { s.rpc with
    pend := none, pav := false, follyReq := false, startTmo := false, returned := 0, ended := []
    dipCut := s.rpc.dipCut && s.flag F.RPC_SUP_STATUS_DIP, kicks := [(0, s.time.cycle)], half := false, startAt := s.time.cycle, timer := due.isNone }
  match due with
  | some r => s.enterFolly r
  | none =>
    match s.fwBoot with
    | none => s.enterFolly 4
    | some s =>
      let s := s.imlLoad.calReload
      let s := s.recipesAgain
      if s.flag F.IML_STATUS_NO_IMAGE then s.cycReset power none else s.crewsRelease power

end Sys2Proof.Machine
end

