-- ==== Sys2Proof/Machine/Rpc.lean ====
section
/-! DEFINITION. The commands of reset, power and folly mode (chapter 19), the pavilion's START, SAFE and output enable (R401 to R404), and the
image switch (R84).  `d` is a domain, `c` a core. -/
namespace Sys2Proof.Machine

/-- Sets one flag of RPC_IRQ (R554). -/
def State.rpcIrq (s : State) (b : Nat) : State := s.setRbit Reg.RPC_IRQ b true

/-! ## Reset sources (R531, R536, R540) -/

/-- POWER_ON (R531); in park it ends park (R552). -/
def execPowerOn (s : State) : Host.Outcome State Fault Refusal :=
  let parked := s.rpc.low == 2
  .next ((s.sysReset 0 true).logIf parked 0x011E 0 2)

/-- RESET_PIN (R531); in park it ends park (R552). -/
def execResetPin (s : State) : Host.Outcome State Fault Refusal :=
  let parked := s.rpc.low == 2
  .next ((s.sysReset 2 true).logIf parked 0x011E 0 2)

/-- RESET_RELEASE (R531, R540): ignored without a reset in force, and in park. -/
def execResetRelease (sw21 : Bool) (ms : Nat) (_u : Unit) (s : State) : Host.Outcome State Fault Refusal :=
  match s.rpc.pend with
  | none => .next s
  | some code => if s.rpc.low = 2 then .next s else .next (s.bringUp sw21 ms code)

/-- REFCLK_TIMEOUT (R540 step 4): what follows depends on REFCLK_REQ and is decided at the release. -/
def execRefclkTimeout (s : State) : Host.Outcome State Fault Refusal :=
  if s.rpc.pend.isSome then .next (s.setRpc { s.rpc with noRef := true }) else .next s

/-- The fabric cycle of the last kick of watchdog `c`: 0 system, 1 to 7 core. -/
def State.kickAt (s : State) (c : Nat) : Nat := Tab.get (fun _ => 0) s.rpc.kicks c
/-- Restarts watchdog `c`. -/
def State.kick (s : State) (c : Nat) : State := s.setRpc { s.rpc with kicks := Tab.put s.rpc.kicks c s.time.cycle, half := s.rpc.half && c != 0 }

/-- The system watchdog runs: enabled, from the release of AC_0 on (R536). -/
def State.sysWdgRuns (s : State) : Bool := s.rpc.pend.isNone && s.fld F.RPC_WDG_STATUS_TIMEOUT_MS != 0

/-- SYS_WDG_EXPIRE (R536): the timeout has passed since the last kick. -/
def execSysWdgExpire (s : State) : Host.Outcome State Fault Refusal :=
  if s.sysWdgRuns && s.lasted (s.kickAt 0) (s.fld F.RPC_WDG_STATUS_TIMEOUT_MS * cycPerMs) then .next (s.sysReset 4 false) else .next s

/-- SYS_WDG_HALF (R536): half the timeout has passed, once for each kick. -/
def execSysWdgHalf (s : State) : Host.Outcome State Fault Refusal :=
  if s.sysWdgRuns && !s.rpc.half && s.lasted (s.kickAt 0) (s.fld F.RPC_WDG_STATUS_TIMEOUT_MS * cycPerMs / 2) then
    .next ((s.setRpc { s.rpc with half := true }).rpcIrq 6)
  else .next s

/-- SYS_WDG_KICK (R536): a write to RPC_WDG_KICK from AC_0. -/
def execSysWdgKick (v : Word) (s : State) : Host.Outcome State Fault Refusal :=
  if v = 0x5AA5 then .next (s.kick 0) else .next s

/-- AC0_FREEZE_TIMER (R496, R536): 1 000 ms after the violation that froze AC_0. -/
def execAc0FreezeTimer (s : State) : Host.Outcome State Fault Refusal :=
  if s.fwl.ac0Timer && (Tab.find s.fwl.viols 0).any (fun v => s.lasted v.at_ (1000 * cycPerMs)) then .next (s.sysReset 4 false) else .next s

/-- START_TIMER_EXPIRE (R545): START_TMO_S have passed. -/
def execStartTimerExpire (s : State) : Host.Outcome State Fault Refusal :=
  if !s.rpc.timer || !s.lasted s.rpc.startAt (s.obTmo * 1000 * cycPerMs) then .next s
  else
    let s := s.log 0x0118 0 s.obTmo
    .next ((s.setRpc { s.rpc with startTmo := true }).sysReset 4 false)

/-- START_OK (R544): a write of AC_0. -/
def execStartOk (s : State) : Host.Outcome State Fault Refusal :=
  let n := s.fld F.RPC_START_UNCONF
  .next ((((s.setFld F.RPC_START_UNCONF 0).setFld F.RPC_START_CONFIRMED 1).setRpc { s.rpc with timer := false }).log 0x0117 0 n)

/-- RPC_FOLLY_REQUEST (R546). -/
def execRpcFollyRequest (src : Fin 160) (key : Byte) (go : Bool) (s : State) : Host.Outcome State Fault Refusal :=
  if src.val ≠ 0 ∨ key.toNat ≠ 0xA5 ∨ go = false then .next s
  else .next ((s.setRpc { s.rpc with follyReq := true }).sysReset 6 false)

/-- IML_ACTIVATE (R84, R94). -/
def execImlActivate (s : State) : Host.Outcome State Fault Refusal :=
  if s.imlState = 0 ∧ (s.slotIml s.inactive).valid then
    let s := s.log 0x0322 0 s.inactive
    .next ((s.setIml { s.iml with boot := s.inactive }).sysReset 7 false)
  else .next s.imlIgnore

/-! ## Domain resets (R533, R535) -/

/-- The tests a reset of some resources abandons (R30). -/
def State.endTests (s : State) (l : List Res) : State :=
  l.foldl (fun s r => if s.healthField r = 3 then (s.setHealth r .retired).logRes r 6 0xFFFFFFFF else s) s

/-- Clears the registers of a range of control space and applies the image's again (R535, R540); health states stay. -/
def State.resetBlock (s : State) (lo hi : Nat) (l : List Res) : State :=
  let hs := l.map (fun r => (r, s.healthField r))
  let s := { s with regs := s.regs.filter (fun e => decide (e.1 < lo) || decide (hi ≤ e.1)) }
  let s := hs.foldl (fun s e => match e.1.healthFld with | some f => s.setFld f e.2 | none => s) s
  match (if s.rpc.released then s.runCont else none) with
  | some c => (c.regs.filter (fun e => decide (lo ≤ e.1) && decide (e.1 < hi))).foldl (fun s e => s.imgWrite e.1 e.2) s
  | none => s

/-- A NET reset (R376, R395, R535). -/
def State.resetNet (s : State) : State :=
  let cans := (List.range 8).map Res.can; let eths := (List.range 6).map Res.eth
  let s := s.endTests (cans ++ eths ++ [.lane 0, .lane 1])
  let s := ((s.resetBlock 0xE0200000 0xE0280000 cans).resetBlock 0xE0300000 0xE0360000 eths).clearMem 0xE0200000 0x200000
  let s := { s with cans := [], eths := (List.range 6).map (fun n => (n, { EthState.init with last := s.time.cycle })), prps := [] }
  let s := s.setPlk { s.plk with links := [], rx := none, cut := none }
  let s := (s.setFld F.PLK_STATUS_PATHS 0).setVlt { s.vlt with vkeys := [] }
  let s := (List.range 1024).foldl (fun s k => if s.connState k = 2 then s.setConnState k 1 else s) s
  s.releaseAll ((List.range 16).map (fun i => 144 + i))

/-- An ANA reset (R137, R154, R535). -/
def State.resetAna (s : State) : State :=
  let l := (List.range 20).map Res.conv ++ (List.range 8).map Res.tdac
  let s := if s.calState = 0 then s else s.calIdle.calRefuse 0x0A s.cal.ch s.cal.range
  let s := (s.endTests l).resetBlock 0xE00B0000 0xE00C0000 l
  let s := { s with convs := [], pairs := [], owRun := [], cal := Cal.init }.calReload
  (List.range 8).foldl State.pairRefresh s

/-- A CREW_n reset (R88, R534, R535). -/
def State.resetCrewDomain (s : State) (n : Nat) : State :=
  let s := s.endTests (.crew n :: (List.range 8).map (Res.cdm n))
  (s.resetCrew n).releaseAll ((List.range 12).map (crewMaster n))

/-- An AC_c reset (R467, R535). -/
def State.resetCore (s : State) (c : Nat) : State :=
  let s := s.releaseAll [c]
  if c = 1 ∧ s.cycState = 3 then s.cycStopWith 2 else s

/-- A domain reset with its cause: 2 software, 3 core watchdog, 4 lockstep (R535, R555). -/
def State.domainReset (s : State) (d cause : Nat) : State :=
  let s := (s.setFld (F.RPC_DOM_LAST d) cause).log 0x011A (0xC000 + d) cause
  if d = 4 then s.resetNet
  else if d = 5 then s.resetAna
  else if 8 ≤ d ∧ d < 17 then s.resetCrewDomain (d - 8)
  else s.resetCore (d - 24)

/-- The cycle a domain's clock was lost, or its clock check began, in (R538, R539). -/
def State.clkNote (s : State) (d : Nat) : State := s.setRpc { s.rpc with clkAt := Tab.put s.rpc.clkAt d s.time.cycle }
def State.clkAt (s : State) (d : Nat) : Nat := Tab.get (fun _ => 0) s.rpc.clkAt d

/-- A domain a request may name (R533). -/
def State.domainFree (s : State) (d : Nat) : Bool :=
  decide (d = 4) || decide (d = 5) || (decide (25 ≤ d) && decide (d < 32)) ||
    (decide (8 ≤ d) && decide (d < 17) &&
      (s.crewFree (d - 8) || (s.health (.crew (d - 8)) == .retired && !s.flag (F.LSM_STATUS_STRANDED (d - 8)))))

/-- A request to reset a domain (R533, R539): one retired for its clock is reset and runs its clock check. -/
def State.domainRequest (s : State) (src key d : Nat) : State :=
  if src ≠ 0 ∨ key ≠ 0xA5 then s
  else if d = 2 then s.sysReset 5 false
  else if !s.domainFree d then s.log 0x011B 0 d
  else
    match s.health (.domain d) with
    | .retired => (((s.domainReset d 2).readmit (.domain d)).clkNote d).rpcIrq 5
    | .testing => ((s.endTests [.domain d]).domainReset d 2).rpcIrq 5
    | _ => s.domainReset d 2

/-- DOMAIN_RESET_REQUEST (R533): a write of RPC_SWRST. -/
def execDomainResetRequest (src : Fin 160) (key d : Byte) (s : State) : Host.Outcome State Fault Refusal :=
  .next (s.domainRequest src key.toNat d.toNat)

/-- CORE_WDG_EXPIRE (R537): the timeout has passed since the last kick, or since the watchdog was enabled.  DESIGN CHOICE (notes/assumptions/121.md):
after an expiry it runs again from there. -/
def execCoreWdgExpire (c : Fin 8) (s : State) : Host.Outcome State Fault Refusal :=
  if c.val = 0 ∨ !s.flag (F.RPC_CWD_EN c) ∨ !s.lasted (s.kickAt c) (s.fld (F.RPC_CWD_TIMEOUT_MS c) * cycPerMs) then .next s
  else .next ((((s.setFld (F.RPC_CWD_EXPIRED c) 1).kick c).domainReset (24 + c) 3).rpcIrq 4)

/-- CORE_WDG_KICK (R537): a write of RPC_CWD_KICK by core `c`. -/
def execCoreWdgKick (c : Fin 8) (s : State) : Host.Outcome State Fault Refusal :=
  if c.val = 0 then .next s else .next (s.kick c)

/-! ## Clock-good (R538, R539) -/

/-- A domain that clock-good gates after its release without a CLOCK reset. -/
def gated (d : Nat) : Bool := decide (d = 4) || decide (d = 5) || (decide (8 ≤ d) && decide (d < 17)) || (decide (25 ≤ d) && decide (d < 32))

/-- What the loss abandons in its domain (R538), and what its retirement does (R539). -/
def State.heldWork (s : State) (d : Nat) : State :=
  if 8 ≤ d ∧ d < 17 then
    let n := d - 8
    let s := (s.entriesIn n .issued).foldl (fun s e => s.dropEntry n e.1 e.2) s
    if s.domainRetired d then s.crewFatal n 4 else s
  else if d = 25 ∧ s.domainRetired d ∧ s.cycState = 3 then s.cycStopWith 2
  else s

/-- CLOCK_GOOD_LOSS (R538): of a released domain. -/
def execClockGoodLoss (d : Fin 32) (s : State) : Host.Outcome State Fault Refusal :=
  if !s.flag (F.RPC_DOM_RELEASED d) || s.flag (F.RPC_DOM_HELD d) then .next s
  else if d.val = 2 ∨ d.val = 3 then .next (s.sysReset 9 false)
  else if !gated d then .next s
  else
    let s := ((s.setFld (F.RPC_DOM_HELD d) 1).setFld (F.RPC_DOM_CLK_GOOD d) 0).countFld (F.RPC_DOM_LOSSES d) 1
    let s := (s.clkNote d).transient (.domain d) 1
    let s := (s.log 0x0119 (0xC000 + d) (s.healthRec (.domain d)).count).rpcIrq 5
    .next (s.heldWork d)

/-- CLOCK_GOOD_RETURN (R538, R539): clock-good present for 10 µs, at the earliest 10 µs after its loss. -/
def execClockGoodReturn (d : Fin 32) (s : State) : Host.Outcome State Fault Refusal :=
  if !s.flag (F.RPC_DOM_HELD d) || !s.lasted (s.clkAt d) (10 * cycPerUs) then .next s
  else if s.inUse (.domain d) then .next ((s.setFld (F.RPC_DOM_CLK_GOOD d) 1).setFld (F.RPC_DOM_HELD d) 0)
  else .next (s.setFld (F.RPC_DOM_CLK_GOOD d) 1)

/-- The verdict of a domain's test (R539) after its 1 s: a domain that passes is in use again. -/
def State.domainTested (s : State) (d code : Nat) : State :=
  if s.health (.domain d) ≠ .testing || !s.lasted (s.clkAt d) (1000 * cycPerMs) then s
  else if code = 0 then
    (((s.testPassed (.domain d)).setFld (F.RPC_DOM_HELD d) 0).setFld (F.RPC_DOM_CLK_GOOD d) 1).setFld (F.RPC_DOM_RELEASED d) 1 |>.rpcIrq 5
  else (s.testFailed (.domain d) code).rpcIrq 5

/-- DOMAIN_CLOCK_CHECK_DONE (R539): the 1 s check of a domain under re-admission ends. -/
def execDomainClockCheckDone (d : Fin 32) (ok : Bool) (s : State) : Host.Outcome State Fault Refusal :=
  .next (s.domainTested d (if ok then 0 else 1))

/-! ## Pavilion (R401 to R404, R521) -/

/-- PAR_DIFF after a START (R408): the set in force differs from the running image's PAVILION section. -/
def State.parDiff (s : State) : State :=
  match s.runCont with
  | some c => s.setFld F.PVM_STATUS_PAR_DIFF (b2n (crc32c c.par != parCrc s.pvm.par))
  | none => s

/-- PAVILION_START_DONE (R401, R404, R521, R525): START ends in RUN, or in SAFE with the safe reset. -/
def execPavilionStartDone (switches : BitVec 24) (selftest : Bool) (s : State) : Host.Outcome State Fault Refusal :=
  if s.pavState ≠ 0 then .next s
  else
    let (t, c) := s.pavStartEnd switches.toNat selftest
    let t := t.extendMeas 6 (beBytes 48 (sha384 ((List.range parLen).map (fun i => Tab.get (fun _ => 0) t.pvm.par i))))
    let t := t.setFld F.VLT_STATUS_SW18 (b2n (bit switches.toNat 17))
    match c with
    | some cause => .next ((t.pavSafe cause).sysReset 3 false)
    | none => .next t.parDiff.seritStart

/-- PAVILION_SAFE_ENTRY (R401). -/
def execPavilionSafeEntry (cause : BitVec 4) (s : State) : Host.Outcome State Fault Refusal :=
  if s.pavState = 2 then .next s else .next ((s.pavSafe cause.toNat).sysReset 3 false)

/-- SWITCH_CHECK (R404). -/
def execSwitchCheck (switches : BitVec 24) (s : State) : Host.Outcome State Fault Refusal :=
  let old := s.fld F.PVM_SWITCH_SW
  if s.pavState ≠ 1 ∨ old = switches.toNat then .next s
  else .next (((s.log 0x0D12 0 (old ^^^ switches.toNat)).pavSafe 4).sysReset 3 false)

/-- OUTPUT_ENABLE_GRANT (R402, R234): in RUN with the crews released, not in folly mode. -/
def execOutputEnableGrant (s : State) : Host.Outcome State Fault Refusal :=
  if s.pavState ≠ 1 || !s.rpc.released || s.rpc.folly != 0 || s.rpc.pend.isSome || s.rpc.brown || s.rpc.low == 2 || s.oe then .next s
  else .next (((((s.valvesClear.setFld F.PVM_STATUS_OE 1).heatersEnable).log 0x0D15 0 0).pvmIrq 0).autoResume)

/-! ## Option bytes (R542) -/

/-- OB_COMMIT (R542): COMMIT by AC_0; ignored while one is in progress. -/
def execObCommit (s : State) : Host.Outcome State Fault Refusal :=
  if s.flag F.RPC_OB_STATUS_BUSY then .next s
  else .next (s.obBegin ((List.range 7).flatMap (fun w => leBytes 4 (s.num (Reg.RPC_OB_STAGE w)))))

/-- OB_COMMIT_DONE (R542): the copy is written and read back; what a failed write leaves in the copy is free. -/
def execObCommitDone (ok : Bool) (s : State) : Host.Outcome State Fault Refusal :=
  match s.rpc.obWrite with
  | none => .next s
  | some (k, l) =>
    let s := (s.setFld F.RPC_OB_STATUS_BUSY 0).setRpc { s.rpc with obWrite := none }
    if ok then .next (s.wrList (obAddr k) l)
    else
      let (x, s) := s.freshNat
      .next ((s.wrMem (obAddr k) 32 x).setFld F.RPC_OB_STATUS_OB_FAIL 1)

/-! ## Supplies (R549 to R551) -/

/-- CKSEQ of the newest dip cut: the one being written, or the next to be written. -/
def State.dipSeq (s : State) : Nat :=
  match s.seq.dip with
  | some a => s.rdMem (fastAddr a + 8) 4
  | none => (s.num Reg.SEQ_CKPT_LAST + 1) % 2 ^ 32

/-- VIN_DIP_SET (R549, R550): VIN below 19.0 V. -/
def execVinDipSet (mv : BitVec 16) (s : State) : Host.Outcome State Fault Refusal :=
  let s := s.setFld F.RPC_SUPPLY_VIN_MV mv.toNat
  if s.flag F.RPC_SUP_STATUS_DIP || decide (19000 ≤ mv.toNat) then .next s
  else
    let busy := s.seq.cuts.any (fun c => c.dip)
    let s := ((s.setFld F.RPC_SUP_STATUS_DIP 1).setFld F.RPC_SUP_STATUS_DIP_SET 1).count Reg.RPC_DIP_COUNT 1
    let s := (s.log 0x0111 0 mv.toNat).rpcIrq 1
    let s := s.setRpc { s.rpc with dipAt := s.time.cycle, dipCut := busy, dipWait := !busy }
    let s := s.setSeq { s.seq with dip := none }
    .next (s.writeShadow.recModule 2 s.dipSeq [])

/-- VIN_DIP_CLEAR (R231, R549, R550): VIN at or above 19.5 V for 1 ms ends the dip without a brown-out. -/
def execVinDipClear (mv : BitVec 16) (s : State) : Host.Outcome State Fault Refusal :=
  let s := s.setFld F.RPC_SUPPLY_VIN_MV mv.toNat
  if !s.flag F.RPC_SUP_STATUS_DIP || s.rpc.brown || decide (mv.toNat < 19500) || !s.lasted s.rpc.dipAt cycPerMs then .next s
  else
    let q := s.dipSeq
    let s := (s.setFld F.RPC_SUP_STATUS_DIP 0).setFld F.RPC_SUP_STATUS_DIP_END 1
    let s := (s.log 0x0112 0 ((s.time.cycle - s.rpc.dipAt) / 600)).rpcIrq 2
    let s := s.setRpc { s.rpc with dipCut := false }
    .next (s.dipUnused.recModule 3 q [])

/-- A cut from the state at the halt (R551): every crew and the program's variables as they stand. -/
def State.haltCut (s : State) : State :=
  let ref := s.fld F.SEQ_CKPT_CFG_REF
  let s := s.ckptCut ref (s.num (Reg.CT_LAST_CSEQ ref)) true
  match s.seq.cuts.getLast? with
  | none => s
  | some c =>
    let s := (List.range 8).foldl (fun s m =>
      if (c.cseqs.getD m none).isNone && (s.physOf m).isSome then s.cutAxes c.buf m else s) s
    let (s, c) := s.cutLoops c (fun _ => true)
    let c := { c with cseqs := (List.range 8).map (fun m =>
      if (s.physOf m).isNone then none else some ((c.cseqs.getD m none).getD (s.num (Reg.CT_LAST_CSEQ m)))) }
    let s := s.putCut c
    (if c.vars.isSome then s else s.cutProg c).ckptStart

/-- BROWN_OUT (R551 steps 1 to 3): IO is reset, output enable is withdrawn, crews and cores halt, and the dip cut is made unless one was taken. -/
def execBrownOut (s : State) : Host.Outcome State Fault Refusal :=
  if s.rpc.brown || s.rpc.pend.isSome then .next s
  else
    let s := (if s.rpc.dipCut then s else s.writeShadow.haltCut).ioReset
    .next (s.setRpc { s.rpc with brown := true, brownAt := s.time.cycle, dipCut := true, dipWait := false })

/-- BROWN_OUT_FINAL_RESET (R551 step 4): the writes are complete, or 15 ms have passed. -/
def execBrownOutFinalReset (s : State) : Host.Outcome State Fault Refusal :=
  if s.rpc.brown && ((s.seq.cuts.isEmpty && s.seq.repCut.isNone) || s.lasted s.rpc.brownAt (15 * cycPerMs)) then .next (s.sysReset 1 true) else .next s

/-- VFLD_WARNING (R549): the warning is set below VFLD_WARN_MV, and cleared 500 mV above it. -/
def execVfldWarning (low : Bool) (mv : BitVec 16) (s : State) : Host.Outcome State Fault Refusal :=
  let s := s.setFld F.RPC_SUPPLY_VFLD_MV mv.toNat
  let warn := fieldAt s.rpc.ob 12 2
  if s.flag F.RPC_SUP_STATUS_VFLD_LOW == low || !(if low then decide (mv.toNat < warn) else decide (warn + 500 ≤ mv.toNat)) then .next s
  else
    let s := ((s.setFld F.RPC_SUP_STATUS_VFLD_LOW (b2n low)).setFld F.RPC_SUP_STATUS_VFLD_CHG 1).rpcIrq 3
    .next (s.log (if low then 0x0113 else 0x0114) 0 mv.toNat)

/-- VFLD_LOST (R347, R549): lost below 10.0 V, or back at 12.0 V. -/
def execVfldLost (lost : Bool) (mv : BitVec 16) (s : State) : Host.Outcome State Fault Refusal :=
  let s := s.setFld F.RPC_SUPPLY_VFLD_MV mv.toNat
  if s.flag F.RPC_SUP_STATUS_VFLD_LOST == lost || !(if lost then decide (mv.toNat < 10000) else decide (12000 ≤ mv.toNat)) then .next s
  else
    let s := ((s.setFld F.RPC_SUP_STATUS_VFLD_LOST (b2n lost)).setFld F.RPC_SUP_STATUS_VFLD_CHG 1).rpcIrq 3
    let s := s.log (if lost then 0x0113 else 0x0114) 0 (mv.toNat + (if lost then 2 ^ 31 else 0))
    .next ((List.range 4).foldl (fun s g => if lost then s.coilAbsent g else s.coilBack g) s)

/-- HOLDUP_LOST (R549): the next start is POWER_ON; a reset in force or park becomes one. -/
def execHoldupLost (s : State) : Host.Outcome State Fault Refusal :=
  let parked := s.rpc.low == 2
  if s.rpc.pend.isSome then .next ((s.sysReset 0 true).logIf parked 0x011E 0 2) else .next (s.setRpc { s.rpc with holdLost := true })

/-! ## Low power (R552) -/

/-- Why a low-power request is refused: bit 0 catch table, 1 recipe, 2 program. -/
def State.lowPowerBar (s : State) : Nat :=
  b2n ((List.range 8).any (fun m => s.flag (F.CT_CTRL_RUN m))) + 2 * b2n ((List.range 16).any s.rcpActive) + 4 * b2n (decide (s.cycState = 3))

/-- EASY_ENTER (R552): by AC_0 with the key. -/
def execEasyEnter (s : State) : Host.Outcome State Fault Refusal :=
  if s.rpc.low ≠ 0 ∨ s.rpc.pend.isSome then .next s
  else if s.lowPowerBar ≠ 0 then .next (s.log 0x0120 0 s.lowPowerBar)
  else .next ((s.setRpc { s.rpc with low := 1 }).log 0x011D 0 1)

/-- EASY_EXIT (R552): at any source enabled for AC_0's machine context. -/
def execEasyExit (s : State) : Host.Outcome State Fault Refusal :=
  if s.rpc.low ≠ 1 ∨ !(List.range 448).any (fun i => s.irqEnabled 0 i && s.irqLevel i) then .next s else .next (((s.setRpc { s.rpc with low := 0 }).log 0x011E 0 1).rpcIrq 7)

/-- PARK_ENTER (R402, R552): by AC_0 with the key; the compute die is off until park ends. -/
def execParkEnter (s : State) : Host.Outcome State Fault Refusal :=
  if s.rpc.low ≠ 0 ∨ s.rpc.pend.isSome then .next s
  else if s.lowPowerBar ≠ 0 then .next (s.log 0x0120 0 s.lowPowerBar)
  else
    let wake := s.num Reg.RPC_PARK_WAKE
    let s := (s.log 0x011D 0 2).sysReset 8 false
    .next (s.setRpc { s.rpc with low := 2, wake := wake })

/-- PARK_WAKE (R552): RPC_ELAPSED reaches `ms`, the value written to RPC_PARK_WAKE. -/
def execParkWake (s : State) : Host.Outcome State Fault Refusal :=
  if s.rpc.low ≠ 2 ∨ s.rpc.wake = 0 then .next s
  else
    let e := s.elapsed
    let s := s.setElapsed (e + (s.rpc.wake + 2 ^ 32 - e % 2 ^ 32) % 2 ^ 32)
    .next ((s.setRpc { s.rpc with low := 0 }).log 0x011E 0 2)

/-! ## Recovery (R547, R548) -/

/-- A recovery request with a code (R548): its SEQ and payload; a frame whose CRC fails is dropped. -/
def recoveryIn (code : Nat) (l : List Nat) : Option (Nat × List Nat) :=
  let len := fieldAt l 8 4
  if fieldAt l 0 4 = 0x554E4D41 ∧ fieldAt l 4 2 = code ∧ len ≤ 0x2000000 ∧ l.length = 0x14 + len ∧
      fieldAt l (0x10 + len) 4 = crc32c (l.take (0x10 + len)) then
    some (fieldAt l 0x0C 4, (l.drop 0x10).take len)
  else none

/-- A response: RESULT is the first word of its payload. -/
def State.recoveryOut (s : State) (code seq result : Nat) (l : List Nat) : State :=
  let b := leBytes 4 0x554E4D41 ++ leBytes 2 (code + 0x8000) ++ leBytes 2 0 ++ leBytes 4 (l.length + 4) ++ leBytes 4 seq ++ leBytes 4 result ++ l
  s.emit (.frame 0x5500 (b ++ leBytes 4 (crc32c b)))

/-- A request is answered in folly mode only. -/
def State.recovery (s : State) (code : Nat) (l : List Byte) (f : State → Nat → List Nat → State) : State :=
  if s.rpc.folly = 0 ∨ s.rpc.pend.isSome then s
  else match recoveryIn code (l.map BitVec.toNat) with
    | some (seq, p) => f s seq p
    | none => s

/-- RECOVERY_IDENT (R548). -/
def execRecoveryIdent (frame : List Byte) (s : State) : Host.Outcome State Fault Refusal :=
  .next (s.recovery 1 frame (fun s seq _ => s.recoveryOut 1 seq 0
    (leBytes 8 (Config.keyId % 2 ^ 64) ++ leBytes 4 (s.num Reg.RPC_CAUSE) ++ leBytes 4 s.rpc.folly ++ leBytes 4 (s.fld F.VLT_STATUS_SLOTS))))

/-- A structure image staged and made active in folly mode (R84, R548): the code of R83. -/
def State.recoveryImage (s : State) (l : List Nat) (c : ImgContent) : Nat × State :=
  let k := s.inactive
  let (code, _) := s.imgVerify l c false
  if code ≠ 0 then (code, s)
  else
    let s := ((s.clearMem (imgSlotAddr k) 0x2000000).wrList (imgSlotAddr k) l)
    let (code, _) := s.imgVerify (s.rdList (imgSlotAddr k) l.length) c false
    if code ≠ 0 then (code, (s.setSlotIml k ImgSlot.init).syncSlots)
    else
      let h := imgHdrOf l
      let s := ((s.setSlotIml k ⟨false, some h, some (imgHolds l c)⟩).setIml { (s.setSlotIml k ⟨false, some h, some (imgHolds l c)⟩).iml with boot := k }).syncSlots
      (0, s.log 0x0320 0 (h.id % 2 ^ 32))

/-- RECOVERY_STORE (R512, R513, R548): a firmware image or a structure image. -/
def execRecoveryStore (frame : List Byte) (c : ImgContent) (_u : Unit) (s : State) : Host.Outcome State Fault Refusal :=
  .next (s.recovery 2 frame (fun s seq l =>
    if fieldAt l 0 4 = 0x574E4D41 then
      let code := s.fwCheck l
      if code ≠ 0 then (s.fwRefused code (fwKind l) (1 - s.fwActive (fwKind l))).recoveryOut 2 seq (code + 2 ^ 8) []
      else
        let (code, s) := s.fwStore l
        s.recoveryOut 2 seq (if code = 0 then 0 else code + 2 ^ 8) []
    else if fieldAt l 0 4 = 0x494E4D41 ∧ !(imgHdrOf l).isPart then
      let (code, s) := s.recoveryImage l c
      s.recoveryOut 2 seq (if code = 0 then 0 else code + 2 * 2 ^ 8) []
    else s.recoveryOut 2 seq (2 + 2 ^ 8) []))

/-- RECOVERY_OB_WRITE (R542, R548). -/
def execRecoveryObWrite (frame : List Byte) (s : State) : Host.Outcome State Fault Refusal :=
  .next (s.recovery 3 frame (fun s seq l =>
    if !s.sw18 then s.recoveryOut 3 seq (8 + 2 ^ 8) []
    else if l.length ≠ 28 then s.recoveryOut 3 seq (2 + 2 ^ 8) []
    else if s.flag F.RPC_OB_STATUS_BUSY then s.recoveryOut 3 seq (1 + 2 ^ 8) []
    else (s.obBegin l).recoveryOut 3 seq 0 []))

/-- RECOVERY_LOG (R548): the 256 entries of the boathouse ring from BH_IDX. -/
def execRecoveryLog (frame : List Byte) (s : State) : Host.Outcome State Fault Refusal :=
  .next (s.recovery 4 frame (fun s seq _ =>
    let i := s.fld F.EVL_BH_IDX_BH_IDX
    s.recoveryOut 4 seq 0 ((List.range 256).flatMap (fun k => s.rdList (bhAddr (i + k)) 16))))

/-- RECOVERY_EXIT (R547, R548). -/
def execRecoveryExit (frame : List Byte) (s : State) : Host.Outcome State Fault Refusal :=
  .next (s.recovery 5 frame (fun s seq _ => ((s.recoveryOut 5 seq 0 []).setFld F.RPC_START_UNCONF 0).sysReset 5 false))

end Sys2Proof.Machine
end

