-- ==== Sys2Proof/Machine/Bus.lean ====
section
/-! DEFINITION. The bus: what a register reads as, what a write to a register does, and an access of a master to any address (R3 to R6, R18 to
R26, R160, R491 to R499, R581).  A write to a register with a behaviour of its own has the effect of the command that names it. -/
namespace Sys2Proof.Machine

/-- The state after a meaning. -/
def State.after (s : State) (o : Host.Outcome State Fault Refusal) : State :=
  match o with
  | .next t => t
  | .fault _ => s
  | .refused _ => s

/-- The response to an access: a bus error with data 0, or data. -/
def State.busErr (s : State) : State := s.setBus ⟨true, 0⟩
def State.busOk (s : State) (v : Nat) : State := s.setBus ⟨false, v⟩

abbrev finOf (n : Nat) [NeZero n] (k : Nat) : Fin n := Fin.ofNat n k

/-! ## The register table -/

/-- Port ETH_5 shows the host registers of its pair (R393). -/
def regAlias (a : Nat) : Nat := if 0xE0350200 ≤ a ∧ a < 0xE0350220 then a - 0x10000 else a

def regDesc (a : Nat) : Option RegDesc := regTable.find? (fun d => d.covers a)

/-! ## Reads -/

/-- What the registers of a crew's window read as; `n` is the physical crew, `o` the offset. -/
def State.crewView (s : State) (n o a : Nat) : Nat :=
  if a = Reg.ACQ_SRC n then (List.range 20).foldl (fun v k => v + b2n ((s.streamDest k).bind s.physOf == some n) * 2 ^ k) 0
  else if 0x10300 ≤ o ∧ o < 0x10500 then
    let l := (o - 0x10300) / 4
    (s.lw n l 0x90).toNat % 4096 / 2 * 2 + s.lcfg n l 31 1
  else if 0x10500 ≤ o ∧ o < 0x10510 then
    (List.range 32).foldl (fun v j => v + b2n (bit (s.lw n (32 * ((o - 0x10500) / 4) + j) 0x90).toNat 5) * 2 ^ j) 0
  else if 0x10600 ≤ o ∧ o < 0x10800 then
    let l := (o - 0x10600) / 4
    let c := s.loopCtx n l
    repIdx c % 4096 * 2 ^ 16 + b2n (repPend c) * 16 + b2n (repFrozen c) * 8 + b2n (repEn c) * 4
  else if 0x20100 ≤ o ∧ o < 0x20500 then
    match s.logicalOf n with
    | none => s.num a
    | some m =>
      let j := (o - 0x20100) / 0x100
      let x := s.axisOf (4 * m + j)
      if a = Reg.AX_STATE n j then putBit (putBit (s.num a) 27 x.haltFast) 4 x.referenced
      else if a = Reg.AX_POS_LO n j then ofSigned 64 x.cpos % 2 ^ 32
      else if a = Reg.AX_VEL_LO n j then ofSigned 64 x.cvel % 2 ^ 32
      else if a = Reg.AX_STOP_LO n j then ofSigned 64 x.stopPos % 2 ^ 32
      else if a = Reg.AX_STEPS n j then ofSigned 32 x.s
      else s.num a
  else s.num a

/-- The high word that a read of a low word latches, with its address. -/
def State.latchedBy (s : State) (a : Nat) : Option (Nat × Nat) :=
  let hi (f : Nat → Nat) (lo : Nat → Nat) (k : Nat) (v : Nat → Nat) : Option (Nat × Nat) :=
    ((List.range k).find? (fun i => lo i == a)).map (fun i => (f i, v i))
  let ax (f : Axis → Int) (j : Nat) : Nat :=
    ofSigned 64 (f (s.axisOf (4 * ((s.logicalOf ((a - 0xE1000000) / 0x100000)).getD 0) + j))) / 2 ^ 32
  if a = Reg.RCE_BLKSEQ_LO then some (Reg.RCE_BLKSEQ_HI, s.num Reg.RCE_BLKSEQ_HI)
  else if a = Reg.RPC_ELAPSED_LO then some (Reg.RPC_ELAPSED_HI, s.num Reg.RPC_ELAPSED_HI)
  else if a = Reg.PLK_EPOCH_LO then some (Reg.PLK_EPOCH_HI, s.num Reg.PLK_EPOCH_HI)
  else if a = Reg.PLK_PEPOCH_LO then some (Reg.PLK_PEPOCH_HI, s.num Reg.PLK_PEPOCH_HI)
  else if a / 0x10000 = 0xE001 then hi Reg.CRS_POS_HI Reg.CRS_POS_LO 4 (fun n => (s.courseOf n).pos / 2 ^ 32 % 2 ^ 32)
  else if a / 0x10000 = 0xE003 then hi Reg.ENC_ACC_HI Reg.ENC_ACC_LO 16 (fun n => s.num (Reg.ENC_ACC_HI n))
  else if 0xE1000000 ≤ a ∧ a < 0xE1900000 then
    let n := (a - 0xE1000000) / 0x100000
    match hi (Reg.AX_POS_HI n) (Reg.AX_POS_LO n) 4 (ax Axis.cpos), hi (Reg.AX_VEL_HI n) (Reg.AX_VEL_LO n) 4 (ax Axis.cvel) with
    | some x, _ => some x
    | none, some x => some x
    | none, none => hi (Reg.AX_STOP_HI n) (Reg.AX_STOP_LO n) 4 (ax Axis.stopPos)
  else none

/-- The registers that show a latched high word. -/
def isLatch (a : Nat) : Bool :=
  a == Reg.RCE_BLKSEQ_HI || a == Reg.RPC_ELAPSED_HI || a == Reg.PLK_EPOCH_HI || a == Reg.PLK_PEPOCH_HI ||
    (List.range 4).any (fun n => a == Reg.CRS_POS_HI n) || (List.range 16).any (fun n => a == Reg.ENC_ACC_HI n) ||
    (List.range 9).any (fun n => (List.range 4).any (fun j => a == Reg.AX_POS_HI n j || a == Reg.AX_VEL_HI n j || a == Reg.AX_STOP_HI n j))

/-- Milliseconds left of the system watchdog (R536). -/
def State.wdgLeft (s : State) : Nat :=
  s.fld F.RPC_WDG_STATUS_TIMEOUT_MS - (s.time.cycle - Tab.get (fun _ => 0) s.rpc.kicks 0) / 600000

/-- The words of the entry a digital-input FIFO shows (R66). -/
def State.dinView (s : State) (n w : Nat) : Nat :=
  match (s.dinOf n).fifo with
  | [] => 0
  | e :: _ => if w = 0 then e.stamp.w0 else if w = 1 then e.stamp.w1 else if w = 2 then e.stamp.w2 else e.word3

/-- The fill of eight digital-input FIFOs (R66). -/
def State.dinCount (s : State) (k : Nat) : Nat :=
  (List.range 8).foldl (fun v j => v + (s.dinOf (8 * k + j)).fifo.length * 2 ^ (4 * j)) 0

/-- The connection PVM_CONN_SEL shows. -/
def State.connView (s : State) (a : Nat) : Nat :=
  let c := s.connOf (s.fld F.PVM_CONN_SEL_K)
  if a = Reg.PVM_CONN_SESSION then c.session % 2 ^ 32
  else if a = Reg.PVM_CONN_RTT_MAX then min c.rtt 0xFFFFFFFF
  else if a = Reg.PVM_CONN_LOST then min c.lost 0xFFFFFFFF
  else min c.reject 0xFFFFFFFF

/-- The health a RETIRED domain gives its resources, laid over their status register. -/
def State.healthOver (s : State) (l : List Res) (a v : Nat) : Nat :=
  l.foldl (fun v r =>
    match r.healthFld with
    | some f => if f.addr = a then (setBits (BitVec.ofNat 32 v) f.lo f.width (s.health r).code).toNat else v
    | none => v) v

/-- What a register reads as, before the WO bits are masked, without the effect of the read. -/
def State.regView (s : State) (a : Nat) : Nat :=
  let b := a / 0x10000
  if isLatch a then (Tab.get (fun _ => (0 : Word)) s.latch a).toNat
  else if 0xE1000000 ≤ a ∧ a < 0xE1900000 then s.crewView ((a - 0xE1000000) / 0x100000) (a % 0x100000) a
  else if a = Reg.RPC_WDG_STATUS then s.num a / 2 ^ 16 * 2 ^ 16 + s.wdgLeft % 2 ^ 16
  else if a = Reg.CTU_TIME_SLEW then ofSigned 32 (s.time.slew.tdiv (2 ^ 24))
  else if Reg.DIO_COUNT 0 ≤ a ∧ a ≤ Reg.DIO_COUNT 7 then s.dinCount ((a - Reg.DIO_COUNT 0) / 4)
  else if b = 0xE001 then
    match (List.range 4).find? (fun n => Reg.CRS_POS_LO n == a) with
    | some n => (s.courseOf n).pos % 2 ^ 32
    | none => s.num a
  else if 0xE0020400 ≤ a ∧ a < 0xE0020800 then s.dinView ((a - 0xE0020400) / 16) (a / 4 % 4)
  else if a = Reg.IML_SPARE then
    let n := s.fld F.IML_SPARE_SPARE
    (setBits (s.rd a) 4 2 (if n < 9 then (s.health (.crew n)).code else 0)).toNat
  else if a = Reg.VLT_KEYID_LO then Config.keyId % 2 ^ 32
  else if a = Reg.VLT_KEYID_HI then Config.keyId / 2 ^ 32 % 2 ^ 32
  else if a = Reg.RCE_RATE then min s.rceRate 0xFFFFFFFF
  else if a = Reg.PLK_RATE then s.mirRate
  else if Reg.PVM_CONN_SESSION ≤ a ∧ a ≤ Reg.PVM_CONN_REJECT then s.connView a
  else if (List.range 16).any (fun g => Reg.ENC_VEL g == a) then (ratF32 (s.encVel ((a - Reg.ENC_VEL 0) / 0x20))).toNat
  else if b = 0xE00B then s.healthOver ((List.range 20).map .conv) a (s.num a)
  else if 0xE020 ≤ b ∧ b < 0xE028 then
    let o := a % 0x10000
    if 0x9000 ≤ o ∧ o < 0xB000 then s.rxbView (b - 0xE020) ((o - 0x9000) / 0x80) (o / 4 % 32)
    else s.healthOver [.can (b - 0xE020)] a (s.num a)
  else if 0xE030 ≤ b ∧ b < 0xE036 then s.healthOver [.eth (b - 0xE030)] a (s.num a)
  else s.num a

/-- A read of a register: its value and its effect. -/
def State.regRead (s : State) (d : RegDesc) (a : Nat) : Nat × State :=
  let b := a / 0x10000; let o := a % 0x10000
  let v := s.regView a &&& (0xFFFFFFFF ^^^ d.wo)
  let s := match s.latchedBy a with
    | some (h, x) => s.setLatch (Tab.set (fun _ => (0 : Word)) s.latch h (BitVec.ofNat 32 x))
    | none => s
  if a = Reg.VLT_RNG then let t := s.after (execVltRngRead s); (t.bus.data, t)
  else if a = Reg.CTU_PPS_CAP_HI then (v, s.after (execPpsCaptureRead s))
  else if 0xE0020400 ≤ a ∧ a < 0xE0020800 ∧ a % 16 = 12 then (v, s.after (execDinFifoPop (finOf 64 ((a - 0xE0020400) / 16)) s))
  else if b = 0xE003 then
    match (List.range 16).find? (fun n => Reg.ENC_IDX_HI n == a) with
    | some n => (v, s.after (execEncIdxRead (finOf 16 n) s))
    | none => (v, s)
  else if b = 0xE00C then
    match (List.range 16).find? (fun n => Reg.HART_BURST n 0 == a) with
    | some n => (v, s.after (execHartBurstRead (finOf 16 n) s))
    | none => (v, s)
  else if 0xE020 ≤ b ∧ b < 0xE028 ∧ 0x9000 ≤ o ∧ o < 0xB000 then
    let n := finOf 8 (b - 0xE020); let i := finOf 64 ((o - 0x9000) / 0x80)
    if o % 0x80 = 0 then (v, s.after (execCanRxbReadWord0 n i s))
    else if o / 4 % 32 = s.rxbLast n i then (v, s.after (execCanRxbReadLast n i s))
    else (v, s)
  else if 0xE030 ≤ b ∧ b < 0xE036 ∧ a = Reg.ETH_TXTS (b - 0xE030) then (v, s.after (execEthTxtsPop (finOf 6 (b - 0xE030)) s))
  else if 0xE1000000 ≤ a ∧ a < 0xE1900000 ∧ 0x1000 ≤ a % 0x100000 ∧ a % 0x100000 < 0x1400 ∧ a % 0x80 = 4 then
    let t := s.after (execDpPop (finOf 9 ((a - 0xE1000000) / 0x100000)) (finOf 8 ((a % 0x100000 - 0x1000) / 0x80)) s)
    (t.bus.data, t)
  else (v, s)

/-! ## Writes -/

/-- A write to a register by its access codes alone (R5, R6): RW bits take the value, W1C bits written 1 clear. -/
def State.plainWrite (s : State) (d : RegDesc) (a v : Nat) : State :=
  s.setNum a (((s.num a &&& (0xFFFFFFFF ^^^ d.rw)) ||| (v &&& d.rw)) &&& (0xFFFFFFFF ^^^ (v &&& d.w1c)))

/-- The W1C part of a write. -/
def State.clearWrite (s : State) (d : RegDesc) (a v : Nat) : State := s.setNum a (s.num a &&& (0xFFFFFFFF ^^^ (v &&& d.w1c)))

/-- Commands of a write by their bits, from bit 0 up. -/
def State.bitCmds (s : State) (v : Nat) (l : List (Nat × (State → State))) : State := l.foldl (fun s e => if bit v e.1 then e.2 s else s) s

/-- The command of a numbered field. -/
def State.codeCmd (s : State) (k : Nat) (l : List (Nat × (State → State))) : State :=
  match l.find? (fun e => e.1 == k) with
  | some e => e.2 s
  | none => s

/-- Writes to RPC; the commands of `m` = 0 are those AC_0 alone gives (R533 to R552). -/
def State.writeRpc (s : State) (m : Nat) (d : RegDesc) (a v : Nat) : State :=
  let key := v / 256 % 256
  if a = Reg.RPC_SWRST then s.after (execDomainResetRequest (finOf 160 m) (BitVec.ofNat 8 key) (BitVec.ofNat 8 v) s)
  else if a = Reg.RPC_FOLLY then s.after (execRpcFollyRequest (finOf 160 m) (BitVec.ofNat 8 key) (bit v 0) s)
  else if a = Reg.RPC_START then if m = 0 ∧ v % 2 = 1 then s.after (execStartOk s) else s
  else if a = Reg.RPC_WDG_KICK then if m = 0 then s.after (execSysWdgKick (BitVec.ofNat 32 v) s) else s
  else if a = Reg.RPC_CWD_KICK then if 1 ≤ m ∧ m < 8 ∧ v % 2 = 1 then s.after (execCoreWdgKick (finOf 8 m) s) else s
  else if a = Reg.RPC_LP_CMD then
    if m = 0 ∧ key = 0xA5 then s.codeCmd (v % 4) [(1, fun s => s.after (execEasyEnter s)), (2, fun s => s.after (execParkEnter s))] else s
  else if a = Reg.RPC_OB_CMD then if m = 0 ∧ v % 2 = 1 then s.after (execObCommit s) else s
  else if Reg.RPC_CWD 1 ≤ a ∧ a ≤ Reg.RPC_CWD 7 then
    if m ≠ 0 then s.clearWrite d a v
    else
      let on := bit (s.num a) 31
      let s := s.plainWrite d a v
      if !on && bit v 31 then s.kick ((a - Reg.RPC_CWD 0) / 4) else s
  else s.plainWrite d a v

/-- Writes to CTU (R48 to R63). -/
def State.writeCtu (s : State) (d : RegDesc) (a v : Nat) : State :=
  if a = Reg.CTU_SNAP then if v % 2 = 1 then s.after (execTimeSnapshot s) else s
  else if a = Reg.CTU_TIME_INC then s.after (execTimeIncWrite (BitVec.ofNat 32 v) s)
  else if a = Reg.CTU_TIME_SLEW then s.after (execTimeSlewWrite (BitVec.ofNat 32 v) s)
  else if a = Reg.CTU_STEP_CTRL then
    if s.timeState = 3 then s
    else
      let s := s.plainWrite d a v
      if bit v 0 then s.after (execTimeStepGo (bit v 1) s) else s
  else if a = Reg.CTU_TIME_STATE then (s.clearWrite d a v).after (execTimeStateWrite (BitVec.ofNat 2 v) (s.clearWrite d a v))
  else if a = Reg.CTU_PPS_OUT_CTRL then
    let w := v / 4 % 2 ^ 19
    let s := if bit v 0 then s else s.setTime { s.time with ppsOut := false }
    if 1 ≤ w ∧ w ≤ 500000 then s.plainWrite d a v else s.setNum a (s.num a / 4 * 4 + v % 4)
  else if a = Reg.CTU_PPS_OUT_OFFSET then if v % 2 ^ 30 < 1000000000 then s.plainWrite d a v else s
  else if a = Reg.CTU_CT_GO then s.after (execCtGroupGo (BitVec.ofNat 8 v) s)
  else
    match (List.range 8).find? (fun m => Reg.CT_CTRL m == a) with
    | some m => s.after (execCtRunWrite (finOf 8 m) (bit v 0) s)
    | none => s.plainWrite d a v

/-- Writes to VLT by master `m` (R525): from AC_0, and two commands from the TAP. -/
def State.writeVlt (s : State) (m : Nat) (d : RegDesc) (a v : Nat) : State :=
  let tap := m == 8
  if a = Reg.VLT_CMD then
    let c := v % 16
    if m ≠ 0 ∧ !(tap && (c == 10 || c == 11)) then s
    else
      let arg := BitVec.ofNat 16 (v / 2 ^ 16)
      s.codeCmd c [(1, fun s => s.after (execVltVerify () s)), (2, fun s => s.after (execVltStore () s)), (3, fun s => s.after (execVltEnrol () s)),
        (4, fun s => s.after (execVltRevoke () s)), (5, fun s => s.after (execVltImport () s)), (6, fun s => s.after (execVltLoadKey s)),
        (7, fun s => s.after (execVltEraseKey arg s)), (8, fun s => s.after (execVltArbAdvance arg s)), (9, fun s => s.after (execVltAttest s)),
        (10, fun s => s.after (execVltDbgChallenge tap s)), (11, fun s => s.after (execVltDbgUnlock tap () s)),
        (12, fun s => s.after (execVltDbgLock s))]
  else if a = Reg.VLT_ARG_LO ∨ a = Reg.VLT_ARG_HI ∨ a = Reg.VLT_ARG_LEN then
    if s.flag F.VLT_RES_BUSY then s else s.plainWrite d a v
  else s.plainWrite d a v

/-- Writes to EVL by master `m` (R36, R38). -/
def State.writeEvl (s : State) (m : Nat) (d : RegDesc) (a v : Nat) : State :=
  let on := s.flag F.EVL_CTRL_DRAM_EN
  if a = Reg.EVL_CTRL then
    if bit v 0 && !on then s.after (execEvlDramEnable s) else s
  else if a = Reg.EVL_BASE_LO ∨ a = Reg.EVL_BASE_HI then if on then s else s.plainWrite d a v
  else if a = Reg.EVL_SIZE then if on ∨ v % 32 < 12 ∨ 24 < v % 32 then s else s.plainWrite d a v
  else if a = Reg.EVL_SW_DETAIL then if m < 8 then s.after (execSwEventDetailWrite (finOf 8 m) (BitVec.ofNat 32 v) s) else s
  else if a = Reg.EVL_SW_CODE then if m < 8 then s.after (execSwEventRaise (finOf 8 m) (BitVec.ofNat 7 v) s) else s
  else s.plainWrite d a v

/-- Writes to SEQ (R214, R224). -/
def State.writeSeq (s : State) (d : RegDesc) (a v : Nat) : State :=
  let w := BitVec.ofNat 32 v
  if a = Reg.SEQ_CMD then
    let r := finOf 16 (v / 256)
    s.codeCmd (v % 8) [(1, fun s => s.after (execSeqLoad r s)), (2, fun s => s.after (execSeqUnload r s)), (3, fun s => s.after (execSeqStart r s)),
      (4, fun s => s.after (execSeqPause r s)), (5, fun s => s.after (execSeqHold r s)), (6, fun s => s.after (execSeqResume r s)),
      (7, fun s => s.after (execSeqAbort r s))]
  else if a = Reg.SEQ_PFLAG_SET_LO then s.after (execPflagSet false w s)
  else if a = Reg.SEQ_PFLAG_SET_HI then s.after (execPflagSet true w s)
  else if a = Reg.SEQ_PFLAG_CLR_LO then s.after (execPflagClr false w s)
  else if a = Reg.SEQ_PFLAG_CLR_HI then s.after (execPflagClr true w s)
  else s.plainWrite d a v

/-- Writes to RCE (R300, R305, R315, R322). -/
def State.writeRce (s : State) (d : RegDesc) (a v : Nat) : State :=
  if a = Reg.RCE_CTRL then
    let run := s.flag F.RCE_CTRL_RUN
    let s := s.setNum a (s.num a / 8 * 8 + v / 4 % 2 * 4 + s.num a % 4)
    if bit v 0 then s.after (execRecordStart s) else if run then s.after (execRecordStop s) else s
  else if Reg.RCE_TRG_ARM 0 ≤ a ∧ a ≤ Reg.RCE_TRG_ARM 3 then
    s.after (execTriggerArmWrite (finOf 4 ((a - Reg.RCE_TRG_ARM 0) / 4)) (BitVec.ofNat 32 v) s)
  else if 0xE0091000 ≤ a ∧ a < 0xE0092000 ∧ a % 0x40 = 0x1C then
    let c := finOf 64 ((a - 0xE0091000) / 0x40)
    (s.plainWrite d a v).bitCmds v [(0, fun s => s.after (execCaptureArm c s)), (1, fun s => s.after (execCaptureDisarm c s)),
      (2, fun s => s.after (execCaptureForce c s)), (3, fun s => s.after (execCaptureRelease0 c s)),
      (4, fun s => s.after (execCaptureRelease1 c s))]
  else if 0xE0093000 ≤ a ∧ a < 0xE0094000 ∧ a % 16 ≠ 12 then
    if s.flag (F.GOLD_CTRL_READY ((a - 0xE0093000) / 16)) then s else s.plainWrite d a v
  else s.plainWrite d a v

/-- Writes to RMV (R488). -/
def State.writeRmv (s : State) (d : RegDesc) (a v : Nat) : State :=
  let c := finOf 4 ((a - 0xE00A0100) / 0x40); let o := (a - 0xE00A0100) % 0x40
  if o < 0x28 then if s.fld (F.RMV_STATUS_STATE c) = 1 then s else s.plainWrite d a v
  else if o = 0x28 then
    (s.plainWrite d a v).bitCmds v [(0, fun s => s.after (execRmvGo c s)), (1, fun s => s.after (execRmvAbort c s)),
      (3, fun s => s.after (execRmvResume c s))]
  else s.plainWrite d a v

/-- Writes to AFE (R148, R150, R152). -/
def State.writeAfe (s : State) (d : RegDesc) (a v : Nat) : State :=
  if a = Reg.AFE_READMIT then
    if bit v 8 then s.after (execTdacReadmit (finOf 8 v) s)
    else if v % 32 < 20 then s.after (execConverterReadmit (finOf 20 (v % 32)) s) else s
  else if a = Reg.AFE_CAL_CTRL then
    let s := s.plainWrite d a v
    let ch := BitVec.ofNat 8 (v / 256); let rg := BitVec.ofNat 2 (v / 2 ^ 16)
    s.codeCmd (v % 8) [(1, fun s => s.after (execCalStart ch rg s)), (2, fun s => s.after (execCalCaptureLo s)),
      (3, fun s => s.after (execCalCaptureHi s)), (4, fun s => s.after (execCalCommit s)), (5, fun s => s.after (execCalAbort s)),
      (6, fun s => s.after (execCalRevert ch rg s))]
  else if a = Reg.AFE_CAL_N then if v % 2 ^ 16 = 0 then s else s.plainWrite d a v
  else
    match (List.range 8).find? (fun p => Reg.AFE_TDAC_CMD p == a) with
    | some p =>
      let s := s.plainWrite d a v
      if bit v 31 then
        s.after (execTdacDiagRequest (finOf 8 p) (BitVec.ofNat 12 (v / 2 ^ 16)) (BitVec.ofNat 2 (v / 16)) (bit v 3) (BitVec.ofNat 3 v) s)
      else s
    | none => s.plainWrite d a v

/-- Writes to CLO (R30, R339, R343, R344). -/
def State.writeClo (s : State) (d : RegDesc) (a v : Nat) : State :=
  if a = Reg.CLO_READMIT then s.after (execCloReadmit (finOf 16 v) s)
  else if a = Reg.CLO_CLR then s.after (execCloClr (BitVec.ofNat 16 v) s)
  else if 0xE00C0800 ≤ a ∧ a < 0xE00C0900 ∧ a % 16 = 4 then
    if bit v 0 then s.after (execHartGo (finOf 16 ((a - 0xE00C0800) / 16)) s) else s
  else if 0xE00C0800 ≤ a ∧ a < 0xE00C0900 ∧ a % 16 = 0 then
    if 5 ≤ v % 32 ∧ v % 32 ≤ 20 then s.plainWrite d a v else s.plainWrite d a (v / 32 * 32 + s.num a % 32)
  else s.plainWrite d a v

/-- Writes to PVM: mailbox 0 takes writes of SEQ only (R434). -/
def State.writePvm (s : State) (d : RegDesc) (a v : Nat) : State :=
  if Reg.PVM_MB_REQ 0 0 ≤ a ∧ a < Reg.PVM_MB_REQ 0 144 then s
  else if a = Reg.PVM_MB_GO 0 then s
  else if a = Reg.PVM_MB_GO 1 then if bit v 0 then s.mbGo 1 else s
  else s.plainWrite d a v

/-- Writes to CYC by master `m` (R458 to R475). -/
def State.writeCyc (s : State) (m : Nat) (d : RegDesc) (a v : Nat) : State :=
  if a = Reg.CYC_CMD then
    s.codeCmd (v % 8) [(1, fun s => s.after (execCycLoad s)), (2, fun s => s.after (execCycStartWarm s)), (3, fun s => s.after (execCycStartCold s)),
      (4, fun s => s.after (execCycStop s)), (5, fun s => s.after (execCycOnlineChange s)), (6, fun s => s.after (execCycSwitch s))]
  else if a = Reg.CYC_DONE then if m = 1 ∧ bit v 0 then s.after (execCycDone s) else s
  else if a = Reg.CYC_FRC_ACK then if bit v 0 then s.after (execCycForceAck s) else s
  else if a = Reg.CYC_WIN then if v % 2 ^ 16 = 0 then s else s.plainWrite d a v
  else if Reg.CYC_OC_SRC_LO ≤ a ∧ a ≤ Reg.CYC_OC_RPT_HI then if s.cyc.batch.isSome then s else s.plainWrite d a v
  else if 0xE00F4000 ≤ a ∧ a < 0xE00F8000 then
    s.after (execCycForceWrite (finOf 1024 ((a - 0xE00F4000) / 16)) (finOf 4 (a / 4)) (BitVec.ofNat 32 v) s)
  else s.plainWrite d a v

/-- Writes to PLK (R438 to R457). -/
def State.writePlk (s : State) (d : RegDesc) (a v : Nat) : State :=
  if a = Reg.PLK_CTRL then
    s.codeCmd (v % 8) [(1, fun s => s.after (execPlkHandover s)), (2, fun s => s.after (execPlkForceTake (BitVec.ofNat 8 (v / 256)) s)),
      (3, fun s => s.after (execPlkResync s)), (4, fun s => s.after (execPlkReadmitLane0 s)), (5, fun s => s.after (execPlkReadmitLane1 s))]
  else s.plainWrite d a v

/-- Writes to CAN_n (R362 to R371); whether the controller's own frame is on the bus when a buffer is cancelled is free. -/
def State.writeCan (s : State) (n : Fin 8) (d : RegDesc) (a v : Nat) : State :=
  let o := a % 0x10000; let w := BitVec.ofNat 32 v
  if a = Reg.CAN_CTRL n then if bit v 1 then s.after (execCanRecover n s) else s
  else if a = Reg.CAN_READMIT n then if bit v 0 then s.after (execCanReadmit n s) else s
  else if a = Reg.RXB_REL n 0 then s.after (execCanRxbRel n 0 w s)
  else if a = Reg.RXB_REL n 1 then s.after (execCanRxbRel n 1 w s)
  else if a = Reg.RXF_ACK n 0 then s.after (execCanRxfAck n 0 (finOf 32 v) s)
  else if a = Reg.RXF_ACK n 1 then s.after (execCanRxfAck n 1 (finOf 32 v) s)
  else if a = Reg.TXB_REQ n then s.after (execCanTxRequest n w s)
  else if a = Reg.TXB_CANCEL n then
    let (k, s) := s.freshNat
    s.after (execCanTxCancel n w (if k % 2 = 0 then none else some s.now) s)
  else if a = Reg.TXC_APPEND n then s.after (execCanTxcAppend n (finOf 32 v) s)
  else if a = Reg.TXJ_ACK n then s.after (execCanTxjAck n (finOf 32 v) s)
  else if 0xC800 ≤ o ∧ o < 0xC800 + 0x60 * 32 then
    let b := (o - 0xC800) / 0x60
    if s.txPend n b || s.txLinked n b || s.txMapped n b || decide (80 ≤ (o - 0xC800) % 0x60) then s.setFld (F.TXC_STATUS_WR_IGN n) 1
    else s.plainWrite d a v
  else s.plainWrite d a v

/-- Writes to ETH_n (R386, R387, R394). -/
def State.writeEth (s : State) (n : Fin 6) (d : RegDesc) (a v : Nat) : State :=
  if a = Reg.ETH_FRX_ACK n then s.after (execEthFrxAck n (finOf 16 v) s)
  else if a = Reg.ETH_FTX_GO n then s.after (execEthFtxGo n (BitVec.ofNat 8 v) s)
  else if a = Reg.ETH_READMIT n then if bit v 0 then s.after (execEthReadmit n s) else s
  else
    match (List.range 10).find? (fun k => Reg.ETH_SA_CFG n k == a) with
    | some k =>
      let was := s.flag (F.ETH_SA_CFG_ACTIVE n k)
      let s := s.plainWrite d a v
      if bit v 31 && !was then s.setNum64 (Reg.ETH_SA_PN_LO n k) (Reg.ETH_SA_PN_HI n k) (b2n (decide (k < 2))) else s
    | none => s.plainWrite d a v

/-- Whether writes to a crew are ignored (R26): it is out of use, its test running or not, or stranded. -/
def State.crewClosed (s : State) (n : Nat) : Bool := !s.inUse (.crew n) || s.flag (F.LSM_STATUS_STRANDED n)

/-- The axis commands (R241 to R277) of axis `j` of physical crew `n`; a crew without a logical crew has no axis. -/
def State.writeAxis (s : State) (n j v : Nat) : State :=
  match s.logicalOf n with
  | none => s
  | some m =>
    let x := finOf 32 (4 * m + j); let k := v / 256 % 256
    s.codeCmd (v % 16) [(1, fun s => s.after (execAxisEnable x s)), (2, fun s => s.after (execAxisDisable x s)),
      (3, fun s => if k < 64 then s.after (execAxisMove x (finOf 64 k) s) else s.axRefuse n (4 * m + j) 2 3), (4, fun s => s.after (execAxisStop x s)),
      (5, fun s => s.after (execAxisHome x (BitVec.ofNat 8 k) s)), (6, fun s => s.after (execAxisGear x s)),
      (7, fun s => s.after (execAxisGearSet x s)), (8, fun s => s.after (execAxisUngear x s)), (9, fun s => s.after (execAxisClear x s)),
      (10, fun s => s.after (execStageReadmit x s))]

/-- Writes to the window of physical crew `n` at offset `o`. -/
def State.writeCrew (s : State) (n : Fin 9) (o : Nat) (d : RegDesc) (a v : Nat) : State :=
  if a = Reg.LSM_CTRL n then
    let key := v / 256 % 256 == 0xA5
    let s := if bit v 0 then s.after (execCrewReadmit n s) else s
    let s := if bit v 1 && key then s.after (execCrewForceRetire n s) else s
    if bit v 2 && key then s.after (execCrewMigrate n s) else s
  else if a = Reg.LSM_CLR n then if bit v 0 then s.after (execLsmClrCounts n s) else s
  else if a = Reg.LSM_STATUS n then s.plainWrite d a v
  else if s.crewClosed n then s
  else if a = Reg.COX_CLR n then
    s.bitCmds v [(0, fun s => s.after (execCoxClrDepthMax n s)), (1, fun s => s.after (execCoxClrCtxCounts n s)),
      (2, fun s => s.after (execCoxClrTotals n s))]
  else if a = Reg.COX_WIN n then if v % 2 ^ 16 = 0 then s else s.plainWrite d a v
  else if 0x1000 ≤ o ∧ o < 0x1400 ∧ o % 0x80 = 0x60 then s.after (execDpDone n (finOf 8 ((o - 0x1000) / 0x80)) (BitVec.ofNat 3 v) s)
  else if 0x1000 ≤ o ∧ o < 0x1400 ∧ d.wo ≠ 0 then s.setNum a (v &&& d.wo)
  else if a = Reg.LPE_PC_CMD n then
    if bit v 0 then s.after (execParamCommit n (bit v 1) s) else if bit v 1 then s.after (execParamClear n s) else s
  else if 0x10100 ≤ o ∧ o < 0x10300 then
    let l := finOf 128 ((o - 0x10100) / 4)
    let s := s.after (execLoopModeRequest n l (BitVec.ofNat 3 v) s)
    if bit v 8 then s.after (execLoopFbClr n l s) else s
  else if 0x10300 ≤ o ∧ o < 0x10500 then
    let l := (o - 0x10300) / 4
    s.setLw n l 0x90 (s.lw n l 0x90 &&& BitVec.ofNat 32 (0xFFFFFFFF ^^^ (v &&& d.w1c)))
  else if 0x10600 ≤ o ∧ o < 0x10800 then s.after (execRepAction n (finOf 128 ((o - 0x10600) / 4)) (BitVec.ofNat 2 v) s)
  else if 0x20100 ≤ o ∧ o < 0x20500 ∧ o % 0x100 = 0 then s.writeAxis n ((o - 0x20100) / 0x100) v
  else if 0x21000 ≤ o ∧ o < 0x21400 then
    let k := (o - 0x21000) / 16
    if s.mtBusy n k then (if o % 16 = 12 then s.plainWrite d a v else s) else s.plainWrite d a v
  else if a = Reg.CDM_READMIT n then s.after (execCdmReadmit n (finOf 8 v) s)
  else if 0x40100 ≤ o ∧ o < 0x40500 then
    let ch := finOf 8 ((o - 0x40100) / 0x80); let r := (o - 0x40100) % 0x80
    let mine := s.fld (F.CDM_CH_CFG_OWNER n ch) == 0
    if r = 0x3C then
      s.bitCmds v [(0, fun s => s.after (execCdmGo n ch s)), (1, fun s => s.after (execCdmAbort n ch s)), (2, fun s => s.after (execCdmResume n ch s))]
    else if r = 4 then if mine then s.plainWrite d a v else s
    else if 8 ≤ r ∧ r < 0x3C then if mine && s.cdmState n ch != 1 then s.plainWrite d a v else s
    else s.plainWrite d a v
  else s.plainWrite d a v

/-- A write of a defined register by master `m`. -/
def State.regWrite (s : State) (m : Nat) (d : RegDesc) (a v : Nat) : State :=
  let b := a / 0x10000
  if 0xE1000000 ≤ a ∧ a < 0xE1900000 then s.writeCrew (finOf 9 ((a - 0xE1000000) / 0x100000)) (a % 0x100000) d a v
  else if b = 0xE000 then s.writeRpc m d a v
  else if b = 0xE001 then s.writeCtu d a v
  else if a = Reg.ENC_READMIT then s.after (execEncReadmit (finOf 16 v) s)
  else if a = Reg.IML_CTRL then
    s.codeCmd (v % 8) [(1, fun s => s.after (execImlStage s)), (2, fun s => s.after (execImlActivate s)), (3, fun s => s.after (execImlReplace s)),
      (4, fun s => s.after (execImlAbort s))]
  else if a = Reg.IML_SRC_LO ∨ a = Reg.IML_SRC_HI ∨ a = Reg.IML_SRC_LEN then
    if s.imlState = 0 ∨ s.imlState = 3 then s.plainWrite d a v else s
  else if a = Reg.FWL_UNFREEZE then s.after (execFwlUnfreeze (finOf 160 m) (BitVec.ofNat 8 (v / 256)) (BitVec.ofNat 8 v) s)
  else if a = Reg.FWL_READMIT then s.after (execLinkReadmit (BitVec.ofNat 4 v) s)
  else if b = 0xE006 then s.writeVlt m d a v
  else if b = 0xE007 then s.writeEvl m d a v
  else if b = 0xE008 then s.writeSeq d a v
  else if b = 0xE009 then s.writeRce d a v
  else if b = 0xE00A then s.writeRmv d a v
  else if b = 0xE00B then s.writeAfe d a v
  else if b = 0xE00C then s.writeClo d a v
  else if a = Reg.VDR_READMIT then s.after (execVdrReadmit (finOf 64 v) s)
  else if b = 0xE00E then s.writePvm d a v
  else if b = 0xE00F then s.writeCyc m d a v
  else if b = 0xE010 then s.writePlk d a v
  else if 0xE020 ≤ b ∧ b < 0xE028 then s.writeCan (finOf 8 (b - 0xE020)) d a v
  else if 0xE030 ≤ b ∧ b < 0xE036 then s.writeEth (finOf 6 (b - 0xE030)) d a v
  else s.plainWrite d a v

end Sys2Proof.Machine
end

