-- ==== Sys2Proof/Machine/Access.lean ====
section
/-! DEFINITION. An access of a bus master to any address: the firewall, the map of the address space, the memories, the logical aliases and the
accesses a migration holds (R3, R11, R18 to R26, R160, R491 to R499, R510, R581). -/
namespace Sys2Proof.Machine

/-- Where an address lies (R18, R20, R21, R23). -/
inductive Place where
  /-- Boot ROM. -/
  | rom
  /-- A memory that takes reads and writes. -/
  | ram
  /-- MRAM whose writes are ignored: the factory calibration records (R154). -/
  | factory
  /-- MRAM that IML alone writes: the image slots (R20). -/
  | slots
  /-- MRAM of the vault (R510). -/
  | vault
  /-- SRAM of physical crew `n`. -/
  | crew (n : Nat)
  /-- Memory alias of logical crew `m`. -/
  | crewAlias (m : Nat)
  /-- A register of the control space at its physical address. -/
  | reg
  /-- Control alias of logical crew `m`. -/
  | regOfCrew (m : Nat)
  | plic
  /-- No region, or no block of the control space. -/
  | nowhere
  deriving DecidableEq, Repr

/-- The blocks of the control space (R21), by the upper bits of their window. -/
def blockAt (b : Nat) : Bool :=
  (decide (0xE000 ≤ b) && decide (b ≤ 0xE011)) || (decide (0xE020 ≤ b) && decide (b < 0xE028)) || (decide (0xE030 ≤ b) && decide (b < 0xE036))

/-- The place of an address. -/
def placeOf (a : Nat) : Place :=
  if a < 0x40000 then .rom
  else if (0x08000000 ≤ a ∧ a < 0x08040000) ∨ (0x10000000 ≤ a ∧ a < 0x10400000) ∨ (0x1000000000 ≤ a ∧ a < 0x1800000000) then .ram
  else if 0x40000000 ≤ a ∧ a < 0x49000000 then .crew ((a - 0x40000000) / 0x1000000)
  else if 0x50000000 ≤ a ∧ a < 0x58000000 then .crewAlias ((a - 0x50000000) / 0x1000000)
  else if 0x80000000 ≤ a ∧ a < 0x84000000 then .slots
  else if 0x8B000000 ≤ a ∧ a < 0x8B000000 + 16 * 704 then .factory
  else if 0x8C000000 ≤ a ∧ a < 0x90000000 then .vault
  else if 0x80000000 ≤ a ∧ a < 0x90000000 then .ram
  else if 0xE0400000 ≤ a ∧ a < 0xE0800000 then .plic
  else if 0xE1000000 ≤ a ∧ a < 0xE1900000 then .reg
  else if 0xE2000000 ≤ a ∧ a < 0xE2800000 then .regOfCrew ((a - 0xE2000000) / 0x100000)
  else if 0xE0000000 ≤ a ∧ a < 0xE2800000 ∧ blockAt (a / 0x10000) then .reg
  else .nowhere

/-- An access outside every region (R18, R21). -/
def State.unmapped (s : State) (m a : Nat) : State := (s.log 0x0012 (masterSource m) (a % 2 ^ 32)).busErr

/-- What a read-modify-write stores: the bits of the mask replaced (R390). -/
def maskInto (old v mask : Nat) : Nat := old - (old &&& mask) + (v &&& mask)

/-! ## Memories (R581) -/

/-- `n` bytes as master `m` reads them: AC_1 reads forced program variables through their forces (R469). -/
def State.memRead (s : State) (m a : Nat) : Nat → Nat
  | 0 => 0
  | n + 1 => (if m = 1 then s.forcedByte a else s.rdByte a).toNat + 256 * s.memRead m (a + 1) n

/-- Bytes written by master `m`: AC_1's first write to a retained byte in a cycle is journaled (R468). -/
def State.memWrite (s : State) (m a n v : Nat) : State :=
  let s := if m = 1 then (List.range n).foldl (fun s i => s.journalByte (a + i)) s else s
  s.wrMem a n v

/-- The masters whose accesses may be bursts (R581, R482): the engines of the crews, the DMA channels, the record mover and the other blocks. -/
def burstMaster (m : Nat) : Bool := decide (16 ≤ m)

/-- The accesses a memory takes (R581): 1, 2, 4 or 8 bytes naturally aligned, or a burst of up to 64 bytes within one aligned 64-byte block. -/
def memForm (m a n : Nat) : Bool :=
  if n = 1 ∨ n = 2 ∨ n = 4 ∨ n = 8 then a % n == 0
  else burstMaster m && decide (1 ≤ n) && decide (a % 64 + n ≤ 64)

/-- An access to a memory in one of those forms: `e` is what its ECC finds. -/
def State.memAccess (s : State) (m : Nat) (k : Access) (a n v mask : Nat) (e : Ecc) : State :=
  if k = .write then (s.memWrite m a n v).busOk 0
  else
    let s := s.eccAt e a
    if e = .uncorrectable then s.busErr
    else
      let old := s.memRead m a n
      (if k = .rmw then s.memWrite m a n (maskInto old v mask) else s).busOk old

/-- An engine of crew `n` (R491: its engines and the channels of its DMA) writes `len` bytes of the image-allocated crew data outside the live
region (R196). -/
def State.outsideLive (s : State) (m n o len : Nat) : Bool :=
  let lo := s.fld (F.LSM_LIVE_OFFSET n); let hi := lo + 64 * s.fld (F.LSM_LIVE_LEN64 n)
  ((decide (16 + 4 * n ≤ m) && decide (m < 20 + 4 * n)) || (decide (64 + 8 * n ≤ m) && decide (m < 72 + 8 * n))) &&
    decide (0x8A000 ≤ o) && (decide (o < lo) || decide (hi < o + len))

/-- An access to the SRAM of physical crew `n` at an offset (R11, R26, R160, R196); `a` is its physical address. -/
def State.crewAccess (s : State) (m n : Nat) (k : Access) (a size v mask : Nat) (e : Ecc) : State :=
  let o := a % 0x1000000
  if 0x100000 ≤ o then s.busErr
  else if !memForm m a size then s.busErr
  else if k = .write ∨ k = .rmw then
    if s.crewClosed n then (if k = .write then s.busOk 0 else s.memAccess m .read a size 0 0 e)
    else if 0x80000 ≤ o ∧ o < 0x88000 ∧ m ≠ 16 + 4 * n + 1 then (s.log 0x0617 (0x1000 + n) o).busErr
    else if s.outsideLive m n o size then s.busErr
    else s.memAccess m k a size v mask e
  else s.memAccess m k a size v mask e

/-! ## Registers (R3 to R6, R21) -/

/-- An access to a register address; the CAN message RAMs carry ECC (R358).  R3 names narrower and unaligned accesses; that a wider one and a fetch end
in the same bus error is a DESIGN CHOICE (notes/assumptions/97.md). -/
def State.regAccess (s : State) (m : Nat) (k : Access) (a size v mask : Nat) (e : Ecc) : State :=
  if size ≠ 4 ∨ a % 4 ≠ 0 ∨ k = .fetch then s.busErr
  else
    match regDesc (regAlias a) with
    | none => s.busErr
    | some d =>
      let a := regAlias a
      if k = .write then (s.regWrite m d a (v % 2 ^ 32)).busOk 0
      else
        let s := s.eccAt e a
        if e = .uncorrectable then s.busErr
        else
          let (old, s) := s.regRead d a
          (if k = .rmw then s.regWrite m d a (maskInto old (v % 2 ^ 32) (mask % 2 ^ 32)) else s).busOk old

/-- An access to the PLIC. -/
def State.plicAccess (s : State) (k : Access) (a size v mask : Nat) : State :=
  let o := a - plicBase
  if size ≠ 4 ∨ a % 4 ≠ 0 ∨ k = .fetch ∨ !plicDefined o then s.busErr
  else if k = .write then (s.plicWrite o (v % 2 ^ 32)).busOk 0
  else
    let r := s.plicRead o
    (if k = .rmw then r.2.plicWrite o (maskInto r.1 (v % 2 ^ 32) (mask % 2 ^ 32)) else r.2).busOk r.1

/-! ## Any address -/

/-- The access at a place that is not an alias. -/
def State.atPlace (s : State) (p : Place) (m : Nat) (k : Access) (a size v mask : Nat) (e : Ecc) : State :=
  match p with
  | .rom => if !memForm m a size ∨ k = .write ∨ k = .rmw then s.busErr else s.memAccess m k a size v mask e
  | .ram => if !memForm m a size then s.busErr else s.memAccess m k a size v mask e
  | .factory =>
    if !memForm m a size then s.busErr
    else if k = .write then s.busOk 0 else s.memAccess m .read a size v mask e
  | .slots => if !memForm m a size ∨ k = .write ∨ k = .rmw then s.busErr else s.memAccess m k a size v mask e
  | .vault => s.busErr
  | .crew n => s.crewAccess m n k a size v mask e
  | .crewAlias _ => s.unmapped m a
  | .reg => s.regAccess m k a size v mask e
  | .regOfCrew _ => s.unmapped m a
  | .plic => s.plicAccess k a size v mask
  | .nowhere => s.unmapped m a

/-- The physical address behind an alias address for physical crew `n` (R24). -/
def throughAlias (n a : Nat) : Nat :=
  if a < 0x60000000 then 0x40000000 + n * 0x1000000 + a % 0x1000000 else 0xE1000000 + n * 0x100000 + a % 0x100000

/-- The logical crew an address is an alias of. -/
def aliasOf (a : Nat) : Option Nat :=
  match placeOf a with
  | .crewAlias m => some m
  | .regOfCrew m => some m
  | _ => none

/-- An access through a logical alias at the physical address behind it (R24, R26): a write to the control window of a retired or stranded crew is
ignored. -/
def State.viaAlias (s : State) (n m : Nat) (k : Access) (a size v mask : Nat) (e : Ecc) : State :=
  let p := placeOf a
  if p = .reg ∧ s.crewClosed n ∧ (k = .write ∨ k = .rmw) then
    if k = .rmw then s.atPlace p m .read a size v mask e
    else if size ≠ 4 ∨ a % 4 ≠ 0 ∨ (regDesc (regAlias a)).isNone then s.busErr
    else s.busOk 0
  else s.atPlace p m k a size v mask e

/-- An access the firewall has let through (R18 to R26): an alias reaches the physical crew the map names when the access is accepted; while
that logical crew migrates, the access is held. -/
def State.perform (s : State) (m : Nat) (k : Access) (a size v mask : Nat) (e : Ecc) : State :=
  match aliasOf a with
  | none => s.atPlace (placeOf a) m k a size v mask e
  | some c =>
    match s.mig, s.physOf c with
    | _, none => (s.log 0x0013 (masterSource m) c).busErr
    | some g, some n =>
      if g.m = c then
        let o := a % 0x100000
        let s := s.setMig (some { g with held := g.held ++ [⟨m, k, a, size, v, mask⟩] })
        if 0xE2000000 ≤ a ∧ k = .write ∧ 0x1000 ≤ o ∧ o < 0x1400 ∧ o % 0x80 = 0x60 then s.count (Reg.LSM_MIG_DROP g.dst) 1 else s
      else s.viaAlias n m k (throughAlias n a) size v mask e
    | none, some n => s.viaAlias n m k (throughAlias n a) size v mask e

/-- An access of master `m` (R491 to R494): a frozen master issues none; one without permission is a violation and reaches no block. -/
def State.access (s : State) (m : Nat) (k : Access) (a size v mask : Nat) (e : Ecc) (task : Option (Nat × Nat)) : State :=
  if s.frozen m then s
  else if s.fwlAllowed m a size k then s.perform m k a size v mask e
  else (s.violate m a k task).busErr

/-- Completes the accesses a migration held, in the order they were accepted (R25). -/
def State.releaseHeld (s : State) (l : List HeldAcc) : State :=
  l.foldl (fun s h => s.perform h.src h.kind h.addr h.n h.data h.mask .clean) s

/-! ## The commands -/

/-- REGISTER_WRITE (R3, R5, R6, R18, R21, R26): master `src` writes `2 ^ size` bytes to a control-space address. -/
def execRegisterWrite (src : Fin 160) (a : BitVec 40) (size : Fin 4) (v : BitVec 64) (s : State) : Host.Outcome State Fault Refusal :=
  .next (s.access src .write a.toNat (2 ^ size.val) v.toNat 0 .clean none)

/-- MEMORY_ACCESS (R581): master `src` accesses `len` bytes; `v` is what a write or a read-modify-write stores, `e` what the ECC of
the read finds, `task` the context and entry an engine works for. -/
def execMemoryAccess (src : Fin 160) (k : Access) (a : BitVec 40) (len : Fin 65) (v : BitVec 512) (e : Ecc) (task : Option (Fin 512 × Fin 2))
    (s : State) : Host.Outcome State Fault Refusal :=
  .next (s.access src k a.toNat len.val v.toNat (2 ^ 512 - 1) e (task.map (fun t => (t.1.val, t.2.val))))

/-- ALIAS_ACCESS (R24): an access of `len` bytes to offset `o` of the memory alias or of the control alias of logical crew `m`. -/
def execAliasAccess (src : Fin 160) (k : Access) (m : Fin 8) (mem : Bool) (o : BitVec 24) (len : Fin 65) (v : BitVec 512) (e : Ecc) (s : State) :
    Host.Outcome State Fault Refusal :=
  let a := if mem then 0x50000000 + m.val * 0x1000000 + o.toNat else 0xE2000000 + m.val * 0x100000 + o.toNat % 0x100000
  .next (s.access src k a len.val v.toNat (2 ^ 512 - 1) e none)

end Sys2Proof.Machine
end

