-- ==== Sys2Proof/Machine/Move.lean ====
section
/-! DEFINITION. What the crew DMA and the record mover move (R480 to R489): per command one access of a channel, which combines the elements, or the
8 bytes, that lie next to each other in one 64-byte block (R482).  DESIGN CHOICE (notes/assumptions/122.md): each is written before the next is read. -/
namespace Sys2Proof.Machine

/-- The channel served next: the lowest PRIO first, and channels of equal PRIO in round-robin order after the last one served (R482). -/
def nextServed (last count : Nat) (ready : Nat → Bool) (prio : Nat → Nat) : Option Nat :=
  ((List.range count).map (fun i => (last + 1 + i) % count)).foldl (fun b i =>
    if ready i then
      match b with
      | none => some i
      | some j => if prio i < prio j then some i else b
    else b) none

/-- An address moved by signed bytes, within the 40-bit address space. -/
def moved (base : Nat) (d : Int) : Nat := (((base : Int) + d) % (2 ^ 40 : Nat)).toNat

/-- A signed 32-bit step or stride. -/
def State.stepOf (s : State) (a : Nat) : Int := toSigned 32 (s.num a)

/-! ## Crew DMA -/

/-- The elements a transfer moves. -/
def State.cdmTotal (s : State) (n ch : Nat) : Nat :=
  s.fld (F.CDM_CH_C0_C n ch) * s.fld (F.CDM_CH_C1_C n ch) * s.fld (F.CDM_CH_C2_C n ch)

/-- Source and destination of element `k` (R480). -/
def State.cdmAddr (s : State) (n ch k : Nat) : Nat × Nat :=
  let c0 := s.fld (F.CDM_CH_C0_C n ch); let c1 := s.fld (F.CDM_CH_C1_C n ch)
  let i0 : Int := (k % c0 : Nat); let i1 : Int := (k / c0 % c1 : Nat); let i2 : Int := (k / (c0 * c1) : Nat)
  (moved (s.cdmSrc n ch) (i0 * s.stepOf (Reg.CDM_CH_SS0 n ch) + i1 * s.stepOf (Reg.CDM_CH_SS1 n ch) + i2 * s.stepOf (Reg.CDM_CH_SS2 n ch)),
    moved (s.cdmDst n ch) (i0 * s.stepOf (Reg.CDM_CH_DS0 n ch) + i1 * s.stepOf (Reg.CDM_CH_DS1 n ch) + i2 * s.stepOf (Reg.CDM_CH_DS2 n ch)))

/-- Exchanges neighbouring units of `k` bytes in a list of bytes (R481). -/
def swapUnits (k : Nat) (l : List Nat) : List Nat :=
  (List.range l.length).map (fun i => l.getD (if i / k % 2 = 0 then i + k else i - k) 0)

/-- The swaps of a channel on an element (R481). -/
def cdmSwap (bswap hswap : Bool) (size v : Nat) : Nat :=
  let l := leBytes size v
  let l := if bswap then swapUnits 1 l else l
  ofLe (if hswap then swapUnits 2 l else l)

/-- An access of a channel failed with a bus error (R484, R486): it is retried, or the channel halts with CAUSE BUS. -/
def State.cdmFail (s : State) (n ch a : Nat) : State :=
  let d := s.dmaOf n ch
  if 0 < d.left then
    let s := (s.setDma n ch { d with left := d.left - 1, retried := true }).count (Reg.CDM_CH_RETRIES n ch) 1
    s.logIf (!d.retried) 0x1012 (0x8000 + 8 * n + ch) (d.pos % 2 ^ 32)
  else
    let s := (s.setNum (Reg.CDM_CH_ERR_LO n ch) (a % 2 ^ 32)).setNum (Reg.CDM_CH_ERR_HI n ch) (a / 2 ^ 32 % 256)
    (s.cdmHalt n ch 1).transient (.cdm n ch) 1

/-- An uncorrectable error halts a channel with CAUSE ECC (R483, R499). -/
def State.cdmPoison (s : State) (n ch a : Nat) : State :=
  ((s.setNum (Reg.CDM_CH_ERR_LO n ch) (a % 2 ^ 32)).setNum (Reg.CDM_CH_ERR_HI n ch) (a / 2 ^ 32 % 256)).cdmHalt n ch 2

/-- An uncorrectable error in buffer data (R499), recorded with the address its data came from. -/
def State.bufferUe (s : State) (a : Nat) : State :=
  let s := (s.count Reg.FWL_ECC_UE 1).setNum64 Reg.FWL_ECC_ADDR_LO Reg.FWL_ECC_ADDR_HI a
  (s.setFld F.FWL_STATUS_ECC_UE 1).log 0x1021 0 (a % 2 ^ 32)

/-- An element has been written (R480, R483): the last one ends the transfer, and a FEED channel's segments are in the queue. -/
def State.cdmWritten (s : State) (n ch : Nat) : State :=
  let d := s.dmaOf n ch
  let s := (s.setDma n ch { d with pos := d.pos + 1, left := s.fld (F.CDM_CH_MODE_RETRY n ch) }).setNum (Reg.CDM_CH_POS n ch) ((d.pos + 1) % 2 ^ 32)
  if d.pos + 1 < s.cdmTotal n ch then s
  else
    let s := (s.setCdmState n ch 0).setRbit (Reg.CDM_STATUS n) ch true
    if s.fld (F.CDM_CH_CFG_OWNER n ch) = 2 then s.feedDone n ch else s

/-- An address is an alias of the migrating crew: an access to it waits for the switch (R25). -/
def State.aliasWaits (s : State) (a : Nat) : Bool := s.mig.any (fun g => aliasOf a == some g.m)

/-- Moves one element of a channel (R480 to R486); `e` is what the ECC of the source finds, `b` that of the buffer. -/
def State.cdmMove (s : State) (n ch : Nat) (e b : Ecc) : State :=
  let mst := 64 + 8 * n + ch
  let (src, dst) := s.cdmAddr n ch (s.dmaOf n ch).pos
  let size := s.cdmEsize n ch
  if s.aliasWaits src || s.aliasWaits dst then s
  else
  let s := s.access mst .read src size 0 0 e none
  if s.frozen mst then s
  else if e = .uncorrectable ∧ s.bus.err then s.cdmPoison n ch src
  else if s.bus.err then s.cdmFail n ch src
  else
    let v := s.bus.data
    let s := if b = .corrected then s.eccCorrected 5 else s
    if b = .uncorrectable then ((s.bufferUe src).cdmPoison n ch src).fatal (.cdm n ch) 2
    else
      let v := cdmSwap (s.flag (F.CDM_CH_MODE_BSWAP n ch)) (s.flag (F.CDM_CH_MODE_HSWAP n ch)) size v
      let s := s.access mst .write dst size v 0 .clean none
      if s.frozen mst then s
      else if s.bus.err then s.cdmFail n ch dst
      else s.cdmWritten n ch

/-- The control space, whose accesses are never combined (R482). -/
def inControl (a : Nat) : Bool := decide (0xE0000000 ≤ a) && decide (a < 0xE2800000)

/-- How many pieces of `size` bytes from position `p` lie next to each other on both sides within aligned 64-byte blocks: the length of a burst (R482). -/
def burstLen (addr : Nat → Nat × Nat) (p step size total : Nat) : Nat :=
  let (src, dst) := addr p
  if inControl src || inControl dst then 1
  else 1 + (((List.range 63).map (· + 1)).takeWhile (fun j =>
    decide (p + j * step < total) && addr (p + j * step) == (src + j * size, dst + j * size) &&
      decide (src % 64 + (j + 1) * size ≤ 64) && decide (dst % 64 + (j + 1) * size ≤ 64))).length

/-- Moves up to `k` elements of a channel, while it stays ACTIVE and each is written (R482, R485). -/
def State.cdmMoves (n ch : Nat) : Nat → Ecc → Ecc → State → State
  | 0, _, _, s => s
  | k + 1, e, b, s =>
    let t := s.cdmMove n ch e b
    if t.cdmState n ch = 1 ∧ (t.dmaOf n ch).pos = (s.dmaOf n ch).pos + 1 then t.cdmMoves n ch k .clean .clean else t

/-- The elements of the next access: a retry moves a single one (R484). -/
def State.cdmBurst (s : State) (n ch : Nat) : Nat :=
  let d := s.dmaOf n ch
  if d.left = s.fld (F.CDM_CH_MODE_RETRY n ch) then burstLen (s.cdmAddr n ch) d.pos 1 (s.cdmEsize n ch) (s.cdmTotal n ch) else 1

/-- CDM_ACCESS (R482): the engines of a crew make one access for the channel whose turn it is. -/
def execCdmAccess (n : Fin 9) (e b : Ecc) (s : State) : Host.Outcome State Fault Refusal :=
  if s.crewDeaf n then .next s
  else
    match nextServed (Tab.get (fun _ => 7) s.dmaLast n) 8 (fun ch => s.cdmState n ch == 1 && !s.frozen (64 + 8 * n + ch))
        (fun ch => s.fld (F.CDM_CH_CFG_PRIO n ch)) with
    | none => .next s
    | some ch => .next ((s.setDmaLast (Tab.put s.dmaLast n ch)).cdmMoves n ch (s.cdmBurst n ch) e b)

/-! ## Record mover -/

/-- Source and destination of byte `p` of a pass (R488). -/
def State.rmvAddr (s : State) (c p : Nat) : Nat × Nat :=
  let sl := s.fld (F.RMV_S_LINE_LINE c); let dl := s.fld (F.RMV_D_LINE_LINE c)
  (moved (s.rmvSrc c) (((p / sl : Nat) : Int) * s.stepOf (Reg.RMV_S_STRIDE c) + (p % sl : Nat)),
    moved (s.rmvDst c) (((p / dl : Nat) : Int) * s.stepOf (Reg.RMV_D_STRIDE c) + (p % dl : Nat)))

/-- The half a circular channel waits on before it writes byte `p` (R489): 0 HALF, 1 FULL. -/
def State.rmvWaits (s : State) (c p : Nat) : Option Nat :=
  if !s.flag (F.RMV_CTRL_CIRC c) then none
  else if p = 0 ∧ s.flag (F.RMV_STATUS_HALF c) then some 0
  else if p = 8 * (s.rmvTotal c / 16) ∧ s.flag (F.RMV_STATUS_FULL c) then some 1
  else none

/-- `p` bytes of the pass have been written, 8 more than before (R489). -/
def State.rmvWritten (s : State) (c p : Nat) : State :=
  let h := 8 * (s.rmvTotal c / 16)
  let s := if p = h ∨ (h = 0 ∧ p ≤ 8) then s.setFld (F.RMV_STATUS_HALF c) 1 else s
  let full := decide (s.rmvTotal c ≤ p)
  let circ := s.flag (F.RMV_CTRL_CIRC c)
  let s := if full then s.setFld (F.RMV_STATUS_FULL c) 1 else s
  let q := if full && circ then 0 else p
  let s := (s.setRmv c { s.rmvOf c with pos := q, left := s.fld (F.RMV_CTRL_RETRY c), waiting := false }).setNum (Reg.RMV_POS c) (q % 2 ^ 32)
  if full && !circ then s.setFld (F.RMV_STATUS_STATE c) 0 else s

/-- An access of a channel failed with a bus error (R484, R486). -/
def State.rmvFail (s : State) (c : Nat) : State :=
  let d := s.rmvOf c
  if 0 < d.left then
    (s.setRmv c { d with left := d.left - 1, retried := true }).logIf (!d.retried) 0x1012 (0x8100 + c) (d.pos % 2 ^ 32)
  else (s.rmvHalt c 1).transient (.rmv c) 1

/-- Moves 8 bytes of a channel (R488, R489). -/
def State.rmvMove (s : State) (c : Nat) (e b : Ecc) : State :=
  let d := s.rmvOf c
  match s.rmvWaits c d.pos with
  | some k =>
    let s := s.setFld (F.RMV_STATUS_OVR c) 1
    if d.waiting then s else (s.setRmv c { d with waiting := true }).log 0x1014 (0x8100 + c) k
  | none =>
    if s.rmvTotal c = 0 then s.rmvWritten c 0
    else
      let mst := 136 + c
      let (src, dst) := s.rmvAddr c d.pos
      if s.aliasWaits src || s.aliasWaits dst then s
      else
      let s := s.access mst .read src 8 0 0 e none
      if s.frozen mst then s
      else if e = .uncorrectable ∧ s.bus.err then s.rmvHalt c 2
      else if s.bus.err then s.rmvFail c
      else
        let v := s.bus.data
        let s := if b = .corrected then s.eccCorrected 5 else s
        if b = .uncorrectable then ((s.bufferUe src).rmvHalt c 2).fatal (.rmv c) 2
        else
          let s := s.access mst .write dst 8 v 0 .clean none
          if s.frozen mst then s
          else if s.bus.err then s.rmvFail c
          else s.rmvWritten c (d.pos + 8)

/-- Moves up to `k` times 8 bytes of a channel, while it stays ACTIVE and they are written. -/
def State.rmvMoves (c : Nat) : Nat → Ecc → Ecc → State → State
  | 0, _, _, s => s
  | k + 1, e, b, s =>
    let t := s.rmvMove c e b
    if t.fld (F.RMV_STATUS_STATE c) = 1 ∧ (t.rmvOf c).pos = (s.rmvOf c).pos + 8 then t.rmvMoves c k .clean .clean else t

/-- The next access in units of 8 bytes: a retry moves one. -/
def State.rmvBurst (s : State) (c : Nat) : Nat :=
  let d := s.rmvOf c
  if s.rmvTotal c ≠ 0 ∧ d.left = s.fld (F.RMV_CTRL_RETRY c) then burstLen (s.rmvAddr c) d.pos 8 8 (s.rmvTotal c) else 1

/-- RMV_ACCESS (R488, R489): the record mover makes one access for the channel whose turn it is. -/
def execRmvAccess (e b : Ecc) (s : State) : Host.Outcome State Fault Refusal :=
  match nextServed (Tab.get (fun _ => 3) s.dmaLast 9) 4 (fun c => s.fld (F.RMV_STATUS_STATE c) == 1 && !s.frozen (136 + c)) (fun _ => 0) with
  | none => .next s
  | some c => .next ((s.setDmaLast (Tab.put s.dmaLast 9 c)).rmvMoves c (s.rmvBurst c) e b)

end Sys2Proof.Machine
end

