-- ==== Sys2Proof/Machine/Rra.lean ====
section
/-! DEFINITION. Remote register access (R388 to R391): requests of the host, executed in order by the bus master RRA. -/
namespace Sys2Proof.Machine

def State.setRra (s : State) (r : RraState) : State := { s with rra := r }

/-- A request keeps the layout of R388. -/
def rraLayout (l : List Nat) : Bool :=
  let nops := fieldAt l 6 1
  fieldAt l 0 4 == 0x484E4D41 && fieldAt l 4 2 == 1 && decide (1 ≤ nops) && decide (nops ≤ 64) && decide (fieldAt l 7 1 < 4) &&
    ((l.take 0x20).drop 0x10).all (fun b => b == 0) && decide (l.length = 0x30 + 16 * nops)

/-- The nonce (R388): that of a response has bit 7 of byte 0 set. -/
def rraNonce (key seq : Nat) (answer : Bool) : List Nat := [key + b2n answer * 128, 0, 0, 0] ++ leBytes 8 seq

/-- The HOST key of a slot, where the vault holds one (R518). -/
def State.hostKey (s : State) (k : Nat) : Option (List Nat) := (Tab.find s.vlt.pkeys (0x1000 + k)).map Prod.fst

/-- The 16 bytes of an authentication tag: an empty plaintext, the message as additional data (R388, R391). -/
def rraTag (key nonce data : List Nat) : List Nat := gcmTag key nonce data []

/-- A request is authentic: its layout holds and its tag is the tag under the host key of its slot. -/
def State.rraAuthentic (s : State) (l : List Nat) : Bool :=
  rraLayout l &&
    (match s.hostKey (fieldAt l 7 1) with
     | some key =>
       let n := l.length - 16
       l.drop n == rraTag key (rraNonce (fieldAt l 7 1) (fieldAt l 8 8) false) (l.take n)
     | none => false)

/-- One operation of a request: its status (R391) and value. -/
def State.rraOp (s : State) (op : List Nat) : Nat × Nat × State :=
  let code := fieldAt op 0 1 % 16
  let a := fieldAt op 4 4 + fieldAt op 1 1 * 2 ^ 32
  let v := fieldAt op 8 4
  if s.frozen 9 then (2, 0, s)
  else if code = 0 ∨ 3 < code then (3, 0, s)
  else
    let k : Access := if code = 1 then .read else if code = 2 then .write else .rmw
    let s := s.access 9 k a 4 v (fieldAt op 12 4) .clean none
    if s.frozen 9 then (2, 0, s)
    else if s.bus.err then (1, 0, s)
    else (0, if code = 2 then 0 else s.bus.data, s)

/-- The operations of a request in order (R390): after the first that fails, the later ones are NOT_RUN. -/
def State.rraOps (s : State) : List (List Nat) → List Nat × State
  | [] => ([], s)
  | op :: ops =>
    let (st, v, s) := s.rraOp op
    if st = 0 then
      let (r, s) := s.rraOps ops
      (leBytes 4 0 ++ leBytes 4 v ++ r, s)
    else (leBytes 4 st ++ leBytes 4 0 ++ ops.flatMap (fun _ => leBytes 4 4 ++ leBytes 4 0), s)

/-- Sends a response (R391) to the requester. -/
def State.rraAnswer (s : State) (who : List Nat) (key seq nops result : Nat) (recs : List Nat) : State :=
  let b := leBytes 4 0x534E4D41 ++ leBytes 2 1 ++ leBytes 1 nops ++ leBytes 1 result ++ leBytes 8 seq ++
    leBytes 8 (Tab.get (fun _ => 0) s.rra.last key) ++ List.replicate 8 0 ++ recs
  s.emit (.frame 0xA000 (who ++ b ++ rraTag ((s.hostKey key).getD []) (rraNonce key seq true) b))

/-- Accepts a sequence number (R389): MRAM takes it at each multiple of 65 536. -/
def State.rraAccept (s : State) (key seq : Nat) : State :=
  let r := s.rra
  let nv := Tab.get (fun _ => 0) r.nv key
  s.setRra { r with
    last := Tab.put r.last key seq
    nv := if nv / 65536 < seq / 65536 then Tab.put r.nv key (seq / 65536 * 65536) else r.nv }

/-- What the module does with an authentic request (R389). -/
def State.rraRun (s : State) (who l : List Nat) : State :=
  let key := fieldAt l 7 1; let seq := fieldAt l 8 8; let nops := fieldAt l 6 1
  let floor := Tab.get (fun _ => 0) s.rra.last key
  if floor < seq then
    let ops := (List.range nops).map (fun i => (l.drop (0x20 + 16 * i)).take 16)
    let (recs, s) := (s.rraAccept key seq).rraOps ops
    (s.setRra { s.rra with resp := Tab.put s.rra.resp key recs }).rraAnswer who key seq nops 0 recs
  else
    match (if seq = floor then Tab.find s.rra.resp key else none) with
    | some recs => s.rraAnswer who key seq (recs.length / 8) 1 recs
    | none =>
      ((s.log 0x0C14 0x6014 (seq % 2 ^ 32)).ethIrq 4 3).rraAnswer who key seq nops 2
        ((List.range nops).flatMap (fun _ => leBytes 4 4 ++ leBytes 4 0))

/-- An operation of the request addresses the migrating logical crew, so that the request waits for the switch (R25). -/
def State.rraHeld (s : State) (l : List Nat) : Bool :=
  match s.mig with
  | none => false
  | some g =>
    (List.range (fieldAt l 6 1)).any (fun i =>
      let op := (l.drop (0x20 + 16 * i)).take 16
      aliasOf (fieldAt op 4 4 + fieldAt op 1 1 * 2 ^ 32) == some g.m)

/-- Runs the requests that waited (R25), in order. -/
def State.rraResume (s : State) : State :=
  s.rra.wait.foldl (fun s w => s.rraRun w.1 w.2) (s.setRra { s.rra with wait := [] })

/-- RRA_REQUEST (R388 to R391): a datagram of a requester (its address and port) reaches RRA_PORT on P2. -/
def execRraRequest (ip : BitVec 32) (port : BitVec 16) (dg : List Byte) (s : State) : Host.Outcome State Fault Refusal :=
  let l := dg.map BitVec.toNat
  let who := (leBytes 4 ip.toNat).reverse ++ (leBytes 2 port.toNat).reverse
  if !s.rraAuthentic l then
    .next (((s.count (Reg.ETH_CNT_RRA_AUTH 4) 1).logPerSecond 0x68000 0x0C13 0x6014 (fieldAt l 7 1)).ethIrq 4 3)
  else if s.rraHeld l || !s.rra.wait.isEmpty then .next (s.setRra { s.rra with wait := s.rra.wait ++ [(who, l)] })
  else .next (s.rraRun who l)

end Sys2Proof.Machine
end

