-- ==== Sys2Proof/Machine/Catch.lean ====
section
/-! DEFINITION. Catches at their consumers, the switch catches of a migration and of a replacement, and what a fabric cycle completes (R24, R25,
R51, R87 to R89, R197 to R199, R534). -/
namespace Sys2Proof.Machine

/-! ## Accesses that wait -/

/-- Completes what waited for a crew (R25): the accesses `l`, then the requests of RRA. -/
def State.completeHeld (s : State) (l : List HeldAcc) : State :=
  let s := s.releaseHeld l
  if s.rra.wait.isEmpty then s else s.rraResume

/-- Completes the accesses of a migration that was abandoned for good (R199, R200). -/
def State.settleHeld (s : State) : State :=
  if s.owed.isEmpty then (if s.mig.isNone && !s.rra.wait.isEmpty then s.rraResume else s)
  else (s.setOwed []).completeHeld s.owed

/-- TIME_BASE_TICK (R52): one fabric cycle, which first ends at every cox; heaters follow their courses (R348). -/
def execTimeBaseTick (s : State) : Host.Outcome State Fault Refusal := .next s.coxCycles.tick.settleHeld.heatersFollow

/-! ## The switch of a migration (R197, R534) -/

/-- The oldest catch of table `m` on its way. -/
def State.nextCatch (s : State) (m : Nat) : Option Catch := s.inflight.find? (fun c => c.m == m)

/-- The catch with CSEQ `q` of table `m` is the switch catch of the migration. -/
def State.migDue (s : State) (m q : Nat) : Bool := s.mig.any (fun g => g.m == m && g.copied) && cseqEntry q == 0

/-- Catches on their way go to the crew the map names now. -/
def State.redirect (s : State) (m n : Nat) : State :=
  s.setInflight (s.inflight.map (fun c => if c.m = m then { c with phys := n } else c))

/-- The migration switches: the crew left behind is reset with cause LOCKSTEP, and the held accesses complete on the new crew. -/
def State.migrate (s : State) : State :=
  match s.mig with
  | none => s
  | some g => ((s.migSwitch.redirect g.m g.dst).domainReset (8 + g.src) 4).completeHeld g.held

/-- MIGRATION_SWITCH (R197): the switch catch is the oldest catch on its way. -/
def execMigrationSwitch (s : State) : Host.Outcome State Fault Refusal :=
  match s.mig with
  | none => .next s
  | some g =>
    match s.nextCatch g.m with
    | some c => .next (if s.migDue g.m c.cseq then s.migrate else s)
    | none => .next s

/-! ## The switch of a replacement (R87, R89) -/

/-- The catch with CSEQ `q` of table `m` is the switch catch of the replacement, or lies beyond it. -/
def State.replDue (s : State) (m q : Nat) : Bool :=
  s.iml.repl.any (fun p => p.m == m && p.loaded && !p.done && cseqEntry q == 0 &&
    p.sw.any (fun w => decide (0 ≤ strokeDiff (strokeOf q) (strokeOf w))))

/-- What the switch makes of resident recipe `r` (R89, R224). -/
def State.rcpReplaced (s : State) (m r : Nat) : State :=
  let v := s.rcpState r
  if v = 1 ∨ v = 6 ∨ v = 7 then (if s.rcpCompat r then s else s.setRcpTo r 9 9)
  else if s.rcpActive r && (s.rcpCrewList r).contains m then
    let s := s.seqForce r 9
    s.setSlot r { s.slotOf r with locked := true }
  else s

/-- The successor's tables and the registers in which the partial image differs from its parent take effect. -/
def State.succApply (s : State) (h hs : ImgHdr) (c cs base : ImgContent) : State :=
  let s := (s.setImg { cs.tables with parent := h.parent, part := h.part }).setRce { s.rce with cfg := cs.record }
  let s := (c.regs.filter (fun e => Tab.get regReset base.regs e.1 != e.2)).foldl (fun s e => s.imgWrite e.1 e.2) s
  let s := (s.coursesOn.setNum64 Reg.IML_ACTIVE_ID_LO Reg.IML_ACTIVE_ID_HI hs.id).setNum Reg.IML_ARB hs.arbVer
  s.extendMeas 2 h.digest

/-- The replacement switches (R87 steps 3 and 4): the crew map, the crossbar and the contents, and what is resident (R89). -/
def State.replace (s : State) : State :=
  match s.iml.repl, s.iml.cand, s.slotIml s.inactive, s.runCont with
  | some p, some (h, c), ⟨_, some hs, some cs⟩, some base =>
    let s := (((s.replLoops p.old p.dst).copyStages p.old p.dst).mapCrew p.m p.dst).redirect p.m p.dst
    let s := s.succApply h hs c cs base
    let s := s.setIml { s.iml with repl := some { p with done := true } }
    let s := (List.range 16).foldl (fun s r => s.rcpReplaced p.m r) s
    s.cycReplaced.chooseSpare
  | _, _, _, _ => s

/-- REPLACE_SWITCH (R87): the switch catch is the oldest catch on its way. -/
def execReplaceSwitch (s : State) : Host.Outcome State Fault Refusal :=
  match s.iml.repl with
  | none => .next s
  | some p =>
    match s.nextCatch p.m with
    | some c => .next (if s.replDue p.m c.cseq then s.replace else s)
    | none => .next s

/-! ## A catch arrives (R51) -/

/-- The dip cut that waits for a stroke start of the reference table (R225, R550). -/
def State.dipStroke (s : State) (m q : Nat) : State :=
  if s.rpc.dipWait && s.fld F.SEQ_CKPT_CFG_REF == m then
    (s.setRpc { s.rpc with dipWait := false, dipCut := true }).ckptCut m q true
  else s

/-- What a stroke start of table `m` does: cuts of the sequencer and the mirror, and dropout tokens of remote stations (R225, R226, R433,
R446). -/
def State.strokeStart (s : State) (m q : Nat) : State :=
  let s := (((s.outputsStroke m).cutStroke m q).mirStroke m q).dipStroke m q
  if s.pvm.conns.isEmpty then s else (s.connTick true m).seritDropout m q

/-- A catch at the crew it was issued to: a crew that issues nothing takes none, and one that a migration discards is counted (R51, R198). -/
def State.crewCatch (s : State) (m n q : Nat) : State :=
  if s.mig.any (fun g => g.m == m) then s.dropItem n
  else if 9 ≤ n ∨ s.crewDeaf n then s
  else (if cseqEntry q = 0 then s.lsmStroke n else s).coxCatch n q

/-- A catch at the step stages of its crew's axes, which run on while the crew cannot (R254). -/
def State.axesCatch (s : State) (m n pos q : Nat) : State :=
  if 9 ≤ n then s else (List.range 4).foldl (fun s j => s.axCatch n (4 * m + j) pos q) s

/-- The token of a hardware source (R17, R66, R269, R337): encoder position, current-loop readback, digital inputs, VIN and VFLD.  DESIGN CHOICE
(notes/assumptions/113.md): an encoder that reports a fault sends ST 1. -/
def State.srcToken (s : State) (sig q : Nat) : Token :=
  let id := BitVec.ofNat 12 sig
  if sig < 0xB8 then mkToken (s.encValue (sig - 0xA8)) id (if s.encFaulty (sig - 0xA8) then 1 else 0) q
  else if sig < 0xC8 then
    let n := sig - 0xB8
    let st : BitVec 4 := if !s.inUse (.clo n) || !s.flag (F.CLO_STATUS_ENABLED n) then 1
      else if s.flag (F.CLO_STATUS_COMPLIANCE n) || s.flag (F.CLO_STATUS_LOOP_LOW n) then 2 else 0
    mkToken (s.rd (Reg.CLO_MEAS n)) id st q
  else if sig < 0xCC then
    let g := sig - 0xC8
    mkToken (F32.ofInt (bitsOf (s.rd (Reg.DIO_STATE (g / 2))) (16 * (g % 2)) 16 : Nat)) id 0 q
  else mkToken (F32.ofRatio (s.fld (if sig = 0xCC then F.RPC_SUPPLY_VIN_MV else F.RPC_SUPPLY_VFLD_MV) : Nat) 1000) id 0 q

/-- The tokens of the hardware sources that the image schedules on a catch of table `m`. -/
def State.sourceTokens (s : State) (m q : Nat) : State :=
  s.emitToks 11 ((s.img.srcs.filter (fun x => x.crew == m && x.e == cseqEntry q)).map (fun x => s.srcToken x.sig q))

/-- A catch reaches its consumers. -/
def State.catchArrives (s : State) (c : Catch) : State :=
  let s := s.sourceTokens c.m c.cseq
  let s := if cseqEntry c.cseq = 0 then s.strokeStart c.m c.cseq else s
  ((s.crewCatch c.m c.phys c.cseq).axesCatch c.m c.phys c.pos c.cseq).rceCatch c.m c.cseq c.time

/-- CATCH_ARRIVAL (R51): the oldest catch of table `m` on its way; a switch that falls on it comes first. -/
def execCatchArrival (m : Fin 8) (s : State) : Host.Outcome State Fault Refusal :=
  match s.nextCatch m with
  | none => .next s
  | some c =>
    let s := if s.replDue m c.cseq then s.replace else s
    let s := if s.migDue m c.cseq then s.migrate else s
    match s.nextCatch m with
    | some c => .next ((s.setInflight (s.inflight.erase c)).catchArrives c)
    | none => .next s

end Sys2Proof.Machine
end

