-- ==== Sys2Proof/Machine/Din.lean ====
section
/-! DEFINITION. Edges of the digital inputs (R64 to R66) with what they do to the axes (R275) and the trigger units (R306). -/
namespace Sys2Proof.Machine

/-- The input that a homing mode takes as its reference (R274). -/
def State.refField (s : State) (n a mode : Nat) : Option Nat :=
  let v := match mode with
    | 2 => s.fld (F.AX_INPUTS_LIM_POS n (a % 4))
    | 3 => s.fld (F.AX_INPUTS_LIM_NEG n (a % 4))
    | 6 => 0
    | 7 => 0
    | _ => s.fld (F.AX_INPUTS_HOME n (a % 4))
  if bit v 7 then some (v % 64) else none

/-- The reference latch of an axis after a raw edge of DIN_n (R275). -/
def State.refLatch (s : State) (a d : Nat) (departs : Bool) : State :=
  match s.axCrew a, (s.axisOf a).home with
  | some n, some h =>
    if s.refField n a h.mode = some d then
      s.setAxis a { s.axisOf a with latch := if departs then some ((s.axisOf a).cpos, s.encCount (s.fld (F.AX_CFG_FB_ENC n (a % 4)))) else none }
    else s
  | _, _ => s

/-- DIN_RAW_EDGE (R64, R65, R275): the stamp is corrected by the input delay of 1.50 µs (R571); with F = 0 the edge qualifies. -/
def execDinRawEdge (n : Fin 64) (level : Bool) (s : State) : Host.Outcome State Fault Refusal :=
  let moved := level != s.dinRaw n
  let s := s.setRbit (Reg.DIO_RAW (n / 32)) (n % 32) level
  let d := { s.dinOf n with edge := if moved then s.time.cycle else (s.dinOf n).edge }
  let departs := level != s.dinLevel n
  let s := (List.range 32).foldl (fun s a => s.refLatch a n departs) s
  let s := s.setDin n (if departs && d.cand.isNone then { d with cand := some (s.now.move (-(1500 * 2 ^ 24))) } else d)
  if s.fld (F.DIO_FILT_FILT_US n) = 0 then .next (s.dinQualify n) else .next s

/-- DIN_QUALIFY (R64, R65): the raw level has stayed for F since its last edge; a new level qualifies, a return discards the candidate. -/
def execDinQualify (n : Fin 64) (s : State) : Host.Outcome State Fault Refusal :=
  if s.lasted (s.dinOf n).edge (s.fld (F.DIO_FILT_FILT_US n) * cycPerUs) then .next (s.dinQualify n) else .next s

end Sys2Proof.Machine
end

