-- ==== Sys2Proof/WellFormed.lean ====
section
/-! DEFINITION. Which operands of a command the hardware can present: ranges that the types of the operands do not state.  A meaning does not
rest on them; a command that fails one describes no event of this module. -/
namespace Sys2Proof.Machine

/-- The module has the resource (R10 to R12, R29). -/
def Res.present (r : Res) : Bool :=
  match r with
  | .conv k => decide (k < 20)
  | .tdac p => decide (p < 8)
  | .crew n => decide (n < 9)
  | .stage n j => decide (n < 9) && decide (j < 4)
  | .enc g => decide (g < 16)
  | .clo n => decide (n < 16)
  | .vdr n => decide (n < 64)
  | .can n => decide (n < 8)
  | .eth n => decide (n < 6)
  | .lane l => decide (l < 2)
  | .cdm n ch => decide (n < 9) && decide (ch < 8)
  | .rmv c => decide (c < 4)
  | .link l => decide (l < 12)
  | .brake b => decide (b < 8)
  | .group g => decide (g < 4)
  | .conn k => decide (k < 1024)
  | .domain d => decide (d < 32)

/-- A reading of the time base (R52): 48 bits of seconds, nanoseconds below 10^9, 24 bits of fraction. -/
def Stamp.wf (t : Stamp) : Bool := decide (t.sec < 2 ^ 48) && decide (t.nsec < 1000000000) && decide (t.sub < 2 ^ 24)

/-- A path a token reaches a unit on (R504): a link, or 0x100 + k for the stream of converter k. -/
def linkWf (l : Nat) : Bool := decide (l < 12) || (decide (0x100 ≤ l) && decide (l < 0x114))

/-- The data bytes of a CAN frame by its DLC (R361, R365). -/
def dlcLen (fdf : Bool) (dlc : Nat) : Nat :=
  if dlc ≤ 8 then dlc else if fdf then [12, 16, 20, 24, 32, 48, 64].getD (dlc - 9) 64 else 8

/-- A CAN frame carries the bytes its DLC says, a remote frame none; an FD frame is no remote frame; a standard
identifier has 11 bits. -/
def CanFrame.wf (f : CanFrame) : Bool :=
  !(f.rtr && f.fdf) && f.data.length == (if f.rtr then 0 else dlcLen f.fdf f.dlc.toNat) && (f.xtd || decide (f.id.toNat < 2 ^ 11)) &&
    (f.fdf || (!f.brs && !f.esi))

end Sys2Proof.Machine

namespace Sys2Proof
open Machine

/-- The command is one the module can meet. -/
def Instr.wf (i : Instr) : Bool :=
  match i with
  | .coxTokenArrival _ _ _ link _ => linkWf link
  | .rceToken link _ => linkWf link
  | .outputToken _ link _ _ => linkWf link
  | .seritOutputToken link _ => linkWf link
  | .stepConditionObserve _ link _ => linkWf link
  | .canTxMapToken _ _ link _ sof => linkWf link && sof.all Stamp.wf
  | .cycStartCatch _ arr => arr.all (fun a => linkWf a.1)
  | .coxRelease _ _ acq => decide (acq.length ≤ 8)
  | .loopUpdate _ _ bad => bad.all (fun k => decide (k < 2 ^ 16))
  | .rowClose _ bad => bad.all (fun g => decide (g < 4096))
  | .mainsCrossing period _ => decide (0 < period)
  | .convEnd _ codes => codes.all (fun c => decide (-(2 ^ 23 : Int) ≤ c) && decide (c < 2 ^ 23))
  | .canFrameRx _ f t => f.wf && t.wf
  | .canTxCancel _ _ sof => sof.all Stamp.wf
  | .canTxComplete _ t => t.wf
  | .canBusError _ _ sof => sof.all Stamp.wf
  | .canArbitrationLost _ t => t.wf
  | .ethFrameRx _ bytes _ _ t => decide (14 ≤ bytes.length) && decide (bytes.length ≤ 2000) && t.wf
  | .ethFrameTx _ _ addrs _ payload => addrs.length == 12 && decide (payload.length ≤ 1500)
  | .seritContainerRx _ bytes => decide (bytes.length ≤ 1500)
  | .heartbeatRx _ bytes => decide (bytes.length ≤ 1500)
  | .mirrorFrameRx _ bytes => decide (bytes.length ≤ 9216)
  | .retxRequest dg => decide (dg.length ≤ 1472)
  | .rraRequest _ _ dg => decide (dg.length ≤ 1472)
  | .eccScrub addr _ => decide (addr < 2 ^ 40)
  | .retryWindowElapsed r => r.present
  | .readmitTestDone r _ => r.present
  | _ => true

end Sys2Proof
end

