-- ==== Sys2Proof/Machine/Health.lean ====
section
/-! DEFINITION. The ends of a health window and of a re-admission test, with what each resource's chapter makes of them (R30, R148, R202, R342,
R347, R373, R383, R417, R420, R427, R457, R486, R504, R539). -/
namespace Sys2Proof.Machine

/-- A change of a resource's health with what follows from it in the block that owns it. -/
def State.withOwner (s : State) (r : Res) (f : State → State) : State :=
  match r with
  | .can n => s.canHealth n f
  | .eth n => s.ethHealth n f
  | .lane l => s.laneHealth l f
  | .link l => s.linkHealth l f
  | .conv k => if k < 16 then (f s).pairRefresh (k / 2) else f s
  | .tdac p => (f s).pairRefresh p
  | .clo n => (f s).cloDrive n
  | .vdr n => (f s).vdrDrive n
  | .domain d => if s.health r = (f s).health (.domain d) then f s else (f s).rpcIrq 5
  | .crew n => if s.health (.crew n) = (f s).health (.crew n) then f s else (f s).chooseSpare
  | .stage _ _ => f s
  | .enc g => if s.encFaulty g = (f s).encFaulty g then f s else (f s).encFaultHooks g
  | .cdm _ _ => f s
  | .rmv _ => f s
  | .brake _ => f s
  | .group _ => f s
  | .conn _ => f s

/-- RETRY_WINDOW_ELAPSED (R30): the window W of a resource in RETRY elapses. -/
def execRetryWindowElapsed (r : Res) (s : State) : Host.Outcome State Fault Refusal :=
  .next (if r.present then s.withOwner r (fun s => s.windowElapsed r) else s)

/-- A passed test (R30): a brake or group output loses its fault (R417, R420), a Serit-S connection runs (R427). -/
def State.readmitted (s : State) (r : Res) : State :=
  let s := (s.anaTestOver r).withOwner r (fun s => s.testPassed r)
  match r with
  | .brake b => s.setFldBit F.PVM_BRK_FAULT b false
  | .group g => (s.setFldBit F.PVM_GRP_FAULT g false).groupCycle g
  | _ => s

/-- The end of a converter's or a test DAC's test, once its levels are measured (R148).  The spec gives no failure code for an error beyond the bound:
a free value (notes/assumptions/3.md). -/
def State.anaTested (s : State) (r : Res) : State :=
  match s.anaVerdict r with
  | none => s
  | some true => s.readmitted r
  | some false =>
    let (c, s) := s.freshNat
    (s.anaTestOver r).withOwner r (fun s => s.testFailed r c)

/-- READMIT_TEST_DONE (R30): the test of a resource ends with a failure code, 0 when it passes. -/
def execReadmitTestDone (r : Res) (code : BitVec 16) (s : State) : Host.Outcome State Fault Refusal :=
  if !r.present || s.health r != .testing then .next s
  else
    match r with
    | .crew n => .next (s.crewTested n code.toNat)
    | .domain d => .next (s.domainTested d code.toNat)
    | .conv _ => .next (s.anaTested r)
    | .tdac _ => .next (s.anaTested r)
    | .conn k =>
      -- the test's OPEN exchange passes it in `pduOpen`; it fails 1 s after its start (R427)
      if s.lasted (s.connOf k).test (1000 * cycPerMs) then
        let (c, s) := s.freshNat
        .next (s.withOwner r (fun s => s.testFailed r c))
      else .next s
    | .clo n =>
      match s.cloVerdict n with
      | none => .next s
      | some true => .next (s.readmitted r)
      | some false =>
        let (c, s) := s.freshNat
        .next (s.withOwner r (fun s => s.testFailed r c))
    | _ => if code = 0 then .next (s.readmitted r) else .next (s.withOwner r (fun s => s.testFailed r code.toNat))

end Sys2Proof.Machine
end

