-- ==== Sys2Proof/Machine/Dispatch.lean ====
section
/-! DEFINITION. The meaning of every command: one arm per constructor. -/
namespace Sys2Proof.Machine

def exec (i : Instr) (s : State) : Host.Outcome State Fault Refusal :=
  match i with
  | .registerWrite src a size v => Sys2Proof.Machine.execRegisterWrite src a size v s
  | .memoryAccess src k a size v e task => Sys2Proof.Machine.execMemoryAccess src k a size v e task s
  | .aliasAccess src k m mem o size v e => Sys2Proof.Machine.execAliasAccess src k m mem o size v e s
  | .retryWindowElapsed r => Sys2Proof.Machine.execRetryWindowElapsed r s
  | .readmitTestDone r code => Sys2Proof.Machine.execReadmitTestDone r code s
  | .spareSelfTest => Sys2Proof.Machine.execSpareSelfTest s
  | .spareSelfTestDone ok => Sys2Proof.Machine.execSpareSelfTestDone ok s
  | .evlDrain => Sys2Proof.Machine.execEvlDrain s
  | .evlDramEnable => Sys2Proof.Machine.execEvlDramEnable s
  | .swEventRaise c subcode => Sys2Proof.Machine.execSwEventRaise c subcode s
  | .swEventDetailWrite c v => Sys2Proof.Machine.execSwEventDetailWrite c v s
  | .courseUpdate => Sys2Proof.Machine.execCourseUpdate s
  | .catchIssue m => Sys2Proof.Machine.execCatchIssue m s
  | .catchArrival m => Sys2Proof.Machine.execCatchArrival m s
  | .mainsCrossing period peakMv => Sys2Proof.Machine.execMainsCrossing period peakMv s
  | .mainsHoldoverTimeout c => Sys2Proof.Machine.execMainsHoldoverTimeout c s
  | .ctRunWrite m run => Sys2Proof.Machine.execCtRunWrite m run s
  | .ctGroupGo mask => Sys2Proof.Machine.execCtGroupGo mask s
  | .timeBaseTick => Sys2Proof.Machine.execTimeBaseTick s
  | .timeIncWrite v => Sys2Proof.Machine.execTimeIncWrite v s
  | .timeSlewWrite v => Sys2Proof.Machine.execTimeSlewWrite v s
  | .timeStepGo load => Sys2Proof.Machine.execTimeStepGo load s
  | .timeStateWrite v => Sys2Proof.Machine.execTimeStateWrite v s
  | .servoWdExpire => Sys2Proof.Machine.execServoWdExpire s
  | .timeSnapshot => Sys2Proof.Machine.execTimeSnapshot s
  | .aonTimeSnapshot => Sys2Proof.Machine.execAonTimeSnapshot s
  | .ppsOutRise => Sys2Proof.Machine.execPpsOutRise s
  | .ppsOutFall => Sys2Proof.Machine.execPpsOutFall s
  | .ppsInEdge rising => Sys2Proof.Machine.execPpsInEdge rising s
  | .ppsCaptureRead => Sys2Proof.Machine.execPpsCaptureRead s
  | .dinRawEdge n level => Sys2Proof.Machine.execDinRawEdge n level s
  | .dinQualify n => Sys2Proof.Machine.execDinQualify n s
  | .dinFifoPop n => Sys2Proof.Machine.execDinFifoPop n s
  | .imlStage => Sys2Proof.Machine.execImlStage s
  | .imlVerifyDone c u => Sys2Proof.Machine.execImlVerifyDone c u s
  | .imlCopyDone c u => Sys2Proof.Machine.execImlCopyDone c u s
  | .imlActivate => Sys2Proof.Machine.execImlActivate s
  | .imlReplace => Sys2Proof.Machine.execImlReplace s
  | .imlAbort => Sys2Proof.Machine.execImlAbort s
  | .replaceSpareLoaded => Sys2Proof.Machine.execReplaceSpareLoaded s
  | .replaceSwitch => Sys2Proof.Machine.execReplaceSwitch s
  | .coxTokenArrival m x k link t => Sys2Proof.Machine.execCoxTokenArrival m x k link t s
  | .coxDispatch n can => Sys2Proof.Machine.execCoxDispatch n can s
  | .coxRelease n x acq => Sys2Proof.Machine.execCoxRelease n x acq s
  | .dpPop n c => Sys2Proof.Machine.execDpPop n c s
  | .dpDone n c nres => Sys2Proof.Machine.execDpDone n c nres s
  | .coxWindowEnd n => Sys2Proof.Machine.execCoxWindowEnd n s
  | .coxClrTotals n => Sys2Proof.Machine.execCoxClrTotals n s
  | .coxClrCtxCounts n => Sys2Proof.Machine.execCoxClrCtxCounts n s
  | .coxClrDepthMax n => Sys2Proof.Machine.execCoxClrDepthMax n s
  | .convEntryStart k e cseq => Sys2Proof.Machine.execConvEntryStart k e cseq s
  | .convSettleEnd k => Sys2Proof.Machine.execConvSettleEnd k s
  | .convEnd k codes => Sys2Proof.Machine.execConvEnd k codes s
  | .convTimeout k => Sys2Proof.Machine.execConvTimeout k s
  | .refMonitorFault k => Sys2Proof.Machine.execRefMonitorFault k s
  | .acqToken n k t => Sys2Proof.Machine.execAcqToken n k t s
  | .pairCheck p u => Sys2Proof.Machine.execPairCheck p u s
  | .converterReadmit k => Sys2Proof.Machine.execConverterReadmit k s
  | .tdacReadmit p => Sys2Proof.Machine.execTdacReadmit p s
  | .tdacDiagRequest p code mode conv ch => Sys2Proof.Machine.execTdacDiagRequest p code mode conv ch s
  | .calStart ch range => Sys2Proof.Machine.execCalStart ch range s
  | .calCaptureLo => Sys2Proof.Machine.execCalCaptureLo s
  | .calCaptureHi => Sys2Proof.Machine.execCalCaptureHi s
  | .calCaptureDone => Sys2Proof.Machine.execCalCaptureDone s
  | .calCommit => Sys2Proof.Machine.execCalCommit s
  | .calCommitDone ok => Sys2Proof.Machine.execCalCommitDone ok s
  | .calAbort => Sys2Proof.Machine.execCalAbort s
  | .calRevert ch range => Sys2Proof.Machine.execCalRevert ch range s
  | .loopUpdate n x bad => Sys2Proof.Machine.execLoopUpdate n x bad s
  | .loopModeRequest n l v => Sys2Proof.Machine.execLoopModeRequest n l v s
  | .loopFbClr n l => Sys2Proof.Machine.execLoopFbClr n l s
  | .satfbChange m l hi lo => Sys2Proof.Machine.execSatfbChange m l hi lo s
  | .paramCommit n clear => Sys2Proof.Machine.execParamCommit n clear s
  | .paramClear n => Sys2Proof.Machine.execParamClear n s
  | .repAction n l a => Sys2Proof.Machine.execRepAction n l a s
  | .repTableClearDone n l => Sys2Proof.Machine.execRepTableClearDone n l s
  | .lsmCompare n x ok => Sys2Proof.Machine.execLsmCompare n x ok s
  | .slackExhausted n => Sys2Proof.Machine.execSlackExhausted n s
  | .migrationCopyDone => Sys2Proof.Machine.execMigrationCopyDone s
  | .migrationSwitch => Sys2Proof.Machine.execMigrationSwitch s
  | .crewReadmit n => Sys2Proof.Machine.execCrewReadmit n s
  | .crewForceRetire n => Sys2Proof.Machine.execCrewForceRetire n s
  | .crewMigrate n => Sys2Proof.Machine.execCrewMigrate n s
  | .lsmClrCounts n => Sys2Proof.Machine.execLsmClrCounts n s
  | .seqLoad r => Sys2Proof.Machine.execSeqLoad r s
  | .seqLoadDone u => Sys2Proof.Machine.execSeqLoadDone u s
  | .seqUnload r => Sys2Proof.Machine.execSeqUnload r s
  | .seqStart r => Sys2Proof.Machine.execSeqStart r s
  | .seqPause r => Sys2Proof.Machine.execSeqPause r s
  | .seqHold r => Sys2Proof.Machine.execSeqHold r s
  | .seqResume r => Sys2Proof.Machine.execSeqResume r s
  | .seqAbort r => Sys2Proof.Machine.execSeqAbort r s
  | .stepStroke r cseq => Sys2Proof.Machine.execStepStroke r cseq s
  | .stepConditionObserve r link t => Sys2Proof.Machine.execStepConditionObserve r link t s
  | .stepCatch r => Sys2Proof.Machine.execStepCatch r s
  | .vsetAnswer => Sys2Proof.Machine.execVsetAnswer s
  | .groupCutNotice g => Sys2Proof.Machine.execGroupCutNotice g s
  | .ckptPeriodicCut cseq => Sys2Proof.Machine.execCkptPeriodicCut cseq s
  | .ckptWriteDone ok => Sys2Proof.Machine.execCkptWriteDone ok s
  | .repSnapshotDone ok => Sys2Proof.Machine.execRepSnapshotDone ok s
  | .pflagSet hi v => Sys2Proof.Machine.execPflagSet hi v s
  | .pflagClr hi v => Sys2Proof.Machine.execPflagClr hi v s
  | .axisEnable a => Sys2Proof.Machine.execAxisEnable a s
  | .axisDisable a => Sys2Proof.Machine.execAxisDisable a s
  | .axisMove a k => Sys2Proof.Machine.execAxisMove a k s
  | .axisStop a => Sys2Proof.Machine.execAxisStop a s
  | .axisHome a mode => Sys2Proof.Machine.execAxisHome a mode s
  | .axisGear a => Sys2Proof.Machine.execAxisGear a s
  | .axisGearSet a => Sys2Proof.Machine.execAxisGearSet a s
  | .axisUngear a => Sys2Proof.Machine.execAxisUngear a s
  | .axisClear a => Sys2Proof.Machine.execAxisClear a s
  | .stageReadmit a => Sys2Proof.Machine.execStageReadmit a s
  | .axisTask n x => Sys2Proof.Machine.execAxisTask n x s
  | .stepStageCycle a differ => Sys2Proof.Machine.execStepStageCycle a differ s
  | .axisAtRest a => Sys2Proof.Machine.execAxisAtRest a s
  | .rtTimeout a => Sys2Proof.Machine.execRtTimeout a s
  | .hwLimitActive a pos => Sys2Proof.Machine.execHwLimitActive a pos s
  | .gearSwitch a => Sys2Proof.Machine.execGearSwitch a s
  | .homeReferenceEdge a index => Sys2Proof.Machine.execHomeReferenceEdge a index s
  | .axisPermitWithdrawn a => Sys2Proof.Machine.execAxisPermitWithdrawn a s
  | .encoderEdge g a b => Sys2Proof.Machine.execEncoderEdge g a b s
  | .encLineFault g lines => Sys2Proof.Machine.execEncLineFault g lines s
  | .encIndex g => Sys2Proof.Machine.execEncIndex g s
  | .encIdxRead g => Sys2Proof.Machine.execEncIdxRead g s
  | .encReadmit g => Sys2Proof.Machine.execEncReadmit g s
  | .rceToken link t => Sys2Proof.Machine.execRceToken link t s
  | .rowClose m bad => Sys2Proof.Machine.execRowClose m bad s
  | .captureComplete c => Sys2Proof.Machine.execCaptureComplete c s
  | .blockClose => Sys2Proof.Machine.execBlockClose s
  | .blockTimeout => Sys2Proof.Machine.execBlockTimeout s
  | .blockHashDone => Sys2Proof.Machine.execBlockHashDone s
  | .blockSigned ok => Sys2Proof.Machine.execBlockSigned ok s
  | .recordStart => Sys2Proof.Machine.execRecordStart s
  | .recordStop => Sys2Proof.Machine.execRecordStop s
  | .exportDatagram => Sys2Proof.Machine.execExportDatagram s
  | .retxRequest dg => Sys2Proof.Machine.execRetxRequest dg s
  | .retxServe => Sys2Proof.Machine.execRetxServe s
  | .triggerArmWrite g v => Sys2Proof.Machine.execTriggerArmWrite g v s
  | .captureArm c => Sys2Proof.Machine.execCaptureArm c s
  | .captureDisarm c => Sys2Proof.Machine.execCaptureDisarm c s
  | .captureForce c => Sys2Proof.Machine.execCaptureForce c s
  | .captureRelease0 c => Sys2Proof.Machine.execCaptureRelease0 c s
  | .captureRelease1 c => Sys2Proof.Machine.execCaptureRelease1 c s
  | .outputToken out link t echo => Sys2Proof.Machine.execOutputToken out link t echo s
  | .producerTimeout out => Sys2Proof.Machine.execProducerTimeout out s
  | .headroomMeasure n head meas => Sys2Proof.Machine.execHeadroomMeasure n head meas s
  | .complianceSet n => Sys2Proof.Machine.execComplianceSet n s
  | .complianceClear n => Sys2Proof.Machine.execComplianceClear n s
  | .loopLowTimeout n => Sys2Proof.Machine.execLoopLowTimeout n s
  | .alarmNrTimeout n => Sys2Proof.Machine.execAlarmNrTimeout n s
  | .cloClr mask => Sys2Proof.Machine.execCloClr mask s
  | .cloThermalShutdown n => Sys2Proof.Machine.execCloThermalShutdown n s
  | .cloThermalResume n echo => Sys2Proof.Machine.execCloThermalResume n echo s
  | .cloReadmit n => Sys2Proof.Machine.execCloReadmit n s
  | .hartGo n => Sys2Proof.Machine.execHartGo n s
  | .hartResponse n ok frame => Sys2Proof.Machine.execHartResponse n ok frame s
  | .hartNoResponse n => Sys2Proof.Machine.execHartNoResponse n s
  | .hartBurstRx n frame => Sys2Proof.Machine.execHartBurstRx n frame s
  | .hartBurstRead n => Sys2Proof.Machine.execHartBurstRead n s
  | .valveHitEnd n => Sys2Proof.Machine.execValveHitEnd n s
  | .valveOvercurrent n => Sys2Proof.Machine.execValveOvercurrent n s
  | .valveRetryExpire n => Sys2Proof.Machine.execValveRetryExpire n s
  | .valveOvertemp n => Sys2Proof.Machine.execValveOvertemp n s
  | .valveCooled n => Sys2Proof.Machine.execValveCooled n s
  | .valveOpenLoad n isOpen => Sys2Proof.Machine.execValveOpenLoad n isOpen s
  | .coilSupplyAbsent g => Sys2Proof.Machine.execCoilSupplyAbsent g s
  | .vdrReadmit n => Sys2Proof.Machine.execVdrReadmit n s
  | .heaterCycleDecision n => Sys2Proof.Machine.execHeaterCycleDecision n s
  | .canFrameRx n f t => Sys2Proof.Machine.execCanFrameRx n f t s
  | .canRxbReadWord0 n ix => Sys2Proof.Machine.execCanRxbReadWord0 n ix s
  | .canRxbReadLast n ix => Sys2Proof.Machine.execCanRxbReadLast n ix s
  | .canRxbRel n g mask => Sys2Proof.Machine.execCanRxbRel n g mask s
  | .canRxfAck n f ix => Sys2Proof.Machine.execCanRxfAck n f ix s
  | .canTxRequest n mask => Sys2Proof.Machine.execCanTxRequest n mask s
  | .canTxCancel n mask sof => Sys2Proof.Machine.execCanTxCancel n mask sof s
  | .canTxcAppend n b => Sys2Proof.Machine.execCanTxcAppend n b s
  | .canTxComplete n t => Sys2Proof.Machine.execCanTxComplete n t s
  | .canBusError n e sof => Sys2Proof.Machine.execCanBusError n e sof s
  | .canRecover n => Sys2Proof.Machine.execCanRecover n s
  | .canRecoveryDone n => Sys2Proof.Machine.execCanRecoveryDone n s
  | .canIntegrationDone n => Sys2Proof.Machine.execCanIntegrationDone n s
  | .canSuspendEnd n => Sys2Proof.Machine.execCanSuspendEnd n s
  | .canTxjAck n ix => Sys2Proof.Machine.execCanTxjAck n ix s
  | .canTxMapToken n ix link t sof => Sys2Proof.Machine.execCanTxMapToken n ix link t sof s
  | .canTransceiverFault n => Sys2Proof.Machine.execCanTransceiverFault n s
  | .canReadmit n => Sys2Proof.Machine.execCanReadmit n s
  | .ethFrameRx n bytes fcs sa t => Sys2Proof.Machine.execEthFrameRx n bytes fcs sa t s
  | .ethFrameTx p cls addrs etype payload => Sys2Proof.Machine.execEthFrameTx p cls addrs etype payload s
  | .prpSupervisionSend p => Sys2Proof.Machine.execPrpSupervisionSend p s
  | .lanDown n => Sys2Proof.Machine.execLanDown n s
  | .ethLinkLoss n => Sys2Proof.Machine.execEthLinkLoss n s
  | .ethKrTrainingFail n => Sys2Proof.Machine.execEthKrTrainingFail n s
  | .ethReadmit n => Sys2Proof.Machine.execEthReadmit n s
  | .qbvGateInterval n => Sys2Proof.Machine.execQbvGateInterval n s
  | .ethTxtsPop n => Sys2Proof.Machine.execEthTxtsPop n s
  | .rraRequest ip port dg => Sys2Proof.Machine.execRraRequest ip port dg s
  | .ethFrxAck n ix => Sys2Proof.Machine.execEthFrxAck n ix s
  | .ethFtxGo n mask => Sys2Proof.Machine.execEthFtxGo n mask s
  | .pavilionStartDone switches selftest => Sys2Proof.Machine.execPavilionStartDone switches selftest s
  | .pavilionSafeEntry cause => Sys2Proof.Machine.execPavilionSafeEntry cause s
  | .outputEnableGrant => Sys2Proof.Machine.execOutputEnableGrant s
  | .switchCheck switches => Sys2Proof.Machine.execSwitchCheck switches s
  | .coverCheck isOpen => Sys2Proof.Machine.execCoverCheck isOpen s
  | .pavilionCycle x => Sys2Proof.Machine.execPavilionCycle x s
  | .safeInputSample levels => Sys2Proof.Machine.execSafeInputSample levels s
  | .safeInputQualify ix => Sys2Proof.Machine.execSafeInputQualify ix s
  | .testPulse k low => Sys2Proof.Machine.execTestPulse k low s
  | .discrepancyTimeout ix => Sys2Proof.Machine.execDiscrepancyTimeout ix s
  | .functionResetPulse f u => Sys2Proof.Machine.execFunctionResetPulse f u s
  | .brakeReleaseTimer b => Sys2Proof.Machine.execBrakeReleaseTimer b s
  | .brakeOutputTest o ok => Sys2Proof.Machine.execBrakeOutputTest o ok s
  | .brakeFaultClear o => Sys2Proof.Machine.execBrakeFaultClear o s
  | .brakeTestDue b => Sys2Proof.Machine.execBrakeTestDue b s
  | .brakeTestOverdue b => Sys2Proof.Machine.execBrakeTestOverdue b s
  | .brakeTimerSave => Sys2Proof.Machine.execBrakeTimerSave s
  | .brakeTestTimeout b => Sys2Proof.Machine.execBrakeTestTimeout b s
  | .pvmVset mb => Sys2Proof.Machine.execPvmVset mb s
  | .pvmVwithdraw mb => Sys2Proof.Machine.execPvmVwithdraw mb s
  | .pvmParWrite => Sys2Proof.Machine.execPvmParWrite s
  | .pvmParCommit => Sys2Proof.Machine.execPvmParCommit s
  | .pvmBtStart => Sys2Proof.Machine.execPvmBtStart s
  | .pvmBtEnd => Sys2Proof.Machine.execPvmBtEnd s
  | .pvmReadmit => Sys2Proof.Machine.execPvmReadmit s
  | .vsetSwitch id => Sys2Proof.Machine.execVsetSwitch id s
  | .seritContainerRx pair bytes => Sys2Proof.Machine.execSeritContainerRx pair bytes s
  | .seritPduSend k => Sys2Proof.Machine.execSeritPduSend k s
  | .seritOpenSend k => Sys2Proof.Machine.execSeritOpenSend k s
  | .seritWdExpire k => Sys2Proof.Machine.execSeritWdExpire k s
  | .seritOutputToken link t => Sys2Proof.Machine.execSeritOutputToken link t s
  | .pairListenTimeout => Sys2Proof.Machine.execPairListenTimeout s
  | .heartbeatSend => Sys2Proof.Machine.execHeartbeatSend s
  | .heartbeatRx path bytes => Sys2Proof.Machine.execHeartbeatRx path bytes s
  | .pathTimeout path => Sys2Proof.Machine.execPathTimeout path s
  | .leaseExpire => Sys2Proof.Machine.execLeaseExpire s
  | .plkHandover => Sys2Proof.Machine.execPlkHandover s
  | .plkForceTake key => Sys2Proof.Machine.execPlkForceTake key s
  | .plkResync => Sys2Proof.Machine.execPlkResync s
  | .plkReadmitLane0 => Sys2Proof.Machine.execPlkReadmitLane0 s
  | .plkReadmitLane1 => Sys2Proof.Machine.execPlkReadmitLane1 s
  | .plkLinkLoss l training => Sys2Proof.Machine.execPlkLinkLoss l training s
  | .mirrorCut cseq => Sys2Proof.Machine.execMirrorCut cseq s
  | .mirrorFrameRx l bytes => Sys2Proof.Machine.execMirrorFrameRx l bytes s
  | .cycLoad => Sys2Proof.Machine.execCycLoad s
  | .cycLoadDone areas u => Sys2Proof.Machine.execCycLoadDone areas u s
  | .cycStartWarm => Sys2Proof.Machine.execCycStartWarm s
  | .cycStartCold => Sys2Proof.Machine.execCycStartCold s
  | .cycStop => Sys2Proof.Machine.execCycStop s
  | .cycOnlineChange => Sys2Proof.Machine.execCycOnlineChange s
  | .cycSwitch => Sys2Proof.Machine.execCycSwitch s
  | .cycStartCatch cseq arr => Sys2Proof.Machine.execCycStartCatch cseq arr s
  | .cycDone => Sys2Proof.Machine.execCycDone s
  | .cycProgramFault mcause => Sys2Proof.Machine.execCycProgramFault mcause s
  | .cycForceWrite x w v => Sys2Proof.Machine.execCycForceWrite x w v s
  | .cycForceAck => Sys2Proof.Machine.execCycForceAck s
  | .cdmGo n ch => Sys2Proof.Machine.execCdmGo n ch s
  | .cdmAbort n ch => Sys2Proof.Machine.execCdmAbort n ch s
  | .cdmResume n ch => Sys2Proof.Machine.execCdmResume n ch s
  | .cdmAccess n e b => Sys2Proof.Machine.execCdmAccess n e b s
  | .cdmReadmit n ch => Sys2Proof.Machine.execCdmReadmit n ch s
  | .rmvGo c => Sys2Proof.Machine.execRmvGo c s
  | .rmvAbort c => Sys2Proof.Machine.execRmvAbort c s
  | .rmvResume c => Sys2Proof.Machine.execRmvResume c s
  | .rmvAccess e b => Sys2Proof.Machine.execRmvAccess e b s
  | .fwlUnfreeze src key m => Sys2Proof.Machine.execFwlUnfreeze src key m s
  | .ac0FreezeTimer => Sys2Proof.Machine.execAc0FreezeTimer s
  | .linkReadmit l => Sys2Proof.Machine.execLinkReadmit l s
  | .eccScrub addr e => Sys2Proof.Machine.execEccScrub addr e s
  | .vltVerify u => Sys2Proof.Machine.execVltVerify u s
  | .vltStore u => Sys2Proof.Machine.execVltStore u s
  | .vltEnrol u => Sys2Proof.Machine.execVltEnrol u s
  | .vltRevoke u => Sys2Proof.Machine.execVltRevoke u s
  | .vltImport u => Sys2Proof.Machine.execVltImport u s
  | .vltLoadKey => Sys2Proof.Machine.execVltLoadKey s
  | .vltEraseKey h => Sys2Proof.Machine.execVltEraseKey h s
  | .vltArbAdvance ix => Sys2Proof.Machine.execVltArbAdvance ix s
  | .vltAttest => Sys2Proof.Machine.execVltAttest s
  | .vltDbgChallenge tap => Sys2Proof.Machine.execVltDbgChallenge tap s
  | .vltDbgUnlock tap u => Sys2Proof.Machine.execVltDbgUnlock tap u s
  | .vltDbgLock => Sys2Proof.Machine.execVltDbgLock s
  | .vltRngRead => Sys2Proof.Machine.execVltRngRead s
  | .debugScopeExpire => Sys2Proof.Machine.execDebugScopeExpire s
  | .entropyFail => Sys2Proof.Machine.execEntropyFail s
  | .powerOn => Sys2Proof.Machine.execPowerOn s
  | .brownOut => Sys2Proof.Machine.execBrownOut s
  | .brownOutFinalReset => Sys2Proof.Machine.execBrownOutFinalReset s
  | .resetPin => Sys2Proof.Machine.execResetPin s
  | .sysWdgExpire => Sys2Proof.Machine.execSysWdgExpire s
  | .sysWdgHalf => Sys2Proof.Machine.execSysWdgHalf s
  | .sysWdgKick v => Sys2Proof.Machine.execSysWdgKick v s
  | .resetRelease sw21 ms u => Sys2Proof.Machine.execResetRelease sw21 ms u s
  | .refclkTimeout => Sys2Proof.Machine.execRefclkTimeout s
  | .domainResetRequest src key d => Sys2Proof.Machine.execDomainResetRequest src key d s
  | .coreWdgExpire c => Sys2Proof.Machine.execCoreWdgExpire c s
  | .coreWdgKick c => Sys2Proof.Machine.execCoreWdgKick c s
  | .clockGoodLoss d => Sys2Proof.Machine.execClockGoodLoss d s
  | .clockGoodReturn d => Sys2Proof.Machine.execClockGoodReturn d s
  | .domainClockCheckDone d ok => Sys2Proof.Machine.execDomainClockCheckDone d ok s
  | .startOk => Sys2Proof.Machine.execStartOk s
  | .startTimerExpire => Sys2Proof.Machine.execStartTimerExpire s
  | .rpcFollyRequest src key go => Sys2Proof.Machine.execRpcFollyRequest src key go s
  | .recoveryIdent frame => Sys2Proof.Machine.execRecoveryIdent frame s
  | .recoveryStore frame c u => Sys2Proof.Machine.execRecoveryStore frame c u s
  | .recoveryObWrite frame => Sys2Proof.Machine.execRecoveryObWrite frame s
  | .recoveryLog frame => Sys2Proof.Machine.execRecoveryLog frame s
  | .recoveryExit frame => Sys2Proof.Machine.execRecoveryExit frame s
  | .obCommit => Sys2Proof.Machine.execObCommit s
  | .vinDipSet mv => Sys2Proof.Machine.execVinDipSet mv s
  | .vinDipClear mv => Sys2Proof.Machine.execVinDipClear mv s
  | .vfldWarning low mv => Sys2Proof.Machine.execVfldWarning low mv s
  | .vfldLost lost mv => Sys2Proof.Machine.execVfldLost lost mv s
  | .holdupLost => Sys2Proof.Machine.execHoldupLost s
  | .easyEnter => Sys2Proof.Machine.execEasyEnter s
  | .easyExit => Sys2Proof.Machine.execEasyExit s
  | .parkEnter => Sys2Proof.Machine.execParkEnter s
  | .parkWake => Sys2Proof.Machine.execParkWake s
  | .encLineFaultEnd g => Sys2Proof.Machine.execEncLineFaultEnd g s
  | .coilSupplyRestored g => Sys2Proof.Machine.execCoilSupplyRestored g s
  | .ethLinkUp n => Sys2Proof.Machine.execEthLinkUp n s
  | .plkLinkUp l => Sys2Proof.Machine.execPlkLinkUp l s
  | .canArbitrationLost n t => Sys2Proof.Machine.execCanArbitrationLost n t s
  | .vltCommandDone => Sys2Proof.Machine.execVltCommandDone s
  | .pvmMailboxResponse => Sys2Proof.Machine.execPvmMailboxResponse s
  | .replaceDone => Sys2Proof.Machine.execReplaceDone s
  | .obCommitDone ok => Sys2Proof.Machine.execObCommitDone ok s

end Sys2Proof.Machine
end

