-- ==== Sys2Proof/Safety.lean ====
section
/-! DEFINITION. What claims call a sound state and a completed command. -/
namespace Sys2Proof.Machine

/-- The command completes, in a state of which `P` holds. -/
def Gives (c : Instr) (s : State) (P : State → Prop) : Prop := ∃ t, exec c s = .next t ∧ P t

/-- All of memory reads as before. -/
def SameMem (s t : State) : Prop := ∀ b, t.rdByte b = s.rdByte b

/-- Every byte of memory outside the `n` bytes from `a` reads as before. -/
def SameMemOutside (s t : State) (a n : Nat) : Prop := ∀ b, b < a ∨ a + n ≤ b → t.rdByte b = s.rdByte b

/-- Every register but those listed reads as before. -/
def RegsKept (s t : State) (l : List Nat) : Prop := ∀ a, a ∉ l → t.rd a = s.rd a

/-- The event is in the log's queue, if that has room for the events of one command (R37). -/
def Logs (s t : State) (code source detail : Nat) : Prop := s.evl.queue.length ≤ 48 → t.event code source detail ∈ t.evl.queue

/-- Memory and register file are canonical, and the event queue keeps to its 64 entries (R37). -/
def State.Sound (s : State) : Prop := Memory.wf s.mem = true ∧ Tab.wf regReset s.regs = true ∧ s.evl.queue.length ≤ 64

end Sys2Proof.Machine
end

