-- ==== Sys2Proof/Certificates/Slice0/Obligations.lean ====
section
/-! DEFINITION. The statements for the provers.  `Gives c s P`, `SameMem`, `RegsKept` and `Logs` are those of Sys2Proof/Safety.lean. -/
open Sys2Proof Sys2Proof.Machine

/-- A step takes the command at the front of the queue and runs it on the state with the queue's rest. -/
def Obligations.StepRunsTheFrontCommand : Prop :=
  ∀ (s : State) (c : Instr) (rest : List Instr), step { s with pending := c :: rest } = exec c { s with pending := rest }

/-- On an empty queue the module idles: the model's own choice (notes/assumptions/2.md). -/
def Obligations.EmptyQueueIdles : Prop := ∀ s : State, s.pending = [] → step s = .next s

/-- The state after reset is sound: memory and register file canonical, the event queue within its 64 entries (R37). -/
def Obligations.ResetIsSound : Prop := State.reset.Sound ∧ State.reset.pending = []

/-- Every step from a sound state that answers a next state answers a sound one: whatever the command and its operands, memory and the register file
stay canonical and the event queue keeps to its 64 entries (R37). -/
def Obligations.StepKeepsSoundness : Prop := ∀ s t : State, s.Sound → step s = .next t → t.Sound

/-- Every command completes in every state: none ends in a fault or a refusal, so no access and no operand stops the module. -/
def Obligations.EveryCommandCompletes : Prop := ∀ (c : Instr) (s : State), ∃ t : State, exec c s = .next t

/-- R53: a write of CTU_TIME_INC, as a command or over the register window, is clamped to 0x01AA_740E to 0x01AA_E148; a value outside sets
INC_CLAMP and logs 0x0213 with the value written. -/
def Obligations.TimeIncrementIsClamped : Prop :=
  ∀ (s : State) (v : Word), s.timeState ≠ 3 →
    (0x01AA740E ≤ v.toNat → v.toNat ≤ 0x01AAE148 → Gives (.timeIncWrite v) s (fun t => t.rd Reg.CTU_TIME_INC = v ∧
      t.flag F.CTU_TIME_STATE_INC_CLAMP = s.flag F.CTU_TIME_STATE_INC_CLAMP ∧ t.evl = s.evl ∧ SameMem s t ∧ RegsKept s t [Reg.CTU_TIME_INC])) ∧
    (v.toNat < 0x01AA740E → Gives (.timeIncWrite v) s (fun t => t.num Reg.CTU_TIME_INC = 0x01AA740E ∧ t.flag F.CTU_TIME_STATE_INC_CLAMP = true ∧
      Logs s t 0x0213 0 v.toNat ∧ SameMem s t ∧ RegsKept s t [Reg.CTU_TIME_INC, Reg.CTU_TIME_STATE, Reg.EVL_LOST])) ∧
    (0x01AAE148 < v.toNat → Gives (.timeIncWrite v) s (fun t => t.num Reg.CTU_TIME_INC = 0x01AAE148 ∧ t.flag F.CTU_TIME_STATE_INC_CLAMP = true ∧
      Logs s t 0x0213 0 v.toNat ∧ SameMem s t ∧ RegsKept s t [Reg.CTU_TIME_INC, Reg.CTU_TIME_STATE, Reg.EVL_LOST])) ∧
    (∀ m d, exec (.timeIncWrite v) s = .next (s.regWrite m d Reg.CTU_TIME_INC v.toNat))

/-- R58: in HOLDOVER writes to CTU_TIME_INC, CTU_TIME_SLEW and CTU_STEP_CTRL change nothing, as commands and over the register window. -/
def Obligations.HoldoverIgnoresServoWrites : Prop :=
  ∀ (s : State) (v : Word) (load : Bool), s.timeState = 3 → exec (.timeIncWrite v) s = .next s ∧ exec (.timeSlewWrite v) s = .next s ∧
    exec (.timeStepGo load) s = .next s ∧
    (∀ (m : Nat) (d : RegDesc) (n : Nat), s.regWrite m d Reg.CTU_TIME_INC n = s ∧ s.regWrite m d Reg.CTU_TIME_SLEW n = s ∧
      s.regWrite m d Reg.CTU_STEP_CTRL n = s)

/-- R57: every transition of the time state, with its action, and that writes of 0 and writes the table does not list are ignored. -/
def Obligations.TimeStateTransitions : Prop :=
  (∀ s : State, exec (.timeStateWrite 0) s = .next s ∧ (s.timeState = 0 → ∀ v, exec (.timeStateWrite v) s = .next s) ∧
    (s.timeState = 1 → exec (.timeStateWrite 1) s = .next s ∧ exec (.timeStateWrite 3) s = .next s) ∧
    (s.timeState = 3 → exec (.timeStateWrite 3) s = .next s)) ∧
  (∀ s : State, s.timeState = 0 → s.fld F.CTU_STEP_NSEC_NSEC ≤ 999999999 → s.stepBlockers = 0 → Gives (.timeStepGo true) s (fun t =>
    t.timeState = 1 ∧ t.flag F.CTU_TIME_STATE_STATE_CHG = true)) ∧
  (∀ s : State, s.timeState = 1 → Gives (.timeStateWrite 2) s (fun t => t.timeState = 2 ∧ t.flag F.CTU_TIME_STATE_STATE_CHG = true ∧ t.evl = s.evl ∧
    t.time = { s.time with servoWd := 0 } ∧ SameMem s t ∧ RegsKept s t [Reg.CTU_TIME_STATE])) ∧
  (∀ s : State, s.timeState = 3 → Gives (.timeStateWrite 2) s (fun t => t.timeState = 2 ∧ t.flag F.CTU_TIME_STATE_STATE_CHG = true ∧ Logs s t 0x0212 0 2 ∧
      t.time = { s.time with servoWd := 0 } ∧ RegsKept s t [Reg.CTU_TIME_STATE, Reg.EVL_LOST]) ∧
    Gives (.timeStateWrite 1) s (fun t => t.timeState = 1 ∧ t.flag F.CTU_TIME_STATE_STATE_CHG = true ∧ Logs s t 0x0212 0 1 ∧ t.time = s.time ∧
      RegsKept s t [Reg.CTU_TIME_STATE, Reg.EVL_LOST])) ∧
  (∀ s : State, s.timeState = 2 → Gives (.timeStateWrite 1) s (fun t => t.timeState = 1 ∧ t.flag F.CTU_TIME_STATE_STATE_CHG = true ∧ t.time = s.time ∧
      t.evl = s.evl ∧ SameMem s t ∧ RegsKept s t [Reg.CTU_TIME_STATE]) ∧
    Gives (.timeStateWrite 2) s (fun t => t.time = { s.time with servoWd := 0 } ∧ t.evl = s.evl ∧ SameMem s t ∧ RegsKept s t []) ∧
    Gives (.timeStateWrite 3) s (fun t => t.timeState = 3 ∧ t.flag F.CTU_TIME_STATE_STATE_CHG = true ∧ t.time = { s.time with slew := 0 } ∧
      Logs s t 0x0211 0 1 ∧ RegsKept s t [Reg.CTU_TIME_STATE, Reg.EVL_LOST]) ∧
    (s.fld F.CTU_SERVO_WD_TIMEOUT_MS = 0 ∨ s.time.servoWd < 600000 * s.fld F.CTU_SERVO_WD_TIMEOUT_MS → exec .servoWdExpire s = .next s) ∧
    (s.fld F.CTU_SERVO_WD_TIMEOUT_MS ≠ 0 → 600000 * s.fld F.CTU_SERVO_WD_TIMEOUT_MS ≤ s.time.servoWd → Gives .servoWdExpire s (fun t => t.timeState = 3 ∧ t.flag F.CTU_TIME_STATE_STATE_CHG = true ∧
      t.flag F.CTU_TIME_STATE_WD_EXP = true ∧ t.time.slew = 0 ∧ Logs s t 0x0211 0 2 ∧ RegsKept s t [Reg.CTU_TIME_STATE, Reg.EVL_LOST])))

/-- R378, R397, R436, R456 and R527: which PLIC sources CAN_n, ETH_n, PVM, PLK and VLT assert, and the sources never asserted. -/
def Obligations.InterruptSources : Prop :=
  ∀ s : State,
    (∀ n k, n < 8 → k < 4 → (s.irqLevel (64 + 4 * n + k) = true ↔ ∃ b, b < 32 ∧
      ((k = 0 ∧ b ≤ 2) ∨ (k = 1 ∧ (3 ≤ b ∧ b ≤ 5 ∨ b = 17)) ∨ (k = 2 ∧ 6 ≤ b ∧ b ≤ 9) ∨ (k = 3 ∧ (10 ≤ b ∧ b ≤ 16 ∨ b = 18))) ∧
      s.rbit (Reg.CAN_IRQ n) b = true ∧ s.rbit (Reg.CAN_IRQ_EN n) b = true)) ∧
    (∀ n k, n < 6 → k < 4 → s.irqLevel (96 + 4 * n + k) = (s.rbit (Reg.ETH_IRQ n) k && s.rbit (Reg.ETH_IRQ_EN n) k)) ∧
    (∀ b, b < 7 → s.irqLevel (24 + b) = (s.rbit Reg.PVM_IRQ b && s.rbit Reg.PVM_IRQ_EN b)) ∧ s.irqLevel 31 = false ∧
    (∀ b, b < 5 → s.irqLevel (120 + b) = (s.rbit Reg.PLK_IRQ b && s.rbit Reg.PLK_IRQ_EN b)) ∧
    s.irqLevel 125 = false ∧ s.irqLevel 126 = false ∧ s.irqLevel 127 = false ∧
    s.irqLevel 16 = (s.flag F.VLT_RES_DONE && s.rbit Reg.VLT_IRQ_EN 0) ∧
    s.irqLevel 17 = ((s.flag F.VLT_STATUS_ENTROPY_FAIL || s.flag F.VLT_STATUS_DBG_CHG) && s.rbit Reg.VLT_IRQ_EN 1)

/-- R63 and R571: with PPS_IN enabled its selected edge captures the time base less 9.0 ns, an unread capture is kept with OVR and 0x021A, and a
read of CTU_PPS_CAP_HI releases it. -/
def Obligations.PpsCapture : Prop :=
  (∀ (s : State) (e : Bool), s.flag F.CTU_PPS_IN_CTRL_IN_EN = true → e = (s.fld F.CTU_PPS_IN_CTRL_EDGE == 0) →
    (s.flag F.CTU_PPS_IN_CTRL_CAP_VALID = false → Gives (.ppsInEdge e) s (fun t => t.flag F.CTU_PPS_IN_CTRL_CAP_VALID = true ∧
      t.rd Reg.CTU_PPS_CAP_SEC = BitVec.ofNat 32 (s.now.move (-(9 * 2 ^ 24))).w0 ∧
      t.rd Reg.CTU_PPS_CAP_NSEC = BitVec.ofNat 32 (s.now.move (-(9 * 2 ^ 24))).w1 ∧
      t.rd Reg.CTU_PPS_CAP_HI = BitVec.ofNat 32 (s.now.move (-(9 * 2 ^ 24))).w2 ∧ SameMem s t ∧
      RegsKept s t [Reg.CTU_PPS_CAP_SEC, Reg.CTU_PPS_CAP_NSEC, Reg.CTU_PPS_CAP_HI, Reg.CTU_PPS_IN_CTRL])) ∧
    (s.flag F.CTU_PPS_IN_CTRL_CAP_VALID = true → Gives (.ppsInEdge e) s (fun t => t.flag F.CTU_PPS_IN_CTRL_OVR = true ∧ Logs s t 0x021A 0 0 ∧
      t.flag F.CTU_PPS_IN_CTRL_CAP_VALID = true ∧ SameMem s t ∧ RegsKept s t [Reg.CTU_PPS_IN_CTRL, Reg.EVL_LOST]))) ∧
  (∀ (s : State) (e : Bool), s.flag F.CTU_PPS_IN_CTRL_IN_EN = false ∨ e ≠ (s.fld F.CTU_PPS_IN_CTRL_EDGE == 0) → exec (.ppsInEdge e) s = .next s) ∧
  (∀ s : State, Gives .ppsCaptureRead s (fun t => t.flag F.CTU_PPS_IN_CTRL_CAP_VALID = false ∧ t.bus = ⟨false, s.num Reg.CTU_PPS_CAP_HI⟩ ∧
    SameMem s t ∧ RegsKept s t [Reg.CTU_PPS_IN_CTRL]))

/-- R411: the safe value of a pair, and the DISCREPANCY fault. -/
def Obligations.PairSafeValue : Prop :=
  (∀ (s : State) (i : Nat), (s.sinOf (i - i % 2)).fault = 0 → (s.sinOf (i - i % 2 + 1)).fault = 0 →
    (s.pairMode (i - i % 2) = 1 → (s.safeValue i = true ↔ (s.sinOf (i - i % 2)).q = true ∧ (s.sinOf (i - i % 2 + 1)).q = true)) ∧
    (s.pairMode (i - i % 2) = 2 → (s.safeValue i = true ↔ (s.sinOf (i - i % 2)).q = true ∧ (s.sinOf (i - i % 2 + 1)).q = false))) ∧
  (∀ (s : State) (i : Fin 16) (b : Nat), b = i.val - i.val % 2 → s.pairMode b ≠ 0 → s.noDemand b ≠ s.noDemand (b + 1) →
    (s.sinOf b).since.getD s.pvm.frame0 + 1 + parWord s.pvm.par (offSin b + 4) * cycPerMs ≤ s.time.cycle → (s.sinOf b).fault = 0 →
    (s.sinOf (b + 1)).fault = 0 → Gives (.discrepancyTimeout i) s (fun t => (t.sinOf b).fault = 3 ∧ (t.sinOf (b + 1)).fault = 3 ∧
      t.safeValue b = false ∧ Logs s t 0x0D20 0 (b + 3 * 2 ^ 8) ∧ SameMem s t ∧ RegsKept s t [Reg.PVM_SIN, Reg.EVL_LOST]))

/-- R414: a demand of a function with MANUAL = 1 sets its latch; a RESET pulse of 0.1 s to 5 s clears it while its inputs have safe value 1 and logs
0x0D22, any other pulse is ignored; with MANUAL = 0 the function is satisfied as soon as its conditions hold. -/
def Obligations.FunctionLatch : Prop :=
  (∀ (s : State) (f : Nat), f < 4 → s.par (offFun f) 20 1 = 1 → s.funOk f = true → s.funConds f = false → s.pvm.evald = true →
    (s.funCycle f).funLatch f = true ∧ (s.funCycle f).funOk f = false) ∧
  (∀ (s : State) (f : Nat), f < 4 → s.par (offFun f) 20 1 = 1 → s.funLatch f = true → s.funOk f = false → (s.funCycle f).funOk f = false) ∧
  (∀ (s : State) (f : Fin 4), s.funLatch f = true → (∀ i, i < 16 → bit (s.par (offFun f) 0 16) i = true → s.rbit Reg.PVM_SIN i = true) →
    (f.val ∈ s.pvm.resets → Gives (.functionResetPulse f) s (fun t => t.funLatch f = false ∧ Logs s t 0x0D22 0 f ∧ t.funOk f = s.funOk f ∧ SameMem s t ∧
      f.val ∉ t.pvm.resets ∧ RegsKept s t [Reg.PVM_FUNC, Reg.EVL_LOST])) ∧
    (f.val ∉ s.pvm.resets → exec (.functionResetPulse f) s = .next s)) ∧
  (∀ (s : State) (f : Fin 4) (i : Nat), i < 16 → bit (s.par (offFun f) 0 16) i = true → s.rbit Reg.PVM_SIN i = false →
    Gives (.functionResetPulse f) s (fun t => t.funLatch f = s.funLatch f ∧ t.evl = s.evl ∧ SameMem s t ∧ RegsKept s t [])) ∧
  (∀ (s : State) (i : Nat), i < 16 → ∀ t, t = s.sinEdge i false →
    (100 * cycPerMs ≤ s.time.cycle - (s.sinOf i).rose → (s.sinOf i).rose ≤ s.time.cycle → s.time.cycle ≤ (s.sinOf i).rose + 5000 * cycPerMs →
      t.pvm.resets = s.pvm.resets ++ s.resetFuns i) ∧
    (s.time.cycle < (s.sinOf i).rose + 100 * cycPerMs ∨ (s.sinOf i).rose + 5000 * cycPerMs < s.time.cycle → t.pvm.resets = s.pvm.resets)) ∧
  (∀ (s : State) (f : Nat), f < 4 → s.par (offFun f) 20 1 = 0 → (s.funCycle f).funOk f = s.funConds f)

/-- R544: a write of START_OK by AC_0 sets UNCONF to 0, stops the start timer and logs 0x0117; a write of any other master is ignored. -/
def Obligations.StartConfirmation : Prop :=
  (∀ s : State, Gives .startOk s (fun t => t.fld F.RPC_START_UNCONF = 0 ∧ t.rpc = { s.rpc with timer := false } ∧
    Logs s t 0x0117 0 (s.fld F.RPC_START_UNCONF) ∧ SameMem s t ∧ RegsKept s t [Reg.RPC_START, Reg.EVL_LOST])) ∧
  (∀ (s : State) (m v : Nat) (d : RegDesc), m ≠ 0 → s.regWrite m d Reg.RPC_START v = s) ∧
  (∀ (s : State) (v : Nat) (d : RegDesc), v % 2 = 1 → exec .startOk s = .next (s.regWrite 0 d Reg.RPC_START v))

/-- TIME_INC_WRITE, TIME_SLEW_WRITE, TIME_STEP_GO, TIME_STATE_WRITE, SERVO_WD_EXPIRE, TIME_SNAPSHOT and AON_TIME_SNAPSHOT complete as the clauses say; the clauses rest
on R52 to R59 and R61. -/
def Obligations.TimeBaseCommands : Prop :=
  (∀ (s : State) (v : Word), s.timeState ≠ 3 → Gives (.timeIncWrite v) s (fun t =>
    t.num Reg.CTU_TIME_INC = max 0x01AA740E (min 0x01AAE148 v.toNat) ∧ t.time = { s.time with servoWd := 0 } ∧
    (v.toNat < 0x01AA740E ∨ 0x01AAE148 < v.toNat → t.flag F.CTU_TIME_STATE_INC_CLAMP = true ∧ Logs s t 0x0213 0 v.toNat) ∧
    RegsKept s t [Reg.CTU_TIME_INC, Reg.CTU_TIME_STATE, Reg.EVL_LOST] ∧ SameMem s t)) ∧
  (∀ (s : State) (v : Word), s.timeState ≠ 3 → Gives (.timeSlewWrite v) s (fun t =>
    t.time = { s.time with slew := max (-1000000) (min 1000000 v.toInt) * 2 ^ 24, servoWd := 0 } ∧
    RegsKept s t [Reg.CTU_TIME_STATE] ∧ SameMem s t)) ∧
  (∀ s : State, s.timeState ≠ 3 → s.fld F.CTU_STEP_NSEC_NSEC ≤ 999999999 → s.stepBlockers = 0 →
    Gives (.timeStepGo true) s (fun t => t.time.now = ⟨s.stepSec, s.fld F.CTU_STEP_NSEC_NSEC, 0⟩ ∧ t.time.slew = 0 ∧
      t.timeState = (if s.timeState = 0 then 1 else s.timeState)) ∧
    Gives (.timeStepGo false) s (fun t => t.time.slew = 0 ∧ t.timeState = s.timeState ∧
      t.time.now = s.time.now.move ((toSigned 48 s.stepSec * 1000000000 + s.fld F.CTU_STEP_NSEC_NSEC) * 2 ^ 24))) ∧
  (∀ s : State, (s.timeState = 1 ∨ s.timeState = 3 → Gives (.timeStateWrite 2) s (fun t => t.timeState = 2)) ∧
    (s.timeState = 2 ∨ s.timeState = 3 → Gives (.timeStateWrite 1) s (fun t => t.timeState = 1)) ∧
    (s.timeState = 2 → Gives (.timeStateWrite 3) s (fun t => t.timeState = 3 ∧ t.time.slew = 0))) ∧
  (∀ s : State, s.timeState = 2 → s.fld F.CTU_SERVO_WD_TIMEOUT_MS ≠ 0 →
    600000 * s.fld F.CTU_SERVO_WD_TIMEOUT_MS ≤ s.time.servoWd → Gives .servoWdExpire s (fun t =>
    t.timeState = 3 ∧ t.flag F.CTU_TIME_STATE_WD_EXP = true ∧ t.flag F.CTU_TIME_STATE_STATE_CHG = true ∧ t.time.slew = 0)) ∧
  (∀ s : State, Gives .timeSnapshot s (fun t =>
    t.num Reg.CTU_SNAP_SEC = s.now.sec % 2 ^ 32 ∧ t.num Reg.CTU_SNAP_NSEC = s.now.nsec % 2 ^ 32 ∧
    t.num Reg.CTU_SNAP_HI = (s.now.frac * 2 ^ 16 + s.now.sec / 2 ^ 32 % 2 ^ 16) % 2 ^ 32 ∧
    RegsKept s t [Reg.CTU_SNAP_SEC, Reg.CTU_SNAP_NSEC, Reg.CTU_SNAP_HI] ∧ SameMem s t)) ∧
  (∀ s : State, Gives .aonTimeSnapshot s (fun t => t.elapsed = (s.elapsed + 1) % 2 ^ 64 ∧
    t.time = { s.time with aonSnap := s.now, aonMs := (s.elapsed + 1) % 2 ^ 64 } ∧
    RegsKept s t [Reg.RPC_ELAPSED_LO, Reg.RPC_ELAPSED_HI] ∧ SameMem s t))

/-- PPS_OUT_RISE, PPS_OUT_FALL, PPS_IN_EDGE, PPS_CAPTURE_READ, DIN_RAW_EDGE, DIN_QUALIFY and DIN_FIFO_POP complete as the clauses say; the clauses rest on R62 to
R66; the input delays of 9 ns and 1500 ns are those of R571. -/
def Obligations.PinAndInputCommands : Prop :=
  (∀ s : State, s.flag F.CTU_PPS_OUT_CTRL_OUT_EN = true → (s.flag F.CTU_PPS_OUT_CTRL_LOCK_ONLY = false ∨ s.timeState = 2) →
    Gives .ppsOutRise s (fun t => t.time = { s.time with ppsOut := true } ∧ RegsKept s t [] ∧ SameMem s t)) ∧
  (∀ s : State, Gives .ppsOutFall s (fun t => t.time = { s.time with ppsOut := false } ∧ RegsKept s t [] ∧ SameMem s t)) ∧
  (∀ (s : State) (rising : Bool), s.flag F.CTU_PPS_IN_CTRL_IN_EN = true → (rising = true ↔ s.fld F.CTU_PPS_IN_CTRL_EDGE = 0) →
    (s.flag F.CTU_PPS_IN_CTRL_CAP_VALID = false → Gives (.ppsInEdge rising) s (fun t =>
      t.num Reg.CTU_PPS_CAP_SEC = (s.now.move (-(9 * 2 ^ 24))).w0 % 2 ^ 32 ∧
      t.num Reg.CTU_PPS_CAP_NSEC = (s.now.move (-(9 * 2 ^ 24))).w1 % 2 ^ 32 ∧
      t.num Reg.CTU_PPS_CAP_HI = (s.now.move (-(9 * 2 ^ 24))).w2 % 2 ^ 32 ∧
      t.flag F.CTU_PPS_IN_CTRL_CAP_VALID = true)) ∧
    (s.flag F.CTU_PPS_IN_CTRL_CAP_VALID = true → Gives (.ppsInEdge rising) s (fun t =>
      t.flag F.CTU_PPS_IN_CTRL_OVR = true ∧ Logs s t 0x021A 0 0 ∧ RegsKept s t [Reg.CTU_PPS_IN_CTRL, Reg.EVL_LOST] ∧ SameMem s t))) ∧
  (∀ s : State, Gives .ppsCaptureRead s (fun t => t.flag F.CTU_PPS_IN_CTRL_CAP_VALID = false ∧
    t.bus = ⟨false, s.num Reg.CTU_PPS_CAP_HI⟩ ∧ RegsKept s t [Reg.CTU_PPS_IN_CTRL] ∧ SameMem s t)) ∧
  (∀ (s : State) (n : Fin 64) (level : Bool), s.fld (F.DIO_FILT_FILT_US n) ≠ 0 → Gives (.dinRawEdge n level) s (fun t =>
    t.dinRaw n = level ∧ (level ≠ s.dinRaw n → (t.dinOf n).edge = s.time.cycle) ∧ (level ≠ s.dinLevel n → (s.dinOf n).cand = none → (t.dinOf n).cand = some (s.now.move (-(1500 * 2 ^ 24)))) ∧
    RegsKept s t [Reg.DIO_RAW (n / 32)] ∧ SameMem s t)) ∧
  (∀ (s : State) (n : Fin 64) (d : Stamp), s.dinRaw n ≠ s.dinLevel n → (s.dinOf n).cand = some d →
    bit (s.fld (F.DIO_FILT_EDGES n)) (if s.dinRaw n then 0 else 1) = true → (s.dinOf n).fifo.length < 8 →
    (∀ u < 128, s.trgArmed u 4 = false) →
    s.lasted (s.dinOf n).edge (s.fld (F.DIO_FILT_FILT_US n) * cycPerUs) = true → Gives (.dinQualify n) s (fun t =>
      t.dinLevel n = s.dinRaw n ∧ (t.dinOf n) = ⟨none, (s.dinOf n).fifo ++ [⟨d, s.dinRaw n, false⟩], (s.dinOf n).edge⟩ ∧
      RegsKept s t [Reg.DIO_STATE (n / 32)] ∧ SameMem s t)) ∧
  (∀ (s : State) (n : Fin 64) (e : DinEntry) (l : List DinEntry), (s.dinOf n).fifo = e :: l → Gives (.dinFifoPop n) s (fun t =>
    t.bus = ⟨false, b2n e.ovf * 4 + b2n e.rising * 2 + 1⟩ ∧ (t.dinOf n).fifo = l ∧ RegsKept s t [] ∧ SameMem s t))

/-- EVL_DRAIN, EVL_DRAM_ENABLE, SW_EVENT_RAISE and SW_EVENT_DETAIL_WRITE complete as the clauses say; the clauses rest on R36 to R38. -/
def Obligations.EventLogCommands : Prop :=
  (∀ (s : State) (c : Fin 8) (x : BitVec 7), Gives (.swEventRaise c x) s (fun t =>
    Logs s t (0x0080 + x.toNat) (0x7000 + c) (Tab.get (fun _ => (0 : Word)) s.evl.swDetail c).toNat ∧
    t.time = s.time ∧ RegsKept s t [Reg.EVL_LOST] ∧ SameMem s t)) ∧
  (∀ (s : State) (c : Fin 8) (v : Word), Gives (.swEventDetailWrite c v) s (fun t =>
    Tab.get (fun _ => (0 : Word)) t.evl.swDetail c = v ∧
    (∀ d : Nat, d ≠ c → Tab.get (fun _ => (0 : Word)) t.evl.swDetail d = Tab.get (fun _ => (0 : Word)) s.evl.swDetail d) ∧
    t.evl.queue = s.evl.queue ∧ RegsKept s t [] ∧ SameMem s t)) ∧
  (∀ (s : State) (e : Event) (l : List Event), s.evl.queue = e :: l → s.flag F.EVL_CTRL_DRAM_EN = false → s.evl.lostRun = 0 →
    s.evl.mirrorIdx < 524288 → Gives .evlDrain s (fun t =>
      t.evl.queue = l ∧ t.rdList (bhAddr (s.fld F.EVL_BH_IDX_BH_IDX)) 16 = e.bytes ∧ t.rdList (evlMirrorAddr s.evl.mirrorIdx) 16 = e.bytes ∧
      t.fld F.EVL_BH_IDX_BH_IDX = (s.fld F.EVL_BH_IDX_BH_IDX + 1) % 256 ∧ t.evl.mirrorIdx = (s.evl.mirrorIdx + 1) % 524288 ∧
      (∀ a, (a < bhAddr (s.fld F.EVL_BH_IDX_BH_IDX) ∨ bhAddr (s.fld F.EVL_BH_IDX_BH_IDX) + 16 ≤ a) →
        (a < evlMirrorAddr s.evl.mirrorIdx ∨ evlMirrorAddr s.evl.mirrorIdx + 16 ≤ a) → t.rdByte a = s.rdByte a) ∧
      RegsKept s t [Reg.EVL_BH_IDX])) ∧
  (∀ s : State, s.flag F.EVL_CTRL_DRAM_EN = false → Gives .evlDramEnable s (fun t =>
    t.flag F.EVL_CTRL_DRAM_EN = true ∧ t.num Reg.EVL_WR_IDX = (s.num Reg.EVL_WR_IDX + min 256 s.evl.sinceReset) % 2 ^ 32 ∧
    Logs s t 0x0011 0 (min 256 s.evl.sinceReset) ∧ RegsKept s t [Reg.EVL_CTRL, Reg.EVL_WR_IDX, Reg.EVL_LOST]))

/-- COURSE_UPDATE, MAINS_CROSSING, MAINS_HOLDOVER_TIMEOUT, CT_RUN_WRITE, CT_GROUP_GO and CATCH_ISSUE complete as the clauses say; the clauses rest on R41 to R50. -/
def Obligations.CourseAndCatchTableCommands : Prop :=
  (∀ s : State, exec .courseUpdate s = .next ((List.range 8).foldl State.raiseHigh ((List.range 4).foldl State.courseStep s))) ∧
  (∀ (s : State) (c : Nat), s.flag (F.CRS_CFG_EN c) = true → s.fld (F.CRS_CFG_SRC c) = 0 →
    ((s.courseStep c).courseOf c).pos = s.now.ns % 2 ^ 64 ∧ (∀ d, d ≠ c → (s.courseStep c).courseOf d = s.courseOf d) ∧
    RegsKept s (s.courseStep c) [] ∧ SameMem s (s.courseStep c)) ∧
  (∀ (s : State) (period peakMv : Nat),
    exec (.mainsCrossing period peakMv) s = .next ((List.range 4).foldl (fun s c => s.mainsAt period peakMv c) s)) ∧
  (∀ (s : State) (c : Nat) (period peakMv : Nat), s.courseSrc c 1 = true → s.fld (F.CRS_STATUS_STATE c) = 2 →
    600000000 ≤ 70 * period → 40 * period ≤ 600000000 → 8000 ≤ peakMv →
      (s.mainsAt period peakMv c).courseOf c = { s.courseOf c with
        period := period, err := (s.courseOf c).phaseErr, valid := (s.courseOf c).valid + 1, cross := s.time.cycle } ∧
      (s.mainsAt period peakMv c).fld (F.CRS_FREQ_FREQ_MHZ c) = 600000000000 / period % 2 ^ (F.CRS_FREQ_FREQ_MHZ c).width ∧
      RegsKept s (s.mainsAt period peakMv c) [Reg.CRS_FREQ c] ∧ SameMem s (s.mainsAt period peakMv c)) ∧
  (∀ (s : State) (c : Fin 4), s.courseSrc c 1 = true → s.fld (F.CRS_STATUS_STATE c) = 2 →
    3 * (s.courseOf c).period ≤ 2 * (s.time.cycle - (s.courseOf c).cross) → Gives (.mainsHoldoverTimeout c) s (fun t =>
    t.fld (F.CRS_STATUS_STATE c) = 3 ∧ t.flag (F.CRS_STATUS_CHANGED c) = true ∧
    t.fld (F.CRS_STATUS_LOSSES c) = min 0xFFFF (s.fld (F.CRS_STATUS_LOSSES c) + 1) ∧ (t.courseOf c).valid = 0 ∧ Logs s t 0x0215 0 c ∧
    RegsKept s t [Reg.CRS_STATUS c, Reg.EVL_LOST] ∧ SameMem s t)) ∧
  (∀ (s : State) (m : Fin 8), s.flag (F.CT_CFG_EN m) = true →
    (s.holdsToken = true → (s.tabOf m).phase = .stopped → Gives (.ctRunWrite m true) s (fun t => t.flag (F.CT_CTRL_RUN m) = true ∧
      t.tabOf m = { s.tabOf m with phase := .waiting, issued := s.tabCourse m, high := s.tabCourse m, stopAt := none } ∧
      RegsKept s t [Reg.CT_CTRL m] ∧ SameMem s t)) ∧
    ((s.tabOf m).phase = .waiting → Gives (.ctRunWrite m false) s (fun t => t.flag (F.CT_CTRL_RUN m) = false ∧
      (t.tabOf m).phase = .stopped ∧ RegsKept s t [Reg.CT_CTRL m] ∧ SameMem s t))) ∧
  (∀ (s : State) (mask : BitVec 8),
    exec (.ctGroupGo mask) s = .next ((List.range 8).foldl (fun s m => if bit mask.toNat m then s.ctStart m else s) s)) ∧
  (∀ (s : State) (m : Fin 8) (o : Int), (s.tabOf m).phase = .running → (s.tabOf m).stopAt = none → s.ctNent m ≠ 0 → s.ctPeriod m ≠ 0 →
    0 < posDiff (s.tabOf m).high (s.tabOf m).issued →
    o = s.ordinalAt m (s.relPos m (s.tabOf m).issued + posDiff (s.tabOf m).high (s.tabOf m).issued) →
    o = s.ordinalAt m (s.relPos m (s.tabOf m).issued) + 1 →
    exec (.catchIssue m) s = .next (((s.issueCatch m o 0).setTab m { s.tabOf m with
      phase := .running, issued := (s.tabOf m).high, stopAt := none, catches := (s.tabOf m).catches + 1 }).setFld (F.CT_CTRL_RUNNING m) 1)) ∧
  (∀ (s : State) (m : Fin 8) (o : Int),
    (s.issueCatch m o 0).inflight = s.inflight ++ [⟨m, (s.physOf m).getD 15, s.ordinalPos m o, s.ordinalCseq m o, s.now⟩] ∧
    (s.issueCatch m o 0).num (Reg.CT_LAST_CSEQ m) = s.ordinalCseq m o % 2 ^ 32 ∧
    RegsKept s (s.issueCatch m o 0) [Reg.CT_LAST_CSEQ m] ∧ SameMem s (s.issueCatch m o 0))

/-- TIME_BASE_TICK, CATCH_ARRIVAL and RRA_REQUEST complete as the clauses say; the clauses rest on R52 to R54, R51 and R388 to R391. -/
def Obligations.TickCatchAndRequestCommands : Prop :=
  (∀ s : State, exec .timeBaseTick s = .next s.coxCycles.tick.settleHeld.heatersFollow) ∧
  (∀ s : State, s.tick.time.now = s.time.now.move (s.num Reg.CTU_TIME_INC + slewShare (s.num Reg.CTU_TIME_INC) s.time.slew) ∧
    s.tick.time.slew = s.time.slew - slewShare (s.num Reg.CTU_TIME_INC) s.time.slew ∧ s.tick.time.cycle = s.time.cycle + 1 ∧
    s.tick.time.servoWd = (if s.timeState = 2 then s.time.servoWd + 1 else s.time.servoWd) ∧ SameMem s s.tick ∧ RegsKept s s.tick []) ∧
  (∀ s : State, s.owed = [] → s.rra.wait = [] → (∀ n, s.logicalOf n = none) → s.vdrs = [] → exec .timeBaseTick s = .next s.tick) ∧
  (∀ s : State, s.owed ≠ [] → s.settleHeld = (s.setOwed []).completeHeld s.owed) ∧
  (∀ (s : State) (m : Fin 8), s.nextCatch m = none → exec (.catchArrival m) s = .next s) ∧
  (∀ (s : State) (m : Fin 8) (c : Catch), s.nextCatch m = some c → s.replDue m c.cseq = false → s.migDue m c.cseq = false →
    exec (.catchArrival m) s = .next ((s.setInflight (s.inflight.erase c)).catchArrives c)) ∧
  (∀ (s u : State) (m : Fin 8) (c d : Catch), s.nextCatch m = some c → s.replDue m c.cseq = false → s.migDue m c.cseq = true → u = s.migrate →
    u.nextCatch m = some d → exec (.catchArrival m) s = .next ((u.setInflight (u.inflight.erase d)).catchArrives d)) ∧
  (∀ (s : State) (ip : BitVec 32) (port : BitVec 16) (dg : List Byte), s.rraAuthentic (dg.map BitVec.toNat) = false →
    exec (.rraRequest ip port dg) s = .next (((s.count (Reg.ETH_CNT_RRA_AUTH 4) 1).logPerSecond 0x68000 0x0C13 0x6014
      (fieldAt (dg.map BitVec.toNat) 7 1)).ethIrq 4 3)) ∧
  (∀ (s : State) (ip : BitVec 32) (port : BitVec 16) (dg : List Byte) (l who : List Nat), l = dg.map BitVec.toNat →
    who = (leBytes 4 ip.toNat).reverse ++ (leBytes 2 port.toNat).reverse → s.rraAuthentic l = true →
    (s.rraHeld l = true ∨ s.rra.wait ≠ [] → Gives (.rraRequest ip port dg) s (fun t => t.rra = { s.rra with wait := s.rra.wait ++ [(who, l)] } ∧
      SameMem s t ∧ RegsKept s t [])) ∧
    (s.rraHeld l = false → s.rra.wait = [] → fieldAt l 8 8 < Tab.get (fun _ => 0) s.rra.last (fieldAt l 7 1) → Gives (.rraRequest ip port dg) s
      (fun t => t.rbit (Reg.ETH_IRQ 4) 3 = true ∧ Logs s t 0x0C14 0x6014 (fieldAt l 8 8 % 2 ^ 32) ∧ t.rra = s.rra ∧ SameMem s t ∧
        RegsKept s t [Reg.ETH_IRQ 4, Reg.EVL_LOST])) ∧
    (∀ recs, s.rraHeld l = false → s.rra.wait = [] → fieldAt l 8 8 = Tab.get (fun _ => 0) s.rra.last (fieldAt l 7 1) →
      Tab.find s.rra.resp (fieldAt l 7 1) = some recs → exec (.rraRequest ip port dg) s =
        .next (s.rraAnswer who (fieldAt l 7 1) (fieldAt l 8 8) (recs.length / 8) 1 recs)) ∧
    (∀ recs u, s.rraHeld l = false → s.rra.wait = [] → Tab.get (fun _ => 0) s.rra.last (fieldAt l 7 1) < fieldAt l 8 8 →
      (s.rraAccept (fieldAt l 7 1) (fieldAt l 8 8)).rraOps ((List.range (fieldAt l 6 1)).map (fun i => (l.drop (0x20 + 16 * i)).take 16)) = (recs, u) →
      exec (.rraRequest ip port dg) s = .next ((u.setRra { u.rra with resp := Tab.put u.rra.resp (fieldAt l 7 1) recs }).rraAnswer who
        (fieldAt l 7 1) (fieldAt l 8 8) (fieldAt l 6 1) 0 recs)))

/-- R30 and R31: what a transient, a fatal fault, the window and the re-admission do to the health of every resource the module has. -/
def Obligations.HealthModel : Prop :=
  (∀ (s : State) (r : Res), r.present = true → r.domainOf.any s.domainRetired = false →
    (s.health r = .retired → (s.readmit r).health r = .testing ∧ Logs s (s.readmit r) (r.block * 256 + 4) (s.sourceOf r) (r.detail 0)) ∧
    (s.health r ≠ .retired → (s.readmit r).health r = s.health r ∧
      Logs s (s.readmit r) (r.block * 256 + 7) (s.sourceOf r) (r.detail (s.health r).code))) ∧
  (∀ (s : State) (r : Res) (c : Nat), r.present = true → r.domainOf.any s.domainRetired = false →
    (s.inUse r = true → (s.fatal r c).health r = .retired ∧ Logs s (s.fatal r c) (r.block * 256 + 3) (s.sourceOf r) (r.detail (c + 2 ^ 31))) ∧
    (s.inUse r = false → s.fatal r c = s)) ∧
  (∀ (s : State) (r : Res) (i : Nat × Nat) (c : Nat), r.present = true → r.domainOf.any s.domainRetired = false →
    ((s.healthRec r).last = some i → s.transientIn r i c = s) ∧
    ((s.healthRec r).last ≠ some i →
      (s.health r = .service → 1 < (s.healthNW r).1 → (s.transientIn r i c).health r = .retry ∧
        (s.transientIn r i c).healthRec r = ⟨1, some i, s.time.cycle⟩ ∧ Logs s (s.transientIn r i c) (r.block * 256 + 1) (s.sourceOf r) (r.detail c)) ∧
      (s.health r = .service → (s.healthNW r).1 ≤ 1 → (s.transientIn r i c).health r = .retired ∧
        Logs s (s.transientIn r i c) (r.block * 256 + 3) (s.sourceOf r) (r.detail c)) ∧
      (s.health r = .retry → (s.healthRec r).count + 1 < (s.healthNW r).1 → (s.transientIn r i c).health r = .retry ∧
        (s.transientIn r i c).healthRec r = ⟨(s.healthRec r).count + 1, some i, (s.healthRec r).opened⟩ ∧ (s.transientIn r i c).evl = s.evl) ∧
      (s.health r = .retry → (s.healthNW r).1 ≤ (s.healthRec r).count + 1 → (s.transientIn r i c).health r = .retired ∧
        Logs s (s.transientIn r i c) (r.block * 256 + 3) (s.sourceOf r) (r.detail c)) ∧
      (s.health r = .retired ∨ s.health r = .testing → s.transientIn r i c = s))) ∧
  (∀ (s : State) (r : Res) (c : Nat), r.present = true → r.domainOf.any s.domainRetired = false →
    (s.health r = .retry → s.lasted (s.healthRec r).opened ((s.healthNW r).2 * cycPerMs) = false → s.windowElapsed r = s) ∧
    (s.health r = .retry → s.lasted (s.healthRec r).opened ((s.healthNW r).2 * cycPerMs) = true → (s.windowElapsed r).health r = .service ∧ ((s.windowElapsed r).healthRec r).count = 0 ∧
      Logs s (s.windowElapsed r) (r.block * 256 + 2) (s.sourceOf r) (r.detail (s.healthRec r).count)) ∧
    (s.health r = .testing → (s.testPassed r).health r = .service ∧ ((s.testPassed r).healthRec r).count = 0 ∧
      Logs s (s.testPassed r) (r.block * 256 + 5) (s.sourceOf r) (r.detail 0)) ∧
    (s.health r = .testing → (s.testFailed r c).health r = .retired ∧
      Logs s (s.testFailed r c) (r.block * 256 + 6) (s.sourceOf r) (r.detail c)))

/-- R30 with R148, R202, R243, R342, R347, R373, R383, R434, R457, R486, R504, R539: the re-admission commands start a resource's test, and the
window and the test end.  What `readmit`, `windowElapsed`, `testPassed` and `testFailed` do is `Obligations.HealthModel`. -/
def Obligations.ReadmissionCommands : Prop :=
  (∀ (s : State) (g : Fin 16), exec (.encReadmit g) s = .next (s.readmit (.enc g))) ∧
  (∀ (s : State) (n : Fin 9), exec (.crewReadmit n) s = .next (s.readmit (.crew n))) ∧
  (∀ (s : State) (n : Fin 9) (ch : Fin 8), s.crewDeaf n = false → exec (.cdmReadmit n ch) s = .next (s.readmit (.cdm n ch))) ∧
  (∀ (s : State) (a : Fin 32), exec (.stageReadmit a) s = .next (s.axQueue a 10 0)) ∧
  (∀ (s : State) (k : Fin 20), s.health (.conv k) ≠ .retired → exec (.converterReadmit k) s = .next (s.readmit (.conv k))) ∧
  (∀ (s u : State) (k : Fin 20), s.health (.conv k) = .retired → u = s.readmit (.conv k) →
    (16 ≤ k.val → u.hasDiag k = false ∨ u.inUse (.tdac (2 * (k - 16))) = false →
      exec (.converterReadmit k) s = .next (u.testFailed (.conv k) 1)) ∧
    (k.val < 16 ∨ (u.hasDiag k = true ∧ u.inUse (.tdac (2 * (k - 16))) = true) →
      exec (.converterReadmit k) s = .next (u.setConv k { u.convOf k with test := some (u.convTest k) }))) ∧
  (∀ (s : State) (p : Fin 8), s.health (.tdac p) ≠ .retired → exec (.tdacReadmit p) s = .next (s.readmit (.tdac p))) ∧
  (∀ (s u : State) (p : Fin 8), s.health (.tdac p) = .retired → u = s.readmit (.tdac p) → u.pairInService p = true →
    exec (.tdacReadmit p) s = .next (u.setPair p { u.pairOf p with dacTest := some (0, false) })) ∧
  (∀ (s u v : State) (p : Fin 8) (c : Nat), s.health (.tdac p) = .retired → u = s.readmit (.tdac p) → u.pairInService p = false →
    u.freshNat = (c, v) → exec (.tdacReadmit p) s = .next (v.testFailed (.tdac p) c)) ∧
  (∀ (s : State) (n : Fin 16), (s.health (.clo n) = .retired →
      exec (.cloReadmit n) s = .next (((s.setClo n { s.cloOf n with readings := [] }).readmit (.clo n)).cloDrive n)) ∧
    (s.health (.clo n) ≠ .retired → exec (.cloReadmit n) s = .next ((s.readmit (.clo n)).cloDrive n))) ∧
  (∀ (s : State) (n : Fin 64), exec (.vdrReadmit n) s = .next ((s.readmit (.vdr n)).vdrDrive n)) ∧
  (∀ (s : State) (n : Fin 8), s.health (.can n) = .retired → s.domainRetired 4 = false → Gives (.canReadmit n) s (fun t =>
    t.health (.can n) = .testing ∧ t.rbit (Reg.CAN_IRQ n) 18 = true)) ∧
  (∀ (s : State) (n : Fin 6), s.health (.eth n) = .retired → s.domainRetired 4 = false → Gives (.ethReadmit n) s (fun t =>
    t.health (.eth n) = .testing ∧ t.rbit (Reg.ETH_IRQ n) 2 = true)) ∧
  (∀ s : State, s.health (.lane 0) = .retired → Gives .plkReadmitLane0 s (fun t => t.health (.lane 0) = .testing ∧ t.rbit Reg.PLK_IRQ 4 = true)) ∧
  (∀ s : State, s.health (.lane 1) = .retired → Gives .plkReadmitLane1 s (fun t => t.health (.lane 1) = .testing ∧ t.rbit Reg.PLK_IRQ 4 = true)) ∧
  (∀ (s : State) (l : BitVec 4), l.toNat < 12 → s.health (.link l.toNat) = .retired → Gives (.linkReadmit l) s (fun t =>
    t.health (.link l.toNat) = .testing ∧ t.flag F.FWL_STATUS_LINK = true)) ∧
  (∀ (s : State) (b : Nat), s.mbHas 1 7 = true → s.mbReq 1 1 = 0 → s.mbReq 1 2 = b → b < 8 → s.health (.brake b) = .retired →
    exec .pvmReadmit s = .next ((s.readmit (.brake b)).mbAnswer 1 0 0)) ∧
  (∀ (s : State) (r : Res), r.present = true → exec (.retryWindowElapsed r) s = .next (s.withOwner r (fun s => s.windowElapsed r))) ∧
  (∀ (s : State) (r : Res) (code : BitVec 16), r.present = true → s.health r = .testing → (∀ n, r ≠ .crew n) → (∀ d, r ≠ .domain d) →
    (∀ k, r ≠ .conv k) → (∀ p, r ≠ .tdac p) → (∀ k, r ≠ .conn k) → (∀ n, r ≠ .clo n) →
    exec (.readmitTestDone r code) s =
      .next (if code = 0 then s.readmitted r else s.withOwner r (fun s => s.testFailed r code.toNat))) ∧
  (∀ (s : State) (r : Res) (code : BitVec 16), r.present = true → s.health r = .testing → ((∃ k, r = .conv k) ∨ ∃ p, r = .tdac p) →
    (s.anaVerdict r = none → exec (.readmitTestDone r code) s = .next s) ∧
    (s.anaVerdict r = some true → exec (.readmitTestDone r code) s = .next (s.readmitted r)) ∧
    (∀ c u, s.anaVerdict r = some false → s.freshNat = (c, u) →
      exec (.readmitTestDone r code) s = .next ((u.anaTestOver r).withOwner r (fun s => s.testFailed r c)))) ∧
  (∀ (s : State) (n : Nat) (code : BitVec 16), n < 16 → s.health (.clo n) = .testing →
    (s.cloVerdict n = none → exec (.readmitTestDone (.clo n) code) s = .next s) ∧
    (s.cloVerdict n = some true → exec (.readmitTestDone (.clo n) code) s = .next (s.readmitted (.clo n))) ∧
    (∀ c u, s.cloVerdict n = some false → s.freshNat = (c, u) →
      exec (.readmitTestDone (.clo n) code) s = .next (u.withOwner (.clo n) (fun s => s.testFailed (.clo n) c)))) ∧
  (∀ (s : State) (k : Nat) (code : BitVec 16), k < 1024 → s.health (.conn k) = .testing →
    (s.lasted (s.connOf k).test (1000 * cycPerMs) = false → exec (.readmitTestDone (.conn k) code) s = .next s) ∧
    (∀ c u, s.lasted (s.connOf k).test (1000 * cycPerMs) = true → s.freshNat = (c, u) →
      exec (.readmitTestDone (.conn k) code) s = .next (u.withOwner (.conn k) (fun s => s.testFailed (.conn k) c)))) ∧
  (∀ (s : State) (n : Nat) (code : BitVec 16), n < 9 → s.health (.crew n) = .testing →
    exec (.readmitTestDone (.crew n) code) s = .next (s.crewTested n code.toNat)) ∧
  (∀ (s : State) (d : Fin 32), s.health (.domain d) = .testing → s.lasted (s.clkAt d) (1000 * cycPerMs) = true →
    Gives (.domainClockCheckDone d true) s (fun t =>
    t.health (.domain d) = .service ∧ t.flag (F.RPC_DOM_RELEASED d) = true ∧ t.flag (F.RPC_DOM_HELD d) = false ∧ t.rbit Reg.RPC_IRQ 5 = true)) ∧
  (∀ (s : State) (d : Fin 32), s.health (.domain d) = .testing → s.lasted (s.clkAt d) (1000 * cycPerMs) = true →
    Gives (.domainClockCheckDone d false) s (fun t =>
    t.health (.domain d) = .retired ∧ t.rbit Reg.RPC_IRQ 5 = true))

/-- REGISTER_WRITE, MEMORY_ACCESS, ALIAS_ACCESS, FWL_UNFREEZE and ECC_SCRUB complete as the clauses say; the clauses rest on R5, R6, R18, R24, R25, R491 to R499
and R581.  The order of an access's checks is `State.access` (notes/assumptions/12.md). -/
def Obligations.AccessCommands : Prop :=
  (∀ (s : State) (src : Fin 160) (k : Access) (a : BitVec 40) (size : Fin 4) (len : Fin 65) (v : BitVec 64) (w : BitVec 512) (e : Ecc)
    (task : Option (Fin 512 × Fin 2)), s.frozen src = true →
    exec (.registerWrite src a size v) s = .next s ∧ exec (.memoryAccess src k a len w e task) s = .next s) ∧
  (∀ (s : State) (src : Fin 160) (k : Access) (a : BitVec 40) (len : Fin 65) (v : BitVec 512) (e : Ecc) (task : Option (Fin 512 × Fin 2)),
    s.frozen src = false → s.fwlAllowed src a.toNat len.val k = false → (2 ≤ src.val ∧ src.val < 64) ∨ 140 ≤ src.val →
    Gives (.memoryAccess src k a len v e task) s (fun t => t.frozen src = true ∧ t.flag F.FWL_STATUS_VIOL = true ∧
      t.num Reg.FWL_VIOL_COUNT = satAdd 0xFFFFFFFF (s.num Reg.FWL_VIOL_COUNT) 1 ∧ t.bus = ⟨true, 0⟩ ∧
      Logs s t 0x1010 (masterSource src) (a.toNat % 2 ^ 32) ∧ SameMem s t ∧
      RegsKept s t [Reg.FWL_VIOL_INFO, Reg.FWL_VIOL_ADDR_LO, Reg.FWL_VIOL_ADDR_HI, Reg.FWL_VIOL_COUNT, Reg.FWL_FROZEN (src / 32), Reg.FWL_STATUS, Reg.EVL_LOST])) ∧
  (∀ m a n : Nat, memForm m a n = true ↔
    (n = 1 ∨ n = 2 ∨ n = 4 ∨ n = 8) ∧ a % n = 0 ∨ ¬(n = 1 ∨ n = 2 ∨ n = 4 ∨ n = 8) ∧ 16 ≤ m ∧ 1 ≤ n ∧ a % 64 + n ≤ 64) ∧
  (∀ (s : State) (src : Fin 160) (a : BitVec 40) (len : Fin 65) (v : BitVec 512) (e : Ecc) (task : Option (Fin 512 × Fin 2)),
    s.frozen src = false → s.fwlAllowed src a.toNat len.val .write = true → placeOf a.toNat = .ram →
    (memForm src a.toNat len.val = true → src ≠ 1 → Gives (.memoryAccess src .write a len v e task) s (fun t =>
      t.rdMem a.toNat len.val = v.toNat % 256 ^ len.val ∧ SameMemOutside s t a.toNat len.val ∧
      t.bus = ⟨false, 0⟩ ∧ RegsKept s t [])) ∧
    (memForm src a.toNat len.val = false → exec (.memoryAccess src .write a len v e task) s = .next s.busErr)) ∧
  (∀ (s : State) (src : Fin 160) (a : BitVec 40) (len : Fin 65) (v : BitVec 512) (task : Option (Fin 512 × Fin 2)),
    s.frozen src = false → s.fwlAllowed src a.toNat len.val .read = true → placeOf a.toNat = .ram → memForm src a.toNat len.val = true → src ≠ 1 →
    exec (.memoryAccess src .read a len v .clean task) s = .next (s.busOk (s.rdMem a.toNat len.val))) ∧
  (∀ (s : State) (src : Fin 160) (a : BitVec 40) (size : Fin 4) (v : BitVec 64),
    s.frozen src = false → s.fwlAllowed src a.toNat (2 ^ size.val) .write = true → placeOf a.toNat = .reg →
    (size ≠ 2 ∨ a.toNat % 4 ≠ 0 ∨ regDesc (regAlias a.toNat) = none → exec (.registerWrite src a size v) s = .next s.busErr) ∧
    (∀ d, size = 2 → a.toNat % 4 = 0 → regDesc (regAlias a.toNat) = some d →
      exec (.registerWrite src a size v) s = .next ((s.regWrite src d (regAlias a.toNat) (v.toNat % 2 ^ 32)).busOk 0))) ∧
  (∀ (s : State) (src : Fin 160) (a : BitVec 40) (size : Fin 4) (v : BitVec 64),
    s.frozen src = false → s.fwlAllowed src a.toNat (2 ^ size.val) .write = true → placeOf a.toNat = .nowhere →
    Gives (.registerWrite src a size v) s (fun t => t.bus = ⟨true, 0⟩ ∧ Logs s t 0x0012 (masterSource src) (a.toNat % 2 ^ 32) ∧
      SameMem s t ∧ RegsKept s t [Reg.EVL_LOST])) ∧
  (∀ (s : State) (d : RegDesc) (a v i : Nat), i < 32 → v < 2 ^ 32 →
    ((s.plainWrite d a v).num a).testBit i =
      if v.testBit i && d.w1c.testBit i then false else if d.rw.testBit i then v.testBit i else (s.num a).testBit i) ∧
  (∀ (s : State) (src : Fin 160) (m : Fin 8) (o : BitVec 24) (len : Fin 65) (v : BitVec 512) (e : Ecc), s.frozen src = false →
    s.fwlAllowed src (0x50000000 + m.val * 0x1000000 + o.toNat) len.val .write = true →
    (s.physOf m = none → Gives (.aliasAccess src .write m true o len v e) s (fun t => t.bus = ⟨true, 0⟩ ∧ Logs s t 0x0013 (masterSource src) m ∧
      SameMem s t ∧ RegsKept s t [Reg.EVL_LOST])) ∧
    (∀ n, s.physOf m = some n → s.mig = none → exec (.aliasAccess src .write m true o len v e) s =
      .next (s.crewAccess src n .write (0x40000000 + n * 0x1000000 + o.toNat) len.val v.toNat (2 ^ 512 - 1) e)) ∧
    (∀ n g, s.physOf m = some n → s.mig = some g → g.m = m → exec (.aliasAccess src .write m true o len v e) s =
      .next (s.setMig (some { g with held := g.held ++ [⟨src, .write, 0x50000000 + m.val * 0x1000000 + o.toNat, len.val, v.toNat, 2 ^ 512 - 1⟩] })))) ∧
  (∀ (s : State) (m : Byte) (x : Viol), 2 ≤ m.toNat → m.toNat < 16 → s.frozen m.toNat = true → Tab.find s.fwl.viols m.toNat = some x →
    x.at_ ≠ s.time.cycle → Gives (.fwlUnfreeze 0 0xA5#8 m) s (fun t => t.frozen m.toNat = false ∧ Logs s t 0x1011 (masterSource m.toNat) 0 ∧
      Tab.find t.fwl.viols m.toNat = none ∧ SameMem s t ∧ RegsKept s t [Reg.FWL_FROZEN (m.toNat / 32), Reg.EVL_LOST])) ∧
  (∀ (s : State) (src : Fin 160) (key m : Byte), src ≠ 0 ∨ key.toNat ≠ 0xA5 ∨ m.toNat = 0 ∨ s.frozen m.toNat = false →
    exec (.fwlUnfreeze src key m) s = .next s) ∧
  (∀ (s : State) (a : Nat) (e : Ecc), scrubbed a = false → exec (.eccScrub a e) s = .next s) ∧
  (∀ (s : State) (a : Nat), scrubbed a = true → canRamAt a = none →
    exec (.eccScrub a .clean) s = .next s ∧
    Gives (.eccScrub a .corrected) s (fun t => t.num Reg.FWL_ECC_CE = satAdd 0xFFFFFFFF (s.num Reg.FWL_ECC_CE) 1 ∧ SameMem s t ∧
      RegsKept s t [Reg.FWL_ECC_CE, Reg.EVL_LOST]) ∧
    (crewStateAt a = none → a < 2 ^ 64 → Gives (.eccScrub a .uncorrectable) s (fun t =>
      t.num Reg.FWL_ECC_UE = satAdd 0xFFFFFFFF (s.num Reg.FWL_ECC_UE) 1 ∧ t.num64 Reg.FWL_ECC_ADDR_LO Reg.FWL_ECC_ADDR_HI = a ∧
      t.flag F.FWL_STATUS_ECC_UE = true ∧ Logs s t 0x1021 0 (a % 2 ^ 32) ∧ SameMem s t ∧
      RegsKept s t [Reg.FWL_ECC_UE, Reg.FWL_ECC_ADDR_LO, Reg.FWL_ECC_ADDR_HI, Reg.FWL_STATUS, Reg.EVL_LOST])))

/-- CDM_GO, CDM_ABORT, CDM_RESUME, CDM_ACCESS, RMV_GO, RMV_ABORT, RMV_RESUME and RMV_ACCESS complete as the clauses say; the clauses rest on R480 to R489. -/
def Obligations.DmaCommands : Prop :=
  (∀ (s : State) (n : Fin 9) (ch : Fin 8), s.crewDeaf n = false → s.fld (F.CDM_CH_CFG_OWNER n ch) = 0 → s.inUse (.cdm n ch) = true →
    s.cdmState n ch = 0 ∨ s.cdmState n ch = 2 → s.cdmCheck n ch = 0 → Gives (.cdmGo n ch) s (fun t => t.cdmState n ch = 1 ∧
      t.num (Reg.CDM_CH_POS n ch) = 0 ∧ t.dmaOf n ch = ⟨0, s.fld (F.CDM_CH_MODE_RETRY n ch), false, none⟩ ∧
      t.rbit (Reg.CDM_STATUS n) (16 + ch) = true ∧ SameMem s t ∧
      RegsKept s t [Reg.CDM_CH_POS n ch, Reg.CDM_CH_STATE n ch, Reg.CDM_STATUS n])) ∧
  (∀ (s : State) (n : Fin 9) (ch : Fin 8), s.crewDeaf n = false → s.fld (F.CDM_CH_CFG_OWNER n ch) ≠ 0 →
    exec (.cdmGo n ch) s = .next (s.setFld (F.CDM_CH_STATE_REFUSE n ch) 2)) ∧
  (∀ (s : State) (n : Fin 9) (ch : Fin 8), s.crewDeaf n = false → s.cdmState n ch = 1 → Gives (.cdmAbort n ch) s (fun t =>
    t.cdmState n ch = 2 ∧ t.fld (F.CDM_CH_STATE_CAUSE n ch) = 3 ∧ t.rbit (Reg.CDM_STATUS n) (8 + ch) = true ∧
    t.rbit (Reg.CDM_STATUS n) (16 + ch) = false ∧ SameMem s t ∧ RegsKept s t [Reg.CDM_CH_STATE n ch, Reg.CDM_STATUS n])) ∧
  (∀ (s : State) (n : Fin 9) (ch : Fin 8), s.crewDeaf n = false → s.cdmState n ch = 2 → s.inUse (.cdm n ch) = true →
    Gives (.cdmResume n ch) s (fun t => t.cdmState n ch = 1 ∧ (t.dmaOf n ch).pos = (s.dmaOf n ch).pos ∧
      (t.dmaOf n ch).left = s.fld (F.CDM_CH_MODE_RETRY n ch) ∧ t.rbit (Reg.CDM_STATUS n) (16 + ch) = true ∧ SameMem s t ∧
      RegsKept s t [Reg.CDM_CH_STATE n ch, Reg.CDM_STATUS n])) ∧
  (∀ (s : State) (n : Fin 9) (ch : Nat) (e b : Ecc), s.crewDeaf n = false →
    nextServed (Tab.get (fun _ => 7) s.dmaLast n) 8 (fun ch => s.cdmState n ch == 1 && !s.frozen (64 + 8 * n + ch))
      (fun ch => s.fld (F.CDM_CH_CFG_PRIO n ch)) = some ch →
    exec (.cdmAccess n e b) s = .next ((s.setDmaLast (Tab.put s.dmaLast n ch)).cdmMoves n ch (s.cdmBurst n ch) e b)) ∧
  (∀ (s : State) (n ch k : Nat) (e b : Ecc), s.cdmMoves n ch (k + 1) e b =
    if (s.cdmMove n ch e b).cdmState n ch = 1 ∧ ((s.cdmMove n ch e b).dmaOf n ch).pos = (s.dmaOf n ch).pos + 1
    then (s.cdmMove n ch e b).cdmMoves n ch k .clean .clean else s.cdmMove n ch e b) ∧
  (∀ (s : State) (c k : Nat) (e b : Ecc), s.rmvMoves c (k + 1) e b =
    if (s.rmvMove c e b).fld (F.RMV_STATUS_STATE c) = 1 ∧ ((s.rmvMove c e b).rmvOf c).pos = (s.rmvOf c).pos + 8
    then (s.rmvMove c e b).rmvMoves c k .clean .clean else s.rmvMove c e b) ∧
  (∀ (s : State) (n ch : Nat), n < 9 → ch < 8 → (s.dmaOf n ch).pos + 1 < s.cdmTotal n ch →
    ((s.cdmWritten n ch).dmaOf n ch).pos = (s.dmaOf n ch).pos + 1 ∧
    ((s.cdmWritten n ch).dmaOf n ch).left = s.fld (F.CDM_CH_MODE_RETRY n ch) ∧ (s.cdmWritten n ch).cdmState n ch = s.cdmState n ch ∧
    (s.cdmWritten n ch).num (Reg.CDM_CH_POS n ch) = ((s.dmaOf n ch).pos + 1) % 2 ^ 32 ∧ RegsKept s (s.cdmWritten n ch) [Reg.CDM_CH_POS n ch]) ∧
  (∀ (s : State) (n ch : Nat), n < 9 → ch < 8 → s.cdmTotal n ch ≤ (s.dmaOf n ch).pos + 1 → s.fld (F.CDM_CH_CFG_OWNER n ch) ≠ 2 →
    (s.cdmWritten n ch).cdmState n ch = 0 ∧ (s.cdmWritten n ch).rbit (Reg.CDM_STATUS n) ch = true ∧
    (s.cdmWritten n ch).rbit (Reg.CDM_STATUS n) (16 + ch) = false ∧
    RegsKept s (s.cdmWritten n ch) [Reg.CDM_CH_POS n ch, Reg.CDM_CH_STATE n ch, Reg.CDM_STATUS n]) ∧
  (∀ (s : State) (c : Fin 4), s.inUse (.rmv c) = true → s.fld (F.RMV_STATUS_STATE c) = 0 ∨ s.fld (F.RMV_STATUS_STATE c) = 2 →
    (s.rmvCheck c = 0 → Gives (.rmvGo c) s (fun t => t.fld (F.RMV_STATUS_STATE c) = 1 ∧ t.num (Reg.RMV_POS c) = 0 ∧
      t.rmvOf c = ⟨0, s.fld (F.RMV_CTRL_RETRY c), false, false⟩ ∧ SameMem s t ∧ RegsKept s t [Reg.RMV_POS c, Reg.RMV_STATUS c])) ∧
    (s.rmvCheck c ≠ 0 → exec (.rmvGo c) s = .next (s.setFld (F.RMV_STATUS_REFUSE c) (s.rmvCheck c)))) ∧
  (∀ (s : State) (c : Fin 4), s.fld (F.RMV_STATUS_STATE c) = 1 → Gives (.rmvAbort c) s (fun t => t.fld (F.RMV_STATUS_STATE c) = 2 ∧
    t.fld (F.RMV_STATUS_CAUSE c) = 3 ∧ SameMem s t ∧ RegsKept s t [Reg.RMV_STATUS c])) ∧
  (∀ (s : State) (c : Fin 4), s.fld (F.RMV_STATUS_STATE c) = 2 → s.inUse (.rmv c) = true → Gives (.rmvResume c) s (fun t =>
    t.fld (F.RMV_STATUS_STATE c) = 1 ∧ (t.rmvOf c).pos = (s.rmvOf c).pos ∧ (t.rmvOf c).left = s.fld (F.RMV_CTRL_RETRY c) ∧ SameMem s t ∧
    RegsKept s t [Reg.RMV_STATUS c])) ∧
  (∀ (s : State) (c : Nat) (e b : Ecc),
    nextServed (Tab.get (fun _ => 3) s.dmaLast 9) 4 (fun c => s.fld (F.RMV_STATUS_STATE c) == 1 && !s.frozen (136 + c)) (fun _ => 0) = some c →
    exec (.rmvAccess e b) s = .next ((s.setDmaLast (Tab.put s.dmaLast 9 c)).rmvMoves c (s.rmvBurst c) e b)) ∧
  (∀ (s : State) (c k : Nat) (e b : Ecc), c < 4 → s.rmvWaits c (s.rmvOf c).pos = some k →
    (s.rmvMove c e b).flag (F.RMV_STATUS_OVR c) = true ∧ RegsKept s (s.rmvMove c e b) [Reg.RMV_STATUS c, Reg.EVL_LOST] ∧
    ((s.rmvOf c).waiting = false → Logs s (s.rmvMove c e b) 0x1014 (0x8100 + c) k) ∧ SameMem s (s.rmvMove c e b))

/-- SPARE_SELF_TEST, SPARE_SELF_TEST_DONE, LSM_COMPARE, SLACK_EXHAUSTED, MIGRATION_COPY_DONE, MIGRATION_SWITCH, CREW_FORCE_RETIRE,
CREW_MIGRATE and LSM_CLR_COUNTS complete as the clauses say; the clauses rest on R12 and R191 to R201. -/
def Obligations.CrewCommands : Prop :=
  (∀ (s : State) (n : Nat), s.spareFor = some n → s.spareHeld = none → Gives .spareSelfTest s (fun t =>
    t.lsmOf n = { s.lsmOf n with bist := true } ∧ RegsKept s t [] ∧ SameMem s t)) ∧
  (∀ (s : State) (n : Nat), (List.range 9).find? (fun n => (s.lsmOf n).bist) = some n →
    (s.iml.repl = none → Gives (.spareSelfTestDone true) s (fun t => (t.lsmOf n).bist = false ∧ t.iml.untested ≠ some n ∧ RegsKept s t [] ∧
      SameMem s t)) ∧
    exec (.spareSelfTestDone true) s = .next ((s.setLsm n { s.lsmOf n with bist := false }).replTested n) ∧
    exec (.spareSelfTestDone false) s = .next (((s.setLsm n { s.lsmOf n with bist := false }).crewFatal n 5).replTested n)) ∧
  (∀ (s : State) (n : Fin 9), (s.inUse (.crew n) = false → exec (.crewForceRetire n) s = .next s) ∧
    (s.inUse (.crew n) = true →
      exec (.crewForceRetire n) s = .next ((s.log 0x0635 (0x1000 + n) ((s.logicalOf n).getD 0xF)).crewFatal n 6))) ∧
  (∀ (s : State) (n cause : Nat), (s.inUse (.crew n) = true → s.crewFatal n cause = (s.fatal (.crew n) cause).crewRetire n cause) ∧
    (s.inUse (.crew n) = false → s.crewFatal n cause = s)) ∧
  (∀ (s : State) (n : Fin 9) (m d : Nat), d < 9 → s.logicalOf n = some m → s.spareFor = some d → s.flag (F.LSM_STATUS_STRANDED n) = true →
    d ≠ n.val → s.iml.repl = none → Gives (.crewMigrate n) s (fun t => t.mig = some ⟨m, n, d, false, s.time.cycle, 0, [], []⟩ ∧
      t.flag (F.LSM_STATUS_MIGRATING n) = true ∧ t.flag (F.LSM_STATUS_MIGRATING d) = true ∧ t.num (Reg.LSM_MIG_DROP d) = 0 ∧
      t.fld F.IML_SPARE_SPARE = d ∧ (t.lsmOf d).bist = false ∧ SameMem s t ∧
      RegsKept s t [Reg.LSM_STATUS n, Reg.LSM_STATUS d, Reg.LSM_MIG_DROP d, Reg.IML_SPARE])) ∧
  (∀ (s : State) (n : Fin 9), Gives (.lsmClrCounts n) s (fun t => t.num (Reg.LSM_RETRY_MAX n) = 0 ∧ t.num (Reg.LSM_MISMATCHES n) = 0 ∧
    t.num (Reg.LSM_EXHAUSTS n) = 0 ∧ SameMem s t ∧ RegsKept s t [Reg.LSM_RETRY_MAX n, Reg.LSM_MISMATCHES n, Reg.LSM_EXHAUSTS n])) ∧
  (∀ (s : State) (n : Fin 9) (x : Fin 512) (w : Nat), s.issuedEntry n x = some w → s.crewDeaf n = false → (s.entryOf n x w).done = true →
    (s.entryOf n x w).confirmed = false → s.ctxTarget n x ≤ 1 → exec (.lsmCompare n x true) s = .next (s.lsmConfirm n x w) ∧
      exec (.lsmCompare n x false) s = .next (s.lsmMismatch n x w (s.ctxTarget n x))) ∧
  (∀ (s : State) (n x w t : Nat), n < 9 → (s.entryOf n x w).rerun = true →
    s.lsmMismatch n x w t = (((((s.setFld (F.LSM_STATUS_MISMATCH n) 1).count (Reg.LSM_MISMATCHES n) 1).log 0x0630 (0x1000 + n)
      (x + t * 2 ^ 9 + 2 ^ 10)).setNum (Reg.LSM_LAST_CSEQ n) (s.entryOf n x w).cseq).setNum (Reg.LSM_LAST_DETAIL n)
      (x + t * 2 ^ 9 + 2 ^ 10)).crewFatal n 2) ∧
  (∀ (s : State) (n : Fin 9), (s.reruns n = [] ∨ s.lsmCharge n < s.num (Reg.LSM_SLACK n) → exec (.slackExhausted n) s = .next s) ∧
    (∀ e l t u, s.reruns n = e :: l → s.num (Reg.LSM_SLACK n) ≤ s.lsmCharge n →
      t = (e :: l).foldl (fun s e => s.dropEntry n e.1 e.2) s →
      u = (if (t.lsmOf n).exh then t else t.count (Reg.LSM_EXHAUSTS n) 1) → exec (.slackExhausted n) s =
      .next (((((u.setLsm n { u.lsmOf n with exh := true }).setFld (F.LSM_STATUS_EXHAUSTED n) 1).log 0x0632 (0x1000 + n)
        (l.length + 1)).syncCharge n).syncRetrying n))) ∧
  (∀ (s : State) (g : Migration), s.mig = some g → g.copied = false → Gives .migrationCopyDone s (fun t =>
    t = (s.copyCrew g.src g.dst).setMig (some { g with copied := true, cycles := s.time.cycle - g.start }))) ∧
  (∀ (s : State) (g : Migration) (c : Catch), s.mig = some g → g.copied = true → s.nextCatch g.m = some c → cseqEntry c.cseq = 0 →
    exec .migrationSwitch s = .next (((s.migSwitch.redirect g.m g.dst).domainReset (8 + g.src) 4).completeHeld g.held)) ∧
  (∀ (s : State) (g : Migration) (c : Catch), s.mig = some g → s.nextCatch g.m = some c → cseqEntry c.cseq ≠ 0 →
    exec .migrationSwitch s = .next s)

/-- IML_STAGE, IML_VERIFY_DONE, IML_COPY_DONE, IML_REPLACE, IML_ABORT, REPLACE_SPARE_LOADED, REPLACE_SWITCH and REPLACE_DONE complete as the clauses say; the clauses rest
on R81 to R94. -/
def Obligations.ImageLoaderCommands : Prop :=
  (∀ s : State, s.imlState = 0 ∨ s.imlState = 3 → Gives .imlStage s (fun t => t.imlState = 1 ∧ t.fld F.IML_STATUS_REFUSE = 0 ∧
    t.fld F.IML_PART_PART_CREW = 0xFF ∧ t.iml = { s.iml with cand := none } ∧ SameMem s t ∧ RegsKept s t [Reg.IML_STATUS, Reg.IML_PART])) ∧
  (∀ s : State, s.imlState ≠ 0 → s.imlState ≠ 3 → Gives .imlStage s (fun t => t.flag F.IML_STATUS_CMD_IGN = true ∧ t.imlState = s.imlState ∧
    SameMem s t ∧ RegsKept s t [Reg.IML_STATUS])) ∧
  (∀ (s : State) (c : ImgContent), s.imlState = 1 → s.sourceOk s.imlSrc (s.num Reg.IML_SRC_LEN) = false →
    Gives (.imlVerifyDone c) s (fun t => t.imlState = 0 ∧ t.fld F.IML_STATUS_REFUSE = 0x10 ∧ Logs s t 0x0321 0 0x10 ∧ SameMem s t ∧
      RegsKept s t [Reg.IML_STATUS, Reg.EVL_LOST])) ∧
  (∀ (s : State) (c : ImgContent) (l : List Nat), s.imlState = 1 → s.sourceOk s.imlSrc (s.num Reg.IML_SRC_LEN) = true →
    l = s.rdList s.imlSrc (s.num Reg.IML_SRC_LEN) →
    Gives (.imlVerifyDone c) s (fun t =>
      if (s.imgVerify l c false).1 ≠ 0 then t = s.imlRefuse (s.imgVerify l c false).1 (s.imgVerify l c false).2
      else if (imgHdrOf l).isPart then
        t.imlState = 3 ∧ t.iml.cand = some (imgHdrOf l, imgHolds l c) ∧ t.fld F.IML_PART_PART_CREW = (imgHdrOf l).part % 256 ∧ SameMem s t ∧
          RegsKept s t [Reg.IML_STATUS, Reg.IML_PART]
      else t = (s.setFld F.IML_STATUS_STATE 2).emptySlot s.inactive)) ∧
  (∀ (s u : State) (c : ImgContent) (l : List Nat), s.imlState = 2 →
    u = (s.clearMem (imgSlotAddr s.inactive) 0x2000000).copyMem s.imlSrc (imgSlotAddr s.inactive) (s.num Reg.IML_SRC_LEN) →
    l = u.rdList (imgSlotAddr s.inactive) (s.num Reg.IML_SRC_LEN) → (imgHdrOf l).isPart = false →
    exec (.imlCopyDone c) s = .next (if (u.imgVerify l c false).1 = 0 then
      (((u.setSlotIml s.inactive ⟨false, some (imgHdrOf l), some (imgHolds l c)⟩).syncSlots).setFld F.IML_STATUS_STATE 0).log 0x0320 0
        ((imgHdrOf l).id % 2 ^ 32)
      else ((u.setSlotIml s.inactive ImgSlot.init).syncSlots).imlRefuse (u.imgVerify l c false).1 (u.imgVerify l c false).2)) ∧
  (∀ s : State, (s.imlState = 1 ∨ s.imlState = 2 → exec .imlAbort s =
      .next (((s.emptySlot s.inactive).setFld F.IML_STATUS_STATE 0).setFld F.IML_STATUS_REFUSE 0x11)) ∧
    (s.imlState = 3 → Gives .imlAbort s (fun t => t.imlState = 0 ∧ t.iml.cand = none ∧ t.fld F.IML_PART_PART_CREW = 0xFF ∧ SameMem s t ∧
      RegsKept s t [Reg.IML_STATUS, Reg.IML_PART])) ∧
    (∀ p, s.imlState = 4 → s.iml.repl = some p → p.done = false → exec .imlAbort s = .next s.replAbort) ∧
    (s.imlState = 0 → Gives .imlAbort s (fun t => t.flag F.IML_STATUS_CMD_IGN = true ∧ SameMem s t ∧ RegsKept s t [Reg.IML_STATUS]))) ∧
  (∀ (s : State) (h : ImgHdr) (c : ImgContent) (d : Nat), s.imlState = 3 → s.iml.cand = some (h, c) → s.spareFor = some d →
    Gives .imlReplace s (fun t => t.imlState = 4 ∧ t.iml.repl = some ⟨h.part, (s.physOf h.part).getD 0xF, d, false, none, false, false⟩ ∧
      t.iml.cand = some (h, c) ∧ (t.lsmOf d).bist = false ∧ SameMem s t ∧ RegsKept s t [Reg.IML_STATUS])) ∧
  (∀ s : State, s.imlState = 3 → s.spareFor = none → Gives .imlReplace s (fun t => t.imlState = 0 ∧ t.fld F.IML_STATUS_REFUSE = 0x0F ∧
    t.iml.cand = none ∧ Logs s t 0x0321 0 0x0F ∧ SameMem s t ∧ RegsKept s t [Reg.IML_STATUS, Reg.IML_PART, Reg.EVL_LOST])) ∧
  (∀ (s u : State) (p : Replacing) (h : ImgHdr) (c base : ImgContent), s.iml.repl = some p → s.iml.cand = some (h, c) → s.runCont = some base →
    p.loaded = false →
    u = (((s.resetCrew p.dst).clearMem (crewMem p.dst) 0x1000000).imgCrew (overlayContent base c p.m) p.m p.dst).crewRegions p.dst (some p.m) →
    exec .replaceSpareLoaded s = .next (u.setIml { u.iml with
      repl := some { p with loaded := true, sw := some ((u.num (Reg.CT_LAST_CSEQ p.m) / 64 + 3) % 2 ^ 26 * 64) } })) ∧
  (∀ (s : State) (p : Replacing) (c : Catch), s.iml.repl = some p → s.nextCatch p.m = some c →
    exec .replaceSwitch s = .next (if s.replDue p.m c.cseq then s.replace else s)) ∧
  (∀ (s u v : State) (p : Replacing), s.iml.repl = some p → p.done = true → p.cleared = false →
    u = ((s.resetCrew p.old).clearMem (crewMem p.old) 0x1000000).crewRegions p.old none →
    v = ((u.setIml { u.iml with repl := some { p with cleared := true }, boot := s.inactive, untested := some p.old }).setFld
      F.IML_STATUS_ACTIVE s.inactive).syncSlots.chooseSpare →
    exec .replaceDone s = .next (v.setLsm p.old { LsmState.init with stroke := (v.lsmOf p.old).stroke + 1, bist := true })) ∧
  (∀ (s : State) (p : Replacing), s.iml.repl = some p → p.done = false ∨ p.cleared = true → exec .replaceDone s = .next s) ∧
  (∀ (s u : State) (p : Replacing), s.iml.repl = some p → p.done = true → p.cleared = true →
    u = (if s.iml.untested = some p.old then s.setIml { s.iml with untested := none } else s) →
    s.replTested p.old = ((((u.setIml { u.iml with repl := none, cand := none }).setFld F.IML_PART_PART_CREW 0xFF).setFld
      F.IML_STATUS_STATE 0).chooseSpare).log 0x0323 (0x1000 + p.dst) (p.m + p.old * 2 ^ 8))

/-- POWER_ON, RESET_PIN, BROWN_OUT_FINAL_RESET, SYS_WDG_EXPIRE, SYS_WDG_HALF, SYS_WDG_KICK, AC0_FREEZE_TIMER, START_TIMER_EXPIRE, START_OK,
RPC_FOLLY_REQUEST, IML_ACTIVATE, HOLDUP_LOST, REFCLK_TIMEOUT and RESET_RELEASE complete as the clauses say; the clauses rest on R84 and R531 to R549. A timer's
command that comes before the timer's time changes nothing. -/
def Obligations.ResetCommands : Prop :=
  (∀ s : State, (s.rpc.low ≠ 2 → exec .powerOn s = .next (s.sysReset 0 true)) ∧
    (s.rpc.low = 2 → exec .powerOn s = .next ((s.sysReset 0 true).log 0x011E 0 2))) ∧
  (∀ s : State, (s.rpc.low ≠ 2 → exec .resetPin s = .next (s.sysReset 2 true)) ∧
    (s.rpc.low = 2 → exec .resetPin s = .next ((s.sysReset 2 true).log 0x011E 0 2))) ∧
  (∀ s : State, (s.rpc.brown = true → (s.seq.cuts = [] ∧ s.seq.repCut = none) ∨ s.rpc.brownAt + 15 * cycPerMs ≤ s.time.cycle →
      exec .brownOutFinalReset s = .next (s.sysReset 1 true)) ∧
    (s.rpc.brown = true → (s.seq.cuts ≠ [] ∨ s.seq.repCut ≠ none) → s.time.cycle < s.rpc.brownAt + 15 * cycPerMs →
      exec .brownOutFinalReset s = .next s) ∧
    (s.rpc.brown = false → exec .brownOutFinalReset s = .next s)) ∧
  (∀ s : State, (s.sysWdgRuns = true ↔ s.rpc.pend = none ∧ s.fld F.RPC_WDG_STATUS_TIMEOUT_MS ≠ 0) ∧
    (s.sysWdgRuns = true → s.kickAt 0 + s.fld F.RPC_WDG_STATUS_TIMEOUT_MS * cycPerMs ≤ s.time.cycle → exec .sysWdgExpire s = .next (s.sysReset 4 false)) ∧
    (s.sysWdgRuns = true → s.time.cycle < s.kickAt 0 + s.fld F.RPC_WDG_STATUS_TIMEOUT_MS * cycPerMs → exec .sysWdgExpire s = .next s) ∧
    (s.sysWdgRuns = false → exec .sysWdgExpire s = .next s ∧ exec .sysWdgHalf s = .next s)) ∧
  (∀ s : State, (s.sysWdgRuns = true → s.rpc.half = false → s.kickAt 0 + s.fld F.RPC_WDG_STATUS_TIMEOUT_MS * cycPerMs / 2 ≤ s.time.cycle →
      Gives .sysWdgHalf s (fun t => t.rbit Reg.RPC_IRQ 6 = true ∧ t.rpc.half = true ∧ SameMem s t ∧ RegsKept s t [Reg.RPC_IRQ])) ∧
    (s.rpc.half = true ∨ s.time.cycle < s.kickAt 0 + s.fld F.RPC_WDG_STATUS_TIMEOUT_MS * cycPerMs / 2 → exec .sysWdgHalf s = .next s)) ∧
  (∀ (s : State) (v : Word), (v = 0x5AA5#32 → Gives (.sysWdgKick v) s (fun t => t.kickAt 0 = s.time.cycle ∧ t.rpc.half = false ∧ SameMem s t ∧
    RegsKept s t [])) ∧ (v ≠ 0x5AA5#32 → exec (.sysWdgKick v) s = .next s)) ∧
  (∀ s : State, (s.fwl.ac0Timer = true → ∀ v, Tab.find s.fwl.viols 0 = some v →
      (v.at_ + 1000 * cycPerMs ≤ s.time.cycle → exec .ac0FreezeTimer s = .next (s.sysReset 4 false)) ∧
      (s.time.cycle < v.at_ + 1000 * cycPerMs → exec .ac0FreezeTimer s = .next s)) ∧
    (s.fwl.ac0Timer = false → exec .ac0FreezeTimer s = .next s)) ∧
  (∀ s : State, (s.rpc.timer = true → s.rpc.startAt + s.obTmo * 1000 * cycPerMs ≤ s.time.cycle → exec .startTimerExpire s =
      .next (((s.log 0x0118 0 s.obTmo).setRpc { s.rpc with startTmo := true }).sysReset 4 false)) ∧
    (s.rpc.timer = false ∨ s.time.cycle < s.rpc.startAt + s.obTmo * 1000 * cycPerMs → exec .startTimerExpire s = .next s)) ∧
  (∀ s : State, Gives .startOk s (fun t => t.fld F.RPC_START_UNCONF = 0 ∧ t.flag F.RPC_START_CONFIRMED = true ∧ t.rpc.timer = false ∧
    Logs s t 0x0117 0 (s.fld F.RPC_START_UNCONF) ∧ SameMem s t ∧ RegsKept s t [Reg.RPC_START, Reg.EVL_LOST])) ∧
  (∀ s : State, exec (.rpcFollyRequest 0 0xA5#8 true) s = .next ((s.setRpc { s.rpc with follyReq := true }).sysReset 6 false)) ∧
  (∀ (s : State) (src : Fin 160) (key : Byte) (go : Bool), src ≠ 0 ∨ key ≠ 0xA5#8 ∨ go = false → exec (.rpcFollyRequest src key go) s = .next s) ∧
  (∀ s : State, s.imlState = 0 → (s.slotIml s.inactive).valid = true → exec .imlActivate s =
    .next (((s.log 0x0322 0 s.inactive).setIml { s.iml with boot := s.inactive }).sysReset 7 false)) ∧
  (∀ s : State, s.imlState ≠ 0 ∨ (s.slotIml s.inactive).valid = false → Gives .imlActivate s (fun t => t.flag F.IML_STATUS_CMD_IGN = true ∧
    SameMem s t ∧ RegsKept s t [Reg.IML_STATUS])) ∧
  (∀ s : State, (s.rpc.pend = none → Gives .holdupLost s (fun t => t.rpc = { s.rpc with holdLost := true } ∧ SameMem s t ∧ RegsKept s t [])) ∧
    (∀ c, s.rpc.pend = some c → s.rpc.low ≠ 2 → exec .holdupLost s = .next (s.sysReset 0 true)) ∧
    (∀ c, s.rpc.pend = some c → s.rpc.low = 2 → exec .holdupLost s = .next ((s.sysReset 0 true).log 0x011E 0 2))) ∧
  (∀ s : State, (s.rpc.pend = none → exec .refclkTimeout s = .next s) ∧
    (∀ c, s.rpc.pend = some c → Gives .refclkTimeout s (fun t => t.rpc = { s.rpc with noRef := true } ∧ SameMem s t ∧ RegsKept s t []))) ∧
  (∀ (s : State) (sw21 : Bool) (ms code : Nat),
    (s.rpc.pend = none → exec (.resetRelease sw21 ms) s = .next s) ∧
    (s.rpc.pend = some code → s.rpc.low = 2 → exec (.resetRelease sw21 ms) s = .next s) ∧
    (s.rpc.pend = some code → s.rpc.low ≠ 2 → exec (.resetRelease sw21 ms) s = .next (s.bringUp sw21 ms code))) ∧
  (∀ (s : State) (code : Nat) (pav : Bool),
    (s.rpc.holdLost = false → code ≠ 0 → s.rpc.pend = none → (s.sysReset code pav).rpc.pend = some code) ∧
    (s.rpc.holdLost = false → code ≠ 0 → ∀ c, s.rpc.pend = some c → (s.sysReset code pav).rpc.pend = some (min c code)) ∧
    (s.rpc.holdLost = true ∨ code = 0 → (s.sysReset code pav).rpc.pend = some 0) ∧
    (s.sysReset code pav).rpc.low = 0 ∧ (s.sysReset code pav).rpc.released = false)

/-- DOMAIN_RESET_REQUEST, CORE_WDG_EXPIRE, CORE_WDG_KICK, CLOCK_GOOD_LOSS, CLOCK_GOOD_RETURN, PAVILION_START_DONE, PAVILION_SAFE_ENTRY,
SWITCH_CHECK, OUTPUT_ENABLE_GRANT, OB_COMMIT and OB_COMMIT_DONE complete as the clauses say; the clauses rest on R401 to R404 and R533 to R542. -/
def Obligations.DomainAndPavilionCommands : Prop :=
  (∀ (s : State) (src : Fin 160) (key d : Byte), src ≠ 0 ∨ key ≠ 0xA5#8 → exec (.domainResetRequest src key d) s = .next s) ∧
  (∀ (s : State) (d : Byte), (d.toNat = 2 → exec (.domainResetRequest 0 0xA5#8 d) s = .next (s.sysReset 5 false)) ∧
    (d.toNat ≠ 2 → s.domainFree d.toNat = false → Gives (.domainResetRequest 0 0xA5#8 d) s (fun t => Logs s t 0x011B 0 d.toNat ∧ SameMem s t ∧
      RegsKept s t [Reg.EVL_LOST])) ∧
    (d.toNat ≠ 2 → s.domainFree d.toNat = true → s.inUse (.domain d.toNat) = true →
      exec (.domainResetRequest 0 0xA5#8 d) s = .next (s.domainReset d.toNat 2)) ∧
    (d.toNat ≠ 2 → s.domainFree d.toNat = true → s.health (.domain d.toNat) = .retired →
      exec (.domainResetRequest 0 0xA5#8 d) s = .next ((((s.domainReset d.toNat 2).readmit (.domain d.toNat)).clkNote d.toNat).rpcIrq 5)) ∧
    (d.toNat ≠ 2 → s.domainFree d.toNat = true → s.health (.domain d.toNat) = .testing →
      exec (.domainResetRequest 0 0xA5#8 d) s = .next (((s.endTests [.domain d.toNat]).domainReset d.toNat 2).rpcIrq 5))) ∧
  (∀ (s : State) (c : Fin 8), (c ≠ 0 → s.flag (F.RPC_CWD_EN c) = true →
      s.kickAt c + s.fld (F.RPC_CWD_TIMEOUT_MS c) * cycPerMs ≤ s.time.cycle →
      exec (.coreWdgExpire c) s = .next ((((s.setFld (F.RPC_CWD_EXPIRED c) 1).kick c).domainReset (24 + c) 3).rpcIrq 4)) ∧
    (c = 0 ∨ s.flag (F.RPC_CWD_EN c) = false ∨ s.time.cycle < s.kickAt c + s.fld (F.RPC_CWD_TIMEOUT_MS c) * cycPerMs → exec (.coreWdgExpire c) s = .next s)) ∧
  (∀ (s : State) (d cause : Nat), s.domainReset d cause = (let u := (s.setFld (F.RPC_DOM_LAST d) cause).log 0x011A (0xC000 + d) cause
    if d = 4 then u.resetNet else if d = 5 then u.resetAna else if 8 ≤ d ∧ d < 17 then u.resetCrewDomain (d - 8) else u.resetCore (d - 24))) ∧
  (∀ (s : State) (c : Fin 8), (c ≠ 0 → Gives (.coreWdgKick c) s (fun t => t.kickAt c = s.time.cycle ∧ SameMem s t ∧
    RegsKept s t [])) ∧ (c = 0 → exec (.coreWdgKick c) s = .next s)) ∧
  (∀ (s : State) (d : Fin 32), s.flag (F.RPC_DOM_RELEASED d) = true → s.flag (F.RPC_DOM_HELD d) = false →
    (d = 2 ∨ d = 3 → exec (.clockGoodLoss d) s = .next (s.sysReset 9 false)) ∧
    (gated d = true → ∀ u, u = ((((s.setFld (F.RPC_DOM_HELD d) 1).setFld (F.RPC_DOM_CLK_GOOD d) 0).countFld (F.RPC_DOM_LOSSES d) 1).clkNote d).transient
      (.domain d) 1 → exec (.clockGoodLoss d) s =
        .next (((u.log 0x0119 (0xC000 + d) (u.healthRec (.domain d)).count).rpcIrq 5).heldWork d))) ∧
  (∀ (s : State) (d : Fin 32), 
    (s.flag (F.RPC_DOM_HELD d) = true → s.clkAt d + 10 * cycPerUs ≤ s.time.cycle → Gives (.clockGoodReturn d) s (fun t =>
      t.flag (F.RPC_DOM_CLK_GOOD d) = true ∧ t.flag (F.RPC_DOM_HELD d) = !s.inUse (.domain d) ∧ SameMem s t ∧ RegsKept s t [Reg.RPC_DOM d])) ∧
    (s.flag (F.RPC_DOM_HELD d) = false ∨ s.time.cycle < s.clkAt d + 10 * cycPerUs → exec (.clockGoodReturn d) s = .next s)) ∧
  (∀ (s t u : State) (sw : BitVec 24) (ok : Bool) (c : Option Nat), s.pavState = 0 → s.pavStartEnd sw.toNat ok = (t, c) →
    u = (t.extendMeas 6 (beBytes 48 (sha384 ((List.range parLen).map (fun i => Tab.get (fun _ => 0) t.pvm.par i))))).setFld F.VLT_STATUS_SW18
      (b2n (bit sw.toNat 17)) →
    (c = none → exec (.pavilionStartDone sw ok) s = .next u.parDiff.seritStart) ∧
    (∀ k, c = some k → exec (.pavilionStartDone sw ok) s = .next ((u.pavSafe k).sysReset 3 false))) ∧
  (∀ (s : State) (sw : Nat) (ok : Bool), (s.pavStartEnd sw ok).2 = none → (s.pavStartEnd sw ok).1.pavState = 1) ∧
  (∀ (s : State) (sw : Nat), (s.pavStartEnd sw false).2 = some 7) ∧
  (∀ (s : State) (cause : BitVec 4), (s.pavState ≠ 2 → exec (.pavilionSafeEntry cause) s = .next ((s.pavSafe cause.toNat).sysReset 3 false)) ∧
    (s.pavState = 2 → exec (.pavilionSafeEntry cause) s = .next s)) ∧
  (∀ (s : State) (sw : BitVec 24), (s.pavState = 1 → s.fld F.PVM_SWITCH_SW ≠ sw.toNat → exec (.switchCheck sw) s =
      .next (((s.log 0x0D12 0 (s.fld F.PVM_SWITCH_SW ^^^ sw.toNat)).pavSafe 4).sysReset 3 false)) ∧
    (s.pavState ≠ 1 ∨ s.fld F.PVM_SWITCH_SW = sw.toNat → exec (.switchCheck sw) s = .next s)) ∧
  (∀ s : State, s.pavState = 1 → s.rpc.released = true → s.rpc.folly = 0 → s.rpc.pend = none → s.rpc.brown = false → s.rpc.low ≠ 2 →
    s.oe = false → exec .outputEnableGrant s =
      .next (((((s.valvesClear.setFld F.PVM_STATUS_OE 1).heatersEnable).log 0x0D15 0 0).pvmIrq 0).autoResume)) ∧
  (∀ s : State, s.pavState ≠ 1 ∨ s.oe = true → exec .outputEnableGrant s = .next s) ∧
  (∀ s : State, s.flag F.RPC_OB_STATUS_BUSY = false → Gives .obCommit s (fun t => t.flag F.RPC_OB_STATUS_BUSY = true ∧
    t.rpc.obWrite.isSome = true ∧ SameMem s t ∧ RegsKept s t [Reg.RPC_OB_STATUS])) ∧
  (∀ (s : State) (k : Nat) (l : List Nat), s.rpc.obWrite = some (k, l) → (∀ b ∈ l, b < 256) → Gives (.obCommitDone true) s (fun t =>
    t.flag F.RPC_OB_STATUS_BUSY = false ∧ t.rpc.obWrite = none ∧ t.rdList (obAddr k) l.length = l ∧ SameMemOutside s t (obAddr k) l.length ∧
    RegsKept s t [Reg.RPC_OB_STATUS])) ∧
  (∀ (s : State) (k : Nat) (l : List Nat), s.rpc.obWrite = some (k, l) → Gives (.obCommitDone false) s (fun t =>
    t.flag F.RPC_OB_STATUS_BUSY = false ∧ t.rpc.obWrite = none ∧ t.flag F.RPC_OB_STATUS_OB_FAIL = true ∧ SameMemOutside s t (obAddr k) 32 ∧
    RegsKept s t [Reg.RPC_OB_STATUS]))

/-- VIN_DIP_SET, VIN_DIP_CLEAR, BROWN_OUT, VFLD_WARNING, VFLD_LOST, EASY_ENTER, EASY_EXIT, PARK_ENTER, PARK_WAKE and the five recovery
requests complete as the clauses say; the clauses rest on R547 to R552. -/
def Obligations.SupplyAndRecoveryCommands : Prop :=
  (∀ (s : State) (mv : BitVec 16), s.flag F.RPC_SUP_STATUS_DIP = false → mv.toNat < 19000 → Gives (.vinDipSet mv) s (fun t =>
    t.flag F.RPC_SUP_STATUS_DIP = true ∧ t.flag F.RPC_SUP_STATUS_DIP_SET = true ∧ t.fld F.RPC_SUPPLY_VIN_MV = mv.toNat ∧
    t.num Reg.RPC_DIP_COUNT = satAdd 0xFFFFFFFF (s.num Reg.RPC_DIP_COUNT) 1 ∧ t.rbit Reg.RPC_IRQ 1 = true ∧ t.rpc.dipAt = s.time.cycle ∧
    t.rpc.dipCut = s.seq.cuts.any (fun c => c.dip) ∧ t.rpc.dipWait = !t.rpc.dipCut ∧ Logs s t 0x0111 0 mv.toNat ∧
    RegsKept s t [Reg.RPC_SUPPLY, Reg.RPC_SUP_STATUS, Reg.RPC_DIP_COUNT, Reg.RPC_IRQ, Reg.EVL_LOST])) ∧
  (∀ (s : State) (mv : BitVec 16), s.flag F.RPC_SUP_STATUS_DIP = true ∨ 19000 ≤ mv.toNat → Gives (.vinDipSet mv) s (fun t =>
    t.fld F.RPC_SUPPLY_VIN_MV = mv.toNat ∧ SameMem s t ∧ RegsKept s t [Reg.RPC_SUPPLY])) ∧
  (∀ (s : State) (mv : BitVec 16), s.flag F.RPC_SUP_STATUS_DIP = true → s.rpc.brown = false → 19500 ≤ mv.toNat →
    s.rpc.dipAt + cycPerMs ≤ s.time.cycle → s.seq.dip = none → Gives (.vinDipClear mv) s (fun t => t.flag F.RPC_SUP_STATUS_DIP = false ∧ t.flag F.RPC_SUP_STATUS_DIP_END = true ∧
      t.fld F.RPC_SUPPLY_VIN_MV = mv.toNat ∧ t.rbit Reg.RPC_IRQ 2 = true ∧ t.rpc.dipCut = false ∧
      Logs s t 0x0112 0 ((s.time.cycle - s.rpc.dipAt) / 600) ∧
      RegsKept s t [Reg.RPC_SUPPLY, Reg.RPC_SUP_STATUS, Reg.RPC_IRQ, Reg.EVL_LOST])) ∧
  (∀ (s : State) (mv : BitVec 16), s.flag F.RPC_SUP_STATUS_DIP = false ∨ s.rpc.brown = true ∨ mv.toNat < 19500 ∨
      s.time.cycle < s.rpc.dipAt + cycPerMs →
    Gives (.vinDipClear mv) s (fun t => t.fld F.RPC_SUPPLY_VIN_MV = mv.toNat ∧ SameMem s t ∧ RegsKept s t [Reg.RPC_SUPPLY])) ∧
  (∀ s : State, (s.rpc.brown = false → s.rpc.pend = none → ∀ u, u = (if s.rpc.dipCut then s else s.writeShadow.haltCut).ioReset →
      exec .brownOut s = .next (u.setRpc { u.rpc with brown := true, brownAt := u.time.cycle, dipCut := true, dipWait := false })) ∧
    (s.rpc.brown = true ∨ s.rpc.pend.isSome = true → exec .brownOut s = .next s)) ∧
  (∀ (s : State) (low : Bool) (mv : BitVec 16), s.flag F.RPC_SUP_STATUS_VFLD_LOW ≠ low →
    (low = true → mv.toNat < fieldAt s.rpc.ob 12 2) → (low = false → fieldAt s.rpc.ob 12 2 + 500 ≤ mv.toNat) → Gives (.vfldWarning low mv) s (fun t =>
    t.flag F.RPC_SUP_STATUS_VFLD_LOW = low ∧ t.flag F.RPC_SUP_STATUS_VFLD_CHG = true ∧ t.fld F.RPC_SUPPLY_VFLD_MV = mv.toNat ∧
    t.rbit Reg.RPC_IRQ 3 = true ∧ Logs s t (if low then 0x0113 else 0x0114) 0 mv.toNat ∧ SameMem s t ∧
    RegsKept s t [Reg.RPC_SUPPLY, Reg.RPC_SUP_STATUS, Reg.RPC_IRQ, Reg.EVL_LOST])) ∧
  (∀ (s : State) (low : Bool) (mv : BitVec 16), (s.flag F.RPC_SUP_STATUS_VFLD_LOW = low ∨ (low = true ∧ fieldAt s.rpc.ob 12 2 ≤ mv.toNat) ∨
      (low = false ∧ mv.toNat < fieldAt s.rpc.ob 12 2 + 500) →
      exec (.vfldWarning low mv) s = .next (s.setFld F.RPC_SUPPLY_VFLD_MV mv.toNat)) ∧
    (s.flag F.RPC_SUP_STATUS_VFLD_LOST = low ∨ (low = true ∧ 10000 ≤ mv.toNat) ∨ (low = false ∧ mv.toNat < 12000) →
      exec (.vfldLost low mv) s = .next (s.setFld F.RPC_SUPPLY_VFLD_MV mv.toNat))) ∧
  (∀ (s u : State) (lost : Bool) (mv : BitVec 16), s.flag F.RPC_SUP_STATUS_VFLD_LOST ≠ lost →
    (lost = true → mv.toNat < 10000) → (lost = false → 12000 ≤ mv.toNat) → u = ((((s.setFld F.RPC_SUPPLY_VFLD_MV mv.toNat).setFld F.RPC_SUP_STATUS_VFLD_LOST (b2n lost)).setFld F.RPC_SUP_STATUS_VFLD_CHG 1).rpcIrq
      3).log (if lost then 0x0113 else 0x0114) 0 (mv.toNat + (if lost then 2 ^ 31 else 0)) →
    exec (.vfldLost lost mv) s = .next ((List.range 4).foldl (fun s g => if lost then s.coilAbsent g else s.coilBack g) u)) ∧
  (∀ s : State, s.rpc.low = 0 → s.rpc.pend = none →
    (s.lowPowerBar = 0 → Gives .easyEnter s (fun t => t.rpc.low = 1 ∧ Logs s t 0x011D 0 1 ∧ SameMem s t ∧ RegsKept s t [Reg.EVL_LOST])) ∧
    (s.lowPowerBar ≠ 0 → Gives .easyEnter s (fun t => t.rpc.low = 0 ∧ Logs s t 0x0120 0 s.lowPowerBar ∧ SameMem s t ∧
      RegsKept s t [Reg.EVL_LOST]))) ∧
  (∀ s : State, (s.rpc.low = 1 → (∃ i < 448, s.irqEnabled 0 i = true ∧ s.irqLevel i = true) → Gives .easyExit s (fun t => t.rpc.low = 0 ∧ t.rbit Reg.RPC_IRQ 7 = true ∧ Logs s t 0x011E 0 1 ∧ SameMem s t ∧
    RegsKept s t [Reg.RPC_IRQ, Reg.EVL_LOST])) ∧ (s.rpc.low ≠ 1 ∨ (∀ i < 448, s.irqEnabled 0 i = false ∨ s.irqLevel i = false) → exec .easyExit s = .next s)) ∧
  (∀ s : State, s.rpc.low = 0 → s.rpc.pend = none → s.lowPowerBar = 0 → exec .parkEnter s =
    .next ((((s.log 0x011D 0 2).sysReset 8 false)).setRpc
      { ((s.log 0x011D 0 2).sysReset 8 false).rpc with low := 2, wake := s.num Reg.RPC_PARK_WAKE })) ∧
  (∀ s : State, s.rpc.low = 0 → s.rpc.pend = none → s.lowPowerBar ≠ 0 → exec .parkEnter s = .next (s.log 0x0120 0 s.lowPowerBar)) ∧
  (∀ s : State, (s.rpc.low ≠ 0 ∨ s.rpc.pend.isSome = true → exec .easyEnter s = .next s ∧ exec .parkEnter s = .next s) ∧
    (s.rpc.low ≠ 2 ∨ s.rpc.wake = 0 → exec .parkWake s = .next s)) ∧
  (∀ s : State, s.rpc.low = 2 → s.rpc.wake ≠ 0 → s.rpc.wake < 2 ^ 32 → Gives .parkWake s (fun t => t.rpc.low = 0 ∧
    t.num Reg.RPC_ELAPSED_LO = s.rpc.wake ∧ Logs s t 0x011E 0 2 ∧ SameMem s t ∧
    RegsKept s t [Reg.RPC_ELAPSED_LO, Reg.RPC_ELAPSED_HI, Reg.EVL_LOST])) ∧
  (∀ (s : State) (frame : List Byte) (c : ImgContent), s.rpc.folly = 0 → exec (.recoveryIdent frame) s = .next s ∧
    exec (.recoveryStore frame c) s = .next s ∧ exec (.recoveryObWrite frame) s = .next s ∧ exec (.recoveryLog frame) s = .next s ∧
    exec (.recoveryExit frame) s = .next s) ∧
  (∀ (s : State) (frame : List Byte) (seq : Nat) (p : List Nat), s.rpc.folly ≠ 0 → s.rpc.pend = none →
    (recoveryIn 1 (frame.map BitVec.toNat) = some (seq, p) → exec (.recoveryIdent frame) s = .next (s.recoveryOut 1 seq 0
      (leBytes 8 (Config.keyId % 2 ^ 64) ++ leBytes 4 (s.num Reg.RPC_CAUSE) ++ leBytes 4 s.rpc.folly ++ leBytes 4 (s.fld F.VLT_STATUS_SLOTS)))) ∧
    (recoveryIn 4 (frame.map BitVec.toNat) = some (seq, p) → exec (.recoveryLog frame) s = .next (s.recoveryOut 4 seq 0
      ((List.range 256).flatMap (fun k => s.rdList (bhAddr (s.fld F.EVL_BH_IDX_BH_IDX + k)) 16)))) ∧
    (recoveryIn 5 (frame.map BitVec.toNat) = some (seq, p) → exec (.recoveryExit frame) s =
      .next (((s.recoveryOut 5 seq 0 []).setFld F.RPC_START_UNCONF 0).sysReset 5 false)) ∧
    (recoveryIn 3 (frame.map BitVec.toNat) = some (seq, p) →
      (s.sw18 = false → exec (.recoveryObWrite frame) s = .next (s.recoveryOut 3 seq (8 + 2 ^ 8) [])) ∧
      (s.sw18 = true → p.length = 28 → s.flag F.RPC_OB_STATUS_BUSY = false →
        exec (.recoveryObWrite frame) s = .next ((s.obBegin p).recoveryOut 3 seq 0 [])) ∧
      (s.sw18 = true → p.length ≠ 28 → exec (.recoveryObWrite frame) s = .next (s.recoveryOut 3 seq (2 + 2 ^ 8) [])) ∧
      (s.sw18 = true → p.length = 28 → s.flag F.RPC_OB_STATUS_BUSY = true →
        exec (.recoveryObWrite frame) s = .next (s.recoveryOut 3 seq (1 + 2 ^ 8) [])))) ∧
  (∀ (s : State) (frame : List Byte) (c : ImgContent) (seq : Nat) (l : List Nat), s.rpc.folly ≠ 0 → s.rpc.pend = none →
    recoveryIn 2 (frame.map BitVec.toNat) = some (seq, l) → fieldAt l 0 4 = 0x574E4D41 →
    (s.fwCheck l ≠ 0 → exec (.recoveryStore frame c) s = .next ((s.fwRefused (s.fwCheck l) (fwKind l)
      (1 - s.fwActive (fwKind l))).recoveryOut 2 seq (s.fwCheck l + 2 ^ 8) [])) ∧
    (∀ code t, s.fwCheck l = 0 → s.fwStore l = (code, t) →
      exec (.recoveryStore frame c) s = .next (t.recoveryOut 2 seq (if code = 0 then 0 else code + 2 ^ 8) []))) ∧
  (∀ (s : State) (frame : List Byte) (c : ImgContent) (seq code : Nat) (l : List Nat) (t : State), s.rpc.folly ≠ 0 →
    s.rpc.pend = none → recoveryIn 2 (frame.map BitVec.toNat) = some (seq, l) → fieldAt l 0 4 = 0x494E4D41 → (imgHdrOf l).isPart = false →
    s.recoveryImage l c = (code, t) →
    exec (.recoveryStore frame c) s = .next (t.recoveryOut 2 seq (if code = 0 then 0 else code + 2 * 2 ^ 8) [])) ∧
  (∀ (s : State) (frame : List Byte) (c : ImgContent) (seq : Nat) (l : List Nat), s.rpc.folly ≠ 0 → s.rpc.pend = none →
    recoveryIn 2 (frame.map BitVec.toNat) = some (seq, l) → fieldAt l 0 4 ≠ 0x574E4D41 → fieldAt l 0 4 ≠ 0x494E4D41 ∨ (imgHdrOf l).isPart = true →
    exec (.recoveryStore frame c) s = .next (s.recoveryOut 2 seq (2 + 2 ^ 8) []))

/-- COX_TOKEN_ARRIVAL, COX_DISPATCH, COX_RELEASE, DP_POP, DP_DONE, COX_WINDOW_END, COX_CLR_TOTALS, COX_CLR_CTX_COUNTS and COX_CLR_DEPTH_MAX
complete as the clauses say; the clauses rest on R99 to R117. -/
def Obligations.CoxCommands : Prop :=
  (∀ (s : State) (m : Fin 8) (x : Fin 512) (k : Fin 4) (link n : Nat) (t : Token), s.physOf m = some n →
    (s.crewDeaf n = false → exec (.coxTokenArrival m x k link t) s = .next (s.coxToken n x k link t)) ∧
    (s.crewDeaf n = true → exec (.coxTokenArrival m x k link t) s = .next (s.dropToken m t))) ∧
  (∀ (s : State) (n x k link : Nat) (t : Token), s.ctxValid n x = true → k < s.ctxNops n x → s.slotKind n x k = 1 →
    (s.ctxOf n x).held.length = 4 → k < 4 →
    ((s.coxToken n x k link t).ctxOf n x).held.getD k none = some (⟨t, link⟩, (s.coxOf n).lastCatch.map strokeOf) ∧
    RegsKept s (s.coxToken n x k link t) [] ∧ SameMem s (s.coxToken n x k link t)) ∧
  (∀ (s : State) (n x k link w : Nat) (t : Token), n < 9 → s.ctxValid n x = true → k < s.ctxNops n x → s.slotKind n x k ≠ 1 →
    s.findEntry n x (fun e => e.state == .opened && e.cseq == t.cseq.toNat) = some w → ((s.entryOf n x w).ops.getD k none).isSome = true →
    (s.coxToken n x k link t).num (Reg.COX_TOT_LATE n) = satAdd 0xFFFFFFFF (s.num (Reg.COX_TOT_LATE n)) 1 ∧
    (s.coxToken n x k link t).flag (F.COX_STATUS_LATE n) = true ∧
    Logs s (s.coxToken n x k link t) 0x0412 (0x1000 + n) (x + k * 2 ^ 12) ∧ SameMem s (s.coxToken n x k link t) ∧
    RegsKept s (s.coxToken n x k link t) [Reg.COX_TOT_LATE n, Reg.COX_STATUS n, Reg.EVL_LOST]) ∧
  (∀ (s : State) (n : Fin 9) (can : BitVec 3), s.crewDeaf n = false → s.engineFrozen n 0 = false →
    exec (.coxDispatch n can) s = .next (s.dispatch n can.toNat)) ∧
  (∀ (s : State) (n t can x w : Nat), s.pick n t can = some (x, w) → (x, w) ∈ (s.coxOf n).lists.flatten ∧ s.ctxTarget n x = t ∧
    s.issuedOther n x w = false ∧ s.accepts n x t can = true) ∧
  (∀ (s : State) (n : Fin 9) (x : Fin 512) (w : Nat) (acq : List (Word × BitVec 4)), s.issuedEntry n x = some w → s.crewDeaf n = false →
    s.engineFrozen n 0 = false →
    (s.ctxTarget n x = 2 → s.engineFrozen n 3 = false → exec (.coxRelease n x acq) s =
      .next ((s.setEntry n x w { s.entryOf n x w with results := s.resultTokens n x (s.entryOf n x w).cseq acq }).release n x w)) ∧
    (s.ctxTarget n x ≤ 1 → s.engineFrozen n (s.ctxTarget n x + 1) = false → (s.entryOf n x w).done = true →
      (s.entryOf n x w).confirmed = true → exec (.coxRelease n x acq) s = .next (s.release n x w)) ∧
    (∀ ch, s.ctxTarget n x = 3 → s.taskChan n x = some ch → s.cdmState n ch ≠ 1 →
      exec (.coxRelease n x acq) s = .next (s.release n x w))) ∧
  (∀ (s : State) (n x w : Nat), n < 9 → w < 2 → (s.release n x w).entryOf n x w = MEntry.init ∧
    (s.release n x w).wire = s.wire ++ (s.entryOf n x w).results.map (Emit.tok (s.coxLink n)) ∧
    SameMem s (s.release n x w) ∧ RegsKept s (s.release n x w) [Reg.COX_STATUS n]) ∧
  (∀ (s : State) (n : Fin 9) (c : Fin 8), s.crewDeaf n = false → (s.dpOf n c).view = none →
    ((s.dpOf n c).fifo = [] → exec (.dpPop n c) s = .next (s.busOk 0)) ∧
    (∀ d l, (s.dpOf n c).fifo = d :: l → l.length < 32 → Gives (.dpPop n c) s (fun t => t.dpOf n c = ⟨l, some d⟩ ∧
      t.bus = ⟨false, 2 ^ 31 + d.ops.length * 2 ^ 9 + d.ctx⟩ ∧ t.num (Reg.COX_DP_VIEW n c 0) = d.cseq % 2 ^ 32 ∧
      t.fld (F.COX_DP_STATUS_COUNT n c) = l.length ∧ SameMem s t))) ∧
  (∀ (s : State) (n : Fin 9) (c : Fin 8) (nres : BitVec 3), s.crewDeaf n = false →
    ((s.dpOf n c).view = none → exec (.dpDone n c nres) s = .next s) ∧
    (∀ d w u, (s.dpOf n c).view = some d → u = s.setDp n c { s.dpOf n c with view := none } → u.issuedEntry n d.ctx = some w →
      nres.toNat = d.nres → exec (.dpDone n c nres) s = .next ((u.setEntry n d.ctx w { u.entryOf n d.ctx w with
        results := u.resultTokens n d.ctx d.cseq ((List.range nres.toNat).map (fun i =>
          (u.rd (Reg.COX_DP_RES n c i), BitVec.ofNat 4 (u.fld (F.COX_DP_RST_ST n c i))))) }).release n d.ctx w))) ∧
  (∀ (s : State) (n : Fin 9), (s.windowDue n = true ↔ (s.coxOf n).winSeen = true ∧ (s.coxOf n).winLen ≤ (s.coxOf n).winStroke) ∧
    (s.crewDeaf n = false → s.windowDue n = true → Gives (.coxWindowEnd n) s (fun t => t = s.windowEnd n ∧
      t.flag (F.COX_STATUS_WIN_DONE n) = true ∧ (t.coxOf n).winStroke = 0 ∧ (t.coxOf n).winStart = s.time.cycle)) ∧
    (s.crewDeaf n = true ∨ s.windowDue n = false → exec (.coxWindowEnd n) s = .next s)) ∧
  (∀ (s : State) (n p : Nat), n < 9 → p < 8 → s.waitBound n p < 255 → s.waitBound n p * 300 < (s.coxOf n).prioMax.getD p 0 * 5 →
    (s.windowPrio n p).flag (F.COX_STATUS_WAIT_EXC n) = true ∧
    (s.windowPrio n p).num (Reg.COX_WAITMAX n p) = (s.coxOf n).prioMax.getD p 0 % 2 ^ 32 ∧
    Logs s (s.windowPrio n p) 0x0414 (0x1000 + n) (p + min ((s.coxOf n).prioMax.getD p 0 * 5 / 300) 0xFFFF * 2 ^ 16) ∧
    RegsKept s (s.windowPrio n p) [Reg.COX_WAITMAX n p, Reg.COX_TOT_WAITX n, Reg.COX_STATUS n, Reg.EVL_LOST]) ∧
  (∀ (s : State) (n : Fin 9), s.crewDeaf n = false → Gives (.coxClrTotals n) s (fun t => t.num (Reg.COX_TOT_DISP n) = 0 ∧
    t.num (Reg.COX_TOT_STALE n) = 0 ∧ t.num (Reg.COX_TOT_DROP n) = 0 ∧ t.num (Reg.COX_TOT_LATE n) = 0 ∧ t.num (Reg.COX_TOT_RETRY n) = 0 ∧
    t.num (Reg.COX_TOT_WAITX n) = 0 ∧ SameMem s t ∧ RegsKept s t [Reg.COX_TOT_DISP n, Reg.COX_TOT_STALE n, Reg.COX_TOT_DROP n,
      Reg.COX_TOT_LATE n, Reg.COX_TOT_RETRY n, Reg.COX_TOT_WAITX n])) ∧
  (∀ (s : State) (n : Fin 9), s.crewDeaf n = false → Gives (.coxClrCtxCounts n) s (fun t => (∀ x < 512,
    t.fld (F.COX_CTX_MISC_STALE n x) = 0 ∧ t.fld (F.COX_CTX_MISC_DROP n x) = 0) ∧ SameMem s t)) ∧
  (∀ (s : State) (n : Fin 9), s.crewDeaf n = false → Gives (.coxClrDepthMax n) s (fun t => (∀ p < 8, t.fld (F.COX_DEPTH_MAX n p) = 0 ∧
    t.fld (F.COX_DEPTH_CUR n p) = s.fld (F.COX_DEPTH_CUR n p)) ∧ SameMem s t))

/-- LOOP_UPDATE, LOOP_MODE_REQUEST, LOOP_FB_CLR, SATFB_CHANGE, PARAM_COMMIT, PARAM_CLEAR, REP_ACTION and REP_TABLE_CLEAR_DONE complete as the clauses say; the clauses rest
on R161, R166, R170, R172, R174, R188 and R189. -/
def Obligations.LoopCommands : Prop :=
  (∀ (s : State) (n : Fin 9) (x : Fin 512) (w l : Nat) (bad : List Nat), s.issuedEntry n x = some w → s.ctxTarget n x = 0 →
    (s.entryOf n x w).done = false → s.inUse (.crew n) = true → s.engineFrozen n 1 = false → s.loopOfTask n x = some l →
    Gives (.loopUpdate n x bad) s (fun t => t = s.loopUpdate n x w l bad ∧ (t.entryOf n x w).done = true ∧
      (t.entryOf n x w).confirmed = false ∧ (t.entryOf n x w).cseq = (s.entryOf n x w).cseq)) ∧
  (∀ (s : State) (n : Fin 9) (l : Fin 128) (v : BitVec 3), s.crewDeaf n = false → s.lcfg n l 31 1 ≠ 0 →
    (v.toNat < 3 ∨ (v.toNat = 3 ∧ s.lcfg n l 16 1 ≠ 0) → Gives (.loopModeRequest n l v) s (fun t => t.fld (F.LPE_MODE_REQ n l) = v.toNat ∧
      (t.loopDyn n l).req = true ∧
      t.fld (F.LPE_PC_RES_LOOP n) = l ∧ t.fld (F.LPE_PC_RES_REFUSE n) = 0 ∧ SameMem s t ∧
      RegsKept s t [Reg.LPE_MODE n l, Reg.LPE_PC_RES n])) ∧
    (4 ≤ v.toNat ∨ (v.toNat = 3 ∧ s.lcfg n l 16 1 = 0) → Gives (.loopModeRequest n l v) s (fun t =>
      t.fld (F.LPE_PC_RES_REFUSE n) = 5 ∧ t.flag (F.LPE_STATUS_REFUSED n) = true ∧ Logs s t 0x0615 (0x1000 + n) (l + v.toNat * 256) ∧
      SameMem s t ∧ RegsKept s t [Reg.LPE_PC_RES n, Reg.LPE_STATUS n, Reg.EVL_LOST]))) ∧
  (∀ (s : State) (n : Fin 9) (l : Fin 128), s.crewDeaf n = false →
    (bit (s.lw n l 0x90).toNat 5 = true → Gives (.loopFbClr n l) s (fun t => t.flag (F.LPE_MODE_FB_PEND n l) = true ∧ SameMem s t ∧
      RegsKept s t [Reg.LPE_MODE n l])) ∧
    (bit (s.lw n l 0x90).toNat 5 = false → exec (.loopFbClr n l) s = .next s)) ∧
  (∀ (s : State) (m : Fin 8) (l : Fin 128) (hi lo : Bool) (n : Nat), s.physOf m = some n → Gives (.satfbChange m l hi lo) s (fun t =>
    bit (t.lw n l 0x90).toNat 3 = hi ∧ bit (t.lw n l 0x90).toNat 4 = lo ∧
    (∀ j < 32, j ≠ 3 → j ≠ 4 → bit (t.lw n l 0x90).toNat j = bit (s.lw n l 0x90).toNat j) ∧
    SameMemOutside s t (crewMem n + loopOff l 0x90) 4 ∧ RegsKept s t [])) ∧
  (∀ (s : State) (m : Fin 8) (l : Fin 128) (hi lo : Bool), s.physOf m = none → exec (.satfbChange m l hi lo) s = .next s) ∧
  (∀ (s : State) (n : Fin 9), s.crewDeaf n = false → exec (.paramCommit n false) s = .next (s.paramCommit n) ∧
    exec (.paramCommit n true) s = .next ((s.paramCommit n).paramClear n)) ∧
  (∀ (s : State) (n l : Nat), n < 9 → l = s.fld (F.LPE_PC_LOOP_LOOP n) → s.lcfg n l 31 1 = 0 →
    (s.paramCommit n).fld (F.LPE_PC_RES_REFUSE n) = 3 ∧ (s.paramCommit n).flag (F.LPE_STATUS_REFUSED n) = true ∧
    (s.paramCommit n).lpe = s.lpe ∧ Logs s (s.paramCommit n) 0x0610 (0x1000 + n) (l + 3 * 2 ^ 8)) ∧
  (∀ (s : State) (n l k : Nat), n < 9 → l = s.fld (F.LPE_PC_LOOP_LOOP n) → s.lcfg n l 31 1 ≠ 0 → k < 13 →
    s.outOfBounds n l (s.stagedVals n) = some k →
    (s.paramCommit n).fld (F.LPE_PC_RES_REFUSE n) = 1 ∧ (s.paramCommit n).fld (F.LPE_PC_RES_WORD n) = k ∧
    (s.paramCommit n).lpe = s.lpe ∧ Logs s (s.paramCommit n) 0x0610 (0x1000 + n) (l + 2 ^ 8 + k * 2 ^ 16)) ∧
  (∀ (s : State) (n : Fin 9), s.crewDeaf n = false → Gives (.paramClear n) s (fun t => t.num (Reg.LPE_PC_MASK n) = 0 ∧
    (∀ k < 13, t.num (Reg.LPE_PC_VAL n k) = 0) ∧ SameMem s t ∧ t.lpe = s.lpe)) ∧
  (∀ (s : State) (n : Fin 9) (l : Fin 128) (a : BitVec 2), s.crewDeaf n = false →
    (s.lcfg n l 11 1 ≠ 0 → Gives (.repAction n l a) s (fun t => (t.loopDyn n l).rep = some a.toNat ∧ SameMem s t ∧ RegsKept s t [])) ∧
    (s.lcfg n l 11 1 = 0 → exec (.repAction n l a) s = .next s)) ∧
  (∀ (s : State) (n : Fin 9) (l : Fin 128), repPend (s.loopCtx n l) = true → Gives (.repTableClearDone n l) s (fun t =>
    bitsOf (t.lw n l 0xB4) 30 1 = 0 ∧ RegsKept s t [Reg.EVL_LOST])) ∧
  (∀ (s : State) (n l j : Nat), j < repP (s.loopCtx n l) → (s.clearTable n l).rdWord (crewMem n + sampleOff (s.loopCtx n l) j) = 0)

/-- CONV_ENTRY_START, CONV_SETTLE_END, CONV_END, CONV_TIMEOUT, REF_MONITOR_FAULT, ACQ_TOKEN, PAIR_CHECK and TDAC_DIAG_REQUEST complete as the clauses say; the clauses rest
on R132 to R150. -/
def Obligations.AcquisitionCommands : Prop :=
  (∀ (s : State) (k : Fin 20) (e : Fin 1024) (q : Word) (d : ConvDue) (m : Nat), s.streamDest k = some m →
    (s.convOf k).due.find? (fun d => d.entry == e.val && d.cseq == q.toNat) = some d → (s.convEntry k e).kind = 0 →
    (reached (s.tabCourse m) d.start = false → exec (.convEntryStart k e q) s = .next s) ∧
    (reached (s.tabCourse m) d.start = true → (s.convOf k).phase = .idle → (s.convEntry k e).ch < 8 → Gives (.convEntryStart k e q) s (fun t =>
      (t.convOf k).phase = .settling ∧ (t.convOf k).entry = e ∧ (t.convOf k).cseq = q.toNat ∧ (t.convOf k).reach = s.time.cycle ∧
      (t.convOf k).due = (s.convOf k).due.erase d ∧ t.flag (F.AFE_ADC_STATUS_BUSY k) = true ∧ SameMem s t ∧
      RegsKept s t [Reg.AFE_ADC_CHSEL k, Reg.AFE_ADC_STATUS k])) ∧
    (reached (s.tabCourse m) d.start = true → (s.convOf k).phase ≠ .idle → (s.convOf k).reach ≠ s.time.cycle ∨ (s.convOf k).entry ≤ e.val →
      ∀ c, c = { s.convOf k with due := (s.convOf k).due.erase d, waiting := waitInsert ⟨e, q.toNat, s.time.cycle⟩ ((s.convOf k).waiting.filter (fun w => w.entry != e.val)) } →
      ((s.convOf k).waiting.any (fun w => w.entry == e.val) = false → Gives (.convEntryStart k e q) s (fun t => t.convOf k = c ∧ SameMem s t ∧
        RegsKept s t [])) ∧
      ((s.convOf k).waiting.any (fun w => w.entry == e.val) = true → Gives (.convEntryStart k e q) s (fun t => t.convOf k = c ∧
        t.num (Reg.AFE_ADC_LATE k) = satAdd 0xFFFFFFFF (s.num (Reg.AFE_ADC_LATE k)) 1 ∧ SameMem s t ∧
        RegsKept s t [Reg.AFE_ADC_LATE k, Reg.EVL_LOST])))) ∧
  (∀ (s : State) (k : Fin 20), ((s.convOf k).phase = .settling → Gives (.convSettleEnd k) s (fun t =>
      t.convOf k = { s.convOf k with phase := .converting } ∧ SameMem s t ∧ RegsKept s t [])) ∧
    ((s.convOf k).phase ≠ .settling → exec (.convSettleEnd k) s = .next s)) ∧
  (∀ (s : State) (k : Fin 20) (codes : List Int), (s.convOf k).phase = .converting →
    exec (.convEnd k codes) s = .next (s.convFinish k codes false) ∧
    exec (.convTimeout k) s = .next ((s.convTransient k 1).convFinish k [] true)) ∧
  (∀ (s : State) (k : Nat) (codes : List Int) (bad : Bool), k < 20 → (s.convEntry k (s.convOf k).entry).kind = 1 → (s.convOf k).waiting = [] →
    ((s.convFinish k codes bad).convOf k).phase = .idle ∧ (s.convFinish k codes bad).flag (F.AFE_ADC_STATUS_BUSY k) = false ∧
    (s.convFinish k codes bad).flag (F.AFE_ADC_CHSEL_ACTIVE k) = false) ∧
  (∀ (s : State) (k : Fin 20), Gives (.refMonitorFault k) s (fun t => t = (s.convTransient k 2).setConv k
      { (s.convTransient k 2).convOf k with refBad := ((s.convTransient k 2).convOf k).phase != .idle })) ∧
  (∀ (s : State) (n : Fin 9) (k : Fin 20) (tok : Token), (s.flying n k tok = none → exec (.acqToken n k tok) s = .next s) ∧
    (∀ f, s.flying n k tok = some f → tok.ok = true → Gives (.acqToken n k tok) s (fun t =>
      t.num (Reg.ACQ_TOK n) = (s.num (Reg.ACQ_TOK n) + 1) % 2 ^ 32 ∧ (t.convOf k).fly = (s.convOf k).fly.erase f ∧
      t.wire = s.wire ++ [.tok (0x200 + n) tok] ∧ SameMem s t ∧ RegsKept s t [Reg.ACQ_TOK n])) ∧
    (∀ f u, s.flying n k tok = some f → tok.ok = false →
      u = ((s.setConv k { s.convOf k with fly := (s.convOf k).fly.erase f }).mismatch (0x100 + k) tok).count (Reg.ACQ_TAGERR n) 1 →
      exec (.acqToken n k tok) s = .next ((u.setNum (Reg.ACQ_TOK n) (u.num (Reg.ACQ_TOK n) + 1)).emit (.tok (0x200 + n) tok)))) ∧
  (∀ (s : State) (p : Fin 8) (a b : CheckSmp) (d mean : Word), (s.pairOf p).smpA = some a → (s.pairOf p).smpB = some b →
    (a.cseq ≠ b.cseq → seqBefore a.cseq b.cseq = true → exec (.pairCheck p) s = .next (s.setPair p { s.pairOf p with smpA := none })) ∧
    (a.cseq ≠ b.cseq → seqBefore a.cseq b.cseq = false → exec (.pairCheck p) s = .next (s.setPair p { s.pairOf p with smpB := none })) ∧
    (a.cseq = b.cseq → a.st ≠ 1 → b.st ≠ 1 → s.pairState p = 0 → d = F32.sub a.x b.x → mean = F32.mul (F32.add a.value b.value) 0x3F000000 →
      (s.inTol p d = true → s.recSelects (0x80 + p) = false → Gives (.pairCheck p) s (fun t => t.rd (Reg.AFE_PAIR_DIFF p) = d ∧
        t.fld (F.AFE_PAIR_STATUS_MISMATCH p) = 0 ∧
        t.wire = s.wire ++ [.tok (0x100 + 2 * p) (mkToken mean (BitVec.ofNat 12 (0x80 + p)) 0 a.cseq)] ∧
        (t.pairOf p).smpA = none ∧ (t.pairOf p).smpB = none ∧ SameMem s t ∧
        RegsKept s t [Reg.AFE_PAIR_DIFF p, Reg.AFE_PAIR_STATUS p])) ∧
      (s.inTol p d = false → s.fld (F.AFE_PAIR_STATUS_MISMATCH p) + 1 < s.fld (F.AFE_PAIR_CFG_PERSIST p) → Gives (.pairCheck p) s (fun t =>
        t.rd (Reg.AFE_PAIR_DIFF p) = d ∧ t.fld (F.AFE_PAIR_STATUS_MISMATCH p) = s.fld (F.AFE_PAIR_STATUS_MISMATCH p) + 1 ∧
        Logs s t 0x0511 (0x3000 + 2 * p) (microvolts d) ∧ SameMem s t ∧
        RegsKept s t [Reg.AFE_PAIR_DIFF p, Reg.AFE_PAIR_STATUS p, Reg.EVL_LOST])) ∧
      (s.inTol p d = false → s.fld (F.AFE_PAIR_CFG_PERSIST p) ≤ s.fld (F.AFE_PAIR_STATUS_MISMATCH p) + 1 →
        Gives (.pairCheck p) s (fun t => t.pairState p = 1 ∧ (t.pairOf p).arb = [] ∧ (t.pairOf p).driving = some 0 ∧
          Logs s t 0x0512 (0x3000 + 2 * p) (s.fld (F.AFE_PAIR_CFG_PERSIST p)) ∧ SameMem s t ∧
          RegsKept s t [Reg.AFE_PAIR_DIFF p, Reg.AFE_PAIR_STATUS p, Reg.EVL_LOST])))) ∧
  (∀ (s v : State) (p : Fin 8) (a b : CheckSmp) (l : List (Word × Word × Word)), (s.pairOf p).smpA = some a → (s.pairOf p).smpB = some b →
    a.cseq = b.cseq → v = s.setPair p { s.pairOf p with smpA := none, smpB := none } →
    l = (s.pairOf p).arb ++ [(a.x, b.x, v.dacLevel p a.range (arbLevel (s.pairOf p).arb.length))] →
    (s.pairState p = 1 → 2 ≤ (s.pairOf p).arb.length → exec (.pairCheck p) s = .next ((v.sendAchk p 0 1 a.cseq).arbEnd p l)) ∧
    (s.pairState p = 1 → (s.pairOf p).arb.length < 2 → Gives (.pairCheck p) s (fun t => (t.pairOf p).arb = l ∧
      (t.pairOf p).driving = some l.length ∧ t.fld (F.AFE_PAIR_STATUS_ARB_LEVEL p) = l.length ∧ SameMem s t ∧
      RegsKept s t [Reg.AFE_PAIR_STATUS p])) ∧
    (s.pairState p = 4 → exec (.pairCheck p) s = .next (v.sendAchk p (F32.mul (F32.add a.value b.value) 0x3F000000)
      (if a.st == 1 || b.st == 1 then 1 else 4) a.cseq))) ∧
  (∀ (s : State) (p : Fin 8) (code : BitVec 12) (mode : BitVec 2) (conv : Bool) (ch : BitVec 3),
    s.inUse (.conv (2 * p.val + b2n conv)) = true → s.hasDiag (2 * p.val + b2n conv) = true → mode.toNat < 2 →
    Gives (.tdacDiagRequest p code mode conv ch) s (fun t => t.fld (F.AFE_TDAC_CMD_CODE p) = code.toNat ∧
      t.fld (F.AFE_TDAC_CMD_MODE p) = mode.toNat ∧ t.flag (F.AFE_TDAC_CMD_CONV p) = conv ∧ t.fld (F.AFE_TDAC_CMD_CH p) = ch.toNat ∧
      t.num (Reg.AFE_TDAC_RES p) = 0 ∧ t.num (Reg.AFE_TDAC_MEAS p) = 0 ∧ t.num (Reg.AFE_TDAC_EXP p) = 0 ∧ (t.pairOf p).request = true ∧
      SameMem s t ∧ RegsKept s t [Reg.AFE_TDAC_CMD p, Reg.AFE_TDAC_RES p, Reg.AFE_TDAC_MEAS p, Reg.AFE_TDAC_EXP p])) ∧
  (∀ (s : State) (p : Fin 8) (code : BitVec 12) (mode : BitVec 2) (conv : Bool) (ch : BitVec 3), 2 ≤ mode.toNat →
    Gives (.tdacDiagRequest p code mode conv ch) s (fun t => t.flag (F.AFE_TDAC_RES_REFUSED p) = true ∧ (t.pairOf p).request = false ∧
      SameMem s t))

/-- CAL_START, CAL_CAPTURE_LO, CAL_CAPTURE_HI, CAL_CAPTURE_DONE, CAL_COMMIT, CAL_COMMIT_DONE, CAL_ABORT and CAL_REVERT complete as the clauses say; the clauses rest
on R152 to R154; a commit that cannot be computed, or a read-back that fails, is refused by its code. -/
def Obligations.CalibrationCommands : Prop :=
  (∀ (s : State) (ch : BitVec 8) (r : BitVec 2), s.calState = 0 → ch.toNat < 128 → s.hasEntry ch.toNat r.toNat = true →
    s.inUse (.conv (convOfChan ch.toNat)) = true → Gives (.calStart ch r) s (fun t => t.calState = 1 ∧
      t.cal = { Cal.init with ch := ch.toNat, range := r.toNat, snap := s.cal.snap } ∧ t.fld F.AFE_CAL_CTRL_CH = ch.toNat ∧ t.fld F.AFE_CAL_CTRL_RANGE = r.toNat ∧
      SameMem s t ∧ RegsKept s t [Reg.AFE_CAL_CTRL, Reg.AFE_CAL_STATUS])) ∧
  (∀ (s : State) (ch : BitVec 8) (r : BitVec 2), s.calState ≠ 0 → Gives (.calStart ch r) s (fun t => t.fld F.AFE_CAL_STATUS_REFUSE = 1 ∧
      t.calState = s.calState ∧ t.cal = s.cal ∧ Logs s t 0x0519 0 (1 + ch.toNat * 2 ^ 8 + r.toNat * 2 ^ 16) ∧
      SameMem s t ∧ RegsKept s t [Reg.AFE_CAL_CTRL, Reg.AFE_CAL_STATUS, Reg.EVL_LOST])) ∧
  (∀ (s : State), s.calState = 1 ∨ s.calState = 3 ∨ s.calState = 4 →
    Gives .calCaptureLo s (fun t => t.calState = 2 ∧
      t.cal = { s.cal with high := false, cnt := 0, sum := 0, bad := false, prev := s.calState, x0 := s.rd Reg.AFE_CAL_X } ∧
      SameMem s t ∧ RegsKept s t [Reg.AFE_CAL_STATUS]) ∧
    Gives .calCaptureHi s (fun t => t.calState = 2 ∧
      t.cal = { s.cal with high := true, cnt := 0, sum := 0, bad := false, prev := s.calState, x1 := s.rd Reg.AFE_CAL_X } ∧
      SameMem s t ∧ RegsKept s t [Reg.AFE_CAL_STATUS])) ∧
  (∀ (s : State), s.calState = 2 → s.cal.bad = false → s.fld F.AFE_CAL_N_N ≤ s.cal.cnt →
    (s.cal.high = false → Gives .calCaptureDone s (fun t => t.cal = { s.cal with u0 := F32.ofUnitsRatio s.cal.sum s.cal.cnt } ∧
      t.flag F.AFE_CAL_STATUS_HAVE_LO = true ∧ t.calState = (if s.flag F.AFE_CAL_STATUS_HAVE_HI then 4 else 3) ∧ SameMem s t ∧
      RegsKept s t [Reg.AFE_CAL_STATUS])) ∧
    (s.cal.high = true → Gives .calCaptureDone s (fun t => t.cal = { s.cal with u1 := F32.ofUnitsRatio s.cal.sum s.cal.cnt } ∧
      t.flag F.AFE_CAL_STATUS_HAVE_HI = true ∧ t.calState = (if s.flag F.AFE_CAL_STATUS_HAVE_LO then 3 else 4) ∧ SameMem s t ∧
      RegsKept s t [Reg.AFE_CAL_STATUS]))) ∧
  (∀ (s : State) (gain : Word), s.calState = 3 ∨ s.calState = 4 → s.flag F.AFE_CAL_STATUS_HAVE_LO = true → s.flag F.AFE_CAL_STATUS_HAVE_HI = true →
    gain = F32.div (F32.sub s.cal.x1 s.cal.x0) (F32.sub s.cal.u1 s.cal.u0) →
    calVerdict s.cal.range (F32.sub s.cal.x1 s.cal.x0) gain (F32.sub s.cal.x0 (F32.mul gain s.cal.u0)) = 0 →
    Gives .calCommit s (fun t => t.rd Reg.AFE_CAL_GAIN = gain ∧ t.rd Reg.AFE_CAL_OFFS = F32.sub s.cal.x0 (F32.mul gain s.cal.u0) ∧
      t.calState = 5 ∧ t.cal = s.cal ∧ SameMem s t ∧ RegsKept s t [Reg.AFE_CAL_GAIN, Reg.AFE_CAL_OFFS, Reg.AFE_CAL_STATUS])) ∧
  (∀ (s : State), s.flag F.AFE_CAL_STATUS_HAVE_LO = false → Gives .calCommit s (fun t => t.fld F.AFE_CAL_STATUS_REFUSE = 1 ∧
      t.calState = s.calState ∧ t.cal = s.cal ∧ SameMem s t ∧ RegsKept s t [Reg.AFE_CAL_STATUS, Reg.EVL_LOST])) ∧
  (∀ (s : State), s.calState = 5 → s.cal.ch < 128 →
    (∀ r, r = 4 * s.cal.ch + s.cal.range → s.calNewest r = none → Gives (.calCommitDone true) s (fun t => t.calState = 0 ∧
      t.flag F.AFE_CAL_STATUS_HAVE_LO = false ∧ t.flag F.AFE_CAL_STATUS_HAVE_HI = false ∧ t.calValid 0 r = true ∧
      t.calRec 1 r = (s.rd Reg.AFE_CAL_GAIN, s.rd Reg.AFE_CAL_OFFS) ∧ t.calSeq 1 r = 1 ∧
      Logs s t 0x0518 0 (s.cal.ch + s.cal.range * 2 ^ 8) ∧ SameMemOutside s t (calAddr 1 r) 16 ∧
      RegsKept s t [Reg.AFE_CAL_STATUS, Reg.EVL_LOST])) ∧
    Gives (.calCommitDone false) s (fun t => t.calState = 0 ∧ t.fld F.AFE_CAL_STATUS_REFUSE = 8 ∧
      Logs s t 0x0519 0 (8 + s.cal.ch * 2 ^ 8 + s.cal.range * 2 ^ 16) ∧ SameMem s t ∧ RegsKept s t [Reg.AFE_CAL_STATUS, Reg.EVL_LOST])) ∧
  (∀ (s : State), s.calState ≠ 0 → s.cal.ch < 128 → Gives .calAbort s (fun t => t.calState = 0 ∧ t.fld F.AFE_CAL_STATUS_REFUSE = 0x0A ∧
      t.flag F.AFE_CAL_STATUS_HAVE_LO = false ∧ t.flag F.AFE_CAL_STATUS_HAVE_HI = false ∧
      Logs s t 0x0519 0 (0x0A + s.cal.ch * 2 ^ 8 + s.cal.range * 2 ^ 16) ∧ SameMem s t ∧ RegsKept s t [Reg.AFE_CAL_STATUS, Reg.EVL_LOST])) ∧
  (∀ (s : State) (ch : BitVec 8) (r : BitVec 2), s.calState = 0 → rangeOk ch.toNat r.toNat = true → Gives (.calRevert ch r) s (fun t =>
      (∀ k, k < 16 → t.rdByte (calAddr 1 (4 * ch.toNat + r.toNat) + k) = 0 ∧ t.rdByte (calAddr 2 (4 * ch.toNat + r.toNat) + k) = 0) ∧
      (∀ b, (b < calAddr 1 (4 * ch.toNat + r.toNat) ∨ calAddr 1 (4 * ch.toNat + r.toNat) + 16 ≤ b) →
        (b < calAddr 2 (4 * ch.toNat + r.toNat) ∨ calAddr 2 (4 * ch.toNat + r.toNat) + 16 ≤ b) → t.rdByte b = s.rdByte b) ∧
      Logs s t 0x0518 0 (ch.toNat + r.toNat * 2 ^ 8 + 2 ^ 31) ∧ RegsKept s t [Reg.AFE_CAL_CTRL, Reg.EVL_LOST]))

/-- SEQ_LOAD, SEQ_LOAD_DONE, SEQ_UNLOAD, SEQ_START, SEQ_PAUSE, SEQ_HOLD, SEQ_RESUME, SEQ_ABORT, PFLAG_SET and PFLAG_CLR complete: accepted
with the effects of R212, R213, R215 and R224, refused with the code and the event of R240. -/
def Obligations.SequencerCommands : Prop :=
  (∀ (s : State) (r cmd code : Nat), r < 16 → cmd < 8 → code < 16 → (s.seqResult r cmd code).fld F.SEQ_RES_RCP = r ∧
    (s.seqResult r cmd code).fld F.SEQ_RES_CMD = cmd ∧ (s.seqResult r cmd code).fld F.SEQ_RES_REFUSE = code ∧
    (code ≠ 0 → Logs s (s.seqResult r cmd code) 0x0711 0 (code + r * 2 ^ 16 + cmd * 2 ^ 24)) ∧
    (code = 0 → (s.seqResult r cmd code).evl = s.evl) ∧ SameMem s (s.seqResult r cmd code) ∧
    RegsKept s (s.seqResult r cmd code) [Reg.SEQ_RES, Reg.EVL_LOST]) ∧
  (∀ (s : State) (r : Fin 16),
    (s.flag F.SEQ_RES_BUSY = true → exec (.seqLoad r) s = .next ((s.seqResult r 1 11).setFld F.SEQ_STATUS_LOAD_DONE 1)) ∧
    (s.flag F.SEQ_RES_BUSY = false → s.rcpActive r = true →
      exec (.seqLoad r) s = .next ((s.seqResult r 1 9).setFld F.SEQ_STATUS_LOAD_DONE 1)) ∧
    (s.flag F.SEQ_RES_BUSY = false → s.rcpActive r = false → Gives (.seqLoad r) s (fun t => t.seq.loading = some r.val ∧
      t.flag F.SEQ_RES_BUSY = true ∧ t.fld F.SEQ_RES_RCP = r.val ∧ t.fld F.SEQ_RES_CMD = 1 ∧ t.fld F.SEQ_RES_REFUSE = 0 ∧
      SameMem s t ∧ RegsKept s t [Reg.SEQ_RES]))) ∧
  (∀ (s : State), (s.seq.loading = none → exec (.seqLoadDone) s = .next s) ∧
    (∀ r u, s.seq.loading = some r →
      u = ((s.setSeq { s.seq with loading := none }).setFld F.SEQ_RES_BUSY 0).setFld F.SEQ_STATUS_LOAD_DONE 1 →
      exec (.seqLoadDone) s = .next (u.seqStore r (u.fld F.SEQ_SRC_LO_ADDR * 64 + u.fld F.SEQ_SRC_HI_ADDR * 2 ^ 32)
        (u.num Reg.SEQ_SRC_LEN)))) ∧
  (∀ (s : State) (r src len : Nat), (s.sourceOk src len = false → s.seqStore r src len = s.seqResult r 1 12) ∧
    (s.sourceOk src len = true → (s.recipeVerify src len).1 ≠ 0 → s.seqStore r src len = s.seqResult r 1 (s.recipeVerify src len).1) ∧
    (s.sourceOk src len = true → (s.recipeVerify src len).1 = 0 → ∀ u, u = (s.clearMem (rcpArea r) 0x400000).copyMem src (rcpArea r) len →
      s.seqStore r src len = u.seqStored r (u.recipeVerify (rcpArea r) len))) ∧
  (∀ (s : State) (r : Fin 16), s.seqLoading r = false → s.rcpState r = 1 ∨ s.rcpState r = 6 ∨ s.rcpState r = 7 ∨ s.rcpState r = 9 →
    exec (.seqUnload r) s = .next ((((s.seqResult r 2 0).clearMem (rcpArea r) 0x400000).setRcp r 0 0).rcpShow r none)) ∧
  (∀ (s : State) (r : Nat) (c : Recipe), r < 16 → (s.rcpShow r (some c)).slotOf r = { SeqSlot.init with recipe := some c } ∧
    (s.rcpShow r none).slotOf r = SeqSlot.init ∧ (s.rcpShow r none).fld (F.SEQ_R_STATE_CREWS r) = 0 ∧
    (s.rcpShow r none).num (Reg.SEQ_R_ID_LO r) = 0 ∧ (s.rcpShow r none).num (Reg.SEQ_R_ID_HI r) = 0) ∧
  (∀ (s : State) (r : Fin 16) (c : Recipe) (k : Nat) (u : State), k = s.fld F.SEQ_ARG_STEP → (s.slotOf r).recipe = some c →
    s.seqLoading r = false → s.rcpState r = 1 ∨ s.rcpState r = 6 ∨ s.rcpState r = 7 → s.holdsToken = true →
    (∀ q, q < 16 → q ≠ r.val → s.rcpActive q = true → s.rcpCrews q &&& c.crews = 0) → k < c.normal →
    u = (s.seqResult r 3 0).setSlot r { SeqSlot.init with
      recipe := some c, start := some k, stroke := strokeOf (s.num (Reg.CT_LAST_CSEQ (leadCrew c.crews))) } →
    exec (.seqStart r) s = .next ((((u.setNum (Reg.SEQ_R_STEP r) k).setNum (Reg.SEQ_R_COUNT r) 0).log 0x0712 0 (rcpDetail r k)).setRcp r 2 0)) ∧
  (∀ (s : State) (r : Fin 16), (s.slotOf r).recipe = none ∨ s.seqLoading r = true ∨ s.holdsToken = false ∨
    (s.rcpState r ≠ 1 ∧ s.rcpState r ≠ 6 ∧ s.rcpState r ≠ 7) → exec (.seqStart r) s = .next (s.seqResult r 3 11)) ∧
  (∀ (s : State) (r : Fin 16) (c : Recipe), (s.slotOf r).recipe = some c → s.seqLoading r = false →
    s.rcpState r = 1 ∨ s.rcpState r = 6 ∨ s.rcpState r = 7 → s.holdsToken = true →
    (∀ q, q < 16 → q ≠ r.val → s.rcpActive q = true → s.rcpCrews q &&& c.crews ≠ 0 → exec (.seqStart r) s = .next (s.seqResult r 3 10)) ∧
    ((∀ q, q < 16 → q ≠ r.val → s.rcpActive q = true → s.rcpCrews q &&& c.crews = 0) → c.normal ≤ s.fld F.SEQ_ARG_STEP →
      exec (.seqStart r) s = .next (s.seqResult r 3 13))) ∧
  (∀ (s : State) (r : Fin 16), s.seqLoading r = false →
    (s.rcpState r = 2 → Gives (.seqPause r) s (fun t => t.flag (F.SEQ_R_STATE_PAUSE_PEND r) = true ∧ t.rcpState r = 2 ∧
      t.fld F.SEQ_RES_CMD = 4 ∧ t.fld F.SEQ_RES_REFUSE = 0 ∧ SameMem s t ∧ RegsKept s t [Reg.SEQ_RES, Reg.SEQ_R_STATE r])) ∧
    (s.rcpState r = 2 ∨ s.rcpState r = 3 → Gives (.seqHold r) s (fun t =>
      t.slotOf r = { s.slotOf r with hold := some ((s.slotOf r).hold.getD 0) } ∧ t.fld F.SEQ_RES_CMD = 5 ∧ t.fld F.SEQ_RES_REFUSE = 0 ∧
      SameMem s t ∧ RegsKept s t [Reg.SEQ_RES])) ∧
    (s.rcpState r = 3 ∨ s.rcpState r = 4 ∨ s.rcpState r = 8 → s.holdsToken = true → (s.slotOf r).locked = false →
      Gives (.seqResume r) s (fun t => t.slotOf r = { s.slotOf r with resume := true } ∧ t.fld F.SEQ_RES_CMD = 6 ∧
        t.fld F.SEQ_RES_REFUSE = 0 ∧ SameMem s t ∧ RegsKept s t [Reg.SEQ_RES])) ∧
    (s.rcpState r = 2 ∨ s.rcpState r = 3 ∨ s.rcpState r = 4 ∨ s.rcpState r = 5 ∨ s.rcpState r = 8 → Gives (.seqAbort r) s (fun t =>
      t.slotOf r = { s.slotOf r with abort := some ((s.slotOf r).abort.getD 0) } ∧ t.fld F.SEQ_RES_CMD = 7 ∧ t.fld F.SEQ_RES_REFUSE = 0 ∧
      SameMem s t ∧ RegsKept s t [Reg.SEQ_RES]))) ∧
  (∀ (s : State) (r : Fin 16), (s.rcpState r ≠ 2 → exec (.seqPause r) s = .next (s.seqResult r 4 11)) ∧
    (s.holdsToken = false → exec (.seqResume r) s = .next (s.seqResult r 6 11)) ∧
    (s.rcpState r = 0 → exec (.seqUnload r) s = .next (s.seqResult r 2 11) ∧ exec (.seqHold r) s = .next (s.seqResult r 5 11) ∧
      exec (.seqResume r) s = .next (s.seqResult r 6 11) ∧ exec (.seqAbort r) s = .next (s.seqResult r 7 11))) ∧
  (∀ (s : State) (v : Word),
    Gives (.pflagSet false v) s (fun t => t.rd Reg.SEQ_PFLAG_LO = s.rd Reg.SEQ_PFLAG_LO ||| v ∧ SameMem s t ∧ RegsKept s t [Reg.SEQ_PFLAG_LO]) ∧
    Gives (.pflagSet true v) s (fun t => t.rd Reg.SEQ_PFLAG_HI = s.rd Reg.SEQ_PFLAG_HI ||| v ∧ SameMem s t ∧ RegsKept s t [Reg.SEQ_PFLAG_HI]) ∧
    Gives (.pflagClr false v) s (fun t => t.rd Reg.SEQ_PFLAG_LO = s.rd Reg.SEQ_PFLAG_LO &&& ~~~v ∧ SameMem s t ∧
      RegsKept s t [Reg.SEQ_PFLAG_LO]) ∧
    Gives (.pflagClr true v) s (fun t => t.rd Reg.SEQ_PFLAG_HI = s.rd Reg.SEQ_PFLAG_HI &&& ~~~v ∧ SameMem s t ∧
      RegsKept s t [Reg.SEQ_PFLAG_HI]))

/-- STEP_STROKE, STEP_CONDITION_OBSERVE, STEP_CATCH, VSET_ANSWER, GROUP_CUT_NOTICE, CKPT_PERIODIC_CUT, CKPT_WRITE_DONE and REP_SNAPSHOT_DONE
complete as the clauses say; the clauses rest on R214 to R230: strokes are counted, conditions observed, step catches, answers and cuts acted on, and written
checkpoints committed. -/
def Obligations.StepAndCheckpointCommands : Prop :=
  (∀ (s : State) (r : Fin 16) (q : Word), (s.rcpActive r = false → exec (.stepStroke r q) s = .next s) ∧
    (s.rcpState r = 3 ∨ s.rcpState r = 4 → ∀ u, u = s.setSlot r { s.slotOf r with stroke := strokeOf q.toNat } →
      (s.slotOf r).next = none → exec (.stepStroke r q) s = .next (u.seqRequests r q.toNat)) ∧
    (s.rcpState r = 2 ∨ s.rcpState r = 5 → (s.slotOf r).start = none → (s.slotOf r).next = none → ∀ u v,
      u = s.setNum (Reg.SEQ_R_COUNT r) (s.rcpCount r + (strokeDiff (strokeOf q.toNat) (s.slotOf r).stroke).toNat) →
      v = (u.setSlot r { u.slotOf r with stroke := strokeOf q.toNat }).noteCount r q.toNat →
      exec (.stepStroke r q) s = .next (v.seqRequests r q.toNat))) ∧
  (∀ (s : State) (r : Fin 16) (link : Nat) (tok : Token) (p : RStep), s.stepAt r (s.rcpStep r) = some p → p.isEnd = true →
    s.inStep r = true →
    (p.ckind = 1 → exec (.stepConditionObserve r link tok) s = .next (s.observe r p.nhold (s.pflag p.csrc == (p.op == 1)))) ∧
    (p.ckind ≠ 1 → tok.sig.toNat = p.csrc → 0 ≤ strokeDiff (strokeOf tok.cseq.toNat) (s.slotOf r).began → ∀ c u, s.check link 0 tok = (c, u) →
      exec (.stepConditionObserve r link tok) s = .next (u.observe r p.nhold (c.good && (c.st == 0 || c.st == 2 || c.st == 4) &&
        condHolds p.op c.value p.thresh)))) ∧
  (∀ (s : State) (r n : Nat), ((s.observe r n false).slotOf r).run = 0 ∧ ((s.observe r n false).slotOf r).met = (s.slotOf r).met ∧
    ((s.observe r n true).slotOf r).run = (s.slotOf r).run + 1 ∧
    ((s.slotOf r).met = none → n ≤ (s.slotOf r).run + 1 → ((s.observe r n true).slotOf r).met = some (s.slotOf r).stroke) ∧
    ((s.slotOf r).met = none → (s.slotOf r).run + 1 < n → ((s.observe r n true).slotOf r).met = none) ∧
    SameMem s (s.observe r n true) ∧ RegsKept s (s.observe r n true) []) ∧
  (∀ (s : State) (r : Fin 16), ((s.slotOf r).next = none → exec (.stepCatch r) s = .next s) ∧
    (∀ x, (s.slotOf r).next = some x → x.wait = false → exec (.stepCatch r) s = .next ((s.stepCatch r x).seqRequests r x.cseq)) ∧
    (∀ x y, (s.slotOf r).next = some x → x.wait = true → ((s.seqRefused r x 0 true).slotOf r).next = some y →
      exec (.stepCatch r) s = .next (((s.seqRefused r x 0 true).stepCatch r y).seqRequests r y.cseq))) ∧
  (∀ (s : State) (r k : Nat) (x : SeqNext), x.refused = none → x.restore = none → x.step = some k →
    s.stepCatch r x = s.stepBegin r k x.cseq 0 true) ∧
  (∀ (s : State) (r : Fin 16) (ws : List Nat) (x : SeqNext) (u : State), s.seq.mail = [(r.val, ws)] → (Tab.find s.pvm.resp 0).isSome = true →
    u = (s.mbDone 0).setSeq { s.seq with mail := [] } → (u.slotOf r).next = some x → x.wait = true → ws.headD 0 % 256 = 1 →
    ws.getD 4 0 = x.cseq → x.sets = [] → x.restore = none →
    (u.num (Reg.PVM_MB_RSP 0 0) = 0 → exec .vsetAnswer s =
      .next ((u.setSlot r { u.slotOf r with next := some { x with wait := false } }).setFld (F.SEQ_R_STATE_ARMED r) 1)) ∧
    (u.num (Reg.PVM_MB_RSP 0 0) ≠ 0 → exec .vsetAnswer s = .next (u.seqRefused r x (u.num (Reg.PVM_MB_RSP 0 1) % 256) false))) ∧
  (∀ (s : State), Tab.find s.pvm.resp 0 = none → exec .vsetAnswer s = .next s) ∧
  (∀ (s : State) (g : Fin 4), (bit (s.fld F.PVM_GRP_ON) g = true → exec (.groupCutNotice g) s = .next s) ∧
    (bit (s.fld F.PVM_GRP_ON) g = false → exec (.groupCutNotice g) s = .next ((List.range 16).foldl (fun u r =>
      if (u.rcpState r == 2 || u.rcpState r == 3) && (u.slotOf r).valves.any (fun v => u.par (offValve v.1) 0 2 == g.val)
        then u.seqForce r 5 else u) s))) ∧
  (∀ (s : State) (q : Word) (m : Nat), m = s.fld F.SEQ_CKPT_CFG_REF →
    ((s.tabOf m).phase = .running → q.toNat = s.num (Reg.CT_LAST_CSEQ m) → cseqEntry q.toNat = 0 → s.ckptMultiple ≠ s.seq.multiple →
      exec (.ckptPeriodicCut q) s = .next ((s.setSeq { s.seq with multiple := s.ckptMultiple }).ckptCut m q.toNat false)) ∧
    ((s.tabOf m).phase ≠ .running ∨ q.toNat ≠ s.num (Reg.CT_LAST_CSEQ m) ∨ cseqEntry q.toNat ≠ 0 ∨ s.ckptMultiple = s.seq.multiple →
      exec (.ckptPeriodicCut q) s = .next s)) ∧
  (∀ (s : State) (b : Nat), s.cutBuf = (b, false) → b < 2 ∧ ∀ c ∈ s.seq.cuts, c.buf ≠ b) ∧
  (∀ (s : State) (c : Cut), s.seq.cuts.find? (fun c => c.area.isSome) = some c →
    (∀ a, c.area = some a → exec (.ckptWriteDone false) s = .next ((((((s.setSeq { s.seq with cuts := s.seq.cuts.filter (fun x => x.buf != c.buf) }).setFld
      F.SEQ_STATUS_CKPT_BUSY 0).setFld F.SEQ_STATUS_CKPT_FAIL 1).log 0x071B 0 (a + 1 * 2)).ckptStart))) ∧
    (c.dip = false ∨ s.flag F.RPC_SUP_STATUS_DIP = true → Gives (.ckptWriteDone true) s (fun t => ∃ u : State, t = u.ckptStart ∧
      u.num Reg.SEQ_CKPT_LAST = (s.num Reg.SEQ_CKPT_LAST + 1) % 2 ^ 32 ∧ u.flag F.SEQ_STATUS_CKPT_DONE = true ∧
      u.flag F.SEQ_STATUS_CKPT_BUSY = false ∧ u.rdMem (fastAddr (c.area.getD 0) + 0xFC) 4 = 1 ∧
      u.seq.cuts = s.seq.cuts.filter (fun x => x.buf != c.buf) ∧
      u.seq.dip = (if c.dip then some (c.area.getD 0) else if s.seq.dip = some (c.area.getD 0) then none else s.seq.dip) ∧ RegsKept s u [Reg.SEQ_CKPT_LAST, Reg.SEQ_STATUS, Reg.EVL_LOST]))) ∧
  (∀ (s : State) (c : Cut) (a : Nat), s.seq.repCut = some c → c.area = some a →
    Gives (.repSnapshotDone false) s (fun t => t.seq = { s.seq with repCut := none } ∧ t.flag F.SEQ_STATUS_REP_BUSY = false ∧
      t.flag F.SEQ_STATUS_CKPT_FAIL = true ∧ Logs s t 0x071B 0 (a + 2 * 2) ∧ SameMem s t ∧ RegsKept s t [Reg.SEQ_STATUS, Reg.EVL_LOST]) ∧
    Gives (.repSnapshotDone true) s (fun t => t.seq.repCut = none ∧ t.seq.repSeq = s.seq.repSeq + 1 ∧ t.seq.repLast = a ∧
      t.flag F.SEQ_STATUS_REP_BUSY = false ∧ t.rdMem (repAddr a + 0xFC) 4 = 1 ∧ RegsKept s t [Reg.SEQ_STATUS])) ∧
  (∀ (s : State), s.seq.repCut = none → exec (.repSnapshotDone true) s = .next s)

/-- AXIS_ENABLE, AXIS_DISABLE, AXIS_MOVE, AXIS_STOP, AXIS_HOME, AXIS_GEAR, AXIS_GEAR_SET, AXIS_UNGEAR, AXIS_CLEAR and AXIS_PERMIT_WITHDRAWN
complete on a crew that runs.  AXIS_STOP and AXIS_DISABLE act at once; the others wait for the axis task of a later stroke (R242), which takes
them in their order with the effects of R251, R258 to R266 and R273 to R279, or refuses them with the code and the event of R280. -/
def Obligations.AxisCommands : Prop :=
  (∀ (s : State) (n a code cmd : Nat), n < 9 → a < 32 → code < 64 → (s.axRefuse n a code cmd).fld (F.AX_STATE_REFUSE n (a % 4)) = code ∧
    (s.axRefuse n a code cmd).axState n a = s.axState n a ∧ (s.axRefuse n a code cmd).axisOf a = s.axisOf a ∧
    Logs s (s.axRefuse n a code cmd) 0x081C (0x5000 + a) (code + cmd * 256) ∧ SameMem s (s.axRefuse n a code cmd) ∧
    RegsKept s (s.axRefuse n a code cmd) [Reg.AX_STATE n (a % 4), Reg.EVL_LOST]) ∧
  (∀ (s : State) (a : Fin 32) (n : Nat) (k : Fin 64) (mode : BitVec 8), s.axCrew a = some n → s.crewDeaf n = false →
    ∀ put : Nat → Nat → State, (∀ c v, put c v = s.setAxis a { s.axisOf a with
      cmds := (s.axisOf a).cmds ++ [(c, v, strokeOf (s.num (Reg.CT_LAST_CSEQ (a.val / 4))))] }) →
    exec (.axisEnable a) s = .next (put 1 0) ∧ exec (.axisMove a k) s = .next (put 3 k) ∧ exec (.axisHome a mode) s = .next (put 5 mode.toNat) ∧
    exec (.axisGear a) s = .next (put 6 0) ∧ exec (.axisGearSet a) s = .next (put 7 0) ∧ exec (.axisUngear a) s = .next (put 8 0) ∧
    exec (.axisClear a) s = .next (put 9 0)) ∧
  (∀ (s : State) (n a q : Nat) (l : List (Nat × Nat × Nat)), (s.axisOf a).cmds = l →
    (∀ c ∈ l, 0 < strokeDiff (strokeOf q) c.2.2) → s.axTakeAll n a q =
      l.foldl (fun u c => u.axTake n a c.1 c.2.1) (s.setAxis a { s.axisOf a with cmds := [] })) ∧
  (∀ (s : State) (n a q : Nat), (∀ c ∈ (s.axisOf a).cmds, strokeDiff (strokeOf q) c.2.2 ≤ 0) →
    ((s.axTakeAll n a q).axisOf a) = s.axisOf a ∧ SameMem s (s.axTakeAll n a q) ∧ RegsKept s (s.axTakeAll n a q) []) ∧
  (∀ (s : State) (n a v : Nat), s.axTake n a 1 v = s.axEnable n a ∧ s.axTake n a 3 v = s.axMove n a v none ∧ s.axTake n a 5 v = s.axHome n a v ∧
    s.axTake n a 6 v = s.axGear n a ∧ s.axTake n a 7 v = s.axGearSet n a ∧ s.axTake n a 8 v = s.axUngear n a ∧ s.axTake n a 9 v = s.axClear n a) ∧
  (∀ (s : State) (a : Fin 32) (n : Nat), n < 9 →
    (s.axState n a = 0 → s.flag (F.AX_CFG_EN n (a % 4)) = true →
      (s.flag (F.AX_CFG_BRAKE_BOUND n (a % 4)) = false ∨ s.rbit Reg.PVM_PERMIT a = true) → ∀ t, t = s.axEnable n a → (
        t.axState n a = 1 ∧ t.axisOf a = { s.axisOf a with cpos := ((s.axisOf a).s + (s.axisOf a).ofs) * 4294967296, cvel := 0 } ∧
        t.fld (F.AX_QUEUE_LAG_MAX n (a % 4)) = 0 ∧ SameMem s t ∧ RegsKept s t [Reg.AX_STATE n (a % 4), Reg.AX_QUEUE n (a % 4)])) ∧
    (s.axState n a ≠ 0 ∨ s.flag (F.AX_CFG_EN n (a % 4)) = false → s.axEnable n a = s.axRefuse n a 1 1) ∧
    (s.axState n a = 0 → s.flag (F.AX_CFG_EN n (a % 4)) = true → s.flag (F.AX_CFG_BRAKE_BOUND n (a % 4)) = true →
      s.rbit Reg.PVM_PERMIT a = false → s.axEnable n a = s.axRefuse n a 3 1)) ∧
  (∀ (s : State) (a : Fin 32) (n : Nat), s.axCrew a = some n → n < 9 → s.crewDeaf n = false →
    (s.axState n a = 1 ∨ s.axState n a = 7 → Gives (.axisDisable a) s (fun t => t.axState n a = 0 ∧ t.axisOf a = s.axisOf a ∧ SameMem s t ∧
      RegsKept s t [Reg.AX_STATE n (a % 4)])) ∧
    (s.axState n a = 2 ∨ s.axState n a = 3 ∨ s.axState n a = 5 → ∀ u, u = s.beginStop n a false 0 → exec (.axisDisable a) s =
      .next ((u.setAxis a { u.axisOf a with disable := true, rtTable := none }).setFld (F.AX_STATE_RT_PEND n (a % 4)) 0)) ∧
    (s.axState n a = 4 → exec (.axisDisable a) s =
      .next ((s.setAxis a { s.axisOf a with disable := true, rtTable := none }).setFld (F.AX_STATE_RT_PEND n (a % 4)) 0)) ∧
    (s.axState n a = 6 → ∀ u, u = (s.homeFail n a 5).beginStop n a false 0 → exec (.axisDisable a) s =
      .next ((u.setAxis a { u.axisOf a with disable := true, rtTable := none }).setFld (F.AX_STATE_RT_PEND n (a % 4)) 0)) ∧
    (s.axState n a = 0 → exec (.axisDisable a) s = .next (s.axRefuse n a 1 2))) ∧
  (∀ (s : State) (a : Fin 32) (n : Nat) (k : Fin 64), n < 9 →
    (s.moveRefusal n a k ≠ 0 → s.axMove n a k none = s.axRefuse n a (s.moveRefusal n a k) 3) ∧
    (s.axState n a = 1 → s.flag (F.AX_CFG_EN n (a % 4)) = true → s.mtReady n k = true → s.mtBusy n k = false → (s.axisOf a).table = none →
      (s.axisOf a).old = none → (∀ ch, s.feedChan n a = some ch → s.cdmState n ch ≠ 1) →
      ∀ t, t = s.axMove n a k none → ( t.axState n a = 2 ∧ (t.axisOf a).table = some k.val ∧ (t.axisOf a).segs = [] ∧
        (t.axisOf a).nseg = s.fld (F.MT_NSEG_NSEG n k) ∧ (t.axisOf a).checked = 0 ∧ (t.axisOf a).p0 = (s.axisOf a).cpos ∧
        t.flag (F.MT_CTRL_BUSY n k) = true ∧ t.fld (F.MT_CTRL_AXIS n k) = a % 4 ∧ t.fld (F.AX_MOVE_TABLE n (a % 4)) = k.val ∧
        t.axCount n a = 0 ∧ SameMem s t ∧ RegsKept s t [Reg.MT_CTRL n k, Reg.AX_QUEUE n (a % 4), Reg.AX_MOVE n (a % 4), Reg.AX_STATE n (a % 4)])) ∧
    (s.moveRefusal n a k = 0 → s.axState n a = 2 ∨ s.axState n a = 3 ∨ s.axState n a = 5 → s.mtBlend n k = true →
      s.axMove n a k none = s.takeTable n a k) ∧
    (s.moveRefusal n a k = 0 → s.axState n a = 2 ∨ s.axState n a = 3 ∨ s.axState n a = 5 → s.mtBlend n k = false →
      ∀ u, u = s.beginStop n a false 0 → s.axMove n a k none =
        ((u.setAxis a { u.axisOf a with rtTable := some k }).setFld (F.AX_STATE_RT_PEND n (a % 4)) 1))) ∧
  (∀ (s : State) (a : Fin 32) (n : Nat), s.axCrew a = some n → n < 9 → s.crewDeaf n = false →
    (s.axState n a = 2 ∨ s.axState n a = 3 ∨ s.axState n a = 5 → ∀ u, u = s.beginStop n a false 0 → exec (.axisStop a) s =
      .next ((u.setAxis a { u.axisOf a with rtTable := none }).setFld (F.AX_STATE_RT_PEND n (a % 4)) 0)) ∧
    (s.axState n a = 0 ∨ s.axState n a = 1 ∨ s.axState n a = 4 ∨ s.axState n a = 7 → exec (.axisStop a) s = .next (s.axRefuse n a 1 4)) ∧
    (s.axState n a = 6 → ∀ u, u = (s.homeFail n a 5).beginStop n a false 10 → exec (.axisStop a) s =
      .next ((u.setAxis a { u.axisOf a with rtTable := none }).setFld (F.AX_STATE_RT_PEND n (a % 4)) 0)) ∧
    (s.axState n a = 5 → s.axUngear n a = s.beginStop n a false 0) ∧
    (s.axState n a ≠ 5 → s.axUngear n a = s.axRefuse n a 1 8) ∧
    (s.axState n a = 7 → ∀ t, t = s.axClear n a → ( t.axState n a = 1 ∧
      t.fld (F.AX_STATE_FAULT n (a % 4)) = 0 ∧ t.axisOf a = s.axisOf a ∧ SameMem s t ∧ RegsKept s t [Reg.AX_STATE n (a % 4)])) ∧
    (s.axState n a ≠ 7 → s.axClear n a = s.axRefuse n a 1 9)) ∧
  (∀ (s : State) (n a fault : Nat) (hard : Bool), n < 9 → a < 32 → (s.beginStop n a hard fault).axState n a = 4 ∧
    (s.beginStop n a hard fault).axCount n a = 0 ∧ ((s.beginStop n a hard fault).axisOf a).segs = [] ∧
    ((s.beginStop n a hard fault).axisOf a).table = none ∧ ((s.beginStop n a hard fault).axisOf a).gear = none ∧
    ((s.beginStop n a hard fault).axisOf a).cpos = (s.axisOf a).cpos ∧ ((s.beginStop n a hard fault).axisOf a).stop.isSome = true ∧
    ((s.beginStop n a hard fault).axisOf a).fault = (if (s.axisOf a).fault = 0 then fault else (s.axisOf a).fault)) ∧
  (∀ (s : State) (n a mode : Nat), n < 9 →
    (s.homeRefusal n a mode ≠ 0 → s.axHome n a mode = s.axRefuse n a (s.homeRefusal n a mode) 5) ∧
    (s.homeRefusal n a mode = 0 → mode = 7 → ∀ u, u = s.setAxis a { s.axisOf a with referenced := false } →
      s.axHome n a mode = ((u.homeShift n a (u.axisOf a).cpos).motStatus n a 2)) ∧
    (s.homeRefusal n a mode = 0 → mode = 0 → ∀ u, u = (s.setAxis a { s.axisOf a with referenced := false }).setAxState n a 6 →
      (u.homeRef n a 0 = some false → s.axHome n a mode =
        (u.homeLeg a ⟨0, .search, false, 0, 0, none, none, 0⟩ .search false)) ∧
      (u.homeRef n a 0 = some true → s.axHome n a mode =
        (u.homeLeg a ⟨0, .search, false, 0, 0, none, none, 0⟩ .clear true)))) ∧
  (∀ (s : State) (a : Fin 32) (n : Nat) (g : Gear), n < 9 →
    (s.axState n a ≠ 1 → s.axGear n a = s.axRefuse n a 1 6) ∧
    (s.axState n a = 1 → s.num (Reg.AX_GEAR_DEN n (a % 4)) = 0 ∨ s.encFaulty (s.fld (F.AX_GEAR_CFG_ENC n (a % 4))) = true →
      s.axGear n a = s.axRefuse n a 5 6) ∧
    (∀ e, e = s.fld (F.AX_GEAR_CFG_ENC n (a % 4)) → s.axState n a = 1 → s.num (Reg.AX_GEAR_DEN n (a % 4)) ≠ 0 → s.encFaulty e = false →
      s.gearToward n a (toSigned 32 (s.num (Reg.AX_GEAR_NUM n (a % 4)))) e = true → s.axGear n a = s.axRefuse n a 1 6) ∧
    (∀ e, e = s.fld (F.AX_GEAR_CFG_ENC n (a % 4)) → s.axState n a = 1 → s.num (Reg.AX_GEAR_DEN n (a % 4)) ≠ 0 → s.encFaulty e = false →
      s.gearToward n a (toSigned 32 (s.num (Reg.AX_GEAR_NUM n (a % 4)))) e = false → s.num (Reg.AX_GEAR_BLEND n (a % 4)) = 0 →
      ∀ t, t = s.axGear n a → ( t.axState n a = 5 ∧ t.axisOf a = { s.axisOf a with gear := some {
        enc := e, cur := anchor (toSigned 32 (s.num (Reg.AX_GEAR_NUM n (a % 4)))) (s.num (Reg.AX_GEAR_DEN n (a % 4))) (fixR (s.axisOf a).cpos) (s.encCount e), prev := none, pend := none } } ∧ SameMem s t ∧ RegsKept s t [Reg.AX_STATE n (a % 4)])) ∧
    (s.axState n a ≠ 5 → s.axGearSet n a = s.axRefuse n a 1 7) ∧
    (s.axState n a = 5 → (s.axisOf a).gear = some g → g.pend.isSome = true → s.axGearSet n a = s.axRefuse n a 6 7) ∧
    (s.axState n a = 5 → (s.axisOf a).gear = some g → g.pend = none → s.num (Reg.AX_GEAR_DEN n (a % 4)) = 0 ∨ s.encFaulty g.enc = true →
      s.axGearSet n a = s.axRefuse n a 5 7) ∧
    (∀ num den sw, num = toSigned 32 (s.num (Reg.AX_GEAR_NUM n (a % 4))) → den = s.num (Reg.AX_GEAR_DEN n (a % 4)) →
      sw = toSigned 48 (s.num (Reg.AX_GEAR_MSW_LO n (a % 4)) + 2 ^ 32 * s.fld (F.AX_GEAR_MSW_HI_MSW n (a % 4))) →
      s.axState n a = 5 → (s.axisOf a).gear = some g → g.pend = none → den ≠ 0 → s.encFaulty g.enc = false →
      (s.gearToward n a num g.enc = true → s.axGearSet n a = s.axRefuse n a 1 7) ∧
      (s.gearToward n a num g.enc = false → s.encCount g.enc ≠ sw → ∀ t, t = s.axGearSet n a → (t.axState n a = 5 ∧
        t.flag (F.AX_GEAR_CFG_PEND n (a % 4)) = true ∧
        (t.axisOf a).gear = some { g with pend := some (num, den, sw, s.num (Reg.AX_GEAR_BLEND n (a % 4))) } ∧ SameMem s t ∧
        RegsKept s t [Reg.AX_GEAR_CFG n (a % 4)])) ∧
      (s.gearToward n a num g.enc = false → s.encCount g.enc = sw → ∀ t, t = s.axGearSet n a → (t.axState n a = 5 ∧
        t.flag (F.AX_GEAR_CFG_PEND n (a % 4)) = false ∧
        (t.axisOf a).gear = some (({ g with pend := some (num, den, sw, s.num (Reg.AX_GEAR_BLEND n (a % 4))) } : Gear).switch num den sw
          (s.num (Reg.AX_GEAR_BLEND n (a % 4)))))))) ∧
  (∀ (s : State) (a : Fin 32) (n : Nat) (u : State), s.axCrew a = some n → n < 9 → u = s.setRbit Reg.PVM_PERMIT a false →
    (s.axState n a = 0 → exec (.axisPermitWithdrawn a) s = .next u) ∧
    (s.axState n a ≠ 0 → s.axState n a ≠ 6 → exec (.axisPermitWithdrawn a) s = .next ((u.axHalt n a false 3).setAxState n a 0)) ∧
    (s.axState n a = 6 → exec (.axisPermitWithdrawn a) s = .next (((u.axHalt n a false 3).homeFail n a 5).setAxState n a 0)))

/-- AXIS_TASK, STEP_STAGE_CYCLE, AXIS_AT_REST, RT_TIMEOUT, HW_LIMIT_ACTIVE, GEAR_SWITCH and HOME_REFERENCE_EDGE complete as the clauses say; the clauses rest on
R243 to R277: a task is held for the monitor, a stage interpolates and steps, rest, a missing table, a limit, a ratio and a reference act. -/
def Obligations.AxisMotionCommands : Prop :=
  (∀ (s : State) (n : Fin 9) (x : Fin 512) (w a : Nat), s.issuedEntry n x = some w → s.axisOfTask n x = some a →
    (s.ctxTarget n x = 1 → (s.entryOf n x w).done = false → s.inUse (.crew n) = true → s.engineFrozen n 2 = false →
      Gives (.axisTask n x) s (fun t => t = s.axisTask n x w a ∧ (t.entryOf n x w).done = true ∧ (t.entryOf n x w).confirmed = false)) ∧
    (s.engineFrozen n 2 = true → exec (.axisTask n x) s = .next s)) ∧
  (∀ (s : State) (a : Fin 32) (n : Nat) (d : Bool), s.axCrew a = some n → n < 9 →
    (s.axState n a = 0 → exec (.stepStageCycle a d) s = .next (s.setAxis a (s.stepTimes n a))) ∧
    (s.axState n a ≠ 0 → exec (.stepStageCycle a true) s =
      .next (((s.axLog a 0x081A 0).axHaltFault n a 7 true 2).fatal (.stage n (a % 4)) 1)) ∧
    (s.axState n a = 1 ∨ s.axState n a = 3 ∨ s.axState n a = 7 → exec (.stepStageCycle a false) s = .next ((s.clearDone n a).stepPins n a)) ∧
    (s.axState n a = 2 → (s.axisOf a).gear = none → exec (.stepStageCycle a false) s = .next (((s.interpolate n a 5).clearDone n a).stepPins n a)) ∧
    (∀ r, s.axState n a = 4 → (s.axisOf a).stop = some r → (s.axisOf a).rest = false →
      exec (.stepStageCycle a false) s = .next (((s.rampCycle a r).clearDone n a).stepPins n a)) ∧
    (∀ g, s.axState n a = 5 → (s.axisOf a).gear = some g → exec (.stepStageCycle a false) s = .next (((s.follow n a g).clearDone n a).stepPins n a)) ∧
    (∀ h, s.axState n a = 6 → (s.axisOf a).home = some h → (s.axisOf a).rest = false →
      exec (.stepStageCycle a false) s = .next (((s.homeCycle n a h).clearDone n a).stepPins n a))) ∧
  (∀ (s : State) (n a : Nat) (want : Int), n < 9 → a < 32 → want = steps (s.axisOf a).cpos - (s.axisOf a).ofs →
    (want = (s.axisOf a).s → ((s.stepPins n a).axisOf a).s = (s.axisOf a).s ∧ ((s.stepPins n a).axisOf a).dirHigh = (s.axisOf a).dirHigh) ∧
    ((s.axisOf a).s < want → (want - (s.axisOf a).s).natAbs ≤ s.fld (F.AX_CFG_LAG_MAX n (a % 4)) →
      (s.axisOf a).dirHigh = !s.flag (F.AX_CFG_DIR_INV n (a % 4)) → (s.stepTimes n a).stepHigh = true →
      6 * s.fld (F.AX_STEP_T_PER_MIN n (a % 4)) ≤ (s.stepTimes n a).stepT →
      6 * s.fld (F.AX_STEP_T_DIR_SETUP n (a % 4)) ≤ (s.stepTimes n a).dirT →
      ((s.stepPins n a).axisOf a).s = (s.axisOf a).s + 1 ∧ ((s.stepPins n a).axisOf a).stepHigh = false ∧
      ((s.stepPins n a).axisOf a).stepT = 0 ∧ SameMem s (s.stepPins n a) ∧ RegsKept s (s.stepPins n a) [Reg.AX_QUEUE n (a % 4)]) ∧
    ((s.axisOf a).s < want → (want - (s.axisOf a).s).natAbs ≤ s.fld (F.AX_CFG_LAG_MAX n (a % 4)) →
      (s.axisOf a).dirHigh = s.flag (F.AX_CFG_DIR_INV n (a % 4)) → ((s.stepPins n a).axisOf a).s = (s.axisOf a).s ∧
      ((s.stepPins n a).axisOf a).dirHigh = !s.flag (F.AX_CFG_DIR_INV n (a % 4)) ∧ ((s.stepPins n a).axisOf a).dirT = 0)) ∧
  (∀ (s : State) (a : Fin 32) (n : Nat) (u : State), s.axCrew a = some n → n < 9 → s.rampOver a = true → u = (s.motStatus n a 3).settle a →
    (s.axState n a = 4 → (u.axisOf a).disable = true → Gives (.axisAtRest a) s (fun t => t.axState n a = 0 ∧
      t.axisOf a = { u.axisOf a with disable := false, fault := 0, rtTable := none } ∧ SameMem s t)) ∧
    (s.axState n a = 4 → (u.axisOf a).disable = false → (u.axisOf a).fault ≠ 0 → exec (.axisAtRest a) s =
      .next ((u.setAxis a { u.axisOf a with fault := 0, rtTable := none }).axFault n a (u.axisOf a).fault)) ∧
    (s.axState n a = 4 → (u.axisOf a).disable = false → (u.axisOf a).fault = 0 → (u.axisOf a).rtTable = none →
      Gives (.axisAtRest a) s (fun t => t.axState n a = 1 ∧ t.axisOf a = u.axisOf a ∧ (t.axisOf a).cvel = 0 ∧ (t.axisOf a).stop = none ∧
        t.rbit (Reg.MOT_STATUS n) (4 * (a % 4) + 3) = true ∧ SameMem s t ∧ RegsKept s t [Reg.AX_STATE n (a % 4), Reg.MOT_STATUS n])) ∧
    (∀ h, s.axState n a = 6 → (s.axisOf a).home = some h → h.phase = .refStop → exec (.axisAtRest a) s = .next (u.homePark n a h)) ∧
    (∀ h, s.axState n a = 6 → (s.axisOf a).home = some h → h.phase = .failStop → exec (.axisAtRest a) s =
      .next ((u.homeFail n a h.code).axFault n a 10))) ∧
  (∀ (s : State) (a : Fin 32), s.rampOver a = false → exec (.axisAtRest a) s = .next s) ∧
  (∀ (s : State) (a : Fin 32) (n k : Nat), s.axCrew a = some n → n < 9 → (s.axisOf a).rtTable = some k → s.axState n a = 4 →
    (s.axisOf a).rest = true →
    (s.mtReady n k = false → (s.axisOf a).restAt + 600 * s.fld (F.AX_RT_RT_WAIT_US n (a % 4)) ≤ s.time.cycle → Gives (.rtTimeout a) s (fun t => t.axState n a = 7 ∧ t.fld (F.AX_STATE_FAULT n (a % 4)) = 9 ∧
      t.flag (F.AX_STATE_RT_PEND n (a % 4)) = false ∧ t.axisOf a = { s.axisOf a with rtTable := none, rest := false } ∧
      t.rbit (Reg.MOT_STATUS n) (4 * (a % 4) + 1) = true ∧ Logs s t 0x0818 (0x5000 + a) k ∧ SameMem s t ∧
      RegsKept s t [Reg.AX_STATE n (a % 4), Reg.MOT_STATUS n, Reg.EVL_LOST])) ∧
    (s.mtReady n k = true ∨ s.time.cycle < (s.axisOf a).restAt + 600 * s.fld (F.AX_RT_RT_WAIT_US n (a % 4)) → exec (.rtTimeout a) s = .next s)) ∧
  (∀ (s : State) (a : Fin 32) (n : Nat) (pos : Bool), s.axCrew a = some n → (s.axisOf a).clear = none →
    (if pos then s.limPos n a else s.limNeg n a) = some true →
    ((if pos then 0 < (s.axisOf a).cvel else (s.axisOf a).cvel < 0) →
      (s.axState n a = 2 ∨ s.axState n a = 3 ∨ s.axState n a = 4 ∨ s.axState n a = 5 →
        exec (.hwLimitActive a pos) s = .next ((s.beginStop n a true 4).axLog a 0x0814 (b2n pos))) ∧
      (∀ h, s.axState n a = 6 → (s.axisOf a).home = some h → h.mode ≠ 2 → h.mode ≠ 3 →
        exec (.hwLimitActive a pos) s = .next (s.homeStop n a { h with code := 1 } .failStop))) ∧
    ((s.axisOf a).cvel = 0 → exec (.hwLimitActive a pos) s = .next s)) ∧
  (∀ (s : State) (a : Fin 32) (n : Nat) (g : Gear) (num : Int) (den : Nat) (sw : Int) (b : Nat), s.axCrew a = some n → n < 9 →
    (s.axisOf a).gear = some g → (g.pend = some (num, den, sw, b) → s.encCount g.enc = sw → Gives (.gearSwitch a) s (fun t =>
      t.axisOf a = { s.axisOf a with gear := some (g.switch num den sw b) } ∧ t.flag (F.AX_GEAR_CFG_PEND n (a % 4)) = false ∧
      SameMem s t ∧ RegsKept s t [Reg.AX_GEAR_CFG n (a % 4)])) ∧ (g.pend = some (num, den, sw, b) → s.encCount g.enc ≠ sw → exec (.gearSwitch a) s = .next s) ∧
    (g.pend = none → exec (.gearSwitch a) s = .next s)) ∧
  (∀ (g : Gear) (num : Int) (den : Nat) (sw : Int), g.prev = none → ∀ m, m < sw → (g.switch num den sw 0).pos m = g.cur.pos m) ∧
  (∀ (s : State) (a : Fin 32) (n : Nat) (h : Home), s.axCrew a = some n → (s.axisOf a).home = some h →
    (∀ p, p = (((s.axisOf a).latch.map Prod.fst).getD (s.axisOf a).cpos) → h.phase = .search → h.mode ≤ 3 → s.homeRef n a h.mode = some true →
      (s.axisOf a).clear = none → exec (.homeReferenceEdge a false) s =
      .next ((s.setAxis a { s.axisOf a with clear := some (h.mode, p) }).homeStop n a { h with pref := some p } .refStop)) ∧
    (h.phase = .search → h.mode = 4 ∨ h.mode = 5 → s.homeRef n a h.mode = some true → (s.axisOf a).clear = none → Gives (.homeReferenceEdge a false) s (fun t =>
      (t.axisOf a).home = some { h with phase := .index, mark := some (((s.axisOf a).latch.map Prod.fst).getD (s.axisOf a).cpos) } ∧ SameMem s t ∧
      RegsKept s t [])) ∧
    (h.phase = .index → exec (.homeReferenceEdge a true) s = .next ((s.setAxis a { s.axisOf a with
      clear := some (h.mode, (s.axisOf a).cpos) }).homeStop n a { h with pref := some (s.axisOf a).cpos } .refStop)) ∧
    (h.phase = .search → s.homeRef n a h.mode ≠ some true ∨ (s.axisOf a).clear.isSome = true → exec (.homeReferenceEdge a false) s = .next s))

/-- ENCODER_EDGE, ENC_LINE_FAULT, ENC_LINE_FAULT_END, ENC_INDEX and ENC_IDX_READ complete as the clauses say; the clauses rest on R267 to R269: edges are
counted by the mode, an illegal step is a transient of cause 1, a lost line of cause 2, and an index position is captured and read. -/
def Obligations.EncoderCommands : Prop :=
  (∀ (s : State) (g : Fin 16) (a b : Bool), s.flag (F.ENC_CFG_EN g) = false → Gives (.encoderEdge g a b) s (fun t =>
    t.encOf g = { s.encOf g with a := a, b := b } ∧ SameMem s t ∧ RegsKept s t [])) ∧
  (∀ (s : State) (g : Fin 16) (a b : Bool) (d : Int), s.flag (F.ENC_CFG_EN g) = true →
    (encStep (s.fld (F.ENC_CFG_MODE g)) (s.encOf g).a (s.encOf g).b a b = (d, false) → exec (.encoderEdge g a b) s =
      .next ((s.setEnc g { s.encOf g with a := a, b := b }).encAdd g (if s.flag (F.ENC_CFG_DIR g) then -d else d))) ∧
    (encStep (s.fld (F.ENC_CFG_MODE g)) (s.encOf g).a (s.encOf g).b a b = (d, true) → ∀ u,
      u = ((s.setEnc g { s.encOf g with a := a, b := b }).countFld (F.ENC_STATUS_ILLEGAL g) 1).setFld (F.ENC_STATUS_ILL g) 1 →
      exec (.encoderEdge g a b) s = .next (((u.log 0x0820 (0x20A8 + g) (u.fld (F.ENC_STATUS_ILLEGAL g))).transient (.enc g) 1).encFaultHooks g))) ∧
  (∀ (s : State) (g : Nat) (d : Int), g < 16 → s.flag (F.ENC_STATUS_SAT g) = false → (s.encCount g + d).natAbs < 2 ^ 47 - 1 →
    (s.encAdd g d).encCount g = s.encCount g + d ∧ SameMem s (s.encAdd g d) ∧
    RegsKept s (s.encAdd g d) [Reg.ENC_ACC_LO g, Reg.ENC_ACC_HI g]) ∧
  (∀ (a b : Bool), encStep 0 a b a b = (0, false) ∧ encStep 0 a b (!a) (!b) = (0, true) ∧
    (encStep 0 a b (!a) b).1 = - (encStep 0 (!a) b a b).1 ∧ (encStep 0 a b a (!b)).1 = - (encStep 0 a (!b) a b).1 ∧
    (encStep 0 a b (!a) b).1.natAbs = 1 ∧ (encStep 0 a b a (!b)).1.natAbs = 1) ∧
  (∀ (s : State) (g : Fin 16) (l : BitVec 3), l ≠ 0 →
    ((s.encOf g).lines = 0 → exec (.encLineFault g l) s = .next ((((((s.setEnc g { s.encOf g with lines := l.toNat }).setFld
      (F.ENC_STATUS_LINE g) 1).log 0x0821 (0x20A8 + g) l.toNat).transient (.enc g) 2).encFaultHooks g))) ∧
    ((s.encOf g).lines ≠ 0 → Gives (.encLineFault g l) s (fun t => t.encOf g = { s.encOf g with lines := (s.encOf g).lines ||| l.toNat } ∧
      t.flag (F.ENC_STATUS_LINE g) = true ∧ SameMem s t ∧ RegsKept s t [Reg.ENC_STATUS g]))) ∧
  (∀ (s : State) (g : Fin 16), s.inUse (.enc g) = false → Gives (.encLineFaultEnd g) s (fun t => t.encOf g = { s.encOf g with lines := 0 } ∧
    t.flag (F.ENC_STATUS_LINE g) = false ∧ SameMem s t ∧ RegsKept s t [Reg.ENC_STATUS g])) ∧
  (∀ (s : State) (g : Fin 16) (u : State), s.inUse (.enc g) = true → u = (s.setEnc g { s.encOf g with lines := 0 }).setFld (F.ENC_STATUS_LINE g) 0 →
    exec (.encLineFaultEnd g) s = .next (u.encFaultHooks g)) ∧
  (∀ (s : State) (g : Fin 16),
    (s.flag (F.ENC_CFG_Z_QUAL g) = false → s.flag (F.ENC_IDX_HI_IDX_VALID g) = false → Gives (.encIndex g) s (fun t =>
      t.num (Reg.ENC_IDX_LO g) = s.num (Reg.ENC_ACC_LO g) ∧ t.fld (F.ENC_IDX_HI_IDX g) = s.fld (F.ENC_ACC_HI_ACC g) ∧
      t.flag (F.ENC_IDX_HI_IDX_VALID g) = true ∧ SameMem s t ∧ RegsKept s t [Reg.ENC_IDX_LO g, Reg.ENC_IDX_HI g])) ∧
    (s.flag (F.ENC_CFG_Z_QUAL g) = false → s.flag (F.ENC_IDX_HI_IDX_VALID g) = true → Gives (.encIndex g) s (fun t =>
      t.flag (F.ENC_STATUS_IDX_OVR g) = true ∧ SameMem s t ∧ RegsKept s t [Reg.ENC_STATUS g])) ∧
    (s.flag (F.ENC_CFG_Z_QUAL g) = true → ((s.encOf g).a && (s.encOf g).b) = false → exec (.encIndex g) s = .next s) ∧
    Gives (.encIdxRead g) s (fun t => t.bus = ⟨false, s.num (Reg.ENC_IDX_HI g)⟩ ∧ t.flag (F.ENC_IDX_HI_IDX_VALID g) = false ∧
      t.fld (F.ENC_IDX_HI_IDX g) = s.fld (F.ENC_IDX_HI_IDX g) ∧ SameMem s t ∧ RegsKept s t [Reg.ENC_IDX_HI g]))

/-- RCE_TOKEN, ROW_CLOSE, RECORD_START, RECORD_STOP, BLOCK_CLOSE, BLOCK_TIMEOUT, BLOCK_HASH_DONE, BLOCK_SIGNED, EXPORT_DATAGRAM, RETX_REQUEST
and RETX_SERVE complete as the clauses say; the clauses rest on R287 to R304. -/
def Obligations.RecordCommands : Prop :=
  (∀ (s : State) (link : Nat) (t : Token), (Tab.find s.rce.cfg.sels t.sig.toNat = none → exec (.rceToken link t) s = .next s) ∧
    (∀ e c u, Tab.find s.rce.cfg.sels t.sig.toNat = some e → s.check link e.subst t = (c, u) → c.good = true →
      u.rowClosed e.crew t.cseq.toNat = true → exec (.rceToken link t) s = .next (u.rceLate t.sig.toNat t.cseq.toNat))) ∧
  (∀ (s : State) (link : Nat) (t : Token) (e : RecSel) (r : State), Tab.find s.rce.cfg.sels t.sig.toNat = some e → t.ok = true →
    s.linkRetired link = false → stReserved t.st = false → s.rowClosed e.crew t.cseq.toNat = false →
    (∀ x ∈ (s.recCrew e.crew).rows, x.cseq = t.cseq.toNat → ∀ y ∈ x.toks, y.sig ≠ t.sig) → r = s.ensureRow e.crew t.cseq.toNat →
    exec (.rceToken link t) s = .next (((List.range 128).foldl (fun u k => u.trgToken k t)
      ((r.setRecCrew e.crew { r.recCrew e.crew with rows := (r.recCrew e.crew).rows.map (fun x =>
        if x.cseq = t.cseq.toNat then { x with toks := insTok t x.toks } else x) }).keepTok t)).envTokens t)) ∧
  (∀ (s : State) (sig q : Nat), (s.rceLate sig q).num Reg.RCE_LATE = satAdd 0xFFFFFFFF (s.num Reg.RCE_LATE) 1 ∧
    (s.rceLate sig q).flag F.RCE_STATUS_LATE = true ∧ SameMem s (s.rceLate sig q) ∧ (s.rceLate sig q).rce.chain = s.rce.chain) ∧
  (∀ (s : State) (m : Fin 8) (bad : List Nat), ((∀ x ∈ s.dueRows, x.2.1 ≠ m.val) → exec (.rowClose m bad) s = .next s) ∧
    (∀ pre d row post, s.dueRows = pre ++ (d, m.val, row) :: post → (∀ x ∈ pre, x.2.1 ≠ m.val) → exec (.rowClose m bad) s =
      .next ((pre ++ [(d, m.val, row)]).foldl (fun s x => s.closeRow x.2.1 x.2.2 bad) s))) ∧
  (∀ (s : State) (m q : Nat) (t : Stamp) (r : OpenRow), r ∈ (s.recCrew m).rows →
    (if r.due = none ∧ 64 * (s.fld (F.RCE_CREW_ROW_LAG m) : Int) ≤ seqDiff q r.cseq then { r with due := some s.time.cycle } else r) ∈
      ((s.rceCatch m q t).recCrew m).rows) ∧
  (∀ (s : State), (s.flag F.RCE_CTRL_RUN = true → Gives .recordStart s (fun t => t.flag F.RCE_CTRL_RUN = true ∧ t.rce = s.rce ∧ SameMem s t ∧
      RegsKept s t [Reg.RCE_CTRL])) ∧
    (s.flag F.RCE_CTRL_RUN = false → s.rce.chain = none → exec .recordStart s = .next (s.setFld F.RCE_CTRL_RUN 1).recStart) ∧
    (s.rce.chain = none → Gives .recordStop s (fun t => t.flag F.RCE_CTRL_RUN = false ∧ t.rce = s.rce ∧ SameMem s t ∧
      RegsKept s t [Reg.RCE_CTRL])) ∧
    (∀ c, s.rce.chain = some c → c.stop = none → (∀ m < 8, (s.recCrew m).rows = []) → Gives .recordStop s (fun t =>
      t.flag F.RCE_CTRL_RUN = false ∧ t.rce.chain = some { c with stop := some [], due := c.due || !c.isSeal } ∧ SameMem s t ∧
      RegsKept s t [Reg.RCE_CTRL]))) ∧
  (∀ (s : State) (c : Chain), s.rce.chain = some c →
    (c.due = true → s.blockReady c = true → exec .blockClose s = .next (s.closeBlock c)) ∧
    (c.due = false → exec .blockClose s = .next s) ∧ (s.blockReady c = false → exec .blockClose s = .next s) ∧
    (c.nrows = 0 ∨ s.time.cycle < c.since + 600000 * s.fld F.RCE_BLOCK_MS_BLOCK_MS → exec .blockTimeout s = .next s) ∧
    (c.nrows ≠ 0 → c.since + 600000 * s.fld F.RCE_BLOCK_MS_BLOCK_MS ≤ s.time.cycle → s.blockReady c = true → exec .blockTimeout s = .next (s.closeBlock { c with due := true })) ∧
    (c.nrows ≠ 0 → c.since + 600000 * s.fld F.RCE_BLOCK_MS_BLOCK_MS ≤ s.time.cycle → s.blockReady c = false → Gives .blockTimeout s (fun t => t.rce.chain = some { c with due := true } ∧ SameMem s t ∧
      RegsKept s t []))) ∧
  (∀ (s : State) (c : Chain), s.rce.closed = [] → c.isSeal = true → s.flag F.RCE_CTRL_RUN = false → ∃ b, b.id = c.id ∧ b.blkseq = c.blkseq ∧
    b.slot = c.slot ∧ b.hash = none ∧ (s.closeBlock c).rce.chain = none ∧ (s.closeBlock c).rce.closed = [b] ∧
    (s.closeBlock c).flag F.RCE_STATUS_RUNNING = false ∧ (s.closeBlock c).flag F.RCE_STATUS_RUN_CHG = true) ∧
  (∀ (s : State), (s.rce.closed = [] → exec .blockHashDone s = .next s) ∧
    (∀ b rest, s.rce.closed = b :: rest → Gives .blockHashDone s (fun t => t.rce.closed = rest ∧
      t.rce.boat.chain = some (b.id, b.blkseq, sha384 (s.rdList (ringAddr b.slot) 0x100000)) ∧ t.rce.chain = s.rce.chain ∧
      (∀ c, s.rce.chain = some c → c.id = b.id → c.blkseq = b.blkseq + 1 →
        SameMemOutside s t (ringAddr c.slot + 0x18) 48) ∧ (s.rce.chain = none → SameMem s t)))) ∧
  (∀ (s : State) (c : Chain) (b : Nat), s.rce.chain = some c → s.rce.closed = [] → c.await = some b →
    Gives (.blockSigned true) s (fun t => t.rce.chain = some { c with await := none, signed := true, due := c.due || c.isSeal } ∧
      SameMemOutside s t (ringAddr c.slot + 0x80) 96 ∧ RegsKept s t []) ∧
    Gives (.blockSigned false) s (fun t => t.rce.chain = some { c with await := none, signed := false, due := c.due || c.isSeal } ∧
      t.flag F.RCE_STATUS_SIGN_FAIL = true ∧ Logs s t 0x0916 0 (b % 2 ^ 32) ∧ SameMem s t ∧
      RegsKept s t [Reg.RCE_STATUS, Reg.EVL_LOST])) ∧
  (∀ (s : State), (s.rce.exp = [] → exec .exportDatagram s = .next s) ∧
    (∀ b rest h, s.flag F.RCE_CTRL_EXP_EN = true → s.rce.exp = b :: rest → b.hash = some h → Gives .exportDatagram s (fun t =>
      t.wire = s.wire ++ [.frame 1 (s.fragment 0 (s.rce.dgseq % 2 ^ 32) b.frag b.id b.blkseq b.slot h)] ∧ t.rce.dgseq = s.rce.dgseq + 1 ∧
      t.rce.exp = (if b.frag = 127 then rest else { b with frag := b.frag + 1 } :: rest) ∧ SameMem s t ∧
      RegsKept s t [Reg.RCE_STATUS, Reg.RCE_EXP_SLOT])) ∧
    (∀ b rest, s.rce.exp = b :: rest → b.hash = none → exec .exportDatagram s = .next s)) ∧
  (∀ (s : State) (dg : List Byte) (l : List Nat), l = dg.map BitVec.toNat → dg.length ≠ 64 →
    exec (.retxRequest dg) s = .next (s.retxRefuse (fieldAt l 8 8) (fieldAt l 0x10 8) (fieldAt l 0x18 4) 3)) ∧
  (∀ (s : State) (dg : List Byte) (l : List Nat), l = dg.map BitVec.toNat → dg.length = 64 → fieldAt l 0 4 = 0x514E4D41 → fieldAt l 4 4 = 1 →
    fieldAt l 0x1C 4 = 0 → fieldAt l 0x30 16 = 0 → fieldAt l 0x20 16 ≠ 0 →
    (s.rce.retx.length < 16 → Gives (.retxRequest dg) s (fun t =>
      t.rce.retx = s.rce.retx ++ [⟨fieldAt l 8 8, fieldAt l 0x10 8, fieldAt l 0x18 4, fieldAt l 0x20 16⟩] ∧ SameMem s t ∧ RegsKept s t [])) ∧
    (16 ≤ s.rce.retx.length → exec (.retxRequest dg) s =
      .next (s.retxRefuse (fieldAt l 8 8) (fieldAt l 0x10 8) (fieldAt l 0x18 4) 4))) ∧
  (∀ (s : State) (id seq slot reason : Nat), (s.retxRefuse id seq slot reason).flag F.RCE_STATUS_RETX_REF = true ∧
    Logs s (s.retxRefuse id seq slot reason) 0x0917 0 (reason + slot % 2 ^ 16 * 2 ^ 16) ∧ SameMem s (s.retxRefuse id seq slot reason) ∧
    RegsKept s (s.retxRefuse id seq slot reason) [Reg.RCE_STATUS, Reg.EVL_LOST]) ∧
  (∀ (s : State) (q : RetxReq) (rest : List RetxReq), s.rce.retx = q :: rest →
    (∀ c, s.rce.chain = some c → c.slot = q.slot → c.id = q.id → c.blkseq = q.blkseq → exec .retxServe s =
      .next ((s.setRce { s.rce with retx := rest }).retxRefuse q.id q.blkseq q.slot 2)) ∧
    (s.rce.chain = none → 28672 ≤ q.slot → exec .retxServe s = .next ((s.setRce { s.rce with retx := rest }).retxRefuse q.id q.blkseq q.slot 1)) ∧
    (∀ hdr, hdr = s.rdList (ringAddr q.slot) 0x20 → s.rce.chain = none → q.slot < 28672 → fieldAt hdr 0 4 = 0x424E4D41 →
      fieldAt hdr 8 8 = q.blkseq → fieldAt hdr 0x10 8 = q.id → Gives .retxServe s (fun t => t.rce = { s.rce with retx := rest } ∧
        SameMem s t ∧ RegsKept s t [Reg.RCE_RETX]))) ∧
  (∀ (s : State), s.rce.retx = [] → exec .retxServe s = .next s)

/-- TRIGGER_ARM_WRITE, CAPTURE_ARM, CAPTURE_DISARM, CAPTURE_FORCE, CAPTURE_RELEASE0, CAPTURE_RELEASE1 and CAPTURE_COMPLETE complete as the clauses say; the clauses rest
on R305 and R310 to R316: a set is armed in its lowest free buffer or refused by code, forced, released, disarmed and completed. -/
def Obligations.CaptureCommands : Prop :=
  (∀ (s : State) (c code : Nat), c < 64 → code < 8 → (s.capRefuse c code).fld (F.CAP_STATUS_REFUSE c) = code ∧
    (s.capRefuse c code).fld (F.CAP_STATUS_STATE c) = s.fld (F.CAP_STATUS_STATE c) ∧ (s.capRefuse c code).capOf c = s.capOf c ∧
    Logs s (s.capRefuse c code) 0x091A (0x9000 + c) code ∧ SameMem s (s.capRefuse c code) ∧
    RegsKept s (s.capRefuse c code) [Reg.CAP_STATUS c, Reg.EVL_LOST]) ∧
  (∀ (s : State) (c : Fin 64),
    (s.flag (F.CAP_CFG_EN c) = false → exec (.captureArm c) s = .next (s.capRefuse c 4)) ∧
    (s.flag (F.CAP_CFG_EN c) = true → s.fld (F.CAP_STATUS_STATE c) ≠ 0 → exec (.captureArm c) s = .next (s.capRefuse c 1)) ∧
    (s.flag (F.CAP_CFG_EN c) = true → s.fld (F.CAP_STATUS_STATE c) = 0 → s.fld (F.CAP_POST_POST c) = 0 →
      exec (.captureArm c) s = .next (s.capRefuse c 3)) ∧
    (s.flag (F.CAP_CFG_EN c) = true → s.fld (F.CAP_STATUS_STATE c) = 0 → s.fld (F.CAP_POST_POST c) ≠ 0 →
      s.capNslot c < s.fld (F.CAP_PRE_PRE c) + s.fld (F.CAP_POST_POST c) → exec (.captureArm c) s = .next (s.capRefuse c 2)) ∧
    (s.flag (F.CAP_CFG_EN c) = true → s.fld (F.CAP_STATUS_STATE c) = 0 → s.fld (F.CAP_POST_POST c) ≠ 0 →
      s.fld (F.CAP_PRE_PRE c) + s.fld (F.CAP_POST_POST c) ≤ s.capNslot c →
      (s.capFree c = none → exec (.captureArm c) s = .next (s.capRefuse c 5)) ∧
      (∀ b, s.capFree c = some b → Gives (.captureArm c) s (fun t => t.fld (F.CAP_STATUS_STATE c) = 1 ∧
        t.capOf c = { Cap.init with buf := b, post := s.fld (F.CAP_POST_POST c), armedAt := s.now.ns, lastDone := (s.capOf c).lastDone, prev := (s.capOf c).prev } ∧
        t.fld (F.CAP_PREV_PRE_VALID c) = 0 ∧ SameMem s t ∧ RegsKept s t [Reg.CAP_STATUS c, Reg.CAP_PREV c])))) ∧
  (∀ (s : State) (c b : Nat), s.capFree c = some b → b < 2 ∧ bit (s.fld (F.CAP_STATUS_HELD c)) b = false ∧
    (b = 1 → bit (s.fld (F.CAP_STATUS_HELD c)) 0 = true)) ∧
  (∀ (s : State) (c : Fin 64),
    (s.fld (F.CAP_STATUS_STATE c) = 1 → Gives (.captureDisarm c) s (fun t => t.fld (F.CAP_STATUS_STATE c) = 0 ∧ t.capOf c = s.capOf c ∧
      SameMem s t ∧ RegsKept s t [Reg.CAP_STATUS c])) ∧
    (s.fld (F.CAP_STATUS_STATE c) = 2 → Gives (.captureDisarm c) s (fun t => t.fld (F.CAP_STATUS_STATE c) = 0 ∧
      t.capOf c = { s.capOf c with lastDone := none } ∧ t.rdMem (s.capBase c + 0xFC) 4 = 1 ∧ RegsKept s t [Reg.CAP_STATUS c])) ∧
    (s.fld (F.CAP_STATUS_STATE c) = 0 ∨ s.fld (F.CAP_STATUS_STATE c) = 3 → exec (.captureDisarm c) s = .next s)) ∧
  (∀ (s : State) (c : Fin 64),
    (s.fld (F.CAP_STATUS_STATE c) = 1 → Gives (.captureForce c) s (fun t => t.fld (F.CAP_STATUS_STATE c) = 2 ∧
      t.capOf c = { s.capOf c with forced := true } ∧ SameMem s t ∧ RegsKept s t [Reg.CAP_STATUS c])) ∧
    (s.fld (F.CAP_STATUS_STATE c) ≠ 1 → exec (.captureForce c) s = .next s)) ∧
  (∀ (s : State) (c : Fin 64),
    (bit (s.fld (F.CAP_STATUS_HELD c)) 0 = false → exec (.captureRelease0 c) s = .next s) ∧
    (bit (s.fld (F.CAP_STATUS_HELD c)) 1 = false → exec (.captureRelease1 c) s = .next s) ∧
    (bit (s.fld (F.CAP_STATUS_HELD c)) 0 = true → s.fld (F.CAP_STATUS_STATE c) ≠ 3 → Gives (.captureRelease0 c) s (fun t =>
      bit (t.fld (F.CAP_STATUS_HELD c)) 0 = false ∧ t.capOf c = s.capOf c ∧ SameMem s t ∧ RegsKept s t [Reg.CAP_STATUS c])) ∧
    (bit (s.fld (F.CAP_STATUS_HELD c)) 1 = true → s.fld (F.CAP_STATUS_STATE c) = 3 → Gives (.captureRelease1 c) s (fun t =>
      bit (t.fld (F.CAP_STATUS_HELD c)) 1 = false ∧ t.fld (F.CAP_STATUS_STATE c) = 1 ∧ (t.capOf c).buf = 1 ∧
      (t.capOf c).post = (s.capOf c).post ∧ SameMem s t ∧ RegsKept s t [Reg.CAP_STATUS c, Reg.CAP_PREV c]))) ∧
  (∀ (s : State) (c : Fin 64), (s.fld (F.CAP_STATUS_STATE c) ≠ 2 → exec (.captureComplete c) s = .next s) ∧
    ((s.capOf c).trig = none → exec (.captureComplete c) s = .next s) ∧
    ((s.capOf c).written < (s.capOf c).post → exec (.captureComplete c) s = .next s) ∧
    (s.fld (F.CAP_STATUS_STATE c) = 2 → (s.capOf c).trig.isSome = true → (s.capOf c).post ≤ (s.capOf c).written →
      exec (.captureComplete c) s = .next (s.capComplete c))) ∧
  (∀ (s : State) (c : Nat) (x : Nat × Stamp × Nat), c < 64 → (s.capOf c).trig = some x → s.flag (F.CAP_CFG_AUTO c) = false →
    Tab.find s.rce.cfg.meas c = none → (s.capOf c).buf < 2 → (s.capComplete c).fld (F.CAP_STATUS_STATE c) = 0 ∧ (s.capComplete c).flag (F.CAP_STATUS_DONE c) = true ∧
    (s.capComplete c).num (Reg.CAP_COUNT c) = (s.num (Reg.CAP_COUNT c) + 1) % 2 ^ 32 ∧
    (s.capComplete c).fld (F.CAP_STATUS_LAST_BUF c) = (s.capOf c).buf ∧ (s.capComplete c).rdMem (s.capBase c + 0xFC) 4 = 1 ∧
    Logs s (s.capComplete c) 0x0919 (0x9000 + c) ((s.num (Reg.CAP_COUNT c) + 1) % 2 ^ 32) ∧
    RegsKept s (s.capComplete c) [Reg.CAP_COUNT c, Reg.CAP_STATUS c, Reg.EVL_LOST]) ∧
  (∀ (s : State) (g : Fin 4) (v : Word), Gives (.triggerArmWrite g v) s (fun t =>
    (∀ i < 32, t.rbit (Reg.RCE_TRG_ARM g) i = (if s.flag (F.TRG_CFG_EN (32 * g + i)) then bit v.toNat i else s.rbit (Reg.RCE_TRG_ARM g) i)) ∧
    (∀ i < 32, s.flag (F.TRG_CFG_EN (32 * g + i)) = true → bit v.toNat i = true → s.rbit (Reg.RCE_TRG_ARM g) i = false →
      t.trgOf (32 * g + i) = TrgHist.init) ∧ SameMem s t ∧ RegsKept s t [Reg.RCE_TRG_ARM g]))

/-- OUTPUT_TOKEN and PRODUCER_TIMEOUT at either kind of output, HEADROOM_MEASURE, COMPLIANCE_SET, COMPLIANCE_CLEAR, LOOP_LOW_TIMEOUT,
ALARM_NR_TIMEOUT, CLO_CLR, CLO_THERMAL_SHUTDOWN and CLO_THERMAL_RESUME complete as the clauses say; the clauses rest on R333 to R342. -/
def Obligations.CurrentLoopCommands : Prop :=
  (∀ (s : State) (n : Nat), n < 16 →
    (s.flag (F.CLO_CFG_EN n) = false ∨ s.oe = false ∨ s.inUse (.clo n) = false ∨ s.flag (F.CLO_STATUS_TSD n) = true →
      (s.cloDrive n).flag (F.CLO_STATUS_ENABLED n) = false ∧ (s.cloDrive n).fld (F.CLO_CODE_CODE n) = 0) ∧
    (s.flag (F.CLO_CFG_EN n) = true → s.oe = true → s.inUse (.clo n) = true → s.flag (F.CLO_STATUS_TSD n) = false →
      (∀ v, s.cloAlarm n = false → s.cloWant n = some v → (s.cloDrive n).flag (F.CLO_STATUS_ENABLED n) = true ∧
        (s.cloDrive n).flag (F.CLO_STATUS_ALARM n) = false ∧
        (s.cloDrive n).fld (F.CLO_CODE_CODE n) = dacCode (F32.clamp (s.cloLimits n).1 (s.cloLimits n).2 v)) ∧
      (s.cloAlarm n = true → (s.cloDrive n).flag (F.CLO_STATUS_ENABLED n) = true ∧ (s.cloDrive n).flag (F.CLO_STATUS_ALARM n) = true ∧
        (s.cloDrive n).fld (F.CLO_CODE_CODE n) = dacCode (if s.alarmHigh n then mA21_5 else mA3_5))) ∧
    RegsKept s (s.cloDrive n) [Reg.CLO_STATUS n, Reg.CLO_CODE n]) ∧
  (∀ (s : State) (link source : Nat) (subst : Word) (t : Token), t.ok = true → s.linkRetired link = false → stReserved t.st = false →
    F32.isFinite t.value = true → s.outCheck link source subst t = (t.value, t.st, s)) ∧
  (∀ (s : State) (o : Fin 80) (link : Nat) (t : Token) (echo : Bool), o.val < 16 →
    (s.flag (F.CLO_CFG_EN o) = false ∨ s.oe = false ∨ t.stray (s.fld (F.CLO_SRC_SIG o)) = true → exec (.outputToken o link t echo) s = .next s) ∧
    (∀ v st u, s.flag (F.CLO_CFG_EN o) = true → s.oe = true → t.stray (s.fld (F.CLO_SRC_SIG o)) = false → s.outCheck link (0x4000 + o) (s.rd (Reg.CLO_SUBST o)) t = (v, st, u) →
      (tokLate (s.cloOf o).tok t.cseq.toNat = true → exec (.outputToken o link t echo) s = .next (u.count (Reg.CLO_LATE o) 1)) ∧
      (tokLate (s.cloOf o).tok t.cseq.toNat = false → u.cloShut o st = true → exec (.outputToken o link t echo) s = .next u) ∧
      (tokLate (s.cloOf o).tok t.cseq.toNat = false → u.cloShut o st = false → exec (.outputToken o link t false) s =
        .next (((u.setClo o { s.cloOf o with tok := some (v, st, t.cseq.toNat), clampHi := F32.lt (u.cloLimits o).2 v, clampLo := F32.lt v (u.cloLimits o).1, strokes := 0 }).setFld
          (F.CLO_STATUS_STOPPED o) 0).cloDrive o)))) ∧
  (∀ (s : State) (o : Fin 80) (link : Nat) (t : Token) (echo : Bool) (n : Nat), 16 ≤ o.val → n = o.val - 16 →
    (s.vdrMode n ≠ 2 ∨ s.oe = false ∨ t.stray (s.fld (F.VDR_STATUS_SIG n)) = true → exec (.outputToken o link t echo) s = .next s) ∧
    (∀ x st u, s.vdrMode n = 2 → s.oe = true → t.stray (s.fld (F.VDR_STATUS_SIG n)) = false → s.outCheck link (0x4100 + n) 0 t = (x, st, u) →
      (tokLate (u.vdrOf n).tok t.cseq.toNat = true → exec (.outputToken o link t echo) s = .next u) ∧
      (tokLate (u.vdrOf n).tok t.cseq.toNat = false → exec (.outputToken o link t echo) s =
        .next ((u.setVdr n { u.vdrOf n with tok := some (x, st, t.cseq.toNat), clampHi := F32.lt hundred x, clampLo := F32.lt x 0, stopped := false, strokes := 0 }).vdrDrive n)))) ∧
  (∀ (s : State) (o : Fin 80), o.val < 16 →
    (s.flag (F.CLO_CFG_EN o) = true → s.oe = true → s.flag (F.CLO_STATUS_STOPPED o) = false → (s.cloOf o).tok ≠ none →
      s.fld (F.CLO_CFG_TMO o) ≤ (s.cloOf o).strokes → exec (.producerTimeout o) s =
      .next (((s.setFld (F.CLO_STATUS_STOPPED o) 1).log 0x0A16 (0x4000 + o) (s.fld (F.CLO_CFG_STOP o))).cloDrive o)) ∧
    (s.flag (F.CLO_STATUS_STOPPED o) = true ∨ (s.cloOf o).tok = none ∨ (s.cloOf o).strokes < s.fld (F.CLO_CFG_TMO o) → exec (.producerTimeout o) s = .next s)) ∧
  (∀ (s : State) (o : Fin 80) (n : Nat), 16 ≤ o.val → n = o.val - 16 → s.vdrMode n = 2 → s.oe = true → (s.vdrOf n).stopped = false →
    (s.vdrOf n).tok ≠ none → s.fld (F.VDR_STATUS_TMO n) ≤ (s.vdrOf n).strokes → s.fld (F.VDR_HEAT_STOP n) ≠ 1 → Gives (.producerTimeout o) s (fun t => t.vdrOf n = { s.vdrOf n with stopped := true } ∧
      Logs s t 0x0A16 (0x4100 + n) (s.fld (F.VDR_HEAT_STOP n)) ∧ SameMem s t ∧ RegsKept s t [Reg.EVL_LOST])) ∧
  (∀ (s : State) (n : Fin 16) (h m : Word), Gives (.headroomMeasure n h m) s (fun t => t.rd (Reg.CLO_HEAD n) = h ∧ t.rd (Reg.CLO_MEAS n) = m ∧
    (t.cloOf n).low = (if f32R h < 3 / 2 then (s.cloOf n).low + 1 else 0) ∧ (t.cloOf n).okay = (if 2 ≤ f32R h then (s.cloOf n).okay + 1 else 0) ∧
    SameMem s t ∧ RegsKept s t [Reg.CLO_HEAD n, Reg.CLO_MEAS n])) ∧
  (∀ (s : State) (n : Fin 16),
    (s.flag (F.CLO_STATUS_ENABLED n) = true → s.flag (F.CLO_STATUS_COMPLIANCE n) = false → 20 ≤ (s.cloOf n).low → exec (.complianceSet n) s =
      .next ((((s.setFld (F.CLO_STATUS_COMPLIANCE n) 1).setRbit Reg.CLO_FLT n true).log 0x0A10 (0x4000 + n) (s.headMv n)).cloDrive n)) ∧
    (s.flag (F.CLO_STATUS_COMPLIANCE n) = true ∨ (s.cloOf n).low < 20 → exec (.complianceSet n) s = .next s) ∧
    (s.flag (F.CLO_STATUS_COMPLIANCE n) = true → 20 ≤ (s.cloOf n).okay → exec (.complianceClear n) s =
      .next (((s.setFld (F.CLO_STATUS_COMPLIANCE n) 0).log 0x0A11 (0x4000 + n) (s.headMv n)).cloDrive n)) ∧
    ((s.cloOf n).okay < 20 → exec (.complianceClear n) s = .next s) ∧
    (s.flag (F.CLO_STATUS_ENABLED n) = true → s.flag (F.CLO_STATUS_ALARM n) = false → s.cloOff n = true → exec (.loopLowTimeout n) s =
      .next ((((s.setFld (F.CLO_STATUS_LOOP_LOW n) 1).setRbit Reg.CLO_FLT n true).log 0x0A12 (0x4000 + n)
        (ofSigned 16 (microamps (s.cloLevel n)) + ofSigned 16 (microamps (s.rd (Reg.CLO_MEAS n))) * 2 ^ 16)).cloDrive n)) ∧
    (s.flag (F.CLO_STATUS_ENABLED n) = false → exec (.complianceSet n) s = .next s ∧ exec (.loopLowTimeout n) s = .next s) ∧
    (s.cloOff n = false → exec (.loopLowTimeout n) s = .next s ∧ exec (.alarmNrTimeout n) s = .next s)) ∧
  (∀ (s : State) (n : Fin 16), (s.flag (F.CLO_STATUS_ALARM n) = true → s.flag (F.CLO_STATUS_ALARM_NR n) = false → s.cloOff n = true →
      Gives (.alarmNrTimeout n) s (fun t => t.flag (F.CLO_STATUS_ALARM_NR n) = true ∧ t.rbit Reg.CLO_FLT n = true ∧
        Logs s t 0x0A13 (0x4000 + n) ((if s.alarmHigh n then 21500 else 3500) + ofSigned 16 (microamps (s.rd (Reg.CLO_MEAS n))) * 2 ^ 16) ∧
        SameMem s t ∧ RegsKept s t [Reg.CLO_STATUS n, Reg.CLO_FLT, Reg.EVL_LOST])) ∧
    (s.flag (F.CLO_STATUS_ALARM n) = false → exec (.alarmNrTimeout n) s = .next s)) ∧
  (∀ (s : State) (mask : BitVec 16), Gives (.cloClr mask) s (fun t => (∀ n < 16, bit mask.toNat n = true →
      t.flag (F.CLO_STATUS_LOOP_LOW n) = false ∧ t.flag (F.CLO_STATUS_ALARM_NR n) = false) ∧
    (∀ n < 16, bit mask.toNat n = false → t.rd (Reg.CLO_STATUS n) = s.rd (Reg.CLO_STATUS n) ∧ t.rd (Reg.CLO_CODE n) = s.rd (Reg.CLO_CODE n)))) ∧
  (∀ (s : State) (n : Fin 16),
    (s.flag (F.CLO_STATUS_TSD n) = false → exec (.cloThermalShutdown n) s = .next (((((s.setFld (F.CLO_STATUS_TSD n) 1).setRbit Reg.CLO_FLT n
      true).log 0x0A14 (0x4000 + n) 0).transient (.clo n) 1).cloDrive n)) ∧
    (s.flag (F.CLO_STATUS_TSD n) = true → exec (.cloThermalShutdown n) s = .next s) ∧
    (∀ u, s.flag (F.CLO_STATUS_TSD n) = true → (∀ r, (s.cloOf n).resumed = some r → r + 1000 * cycPerMs ≤ s.time.cycle) →
      u = (s.setFld (F.CLO_STATUS_TSD n) 0).setClo n { s.cloOf n with resumed := some s.time.cycle } →
      exec (.cloThermalResume n false) s = .next (u.cloDrive n) ∧ exec (.cloThermalResume n true) s = .next ((u.transient (.clo n) 2).cloDrive n)) ∧
    (∀ r, (s.cloOf n).resumed = some r → s.time.cycle < r + 1000 * cycPerMs → ∀ e, exec (.cloThermalResume n e) s = .next s) ∧
    (s.flag (F.CLO_STATUS_TSD n) = false → ∀ e, exec (.cloThermalResume n e) s = .next s))

/-- HART_GO, HART_RESPONSE, HART_NO_RESPONSE, HART_BURST_RX and HART_BURST_READ complete as the clauses say; the clauses rest on R344; VALVE_HIT_END, VALVE_OVERCURRENT,
VALVE_RETRY_EXPIRE, VALVE_OVERTEMP, VALVE_COOLED, VALVE_OPEN_LOAD, COIL_SUPPLY_ABSENT, COIL_SUPPLY_RESTORED and HEATER_CYCLE_DECISION with
those of R346 to R348. -/
def Obligations.HartAndValveCommands : Prop :=
  (∀ (s : State) (n : Fin 16),
    (s.flag (F.HART_CFG_EN n) = true → s.flag (F.CLO_CFG_EN n) = true → s.inUse (.clo n) = true → s.flag (F.CLO_STATUS_TSD n) = false →
      s.flag (F.HART_RES_BUSY n) = false → Gives (.hartGo n) s (fun t => t.flag (F.HART_RES_BUSY n) = true ∧
        t.cloOf n = { s.cloOf n with retries := 0 } ∧ t.wire.length = s.wire.length + 1 ∧ SameMem s t ∧ RegsKept s t [Reg.HART_RES n])) ∧
    (s.flag (F.HART_CFG_EN n) = false ∨ s.flag (F.CLO_CFG_EN n) = false ∨ s.inUse (.clo n) = false ∨ s.flag (F.CLO_STATUS_TSD n) = true ∨
      s.flag (F.HART_RES_BUSY n) = true → Gives (.hartGo n) s (fun t => t.fld (F.HART_RES_RESULT n) = 3 ∧ t.rbit Reg.CLO_FLT (16 + n) = true ∧
        t.flag (F.HART_RES_BUSY n) = s.flag (F.HART_RES_BUSY n) ∧ SameMem s t ∧ RegsKept s t [Reg.HART_RES n, Reg.CLO_FLT]))) ∧
  (∀ (s : State) (n : Fin 16) (f : List Word), s.flag (F.HART_RES_BUSY n) = true →
    (Gives (.hartResponse n true f) s (fun t => t.flag (F.HART_RES_BUSY n) = false ∧ t.fld (F.HART_RES_RESULT n) = 0 ∧
      t.rbit Reg.CLO_FLT (16 + n) = true ∧ (∀ i, i < 68 → i < f.length → t.rd (Reg.HART_RSP n i) = f.getD i 0) ∧ SameMem s t)) ∧
    ((s.cloOf n).retries < s.fld (F.HART_CFG_RETRIES n) → Gives (.hartResponse n false f) s (fun t => t.flag (F.HART_RES_BUSY n) = true ∧
      t.cloOf n = { s.cloOf n with retries := (s.cloOf n).retries + 1 } ∧ SameMem s t ∧ RegsKept s t [])) ∧
    (s.fld (F.HART_CFG_RETRIES n) ≤ (s.cloOf n).retries → Gives (.hartResponse n false f) s (fun t => t.flag (F.HART_RES_BUSY n) = false ∧
      t.fld (F.HART_RES_RESULT n) = 2 ∧ SameMem s t ∧ RegsKept s t [Reg.HART_RES n, Reg.CLO_FLT, Reg.EVL_LOST])) ∧
    Gives (.hartNoResponse n) s (fun t => t.flag (F.HART_RES_BUSY n) = false ∧ t.fld (F.HART_RES_RESULT n) = 1 ∧ t.rbit Reg.CLO_FLT (16 + n) = true ∧
      Logs s t 0x0A17 (0x4000 + n) (1 + s.num (Reg.HART_TX n 0) % 256 * 2 ^ 8) ∧ SameMem s t ∧
      RegsKept s t [Reg.HART_RES n, Reg.CLO_FLT, Reg.EVL_LOST])) ∧
  (∀ (s : State) (n : Fin 16) (f : List Word),
    (s.flag (F.HART_RES_BUSY n) = false → exec (.hartResponse n true f) s = .next s ∧ exec (.hartNoResponse n) s = .next s) ∧
    Gives (.hartBurstRx n f) s (fun t => t.flag (F.HART_RES_BURST n) = true ∧
      t.flag (F.HART_RES_BURST_OVR n) = (s.flag (F.HART_RES_BURST n) || s.flag (F.HART_RES_BURST_OVR n)) ∧
      (∀ i, i < 68 → i < f.length → t.rd (Reg.HART_BURST n i) = f.getD i 0) ∧ SameMem s t) ∧
    Gives (.hartBurstRead n) s (fun t => t.flag (F.HART_RES_BURST n) = false ∧ t.bus = ⟨false, s.num (Reg.HART_BURST n 0)⟩ ∧ SameMem s t ∧
      RegsKept s t [Reg.HART_RES n])) ∧
  (∀ (s : State) (n : Nat), n < 64 →
    (s.vdrMode n = 1 → (s.vdrDrive n).vdrBit Reg.VDR_OUT n = (s.vdrBit Reg.VDR_CMD n && s.vdrCan n) ∧
      ((s.vdrBit Reg.VDR_CMD n && s.vdrCan n) = false → ((s.vdrDrive n).vdrOf n).phase = .off) ∧
      ((s.vdrBit Reg.VDR_CMD n && s.vdrCan n) = true → (s.vdrOf n).phase = .off → ((s.vdrDrive n).vdrOf n).phase =
        (if s.fld (F.VDR_HEAT_HIT n) = 0 then .hold else .hit) ∧ ((s.vdrDrive n).vdrOf n).since = s.time.cycle) ∧
      SameMem s (s.vdrDrive n) ∧ RegsKept s (s.vdrDrive n) [Reg.VDR_OUT (n / 32)]) ∧
    (s.vdrMode n = 0 → (s.vdrDrive n).vdrBit Reg.VDR_OUT n = false ∧ RegsKept s (s.vdrDrive n) [Reg.VDR_OUT (n / 32)])) ∧
  (∀ (s : State) (n : Fin 64),
    ((s.vdrOf n).phase = .hit → (s.vdrOf n).since + s.fld (F.VDR_HEAT_HIT n) * (100 * cycPerUs) ≤ s.time.cycle → Gives (.valveHitEnd n) s (fun t => t.vdrOf n = { s.vdrOf n with phase := .hold } ∧ SameMem s t ∧
      RegsKept s t [])) ∧
    ((s.vdrOf n).phase ≠ .hit ∨ s.time.cycle < (s.vdrOf n).since + s.fld (F.VDR_HEAT_HIT n) * (100 * cycPerUs) → exec (.valveHitEnd n) s = .next s) ∧
    (s.vdrBit Reg.VDR_OUT n = false → exec (.valveOvercurrent n) s = .next s) ∧
    (s.vdrBit Reg.VDR_OUT n = true → exec (.valveOvercurrent n) s = .next ((((((s.setVdr n { s.vdrOf n with
      tripped := true, trips := (s.vdrOf n).trips + 1, tripAt := s.time.cycle }).setVdrBit Reg.VDR_TRIP n true).log 0x0A20 (0x4100 + n)
        (min ((s.vdrOf n).trips + 1) 0xFFFFFFFF)).transient (.vdr n) 1).vdrDrive n))) ∧
    ((s.vdrOf n).tripped = true → (s.vdrOf n).tripAt + s.fld (F.VDR_CFG_RETRY_MS n) * cycPerMs ≤ s.time.cycle →
      exec (.valveRetryExpire n) s = .next ((s.setVdr n { s.vdrOf n with tripped := false, phase := .off }).vdrDrive n)) ∧
    ((s.vdrOf n).tripped = false ∨ s.time.cycle < (s.vdrOf n).tripAt + s.fld (F.VDR_CFG_RETRY_MS n) * cycPerMs →
      exec (.valveRetryExpire n) s = .next s) ∧
    ((s.vdrOf n).hot = false → exec (.valveOvertemp n) s = .next (((((s.setVdr n { s.vdrOf n with hot := true }).setVdrBit Reg.VDR_OT n
      true).log 0x0A22 (0x4100 + n) 0).transient (.vdr n) 2).vdrDrive n)) ∧
    ((s.vdrOf n).hot = true → exec (.valveOvertemp n) s = .next s) ∧
    ((s.vdrOf n).hot = true → exec (.valveCooled n) s = .next ((s.setVdr n { s.vdrOf n with hot := false, phase := .off }).vdrDrive n)) ∧
    ((s.vdrOf n).hot = false → exec (.valveCooled n) s = .next s)) ∧
  (∀ (s : State) (n : Fin 64),
    (s.vdrBit Reg.VDR_OUT n = true → ∀ o, exec (.valveOpenLoad n o) s = .next s) ∧
    (s.vdrBit Reg.VDR_OUT n = false → s.coilOn (n / 16) = true → s.vdrBit Reg.VDR_OPEN n = false → Gives (.valveOpenLoad n true) s (fun t =>
      t.vdrBit Reg.VDR_OPEN n = true ∧ Logs s t 0x0A21 (0x4100 + n) 0 ∧ SameMem s t ∧ RegsKept s t [Reg.VDR_OPEN (n / 32), Reg.EVL_LOST])) ∧
    (s.vdrBit Reg.VDR_OUT n = false → s.coilOn (n / 16) = true → s.vdrBit Reg.VDR_OPEN n = true → Gives (.valveOpenLoad n false) s (fun t =>
      t.vdrBit Reg.VDR_OPEN n = false ∧ SameMem s t ∧ RegsKept s t [Reg.VDR_OPEN (n / 32)]))) ∧
  (∀ (s : State) (g : Fin 4),
    (bit (s.fld F.VDR_GRP_GRP_OFF) g = false → exec (.coilSupplyAbsent g) s = .next ((((s.setRbit Reg.VDR_GRP g true).setRbit Reg.VDR_GRP
      (4 + g) true).log 0x0A23 (0x4100 + 16 * g) g).groupDrive g) ∧ exec (.coilSupplyRestored g) s = .next s) ∧
    (bit (s.fld F.VDR_GRP_GRP_OFF) g = true → exec (.coilSupplyAbsent g) s = .next s ∧ exec (.coilSupplyRestored g) s =
      .next (((List.range 16).foldl (fun u i => u.setVdr (16 * g + i) { u.vdrOf (16 * g + i) with phase := .off })
        ((s.setRbit Reg.VDR_GRP g false).setRbit Reg.VDR_GRP (4 + g) true)).groupDrive g))) ∧
  (∀ (s : State) (n : Fin 64) (d : Rat) (v : Word) (st : BitVec 4) (q : Nat), s.vdrMode n = 2 → s.oe = true →
    s.fld (F.CRS_STATUS_STATE (s.fld (F.VDR_HEAT_HCRS n))) = 2 ∨ s.fld (F.CRS_STATUS_STATE (s.fld (F.VDR_HEAT_HCRS n))) = 3 →
    (s.vdrOf n).cyc ≠ s.heatCycle n →
    (s.vdrOf n).tok = some (v, st, q) → d = f32R (F32.clamp 0 hundred v) →
    ((s.vdrOf n).acc + d < 100 → exec (.heaterCycleDecision n) s = .next (((s.setVdr n { s.vdrOf n with acc := (s.vdrOf n).acc + d, cyc := s.heatCycle n }).setVdrBit
      Reg.VDR_CMD n false).vdrDrive n)) ∧
    (100 ≤ (s.vdrOf n).acc + d → exec (.heaterCycleDecision n) s = .next (((s.setVdr n { s.vdrOf n with
      acc := (s.vdrOf n).acc + d - 100, cyc := s.heatCycle n }).setVdrBit Reg.VDR_CMD n true).vdrDrive n))) ∧
  (∀ (s : State) (n : Fin 64), s.vdrMode n ≠ 2 ∨ s.oe = false ∨ s.heatFires n = false ∨ (s.vdrOf n).cyc = s.heatCycle n →
    exec (.heaterCycleDecision n) s = .next s)

/-- CAN_FRAME_RX, CAN_RXB_READ_WORD0, CAN_RXB_READ_LAST, CAN_RXB_REL, CAN_RXF_ACK, CAN_TXJ_ACK, CAN_BUS_ERROR, CAN_RECOVER, CAN_RECOVERY_DONE,
CAN_INTEGRATION_DONE, CAN_SUSPEND_END and CAN_TRANSCEIVER_FAULT complete as the clauses say; the clauses rest on R360 to R364 and R368 to R373. -/
def Obligations.CanReceiveAndErrorCommands : Prop :=
  (∀ (s : State) (n : Fin 8) (f : CanFrame) (t : Stamp) (u : State), s.canUp n = true → s.fld (F.CAN_CTRL_MODE n) ≠ 2 →
    f.fdf = false ∨ s.flag (F.CAN_CTRL_FD_EN n) = true → (s.canOf n).rec_ ≤ 127 →
    u = (s.setCan n { s.canOf n with rec_ := (s.canOf n).rec_ - 1 }).errState n → (f.rtr && u.flag (F.CAN_CTRL_RTR_REJ n)) = false →
    (∀ idx k, u.canFilterOf n f = (idx, .fifo k) → exec (.canFrameRx n f t) s = .next ((u.fifoStore n k (rxElem f idx t)).rxMapped n idx f)) ∧
    (∀ idx i, u.canFilterOf n f = (idx, .buffer i) → exec (.canFrameRx n f t) s = .next ((u.bufStore n i (rxElem f idx t)).rxMapped n idx f)) ∧
    (∀ idx, u.canFilterOf n f = (idx, .discard) ∨ u.canFilterOf n f = (idx, .reject) → exec (.canFrameRx n f t) s = .next u)) ∧
  (∀ (s : State) (n : Fin 8) (f : CanFrame) (t : Stamp), s.canUp n = true → s.fld (F.CAN_CTRL_MODE n) ≠ 2 → f.fdf = true →
    s.flag (F.CAN_CTRL_FD_EN n) = false → exec (.canFrameRx n f t) s =
      .next ((s.setCan n { s.canOf n with rec_ := (s.canOf n).rec_ + 1 }).errState n)) ∧
  (∀ (s : State) (n : Fin 8) (f : CanFrame) (t : Stamp), s.canUp n = false ∨ s.fld (F.CAN_CTRL_MODE n) = 2 → exec (.canFrameRx n f t) s = .next s) ∧
  (∀ (s : State) (n f e : Nat) (ws : List Nat), n < 8 → f < 2 → ws.length = 21 → s.flag (F.RXF_STATUS_FULL n f) = false →
    e = s.fld (F.RXF_STATUS_PUT n f) → (∀ w < 21, (s.fifoStore n f ws).num (Reg.CAN_RXF n f e w) = ws.getD w 0 % 2 ^ 32) ∧
    (s.fifoStore n f ws).fld (F.RXF_STATUS_PUT n f) = (e + 1) % 32 ∧ (s.fifoStore n f ws).fld (F.RXF_STATUS_GET n f) = s.fld (F.RXF_STATUS_GET n f) ∧
    (s.fifoStore n f ws).fld (F.RXF_STATUS_FILL n f) = (s.fld (F.RXF_STATUS_FILL n f) + 1) % 32 ∧
    (s.fifoStore n f ws).flag (F.RXF_STATUS_FULL n f) = (s.fld (F.RXF_STATUS_FILL n f) + 1 == 32) ∧
    (s.fifoStore n f ws).rbit (Reg.CAN_IRQ n) (1 + f) = true ∧ SameMem s (s.fifoStore n f ws)) ∧
  (∀ (s : State) (n i : Nat) (ws : List Nat), n < 8 → i < 64 → ws.length = 21 → s.rxbBit Reg.RXB_LOCK n i = false →
    (∀ w < 21, (s.bufStore n i ws).num (Reg.CAN_RXB n i w) = ws.getD w 0 % 2 ^ 32) ∧ (s.bufStore n i ws).rxbBit Reg.RXB_NEW n i = true ∧
    (s.rxbBit Reg.RXB_NEW n i = true → (s.bufStore n i ws).rxbBit Reg.RXB_OVW n i = true) ∧
    (s.bufStore n i ws).rbit (Reg.CAN_IRQ n) 0 = true ∧ SameMem s (s.bufStore n i ws)) ∧
  (∀ (s : State) (n : Fin 8) (i : Fin 64),
    (s.rxbBit Reg.RXB_NEW n i = true → Gives (.canRxbReadWord0 n i) s (fun t => t.rxbBit Reg.RXB_NEW n i = false ∧ t.rxbBit Reg.RXB_LOCK n i = true ∧
      t.bus = ⟨false, s.num (Reg.CAN_RXB n i 0)⟩ ∧ SameMem s t ∧ RegsKept s t [Reg.RXB_NEW n (i / 32), Reg.RXB_LOCK n (i / 32)])) ∧
    (s.rxbBit Reg.RXB_NEW n i = false → s.rxbBit Reg.RXB_LOCK n i = false → Gives (.canRxbReadWord0 n i) s (fun t => t.bus = ⟨false, 0⟩ ∧ SameMem s t ∧
      RegsKept s t [])) ∧
    (s.rxbBit Reg.RXB_LOCK n i = true → Gives (.canRxbReadLast n i) s (fun t => t.bus = ⟨false, s.rxbView n i (s.rxbLast n i)⟩ ∧
      t.rxbBit Reg.RXB_LOCK n i = false ∧ (∀ w < 21, t.num (Reg.CAN_RXB n i w) = 0) ∧ SameMem s t)) ∧
    (s.rxbBit Reg.RXB_LOCK n i = false → Gives (.canRxbReadLast n i) s (fun t => t.bus = ⟨false, s.rxbView n i (s.rxbLast n i)⟩ ∧ SameMem s t ∧
      RegsKept s t []))) ∧
  (∀ (s : State) (n : Fin 8) (g : Fin 2) (mask : Word), Gives (.canRxbRel n g mask) s (fun t =>
    (∀ k < 32, bit mask.toNat k = true → t.rxbBit Reg.RXB_LOCK n (32 * g + k) = false) ∧
    (∀ k < 32, bit mask.toNat k = false → t.rxbBit Reg.RXB_LOCK n (32 * g + k) = s.rxbBit Reg.RXB_LOCK n (32 * g + k)) ∧ SameMem s t)) ∧
  (∀ (s : State) (a i get fill : Nat), get = s.fld ⟨a, 5, 5⟩ → fill = (if s.fld ⟨a, 15, 1⟩ = 1 then 32 else s.fld ⟨a, 0, 5⟩) → i < 32 →
    ((i + 32 - get) % 32 + 1 ≤ fill → (s.ringAck a i).fld ⟨a, 5, 5⟩ = (i + 1) % 32 ∧ (s.ringAck a i).fld ⟨a, 15, 1⟩ = 0 ∧
      (s.ringAck a i).fld ⟨a, 0, 5⟩ = fill - ((i + 32 - get) % 32 + 1) ∧ (s.ringAck a i).fld ⟨a, 10, 5⟩ = s.fld ⟨a, 10, 5⟩ ∧
      RegsKept s (s.ringAck a i) [a]) ∧ (fill < (i + 32 - get) % 32 + 1 → s.ringAck a i = s)) ∧
  (∀ (s : State) (n : Fin 8) (f : Fin 2) (i : Fin 32), exec (.canRxfAck n f i) s = .next (s.ringAck (Reg.RXF_STATUS n f) i) ∧
    exec (.canTxjAck n i) s = .next (s.ringAck (Reg.TXJ_STATUS n) i)) ∧
  (∀ (s : State) (n : Fin 8) (e : CanErr) (sof : Option Stamp), s.canUp n = false → exec (.canBusError n e sof) s = .next s) ∧
  (∀ (s : State) (n : Fin 8), s.canUp n = true →
    exec (.canBusError n .tx8 none) s = .next ((s.setCan n { s.canOf n with tec := (s.canOf n).tec + 8 }).errState n) ∧
    exec (.canBusError n .tx0 none) s = .next ((s.setCan n (s.canOf n)).errState n) ∧
    exec (.canBusError n .rx1 none) s = .next ((s.setCan n { s.canOf n with rec_ := (s.canOf n).rec_ + 1 }).errState n) ∧
    exec (.canBusError n .rx8 none) s = .next ((s.setCan n { s.canOf n with rec_ := (s.canOf n).rec_ + 8 }).errState n)) ∧
  (∀ (s : State) (n : Nat), n < 8 → (s.canOf n).tec ≤ 255 → s.fld (F.CAN_STATUS_STATE n) ≤ 1 →
    (128 ≤ (s.canOf n).tec ∨ 128 ≤ (s.canOf n).rec_ → (s.errState n).fld (F.CAN_STATUS_STATE n) = 1) ∧
    ((s.canOf n).tec < 128 → (s.canOf n).rec_ < 128 → (s.errState n).fld (F.CAN_STATUS_STATE n) = 0) ∧
    (s.errState n).fld (F.CAN_STATUS_TEC n) = min 255 (s.canOf n).tec ∧ (s.errState n).fld (F.CAN_STATUS_REC n) = min 127 (s.canOf n).rec_ ∧
    (s.errState n).flag (F.CAN_STATUS_EW n) = (decide (96 ≤ (s.canOf n).tec) || decide (96 ≤ (s.canOf n).rec_))) ∧
  (∀ (s : State) (n : Fin 8),
    (s.fld (F.CAN_STATUS_STATE n) = 2 → (s.canOf n).recov = none →
      Gives (.canRecover n) s (fun t => t.canOf n = { s.canOf n with recov := some s.time.cycle } ∧ SameMem s t ∧ RegsKept s t [])) ∧
    (s.fld (F.CAN_STATUS_STATE n) ≠ 2 → exec (.canRecover n) s = .next s ∧ exec (.canRecoveryDone n) s = .next s) ∧
    (s.fld (F.CAN_STATUS_STATE n) = 2 → (∀ r, (s.canOf n).recov = some r → exec (.canRecover n) s = .next s ∧
      (s.time.cycle < r + 1408 * s.canBit n → exec (.canRecoveryDone n) s = .next s))) ∧
    (∀ r, s.fld (F.CAN_STATUS_STATE n) = 2 → (s.canOf n).recov = some r → r + 1408 * s.canBit n ≤ s.time.cycle → (s.canOf n).lead.isSome = true → Gives (.canRecoveryDone n) s (fun t =>
      t.fld (F.CAN_STATUS_STATE n) = 0 ∧ t.canOf n = { s.canOf n with tec := 0, rec_ := 0, recov := none } ∧ t.fld (F.CAN_STATUS_TEC n) = 0 ∧
      t.fld (F.CAN_STATUS_REC n) = 0 ∧ t.flag (F.CAN_STATUS_EW n) = false ∧ t.rbit (Reg.CAN_IRQ n) 9 = true ∧ SameMem s t ∧
      RegsKept s t [Reg.CAN_STATUS n, Reg.CAN_IRQ n])) ∧
    (s.fld (F.CAN_STATUS_STATE n) = 3 → s.flag (F.CAN_CTRL_EN n) = true → s.inUse (.can n) = true → Gives (.canIntegrationDone n) s (fun t =>
      t.fld (F.CAN_STATUS_STATE n) = 0 ∧ SameMem s t ∧ RegsKept s t [Reg.CAN_STATUS n])) ∧
    (s.fld (F.CAN_STATUS_STATE n) ≠ 3 → exec (.canIntegrationDone n) s = .next s) ∧
    (∀ r, (s.canOf n).suspend = some r → (r + 8 * s.canBit n ≤ s.time.cycle →
      Gives (.canSuspendEnd n) s (fun t => t.canOf n = { s.canOf n with suspend := none } ∧ SameMem s t ∧ RegsKept s t [])) ∧
      (s.time.cycle < r + 8 * s.canBit n → exec (.canSuspendEnd n) s = .next s))) ∧
  (∀ (s : State) (n : Fin 8), (n.val < 4 → exec (.canTransceiverFault n) s = .next (s.canHealth n (fun u => u.transient (.can n) 2))) ∧
    (4 ≤ n.val → exec (.canTransceiverFault n) s = .next s))

/-- CAN_TX_REQUEST, CAN_TX_CANCEL, CAN_TXC_APPEND, CAN_TX_COMPLETE, CAN_ARBITRATION_LOST and CAN_TX_MAP_TOKEN complete as the clauses say; the clauses rest on R365
to R368 and R375: requests are checked, ordered, chained, sent, withdrawn and filled from tokens. -/
def Obligations.CanTransmitCommands : Prop :=
  (∀ (s : State) (n : Fin 8) (mask : Word), exec (.canTxRequest n mask) s = .next (((List.range 32).filter (fun b => bit mask.toNat b)).foldl
    (fun u b => if u.txLinked n b || u.txMapped n b || !u.txElemOk n b || !u.inUse (.can n) then
        (if u.txPend n b && !u.txLinked n b then u else u.setRbit (Reg.CAN_IRQ n) 17 true)
      else if u.txPend n b then u else u.txRequest n b) s)) ∧
  (∀ (s : State) (n : Fin 8) (b : Fin 32), s.txLinked n b = false → s.txMapped n b = false → s.txElemOk n b = true → s.inUse (.can n) = true →
    s.txPend n b = false → Gives (.canTxRequest n (BitVec.ofNat 32 (2 ^ b.val))) s (fun t => t.txPend n b = true ∧
      Tab.find (t.canOf n).reqAt b = some s.now.units ∧ SameMem s t ∧ RegsKept s t [Reg.TXB_PEND n])) ∧
  (∀ (s : State) (n : Fin 8) (b : Fin 32) (sof : Option Stamp),
    (s.txPend n b = false → exec (.canTxCancel n (BitVec.ofNat 32 (2 ^ b.val)) sof) s = .next s) ∧
    (s.txPend n b = true → exec (.canTxCancel n (BitVec.ofNat 32 (2 ^ b.val)) none) s = .next (s.txCancelled n b)) ∧
    (∀ t, s.txPend n b = true → s.onBus n t = some b.val → (s.canOf n).canc.contains b.val = false →
      exec (.canTxCancel n (BitVec.ofNat 32 (2 ^ b.val)) (some t)) s = .next (s.setCan n { s.canOf n with canc := b.val :: (s.canOf n).canc }))) ∧
  (∀ (s : State) (n b : Nat), n < 8 → b < 32 → (s.canOf n).held = [] → (s.canOf n).lead ≠ some b →
    (s.txCancelled n b).txPend n b = false ∧ (s.txCancelled n b).rbit (Reg.TXB_CANCELLED n) b = true ∧
    (s.txCancelled n b).rbit (Reg.CAN_IRQ n) 4 = true ∧ b ∉ ((s.txCancelled n b).canOf n).chain ∧ b ∉ ((s.txCancelled n b).canOf n).canc ∧
    SameMem s (s.txCancelled n b) ∧ RegsKept s (s.txCancelled n b) [Reg.TXB_PEND n, Reg.TXB_CANCELLED n, Reg.CAN_IRQ n, Reg.TXC_STATUS n]) ∧
  (∀ (s : State) (n : Fin 8) (b : Fin 32),
    (s.flag (F.CAN_CTRL_CHAIN_EN n) = false → exec (.canTxcAppend n b) s = .next s) ∧
    (s.flag (F.CAN_CTRL_CHAIN_EN n) = true → s.txPend n b = true ∨ s.txMapped n b = true ∨ s.txLinked n b = true ∨ s.txElemOk n b = false ∨
      s.inUse (.can n) = false → Gives (.canTxcAppend n b) s (fun t => t.rbit (Reg.CAN_IRQ n) 17 = true ∧ t.canOf n = s.canOf n ∧ SameMem s t ∧
        RegsKept s t [Reg.CAN_IRQ n])) ∧
    (s.flag (F.CAN_CTRL_CHAIN_EN n) = true → s.txPend n b = false → s.txMapped n b = false → s.txLinked n b = false → s.txElemOk n b = true →
      s.inUse (.can n) = true → (s.canOf n).chain.length < 32 → Gives (.canTxcAppend n b) s (fun t => (t.canOf n).chain = (s.canOf n).chain ++ [b.val] ∧
        t.txPend n b = true ∧ t.fld (F.TXC_STATUS_COUNT n) = (s.canOf n).chain.length + 1 ∧ t.fld (F.TXC_STATUS_TAIL n) = b.val ∧
        SameMem s t ∧ RegsKept s t [Reg.TXB_PEND n, Reg.TXC_STATUS n]))) ∧
  (∀ (s : State) (n b : Nat) (l : List Nat), s.firstRanked n l = some b → b ∈ l ∧ ∀ x ∈ l, s.txRank n b ≤ s.txRank n x) ∧
  (∀ (s : State) (n : Fin 8) (t : Stamp), s.canUp n = false ∨ s.fld (F.CAN_CTRL_MODE n) = 1 ∨ (s.canOf n).suspend ≠ none → s.onBus n t = none) ∧
  (∀ (s : State) (n : Fin 8) (t : Stamp), (s.onBus n t = none → exec (.canTxComplete n t) s = .next s) ∧
    (∀ b w u v, s.onBus n t = some b → (s.canOf n).boAt = none → w = (if bit (s.txw n b 1) 10 then s.journal n b t else s) →
      u = ((w.txEnd n b).setRbit (Reg.TXB_DONE n) b true).setRbit (Reg.CAN_IRQ n) 3 true →
      (u.flag (F.CAN_CTRL_TDC_EN n) && (s.txFrame n b).fdf && (s.txFrame n b).brs) = false →
      ∀ sus, sus = (if u.fld (F.CAN_STATUS_STATE n) = 1 then some u.time.cycle else none) →
      v = (u.setCan n { u.canOf n with tec := (u.canOf n).tec - 1, suspend := sus }).errState n →
      exec (.canTxComplete n t) s = .next (if v.fld (F.CAN_CTRL_MODE n) = 2 then v.canAccept n (s.txFrame n b) t else v))) ∧
  (∀ (s : State) (n : Fin 8) (t : Stamp), (s.onBus n t = none → exec (.canArbitrationLost n t) s = .next s) ∧
    (∀ b, s.onBus n t = some b → (s.canOf n).boAt = none →
      (s.flag (F.CAN_CTRL_DAR n) = true → exec (.canArbitrationLost n t) s = .next (s.txCancelled n b)) ∧
      (s.flag (F.CAN_CTRL_DAR n) = false → (s.canOf n).canc.contains b = false → exec (.canArbitrationLost n t) s = .next (s.heldWrite n b)))) ∧
  (∀ (s : State) (n b : Nat), (s.canOf n).held = [] → (s.heldWrite n b).canOf n = s.canOf n ∧ RegsKept s (s.heldWrite n b) [] ∧ SameMem s (s.heldWrite n b)) ∧
  (∀ (s : State) (n : Fin 8) (t : Stamp), s.canUp n = false → exec (.canTxComplete n t) s = .next s ∧ exec (.canArbitrationLost n t) s = .next s) ∧
  (∀ (s : State) (n : Fin 8) (i : Fin 64) (link : Nat) (t : Token) (sof : Option Stamp),
    (bitsOf (s.rd (Reg.CAN_TXMAP n i 0)) 31 1 = 0 ∨ bitsOf (s.rd (Reg.CAN_TXMAP n i 0)) 0 12 ≠ t.sig.toNat →
      exec (.canTxMapToken n i link t sof) s = .next s) ∧
    (bitsOf (s.rd (Reg.CAN_TXMAP n i 0)) 31 1 = 1 → bitsOf (s.rd (Reg.CAN_TXMAP n i 0)) 0 12 = t.sig.toNat → t.ok = true → s.linkRetired link = false →
      stReserved t.st = false → F32.isFinite t.value = true → bitsOf (s.rd (Reg.CAN_TXMAP n i 0)) 19 3 = 0 →
      bitsOf (s.rd (Reg.CAN_TXMAP n i 0)) 18 1 = 0 → bitsOf (s.rd (Reg.CAN_TXMAP n i 0)) 17 1 = 0 → ∀ b o, b = bitsOf (s.rd (Reg.CAN_TXMAP n i 0)) 12 5 →
      o = bitsOf (s.rd (Reg.CAN_TXMAP n i 0)) 22 6 → Gives (.canTxMapToken n i link t none) s (fun u =>
        u.fld ⟨Reg.CAN_TXB n b (4 + o / 4), 8 * (o % 4), 8⟩ = mapRaw 0 t.value (s.rd (Reg.CAN_TXMAP n i 1)) (s.rd (Reg.CAN_TXMAP n i 2)) ∧
        SameMem s u ∧ RegsKept s u [Reg.CAN_TXB n b (4 + o / 4)])))

/-- ETH_FRAME_TX, PRP_SUPERVISION_SEND, QBV_GATE_INTERVAL, ETH_TXTS_POP, ETH_FRX_ACK, ETH_FTX_GO, ETH_FRAME_RX, LAN_DOWN, ETH_LINK_LOSS,
ETH_LINK_UP and ETH_KR_TRAINING_FAIL complete as the clauses say; the clauses rest on R380 to R387, R394 and R397. -/
def Obligations.EthernetCommands : Prop :=
  (∀ (s : State) (p : Fin 3) (cls : Fin 4) (addrs pay : List Byte) (ty : BitVec 16) (l : List Nat),
    l = addrs.map BitVec.toNat ++ s.classTag cls ++ beBytes 2 ty.toNat ++ pay.map BitVec.toNat →
    exec (.ethFrameTx p cls addrs ty pay) s = .next (s.pairSend (2 * p) l none)) ∧
  (∀ (s : State) (p : Fin 3), ((s.prpOf p).sent = none ∨ (∃ t, (s.prpOf p).sent = some t ∧ t + s.fld (F.ETH_PRP_LIFE_MS (2 * p.val)) * cycPerMs ≤ s.time.cycle) →
      exec (.prpSupervisionSend p) s = .next ((s.setPrp p { s.prpOf p with sent := some s.time.cycle }).pairSend (2 * p)
        (List.replicate 12 0 ++ [0x88, 0xFB]) none)) ∧
    (∀ t, (s.prpOf p).sent = some t → s.time.cycle < t + s.fld (F.ETH_PRP_LIFE_MS (2 * p.val)) * cycPerMs → exec (.prpSupervisionSend p) s = .next s)) ∧
  (∀ (s : State) (p : Fin 3) (l : List Nat) (slot : Option Nat), linkLocal (ethType l) = false → ∀ t, t = s.pairSend (2 * p) l slot →
    (t.prpOf p).seq = ((s.prpOf p).seq + 1) % 2 ^ 16 ∧ (t.prpOf p).dup = (s.prpOf p).dup ∧ SameMem s t) ∧
  (∀ (s : State) (n q : Nat) (l : List Nat) (slot : Option Nat), (s.ethUp n = false → s.portSend n q l slot = s) ∧
    (s.ethUp n = true → (s.ethOf n).wait = [] → s.fits n q l.length = true → s.portSend n q l slot = s.ethEmit n l) ∧
    (s.ethUp n = true → s.fits n q l.length = false → (s.portSend n q l slot).wire = s.wire ∧
      ((s.portSend n q l slot).ethOf n).wait = (s.ethOf n).wait ++ [⟨q, l, slot⟩])) ∧
  (∀ (s : State) (n : Nat) (l : List Nat), n < 6 → s.flag (F.ETH_CTRL_PROTECT n) = false → ethType l ≠ 0x88F7 → ∀ t, t = s.ethEmit n l →
    t.wire = s.wire ++ [.frame (0xE000 + n) l] ∧ t.num (Reg.ETH_CNT_TXF n) = satAdd 0xFFFFFFFF (s.num (Reg.ETH_CNT_TXF n)) 1 ∧ SameMem s t ∧
    RegsKept s t [Reg.ETH_CNT_TXF n]) ∧
  (∀ (s : State) (n : Fin 4), ((s.ethOf n).wait = [] → exec (.qbvGateInterval n) s = .next s) ∧
    (∀ w, (s.ethOf n).wait = [w] → w.queue < 8 → s.fits n w.queue w.bytes.length = true → exec (.qbvGateInterval n) s =
      .next ((s.setEth n { s.ethOf n with wait := [] }).ethEmit n w.bytes)) ∧
    (∀ w, (s.ethOf n).wait = [w] → w.queue < 8 → s.fits n w.queue w.bytes.length = false → exec (.qbvGateInterval n) s = .next s)) ∧
  (∀ (s : State) (n : Fin 6), Gives (.ethTxtsPop n) s (fun t => t.bus = ⟨false, s.num (Reg.ETH_TXTS n)⟩ ∧
    t.ethOf n = { s.ethOf n with txts := (s.ethOf n).txts.drop 1 } ∧ ((s.ethOf n).txts.length ≤ 1 → t.num (Reg.ETH_TXTS n) = 0) ∧
    (∀ x y m q l, (s.ethOf n).txts = x :: (y, m, q) :: l → m < 16 → q < 2 ^ 16 → t.num (Reg.ETH_TXTS n) = 2 ^ 31 + m * 2 ^ 16 + q ∧
      t.rd (Reg.ETH_TXTS_NSEC n) = BitVec.ofNat 32 y.w1) ∧
    SameMem s t ∧ RegsKept s t [Reg.ETH_TXTS n, Reg.ETH_TXTS_SEC n, Reg.ETH_TXTS_NSEC n, Reg.ETH_TXTS_HI n])) ∧
  (∀ (s : State) (n : Fin 6) (i : Fin 16), ((s.ethOf n).rx.find? (fun x => x.1 == i.val) = none → exec (.ethFrxAck n i) s = .next s) ∧
    (∀ x, (s.ethOf n).rx.find? (fun x => x.1 == i.val) = some x → Gives (.ethFrxAck n i) s (fun t =>
      (t.ethOf n).rx = (s.ethOf n).rx.filter (fun y => y.1 != i.val) ∧
      (∀ j, j < x.2 → t.rbit (Reg.ETH_FRX_STATUS n) ((x.1 + j) % 16) = false) ∧ SameMem s t ∧ RegsKept s t [Reg.ETH_FRX_STATUS n]))) ∧
  (∀ (s : State) (n : Fin 6) (i : Fin 8) (len : Nat) (bytes : List Nat), len = s.num (Reg.ETH_FTX n i 0) % 2 ^ 14 →
    bytes = (List.range (512 * spanOfFrame len)).flatMap (fun w => leBytes 4 (s.num (Reg.ETH_FTX n (i + w / 512) (w % 512)))) →
    (8 < i + spanOfFrame len ∨ (s.ethOf n).wait.any (fun w => w.slot == some i.val) = true → exec (.ethFtxGo n (BitVec.ofNat 8 (2 ^ i.val))) s =
      .next (s.count (Reg.ETH_CNT_FRX_DROP n) 1)) ∧
    (i + spanOfFrame len ≤ 8 → (s.ethOf n).wait.any (fun w => w.slot == some i.val) = false →
      exec (.ethFtxGo n (BitVec.ofNat 8 (2 ^ i.val))) s = .next (s.pairSend n ((bytes.drop 16).take len) (some i.val)))) ∧
  (∀ (s : State) (n : Fin 6) (bytes : List Byte) (l : List Nat) (fcs : Bool) (sa : Option (Fin 8 × Nat)) (st : Stamp),
    l = bytes.map BitVec.toNat →
    (s.ethHears n = false ∨ 9216 < l.length → exec (.ethFrameRx n bytes fcs sa st) s = .next s) ∧
    (s.ethHears n = true → l.length ≤ 9216 → Gives (.ethFrameRx n bytes false sa st) s (fun t =>
      t.num (Reg.ETH_CNT_FCS n) = satAdd 0xFFFFFFFF (s.num (Reg.ETH_CNT_FCS n)) 1 ∧ SameMem s t ∧ RegsKept s t [Reg.ETH_CNT_FCS n])) ∧
    (s.ethHears n = true → l.length ≤ 9216 → s.flag (F.ETH_STATUS_LAN_DOWN n) = false → s.flag (F.ETH_CTRL_PROTECT n) = true →
      linkLocal (ethType l) = false → Gives (.ethFrameRx n bytes true none st) s (fun t =>
        t.num (Reg.ETH_CNT_SEC_DROP n) = satAdd 0xFFFFFFFF (s.num (Reg.ETH_CNT_SEC_DROP n)) 1 ∧
        t.num (Reg.ETH_CNT_RXF n) = satAdd 0xFFFFFFFF (s.num (Reg.ETH_CNT_RXF n)) 1 ∧ SameMem s t ∧
        RegsKept s t [Reg.ETH_CNT_SEC_DROP n, Reg.ETH_CNT_RXF n])) ∧
    (∀ u, s.ethHears n = true → l.length ≤ 9216 → s.flag (F.ETH_CTRL_PROTECT n) = false → u = ((s.count (Reg.ETH_CNT_RXF n) 1).lanHeard n).paNote n sa →
      exec (.ethFrameRx n bytes true sa st) s = .next (u.ethTake n l st) ∧
      (linkLocal (ethType l) = false → s.img.net.vids.contains ((ethVid l).getD 0) = false →
        u.ethTake n l st = u.count (Reg.ETH_CNT_VLAN_DROP n) 1) ∧
      (linkLocal (ethType l) = true → u.ethTake n l st = u.ethDeliver n l st))) ∧
  (∀ (s : State) (n : Fin 6), (s.flag (F.ETH_STATUS_LAN_DOWN n) = true → exec (.lanDown n) s = .next s) ∧
    (s.time.cycle < (s.ethOf n).last + s.fld (F.ETH_PRP_LAN_TMO_MS n) * cycPerMs → exec (.lanDown n) s = .next s) ∧
    (s.flag (F.ETH_STATUS_LAN_DOWN n) = false → s.flag (F.ETH_CTRL_EN n) = true → (s.ethOf n).last < (s.ethOf (mate n)).last →
      (s.ethOf n).last + s.fld (F.ETH_PRP_LAN_TMO_MS n) * cycPerMs ≤ s.time.cycle → Gives (.lanDown n) s (fun t => t.flag (F.ETH_STATUS_LAN_DOWN n) = true ∧
      t.rbit (Reg.ETH_IRQ n) 2 = true ∧ Logs s t 0x0C10 (0x6010 + n) (n / 2) ∧ SameMem s t ∧
      RegsKept s t [Reg.ETH_STATUS n, Reg.ETH_IRQ n, Reg.EVL_LOST])) ∧
    exec (.ethLinkLoss n) s = .next (((s.setFld (F.ETH_STATUS_LINK n) 0).ethIrq n 2).ethHealth n (fun u => u.transient (.eth n) 1)) ∧
    Gives (.ethLinkUp n) s (fun t => t.flag (F.ETH_STATUS_LINK n) = true ∧ t.rbit (Reg.ETH_IRQ n) 2 = true ∧ SameMem s t ∧
      RegsKept s t [Reg.ETH_STATUS n, Reg.ETH_IRQ n]) ∧
    (n.val < 4 → exec (.ethKrTrainingFail n) s = .next s) ∧
    (4 ≤ n.val → exec (.ethKrTrainingFail n) s = .next (s.ethHealth n (fun u => u.transient (.eth n) 2))))

/-- COVER_CHECK, PAVILION_CYCLE, SAFE_INPUT_SAMPLE, SAFE_INPUT_QUALIFY, TEST_PULSE, DISCREPANCY_TIMEOUT and FUNCTION_RESET_PULSE complete as the clauses say; the clauses rest
on R405 and R409 to R421. -/
def Obligations.SafeInputAndCycleCommands : Prop :=
  (∀ (s : State) (o : Bool), s.flag F.PVM_STATUS_COVER_OPEN = o → exec (.coverCheck o) s = .next s) ∧
  (∀ s : State, s.flag F.PVM_STATUS_COVER_OPEN = false → Gives (.coverCheck true) s (fun t => t.flag F.PVM_STATUS_COVER_OPEN = true ∧
    t.pvm = { s.pvm with cover := s.pvm.cover + 1 } ∧ Logs s t 0x0D13 0 (min (s.pvm.cover + 1) 0xFFFFFFFF) ∧ t.rbit Reg.PVM_IRQ 6 = true ∧ SameMem s t ∧
    RegsKept s t [Reg.PVM_STATUS, Reg.PVM_IRQ, Reg.EVL_LOST])) ∧
  (∀ s : State, s.flag F.PVM_STATUS_COVER_OPEN = true → Gives (.coverCheck false) s (fun t => t.flag F.PVM_STATUS_COVER_OPEN = false ∧
    t.pvm = s.pvm ∧ Logs s t 0x0D14 0 0 ∧ t.rbit Reg.PVM_IRQ 6 = true ∧ SameMem s t ∧ RegsKept s t [Reg.PVM_STATUS, Reg.PVM_IRQ, Reg.EVL_LOST])) ∧
  (∀ (s : State) (v : BitVec 16), s.pvm.pulse = 0 → Gives (.safeInputSample v) s (fun t =>
    (∀ i, i < 16 → t.sinOf i = { s.sinOf i with
      run := if (s.sinOf i).cand = bit v.toNat i then (s.sinOf i).run + 1 else 1, cand := bit v.toNat i, before := bit v.toNat i }) ∧ SameMem s t ∧ RegsKept s t [])) ∧
  (∀ (s : State) (v : BitVec 16), exec (.safeInputSample v) s = .next ((List.range 16).foldl (fun u i => u.sinSample i (bit v.toNat i)) s)) ∧
  (∀ (s : State) (i : Fin 16),
    ((s.sinOf i).cand = (s.sinOf i).q ∨ (s.sinOf i).run < s.par (offSin i) 0 12 → exec (.safeInputQualify i) s = .next s) ∧
    ((s.sinOf i).cand ≠ (s.sinOf i).q → s.par (offSin i) 0 12 ≤ (s.sinOf i).run → Gives (.safeInputQualify i) s (fun t =>
      (t.sinOf i).q = (s.sinOf i).cand ∧ (∀ j, j < 16 → t.rbit Reg.PVM_SIN j = t.safeValue j) ∧ SameMem s t ∧ RegsKept s t [Reg.PVM_SIN]))) ∧
  (∀ (s : State) (k : Fin 4),
    (s.tpoDue k = false → exec (.testPulse k true) s = .next s) ∧ (s.tpoOver k = false → exec (.testPulse k false) s = .next s) ∧
    (s.tpoDue k = true → Gives (.testPulse k true) s (fun t => t.pvm.pulse = putBit s.pvm.pulse k true ∧
      Tab.find t.pvm.pulsed k = some s.time.cycle ∧ (∀ i, i < 16 → t.sinOf i = if parTpo s.pvm.par i = some k.val then { s.sinOf i with own := false, ownHigh := true } else s.sinOf i) ∧
      SameMem s t ∧ RegsKept s t [])) ∧
    (s.tpoOver k = true → exec (.testPulse k false) s = .next (((List.range 16).filter (fun i => parTpo s.pvm.par i == some k.val)).foldl
      (fun u i => if (u.sinOf i).own && (u.sinOf i).ownHigh && (u.sinOf i).q then u.sinFault i 1 else u)
      (s.setPvm { s.pvm with pulse := putBit s.pvm.pulse k false })))) ∧
  (∀ (s : State) (i code : Nat), i < 16 → 0 < code → (∀ c ∈ s.channels i, (s.sinOf c).fault = 0) → ∀ t, t = s.sinFault i code →
    (∀ c ∈ s.channels i, (t.sinOf c).fault = code) ∧ (∀ j, j < 16 → t.rbit Reg.PVM_SIN j = t.safeValue j) ∧
    Logs s t 0x0D20 0 ((s.channels i).headD i + code * 2 ^ 8) ∧ SameMem s t ∧ RegsKept s t [Reg.PVM_SIN, Reg.EVL_LOST]) ∧
  (∀ (s : State) (i : Fin 16) (b : Nat), b = i.val - i.val % 2 →
    (s.pairMode b = 0 ∨ s.noDemand b = s.noDemand (b + 1) ∨
      s.time.cycle < (s.sinOf b).since.getD s.pvm.frame0 + 1 + parWord s.pvm.par (offSin b + 4) * cycPerMs → exec (.discrepancyTimeout i) s = .next s) ∧
    (s.pairMode b ≠ 0 → s.noDemand b ≠ s.noDemand (b + 1) →
      (s.sinOf b).since.getD s.pvm.frame0 + 1 + parWord s.pvm.par (offSin b + 4) * cycPerMs ≤ s.time.cycle → exec (.discrepancyTimeout i) s = .next (s.sinFault b 3))) ∧
  (∀ (s u : State) (f : Fin 4), u = s.setPvm { s.pvm with resets := s.pvm.resets.filter (fun x => x != f.val) } →
    (f.val ∉ s.pvm.resets → exec (.functionResetPulse f) s = .next s) ∧
    (f.val ∈ s.pvm.resets → s.funLatch f = false ∨ (∃ i < 16, bit (s.par (offFun f) 0 16) i = true ∧ s.rbit Reg.PVM_SIN i = false) →
      exec (.functionResetPulse f) s = .next u) ∧
    (f.val ∈ s.pvm.resets → s.funLatch f = true → (∀ i, i < 16 → bit (s.par (offFun f) 0 16) i = true → s.rbit Reg.PVM_SIN i = true) →
      Gives (.functionResetPulse f) s (fun t => t.funLatch f = false ∧ Logs s t 0x0D22 0 f ∧ t.pvm = u.pvm ∧ SameMem s t ∧
        RegsKept s t [Reg.PVM_FUNC, Reg.EVL_LOST]))) ∧
  (∀ (s : State) (x : PavMeas), s.pavState ≠ 1 → exec (.pavilionCycle x) s = .next s) ∧
  (∀ (s : State) (x : PavMeas) (u1 u2 u3 u4 u5 : State), s.pavState = 1 →
    u1 = x.brks.foldl (fun u b => if b.1 < 8 then u.brkMeasure b.1 b.2.1 b.2.2.1 b.2.2.2.1 b.2.2.2.2.1 b.2.2.2.2.2 else u) s →
    u2 = x.grps.foldl (fun u g => if g.1 < 4 then u.grpMeasure g.1 g.2.1 g.2.2.1 g.2.2.2 9000 else u) u1 →
    u3 = (List.range 4).foldl State.funCycle ((List.range 64).foldl (fun u v => u.senseMeasure v (x.valves.contains v)) u2) →
    u4 = (List.range 4).foldl State.groupCycle (u3.setPvm { u3.pvm with evald := true }) →
    u5 = (List.range 32).foldl (fun u a => u.setRbit Reg.PVM_PERMIT a (u.permit a)) u4 →
    exec (.pavilionCycle x) s = .next ((List.range 8).foldl State.brkCycle u5).pavTick) ∧
  (∀ (s : State) (f : Nat), f < 4 → (s.funCycle f).pvm.evald = s.pvm.evald ∧ SameMem s (s.funCycle f) ∧
    (s.funOk f = false ∨ s.pvm.evald = false → (s.funCycle f).funOk f = (s.funConds f && !(s.par (offFun f) 20 1 == 1 && s.funLatch f)))) ∧
  (∀ (s : State) (g : Nat), g < 4 → bit ((s.groupCycle g).fld F.PVM_GRP_ON) g = s.groupOn g)

/-- BRAKE_RELEASE_TIMER, BRAKE_OUTPUT_TEST, BRAKE_FAULT_CLEAR, BRAKE_TEST_DUE, BRAKE_TEST_OVERDUE, BRAKE_TIMER_SAVE, BRAKE_TEST_TIMEOUT,
PVM_BT_START and PVM_BT_END complete as the clauses say; the clauses rest on R416 to R420 and R434. -/
def Obligations.BrakeCommands : Prop :=
  (∀ (s : State) (b : Fin 8), ((s.brkOf b).on = false ∨ s.time.cycle < (s.brkOf b).since + parWord s.pvm.par (offBrk b + 24) * cycPerMs →
      exec (.brakeReleaseTimer b) s = .next s) ∧
    ((s.brkOf b).on = true → (s.brkOf b).since + parWord s.pvm.par (offBrk b + 24) * cycPerMs ≤ s.time.cycle → Gives (.brakeReleaseTimer b) s (fun t => bit (t.fld F.PVM_BRK_REL) b = true ∧ t.pvm = s.pvm ∧ SameMem s t ∧
      RegsKept s t [F.PVM_BRK_REL.addr]))) ∧
  (∀ (s u : State) (o : Fin 12) (t0 : Nat), t0 = (Tab.find s.pvm.otAt o).getD s.pvm.frame0 →
    u = s.setPvm { s.pvm with otAt := Tab.put s.pvm.otAt o s.time.cycle } →
    (s.pavOutOn o = (if o.val < 8 then (s.brkOf o).on else bit (s.fld F.PVM_GRP_ON) (o - 8))) ∧
    (s.pavOutOn o = false ∨ s.time.cycle < t0 + s.par 0x40 0 16 * 1000 * cycPerMs → ∀ ok, exec (.brakeOutputTest o ok) s = .next s) ∧
    (s.pavOutOn o = true → t0 + s.par 0x40 0 16 * 1000 * cycPerMs ≤ s.time.cycle →
      exec (.brakeOutputTest o true) s = .next u ∧
      (o.val < 8 → Gives (.brakeOutputTest o false) s (fun t => u.brkFaulted o 1 true = t ∧ (t.brkOf o).on = false ∧
        t.brkFault o = true ∧ bit (t.fld F.PVM_BRK_REL) o = false)) ∧
      (8 ≤ o.val → exec (.brakeOutputTest o false) s = .next ((u.grpFaulted (o - 8) 1 true).groupCycle (o - 8))))) ∧
  (∀ (s : State) (o : Fin 12) (a : Nat), o.val < 8 → s.brkAxis o = some a →
    (∀ t0, s.brkFault o = true → s.inUse (.brake o) = true → s.axisEnabled a = false → (s.brkOf o).offAt = some t0 →
      t0 + 1000 * cycPerMs ≤ s.time.cycle → Gives (.brakeFaultClear o) s (fun t => t.brkFault o = false ∧
      t.pvm = s.pvm ∧ SameMem s t ∧ RegsKept s t [F.PVM_BRK_FAULT.addr])) ∧
    (s.brkFault o = false ∨ s.inUse (.brake o) = false ∨ s.axisEnabled a = true ∨
      (∀ t0, (s.brkOf o).offAt = some t0 → s.time.cycle < t0 + 1000 * cycPerMs) → exec (.brakeFaultClear o) s = .next s)) ∧
  (∀ (s : State) (o : Fin 12), (o.val < 8 → s.brkAxis o = none → exec (.brakeFaultClear o) s = .next s) ∧
    (∀ t0, 8 ≤ o.val → s.grpFault (o - 8) = true → s.inUse (.group (o - 8)) = true →
      Tab.get (fun _ => none) s.pvm.grpOff (o.val - 8) = some t0 → t0 + 1000 * cycPerMs ≤ s.time.cycle → exec (.brakeFaultClear o) s =
      .next ((s.setFldBit F.PVM_GRP_FAULT (o - 8) false).groupCycle (o - 8))) ∧
    (8 ≤ o.val → s.grpFault (o - 8) = false ∨ s.inUse (.group (o - 8)) = false ∨
      (∀ t0, Tab.get (fun _ => none) s.pvm.grpOff (o.val - 8) = some t0 → s.time.cycle < t0 + 1000 * cycPerMs) →
      exec (.brakeFaultClear o) s = .next s)) ∧
  (∀ (s : State) (b : Fin 8), s.brkAxis b ≠ none →
    (bit (s.fld F.PVM_BRK_DUE) b = true ∨ (s.brkOf b).min < s.brkDueMin b → exec (.brakeTestDue b) s = .next s) ∧
    (bit (s.fld F.PVM_BRK_OVERDUE) b = true ∨ (s.brkOf b).min < s.brkDueMin b + s.par (offBrk b + 8) 8 16 → exec (.brakeTestOverdue b) s = .next s) ∧
    (bit (s.fld F.PVM_BRK_DUE) b = false → s.brkDueMin b ≤ (s.brkOf b).min → Gives (.brakeTestDue b) s (fun t => bit (t.fld F.PVM_BRK_DUE) b = true ∧
      t.fld (F.PVM_BT_LEFT_MIN b) = 0 ∧ Logs s t 0x0D26 0 b ∧ t.rbit Reg.PVM_IRQ 2 = true ∧ t.pvm = s.pvm ∧ SameMem s t ∧
      RegsKept s t [F.PVM_BRK_DUE.addr, Reg.PVM_BT b, Reg.PVM_IRQ, Reg.EVL_LOST])) ∧
    (bit (s.fld F.PVM_BRK_OVERDUE) b = false → s.brkDueMin b + s.par (offBrk b + 8) 8 16 ≤ (s.brkOf b).min → Gives (.brakeTestOverdue b) s (fun t => bit (t.fld F.PVM_BRK_OVERDUE) b = true ∧
      Logs s t 0x0D27 0 b ∧ t.rbit Reg.PVM_IRQ 2 = true ∧ t.pvm = s.pvm ∧ SameMem s t ∧
      RegsKept s t [F.PVM_BRK_OVERDUE.addr, Reg.PVM_IRQ, Reg.EVL_LOST]))) ∧
  (∀ (s : State) (b : Fin 8), s.brkAxis b = none → exec (.brakeTestDue b) s = .next s ∧ exec (.brakeTestOverdue b) s = .next s) ∧
  (∀ s : State, s.time.cycle < s.pvm.minAt + 60000 * cycPerMs → exec .brakeTimerSave s = .next s) ∧
  (∀ s : State, s.pvm.minAt + 60000 * cycPerMs ≤ s.time.cycle → Gives .brakeTimerSave s (fun t => t.pvm.minAt = s.time.cycle ∧ (∀ b, b < 8 → s.brkAxis b ≠ none → t.brkOf b = { s.brkOf b with min := (s.brkOf b).min + 1 } ∧
      t.fld (F.PVM_BT_LEFT_MIN b) = s.brkDueMin b - ((s.brkOf b).min + 1)) ∧
    (∀ b, b < 8 → s.brkAxis b = none → t.brkOf b = s.brkOf b) ∧ SameMem s t ∧ RegsKept s t ((List.range 8).map Reg.PVM_BT))) ∧
  (∀ (s : State) (b : Fin 8), ((s.brkOf b).test = none → exec (.brakeTestTimeout b) s = .next s) ∧
    (∀ x, (s.brkOf b).test = some x → s.time.cycle < x.at_ + parWord s.pvm.par (offBrk b + 20) * 1000 * cycPerMs →
      exec (.brakeTestTimeout b) s = .next s) ∧
    (∀ x, (s.brkOf b).test = some x → x.at_ + parWord s.pvm.par (offBrk b + 20) * 1000 * cycPerMs ≤ s.time.cycle → Gives (.brakeTestTimeout b) s (fun t => t.brkOf b = { s.brkOf b with test := none } ∧
      t.flag (F.PVM_BT_RUNNING b) = false ∧ t.fld (F.PVM_BT_LAST b) = 3 ∧ t.rbit Reg.PVM_IRQ 2 = true ∧ Logs s t 0x0D29 0 (b + 3 * 2 ^ 8) ∧
      SameMem s t ∧ RegsKept s t [Reg.PVM_BT b, Reg.PVM_IRQ, Reg.EVL_LOST]))) ∧
  (∀ s : State, (s.mbHas 1 5 = false → exec .pvmBtStart s = .next s) ∧ (s.mbHas 1 6 = false → exec .pvmBtEnd s = .next s)) ∧
  (∀ (s : State) (b : Nat), s.mbHas 1 5 = true → b = s.mbReq 1 1 →
    (8 ≤ b ∨ s.brkAxis b = none → exec .pvmBtStart s = .next (s.mbAnswer 1 4 0)) ∧
    (∀ a, b < 8 → s.brkAxis b = some a → s.pavState ≠ 1 ∨ s.brkFault b = true ∨ (s.brkOf b).test ≠ none → exec .pvmBtStart s =
      .next (s.mbAnswer 1 3 0)) ∧
    (∀ a n, b < 8 → s.brkAxis b = some a → s.pavState = 1 → s.brkFault b = false → (s.brkOf b).test = none → s.axCrew a = some n →
      (2 ≤ s.axState n a → exec .pvmBtStart s = .next (s.mbAnswer 1 3 0)) ∧
      (s.axState n a ≤ 1 → Gives .pvmBtStart s (fun t => Tab.find t.pvm.resp 1 = some (0, 0) ∧ (t.brkOf b).on = false ∧
        (t.brkOf b).test.map (fun x => (x.sp0, x.ep0, x.s0)) = some ((s.brkOf b).sp, (s.brkOf b).ep, (s.axisOf a).s) ∧
        bit (t.fld F.PVM_BRK_REL) b = false ∧ t.flag (F.PVM_BT_RUNNING b) = true ∧ SameMem s t ∧
        RegsKept s t [F.PVM_BRK_REL.addr, Reg.PVM_BT b])))) ∧
  (∀ (s : State) (b : Nat), s.mbHas 1 6 = true → b = s.mbReq 1 1 →
    (8 ≤ b → exec .pvmBtEnd s = .next (s.mbAnswer 1 4 0)) ∧
    (b < 8 → (s.brkOf b).test = none → exec .pvmBtEnd s = .next (s.mbAnswer 1 3 0)) ∧
    (∀ x (n : Int), b < 8 → (s.brkOf b).test = some x → n = (s.par (offBrk b + 12) 0 32 : Nat) →
      (n ≤ x.hi → x.lo ≤ -n → exec .pvmBtEnd s = .next ((s.brkTestEnd b 0).mbAnswer 1 0 0)) ∧
      (x.hi < n ∨ -n < x.lo → exec .pvmBtEnd s = .next ((s.brkTestEnd b 2).mbAnswer 1 0 0)))) ∧
  (∀ (s : State) (b : Nat) (x : BrkTest), b < 8 → (s.brkOf b).test = some x → ∀ t, t = s.brkTestEnd b 0 →
    t.brkOf b = { s.brkOf b with test := none, min := 0 } ∧ t.fld (F.PVM_BT_LAST b) = 0 ∧ t.flag (F.PVM_BT_RUNNING b) = false ∧
    bit (t.fld F.PVM_BRK_DUE) b = false ∧ bit (t.fld F.PVM_BRK_OVERDUE) b = false ∧ Logs s t 0x0D28 0 (b + x.slip % 2 ^ 24 * 2 ^ 8))

/-- PVM_VSET, PVM_VWITHDRAW, PVM_PAR_WRITE, PVM_PAR_COMMIT, PVM_MAILBOX_RESPONSE and VSET_SWITCH complete as the clauses say; the clauses rest on R408, R422, R423
and R434. -/
def Obligations.PavilionMailboxCommands : Prop :=
  (∀ (s : State) (mb : Fin 2), (s.mbHas mb 1 = false → exec (.pvmVset mb) s = .next s) ∧ (s.mbHas mb 2 = false → exec (.pvmVwithdraw mb) s = .next s)) ∧
  (∀ s : State, (s.mbHas 1 3 = false → exec .pvmParWrite s = .next s) ∧ (s.mbHas 1 4 = false → exec .pvmParCommit s = .next s)) ∧
  (∀ (s : State) (mb : Fin 2) (id : Nat), s.mbHas mb 1 = true → id = s.mbReq mb 5 % 16 → vsetOf (s.mbReq mb) 6 = none →
    Gives (.pvmVset mb) s (fun t => Tab.find t.pvm.resp mb = some (1, 5) ∧ t.pvm.armed = s.pvm.armed ∧ Logs s t 0x0D30 0 (5 + id * 2 ^ 8) ∧
      SameMem s t ∧ RegsKept s t [Reg.EVL_LOST])) ∧
  (∀ (s : State) (mb : Fin 2) (a : ArmedSet) (zero : Bool), s.mbHas mb 1 = true → vsetOf (s.mbReq mb) 6 = some a.vs → a.id = s.mbReq mb 5 % 16 →
    a.cseq = s.mbReq mb 4 → zero = (s.mbReq mb 1 == 0 && s.mbReq mb 2 == 0 && s.mbReq mb 3 == 0) →
    (a.t = if zero then none else some ⟨s.mbReq mb 1 + s.mbReq mb 3 % 2 ^ 16 * 2 ^ 32, s.mbReq mb 2, s.mbReq mb 3 / 2 ^ 16 * 256⟩) →
    a.due = s.setDue a.t → a.ripe = false →
    (zero = true → mb = 0 → Gives (.pvmVset mb) s (fun t => t.pvm.armed = s.pvm.armed ∧ Tab.find t.pvm.resp mb = some (1, 6) ∧
      Logs s t 0x0D30 0 (6 + a.id * 2 ^ 8) ∧ SameMem s t ∧ RegsKept s t [Reg.EVL_LOST])) ∧
    (zero = false ∨ mb = 1 → s.gateReason a = none → Gives (.pvmVset mb) s (fun t => t.pvm.armed = s.pvm.armed ++ [a] ∧ Tab.find t.pvm.resp mb = some (0, 0) ∧
      t.fld F.PVM_VARM_ARMED = (s.pvm.armed.length + 1) % 2 ^ 5 ∧ SameMem s t ∧ RegsKept s t [Reg.PVM_VARM])) ∧
    (∀ r d, zero = false ∨ mb = 1 → s.gateReason a = some (r, d) → Gives (.pvmVset mb) s (fun t => t.pvm.armed = s.pvm.armed ∧ Tab.find t.pvm.resp mb = some (1, r + d) ∧
      Logs s t 0x0D30 0 (r + a.id * 2 ^ 8) ∧ SameMem s t ∧ RegsKept s t [Reg.EVL_LOST]))) ∧
  (∀ (s : State) (a : ArmedSet), (16 ≤ s.pvm.armed.length → s.gateReason a = some (7, 0)) ∧
    (s.pvm.armed.length < 16 → s.oe = false → s.gateReason a = some (8, 0)) ∧
    (s.pvm.armed.length < 16 → s.oe = true → s.holdsToken = false → s.gateReason a = some (9, 0))) ∧
  (∀ (s : State) (mb : Fin 2) (mine : ArmedSet → Bool) (any : Bool), s.mbHas mb 2 = true →
    (∀ a, mine a = (a.id == s.mbReq mb 1 % 16 && !s.setCome a)) → any = s.pvm.armed.any mine →
    Gives (.pvmVwithdraw mb) s (fun t => t.pvm.armed = s.pvm.armed.filter (fun a => !mine a) ∧ Tab.find t.pvm.resp mb = some (0, b2n any) ∧
      (any = true → Logs s t 0x0D31 0 (s.mbReq mb 1 % 16)) ∧ t.fld F.PVM_VARM_ARMED = (s.pvm.armed.filter (fun a => !mine a)).length % 2 ^ 5 ∧
      SameMem s t ∧ RegsKept s t [Reg.PVM_VARM, Reg.EVL_LOST])) ∧
  (∀ s : State, s.parClosed = true → (s.mbHas 1 3 = true → exec .pvmParWrite s = .next (s.mbAnswer 1 3 0)) ∧
    (s.mbHas 1 4 = true → exec .pvmParCommit s = .next (s.mbAnswer 1 3 0))) ∧
  (∀ s : State, s.parClosed = false → s.sw17 = false →
    (s.mbHas 1 3 = true → Gives .pvmParWrite s (fun t => Tab.find t.pvm.resp 1 = some (2, 0) ∧ Logs s t 0x0D18 0 0 ∧ t.pvm.stage = s.pvm.stage ∧
      SameMem s t ∧ RegsKept s t [Reg.EVL_LOST])) ∧
    (s.mbHas 1 4 = true → Gives .pvmParCommit s (fun t => Tab.find t.pvm.resp 1 = some (2, 0) ∧ Logs s t 0x0D18 0 0 ∧ t.pvm.store = s.pvm.store ∧
      SameMem s t ∧ RegsKept s t [Reg.EVL_LOST]))) ∧
  (∀ (s : State) (off n : Nat), s.mbHas 1 3 = true → s.parClosed = false → s.sw17 = true → off = s.mbReq 1 1 → n = s.mbReq 1 2 →
    (n = 0 ∨ 128 < n ∨ off % 4 ≠ 0 ∨ 0x49400 < off + 4 * n ∨ s.mbReq 1 0 / 2 ^ 8 % 256 ≠ n + 2 → exec .pvmParWrite s = .next (s.mbAnswer 1 4 0)) ∧
    (0 < n → n ≤ 128 → off % 4 = 0 → off + 4 * n ≤ 0x49400 → s.mbReq 1 0 / 2 ^ 8 % 256 = n + 2 → Gives .pvmParWrite s (fun t =>
      Tab.find t.pvm.resp 1 = some (0, 0) ∧ t.pvm.store = s.pvm.store ∧ t.pvm.par = s.pvm.par ∧ (∀ i, i < 4 * n →
        Tab.get (fun _ => 0) t.pvm.stage (off + i) = s.mbReq 1 (3 + i / 4) / 256 ^ (i % 4) % 256) ∧
      (∀ o, o < off ∨ off + 4 * n ≤ o → Tab.get (fun _ => 0) t.pvm.stage o = Tab.get (fun _ => 0) s.pvm.stage o) ∧ SameMem s t ∧ RegsKept s t []))) ∧
  (∀ s : State, s.mbHas 1 4 = true → s.parClosed = false → s.sw17 = true →
    (parCrc s.pvm.stage ≠ s.mbReq 1 1 → exec .pvmParCommit s = .next (s.mbAnswer 1 4 0)) ∧
    (∀ r o, parCrc s.pvm.stage = s.mbReq 1 1 → s.parBad s.pvm.stage = some (r, o) → exec .pvmParCommit s =
      .next ((s.log 0x0D18 0 (r + o * 2 ^ 8)).mbAnswer 1 1 r)) ∧
    (parCrc s.pvm.stage = s.mbReq 1 1 → s.parBad s.pvm.stage = none → s.pavState ≠ 2 → Gives .pvmParCommit s
      (fun t => t.pvm.store = s.pvm.stage ∧ t.pvm.par = s.pvm.par ∧ Tab.find t.pvm.resp 1 = some (0, 0) ∧
        Logs s t 0x0D17 0 (parCrc s.pvm.stage) ∧ SameMem s t ∧ RegsKept s t [Reg.EVL_LOST])) ∧
    (parCrc s.pvm.stage = s.mbReq 1 1 → s.parBad s.pvm.stage = none → s.pavState = 2 → s.fld F.PVM_STATUS_SAFE_CAUSE = 6 → ∀ u,
      u = s.setPvm { s.pvm with store := s.pvm.stage } → exec .pvmParCommit s = .next ((u.log 0x0D17 0 (parCrc s.pvm.stage)).mbAnswer 1 0 0).pavStart)) ∧
  (∀ s : State, (s.flag (F.PVM_MB_STATUS_BUSY 1) = false → exec .pvmMailboxResponse s = .next s) ∧
    (∀ r d, s.flag (F.PVM_MB_STATUS_BUSY 1) = true → Tab.find s.pvm.resp 1 = some (r, d) → Gives .pvmMailboxResponse s (fun t =>
      t.rd (Reg.PVM_MB_RSP 1 0) = BitVec.ofNat 32 r ∧ t.rd (Reg.PVM_MB_RSP 1 1) = BitVec.ofNat 32 d ∧ t.flag (F.PVM_MB_STATUS_BUSY 1) = false ∧
      t.flag (F.PVM_MB_STATUS_DONE 1) = true ∧ t.rbit Reg.PVM_IRQ 4 = true ∧ Tab.find t.pvm.resp 1 = none ∧ SameMem s t ∧
      RegsKept s t [Reg.PVM_MB_RSP 1 0, Reg.PVM_MB_RSP 1 1, Reg.PVM_MB_STATUS 1, Reg.PVM_IRQ])) ∧
    (s.flag (F.PVM_MB_STATUS_BUSY 1) = true → Tab.find s.pvm.resp 1 = none → 0 < s.mbReq 1 0 % 256 → s.mbReq 1 0 % 256 ≤ 7 →
      exec .pvmMailboxResponse s = .next s) ∧
    (s.flag (F.PVM_MB_STATUS_BUSY 1) = true → Tab.find s.pvm.resp 1 = none → s.mbReq 1 0 % 256 = 0 ∨ 7 < s.mbReq 1 0 % 256 →
      exec .pvmMailboxResponse s = .next (((s.mbAnswer 1 4 0).mbDone 1).pvmIrq 4))) ∧
  (∀ (s : State) (id : Fin 16), (s.pvm.armed.filter (fun a => a.id == id.val) = [] ∨ s.oe = false ∨ (∀ a ∈ s.pvm.armed, s.setCome a = false) →
      exec (.vsetSwitch id) s = .next s) ∧
    (∀ a, s.pvm.armed.filter (fun a => a.id == id.val) = [a] → s.oe = true → s.setCome a = true → exec (.vsetSwitch id) s =
      .next (((s.setPvm { s.pvm with armed := s.pvm.armed.filter (fun x => x != a) }).setFld F.PVM_VARM_ARMED
        (s.pvm.armed.filter (fun x => x != a)).length).switchSet a))) ∧
  (∀ (s : State) (v : Nat) (on : Bool), v < 1024 → (s.switchValve (v, on)).vcmd v = on ∧
    (64 ≤ v → SameMem s (s.switchValve (v, on)) ∧ RegsKept s (s.switchValve (v, on)) [Reg.PVM_VCMD (v / 32)]))

/-- PVM_VSET, PVM_VWITHDRAW, PVM_PAR_WRITE, PVM_PAR_COMMIT, PVM_MAILBOX_RESPONSE and VSET_SWITCH complete: for a request that the rules accept
(R408, R422, R423, R434), on every state and with no condition on the outcome, each answers a next state, and this is it. -/
def Obligations.MailboxFormsComplete : Prop :=
  (∀ (s : State) (mb : Nat) (code : Nat), s.mbHas mb code = true ↔
    s.flag (F.PVM_MB_STATUS_BUSY mb) = true ∧ s.mbReq mb 0 % 256 = code ∧ Tab.find s.pvm.resp mb = none) ∧
  (∀ (s : State) (mb : Fin 2) (x : Stamp) (a : ArmedSet), s.mbHas mb 1 = true → vsetOf (s.mbReq mb) 6 = some a.vs →
    s.mbReq mb 1 ≠ 0 ∨ s.mbReq mb 2 ≠ 0 ∨ s.mbReq mb 3 ≠ 0 →
    x = ⟨s.mbReq mb 1 + s.mbReq mb 3 % 2 ^ 16 * 2 ^ 32, s.mbReq mb 2, s.mbReq mb 3 / 2 ^ 16 * 256⟩ →
    a = ⟨s.mbReq mb 5 % 16, s.mbReq mb 4, some x, a.vs, x.units, false⟩ → s.gateReason a = none →
    exec (.pvmVset mb) s =
      .next (((s.setPvm { s.pvm with armed := s.pvm.armed ++ [a] }).setFld F.PVM_VARM_ARMED (s.pvm.armed.length + 1)).mbAnswer mb 0 0)) ∧
  (∀ (s u : State) (mb : Fin 2) (id : Nat), s.mbHas mb 2 = true → id = s.mbReq mb 1 % 16 →
    u = s.setPvm { s.pvm with armed := s.pvm.armed.filter (fun a => !(a.id == id && !s.setCome a)) } →
    exec (.pvmVwithdraw mb) s = .next (((u.setFld F.PVM_VARM_ARMED u.pvm.armed.length).logIf
      (s.pvm.armed.any (fun a => a.id == id && !s.setCome a)) 0x0D31 0 id).mbAnswer mb 0 (b2n (s.pvm.armed.any (fun a => a.id == id && !s.setCome a))))) ∧
  (∀ (s : State) (off n : Nat), s.mbHas 1 3 = true → s.parClosed = false → s.sw17 = true → off = s.mbReq 1 1 → n = s.mbReq 1 2 → 0 < n → n ≤ 128 →
    off % 4 = 0 → off + 4 * n ≤ parLen → s.mbReq 1 0 / 2 ^ 8 % 256 = n + 2 → exec .pvmParWrite s = .next ((s.setPvm { s.pvm with
      stage := (List.range (4 * n)).foldl (fun p i => parPut p (off + i) (s.mbReq 1 (3 + i / 4) / 256 ^ (i % 4))) s.pvm.stage }).mbAnswer 1 0 0)) ∧
  (∀ (s u : State), s.mbHas 1 4 = true → s.parClosed = false → s.sw17 = true → parCrc s.pvm.stage = s.mbReq 1 1 →
    s.parBad s.pvm.stage = none → u = ((s.setPvm { s.pvm with store := s.pvm.stage }).log 0x0D17 0 (parCrc s.pvm.stage)).mbAnswer 1 0 0 →
    exec .pvmParCommit s = .next (if u.pavState = 2 ∧ u.fld F.PVM_STATUS_SAFE_CAUSE = 6 then u.pavStart else u)) ∧
  (∀ (s : State) (r : Nat × Nat), s.flag (F.PVM_MB_STATUS_BUSY 1) = true → Tab.find s.pvm.resp 1 = some r →
    exec .pvmMailboxResponse s = .next ((s.mbDone 1).pvmIrq 4)) ∧
  (∀ (s u : State) (a : ArmedSet), s.pvm.armed = [a] → a.id < 16 → s.oe = true → s.setCome a = true → u = s.setPvm { s.pvm with armed := [] } →
    ∀ id : Fin 16, a.id = id.val → exec (.vsetSwitch id) s = .next ((u.setFld F.PVM_VARM_ARMED 0).switchSet a))

/-- SERIT_CONTAINER_RX, SERIT_PDU_SEND, SERIT_OPEN_SEND, SERIT_WD_EXPIRE and SERIT_OUTPUT_TOKEN complete as the clauses say; the clauses rest on R425 to R433. -/
def Obligations.SeritCommands : Prop :=
  (∀ (s : State) (p : Fin 3) (b : List Byte), s.pavState ≠ 1 ∨ s.rpc.folly ≠ 0 ∨ parseContainer (b.map BitVec.toNat) = none → exec (.seritContainerRx p b) s = .next s) ∧
  (∀ (s : State) (p : Fin 3) (b : List Byte) (l : List (Pdu × Nat)), s.pavState = 1 → s.rpc.folly = 0 → parseContainer (b.map BitVec.toNat) = some l →
    exec (.seritContainerRx p b) s = .next (l.foldl (fun u x => u.pduIn p x) s)) ∧
  (∀ (s : State) (pair k : Nat) (p : Pdu) (crc : Nat), (List.range 1024).find? (fun k => s.par (offConn k) 31 1 == 1 && s.peerId k == p.src &&
      s.connPair k == pair) = some k → (s.health (.conn k) = .retired → s.pduIn pair (p, crc) = s) ∧
    (s.health (.conn k) ≠ .retired → p.dst ≠ s.ownId → s.pduIn pair (p, crc) = s.pduReject k 2) ∧
    (s.health (.conn k) ≠ .retired → p.dst = s.ownId → bit p.flags 0 = false → crc ≠ p.crc (s.connOf k).session →
      s.pduIn pair (p, crc) = s.pduReject k 1) ∧
    (s.health (.conn k) ≠ .retired → p.dst = s.ownId → bit p.flags 0 = false → p.flags < 16 → crc = p.crc (s.connOf k).session → s.connState k = 2 →
      s.pduIn pair (p, crc) = s.pduData k p) ∧
    (s.health (.conn k) ≠ .retired → p.dst = s.ownId → bit p.flags 0 = true → p.flags < 16 → 14 ≤ p.data.length →
      crc = p.crc (ofLe ((p.data.drop 2).take 4)) → s.pduIn pair (p, crc) = s.pduOpen k p (ofLe ((p.data.drop 2).take 4)))) ∧
  (∀ (s : State) (k : Nat), (s.pduReject k 2).connOf k = { s.connOf k with reject := satAdd 0xFFFFFFFF (s.connOf k).reject 1 } ∧
    SameMem s (s.pduReject k 2) ∧ RegsKept s (s.pduReject k 2) [Reg.EVL_LOST]) ∧
  (∀ (s : State) (k : Nat) (p : Pdu), s.items k 0 = [] → 0 < toSigned 16 (p.seq + 2 ^ 16 - (s.connOf k).rx) →
    toSigned 16 (p.seq + 2 ^ 16 - (s.connOf k).rx) ≤ s.par (offConn k + 12) 16 4 → ((s.pduData k p).connOf k).rx = p.seq ∧
      ((s.pduData k p).connOf k).lost = satAdd 0xFFFFFFFF (s.connOf k).lost ((toSigned 16 (p.seq + 2 ^ 16 - (s.connOf k).rx)).toNat - 1) ∧
      SameMem s (s.pduData k p) ∧ RegsKept s (s.pduData k p) []) ∧
  (∀ (s : State) (k : Nat) (p : Pdu), toSigned 16 (p.seq + 2 ^ 16 - (s.connOf k).rx) ≤ 0 → s.pduData k p = s) ∧
  (∀ (s : State) (k : Nat) (p : Pdu), (s.par (offConn k + 12) 16 4 : Int) < toSigned 16 (p.seq + 2 ^ 16 - (s.connOf k).rx) →
    s.pduData k p = s.pduReject k 3) ∧
  (∀ (s : State) (k session : Nat), k < 1024 → (s.connUp k session).connState k = 2 ∧
    (s.connUp k session).connOf k = { s.connOf k with session := session, tx := 0, rx := 0, rtt := 0, wasRun := true, wd := s.time.cycle, due := 0 } ∧
    Logs s (s.connUp k session) 0x0D38 (0xA000 + k) session ∧ SameMem s (s.connUp k session) ∧
    RegsKept s (s.connUp k session) [Reg.PVM_CONN (k / 16), Reg.PVM_IRQ, Reg.EVL_LOST]) ∧
  (∀ (s : State) (k : Fin 1024), (s.pavState ≠ 1 ∨ s.rpc.folly ≠ 0 ∨ s.connState k ≠ 2 ∨ (s.connOf k).due < s.par (offConn k + 4) 0 16 →
      exec (.seritPduSend k) s = .next s) ∧
    (s.pavState = 1 → s.rpc.folly = 0 → s.connState k = 2 → s.par (offConn k + 4) 0 16 ≤ (s.connOf k).due → Gives (.seritPduSend k) s (fun t => (t.connOf k).tx = ((s.connOf k).tx + 1) % 2 ^ 16 ∧
      (t.connOf k).rx = (s.connOf k).rx ∧ (t.connOf k).session = (s.connOf k).session ∧ t.wire.length = s.wire.length + 1 ∧
      SameMem s t ∧ RegsKept s t [Reg.PLK_GAP]))) ∧
  (∀ (s : State) (k : Fin 1024) (n : Nat), n = (s.pvm.session + 1) % 2 ^ 32 →
    (s.pavState ≠ 1 ∨ s.rpc.folly ≠ 0 ∨ (s.connState k ≠ 1 ∧ ¬(s.connState k = 3 ∧ s.health (.conn k) = .testing)) → exec (.seritOpenSend k) s = .next s) ∧
    (s.pavState = 1 → s.rpc.folly = 0 → s.connState k = 1 ∨ (s.connState k = 3 ∧ s.health (.conn k) = .testing) → Gives (.seritOpenSend k) s (fun t =>
      t.pvm.session = n ∧ (t.connOf k).session = n ∧ (t.connOf k).tx = 0 ∧ (t.connOf k).due = 0 ∧ (t.connOf k).rx = 0 ∧ t.wire.length = s.wire.length + 1 ∧ SameMem s t ∧
      RegsKept s t []))) ∧
  (∀ (s : State) (k : Fin 1024), (s.connState k ≠ 2 ∨ s.time.cycle < (s.connOf k).wd + s.par (offConn k + 8) 0 16 * cycPerMs →
      exec (.seritWdExpire k) s = .next s) ∧
    (s.connState k = 2 → (s.connOf k).wd + s.par (offConn k + 8) 0 16 * cycPerMs ≤ s.time.cycle → exec (.seritWdExpire k) s =
      .next ((((s.setConnState k 1).log 0x0D39 (0xA000 + k) 1).transient (.conn k) 2).connRefresh k))) ∧
  (∀ (s : State) (link : Nat) (x : Token), (∀ j, j < 8192 → s.par (offItem j) 31 1 = 1 → s.par (offItem j) 10 1 = 1 →
      s.itemSig j = x.sig.toNat → s.par (offItem j) 11 1 = 0) → exec (.seritOutputToken link x) s = .next s) ∧
  (∀ (s : State) (link : Nat) (x : Token) (j : Nat), j < 8192 → s.par (offItem j) 31 1 = 1 → s.par (offItem j) 10 1 = 1 →
    s.itemSig j = x.sig.toNat → s.par (offItem j) 11 1 = 1 → (∀ i, i < 8192 → i ≠ j → s.par (offItem i) 31 1 = 1 → s.par (offItem i) 10 1 = 1 →
      s.itemSig i = x.sig.toNat → s.par (offItem i) 11 1 = 0) → ∀ c u, s.check link (s.itemSubst j) x = (c, u) →
    Gives (.seritOutputToken link x) s (fun t => Tab.find t.pvm.outs j = some c.value))

/-- PAIR_LISTEN_TIMEOUT, HEARTBEAT_SEND, HEARTBEAT_RX, PATH_TIMEOUT, LEASE_EXPIRE, PLK_HANDOVER, PLK_FORCE_TAKE, PLK_RESYNC, PLK_LINK_LOSS,
PLK_LINK_UP, MIRROR_CUT and MIRROR_FRAME_RX complete as the clauses say; the clauses rest on R440 to R448, R450 and R457. -/
def Obligations.RedundantPairCommands : Prop :=
  (∀ (s : State) (v : Nat), v < 8 → ∀ t, t = s.setRole v → t.role = v ∧ t.flag F.PLK_STATUS_TOKEN = (v == 2 || v == 0) ∧ t.rbit Reg.PLK_IRQ 0 = true ∧
    t.plk = { s.plk with rx := none } ∧ Logs s t 0x0E10 0 (v + s.role * 16) ∧ SameMem s t ∧
    RegsKept s t [Reg.PLK_STATUS, Reg.PLK_IRQ, Reg.EVL_LOST]) ∧
  (∀ s t : State, t = s.takeToken → t.role = 2 ∧ t.plk.epoch = s.nextEpoch ∧ t.plk.eseen = s.nextEpoch ∧
    t.num64 Reg.PLK_EPOCH_LO Reg.PLK_EPOCH_HI = s.nextEpoch % 2 ^ 64 ∧ t.num Reg.PLK_TAKES = satAdd 0xFFFFFFFF (s.num Reg.PLK_TAKES) 1 ∧
    t.flag F.PLK_STATUS_IN_SYNC = false ∧ s.plk.eseen < s.nextEpoch ∧ s.nextEpoch % 2 = (if s.ownId < s.partnerId then 1 else 0) ∧ SameMem s t) ∧
  (∀ s : State, s.role ≠ 1 ∨ s.time.cycle < s.plk.listen + (3 * s.lease + 2 * cycPerMs) ∨ s.flag F.PLK_STATUS_IMG_MISMATCH = true →
    exec .pairListenTimeout s = .next s) ∧
  (∀ s : State, s.role = 1 → s.plk.listen + (3 * s.lease + 2 * cycPerMs) ≤ s.time.cycle → s.flag F.PLK_STATUS_IMG_MISMATCH = false →
    (s.fld F.PLK_STATUS_PATHS = 0 → s.sw20 = true → exec .pairListenTimeout s = .next s.takeOwn) ∧
    (s.fld F.PLK_STATUS_PATHS = 0 → s.sw20 = false → exec .pairListenTimeout s = .next s) ∧
    (s.fld F.PLK_STATUS_PATHS ≠ 0 → s.fld F.PLK_STATUS_PARTNER_ROLE ≠ 1 → exec .pairListenTimeout s = .next s) ∧
    (s.fld F.PLK_STATUS_PATHS ≠ 0 → s.fld F.PLK_STATUS_PARTNER_ROLE = 1 → s.sw20 = true → bit s.plk.pflags 1 = false →
      exec .pairListenTimeout s = .next s.takeOwn) ∧
    (s.fld F.PLK_STATUS_PATHS ≠ 0 → s.fld F.PLK_STATUS_PARTNER_ROLE = 1 → s.sw20 = false → bit s.plk.pflags 1 = true →
      exec .pairListenTimeout s = .next s) ∧
    (s.fld F.PLK_STATUS_PATHS ≠ 0 → s.fld F.PLK_STATUS_PARTNER_ROLE = 1 → s.sw20 = bit s.plk.pflags 1 → exec .pairListenTimeout s =
      .next (if s.ownId < s.partnerId then s.takeOwn else s))) ∧
  (∀ s : State, (s.role = 0 ∨ (∃ t, s.plk.hbAt = some t ∧ s.time.cycle < t + s.lease / 4) → exec .heartbeatSend s = .next s) ∧
    (s.role ≠ 0 → (∀ t, s.plk.hbAt = some t → t + s.lease / 4 ≤ s.time.cycle) → Gives .heartbeatSend s (fun t =>
      t.plk = { s.plk with hbseq := (s.plk.hbseq + 1) % 2 ^ 32, hbAt := some s.time.cycle } ∧ SameMem s t)) ∧
    s.heartbeat.length = 64) ∧
  (∀ (s : State) (p : Fin 4) (b : List Byte), s.role = 0 ∨ s.hbValid (b.map BitVec.toNat) = false → exec (.heartbeatRx p b) s = .next s) ∧
  (∀ (s : State) (p : Fin 4) (b : List Byte) (l : List Nat), l = b.map BitVec.toNat → s.role ≠ 0 → s.hbValid l = true → ∃ u : State,
    exec (.heartbeatRx p b) s = .next (u.hbRole l) ∧ u.role = s.role ∧ bit (u.fld F.PLK_STATUS_PATHS) p = true ∧
    u.fld F.PLK_STATUS_PARTNER_ROLE = fieldAt l 6 1 % 8 ∧ u.flag F.PLK_STATUS_HANDOVER = bit (fieldAt l 7 1) 0 ∧
    u.plk.eseen = max s.plk.eseen (fieldAt l 0x10 8) ∧ u.plk.pflags = fieldAt l 7 1 ∧ u.plk.epoch = s.plk.epoch ∧
    u.plk.lastHb = (if fieldAt l 6 1 = 2 then s.time.cycle else s.plk.lastHb) ∧
    u.flag F.PLK_STATUS_IMG_MISMATCH = (fieldAt l 0x28 8 != s.imageId) ∧
    (bit (s.fld F.PLK_STATUS_PATHS) p = false → Logs s u 0x0E17 0 p ∧ u.rbit Reg.PLK_IRQ 2 = true) ∧ SameMem s u ∧
    RegsKept s u [Reg.PLK_STATUS, Reg.PLK_IRQ, Reg.PLK_PEPOCH_LO, Reg.PLK_PEPOCH_HI, Reg.EVL_LOST]) ∧
  (∀ (s : State) (l : List Nat), (s.role = 3 ∨ s.role = 5 → s.hbRole l = s) ∧
    (s.role = 1 → fieldAt l 6 1 = 2 → s.flag F.PLK_STATUS_IMG_MISMATCH = false → s.hbRole l = s.setRole 3) ∧
    (s.role = 2 → s.plk.epoch < fieldAt l 0x10 8 → s.hbRole l = s.demote (fieldAt l 0x10 8)) ∧
    (s.role = 2 → fieldAt l 0x10 8 ≤ s.plk.epoch → s.hbRole l = s) ∧
    (s.role = 4 → bit (fieldAt l 7 1) 0 = true → s.flag F.PLK_STATUS_IMG_MISMATCH = false → s.hbRole l = s.takeOver) ∧
    (s.role = 4 → bit (fieldAt l 7 1) 0 = false ∨ s.flag F.PLK_STATUS_IMG_MISMATCH = true → s.hbRole l = s)) ∧
  (∀ (s : State) (p : Fin 4), (bit (s.fld F.PLK_STATUS_PATHS) p = false ∨
      s.time.cycle < Tab.get (fun _ => 0) s.plk.heard p.val + s.lease → exec (.pathTimeout p) s = .next s) ∧
    (bit (s.fld F.PLK_STATUS_PATHS) p = true → Tab.get (fun _ => 0) s.plk.heard p.val + s.lease ≤ s.time.cycle → Gives (.pathTimeout p) s (fun t => bit (t.fld F.PLK_STATUS_PATHS) p = false ∧
      t.rbit Reg.PLK_IRQ 2 = true ∧ Logs s t 0x0E16 0 p ∧ t.plk = s.plk ∧ SameMem s t ∧
      RegsKept s t [Reg.PLK_STATUS, Reg.PLK_IRQ, Reg.EVL_LOST]))) ∧
  (∀ s : State, (s.role = 4 → s.plk.lastHb + (s.lease + 2 * cycPerMs) ≤ s.time.cycle →
      s.flag F.PLK_STATUS_IMG_MISMATCH = false → exec .leaseExpire s = .next s.takeOver) ∧
    (s.role ≠ 4 ∨ s.time.cycle < s.plk.lastHb + (s.lease + 2 * cycPerMs) ∨ s.flag F.PLK_STATUS_IMG_MISMATCH = true →
      exec .leaseExpire s = .next s)) ∧
  (∀ s : State, (s.role ≠ 2 ∨ s.fld F.PLK_STATUS_PARTNER_ROLE ≠ 4 → Gives .plkHandover s (fun t => t.flag F.PLK_STATUS_CMD_IGN = true ∧
      t.plk = s.plk ∧ SameMem s t ∧ RegsKept s t [Reg.PLK_STATUS])) ∧
    (∀ m u, s.role = 2 → s.fld F.PLK_STATUS_PARTNER_ROLE = 4 → s.plk.cut = none → m = s.fld F.PLK_MIRROR_MREF →
      u = s.mirStart m (s.num (Reg.CT_LAST_CSEQ m)) false true → exec .plkHandover s =
        .next (((u.setPlk { u.plk with handing := true }).setRole 3).log 0x0E12 0 (u.plk.epoch % 2 ^ 32)).standDown.cycDemote)) ∧
  (∀ (s : State) (k : Byte), (k ≠ 0xA5 → exec (.plkForceTake k) s = .next s.cmdIgnored) ∧
    ((s.role ≠ 1 ∧ s.role ≠ 3 ∧ s.role ≠ 5) ∨ s.flag F.PLK_STATUS_IMG_MISMATCH = true → Gives (.plkForceTake 0xA5) s (fun t =>
      t.flag F.PLK_STATUS_CMD_IGN = true ∧ t.plk = s.plk ∧ SameMem s t ∧ RegsKept s t [Reg.PLK_STATUS])) ∧
    (s.role = 1 ∨ s.role = 3 ∨ s.role = 5 → s.flag F.PLK_STATUS_IMG_MISMATCH = false → exec (.plkForceTake 0xA5) s =
      .next (s.takeOwn.log 0x0E19 0 (s.nextEpoch % 2 ^ 32)))) ∧
  (∀ s : State, (s.role = 5 → exec .plkResync s = .next (s.setRole 3).standDown) ∧
    (s.role ≠ 5 → Gives .plkResync s (fun t => t.flag F.PLK_STATUS_CMD_IGN = true ∧ t.plk = s.plk ∧ SameMem s t ∧ RegsKept s t [Reg.PLK_STATUS]))) ∧
  (∀ (s : State) (l : Fin 2), (∀ tr, exec (.plkLinkLoss l tr) s = .next ((s.setPlk { s.plk with
      links := s.plk.links.filter (fun x => x != l.val) }).laneHealth l (fun u => u.transient (.lane l) (if tr then 2 else 1)))) ∧
    Gives (.plkLinkUp l) s (fun t => l.val ∈ t.plk.links ∧ (l.val ∈ s.plk.links → t = s) ∧ SameMem s t ∧ RegsKept s t [])) ∧
  (∀ (s : State) (q : Word), (s.role ≠ 2 ∨ s.flag (F.CT_CTRL_RUNNING (s.fld F.PLK_MIRROR_MREF)) = false ∨ cseqEntry q.toNat ≠ 0 ∨
      strokeOf q.toNat ≠ strokeOf (s.num (Reg.CT_LAST_CSEQ (s.fld F.PLK_MIRROR_MREF))) ∨ s.plk.lastCut = some (strokeOf q.toNat) ∨
      s.fld F.PLK_MIRROR_MDIV = 0 ∨ strokeOf q.toNat % s.fld F.PLK_MIRROR_MDIV ≠ 0 ∨ s.plk.cut ≠ none → exec (.mirrorCut q) s = .next s) ∧
    (s.role = 2 → s.flag (F.CT_CTRL_RUNNING (s.fld F.PLK_MIRROR_MREF)) = true → cseqEntry q.toNat = 0 →
      strokeOf q.toNat = strokeOf (s.num (Reg.CT_LAST_CSEQ (s.fld F.PLK_MIRROR_MREF))) → s.plk.lastCut ≠ some (strokeOf q.toNat) →
      s.fld F.PLK_MIRROR_MDIV ≠ 0 → strokeOf q.toNat % s.fld F.PLK_MIRROR_MDIV = 0 → s.plk.cut = none →
      exec (.mirrorCut q) s = .next ((s.setPlk { s.plk with lastCut := some (strokeOf q.toNat) }).mirStart (s.fld F.PLK_MIRROR_MREF) q.toNat
        (s.fld F.PLK_STATUS_PARTNER_ROLE == 3) false))) ∧
  (∀ (s : State) (l : Fin 2) (b : List Byte), (s.role ≠ 3 → s.role ≠ 4 → exec (.mirrorFrameRx l b) s = .next s) ∧
    (b.length < 0x20 → exec (.mirrorFrameRx l b) s = .next s)) ∧
  (∀ (s : State) (i : Fin 2) (b : List Byte) (l : List Nat), l = b.map BitVec.toNat → s.role = 3 ∨ s.role = 4 → 0x20 ≤ l.length → fieldAt l 0 4 = 0x4D4E4D41 →
    fieldAt l 4 2 = 1 → fieldAt l 0x18 4 = l.length - 0x20 → l.length ≤ 8192 + 0x20 → fieldAt l 0x1C 4 = crc32c (l.take 0x1C ++ l.drop 0x20) →
    s.plk.mirror = none → (fieldAt l 6 2 = 1 → s.plk.rx = none → exec (.mirrorFrameRx i b) s =
        .next ((s.mirCount l.length).mirTrailer (fieldAt l 8 4) (fieldAt l 0x0C 2) [] (l.drop 0x20))) ∧
      (fieldAt l 6 2 = 0 ∨ fieldAt l 6 2 = 2 → s.plk.rx = none → Gives (.mirrorFrameRx i b) s (fun t =>
        t.plk.rx = some (fieldAt l 8 4, [(fieldAt l 0x0C 2, l.drop 0x20)]) ∧ t.role = s.role ∧ SameMem s t ∧ RegsKept s t [Reg.PLK_RATE]))) ∧
  (∀ (s : State) (code : Nat), (s.role ≠ 4 → s.syncLost code = s.setPlk { s.plk with rx := none }) ∧
    (s.role = 4 → (s.syncLost code).role = 3 ∧ (s.syncLost code).flag F.PLK_STATUS_IN_SYNC = false ∧ Logs s (s.syncLost code) 0x0E15 0 code))

/-- CYC_LOAD, CYC_LOAD_DONE, CYC_START_WARM, CYC_START_COLD, CYC_STOP, CYC_ONLINE_CHANGE, CYC_SWITCH, CYC_START_CATCH, CYC_DONE,
CYC_PROGRAM_FAULT, CYC_FORCE_WRITE and CYC_FORCE_ACK complete as the clauses say; the clauses rest on R460 to R476. -/
def Obligations.CyclicProgramCommands : Prop :=
  (∀ (s : State) (cmd code : Nat), cmd < 8 → code < 256 → ∀ t, t = s.cycRes cmd code → t.fld F.CYC_RES_CMD = cmd ∧ t.fld F.CYC_RES_REFUSE = code ∧
    t.cyc = s.cyc ∧ (code ≠ 0 → cmd = 1 → Logs s t 0x0F17 0x7001 code) ∧ (code ≠ 0 → cmd ≠ 1 → Logs s t 0x0F14 0x7001 (code + cmd * 256)) ∧
    (code = 0 → RegsKept s t [Reg.CYC_RES]) ∧ SameMem s t ∧ RegsKept s t [Reg.CYC_RES, Reg.EVL_LOST]) ∧
  (∀ s : State, (s.cyc.loading ≠ none → exec .cycLoad s = .next (s.cycRes 1 9)) ∧
    (s.cyc.loading = none → Gives .cycLoad s (fun t => t.flag F.CYC_RES_BUSY = true ∧ t.fld F.CYC_RES_REFUSE = 0 ∧ SameMem s t ∧
      t.cyc = { s.cyc with loading := some (s.fld F.CYC_SRC_LO_ADDR * 64 + s.fld F.CYC_SRC_HI_ADDR * 2 ^ 32, s.num Reg.CYC_SRC_LEN) } ∧
      RegsKept s t [Reg.CYC_RES]))) ∧
  (∀ (s : State) (a : ProgAreas), s.cyc.loading = none → exec (.cycLoadDone a) s = .next s) ∧
  (∀ (s u : State) (a : ProgAreas) (src len : Nat), s.cyc.loading = some (src, len) →
    u = ((s.setCyc { s.cyc with loading := none }).setFld F.CYC_RES_BUSY 0).cycIrq 4 →
    (∀ c o, c ≠ 0 → u.progVerify a src len = (c, o) → exec (.cycLoadDone a) s = .next (u.cycRes 1 c)) ∧
    (∀ p, u.progVerify a src len = (0, some p) → Gives (.cycLoadDone a) s (fun t => t.cyc = { s.cyc with loading := none, staged := some p } ∧
      t.flag F.CYC_STATUS_STAGED = true ∧ t.flag F.CYC_RES_BUSY = false ∧ t.fld F.CYC_RES_REFUSE = 0 ∧ t.rbit Reg.CYC_IRQ 4 = true ∧ SameMem s t))) ∧
  (∀ (s : State) (cold : Bool) (c : Instr) (n : Nat), (c, n) = (if cold then (Instr.cycStartCold, 3) else (Instr.cycStartWarm, 2)) →
    (s.cyc.staged.or s.cyc.cur = none → exec c s = .next (s.cycRes n 9)) ∧
    (∀ p, s.cyc.staged.or s.cyc.cur = some p → (2 ≤ s.cycState ∨ s.holdsToken = false → exec c s = .next (s.cycRes n 9)) ∧
      (s.cycState < 2 → s.holdsToken = true → (cold = false → s.cyc.store ≠ some p.retain → exec c s = .next (s.cycRes n 11)) ∧
        (cold = false → s.cyc.store = some p.retain → exec c s = .next ((s.cycRes n 0).takeStaged.cycBegin false none 0)) ∧
        (cold = true → s.cyc.staged ≠ none → exec c s = .next ((s.cycRes n 0).takeStaged.cycBegin true none 0)) ∧
        (cold = true → s.cyc.staged = none → exec c s = .next ((s.cycRes n 0).clearForces.cycBegin true none 0))))) ∧
  (∀ (s : State) (cold : Bool) (cause : Nat), cause < 16 → ∀ t, t = s.cycBegin cold none cause → t.cycState = 2 ∧ t.fld F.CYC_STATUS_CAUSE = cause ∧
    t.fld F.CYC_STATUS_K = 0 ∧ t.num Reg.CYC_CNT = 0 ∧ t.num Reg.CYC_SKIP = 0 ∧ t.cyc.due = some cold ∧ t.cyc.cur = s.cyc.cur ∧
    t.rbit Reg.CYC_IRQ 1 = true ∧ Logs s t 0x0F10 0x7001 (2 + cause * 16) ∧ SameMem s t ∧
    RegsKept s t [Reg.CYC_CNT, Reg.CYC_SKIP, Reg.CYC_STATUS, Reg.CYC_IRQ, Reg.EVL_LOST]) ∧
  (∀ s : State, (s.cycState < 2 → exec .cycStop s = .next (s.cycRes 4 9)) ∧ (2 ≤ s.cycState → exec .cycStop s = .next ((s.cycRes 4 0).cycStopWith 0)) ∧
    (∀ x : Word, s.cycState ≠ 3 → exec (.cycProgramFault x) s = .next s) ∧
    (∀ x : Word, s.cycState = 3 → exec (.cycProgramFault x) s = .next ((s.log 0x0F19 0x7001 x.toNat).cycStopWith 2))) ∧
  (∀ (s : State) (cause : Nat), cause < 16 → s.cyc.batch = none → ∀ t, t = s.cycStopWith cause → t.cycState = 1 ∧ t.fld F.CYC_STATUS_CAUSE = cause ∧
    t.cyc.run = none ∧ t.cyc.due = none ∧ t.cyc.switch = none ∧ t.cyc.forces = t.forceTable ∧ Logs s t 0x0F10 0x7001 (1 + cause * 16) ∧ SameMem s t ∧
    RegsKept s t [Reg.CYC_STATUS, Reg.CYC_IRQ, Reg.EVL_LOST]) ∧
  (∀ s : State, (s.cycState ≠ 3 ∨ s.holdsToken = false → exec .cycSwitch s = .next (s.cycRes 6 9)) ∧
    (s.cycState = 3 → s.holdsToken = true → s.cyc.cur = none ∨ s.cyc.staged = none → exec .cycSwitch s = .next (s.cycRes 6 14)) ∧
    (∀ c p, s.cycState = 3 → s.holdsToken = true → s.cyc.cur = some c → s.cyc.staged = some p →
      (p.retain ≠ c.retain → exec .cycSwitch s = .next (s.cycRes 6 11)) ∧
      (p.retain = c.retain → Gives .cycSwitch s (fun t => t.cyc = { s.cyc with switch := some .boundary } ∧ t.fld F.CYC_RES_CMD = 6 ∧
        t.fld F.CYC_RES_REFUSE = 0 ∧ SameMem s t ∧ RegsKept s t [Reg.CYC_RES])))) ∧
  (∀ s : State, (s.cyc.cur = none ∨ s.cycState = 0 → exec .cycOnlineChange s = .next (((s.cycRes 5 9).ocReport 9 0 []).cycIrq 3)) ∧
    (s.cyc.cur ≠ none → s.cycState ≠ 0 → s.cyc.batch ≠ none → exec .cycOnlineChange s = .next (((s.cycRes 5 12).ocReport 12 0 []).cycIrq 3))) ∧
  (∀ (s : State) (p : Prog) (a n r : Nat) (es : List OcEntry), s.cyc.cur = some p → s.cycState ≠ 0 → s.cyc.batch = none →
    a = s.fld F.CYC_OC_SRC_LO_ADDR * 16 + s.fld F.CYC_OC_SRC_HI_ADDR * 2 ^ 32 → r = s.fld F.CYC_OC_RPT_LO_ADDR * 16 + s.fld F.CYC_OC_RPT_HI_ADDR * 2 ^ 32 →
    n = s.fld F.CYC_OC_N_N →
    (n = 0 ∨ 4096 < n ∨ inDram a (16 * n) = false ∨ inDram r 12 = false → exec .cycOnlineChange s =
      .next (((s.cycRes 5 10).ocReport 10 0 []).cycIrq 3)) ∧
    (0 < n → n ≤ 4096 → inDram a (16 * n) = true → inDram r 12 = true →
      ((∃ i, i < n ∧ s.ocEntry p (a + 16 * i) = none) → exec .cycOnlineChange s = .next (((s.cycRes 5 13).ocReport 13 0 []).cycIrq 3)) ∧
      ((List.range n).map (fun i => s.ocEntry p (a + 16 * i)) = es.map some →
        (s.cycState = 1 → exec .cycOnlineChange s = .next ((s.cycRes 5 0).setCyc { s.cyc with batch := some es }).ocFlush) ∧
        (s.cycState ≠ 1 → Gives .cycOnlineChange s (fun t => t.cyc = { s.cyc with batch := some es } ∧ t.fld F.CYC_RES_REFUSE = 0 ∧ SameMem s t ∧
          RegsKept s t [Reg.CYC_RES]))))) ∧
  (∀ (s : State) (q : Word) (arr : List (Nat × Token)), s.cyc.cur = none → exec (.cycStartCatch q arr) s = .next s) ∧
  (∀ (s u v : State) (p : Prog) (cs : Word) (arr : List (Nat × Token)) (q : Nat), s.cyc.cur = some p → q = cs.toNat → u = s.cycArrive arr →
    v = (u.setCyc { u.cyc with startAt := some q }).closeCycle.sendOwed q →
    (u.isStart p q = true ↔ u.flag (F.CT_CTRL_RUNNING p.crew) = true ∧ cseqEntry q = 0 ∧ strokeOf q = strokeOf (u.num (Reg.CT_LAST_CSEQ p.crew)) ∧
      strokeOf q % p.period = p.phase ∧ u.cyc.startAt ≠ some q) ∧
    (u.isStart p q = false → exec (.cycStartCatch cs arr) s = .next u) ∧
    (u.isStart p q = true → (v.cycState = 1 → exec (.cycStartCatch cs arr) s = .next (v.stopAction p q)) ∧
      (v.cycState = 2 → exec (.cycStartCatch cs arr) s = .next ((v.cycTo 3 (v.fld F.CYC_STATUS_CAUSE)).beginCycle p q)) ∧
      (v.cycState = 3 → v.cyc.run ≠ none → exec (.cycStartCatch cs arr) s = .next (v.skipCycle p q)) ∧
      (v.cycState = 3 → v.cyc.run = none → v.cyc.switch = some .idle → exec (.cycStartCatch cs arr) s =
        .next (v.setCyc { v.cyc with switch := none, due := some false })) ∧
      (v.cycState = 3 → v.cyc.run = none → v.cyc.switch ≠ some .idle → exec (.cycStartCatch cs arr) s = .next (v.beginCycle p q)))) ∧
  (∀ (s : State) (p : Prog) (q : Nat), q < 2 ^ 32 → ∀ t, t = s.beginCycle p q → t.cyc.run = some (q, s.time.cycle) ∧ t.flag F.CYC_IRQ_START = true ∧
    t.num Reg.CYC_START_CSEQ = q) ∧
  (∀ s : State, s.cyc.cur = none ∨ s.cyc.run = none → exec .cycDone s = .next s) ∧
  (∀ (s : State) (p : Prog) (q c : Nat), s.cyc.cur = some p → s.cyc.run = some (q, c) → ∃ u : State, exec .cycDone s =
    .next ((u.cutBoundary.mirBoundary).cycSwitchNow p) ∧ u.cyc.run = none ∧ u.cyc.bound = some s.time.cycle ∧ u.cyc.journal = [] ∧
    u.cyc.forces = s.forceTable ∧ u.num Reg.CYC_CNT = (s.num Reg.CYC_CNT + 1) % 2 ^ 32 ∧ u.flag F.CYC_IRQ_START = false ∧
    (s.cyc.overran = false → u.fld F.CYC_STATUS_K = 0)) ∧
  (∀ (s : State) (x : Fin 1024) (v : Word), Gives (.cycForceWrite x 0 v) s (fun t => t.rd (Reg.CYC_FRC0 x) = v &&& 0xBFFFFFFF ∧
      (s.flag (F.CYC_FRC0_ACTIVE x) = true → Logs s t 0x0F15 0x7001 (x.val + if v.getLsbD 31 then 0 else 2 ^ 31)) ∧
      (s.cycState < 2 → t.cyc = { s.cyc with forces := t.forceTable }) ∧ (2 ≤ s.cycState → t.cyc = s.cyc) ∧ SameMem s t ∧
      RegsKept s t [Reg.CYC_FRC0 x, Reg.EVL_LOST]) ∧
    Gives (.cycForceWrite x 1 v) s (fun t => (2 ≤ s.cycState → t = s) ∧ SameMem s t ∧ RegsKept s t []) ∧
    Gives (.cycForceWrite x 2 v) s (fun t => t.rd (Reg.CYC_FRC_VALUE_LO x) = v ∧ SameMem s t ∧ RegsKept s t [Reg.CYC_FRC_VALUE_LO x]) ∧
    Gives (.cycForceWrite x 3 v) s (fun t => t.rd (Reg.CYC_FRC_VALUE_HI x) = v ∧ SameMem s t ∧ RegsKept s t [Reg.CYC_FRC_VALUE_HI x])) ∧
  (∀ s : State, Gives .cycForceAck s (fun t => (∀ x, x < 1024 → t.flag (F.CYC_FRC0_CLEARED x) = false ∧
    t.flag (F.CYC_FRC0_ACTIVE x) = s.flag (F.CYC_FRC0_ACTIVE x)) ∧ t.cyc = s.cyc ∧ SameMem s t ∧ RegsKept s t ((List.range 1024).map Reg.CYC_FRC0)))

/-- VLT_VERIFY, VLT_STORE, VLT_ENROL, VLT_REVOKE, VLT_IMPORT, VLT_LOAD_KEY, VLT_ERASE_KEY, VLT_ARB_ADVANCE, VLT_ATTEST, VLT_DBG_CHALLENGE,
VLT_DBG_UNLOCK, VLT_DBG_LOCK, VLT_RNG_READ, DEBUG_SCOPE_EXPIRE, ENTROPY_FAIL and VLT_COMMAND_DONE complete as the clauses say; the clauses rest on R512 to R526. -/
def Obligations.VaultCommands : Prop :=
  (∀ (s : State) (cmd code : Nat) (tap : Bool), cmd < 16 → code < 256 → ∀ t, t = s.vltRefuse cmd code tap → t.flag F.VLT_RES_BUSY = true ∧
    t.fld F.VLT_RES_CMD = cmd ∧ t.vlt = { s.vlt with busy := some (code, 0) } ∧ (cmd = 11 → Logs s t 0x1117 (if tap then 0 else 0x7000) code) ∧
    (cmd ≠ 11 → Logs s t 0x1115 (if tap then 0 else 0x7000) (code + cmd * 2 ^ 8)) ∧ SameMem s t ∧ RegsKept s t [Reg.VLT_RES, Reg.EVL_LOST]) ∧
  (∀ (s : State) (h i : BitVec 16) (tap : Bool) (c : Instr) (n : Nat), s.flag F.VLT_RES_BUSY = true →
    ((c, n) ∈ [(Instr.vltVerify, 1), (.vltStore, 2), (.vltEnrol, 3), (.vltRevoke, 4), (.vltImport, 5), (.vltLoadKey, 6), (.vltEraseKey h, 7),
      (.vltArbAdvance i, 8), (.vltAttest, 9), (.vltDbgLock, 12)] → exec c s = .next (s.vltBusy n false)) ∧
    ((c, n) ∈ [(Instr.vltDbgChallenge tap, 10), (.vltDbgUnlock tap, 11)] → exec c s = .next (s.vltBusy n tap))) ∧
  (∀ s : State, (s.vlt.busy = none → exec .vltCommandDone s = .next s) ∧ (∀ r o, s.vlt.busy = some (r, o) → Gives .vltCommandDone s (fun t =>
    t.flag F.VLT_RES_BUSY = false ∧ t.flag F.VLT_RES_DONE = true ∧ t.fld F.VLT_RES_REFUSE = r % 2 ^ 8 ∧ t.fld F.VLT_RES_OUT = o % 2 ^ 16 ∧
    t.vlt = { s.vlt with busy := none } ∧ SameMem s t ∧ RegsKept s t [Reg.VLT_RES]))) ∧
  (∀ (s : State), s.flag F.VLT_RES_BUSY = false →
    (s.vltBytes = none → Gives .vltVerify s (fun t => t.vlt = { s.vlt with busy := some (2, 0) } ∧ Logs s t 0x1111 0x7000 2 ∧ SameMem s t) ∧
      Gives .vltStore s (fun t => t.vlt = { s.vlt with busy := some (2, 0) } ∧ Logs s t 0x1111 0x7000 2 ∧ SameMem s t)) ∧
    (∀ l code, s.vltBytes = some l → code = s.fwCheck l → code ≠ 0 →
      Gives .vltVerify s (fun t => t.vlt = { s.vlt with busy := some (code, 0) } ∧ Logs s t 0x1111 0x7000 (code + fwKind l * 2 ^ 8) ∧ SameMem s t) ∧
      Gives .vltStore s (fun t => t.vlt = { s.vlt with busy := some (code, 0) } ∧
        Logs s t 0x1111 0x7000 (code + fwKind l * 2 ^ 8 + (1 - s.fwActive (fwKind l)) * 2 ^ 16) ∧ SameMem s t)) ∧
    (∀ l, s.vltBytes = some l → s.fwCheck l = 0 →
      Gives .vltVerify s (fun t => t.vlt.busy = some (0, fwKind l) ∧ Logs s t 0x1110 0x7000 (fwKind l + fieldAt l 0x20 3 * 2 ^ 8) ∧
        (fwEnc l = false → SameMem s t) ∧ (fwKind l = 1 → t.vlt = { s.vlt with busy := some (0, 1) })) ∧
      (∀ code u, s.fwStore l = (code, u) → exec .vltStore s = .next (u.vltBegin 2 code (if code = 0 then 1 - s.fwActive (fwKind l) else 0))))) ∧
  (∀ (s : State) (l : List Nat), s.flag F.VLT_RES_BUSY = false → l = s.vltRecord →
    (ownRecordOk l 1 [(0x10, 0x71)] = false ∨ ((l.drop 0x10).take 97).headD 0 ≠ 4 → exec .vltEnrol s = .next (s.vltRefuse 3 2 false)) ∧
    (ownRecordOk l 2 [(0x10, 0x40)] = false → exec .vltRevoke s = .next (s.vltRefuse 4 2 false)) ∧
    (importOk l = false → exec .vltImport s = .next (s.vltRefuse 5 2 false)) ∧
    (ownRecordOk l 1 [(0x10, 0x71)] = true → ((l.drop 0x10).take 97).headD 0 = 4 → s.sw18 = false → exec .vltEnrol s = .next (s.vltRefuse 3 8 false)) ∧
    (ownRecordOk l 2 [(0x10, 0x40)] = true → s.sw18 = false → exec .vltRevoke s = .next (s.vltRefuse 4 8 false)) ∧
    (importOk l = true → s.sw18 = false → exec .vltImport s = .next (s.vltRefuse 5 8 false))) ∧
  (∀ (s : State) (l : List Nat) (k : Nat), s.flag F.VLT_RES_BUSY = false → l = s.vltRecord → ownRecordOk l 1 [(0x10, 0x71)] = true →
    ((l.drop 0x10).take 97).headD 0 = 4 → s.sw18 = true → s.owner = none → s.freeSlot = some k → fieldAt l 6 1 = k →
    signedUnder ((l.drop 0x10).take 97) l = true → if recordBound l = false then exec .vltEnrol s = .next (s.vltRefuse 3 0x0B false) else Gives .vltEnrol s (fun t => t.ownerSlot k = 1 ∧ Logs s t 0x1112 0x7000 k ∧ SameMem s t ∧
      t.vlt = { s.vlt with
        hashes := Tab.put s.vlt.hashes k (beBytes 48 (sha384 ((l.drop 0x10).take 97))), pubs := Tab.put s.vlt.pubs k ((l.drop 0x10).take 97),
        busy := some (0, k) })) ∧
  (∀ (s : State) (l : List Nat) (k : Nat), s.flag F.VLT_RES_BUSY = false → l = s.vltRecord → ownRecordOk l 2 [(0x10, 0x40)] = true →
    s.sw18 = true → s.owner = some k → s.ownerSigned l = 0 → (l.drop 0x10).take 48 = Tab.get (fun _ => []) s.vlt.hashes k →
    if recordBound l = false then exec .vltRevoke s = .next (s.vltRefuse 4 0x0B false) else Gives .vltRevoke s (fun t => t.ownerSlot k = 2 ∧ t.vlt = { s.vlt with busy := some (0, k) } ∧ Logs s t 0x1113 0x7000 k ∧ SameMem s t)) ∧
  (∀ (s : State) (l : List Nat) (u i : Nat), s.flag F.VLT_RES_BUSY = false → l = s.vltRecord → importOk l = true → s.sw18 = true →
    s.ownerSigned l = 0 → u = fieldAt l 0x10 1 → i = fieldAt l 0x11 1 →
    (u ≠ 2 → if recordBound l = false then exec .vltImport s = .next (s.vltRefuse 5 0x0B false) else Gives .vltImport s (fun t => t.vlt.busy = some (0, 0x1000 + 4 * u + i) ∧ Logs s t 0x111B 0x7000 (u + i * 2 ^ 8) ∧
      Tab.find t.vlt.pkeys (0x1000 + 4 * u + i) = some ((l.drop 0x18).take 32, if u = 1 then (l.drop 0x38).take 12 else []) ∧ SameMem s t)) ∧
    (u = 2 → s.rngOk = false → exec .vltImport s = .next (s.vltRefuse 5 (if recordBound l = false then 0x0B else 0x0F) false)) ∧
    (u = 2 → s.rngOk = true → if recordBound l = false then exec .vltImport s = .next (s.vltRefuse 5 0x0B false) else Gives .vltImport s (fun t => t.vlt = { s.vlt with busy := some (0, 0) } ∧ t.fresh = s.fresh + 2 ∧
      Logs s t 0x111B 0x7000 (2 + i * 2 ^ 8)))) ∧
  (∀ (s : State) (l : List Nat), s.flag F.VLT_RES_BUSY = false →
    (s.vltBytes = none ∨ (s.vltBytes = some l ∧ l.length ≠ 64) → exec .vltLoadKey s = .next (s.vltRefuse 6 2 false)) ∧
    (s.vltBytes = some l → l.length = 64 → (∀ h, h < 256 → Tab.find s.vlt.vkeys h ≠ none) → exec .vltLoadKey s = .next (s.vltRefuse 6 0x0D false)) ∧
    (∀ h, s.vltBytes = some l → l.length = 64 → h < 256 → Tab.find s.vlt.vkeys h = none → (∀ i, i < h → Tab.find s.vlt.vkeys i ≠ none) →
      Gives .vltLoadKey s (fun t => Tab.find t.vlt.vkeys h = some (l.take 32, (l.drop 32).take 12) ∧ t.vlt.busy = some (0, h) ∧
        (∀ i, i ≠ h → Tab.find t.vlt.vkeys i = Tab.find s.vlt.vkeys i) ∧ SameMem s t ∧ RegsKept s t [Reg.VLT_RES]))) ∧
  (∀ (s : State) (h : BitVec 16), s.flag F.VLT_RES_BUSY = false →
    (Tab.find s.vlt.vkeys h.toNat = none → exec (.vltEraseKey h) s = .next (s.vltRefuse 7 0x0E false)) ∧
    (Tab.find s.vlt.vkeys h.toNat ≠ none → Gives (.vltEraseKey h) s (fun t => Tab.find t.vlt.vkeys h.toNat = none ∧ t.vlt.busy = some (0, 0) ∧
      (∀ i, i ≠ h.toNat → Tab.find t.vlt.vkeys i = Tab.find s.vlt.vkeys i) ∧ SameMem s t ∧ RegsKept s t [Reg.VLT_RES]))) ∧
  (∀ (s : State) (i : BitVec 16) (rows : Nat), s.flag F.VLT_RES_BUSY = false → rows = Tab.get (fun _ => 0) s.vlt.rows i.toNat →
    (64 ≤ i.toNat ∨ 64 ≤ rows ∨ s.vltLen ≤ s.num (Reg.VLT_ARB i.toNat) → exec (.vltArbAdvance i) s = .next (s.vltRefuse 8 0x0C false)) ∧
    (∀ k, i.toNat < 64 → rows < 64 → s.num (Reg.VLT_ARB i.toNat) < s.vltLen → (i.toNat, s.vltLen, k) ∈ s.runningItems → i.toNat < 8 ∨ s.owner = some k →
      Gives (.vltArbAdvance i) s (fun t => t.num (Reg.VLT_ARB i.toNat) = s.vltLen ∧ Tab.get (fun _ => 0) t.vlt.rows i.toNat = rows + 1 ∧
        t.vlt.busy = some (0, s.vltLen % 2 ^ 16) ∧ Logs s t 0x1114 0x7000 (i.toNat + (rows + 1) * 2 ^ 8) ∧ SameMem s t ∧
        RegsKept s t [Reg.VLT_ARB i.toNat, Reg.VLT_RES, Reg.EVL_LOST]))) ∧
  (∀ (s : State) (l : List Nat), s.flag F.VLT_RES_BUSY = false →
    (s.vltBytes = none ∨ (s.vltBytes = some l ∧ l.length ≠ 864) → exec .vltAttest s = .next (s.vltRefuse 9 2 false)) ∧
    (s.vltBytes = some l → l.length = 864 → Gives .vltAttest s (fun t => t.vlt = { s.vlt with busy := some (0, 864) } ∧
      Logs s t 0x1119 0x7000 (fieldAt ((l.drop 8).take 32) 0 4) ∧ RegsKept s t [Reg.VLT_RES, Reg.EVL_LOST] ∧
      (∀ j, j < (s.report ((l.drop 8).take 32)).length → (t.rdByte (s.vltArg + j)).toNat = (s.report ((l.drop 8).take 32)).getD j 0 % 256)))) ∧
  (∀ (s : State) (tap : Bool), s.flag F.VLT_RES_BUSY = false →
    (s.rngOk = false → exec (.vltDbgChallenge tap) s = .next (s.vltRefuse 10 0x0F tap)) ∧
    (s.rngOk = true → Gives (.vltDbgChallenge tap) s (fun t => t.vlt = { s.vlt with chal := true, busy := some (0, 0) } ∧ t.fresh = s.fresh + 1 ∧
      (∀ w, w < 8 → t.num (Reg.VLT_DBG_CHAL w) = Config.drbg s.fresh % 2 ^ 256 / 2 ^ (32 * w) % 2 ^ 32) ∧ SameMem s t ∧
      RegsKept s t (Reg.VLT_RES :: (List.range 8).map Reg.VLT_DBG_CHAL)))) ∧
  (∀ (s : State) (tap : Bool) (l : List Nat) (scope minutes : Nat), s.flag F.VLT_RES_BUSY = false → l = s.vltRecord → scope = fieldAt l 0x30 1 →
    minutes = fieldAt l 0x32 2 → ownRecordOk l 4 [(0x10, 0x31), (0x32, 0x34)] = true → scope ≤ 15 → minutes ≤ 1440 →
    (s.vlt.chal = false ∨ (l.drop 0x10).take 32 ≠ s.chalBytes → exec (.vltDbgUnlock tap) s = .next (s.vltRefuse 11 (if recordBound l = false then 0x0B else 0x10) tap)) ∧
    (s.vlt.chal = true → (l.drop 0x10).take 32 = s.chalBytes → s.ownerSigned l ≠ 0 → exec (.vltDbgUnlock tap) s =
      .next (s.vltRefuse 11 (if recordBound l = false then 0x0B else s.ownerSigned l) tap)) ∧
    (s.vlt.chal = true → (l.drop 0x10).take 32 = s.chalBytes → s.ownerSigned l = 0 → if recordBound l = false then exec (.vltDbgUnlock tap) s = .next (s.vltRefuse 11 0x0B tap)
      else Gives (.vltDbgUnlock tap) s (fun t =>
      t.fld F.VLT_STATUS_SCOPE = scope ∧ t.vlt = { s.vlt with chal := false, minutes := minutes, since := s.time.cycle, busy := some (0, scope) } ∧
      Logs s t 0x1116 (if tap then 0 else 0x7000) (scope + minutes * 2 ^ 16) ∧ SameMem s t))) ∧
  (∀ s : State, s.flag F.VLT_RES_BUSY = false → Gives .vltDbgLock s (fun t => t.fld F.VLT_STATUS_SCOPE = 0 ∧
    t.vlt = { s.vlt with minutes := 0, busy := some (0, 0) } ∧ Logs s t 0x1118 0x7000 0 ∧ SameMem s t ∧
    RegsKept s t [Reg.VLT_STATUS, Reg.VLT_RES, Reg.EVL_LOST])) ∧
  (∀ s : State, (s.fld F.VLT_STATUS_SCOPE = 0 ∨ s.vlt.minutes = 0 ∨ s.time.cycle < s.vlt.since + s.vlt.minutes * 60000 * cycPerMs →
      exec .debugScopeExpire s = .next s) ∧
    (s.fld F.VLT_STATUS_SCOPE ≠ 0 → s.vlt.minutes ≠ 0 → s.vlt.since + s.vlt.minutes * 60000 * cycPerMs ≤ s.time.cycle → Gives .debugScopeExpire s (fun t => t.fld F.VLT_STATUS_SCOPE = 0 ∧
      t.flag F.VLT_STATUS_DBG_CHG = true ∧ t.vlt = { s.vlt with minutes := 0 } ∧ Logs s t 0x1118 0x7000 1 ∧ SameMem s t ∧
      RegsKept s t [Reg.VLT_STATUS, Reg.EVL_LOST])) ∧
    (s.rngOk = true → Gives .vltRngRead s (fun t => t.bus = ⟨false, Config.drbg s.fresh % 2 ^ 32⟩ ∧ t.fresh = s.fresh + 1 ∧ SameMem s t ∧ RegsKept s t []) ∧
      Gives .entropyFail s (fun t => t.flag F.VLT_STATUS_ENTROPY_FAIL = true ∧ Logs s t 0x111A 0x7000 0 ∧ SameMem s t ∧
        RegsKept s t [Reg.VLT_STATUS, Reg.EVL_LOST])) ∧
    (s.rngOk = false → Gives .vltRngRead s (fun t => t.bus = ⟨false, 0⟩ ∧ t.fresh = s.fresh ∧ SameMem s t ∧ RegsKept s t []) ∧
      exec .entropyFail s = .next s))
end

