-- ==== Sys2Proof/Laws/Bits.lean ====
section
/-! SUPPORT. Bit fields: a field reads what was written to it, and writing it leaves the other fields as they were. -/
namespace Sys2Proof

theorem setBits_toNat_lt (v : Word) {lo w : Nat} (x : Nat) (h : lo + w ≤ 32) :
    v.toNat % 2 ^ lo + (x % 2 ^ w) * 2 ^ lo + (v.toNat >>> (lo + w)) * 2 ^ (lo + w) < 2 ^ 32 := by
  have hv := v.isLt
  have h1 : v.toNat % 2 ^ lo < 2 ^ lo := Nat.mod_lt _ (by positivity)
  have h2 : x % 2 ^ w < 2 ^ w := Nat.mod_lt _ (by positivity)
  have h3 : v.toNat >>> (lo + w) < 2 ^ (32 - (lo + w)) := by
    rw [Nat.shiftRight_eq_div_pow]
    apply Nat.div_lt_of_lt_mul
    rw [← Nat.pow_add]
    have : lo + w + (32 - (lo + w)) = 32 := by omega
    rw [this]; exact hv
  have h4 : (x % 2 ^ w) * 2 ^ lo + 2 ^ lo ≤ 2 ^ (lo + w) := by
    have : (x % 2 ^ w + 1) * 2 ^ lo ≤ 2 ^ w * 2 ^ lo := Nat.mul_le_mul_right _ (by omega)
    rw [Nat.pow_add, Nat.mul_comm (2 ^ lo)]; linarith [Nat.add_mul (x % 2 ^ w) 1 (2 ^ lo)]
  have h5 : (v.toNat >>> (lo + w)) * 2 ^ (lo + w) + 2 ^ (lo + w) ≤ 2 ^ 32 := by
    have e : (2 : Nat) ^ 32 = 2 ^ (32 - (lo + w)) * 2 ^ (lo + w) := by rw [← Nat.pow_add]; congr 1; omega
    rw [e]
    have : (v.toNat >>> (lo + w) + 1) * 2 ^ (lo + w) ≤ 2 ^ (32 - (lo + w)) * 2 ^ (lo + w) := Nat.mul_le_mul_right _ (by omega)
    linarith [Nat.add_mul (v.toNat >>> (lo + w)) 1 (2 ^ (lo + w))]
  omega

theorem setBits_toNat (v : Word) {lo w : Nat} (x : Nat) (h : lo + w ≤ 32) :
    (setBits v lo w x).toNat = v.toNat % 2 ^ lo + (x % 2 ^ w) * 2 ^ lo + (v.toNat >>> (lo + w)) * 2 ^ (lo + w) := by
  unfold setBits
  rw [BitVec.toNat_ofNat, Nat.mod_eq_of_lt (setBits_toNat_lt v x h)]

/-- A field reads what was written to it. -/
theorem bitsOf_setBits_self (v : Word) {lo w : Nat} (x : Nat) (h : lo + w ≤ 32) : bitsOf (setBits v lo w x) lo w = x % 2 ^ w := by
  unfold bitsOf
  rw [setBits_toNat v x h, Nat.shiftRight_eq_div_pow]
  have e : v.toNat % 2 ^ lo + x % 2 ^ w * 2 ^ lo + v.toNat >>> (lo + w) * 2 ^ (lo + w) =
      v.toNat % 2 ^ lo + 2 ^ lo * (x % 2 ^ w + 2 ^ w * v.toNat >>> (lo + w)) := by rw [Nat.pow_add]; ring
  rw [e, Nat.add_mul_div_left _ _ (by positivity), Nat.div_eq_of_lt (Nat.mod_lt _ (by positivity)), Nat.zero_add,
    Nat.add_mul_mod_self_left, Nat.mod_mod]

/-- A bit below or above the field keeps its value. -/
theorem testBit_setBits_other (v : Word) {lo w i : Nat} (x : Nat) (h : lo + w ≤ 32) (hi : i < lo ∨ lo + w ≤ i) :
    (setBits v lo w x).toNat.testBit i = v.toNat.testBit i := by
  rw [setBits_toNat v x h]
  have hm : v.toNat % 2 ^ lo < 2 ^ lo := Nat.mod_lt _ (by positivity)
  have hx : x % 2 ^ w < 2 ^ w := Nat.mod_lt _ (by positivity)
  rcases hi with hi | hi
  · have e : v.toNat % 2 ^ lo + x % 2 ^ w * 2 ^ lo + v.toNat >>> (lo + w) * 2 ^ (lo + w) =
        2 ^ lo * (x % 2 ^ w + 2 ^ w * v.toNat >>> (lo + w)) + v.toNat % 2 ^ lo := by rw [Nat.pow_add]; ring
    rw [e, Nat.testBit_two_pow_mul_add _ hm, if_pos hi, Nat.testBit_mod_two_pow]
    simp [hi]
  · have hlt : v.toNat % 2 ^ lo + x % 2 ^ w * 2 ^ lo < 2 ^ (lo + w) := by
      have : (x % 2 ^ w + 1) * 2 ^ lo ≤ 2 ^ w * 2 ^ lo := Nat.mul_le_mul_right _ (by omega)
      rw [Nat.pow_add, Nat.mul_comm (2 ^ lo)]; linarith [Nat.add_mul (x % 2 ^ w) 1 (2 ^ lo)]
    have e : v.toNat % 2 ^ lo + x % 2 ^ w * 2 ^ lo + v.toNat >>> (lo + w) * 2 ^ (lo + w) =
        2 ^ (lo + w) * (v.toNat >>> (lo + w)) + (v.toNat % 2 ^ lo + x % 2 ^ w * 2 ^ lo) := by ring
    rw [e, Nat.testBit_two_pow_mul_add _ hlt, if_neg (by omega), Nat.testBit_shiftRight]
    congr 1; omega

/-- A field that shares no bit with the one written keeps its value. -/
theorem bitsOf_setBits_other (v : Word) {lo w lo' w' : Nat} (x : Nat) (h : lo + w ≤ 32) (hd : lo' + w' ≤ lo ∨ lo + w ≤ lo') :
    bitsOf (setBits v lo w x) lo' w' = bitsOf v lo' w' := by
  unfold bitsOf
  apply Nat.eq_of_testBit_eq
  intro i
  rw [Nat.testBit_mod_two_pow, Nat.testBit_mod_two_pow, Nat.testBit_shiftRight, Nat.testBit_shiftRight]
  by_cases hi : i < w'
  · simp only [hi, decide_true, Bool.true_and]
    exact testBit_setBits_other v x h (by omega)
  · simp [hi]

/-- A field is below the power of two of its width. -/
theorem bit_add_pow (n i j : Nat) (h : bit n i = false) : bit (n + 2 ^ i) j = if j = i then true else bit n j := by
  unfold bit at *
  simp only [Nat.shiftRight_eq_div_pow] at *
  have hp : 0 < 2 ^ i := by positivity
  have hq : n / 2 ^ i % 2 = 0 := by have := h; simp at this; omega
  have ha : (n + 2 ^ i) / 2 ^ i = n / 2 ^ i + 1 := Nat.add_div_right _ hp
  rcases Nat.lt_trichotomy j i with hj | hj | hj
  · obtain ⟨k, rfl⟩ := Nat.exists_eq_add_of_lt hj
    have e : 2 ^ (j + k + 1) = 2 ^ j * (2 * 2 ^ k) := by rw [Nat.pow_add, Nat.pow_add]; ring
    rw [e, Nat.add_mul_div_left _ _ (by positivity), if_neg (by omega)]
    congr 1
    omega
  · subst hj
    rw [ha, if_pos rfl]
    simp; omega
  · obtain ⟨k, rfl⟩ := Nat.exists_eq_add_of_lt hj
    have e : 2 ^ (i + k + 1) = 2 ^ i * 2 * 2 ^ k := by rw [Nat.pow_add, Nat.pow_add]; ring
    rw [e, ← Nat.div_div_eq_div_mul, ← Nat.div_div_eq_div_mul, ha, ← Nat.div_div_eq_div_mul, ← Nat.div_div_eq_div_mul, if_neg (by omega)]
    have : (n / 2 ^ i + 1) / 2 = n / 2 ^ i / 2 := by omega
    rw [this]

/-- A number with one bit replaced has that bit and its other bits. -/
theorem bit_putBit (n i j : Nat) (b : Bool) : bit (putBit n i b) j = if j = i then b else bit n j := by
  unfold putBit
  split
  · rename_i h
    split
    · rename_i hj; subst hj; simpa using h
    · rfl
  · rename_i h
    split
    · rename_i hb
      subst hb
      rw [bit_add_pow _ _ _ (by simpa using h)]
    · rename_i hb
      have hb : b = false := by simpa using hb
      subst hb
      have h1 : bit n i = true := by simpa using h
      have hle : 2 ^ i ≤ n := by
        by_contra hlt
        have : n / 2 ^ i = 0 := Nat.div_eq_of_lt (by omega)
        simp [bit, Nat.shiftRight_eq_div_pow, this] at h1
      obtain ⟨m, rfl⟩ := Nat.exists_eq_add_of_le hle
      have e : 2 ^ i + m - 2 ^ i = m := by omega
      rw [e]
      have hm : bit m i = false := by
        simp only [bit, Nat.shiftRight_eq_div_pow, Nat.add_div_left m (show 0 < 2 ^ i by positivity)] at h1 ⊢
        simp at h1 ⊢; omega
      rw [Nat.add_comm (2 ^ i) m, bit_add_pow _ _ _ hm]
      split
      · rename_i hj; subst hj; exact hm
      · rfl

theorem putBit_lt {n i w : Nat} (b : Bool) (hn : n < 2 ^ w) (hi : i < w) : putBit n i b < 2 ^ w := by
  unfold putBit
  split
  · exact hn
  · rename_i h
    split
    · rename_i hb; subst hb
      have h0 : bit n i = false := by simpa using h
      by_contra hge
      have hw : bit (n + 2 ^ i) w = true ∨ 2 ^ w + 2 ^ w ≤ n + 2 ^ i := by
        have hp : 2 ^ i ≤ 2 ^ w := Nat.pow_le_pow_right (by omega) (by omega)
        left
        have : (n + 2 ^ i) / 2 ^ w = 1 := by
          apply Nat.div_eq_of_lt_le <;> omega
        simp [bit, Nat.shiftRight_eq_div_pow, this]
      rcases hw with hw | hw
      · rw [bit_add_pow _ _ _ h0, if_neg (by omega)] at hw
        simp [bit, Nat.shiftRight_eq_div_pow, Nat.div_eq_of_lt hn] at hw
      · have hp : 2 ^ i ≤ 2 ^ w := Nat.pow_le_pow_right (by omega) (by omega)
        omega
    · exact Nat.lt_of_le_of_lt (Nat.sub_le _ _) hn

theorem bit_mod (n : Nat) {j w : Nat} (h : j < w) : bit (n % 2 ^ w) j = bit n j := by
  unfold bit
  obtain ⟨k, rfl⟩ := Nat.exists_eq_add_of_lt h
  simp only [Nat.shiftRight_eq_div_pow]
  have e : 2 ^ (j + k + 1) = 2 ^ j * (2 * 2 ^ k) := by rw [Nat.pow_add, Nat.pow_add]; ring
  rw [e, Nat.mod_mul_right_div_self, Nat.mod_mul_right_mod]

theorem bitsOf_lt (v : Word) (lo w : Nat) : bitsOf v lo w < 2 ^ w := Nat.mod_lt _ (by positivity)

theorem b2n_le (b : Bool) : b2n b ≤ 1 := by cases b <;> decide

end Sys2Proof
end

