-- ==== Sys2Proof/Laws/Tab.lean ====
section
/-! SUPPORT. Sparse tables: reading after writing, and the canonical form of every operation on a table. -/
namespace Sys2Proof.Machine

variable {α : Type}

theorem Tab.find_put_self (l : List (Nat × α)) (a : Nat) (x : α) : Tab.find (Tab.put l a x) a = some x := by
  induction l with
  | nil => simp [Tab.put, Tab.find]
  | cons e l ih =>
    obtain ⟨k, v⟩ := e
    by_cases h : a = k
    · simp [Tab.put, h, Tab.find]
    · by_cases h2 : a < k <;> simp [Tab.put, h, h2, Tab.find, ih]

theorem Tab.find_put_other (l : List (Nat × α)) {a b : Nat} (x : α) (h : b ≠ a) : Tab.find (Tab.put l a x) b = Tab.find l b := by
  induction l with
  | nil => simp [Tab.put, Tab.find, h]
  | cons e l ih =>
    obtain ⟨k, v⟩ := e
    by_cases h1 : a = k
    · subst h1; simp [Tab.put, Tab.find, h]
    · by_cases h2 : a < k
      · simp [Tab.put, h1, h2, Tab.find, h]
      · simp [Tab.put, h1, h2, Tab.find, ih]

theorem Tab.find_del_self (l : List (Nat × α)) (a : Nat) : Tab.find (Tab.del l a) a = none := by
  induction l with
  | nil => simp [Tab.del, Tab.find]
  | cons e l ih =>
    obtain ⟨k, v⟩ := e
    by_cases h : a = k
    · subst h; simpa [Tab.del] using ih
    · simp [Tab.del, h, Tab.find, ih]

theorem Tab.find_del_other (l : List (Nat × α)) {a b : Nat} (h : b ≠ a) : Tab.find (Tab.del l a) b = Tab.find l b := by
  induction l with
  | nil => simp [Tab.del]
  | cons e l ih =>
    obtain ⟨k, v⟩ := e
    by_cases h1 : a = k
    · subst h1; simp [Tab.del, Tab.find, h, ih]
    · simp [Tab.del, h1, Tab.find, ih]

/-- A key reads what was listed for it. -/
@[simp] theorem Tab.get_put_self (d : Nat → α) (l : List (Nat × α)) (a : Nat) (x : α) : Tab.get d (Tab.put l a x) a = x := by
  simp [Tab.get, Tab.find_put_self]

/-- Listing one key leaves every other as it was. -/
theorem Tab.get_put_other (d : Nat → α) (l : List (Nat × α)) {a b : Nat} (x : α) (h : b ≠ a) :
    Tab.get d (Tab.put l a x) b = Tab.get d l b := by
  simp [Tab.get, Tab.find_put_other l x h]

/-- A key reads what was written to it. -/
@[simp] theorem Tab.get_set_self [DecidableEq α] (d : Nat → α) (l : List (Nat × α)) (a : Nat) (x : α) : Tab.get d (Tab.set d l a x) a = x := by
  unfold Tab.set
  split
  · next h => simp [Tab.get, Tab.find_del_self, h]
  · simp

/-- Writing one key leaves every other as it was. -/
theorem Tab.get_set_other [DecidableEq α] (d : Nat → α) (l : List (Nat × α)) {a b : Nat} (x : α) (h : b ≠ a) :
    Tab.get d (Tab.set d l a x) b = Tab.get d l b := by
  unfold Tab.set
  split
  · simp [Tab.get, Tab.find_del_other l h]
  · exact Tab.get_put_other d l x h

/-! ## Canonical form -/

theorem Tab.rising_weaken {l : List (Nat × α)} {b c : Nat} (h : Tab.rising (some c) l = true) (hb : b ≤ c) : Tab.rising (some b) l = true := by
  cases l with
  | nil => rfl
  | cons e l =>
    simp only [Tab.rising, Bool.and_eq_true, decide_eq_true_eq] at h ⊢
    exact ⟨by omega, h.2⟩

theorem Tab.rising_tail {lo : Option Nat} {k : Nat} {v : α} {l : List (Nat × α)} (h : Tab.rising lo ((k, v) :: l) = true) :
    Tab.rising (some k) l = true := by
  simp only [Tab.rising, Bool.and_eq_true] at h; exact h.2

theorem Tab.rising_none {lo : Option Nat} {l : List (Nat × α)} (h : Tab.rising lo l = true) : Tab.rising none l = true := by
  cases l with
  | nil => rfl
  | cons e l => simp only [Tab.rising, Bool.and_eq_true] at h ⊢; exact ⟨trivial, h.2⟩

/-- A table keeps its order when entries are left out. -/
theorem Tab.rising_filter (p : Nat × α → Bool) {lo : Option Nat} {l : List (Nat × α)} (h : Tab.rising lo l = true) :
    Tab.rising lo (l.filter p) = true := by
  induction l generalizing lo with
  | nil => simpa using h
  | cons e l ih =>
    obtain ⟨k, v⟩ := e
    have ht := Tab.rising_tail h
    by_cases hp : p (k, v) = true
    · simp only [List.filter, hp]
      simp only [Tab.rising, Bool.and_eq_true] at h ⊢
      exact ⟨h.1, ih ht⟩
    · simp only [List.filter, hp]
      cases lo with
      | none => exact ih (Tab.rising_none ht)
      | some b =>
        simp only [Tab.rising, Bool.and_eq_true, decide_eq_true_eq] at h
        exact ih (Tab.rising_weaken ht (by omega))

theorem Tab.rising_put {l : List (Nat × α)} {lo : Option Nat} (h : Tab.rising lo l = true) (a : Nat) (x : α)
    (ha : ∀ b, lo = some b → b < a) : Tab.rising lo (Tab.put l a x) = true := by
  induction l generalizing lo with
  | nil => cases lo <;> simp [Tab.put, Tab.rising, ha]
  | cons e l ih =>
    obtain ⟨k, v⟩ := e
    have ht := Tab.rising_tail h
    by_cases h1 : a = k
    · subst h1; simp only [Tab.put, if_true]; simp only [Tab.rising, Bool.and_eq_true] at h ⊢; exact h
    · by_cases h2 : a < k
      · simp only [Tab.put, h1, h2, if_true, if_false]
        simp only [Tab.rising, Bool.and_eq_true, decide_eq_true_eq] at h ⊢
        refine ⟨?_, h2, h.2⟩
        cases lo with
        | none => rfl
        | some b => simpa using ha b rfl
      · simp only [Tab.put, h1, h2, if_false]
        simp only [Tab.rising, Bool.and_eq_true] at h ⊢
        refine ⟨h.1, ih ht ?_⟩
        intro b hb; cases hb; omega

theorem Tab.del_eq_filter (l : List (Nat × α)) (a : Nat) : Tab.del l a = l.filter (fun e => e.1 != a) := by
  induction l with
  | nil => rfl
  | cons e l ih =>
    obtain ⟨k, v⟩ := e
    by_cases h : a = k
    · subst h; simp [Tab.del, List.filter, ih]
    · have : (k != a) = true := by simpa using fun e => h e.symm
      simp [Tab.del, h, List.filter, this, ih]

theorem Tab.mem_put {l : List (Nat × α)} {a : Nat} {x : α} {e : Nat × α} (h : e ∈ Tab.put l a x) : e = (a, x) ∨ e ∈ l := by
  induction l with
  | nil => simpa [Tab.put] using h
  | cons y l ih =>
    obtain ⟨k, v⟩ := y
    by_cases h1 : a = k
    · simp only [Tab.put, h1, if_true, List.mem_cons] at h ⊢
      rcases h with h | h
      · exact .inl h
      · exact .inr (.inr h)
    · by_cases h2 : a < k
      · simp only [Tab.put, h1, h2, if_true, if_false, List.mem_cons] at h ⊢; exact h
      · simp only [Tab.put, h1, h2, if_false, List.mem_cons] at h ⊢
        rcases h with h | h
        · exact .inr (.inl h)
        · rcases ih h with h | h
          · exact .inl h
          · exact .inr (.inr h)

/-- Two canonical runs one below the other make one. -/
theorem Tab.rising_append {lo : Option Nat} {l k : List (Nat × α)} (m : Nat) (hl : Tab.rising lo l = true) (hk : Tab.rising none k = true)
    (h1 : ∀ e ∈ l, e.1 < m) (h2 : ∀ e ∈ k, m ≤ e.1) (hlo : ∀ b, lo = some b → b < m) : Tab.rising lo (l ++ k) = true := by
  induction l generalizing lo with
  | nil =>
    cases k with
    | nil => rfl
    | cons e k =>
      simp only [List.nil_append, Tab.rising, Bool.and_eq_true] at hk ⊢
      refine ⟨?_, hk.2⟩
      cases lo with
      | none => rfl
      | some b => have := h2 e (by simp); have := hlo b rfl; simp; omega
  | cons e l ih =>
    obtain ⟨a, v⟩ := e
    simp only [List.cons_append, Tab.rising, Bool.and_eq_true] at hl ⊢
    refine ⟨hl.1, ih hl.2 (fun e he => h1 e (by simp [he])) ?_⟩
    intro b hb; cases hb; exact h1 (a, v) (by simp)

/-- Moving every key up or down by one distance keeps the order. -/
theorem Tab.rising_shift (src dst : Nat) {lo : Option Nat} {l : List (Nat × α)} (h : Tab.rising lo l = true) (hs : ∀ e ∈ l, src ≤ e.1) :
    Tab.rising none (l.map (fun e => (e.1 - src + dst, e.2))) = true := by
  induction l generalizing lo with
  | nil => rfl
  | cons e l ih =>
    obtain ⟨a, v⟩ := e
    cases l with
    | nil => rfl
    | cons e2 l =>
      obtain ⟨b, w⟩ := e2
      have ht := Tab.rising_tail h
      have := ih ht (fun e he => hs e (by simp [he]))
      simp only [List.map_cons, Tab.rising, Bool.and_eq_true, decide_eq_true_eq, Bool.true_and] at this ht ⊢
      have ha := hs (a, v) (by simp)
      refine ⟨?_, this⟩
      omega

variable [DecidableEq α]

theorem Tab.wf_iff (d : Nat → α) (l : List (Nat × α)) : Tab.wf d l = true ↔ Tab.rising none l = true ∧ ∀ e ∈ l, e.2 ≠ d e.1 := by
  simp [Tab.wf]

/-- Leaving entries out keeps the canonical form. -/
theorem Tab.wf_filter (d : Nat → α) {l : List (Nat × α)} (h : Tab.wf d l = true) (p : Nat × α → Bool) : Tab.wf d (l.filter p) = true := by
  rw [Tab.wf_iff] at h ⊢
  exact ⟨Tab.rising_filter p h.1, fun e he => h.2 e (List.mem_of_mem_filter he)⟩

/-- Writing keeps the canonical form. -/
theorem Tab.wf_set (d : Nat → α) {l : List (Nat × α)} (h : Tab.wf d l = true) (a : Nat) (x : α) : Tab.wf d (Tab.set d l a x) = true := by
  unfold Tab.set
  split
  · rw [Tab.del_eq_filter]; exact Tab.wf_filter d h _
  · next hx =>
    rw [Tab.wf_iff] at h ⊢
    refine ⟨Tab.rising_put h.1 a x (by simp), ?_⟩
    intro e he
    rcases Tab.mem_put he with rfl | he
    · exact hx
    · exact h.2 e he

end Sys2Proof.Machine
end

