-- ==== Sys2Proof/Laws/Memory.lean ====
section
/-! SUPPORT. Memory and the register file: what reads see after writes, and the canonical form of every operation on them. -/
namespace Sys2Proof.Machine

/-! ## Registers -/

/-- A register reads what was written to it. -/
@[simp] theorem State.rd_wr_self (s : State) (a : Nat) (v : Word) : (s.wr a v).rd a = v := by simp [State.rd, State.wr]

/-- A write leaves every other register as it was. -/
theorem State.rd_wr_other (s : State) {a b : Nat} (v : Word) (h : b ≠ a) : (s.wr a v).rd b = s.rd b := by
  simp [State.rd, State.wr, Tab.get_set_other _ _ _ h]

/-! ## Bytes -/

/-- A byte reads what was stored in it. -/
@[simp] theorem State.rdByte_wrByte_self (s : State) (a : Nat) (v : Byte) : (s.wrByte a v).rdByte a = v := by
  simp [State.rdByte, State.wrByte]

/-- A store leaves every other byte as it was. -/
theorem State.rdByte_wrByte_other (s : State) {a b : Nat} (v : Byte) (h : b ≠ a) : (s.wrByte a v).rdByte b = s.rdByte b := by
  simp [State.rdByte, State.wrByte, Tab.get_set_other _ _ _ h]

/-- A store of `n` bytes leaves every byte outside them as it was. -/
theorem State.rdByte_wrMem_other (s : State) {a n b : Nat} (v : Nat) (h : b < a ∨ a + n ≤ b) : (s.wrMem a n v).rdByte b = s.rdByte b := by
  induction n generalizing s a v with
  | zero => rfl
  | succ n ih =>
    unfold State.wrMem
    rw [ih (s.wrByte a (BitVec.ofNat 8 v)) (a := a + 1) (v / 256) (by omega)]
    exact State.rdByte_wrByte_other s _ (by omega)

/-- A store of a list of bytes leaves every byte outside them as it was. -/
theorem State.rdByte_wrList_other (s : State) {a b : Nat} (l : List Nat) (h : b < a ∨ a + l.length ≤ b) : (s.wrList a l).rdByte b = s.rdByte b := by
  induction l generalizing s a with
  | nil => rfl
  | cons x l ih =>
    unfold State.wrList
    simp only [List.length_cons] at h
    rw [ih (s.wrByte a (BitVec.ofNat 8 x)) (a := a + 1) (by omega)]
    exact State.rdByte_wrByte_other s _ (by omega)

/-- `n` bytes read back as the low `n` bytes of what was stored. -/
theorem State.rdMem_wrMem_self (s : State) (a n v : Nat) : (s.wrMem a n v).rdMem a n = v % 256 ^ n := by
  induction n generalizing s a v with
  | zero => simp [State.rdMem, Nat.mod_one]
  | succ n ih =>
    unfold State.wrMem State.rdMem
    rw [ih, State.rdByte_wrMem_other _ _ (by omega), State.rdByte_wrByte_self, BitVec.toNat_ofNat, show (2 : Nat) ^ 8 = 256 from rfl]
    have e : v % 256 ^ (n + 1) = v % 256 + 256 * (v / 256 % 256 ^ n) := by rw [Nat.pow_succ', Nat.mod_mul]
    rw [e]

/-! ## Canonical form -/

theorem Memory.wf_wrByte {s : State} (h : Memory.wf s.mem = true) (a : Nat) (v : Byte) : Memory.wf (s.wrByte a v).mem = true :=
  Tab.wf_set memReset h a v

theorem Memory.wf_filter {m : List Host.Cell} (h : Memory.wf m = true) (p : Host.Cell → Bool) : Memory.wf (m.filter p) = true :=
  Tab.wf_filter memReset h p

theorem Memory.wf_clearMem {s : State} (h : Memory.wf s.mem = true) (a n : Nat) : Memory.wf (s.clearMem a n).mem = true :=
  Memory.wf_filter h _

theorem Memory.wf_wrMem {s : State} (h : Memory.wf s.mem = true) (a n v : Nat) : Memory.wf (s.wrMem a n v).mem = true := by
  induction n generalizing s a v with
  | zero => exact h
  | succ n ih => exact ih (Memory.wf_wrByte h a _) _ _

theorem Memory.wf_wrList {s : State} (h : Memory.wf s.mem = true) (a : Nat) (l : List Nat) : Memory.wf (s.wrList a l).mem = true := by
  induction l generalizing s a with
  | nil => exact h
  | cons x l ih => exact ih (Memory.wf_wrByte h a _) _

/-- A copy keeps the canonical form. -/
theorem Memory.wf_copyMem {s : State} (h : Memory.wf s.mem = true) (src dst n : Nat) : Memory.wf (s.copyMem src dst n).mem = true := by
  have hw := (Tab.wf_iff memReset s.mem).1 h
  refine (Tab.wf_iff memReset _).2 ⟨?_, ?_⟩
  · unfold State.copyMem
    simp only [List.append_assoc]
    have hmid : Tab.rising none ((s.mem.filter (fun c => decide (src ≤ c.1) && decide (c.1 < src + n))).map (fun c => (c.1 - src + dst, c.2))) = true := by
      apply Tab.rising_shift src dst (Tab.rising_filter _ hw.1)
      intro e he
      have := (List.mem_filter.1 he).2
      simp only [Bool.and_eq_true, decide_eq_true_eq] at this
      exact this.1
    have hhi : Tab.rising none (s.mem.filter (fun c => decide (dst + n ≤ c.1))) = true := Tab.rising_filter _ hw.1
    refine Tab.rising_append dst (Tab.rising_filter _ hw.1) (Tab.rising_append (dst + n) hmid hhi ?_ ?_ (by simp)) ?_ ?_ (by simp)
    · intro e he
      obtain ⟨c, hc, rfl⟩ := List.mem_map.1 he
      have := (List.mem_filter.1 hc).2
      simp only [Bool.and_eq_true, decide_eq_true_eq] at this
      show c.1 - src + dst < dst + n
      omega
    · intro e he; simpa using (List.mem_filter.1 he).2
    · intro e he; simpa using (List.mem_filter.1 he).2
    · intro e he
      rcases List.mem_append.1 he with he | he
      · obtain ⟨c, hc, rfl⟩ := List.mem_map.1 he
        show dst ≤ c.1 - src + dst
        omega
      · have := (List.mem_filter.1 he).2
        simp only [decide_eq_true_eq] at this
        omega
  · intro e he
    unfold State.copyMem at he
    simp only [List.append_assoc, List.mem_append] at he
    rcases he with he | he | he
    · exact hw.2 e (List.mem_of_mem_filter he)
    · obtain ⟨c, hc, rfl⟩ := List.mem_map.1 he
      exact hw.2 c (List.mem_of_mem_filter hc)
    · exact hw.2 e (List.mem_of_mem_filter he)

/-- The memory after reset is canonical. -/
theorem Memory.wf_reset : Memory.wf State.reset.mem = true := by decide

end Sys2Proof.Machine
end

