-- ==== Sys2Proof/Laws/State.lean ====
section
/-! SUPPORT. What every update of the state leaves unchanged: one lemma per update and field, each true by unfolding. -/
namespace Sys2Proof.Machine

@[simp] theorem State.wr_pending (s : State) (a : Nat) (v : Word) : (s.wr a v).pending = s.pending := (rfl)
@[simp] theorem State.wr_mem (s : State) (a : Nat) (v : Word) : (s.wr a v).mem = s.mem := (rfl)
@[simp] theorem State.wr_fresh (s : State) (a : Nat) (v : Word) : (s.wr a v).fresh = s.fresh := (rfl)
@[simp] theorem State.wr_bus (s : State) (a : Nat) (v : Word) : (s.wr a v).bus = s.bus := (rfl)
@[simp] theorem State.wr_latch (s : State) (a : Nat) (v : Word) : (s.wr a v).latch = s.latch := (rfl)
@[simp] theorem State.wr_claimed (s : State) (a : Nat) (v : Word) : (s.wr a v).claimed = s.claimed := (rfl)
@[simp] theorem State.wr_wire (s : State) (a : Nat) (v : Word) : (s.wr a v).wire = s.wire := (rfl)
@[simp] theorem State.wr_evl (s : State) (a : Nat) (v : Word) : (s.wr a v).evl = s.evl := (rfl)
@[simp] theorem State.wr_time (s : State) (a : Nat) (v : Word) : (s.wr a v).time = s.time := (rfl)
@[simp] theorem State.wr_courses (s : State) (a : Nat) (v : Word) : (s.wr a v).courses = s.courses := (rfl)
@[simp] theorem State.wr_tabs (s : State) (a : Nat) (v : Word) : (s.wr a v).tabs = s.tabs := (rfl)
@[simp] theorem State.wr_inflight (s : State) (a : Nat) (v : Word) : (s.wr a v).inflight = s.inflight := (rfl)
@[simp] theorem State.wr_dins (s : State) (a : Nat) (v : Word) : (s.wr a v).dins = s.dins := (rfl)
@[simp] theorem State.wr_fwl (s : State) (a : Nat) (v : Word) : (s.wr a v).fwl = s.fwl := (rfl)
@[simp] theorem State.wr_healths (s : State) (a : Nat) (v : Word) : (s.wr a v).healths = s.healths := (rfl)
@[simp] theorem State.wr_healthX (s : State) (a : Nat) (v : Word) : (s.wr a v).healthX = s.healthX := (rfl)
@[simp] theorem State.wr_img (s : State) (a : Nat) (v : Word) : (s.wr a v).img = s.img := (rfl)
@[simp] theorem State.wr_cox (s : State) (a : Nat) (v : Word) : (s.wr a v).cox = s.cox := (rfl)
@[simp] theorem State.wr_convs (s : State) (a : Nat) (v : Word) : (s.wr a v).convs = s.convs := (rfl)
@[simp] theorem State.wr_pairs (s : State) (a : Nat) (v : Word) : (s.wr a v).pairs = s.pairs := (rfl)
@[simp] theorem State.wr_owRun (s : State) (a : Nat) (v : Word) : (s.wr a v).owRun = s.owRun := (rfl)
@[simp] theorem State.wr_cal (s : State) (a : Nat) (v : Word) : (s.wr a v).cal = s.cal := (rfl)
@[simp] theorem State.wr_dma (s : State) (a : Nat) (v : Word) : (s.wr a v).dma = s.dma := (rfl)
@[simp] theorem State.wr_dmaLast (s : State) (a : Nat) (v : Word) : (s.wr a v).dmaLast = s.dmaLast := (rfl)
@[simp] theorem State.wr_rmv (s : State) (a : Nat) (v : Word) : (s.wr a v).rmv = s.rmv := (rfl)
@[simp] theorem State.wr_lpe (s : State) (a : Nat) (v : Word) : (s.wr a v).lpe = s.lpe := (rfl)
@[simp] theorem State.wr_lsm (s : State) (a : Nat) (v : Word) : (s.wr a v).lsm = s.lsm := (rfl)
@[simp] theorem State.wr_mig (s : State) (a : Nat) (v : Word) : (s.wr a v).mig = s.mig := (rfl)
@[simp] theorem State.wr_owed (s : State) (a : Nat) (v : Word) : (s.wr a v).owed = s.owed := (rfl)
@[simp] theorem State.wr_axes (s : State) (a : Nat) (v : Word) : (s.wr a v).axes = s.axes := (rfl)
@[simp] theorem State.wr_motHeld (s : State) (a : Nat) (v : Word) : (s.wr a v).motHeld = s.motHeld := (rfl)
@[simp] theorem State.wr_encs (s : State) (a : Nat) (v : Word) : (s.wr a v).encs = s.encs := (rfl)
@[simp] theorem State.wr_rce (s : State) (a : Nat) (v : Word) : (s.wr a v).rce = s.rce := (rfl)
@[simp] theorem State.wr_seq (s : State) (a : Nat) (v : Word) : (s.wr a v).seq = s.seq := (rfl)
@[simp] theorem State.wr_clos (s : State) (a : Nat) (v : Word) : (s.wr a v).clos = s.clos := (rfl)
@[simp] theorem State.wr_vdrs (s : State) (a : Nat) (v : Word) : (s.wr a v).vdrs = s.vdrs := (rfl)
@[simp] theorem State.wr_pvm (s : State) (a : Nat) (v : Word) : (s.wr a v).pvm = s.pvm := (rfl)
@[simp] theorem State.wr_cyc (s : State) (a : Nat) (v : Word) : (s.wr a v).cyc = s.cyc := (rfl)
@[simp] theorem State.wr_iml (s : State) (a : Nat) (v : Word) : (s.wr a v).iml = s.iml := (rfl)
@[simp] theorem State.wr_cans (s : State) (a : Nat) (v : Word) : (s.wr a v).cans = s.cans := (rfl)
@[simp] theorem State.wr_eths (s : State) (a : Nat) (v : Word) : (s.wr a v).eths = s.eths := (rfl)
@[simp] theorem State.wr_prps (s : State) (a : Nat) (v : Word) : (s.wr a v).prps = s.prps := (rfl)
@[simp] theorem State.wr_rra (s : State) (a : Nat) (v : Word) : (s.wr a v).rra = s.rra := (rfl)
@[simp] theorem State.wr_plk (s : State) (a : Nat) (v : Word) : (s.wr a v).plk = s.plk := (rfl)
@[simp] theorem State.wr_vlt (s : State) (a : Nat) (v : Word) : (s.wr a v).vlt = s.vlt := (rfl)
@[simp] theorem State.wr_rpc (s : State) (a : Nat) (v : Word) : (s.wr a v).rpc = s.rpc := (rfl)

@[simp] theorem State.setFld_pending (s : State) (f : Fld) (v : Nat) : (s.setFld f v).pending = s.pending := (rfl)
@[simp] theorem State.setFld_mem (s : State) (f : Fld) (v : Nat) : (s.setFld f v).mem = s.mem := (rfl)
@[simp] theorem State.setFld_fresh (s : State) (f : Fld) (v : Nat) : (s.setFld f v).fresh = s.fresh := (rfl)
@[simp] theorem State.setFld_bus (s : State) (f : Fld) (v : Nat) : (s.setFld f v).bus = s.bus := (rfl)
@[simp] theorem State.setFld_latch (s : State) (f : Fld) (v : Nat) : (s.setFld f v).latch = s.latch := (rfl)
@[simp] theorem State.setFld_claimed (s : State) (f : Fld) (v : Nat) : (s.setFld f v).claimed = s.claimed := (rfl)
@[simp] theorem State.setFld_wire (s : State) (f : Fld) (v : Nat) : (s.setFld f v).wire = s.wire := (rfl)
@[simp] theorem State.setFld_evl (s : State) (f : Fld) (v : Nat) : (s.setFld f v).evl = s.evl := (rfl)
@[simp] theorem State.setFld_time (s : State) (f : Fld) (v : Nat) : (s.setFld f v).time = s.time := (rfl)
@[simp] theorem State.setFld_courses (s : State) (f : Fld) (v : Nat) : (s.setFld f v).courses = s.courses := (rfl)
@[simp] theorem State.setFld_tabs (s : State) (f : Fld) (v : Nat) : (s.setFld f v).tabs = s.tabs := (rfl)
@[simp] theorem State.setFld_inflight (s : State) (f : Fld) (v : Nat) : (s.setFld f v).inflight = s.inflight := (rfl)
@[simp] theorem State.setFld_dins (s : State) (f : Fld) (v : Nat) : (s.setFld f v).dins = s.dins := (rfl)
@[simp] theorem State.setFld_fwl (s : State) (f : Fld) (v : Nat) : (s.setFld f v).fwl = s.fwl := (rfl)
@[simp] theorem State.setFld_healths (s : State) (f : Fld) (v : Nat) : (s.setFld f v).healths = s.healths := (rfl)
@[simp] theorem State.setFld_healthX (s : State) (f : Fld) (v : Nat) : (s.setFld f v).healthX = s.healthX := (rfl)
@[simp] theorem State.setFld_img (s : State) (f : Fld) (v : Nat) : (s.setFld f v).img = s.img := (rfl)
@[simp] theorem State.setFld_cox (s : State) (f : Fld) (v : Nat) : (s.setFld f v).cox = s.cox := (rfl)
@[simp] theorem State.setFld_convs (s : State) (f : Fld) (v : Nat) : (s.setFld f v).convs = s.convs := (rfl)
@[simp] theorem State.setFld_pairs (s : State) (f : Fld) (v : Nat) : (s.setFld f v).pairs = s.pairs := (rfl)
@[simp] theorem State.setFld_owRun (s : State) (f : Fld) (v : Nat) : (s.setFld f v).owRun = s.owRun := (rfl)
@[simp] theorem State.setFld_cal (s : State) (f : Fld) (v : Nat) : (s.setFld f v).cal = s.cal := (rfl)
@[simp] theorem State.setFld_dma (s : State) (f : Fld) (v : Nat) : (s.setFld f v).dma = s.dma := (rfl)
@[simp] theorem State.setFld_dmaLast (s : State) (f : Fld) (v : Nat) : (s.setFld f v).dmaLast = s.dmaLast := (rfl)
@[simp] theorem State.setFld_rmv (s : State) (f : Fld) (v : Nat) : (s.setFld f v).rmv = s.rmv := (rfl)
@[simp] theorem State.setFld_lpe (s : State) (f : Fld) (v : Nat) : (s.setFld f v).lpe = s.lpe := (rfl)
@[simp] theorem State.setFld_lsm (s : State) (f : Fld) (v : Nat) : (s.setFld f v).lsm = s.lsm := (rfl)
@[simp] theorem State.setFld_mig (s : State) (f : Fld) (v : Nat) : (s.setFld f v).mig = s.mig := (rfl)
@[simp] theorem State.setFld_owed (s : State) (f : Fld) (v : Nat) : (s.setFld f v).owed = s.owed := (rfl)
@[simp] theorem State.setFld_axes (s : State) (f : Fld) (v : Nat) : (s.setFld f v).axes = s.axes := (rfl)
@[simp] theorem State.setFld_motHeld (s : State) (f : Fld) (v : Nat) : (s.setFld f v).motHeld = s.motHeld := (rfl)
@[simp] theorem State.setFld_encs (s : State) (f : Fld) (v : Nat) : (s.setFld f v).encs = s.encs := (rfl)
@[simp] theorem State.setFld_rce (s : State) (f : Fld) (v : Nat) : (s.setFld f v).rce = s.rce := (rfl)
@[simp] theorem State.setFld_seq (s : State) (f : Fld) (v : Nat) : (s.setFld f v).seq = s.seq := (rfl)
@[simp] theorem State.setFld_clos (s : State) (f : Fld) (v : Nat) : (s.setFld f v).clos = s.clos := (rfl)
@[simp] theorem State.setFld_vdrs (s : State) (f : Fld) (v : Nat) : (s.setFld f v).vdrs = s.vdrs := (rfl)
@[simp] theorem State.setFld_pvm (s : State) (f : Fld) (v : Nat) : (s.setFld f v).pvm = s.pvm := (rfl)
@[simp] theorem State.setFld_cyc (s : State) (f : Fld) (v : Nat) : (s.setFld f v).cyc = s.cyc := (rfl)
@[simp] theorem State.setFld_iml (s : State) (f : Fld) (v : Nat) : (s.setFld f v).iml = s.iml := (rfl)
@[simp] theorem State.setFld_cans (s : State) (f : Fld) (v : Nat) : (s.setFld f v).cans = s.cans := (rfl)
@[simp] theorem State.setFld_eths (s : State) (f : Fld) (v : Nat) : (s.setFld f v).eths = s.eths := (rfl)
@[simp] theorem State.setFld_prps (s : State) (f : Fld) (v : Nat) : (s.setFld f v).prps = s.prps := (rfl)
@[simp] theorem State.setFld_rra (s : State) (f : Fld) (v : Nat) : (s.setFld f v).rra = s.rra := (rfl)
@[simp] theorem State.setFld_plk (s : State) (f : Fld) (v : Nat) : (s.setFld f v).plk = s.plk := (rfl)
@[simp] theorem State.setFld_vlt (s : State) (f : Fld) (v : Nat) : (s.setFld f v).vlt = s.vlt := (rfl)
@[simp] theorem State.setFld_rpc (s : State) (f : Fld) (v : Nat) : (s.setFld f v).rpc = s.rpc := (rfl)

@[simp] theorem State.setNum_pending (s : State) (a v : Nat) : (s.setNum a v).pending = s.pending := (rfl)
@[simp] theorem State.setNum_mem (s : State) (a v : Nat) : (s.setNum a v).mem = s.mem := (rfl)
@[simp] theorem State.setNum_fresh (s : State) (a v : Nat) : (s.setNum a v).fresh = s.fresh := (rfl)
@[simp] theorem State.setNum_bus (s : State) (a v : Nat) : (s.setNum a v).bus = s.bus := (rfl)
@[simp] theorem State.setNum_latch (s : State) (a v : Nat) : (s.setNum a v).latch = s.latch := (rfl)
@[simp] theorem State.setNum_claimed (s : State) (a v : Nat) : (s.setNum a v).claimed = s.claimed := (rfl)
@[simp] theorem State.setNum_wire (s : State) (a v : Nat) : (s.setNum a v).wire = s.wire := (rfl)
@[simp] theorem State.setNum_evl (s : State) (a v : Nat) : (s.setNum a v).evl = s.evl := (rfl)
@[simp] theorem State.setNum_time (s : State) (a v : Nat) : (s.setNum a v).time = s.time := (rfl)
@[simp] theorem State.setNum_courses (s : State) (a v : Nat) : (s.setNum a v).courses = s.courses := (rfl)
@[simp] theorem State.setNum_tabs (s : State) (a v : Nat) : (s.setNum a v).tabs = s.tabs := (rfl)
@[simp] theorem State.setNum_inflight (s : State) (a v : Nat) : (s.setNum a v).inflight = s.inflight := (rfl)
@[simp] theorem State.setNum_dins (s : State) (a v : Nat) : (s.setNum a v).dins = s.dins := (rfl)
@[simp] theorem State.setNum_fwl (s : State) (a v : Nat) : (s.setNum a v).fwl = s.fwl := (rfl)
@[simp] theorem State.setNum_healths (s : State) (a v : Nat) : (s.setNum a v).healths = s.healths := (rfl)
@[simp] theorem State.setNum_healthX (s : State) (a v : Nat) : (s.setNum a v).healthX = s.healthX := (rfl)
@[simp] theorem State.setNum_img (s : State) (a v : Nat) : (s.setNum a v).img = s.img := (rfl)
@[simp] theorem State.setNum_cox (s : State) (a v : Nat) : (s.setNum a v).cox = s.cox := (rfl)
@[simp] theorem State.setNum_convs (s : State) (a v : Nat) : (s.setNum a v).convs = s.convs := (rfl)
@[simp] theorem State.setNum_pairs (s : State) (a v : Nat) : (s.setNum a v).pairs = s.pairs := (rfl)
@[simp] theorem State.setNum_owRun (s : State) (a v : Nat) : (s.setNum a v).owRun = s.owRun := (rfl)
@[simp] theorem State.setNum_cal (s : State) (a v : Nat) : (s.setNum a v).cal = s.cal := (rfl)
@[simp] theorem State.setNum_dma (s : State) (a v : Nat) : (s.setNum a v).dma = s.dma := (rfl)
@[simp] theorem State.setNum_dmaLast (s : State) (a v : Nat) : (s.setNum a v).dmaLast = s.dmaLast := (rfl)
@[simp] theorem State.setNum_rmv (s : State) (a v : Nat) : (s.setNum a v).rmv = s.rmv := (rfl)
@[simp] theorem State.setNum_lpe (s : State) (a v : Nat) : (s.setNum a v).lpe = s.lpe := (rfl)
@[simp] theorem State.setNum_lsm (s : State) (a v : Nat) : (s.setNum a v).lsm = s.lsm := (rfl)
@[simp] theorem State.setNum_mig (s : State) (a v : Nat) : (s.setNum a v).mig = s.mig := (rfl)
@[simp] theorem State.setNum_owed (s : State) (a v : Nat) : (s.setNum a v).owed = s.owed := (rfl)
@[simp] theorem State.setNum_axes (s : State) (a v : Nat) : (s.setNum a v).axes = s.axes := (rfl)
@[simp] theorem State.setNum_motHeld (s : State) (a v : Nat) : (s.setNum a v).motHeld = s.motHeld := (rfl)
@[simp] theorem State.setNum_encs (s : State) (a v : Nat) : (s.setNum a v).encs = s.encs := (rfl)
@[simp] theorem State.setNum_rce (s : State) (a v : Nat) : (s.setNum a v).rce = s.rce := (rfl)
@[simp] theorem State.setNum_seq (s : State) (a v : Nat) : (s.setNum a v).seq = s.seq := (rfl)
@[simp] theorem State.setNum_clos (s : State) (a v : Nat) : (s.setNum a v).clos = s.clos := (rfl)
@[simp] theorem State.setNum_vdrs (s : State) (a v : Nat) : (s.setNum a v).vdrs = s.vdrs := (rfl)
@[simp] theorem State.setNum_pvm (s : State) (a v : Nat) : (s.setNum a v).pvm = s.pvm := (rfl)
@[simp] theorem State.setNum_cyc (s : State) (a v : Nat) : (s.setNum a v).cyc = s.cyc := (rfl)
@[simp] theorem State.setNum_iml (s : State) (a v : Nat) : (s.setNum a v).iml = s.iml := (rfl)
@[simp] theorem State.setNum_cans (s : State) (a v : Nat) : (s.setNum a v).cans = s.cans := (rfl)
@[simp] theorem State.setNum_eths (s : State) (a v : Nat) : (s.setNum a v).eths = s.eths := (rfl)
@[simp] theorem State.setNum_prps (s : State) (a v : Nat) : (s.setNum a v).prps = s.prps := (rfl)
@[simp] theorem State.setNum_rra (s : State) (a v : Nat) : (s.setNum a v).rra = s.rra := (rfl)
@[simp] theorem State.setNum_plk (s : State) (a v : Nat) : (s.setNum a v).plk = s.plk := (rfl)
@[simp] theorem State.setNum_vlt (s : State) (a v : Nat) : (s.setNum a v).vlt = s.vlt := (rfl)
@[simp] theorem State.setNum_rpc (s : State) (a v : Nat) : (s.setNum a v).rpc = s.rpc := (rfl)

@[simp] theorem State.setRbit_pending (s : State) (a i : Nat) (b : Bool) : (s.setRbit a i b).pending = s.pending := (rfl)
@[simp] theorem State.setRbit_mem (s : State) (a i : Nat) (b : Bool) : (s.setRbit a i b).mem = s.mem := (rfl)
@[simp] theorem State.setRbit_fresh (s : State) (a i : Nat) (b : Bool) : (s.setRbit a i b).fresh = s.fresh := (rfl)
@[simp] theorem State.setRbit_bus (s : State) (a i : Nat) (b : Bool) : (s.setRbit a i b).bus = s.bus := (rfl)
@[simp] theorem State.setRbit_latch (s : State) (a i : Nat) (b : Bool) : (s.setRbit a i b).latch = s.latch := (rfl)
@[simp] theorem State.setRbit_claimed (s : State) (a i : Nat) (b : Bool) : (s.setRbit a i b).claimed = s.claimed := (rfl)
@[simp] theorem State.setRbit_wire (s : State) (a i : Nat) (b : Bool) : (s.setRbit a i b).wire = s.wire := (rfl)
@[simp] theorem State.setRbit_evl (s : State) (a i : Nat) (b : Bool) : (s.setRbit a i b).evl = s.evl := (rfl)
@[simp] theorem State.setRbit_time (s : State) (a i : Nat) (b : Bool) : (s.setRbit a i b).time = s.time := (rfl)
@[simp] theorem State.setRbit_courses (s : State) (a i : Nat) (b : Bool) : (s.setRbit a i b).courses = s.courses := (rfl)
@[simp] theorem State.setRbit_tabs (s : State) (a i : Nat) (b : Bool) : (s.setRbit a i b).tabs = s.tabs := (rfl)
@[simp] theorem State.setRbit_inflight (s : State) (a i : Nat) (b : Bool) : (s.setRbit a i b).inflight = s.inflight := (rfl)
@[simp] theorem State.setRbit_dins (s : State) (a i : Nat) (b : Bool) : (s.setRbit a i b).dins = s.dins := (rfl)
@[simp] theorem State.setRbit_fwl (s : State) (a i : Nat) (b : Bool) : (s.setRbit a i b).fwl = s.fwl := (rfl)
@[simp] theorem State.setRbit_healths (s : State) (a i : Nat) (b : Bool) : (s.setRbit a i b).healths = s.healths := (rfl)
@[simp] theorem State.setRbit_healthX (s : State) (a i : Nat) (b : Bool) : (s.setRbit a i b).healthX = s.healthX := (rfl)
@[simp] theorem State.setRbit_img (s : State) (a i : Nat) (b : Bool) : (s.setRbit a i b).img = s.img := (rfl)
@[simp] theorem State.setRbit_cox (s : State) (a i : Nat) (b : Bool) : (s.setRbit a i b).cox = s.cox := (rfl)
@[simp] theorem State.setRbit_convs (s : State) (a i : Nat) (b : Bool) : (s.setRbit a i b).convs = s.convs := (rfl)
@[simp] theorem State.setRbit_pairs (s : State) (a i : Nat) (b : Bool) : (s.setRbit a i b).pairs = s.pairs := (rfl)
@[simp] theorem State.setRbit_owRun (s : State) (a i : Nat) (b : Bool) : (s.setRbit a i b).owRun = s.owRun := (rfl)
@[simp] theorem State.setRbit_cal (s : State) (a i : Nat) (b : Bool) : (s.setRbit a i b).cal = s.cal := (rfl)
@[simp] theorem State.setRbit_dma (s : State) (a i : Nat) (b : Bool) : (s.setRbit a i b).dma = s.dma := (rfl)
@[simp] theorem State.setRbit_dmaLast (s : State) (a i : Nat) (b : Bool) : (s.setRbit a i b).dmaLast = s.dmaLast := (rfl)
@[simp] theorem State.setRbit_rmv (s : State) (a i : Nat) (b : Bool) : (s.setRbit a i b).rmv = s.rmv := (rfl)
@[simp] theorem State.setRbit_lpe (s : State) (a i : Nat) (b : Bool) : (s.setRbit a i b).lpe = s.lpe := (rfl)
@[simp] theorem State.setRbit_lsm (s : State) (a i : Nat) (b : Bool) : (s.setRbit a i b).lsm = s.lsm := (rfl)
@[simp] theorem State.setRbit_mig (s : State) (a i : Nat) (b : Bool) : (s.setRbit a i b).mig = s.mig := (rfl)
@[simp] theorem State.setRbit_owed (s : State) (a i : Nat) (b : Bool) : (s.setRbit a i b).owed = s.owed := (rfl)
@[simp] theorem State.setRbit_axes (s : State) (a i : Nat) (b : Bool) : (s.setRbit a i b).axes = s.axes := (rfl)
@[simp] theorem State.setRbit_motHeld (s : State) (a i : Nat) (b : Bool) : (s.setRbit a i b).motHeld = s.motHeld := (rfl)
@[simp] theorem State.setRbit_encs (s : State) (a i : Nat) (b : Bool) : (s.setRbit a i b).encs = s.encs := (rfl)
@[simp] theorem State.setRbit_rce (s : State) (a i : Nat) (b : Bool) : (s.setRbit a i b).rce = s.rce := (rfl)
@[simp] theorem State.setRbit_seq (s : State) (a i : Nat) (b : Bool) : (s.setRbit a i b).seq = s.seq := (rfl)
@[simp] theorem State.setRbit_clos (s : State) (a i : Nat) (b : Bool) : (s.setRbit a i b).clos = s.clos := (rfl)
@[simp] theorem State.setRbit_vdrs (s : State) (a i : Nat) (b : Bool) : (s.setRbit a i b).vdrs = s.vdrs := (rfl)
@[simp] theorem State.setRbit_pvm (s : State) (a i : Nat) (b : Bool) : (s.setRbit a i b).pvm = s.pvm := (rfl)
@[simp] theorem State.setRbit_cyc (s : State) (a i : Nat) (b : Bool) : (s.setRbit a i b).cyc = s.cyc := (rfl)
@[simp] theorem State.setRbit_iml (s : State) (a i : Nat) (b : Bool) : (s.setRbit a i b).iml = s.iml := (rfl)
@[simp] theorem State.setRbit_cans (s : State) (a i : Nat) (b : Bool) : (s.setRbit a i b).cans = s.cans := (rfl)
@[simp] theorem State.setRbit_eths (s : State) (a i : Nat) (b : Bool) : (s.setRbit a i b).eths = s.eths := (rfl)
@[simp] theorem State.setRbit_prps (s : State) (a i : Nat) (b : Bool) : (s.setRbit a i b).prps = s.prps := (rfl)
@[simp] theorem State.setRbit_rra (s : State) (a i : Nat) (b : Bool) : (s.setRbit a i b).rra = s.rra := (rfl)
@[simp] theorem State.setRbit_plk (s : State) (a i : Nat) (b : Bool) : (s.setRbit a i b).plk = s.plk := (rfl)
@[simp] theorem State.setRbit_vlt (s : State) (a i : Nat) (b : Bool) : (s.setRbit a i b).vlt = s.vlt := (rfl)
@[simp] theorem State.setRbit_rpc (s : State) (a i : Nat) (b : Bool) : (s.setRbit a i b).rpc = s.rpc := (rfl)

@[simp] theorem State.count_pending (s : State) (a n : Nat) : (s.count a n).pending = s.pending := (rfl)
@[simp] theorem State.count_mem (s : State) (a n : Nat) : (s.count a n).mem = s.mem := (rfl)
@[simp] theorem State.count_fresh (s : State) (a n : Nat) : (s.count a n).fresh = s.fresh := (rfl)
@[simp] theorem State.count_bus (s : State) (a n : Nat) : (s.count a n).bus = s.bus := (rfl)
@[simp] theorem State.count_latch (s : State) (a n : Nat) : (s.count a n).latch = s.latch := (rfl)
@[simp] theorem State.count_claimed (s : State) (a n : Nat) : (s.count a n).claimed = s.claimed := (rfl)
@[simp] theorem State.count_wire (s : State) (a n : Nat) : (s.count a n).wire = s.wire := (rfl)
@[simp] theorem State.count_evl (s : State) (a n : Nat) : (s.count a n).evl = s.evl := (rfl)
@[simp] theorem State.count_time (s : State) (a n : Nat) : (s.count a n).time = s.time := (rfl)
@[simp] theorem State.count_courses (s : State) (a n : Nat) : (s.count a n).courses = s.courses := (rfl)
@[simp] theorem State.count_tabs (s : State) (a n : Nat) : (s.count a n).tabs = s.tabs := (rfl)
@[simp] theorem State.count_inflight (s : State) (a n : Nat) : (s.count a n).inflight = s.inflight := (rfl)
@[simp] theorem State.count_dins (s : State) (a n : Nat) : (s.count a n).dins = s.dins := (rfl)
@[simp] theorem State.count_fwl (s : State) (a n : Nat) : (s.count a n).fwl = s.fwl := (rfl)
@[simp] theorem State.count_healths (s : State) (a n : Nat) : (s.count a n).healths = s.healths := (rfl)
@[simp] theorem State.count_healthX (s : State) (a n : Nat) : (s.count a n).healthX = s.healthX := (rfl)
@[simp] theorem State.count_img (s : State) (a n : Nat) : (s.count a n).img = s.img := (rfl)
@[simp] theorem State.count_cox (s : State) (a n : Nat) : (s.count a n).cox = s.cox := (rfl)
@[simp] theorem State.count_convs (s : State) (a n : Nat) : (s.count a n).convs = s.convs := (rfl)
@[simp] theorem State.count_pairs (s : State) (a n : Nat) : (s.count a n).pairs = s.pairs := (rfl)
@[simp] theorem State.count_owRun (s : State) (a n : Nat) : (s.count a n).owRun = s.owRun := (rfl)
@[simp] theorem State.count_cal (s : State) (a n : Nat) : (s.count a n).cal = s.cal := (rfl)
@[simp] theorem State.count_dma (s : State) (a n : Nat) : (s.count a n).dma = s.dma := (rfl)
@[simp] theorem State.count_dmaLast (s : State) (a n : Nat) : (s.count a n).dmaLast = s.dmaLast := (rfl)
@[simp] theorem State.count_rmv (s : State) (a n : Nat) : (s.count a n).rmv = s.rmv := (rfl)
@[simp] theorem State.count_lpe (s : State) (a n : Nat) : (s.count a n).lpe = s.lpe := (rfl)
@[simp] theorem State.count_lsm (s : State) (a n : Nat) : (s.count a n).lsm = s.lsm := (rfl)
@[simp] theorem State.count_mig (s : State) (a n : Nat) : (s.count a n).mig = s.mig := (rfl)
@[simp] theorem State.count_owed (s : State) (a n : Nat) : (s.count a n).owed = s.owed := (rfl)
@[simp] theorem State.count_axes (s : State) (a n : Nat) : (s.count a n).axes = s.axes := (rfl)
@[simp] theorem State.count_motHeld (s : State) (a n : Nat) : (s.count a n).motHeld = s.motHeld := (rfl)
@[simp] theorem State.count_encs (s : State) (a n : Nat) : (s.count a n).encs = s.encs := (rfl)
@[simp] theorem State.count_rce (s : State) (a n : Nat) : (s.count a n).rce = s.rce := (rfl)
@[simp] theorem State.count_seq (s : State) (a n : Nat) : (s.count a n).seq = s.seq := (rfl)
@[simp] theorem State.count_clos (s : State) (a n : Nat) : (s.count a n).clos = s.clos := (rfl)
@[simp] theorem State.count_vdrs (s : State) (a n : Nat) : (s.count a n).vdrs = s.vdrs := (rfl)
@[simp] theorem State.count_pvm (s : State) (a n : Nat) : (s.count a n).pvm = s.pvm := (rfl)
@[simp] theorem State.count_cyc (s : State) (a n : Nat) : (s.count a n).cyc = s.cyc := (rfl)
@[simp] theorem State.count_iml (s : State) (a n : Nat) : (s.count a n).iml = s.iml := (rfl)
@[simp] theorem State.count_cans (s : State) (a n : Nat) : (s.count a n).cans = s.cans := (rfl)
@[simp] theorem State.count_eths (s : State) (a n : Nat) : (s.count a n).eths = s.eths := (rfl)
@[simp] theorem State.count_prps (s : State) (a n : Nat) : (s.count a n).prps = s.prps := (rfl)
@[simp] theorem State.count_rra (s : State) (a n : Nat) : (s.count a n).rra = s.rra := (rfl)
@[simp] theorem State.count_plk (s : State) (a n : Nat) : (s.count a n).plk = s.plk := (rfl)
@[simp] theorem State.count_vlt (s : State) (a n : Nat) : (s.count a n).vlt = s.vlt := (rfl)
@[simp] theorem State.count_rpc (s : State) (a n : Nat) : (s.count a n).rpc = s.rpc := (rfl)

@[simp] theorem State.countFld_pending (s : State) (f : Fld) (n : Nat) : (s.countFld f n).pending = s.pending := (rfl)
@[simp] theorem State.countFld_mem (s : State) (f : Fld) (n : Nat) : (s.countFld f n).mem = s.mem := (rfl)
@[simp] theorem State.countFld_fresh (s : State) (f : Fld) (n : Nat) : (s.countFld f n).fresh = s.fresh := (rfl)
@[simp] theorem State.countFld_bus (s : State) (f : Fld) (n : Nat) : (s.countFld f n).bus = s.bus := (rfl)
@[simp] theorem State.countFld_latch (s : State) (f : Fld) (n : Nat) : (s.countFld f n).latch = s.latch := (rfl)
@[simp] theorem State.countFld_claimed (s : State) (f : Fld) (n : Nat) : (s.countFld f n).claimed = s.claimed := (rfl)
@[simp] theorem State.countFld_wire (s : State) (f : Fld) (n : Nat) : (s.countFld f n).wire = s.wire := (rfl)
@[simp] theorem State.countFld_evl (s : State) (f : Fld) (n : Nat) : (s.countFld f n).evl = s.evl := (rfl)
@[simp] theorem State.countFld_time (s : State) (f : Fld) (n : Nat) : (s.countFld f n).time = s.time := (rfl)
@[simp] theorem State.countFld_courses (s : State) (f : Fld) (n : Nat) : (s.countFld f n).courses = s.courses := (rfl)
@[simp] theorem State.countFld_tabs (s : State) (f : Fld) (n : Nat) : (s.countFld f n).tabs = s.tabs := (rfl)
@[simp] theorem State.countFld_inflight (s : State) (f : Fld) (n : Nat) : (s.countFld f n).inflight = s.inflight := (rfl)
@[simp] theorem State.countFld_dins (s : State) (f : Fld) (n : Nat) : (s.countFld f n).dins = s.dins := (rfl)
@[simp] theorem State.countFld_fwl (s : State) (f : Fld) (n : Nat) : (s.countFld f n).fwl = s.fwl := (rfl)
@[simp] theorem State.countFld_healths (s : State) (f : Fld) (n : Nat) : (s.countFld f n).healths = s.healths := (rfl)
@[simp] theorem State.countFld_healthX (s : State) (f : Fld) (n : Nat) : (s.countFld f n).healthX = s.healthX := (rfl)
@[simp] theorem State.countFld_img (s : State) (f : Fld) (n : Nat) : (s.countFld f n).img = s.img := (rfl)
@[simp] theorem State.countFld_cox (s : State) (f : Fld) (n : Nat) : (s.countFld f n).cox = s.cox := (rfl)
@[simp] theorem State.countFld_convs (s : State) (f : Fld) (n : Nat) : (s.countFld f n).convs = s.convs := (rfl)
@[simp] theorem State.countFld_pairs (s : State) (f : Fld) (n : Nat) : (s.countFld f n).pairs = s.pairs := (rfl)
@[simp] theorem State.countFld_owRun (s : State) (f : Fld) (n : Nat) : (s.countFld f n).owRun = s.owRun := (rfl)
@[simp] theorem State.countFld_cal (s : State) (f : Fld) (n : Nat) : (s.countFld f n).cal = s.cal := (rfl)
@[simp] theorem State.countFld_dma (s : State) (f : Fld) (n : Nat) : (s.countFld f n).dma = s.dma := (rfl)
@[simp] theorem State.countFld_dmaLast (s : State) (f : Fld) (n : Nat) : (s.countFld f n).dmaLast = s.dmaLast := (rfl)
@[simp] theorem State.countFld_rmv (s : State) (f : Fld) (n : Nat) : (s.countFld f n).rmv = s.rmv := (rfl)
@[simp] theorem State.countFld_lpe (s : State) (f : Fld) (n : Nat) : (s.countFld f n).lpe = s.lpe := (rfl)
@[simp] theorem State.countFld_lsm (s : State) (f : Fld) (n : Nat) : (s.countFld f n).lsm = s.lsm := (rfl)
@[simp] theorem State.countFld_mig (s : State) (f : Fld) (n : Nat) : (s.countFld f n).mig = s.mig := (rfl)
@[simp] theorem State.countFld_owed (s : State) (f : Fld) (n : Nat) : (s.countFld f n).owed = s.owed := (rfl)
@[simp] theorem State.countFld_axes (s : State) (f : Fld) (n : Nat) : (s.countFld f n).axes = s.axes := (rfl)
@[simp] theorem State.countFld_motHeld (s : State) (f : Fld) (n : Nat) : (s.countFld f n).motHeld = s.motHeld := (rfl)
@[simp] theorem State.countFld_encs (s : State) (f : Fld) (n : Nat) : (s.countFld f n).encs = s.encs := (rfl)
@[simp] theorem State.countFld_rce (s : State) (f : Fld) (n : Nat) : (s.countFld f n).rce = s.rce := (rfl)
@[simp] theorem State.countFld_seq (s : State) (f : Fld) (n : Nat) : (s.countFld f n).seq = s.seq := (rfl)
@[simp] theorem State.countFld_clos (s : State) (f : Fld) (n : Nat) : (s.countFld f n).clos = s.clos := (rfl)
@[simp] theorem State.countFld_vdrs (s : State) (f : Fld) (n : Nat) : (s.countFld f n).vdrs = s.vdrs := (rfl)
@[simp] theorem State.countFld_pvm (s : State) (f : Fld) (n : Nat) : (s.countFld f n).pvm = s.pvm := (rfl)
@[simp] theorem State.countFld_cyc (s : State) (f : Fld) (n : Nat) : (s.countFld f n).cyc = s.cyc := (rfl)
@[simp] theorem State.countFld_iml (s : State) (f : Fld) (n : Nat) : (s.countFld f n).iml = s.iml := (rfl)
@[simp] theorem State.countFld_cans (s : State) (f : Fld) (n : Nat) : (s.countFld f n).cans = s.cans := (rfl)
@[simp] theorem State.countFld_eths (s : State) (f : Fld) (n : Nat) : (s.countFld f n).eths = s.eths := (rfl)
@[simp] theorem State.countFld_prps (s : State) (f : Fld) (n : Nat) : (s.countFld f n).prps = s.prps := (rfl)
@[simp] theorem State.countFld_rra (s : State) (f : Fld) (n : Nat) : (s.countFld f n).rra = s.rra := (rfl)
@[simp] theorem State.countFld_plk (s : State) (f : Fld) (n : Nat) : (s.countFld f n).plk = s.plk := (rfl)
@[simp] theorem State.countFld_vlt (s : State) (f : Fld) (n : Nat) : (s.countFld f n).vlt = s.vlt := (rfl)
@[simp] theorem State.countFld_rpc (s : State) (f : Fld) (n : Nat) : (s.countFld f n).rpc = s.rpc := (rfl)

@[simp] theorem State.setNum64_pending (s : State) (lo hi v : Nat) : (s.setNum64 lo hi v).pending = s.pending := (rfl)
@[simp] theorem State.setNum64_mem (s : State) (lo hi v : Nat) : (s.setNum64 lo hi v).mem = s.mem := (rfl)
@[simp] theorem State.setNum64_fresh (s : State) (lo hi v : Nat) : (s.setNum64 lo hi v).fresh = s.fresh := (rfl)
@[simp] theorem State.setNum64_bus (s : State) (lo hi v : Nat) : (s.setNum64 lo hi v).bus = s.bus := (rfl)
@[simp] theorem State.setNum64_latch (s : State) (lo hi v : Nat) : (s.setNum64 lo hi v).latch = s.latch := (rfl)
@[simp] theorem State.setNum64_claimed (s : State) (lo hi v : Nat) : (s.setNum64 lo hi v).claimed = s.claimed := (rfl)
@[simp] theorem State.setNum64_wire (s : State) (lo hi v : Nat) : (s.setNum64 lo hi v).wire = s.wire := (rfl)
@[simp] theorem State.setNum64_evl (s : State) (lo hi v : Nat) : (s.setNum64 lo hi v).evl = s.evl := (rfl)
@[simp] theorem State.setNum64_time (s : State) (lo hi v : Nat) : (s.setNum64 lo hi v).time = s.time := (rfl)
@[simp] theorem State.setNum64_courses (s : State) (lo hi v : Nat) : (s.setNum64 lo hi v).courses = s.courses := (rfl)
@[simp] theorem State.setNum64_tabs (s : State) (lo hi v : Nat) : (s.setNum64 lo hi v).tabs = s.tabs := (rfl)
@[simp] theorem State.setNum64_inflight (s : State) (lo hi v : Nat) : (s.setNum64 lo hi v).inflight = s.inflight := (rfl)
@[simp] theorem State.setNum64_dins (s : State) (lo hi v : Nat) : (s.setNum64 lo hi v).dins = s.dins := (rfl)
@[simp] theorem State.setNum64_fwl (s : State) (lo hi v : Nat) : (s.setNum64 lo hi v).fwl = s.fwl := (rfl)
@[simp] theorem State.setNum64_healths (s : State) (lo hi v : Nat) : (s.setNum64 lo hi v).healths = s.healths := (rfl)
@[simp] theorem State.setNum64_healthX (s : State) (lo hi v : Nat) : (s.setNum64 lo hi v).healthX = s.healthX := (rfl)
@[simp] theorem State.setNum64_img (s : State) (lo hi v : Nat) : (s.setNum64 lo hi v).img = s.img := (rfl)
@[simp] theorem State.setNum64_cox (s : State) (lo hi v : Nat) : (s.setNum64 lo hi v).cox = s.cox := (rfl)
@[simp] theorem State.setNum64_convs (s : State) (lo hi v : Nat) : (s.setNum64 lo hi v).convs = s.convs := (rfl)
@[simp] theorem State.setNum64_pairs (s : State) (lo hi v : Nat) : (s.setNum64 lo hi v).pairs = s.pairs := (rfl)
@[simp] theorem State.setNum64_owRun (s : State) (lo hi v : Nat) : (s.setNum64 lo hi v).owRun = s.owRun := (rfl)
@[simp] theorem State.setNum64_cal (s : State) (lo hi v : Nat) : (s.setNum64 lo hi v).cal = s.cal := (rfl)
@[simp] theorem State.setNum64_dma (s : State) (lo hi v : Nat) : (s.setNum64 lo hi v).dma = s.dma := (rfl)
@[simp] theorem State.setNum64_dmaLast (s : State) (lo hi v : Nat) : (s.setNum64 lo hi v).dmaLast = s.dmaLast := (rfl)
@[simp] theorem State.setNum64_rmv (s : State) (lo hi v : Nat) : (s.setNum64 lo hi v).rmv = s.rmv := (rfl)
@[simp] theorem State.setNum64_lpe (s : State) (lo hi v : Nat) : (s.setNum64 lo hi v).lpe = s.lpe := (rfl)
@[simp] theorem State.setNum64_lsm (s : State) (lo hi v : Nat) : (s.setNum64 lo hi v).lsm = s.lsm := (rfl)
@[simp] theorem State.setNum64_mig (s : State) (lo hi v : Nat) : (s.setNum64 lo hi v).mig = s.mig := (rfl)
@[simp] theorem State.setNum64_owed (s : State) (lo hi v : Nat) : (s.setNum64 lo hi v).owed = s.owed := (rfl)
@[simp] theorem State.setNum64_axes (s : State) (lo hi v : Nat) : (s.setNum64 lo hi v).axes = s.axes := (rfl)
@[simp] theorem State.setNum64_motHeld (s : State) (lo hi v : Nat) : (s.setNum64 lo hi v).motHeld = s.motHeld := (rfl)
@[simp] theorem State.setNum64_encs (s : State) (lo hi v : Nat) : (s.setNum64 lo hi v).encs = s.encs := (rfl)
@[simp] theorem State.setNum64_rce (s : State) (lo hi v : Nat) : (s.setNum64 lo hi v).rce = s.rce := (rfl)
@[simp] theorem State.setNum64_seq (s : State) (lo hi v : Nat) : (s.setNum64 lo hi v).seq = s.seq := (rfl)
@[simp] theorem State.setNum64_clos (s : State) (lo hi v : Nat) : (s.setNum64 lo hi v).clos = s.clos := (rfl)
@[simp] theorem State.setNum64_vdrs (s : State) (lo hi v : Nat) : (s.setNum64 lo hi v).vdrs = s.vdrs := (rfl)
@[simp] theorem State.setNum64_pvm (s : State) (lo hi v : Nat) : (s.setNum64 lo hi v).pvm = s.pvm := (rfl)
@[simp] theorem State.setNum64_cyc (s : State) (lo hi v : Nat) : (s.setNum64 lo hi v).cyc = s.cyc := (rfl)
@[simp] theorem State.setNum64_iml (s : State) (lo hi v : Nat) : (s.setNum64 lo hi v).iml = s.iml := (rfl)
@[simp] theorem State.setNum64_cans (s : State) (lo hi v : Nat) : (s.setNum64 lo hi v).cans = s.cans := (rfl)
@[simp] theorem State.setNum64_eths (s : State) (lo hi v : Nat) : (s.setNum64 lo hi v).eths = s.eths := (rfl)
@[simp] theorem State.setNum64_prps (s : State) (lo hi v : Nat) : (s.setNum64 lo hi v).prps = s.prps := (rfl)
@[simp] theorem State.setNum64_rra (s : State) (lo hi v : Nat) : (s.setNum64 lo hi v).rra = s.rra := (rfl)
@[simp] theorem State.setNum64_plk (s : State) (lo hi v : Nat) : (s.setNum64 lo hi v).plk = s.plk := (rfl)
@[simp] theorem State.setNum64_vlt (s : State) (lo hi v : Nat) : (s.setNum64 lo hi v).vlt = s.vlt := (rfl)
@[simp] theorem State.setNum64_rpc (s : State) (lo hi v : Nat) : (s.setNum64 lo hi v).rpc = s.rpc := (rfl)

@[simp] theorem State.wrByte_pending (s : State) (a : Nat) (v : Byte) : (s.wrByte a v).pending = s.pending := (rfl)
@[simp] theorem State.wrByte_regs (s : State) (a : Nat) (v : Byte) : (s.wrByte a v).regs = s.regs := (rfl)
@[simp] theorem State.wrByte_fresh (s : State) (a : Nat) (v : Byte) : (s.wrByte a v).fresh = s.fresh := (rfl)
@[simp] theorem State.wrByte_bus (s : State) (a : Nat) (v : Byte) : (s.wrByte a v).bus = s.bus := (rfl)
@[simp] theorem State.wrByte_latch (s : State) (a : Nat) (v : Byte) : (s.wrByte a v).latch = s.latch := (rfl)
@[simp] theorem State.wrByte_claimed (s : State) (a : Nat) (v : Byte) : (s.wrByte a v).claimed = s.claimed := (rfl)
@[simp] theorem State.wrByte_wire (s : State) (a : Nat) (v : Byte) : (s.wrByte a v).wire = s.wire := (rfl)
@[simp] theorem State.wrByte_evl (s : State) (a : Nat) (v : Byte) : (s.wrByte a v).evl = s.evl := (rfl)
@[simp] theorem State.wrByte_time (s : State) (a : Nat) (v : Byte) : (s.wrByte a v).time = s.time := (rfl)
@[simp] theorem State.wrByte_courses (s : State) (a : Nat) (v : Byte) : (s.wrByte a v).courses = s.courses := (rfl)
@[simp] theorem State.wrByte_tabs (s : State) (a : Nat) (v : Byte) : (s.wrByte a v).tabs = s.tabs := (rfl)
@[simp] theorem State.wrByte_inflight (s : State) (a : Nat) (v : Byte) : (s.wrByte a v).inflight = s.inflight := (rfl)
@[simp] theorem State.wrByte_dins (s : State) (a : Nat) (v : Byte) : (s.wrByte a v).dins = s.dins := (rfl)
@[simp] theorem State.wrByte_fwl (s : State) (a : Nat) (v : Byte) : (s.wrByte a v).fwl = s.fwl := (rfl)
@[simp] theorem State.wrByte_healths (s : State) (a : Nat) (v : Byte) : (s.wrByte a v).healths = s.healths := (rfl)
@[simp] theorem State.wrByte_healthX (s : State) (a : Nat) (v : Byte) : (s.wrByte a v).healthX = s.healthX := (rfl)
@[simp] theorem State.wrByte_img (s : State) (a : Nat) (v : Byte) : (s.wrByte a v).img = s.img := (rfl)
@[simp] theorem State.wrByte_cox (s : State) (a : Nat) (v : Byte) : (s.wrByte a v).cox = s.cox := (rfl)
@[simp] theorem State.wrByte_convs (s : State) (a : Nat) (v : Byte) : (s.wrByte a v).convs = s.convs := (rfl)
@[simp] theorem State.wrByte_pairs (s : State) (a : Nat) (v : Byte) : (s.wrByte a v).pairs = s.pairs := (rfl)
@[simp] theorem State.wrByte_owRun (s : State) (a : Nat) (v : Byte) : (s.wrByte a v).owRun = s.owRun := (rfl)
@[simp] theorem State.wrByte_cal (s : State) (a : Nat) (v : Byte) : (s.wrByte a v).cal = s.cal := (rfl)
@[simp] theorem State.wrByte_dma (s : State) (a : Nat) (v : Byte) : (s.wrByte a v).dma = s.dma := (rfl)
@[simp] theorem State.wrByte_dmaLast (s : State) (a : Nat) (v : Byte) : (s.wrByte a v).dmaLast = s.dmaLast := (rfl)
@[simp] theorem State.wrByte_rmv (s : State) (a : Nat) (v : Byte) : (s.wrByte a v).rmv = s.rmv := (rfl)
@[simp] theorem State.wrByte_lpe (s : State) (a : Nat) (v : Byte) : (s.wrByte a v).lpe = s.lpe := (rfl)
@[simp] theorem State.wrByte_lsm (s : State) (a : Nat) (v : Byte) : (s.wrByte a v).lsm = s.lsm := (rfl)
@[simp] theorem State.wrByte_mig (s : State) (a : Nat) (v : Byte) : (s.wrByte a v).mig = s.mig := (rfl)
@[simp] theorem State.wrByte_owed (s : State) (a : Nat) (v : Byte) : (s.wrByte a v).owed = s.owed := (rfl)
@[simp] theorem State.wrByte_axes (s : State) (a : Nat) (v : Byte) : (s.wrByte a v).axes = s.axes := (rfl)
@[simp] theorem State.wrByte_motHeld (s : State) (a : Nat) (v : Byte) : (s.wrByte a v).motHeld = s.motHeld := (rfl)
@[simp] theorem State.wrByte_encs (s : State) (a : Nat) (v : Byte) : (s.wrByte a v).encs = s.encs := (rfl)
@[simp] theorem State.wrByte_rce (s : State) (a : Nat) (v : Byte) : (s.wrByte a v).rce = s.rce := (rfl)
@[simp] theorem State.wrByte_seq (s : State) (a : Nat) (v : Byte) : (s.wrByte a v).seq = s.seq := (rfl)
@[simp] theorem State.wrByte_clos (s : State) (a : Nat) (v : Byte) : (s.wrByte a v).clos = s.clos := (rfl)
@[simp] theorem State.wrByte_vdrs (s : State) (a : Nat) (v : Byte) : (s.wrByte a v).vdrs = s.vdrs := (rfl)
@[simp] theorem State.wrByte_pvm (s : State) (a : Nat) (v : Byte) : (s.wrByte a v).pvm = s.pvm := (rfl)
@[simp] theorem State.wrByte_cyc (s : State) (a : Nat) (v : Byte) : (s.wrByte a v).cyc = s.cyc := (rfl)
@[simp] theorem State.wrByte_iml (s : State) (a : Nat) (v : Byte) : (s.wrByte a v).iml = s.iml := (rfl)
@[simp] theorem State.wrByte_cans (s : State) (a : Nat) (v : Byte) : (s.wrByte a v).cans = s.cans := (rfl)
@[simp] theorem State.wrByte_eths (s : State) (a : Nat) (v : Byte) : (s.wrByte a v).eths = s.eths := (rfl)
@[simp] theorem State.wrByte_prps (s : State) (a : Nat) (v : Byte) : (s.wrByte a v).prps = s.prps := (rfl)
@[simp] theorem State.wrByte_rra (s : State) (a : Nat) (v : Byte) : (s.wrByte a v).rra = s.rra := (rfl)
@[simp] theorem State.wrByte_plk (s : State) (a : Nat) (v : Byte) : (s.wrByte a v).plk = s.plk := (rfl)
@[simp] theorem State.wrByte_vlt (s : State) (a : Nat) (v : Byte) : (s.wrByte a v).vlt = s.vlt := (rfl)
@[simp] theorem State.wrByte_rpc (s : State) (a : Nat) (v : Byte) : (s.wrByte a v).rpc = s.rpc := (rfl)

@[simp] theorem State.setCourse_pending (s : State) (n : Nat) (c : Course) : (s.setCourse n c).pending = s.pending := (rfl)
@[simp] theorem State.setCourse_regs (s : State) (n : Nat) (c : Course) : (s.setCourse n c).regs = s.regs := (rfl)
@[simp] theorem State.setCourse_mem (s : State) (n : Nat) (c : Course) : (s.setCourse n c).mem = s.mem := (rfl)
@[simp] theorem State.setCourse_fresh (s : State) (n : Nat) (c : Course) : (s.setCourse n c).fresh = s.fresh := (rfl)
@[simp] theorem State.setCourse_bus (s : State) (n : Nat) (c : Course) : (s.setCourse n c).bus = s.bus := (rfl)
@[simp] theorem State.setCourse_latch (s : State) (n : Nat) (c : Course) : (s.setCourse n c).latch = s.latch := (rfl)
@[simp] theorem State.setCourse_claimed (s : State) (n : Nat) (c : Course) : (s.setCourse n c).claimed = s.claimed := (rfl)
@[simp] theorem State.setCourse_wire (s : State) (n : Nat) (c : Course) : (s.setCourse n c).wire = s.wire := (rfl)
@[simp] theorem State.setCourse_evl (s : State) (n : Nat) (c : Course) : (s.setCourse n c).evl = s.evl := (rfl)
@[simp] theorem State.setCourse_time (s : State) (n : Nat) (c : Course) : (s.setCourse n c).time = s.time := (rfl)
@[simp] theorem State.setCourse_tabs (s : State) (n : Nat) (c : Course) : (s.setCourse n c).tabs = s.tabs := (rfl)
@[simp] theorem State.setCourse_inflight (s : State) (n : Nat) (c : Course) : (s.setCourse n c).inflight = s.inflight := (rfl)
@[simp] theorem State.setCourse_dins (s : State) (n : Nat) (c : Course) : (s.setCourse n c).dins = s.dins := (rfl)
@[simp] theorem State.setCourse_fwl (s : State) (n : Nat) (c : Course) : (s.setCourse n c).fwl = s.fwl := (rfl)
@[simp] theorem State.setCourse_healths (s : State) (n : Nat) (c : Course) : (s.setCourse n c).healths = s.healths := (rfl)
@[simp] theorem State.setCourse_healthX (s : State) (n : Nat) (c : Course) : (s.setCourse n c).healthX = s.healthX := (rfl)
@[simp] theorem State.setCourse_img (s : State) (n : Nat) (c : Course) : (s.setCourse n c).img = s.img := (rfl)
@[simp] theorem State.setCourse_cox (s : State) (n : Nat) (c : Course) : (s.setCourse n c).cox = s.cox := (rfl)
@[simp] theorem State.setCourse_convs (s : State) (n : Nat) (c : Course) : (s.setCourse n c).convs = s.convs := (rfl)
@[simp] theorem State.setCourse_pairs (s : State) (n : Nat) (c : Course) : (s.setCourse n c).pairs = s.pairs := (rfl)
@[simp] theorem State.setCourse_owRun (s : State) (n : Nat) (c : Course) : (s.setCourse n c).owRun = s.owRun := (rfl)
@[simp] theorem State.setCourse_cal (s : State) (n : Nat) (c : Course) : (s.setCourse n c).cal = s.cal := (rfl)
@[simp] theorem State.setCourse_dma (s : State) (n : Nat) (c : Course) : (s.setCourse n c).dma = s.dma := (rfl)
@[simp] theorem State.setCourse_dmaLast (s : State) (n : Nat) (c : Course) : (s.setCourse n c).dmaLast = s.dmaLast := (rfl)
@[simp] theorem State.setCourse_rmv (s : State) (n : Nat) (c : Course) : (s.setCourse n c).rmv = s.rmv := (rfl)
@[simp] theorem State.setCourse_lpe (s : State) (n : Nat) (c : Course) : (s.setCourse n c).lpe = s.lpe := (rfl)
@[simp] theorem State.setCourse_lsm (s : State) (n : Nat) (c : Course) : (s.setCourse n c).lsm = s.lsm := (rfl)
@[simp] theorem State.setCourse_mig (s : State) (n : Nat) (c : Course) : (s.setCourse n c).mig = s.mig := (rfl)
@[simp] theorem State.setCourse_owed (s : State) (n : Nat) (c : Course) : (s.setCourse n c).owed = s.owed := (rfl)
@[simp] theorem State.setCourse_axes (s : State) (n : Nat) (c : Course) : (s.setCourse n c).axes = s.axes := (rfl)
@[simp] theorem State.setCourse_motHeld (s : State) (n : Nat) (c : Course) : (s.setCourse n c).motHeld = s.motHeld := (rfl)
@[simp] theorem State.setCourse_encs (s : State) (n : Nat) (c : Course) : (s.setCourse n c).encs = s.encs := (rfl)
@[simp] theorem State.setCourse_rce (s : State) (n : Nat) (c : Course) : (s.setCourse n c).rce = s.rce := (rfl)
@[simp] theorem State.setCourse_seq (s : State) (n : Nat) (c : Course) : (s.setCourse n c).seq = s.seq := (rfl)
@[simp] theorem State.setCourse_clos (s : State) (n : Nat) (c : Course) : (s.setCourse n c).clos = s.clos := (rfl)
@[simp] theorem State.setCourse_vdrs (s : State) (n : Nat) (c : Course) : (s.setCourse n c).vdrs = s.vdrs := (rfl)
@[simp] theorem State.setCourse_pvm (s : State) (n : Nat) (c : Course) : (s.setCourse n c).pvm = s.pvm := (rfl)
@[simp] theorem State.setCourse_cyc (s : State) (n : Nat) (c : Course) : (s.setCourse n c).cyc = s.cyc := (rfl)
@[simp] theorem State.setCourse_iml (s : State) (n : Nat) (c : Course) : (s.setCourse n c).iml = s.iml := (rfl)
@[simp] theorem State.setCourse_cans (s : State) (n : Nat) (c : Course) : (s.setCourse n c).cans = s.cans := (rfl)
@[simp] theorem State.setCourse_eths (s : State) (n : Nat) (c : Course) : (s.setCourse n c).eths = s.eths := (rfl)
@[simp] theorem State.setCourse_prps (s : State) (n : Nat) (c : Course) : (s.setCourse n c).prps = s.prps := (rfl)
@[simp] theorem State.setCourse_rra (s : State) (n : Nat) (c : Course) : (s.setCourse n c).rra = s.rra := (rfl)
@[simp] theorem State.setCourse_plk (s : State) (n : Nat) (c : Course) : (s.setCourse n c).plk = s.plk := (rfl)
@[simp] theorem State.setCourse_vlt (s : State) (n : Nat) (c : Course) : (s.setCourse n c).vlt = s.vlt := (rfl)
@[simp] theorem State.setCourse_rpc (s : State) (n : Nat) (c : Course) : (s.setCourse n c).rpc = s.rpc := (rfl)

@[simp] theorem State.setTab_pending (s : State) (m : Nat) (t : CatchTab) : (s.setTab m t).pending = s.pending := (rfl)
@[simp] theorem State.setTab_regs (s : State) (m : Nat) (t : CatchTab) : (s.setTab m t).regs = s.regs := (rfl)
@[simp] theorem State.setTab_mem (s : State) (m : Nat) (t : CatchTab) : (s.setTab m t).mem = s.mem := (rfl)
@[simp] theorem State.setTab_fresh (s : State) (m : Nat) (t : CatchTab) : (s.setTab m t).fresh = s.fresh := (rfl)
@[simp] theorem State.setTab_bus (s : State) (m : Nat) (t : CatchTab) : (s.setTab m t).bus = s.bus := (rfl)
@[simp] theorem State.setTab_latch (s : State) (m : Nat) (t : CatchTab) : (s.setTab m t).latch = s.latch := (rfl)
@[simp] theorem State.setTab_claimed (s : State) (m : Nat) (t : CatchTab) : (s.setTab m t).claimed = s.claimed := (rfl)
@[simp] theorem State.setTab_wire (s : State) (m : Nat) (t : CatchTab) : (s.setTab m t).wire = s.wire := (rfl)
@[simp] theorem State.setTab_evl (s : State) (m : Nat) (t : CatchTab) : (s.setTab m t).evl = s.evl := (rfl)
@[simp] theorem State.setTab_time (s : State) (m : Nat) (t : CatchTab) : (s.setTab m t).time = s.time := (rfl)
@[simp] theorem State.setTab_courses (s : State) (m : Nat) (t : CatchTab) : (s.setTab m t).courses = s.courses := (rfl)
@[simp] theorem State.setTab_inflight (s : State) (m : Nat) (t : CatchTab) : (s.setTab m t).inflight = s.inflight := (rfl)
@[simp] theorem State.setTab_dins (s : State) (m : Nat) (t : CatchTab) : (s.setTab m t).dins = s.dins := (rfl)
@[simp] theorem State.setTab_fwl (s : State) (m : Nat) (t : CatchTab) : (s.setTab m t).fwl = s.fwl := (rfl)
@[simp] theorem State.setTab_healths (s : State) (m : Nat) (t : CatchTab) : (s.setTab m t).healths = s.healths := (rfl)
@[simp] theorem State.setTab_healthX (s : State) (m : Nat) (t : CatchTab) : (s.setTab m t).healthX = s.healthX := (rfl)
@[simp] theorem State.setTab_img (s : State) (m : Nat) (t : CatchTab) : (s.setTab m t).img = s.img := (rfl)
@[simp] theorem State.setTab_cox (s : State) (m : Nat) (t : CatchTab) : (s.setTab m t).cox = s.cox := (rfl)
@[simp] theorem State.setTab_convs (s : State) (m : Nat) (t : CatchTab) : (s.setTab m t).convs = s.convs := (rfl)
@[simp] theorem State.setTab_pairs (s : State) (m : Nat) (t : CatchTab) : (s.setTab m t).pairs = s.pairs := (rfl)
@[simp] theorem State.setTab_owRun (s : State) (m : Nat) (t : CatchTab) : (s.setTab m t).owRun = s.owRun := (rfl)
@[simp] theorem State.setTab_cal (s : State) (m : Nat) (t : CatchTab) : (s.setTab m t).cal = s.cal := (rfl)
@[simp] theorem State.setTab_dma (s : State) (m : Nat) (t : CatchTab) : (s.setTab m t).dma = s.dma := (rfl)
@[simp] theorem State.setTab_dmaLast (s : State) (m : Nat) (t : CatchTab) : (s.setTab m t).dmaLast = s.dmaLast := (rfl)
@[simp] theorem State.setTab_rmv (s : State) (m : Nat) (t : CatchTab) : (s.setTab m t).rmv = s.rmv := (rfl)
@[simp] theorem State.setTab_lpe (s : State) (m : Nat) (t : CatchTab) : (s.setTab m t).lpe = s.lpe := (rfl)
@[simp] theorem State.setTab_lsm (s : State) (m : Nat) (t : CatchTab) : (s.setTab m t).lsm = s.lsm := (rfl)
@[simp] theorem State.setTab_mig (s : State) (m : Nat) (t : CatchTab) : (s.setTab m t).mig = s.mig := (rfl)
@[simp] theorem State.setTab_owed (s : State) (m : Nat) (t : CatchTab) : (s.setTab m t).owed = s.owed := (rfl)
@[simp] theorem State.setTab_axes (s : State) (m : Nat) (t : CatchTab) : (s.setTab m t).axes = s.axes := (rfl)
@[simp] theorem State.setTab_motHeld (s : State) (m : Nat) (t : CatchTab) : (s.setTab m t).motHeld = s.motHeld := (rfl)
@[simp] theorem State.setTab_encs (s : State) (m : Nat) (t : CatchTab) : (s.setTab m t).encs = s.encs := (rfl)
@[simp] theorem State.setTab_rce (s : State) (m : Nat) (t : CatchTab) : (s.setTab m t).rce = s.rce := (rfl)
@[simp] theorem State.setTab_seq (s : State) (m : Nat) (t : CatchTab) : (s.setTab m t).seq = s.seq := (rfl)
@[simp] theorem State.setTab_clos (s : State) (m : Nat) (t : CatchTab) : (s.setTab m t).clos = s.clos := (rfl)
@[simp] theorem State.setTab_vdrs (s : State) (m : Nat) (t : CatchTab) : (s.setTab m t).vdrs = s.vdrs := (rfl)
@[simp] theorem State.setTab_pvm (s : State) (m : Nat) (t : CatchTab) : (s.setTab m t).pvm = s.pvm := (rfl)
@[simp] theorem State.setTab_cyc (s : State) (m : Nat) (t : CatchTab) : (s.setTab m t).cyc = s.cyc := (rfl)
@[simp] theorem State.setTab_iml (s : State) (m : Nat) (t : CatchTab) : (s.setTab m t).iml = s.iml := (rfl)
@[simp] theorem State.setTab_cans (s : State) (m : Nat) (t : CatchTab) : (s.setTab m t).cans = s.cans := (rfl)
@[simp] theorem State.setTab_eths (s : State) (m : Nat) (t : CatchTab) : (s.setTab m t).eths = s.eths := (rfl)
@[simp] theorem State.setTab_prps (s : State) (m : Nat) (t : CatchTab) : (s.setTab m t).prps = s.prps := (rfl)
@[simp] theorem State.setTab_rra (s : State) (m : Nat) (t : CatchTab) : (s.setTab m t).rra = s.rra := (rfl)
@[simp] theorem State.setTab_plk (s : State) (m : Nat) (t : CatchTab) : (s.setTab m t).plk = s.plk := (rfl)
@[simp] theorem State.setTab_vlt (s : State) (m : Nat) (t : CatchTab) : (s.setTab m t).vlt = s.vlt := (rfl)
@[simp] theorem State.setTab_rpc (s : State) (m : Nat) (t : CatchTab) : (s.setTab m t).rpc = s.rpc := (rfl)

@[simp] theorem State.setDin_pending (s : State) (n : Nat) (d : Din) : (s.setDin n d).pending = s.pending := (rfl)
@[simp] theorem State.setDin_regs (s : State) (n : Nat) (d : Din) : (s.setDin n d).regs = s.regs := (rfl)
@[simp] theorem State.setDin_mem (s : State) (n : Nat) (d : Din) : (s.setDin n d).mem = s.mem := (rfl)
@[simp] theorem State.setDin_fresh (s : State) (n : Nat) (d : Din) : (s.setDin n d).fresh = s.fresh := (rfl)
@[simp] theorem State.setDin_bus (s : State) (n : Nat) (d : Din) : (s.setDin n d).bus = s.bus := (rfl)
@[simp] theorem State.setDin_latch (s : State) (n : Nat) (d : Din) : (s.setDin n d).latch = s.latch := (rfl)
@[simp] theorem State.setDin_claimed (s : State) (n : Nat) (d : Din) : (s.setDin n d).claimed = s.claimed := (rfl)
@[simp] theorem State.setDin_wire (s : State) (n : Nat) (d : Din) : (s.setDin n d).wire = s.wire := (rfl)
@[simp] theorem State.setDin_evl (s : State) (n : Nat) (d : Din) : (s.setDin n d).evl = s.evl := (rfl)
@[simp] theorem State.setDin_time (s : State) (n : Nat) (d : Din) : (s.setDin n d).time = s.time := (rfl)
@[simp] theorem State.setDin_courses (s : State) (n : Nat) (d : Din) : (s.setDin n d).courses = s.courses := (rfl)
@[simp] theorem State.setDin_tabs (s : State) (n : Nat) (d : Din) : (s.setDin n d).tabs = s.tabs := (rfl)
@[simp] theorem State.setDin_inflight (s : State) (n : Nat) (d : Din) : (s.setDin n d).inflight = s.inflight := (rfl)
@[simp] theorem State.setDin_fwl (s : State) (n : Nat) (d : Din) : (s.setDin n d).fwl = s.fwl := (rfl)
@[simp] theorem State.setDin_healths (s : State) (n : Nat) (d : Din) : (s.setDin n d).healths = s.healths := (rfl)
@[simp] theorem State.setDin_healthX (s : State) (n : Nat) (d : Din) : (s.setDin n d).healthX = s.healthX := (rfl)
@[simp] theorem State.setDin_img (s : State) (n : Nat) (d : Din) : (s.setDin n d).img = s.img := (rfl)
@[simp] theorem State.setDin_cox (s : State) (n : Nat) (d : Din) : (s.setDin n d).cox = s.cox := (rfl)
@[simp] theorem State.setDin_convs (s : State) (n : Nat) (d : Din) : (s.setDin n d).convs = s.convs := (rfl)
@[simp] theorem State.setDin_pairs (s : State) (n : Nat) (d : Din) : (s.setDin n d).pairs = s.pairs := (rfl)
@[simp] theorem State.setDin_owRun (s : State) (n : Nat) (d : Din) : (s.setDin n d).owRun = s.owRun := (rfl)
@[simp] theorem State.setDin_cal (s : State) (n : Nat) (d : Din) : (s.setDin n d).cal = s.cal := (rfl)
@[simp] theorem State.setDin_dma (s : State) (n : Nat) (d : Din) : (s.setDin n d).dma = s.dma := (rfl)
@[simp] theorem State.setDin_dmaLast (s : State) (n : Nat) (d : Din) : (s.setDin n d).dmaLast = s.dmaLast := (rfl)
@[simp] theorem State.setDin_rmv (s : State) (n : Nat) (d : Din) : (s.setDin n d).rmv = s.rmv := (rfl)
@[simp] theorem State.setDin_lpe (s : State) (n : Nat) (d : Din) : (s.setDin n d).lpe = s.lpe := (rfl)
@[simp] theorem State.setDin_lsm (s : State) (n : Nat) (d : Din) : (s.setDin n d).lsm = s.lsm := (rfl)
@[simp] theorem State.setDin_mig (s : State) (n : Nat) (d : Din) : (s.setDin n d).mig = s.mig := (rfl)
@[simp] theorem State.setDin_owed (s : State) (n : Nat) (d : Din) : (s.setDin n d).owed = s.owed := (rfl)
@[simp] theorem State.setDin_axes (s : State) (n : Nat) (d : Din) : (s.setDin n d).axes = s.axes := (rfl)
@[simp] theorem State.setDin_motHeld (s : State) (n : Nat) (d : Din) : (s.setDin n d).motHeld = s.motHeld := (rfl)
@[simp] theorem State.setDin_encs (s : State) (n : Nat) (d : Din) : (s.setDin n d).encs = s.encs := (rfl)
@[simp] theorem State.setDin_rce (s : State) (n : Nat) (d : Din) : (s.setDin n d).rce = s.rce := (rfl)
@[simp] theorem State.setDin_seq (s : State) (n : Nat) (d : Din) : (s.setDin n d).seq = s.seq := (rfl)
@[simp] theorem State.setDin_clos (s : State) (n : Nat) (d : Din) : (s.setDin n d).clos = s.clos := (rfl)
@[simp] theorem State.setDin_vdrs (s : State) (n : Nat) (d : Din) : (s.setDin n d).vdrs = s.vdrs := (rfl)
@[simp] theorem State.setDin_pvm (s : State) (n : Nat) (d : Din) : (s.setDin n d).pvm = s.pvm := (rfl)
@[simp] theorem State.setDin_cyc (s : State) (n : Nat) (d : Din) : (s.setDin n d).cyc = s.cyc := (rfl)
@[simp] theorem State.setDin_iml (s : State) (n : Nat) (d : Din) : (s.setDin n d).iml = s.iml := (rfl)
@[simp] theorem State.setDin_cans (s : State) (n : Nat) (d : Din) : (s.setDin n d).cans = s.cans := (rfl)
@[simp] theorem State.setDin_eths (s : State) (n : Nat) (d : Din) : (s.setDin n d).eths = s.eths := (rfl)
@[simp] theorem State.setDin_prps (s : State) (n : Nat) (d : Din) : (s.setDin n d).prps = s.prps := (rfl)
@[simp] theorem State.setDin_rra (s : State) (n : Nat) (d : Din) : (s.setDin n d).rra = s.rra := (rfl)
@[simp] theorem State.setDin_plk (s : State) (n : Nat) (d : Din) : (s.setDin n d).plk = s.plk := (rfl)
@[simp] theorem State.setDin_vlt (s : State) (n : Nat) (d : Din) : (s.setDin n d).vlt = s.vlt := (rfl)
@[simp] theorem State.setDin_rpc (s : State) (n : Nat) (d : Din) : (s.setDin n d).rpc = s.rpc := (rfl)

@[simp] theorem State.setCox_pending (s : State) (n : Nat) (c : CoxState) : (s.setCox n c).pending = s.pending := (rfl)
@[simp] theorem State.setCox_regs (s : State) (n : Nat) (c : CoxState) : (s.setCox n c).regs = s.regs := (rfl)
@[simp] theorem State.setCox_mem (s : State) (n : Nat) (c : CoxState) : (s.setCox n c).mem = s.mem := (rfl)
@[simp] theorem State.setCox_fresh (s : State) (n : Nat) (c : CoxState) : (s.setCox n c).fresh = s.fresh := (rfl)
@[simp] theorem State.setCox_bus (s : State) (n : Nat) (c : CoxState) : (s.setCox n c).bus = s.bus := (rfl)
@[simp] theorem State.setCox_latch (s : State) (n : Nat) (c : CoxState) : (s.setCox n c).latch = s.latch := (rfl)
@[simp] theorem State.setCox_claimed (s : State) (n : Nat) (c : CoxState) : (s.setCox n c).claimed = s.claimed := (rfl)
@[simp] theorem State.setCox_wire (s : State) (n : Nat) (c : CoxState) : (s.setCox n c).wire = s.wire := (rfl)
@[simp] theorem State.setCox_evl (s : State) (n : Nat) (c : CoxState) : (s.setCox n c).evl = s.evl := (rfl)
@[simp] theorem State.setCox_time (s : State) (n : Nat) (c : CoxState) : (s.setCox n c).time = s.time := (rfl)
@[simp] theorem State.setCox_courses (s : State) (n : Nat) (c : CoxState) : (s.setCox n c).courses = s.courses := (rfl)
@[simp] theorem State.setCox_tabs (s : State) (n : Nat) (c : CoxState) : (s.setCox n c).tabs = s.tabs := (rfl)
@[simp] theorem State.setCox_inflight (s : State) (n : Nat) (c : CoxState) : (s.setCox n c).inflight = s.inflight := (rfl)
@[simp] theorem State.setCox_dins (s : State) (n : Nat) (c : CoxState) : (s.setCox n c).dins = s.dins := (rfl)
@[simp] theorem State.setCox_fwl (s : State) (n : Nat) (c : CoxState) : (s.setCox n c).fwl = s.fwl := (rfl)
@[simp] theorem State.setCox_healths (s : State) (n : Nat) (c : CoxState) : (s.setCox n c).healths = s.healths := (rfl)
@[simp] theorem State.setCox_healthX (s : State) (n : Nat) (c : CoxState) : (s.setCox n c).healthX = s.healthX := (rfl)
@[simp] theorem State.setCox_img (s : State) (n : Nat) (c : CoxState) : (s.setCox n c).img = s.img := (rfl)
@[simp] theorem State.setCox_convs (s : State) (n : Nat) (c : CoxState) : (s.setCox n c).convs = s.convs := (rfl)
@[simp] theorem State.setCox_pairs (s : State) (n : Nat) (c : CoxState) : (s.setCox n c).pairs = s.pairs := (rfl)
@[simp] theorem State.setCox_owRun (s : State) (n : Nat) (c : CoxState) : (s.setCox n c).owRun = s.owRun := (rfl)
@[simp] theorem State.setCox_cal (s : State) (n : Nat) (c : CoxState) : (s.setCox n c).cal = s.cal := (rfl)
@[simp] theorem State.setCox_dma (s : State) (n : Nat) (c : CoxState) : (s.setCox n c).dma = s.dma := (rfl)
@[simp] theorem State.setCox_dmaLast (s : State) (n : Nat) (c : CoxState) : (s.setCox n c).dmaLast = s.dmaLast := (rfl)
@[simp] theorem State.setCox_rmv (s : State) (n : Nat) (c : CoxState) : (s.setCox n c).rmv = s.rmv := (rfl)
@[simp] theorem State.setCox_lpe (s : State) (n : Nat) (c : CoxState) : (s.setCox n c).lpe = s.lpe := (rfl)
@[simp] theorem State.setCox_lsm (s : State) (n : Nat) (c : CoxState) : (s.setCox n c).lsm = s.lsm := (rfl)
@[simp] theorem State.setCox_mig (s : State) (n : Nat) (c : CoxState) : (s.setCox n c).mig = s.mig := (rfl)
@[simp] theorem State.setCox_owed (s : State) (n : Nat) (c : CoxState) : (s.setCox n c).owed = s.owed := (rfl)
@[simp] theorem State.setCox_axes (s : State) (n : Nat) (c : CoxState) : (s.setCox n c).axes = s.axes := (rfl)
@[simp] theorem State.setCox_motHeld (s : State) (n : Nat) (c : CoxState) : (s.setCox n c).motHeld = s.motHeld := (rfl)
@[simp] theorem State.setCox_encs (s : State) (n : Nat) (c : CoxState) : (s.setCox n c).encs = s.encs := (rfl)
@[simp] theorem State.setCox_rce (s : State) (n : Nat) (c : CoxState) : (s.setCox n c).rce = s.rce := (rfl)
@[simp] theorem State.setCox_seq (s : State) (n : Nat) (c : CoxState) : (s.setCox n c).seq = s.seq := (rfl)
@[simp] theorem State.setCox_clos (s : State) (n : Nat) (c : CoxState) : (s.setCox n c).clos = s.clos := (rfl)
@[simp] theorem State.setCox_vdrs (s : State) (n : Nat) (c : CoxState) : (s.setCox n c).vdrs = s.vdrs := (rfl)
@[simp] theorem State.setCox_pvm (s : State) (n : Nat) (c : CoxState) : (s.setCox n c).pvm = s.pvm := (rfl)
@[simp] theorem State.setCox_cyc (s : State) (n : Nat) (c : CoxState) : (s.setCox n c).cyc = s.cyc := (rfl)
@[simp] theorem State.setCox_iml (s : State) (n : Nat) (c : CoxState) : (s.setCox n c).iml = s.iml := (rfl)
@[simp] theorem State.setCox_cans (s : State) (n : Nat) (c : CoxState) : (s.setCox n c).cans = s.cans := (rfl)
@[simp] theorem State.setCox_eths (s : State) (n : Nat) (c : CoxState) : (s.setCox n c).eths = s.eths := (rfl)
@[simp] theorem State.setCox_prps (s : State) (n : Nat) (c : CoxState) : (s.setCox n c).prps = s.prps := (rfl)
@[simp] theorem State.setCox_rra (s : State) (n : Nat) (c : CoxState) : (s.setCox n c).rra = s.rra := (rfl)
@[simp] theorem State.setCox_plk (s : State) (n : Nat) (c : CoxState) : (s.setCox n c).plk = s.plk := (rfl)
@[simp] theorem State.setCox_vlt (s : State) (n : Nat) (c : CoxState) : (s.setCox n c).vlt = s.vlt := (rfl)
@[simp] theorem State.setCox_rpc (s : State) (n : Nat) (c : CoxState) : (s.setCox n c).rpc = s.rpc := (rfl)

@[simp] theorem State.setConv_pending (s : State) (k : Nat) (c : Conv) : (s.setConv k c).pending = s.pending := (rfl)
@[simp] theorem State.setConv_regs (s : State) (k : Nat) (c : Conv) : (s.setConv k c).regs = s.regs := (rfl)
@[simp] theorem State.setConv_mem (s : State) (k : Nat) (c : Conv) : (s.setConv k c).mem = s.mem := (rfl)
@[simp] theorem State.setConv_fresh (s : State) (k : Nat) (c : Conv) : (s.setConv k c).fresh = s.fresh := (rfl)
@[simp] theorem State.setConv_bus (s : State) (k : Nat) (c : Conv) : (s.setConv k c).bus = s.bus := (rfl)
@[simp] theorem State.setConv_latch (s : State) (k : Nat) (c : Conv) : (s.setConv k c).latch = s.latch := (rfl)
@[simp] theorem State.setConv_claimed (s : State) (k : Nat) (c : Conv) : (s.setConv k c).claimed = s.claimed := (rfl)
@[simp] theorem State.setConv_wire (s : State) (k : Nat) (c : Conv) : (s.setConv k c).wire = s.wire := (rfl)
@[simp] theorem State.setConv_evl (s : State) (k : Nat) (c : Conv) : (s.setConv k c).evl = s.evl := (rfl)
@[simp] theorem State.setConv_time (s : State) (k : Nat) (c : Conv) : (s.setConv k c).time = s.time := (rfl)
@[simp] theorem State.setConv_courses (s : State) (k : Nat) (c : Conv) : (s.setConv k c).courses = s.courses := (rfl)
@[simp] theorem State.setConv_tabs (s : State) (k : Nat) (c : Conv) : (s.setConv k c).tabs = s.tabs := (rfl)
@[simp] theorem State.setConv_inflight (s : State) (k : Nat) (c : Conv) : (s.setConv k c).inflight = s.inflight := (rfl)
@[simp] theorem State.setConv_dins (s : State) (k : Nat) (c : Conv) : (s.setConv k c).dins = s.dins := (rfl)
@[simp] theorem State.setConv_fwl (s : State) (k : Nat) (c : Conv) : (s.setConv k c).fwl = s.fwl := (rfl)
@[simp] theorem State.setConv_healths (s : State) (k : Nat) (c : Conv) : (s.setConv k c).healths = s.healths := (rfl)
@[simp] theorem State.setConv_healthX (s : State) (k : Nat) (c : Conv) : (s.setConv k c).healthX = s.healthX := (rfl)
@[simp] theorem State.setConv_img (s : State) (k : Nat) (c : Conv) : (s.setConv k c).img = s.img := (rfl)
@[simp] theorem State.setConv_cox (s : State) (k : Nat) (c : Conv) : (s.setConv k c).cox = s.cox := (rfl)
@[simp] theorem State.setConv_pairs (s : State) (k : Nat) (c : Conv) : (s.setConv k c).pairs = s.pairs := (rfl)
@[simp] theorem State.setConv_owRun (s : State) (k : Nat) (c : Conv) : (s.setConv k c).owRun = s.owRun := (rfl)
@[simp] theorem State.setConv_cal (s : State) (k : Nat) (c : Conv) : (s.setConv k c).cal = s.cal := (rfl)
@[simp] theorem State.setConv_dma (s : State) (k : Nat) (c : Conv) : (s.setConv k c).dma = s.dma := (rfl)
@[simp] theorem State.setConv_dmaLast (s : State) (k : Nat) (c : Conv) : (s.setConv k c).dmaLast = s.dmaLast := (rfl)
@[simp] theorem State.setConv_rmv (s : State) (k : Nat) (c : Conv) : (s.setConv k c).rmv = s.rmv := (rfl)
@[simp] theorem State.setConv_lpe (s : State) (k : Nat) (c : Conv) : (s.setConv k c).lpe = s.lpe := (rfl)
@[simp] theorem State.setConv_lsm (s : State) (k : Nat) (c : Conv) : (s.setConv k c).lsm = s.lsm := (rfl)
@[simp] theorem State.setConv_mig (s : State) (k : Nat) (c : Conv) : (s.setConv k c).mig = s.mig := (rfl)
@[simp] theorem State.setConv_owed (s : State) (k : Nat) (c : Conv) : (s.setConv k c).owed = s.owed := (rfl)
@[simp] theorem State.setConv_axes (s : State) (k : Nat) (c : Conv) : (s.setConv k c).axes = s.axes := (rfl)
@[simp] theorem State.setConv_motHeld (s : State) (k : Nat) (c : Conv) : (s.setConv k c).motHeld = s.motHeld := (rfl)
@[simp] theorem State.setConv_encs (s : State) (k : Nat) (c : Conv) : (s.setConv k c).encs = s.encs := (rfl)
@[simp] theorem State.setConv_rce (s : State) (k : Nat) (c : Conv) : (s.setConv k c).rce = s.rce := (rfl)
@[simp] theorem State.setConv_seq (s : State) (k : Nat) (c : Conv) : (s.setConv k c).seq = s.seq := (rfl)
@[simp] theorem State.setConv_clos (s : State) (k : Nat) (c : Conv) : (s.setConv k c).clos = s.clos := (rfl)
@[simp] theorem State.setConv_vdrs (s : State) (k : Nat) (c : Conv) : (s.setConv k c).vdrs = s.vdrs := (rfl)
@[simp] theorem State.setConv_pvm (s : State) (k : Nat) (c : Conv) : (s.setConv k c).pvm = s.pvm := (rfl)
@[simp] theorem State.setConv_cyc (s : State) (k : Nat) (c : Conv) : (s.setConv k c).cyc = s.cyc := (rfl)
@[simp] theorem State.setConv_iml (s : State) (k : Nat) (c : Conv) : (s.setConv k c).iml = s.iml := (rfl)
@[simp] theorem State.setConv_cans (s : State) (k : Nat) (c : Conv) : (s.setConv k c).cans = s.cans := (rfl)
@[simp] theorem State.setConv_eths (s : State) (k : Nat) (c : Conv) : (s.setConv k c).eths = s.eths := (rfl)
@[simp] theorem State.setConv_prps (s : State) (k : Nat) (c : Conv) : (s.setConv k c).prps = s.prps := (rfl)
@[simp] theorem State.setConv_rra (s : State) (k : Nat) (c : Conv) : (s.setConv k c).rra = s.rra := (rfl)
@[simp] theorem State.setConv_plk (s : State) (k : Nat) (c : Conv) : (s.setConv k c).plk = s.plk := (rfl)
@[simp] theorem State.setConv_vlt (s : State) (k : Nat) (c : Conv) : (s.setConv k c).vlt = s.vlt := (rfl)
@[simp] theorem State.setConv_rpc (s : State) (k : Nat) (c : Conv) : (s.setConv k c).rpc = s.rpc := (rfl)

@[simp] theorem State.setPair_pending (s : State) (p : Nat) (x : Pair) : (s.setPair p x).pending = s.pending := (rfl)
@[simp] theorem State.setPair_regs (s : State) (p : Nat) (x : Pair) : (s.setPair p x).regs = s.regs := (rfl)
@[simp] theorem State.setPair_mem (s : State) (p : Nat) (x : Pair) : (s.setPair p x).mem = s.mem := (rfl)
@[simp] theorem State.setPair_fresh (s : State) (p : Nat) (x : Pair) : (s.setPair p x).fresh = s.fresh := (rfl)
@[simp] theorem State.setPair_bus (s : State) (p : Nat) (x : Pair) : (s.setPair p x).bus = s.bus := (rfl)
@[simp] theorem State.setPair_latch (s : State) (p : Nat) (x : Pair) : (s.setPair p x).latch = s.latch := (rfl)
@[simp] theorem State.setPair_claimed (s : State) (p : Nat) (x : Pair) : (s.setPair p x).claimed = s.claimed := (rfl)
@[simp] theorem State.setPair_wire (s : State) (p : Nat) (x : Pair) : (s.setPair p x).wire = s.wire := (rfl)
@[simp] theorem State.setPair_evl (s : State) (p : Nat) (x : Pair) : (s.setPair p x).evl = s.evl := (rfl)
@[simp] theorem State.setPair_time (s : State) (p : Nat) (x : Pair) : (s.setPair p x).time = s.time := (rfl)
@[simp] theorem State.setPair_courses (s : State) (p : Nat) (x : Pair) : (s.setPair p x).courses = s.courses := (rfl)
@[simp] theorem State.setPair_tabs (s : State) (p : Nat) (x : Pair) : (s.setPair p x).tabs = s.tabs := (rfl)
@[simp] theorem State.setPair_inflight (s : State) (p : Nat) (x : Pair) : (s.setPair p x).inflight = s.inflight := (rfl)
@[simp] theorem State.setPair_dins (s : State) (p : Nat) (x : Pair) : (s.setPair p x).dins = s.dins := (rfl)
@[simp] theorem State.setPair_fwl (s : State) (p : Nat) (x : Pair) : (s.setPair p x).fwl = s.fwl := (rfl)
@[simp] theorem State.setPair_healths (s : State) (p : Nat) (x : Pair) : (s.setPair p x).healths = s.healths := (rfl)
@[simp] theorem State.setPair_healthX (s : State) (p : Nat) (x : Pair) : (s.setPair p x).healthX = s.healthX := (rfl)
@[simp] theorem State.setPair_img (s : State) (p : Nat) (x : Pair) : (s.setPair p x).img = s.img := (rfl)
@[simp] theorem State.setPair_cox (s : State) (p : Nat) (x : Pair) : (s.setPair p x).cox = s.cox := (rfl)
@[simp] theorem State.setPair_convs (s : State) (p : Nat) (x : Pair) : (s.setPair p x).convs = s.convs := (rfl)
@[simp] theorem State.setPair_owRun (s : State) (p : Nat) (x : Pair) : (s.setPair p x).owRun = s.owRun := (rfl)
@[simp] theorem State.setPair_cal (s : State) (p : Nat) (x : Pair) : (s.setPair p x).cal = s.cal := (rfl)
@[simp] theorem State.setPair_dma (s : State) (p : Nat) (x : Pair) : (s.setPair p x).dma = s.dma := (rfl)
@[simp] theorem State.setPair_dmaLast (s : State) (p : Nat) (x : Pair) : (s.setPair p x).dmaLast = s.dmaLast := (rfl)
@[simp] theorem State.setPair_rmv (s : State) (p : Nat) (x : Pair) : (s.setPair p x).rmv = s.rmv := (rfl)
@[simp] theorem State.setPair_lpe (s : State) (p : Nat) (x : Pair) : (s.setPair p x).lpe = s.lpe := (rfl)
@[simp] theorem State.setPair_lsm (s : State) (p : Nat) (x : Pair) : (s.setPair p x).lsm = s.lsm := (rfl)
@[simp] theorem State.setPair_mig (s : State) (p : Nat) (x : Pair) : (s.setPair p x).mig = s.mig := (rfl)
@[simp] theorem State.setPair_owed (s : State) (p : Nat) (x : Pair) : (s.setPair p x).owed = s.owed := (rfl)
@[simp] theorem State.setPair_axes (s : State) (p : Nat) (x : Pair) : (s.setPair p x).axes = s.axes := (rfl)
@[simp] theorem State.setPair_motHeld (s : State) (p : Nat) (x : Pair) : (s.setPair p x).motHeld = s.motHeld := (rfl)
@[simp] theorem State.setPair_encs (s : State) (p : Nat) (x : Pair) : (s.setPair p x).encs = s.encs := (rfl)
@[simp] theorem State.setPair_rce (s : State) (p : Nat) (x : Pair) : (s.setPair p x).rce = s.rce := (rfl)
@[simp] theorem State.setPair_seq (s : State) (p : Nat) (x : Pair) : (s.setPair p x).seq = s.seq := (rfl)
@[simp] theorem State.setPair_clos (s : State) (p : Nat) (x : Pair) : (s.setPair p x).clos = s.clos := (rfl)
@[simp] theorem State.setPair_vdrs (s : State) (p : Nat) (x : Pair) : (s.setPair p x).vdrs = s.vdrs := (rfl)
@[simp] theorem State.setPair_pvm (s : State) (p : Nat) (x : Pair) : (s.setPair p x).pvm = s.pvm := (rfl)
@[simp] theorem State.setPair_cyc (s : State) (p : Nat) (x : Pair) : (s.setPair p x).cyc = s.cyc := (rfl)
@[simp] theorem State.setPair_iml (s : State) (p : Nat) (x : Pair) : (s.setPair p x).iml = s.iml := (rfl)
@[simp] theorem State.setPair_cans (s : State) (p : Nat) (x : Pair) : (s.setPair p x).cans = s.cans := (rfl)
@[simp] theorem State.setPair_eths (s : State) (p : Nat) (x : Pair) : (s.setPair p x).eths = s.eths := (rfl)
@[simp] theorem State.setPair_prps (s : State) (p : Nat) (x : Pair) : (s.setPair p x).prps = s.prps := (rfl)
@[simp] theorem State.setPair_rra (s : State) (p : Nat) (x : Pair) : (s.setPair p x).rra = s.rra := (rfl)
@[simp] theorem State.setPair_plk (s : State) (p : Nat) (x : Pair) : (s.setPair p x).plk = s.plk := (rfl)
@[simp] theorem State.setPair_vlt (s : State) (p : Nat) (x : Pair) : (s.setPair p x).vlt = s.vlt := (rfl)
@[simp] theorem State.setPair_rpc (s : State) (p : Nat) (x : Pair) : (s.setPair p x).rpc = s.rpc := (rfl)

@[simp] theorem State.setPlk_pending (s : State) (p : PlkState) : (s.setPlk p).pending = s.pending := (rfl)
@[simp] theorem State.setPlk_regs (s : State) (p : PlkState) : (s.setPlk p).regs = s.regs := (rfl)
@[simp] theorem State.setPlk_mem (s : State) (p : PlkState) : (s.setPlk p).mem = s.mem := (rfl)
@[simp] theorem State.setPlk_fresh (s : State) (p : PlkState) : (s.setPlk p).fresh = s.fresh := (rfl)
@[simp] theorem State.setPlk_bus (s : State) (p : PlkState) : (s.setPlk p).bus = s.bus := (rfl)
@[simp] theorem State.setPlk_latch (s : State) (p : PlkState) : (s.setPlk p).latch = s.latch := (rfl)
@[simp] theorem State.setPlk_claimed (s : State) (p : PlkState) : (s.setPlk p).claimed = s.claimed := (rfl)
@[simp] theorem State.setPlk_wire (s : State) (p : PlkState) : (s.setPlk p).wire = s.wire := (rfl)
@[simp] theorem State.setPlk_evl (s : State) (p : PlkState) : (s.setPlk p).evl = s.evl := (rfl)
@[simp] theorem State.setPlk_time (s : State) (p : PlkState) : (s.setPlk p).time = s.time := (rfl)
@[simp] theorem State.setPlk_courses (s : State) (p : PlkState) : (s.setPlk p).courses = s.courses := (rfl)
@[simp] theorem State.setPlk_tabs (s : State) (p : PlkState) : (s.setPlk p).tabs = s.tabs := (rfl)
@[simp] theorem State.setPlk_inflight (s : State) (p : PlkState) : (s.setPlk p).inflight = s.inflight := (rfl)
@[simp] theorem State.setPlk_dins (s : State) (p : PlkState) : (s.setPlk p).dins = s.dins := (rfl)
@[simp] theorem State.setPlk_fwl (s : State) (p : PlkState) : (s.setPlk p).fwl = s.fwl := (rfl)
@[simp] theorem State.setPlk_healths (s : State) (p : PlkState) : (s.setPlk p).healths = s.healths := (rfl)
@[simp] theorem State.setPlk_healthX (s : State) (p : PlkState) : (s.setPlk p).healthX = s.healthX := (rfl)
@[simp] theorem State.setPlk_img (s : State) (p : PlkState) : (s.setPlk p).img = s.img := (rfl)
@[simp] theorem State.setPlk_cox (s : State) (p : PlkState) : (s.setPlk p).cox = s.cox := (rfl)
@[simp] theorem State.setPlk_convs (s : State) (p : PlkState) : (s.setPlk p).convs = s.convs := (rfl)
@[simp] theorem State.setPlk_pairs (s : State) (p : PlkState) : (s.setPlk p).pairs = s.pairs := (rfl)
@[simp] theorem State.setPlk_owRun (s : State) (p : PlkState) : (s.setPlk p).owRun = s.owRun := (rfl)
@[simp] theorem State.setPlk_cal (s : State) (p : PlkState) : (s.setPlk p).cal = s.cal := (rfl)
@[simp] theorem State.setPlk_dma (s : State) (p : PlkState) : (s.setPlk p).dma = s.dma := (rfl)
@[simp] theorem State.setPlk_dmaLast (s : State) (p : PlkState) : (s.setPlk p).dmaLast = s.dmaLast := (rfl)
@[simp] theorem State.setPlk_rmv (s : State) (p : PlkState) : (s.setPlk p).rmv = s.rmv := (rfl)
@[simp] theorem State.setPlk_lpe (s : State) (p : PlkState) : (s.setPlk p).lpe = s.lpe := (rfl)
@[simp] theorem State.setPlk_lsm (s : State) (p : PlkState) : (s.setPlk p).lsm = s.lsm := (rfl)
@[simp] theorem State.setPlk_mig (s : State) (p : PlkState) : (s.setPlk p).mig = s.mig := (rfl)
@[simp] theorem State.setPlk_owed (s : State) (p : PlkState) : (s.setPlk p).owed = s.owed := (rfl)
@[simp] theorem State.setPlk_axes (s : State) (p : PlkState) : (s.setPlk p).axes = s.axes := (rfl)
@[simp] theorem State.setPlk_motHeld (s : State) (p : PlkState) : (s.setPlk p).motHeld = s.motHeld := (rfl)
@[simp] theorem State.setPlk_encs (s : State) (p : PlkState) : (s.setPlk p).encs = s.encs := (rfl)
@[simp] theorem State.setPlk_rce (s : State) (p : PlkState) : (s.setPlk p).rce = s.rce := (rfl)
@[simp] theorem State.setPlk_seq (s : State) (p : PlkState) : (s.setPlk p).seq = s.seq := (rfl)
@[simp] theorem State.setPlk_clos (s : State) (p : PlkState) : (s.setPlk p).clos = s.clos := (rfl)
@[simp] theorem State.setPlk_vdrs (s : State) (p : PlkState) : (s.setPlk p).vdrs = s.vdrs := (rfl)
@[simp] theorem State.setPlk_pvm (s : State) (p : PlkState) : (s.setPlk p).pvm = s.pvm := (rfl)
@[simp] theorem State.setPlk_cyc (s : State) (p : PlkState) : (s.setPlk p).cyc = s.cyc := (rfl)
@[simp] theorem State.setPlk_iml (s : State) (p : PlkState) : (s.setPlk p).iml = s.iml := (rfl)
@[simp] theorem State.setPlk_cans (s : State) (p : PlkState) : (s.setPlk p).cans = s.cans := (rfl)
@[simp] theorem State.setPlk_eths (s : State) (p : PlkState) : (s.setPlk p).eths = s.eths := (rfl)
@[simp] theorem State.setPlk_prps (s : State) (p : PlkState) : (s.setPlk p).prps = s.prps := (rfl)
@[simp] theorem State.setPlk_rra (s : State) (p : PlkState) : (s.setPlk p).rra = s.rra := (rfl)
@[simp] theorem State.setPlk_vlt (s : State) (p : PlkState) : (s.setPlk p).vlt = s.vlt := (rfl)
@[simp] theorem State.setPlk_rpc (s : State) (p : PlkState) : (s.setPlk p).rpc = s.rpc := (rfl)
@[simp] theorem State.setPlk_plk (s : State) (p : PlkState) : (s.setPlk p).plk = p := (rfl)

@[simp] theorem State.emit_pending (s : State) (e : Emit) : (s.emit e).pending = s.pending := (rfl)
@[simp] theorem State.emit_regs (s : State) (e : Emit) : (s.emit e).regs = s.regs := (rfl)
@[simp] theorem State.emit_mem (s : State) (e : Emit) : (s.emit e).mem = s.mem := (rfl)
@[simp] theorem State.emit_fresh (s : State) (e : Emit) : (s.emit e).fresh = s.fresh := (rfl)
@[simp] theorem State.emit_bus (s : State) (e : Emit) : (s.emit e).bus = s.bus := (rfl)
@[simp] theorem State.emit_latch (s : State) (e : Emit) : (s.emit e).latch = s.latch := (rfl)
@[simp] theorem State.emit_claimed (s : State) (e : Emit) : (s.emit e).claimed = s.claimed := (rfl)
@[simp] theorem State.emit_evl (s : State) (e : Emit) : (s.emit e).evl = s.evl := (rfl)
@[simp] theorem State.emit_time (s : State) (e : Emit) : (s.emit e).time = s.time := (rfl)
@[simp] theorem State.emit_courses (s : State) (e : Emit) : (s.emit e).courses = s.courses := (rfl)
@[simp] theorem State.emit_tabs (s : State) (e : Emit) : (s.emit e).tabs = s.tabs := (rfl)
@[simp] theorem State.emit_inflight (s : State) (e : Emit) : (s.emit e).inflight = s.inflight := (rfl)
@[simp] theorem State.emit_dins (s : State) (e : Emit) : (s.emit e).dins = s.dins := (rfl)
@[simp] theorem State.emit_fwl (s : State) (e : Emit) : (s.emit e).fwl = s.fwl := (rfl)
@[simp] theorem State.emit_healths (s : State) (e : Emit) : (s.emit e).healths = s.healths := (rfl)
@[simp] theorem State.emit_healthX (s : State) (e : Emit) : (s.emit e).healthX = s.healthX := (rfl)
@[simp] theorem State.emit_img (s : State) (e : Emit) : (s.emit e).img = s.img := (rfl)
@[simp] theorem State.emit_cox (s : State) (e : Emit) : (s.emit e).cox = s.cox := (rfl)
@[simp] theorem State.emit_convs (s : State) (e : Emit) : (s.emit e).convs = s.convs := (rfl)
@[simp] theorem State.emit_pairs (s : State) (e : Emit) : (s.emit e).pairs = s.pairs := (rfl)
@[simp] theorem State.emit_owRun (s : State) (e : Emit) : (s.emit e).owRun = s.owRun := (rfl)
@[simp] theorem State.emit_cal (s : State) (e : Emit) : (s.emit e).cal = s.cal := (rfl)
@[simp] theorem State.emit_dma (s : State) (e : Emit) : (s.emit e).dma = s.dma := (rfl)
@[simp] theorem State.emit_dmaLast (s : State) (e : Emit) : (s.emit e).dmaLast = s.dmaLast := (rfl)
@[simp] theorem State.emit_rmv (s : State) (e : Emit) : (s.emit e).rmv = s.rmv := (rfl)
@[simp] theorem State.emit_lpe (s : State) (e : Emit) : (s.emit e).lpe = s.lpe := (rfl)
@[simp] theorem State.emit_lsm (s : State) (e : Emit) : (s.emit e).lsm = s.lsm := (rfl)
@[simp] theorem State.emit_mig (s : State) (e : Emit) : (s.emit e).mig = s.mig := (rfl)
@[simp] theorem State.emit_owed (s : State) (e : Emit) : (s.emit e).owed = s.owed := (rfl)
@[simp] theorem State.emit_axes (s : State) (e : Emit) : (s.emit e).axes = s.axes := (rfl)
@[simp] theorem State.emit_motHeld (s : State) (e : Emit) : (s.emit e).motHeld = s.motHeld := (rfl)
@[simp] theorem State.emit_encs (s : State) (e : Emit) : (s.emit e).encs = s.encs := (rfl)
@[simp] theorem State.emit_rce (s : State) (e : Emit) : (s.emit e).rce = s.rce := (rfl)
@[simp] theorem State.emit_seq (s : State) (e : Emit) : (s.emit e).seq = s.seq := (rfl)
@[simp] theorem State.emit_clos (s : State) (e : Emit) : (s.emit e).clos = s.clos := (rfl)
@[simp] theorem State.emit_vdrs (s : State) (e : Emit) : (s.emit e).vdrs = s.vdrs := (rfl)
@[simp] theorem State.emit_pvm (s : State) (e : Emit) : (s.emit e).pvm = s.pvm := (rfl)
@[simp] theorem State.emit_cyc (s : State) (e : Emit) : (s.emit e).cyc = s.cyc := (rfl)
@[simp] theorem State.emit_iml (s : State) (e : Emit) : (s.emit e).iml = s.iml := (rfl)
@[simp] theorem State.emit_cans (s : State) (e : Emit) : (s.emit e).cans = s.cans := (rfl)
@[simp] theorem State.emit_eths (s : State) (e : Emit) : (s.emit e).eths = s.eths := (rfl)
@[simp] theorem State.emit_prps (s : State) (e : Emit) : (s.emit e).prps = s.prps := (rfl)
@[simp] theorem State.emit_rra (s : State) (e : Emit) : (s.emit e).rra = s.rra := (rfl)
@[simp] theorem State.emit_plk (s : State) (e : Emit) : (s.emit e).plk = s.plk := (rfl)
@[simp] theorem State.emit_vlt (s : State) (e : Emit) : (s.emit e).vlt = s.vlt := (rfl)
@[simp] theorem State.emit_rpc (s : State) (e : Emit) : (s.emit e).rpc = s.rpc := (rfl)

@[simp] theorem State.setHealthRec_pending (s : State) (r : Res) (h : HealthRec) : (s.setHealthRec r h).pending = s.pending := (rfl)
@[simp] theorem State.setHealthRec_regs (s : State) (r : Res) (h : HealthRec) : (s.setHealthRec r h).regs = s.regs := (rfl)
@[simp] theorem State.setHealthRec_mem (s : State) (r : Res) (h : HealthRec) : (s.setHealthRec r h).mem = s.mem := (rfl)
@[simp] theorem State.setHealthRec_fresh (s : State) (r : Res) (h : HealthRec) : (s.setHealthRec r h).fresh = s.fresh := (rfl)
@[simp] theorem State.setHealthRec_bus (s : State) (r : Res) (h : HealthRec) : (s.setHealthRec r h).bus = s.bus := (rfl)
@[simp] theorem State.setHealthRec_latch (s : State) (r : Res) (h : HealthRec) : (s.setHealthRec r h).latch = s.latch := (rfl)
@[simp] theorem State.setHealthRec_claimed (s : State) (r : Res) (h : HealthRec) : (s.setHealthRec r h).claimed = s.claimed := (rfl)
@[simp] theorem State.setHealthRec_wire (s : State) (r : Res) (h : HealthRec) : (s.setHealthRec r h).wire = s.wire := (rfl)
@[simp] theorem State.setHealthRec_evl (s : State) (r : Res) (h : HealthRec) : (s.setHealthRec r h).evl = s.evl := (rfl)
@[simp] theorem State.setHealthRec_time (s : State) (r : Res) (h : HealthRec) : (s.setHealthRec r h).time = s.time := (rfl)
@[simp] theorem State.setHealthRec_courses (s : State) (r : Res) (h : HealthRec) : (s.setHealthRec r h).courses = s.courses := (rfl)
@[simp] theorem State.setHealthRec_tabs (s : State) (r : Res) (h : HealthRec) : (s.setHealthRec r h).tabs = s.tabs := (rfl)
@[simp] theorem State.setHealthRec_inflight (s : State) (r : Res) (h : HealthRec) : (s.setHealthRec r h).inflight = s.inflight := (rfl)
@[simp] theorem State.setHealthRec_dins (s : State) (r : Res) (h : HealthRec) : (s.setHealthRec r h).dins = s.dins := (rfl)
@[simp] theorem State.setHealthRec_fwl (s : State) (r : Res) (h : HealthRec) : (s.setHealthRec r h).fwl = s.fwl := (rfl)
@[simp] theorem State.setHealthRec_healthX (s : State) (r : Res) (h : HealthRec) : (s.setHealthRec r h).healthX = s.healthX := (rfl)
@[simp] theorem State.setHealthRec_img (s : State) (r : Res) (h : HealthRec) : (s.setHealthRec r h).img = s.img := (rfl)
@[simp] theorem State.setHealthRec_cox (s : State) (r : Res) (h : HealthRec) : (s.setHealthRec r h).cox = s.cox := (rfl)
@[simp] theorem State.setHealthRec_convs (s : State) (r : Res) (h : HealthRec) : (s.setHealthRec r h).convs = s.convs := (rfl)
@[simp] theorem State.setHealthRec_pairs (s : State) (r : Res) (h : HealthRec) : (s.setHealthRec r h).pairs = s.pairs := (rfl)
@[simp] theorem State.setHealthRec_owRun (s : State) (r : Res) (h : HealthRec) : (s.setHealthRec r h).owRun = s.owRun := (rfl)
@[simp] theorem State.setHealthRec_cal (s : State) (r : Res) (h : HealthRec) : (s.setHealthRec r h).cal = s.cal := (rfl)
@[simp] theorem State.setHealthRec_dma (s : State) (r : Res) (h : HealthRec) : (s.setHealthRec r h).dma = s.dma := (rfl)
@[simp] theorem State.setHealthRec_dmaLast (s : State) (r : Res) (h : HealthRec) : (s.setHealthRec r h).dmaLast = s.dmaLast := (rfl)
@[simp] theorem State.setHealthRec_rmv (s : State) (r : Res) (h : HealthRec) : (s.setHealthRec r h).rmv = s.rmv := (rfl)
@[simp] theorem State.setHealthRec_lpe (s : State) (r : Res) (h : HealthRec) : (s.setHealthRec r h).lpe = s.lpe := (rfl)
@[simp] theorem State.setHealthRec_lsm (s : State) (r : Res) (h : HealthRec) : (s.setHealthRec r h).lsm = s.lsm := (rfl)
@[simp] theorem State.setHealthRec_mig (s : State) (r : Res) (h : HealthRec) : (s.setHealthRec r h).mig = s.mig := (rfl)
@[simp] theorem State.setHealthRec_owed (s : State) (r : Res) (h : HealthRec) : (s.setHealthRec r h).owed = s.owed := (rfl)
@[simp] theorem State.setHealthRec_axes (s : State) (r : Res) (h : HealthRec) : (s.setHealthRec r h).axes = s.axes := (rfl)
@[simp] theorem State.setHealthRec_motHeld (s : State) (r : Res) (h : HealthRec) : (s.setHealthRec r h).motHeld = s.motHeld := (rfl)
@[simp] theorem State.setHealthRec_encs (s : State) (r : Res) (h : HealthRec) : (s.setHealthRec r h).encs = s.encs := (rfl)
@[simp] theorem State.setHealthRec_rce (s : State) (r : Res) (h : HealthRec) : (s.setHealthRec r h).rce = s.rce := (rfl)
@[simp] theorem State.setHealthRec_seq (s : State) (r : Res) (h : HealthRec) : (s.setHealthRec r h).seq = s.seq := (rfl)
@[simp] theorem State.setHealthRec_clos (s : State) (r : Res) (h : HealthRec) : (s.setHealthRec r h).clos = s.clos := (rfl)
@[simp] theorem State.setHealthRec_vdrs (s : State) (r : Res) (h : HealthRec) : (s.setHealthRec r h).vdrs = s.vdrs := (rfl)
@[simp] theorem State.setHealthRec_pvm (s : State) (r : Res) (h : HealthRec) : (s.setHealthRec r h).pvm = s.pvm := (rfl)
@[simp] theorem State.setHealthRec_cyc (s : State) (r : Res) (h : HealthRec) : (s.setHealthRec r h).cyc = s.cyc := (rfl)
@[simp] theorem State.setHealthRec_iml (s : State) (r : Res) (h : HealthRec) : (s.setHealthRec r h).iml = s.iml := (rfl)
@[simp] theorem State.setHealthRec_cans (s : State) (r : Res) (h : HealthRec) : (s.setHealthRec r h).cans = s.cans := (rfl)
@[simp] theorem State.setHealthRec_eths (s : State) (r : Res) (h : HealthRec) : (s.setHealthRec r h).eths = s.eths := (rfl)
@[simp] theorem State.setHealthRec_prps (s : State) (r : Res) (h : HealthRec) : (s.setHealthRec r h).prps = s.prps := (rfl)
@[simp] theorem State.setHealthRec_rra (s : State) (r : Res) (h : HealthRec) : (s.setHealthRec r h).rra = s.rra := (rfl)
@[simp] theorem State.setHealthRec_plk (s : State) (r : Res) (h : HealthRec) : (s.setHealthRec r h).plk = s.plk := (rfl)
@[simp] theorem State.setHealthRec_vlt (s : State) (r : Res) (h : HealthRec) : (s.setHealthRec r h).vlt = s.vlt := (rfl)
@[simp] theorem State.setHealthRec_rpc (s : State) (r : Res) (h : HealthRec) : (s.setHealthRec r h).rpc = s.rpc := (rfl)

@[simp] theorem State.setLpe_pending (s : State) (n : Nat) (e : LpeState) : (s.setLpe n e).pending = s.pending := (rfl)
@[simp] theorem State.setLpe_regs (s : State) (n : Nat) (e : LpeState) : (s.setLpe n e).regs = s.regs := (rfl)
@[simp] theorem State.setLpe_mem (s : State) (n : Nat) (e : LpeState) : (s.setLpe n e).mem = s.mem := (rfl)
@[simp] theorem State.setLpe_fresh (s : State) (n : Nat) (e : LpeState) : (s.setLpe n e).fresh = s.fresh := (rfl)
@[simp] theorem State.setLpe_bus (s : State) (n : Nat) (e : LpeState) : (s.setLpe n e).bus = s.bus := (rfl)
@[simp] theorem State.setLpe_latch (s : State) (n : Nat) (e : LpeState) : (s.setLpe n e).latch = s.latch := (rfl)
@[simp] theorem State.setLpe_claimed (s : State) (n : Nat) (e : LpeState) : (s.setLpe n e).claimed = s.claimed := (rfl)
@[simp] theorem State.setLpe_wire (s : State) (n : Nat) (e : LpeState) : (s.setLpe n e).wire = s.wire := (rfl)
@[simp] theorem State.setLpe_evl (s : State) (n : Nat) (e : LpeState) : (s.setLpe n e).evl = s.evl := (rfl)
@[simp] theorem State.setLpe_time (s : State) (n : Nat) (e : LpeState) : (s.setLpe n e).time = s.time := (rfl)
@[simp] theorem State.setLpe_courses (s : State) (n : Nat) (e : LpeState) : (s.setLpe n e).courses = s.courses := (rfl)
@[simp] theorem State.setLpe_tabs (s : State) (n : Nat) (e : LpeState) : (s.setLpe n e).tabs = s.tabs := (rfl)
@[simp] theorem State.setLpe_inflight (s : State) (n : Nat) (e : LpeState) : (s.setLpe n e).inflight = s.inflight := (rfl)
@[simp] theorem State.setLpe_dins (s : State) (n : Nat) (e : LpeState) : (s.setLpe n e).dins = s.dins := (rfl)
@[simp] theorem State.setLpe_fwl (s : State) (n : Nat) (e : LpeState) : (s.setLpe n e).fwl = s.fwl := (rfl)
@[simp] theorem State.setLpe_healths (s : State) (n : Nat) (e : LpeState) : (s.setLpe n e).healths = s.healths := (rfl)
@[simp] theorem State.setLpe_healthX (s : State) (n : Nat) (e : LpeState) : (s.setLpe n e).healthX = s.healthX := (rfl)
@[simp] theorem State.setLpe_img (s : State) (n : Nat) (e : LpeState) : (s.setLpe n e).img = s.img := (rfl)
@[simp] theorem State.setLpe_cox (s : State) (n : Nat) (e : LpeState) : (s.setLpe n e).cox = s.cox := (rfl)
@[simp] theorem State.setLpe_convs (s : State) (n : Nat) (e : LpeState) : (s.setLpe n e).convs = s.convs := (rfl)
@[simp] theorem State.setLpe_pairs (s : State) (n : Nat) (e : LpeState) : (s.setLpe n e).pairs = s.pairs := (rfl)
@[simp] theorem State.setLpe_owRun (s : State) (n : Nat) (e : LpeState) : (s.setLpe n e).owRun = s.owRun := (rfl)
@[simp] theorem State.setLpe_cal (s : State) (n : Nat) (e : LpeState) : (s.setLpe n e).cal = s.cal := (rfl)
@[simp] theorem State.setLpe_dma (s : State) (n : Nat) (e : LpeState) : (s.setLpe n e).dma = s.dma := (rfl)
@[simp] theorem State.setLpe_dmaLast (s : State) (n : Nat) (e : LpeState) : (s.setLpe n e).dmaLast = s.dmaLast := (rfl)
@[simp] theorem State.setLpe_rmv (s : State) (n : Nat) (e : LpeState) : (s.setLpe n e).rmv = s.rmv := (rfl)
@[simp] theorem State.setLpe_lsm (s : State) (n : Nat) (e : LpeState) : (s.setLpe n e).lsm = s.lsm := (rfl)
@[simp] theorem State.setLpe_mig (s : State) (n : Nat) (e : LpeState) : (s.setLpe n e).mig = s.mig := (rfl)
@[simp] theorem State.setLpe_owed (s : State) (n : Nat) (e : LpeState) : (s.setLpe n e).owed = s.owed := (rfl)
@[simp] theorem State.setLpe_axes (s : State) (n : Nat) (e : LpeState) : (s.setLpe n e).axes = s.axes := (rfl)
@[simp] theorem State.setLpe_motHeld (s : State) (n : Nat) (e : LpeState) : (s.setLpe n e).motHeld = s.motHeld := (rfl)
@[simp] theorem State.setLpe_encs (s : State) (n : Nat) (e : LpeState) : (s.setLpe n e).encs = s.encs := (rfl)
@[simp] theorem State.setLpe_rce (s : State) (n : Nat) (e : LpeState) : (s.setLpe n e).rce = s.rce := (rfl)
@[simp] theorem State.setLpe_seq (s : State) (n : Nat) (e : LpeState) : (s.setLpe n e).seq = s.seq := (rfl)
@[simp] theorem State.setLpe_clos (s : State) (n : Nat) (e : LpeState) : (s.setLpe n e).clos = s.clos := (rfl)
@[simp] theorem State.setLpe_vdrs (s : State) (n : Nat) (e : LpeState) : (s.setLpe n e).vdrs = s.vdrs := (rfl)
@[simp] theorem State.setLpe_pvm (s : State) (n : Nat) (e : LpeState) : (s.setLpe n e).pvm = s.pvm := (rfl)
@[simp] theorem State.setLpe_cyc (s : State) (n : Nat) (e : LpeState) : (s.setLpe n e).cyc = s.cyc := (rfl)
@[simp] theorem State.setLpe_iml (s : State) (n : Nat) (e : LpeState) : (s.setLpe n e).iml = s.iml := (rfl)
@[simp] theorem State.setLpe_cans (s : State) (n : Nat) (e : LpeState) : (s.setLpe n e).cans = s.cans := (rfl)
@[simp] theorem State.setLpe_eths (s : State) (n : Nat) (e : LpeState) : (s.setLpe n e).eths = s.eths := (rfl)
@[simp] theorem State.setLpe_prps (s : State) (n : Nat) (e : LpeState) : (s.setLpe n e).prps = s.prps := (rfl)
@[simp] theorem State.setLpe_rra (s : State) (n : Nat) (e : LpeState) : (s.setLpe n e).rra = s.rra := (rfl)
@[simp] theorem State.setLpe_plk (s : State) (n : Nat) (e : LpeState) : (s.setLpe n e).plk = s.plk := (rfl)
@[simp] theorem State.setLpe_vlt (s : State) (n : Nat) (e : LpeState) : (s.setLpe n e).vlt = s.vlt := (rfl)
@[simp] theorem State.setLpe_rpc (s : State) (n : Nat) (e : LpeState) : (s.setLpe n e).rpc = s.rpc := (rfl)

@[simp] theorem State.setLsm_pending (s : State) (n : Nat) (x : LsmState) : (s.setLsm n x).pending = s.pending := (rfl)
@[simp] theorem State.setLsm_regs (s : State) (n : Nat) (x : LsmState) : (s.setLsm n x).regs = s.regs := (rfl)
@[simp] theorem State.setLsm_mem (s : State) (n : Nat) (x : LsmState) : (s.setLsm n x).mem = s.mem := (rfl)
@[simp] theorem State.setLsm_fresh (s : State) (n : Nat) (x : LsmState) : (s.setLsm n x).fresh = s.fresh := (rfl)
@[simp] theorem State.setLsm_bus (s : State) (n : Nat) (x : LsmState) : (s.setLsm n x).bus = s.bus := (rfl)
@[simp] theorem State.setLsm_latch (s : State) (n : Nat) (x : LsmState) : (s.setLsm n x).latch = s.latch := (rfl)
@[simp] theorem State.setLsm_claimed (s : State) (n : Nat) (x : LsmState) : (s.setLsm n x).claimed = s.claimed := (rfl)
@[simp] theorem State.setLsm_wire (s : State) (n : Nat) (x : LsmState) : (s.setLsm n x).wire = s.wire := (rfl)
@[simp] theorem State.setLsm_evl (s : State) (n : Nat) (x : LsmState) : (s.setLsm n x).evl = s.evl := (rfl)
@[simp] theorem State.setLsm_time (s : State) (n : Nat) (x : LsmState) : (s.setLsm n x).time = s.time := (rfl)
@[simp] theorem State.setLsm_courses (s : State) (n : Nat) (x : LsmState) : (s.setLsm n x).courses = s.courses := (rfl)
@[simp] theorem State.setLsm_tabs (s : State) (n : Nat) (x : LsmState) : (s.setLsm n x).tabs = s.tabs := (rfl)
@[simp] theorem State.setLsm_inflight (s : State) (n : Nat) (x : LsmState) : (s.setLsm n x).inflight = s.inflight := (rfl)
@[simp] theorem State.setLsm_dins (s : State) (n : Nat) (x : LsmState) : (s.setLsm n x).dins = s.dins := (rfl)
@[simp] theorem State.setLsm_fwl (s : State) (n : Nat) (x : LsmState) : (s.setLsm n x).fwl = s.fwl := (rfl)
@[simp] theorem State.setLsm_healths (s : State) (n : Nat) (x : LsmState) : (s.setLsm n x).healths = s.healths := (rfl)
@[simp] theorem State.setLsm_healthX (s : State) (n : Nat) (x : LsmState) : (s.setLsm n x).healthX = s.healthX := (rfl)
@[simp] theorem State.setLsm_img (s : State) (n : Nat) (x : LsmState) : (s.setLsm n x).img = s.img := (rfl)
@[simp] theorem State.setLsm_cox (s : State) (n : Nat) (x : LsmState) : (s.setLsm n x).cox = s.cox := (rfl)
@[simp] theorem State.setLsm_convs (s : State) (n : Nat) (x : LsmState) : (s.setLsm n x).convs = s.convs := (rfl)
@[simp] theorem State.setLsm_pairs (s : State) (n : Nat) (x : LsmState) : (s.setLsm n x).pairs = s.pairs := (rfl)
@[simp] theorem State.setLsm_owRun (s : State) (n : Nat) (x : LsmState) : (s.setLsm n x).owRun = s.owRun := (rfl)
@[simp] theorem State.setLsm_cal (s : State) (n : Nat) (x : LsmState) : (s.setLsm n x).cal = s.cal := (rfl)
@[simp] theorem State.setLsm_dma (s : State) (n : Nat) (x : LsmState) : (s.setLsm n x).dma = s.dma := (rfl)
@[simp] theorem State.setLsm_dmaLast (s : State) (n : Nat) (x : LsmState) : (s.setLsm n x).dmaLast = s.dmaLast := (rfl)
@[simp] theorem State.setLsm_rmv (s : State) (n : Nat) (x : LsmState) : (s.setLsm n x).rmv = s.rmv := (rfl)
@[simp] theorem State.setLsm_lpe (s : State) (n : Nat) (x : LsmState) : (s.setLsm n x).lpe = s.lpe := (rfl)
@[simp] theorem State.setLsm_mig (s : State) (n : Nat) (x : LsmState) : (s.setLsm n x).mig = s.mig := (rfl)
@[simp] theorem State.setLsm_owed (s : State) (n : Nat) (x : LsmState) : (s.setLsm n x).owed = s.owed := (rfl)
@[simp] theorem State.setLsm_axes (s : State) (n : Nat) (x : LsmState) : (s.setLsm n x).axes = s.axes := (rfl)
@[simp] theorem State.setLsm_motHeld (s : State) (n : Nat) (x : LsmState) : (s.setLsm n x).motHeld = s.motHeld := (rfl)
@[simp] theorem State.setLsm_encs (s : State) (n : Nat) (x : LsmState) : (s.setLsm n x).encs = s.encs := (rfl)
@[simp] theorem State.setLsm_rce (s : State) (n : Nat) (x : LsmState) : (s.setLsm n x).rce = s.rce := (rfl)
@[simp] theorem State.setLsm_seq (s : State) (n : Nat) (x : LsmState) : (s.setLsm n x).seq = s.seq := (rfl)
@[simp] theorem State.setLsm_clos (s : State) (n : Nat) (x : LsmState) : (s.setLsm n x).clos = s.clos := (rfl)
@[simp] theorem State.setLsm_vdrs (s : State) (n : Nat) (x : LsmState) : (s.setLsm n x).vdrs = s.vdrs := (rfl)
@[simp] theorem State.setLsm_pvm (s : State) (n : Nat) (x : LsmState) : (s.setLsm n x).pvm = s.pvm := (rfl)
@[simp] theorem State.setLsm_cyc (s : State) (n : Nat) (x : LsmState) : (s.setLsm n x).cyc = s.cyc := (rfl)
@[simp] theorem State.setLsm_iml (s : State) (n : Nat) (x : LsmState) : (s.setLsm n x).iml = s.iml := (rfl)
@[simp] theorem State.setLsm_cans (s : State) (n : Nat) (x : LsmState) : (s.setLsm n x).cans = s.cans := (rfl)
@[simp] theorem State.setLsm_eths (s : State) (n : Nat) (x : LsmState) : (s.setLsm n x).eths = s.eths := (rfl)
@[simp] theorem State.setLsm_prps (s : State) (n : Nat) (x : LsmState) : (s.setLsm n x).prps = s.prps := (rfl)
@[simp] theorem State.setLsm_rra (s : State) (n : Nat) (x : LsmState) : (s.setLsm n x).rra = s.rra := (rfl)
@[simp] theorem State.setLsm_plk (s : State) (n : Nat) (x : LsmState) : (s.setLsm n x).plk = s.plk := (rfl)
@[simp] theorem State.setLsm_vlt (s : State) (n : Nat) (x : LsmState) : (s.setLsm n x).vlt = s.vlt := (rfl)
@[simp] theorem State.setLsm_rpc (s : State) (n : Nat) (x : LsmState) : (s.setLsm n x).rpc = s.rpc := (rfl)

@[simp] theorem State.setAxis_pending (s : State) (a : Nat) (x : Axis) : (s.setAxis a x).pending = s.pending := (rfl)
@[simp] theorem State.setAxis_regs (s : State) (a : Nat) (x : Axis) : (s.setAxis a x).regs = s.regs := (rfl)
@[simp] theorem State.setAxis_mem (s : State) (a : Nat) (x : Axis) : (s.setAxis a x).mem = s.mem := (rfl)
@[simp] theorem State.setAxis_fresh (s : State) (a : Nat) (x : Axis) : (s.setAxis a x).fresh = s.fresh := (rfl)
@[simp] theorem State.setAxis_bus (s : State) (a : Nat) (x : Axis) : (s.setAxis a x).bus = s.bus := (rfl)
@[simp] theorem State.setAxis_latch (s : State) (a : Nat) (x : Axis) : (s.setAxis a x).latch = s.latch := (rfl)
@[simp] theorem State.setAxis_claimed (s : State) (a : Nat) (x : Axis) : (s.setAxis a x).claimed = s.claimed := (rfl)
@[simp] theorem State.setAxis_wire (s : State) (a : Nat) (x : Axis) : (s.setAxis a x).wire = s.wire := (rfl)
@[simp] theorem State.setAxis_evl (s : State) (a : Nat) (x : Axis) : (s.setAxis a x).evl = s.evl := (rfl)
@[simp] theorem State.setAxis_time (s : State) (a : Nat) (x : Axis) : (s.setAxis a x).time = s.time := (rfl)
@[simp] theorem State.setAxis_courses (s : State) (a : Nat) (x : Axis) : (s.setAxis a x).courses = s.courses := (rfl)
@[simp] theorem State.setAxis_tabs (s : State) (a : Nat) (x : Axis) : (s.setAxis a x).tabs = s.tabs := (rfl)
@[simp] theorem State.setAxis_inflight (s : State) (a : Nat) (x : Axis) : (s.setAxis a x).inflight = s.inflight := (rfl)
@[simp] theorem State.setAxis_dins (s : State) (a : Nat) (x : Axis) : (s.setAxis a x).dins = s.dins := (rfl)
@[simp] theorem State.setAxis_fwl (s : State) (a : Nat) (x : Axis) : (s.setAxis a x).fwl = s.fwl := (rfl)
@[simp] theorem State.setAxis_healths (s : State) (a : Nat) (x : Axis) : (s.setAxis a x).healths = s.healths := (rfl)
@[simp] theorem State.setAxis_healthX (s : State) (a : Nat) (x : Axis) : (s.setAxis a x).healthX = s.healthX := (rfl)
@[simp] theorem State.setAxis_img (s : State) (a : Nat) (x : Axis) : (s.setAxis a x).img = s.img := (rfl)
@[simp] theorem State.setAxis_cox (s : State) (a : Nat) (x : Axis) : (s.setAxis a x).cox = s.cox := (rfl)
@[simp] theorem State.setAxis_convs (s : State) (a : Nat) (x : Axis) : (s.setAxis a x).convs = s.convs := (rfl)
@[simp] theorem State.setAxis_pairs (s : State) (a : Nat) (x : Axis) : (s.setAxis a x).pairs = s.pairs := (rfl)
@[simp] theorem State.setAxis_owRun (s : State) (a : Nat) (x : Axis) : (s.setAxis a x).owRun = s.owRun := (rfl)
@[simp] theorem State.setAxis_cal (s : State) (a : Nat) (x : Axis) : (s.setAxis a x).cal = s.cal := (rfl)
@[simp] theorem State.setAxis_dma (s : State) (a : Nat) (x : Axis) : (s.setAxis a x).dma = s.dma := (rfl)
@[simp] theorem State.setAxis_dmaLast (s : State) (a : Nat) (x : Axis) : (s.setAxis a x).dmaLast = s.dmaLast := (rfl)
@[simp] theorem State.setAxis_rmv (s : State) (a : Nat) (x : Axis) : (s.setAxis a x).rmv = s.rmv := (rfl)
@[simp] theorem State.setAxis_lpe (s : State) (a : Nat) (x : Axis) : (s.setAxis a x).lpe = s.lpe := (rfl)
@[simp] theorem State.setAxis_lsm (s : State) (a : Nat) (x : Axis) : (s.setAxis a x).lsm = s.lsm := (rfl)
@[simp] theorem State.setAxis_mig (s : State) (a : Nat) (x : Axis) : (s.setAxis a x).mig = s.mig := (rfl)
@[simp] theorem State.setAxis_owed (s : State) (a : Nat) (x : Axis) : (s.setAxis a x).owed = s.owed := (rfl)
@[simp] theorem State.setAxis_motHeld (s : State) (a : Nat) (x : Axis) : (s.setAxis a x).motHeld = s.motHeld := (rfl)
@[simp] theorem State.setAxis_encs (s : State) (a : Nat) (x : Axis) : (s.setAxis a x).encs = s.encs := (rfl)
@[simp] theorem State.setAxis_rce (s : State) (a : Nat) (x : Axis) : (s.setAxis a x).rce = s.rce := (rfl)
@[simp] theorem State.setAxis_seq (s : State) (a : Nat) (x : Axis) : (s.setAxis a x).seq = s.seq := (rfl)
@[simp] theorem State.setAxis_clos (s : State) (a : Nat) (x : Axis) : (s.setAxis a x).clos = s.clos := (rfl)
@[simp] theorem State.setAxis_vdrs (s : State) (a : Nat) (x : Axis) : (s.setAxis a x).vdrs = s.vdrs := (rfl)
@[simp] theorem State.setAxis_pvm (s : State) (a : Nat) (x : Axis) : (s.setAxis a x).pvm = s.pvm := (rfl)
@[simp] theorem State.setAxis_cyc (s : State) (a : Nat) (x : Axis) : (s.setAxis a x).cyc = s.cyc := (rfl)
@[simp] theorem State.setAxis_iml (s : State) (a : Nat) (x : Axis) : (s.setAxis a x).iml = s.iml := (rfl)
@[simp] theorem State.setAxis_cans (s : State) (a : Nat) (x : Axis) : (s.setAxis a x).cans = s.cans := (rfl)
@[simp] theorem State.setAxis_eths (s : State) (a : Nat) (x : Axis) : (s.setAxis a x).eths = s.eths := (rfl)
@[simp] theorem State.setAxis_prps (s : State) (a : Nat) (x : Axis) : (s.setAxis a x).prps = s.prps := (rfl)
@[simp] theorem State.setAxis_rra (s : State) (a : Nat) (x : Axis) : (s.setAxis a x).rra = s.rra := (rfl)
@[simp] theorem State.setAxis_plk (s : State) (a : Nat) (x : Axis) : (s.setAxis a x).plk = s.plk := (rfl)
@[simp] theorem State.setAxis_vlt (s : State) (a : Nat) (x : Axis) : (s.setAxis a x).vlt = s.vlt := (rfl)
@[simp] theorem State.setAxis_rpc (s : State) (a : Nat) (x : Axis) : (s.setAxis a x).rpc = s.rpc := (rfl)

@[simp] theorem State.setEnc_pending (s : State) (g : Nat) (e : Enc) : (s.setEnc g e).pending = s.pending := (rfl)
@[simp] theorem State.setEnc_regs (s : State) (g : Nat) (e : Enc) : (s.setEnc g e).regs = s.regs := (rfl)
@[simp] theorem State.setEnc_mem (s : State) (g : Nat) (e : Enc) : (s.setEnc g e).mem = s.mem := (rfl)
@[simp] theorem State.setEnc_fresh (s : State) (g : Nat) (e : Enc) : (s.setEnc g e).fresh = s.fresh := (rfl)
@[simp] theorem State.setEnc_bus (s : State) (g : Nat) (e : Enc) : (s.setEnc g e).bus = s.bus := (rfl)
@[simp] theorem State.setEnc_latch (s : State) (g : Nat) (e : Enc) : (s.setEnc g e).latch = s.latch := (rfl)
@[simp] theorem State.setEnc_claimed (s : State) (g : Nat) (e : Enc) : (s.setEnc g e).claimed = s.claimed := (rfl)
@[simp] theorem State.setEnc_wire (s : State) (g : Nat) (e : Enc) : (s.setEnc g e).wire = s.wire := (rfl)
@[simp] theorem State.setEnc_evl (s : State) (g : Nat) (e : Enc) : (s.setEnc g e).evl = s.evl := (rfl)
@[simp] theorem State.setEnc_time (s : State) (g : Nat) (e : Enc) : (s.setEnc g e).time = s.time := (rfl)
@[simp] theorem State.setEnc_courses (s : State) (g : Nat) (e : Enc) : (s.setEnc g e).courses = s.courses := (rfl)
@[simp] theorem State.setEnc_tabs (s : State) (g : Nat) (e : Enc) : (s.setEnc g e).tabs = s.tabs := (rfl)
@[simp] theorem State.setEnc_inflight (s : State) (g : Nat) (e : Enc) : (s.setEnc g e).inflight = s.inflight := (rfl)
@[simp] theorem State.setEnc_dins (s : State) (g : Nat) (e : Enc) : (s.setEnc g e).dins = s.dins := (rfl)
@[simp] theorem State.setEnc_fwl (s : State) (g : Nat) (e : Enc) : (s.setEnc g e).fwl = s.fwl := (rfl)
@[simp] theorem State.setEnc_healths (s : State) (g : Nat) (e : Enc) : (s.setEnc g e).healths = s.healths := (rfl)
@[simp] theorem State.setEnc_healthX (s : State) (g : Nat) (e : Enc) : (s.setEnc g e).healthX = s.healthX := (rfl)
@[simp] theorem State.setEnc_img (s : State) (g : Nat) (e : Enc) : (s.setEnc g e).img = s.img := (rfl)
@[simp] theorem State.setEnc_cox (s : State) (g : Nat) (e : Enc) : (s.setEnc g e).cox = s.cox := (rfl)
@[simp] theorem State.setEnc_convs (s : State) (g : Nat) (e : Enc) : (s.setEnc g e).convs = s.convs := (rfl)
@[simp] theorem State.setEnc_pairs (s : State) (g : Nat) (e : Enc) : (s.setEnc g e).pairs = s.pairs := (rfl)
@[simp] theorem State.setEnc_owRun (s : State) (g : Nat) (e : Enc) : (s.setEnc g e).owRun = s.owRun := (rfl)
@[simp] theorem State.setEnc_cal (s : State) (g : Nat) (e : Enc) : (s.setEnc g e).cal = s.cal := (rfl)
@[simp] theorem State.setEnc_dma (s : State) (g : Nat) (e : Enc) : (s.setEnc g e).dma = s.dma := (rfl)
@[simp] theorem State.setEnc_dmaLast (s : State) (g : Nat) (e : Enc) : (s.setEnc g e).dmaLast = s.dmaLast := (rfl)
@[simp] theorem State.setEnc_rmv (s : State) (g : Nat) (e : Enc) : (s.setEnc g e).rmv = s.rmv := (rfl)
@[simp] theorem State.setEnc_lpe (s : State) (g : Nat) (e : Enc) : (s.setEnc g e).lpe = s.lpe := (rfl)
@[simp] theorem State.setEnc_lsm (s : State) (g : Nat) (e : Enc) : (s.setEnc g e).lsm = s.lsm := (rfl)
@[simp] theorem State.setEnc_mig (s : State) (g : Nat) (e : Enc) : (s.setEnc g e).mig = s.mig := (rfl)
@[simp] theorem State.setEnc_owed (s : State) (g : Nat) (e : Enc) : (s.setEnc g e).owed = s.owed := (rfl)
@[simp] theorem State.setEnc_axes (s : State) (g : Nat) (e : Enc) : (s.setEnc g e).axes = s.axes := (rfl)
@[simp] theorem State.setEnc_motHeld (s : State) (g : Nat) (e : Enc) : (s.setEnc g e).motHeld = s.motHeld := (rfl)
@[simp] theorem State.setEnc_rce (s : State) (g : Nat) (e : Enc) : (s.setEnc g e).rce = s.rce := (rfl)
@[simp] theorem State.setEnc_seq (s : State) (g : Nat) (e : Enc) : (s.setEnc g e).seq = s.seq := (rfl)
@[simp] theorem State.setEnc_clos (s : State) (g : Nat) (e : Enc) : (s.setEnc g e).clos = s.clos := (rfl)
@[simp] theorem State.setEnc_vdrs (s : State) (g : Nat) (e : Enc) : (s.setEnc g e).vdrs = s.vdrs := (rfl)
@[simp] theorem State.setEnc_pvm (s : State) (g : Nat) (e : Enc) : (s.setEnc g e).pvm = s.pvm := (rfl)
@[simp] theorem State.setEnc_cyc (s : State) (g : Nat) (e : Enc) : (s.setEnc g e).cyc = s.cyc := (rfl)
@[simp] theorem State.setEnc_iml (s : State) (g : Nat) (e : Enc) : (s.setEnc g e).iml = s.iml := (rfl)
@[simp] theorem State.setEnc_cans (s : State) (g : Nat) (e : Enc) : (s.setEnc g e).cans = s.cans := (rfl)
@[simp] theorem State.setEnc_eths (s : State) (g : Nat) (e : Enc) : (s.setEnc g e).eths = s.eths := (rfl)
@[simp] theorem State.setEnc_prps (s : State) (g : Nat) (e : Enc) : (s.setEnc g e).prps = s.prps := (rfl)
@[simp] theorem State.setEnc_rra (s : State) (g : Nat) (e : Enc) : (s.setEnc g e).rra = s.rra := (rfl)
@[simp] theorem State.setEnc_plk (s : State) (g : Nat) (e : Enc) : (s.setEnc g e).plk = s.plk := (rfl)
@[simp] theorem State.setEnc_vlt (s : State) (g : Nat) (e : Enc) : (s.setEnc g e).vlt = s.vlt := (rfl)
@[simp] theorem State.setEnc_rpc (s : State) (g : Nat) (e : Enc) : (s.setEnc g e).rpc = s.rpc := (rfl)

@[simp] theorem State.setRce_pending (s : State) (r : RecState) : (s.setRce r).pending = s.pending := (rfl)
@[simp] theorem State.setRce_regs (s : State) (r : RecState) : (s.setRce r).regs = s.regs := (rfl)
@[simp] theorem State.setRce_mem (s : State) (r : RecState) : (s.setRce r).mem = s.mem := (rfl)
@[simp] theorem State.setRce_fresh (s : State) (r : RecState) : (s.setRce r).fresh = s.fresh := (rfl)
@[simp] theorem State.setRce_bus (s : State) (r : RecState) : (s.setRce r).bus = s.bus := (rfl)
@[simp] theorem State.setRce_latch (s : State) (r : RecState) : (s.setRce r).latch = s.latch := (rfl)
@[simp] theorem State.setRce_claimed (s : State) (r : RecState) : (s.setRce r).claimed = s.claimed := (rfl)
@[simp] theorem State.setRce_wire (s : State) (r : RecState) : (s.setRce r).wire = s.wire := (rfl)
@[simp] theorem State.setRce_evl (s : State) (r : RecState) : (s.setRce r).evl = s.evl := (rfl)
@[simp] theorem State.setRce_time (s : State) (r : RecState) : (s.setRce r).time = s.time := (rfl)
@[simp] theorem State.setRce_courses (s : State) (r : RecState) : (s.setRce r).courses = s.courses := (rfl)
@[simp] theorem State.setRce_tabs (s : State) (r : RecState) : (s.setRce r).tabs = s.tabs := (rfl)
@[simp] theorem State.setRce_inflight (s : State) (r : RecState) : (s.setRce r).inflight = s.inflight := (rfl)
@[simp] theorem State.setRce_dins (s : State) (r : RecState) : (s.setRce r).dins = s.dins := (rfl)
@[simp] theorem State.setRce_fwl (s : State) (r : RecState) : (s.setRce r).fwl = s.fwl := (rfl)
@[simp] theorem State.setRce_healths (s : State) (r : RecState) : (s.setRce r).healths = s.healths := (rfl)
@[simp] theorem State.setRce_healthX (s : State) (r : RecState) : (s.setRce r).healthX = s.healthX := (rfl)
@[simp] theorem State.setRce_img (s : State) (r : RecState) : (s.setRce r).img = s.img := (rfl)
@[simp] theorem State.setRce_cox (s : State) (r : RecState) : (s.setRce r).cox = s.cox := (rfl)
@[simp] theorem State.setRce_convs (s : State) (r : RecState) : (s.setRce r).convs = s.convs := (rfl)
@[simp] theorem State.setRce_pairs (s : State) (r : RecState) : (s.setRce r).pairs = s.pairs := (rfl)
@[simp] theorem State.setRce_owRun (s : State) (r : RecState) : (s.setRce r).owRun = s.owRun := (rfl)
@[simp] theorem State.setRce_cal (s : State) (r : RecState) : (s.setRce r).cal = s.cal := (rfl)
@[simp] theorem State.setRce_dma (s : State) (r : RecState) : (s.setRce r).dma = s.dma := (rfl)
@[simp] theorem State.setRce_dmaLast (s : State) (r : RecState) : (s.setRce r).dmaLast = s.dmaLast := (rfl)
@[simp] theorem State.setRce_rmv (s : State) (r : RecState) : (s.setRce r).rmv = s.rmv := (rfl)
@[simp] theorem State.setRce_lpe (s : State) (r : RecState) : (s.setRce r).lpe = s.lpe := (rfl)
@[simp] theorem State.setRce_lsm (s : State) (r : RecState) : (s.setRce r).lsm = s.lsm := (rfl)
@[simp] theorem State.setRce_mig (s : State) (r : RecState) : (s.setRce r).mig = s.mig := (rfl)
@[simp] theorem State.setRce_owed (s : State) (r : RecState) : (s.setRce r).owed = s.owed := (rfl)
@[simp] theorem State.setRce_axes (s : State) (r : RecState) : (s.setRce r).axes = s.axes := (rfl)
@[simp] theorem State.setRce_motHeld (s : State) (r : RecState) : (s.setRce r).motHeld = s.motHeld := (rfl)
@[simp] theorem State.setRce_encs (s : State) (r : RecState) : (s.setRce r).encs = s.encs := (rfl)
@[simp] theorem State.setRce_seq (s : State) (r : RecState) : (s.setRce r).seq = s.seq := (rfl)
@[simp] theorem State.setRce_clos (s : State) (r : RecState) : (s.setRce r).clos = s.clos := (rfl)
@[simp] theorem State.setRce_vdrs (s : State) (r : RecState) : (s.setRce r).vdrs = s.vdrs := (rfl)
@[simp] theorem State.setRce_pvm (s : State) (r : RecState) : (s.setRce r).pvm = s.pvm := (rfl)
@[simp] theorem State.setRce_cyc (s : State) (r : RecState) : (s.setRce r).cyc = s.cyc := (rfl)
@[simp] theorem State.setRce_iml (s : State) (r : RecState) : (s.setRce r).iml = s.iml := (rfl)
@[simp] theorem State.setRce_cans (s : State) (r : RecState) : (s.setRce r).cans = s.cans := (rfl)
@[simp] theorem State.setRce_eths (s : State) (r : RecState) : (s.setRce r).eths = s.eths := (rfl)
@[simp] theorem State.setRce_prps (s : State) (r : RecState) : (s.setRce r).prps = s.prps := (rfl)
@[simp] theorem State.setRce_rra (s : State) (r : RecState) : (s.setRce r).rra = s.rra := (rfl)
@[simp] theorem State.setRce_plk (s : State) (r : RecState) : (s.setRce r).plk = s.plk := (rfl)
@[simp] theorem State.setRce_vlt (s : State) (r : RecState) : (s.setRce r).vlt = s.vlt := (rfl)
@[simp] theorem State.setRce_rpc (s : State) (r : RecState) : (s.setRce r).rpc = s.rpc := (rfl)
@[simp] theorem State.setRce_rce (s : State) (r : RecState) : (s.setRce r).rce = r := (rfl)

@[simp] theorem State.setSeq_pending (s : State) (q : SeqState) : (s.setSeq q).pending = s.pending := (rfl)
@[simp] theorem State.setSeq_regs (s : State) (q : SeqState) : (s.setSeq q).regs = s.regs := (rfl)
@[simp] theorem State.setSeq_mem (s : State) (q : SeqState) : (s.setSeq q).mem = s.mem := (rfl)
@[simp] theorem State.setSeq_fresh (s : State) (q : SeqState) : (s.setSeq q).fresh = s.fresh := (rfl)
@[simp] theorem State.setSeq_bus (s : State) (q : SeqState) : (s.setSeq q).bus = s.bus := (rfl)
@[simp] theorem State.setSeq_latch (s : State) (q : SeqState) : (s.setSeq q).latch = s.latch := (rfl)
@[simp] theorem State.setSeq_claimed (s : State) (q : SeqState) : (s.setSeq q).claimed = s.claimed := (rfl)
@[simp] theorem State.setSeq_wire (s : State) (q : SeqState) : (s.setSeq q).wire = s.wire := (rfl)
@[simp] theorem State.setSeq_evl (s : State) (q : SeqState) : (s.setSeq q).evl = s.evl := (rfl)
@[simp] theorem State.setSeq_time (s : State) (q : SeqState) : (s.setSeq q).time = s.time := (rfl)
@[simp] theorem State.setSeq_courses (s : State) (q : SeqState) : (s.setSeq q).courses = s.courses := (rfl)
@[simp] theorem State.setSeq_tabs (s : State) (q : SeqState) : (s.setSeq q).tabs = s.tabs := (rfl)
@[simp] theorem State.setSeq_inflight (s : State) (q : SeqState) : (s.setSeq q).inflight = s.inflight := (rfl)
@[simp] theorem State.setSeq_dins (s : State) (q : SeqState) : (s.setSeq q).dins = s.dins := (rfl)
@[simp] theorem State.setSeq_fwl (s : State) (q : SeqState) : (s.setSeq q).fwl = s.fwl := (rfl)
@[simp] theorem State.setSeq_healths (s : State) (q : SeqState) : (s.setSeq q).healths = s.healths := (rfl)
@[simp] theorem State.setSeq_healthX (s : State) (q : SeqState) : (s.setSeq q).healthX = s.healthX := (rfl)
@[simp] theorem State.setSeq_img (s : State) (q : SeqState) : (s.setSeq q).img = s.img := (rfl)
@[simp] theorem State.setSeq_cox (s : State) (q : SeqState) : (s.setSeq q).cox = s.cox := (rfl)
@[simp] theorem State.setSeq_convs (s : State) (q : SeqState) : (s.setSeq q).convs = s.convs := (rfl)
@[simp] theorem State.setSeq_pairs (s : State) (q : SeqState) : (s.setSeq q).pairs = s.pairs := (rfl)
@[simp] theorem State.setSeq_owRun (s : State) (q : SeqState) : (s.setSeq q).owRun = s.owRun := (rfl)
@[simp] theorem State.setSeq_cal (s : State) (q : SeqState) : (s.setSeq q).cal = s.cal := (rfl)
@[simp] theorem State.setSeq_dma (s : State) (q : SeqState) : (s.setSeq q).dma = s.dma := (rfl)
@[simp] theorem State.setSeq_dmaLast (s : State) (q : SeqState) : (s.setSeq q).dmaLast = s.dmaLast := (rfl)
@[simp] theorem State.setSeq_rmv (s : State) (q : SeqState) : (s.setSeq q).rmv = s.rmv := (rfl)
@[simp] theorem State.setSeq_lpe (s : State) (q : SeqState) : (s.setSeq q).lpe = s.lpe := (rfl)
@[simp] theorem State.setSeq_lsm (s : State) (q : SeqState) : (s.setSeq q).lsm = s.lsm := (rfl)
@[simp] theorem State.setSeq_mig (s : State) (q : SeqState) : (s.setSeq q).mig = s.mig := (rfl)
@[simp] theorem State.setSeq_owed (s : State) (q : SeqState) : (s.setSeq q).owed = s.owed := (rfl)
@[simp] theorem State.setSeq_axes (s : State) (q : SeqState) : (s.setSeq q).axes = s.axes := (rfl)
@[simp] theorem State.setSeq_motHeld (s : State) (q : SeqState) : (s.setSeq q).motHeld = s.motHeld := (rfl)
@[simp] theorem State.setSeq_encs (s : State) (q : SeqState) : (s.setSeq q).encs = s.encs := (rfl)
@[simp] theorem State.setSeq_rce (s : State) (q : SeqState) : (s.setSeq q).rce = s.rce := (rfl)
@[simp] theorem State.setSeq_clos (s : State) (q : SeqState) : (s.setSeq q).clos = s.clos := (rfl)
@[simp] theorem State.setSeq_vdrs (s : State) (q : SeqState) : (s.setSeq q).vdrs = s.vdrs := (rfl)
@[simp] theorem State.setSeq_pvm (s : State) (q : SeqState) : (s.setSeq q).pvm = s.pvm := (rfl)
@[simp] theorem State.setSeq_cyc (s : State) (q : SeqState) : (s.setSeq q).cyc = s.cyc := (rfl)
@[simp] theorem State.setSeq_iml (s : State) (q : SeqState) : (s.setSeq q).iml = s.iml := (rfl)
@[simp] theorem State.setSeq_cans (s : State) (q : SeqState) : (s.setSeq q).cans = s.cans := (rfl)
@[simp] theorem State.setSeq_eths (s : State) (q : SeqState) : (s.setSeq q).eths = s.eths := (rfl)
@[simp] theorem State.setSeq_prps (s : State) (q : SeqState) : (s.setSeq q).prps = s.prps := (rfl)
@[simp] theorem State.setSeq_rra (s : State) (q : SeqState) : (s.setSeq q).rra = s.rra := (rfl)
@[simp] theorem State.setSeq_plk (s : State) (q : SeqState) : (s.setSeq q).plk = s.plk := (rfl)
@[simp] theorem State.setSeq_vlt (s : State) (q : SeqState) : (s.setSeq q).vlt = s.vlt := (rfl)
@[simp] theorem State.setSeq_rpc (s : State) (q : SeqState) : (s.setSeq q).rpc = s.rpc := (rfl)
@[simp] theorem State.setSeq_seq (s : State) (q : SeqState) : (s.setSeq q).seq = q := (rfl)

@[simp] theorem State.setClo_pending (s : State) (n : Nat) (c : Clo) : (s.setClo n c).pending = s.pending := (rfl)
@[simp] theorem State.setClo_regs (s : State) (n : Nat) (c : Clo) : (s.setClo n c).regs = s.regs := (rfl)
@[simp] theorem State.setClo_mem (s : State) (n : Nat) (c : Clo) : (s.setClo n c).mem = s.mem := (rfl)
@[simp] theorem State.setClo_fresh (s : State) (n : Nat) (c : Clo) : (s.setClo n c).fresh = s.fresh := (rfl)
@[simp] theorem State.setClo_bus (s : State) (n : Nat) (c : Clo) : (s.setClo n c).bus = s.bus := (rfl)
@[simp] theorem State.setClo_latch (s : State) (n : Nat) (c : Clo) : (s.setClo n c).latch = s.latch := (rfl)
@[simp] theorem State.setClo_claimed (s : State) (n : Nat) (c : Clo) : (s.setClo n c).claimed = s.claimed := (rfl)
@[simp] theorem State.setClo_wire (s : State) (n : Nat) (c : Clo) : (s.setClo n c).wire = s.wire := (rfl)
@[simp] theorem State.setClo_evl (s : State) (n : Nat) (c : Clo) : (s.setClo n c).evl = s.evl := (rfl)
@[simp] theorem State.setClo_time (s : State) (n : Nat) (c : Clo) : (s.setClo n c).time = s.time := (rfl)
@[simp] theorem State.setClo_courses (s : State) (n : Nat) (c : Clo) : (s.setClo n c).courses = s.courses := (rfl)
@[simp] theorem State.setClo_tabs (s : State) (n : Nat) (c : Clo) : (s.setClo n c).tabs = s.tabs := (rfl)
@[simp] theorem State.setClo_inflight (s : State) (n : Nat) (c : Clo) : (s.setClo n c).inflight = s.inflight := (rfl)
@[simp] theorem State.setClo_dins (s : State) (n : Nat) (c : Clo) : (s.setClo n c).dins = s.dins := (rfl)
@[simp] theorem State.setClo_fwl (s : State) (n : Nat) (c : Clo) : (s.setClo n c).fwl = s.fwl := (rfl)
@[simp] theorem State.setClo_healths (s : State) (n : Nat) (c : Clo) : (s.setClo n c).healths = s.healths := (rfl)
@[simp] theorem State.setClo_healthX (s : State) (n : Nat) (c : Clo) : (s.setClo n c).healthX = s.healthX := (rfl)
@[simp] theorem State.setClo_img (s : State) (n : Nat) (c : Clo) : (s.setClo n c).img = s.img := (rfl)
@[simp] theorem State.setClo_cox (s : State) (n : Nat) (c : Clo) : (s.setClo n c).cox = s.cox := (rfl)
@[simp] theorem State.setClo_convs (s : State) (n : Nat) (c : Clo) : (s.setClo n c).convs = s.convs := (rfl)
@[simp] theorem State.setClo_pairs (s : State) (n : Nat) (c : Clo) : (s.setClo n c).pairs = s.pairs := (rfl)
@[simp] theorem State.setClo_owRun (s : State) (n : Nat) (c : Clo) : (s.setClo n c).owRun = s.owRun := (rfl)
@[simp] theorem State.setClo_cal (s : State) (n : Nat) (c : Clo) : (s.setClo n c).cal = s.cal := (rfl)
@[simp] theorem State.setClo_dma (s : State) (n : Nat) (c : Clo) : (s.setClo n c).dma = s.dma := (rfl)
@[simp] theorem State.setClo_dmaLast (s : State) (n : Nat) (c : Clo) : (s.setClo n c).dmaLast = s.dmaLast := (rfl)
@[simp] theorem State.setClo_rmv (s : State) (n : Nat) (c : Clo) : (s.setClo n c).rmv = s.rmv := (rfl)
@[simp] theorem State.setClo_lpe (s : State) (n : Nat) (c : Clo) : (s.setClo n c).lpe = s.lpe := (rfl)
@[simp] theorem State.setClo_lsm (s : State) (n : Nat) (c : Clo) : (s.setClo n c).lsm = s.lsm := (rfl)
@[simp] theorem State.setClo_mig (s : State) (n : Nat) (c : Clo) : (s.setClo n c).mig = s.mig := (rfl)
@[simp] theorem State.setClo_owed (s : State) (n : Nat) (c : Clo) : (s.setClo n c).owed = s.owed := (rfl)
@[simp] theorem State.setClo_axes (s : State) (n : Nat) (c : Clo) : (s.setClo n c).axes = s.axes := (rfl)
@[simp] theorem State.setClo_motHeld (s : State) (n : Nat) (c : Clo) : (s.setClo n c).motHeld = s.motHeld := (rfl)
@[simp] theorem State.setClo_encs (s : State) (n : Nat) (c : Clo) : (s.setClo n c).encs = s.encs := (rfl)
@[simp] theorem State.setClo_rce (s : State) (n : Nat) (c : Clo) : (s.setClo n c).rce = s.rce := (rfl)
@[simp] theorem State.setClo_seq (s : State) (n : Nat) (c : Clo) : (s.setClo n c).seq = s.seq := (rfl)
@[simp] theorem State.setClo_vdrs (s : State) (n : Nat) (c : Clo) : (s.setClo n c).vdrs = s.vdrs := (rfl)
@[simp] theorem State.setClo_pvm (s : State) (n : Nat) (c : Clo) : (s.setClo n c).pvm = s.pvm := (rfl)
@[simp] theorem State.setClo_cyc (s : State) (n : Nat) (c : Clo) : (s.setClo n c).cyc = s.cyc := (rfl)
@[simp] theorem State.setClo_iml (s : State) (n : Nat) (c : Clo) : (s.setClo n c).iml = s.iml := (rfl)
@[simp] theorem State.setClo_cans (s : State) (n : Nat) (c : Clo) : (s.setClo n c).cans = s.cans := (rfl)
@[simp] theorem State.setClo_eths (s : State) (n : Nat) (c : Clo) : (s.setClo n c).eths = s.eths := (rfl)
@[simp] theorem State.setClo_prps (s : State) (n : Nat) (c : Clo) : (s.setClo n c).prps = s.prps := (rfl)
@[simp] theorem State.setClo_rra (s : State) (n : Nat) (c : Clo) : (s.setClo n c).rra = s.rra := (rfl)
@[simp] theorem State.setClo_plk (s : State) (n : Nat) (c : Clo) : (s.setClo n c).plk = s.plk := (rfl)
@[simp] theorem State.setClo_vlt (s : State) (n : Nat) (c : Clo) : (s.setClo n c).vlt = s.vlt := (rfl)
@[simp] theorem State.setClo_rpc (s : State) (n : Nat) (c : Clo) : (s.setClo n c).rpc = s.rpc := (rfl)

@[simp] theorem State.setVdr_pending (s : State) (n : Nat) (v : Vdr) : (s.setVdr n v).pending = s.pending := (rfl)
@[simp] theorem State.setVdr_regs (s : State) (n : Nat) (v : Vdr) : (s.setVdr n v).regs = s.regs := (rfl)
@[simp] theorem State.setVdr_mem (s : State) (n : Nat) (v : Vdr) : (s.setVdr n v).mem = s.mem := (rfl)
@[simp] theorem State.setVdr_fresh (s : State) (n : Nat) (v : Vdr) : (s.setVdr n v).fresh = s.fresh := (rfl)
@[simp] theorem State.setVdr_bus (s : State) (n : Nat) (v : Vdr) : (s.setVdr n v).bus = s.bus := (rfl)
@[simp] theorem State.setVdr_latch (s : State) (n : Nat) (v : Vdr) : (s.setVdr n v).latch = s.latch := (rfl)
@[simp] theorem State.setVdr_claimed (s : State) (n : Nat) (v : Vdr) : (s.setVdr n v).claimed = s.claimed := (rfl)
@[simp] theorem State.setVdr_wire (s : State) (n : Nat) (v : Vdr) : (s.setVdr n v).wire = s.wire := (rfl)
@[simp] theorem State.setVdr_evl (s : State) (n : Nat) (v : Vdr) : (s.setVdr n v).evl = s.evl := (rfl)
@[simp] theorem State.setVdr_time (s : State) (n : Nat) (v : Vdr) : (s.setVdr n v).time = s.time := (rfl)
@[simp] theorem State.setVdr_courses (s : State) (n : Nat) (v : Vdr) : (s.setVdr n v).courses = s.courses := (rfl)
@[simp] theorem State.setVdr_tabs (s : State) (n : Nat) (v : Vdr) : (s.setVdr n v).tabs = s.tabs := (rfl)
@[simp] theorem State.setVdr_inflight (s : State) (n : Nat) (v : Vdr) : (s.setVdr n v).inflight = s.inflight := (rfl)
@[simp] theorem State.setVdr_dins (s : State) (n : Nat) (v : Vdr) : (s.setVdr n v).dins = s.dins := (rfl)
@[simp] theorem State.setVdr_fwl (s : State) (n : Nat) (v : Vdr) : (s.setVdr n v).fwl = s.fwl := (rfl)
@[simp] theorem State.setVdr_healths (s : State) (n : Nat) (v : Vdr) : (s.setVdr n v).healths = s.healths := (rfl)
@[simp] theorem State.setVdr_healthX (s : State) (n : Nat) (v : Vdr) : (s.setVdr n v).healthX = s.healthX := (rfl)
@[simp] theorem State.setVdr_img (s : State) (n : Nat) (v : Vdr) : (s.setVdr n v).img = s.img := (rfl)
@[simp] theorem State.setVdr_cox (s : State) (n : Nat) (v : Vdr) : (s.setVdr n v).cox = s.cox := (rfl)
@[simp] theorem State.setVdr_convs (s : State) (n : Nat) (v : Vdr) : (s.setVdr n v).convs = s.convs := (rfl)
@[simp] theorem State.setVdr_pairs (s : State) (n : Nat) (v : Vdr) : (s.setVdr n v).pairs = s.pairs := (rfl)
@[simp] theorem State.setVdr_owRun (s : State) (n : Nat) (v : Vdr) : (s.setVdr n v).owRun = s.owRun := (rfl)
@[simp] theorem State.setVdr_cal (s : State) (n : Nat) (v : Vdr) : (s.setVdr n v).cal = s.cal := (rfl)
@[simp] theorem State.setVdr_dma (s : State) (n : Nat) (v : Vdr) : (s.setVdr n v).dma = s.dma := (rfl)
@[simp] theorem State.setVdr_dmaLast (s : State) (n : Nat) (v : Vdr) : (s.setVdr n v).dmaLast = s.dmaLast := (rfl)
@[simp] theorem State.setVdr_rmv (s : State) (n : Nat) (v : Vdr) : (s.setVdr n v).rmv = s.rmv := (rfl)
@[simp] theorem State.setVdr_lpe (s : State) (n : Nat) (v : Vdr) : (s.setVdr n v).lpe = s.lpe := (rfl)
@[simp] theorem State.setVdr_lsm (s : State) (n : Nat) (v : Vdr) : (s.setVdr n v).lsm = s.lsm := (rfl)
@[simp] theorem State.setVdr_mig (s : State) (n : Nat) (v : Vdr) : (s.setVdr n v).mig = s.mig := (rfl)
@[simp] theorem State.setVdr_owed (s : State) (n : Nat) (v : Vdr) : (s.setVdr n v).owed = s.owed := (rfl)
@[simp] theorem State.setVdr_axes (s : State) (n : Nat) (v : Vdr) : (s.setVdr n v).axes = s.axes := (rfl)
@[simp] theorem State.setVdr_motHeld (s : State) (n : Nat) (v : Vdr) : (s.setVdr n v).motHeld = s.motHeld := (rfl)
@[simp] theorem State.setVdr_encs (s : State) (n : Nat) (v : Vdr) : (s.setVdr n v).encs = s.encs := (rfl)
@[simp] theorem State.setVdr_rce (s : State) (n : Nat) (v : Vdr) : (s.setVdr n v).rce = s.rce := (rfl)
@[simp] theorem State.setVdr_seq (s : State) (n : Nat) (v : Vdr) : (s.setVdr n v).seq = s.seq := (rfl)
@[simp] theorem State.setVdr_clos (s : State) (n : Nat) (v : Vdr) : (s.setVdr n v).clos = s.clos := (rfl)
@[simp] theorem State.setVdr_pvm (s : State) (n : Nat) (v : Vdr) : (s.setVdr n v).pvm = s.pvm := (rfl)
@[simp] theorem State.setVdr_cyc (s : State) (n : Nat) (v : Vdr) : (s.setVdr n v).cyc = s.cyc := (rfl)
@[simp] theorem State.setVdr_iml (s : State) (n : Nat) (v : Vdr) : (s.setVdr n v).iml = s.iml := (rfl)
@[simp] theorem State.setVdr_cans (s : State) (n : Nat) (v : Vdr) : (s.setVdr n v).cans = s.cans := (rfl)
@[simp] theorem State.setVdr_eths (s : State) (n : Nat) (v : Vdr) : (s.setVdr n v).eths = s.eths := (rfl)
@[simp] theorem State.setVdr_prps (s : State) (n : Nat) (v : Vdr) : (s.setVdr n v).prps = s.prps := (rfl)
@[simp] theorem State.setVdr_rra (s : State) (n : Nat) (v : Vdr) : (s.setVdr n v).rra = s.rra := (rfl)
@[simp] theorem State.setVdr_plk (s : State) (n : Nat) (v : Vdr) : (s.setVdr n v).plk = s.plk := (rfl)
@[simp] theorem State.setVdr_vlt (s : State) (n : Nat) (v : Vdr) : (s.setVdr n v).vlt = s.vlt := (rfl)
@[simp] theorem State.setVdr_rpc (s : State) (n : Nat) (v : Vdr) : (s.setVdr n v).rpc = s.rpc := (rfl)

@[simp] theorem State.setPvm_pending (s : State) (p : PvmState) : (s.setPvm p).pending = s.pending := (rfl)
@[simp] theorem State.setPvm_regs (s : State) (p : PvmState) : (s.setPvm p).regs = s.regs := (rfl)
@[simp] theorem State.setPvm_mem (s : State) (p : PvmState) : (s.setPvm p).mem = s.mem := (rfl)
@[simp] theorem State.setPvm_fresh (s : State) (p : PvmState) : (s.setPvm p).fresh = s.fresh := (rfl)
@[simp] theorem State.setPvm_bus (s : State) (p : PvmState) : (s.setPvm p).bus = s.bus := (rfl)
@[simp] theorem State.setPvm_latch (s : State) (p : PvmState) : (s.setPvm p).latch = s.latch := (rfl)
@[simp] theorem State.setPvm_claimed (s : State) (p : PvmState) : (s.setPvm p).claimed = s.claimed := (rfl)
@[simp] theorem State.setPvm_wire (s : State) (p : PvmState) : (s.setPvm p).wire = s.wire := (rfl)
@[simp] theorem State.setPvm_evl (s : State) (p : PvmState) : (s.setPvm p).evl = s.evl := (rfl)
@[simp] theorem State.setPvm_time (s : State) (p : PvmState) : (s.setPvm p).time = s.time := (rfl)
@[simp] theorem State.setPvm_courses (s : State) (p : PvmState) : (s.setPvm p).courses = s.courses := (rfl)
@[simp] theorem State.setPvm_tabs (s : State) (p : PvmState) : (s.setPvm p).tabs = s.tabs := (rfl)
@[simp] theorem State.setPvm_inflight (s : State) (p : PvmState) : (s.setPvm p).inflight = s.inflight := (rfl)
@[simp] theorem State.setPvm_dins (s : State) (p : PvmState) : (s.setPvm p).dins = s.dins := (rfl)
@[simp] theorem State.setPvm_fwl (s : State) (p : PvmState) : (s.setPvm p).fwl = s.fwl := (rfl)
@[simp] theorem State.setPvm_healths (s : State) (p : PvmState) : (s.setPvm p).healths = s.healths := (rfl)
@[simp] theorem State.setPvm_healthX (s : State) (p : PvmState) : (s.setPvm p).healthX = s.healthX := (rfl)
@[simp] theorem State.setPvm_img (s : State) (p : PvmState) : (s.setPvm p).img = s.img := (rfl)
@[simp] theorem State.setPvm_cox (s : State) (p : PvmState) : (s.setPvm p).cox = s.cox := (rfl)
@[simp] theorem State.setPvm_convs (s : State) (p : PvmState) : (s.setPvm p).convs = s.convs := (rfl)
@[simp] theorem State.setPvm_pairs (s : State) (p : PvmState) : (s.setPvm p).pairs = s.pairs := (rfl)
@[simp] theorem State.setPvm_owRun (s : State) (p : PvmState) : (s.setPvm p).owRun = s.owRun := (rfl)
@[simp] theorem State.setPvm_cal (s : State) (p : PvmState) : (s.setPvm p).cal = s.cal := (rfl)
@[simp] theorem State.setPvm_dma (s : State) (p : PvmState) : (s.setPvm p).dma = s.dma := (rfl)
@[simp] theorem State.setPvm_dmaLast (s : State) (p : PvmState) : (s.setPvm p).dmaLast = s.dmaLast := (rfl)
@[simp] theorem State.setPvm_rmv (s : State) (p : PvmState) : (s.setPvm p).rmv = s.rmv := (rfl)
@[simp] theorem State.setPvm_lpe (s : State) (p : PvmState) : (s.setPvm p).lpe = s.lpe := (rfl)
@[simp] theorem State.setPvm_lsm (s : State) (p : PvmState) : (s.setPvm p).lsm = s.lsm := (rfl)
@[simp] theorem State.setPvm_mig (s : State) (p : PvmState) : (s.setPvm p).mig = s.mig := (rfl)
@[simp] theorem State.setPvm_owed (s : State) (p : PvmState) : (s.setPvm p).owed = s.owed := (rfl)
@[simp] theorem State.setPvm_axes (s : State) (p : PvmState) : (s.setPvm p).axes = s.axes := (rfl)
@[simp] theorem State.setPvm_motHeld (s : State) (p : PvmState) : (s.setPvm p).motHeld = s.motHeld := (rfl)
@[simp] theorem State.setPvm_encs (s : State) (p : PvmState) : (s.setPvm p).encs = s.encs := (rfl)
@[simp] theorem State.setPvm_rce (s : State) (p : PvmState) : (s.setPvm p).rce = s.rce := (rfl)
@[simp] theorem State.setPvm_seq (s : State) (p : PvmState) : (s.setPvm p).seq = s.seq := (rfl)
@[simp] theorem State.setPvm_clos (s : State) (p : PvmState) : (s.setPvm p).clos = s.clos := (rfl)
@[simp] theorem State.setPvm_vdrs (s : State) (p : PvmState) : (s.setPvm p).vdrs = s.vdrs := (rfl)
@[simp] theorem State.setPvm_cyc (s : State) (p : PvmState) : (s.setPvm p).cyc = s.cyc := (rfl)
@[simp] theorem State.setPvm_iml (s : State) (p : PvmState) : (s.setPvm p).iml = s.iml := (rfl)
@[simp] theorem State.setPvm_cans (s : State) (p : PvmState) : (s.setPvm p).cans = s.cans := (rfl)
@[simp] theorem State.setPvm_eths (s : State) (p : PvmState) : (s.setPvm p).eths = s.eths := (rfl)
@[simp] theorem State.setPvm_prps (s : State) (p : PvmState) : (s.setPvm p).prps = s.prps := (rfl)
@[simp] theorem State.setPvm_rra (s : State) (p : PvmState) : (s.setPvm p).rra = s.rra := (rfl)
@[simp] theorem State.setPvm_plk (s : State) (p : PvmState) : (s.setPvm p).plk = s.plk := (rfl)
@[simp] theorem State.setPvm_vlt (s : State) (p : PvmState) : (s.setPvm p).vlt = s.vlt := (rfl)
@[simp] theorem State.setPvm_rpc (s : State) (p : PvmState) : (s.setPvm p).rpc = s.rpc := (rfl)
@[simp] theorem State.setPvm_pvm (s : State) (p : PvmState) : (s.setPvm p).pvm = p := (rfl)

@[simp] theorem State.setCyc_pending (s : State) (c : CycState) : (s.setCyc c).pending = s.pending := (rfl)
@[simp] theorem State.setCyc_regs (s : State) (c : CycState) : (s.setCyc c).regs = s.regs := (rfl)
@[simp] theorem State.setCyc_mem (s : State) (c : CycState) : (s.setCyc c).mem = s.mem := (rfl)
@[simp] theorem State.setCyc_fresh (s : State) (c : CycState) : (s.setCyc c).fresh = s.fresh := (rfl)
@[simp] theorem State.setCyc_bus (s : State) (c : CycState) : (s.setCyc c).bus = s.bus := (rfl)
@[simp] theorem State.setCyc_latch (s : State) (c : CycState) : (s.setCyc c).latch = s.latch := (rfl)
@[simp] theorem State.setCyc_claimed (s : State) (c : CycState) : (s.setCyc c).claimed = s.claimed := (rfl)
@[simp] theorem State.setCyc_wire (s : State) (c : CycState) : (s.setCyc c).wire = s.wire := (rfl)
@[simp] theorem State.setCyc_evl (s : State) (c : CycState) : (s.setCyc c).evl = s.evl := (rfl)
@[simp] theorem State.setCyc_time (s : State) (c : CycState) : (s.setCyc c).time = s.time := (rfl)
@[simp] theorem State.setCyc_courses (s : State) (c : CycState) : (s.setCyc c).courses = s.courses := (rfl)
@[simp] theorem State.setCyc_tabs (s : State) (c : CycState) : (s.setCyc c).tabs = s.tabs := (rfl)
@[simp] theorem State.setCyc_inflight (s : State) (c : CycState) : (s.setCyc c).inflight = s.inflight := (rfl)
@[simp] theorem State.setCyc_dins (s : State) (c : CycState) : (s.setCyc c).dins = s.dins := (rfl)
@[simp] theorem State.setCyc_fwl (s : State) (c : CycState) : (s.setCyc c).fwl = s.fwl := (rfl)
@[simp] theorem State.setCyc_healths (s : State) (c : CycState) : (s.setCyc c).healths = s.healths := (rfl)
@[simp] theorem State.setCyc_healthX (s : State) (c : CycState) : (s.setCyc c).healthX = s.healthX := (rfl)
@[simp] theorem State.setCyc_img (s : State) (c : CycState) : (s.setCyc c).img = s.img := (rfl)
@[simp] theorem State.setCyc_cox (s : State) (c : CycState) : (s.setCyc c).cox = s.cox := (rfl)
@[simp] theorem State.setCyc_convs (s : State) (c : CycState) : (s.setCyc c).convs = s.convs := (rfl)
@[simp] theorem State.setCyc_pairs (s : State) (c : CycState) : (s.setCyc c).pairs = s.pairs := (rfl)
@[simp] theorem State.setCyc_owRun (s : State) (c : CycState) : (s.setCyc c).owRun = s.owRun := (rfl)
@[simp] theorem State.setCyc_cal (s : State) (c : CycState) : (s.setCyc c).cal = s.cal := (rfl)
@[simp] theorem State.setCyc_dma (s : State) (c : CycState) : (s.setCyc c).dma = s.dma := (rfl)
@[simp] theorem State.setCyc_dmaLast (s : State) (c : CycState) : (s.setCyc c).dmaLast = s.dmaLast := (rfl)
@[simp] theorem State.setCyc_rmv (s : State) (c : CycState) : (s.setCyc c).rmv = s.rmv := (rfl)
@[simp] theorem State.setCyc_lpe (s : State) (c : CycState) : (s.setCyc c).lpe = s.lpe := (rfl)
@[simp] theorem State.setCyc_lsm (s : State) (c : CycState) : (s.setCyc c).lsm = s.lsm := (rfl)
@[simp] theorem State.setCyc_mig (s : State) (c : CycState) : (s.setCyc c).mig = s.mig := (rfl)
@[simp] theorem State.setCyc_owed (s : State) (c : CycState) : (s.setCyc c).owed = s.owed := (rfl)
@[simp] theorem State.setCyc_axes (s : State) (c : CycState) : (s.setCyc c).axes = s.axes := (rfl)
@[simp] theorem State.setCyc_motHeld (s : State) (c : CycState) : (s.setCyc c).motHeld = s.motHeld := (rfl)
@[simp] theorem State.setCyc_encs (s : State) (c : CycState) : (s.setCyc c).encs = s.encs := (rfl)
@[simp] theorem State.setCyc_rce (s : State) (c : CycState) : (s.setCyc c).rce = s.rce := (rfl)
@[simp] theorem State.setCyc_seq (s : State) (c : CycState) : (s.setCyc c).seq = s.seq := (rfl)
@[simp] theorem State.setCyc_clos (s : State) (c : CycState) : (s.setCyc c).clos = s.clos := (rfl)
@[simp] theorem State.setCyc_vdrs (s : State) (c : CycState) : (s.setCyc c).vdrs = s.vdrs := (rfl)
@[simp] theorem State.setCyc_pvm (s : State) (c : CycState) : (s.setCyc c).pvm = s.pvm := (rfl)
@[simp] theorem State.setCyc_iml (s : State) (c : CycState) : (s.setCyc c).iml = s.iml := (rfl)
@[simp] theorem State.setCyc_cans (s : State) (c : CycState) : (s.setCyc c).cans = s.cans := (rfl)
@[simp] theorem State.setCyc_eths (s : State) (c : CycState) : (s.setCyc c).eths = s.eths := (rfl)
@[simp] theorem State.setCyc_prps (s : State) (c : CycState) : (s.setCyc c).prps = s.prps := (rfl)
@[simp] theorem State.setCyc_rra (s : State) (c : CycState) : (s.setCyc c).rra = s.rra := (rfl)
@[simp] theorem State.setCyc_plk (s : State) (c : CycState) : (s.setCyc c).plk = s.plk := (rfl)
@[simp] theorem State.setCyc_vlt (s : State) (c : CycState) : (s.setCyc c).vlt = s.vlt := (rfl)
@[simp] theorem State.setCyc_rpc (s : State) (c : CycState) : (s.setCyc c).rpc = s.rpc := (rfl)
@[simp] theorem State.setCyc_cyc (s : State) (c : CycState) : (s.setCyc c).cyc = c := (rfl)

@[simp] theorem State.setIml_pending (s : State) (i : ImlState) : (s.setIml i).pending = s.pending := (rfl)
@[simp] theorem State.setIml_regs (s : State) (i : ImlState) : (s.setIml i).regs = s.regs := (rfl)
@[simp] theorem State.setIml_mem (s : State) (i : ImlState) : (s.setIml i).mem = s.mem := (rfl)
@[simp] theorem State.setIml_fresh (s : State) (i : ImlState) : (s.setIml i).fresh = s.fresh := (rfl)
@[simp] theorem State.setIml_bus (s : State) (i : ImlState) : (s.setIml i).bus = s.bus := (rfl)
@[simp] theorem State.setIml_latch (s : State) (i : ImlState) : (s.setIml i).latch = s.latch := (rfl)
@[simp] theorem State.setIml_claimed (s : State) (i : ImlState) : (s.setIml i).claimed = s.claimed := (rfl)
@[simp] theorem State.setIml_wire (s : State) (i : ImlState) : (s.setIml i).wire = s.wire := (rfl)
@[simp] theorem State.setIml_evl (s : State) (i : ImlState) : (s.setIml i).evl = s.evl := (rfl)
@[simp] theorem State.setIml_time (s : State) (i : ImlState) : (s.setIml i).time = s.time := (rfl)
@[simp] theorem State.setIml_courses (s : State) (i : ImlState) : (s.setIml i).courses = s.courses := (rfl)
@[simp] theorem State.setIml_tabs (s : State) (i : ImlState) : (s.setIml i).tabs = s.tabs := (rfl)
@[simp] theorem State.setIml_inflight (s : State) (i : ImlState) : (s.setIml i).inflight = s.inflight := (rfl)
@[simp] theorem State.setIml_dins (s : State) (i : ImlState) : (s.setIml i).dins = s.dins := (rfl)
@[simp] theorem State.setIml_fwl (s : State) (i : ImlState) : (s.setIml i).fwl = s.fwl := (rfl)
@[simp] theorem State.setIml_healths (s : State) (i : ImlState) : (s.setIml i).healths = s.healths := (rfl)
@[simp] theorem State.setIml_healthX (s : State) (i : ImlState) : (s.setIml i).healthX = s.healthX := (rfl)
@[simp] theorem State.setIml_img (s : State) (i : ImlState) : (s.setIml i).img = s.img := (rfl)
@[simp] theorem State.setIml_cox (s : State) (i : ImlState) : (s.setIml i).cox = s.cox := (rfl)
@[simp] theorem State.setIml_convs (s : State) (i : ImlState) : (s.setIml i).convs = s.convs := (rfl)
@[simp] theorem State.setIml_pairs (s : State) (i : ImlState) : (s.setIml i).pairs = s.pairs := (rfl)
@[simp] theorem State.setIml_owRun (s : State) (i : ImlState) : (s.setIml i).owRun = s.owRun := (rfl)
@[simp] theorem State.setIml_cal (s : State) (i : ImlState) : (s.setIml i).cal = s.cal := (rfl)
@[simp] theorem State.setIml_dma (s : State) (i : ImlState) : (s.setIml i).dma = s.dma := (rfl)
@[simp] theorem State.setIml_dmaLast (s : State) (i : ImlState) : (s.setIml i).dmaLast = s.dmaLast := (rfl)
@[simp] theorem State.setIml_rmv (s : State) (i : ImlState) : (s.setIml i).rmv = s.rmv := (rfl)
@[simp] theorem State.setIml_lpe (s : State) (i : ImlState) : (s.setIml i).lpe = s.lpe := (rfl)
@[simp] theorem State.setIml_lsm (s : State) (i : ImlState) : (s.setIml i).lsm = s.lsm := (rfl)
@[simp] theorem State.setIml_mig (s : State) (i : ImlState) : (s.setIml i).mig = s.mig := (rfl)
@[simp] theorem State.setIml_owed (s : State) (i : ImlState) : (s.setIml i).owed = s.owed := (rfl)
@[simp] theorem State.setIml_axes (s : State) (i : ImlState) : (s.setIml i).axes = s.axes := (rfl)
@[simp] theorem State.setIml_motHeld (s : State) (i : ImlState) : (s.setIml i).motHeld = s.motHeld := (rfl)
@[simp] theorem State.setIml_encs (s : State) (i : ImlState) : (s.setIml i).encs = s.encs := (rfl)
@[simp] theorem State.setIml_rce (s : State) (i : ImlState) : (s.setIml i).rce = s.rce := (rfl)
@[simp] theorem State.setIml_seq (s : State) (i : ImlState) : (s.setIml i).seq = s.seq := (rfl)
@[simp] theorem State.setIml_clos (s : State) (i : ImlState) : (s.setIml i).clos = s.clos := (rfl)
@[simp] theorem State.setIml_vdrs (s : State) (i : ImlState) : (s.setIml i).vdrs = s.vdrs := (rfl)
@[simp] theorem State.setIml_pvm (s : State) (i : ImlState) : (s.setIml i).pvm = s.pvm := (rfl)
@[simp] theorem State.setIml_cyc (s : State) (i : ImlState) : (s.setIml i).cyc = s.cyc := (rfl)
@[simp] theorem State.setIml_cans (s : State) (i : ImlState) : (s.setIml i).cans = s.cans := (rfl)
@[simp] theorem State.setIml_eths (s : State) (i : ImlState) : (s.setIml i).eths = s.eths := (rfl)
@[simp] theorem State.setIml_prps (s : State) (i : ImlState) : (s.setIml i).prps = s.prps := (rfl)
@[simp] theorem State.setIml_rra (s : State) (i : ImlState) : (s.setIml i).rra = s.rra := (rfl)
@[simp] theorem State.setIml_plk (s : State) (i : ImlState) : (s.setIml i).plk = s.plk := (rfl)
@[simp] theorem State.setIml_vlt (s : State) (i : ImlState) : (s.setIml i).vlt = s.vlt := (rfl)
@[simp] theorem State.setIml_rpc (s : State) (i : ImlState) : (s.setIml i).rpc = s.rpc := (rfl)
@[simp] theorem State.setIml_iml (s : State) (i : ImlState) : (s.setIml i).iml = i := (rfl)

@[simp] theorem State.setCan_pending (s : State) (n : Nat) (c : CanState) : (s.setCan n c).pending = s.pending := (rfl)
@[simp] theorem State.setCan_regs (s : State) (n : Nat) (c : CanState) : (s.setCan n c).regs = s.regs := (rfl)
@[simp] theorem State.setCan_mem (s : State) (n : Nat) (c : CanState) : (s.setCan n c).mem = s.mem := (rfl)
@[simp] theorem State.setCan_fresh (s : State) (n : Nat) (c : CanState) : (s.setCan n c).fresh = s.fresh := (rfl)
@[simp] theorem State.setCan_bus (s : State) (n : Nat) (c : CanState) : (s.setCan n c).bus = s.bus := (rfl)
@[simp] theorem State.setCan_latch (s : State) (n : Nat) (c : CanState) : (s.setCan n c).latch = s.latch := (rfl)
@[simp] theorem State.setCan_claimed (s : State) (n : Nat) (c : CanState) : (s.setCan n c).claimed = s.claimed := (rfl)
@[simp] theorem State.setCan_wire (s : State) (n : Nat) (c : CanState) : (s.setCan n c).wire = s.wire := (rfl)
@[simp] theorem State.setCan_evl (s : State) (n : Nat) (c : CanState) : (s.setCan n c).evl = s.evl := (rfl)
@[simp] theorem State.setCan_time (s : State) (n : Nat) (c : CanState) : (s.setCan n c).time = s.time := (rfl)
@[simp] theorem State.setCan_courses (s : State) (n : Nat) (c : CanState) : (s.setCan n c).courses = s.courses := (rfl)
@[simp] theorem State.setCan_tabs (s : State) (n : Nat) (c : CanState) : (s.setCan n c).tabs = s.tabs := (rfl)
@[simp] theorem State.setCan_inflight (s : State) (n : Nat) (c : CanState) : (s.setCan n c).inflight = s.inflight := (rfl)
@[simp] theorem State.setCan_dins (s : State) (n : Nat) (c : CanState) : (s.setCan n c).dins = s.dins := (rfl)
@[simp] theorem State.setCan_fwl (s : State) (n : Nat) (c : CanState) : (s.setCan n c).fwl = s.fwl := (rfl)
@[simp] theorem State.setCan_healths (s : State) (n : Nat) (c : CanState) : (s.setCan n c).healths = s.healths := (rfl)
@[simp] theorem State.setCan_healthX (s : State) (n : Nat) (c : CanState) : (s.setCan n c).healthX = s.healthX := (rfl)
@[simp] theorem State.setCan_img (s : State) (n : Nat) (c : CanState) : (s.setCan n c).img = s.img := (rfl)
@[simp] theorem State.setCan_cox (s : State) (n : Nat) (c : CanState) : (s.setCan n c).cox = s.cox := (rfl)
@[simp] theorem State.setCan_convs (s : State) (n : Nat) (c : CanState) : (s.setCan n c).convs = s.convs := (rfl)
@[simp] theorem State.setCan_pairs (s : State) (n : Nat) (c : CanState) : (s.setCan n c).pairs = s.pairs := (rfl)
@[simp] theorem State.setCan_owRun (s : State) (n : Nat) (c : CanState) : (s.setCan n c).owRun = s.owRun := (rfl)
@[simp] theorem State.setCan_cal (s : State) (n : Nat) (c : CanState) : (s.setCan n c).cal = s.cal := (rfl)
@[simp] theorem State.setCan_dma (s : State) (n : Nat) (c : CanState) : (s.setCan n c).dma = s.dma := (rfl)
@[simp] theorem State.setCan_dmaLast (s : State) (n : Nat) (c : CanState) : (s.setCan n c).dmaLast = s.dmaLast := (rfl)
@[simp] theorem State.setCan_rmv (s : State) (n : Nat) (c : CanState) : (s.setCan n c).rmv = s.rmv := (rfl)
@[simp] theorem State.setCan_lpe (s : State) (n : Nat) (c : CanState) : (s.setCan n c).lpe = s.lpe := (rfl)
@[simp] theorem State.setCan_lsm (s : State) (n : Nat) (c : CanState) : (s.setCan n c).lsm = s.lsm := (rfl)
@[simp] theorem State.setCan_mig (s : State) (n : Nat) (c : CanState) : (s.setCan n c).mig = s.mig := (rfl)
@[simp] theorem State.setCan_owed (s : State) (n : Nat) (c : CanState) : (s.setCan n c).owed = s.owed := (rfl)
@[simp] theorem State.setCan_axes (s : State) (n : Nat) (c : CanState) : (s.setCan n c).axes = s.axes := (rfl)
@[simp] theorem State.setCan_motHeld (s : State) (n : Nat) (c : CanState) : (s.setCan n c).motHeld = s.motHeld := (rfl)
@[simp] theorem State.setCan_encs (s : State) (n : Nat) (c : CanState) : (s.setCan n c).encs = s.encs := (rfl)
@[simp] theorem State.setCan_rce (s : State) (n : Nat) (c : CanState) : (s.setCan n c).rce = s.rce := (rfl)
@[simp] theorem State.setCan_seq (s : State) (n : Nat) (c : CanState) : (s.setCan n c).seq = s.seq := (rfl)
@[simp] theorem State.setCan_clos (s : State) (n : Nat) (c : CanState) : (s.setCan n c).clos = s.clos := (rfl)
@[simp] theorem State.setCan_vdrs (s : State) (n : Nat) (c : CanState) : (s.setCan n c).vdrs = s.vdrs := (rfl)
@[simp] theorem State.setCan_pvm (s : State) (n : Nat) (c : CanState) : (s.setCan n c).pvm = s.pvm := (rfl)
@[simp] theorem State.setCan_cyc (s : State) (n : Nat) (c : CanState) : (s.setCan n c).cyc = s.cyc := (rfl)
@[simp] theorem State.setCan_iml (s : State) (n : Nat) (c : CanState) : (s.setCan n c).iml = s.iml := (rfl)
@[simp] theorem State.setCan_eths (s : State) (n : Nat) (c : CanState) : (s.setCan n c).eths = s.eths := (rfl)
@[simp] theorem State.setCan_prps (s : State) (n : Nat) (c : CanState) : (s.setCan n c).prps = s.prps := (rfl)
@[simp] theorem State.setCan_rra (s : State) (n : Nat) (c : CanState) : (s.setCan n c).rra = s.rra := (rfl)
@[simp] theorem State.setCan_plk (s : State) (n : Nat) (c : CanState) : (s.setCan n c).plk = s.plk := (rfl)
@[simp] theorem State.setCan_vlt (s : State) (n : Nat) (c : CanState) : (s.setCan n c).vlt = s.vlt := (rfl)
@[simp] theorem State.setCan_rpc (s : State) (n : Nat) (c : CanState) : (s.setCan n c).rpc = s.rpc := (rfl)

@[simp] theorem State.setEth_pending (s : State) (n : Nat) (e : EthState) : (s.setEth n e).pending = s.pending := (rfl)
@[simp] theorem State.setEth_regs (s : State) (n : Nat) (e : EthState) : (s.setEth n e).regs = s.regs := (rfl)
@[simp] theorem State.setEth_mem (s : State) (n : Nat) (e : EthState) : (s.setEth n e).mem = s.mem := (rfl)
@[simp] theorem State.setEth_fresh (s : State) (n : Nat) (e : EthState) : (s.setEth n e).fresh = s.fresh := (rfl)
@[simp] theorem State.setEth_bus (s : State) (n : Nat) (e : EthState) : (s.setEth n e).bus = s.bus := (rfl)
@[simp] theorem State.setEth_latch (s : State) (n : Nat) (e : EthState) : (s.setEth n e).latch = s.latch := (rfl)
@[simp] theorem State.setEth_claimed (s : State) (n : Nat) (e : EthState) : (s.setEth n e).claimed = s.claimed := (rfl)
@[simp] theorem State.setEth_wire (s : State) (n : Nat) (e : EthState) : (s.setEth n e).wire = s.wire := (rfl)
@[simp] theorem State.setEth_evl (s : State) (n : Nat) (e : EthState) : (s.setEth n e).evl = s.evl := (rfl)
@[simp] theorem State.setEth_time (s : State) (n : Nat) (e : EthState) : (s.setEth n e).time = s.time := (rfl)
@[simp] theorem State.setEth_courses (s : State) (n : Nat) (e : EthState) : (s.setEth n e).courses = s.courses := (rfl)
@[simp] theorem State.setEth_tabs (s : State) (n : Nat) (e : EthState) : (s.setEth n e).tabs = s.tabs := (rfl)
@[simp] theorem State.setEth_inflight (s : State) (n : Nat) (e : EthState) : (s.setEth n e).inflight = s.inflight := (rfl)
@[simp] theorem State.setEth_dins (s : State) (n : Nat) (e : EthState) : (s.setEth n e).dins = s.dins := (rfl)
@[simp] theorem State.setEth_fwl (s : State) (n : Nat) (e : EthState) : (s.setEth n e).fwl = s.fwl := (rfl)
@[simp] theorem State.setEth_healths (s : State) (n : Nat) (e : EthState) : (s.setEth n e).healths = s.healths := (rfl)
@[simp] theorem State.setEth_healthX (s : State) (n : Nat) (e : EthState) : (s.setEth n e).healthX = s.healthX := (rfl)
@[simp] theorem State.setEth_img (s : State) (n : Nat) (e : EthState) : (s.setEth n e).img = s.img := (rfl)
@[simp] theorem State.setEth_cox (s : State) (n : Nat) (e : EthState) : (s.setEth n e).cox = s.cox := (rfl)
@[simp] theorem State.setEth_convs (s : State) (n : Nat) (e : EthState) : (s.setEth n e).convs = s.convs := (rfl)
@[simp] theorem State.setEth_pairs (s : State) (n : Nat) (e : EthState) : (s.setEth n e).pairs = s.pairs := (rfl)
@[simp] theorem State.setEth_owRun (s : State) (n : Nat) (e : EthState) : (s.setEth n e).owRun = s.owRun := (rfl)
@[simp] theorem State.setEth_cal (s : State) (n : Nat) (e : EthState) : (s.setEth n e).cal = s.cal := (rfl)
@[simp] theorem State.setEth_dma (s : State) (n : Nat) (e : EthState) : (s.setEth n e).dma = s.dma := (rfl)
@[simp] theorem State.setEth_dmaLast (s : State) (n : Nat) (e : EthState) : (s.setEth n e).dmaLast = s.dmaLast := (rfl)
@[simp] theorem State.setEth_rmv (s : State) (n : Nat) (e : EthState) : (s.setEth n e).rmv = s.rmv := (rfl)
@[simp] theorem State.setEth_lpe (s : State) (n : Nat) (e : EthState) : (s.setEth n e).lpe = s.lpe := (rfl)
@[simp] theorem State.setEth_lsm (s : State) (n : Nat) (e : EthState) : (s.setEth n e).lsm = s.lsm := (rfl)
@[simp] theorem State.setEth_mig (s : State) (n : Nat) (e : EthState) : (s.setEth n e).mig = s.mig := (rfl)
@[simp] theorem State.setEth_owed (s : State) (n : Nat) (e : EthState) : (s.setEth n e).owed = s.owed := (rfl)
@[simp] theorem State.setEth_axes (s : State) (n : Nat) (e : EthState) : (s.setEth n e).axes = s.axes := (rfl)
@[simp] theorem State.setEth_motHeld (s : State) (n : Nat) (e : EthState) : (s.setEth n e).motHeld = s.motHeld := (rfl)
@[simp] theorem State.setEth_encs (s : State) (n : Nat) (e : EthState) : (s.setEth n e).encs = s.encs := (rfl)
@[simp] theorem State.setEth_rce (s : State) (n : Nat) (e : EthState) : (s.setEth n e).rce = s.rce := (rfl)
@[simp] theorem State.setEth_seq (s : State) (n : Nat) (e : EthState) : (s.setEth n e).seq = s.seq := (rfl)
@[simp] theorem State.setEth_clos (s : State) (n : Nat) (e : EthState) : (s.setEth n e).clos = s.clos := (rfl)
@[simp] theorem State.setEth_vdrs (s : State) (n : Nat) (e : EthState) : (s.setEth n e).vdrs = s.vdrs := (rfl)
@[simp] theorem State.setEth_pvm (s : State) (n : Nat) (e : EthState) : (s.setEth n e).pvm = s.pvm := (rfl)
@[simp] theorem State.setEth_cyc (s : State) (n : Nat) (e : EthState) : (s.setEth n e).cyc = s.cyc := (rfl)
@[simp] theorem State.setEth_iml (s : State) (n : Nat) (e : EthState) : (s.setEth n e).iml = s.iml := (rfl)
@[simp] theorem State.setEth_cans (s : State) (n : Nat) (e : EthState) : (s.setEth n e).cans = s.cans := (rfl)
@[simp] theorem State.setEth_prps (s : State) (n : Nat) (e : EthState) : (s.setEth n e).prps = s.prps := (rfl)
@[simp] theorem State.setEth_rra (s : State) (n : Nat) (e : EthState) : (s.setEth n e).rra = s.rra := (rfl)
@[simp] theorem State.setEth_plk (s : State) (n : Nat) (e : EthState) : (s.setEth n e).plk = s.plk := (rfl)
@[simp] theorem State.setEth_vlt (s : State) (n : Nat) (e : EthState) : (s.setEth n e).vlt = s.vlt := (rfl)
@[simp] theorem State.setEth_rpc (s : State) (n : Nat) (e : EthState) : (s.setEth n e).rpc = s.rpc := (rfl)

@[simp] theorem State.setPrp_pending (s : State) (p : Nat) (x : PrpState) : (s.setPrp p x).pending = s.pending := (rfl)
@[simp] theorem State.setPrp_regs (s : State) (p : Nat) (x : PrpState) : (s.setPrp p x).regs = s.regs := (rfl)
@[simp] theorem State.setPrp_mem (s : State) (p : Nat) (x : PrpState) : (s.setPrp p x).mem = s.mem := (rfl)
@[simp] theorem State.setPrp_fresh (s : State) (p : Nat) (x : PrpState) : (s.setPrp p x).fresh = s.fresh := (rfl)
@[simp] theorem State.setPrp_bus (s : State) (p : Nat) (x : PrpState) : (s.setPrp p x).bus = s.bus := (rfl)
@[simp] theorem State.setPrp_latch (s : State) (p : Nat) (x : PrpState) : (s.setPrp p x).latch = s.latch := (rfl)
@[simp] theorem State.setPrp_claimed (s : State) (p : Nat) (x : PrpState) : (s.setPrp p x).claimed = s.claimed := (rfl)
@[simp] theorem State.setPrp_wire (s : State) (p : Nat) (x : PrpState) : (s.setPrp p x).wire = s.wire := (rfl)
@[simp] theorem State.setPrp_evl (s : State) (p : Nat) (x : PrpState) : (s.setPrp p x).evl = s.evl := (rfl)
@[simp] theorem State.setPrp_time (s : State) (p : Nat) (x : PrpState) : (s.setPrp p x).time = s.time := (rfl)
@[simp] theorem State.setPrp_courses (s : State) (p : Nat) (x : PrpState) : (s.setPrp p x).courses = s.courses := (rfl)
@[simp] theorem State.setPrp_tabs (s : State) (p : Nat) (x : PrpState) : (s.setPrp p x).tabs = s.tabs := (rfl)
@[simp] theorem State.setPrp_inflight (s : State) (p : Nat) (x : PrpState) : (s.setPrp p x).inflight = s.inflight := (rfl)
@[simp] theorem State.setPrp_dins (s : State) (p : Nat) (x : PrpState) : (s.setPrp p x).dins = s.dins := (rfl)
@[simp] theorem State.setPrp_fwl (s : State) (p : Nat) (x : PrpState) : (s.setPrp p x).fwl = s.fwl := (rfl)
@[simp] theorem State.setPrp_healths (s : State) (p : Nat) (x : PrpState) : (s.setPrp p x).healths = s.healths := (rfl)
@[simp] theorem State.setPrp_healthX (s : State) (p : Nat) (x : PrpState) : (s.setPrp p x).healthX = s.healthX := (rfl)
@[simp] theorem State.setPrp_img (s : State) (p : Nat) (x : PrpState) : (s.setPrp p x).img = s.img := (rfl)
@[simp] theorem State.setPrp_cox (s : State) (p : Nat) (x : PrpState) : (s.setPrp p x).cox = s.cox := (rfl)
@[simp] theorem State.setPrp_convs (s : State) (p : Nat) (x : PrpState) : (s.setPrp p x).convs = s.convs := (rfl)
@[simp] theorem State.setPrp_pairs (s : State) (p : Nat) (x : PrpState) : (s.setPrp p x).pairs = s.pairs := (rfl)
@[simp] theorem State.setPrp_owRun (s : State) (p : Nat) (x : PrpState) : (s.setPrp p x).owRun = s.owRun := (rfl)
@[simp] theorem State.setPrp_cal (s : State) (p : Nat) (x : PrpState) : (s.setPrp p x).cal = s.cal := (rfl)
@[simp] theorem State.setPrp_dma (s : State) (p : Nat) (x : PrpState) : (s.setPrp p x).dma = s.dma := (rfl)
@[simp] theorem State.setPrp_dmaLast (s : State) (p : Nat) (x : PrpState) : (s.setPrp p x).dmaLast = s.dmaLast := (rfl)
@[simp] theorem State.setPrp_rmv (s : State) (p : Nat) (x : PrpState) : (s.setPrp p x).rmv = s.rmv := (rfl)
@[simp] theorem State.setPrp_lpe (s : State) (p : Nat) (x : PrpState) : (s.setPrp p x).lpe = s.lpe := (rfl)
@[simp] theorem State.setPrp_lsm (s : State) (p : Nat) (x : PrpState) : (s.setPrp p x).lsm = s.lsm := (rfl)
@[simp] theorem State.setPrp_mig (s : State) (p : Nat) (x : PrpState) : (s.setPrp p x).mig = s.mig := (rfl)
@[simp] theorem State.setPrp_owed (s : State) (p : Nat) (x : PrpState) : (s.setPrp p x).owed = s.owed := (rfl)
@[simp] theorem State.setPrp_axes (s : State) (p : Nat) (x : PrpState) : (s.setPrp p x).axes = s.axes := (rfl)
@[simp] theorem State.setPrp_motHeld (s : State) (p : Nat) (x : PrpState) : (s.setPrp p x).motHeld = s.motHeld := (rfl)
@[simp] theorem State.setPrp_encs (s : State) (p : Nat) (x : PrpState) : (s.setPrp p x).encs = s.encs := (rfl)
@[simp] theorem State.setPrp_rce (s : State) (p : Nat) (x : PrpState) : (s.setPrp p x).rce = s.rce := (rfl)
@[simp] theorem State.setPrp_seq (s : State) (p : Nat) (x : PrpState) : (s.setPrp p x).seq = s.seq := (rfl)
@[simp] theorem State.setPrp_clos (s : State) (p : Nat) (x : PrpState) : (s.setPrp p x).clos = s.clos := (rfl)
@[simp] theorem State.setPrp_vdrs (s : State) (p : Nat) (x : PrpState) : (s.setPrp p x).vdrs = s.vdrs := (rfl)
@[simp] theorem State.setPrp_pvm (s : State) (p : Nat) (x : PrpState) : (s.setPrp p x).pvm = s.pvm := (rfl)
@[simp] theorem State.setPrp_cyc (s : State) (p : Nat) (x : PrpState) : (s.setPrp p x).cyc = s.cyc := (rfl)
@[simp] theorem State.setPrp_iml (s : State) (p : Nat) (x : PrpState) : (s.setPrp p x).iml = s.iml := (rfl)
@[simp] theorem State.setPrp_cans (s : State) (p : Nat) (x : PrpState) : (s.setPrp p x).cans = s.cans := (rfl)
@[simp] theorem State.setPrp_eths (s : State) (p : Nat) (x : PrpState) : (s.setPrp p x).eths = s.eths := (rfl)
@[simp] theorem State.setPrp_rra (s : State) (p : Nat) (x : PrpState) : (s.setPrp p x).rra = s.rra := (rfl)
@[simp] theorem State.setPrp_plk (s : State) (p : Nat) (x : PrpState) : (s.setPrp p x).plk = s.plk := (rfl)
@[simp] theorem State.setPrp_vlt (s : State) (p : Nat) (x : PrpState) : (s.setPrp p x).vlt = s.vlt := (rfl)
@[simp] theorem State.setPrp_rpc (s : State) (p : Nat) (x : PrpState) : (s.setPrp p x).rpc = s.rpc := (rfl)

@[simp] theorem State.setRra_pending (s : State) (r : RraState) : (s.setRra r).pending = s.pending := (rfl)
@[simp] theorem State.setRra_regs (s : State) (r : RraState) : (s.setRra r).regs = s.regs := (rfl)
@[simp] theorem State.setRra_mem (s : State) (r : RraState) : (s.setRra r).mem = s.mem := (rfl)
@[simp] theorem State.setRra_fresh (s : State) (r : RraState) : (s.setRra r).fresh = s.fresh := (rfl)
@[simp] theorem State.setRra_bus (s : State) (r : RraState) : (s.setRra r).bus = s.bus := (rfl)
@[simp] theorem State.setRra_latch (s : State) (r : RraState) : (s.setRra r).latch = s.latch := (rfl)
@[simp] theorem State.setRra_claimed (s : State) (r : RraState) : (s.setRra r).claimed = s.claimed := (rfl)
@[simp] theorem State.setRra_wire (s : State) (r : RraState) : (s.setRra r).wire = s.wire := (rfl)
@[simp] theorem State.setRra_evl (s : State) (r : RraState) : (s.setRra r).evl = s.evl := (rfl)
@[simp] theorem State.setRra_time (s : State) (r : RraState) : (s.setRra r).time = s.time := (rfl)
@[simp] theorem State.setRra_courses (s : State) (r : RraState) : (s.setRra r).courses = s.courses := (rfl)
@[simp] theorem State.setRra_tabs (s : State) (r : RraState) : (s.setRra r).tabs = s.tabs := (rfl)
@[simp] theorem State.setRra_inflight (s : State) (r : RraState) : (s.setRra r).inflight = s.inflight := (rfl)
@[simp] theorem State.setRra_dins (s : State) (r : RraState) : (s.setRra r).dins = s.dins := (rfl)
@[simp] theorem State.setRra_fwl (s : State) (r : RraState) : (s.setRra r).fwl = s.fwl := (rfl)
@[simp] theorem State.setRra_healths (s : State) (r : RraState) : (s.setRra r).healths = s.healths := (rfl)
@[simp] theorem State.setRra_healthX (s : State) (r : RraState) : (s.setRra r).healthX = s.healthX := (rfl)
@[simp] theorem State.setRra_img (s : State) (r : RraState) : (s.setRra r).img = s.img := (rfl)
@[simp] theorem State.setRra_cox (s : State) (r : RraState) : (s.setRra r).cox = s.cox := (rfl)
@[simp] theorem State.setRra_convs (s : State) (r : RraState) : (s.setRra r).convs = s.convs := (rfl)
@[simp] theorem State.setRra_pairs (s : State) (r : RraState) : (s.setRra r).pairs = s.pairs := (rfl)
@[simp] theorem State.setRra_owRun (s : State) (r : RraState) : (s.setRra r).owRun = s.owRun := (rfl)
@[simp] theorem State.setRra_cal (s : State) (r : RraState) : (s.setRra r).cal = s.cal := (rfl)
@[simp] theorem State.setRra_dma (s : State) (r : RraState) : (s.setRra r).dma = s.dma := (rfl)
@[simp] theorem State.setRra_dmaLast (s : State) (r : RraState) : (s.setRra r).dmaLast = s.dmaLast := (rfl)
@[simp] theorem State.setRra_rmv (s : State) (r : RraState) : (s.setRra r).rmv = s.rmv := (rfl)
@[simp] theorem State.setRra_lpe (s : State) (r : RraState) : (s.setRra r).lpe = s.lpe := (rfl)
@[simp] theorem State.setRra_lsm (s : State) (r : RraState) : (s.setRra r).lsm = s.lsm := (rfl)
@[simp] theorem State.setRra_mig (s : State) (r : RraState) : (s.setRra r).mig = s.mig := (rfl)
@[simp] theorem State.setRra_owed (s : State) (r : RraState) : (s.setRra r).owed = s.owed := (rfl)
@[simp] theorem State.setRra_axes (s : State) (r : RraState) : (s.setRra r).axes = s.axes := (rfl)
@[simp] theorem State.setRra_motHeld (s : State) (r : RraState) : (s.setRra r).motHeld = s.motHeld := (rfl)
@[simp] theorem State.setRra_encs (s : State) (r : RraState) : (s.setRra r).encs = s.encs := (rfl)
@[simp] theorem State.setRra_rce (s : State) (r : RraState) : (s.setRra r).rce = s.rce := (rfl)
@[simp] theorem State.setRra_seq (s : State) (r : RraState) : (s.setRra r).seq = s.seq := (rfl)
@[simp] theorem State.setRra_clos (s : State) (r : RraState) : (s.setRra r).clos = s.clos := (rfl)
@[simp] theorem State.setRra_vdrs (s : State) (r : RraState) : (s.setRra r).vdrs = s.vdrs := (rfl)
@[simp] theorem State.setRra_pvm (s : State) (r : RraState) : (s.setRra r).pvm = s.pvm := (rfl)
@[simp] theorem State.setRra_cyc (s : State) (r : RraState) : (s.setRra r).cyc = s.cyc := (rfl)
@[simp] theorem State.setRra_iml (s : State) (r : RraState) : (s.setRra r).iml = s.iml := (rfl)
@[simp] theorem State.setRra_cans (s : State) (r : RraState) : (s.setRra r).cans = s.cans := (rfl)
@[simp] theorem State.setRra_eths (s : State) (r : RraState) : (s.setRra r).eths = s.eths := (rfl)
@[simp] theorem State.setRra_prps (s : State) (r : RraState) : (s.setRra r).prps = s.prps := (rfl)
@[simp] theorem State.setRra_plk (s : State) (r : RraState) : (s.setRra r).plk = s.plk := (rfl)
@[simp] theorem State.setRra_vlt (s : State) (r : RraState) : (s.setRra r).vlt = s.vlt := (rfl)
@[simp] theorem State.setRra_rpc (s : State) (r : RraState) : (s.setRra r).rpc = s.rpc := (rfl)
@[simp] theorem State.setRra_rra (s : State) (r : RraState) : (s.setRra r).rra = r := (rfl)

@[simp] theorem State.setVlt_pending (s : State) (v : VltState) : (s.setVlt v).pending = s.pending := (rfl)
@[simp] theorem State.setVlt_regs (s : State) (v : VltState) : (s.setVlt v).regs = s.regs := (rfl)
@[simp] theorem State.setVlt_mem (s : State) (v : VltState) : (s.setVlt v).mem = s.mem := (rfl)
@[simp] theorem State.setVlt_fresh (s : State) (v : VltState) : (s.setVlt v).fresh = s.fresh := (rfl)
@[simp] theorem State.setVlt_bus (s : State) (v : VltState) : (s.setVlt v).bus = s.bus := (rfl)
@[simp] theorem State.setVlt_latch (s : State) (v : VltState) : (s.setVlt v).latch = s.latch := (rfl)
@[simp] theorem State.setVlt_claimed (s : State) (v : VltState) : (s.setVlt v).claimed = s.claimed := (rfl)
@[simp] theorem State.setVlt_wire (s : State) (v : VltState) : (s.setVlt v).wire = s.wire := (rfl)
@[simp] theorem State.setVlt_evl (s : State) (v : VltState) : (s.setVlt v).evl = s.evl := (rfl)
@[simp] theorem State.setVlt_time (s : State) (v : VltState) : (s.setVlt v).time = s.time := (rfl)
@[simp] theorem State.setVlt_courses (s : State) (v : VltState) : (s.setVlt v).courses = s.courses := (rfl)
@[simp] theorem State.setVlt_tabs (s : State) (v : VltState) : (s.setVlt v).tabs = s.tabs := (rfl)
@[simp] theorem State.setVlt_inflight (s : State) (v : VltState) : (s.setVlt v).inflight = s.inflight := (rfl)
@[simp] theorem State.setVlt_dins (s : State) (v : VltState) : (s.setVlt v).dins = s.dins := (rfl)
@[simp] theorem State.setVlt_fwl (s : State) (v : VltState) : (s.setVlt v).fwl = s.fwl := (rfl)
@[simp] theorem State.setVlt_healths (s : State) (v : VltState) : (s.setVlt v).healths = s.healths := (rfl)
@[simp] theorem State.setVlt_healthX (s : State) (v : VltState) : (s.setVlt v).healthX = s.healthX := (rfl)
@[simp] theorem State.setVlt_img (s : State) (v : VltState) : (s.setVlt v).img = s.img := (rfl)
@[simp] theorem State.setVlt_cox (s : State) (v : VltState) : (s.setVlt v).cox = s.cox := (rfl)
@[simp] theorem State.setVlt_convs (s : State) (v : VltState) : (s.setVlt v).convs = s.convs := (rfl)
@[simp] theorem State.setVlt_pairs (s : State) (v : VltState) : (s.setVlt v).pairs = s.pairs := (rfl)
@[simp] theorem State.setVlt_owRun (s : State) (v : VltState) : (s.setVlt v).owRun = s.owRun := (rfl)
@[simp] theorem State.setVlt_cal (s : State) (v : VltState) : (s.setVlt v).cal = s.cal := (rfl)
@[simp] theorem State.setVlt_dma (s : State) (v : VltState) : (s.setVlt v).dma = s.dma := (rfl)
@[simp] theorem State.setVlt_dmaLast (s : State) (v : VltState) : (s.setVlt v).dmaLast = s.dmaLast := (rfl)
@[simp] theorem State.setVlt_rmv (s : State) (v : VltState) : (s.setVlt v).rmv = s.rmv := (rfl)
@[simp] theorem State.setVlt_lpe (s : State) (v : VltState) : (s.setVlt v).lpe = s.lpe := (rfl)
@[simp] theorem State.setVlt_lsm (s : State) (v : VltState) : (s.setVlt v).lsm = s.lsm := (rfl)
@[simp] theorem State.setVlt_mig (s : State) (v : VltState) : (s.setVlt v).mig = s.mig := (rfl)
@[simp] theorem State.setVlt_owed (s : State) (v : VltState) : (s.setVlt v).owed = s.owed := (rfl)
@[simp] theorem State.setVlt_axes (s : State) (v : VltState) : (s.setVlt v).axes = s.axes := (rfl)
@[simp] theorem State.setVlt_motHeld (s : State) (v : VltState) : (s.setVlt v).motHeld = s.motHeld := (rfl)
@[simp] theorem State.setVlt_encs (s : State) (v : VltState) : (s.setVlt v).encs = s.encs := (rfl)
@[simp] theorem State.setVlt_rce (s : State) (v : VltState) : (s.setVlt v).rce = s.rce := (rfl)
@[simp] theorem State.setVlt_seq (s : State) (v : VltState) : (s.setVlt v).seq = s.seq := (rfl)
@[simp] theorem State.setVlt_clos (s : State) (v : VltState) : (s.setVlt v).clos = s.clos := (rfl)
@[simp] theorem State.setVlt_vdrs (s : State) (v : VltState) : (s.setVlt v).vdrs = s.vdrs := (rfl)
@[simp] theorem State.setVlt_pvm (s : State) (v : VltState) : (s.setVlt v).pvm = s.pvm := (rfl)
@[simp] theorem State.setVlt_cyc (s : State) (v : VltState) : (s.setVlt v).cyc = s.cyc := (rfl)
@[simp] theorem State.setVlt_iml (s : State) (v : VltState) : (s.setVlt v).iml = s.iml := (rfl)
@[simp] theorem State.setVlt_cans (s : State) (v : VltState) : (s.setVlt v).cans = s.cans := (rfl)
@[simp] theorem State.setVlt_eths (s : State) (v : VltState) : (s.setVlt v).eths = s.eths := (rfl)
@[simp] theorem State.setVlt_prps (s : State) (v : VltState) : (s.setVlt v).prps = s.prps := (rfl)
@[simp] theorem State.setVlt_rra (s : State) (v : VltState) : (s.setVlt v).rra = s.rra := (rfl)
@[simp] theorem State.setVlt_plk (s : State) (v : VltState) : (s.setVlt v).plk = s.plk := (rfl)
@[simp] theorem State.setVlt_rpc (s : State) (v : VltState) : (s.setVlt v).rpc = s.rpc := (rfl)
@[simp] theorem State.setVlt_vlt (s : State) (v : VltState) : (s.setVlt v).vlt = v := (rfl)

@[simp] theorem State.setRpc_pending (s : State) (r : RpcState) : (s.setRpc r).pending = s.pending := (rfl)
@[simp] theorem State.setRpc_regs (s : State) (r : RpcState) : (s.setRpc r).regs = s.regs := (rfl)
@[simp] theorem State.setRpc_mem (s : State) (r : RpcState) : (s.setRpc r).mem = s.mem := (rfl)
@[simp] theorem State.setRpc_fresh (s : State) (r : RpcState) : (s.setRpc r).fresh = s.fresh := (rfl)
@[simp] theorem State.setRpc_bus (s : State) (r : RpcState) : (s.setRpc r).bus = s.bus := (rfl)
@[simp] theorem State.setRpc_latch (s : State) (r : RpcState) : (s.setRpc r).latch = s.latch := (rfl)
@[simp] theorem State.setRpc_claimed (s : State) (r : RpcState) : (s.setRpc r).claimed = s.claimed := (rfl)
@[simp] theorem State.setRpc_wire (s : State) (r : RpcState) : (s.setRpc r).wire = s.wire := (rfl)
@[simp] theorem State.setRpc_evl (s : State) (r : RpcState) : (s.setRpc r).evl = s.evl := (rfl)
@[simp] theorem State.setRpc_time (s : State) (r : RpcState) : (s.setRpc r).time = s.time := (rfl)
@[simp] theorem State.setRpc_courses (s : State) (r : RpcState) : (s.setRpc r).courses = s.courses := (rfl)
@[simp] theorem State.setRpc_tabs (s : State) (r : RpcState) : (s.setRpc r).tabs = s.tabs := (rfl)
@[simp] theorem State.setRpc_inflight (s : State) (r : RpcState) : (s.setRpc r).inflight = s.inflight := (rfl)
@[simp] theorem State.setRpc_dins (s : State) (r : RpcState) : (s.setRpc r).dins = s.dins := (rfl)
@[simp] theorem State.setRpc_fwl (s : State) (r : RpcState) : (s.setRpc r).fwl = s.fwl := (rfl)
@[simp] theorem State.setRpc_healths (s : State) (r : RpcState) : (s.setRpc r).healths = s.healths := (rfl)
@[simp] theorem State.setRpc_healthX (s : State) (r : RpcState) : (s.setRpc r).healthX = s.healthX := (rfl)
@[simp] theorem State.setRpc_img (s : State) (r : RpcState) : (s.setRpc r).img = s.img := (rfl)
@[simp] theorem State.setRpc_cox (s : State) (r : RpcState) : (s.setRpc r).cox = s.cox := (rfl)
@[simp] theorem State.setRpc_convs (s : State) (r : RpcState) : (s.setRpc r).convs = s.convs := (rfl)
@[simp] theorem State.setRpc_pairs (s : State) (r : RpcState) : (s.setRpc r).pairs = s.pairs := (rfl)
@[simp] theorem State.setRpc_owRun (s : State) (r : RpcState) : (s.setRpc r).owRun = s.owRun := (rfl)
@[simp] theorem State.setRpc_cal (s : State) (r : RpcState) : (s.setRpc r).cal = s.cal := (rfl)
@[simp] theorem State.setRpc_dma (s : State) (r : RpcState) : (s.setRpc r).dma = s.dma := (rfl)
@[simp] theorem State.setRpc_dmaLast (s : State) (r : RpcState) : (s.setRpc r).dmaLast = s.dmaLast := (rfl)
@[simp] theorem State.setRpc_rmv (s : State) (r : RpcState) : (s.setRpc r).rmv = s.rmv := (rfl)
@[simp] theorem State.setRpc_lpe (s : State) (r : RpcState) : (s.setRpc r).lpe = s.lpe := (rfl)
@[simp] theorem State.setRpc_lsm (s : State) (r : RpcState) : (s.setRpc r).lsm = s.lsm := (rfl)
@[simp] theorem State.setRpc_mig (s : State) (r : RpcState) : (s.setRpc r).mig = s.mig := (rfl)
@[simp] theorem State.setRpc_owed (s : State) (r : RpcState) : (s.setRpc r).owed = s.owed := (rfl)
@[simp] theorem State.setRpc_axes (s : State) (r : RpcState) : (s.setRpc r).axes = s.axes := (rfl)
@[simp] theorem State.setRpc_motHeld (s : State) (r : RpcState) : (s.setRpc r).motHeld = s.motHeld := (rfl)
@[simp] theorem State.setRpc_encs (s : State) (r : RpcState) : (s.setRpc r).encs = s.encs := (rfl)
@[simp] theorem State.setRpc_rce (s : State) (r : RpcState) : (s.setRpc r).rce = s.rce := (rfl)
@[simp] theorem State.setRpc_seq (s : State) (r : RpcState) : (s.setRpc r).seq = s.seq := (rfl)
@[simp] theorem State.setRpc_clos (s : State) (r : RpcState) : (s.setRpc r).clos = s.clos := (rfl)
@[simp] theorem State.setRpc_vdrs (s : State) (r : RpcState) : (s.setRpc r).vdrs = s.vdrs := (rfl)
@[simp] theorem State.setRpc_pvm (s : State) (r : RpcState) : (s.setRpc r).pvm = s.pvm := (rfl)
@[simp] theorem State.setRpc_cyc (s : State) (r : RpcState) : (s.setRpc r).cyc = s.cyc := (rfl)
@[simp] theorem State.setRpc_iml (s : State) (r : RpcState) : (s.setRpc r).iml = s.iml := (rfl)
@[simp] theorem State.setRpc_cans (s : State) (r : RpcState) : (s.setRpc r).cans = s.cans := (rfl)
@[simp] theorem State.setRpc_eths (s : State) (r : RpcState) : (s.setRpc r).eths = s.eths := (rfl)
@[simp] theorem State.setRpc_prps (s : State) (r : RpcState) : (s.setRpc r).prps = s.prps := (rfl)
@[simp] theorem State.setRpc_rra (s : State) (r : RpcState) : (s.setRpc r).rra = s.rra := (rfl)
@[simp] theorem State.setRpc_plk (s : State) (r : RpcState) : (s.setRpc r).plk = s.plk := (rfl)
@[simp] theorem State.setRpc_vlt (s : State) (r : RpcState) : (s.setRpc r).vlt = s.vlt := (rfl)
@[simp] theorem State.setRpc_rpc (s : State) (r : RpcState) : (s.setRpc r).rpc = r := (rfl)

@[simp] theorem State.setFwl_pending (s : State) (f : FwlState) : (s.setFwl f).pending = s.pending := (rfl)
@[simp] theorem State.setFwl_regs (s : State) (f : FwlState) : (s.setFwl f).regs = s.regs := (rfl)
@[simp] theorem State.setFwl_mem (s : State) (f : FwlState) : (s.setFwl f).mem = s.mem := (rfl)
@[simp] theorem State.setFwl_fresh (s : State) (f : FwlState) : (s.setFwl f).fresh = s.fresh := (rfl)
@[simp] theorem State.setFwl_bus (s : State) (f : FwlState) : (s.setFwl f).bus = s.bus := (rfl)
@[simp] theorem State.setFwl_latch (s : State) (f : FwlState) : (s.setFwl f).latch = s.latch := (rfl)
@[simp] theorem State.setFwl_claimed (s : State) (f : FwlState) : (s.setFwl f).claimed = s.claimed := (rfl)
@[simp] theorem State.setFwl_wire (s : State) (f : FwlState) : (s.setFwl f).wire = s.wire := (rfl)
@[simp] theorem State.setFwl_evl (s : State) (f : FwlState) : (s.setFwl f).evl = s.evl := (rfl)
@[simp] theorem State.setFwl_time (s : State) (f : FwlState) : (s.setFwl f).time = s.time := (rfl)
@[simp] theorem State.setFwl_courses (s : State) (f : FwlState) : (s.setFwl f).courses = s.courses := (rfl)
@[simp] theorem State.setFwl_tabs (s : State) (f : FwlState) : (s.setFwl f).tabs = s.tabs := (rfl)
@[simp] theorem State.setFwl_inflight (s : State) (f : FwlState) : (s.setFwl f).inflight = s.inflight := (rfl)
@[simp] theorem State.setFwl_dins (s : State) (f : FwlState) : (s.setFwl f).dins = s.dins := (rfl)
@[simp] theorem State.setFwl_healths (s : State) (f : FwlState) : (s.setFwl f).healths = s.healths := (rfl)
@[simp] theorem State.setFwl_healthX (s : State) (f : FwlState) : (s.setFwl f).healthX = s.healthX := (rfl)
@[simp] theorem State.setFwl_img (s : State) (f : FwlState) : (s.setFwl f).img = s.img := (rfl)
@[simp] theorem State.setFwl_cox (s : State) (f : FwlState) : (s.setFwl f).cox = s.cox := (rfl)
@[simp] theorem State.setFwl_convs (s : State) (f : FwlState) : (s.setFwl f).convs = s.convs := (rfl)
@[simp] theorem State.setFwl_pairs (s : State) (f : FwlState) : (s.setFwl f).pairs = s.pairs := (rfl)
@[simp] theorem State.setFwl_owRun (s : State) (f : FwlState) : (s.setFwl f).owRun = s.owRun := (rfl)
@[simp] theorem State.setFwl_cal (s : State) (f : FwlState) : (s.setFwl f).cal = s.cal := (rfl)
@[simp] theorem State.setFwl_dma (s : State) (f : FwlState) : (s.setFwl f).dma = s.dma := (rfl)
@[simp] theorem State.setFwl_dmaLast (s : State) (f : FwlState) : (s.setFwl f).dmaLast = s.dmaLast := (rfl)
@[simp] theorem State.setFwl_rmv (s : State) (f : FwlState) : (s.setFwl f).rmv = s.rmv := (rfl)
@[simp] theorem State.setFwl_lpe (s : State) (f : FwlState) : (s.setFwl f).lpe = s.lpe := (rfl)
@[simp] theorem State.setFwl_lsm (s : State) (f : FwlState) : (s.setFwl f).lsm = s.lsm := (rfl)
@[simp] theorem State.setFwl_mig (s : State) (f : FwlState) : (s.setFwl f).mig = s.mig := (rfl)
@[simp] theorem State.setFwl_owed (s : State) (f : FwlState) : (s.setFwl f).owed = s.owed := (rfl)
@[simp] theorem State.setFwl_axes (s : State) (f : FwlState) : (s.setFwl f).axes = s.axes := (rfl)
@[simp] theorem State.setFwl_motHeld (s : State) (f : FwlState) : (s.setFwl f).motHeld = s.motHeld := (rfl)
@[simp] theorem State.setFwl_encs (s : State) (f : FwlState) : (s.setFwl f).encs = s.encs := (rfl)
@[simp] theorem State.setFwl_rce (s : State) (f : FwlState) : (s.setFwl f).rce = s.rce := (rfl)
@[simp] theorem State.setFwl_seq (s : State) (f : FwlState) : (s.setFwl f).seq = s.seq := (rfl)
@[simp] theorem State.setFwl_clos (s : State) (f : FwlState) : (s.setFwl f).clos = s.clos := (rfl)
@[simp] theorem State.setFwl_vdrs (s : State) (f : FwlState) : (s.setFwl f).vdrs = s.vdrs := (rfl)
@[simp] theorem State.setFwl_pvm (s : State) (f : FwlState) : (s.setFwl f).pvm = s.pvm := (rfl)
@[simp] theorem State.setFwl_cyc (s : State) (f : FwlState) : (s.setFwl f).cyc = s.cyc := (rfl)
@[simp] theorem State.setFwl_iml (s : State) (f : FwlState) : (s.setFwl f).iml = s.iml := (rfl)
@[simp] theorem State.setFwl_cans (s : State) (f : FwlState) : (s.setFwl f).cans = s.cans := (rfl)
@[simp] theorem State.setFwl_eths (s : State) (f : FwlState) : (s.setFwl f).eths = s.eths := (rfl)
@[simp] theorem State.setFwl_prps (s : State) (f : FwlState) : (s.setFwl f).prps = s.prps := (rfl)
@[simp] theorem State.setFwl_rra (s : State) (f : FwlState) : (s.setFwl f).rra = s.rra := (rfl)
@[simp] theorem State.setFwl_plk (s : State) (f : FwlState) : (s.setFwl f).plk = s.plk := (rfl)
@[simp] theorem State.setFwl_vlt (s : State) (f : FwlState) : (s.setFwl f).vlt = s.vlt := (rfl)
@[simp] theorem State.setFwl_rpc (s : State) (f : FwlState) : (s.setFwl f).rpc = s.rpc := (rfl)
@[simp] theorem State.setFwl_fwl (s : State) (f : FwlState) : (s.setFwl f).fwl = f := (rfl)

@[simp] theorem State.setTime_pending (s : State) (t : TimeState) : (s.setTime t).pending = s.pending := (rfl)
@[simp] theorem State.setTime_regs (s : State) (t : TimeState) : (s.setTime t).regs = s.regs := (rfl)
@[simp] theorem State.setTime_mem (s : State) (t : TimeState) : (s.setTime t).mem = s.mem := (rfl)
@[simp] theorem State.setTime_fresh (s : State) (t : TimeState) : (s.setTime t).fresh = s.fresh := (rfl)
@[simp] theorem State.setTime_bus (s : State) (t : TimeState) : (s.setTime t).bus = s.bus := (rfl)
@[simp] theorem State.setTime_latch (s : State) (t : TimeState) : (s.setTime t).latch = s.latch := (rfl)
@[simp] theorem State.setTime_claimed (s : State) (t : TimeState) : (s.setTime t).claimed = s.claimed := (rfl)
@[simp] theorem State.setTime_wire (s : State) (t : TimeState) : (s.setTime t).wire = s.wire := (rfl)
@[simp] theorem State.setTime_evl (s : State) (t : TimeState) : (s.setTime t).evl = s.evl := (rfl)
@[simp] theorem State.setTime_courses (s : State) (t : TimeState) : (s.setTime t).courses = s.courses := (rfl)
@[simp] theorem State.setTime_tabs (s : State) (t : TimeState) : (s.setTime t).tabs = s.tabs := (rfl)
@[simp] theorem State.setTime_inflight (s : State) (t : TimeState) : (s.setTime t).inflight = s.inflight := (rfl)
@[simp] theorem State.setTime_dins (s : State) (t : TimeState) : (s.setTime t).dins = s.dins := (rfl)
@[simp] theorem State.setTime_fwl (s : State) (t : TimeState) : (s.setTime t).fwl = s.fwl := (rfl)
@[simp] theorem State.setTime_healths (s : State) (t : TimeState) : (s.setTime t).healths = s.healths := (rfl)
@[simp] theorem State.setTime_healthX (s : State) (t : TimeState) : (s.setTime t).healthX = s.healthX := (rfl)
@[simp] theorem State.setTime_img (s : State) (t : TimeState) : (s.setTime t).img = s.img := (rfl)
@[simp] theorem State.setTime_cox (s : State) (t : TimeState) : (s.setTime t).cox = s.cox := (rfl)
@[simp] theorem State.setTime_convs (s : State) (t : TimeState) : (s.setTime t).convs = s.convs := (rfl)
@[simp] theorem State.setTime_pairs (s : State) (t : TimeState) : (s.setTime t).pairs = s.pairs := (rfl)
@[simp] theorem State.setTime_owRun (s : State) (t : TimeState) : (s.setTime t).owRun = s.owRun := (rfl)
@[simp] theorem State.setTime_cal (s : State) (t : TimeState) : (s.setTime t).cal = s.cal := (rfl)
@[simp] theorem State.setTime_dma (s : State) (t : TimeState) : (s.setTime t).dma = s.dma := (rfl)
@[simp] theorem State.setTime_dmaLast (s : State) (t : TimeState) : (s.setTime t).dmaLast = s.dmaLast := (rfl)
@[simp] theorem State.setTime_rmv (s : State) (t : TimeState) : (s.setTime t).rmv = s.rmv := (rfl)
@[simp] theorem State.setTime_lpe (s : State) (t : TimeState) : (s.setTime t).lpe = s.lpe := (rfl)
@[simp] theorem State.setTime_lsm (s : State) (t : TimeState) : (s.setTime t).lsm = s.lsm := (rfl)
@[simp] theorem State.setTime_mig (s : State) (t : TimeState) : (s.setTime t).mig = s.mig := (rfl)
@[simp] theorem State.setTime_owed (s : State) (t : TimeState) : (s.setTime t).owed = s.owed := (rfl)
@[simp] theorem State.setTime_axes (s : State) (t : TimeState) : (s.setTime t).axes = s.axes := (rfl)
@[simp] theorem State.setTime_motHeld (s : State) (t : TimeState) : (s.setTime t).motHeld = s.motHeld := (rfl)
@[simp] theorem State.setTime_encs (s : State) (t : TimeState) : (s.setTime t).encs = s.encs := (rfl)
@[simp] theorem State.setTime_rce (s : State) (t : TimeState) : (s.setTime t).rce = s.rce := (rfl)
@[simp] theorem State.setTime_seq (s : State) (t : TimeState) : (s.setTime t).seq = s.seq := (rfl)
@[simp] theorem State.setTime_clos (s : State) (t : TimeState) : (s.setTime t).clos = s.clos := (rfl)
@[simp] theorem State.setTime_vdrs (s : State) (t : TimeState) : (s.setTime t).vdrs = s.vdrs := (rfl)
@[simp] theorem State.setTime_pvm (s : State) (t : TimeState) : (s.setTime t).pvm = s.pvm := (rfl)
@[simp] theorem State.setTime_cyc (s : State) (t : TimeState) : (s.setTime t).cyc = s.cyc := (rfl)
@[simp] theorem State.setTime_iml (s : State) (t : TimeState) : (s.setTime t).iml = s.iml := (rfl)
@[simp] theorem State.setTime_cans (s : State) (t : TimeState) : (s.setTime t).cans = s.cans := (rfl)
@[simp] theorem State.setTime_eths (s : State) (t : TimeState) : (s.setTime t).eths = s.eths := (rfl)
@[simp] theorem State.setTime_prps (s : State) (t : TimeState) : (s.setTime t).prps = s.prps := (rfl)
@[simp] theorem State.setTime_rra (s : State) (t : TimeState) : (s.setTime t).rra = s.rra := (rfl)
@[simp] theorem State.setTime_plk (s : State) (t : TimeState) : (s.setTime t).plk = s.plk := (rfl)
@[simp] theorem State.setTime_vlt (s : State) (t : TimeState) : (s.setTime t).vlt = s.vlt := (rfl)
@[simp] theorem State.setTime_rpc (s : State) (t : TimeState) : (s.setTime t).rpc = s.rpc := (rfl)
@[simp] theorem State.setTime_time (s : State) (t : TimeState) : (s.setTime t).time = t := (rfl)

@[simp] theorem State.setEvl_pending (s : State) (e : EvlState) : (s.setEvl e).pending = s.pending := (rfl)
@[simp] theorem State.setEvl_regs (s : State) (e : EvlState) : (s.setEvl e).regs = s.regs := (rfl)
@[simp] theorem State.setEvl_mem (s : State) (e : EvlState) : (s.setEvl e).mem = s.mem := (rfl)
@[simp] theorem State.setEvl_fresh (s : State) (e : EvlState) : (s.setEvl e).fresh = s.fresh := (rfl)
@[simp] theorem State.setEvl_bus (s : State) (e : EvlState) : (s.setEvl e).bus = s.bus := (rfl)
@[simp] theorem State.setEvl_latch (s : State) (e : EvlState) : (s.setEvl e).latch = s.latch := (rfl)
@[simp] theorem State.setEvl_claimed (s : State) (e : EvlState) : (s.setEvl e).claimed = s.claimed := (rfl)
@[simp] theorem State.setEvl_wire (s : State) (e : EvlState) : (s.setEvl e).wire = s.wire := (rfl)
@[simp] theorem State.setEvl_time (s : State) (e : EvlState) : (s.setEvl e).time = s.time := (rfl)
@[simp] theorem State.setEvl_courses (s : State) (e : EvlState) : (s.setEvl e).courses = s.courses := (rfl)
@[simp] theorem State.setEvl_tabs (s : State) (e : EvlState) : (s.setEvl e).tabs = s.tabs := (rfl)
@[simp] theorem State.setEvl_inflight (s : State) (e : EvlState) : (s.setEvl e).inflight = s.inflight := (rfl)
@[simp] theorem State.setEvl_dins (s : State) (e : EvlState) : (s.setEvl e).dins = s.dins := (rfl)
@[simp] theorem State.setEvl_fwl (s : State) (e : EvlState) : (s.setEvl e).fwl = s.fwl := (rfl)
@[simp] theorem State.setEvl_healths (s : State) (e : EvlState) : (s.setEvl e).healths = s.healths := (rfl)
@[simp] theorem State.setEvl_healthX (s : State) (e : EvlState) : (s.setEvl e).healthX = s.healthX := (rfl)
@[simp] theorem State.setEvl_img (s : State) (e : EvlState) : (s.setEvl e).img = s.img := (rfl)
@[simp] theorem State.setEvl_cox (s : State) (e : EvlState) : (s.setEvl e).cox = s.cox := (rfl)
@[simp] theorem State.setEvl_convs (s : State) (e : EvlState) : (s.setEvl e).convs = s.convs := (rfl)
@[simp] theorem State.setEvl_pairs (s : State) (e : EvlState) : (s.setEvl e).pairs = s.pairs := (rfl)
@[simp] theorem State.setEvl_owRun (s : State) (e : EvlState) : (s.setEvl e).owRun = s.owRun := (rfl)
@[simp] theorem State.setEvl_cal (s : State) (e : EvlState) : (s.setEvl e).cal = s.cal := (rfl)
@[simp] theorem State.setEvl_dma (s : State) (e : EvlState) : (s.setEvl e).dma = s.dma := (rfl)
@[simp] theorem State.setEvl_dmaLast (s : State) (e : EvlState) : (s.setEvl e).dmaLast = s.dmaLast := (rfl)
@[simp] theorem State.setEvl_rmv (s : State) (e : EvlState) : (s.setEvl e).rmv = s.rmv := (rfl)
@[simp] theorem State.setEvl_lpe (s : State) (e : EvlState) : (s.setEvl e).lpe = s.lpe := (rfl)
@[simp] theorem State.setEvl_lsm (s : State) (e : EvlState) : (s.setEvl e).lsm = s.lsm := (rfl)
@[simp] theorem State.setEvl_mig (s : State) (e : EvlState) : (s.setEvl e).mig = s.mig := (rfl)
@[simp] theorem State.setEvl_owed (s : State) (e : EvlState) : (s.setEvl e).owed = s.owed := (rfl)
@[simp] theorem State.setEvl_axes (s : State) (e : EvlState) : (s.setEvl e).axes = s.axes := (rfl)
@[simp] theorem State.setEvl_motHeld (s : State) (e : EvlState) : (s.setEvl e).motHeld = s.motHeld := (rfl)
@[simp] theorem State.setEvl_encs (s : State) (e : EvlState) : (s.setEvl e).encs = s.encs := (rfl)
@[simp] theorem State.setEvl_rce (s : State) (e : EvlState) : (s.setEvl e).rce = s.rce := (rfl)
@[simp] theorem State.setEvl_seq (s : State) (e : EvlState) : (s.setEvl e).seq = s.seq := (rfl)
@[simp] theorem State.setEvl_clos (s : State) (e : EvlState) : (s.setEvl e).clos = s.clos := (rfl)
@[simp] theorem State.setEvl_vdrs (s : State) (e : EvlState) : (s.setEvl e).vdrs = s.vdrs := (rfl)
@[simp] theorem State.setEvl_pvm (s : State) (e : EvlState) : (s.setEvl e).pvm = s.pvm := (rfl)
@[simp] theorem State.setEvl_cyc (s : State) (e : EvlState) : (s.setEvl e).cyc = s.cyc := (rfl)
@[simp] theorem State.setEvl_iml (s : State) (e : EvlState) : (s.setEvl e).iml = s.iml := (rfl)
@[simp] theorem State.setEvl_cans (s : State) (e : EvlState) : (s.setEvl e).cans = s.cans := (rfl)
@[simp] theorem State.setEvl_eths (s : State) (e : EvlState) : (s.setEvl e).eths = s.eths := (rfl)
@[simp] theorem State.setEvl_prps (s : State) (e : EvlState) : (s.setEvl e).prps = s.prps := (rfl)
@[simp] theorem State.setEvl_rra (s : State) (e : EvlState) : (s.setEvl e).rra = s.rra := (rfl)
@[simp] theorem State.setEvl_plk (s : State) (e : EvlState) : (s.setEvl e).plk = s.plk := (rfl)
@[simp] theorem State.setEvl_vlt (s : State) (e : EvlState) : (s.setEvl e).vlt = s.vlt := (rfl)
@[simp] theorem State.setEvl_rpc (s : State) (e : EvlState) : (s.setEvl e).rpc = s.rpc := (rfl)
@[simp] theorem State.setEvl_evl (s : State) (e : EvlState) : (s.setEvl e).evl = e := (rfl)

@[simp] theorem State.setBus_pending (s : State) (b : BusResp) : (s.setBus b).pending = s.pending := (rfl)
@[simp] theorem State.setBus_regs (s : State) (b : BusResp) : (s.setBus b).regs = s.regs := (rfl)
@[simp] theorem State.setBus_mem (s : State) (b : BusResp) : (s.setBus b).mem = s.mem := (rfl)
@[simp] theorem State.setBus_fresh (s : State) (b : BusResp) : (s.setBus b).fresh = s.fresh := (rfl)
@[simp] theorem State.setBus_latch (s : State) (b : BusResp) : (s.setBus b).latch = s.latch := (rfl)
@[simp] theorem State.setBus_claimed (s : State) (b : BusResp) : (s.setBus b).claimed = s.claimed := (rfl)
@[simp] theorem State.setBus_wire (s : State) (b : BusResp) : (s.setBus b).wire = s.wire := (rfl)
@[simp] theorem State.setBus_evl (s : State) (b : BusResp) : (s.setBus b).evl = s.evl := (rfl)
@[simp] theorem State.setBus_time (s : State) (b : BusResp) : (s.setBus b).time = s.time := (rfl)
@[simp] theorem State.setBus_courses (s : State) (b : BusResp) : (s.setBus b).courses = s.courses := (rfl)
@[simp] theorem State.setBus_tabs (s : State) (b : BusResp) : (s.setBus b).tabs = s.tabs := (rfl)
@[simp] theorem State.setBus_inflight (s : State) (b : BusResp) : (s.setBus b).inflight = s.inflight := (rfl)
@[simp] theorem State.setBus_dins (s : State) (b : BusResp) : (s.setBus b).dins = s.dins := (rfl)
@[simp] theorem State.setBus_fwl (s : State) (b : BusResp) : (s.setBus b).fwl = s.fwl := (rfl)
@[simp] theorem State.setBus_healths (s : State) (b : BusResp) : (s.setBus b).healths = s.healths := (rfl)
@[simp] theorem State.setBus_healthX (s : State) (b : BusResp) : (s.setBus b).healthX = s.healthX := (rfl)
@[simp] theorem State.setBus_img (s : State) (b : BusResp) : (s.setBus b).img = s.img := (rfl)
@[simp] theorem State.setBus_cox (s : State) (b : BusResp) : (s.setBus b).cox = s.cox := (rfl)
@[simp] theorem State.setBus_convs (s : State) (b : BusResp) : (s.setBus b).convs = s.convs := (rfl)
@[simp] theorem State.setBus_pairs (s : State) (b : BusResp) : (s.setBus b).pairs = s.pairs := (rfl)
@[simp] theorem State.setBus_owRun (s : State) (b : BusResp) : (s.setBus b).owRun = s.owRun := (rfl)
@[simp] theorem State.setBus_cal (s : State) (b : BusResp) : (s.setBus b).cal = s.cal := (rfl)
@[simp] theorem State.setBus_dma (s : State) (b : BusResp) : (s.setBus b).dma = s.dma := (rfl)
@[simp] theorem State.setBus_dmaLast (s : State) (b : BusResp) : (s.setBus b).dmaLast = s.dmaLast := (rfl)
@[simp] theorem State.setBus_rmv (s : State) (b : BusResp) : (s.setBus b).rmv = s.rmv := (rfl)
@[simp] theorem State.setBus_lpe (s : State) (b : BusResp) : (s.setBus b).lpe = s.lpe := (rfl)
@[simp] theorem State.setBus_lsm (s : State) (b : BusResp) : (s.setBus b).lsm = s.lsm := (rfl)
@[simp] theorem State.setBus_mig (s : State) (b : BusResp) : (s.setBus b).mig = s.mig := (rfl)
@[simp] theorem State.setBus_owed (s : State) (b : BusResp) : (s.setBus b).owed = s.owed := (rfl)
@[simp] theorem State.setBus_axes (s : State) (b : BusResp) : (s.setBus b).axes = s.axes := (rfl)
@[simp] theorem State.setBus_motHeld (s : State) (b : BusResp) : (s.setBus b).motHeld = s.motHeld := (rfl)
@[simp] theorem State.setBus_encs (s : State) (b : BusResp) : (s.setBus b).encs = s.encs := (rfl)
@[simp] theorem State.setBus_rce (s : State) (b : BusResp) : (s.setBus b).rce = s.rce := (rfl)
@[simp] theorem State.setBus_seq (s : State) (b : BusResp) : (s.setBus b).seq = s.seq := (rfl)
@[simp] theorem State.setBus_clos (s : State) (b : BusResp) : (s.setBus b).clos = s.clos := (rfl)
@[simp] theorem State.setBus_vdrs (s : State) (b : BusResp) : (s.setBus b).vdrs = s.vdrs := (rfl)
@[simp] theorem State.setBus_pvm (s : State) (b : BusResp) : (s.setBus b).pvm = s.pvm := (rfl)
@[simp] theorem State.setBus_cyc (s : State) (b : BusResp) : (s.setBus b).cyc = s.cyc := (rfl)
@[simp] theorem State.setBus_iml (s : State) (b : BusResp) : (s.setBus b).iml = s.iml := (rfl)
@[simp] theorem State.setBus_cans (s : State) (b : BusResp) : (s.setBus b).cans = s.cans := (rfl)
@[simp] theorem State.setBus_eths (s : State) (b : BusResp) : (s.setBus b).eths = s.eths := (rfl)
@[simp] theorem State.setBus_prps (s : State) (b : BusResp) : (s.setBus b).prps = s.prps := (rfl)
@[simp] theorem State.setBus_rra (s : State) (b : BusResp) : (s.setBus b).rra = s.rra := (rfl)
@[simp] theorem State.setBus_plk (s : State) (b : BusResp) : (s.setBus b).plk = s.plk := (rfl)
@[simp] theorem State.setBus_vlt (s : State) (b : BusResp) : (s.setBus b).vlt = s.vlt := (rfl)
@[simp] theorem State.setBus_rpc (s : State) (b : BusResp) : (s.setBus b).rpc = s.rpc := (rfl)
@[simp] theorem State.setBus_bus (s : State) (b : BusResp) : (s.setBus b).bus = b := (rfl)

@[simp] theorem State.setMig_pending (s : State) (m : Option Migration) : (s.setMig m).pending = s.pending := (rfl)
@[simp] theorem State.setMig_regs (s : State) (m : Option Migration) : (s.setMig m).regs = s.regs := (rfl)
@[simp] theorem State.setMig_mem (s : State) (m : Option Migration) : (s.setMig m).mem = s.mem := (rfl)
@[simp] theorem State.setMig_fresh (s : State) (m : Option Migration) : (s.setMig m).fresh = s.fresh := (rfl)
@[simp] theorem State.setMig_bus (s : State) (m : Option Migration) : (s.setMig m).bus = s.bus := (rfl)
@[simp] theorem State.setMig_latch (s : State) (m : Option Migration) : (s.setMig m).latch = s.latch := (rfl)
@[simp] theorem State.setMig_claimed (s : State) (m : Option Migration) : (s.setMig m).claimed = s.claimed := (rfl)
@[simp] theorem State.setMig_wire (s : State) (m : Option Migration) : (s.setMig m).wire = s.wire := (rfl)
@[simp] theorem State.setMig_evl (s : State) (m : Option Migration) : (s.setMig m).evl = s.evl := (rfl)
@[simp] theorem State.setMig_time (s : State) (m : Option Migration) : (s.setMig m).time = s.time := (rfl)
@[simp] theorem State.setMig_courses (s : State) (m : Option Migration) : (s.setMig m).courses = s.courses := (rfl)
@[simp] theorem State.setMig_tabs (s : State) (m : Option Migration) : (s.setMig m).tabs = s.tabs := (rfl)
@[simp] theorem State.setMig_inflight (s : State) (m : Option Migration) : (s.setMig m).inflight = s.inflight := (rfl)
@[simp] theorem State.setMig_dins (s : State) (m : Option Migration) : (s.setMig m).dins = s.dins := (rfl)
@[simp] theorem State.setMig_fwl (s : State) (m : Option Migration) : (s.setMig m).fwl = s.fwl := (rfl)
@[simp] theorem State.setMig_healths (s : State) (m : Option Migration) : (s.setMig m).healths = s.healths := (rfl)
@[simp] theorem State.setMig_healthX (s : State) (m : Option Migration) : (s.setMig m).healthX = s.healthX := (rfl)
@[simp] theorem State.setMig_img (s : State) (m : Option Migration) : (s.setMig m).img = s.img := (rfl)
@[simp] theorem State.setMig_cox (s : State) (m : Option Migration) : (s.setMig m).cox = s.cox := (rfl)
@[simp] theorem State.setMig_convs (s : State) (m : Option Migration) : (s.setMig m).convs = s.convs := (rfl)
@[simp] theorem State.setMig_pairs (s : State) (m : Option Migration) : (s.setMig m).pairs = s.pairs := (rfl)
@[simp] theorem State.setMig_owRun (s : State) (m : Option Migration) : (s.setMig m).owRun = s.owRun := (rfl)
@[simp] theorem State.setMig_cal (s : State) (m : Option Migration) : (s.setMig m).cal = s.cal := (rfl)
@[simp] theorem State.setMig_dma (s : State) (m : Option Migration) : (s.setMig m).dma = s.dma := (rfl)
@[simp] theorem State.setMig_dmaLast (s : State) (m : Option Migration) : (s.setMig m).dmaLast = s.dmaLast := (rfl)
@[simp] theorem State.setMig_rmv (s : State) (m : Option Migration) : (s.setMig m).rmv = s.rmv := (rfl)
@[simp] theorem State.setMig_lpe (s : State) (m : Option Migration) : (s.setMig m).lpe = s.lpe := (rfl)
@[simp] theorem State.setMig_lsm (s : State) (m : Option Migration) : (s.setMig m).lsm = s.lsm := (rfl)
@[simp] theorem State.setMig_owed (s : State) (m : Option Migration) : (s.setMig m).owed = s.owed := (rfl)
@[simp] theorem State.setMig_axes (s : State) (m : Option Migration) : (s.setMig m).axes = s.axes := (rfl)
@[simp] theorem State.setMig_motHeld (s : State) (m : Option Migration) : (s.setMig m).motHeld = s.motHeld := (rfl)
@[simp] theorem State.setMig_encs (s : State) (m : Option Migration) : (s.setMig m).encs = s.encs := (rfl)
@[simp] theorem State.setMig_rce (s : State) (m : Option Migration) : (s.setMig m).rce = s.rce := (rfl)
@[simp] theorem State.setMig_seq (s : State) (m : Option Migration) : (s.setMig m).seq = s.seq := (rfl)
@[simp] theorem State.setMig_clos (s : State) (m : Option Migration) : (s.setMig m).clos = s.clos := (rfl)
@[simp] theorem State.setMig_vdrs (s : State) (m : Option Migration) : (s.setMig m).vdrs = s.vdrs := (rfl)
@[simp] theorem State.setMig_pvm (s : State) (m : Option Migration) : (s.setMig m).pvm = s.pvm := (rfl)
@[simp] theorem State.setMig_cyc (s : State) (m : Option Migration) : (s.setMig m).cyc = s.cyc := (rfl)
@[simp] theorem State.setMig_iml (s : State) (m : Option Migration) : (s.setMig m).iml = s.iml := (rfl)
@[simp] theorem State.setMig_cans (s : State) (m : Option Migration) : (s.setMig m).cans = s.cans := (rfl)
@[simp] theorem State.setMig_eths (s : State) (m : Option Migration) : (s.setMig m).eths = s.eths := (rfl)
@[simp] theorem State.setMig_prps (s : State) (m : Option Migration) : (s.setMig m).prps = s.prps := (rfl)
@[simp] theorem State.setMig_rra (s : State) (m : Option Migration) : (s.setMig m).rra = s.rra := (rfl)
@[simp] theorem State.setMig_plk (s : State) (m : Option Migration) : (s.setMig m).plk = s.plk := (rfl)
@[simp] theorem State.setMig_vlt (s : State) (m : Option Migration) : (s.setMig m).vlt = s.vlt := (rfl)
@[simp] theorem State.setMig_rpc (s : State) (m : Option Migration) : (s.setMig m).rpc = s.rpc := (rfl)
@[simp] theorem State.setMig_mig (s : State) (m : Option Migration) : (s.setMig m).mig = m := (rfl)

@[simp] theorem State.setImg_pending (s : State) (t : ImgTables) : (s.setImg t).pending = s.pending := (rfl)
@[simp] theorem State.setImg_regs (s : State) (t : ImgTables) : (s.setImg t).regs = s.regs := (rfl)
@[simp] theorem State.setImg_mem (s : State) (t : ImgTables) : (s.setImg t).mem = s.mem := (rfl)
@[simp] theorem State.setImg_fresh (s : State) (t : ImgTables) : (s.setImg t).fresh = s.fresh := (rfl)
@[simp] theorem State.setImg_bus (s : State) (t : ImgTables) : (s.setImg t).bus = s.bus := (rfl)
@[simp] theorem State.setImg_latch (s : State) (t : ImgTables) : (s.setImg t).latch = s.latch := (rfl)
@[simp] theorem State.setImg_claimed (s : State) (t : ImgTables) : (s.setImg t).claimed = s.claimed := (rfl)
@[simp] theorem State.setImg_wire (s : State) (t : ImgTables) : (s.setImg t).wire = s.wire := (rfl)
@[simp] theorem State.setImg_evl (s : State) (t : ImgTables) : (s.setImg t).evl = s.evl := (rfl)
@[simp] theorem State.setImg_time (s : State) (t : ImgTables) : (s.setImg t).time = s.time := (rfl)
@[simp] theorem State.setImg_courses (s : State) (t : ImgTables) : (s.setImg t).courses = s.courses := (rfl)
@[simp] theorem State.setImg_tabs (s : State) (t : ImgTables) : (s.setImg t).tabs = s.tabs := (rfl)
@[simp] theorem State.setImg_inflight (s : State) (t : ImgTables) : (s.setImg t).inflight = s.inflight := (rfl)
@[simp] theorem State.setImg_dins (s : State) (t : ImgTables) : (s.setImg t).dins = s.dins := (rfl)
@[simp] theorem State.setImg_fwl (s : State) (t : ImgTables) : (s.setImg t).fwl = s.fwl := (rfl)
@[simp] theorem State.setImg_healths (s : State) (t : ImgTables) : (s.setImg t).healths = s.healths := (rfl)
@[simp] theorem State.setImg_healthX (s : State) (t : ImgTables) : (s.setImg t).healthX = s.healthX := (rfl)
@[simp] theorem State.setImg_cox (s : State) (t : ImgTables) : (s.setImg t).cox = s.cox := (rfl)
@[simp] theorem State.setImg_convs (s : State) (t : ImgTables) : (s.setImg t).convs = s.convs := (rfl)
@[simp] theorem State.setImg_pairs (s : State) (t : ImgTables) : (s.setImg t).pairs = s.pairs := (rfl)
@[simp] theorem State.setImg_owRun (s : State) (t : ImgTables) : (s.setImg t).owRun = s.owRun := (rfl)
@[simp] theorem State.setImg_cal (s : State) (t : ImgTables) : (s.setImg t).cal = s.cal := (rfl)
@[simp] theorem State.setImg_dma (s : State) (t : ImgTables) : (s.setImg t).dma = s.dma := (rfl)
@[simp] theorem State.setImg_dmaLast (s : State) (t : ImgTables) : (s.setImg t).dmaLast = s.dmaLast := (rfl)
@[simp] theorem State.setImg_rmv (s : State) (t : ImgTables) : (s.setImg t).rmv = s.rmv := (rfl)
@[simp] theorem State.setImg_lpe (s : State) (t : ImgTables) : (s.setImg t).lpe = s.lpe := (rfl)
@[simp] theorem State.setImg_lsm (s : State) (t : ImgTables) : (s.setImg t).lsm = s.lsm := (rfl)
@[simp] theorem State.setImg_mig (s : State) (t : ImgTables) : (s.setImg t).mig = s.mig := (rfl)
@[simp] theorem State.setImg_owed (s : State) (t : ImgTables) : (s.setImg t).owed = s.owed := (rfl)
@[simp] theorem State.setImg_axes (s : State) (t : ImgTables) : (s.setImg t).axes = s.axes := (rfl)
@[simp] theorem State.setImg_motHeld (s : State) (t : ImgTables) : (s.setImg t).motHeld = s.motHeld := (rfl)
@[simp] theorem State.setImg_encs (s : State) (t : ImgTables) : (s.setImg t).encs = s.encs := (rfl)
@[simp] theorem State.setImg_rce (s : State) (t : ImgTables) : (s.setImg t).rce = s.rce := (rfl)
@[simp] theorem State.setImg_seq (s : State) (t : ImgTables) : (s.setImg t).seq = s.seq := (rfl)
@[simp] theorem State.setImg_clos (s : State) (t : ImgTables) : (s.setImg t).clos = s.clos := (rfl)
@[simp] theorem State.setImg_vdrs (s : State) (t : ImgTables) : (s.setImg t).vdrs = s.vdrs := (rfl)
@[simp] theorem State.setImg_pvm (s : State) (t : ImgTables) : (s.setImg t).pvm = s.pvm := (rfl)
@[simp] theorem State.setImg_cyc (s : State) (t : ImgTables) : (s.setImg t).cyc = s.cyc := (rfl)
@[simp] theorem State.setImg_iml (s : State) (t : ImgTables) : (s.setImg t).iml = s.iml := (rfl)
@[simp] theorem State.setImg_cans (s : State) (t : ImgTables) : (s.setImg t).cans = s.cans := (rfl)
@[simp] theorem State.setImg_eths (s : State) (t : ImgTables) : (s.setImg t).eths = s.eths := (rfl)
@[simp] theorem State.setImg_prps (s : State) (t : ImgTables) : (s.setImg t).prps = s.prps := (rfl)
@[simp] theorem State.setImg_rra (s : State) (t : ImgTables) : (s.setImg t).rra = s.rra := (rfl)
@[simp] theorem State.setImg_plk (s : State) (t : ImgTables) : (s.setImg t).plk = s.plk := (rfl)
@[simp] theorem State.setImg_vlt (s : State) (t : ImgTables) : (s.setImg t).vlt = s.vlt := (rfl)
@[simp] theorem State.setImg_rpc (s : State) (t : ImgTables) : (s.setImg t).rpc = s.rpc := (rfl)
@[simp] theorem State.setImg_img (s : State) (t : ImgTables) : (s.setImg t).img = t := (rfl)

@[simp] theorem State.setCal_pending (s : State) (c : Cal) : (s.setCal c).pending = s.pending := (rfl)
@[simp] theorem State.setCal_regs (s : State) (c : Cal) : (s.setCal c).regs = s.regs := (rfl)
@[simp] theorem State.setCal_mem (s : State) (c : Cal) : (s.setCal c).mem = s.mem := (rfl)
@[simp] theorem State.setCal_fresh (s : State) (c : Cal) : (s.setCal c).fresh = s.fresh := (rfl)
@[simp] theorem State.setCal_bus (s : State) (c : Cal) : (s.setCal c).bus = s.bus := (rfl)
@[simp] theorem State.setCal_latch (s : State) (c : Cal) : (s.setCal c).latch = s.latch := (rfl)
@[simp] theorem State.setCal_claimed (s : State) (c : Cal) : (s.setCal c).claimed = s.claimed := (rfl)
@[simp] theorem State.setCal_wire (s : State) (c : Cal) : (s.setCal c).wire = s.wire := (rfl)
@[simp] theorem State.setCal_evl (s : State) (c : Cal) : (s.setCal c).evl = s.evl := (rfl)
@[simp] theorem State.setCal_time (s : State) (c : Cal) : (s.setCal c).time = s.time := (rfl)
@[simp] theorem State.setCal_courses (s : State) (c : Cal) : (s.setCal c).courses = s.courses := (rfl)
@[simp] theorem State.setCal_tabs (s : State) (c : Cal) : (s.setCal c).tabs = s.tabs := (rfl)
@[simp] theorem State.setCal_inflight (s : State) (c : Cal) : (s.setCal c).inflight = s.inflight := (rfl)
@[simp] theorem State.setCal_dins (s : State) (c : Cal) : (s.setCal c).dins = s.dins := (rfl)
@[simp] theorem State.setCal_fwl (s : State) (c : Cal) : (s.setCal c).fwl = s.fwl := (rfl)
@[simp] theorem State.setCal_healths (s : State) (c : Cal) : (s.setCal c).healths = s.healths := (rfl)
@[simp] theorem State.setCal_healthX (s : State) (c : Cal) : (s.setCal c).healthX = s.healthX := (rfl)
@[simp] theorem State.setCal_img (s : State) (c : Cal) : (s.setCal c).img = s.img := (rfl)
@[simp] theorem State.setCal_cox (s : State) (c : Cal) : (s.setCal c).cox = s.cox := (rfl)
@[simp] theorem State.setCal_convs (s : State) (c : Cal) : (s.setCal c).convs = s.convs := (rfl)
@[simp] theorem State.setCal_pairs (s : State) (c : Cal) : (s.setCal c).pairs = s.pairs := (rfl)
@[simp] theorem State.setCal_owRun (s : State) (c : Cal) : (s.setCal c).owRun = s.owRun := (rfl)
@[simp] theorem State.setCal_dma (s : State) (c : Cal) : (s.setCal c).dma = s.dma := (rfl)
@[simp] theorem State.setCal_dmaLast (s : State) (c : Cal) : (s.setCal c).dmaLast = s.dmaLast := (rfl)
@[simp] theorem State.setCal_rmv (s : State) (c : Cal) : (s.setCal c).rmv = s.rmv := (rfl)
@[simp] theorem State.setCal_lpe (s : State) (c : Cal) : (s.setCal c).lpe = s.lpe := (rfl)
@[simp] theorem State.setCal_lsm (s : State) (c : Cal) : (s.setCal c).lsm = s.lsm := (rfl)
@[simp] theorem State.setCal_mig (s : State) (c : Cal) : (s.setCal c).mig = s.mig := (rfl)
@[simp] theorem State.setCal_owed (s : State) (c : Cal) : (s.setCal c).owed = s.owed := (rfl)
@[simp] theorem State.setCal_axes (s : State) (c : Cal) : (s.setCal c).axes = s.axes := (rfl)
@[simp] theorem State.setCal_motHeld (s : State) (c : Cal) : (s.setCal c).motHeld = s.motHeld := (rfl)
@[simp] theorem State.setCal_encs (s : State) (c : Cal) : (s.setCal c).encs = s.encs := (rfl)
@[simp] theorem State.setCal_rce (s : State) (c : Cal) : (s.setCal c).rce = s.rce := (rfl)
@[simp] theorem State.setCal_seq (s : State) (c : Cal) : (s.setCal c).seq = s.seq := (rfl)
@[simp] theorem State.setCal_clos (s : State) (c : Cal) : (s.setCal c).clos = s.clos := (rfl)
@[simp] theorem State.setCal_vdrs (s : State) (c : Cal) : (s.setCal c).vdrs = s.vdrs := (rfl)
@[simp] theorem State.setCal_pvm (s : State) (c : Cal) : (s.setCal c).pvm = s.pvm := (rfl)
@[simp] theorem State.setCal_cyc (s : State) (c : Cal) : (s.setCal c).cyc = s.cyc := (rfl)
@[simp] theorem State.setCal_iml (s : State) (c : Cal) : (s.setCal c).iml = s.iml := (rfl)
@[simp] theorem State.setCal_cans (s : State) (c : Cal) : (s.setCal c).cans = s.cans := (rfl)
@[simp] theorem State.setCal_eths (s : State) (c : Cal) : (s.setCal c).eths = s.eths := (rfl)
@[simp] theorem State.setCal_prps (s : State) (c : Cal) : (s.setCal c).prps = s.prps := (rfl)
@[simp] theorem State.setCal_rra (s : State) (c : Cal) : (s.setCal c).rra = s.rra := (rfl)
@[simp] theorem State.setCal_plk (s : State) (c : Cal) : (s.setCal c).plk = s.plk := (rfl)
@[simp] theorem State.setCal_vlt (s : State) (c : Cal) : (s.setCal c).vlt = s.vlt := (rfl)
@[simp] theorem State.setCal_rpc (s : State) (c : Cal) : (s.setCal c).rpc = s.rpc := (rfl)
@[simp] theorem State.setCal_cal (s : State) (c : Cal) : (s.setCal c).cal = c := (rfl)

@[simp] theorem State.setOwRun_pending (s : State) (l : List (Nat × Nat)) : (s.setOwRun l).pending = s.pending := (rfl)
@[simp] theorem State.setOwRun_regs (s : State) (l : List (Nat × Nat)) : (s.setOwRun l).regs = s.regs := (rfl)
@[simp] theorem State.setOwRun_mem (s : State) (l : List (Nat × Nat)) : (s.setOwRun l).mem = s.mem := (rfl)
@[simp] theorem State.setOwRun_fresh (s : State) (l : List (Nat × Nat)) : (s.setOwRun l).fresh = s.fresh := (rfl)
@[simp] theorem State.setOwRun_bus (s : State) (l : List (Nat × Nat)) : (s.setOwRun l).bus = s.bus := (rfl)
@[simp] theorem State.setOwRun_latch (s : State) (l : List (Nat × Nat)) : (s.setOwRun l).latch = s.latch := (rfl)
@[simp] theorem State.setOwRun_claimed (s : State) (l : List (Nat × Nat)) : (s.setOwRun l).claimed = s.claimed := (rfl)
@[simp] theorem State.setOwRun_wire (s : State) (l : List (Nat × Nat)) : (s.setOwRun l).wire = s.wire := (rfl)
@[simp] theorem State.setOwRun_evl (s : State) (l : List (Nat × Nat)) : (s.setOwRun l).evl = s.evl := (rfl)
@[simp] theorem State.setOwRun_time (s : State) (l : List (Nat × Nat)) : (s.setOwRun l).time = s.time := (rfl)
@[simp] theorem State.setOwRun_courses (s : State) (l : List (Nat × Nat)) : (s.setOwRun l).courses = s.courses := (rfl)
@[simp] theorem State.setOwRun_tabs (s : State) (l : List (Nat × Nat)) : (s.setOwRun l).tabs = s.tabs := (rfl)
@[simp] theorem State.setOwRun_inflight (s : State) (l : List (Nat × Nat)) : (s.setOwRun l).inflight = s.inflight := (rfl)
@[simp] theorem State.setOwRun_dins (s : State) (l : List (Nat × Nat)) : (s.setOwRun l).dins = s.dins := (rfl)
@[simp] theorem State.setOwRun_fwl (s : State) (l : List (Nat × Nat)) : (s.setOwRun l).fwl = s.fwl := (rfl)
@[simp] theorem State.setOwRun_healths (s : State) (l : List (Nat × Nat)) : (s.setOwRun l).healths = s.healths := (rfl)
@[simp] theorem State.setOwRun_healthX (s : State) (l : List (Nat × Nat)) : (s.setOwRun l).healthX = s.healthX := (rfl)
@[simp] theorem State.setOwRun_img (s : State) (l : List (Nat × Nat)) : (s.setOwRun l).img = s.img := (rfl)
@[simp] theorem State.setOwRun_cox (s : State) (l : List (Nat × Nat)) : (s.setOwRun l).cox = s.cox := (rfl)
@[simp] theorem State.setOwRun_convs (s : State) (l : List (Nat × Nat)) : (s.setOwRun l).convs = s.convs := (rfl)
@[simp] theorem State.setOwRun_pairs (s : State) (l : List (Nat × Nat)) : (s.setOwRun l).pairs = s.pairs := (rfl)
@[simp] theorem State.setOwRun_cal (s : State) (l : List (Nat × Nat)) : (s.setOwRun l).cal = s.cal := (rfl)
@[simp] theorem State.setOwRun_dma (s : State) (l : List (Nat × Nat)) : (s.setOwRun l).dma = s.dma := (rfl)
@[simp] theorem State.setOwRun_dmaLast (s : State) (l : List (Nat × Nat)) : (s.setOwRun l).dmaLast = s.dmaLast := (rfl)
@[simp] theorem State.setOwRun_rmv (s : State) (l : List (Nat × Nat)) : (s.setOwRun l).rmv = s.rmv := (rfl)
@[simp] theorem State.setOwRun_lpe (s : State) (l : List (Nat × Nat)) : (s.setOwRun l).lpe = s.lpe := (rfl)
@[simp] theorem State.setOwRun_lsm (s : State) (l : List (Nat × Nat)) : (s.setOwRun l).lsm = s.lsm := (rfl)
@[simp] theorem State.setOwRun_mig (s : State) (l : List (Nat × Nat)) : (s.setOwRun l).mig = s.mig := (rfl)
@[simp] theorem State.setOwRun_owed (s : State) (l : List (Nat × Nat)) : (s.setOwRun l).owed = s.owed := (rfl)
@[simp] theorem State.setOwRun_axes (s : State) (l : List (Nat × Nat)) : (s.setOwRun l).axes = s.axes := (rfl)
@[simp] theorem State.setOwRun_motHeld (s : State) (l : List (Nat × Nat)) : (s.setOwRun l).motHeld = s.motHeld := (rfl)
@[simp] theorem State.setOwRun_encs (s : State) (l : List (Nat × Nat)) : (s.setOwRun l).encs = s.encs := (rfl)
@[simp] theorem State.setOwRun_rce (s : State) (l : List (Nat × Nat)) : (s.setOwRun l).rce = s.rce := (rfl)
@[simp] theorem State.setOwRun_seq (s : State) (l : List (Nat × Nat)) : (s.setOwRun l).seq = s.seq := (rfl)
@[simp] theorem State.setOwRun_clos (s : State) (l : List (Nat × Nat)) : (s.setOwRun l).clos = s.clos := (rfl)
@[simp] theorem State.setOwRun_vdrs (s : State) (l : List (Nat × Nat)) : (s.setOwRun l).vdrs = s.vdrs := (rfl)
@[simp] theorem State.setOwRun_pvm (s : State) (l : List (Nat × Nat)) : (s.setOwRun l).pvm = s.pvm := (rfl)
@[simp] theorem State.setOwRun_cyc (s : State) (l : List (Nat × Nat)) : (s.setOwRun l).cyc = s.cyc := (rfl)
@[simp] theorem State.setOwRun_iml (s : State) (l : List (Nat × Nat)) : (s.setOwRun l).iml = s.iml := (rfl)
@[simp] theorem State.setOwRun_cans (s : State) (l : List (Nat × Nat)) : (s.setOwRun l).cans = s.cans := (rfl)
@[simp] theorem State.setOwRun_eths (s : State) (l : List (Nat × Nat)) : (s.setOwRun l).eths = s.eths := (rfl)
@[simp] theorem State.setOwRun_prps (s : State) (l : List (Nat × Nat)) : (s.setOwRun l).prps = s.prps := (rfl)
@[simp] theorem State.setOwRun_rra (s : State) (l : List (Nat × Nat)) : (s.setOwRun l).rra = s.rra := (rfl)
@[simp] theorem State.setOwRun_plk (s : State) (l : List (Nat × Nat)) : (s.setOwRun l).plk = s.plk := (rfl)
@[simp] theorem State.setOwRun_vlt (s : State) (l : List (Nat × Nat)) : (s.setOwRun l).vlt = s.vlt := (rfl)
@[simp] theorem State.setOwRun_rpc (s : State) (l : List (Nat × Nat)) : (s.setOwRun l).rpc = s.rpc := (rfl)
@[simp] theorem State.setOwRun_owRun (s : State) (l : List (Nat × Nat)) : (s.setOwRun l).owRun = l := (rfl)

@[simp] theorem State.setOwed_pending (s : State) (l : List HeldAcc) : (s.setOwed l).pending = s.pending := (rfl)
@[simp] theorem State.setOwed_regs (s : State) (l : List HeldAcc) : (s.setOwed l).regs = s.regs := (rfl)
@[simp] theorem State.setOwed_mem (s : State) (l : List HeldAcc) : (s.setOwed l).mem = s.mem := (rfl)
@[simp] theorem State.setOwed_fresh (s : State) (l : List HeldAcc) : (s.setOwed l).fresh = s.fresh := (rfl)
@[simp] theorem State.setOwed_bus (s : State) (l : List HeldAcc) : (s.setOwed l).bus = s.bus := (rfl)
@[simp] theorem State.setOwed_latch (s : State) (l : List HeldAcc) : (s.setOwed l).latch = s.latch := (rfl)
@[simp] theorem State.setOwed_claimed (s : State) (l : List HeldAcc) : (s.setOwed l).claimed = s.claimed := (rfl)
@[simp] theorem State.setOwed_wire (s : State) (l : List HeldAcc) : (s.setOwed l).wire = s.wire := (rfl)
@[simp] theorem State.setOwed_evl (s : State) (l : List HeldAcc) : (s.setOwed l).evl = s.evl := (rfl)
@[simp] theorem State.setOwed_time (s : State) (l : List HeldAcc) : (s.setOwed l).time = s.time := (rfl)
@[simp] theorem State.setOwed_courses (s : State) (l : List HeldAcc) : (s.setOwed l).courses = s.courses := (rfl)
@[simp] theorem State.setOwed_tabs (s : State) (l : List HeldAcc) : (s.setOwed l).tabs = s.tabs := (rfl)
@[simp] theorem State.setOwed_inflight (s : State) (l : List HeldAcc) : (s.setOwed l).inflight = s.inflight := (rfl)
@[simp] theorem State.setOwed_dins (s : State) (l : List HeldAcc) : (s.setOwed l).dins = s.dins := (rfl)
@[simp] theorem State.setOwed_fwl (s : State) (l : List HeldAcc) : (s.setOwed l).fwl = s.fwl := (rfl)
@[simp] theorem State.setOwed_healths (s : State) (l : List HeldAcc) : (s.setOwed l).healths = s.healths := (rfl)
@[simp] theorem State.setOwed_healthX (s : State) (l : List HeldAcc) : (s.setOwed l).healthX = s.healthX := (rfl)
@[simp] theorem State.setOwed_img (s : State) (l : List HeldAcc) : (s.setOwed l).img = s.img := (rfl)
@[simp] theorem State.setOwed_cox (s : State) (l : List HeldAcc) : (s.setOwed l).cox = s.cox := (rfl)
@[simp] theorem State.setOwed_convs (s : State) (l : List HeldAcc) : (s.setOwed l).convs = s.convs := (rfl)
@[simp] theorem State.setOwed_pairs (s : State) (l : List HeldAcc) : (s.setOwed l).pairs = s.pairs := (rfl)
@[simp] theorem State.setOwed_owRun (s : State) (l : List HeldAcc) : (s.setOwed l).owRun = s.owRun := (rfl)
@[simp] theorem State.setOwed_cal (s : State) (l : List HeldAcc) : (s.setOwed l).cal = s.cal := (rfl)
@[simp] theorem State.setOwed_dma (s : State) (l : List HeldAcc) : (s.setOwed l).dma = s.dma := (rfl)
@[simp] theorem State.setOwed_dmaLast (s : State) (l : List HeldAcc) : (s.setOwed l).dmaLast = s.dmaLast := (rfl)
@[simp] theorem State.setOwed_rmv (s : State) (l : List HeldAcc) : (s.setOwed l).rmv = s.rmv := (rfl)
@[simp] theorem State.setOwed_lpe (s : State) (l : List HeldAcc) : (s.setOwed l).lpe = s.lpe := (rfl)
@[simp] theorem State.setOwed_lsm (s : State) (l : List HeldAcc) : (s.setOwed l).lsm = s.lsm := (rfl)
@[simp] theorem State.setOwed_mig (s : State) (l : List HeldAcc) : (s.setOwed l).mig = s.mig := (rfl)
@[simp] theorem State.setOwed_axes (s : State) (l : List HeldAcc) : (s.setOwed l).axes = s.axes := (rfl)
@[simp] theorem State.setOwed_motHeld (s : State) (l : List HeldAcc) : (s.setOwed l).motHeld = s.motHeld := (rfl)
@[simp] theorem State.setOwed_encs (s : State) (l : List HeldAcc) : (s.setOwed l).encs = s.encs := (rfl)
@[simp] theorem State.setOwed_rce (s : State) (l : List HeldAcc) : (s.setOwed l).rce = s.rce := (rfl)
@[simp] theorem State.setOwed_seq (s : State) (l : List HeldAcc) : (s.setOwed l).seq = s.seq := (rfl)
@[simp] theorem State.setOwed_clos (s : State) (l : List HeldAcc) : (s.setOwed l).clos = s.clos := (rfl)
@[simp] theorem State.setOwed_vdrs (s : State) (l : List HeldAcc) : (s.setOwed l).vdrs = s.vdrs := (rfl)
@[simp] theorem State.setOwed_pvm (s : State) (l : List HeldAcc) : (s.setOwed l).pvm = s.pvm := (rfl)
@[simp] theorem State.setOwed_cyc (s : State) (l : List HeldAcc) : (s.setOwed l).cyc = s.cyc := (rfl)
@[simp] theorem State.setOwed_iml (s : State) (l : List HeldAcc) : (s.setOwed l).iml = s.iml := (rfl)
@[simp] theorem State.setOwed_cans (s : State) (l : List HeldAcc) : (s.setOwed l).cans = s.cans := (rfl)
@[simp] theorem State.setOwed_eths (s : State) (l : List HeldAcc) : (s.setOwed l).eths = s.eths := (rfl)
@[simp] theorem State.setOwed_prps (s : State) (l : List HeldAcc) : (s.setOwed l).prps = s.prps := (rfl)
@[simp] theorem State.setOwed_rra (s : State) (l : List HeldAcc) : (s.setOwed l).rra = s.rra := (rfl)
@[simp] theorem State.setOwed_plk (s : State) (l : List HeldAcc) : (s.setOwed l).plk = s.plk := (rfl)
@[simp] theorem State.setOwed_vlt (s : State) (l : List HeldAcc) : (s.setOwed l).vlt = s.vlt := (rfl)
@[simp] theorem State.setOwed_rpc (s : State) (l : List HeldAcc) : (s.setOwed l).rpc = s.rpc := (rfl)
@[simp] theorem State.setOwed_owed (s : State) (l : List HeldAcc) : (s.setOwed l).owed = l := (rfl)

@[simp] theorem State.setInflight_pending (s : State) (l : List Catch) : (s.setInflight l).pending = s.pending := (rfl)
@[simp] theorem State.setInflight_regs (s : State) (l : List Catch) : (s.setInflight l).regs = s.regs := (rfl)
@[simp] theorem State.setInflight_mem (s : State) (l : List Catch) : (s.setInflight l).mem = s.mem := (rfl)
@[simp] theorem State.setInflight_fresh (s : State) (l : List Catch) : (s.setInflight l).fresh = s.fresh := (rfl)
@[simp] theorem State.setInflight_bus (s : State) (l : List Catch) : (s.setInflight l).bus = s.bus := (rfl)
@[simp] theorem State.setInflight_latch (s : State) (l : List Catch) : (s.setInflight l).latch = s.latch := (rfl)
@[simp] theorem State.setInflight_claimed (s : State) (l : List Catch) : (s.setInflight l).claimed = s.claimed := (rfl)
@[simp] theorem State.setInflight_wire (s : State) (l : List Catch) : (s.setInflight l).wire = s.wire := (rfl)
@[simp] theorem State.setInflight_evl (s : State) (l : List Catch) : (s.setInflight l).evl = s.evl := (rfl)
@[simp] theorem State.setInflight_time (s : State) (l : List Catch) : (s.setInflight l).time = s.time := (rfl)
@[simp] theorem State.setInflight_courses (s : State) (l : List Catch) : (s.setInflight l).courses = s.courses := (rfl)
@[simp] theorem State.setInflight_tabs (s : State) (l : List Catch) : (s.setInflight l).tabs = s.tabs := (rfl)
@[simp] theorem State.setInflight_dins (s : State) (l : List Catch) : (s.setInflight l).dins = s.dins := (rfl)
@[simp] theorem State.setInflight_fwl (s : State) (l : List Catch) : (s.setInflight l).fwl = s.fwl := (rfl)
@[simp] theorem State.setInflight_healths (s : State) (l : List Catch) : (s.setInflight l).healths = s.healths := (rfl)
@[simp] theorem State.setInflight_healthX (s : State) (l : List Catch) : (s.setInflight l).healthX = s.healthX := (rfl)
@[simp] theorem State.setInflight_img (s : State) (l : List Catch) : (s.setInflight l).img = s.img := (rfl)
@[simp] theorem State.setInflight_cox (s : State) (l : List Catch) : (s.setInflight l).cox = s.cox := (rfl)
@[simp] theorem State.setInflight_convs (s : State) (l : List Catch) : (s.setInflight l).convs = s.convs := (rfl)
@[simp] theorem State.setInflight_pairs (s : State) (l : List Catch) : (s.setInflight l).pairs = s.pairs := (rfl)
@[simp] theorem State.setInflight_owRun (s : State) (l : List Catch) : (s.setInflight l).owRun = s.owRun := (rfl)
@[simp] theorem State.setInflight_cal (s : State) (l : List Catch) : (s.setInflight l).cal = s.cal := (rfl)
@[simp] theorem State.setInflight_dma (s : State) (l : List Catch) : (s.setInflight l).dma = s.dma := (rfl)
@[simp] theorem State.setInflight_dmaLast (s : State) (l : List Catch) : (s.setInflight l).dmaLast = s.dmaLast := (rfl)
@[simp] theorem State.setInflight_rmv (s : State) (l : List Catch) : (s.setInflight l).rmv = s.rmv := (rfl)
@[simp] theorem State.setInflight_lpe (s : State) (l : List Catch) : (s.setInflight l).lpe = s.lpe := (rfl)
@[simp] theorem State.setInflight_lsm (s : State) (l : List Catch) : (s.setInflight l).lsm = s.lsm := (rfl)
@[simp] theorem State.setInflight_mig (s : State) (l : List Catch) : (s.setInflight l).mig = s.mig := (rfl)
@[simp] theorem State.setInflight_owed (s : State) (l : List Catch) : (s.setInflight l).owed = s.owed := (rfl)
@[simp] theorem State.setInflight_axes (s : State) (l : List Catch) : (s.setInflight l).axes = s.axes := (rfl)
@[simp] theorem State.setInflight_motHeld (s : State) (l : List Catch) : (s.setInflight l).motHeld = s.motHeld := (rfl)
@[simp] theorem State.setInflight_encs (s : State) (l : List Catch) : (s.setInflight l).encs = s.encs := (rfl)
@[simp] theorem State.setInflight_rce (s : State) (l : List Catch) : (s.setInflight l).rce = s.rce := (rfl)
@[simp] theorem State.setInflight_seq (s : State) (l : List Catch) : (s.setInflight l).seq = s.seq := (rfl)
@[simp] theorem State.setInflight_clos (s : State) (l : List Catch) : (s.setInflight l).clos = s.clos := (rfl)
@[simp] theorem State.setInflight_vdrs (s : State) (l : List Catch) : (s.setInflight l).vdrs = s.vdrs := (rfl)
@[simp] theorem State.setInflight_pvm (s : State) (l : List Catch) : (s.setInflight l).pvm = s.pvm := (rfl)
@[simp] theorem State.setInflight_cyc (s : State) (l : List Catch) : (s.setInflight l).cyc = s.cyc := (rfl)
@[simp] theorem State.setInflight_iml (s : State) (l : List Catch) : (s.setInflight l).iml = s.iml := (rfl)
@[simp] theorem State.setInflight_cans (s : State) (l : List Catch) : (s.setInflight l).cans = s.cans := (rfl)
@[simp] theorem State.setInflight_eths (s : State) (l : List Catch) : (s.setInflight l).eths = s.eths := (rfl)
@[simp] theorem State.setInflight_prps (s : State) (l : List Catch) : (s.setInflight l).prps = s.prps := (rfl)
@[simp] theorem State.setInflight_rra (s : State) (l : List Catch) : (s.setInflight l).rra = s.rra := (rfl)
@[simp] theorem State.setInflight_plk (s : State) (l : List Catch) : (s.setInflight l).plk = s.plk := (rfl)
@[simp] theorem State.setInflight_vlt (s : State) (l : List Catch) : (s.setInflight l).vlt = s.vlt := (rfl)
@[simp] theorem State.setInflight_rpc (s : State) (l : List Catch) : (s.setInflight l).rpc = s.rpc := (rfl)
@[simp] theorem State.setInflight_inflight (s : State) (l : List Catch) : (s.setInflight l).inflight = l := (rfl)

@[simp] theorem State.setClaimed_pending (s : State) (l : List Nat) : (s.setClaimed l).pending = s.pending := (rfl)
@[simp] theorem State.setClaimed_regs (s : State) (l : List Nat) : (s.setClaimed l).regs = s.regs := (rfl)
@[simp] theorem State.setClaimed_mem (s : State) (l : List Nat) : (s.setClaimed l).mem = s.mem := (rfl)
@[simp] theorem State.setClaimed_fresh (s : State) (l : List Nat) : (s.setClaimed l).fresh = s.fresh := (rfl)
@[simp] theorem State.setClaimed_bus (s : State) (l : List Nat) : (s.setClaimed l).bus = s.bus := (rfl)
@[simp] theorem State.setClaimed_latch (s : State) (l : List Nat) : (s.setClaimed l).latch = s.latch := (rfl)
@[simp] theorem State.setClaimed_wire (s : State) (l : List Nat) : (s.setClaimed l).wire = s.wire := (rfl)
@[simp] theorem State.setClaimed_evl (s : State) (l : List Nat) : (s.setClaimed l).evl = s.evl := (rfl)
@[simp] theorem State.setClaimed_time (s : State) (l : List Nat) : (s.setClaimed l).time = s.time := (rfl)
@[simp] theorem State.setClaimed_courses (s : State) (l : List Nat) : (s.setClaimed l).courses = s.courses := (rfl)
@[simp] theorem State.setClaimed_tabs (s : State) (l : List Nat) : (s.setClaimed l).tabs = s.tabs := (rfl)
@[simp] theorem State.setClaimed_inflight (s : State) (l : List Nat) : (s.setClaimed l).inflight = s.inflight := (rfl)
@[simp] theorem State.setClaimed_dins (s : State) (l : List Nat) : (s.setClaimed l).dins = s.dins := (rfl)
@[simp] theorem State.setClaimed_fwl (s : State) (l : List Nat) : (s.setClaimed l).fwl = s.fwl := (rfl)
@[simp] theorem State.setClaimed_healths (s : State) (l : List Nat) : (s.setClaimed l).healths = s.healths := (rfl)
@[simp] theorem State.setClaimed_healthX (s : State) (l : List Nat) : (s.setClaimed l).healthX = s.healthX := (rfl)
@[simp] theorem State.setClaimed_img (s : State) (l : List Nat) : (s.setClaimed l).img = s.img := (rfl)
@[simp] theorem State.setClaimed_cox (s : State) (l : List Nat) : (s.setClaimed l).cox = s.cox := (rfl)
@[simp] theorem State.setClaimed_convs (s : State) (l : List Nat) : (s.setClaimed l).convs = s.convs := (rfl)
@[simp] theorem State.setClaimed_pairs (s : State) (l : List Nat) : (s.setClaimed l).pairs = s.pairs := (rfl)
@[simp] theorem State.setClaimed_owRun (s : State) (l : List Nat) : (s.setClaimed l).owRun = s.owRun := (rfl)
@[simp] theorem State.setClaimed_cal (s : State) (l : List Nat) : (s.setClaimed l).cal = s.cal := (rfl)
@[simp] theorem State.setClaimed_dma (s : State) (l : List Nat) : (s.setClaimed l).dma = s.dma := (rfl)
@[simp] theorem State.setClaimed_dmaLast (s : State) (l : List Nat) : (s.setClaimed l).dmaLast = s.dmaLast := (rfl)
@[simp] theorem State.setClaimed_rmv (s : State) (l : List Nat) : (s.setClaimed l).rmv = s.rmv := (rfl)
@[simp] theorem State.setClaimed_lpe (s : State) (l : List Nat) : (s.setClaimed l).lpe = s.lpe := (rfl)
@[simp] theorem State.setClaimed_lsm (s : State) (l : List Nat) : (s.setClaimed l).lsm = s.lsm := (rfl)
@[simp] theorem State.setClaimed_mig (s : State) (l : List Nat) : (s.setClaimed l).mig = s.mig := (rfl)
@[simp] theorem State.setClaimed_owed (s : State) (l : List Nat) : (s.setClaimed l).owed = s.owed := (rfl)
@[simp] theorem State.setClaimed_axes (s : State) (l : List Nat) : (s.setClaimed l).axes = s.axes := (rfl)
@[simp] theorem State.setClaimed_motHeld (s : State) (l : List Nat) : (s.setClaimed l).motHeld = s.motHeld := (rfl)
@[simp] theorem State.setClaimed_encs (s : State) (l : List Nat) : (s.setClaimed l).encs = s.encs := (rfl)
@[simp] theorem State.setClaimed_rce (s : State) (l : List Nat) : (s.setClaimed l).rce = s.rce := (rfl)
@[simp] theorem State.setClaimed_seq (s : State) (l : List Nat) : (s.setClaimed l).seq = s.seq := (rfl)
@[simp] theorem State.setClaimed_clos (s : State) (l : List Nat) : (s.setClaimed l).clos = s.clos := (rfl)
@[simp] theorem State.setClaimed_vdrs (s : State) (l : List Nat) : (s.setClaimed l).vdrs = s.vdrs := (rfl)
@[simp] theorem State.setClaimed_pvm (s : State) (l : List Nat) : (s.setClaimed l).pvm = s.pvm := (rfl)
@[simp] theorem State.setClaimed_cyc (s : State) (l : List Nat) : (s.setClaimed l).cyc = s.cyc := (rfl)
@[simp] theorem State.setClaimed_iml (s : State) (l : List Nat) : (s.setClaimed l).iml = s.iml := (rfl)
@[simp] theorem State.setClaimed_cans (s : State) (l : List Nat) : (s.setClaimed l).cans = s.cans := (rfl)
@[simp] theorem State.setClaimed_eths (s : State) (l : List Nat) : (s.setClaimed l).eths = s.eths := (rfl)
@[simp] theorem State.setClaimed_prps (s : State) (l : List Nat) : (s.setClaimed l).prps = s.prps := (rfl)
@[simp] theorem State.setClaimed_rra (s : State) (l : List Nat) : (s.setClaimed l).rra = s.rra := (rfl)
@[simp] theorem State.setClaimed_plk (s : State) (l : List Nat) : (s.setClaimed l).plk = s.plk := (rfl)
@[simp] theorem State.setClaimed_vlt (s : State) (l : List Nat) : (s.setClaimed l).vlt = s.vlt := (rfl)
@[simp] theorem State.setClaimed_rpc (s : State) (l : List Nat) : (s.setClaimed l).rpc = s.rpc := (rfl)
@[simp] theorem State.setClaimed_claimed (s : State) (l : List Nat) : (s.setClaimed l).claimed = l := (rfl)

@[simp] theorem State.setLatch_pending (s : State) (l : List (Nat × Word)) : (s.setLatch l).pending = s.pending := (rfl)
@[simp] theorem State.setLatch_regs (s : State) (l : List (Nat × Word)) : (s.setLatch l).regs = s.regs := (rfl)
@[simp] theorem State.setLatch_mem (s : State) (l : List (Nat × Word)) : (s.setLatch l).mem = s.mem := (rfl)
@[simp] theorem State.setLatch_fresh (s : State) (l : List (Nat × Word)) : (s.setLatch l).fresh = s.fresh := (rfl)
@[simp] theorem State.setLatch_bus (s : State) (l : List (Nat × Word)) : (s.setLatch l).bus = s.bus := (rfl)
@[simp] theorem State.setLatch_claimed (s : State) (l : List (Nat × Word)) : (s.setLatch l).claimed = s.claimed := (rfl)
@[simp] theorem State.setLatch_wire (s : State) (l : List (Nat × Word)) : (s.setLatch l).wire = s.wire := (rfl)
@[simp] theorem State.setLatch_evl (s : State) (l : List (Nat × Word)) : (s.setLatch l).evl = s.evl := (rfl)
@[simp] theorem State.setLatch_time (s : State) (l : List (Nat × Word)) : (s.setLatch l).time = s.time := (rfl)
@[simp] theorem State.setLatch_courses (s : State) (l : List (Nat × Word)) : (s.setLatch l).courses = s.courses := (rfl)
@[simp] theorem State.setLatch_tabs (s : State) (l : List (Nat × Word)) : (s.setLatch l).tabs = s.tabs := (rfl)
@[simp] theorem State.setLatch_inflight (s : State) (l : List (Nat × Word)) : (s.setLatch l).inflight = s.inflight := (rfl)
@[simp] theorem State.setLatch_dins (s : State) (l : List (Nat × Word)) : (s.setLatch l).dins = s.dins := (rfl)
@[simp] theorem State.setLatch_fwl (s : State) (l : List (Nat × Word)) : (s.setLatch l).fwl = s.fwl := (rfl)
@[simp] theorem State.setLatch_healths (s : State) (l : List (Nat × Word)) : (s.setLatch l).healths = s.healths := (rfl)
@[simp] theorem State.setLatch_healthX (s : State) (l : List (Nat × Word)) : (s.setLatch l).healthX = s.healthX := (rfl)
@[simp] theorem State.setLatch_img (s : State) (l : List (Nat × Word)) : (s.setLatch l).img = s.img := (rfl)
@[simp] theorem State.setLatch_cox (s : State) (l : List (Nat × Word)) : (s.setLatch l).cox = s.cox := (rfl)
@[simp] theorem State.setLatch_convs (s : State) (l : List (Nat × Word)) : (s.setLatch l).convs = s.convs := (rfl)
@[simp] theorem State.setLatch_pairs (s : State) (l : List (Nat × Word)) : (s.setLatch l).pairs = s.pairs := (rfl)
@[simp] theorem State.setLatch_owRun (s : State) (l : List (Nat × Word)) : (s.setLatch l).owRun = s.owRun := (rfl)
@[simp] theorem State.setLatch_cal (s : State) (l : List (Nat × Word)) : (s.setLatch l).cal = s.cal := (rfl)
@[simp] theorem State.setLatch_dma (s : State) (l : List (Nat × Word)) : (s.setLatch l).dma = s.dma := (rfl)
@[simp] theorem State.setLatch_dmaLast (s : State) (l : List (Nat × Word)) : (s.setLatch l).dmaLast = s.dmaLast := (rfl)
@[simp] theorem State.setLatch_rmv (s : State) (l : List (Nat × Word)) : (s.setLatch l).rmv = s.rmv := (rfl)
@[simp] theorem State.setLatch_lpe (s : State) (l : List (Nat × Word)) : (s.setLatch l).lpe = s.lpe := (rfl)
@[simp] theorem State.setLatch_lsm (s : State) (l : List (Nat × Word)) : (s.setLatch l).lsm = s.lsm := (rfl)
@[simp] theorem State.setLatch_mig (s : State) (l : List (Nat × Word)) : (s.setLatch l).mig = s.mig := (rfl)
@[simp] theorem State.setLatch_owed (s : State) (l : List (Nat × Word)) : (s.setLatch l).owed = s.owed := (rfl)
@[simp] theorem State.setLatch_axes (s : State) (l : List (Nat × Word)) : (s.setLatch l).axes = s.axes := (rfl)
@[simp] theorem State.setLatch_motHeld (s : State) (l : List (Nat × Word)) : (s.setLatch l).motHeld = s.motHeld := (rfl)
@[simp] theorem State.setLatch_encs (s : State) (l : List (Nat × Word)) : (s.setLatch l).encs = s.encs := (rfl)
@[simp] theorem State.setLatch_rce (s : State) (l : List (Nat × Word)) : (s.setLatch l).rce = s.rce := (rfl)
@[simp] theorem State.setLatch_seq (s : State) (l : List (Nat × Word)) : (s.setLatch l).seq = s.seq := (rfl)
@[simp] theorem State.setLatch_clos (s : State) (l : List (Nat × Word)) : (s.setLatch l).clos = s.clos := (rfl)
@[simp] theorem State.setLatch_vdrs (s : State) (l : List (Nat × Word)) : (s.setLatch l).vdrs = s.vdrs := (rfl)
@[simp] theorem State.setLatch_pvm (s : State) (l : List (Nat × Word)) : (s.setLatch l).pvm = s.pvm := (rfl)
@[simp] theorem State.setLatch_cyc (s : State) (l : List (Nat × Word)) : (s.setLatch l).cyc = s.cyc := (rfl)
@[simp] theorem State.setLatch_iml (s : State) (l : List (Nat × Word)) : (s.setLatch l).iml = s.iml := (rfl)
@[simp] theorem State.setLatch_cans (s : State) (l : List (Nat × Word)) : (s.setLatch l).cans = s.cans := (rfl)
@[simp] theorem State.setLatch_eths (s : State) (l : List (Nat × Word)) : (s.setLatch l).eths = s.eths := (rfl)
@[simp] theorem State.setLatch_prps (s : State) (l : List (Nat × Word)) : (s.setLatch l).prps = s.prps := (rfl)
@[simp] theorem State.setLatch_rra (s : State) (l : List (Nat × Word)) : (s.setLatch l).rra = s.rra := (rfl)
@[simp] theorem State.setLatch_plk (s : State) (l : List (Nat × Word)) : (s.setLatch l).plk = s.plk := (rfl)
@[simp] theorem State.setLatch_vlt (s : State) (l : List (Nat × Word)) : (s.setLatch l).vlt = s.vlt := (rfl)
@[simp] theorem State.setLatch_rpc (s : State) (l : List (Nat × Word)) : (s.setLatch l).rpc = s.rpc := (rfl)
@[simp] theorem State.setLatch_latch (s : State) (l : List (Nat × Word)) : (s.setLatch l).latch = l := (rfl)

@[simp] theorem State.setWire_pending (s : State) (l : List Emit) : (s.setWire l).pending = s.pending := (rfl)
@[simp] theorem State.setWire_regs (s : State) (l : List Emit) : (s.setWire l).regs = s.regs := (rfl)
@[simp] theorem State.setWire_mem (s : State) (l : List Emit) : (s.setWire l).mem = s.mem := (rfl)
@[simp] theorem State.setWire_fresh (s : State) (l : List Emit) : (s.setWire l).fresh = s.fresh := (rfl)
@[simp] theorem State.setWire_bus (s : State) (l : List Emit) : (s.setWire l).bus = s.bus := (rfl)
@[simp] theorem State.setWire_latch (s : State) (l : List Emit) : (s.setWire l).latch = s.latch := (rfl)
@[simp] theorem State.setWire_claimed (s : State) (l : List Emit) : (s.setWire l).claimed = s.claimed := (rfl)
@[simp] theorem State.setWire_evl (s : State) (l : List Emit) : (s.setWire l).evl = s.evl := (rfl)
@[simp] theorem State.setWire_time (s : State) (l : List Emit) : (s.setWire l).time = s.time := (rfl)
@[simp] theorem State.setWire_courses (s : State) (l : List Emit) : (s.setWire l).courses = s.courses := (rfl)
@[simp] theorem State.setWire_tabs (s : State) (l : List Emit) : (s.setWire l).tabs = s.tabs := (rfl)
@[simp] theorem State.setWire_inflight (s : State) (l : List Emit) : (s.setWire l).inflight = s.inflight := (rfl)
@[simp] theorem State.setWire_dins (s : State) (l : List Emit) : (s.setWire l).dins = s.dins := (rfl)
@[simp] theorem State.setWire_fwl (s : State) (l : List Emit) : (s.setWire l).fwl = s.fwl := (rfl)
@[simp] theorem State.setWire_healths (s : State) (l : List Emit) : (s.setWire l).healths = s.healths := (rfl)
@[simp] theorem State.setWire_healthX (s : State) (l : List Emit) : (s.setWire l).healthX = s.healthX := (rfl)
@[simp] theorem State.setWire_img (s : State) (l : List Emit) : (s.setWire l).img = s.img := (rfl)
@[simp] theorem State.setWire_cox (s : State) (l : List Emit) : (s.setWire l).cox = s.cox := (rfl)
@[simp] theorem State.setWire_convs (s : State) (l : List Emit) : (s.setWire l).convs = s.convs := (rfl)
@[simp] theorem State.setWire_pairs (s : State) (l : List Emit) : (s.setWire l).pairs = s.pairs := (rfl)
@[simp] theorem State.setWire_owRun (s : State) (l : List Emit) : (s.setWire l).owRun = s.owRun := (rfl)
@[simp] theorem State.setWire_cal (s : State) (l : List Emit) : (s.setWire l).cal = s.cal := (rfl)
@[simp] theorem State.setWire_dma (s : State) (l : List Emit) : (s.setWire l).dma = s.dma := (rfl)
@[simp] theorem State.setWire_dmaLast (s : State) (l : List Emit) : (s.setWire l).dmaLast = s.dmaLast := (rfl)
@[simp] theorem State.setWire_rmv (s : State) (l : List Emit) : (s.setWire l).rmv = s.rmv := (rfl)
@[simp] theorem State.setWire_lpe (s : State) (l : List Emit) : (s.setWire l).lpe = s.lpe := (rfl)
@[simp] theorem State.setWire_lsm (s : State) (l : List Emit) : (s.setWire l).lsm = s.lsm := (rfl)
@[simp] theorem State.setWire_mig (s : State) (l : List Emit) : (s.setWire l).mig = s.mig := (rfl)
@[simp] theorem State.setWire_owed (s : State) (l : List Emit) : (s.setWire l).owed = s.owed := (rfl)
@[simp] theorem State.setWire_axes (s : State) (l : List Emit) : (s.setWire l).axes = s.axes := (rfl)
@[simp] theorem State.setWire_motHeld (s : State) (l : List Emit) : (s.setWire l).motHeld = s.motHeld := (rfl)
@[simp] theorem State.setWire_encs (s : State) (l : List Emit) : (s.setWire l).encs = s.encs := (rfl)
@[simp] theorem State.setWire_rce (s : State) (l : List Emit) : (s.setWire l).rce = s.rce := (rfl)
@[simp] theorem State.setWire_seq (s : State) (l : List Emit) : (s.setWire l).seq = s.seq := (rfl)
@[simp] theorem State.setWire_clos (s : State) (l : List Emit) : (s.setWire l).clos = s.clos := (rfl)
@[simp] theorem State.setWire_vdrs (s : State) (l : List Emit) : (s.setWire l).vdrs = s.vdrs := (rfl)
@[simp] theorem State.setWire_pvm (s : State) (l : List Emit) : (s.setWire l).pvm = s.pvm := (rfl)
@[simp] theorem State.setWire_cyc (s : State) (l : List Emit) : (s.setWire l).cyc = s.cyc := (rfl)
@[simp] theorem State.setWire_iml (s : State) (l : List Emit) : (s.setWire l).iml = s.iml := (rfl)
@[simp] theorem State.setWire_cans (s : State) (l : List Emit) : (s.setWire l).cans = s.cans := (rfl)
@[simp] theorem State.setWire_eths (s : State) (l : List Emit) : (s.setWire l).eths = s.eths := (rfl)
@[simp] theorem State.setWire_prps (s : State) (l : List Emit) : (s.setWire l).prps = s.prps := (rfl)
@[simp] theorem State.setWire_rra (s : State) (l : List Emit) : (s.setWire l).rra = s.rra := (rfl)
@[simp] theorem State.setWire_plk (s : State) (l : List Emit) : (s.setWire l).plk = s.plk := (rfl)
@[simp] theorem State.setWire_vlt (s : State) (l : List Emit) : (s.setWire l).vlt = s.vlt := (rfl)
@[simp] theorem State.setWire_rpc (s : State) (l : List Emit) : (s.setWire l).rpc = s.rpc := (rfl)
@[simp] theorem State.setWire_wire (s : State) (l : List Emit) : (s.setWire l).wire = l := (rfl)

@[simp] theorem State.setDmaLast_pending (s : State) (l : List (Nat × Nat)) : (s.setDmaLast l).pending = s.pending := (rfl)
@[simp] theorem State.setDmaLast_regs (s : State) (l : List (Nat × Nat)) : (s.setDmaLast l).regs = s.regs := (rfl)
@[simp] theorem State.setDmaLast_mem (s : State) (l : List (Nat × Nat)) : (s.setDmaLast l).mem = s.mem := (rfl)
@[simp] theorem State.setDmaLast_fresh (s : State) (l : List (Nat × Nat)) : (s.setDmaLast l).fresh = s.fresh := (rfl)
@[simp] theorem State.setDmaLast_bus (s : State) (l : List (Nat × Nat)) : (s.setDmaLast l).bus = s.bus := (rfl)
@[simp] theorem State.setDmaLast_latch (s : State) (l : List (Nat × Nat)) : (s.setDmaLast l).latch = s.latch := (rfl)
@[simp] theorem State.setDmaLast_claimed (s : State) (l : List (Nat × Nat)) : (s.setDmaLast l).claimed = s.claimed := (rfl)
@[simp] theorem State.setDmaLast_wire (s : State) (l : List (Nat × Nat)) : (s.setDmaLast l).wire = s.wire := (rfl)
@[simp] theorem State.setDmaLast_evl (s : State) (l : List (Nat × Nat)) : (s.setDmaLast l).evl = s.evl := (rfl)
@[simp] theorem State.setDmaLast_time (s : State) (l : List (Nat × Nat)) : (s.setDmaLast l).time = s.time := (rfl)
@[simp] theorem State.setDmaLast_courses (s : State) (l : List (Nat × Nat)) : (s.setDmaLast l).courses = s.courses := (rfl)
@[simp] theorem State.setDmaLast_tabs (s : State) (l : List (Nat × Nat)) : (s.setDmaLast l).tabs = s.tabs := (rfl)
@[simp] theorem State.setDmaLast_inflight (s : State) (l : List (Nat × Nat)) : (s.setDmaLast l).inflight = s.inflight := (rfl)
@[simp] theorem State.setDmaLast_dins (s : State) (l : List (Nat × Nat)) : (s.setDmaLast l).dins = s.dins := (rfl)
@[simp] theorem State.setDmaLast_fwl (s : State) (l : List (Nat × Nat)) : (s.setDmaLast l).fwl = s.fwl := (rfl)
@[simp] theorem State.setDmaLast_healths (s : State) (l : List (Nat × Nat)) : (s.setDmaLast l).healths = s.healths := (rfl)
@[simp] theorem State.setDmaLast_healthX (s : State) (l : List (Nat × Nat)) : (s.setDmaLast l).healthX = s.healthX := (rfl)
@[simp] theorem State.setDmaLast_img (s : State) (l : List (Nat × Nat)) : (s.setDmaLast l).img = s.img := (rfl)
@[simp] theorem State.setDmaLast_cox (s : State) (l : List (Nat × Nat)) : (s.setDmaLast l).cox = s.cox := (rfl)
@[simp] theorem State.setDmaLast_convs (s : State) (l : List (Nat × Nat)) : (s.setDmaLast l).convs = s.convs := (rfl)
@[simp] theorem State.setDmaLast_pairs (s : State) (l : List (Nat × Nat)) : (s.setDmaLast l).pairs = s.pairs := (rfl)
@[simp] theorem State.setDmaLast_owRun (s : State) (l : List (Nat × Nat)) : (s.setDmaLast l).owRun = s.owRun := (rfl)
@[simp] theorem State.setDmaLast_cal (s : State) (l : List (Nat × Nat)) : (s.setDmaLast l).cal = s.cal := (rfl)
@[simp] theorem State.setDmaLast_dma (s : State) (l : List (Nat × Nat)) : (s.setDmaLast l).dma = s.dma := (rfl)
@[simp] theorem State.setDmaLast_rmv (s : State) (l : List (Nat × Nat)) : (s.setDmaLast l).rmv = s.rmv := (rfl)
@[simp] theorem State.setDmaLast_lpe (s : State) (l : List (Nat × Nat)) : (s.setDmaLast l).lpe = s.lpe := (rfl)
@[simp] theorem State.setDmaLast_lsm (s : State) (l : List (Nat × Nat)) : (s.setDmaLast l).lsm = s.lsm := (rfl)
@[simp] theorem State.setDmaLast_mig (s : State) (l : List (Nat × Nat)) : (s.setDmaLast l).mig = s.mig := (rfl)
@[simp] theorem State.setDmaLast_owed (s : State) (l : List (Nat × Nat)) : (s.setDmaLast l).owed = s.owed := (rfl)
@[simp] theorem State.setDmaLast_axes (s : State) (l : List (Nat × Nat)) : (s.setDmaLast l).axes = s.axes := (rfl)
@[simp] theorem State.setDmaLast_motHeld (s : State) (l : List (Nat × Nat)) : (s.setDmaLast l).motHeld = s.motHeld := (rfl)
@[simp] theorem State.setDmaLast_encs (s : State) (l : List (Nat × Nat)) : (s.setDmaLast l).encs = s.encs := (rfl)
@[simp] theorem State.setDmaLast_rce (s : State) (l : List (Nat × Nat)) : (s.setDmaLast l).rce = s.rce := (rfl)
@[simp] theorem State.setDmaLast_seq (s : State) (l : List (Nat × Nat)) : (s.setDmaLast l).seq = s.seq := (rfl)
@[simp] theorem State.setDmaLast_clos (s : State) (l : List (Nat × Nat)) : (s.setDmaLast l).clos = s.clos := (rfl)
@[simp] theorem State.setDmaLast_vdrs (s : State) (l : List (Nat × Nat)) : (s.setDmaLast l).vdrs = s.vdrs := (rfl)
@[simp] theorem State.setDmaLast_pvm (s : State) (l : List (Nat × Nat)) : (s.setDmaLast l).pvm = s.pvm := (rfl)
@[simp] theorem State.setDmaLast_cyc (s : State) (l : List (Nat × Nat)) : (s.setDmaLast l).cyc = s.cyc := (rfl)
@[simp] theorem State.setDmaLast_iml (s : State) (l : List (Nat × Nat)) : (s.setDmaLast l).iml = s.iml := (rfl)
@[simp] theorem State.setDmaLast_cans (s : State) (l : List (Nat × Nat)) : (s.setDmaLast l).cans = s.cans := (rfl)
@[simp] theorem State.setDmaLast_eths (s : State) (l : List (Nat × Nat)) : (s.setDmaLast l).eths = s.eths := (rfl)
@[simp] theorem State.setDmaLast_prps (s : State) (l : List (Nat × Nat)) : (s.setDmaLast l).prps = s.prps := (rfl)
@[simp] theorem State.setDmaLast_rra (s : State) (l : List (Nat × Nat)) : (s.setDmaLast l).rra = s.rra := (rfl)
@[simp] theorem State.setDmaLast_plk (s : State) (l : List (Nat × Nat)) : (s.setDmaLast l).plk = s.plk := (rfl)
@[simp] theorem State.setDmaLast_vlt (s : State) (l : List (Nat × Nat)) : (s.setDmaLast l).vlt = s.vlt := (rfl)
@[simp] theorem State.setDmaLast_rpc (s : State) (l : List (Nat × Nat)) : (s.setDmaLast l).rpc = s.rpc := (rfl)
@[simp] theorem State.setDmaLast_dmaLast (s : State) (l : List (Nat × Nat)) : (s.setDmaLast l).dmaLast = l := (rfl)

@[simp] theorem State.setHealthX_pending (s : State) (l : List (Nat × Health)) : (s.setHealthX l).pending = s.pending := (rfl)
@[simp] theorem State.setHealthX_regs (s : State) (l : List (Nat × Health)) : (s.setHealthX l).regs = s.regs := (rfl)
@[simp] theorem State.setHealthX_mem (s : State) (l : List (Nat × Health)) : (s.setHealthX l).mem = s.mem := (rfl)
@[simp] theorem State.setHealthX_fresh (s : State) (l : List (Nat × Health)) : (s.setHealthX l).fresh = s.fresh := (rfl)
@[simp] theorem State.setHealthX_bus (s : State) (l : List (Nat × Health)) : (s.setHealthX l).bus = s.bus := (rfl)
@[simp] theorem State.setHealthX_latch (s : State) (l : List (Nat × Health)) : (s.setHealthX l).latch = s.latch := (rfl)
@[simp] theorem State.setHealthX_claimed (s : State) (l : List (Nat × Health)) : (s.setHealthX l).claimed = s.claimed := (rfl)
@[simp] theorem State.setHealthX_wire (s : State) (l : List (Nat × Health)) : (s.setHealthX l).wire = s.wire := (rfl)
@[simp] theorem State.setHealthX_evl (s : State) (l : List (Nat × Health)) : (s.setHealthX l).evl = s.evl := (rfl)
@[simp] theorem State.setHealthX_time (s : State) (l : List (Nat × Health)) : (s.setHealthX l).time = s.time := (rfl)
@[simp] theorem State.setHealthX_courses (s : State) (l : List (Nat × Health)) : (s.setHealthX l).courses = s.courses := (rfl)
@[simp] theorem State.setHealthX_tabs (s : State) (l : List (Nat × Health)) : (s.setHealthX l).tabs = s.tabs := (rfl)
@[simp] theorem State.setHealthX_inflight (s : State) (l : List (Nat × Health)) : (s.setHealthX l).inflight = s.inflight := (rfl)
@[simp] theorem State.setHealthX_dins (s : State) (l : List (Nat × Health)) : (s.setHealthX l).dins = s.dins := (rfl)
@[simp] theorem State.setHealthX_fwl (s : State) (l : List (Nat × Health)) : (s.setHealthX l).fwl = s.fwl := (rfl)
@[simp] theorem State.setHealthX_healths (s : State) (l : List (Nat × Health)) : (s.setHealthX l).healths = s.healths := (rfl)
@[simp] theorem State.setHealthX_img (s : State) (l : List (Nat × Health)) : (s.setHealthX l).img = s.img := (rfl)
@[simp] theorem State.setHealthX_cox (s : State) (l : List (Nat × Health)) : (s.setHealthX l).cox = s.cox := (rfl)
@[simp] theorem State.setHealthX_convs (s : State) (l : List (Nat × Health)) : (s.setHealthX l).convs = s.convs := (rfl)
@[simp] theorem State.setHealthX_pairs (s : State) (l : List (Nat × Health)) : (s.setHealthX l).pairs = s.pairs := (rfl)
@[simp] theorem State.setHealthX_owRun (s : State) (l : List (Nat × Health)) : (s.setHealthX l).owRun = s.owRun := (rfl)
@[simp] theorem State.setHealthX_cal (s : State) (l : List (Nat × Health)) : (s.setHealthX l).cal = s.cal := (rfl)
@[simp] theorem State.setHealthX_dma (s : State) (l : List (Nat × Health)) : (s.setHealthX l).dma = s.dma := (rfl)
@[simp] theorem State.setHealthX_dmaLast (s : State) (l : List (Nat × Health)) : (s.setHealthX l).dmaLast = s.dmaLast := (rfl)
@[simp] theorem State.setHealthX_rmv (s : State) (l : List (Nat × Health)) : (s.setHealthX l).rmv = s.rmv := (rfl)
@[simp] theorem State.setHealthX_lpe (s : State) (l : List (Nat × Health)) : (s.setHealthX l).lpe = s.lpe := (rfl)
@[simp] theorem State.setHealthX_lsm (s : State) (l : List (Nat × Health)) : (s.setHealthX l).lsm = s.lsm := (rfl)
@[simp] theorem State.setHealthX_mig (s : State) (l : List (Nat × Health)) : (s.setHealthX l).mig = s.mig := (rfl)
@[simp] theorem State.setHealthX_owed (s : State) (l : List (Nat × Health)) : (s.setHealthX l).owed = s.owed := (rfl)
@[simp] theorem State.setHealthX_axes (s : State) (l : List (Nat × Health)) : (s.setHealthX l).axes = s.axes := (rfl)
@[simp] theorem State.setHealthX_motHeld (s : State) (l : List (Nat × Health)) : (s.setHealthX l).motHeld = s.motHeld := (rfl)
@[simp] theorem State.setHealthX_encs (s : State) (l : List (Nat × Health)) : (s.setHealthX l).encs = s.encs := (rfl)
@[simp] theorem State.setHealthX_rce (s : State) (l : List (Nat × Health)) : (s.setHealthX l).rce = s.rce := (rfl)
@[simp] theorem State.setHealthX_seq (s : State) (l : List (Nat × Health)) : (s.setHealthX l).seq = s.seq := (rfl)
@[simp] theorem State.setHealthX_clos (s : State) (l : List (Nat × Health)) : (s.setHealthX l).clos = s.clos := (rfl)
@[simp] theorem State.setHealthX_vdrs (s : State) (l : List (Nat × Health)) : (s.setHealthX l).vdrs = s.vdrs := (rfl)
@[simp] theorem State.setHealthX_pvm (s : State) (l : List (Nat × Health)) : (s.setHealthX l).pvm = s.pvm := (rfl)
@[simp] theorem State.setHealthX_cyc (s : State) (l : List (Nat × Health)) : (s.setHealthX l).cyc = s.cyc := (rfl)
@[simp] theorem State.setHealthX_iml (s : State) (l : List (Nat × Health)) : (s.setHealthX l).iml = s.iml := (rfl)
@[simp] theorem State.setHealthX_cans (s : State) (l : List (Nat × Health)) : (s.setHealthX l).cans = s.cans := (rfl)
@[simp] theorem State.setHealthX_eths (s : State) (l : List (Nat × Health)) : (s.setHealthX l).eths = s.eths := (rfl)
@[simp] theorem State.setHealthX_prps (s : State) (l : List (Nat × Health)) : (s.setHealthX l).prps = s.prps := (rfl)
@[simp] theorem State.setHealthX_rra (s : State) (l : List (Nat × Health)) : (s.setHealthX l).rra = s.rra := (rfl)
@[simp] theorem State.setHealthX_plk (s : State) (l : List (Nat × Health)) : (s.setHealthX l).plk = s.plk := (rfl)
@[simp] theorem State.setHealthX_vlt (s : State) (l : List (Nat × Health)) : (s.setHealthX l).vlt = s.vlt := (rfl)
@[simp] theorem State.setHealthX_rpc (s : State) (l : List (Nat × Health)) : (s.setHealthX l).rpc = s.rpc := (rfl)
@[simp] theorem State.setHealthX_healthX (s : State) (l : List (Nat × Health)) : (s.setHealthX l).healthX = l := (rfl)

@[simp] theorem State.setMotHeld_pending (s : State) (l : List (Nat × MotHeld)) : (s.setMotHeld l).pending = s.pending := (rfl)
@[simp] theorem State.setMotHeld_regs (s : State) (l : List (Nat × MotHeld)) : (s.setMotHeld l).regs = s.regs := (rfl)
@[simp] theorem State.setMotHeld_mem (s : State) (l : List (Nat × MotHeld)) : (s.setMotHeld l).mem = s.mem := (rfl)
@[simp] theorem State.setMotHeld_fresh (s : State) (l : List (Nat × MotHeld)) : (s.setMotHeld l).fresh = s.fresh := (rfl)
@[simp] theorem State.setMotHeld_bus (s : State) (l : List (Nat × MotHeld)) : (s.setMotHeld l).bus = s.bus := (rfl)
@[simp] theorem State.setMotHeld_latch (s : State) (l : List (Nat × MotHeld)) : (s.setMotHeld l).latch = s.latch := (rfl)
@[simp] theorem State.setMotHeld_claimed (s : State) (l : List (Nat × MotHeld)) : (s.setMotHeld l).claimed = s.claimed := (rfl)
@[simp] theorem State.setMotHeld_wire (s : State) (l : List (Nat × MotHeld)) : (s.setMotHeld l).wire = s.wire := (rfl)
@[simp] theorem State.setMotHeld_evl (s : State) (l : List (Nat × MotHeld)) : (s.setMotHeld l).evl = s.evl := (rfl)
@[simp] theorem State.setMotHeld_time (s : State) (l : List (Nat × MotHeld)) : (s.setMotHeld l).time = s.time := (rfl)
@[simp] theorem State.setMotHeld_courses (s : State) (l : List (Nat × MotHeld)) : (s.setMotHeld l).courses = s.courses := (rfl)
@[simp] theorem State.setMotHeld_tabs (s : State) (l : List (Nat × MotHeld)) : (s.setMotHeld l).tabs = s.tabs := (rfl)
@[simp] theorem State.setMotHeld_inflight (s : State) (l : List (Nat × MotHeld)) : (s.setMotHeld l).inflight = s.inflight := (rfl)
@[simp] theorem State.setMotHeld_dins (s : State) (l : List (Nat × MotHeld)) : (s.setMotHeld l).dins = s.dins := (rfl)
@[simp] theorem State.setMotHeld_fwl (s : State) (l : List (Nat × MotHeld)) : (s.setMotHeld l).fwl = s.fwl := (rfl)
@[simp] theorem State.setMotHeld_healths (s : State) (l : List (Nat × MotHeld)) : (s.setMotHeld l).healths = s.healths := (rfl)
@[simp] theorem State.setMotHeld_healthX (s : State) (l : List (Nat × MotHeld)) : (s.setMotHeld l).healthX = s.healthX := (rfl)
@[simp] theorem State.setMotHeld_img (s : State) (l : List (Nat × MotHeld)) : (s.setMotHeld l).img = s.img := (rfl)
@[simp] theorem State.setMotHeld_cox (s : State) (l : List (Nat × MotHeld)) : (s.setMotHeld l).cox = s.cox := (rfl)
@[simp] theorem State.setMotHeld_convs (s : State) (l : List (Nat × MotHeld)) : (s.setMotHeld l).convs = s.convs := (rfl)
@[simp] theorem State.setMotHeld_pairs (s : State) (l : List (Nat × MotHeld)) : (s.setMotHeld l).pairs = s.pairs := (rfl)
@[simp] theorem State.setMotHeld_owRun (s : State) (l : List (Nat × MotHeld)) : (s.setMotHeld l).owRun = s.owRun := (rfl)
@[simp] theorem State.setMotHeld_cal (s : State) (l : List (Nat × MotHeld)) : (s.setMotHeld l).cal = s.cal := (rfl)
@[simp] theorem State.setMotHeld_dma (s : State) (l : List (Nat × MotHeld)) : (s.setMotHeld l).dma = s.dma := (rfl)
@[simp] theorem State.setMotHeld_dmaLast (s : State) (l : List (Nat × MotHeld)) : (s.setMotHeld l).dmaLast = s.dmaLast := (rfl)
@[simp] theorem State.setMotHeld_rmv (s : State) (l : List (Nat × MotHeld)) : (s.setMotHeld l).rmv = s.rmv := (rfl)
@[simp] theorem State.setMotHeld_lpe (s : State) (l : List (Nat × MotHeld)) : (s.setMotHeld l).lpe = s.lpe := (rfl)
@[simp] theorem State.setMotHeld_lsm (s : State) (l : List (Nat × MotHeld)) : (s.setMotHeld l).lsm = s.lsm := (rfl)
@[simp] theorem State.setMotHeld_mig (s : State) (l : List (Nat × MotHeld)) : (s.setMotHeld l).mig = s.mig := (rfl)
@[simp] theorem State.setMotHeld_owed (s : State) (l : List (Nat × MotHeld)) : (s.setMotHeld l).owed = s.owed := (rfl)
@[simp] theorem State.setMotHeld_axes (s : State) (l : List (Nat × MotHeld)) : (s.setMotHeld l).axes = s.axes := (rfl)
@[simp] theorem State.setMotHeld_encs (s : State) (l : List (Nat × MotHeld)) : (s.setMotHeld l).encs = s.encs := (rfl)
@[simp] theorem State.setMotHeld_rce (s : State) (l : List (Nat × MotHeld)) : (s.setMotHeld l).rce = s.rce := (rfl)
@[simp] theorem State.setMotHeld_seq (s : State) (l : List (Nat × MotHeld)) : (s.setMotHeld l).seq = s.seq := (rfl)
@[simp] theorem State.setMotHeld_clos (s : State) (l : List (Nat × MotHeld)) : (s.setMotHeld l).clos = s.clos := (rfl)
@[simp] theorem State.setMotHeld_vdrs (s : State) (l : List (Nat × MotHeld)) : (s.setMotHeld l).vdrs = s.vdrs := (rfl)
@[simp] theorem State.setMotHeld_pvm (s : State) (l : List (Nat × MotHeld)) : (s.setMotHeld l).pvm = s.pvm := (rfl)
@[simp] theorem State.setMotHeld_cyc (s : State) (l : List (Nat × MotHeld)) : (s.setMotHeld l).cyc = s.cyc := (rfl)
@[simp] theorem State.setMotHeld_iml (s : State) (l : List (Nat × MotHeld)) : (s.setMotHeld l).iml = s.iml := (rfl)
@[simp] theorem State.setMotHeld_cans (s : State) (l : List (Nat × MotHeld)) : (s.setMotHeld l).cans = s.cans := (rfl)
@[simp] theorem State.setMotHeld_eths (s : State) (l : List (Nat × MotHeld)) : (s.setMotHeld l).eths = s.eths := (rfl)
@[simp] theorem State.setMotHeld_prps (s : State) (l : List (Nat × MotHeld)) : (s.setMotHeld l).prps = s.prps := (rfl)
@[simp] theorem State.setMotHeld_rra (s : State) (l : List (Nat × MotHeld)) : (s.setMotHeld l).rra = s.rra := (rfl)
@[simp] theorem State.setMotHeld_plk (s : State) (l : List (Nat × MotHeld)) : (s.setMotHeld l).plk = s.plk := (rfl)
@[simp] theorem State.setMotHeld_vlt (s : State) (l : List (Nat × MotHeld)) : (s.setMotHeld l).vlt = s.vlt := (rfl)
@[simp] theorem State.setMotHeld_rpc (s : State) (l : List (Nat × MotHeld)) : (s.setMotHeld l).rpc = s.rpc := (rfl)
@[simp] theorem State.setMotHeld_motHeld (s : State) (l : List (Nat × MotHeld)) : (s.setMotHeld l).motHeld = l := (rfl)

@[simp] theorem State.setAxes_pending (s : State) (l : List (Nat × Axis)) : (s.setAxes l).pending = s.pending := (rfl)
@[simp] theorem State.setAxes_regs (s : State) (l : List (Nat × Axis)) : (s.setAxes l).regs = s.regs := (rfl)
@[simp] theorem State.setAxes_mem (s : State) (l : List (Nat × Axis)) : (s.setAxes l).mem = s.mem := (rfl)
@[simp] theorem State.setAxes_fresh (s : State) (l : List (Nat × Axis)) : (s.setAxes l).fresh = s.fresh := (rfl)
@[simp] theorem State.setAxes_bus (s : State) (l : List (Nat × Axis)) : (s.setAxes l).bus = s.bus := (rfl)
@[simp] theorem State.setAxes_latch (s : State) (l : List (Nat × Axis)) : (s.setAxes l).latch = s.latch := (rfl)
@[simp] theorem State.setAxes_claimed (s : State) (l : List (Nat × Axis)) : (s.setAxes l).claimed = s.claimed := (rfl)
@[simp] theorem State.setAxes_wire (s : State) (l : List (Nat × Axis)) : (s.setAxes l).wire = s.wire := (rfl)
@[simp] theorem State.setAxes_evl (s : State) (l : List (Nat × Axis)) : (s.setAxes l).evl = s.evl := (rfl)
@[simp] theorem State.setAxes_time (s : State) (l : List (Nat × Axis)) : (s.setAxes l).time = s.time := (rfl)
@[simp] theorem State.setAxes_courses (s : State) (l : List (Nat × Axis)) : (s.setAxes l).courses = s.courses := (rfl)
@[simp] theorem State.setAxes_tabs (s : State) (l : List (Nat × Axis)) : (s.setAxes l).tabs = s.tabs := (rfl)
@[simp] theorem State.setAxes_inflight (s : State) (l : List (Nat × Axis)) : (s.setAxes l).inflight = s.inflight := (rfl)
@[simp] theorem State.setAxes_dins (s : State) (l : List (Nat × Axis)) : (s.setAxes l).dins = s.dins := (rfl)
@[simp] theorem State.setAxes_fwl (s : State) (l : List (Nat × Axis)) : (s.setAxes l).fwl = s.fwl := (rfl)
@[simp] theorem State.setAxes_healths (s : State) (l : List (Nat × Axis)) : (s.setAxes l).healths = s.healths := (rfl)
@[simp] theorem State.setAxes_healthX (s : State) (l : List (Nat × Axis)) : (s.setAxes l).healthX = s.healthX := (rfl)
@[simp] theorem State.setAxes_img (s : State) (l : List (Nat × Axis)) : (s.setAxes l).img = s.img := (rfl)
@[simp] theorem State.setAxes_cox (s : State) (l : List (Nat × Axis)) : (s.setAxes l).cox = s.cox := (rfl)
@[simp] theorem State.setAxes_convs (s : State) (l : List (Nat × Axis)) : (s.setAxes l).convs = s.convs := (rfl)
@[simp] theorem State.setAxes_pairs (s : State) (l : List (Nat × Axis)) : (s.setAxes l).pairs = s.pairs := (rfl)
@[simp] theorem State.setAxes_owRun (s : State) (l : List (Nat × Axis)) : (s.setAxes l).owRun = s.owRun := (rfl)
@[simp] theorem State.setAxes_cal (s : State) (l : List (Nat × Axis)) : (s.setAxes l).cal = s.cal := (rfl)
@[simp] theorem State.setAxes_dma (s : State) (l : List (Nat × Axis)) : (s.setAxes l).dma = s.dma := (rfl)
@[simp] theorem State.setAxes_dmaLast (s : State) (l : List (Nat × Axis)) : (s.setAxes l).dmaLast = s.dmaLast := (rfl)
@[simp] theorem State.setAxes_rmv (s : State) (l : List (Nat × Axis)) : (s.setAxes l).rmv = s.rmv := (rfl)
@[simp] theorem State.setAxes_lpe (s : State) (l : List (Nat × Axis)) : (s.setAxes l).lpe = s.lpe := (rfl)
@[simp] theorem State.setAxes_lsm (s : State) (l : List (Nat × Axis)) : (s.setAxes l).lsm = s.lsm := (rfl)
@[simp] theorem State.setAxes_mig (s : State) (l : List (Nat × Axis)) : (s.setAxes l).mig = s.mig := (rfl)
@[simp] theorem State.setAxes_owed (s : State) (l : List (Nat × Axis)) : (s.setAxes l).owed = s.owed := (rfl)
@[simp] theorem State.setAxes_motHeld (s : State) (l : List (Nat × Axis)) : (s.setAxes l).motHeld = s.motHeld := (rfl)
@[simp] theorem State.setAxes_encs (s : State) (l : List (Nat × Axis)) : (s.setAxes l).encs = s.encs := (rfl)
@[simp] theorem State.setAxes_rce (s : State) (l : List (Nat × Axis)) : (s.setAxes l).rce = s.rce := (rfl)
@[simp] theorem State.setAxes_seq (s : State) (l : List (Nat × Axis)) : (s.setAxes l).seq = s.seq := (rfl)
@[simp] theorem State.setAxes_clos (s : State) (l : List (Nat × Axis)) : (s.setAxes l).clos = s.clos := (rfl)
@[simp] theorem State.setAxes_vdrs (s : State) (l : List (Nat × Axis)) : (s.setAxes l).vdrs = s.vdrs := (rfl)
@[simp] theorem State.setAxes_pvm (s : State) (l : List (Nat × Axis)) : (s.setAxes l).pvm = s.pvm := (rfl)
@[simp] theorem State.setAxes_cyc (s : State) (l : List (Nat × Axis)) : (s.setAxes l).cyc = s.cyc := (rfl)
@[simp] theorem State.setAxes_iml (s : State) (l : List (Nat × Axis)) : (s.setAxes l).iml = s.iml := (rfl)
@[simp] theorem State.setAxes_cans (s : State) (l : List (Nat × Axis)) : (s.setAxes l).cans = s.cans := (rfl)
@[simp] theorem State.setAxes_eths (s : State) (l : List (Nat × Axis)) : (s.setAxes l).eths = s.eths := (rfl)
@[simp] theorem State.setAxes_prps (s : State) (l : List (Nat × Axis)) : (s.setAxes l).prps = s.prps := (rfl)
@[simp] theorem State.setAxes_rra (s : State) (l : List (Nat × Axis)) : (s.setAxes l).rra = s.rra := (rfl)
@[simp] theorem State.setAxes_plk (s : State) (l : List (Nat × Axis)) : (s.setAxes l).plk = s.plk := (rfl)
@[simp] theorem State.setAxes_vlt (s : State) (l : List (Nat × Axis)) : (s.setAxes l).vlt = s.vlt := (rfl)
@[simp] theorem State.setAxes_rpc (s : State) (l : List (Nat × Axis)) : (s.setAxes l).rpc = s.rpc := (rfl)
@[simp] theorem State.setAxes_axes (s : State) (l : List (Nat × Axis)) : (s.setAxes l).axes = l := (rfl)

@[simp] theorem State.takeFresh_pending (s : State) (n : Nat) : (s.takeFresh n).pending = s.pending := (rfl)
@[simp] theorem State.takeFresh_regs (s : State) (n : Nat) : (s.takeFresh n).regs = s.regs := (rfl)
@[simp] theorem State.takeFresh_mem (s : State) (n : Nat) : (s.takeFresh n).mem = s.mem := (rfl)
@[simp] theorem State.takeFresh_bus (s : State) (n : Nat) : (s.takeFresh n).bus = s.bus := (rfl)
@[simp] theorem State.takeFresh_latch (s : State) (n : Nat) : (s.takeFresh n).latch = s.latch := (rfl)
@[simp] theorem State.takeFresh_claimed (s : State) (n : Nat) : (s.takeFresh n).claimed = s.claimed := (rfl)
@[simp] theorem State.takeFresh_wire (s : State) (n : Nat) : (s.takeFresh n).wire = s.wire := (rfl)
@[simp] theorem State.takeFresh_evl (s : State) (n : Nat) : (s.takeFresh n).evl = s.evl := (rfl)
@[simp] theorem State.takeFresh_time (s : State) (n : Nat) : (s.takeFresh n).time = s.time := (rfl)
@[simp] theorem State.takeFresh_courses (s : State) (n : Nat) : (s.takeFresh n).courses = s.courses := (rfl)
@[simp] theorem State.takeFresh_tabs (s : State) (n : Nat) : (s.takeFresh n).tabs = s.tabs := (rfl)
@[simp] theorem State.takeFresh_inflight (s : State) (n : Nat) : (s.takeFresh n).inflight = s.inflight := (rfl)
@[simp] theorem State.takeFresh_dins (s : State) (n : Nat) : (s.takeFresh n).dins = s.dins := (rfl)
@[simp] theorem State.takeFresh_fwl (s : State) (n : Nat) : (s.takeFresh n).fwl = s.fwl := (rfl)
@[simp] theorem State.takeFresh_healths (s : State) (n : Nat) : (s.takeFresh n).healths = s.healths := (rfl)
@[simp] theorem State.takeFresh_healthX (s : State) (n : Nat) : (s.takeFresh n).healthX = s.healthX := (rfl)
@[simp] theorem State.takeFresh_img (s : State) (n : Nat) : (s.takeFresh n).img = s.img := (rfl)
@[simp] theorem State.takeFresh_cox (s : State) (n : Nat) : (s.takeFresh n).cox = s.cox := (rfl)
@[simp] theorem State.takeFresh_convs (s : State) (n : Nat) : (s.takeFresh n).convs = s.convs := (rfl)
@[simp] theorem State.takeFresh_pairs (s : State) (n : Nat) : (s.takeFresh n).pairs = s.pairs := (rfl)
@[simp] theorem State.takeFresh_owRun (s : State) (n : Nat) : (s.takeFresh n).owRun = s.owRun := (rfl)
@[simp] theorem State.takeFresh_cal (s : State) (n : Nat) : (s.takeFresh n).cal = s.cal := (rfl)
@[simp] theorem State.takeFresh_dma (s : State) (n : Nat) : (s.takeFresh n).dma = s.dma := (rfl)
@[simp] theorem State.takeFresh_dmaLast (s : State) (n : Nat) : (s.takeFresh n).dmaLast = s.dmaLast := (rfl)
@[simp] theorem State.takeFresh_rmv (s : State) (n : Nat) : (s.takeFresh n).rmv = s.rmv := (rfl)
@[simp] theorem State.takeFresh_lpe (s : State) (n : Nat) : (s.takeFresh n).lpe = s.lpe := (rfl)
@[simp] theorem State.takeFresh_lsm (s : State) (n : Nat) : (s.takeFresh n).lsm = s.lsm := (rfl)
@[simp] theorem State.takeFresh_mig (s : State) (n : Nat) : (s.takeFresh n).mig = s.mig := (rfl)
@[simp] theorem State.takeFresh_owed (s : State) (n : Nat) : (s.takeFresh n).owed = s.owed := (rfl)
@[simp] theorem State.takeFresh_axes (s : State) (n : Nat) : (s.takeFresh n).axes = s.axes := (rfl)
@[simp] theorem State.takeFresh_motHeld (s : State) (n : Nat) : (s.takeFresh n).motHeld = s.motHeld := (rfl)
@[simp] theorem State.takeFresh_encs (s : State) (n : Nat) : (s.takeFresh n).encs = s.encs := (rfl)
@[simp] theorem State.takeFresh_rce (s : State) (n : Nat) : (s.takeFresh n).rce = s.rce := (rfl)
@[simp] theorem State.takeFresh_seq (s : State) (n : Nat) : (s.takeFresh n).seq = s.seq := (rfl)
@[simp] theorem State.takeFresh_clos (s : State) (n : Nat) : (s.takeFresh n).clos = s.clos := (rfl)
@[simp] theorem State.takeFresh_vdrs (s : State) (n : Nat) : (s.takeFresh n).vdrs = s.vdrs := (rfl)
@[simp] theorem State.takeFresh_pvm (s : State) (n : Nat) : (s.takeFresh n).pvm = s.pvm := (rfl)
@[simp] theorem State.takeFresh_cyc (s : State) (n : Nat) : (s.takeFresh n).cyc = s.cyc := (rfl)
@[simp] theorem State.takeFresh_iml (s : State) (n : Nat) : (s.takeFresh n).iml = s.iml := (rfl)
@[simp] theorem State.takeFresh_cans (s : State) (n : Nat) : (s.takeFresh n).cans = s.cans := (rfl)
@[simp] theorem State.takeFresh_eths (s : State) (n : Nat) : (s.takeFresh n).eths = s.eths := (rfl)
@[simp] theorem State.takeFresh_prps (s : State) (n : Nat) : (s.takeFresh n).prps = s.prps := (rfl)
@[simp] theorem State.takeFresh_rra (s : State) (n : Nat) : (s.takeFresh n).rra = s.rra := (rfl)
@[simp] theorem State.takeFresh_plk (s : State) (n : Nat) : (s.takeFresh n).plk = s.plk := (rfl)
@[simp] theorem State.takeFresh_vlt (s : State) (n : Nat) : (s.takeFresh n).vlt = s.vlt := (rfl)
@[simp] theorem State.takeFresh_rpc (s : State) (n : Nat) : (s.takeFresh n).rpc = s.rpc := (rfl)

@[simp] theorem State.setDma_pending (s : State) (n ch : Nat) (d : DmaChan) : (s.setDma n ch d).pending = s.pending := (rfl)
@[simp] theorem State.setDma_regs (s : State) (n ch : Nat) (d : DmaChan) : (s.setDma n ch d).regs = s.regs := (rfl)
@[simp] theorem State.setDma_mem (s : State) (n ch : Nat) (d : DmaChan) : (s.setDma n ch d).mem = s.mem := (rfl)
@[simp] theorem State.setDma_fresh (s : State) (n ch : Nat) (d : DmaChan) : (s.setDma n ch d).fresh = s.fresh := (rfl)
@[simp] theorem State.setDma_bus (s : State) (n ch : Nat) (d : DmaChan) : (s.setDma n ch d).bus = s.bus := (rfl)
@[simp] theorem State.setDma_latch (s : State) (n ch : Nat) (d : DmaChan) : (s.setDma n ch d).latch = s.latch := (rfl)
@[simp] theorem State.setDma_claimed (s : State) (n ch : Nat) (d : DmaChan) : (s.setDma n ch d).claimed = s.claimed := (rfl)
@[simp] theorem State.setDma_wire (s : State) (n ch : Nat) (d : DmaChan) : (s.setDma n ch d).wire = s.wire := (rfl)
@[simp] theorem State.setDma_evl (s : State) (n ch : Nat) (d : DmaChan) : (s.setDma n ch d).evl = s.evl := (rfl)
@[simp] theorem State.setDma_time (s : State) (n ch : Nat) (d : DmaChan) : (s.setDma n ch d).time = s.time := (rfl)
@[simp] theorem State.setDma_courses (s : State) (n ch : Nat) (d : DmaChan) : (s.setDma n ch d).courses = s.courses := (rfl)
@[simp] theorem State.setDma_tabs (s : State) (n ch : Nat) (d : DmaChan) : (s.setDma n ch d).tabs = s.tabs := (rfl)
@[simp] theorem State.setDma_inflight (s : State) (n ch : Nat) (d : DmaChan) : (s.setDma n ch d).inflight = s.inflight := (rfl)
@[simp] theorem State.setDma_dins (s : State) (n ch : Nat) (d : DmaChan) : (s.setDma n ch d).dins = s.dins := (rfl)
@[simp] theorem State.setDma_fwl (s : State) (n ch : Nat) (d : DmaChan) : (s.setDma n ch d).fwl = s.fwl := (rfl)
@[simp] theorem State.setDma_healths (s : State) (n ch : Nat) (d : DmaChan) : (s.setDma n ch d).healths = s.healths := (rfl)
@[simp] theorem State.setDma_healthX (s : State) (n ch : Nat) (d : DmaChan) : (s.setDma n ch d).healthX = s.healthX := (rfl)
@[simp] theorem State.setDma_img (s : State) (n ch : Nat) (d : DmaChan) : (s.setDma n ch d).img = s.img := (rfl)
@[simp] theorem State.setDma_cox (s : State) (n ch : Nat) (d : DmaChan) : (s.setDma n ch d).cox = s.cox := (rfl)
@[simp] theorem State.setDma_convs (s : State) (n ch : Nat) (d : DmaChan) : (s.setDma n ch d).convs = s.convs := (rfl)
@[simp] theorem State.setDma_pairs (s : State) (n ch : Nat) (d : DmaChan) : (s.setDma n ch d).pairs = s.pairs := (rfl)
@[simp] theorem State.setDma_owRun (s : State) (n ch : Nat) (d : DmaChan) : (s.setDma n ch d).owRun = s.owRun := (rfl)
@[simp] theorem State.setDma_cal (s : State) (n ch : Nat) (d : DmaChan) : (s.setDma n ch d).cal = s.cal := (rfl)
@[simp] theorem State.setDma_dmaLast (s : State) (n ch : Nat) (d : DmaChan) : (s.setDma n ch d).dmaLast = s.dmaLast := (rfl)
@[simp] theorem State.setDma_rmv (s : State) (n ch : Nat) (d : DmaChan) : (s.setDma n ch d).rmv = s.rmv := (rfl)
@[simp] theorem State.setDma_lpe (s : State) (n ch : Nat) (d : DmaChan) : (s.setDma n ch d).lpe = s.lpe := (rfl)
@[simp] theorem State.setDma_lsm (s : State) (n ch : Nat) (d : DmaChan) : (s.setDma n ch d).lsm = s.lsm := (rfl)
@[simp] theorem State.setDma_mig (s : State) (n ch : Nat) (d : DmaChan) : (s.setDma n ch d).mig = s.mig := (rfl)
@[simp] theorem State.setDma_owed (s : State) (n ch : Nat) (d : DmaChan) : (s.setDma n ch d).owed = s.owed := (rfl)
@[simp] theorem State.setDma_axes (s : State) (n ch : Nat) (d : DmaChan) : (s.setDma n ch d).axes = s.axes := (rfl)
@[simp] theorem State.setDma_motHeld (s : State) (n ch : Nat) (d : DmaChan) : (s.setDma n ch d).motHeld = s.motHeld := (rfl)
@[simp] theorem State.setDma_encs (s : State) (n ch : Nat) (d : DmaChan) : (s.setDma n ch d).encs = s.encs := (rfl)
@[simp] theorem State.setDma_rce (s : State) (n ch : Nat) (d : DmaChan) : (s.setDma n ch d).rce = s.rce := (rfl)
@[simp] theorem State.setDma_seq (s : State) (n ch : Nat) (d : DmaChan) : (s.setDma n ch d).seq = s.seq := (rfl)
@[simp] theorem State.setDma_clos (s : State) (n ch : Nat) (d : DmaChan) : (s.setDma n ch d).clos = s.clos := (rfl)
@[simp] theorem State.setDma_vdrs (s : State) (n ch : Nat) (d : DmaChan) : (s.setDma n ch d).vdrs = s.vdrs := (rfl)
@[simp] theorem State.setDma_pvm (s : State) (n ch : Nat) (d : DmaChan) : (s.setDma n ch d).pvm = s.pvm := (rfl)
@[simp] theorem State.setDma_cyc (s : State) (n ch : Nat) (d : DmaChan) : (s.setDma n ch d).cyc = s.cyc := (rfl)
@[simp] theorem State.setDma_iml (s : State) (n ch : Nat) (d : DmaChan) : (s.setDma n ch d).iml = s.iml := (rfl)
@[simp] theorem State.setDma_cans (s : State) (n ch : Nat) (d : DmaChan) : (s.setDma n ch d).cans = s.cans := (rfl)
@[simp] theorem State.setDma_eths (s : State) (n ch : Nat) (d : DmaChan) : (s.setDma n ch d).eths = s.eths := (rfl)
@[simp] theorem State.setDma_prps (s : State) (n ch : Nat) (d : DmaChan) : (s.setDma n ch d).prps = s.prps := (rfl)
@[simp] theorem State.setDma_rra (s : State) (n ch : Nat) (d : DmaChan) : (s.setDma n ch d).rra = s.rra := (rfl)
@[simp] theorem State.setDma_plk (s : State) (n ch : Nat) (d : DmaChan) : (s.setDma n ch d).plk = s.plk := (rfl)
@[simp] theorem State.setDma_vlt (s : State) (n ch : Nat) (d : DmaChan) : (s.setDma n ch d).vlt = s.vlt := (rfl)
@[simp] theorem State.setDma_rpc (s : State) (n ch : Nat) (d : DmaChan) : (s.setDma n ch d).rpc = s.rpc := (rfl)

@[simp] theorem State.setRmv_pending (s : State) (c : Nat) (x : RmvChan) : (s.setRmv c x).pending = s.pending := (rfl)
@[simp] theorem State.setRmv_regs (s : State) (c : Nat) (x : RmvChan) : (s.setRmv c x).regs = s.regs := (rfl)
@[simp] theorem State.setRmv_mem (s : State) (c : Nat) (x : RmvChan) : (s.setRmv c x).mem = s.mem := (rfl)
@[simp] theorem State.setRmv_fresh (s : State) (c : Nat) (x : RmvChan) : (s.setRmv c x).fresh = s.fresh := (rfl)
@[simp] theorem State.setRmv_bus (s : State) (c : Nat) (x : RmvChan) : (s.setRmv c x).bus = s.bus := (rfl)
@[simp] theorem State.setRmv_latch (s : State) (c : Nat) (x : RmvChan) : (s.setRmv c x).latch = s.latch := (rfl)
@[simp] theorem State.setRmv_claimed (s : State) (c : Nat) (x : RmvChan) : (s.setRmv c x).claimed = s.claimed := (rfl)
@[simp] theorem State.setRmv_wire (s : State) (c : Nat) (x : RmvChan) : (s.setRmv c x).wire = s.wire := (rfl)
@[simp] theorem State.setRmv_evl (s : State) (c : Nat) (x : RmvChan) : (s.setRmv c x).evl = s.evl := (rfl)
@[simp] theorem State.setRmv_time (s : State) (c : Nat) (x : RmvChan) : (s.setRmv c x).time = s.time := (rfl)
@[simp] theorem State.setRmv_courses (s : State) (c : Nat) (x : RmvChan) : (s.setRmv c x).courses = s.courses := (rfl)
@[simp] theorem State.setRmv_tabs (s : State) (c : Nat) (x : RmvChan) : (s.setRmv c x).tabs = s.tabs := (rfl)
@[simp] theorem State.setRmv_inflight (s : State) (c : Nat) (x : RmvChan) : (s.setRmv c x).inflight = s.inflight := (rfl)
@[simp] theorem State.setRmv_dins (s : State) (c : Nat) (x : RmvChan) : (s.setRmv c x).dins = s.dins := (rfl)
@[simp] theorem State.setRmv_fwl (s : State) (c : Nat) (x : RmvChan) : (s.setRmv c x).fwl = s.fwl := (rfl)
@[simp] theorem State.setRmv_healths (s : State) (c : Nat) (x : RmvChan) : (s.setRmv c x).healths = s.healths := (rfl)
@[simp] theorem State.setRmv_healthX (s : State) (c : Nat) (x : RmvChan) : (s.setRmv c x).healthX = s.healthX := (rfl)
@[simp] theorem State.setRmv_img (s : State) (c : Nat) (x : RmvChan) : (s.setRmv c x).img = s.img := (rfl)
@[simp] theorem State.setRmv_cox (s : State) (c : Nat) (x : RmvChan) : (s.setRmv c x).cox = s.cox := (rfl)
@[simp] theorem State.setRmv_convs (s : State) (c : Nat) (x : RmvChan) : (s.setRmv c x).convs = s.convs := (rfl)
@[simp] theorem State.setRmv_pairs (s : State) (c : Nat) (x : RmvChan) : (s.setRmv c x).pairs = s.pairs := (rfl)
@[simp] theorem State.setRmv_owRun (s : State) (c : Nat) (x : RmvChan) : (s.setRmv c x).owRun = s.owRun := (rfl)
@[simp] theorem State.setRmv_cal (s : State) (c : Nat) (x : RmvChan) : (s.setRmv c x).cal = s.cal := (rfl)
@[simp] theorem State.setRmv_dma (s : State) (c : Nat) (x : RmvChan) : (s.setRmv c x).dma = s.dma := (rfl)
@[simp] theorem State.setRmv_dmaLast (s : State) (c : Nat) (x : RmvChan) : (s.setRmv c x).dmaLast = s.dmaLast := (rfl)
@[simp] theorem State.setRmv_lpe (s : State) (c : Nat) (x : RmvChan) : (s.setRmv c x).lpe = s.lpe := (rfl)
@[simp] theorem State.setRmv_lsm (s : State) (c : Nat) (x : RmvChan) : (s.setRmv c x).lsm = s.lsm := (rfl)
@[simp] theorem State.setRmv_mig (s : State) (c : Nat) (x : RmvChan) : (s.setRmv c x).mig = s.mig := (rfl)
@[simp] theorem State.setRmv_owed (s : State) (c : Nat) (x : RmvChan) : (s.setRmv c x).owed = s.owed := (rfl)
@[simp] theorem State.setRmv_axes (s : State) (c : Nat) (x : RmvChan) : (s.setRmv c x).axes = s.axes := (rfl)
@[simp] theorem State.setRmv_motHeld (s : State) (c : Nat) (x : RmvChan) : (s.setRmv c x).motHeld = s.motHeld := (rfl)
@[simp] theorem State.setRmv_encs (s : State) (c : Nat) (x : RmvChan) : (s.setRmv c x).encs = s.encs := (rfl)
@[simp] theorem State.setRmv_rce (s : State) (c : Nat) (x : RmvChan) : (s.setRmv c x).rce = s.rce := (rfl)
@[simp] theorem State.setRmv_seq (s : State) (c : Nat) (x : RmvChan) : (s.setRmv c x).seq = s.seq := (rfl)
@[simp] theorem State.setRmv_clos (s : State) (c : Nat) (x : RmvChan) : (s.setRmv c x).clos = s.clos := (rfl)
@[simp] theorem State.setRmv_vdrs (s : State) (c : Nat) (x : RmvChan) : (s.setRmv c x).vdrs = s.vdrs := (rfl)
@[simp] theorem State.setRmv_pvm (s : State) (c : Nat) (x : RmvChan) : (s.setRmv c x).pvm = s.pvm := (rfl)
@[simp] theorem State.setRmv_cyc (s : State) (c : Nat) (x : RmvChan) : (s.setRmv c x).cyc = s.cyc := (rfl)
@[simp] theorem State.setRmv_iml (s : State) (c : Nat) (x : RmvChan) : (s.setRmv c x).iml = s.iml := (rfl)
@[simp] theorem State.setRmv_cans (s : State) (c : Nat) (x : RmvChan) : (s.setRmv c x).cans = s.cans := (rfl)
@[simp] theorem State.setRmv_eths (s : State) (c : Nat) (x : RmvChan) : (s.setRmv c x).eths = s.eths := (rfl)
@[simp] theorem State.setRmv_prps (s : State) (c : Nat) (x : RmvChan) : (s.setRmv c x).prps = s.prps := (rfl)
@[simp] theorem State.setRmv_rra (s : State) (c : Nat) (x : RmvChan) : (s.setRmv c x).rra = s.rra := (rfl)
@[simp] theorem State.setRmv_plk (s : State) (c : Nat) (x : RmvChan) : (s.setRmv c x).plk = s.plk := (rfl)
@[simp] theorem State.setRmv_vlt (s : State) (c : Nat) (x : RmvChan) : (s.setRmv c x).vlt = s.vlt := (rfl)
@[simp] theorem State.setRmv_rpc (s : State) (c : Nat) (x : RmvChan) : (s.setRmv c x).rpc = s.rpc := (rfl)

@[simp] theorem State.setSlot_pending (s : State) (r : Nat) (x : SeqSlot) : (s.setSlot r x).pending = s.pending := (rfl)
@[simp] theorem State.setSlot_regs (s : State) (r : Nat) (x : SeqSlot) : (s.setSlot r x).regs = s.regs := (rfl)
@[simp] theorem State.setSlot_mem (s : State) (r : Nat) (x : SeqSlot) : (s.setSlot r x).mem = s.mem := (rfl)
@[simp] theorem State.setSlot_fresh (s : State) (r : Nat) (x : SeqSlot) : (s.setSlot r x).fresh = s.fresh := (rfl)
@[simp] theorem State.setSlot_bus (s : State) (r : Nat) (x : SeqSlot) : (s.setSlot r x).bus = s.bus := (rfl)
@[simp] theorem State.setSlot_latch (s : State) (r : Nat) (x : SeqSlot) : (s.setSlot r x).latch = s.latch := (rfl)
@[simp] theorem State.setSlot_claimed (s : State) (r : Nat) (x : SeqSlot) : (s.setSlot r x).claimed = s.claimed := (rfl)
@[simp] theorem State.setSlot_wire (s : State) (r : Nat) (x : SeqSlot) : (s.setSlot r x).wire = s.wire := (rfl)
@[simp] theorem State.setSlot_evl (s : State) (r : Nat) (x : SeqSlot) : (s.setSlot r x).evl = s.evl := (rfl)
@[simp] theorem State.setSlot_time (s : State) (r : Nat) (x : SeqSlot) : (s.setSlot r x).time = s.time := (rfl)
@[simp] theorem State.setSlot_courses (s : State) (r : Nat) (x : SeqSlot) : (s.setSlot r x).courses = s.courses := (rfl)
@[simp] theorem State.setSlot_tabs (s : State) (r : Nat) (x : SeqSlot) : (s.setSlot r x).tabs = s.tabs := (rfl)
@[simp] theorem State.setSlot_inflight (s : State) (r : Nat) (x : SeqSlot) : (s.setSlot r x).inflight = s.inflight := (rfl)
@[simp] theorem State.setSlot_dins (s : State) (r : Nat) (x : SeqSlot) : (s.setSlot r x).dins = s.dins := (rfl)
@[simp] theorem State.setSlot_fwl (s : State) (r : Nat) (x : SeqSlot) : (s.setSlot r x).fwl = s.fwl := (rfl)
@[simp] theorem State.setSlot_healths (s : State) (r : Nat) (x : SeqSlot) : (s.setSlot r x).healths = s.healths := (rfl)
@[simp] theorem State.setSlot_healthX (s : State) (r : Nat) (x : SeqSlot) : (s.setSlot r x).healthX = s.healthX := (rfl)
@[simp] theorem State.setSlot_img (s : State) (r : Nat) (x : SeqSlot) : (s.setSlot r x).img = s.img := (rfl)
@[simp] theorem State.setSlot_cox (s : State) (r : Nat) (x : SeqSlot) : (s.setSlot r x).cox = s.cox := (rfl)
@[simp] theorem State.setSlot_convs (s : State) (r : Nat) (x : SeqSlot) : (s.setSlot r x).convs = s.convs := (rfl)
@[simp] theorem State.setSlot_pairs (s : State) (r : Nat) (x : SeqSlot) : (s.setSlot r x).pairs = s.pairs := (rfl)
@[simp] theorem State.setSlot_owRun (s : State) (r : Nat) (x : SeqSlot) : (s.setSlot r x).owRun = s.owRun := (rfl)
@[simp] theorem State.setSlot_cal (s : State) (r : Nat) (x : SeqSlot) : (s.setSlot r x).cal = s.cal := (rfl)
@[simp] theorem State.setSlot_dma (s : State) (r : Nat) (x : SeqSlot) : (s.setSlot r x).dma = s.dma := (rfl)
@[simp] theorem State.setSlot_dmaLast (s : State) (r : Nat) (x : SeqSlot) : (s.setSlot r x).dmaLast = s.dmaLast := (rfl)
@[simp] theorem State.setSlot_rmv (s : State) (r : Nat) (x : SeqSlot) : (s.setSlot r x).rmv = s.rmv := (rfl)
@[simp] theorem State.setSlot_lpe (s : State) (r : Nat) (x : SeqSlot) : (s.setSlot r x).lpe = s.lpe := (rfl)
@[simp] theorem State.setSlot_lsm (s : State) (r : Nat) (x : SeqSlot) : (s.setSlot r x).lsm = s.lsm := (rfl)
@[simp] theorem State.setSlot_mig (s : State) (r : Nat) (x : SeqSlot) : (s.setSlot r x).mig = s.mig := (rfl)
@[simp] theorem State.setSlot_owed (s : State) (r : Nat) (x : SeqSlot) : (s.setSlot r x).owed = s.owed := (rfl)
@[simp] theorem State.setSlot_axes (s : State) (r : Nat) (x : SeqSlot) : (s.setSlot r x).axes = s.axes := (rfl)
@[simp] theorem State.setSlot_motHeld (s : State) (r : Nat) (x : SeqSlot) : (s.setSlot r x).motHeld = s.motHeld := (rfl)
@[simp] theorem State.setSlot_encs (s : State) (r : Nat) (x : SeqSlot) : (s.setSlot r x).encs = s.encs := (rfl)
@[simp] theorem State.setSlot_rce (s : State) (r : Nat) (x : SeqSlot) : (s.setSlot r x).rce = s.rce := (rfl)
@[simp] theorem State.setSlot_clos (s : State) (r : Nat) (x : SeqSlot) : (s.setSlot r x).clos = s.clos := (rfl)
@[simp] theorem State.setSlot_vdrs (s : State) (r : Nat) (x : SeqSlot) : (s.setSlot r x).vdrs = s.vdrs := (rfl)
@[simp] theorem State.setSlot_pvm (s : State) (r : Nat) (x : SeqSlot) : (s.setSlot r x).pvm = s.pvm := (rfl)
@[simp] theorem State.setSlot_cyc (s : State) (r : Nat) (x : SeqSlot) : (s.setSlot r x).cyc = s.cyc := (rfl)
@[simp] theorem State.setSlot_iml (s : State) (r : Nat) (x : SeqSlot) : (s.setSlot r x).iml = s.iml := (rfl)
@[simp] theorem State.setSlot_cans (s : State) (r : Nat) (x : SeqSlot) : (s.setSlot r x).cans = s.cans := (rfl)
@[simp] theorem State.setSlot_eths (s : State) (r : Nat) (x : SeqSlot) : (s.setSlot r x).eths = s.eths := (rfl)
@[simp] theorem State.setSlot_prps (s : State) (r : Nat) (x : SeqSlot) : (s.setSlot r x).prps = s.prps := (rfl)
@[simp] theorem State.setSlot_rra (s : State) (r : Nat) (x : SeqSlot) : (s.setSlot r x).rra = s.rra := (rfl)
@[simp] theorem State.setSlot_plk (s : State) (r : Nat) (x : SeqSlot) : (s.setSlot r x).plk = s.plk := (rfl)
@[simp] theorem State.setSlot_vlt (s : State) (r : Nat) (x : SeqSlot) : (s.setSlot r x).vlt = s.vlt := (rfl)
@[simp] theorem State.setSlot_rpc (s : State) (r : Nat) (x : SeqSlot) : (s.setSlot r x).rpc = s.rpc := (rfl)

@[simp] theorem State.setCap_pending (s : State) (c : Nat) (x : Cap) : (s.setCap c x).pending = s.pending := (rfl)
@[simp] theorem State.setCap_regs (s : State) (c : Nat) (x : Cap) : (s.setCap c x).regs = s.regs := (rfl)
@[simp] theorem State.setCap_mem (s : State) (c : Nat) (x : Cap) : (s.setCap c x).mem = s.mem := (rfl)
@[simp] theorem State.setCap_fresh (s : State) (c : Nat) (x : Cap) : (s.setCap c x).fresh = s.fresh := (rfl)
@[simp] theorem State.setCap_bus (s : State) (c : Nat) (x : Cap) : (s.setCap c x).bus = s.bus := (rfl)
@[simp] theorem State.setCap_latch (s : State) (c : Nat) (x : Cap) : (s.setCap c x).latch = s.latch := (rfl)
@[simp] theorem State.setCap_claimed (s : State) (c : Nat) (x : Cap) : (s.setCap c x).claimed = s.claimed := (rfl)
@[simp] theorem State.setCap_wire (s : State) (c : Nat) (x : Cap) : (s.setCap c x).wire = s.wire := (rfl)
@[simp] theorem State.setCap_evl (s : State) (c : Nat) (x : Cap) : (s.setCap c x).evl = s.evl := (rfl)
@[simp] theorem State.setCap_time (s : State) (c : Nat) (x : Cap) : (s.setCap c x).time = s.time := (rfl)
@[simp] theorem State.setCap_courses (s : State) (c : Nat) (x : Cap) : (s.setCap c x).courses = s.courses := (rfl)
@[simp] theorem State.setCap_tabs (s : State) (c : Nat) (x : Cap) : (s.setCap c x).tabs = s.tabs := (rfl)
@[simp] theorem State.setCap_inflight (s : State) (c : Nat) (x : Cap) : (s.setCap c x).inflight = s.inflight := (rfl)
@[simp] theorem State.setCap_dins (s : State) (c : Nat) (x : Cap) : (s.setCap c x).dins = s.dins := (rfl)
@[simp] theorem State.setCap_fwl (s : State) (c : Nat) (x : Cap) : (s.setCap c x).fwl = s.fwl := (rfl)
@[simp] theorem State.setCap_healths (s : State) (c : Nat) (x : Cap) : (s.setCap c x).healths = s.healths := (rfl)
@[simp] theorem State.setCap_healthX (s : State) (c : Nat) (x : Cap) : (s.setCap c x).healthX = s.healthX := (rfl)
@[simp] theorem State.setCap_img (s : State) (c : Nat) (x : Cap) : (s.setCap c x).img = s.img := (rfl)
@[simp] theorem State.setCap_cox (s : State) (c : Nat) (x : Cap) : (s.setCap c x).cox = s.cox := (rfl)
@[simp] theorem State.setCap_convs (s : State) (c : Nat) (x : Cap) : (s.setCap c x).convs = s.convs := (rfl)
@[simp] theorem State.setCap_pairs (s : State) (c : Nat) (x : Cap) : (s.setCap c x).pairs = s.pairs := (rfl)
@[simp] theorem State.setCap_owRun (s : State) (c : Nat) (x : Cap) : (s.setCap c x).owRun = s.owRun := (rfl)
@[simp] theorem State.setCap_cal (s : State) (c : Nat) (x : Cap) : (s.setCap c x).cal = s.cal := (rfl)
@[simp] theorem State.setCap_dma (s : State) (c : Nat) (x : Cap) : (s.setCap c x).dma = s.dma := (rfl)
@[simp] theorem State.setCap_dmaLast (s : State) (c : Nat) (x : Cap) : (s.setCap c x).dmaLast = s.dmaLast := (rfl)
@[simp] theorem State.setCap_rmv (s : State) (c : Nat) (x : Cap) : (s.setCap c x).rmv = s.rmv := (rfl)
@[simp] theorem State.setCap_lpe (s : State) (c : Nat) (x : Cap) : (s.setCap c x).lpe = s.lpe := (rfl)
@[simp] theorem State.setCap_lsm (s : State) (c : Nat) (x : Cap) : (s.setCap c x).lsm = s.lsm := (rfl)
@[simp] theorem State.setCap_mig (s : State) (c : Nat) (x : Cap) : (s.setCap c x).mig = s.mig := (rfl)
@[simp] theorem State.setCap_owed (s : State) (c : Nat) (x : Cap) : (s.setCap c x).owed = s.owed := (rfl)
@[simp] theorem State.setCap_axes (s : State) (c : Nat) (x : Cap) : (s.setCap c x).axes = s.axes := (rfl)
@[simp] theorem State.setCap_motHeld (s : State) (c : Nat) (x : Cap) : (s.setCap c x).motHeld = s.motHeld := (rfl)
@[simp] theorem State.setCap_encs (s : State) (c : Nat) (x : Cap) : (s.setCap c x).encs = s.encs := (rfl)
@[simp] theorem State.setCap_seq (s : State) (c : Nat) (x : Cap) : (s.setCap c x).seq = s.seq := (rfl)
@[simp] theorem State.setCap_clos (s : State) (c : Nat) (x : Cap) : (s.setCap c x).clos = s.clos := (rfl)
@[simp] theorem State.setCap_vdrs (s : State) (c : Nat) (x : Cap) : (s.setCap c x).vdrs = s.vdrs := (rfl)
@[simp] theorem State.setCap_pvm (s : State) (c : Nat) (x : Cap) : (s.setCap c x).pvm = s.pvm := (rfl)
@[simp] theorem State.setCap_cyc (s : State) (c : Nat) (x : Cap) : (s.setCap c x).cyc = s.cyc := (rfl)
@[simp] theorem State.setCap_iml (s : State) (c : Nat) (x : Cap) : (s.setCap c x).iml = s.iml := (rfl)
@[simp] theorem State.setCap_cans (s : State) (c : Nat) (x : Cap) : (s.setCap c x).cans = s.cans := (rfl)
@[simp] theorem State.setCap_eths (s : State) (c : Nat) (x : Cap) : (s.setCap c x).eths = s.eths := (rfl)
@[simp] theorem State.setCap_prps (s : State) (c : Nat) (x : Cap) : (s.setCap c x).prps = s.prps := (rfl)
@[simp] theorem State.setCap_rra (s : State) (c : Nat) (x : Cap) : (s.setCap c x).rra = s.rra := (rfl)
@[simp] theorem State.setCap_plk (s : State) (c : Nat) (x : Cap) : (s.setCap c x).plk = s.plk := (rfl)
@[simp] theorem State.setCap_vlt (s : State) (c : Nat) (x : Cap) : (s.setCap c x).vlt = s.vlt := (rfl)
@[simp] theorem State.setCap_rpc (s : State) (c : Nat) (x : Cap) : (s.setCap c x).rpc = s.rpc := (rfl)

@[simp] theorem State.setTrg_pending (s : State) (t : Nat) (h : TrgHist) : (s.setTrg t h).pending = s.pending := (rfl)
@[simp] theorem State.setTrg_regs (s : State) (t : Nat) (h : TrgHist) : (s.setTrg t h).regs = s.regs := (rfl)
@[simp] theorem State.setTrg_mem (s : State) (t : Nat) (h : TrgHist) : (s.setTrg t h).mem = s.mem := (rfl)
@[simp] theorem State.setTrg_fresh (s : State) (t : Nat) (h : TrgHist) : (s.setTrg t h).fresh = s.fresh := (rfl)
@[simp] theorem State.setTrg_bus (s : State) (t : Nat) (h : TrgHist) : (s.setTrg t h).bus = s.bus := (rfl)
@[simp] theorem State.setTrg_latch (s : State) (t : Nat) (h : TrgHist) : (s.setTrg t h).latch = s.latch := (rfl)
@[simp] theorem State.setTrg_claimed (s : State) (t : Nat) (h : TrgHist) : (s.setTrg t h).claimed = s.claimed := (rfl)
@[simp] theorem State.setTrg_wire (s : State) (t : Nat) (h : TrgHist) : (s.setTrg t h).wire = s.wire := (rfl)
@[simp] theorem State.setTrg_evl (s : State) (t : Nat) (h : TrgHist) : (s.setTrg t h).evl = s.evl := (rfl)
@[simp] theorem State.setTrg_time (s : State) (t : Nat) (h : TrgHist) : (s.setTrg t h).time = s.time := (rfl)
@[simp] theorem State.setTrg_courses (s : State) (t : Nat) (h : TrgHist) : (s.setTrg t h).courses = s.courses := (rfl)
@[simp] theorem State.setTrg_tabs (s : State) (t : Nat) (h : TrgHist) : (s.setTrg t h).tabs = s.tabs := (rfl)
@[simp] theorem State.setTrg_inflight (s : State) (t : Nat) (h : TrgHist) : (s.setTrg t h).inflight = s.inflight := (rfl)
@[simp] theorem State.setTrg_dins (s : State) (t : Nat) (h : TrgHist) : (s.setTrg t h).dins = s.dins := (rfl)
@[simp] theorem State.setTrg_fwl (s : State) (t : Nat) (h : TrgHist) : (s.setTrg t h).fwl = s.fwl := (rfl)
@[simp] theorem State.setTrg_healths (s : State) (t : Nat) (h : TrgHist) : (s.setTrg t h).healths = s.healths := (rfl)
@[simp] theorem State.setTrg_healthX (s : State) (t : Nat) (h : TrgHist) : (s.setTrg t h).healthX = s.healthX := (rfl)
@[simp] theorem State.setTrg_img (s : State) (t : Nat) (h : TrgHist) : (s.setTrg t h).img = s.img := (rfl)
@[simp] theorem State.setTrg_cox (s : State) (t : Nat) (h : TrgHist) : (s.setTrg t h).cox = s.cox := (rfl)
@[simp] theorem State.setTrg_convs (s : State) (t : Nat) (h : TrgHist) : (s.setTrg t h).convs = s.convs := (rfl)
@[simp] theorem State.setTrg_pairs (s : State) (t : Nat) (h : TrgHist) : (s.setTrg t h).pairs = s.pairs := (rfl)
@[simp] theorem State.setTrg_owRun (s : State) (t : Nat) (h : TrgHist) : (s.setTrg t h).owRun = s.owRun := (rfl)
@[simp] theorem State.setTrg_cal (s : State) (t : Nat) (h : TrgHist) : (s.setTrg t h).cal = s.cal := (rfl)
@[simp] theorem State.setTrg_dma (s : State) (t : Nat) (h : TrgHist) : (s.setTrg t h).dma = s.dma := (rfl)
@[simp] theorem State.setTrg_dmaLast (s : State) (t : Nat) (h : TrgHist) : (s.setTrg t h).dmaLast = s.dmaLast := (rfl)
@[simp] theorem State.setTrg_rmv (s : State) (t : Nat) (h : TrgHist) : (s.setTrg t h).rmv = s.rmv := (rfl)
@[simp] theorem State.setTrg_lpe (s : State) (t : Nat) (h : TrgHist) : (s.setTrg t h).lpe = s.lpe := (rfl)
@[simp] theorem State.setTrg_lsm (s : State) (t : Nat) (h : TrgHist) : (s.setTrg t h).lsm = s.lsm := (rfl)
@[simp] theorem State.setTrg_mig (s : State) (t : Nat) (h : TrgHist) : (s.setTrg t h).mig = s.mig := (rfl)
@[simp] theorem State.setTrg_owed (s : State) (t : Nat) (h : TrgHist) : (s.setTrg t h).owed = s.owed := (rfl)
@[simp] theorem State.setTrg_axes (s : State) (t : Nat) (h : TrgHist) : (s.setTrg t h).axes = s.axes := (rfl)
@[simp] theorem State.setTrg_motHeld (s : State) (t : Nat) (h : TrgHist) : (s.setTrg t h).motHeld = s.motHeld := (rfl)
@[simp] theorem State.setTrg_encs (s : State) (t : Nat) (h : TrgHist) : (s.setTrg t h).encs = s.encs := (rfl)
@[simp] theorem State.setTrg_seq (s : State) (t : Nat) (h : TrgHist) : (s.setTrg t h).seq = s.seq := (rfl)
@[simp] theorem State.setTrg_clos (s : State) (t : Nat) (h : TrgHist) : (s.setTrg t h).clos = s.clos := (rfl)
@[simp] theorem State.setTrg_vdrs (s : State) (t : Nat) (h : TrgHist) : (s.setTrg t h).vdrs = s.vdrs := (rfl)
@[simp] theorem State.setTrg_pvm (s : State) (t : Nat) (h : TrgHist) : (s.setTrg t h).pvm = s.pvm := (rfl)
@[simp] theorem State.setTrg_cyc (s : State) (t : Nat) (h : TrgHist) : (s.setTrg t h).cyc = s.cyc := (rfl)
@[simp] theorem State.setTrg_iml (s : State) (t : Nat) (h : TrgHist) : (s.setTrg t h).iml = s.iml := (rfl)
@[simp] theorem State.setTrg_cans (s : State) (t : Nat) (h : TrgHist) : (s.setTrg t h).cans = s.cans := (rfl)
@[simp] theorem State.setTrg_eths (s : State) (t : Nat) (h : TrgHist) : (s.setTrg t h).eths = s.eths := (rfl)
@[simp] theorem State.setTrg_prps (s : State) (t : Nat) (h : TrgHist) : (s.setTrg t h).prps = s.prps := (rfl)
@[simp] theorem State.setTrg_rra (s : State) (t : Nat) (h : TrgHist) : (s.setTrg t h).rra = s.rra := (rfl)
@[simp] theorem State.setTrg_plk (s : State) (t : Nat) (h : TrgHist) : (s.setTrg t h).plk = s.plk := (rfl)
@[simp] theorem State.setTrg_vlt (s : State) (t : Nat) (h : TrgHist) : (s.setTrg t h).vlt = s.vlt := (rfl)
@[simp] theorem State.setTrg_rpc (s : State) (t : Nat) (h : TrgHist) : (s.setTrg t h).rpc = s.rpc := (rfl)

@[simp] theorem State.setSin_pending (s : State) (i : Nat) (x : Sin) : (s.setSin i x).pending = s.pending := (rfl)
@[simp] theorem State.setSin_regs (s : State) (i : Nat) (x : Sin) : (s.setSin i x).regs = s.regs := (rfl)
@[simp] theorem State.setSin_mem (s : State) (i : Nat) (x : Sin) : (s.setSin i x).mem = s.mem := (rfl)
@[simp] theorem State.setSin_fresh (s : State) (i : Nat) (x : Sin) : (s.setSin i x).fresh = s.fresh := (rfl)
@[simp] theorem State.setSin_bus (s : State) (i : Nat) (x : Sin) : (s.setSin i x).bus = s.bus := (rfl)
@[simp] theorem State.setSin_latch (s : State) (i : Nat) (x : Sin) : (s.setSin i x).latch = s.latch := (rfl)
@[simp] theorem State.setSin_claimed (s : State) (i : Nat) (x : Sin) : (s.setSin i x).claimed = s.claimed := (rfl)
@[simp] theorem State.setSin_wire (s : State) (i : Nat) (x : Sin) : (s.setSin i x).wire = s.wire := (rfl)
@[simp] theorem State.setSin_evl (s : State) (i : Nat) (x : Sin) : (s.setSin i x).evl = s.evl := (rfl)
@[simp] theorem State.setSin_time (s : State) (i : Nat) (x : Sin) : (s.setSin i x).time = s.time := (rfl)
@[simp] theorem State.setSin_courses (s : State) (i : Nat) (x : Sin) : (s.setSin i x).courses = s.courses := (rfl)
@[simp] theorem State.setSin_tabs (s : State) (i : Nat) (x : Sin) : (s.setSin i x).tabs = s.tabs := (rfl)
@[simp] theorem State.setSin_inflight (s : State) (i : Nat) (x : Sin) : (s.setSin i x).inflight = s.inflight := (rfl)
@[simp] theorem State.setSin_dins (s : State) (i : Nat) (x : Sin) : (s.setSin i x).dins = s.dins := (rfl)
@[simp] theorem State.setSin_fwl (s : State) (i : Nat) (x : Sin) : (s.setSin i x).fwl = s.fwl := (rfl)
@[simp] theorem State.setSin_healths (s : State) (i : Nat) (x : Sin) : (s.setSin i x).healths = s.healths := (rfl)
@[simp] theorem State.setSin_healthX (s : State) (i : Nat) (x : Sin) : (s.setSin i x).healthX = s.healthX := (rfl)
@[simp] theorem State.setSin_img (s : State) (i : Nat) (x : Sin) : (s.setSin i x).img = s.img := (rfl)
@[simp] theorem State.setSin_cox (s : State) (i : Nat) (x : Sin) : (s.setSin i x).cox = s.cox := (rfl)
@[simp] theorem State.setSin_convs (s : State) (i : Nat) (x : Sin) : (s.setSin i x).convs = s.convs := (rfl)
@[simp] theorem State.setSin_pairs (s : State) (i : Nat) (x : Sin) : (s.setSin i x).pairs = s.pairs := (rfl)
@[simp] theorem State.setSin_owRun (s : State) (i : Nat) (x : Sin) : (s.setSin i x).owRun = s.owRun := (rfl)
@[simp] theorem State.setSin_cal (s : State) (i : Nat) (x : Sin) : (s.setSin i x).cal = s.cal := (rfl)
@[simp] theorem State.setSin_dma (s : State) (i : Nat) (x : Sin) : (s.setSin i x).dma = s.dma := (rfl)
@[simp] theorem State.setSin_dmaLast (s : State) (i : Nat) (x : Sin) : (s.setSin i x).dmaLast = s.dmaLast := (rfl)
@[simp] theorem State.setSin_rmv (s : State) (i : Nat) (x : Sin) : (s.setSin i x).rmv = s.rmv := (rfl)
@[simp] theorem State.setSin_lpe (s : State) (i : Nat) (x : Sin) : (s.setSin i x).lpe = s.lpe := (rfl)
@[simp] theorem State.setSin_lsm (s : State) (i : Nat) (x : Sin) : (s.setSin i x).lsm = s.lsm := (rfl)
@[simp] theorem State.setSin_mig (s : State) (i : Nat) (x : Sin) : (s.setSin i x).mig = s.mig := (rfl)
@[simp] theorem State.setSin_owed (s : State) (i : Nat) (x : Sin) : (s.setSin i x).owed = s.owed := (rfl)
@[simp] theorem State.setSin_axes (s : State) (i : Nat) (x : Sin) : (s.setSin i x).axes = s.axes := (rfl)
@[simp] theorem State.setSin_motHeld (s : State) (i : Nat) (x : Sin) : (s.setSin i x).motHeld = s.motHeld := (rfl)
@[simp] theorem State.setSin_encs (s : State) (i : Nat) (x : Sin) : (s.setSin i x).encs = s.encs := (rfl)
@[simp] theorem State.setSin_rce (s : State) (i : Nat) (x : Sin) : (s.setSin i x).rce = s.rce := (rfl)
@[simp] theorem State.setSin_seq (s : State) (i : Nat) (x : Sin) : (s.setSin i x).seq = s.seq := (rfl)
@[simp] theorem State.setSin_clos (s : State) (i : Nat) (x : Sin) : (s.setSin i x).clos = s.clos := (rfl)
@[simp] theorem State.setSin_vdrs (s : State) (i : Nat) (x : Sin) : (s.setSin i x).vdrs = s.vdrs := (rfl)
@[simp] theorem State.setSin_cyc (s : State) (i : Nat) (x : Sin) : (s.setSin i x).cyc = s.cyc := (rfl)
@[simp] theorem State.setSin_iml (s : State) (i : Nat) (x : Sin) : (s.setSin i x).iml = s.iml := (rfl)
@[simp] theorem State.setSin_cans (s : State) (i : Nat) (x : Sin) : (s.setSin i x).cans = s.cans := (rfl)
@[simp] theorem State.setSin_eths (s : State) (i : Nat) (x : Sin) : (s.setSin i x).eths = s.eths := (rfl)
@[simp] theorem State.setSin_prps (s : State) (i : Nat) (x : Sin) : (s.setSin i x).prps = s.prps := (rfl)
@[simp] theorem State.setSin_rra (s : State) (i : Nat) (x : Sin) : (s.setSin i x).rra = s.rra := (rfl)
@[simp] theorem State.setSin_plk (s : State) (i : Nat) (x : Sin) : (s.setSin i x).plk = s.plk := (rfl)
@[simp] theorem State.setSin_vlt (s : State) (i : Nat) (x : Sin) : (s.setSin i x).vlt = s.vlt := (rfl)
@[simp] theorem State.setSin_rpc (s : State) (i : Nat) (x : Sin) : (s.setSin i x).rpc = s.rpc := (rfl)

@[simp] theorem State.setBrk_pending (s : State) (b : Nat) (x : Brk) : (s.setBrk b x).pending = s.pending := (rfl)
@[simp] theorem State.setBrk_regs (s : State) (b : Nat) (x : Brk) : (s.setBrk b x).regs = s.regs := (rfl)
@[simp] theorem State.setBrk_mem (s : State) (b : Nat) (x : Brk) : (s.setBrk b x).mem = s.mem := (rfl)
@[simp] theorem State.setBrk_fresh (s : State) (b : Nat) (x : Brk) : (s.setBrk b x).fresh = s.fresh := (rfl)
@[simp] theorem State.setBrk_bus (s : State) (b : Nat) (x : Brk) : (s.setBrk b x).bus = s.bus := (rfl)
@[simp] theorem State.setBrk_latch (s : State) (b : Nat) (x : Brk) : (s.setBrk b x).latch = s.latch := (rfl)
@[simp] theorem State.setBrk_claimed (s : State) (b : Nat) (x : Brk) : (s.setBrk b x).claimed = s.claimed := (rfl)
@[simp] theorem State.setBrk_wire (s : State) (b : Nat) (x : Brk) : (s.setBrk b x).wire = s.wire := (rfl)
@[simp] theorem State.setBrk_evl (s : State) (b : Nat) (x : Brk) : (s.setBrk b x).evl = s.evl := (rfl)
@[simp] theorem State.setBrk_time (s : State) (b : Nat) (x : Brk) : (s.setBrk b x).time = s.time := (rfl)
@[simp] theorem State.setBrk_courses (s : State) (b : Nat) (x : Brk) : (s.setBrk b x).courses = s.courses := (rfl)
@[simp] theorem State.setBrk_tabs (s : State) (b : Nat) (x : Brk) : (s.setBrk b x).tabs = s.tabs := (rfl)
@[simp] theorem State.setBrk_inflight (s : State) (b : Nat) (x : Brk) : (s.setBrk b x).inflight = s.inflight := (rfl)
@[simp] theorem State.setBrk_dins (s : State) (b : Nat) (x : Brk) : (s.setBrk b x).dins = s.dins := (rfl)
@[simp] theorem State.setBrk_fwl (s : State) (b : Nat) (x : Brk) : (s.setBrk b x).fwl = s.fwl := (rfl)
@[simp] theorem State.setBrk_healths (s : State) (b : Nat) (x : Brk) : (s.setBrk b x).healths = s.healths := (rfl)
@[simp] theorem State.setBrk_healthX (s : State) (b : Nat) (x : Brk) : (s.setBrk b x).healthX = s.healthX := (rfl)
@[simp] theorem State.setBrk_img (s : State) (b : Nat) (x : Brk) : (s.setBrk b x).img = s.img := (rfl)
@[simp] theorem State.setBrk_cox (s : State) (b : Nat) (x : Brk) : (s.setBrk b x).cox = s.cox := (rfl)
@[simp] theorem State.setBrk_convs (s : State) (b : Nat) (x : Brk) : (s.setBrk b x).convs = s.convs := (rfl)
@[simp] theorem State.setBrk_pairs (s : State) (b : Nat) (x : Brk) : (s.setBrk b x).pairs = s.pairs := (rfl)
@[simp] theorem State.setBrk_owRun (s : State) (b : Nat) (x : Brk) : (s.setBrk b x).owRun = s.owRun := (rfl)
@[simp] theorem State.setBrk_cal (s : State) (b : Nat) (x : Brk) : (s.setBrk b x).cal = s.cal := (rfl)
@[simp] theorem State.setBrk_dma (s : State) (b : Nat) (x : Brk) : (s.setBrk b x).dma = s.dma := (rfl)
@[simp] theorem State.setBrk_dmaLast (s : State) (b : Nat) (x : Brk) : (s.setBrk b x).dmaLast = s.dmaLast := (rfl)
@[simp] theorem State.setBrk_rmv (s : State) (b : Nat) (x : Brk) : (s.setBrk b x).rmv = s.rmv := (rfl)
@[simp] theorem State.setBrk_lpe (s : State) (b : Nat) (x : Brk) : (s.setBrk b x).lpe = s.lpe := (rfl)
@[simp] theorem State.setBrk_lsm (s : State) (b : Nat) (x : Brk) : (s.setBrk b x).lsm = s.lsm := (rfl)
@[simp] theorem State.setBrk_mig (s : State) (b : Nat) (x : Brk) : (s.setBrk b x).mig = s.mig := (rfl)
@[simp] theorem State.setBrk_owed (s : State) (b : Nat) (x : Brk) : (s.setBrk b x).owed = s.owed := (rfl)
@[simp] theorem State.setBrk_axes (s : State) (b : Nat) (x : Brk) : (s.setBrk b x).axes = s.axes := (rfl)
@[simp] theorem State.setBrk_motHeld (s : State) (b : Nat) (x : Brk) : (s.setBrk b x).motHeld = s.motHeld := (rfl)
@[simp] theorem State.setBrk_encs (s : State) (b : Nat) (x : Brk) : (s.setBrk b x).encs = s.encs := (rfl)
@[simp] theorem State.setBrk_rce (s : State) (b : Nat) (x : Brk) : (s.setBrk b x).rce = s.rce := (rfl)
@[simp] theorem State.setBrk_seq (s : State) (b : Nat) (x : Brk) : (s.setBrk b x).seq = s.seq := (rfl)
@[simp] theorem State.setBrk_clos (s : State) (b : Nat) (x : Brk) : (s.setBrk b x).clos = s.clos := (rfl)
@[simp] theorem State.setBrk_vdrs (s : State) (b : Nat) (x : Brk) : (s.setBrk b x).vdrs = s.vdrs := (rfl)
@[simp] theorem State.setBrk_cyc (s : State) (b : Nat) (x : Brk) : (s.setBrk b x).cyc = s.cyc := (rfl)
@[simp] theorem State.setBrk_iml (s : State) (b : Nat) (x : Brk) : (s.setBrk b x).iml = s.iml := (rfl)
@[simp] theorem State.setBrk_cans (s : State) (b : Nat) (x : Brk) : (s.setBrk b x).cans = s.cans := (rfl)
@[simp] theorem State.setBrk_eths (s : State) (b : Nat) (x : Brk) : (s.setBrk b x).eths = s.eths := (rfl)
@[simp] theorem State.setBrk_prps (s : State) (b : Nat) (x : Brk) : (s.setBrk b x).prps = s.prps := (rfl)
@[simp] theorem State.setBrk_rra (s : State) (b : Nat) (x : Brk) : (s.setBrk b x).rra = s.rra := (rfl)
@[simp] theorem State.setBrk_plk (s : State) (b : Nat) (x : Brk) : (s.setBrk b x).plk = s.plk := (rfl)
@[simp] theorem State.setBrk_vlt (s : State) (b : Nat) (x : Brk) : (s.setBrk b x).vlt = s.vlt := (rfl)
@[simp] theorem State.setBrk_rpc (s : State) (b : Nat) (x : Brk) : (s.setBrk b x).rpc = s.rpc := (rfl)

@[simp] theorem State.setConn_pending (s : State) (k : Nat) (x : SConn) : (s.setConn k x).pending = s.pending := (rfl)
@[simp] theorem State.setConn_regs (s : State) (k : Nat) (x : SConn) : (s.setConn k x).regs = s.regs := (rfl)
@[simp] theorem State.setConn_mem (s : State) (k : Nat) (x : SConn) : (s.setConn k x).mem = s.mem := (rfl)
@[simp] theorem State.setConn_fresh (s : State) (k : Nat) (x : SConn) : (s.setConn k x).fresh = s.fresh := (rfl)
@[simp] theorem State.setConn_bus (s : State) (k : Nat) (x : SConn) : (s.setConn k x).bus = s.bus := (rfl)
@[simp] theorem State.setConn_latch (s : State) (k : Nat) (x : SConn) : (s.setConn k x).latch = s.latch := (rfl)
@[simp] theorem State.setConn_claimed (s : State) (k : Nat) (x : SConn) : (s.setConn k x).claimed = s.claimed := (rfl)
@[simp] theorem State.setConn_wire (s : State) (k : Nat) (x : SConn) : (s.setConn k x).wire = s.wire := (rfl)
@[simp] theorem State.setConn_evl (s : State) (k : Nat) (x : SConn) : (s.setConn k x).evl = s.evl := (rfl)
@[simp] theorem State.setConn_time (s : State) (k : Nat) (x : SConn) : (s.setConn k x).time = s.time := (rfl)
@[simp] theorem State.setConn_courses (s : State) (k : Nat) (x : SConn) : (s.setConn k x).courses = s.courses := (rfl)
@[simp] theorem State.setConn_tabs (s : State) (k : Nat) (x : SConn) : (s.setConn k x).tabs = s.tabs := (rfl)
@[simp] theorem State.setConn_inflight (s : State) (k : Nat) (x : SConn) : (s.setConn k x).inflight = s.inflight := (rfl)
@[simp] theorem State.setConn_dins (s : State) (k : Nat) (x : SConn) : (s.setConn k x).dins = s.dins := (rfl)
@[simp] theorem State.setConn_fwl (s : State) (k : Nat) (x : SConn) : (s.setConn k x).fwl = s.fwl := (rfl)
@[simp] theorem State.setConn_healths (s : State) (k : Nat) (x : SConn) : (s.setConn k x).healths = s.healths := (rfl)
@[simp] theorem State.setConn_healthX (s : State) (k : Nat) (x : SConn) : (s.setConn k x).healthX = s.healthX := (rfl)
@[simp] theorem State.setConn_img (s : State) (k : Nat) (x : SConn) : (s.setConn k x).img = s.img := (rfl)
@[simp] theorem State.setConn_cox (s : State) (k : Nat) (x : SConn) : (s.setConn k x).cox = s.cox := (rfl)
@[simp] theorem State.setConn_convs (s : State) (k : Nat) (x : SConn) : (s.setConn k x).convs = s.convs := (rfl)
@[simp] theorem State.setConn_pairs (s : State) (k : Nat) (x : SConn) : (s.setConn k x).pairs = s.pairs := (rfl)
@[simp] theorem State.setConn_owRun (s : State) (k : Nat) (x : SConn) : (s.setConn k x).owRun = s.owRun := (rfl)
@[simp] theorem State.setConn_cal (s : State) (k : Nat) (x : SConn) : (s.setConn k x).cal = s.cal := (rfl)
@[simp] theorem State.setConn_dma (s : State) (k : Nat) (x : SConn) : (s.setConn k x).dma = s.dma := (rfl)
@[simp] theorem State.setConn_dmaLast (s : State) (k : Nat) (x : SConn) : (s.setConn k x).dmaLast = s.dmaLast := (rfl)
@[simp] theorem State.setConn_rmv (s : State) (k : Nat) (x : SConn) : (s.setConn k x).rmv = s.rmv := (rfl)
@[simp] theorem State.setConn_lpe (s : State) (k : Nat) (x : SConn) : (s.setConn k x).lpe = s.lpe := (rfl)
@[simp] theorem State.setConn_lsm (s : State) (k : Nat) (x : SConn) : (s.setConn k x).lsm = s.lsm := (rfl)
@[simp] theorem State.setConn_mig (s : State) (k : Nat) (x : SConn) : (s.setConn k x).mig = s.mig := (rfl)
@[simp] theorem State.setConn_owed (s : State) (k : Nat) (x : SConn) : (s.setConn k x).owed = s.owed := (rfl)
@[simp] theorem State.setConn_axes (s : State) (k : Nat) (x : SConn) : (s.setConn k x).axes = s.axes := (rfl)
@[simp] theorem State.setConn_motHeld (s : State) (k : Nat) (x : SConn) : (s.setConn k x).motHeld = s.motHeld := (rfl)
@[simp] theorem State.setConn_encs (s : State) (k : Nat) (x : SConn) : (s.setConn k x).encs = s.encs := (rfl)
@[simp] theorem State.setConn_rce (s : State) (k : Nat) (x : SConn) : (s.setConn k x).rce = s.rce := (rfl)
@[simp] theorem State.setConn_seq (s : State) (k : Nat) (x : SConn) : (s.setConn k x).seq = s.seq := (rfl)
@[simp] theorem State.setConn_clos (s : State) (k : Nat) (x : SConn) : (s.setConn k x).clos = s.clos := (rfl)
@[simp] theorem State.setConn_vdrs (s : State) (k : Nat) (x : SConn) : (s.setConn k x).vdrs = s.vdrs := (rfl)
@[simp] theorem State.setConn_cyc (s : State) (k : Nat) (x : SConn) : (s.setConn k x).cyc = s.cyc := (rfl)
@[simp] theorem State.setConn_iml (s : State) (k : Nat) (x : SConn) : (s.setConn k x).iml = s.iml := (rfl)
@[simp] theorem State.setConn_cans (s : State) (k : Nat) (x : SConn) : (s.setConn k x).cans = s.cans := (rfl)
@[simp] theorem State.setConn_eths (s : State) (k : Nat) (x : SConn) : (s.setConn k x).eths = s.eths := (rfl)
@[simp] theorem State.setConn_prps (s : State) (k : Nat) (x : SConn) : (s.setConn k x).prps = s.prps := (rfl)
@[simp] theorem State.setConn_rra (s : State) (k : Nat) (x : SConn) : (s.setConn k x).rra = s.rra := (rfl)
@[simp] theorem State.setConn_plk (s : State) (k : Nat) (x : SConn) : (s.setConn k x).plk = s.plk := (rfl)
@[simp] theorem State.setConn_vlt (s : State) (k : Nat) (x : SConn) : (s.setConn k x).vlt = s.vlt := (rfl)
@[simp] theorem State.setConn_rpc (s : State) (k : Nat) (x : SConn) : (s.setConn k x).rpc = s.rpc := (rfl)

@[simp] theorem State.setCan_cans (s : State) (n : Nat) (c : CanState) : (s.setCan n c).cans = Tab.put s.cans n c := (rfl)
@[simp] theorem State.setLsm_lsm (s : State) (n : Nat) (x : LsmState) : (s.setLsm n x).lsm = Tab.put s.lsm n x := (rfl)
@[simp] theorem State.setDma_dma (s : State) (n ch : Nat) (d : DmaChan) : (s.setDma n ch d).dma = Tab.put s.dma (8 * n + ch) d := (rfl)
@[simp] theorem State.setEth_eths (s : State) (n : Nat) (e : EthState) : (s.setEth n e).eths = Tab.put s.eths n e := (rfl)
@[simp] theorem State.setPrp_prps (s : State) (p : Nat) (x : PrpState) : (s.setPrp p x).prps = Tab.put s.prps p x := (rfl)
@[simp] theorem State.setRmv_rmv (s : State) (c : Nat) (x : RmvChan) : (s.setRmv c x).rmv = Tab.put s.rmv c x := (rfl)
@[simp] theorem State.setCourse_courses (s : State) (n : Nat) (c : Course) : (s.setCourse n c).courses = Tab.put s.courses n c := (rfl)
@[simp] theorem State.setTab_tabs (s : State) (m : Nat) (t : CatchTab) : (s.setTab m t).tabs = Tab.put s.tabs m t := (rfl)
@[simp] theorem State.setDin_dins (s : State) (n : Nat) (d : Din) : (s.setDin n d).dins = Tab.put s.dins n d := (rfl)
@[simp] theorem State.setCox_cox (s : State) (n : Nat) (c : CoxState) : (s.setCox n c).cox = Tab.put s.cox n c := (rfl)
@[simp] theorem State.setConv_convs (s : State) (k : Nat) (c : Conv) : (s.setConv k c).convs = Tab.put s.convs k c := (rfl)
@[simp] theorem State.setPair_pairs (s : State) (p : Nat) (x : Pair) : (s.setPair p x).pairs = Tab.put s.pairs p x := (rfl)
@[simp] theorem State.setHealthRec_healths (s : State) (r : Res) (h : HealthRec) : (s.setHealthRec r h).healths = Tab.put s.healths r.key h := (rfl)
@[simp] theorem State.setLpe_lpe (s : State) (n : Nat) (e : LpeState) : (s.setLpe n e).lpe = Tab.put s.lpe n e := (rfl)
@[simp] theorem State.setAxis_axes (s : State) (a : Nat) (x : Axis) : (s.setAxis a x).axes = Tab.put s.axes a x := (rfl)
@[simp] theorem State.setEnc_encs (s : State) (g : Nat) (e : Enc) : (s.setEnc g e).encs = Tab.put s.encs g e := (rfl)
@[simp] theorem State.setClo_clos (s : State) (n : Nat) (c : Clo) : (s.setClo n c).clos = Tab.put s.clos n c := (rfl)
@[simp] theorem State.setVdr_vdrs (s : State) (n : Nat) (v : Vdr) : (s.setVdr n v).vdrs = Tab.put s.vdrs n v := (rfl)
@[simp] theorem State.setSin_pvm (s : State) (i : Nat) (x : Sin) : (s.setSin i x).pvm = { s.pvm with sins := Tab.put s.pvm.sins i x } := (rfl)
@[simp] theorem State.setBrk_pvm (s : State) (b : Nat) (x : Brk) : (s.setBrk b x).pvm = { s.pvm with brks := Tab.put s.pvm.brks b x } := (rfl)
@[simp] theorem State.setConn_pvm (s : State) (k : Nat) (x : SConn) : (s.setConn k x).pvm = { s.pvm with conns := Tab.put s.pvm.conns k x } := (rfl)
@[simp] theorem State.setSlot_seq (s : State) (r : Nat) (x : SeqSlot) : (s.setSlot r x).seq = { s.seq with slots := Tab.put s.seq.slots r x } := (rfl)
@[simp] theorem State.setCap_rce (s : State) (c : Nat) (x : Cap) : (s.setCap c x).rce = { s.rce with caps := Tab.put s.rce.caps c x } := (rfl)
@[simp] theorem State.setTrg_rce (s : State) (t : Nat) (h : TrgHist) : (s.setTrg t h).rce = { s.rce with trg := Tab.put s.rce.trg t h } := (rfl)

@[simp] theorem State.accept_pending (s : State) (e : Event) : (s.accept e).pending = s.pending := by unfold State.accept; split <;> rfl
@[simp] theorem State.log_pending (s : State) (c x d : Nat) : (s.log c x d).pending = s.pending := State.accept_pending s _
@[simp] theorem State.logIf_pending (s : State) (b : Bool) (c x d : Nat) : (s.logIf b c x d).pending = s.pending := by unfold State.logIf; split <;> simp
@[simp] theorem State.accept_mem (s : State) (e : Event) : (s.accept e).mem = s.mem := by unfold State.accept; split <;> rfl
@[simp] theorem State.log_mem (s : State) (c x d : Nat) : (s.log c x d).mem = s.mem := State.accept_mem s _
@[simp] theorem State.logIf_mem (s : State) (b : Bool) (c x d : Nat) : (s.logIf b c x d).mem = s.mem := by unfold State.logIf; split <;> simp
@[simp] theorem State.accept_fresh (s : State) (e : Event) : (s.accept e).fresh = s.fresh := by unfold State.accept; split <;> rfl
@[simp] theorem State.log_fresh (s : State) (c x d : Nat) : (s.log c x d).fresh = s.fresh := State.accept_fresh s _
@[simp] theorem State.logIf_fresh (s : State) (b : Bool) (c x d : Nat) : (s.logIf b c x d).fresh = s.fresh := by unfold State.logIf; split <;> simp
@[simp] theorem State.accept_bus (s : State) (e : Event) : (s.accept e).bus = s.bus := by unfold State.accept; split <;> rfl
@[simp] theorem State.log_bus (s : State) (c x d : Nat) : (s.log c x d).bus = s.bus := State.accept_bus s _
@[simp] theorem State.logIf_bus (s : State) (b : Bool) (c x d : Nat) : (s.logIf b c x d).bus = s.bus := by unfold State.logIf; split <;> simp
@[simp] theorem State.accept_latch (s : State) (e : Event) : (s.accept e).latch = s.latch := by unfold State.accept; split <;> rfl
@[simp] theorem State.log_latch (s : State) (c x d : Nat) : (s.log c x d).latch = s.latch := State.accept_latch s _
@[simp] theorem State.logIf_latch (s : State) (b : Bool) (c x d : Nat) : (s.logIf b c x d).latch = s.latch := by unfold State.logIf; split <;> simp
@[simp] theorem State.accept_claimed (s : State) (e : Event) : (s.accept e).claimed = s.claimed := by unfold State.accept; split <;> rfl
@[simp] theorem State.log_claimed (s : State) (c x d : Nat) : (s.log c x d).claimed = s.claimed := State.accept_claimed s _
@[simp] theorem State.logIf_claimed (s : State) (b : Bool) (c x d : Nat) : (s.logIf b c x d).claimed = s.claimed := by unfold State.logIf; split <;> simp
@[simp] theorem State.accept_wire (s : State) (e : Event) : (s.accept e).wire = s.wire := by unfold State.accept; split <;> rfl
@[simp] theorem State.log_wire (s : State) (c x d : Nat) : (s.log c x d).wire = s.wire := State.accept_wire s _
@[simp] theorem State.logIf_wire (s : State) (b : Bool) (c x d : Nat) : (s.logIf b c x d).wire = s.wire := by unfold State.logIf; split <;> simp
@[simp] theorem State.accept_time (s : State) (e : Event) : (s.accept e).time = s.time := by unfold State.accept; split <;> rfl
@[simp] theorem State.log_time (s : State) (c x d : Nat) : (s.log c x d).time = s.time := State.accept_time s _
@[simp] theorem State.logIf_time (s : State) (b : Bool) (c x d : Nat) : (s.logIf b c x d).time = s.time := by unfold State.logIf; split <;> simp
@[simp] theorem State.accept_courses (s : State) (e : Event) : (s.accept e).courses = s.courses := by unfold State.accept; split <;> rfl
@[simp] theorem State.log_courses (s : State) (c x d : Nat) : (s.log c x d).courses = s.courses := State.accept_courses s _
@[simp] theorem State.logIf_courses (s : State) (b : Bool) (c x d : Nat) : (s.logIf b c x d).courses = s.courses := by unfold State.logIf; split <;> simp
@[simp] theorem State.accept_tabs (s : State) (e : Event) : (s.accept e).tabs = s.tabs := by unfold State.accept; split <;> rfl
@[simp] theorem State.log_tabs (s : State) (c x d : Nat) : (s.log c x d).tabs = s.tabs := State.accept_tabs s _
@[simp] theorem State.logIf_tabs (s : State) (b : Bool) (c x d : Nat) : (s.logIf b c x d).tabs = s.tabs := by unfold State.logIf; split <;> simp
@[simp] theorem State.accept_inflight (s : State) (e : Event) : (s.accept e).inflight = s.inflight := by unfold State.accept; split <;> rfl
@[simp] theorem State.log_inflight (s : State) (c x d : Nat) : (s.log c x d).inflight = s.inflight := State.accept_inflight s _
@[simp] theorem State.logIf_inflight (s : State) (b : Bool) (c x d : Nat) : (s.logIf b c x d).inflight = s.inflight := by unfold State.logIf; split <;> simp
@[simp] theorem State.accept_dins (s : State) (e : Event) : (s.accept e).dins = s.dins := by unfold State.accept; split <;> rfl
@[simp] theorem State.log_dins (s : State) (c x d : Nat) : (s.log c x d).dins = s.dins := State.accept_dins s _
@[simp] theorem State.logIf_dins (s : State) (b : Bool) (c x d : Nat) : (s.logIf b c x d).dins = s.dins := by unfold State.logIf; split <;> simp
@[simp] theorem State.accept_fwl (s : State) (e : Event) : (s.accept e).fwl = s.fwl := by unfold State.accept; split <;> rfl
@[simp] theorem State.log_fwl (s : State) (c x d : Nat) : (s.log c x d).fwl = s.fwl := State.accept_fwl s _
@[simp] theorem State.logIf_fwl (s : State) (b : Bool) (c x d : Nat) : (s.logIf b c x d).fwl = s.fwl := by unfold State.logIf; split <;> simp
@[simp] theorem State.accept_healths (s : State) (e : Event) : (s.accept e).healths = s.healths := by unfold State.accept; split <;> rfl
@[simp] theorem State.log_healths (s : State) (c x d : Nat) : (s.log c x d).healths = s.healths := State.accept_healths s _
@[simp] theorem State.logIf_healths (s : State) (b : Bool) (c x d : Nat) : (s.logIf b c x d).healths = s.healths := by unfold State.logIf; split <;> simp
@[simp] theorem State.accept_healthX (s : State) (e : Event) : (s.accept e).healthX = s.healthX := by unfold State.accept; split <;> rfl
@[simp] theorem State.log_healthX (s : State) (c x d : Nat) : (s.log c x d).healthX = s.healthX := State.accept_healthX s _
@[simp] theorem State.logIf_healthX (s : State) (b : Bool) (c x d : Nat) : (s.logIf b c x d).healthX = s.healthX := by unfold State.logIf; split <;> simp
@[simp] theorem State.accept_img (s : State) (e : Event) : (s.accept e).img = s.img := by unfold State.accept; split <;> rfl
@[simp] theorem State.log_img (s : State) (c x d : Nat) : (s.log c x d).img = s.img := State.accept_img s _
@[simp] theorem State.logIf_img (s : State) (b : Bool) (c x d : Nat) : (s.logIf b c x d).img = s.img := by unfold State.logIf; split <;> simp
@[simp] theorem State.accept_cox (s : State) (e : Event) : (s.accept e).cox = s.cox := by unfold State.accept; split <;> rfl
@[simp] theorem State.log_cox (s : State) (c x d : Nat) : (s.log c x d).cox = s.cox := State.accept_cox s _
@[simp] theorem State.logIf_cox (s : State) (b : Bool) (c x d : Nat) : (s.logIf b c x d).cox = s.cox := by unfold State.logIf; split <;> simp
@[simp] theorem State.accept_convs (s : State) (e : Event) : (s.accept e).convs = s.convs := by unfold State.accept; split <;> rfl
@[simp] theorem State.log_convs (s : State) (c x d : Nat) : (s.log c x d).convs = s.convs := State.accept_convs s _
@[simp] theorem State.logIf_convs (s : State) (b : Bool) (c x d : Nat) : (s.logIf b c x d).convs = s.convs := by unfold State.logIf; split <;> simp
@[simp] theorem State.accept_pairs (s : State) (e : Event) : (s.accept e).pairs = s.pairs := by unfold State.accept; split <;> rfl
@[simp] theorem State.log_pairs (s : State) (c x d : Nat) : (s.log c x d).pairs = s.pairs := State.accept_pairs s _
@[simp] theorem State.logIf_pairs (s : State) (b : Bool) (c x d : Nat) : (s.logIf b c x d).pairs = s.pairs := by unfold State.logIf; split <;> simp
@[simp] theorem State.accept_owRun (s : State) (e : Event) : (s.accept e).owRun = s.owRun := by unfold State.accept; split <;> rfl
@[simp] theorem State.log_owRun (s : State) (c x d : Nat) : (s.log c x d).owRun = s.owRun := State.accept_owRun s _
@[simp] theorem State.logIf_owRun (s : State) (b : Bool) (c x d : Nat) : (s.logIf b c x d).owRun = s.owRun := by unfold State.logIf; split <;> simp
@[simp] theorem State.accept_cal (s : State) (e : Event) : (s.accept e).cal = s.cal := by unfold State.accept; split <;> rfl
@[simp] theorem State.log_cal (s : State) (c x d : Nat) : (s.log c x d).cal = s.cal := State.accept_cal s _
@[simp] theorem State.logIf_cal (s : State) (b : Bool) (c x d : Nat) : (s.logIf b c x d).cal = s.cal := by unfold State.logIf; split <;> simp
@[simp] theorem State.accept_dma (s : State) (e : Event) : (s.accept e).dma = s.dma := by unfold State.accept; split <;> rfl
@[simp] theorem State.log_dma (s : State) (c x d : Nat) : (s.log c x d).dma = s.dma := State.accept_dma s _
@[simp] theorem State.logIf_dma (s : State) (b : Bool) (c x d : Nat) : (s.logIf b c x d).dma = s.dma := by unfold State.logIf; split <;> simp
@[simp] theorem State.accept_dmaLast (s : State) (e : Event) : (s.accept e).dmaLast = s.dmaLast := by unfold State.accept; split <;> rfl
@[simp] theorem State.log_dmaLast (s : State) (c x d : Nat) : (s.log c x d).dmaLast = s.dmaLast := State.accept_dmaLast s _
@[simp] theorem State.logIf_dmaLast (s : State) (b : Bool) (c x d : Nat) : (s.logIf b c x d).dmaLast = s.dmaLast := by unfold State.logIf; split <;> simp
@[simp] theorem State.accept_rmv (s : State) (e : Event) : (s.accept e).rmv = s.rmv := by unfold State.accept; split <;> rfl
@[simp] theorem State.log_rmv (s : State) (c x d : Nat) : (s.log c x d).rmv = s.rmv := State.accept_rmv s _
@[simp] theorem State.logIf_rmv (s : State) (b : Bool) (c x d : Nat) : (s.logIf b c x d).rmv = s.rmv := by unfold State.logIf; split <;> simp
@[simp] theorem State.accept_lpe (s : State) (e : Event) : (s.accept e).lpe = s.lpe := by unfold State.accept; split <;> rfl
@[simp] theorem State.log_lpe (s : State) (c x d : Nat) : (s.log c x d).lpe = s.lpe := State.accept_lpe s _
@[simp] theorem State.logIf_lpe (s : State) (b : Bool) (c x d : Nat) : (s.logIf b c x d).lpe = s.lpe := by unfold State.logIf; split <;> simp
@[simp] theorem State.accept_lsm (s : State) (e : Event) : (s.accept e).lsm = s.lsm := by unfold State.accept; split <;> rfl
@[simp] theorem State.log_lsm (s : State) (c x d : Nat) : (s.log c x d).lsm = s.lsm := State.accept_lsm s _
@[simp] theorem State.logIf_lsm (s : State) (b : Bool) (c x d : Nat) : (s.logIf b c x d).lsm = s.lsm := by unfold State.logIf; split <;> simp
@[simp] theorem State.accept_mig (s : State) (e : Event) : (s.accept e).mig = s.mig := by unfold State.accept; split <;> rfl
@[simp] theorem State.log_mig (s : State) (c x d : Nat) : (s.log c x d).mig = s.mig := State.accept_mig s _
@[simp] theorem State.logIf_mig (s : State) (b : Bool) (c x d : Nat) : (s.logIf b c x d).mig = s.mig := by unfold State.logIf; split <;> simp
@[simp] theorem State.accept_owed (s : State) (e : Event) : (s.accept e).owed = s.owed := by unfold State.accept; split <;> rfl
@[simp] theorem State.log_owed (s : State) (c x d : Nat) : (s.log c x d).owed = s.owed := State.accept_owed s _
@[simp] theorem State.logIf_owed (s : State) (b : Bool) (c x d : Nat) : (s.logIf b c x d).owed = s.owed := by unfold State.logIf; split <;> simp
@[simp] theorem State.accept_axes (s : State) (e : Event) : (s.accept e).axes = s.axes := by unfold State.accept; split <;> rfl
@[simp] theorem State.log_axes (s : State) (c x d : Nat) : (s.log c x d).axes = s.axes := State.accept_axes s _
@[simp] theorem State.logIf_axes (s : State) (b : Bool) (c x d : Nat) : (s.logIf b c x d).axes = s.axes := by unfold State.logIf; split <;> simp
@[simp] theorem State.accept_motHeld (s : State) (e : Event) : (s.accept e).motHeld = s.motHeld := by unfold State.accept; split <;> rfl
@[simp] theorem State.log_motHeld (s : State) (c x d : Nat) : (s.log c x d).motHeld = s.motHeld := State.accept_motHeld s _
@[simp] theorem State.logIf_motHeld (s : State) (b : Bool) (c x d : Nat) : (s.logIf b c x d).motHeld = s.motHeld := by unfold State.logIf; split <;> simp
@[simp] theorem State.accept_encs (s : State) (e : Event) : (s.accept e).encs = s.encs := by unfold State.accept; split <;> rfl
@[simp] theorem State.log_encs (s : State) (c x d : Nat) : (s.log c x d).encs = s.encs := State.accept_encs s _
@[simp] theorem State.logIf_encs (s : State) (b : Bool) (c x d : Nat) : (s.logIf b c x d).encs = s.encs := by unfold State.logIf; split <;> simp
@[simp] theorem State.accept_rce (s : State) (e : Event) : (s.accept e).rce = s.rce := by unfold State.accept; split <;> rfl
@[simp] theorem State.log_rce (s : State) (c x d : Nat) : (s.log c x d).rce = s.rce := State.accept_rce s _
@[simp] theorem State.logIf_rce (s : State) (b : Bool) (c x d : Nat) : (s.logIf b c x d).rce = s.rce := by unfold State.logIf; split <;> simp
@[simp] theorem State.accept_seq (s : State) (e : Event) : (s.accept e).seq = s.seq := by unfold State.accept; split <;> rfl
@[simp] theorem State.log_seq (s : State) (c x d : Nat) : (s.log c x d).seq = s.seq := State.accept_seq s _
@[simp] theorem State.logIf_seq (s : State) (b : Bool) (c x d : Nat) : (s.logIf b c x d).seq = s.seq := by unfold State.logIf; split <;> simp
@[simp] theorem State.accept_clos (s : State) (e : Event) : (s.accept e).clos = s.clos := by unfold State.accept; split <;> rfl
@[simp] theorem State.log_clos (s : State) (c x d : Nat) : (s.log c x d).clos = s.clos := State.accept_clos s _
@[simp] theorem State.logIf_clos (s : State) (b : Bool) (c x d : Nat) : (s.logIf b c x d).clos = s.clos := by unfold State.logIf; split <;> simp
@[simp] theorem State.accept_vdrs (s : State) (e : Event) : (s.accept e).vdrs = s.vdrs := by unfold State.accept; split <;> rfl
@[simp] theorem State.log_vdrs (s : State) (c x d : Nat) : (s.log c x d).vdrs = s.vdrs := State.accept_vdrs s _
@[simp] theorem State.logIf_vdrs (s : State) (b : Bool) (c x d : Nat) : (s.logIf b c x d).vdrs = s.vdrs := by unfold State.logIf; split <;> simp
@[simp] theorem State.accept_pvm (s : State) (e : Event) : (s.accept e).pvm = s.pvm := by unfold State.accept; split <;> rfl
@[simp] theorem State.log_pvm (s : State) (c x d : Nat) : (s.log c x d).pvm = s.pvm := State.accept_pvm s _
@[simp] theorem State.logIf_pvm (s : State) (b : Bool) (c x d : Nat) : (s.logIf b c x d).pvm = s.pvm := by unfold State.logIf; split <;> simp
@[simp] theorem State.accept_cyc (s : State) (e : Event) : (s.accept e).cyc = s.cyc := by unfold State.accept; split <;> rfl
@[simp] theorem State.log_cyc (s : State) (c x d : Nat) : (s.log c x d).cyc = s.cyc := State.accept_cyc s _
@[simp] theorem State.logIf_cyc (s : State) (b : Bool) (c x d : Nat) : (s.logIf b c x d).cyc = s.cyc := by unfold State.logIf; split <;> simp
@[simp] theorem State.accept_iml (s : State) (e : Event) : (s.accept e).iml = s.iml := by unfold State.accept; split <;> rfl
@[simp] theorem State.log_iml (s : State) (c x d : Nat) : (s.log c x d).iml = s.iml := State.accept_iml s _
@[simp] theorem State.logIf_iml (s : State) (b : Bool) (c x d : Nat) : (s.logIf b c x d).iml = s.iml := by unfold State.logIf; split <;> simp
@[simp] theorem State.accept_cans (s : State) (e : Event) : (s.accept e).cans = s.cans := by unfold State.accept; split <;> rfl
@[simp] theorem State.log_cans (s : State) (c x d : Nat) : (s.log c x d).cans = s.cans := State.accept_cans s _
@[simp] theorem State.logIf_cans (s : State) (b : Bool) (c x d : Nat) : (s.logIf b c x d).cans = s.cans := by unfold State.logIf; split <;> simp
@[simp] theorem State.accept_eths (s : State) (e : Event) : (s.accept e).eths = s.eths := by unfold State.accept; split <;> rfl
@[simp] theorem State.log_eths (s : State) (c x d : Nat) : (s.log c x d).eths = s.eths := State.accept_eths s _
@[simp] theorem State.logIf_eths (s : State) (b : Bool) (c x d : Nat) : (s.logIf b c x d).eths = s.eths := by unfold State.logIf; split <;> simp
@[simp] theorem State.accept_prps (s : State) (e : Event) : (s.accept e).prps = s.prps := by unfold State.accept; split <;> rfl
@[simp] theorem State.log_prps (s : State) (c x d : Nat) : (s.log c x d).prps = s.prps := State.accept_prps s _
@[simp] theorem State.logIf_prps (s : State) (b : Bool) (c x d : Nat) : (s.logIf b c x d).prps = s.prps := by unfold State.logIf; split <;> simp
@[simp] theorem State.accept_rra (s : State) (e : Event) : (s.accept e).rra = s.rra := by unfold State.accept; split <;> rfl
@[simp] theorem State.log_rra (s : State) (c x d : Nat) : (s.log c x d).rra = s.rra := State.accept_rra s _
@[simp] theorem State.logIf_rra (s : State) (b : Bool) (c x d : Nat) : (s.logIf b c x d).rra = s.rra := by unfold State.logIf; split <;> simp
@[simp] theorem State.accept_plk (s : State) (e : Event) : (s.accept e).plk = s.plk := by unfold State.accept; split <;> rfl
@[simp] theorem State.log_plk (s : State) (c x d : Nat) : (s.log c x d).plk = s.plk := State.accept_plk s _
@[simp] theorem State.logIf_plk (s : State) (b : Bool) (c x d : Nat) : (s.logIf b c x d).plk = s.plk := by unfold State.logIf; split <;> simp
@[simp] theorem State.accept_vlt (s : State) (e : Event) : (s.accept e).vlt = s.vlt := by unfold State.accept; split <;> rfl
@[simp] theorem State.log_vlt (s : State) (c x d : Nat) : (s.log c x d).vlt = s.vlt := State.accept_vlt s _
@[simp] theorem State.logIf_vlt (s : State) (b : Bool) (c x d : Nat) : (s.logIf b c x d).vlt = s.vlt := by unfold State.logIf; split <;> simp
@[simp] theorem State.accept_rpc (s : State) (e : Event) : (s.accept e).rpc = s.rpc := by unfold State.accept; split <;> rfl
@[simp] theorem State.log_rpc (s : State) (c x d : Nat) : (s.log c x d).rpc = s.rpc := State.accept_rpc s _
@[simp] theorem State.logIf_rpc (s : State) (b : Bool) (c x d : Nat) : (s.logIf b c x d).rpc = s.rpc := by unfold State.logIf; split <;> simp

end Sys2Proof.Machine
end

