-- ==== Sys2Proof/Laws/Regs.lean ====
section
/-! SUPPORT. Fields of registers: a field reads what was written to it, and an update of one register or field leaves the others as they
were; logging an event changes no register but EVL_LOST. -/
namespace Sys2Proof.Machine

/-- A field of the register file fits its register. -/
def Fld.fits (f : Fld) : Prop := f.lo + f.width ≤ 32

/-- Two fields share no bit. -/
def Fld.apart (f g : Fld) : Prop := f.addr ≠ g.addr ∨ f.lo + f.width ≤ g.lo ∨ g.lo + g.width ≤ f.lo

/-- A field reads what was written to it. -/
theorem State.fld_setFld_self (s : State) (f : Fld) (v : Nat) (h : f.fits) : (s.setFld f v).fld f = v % 2 ^ f.width := by
  simp [State.fld, State.setFld, bitsOf_setBits_self _ _ h]

/-- Writing a field leaves every other register as it was. -/
theorem State.rd_setFld_other (s : State) (f : Fld) (v : Nat) {a : Nat} (h : a ≠ f.addr) : (s.setFld f v).rd a = s.rd a :=
  State.rd_wr_other s _ h

/-- Writing a field leaves every field that shares no bit with it as it was. -/
theorem State.fld_setFld_other (s : State) (f g : Fld) (v : Nat) (hf : f.fits) (h : f.apart g) : (s.setFld f v).fld g = s.fld g := by
  unfold State.fld
  by_cases ha : g.addr = f.addr
  · rw [ha, State.setFld, State.rd_wr_self]
    rcases h with h | h | h
    · exact absurd ha.symm h
    · exact bitsOf_setBits_other _ _ hf (.inr h)
    · exact bitsOf_setBits_other _ _ hf (.inl h)
  · rw [State.rd_setFld_other s f v ha]

/-- A flag reads what was written to it. -/
theorem State.flag_setFld_self (s : State) (f : Fld) (b : Bool) (h : f.fits) (hw : f.width = 1) : (s.setFld f (b2n b)).flag f = b := by
  unfold State.flag
  rw [State.fld_setFld_self s f _ h, hw]
  cases b <;> rfl

/-- A register reads the number written to it. -/
@[simp] theorem State.num_setNum_self (s : State) (a v : Nat) : (s.setNum a v).num a = v % 2 ^ 32 := by
  simp [State.num, State.setNum]

/-- Writing a number leaves every other register as it was. -/
theorem State.rd_setNum_other (s : State) {a b : Nat} (v : Nat) (h : b ≠ a) : (s.setNum a v).rd b = s.rd b :=
  State.rd_wr_other s _ h

/-- One bit of a register reads what was written to it. -/
theorem State.rbit_setRbit_self (s : State) (a : Nat) {i : Nat} (b : Bool) (h : i < 32) : (s.setRbit a i b).rbit a i = b := by
  unfold State.rbit State.setRbit
  rw [State.num_setNum_self, bit_mod _ h, bit_putBit, if_pos rfl]

/-- Writing one bit of a register leaves its other bits as they were. -/
theorem State.rbit_setRbit_bit (s : State) (a : Nat) {i j : Nat} (b : Bool) (h : j < 32) (hj : j ≠ i) : (s.setRbit a i b).rbit a j = s.rbit a j := by
  unfold State.rbit State.setRbit
  rw [State.num_setNum_self, bit_mod _ h, bit_putBit, if_neg hj]

/-- Writing one bit of a register leaves every other register as it was. -/
theorem State.rd_setRbit_other (s : State) {a c : Nat} (i : Nat) (b : Bool) (h : c ≠ a) : (s.setRbit a i b).rd c = s.rd c :=
  State.rd_wr_other s _ h

/-- Counting leaves every other register as it was. -/
theorem State.rd_count_other (s : State) {a b : Nat} (n : Nat) (h : b ≠ a) : (s.count a n).rd b = s.rd b :=
  State.rd_wr_other s _ h

/-- A counter shows what it counted, up to its end. -/
theorem State.num_count_self (s : State) (a n : Nat) : (s.count a n).num a = satAdd 0xFFFFFFFF (s.num a) n := by
  simp [State.count, satAdd]

/-- Logging an event changes no register but the count of lost ones. -/
theorem State.rd_accept (s : State) (e : Event) {a : Nat} (h : a ≠ Reg.EVL_LOST) : (s.accept e).rd a = s.rd a := by
  unfold State.accept
  split
  · rfl
  · rw [State.rd_count_other _ _ h]; rfl

theorem State.rd_log (s : State) (c x d : Nat) {a : Nat} (h : a ≠ Reg.EVL_LOST) : (s.log c x d).rd a = s.rd a := State.rd_accept s _ h

theorem State.rd_logIf (s : State) (b : Bool) (c x d : Nat) {a : Nat} (h : a ≠ Reg.EVL_LOST) : (s.logIf b c x d).rd a = s.rd a := by
  unfold State.logIf
  split
  · exact State.rd_log s c x d h
  · rfl

/-- Logging leaves every field outside EVL_LOST as it was. -/
theorem State.fld_log (s : State) (c x d : Nat) {f : Fld} (h : f.addr ≠ Reg.EVL_LOST) : (s.log c x d).fld f = s.fld f := by
  unfold State.fld; rw [State.rd_log s c x d h]

/-- An event joins the queue while it has room. -/
theorem evlInsert_length (e : Event) (l : List Event) : (evlInsert e l).length = l.length + 1 := by
  induction l with
  | nil => rfl
  | cons x l ih => unfold evlInsert; split <;> simp [ih]

/-- The queue keeps to its 64 entries. -/
theorem State.accept_queue_le {s : State} (h : s.evl.queue.length ≤ 64) (e : Event) : (s.accept e).evl.queue.length ≤ 64 := by
  unfold State.accept
  split
  · next hl => simp only [State.setEvl_evl, evlInsert_length]; omega
  · rw [State.count_evl, State.setEvl_evl]; exact (List.length_take_le _ _)

theorem evlInsert_mem (e : Event) (l : List Event) : e ∈ evlInsert e l := by
  induction l with
  | nil => simp [evlInsert]
  | cons x l ih => unfold evlInsert; split <;> simp [ih]

/-- An event logged while the queue has room is in it. -/
theorem State.log_queued (s : State) (c x d : Nat) (h : s.evl.queue.length < 64) : s.event c x d ∈ (s.log c x d).evl.queue := by
  unfold State.log State.accept
  rw [if_pos h]
  exact evlInsert_mem _ _

/-- With the queue full the event that comes last, the new one among them, is counted as lost and not kept. -/
theorem State.log_lost (s : State) (c x d : Nat) (h : 64 ≤ s.evl.queue.length) :
    (s.log c x d).evl.queue = (evlInsert (s.event c x d) s.evl.queue).take 64 ∧ (s.log c x d).num Reg.EVL_LOST = satAdd 0xFFFFFFFF (s.num Reg.EVL_LOST) 1 := by
  unfold State.log State.accept
  rw [if_neg (by omega)]
  refine ⟨rfl, ?_⟩
  rw [State.num_count_self]; rfl

end Sys2Proof.Machine
end

