-- ==== Sys2Proof/Laws/Reads.lean ====
section
/-! SUPPORT. Reads of registers and memory through every update that leaves them alone. -/
namespace Sys2Proof.Machine

@[simp] theorem State.rd_setCourse (s : State) (n : Nat) (c : Course) (adr : Nat) : (s.setCourse n c).rd adr = s.rd adr := (rfl)
@[simp] theorem State.rd_setTab (s : State) (m : Nat) (t : CatchTab) (adr : Nat) : (s.setTab m t).rd adr = s.rd adr := (rfl)
@[simp] theorem State.rd_setDin (s : State) (n : Nat) (d : Din) (adr : Nat) : (s.setDin n d).rd adr = s.rd adr := (rfl)
@[simp] theorem State.rd_setCox (s : State) (n : Nat) (c : CoxState) (adr : Nat) : (s.setCox n c).rd adr = s.rd adr := (rfl)
@[simp] theorem State.rd_setConv (s : State) (k : Nat) (c : Conv) (adr : Nat) : (s.setConv k c).rd adr = s.rd adr := (rfl)
@[simp] theorem State.rd_setPair (s : State) (p : Nat) (x : Pair) (adr : Nat) : (s.setPair p x).rd adr = s.rd adr := (rfl)
@[simp] theorem State.rd_setPlk (s : State) (p : PlkState) (adr : Nat) : (s.setPlk p).rd adr = s.rd adr := (rfl)
@[simp] theorem State.rd_emit (s : State) (e : Emit) (adr : Nat) : (s.emit e).rd adr = s.rd adr := (rfl)
@[simp] theorem State.rd_setHealthRec (s : State) (r : Res) (h : HealthRec) (adr : Nat) : (s.setHealthRec r h).rd adr = s.rd adr := (rfl)
@[simp] theorem State.rd_setLpe (s : State) (n : Nat) (e : LpeState) (adr : Nat) : (s.setLpe n e).rd adr = s.rd adr := (rfl)
@[simp] theorem State.rd_setLsm (s : State) (n : Nat) (x : LsmState) (adr : Nat) : (s.setLsm n x).rd adr = s.rd adr := (rfl)
@[simp] theorem State.rd_setAxis (s : State) (a : Nat) (x : Axis) (adr : Nat) : (s.setAxis a x).rd adr = s.rd adr := (rfl)
@[simp] theorem State.rd_setEnc (s : State) (g : Nat) (e : Enc) (adr : Nat) : (s.setEnc g e).rd adr = s.rd adr := (rfl)
@[simp] theorem State.rd_setRce (s : State) (r : RecState) (adr : Nat) : (s.setRce r).rd adr = s.rd adr := (rfl)
@[simp] theorem State.rd_setSeq (s : State) (q : SeqState) (adr : Nat) : (s.setSeq q).rd adr = s.rd adr := (rfl)
@[simp] theorem State.rd_setClo (s : State) (n : Nat) (c : Clo) (adr : Nat) : (s.setClo n c).rd adr = s.rd adr := (rfl)
@[simp] theorem State.rd_setVdr (s : State) (n : Nat) (v : Vdr) (adr : Nat) : (s.setVdr n v).rd adr = s.rd adr := (rfl)
@[simp] theorem State.rd_setPvm (s : State) (p : PvmState) (adr : Nat) : (s.setPvm p).rd adr = s.rd adr := (rfl)
@[simp] theorem State.rd_setCyc (s : State) (c : CycState) (adr : Nat) : (s.setCyc c).rd adr = s.rd adr := (rfl)
@[simp] theorem State.rd_setIml (s : State) (i : ImlState) (adr : Nat) : (s.setIml i).rd adr = s.rd adr := (rfl)
@[simp] theorem State.rd_setCan (s : State) (n : Nat) (c : CanState) (adr : Nat) : (s.setCan n c).rd adr = s.rd adr := (rfl)
@[simp] theorem State.rd_setEth (s : State) (n : Nat) (e : EthState) (adr : Nat) : (s.setEth n e).rd adr = s.rd adr := (rfl)
@[simp] theorem State.rd_setPrp (s : State) (p : Nat) (x : PrpState) (adr : Nat) : (s.setPrp p x).rd adr = s.rd adr := (rfl)
@[simp] theorem State.rd_setRra (s : State) (r : RraState) (adr : Nat) : (s.setRra r).rd adr = s.rd adr := (rfl)
@[simp] theorem State.rd_setVlt (s : State) (v : VltState) (adr : Nat) : (s.setVlt v).rd adr = s.rd adr := (rfl)
@[simp] theorem State.rd_setRpc (s : State) (r : RpcState) (adr : Nat) : (s.setRpc r).rd adr = s.rd adr := (rfl)
@[simp] theorem State.rd_setFwl (s : State) (f : FwlState) (adr : Nat) : (s.setFwl f).rd adr = s.rd adr := (rfl)
@[simp] theorem State.rd_setTime (s : State) (t : TimeState) (adr : Nat) : (s.setTime t).rd adr = s.rd adr := (rfl)
@[simp] theorem State.rd_setEvl (s : State) (e : EvlState) (adr : Nat) : (s.setEvl e).rd adr = s.rd adr := (rfl)
@[simp] theorem State.rd_setBus (s : State) (b : BusResp) (adr : Nat) : (s.setBus b).rd adr = s.rd adr := (rfl)
@[simp] theorem State.rd_setMig (s : State) (m : Option Migration) (adr : Nat) : (s.setMig m).rd adr = s.rd adr := (rfl)
@[simp] theorem State.rd_setImg (s : State) (t : ImgTables) (adr : Nat) : (s.setImg t).rd adr = s.rd adr := (rfl)
@[simp] theorem State.rd_setCal (s : State) (c : Cal) (adr : Nat) : (s.setCal c).rd adr = s.rd adr := (rfl)
@[simp] theorem State.rd_setOwRun (s : State) (l : List (Nat × Nat)) (adr : Nat) : (s.setOwRun l).rd adr = s.rd adr := (rfl)
@[simp] theorem State.rd_setOwed (s : State) (l : List HeldAcc) (adr : Nat) : (s.setOwed l).rd adr = s.rd adr := (rfl)
@[simp] theorem State.rd_setInflight (s : State) (l : List Catch) (adr : Nat) : (s.setInflight l).rd adr = s.rd adr := (rfl)
@[simp] theorem State.rd_setClaimed (s : State) (l : List Nat) (adr : Nat) : (s.setClaimed l).rd adr = s.rd adr := (rfl)
@[simp] theorem State.rd_setLatch (s : State) (l : List (Nat × Word)) (adr : Nat) : (s.setLatch l).rd adr = s.rd adr := (rfl)
@[simp] theorem State.rd_setWire (s : State) (l : List Emit) (adr : Nat) : (s.setWire l).rd adr = s.rd adr := (rfl)
@[simp] theorem State.rd_setDmaLast (s : State) (l : List (Nat × Nat)) (adr : Nat) : (s.setDmaLast l).rd adr = s.rd adr := (rfl)
@[simp] theorem State.rd_setHealthX (s : State) (l : List (Nat × Health)) (adr : Nat) : (s.setHealthX l).rd adr = s.rd adr := (rfl)
@[simp] theorem State.rd_setMotHeld (s : State) (l : List (Nat × MotHeld)) (adr : Nat) : (s.setMotHeld l).rd adr = s.rd adr := (rfl)
@[simp] theorem State.rd_setAxes (s : State) (l : List (Nat × Axis)) (adr : Nat) : (s.setAxes l).rd adr = s.rd adr := (rfl)
@[simp] theorem State.rd_takeFresh (s : State) (n : Nat) (adr : Nat) : (s.takeFresh n).rd adr = s.rd adr := (rfl)
@[simp] theorem State.rd_setDma (s : State) (n ch : Nat) (d : DmaChan) (adr : Nat) : (s.setDma n ch d).rd adr = s.rd adr := (rfl)
@[simp] theorem State.rd_setRmv (s : State) (c : Nat) (x : RmvChan) (adr : Nat) : (s.setRmv c x).rd adr = s.rd adr := (rfl)
@[simp] theorem State.rd_setSlot (s : State) (r : Nat) (x : SeqSlot) (adr : Nat) : (s.setSlot r x).rd adr = s.rd adr := (rfl)
@[simp] theorem State.rd_setCap (s : State) (c : Nat) (x : Cap) (adr : Nat) : (s.setCap c x).rd adr = s.rd adr := (rfl)
@[simp] theorem State.rd_setTrg (s : State) (t : Nat) (h : TrgHist) (adr : Nat) : (s.setTrg t h).rd adr = s.rd adr := (rfl)
@[simp] theorem State.rd_setSin (s : State) (i : Nat) (x : Sin) (adr : Nat) : (s.setSin i x).rd adr = s.rd adr := (rfl)
@[simp] theorem State.rd_setBrk (s : State) (b : Nat) (x : Brk) (adr : Nat) : (s.setBrk b x).rd adr = s.rd adr := (rfl)
@[simp] theorem State.rd_setConn (s : State) (k : Nat) (x : SConn) (adr : Nat) : (s.setConn k x).rd adr = s.rd adr := (rfl)
@[simp] theorem State.rdByte_wr (s : State) (a : Nat) (v : Word) (adr : Nat) : (s.wr a v).rdByte adr = s.rdByte adr := (rfl)
@[simp] theorem State.rdByte_setFld (s : State) (f : Fld) (v : Nat) (adr : Nat) : (s.setFld f v).rdByte adr = s.rdByte adr := (rfl)
@[simp] theorem State.rdByte_setNum (s : State) (a v : Nat) (adr : Nat) : (s.setNum a v).rdByte adr = s.rdByte adr := (rfl)
@[simp] theorem State.rdByte_setRbit (s : State) (a i : Nat) (b : Bool) (adr : Nat) : (s.setRbit a i b).rdByte adr = s.rdByte adr := (rfl)
@[simp] theorem State.rdByte_count (s : State) (a n : Nat) (adr : Nat) : (s.count a n).rdByte adr = s.rdByte adr := (rfl)
@[simp] theorem State.rdByte_countFld (s : State) (f : Fld) (n : Nat) (adr : Nat) : (s.countFld f n).rdByte adr = s.rdByte adr := (rfl)
@[simp] theorem State.rdByte_setNum64 (s : State) (lo hi v : Nat) (adr : Nat) : (s.setNum64 lo hi v).rdByte adr = s.rdByte adr := (rfl)
@[simp] theorem State.rdByte_setCourse (s : State) (n : Nat) (c : Course) (adr : Nat) : (s.setCourse n c).rdByte adr = s.rdByte adr := (rfl)
@[simp] theorem State.rdByte_setTab (s : State) (m : Nat) (t : CatchTab) (adr : Nat) : (s.setTab m t).rdByte adr = s.rdByte adr := (rfl)
@[simp] theorem State.rdByte_setDin (s : State) (n : Nat) (d : Din) (adr : Nat) : (s.setDin n d).rdByte adr = s.rdByte adr := (rfl)
@[simp] theorem State.rdByte_setCox (s : State) (n : Nat) (c : CoxState) (adr : Nat) : (s.setCox n c).rdByte adr = s.rdByte adr := (rfl)
@[simp] theorem State.rdByte_setConv (s : State) (k : Nat) (c : Conv) (adr : Nat) : (s.setConv k c).rdByte adr = s.rdByte adr := (rfl)
@[simp] theorem State.rdByte_setPair (s : State) (p : Nat) (x : Pair) (adr : Nat) : (s.setPair p x).rdByte adr = s.rdByte adr := (rfl)
@[simp] theorem State.rdByte_setPlk (s : State) (p : PlkState) (adr : Nat) : (s.setPlk p).rdByte adr = s.rdByte adr := (rfl)
@[simp] theorem State.rdByte_emit (s : State) (e : Emit) (adr : Nat) : (s.emit e).rdByte adr = s.rdByte adr := (rfl)
@[simp] theorem State.rdByte_setHealthRec (s : State) (r : Res) (h : HealthRec) (adr : Nat) : (s.setHealthRec r h).rdByte adr = s.rdByte adr := (rfl)
@[simp] theorem State.rdByte_setLpe (s : State) (n : Nat) (e : LpeState) (adr : Nat) : (s.setLpe n e).rdByte adr = s.rdByte adr := (rfl)
@[simp] theorem State.rdByte_setLsm (s : State) (n : Nat) (x : LsmState) (adr : Nat) : (s.setLsm n x).rdByte adr = s.rdByte adr := (rfl)
@[simp] theorem State.rdByte_setAxis (s : State) (a : Nat) (x : Axis) (adr : Nat) : (s.setAxis a x).rdByte adr = s.rdByte adr := (rfl)
@[simp] theorem State.rdByte_setEnc (s : State) (g : Nat) (e : Enc) (adr : Nat) : (s.setEnc g e).rdByte adr = s.rdByte adr := (rfl)
@[simp] theorem State.rdByte_setRce (s : State) (r : RecState) (adr : Nat) : (s.setRce r).rdByte adr = s.rdByte adr := (rfl)
@[simp] theorem State.rdByte_setSeq (s : State) (q : SeqState) (adr : Nat) : (s.setSeq q).rdByte adr = s.rdByte adr := (rfl)
@[simp] theorem State.rdByte_setClo (s : State) (n : Nat) (c : Clo) (adr : Nat) : (s.setClo n c).rdByte adr = s.rdByte adr := (rfl)
@[simp] theorem State.rdByte_setVdr (s : State) (n : Nat) (v : Vdr) (adr : Nat) : (s.setVdr n v).rdByte adr = s.rdByte adr := (rfl)
@[simp] theorem State.rdByte_setPvm (s : State) (p : PvmState) (adr : Nat) : (s.setPvm p).rdByte adr = s.rdByte adr := (rfl)
@[simp] theorem State.rdByte_setCyc (s : State) (c : CycState) (adr : Nat) : (s.setCyc c).rdByte adr = s.rdByte adr := (rfl)
@[simp] theorem State.rdByte_setIml (s : State) (i : ImlState) (adr : Nat) : (s.setIml i).rdByte adr = s.rdByte adr := (rfl)
@[simp] theorem State.rdByte_setCan (s : State) (n : Nat) (c : CanState) (adr : Nat) : (s.setCan n c).rdByte adr = s.rdByte adr := (rfl)
@[simp] theorem State.rdByte_setEth (s : State) (n : Nat) (e : EthState) (adr : Nat) : (s.setEth n e).rdByte adr = s.rdByte adr := (rfl)
@[simp] theorem State.rdByte_setPrp (s : State) (p : Nat) (x : PrpState) (adr : Nat) : (s.setPrp p x).rdByte adr = s.rdByte adr := (rfl)
@[simp] theorem State.rdByte_setRra (s : State) (r : RraState) (adr : Nat) : (s.setRra r).rdByte adr = s.rdByte adr := (rfl)
@[simp] theorem State.rdByte_setVlt (s : State) (v : VltState) (adr : Nat) : (s.setVlt v).rdByte adr = s.rdByte adr := (rfl)
@[simp] theorem State.rdByte_setRpc (s : State) (r : RpcState) (adr : Nat) : (s.setRpc r).rdByte adr = s.rdByte adr := (rfl)
@[simp] theorem State.rdByte_setFwl (s : State) (f : FwlState) (adr : Nat) : (s.setFwl f).rdByte adr = s.rdByte adr := (rfl)
@[simp] theorem State.rdByte_setTime (s : State) (t : TimeState) (adr : Nat) : (s.setTime t).rdByte adr = s.rdByte adr := (rfl)
@[simp] theorem State.rdByte_setEvl (s : State) (e : EvlState) (adr : Nat) : (s.setEvl e).rdByte adr = s.rdByte adr := (rfl)
@[simp] theorem State.rdByte_setBus (s : State) (b : BusResp) (adr : Nat) : (s.setBus b).rdByte adr = s.rdByte adr := (rfl)
@[simp] theorem State.rdByte_setMig (s : State) (m : Option Migration) (adr : Nat) : (s.setMig m).rdByte adr = s.rdByte adr := (rfl)
@[simp] theorem State.rdByte_setImg (s : State) (t : ImgTables) (adr : Nat) : (s.setImg t).rdByte adr = s.rdByte adr := (rfl)
@[simp] theorem State.rdByte_setCal (s : State) (c : Cal) (adr : Nat) : (s.setCal c).rdByte adr = s.rdByte adr := (rfl)
@[simp] theorem State.rdByte_setOwRun (s : State) (l : List (Nat × Nat)) (adr : Nat) : (s.setOwRun l).rdByte adr = s.rdByte adr := (rfl)
@[simp] theorem State.rdByte_setOwed (s : State) (l : List HeldAcc) (adr : Nat) : (s.setOwed l).rdByte adr = s.rdByte adr := (rfl)
@[simp] theorem State.rdByte_setInflight (s : State) (l : List Catch) (adr : Nat) : (s.setInflight l).rdByte adr = s.rdByte adr := (rfl)
@[simp] theorem State.rdByte_setClaimed (s : State) (l : List Nat) (adr : Nat) : (s.setClaimed l).rdByte adr = s.rdByte adr := (rfl)
@[simp] theorem State.rdByte_setLatch (s : State) (l : List (Nat × Word)) (adr : Nat) : (s.setLatch l).rdByte adr = s.rdByte adr := (rfl)
@[simp] theorem State.rdByte_setWire (s : State) (l : List Emit) (adr : Nat) : (s.setWire l).rdByte adr = s.rdByte adr := (rfl)
@[simp] theorem State.rdByte_setDmaLast (s : State) (l : List (Nat × Nat)) (adr : Nat) : (s.setDmaLast l).rdByte adr = s.rdByte adr := (rfl)
@[simp] theorem State.rdByte_setHealthX (s : State) (l : List (Nat × Health)) (adr : Nat) : (s.setHealthX l).rdByte adr = s.rdByte adr := (rfl)
@[simp] theorem State.rdByte_setMotHeld (s : State) (l : List (Nat × MotHeld)) (adr : Nat) : (s.setMotHeld l).rdByte adr = s.rdByte adr := (rfl)
@[simp] theorem State.rdByte_setAxes (s : State) (l : List (Nat × Axis)) (adr : Nat) : (s.setAxes l).rdByte adr = s.rdByte adr := (rfl)
@[simp] theorem State.rdByte_takeFresh (s : State) (n : Nat) (adr : Nat) : (s.takeFresh n).rdByte adr = s.rdByte adr := (rfl)
@[simp] theorem State.rdByte_setDma (s : State) (n ch : Nat) (d : DmaChan) (adr : Nat) : (s.setDma n ch d).rdByte adr = s.rdByte adr := (rfl)
@[simp] theorem State.rdByte_setRmv (s : State) (c : Nat) (x : RmvChan) (adr : Nat) : (s.setRmv c x).rdByte adr = s.rdByte adr := (rfl)
@[simp] theorem State.rdByte_setSlot (s : State) (r : Nat) (x : SeqSlot) (adr : Nat) : (s.setSlot r x).rdByte adr = s.rdByte adr := (rfl)
@[simp] theorem State.rdByte_setCap (s : State) (c : Nat) (x : Cap) (adr : Nat) : (s.setCap c x).rdByte adr = s.rdByte adr := (rfl)
@[simp] theorem State.rdByte_setTrg (s : State) (t : Nat) (h : TrgHist) (adr : Nat) : (s.setTrg t h).rdByte adr = s.rdByte adr := (rfl)
@[simp] theorem State.rdByte_setSin (s : State) (i : Nat) (x : Sin) (adr : Nat) : (s.setSin i x).rdByte adr = s.rdByte adr := (rfl)
@[simp] theorem State.rdByte_setBrk (s : State) (b : Nat) (x : Brk) (adr : Nat) : (s.setBrk b x).rdByte adr = s.rdByte adr := (rfl)
@[simp] theorem State.rdByte_setConn (s : State) (k : Nat) (x : SConn) (adr : Nat) : (s.setConn k x).rdByte adr = s.rdByte adr := (rfl)
@[simp] theorem State.rdByte_accept (s : State) (e : Event) (adr : Nat) : (s.accept e).rdByte adr = s.rdByte adr := by simp [State.rdByte]
@[simp] theorem State.rdByte_log (s : State) (c x d : Nat) (adr : Nat) : (s.log c x d).rdByte adr = s.rdByte adr := by simp [State.rdByte]
@[simp] theorem State.rdByte_logIf (s : State) (b : Bool) (c x d : Nat) (adr : Nat) : (s.logIf b c x d).rdByte adr = s.rdByte adr := by simp [State.rdByte]
@[simp] theorem State.rd_wrByte (s : State) (a : Nat) (v : Byte) (adr : Nat) : (s.wrByte a v).rd adr = s.rd adr := (rfl)

end Sys2Proof.Machine
end

