-- ==== Sys2Proof/Laws/Effects.lean ====
section
/-! SUPPORT. What single operations leave unchanged and what they log: the lemmas proofs about commands cite. -/
set_option linter.unusedSimpArgs false
open Sys2Proof Sys2Proof.Machine
namespace Sys2Proof.Machine

theorem satAdd_lt (x : Nat) : satAdd 4294967295 x 1 < 4294967296 := by unfold satAdd; omega

theorem satAdd_mod (x : Nat) : satAdd 4294967295 x 1 % 4294967296 = satAdd 4294967295 x 1 := Nat.mod_eq_of_lt (satAdd_lt x)

end Sys2Proof.Machine
namespace Sys2Proof
theorem bit_mod32 (n : Nat) {j : Nat} (h : j < 32) : bit (n % 4294967296) j = bit n j := bit_mod n h
end Sys2Proof
namespace Sys2Proof.Machine

theorem evlInsert_mem_of {e : Event} {l : List Event} (x : Event) (h : e ∈ l) : e ∈ evlInsert x l := by
  induction l with
  | nil => cases h
  | cons y l ih =>
    unfold evlInsert; split
    · exact List.mem_cons_of_mem _ h
    · rcases List.mem_cons.mp h with rfl | h
      · exact List.mem_cons_self ..
      · exact List.mem_cons_of_mem _ (ih h)

theorem accept_mem_of {s : State} {e : Event} (x : Event) (hl : s.evl.queue.length < 64) (h : e ∈ s.evl.queue) : e ∈ (s.accept x).evl.queue := by
  unfold State.accept; rw [if_pos hl]
  exact evlInsert_mem_of x h

theorem log_mem_of {s : State} {e : Event} (c x d : Nat) (hl : s.evl.queue.length < 64) (h : e ∈ s.evl.queue) :
    e ∈ (s.log c x d).evl.queue := accept_mem_of _ hl h

theorem log_length (s : State) (c x d : Nat) : (s.log c x d).evl.queue.length ≤ s.evl.queue.length + 1 := by
  unfold State.log State.accept; split
  · simp [evlInsert_length]
  · simp [State.count, State.setNum, evlInsert_length]

theorem log_self {s : State} (c x d : Nat) (h : s.evl.queue.length < 64) : s.event c x d ∈ (s.log c x d).evl.queue := State.log_queued s c x d h

theorem toSigned32 (v : Word) : toSigned 32 v.toNat = v.toInt := by
  unfold toSigned; rw [BitVec.toInt_eq_toNat_cond]; have := v.isLt
  rw [Nat.mod_eq_of_lt this]

theorem log_self' {s : State} {e : Event} (c x d : Nat) (he : e = s.event c x d) (h : s.evl.queue.length < 64) : e ∈ (s.log c x d).evl.queue := he ▸ State.log_queued s c x d h

theorem fold_keep {α σ : Type} {f : σ → α → σ} (I : σ → Prop) (h1 : ∀ s x, I s → I (f s x)) (l : List α) {s : σ} (hs : I s) : I (l.foldl f s) := by
  induction l generalizing s with
  | nil => exact hs
  | cons x l ih => exact ih (h1 s x hs)

theorem fold_est {α σ : Type} {f : σ → α → σ} {m : α} (I P : σ → Prop) (h1 : ∀ s x, I s → I (f s x)) (h2 : ∀ s, I s → P (f s m))
    (h3 : ∀ s x, I s → P s → P (f s x)) {l : List α} (hm : m ∈ l) {s : σ} (hs : I s) : P (l.foldl f s) := by
  induction l generalizing s with
  | nil => cases hm
  | cons x l ih =>
    rcases List.mem_cons.mp hm with rfl | hm
    · have : ∀ (l : List α) (s : σ), I s → P s → P (l.foldl f s) := by
        intro l; induction l with
        | nil => intro s _ h; exact h
        | cons y l ih => intro s hi h; exact ih _ (h1 s y hi) (h3 s y hi h)
      rw [List.foldl_cons]; exact this l _ (h1 s _ hs) (h2 s hs)
    · exact ih hm (h1 s x hs)

theorem rdByte_of_mem {s t : State} (h : t.mem = s.mem) (b : Nat) : t.rdByte b = s.rdByte b := by unfold State.rdByte; rw [h]

theorem courseOf_setCourse (s : State) (n : Nat) (d : Course) : (s.setCourse n d).courseOf n = d := by
  simp [State.courseOf, State.setCourse, Tab.get, Tab.find_put_self]

theorem courseOf_setCourse_other (s : State) {n m : Nat} (d : Course) (h : m ≠ n) : (s.setCourse n d).courseOf m = s.courseOf m := by
  simp [State.courseOf, State.setCourse, Tab.get, Tab.find_put_other _ _ h]

theorem tabOf_setTab (s : State) (n : Nat) (d : CatchTab) : (s.setTab n d).tabOf n = d := by
  simp [State.tabOf, State.setTab, Tab.get, Tab.find_put_self]

theorem tabOf_setTab_other (s : State) {n m : Nat} (d : CatchTab) (h : m ≠ n) : (s.setTab n d).tabOf m = s.tabOf m := by
  simp [State.tabOf, State.setTab, Tab.get, Tab.find_put_other _ _ h]

theorem rdList_eq (s : State) (a n : Nat) : s.rdList a n = (List.range n).map (fun k => (s.rdByte (a + k)).toNat) := by
  induction n generalizing a with
  | zero => rfl
  | succ n ih =>
    rw [State.rdList, ih, List.range_succ_eq_map]
    simp [Nat.add_assoc, Nat.add_comm 1]

theorem rdByte_wrList_other (s : State) {a b : Nat} (l : List Nat) (h : b < a ∨ a + l.length ≤ b) : (s.wrList a l).rdByte b = s.rdByte b := State.rdByte_wrList_other s l h

theorem rdList_wrList_self (s : State) (a : Nat) (l : List Nat) (h : ∀ b ∈ l, b < 256) : (s.wrList a l).rdList a l.length = l := by
  induction l generalizing s a with
  | nil => rfl
  | cons x l ih =>
    have hx : x < 256 := h x (by simp)
    simp only [State.wrList, List.length_cons, State.rdList]
    rw [ih _ _ (fun b hb => h b (by simp [hb])), State.rdByte_wrList_other _ _ (by omega)]
    simp; omega

theorem rdList_congr {s t : State} {a n : Nat} (h : ∀ b, a ≤ b → b < a + n → t.rdByte b = s.rdByte b) : t.rdList a n = s.rdList a n := by
  induction n generalizing a with
  | zero => rfl
  | succ n ih => rw [State.rdList, State.rdList, h a (by omega) (by omega), ih (fun b h1 h2 => h b (by omega) (by omega))]

theorem rd_wrList (l : List Nat) (s : State) (b a : Nat) : (s.wrList b l).rd a = s.rd a := by
  induction l generalizing s b with
  | nil => rfl
  | cons x l ih => unfold State.wrList; rw [ih]; rfl

theorem evl_wrList (l : List Nat) (s : State) (b : Nat) : (s.wrList b l).evl = s.evl := by
  induction l generalizing s b with
  | nil => rfl
  | cons x l ih => unfold State.wrList; rw [ih]; rfl

theorem time_wrList (l : List Nat) (s : State) (b : Nat) : (s.wrList b l).time = s.time := by
  induction l generalizing s b with
  | nil => rfl
  | cons x l ih => unfold State.wrList; rw [ih]; rfl

theorem leBytes_lt (n v : Nat) : ∀ b ∈ leBytes n v, b < 256 := by
  induction n generalizing v with
  | zero => intro b h; cases h
  | succ n ih =>
    intro b h
    rcases List.mem_cons.mp h with rfl | h
    · exact Nat.mod_lt _ (by omega)
    · exact ih _ b h

theorem leBytes_length (n v : Nat) : (leBytes n v).length = n := by
  induction n generalizing v with
  | zero => rfl
  | succ n ih => simp [leBytes, ih]

theorem rd_writeRow (s : State) (k c q : Nat) (t : Stamp) (es : List (Nat × Nat)) (a : Nat) : (s.writeRow k c q t es).rd a = s.rd a := by
  unfold State.writeRow State.appendRow
  split
  · rfl
  · split
    · rfl
    · dsimp only; simp [rd_wrList]

theorem time_writeRow (s : State) (k c q : Nat) (t : Stamp) (es : List (Nat × Nat)) : (s.writeRow k c q t es).time = s.time := by
  unfold State.writeRow State.appendRow
  split
  · rfl
  · split
    · rfl
    · simp [time_wrList]

theorem rd_recModule (s : State) (c w : Nat) (m : List (Nat × Nat)) (a : Nat) : (s.recModule c w m).rd a = s.rd a := rd_writeRow ..

theorem time_recModule (s : State) (c w : Nat) (m : List (Nat × Nat)) : (s.recModule c w m).time = s.time := time_writeRow ..

theorem ofCode_code (h : Health) : Health.ofCode (h.code % 2 ^ 2) = h := by cases h <;> rfl

theorem healthFld_fits {r : Res} (hp : r.present = true) {f : Fld} (hf : r.healthFld = some f) : f.fits ∧ f.width = 2 := by
  cases r <;> simp only [Res.present, Bool.and_eq_true, decide_eq_true_eq] at hp <;> simp only [Res.healthFld, Option.some.injEq, reduceCtorEq] at hf <;> subst hf <;> (try split) <;> (constructor <;> (simp only [F.AFE_ADC_STATUS_HEALTH, F.AFE_PAIR_STATUS_TDAC_HEALTH, F.AX_STATE_STAGE_HEALTH, F.CAN_STATUS_HEALTH, F.CDM_CH_STATE_HEALTH, F.CLO_STATUS_HEALTH, F.ENC_STATUS_HEALTH, F.ETH_STATUS_HEALTH, F.FWL_LINK_HEALTH, F.LSM_STATUS_HEALTH, F.PLK_STATUS_LANE0_HEALTH, F.PLK_STATUS_LANE1_HEALTH, F.RMV_STATUS_HEALTH, F.RPC_DOM_HEALTH, F.VDR_STATUS_HEALTH, F.RPC_DOM_HEALTH, Reg.EVL_LOST, Reg.IML_CREWMAP, Reg.AFE_ADC_STATUS, Reg.AFE_PAIR_STATUS, Reg.AX_STATE, Reg.CAN_STATUS, Reg.CDM_CH_STATE, Reg.CLO_STATUS, Reg.ENC_STATUS, Reg.ETH_STATUS, Reg.FWL_LINK, Reg.LSM_STATUS, Reg.PLK_STATUS, Reg.RMV_STATUS, Reg.RPC_DOM, Reg.VDR_STATUS] <;> (try simp [Fld.fits]) <;> (try omega)))

theorem healthFld_apart {r : Res} {d : Nat} {f : Fld} (hf : r.healthFld = some f) (hd : r.domainOf = some d) (hp : r.present = true) : f.apart (F.RPC_DOM_HEALTH d) := by
  cases r <;> simp only [Res.present, Bool.and_eq_true, decide_eq_true_eq] at hp <;> simp only [Res.healthFld, Res.domainOf, Option.some.injEq, reduceCtorEq] at hf hd <;> subst hf <;> subst hd <;> (left; simp only [F.AFE_ADC_STATUS_HEALTH, F.AFE_PAIR_STATUS_TDAC_HEALTH, F.AX_STATE_STAGE_HEALTH, F.CAN_STATUS_HEALTH, F.CDM_CH_STATE_HEALTH, F.CLO_STATUS_HEALTH, F.ENC_STATUS_HEALTH, F.ETH_STATUS_HEALTH, F.FWL_LINK_HEALTH, F.LSM_STATUS_HEALTH, F.PLK_STATUS_LANE0_HEALTH, F.PLK_STATUS_LANE1_HEALTH, F.RMV_STATUS_HEALTH, F.RPC_DOM_HEALTH, F.VDR_STATUS_HEALTH, F.RPC_DOM_HEALTH, Reg.EVL_LOST, Reg.IML_CREWMAP, Reg.AFE_ADC_STATUS, Reg.AFE_PAIR_STATUS, Reg.AX_STATE, Reg.CAN_STATUS, Reg.CDM_CH_STATE, Reg.CLO_STATUS, Reg.ENC_STATUS, Reg.ETH_STATUS, Reg.FWL_LINK, Reg.LSM_STATUS, Reg.PLK_STATUS, Reg.RMV_STATUS, Reg.RPC_DOM, Reg.VDR_STATUS]; omega)

theorem domainRetired_setHealth {s : State} {r : Res} (h : Health) (hp : r.present = true) {d : Nat} (hd : r.domainOf = some d) : (s.setHealth r h).domainRetired d = s.domainRetired d := by
  unfold State.domainRetired State.setHealth
  split
  · rename_i f hf
    rw [State.fld_setFld_other _ _ _ _ (healthFld_fits hp hf).1 (healthFld_apart hf hd hp)]
  · simp [State.fld]

theorem domOk_setHealth {s : State} {r : Res} (h : Health) (hp : r.present = true) : r.domainOf.any (s.setHealth r h).domainRetired = r.domainOf.any s.domainRetired := by
  cases hd : r.domainOf with
  | none => rfl
  | some d => exact domainRetired_setHealth h hp hd

theorem health_setHealth {s : State} {r : Res} (h : Health) (hp : r.present = true) (hd : r.domainOf.any s.domainRetired = false) :
    (s.setHealth r h).health r = h := by
  unfold State.health
  rw [domOk_setHealth h hp, hd, if_neg (by simp)]
  unfold State.setHealth
  split
  · rename_i f hf
    obtain ⟨h1, h2⟩ := healthFld_fits hp hf
    rw [State.fld_setFld_self _ _ _ h1, h2, ofCode_code]
  · simp [Tab.get, Tab.find_put_self]

theorem health_congr {s t : State} {r : Res} (h1 : ∀ d, r.domainOf = some d → t.rd (F.RPC_DOM_HEALTH d).addr = s.rd (F.RPC_DOM_HEALTH d).addr)
   (h2 : ∀ f, r.healthFld = some f → t.rd f.addr = s.rd f.addr) (h3 : t.healthX = s.healthX) : t.health r = s.health r := by
  have e1 : r.domainOf.any t.domainRetired = r.domainOf.any s.domainRetired := by
    cases hd : r.domainOf with
    | none => rfl
    | some d => simp only [Option.any, State.domainRetired, State.fld, h1 d hd]
  unfold State.health
  rw [e1]
  split
  · rfl
  · split
    · rename_i f hf; unfold State.fld; rw [h2 f hf]
    · rw [h3]

theorem healthFld_ne_lost {r : Res} {f : Fld} (hf : r.healthFld = some f) (hp : r.present = true) : f.addr ≠ Reg.EVL_LOST := by
  cases r <;> simp only [Res.present, Bool.and_eq_true, decide_eq_true_eq] at hp <;> simp only [Res.healthFld, Option.some.injEq, reduceCtorEq] at hf <;> subst hf <;> (try split) <;> (simp only [F.AFE_ADC_STATUS_HEALTH, F.AFE_PAIR_STATUS_TDAC_HEALTH, F.AX_STATE_STAGE_HEALTH, F.CAN_STATUS_HEALTH, F.CDM_CH_STATE_HEALTH, F.CLO_STATUS_HEALTH, F.ENC_STATUS_HEALTH, F.ETH_STATUS_HEALTH, F.FWL_LINK_HEALTH, F.LSM_STATUS_HEALTH, F.PLK_STATUS_LANE0_HEALTH, F.PLK_STATUS_LANE1_HEALTH, F.RMV_STATUS_HEALTH, F.RPC_DOM_HEALTH, F.VDR_STATUS_HEALTH, F.RPC_DOM_HEALTH, Reg.EVL_LOST, Reg.IML_CREWMAP, Reg.AFE_ADC_STATUS, Reg.AFE_PAIR_STATUS, Reg.AX_STATE, Reg.CAN_STATUS, Reg.CDM_CH_STATE, Reg.CLO_STATUS, Reg.ENC_STATUS, Reg.ETH_STATUS, Reg.FWL_LINK, Reg.LSM_STATUS, Reg.PLK_STATUS, Reg.RMV_STATUS, Reg.RPC_DOM, Reg.VDR_STATUS] <;> try omega)

theorem domHealth_ne_lost {d : Nat} (h : d < 32) : (F.RPC_DOM_HEALTH d).addr ≠ Reg.EVL_LOST := by simp only [F.AFE_ADC_STATUS_HEALTH, F.AFE_PAIR_STATUS_TDAC_HEALTH, F.AX_STATE_STAGE_HEALTH, F.CAN_STATUS_HEALTH, F.CDM_CH_STATE_HEALTH, F.CLO_STATUS_HEALTH, F.ENC_STATUS_HEALTH, F.ETH_STATUS_HEALTH, F.FWL_LINK_HEALTH, F.LSM_STATUS_HEALTH, F.PLK_STATUS_LANE0_HEALTH, F.PLK_STATUS_LANE1_HEALTH, F.RMV_STATUS_HEALTH, F.RPC_DOM_HEALTH, F.VDR_STATUS_HEALTH, F.RPC_DOM_HEALTH, Reg.EVL_LOST, Reg.IML_CREWMAP, Reg.AFE_ADC_STATUS, Reg.AFE_PAIR_STATUS, Reg.AX_STATE, Reg.CAN_STATUS, Reg.CDM_CH_STATE, Reg.CLO_STATUS, Reg.ENC_STATUS, Reg.ETH_STATUS, Reg.FWL_LINK, Reg.LSM_STATUS, Reg.PLK_STATUS, Reg.RMV_STATUS, Reg.RPC_DOM, Reg.VDR_STATUS]; omega

theorem domainOf_lt {r : Res} {d : Nat} (hd : r.domainOf = some d) : d < 32 := by
  cases r <;> simp only [Res.domainOf, Option.some.injEq, reduceCtorEq] at hd <;> omega

theorem health_log {s : State} {r : Res} (c x d : Nat) (hp : r.present = true) : (s.log c x d).health r = s.health r :=
  health_congr (fun _ hd => State.rd_log _ _ _ _ (domHealth_ne_lost (domainOf_lt hd))) (fun _ hf => State.rd_log _ _ _ _ (healthFld_ne_lost hf hp)) (by unfold State.log State.accept; split <;> simp [State.count, State.setNum])

theorem health_logRes {s : State} {r : Res} (r' : Res) (l d : Nat) (hp : r.present = true) : (s.logRes r' l d).health r = s.health r := health_log _ _ _ hp

theorem rd_setHealth_other {s : State} {r : Res} (h : Health) {a : Nat} (ha : ∀ f, r.healthFld = some f → a ≠ f.addr) : (s.setHealth r h).rd a = s.rd a := by
  unfold State.setHealth; split
  · rename_i f hf; exact State.rd_setFld_other _ _ _ (ha f hf)
  · simp

theorem time_setHealth (s : State) (r : Res) (h : Health) : (s.setHealth r h).time = s.time := by unfold State.setHealth; split <;> simp

theorem evl_setHealth (s : State) (r : Res) (h : Health) : (s.setHealth r h).evl = s.evl := by unfold State.setHealth; split <;> simp

theorem mem_setHealth (s : State) (r : Res) (h : Health) : (s.setHealth r h).mem = s.mem := by unfold State.setHealth; split <;> simp

theorem logicalOf_congr {s t : State} (h : t.rd Reg.IML_CREWMAP = s.rd Reg.IML_CREWMAP) (n : Nat) : t.logicalOf n = s.logicalOf n := by
  unfold State.logicalOf State.physOf; rw [h]

theorem sourceOf_congr {s t : State} (h : t.rd Reg.IML_CREWMAP = s.rd Reg.IML_CREWMAP) (r : Res) : t.sourceOf r = s.sourceOf r := by
  cases r <;> simp only [State.sourceOf, logicalOf_congr h]

theorem healthFld_ne_map {r : Res} {f : Fld} (hf : r.healthFld = some f) (hp : r.present = true) : Reg.IML_CREWMAP ≠ f.addr := by
  cases r <;> simp only [Res.present, Bool.and_eq_true, decide_eq_true_eq] at hp <;> simp only [Res.healthFld, Option.some.injEq, reduceCtorEq] at hf <;> subst hf <;> (try split) <;> (simp only [F.AFE_ADC_STATUS_HEALTH, F.AFE_PAIR_STATUS_TDAC_HEALTH, F.AX_STATE_STAGE_HEALTH, F.CAN_STATUS_HEALTH, F.CDM_CH_STATE_HEALTH, F.CLO_STATUS_HEALTH, F.ENC_STATUS_HEALTH, F.ETH_STATUS_HEALTH, F.FWL_LINK_HEALTH, F.LSM_STATUS_HEALTH, F.PLK_STATUS_LANE0_HEALTH, F.PLK_STATUS_LANE1_HEALTH, F.RMV_STATUS_HEALTH, F.RPC_DOM_HEALTH, F.VDR_STATUS_HEALTH, F.RPC_DOM_HEALTH, Reg.EVL_LOST, Reg.IML_CREWMAP, Reg.AFE_ADC_STATUS, Reg.AFE_PAIR_STATUS, Reg.AX_STATE, Reg.CAN_STATUS, Reg.CDM_CH_STATE, Reg.CLO_STATUS, Reg.ENC_STATUS, Reg.ETH_STATUS, Reg.FWL_LINK, Reg.LSM_STATUS, Reg.PLK_STATUS, Reg.RMV_STATUS, Reg.RPC_DOM, Reg.VDR_STATUS] <;> try omega)

theorem sourceOf_setHealth {s : State} {r : Res} (h : Health) (hp : r.present = true) : (s.setHealth r h).sourceOf r = s.sourceOf r :=
  sourceOf_congr (rd_setHealth_other _ (fun _ hf => healthFld_ne_map hf hp)) r

theorem readmit_eq {s : State} {r : Res} (h : s.health r = .retired) : s.readmit r = (s.setHealth r .testing).logRes r 4 0 := by unfold State.readmit; rw [h]

theorem rdByte_setHealth (s : State) (r : Res) (h : Health) (b : Nat) : (s.setHealth r h).rdByte b = s.rdByte b := by unfold State.rdByte; rw [mem_setHealth]

theorem mem_log (s : State) (c x d : Nat) : (s.log c x d).mem = s.mem := by unfold State.log State.accept; split <;> simp [State.count, State.setNum]

theorem time_log (s : State) (c x d : Nat) : (s.log c x d).time = s.time := by unfold State.log State.accept; split <;> simp [State.count, State.setNum]

theorem logs_trans {s t u : State} {c x d : Nat} (h1 : t.time = s.time) (h : ∀ e ∈ t.evl.queue, e ∈ u.evl.queue) (h2 : u.time = t.time) (hl : Logs s t c x d) : Logs s u c x d := by
  intro hq
  have e : u.event c x d = t.event c x d := by unfold State.event State.now; rw [h2]
  rw [e]; exact h _ (hl hq)

theorem logs_logRes {s t : State} {r : Res} (l x : Nat) (h1 : t.evl.queue.length ≤ s.evl.queue.length + 14) (h3 : t.sourceOf r = s.sourceOf r) :
   Logs s (t.logRes r l x) (r.block * 256 + l) (s.sourceOf r) (r.detail x) := by
  intro hq
  unfold State.logRes
  rw [h3]
  refine log_self' _ _ _ ?_ (by omega)
  unfold State.event State.now; rw [time_log]

theorem health_setHealthRec (s : State) (r r' : Res) (h : HealthRec) : (s.setHealthRec r' h).health r = s.health r :=
  health_congr (fun _ _ => by simp [State.setHealthRec]; rfl) (fun _ _ => by simp [State.setHealthRec]; rfl) rfl

theorem healthRec_setHealthRec (s : State) (r : Res) (h : HealthRec) : (s.setHealthRec r h).healthRec r = h := by simp [State.healthRec, State.setHealthRec, Tab.get, Tab.find_put_self]

theorem healthRec_logRes (s : State) (r r' : Res) (l d : Nat) : (s.logRes r' l d).healthRec r = s.healthRec r := by
  unfold State.healthRec State.logRes State.log State.accept; split <;> simp [State.count, State.setNum]

theorem sourceOf_setHealthRec (s : State) (r r' : Res) (h : HealthRec) : (s.setHealthRec r' h).sourceOf r = s.sourceOf r := sourceOf_congr rfl r

theorem sourceOf_logRes (s : State) (r r' : Res) (l d : Nat) : (s.logRes r' l d).sourceOf r = s.sourceOf r := sourceOf_congr (State.rd_log _ _ _ _ (by decide)) r

theorem logs_lr {s t : State} {r : Res} (l x : Nat) (h1 : t.evl = s.evl) (h3 : t.sourceOf r = s.sourceOf r) :
   Logs s (t.logRes r l x) (r.block * 256 + l) (s.sourceOf r) (r.detail x) := logs_logRes l x (by rw [h1]; omega) h3

theorem logs_src {s t : State} {r r' : Res} (l x : Nat) (h1 : t.evl = s.evl) (h3 : t.sourceOf r = r'.source) :
   Logs s (t.logRes r l x) (r.block * 256 + l) (r'.source) (r.detail x) := by
  intro hq
  unfold State.logRes
  rw [h3]
  refine log_self' _ _ _ ?_ (by rw [h1]; omega)
  unfold State.event State.now; rw [time_log]

theorem health_setRbit {s : State} {r : Res} (a i : Nat) (b : Bool) (h1 : ∀ d, r.domainOf = some d → (F.RPC_DOM_HEALTH d).addr ≠ a) (h2 : ∀ f, r.healthFld = some f → f.addr ≠ a) :
    (s.setRbit a i b).health r = s.health r :=
  health_congr (fun d hd => State.rd_setRbit_other _ _ _ (h1 d hd)) (fun f hf => State.rd_setRbit_other _ _ _ (h2 f hf)) rfl

theorem health_readmit {s : State} {r : Res} (h : s.health r = .retired) (hp : r.present = true) (hd : r.domainOf.any s.domainRetired = false) : (s.readmit r).health r = .testing := by
  rw [readmit_eq h, health_logRes _ _ _ hp, health_setHealth _ hp hd]

theorem rd_wrMem (s : State) (a n v b : Nat) : (s.wrMem a n v).rd b = s.rd b := by
  induction n generalizing s a v with
  | zero => rfl
  | succ n ih => unfold State.wrMem; rw [ih]; rfl

theorem rdMem_congr {s t : State} (h : t.mem = s.mem) (a n : Nat) : t.rdMem a n = s.rdMem a n := by
  induction n generalizing a with
  | zero => rfl
  | succ n ih => unfold State.rdMem State.rdByte; rw [h, ih]

theorem rpc_wrList (l : List Nat) (s : State) (b : Nat) : (s.wrList b l).rpc = s.rpc := by
  induction l generalizing s b with
  | nil => rfl
  | cons x l ih => unfold State.wrList; rw [ih]; rfl

theorem rpc_wrMem (s : State) (a n v : Nat) : (s.wrMem a n v).rpc = s.rpc := by
  induction n generalizing s a v with
  | zero => rfl
  | succ n ih => unfold State.wrMem; rw [ih]; rfl

theorem rd_copyMem (s : State) (a b n x : Nat) : (s.copyMem a b n).rd x = s.rd x := (rfl)

theorem rd_clearMem (s : State) (a n x : Nat) : (s.clearMem a n).rd x = s.rd x := (rfl)

theorem evl_copyMem (s : State) (a b n : Nat) : (s.copyMem a b n).evl = s.evl := (rfl)

theorem time_copyMem (s : State) (a b n : Nat) : (s.copyMem a b n).time = s.time := (rfl)

theorem rd_writeShadow (s : State) (x : Nat) : s.writeShadow.rd x = s.rd x := by unfold State.writeShadow; rfl

theorem rpc_writeShadow (s : State) : s.writeShadow.rpc = s.rpc := by unfold State.writeShadow; rfl

theorem rpc_recModule (s : State) (k c : Nat) (es : List (Nat × Nat)) : (s.recModule k c es).rpc = s.rpc := by
  unfold State.recModule State.writeRow State.appendRow
  split
  · rfl
  · split
    · rfl
    · simp [rpc_wrList]

theorem evl_recModule (s : State) (k c : Nat) (es : List (Nat × Nat)) : (s.recModule k c es).evl = s.evl := by
  unfold State.recModule State.writeRow State.appendRow
  split
  · rfl
  · split
    · rfl
    · simp [evl_wrList]

theorem evl_writeShadow (s : State) : s.writeShadow.evl = s.evl := by unfold State.writeShadow; rfl

theorem time_writeShadow (s : State) : s.writeShadow.time = s.time := by unfold State.writeShadow; rfl

theorem fold_field {α β : Type} {f : State → α → State} (p : State → β) (h : ∀ s x, p (f s x) = p s) (l : List α) (s : State) : p (l.foldl f s) = p s := by
  induction l generalizing s with
  | nil => rfl
  | cons x l ih => rw [List.foldl_cons, ih, h]

theorem rdWord_wrWord (s : State) (a : Nat) (v : Word) : (s.wrWord a v).rdWord a = v := by
  unfold State.rdWord State.wrWord; rw [State.rdMem_wrMem_self]
  have := v.isLt
  apply BitVec.eq_of_toNat_eq; simp; omega

theorem rdMem_wrMem_other (s : State) {a b n m v : Nat} (h : b + m ≤ a ∨ a + n ≤ b) : (s.wrMem a n v).rdMem b m = s.rdMem b m := by
  induction m generalizing b with
  | zero => rfl
  | succ m ih => unfold State.rdMem; rw [State.rdByte_wrMem_other _ _ (by omega), ih (by omega)]

theorem rdWord_wrWord_other (s : State) {a b : Nat} (v : Word) (h : b + 4 ≤ a ∨ a + 4 ≤ b) : (s.wrWord a v).rdWord b = s.rdWord b := by
  unfold State.rdWord State.wrWord; rw [rdMem_wrMem_other _ h]

theorem sameOut_wrWord (s : State) (a : Nat) (v : Word) : SameMemOutside s (s.wrWord a v) a 4 := by
  intro b hb; exact State.rdByte_wrMem_other _ _ hb

theorem rd_wrWord (s : State) (a : Nat) (v : Word) (x : Nat) : (s.wrWord a v).rd x = s.rd x := rd_wrMem ..

theorem entryOf_setEntry (s : State) (n x w : Nat) (e : MEntry) : (s.setEntry n x w e).entryOf n x w = e := by
  simp [State.setEntry, State.setCtx, State.entryOf, State.ctxOf, State.coxOf, CoxState.ctx]
  unfold CoxCtx.setEntry CoxCtx.entry; split <;> simp_all

theorem time_wrMem (s : State) (a n v : Nat) : (s.wrMem a n v).time = s.time := by
  induction n generalizing s a v with
  | zero => rfl
  | succ n ih => unfold State.wrMem; rw [ih]; rfl

theorem evl_wrMem (s : State) (a n v : Nat) : (s.wrMem a n v).evl = s.evl := by
  induction n generalizing s a v with
  | zero => rfl
  | succ n ih => unfold State.wrMem; rw [ih]; rfl

theorem lpe_wrMem (s : State) (a n v : Nat) : (s.wrMem a n v).lpe = s.lpe := by
  induction n generalizing s a v with
  | zero => rfl
  | succ n ih => unfold State.wrMem; rw [ih]; rfl

/-- A time has lasted exactly from its end on. -/
theorem State.lasted_iff {s : State} {t d : Nat} : s.lasted t d = true ↔ t + d ≤ s.time.cycle := by
  unfold State.lasted; rw [Bool.and_eq_true, decide_eq_true_eq, decide_eq_true_eq]; omega
theorem State.lasted_of_le {s : State} {t d : Nat} (h : t + d ≤ s.time.cycle) : s.lasted t d = true := State.lasted_iff.mpr h
theorem State.lasted_of_lt {s : State} {t d : Nat} (h : s.time.cycle < t + d) : s.lasted t d = false :=
  Bool.eq_false_iff.mpr fun e => Nat.not_le.mpr h (State.lasted_iff.mp e)

end Sys2Proof.Machine
end

