-- ==== Sys2Proof/Laws/Sound.lean ====
section
/-! SUPPORT. Soundness of a state is kept: the lemmas every operation's own lemma is put together from. -/
namespace Sys2Proof.Machine

/-- An outcome is sound when the next state, if there is one, is. -/
def OutSound (o : Host.Outcome State Fault Refusal) : Prop := ∀ t, o = .next t → t.Sound

theorem outSound_next {t : State} (h : t.Sound) : OutSound (.next t) := by
  intro u e; injection e with e; exact e ▸ h

/-- An update that keeps memory, registers and the event log keeps soundness. -/
theorem sound_mk (s : State)
    {pending_ : List Instr} {fresh_ : Nat} {bus_ : BusResp} {latch_ : List (Nat × Word)} {claimed_ : List Nat} {wire_ : List Emit} {time_ : 
    TimeState} {courses_ : List (Nat × Course)} {tabs_ : List (Nat × CatchTab)} {inflight_ : List Catch} {dins_ : List (Nat × Din)} {fwl_ : 
    FwlState} {healths_ : List (Nat × HealthRec)} {healthX_ : List (Nat × Health)} {img_ : ImgTables} {cox_ : List (Nat × CoxState)} {convs_ : 
    List (Nat × Conv)} {pairs_ : List (Nat × Pair)} {owRun_ : List (Nat × Nat)} {cal_ : Cal} {dma_ : List (Nat × DmaChan)} {dmaLast_ : List (Nat 
    × Nat)} {rmv_ : List (Nat × RmvChan)} {lpe_ : List (Nat × LpeState)} {lsm_ : List (Nat × LsmState)} {mig_ : Option Migration} {owed_ : List 
    HeldAcc} {axes_ : List (Nat × Axis)} {motHeld_ : List (Nat × MotHeld)} {encs_ : List (Nat × Enc)} {rce_ : RecState} {seq_ : SeqState} {clos_ 
    : List (Nat × Clo)} {vdrs_ : List (Nat × Vdr)} {pvm_ : PvmState} {cyc_ : CycState} {iml_ : ImlState} {cans_ : List (Nat × CanState)} {eths_ 
    : List (Nat × EthState)} {prps_ : List (Nat × PrpState)} {rra_ : RraState} {plk_ : PlkState} {vlt_ : VltState} {rpc_ : RpcState} :
    (State.mk pending_ s.regs s.mem fresh_ bus_ latch_ claimed_ wire_ s.evl time_ courses_ tabs_ inflight_ dins_ fwl_ healths_ healthX_ img_ 
    cox_ convs_ pairs_ owRun_ cal_ dma_ dmaLast_ rmv_ lpe_ lsm_ mig_ owed_ axes_ motHeld_ encs_ rce_ seq_ clos_ vdrs_ pvm_ cyc_ iml_ cans_ eths_ 
    prps_ rra_ plk_ vlt_ rpc_).Sound ↔ s.Sound := Iff.rfl

/-- An update of the event log that keeps its queue keeps soundness. -/
theorem sound_mk_evl (s : State) {a : Nat} {b : Nat} {c : Nat} {d : List (Nat × Word)}
    {pending_ : List Instr} {fresh_ : Nat} {bus_ : BusResp} {latch_ : List (Nat × Word)} {claimed_ : List Nat} {wire_ : List Emit} {time_ : 
    TimeState} {courses_ : List (Nat × Course)} {tabs_ : List (Nat × CatchTab)} {inflight_ : List Catch} {dins_ : List (Nat × Din)} {fwl_ : 
    FwlState} {healths_ : List (Nat × HealthRec)} {healthX_ : List (Nat × Health)} {img_ : ImgTables} {cox_ : List (Nat × CoxState)} {convs_ : 
    List (Nat × Conv)} {pairs_ : List (Nat × Pair)} {owRun_ : List (Nat × Nat)} {cal_ : Cal} {dma_ : List (Nat × DmaChan)} {dmaLast_ : List (Nat 
    × Nat)} {rmv_ : List (Nat × RmvChan)} {lpe_ : List (Nat × LpeState)} {lsm_ : List (Nat × LsmState)} {mig_ : Option Migration} {owed_ : List 
    HeldAcc} {axes_ : List (Nat × Axis)} {motHeld_ : List (Nat × MotHeld)} {encs_ : List (Nat × Enc)} {rce_ : RecState} {seq_ : SeqState} {clos_ 
    : List (Nat × Clo)} {vdrs_ : List (Nat × Vdr)} {pvm_ : PvmState} {cyc_ : CycState} {iml_ : ImlState} {cans_ : List (Nat × CanState)} {eths_ 
    : List (Nat × EthState)} {prps_ : List (Nat × PrpState)} {rra_ : RraState} {plk_ : PlkState} {vlt_ : VltState} {rpc_ : RpcState} :
    (State.mk pending_ s.regs s.mem fresh_ bus_ latch_ claimed_ wire_ ⟨s.evl.queue, a, b, c, d⟩ time_ courses_ tabs_ inflight_ dins_ fwl_ 
    healths_ healthX_ img_ cox_ convs_ pairs_ owRun_ cal_ dma_ dmaLast_ rmv_ lpe_ lsm_ mig_ owed_ axes_ motHeld_ encs_ rce_ seq_ clos_ vdrs_ 
    pvm_ cyc_ iml_ cans_ eths_ prps_ rra_ plk_ vlt_ rpc_).Sound ↔ s.Sound := Iff.rfl

theorem sound_of_fst {α : Type} {p : State × α} {a : State} {b : α} (e : p = (a, b)) (h : p.1.Sound) : a.Sound := by rw [e] at h; exact h
theorem sound_of_snd {α : Type} {p : α × State} {a : α} {b : State} (e : p = (a, b)) (h : p.2.Sound) : b.Sound := by rw [e] at h; exact h
theorem sound_of_trd {α β : Type} {p : α × β × State} {a : α} {b : β} {c : State} (e : p = (a, b, c)) (h : p.2.2.Sound) : c.Sound := by
  rw [e] at h; exact h

theorem sound_ite {p : Prop} [Decidable p] {s t : State} (h : s.Sound) (k : t.Sound) : (if p then s else t).Sound := by
  split
  · exact h
  · exact k
theorem sound_ite_snd {α : Type} {p : Prop} [Decidable p] {s t : α × State} (h : s.2.Sound) (k : t.2.Sound) : (if p then s else t).2.Sound := by
  split
  · exact h
  · exact k
theorem outSound_ite {p : Prop} [Decidable p] {s t : Host.Outcome State Fault Refusal} (h : OutSound s) (k : OutSound t) :
    OutSound (if p then s else t) := by
  split
  · exact h
  · exact k

theorem sound_foldl {α : Type} {f : State → α → State} {l : List α} {s : State} (h : s.Sound) (hf : ∀ s x, s.Sound → (f s x).Sound) :
    (l.foldl f s).Sound := by
  induction l generalizing s with
  | nil => exact h
  | cons x l ih => exact ih (hf s x h)

theorem sound_foldl_fst {α β : Type} {f : State × β → α → State × β} {l : List α} {p : State × β} (h : p.1.Sound)
    (hf : ∀ p x, p.1.Sound → (f p x).1.Sound) : (l.foldl f p).1.Sound := by
  induction l generalizing p with
  | nil => exact h
  | cons x l ih => exact ih (hf p x h)

theorem sound_foldl_snd {α β : Type} {f : β × State → α → β × State} {l : List α} {p : β × State} (h : p.2.Sound)
    (hf : ∀ p x, p.2.Sound → (f p x).2.Sound) : (l.foldl f p).2.Sound := by
  induction l generalizing p with
  | nil => exact h
  | cons x l ih => exact ih (hf p x h)

/-! ## The updates everything is made of -/

theorem State.wr_sound {s : State} (h : s.Sound) (a : Nat) (v : Word) : (s.wr a v).Sound := ⟨h.1, Tab.wf_set _ h.2.1 a v, h.2.2⟩
theorem State.wrByte_sound {s : State} (h : s.Sound) (a : Nat) (v : Byte) : (s.wrByte a v).Sound := ⟨Tab.wf_set _ h.1 a v, h.2⟩
theorem State.wrMem_sound {s : State} (h : s.Sound) (a n v : Nat) : (s.wrMem a n v).Sound := by
  induction n generalizing s a v with
  | zero => exact h
  | succ n ih => exact ih (State.wrByte_sound h a _) _ _
theorem State.wrList_sound {s : State} (h : s.Sound) (a : Nat) (l : List Nat) : (s.wrList a l).Sound := by
  induction l generalizing s a with
  | nil => exact h
  | cons x l ih => exact ih (State.wrByte_sound h a _) _
theorem State.clearMem_sound {s : State} (h : s.Sound) (a n : Nat) : (s.clearMem a n).Sound := ⟨Memory.wf_clearMem h.1 a n, h.2⟩
theorem State.copyMem_sound {s : State} (h : s.Sound) (src dst n : Nat) : (s.copyMem src dst n).Sound := ⟨Memory.wf_copyMem h.1 src dst n, h.2⟩
theorem State.takeFresh_sound {s : State} (h : s.Sound) (n : Nat) : (s.takeFresh n).Sound := h
theorem State.freshWord_sound {s : State} (h : s.Sound) : s.freshWord.2.Sound := h
theorem State.freshNat_sound {s : State} (h : s.Sound) : s.freshNat.2.Sound := h
theorem State.freshInt_sound {s : State} (h : s.Sound) : s.freshInt.2.Sound := h
theorem State.accept_sound {s : State} (h : s.Sound) (e : Event) : (s.accept e).Sound := by
  refine ⟨?_, ?_, State.accept_queue_le h.2.2 e⟩
  · rw [State.accept_mem]; exact h.1
  · unfold State.accept
    split
    · exact h.2.1
    · exact (State.wr_sound (s := s.setEvl { s.evl with lostRun := s.evl.lostRun + 1 }) h _ _).2.1

end Sys2Proof.Machine
end

