-- ==== Sys2Proof/Laws/SoundOps.lean ====
section
/-! SUPPORT. The operations and commands of Machine/Ops.lean keep a sound state sound. -/
namespace Sys2Proof.Machine

theorem State.wrWord_sound {s : State} (hs : s.Sound) (a : Nat) (v : Word) : (State.wrWord s a v).Sound := by
  unfold State.wrWord
  try dsimp only
  repeat' first
    | with_reducible assumption | with_reducible apply State.wrMem_sound

theorem State.setNum_sound {s : State} (hs : s.Sound) (a : Nat) (v : Nat) : (State.setNum s a v).Sound := by
  unfold State.setNum
  try dsimp only
  repeat' first
    | with_reducible assumption | with_reducible apply State.wr_sound

theorem State.setNum64_sound {s : State} (hs : s.Sound) (lo : Nat) (hi : Nat) (v : Nat) : (State.setNum64 s lo hi v).Sound := by
  unfold State.setNum64
  try dsimp only
  repeat' first
    | with_reducible assumption | with_reducible apply State.setNum_sound

theorem State.count_sound {s : State} (hs : s.Sound) (a : Nat) (n : Nat) : (State.count s a n).Sound := by
  unfold State.count
  try dsimp only
  repeat' first
    | with_reducible assumption | with_reducible apply State.setNum_sound

theorem State.log_sound {s : State} (hs : s.Sound) (code : Nat) (source : Nat) (detail : Nat) : (State.log s code source detail).Sound := by
  unfold State.log
  try dsimp only
  repeat' first
    | with_reducible assumption | with_reducible apply State.accept_sound

theorem State.setFld_sound {s : State} (hs : s.Sound) (f : Fld) (v : Nat) : (State.setFld s f v).Sound := by
  unfold State.setFld
  try dsimp only
  repeat' first
    | with_reducible assumption | with_reducible apply State.wr_sound

theorem State.setHealthX_sound {s : State} (hs : s.Sound) (l : List (Nat × Health)) : (State.setHealthX s l).Sound := by
  unfold State.setHealthX
  try dsimp only
  repeat' first
    | with_reducible assumption | with_reducible apply outSound_next | with_reducible apply sound_ite | with_reducible apply outSound_ite
    | with_reducible apply sound_foldl | with_reducible intro _ _ _ _ | with_reducible intro _ _ _ | with_reducible intro _ _
    | with_reducible apply sound_ite_snd | with_reducible refine sound_of_snd (by assumption) ?_
    | with_reducible refine sound_of_fst (by assumption) ?_ | with_reducible refine sound_of_trd (by assumption) ?_
    | with_reducible apply sound_foldl_fst | with_reducible apply sound_foldl_snd | split | dsimp only | simp only [sound_mk, sound_mk_evl]

theorem State.setRbit_sound {s : State} (hs : s.Sound) (a : Nat) (i : Nat) (b : Bool) : (State.setRbit s a i b).Sound := by
  unfold State.setRbit
  try dsimp only
  repeat' first
    | with_reducible assumption | with_reducible apply State.setNum_sound

theorem State.setWire_sound {s : State} (hs : s.Sound) (l : List Emit) : (State.setWire s l).Sound := by
  unfold State.setWire
  try dsimp only
  repeat' first
    | with_reducible assumption | with_reducible apply outSound_next | with_reducible apply sound_ite | with_reducible apply outSound_ite
    | with_reducible apply sound_foldl | with_reducible intro _ _ _ _ | with_reducible intro _ _ _ | with_reducible intro _ _
    | with_reducible apply sound_ite_snd | with_reducible refine sound_of_snd (by assumption) ?_
    | with_reducible refine sound_of_fst (by assumption) ?_ | with_reducible refine sound_of_trd (by assumption) ?_
    | with_reducible apply sound_foldl_fst | with_reducible apply sound_foldl_snd | split | dsimp only | simp only [sound_mk, sound_mk_evl]

theorem State.setBus_sound {s : State} (hs : s.Sound) (b : BusResp) : (State.setBus s b).Sound := by
  unfold State.setBus
  try dsimp only
  repeat' first
    | with_reducible assumption | with_reducible apply outSound_next | with_reducible apply sound_ite | with_reducible apply outSound_ite
    | with_reducible apply sound_foldl | with_reducible intro _ _ _ _ | with_reducible intro _ _ _ | with_reducible intro _ _
    | with_reducible apply sound_ite_snd | with_reducible refine sound_of_snd (by assumption) ?_
    | with_reducible refine sound_of_fst (by assumption) ?_ | with_reducible refine sound_of_trd (by assumption) ?_
    | with_reducible apply sound_foldl_fst | with_reducible apply sound_foldl_snd | split | dsimp only | simp only [sound_mk, sound_mk_evl]

theorem State.setCal_sound {s : State} (hs : s.Sound) (c : Cal) : (State.setCal s c).Sound := by
  unfold State.setCal
  try dsimp only
  repeat' first
    | with_reducible assumption | with_reducible apply outSound_next | with_reducible apply sound_ite | with_reducible apply outSound_ite
    | with_reducible apply sound_foldl | with_reducible intro _ _ _ _ | with_reducible intro _ _ _ | with_reducible intro _ _
    | with_reducible apply sound_ite_snd | with_reducible refine sound_of_snd (by assumption) ?_
    | with_reducible refine sound_of_fst (by assumption) ?_ | with_reducible refine sound_of_trd (by assumption) ?_
    | with_reducible apply sound_foldl_fst | with_reducible apply sound_foldl_snd | split | dsimp only | simp only [sound_mk, sound_mk_evl]

theorem State.logIf_sound {s : State} (hs : s.Sound) (b : Bool) (code : Nat) (source : Nat) (detail : Nat) : (State.logIf s b code source detail).Sound := by
  unfold State.logIf
  try dsimp only
  repeat' first
    | with_reducible assumption | with_reducible apply State.log_sound | with_reducible apply outSound_next
    | with_reducible apply sound_ite

theorem State.countFld_sound {s : State} (hs : s.Sound) (f : Fld) (n : Nat) : (State.countFld s f n).Sound := by
  unfold State.countFld
  try dsimp only
  repeat' first
    | with_reducible assumption | with_reducible apply State.setFld_sound

theorem State.setFwl_sound {s : State} (hs : s.Sound) (f : FwlState) : (State.setFwl s f).Sound := by
  unfold State.setFwl
  try dsimp only
  repeat' first
    | with_reducible assumption | with_reducible apply outSound_next | with_reducible apply sound_ite | with_reducible apply outSound_ite
    | with_reducible apply sound_foldl | with_reducible intro _ _ _ _ | with_reducible intro _ _ _ | with_reducible intro _ _
    | with_reducible apply sound_ite_snd | with_reducible refine sound_of_snd (by assumption) ?_
    | with_reducible refine sound_of_fst (by assumption) ?_ | with_reducible refine sound_of_trd (by assumption) ?_
    | with_reducible apply sound_foldl_fst | with_reducible apply sound_foldl_snd | split | dsimp only | simp only [sound_mk, sound_mk_evl]

theorem State.logPerSecond_sound {s : State} (hs : s.Sound) (key : Nat) (code : Nat) (source : Nat) (detail : Nat) : (State.logPerSecond s key code source detail).Sound := by
  unfold State.logPerSecond
  try dsimp only
  repeat' first
    | with_reducible assumption | with_reducible apply State.log_sound | with_reducible apply State.setFwl_sound
    | with_reducible apply outSound_next | with_reducible apply sound_ite

theorem State.setLatch_sound {s : State} (hs : s.Sound) (l : List (Nat × Word)) : (State.setLatch s l).Sound := by
  unfold State.setLatch
  try dsimp only
  repeat' first
    | with_reducible assumption | with_reducible apply outSound_next | with_reducible apply sound_ite | with_reducible apply outSound_ite
    | with_reducible apply sound_foldl | with_reducible intro _ _ _ _ | with_reducible intro _ _ _ | with_reducible intro _ _
    | with_reducible apply sound_ite_snd | with_reducible refine sound_of_snd (by assumption) ?_
    | with_reducible refine sound_of_fst (by assumption) ?_ | with_reducible refine sound_of_trd (by assumption) ?_
    | with_reducible apply sound_foldl_fst | with_reducible apply sound_foldl_snd | split | dsimp only | simp only [sound_mk, sound_mk_evl]

theorem State.setTime_sound {s : State} (hs : s.Sound) (t : TimeState) : (State.setTime s t).Sound := by
  unfold State.setTime
  try dsimp only
  repeat' first
    | with_reducible assumption | with_reducible apply outSound_next | with_reducible apply sound_ite | with_reducible apply outSound_ite
    | with_reducible apply sound_foldl | with_reducible intro _ _ _ _ | with_reducible intro _ _ _ | with_reducible intro _ _
    | with_reducible apply sound_ite_snd | with_reducible refine sound_of_snd (by assumption) ?_
    | with_reducible refine sound_of_fst (by assumption) ?_ | with_reducible refine sound_of_trd (by assumption) ?_
    | with_reducible apply sound_foldl_fst | with_reducible apply sound_foldl_snd | split | dsimp only | simp only [sound_mk, sound_mk_evl]

theorem State.setMotHeld_sound {s : State} (hs : s.Sound) (l : List (Nat × MotHeld)) : (State.setMotHeld s l).Sound := by
  unfold State.setMotHeld
  try dsimp only
  repeat' first
    | with_reducible assumption | with_reducible apply outSound_next | with_reducible apply sound_ite | with_reducible apply outSound_ite
    | with_reducible apply sound_foldl | with_reducible intro _ _ _ _ | with_reducible intro _ _ _ | with_reducible intro _ _
    | with_reducible apply sound_ite_snd | with_reducible refine sound_of_snd (by assumption) ?_
    | with_reducible refine sound_of_fst (by assumption) ?_ | with_reducible refine sound_of_trd (by assumption) ?_
    | with_reducible apply sound_foldl_fst | with_reducible apply sound_foldl_snd | split | dsimp only | simp only [sound_mk, sound_mk_evl]

theorem State.setIml_sound {s : State} (hs : s.Sound) (i : ImlState) : (State.setIml s i).Sound := by
  unfold State.setIml
  try dsimp only
  repeat' first
    | with_reducible assumption | with_reducible apply outSound_next | with_reducible apply sound_ite | with_reducible apply outSound_ite
    | with_reducible apply sound_foldl | with_reducible intro _ _ _ _ | with_reducible intro _ _ _ | with_reducible intro _ _
    | with_reducible apply sound_ite_snd | with_reducible refine sound_of_snd (by assumption) ?_
    | with_reducible refine sound_of_fst (by assumption) ?_ | with_reducible refine sound_of_trd (by assumption) ?_
    | with_reducible apply sound_foldl_fst | with_reducible apply sound_foldl_snd | split | dsimp only | simp only [sound_mk, sound_mk_evl]

theorem State.setMig_sound {s : State} (hs : s.Sound) (m : Option Migration) : (State.setMig s m).Sound := by
  unfold State.setMig
  try dsimp only
  repeat' first
    | with_reducible assumption | with_reducible apply outSound_next | with_reducible apply sound_ite | with_reducible apply outSound_ite
    | with_reducible apply sound_foldl | with_reducible intro _ _ _ _ | with_reducible intro _ _ _ | with_reducible intro _ _
    | with_reducible apply sound_ite_snd | with_reducible refine sound_of_snd (by assumption) ?_
    | with_reducible refine sound_of_fst (by assumption) ?_ | with_reducible refine sound_of_trd (by assumption) ?_
    | with_reducible apply sound_foldl_fst | with_reducible apply sound_foldl_snd | split | dsimp only | simp only [sound_mk, sound_mk_evl]

theorem State.setOwed_sound {s : State} (hs : s.Sound) (l : List HeldAcc) : (State.setOwed s l).Sound := by
  unfold State.setOwed
  try dsimp only
  repeat' first
    | with_reducible assumption | with_reducible apply outSound_next | with_reducible apply sound_ite | with_reducible apply outSound_ite
    | with_reducible apply sound_foldl | with_reducible intro _ _ _ _ | with_reducible intro _ _ _ | with_reducible intro _ _
    | with_reducible apply sound_ite_snd | with_reducible refine sound_of_snd (by assumption) ?_
    | with_reducible refine sound_of_fst (by assumption) ?_ | with_reducible refine sound_of_trd (by assumption) ?_
    | with_reducible apply sound_foldl_fst | with_reducible apply sound_foldl_snd | split | dsimp only | simp only [sound_mk, sound_mk_evl]

theorem State.setClaimed_sound {s : State} (hs : s.Sound) (l : List Nat) : (State.setClaimed s l).Sound := by
  unfold State.setClaimed
  try dsimp only
  repeat' first
    | with_reducible assumption | with_reducible apply outSound_next | with_reducible apply sound_ite | with_reducible apply outSound_ite
    | with_reducible apply sound_foldl | with_reducible intro _ _ _ _ | with_reducible intro _ _ _ | with_reducible intro _ _
    | with_reducible apply sound_ite_snd | with_reducible refine sound_of_snd (by assumption) ?_
    | with_reducible refine sound_of_fst (by assumption) ?_ | with_reducible refine sound_of_trd (by assumption) ?_
    | with_reducible apply sound_foldl_fst | with_reducible apply sound_foldl_snd | split | dsimp only | simp only [sound_mk, sound_mk_evl]

theorem State.setDmaLast_sound {s : State} (hs : s.Sound) (l : List (Nat × Nat)) : (State.setDmaLast s l).Sound := by
  unfold State.setDmaLast
  try dsimp only
  repeat' first
    | with_reducible assumption | with_reducible apply outSound_next | with_reducible apply sound_ite | with_reducible apply outSound_ite
    | with_reducible apply sound_foldl | with_reducible intro _ _ _ _ | with_reducible intro _ _ _ | with_reducible intro _ _
    | with_reducible apply sound_ite_snd | with_reducible refine sound_of_snd (by assumption) ?_
    | with_reducible refine sound_of_fst (by assumption) ?_ | with_reducible refine sound_of_trd (by assumption) ?_
    | with_reducible apply sound_foldl_fst | with_reducible apply sound_foldl_snd | split | dsimp only | simp only [sound_mk, sound_mk_evl]

theorem State.setMap_sound {s : State} (hs : s.Sound) (m : Nat) (phys : Nat) : (State.setMap s m phys).Sound := by
  unfold State.setMap
  try dsimp only
  repeat' first
    | with_reducible assumption | with_reducible apply State.setFld_sound

theorem State.setInflight_sound {s : State} (hs : s.Sound) (l : List Catch) : (State.setInflight s l).Sound := by
  unfold State.setInflight
  try dsimp only
  repeat' first
    | with_reducible assumption | with_reducible apply outSound_next | with_reducible apply sound_ite | with_reducible apply outSound_ite
    | with_reducible apply sound_foldl | with_reducible intro _ _ _ _ | with_reducible intro _ _ _ | with_reducible intro _ _
    | with_reducible apply sound_ite_snd | with_reducible refine sound_of_snd (by assumption) ?_
    | with_reducible refine sound_of_fst (by assumption) ?_ | with_reducible refine sound_of_trd (by assumption) ?_
    | with_reducible apply sound_foldl_fst | with_reducible apply sound_foldl_snd | split | dsimp only | simp only [sound_mk, sound_mk_evl]

theorem State.setAxes_sound {s : State} (hs : s.Sound) (l : List (Nat × Axis)) : (State.setAxes s l).Sound := by
  unfold State.setAxes
  try dsimp only
  repeat' first
    | with_reducible assumption | with_reducible apply outSound_next | with_reducible apply sound_ite | with_reducible apply outSound_ite
    | with_reducible apply sound_foldl | with_reducible intro _ _ _ _ | with_reducible intro _ _ _ | with_reducible intro _ _
    | with_reducible apply sound_ite_snd | with_reducible refine sound_of_snd (by assumption) ?_
    | with_reducible refine sound_of_fst (by assumption) ?_ | with_reducible refine sound_of_trd (by assumption) ?_
    | with_reducible apply sound_foldl_fst | with_reducible apply sound_foldl_snd | split | dsimp only | simp only [sound_mk, sound_mk_evl]

theorem State.setImg_sound {s : State} (hs : s.Sound) (t : ImgTables) : (State.setImg s t).Sound := by
  unfold State.setImg
  try dsimp only
  repeat' first
    | with_reducible assumption | with_reducible apply outSound_next | with_reducible apply sound_ite | with_reducible apply outSound_ite
    | with_reducible apply sound_foldl | with_reducible intro _ _ _ _ | with_reducible intro _ _ _ | with_reducible intro _ _
    | with_reducible apply sound_ite_snd | with_reducible refine sound_of_snd (by assumption) ?_
    | with_reducible refine sound_of_fst (by assumption) ?_ | with_reducible refine sound_of_trd (by assumption) ?_
    | with_reducible apply sound_foldl_fst | with_reducible apply sound_foldl_snd | split | dsimp only | simp only [sound_mk, sound_mk_evl]

theorem State.setOwRun_sound {s : State} (hs : s.Sound) (l : List (Nat × Nat)) : (State.setOwRun s l).Sound := by
  unfold State.setOwRun
  try dsimp only
  repeat' first
    | with_reducible assumption | with_reducible apply outSound_next | with_reducible apply sound_ite | with_reducible apply outSound_ite
    | with_reducible apply sound_foldl | with_reducible intro _ _ _ _ | with_reducible intro _ _ _ | with_reducible intro _ _
    | with_reducible apply sound_ite_snd | with_reducible refine sound_of_snd (by assumption) ?_
    | with_reducible refine sound_of_fst (by assumption) ?_ | with_reducible refine sound_of_trd (by assumption) ?_
    | with_reducible apply sound_foldl_fst | with_reducible apply sound_foldl_snd | split | dsimp only | simp only [sound_mk, sound_mk_evl]

end Sys2Proof.Machine
end

