-- ==== Sys2Proof/Laws/SoundHealthOps.lean ====
section
/-! SUPPORT. The operations and commands of Machine/HealthOps.lean keep a sound state sound. -/
namespace Sys2Proof.Machine

theorem State.setPlk_sound {s : State} (hs : s.Sound) (p : PlkState) : (State.setPlk s p).Sound := by
  unfold State.setPlk
  try dsimp only
  repeat' first
    | with_reducible assumption | with_reducible apply outSound_next | with_reducible apply sound_ite | with_reducible apply outSound_ite
    | with_reducible apply sound_foldl | with_reducible intro _ _ _ _ | with_reducible intro _ _ _ | with_reducible intro _ _
    | with_reducible apply sound_ite_snd | with_reducible refine sound_of_snd (by assumption) ?_
    | with_reducible refine sound_of_fst (by assumption) ?_ | with_reducible refine sound_of_trd (by assumption) ?_
    | with_reducible apply sound_foldl_fst | with_reducible apply sound_foldl_snd | split | dsimp only | simp only [sound_mk, sound_mk_evl]

theorem State.logRes_sound {s : State} (hs : s.Sound) (r : Res) (low : Nat) (detail : Nat) : (State.logRes s r low detail).Sound := by
  unfold State.logRes
  try dsimp only
  repeat' first
    | with_reducible assumption | with_reducible apply State.log_sound

theorem State.setHealth_sound {s : State} (hs : s.Sound) (r : Res) (h : Health) : (State.setHealth s r h).Sound := by
  unfold State.setHealth
  try dsimp only
  repeat' first
    | with_reducible assumption | with_reducible apply State.setFld_sound | with_reducible apply State.setHealthX_sound
    | with_reducible apply outSound_next | with_reducible apply sound_ite | with_reducible apply outSound_ite
    | with_reducible apply sound_foldl | with_reducible intro _ _ _ _ | with_reducible intro _ _ _ | with_reducible intro _ _
    | with_reducible apply sound_ite_snd | with_reducible refine sound_of_snd (by assumption) ?_
    | with_reducible refine sound_of_fst (by assumption) ?_ | with_reducible refine sound_of_trd (by assumption) ?_
    | with_reducible apply sound_foldl_fst | with_reducible apply sound_foldl_snd | split

theorem State.fatal_sound {s : State} (hs : s.Sound) (r : Res) (cause : Nat) : (State.fatal s r cause).Sound := by
  unfold State.fatal
  try dsimp only
  repeat' first
    | with_reducible assumption | with_reducible apply State.logRes_sound | with_reducible apply State.setHealth_sound
    | with_reducible apply outSound_next | with_reducible apply sound_ite

theorem State.setHealthRec_sound {s : State} (hs : s.Sound) (r : Res) (h : HealthRec) : (State.setHealthRec s r h).Sound := by
  unfold State.setHealthRec
  try dsimp only
  repeat' first
    | with_reducible assumption | with_reducible apply outSound_next | with_reducible apply sound_ite | with_reducible apply outSound_ite
    | with_reducible apply sound_foldl | with_reducible intro _ _ _ _ | with_reducible intro _ _ _ | with_reducible intro _ _
    | with_reducible apply sound_ite_snd | with_reducible refine sound_of_snd (by assumption) ?_
    | with_reducible refine sound_of_fst (by assumption) ?_ | with_reducible refine sound_of_trd (by assumption) ?_
    | with_reducible apply sound_foldl_fst | with_reducible apply sound_foldl_snd | split | dsimp only | simp only [sound_mk, sound_mk_evl]

theorem State.transientIn_sound {s : State} (hs : s.Sound) (r : Res) (ivl : Nat × Nat) (cause : Nat) : (State.transientIn s r ivl cause).Sound := by
  unfold State.transientIn
  try dsimp only
  repeat' first
    | with_reducible assumption | with_reducible apply State.logRes_sound | with_reducible apply State.setHealthRec_sound
    | with_reducible apply State.setHealth_sound | with_reducible apply outSound_next | with_reducible apply sound_ite
    | with_reducible apply outSound_ite | with_reducible apply sound_foldl | with_reducible intro _ _ _ _ | with_reducible intro _ _ _
    | with_reducible intro _ _ | with_reducible apply sound_ite_snd | with_reducible refine sound_of_snd (by assumption) ?_
    | with_reducible refine sound_of_fst (by assumption) ?_ | with_reducible refine sound_of_trd (by assumption) ?_
    | with_reducible apply sound_foldl_fst | with_reducible apply sound_foldl_snd | split

theorem State.transient_sound {s : State} (hs : s.Sound) (r : Res) (cause : Nat) : (State.transient s r cause).Sound := by
  unfold State.transient
  try dsimp only
  repeat' first
    | with_reducible assumption | with_reducible apply State.transientIn_sound

theorem State.emit_sound {s : State} (hs : s.Sound) (e : Emit) : (State.emit s e).Sound := by
  unfold State.emit
  try dsimp only
  repeat' first
    | with_reducible assumption | with_reducible apply State.setWire_sound

theorem State.setCox_sound {s : State} (hs : s.Sound) (n : Nat) (c : CoxState) : (State.setCox s n c).Sound := by
  unfold State.setCox
  try dsimp only
  repeat' first
    | with_reducible assumption | with_reducible apply outSound_next | with_reducible apply sound_ite | with_reducible apply outSound_ite
    | with_reducible apply sound_foldl | with_reducible intro _ _ _ _ | with_reducible intro _ _ _ | with_reducible intro _ _
    | with_reducible apply sound_ite_snd | with_reducible refine sound_of_snd (by assumption) ?_
    | with_reducible refine sound_of_fst (by assumption) ?_ | with_reducible refine sound_of_trd (by assumption) ?_
    | with_reducible apply sound_foldl_fst | with_reducible apply sound_foldl_snd | split | dsimp only | simp only [sound_mk, sound_mk_evl]

theorem State.setLsm_sound {s : State} (hs : s.Sound) (n : Nat) (x : LsmState) : (State.setLsm s n x).Sound := by
  unfold State.setLsm
  try dsimp only
  repeat' first
    | with_reducible assumption | with_reducible apply outSound_next | with_reducible apply sound_ite | with_reducible apply outSound_ite
    | with_reducible apply sound_foldl | with_reducible intro _ _ _ _ | with_reducible intro _ _ _ | with_reducible intro _ _
    | with_reducible apply sound_ite_snd | with_reducible refine sound_of_snd (by assumption) ?_
    | with_reducible refine sound_of_fst (by assumption) ?_ | with_reducible refine sound_of_trd (by assumption) ?_
    | with_reducible apply sound_foldl_fst | with_reducible apply sound_foldl_snd | split | dsimp only | simp only [sound_mk, sound_mk_evl]

theorem State.readmit_sound {s : State} (hs : s.Sound) (r : Res) : (State.readmit s r).Sound := by
  unfold State.readmit
  try dsimp only
  repeat' first
    | with_reducible assumption | with_reducible apply State.logRes_sound | with_reducible apply State.setHealth_sound
    | with_reducible apply outSound_next | with_reducible apply sound_ite | with_reducible apply outSound_ite
    | with_reducible apply sound_foldl | with_reducible intro _ _ _ _ | with_reducible intro _ _ _ | with_reducible intro _ _
    | with_reducible apply sound_ite_snd | with_reducible refine sound_of_snd (by assumption) ?_
    | with_reducible refine sound_of_fst (by assumption) ?_ | with_reducible refine sound_of_trd (by assumption) ?_
    | with_reducible apply sound_foldl_fst | with_reducible apply sound_foldl_snd | split

theorem State.emitToks_sound {s : State} (hs : s.Sound) (link : Nat) (l : List Token) : (State.emitToks s link l).Sound := by
  unfold State.emitToks
  try dsimp only
  repeat' first
    | with_reducible assumption | with_reducible apply State.setWire_sound

theorem State.calRefuse_sound {s : State} (hs : s.Sound) (code : Nat) (ch : Nat) (range : Nat) : (State.calRefuse s code ch range).Sound := by
  unfold State.calRefuse
  try dsimp only
  repeat' first
    | with_reducible assumption | with_reducible apply State.log_sound | with_reducible apply State.setFld_sound

theorem State.setPair_sound {s : State} (hs : s.Sound) (p : Nat) (x : Pair) : (State.setPair s p x).Sound := by
  unfold State.setPair
  try dsimp only
  repeat' first
    | with_reducible assumption | with_reducible apply outSound_next | with_reducible apply sound_ite | with_reducible apply outSound_ite
    | with_reducible apply sound_foldl | with_reducible intro _ _ _ _ | with_reducible intro _ _ _ | with_reducible intro _ _
    | with_reducible apply sound_ite_snd | with_reducible refine sound_of_snd (by assumption) ?_
    | with_reducible refine sound_of_fst (by assumption) ?_ | with_reducible refine sound_of_trd (by assumption) ?_
    | with_reducible apply sound_foldl_fst | with_reducible apply sound_foldl_snd | split | dsimp only | simp only [sound_mk, sound_mk_evl]

theorem State.setConv_sound {s : State} (hs : s.Sound) (k : Nat) (c : Conv) : (State.setConv s k c).Sound := by
  unfold State.setConv
  try dsimp only
  repeat' first
    | with_reducible assumption | with_reducible apply outSound_next | with_reducible apply sound_ite | with_reducible apply outSound_ite
    | with_reducible apply sound_foldl | with_reducible intro _ _ _ _ | with_reducible intro _ _ _ | with_reducible intro _ _
    | with_reducible apply sound_ite_snd | with_reducible refine sound_of_snd (by assumption) ?_
    | with_reducible refine sound_of_fst (by assumption) ?_ | with_reducible refine sound_of_trd (by assumption) ?_
    | with_reducible apply sound_foldl_fst | with_reducible apply sound_foldl_snd | split | dsimp only | simp only [sound_mk, sound_mk_evl]

theorem State.convSend_sound {s : State} (hs : s.Sound) (k : Nat) (t : Token) : (State.convSend s k t).Sound := by
  unfold State.convSend
  try dsimp only
  repeat' first
    | with_reducible assumption | with_reducible apply State.emit_sound | with_reducible apply State.setConv_sound
    | with_reducible apply outSound_next | with_reducible apply sound_ite | with_reducible apply outSound_ite
    | with_reducible apply sound_foldl | with_reducible intro _ _ _ _ | with_reducible intro _ _ _ | with_reducible intro _ _
    | with_reducible apply sound_ite_snd | with_reducible refine sound_of_snd (by assumption) ?_
    | with_reducible refine sound_of_fst (by assumption) ?_ | with_reducible refine sound_of_trd (by assumption) ?_
    | with_reducible apply sound_foldl_fst | with_reducible apply sound_foldl_snd | split | dsimp only | simp only [sound_mk, sound_mk_evl]

theorem State.sendAchk_sound {s : State} (hs : s.Sound) (p : Nat) (value : Word) (st : BitVec 4) (cseq : Nat) : (State.sendAchk s p value st cseq).Sound := by
  unfold State.sendAchk
  try dsimp only
  repeat' first
    | with_reducible assumption | with_reducible apply State.convSend_sound

theorem State.pairSet_sound {s : State} (hs : s.Sound) (p : Nat) (v : Nat) : (State.pairSet s p v).Sound := by
  unfold State.pairSet
  try dsimp only
  repeat' first
    | with_reducible assumption | with_reducible apply State.setPair_sound | with_reducible apply State.setFld_sound
    | with_reducible apply State.sendAchk_sound | with_reducible apply outSound_next | with_reducible apply sound_ite
    | with_reducible apply outSound_ite | with_reducible apply sound_foldl | with_reducible intro _ _ _ _ | with_reducible intro _ _ _
    | with_reducible intro _ _ | with_reducible apply sound_ite_snd | with_reducible refine sound_of_snd (by assumption) ?_
    | with_reducible refine sound_of_fst (by assumption) ?_ | with_reducible refine sound_of_trd (by assumption) ?_
    | with_reducible apply sound_foldl_fst | with_reducible apply sound_foldl_snd | split | dsimp only | simp only [sound_mk, sound_mk_evl]

theorem State.pairRefresh_sound {s : State} (hs : s.Sound) (p : Nat) : (State.pairRefresh s p).Sound := by
  unfold State.pairRefresh
  try dsimp only
  repeat' first
    | with_reducible assumption | with_reducible apply State.pairSet_sound | with_reducible apply State.setFld_sound
    | with_reducible apply outSound_next | with_reducible apply sound_ite

theorem State.calIdle_sound {s : State} (hs : s.Sound) : (State.calIdle s).Sound := by
  unfold State.calIdle
  try dsimp only
  repeat' first
    | with_reducible assumption | with_reducible apply State.setFld_sound | with_reducible apply State.pairRefresh_sound
    | with_reducible apply outSound_next | with_reducible apply sound_ite

theorem State.setTab_sound {s : State} (hs : s.Sound) (m : Nat) (t : CatchTab) : (State.setTab s m t).Sound := by
  unfold State.setTab
  try dsimp only
  repeat' first
    | with_reducible assumption | with_reducible apply outSound_next | with_reducible apply sound_ite | with_reducible apply outSound_ite
    | with_reducible apply sound_foldl | with_reducible intro _ _ _ _ | with_reducible intro _ _ _ | with_reducible intro _ _
    | with_reducible apply sound_ite_snd | with_reducible refine sound_of_snd (by assumption) ?_
    | with_reducible refine sound_of_fst (by assumption) ?_ | with_reducible refine sound_of_trd (by assumption) ?_
    | with_reducible apply sound_foldl_fst | with_reducible apply sound_foldl_snd | split | dsimp only | simp only [sound_mk, sound_mk_evl]

theorem State.testFailed_sound {s : State} (hs : s.Sound) (r : Res) (code : Nat) : (State.testFailed s r code).Sound := by
  unfold State.testFailed
  try dsimp only
  repeat' first
    | with_reducible assumption | with_reducible apply State.logRes_sound | with_reducible apply State.setHealth_sound
    | with_reducible apply outSound_next | with_reducible apply sound_ite | with_reducible apply outSound_ite
    | with_reducible apply sound_foldl | with_reducible intro _ _ _ _ | with_reducible intro _ _ _ | with_reducible intro _ _
    | with_reducible apply sound_ite_snd | with_reducible refine sound_of_snd (by assumption) ?_
    | with_reducible refine sound_of_fst (by assumption) ?_ | with_reducible refine sound_of_trd (by assumption) ?_
    | with_reducible apply sound_foldl_fst | with_reducible apply sound_foldl_snd | split

theorem State.setDin_sound {s : State} (hs : s.Sound) (n : Nat) (d : Din) : (State.setDin s n d).Sound := by
  unfold State.setDin
  try dsimp only
  repeat' first
    | with_reducible assumption | with_reducible apply outSound_next | with_reducible apply sound_ite | with_reducible apply outSound_ite
    | with_reducible apply sound_foldl | with_reducible intro _ _ _ _ | with_reducible intro _ _ _ | with_reducible intro _ _
    | with_reducible apply sound_ite_snd | with_reducible refine sound_of_snd (by assumption) ?_
    | with_reducible refine sound_of_fst (by assumption) ?_ | with_reducible refine sound_of_trd (by assumption) ?_
    | with_reducible apply sound_foldl_fst | with_reducible apply sound_foldl_snd | split | dsimp only | simp only [sound_mk, sound_mk_evl]

theorem State.noteBad_sound {s : State} (hs : s.Sound) (link : Nat) (t : Token) : (State.noteBad s link t).2.Sound := by
  unfold State.noteBad
  try dsimp only
  repeat' first
    | with_reducible assumption | with_reducible apply State.setFwl_sound | with_reducible apply outSound_next
    | with_reducible apply sound_ite | with_reducible apply outSound_ite | with_reducible apply sound_foldl | with_reducible intro _ _ _ _
    | with_reducible intro _ _ _ | with_reducible intro _ _ | with_reducible apply sound_ite_snd
    | with_reducible refine sound_of_snd (by assumption) ?_ | with_reducible refine sound_of_fst (by assumption) ?_
    | with_reducible refine sound_of_trd (by assumption) ?_ | with_reducible apply sound_foldl_fst | with_reducible apply sound_foldl_snd
    | split | dsimp only | simp only [sound_mk, sound_mk_evl]

theorem State.convRetired_sound {s : State} (hs : s.Sound) (k : Nat) : (State.convRetired s k).Sound := by
  unfold State.convRetired
  try dsimp only
  repeat' first
    | with_reducible assumption | with_reducible apply State.pairRefresh_sound | with_reducible apply State.calRefuse_sound
    | with_reducible apply State.calIdle_sound | with_reducible apply outSound_next | with_reducible apply sound_ite

theorem State.convTransient_sound {s : State} (hs : s.Sound) (k : Nat) (cause : Nat) : (State.convTransient s k cause).Sound := by
  unfold State.convTransient
  try dsimp only
  repeat' first
    | with_reducible assumption | with_reducible apply State.transient_sound | with_reducible apply State.convRetired_sound
    | with_reducible apply outSound_next | with_reducible apply sound_ite

theorem State.mismatch_sound {s : State} (hs : s.Sound) (link : Nat) (t : Token) : (State.mismatch s link t).Sound := by
  unfold State.mismatch
  try dsimp only
  repeat' first
    | with_reducible assumption | with_reducible apply State.noteBad_sound | with_reducible apply State.countFld_sound
    | with_reducible apply State.logPerSecond_sound | with_reducible apply State.transient_sound | with_reducible apply State.setFld_sound
    | with_reducible apply State.convTransient_sound | with_reducible apply outSound_next | with_reducible apply sound_ite

theorem State.check_sound {s : State} (hs : s.Sound) (link : Nat) (subst : Word) (t : Token) : (State.check s link subst t).2.Sound := by
  unfold State.check
  try dsimp only
  repeat' first
    | with_reducible assumption | with_reducible apply State.mismatch_sound | with_reducible apply State.log_sound
    | with_reducible apply outSound_next | with_reducible apply sound_ite | with_reducible apply outSound_ite
    | with_reducible apply sound_foldl | with_reducible intro _ _ _ _ | with_reducible intro _ _ _ | with_reducible intro _ _
    | with_reducible apply sound_ite_snd

theorem State.setCourse_sound {s : State} (hs : s.Sound) (n : Nat) (c : Course) : (State.setCourse s n c).Sound := by
  unfold State.setCourse
  try dsimp only
  repeat' first
    | with_reducible assumption | with_reducible apply outSound_next | with_reducible apply sound_ite | with_reducible apply outSound_ite
    | with_reducible apply sound_foldl | with_reducible intro _ _ _ _ | with_reducible intro _ _ _ | with_reducible intro _ _
    | with_reducible apply sound_ite_snd | with_reducible refine sound_of_snd (by assumption) ?_
    | with_reducible refine sound_of_fst (by assumption) ?_ | with_reducible refine sound_of_trd (by assumption) ?_
    | with_reducible apply sound_foldl_fst | with_reducible apply sound_foldl_snd | split | dsimp only | simp only [sound_mk, sound_mk_evl]

theorem State.convFatal_sound {s : State} (hs : s.Sound) (k : Nat) (cause : Nat) : (State.convFatal s k cause).Sound := by
  unfold State.convFatal
  try dsimp only
  repeat' first
    | with_reducible assumption | with_reducible apply State.convRetired_sound | with_reducible apply State.fatal_sound
    | with_reducible apply outSound_next | with_reducible apply sound_ite

theorem State.windowElapsed_sound {s : State} (hs : s.Sound) (r : Res) : (State.windowElapsed s r).Sound := by
  unfold State.windowElapsed
  try dsimp only
  repeat' first
    | with_reducible assumption | with_reducible apply State.logRes_sound | with_reducible apply State.setHealthRec_sound
    | with_reducible apply State.setHealth_sound | with_reducible apply outSound_next | with_reducible apply sound_ite
    | with_reducible apply outSound_ite | with_reducible apply sound_foldl | with_reducible intro _ _ _ _ | with_reducible intro _ _ _
    | with_reducible intro _ _ | with_reducible apply sound_ite_snd | with_reducible refine sound_of_snd (by assumption) ?_
    | with_reducible refine sound_of_fst (by assumption) ?_ | with_reducible refine sound_of_trd (by assumption) ?_
    | with_reducible apply sound_foldl_fst | with_reducible apply sound_foldl_snd | split

theorem State.testPassed_sound {s : State} (hs : s.Sound) (r : Res) : (State.testPassed s r).Sound := by
  unfold State.testPassed
  try dsimp only
  repeat' first
    | with_reducible assumption | with_reducible apply State.logRes_sound | with_reducible apply State.setHealthRec_sound
    | with_reducible apply State.setHealth_sound | with_reducible apply outSound_next | with_reducible apply sound_ite
    | with_reducible apply outSound_ite | with_reducible apply sound_foldl | with_reducible intro _ _ _ _ | with_reducible intro _ _ _
    | with_reducible intro _ _ | with_reducible apply sound_ite_snd | with_reducible refine sound_of_snd (by assumption) ?_
    | with_reducible refine sound_of_fst (by assumption) ?_ | with_reducible refine sound_of_trd (by assumption) ?_
    | with_reducible apply sound_foldl_fst | with_reducible apply sound_foldl_snd | split

end Sys2Proof.Machine
end

