-- ==== Sys2Proof/Laws/SoundPlic.lean ====
section
/-! SUPPORT. The operations and commands of Machine/Plic.lean keep a sound state sound. -/
namespace Sys2Proof.Machine

theorem State.plicWrite_sound {s : State} (hs : s.Sound) (o : Nat) (v : Nat) : (State.plicWrite s o v).Sound := by
  unfold State.plicWrite
  try dsimp only
  repeat' first
    | with_reducible assumption | with_reducible apply State.setClaimed_sound | with_reducible apply State.setNum_sound
    | with_reducible apply outSound_next | with_reducible apply sound_ite

theorem State.plicRead_sound {s : State} (hs : s.Sound) (o : Nat) : (State.plicRead s o).2.Sound := by
  unfold State.plicRead
  try dsimp only
  repeat' first
    | with_reducible assumption | with_reducible apply State.setClaimed_sound | with_reducible apply outSound_next
    | with_reducible apply sound_ite | with_reducible apply outSound_ite | with_reducible apply sound_foldl | with_reducible intro _ _ _ _
    | with_reducible intro _ _ _ | with_reducible intro _ _ | with_reducible apply sound_ite_snd

end Sys2Proof.Machine
end

