-- ==== Sys2Proof/Laws/SoundEvl.lean ====
section
/-! SUPPORT. The operations and commands of Machine/Evl.lean keep a sound state sound. -/
namespace Sys2Proof.Machine

theorem State.dramLog_sound {s : State} (hs : s.Sound) (b : List Nat) : (State.dramLog s b).Sound := by
  unfold State.dramLog
  try dsimp only
  repeat' first
    | with_reducible assumption | with_reducible apply State.setNum_sound | with_reducible apply State.wrList_sound

theorem execEvlDramEnable_sound {s : State} (hs : s.Sound) : OutSound (execEvlDramEnable s) := by
  unfold execEvlDramEnable
  try dsimp only
  repeat' first
    | with_reducible assumption | with_reducible apply State.setFld_sound | with_reducible apply State.dramLog_sound
    | with_reducible apply State.log_sound | with_reducible apply outSound_next | with_reducible apply sound_ite
    | with_reducible apply outSound_ite | with_reducible apply sound_foldl | with_reducible intro _ _ _ _ | with_reducible intro _ _ _

theorem execSwEventDetailWrite_sound {s : State} (hs : s.Sound) (c : Fin 8) (v : Word) : OutSound (execSwEventDetailWrite c v s) := by
  unfold execSwEventDetailWrite
  try dsimp only
  repeat' first
    | with_reducible assumption | simp only [State.setEvl, sound_mk_evl] | with_reducible apply outSound_next

theorem execSwEventRaise_sound {s : State} (hs : s.Sound) (c : Fin 8) (subcode : BitVec 7) : OutSound (execSwEventRaise c subcode s) := by
  unfold execSwEventRaise
  try dsimp only
  repeat' first
    | with_reducible assumption | with_reducible apply State.log_sound | with_reducible apply outSound_next

theorem execEvlDrain_sound {s : State} (hs : s.Sound) : OutSound (execEvlDrain s) := by
  have drop {t : State} {e : Event} {l : List Event} {a b c : Nat} {d : List (Nat × Word)} (ht : t.Sound) (h : s.evl.queue = e :: l) :
      State.Sound (t.setEvl ⟨l, a, b, c, d⟩) := by
    refine ⟨ht.1, ht.2.1, ?_⟩
    have := hs.2.2
    rw [h, List.length_cons] at this
    exact Nat.le_of_succ_le this
  unfold execEvlDrain
  split
  · exact outSound_next hs
  · dsimp only
    refine outSound_next (State.logIf_sound (drop ?_ ‹_›) _ _ _ _)
    repeat' first
      | with_reducible assumption
      | with_reducible apply State.dramLog_sound
      | with_reducible apply State.setFld_sound
      | with_reducible apply State.wrList_sound
      | split

end Sys2Proof.Machine
end

