-- ==== Sys2Proof/Laws/SoundDmaOps.lean ====
section
/-! SUPPORT. The operations and commands of Machine/DmaOps.lean keep a sound state sound. -/
namespace Sys2Proof.Machine

theorem State.cdmRefuse_sound {s : State} (hs : s.Sound) (n : Nat) (ch : Nat) (code : Nat) : (State.cdmRefuse s n ch code).Sound := by
  unfold State.cdmRefuse
  try dsimp only
  repeat' first
    | with_reducible assumption | with_reducible apply State.setFld_sound

theorem State.setDma_sound {s : State} (hs : s.Sound) (n : Nat) (ch : Nat) (d : DmaChan) : (State.setDma s n ch d).Sound := by
  unfold State.setDma
  try dsimp only
  repeat' first
    | with_reducible assumption | with_reducible apply outSound_next | with_reducible apply sound_ite | with_reducible apply outSound_ite
    | with_reducible apply sound_foldl | with_reducible intro _ _ _ _ | with_reducible intro _ _ _ | with_reducible intro _ _
    | with_reducible apply sound_ite_snd | with_reducible refine sound_of_snd (by assumption) ?_
    | with_reducible refine sound_of_fst (by assumption) ?_ | with_reducible refine sound_of_trd (by assumption) ?_
    | with_reducible apply sound_foldl_fst | with_reducible apply sound_foldl_snd | split | dsimp only | simp only [sound_mk, sound_mk_evl]

theorem State.setCdmState_sound {s : State} (hs : s.Sound) (n : Nat) (ch : Nat) (v : Nat) : (State.setCdmState s n ch v).Sound := by
  unfold State.setCdmState
  try dsimp only
  repeat' first
    | with_reducible assumption | with_reducible apply State.setRbit_sound | with_reducible apply State.setFld_sound

theorem State.cdmStart_sound {s : State} (hs : s.Sound) (n : Nat) (ch : Nat) (task : Option (Nat × Nat)) : (State.cdmStart s n ch task).Sound := by
  unfold State.cdmStart
  try dsimp only
  repeat' first
    | with_reducible assumption | with_reducible apply State.cdmRefuse_sound | with_reducible apply State.setDma_sound
    | with_reducible apply State.setNum_sound | with_reducible apply State.setCdmState_sound | with_reducible apply outSound_next
    | with_reducible apply sound_ite

theorem State.cdmHalt_sound {s : State} (hs : s.Sound) (n : Nat) (ch : Nat) (cause : Nat) : (State.cdmHalt s n ch cause).Sound := by
  unfold State.cdmHalt
  try dsimp only
  repeat' first
    | with_reducible assumption | with_reducible apply State.setFld_sound | with_reducible apply State.setCdmState_sound
    | with_reducible apply State.setRbit_sound | with_reducible apply State.log_sound | with_reducible apply outSound_next
    | with_reducible apply sound_ite

end Sys2Proof.Machine
end

