-- ==== Sys2Proof/Laws/SoundCox.lean ====
section
/-! SUPPORT. The operations and commands of Machine/Cox.lean keep a sound state sound. -/
namespace Sys2Proof.Machine

theorem State.setCtx_sound {s : State} (hs : s.Sound) (n : Nat) (x : Nat) (c : CoxCtx) : (State.setCtx s n x c).Sound := by
  unfold State.setCtx
  try dsimp only
  repeat' first
    | with_reducible assumption | with_reducible apply State.setCox_sound

theorem State.stampHeld_sound {s : State} (hs : s.Sound) (n : Nat) (x : Nat) (stroke : Nat) : (State.stampHeld s n x stroke).Sound := by
  unfold State.stampHeld
  try dsimp only
  repeat' first
    | with_reducible assumption | with_reducible apply State.setCtx_sound

theorem State.coxCatch_sound {s : State} (hs : s.Sound) (n : Nat) (q : Nat) : (State.coxCatch s n q).Sound := by
  unfold State.coxCatch
  try dsimp only
  repeat' first
    | with_reducible assumption | with_reducible apply State.setCox_sound | with_reducible apply State.stampHeld_sound
    | with_reducible apply outSound_next | with_reducible apply sound_ite | with_reducible apply outSound_ite
    | with_reducible apply sound_foldl | with_reducible intro _ _ _ _ | with_reducible intro _ _ _

theorem State.syncRetrying_sound {s : State} (hs : s.Sound) (n : Nat) : (State.syncRetrying s n).Sound := by
  unfold State.syncRetrying
  try dsimp only
  repeat' first
    | with_reducible assumption | with_reducible apply State.setFld_sound

theorem State.syncDepth_sound {s : State} (hs : s.Sound) (n : Nat) (p : Nat) : (State.syncDepth s n p).Sound := by
  unfold State.syncDepth
  try dsimp only
  repeat' first
    | with_reducible assumption | with_reducible apply State.setFld_sound | with_reducible apply outSound_next
    | with_reducible apply sound_ite

theorem State.setList_sound {s : State} (hs : s.Sound) (n : Nat) (p : Nat) (l : List (Nat × Nat)) : (State.setList s n p l).Sound := by
  unfold State.setList
  try dsimp only
  repeat' first
    | with_reducible assumption | with_reducible apply State.syncDepth_sound | with_reducible apply State.setCox_sound

theorem State.setEntry_sound {s : State} (hs : s.Sound) (n : Nat) (x : Nat) (w : Nat) (e : MEntry) : (State.setEntry s n x w e).Sound := by
  unfold State.setEntry
  try dsimp only
  repeat' first
    | with_reducible assumption | with_reducible apply State.setCtx_sound

theorem execCoxClrDepthMax_sound {s : State} (hs : s.Sound) (n : Fin 9) : OutSound (execCoxClrDepthMax n s) := by
  unfold execCoxClrDepthMax
  try dsimp only
  repeat' first
    | with_reducible assumption | with_reducible apply State.setFld_sound | with_reducible apply outSound_next
    | with_reducible apply sound_ite | with_reducible apply outSound_ite | with_reducible apply sound_foldl | with_reducible intro _ _ _ _
    | with_reducible intro _ _ _

theorem execCoxClrCtxCounts_sound {s : State} (hs : s.Sound) (n : Fin 9) : OutSound (execCoxClrCtxCounts n s) := by
  unfold execCoxClrCtxCounts
  try dsimp only
  repeat' first
    | with_reducible assumption | with_reducible apply State.setFld_sound | with_reducible apply outSound_next
    | with_reducible apply sound_ite | with_reducible apply outSound_ite | with_reducible apply sound_foldl | with_reducible intro _ _ _ _
    | with_reducible intro _ _ _

theorem execCoxClrTotals_sound {s : State} (hs : s.Sound) (n : Fin 9) : OutSound (execCoxClrTotals n s) := by
  unfold execCoxClrTotals
  try dsimp only
  repeat' first
    | with_reducible assumption | with_reducible apply State.setNum_sound | with_reducible apply outSound_next
    | with_reducible apply sound_ite | with_reducible apply outSound_ite

theorem State.dropItem_sound {s : State} (hs : s.Sound) (n : Nat) : (State.dropItem s n).Sound := by
  unfold State.dropItem
  try dsimp only
  repeat' first
    | with_reducible assumption | with_reducible apply State.count_sound | with_reducible apply outSound_next
    | with_reducible apply sound_ite | with_reducible apply outSound_ite | with_reducible apply sound_foldl | with_reducible intro _ _ _ _
    | with_reducible intro _ _ _ | with_reducible intro _ _ | with_reducible apply sound_ite_snd
    | with_reducible refine sound_of_snd (by assumption) ?_ | with_reducible refine sound_of_fst (by assumption) ?_
    | with_reducible refine sound_of_trd (by assumption) ?_ | with_reducible apply sound_foldl_fst | with_reducible apply sound_foldl_snd
    | split

theorem State.setDp_sound {s : State} (hs : s.Sound) (n : Nat) (c : Nat) (d : DpState) : (State.setDp s n c d).Sound := by
  unfold State.setDp
  try dsimp only
  repeat' first
    | with_reducible assumption | with_reducible apply State.setFld_sound | with_reducible apply State.setCox_sound

theorem State.release_sound {s : State} (hs : s.Sound) (n : Nat) (x : Nat) (w : Nat) : (State.release s n x w).Sound := by
  unfold State.release
  try dsimp only
  repeat' first
    | with_reducible assumption | with_reducible apply State.syncRetrying_sound | with_reducible apply State.emitToks_sound
    | with_reducible apply State.setEntry_sound

theorem State.dpDone_sound {s : State} (hs : s.Sound) (n : Nat) (c : Nat) (nres : Nat) : (State.dpDone s n c nres).Sound := by
  unfold State.dpDone
  try dsimp only
  repeat' first
    | with_reducible assumption | with_reducible apply State.setDp_sound | with_reducible apply State.release_sound
    | with_reducible apply State.setEntry_sound | with_reducible apply State.log_sound | with_reducible apply State.setFld_sound
    | with_reducible apply State.count_sound | with_reducible apply State.countFld_sound | with_reducible apply outSound_next
    | with_reducible apply sound_ite | with_reducible apply outSound_ite | with_reducible apply sound_foldl | with_reducible intro _ _ _ _
    | with_reducible intro _ _ _ | with_reducible intro _ _ | with_reducible apply sound_ite_snd
    | with_reducible refine sound_of_snd (by assumption) ?_ | with_reducible refine sound_of_fst (by assumption) ?_
    | with_reducible refine sound_of_trd (by assumption) ?_ | with_reducible apply sound_foldl_fst | with_reducible apply sound_foldl_snd
    | split

theorem execDpDone_sound {s : State} (hs : s.Sound) (n : Fin 9) (c : Fin 8) (nres : BitVec 3) : OutSound (execDpDone n c nres s) := by
  unfold execDpDone
  try dsimp only
  repeat' first
    | with_reducible assumption | with_reducible apply State.dropItem_sound | with_reducible apply State.dpDone_sound
    | with_reducible apply outSound_next | with_reducible apply sound_ite | with_reducible apply outSound_ite

theorem State.writeView_sound {s : State} (hs : s.Sound) (n : Nat) (c : Nat) (d : Desc) : (State.writeView s n c d).Sound := by
  unfold State.writeView
  try dsimp only
  repeat' first
    | with_reducible assumption | with_reducible apply State.wr_sound | with_reducible apply outSound_next | with_reducible apply sound_ite
    | with_reducible apply outSound_ite | with_reducible apply sound_foldl | with_reducible intro _ _ _ _ | with_reducible intro _ _ _

theorem execDpPop_sound {s : State} (hs : s.Sound) (n : Fin 9) (c : Fin 8) : OutSound (execDpPop n c s) := by
  unfold execDpPop
  try dsimp only
  repeat' first
    | with_reducible assumption | with_reducible apply State.writeView_sound | with_reducible apply State.setDp_sound
    | with_reducible apply State.setBus_sound | with_reducible apply outSound_next | with_reducible apply sound_ite
    | with_reducible apply outSound_ite | with_reducible apply sound_foldl | with_reducible intro _ _ _ _ | with_reducible intro _ _ _
    | with_reducible intro _ _ | with_reducible apply sound_ite_snd | with_reducible refine sound_of_snd (by assumption) ?_
    | with_reducible refine sound_of_fst (by assumption) ?_ | with_reducible refine sound_of_trd (by assumption) ?_
    | with_reducible apply sound_foldl_fst | with_reducible apply sound_foldl_snd | split

theorem State.countWait_sound {s : State} (hs : s.Sound) (n : Nat) (x : Nat) (w : Nat) : (State.countWait s n x w).Sound := by
  unfold State.countWait
  try dsimp only
  repeat' first
    | with_reducible assumption | with_reducible apply State.setCtx_sound | with_reducible apply State.setCox_sound

theorem State.issue_sound {s : State} (hs : s.Sound) (n : Nat) (t : Nat) (x : Nat) (w : Nat) : (State.issue s n t x w).Sound := by
  unfold State.issue
  try dsimp only
  repeat' first
    | with_reducible assumption | with_reducible apply State.setList_sound | with_reducible apply State.count_sound
    | with_reducible apply State.countWait_sound | with_reducible apply State.setEntry_sound | with_reducible apply State.setCox_sound
    | with_reducible apply State.setDp_sound | with_reducible apply State.cdmStart_sound | with_reducible apply outSound_next
    | with_reducible apply sound_ite | with_reducible apply outSound_ite | with_reducible apply sound_foldl | with_reducible intro _ _ _ _
    | with_reducible intro _ _ _ | with_reducible intro _ _ | with_reducible apply sound_ite_snd
    | with_reducible refine sound_of_snd (by assumption) ?_ | with_reducible refine sound_of_fst (by assumption) ?_
    | with_reducible refine sound_of_trd (by assumption) ?_ | with_reducible apply sound_foldl_fst | with_reducible apply sound_foldl_snd
    | split

theorem State.dispatch_sound {s : State} (hs : s.Sound) (n : Nat) (can : Nat) : (State.dispatch s n can).Sound := by
  unfold State.dispatch
  try dsimp only
  repeat' first
    | with_reducible assumption | with_reducible apply State.issue_sound | with_reducible apply State.syncRetrying_sound
    | with_reducible apply outSound_next | with_reducible apply sound_ite | with_reducible apply outSound_ite
    | with_reducible apply sound_foldl | with_reducible intro _ _ _ _ | with_reducible intro _ _ _ | with_reducible intro _ _
    | with_reducible apply sound_ite_snd | with_reducible refine sound_of_snd (by assumption) ?_
    | with_reducible refine sound_of_fst (by assumption) ?_ | with_reducible refine sound_of_trd (by assumption) ?_
    | with_reducible apply sound_foldl_fst | with_reducible apply sound_foldl_snd | split

theorem execCoxDispatch_sound {s : State} (hs : s.Sound) (n : Fin 9) (can : BitVec 3) : OutSound (execCoxDispatch n can s) := by
  unfold execCoxDispatch
  try dsimp only
  repeat' first
    | with_reducible assumption | with_reducible apply State.dispatch_sound | with_reducible apply outSound_next
    | with_reducible apply sound_ite | with_reducible apply outSound_ite

theorem State.countDrop_sound {s : State} (hs : s.Sound) (n : Nat) (x : Nat) (k : Nat) : (State.countDrop s n x k).Sound := by
  unfold State.countDrop
  try dsimp only
  repeat' first
    | with_reducible assumption | with_reducible apply State.setFld_sound | with_reducible apply State.count_sound
    | with_reducible apply State.countFld_sound | with_reducible apply State.log_sound | with_reducible apply State.setCtx_sound
    | with_reducible apply outSound_next | with_reducible apply sound_ite

theorem State.lateToken_sound {s : State} (hs : s.Sound) (n : Nat) (x : Nat) (k : Nat) : (State.lateToken s n x k).Sound := by
  unfold State.lateToken
  try dsimp only
  repeat' first
    | with_reducible assumption | with_reducible apply State.log_sound | with_reducible apply State.setFld_sound
    | with_reducible apply State.count_sound

theorem State.fillSlot_sound {s : State} (hs : s.Sound) (n : Nat) (x : Nat) (w : Nat) (k : Nat) (o : Opnd) : (State.fillSlot s n x w k o).Sound := by
  unfold State.fillSlot
  try dsimp only
  repeat' first
    | with_reducible assumption | with_reducible apply State.setEntry_sound

theorem State.keepOps_sound {s : State} (hs : s.Sound) (n : Nat) (x : Nat) (w : Nat) (filled : List Nat) : (State.keepOps s n x w filled).Sound := by
  unfold State.keepOps
  try dsimp only
  repeat' first
    | with_reducible assumption | with_reducible apply State.setCtx_sound | with_reducible apply outSound_next
    | with_reducible apply sound_ite | with_reducible apply outSound_ite | with_reducible apply sound_foldl | with_reducible intro _ _ _ _
    | with_reducible intro _ _ _ | with_reducible intro _ _ | with_reducible apply sound_ite_snd
    | with_reducible refine sound_of_snd (by assumption) ?_ | with_reducible refine sound_of_fst (by assumption) ?_
    | with_reducible refine sound_of_trd (by assumption) ?_ | with_reducible apply sound_foldl_fst | with_reducible apply sound_foldl_snd
    | split

theorem State.markStale_sound {s : State} (hs : s.Sound) (n : Nat) (x : Nat) (k : Nat) (o : Opnd) : (State.markStale s n x k o).2.Sound := by
  unfold State.markStale
  try dsimp only
  repeat' first
    | with_reducible assumption | with_reducible apply State.check_sound | with_reducible apply outSound_next
    | with_reducible apply sound_ite | with_reducible apply outSound_ite | with_reducible apply sound_foldl | with_reducible intro _ _ _ _
    | with_reducible intro _ _ _ | with_reducible intro _ _ | with_reducible apply sound_ite_snd

theorem State.holdOp_sound {s : State} (hs : s.Sound) (n : Nat) (x : Nat) (k : Nat) (cseq : Nat) : (State.holdOp s n x k cseq).2.Sound := by
  unfold State.holdOp
  try dsimp only
  repeat' first
    | with_reducible assumption | with_reducible apply State.markStale_sound | with_reducible apply outSound_next
    | with_reducible apply sound_ite | with_reducible apply outSound_ite | with_reducible apply sound_foldl | with_reducible intro _ _ _ _
    | with_reducible intro _ _ _ | with_reducible intro _ _ | with_reducible apply sound_ite_snd
    | with_reducible refine sound_of_snd (by assumption) ?_ | with_reducible refine sound_of_fst (by assumption) ?_
    | with_reducible refine sound_of_trd (by assumption) ?_ | with_reducible apply sound_foldl_fst | with_reducible apply sound_foldl_snd
    | split

theorem State.makeReady_sound {s : State} (hs : s.Sound) (n : Nat) (x : Nat) (w : Nat) (filled : List Nat) : (State.makeReady s n x w filled).Sound := by
  unfold State.makeReady
  try dsimp only
  repeat' first
    | with_reducible assumption | with_reducible apply State.keepOps_sound | with_reducible apply State.holdOp_sound
    | with_reducible apply State.fillSlot_sound | with_reducible apply State.setEntry_sound | with_reducible apply State.setList_sound
    | with_reducible apply outSound_next | with_reducible apply sound_ite | with_reducible apply outSound_ite
    | with_reducible apply sound_foldl | with_reducible intro _ _ _ _ | with_reducible intro _ _ _

theorem State.readyIfComplete_sound {s : State} (hs : s.Sound) (n : Nat) (x : Nat) (w : Nat) : (State.readyIfComplete s n x w).Sound := by
  unfold State.readyIfComplete
  try dsimp only
  repeat' first
    | with_reducible assumption | with_reducible apply State.makeReady_sound | with_reducible apply outSound_next
    | with_reducible apply sound_ite

theorem State.countStale_sound {s : State} (hs : s.Sound) (n : Nat) (x : Nat) (mask : Nat) : (State.countStale s n x mask).Sound := by
  unfold State.countStale
  try dsimp only
  repeat' first
    | with_reducible assumption | with_reducible apply State.count_sound | with_reducible apply State.countFld_sound
    | with_reducible apply State.log_sound | with_reducible apply State.setCtx_sound | with_reducible apply outSound_next
    | with_reducible apply sound_ite

theorem State.resolve_sound {s : State} (hs : s.Sound) (n : Nat) (x : Nat) (w : Nat) : (State.resolve s n x w).Sound := by
  unfold State.resolve
  try dsimp only
  repeat' first
    | with_reducible assumption | with_reducible apply State.countStale_sound | with_reducible apply State.setEntry_sound
    | with_reducible apply State.fillSlot_sound | with_reducible apply State.markStale_sound | with_reducible apply State.makeReady_sound
    | with_reducible apply outSound_next | with_reducible apply sound_ite | with_reducible apply outSound_ite
    | with_reducible apply sound_foldl | with_reducible intro _ _ _ _ | with_reducible intro _ _ _ | with_reducible intro _ _
    | with_reducible apply sound_ite_snd | with_reducible refine sound_of_snd (by assumption) ?_
    | with_reducible refine sound_of_fst (by assumption) ?_ | with_reducible refine sound_of_trd (by assumption) ?_
    | with_reducible apply sound_foldl_fst | with_reducible apply sound_foldl_snd | split

theorem State.place_sound {s : State} (hs : s.Sound) (n : Nat) (x : Nat) (k : Nat) (q : Nat) (o : Opnd) (x0 : Nat) : (State.place s n x k q o x0).Sound := by
  induction x0 generalizing s with
  | zero =>
    unfold State.place
    try dsimp only
    repeat' first
      | with_reducible apply ih | with_reducible assumption | with_reducible apply State.countDrop_sound
      | with_reducible apply State.lateToken_sound | with_reducible apply State.fillSlot_sound
      | with_reducible apply State.readyIfComplete_sound | with_reducible apply State.setEntry_sound
      | with_reducible apply State.resolve_sound | with_reducible apply outSound_next | with_reducible apply sound_ite
      | with_reducible apply outSound_ite | with_reducible apply sound_foldl | with_reducible intro _ _ _ _ | with_reducible intro _ _ _
      | with_reducible intro _ _ | with_reducible apply sound_ite_snd | with_reducible refine sound_of_snd (by assumption) ?_
      | with_reducible refine sound_of_fst (by assumption) ?_ | with_reducible refine sound_of_trd (by assumption) ?_
      | with_reducible apply sound_foldl_fst | with_reducible apply sound_foldl_snd | split | dsimp only
      | simp only [sound_mk, sound_mk_evl]
  | succ x0 ih =>
    unfold State.place
    try dsimp only
    repeat' first
      | with_reducible apply ih | with_reducible assumption | with_reducible apply State.countDrop_sound
      | with_reducible apply State.lateToken_sound | with_reducible apply State.fillSlot_sound
      | with_reducible apply State.readyIfComplete_sound | with_reducible apply State.setEntry_sound
      | with_reducible apply State.resolve_sound | with_reducible apply outSound_next | with_reducible apply sound_ite
      | with_reducible apply outSound_ite | with_reducible apply sound_foldl | with_reducible intro _ _ _ _ | with_reducible intro _ _ _
      | with_reducible intro _ _ | with_reducible apply sound_ite_snd | with_reducible refine sound_of_snd (by assumption) ?_
      | with_reducible refine sound_of_fst (by assumption) ?_ | with_reducible refine sound_of_trd (by assumption) ?_
      | with_reducible apply sound_foldl_fst | with_reducible apply sound_foldl_snd | split | dsimp only
      | simp only [sound_mk, sound_mk_evl]

theorem State.catchSlots_sound {s : State} (hs : s.Sound) (n : Nat) (x : Nat) (q : Nat) : (State.catchSlots s n x q).Sound := by
  unfold State.catchSlots
  try dsimp only
  repeat' first
    | with_reducible assumption | with_reducible apply State.place_sound | with_reducible apply outSound_next
    | with_reducible apply sound_ite | with_reducible apply outSound_ite | with_reducible apply sound_foldl | with_reducible intro _ _ _ _
    | with_reducible intro _ _ _

theorem State.deadlines_sound {s : State} (hs : s.Sound) (n : Nat) (x : Nat) (q' : Nat) : (State.deadlines s n x q').Sound := by
  unfold State.deadlines
  try dsimp only
  repeat' first
    | with_reducible assumption | with_reducible apply State.resolve_sound | with_reducible apply outSound_next
    | with_reducible apply sound_ite | with_reducible apply outSound_ite | with_reducible apply sound_foldl | with_reducible intro _ _ _ _
    | with_reducible intro _ _ _

theorem State.coxDue_sound {s : State} (hs : s.Sound) (n : Nat) (q : Nat) : (State.coxDue s n q).Sound := by
  unfold State.coxDue
  try dsimp only
  repeat' first
    | with_reducible assumption | with_reducible apply State.catchSlots_sound | with_reducible apply State.deadlines_sound
    | with_reducible apply outSound_next | with_reducible apply sound_ite | with_reducible apply outSound_ite
    | with_reducible apply sound_foldl | with_reducible intro _ _ _ _ | with_reducible intro _ _ _ | with_reducible intro _ _
    | with_reducible apply sound_ite_snd | with_reducible refine sound_of_snd (by assumption) ?_
    | with_reducible refine sound_of_fst (by assumption) ?_ | with_reducible refine sound_of_trd (by assumption) ?_
    | with_reducible apply sound_foldl_fst | with_reducible apply sound_foldl_snd | split | dsimp only | simp only [sound_mk, sound_mk_evl]

theorem execCoxRelease_sound {s : State} (hs : s.Sound) (n : Fin 9) (x : Fin 512) (acq : List (Word × BitVec 4)) : OutSound (execCoxRelease n x acq s) := by
  unfold execCoxRelease
  try dsimp only
  repeat' first
    | with_reducible assumption | with_reducible apply State.release_sound | with_reducible apply State.setEntry_sound
    | with_reducible apply outSound_next | with_reducible apply sound_ite | with_reducible apply outSound_ite
    | with_reducible apply sound_foldl | with_reducible intro _ _ _ _ | with_reducible intro _ _ _ | with_reducible intro _ _
    | with_reducible apply sound_ite_snd | with_reducible refine sound_of_snd (by assumption) ?_
    | with_reducible refine sound_of_fst (by assumption) ?_ | with_reducible refine sound_of_trd (by assumption) ?_
    | with_reducible apply sound_foldl_fst | with_reducible apply sound_foldl_snd | split

theorem State.windowCtx_sound {s : State} (hs : s.Sound) (n : Nat) (x : Nat) : (State.windowCtx s n x).Sound := by
  unfold State.windowCtx
  try dsimp only
  repeat' first
    | with_reducible assumption | with_reducible apply State.setNum_sound | with_reducible apply State.setCtx_sound
    | with_reducible apply State.setFld_sound

theorem State.windowPrio_sound {s : State} (hs : s.Sound) (n : Nat) (p : Nat) : (State.windowPrio s n p).Sound := by
  unfold State.windowPrio
  try dsimp only
  repeat' first
    | with_reducible assumption | with_reducible apply State.setNum_sound | with_reducible apply State.log_sound
    | with_reducible apply State.setFld_sound | with_reducible apply State.count_sound | with_reducible apply outSound_next
    | with_reducible apply sound_ite

theorem State.windowEnd_sound {s : State} (hs : s.Sound) (n : Nat) : (State.windowEnd s n).Sound := by
  unfold State.windowEnd
  try dsimp only
  repeat' first
    | with_reducible assumption | with_reducible apply State.windowCtx_sound | with_reducible apply State.windowPrio_sound
    | with_reducible apply State.setFld_sound | with_reducible apply State.setNum_sound | with_reducible apply State.setCox_sound
    | with_reducible apply outSound_next | with_reducible apply sound_ite | with_reducible apply outSound_ite
    | with_reducible apply sound_foldl | with_reducible intro _ _ _ _ | with_reducible intro _ _ _

theorem State.coxCycle_sound {s : State} (hs : s.Sound) (n : Nat) : (State.coxCycle s n).Sound := by
  unfold State.coxCycle
  try dsimp only
  repeat' first
    | with_reducible assumption | with_reducible apply State.setCox_sound | with_reducible apply State.coxDue_sound
    | with_reducible apply State.windowEnd_sound | with_reducible apply outSound_next | with_reducible apply sound_ite
    | with_reducible apply outSound_ite | with_reducible apply sound_foldl | with_reducible intro _ _ _ _ | with_reducible intro _ _ _
    | with_reducible intro _ _ | with_reducible apply sound_ite_snd | with_reducible refine sound_of_snd (by assumption) ?_
    | with_reducible refine sound_of_fst (by assumption) ?_ | with_reducible refine sound_of_trd (by assumption) ?_
    | with_reducible apply sound_foldl_fst | with_reducible apply sound_foldl_snd | split | dsimp only | simp only [sound_mk, sound_mk_evl]

theorem State.coxCycles_sound {s : State} (hs : s.Sound) : (State.coxCycles s).Sound := by
  unfold State.coxCycles
  try dsimp only
  repeat' first
    | with_reducible assumption | with_reducible apply State.coxCycle_sound | with_reducible apply outSound_next
    | with_reducible apply sound_ite | with_reducible apply outSound_ite | with_reducible apply sound_foldl | with_reducible intro _ _ _ _
    | with_reducible intro _ _ _ | with_reducible intro _ _ | with_reducible apply sound_ite_snd
    | with_reducible refine sound_of_snd (by assumption) ?_ | with_reducible refine sound_of_fst (by assumption) ?_
    | with_reducible refine sound_of_trd (by assumption) ?_ | with_reducible apply sound_foldl_fst | with_reducible apply sound_foldl_snd
    | split | dsimp only | simp only [sound_mk, sound_mk_evl]

theorem State.coxRetry_sound {s : State} (hs : s.Sound) (n : Nat) (l : List (Nat × Nat)) : (State.coxRetry s n l).Sound := by
  unfold State.coxRetry
  try dsimp only
  repeat' first
    | with_reducible assumption | with_reducible apply State.setEntry_sound | with_reducible apply State.count_sound
    | with_reducible apply State.setList_sound | with_reducible apply State.syncRetrying_sound | with_reducible apply outSound_next
    | with_reducible apply sound_ite | with_reducible apply outSound_ite | with_reducible apply sound_foldl | with_reducible intro _ _ _ _
    | with_reducible intro _ _ _

theorem State.dropToken_sound {s : State} (hs : s.Sound) (m : Nat) (t : Token) : (State.dropToken s m t).Sound := by
  unfold State.dropToken
  try dsimp only
  repeat' first
    | with_reducible assumption | with_reducible apply State.count_sound | with_reducible apply State.setMig_sound
    | with_reducible apply outSound_next | with_reducible apply sound_ite | with_reducible apply outSound_ite
    | with_reducible apply sound_foldl | with_reducible intro _ _ _ _ | with_reducible intro _ _ _ | with_reducible intro _ _
    | with_reducible apply sound_ite_snd | with_reducible refine sound_of_snd (by assumption) ?_
    | with_reducible refine sound_of_fst (by assumption) ?_ | with_reducible refine sound_of_trd (by assumption) ?_
    | with_reducible apply sound_foldl_fst | with_reducible apply sound_foldl_snd | split

theorem State.coxToken_sound {s : State} (hs : s.Sound) (n : Nat) (x : Nat) (k : Nat) (link : Nat) (t : Token) : (State.coxToken s n x k link t).Sound := by
  unfold State.coxToken
  try dsimp only
  repeat' first
    | with_reducible assumption | with_reducible apply State.setCtx_sound | with_reducible apply State.place_sound
    | with_reducible apply outSound_next | with_reducible apply sound_ite

theorem execCoxTokenArrival_sound {s : State} (hs : s.Sound) (m : Fin 8) (x : Fin 512) (k : Fin 4) (link : Nat) (t : Token) : OutSound (execCoxTokenArrival m x k link t s) := by
  unfold execCoxTokenArrival
  try dsimp only
  repeat' first
    | with_reducible assumption | with_reducible apply State.dropToken_sound | with_reducible apply State.coxToken_sound
    | with_reducible apply outSound_next | with_reducible apply sound_ite | with_reducible apply outSound_ite
    | with_reducible apply sound_foldl | with_reducible intro _ _ _ _ | with_reducible intro _ _ _ | with_reducible intro _ _
    | with_reducible apply sound_ite_snd | with_reducible refine sound_of_snd (by assumption) ?_
    | with_reducible refine sound_of_fst (by assumption) ?_ | with_reducible refine sound_of_trd (by assumption) ?_
    | with_reducible apply sound_foldl_fst | with_reducible apply sound_foldl_snd | split

theorem execCoxWindowEnd_sound {s : State} (hs : s.Sound) (n : Fin 9) : OutSound (execCoxWindowEnd n s) := by
  unfold execCoxWindowEnd
  try dsimp only
  repeat' first
    | with_reducible assumption | with_reducible apply State.windowEnd_sound | with_reducible apply outSound_next
    | with_reducible apply sound_ite | with_reducible apply outSound_ite

end Sys2Proof.Machine
end

