-- ==== Sys2Proof/Laws/SoundOperands.lean ====
section
/-! SUPPORT. The operations and commands of Machine/Operands.lean keep a sound state sound. -/
namespace Sys2Proof.Machine

theorem State.checkOps_sound {s : State} (hs : s.Sound) (x0 : List (Option Opnd × Word)) : (State.checkOps s x0).2.Sound := by
  induction x0 generalizing s with
  | nil =>
    unfold State.checkOps
    try dsimp only
    repeat' first
      | with_reducible apply ih | with_reducible assumption | with_reducible apply State.check_sound | with_reducible apply outSound_next
      | with_reducible apply sound_ite | with_reducible apply outSound_ite | with_reducible apply sound_foldl
      | with_reducible intro _ _ _ _ | with_reducible intro _ _ _ | with_reducible intro _ _ | with_reducible apply sound_ite_snd
      | with_reducible refine sound_of_snd (by assumption) ?_ | with_reducible refine sound_of_fst (by assumption) ?_
      | with_reducible refine sound_of_trd (by assumption) ?_ | with_reducible apply sound_foldl_fst | with_reducible apply sound_foldl_snd
      | split | dsimp only | simp only [sound_mk, sound_mk_evl]
  | cons hd tl ih =>
    unfold State.checkOps
    try dsimp only
    repeat' first
      | with_reducible apply ih | with_reducible assumption | with_reducible apply State.check_sound | with_reducible apply outSound_next
      | with_reducible apply sound_ite | with_reducible apply outSound_ite | with_reducible apply sound_foldl
      | with_reducible intro _ _ _ _ | with_reducible intro _ _ _ | with_reducible intro _ _ | with_reducible apply sound_ite_snd
      | with_reducible refine sound_of_snd (by assumption) ?_ | with_reducible refine sound_of_fst (by assumption) ?_
      | with_reducible refine sound_of_trd (by assumption) ?_ | with_reducible apply sound_foldl_fst | with_reducible apply sound_foldl_snd
      | split | dsimp only | simp only [sound_mk, sound_mk_evl]

end Sys2Proof.Machine
end

