-- ==== Sys2Proof/Laws/SoundLpe.lean ====
section
/-! SUPPORT. The operations and commands of Machine/Lpe.lean keep a sound state sound. -/
namespace Sys2Proof.Machine

theorem State.setLw_sound {s : State} (hs : s.Sound) (n : Nat) (l : Nat) (o : Nat) (v : Word) : (State.setLw s n l o v).Sound := by
  unfold State.setLw
  try dsimp only
  repeat' first
    | with_reducible assumption | with_reducible apply State.wrWord_sound

theorem State.satfb_sound {s : State} (hs : s.Sound) (m : Nat) (l : Nat) (hi : Bool) (lo : Bool) : (State.satfb s m l hi lo).Sound := by
  unfold State.satfb
  try dsimp only
  repeat' first
    | with_reducible assumption | with_reducible apply State.setLw_sound | with_reducible apply outSound_next
    | with_reducible apply sound_ite | with_reducible apply outSound_ite | with_reducible apply sound_foldl | with_reducible intro _ _ _ _
    | with_reducible intro _ _ _ | with_reducible intro _ _ | with_reducible apply sound_ite_snd
    | with_reducible refine sound_of_snd (by assumption) ?_ | with_reducible refine sound_of_fst (by assumption) ?_
    | with_reducible refine sound_of_trd (by assumption) ?_ | with_reducible apply sound_foldl_fst | with_reducible apply sound_foldl_snd
    | split

theorem execSatfbChange_sound {s : State} (hs : s.Sound) (m : Fin 8) (l : Fin 128) (hi : Bool) (lo : Bool) : OutSound (execSatfbChange m l hi lo s) := by
  unfold execSatfbChange
  try dsimp only
  repeat' first
    | with_reducible assumption | with_reducible apply State.satfb_sound | with_reducible apply outSound_next

theorem State.setLpe_sound {s : State} (hs : s.Sound) (n : Nat) (e : LpeState) : (State.setLpe s n e).Sound := by
  unfold State.setLpe
  try dsimp only
  repeat' first
    | with_reducible assumption | with_reducible apply outSound_next | with_reducible apply sound_ite | with_reducible apply outSound_ite
    | with_reducible apply sound_foldl | with_reducible intro _ _ _ _ | with_reducible intro _ _ _ | with_reducible intro _ _
    | with_reducible apply sound_ite_snd | with_reducible refine sound_of_snd (by assumption) ?_
    | with_reducible refine sound_of_fst (by assumption) ?_ | with_reducible refine sound_of_trd (by assumption) ?_
    | with_reducible apply sound_foldl_fst | with_reducible apply sound_foldl_snd | split | dsimp only | simp only [sound_mk, sound_mk_evl]

theorem State.syncPend_sound {s : State} (hs : s.Sound) (n : Nat) : (State.syncPend s n).Sound := by
  unfold State.syncPend
  try dsimp only
  repeat' first
    | with_reducible assumption | with_reducible apply State.setFld_sound

theorem State.setLoopDyn_sound {s : State} (hs : s.Sound) (n : Nat) (l : Nat) (d : LoopDyn) : (State.setLoopDyn s n l d).Sound := by
  unfold State.setLoopDyn
  try dsimp only
  repeat' first
    | with_reducible assumption | with_reducible apply State.setLpe_sound

theorem State.dropHeld_sound {s : State} (hs : s.Sound) (n : Nat) (x : Nat) : (State.dropHeld s n x).Sound := by
  unfold State.dropHeld
  try dsimp only
  repeat' first
    | with_reducible assumption | with_reducible apply State.setLpe_sound | with_reducible apply State.syncPend_sound
    | with_reducible apply State.setLoopDyn_sound | with_reducible apply outSound_next | with_reducible apply sound_ite
    | with_reducible apply outSound_ite | with_reducible apply sound_foldl | with_reducible intro _ _ _ _ | with_reducible intro _ _ _
    | with_reducible intro _ _ | with_reducible apply sound_ite_snd | with_reducible refine sound_of_snd (by assumption) ?_
    | with_reducible refine sound_of_fst (by assumption) ?_ | with_reducible refine sound_of_trd (by assumption) ?_
    | with_reducible apply sound_foldl_fst | with_reducible apply sound_foldl_snd | split

theorem State.paramClear_sound {s : State} (hs : s.Sound) (n : Nat) : (State.paramClear s n).Sound := by
  unfold State.paramClear
  try dsimp only
  repeat' first
    | with_reducible assumption | with_reducible apply State.setNum_sound | with_reducible apply outSound_next
    | with_reducible apply sound_ite | with_reducible apply outSound_ite | with_reducible apply sound_foldl | with_reducible intro _ _ _ _
    | with_reducible intro _ _ _

theorem State.pcResult_sound {s : State} (hs : s.Sound) (n : Nat) (l : Nat) (code : Nat) (word : Nat) : (State.pcResult s n l code word).Sound := by
  unfold State.pcResult
  try dsimp only
  repeat' first
    | with_reducible assumption | with_reducible apply State.setFld_sound

theorem State.paramCommit_sound {s : State} (hs : s.Sound) (n : Nat) : (State.paramCommit s n).Sound := by
  unfold State.paramCommit
  try dsimp only
  repeat' first
    | with_reducible assumption | with_reducible apply State.log_sound | with_reducible apply State.setFld_sound
    | with_reducible apply State.pcResult_sound | with_reducible apply State.syncPend_sound | with_reducible apply State.setLpe_sound
    | with_reducible apply outSound_next | with_reducible apply sound_ite | with_reducible apply outSound_ite
    | with_reducible apply sound_foldl | with_reducible intro _ _ _ _ | with_reducible intro _ _ _ | with_reducible intro _ _
    | with_reducible apply sound_ite_snd | with_reducible refine sound_of_snd (by assumption) ?_
    | with_reducible refine sound_of_fst (by assumption) ?_ | with_reducible refine sound_of_trd (by assumption) ?_
    | with_reducible apply sound_foldl_fst | with_reducible apply sound_foldl_snd | split

theorem execParamCommit_sound {s : State} (hs : s.Sound) (n : Fin 9) (clear : Bool) : OutSound (execParamCommit n clear s) := by
  unfold execParamCommit
  try dsimp only
  repeat' first
    | with_reducible assumption | with_reducible apply State.paramClear_sound | with_reducible apply State.paramCommit_sound
    | with_reducible apply outSound_next | with_reducible apply sound_ite | with_reducible apply outSound_ite

theorem execParamClear_sound {s : State} (hs : s.Sound) (n : Fin 9) : OutSound (execParamClear n s) := by
  unfold execParamClear
  try dsimp only
  repeat' first
    | with_reducible assumption | with_reducible apply State.paramClear_sound | with_reducible apply outSound_next
    | with_reducible apply sound_ite | with_reducible apply outSound_ite

theorem State.modeRequest_sound {s : State} (hs : s.Sound) (n : Nat) (l : Nat) (v : Nat) : (State.modeRequest s n l v).Sound := by
  unfold State.modeRequest
  try dsimp only
  repeat' first
    | with_reducible assumption | with_reducible apply State.pcResult_sound | with_reducible apply State.setLoopDyn_sound
    | with_reducible apply State.setFld_sound | with_reducible apply State.log_sound | with_reducible apply outSound_next
    | with_reducible apply sound_ite

theorem execLoopModeRequest_sound {s : State} (hs : s.Sound) (n : Fin 9) (l : Fin 128) (v : BitVec 3) : OutSound (execLoopModeRequest n l v s) := by
  unfold execLoopModeRequest
  try dsimp only
  repeat' first
    | with_reducible assumption | with_reducible apply State.modeRequest_sound | with_reducible apply outSound_next
    | with_reducible apply sound_ite | with_reducible apply outSound_ite

theorem execLoopFbClr_sound {s : State} (hs : s.Sound) (n : Fin 9) (l : Fin 128) : OutSound (execLoopFbClr n l s) := by
  unfold execLoopFbClr
  try dsimp only
  repeat' first
    | with_reducible assumption | with_reducible apply State.setFld_sound | with_reducible apply outSound_next
    | with_reducible apply sound_ite | with_reducible apply outSound_ite

theorem execRepAction_sound {s : State} (hs : s.Sound) (n : Fin 9) (l : Fin 128) (a : BitVec 2) : OutSound (execRepAction n l a s) := by
  unfold execRepAction
  try dsimp only
  repeat' first
    | with_reducible assumption | with_reducible apply State.setLoopDyn_sound | with_reducible apply outSound_next
    | with_reducible apply sound_ite | with_reducible apply outSound_ite

theorem State.logAll_sound {s : State} (hs : s.Sound) (src : Nat) (l : List (Nat × Nat)) : (State.logAll s src l).Sound := by
  unfold State.logAll
  try dsimp only
  repeat' first
    | with_reducible assumption | with_reducible apply State.log_sound | with_reducible apply outSound_next
    | with_reducible apply sound_ite | with_reducible apply outSound_ite | with_reducible apply sound_foldl | with_reducible intro _ _ _ _
    | with_reducible intro _ _ _

theorem State.applyHeld_sound {s : State} (hs : s.Sound) (n : Nat) (x : Nat) : (State.applyHeld s n x).Sound := by
  unfold State.applyHeld
  try dsimp only
  repeat' first
    | with_reducible assumption | with_reducible apply State.wrWord_sound | with_reducible apply State.setLw_sound
    | with_reducible apply State.setFld_sound | with_reducible apply State.setLoopDyn_sound | with_reducible apply State.setNum_sound
    | with_reducible apply State.logAll_sound | with_reducible apply State.setLpe_sound | with_reducible apply outSound_next
    | with_reducible apply sound_ite | with_reducible apply outSound_ite | with_reducible apply sound_foldl | with_reducible intro _ _ _ _
    | with_reducible intro _ _ _ | with_reducible intro _ _ | with_reducible apply sound_ite_snd
    | with_reducible refine sound_of_snd (by assumption) ?_ | with_reducible refine sound_of_fst (by assumption) ?_
    | with_reducible refine sound_of_trd (by assumption) ?_ | with_reducible apply sound_foldl_fst | with_reducible apply sound_foldl_snd
    | split

theorem State.clearTable_sound {s : State} (hs : s.Sound) (n : Nat) (l : Nat) : (State.clearTable s n l).Sound := by
  unfold State.clearTable
  try dsimp only
  repeat' first
    | with_reducible assumption | with_reducible apply State.wrWord_sound | with_reducible apply outSound_next
    | with_reducible apply sound_ite | with_reducible apply outSound_ite | with_reducible apply sound_foldl | with_reducible intro _ _ _ _
    | with_reducible intro _ _ _

theorem execRepTableClearDone_sound {s : State} (hs : s.Sound) (n : Fin 9) (l : Fin 128) : OutSound (execRepTableClearDone n l s) := by
  unfold execRepTableClearDone
  try dsimp only
  repeat' first
    | with_reducible assumption | with_reducible apply State.clearTable_sound | with_reducible apply State.log_sound
    | with_reducible apply State.setLw_sound | with_reducible apply outSound_next | with_reducible apply sound_ite
    | with_reducible apply outSound_ite

theorem State.loopUpdate_sound {s : State} (hs : s.Sound) (n : Nat) (x : Nat) (w : Nat) (l : Nat) (bad : List Nat) : (State.loopUpdate s n x w l bad).Sound := by
  unfold State.loopUpdate
  try dsimp only
  repeat' first
    | with_reducible assumption | with_reducible apply State.checkOps_sound | with_reducible apply State.freshWord_sound
    | with_reducible apply State.setLpe_sound | with_reducible apply State.syncPend_sound | with_reducible apply State.setLoopDyn_sound
    | with_reducible apply State.setEntry_sound

theorem execLoopUpdate_sound {s : State} (hs : s.Sound) (n : Fin 9) (x : Fin 512) (bad : List Nat) : OutSound (execLoopUpdate n x bad s) := by
  unfold execLoopUpdate
  try dsimp only
  repeat' first
    | with_reducible assumption | with_reducible apply State.loopUpdate_sound | with_reducible apply outSound_next
    | with_reducible apply sound_ite | with_reducible apply outSound_ite | with_reducible apply sound_foldl | with_reducible intro _ _ _ _
    | with_reducible intro _ _ _ | with_reducible intro _ _ | with_reducible apply sound_ite_snd
    | with_reducible refine sound_of_snd (by assumption) ?_ | with_reducible refine sound_of_fst (by assumption) ?_
    | with_reducible refine sound_of_trd (by assumption) ?_ | with_reducible apply sound_foldl_fst | with_reducible apply sound_foldl_snd
    | split

end Sys2Proof.Machine
end

