-- ==== Sys2Proof/Laws/SoundAcq.lean ====
section
/-! SUPPORT. The operations and commands of Machine/Acq.lean keep a sound state sound. -/
namespace Sys2Proof.Machine

theorem State.noCoef_sound {s : State} (hs : s.Sound) (r : Nat) : (State.noCoef s r).Sound := by
  unfold State.noCoef
  try dsimp only
  repeat' first
    | with_reducible assumption | with_reducible apply State.logIf_sound | with_reducible apply outSound_next
    | with_reducible apply sound_ite | with_reducible apply outSound_ite | with_reducible apply sound_foldl | with_reducible intro _ _ _ _
    | with_reducible intro _ _ _ | with_reducible intro _ _ | with_reducible apply sound_ite_snd
    | with_reducible refine sound_of_snd (by assumption) ?_ | with_reducible refine sound_of_fst (by assumption) ?_
    | with_reducible refine sound_of_trd (by assumption) ?_ | with_reducible apply sound_foldl_fst | with_reducible apply sound_foldl_snd
    | split | dsimp only | simp only [sound_mk, sound_mk_evl]

theorem State.calReload_sound {s : State} (hs : s.Sound) : (State.calReload s).Sound := by
  unfold State.calReload
  try dsimp only
  repeat' first
    | with_reducible assumption | with_reducible apply State.setCal_sound | with_reducible apply State.logIf_sound
    | with_reducible apply State.noCoef_sound | with_reducible apply outSound_next | with_reducible apply sound_ite
    | with_reducible apply outSound_ite | with_reducible apply sound_foldl | with_reducible intro _ _ _ _ | with_reducible intro _ _ _

theorem execTdacReadmit_sound {s : State} (hs : s.Sound) (p : Fin 8) : OutSound (execTdacReadmit p s) := by
  unfold execTdacReadmit
  try dsimp only
  repeat' first
    | with_reducible assumption | with_reducible apply State.readmit_sound | with_reducible apply State.setPair_sound
    | with_reducible apply State.freshNat_sound | with_reducible apply State.testFailed_sound | with_reducible apply outSound_next
    | with_reducible apply sound_ite | with_reducible apply outSound_ite

theorem execConverterReadmit_sound {s : State} (hs : s.Sound) (k : Fin 20) : OutSound (execConverterReadmit k s) := by
  unfold execConverterReadmit
  try dsimp only
  repeat' first
    | with_reducible assumption | with_reducible apply State.readmit_sound | with_reducible apply State.testFailed_sound
    | with_reducible apply State.setConv_sound | with_reducible apply outSound_next | with_reducible apply sound_ite
    | with_reducible apply outSound_ite

theorem execCalStart_sound {s : State} (hs : s.Sound) (ch : BitVec 8) (range : BitVec 2) : OutSound (execCalStart ch range s) := by
  unfold execCalStart
  try dsimp only
  repeat' first
    | with_reducible assumption | with_reducible apply State.setFld_sound | with_reducible apply State.calRefuse_sound
    | with_reducible apply State.setCal_sound | with_reducible apply State.pairRefresh_sound | with_reducible apply outSound_next
    | with_reducible apply sound_ite | with_reducible apply outSound_ite

theorem State.calCapture_sound {s : State} (hs : s.Sound) (high : Bool) : (State.calCapture s high).Sound := by
  unfold State.calCapture
  try dsimp only
  repeat' first
    | with_reducible assumption | with_reducible apply State.setFld_sound | with_reducible apply State.setCal_sound
    | with_reducible apply State.calRefuse_sound | with_reducible apply outSound_next | with_reducible apply sound_ite

theorem execCalCaptureLo_sound {s : State} (hs : s.Sound) : OutSound (execCalCaptureLo s) := by
  unfold execCalCaptureLo
  try dsimp only
  repeat' first
    | with_reducible assumption | with_reducible apply State.calCapture_sound | with_reducible apply outSound_next

theorem execCalCaptureHi_sound {s : State} (hs : s.Sound) : OutSound (execCalCaptureHi s) := by
  unfold execCalCaptureHi
  try dsimp only
  repeat' first
    | with_reducible assumption | with_reducible apply State.calCapture_sound | with_reducible apply outSound_next

theorem execCalCommit_sound {s : State} (hs : s.Sound) : OutSound (execCalCommit s) := by
  unfold execCalCommit
  try dsimp only
  repeat' first
    | with_reducible assumption | with_reducible apply State.wr_sound | with_reducible apply State.setFld_sound
    | with_reducible apply State.calRefuse_sound | with_reducible apply State.calIdle_sound | with_reducible apply outSound_next
    | with_reducible apply sound_ite | with_reducible apply outSound_ite | with_reducible apply sound_foldl | with_reducible intro _ _ _ _
    | with_reducible intro _ _ _ | with_reducible intro _ _ | with_reducible apply sound_ite_snd
    | with_reducible refine sound_of_snd (by assumption) ?_ | with_reducible refine sound_of_fst (by assumption) ?_
    | with_reducible refine sound_of_trd (by assumption) ?_ | with_reducible apply sound_foldl_fst | with_reducible apply sound_foldl_snd
    | split

theorem execCalAbort_sound {s : State} (hs : s.Sound) : OutSound (execCalAbort s) := by
  unfold execCalAbort
  try dsimp only
  repeat' first
    | with_reducible assumption | with_reducible apply State.calRefuse_sound | with_reducible apply State.calIdle_sound
    | with_reducible apply outSound_next | with_reducible apply sound_ite | with_reducible apply outSound_ite

theorem State.storeRec_sound {s : State} (hs : s.Sound) (a : Nat) (l : List Nat) : (State.storeRec s a l).Sound := by
  unfold State.storeRec
  try dsimp only
  repeat' first
    | with_reducible assumption | with_reducible apply State.wrList_sound | with_reducible apply State.setCal_sound
    | with_reducible apply outSound_next | with_reducible apply sound_ite | with_reducible apply outSound_ite
    | with_reducible apply sound_foldl | with_reducible intro _ _ _ _ | with_reducible intro _ _ _ | with_reducible intro _ _
    | with_reducible apply sound_ite_snd | with_reducible refine sound_of_snd (by assumption) ?_
    | with_reducible refine sound_of_fst (by assumption) ?_ | with_reducible refine sound_of_trd (by assumption) ?_
    | with_reducible apply sound_foldl_fst | with_reducible apply sound_foldl_snd | split | dsimp only | simp only [sound_mk, sound_mk_evl]

theorem execCalRevert_sound {s : State} (hs : s.Sound) (ch : BitVec 8) (range : BitVec 2) : OutSound (execCalRevert ch range s) := by
  unfold execCalRevert
  try dsimp only
  repeat' first
    | with_reducible assumption | with_reducible apply State.setFld_sound | with_reducible apply State.calRefuse_sound
    | with_reducible apply State.noCoef_sound | with_reducible apply State.log_sound | with_reducible apply State.storeRec_sound
    | with_reducible apply outSound_next | with_reducible apply sound_ite | with_reducible apply outSound_ite

theorem execTdacDiagRequest_sound {s : State} (hs : s.Sound) (p : Fin 8) (code : BitVec 12) (mode : BitVec 2) (conv : Bool) (ch : BitVec 3) : OutSound (execTdacDiagRequest p code mode conv ch s) := by
  unfold execTdacDiagRequest
  try dsimp only
  repeat' first
    | with_reducible assumption | with_reducible apply State.setFld_sound | with_reducible apply State.wr_sound
    | with_reducible apply State.setPair_sound | with_reducible apply outSound_next | with_reducible apply sound_ite
    | with_reducible apply outSound_ite

theorem execCalCaptureDone_sound {s : State} (hs : s.Sound) : OutSound (execCalCaptureDone s) := by
  unfold execCalCaptureDone
  try dsimp only
  repeat' first
    | with_reducible assumption | with_reducible apply State.calRefuse_sound | with_reducible apply State.setFld_sound
    | with_reducible apply State.setCal_sound | with_reducible apply outSound_next | with_reducible apply sound_ite
    | with_reducible apply outSound_ite

theorem State.testMeasure_sound {s : State} (hs : s.Sound) (k : Nat) (range : Nat) (f : Int) (x : Word) (bad : Bool) : (State.testMeasure s k range f x bad).Sound := by
  unfold State.testMeasure
  try dsimp only
  repeat' first
    | with_reducible assumption | with_reducible apply State.setConv_sound | with_reducible apply outSound_next
    | with_reducible apply sound_ite | with_reducible apply outSound_ite | with_reducible apply sound_foldl | with_reducible intro _ _ _ _
    | with_reducible intro _ _ _ | with_reducible intro _ _ | with_reducible apply sound_ite_snd
    | with_reducible refine sound_of_snd (by assumption) ?_ | with_reducible refine sound_of_fst (by assumption) ?_
    | with_reducible refine sound_of_trd (by assumption) ?_ | with_reducible apply sound_foldl_fst | with_reducible apply sound_foldl_snd
    | split | dsimp only | simp only [sound_mk, sound_mk_evl]

theorem State.ovrCount_sound {s : State} (hs : s.Sound) (k : Nat) (m : Sample) : (State.ovrCount s k m).Sound := by
  unfold State.ovrCount
  try dsimp only
  repeat' first
    | with_reducible assumption | with_reducible apply State.countFld_sound | with_reducible apply outSound_next
    | with_reducible apply sound_ite | with_reducible apply outSound_ite | with_reducible apply sound_foldl | with_reducible intro _ _ _ _
    | with_reducible intro _ _ _ | with_reducible intro _ _ | with_reducible apply sound_ite_snd
    | with_reducible refine sound_of_snd (by assumption) ?_ | with_reducible refine sound_of_fst (by assumption) ?_
    | with_reducible refine sound_of_trd (by assumption) ?_ | with_reducible apply sound_foldl_fst | with_reducible apply sound_foldl_snd
    | split | dsimp only | simp only [sound_mk, sound_mk_evl]

theorem State.calSample_sound {s : State} (hs : s.Sound) (i : Nat) (range : Nat) (u : Word) (st : BitVec 4) (ovr : Bool) : (State.calSample s i range u st ovr).Sound := by
  unfold State.calSample
  try dsimp only
  repeat' first
    | with_reducible assumption | with_reducible apply State.setCal_sound | with_reducible apply outSound_next
    | with_reducible apply sound_ite

theorem State.achkDown_sound {s : State} (hs : s.Sound) (k : Nat) (e : Nat) (cseq : Nat) : (State.achkDown s k e cseq).Sound := by
  unfold State.achkDown
  try dsimp only
  repeat' first
    | with_reducible assumption | with_reducible apply State.sendAchk_sound | with_reducible apply outSound_next
    | with_reducible apply sound_ite | with_reducible apply outSound_ite | with_reducible apply sound_foldl | with_reducible intro _ _ _ _
    | with_reducible intro _ _ _ | with_reducible intro _ _ | with_reducible apply sound_ite_snd
    | with_reducible refine sound_of_snd (by assumption) ?_ | with_reducible refine sound_of_fst (by assumption) ?_
    | with_reducible refine sound_of_trd (by assumption) ?_ | with_reducible apply sound_foldl_fst | with_reducible apply sound_foldl_snd
    | split | dsimp only | simp only [sound_mk, sound_mk_evl]

theorem State.checkEnd_sound {s : State} (hs : s.Sound) (k : Nat) (e : Nat) (codes : List Int) (bad : Bool) : (State.checkEnd s k e codes bad).Sound := by
  unfold State.checkEnd
  try dsimp only
  repeat' first
    | with_reducible assumption | with_reducible apply State.testMeasure_sound | with_reducible apply State.ovrCount_sound
    | with_reducible apply State.calSample_sound | with_reducible apply State.achkDown_sound | with_reducible apply State.setPair_sound
    | with_reducible apply outSound_next | with_reducible apply sound_ite | with_reducible apply outSound_ite
    | with_reducible apply sound_foldl | with_reducible intro _ _ _ _ | with_reducible intro _ _ _ | with_reducible intro _ _
    | with_reducible apply sound_ite_snd | with_reducible refine sound_of_snd (by assumption) ?_
    | with_reducible refine sound_of_fst (by assumption) ?_ | with_reducible refine sound_of_trd (by assumption) ?_
    | with_reducible apply sound_foldl_fst | with_reducible apply sound_foldl_snd | split | dsimp only | simp only [sound_mk, sound_mk_evl]

theorem State.arbEnd_sound {s : State} (hs : s.Sound) (p : Nat) (l : List (Word × Word × Word)) : (State.arbEnd s p l).Sound := by
  unfold State.arbEnd
  try dsimp only
  repeat' first
    | with_reducible assumption | with_reducible apply State.log_sound | with_reducible apply State.setFld_sound
    | with_reducible apply State.setPair_sound | with_reducible apply State.convFatal_sound | with_reducible apply State.pairRefresh_sound
    | with_reducible apply State.fatal_sound | with_reducible apply outSound_next | with_reducible apply sound_ite
    | with_reducible apply outSound_ite | with_reducible apply sound_foldl | with_reducible intro _ _ _ _ | with_reducible intro _ _ _
    | with_reducible intro _ _ | with_reducible apply sound_ite_snd | with_reducible refine sound_of_snd (by assumption) ?_
    | with_reducible refine sound_of_fst (by assumption) ?_ | with_reducible refine sound_of_trd (by assumption) ?_
    | with_reducible apply sound_foldl_fst | with_reducible apply sound_foldl_snd | split

theorem State.convCatch_sound {s : State} (hs : s.Sound) (m : Nat) (pos : Nat) (q : Nat) : (State.convCatch s m pos q).Sound := by
  unfold State.convCatch
  try dsimp only
  repeat' first
    | with_reducible assumption | with_reducible apply State.setConv_sound | with_reducible apply outSound_next
    | with_reducible apply sound_ite | with_reducible apply outSound_ite | with_reducible apply sound_foldl | with_reducible intro _ _ _ _
    | with_reducible intro _ _ _ | with_reducible intro _ _ | with_reducible apply sound_ite_snd
    | with_reducible refine sound_of_snd (by assumption) ?_ | with_reducible refine sound_of_fst (by assumption) ?_
    | with_reducible refine sound_of_trd (by assumption) ?_ | with_reducible apply sound_foldl_fst | with_reducible apply sound_foldl_snd
    | split | dsimp only | simp only [sound_mk, sound_mk_evl]

theorem State.writeCal_sound {s : State} (hs : s.Sound) (slot : Nat) (r : Nat) (gain : Word) (offs : Word) (seq : Nat) : (State.writeCal s slot r gain offs seq).Sound := by
  unfold State.writeCal
  try dsimp only
  repeat' first
    | with_reducible assumption | with_reducible apply State.storeRec_sound

theorem State.anaTestOver_sound {s : State} (hs : s.Sound) (r : Res) : (State.anaTestOver s r).Sound := by
  unfold State.anaTestOver
  try dsimp only
  repeat' first
    | with_reducible assumption | with_reducible apply State.setConv_sound | with_reducible apply State.setPair_sound
    | with_reducible apply outSound_next | with_reducible apply sound_ite | with_reducible apply outSound_ite
    | with_reducible apply sound_foldl | with_reducible intro _ _ _ _ | with_reducible intro _ _ _ | with_reducible intro _ _
    | with_reducible apply sound_ite_snd | with_reducible refine sound_of_snd (by assumption) ?_
    | with_reducible refine sound_of_fst (by assumption) ?_ | with_reducible refine sound_of_trd (by assumption) ?_
    | with_reducible apply sound_foldl_fst | with_reducible apply sound_foldl_snd | split | dsimp only | simp only [sound_mk, sound_mk_evl]

theorem State.convStart_sound {s : State} (hs : s.Sound) (k : Nat) (w : ConvDue) : (State.convStart s k w).Sound := by
  unfold State.convStart
  try dsimp only
  repeat' first
    | with_reducible assumption | with_reducible apply State.setPair_sound | with_reducible apply State.setFld_sound
    | with_reducible apply State.wr_sound | with_reducible apply State.setConv_sound | with_reducible apply outSound_next
    | with_reducible apply sound_ite

theorem State.convNext_sound {s : State} (hs : s.Sound) (k : Nat) (x0 : List ConvDue) : (State.convNext s k x0).Sound := by
  induction x0 generalizing s with
  | nil =>
    unfold State.convNext
    try dsimp only
    repeat' first
      | with_reducible apply ih | with_reducible assumption | with_reducible apply State.setConv_sound
      | with_reducible apply State.achkDown_sound | with_reducible apply State.convStart_sound | with_reducible apply outSound_next
      | with_reducible apply sound_ite | with_reducible apply outSound_ite | with_reducible apply sound_foldl
      | with_reducible intro _ _ _ _ | with_reducible intro _ _ _ | with_reducible intro _ _ | with_reducible apply sound_ite_snd
      | with_reducible refine sound_of_snd (by assumption) ?_ | with_reducible refine sound_of_fst (by assumption) ?_
      | with_reducible refine sound_of_trd (by assumption) ?_ | with_reducible apply sound_foldl_fst | with_reducible apply sound_foldl_snd
      | split | dsimp only | simp only [sound_mk, sound_mk_evl]
  | cons hd tl ih =>
    unfold State.convNext
    try dsimp only
    repeat' first
      | with_reducible apply ih | with_reducible assumption | with_reducible apply State.setConv_sound
      | with_reducible apply State.achkDown_sound | with_reducible apply State.convStart_sound | with_reducible apply outSound_next
      | with_reducible apply sound_ite | with_reducible apply outSound_ite | with_reducible apply sound_foldl
      | with_reducible intro _ _ _ _ | with_reducible intro _ _ _ | with_reducible intro _ _ | with_reducible apply sound_ite_snd
      | with_reducible refine sound_of_snd (by assumption) ?_ | with_reducible refine sound_of_fst (by assumption) ?_
      | with_reducible refine sound_of_trd (by assumption) ?_ | with_reducible apply sound_foldl_fst | with_reducible apply sound_foldl_snd
      | split | dsimp only | simp only [sound_mk, sound_mk_evl]

theorem State.convFree_sound {s : State} (hs : s.Sound) (k : Nat) : (State.convFree s k).Sound := by
  unfold State.convFree
  try dsimp only
  repeat' first
    | with_reducible assumption | with_reducible apply State.setFld_sound | with_reducible apply State.convNext_sound
    | with_reducible apply State.setConv_sound | with_reducible apply outSound_next | with_reducible apply sound_ite
    | with_reducible apply outSound_ite | with_reducible apply sound_foldl | with_reducible intro _ _ _ _ | with_reducible intro _ _ _
    | with_reducible intro _ _ | with_reducible apply sound_ite_snd | with_reducible refine sound_of_snd (by assumption) ?_
    | with_reducible refine sound_of_fst (by assumption) ?_ | with_reducible refine sound_of_trd (by assumption) ?_
    | with_reducible apply sound_foldl_fst | with_reducible apply sound_foldl_snd | split

theorem execAcqToken_sound {s : State} (hs : s.Sound) (n : Fin 9) (k : Fin 20) (t : Token) : OutSound (execAcqToken n k t s) := by
  unfold execAcqToken
  try dsimp only
  repeat' first
    | with_reducible assumption | with_reducible apply State.setConv_sound | with_reducible apply State.count_sound
    | with_reducible apply State.mismatch_sound | with_reducible apply State.emit_sound | with_reducible apply State.setNum_sound
    | with_reducible apply outSound_next | with_reducible apply sound_ite | with_reducible apply outSound_ite
    | with_reducible apply sound_foldl | with_reducible intro _ _ _ _ | with_reducible intro _ _ _ | with_reducible intro _ _
    | with_reducible apply sound_ite_snd | with_reducible refine sound_of_snd (by assumption) ?_
    | with_reducible refine sound_of_fst (by assumption) ?_ | with_reducible refine sound_of_trd (by assumption) ?_
    | with_reducible apply sound_foldl_fst | with_reducible apply sound_foldl_snd | split | dsimp only | simp only [sound_mk, sound_mk_evl]

theorem State.openWire_sound {s : State} (hs : s.Sound) (i : Nat) (range : Nat) (x : Word) : (State.openWire s i range x).Sound := by
  unfold State.openWire
  try dsimp only
  repeat' first
    | with_reducible assumption | with_reducible apply State.setOwRun_sound | with_reducible apply State.log_sound
    | with_reducible apply State.setRbit_sound | with_reducible apply outSound_next | with_reducible apply sound_ite

theorem State.inputEnd_sound {s : State} (hs : s.Sound) (k : Nat) (e : Nat) (codes : List Int) (bad : Bool) : (State.inputEnd s k e codes bad).Sound := by
  unfold State.inputEnd
  try dsimp only
  repeat' first
    | with_reducible assumption | with_reducible apply State.ovrCount_sound | with_reducible apply State.openWire_sound
    | with_reducible apply State.calSample_sound | with_reducible apply State.setConv_sound | with_reducible apply State.convSend_sound
    | with_reducible apply outSound_next | with_reducible apply sound_ite

theorem State.diagEnd_sound {s : State} (hs : s.Sound) (k : Nat) (e : Nat) (codes : List Int) (bad : Bool) : (State.diagEnd s k e codes bad).Sound := by
  unfold State.diagEnd
  try dsimp only
  repeat' first
    | with_reducible assumption | with_reducible apply State.testMeasure_sound | with_reducible apply State.ovrCount_sound
    | with_reducible apply State.setFld_sound | with_reducible apply State.wr_sound | with_reducible apply State.log_sound
    | with_reducible apply outSound_next | with_reducible apply sound_ite | with_reducible apply outSound_ite
    | with_reducible apply sound_foldl | with_reducible intro _ _ _ _ | with_reducible intro _ _ _ | with_reducible intro _ _
    | with_reducible apply sound_ite_snd | with_reducible refine sound_of_snd (by assumption) ?_
    | with_reducible refine sound_of_fst (by assumption) ?_ | with_reducible refine sound_of_trd (by assumption) ?_
    | with_reducible apply sound_foldl_fst | with_reducible apply sound_foldl_snd | split | dsimp only | simp only [sound_mk, sound_mk_evl]

theorem State.convFinish_sound {s : State} (hs : s.Sound) (k : Nat) (codes : List Int) (bad : Bool) : (State.convFinish s k codes bad).Sound := by
  unfold State.convFinish
  try dsimp only
  repeat' first
    | with_reducible assumption | with_reducible apply State.inputEnd_sound | with_reducible apply State.checkEnd_sound
    | with_reducible apply State.diagEnd_sound | with_reducible apply State.convFree_sound | with_reducible apply outSound_next
    | with_reducible apply sound_ite | with_reducible apply outSound_ite | with_reducible apply sound_foldl | with_reducible intro _ _ _ _
    | with_reducible intro _ _ _ | with_reducible intro _ _ | with_reducible apply sound_ite_snd
    | with_reducible refine sound_of_snd (by assumption) ?_ | with_reducible refine sound_of_fst (by assumption) ?_
    | with_reducible refine sound_of_trd (by assumption) ?_ | with_reducible apply sound_foldl_fst | with_reducible apply sound_foldl_snd
    | split

theorem execConvTimeout_sound {s : State} (hs : s.Sound) (k : Fin 20) : OutSound (execConvTimeout k s) := by
  unfold execConvTimeout
  try dsimp only
  repeat' first
    | with_reducible assumption | with_reducible apply State.convFinish_sound | with_reducible apply State.convTransient_sound
    | with_reducible apply outSound_next | with_reducible apply sound_ite | with_reducible apply outSound_ite
    | with_reducible apply sound_foldl | with_reducible intro _ _ _ _ | with_reducible intro _ _ _ | with_reducible intro _ _
    | with_reducible apply sound_ite_snd | with_reducible refine sound_of_snd (by assumption) ?_
    | with_reducible refine sound_of_fst (by assumption) ?_ | with_reducible refine sound_of_trd (by assumption) ?_
    | with_reducible apply sound_foldl_fst | with_reducible apply sound_foldl_snd | split

theorem State.convYield_sound {s : State} (hs : s.Sound) (k : Nat) : (State.convYield s k).Sound := by
  unfold State.convYield
  try dsimp only
  repeat' first
    | with_reducible assumption | with_reducible apply State.setPair_sound | with_reducible apply State.setConv_sound
    | with_reducible apply outSound_next | with_reducible apply sound_ite | with_reducible apply outSound_ite
    | with_reducible apply sound_foldl | with_reducible intro _ _ _ _ | with_reducible intro _ _ _ | with_reducible intro _ _
    | with_reducible apply sound_ite_snd | with_reducible refine sound_of_snd (by assumption) ?_
    | with_reducible refine sound_of_fst (by assumption) ?_ | with_reducible refine sound_of_trd (by assumption) ?_
    | with_reducible apply sound_foldl_fst | with_reducible apply sound_foldl_snd | split | dsimp only | simp only [sound_mk, sound_mk_evl]

theorem State.convLate_sound {s : State} (hs : s.Sound) (k : Nat) (e : Nat) : (State.convLate s k e).Sound := by
  unfold State.convLate
  try dsimp only
  repeat' first
    | with_reducible assumption | with_reducible apply State.count_sound | with_reducible apply State.log_sound
    | with_reducible apply outSound_next | with_reducible apply sound_ite

theorem State.convReach_sound {s : State} (hs : s.Sound) (k : Nat) (w : ConvDue) : (State.convReach s k w).Sound := by
  unfold State.convReach
  try dsimp only
  repeat' first
    | with_reducible assumption | with_reducible apply State.achkDown_sound | with_reducible apply State.convStart_sound
    | with_reducible apply State.convYield_sound | with_reducible apply State.convLate_sound | with_reducible apply State.setConv_sound
    | with_reducible apply outSound_next | with_reducible apply sound_ite | with_reducible apply outSound_ite
    | with_reducible apply sound_foldl | with_reducible intro _ _ _ _ | with_reducible intro _ _ _ | with_reducible intro _ _
    | with_reducible apply sound_ite_snd | with_reducible refine sound_of_snd (by assumption) ?_
    | with_reducible refine sound_of_fst (by assumption) ?_ | with_reducible refine sound_of_trd (by assumption) ?_
    | with_reducible apply sound_foldl_fst | with_reducible apply sound_foldl_snd | split | dsimp only | simp only [sound_mk, sound_mk_evl]

theorem State.dacCheck_sound {s : State} (hs : s.Sound) (p : Nat) (j : Nat) (bad : Bool) (a : CheckSmp) (b : CheckSmp) : (State.dacCheck s p j bad a b).Sound := by
  unfold State.dacCheck
  try dsimp only
  repeat' first
    | with_reducible assumption | with_reducible apply State.sendAchk_sound | with_reducible apply State.setPair_sound
    | with_reducible apply outSound_next | with_reducible apply sound_ite | with_reducible apply outSound_ite
    | with_reducible apply sound_foldl | with_reducible intro _ _ _ _ | with_reducible intro _ _ _ | with_reducible intro _ _
    | with_reducible apply sound_ite_snd | with_reducible refine sound_of_snd (by assumption) ?_
    | with_reducible refine sound_of_fst (by assumption) ?_ | with_reducible refine sound_of_trd (by assumption) ?_
    | with_reducible apply sound_foldl_fst | with_reducible apply sound_foldl_snd | split | dsimp only | simp only [sound_mk, sound_mk_evl]

theorem State.arbCheck_sound {s : State} (hs : s.Sound) (p : Nat) (a : CheckSmp) (b : CheckSmp) : (State.arbCheck s p a b).Sound := by
  unfold State.arbCheck
  try dsimp only
  repeat' first
    | with_reducible assumption | with_reducible apply State.sendAchk_sound | with_reducible apply State.setFld_sound
    | with_reducible apply State.setPair_sound | with_reducible apply State.arbEnd_sound | with_reducible apply outSound_next
    | with_reducible apply sound_ite | with_reducible apply outSound_ite | with_reducible apply sound_foldl | with_reducible intro _ _ _ _
    | with_reducible intro _ _ _ | with_reducible intro _ _ | with_reducible apply sound_ite_snd
    | with_reducible refine sound_of_snd (by assumption) ?_ | with_reducible refine sound_of_fst (by assumption) ?_
    | with_reducible refine sound_of_trd (by assumption) ?_ | with_reducible apply sound_foldl_fst | with_reducible apply sound_foldl_snd
    | split | dsimp only | simp only [sound_mk, sound_mk_evl]

theorem State.compareCheck_sound {s : State} (hs : s.Sound) (p : Nat) (a : CheckSmp) (b : CheckSmp) (mean : Word) : (State.compareCheck s p a b mean).Sound := by
  unfold State.compareCheck
  try dsimp only
  repeat' first
    | with_reducible assumption | with_reducible apply State.sendAchk_sound | with_reducible apply State.wr_sound
    | with_reducible apply State.setFld_sound | with_reducible apply State.log_sound | with_reducible apply State.countFld_sound
    | with_reducible apply State.convFatal_sound | with_reducible apply State.setPair_sound | with_reducible apply outSound_next
    | with_reducible apply sound_ite | with_reducible apply outSound_ite | with_reducible apply sound_foldl | with_reducible intro _ _ _ _
    | with_reducible intro _ _ _ | with_reducible intro _ _ | with_reducible apply sound_ite_snd
    | with_reducible refine sound_of_snd (by assumption) ?_ | with_reducible refine sound_of_fst (by assumption) ?_
    | with_reducible refine sound_of_trd (by assumption) ?_ | with_reducible apply sound_foldl_fst | with_reducible apply sound_foldl_snd
    | split | dsimp only | simp only [sound_mk, sound_mk_evl]

theorem State.pairCheck_sound {s : State} (hs : s.Sound) (p : Nat) (a : CheckSmp) (b : CheckSmp) : (State.pairCheck s p a b).Sound := by
  unfold State.pairCheck
  try dsimp only
  repeat' first
    | with_reducible assumption | with_reducible apply State.dacCheck_sound | with_reducible apply State.sendAchk_sound
    | with_reducible apply State.arbCheck_sound | with_reducible apply State.compareCheck_sound | with_reducible apply outSound_next
    | with_reducible apply sound_ite | with_reducible apply outSound_ite | with_reducible apply sound_foldl | with_reducible intro _ _ _ _
    | with_reducible intro _ _ _ | with_reducible intro _ _ | with_reducible apply sound_ite_snd
    | with_reducible refine sound_of_snd (by assumption) ?_ | with_reducible refine sound_of_fst (by assumption) ?_
    | with_reducible refine sound_of_trd (by assumption) ?_ | with_reducible apply sound_foldl_fst | with_reducible apply sound_foldl_snd
    | split | dsimp only | simp only [sound_mk, sound_mk_evl]

theorem execRefMonitorFault_sound {s : State} (hs : s.Sound) (k : Fin 20) : OutSound (execRefMonitorFault k s) := by
  unfold execRefMonitorFault
  try dsimp only
  repeat' first
    | with_reducible assumption | with_reducible apply State.convTransient_sound | with_reducible apply State.setConv_sound
    | with_reducible apply outSound_next

theorem execPairCheck_sound {s : State} (hs : s.Sound) (p : Fin 8) (u : Unit) : OutSound (execPairCheck p u s) := by
  unfold execPairCheck
  try dsimp only
  repeat' first
    | with_reducible assumption | with_reducible apply State.pairCheck_sound | with_reducible apply State.setPair_sound
    | with_reducible apply outSound_next | with_reducible apply sound_ite | with_reducible apply outSound_ite
    | with_reducible apply sound_foldl | with_reducible intro _ _ _ _ | with_reducible intro _ _ _ | with_reducible intro _ _
    | with_reducible apply sound_ite_snd | with_reducible refine sound_of_snd (by assumption) ?_
    | with_reducible refine sound_of_fst (by assumption) ?_ | with_reducible refine sound_of_trd (by assumption) ?_
    | with_reducible apply sound_foldl_fst | with_reducible apply sound_foldl_snd | split

theorem execCalCommitDone_sound {s : State} (hs : s.Sound) (ok : Bool) : OutSound (execCalCommitDone ok s) := by
  unfold execCalCommitDone
  try dsimp only
  repeat' first
    | with_reducible assumption | with_reducible apply State.writeCal_sound | with_reducible apply State.log_sound
    | with_reducible apply State.calIdle_sound | with_reducible apply State.calRefuse_sound | with_reducible apply outSound_next
    | with_reducible apply sound_ite | with_reducible apply outSound_ite

theorem execConvSettleEnd_sound {s : State} (hs : s.Sound) (k : Fin 20) : OutSound (execConvSettleEnd k s) := by
  unfold execConvSettleEnd
  try dsimp only
  repeat' first
    | with_reducible assumption | with_reducible apply State.setConv_sound | with_reducible apply outSound_next
    | with_reducible apply sound_ite | with_reducible apply outSound_ite | with_reducible apply sound_foldl | with_reducible intro _ _ _ _
    | with_reducible intro _ _ _ | with_reducible intro _ _ | with_reducible apply sound_ite_snd
    | with_reducible refine sound_of_snd (by assumption) ?_ | with_reducible refine sound_of_fst (by assumption) ?_
    | with_reducible refine sound_of_trd (by assumption) ?_ | with_reducible apply sound_foldl_fst | with_reducible apply sound_foldl_snd
    | split

theorem execConvEnd_sound {s : State} (hs : s.Sound) (k : Fin 20) (codes : List Int) : OutSound (execConvEnd k codes s) := by
  unfold execConvEnd
  try dsimp only
  repeat' first
    | with_reducible assumption | with_reducible apply State.convFinish_sound | with_reducible apply outSound_next
    | with_reducible apply sound_ite | with_reducible apply outSound_ite | with_reducible apply sound_foldl | with_reducible intro _ _ _ _
    | with_reducible intro _ _ _ | with_reducible intro _ _ | with_reducible apply sound_ite_snd
    | with_reducible refine sound_of_snd (by assumption) ?_ | with_reducible refine sound_of_fst (by assumption) ?_
    | with_reducible refine sound_of_trd (by assumption) ?_ | with_reducible apply sound_foldl_fst | with_reducible apply sound_foldl_snd
    | split

theorem execConvEntryStart_sound {s : State} (hs : s.Sound) (k : Fin 20) (e : Fin 1024) (cseq : Word) : OutSound (execConvEntryStart k e cseq s) := by
  unfold execConvEntryStart
  try dsimp only
  repeat' first
    | with_reducible assumption | with_reducible apply State.convReach_sound | with_reducible apply State.setConv_sound
    | with_reducible apply outSound_next | with_reducible apply sound_ite | with_reducible apply outSound_ite
    | with_reducible apply sound_foldl | with_reducible intro _ _ _ _ | with_reducible intro _ _ _ | with_reducible intro _ _
    | with_reducible apply sound_ite_snd | with_reducible refine sound_of_snd (by assumption) ?_
    | with_reducible refine sound_of_fst (by assumption) ?_ | with_reducible refine sound_of_trd (by assumption) ?_
    | with_reducible apply sound_foldl_fst | with_reducible apply sound_foldl_snd | split

end Sys2Proof.Machine
end

