-- ==== Sys2Proof/Laws/SoundVltOps.lean ====
section
/-! SUPPORT. The operations and commands of Machine/VltOps.lean keep a sound state sound. -/
namespace Sys2Proof.Machine

theorem State.extendMeas_sound {s : State} (hs : s.Sound) (r : Nat) (d : List Nat) : (State.extendMeas s r d).Sound := by
  unfold State.extendMeas
  try dsimp only
  repeat' first
    | with_reducible assumption | with_reducible apply State.setNum_sound | with_reducible apply outSound_next
    | with_reducible apply sound_ite | with_reducible apply outSound_ite | with_reducible apply sound_foldl | with_reducible intro _ _ _ _
    | with_reducible intro _ _ _

end Sys2Proof.Machine
end

