-- ==== Sys2Proof/Laws/SoundRceOps.lean ====
section
/-! SUPPORT. The operations and commands of Machine/RceOps.lean keep a sound state sound. -/
namespace Sys2Proof.Machine

theorem State.setRecCrew_sound {s : State} (hs : s.Sound) (m : Nat) (c : RecCrew) : (State.setRecCrew s m c).Sound := by
  unfold State.setRecCrew
  try dsimp only
  repeat' first
    | with_reducible assumption | with_reducible apply outSound_next | with_reducible apply sound_ite | with_reducible apply outSound_ite
    | with_reducible apply sound_foldl | with_reducible intro _ _ _ _ | with_reducible intro _ _ _ | with_reducible intro _ _
    | with_reducible apply sound_ite_snd | with_reducible refine sound_of_snd (by assumption) ?_
    | with_reducible refine sound_of_fst (by assumption) ?_ | with_reducible refine sound_of_trd (by assumption) ?_
    | with_reducible apply sound_foldl_fst | with_reducible apply sound_foldl_snd | split | dsimp only | simp only [sound_mk, sound_mk_evl]

theorem State.setCap_sound {s : State} (hs : s.Sound) (c : Nat) (x : Cap) : (State.setCap s c x).Sound := by
  unfold State.setCap
  try dsimp only
  repeat' first
    | with_reducible assumption | with_reducible apply outSound_next | with_reducible apply sound_ite | with_reducible apply outSound_ite
    | with_reducible apply sound_foldl | with_reducible intro _ _ _ _ | with_reducible intro _ _ _ | with_reducible intro _ _
    | with_reducible apply sound_ite_snd | with_reducible refine sound_of_snd (by assumption) ?_
    | with_reducible refine sound_of_fst (by assumption) ?_ | with_reducible refine sound_of_trd (by assumption) ?_
    | with_reducible apply sound_foldl_fst | with_reducible apply sound_foldl_snd | split | dsimp only | simp only [sound_mk, sound_mk_evl]

theorem State.capCause_sound {s : State} (hs : s.Sound) (c : Nat) (x : TrgCause) (cseq : Nat) : (State.capCause s c x cseq).Sound := by
  unfold State.capCause
  try dsimp only
  repeat' first
    | with_reducible assumption | with_reducible apply State.setCap_sound | with_reducible apply outSound_next
    | with_reducible apply sound_ite

theorem State.fireTrigger_sound {s : State} (hs : s.Sound) (t : Nat) (cseq : Nat) : (State.fireTrigger s t cseq).Sound := by
  unfold State.fireTrigger
  try dsimp only
  repeat' first
    | with_reducible assumption | with_reducible apply State.setRbit_sound | with_reducible apply State.setNum_sound
    | with_reducible apply State.logPerSecond_sound | with_reducible apply State.capCause_sound | with_reducible apply outSound_next
    | with_reducible apply sound_ite | with_reducible apply outSound_ite | with_reducible apply sound_foldl | with_reducible intro _ _ _ _
    | with_reducible intro _ _ _

theorem State.fireRecipe_sound {s : State} (hs : s.Sound) (r : Nat) (sub : Nat) (value : Nat) (cseq : Nat) : (State.fireRecipe s r sub value cseq).Sound := by
  unfold State.fireRecipe
  try dsimp only
  repeat' first
    | with_reducible assumption | with_reducible apply State.fireTrigger_sound | with_reducible apply outSound_next
    | with_reducible apply sound_ite | with_reducible apply outSound_ite | with_reducible apply sound_foldl | with_reducible intro _ _ _ _
    | with_reducible intro _ _ _

theorem State.setSlot_sound {s : State} (hs : s.Sound) (r : Nat) (x : SeqSlot) : (State.setSlot s r x).Sound := by
  unfold State.setSlot
  try dsimp only
  repeat' first
    | with_reducible assumption | with_reducible apply outSound_next | with_reducible apply sound_ite | with_reducible apply outSound_ite
    | with_reducible apply sound_foldl | with_reducible intro _ _ _ _ | with_reducible intro _ _ _ | with_reducible intro _ _
    | with_reducible apply sound_ite_snd | with_reducible refine sound_of_snd (by assumption) ?_
    | with_reducible refine sound_of_fst (by assumption) ?_ | with_reducible refine sound_of_trd (by assumption) ?_
    | with_reducible apply sound_foldl_fst | with_reducible apply sound_foldl_snd | split | dsimp only | simp only [sound_mk, sound_mk_evl]

theorem State.setRce_sound {s : State} (hs : s.Sound) (r : RecState) : (State.setRce s r).Sound := by
  unfold State.setRce
  try dsimp only
  repeat' first
    | with_reducible assumption | with_reducible apply outSound_next | with_reducible apply sound_ite | with_reducible apply outSound_ite
    | with_reducible apply sound_foldl | with_reducible intro _ _ _ _ | with_reducible intro _ _ _ | with_reducible intro _ _
    | with_reducible apply sound_ite_snd | with_reducible refine sound_of_snd (by assumption) ?_
    | with_reducible refine sound_of_fst (by assumption) ?_ | with_reducible refine sound_of_trd (by assumption) ?_
    | with_reducible apply sound_foldl_fst | with_reducible apply sound_foldl_snd | split | dsimp only | simp only [sound_mk, sound_mk_evl]

theorem State.appendRow_sound {s : State} (hs : s.Sound) (row : List Nat × Stamp × Bool) : (State.appendRow s row).Sound := by
  unfold State.appendRow
  try dsimp only
  repeat' first
    | with_reducible assumption | with_reducible apply State.setRce_sound | with_reducible apply State.wrList_sound
    | with_reducible apply outSound_next | with_reducible apply sound_ite | with_reducible apply outSound_ite
    | with_reducible apply sound_foldl | with_reducible intro _ _ _ _ | with_reducible intro _ _ _ | with_reducible intro _ _
    | with_reducible apply sound_ite_snd | with_reducible refine sound_of_snd (by assumption) ?_
    | with_reducible refine sound_of_fst (by assumption) ?_ | with_reducible refine sound_of_trd (by assumption) ?_
    | with_reducible apply sound_foldl_fst | with_reducible apply sound_foldl_snd | split

theorem State.writeRow_sound {s : State} (hs : s.Sound) (kind : Nat) (crew : Nat) (cseq : Nat) (t : Stamp) (es : List (Nat × Nat)) : (State.writeRow s kind crew cseq t es).Sound := by
  unfold State.writeRow
  try dsimp only
  repeat' first
    | with_reducible assumption | with_reducible apply State.appendRow_sound

theorem State.recModule_sound {s : State} (hs : s.Sound) (code : Nat) (word1 : Nat) (more : List (Nat × Nat)) : (State.recModule s code word1 more).Sound := by
  unfold State.recModule
  try dsimp only
  repeat' first
    | with_reducible assumption | with_reducible apply State.writeRow_sound

theorem State.setTrg_sound {s : State} (hs : s.Sound) (t : Nat) (h : TrgHist) : (State.setTrg s t h).Sound := by
  unfold State.setTrg
  try dsimp only
  repeat' first
    | with_reducible assumption | with_reducible apply outSound_next | with_reducible apply sound_ite | with_reducible apply outSound_ite
    | with_reducible apply sound_foldl | with_reducible intro _ _ _ _ | with_reducible intro _ _ _ | with_reducible intro _ _
    | with_reducible apply sound_ite_snd | with_reducible refine sound_of_snd (by assumption) ?_
    | with_reducible refine sound_of_fst (by assumption) ?_ | with_reducible refine sound_of_trd (by assumption) ?_
    | with_reducible apply sound_foldl_fst | with_reducible apply sound_foldl_snd | split | dsimp only | simp only [sound_mk, sound_mk_evl]

theorem State.catchAt_sound {s : State} (hs : s.Sound) (m : Nat) (t : Stamp) : (State.catchAt s m t).2.Sound := by
  unfold State.catchAt
  try dsimp only
  repeat' first
    | with_reducible assumption | with_reducible apply State.freshNat_sound | with_reducible apply outSound_next
    | with_reducible apply sound_ite | with_reducible apply outSound_ite | with_reducible apply sound_foldl | with_reducible intro _ _ _ _
    | with_reducible intro _ _ _ | with_reducible intro _ _ | with_reducible apply sound_ite_snd
    | with_reducible refine sound_of_snd (by assumption) ?_ | with_reducible refine sound_of_fst (by assumption) ?_
    | with_reducible refine sound_of_trd (by assumption) ?_ | with_reducible apply sound_foldl_fst | with_reducible apply sound_foldl_snd
    | split | dsimp only | simp only [sound_mk, sound_mk_evl]

theorem State.fireDin_sound {s : State} (hs : s.Sound) (n : Nat) (t : Stamp) (rising : Bool) : (State.fireDin s n t rising).Sound := by
  unfold State.fireDin
  try dsimp only
  repeat' first
    | with_reducible assumption | with_reducible apply State.catchAt_sound | with_reducible apply State.fireTrigger_sound
    | with_reducible apply outSound_next | with_reducible apply sound_ite | with_reducible apply outSound_ite
    | with_reducible apply sound_foldl | with_reducible intro _ _ _ _ | with_reducible intro _ _ _

theorem State.catchTime_sound {s : State} (hs : s.Sound) (m : Nat) (cseq : Nat) : (State.catchTime s m cseq).2.Sound := by
  unfold State.catchTime
  try dsimp only
  repeat' first
    | with_reducible assumption | with_reducible apply State.freshNat_sound | with_reducible apply outSound_next
    | with_reducible apply sound_ite | with_reducible apply outSound_ite | with_reducible apply sound_foldl | with_reducible intro _ _ _ _
    | with_reducible intro _ _ _ | with_reducible intro _ _ | with_reducible apply sound_ite_snd
    | with_reducible refine sound_of_snd (by assumption) ?_ | with_reducible refine sound_of_fst (by assumption) ?_
    | with_reducible refine sound_of_trd (by assumption) ?_ | with_reducible apply sound_foldl_fst | with_reducible apply sound_foldl_snd
    | split

theorem State.trigRow_sound {s : State} (hs : s.Sound) (m : Nat) (cseq : Nat) (hits : Nat) (primary : Nat) (c : Nat) (src : Nat) (entry : Nat) (set : Nat) : (State.trigRow s m cseq hits primary c src entry set).Sound := by
  unfold State.trigRow
  try dsimp only
  repeat' first
    | with_reducible assumption | with_reducible apply State.catchTime_sound | with_reducible apply State.writeRow_sound

theorem State.seqEnvRequest_sound {s : State} (hs : s.Sound) (m : Nat) (action : Nat) : (State.seqEnvRequest s m action).Sound := by
  unfold State.seqEnvRequest
  try dsimp only
  repeat' first
    | with_reducible assumption | with_reducible apply State.setSlot_sound | with_reducible apply outSound_next
    | with_reducible apply sound_ite | with_reducible apply outSound_ite | with_reducible apply sound_foldl | with_reducible intro _ _ _ _
    | with_reducible intro _ _ _ | with_reducible intro _ _ | with_reducible apply sound_ite_snd
    | with_reducible refine sound_of_snd (by assumption) ?_ | with_reducible refine sound_of_fst (by assumption) ?_
    | with_reducible refine sound_of_trd (by assumption) ?_ | with_reducible apply sound_foldl_fst | with_reducible apply sound_foldl_snd
    | split

theorem State.envAct_sound {s : State} (hs : s.Sound) (m : Nat) (i : Nat) (e : EnvEntry) (cseq : Nat) : (State.envAct s m i e cseq).Sound := by
  unfold State.envAct
  try dsimp only
  repeat' first
    | with_reducible assumption | with_reducible apply State.log_sound | with_reducible apply State.setFld_sound
    | with_reducible apply State.setNum_sound | with_reducible apply State.setRecCrew_sound | with_reducible apply State.capCause_sound
    | with_reducible apply State.trigRow_sound | with_reducible apply State.fireTrigger_sound
    | with_reducible apply State.seqEnvRequest_sound | with_reducible apply outSound_next | with_reducible apply sound_ite
    | with_reducible apply outSound_ite | with_reducible apply sound_foldl | with_reducible intro _ _ _ _ | with_reducible intro _ _ _

theorem State.envTest_sound {s : State} (hs : s.Sound) (m : Nat) (i : Nat) (e : EnvEntry) (cseq : Nat) (viol : Bool) : (State.envTest s m i e cseq viol).Sound := by
  unfold State.envTest
  try dsimp only
  repeat' first
    | with_reducible assumption | with_reducible apply State.setRecCrew_sound | with_reducible apply State.envAct_sound
    | with_reducible apply outSound_next | with_reducible apply sound_ite

end Sys2Proof.Machine
end

