-- ==== Sys2Proof/Laws/SoundTime.lean ====
section
/-! SUPPORT. The operations and commands of Machine/Time.lean keep a sound state sound. -/
namespace Sys2Proof.Machine

theorem State.restartServo_sound {s : State} (hs : s.Sound) : (State.restartServo s).Sound := by
  unfold State.restartServo
  try dsimp only
  repeat' first
    | with_reducible assumption | with_reducible apply State.setTime_sound

theorem State.latchStamp_sound {s : State} (hs : s.Sound) (t : Stamp) (a0 : Nat) (a1 : Nat) (a2 : Nat) : (State.latchStamp s t a0 a1 a2).Sound := by
  unfold State.latchStamp
  try dsimp only
  repeat' first
    | with_reducible assumption | with_reducible apply State.setNum_sound

theorem execTimeSnapshot_sound {s : State} (hs : s.Sound) : OutSound (execTimeSnapshot s) := by
  unfold execTimeSnapshot
  try dsimp only
  repeat' first
    | with_reducible assumption | with_reducible apply State.latchStamp_sound | with_reducible apply outSound_next

theorem State.writeTimeInc_sound {s : State} (hs : s.Sound) (v : Word) : (State.writeTimeInc s v).Sound := by
  unfold State.writeTimeInc
  try dsimp only
  repeat' first
    | with_reducible assumption | with_reducible apply State.restartServo_sound | with_reducible apply State.log_sound
    | with_reducible apply State.setFld_sound | with_reducible apply State.setNum_sound | with_reducible apply State.wr_sound
    | with_reducible apply outSound_next | with_reducible apply sound_ite

theorem execTimeIncWrite_sound {s : State} (hs : s.Sound) (v : Word) : OutSound (execTimeIncWrite v s) := by
  unfold execTimeIncWrite
  try dsimp only
  repeat' first
    | with_reducible assumption | with_reducible apply State.writeTimeInc_sound | with_reducible apply outSound_next

theorem State.writeSlew_sound {s : State} (hs : s.Sound) (v : Word) : (State.writeSlew s v).Sound := by
  unfold State.writeSlew
  try dsimp only
  repeat' first
    | with_reducible assumption | with_reducible apply State.setFld_sound | with_reducible apply State.setTime_sound
    | with_reducible apply outSound_next | with_reducible apply sound_ite

theorem execTimeSlewWrite_sound {s : State} (hs : s.Sound) (v : Word) : OutSound (execTimeSlewWrite v s) := by
  unfold execTimeSlewWrite
  try dsimp only
  repeat' first
    | with_reducible assumption | with_reducible apply State.writeSlew_sound | with_reducible apply outSound_next

theorem State.setTimeState_sound {s : State} (hs : s.Sound) (v : Nat) : (State.setTimeState s v).Sound := by
  unfold State.setTimeState
  try dsimp only
  repeat' first
    | with_reducible assumption | with_reducible apply State.setFld_sound

theorem State.applyStep_sound {s : State} (hs : s.Sound) (load : Bool) : (State.applyStep s load).Sound := by
  unfold State.applyStep
  try dsimp only
  repeat' first
    | with_reducible assumption | with_reducible apply State.setTime_sound | with_reducible apply State.setTimeState_sound
    | with_reducible apply State.recModule_sound | with_reducible apply State.log_sound | with_reducible apply outSound_next
    | with_reducible apply sound_ite

theorem State.stepGo_sound {s : State} (hs : s.Sound) (load : Bool) : (State.stepGo s load).Sound := by
  unfold State.stepGo
  try dsimp only
  repeat' first
    | with_reducible assumption | with_reducible apply State.setFld_sound | with_reducible apply State.log_sound
    | with_reducible apply State.applyStep_sound | with_reducible apply outSound_next | with_reducible apply sound_ite

theorem execTimeStepGo_sound {s : State} (hs : s.Sound) (load : Bool) : OutSound (execTimeStepGo load s) := by
  unfold execTimeStepGo
  try dsimp only
  repeat' first
    | with_reducible assumption | with_reducible apply State.stepGo_sound | with_reducible apply outSound_next

theorem State.writeTimeState_sound {s : State} (hs : s.Sound) (v : Nat) : (State.writeTimeState s v).Sound := by
  unfold State.writeTimeState
  try dsimp only
  repeat' first
    | with_reducible assumption | with_reducible apply State.setTime_sound | with_reducible apply State.restartServo_sound
    | with_reducible apply State.setTimeState_sound | with_reducible apply State.recModule_sound | with_reducible apply State.log_sound
    | with_reducible apply outSound_next | with_reducible apply sound_ite | with_reducible apply outSound_ite
    | with_reducible apply sound_foldl | with_reducible intro _ _ _ _ | with_reducible intro _ _ _ | with_reducible intro _ _
    | with_reducible apply sound_ite_snd | with_reducible refine sound_of_snd (by assumption) ?_
    | with_reducible refine sound_of_fst (by assumption) ?_ | with_reducible refine sound_of_trd (by assumption) ?_
    | with_reducible apply sound_foldl_fst | with_reducible apply sound_foldl_snd | split

theorem execTimeStateWrite_sound {s : State} (hs : s.Sound) (v : BitVec 2) : OutSound (execTimeStateWrite v s) := by
  unfold execTimeStateWrite
  try dsimp only
  repeat' first
    | with_reducible assumption | with_reducible apply State.writeTimeState_sound | with_reducible apply outSound_next

theorem State.forgetCatch_sound {s : State} (hs : s.Sound) (m : Nat) : (State.forgetCatch s m).Sound := by
  unfold State.forgetCatch
  try dsimp only
  repeat' first
    | with_reducible assumption | with_reducible apply State.setCox_sound | with_reducible apply outSound_next
    | with_reducible apply sound_ite | with_reducible apply outSound_ite | with_reducible apply sound_foldl | with_reducible intro _ _ _ _
    | with_reducible intro _ _ _ | with_reducible intro _ _ | with_reducible apply sound_ite_snd
    | with_reducible refine sound_of_snd (by assumption) ?_ | with_reducible refine sound_of_fst (by assumption) ?_
    | with_reducible refine sound_of_trd (by assumption) ?_ | with_reducible apply sound_foldl_fst | with_reducible apply sound_foldl_snd
    | split | dsimp only | simp only [sound_mk, sound_mk_evl]

theorem State.ctStart_sound {s : State} (hs : s.Sound) (m : Nat) : (State.ctStart s m).Sound := by
  unfold State.ctStart
  try dsimp only
  repeat' first
    | with_reducible assumption | with_reducible apply State.setFld_sound | with_reducible apply State.forgetCatch_sound
    | with_reducible apply State.setTab_sound | with_reducible apply outSound_next | with_reducible apply sound_ite
    | with_reducible apply outSound_ite | with_reducible apply sound_foldl | with_reducible intro _ _ _ _ | with_reducible intro _ _ _
    | with_reducible intro _ _ | with_reducible apply sound_ite_snd | with_reducible refine sound_of_snd (by assumption) ?_
    | with_reducible refine sound_of_fst (by assumption) ?_ | with_reducible refine sound_of_trd (by assumption) ?_
    | with_reducible apply sound_foldl_fst | with_reducible apply sound_foldl_snd | split

theorem execCtGroupGo_sound {s : State} (hs : s.Sound) (mask : BitVec 8) : OutSound (execCtGroupGo mask s) := by
  unfold execCtGroupGo
  try dsimp only
  repeat' first
    | with_reducible assumption | with_reducible apply State.ctStart_sound | with_reducible apply outSound_next
    | with_reducible apply sound_ite | with_reducible apply outSound_ite | with_reducible apply sound_foldl | with_reducible intro _ _ _ _
    | with_reducible intro _ _ _

theorem State.ctStop_sound {s : State} (hs : s.Sound) (m : Nat) : (State.ctStop s m).Sound := by
  unfold State.ctStop
  try dsimp only
  repeat' first
    | with_reducible assumption | with_reducible apply State.setFld_sound | with_reducible apply State.setTab_sound
    | with_reducible apply outSound_next | with_reducible apply sound_ite | with_reducible apply outSound_ite
    | with_reducible apply sound_foldl | with_reducible intro _ _ _ _ | with_reducible intro _ _ _ | with_reducible intro _ _
    | with_reducible apply sound_ite_snd | with_reducible refine sound_of_snd (by assumption) ?_
    | with_reducible refine sound_of_fst (by assumption) ?_ | with_reducible refine sound_of_trd (by assumption) ?_
    | with_reducible apply sound_foldl_fst | with_reducible apply sound_foldl_snd | split

theorem execCtRunWrite_sound {s : State} (hs : s.Sound) (m : Fin 8) (run : Bool) : OutSound (execCtRunWrite m run s) := by
  unfold execCtRunWrite
  try dsimp only
  repeat' first
    | with_reducible assumption | with_reducible apply State.ctStart_sound | with_reducible apply State.ctStop_sound
    | with_reducible apply outSound_next | with_reducible apply sound_ite

theorem execPpsCaptureRead_sound {s : State} (hs : s.Sound) : OutSound (execPpsCaptureRead s) := by
  unfold execPpsCaptureRead
  try dsimp only
  repeat' first
    | with_reducible assumption | with_reducible apply State.setBus_sound | with_reducible apply State.setFld_sound
    | with_reducible apply outSound_next

theorem execDinFifoPop_sound {s : State} (hs : s.Sound) (n : Fin 64) : OutSound (execDinFifoPop n s) := by
  unfold execDinFifoPop
  try dsimp only
  repeat' first
    | with_reducible assumption | with_reducible apply State.setBus_sound | with_reducible apply State.setDin_sound
    | with_reducible apply outSound_next | with_reducible apply sound_ite | with_reducible apply outSound_ite
    | with_reducible apply sound_foldl | with_reducible intro _ _ _ _ | with_reducible intro _ _ _ | with_reducible intro _ _
    | with_reducible apply sound_ite_snd | with_reducible refine sound_of_snd (by assumption) ?_
    | with_reducible refine sound_of_fst (by assumption) ?_ | with_reducible refine sound_of_trd (by assumption) ?_
    | with_reducible apply sound_foldl_fst | with_reducible apply sound_foldl_snd | split

theorem State.setCourseState_sound {s : State} (hs : s.Sound) (c : Nat) (v : Nat) : (State.setCourseState s c v).Sound := by
  unfold State.setCourseState
  try dsimp only
  repeat' first
    | with_reducible assumption | with_reducible apply State.setFld_sound | with_reducible apply State.log_sound
    | with_reducible apply State.countFld_sound | with_reducible apply outSound_next | with_reducible apply sound_ite

theorem State.dinPush_sound {s : State} (hs : s.Sound) (n : Nat) (t : Stamp) (rising : Bool) : (State.dinPush s n t rising).Sound := by
  unfold State.dinPush
  try dsimp only
  repeat' first
    | with_reducible assumption | with_reducible apply State.setDin_sound | with_reducible apply State.log_sound
    | with_reducible apply State.setRbit_sound | with_reducible apply outSound_next | with_reducible apply sound_ite

theorem State.dinQualify_sound {s : State} (hs : s.Sound) (n : Nat) : (State.dinQualify s n).Sound := by
  unfold State.dinQualify
  try dsimp only
  repeat' first
    | with_reducible assumption | with_reducible apply State.setDin_sound | with_reducible apply State.fireDin_sound
    | with_reducible apply State.dinPush_sound | with_reducible apply State.setRbit_sound | with_reducible apply outSound_next
    | with_reducible apply sound_ite

theorem State.mainsAt_sound {s : State} (hs : s.Sound) (period : Nat) (peakMv : Nat) (c : Nat) : (State.mainsAt s period peakMv c).Sound := by
  unfold State.mainsAt
  try dsimp only
  repeat' first
    | with_reducible assumption | with_reducible apply State.setCourseState_sound | with_reducible apply State.setFld_sound
    | with_reducible apply State.setCourse_sound | with_reducible apply State.log_sound | with_reducible apply outSound_next
    | with_reducible apply sound_ite | with_reducible apply outSound_ite | with_reducible apply sound_foldl | with_reducible intro _ _ _ _
    | with_reducible intro _ _ _ | with_reducible intro _ _ | with_reducible apply sound_ite_snd
    | with_reducible refine sound_of_snd (by assumption) ?_ | with_reducible refine sound_of_fst (by assumption) ?_
    | with_reducible refine sound_of_trd (by assumption) ?_ | with_reducible apply sound_foldl_fst | with_reducible apply sound_foldl_snd
    | split

theorem State.issueCatch_sound {s : State} (hs : s.Sound) (m : Nat) (o : Int) (skipped : Nat) : (State.issueCatch s m o skipped).Sound := by
  unfold State.issueCatch
  try dsimp only
  repeat' first
    | with_reducible assumption | with_reducible apply State.setInflight_sound | with_reducible apply State.convCatch_sound
    | with_reducible apply State.setNum_sound | with_reducible apply State.log_sound | with_reducible apply State.setRbit_sound
    | with_reducible apply State.count_sound | with_reducible apply outSound_next | with_reducible apply sound_ite

theorem execCatchIssue_sound {s : State} (hs : s.Sound) (m : Fin 8) : OutSound (execCatchIssue m s) := by
  unfold execCatchIssue
  try dsimp only
  repeat' first
    | with_reducible assumption | with_reducible apply State.setTab_sound | with_reducible apply State.issueCatch_sound
    | with_reducible apply State.setFld_sound | with_reducible apply outSound_next | with_reducible apply sound_ite
    | with_reducible apply outSound_ite

theorem execPpsOutRise_sound {s : State} (hs : s.Sound) : OutSound (execPpsOutRise s) := by
  unfold execPpsOutRise
  try dsimp only
  repeat' first
    | with_reducible assumption | with_reducible apply State.setTime_sound | with_reducible apply outSound_next
    | with_reducible apply sound_ite | with_reducible apply outSound_ite

theorem State.courseStep_sound {s : State} (hs : s.Sound) (c : Nat) : (State.courseStep s c).Sound := by
  unfold State.courseStep
  try dsimp only
  repeat' first
    | with_reducible assumption | with_reducible apply State.setCourse_sound | with_reducible apply State.freshInt_sound
    | with_reducible apply outSound_next | with_reducible apply sound_ite | with_reducible apply outSound_ite
    | with_reducible apply sound_foldl | with_reducible intro _ _ _ _ | with_reducible intro _ _ _ | with_reducible intro _ _
    | with_reducible apply sound_ite_snd | with_reducible refine sound_of_snd (by assumption) ?_
    | with_reducible refine sound_of_fst (by assumption) ?_ | with_reducible refine sound_of_trd (by assumption) ?_
    | with_reducible apply sound_foldl_fst | with_reducible apply sound_foldl_snd | split

theorem State.raiseHigh_sound {s : State} (hs : s.Sound) (m : Nat) : (State.raiseHigh s m).Sound := by
  unfold State.raiseHigh
  try dsimp only
  repeat' first
    | with_reducible assumption | with_reducible apply State.setTab_sound | with_reducible apply outSound_next
    | with_reducible apply sound_ite | with_reducible apply outSound_ite | with_reducible apply sound_foldl | with_reducible intro _ _ _ _
    | with_reducible intro _ _ _ | with_reducible intro _ _ | with_reducible apply sound_ite_snd
    | with_reducible refine sound_of_snd (by assumption) ?_ | with_reducible refine sound_of_fst (by assumption) ?_
    | with_reducible refine sound_of_trd (by assumption) ?_ | with_reducible apply sound_foldl_fst | with_reducible apply sound_foldl_snd
    | split

theorem execCourseUpdate_sound {s : State} (hs : s.Sound) : OutSound (execCourseUpdate s) := by
  unfold execCourseUpdate
  try dsimp only
  repeat' first
    | with_reducible assumption | with_reducible apply State.courseStep_sound | with_reducible apply State.raiseHigh_sound
    | with_reducible apply outSound_next | with_reducible apply sound_ite | with_reducible apply outSound_ite
    | with_reducible apply sound_foldl | with_reducible intro _ _ _ _ | with_reducible intro _ _ _

theorem State.coursesOn_sound {s : State} (hs : s.Sound) : (State.coursesOn s).Sound := by
  unfold State.coursesOn
  try dsimp only
  repeat' first
    | with_reducible assumption | with_reducible apply State.setCourseState_sound | with_reducible apply State.setCourse_sound
    | with_reducible apply outSound_next | with_reducible apply sound_ite | with_reducible apply outSound_ite
    | with_reducible apply sound_foldl | with_reducible intro _ _ _ _ | with_reducible intro _ _ _ | with_reducible intro _ _
    | with_reducible apply sound_ite_snd | with_reducible refine sound_of_snd (by assumption) ?_
    | with_reducible refine sound_of_fst (by assumption) ?_ | with_reducible refine sound_of_trd (by assumption) ?_
    | with_reducible apply sound_foldl_fst | with_reducible apply sound_foldl_snd | split | dsimp only | simp only [sound_mk, sound_mk_evl]

theorem State.tick_sound {s : State} (hs : s.Sound) : (State.tick s).Sound := by
  unfold State.tick
  try dsimp only
  repeat' first
    | with_reducible assumption | with_reducible apply State.setTime_sound

theorem State.setElapsed_sound {s : State} (hs : s.Sound) (ms : Nat) : (State.setElapsed s ms).Sound := by
  unfold State.setElapsed
  try dsimp only
  repeat' first
    | with_reducible assumption | with_reducible apply State.setNum64_sound

theorem State.aonKeep_sound {s : State} (hs : s.Sound) : (State.aonKeep s).Sound := by
  unfold State.aonKeep
  try dsimp only
  repeat' first
    | with_reducible assumption | with_reducible apply State.setTime_sound

theorem execMainsCrossing_sound {s : State} (hs : s.Sound) (period : Nat) (peakMv : Nat) : OutSound (execMainsCrossing period peakMv s) := by
  unfold execMainsCrossing
  try dsimp only
  repeat' first
    | with_reducible assumption | with_reducible apply State.mainsAt_sound | with_reducible apply outSound_next
    | with_reducible apply sound_ite | with_reducible apply outSound_ite | with_reducible apply sound_foldl | with_reducible intro _ _ _ _
    | with_reducible intro _ _ _

theorem execPpsOutFall_sound {s : State} (hs : s.Sound) : OutSound (execPpsOutFall s) := by
  unfold execPpsOutFall
  try dsimp only
  repeat' first
    | with_reducible assumption | with_reducible apply State.setTime_sound | with_reducible apply outSound_next

theorem execPpsInEdge_sound {s : State} (hs : s.Sound) (rising : Bool) : OutSound (execPpsInEdge rising s) := by
  unfold execPpsInEdge
  try dsimp only
  repeat' first
    | with_reducible assumption | with_reducible apply State.log_sound | with_reducible apply State.setFld_sound
    | with_reducible apply State.latchStamp_sound | with_reducible apply outSound_next | with_reducible apply sound_ite
    | with_reducible apply outSound_ite

theorem execMainsHoldoverTimeout_sound {s : State} (hs : s.Sound) (c : Fin 4) : OutSound (execMainsHoldoverTimeout c s) := by
  unfold execMainsHoldoverTimeout
  try dsimp only
  repeat' first
    | with_reducible assumption | with_reducible apply State.setCourseState_sound | with_reducible apply State.setCourse_sound
    | with_reducible apply outSound_next | with_reducible apply sound_ite | with_reducible apply outSound_ite

theorem execAonTimeSnapshot_sound {s : State} (hs : s.Sound) : OutSound (execAonTimeSnapshot s) := by
  unfold execAonTimeSnapshot
  try dsimp only
  repeat' first
    | with_reducible assumption | with_reducible apply State.aonKeep_sound | with_reducible apply State.setElapsed_sound
    | with_reducible apply outSound_next

theorem execServoWdExpire_sound {s : State} (hs : s.Sound) : OutSound (execServoWdExpire s) := by
  unfold execServoWdExpire
  try dsimp only
  repeat' first
    | with_reducible assumption | with_reducible apply State.setFld_sound | with_reducible apply State.setTimeState_sound
    | with_reducible apply State.setTime_sound | with_reducible apply State.recModule_sound | with_reducible apply State.log_sound
    | with_reducible apply outSound_next | with_reducible apply sound_ite | with_reducible apply outSound_ite

end Sys2Proof.Machine
end

