-- ==== Sys2Proof/Laws/SoundMotion.lean ====
section
/-! SUPPORT. The operations and commands of Machine/Motion.lean keep a sound state sound. -/
namespace Sys2Proof.Machine

theorem State.setAxis_sound {s : State} (hs : s.Sound) (a : Nat) (x : Axis) : (State.setAxis s a x).Sound := by
  unfold State.setAxis
  try dsimp only
  repeat' first
    | with_reducible assumption | with_reducible apply outSound_next | with_reducible apply sound_ite | with_reducible apply outSound_ite
    | with_reducible apply sound_foldl | with_reducible intro _ _ _ _ | with_reducible intro _ _ _ | with_reducible intro _ _
    | with_reducible apply sound_ite_snd | with_reducible refine sound_of_snd (by assumption) ?_
    | with_reducible refine sound_of_fst (by assumption) ?_ | with_reducible refine sound_of_trd (by assumption) ?_
    | with_reducible apply sound_foldl_fst | with_reducible apply sound_foldl_snd | split | dsimp only | simp only [sound_mk, sound_mk_evl]

theorem State.homeLeg_sound {s : State} (hs : s.Sound) (a : Nat) (h : Home) (phase : HomePhase) (neg : Bool) : (State.homeLeg s a h phase neg).Sound := by
  unfold State.homeLeg
  try dsimp only
  repeat' first
    | with_reducible assumption | with_reducible apply State.setAxis_sound

theorem State.axQueue_sound {s : State} (hs : s.Sound) (a : Nat) (cmd : Nat) (arg : Nat) : (State.axQueue s a cmd arg).Sound := by
  unfold State.axQueue
  try dsimp only
  repeat' first
    | with_reducible assumption | with_reducible apply State.setAxis_sound | with_reducible apply outSound_next
    | with_reducible apply sound_ite | with_reducible apply outSound_ite | with_reducible apply sound_foldl | with_reducible intro _ _ _ _
    | with_reducible intro _ _ _ | with_reducible intro _ _ | with_reducible apply sound_ite_snd
    | with_reducible refine sound_of_snd (by assumption) ?_ | with_reducible refine sound_of_fst (by assumption) ?_
    | with_reducible refine sound_of_trd (by assumption) ?_ | with_reducible apply sound_foldl_fst | with_reducible apply sound_foldl_snd
    | split | dsimp only | simp only [sound_mk, sound_mk_evl]

theorem execAxisEnable_sound {s : State} (hs : s.Sound) (a : Fin 32) : OutSound (execAxisEnable a s) := by
  unfold execAxisEnable
  try dsimp only
  repeat' first
    | with_reducible assumption | with_reducible apply State.axQueue_sound | with_reducible apply outSound_next
    | with_reducible apply sound_ite | with_reducible apply outSound_ite | with_reducible apply sound_foldl | with_reducible intro _ _ _ _
    | with_reducible intro _ _ _ | with_reducible intro _ _ | with_reducible apply sound_ite_snd
    | with_reducible refine sound_of_snd (by assumption) ?_ | with_reducible refine sound_of_fst (by assumption) ?_
    | with_reducible refine sound_of_trd (by assumption) ?_ | with_reducible apply sound_foldl_fst | with_reducible apply sound_foldl_snd
    | split

theorem State.axLog_sound {s : State} (hs : s.Sound) (a : Nat) (code : Nat) (detail : Nat) : (State.axLog s a code detail).Sound := by
  unfold State.axLog
  try dsimp only
  repeat' first
    | with_reducible assumption | with_reducible apply State.log_sound

theorem State.axRefuse_sound {s : State} (hs : s.Sound) (n : Nat) (a : Nat) (code : Nat) (cmd : Nat) : (State.axRefuse s n a code cmd).Sound := by
  unfold State.axRefuse
  try dsimp only
  repeat' first
    | with_reducible assumption | with_reducible apply State.axLog_sound | with_reducible apply State.setFld_sound

theorem State.motStatus_sound {s : State} (hs : s.Sound) (n : Nat) (a : Nat) (b : Nat) : (State.motStatus s n a b).Sound := by
  unfold State.motStatus
  try dsimp only
  repeat' first
    | with_reducible assumption | with_reducible apply State.setRbit_sound

theorem State.homeFail_sound {s : State} (hs : s.Sound) (n : Nat) (a : Nat) (code : Nat) : (State.homeFail s n a code).Sound := by
  unfold State.homeFail
  try dsimp only
  repeat' first
    | with_reducible assumption | with_reducible apply State.axLog_sound | with_reducible apply State.motStatus_sound
    | with_reducible apply State.setAxis_sound | with_reducible apply outSound_next | with_reducible apply sound_ite
    | with_reducible apply outSound_ite | with_reducible apply sound_foldl | with_reducible intro _ _ _ _ | with_reducible intro _ _ _
    | with_reducible intro _ _ | with_reducible apply sound_ite_snd | with_reducible refine sound_of_snd (by assumption) ?_
    | with_reducible refine sound_of_fst (by assumption) ?_ | with_reducible refine sound_of_trd (by assumption) ?_
    | with_reducible apply sound_foldl_fst | with_reducible apply sound_foldl_snd | split

theorem State.freeTable_sound {s : State} (hs : s.Sound) (n : Nat) (a : Nat) (k : Nat) : (State.freeTable s n a k).Sound := by
  unfold State.freeTable
  try dsimp only
  repeat' first
    | with_reducible assumption | with_reducible apply State.setFld_sound | with_reducible apply outSound_next
    | with_reducible apply sound_ite | with_reducible apply outSound_ite | with_reducible apply sound_foldl | with_reducible intro _ _ _ _
    | with_reducible intro _ _ _ | with_reducible intro _ _ | with_reducible apply sound_ite_snd
    | with_reducible refine sound_of_snd (by assumption) ?_ | with_reducible refine sound_of_fst (by assumption) ?_
    | with_reducible refine sound_of_trd (by assumption) ?_ | with_reducible apply sound_foldl_fst | with_reducible apply sound_foldl_snd
    | split | dsimp only | simp only [sound_mk, sound_mk_evl]

theorem State.releaseTable_sound {s : State} (hs : s.Sound) (n : Nat) (a : Nat) : (State.releaseTable s n a).Sound := by
  unfold State.releaseTable
  try dsimp only
  repeat' first
    | with_reducible assumption | with_reducible apply State.setAxis_sound | with_reducible apply State.freeTable_sound
    | with_reducible apply outSound_next | with_reducible apply sound_ite | with_reducible apply outSound_ite
    | with_reducible apply sound_foldl | with_reducible intro _ _ _ _ | with_reducible intro _ _ _ | with_reducible intro _ _
    | with_reducible apply sound_ite_snd | with_reducible refine sound_of_snd (by assumption) ?_
    | with_reducible refine sound_of_fst (by assumption) ?_ | with_reducible refine sound_of_trd (by assumption) ?_
    | with_reducible apply sound_foldl_fst | with_reducible apply sound_foldl_snd | split

theorem State.ramp_sound {s : State} (hs : s.Sound) (n : Nat) (a : Nat) (acc : ℚ) : (State.ramp s n a acc).Sound := by
  unfold State.ramp
  try dsimp only
  repeat' first
    | with_reducible assumption | with_reducible apply State.setAxis_sound

theorem State.syncHeld_sound {s : State} (hs : s.Sound) (n : Nat) (a : Nat) : (State.syncHeld s n a).Sound := by
  unfold State.syncHeld
  try dsimp only
  repeat' first
    | with_reducible assumption | with_reducible apply State.setFld_sound

theorem State.setAxState_sound {s : State} (hs : s.Sound) (n : Nat) (a : Nat) (v : Nat) : (State.setAxState s n a v).Sound := by
  unfold State.setAxState
  try dsimp only
  repeat' first
    | with_reducible assumption | with_reducible apply State.setFld_sound

theorem State.beginStop_sound {s : State} (hs : s.Sound) (n : Nat) (a : Nat) (hard : Bool) (fault : Nat) : (State.beginStop s n a hard fault).Sound := by
  unfold State.beginStop
  try dsimp only
  repeat' first
    | with_reducible assumption | with_reducible apply State.releaseTable_sound | with_reducible apply State.ramp_sound
    | with_reducible apply State.setAxis_sound | with_reducible apply State.setFld_sound | with_reducible apply State.syncHeld_sound
    | with_reducible apply State.setAxState_sound | with_reducible apply State.axLog_sound | with_reducible apply outSound_next
    | with_reducible apply sound_ite

theorem State.axDisable_sound {s : State} (hs : s.Sound) (n : Nat) (a : Nat) : (State.axDisable s n a).Sound := by
  unfold State.axDisable
  try dsimp only
  repeat' first
    | with_reducible assumption | with_reducible apply State.axRefuse_sound | with_reducible apply State.homeFail_sound
    | with_reducible apply State.beginStop_sound | with_reducible apply State.setFld_sound | with_reducible apply State.setAxis_sound
    | with_reducible apply State.setAxState_sound | with_reducible apply outSound_next | with_reducible apply sound_ite

theorem execAxisDisable_sound {s : State} (hs : s.Sound) (a : Fin 32) : OutSound (execAxisDisable a s) := by
  unfold execAxisDisable
  try dsimp only
  repeat' first
    | with_reducible assumption | with_reducible apply State.axDisable_sound | with_reducible apply outSound_next
    | with_reducible apply sound_ite | with_reducible apply outSound_ite | with_reducible apply sound_foldl | with_reducible intro _ _ _ _
    | with_reducible intro _ _ _ | with_reducible intro _ _ | with_reducible apply sound_ite_snd
    | with_reducible refine sound_of_snd (by assumption) ?_ | with_reducible refine sound_of_fst (by assumption) ?_
    | with_reducible refine sound_of_trd (by assumption) ?_ | with_reducible apply sound_foldl_fst | with_reducible apply sound_foldl_snd
    | split

theorem execAxisMove_sound {s : State} (hs : s.Sound) (a : Fin 32) (k : Fin 64) : OutSound (execAxisMove a k s) := by
  unfold execAxisMove
  try dsimp only
  repeat' first
    | with_reducible assumption | with_reducible apply State.axQueue_sound | with_reducible apply outSound_next
    | with_reducible apply sound_ite | with_reducible apply outSound_ite | with_reducible apply sound_foldl | with_reducible intro _ _ _ _
    | with_reducible intro _ _ _ | with_reducible intro _ _ | with_reducible apply sound_ite_snd
    | with_reducible refine sound_of_snd (by assumption) ?_ | with_reducible refine sound_of_fst (by assumption) ?_
    | with_reducible refine sound_of_trd (by assumption) ?_ | with_reducible apply sound_foldl_fst | with_reducible apply sound_foldl_snd
    | split

theorem State.axStop_sound {s : State} (hs : s.Sound) (n : Nat) (a : Nat) : (State.axStop s n a).Sound := by
  unfold State.axStop
  try dsimp only
  repeat' first
    | with_reducible assumption | with_reducible apply State.homeFail_sound | with_reducible apply State.beginStop_sound
    | with_reducible apply State.setFld_sound | with_reducible apply State.setAxis_sound | with_reducible apply State.axRefuse_sound
    | with_reducible apply outSound_next | with_reducible apply sound_ite

theorem execAxisStop_sound {s : State} (hs : s.Sound) (a : Fin 32) : OutSound (execAxisStop a s) := by
  unfold execAxisStop
  try dsimp only
  repeat' first
    | with_reducible assumption | with_reducible apply State.axStop_sound | with_reducible apply outSound_next
    | with_reducible apply sound_ite | with_reducible apply outSound_ite | with_reducible apply sound_foldl | with_reducible intro _ _ _ _
    | with_reducible intro _ _ _ | with_reducible intro _ _ | with_reducible apply sound_ite_snd
    | with_reducible refine sound_of_snd (by assumption) ?_ | with_reducible refine sound_of_fst (by assumption) ?_
    | with_reducible refine sound_of_trd (by assumption) ?_ | with_reducible apply sound_foldl_fst | with_reducible apply sound_foldl_snd
    | split

theorem execAxisHome_sound {s : State} (hs : s.Sound) (a : Fin 32) (mode : BitVec 8) : OutSound (execAxisHome a mode s) := by
  unfold execAxisHome
  try dsimp only
  repeat' first
    | with_reducible assumption | with_reducible apply State.axQueue_sound | with_reducible apply outSound_next
    | with_reducible apply sound_ite | with_reducible apply outSound_ite | with_reducible apply sound_foldl | with_reducible intro _ _ _ _
    | with_reducible intro _ _ _ | with_reducible intro _ _ | with_reducible apply sound_ite_snd
    | with_reducible refine sound_of_snd (by assumption) ?_ | with_reducible refine sound_of_fst (by assumption) ?_
    | with_reducible refine sound_of_trd (by assumption) ?_ | with_reducible apply sound_foldl_fst | with_reducible apply sound_foldl_snd
    | split

theorem execAxisGear_sound {s : State} (hs : s.Sound) (a : Fin 32) : OutSound (execAxisGear a s) := by
  unfold execAxisGear
  try dsimp only
  repeat' first
    | with_reducible assumption | with_reducible apply State.axQueue_sound | with_reducible apply outSound_next
    | with_reducible apply sound_ite | with_reducible apply outSound_ite | with_reducible apply sound_foldl | with_reducible intro _ _ _ _
    | with_reducible intro _ _ _ | with_reducible intro _ _ | with_reducible apply sound_ite_snd
    | with_reducible refine sound_of_snd (by assumption) ?_ | with_reducible refine sound_of_fst (by assumption) ?_
    | with_reducible refine sound_of_trd (by assumption) ?_ | with_reducible apply sound_foldl_fst | with_reducible apply sound_foldl_snd
    | split

theorem execAxisGearSet_sound {s : State} (hs : s.Sound) (a : Fin 32) : OutSound (execAxisGearSet a s) := by
  unfold execAxisGearSet
  try dsimp only
  repeat' first
    | with_reducible assumption | with_reducible apply State.axQueue_sound | with_reducible apply outSound_next
    | with_reducible apply sound_ite | with_reducible apply outSound_ite | with_reducible apply sound_foldl | with_reducible intro _ _ _ _
    | with_reducible intro _ _ _ | with_reducible intro _ _ | with_reducible apply sound_ite_snd
    | with_reducible refine sound_of_snd (by assumption) ?_ | with_reducible refine sound_of_fst (by assumption) ?_
    | with_reducible refine sound_of_trd (by assumption) ?_ | with_reducible apply sound_foldl_fst | with_reducible apply sound_foldl_snd
    | split

theorem execAxisUngear_sound {s : State} (hs : s.Sound) (a : Fin 32) : OutSound (execAxisUngear a s) := by
  unfold execAxisUngear
  try dsimp only
  repeat' first
    | with_reducible assumption | with_reducible apply State.axQueue_sound | with_reducible apply outSound_next
    | with_reducible apply sound_ite | with_reducible apply outSound_ite | with_reducible apply sound_foldl | with_reducible intro _ _ _ _
    | with_reducible intro _ _ _ | with_reducible intro _ _ | with_reducible apply sound_ite_snd
    | with_reducible refine sound_of_snd (by assumption) ?_ | with_reducible refine sound_of_fst (by assumption) ?_
    | with_reducible refine sound_of_trd (by assumption) ?_ | with_reducible apply sound_foldl_fst | with_reducible apply sound_foldl_snd
    | split

theorem execAxisClear_sound {s : State} (hs : s.Sound) (a : Fin 32) : OutSound (execAxisClear a s) := by
  unfold execAxisClear
  try dsimp only
  repeat' first
    | with_reducible assumption | with_reducible apply State.axQueue_sound | with_reducible apply outSound_next
    | with_reducible apply sound_ite | with_reducible apply outSound_ite | with_reducible apply sound_foldl | with_reducible intro _ _ _ _
    | with_reducible intro _ _ _ | with_reducible intro _ _ | with_reducible apply sound_ite_snd
    | with_reducible refine sound_of_snd (by assumption) ?_ | with_reducible refine sound_of_fst (by assumption) ?_
    | with_reducible refine sound_of_trd (by assumption) ?_ | with_reducible apply sound_foldl_fst | with_reducible apply sound_foldl_snd
    | split

theorem execStageReadmit_sound {s : State} (hs : s.Sound) (a : Fin 32) : OutSound (execStageReadmit a s) := by
  unfold execStageReadmit
  try dsimp only
  repeat' first
    | with_reducible assumption | with_reducible apply State.axQueue_sound | with_reducible apply outSound_next
    | with_reducible apply sound_ite | with_reducible apply outSound_ite | with_reducible apply sound_foldl | with_reducible intro _ _ _ _
    | with_reducible intro _ _ _ | with_reducible intro _ _ | with_reducible apply sound_ite_snd
    | with_reducible refine sound_of_snd (by assumption) ?_ | with_reducible refine sound_of_fst (by assumption) ?_
    | with_reducible refine sound_of_trd (by assumption) ?_ | with_reducible apply sound_foldl_fst | with_reducible apply sound_foldl_snd
    | split

theorem execEncReadmit_sound {s : State} (hs : s.Sound) (g : Fin 16) : OutSound (execEncReadmit g s) := by
  unfold execEncReadmit
  try dsimp only
  repeat' first
    | with_reducible assumption | with_reducible apply State.readmit_sound | with_reducible apply outSound_next

theorem execEncIdxRead_sound {s : State} (hs : s.Sound) (g : Fin 16) : OutSound (execEncIdxRead g s) := by
  unfold execEncIdxRead
  try dsimp only
  repeat' first
    | with_reducible assumption | with_reducible apply State.setBus_sound | with_reducible apply State.setFld_sound
    | with_reducible apply outSound_next

theorem State.gearLost_sound {s : State} (hs : s.Sound) (g : Nat) : (State.gearLost s g).Sound := by
  unfold State.gearLost
  try dsimp only
  repeat' first
    | with_reducible assumption | with_reducible apply State.axLog_sound | with_reducible apply State.beginStop_sound
    | with_reducible apply outSound_next | with_reducible apply sound_ite | with_reducible apply outSound_ite
    | with_reducible apply sound_foldl | with_reducible intro _ _ _ _ | with_reducible intro _ _ _ | with_reducible intro _ _
    | with_reducible apply sound_ite_snd | with_reducible refine sound_of_snd (by assumption) ?_
    | with_reducible refine sound_of_fst (by assumption) ?_ | with_reducible refine sound_of_trd (by assumption) ?_
    | with_reducible apply sound_foldl_fst | with_reducible apply sound_foldl_snd | split

theorem State.encFaultHooks_sound {s : State} (hs : s.Sound) (g : Nat) : (State.encFaultHooks s g).Sound := by
  unfold State.encFaultHooks
  try dsimp only
  repeat' first
    | with_reducible assumption | with_reducible apply State.setCourseState_sound | with_reducible apply State.gearLost_sound
    | with_reducible apply State.log_sound | with_reducible apply outSound_next | with_reducible apply sound_ite
    | with_reducible apply outSound_ite | with_reducible apply sound_foldl | with_reducible intro _ _ _ _ | with_reducible intro _ _ _

theorem State.axFault_sound {s : State} (hs : s.Sound) (n : Nat) (a : Nat) (code : Nat) : (State.axFault s n a code).Sound := by
  unfold State.axFault
  try dsimp only
  repeat' first
    | with_reducible assumption | with_reducible apply State.motStatus_sound | with_reducible apply State.setFld_sound
    | with_reducible apply State.setAxState_sound

theorem State.axLost_sound {s : State} (hs : s.Sound) (n : Nat) (a : Nat) (reason : Nat) : (State.axLost s n a reason).Sound := by
  unfold State.axLost
  try dsimp only
  repeat' first
    | with_reducible assumption | with_reducible apply State.axLog_sound | with_reducible apply State.setAxis_sound
    | with_reducible apply State.setFld_sound

theorem State.axHalt_sound {s : State} (hs : s.Sound) (n : Nat) (a : Nat) (lose : Bool) (reason : Nat) : (State.axHalt s n a lose reason).Sound := by
  unfold State.axHalt
  try dsimp only
  repeat' first
    | with_reducible assumption | with_reducible apply State.releaseTable_sound | with_reducible apply State.setAxis_sound
    | with_reducible apply State.setFld_sound | with_reducible apply State.syncHeld_sound | with_reducible apply State.axLost_sound
    | with_reducible apply outSound_next | with_reducible apply sound_ite

theorem State.axHaltFault_sound {s : State} (hs : s.Sound) (n : Nat) (a : Nat) (code : Nat) (lose : Bool) (reason : Nat) : (State.axHaltFault s n a code lose reason).Sound := by
  unfold State.axHaltFault
  try dsimp only
  repeat' first
    | with_reducible assumption | with_reducible apply State.axFault_sound | with_reducible apply State.homeFail_sound
    | with_reducible apply State.axHalt_sound | with_reducible apply outSound_next | with_reducible apply sound_ite

theorem State.stepPins_sound {s : State} (hs : s.Sound) (n : Nat) (a : Nat) : (State.stepPins s n a).Sound := by
  unfold State.stepPins
  try dsimp only
  repeat' first
    | with_reducible assumption | with_reducible apply State.setFld_sound | with_reducible apply State.setAxis_sound
    | with_reducible apply State.axLog_sound | with_reducible apply State.axHaltFault_sound | with_reducible apply outSound_next
    | with_reducible apply sound_ite

theorem State.axEnable_sound {s : State} (hs : s.Sound) (n : Nat) (a : Nat) : (State.axEnable s n a).Sound := by
  unfold State.axEnable
  try dsimp only
  repeat' first
    | with_reducible assumption | with_reducible apply State.axRefuse_sound | with_reducible apply State.setAxState_sound
    | with_reducible apply State.setFld_sound | with_reducible apply State.setAxis_sound | with_reducible apply outSound_next
    | with_reducible apply sound_ite

theorem State.feedDrop_sound {s : State} (hs : s.Sound) (n : Nat) (a : Nat) : (State.feedDrop s n a).Sound := by
  unfold State.feedDrop
  try dsimp only
  repeat' first
    | with_reducible assumption | with_reducible apply State.setCdmState_sound | with_reducible apply outSound_next
    | with_reducible apply sound_ite | with_reducible apply outSound_ite | with_reducible apply sound_foldl | with_reducible intro _ _ _ _
    | with_reducible intro _ _ _ | with_reducible intro _ _ | with_reducible apply sound_ite_snd
    | with_reducible refine sound_of_snd (by assumption) ?_ | with_reducible refine sound_of_fst (by assumption) ?_
    | with_reducible refine sound_of_trd (by assumption) ?_ | with_reducible apply sound_foldl_fst | with_reducible apply sound_foldl_snd
    | split | dsimp only | simp only [sound_mk, sound_mk_evl]

theorem State.showTable_sound {s : State} (hs : s.Sound) (n : Nat) (a : Nat) (k : Nat) : (State.showTable s n a k).Sound := by
  unfold State.showTable
  try dsimp only
  repeat' first
    | with_reducible assumption | with_reducible apply State.setFld_sound | with_reducible apply outSound_next
    | with_reducible apply sound_ite | with_reducible apply outSound_ite | with_reducible apply sound_foldl | with_reducible intro _ _ _ _
    | with_reducible intro _ _ _ | with_reducible intro _ _ | with_reducible apply sound_ite_snd
    | with_reducible refine sound_of_snd (by assumption) ?_ | with_reducible refine sound_of_fst (by assumption) ?_
    | with_reducible refine sound_of_trd (by assumption) ?_ | with_reducible apply sound_foldl_fst | with_reducible apply sound_foldl_snd
    | split | dsimp only | simp only [sound_mk, sound_mk_evl]

theorem State.enterTable_sound {s : State} (hs : s.Sound) (n : Nat) (a : Nat) (k : Nat) : (State.enterTable s n a k).Sound := by
  unfold State.enterTable
  try dsimp only
  repeat' first
    | with_reducible assumption | with_reducible apply State.setAxis_sound | with_reducible apply State.setFld_sound
    | with_reducible apply State.setAxState_sound | with_reducible apply State.syncHeld_sound | with_reducible apply outSound_next
    | with_reducible apply sound_ite | with_reducible apply outSound_ite | with_reducible apply sound_foldl | with_reducible intro _ _ _ _
    | with_reducible intro _ _ _ | with_reducible intro _ _ | with_reducible apply sound_ite_snd
    | with_reducible refine sound_of_snd (by assumption) ?_ | with_reducible refine sound_of_fst (by assumption) ?_
    | with_reducible refine sound_of_trd (by assumption) ?_ | with_reducible apply sound_foldl_fst | with_reducible apply sound_foldl_snd
    | split | dsimp only | simp only [sound_mk, sound_mk_evl]

theorem State.playTable_sound {s : State} (hs : s.Sound) (n : Nat) (a : Nat) (k : Nat) (origin : Option Nat) : (State.playTable s n a k origin).Sound := by
  unfold State.playTable
  try dsimp only
  repeat' first
    | with_reducible assumption | with_reducible apply State.releaseTable_sound | with_reducible apply State.feedDrop_sound
    | with_reducible apply State.setAxis_sound | with_reducible apply State.showTable_sound | with_reducible apply State.enterTable_sound

theorem State.takeTable_sound {s : State} (hs : s.Sound) (n : Nat) (a : Nat) (k : Nat) : (State.takeTable s n a k).Sound := by
  unfold State.takeTable
  try dsimp only
  repeat' first
    | with_reducible assumption | with_reducible apply State.setAxis_sound | with_reducible apply State.feedDrop_sound
    | with_reducible apply State.freeTable_sound | with_reducible apply State.enterTable_sound | with_reducible apply outSound_next
    | with_reducible apply sound_ite | with_reducible apply outSound_ite | with_reducible apply sound_foldl | with_reducible intro _ _ _ _
    | with_reducible intro _ _ _ | with_reducible intro _ _ | with_reducible apply sound_ite_snd
    | with_reducible refine sound_of_snd (by assumption) ?_ | with_reducible refine sound_of_fst (by assumption) ?_
    | with_reducible refine sound_of_trd (by assumption) ?_ | with_reducible apply sound_foldl_fst | with_reducible apply sound_foldl_snd
    | split | dsimp only | simp only [sound_mk, sound_mk_evl]

theorem State.axMove_sound {s : State} (hs : s.Sound) (n : Nat) (a : Nat) (k : Nat) (origin : Option Nat) : (State.axMove s n a k origin).Sound := by
  unfold State.axMove
  try dsimp only
  repeat' first
    | with_reducible assumption | with_reducible apply State.axRefuse_sound | with_reducible apply State.playTable_sound
    | with_reducible apply State.takeTable_sound | with_reducible apply State.beginStop_sound | with_reducible apply State.setFld_sound
    | with_reducible apply State.setAxis_sound | with_reducible apply outSound_next | with_reducible apply sound_ite

theorem State.homeShift_sound {s : State} (hs : s.Sound) (n : Nat) (a : Nat) (pref : Int) : (State.homeShift s n a pref).Sound := by
  unfold State.homeShift
  try dsimp only
  repeat' first
    | with_reducible assumption | with_reducible apply State.setAxis_sound

theorem State.axHome_sound {s : State} (hs : s.Sound) (n : Nat) (a : Nat) (mode : Nat) : (State.axHome s n a mode).Sound := by
  unfold State.axHome
  try dsimp only
  repeat' first
    | with_reducible assumption | with_reducible apply State.axRefuse_sound | with_reducible apply State.setAxis_sound
    | with_reducible apply State.motStatus_sound | with_reducible apply State.homeShift_sound | with_reducible apply State.setAxState_sound
    | with_reducible apply State.homeLeg_sound | with_reducible apply outSound_next | with_reducible apply sound_ite

theorem State.axGear_sound {s : State} (hs : s.Sound) (n : Nat) (a : Nat) : (State.axGear s n a).Sound := by
  unfold State.axGear
  try dsimp only
  repeat' first
    | with_reducible assumption | with_reducible apply State.axRefuse_sound | with_reducible apply State.setAxState_sound
    | with_reducible apply State.setAxis_sound | with_reducible apply outSound_next | with_reducible apply sound_ite

theorem State.gearSwitch_sound {s : State} (hs : s.Sound) (n : Nat) (a : Nat) : (State.gearSwitch s n a).Sound := by
  unfold State.gearSwitch
  try dsimp only
  repeat' first
    | with_reducible assumption | with_reducible apply State.setFld_sound | with_reducible apply State.setAxis_sound
    | with_reducible apply outSound_next | with_reducible apply sound_ite | with_reducible apply outSound_ite
    | with_reducible apply sound_foldl | with_reducible intro _ _ _ _ | with_reducible intro _ _ _ | with_reducible intro _ _
    | with_reducible apply sound_ite_snd | with_reducible refine sound_of_snd (by assumption) ?_
    | with_reducible refine sound_of_fst (by assumption) ?_ | with_reducible refine sound_of_trd (by assumption) ?_
    | with_reducible apply sound_foldl_fst | with_reducible apply sound_foldl_snd | split | dsimp only | simp only [sound_mk, sound_mk_evl]

theorem State.axGearSet_sound {s : State} (hs : s.Sound) (n : Nat) (a : Nat) : (State.axGearSet s n a).Sound := by
  unfold State.axGearSet
  try dsimp only
  repeat' first
    | with_reducible assumption | with_reducible apply State.axRefuse_sound | with_reducible apply State.gearSwitch_sound
    | with_reducible apply State.setFld_sound | with_reducible apply State.setAxis_sound | with_reducible apply outSound_next
    | with_reducible apply sound_ite | with_reducible apply outSound_ite | with_reducible apply sound_foldl | with_reducible intro _ _ _ _
    | with_reducible intro _ _ _ | with_reducible intro _ _ | with_reducible apply sound_ite_snd
    | with_reducible refine sound_of_snd (by assumption) ?_ | with_reducible refine sound_of_fst (by assumption) ?_
    | with_reducible refine sound_of_trd (by assumption) ?_ | with_reducible apply sound_foldl_fst | with_reducible apply sound_foldl_snd
    | split

theorem State.axUngear_sound {s : State} (hs : s.Sound) (n : Nat) (a : Nat) : (State.axUngear s n a).Sound := by
  unfold State.axUngear
  try dsimp only
  repeat' first
    | with_reducible assumption | with_reducible apply State.beginStop_sound | with_reducible apply State.axRefuse_sound
    | with_reducible apply outSound_next | with_reducible apply sound_ite | with_reducible apply outSound_ite
    | with_reducible apply sound_foldl | with_reducible intro _ _ _ _ | with_reducible intro _ _ _ | with_reducible intro _ _
    | with_reducible apply sound_ite_snd | with_reducible refine sound_of_snd (by assumption) ?_
    | with_reducible refine sound_of_fst (by assumption) ?_ | with_reducible refine sound_of_trd (by assumption) ?_
    | with_reducible apply sound_foldl_fst | with_reducible apply sound_foldl_snd | split | dsimp only | simp only [sound_mk, sound_mk_evl]

theorem State.axClear_sound {s : State} (hs : s.Sound) (n : Nat) (a : Nat) : (State.axClear s n a).Sound := by
  unfold State.axClear
  try dsimp only
  repeat' first
    | with_reducible assumption | with_reducible apply State.setFld_sound | with_reducible apply State.setAxState_sound
    | with_reducible apply State.axRefuse_sound | with_reducible apply outSound_next | with_reducible apply sound_ite
    | with_reducible apply outSound_ite | with_reducible apply sound_foldl | with_reducible intro _ _ _ _ | with_reducible intro _ _ _
    | with_reducible intro _ _ | with_reducible apply sound_ite_snd | with_reducible refine sound_of_snd (by assumption) ?_
    | with_reducible refine sound_of_fst (by assumption) ?_ | with_reducible refine sound_of_trd (by assumption) ?_
    | with_reducible apply sound_foldl_fst | with_reducible apply sound_foldl_snd | split | dsimp only | simp only [sound_mk, sound_mk_evl]

theorem State.axTake_sound {s : State} (hs : s.Sound) (n : Nat) (a : Nat) (cmd : Nat) (arg : Nat) : (State.axTake s n a cmd arg).Sound := by
  unfold State.axTake
  try dsimp only
  repeat' first
    | with_reducible assumption | with_reducible apply State.axEnable_sound | with_reducible apply State.axMove_sound
    | with_reducible apply State.axHome_sound | with_reducible apply State.axGear_sound | with_reducible apply State.axGearSet_sound
    | with_reducible apply State.axUngear_sound | with_reducible apply State.axClear_sound | with_reducible apply State.readmit_sound
    | with_reducible apply outSound_next | with_reducible apply sound_ite | with_reducible apply outSound_ite
    | with_reducible apply sound_foldl | with_reducible intro _ _ _ _ | with_reducible intro _ _ _ | with_reducible intro _ _
    | with_reducible apply sound_ite_snd | with_reducible refine sound_of_snd (by assumption) ?_
    | with_reducible refine sound_of_fst (by assumption) ?_ | with_reducible refine sound_of_trd (by assumption) ?_
    | with_reducible apply sound_foldl_fst | with_reducible apply sound_foldl_snd | split | dsimp only | simp only [sound_mk, sound_mk_evl]

theorem State.axTakeAll_sound {s : State} (hs : s.Sound) (n : Nat) (a : Nat) (q : Nat) : (State.axTakeAll s n a q).Sound := by
  unfold State.axTakeAll
  try dsimp only
  repeat' first
    | with_reducible assumption | with_reducible apply State.setAxis_sound | with_reducible apply State.axTake_sound
    | with_reducible apply outSound_next | with_reducible apply sound_ite | with_reducible apply outSound_ite
    | with_reducible apply sound_foldl | with_reducible intro _ _ _ _ | with_reducible intro _ _ _ | with_reducible intro _ _
    | with_reducible apply sound_ite_snd | with_reducible refine sound_of_snd (by assumption) ?_
    | with_reducible refine sound_of_fst (by assumption) ?_ | with_reducible refine sound_of_trd (by assumption) ?_
    | with_reducible apply sound_foldl_fst | with_reducible apply sound_foldl_snd | split | dsimp only | simp only [sound_mk, sound_mk_evl]

theorem State.feedDone_sound {s : State} (hs : s.Sound) (n : Nat) (ch : Nat) : (State.feedDone s n ch).Sound := by
  unfold State.feedDone
  try dsimp only
  repeat' first
    | with_reducible assumption | with_reducible apply State.setFld_sound | with_reducible apply State.setAxis_sound
    | with_reducible apply outSound_next | with_reducible apply sound_ite | with_reducible apply outSound_ite
    | with_reducible apply sound_foldl | with_reducible intro _ _ _ _ | with_reducible intro _ _ _ | with_reducible intro _ _
    | with_reducible apply sound_ite_snd | with_reducible refine sound_of_snd (by assumption) ?_
    | with_reducible refine sound_of_fst (by assumption) ?_ | with_reducible refine sound_of_trd (by assumption) ?_
    | with_reducible apply sound_foldl_fst | with_reducible apply sound_foldl_snd | split

theorem State.segEnd_sound {s : State} (hs : s.Sound) (n : Nat) (a : Nat) (g : HeldSeg) (o : Nat) : (State.segEnd s n a g o).Sound := by
  unfold State.segEnd
  try dsimp only
  repeat' first
    | with_reducible assumption | with_reducible apply State.motStatus_sound | with_reducible apply State.setAxis_sound
    | with_reducible apply State.syncHeld_sound | with_reducible apply State.setFld_sound | with_reducible apply State.setAxState_sound
    | with_reducible apply State.beginStop_sound | with_reducible apply State.releaseTable_sound | with_reducible apply State.axLog_sound
    | with_reducible apply outSound_next | with_reducible apply sound_ite | with_reducible apply outSound_ite
    | with_reducible apply sound_foldl | with_reducible intro _ _ _ _ | with_reducible intro _ _ _ | with_reducible intro _ _
    | with_reducible apply sound_ite_snd | with_reducible refine sound_of_snd (by assumption) ?_
    | with_reducible refine sound_of_fst (by assumption) ?_ | with_reducible refine sound_of_trd (by assumption) ?_
    | with_reducible apply sound_foldl_fst | with_reducible apply sound_foldl_snd | split

theorem State.deviation_sound {s : State} (hs : s.Sound) : (State.deviation s).2.Sound := by
  unfold State.deviation
  try dsimp only
  repeat' first
    | with_reducible assumption | with_reducible apply State.freshInt_sound

theorem State.interpolate_sound {s : State} (hs : s.Sound) (n : Nat) (a : Nat) (x0 : Nat) : (State.interpolate s n a x0).Sound := by
  induction x0 generalizing s with
  | zero =>
    unfold State.interpolate
    try dsimp only
    repeat' first
      | with_reducible apply ih | with_reducible assumption | with_reducible apply State.segEnd_sound
      | with_reducible apply State.setAxis_sound | with_reducible apply State.deviation_sound | with_reducible apply outSound_next
      | with_reducible apply sound_ite | with_reducible apply outSound_ite | with_reducible apply sound_foldl
      | with_reducible intro _ _ _ _ | with_reducible intro _ _ _ | with_reducible intro _ _ | with_reducible apply sound_ite_snd
      | with_reducible refine sound_of_snd (by assumption) ?_ | with_reducible refine sound_of_fst (by assumption) ?_
      | with_reducible refine sound_of_trd (by assumption) ?_ | with_reducible apply sound_foldl_fst | with_reducible apply sound_foldl_snd
      | split | dsimp only | simp only [sound_mk, sound_mk_evl]
  | succ x0 ih =>
    unfold State.interpolate
    try dsimp only
    repeat' first
      | with_reducible apply ih | with_reducible assumption | with_reducible apply State.segEnd_sound
      | with_reducible apply State.setAxis_sound | with_reducible apply State.deviation_sound | with_reducible apply outSound_next
      | with_reducible apply sound_ite | with_reducible apply outSound_ite | with_reducible apply sound_foldl
      | with_reducible intro _ _ _ _ | with_reducible intro _ _ _ | with_reducible intro _ _ | with_reducible apply sound_ite_snd
      | with_reducible refine sound_of_snd (by assumption) ?_ | with_reducible refine sound_of_fst (by assumption) ?_
      | with_reducible refine sound_of_trd (by assumption) ?_ | with_reducible apply sound_foldl_fst | with_reducible apply sound_foldl_snd
      | split | dsimp only | simp only [sound_mk, sound_mk_evl]

theorem State.gearsAt_sound {s : State} (hs : s.Sound) (g : Nat) : (State.gearsAt s g).Sound := by
  unfold State.gearsAt
  try dsimp only
  repeat' first
    | with_reducible assumption | with_reducible apply State.gearSwitch_sound | with_reducible apply outSound_next
    | with_reducible apply sound_ite | with_reducible apply outSound_ite | with_reducible apply sound_foldl | with_reducible intro _ _ _ _
    | with_reducible intro _ _ _ | with_reducible intro _ _ | with_reducible apply sound_ite_snd
    | with_reducible refine sound_of_snd (by assumption) ?_ | with_reducible refine sound_of_fst (by assumption) ?_
    | with_reducible refine sound_of_trd (by assumption) ?_ | with_reducible apply sound_foldl_fst | with_reducible apply sound_foldl_snd
    | split | dsimp only | simp only [sound_mk, sound_mk_evl]

theorem State.homePark_sound {s : State} (hs : s.Sound) (n : Nat) (a : Nat) (h : Home) : (State.homePark s n a h).Sound := by
  unfold State.homePark
  try dsimp only
  repeat' first
    | with_reducible assumption | with_reducible apply State.homeShift_sound | with_reducible apply State.homeLeg_sound

theorem State.stall_sound {s : State} (hs : s.Sound) (n : Nat) (a : Nat) (h : MotHeld) : (State.stall s n a h).Sound := by
  unfold State.stall
  try dsimp only
  repeat' first
    | with_reducible assumption | with_reducible apply State.axLog_sound | with_reducible apply State.setAxis_sound
    | with_reducible apply State.homePark_sound | with_reducible apply State.axHaltFault_sound | with_reducible apply outSound_next
    | with_reducible apply sound_ite | with_reducible apply outSound_ite | with_reducible apply sound_foldl | with_reducible intro _ _ _ _
    | with_reducible intro _ _ _ | with_reducible intro _ _ | with_reducible apply sound_ite_snd
    | with_reducible refine sound_of_snd (by assumption) ?_ | with_reducible refine sound_of_fst (by assumption) ?_
    | with_reducible refine sound_of_trd (by assumption) ?_ | with_reducible apply sound_foldl_fst | with_reducible apply sound_foldl_snd
    | split

theorem State.feed_sound {s : State} (hs : s.Sound) (n : Nat) (a : Nat) : (State.feed s n a).Sound := by
  unfold State.feed
  try dsimp only
  repeat' first
    | with_reducible assumption | with_reducible apply State.setFld_sound | with_reducible apply State.setNum_sound
    | with_reducible apply State.cdmStart_sound | with_reducible apply outSound_next | with_reducible apply sound_ite
    | with_reducible apply outSound_ite | with_reducible apply sound_foldl | with_reducible intro _ _ _ _ | with_reducible intro _ _ _
    | with_reducible intro _ _ | with_reducible apply sound_ite_snd | with_reducible refine sound_of_snd (by assumption) ?_
    | with_reducible refine sound_of_fst (by assumption) ?_ | with_reducible refine sound_of_trd (by assumption) ?_
    | with_reducible apply sound_foldl_fst | with_reducible apply sound_foldl_snd | split

theorem State.firstWaits_sound {s : State} (hs : s.Sound) (n : Nat) (a : Nat) (g : HeldSeg) : (State.firstWaits s n a g).Sound := by
  unfold State.firstWaits
  try dsimp only
  repeat' first
    | with_reducible assumption | with_reducible apply State.setAxState_sound | with_reducible apply State.setAxis_sound
    | with_reducible apply outSound_next | with_reducible apply sound_ite | with_reducible apply outSound_ite
    | with_reducible apply sound_foldl | with_reducible intro _ _ _ _ | with_reducible intro _ _ _ | with_reducible intro _ _
    | with_reducible apply sound_ite_snd | with_reducible refine sound_of_snd (by assumption) ?_
    | with_reducible refine sound_of_fst (by assumption) ?_ | with_reducible refine sound_of_trd (by assumption) ?_
    | with_reducible apply sound_foldl_fst | with_reducible apply sound_foldl_snd | split | dsimp only | simp only [sound_mk, sound_mk_evl]

theorem State.handOver_sound {s : State} (hs : s.Sound) (n : Nat) (a : Nat) (x0 : Nat) : (State.handOver s n a x0).Sound := by
  induction x0 generalizing s with
  | zero =>
    unfold State.handOver
    try dsimp only
    repeat' first
      | with_reducible apply ih | with_reducible assumption | with_reducible apply State.setFld_sound
      | with_reducible apply State.setAxis_sound | with_reducible apply State.syncHeld_sound | with_reducible apply State.beginStop_sound
      | with_reducible apply State.axLog_sound | with_reducible apply State.firstWaits_sound | with_reducible apply outSound_next
      | with_reducible apply sound_ite | with_reducible apply outSound_ite | with_reducible apply sound_foldl
      | with_reducible intro _ _ _ _ | with_reducible intro _ _ _ | with_reducible intro _ _ | with_reducible apply sound_ite_snd
      | with_reducible refine sound_of_snd (by assumption) ?_ | with_reducible refine sound_of_fst (by assumption) ?_
      | with_reducible refine sound_of_trd (by assumption) ?_ | with_reducible apply sound_foldl_fst | with_reducible apply sound_foldl_snd
      | split | dsimp only | simp only [sound_mk, sound_mk_evl]
  | succ x0 ih =>
    unfold State.handOver
    try dsimp only
    repeat' first
      | with_reducible apply ih | with_reducible assumption | with_reducible apply State.setFld_sound
      | with_reducible apply State.setAxis_sound | with_reducible apply State.syncHeld_sound | with_reducible apply State.beginStop_sound
      | with_reducible apply State.axLog_sound | with_reducible apply State.firstWaits_sound | with_reducible apply outSound_next
      | with_reducible apply sound_ite | with_reducible apply outSound_ite | with_reducible apply sound_foldl
      | with_reducible intro _ _ _ _ | with_reducible intro _ _ _ | with_reducible intro _ _ | with_reducible apply sound_ite_snd
      | with_reducible refine sound_of_snd (by assumption) ?_ | with_reducible refine sound_of_fst (by assumption) ?_
      | with_reducible refine sound_of_trd (by assumption) ?_ | with_reducible apply sound_foldl_fst | with_reducible apply sound_foldl_snd
      | split | dsimp only | simp only [sound_mk, sound_mk_evl]

theorem State.axisTaskApply_sound {s : State} (hs : s.Sound) (n : Nat) (h : MotHeld) : (State.axisTaskApply s n h).Sound := by
  unfold State.axisTaskApply
  try dsimp only
  repeat' first
    | with_reducible assumption | with_reducible apply State.setAxis_sound | with_reducible apply State.setFld_sound
    | with_reducible apply State.wr_sound | with_reducible apply State.stall_sound | with_reducible apply State.feed_sound
    | with_reducible apply State.handOver_sound | with_reducible apply State.axTakeAll_sound | with_reducible apply outSound_next
    | with_reducible apply sound_ite | with_reducible apply outSound_ite | with_reducible apply sound_foldl | with_reducible intro _ _ _ _
    | with_reducible intro _ _ _ | with_reducible intro _ _ | with_reducible apply sound_ite_snd
    | with_reducible refine sound_of_snd (by assumption) ?_ | with_reducible refine sound_of_fst (by assumption) ?_
    | with_reducible refine sound_of_trd (by assumption) ?_ | with_reducible apply sound_foldl_fst | with_reducible apply sound_foldl_snd
    | split

theorem State.homeStop_sound {s : State} (hs : s.Sound) (n : Nat) (a : Nat) (h : Home) (phase : HomePhase) : (State.homeStop s n a h phase).Sound := by
  unfold State.homeStop
  try dsimp only
  repeat' first
    | with_reducible assumption | with_reducible apply State.ramp_sound | with_reducible apply State.setAxis_sound

theorem State.hwLimit_sound {s : State} (hs : s.Sound) (n : Nat) (a : Nat) (pos : Bool) : (State.hwLimit s n a pos).Sound := by
  unfold State.hwLimit
  try dsimp only
  repeat' first
    | with_reducible assumption | with_reducible apply State.homeStop_sound | with_reducible apply State.axLog_sound
    | with_reducible apply State.beginStop_sound | with_reducible apply outSound_next | with_reducible apply sound_ite
    | with_reducible apply outSound_ite | with_reducible apply sound_foldl | with_reducible intro _ _ _ _ | with_reducible intro _ _ _
    | with_reducible intro _ _ | with_reducible apply sound_ite_snd | with_reducible refine sound_of_snd (by assumption) ?_
    | with_reducible refine sound_of_fst (by assumption) ?_ | with_reducible refine sound_of_trd (by assumption) ?_
    | with_reducible apply sound_foldl_fst | with_reducible apply sound_foldl_snd | split

theorem execRtTimeout_sound {s : State} (hs : s.Sound) (a : Fin 32) : OutSound (execRtTimeout a s) := by
  unfold execRtTimeout
  try dsimp only
  repeat' first
    | with_reducible assumption | with_reducible apply State.setAxis_sound | with_reducible apply State.axLog_sound
    | with_reducible apply State.axFault_sound | with_reducible apply State.setFld_sound | with_reducible apply outSound_next
    | with_reducible apply sound_ite | with_reducible apply outSound_ite | with_reducible apply sound_foldl | with_reducible intro _ _ _ _
    | with_reducible intro _ _ _ | with_reducible intro _ _ | with_reducible apply sound_ite_snd
    | with_reducible refine sound_of_snd (by assumption) ?_ | with_reducible refine sound_of_fst (by assumption) ?_
    | with_reducible refine sound_of_trd (by assumption) ?_ | with_reducible apply sound_foldl_fst | with_reducible apply sound_foldl_snd
    | split

theorem State.permitWithdrawn_sound {s : State} (hs : s.Sound) (n : Nat) (a : Nat) : (State.permitWithdrawn s n a).Sound := by
  unfold State.permitWithdrawn
  try dsimp only
  repeat' first
    | with_reducible assumption | with_reducible apply State.axHalt_sound | with_reducible apply State.homeFail_sound
    | with_reducible apply State.setAxState_sound | with_reducible apply outSound_next | with_reducible apply sound_ite

theorem execAxisPermitWithdrawn_sound {s : State} (hs : s.Sound) (a : Fin 32) : OutSound (execAxisPermitWithdrawn a s) := by
  unfold execAxisPermitWithdrawn
  try dsimp only
  repeat' first
    | with_reducible assumption | with_reducible apply State.permitWithdrawn_sound | with_reducible apply State.setRbit_sound
    | with_reducible apply outSound_next | with_reducible apply sound_ite | with_reducible apply outSound_ite
    | with_reducible apply sound_foldl | with_reducible intro _ _ _ _ | with_reducible intro _ _ _ | with_reducible intro _ _
    | with_reducible apply sound_ite_snd | with_reducible refine sound_of_snd (by assumption) ?_
    | with_reducible refine sound_of_fst (by assumption) ?_ | with_reducible refine sound_of_trd (by assumption) ?_
    | with_reducible apply sound_foldl_fst | with_reducible apply sound_foldl_snd | split

theorem State.setEnc_sound {s : State} (hs : s.Sound) (g : Nat) (e : Enc) : (State.setEnc s g e).Sound := by
  unfold State.setEnc
  try dsimp only
  repeat' first
    | with_reducible assumption | with_reducible apply outSound_next | with_reducible apply sound_ite | with_reducible apply outSound_ite
    | with_reducible apply sound_foldl | with_reducible intro _ _ _ _ | with_reducible intro _ _ _ | with_reducible intro _ _
    | with_reducible apply sound_ite_snd | with_reducible refine sound_of_snd (by assumption) ?_
    | with_reducible refine sound_of_fst (by assumption) ?_ | with_reducible refine sound_of_trd (by assumption) ?_
    | with_reducible apply sound_foldl_fst | with_reducible apply sound_foldl_snd | split | dsimp only | simp only [sound_mk, sound_mk_evl]

theorem State.encAdd_sound {s : State} (hs : s.Sound) (g : Nat) (d : Int) : (State.encAdd s g d).Sound := by
  unfold State.encAdd
  try dsimp only
  repeat' first
    | with_reducible assumption | with_reducible apply State.setFld_sound | with_reducible apply State.setNum_sound
    | with_reducible apply State.setEnc_sound | with_reducible apply State.gearsAt_sound | with_reducible apply State.encFaultHooks_sound
    | with_reducible apply State.fatal_sound | with_reducible apply outSound_next | with_reducible apply sound_ite

theorem execEncLineFault_sound {s : State} (hs : s.Sound) (g : Fin 16) (lines : BitVec 3) : OutSound (execEncLineFault g lines s) := by
  unfold execEncLineFault
  try dsimp only
  repeat' first
    | with_reducible assumption | with_reducible apply State.setFld_sound | with_reducible apply State.setEnc_sound
    | with_reducible apply State.log_sound | with_reducible apply State.encFaultHooks_sound | with_reducible apply State.transient_sound
    | with_reducible apply outSound_next | with_reducible apply sound_ite | with_reducible apply outSound_ite

theorem State.rampCycle_sound {s : State} (hs : s.Sound) (a : Nat) (r : StopRec) : (State.rampCycle s a r).Sound := by
  unfold State.rampCycle
  try dsimp only
  repeat' first
    | with_reducible assumption | with_reducible apply State.setAxis_sound

theorem State.takeStart_sound {s : State} (hs : s.Sound) (n : Nat) (a : Nat) (pos : Nat) (q : Nat) : (State.takeStart s n a pos q).Sound := by
  unfold State.takeStart
  try dsimp only
  repeat' first
    | with_reducible assumption | with_reducible apply State.axLog_sound | with_reducible apply State.beginStop_sound
    | with_reducible apply State.showTable_sound | with_reducible apply State.freeTable_sound | with_reducible apply State.setFld_sound
    | with_reducible apply State.setAxis_sound | with_reducible apply State.syncHeld_sound | with_reducible apply State.setAxState_sound
    | with_reducible apply outSound_next | with_reducible apply sound_ite | with_reducible apply outSound_ite
    | with_reducible apply sound_foldl | with_reducible intro _ _ _ _ | with_reducible intro _ _ _ | with_reducible intro _ _
    | with_reducible apply sound_ite_snd | with_reducible refine sound_of_snd (by assumption) ?_
    | with_reducible refine sound_of_fst (by assumption) ?_ | with_reducible refine sound_of_trd (by assumption) ?_
    | with_reducible apply sound_foldl_fst | with_reducible apply sound_foldl_snd | split | dsimp only | simp only [sound_mk, sound_mk_evl]

theorem State.axCatch_sound {s : State} (hs : s.Sound) (n : Nat) (a : Nat) (pos : Nat) (q : Nat) : (State.axCatch s n a pos q).Sound := by
  unfold State.axCatch
  try dsimp only
  repeat' first
    | with_reducible assumption | with_reducible apply State.setAxis_sound | with_reducible apply State.takeStart_sound
    | with_reducible apply State.setAxState_sound | with_reducible apply State.playTable_sound | with_reducible apply outSound_next
    | with_reducible apply sound_ite | with_reducible apply outSound_ite | with_reducible apply sound_foldl | with_reducible intro _ _ _ _
    | with_reducible intro _ _ _ | with_reducible intro _ _ | with_reducible apply sound_ite_snd
    | with_reducible refine sound_of_snd (by assumption) ?_ | with_reducible refine sound_of_fst (by assumption) ?_
    | with_reducible refine sound_of_trd (by assumption) ?_ | with_reducible apply sound_foldl_fst | with_reducible apply sound_foldl_snd
    | split | dsimp only | simp only [sound_mk, sound_mk_evl]

theorem execGearSwitch_sound {s : State} (hs : s.Sound) (a : Fin 32) : OutSound (execGearSwitch a s) := by
  unfold execGearSwitch
  try dsimp only
  repeat' first
    | with_reducible assumption | with_reducible apply State.gearSwitch_sound | with_reducible apply outSound_next
    | with_reducible apply sound_ite | with_reducible apply outSound_ite | with_reducible apply sound_foldl | with_reducible intro _ _ _ _
    | with_reducible intro _ _ _ | with_reducible intro _ _ | with_reducible apply sound_ite_snd
    | with_reducible refine sound_of_snd (by assumption) ?_ | with_reducible refine sound_of_fst (by assumption) ?_
    | with_reducible refine sound_of_trd (by assumption) ?_ | with_reducible apply sound_foldl_fst | with_reducible apply sound_foldl_snd
    | split | dsimp only | simp only [sound_mk, sound_mk_evl]

theorem State.homeParkAt_sound {s : State} (hs : s.Sound) (n : Nat) (a : Nat) (h : Home) (x : Axis) (v : ℚ) : (State.homeParkAt s n a h x v).Sound := by
  unfold State.homeParkAt
  try dsimp only
  repeat' first
    | with_reducible assumption | with_reducible apply State.homeStop_sound | with_reducible apply State.setAxis_sound
    | with_reducible apply outSound_next | with_reducible apply sound_ite | with_reducible apply outSound_ite
    | with_reducible apply sound_foldl | with_reducible intro _ _ _ _ | with_reducible intro _ _ _ | with_reducible intro _ _
    | with_reducible apply sound_ite_snd | with_reducible refine sound_of_snd (by assumption) ?_
    | with_reducible refine sound_of_fst (by assumption) ?_ | with_reducible refine sound_of_trd (by assumption) ?_
    | with_reducible apply sound_foldl_fst | with_reducible apply sound_foldl_snd | split | dsimp only | simp only [sound_mk, sound_mk_evl]

theorem State.homeMove_sound {s : State} (hs : s.Sound) (n : Nat) (a : Nat) (h : Home) (x : Axis) (v : ℚ) : (State.homeMove s n a h x v).Sound := by
  unfold State.homeMove
  try dsimp only
  repeat' first
    | with_reducible assumption | with_reducible apply State.setAxis_sound | with_reducible apply State.homeStop_sound
    | with_reducible apply State.homeParkAt_sound | with_reducible apply outSound_next | with_reducible apply sound_ite
    | with_reducible apply outSound_ite | with_reducible apply sound_foldl | with_reducible intro _ _ _ _ | with_reducible intro _ _ _
    | with_reducible intro _ _ | with_reducible apply sound_ite_snd | with_reducible refine sound_of_snd (by assumption) ?_
    | with_reducible refine sound_of_fst (by assumption) ?_ | with_reducible refine sound_of_trd (by assumption) ?_
    | with_reducible apply sound_foldl_fst | with_reducible apply sound_foldl_snd | split | dsimp only | simp only [sound_mk, sound_mk_evl]

theorem State.homeCycle_sound {s : State} (hs : s.Sound) (n : Nat) (a : Nat) (h : Home) : (State.homeCycle s n a h).Sound := by
  unfold State.homeCycle
  try dsimp only
  repeat' first
    | with_reducible assumption | with_reducible apply State.rampCycle_sound | with_reducible apply State.homeMove_sound
    | with_reducible apply State.setAxis_sound | with_reducible apply outSound_next | with_reducible apply sound_ite
    | with_reducible apply outSound_ite | with_reducible apply sound_foldl | with_reducible intro _ _ _ _ | with_reducible intro _ _ _
    | with_reducible intro _ _ | with_reducible apply sound_ite_snd | with_reducible refine sound_of_snd (by assumption) ?_
    | with_reducible refine sound_of_fst (by assumption) ?_ | with_reducible refine sound_of_trd (by assumption) ?_
    | with_reducible apply sound_foldl_fst | with_reducible apply sound_foldl_snd | split | dsimp only | simp only [sound_mk, sound_mk_evl]

theorem State.follow_sound {s : State} (hs : s.Sound) (n : Nat) (a : Nat) (g : Gear) : (State.follow s n a g).Sound := by
  unfold State.follow
  try dsimp only
  repeat' first
    | with_reducible assumption | with_reducible apply State.deviation_sound | with_reducible apply State.setAxis_sound
    | with_reducible apply State.ramp_sound | with_reducible apply State.releaseTable_sound | with_reducible apply State.axLog_sound
    | with_reducible apply State.setFld_sound | with_reducible apply State.setAxState_sound | with_reducible apply outSound_next
    | with_reducible apply sound_ite | with_reducible apply outSound_ite | with_reducible apply sound_foldl | with_reducible intro _ _ _ _
    | with_reducible intro _ _ _ | with_reducible intro _ _ | with_reducible apply sound_ite_snd
    | with_reducible refine sound_of_snd (by assumption) ?_ | with_reducible refine sound_of_fst (by assumption) ?_
    | with_reducible refine sound_of_trd (by assumption) ?_ | with_reducible apply sound_foldl_fst | with_reducible apply sound_foldl_snd
    | split | dsimp only | simp only [sound_mk, sound_mk_evl]

theorem State.clearDone_sound {s : State} (hs : s.Sound) (n : Nat) (a : Nat) : (State.clearDone s n a).Sound := by
  unfold State.clearDone
  try dsimp only
  repeat' first
    | with_reducible assumption | with_reducible apply State.setAxis_sound | with_reducible apply outSound_next
    | with_reducible apply sound_ite | with_reducible apply outSound_ite | with_reducible apply sound_foldl | with_reducible intro _ _ _ _
    | with_reducible intro _ _ _ | with_reducible intro _ _ | with_reducible apply sound_ite_snd
    | with_reducible refine sound_of_snd (by assumption) ?_ | with_reducible refine sound_of_fst (by assumption) ?_
    | with_reducible refine sound_of_trd (by assumption) ?_ | with_reducible apply sound_foldl_fst | with_reducible apply sound_foldl_snd
    | split | dsimp only | simp only [sound_mk, sound_mk_evl]

theorem State.stageCycle_sound {s : State} (hs : s.Sound) (n : Nat) (a : Nat) (differ : Bool) : (State.stageCycle s n a differ).Sound := by
  unfold State.stageCycle
  try dsimp only
  repeat' first
    | with_reducible assumption | with_reducible apply State.setAxis_sound | with_reducible apply State.axHaltFault_sound
    | with_reducible apply State.axLog_sound | with_reducible apply State.fatal_sound | with_reducible apply State.follow_sound
    | with_reducible apply State.interpolate_sound | with_reducible apply State.rampCycle_sound
    | with_reducible apply State.homeCycle_sound | with_reducible apply State.stepPins_sound | with_reducible apply State.clearDone_sound
    | with_reducible apply outSound_next | with_reducible apply sound_ite | with_reducible apply outSound_ite
    | with_reducible apply sound_foldl | with_reducible intro _ _ _ _ | with_reducible intro _ _ _ | with_reducible intro _ _
    | with_reducible apply sound_ite_snd | with_reducible refine sound_of_snd (by assumption) ?_
    | with_reducible refine sound_of_fst (by assumption) ?_ | with_reducible refine sound_of_trd (by assumption) ?_
    | with_reducible apply sound_foldl_fst | with_reducible apply sound_foldl_snd | split | dsimp only | simp only [sound_mk, sound_mk_evl]

theorem State.homeEdge_sound {s : State} (hs : s.Sound) (n : Nat) (a : Nat) (index : Bool) : (State.homeEdge s n a index).Sound := by
  unfold State.homeEdge
  try dsimp only
  repeat' first
    | with_reducible assumption | with_reducible apply State.homeStop_sound | with_reducible apply State.setAxis_sound
    | with_reducible apply outSound_next | with_reducible apply sound_ite | with_reducible apply outSound_ite
    | with_reducible apply sound_foldl | with_reducible intro _ _ _ _ | with_reducible intro _ _ _ | with_reducible intro _ _
    | with_reducible apply sound_ite_snd | with_reducible refine sound_of_snd (by assumption) ?_
    | with_reducible refine sound_of_fst (by assumption) ?_ | with_reducible refine sound_of_trd (by assumption) ?_
    | with_reducible apply sound_foldl_fst | with_reducible apply sound_foldl_snd | split | dsimp only | simp only [sound_mk, sound_mk_evl]

theorem execHomeReferenceEdge_sound {s : State} (hs : s.Sound) (a : Fin 32) (index : Bool) : OutSound (execHomeReferenceEdge a index s) := by
  unfold execHomeReferenceEdge
  try dsimp only
  repeat' first
    | with_reducible assumption | with_reducible apply State.homeEdge_sound | with_reducible apply outSound_next
    | with_reducible apply sound_ite | with_reducible apply outSound_ite | with_reducible apply sound_foldl | with_reducible intro _ _ _ _
    | with_reducible intro _ _ _ | with_reducible intro _ _ | with_reducible apply sound_ite_snd
    | with_reducible refine sound_of_snd (by assumption) ?_ | with_reducible refine sound_of_fst (by assumption) ?_
    | with_reducible refine sound_of_trd (by assumption) ?_ | with_reducible apply sound_foldl_fst | with_reducible apply sound_foldl_snd
    | split | dsimp only | simp only [sound_mk, sound_mk_evl]

theorem State.settle_sound {s : State} (hs : s.Sound) (a : Nat) : (State.settle s a).Sound := by
  unfold State.settle
  try dsimp only
  repeat' first
    | with_reducible assumption | with_reducible apply State.deviation_sound | with_reducible apply State.setAxis_sound
    | with_reducible apply outSound_next | with_reducible apply sound_ite | with_reducible apply outSound_ite
    | with_reducible apply sound_foldl | with_reducible intro _ _ _ _ | with_reducible intro _ _ _ | with_reducible intro _ _
    | with_reducible apply sound_ite_snd | with_reducible refine sound_of_snd (by assumption) ?_
    | with_reducible refine sound_of_fst (by assumption) ?_ | with_reducible refine sound_of_trd (by assumption) ?_
    | with_reducible apply sound_foldl_fst | with_reducible apply sound_foldl_snd | split | dsimp only | simp only [sound_mk, sound_mk_evl]

theorem execEncIndex_sound {s : State} (hs : s.Sound) (g : Fin 16) : OutSound (execEncIndex g s) := by
  unfold execEncIndex
  try dsimp only
  repeat' first
    | with_reducible assumption | with_reducible apply State.setFld_sound | with_reducible apply State.setNum_sound
    | with_reducible apply outSound_next | with_reducible apply sound_ite | with_reducible apply outSound_ite
    | with_reducible apply sound_foldl | with_reducible intro _ _ _ _ | with_reducible intro _ _ _ | with_reducible intro _ _
    | with_reducible apply sound_ite_snd | with_reducible refine sound_of_snd (by assumption) ?_
    | with_reducible refine sound_of_fst (by assumption) ?_ | with_reducible refine sound_of_trd (by assumption) ?_
    | with_reducible apply sound_foldl_fst | with_reducible apply sound_foldl_snd | split | dsimp only | simp only [sound_mk, sound_mk_evl]

theorem execEncoderEdge_sound {s : State} (hs : s.Sound) (g : Fin 16) (a : Bool) (b : Bool) : OutSound (execEncoderEdge g a b s) := by
  unfold execEncoderEdge
  try dsimp only
  repeat' first
    | with_reducible assumption | with_reducible apply State.setEnc_sound | with_reducible apply State.setFld_sound
    | with_reducible apply State.countFld_sound | with_reducible apply State.log_sound | with_reducible apply State.encFaultHooks_sound
    | with_reducible apply State.transient_sound | with_reducible apply State.encAdd_sound | with_reducible apply outSound_next
    | with_reducible apply sound_ite | with_reducible apply outSound_ite | with_reducible apply sound_foldl | with_reducible intro _ _ _ _
    | with_reducible intro _ _ _ | with_reducible intro _ _ | with_reducible apply sound_ite_snd
    | with_reducible refine sound_of_snd (by assumption) ?_ | with_reducible refine sound_of_fst (by assumption) ?_
    | with_reducible refine sound_of_trd (by assumption) ?_ | with_reducible apply sound_foldl_fst | with_reducible apply sound_foldl_snd
    | split | dsimp only | simp only [sound_mk, sound_mk_evl]

theorem execEncLineFaultEnd_sound {s : State} (hs : s.Sound) (g : Fin 16) : OutSound (execEncLineFaultEnd g s) := by
  unfold execEncLineFaultEnd
  try dsimp only
  repeat' first
    | with_reducible assumption | with_reducible apply State.setFld_sound | with_reducible apply State.setEnc_sound
    | with_reducible apply State.encFaultHooks_sound | with_reducible apply outSound_next | with_reducible apply sound_ite
    | with_reducible apply outSound_ite | with_reducible apply sound_foldl | with_reducible intro _ _ _ _ | with_reducible intro _ _ _
    | with_reducible intro _ _ | with_reducible apply sound_ite_snd | with_reducible refine sound_of_snd (by assumption) ?_
    | with_reducible refine sound_of_fst (by assumption) ?_ | with_reducible refine sound_of_trd (by assumption) ?_
    | with_reducible apply sound_foldl_fst | with_reducible apply sound_foldl_snd | split | dsimp only | simp only [sound_mk, sound_mk_evl]

theorem State.axisTask_sound {s : State} (hs : s.Sound) (n : Nat) (x : Nat) (w : Nat) (a : Nat) : (State.axisTask s n x w a).Sound := by
  unfold State.axisTask
  try dsimp only
  repeat' first
    | with_reducible assumption | with_reducible apply State.checkOps_sound | with_reducible apply State.setMotHeld_sound
    | with_reducible apply State.setEntry_sound | with_reducible apply outSound_next | with_reducible apply sound_ite
    | with_reducible apply outSound_ite | with_reducible apply sound_foldl | with_reducible intro _ _ _ _ | with_reducible intro _ _ _
    | with_reducible intro _ _ | with_reducible apply sound_ite_snd | with_reducible refine sound_of_snd (by assumption) ?_
    | with_reducible refine sound_of_fst (by assumption) ?_ | with_reducible refine sound_of_trd (by assumption) ?_
    | with_reducible apply sound_foldl_fst | with_reducible apply sound_foldl_snd | split | dsimp only | simp only [sound_mk, sound_mk_evl]

theorem execAxisTask_sound {s : State} (hs : s.Sound) (n : Fin 9) (x : Fin 512) : OutSound (execAxisTask n x s) := by
  unfold execAxisTask
  try dsimp only
  repeat' first
    | with_reducible assumption | with_reducible apply State.axisTask_sound | with_reducible apply outSound_next
    | with_reducible apply sound_ite | with_reducible apply outSound_ite | with_reducible apply sound_foldl | with_reducible intro _ _ _ _
    | with_reducible intro _ _ _ | with_reducible intro _ _ | with_reducible apply sound_ite_snd
    | with_reducible refine sound_of_snd (by assumption) ?_ | with_reducible refine sound_of_fst (by assumption) ?_
    | with_reducible refine sound_of_trd (by assumption) ?_ | with_reducible apply sound_foldl_fst | with_reducible apply sound_foldl_snd
    | split | dsimp only | simp only [sound_mk, sound_mk_evl]

theorem State.axAtRest_sound {s : State} (hs : s.Sound) (n : Nat) (a : Nat) : (State.axAtRest s n a).Sound := by
  unfold State.axAtRest
  try dsimp only
  repeat' first
    | with_reducible assumption | with_reducible apply State.motStatus_sound | with_reducible apply State.settle_sound
    | with_reducible apply State.setAxState_sound | with_reducible apply State.setAxis_sound | with_reducible apply State.axFault_sound
    | with_reducible apply State.homeLeg_sound | with_reducible apply State.homePark_sound | with_reducible apply State.axLog_sound
    | with_reducible apply State.homeFail_sound | with_reducible apply outSound_next | with_reducible apply sound_ite
    | with_reducible apply outSound_ite | with_reducible apply sound_foldl | with_reducible intro _ _ _ _ | with_reducible intro _ _ _
    | with_reducible intro _ _ | with_reducible apply sound_ite_snd | with_reducible refine sound_of_snd (by assumption) ?_
    | with_reducible refine sound_of_fst (by assumption) ?_ | with_reducible refine sound_of_trd (by assumption) ?_
    | with_reducible apply sound_foldl_fst | with_reducible apply sound_foldl_snd | split | dsimp only | simp only [sound_mk, sound_mk_evl]

theorem execHwLimitActive_sound {s : State} (hs : s.Sound) (a : Fin 32) (pos : Bool) : OutSound (execHwLimitActive a pos s) := by
  unfold execHwLimitActive
  try dsimp only
  repeat' first
    | with_reducible assumption | with_reducible apply State.hwLimit_sound | with_reducible apply outSound_next
    | with_reducible apply sound_ite | with_reducible apply outSound_ite | with_reducible apply sound_foldl | with_reducible intro _ _ _ _
    | with_reducible intro _ _ _ | with_reducible intro _ _ | with_reducible apply sound_ite_snd
    | with_reducible refine sound_of_snd (by assumption) ?_ | with_reducible refine sound_of_fst (by assumption) ?_
    | with_reducible refine sound_of_trd (by assumption) ?_ | with_reducible apply sound_foldl_fst | with_reducible apply sound_foldl_snd
    | split | dsimp only | simp only [sound_mk, sound_mk_evl]

theorem execStepStageCycle_sound {s : State} (hs : s.Sound) (a : Fin 32) (differ : Bool) : OutSound (execStepStageCycle a differ s) := by
  unfold execStepStageCycle
  try dsimp only
  repeat' first
    | with_reducible assumption | with_reducible apply State.stageCycle_sound | with_reducible apply outSound_next
    | with_reducible apply sound_ite | with_reducible apply outSound_ite | with_reducible apply sound_foldl | with_reducible intro _ _ _ _
    | with_reducible intro _ _ _ | with_reducible intro _ _ | with_reducible apply sound_ite_snd
    | with_reducible refine sound_of_snd (by assumption) ?_ | with_reducible refine sound_of_fst (by assumption) ?_
    | with_reducible refine sound_of_trd (by assumption) ?_ | with_reducible apply sound_foldl_fst | with_reducible apply sound_foldl_snd
    | split | dsimp only | simp only [sound_mk, sound_mk_evl]

theorem execAxisAtRest_sound {s : State} (hs : s.Sound) (a : Fin 32) : OutSound (execAxisAtRest a s) := by
  unfold execAxisAtRest
  try dsimp only
  repeat' first
    | with_reducible assumption | with_reducible apply State.axAtRest_sound | with_reducible apply outSound_next
    | with_reducible apply sound_ite | with_reducible apply outSound_ite | with_reducible apply sound_foldl | with_reducible intro _ _ _ _
    | with_reducible intro _ _ _ | with_reducible intro _ _ | with_reducible apply sound_ite_snd
    | with_reducible refine sound_of_snd (by assumption) ?_ | with_reducible refine sound_of_fst (by assumption) ?_
    | with_reducible refine sound_of_trd (by assumption) ?_ | with_reducible apply sound_foldl_fst | with_reducible apply sound_foldl_snd
    | split | dsimp only | simp only [sound_mk, sound_mk_evl]

end Sys2Proof.Machine
end

