-- ==== Sys2Proof/Laws/SoundOut.lean ====
section
/-! SUPPORT. The operations and commands of Machine/Out.lean keep a sound state sound. -/
namespace Sys2Proof.Machine

theorem State.setVdrBit_sound {s : State} (hs : s.Sound) (f : Nat → Nat) (n : Nat) (b : Bool) : (State.setVdrBit s f n b).Sound := by
  unfold State.setVdrBit
  try dsimp only
  repeat' first
    | with_reducible assumption | with_reducible apply State.setRbit_sound

theorem State.setVdr_sound {s : State} (hs : s.Sound) (n : Nat) (v : Vdr) : (State.setVdr s n v).Sound := by
  unfold State.setVdr
  try dsimp only
  repeat' first
    | with_reducible assumption | with_reducible apply outSound_next | with_reducible apply sound_ite | with_reducible apply outSound_ite
    | with_reducible apply sound_foldl | with_reducible intro _ _ _ _ | with_reducible intro _ _ _ | with_reducible intro _ _
    | with_reducible apply sound_ite_snd | with_reducible refine sound_of_snd (by assumption) ?_
    | with_reducible refine sound_of_fst (by assumption) ?_ | with_reducible refine sound_of_trd (by assumption) ?_
    | with_reducible apply sound_foldl_fst | with_reducible apply sound_foldl_snd | split | dsimp only | simp only [sound_mk, sound_mk_evl]

theorem State.reportSat_sound {s : State} (hs : s.Sound) (m : Nat) (sig : Nat) (hi : Bool) (lo : Bool) : (State.reportSat s m sig hi lo).Sound := by
  unfold State.reportSat
  try dsimp only
  repeat' first
    | with_reducible assumption | with_reducible apply State.satfb_sound | with_reducible apply outSound_next
    | with_reducible apply sound_ite | with_reducible apply outSound_ite | with_reducible apply sound_foldl | with_reducible intro _ _ _ _
    | with_reducible intro _ _ _ | with_reducible intro _ _ | with_reducible apply sound_ite_snd
    | with_reducible refine sound_of_snd (by assumption) ?_ | with_reducible refine sound_of_fst (by assumption) ?_
    | with_reducible refine sound_of_trd (by assumption) ?_ | with_reducible apply sound_foldl_fst | with_reducible apply sound_foldl_snd
    | split

theorem State.vdrDrive_sound {s : State} (hs : s.Sound) (n : Nat) : (State.vdrDrive s n).Sound := by
  unfold State.vdrDrive
  try dsimp only
  repeat' first
    | with_reducible assumption | with_reducible apply State.setVdrBit_sound | with_reducible apply State.setVdr_sound
    | with_reducible apply State.setFld_sound | with_reducible apply State.reportSat_sound | with_reducible apply outSound_next
    | with_reducible apply sound_ite | with_reducible apply outSound_ite | with_reducible apply sound_foldl | with_reducible intro _ _ _ _
    | with_reducible intro _ _ _ | with_reducible intro _ _ | with_reducible apply sound_ite_snd
    | with_reducible refine sound_of_snd (by assumption) ?_ | with_reducible refine sound_of_fst (by assumption) ?_
    | with_reducible refine sound_of_trd (by assumption) ?_ | with_reducible apply sound_foldl_fst | with_reducible apply sound_foldl_snd
    | split

theorem State.groupDrive_sound {s : State} (hs : s.Sound) (g : Nat) : (State.groupDrive s g).Sound := by
  unfold State.groupDrive
  try dsimp only
  repeat' first
    | with_reducible assumption | with_reducible apply State.vdrDrive_sound | with_reducible apply outSound_next
    | with_reducible apply sound_ite | with_reducible apply outSound_ite | with_reducible apply sound_foldl | with_reducible intro _ _ _ _
    | with_reducible intro _ _ _

theorem State.setClo_sound {s : State} (hs : s.Sound) (n : Nat) (c : Clo) : (State.setClo s n c).Sound := by
  unfold State.setClo
  try dsimp only
  repeat' first
    | with_reducible assumption | with_reducible apply outSound_next | with_reducible apply sound_ite | with_reducible apply outSound_ite
    | with_reducible apply sound_foldl | with_reducible intro _ _ _ _ | with_reducible intro _ _ _ | with_reducible intro _ _
    | with_reducible apply sound_ite_snd | with_reducible refine sound_of_snd (by assumption) ?_
    | with_reducible refine sound_of_fst (by assumption) ?_ | with_reducible refine sound_of_trd (by assumption) ?_
    | with_reducible apply sound_foldl_fst | with_reducible apply sound_foldl_snd | split | dsimp only | simp only [sound_mk, sound_mk_evl]

theorem State.cloDrive_sound {s : State} (hs : s.Sound) (n : Nat) : (State.cloDrive s n).Sound := by
  unfold State.cloDrive
  try dsimp only
  repeat' first
    | with_reducible assumption | with_reducible apply State.setClo_sound | with_reducible apply State.setFld_sound
    | with_reducible apply State.reportSat_sound | with_reducible apply outSound_next | with_reducible apply sound_ite

theorem State.outputsReset_sound {s : State} (hs : s.Sound) : (State.outputsReset s).Sound := by
  unfold State.outputsReset
  try dsimp only
  repeat' first
    | with_reducible assumption | with_reducible apply State.setClo_sound | with_reducible apply State.setFld_sound
    | with_reducible apply State.cloDrive_sound | with_reducible apply State.vdrDrive_sound | with_reducible apply State.setVdrBit_sound
    | with_reducible apply State.setVdr_sound | with_reducible apply outSound_next | with_reducible apply sound_ite
    | with_reducible apply outSound_ite | with_reducible apply sound_foldl | with_reducible intro _ _ _ _ | with_reducible intro _ _ _

theorem execHartBurstRead_sound {s : State} (hs : s.Sound) (n : Fin 16) : OutSound (execHartBurstRead n s) := by
  unfold execHartBurstRead
  try dsimp only
  repeat' first
    | with_reducible assumption | with_reducible apply State.setBus_sound | with_reducible apply State.setFld_sound
    | with_reducible apply outSound_next

theorem State.coilAbsent_sound {s : State} (hs : s.Sound) (g : Nat) : (State.coilAbsent s g).Sound := by
  unfold State.coilAbsent
  try dsimp only
  repeat' first
    | with_reducible assumption | with_reducible apply State.groupDrive_sound | with_reducible apply State.log_sound
    | with_reducible apply State.setRbit_sound | with_reducible apply outSound_next | with_reducible apply sound_ite

theorem execCloReadmit_sound {s : State} (hs : s.Sound) (n : Fin 16) : OutSound (execCloReadmit n s) := by
  unfold execCloReadmit
  try dsimp only
  repeat' first
    | with_reducible assumption | with_reducible apply State.setClo_sound | with_reducible apply State.cloDrive_sound
    | with_reducible apply State.readmit_sound | with_reducible apply outSound_next | with_reducible apply sound_ite
    | with_reducible apply outSound_ite | with_reducible apply sound_foldl | with_reducible intro _ _ _ _ | with_reducible intro _ _ _
    | with_reducible intro _ _ | with_reducible apply sound_ite_snd | with_reducible refine sound_of_snd (by assumption) ?_
    | with_reducible refine sound_of_fst (by assumption) ?_ | with_reducible refine sound_of_trd (by assumption) ?_
    | with_reducible apply sound_foldl_fst | with_reducible apply sound_foldl_snd | split | dsimp only | simp only [sound_mk, sound_mk_evl]

theorem State.cloClr_sound {s : State} (hs : s.Sound) (mask : Nat) : (State.cloClr s mask).Sound := by
  unfold State.cloClr
  try dsimp only
  repeat' first
    | with_reducible assumption | with_reducible apply State.cloDrive_sound | with_reducible apply State.setFld_sound
    | with_reducible apply outSound_next | with_reducible apply sound_ite | with_reducible apply outSound_ite
    | with_reducible apply sound_foldl | with_reducible intro _ _ _ _ | with_reducible intro _ _ _

theorem execCloClr_sound {s : State} (hs : s.Sound) (mask : BitVec 16) : OutSound (execCloClr mask s) := by
  unfold execCloClr
  try dsimp only
  repeat' first
    | with_reducible assumption | with_reducible apply State.cloClr_sound | with_reducible apply outSound_next

theorem State.hartEnd_sound {s : State} (hs : s.Sound) (n : Nat) (result : Nat) : (State.hartEnd s n result).Sound := by
  unfold State.hartEnd
  try dsimp only
  repeat' first
    | with_reducible assumption | with_reducible apply State.setRbit_sound | with_reducible apply State.setFld_sound
    | with_reducible apply State.logIf_sound

theorem State.hartGo_sound {s : State} (hs : s.Sound) (n : Nat) : (State.hartGo s n).Sound := by
  unfold State.hartGo
  try dsimp only
  repeat' first
    | with_reducible assumption | with_reducible apply State.hartEnd_sound | with_reducible apply State.emit_sound
    | with_reducible apply State.setClo_sound | with_reducible apply State.setFld_sound | with_reducible apply outSound_next
    | with_reducible apply sound_ite

theorem execHartGo_sound {s : State} (hs : s.Sound) (n : Fin 16) : OutSound (execHartGo n s) := by
  unfold execHartGo
  try dsimp only
  repeat' first
    | with_reducible assumption | with_reducible apply State.hartGo_sound | with_reducible apply outSound_next

theorem execVdrReadmit_sound {s : State} (hs : s.Sound) (n : Fin 64) : OutSound (execVdrReadmit n s) := by
  unfold execVdrReadmit
  try dsimp only
  repeat' first
    | with_reducible assumption | with_reducible apply State.vdrDrive_sound | with_reducible apply State.readmit_sound
    | with_reducible apply outSound_next

theorem State.coilBack_sound {s : State} (hs : s.Sound) (g : Nat) : (State.coilBack s g).Sound := by
  unfold State.coilBack
  try dsimp only
  repeat' first
    | with_reducible assumption | with_reducible apply State.setRbit_sound | with_reducible apply State.setVdr_sound
    | with_reducible apply State.groupDrive_sound | with_reducible apply outSound_next | with_reducible apply sound_ite
    | with_reducible apply outSound_ite | with_reducible apply sound_foldl | with_reducible intro _ _ _ _ | with_reducible intro _ _ _

theorem execValveCooled_sound {s : State} (hs : s.Sound) (n : Fin 64) : OutSound (execValveCooled n s) := by
  unfold execValveCooled
  try dsimp only
  repeat' first
    | with_reducible assumption | with_reducible apply State.vdrDrive_sound | with_reducible apply State.setVdr_sound
    | with_reducible apply outSound_next | with_reducible apply sound_ite | with_reducible apply outSound_ite
    | with_reducible apply sound_foldl | with_reducible intro _ _ _ _ | with_reducible intro _ _ _ | with_reducible intro _ _
    | with_reducible apply sound_ite_snd | with_reducible refine sound_of_snd (by assumption) ?_
    | with_reducible refine sound_of_fst (by assumption) ?_ | with_reducible refine sound_of_trd (by assumption) ?_
    | with_reducible apply sound_foldl_fst | with_reducible apply sound_foldl_snd | split | dsimp only | simp only [sound_mk, sound_mk_evl]

theorem State.cloFlt_sound {s : State} (hs : s.Sound) (n : Nat) : (State.cloFlt s n).Sound := by
  unfold State.cloFlt
  try dsimp only
  repeat' first
    | with_reducible assumption | with_reducible apply State.setRbit_sound

theorem execLoopLowTimeout_sound {s : State} (hs : s.Sound) (n : Fin 16) : OutSound (execLoopLowTimeout n s) := by
  unfold execLoopLowTimeout
  try dsimp only
  repeat' first
    | with_reducible assumption | with_reducible apply State.cloDrive_sound | with_reducible apply State.log_sound
    | with_reducible apply State.cloFlt_sound | with_reducible apply State.setFld_sound | with_reducible apply outSound_next
    | with_reducible apply sound_ite | with_reducible apply outSound_ite

theorem State.outputsStroke_sound {s : State} (hs : s.Sound) (m : Nat) : (State.outputsStroke s m).Sound := by
  unfold State.outputsStroke
  try dsimp only
  repeat' first
    | with_reducible assumption | with_reducible apply outSound_next | with_reducible apply sound_ite | with_reducible apply outSound_ite
    | with_reducible apply sound_foldl | with_reducible intro _ _ _ _ | with_reducible intro _ _ _ | with_reducible intro _ _
    | with_reducible apply sound_ite_snd | with_reducible refine sound_of_snd (by assumption) ?_
    | with_reducible refine sound_of_fst (by assumption) ?_ | with_reducible refine sound_of_trd (by assumption) ?_
    | with_reducible apply sound_foldl_fst | with_reducible apply sound_foldl_snd | split | dsimp only | simp only [sound_mk, sound_mk_evl]

theorem execCloThermalResume_sound {s : State} (hs : s.Sound) (n : Fin 16) (echo : Bool) : OutSound (execCloThermalResume n echo s) := by
  unfold execCloThermalResume
  try dsimp only
  repeat' first
    | with_reducible assumption | with_reducible apply State.setClo_sound | with_reducible apply State.setFld_sound
    | with_reducible apply State.cloDrive_sound | with_reducible apply State.transient_sound | with_reducible apply outSound_next
    | with_reducible apply sound_ite | with_reducible apply outSound_ite

theorem State.valveCommand_sound {s : State} (hs : s.Sound) (n : Nat) (on : Bool) : (State.valveCommand s n on).Sound := by
  unfold State.valveCommand
  try dsimp only
  repeat' first
    | with_reducible assumption | with_reducible apply State.vdrDrive_sound | with_reducible apply State.setVdrBit_sound
    | with_reducible apply outSound_next | with_reducible apply sound_ite

theorem execCloThermalShutdown_sound {s : State} (hs : s.Sound) (n : Fin 16) : OutSound (execCloThermalShutdown n s) := by
  unfold execCloThermalShutdown
  try dsimp only
  repeat' first
    | with_reducible assumption | with_reducible apply State.cloDrive_sound | with_reducible apply State.transient_sound
    | with_reducible apply State.log_sound | with_reducible apply State.cloFlt_sound | with_reducible apply State.setFld_sound
    | with_reducible apply outSound_next | with_reducible apply sound_ite | with_reducible apply outSound_ite

theorem execComplianceSet_sound {s : State} (hs : s.Sound) (n : Fin 16) : OutSound (execComplianceSet n s) := by
  unfold execComplianceSet
  try dsimp only
  repeat' first
    | with_reducible assumption | with_reducible apply State.cloDrive_sound | with_reducible apply State.log_sound
    | with_reducible apply State.cloFlt_sound | with_reducible apply State.setFld_sound | with_reducible apply outSound_next
    | with_reducible apply sound_ite | with_reducible apply outSound_ite

theorem State.outCheck_sound {s : State} (hs : s.Sound) (link : Nat) (source : Nat) (subst : Word) (t : Token) : (State.outCheck s link source subst t).2.2.Sound := by
  unfold State.outCheck
  try dsimp only
  repeat' first
    | with_reducible assumption | with_reducible apply State.check_sound | with_reducible apply State.logIf_sound
    | with_reducible apply outSound_next | with_reducible apply sound_ite | with_reducible apply outSound_ite
    | with_reducible apply sound_foldl | with_reducible intro _ _ _ _ | with_reducible intro _ _ _ | with_reducible intro _ _
    | with_reducible apply sound_ite_snd | with_reducible refine sound_of_snd (by assumption) ?_
    | with_reducible refine sound_of_fst (by assumption) ?_ | with_reducible refine sound_of_trd (by assumption) ?_
    | with_reducible apply sound_foldl_fst | with_reducible apply sound_foldl_snd | split

theorem State.vdrToken_sound {s : State} (hs : s.Sound) (n : Nat) (link : Nat) (t : Token) : (State.vdrToken s n link t).Sound := by
  unfold State.vdrToken
  try dsimp only
  repeat' first
    | with_reducible assumption | with_reducible apply State.outCheck_sound | with_reducible apply State.vdrDrive_sound
    | with_reducible apply State.setVdr_sound | with_reducible apply outSound_next | with_reducible apply sound_ite

theorem State.setArea_sound {s : State} (hs : s.Sound) (a : Nat) (l : List Word) : (State.setArea s a l).Sound := by
  unfold State.setArea
  try dsimp only
  repeat' first
    | with_reducible assumption | with_reducible apply State.wr_sound | with_reducible apply outSound_next | with_reducible apply sound_ite
    | with_reducible apply outSound_ite | with_reducible apply sound_foldl | with_reducible intro _ _ _ _ | with_reducible intro _ _ _

theorem execHartBurstRx_sound {s : State} (hs : s.Sound) (n : Fin 16) (frame : List Word) : OutSound (execHartBurstRx n frame s) := by
  unfold execHartBurstRx
  try dsimp only
  repeat' first
    | with_reducible assumption | with_reducible apply State.setFld_sound | with_reducible apply State.setArea_sound
    | with_reducible apply outSound_next | with_reducible apply sound_ite

theorem execValveOvercurrent_sound {s : State} (hs : s.Sound) (n : Fin 64) : OutSound (execValveOvercurrent n s) := by
  unfold execValveOvercurrent
  try dsimp only
  repeat' first
    | with_reducible assumption | with_reducible apply State.setVdr_sound | with_reducible apply State.log_sound
    | with_reducible apply State.setVdrBit_sound | with_reducible apply State.vdrDrive_sound | with_reducible apply State.transient_sound
    | with_reducible apply outSound_next | with_reducible apply sound_ite | with_reducible apply outSound_ite

theorem State.heaterFollow_sound {s : State} (hs : s.Sound) (n : Nat) : (State.heaterFollow s n).Sound := by
  unfold State.heaterFollow
  try dsimp only
  repeat' first
    | with_reducible assumption | with_reducible apply State.vdrDrive_sound | with_reducible apply State.setVdrBit_sound
    | with_reducible apply State.setVdr_sound | with_reducible apply outSound_next | with_reducible apply sound_ite
    | with_reducible apply outSound_ite | with_reducible apply sound_foldl | with_reducible intro _ _ _ _ | with_reducible intro _ _ _
    | with_reducible intro _ _ | with_reducible apply sound_ite_snd | with_reducible refine sound_of_snd (by assumption) ?_
    | with_reducible refine sound_of_fst (by assumption) ?_ | with_reducible refine sound_of_trd (by assumption) ?_
    | with_reducible apply sound_foldl_fst | with_reducible apply sound_foldl_snd | split | dsimp only | simp only [sound_mk, sound_mk_evl]

theorem execValveRetryExpire_sound {s : State} (hs : s.Sound) (n : Fin 64) : OutSound (execValveRetryExpire n s) := by
  unfold execValveRetryExpire
  try dsimp only
  repeat' first
    | with_reducible assumption | with_reducible apply State.vdrDrive_sound | with_reducible apply State.setVdr_sound
    | with_reducible apply outSound_next | with_reducible apply sound_ite | with_reducible apply outSound_ite
    | with_reducible apply sound_foldl | with_reducible intro _ _ _ _ | with_reducible intro _ _ _ | with_reducible intro _ _
    | with_reducible apply sound_ite_snd | with_reducible refine sound_of_snd (by assumption) ?_
    | with_reducible refine sound_of_fst (by assumption) ?_ | with_reducible refine sound_of_trd (by assumption) ?_
    | with_reducible apply sound_foldl_fst | with_reducible apply sound_foldl_snd | split | dsimp only | simp only [sound_mk, sound_mk_evl]

theorem State.cloTimeout_sound {s : State} (hs : s.Sound) (n : Nat) : (State.cloTimeout s n).Sound := by
  unfold State.cloTimeout
  try dsimp only
  repeat' first
    | with_reducible assumption | with_reducible apply State.cloDrive_sound | with_reducible apply State.log_sound
    | with_reducible apply State.setFld_sound | with_reducible apply outSound_next | with_reducible apply sound_ite

theorem State.vdrTimeout_sound {s : State} (hs : s.Sound) (n : Nat) : (State.vdrTimeout s n).Sound := by
  unfold State.vdrTimeout
  try dsimp only
  repeat' first
    | with_reducible assumption | with_reducible apply State.setVdr_sound | with_reducible apply State.log_sound
    | with_reducible apply outSound_next | with_reducible apply sound_ite

theorem execProducerTimeout_sound {s : State} (hs : s.Sound) (out : Fin 80) : OutSound (execProducerTimeout out s) := by
  unfold execProducerTimeout
  try dsimp only
  repeat' first
    | with_reducible assumption | with_reducible apply State.cloTimeout_sound | with_reducible apply State.vdrTimeout_sound
    | with_reducible apply outSound_next | with_reducible apply sound_ite

theorem State.heatersFollow_sound {s : State} (hs : s.Sound) : (State.heatersFollow s).Sound := by
  unfold State.heatersFollow
  try dsimp only
  repeat' first
    | with_reducible assumption | with_reducible apply State.heaterFollow_sound | with_reducible apply outSound_next
    | with_reducible apply sound_ite | with_reducible apply outSound_ite | with_reducible apply sound_foldl | with_reducible intro _ _ _ _
    | with_reducible intro _ _ _ | with_reducible intro _ _ | with_reducible apply sound_ite_snd
    | with_reducible refine sound_of_snd (by assumption) ?_ | with_reducible refine sound_of_fst (by assumption) ?_
    | with_reducible refine sound_of_trd (by assumption) ?_ | with_reducible apply sound_foldl_fst | with_reducible apply sound_foldl_snd
    | split | dsimp only | simp only [sound_mk, sound_mk_evl]

theorem execAlarmNrTimeout_sound {s : State} (hs : s.Sound) (n : Fin 16) : OutSound (execAlarmNrTimeout n s) := by
  unfold execAlarmNrTimeout
  try dsimp only
  repeat' first
    | with_reducible assumption | with_reducible apply State.log_sound | with_reducible apply State.cloFlt_sound
    | with_reducible apply State.setFld_sound | with_reducible apply outSound_next | with_reducible apply sound_ite
    | with_reducible apply outSound_ite

theorem execHartResponse_sound {s : State} (hs : s.Sound) (n : Fin 16) (ok : Bool) (frame : List Word) : OutSound (execHartResponse n ok frame s) := by
  unfold execHartResponse
  try dsimp only
  repeat' first
    | with_reducible assumption | with_reducible apply State.hartEnd_sound | with_reducible apply State.setFld_sound
    | with_reducible apply State.setArea_sound | with_reducible apply State.emit_sound | with_reducible apply State.setClo_sound
    | with_reducible apply outSound_next | with_reducible apply sound_ite | with_reducible apply outSound_ite

theorem State.heatersEnable_sound {s : State} (hs : s.Sound) : (State.heatersEnable s).Sound := by
  unfold State.heatersEnable
  try dsimp only
  repeat' first
    | with_reducible assumption | with_reducible apply State.vdrDrive_sound | with_reducible apply State.setVdr_sound
    | with_reducible apply outSound_next | with_reducible apply sound_ite | with_reducible apply outSound_ite
    | with_reducible apply sound_foldl | with_reducible intro _ _ _ _ | with_reducible intro _ _ _ | with_reducible intro _ _
    | with_reducible apply sound_ite_snd | with_reducible refine sound_of_snd (by assumption) ?_
    | with_reducible refine sound_of_fst (by assumption) ?_ | with_reducible refine sound_of_trd (by assumption) ?_
    | with_reducible apply sound_foldl_fst | with_reducible apply sound_foldl_snd | split | dsimp only | simp only [sound_mk, sound_mk_evl]

theorem execValveOpenLoad_sound {s : State} (hs : s.Sound) (n : Fin 64) (isOpen : Bool) : OutSound (execValveOpenLoad n isOpen s) := by
  unfold execValveOpenLoad
  try dsimp only
  repeat' first
    | with_reducible assumption | with_reducible apply State.setVdrBit_sound | with_reducible apply State.logIf_sound
    | with_reducible apply outSound_next | with_reducible apply sound_ite | with_reducible apply outSound_ite

theorem execHeaterCycleDecision_sound {s : State} (hs : s.Sound) (n : Fin 64) : OutSound (execHeaterCycleDecision n s) := by
  unfold execHeaterCycleDecision
  try dsimp only
  repeat' first
    | with_reducible assumption | with_reducible apply State.vdrDrive_sound | with_reducible apply State.setVdrBit_sound
    | with_reducible apply State.setVdr_sound | with_reducible apply outSound_next | with_reducible apply sound_ite
    | with_reducible apply outSound_ite

theorem State.cloToken_sound {s : State} (hs : s.Sound) (n : Nat) (link : Nat) (t : Token) (echo : Bool) : (State.cloToken s n link t echo).Sound := by
  unfold State.cloToken
  try dsimp only
  repeat' first
    | with_reducible assumption | with_reducible apply State.outCheck_sound | with_reducible apply State.count_sound
    | with_reducible apply State.setClo_sound | with_reducible apply State.setFld_sound | with_reducible apply State.transient_sound
    | with_reducible apply State.cloDrive_sound | with_reducible apply outSound_next | with_reducible apply sound_ite

theorem execValveHitEnd_sound {s : State} (hs : s.Sound) (n : Fin 64) : OutSound (execValveHitEnd n s) := by
  unfold execValveHitEnd
  try dsimp only
  repeat' first
    | with_reducible assumption | with_reducible apply State.setVdr_sound | with_reducible apply outSound_next
    | with_reducible apply sound_ite | with_reducible apply outSound_ite

theorem execCoilSupplyRestored_sound {s : State} (hs : s.Sound) (g : Fin 4) : OutSound (execCoilSupplyRestored g s) := by
  unfold execCoilSupplyRestored
  try dsimp only
  repeat' first
    | with_reducible assumption | with_reducible apply State.coilBack_sound | with_reducible apply outSound_next

theorem execHeadroomMeasure_sound {s : State} (hs : s.Sound) (n : Fin 16) (head : Word) (meas : Word) : OutSound (execHeadroomMeasure n head meas s) := by
  unfold execHeadroomMeasure
  try dsimp only
  repeat' first
    | with_reducible assumption | with_reducible apply State.wr_sound | with_reducible apply State.setClo_sound
    | with_reducible apply outSound_next

theorem execValveOvertemp_sound {s : State} (hs : s.Sound) (n : Fin 64) : OutSound (execValveOvertemp n s) := by
  unfold execValveOvertemp
  try dsimp only
  repeat' first
    | with_reducible assumption | with_reducible apply State.setVdr_sound | with_reducible apply State.log_sound
    | with_reducible apply State.setVdrBit_sound | with_reducible apply State.vdrDrive_sound | with_reducible apply State.transient_sound
    | with_reducible apply outSound_next | with_reducible apply sound_ite | with_reducible apply outSound_ite

theorem execOutputToken_sound {s : State} (hs : s.Sound) (out : Fin 80) (link : Nat) (t : Token) (echo : Bool) : OutSound (execOutputToken out link t echo s) := by
  unfold execOutputToken
  try dsimp only
  repeat' first
    | with_reducible assumption | with_reducible apply State.cloToken_sound | with_reducible apply State.vdrToken_sound
    | with_reducible apply outSound_next | with_reducible apply sound_ite

theorem execCoilSupplyAbsent_sound {s : State} (hs : s.Sound) (g : Fin 4) : OutSound (execCoilSupplyAbsent g s) := by
  unfold execCoilSupplyAbsent
  try dsimp only
  repeat' first
    | with_reducible assumption | with_reducible apply State.coilAbsent_sound | with_reducible apply outSound_next

theorem execComplianceClear_sound {s : State} (hs : s.Sound) (n : Fin 16) : OutSound (execComplianceClear n s) := by
  unfold execComplianceClear
  try dsimp only
  repeat' first
    | with_reducible assumption | with_reducible apply State.cloDrive_sound | with_reducible apply State.log_sound
    | with_reducible apply State.setFld_sound | with_reducible apply outSound_next | with_reducible apply sound_ite
    | with_reducible apply outSound_ite

theorem execHartNoResponse_sound {s : State} (hs : s.Sound) (n : Fin 16) : OutSound (execHartNoResponse n s) := by
  unfold execHartNoResponse
  try dsimp only
  repeat' first
    | with_reducible assumption | with_reducible apply State.hartEnd_sound | with_reducible apply State.setFld_sound
    | with_reducible apply outSound_next | with_reducible apply sound_ite | with_reducible apply outSound_ite
    | with_reducible apply sound_foldl | with_reducible intro _ _ _ _ | with_reducible intro _ _ _ | with_reducible intro _ _
    | with_reducible apply sound_ite_snd | with_reducible refine sound_of_snd (by assumption) ?_
    | with_reducible refine sound_of_fst (by assumption) ?_ | with_reducible refine sound_of_trd (by assumption) ?_
    | with_reducible apply sound_foldl_fst | with_reducible apply sound_foldl_snd | split | dsimp only | simp only [sound_mk, sound_mk_evl]

end Sys2Proof.Machine
end

