-- ==== Sys2Proof/Laws/SoundPvmOps.lean ====
section
/-! SUPPORT. The operations and commands of Machine/PvmOps.lean keep a sound state sound. -/
namespace Sys2Proof.Machine

theorem State.setPvm_sound {s : State} (hs : s.Sound) (p : PvmState) : (State.setPvm s p).Sound := by
  unfold State.setPvm
  try dsimp only
  repeat' first
    | with_reducible assumption | with_reducible apply outSound_next | with_reducible apply sound_ite | with_reducible apply outSound_ite
    | with_reducible apply sound_foldl | with_reducible intro _ _ _ _ | with_reducible intro _ _ _ | with_reducible intro _ _
    | with_reducible apply sound_ite_snd | with_reducible refine sound_of_snd (by assumption) ?_
    | with_reducible refine sound_of_fst (by assumption) ?_ | with_reducible refine sound_of_trd (by assumption) ?_
    | with_reducible apply sound_foldl_fst | with_reducible apply sound_foldl_snd | split | dsimp only | simp only [sound_mk, sound_mk_evl]

theorem State.setBrk_sound {s : State} (hs : s.Sound) (b : Nat) (x : Brk) : (State.setBrk s b x).Sound := by
  unfold State.setBrk
  try dsimp only
  repeat' first
    | with_reducible assumption | with_reducible apply State.setPvm_sound

theorem State.pvmIrq_sound {s : State} (hs : s.Sound) (b : Nat) : (State.pvmIrq s b).Sound := by
  unfold State.pvmIrq
  try dsimp only
  repeat' first
    | with_reducible assumption | with_reducible apply State.setRbit_sound

theorem State.setConnState_sound {s : State} (hs : s.Sound) (k : Nat) (v : Nat) : (State.setConnState s k v).Sound := by
  unfold State.setConnState
  try dsimp only
  repeat' first
    | with_reducible assumption | with_reducible apply State.pvmIrq_sound | with_reducible apply State.setFld_sound
    | with_reducible apply outSound_next | with_reducible apply sound_ite

theorem State.mbAnswer_sound {s : State} (hs : s.Sound) (mb : Nat) (result : Nat) (detail : Nat) : (State.mbAnswer s mb result detail).Sound := by
  unfold State.mbAnswer
  try dsimp only
  repeat' first
    | with_reducible assumption | with_reducible apply State.setPvm_sound

theorem State.mbGo_sound {s : State} (hs : s.Sound) (mb : Nat) : (State.mbGo s mb).Sound := by
  unfold State.mbGo
  try dsimp only
  repeat' first
    | with_reducible assumption | with_reducible apply State.setFld_sound | with_reducible apply outSound_next
    | with_reducible apply sound_ite

theorem State.mbDone_sound {s : State} (hs : s.Sound) (mb : Nat) : (State.mbDone s mb).Sound := by
  unfold State.mbDone
  try dsimp only
  repeat' first
    | with_reducible assumption | with_reducible apply State.setPvm_sound | with_reducible apply State.setNum_sound
    | with_reducible apply State.setFld_sound | with_reducible apply outSound_next | with_reducible apply sound_ite
    | with_reducible apply outSound_ite | with_reducible apply sound_foldl | with_reducible intro _ _ _ _ | with_reducible intro _ _ _
    | with_reducible intro _ _ | with_reducible apply sound_ite_snd | with_reducible refine sound_of_snd (by assumption) ?_
    | with_reducible refine sound_of_fst (by assumption) ?_ | with_reducible refine sound_of_trd (by assumption) ?_
    | with_reducible apply sound_foldl_fst | with_reducible apply sound_foldl_snd | split

theorem State.setSin_sound {s : State} (hs : s.Sound) (i : Nat) (x : Sin) : (State.setSin s i x).Sound := by
  unfold State.setSin
  try dsimp only
  repeat' first
    | with_reducible assumption | with_reducible apply State.setPvm_sound

theorem State.setConn_sound {s : State} (hs : s.Sound) (k : Nat) (x : SConn) : (State.setConn s k x).Sound := by
  unfold State.setConn
  try dsimp only
  repeat' first
    | with_reducible assumption | with_reducible apply State.setPvm_sound

theorem State.setVcmd_sound {s : State} (hs : s.Sound) (v : Nat) (b : Bool) : (State.setVcmd s v b).Sound := by
  unfold State.setVcmd
  try dsimp only
  repeat' first
    | with_reducible assumption | with_reducible apply State.setRbit_sound

end Sys2Proof.Machine
end

