-- ==== Sys2Proof/Laws/SoundPvm.lean ====
section
/-! SUPPORT. The operations and commands of Machine/Pvm.lean keep a sound state sound. -/
namespace Sys2Proof.Machine

theorem State.setFldBit_sound {s : State} (hs : s.Sound) (f : Fld) (i : Nat) (b : Bool) : (State.setFldBit s f i b).Sound := by
  unfold State.setFldBit
  try dsimp only
  repeat' first
    | with_reducible assumption | with_reducible apply State.setFld_sound

theorem State.brkFaulted_sound {s : State} (hs : s.Sound) (b : Nat) (cause : Nat) (fatal : Bool) : (State.brkFaulted s b cause fatal).Sound := by
  unfold State.brkFaulted
  try dsimp only
  repeat' first
    | with_reducible assumption | with_reducible apply State.setFldBit_sound | with_reducible apply State.fatal_sound
    | with_reducible apply State.transient_sound | with_reducible apply State.setBrk_sound | with_reducible apply outSound_next
    | with_reducible apply sound_ite

theorem State.groupCycle_sound {s : State} (hs : s.Sound) (g : Nat) : (State.groupCycle s g).Sound := by
  unfold State.groupCycle
  try dsimp only
  repeat' first
    | with_reducible assumption | with_reducible apply State.pvmIrq_sound | with_reducible apply State.setFldBit_sound
    | with_reducible apply State.log_sound | with_reducible apply State.groupDrive_sound | with_reducible apply outSound_next
    | with_reducible apply sound_ite

theorem State.grpFaulted_sound {s : State} (hs : s.Sound) (g : Nat) (cause : Nat) (fatal : Bool) : (State.grpFaulted s g cause fatal).Sound := by
  unfold State.grpFaulted
  try dsimp only
  repeat' first
    | with_reducible assumption | with_reducible apply State.setFldBit_sound | with_reducible apply State.fatal_sound
    | with_reducible apply State.transient_sound | with_reducible apply outSound_next | with_reducible apply sound_ite

theorem execBrakeOutputTest_sound {s : State} (hs : s.Sound) (o : Fin 12) (ok : Bool) : OutSound (execBrakeOutputTest o ok s) := by
  unfold execBrakeOutputTest
  try dsimp only
  repeat' first
    | with_reducible assumption | with_reducible apply State.setPvm_sound | with_reducible apply State.brkFaulted_sound
    | with_reducible apply State.groupCycle_sound | with_reducible apply State.grpFaulted_sound | with_reducible apply outSound_next
    | with_reducible apply sound_ite | with_reducible apply outSound_ite

theorem State.oeWithdraw_sound {s : State} (hs : s.Sound) (cause : Nat) : (State.oeWithdraw s cause).Sound := by
  unfold State.oeWithdraw
  try dsimp only
  repeat' first
    | with_reducible assumption | with_reducible apply State.outputsReset_sound | with_reducible apply State.log_sound
    | with_reducible apply State.pvmIrq_sound | with_reducible apply State.setFld_sound | with_reducible apply outSound_next
    | with_reducible apply sound_ite

theorem State.brkCycle_sound {s : State} (hs : s.Sound) (b : Nat) : (State.brkCycle s b).Sound := by
  unfold State.brkCycle
  try dsimp only
  repeat' first
    | with_reducible assumption | with_reducible apply State.setBrk_sound | with_reducible apply State.setFldBit_sound
    | with_reducible apply outSound_next | with_reducible apply sound_ite | with_reducible apply outSound_ite
    | with_reducible apply sound_foldl | with_reducible intro _ _ _ _ | with_reducible intro _ _ _ | with_reducible intro _ _
    | with_reducible apply sound_ite_snd | with_reducible refine sound_of_snd (by assumption) ?_
    | with_reducible refine sound_of_fst (by assumption) ?_ | with_reducible refine sound_of_trd (by assumption) ?_
    | with_reducible apply sound_foldl_fst | with_reducible apply sound_foldl_snd | split

theorem State.brkTestEnd_sound {s : State} (hs : s.Sound) (b : Nat) (code : Nat) : (State.brkTestEnd s b code).Sound := by
  unfold State.brkTestEnd
  try dsimp only
  repeat' first
    | with_reducible assumption | with_reducible apply State.setBrk_sound | with_reducible apply State.pvmIrq_sound
    | with_reducible apply State.setFld_sound | with_reducible apply State.setFldBit_sound | with_reducible apply State.log_sound
    | with_reducible apply outSound_next | with_reducible apply sound_ite | with_reducible apply outSound_ite
    | with_reducible apply sound_foldl | with_reducible intro _ _ _ _ | with_reducible intro _ _ _ | with_reducible intro _ _
    | with_reducible apply sound_ite_snd | with_reducible refine sound_of_snd (by assumption) ?_
    | with_reducible refine sound_of_fst (by assumption) ?_ | with_reducible refine sound_of_trd (by assumption) ?_
    | with_reducible apply sound_foldl_fst | with_reducible apply sound_foldl_snd | split

theorem State.pavOff_sound {s : State} (hs : s.Sound) : (State.pavOff s).Sound := by
  unfold State.pavOff
  try dsimp only
  repeat' first
    | with_reducible assumption | with_reducible apply State.groupCycle_sound | with_reducible apply State.setNum_sound
    | with_reducible apply State.brkCycle_sound | with_reducible apply State.brkTestEnd_sound | with_reducible apply State.setFld_sound
    | with_reducible apply outSound_next | with_reducible apply sound_ite | with_reducible apply outSound_ite
    | with_reducible apply sound_foldl | with_reducible intro _ _ _ _ | with_reducible intro _ _ _

theorem State.pavSafe_sound {s : State} (hs : s.Sound) (cause : Nat) : (State.pavSafe s cause).Sound := by
  unfold State.pavSafe
  try dsimp only
  repeat' first
    | with_reducible assumption | with_reducible apply State.setFld_sound | with_reducible apply State.pavOff_sound
    | with_reducible apply State.oeWithdraw_sound | with_reducible apply State.log_sound

theorem State.pavStart_sound {s : State} (hs : s.Sound) : (State.pavStart s).Sound := by
  unfold State.pavStart
  try dsimp only
  repeat' first
    | with_reducible assumption | with_reducible apply State.pavOff_sound | with_reducible apply State.setFld_sound
    | with_reducible apply State.setPvm_sound | with_reducible apply State.setNum_sound

theorem execPvmParCommit_sound {s : State} (hs : s.Sound) : OutSound (execPvmParCommit s) := by
  unfold execPvmParCommit
  try dsimp only
  repeat' first
    | with_reducible assumption | with_reducible apply State.mbAnswer_sound | with_reducible apply State.log_sound
    | with_reducible apply State.setPvm_sound | with_reducible apply State.pavStart_sound | with_reducible apply outSound_next
    | with_reducible apply sound_ite | with_reducible apply outSound_ite | with_reducible apply sound_foldl | with_reducible intro _ _ _ _
    | with_reducible intro _ _ _ | with_reducible intro _ _ | with_reducible apply sound_ite_snd
    | with_reducible refine sound_of_snd (by assumption) ?_ | with_reducible refine sound_of_fst (by assumption) ?_
    | with_reducible refine sound_of_trd (by assumption) ?_ | with_reducible apply sound_foldl_fst | with_reducible apply sound_foldl_snd
    | split

theorem State.valvesClear_sound {s : State} (hs : s.Sound) : (State.valvesClear s).Sound := by
  unfold State.valvesClear
  try dsimp only
  repeat' first
    | with_reducible assumption | with_reducible apply State.setPvm_sound | with_reducible apply State.setNum_sound
    | with_reducible apply State.setFld_sound | with_reducible apply outSound_next | with_reducible apply sound_ite
    | with_reducible apply outSound_ite | with_reducible apply sound_foldl | with_reducible intro _ _ _ _ | with_reducible intro _ _ _

theorem State.demandTests_sound {s : State} (hs : s.Sound) (f : Nat) : (State.demandTests s f).Sound := by
  unfold State.demandTests
  try dsimp only
  repeat' first
    | with_reducible assumption | with_reducible apply State.brkTestEnd_sound | with_reducible apply outSound_next
    | with_reducible apply sound_ite | with_reducible apply outSound_ite | with_reducible apply sound_foldl | with_reducible intro _ _ _ _
    | with_reducible intro _ _ _ | with_reducible intro _ _ | with_reducible apply sound_ite_snd
    | with_reducible refine sound_of_snd (by assumption) ?_ | with_reducible refine sound_of_fst (by assumption) ?_
    | with_reducible refine sound_of_trd (by assumption) ?_ | with_reducible apply sound_foldl_fst | with_reducible apply sound_foldl_snd
    | split

theorem State.funCycle_sound {s : State} (hs : s.Sound) (f : Nat) : (State.funCycle s f).Sound := by
  unfold State.funCycle
  try dsimp only
  repeat' first
    | with_reducible assumption | with_reducible apply State.setFldBit_sound | with_reducible apply State.demandTests_sound
    | with_reducible apply State.pvmIrq_sound | with_reducible apply State.log_sound | with_reducible apply outSound_next
    | with_reducible apply sound_ite

theorem execPvmParWrite_sound {s : State} (hs : s.Sound) : OutSound (execPvmParWrite s) := by
  unfold execPvmParWrite
  try dsimp only
  repeat' first
    | with_reducible assumption | with_reducible apply State.mbAnswer_sound | with_reducible apply State.log_sound
    | with_reducible apply State.setPvm_sound | with_reducible apply outSound_next | with_reducible apply sound_ite
    | with_reducible apply outSound_ite

theorem execPvmBtStart_sound {s : State} (hs : s.Sound) : OutSound (execPvmBtStart s) := by
  unfold execPvmBtStart
  try dsimp only
  repeat' first
    | with_reducible assumption | with_reducible apply State.mbAnswer_sound | with_reducible apply State.setBrk_sound
    | with_reducible apply State.setFld_sound | with_reducible apply State.setFldBit_sound | with_reducible apply outSound_next
    | with_reducible apply sound_ite | with_reducible apply outSound_ite | with_reducible apply sound_foldl | with_reducible intro _ _ _ _
    | with_reducible intro _ _ _ | with_reducible intro _ _ | with_reducible apply sound_ite_snd
    | with_reducible refine sound_of_snd (by assumption) ?_ | with_reducible refine sound_of_fst (by assumption) ?_
    | with_reducible refine sound_of_trd (by assumption) ?_ | with_reducible apply sound_foldl_fst | with_reducible apply sound_foldl_snd
    | split

theorem State.connTick_sound {s : State} (hs : s.Sound) (strokes : Bool) (m : Nat) : (State.connTick s strokes m).Sound := by
  unfold State.connTick
  try dsimp only
  repeat' first
    | with_reducible assumption | with_reducible apply State.setPvm_sound | with_reducible apply outSound_next
    | with_reducible apply sound_ite | with_reducible apply outSound_ite | with_reducible apply sound_foldl | with_reducible intro _ _ _ _
    | with_reducible intro _ _ _ | with_reducible intro _ _ | with_reducible apply sound_ite_snd
    | with_reducible refine sound_of_snd (by assumption) ?_ | with_reducible refine sound_of_fst (by assumption) ?_
    | with_reducible refine sound_of_trd (by assumption) ?_ | with_reducible apply sound_foldl_fst | with_reducible apply sound_foldl_snd
    | split | dsimp only | simp only [sound_mk, sound_mk_evl]

theorem execBrakeTestTimeout_sound {s : State} (hs : s.Sound) (b : Fin 8) : OutSound (execBrakeTestTimeout b s) := by
  unfold execBrakeTestTimeout
  try dsimp only
  repeat' first
    | with_reducible assumption | with_reducible apply State.brkTestEnd_sound | with_reducible apply outSound_next
    | with_reducible apply sound_ite | with_reducible apply outSound_ite | with_reducible apply sound_foldl | with_reducible intro _ _ _ _
    | with_reducible intro _ _ _ | with_reducible intro _ _ | with_reducible apply sound_ite_snd
    | with_reducible refine sound_of_snd (by assumption) ?_ | with_reducible refine sound_of_fst (by assumption) ?_
    | with_reducible refine sound_of_trd (by assumption) ?_ | with_reducible apply sound_foldl_fst | with_reducible apply sound_foldl_snd
    | split | dsimp only | simp only [sound_mk, sound_mk_evl]

theorem State.grpMeasure_sound {s : State} (hs : s.Sound) (g : Nat) (h : Bool) (l : Bool) (ma : Nat) (imax : Nat) : (State.grpMeasure s g h l ma imax).Sound := by
  unfold State.grpMeasure
  try dsimp only
  repeat' first
    | with_reducible assumption | with_reducible apply State.setPvm_sound | with_reducible apply State.grpFaulted_sound
    | with_reducible apply outSound_next | with_reducible apply sound_ite

theorem State.brkSlip_sound {s : State} (hs : s.Sound) (b : Nat) (a : Nat) (sp : Int) (ep : Int) : (State.brkSlip s b a sp ep).Sound := by
  unfold State.brkSlip
  try dsimp only
  repeat' first
    | with_reducible assumption | with_reducible apply State.setBrk_sound | with_reducible apply State.brkTestEnd_sound
    | with_reducible apply outSound_next | with_reducible apply sound_ite | with_reducible apply outSound_ite
    | with_reducible apply sound_foldl | with_reducible intro _ _ _ _ | with_reducible intro _ _ _ | with_reducible intro _ _
    | with_reducible apply sound_ite_snd | with_reducible refine sound_of_snd (by assumption) ?_
    | with_reducible refine sound_of_fst (by assumption) ?_ | with_reducible refine sound_of_trd (by assumption) ?_
    | with_reducible apply sound_foldl_fst | with_reducible apply sound_foldl_snd | split

theorem State.brkMeasure_sound {s : State} (hs : s.Sound) (b : Nat) (h : Bool) (l : Bool) (ma : Nat) (sp : Int) (ep : Int) : (State.brkMeasure s b h l ma sp ep).Sound := by
  unfold State.brkMeasure
  try dsimp only
  repeat' first
    | with_reducible assumption | with_reducible apply State.setBrk_sound | with_reducible apply State.brkFaulted_sound
    | with_reducible apply State.brkSlip_sound | with_reducible apply outSound_next | with_reducible apply sound_ite
    | with_reducible apply outSound_ite | with_reducible apply sound_foldl | with_reducible intro _ _ _ _ | with_reducible intro _ _ _
    | with_reducible intro _ _ | with_reducible apply sound_ite_snd | with_reducible refine sound_of_snd (by assumption) ?_
    | with_reducible refine sound_of_fst (by assumption) ?_ | with_reducible refine sound_of_trd (by assumption) ?_
    | with_reducible apply sound_foldl_fst | with_reducible apply sound_foldl_snd | split

theorem State.senseMeasure_sound {s : State} (hs : s.Sound) (v : Nat) (sense : Bool) : (State.senseMeasure s v sense).Sound := by
  unfold State.senseMeasure
  try dsimp only
  repeat' first
    | with_reducible assumption | with_reducible apply State.setPvm_sound | with_reducible apply State.logIf_sound
    | with_reducible apply State.grpFaulted_sound | with_reducible apply State.log_sound | with_reducible apply outSound_next
    | with_reducible apply sound_ite

theorem State.pavTick_sound {s : State} (hs : s.Sound) : (State.pavTick s).Sound := by
  unfold State.pavTick
  try dsimp only
  repeat' first
    | with_reducible assumption | with_reducible apply State.setPvm_sound | with_reducible apply State.connTick_sound
    | with_reducible apply outSound_next | with_reducible apply sound_ite | with_reducible apply outSound_ite
    | with_reducible apply sound_foldl | with_reducible intro _ _ _ _ | with_reducible intro _ _ _ | with_reducible intro _ _
    | with_reducible apply sound_ite_snd | with_reducible refine sound_of_snd (by assumption) ?_
    | with_reducible refine sound_of_fst (by assumption) ?_ | with_reducible refine sound_of_trd (by assumption) ?_
    | with_reducible apply sound_foldl_fst | with_reducible apply sound_foldl_snd | split | dsimp only | simp only [sound_mk, sound_mk_evl]

theorem execPavilionCycle_sound {s : State} (hs : s.Sound) (x : PavMeas) : OutSound (execPavilionCycle x s) := by
  unfold execPavilionCycle
  try dsimp only
  repeat' first
    | with_reducible assumption | with_reducible apply State.brkMeasure_sound | with_reducible apply State.grpMeasure_sound
    | with_reducible apply State.senseMeasure_sound | with_reducible apply State.funCycle_sound | with_reducible apply State.setPvm_sound
    | with_reducible apply State.groupCycle_sound | with_reducible apply State.setRbit_sound | with_reducible apply State.pavTick_sound
    | with_reducible apply State.brkCycle_sound | with_reducible apply outSound_next | with_reducible apply sound_ite
    | with_reducible apply outSound_ite | with_reducible apply sound_foldl | with_reducible intro _ _ _ _ | with_reducible intro _ _ _

theorem State.pairWatch_sound {s : State} (hs : s.Sound) (i : Nat) : (State.pairWatch s i).Sound := by
  unfold State.pairWatch
  try dsimp only
  repeat' first
    | with_reducible assumption | with_reducible apply State.setSin_sound | with_reducible apply outSound_next
    | with_reducible apply sound_ite | with_reducible apply outSound_ite | with_reducible apply sound_foldl | with_reducible intro _ _ _ _
    | with_reducible intro _ _ _ | with_reducible intro _ _ | with_reducible apply sound_ite_snd
    | with_reducible refine sound_of_snd (by assumption) ?_ | with_reducible refine sound_of_fst (by assumption) ?_
    | with_reducible refine sound_of_trd (by assumption) ?_ | with_reducible apply sound_foldl_fst | with_reducible apply sound_foldl_snd
    | split | dsimp only | simp only [sound_mk, sound_mk_evl]

theorem State.sinEdge_sound {s : State} (hs : s.Sound) (i : Nat) (q : Bool) : (State.sinEdge s i q).Sound := by
  unfold State.sinEdge
  try dsimp only
  repeat' first
    | with_reducible assumption | with_reducible apply State.setSin_sound | with_reducible apply State.setPvm_sound
    | with_reducible apply outSound_next | with_reducible apply sound_ite | with_reducible apply outSound_ite
    | with_reducible apply sound_foldl | with_reducible intro _ _ _ _ | with_reducible intro _ _ _ | with_reducible intro _ _
    | with_reducible apply sound_ite_snd | with_reducible refine sound_of_snd (by assumption) ?_
    | with_reducible refine sound_of_fst (by assumption) ?_ | with_reducible refine sound_of_trd (by assumption) ?_
    | with_reducible apply sound_foldl_fst | with_reducible apply sound_foldl_snd | split | dsimp only | simp only [sound_mk, sound_mk_evl]

theorem State.syncSin_sound {s : State} (hs : s.Sound) : (State.syncSin s).Sound := by
  unfold State.syncSin
  try dsimp only
  repeat' first
    | with_reducible assumption | with_reducible apply State.setRbit_sound | with_reducible apply outSound_next
    | with_reducible apply sound_ite | with_reducible apply outSound_ite | with_reducible apply sound_foldl | with_reducible intro _ _ _ _
    | with_reducible intro _ _ _

theorem State.sinClear_sound {s : State} (hs : s.Sound) (i : Nat) : (State.sinClear s i).Sound := by
  unfold State.sinClear
  try dsimp only
  repeat' first
    | with_reducible assumption | with_reducible apply State.setSin_sound | with_reducible apply outSound_next
    | with_reducible apply sound_ite | with_reducible apply outSound_ite | with_reducible apply sound_foldl | with_reducible intro _ _ _ _
    | with_reducible intro _ _ _

theorem execSafeInputQualify_sound {s : State} (hs : s.Sound) (i : Fin 16) : OutSound (execSafeInputQualify i s) := by
  unfold execSafeInputQualify
  try dsimp only
  repeat' first
    | with_reducible assumption | with_reducible apply State.pairWatch_sound | with_reducible apply State.sinEdge_sound
    | with_reducible apply State.setSin_sound | with_reducible apply State.syncSin_sound | with_reducible apply State.sinClear_sound
    | with_reducible apply outSound_next | with_reducible apply sound_ite | with_reducible apply outSound_ite
    | with_reducible apply sound_foldl | with_reducible intro _ _ _ _ | with_reducible intro _ _ _

theorem State.brkShow_sound {s : State} (hs : s.Sound) (b : Nat) : (State.brkShow s b).Sound := by
  unfold State.brkShow
  try dsimp only
  repeat' first
    | with_reducible assumption | with_reducible apply State.setFld_sound | with_reducible apply outSound_next
    | with_reducible apply sound_ite | with_reducible apply outSound_ite | with_reducible apply sound_foldl | with_reducible intro _ _ _ _
    | with_reducible intro _ _ _ | with_reducible intro _ _ | with_reducible apply sound_ite_snd
    | with_reducible refine sound_of_snd (by assumption) ?_ | with_reducible refine sound_of_fst (by assumption) ?_
    | with_reducible refine sound_of_trd (by assumption) ?_ | with_reducible apply sound_foldl_fst | with_reducible apply sound_foldl_snd
    | split | dsimp only | simp only [sound_mk, sound_mk_evl]

theorem State.pavStartEnd_sound {s : State} (hs : s.Sound) (switches : Nat) (selftest : Bool) : (State.pavStartEnd s switches selftest).1.Sound := by
  unfold State.pavStartEnd
  try dsimp only
  repeat' first
    | with_reducible assumption | with_reducible apply State.setFld_sound | with_reducible apply State.setPvm_sound
    | with_reducible apply State.brkShow_sound | with_reducible apply State.setNum_sound | with_reducible apply State.log_sound
    | with_reducible apply outSound_next | with_reducible apply sound_ite | with_reducible apply outSound_ite
    | with_reducible apply sound_foldl | with_reducible intro _ _ _ _ | with_reducible intro _ _ _ | with_reducible intro _ _
    | with_reducible apply sound_ite_snd | with_reducible refine sound_of_snd (by assumption) ?_
    | with_reducible refine sound_of_fst (by assumption) ?_ | with_reducible refine sound_of_trd (by assumption) ?_
    | with_reducible apply sound_foldl_fst | with_reducible apply sound_foldl_snd | split

theorem State.sinFault_sound {s : State} (hs : s.Sound) (i : Nat) (code : Nat) : (State.sinFault s i code).Sound := by
  unfold State.sinFault
  try dsimp only
  repeat' first
    | with_reducible assumption | with_reducible apply State.setSin_sound | with_reducible apply State.syncSin_sound
    | with_reducible apply State.log_sound | with_reducible apply outSound_next | with_reducible apply sound_ite
    | with_reducible apply outSound_ite | with_reducible apply sound_foldl | with_reducible intro _ _ _ _ | with_reducible intro _ _ _

theorem State.sinSample_sound {s : State} (hs : s.Sound) (i : Nat) (raw : Bool) : (State.sinSample s i raw).Sound := by
  unfold State.sinSample
  try dsimp only
  repeat' first
    | with_reducible assumption | with_reducible apply State.setSin_sound | with_reducible apply State.sinFault_sound
    | with_reducible apply outSound_next | with_reducible apply sound_ite

theorem execBrakeTestOverdue_sound {s : State} (hs : s.Sound) (b : Fin 8) : OutSound (execBrakeTestOverdue b s) := by
  unfold execBrakeTestOverdue
  try dsimp only
  repeat' first
    | with_reducible assumption | with_reducible apply State.pvmIrq_sound | with_reducible apply State.log_sound
    | with_reducible apply State.setFldBit_sound | with_reducible apply outSound_next | with_reducible apply sound_ite
    | with_reducible apply outSound_ite

theorem execFunctionResetPulse_sound {s : State} (hs : s.Sound) (f : Fin 4) (u : Unit) : OutSound (execFunctionResetPulse f u s) := by
  unfold execFunctionResetPulse
  try dsimp only
  repeat' first
    | with_reducible assumption | with_reducible apply State.setPvm_sound | with_reducible apply State.log_sound
    | with_reducible apply State.setFldBit_sound | with_reducible apply outSound_next | with_reducible apply sound_ite
    | with_reducible apply outSound_ite

theorem execPvmReadmit_sound {s : State} (hs : s.Sound) : OutSound (execPvmReadmit s) := by
  unfold execPvmReadmit
  try dsimp only
  repeat' first
    | with_reducible assumption | with_reducible apply State.mbAnswer_sound | with_reducible apply State.setConn_sound
    | with_reducible apply State.readmit_sound | with_reducible apply outSound_next | with_reducible apply sound_ite
    | with_reducible apply outSound_ite | with_reducible apply sound_foldl | with_reducible intro _ _ _ _ | with_reducible intro _ _ _
    | with_reducible intro _ _ | with_reducible apply sound_ite_snd | with_reducible refine sound_of_snd (by assumption) ?_
    | with_reducible refine sound_of_fst (by assumption) ?_ | with_reducible refine sound_of_trd (by assumption) ?_
    | with_reducible apply sound_foldl_fst | with_reducible apply sound_foldl_snd | split

theorem execBrakeTimerSave_sound {s : State} (hs : s.Sound) : OutSound (execBrakeTimerSave s) := by
  unfold execBrakeTimerSave
  try dsimp only
  repeat' first
    | with_reducible assumption | with_reducible apply State.setPvm_sound | with_reducible apply State.brkShow_sound
    | with_reducible apply State.setBrk_sound | with_reducible apply outSound_next | with_reducible apply sound_ite
    | with_reducible apply outSound_ite | with_reducible apply sound_foldl | with_reducible intro _ _ _ _ | with_reducible intro _ _ _

theorem execTestPulse_sound {s : State} (hs : s.Sound) (k : Fin 4) (low : Bool) : OutSound (execTestPulse k low s) := by
  unfold execTestPulse
  try dsimp only
  repeat' first
    | with_reducible assumption | with_reducible apply State.setPvm_sound | with_reducible apply State.setSin_sound
    | with_reducible apply State.sinFault_sound | with_reducible apply outSound_next | with_reducible apply sound_ite
    | with_reducible apply outSound_ite | with_reducible apply sound_foldl | with_reducible intro _ _ _ _ | with_reducible intro _ _ _

theorem execBrakeTestDue_sound {s : State} (hs : s.Sound) (b : Fin 8) : OutSound (execBrakeTestDue b s) := by
  unfold execBrakeTestDue
  try dsimp only
  repeat' first
    | with_reducible assumption | with_reducible apply State.pvmIrq_sound | with_reducible apply State.log_sound
    | with_reducible apply State.setFld_sound | with_reducible apply State.setFldBit_sound | with_reducible apply outSound_next
    | with_reducible apply sound_ite | with_reducible apply outSound_ite

theorem execPvmVwithdraw_sound {s : State} (hs : s.Sound) (mb : Fin 2) : OutSound (execPvmVwithdraw mb s) := by
  unfold execPvmVwithdraw
  try dsimp only
  repeat' first
    | with_reducible assumption | with_reducible apply State.setPvm_sound | with_reducible apply State.logIf_sound
    | with_reducible apply State.setFld_sound | with_reducible apply State.mbAnswer_sound | with_reducible apply outSound_next
    | with_reducible apply sound_ite | with_reducible apply outSound_ite

theorem execPvmBtEnd_sound {s : State} (hs : s.Sound) : OutSound (execPvmBtEnd s) := by
  unfold execPvmBtEnd
  try dsimp only
  repeat' first
    | with_reducible assumption | with_reducible apply State.mbAnswer_sound | with_reducible apply State.brkTestEnd_sound
    | with_reducible apply outSound_next | with_reducible apply sound_ite | with_reducible apply outSound_ite
    | with_reducible apply sound_foldl | with_reducible intro _ _ _ _ | with_reducible intro _ _ _ | with_reducible intro _ _
    | with_reducible apply sound_ite_snd | with_reducible refine sound_of_snd (by assumption) ?_
    | with_reducible refine sound_of_fst (by assumption) ?_ | with_reducible refine sound_of_trd (by assumption) ?_
    | with_reducible apply sound_foldl_fst | with_reducible apply sound_foldl_snd | split

theorem execPvmVset_sound {s : State} (hs : s.Sound) (mb : Fin 2) : OutSound (execPvmVset mb s) := by
  unfold execPvmVset
  try dsimp only
  repeat' first
    | with_reducible assumption | with_reducible apply State.mbAnswer_sound | with_reducible apply State.log_sound
    | with_reducible apply State.setPvm_sound | with_reducible apply State.setFld_sound | with_reducible apply outSound_next
    | with_reducible apply sound_ite | with_reducible apply outSound_ite | with_reducible apply sound_foldl | with_reducible intro _ _ _ _
    | with_reducible intro _ _ _ | with_reducible intro _ _ | with_reducible apply sound_ite_snd
    | with_reducible refine sound_of_snd (by assumption) ?_ | with_reducible refine sound_of_fst (by assumption) ?_
    | with_reducible refine sound_of_trd (by assumption) ?_ | with_reducible apply sound_foldl_fst | with_reducible apply sound_foldl_snd
    | split

theorem execPvmMailboxResponse_sound {s : State} (hs : s.Sound) : OutSound (execPvmMailboxResponse s) := by
  unfold execPvmMailboxResponse
  try dsimp only
  repeat' first
    | with_reducible assumption | with_reducible apply State.mbAnswer_sound | with_reducible apply State.pvmIrq_sound
    | with_reducible apply State.mbDone_sound | with_reducible apply outSound_next | with_reducible apply sound_ite
    | with_reducible apply outSound_ite

theorem execBrakeFaultClear_sound {s : State} (hs : s.Sound) (o : Fin 12) : OutSound (execBrakeFaultClear o s) := by
  unfold execBrakeFaultClear
  try dsimp only
  repeat' first
    | with_reducible assumption | with_reducible apply State.setFldBit_sound | with_reducible apply State.groupCycle_sound
    | with_reducible apply outSound_next | with_reducible apply sound_ite | with_reducible apply outSound_ite
    | with_reducible apply sound_foldl | with_reducible intro _ _ _ _ | with_reducible intro _ _ _ | with_reducible intro _ _
    | with_reducible apply sound_ite_snd | with_reducible refine sound_of_snd (by assumption) ?_
    | with_reducible refine sound_of_fst (by assumption) ?_ | with_reducible refine sound_of_trd (by assumption) ?_
    | with_reducible apply sound_foldl_fst | with_reducible apply sound_foldl_snd | split

theorem execSafeInputSample_sound {s : State} (hs : s.Sound) (levels : BitVec 16) : OutSound (execSafeInputSample levels s) := by
  unfold execSafeInputSample
  try dsimp only
  repeat' first
    | with_reducible assumption | with_reducible apply State.sinSample_sound | with_reducible apply outSound_next
    | with_reducible apply sound_ite | with_reducible apply outSound_ite | with_reducible apply sound_foldl | with_reducible intro _ _ _ _
    | with_reducible intro _ _ _

theorem execCoverCheck_sound {s : State} (hs : s.Sound) (isOpen : Bool) : OutSound (execCoverCheck isOpen s) := by
  unfold execCoverCheck
  try dsimp only
  repeat' first
    | with_reducible assumption | with_reducible apply State.setPvm_sound | with_reducible apply State.pvmIrq_sound
    | with_reducible apply State.log_sound | with_reducible apply State.setFld_sound | with_reducible apply outSound_next
    | with_reducible apply sound_ite | with_reducible apply outSound_ite

theorem execDiscrepancyTimeout_sound {s : State} (hs : s.Sound) (i : Fin 16) : OutSound (execDiscrepancyTimeout i s) := by
  unfold execDiscrepancyTimeout
  try dsimp only
  repeat' first
    | with_reducible assumption | with_reducible apply State.sinFault_sound | with_reducible apply outSound_next
    | with_reducible apply sound_ite | with_reducible apply outSound_ite

theorem execBrakeReleaseTimer_sound {s : State} (hs : s.Sound) (b : Fin 8) : OutSound (execBrakeReleaseTimer b s) := by
  unfold execBrakeReleaseTimer
  try dsimp only
  repeat' first
    | with_reducible assumption | with_reducible apply State.setFldBit_sound | with_reducible apply outSound_next
    | with_reducible apply sound_ite | with_reducible apply outSound_ite

end Sys2Proof.Machine
end

