-- ==== Sys2Proof/Laws/SoundSerit.lean ====
section
/-! SUPPORT. The operations and commands of Machine/Serit.lean keep a sound state sound. -/
namespace Sys2Proof.Machine

theorem State.itemOutRaw_sound {s : State} (hs : s.Sound) (j : Nat) (v : Word) : (State.itemOutRaw s j v).2.Sound := by
  unfold State.itemOutRaw
  try dsimp only
  repeat' first
    | with_reducible assumption | with_reducible apply State.freshNat_sound | with_reducible apply outSound_next
    | with_reducible apply sound_ite | with_reducible apply outSound_ite | with_reducible apply sound_foldl | with_reducible intro _ _ _ _
    | with_reducible intro _ _ _ | with_reducible intro _ _ | with_reducible apply sound_ite_snd
    | with_reducible refine sound_of_snd (by assumption) ?_ | with_reducible refine sound_of_fst (by assumption) ?_
    | with_reducible refine sound_of_trd (by assumption) ?_ | with_reducible apply sound_foldl_fst | with_reducible apply sound_foldl_snd
    | split

theorem State.seritDropout_sound {s : State} (hs : s.Sound) (m : Nat) (cseq : Nat) : (State.seritDropout s m cseq).Sound := by
  unfold State.seritDropout
  try dsimp only
  repeat' first
    | with_reducible assumption | with_reducible apply State.emit_sound | with_reducible apply outSound_next
    | with_reducible apply sound_ite | with_reducible apply outSound_ite | with_reducible apply sound_foldl | with_reducible intro _ _ _ _
    | with_reducible intro _ _ _

theorem State.seritStart_sound {s : State} (hs : s.Sound) : (State.seritStart s).Sound := by
  unfold State.seritStart
  try dsimp only
  repeat' first
    | with_reducible assumption | with_reducible apply State.setConn_sound | with_reducible apply State.setConnState_sound
    | with_reducible apply outSound_next | with_reducible apply sound_ite | with_reducible apply outSound_ite
    | with_reducible apply sound_foldl | with_reducible intro _ _ _ _ | with_reducible intro _ _ _

theorem State.connRefresh_sound {s : State} (hs : s.Sound) (k : Nat) : (State.connRefresh s k).Sound := by
  unfold State.connRefresh
  try dsimp only
  repeat' first
    | with_reducible assumption | with_reducible apply State.setConnState_sound | with_reducible apply outSound_next
    | with_reducible apply sound_ite

theorem State.pduReject_sound {s : State} (hs : s.Sound) (k : Nat) (code : Nat) : (State.pduReject s k code).Sound := by
  unfold State.pduReject
  try dsimp only
  repeat' first
    | with_reducible assumption | with_reducible apply State.setConn_sound | with_reducible apply State.logPerSecond_sound
    | with_reducible apply State.connRefresh_sound | with_reducible apply State.transient_sound | with_reducible apply outSound_next
    | with_reducible apply sound_ite

theorem State.sendPdus_sound {s : State} (hs : s.Sound) (pair : Nat) (l : List (List Nat)) : (State.sendPdus s pair l).Sound := by
  unfold State.sendPdus
  try dsimp only
  repeat' first
    | with_reducible assumption | with_reducible apply State.emit_sound

theorem execSeritOpenSend_sound {s : State} (hs : s.Sound) (k : Fin 1024) : OutSound (execSeritOpenSend k s) := by
  unfold execSeritOpenSend
  try dsimp only
  repeat' first
    | with_reducible assumption | with_reducible apply State.setPvm_sound | with_reducible apply State.setConn_sound
    | with_reducible apply State.sendPdus_sound | with_reducible apply outSound_next | with_reducible apply sound_ite
    | with_reducible apply outSound_ite

theorem State.connUp_sound {s : State} (hs : s.Sound) (k : Nat) (session : Nat) : (State.connUp s k session).Sound := by
  unfold State.connUp
  try dsimp only
  repeat' first
    | with_reducible assumption | with_reducible apply State.setConn_sound | with_reducible apply State.log_sound
    | with_reducible apply State.setConnState_sound

theorem State.outRaw_sound {s : State} (hs : s.Sound) (j : Nat) : (State.outRaw s j).2.Sound := by
  unfold State.outRaw
  try dsimp only
  repeat' first
    | with_reducible assumption | with_reducible apply State.itemOutRaw_sound | with_reducible apply outSound_next
    | with_reducible apply sound_ite | with_reducible apply outSound_ite | with_reducible apply sound_foldl | with_reducible intro _ _ _ _
    | with_reducible intro _ _ _ | with_reducible intro _ _ | with_reducible apply sound_ite_snd

theorem State.outBytes_sound {s : State} (hs : s.Sound) (k : Nat) : (State.outBytes s k).2.Sound := by
  unfold State.outBytes
  try dsimp only
  repeat' first
    | with_reducible assumption | with_reducible apply State.outRaw_sound | with_reducible apply outSound_next
    | with_reducible apply sound_ite | with_reducible apply outSound_ite | with_reducible apply sound_foldl | with_reducible intro _ _ _ _
    | with_reducible intro _ _ _ | with_reducible intro _ _ | with_reducible apply sound_ite_snd
    | with_reducible refine sound_of_snd (by assumption) ?_ | with_reducible refine sound_of_fst (by assumption) ?_
    | with_reducible refine sound_of_trd (by assumption) ?_ | with_reducible apply sound_foldl_fst | with_reducible apply sound_foldl_snd

theorem State.seritSend_sound {s : State} (hs : s.Sound) (k : Nat) (timed : Option Stamp) : (State.seritSend s k timed).Sound := by
  unfold State.seritSend
  try dsimp only
  repeat' first
    | with_reducible assumption | with_reducible apply State.outBytes_sound | with_reducible apply State.sendPdus_sound
    | with_reducible apply State.setConn_sound | with_reducible apply State.setPlk_sound | with_reducible apply State.setNum_sound
    | with_reducible apply outSound_next | with_reducible apply sound_ite

theorem execSeritPduSend_sound {s : State} (hs : s.Sound) (k : Fin 1024) : OutSound (execSeritPduSend k s) := by
  unfold execSeritPduSend
  try dsimp only
  repeat' first
    | with_reducible assumption | with_reducible apply State.seritSend_sound | with_reducible apply outSound_next
    | with_reducible apply sound_ite | with_reducible apply outSound_ite

theorem execSeritOutputToken_sound {s : State} (hs : s.Sound) (link : Nat) (t : Token) : OutSound (execSeritOutputToken link t s) := by
  unfold execSeritOutputToken
  try dsimp only
  repeat' first
    | with_reducible assumption | with_reducible apply State.check_sound | with_reducible apply State.logIf_sound
    | with_reducible apply State.setPvm_sound | with_reducible apply outSound_next | with_reducible apply sound_ite
    | with_reducible apply outSound_ite | with_reducible apply sound_foldl | with_reducible intro _ _ _ _ | with_reducible intro _ _ _

theorem State.switchValve_sound {s : State} (hs : s.Sound) (v : Nat × Bool) : (State.switchValve s v).Sound := by
  unfold State.switchValve
  try dsimp only
  repeat' first
    | with_reducible assumption | with_reducible apply State.setVcmd_sound | with_reducible apply State.valveCommand_sound
    | with_reducible apply outSound_next | with_reducible apply sound_ite

theorem State.switchSet_sound {s : State} (hs : s.Sound) (a : ArmedSet) : (State.switchSet s a).Sound := by
  unfold State.switchSet
  try dsimp only
  repeat' first
    | with_reducible assumption | with_reducible apply State.switchValve_sound | with_reducible apply State.seritSend_sound
    | with_reducible apply outSound_next | with_reducible apply sound_ite | with_reducible apply outSound_ite
    | with_reducible apply sound_foldl | with_reducible intro _ _ _ _ | with_reducible intro _ _ _

theorem execVsetSwitch_sound {s : State} (hs : s.Sound) (id : Fin 16) : OutSound (execVsetSwitch id s) := by
  unfold execVsetSwitch
  try dsimp only
  repeat' first
    | with_reducible assumption | with_reducible apply State.setPvm_sound | with_reducible apply State.setFld_sound
    | with_reducible apply State.switchSet_sound | with_reducible apply outSound_next | with_reducible apply sound_ite
    | with_reducible apply outSound_ite | with_reducible apply sound_foldl | with_reducible intro _ _ _ _ | with_reducible intro _ _ _
    | with_reducible intro _ _ | with_reducible apply sound_ite_snd | with_reducible refine sound_of_snd (by assumption) ?_
    | with_reducible refine sound_of_fst (by assumption) ?_ | with_reducible refine sound_of_trd (by assumption) ?_
    | with_reducible apply sound_foldl_fst | with_reducible apply sound_foldl_snd | split

theorem State.pduOpen_sound {s : State} (hs : s.Sound) (k : Nat) (p : Pdu) (session : Nat) : (State.pduOpen s k p session).Sound := by
  unfold State.pduOpen
  try dsimp only
  repeat' first
    | with_reducible assumption | with_reducible apply State.testPassed_sound | with_reducible apply State.connUp_sound
    | with_reducible apply State.logIf_sound | with_reducible apply State.sendPdus_sound | with_reducible apply State.setConn_sound
    | with_reducible apply outSound_next | with_reducible apply sound_ite

theorem State.itemIn_sound {s : State} (hs : s.Sound) (j : Nat) (l : List Nat) (failsafe : Bool) : (State.itemIn s j l failsafe).Sound := by
  unfold State.itemIn
  try dsimp only
  repeat' first
    | with_reducible assumption | with_reducible apply State.setPvm_sound | with_reducible apply State.emit_sound

theorem State.pduData_sound {s : State} (hs : s.Sound) (k : Nat) (p : Pdu) : (State.pduData s k p).Sound := by
  unfold State.pduData
  try dsimp only
  repeat' first
    | with_reducible assumption | with_reducible apply State.pduReject_sound | with_reducible apply State.setConn_sound
    | with_reducible apply State.itemIn_sound | with_reducible apply outSound_next | with_reducible apply sound_ite
    | with_reducible apply outSound_ite | with_reducible apply sound_foldl | with_reducible intro _ _ _ _ | with_reducible intro _ _ _

theorem State.pduIn_sound {s : State} (hs : s.Sound) (pair : Nat) (x : Pdu × Nat) : (State.pduIn s pair x).Sound := by
  unfold State.pduIn
  try dsimp only
  repeat' first
    | with_reducible assumption | with_reducible apply State.pduReject_sound | with_reducible apply State.pduOpen_sound
    | with_reducible apply State.pduData_sound | with_reducible apply outSound_next | with_reducible apply sound_ite
    | with_reducible apply outSound_ite | with_reducible apply sound_foldl | with_reducible intro _ _ _ _ | with_reducible intro _ _ _
    | with_reducible intro _ _ | with_reducible apply sound_ite_snd | with_reducible refine sound_of_snd (by assumption) ?_
    | with_reducible refine sound_of_fst (by assumption) ?_ | with_reducible refine sound_of_trd (by assumption) ?_
    | with_reducible apply sound_foldl_fst | with_reducible apply sound_foldl_snd | split

theorem execSeritContainerRx_sound {s : State} (hs : s.Sound) (pair : Fin 3) (bytes : List Byte) : OutSound (execSeritContainerRx pair bytes s) := by
  unfold execSeritContainerRx
  try dsimp only
  repeat' first
    | with_reducible assumption | with_reducible apply State.pduIn_sound | with_reducible apply outSound_next
    | with_reducible apply sound_ite | with_reducible apply outSound_ite | with_reducible apply sound_foldl | with_reducible intro _ _ _ _
    | with_reducible intro _ _ _ | with_reducible intro _ _ | with_reducible apply sound_ite_snd
    | with_reducible refine sound_of_snd (by assumption) ?_ | with_reducible refine sound_of_fst (by assumption) ?_
    | with_reducible refine sound_of_trd (by assumption) ?_ | with_reducible apply sound_foldl_fst | with_reducible apply sound_foldl_snd
    | split

theorem execSeritWdExpire_sound {s : State} (hs : s.Sound) (k : Fin 1024) : OutSound (execSeritWdExpire k s) := by
  unfold execSeritWdExpire
  try dsimp only
  repeat' first
    | with_reducible assumption | with_reducible apply State.log_sound | with_reducible apply State.setConnState_sound
    | with_reducible apply State.connRefresh_sound | with_reducible apply State.transient_sound | with_reducible apply outSound_next
    | with_reducible apply sound_ite | with_reducible apply outSound_ite

end Sys2Proof.Machine
end

