-- ==== Sys2Proof/Laws/SoundCan.lean ====
section
/-! SUPPORT. The operations and commands of Machine/Can.lean keep a sound state sound. -/
namespace Sys2Proof.Machine

theorem State.setCan_sound {s : State} (hs : s.Sound) (n : Nat) (c : CanState) : (State.setCan s n c).Sound := by
  unfold State.setCan
  try dsimp only
  repeat' first
    | with_reducible assumption | with_reducible apply outSound_next | with_reducible apply sound_ite | with_reducible apply outSound_ite
    | with_reducible apply sound_foldl | with_reducible intro _ _ _ _ | with_reducible intro _ _ _ | with_reducible intro _ _
    | with_reducible apply sound_ite_snd | with_reducible refine sound_of_snd (by assumption) ?_
    | with_reducible refine sound_of_fst (by assumption) ?_ | with_reducible refine sound_of_trd (by assumption) ?_
    | with_reducible apply sound_foldl_fst | with_reducible apply sound_foldl_snd | split | dsimp only | simp only [sound_mk, sound_mk_evl]

theorem State.leadEvent_sound {s : State} (hs : s.Sound) (n : Nat) (detail : Nat) : (State.leadEvent s n detail).Sound := by
  unfold State.leadEvent
  try dsimp only
  repeat' first
    | with_reducible assumption | with_reducible apply State.log_sound | with_reducible apply State.setCan_sound

theorem State.leadSof_sound {s : State} (hs : s.Sound) (n : Nat) (b : Nat) (t : Stamp) : (State.leadSof s n b t).Sound := by
  unfold State.leadSof
  try dsimp only
  repeat' first
    | with_reducible assumption | with_reducible apply State.leadEvent_sound | with_reducible apply outSound_next
    | with_reducible apply sound_ite | with_reducible apply outSound_ite | with_reducible apply sound_foldl | with_reducible intro _ _ _ _
    | with_reducible intro _ _ _ | with_reducible intro _ _ | with_reducible apply sound_ite_snd
    | with_reducible refine sound_of_snd (by assumption) ?_ | with_reducible refine sound_of_fst (by assumption) ?_
    | with_reducible refine sound_of_trd (by assumption) ?_ | with_reducible apply sound_foldl_fst | with_reducible apply sound_foldl_snd
    | split

theorem State.canIrq_sound {s : State} (hs : s.Sound) (n : Nat) (b : Nat) : (State.canIrq s n b).Sound := by
  unfold State.canIrq
  try dsimp only
  repeat' first
    | with_reducible assumption | with_reducible apply State.setRbit_sound

theorem State.ringPut_sound {s : State} (hs : s.Sound) (a : Nat) : (State.ringPut s a).2.Sound := by
  unfold State.ringPut
  try dsimp only
  repeat' first
    | with_reducible assumption | with_reducible apply State.setFld_sound

theorem State.journal_sound {s : State} (hs : s.Sound) (n : Nat) (b : Nat) (t : Stamp) : (State.journal s n b t).Sound := by
  unfold State.journal
  try dsimp only
  repeat' first
    | with_reducible assumption | with_reducible apply State.countFld_sound | with_reducible apply State.canIrq_sound
    | with_reducible apply State.ringPut_sound | with_reducible apply State.setNum_sound | with_reducible apply outSound_next
    | with_reducible apply sound_ite | with_reducible apply outSound_ite | with_reducible apply sound_foldl | with_reducible intro _ _ _ _
    | with_reducible intro _ _ _

theorem State.heldWrite_sound {s : State} (hs : s.Sound) (n : Nat) (b : Nat) : (State.heldWrite s n b).Sound := by
  unfold State.heldWrite
  try dsimp only
  repeat' first
    | with_reducible assumption | with_reducible apply State.setFld_sound | with_reducible apply State.setCan_sound
    | with_reducible apply outSound_next | with_reducible apply sound_ite | with_reducible apply outSound_ite
    | with_reducible apply sound_foldl | with_reducible intro _ _ _ _ | with_reducible intro _ _ _ | with_reducible intro _ _
    | with_reducible apply sound_ite_snd | with_reducible refine sound_of_snd (by assumption) ?_
    | with_reducible refine sound_of_fst (by assumption) ?_ | with_reducible refine sound_of_trd (by assumption) ?_
    | with_reducible apply sound_foldl_fst | with_reducible apply sound_foldl_snd | split | dsimp only | simp only [sound_mk, sound_mk_evl]

theorem State.syncTxChain_sound {s : State} (hs : s.Sound) (n : Nat) : (State.syncTxChain s n).Sound := by
  unfold State.syncTxChain
  try dsimp only
  repeat' first
    | with_reducible assumption | with_reducible apply State.setFld_sound | with_reducible apply outSound_next
    | with_reducible apply sound_ite | with_reducible apply outSound_ite | with_reducible apply sound_foldl | with_reducible intro _ _ _ _
    | with_reducible intro _ _ _ | with_reducible intro _ _ | with_reducible apply sound_ite_snd
    | with_reducible refine sound_of_snd (by assumption) ?_ | with_reducible refine sound_of_fst (by assumption) ?_
    | with_reducible refine sound_of_trd (by assumption) ?_ | with_reducible apply sound_foldl_fst | with_reducible apply sound_foldl_snd
    | split

theorem State.txEnd_sound {s : State} (hs : s.Sound) (n : Nat) (b : Nat) : (State.txEnd s n b).Sound := by
  unfold State.txEnd
  try dsimp only
  repeat' first
    | with_reducible assumption | with_reducible apply State.heldWrite_sound | with_reducible apply State.setCan_sound
    | with_reducible apply State.syncTxChain_sound | with_reducible apply State.setRbit_sound | with_reducible apply outSound_next
    | with_reducible apply sound_ite | with_reducible apply outSound_ite | with_reducible apply sound_foldl | with_reducible intro _ _ _ _
    | with_reducible intro _ _ _

theorem State.showErr_sound {s : State} (hs : s.Sound) (n : Nat) : (State.showErr s n).Sound := by
  unfold State.showErr
  try dsimp only
  repeat' first
    | with_reducible assumption | with_reducible apply State.setFld_sound | with_reducible apply State.canIrq_sound
    | with_reducible apply outSound_next | with_reducible apply sound_ite

theorem State.txCancelled_sound {s : State} (hs : s.Sound) (n : Nat) (b : Nat) : (State.txCancelled s n b).Sound := by
  unfold State.txCancelled
  try dsimp only
  repeat' first
    | with_reducible assumption | with_reducible apply State.canIrq_sound | with_reducible apply State.setRbit_sound
    | with_reducible apply State.txEnd_sound | with_reducible apply State.setCan_sound | with_reducible apply State.leadEvent_sound
    | with_reducible apply outSound_next | with_reducible apply sound_ite

theorem State.canHealth_sound {s : State} (hs : s.Sound) (n : Nat) {f : State → State} (hf : ∀ s : State, s.Sound → (f s).Sound) :
    (s.canHealth n f).Sound := by
  have h1 := hf s hs
  unfold State.canHealth
  dsimp only
  generalize f s = t at *
  repeat' first
    | with_reducible assumption
    | with_reducible apply State.canIrq_sound
    | with_reducible apply State.setNum_sound
    | with_reducible apply sound_foldl
    | intro _ _ _
    | split

theorem State.busOff_sound {s : State} (hs : s.Sound) (n : Nat) : (State.busOff s n).Sound := by
  unfold State.busOff
  try dsimp only
  repeat' first
    | with_reducible assumption | with_reducible apply State.count_sound | with_reducible apply State.canIrq_sound
    | with_reducible apply State.setFld_sound | with_reducible apply State.log_sound | with_reducible apply State.setCan_sound
    | with_reducible apply State.txCancelled_sound | with_reducible apply State.canHealth_sound
    | with_reducible apply State.transient_sound | with_reducible apply outSound_next | with_reducible apply sound_ite
    | with_reducible apply outSound_ite | with_reducible apply sound_foldl | with_reducible intro _ _ _ _ | with_reducible intro _ _ _
    | with_reducible intro _ _

theorem State.errState_sound {s : State} (hs : s.Sound) (n : Nat) : (State.errState s n).Sound := by
  unfold State.errState
  try dsimp only
  repeat' first
    | with_reducible assumption | with_reducible apply State.showErr_sound | with_reducible apply State.busOff_sound
    | with_reducible apply State.log_sound | with_reducible apply State.canIrq_sound | with_reducible apply State.setFld_sound
    | with_reducible apply outSound_next | with_reducible apply sound_ite

theorem State.rxMapToken_sound {s : State} (hs : s.Sound) (n : Nat) (i : Nat) (f : CanFrame) : (State.rxMapToken s n i f).Sound := by
  unfold State.rxMapToken
  try dsimp only
  repeat' first
    | with_reducible assumption | with_reducible apply State.log_sound | with_reducible apply State.canIrq_sound
    | with_reducible apply State.emit_sound | with_reducible apply outSound_next | with_reducible apply sound_ite

theorem State.rxMapped_sound {s : State} (hs : s.Sound) (n : Nat) (idx : Option Nat) (f : CanFrame) : (State.rxMapped s n idx f).Sound := by
  unfold State.rxMapped
  try dsimp only
  repeat' first
    | with_reducible assumption | with_reducible apply State.rxMapToken_sound | with_reducible apply outSound_next
    | with_reducible apply sound_ite | with_reducible apply outSound_ite | with_reducible apply sound_foldl | with_reducible intro _ _ _ _
    | with_reducible intro _ _ _ | with_reducible intro _ _ | with_reducible apply sound_ite_snd
    | with_reducible refine sound_of_snd (by assumption) ?_ | with_reducible refine sound_of_fst (by assumption) ?_
    | with_reducible refine sound_of_trd (by assumption) ?_ | with_reducible apply sound_foldl_fst | with_reducible apply sound_foldl_snd
    | split

theorem State.ringAck_sound {s : State} (hs : s.Sound) (a : Nat) (i : Nat) : (State.ringAck s a i).Sound := by
  unfold State.ringAck
  try dsimp only
  repeat' first
    | with_reducible assumption | with_reducible apply State.setFld_sound | with_reducible apply outSound_next
    | with_reducible apply sound_ite

theorem State.fifoStore_sound {s : State} (hs : s.Sound) (n : Nat) (f : Nat) (ws : List Nat) : (State.fifoStore s n f ws).Sound := by
  unfold State.fifoStore
  try dsimp only
  repeat' first
    | with_reducible assumption | with_reducible apply State.logPerSecond_sound | with_reducible apply State.canIrq_sound
    | with_reducible apply State.countFld_sound | with_reducible apply State.ringAck_sound | with_reducible apply State.ringPut_sound
    | with_reducible apply State.setNum_sound | with_reducible apply outSound_next | with_reducible apply sound_ite
    | with_reducible apply outSound_ite | with_reducible apply sound_foldl | with_reducible intro _ _ _ _ | with_reducible intro _ _ _

theorem State.setRxbBit_sound {s : State} (hs : s.Sound) (a : Nat → Nat → Nat) (n : Nat) (i : Nat) (b : Bool) : (State.setRxbBit s a n i b).Sound := by
  unfold State.setRxbBit
  try dsimp only
  repeat' first
    | with_reducible assumption | with_reducible apply State.setRbit_sound

theorem State.bufStore_sound {s : State} (hs : s.Sound) (n : Nat) (i : Nat) (ws : List Nat) : (State.bufStore s n i ws).Sound := by
  unfold State.bufStore
  try dsimp only
  repeat' first
    | with_reducible assumption | with_reducible apply State.logPerSecond_sound | with_reducible apply State.fifoStore_sound
    | with_reducible apply State.canIrq_sound | with_reducible apply State.count_sound | with_reducible apply State.setRxbBit_sound
    | with_reducible apply State.setNum_sound | with_reducible apply outSound_next | with_reducible apply sound_ite
    | with_reducible apply outSound_ite | with_reducible apply sound_foldl | with_reducible intro _ _ _ _ | with_reducible intro _ _ _
    | with_reducible intro _ _ | with_reducible apply sound_ite_snd | with_reducible refine sound_of_snd (by assumption) ?_
    | with_reducible refine sound_of_fst (by assumption) ?_ | with_reducible refine sound_of_trd (by assumption) ?_
    | with_reducible apply sound_foldl_fst | with_reducible apply sound_foldl_snd | split

theorem State.canAccept_sound {s : State} (hs : s.Sound) (n : Nat) (f : CanFrame) (t : Stamp) : (State.canAccept s n f t).Sound := by
  unfold State.canAccept
  try dsimp only
  repeat' first
    | with_reducible assumption | with_reducible apply State.rxMapped_sound | with_reducible apply State.fifoStore_sound
    | with_reducible apply State.bufStore_sound | with_reducible apply outSound_next | with_reducible apply sound_ite
    | with_reducible apply outSound_ite | with_reducible apply sound_foldl | with_reducible intro _ _ _ _ | with_reducible intro _ _ _
    | with_reducible intro _ _ | with_reducible apply sound_ite_snd | with_reducible refine sound_of_snd (by assumption) ?_
    | with_reducible refine sound_of_fst (by assumption) ?_ | with_reducible refine sound_of_trd (by assumption) ?_
    | with_reducible apply sound_foldl_fst | with_reducible apply sound_foldl_snd | split | dsimp only | simp only [sound_mk, sound_mk_evl]

theorem execCanTxComplete_sound {s : State} (hs : s.Sound) (n : Fin 8) (t : Stamp) : OutSound (execCanTxComplete n t s) := by
  unfold execCanTxComplete
  try dsimp only
  repeat' first
    | with_reducible assumption | with_reducible apply State.leadSof_sound | with_reducible apply State.journal_sound
    | with_reducible apply State.canIrq_sound | with_reducible apply State.setRbit_sound | with_reducible apply State.txEnd_sound
    | with_reducible apply State.freshNat_sound | with_reducible apply State.setFld_sound | with_reducible apply State.setCan_sound
    | with_reducible apply State.errState_sound | with_reducible apply State.canAccept_sound | with_reducible apply outSound_next
    | with_reducible apply sound_ite | with_reducible apply outSound_ite | with_reducible apply sound_foldl | with_reducible intro _ _ _ _
    | with_reducible intro _ _ _ | with_reducible intro _ _ | with_reducible apply sound_ite_snd
    | with_reducible refine sound_of_snd (by assumption) ?_ | with_reducible refine sound_of_fst (by assumption) ?_
    | with_reducible refine sound_of_trd (by assumption) ?_ | with_reducible apply sound_foldl_fst | with_reducible apply sound_foldl_snd
    | split

theorem State.recDown_sound {s : State} (hs : s.Sound) (n : Nat) : (State.recDown s n).Sound := by
  unfold State.recDown
  try dsimp only
  repeat' first
    | with_reducible assumption | with_reducible apply State.freshNat_sound | with_reducible apply State.setCan_sound
    | with_reducible apply outSound_next | with_reducible apply sound_ite | with_reducible apply outSound_ite
    | with_reducible apply sound_foldl | with_reducible intro _ _ _ _ | with_reducible intro _ _ _ | with_reducible intro _ _
    | with_reducible apply sound_ite_snd | with_reducible refine sound_of_snd (by assumption) ?_
    | with_reducible refine sound_of_fst (by assumption) ?_ | with_reducible refine sound_of_trd (by assumption) ?_
    | with_reducible apply sound_foldl_fst | with_reducible apply sound_foldl_snd | split | dsimp only | simp only [sound_mk, sound_mk_evl]

theorem execCanFrameRx_sound {s : State} (hs : s.Sound) (n : Fin 8) (f : CanFrame) (t : Stamp) : OutSound (execCanFrameRx n f t s) := by
  unfold execCanFrameRx
  try dsimp only
  repeat' first
    | with_reducible assumption | with_reducible apply State.errState_sound | with_reducible apply State.setCan_sound
    | with_reducible apply State.canAccept_sound | with_reducible apply State.recDown_sound | with_reducible apply outSound_next
    | with_reducible apply sound_ite | with_reducible apply outSound_ite | with_reducible apply sound_foldl | with_reducible intro _ _ _ _
    | with_reducible intro _ _ _ | with_reducible intro _ _ | with_reducible apply sound_ite_snd
    | with_reducible refine sound_of_snd (by assumption) ?_ | with_reducible refine sound_of_fst (by assumption) ?_
    | with_reducible refine sound_of_trd (by assumption) ?_ | with_reducible apply sound_foldl_fst | with_reducible apply sound_foldl_snd
    | split

theorem State.canEcc_sound {s : State} (hs : s.Sound) (n : Nat) (off : Nat) : (State.canEcc s n off).Sound := by
  unfold State.canEcc
  try dsimp only
  repeat' first
    | with_reducible assumption | with_reducible apply State.canHealth_sound | with_reducible apply State.log_sound
    | with_reducible apply State.canIrq_sound | with_reducible apply State.fatal_sound | with_reducible apply outSound_next
    | with_reducible apply sound_ite | with_reducible apply outSound_ite | with_reducible apply sound_foldl | with_reducible intro _ _ _ _
    | with_reducible intro _ _ _ | with_reducible intro _ _

theorem execCanRecover_sound {s : State} (hs : s.Sound) (n : Fin 8) : OutSound (execCanRecover n s) := by
  unfold execCanRecover
  try dsimp only
  repeat' first
    | with_reducible assumption | with_reducible apply State.setCan_sound | with_reducible apply outSound_next
    | with_reducible apply sound_ite | with_reducible apply outSound_ite

theorem execCanReadmit_sound {s : State} (hs : s.Sound) (n : Fin 8) : OutSound (execCanReadmit n s) := by
  unfold execCanReadmit
  try dsimp only
  repeat' first
    | with_reducible assumption | with_reducible apply State.canHealth_sound | with_reducible apply State.readmit_sound
    | with_reducible apply outSound_next | with_reducible apply sound_ite | with_reducible apply outSound_ite
    | with_reducible apply sound_foldl | with_reducible intro _ _ _ _ | with_reducible intro _ _ _ | with_reducible intro _ _

theorem State.rxbFree_sound {s : State} (hs : s.Sound) (n : Nat) (i : Nat) : (State.rxbFree s n i).Sound := by
  unfold State.rxbFree
  try dsimp only
  repeat' first
    | with_reducible assumption | with_reducible apply State.setRxbBit_sound | with_reducible apply State.setNum_sound
    | with_reducible apply outSound_next | with_reducible apply sound_ite | with_reducible apply outSound_ite
    | with_reducible apply sound_foldl | with_reducible intro _ _ _ _ | with_reducible intro _ _ _

theorem execCanRxbRel_sound {s : State} (hs : s.Sound) (n : Fin 8) (g : Fin 2) (mask : Word) : OutSound (execCanRxbRel n g mask s) := by
  unfold execCanRxbRel
  try dsimp only
  repeat' first
    | with_reducible assumption | with_reducible apply State.rxbFree_sound | with_reducible apply outSound_next
    | with_reducible apply sound_ite | with_reducible apply outSound_ite | with_reducible apply sound_foldl | with_reducible intro _ _ _ _
    | with_reducible intro _ _ _

theorem execCanRxfAck_sound {s : State} (hs : s.Sound) (n : Fin 8) (f : Fin 2) (i : Fin 32) : OutSound (execCanRxfAck n f i s) := by
  unfold execCanRxfAck
  try dsimp only
  repeat' first
    | with_reducible assumption | with_reducible apply State.ringAck_sound | with_reducible apply outSound_next

theorem State.txRequest_sound {s : State} (hs : s.Sound) (n : Nat) (b : Nat) : (State.txRequest s n b).Sound := by
  unfold State.txRequest
  try dsimp only
  repeat' first
    | with_reducible assumption | with_reducible apply State.setRbit_sound | with_reducible apply State.setCan_sound

theorem execCanTxRequest_sound {s : State} (hs : s.Sound) (n : Fin 8) (mask : Word) : OutSound (execCanTxRequest n mask s) := by
  unfold execCanTxRequest
  try dsimp only
  repeat' first
    | with_reducible assumption | with_reducible apply State.canIrq_sound | with_reducible apply State.txRequest_sound
    | with_reducible apply outSound_next | with_reducible apply sound_ite | with_reducible apply outSound_ite
    | with_reducible apply sound_foldl | with_reducible intro _ _ _ _ | with_reducible intro _ _ _

theorem execCanTxCancel_sound {s : State} (hs : s.Sound) (n : Fin 8) (mask : Word) (sof : Option Stamp) : OutSound (execCanTxCancel n mask sof s) := by
  unfold execCanTxCancel
  try dsimp only
  repeat' first
    | with_reducible assumption | with_reducible apply State.setCan_sound | with_reducible apply State.txCancelled_sound
    | with_reducible apply outSound_next | with_reducible apply sound_ite | with_reducible apply outSound_ite
    | with_reducible apply sound_foldl | with_reducible intro _ _ _ _ | with_reducible intro _ _ _

theorem execCanTxcAppend_sound {s : State} (hs : s.Sound) (n : Fin 8) (b : Fin 32) : OutSound (execCanTxcAppend n b s) := by
  unfold execCanTxcAppend
  try dsimp only
  repeat' first
    | with_reducible assumption | with_reducible apply State.canIrq_sound | with_reducible apply State.txRequest_sound
    | with_reducible apply State.syncTxChain_sound | with_reducible apply State.setCan_sound | with_reducible apply outSound_next
    | with_reducible apply sound_ite | with_reducible apply outSound_ite

theorem execCanTxjAck_sound {s : State} (hs : s.Sound) (n : Fin 8) (i : Fin 32) : OutSound (execCanTxjAck n i s) := by
  unfold execCanTxjAck
  try dsimp only
  repeat' first
    | with_reducible assumption | with_reducible apply State.ringAck_sound | with_reducible apply outSound_next

theorem execCanRxbReadWord0_sound {s : State} (hs : s.Sound) (n : Fin 8) (i : Fin 64) : OutSound (execCanRxbReadWord0 n i s) := by
  unfold execCanRxbReadWord0
  try dsimp only
  repeat' first
    | with_reducible assumption | with_reducible apply State.setBus_sound | with_reducible apply State.setRxbBit_sound
    | with_reducible apply outSound_next | with_reducible apply sound_ite | with_reducible apply outSound_ite

theorem execCanRxbReadLast_sound {s : State} (hs : s.Sound) (n : Fin 8) (i : Fin 64) : OutSound (execCanRxbReadLast n i s) := by
  unfold execCanRxbReadLast
  try dsimp only
  repeat' first
    | with_reducible assumption | with_reducible apply State.setBus_sound | with_reducible apply State.rxbFree_sound
    | with_reducible apply outSound_next | with_reducible apply sound_ite | with_reducible apply outSound_ite

theorem execCanTxMapToken_sound {s : State} (hs : s.Sound) (n : Fin 8) (i : Fin 64) (link : Nat) (t : Token) (sof : Option Stamp) : OutSound (execCanTxMapToken n i link t sof s) := by
  unfold execCanTxMapToken
  try dsimp only
  repeat' first
    | with_reducible assumption | with_reducible apply State.check_sound | with_reducible apply State.log_sound
    | with_reducible apply State.canIrq_sound | with_reducible apply State.setCan_sound | with_reducible apply State.setFld_sound
    | with_reducible apply State.count_sound | with_reducible apply State.txRequest_sound | with_reducible apply outSound_next
    | with_reducible apply sound_ite | with_reducible apply outSound_ite | with_reducible apply sound_foldl | with_reducible intro _ _ _ _
    | with_reducible intro _ _ _

theorem execCanIntegrationDone_sound {s : State} (hs : s.Sound) (n : Fin 8) : OutSound (execCanIntegrationDone n s) := by
  unfold execCanIntegrationDone
  try dsimp only
  repeat' first
    | with_reducible assumption | with_reducible apply State.setFld_sound | with_reducible apply outSound_next
    | with_reducible apply sound_ite | with_reducible apply outSound_ite

theorem execCanArbitrationLost_sound {s : State} (hs : s.Sound) (n : Fin 8) (t : Stamp) : OutSound (execCanArbitrationLost n t s) := by
  unfold execCanArbitrationLost
  try dsimp only
  repeat' first
    | with_reducible assumption | with_reducible apply State.leadSof_sound | with_reducible apply State.txCancelled_sound
    | with_reducible apply State.heldWrite_sound | with_reducible apply outSound_next | with_reducible apply sound_ite
    | with_reducible apply outSound_ite | with_reducible apply sound_foldl | with_reducible intro _ _ _ _ | with_reducible intro _ _ _
    | with_reducible intro _ _ | with_reducible apply sound_ite_snd | with_reducible refine sound_of_snd (by assumption) ?_
    | with_reducible refine sound_of_fst (by assumption) ?_ | with_reducible refine sound_of_trd (by assumption) ?_
    | with_reducible apply sound_foldl_fst | with_reducible apply sound_foldl_snd | split

theorem execCanSuspendEnd_sound {s : State} (hs : s.Sound) (n : Fin 8) : OutSound (execCanSuspendEnd n s) := by
  unfold execCanSuspendEnd
  try dsimp only
  repeat' first
    | with_reducible assumption | with_reducible apply State.setCan_sound | with_reducible apply outSound_next
    | with_reducible apply sound_ite | with_reducible apply outSound_ite | with_reducible apply sound_foldl | with_reducible intro _ _ _ _
    | with_reducible intro _ _ _ | with_reducible intro _ _ | with_reducible apply sound_ite_snd
    | with_reducible refine sound_of_snd (by assumption) ?_ | with_reducible refine sound_of_fst (by assumption) ?_
    | with_reducible refine sound_of_trd (by assumption) ?_ | with_reducible apply sound_foldl_fst | with_reducible apply sound_foldl_snd
    | split | dsimp only | simp only [sound_mk, sound_mk_evl]

theorem execCanRecoveryDone_sound {s : State} (hs : s.Sound) (n : Fin 8) : OutSound (execCanRecoveryDone n s) := by
  unfold execCanRecoveryDone
  try dsimp only
  repeat' first
    | with_reducible assumption | with_reducible apply State.setCan_sound | with_reducible apply State.showErr_sound
    | with_reducible apply State.canIrq_sound | with_reducible apply State.setFld_sound | with_reducible apply State.leadEvent_sound
    | with_reducible apply outSound_next | with_reducible apply sound_ite | with_reducible apply outSound_ite

theorem execCanBusError_sound {s : State} (hs : s.Sound) (n : Fin 8) (e : CanErr) (sof : Option Stamp) : OutSound (execCanBusError n e sof s) := by
  unfold execCanBusError
  try dsimp only
  repeat' first
    | with_reducible assumption | with_reducible apply State.leadSof_sound | with_reducible apply State.txCancelled_sound
    | with_reducible apply State.heldWrite_sound | with_reducible apply State.errState_sound | with_reducible apply State.setCan_sound
    | with_reducible apply outSound_next | with_reducible apply sound_ite | with_reducible apply outSound_ite
    | with_reducible apply sound_foldl | with_reducible intro _ _ _ _ | with_reducible intro _ _ _ | with_reducible intro _ _
    | with_reducible apply sound_ite_snd | with_reducible refine sound_of_snd (by assumption) ?_
    | with_reducible refine sound_of_fst (by assumption) ?_ | with_reducible refine sound_of_trd (by assumption) ?_
    | with_reducible apply sound_foldl_fst | with_reducible apply sound_foldl_snd | split

theorem execCanTransceiverFault_sound {s : State} (hs : s.Sound) (n : Fin 8) : OutSound (execCanTransceiverFault n s) := by
  unfold execCanTransceiverFault
  try dsimp only
  repeat' first
    | with_reducible assumption | with_reducible apply State.canHealth_sound | with_reducible apply State.transient_sound
    | with_reducible apply outSound_next | with_reducible apply sound_ite | with_reducible apply outSound_ite
    | with_reducible apply sound_foldl | with_reducible intro _ _ _ _ | with_reducible intro _ _ _ | with_reducible intro _ _

end Sys2Proof.Machine
end

