-- ==== Sys2Proof/Laws/SoundRce.lean ====
section
/-! SUPPORT. The operations and commands of Machine/Rce.lean keep a sound state sound. -/
namespace Sys2Proof.Machine

theorem State.envSuspend_sound {s : State} (hs : s.Sound) (m : Nat) (b : Bool) : (State.envSuspend s m b).Sound := by
  unfold State.envSuspend
  try dsimp only
  repeat' first
    | with_reducible assumption | with_reducible apply State.setRecCrew_sound | with_reducible apply State.setFld_sound
    | with_reducible apply outSound_next | with_reducible apply sound_ite

theorem State.dropExport_sound {s : State} (hs : s.Sound) (slot : Nat) : (State.dropExport s slot).Sound := by
  unfold State.dropExport
  try dsimp only
  repeat' first
    | with_reducible assumption | with_reducible apply State.setRce_sound | with_reducible apply State.setFld_sound
    | with_reducible apply State.count_sound | with_reducible apply State.log_sound | with_reducible apply outSound_next
    | with_reducible apply sound_ite

theorem State.writeHeader_sound {s : State} (hs : s.Sound) (c : Chain) : (State.writeHeader s c).Sound := by
  unfold State.writeHeader
  try dsimp only
  repeat' first
    | with_reducible assumption | with_reducible apply State.wrList_sound

theorem State.syncExport_sound {s : State} (hs : s.Sound) : (State.syncExport s).Sound := by
  unfold State.syncExport
  try dsimp only
  repeat' first
    | with_reducible assumption | with_reducible apply State.setFld_sound | with_reducible apply outSound_next
    | with_reducible apply sound_ite | with_reducible apply outSound_ite | with_reducible apply sound_foldl | with_reducible intro _ _ _ _
    | with_reducible intro _ _ _ | with_reducible intro _ _ | with_reducible apply sound_ite_snd
    | with_reducible refine sound_of_snd (by assumption) ?_ | with_reducible refine sound_of_fst (by assumption) ?_
    | with_reducible refine sound_of_trd (by assumption) ?_ | with_reducible apply sound_foldl_fst | with_reducible apply sound_foldl_snd
    | split

theorem State.syncChain_sound {s : State} (hs : s.Sound) (c : Chain) : (State.syncChain s c).Sound := by
  unfold State.syncChain
  try dsimp only
  repeat' first
    | with_reducible assumption | with_reducible apply State.setNum64_sound | with_reducible apply State.setFld_sound

theorem State.openBlock_sound {s : State} (hs : s.Sound) (c : Chain) : (State.openBlock s c).Sound := by
  unfold State.openBlock
  try dsimp only
  repeat' first
    | with_reducible assumption | with_reducible apply State.clearMem_sound | with_reducible apply State.dropExport_sound
    | with_reducible apply State.writeHeader_sound | with_reducible apply State.syncExport_sound
    | with_reducible apply State.syncChain_sound | with_reducible apply State.setRce_sound

theorem State.recStart_sound {s : State} (hs : s.Sound) : (State.recStart s).Sound := by
  unfold State.recStart
  try dsimp only
  repeat' first
    | with_reducible assumption | with_reducible apply State.takeFresh_sound | with_reducible apply State.setFld_sound
    | with_reducible apply State.setRce_sound | with_reducible apply State.openBlock_sound | with_reducible apply State.recModule_sound
    | with_reducible apply State.log_sound | with_reducible apply State.logIf_sound | with_reducible apply outSound_next
    | with_reducible apply sound_ite

theorem State.recRun_sound {s : State} (hs : s.Sound) : (State.recRun s).Sound := by
  unfold State.recRun
  try dsimp only
  repeat' first
    | with_reducible assumption | with_reducible apply State.setFld_sound | with_reducible apply State.recStart_sound
    | with_reducible apply outSound_next | with_reducible apply sound_ite | with_reducible apply outSound_ite
    | with_reducible apply sound_foldl | with_reducible intro _ _ _ _ | with_reducible intro _ _ _ | with_reducible intro _ _
    | with_reducible apply sound_ite_snd | with_reducible refine sound_of_snd (by assumption) ?_
    | with_reducible refine sound_of_fst (by assumption) ?_ | with_reducible refine sound_of_trd (by assumption) ?_
    | with_reducible apply sound_foldl_fst | with_reducible apply sound_foldl_snd | split

theorem execRecordStart_sound {s : State} (hs : s.Sound) : OutSound (execRecordStart s) := by
  unfold execRecordStart
  try dsimp only
  repeat' first
    | with_reducible assumption | with_reducible apply State.recRun_sound | with_reducible apply outSound_next

theorem State.stopCheck_sound {s : State} (hs : s.Sound) : (State.stopCheck s).Sound := by
  unfold State.stopCheck
  try dsimp only
  repeat' first
    | with_reducible assumption | with_reducible apply State.setRce_sound | with_reducible apply outSound_next
    | with_reducible apply sound_ite | with_reducible apply outSound_ite | with_reducible apply sound_foldl | with_reducible intro _ _ _ _
    | with_reducible intro _ _ _ | with_reducible intro _ _ | with_reducible apply sound_ite_snd
    | with_reducible refine sound_of_snd (by assumption) ?_ | with_reducible refine sound_of_fst (by assumption) ?_
    | with_reducible refine sound_of_trd (by assumption) ?_ | with_reducible apply sound_foldl_fst | with_reducible apply sound_foldl_snd
    | split

theorem State.recStop_sound {s : State} (hs : s.Sound) : (State.recStop s).Sound := by
  unfold State.recStop
  try dsimp only
  repeat' first
    | with_reducible assumption | with_reducible apply State.setFld_sound | with_reducible apply State.stopCheck_sound
    | with_reducible apply State.setRce_sound | with_reducible apply outSound_next | with_reducible apply sound_ite
    | with_reducible apply outSound_ite | with_reducible apply sound_foldl | with_reducible intro _ _ _ _ | with_reducible intro _ _ _
    | with_reducible intro _ _ | with_reducible apply sound_ite_snd | with_reducible refine sound_of_snd (by assumption) ?_
    | with_reducible refine sound_of_fst (by assumption) ?_ | with_reducible refine sound_of_trd (by assumption) ?_
    | with_reducible apply sound_foldl_fst | with_reducible apply sound_foldl_snd | split

theorem execRecordStop_sound {s : State} (hs : s.Sound) : OutSound (execRecordStop s) := by
  unfold execRecordStop
  try dsimp only
  repeat' first
    | with_reducible assumption | with_reducible apply State.recStop_sound | with_reducible apply outSound_next

theorem State.trgArmWrite_sound {s : State} (hs : s.Sound) (g : Nat) (v : Nat) : (State.trgArmWrite s g v).Sound := by
  unfold State.trgArmWrite
  try dsimp only
  repeat' first
    | with_reducible assumption | with_reducible apply State.setRbit_sound | with_reducible apply State.setTrg_sound
    | with_reducible apply outSound_next | with_reducible apply sound_ite | with_reducible apply outSound_ite
    | with_reducible apply sound_foldl | with_reducible intro _ _ _ _ | with_reducible intro _ _ _

theorem execTriggerArmWrite_sound {s : State} (hs : s.Sound) (g : Fin 4) (v : Word) : OutSound (execTriggerArmWrite g v s) := by
  unfold execTriggerArmWrite
  try dsimp only
  repeat' first
    | with_reducible assumption | with_reducible apply State.trgArmWrite_sound | with_reducible apply outSound_next

theorem State.capRefuse_sound {s : State} (hs : s.Sound) (c : Nat) (code : Nat) : (State.capRefuse s c code).Sound := by
  unfold State.capRefuse
  try dsimp only
  repeat' first
    | with_reducible assumption | with_reducible apply State.log_sound | with_reducible apply State.setFld_sound

theorem State.capArmIn_sound {s : State} (hs : s.Sound) (c : Nat) (buf : Nat) (post : Nat) : (State.capArmIn s c buf post).Sound := by
  unfold State.capArmIn
  try dsimp only
  repeat' first
    | with_reducible assumption | with_reducible apply State.setCap_sound | with_reducible apply State.setFld_sound

theorem State.capArm_sound {s : State} (hs : s.Sound) (c : Nat) : (State.capArm s c).Sound := by
  unfold State.capArm
  try dsimp only
  repeat' first
    | with_reducible assumption | with_reducible apply State.capRefuse_sound | with_reducible apply State.capArmIn_sound
    | with_reducible apply outSound_next | with_reducible apply sound_ite | with_reducible apply outSound_ite
    | with_reducible apply sound_foldl | with_reducible intro _ _ _ _ | with_reducible intro _ _ _ | with_reducible intro _ _
    | with_reducible apply sound_ite_snd | with_reducible refine sound_of_snd (by assumption) ?_
    | with_reducible refine sound_of_fst (by assumption) ?_ | with_reducible refine sound_of_trd (by assumption) ?_
    | with_reducible apply sound_foldl_fst | with_reducible apply sound_foldl_snd | split

theorem execCaptureArm_sound {s : State} (hs : s.Sound) (c : Fin 64) : OutSound (execCaptureArm c s) := by
  unfold execCaptureArm
  try dsimp only
  repeat' first
    | with_reducible assumption | with_reducible apply State.capArm_sound | with_reducible apply outSound_next

theorem State.capDisarm_sound {s : State} (hs : s.Sound) (c : Nat) : (State.capDisarm s c).Sound := by
  unfold State.capDisarm
  try dsimp only
  repeat' first
    | with_reducible assumption | with_reducible apply State.setFld_sound | with_reducible apply State.wrList_sound
    | with_reducible apply State.wrMem_sound | with_reducible apply State.setCap_sound | with_reducible apply outSound_next
    | with_reducible apply sound_ite | with_reducible apply outSound_ite | with_reducible apply sound_foldl | with_reducible intro _ _ _ _
    | with_reducible intro _ _ _ | with_reducible intro _ _ | with_reducible apply sound_ite_snd
    | with_reducible refine sound_of_snd (by assumption) ?_ | with_reducible refine sound_of_fst (by assumption) ?_
    | with_reducible refine sound_of_trd (by assumption) ?_ | with_reducible apply sound_foldl_fst | with_reducible apply sound_foldl_snd
    | split

theorem execCaptureDisarm_sound {s : State} (hs : s.Sound) (c : Fin 64) : OutSound (execCaptureDisarm c s) := by
  unfold execCaptureDisarm
  try dsimp only
  repeat' first
    | with_reducible assumption | with_reducible apply State.capDisarm_sound | with_reducible apply outSound_next

theorem State.capForce_sound {s : State} (hs : s.Sound) (c : Nat) : (State.capForce s c).Sound := by
  unfold State.capForce
  try dsimp only
  repeat' first
    | with_reducible assumption | with_reducible apply State.setFld_sound | with_reducible apply State.setCap_sound
    | with_reducible apply outSound_next | with_reducible apply sound_ite

theorem execCaptureForce_sound {s : State} (hs : s.Sound) (c : Fin 64) : OutSound (execCaptureForce c s) := by
  unfold execCaptureForce
  try dsimp only
  repeat' first
    | with_reducible assumption | with_reducible apply State.capForce_sound | with_reducible apply outSound_next

theorem State.capRelease_sound {s : State} (hs : s.Sound) (c : Nat) (b : Nat) : (State.capRelease s c b).Sound := by
  unfold State.capRelease
  try dsimp only
  repeat' first
    | with_reducible assumption | with_reducible apply State.setFld_sound | with_reducible apply State.capArmIn_sound
    | with_reducible apply outSound_next | with_reducible apply sound_ite

theorem execCaptureRelease0_sound {s : State} (hs : s.Sound) (c : Fin 64) : OutSound (execCaptureRelease0 c s) := by
  unfold execCaptureRelease0
  try dsimp only
  repeat' first
    | with_reducible assumption | with_reducible apply State.capRelease_sound | with_reducible apply outSound_next

theorem execCaptureRelease1_sound {s : State} (hs : s.Sound) (c : Fin 64) : OutSound (execCaptureRelease1 c s) := by
  unfold execCaptureRelease1
  try dsimp only
  repeat' first
    | with_reducible assumption | with_reducible apply State.capRelease_sound | with_reducible apply outSound_next

theorem State.rceLate_sound {s : State} (hs : s.Sound) (sig : Nat) (q : Nat) : (State.rceLate s sig q).Sound := by
  unfold State.rceLate
  try dsimp only
  repeat' first
    | with_reducible assumption | with_reducible apply State.logPerSecond_sound | with_reducible apply State.setFld_sound
    | with_reducible apply State.count_sound

theorem State.ensureRow_sound {s : State} (hs : s.Sound) (m : Nat) (q : Nat) : (State.ensureRow s m q).Sound := by
  unfold State.ensureRow
  try dsimp only
  repeat' first
    | with_reducible assumption | with_reducible apply State.setRecCrew_sound | with_reducible apply outSound_next
    | with_reducible apply sound_ite

theorem State.keepTok_sound {s : State} (hs : s.Sound) (t : Token) : (State.keepTok s t).Sound := by
  unfold State.keepTok
  try dsimp only
  repeat' first
    | with_reducible assumption | with_reducible apply State.setRce_sound | with_reducible apply outSound_next
    | with_reducible apply sound_ite

theorem State.trgToken_sound {s : State} (hs : s.Sound) (u : Nat) (t : Token) : (State.trgToken s u t).Sound := by
  unfold State.trgToken
  try dsimp only
  repeat' first
    | with_reducible assumption | with_reducible apply State.setTrg_sound | with_reducible apply State.fireTrigger_sound
    | with_reducible apply outSound_next | with_reducible apply sound_ite

theorem State.freshBool_sound {s : State} (hs : s.Sound) : (State.freshBool s).2.Sound := by
  unfold State.freshBool
  try dsimp only
  repeat' first
    | with_reducible assumption | with_reducible apply State.freshNat_sound

theorem State.envToken_sound {s : State} (hs : s.Sound) (m : Nat) (i : Nat) (e : EnvEntry) (t : Token) : (State.envToken s m i e t).Sound := by
  unfold State.envToken
  try dsimp only
  repeat' first
    | with_reducible assumption | with_reducible apply State.envTest_sound | with_reducible apply State.freshBool_sound
    | with_reducible apply State.setRecCrew_sound | with_reducible apply outSound_next | with_reducible apply sound_ite
    | with_reducible apply outSound_ite | with_reducible apply sound_foldl | with_reducible intro _ _ _ _ | with_reducible intro _ _ _
    | with_reducible intro _ _ | with_reducible apply sound_ite_snd | with_reducible refine sound_of_snd (by assumption) ?_
    | with_reducible refine sound_of_fst (by assumption) ?_ | with_reducible refine sound_of_trd (by assumption) ?_
    | with_reducible apply sound_foldl_fst | with_reducible apply sound_foldl_snd | split

theorem State.envTokens_sound {s : State} (hs : s.Sound) (t : Token) : (State.envTokens s t).Sound := by
  unfold State.envTokens
  try dsimp only
  repeat' first
    | with_reducible assumption | with_reducible apply State.envToken_sound | with_reducible apply outSound_next
    | with_reducible apply sound_ite | with_reducible apply outSound_ite | with_reducible apply sound_foldl | with_reducible intro _ _ _ _
    | with_reducible intro _ _ _

theorem State.rceToken_sound {s : State} (hs : s.Sound) (link : Nat) (t : Token) : (State.rceToken s link t).Sound := by
  unfold State.rceToken
  try dsimp only
  repeat' first
    | with_reducible assumption | with_reducible apply State.check_sound | with_reducible apply State.setFld_sound
    | with_reducible apply State.count_sound | with_reducible apply State.rceLate_sound | with_reducible apply State.ensureRow_sound
    | with_reducible apply State.setRecCrew_sound | with_reducible apply State.keepTok_sound | with_reducible apply State.trgToken_sound
    | with_reducible apply State.envTokens_sound | with_reducible apply outSound_next | with_reducible apply sound_ite
    | with_reducible apply outSound_ite | with_reducible apply sound_foldl | with_reducible intro _ _ _ _ | with_reducible intro _ _ _
    | with_reducible intro _ _ | with_reducible apply sound_ite_snd | with_reducible refine sound_of_snd (by assumption) ?_
    | with_reducible refine sound_of_fst (by assumption) ?_ | with_reducible refine sound_of_trd (by assumption) ?_
    | with_reducible apply sound_foldl_fst | with_reducible apply sound_foldl_snd | split

theorem execRceToken_sound {s : State} (hs : s.Sound) (link : Nat) (t : Token) : OutSound (execRceToken link t s) := by
  unfold execRceToken
  try dsimp only
  repeat' first
    | with_reducible assumption | with_reducible apply State.rceToken_sound | with_reducible apply outSound_next

theorem State.closeBlock_sound {s : State} (hs : s.Sound) (c : Chain) : (State.closeBlock s c).Sound := by
  unfold State.closeBlock
  try dsimp only
  repeat' first
    | with_reducible assumption | with_reducible apply State.writeHeader_sound | with_reducible apply State.setRce_sound
    | with_reducible apply State.setFld_sound | with_reducible apply State.log_sound | with_reducible apply State.recStart_sound
    | with_reducible apply State.syncExport_sound | with_reducible apply State.openBlock_sound | with_reducible apply State.stopCheck_sound
    | with_reducible apply State.appendRow_sound | with_reducible apply outSound_next | with_reducible apply sound_ite
    | with_reducible apply outSound_ite | with_reducible apply sound_foldl | with_reducible intro _ _ _ _ | with_reducible intro _ _ _

theorem State.reduceSig_sound {s : State} (hs : s.Sound) (m : Nat) (q : Nat) (sig : Nat) (e : RecSel) (toks : List Token) (bad : List Nat) : (State.reduceSig s m q sig e toks bad).1.Sound := by
  unfold State.reduceSig
  try dsimp only
  repeat' first
    | with_reducible assumption | with_reducible apply State.logIf_sound | with_reducible apply State.setRce_sound
    | with_reducible apply outSound_next | with_reducible apply sound_ite | with_reducible apply outSound_ite
    | with_reducible apply sound_foldl | with_reducible intro _ _ _ _ | with_reducible intro _ _ _ | with_reducible intro _ _
    | with_reducible apply sound_ite_snd | with_reducible refine sound_of_snd (by assumption) ?_
    | with_reducible refine sound_of_fst (by assumption) ?_ | with_reducible refine sound_of_trd (by assumption) ?_
    | with_reducible apply sound_foldl_fst | with_reducible apply sound_foldl_snd | split

theorem State.rateAdd_sound {s : State} (hs : s.Sound) (n : Nat) : (State.rateAdd s n).Sound := by
  unfold State.rateAdd
  try dsimp only
  repeat' first
    | with_reducible assumption | with_reducible apply State.setRce_sound | with_reducible apply outSound_next
    | with_reducible apply sound_ite

theorem State.rowStore_sound {s : State} (hs : s.Sound) (m : Nat) (q : Nat) (t : Stamp) (row : OpenRow) (stored : List (Nat × Nat)) (reds : List (Nat × Nat)) (empty : List Nat) : (State.rowStore s m q t row stored reds empty).Sound := by
  unfold State.rowStore
  try dsimp only
  repeat' first
    | with_reducible assumption | with_reducible apply State.writeRow_sound | with_reducible apply State.rateAdd_sound
    | with_reducible apply State.logPerSecond_sound | with_reducible apply State.setFld_sound | with_reducible apply State.count_sound
    | with_reducible apply outSound_next | with_reducible apply sound_ite | with_reducible apply outSound_ite
    | with_reducible apply sound_foldl | with_reducible intro _ _ _ _ | with_reducible intro _ _ _

theorem State.capTrigger_sound {s : State} (hs : s.Sound) (c : Nat) (m : Nat) (q : Nat) (pos : Nat) (t : Stamp) : (State.capTrigger s c m q pos t).Sound := by
  unfold State.capTrigger
  try dsimp only
  repeat' first
    | with_reducible assumption | with_reducible apply State.catchTime_sound | with_reducible apply State.setCap_sound
    | with_reducible apply State.setFld_sound | with_reducible apply State.trigRow_sound | with_reducible apply State.log_sound

theorem State.capSlot_sound {s : State} (hs : s.Sound) (c : Nat) (m : Nat) (q : Nat) : (State.capSlot s c m q).Sound := by
  unfold State.capSlot
  try dsimp only
  repeat' first
    | with_reducible assumption | with_reducible apply State.setCap_sound | with_reducible apply State.catchTime_sound
    | with_reducible apply State.wrList_sound | with_reducible apply State.capTrigger_sound | with_reducible apply State.setFld_sound
    | with_reducible apply outSound_next | with_reducible apply sound_ite

theorem State.closeRow_sound {s : State} (hs : s.Sound) (m : Nat) (row : OpenRow) (bad : List Nat) : (State.closeRow s m row bad).Sound := by
  unfold State.closeRow
  try dsimp only
  repeat' first
    | with_reducible assumption | with_reducible apply State.setRecCrew_sound | with_reducible apply State.catchTime_sound
    | with_reducible apply State.reduceSig_sound | with_reducible apply State.rowStore_sound | with_reducible apply State.capSlot_sound
    | with_reducible apply State.stopCheck_sound | with_reducible apply State.setRce_sound | with_reducible apply outSound_next
    | with_reducible apply sound_ite | with_reducible apply outSound_ite | with_reducible apply sound_foldl | with_reducible intro _ _ _ _
    | with_reducible intro _ _ _ | with_reducible intro _ _ | with_reducible apply sound_ite_snd
    | with_reducible refine sound_of_snd (by assumption) ?_ | with_reducible refine sound_of_fst (by assumption) ?_
    | with_reducible refine sound_of_trd (by assumption) ?_ | with_reducible apply sound_foldl_fst | with_reducible apply sound_foldl_snd
    | split

theorem execRowClose_sound {s : State} (hs : s.Sound) (m : Fin 8) (bad : List Nat) : OutSound (execRowClose m bad s) := by
  unfold execRowClose
  try dsimp only
  repeat' first
    | with_reducible assumption | with_reducible apply State.closeRow_sound | with_reducible apply outSound_next
    | with_reducible apply sound_ite | with_reducible apply outSound_ite | with_reducible apply sound_foldl | with_reducible intro _ _ _ _
    | with_reducible intro _ _ _ | with_reducible intro _ _ | with_reducible apply sound_ite_snd
    | with_reducible refine sound_of_snd (by assumption) ?_ | with_reducible refine sound_of_fst (by assumption) ?_
    | with_reducible refine sound_of_trd (by assumption) ?_ | with_reducible apply sound_foldl_fst | with_reducible apply sound_foldl_snd
    | split

theorem State.stepCount_sound {s : State} (hs : s.Sound) (m : Nat) (stroke : Nat) (count : Nat) : (State.stepCount s m stroke count).Sound := by
  unfold State.stepCount
  try dsimp only
  repeat' first
    | with_reducible assumption | with_reducible apply State.setRecCrew_sound

theorem State.syncGold_sound {s : State} (hs : s.Sound) : (State.syncGold s).Sound := by
  unfold State.syncGold
  try dsimp only
  repeat' first
    | with_reducible assumption | with_reducible apply State.setFld_sound | with_reducible apply outSound_next
    | with_reducible apply sound_ite | with_reducible apply outSound_ite | with_reducible apply sound_foldl | with_reducible intro _ _ _ _
    | with_reducible intro _ _ _

theorem State.envSetChange_sound {s : State} (hs : s.Sound) (m : Nat) (set : Nat) (q : Nat) : (State.envSetChange s m set q).Sound := by
  unfold State.envSetChange
  try dsimp only
  repeat' first
    | with_reducible assumption | with_reducible apply State.setRecCrew_sound | with_reducible apply State.logIf_sound
    | with_reducible apply State.setFld_sound | with_reducible apply State.syncGold_sound | with_reducible apply outSound_next
    | with_reducible apply sound_ite | with_reducible apply outSound_ite | with_reducible apply sound_foldl | with_reducible intro _ _ _ _
    | with_reducible intro _ _ _

theorem State.recMark_sound {s : State} (hs : s.Sound) (m : Nat) (q : Nat) (mark : Nat) (r : Nat) (step : Nat) : (State.recMark s m q mark r step).Sound := by
  unfold State.recMark
  try dsimp only
  repeat' first
    | with_reducible assumption | with_reducible apply State.catchTime_sound | with_reducible apply State.writeRow_sound
    | with_reducible apply State.ensureRow_sound | with_reducible apply State.setRecCrew_sound | with_reducible apply outSound_next
    | with_reducible apply sound_ite

theorem execBlockClose_sound {s : State} (hs : s.Sound) : OutSound (execBlockClose s) := by
  unfold execBlockClose
  try dsimp only
  repeat' first
    | with_reducible assumption | with_reducible apply State.closeBlock_sound | with_reducible apply outSound_next
    | with_reducible apply sound_ite | with_reducible apply outSound_ite | with_reducible apply sound_foldl | with_reducible intro _ _ _ _
    | with_reducible intro _ _ _ | with_reducible intro _ _ | with_reducible apply sound_ite_snd
    | with_reducible refine sound_of_snd (by assumption) ?_ | with_reducible refine sound_of_fst (by assumption) ?_
    | with_reducible refine sound_of_trd (by assumption) ?_ | with_reducible apply sound_foldl_fst | with_reducible apply sound_foldl_snd
    | split

theorem execExportDatagram_sound {s : State} (hs : s.Sound) : OutSound (execExportDatagram s) := by
  unfold execExportDatagram
  try dsimp only
  repeat' first
    | with_reducible assumption | with_reducible apply State.emit_sound | with_reducible apply State.setRce_sound
    | with_reducible apply State.syncExport_sound | with_reducible apply outSound_next | with_reducible apply sound_ite
    | with_reducible apply outSound_ite | with_reducible apply sound_foldl | with_reducible intro _ _ _ _ | with_reducible intro _ _ _
    | with_reducible intro _ _ | with_reducible apply sound_ite_snd | with_reducible refine sound_of_snd (by assumption) ?_
    | with_reducible refine sound_of_fst (by assumption) ?_ | with_reducible refine sound_of_trd (by assumption) ?_
    | with_reducible apply sound_foldl_fst | with_reducible apply sound_foldl_snd | split

theorem State.measResult_sound {s : State} (hs : s.Sound) (c : Nat) (k : MeasCfg) (tr : Stamp) (trigPos : Nat) (pre : Nat) (post : Nat) : (State.measResult s c k tr trigPos pre post).1.Sound := by
  unfold State.measResult
  try dsimp only
  repeat' first
    | with_reducible assumption | with_reducible apply State.freshWord_sound | with_reducible apply outSound_next
    | with_reducible apply sound_ite | with_reducible apply outSound_ite | with_reducible apply sound_foldl | with_reducible intro _ _ _ _
    | with_reducible intro _ _ _ | with_reducible intro _ _ | with_reducible apply sound_ite_snd
    | with_reducible refine sound_of_snd (by assumption) ?_ | with_reducible refine sound_of_fst (by assumption) ?_
    | with_reducible refine sound_of_trd (by assumption) ?_ | with_reducible apply sound_foldl_fst | with_reducible apply sound_foldl_snd
    | split

theorem State.measEnvs_sound {s : State} (hs : s.Sound) (c : Nat) (i : Nat) (v : Word) (ok : Bool) : (State.measEnvs s c i v ok).Sound := by
  unfold State.measEnvs
  try dsimp only
  repeat' first
    | with_reducible assumption | with_reducible apply State.envTest_sound | with_reducible apply outSound_next
    | with_reducible apply sound_ite | with_reducible apply outSound_ite | with_reducible apply sound_foldl | with_reducible intro _ _ _ _
    | with_reducible intro _ _ _

theorem State.capComplete_sound {s : State} (hs : s.Sound) (c : Nat) : (State.capComplete s c).Sound := by
  unfold State.capComplete
  try dsimp only
  repeat' first
    | with_reducible assumption | with_reducible apply State.measResult_sound | with_reducible apply State.wrList_sound
    | with_reducible apply State.wrMem_sound | with_reducible apply State.setFld_sound | with_reducible apply State.setNum_sound
    | with_reducible apply State.log_sound | with_reducible apply State.measEnvs_sound | with_reducible apply State.setCap_sound
    | with_reducible apply State.capArmIn_sound | with_reducible apply outSound_next | with_reducible apply sound_ite
    | with_reducible apply outSound_ite | with_reducible apply sound_foldl | with_reducible intro _ _ _ _ | with_reducible intro _ _ _
    | with_reducible intro _ _ | with_reducible apply sound_ite_snd | with_reducible refine sound_of_snd (by assumption) ?_
    | with_reducible refine sound_of_fst (by assumption) ?_ | with_reducible refine sound_of_trd (by assumption) ?_
    | with_reducible apply sound_foldl_fst | with_reducible apply sound_foldl_snd | split

theorem State.rceCatch_sound {s : State} (hs : s.Sound) (m : Nat) (q : Nat) (t : Stamp) : (State.rceCatch s m q t).Sound := by
  unfold State.rceCatch
  try dsimp only
  repeat' first
    | with_reducible assumption | with_reducible apply State.setRecCrew_sound | with_reducible apply State.ensureRow_sound
    | with_reducible apply outSound_next | with_reducible apply sound_ite

theorem execBlockTimeout_sound {s : State} (hs : s.Sound) : OutSound (execBlockTimeout s) := by
  unfold execBlockTimeout
  try dsimp only
  repeat' first
    | with_reducible assumption | with_reducible apply State.closeBlock_sound | with_reducible apply State.setRce_sound
    | with_reducible apply outSound_next | with_reducible apply sound_ite | with_reducible apply outSound_ite
    | with_reducible apply sound_foldl | with_reducible intro _ _ _ _ | with_reducible intro _ _ _ | with_reducible intro _ _
    | with_reducible apply sound_ite_snd | with_reducible refine sound_of_snd (by assumption) ?_
    | with_reducible refine sound_of_fst (by assumption) ?_ | with_reducible refine sound_of_trd (by assumption) ?_
    | with_reducible apply sound_foldl_fst | with_reducible apply sound_foldl_snd | split

theorem State.retxRefuse_sound {s : State} (hs : s.Sound) (id : Nat) (blkseq : Nat) (slot : Nat) (reason : Nat) : (State.retxRefuse s id blkseq slot reason).Sound := by
  unfold State.retxRefuse
  try dsimp only
  repeat' first
    | with_reducible assumption | with_reducible apply State.freshNat_sound | with_reducible apply State.emit_sound
    | with_reducible apply State.log_sound | with_reducible apply State.setFld_sound

theorem execRetxServe_sound {s : State} (hs : s.Sound) : OutSound (execRetxServe s) := by
  unfold execRetxServe
  try dsimp only
  repeat' first
    | with_reducible assumption | with_reducible apply State.setRce_sound | with_reducible apply State.retxRefuse_sound
    | with_reducible apply State.count_sound | with_reducible apply State.emit_sound | with_reducible apply outSound_next
    | with_reducible apply sound_ite | with_reducible apply outSound_ite | with_reducible apply sound_foldl | with_reducible intro _ _ _ _
    | with_reducible intro _ _ _ | with_reducible intro _ _ | with_reducible apply sound_ite_snd
    | with_reducible refine sound_of_snd (by assumption) ?_ | with_reducible refine sound_of_fst (by assumption) ?_
    | with_reducible refine sound_of_trd (by assumption) ?_ | with_reducible apply sound_foldl_fst | with_reducible apply sound_foldl_snd
    | split

theorem execBlockHashDone_sound {s : State} (hs : s.Sound) : OutSound (execBlockHashDone s) := by
  unfold execBlockHashDone
  try dsimp only
  repeat' first
    | with_reducible assumption | with_reducible apply State.setNum_sound | with_reducible apply State.setRce_sound
    | with_reducible apply State.wrList_sound | with_reducible apply outSound_next | with_reducible apply sound_ite
    | with_reducible apply outSound_ite | with_reducible apply sound_foldl | with_reducible intro _ _ _ _ | with_reducible intro _ _ _
    | with_reducible intro _ _ | with_reducible apply sound_ite_snd | with_reducible refine sound_of_snd (by assumption) ?_
    | with_reducible refine sound_of_fst (by assumption) ?_ | with_reducible refine sound_of_trd (by assumption) ?_
    | with_reducible apply sound_foldl_fst | with_reducible apply sound_foldl_snd | split | dsimp only | simp only [sound_mk, sound_mk_evl]

theorem execCaptureComplete_sound {s : State} (hs : s.Sound) (c : Fin 64) : OutSound (execCaptureComplete c s) := by
  unfold execCaptureComplete
  try dsimp only
  repeat' first
    | with_reducible assumption | with_reducible apply State.capComplete_sound | with_reducible apply outSound_next
    | with_reducible apply sound_ite | with_reducible apply outSound_ite | with_reducible apply sound_foldl | with_reducible intro _ _ _ _
    | with_reducible intro _ _ _ | with_reducible intro _ _ | with_reducible apply sound_ite_snd
    | with_reducible refine sound_of_snd (by assumption) ?_ | with_reducible refine sound_of_fst (by assumption) ?_
    | with_reducible refine sound_of_trd (by assumption) ?_ | with_reducible apply sound_foldl_fst | with_reducible apply sound_foldl_snd
    | split | dsimp only | simp only [sound_mk, sound_mk_evl]

theorem execBlockSigned_sound {s : State} (hs : s.Sound) (ok : Bool) : OutSound (execBlockSigned ok s) := by
  unfold execBlockSigned
  try dsimp only
  repeat' first
    | with_reducible assumption | with_reducible apply State.wrList_sound | with_reducible apply State.log_sound
    | with_reducible apply State.setFld_sound | with_reducible apply State.setRce_sound | with_reducible apply outSound_next
    | with_reducible apply sound_ite | with_reducible apply outSound_ite | with_reducible apply sound_foldl | with_reducible intro _ _ _ _
    | with_reducible intro _ _ _ | with_reducible intro _ _ | with_reducible apply sound_ite_snd
    | with_reducible refine sound_of_snd (by assumption) ?_ | with_reducible refine sound_of_fst (by assumption) ?_
    | with_reducible refine sound_of_trd (by assumption) ?_ | with_reducible apply sound_foldl_fst | with_reducible apply sound_foldl_snd
    | split | dsimp only | simp only [sound_mk, sound_mk_evl]

theorem execRetxRequest_sound {s : State} (hs : s.Sound) (dg : List Byte) : OutSound (execRetxRequest dg s) := by
  unfold execRetxRequest
  try dsimp only
  repeat' first
    | with_reducible assumption | with_reducible apply State.retxRefuse_sound | with_reducible apply State.setRce_sound
    | with_reducible apply outSound_next | with_reducible apply sound_ite | with_reducible apply outSound_ite
    | with_reducible apply sound_foldl | with_reducible intro _ _ _ _ | with_reducible intro _ _ _ | with_reducible intro _ _
    | with_reducible apply sound_ite_snd | with_reducible refine sound_of_snd (by assumption) ?_
    | with_reducible refine sound_of_fst (by assumption) ?_ | with_reducible refine sound_of_trd (by assumption) ?_
    | with_reducible apply sound_foldl_fst | with_reducible apply sound_foldl_snd | split | dsimp only | simp only [sound_mk, sound_mk_evl]

end Sys2Proof.Machine
end

