-- ==== Sys2Proof/Laws/SoundSeqOps.lean ====
section
/-! SUPPORT. The operations and commands of Machine/SeqOps.lean keep a sound state sound. -/
namespace Sys2Proof.Machine

theorem State.setRcpTo_sound {s : State} (hs : s.Sound) (r : Nat) (v : Nat) (cause : Nat) : (State.setRcpTo s r v cause).Sound := by
  unfold State.setRcpTo
  try dsimp only
  repeat' first
    | with_reducible assumption | with_reducible apply State.setFld_sound | with_reducible apply State.log_sound
    | with_reducible apply State.setRbit_sound | with_reducible apply State.envSuspend_sound | with_reducible apply State.fireRecipe_sound
    | with_reducible apply outSound_next | with_reducible apply sound_ite | with_reducible apply outSound_ite
    | with_reducible apply sound_foldl | with_reducible intro _ _ _ _ | with_reducible intro _ _ _

theorem State.setRcp_sound {s : State} (hs : s.Sound) (r : Nat) (v : Nat) (cause : Nat) : (State.setRcp s r v cause).Sound := by
  unfold State.setRcp
  try dsimp only
  repeat' first
    | with_reducible assumption | with_reducible apply State.setRcpTo_sound | with_reducible apply outSound_next
    | with_reducible apply sound_ite

theorem State.unstage_sound {s : State} (hs : s.Sound) (r : Nat) (cseq : Nat) : (State.unstage s r cseq).Sound := by
  unfold State.unstage
  try dsimp only
  repeat' first
    | with_reducible assumption | with_reducible apply State.setLpe_sound | with_reducible apply outSound_next
    | with_reducible apply sound_ite | with_reducible apply outSound_ite | with_reducible apply sound_foldl | with_reducible intro _ _ _ _
    | with_reducible intro _ _ _

theorem State.setSeq_sound {s : State} (hs : s.Sound) (q : SeqState) : (State.setSeq s q).Sound := by
  unfold State.setSeq
  try dsimp only
  repeat' first
    | with_reducible assumption | with_reducible apply outSound_next | with_reducible apply sound_ite | with_reducible apply outSound_ite
    | with_reducible apply sound_foldl | with_reducible intro _ _ _ _ | with_reducible intro _ _ _ | with_reducible intro _ _
    | with_reducible apply sound_ite_snd | with_reducible refine sound_of_snd (by assumption) ?_
    | with_reducible refine sound_of_fst (by assumption) ?_ | with_reducible refine sound_of_trd (by assumption) ?_
    | with_reducible apply sound_foldl_fst | with_reducible apply sound_foldl_snd | split | dsimp only | simp only [sound_mk, sound_mk_evl]

theorem State.seqPost_sound {s : State} (hs : s.Sound) (ws : List Nat) : (State.seqPost s ws).Sound := by
  unfold State.seqPost
  try dsimp only
  repeat' first
    | with_reducible assumption | with_reducible apply State.mbGo_sound | with_reducible apply State.setNum_sound
    | with_reducible apply outSound_next | with_reducible apply sound_ite | with_reducible apply outSound_ite
    | with_reducible apply sound_foldl | with_reducible intro _ _ _ _ | with_reducible intro _ _ _

theorem State.seqSend_sound {s : State} (hs : s.Sound) (r : Nat) (ws : List Nat) : (State.seqSend s r ws).Sound := by
  unfold State.seqSend
  try dsimp only
  repeat' first
    | with_reducible assumption | with_reducible apply State.setSeq_sound | with_reducible apply State.seqPost_sound
    | with_reducible apply outSound_next | with_reducible apply sound_ite

theorem State.seqWithdraw_sound {s : State} (hs : s.Sound) (r : Nat) : (State.seqWithdraw s r).Sound := by
  unfold State.seqWithdraw
  try dsimp only
  repeat' first
    | with_reducible assumption | with_reducible apply State.seqSend_sound | with_reducible apply State.setSeq_sound

theorem State.seqResult_sound {s : State} (hs : s.Sound) (r : Nat) (cmd : Nat) (code : Nat) : (State.seqResult s r cmd code).Sound := by
  unfold State.seqResult
  try dsimp only
  repeat' first
    | with_reducible assumption | with_reducible apply State.setFld_sound | with_reducible apply State.logIf_sound

theorem State.ckptStart_sound {s : State} (hs : s.Sound) : (State.ckptStart s).Sound := by
  unfold State.ckptStart
  try dsimp only
  repeat' first
    | with_reducible assumption | with_reducible apply State.setSeq_sound | with_reducible apply State.setFld_sound
    | with_reducible apply State.wrMem_sound | with_reducible apply outSound_next | with_reducible apply sound_ite
    | with_reducible apply outSound_ite | with_reducible apply sound_foldl | with_reducible intro _ _ _ _ | with_reducible intro _ _ _
    | with_reducible intro _ _ | with_reducible apply sound_ite_snd | with_reducible refine sound_of_snd (by assumption) ?_
    | with_reducible refine sound_of_fst (by assumption) ?_ | with_reducible refine sound_of_trd (by assumption) ?_
    | with_reducible apply sound_foldl_fst | with_reducible apply sound_foldl_snd | split

theorem State.putCut_sound {s : State} (hs : s.Sound) (c : Cut) : (State.putCut s c).Sound := by
  unfold State.putCut
  try dsimp only
  repeat' first
    | with_reducible assumption | with_reducible apply State.setSeq_sound

theorem State.cutProg_sound {s : State} (hs : s.Sound) (c : Cut) : (State.cutProg s c).Sound := by
  unfold State.cutProg
  try dsimp only
  repeat' first
    | with_reducible assumption | with_reducible apply State.putCut_sound | with_reducible apply State.copyMem_sound
    | with_reducible apply outSound_next | with_reducible apply sound_ite | with_reducible apply outSound_ite
    | with_reducible apply sound_foldl | with_reducible intro _ _ _ _ | with_reducible intro _ _ _ | with_reducible intro _ _
    | with_reducible apply sound_ite_snd | with_reducible refine sound_of_snd (by assumption) ?_
    | with_reducible refine sound_of_fst (by assumption) ?_ | with_reducible refine sound_of_trd (by assumption) ?_
    | with_reducible apply sound_foldl_fst | with_reducible apply sound_foldl_snd | split

theorem State.cutBoundary_sound {s : State} (hs : s.Sound) : (State.cutBoundary s).Sound := by
  unfold State.cutBoundary
  try dsimp only
  repeat' first
    | with_reducible assumption | with_reducible apply State.ckptStart_sound | with_reducible apply State.cutProg_sound
    | with_reducible apply outSound_next | with_reducible apply sound_ite | with_reducible apply outSound_ite
    | with_reducible apply sound_foldl | with_reducible intro _ _ _ _ | with_reducible intro _ _ _

theorem State.cutAxes_sound {s : State} (hs : s.Sound) (b : Nat) (m : Nat) : (State.cutAxes s b m).Sound := by
  unfold State.cutAxes
  try dsimp only
  repeat' first
    | with_reducible assumption | with_reducible apply State.wrList_sound | with_reducible apply outSound_next
    | with_reducible apply sound_ite | with_reducible apply outSound_ite | with_reducible apply sound_foldl | with_reducible intro _ _ _ _
    | with_reducible intro _ _ _

theorem State.cutBody_sound {s : State} (hs : s.Sound) (b : Nat) (cs : List (Option Nat)) : (State.cutBody s b cs).Sound := by
  unfold State.cutBody
  try dsimp only
  repeat' first
    | with_reducible assumption | with_reducible apply State.wrList_sound | with_reducible apply State.cutAxes_sound
    | with_reducible apply outSound_next | with_reducible apply sound_ite | with_reducible apply outSound_ite
    | with_reducible apply sound_foldl | with_reducible intro _ _ _ _ | with_reducible intro _ _ _

theorem State.cutLoops_sound {s : State} (hs : s.Sound) (c : Cut) (f : Nat × Nat → Bool) : (State.cutLoops s c f).1.Sound := by
  unfold State.cutLoops
  try dsimp only
  repeat' first
    | with_reducible assumption | with_reducible apply State.wrList_sound | with_reducible apply outSound_next
    | with_reducible apply sound_ite | with_reducible apply outSound_ite | with_reducible apply sound_foldl | with_reducible intro _ _ _ _
    | with_reducible intro _ _ _ | with_reducible intro _ _ | with_reducible apply sound_ite_snd
    | with_reducible refine sound_of_snd (by assumption) ?_ | with_reducible refine sound_of_fst (by assumption) ?_
    | with_reducible refine sound_of_trd (by assumption) ?_ | with_reducible apply sound_foldl_fst | with_reducible apply sound_foldl_snd
    | split

theorem State.cutEnter_sound {s : State} (hs : s.Sound) (c : Cut) : (State.cutEnter s c).Sound := by
  unfold State.cutEnter
  try dsimp only
  repeat' first
    | with_reducible assumption | with_reducible apply State.setSeq_sound | with_reducible apply State.cutLoops_sound
    | with_reducible apply State.putCut_sound | with_reducible apply State.ckptStart_sound | with_reducible apply State.cutProg_sound
    | with_reducible apply outSound_next | with_reducible apply sound_ite

theorem State.ckptCut_sound {s : State} (hs : s.Sound) (m : Nat) (cseq : Nat) (dip : Bool) : (State.ckptCut s m cseq dip).Sound := by
  unfold State.ckptCut
  try dsimp only
  repeat' first
    | with_reducible assumption | with_reducible apply State.clearMem_sound | with_reducible apply State.count_sound
    | with_reducible apply State.cutBody_sound | with_reducible apply State.cutEnter_sound | with_reducible apply outSound_next
    | with_reducible apply sound_ite

theorem State.cutStroke_sound {s : State} (hs : s.Sound) (m : Nat) (q : Nat) : (State.cutStroke s m q).Sound := by
  unfold State.cutStroke
  try dsimp only
  repeat' first
    | with_reducible assumption | with_reducible apply State.putCut_sound | with_reducible apply State.cutAxes_sound
    | with_reducible apply State.cutLoops_sound | with_reducible apply State.ckptStart_sound | with_reducible apply outSound_next
    | with_reducible apply sound_ite | with_reducible apply outSound_ite | with_reducible apply sound_foldl | with_reducible intro _ _ _ _
    | with_reducible intro _ _ _ | with_reducible intro _ _ | with_reducible apply sound_ite_snd
    | with_reducible refine sound_of_snd (by assumption) ?_ | with_reducible refine sound_of_fst (by assumption) ?_
    | with_reducible refine sound_of_trd (by assumption) ?_ | with_reducible apply sound_foldl_fst | with_reducible apply sound_foldl_snd
    | split

theorem State.cutBeforeUpdate_sound {s : State} (hs : s.Sound) (n : Nat) (l : Nat) (q : Nat) : (State.cutBeforeUpdate s n l q).Sound := by
  unfold State.cutBeforeUpdate
  try dsimp only
  repeat' first
    | with_reducible assumption | with_reducible apply State.cutLoops_sound | with_reducible apply State.putCut_sound
    | with_reducible apply State.ckptStart_sound | with_reducible apply outSound_next | with_reducible apply sound_ite
    | with_reducible apply outSound_ite | with_reducible apply sound_foldl | with_reducible intro _ _ _ _ | with_reducible intro _ _ _
    | with_reducible intro _ _ | with_reducible apply sound_ite_snd | with_reducible refine sound_of_snd (by assumption) ?_
    | with_reducible refine sound_of_fst (by assumption) ?_ | with_reducible refine sound_of_trd (by assumption) ?_
    | with_reducible apply sound_foldl_fst | with_reducible apply sound_foldl_snd | split

theorem State.stageStep_sound {s : State} (hs : s.Sound) (r : Nat) (cseq : Nat) (p : RStep) : (State.stageStep s r cseq p).Sound := by
  unfold State.stageStep
  try dsimp only
  repeat' first
    | with_reducible assumption | with_reducible apply State.setLpe_sound | with_reducible apply outSound_next
    | with_reducible apply sound_ite | with_reducible apply outSound_ite | with_reducible apply sound_foldl | with_reducible intro _ _ _ _
    | with_reducible intro _ _ _ | with_reducible intro _ _ | with_reducible apply sound_ite_snd
    | with_reducible refine sound_of_snd (by assumption) ?_ | with_reducible refine sound_of_fst (by assumption) ?_
    | with_reducible refine sound_of_trd (by assumption) ?_ | with_reducible apply sound_foldl_fst | with_reducible apply sound_foldl_snd
    | split

theorem State.repStart_sound {s : State} (hs : s.Sound) (r : Nat) (m : Nat) (cseq : Nat) : (State.repStart s r m cseq).Sound := by
  unfold State.repStart
  try dsimp only
  repeat' first
    | with_reducible assumption | with_reducible apply State.log_sound | with_reducible apply State.count_sound
    | with_reducible apply State.setSeq_sound | with_reducible apply State.setFld_sound | with_reducible apply State.wrMem_sound
    | with_reducible apply outSound_next | with_reducible apply sound_ite

end Sys2Proof.Machine
end

