-- ==== Sys2Proof/Laws/SoundPlkOps.lean ====
section
/-! SUPPORT. The operations and commands of Machine/PlkOps.lean keep a sound state sound. -/
namespace Sys2Proof.Machine

theorem State.mirLoop_sound {s : State} (hs : s.Sound) (c : MirCut) (w : Nat × Nat) : (State.mirLoop s c w).1.Sound := by
  unfold State.mirLoop
  try dsimp only
  repeat' first
    | with_reducible assumption | with_reducible apply State.setPlk_sound | with_reducible apply outSound_next
    | with_reducible apply sound_ite | with_reducible apply outSound_ite | with_reducible apply sound_foldl | with_reducible intro _ _ _ _
    | with_reducible intro _ _ _ | with_reducible intro _ _ | with_reducible apply sound_ite_snd
    | with_reducible refine sound_of_snd (by assumption) ?_ | with_reducible refine sound_of_fst (by assumption) ?_
    | with_reducible refine sound_of_trd (by assumption) ?_ | with_reducible apply sound_foldl_fst | with_reducible apply sound_foldl_snd
    | split

theorem State.mirLoops_sound {s : State} (hs : s.Sound) (c : MirCut) (f : Nat × Nat → Bool) : (State.mirLoops s c f).1.Sound := by
  unfold State.mirLoops
  try dsimp only
  repeat' first
    | with_reducible assumption | with_reducible apply State.mirLoop_sound | with_reducible apply outSound_next
    | with_reducible apply sound_ite | with_reducible apply outSound_ite | with_reducible apply sound_foldl | with_reducible intro _ _ _ _
    | with_reducible intro _ _ _ | with_reducible intro _ _ | with_reducible apply sound_ite_snd
    | with_reducible refine sound_of_snd (by assumption) ?_ | with_reducible refine sound_of_fst (by assumption) ?_
    | with_reducible refine sound_of_trd (by assumption) ?_ | with_reducible apply sound_foldl_fst

theorem State.mirCount_sound {s : State} (hs : s.Sound) (n : Nat) : (State.mirCount s n).Sound := by
  unfold State.mirCount
  try dsimp only
  repeat' first
    | with_reducible assumption | with_reducible apply State.setPlk_sound | with_reducible apply State.setNum_sound
    | with_reducible apply outSound_next | with_reducible apply sound_ite

theorem State.laneSend_sound {s : State} (hs : s.Sound) (bytes : List Nat) : (State.laneSend s bytes).Sound := by
  unfold State.laneSend
  try dsimp only
  repeat' first
    | with_reducible assumption | with_reducible apply State.emit_sound | with_reducible apply outSound_next
    | with_reducible apply sound_ite | with_reducible apply outSound_ite | with_reducible apply sound_foldl | with_reducible intro _ _ _ _
    | with_reducible intro _ _ _

theorem State.mirSend_sound {s : State} (hs : s.Sound) (c : MirCut) : (State.mirSend s c).Sound := by
  unfold State.mirSend
  try dsimp only
  repeat' first
    | with_reducible assumption | with_reducible apply State.mirCount_sound | with_reducible apply State.laneSend_sound
    | with_reducible apply State.setPlk_sound | with_reducible apply State.setNum_sound | with_reducible apply outSound_next
    | with_reducible apply sound_ite | with_reducible apply outSound_ite | with_reducible apply sound_foldl | with_reducible intro _ _ _ _
    | with_reducible intro _ _ _

theorem State.mirPut_sound {s : State} (hs : s.Sound) (c : MirCut) : (State.mirPut s c).Sound := by
  unfold State.mirPut
  try dsimp only
  repeat' first
    | with_reducible assumption | with_reducible apply State.mirSend_sound | with_reducible apply State.setPlk_sound
    | with_reducible apply outSound_next | with_reducible apply sound_ite

theorem State.mirStart_sound {s : State} (hs : s.Sound) (m : Nat) (cseq : Nat) (full : Bool) (now : Bool) : (State.mirStart s m cseq full now).Sound := by
  unfold State.mirStart
  try dsimp only
  repeat' first
    | with_reducible assumption | with_reducible apply State.mirLoops_sound | with_reducible apply State.mirPut_sound

theorem State.mirBoundary_sound {s : State} (hs : s.Sound) : (State.mirBoundary s).Sound := by
  unfold State.mirBoundary
  try dsimp only
  repeat' first
    | with_reducible assumption | with_reducible apply State.mirPut_sound | with_reducible apply outSound_next
    | with_reducible apply sound_ite | with_reducible apply outSound_ite | with_reducible apply sound_foldl | with_reducible intro _ _ _ _
    | with_reducible intro _ _ _ | with_reducible intro _ _ | with_reducible apply sound_ite_snd
    | with_reducible refine sound_of_snd (by assumption) ?_ | with_reducible refine sound_of_fst (by assumption) ?_
    | with_reducible refine sound_of_trd (by assumption) ?_ | with_reducible apply sound_foldl_fst | with_reducible apply sound_foldl_snd
    | split

theorem State.mirStroke_sound {s : State} (hs : s.Sound) (m : Nat) (q : Nat) : (State.mirStroke s m q).Sound := by
  unfold State.mirStroke
  try dsimp only
  repeat' first
    | with_reducible assumption | with_reducible apply State.mirPut_sound | with_reducible apply State.mirLoops_sound
    | with_reducible apply outSound_next | with_reducible apply sound_ite | with_reducible apply outSound_ite
    | with_reducible apply sound_foldl | with_reducible intro _ _ _ _ | with_reducible intro _ _ _ | with_reducible intro _ _
    | with_reducible apply sound_ite_snd | with_reducible refine sound_of_snd (by assumption) ?_
    | with_reducible refine sound_of_fst (by assumption) ?_ | with_reducible refine sound_of_trd (by assumption) ?_
    | with_reducible apply sound_foldl_fst | with_reducible apply sound_foldl_snd | split

theorem State.mirBeforeUpdate_sound {s : State} (hs : s.Sound) (n : Nat) (l : Nat) (q : Nat) : (State.mirBeforeUpdate s n l q).Sound := by
  unfold State.mirBeforeUpdate
  try dsimp only
  repeat' first
    | with_reducible assumption | with_reducible apply State.mirLoop_sound | with_reducible apply State.mirPut_sound
    | with_reducible apply outSound_next | with_reducible apply sound_ite | with_reducible apply outSound_ite
    | with_reducible apply sound_foldl | with_reducible intro _ _ _ _ | with_reducible intro _ _ _ | with_reducible intro _ _
    | with_reducible apply sound_ite_snd | with_reducible refine sound_of_snd (by assumption) ?_
    | with_reducible refine sound_of_fst (by assumption) ?_ | with_reducible refine sound_of_trd (by assumption) ?_
    | with_reducible apply sound_foldl_fst | with_reducible apply sound_foldl_snd | split

end Sys2Proof.Machine
end

