-- ==== Sys2Proof/Laws/SoundSeq.lean ====
section
/-! SUPPORT. The operations and commands of Machine/Seq.lean keep a sound state sound. -/
namespace Sys2Proof.Machine

theorem execPflagClr_sound {s : State} (hs : s.Sound) (hi : Bool) (v : Word) : OutSound (execPflagClr hi v s) := by
  unfold execPflagClr
  try dsimp only
  repeat' first
    | with_reducible assumption | with_reducible apply State.wr_sound | with_reducible apply outSound_next

theorem State.rcpHold_sound {s : State} (hs : s.Sound) (r : Nat) (cause : Nat) : (State.rcpHold s r cause).Sound := by
  unfold State.rcpHold
  try dsimp only
  repeat' first
    | with_reducible assumption | with_reducible apply State.setRcp_sound | with_reducible apply State.setSlot_sound

theorem State.seqCancel_sound {s : State} (hs : s.Sound) (r : Nat) : (State.seqCancel s r).Sound := by
  unfold State.seqCancel
  try dsimp only
  repeat' first
    | with_reducible assumption | with_reducible apply State.setFld_sound | with_reducible apply State.unstage_sound
    | with_reducible apply State.seqWithdraw_sound | with_reducible apply State.setSlot_sound | with_reducible apply outSound_next
    | with_reducible apply sound_ite | with_reducible apply outSound_ite | with_reducible apply sound_foldl | with_reducible intro _ _ _ _
    | with_reducible intro _ _ _ | with_reducible intro _ _ | with_reducible apply sound_ite_snd
    | with_reducible refine sound_of_snd (by assumption) ?_ | with_reducible refine sound_of_fst (by assumption) ?_
    | with_reducible refine sound_of_trd (by assumption) ?_ | with_reducible apply sound_foldl_fst | with_reducible apply sound_foldl_snd
    | split | dsimp only | simp only [sound_mk, sound_mk_evl]

theorem State.seqTakeOut_sound {s : State} (hs : s.Sound) (r : Nat) (cause : Nat) : (State.seqTakeOut s r cause).Sound := by
  unfold State.seqTakeOut
  try dsimp only
  repeat' first
    | with_reducible assumption | with_reducible apply State.rcpHold_sound | with_reducible apply State.seqCancel_sound
    | with_reducible apply outSound_next | with_reducible apply sound_ite | with_reducible apply outSound_ite
    | with_reducible apply sound_foldl | with_reducible intro _ _ _ _ | with_reducible intro _ _ _ | with_reducible intro _ _
    | with_reducible apply sound_ite_snd | with_reducible refine sound_of_snd (by assumption) ?_
    | with_reducible refine sound_of_fst (by assumption) ?_ | with_reducible refine sound_of_trd (by assumption) ?_
    | with_reducible apply sound_foldl_fst | with_reducible apply sound_foldl_snd | split | dsimp only | simp only [sound_mk, sound_mk_evl]

theorem State.seqForce_sound {s : State} (hs : s.Sound) (r : Nat) (cause : Nat) : (State.seqForce s r cause).Sound := by
  unfold State.seqForce
  try dsimp only
  repeat' first
    | with_reducible assumption | with_reducible apply State.setSlot_sound | with_reducible apply State.seqTakeOut_sound
    | with_reducible apply outSound_next | with_reducible apply sound_ite | with_reducible apply outSound_ite
    | with_reducible apply sound_foldl | with_reducible intro _ _ _ _ | with_reducible intro _ _ _ | with_reducible intro _ _
    | with_reducible apply sound_ite_snd | with_reducible refine sound_of_snd (by assumption) ?_
    | with_reducible refine sound_of_fst (by assumption) ?_ | with_reducible refine sound_of_trd (by assumption) ?_
    | with_reducible apply sound_foldl_fst | with_reducible apply sound_foldl_snd | split

theorem State.rcpAborted_sound {s : State} (hs : s.Sound) (r : Nat) (cause : Nat) : (State.rcpAborted s r cause).Sound := by
  unfold State.rcpAborted
  try dsimp only
  repeat' first
    | with_reducible assumption | with_reducible apply State.setRcp_sound | with_reducible apply State.log_sound
    | with_reducible apply State.setSlot_sound

theorem State.seqStranded_sound {s : State} (hs : s.Sound) (m : Nat) : (State.seqStranded s m).Sound := by
  unfold State.seqStranded
  try dsimp only
  repeat' first
    | with_reducible assumption | with_reducible apply State.seqForce_sound | with_reducible apply State.setSlot_sound
    | with_reducible apply State.rcpAborted_sound | with_reducible apply State.seqCancel_sound | with_reducible apply outSound_next
    | with_reducible apply sound_ite | with_reducible apply outSound_ite | with_reducible apply sound_foldl | with_reducible intro _ _ _ _
    | with_reducible intro _ _ _ | with_reducible intro _ _ | with_reducible apply sound_ite_snd
    | with_reducible refine sound_of_snd (by assumption) ?_ | with_reducible refine sound_of_fst (by assumption) ?_
    | with_reducible refine sound_of_trd (by assumption) ?_ | with_reducible apply sound_foldl_fst | with_reducible apply sound_foldl_snd
    | split

theorem execSeqLoad_sound {s : State} (hs : s.Sound) (r : Fin 16) : OutSound (execSeqLoad r s) := by
  unfold execSeqLoad
  try dsimp only
  repeat' first
    | with_reducible assumption | with_reducible apply State.seqResult_sound | with_reducible apply State.setFld_sound
    | with_reducible apply State.setSeq_sound | with_reducible apply outSound_next | with_reducible apply sound_ite
    | with_reducible apply outSound_ite

theorem State.seqCmd_sound {s : State} (hs : s.Sound) (r cmd : Nat) (states : List Nat) {f : State → State} (hf : ∀ s : State, s.Sound → (f s).Sound) :
    (s.seqCmd r cmd states f).Sound := by
  unfold State.seqCmd
  split
  · exact State.seqResult_sound hs _ _ _
  · exact hf _ (State.seqResult_sound hs _ _ _)

theorem State.rcpShow_sound {s : State} (hs : s.Sound) (r : Nat) (c : Option Recipe) : (State.rcpShow s r c).Sound := by
  unfold State.rcpShow
  try dsimp only
  repeat' first
    | with_reducible assumption | with_reducible apply State.setNum64_sound | with_reducible apply State.setFld_sound
    | with_reducible apply State.setSlot_sound

theorem execSeqUnload_sound {s : State} (hs : s.Sound) (r : Fin 16) : OutSound (execSeqUnload r s) := by
  unfold execSeqUnload
  try dsimp only
  repeat' first
    | with_reducible assumption | with_reducible apply State.seqCmd_sound | with_reducible apply State.rcpShow_sound
    | with_reducible apply State.setRcp_sound | with_reducible apply State.clearMem_sound | with_reducible apply outSound_next
    | with_reducible apply sound_ite | with_reducible apply outSound_ite | with_reducible apply sound_foldl | with_reducible intro _ _ _ _
    | with_reducible intro _ _ _ | with_reducible intro _ _

theorem execSeqStart_sound {s : State} (hs : s.Sound) (r : Fin 16) : OutSound (execSeqStart r s) := by
  unfold execSeqStart
  try dsimp only
  repeat' first
    | with_reducible assumption | with_reducible apply State.seqResult_sound | with_reducible apply State.setSlot_sound
    | with_reducible apply State.setNum_sound | with_reducible apply State.setRcp_sound | with_reducible apply State.log_sound
    | with_reducible apply outSound_next | with_reducible apply sound_ite | with_reducible apply outSound_ite
    | with_reducible apply sound_foldl | with_reducible intro _ _ _ _ | with_reducible intro _ _ _ | with_reducible intro _ _
    | with_reducible apply sound_ite_snd | with_reducible refine sound_of_snd (by assumption) ?_
    | with_reducible refine sound_of_fst (by assumption) ?_ | with_reducible refine sound_of_trd (by assumption) ?_
    | with_reducible apply sound_foldl_fst | with_reducible apply sound_foldl_snd | split

theorem execSeqPause_sound {s : State} (hs : s.Sound) (r : Fin 16) : OutSound (execSeqPause r s) := by
  unfold execSeqPause
  try dsimp only
  repeat' first
    | with_reducible assumption | with_reducible apply State.seqCmd_sound | with_reducible apply State.setFld_sound
    | with_reducible apply outSound_next | with_reducible apply sound_ite | with_reducible apply outSound_ite
    | with_reducible apply sound_foldl | with_reducible intro _ _ _ _ | with_reducible intro _ _ _ | with_reducible intro _ _

theorem execSeqHold_sound {s : State} (hs : s.Sound) (r : Fin 16) : OutSound (execSeqHold r s) := by
  unfold execSeqHold
  try dsimp only
  repeat' first
    | with_reducible assumption | with_reducible apply State.seqCmd_sound | with_reducible apply State.setSlot_sound
    | with_reducible apply outSound_next | with_reducible apply sound_ite | with_reducible apply outSound_ite
    | with_reducible apply sound_foldl | with_reducible intro _ _ _ _ | with_reducible intro _ _ _ | with_reducible intro _ _

theorem execSeqResume_sound {s : State} (hs : s.Sound) (r : Fin 16) : OutSound (execSeqResume r s) := by
  unfold execSeqResume
  try dsimp only
  repeat' first
    | with_reducible assumption | with_reducible apply State.seqResult_sound | with_reducible apply State.seqCmd_sound
    | with_reducible apply State.setSlot_sound | with_reducible apply outSound_next | with_reducible apply sound_ite
    | with_reducible apply outSound_ite | with_reducible apply sound_foldl | with_reducible intro _ _ _ _ | with_reducible intro _ _ _
    | with_reducible intro _ _

theorem execSeqAbort_sound {s : State} (hs : s.Sound) (r : Fin 16) : OutSound (execSeqAbort r s) := by
  unfold execSeqAbort
  try dsimp only
  repeat' first
    | with_reducible assumption | with_reducible apply State.seqCmd_sound | with_reducible apply State.setSlot_sound
    | with_reducible apply outSound_next | with_reducible apply sound_ite | with_reducible apply outSound_ite
    | with_reducible apply sound_foldl | with_reducible intro _ _ _ _ | with_reducible intro _ _ _ | with_reducible intro _ _

theorem execPflagSet_sound {s : State} (hs : s.Sound) (hi : Bool) (v : Word) : OutSound (execPflagSet hi v s) := by
  unfold execPflagSet
  try dsimp only
  repeat' first
    | with_reducible assumption | with_reducible apply State.wr_sound | with_reducible apply outSound_next

theorem State.seqRefused_sound {s : State} (hs : s.Sound) (r : Nat) (x : SeqNext) (reason : Nat) (noAnswer : Bool) : (State.seqRefused s r x reason noAnswer).Sound := by
  unfold State.seqRefused
  try dsimp only
  repeat' first
    | with_reducible assumption | with_reducible apply State.unstage_sound | with_reducible apply State.setFld_sound
    | with_reducible apply State.log_sound | with_reducible apply State.seqWithdraw_sound | with_reducible apply State.setSlot_sound
    | with_reducible apply outSound_next | with_reducible apply sound_ite

theorem execVsetAnswer_sound {s : State} (hs : s.Sound) : OutSound (execVsetAnswer s) := by
  unfold execVsetAnswer
  try dsimp only
  repeat' first
    | with_reducible assumption | with_reducible apply State.setSeq_sound | with_reducible apply State.mbDone_sound
    | with_reducible apply State.seqRefused_sound | with_reducible apply State.seqSend_sound | with_reducible apply State.setSlot_sound
    | with_reducible apply State.setFld_sound | with_reducible apply State.seqPost_sound | with_reducible apply outSound_next
    | with_reducible apply sound_ite | with_reducible apply outSound_ite | with_reducible apply sound_foldl | with_reducible intro _ _ _ _
    | with_reducible intro _ _ _ | with_reducible intro _ _ | with_reducible apply sound_ite_snd
    | with_reducible refine sound_of_snd (by assumption) ?_ | with_reducible refine sound_of_fst (by assumption) ?_
    | with_reducible refine sound_of_trd (by assumption) ?_ | with_reducible apply sound_foldl_fst | with_reducible apply sound_foldl_snd
    | split

theorem State.dipUnused_sound {s : State} (hs : s.Sound) : (State.dipUnused s).Sound := by
  unfold State.dipUnused
  try dsimp only
  repeat' first
    | with_reducible assumption | with_reducible apply State.setSeq_sound | with_reducible apply State.log_sound
    | with_reducible apply State.wrByte_sound | with_reducible apply outSound_next | with_reducible apply sound_ite
    | with_reducible apply outSound_ite | with_reducible apply sound_foldl | with_reducible intro _ _ _ _ | with_reducible intro _ _ _
    | with_reducible intro _ _ | with_reducible apply sound_ite_snd | with_reducible refine sound_of_snd (by assumption) ?_
    | with_reducible refine sound_of_fst (by assumption) ?_ | with_reducible refine sound_of_trd (by assumption) ?_
    | with_reducible apply sound_foldl_fst | with_reducible apply sound_foldl_snd | split

theorem State.dropReqs_sound {s : State} (hs : s.Sound) (r : Nat) : (State.dropReqs s r).Sound := by
  unfold State.dropReqs
  try dsimp only
  repeat' first
    | with_reducible assumption | with_reducible apply State.setFld_sound | with_reducible apply State.setSlot_sound

theorem State.observe_sound {s : State} (hs : s.Sound) (r : Nat) (nhold : Nat) (good : Bool) : (State.observe s r nhold good).Sound := by
  unfold State.observe
  try dsimp only
  repeat' first
    | with_reducible assumption | with_reducible apply State.setSlot_sound

theorem execStepConditionObserve_sound {s : State} (hs : s.Sound) (r : Fin 16) (link : Nat) (t : Token) : OutSound (execStepConditionObserve r link t s) := by
  unfold execStepConditionObserve
  try dsimp only
  repeat' first
    | with_reducible assumption | with_reducible apply State.observe_sound | with_reducible apply State.check_sound
    | with_reducible apply outSound_next | with_reducible apply sound_ite | with_reducible apply outSound_ite
    | with_reducible apply sound_foldl | with_reducible intro _ _ _ _ | with_reducible intro _ _ _ | with_reducible intro _ _
    | with_reducible apply sound_ite_snd | with_reducible refine sound_of_snd (by assumption) ?_
    | with_reducible refine sound_of_fst (by assumption) ?_ | with_reducible refine sound_of_trd (by assumption) ?_
    | with_reducible apply sound_foldl_fst | with_reducible apply sound_foldl_snd | split

theorem State.seqTakeBack_sound {s : State} (hs : s.Sound) (r : Nat) : (State.seqTakeBack s r).Sound := by
  unfold State.seqTakeBack
  try dsimp only
  repeat' first
    | with_reducible assumption | with_reducible apply State.seqCancel_sound | with_reducible apply outSound_next
    | with_reducible apply sound_ite | with_reducible apply outSound_ite | with_reducible apply sound_foldl | with_reducible intro _ _ _ _
    | with_reducible intro _ _ _ | with_reducible intro _ _ | with_reducible apply sound_ite_snd
    | with_reducible refine sound_of_snd (by assumption) ?_ | with_reducible refine sound_of_fst (by assumption) ?_
    | with_reducible refine sound_of_trd (by assumption) ?_ | with_reducible apply sound_foldl_fst | with_reducible apply sound_foldl_snd
    | split | dsimp only | simp only [sound_mk, sound_mk_evl]

theorem State.stepTimeout_sound {s : State} (hs : s.Sound) (r : Nat) (p : RStep) : (State.stepTimeout s r p).Sound := by
  unfold State.stepTimeout
  try dsimp only
  repeat' first
    | with_reducible assumption | with_reducible apply State.log_sound | with_reducible apply State.setSlot_sound
    | with_reducible apply outSound_next | with_reducible apply sound_ite

theorem State.submitSets_sound {s : State} (hs : s.Sound) (r : Nat) (k : Nat) (n : Nat) (q : Nat) (first : Bool) (restore : Option Nat) (stage : Bool) (sets : List (List (Nat × Bool))) : (State.submitSets s r k n q first restore stage sets).Sound := by
  unfold State.submitSets
  try dsimp only
  repeat' first
    | with_reducible assumption | with_reducible apply State.stageStep_sound | with_reducible apply State.setSlot_sound
    | with_reducible apply State.seqSend_sound | with_reducible apply outSound_next | with_reducible apply sound_ite
    | with_reducible apply outSound_ite | with_reducible apply sound_foldl | with_reducible intro _ _ _ _ | with_reducible intro _ _ _
    | with_reducible intro _ _ | with_reducible apply sound_ite_snd | with_reducible refine sound_of_snd (by assumption) ?_
    | with_reducible refine sound_of_fst (by assumption) ?_ | with_reducible refine sound_of_trd (by assumption) ?_
    | with_reducible apply sound_foldl_fst | with_reducible apply sound_foldl_snd | split

theorem State.submit_sound {s : State} (hs : s.Sound) (r : Nat) (k : Nat) (q : Nat) (first : Bool) : (State.submit s r k q first).Sound := by
  unfold State.submit
  try dsimp only
  repeat' first
    | with_reducible assumption | with_reducible apply State.submitSets_sound

theorem State.seqAbortNow_sound {s : State} (hs : s.Sound) (r : Nat) (q : Nat) (cause : Nat) : (State.seqAbortNow s r q cause).Sound := by
  unfold State.seqAbortNow
  try dsimp only
  repeat' first
    | with_reducible assumption | with_reducible apply State.dropReqs_sound | with_reducible apply State.rcpAborted_sound
    | with_reducible apply State.submit_sound | with_reducible apply State.setRcp_sound | with_reducible apply State.setSlot_sound
    | with_reducible apply outSound_next | with_reducible apply sound_ite | with_reducible apply outSound_ite
    | with_reducible apply sound_foldl | with_reducible intro _ _ _ _ | with_reducible intro _ _ _ | with_reducible intro _ _
    | with_reducible apply sound_ite_snd | with_reducible refine sound_of_snd (by assumption) ?_
    | with_reducible refine sound_of_fst (by assumption) ?_ | with_reducible refine sound_of_trd (by assumption) ?_
    | with_reducible apply sound_foldl_fst | with_reducible apply sound_foldl_snd | split

theorem State.seqResumeNow_sound {s : State} (hs : s.Sound) (r : Nat) (q : Nat) : (State.seqResumeNow s r q).Sound := by
  unfold State.seqResumeNow
  try dsimp only
  repeat' first
    | with_reducible assumption | with_reducible apply State.dropReqs_sound | with_reducible apply State.setRcp_sound
    | with_reducible apply State.submitSets_sound | with_reducible apply State.submit_sound | with_reducible apply outSound_next
    | with_reducible apply sound_ite | with_reducible apply outSound_ite | with_reducible apply sound_foldl | with_reducible intro _ _ _ _
    | with_reducible intro _ _ _ | with_reducible intro _ _ | with_reducible apply sound_ite_snd
    | with_reducible refine sound_of_snd (by assumption) ?_ | with_reducible refine sound_of_fst (by assumption) ?_
    | with_reducible refine sound_of_trd (by assumption) ?_ | with_reducible apply sound_foldl_fst | with_reducible apply sound_foldl_snd
    | split

theorem State.advance_sound {s : State} (hs : s.Sound) (r : Nat) (q : Nat) (k : Nat) (first : Bool) : (State.advance s r q k first).Sound := by
  unfold State.advance
  try dsimp only
  repeat' first
    | with_reducible assumption | with_reducible apply State.setSlot_sound | with_reducible apply State.setFld_sound
    | with_reducible apply State.setRcp_sound | with_reducible apply State.submit_sound | with_reducible apply outSound_next
    | with_reducible apply sound_ite

theorem State.submitEnd_sound {s : State} (hs : s.Sound) (r : Nat) (q : Nat) : (State.submitEnd s r q).Sound := by
  unfold State.submitEnd
  try dsimp only
  repeat' first
    | with_reducible assumption | with_reducible apply State.setSlot_sound

theorem State.runOn_sound {s : State} (hs : s.Sound) (r : Nat) (q : Nat) : (State.runOn s r q).Sound := by
  unfold State.runOn
  try dsimp only
  repeat' first
    | with_reducible assumption | with_reducible apply State.advance_sound | with_reducible apply State.submitEnd_sound
    | with_reducible apply outSound_next | with_reducible apply sound_ite | with_reducible apply outSound_ite
    | with_reducible apply sound_foldl | with_reducible intro _ _ _ _ | with_reducible intro _ _ _ | with_reducible intro _ _
    | with_reducible apply sound_ite_snd | with_reducible refine sound_of_snd (by assumption) ?_
    | with_reducible refine sound_of_fst (by assumption) ?_ | with_reducible refine sound_of_trd (by assumption) ?_
    | with_reducible apply sound_foldl_fst | with_reducible apply sound_foldl_snd | split

theorem State.seqRequests_sound {s : State} (hs : s.Sound) (r : Nat) (q : Nat) : (State.seqRequests s r q).Sound := by
  unfold State.seqRequests
  try dsimp only
  repeat' first
    | with_reducible assumption | with_reducible apply State.seqTakeBack_sound | with_reducible apply State.stepTimeout_sound
    | with_reducible apply State.seqAbortNow_sound | with_reducible apply State.dropReqs_sound | with_reducible apply State.rcpHold_sound
    | with_reducible apply State.seqResumeNow_sound | with_reducible apply State.runOn_sound | with_reducible apply outSound_next
    | with_reducible apply sound_ite | with_reducible apply outSound_ite | with_reducible apply sound_foldl | with_reducible intro _ _ _ _
    | with_reducible intro _ _ _ | with_reducible intro _ _ | with_reducible apply sound_ite_snd
    | with_reducible refine sound_of_snd (by assumption) ?_ | with_reducible refine sound_of_fst (by assumption) ?_
    | with_reducible refine sound_of_trd (by assumption) ?_ | with_reducible apply sound_foldl_fst | with_reducible apply sound_foldl_snd
    | split

theorem State.noteCount_sound {s : State} (hs : s.Sound) (r : Nat) (q : Nat) : (State.noteCount s r q).Sound := by
  unfold State.noteCount
  try dsimp only
  repeat' first
    | with_reducible assumption | with_reducible apply State.stepCount_sound | with_reducible apply outSound_next
    | with_reducible apply sound_ite | with_reducible apply outSound_ite | with_reducible apply sound_foldl | with_reducible intro _ _ _ _
    | with_reducible intro _ _ _

theorem State.stepChanges_sound {s : State} (hs : s.Sound) (r : Nat) (cseq : Nat) (p : RStep) : (State.stepChanges s r cseq p).Sound := by
  unfold State.stepChanges
  try dsimp only
  repeat' first
    | with_reducible assumption | with_reducible apply State.axMove_sound | with_reducible apply State.envSetChange_sound
    | with_reducible apply State.fireRecipe_sound | with_reducible apply State.recMark_sound | with_reducible apply State.setSlot_sound
    | with_reducible apply outSound_next | with_reducible apply sound_ite | with_reducible apply outSound_ite
    | with_reducible apply sound_foldl | with_reducible intro _ _ _ _ | with_reducible intro _ _ _ | with_reducible intro _ _
    | with_reducible apply sound_ite_snd | with_reducible refine sound_of_snd (by assumption) ?_
    | with_reducible refine sound_of_fst (by assumption) ?_ | with_reducible refine sound_of_trd (by assumption) ?_
    | with_reducible apply sound_foldl_fst | with_reducible apply sound_foldl_snd | split

theorem State.stepBegin_sound {s : State} (hs : s.Sound) (r : Nat) (k : Nat) (cseq : Nat) (count : Nat) (changes : Bool) : (State.stepBegin s r k cseq count changes).Sound := by
  unfold State.stepBegin
  try dsimp only
  repeat' first
    | with_reducible assumption | with_reducible apply State.setNum_sound | with_reducible apply State.repStart_sound
    | with_reducible apply State.ckptCut_sound | with_reducible apply State.setSlot_sound | with_reducible apply State.noteCount_sound
    | with_reducible apply State.setFld_sound | with_reducible apply State.stepChanges_sound | with_reducible apply State.fireRecipe_sound
    | with_reducible apply State.log_sound | with_reducible apply outSound_next | with_reducible apply sound_ite
    | with_reducible apply outSound_ite | with_reducible apply sound_foldl | with_reducible intro _ _ _ _ | with_reducible intro _ _ _
    | with_reducible intro _ _ | with_reducible apply sound_ite_snd | with_reducible refine sound_of_snd (by assumption) ?_
    | with_reducible refine sound_of_fst (by assumption) ?_ | with_reducible refine sound_of_trd (by assumption) ?_
    | with_reducible apply sound_foldl_fst | with_reducible apply sound_foldl_snd | split

theorem State.resumeCatch_sound {s : State} (hs : s.Sound) (r : Nat) (act : Nat) (x : SeqNext) : (State.resumeCatch s r act x).Sound := by
  unfold State.resumeCatch
  try dsimp only
  repeat' first
    | with_reducible assumption | with_reducible apply State.setNum_sound | with_reducible apply State.logIf_sound
    | with_reducible apply State.setSlot_sound | with_reducible apply State.setFld_sound | with_reducible apply State.stepBegin_sound
    | with_reducible apply outSound_next | with_reducible apply sound_ite

theorem State.stepCatch_sound {s : State} (hs : s.Sound) (r : Nat) (x : SeqNext) : (State.stepCatch s r x).Sound := by
  unfold State.stepCatch
  try dsimp only
  repeat' first
    | with_reducible assumption | with_reducible apply State.setSlot_sound | with_reducible apply State.rcpAborted_sound
    | with_reducible apply State.rcpHold_sound | with_reducible apply State.resumeCatch_sound | with_reducible apply State.stepBegin_sound
    | with_reducible apply State.setRcp_sound | with_reducible apply State.log_sound | with_reducible apply outSound_next
    | with_reducible apply sound_ite | with_reducible apply outSound_ite | with_reducible apply sound_foldl | with_reducible intro _ _ _ _
    | with_reducible intro _ _ _ | with_reducible intro _ _ | with_reducible apply sound_ite_snd
    | with_reducible refine sound_of_snd (by assumption) ?_ | with_reducible refine sound_of_fst (by assumption) ?_
    | with_reducible refine sound_of_trd (by assumption) ?_ | with_reducible apply sound_foldl_fst | with_reducible apply sound_foldl_snd
    | split

theorem execStepCatch_sound {s : State} (hs : s.Sound) (r : Fin 16) : OutSound (execStepCatch r s) := by
  unfold execStepCatch
  try dsimp only
  repeat' first
    | with_reducible assumption | with_reducible apply State.seqRefused_sound | with_reducible apply State.seqRequests_sound
    | with_reducible apply State.stepCatch_sound | with_reducible apply outSound_next | with_reducible apply sound_ite
    | with_reducible apply outSound_ite | with_reducible apply sound_foldl | with_reducible intro _ _ _ _ | with_reducible intro _ _ _
    | with_reducible intro _ _ | with_reducible apply sound_ite_snd | with_reducible refine sound_of_snd (by assumption) ?_
    | with_reducible refine sound_of_fst (by assumption) ?_ | with_reducible refine sound_of_trd (by assumption) ?_
    | with_reducible apply sound_foldl_fst | with_reducible apply sound_foldl_snd | split

theorem execCkptWriteDone_sound {s : State} (hs : s.Sound) (ok : Bool) : OutSound (execCkptWriteDone ok s) := by
  unfold execCkptWriteDone
  try dsimp only
  repeat' first
    | with_reducible assumption | with_reducible apply State.setSeq_sound | with_reducible apply State.setFld_sound
    | with_reducible apply State.ckptStart_sound | with_reducible apply State.log_sound | with_reducible apply State.copyMem_sound
    | with_reducible apply State.wrMem_sound | with_reducible apply State.wrList_sound | with_reducible apply State.setNum_sound
    | with_reducible apply State.dipUnused_sound | with_reducible apply outSound_next | with_reducible apply sound_ite
    | with_reducible apply outSound_ite | with_reducible apply sound_foldl | with_reducible intro _ _ _ _ | with_reducible intro _ _ _
    | with_reducible intro _ _ | with_reducible apply sound_ite_snd | with_reducible refine sound_of_snd (by assumption) ?_
    | with_reducible refine sound_of_fst (by assumption) ?_ | with_reducible refine sound_of_trd (by assumption) ?_
    | with_reducible apply sound_foldl_fst | with_reducible apply sound_foldl_snd | split

theorem execStepStroke_sound {s : State} (hs : s.Sound) (r : Fin 16) (cseq : Word) : OutSound (execStepStroke r cseq s) := by
  unfold execStepStroke
  try dsimp only
  repeat' first
    | with_reducible assumption | with_reducible apply State.setNum_sound | with_reducible apply State.setSlot_sound
    | with_reducible apply State.noteCount_sound | with_reducible apply State.seqRefused_sound
    | with_reducible apply State.seqRequests_sound | with_reducible apply outSound_next | with_reducible apply sound_ite
    | with_reducible apply outSound_ite | with_reducible apply sound_foldl | with_reducible intro _ _ _ _ | with_reducible intro _ _ _
    | with_reducible intro _ _ | with_reducible apply sound_ite_snd | with_reducible refine sound_of_snd (by assumption) ?_
    | with_reducible refine sound_of_fst (by assumption) ?_ | with_reducible refine sound_of_trd (by assumption) ?_
    | with_reducible apply sound_foldl_fst | with_reducible apply sound_foldl_snd | split

theorem State.seqStored_sound {s : State} (hs : s.Sound) (r : Nat) (x0 : Nat × Option Recipe) : (State.seqStored s r x0).Sound := by
  unfold State.seqStored
  try dsimp only
  repeat' first
    | with_reducible assumption | with_reducible apply State.seqResult_sound | with_reducible apply State.rcpShow_sound
    | with_reducible apply State.extendMeas_sound | with_reducible apply State.log_sound | with_reducible apply State.setRcp_sound
    | with_reducible apply State.clearMem_sound | with_reducible apply outSound_next | with_reducible apply sound_ite
    | with_reducible apply outSound_ite | with_reducible apply sound_foldl | with_reducible intro _ _ _ _ | with_reducible intro _ _ _
    | with_reducible intro _ _ | with_reducible apply sound_ite_snd | with_reducible refine sound_of_snd (by assumption) ?_
    | with_reducible refine sound_of_fst (by assumption) ?_ | with_reducible refine sound_of_trd (by assumption) ?_
    | with_reducible apply sound_foldl_fst | with_reducible apply sound_foldl_snd | split

theorem execCkptPeriodicCut_sound {s : State} (hs : s.Sound) (cseq : Word) : OutSound (execCkptPeriodicCut cseq s) := by
  unfold execCkptPeriodicCut
  try dsimp only
  repeat' first
    | with_reducible assumption | with_reducible apply State.ckptCut_sound | with_reducible apply State.setSeq_sound
    | with_reducible apply outSound_next | with_reducible apply sound_ite | with_reducible apply outSound_ite
    | with_reducible apply sound_foldl | with_reducible intro _ _ _ _ | with_reducible intro _ _ _ | with_reducible intro _ _
    | with_reducible apply sound_ite_snd | with_reducible refine sound_of_snd (by assumption) ?_
    | with_reducible refine sound_of_fst (by assumption) ?_ | with_reducible refine sound_of_trd (by assumption) ?_
    | with_reducible apply sound_foldl_fst | with_reducible apply sound_foldl_snd | split | dsimp only | simp only [sound_mk, sound_mk_evl]

theorem execGroupCutNotice_sound {s : State} (hs : s.Sound) (g : Fin 4) : OutSound (execGroupCutNotice g s) := by
  unfold execGroupCutNotice
  try dsimp only
  repeat' first
    | with_reducible assumption | with_reducible apply State.seqForce_sound | with_reducible apply outSound_next
    | with_reducible apply sound_ite | with_reducible apply outSound_ite | with_reducible apply sound_foldl | with_reducible intro _ _ _ _
    | with_reducible intro _ _ _

theorem State.seqStore_sound {s : State} (hs : s.Sound) (r : Nat) (src : Nat) (len : Nat) : (State.seqStore s r src len).Sound := by
  unfold State.seqStore
  try dsimp only
  repeat' first
    | with_reducible assumption | with_reducible apply State.seqResult_sound | with_reducible apply State.copyMem_sound
    | with_reducible apply State.clearMem_sound | with_reducible apply State.seqStored_sound | with_reducible apply outSound_next
    | with_reducible apply sound_ite

theorem execSeqLoadDone_sound {s : State} (hs : s.Sound) (u : Unit) : OutSound (execSeqLoadDone u s) := by
  unfold execSeqLoadDone
  try dsimp only
  repeat' first
    | with_reducible assumption | with_reducible apply State.setFld_sound | with_reducible apply State.setSeq_sound
    | with_reducible apply State.seqStore_sound | with_reducible apply outSound_next | with_reducible apply sound_ite
    | with_reducible apply outSound_ite | with_reducible apply sound_foldl | with_reducible intro _ _ _ _ | with_reducible intro _ _ _
    | with_reducible intro _ _ | with_reducible apply sound_ite_snd | with_reducible refine sound_of_snd (by assumption) ?_
    | with_reducible refine sound_of_fst (by assumption) ?_ | with_reducible refine sound_of_trd (by assumption) ?_
    | with_reducible apply sound_foldl_fst | with_reducible apply sound_foldl_snd | split

theorem execRepSnapshotDone_sound {s : State} (hs : s.Sound) (ok : Bool) : OutSound (execRepSnapshotDone ok s) := by
  unfold execRepSnapshotDone
  try dsimp only
  repeat' first
    | with_reducible assumption | with_reducible apply State.setFld_sound | with_reducible apply State.setSeq_sound
    | with_reducible apply State.log_sound | with_reducible apply State.copyMem_sound | with_reducible apply State.wrMem_sound
    | with_reducible apply State.wrList_sound | with_reducible apply outSound_next | with_reducible apply sound_ite
    | with_reducible apply outSound_ite | with_reducible apply sound_foldl | with_reducible intro _ _ _ _ | with_reducible intro _ _ _
    | with_reducible intro _ _ | with_reducible apply sound_ite_snd | with_reducible refine sound_of_snd (by assumption) ?_
    | with_reducible refine sound_of_fst (by assumption) ?_ | with_reducible refine sound_of_trd (by assumption) ?_
    | with_reducible apply sound_foldl_fst | with_reducible apply sound_foldl_snd | split

end Sys2Proof.Machine
end

