-- ==== Sys2Proof/Laws/SoundCrew.lean ====
section
/-! SUPPORT. The operations and commands of Machine/Crew.lean keep a sound state sound. -/
namespace Sys2Proof.Machine

theorem State.unlist_sound {s : State} (hs : s.Sound) (n : Nat) (x : Nat) (w : Nat) : (State.unlist s n x w).Sound := by
  unfold State.unlist
  try dsimp only
  repeat' first
    | with_reducible assumption | with_reducible apply State.setList_sound

theorem State.dropEntry_sound {s : State} (hs : s.Sound) (n : Nat) (x : Nat) (w : Nat) : (State.dropEntry s n x w).Sound := by
  unfold State.dropEntry
  try dsimp only
  repeat' first
    | with_reducible assumption | with_reducible apply State.setMotHeld_sound | with_reducible apply State.dropHeld_sound
    | with_reducible apply State.unlist_sound | with_reducible apply State.setEntry_sound | with_reducible apply outSound_next
    | with_reducible apply sound_ite

theorem State.crewRegions_sound {s : State} (hs : s.Sound) (n : Nat) (m : Option Nat) : (State.crewRegions s n m).Sound := by
  unfold State.crewRegions
  try dsimp only
  repeat' first
    | with_reducible assumption | with_reducible apply State.wr_sound | with_reducible apply outSound_next | with_reducible apply sound_ite
    | with_reducible apply outSound_ite | with_reducible apply sound_foldl | with_reducible intro _ _ _ _ | with_reducible intro _ _ _
    | with_reducible intro _ _ | with_reducible apply sound_ite_snd | with_reducible refine sound_of_snd (by assumption) ?_
    | with_reducible refine sound_of_fst (by assumption) ?_ | with_reducible refine sound_of_trd (by assumption) ?_
    | with_reducible apply sound_foldl_fst | with_reducible apply sound_foldl_snd | split

theorem State.resetCrew_sound {s : State} (hs : s.Sound) (n : Nat) : (s.resetCrew n).Sound := by
  unfold State.resetCrew
  dsimp only
  refine sound_foldl ⟨hs.1, Tab.wf_filter _ hs.2.1 _, hs.2.2⟩ ?_
  intro s x h
  exact State.setHealth_sound h _ _

theorem State.chooseSpare_sound {s : State} (hs : s.Sound) : (State.chooseSpare s).Sound := by
  unfold State.chooseSpare
  try dsimp only
  repeat' first
    | with_reducible assumption | with_reducible apply State.setFld_sound

theorem State.replAbort_sound {s : State} (hs : s.Sound) : (State.replAbort s).Sound := by
  unfold State.replAbort
  try dsimp only
  repeat' first
    | with_reducible assumption | with_reducible apply State.setIml_sound | with_reducible apply State.crewRegions_sound
    | with_reducible apply State.clearMem_sound | with_reducible apply State.resetCrew_sound | with_reducible apply State.setFld_sound
    | with_reducible apply State.chooseSpare_sound | with_reducible apply State.log_sound | with_reducible apply outSound_next
    | with_reducible apply sound_ite | with_reducible apply outSound_ite | with_reducible apply sound_foldl | with_reducible intro _ _ _ _
    | with_reducible intro _ _ _ | with_reducible intro _ _ | with_reducible apply sound_ite_snd
    | with_reducible refine sound_of_snd (by assumption) ?_ | with_reducible refine sound_of_fst (by assumption) ?_
    | with_reducible refine sound_of_trd (by assumption) ?_ | with_reducible apply sound_foldl_fst | with_reducible apply sound_foldl_snd
    | split

theorem State.replTested_sound {s : State} (hs : s.Sound) (n : Nat) : (State.replTested s n).Sound := by
  unfold State.replTested
  try dsimp only
  repeat' first
    | with_reducible assumption | with_reducible apply State.setIml_sound | with_reducible apply State.setFld_sound
    | with_reducible apply State.log_sound | with_reducible apply State.chooseSpare_sound | with_reducible apply outSound_next
    | with_reducible apply sound_ite | with_reducible apply outSound_ite | with_reducible apply sound_foldl | with_reducible intro _ _ _ _
    | with_reducible intro _ _ _ | with_reducible intro _ _ | with_reducible apply sound_ite_snd
    | with_reducible refine sound_of_snd (by assumption) ?_ | with_reducible refine sound_of_fst (by assumption) ?_
    | with_reducible refine sound_of_trd (by assumption) ?_ | with_reducible apply sound_foldl_fst | with_reducible apply sound_foldl_snd
    | split | dsimp only | simp only [sound_mk, sound_mk_evl]

theorem State.migStart_sound {s : State} (hs : s.Sound) (m : Nat) (src : Nat) (dst : Nat) : (State.migStart s m src dst).Sound := by
  unfold State.migStart
  try dsimp only
  repeat' first
    | with_reducible assumption | with_reducible apply State.replAbort_sound | with_reducible apply State.setLsm_sound
    | with_reducible apply State.setMig_sound | with_reducible apply State.setFld_sound | with_reducible apply State.chooseSpare_sound
    | with_reducible apply State.setNum_sound

theorem State.strand_sound {s : State} (hs : s.Sound) (m : Nat) (n : Nat) : (State.strand s m n).Sound := by
  unfold State.strand
  try dsimp only
  repeat' first
    | with_reducible assumption | with_reducible apply State.seqStranded_sound | with_reducible apply State.log_sound
    | with_reducible apply State.setFld_sound

theorem State.migrateAgain_sound {s : State} (hs : s.Sound) (g : Migration) : (State.migrateAgain s g).Sound := by
  unfold State.migrateAgain
  try dsimp only
  repeat' first
    | with_reducible assumption | with_reducible apply State.migStart_sound | with_reducible apply State.setNum_sound
    | with_reducible apply State.setMig_sound | with_reducible apply State.setOwed_sound | with_reducible apply State.strand_sound
    | with_reducible apply outSound_next | with_reducible apply sound_ite | with_reducible apply outSound_ite
    | with_reducible apply sound_foldl | with_reducible intro _ _ _ _ | with_reducible intro _ _ _ | with_reducible intro _ _
    | with_reducible apply sound_ite_snd | with_reducible refine sound_of_snd (by assumption) ?_
    | with_reducible refine sound_of_fst (by assumption) ?_ | with_reducible refine sound_of_trd (by assumption) ?_
    | with_reducible apply sound_foldl_fst | with_reducible apply sound_foldl_snd | split

theorem State.migrateOrStrand_sound {s : State} (hs : s.Sound) (m : Nat) (n : Nat) : (State.migrateOrStrand s m n).Sound := by
  unfold State.migrateOrStrand
  try dsimp only
  repeat' first
    | with_reducible assumption | with_reducible apply State.migStart_sound | with_reducible apply State.strand_sound
    | with_reducible apply outSound_next | with_reducible apply sound_ite | with_reducible apply outSound_ite
    | with_reducible apply sound_foldl | with_reducible intro _ _ _ _ | with_reducible intro _ _ _ | with_reducible intro _ _
    | with_reducible apply sound_ite_snd | with_reducible refine sound_of_snd (by assumption) ?_
    | with_reducible refine sound_of_fst (by assumption) ?_ | with_reducible refine sound_of_trd (by assumption) ?_
    | with_reducible apply sound_foldl_fst | with_reducible apply sound_foldl_snd | split

theorem State.crewRetire_sound {s : State} (hs : s.Sound) (n : Nat) (cause : Nat) : (State.crewRetire s n cause).Sound := by
  unfold State.crewRetire
  try dsimp only
  repeat' first
    | with_reducible assumption | with_reducible apply State.setFld_sound | with_reducible apply State.dropEntry_sound
    | with_reducible apply State.setLsm_sound | with_reducible apply State.replAbort_sound | with_reducible apply State.replTested_sound
    | with_reducible apply State.setMig_sound | with_reducible apply State.migrateAgain_sound
    | with_reducible apply State.chooseSpare_sound | with_reducible apply State.migStart_sound | with_reducible apply State.setOwed_sound
    | with_reducible apply State.strand_sound | with_reducible apply State.migrateOrStrand_sound | with_reducible apply outSound_next
    | with_reducible apply sound_ite | with_reducible apply outSound_ite | with_reducible apply sound_foldl | with_reducible intro _ _ _ _
    | with_reducible intro _ _ _ | with_reducible intro _ _ | with_reducible apply sound_ite_snd
    | with_reducible refine sound_of_snd (by assumption) ?_ | with_reducible refine sound_of_fst (by assumption) ?_
    | with_reducible refine sound_of_trd (by assumption) ?_ | with_reducible apply sound_foldl_fst | with_reducible apply sound_foldl_snd
    | split

theorem State.crewFatal_sound {s : State} (hs : s.Sound) (n : Nat) (cause : Nat) : (State.crewFatal s n cause).Sound := by
  unfold State.crewFatal
  try dsimp only
  repeat' first
    | with_reducible assumption | with_reducible apply State.crewRetire_sound | with_reducible apply State.fatal_sound
    | with_reducible apply outSound_next | with_reducible apply sound_ite

theorem execCrewReadmit_sound {s : State} (hs : s.Sound) (n : Fin 9) : OutSound (execCrewReadmit n s) := by
  unfold execCrewReadmit
  try dsimp only
  repeat' first
    | with_reducible assumption | with_reducible apply State.readmit_sound | with_reducible apply outSound_next

theorem execCrewForceRetire_sound {s : State} (hs : s.Sound) (n : Fin 9) : OutSound (execCrewForceRetire n s) := by
  unfold execCrewForceRetire
  try dsimp only
  repeat' first
    | with_reducible assumption | with_reducible apply State.crewFatal_sound | with_reducible apply State.log_sound
    | with_reducible apply outSound_next | with_reducible apply sound_ite | with_reducible apply outSound_ite

theorem execCrewMigrate_sound {s : State} (hs : s.Sound) (n : Fin 9) : OutSound (execCrewMigrate n s) := by
  unfold execCrewMigrate
  try dsimp only
  repeat' first
    | with_reducible assumption | with_reducible apply State.migStart_sound | with_reducible apply outSound_next
    | with_reducible apply sound_ite | with_reducible apply outSound_ite | with_reducible apply sound_foldl | with_reducible intro _ _ _ _
    | with_reducible intro _ _ _ | with_reducible intro _ _ | with_reducible apply sound_ite_snd
    | with_reducible refine sound_of_snd (by assumption) ?_ | with_reducible refine sound_of_fst (by assumption) ?_
    | with_reducible refine sound_of_trd (by assumption) ?_ | with_reducible apply sound_foldl_fst | with_reducible apply sound_foldl_snd
    | split

theorem execLsmClrCounts_sound {s : State} (hs : s.Sound) (n : Fin 9) : OutSound (execLsmClrCounts n s) := by
  unfold execLsmClrCounts
  try dsimp only
  repeat' first
    | with_reducible assumption | with_reducible apply State.setNum_sound | with_reducible apply outSound_next

theorem State.copyRegs_sound {s : State} (hs : s.Sound) (src : Nat) (dst : Nat) : (State.copyRegs s src dst).Sound := by
  unfold State.copyRegs
  try dsimp only
  repeat' first
    | with_reducible assumption | with_reducible apply State.resetCrew_sound | with_reducible apply State.wr_sound
    | with_reducible apply State.setHealth_sound | with_reducible apply outSound_next | with_reducible apply sound_ite
    | with_reducible apply outSound_ite | with_reducible apply sound_foldl | with_reducible intro _ _ _ _ | with_reducible intro _ _ _

theorem State.mapCrew_sound {s : State} (hs : s.Sound) (m : Nat) (n : Nat) : (State.mapCrew s m n).Sound := by
  unfold State.mapCrew
  try dsimp only
  repeat' first
    | with_reducible assumption | with_reducible apply State.setFld_sound | with_reducible apply State.setMap_sound
    | with_reducible apply State.log_sound | with_reducible apply outSound_next | with_reducible apply sound_ite

theorem State.copyStages_sound {s : State} (hs : s.Sound) (src : Nat) (dst : Nat) : (State.copyStages s src dst).Sound := by
  unfold State.copyStages
  try dsimp only
  repeat' first
    | with_reducible assumption | with_reducible apply State.setHealthRec_sound | with_reducible apply State.setHealth_sound
    | with_reducible apply outSound_next | with_reducible apply sound_ite | with_reducible apply outSound_ite
    | with_reducible apply sound_foldl | with_reducible intro _ _ _ _ | with_reducible intro _ _ _ | with_reducible intro _ _
    | with_reducible apply sound_ite_snd | with_reducible refine sound_of_snd (by assumption) ?_
    | with_reducible refine sound_of_fst (by assumption) ?_ | with_reducible refine sound_of_trd (by assumption) ?_
    | with_reducible apply sound_foldl_fst | with_reducible apply sound_foldl_snd | split | dsimp only | simp only [sound_mk, sound_mk_evl]

theorem State.copyCrew_sound {s : State} (hs : s.Sound) (src : Nat) (dst : Nat) : (State.copyCrew s src dst).Sound := by
  unfold State.copyCrew
  try dsimp only
  repeat' first
    | with_reducible assumption | with_reducible apply State.copyMem_sound | with_reducible apply State.copyRegs_sound
    | with_reducible apply State.copyStages_sound | with_reducible apply State.setDma_sound | with_reducible apply State.setLpe_sound
    | with_reducible apply State.setCox_sound | with_reducible apply State.setLsm_sound | with_reducible apply outSound_next
    | with_reducible apply sound_ite | with_reducible apply outSound_ite | with_reducible apply sound_foldl | with_reducible intro _ _ _ _
    | with_reducible intro _ _ _

theorem execMigrationCopyDone_sound {s : State} (hs : s.Sound) : OutSound (execMigrationCopyDone s) := by
  unfold execMigrationCopyDone
  try dsimp only
  repeat' first
    | with_reducible assumption | with_reducible apply State.setMig_sound | with_reducible apply State.copyCrew_sound
    | with_reducible apply outSound_next | with_reducible apply sound_ite | with_reducible apply outSound_ite
    | with_reducible apply sound_foldl | with_reducible intro _ _ _ _ | with_reducible intro _ _ _ | with_reducible intro _ _
    | with_reducible apply sound_ite_snd | with_reducible refine sound_of_snd (by assumption) ?_
    | with_reducible refine sound_of_fst (by assumption) ?_ | with_reducible refine sound_of_trd (by assumption) ?_
    | with_reducible apply sound_foldl_fst | with_reducible apply sound_foldl_snd | split

theorem State.syncCharge_sound {s : State} (hs : s.Sound) (n : Nat) : (State.syncCharge s n).Sound := by
  unfold State.syncCharge
  try dsimp only
  repeat' first
    | with_reducible assumption | with_reducible apply State.setLsm_sound | with_reducible apply State.setFld_sound
    | with_reducible apply outSound_next | with_reducible apply sound_ite | with_reducible apply outSound_ite
    | with_reducible apply sound_foldl | with_reducible intro _ _ _ _ | with_reducible intro _ _ _ | with_reducible intro _ _
    | with_reducible apply sound_ite_snd | with_reducible refine sound_of_snd (by assumption) ?_
    | with_reducible refine sound_of_fst (by assumption) ?_ | with_reducible refine sound_of_trd (by assumption) ?_
    | with_reducible apply sound_foldl_fst | with_reducible apply sound_foldl_snd | split

theorem State.lsmConfirm_sound {s : State} (hs : s.Sound) (n : Nat) (x : Nat) (w : Nat) : (State.lsmConfirm s n x w).Sound := by
  unfold State.lsmConfirm
  try dsimp only
  repeat' first
    | with_reducible assumption | with_reducible apply State.applyHeld_sound | with_reducible apply State.mirBeforeUpdate_sound
    | with_reducible apply State.cutBeforeUpdate_sound | with_reducible apply State.setMotHeld_sound
    | with_reducible apply State.axisTaskApply_sound | with_reducible apply State.syncCharge_sound
    | with_reducible apply State.setEntry_sound | with_reducible apply outSound_next | with_reducible apply sound_ite
    | with_reducible apply outSound_ite | with_reducible apply sound_foldl | with_reducible intro _ _ _ _ | with_reducible intro _ _ _
    | with_reducible intro _ _ | with_reducible apply sound_ite_snd | with_reducible refine sound_of_snd (by assumption) ?_
    | with_reducible refine sound_of_fst (by assumption) ?_ | with_reducible refine sound_of_trd (by assumption) ?_
    | with_reducible apply sound_foldl_fst | with_reducible apply sound_foldl_snd | split

theorem State.copyLate_sound {s : State} (hs : s.Sound) (src : Nat) (dst : Nat) : (State.copyLate s src dst).Sound := by
  unfold State.copyLate
  try dsimp only
  repeat' first
    | with_reducible assumption | with_reducible apply State.wr_sound | with_reducible apply State.setLpe_sound
    | with_reducible apply State.copyStages_sound | with_reducible apply State.setNum_sound | with_reducible apply outSound_next
    | with_reducible apply sound_ite | with_reducible apply outSound_ite | with_reducible apply sound_foldl | with_reducible intro _ _ _ _
    | with_reducible intro _ _ _ | with_reducible intro _ _ | with_reducible apply sound_ite_snd
    | with_reducible refine sound_of_snd (by assumption) ?_ | with_reducible refine sound_of_fst (by assumption) ?_
    | with_reducible refine sound_of_trd (by assumption) ?_ | with_reducible apply sound_foldl_fst | with_reducible apply sound_foldl_snd
    | split | dsimp only | simp only [sound_mk, sound_mk_evl]

theorem State.dropOpen_sound {s : State} (hs : s.Sound) (n : Nat) : (State.dropOpen s n).Sound := by
  unfold State.dropOpen
  try dsimp only
  repeat' first
    | with_reducible assumption | with_reducible apply State.setEntry_sound | with_reducible apply State.unlist_sound
    | with_reducible apply outSound_next | with_reducible apply sound_ite | with_reducible apply outSound_ite
    | with_reducible apply sound_foldl | with_reducible intro _ _ _ _ | with_reducible intro _ _ _

theorem State.migSwitch_sound {s : State} (hs : s.Sound) : (State.migSwitch s).Sound := by
  unfold State.migSwitch
  try dsimp only
  repeat' first
    | with_reducible assumption | with_reducible apply State.copyLate_sound | with_reducible apply State.count_sound
    | with_reducible apply State.dropOpen_sound | with_reducible apply State.setMig_sound | with_reducible apply State.setFld_sound
    | with_reducible apply State.mapCrew_sound | with_reducible apply State.crewRegions_sound | with_reducible apply State.setLsm_sound
    | with_reducible apply State.log_sound | with_reducible apply State.chooseSpare_sound | with_reducible apply outSound_next
    | with_reducible apply sound_ite | with_reducible apply outSound_ite | with_reducible apply sound_foldl | with_reducible intro _ _ _ _
    | with_reducible intro _ _ _ | with_reducible intro _ _ | with_reducible apply sound_ite_snd
    | with_reducible refine sound_of_snd (by assumption) ?_ | with_reducible refine sound_of_fst (by assumption) ?_
    | with_reducible refine sound_of_trd (by assumption) ?_ | with_reducible apply sound_foldl_fst | with_reducible apply sound_foldl_snd
    | split

theorem State.lsmStroke_sound {s : State} (hs : s.Sound) (n : Nat) : (State.lsmStroke s n).Sound := by
  unfold State.lsmStroke
  try dsimp only
  repeat' first
    | with_reducible assumption | with_reducible apply State.setNum_sound | with_reducible apply State.setLsm_sound
    | with_reducible apply outSound_next | with_reducible apply sound_ite

theorem State.crewTransient_sound {s : State} (hs : s.Sound) (n : Nat) (cause : Nat) : (State.crewTransient s n cause).Sound := by
  unfold State.crewTransient
  try dsimp only
  repeat' first
    | with_reducible assumption | with_reducible apply State.transientIn_sound | with_reducible apply State.crewRetire_sound
    | with_reducible apply outSound_next | with_reducible apply sound_ite

theorem State.lsmMismatch_sound {s : State} (hs : s.Sound) (n : Nat) (x : Nat) (w : Nat) (t : Nat) : (State.lsmMismatch s n x w t).Sound := by
  unfold State.lsmMismatch
  try dsimp only
  repeat' first
    | with_reducible assumption | with_reducible apply State.log_sound | with_reducible apply State.count_sound
    | with_reducible apply State.setFld_sound | with_reducible apply State.setNum_sound | with_reducible apply State.crewFatal_sound
    | with_reducible apply State.crewTransient_sound | with_reducible apply State.setMotHeld_sound
    | with_reducible apply State.dropHeld_sound | with_reducible apply State.coxRetry_sound | with_reducible apply State.syncCharge_sound
    | with_reducible apply State.setLsm_sound | with_reducible apply outSound_next | with_reducible apply sound_ite
    | with_reducible apply outSound_ite | with_reducible apply sound_foldl | with_reducible intro _ _ _ _ | with_reducible intro _ _ _

theorem execLsmCompare_sound {s : State} (hs : s.Sound) (n : Fin 9) (x : Fin 512) (ok : Bool) : OutSound (execLsmCompare n x ok s) := by
  unfold execLsmCompare
  try dsimp only
  repeat' first
    | with_reducible assumption | with_reducible apply State.lsmConfirm_sound | with_reducible apply State.lsmMismatch_sound
    | with_reducible apply outSound_next | with_reducible apply sound_ite | with_reducible apply outSound_ite
    | with_reducible apply sound_foldl | with_reducible intro _ _ _ _ | with_reducible intro _ _ _ | with_reducible intro _ _
    | with_reducible apply sound_ite_snd | with_reducible refine sound_of_snd (by assumption) ?_
    | with_reducible refine sound_of_fst (by assumption) ?_ | with_reducible refine sound_of_trd (by assumption) ?_
    | with_reducible apply sound_foldl_fst | with_reducible apply sound_foldl_snd | split

theorem execSlackExhausted_sound {s : State} (hs : s.Sound) (n : Fin 9) : OutSound (execSlackExhausted n s) := by
  unfold execSlackExhausted
  try dsimp only
  repeat' first
    | with_reducible assumption | with_reducible apply State.dropEntry_sound | with_reducible apply State.count_sound
    | with_reducible apply State.setLsm_sound | with_reducible apply State.log_sound | with_reducible apply State.setFld_sound
    | with_reducible apply State.syncRetrying_sound | with_reducible apply State.syncCharge_sound | with_reducible apply outSound_next
    | with_reducible apply sound_ite | with_reducible apply outSound_ite | with_reducible apply sound_foldl | with_reducible intro _ _ _ _
    | with_reducible intro _ _ _

theorem execSpareSelfTestDone_sound {s : State} (hs : s.Sound) (ok : Bool) : OutSound (execSpareSelfTestDone ok s) := by
  unfold execSpareSelfTestDone
  try dsimp only
  repeat' first
    | with_reducible assumption | with_reducible apply State.setLsm_sound | with_reducible apply State.replTested_sound
    | with_reducible apply State.crewFatal_sound | with_reducible apply outSound_next | with_reducible apply sound_ite
    | with_reducible apply outSound_ite | with_reducible apply sound_foldl | with_reducible intro _ _ _ _ | with_reducible intro _ _ _
    | with_reducible intro _ _ | with_reducible apply sound_ite_snd | with_reducible refine sound_of_snd (by assumption) ?_
    | with_reducible refine sound_of_fst (by assumption) ?_ | with_reducible refine sound_of_trd (by assumption) ?_
    | with_reducible apply sound_foldl_fst | with_reducible apply sound_foldl_snd | split

theorem execSpareSelfTest_sound {s : State} (hs : s.Sound) : OutSound (execSpareSelfTest s) := by
  unfold execSpareSelfTest
  try dsimp only
  repeat' first
    | with_reducible assumption | with_reducible apply State.setLsm_sound | with_reducible apply outSound_next
    | with_reducible apply sound_ite | with_reducible apply outSound_ite | with_reducible apply sound_foldl | with_reducible intro _ _ _ _
    | with_reducible intro _ _ _ | with_reducible intro _ _ | with_reducible apply sound_ite_snd
    | with_reducible refine sound_of_snd (by assumption) ?_ | with_reducible refine sound_of_fst (by assumption) ?_
    | with_reducible refine sound_of_trd (by assumption) ?_ | with_reducible apply sound_foldl_fst | with_reducible apply sound_foldl_snd
    | split

theorem State.crewTested_sound {s : State} (hs : s.Sound) (n : Nat) (code : Nat) : (State.crewTested s n code).Sound := by
  unfold State.crewTested
  try dsimp only
  repeat' first
    | with_reducible assumption | with_reducible apply State.testPassed_sound | with_reducible apply State.testFailed_sound
    | with_reducible apply State.setFld_sound | with_reducible apply State.setLsm_sound | with_reducible apply State.chooseSpare_sound
    | with_reducible apply outSound_next | with_reducible apply sound_ite

end Sys2Proof.Machine
end

