-- ==== Sys2Proof/Laws/SoundImlCheck.lean ====
section
/-! SUPPORT. The operations and commands of Machine/ImlCheck.lean keep a sound state sound. -/
namespace Sys2Proof.Machine

theorem State.imgWrite_sound {s : State} (hs : s.Sound) (a : Nat) (v : Word) : (State.imgWrite s a v).Sound := by
  unfold State.imgWrite
  try dsimp only
  repeat' first
    | with_reducible assumption | with_reducible apply State.wr_sound | with_reducible apply outSound_next | with_reducible apply sound_ite
    | with_reducible apply outSound_ite | with_reducible apply sound_foldl | with_reducible intro _ _ _ _ | with_reducible intro _ _ _
    | with_reducible intro _ _ | with_reducible apply sound_ite_snd | with_reducible refine sound_of_snd (by assumption) ?_
    | with_reducible refine sound_of_fst (by assumption) ?_ | with_reducible refine sound_of_trd (by assumption) ?_
    | with_reducible apply sound_foldl_fst | with_reducible apply sound_foldl_snd | split

theorem State.imgCrew_sound {s : State} (hs : s.Sound) (c : ImgContent) (m : Nat) (n : Nat) : (State.imgCrew s c m n).Sound := by
  unfold State.imgCrew
  try dsimp only
  repeat' first
    | with_reducible assumption | with_reducible apply State.wrWord_sound | with_reducible apply State.imgWrite_sound
    | with_reducible apply State.setLw_sound | with_reducible apply State.setFld_sound | with_reducible apply State.setNum_sound
    | with_reducible apply outSound_next | with_reducible apply sound_ite | with_reducible apply outSound_ite
    | with_reducible apply sound_foldl | with_reducible intro _ _ _ _ | with_reducible intro _ _ _

theorem State.trial_sound {s : State} (_hs : s.Sound) (crews : Nat) (c : ImgContent) : (s.trial crews c).Sound := by
  unfold State.trial
  dsimp only
  refine sound_foldl (sound_foldl (State.wr_sound ?_ _ _) ?_) ?_
  · exact ⟨rfl, rfl, Nat.zero_le _⟩
  · intro s x h
    exact State.imgWrite_sound h _ _
  · intro s x h
    repeat' first
      | with_reducible assumption
      | with_reducible apply State.crewRegions_sound
      | with_reducible apply State.imgCrew_sound
      | with_reducible apply State.setMap_sound

end Sys2Proof.Machine
end

