-- ==== Sys2Proof/Laws/SoundCyc.lean ====
section
/-! SUPPORT. The operations and commands of Machine/Cyc.lean keep a sound state sound. -/
namespace Sys2Proof.Machine

theorem State.setCyc_sound {s : State} (hs : s.Sound) (c : CycState) : (State.setCyc s c).Sound := by
  unfold State.setCyc
  try dsimp only
  repeat' first
    | with_reducible assumption | with_reducible apply outSound_next | with_reducible apply sound_ite | with_reducible apply outSound_ite
    | with_reducible apply sound_foldl | with_reducible intro _ _ _ _ | with_reducible intro _ _ _ | with_reducible intro _ _
    | with_reducible apply sound_ite_snd | with_reducible refine sound_of_snd (by assumption) ?_
    | with_reducible refine sound_of_fst (by assumption) ?_ | with_reducible refine sound_of_trd (by assumption) ?_
    | with_reducible apply sound_foldl_fst | with_reducible apply sound_foldl_snd | split | dsimp only | simp only [sound_mk, sound_mk_evl]

theorem State.takeForces_sound {s : State} (hs : s.Sound) : (State.takeForces s).Sound := by
  unfold State.takeForces
  try dsimp only
  repeat' first
    | with_reducible assumption | with_reducible apply State.setCyc_sound

theorem State.cycIrq_sound {s : State} (hs : s.Sound) (b : Nat) : (State.cycIrq s b).Sound := by
  unfold State.cycIrq
  try dsimp only
  repeat' first
    | with_reducible assumption | with_reducible apply State.setRbit_sound

theorem State.cycTo_sound {s : State} (hs : s.Sound) (v : Nat) (cause : Nat) : (State.cycTo s v cause).Sound := by
  unfold State.cycTo
  try dsimp only
  repeat' first
    | with_reducible assumption | with_reducible apply State.log_sound | with_reducible apply State.cycIrq_sound
    | with_reducible apply State.setFld_sound

theorem State.ocApply_sound {s : State} (hs : s.Sound) (p : Prog) (e : OcEntry) : (State.ocApply s p e).Sound := by
  unfold State.ocApply
  try dsimp only
  repeat' first
    | with_reducible assumption | with_reducible apply State.wrByte_sound | with_reducible apply State.setCyc_sound
    | with_reducible apply outSound_next | with_reducible apply sound_ite | with_reducible apply outSound_ite
    | with_reducible apply sound_foldl | with_reducible intro _ _ _ _ | with_reducible intro _ _ _

theorem State.ocReport_sound {s : State} (hs : s.Sound) (code : Nat) (n : Nat) (touched : List (Nat × Nat)) : (State.ocReport s code n touched).Sound := by
  unfold State.ocReport
  try dsimp only
  repeat' first
    | with_reducible assumption | with_reducible apply State.wrList_sound | with_reducible apply outSound_next
    | with_reducible apply sound_ite

theorem State.ocRun_sound {s : State} (hs : s.Sound) (p : Prog) (l : List OcEntry) : (State.ocRun s p l).Sound := by
  unfold State.ocRun
  try dsimp only
  repeat' first
    | with_reducible assumption | with_reducible apply State.ocApply_sound | with_reducible apply State.setCyc_sound
    | with_reducible apply State.log_sound | with_reducible apply State.cycIrq_sound | with_reducible apply State.ocReport_sound
    | with_reducible apply outSound_next | with_reducible apply sound_ite | with_reducible apply outSound_ite
    | with_reducible apply sound_foldl | with_reducible intro _ _ _ _ | with_reducible intro _ _ _

theorem State.ocFlush_sound {s : State} (hs : s.Sound) : (State.ocFlush s).Sound := by
  unfold State.ocFlush
  try dsimp only
  repeat' first
    | with_reducible assumption | with_reducible apply State.ocRun_sound | with_reducible apply outSound_next
    | with_reducible apply sound_ite | with_reducible apply outSound_ite | with_reducible apply sound_foldl | with_reducible intro _ _ _ _
    | with_reducible intro _ _ _ | with_reducible intro _ _ | with_reducible apply sound_ite_snd
    | with_reducible refine sound_of_snd (by assumption) ?_ | with_reducible refine sound_of_fst (by assumption) ?_
    | with_reducible refine sound_of_trd (by assumption) ?_ | with_reducible apply sound_foldl_fst | with_reducible apply sound_foldl_snd
    | split

theorem State.cycStopWith_sound {s : State} (hs : s.Sound) (cause : Nat) : (State.cycStopWith s cause).Sound := by
  unfold State.cycStopWith
  try dsimp only
  repeat' first
    | with_reducible assumption | with_reducible apply State.setCyc_sound | with_reducible apply State.takeForces_sound
    | with_reducible apply State.cycTo_sound | with_reducible apply State.ocFlush_sound

theorem State.cycFault_sound {s : State} (hs : s.Sound) (mcause : Nat) : (State.cycFault s mcause).Sound := by
  unfold State.cycFault
  try dsimp only
  repeat' first
    | with_reducible assumption | with_reducible apply State.cycStopWith_sound | with_reducible apply State.log_sound
    | with_reducible apply outSound_next | with_reducible apply sound_ite

theorem State.journalByte_sound {s : State} (hs : s.Sound) (a : Nat) : (State.journalByte s a).Sound := by
  unfold State.journalByte
  try dsimp only
  repeat' first
    | with_reducible assumption | with_reducible apply State.setCyc_sound | with_reducible apply outSound_next
    | with_reducible apply sound_ite | with_reducible apply outSound_ite | with_reducible apply sound_foldl | with_reducible intro _ _ _ _
    | with_reducible intro _ _ _ | with_reducible intro _ _ | with_reducible apply sound_ite_snd
    | with_reducible refine sound_of_snd (by assumption) ?_ | with_reducible refine sound_of_fst (by assumption) ?_
    | with_reducible refine sound_of_trd (by assumption) ?_ | with_reducible apply sound_foldl_fst | with_reducible apply sound_foldl_snd
    | split

theorem State.cycRes_sound {s : State} (hs : s.Sound) (cmd : Nat) (code : Nat) : (State.cycRes s cmd code).Sound := by
  unfold State.cycRes
  try dsimp only
  repeat' first
    | with_reducible assumption | with_reducible apply State.setFld_sound | with_reducible apply State.log_sound
    | with_reducible apply outSound_next | with_reducible apply sound_ite

theorem execCycLoad_sound {s : State} (hs : s.Sound) : OutSound (execCycLoad s) := by
  unfold execCycLoad
  try dsimp only
  repeat' first
    | with_reducible assumption | with_reducible apply State.cycRes_sound | with_reducible apply State.setCyc_sound
    | with_reducible apply State.setFld_sound | with_reducible apply outSound_next | with_reducible apply sound_ite
    | with_reducible apply outSound_ite

theorem State.clearForces_sound {s : State} (hs : s.Sound) : (State.clearForces s).Sound := by
  unfold State.clearForces
  try dsimp only
  repeat' first
    | with_reducible assumption | with_reducible apply State.setFld_sound | with_reducible apply State.log_sound
    | with_reducible apply State.setCyc_sound | with_reducible apply outSound_next | with_reducible apply sound_ite
    | with_reducible apply outSound_ite | with_reducible apply sound_foldl | with_reducible intro _ _ _ _ | with_reducible intro _ _ _

theorem State.takeStaged_sound {s : State} (hs : s.Sound) : (State.takeStaged s).Sound := by
  unfold State.takeStaged
  try dsimp only
  repeat' first
    | with_reducible assumption | with_reducible apply State.setCyc_sound | with_reducible apply State.setNum64_sound
    | with_reducible apply State.setFld_sound | with_reducible apply State.clearForces_sound | with_reducible apply outSound_next
    | with_reducible apply sound_ite | with_reducible apply outSound_ite | with_reducible apply sound_foldl | with_reducible intro _ _ _ _
    | with_reducible intro _ _ _ | with_reducible intro _ _ | with_reducible apply sound_ite_snd
    | with_reducible refine sound_of_snd (by assumption) ?_ | with_reducible refine sound_of_fst (by assumption) ?_
    | with_reducible refine sound_of_trd (by assumption) ?_ | with_reducible apply sound_foldl_fst | with_reducible apply sound_foldl_snd
    | split

theorem State.cycBegin_sound {s : State} (hs : s.Sound) (cold : Bool) (body : Option (Bool × List Nat)) (cause : Nat) : (State.cycBegin s cold body cause).Sound := by
  unfold State.cycBegin
  try dsimp only
  repeat' first
    | with_reducible assumption | with_reducible apply State.setCyc_sound | with_reducible apply State.setFld_sound
    | with_reducible apply State.setNum_sound | with_reducible apply State.cycTo_sound

theorem State.cycStart_sound {s : State} (hs : s.Sound) (cmd : Nat) (cold : Bool) : (State.cycStart s cmd cold).Sound := by
  unfold State.cycStart
  try dsimp only
  repeat' first
    | with_reducible assumption | with_reducible apply State.cycRes_sound | with_reducible apply State.takeStaged_sound
    | with_reducible apply State.clearForces_sound | with_reducible apply State.cycBegin_sound | with_reducible apply outSound_next
    | with_reducible apply sound_ite | with_reducible apply outSound_ite | with_reducible apply sound_foldl | with_reducible intro _ _ _ _
    | with_reducible intro _ _ _ | with_reducible intro _ _ | with_reducible apply sound_ite_snd
    | with_reducible refine sound_of_snd (by assumption) ?_ | with_reducible refine sound_of_fst (by assumption) ?_
    | with_reducible refine sound_of_trd (by assumption) ?_ | with_reducible apply sound_foldl_fst | with_reducible apply sound_foldl_snd
    | split

theorem execCycStartWarm_sound {s : State} (hs : s.Sound) : OutSound (execCycStartWarm s) := by
  unfold execCycStartWarm
  try dsimp only
  repeat' first
    | with_reducible assumption | with_reducible apply State.cycStart_sound | with_reducible apply outSound_next

theorem execCycStartCold_sound {s : State} (hs : s.Sound) : OutSound (execCycStartCold s) := by
  unfold execCycStartCold
  try dsimp only
  repeat' first
    | with_reducible assumption | with_reducible apply State.cycStart_sound | with_reducible apply outSound_next

theorem execCycStop_sound {s : State} (hs : s.Sound) : OutSound (execCycStop s) := by
  unfold execCycStop
  try dsimp only
  repeat' first
    | with_reducible assumption | with_reducible apply State.cycRes_sound | with_reducible apply State.cycStopWith_sound
    | with_reducible apply outSound_next | with_reducible apply sound_ite

theorem execCycOnlineChange_sound {s : State} (hs : s.Sound) : OutSound (execCycOnlineChange s) := by
  unfold execCycOnlineChange
  try dsimp only
  repeat' first
    | with_reducible assumption | with_reducible apply State.cycIrq_sound | with_reducible apply State.ocReport_sound
    | with_reducible apply State.cycRes_sound | with_reducible apply State.setCyc_sound | with_reducible apply State.ocFlush_sound
    | with_reducible apply outSound_next | with_reducible apply sound_ite | with_reducible apply outSound_ite
    | with_reducible apply sound_foldl | with_reducible intro _ _ _ _ | with_reducible intro _ _ _ | with_reducible intro _ _
    | with_reducible apply sound_ite_snd | with_reducible refine sound_of_snd (by assumption) ?_
    | with_reducible refine sound_of_fst (by assumption) ?_ | with_reducible refine sound_of_trd (by assumption) ?_
    | with_reducible apply sound_foldl_fst | with_reducible apply sound_foldl_snd | split

theorem execCycSwitch_sound {s : State} (hs : s.Sound) : OutSound (execCycSwitch s) := by
  unfold execCycSwitch
  try dsimp only
  repeat' first
    | with_reducible assumption | with_reducible apply State.cycRes_sound | with_reducible apply State.setCyc_sound
    | with_reducible apply outSound_next | with_reducible apply sound_ite | with_reducible apply outSound_ite
    | with_reducible apply sound_foldl | with_reducible intro _ _ _ _ | with_reducible intro _ _ _ | with_reducible intro _ _
    | with_reducible apply sound_ite_snd | with_reducible refine sound_of_snd (by assumption) ?_
    | with_reducible refine sound_of_fst (by assumption) ?_ | with_reducible refine sound_of_trd (by assumption) ?_
    | with_reducible apply sound_foldl_fst | with_reducible apply sound_foldl_snd | split

theorem State.cycFlag_sound {s : State} (hs : s.Sound) (i : Nat) (b : Bool) : (State.cycFlag s i b).Sound := by
  unfold State.cycFlag
  try dsimp only
  repeat' first
    | with_reducible assumption | with_reducible apply State.setRbit_sound

theorem State.cycSend_sound {s : State} (hs : s.Sound) (o : Nat) (v : Word) (st : BitVec 4) (q : Nat) : (State.cycSend s o v st q).Sound := by
  unfold State.cycSend
  try dsimp only
  repeat' first
    | with_reducible assumption | with_reducible apply State.setCyc_sound | with_reducible apply State.emitToks_sound

theorem State.cycOutputs_sound {s : State} (hs : s.Sound) (p : Prog) (q : Nat) : (State.cycOutputs s p q).Sound := by
  unfold State.cycOutputs
  try dsimp only
  repeat' first
    | with_reducible assumption | with_reducible apply State.cycFlag_sound | with_reducible apply State.cycSend_sound
    | with_reducible apply outSound_next | with_reducible apply sound_ite | with_reducible apply outSound_ite
    | with_reducible apply sound_foldl | with_reducible intro _ _ _ _ | with_reducible intro _ _ _ | with_reducible intro _ _
    | with_reducible apply sound_ite_snd | with_reducible refine sound_of_snd (by assumption) ?_
    | with_reducible refine sound_of_fst (by assumption) ?_ | with_reducible refine sound_of_trd (by assumption) ?_
    | with_reducible apply sound_foldl_fst | with_reducible apply sound_foldl_snd | split

theorem State.cycSwitchNow_sound {s : State} (hs : s.Sound) (p : Prog) : (State.cycSwitchNow s p).Sound := by
  unfold State.cycSwitchNow
  try dsimp only
  repeat' first
    | with_reducible assumption | with_reducible apply State.setCyc_sound | with_reducible apply State.takeStaged_sound
    | with_reducible apply outSound_next | with_reducible apply sound_ite | with_reducible apply outSound_ite
    | with_reducible apply sound_foldl | with_reducible intro _ _ _ _ | with_reducible intro _ _ _ | with_reducible intro _ _
    | with_reducible apply sound_ite_snd | with_reducible refine sound_of_snd (by assumption) ?_
    | with_reducible refine sound_of_fst (by assumption) ?_ | with_reducible refine sound_of_trd (by assumption) ?_
    | with_reducible apply sound_foldl_fst | with_reducible apply sound_foldl_snd | split

theorem execCycDone_sound {s : State} (hs : s.Sound) : OutSound (execCycDone s) := by
  unfold execCycDone
  try dsimp only
  repeat' first
    | with_reducible assumption | with_reducible apply State.takeForces_sound | with_reducible apply State.cycOutputs_sound
    | with_reducible apply State.setFld_sound | with_reducible apply State.setNum_sound | with_reducible apply State.setCyc_sound
    | with_reducible apply State.ocFlush_sound | with_reducible apply State.mirBoundary_sound
    | with_reducible apply State.cutBoundary_sound | with_reducible apply State.cycSwitchNow_sound | with_reducible apply outSound_next
    | with_reducible apply sound_ite | with_reducible apply outSound_ite | with_reducible apply sound_foldl | with_reducible intro _ _ _ _
    | with_reducible intro _ _ _ | with_reducible intro _ _ | with_reducible apply sound_ite_snd
    | with_reducible refine sound_of_snd (by assumption) ?_ | with_reducible refine sound_of_fst (by assumption) ?_
    | with_reducible refine sound_of_trd (by assumption) ?_ | with_reducible apply sound_foldl_fst | with_reducible apply sound_foldl_snd
    | split

theorem execCycForceAck_sound {s : State} (hs : s.Sound) : OutSound (execCycForceAck s) := by
  unfold execCycForceAck
  try dsimp only
  repeat' first
    | with_reducible assumption | with_reducible apply State.setFld_sound | with_reducible apply outSound_next
    | with_reducible apply sound_ite | with_reducible apply outSound_ite | with_reducible apply sound_foldl | with_reducible intro _ _ _ _
    | with_reducible intro _ _ _

theorem execCycForceWrite_sound {s : State} (hs : s.Sound) (x : Fin 1024) (w : Fin 4) (v : Word) : OutSound (execCycForceWrite x w v s) := by
  unfold execCycForceWrite
  try dsimp only
  repeat' first
    | with_reducible assumption | with_reducible apply State.wr_sound | with_reducible apply State.logIf_sound
    | with_reducible apply State.takeForces_sound | with_reducible apply outSound_next | with_reducible apply sound_ite

theorem State.cycDemote_sound {s : State} (hs : s.Sound) : (State.cycDemote s).Sound := by
  unfold State.cycDemote
  try dsimp only
  repeat' first
    | with_reducible assumption | with_reducible apply State.cycStopWith_sound | with_reducible apply outSound_next
    | with_reducible apply sound_ite

theorem State.readShadow_sound {s : State} (hs : s.Sound) (p : Prog) : (State.readShadow s p).Sound := by
  unfold State.readShadow
  try dsimp only
  repeat' first
    | with_reducible assumption | with_reducible apply State.setCyc_sound | with_reducible apply State.copyMem_sound
    | with_reducible apply State.log_sound | with_reducible apply State.setFld_sound | with_reducible apply State.wrList_sound
    | with_reducible apply outSound_next | with_reducible apply sound_ite | with_reducible apply outSound_ite
    | with_reducible apply sound_foldl | with_reducible intro _ _ _ _ | with_reducible intro _ _ _ | with_reducible intro _ _
    | with_reducible apply sound_ite_snd | with_reducible refine sound_of_snd (by assumption) ?_
    | with_reducible refine sound_of_fst (by assumption) ?_ | with_reducible refine sound_of_trd (by assumption) ?_
    | with_reducible apply sound_foldl_fst | with_reducible apply sound_foldl_snd | split

theorem State.cycReset_sound {s : State} (hs : s.Sound) (powerOn : Bool) (body : Option (List Nat)) : (State.cycReset s powerOn body).Sound := by
  unfold State.cycReset
  try dsimp only
  repeat' first
    | with_reducible assumption | with_reducible apply State.setCyc_sound | with_reducible apply State.clearForces_sound
    | with_reducible apply State.log_sound | with_reducible apply State.setNum64_sound | with_reducible apply State.readShadow_sound
    | with_reducible apply State.cycBegin_sound | with_reducible apply State.cycTo_sound | with_reducible apply outSound_next
    | with_reducible apply sound_ite | with_reducible apply outSound_ite | with_reducible apply sound_foldl | with_reducible intro _ _ _ _
    | with_reducible intro _ _ _ | with_reducible intro _ _ | with_reducible apply sound_ite_snd
    | with_reducible refine sound_of_snd (by assumption) ?_ | with_reducible refine sound_of_fst (by assumption) ?_
    | with_reducible refine sound_of_trd (by assumption) ?_ | with_reducible apply sound_foldl_fst | with_reducible apply sound_foldl_snd
    | split

theorem State.cycWindow_sound {s : State} (hs : s.Sound) (idle : Nat) : (State.cycWindow s idle).Sound := by
  unfold State.cycWindow
  try dsimp only
  repeat' first
    | with_reducible assumption | with_reducible apply State.setNum_sound | with_reducible apply State.cycIrq_sound
    | with_reducible apply State.setCyc_sound | with_reducible apply outSound_next | with_reducible apply sound_ite

theorem State.cycInput_sound {s : State} (hs : s.Sound) (p : Prog) (q : Nat) (i : Nat × Nat) : (State.cycInput s p q i).Sound := by
  unfold State.cycInput
  try dsimp only
  repeat' first
    | with_reducible assumption | with_reducible apply State.wrMem_sound | with_reducible apply State.wrWord_sound
    | with_reducible apply State.setCyc_sound | with_reducible apply State.freshWord_sound | with_reducible apply State.logIf_sound
    | with_reducible apply State.check_sound | with_reducible apply outSound_next | with_reducible apply sound_ite
    | with_reducible apply outSound_ite | with_reducible apply sound_foldl | with_reducible intro _ _ _ _ | with_reducible intro _ _ _
    | with_reducible intro _ _ | with_reducible apply sound_ite_snd | with_reducible refine sound_of_snd (by assumption) ?_
    | with_reducible refine sound_of_fst (by assumption) ?_ | with_reducible refine sound_of_trd (by assumption) ?_
    | with_reducible apply sound_foldl_fst | with_reducible apply sound_foldl_snd | split

theorem State.cycArrive_sound {s : State} (hs : s.Sound) (arr : List (Nat × Token)) : (State.cycArrive s arr).Sound := by
  unfold State.cycArrive
  try dsimp only
  repeat' first
    | with_reducible assumption | with_reducible apply State.setCyc_sound | with_reducible apply outSound_next
    | with_reducible apply sound_ite | with_reducible apply outSound_ite | with_reducible apply sound_foldl | with_reducible intro _ _ _ _
    | with_reducible intro _ _ _

theorem State.sendOwed_sound {s : State} (hs : s.Sound) (q : Nat) : (State.sendOwed s q).Sound := by
  unfold State.sendOwed
  try dsimp only
  repeat' first
    | with_reducible assumption | with_reducible apply State.emitToks_sound | with_reducible apply State.setCyc_sound

theorem State.closeCycle_sound {s : State} (hs : s.Sound) : (State.closeCycle s).Sound := by
  unfold State.closeCycle
  try dsimp only
  repeat' first
    | with_reducible assumption | with_reducible apply State.cycWindow_sound | with_reducible apply State.setCyc_sound
    | with_reducible apply outSound_next | with_reducible apply sound_ite | with_reducible apply outSound_ite
    | with_reducible apply sound_foldl | with_reducible intro _ _ _ _ | with_reducible intro _ _ _ | with_reducible intro _ _
    | with_reducible apply sound_ite_snd | with_reducible refine sound_of_snd (by assumption) ?_
    | with_reducible refine sound_of_fst (by assumption) ?_ | with_reducible refine sound_of_trd (by assumption) ?_
    | with_reducible apply sound_foldl_fst | with_reducible apply sound_foldl_snd | split

theorem State.stopAction_sound {s : State} (hs : s.Sound) (p : Prog) (q : Nat) : (State.stopAction s p q).Sound := by
  unfold State.stopAction
  try dsimp only
  repeat' first
    | with_reducible assumption | with_reducible apply State.emitToks_sound

theorem State.putRetained_sound {s : State} (hs : s.Sound) (p : Prog) (i : Nat) (x0 : List Nat) : (State.putRetained s p i x0).Sound := by
  induction x0 generalizing s i with
  | nil =>
    unfold State.putRetained
    try dsimp only
    repeat' first
      | with_reducible apply ih | with_reducible assumption | with_reducible apply State.wrByte_sound | with_reducible apply outSound_next
      | with_reducible apply sound_ite | with_reducible apply outSound_ite | with_reducible apply sound_foldl
      | with_reducible intro _ _ _ _ | with_reducible intro _ _ _ | with_reducible intro _ _ | with_reducible apply sound_ite_snd
      | with_reducible refine sound_of_snd (by assumption) ?_ | with_reducible refine sound_of_fst (by assumption) ?_
      | with_reducible refine sound_of_trd (by assumption) ?_ | with_reducible apply sound_foldl_fst | with_reducible apply sound_foldl_snd
      | split | dsimp only | simp only [sound_mk, sound_mk_evl]
  | cons hd tl ih =>
    unfold State.putRetained
    try dsimp only
    repeat' first
      | with_reducible apply ih | with_reducible assumption | with_reducible apply State.wrByte_sound | with_reducible apply outSound_next
      | with_reducible apply sound_ite | with_reducible apply outSound_ite | with_reducible apply sound_foldl
      | with_reducible intro _ _ _ _ | with_reducible intro _ _ _ | with_reducible intro _ _ | with_reducible apply sound_ite_snd
      | with_reducible refine sound_of_snd (by assumption) ?_ | with_reducible refine sound_of_fst (by assumption) ?_
      | with_reducible refine sound_of_trd (by assumption) ?_ | with_reducible apply sound_foldl_fst | with_reducible apply sound_foldl_snd
      | split | dsimp only | simp only [sound_mk, sound_mk_evl]

theorem State.playJournal_sound {s : State} (hs : s.Sound) : (State.playJournal s).Sound := by
  unfold State.playJournal
  try dsimp only
  repeat' first
    | with_reducible assumption | with_reducible apply State.wrByte_sound | with_reducible apply State.setCyc_sound
    | with_reducible apply outSound_next | with_reducible apply sound_ite | with_reducible apply outSound_ite
    | with_reducible apply sound_foldl | with_reducible intro _ _ _ _ | with_reducible intro _ _ _

theorem State.putBody_sound {s : State} (hs : s.Sound) (p : Prog) (all : Bool) (a : Nat) (x0 : List Nat) : (State.putBody s p all a x0).Sound := by
  induction x0 generalizing s a with
  | nil =>
    unfold State.putBody
    try dsimp only
    repeat' first
      | with_reducible apply ih | with_reducible assumption | with_reducible apply State.wrByte_sound | with_reducible apply outSound_next
      | with_reducible apply sound_ite | with_reducible apply outSound_ite | with_reducible apply sound_foldl
      | with_reducible intro _ _ _ _ | with_reducible intro _ _ _ | with_reducible intro _ _ | with_reducible apply sound_ite_snd
      | with_reducible refine sound_of_snd (by assumption) ?_ | with_reducible refine sound_of_fst (by assumption) ?_
      | with_reducible refine sound_of_trd (by assumption) ?_ | with_reducible apply sound_foldl_fst | with_reducible apply sound_foldl_snd
      | split | dsimp only | simp only [sound_mk, sound_mk_evl]
  | cons hd tl ih =>
    unfold State.putBody
    try dsimp only
    repeat' first
      | with_reducible apply ih | with_reducible assumption | with_reducible apply State.wrByte_sound | with_reducible apply outSound_next
      | with_reducible apply sound_ite | with_reducible apply outSound_ite | with_reducible apply sound_foldl
      | with_reducible intro _ _ _ _ | with_reducible intro _ _ _ | with_reducible intro _ _ | with_reducible apply sound_ite_snd
      | with_reducible refine sound_of_snd (by assumption) ?_ | with_reducible refine sound_of_fst (by assumption) ?_
      | with_reducible refine sound_of_trd (by assumption) ?_ | with_reducible apply sound_foldl_fst | with_reducible apply sound_foldl_snd
      | split | dsimp only | simp only [sound_mk, sound_mk_evl]

theorem State.cycInit_sound {s : State} (hs : s.Sound) (p : Prog) (cold : Bool) : (State.cycInit s p cold).Sound := by
  unfold State.cycInit
  try dsimp only
  repeat' first
    | with_reducible assumption | with_reducible apply State.wrList_sound | with_reducible apply State.putRetained_sound
    | with_reducible apply State.setCyc_sound | with_reducible apply State.playJournal_sound | with_reducible apply State.putBody_sound
    | with_reducible apply outSound_next | with_reducible apply sound_ite | with_reducible apply outSound_ite
    | with_reducible apply sound_foldl | with_reducible intro _ _ _ _ | with_reducible intro _ _ _ | with_reducible intro _ _
    | with_reducible apply sound_ite_snd | with_reducible refine sound_of_snd (by assumption) ?_
    | with_reducible refine sound_of_fst (by assumption) ?_ | with_reducible refine sound_of_trd (by assumption) ?_
    | with_reducible apply sound_foldl_fst | with_reducible apply sound_foldl_snd | split

theorem State.beginCycle_sound {s : State} (hs : s.Sound) (p : Prog) (q : Nat) : (State.beginCycle s p q).Sound := by
  unfold State.beginCycle
  try dsimp only
  repeat' first
    | with_reducible assumption | with_reducible apply State.cycInit_sound | with_reducible apply State.cycInput_sound
    | with_reducible apply State.setCyc_sound | with_reducible apply State.setFld_sound | with_reducible apply State.setNum_sound
    | with_reducible apply outSound_next | with_reducible apply sound_ite | with_reducible apply outSound_ite
    | with_reducible apply sound_foldl | with_reducible intro _ _ _ _ | with_reducible intro _ _ _ | with_reducible intro _ _
    | with_reducible apply sound_ite_snd | with_reducible refine sound_of_snd (by assumption) ?_
    | with_reducible refine sound_of_fst (by assumption) ?_ | with_reducible refine sound_of_trd (by assumption) ?_
    | with_reducible apply sound_foldl_fst | with_reducible apply sound_foldl_snd | split

theorem State.skipCycle_sound {s : State} (hs : s.Sound) (p : Prog) (q : Nat) : (State.skipCycle s p q).Sound := by
  unfold State.skipCycle
  try dsimp only
  repeat' first
    | with_reducible assumption | with_reducible apply State.cycIrq_sound | with_reducible apply State.setFld_sound
    | with_reducible apply State.count_sound | with_reducible apply State.log_sound | with_reducible apply State.setCyc_sound
    | with_reducible apply State.cycStopWith_sound | with_reducible apply outSound_next | with_reducible apply sound_ite

theorem execCycStartCatch_sound {s : State} (hs : s.Sound) (cseq : Word) (arr : List (Nat × Token)) : OutSound (execCycStartCatch cseq arr s) := by
  unfold execCycStartCatch
  try dsimp only
  repeat' first
    | with_reducible assumption | with_reducible apply State.cycArrive_sound | with_reducible apply State.sendOwed_sound
    | with_reducible apply State.closeCycle_sound | with_reducible apply State.setCyc_sound | with_reducible apply State.stopAction_sound
    | with_reducible apply State.beginCycle_sound | with_reducible apply State.cycTo_sound | with_reducible apply State.skipCycle_sound
    | with_reducible apply outSound_next | with_reducible apply sound_ite | with_reducible apply outSound_ite
    | with_reducible apply sound_foldl | with_reducible intro _ _ _ _ | with_reducible intro _ _ _ | with_reducible intro _ _
    | with_reducible apply sound_ite_snd | with_reducible refine sound_of_snd (by assumption) ?_
    | with_reducible refine sound_of_fst (by assumption) ?_ | with_reducible refine sound_of_trd (by assumption) ?_
    | with_reducible apply sound_foldl_fst | with_reducible apply sound_foldl_snd | split

theorem State.cycReplaced_sound {s : State} (hs : s.Sound) : (State.cycReplaced s).Sound := by
  unfold State.cycReplaced
  try dsimp only
  repeat' first
    | with_reducible assumption | with_reducible apply State.setFld_sound | with_reducible apply State.setCyc_sound
    | with_reducible apply State.cycStopWith_sound | with_reducible apply outSound_next | with_reducible apply sound_ite
    | with_reducible apply outSound_ite | with_reducible apply sound_foldl | with_reducible intro _ _ _ _ | with_reducible intro _ _ _
    | with_reducible intro _ _ | with_reducible apply sound_ite_snd | with_reducible refine sound_of_snd (by assumption) ?_
    | with_reducible refine sound_of_fst (by assumption) ?_ | with_reducible refine sound_of_trd (by assumption) ?_
    | with_reducible apply sound_foldl_fst | with_reducible apply sound_foldl_snd | split

theorem State.writeShadow_sound {s : State} (hs : s.Sound) : (State.writeShadow s).Sound := by
  unfold State.writeShadow
  try dsimp only
  repeat' first
    | with_reducible assumption | with_reducible apply State.copyMem_sound | with_reducible apply State.setCyc_sound

theorem State.cycTakeOver_sound {s : State} (hs : s.Sound) (body : List Nat) : (State.cycTakeOver s body).Sound := by
  unfold State.cycTakeOver
  try dsimp only
  repeat' first
    | with_reducible assumption | with_reducible apply State.cycBegin_sound | with_reducible apply outSound_next
    | with_reducible apply sound_ite | with_reducible apply outSound_ite | with_reducible apply sound_foldl | with_reducible intro _ _ _ _
    | with_reducible intro _ _ _ | with_reducible intro _ _ | with_reducible apply sound_ite_snd
    | with_reducible refine sound_of_snd (by assumption) ?_ | with_reducible refine sound_of_fst (by assumption) ?_
    | with_reducible refine sound_of_trd (by assumption) ?_ | with_reducible apply sound_foldl_fst | with_reducible apply sound_foldl_snd
    | split

theorem execCycLoadDone_sound {s : State} (hs : s.Sound) (areas : ProgAreas) (u : Unit) : OutSound (execCycLoadDone areas u s) := by
  unfold execCycLoadDone
  try dsimp only
  repeat' first
    | with_reducible assumption | with_reducible apply State.cycIrq_sound | with_reducible apply State.setFld_sound
    | with_reducible apply State.setCyc_sound | with_reducible apply State.extendMeas_sound | with_reducible apply State.cycRes_sound
    | with_reducible apply outSound_next | with_reducible apply sound_ite | with_reducible apply outSound_ite
    | with_reducible apply sound_foldl | with_reducible intro _ _ _ _ | with_reducible intro _ _ _ | with_reducible intro _ _
    | with_reducible apply sound_ite_snd | with_reducible refine sound_of_snd (by assumption) ?_
    | with_reducible refine sound_of_fst (by assumption) ?_ | with_reducible refine sound_of_trd (by assumption) ?_
    | with_reducible apply sound_foldl_fst | with_reducible apply sound_foldl_snd | split

theorem execCycProgramFault_sound {s : State} (hs : s.Sound) (mcause : Word) : OutSound (execCycProgramFault mcause s) := by
  unfold execCycProgramFault
  try dsimp only
  repeat' first
    | with_reducible assumption | with_reducible apply State.cycFault_sound | with_reducible apply outSound_next

end Sys2Proof.Machine
end

