-- ==== Sys2Proof/Laws/SoundFwl.lean ====
section
/-! SUPPORT. The operations and commands of Machine/Fwl.lean keep a sound state sound. -/
namespace Sys2Proof.Machine

theorem State.eccCorrected_sound {s : State} (hs : s.Sound) (mem : Nat) : (State.eccCorrected s mem).Sound := by
  unfold State.eccCorrected
  try dsimp only
  repeat' first
    | with_reducible assumption | with_reducible apply State.logPerSecond_sound | with_reducible apply State.count_sound

theorem State.eccUncorrectable_sound {s : State} (hs : s.Sound) (addr : Nat) : (State.eccUncorrectable s addr).Sound := by
  unfold State.eccUncorrectable
  try dsimp only
  repeat' first
    | with_reducible assumption | with_reducible apply State.setNum64_sound | with_reducible apply State.count_sound
    | with_reducible apply State.log_sound | with_reducible apply State.setFld_sound | with_reducible apply State.crewFatal_sound
    | with_reducible apply outSound_next | with_reducible apply sound_ite | with_reducible apply outSound_ite
    | with_reducible apply sound_foldl | with_reducible intro _ _ _ _ | with_reducible intro _ _ _ | with_reducible intro _ _
    | with_reducible apply sound_ite_snd | with_reducible refine sound_of_snd (by assumption) ?_
    | with_reducible refine sound_of_fst (by assumption) ?_ | with_reducible refine sound_of_trd (by assumption) ?_
    | with_reducible apply sound_foldl_fst | with_reducible apply sound_foldl_snd | split

theorem State.eccAt_sound {s : State} (hs : s.Sound) (e : Ecc) (addr : Nat) : (State.eccAt s e addr).Sound := by
  unfold State.eccAt
  try dsimp only
  repeat' first
    | with_reducible assumption | with_reducible apply State.eccCorrected_sound | with_reducible apply State.canEcc_sound
    | with_reducible apply State.eccUncorrectable_sound | with_reducible apply outSound_next | with_reducible apply sound_ite
    | with_reducible apply outSound_ite | with_reducible apply sound_foldl | with_reducible intro _ _ _ _ | with_reducible intro _ _ _
    | with_reducible intro _ _ | with_reducible apply sound_ite_snd | with_reducible refine sound_of_snd (by assumption) ?_
    | with_reducible refine sound_of_fst (by assumption) ?_ | with_reducible refine sound_of_trd (by assumption) ?_
    | with_reducible apply sound_foldl_fst | with_reducible apply sound_foldl_snd | split

theorem State.unfrozen_sound {s : State} (hs : s.Sound) (m : Nat) (detail : Nat) : (State.unfrozen s m detail).Sound := by
  unfold State.unfrozen
  try dsimp only
  repeat' first
    | with_reducible assumption | with_reducible apply State.setFwl_sound | with_reducible apply State.setRbit_sound
    | with_reducible apply State.log_sound

theorem State.releaseAll_sound {s : State} (hs : s.Sound) (l : List Nat) : (State.releaseAll s l).Sound := by
  unfold State.releaseAll
  try dsimp only
  repeat' first
    | with_reducible assumption | with_reducible apply State.unfrozen_sound | with_reducible apply outSound_next
    | with_reducible apply sound_ite | with_reducible apply outSound_ite | with_reducible apply sound_foldl | with_reducible intro _ _ _ _
    | with_reducible intro _ _ _

theorem State.rmvHalt_sound {s : State} (hs : s.Sound) (c : Nat) (cause : Nat) : (State.rmvHalt s c cause).Sound := by
  unfold State.rmvHalt
  try dsimp only
  repeat' first
    | with_reducible assumption | with_reducible apply State.setFld_sound | with_reducible apply State.logIf_sound

theorem State.unfreezeWork_sound {s : State} (hs : s.Sound) (m : Nat) (v : Viol) : (State.unfreezeWork s m v).Sound := by
  unfold State.unfreezeWork
  try dsimp only
  repeat' first
    | with_reducible assumption | with_reducible apply State.setBus_sound | with_reducible apply State.dropEntry_sound
    | with_reducible apply State.cdmHalt_sound | with_reducible apply State.rmvHalt_sound | with_reducible apply outSound_next
    | with_reducible apply sound_ite | with_reducible apply outSound_ite | with_reducible apply sound_foldl | with_reducible intro _ _ _ _
    | with_reducible intro _ _ _ | with_reducible intro _ _ | with_reducible apply sound_ite_snd
    | with_reducible refine sound_of_snd (by assumption) ?_ | with_reducible refine sound_of_fst (by assumption) ?_
    | with_reducible refine sound_of_trd (by assumption) ?_ | with_reducible apply sound_foldl_fst | with_reducible apply sound_foldl_snd
    | split

theorem State.unfreeze_sound {s : State} (hs : s.Sound) (by_ : Nat) (key : Nat) (m : Nat) : (State.unfreeze s by_ key m).Sound := by
  unfold State.unfreeze
  try dsimp only
  repeat' first
    | with_reducible assumption | with_reducible apply State.unfreezeWork_sound | with_reducible apply State.unfrozen_sound
    | with_reducible apply outSound_next | with_reducible apply sound_ite | with_reducible apply outSound_ite
    | with_reducible apply sound_foldl | with_reducible intro _ _ _ _ | with_reducible intro _ _ _ | with_reducible intro _ _
    | with_reducible apply sound_ite_snd | with_reducible refine sound_of_snd (by assumption) ?_
    | with_reducible refine sound_of_fst (by assumption) ?_ | with_reducible refine sound_of_trd (by assumption) ?_
    | with_reducible apply sound_foldl_fst | with_reducible apply sound_foldl_snd | split

theorem execFwlUnfreeze_sound {s : State} (hs : s.Sound) (src : Fin 160) (key : Byte) (m : Byte) : OutSound (execFwlUnfreeze src key m s) := by
  unfold execFwlUnfreeze
  try dsimp only
  repeat' first
    | with_reducible assumption | with_reducible apply State.unfreeze_sound | with_reducible apply outSound_next

theorem State.linkHealth_sound {s : State} (hs : s.Sound) (l : Nat) {f : State → State} (hf : ∀ s : State, s.Sound → (f s).Sound) :
    (s.linkHealth l f).Sound := by
  unfold State.linkHealth
  dsimp only
  split
  · exact hf s hs
  · exact State.setFld_sound (hf s hs) _ _

theorem execLinkReadmit_sound {s : State} (hs : s.Sound) (l : BitVec 4) : OutSound (execLinkReadmit l s) := by
  unfold execLinkReadmit
  try dsimp only
  repeat' first
    | with_reducible assumption | with_reducible apply State.linkHealth_sound | with_reducible apply State.readmit_sound
    | with_reducible apply outSound_next | with_reducible apply sound_ite | with_reducible apply outSound_ite
    | with_reducible apply sound_foldl | with_reducible intro _ _ _ _ | with_reducible intro _ _ _ | with_reducible intro _ _

theorem State.setRmv_sound {s : State} (hs : s.Sound) (c : Nat) (x : RmvChan) : (State.setRmv s c x).Sound := by
  unfold State.setRmv
  try dsimp only
  repeat' first
    | with_reducible assumption | with_reducible apply outSound_next | with_reducible apply sound_ite | with_reducible apply outSound_ite
    | with_reducible apply sound_foldl | with_reducible intro _ _ _ _ | with_reducible intro _ _ _ | with_reducible intro _ _
    | with_reducible apply sound_ite_snd | with_reducible refine sound_of_snd (by assumption) ?_
    | with_reducible refine sound_of_fst (by assumption) ?_ | with_reducible refine sound_of_trd (by assumption) ?_
    | with_reducible apply sound_foldl_fst | with_reducible apply sound_foldl_snd | split | dsimp only | simp only [sound_mk, sound_mk_evl]

theorem State.freezeWork_sound {s : State} (hs : s.Sound) (m : Nat) : (State.freezeWork s m).Sound := by
  unfold State.freezeWork
  try dsimp only
  repeat' first
    | with_reducible assumption | with_reducible apply State.setFwl_sound | with_reducible apply State.freshNat_sound
    | with_reducible apply State.cycFault_sound | with_reducible apply State.setCdmState_sound | with_reducible apply State.setFld_sound
    | with_reducible apply outSound_next | with_reducible apply sound_ite

theorem State.violate_sound {s : State} (hs : s.Sound) (m : Nat) (addr : Nat) (k : Access) (task : Option (Nat × Nat)) : (State.violate s m addr k task).Sound := by
  unfold State.violate
  try dsimp only
  repeat' first
    | with_reducible assumption | with_reducible apply State.setFwl_sound | with_reducible apply State.setNum_sound
    | with_reducible apply State.setRbit_sound | with_reducible apply State.count_sound | with_reducible apply State.log_sound
    | with_reducible apply State.setFld_sound | with_reducible apply State.freezeWork_sound | with_reducible apply outSound_next
    | with_reducible apply sound_ite

theorem execEccScrub_sound {s : State} (hs : s.Sound) (addr : Nat) (e : Ecc) : OutSound (execEccScrub addr e s) := by
  unfold execEccScrub
  try dsimp only
  repeat' first
    | with_reducible assumption | with_reducible apply State.eccAt_sound | with_reducible apply outSound_next
    | with_reducible apply sound_ite | with_reducible apply outSound_ite | with_reducible apply sound_foldl | with_reducible intro _ _ _ _
    | with_reducible intro _ _ _ | with_reducible intro _ _ | with_reducible apply sound_ite_snd
    | with_reducible refine sound_of_snd (by assumption) ?_ | with_reducible refine sound_of_fst (by assumption) ?_
    | with_reducible refine sound_of_trd (by assumption) ?_ | with_reducible apply sound_foldl_fst | with_reducible apply sound_foldl_snd
    | split | dsimp only | simp only [sound_mk, sound_mk_evl]

end Sys2Proof.Machine
end

