-- ==== Sys2Proof/Laws/SoundCdm.lean ====
section
/-! SUPPORT. The operations and commands of Machine/Cdm.lean keep a sound state sound. -/
namespace Sys2Proof.Machine

theorem execCdmReadmit_sound {s : State} (hs : s.Sound) (n : Fin 9) (ch : Fin 8) : OutSound (execCdmReadmit n ch s) := by
  unfold execCdmReadmit
  try dsimp only
  repeat' first
    | with_reducible assumption | with_reducible apply State.readmit_sound | with_reducible apply outSound_next
    | with_reducible apply sound_ite | with_reducible apply outSound_ite

theorem execCdmGo_sound {s : State} (hs : s.Sound) (n : Fin 9) (ch : Fin 8) : OutSound (execCdmGo n ch s) := by
  unfold execCdmGo
  try dsimp only
  repeat' first
    | with_reducible assumption | with_reducible apply State.cdmRefuse_sound | with_reducible apply State.cdmStart_sound
    | with_reducible apply outSound_next | with_reducible apply sound_ite | with_reducible apply outSound_ite

theorem execCdmAbort_sound {s : State} (hs : s.Sound) (n : Fin 9) (ch : Fin 8) : OutSound (execCdmAbort n ch s) := by
  unfold execCdmAbort
  try dsimp only
  repeat' first
    | with_reducible assumption | with_reducible apply State.cdmHalt_sound | with_reducible apply outSound_next
    | with_reducible apply sound_ite | with_reducible apply outSound_ite

theorem execCdmResume_sound {s : State} (hs : s.Sound) (n : Fin 9) (ch : Fin 8) : OutSound (execCdmResume n ch s) := by
  unfold execCdmResume
  try dsimp only
  repeat' first
    | with_reducible assumption | with_reducible apply State.cdmRefuse_sound | with_reducible apply State.setCdmState_sound
    | with_reducible apply State.setDma_sound | with_reducible apply outSound_next | with_reducible apply sound_ite
    | with_reducible apply outSound_ite

theorem State.rmvRefuse_sound {s : State} (hs : s.Sound) (c : Nat) (code : Nat) : (State.rmvRefuse s c code).Sound := by
  unfold State.rmvRefuse
  try dsimp only
  repeat' first
    | with_reducible assumption | with_reducible apply State.setFld_sound

theorem execRmvGo_sound {s : State} (hs : s.Sound) (c : Fin 4) : OutSound (execRmvGo c s) := by
  unfold execRmvGo
  try dsimp only
  repeat' first
    | with_reducible assumption | with_reducible apply State.rmvRefuse_sound | with_reducible apply State.setFld_sound
    | with_reducible apply State.setRmv_sound | with_reducible apply State.setNum_sound | with_reducible apply outSound_next
    | with_reducible apply sound_ite | with_reducible apply outSound_ite

theorem execRmvAbort_sound {s : State} (hs : s.Sound) (c : Fin 4) : OutSound (execRmvAbort c s) := by
  unfold execRmvAbort
  try dsimp only
  repeat' first
    | with_reducible assumption | with_reducible apply State.rmvHalt_sound | with_reducible apply outSound_next
    | with_reducible apply sound_ite | with_reducible apply outSound_ite

theorem execRmvResume_sound {s : State} (hs : s.Sound) (c : Fin 4) : OutSound (execRmvResume c s) := by
  unfold execRmvResume
  try dsimp only
  repeat' first
    | with_reducible assumption | with_reducible apply State.rmvRefuse_sound | with_reducible apply State.setFld_sound
    | with_reducible apply State.setRmv_sound | with_reducible apply outSound_next | with_reducible apply sound_ite
    | with_reducible apply outSound_ite

end Sys2Proof.Machine
end

