-- ==== Sys2Proof/Laws/SoundEth.lean ====
section
/-! SUPPORT. The operations and commands of Machine/Eth.lean keep a sound state sound. -/
namespace Sys2Proof.Machine

theorem State.ethIrq_sound {s : State} (hs : s.Sound) (n : Nat) (k : Nat) : (State.ethIrq s n k).Sound := by
  unfold State.ethIrq
  try dsimp only
  repeat' first
    | with_reducible assumption | with_reducible apply State.setRbit_sound

theorem State.syncTxts_sound {s : State} (hs : s.Sound) (n : Nat) : (State.syncTxts s n).Sound := by
  unfold State.syncTxts
  try dsimp only
  repeat' first
    | with_reducible assumption | with_reducible apply State.setNum_sound | with_reducible apply outSound_next
    | with_reducible apply sound_ite | with_reducible apply outSound_ite | with_reducible apply sound_foldl | with_reducible intro _ _ _ _
    | with_reducible intro _ _ _ | with_reducible intro _ _ | with_reducible apply sound_ite_snd
    | with_reducible refine sound_of_snd (by assumption) ?_ | with_reducible refine sound_of_fst (by assumption) ?_
    | with_reducible refine sound_of_trd (by assumption) ?_ | with_reducible apply sound_foldl_fst | with_reducible apply sound_foldl_snd
    | split

theorem State.setEth_sound {s : State} (hs : s.Sound) (n : Nat) (e : EthState) : (State.setEth s n e).Sound := by
  unfold State.setEth
  try dsimp only
  repeat' first
    | with_reducible assumption | with_reducible apply outSound_next | with_reducible apply sound_ite | with_reducible apply outSound_ite
    | with_reducible apply sound_foldl | with_reducible intro _ _ _ _ | with_reducible intro _ _ _ | with_reducible intro _ _
    | with_reducible apply sound_ite_snd | with_reducible refine sound_of_snd (by assumption) ?_
    | with_reducible refine sound_of_fst (by assumption) ?_ | with_reducible refine sound_of_trd (by assumption) ?_
    | with_reducible apply sound_foldl_fst | with_reducible apply sound_foldl_snd | split | dsimp only | simp only [sound_mk, sound_mk_evl]

theorem State.txPn_sound {s : State} (hs : s.Sound) (n : Nat) (k : Nat) : (State.txPn s n k).Sound := by
  unfold State.txPn
  try dsimp only
  repeat' first
    | with_reducible assumption | with_reducible apply State.setNum64_sound | with_reducible apply State.ethIrq_sound
    | with_reducible apply State.log_sound | with_reducible apply outSound_next | with_reducible apply sound_ite

theorem State.ethEmit_sound {s : State} (hs : s.Sound) (n : Nat) (l : List Nat) : (State.ethEmit s n l).Sound := by
  unfold State.ethEmit
  try dsimp only
  repeat' first
    | with_reducible assumption | with_reducible apply State.count_sound | with_reducible apply State.emit_sound
    | with_reducible apply State.ethIrq_sound | with_reducible apply State.syncTxts_sound | with_reducible apply State.setEth_sound
    | with_reducible apply State.txPn_sound | with_reducible apply outSound_next | with_reducible apply sound_ite
    | with_reducible apply outSound_ite | with_reducible apply sound_foldl | with_reducible intro _ _ _ _ | with_reducible intro _ _ _
    | with_reducible intro _ _ | with_reducible apply sound_ite_snd | with_reducible refine sound_of_snd (by assumption) ?_
    | with_reducible refine sound_of_fst (by assumption) ?_ | with_reducible refine sound_of_trd (by assumption) ?_
    | with_reducible apply sound_foldl_fst | with_reducible apply sound_foldl_snd | split

theorem State.drainWait_sound {s : State} (hs : s.Sound) (n : Nat) : (State.drainWait s n).Sound := by
  unfold State.drainWait
  try dsimp only
  repeat' first
    | with_reducible assumption | with_reducible apply State.ethEmit_sound | with_reducible apply State.setEth_sound
    | with_reducible apply outSound_next | with_reducible apply sound_ite | with_reducible apply outSound_ite
    | with_reducible apply sound_foldl | with_reducible intro _ _ _ _ | with_reducible intro _ _ _

theorem execQbvGateInterval_sound {s : State} (hs : s.Sound) (n : Fin 4) : OutSound (execQbvGateInterval n s) := by
  unfold execQbvGateInterval
  try dsimp only
  repeat' first
    | with_reducible assumption | with_reducible apply State.drainWait_sound | with_reducible apply outSound_next

theorem execEthFrxAck_sound {s : State} (hs : s.Sound) (n : Fin 6) (i : Fin 16) : OutSound (execEthFrxAck n i s) := by
  unfold execEthFrxAck
  try dsimp only
  repeat' first
    | with_reducible assumption | with_reducible apply State.setRbit_sound | with_reducible apply State.setEth_sound
    | with_reducible apply outSound_next | with_reducible apply sound_ite | with_reducible apply outSound_ite
    | with_reducible apply sound_foldl | with_reducible intro _ _ _ _ | with_reducible intro _ _ _ | with_reducible intro _ _
    | with_reducible apply sound_ite_snd | with_reducible refine sound_of_snd (by assumption) ?_
    | with_reducible refine sound_of_fst (by assumption) ?_ | with_reducible refine sound_of_trd (by assumption) ?_
    | with_reducible apply sound_foldl_fst | with_reducible apply sound_foldl_snd | split

theorem State.portSend_sound {s : State} (hs : s.Sound) (n : Nat) (q : Nat) (l : List Nat) (slot : Option Nat) : (State.portSend s n q l slot).Sound := by
  unfold State.portSend
  try dsimp only
  repeat' first
    | with_reducible assumption | with_reducible apply State.ethEmit_sound | with_reducible apply State.setEth_sound
    | with_reducible apply outSound_next | with_reducible apply sound_ite

theorem State.setPrp_sound {s : State} (hs : s.Sound) (p : Nat) (x : PrpState) : (State.setPrp s p x).Sound := by
  unfold State.setPrp
  try dsimp only
  repeat' first
    | with_reducible assumption | with_reducible apply outSound_next | with_reducible apply sound_ite | with_reducible apply outSound_ite
    | with_reducible apply sound_foldl | with_reducible intro _ _ _ _ | with_reducible intro _ _ _ | with_reducible intro _ _
    | with_reducible apply sound_ite_snd | with_reducible refine sound_of_snd (by assumption) ?_
    | with_reducible refine sound_of_fst (by assumption) ?_ | with_reducible refine sound_of_trd (by assumption) ?_
    | with_reducible apply sound_foldl_fst | with_reducible apply sound_foldl_snd | split | dsimp only | simp only [sound_mk, sound_mk_evl]

theorem State.pairSend_sound {s : State} (hs : s.Sound) (n : Nat) (l : List Nat) (slot : Option Nat) : (State.pairSend s n l slot).Sound := by
  unfold State.pairSend
  try dsimp only
  repeat' first
    | with_reducible assumption | with_reducible apply State.portSend_sound | with_reducible apply State.setPrp_sound
    | with_reducible apply outSound_next | with_reducible apply sound_ite

theorem execEthFtxGo_sound {s : State} (hs : s.Sound) (n : Fin 6) (mask : BitVec 8) : OutSound (execEthFtxGo n mask s) := by
  unfold execEthFtxGo
  try dsimp only
  repeat' first
    | with_reducible assumption | with_reducible apply State.count_sound | with_reducible apply State.pairSend_sound
    | with_reducible apply outSound_next | with_reducible apply sound_ite | with_reducible apply outSound_ite
    | with_reducible apply sound_foldl | with_reducible intro _ _ _ _ | with_reducible intro _ _ _

theorem State.ethHealth_sound {s : State} (hs : s.Sound) (n : Nat) {f : State → State} (hf : ∀ s : State, s.Sound → (f s).Sound) :
    (s.ethHealth n f).Sound := by
  unfold State.ethHealth
  dsimp only
  split
  · exact hf s hs
  · exact State.ethIrq_sound (hf s hs) _ _

theorem execEthReadmit_sound {s : State} (hs : s.Sound) (n : Fin 6) : OutSound (execEthReadmit n s) := by
  unfold execEthReadmit
  try dsimp only
  repeat' first
    | with_reducible assumption | with_reducible apply State.ethHealth_sound | with_reducible apply State.readmit_sound
    | with_reducible apply outSound_next | with_reducible apply sound_ite | with_reducible apply outSound_ite
    | with_reducible apply sound_foldl | with_reducible intro _ _ _ _ | with_reducible intro _ _ _ | with_reducible intro _ _

theorem execEthTxtsPop_sound {s : State} (hs : s.Sound) (n : Fin 6) : OutSound (execEthTxtsPop n s) := by
  unfold execEthTxtsPop
  try dsimp only
  repeat' first
    | with_reducible assumption | with_reducible apply State.syncTxts_sound | with_reducible apply State.setEth_sound
    | with_reducible apply outSound_next | with_reducible apply sound_ite | with_reducible apply outSound_ite
    | with_reducible apply sound_foldl | with_reducible intro _ _ _ _ | with_reducible intro _ _ _ | with_reducible intro _ _
    | with_reducible apply sound_ite_snd | with_reducible refine sound_of_snd (by assumption) ?_
    | with_reducible refine sound_of_fst (by assumption) ?_ | with_reducible refine sound_of_trd (by assumption) ?_
    | with_reducible apply sound_foldl_fst | with_reducible apply sound_foldl_snd | split | dsimp only | simp only [sound_mk, sound_mk_evl]

theorem execEthFrameTx_sound {s : State} (hs : s.Sound) (p : Fin 3) (cls : Fin 4) (addrs : List Byte) (etype : BitVec 16) (payload : List Byte) : OutSound (execEthFrameTx p cls addrs etype payload s) := by
  unfold execEthFrameTx
  try dsimp only
  repeat' first
    | with_reducible assumption | with_reducible apply State.pairSend_sound | with_reducible apply outSound_next

theorem State.frxStore_sound {s : State} (hs : s.Sound) (n : Nat) (l : List Nat) (t : Stamp) : (State.frxStore s n l t).Sound := by
  unfold State.frxStore
  try dsimp only
  repeat' first
    | with_reducible assumption | with_reducible apply State.count_sound | with_reducible apply State.setNum_sound
    | with_reducible apply State.setRbit_sound | with_reducible apply State.ethIrq_sound | with_reducible apply State.setEth_sound
    | with_reducible apply outSound_next | with_reducible apply sound_ite | with_reducible apply outSound_ite
    | with_reducible apply sound_foldl | with_reducible intro _ _ _ _ | with_reducible intro _ _ _ | with_reducible intro _ _
    | with_reducible apply sound_ite_snd | with_reducible refine sound_of_snd (by assumption) ?_
    | with_reducible refine sound_of_fst (by assumption) ?_ | with_reducible refine sound_of_trd (by assumption) ?_
    | with_reducible apply sound_foldl_fst | with_reducible apply sound_foldl_snd | split

theorem State.arpAnswer_sound {s t : State} {l m : List Nat} (hs : s.Sound) (e : s.arpAnswer l = some (m, t)) : t.Sound := by
  unfold State.arpAnswer at e
  dsimp only at e
  split at e
  · injection e with e
    injection e with _ e
    subst e
    exact State.freshNat_sound hs
  · cases e

theorem State.ethDeliver_sound {s : State} (hs : s.Sound) (n : Nat) (l : List Nat) (t : Stamp) : (State.ethDeliver s n l t).Sound := by
  unfold State.ethDeliver
  try dsimp only
  repeat' first
    | with_reducible assumption | with_reducible apply State.frxStore_sound | with_reducible apply State.pairSend_sound
    | with_reducible refine State.arpAnswer_sound ?_ (by assumption) | with_reducible apply outSound_next | with_reducible apply sound_ite
    | with_reducible apply outSound_ite | with_reducible apply sound_foldl | with_reducible intro _ _ _ _ | with_reducible intro _ _ _
    | with_reducible intro _ _ | with_reducible apply sound_ite_snd | with_reducible refine sound_of_snd (by assumption) ?_
    | with_reducible refine sound_of_fst (by assumption) ?_ | with_reducible refine sound_of_trd (by assumption) ?_
    | with_reducible apply sound_foldl_fst | with_reducible apply sound_foldl_snd | split

theorem State.dupCheck_sound {s : State} (hs : s.Sound) (n : Nat) (src : Nat) (seq : Nat) : (State.dupCheck s n src seq).2.Sound := by
  unfold State.dupCheck
  try dsimp only
  repeat' first
    | with_reducible assumption | with_reducible apply State.count_sound | with_reducible apply State.setPrp_sound
    | with_reducible apply State.logPerSecond_sound | with_reducible apply outSound_next | with_reducible apply sound_ite
    | with_reducible apply outSound_ite | with_reducible apply sound_foldl | with_reducible intro _ _ _ _ | with_reducible intro _ _ _
    | with_reducible intro _ _ | with_reducible apply sound_ite_snd

theorem State.ethTake_sound {s : State} (hs : s.Sound) (n : Nat) (l : List Nat) (t : Stamp) : (State.ethTake s n l t).Sound := by
  unfold State.ethTake
  try dsimp only
  repeat' first
    | with_reducible assumption | with_reducible apply State.ethDeliver_sound | with_reducible apply State.count_sound
    | with_reducible apply State.dupCheck_sound | with_reducible apply outSound_next | with_reducible apply sound_ite
    | with_reducible apply outSound_ite | with_reducible apply sound_foldl | with_reducible intro _ _ _ _ | with_reducible intro _ _ _
    | with_reducible intro _ _ | with_reducible apply sound_ite_snd | with_reducible refine sound_of_snd (by assumption) ?_
    | with_reducible refine sound_of_fst (by assumption) ?_ | with_reducible refine sound_of_trd (by assumption) ?_
    | with_reducible apply sound_foldl_fst | with_reducible apply sound_foldl_snd | split

theorem execPrpSupervisionSend_sound {s : State} (hs : s.Sound) (p : Fin 3) : OutSound (execPrpSupervisionSend p s) := by
  unfold execPrpSupervisionSend
  try dsimp only
  repeat' first
    | with_reducible assumption | with_reducible apply State.pairSend_sound | with_reducible apply State.setPrp_sound
    | with_reducible apply outSound_next | with_reducible apply sound_ite | with_reducible apply outSound_ite
    | with_reducible apply sound_foldl | with_reducible intro _ _ _ _ | with_reducible intro _ _ _ | with_reducible intro _ _
    | with_reducible apply sound_ite_snd | with_reducible refine sound_of_snd (by assumption) ?_
    | with_reducible refine sound_of_fst (by assumption) ?_ | with_reducible refine sound_of_trd (by assumption) ?_
    | with_reducible apply sound_foldl_fst | with_reducible apply sound_foldl_snd | split | dsimp only | simp only [sound_mk, sound_mk_evl]

theorem State.lanHeard_sound {s : State} (hs : s.Sound) (n : Nat) : (State.lanHeard s n).Sound := by
  unfold State.lanHeard
  try dsimp only
  repeat' first
    | with_reducible assumption | with_reducible apply State.setEth_sound | with_reducible apply State.ethIrq_sound
    | with_reducible apply State.log_sound | with_reducible apply State.setFld_sound | with_reducible apply outSound_next
    | with_reducible apply sound_ite

theorem State.paNote_sound {s : State} (hs : s.Sound) (n : Nat) (sa : Option (Fin 8 × Nat)) : (State.paNote s n sa).Sound := by
  unfold State.paNote
  try dsimp only
  repeat' first
    | with_reducible assumption | with_reducible apply State.setNum64_sound | with_reducible apply outSound_next
    | with_reducible apply sound_ite | with_reducible apply outSound_ite | with_reducible apply sound_foldl | with_reducible intro _ _ _ _
    | with_reducible intro _ _ _ | with_reducible intro _ _ | with_reducible apply sound_ite_snd
    | with_reducible refine sound_of_snd (by assumption) ?_ | with_reducible refine sound_of_fst (by assumption) ?_
    | with_reducible refine sound_of_trd (by assumption) ?_ | with_reducible apply sound_foldl_fst | with_reducible apply sound_foldl_snd
    | split

theorem execEthFrameRx_sound {s : State} (hs : s.Sound) (n : Fin 6) (bytes : List Byte) (fcs : Bool) (sa : Option (Fin 8 × Nat)) (t : Stamp) : OutSound (execEthFrameRx n bytes fcs sa t s) := by
  unfold execEthFrameRx
  try dsimp only
  repeat' first
    | with_reducible assumption | with_reducible apply State.count_sound | with_reducible apply State.lanHeard_sound
    | with_reducible apply State.ethTake_sound | with_reducible apply State.paNote_sound | with_reducible apply outSound_next
    | with_reducible apply sound_ite | with_reducible apply outSound_ite

theorem execEthLinkUp_sound {s : State} (hs : s.Sound) (n : Fin 6) : OutSound (execEthLinkUp n s) := by
  unfold execEthLinkUp
  try dsimp only
  repeat' first
    | with_reducible assumption | with_reducible apply State.ethIrq_sound | with_reducible apply State.setFld_sound
    | with_reducible apply outSound_next

theorem execLanDown_sound {s : State} (hs : s.Sound) (n : Fin 6) : OutSound (execLanDown n s) := by
  unfold execLanDown
  try dsimp only
  repeat' first
    | with_reducible assumption | with_reducible apply State.ethIrq_sound | with_reducible apply State.log_sound
    | with_reducible apply State.setFld_sound | with_reducible apply outSound_next | with_reducible apply sound_ite
    | with_reducible apply outSound_ite

theorem execEthLinkLoss_sound {s : State} (hs : s.Sound) (n : Fin 6) : OutSound (execEthLinkLoss n s) := by
  unfold execEthLinkLoss
  try dsimp only
  repeat' first
    | with_reducible assumption | with_reducible apply State.ethHealth_sound | with_reducible apply State.ethIrq_sound
    | with_reducible apply State.setFld_sound | with_reducible apply State.transient_sound | with_reducible apply outSound_next
    | with_reducible apply sound_ite | with_reducible apply outSound_ite | with_reducible apply sound_foldl | with_reducible intro _ _ _ _
    | with_reducible intro _ _ _ | with_reducible intro _ _

theorem execEthKrTrainingFail_sound {s : State} (hs : s.Sound) (n : Fin 6) : OutSound (execEthKrTrainingFail n s) := by
  unfold execEthKrTrainingFail
  try dsimp only
  repeat' first
    | with_reducible assumption | with_reducible apply State.ethHealth_sound | with_reducible apply State.transient_sound
    | with_reducible apply outSound_next | with_reducible apply sound_ite | with_reducible apply outSound_ite
    | with_reducible apply sound_foldl | with_reducible intro _ _ _ _ | with_reducible intro _ _ _ | with_reducible intro _ _

end Sys2Proof.Machine
end

