-- ==== Sys2Proof/Laws/SoundResume.lean ====
section
/-! SUPPORT. The operations and commands of Machine/Resume.lean keep a sound state sound. -/
namespace Sys2Proof.Machine

theorem State.restoreLoop_sound {s : State} (hs : s.Sound) (rd : Nat → Nat) (m : Nat) (l : Nat) : (State.restoreLoop s rd m l).Sound := by
  unfold State.restoreLoop
  try dsimp only
  repeat' first
    | with_reducible assumption | with_reducible apply State.setLw_sound | with_reducible apply State.setFld_sound
    | with_reducible apply State.setLoopDyn_sound | with_reducible apply outSound_next | with_reducible apply sound_ite
    | with_reducible apply outSound_ite | with_reducible apply sound_foldl | with_reducible intro _ _ _ _ | with_reducible intro _ _ _
    | with_reducible intro _ _ | with_reducible apply sound_ite_snd | with_reducible refine sound_of_snd (by assumption) ?_
    | with_reducible refine sound_of_fst (by assumption) ?_ | with_reducible refine sound_of_trd (by assumption) ?_
    | with_reducible apply sound_foldl_fst | with_reducible apply sound_foldl_snd | split

theorem State.restoreReps_sound {s : State} (hs : s.Sound) (repseq : Nat) (crews : List Nat) : (State.restoreReps s repseq crews).Sound := by
  unfold State.restoreReps
  try dsimp only
  repeat' first
    | with_reducible assumption | with_reducible apply State.clearMem_sound | with_reducible apply State.copyMem_sound
    | with_reducible apply outSound_next | with_reducible apply sound_ite | with_reducible apply outSound_ite
    | with_reducible apply sound_foldl | with_reducible intro _ _ _ _ | with_reducible intro _ _ _ | with_reducible intro _ _
    | with_reducible apply sound_ite_snd | with_reducible refine sound_of_snd (by assumption) ?_
    | with_reducible refine sound_of_fst (by assumption) ?_ | with_reducible refine sound_of_trd (by assumption) ?_
    | with_reducible apply sound_foldl_fst | with_reducible apply sound_foldl_snd | split

theorem State.restoreAxis_sound {s : State} (hs : s.Sound) (rd : Nat → Nat) (power : Bool) (a : Nat) : (State.restoreAxis s rd power a).Sound := by
  unfold State.restoreAxis
  try dsimp only
  repeat' first
    | with_reducible assumption | with_reducible apply State.setAxis_sound | with_reducible apply State.freshNat_sound
    | with_reducible apply State.axLog_sound | with_reducible apply State.setFld_sound | with_reducible apply State.setAxState_sound
    | with_reducible apply outSound_next | with_reducible apply sound_ite | with_reducible apply outSound_ite
    | with_reducible apply sound_foldl | with_reducible intro _ _ _ _ | with_reducible intro _ _ _ | with_reducible intro _ _
    | with_reducible apply sound_ite_snd | with_reducible refine sound_of_snd (by assumption) ?_
    | with_reducible refine sound_of_fst (by assumption) ?_ | with_reducible refine sound_of_trd (by assumption) ?_
    | with_reducible apply sound_foldl_fst | with_reducible apply sound_foldl_snd | split

theorem State.restoreRcp_sound {s : State} (hs : s.Sound) (rd : Nat → Nat) (cut : Stamp) (cause : Nat) (r : Nat) : (State.restoreRcp s rd cut cause r).Sound := by
  unfold State.restoreRcp
  try dsimp only
  repeat' first
    | with_reducible assumption | with_reducible apply State.setRcp_sound | with_reducible apply State.setSlot_sound
    | with_reducible apply State.setNum_sound | with_reducible apply State.setFld_sound | with_reducible apply State.log_sound
    | with_reducible apply outSound_next | with_reducible apply sound_ite | with_reducible apply outSound_ite
    | with_reducible apply sound_foldl | with_reducible intro _ _ _ _ | with_reducible intro _ _ _ | with_reducible intro _ _
    | with_reducible apply sound_ite_snd | with_reducible refine sound_of_snd (by assumption) ?_
    | with_reducible refine sound_of_fst (by assumption) ?_ | with_reducible refine sound_of_trd (by assumption) ?_
    | with_reducible apply sound_foldl_fst | with_reducible apply sound_foldl_snd | split

theorem State.startTables_sound {s : State} (hs : s.Sound) : (State.startTables s).Sound := by
  unfold State.startTables
  try dsimp only
  repeat' first
    | with_reducible assumption | with_reducible apply State.ctStart_sound | with_reducible apply outSound_next
    | with_reducible apply sound_ite | with_reducible apply outSound_ite | with_reducible apply sound_foldl | with_reducible intro _ _ _ _
    | with_reducible intro _ _ _

theorem State.resumeOwn_sound {s : State} (hs : s.Sound) (cause : Nat) (power : Bool) : (State.resumeOwn s cause power).Sound := by
  unfold State.resumeOwn
  try dsimp only
  repeat' first
    | with_reducible assumption | with_reducible apply State.log_sound | with_reducible apply State.restoreLoop_sound
    | with_reducible apply State.restoreReps_sound | with_reducible apply State.restoreAxis_sound
    | with_reducible apply State.restoreRcp_sound | with_reducible apply State.setCyc_sound | with_reducible apply State.startTables_sound
    | with_reducible apply outSound_next | with_reducible apply sound_ite | with_reducible apply outSound_ite
    | with_reducible apply sound_foldl | with_reducible intro _ _ _ _ | with_reducible intro _ _ _ | with_reducible intro _ _
    | with_reducible apply sound_ite_snd | with_reducible refine sound_of_snd (by assumption) ?_
    | with_reducible refine sound_of_fst (by assumption) ?_ | with_reducible refine sound_of_trd (by assumption) ?_
    | with_reducible apply sound_foldl_fst | with_reducible apply sound_foldl_snd | split

theorem State.ckResync_sound {s : State} (hs : s.Sound) : (State.ckResync s).Sound := by
  unfold State.ckResync
  try dsimp only
  repeat' first
    | with_reducible assumption | with_reducible apply State.setSeq_sound | with_reducible apply State.setNum_sound

theorem State.autoResume_sound {s : State} (hs : s.Sound) : (State.autoResume s).Sound := by
  unfold State.autoResume
  try dsimp only
  repeat' first
    | with_reducible assumption | with_reducible apply State.setSlot_sound | with_reducible apply outSound_next
    | with_reducible apply sound_ite | with_reducible apply outSound_ite | with_reducible apply sound_foldl | with_reducible intro _ _ _ _
    | with_reducible intro _ _ _ | with_reducible intro _ _ | with_reducible apply sound_ite_snd
    | with_reducible refine sound_of_snd (by assumption) ?_ | with_reducible refine sound_of_fst (by assumption) ?_
    | with_reducible refine sound_of_trd (by assumption) ?_ | with_reducible apply sound_foldl_fst | with_reducible apply sound_foldl_snd
    | split

theorem State.resumeMirror_sound {s : State} (hs : s.Sound) : (State.resumeMirror s).Sound := by
  unfold State.resumeMirror
  try dsimp only
  repeat' first
    | with_reducible assumption | with_reducible apply State.log_sound | with_reducible apply State.restoreLoop_sound
    | with_reducible apply State.setLoopDyn_sound | with_reducible apply State.restoreRcp_sound
    | with_reducible apply State.cycTakeOver_sound | with_reducible apply State.autoResume_sound
    | with_reducible apply State.startTables_sound | with_reducible apply outSound_next | with_reducible apply sound_ite
    | with_reducible apply outSound_ite | with_reducible apply sound_foldl | with_reducible intro _ _ _ _ | with_reducible intro _ _ _
    | with_reducible intro _ _ | with_reducible apply sound_ite_snd | with_reducible refine sound_of_snd (by assumption) ?_
    | with_reducible refine sound_of_fst (by assumption) ?_ | with_reducible refine sound_of_trd (by assumption) ?_
    | with_reducible apply sound_foldl_fst | with_reducible apply sound_foldl_snd | split

end Sys2Proof.Machine
end

