-- ==== Sys2Proof/Laws/SoundPlk.lean ====
section
/-! SUPPORT. The operations and commands of Machine/Plk.lean keep a sound state sound. -/
namespace Sys2Proof.Machine

theorem State.plkIrq_sound {s : State} (hs : s.Sound) (b : Nat) : (State.plkIrq s b).Sound := by
  unfold State.plkIrq
  try dsimp only
  repeat' first
    | with_reducible assumption | with_reducible apply State.setRbit_sound

theorem State.laneHealth_sound {s : State} (hs : s.Sound) (l : Nat) {f : State → State} (hf : ∀ s : State, s.Sound → (f s).Sound) :
    (s.laneHealth l f).Sound := by
  unfold State.laneHealth
  dsimp only
  split
  · exact hf s hs
  · exact State.plkIrq_sound (hf s hs) _

theorem execPlkLinkLoss_sound {s : State} (hs : s.Sound) (l : Fin 2) (training : Bool) : OutSound (execPlkLinkLoss l training s) := by
  unfold execPlkLinkLoss
  try dsimp only
  repeat' first
    | with_reducible assumption | with_reducible apply State.setPlk_sound | with_reducible apply State.laneHealth_sound
    | with_reducible apply State.transient_sound | with_reducible apply outSound_next | with_reducible apply sound_ite
    | with_reducible apply outSound_ite | with_reducible apply sound_foldl | with_reducible intro _ _ _ _ | with_reducible intro _ _ _
    | with_reducible intro _ _

theorem State.cmdIgnored_sound {s : State} (hs : s.Sound) : (State.cmdIgnored s).Sound := by
  unfold State.cmdIgnored
  try dsimp only
  repeat' first
    | with_reducible assumption | with_reducible apply State.setFld_sound

theorem State.setRole_sound {s : State} (hs : s.Sound) (v : Nat) : (State.setRole s v).Sound := by
  unfold State.setRole
  try dsimp only
  repeat' first
    | with_reducible assumption | with_reducible apply State.log_sound | with_reducible apply State.setPlk_sound
    | with_reducible apply State.plkIrq_sound | with_reducible apply State.setFld_sound

theorem State.stopTables_sound {s : State} (hs : s.Sound) : (State.stopTables s).Sound := by
  unfold State.stopTables
  try dsimp only
  repeat' first
    | with_reducible assumption | with_reducible apply State.ctStop_sound | with_reducible apply outSound_next
    | with_reducible apply sound_ite | with_reducible apply outSound_ite | with_reducible apply sound_foldl | with_reducible intro _ _ _ _
    | with_reducible intro _ _ _

theorem State.standDown_sound {s : State} (hs : s.Sound) : (State.standDown s).Sound := by
  unfold State.standDown
  try dsimp only
  repeat' first
    | with_reducible assumption | with_reducible apply State.seqTakeOut_sound | with_reducible apply State.setRcp_sound
    | with_reducible apply State.setSlot_sound | with_reducible apply State.stopTables_sound | with_reducible apply outSound_next
    | with_reducible apply sound_ite | with_reducible apply outSound_ite | with_reducible apply sound_foldl | with_reducible intro _ _ _ _
    | with_reducible intro _ _ _

theorem execPlkHandover_sound {s : State} (hs : s.Sound) : OutSound (execPlkHandover s) := by
  unfold execPlkHandover
  try dsimp only
  repeat' first
    | with_reducible assumption | with_reducible apply State.cmdIgnored_sound | with_reducible apply State.mirLoops_sound
    | with_reducible apply State.mirSend_sound | with_reducible apply State.mirStart_sound | with_reducible apply State.setPlk_sound
    | with_reducible apply State.log_sound | with_reducible apply State.setRole_sound | with_reducible apply State.cycDemote_sound
    | with_reducible apply State.standDown_sound | with_reducible apply outSound_next | with_reducible apply sound_ite
    | with_reducible apply outSound_ite | with_reducible apply sound_foldl | with_reducible intro _ _ _ _ | with_reducible intro _ _ _
    | with_reducible intro _ _ | with_reducible apply sound_ite_snd | with_reducible refine sound_of_snd (by assumption) ?_
    | with_reducible refine sound_of_fst (by assumption) ?_ | with_reducible refine sound_of_trd (by assumption) ?_
    | with_reducible apply sound_foldl_fst | with_reducible apply sound_foldl_snd | split

theorem State.setInSync_sound {s : State} (hs : s.Sound) (b : Bool) : (State.setInSync s b).Sound := by
  unfold State.setInSync
  try dsimp only
  repeat' first
    | with_reducible assumption | with_reducible apply State.plkIrq_sound | with_reducible apply State.setFld_sound
    | with_reducible apply outSound_next | with_reducible apply sound_ite

theorem State.takeToken_sound {s : State} (hs : s.Sound) : (State.takeToken s).Sound := by
  unfold State.takeToken
  try dsimp only
  repeat' first
    | with_reducible assumption | with_reducible apply State.setPlk_sound | with_reducible apply State.setInSync_sound
    | with_reducible apply State.count_sound | with_reducible apply State.setNum64_sound | with_reducible apply State.log_sound
    | with_reducible apply State.setRole_sound

theorem State.takeOwn_sound {s : State} (hs : s.Sound) : (State.takeOwn s).Sound := by
  unfold State.takeOwn
  try dsimp only
  repeat' first
    | with_reducible assumption | with_reducible apply State.takeToken_sound | with_reducible apply State.cycBegin_sound
    | with_reducible apply State.resumeOwn_sound | with_reducible apply outSound_next | with_reducible apply sound_ite
    | with_reducible apply outSound_ite | with_reducible apply sound_foldl | with_reducible intro _ _ _ _ | with_reducible intro _ _ _
    | with_reducible intro _ _ | with_reducible apply sound_ite_snd | with_reducible refine sound_of_snd (by assumption) ?_
    | with_reducible refine sound_of_fst (by assumption) ?_ | with_reducible refine sound_of_trd (by assumption) ?_
    | with_reducible apply sound_foldl_fst | with_reducible apply sound_foldl_snd | split

theorem execPlkForceTake_sound {s : State} (hs : s.Sound) (key : Byte) : OutSound (execPlkForceTake key s) := by
  unfold execPlkForceTake
  try dsimp only
  repeat' first
    | with_reducible assumption | with_reducible apply State.cmdIgnored_sound | with_reducible apply State.log_sound
    | with_reducible apply State.takeOwn_sound | with_reducible apply outSound_next | with_reducible apply sound_ite
    | with_reducible apply outSound_ite

theorem execPlkResync_sound {s : State} (hs : s.Sound) : OutSound (execPlkResync s) := by
  unfold execPlkResync
  try dsimp only
  repeat' first
    | with_reducible assumption | with_reducible apply State.cmdIgnored_sound | with_reducible apply State.standDown_sound
    | with_reducible apply State.setRole_sound | with_reducible apply outSound_next | with_reducible apply sound_ite
    | with_reducible apply outSound_ite

theorem execPlkReadmitLane0_sound {s : State} (hs : s.Sound) : OutSound (execPlkReadmitLane0 s) := by
  unfold execPlkReadmitLane0
  try dsimp only
  repeat' first
    | with_reducible assumption | with_reducible apply State.laneHealth_sound | with_reducible apply State.readmit_sound
    | with_reducible apply outSound_next | with_reducible apply sound_ite | with_reducible apply outSound_ite
    | with_reducible apply sound_foldl | with_reducible intro _ _ _ _ | with_reducible intro _ _ _ | with_reducible intro _ _

theorem execPlkReadmitLane1_sound {s : State} (hs : s.Sound) : OutSound (execPlkReadmitLane1 s) := by
  unfold execPlkReadmitLane1
  try dsimp only
  repeat' first
    | with_reducible assumption | with_reducible apply State.laneHealth_sound | with_reducible apply State.readmit_sound
    | with_reducible apply outSound_next | with_reducible apply sound_ite | with_reducible apply outSound_ite
    | with_reducible apply sound_foldl | with_reducible intro _ _ _ _ | with_reducible intro _ _ _ | with_reducible intro _ _

theorem State.pairListen_sound {s : State} (hs : s.Sound) : (State.pairListen s).Sound := by
  unfold State.pairListen
  try dsimp only
  repeat' first
    | with_reducible assumption | with_reducible apply State.setPlk_sound | with_reducible apply State.setRole_sound

theorem State.syncLost_sound {s : State} (hs : s.Sound) (code : Nat) : (State.syncLost s code).Sound := by
  unfold State.syncLost
  try dsimp only
  repeat' first
    | with_reducible assumption | with_reducible apply State.setPlk_sound | with_reducible apply State.log_sound
    | with_reducible apply State.setRole_sound | with_reducible apply State.setInSync_sound | with_reducible apply outSound_next
    | with_reducible apply sound_ite

theorem State.mirCommit_sound {s : State} (hs : s.Sound) (t : List Nat) (recs : List (Nat × Nat × Nat × List Nat)) : (State.mirCommit s t recs).Sound := by
  unfold State.mirCommit
  try dsimp only
  repeat' first
    | with_reducible assumption | with_reducible apply State.setNum_sound | with_reducible apply State.setPlk_sound
    | with_reducible apply State.setRbit_sound | with_reducible apply State.log_sound | with_reducible apply State.setInSync_sound
    | with_reducible apply State.setRole_sound | with_reducible apply outSound_next | with_reducible apply sound_ite
    | with_reducible apply outSound_ite | with_reducible apply sound_foldl | with_reducible intro _ _ _ _ | with_reducible intro _ _ _

theorem State.mirTrailer_sound {s : State} (hs : s.Sound) (mseq : Nat) (frag : Nat) (frags : List (Nat × List Nat)) (t : List Nat) : (State.mirTrailer s mseq frag frags t).Sound := by
  unfold State.mirTrailer
  try dsimp only
  repeat' first
    | with_reducible assumption | with_reducible apply State.syncLost_sound | with_reducible apply State.mirCommit_sound
    | with_reducible apply State.setPlk_sound | with_reducible apply outSound_next | with_reducible apply sound_ite

theorem State.demote_sound {s : State} (hs : s.Sound) (epoch : Nat) : (State.demote s epoch).Sound := by
  unfold State.demote
  try dsimp only
  repeat' first
    | with_reducible assumption | with_reducible apply State.plkIrq_sound | with_reducible apply State.setRole_sound
    | with_reducible apply State.seqTakeOut_sound | with_reducible apply State.log_sound | with_reducible apply State.cycDemote_sound
    | with_reducible apply State.stopTables_sound | with_reducible apply outSound_next | with_reducible apply sound_ite
    | with_reducible apply outSound_ite | with_reducible apply sound_foldl | with_reducible intro _ _ _ _ | with_reducible intro _ _ _

theorem State.takeOver_sound {s : State} (hs : s.Sound) : (State.takeOver s).Sound := by
  unfold State.takeOver
  try dsimp only
  repeat' first
    | with_reducible assumption | with_reducible apply State.takeToken_sound | with_reducible apply State.setPlk_sound
    | with_reducible apply State.resumeMirror_sound | with_reducible apply State.recModule_sound | with_reducible apply State.logIf_sound

theorem State.hbRole_sound {s : State} (hs : s.Sound) (l : List Nat) : (State.hbRole s l).Sound := by
  unfold State.hbRole
  try dsimp only
  repeat' first
    | with_reducible assumption | with_reducible apply State.setRole_sound | with_reducible apply State.demote_sound
    | with_reducible apply State.takeOver_sound | with_reducible apply outSound_next | with_reducible apply sound_ite
    | with_reducible apply outSound_ite | with_reducible apply sound_foldl | with_reducible intro _ _ _ _ | with_reducible intro _ _ _
    | with_reducible intro _ _ | with_reducible apply sound_ite_snd | with_reducible refine sound_of_snd (by assumption) ?_
    | with_reducible refine sound_of_fst (by assumption) ?_ | with_reducible refine sound_of_trd (by assumption) ?_
    | with_reducible apply sound_foldl_fst | with_reducible apply sound_foldl_snd | split

theorem execHeartbeatRx_sound {s : State} (hs : s.Sound) (path : Fin 4) (bytes : List Byte) : OutSound (execHeartbeatRx path bytes s) := by
  unfold execHeartbeatRx
  try dsimp only
  repeat' first
    | with_reducible assumption | with_reducible apply State.log_sound | with_reducible apply State.plkIrq_sound
    | with_reducible apply State.setFld_sound | with_reducible apply State.setNum64_sound | with_reducible apply State.setPlk_sound
    | with_reducible apply State.hbRole_sound | with_reducible apply outSound_next | with_reducible apply sound_ite
    | with_reducible apply outSound_ite

theorem execMirrorCut_sound {s : State} (hs : s.Sound) (cseq : Word) : OutSound (execMirrorCut cseq s) := by
  unfold execMirrorCut
  try dsimp only
  repeat' first
    | with_reducible assumption | with_reducible apply State.setPlk_sound | with_reducible apply State.mirStart_sound
    | with_reducible apply outSound_next | with_reducible apply sound_ite | with_reducible apply outSound_ite

theorem execHeartbeatSend_sound {s : State} (hs : s.Sound) : OutSound (execHeartbeatSend s) := by
  unfold execHeartbeatSend
  try dsimp only
  repeat' first
    | with_reducible assumption | with_reducible apply State.laneSend_sound | with_reducible apply State.pairSend_sound
    | with_reducible apply State.setPlk_sound | with_reducible apply outSound_next | with_reducible apply sound_ite
    | with_reducible apply outSound_ite

theorem execPairListenTimeout_sound {s : State} (hs : s.Sound) : OutSound (execPairListenTimeout s) := by
  unfold execPairListenTimeout
  try dsimp only
  repeat' first
    | with_reducible assumption | with_reducible apply State.takeOwn_sound | with_reducible apply outSound_next
    | with_reducible apply sound_ite | with_reducible apply outSound_ite

theorem execMirrorFrameRx_sound {s : State} (hs : s.Sound) (_l : Fin 2) (bytes : List Byte) : OutSound (execMirrorFrameRx _l bytes s) := by
  unfold execMirrorFrameRx
  try dsimp only
  repeat' first
    | with_reducible assumption | with_reducible apply State.mirCount_sound | with_reducible apply State.mirTrailer_sound
    | with_reducible apply State.syncLost_sound | with_reducible apply State.setPlk_sound | with_reducible apply outSound_next
    | with_reducible apply sound_ite | with_reducible apply outSound_ite

theorem execPlkLinkUp_sound {s : State} (hs : s.Sound) (l : Fin 2) : OutSound (execPlkLinkUp l s) := by
  unfold execPlkLinkUp
  try dsimp only
  repeat' first
    | with_reducible assumption | with_reducible apply State.setPlk_sound | with_reducible apply outSound_next
    | with_reducible apply sound_ite

theorem execLeaseExpire_sound {s : State} (hs : s.Sound) : OutSound (execLeaseExpire s) := by
  unfold execLeaseExpire
  try dsimp only
  repeat' first
    | with_reducible assumption | with_reducible apply State.takeOver_sound | with_reducible apply outSound_next
    | with_reducible apply sound_ite

theorem execPathTimeout_sound {s : State} (hs : s.Sound) (path : Fin 4) : OutSound (execPathTimeout path s) := by
  unfold execPathTimeout
  try dsimp only
  repeat' first
    | with_reducible assumption | with_reducible apply State.log_sound | with_reducible apply State.plkIrq_sound
    | with_reducible apply State.setFld_sound | with_reducible apply outSound_next | with_reducible apply sound_ite
    | with_reducible apply outSound_ite

end Sys2Proof.Machine
end

