-- ==== Sys2Proof/Laws/SoundIml.lean ====
section
/-! SUPPORT. The operations and commands of Machine/Iml.lean keep a sound state sound. -/
namespace Sys2Proof.Machine

theorem State.dropPart_sound {s : State} (hs : s.Sound) : (State.dropPart s).Sound := by
  unfold State.dropPart
  try dsimp only
  repeat' first
    | with_reducible assumption | with_reducible apply State.setFld_sound | with_reducible apply State.setIml_sound

theorem State.imlIgnore_sound {s : State} (hs : s.Sound) : (State.imlIgnore s).Sound := by
  unfold State.imlIgnore
  try dsimp only
  repeat' first
    | with_reducible assumption | with_reducible apply State.setFld_sound

theorem execImlStage_sound {s : State} (hs : s.Sound) : OutSound (execImlStage s) := by
  unfold execImlStage
  try dsimp only
  repeat' first
    | with_reducible assumption | with_reducible apply State.setFld_sound | with_reducible apply State.dropPart_sound
    | with_reducible apply State.imlIgnore_sound | with_reducible apply outSound_next | with_reducible apply sound_ite
    | with_reducible apply outSound_ite

theorem State.imlRefuse_sound {s : State} (hs : s.Sound) (code : Nat) (step : Nat) : (State.imlRefuse s code step).Sound := by
  unfold State.imlRefuse
  try dsimp only
  repeat' first
    | with_reducible assumption | with_reducible apply State.log_sound | with_reducible apply State.setFld_sound

theorem execImlReplace_sound {s : State} (hs : s.Sound) : OutSound (execImlReplace s) := by
  unfold execImlReplace
  try dsimp only
  repeat' first
    | with_reducible assumption | with_reducible apply State.imlIgnore_sound | with_reducible apply State.setLsm_sound
    | with_reducible apply State.setFld_sound | with_reducible apply State.setIml_sound | with_reducible apply State.imlRefuse_sound
    | with_reducible apply State.dropPart_sound | with_reducible apply outSound_next | with_reducible apply sound_ite
    | with_reducible apply outSound_ite | with_reducible apply sound_foldl | with_reducible intro _ _ _ _ | with_reducible intro _ _ _
    | with_reducible intro _ _ | with_reducible apply sound_ite_snd | with_reducible refine sound_of_snd (by assumption) ?_
    | with_reducible refine sound_of_fst (by assumption) ?_ | with_reducible refine sound_of_trd (by assumption) ?_
    | with_reducible apply sound_foldl_fst | with_reducible apply sound_foldl_snd | split

theorem State.syncSlots_sound {s : State} (hs : s.Sound) : (State.syncSlots s).Sound := by
  unfold State.syncSlots
  try dsimp only
  repeat' first
    | with_reducible assumption | with_reducible apply State.setFld_sound | with_reducible apply State.setNum64_sound

theorem State.setSlotIml_sound {s : State} (hs : s.Sound) (k : Nat) (x : ImgSlot) : (State.setSlotIml s k x).Sound := by
  unfold State.setSlotIml
  try dsimp only
  repeat' first
    | with_reducible assumption | with_reducible apply State.setIml_sound

theorem State.emptySlot_sound {s : State} (hs : s.Sound) (k : Nat) : (State.emptySlot s k).Sound := by
  unfold State.emptySlot
  try dsimp only
  repeat' first
    | with_reducible assumption | with_reducible apply State.syncSlots_sound | with_reducible apply State.setSlotIml_sound

theorem execImlAbort_sound {s : State} (hs : s.Sound) : OutSound (execImlAbort s) := by
  unfold execImlAbort
  try dsimp only
  repeat' first
    | with_reducible assumption | with_reducible apply State.setFld_sound | with_reducible apply State.emptySlot_sound
    | with_reducible apply State.dropPart_sound | with_reducible apply State.replAbort_sound | with_reducible apply State.imlIgnore_sound
    | with_reducible apply outSound_next | with_reducible apply sound_ite | with_reducible apply outSound_ite
    | with_reducible apply sound_foldl | with_reducible intro _ _ _ _ | with_reducible intro _ _ _ | with_reducible intro _ _
    | with_reducible apply sound_ite_snd | with_reducible refine sound_of_snd (by assumption) ?_
    | with_reducible refine sound_of_fst (by assumption) ?_ | with_reducible refine sound_of_trd (by assumption) ?_
    | with_reducible apply sound_foldl_fst | with_reducible apply sound_foldl_snd | split

theorem execImlCopyDone_sound {s : State} (hs : s.Sound) (c : ImgContent) (u : Unit) : OutSound (execImlCopyDone c u s) := by
  unfold execImlCopyDone
  try dsimp only
  repeat' first
    | with_reducible assumption | with_reducible apply State.copyMem_sound | with_reducible apply State.clearMem_sound
    | with_reducible apply State.imlRefuse_sound | with_reducible apply State.syncSlots_sound | with_reducible apply State.setSlotIml_sound
    | with_reducible apply State.log_sound | with_reducible apply State.setFld_sound | with_reducible apply outSound_next
    | with_reducible apply sound_ite | with_reducible apply outSound_ite

theorem State.replLoops_sound {s : State} (hs : s.Sound) (old : Nat) (dst : Nat) : (State.replLoops s old dst).Sound := by
  unfold State.replLoops
  try dsimp only
  repeat' first
    | with_reducible assumption | with_reducible apply State.setLw_sound | with_reducible apply State.setLoopDyn_sound
    | with_reducible apply State.copyMem_sound | with_reducible apply outSound_next | with_reducible apply sound_ite
    | with_reducible apply outSound_ite | with_reducible apply sound_foldl | with_reducible intro _ _ _ _ | with_reducible intro _ _ _
    | with_reducible intro _ _ | with_reducible apply sound_ite_snd | with_reducible refine sound_of_snd (by assumption) ?_
    | with_reducible refine sound_of_fst (by assumption) ?_ | with_reducible refine sound_of_trd (by assumption) ?_
    | with_reducible apply sound_foldl_fst | with_reducible apply sound_foldl_snd | split

theorem State.mapSpares_sound {s t : State} {l : List Nat} (hs : s.Sound) (e : s.mapSpares l = .inl t) : t.Sound := by
  induction l generalizing s with
  | nil => unfold State.mapSpares at e; injection e with e; exact e ▸ hs
  | cons m l ih =>
    unfold State.mapSpares at e
    split at e
    · cases e
    · exact ih (State.mapCrew_sound hs _ _) e

theorem State.mapLoad_sound {s t : State} {l : List Nat} (hs : s.Sound) (e : s.mapLoad l = .inl t) : t.Sound := by
  unfold State.mapLoad at e
  dsimp only at e
  refine State.mapSpares_sound ?_ e
  exact sound_foldl hs (fun s x h => State.mapCrew_sound h _ _)

theorem State.parLoad_sound {s : State} (hs : s.Sound) (par : List Nat) : (State.parLoad s par).Sound := by
  unfold State.parLoad
  try dsimp only
  repeat' first
    | with_reducible assumption | with_reducible apply State.setFld_sound | with_reducible apply State.setPvm_sound
    | with_reducible apply State.log_sound | with_reducible apply outSound_next | with_reducible apply sound_ite

theorem State.stagesBack_sound {s : State} (hs : s.Sound) (m : Nat) (n : Nat) : (State.stagesBack s m n).Sound := by
  unfold State.stagesBack
  try dsimp only
  repeat' first
    | with_reducible assumption | with_reducible apply State.setHealthRec_sound | with_reducible apply State.setHealth_sound
    | with_reducible apply outSound_next | with_reducible apply sound_ite | with_reducible apply outSound_ite
    | with_reducible apply sound_foldl | with_reducible intro _ _ _ _ | with_reducible intro _ _ _ | with_reducible intro _ _
    | with_reducible apply sound_ite_snd | with_reducible refine sound_of_snd (by assumption) ?_
    | with_reducible refine sound_of_fst (by assumption) ?_ | with_reducible refine sound_of_trd (by assumption) ?_
    | with_reducible apply sound_foldl_fst | with_reducible apply sound_foldl_snd | split | dsimp only | simp only [sound_mk, sound_mk_evl]

theorem State.applyImage_sound {s : State} (hs : s.Sound) (h : ImgHdr) (c : ImgContent) : (State.applyImage s h c).Sound := by
  unfold State.applyImage
  try dsimp only
  repeat' first
    | with_reducible assumption | with_reducible apply State.setFwl_sound | with_reducible apply State.setRce_sound
    | with_reducible apply State.setImg_sound | with_reducible apply State.imgWrite_sound | with_reducible apply State.stagesBack_sound
    | with_reducible apply State.crewRegions_sound | with_reducible apply State.imgCrew_sound | with_reducible apply State.coursesOn_sound
    | with_reducible apply State.setNum_sound | with_reducible apply State.setNum64_sound | with_reducible apply State.extendMeas_sound
    | with_reducible apply outSound_next | with_reducible apply sound_ite | with_reducible apply outSound_ite
    | with_reducible apply sound_foldl | with_reducible intro _ _ _ _ | with_reducible intro _ _ _ | with_reducible intro _ _
    | with_reducible apply sound_ite_snd | with_reducible refine sound_of_snd (by assumption) ?_
    | with_reducible refine sound_of_fst (by assumption) ?_ | with_reducible refine sound_of_trd (by assumption) ?_
    | with_reducible apply sound_foldl_fst | with_reducible apply sound_foldl_snd | split

theorem State.runImage_sound {s : State} (hs : s.Sound) (k : Nat) (h : ImgHdr) (c : ImgContent) : (State.runImage s k h c).Sound := by
  unfold State.runImage
  try dsimp only
  repeat' first
    | with_reducible assumption | with_reducible apply State.setIml_sound | with_reducible apply State.setFld_sound
    | with_reducible apply State.syncSlots_sound | with_reducible apply State.chooseSpare_sound | with_reducible apply State.log_sound
    | with_reducible apply State.parLoad_sound | with_reducible apply State.applyImage_sound | with_reducible apply State.pavStart_sound
    | with_reducible refine State.mapLoad_sound ?_ (by assumption) | with_reducible apply outSound_next | with_reducible apply sound_ite
    | with_reducible apply outSound_ite | with_reducible apply sound_foldl | with_reducible intro _ _ _ _ | with_reducible intro _ _ _
    | with_reducible intro _ _ | with_reducible apply sound_ite_snd | with_reducible refine sound_of_snd (by assumption) ?_
    | with_reducible refine sound_of_fst (by assumption) ?_ | with_reducible refine sound_of_trd (by assumption) ?_
    | with_reducible apply sound_foldl_fst | with_reducible apply sound_foldl_snd | split

theorem State.imlLoad_sound {s : State} (hs : s.Sound) : (State.imlLoad s).Sound := by
  unfold State.imlLoad
  try dsimp only
  repeat' first
    | with_reducible assumption | with_reducible apply State.runImage_sound | with_reducible apply State.setFld_sound
    | with_reducible apply State.emptySlot_sound | with_reducible apply State.log_sound | with_reducible apply State.chooseSpare_sound
    | with_reducible apply outSound_next | with_reducible apply sound_ite | with_reducible apply outSound_ite
    | with_reducible apply sound_foldl | with_reducible intro _ _ _ _ | with_reducible intro _ _ _ | with_reducible intro _ _
    | with_reducible apply sound_ite_snd | with_reducible refine sound_of_snd (by assumption) ?_
    | with_reducible refine sound_of_fst (by assumption) ?_ | with_reducible refine sound_of_trd (by assumption) ?_
    | with_reducible apply sound_foldl_fst | with_reducible apply sound_foldl_snd | split

theorem execReplaceSpareLoaded_sound {s : State} (hs : s.Sound) : OutSound (execReplaceSpareLoaded s) := by
  unfold execReplaceSpareLoaded
  try dsimp only
  repeat' first
    | with_reducible assumption | with_reducible apply State.clearMem_sound | with_reducible apply State.resetCrew_sound
    | with_reducible apply State.crewRegions_sound | with_reducible apply State.imgCrew_sound | with_reducible apply State.setIml_sound
    | with_reducible apply outSound_next | with_reducible apply sound_ite | with_reducible apply outSound_ite
    | with_reducible apply sound_foldl | with_reducible intro _ _ _ _ | with_reducible intro _ _ _ | with_reducible intro _ _
    | with_reducible apply sound_ite_snd | with_reducible refine sound_of_snd (by assumption) ?_
    | with_reducible refine sound_of_fst (by assumption) ?_ | with_reducible refine sound_of_trd (by assumption) ?_
    | with_reducible apply sound_foldl_fst | with_reducible apply sound_foldl_snd | split

theorem execImlVerifyDone_sound {s : State} (hs : s.Sound) (c : ImgContent) (u : Unit) : OutSound (execImlVerifyDone c u s) := by
  unfold execImlVerifyDone
  try dsimp only
  repeat' first
    | with_reducible assumption | with_reducible apply State.imlRefuse_sound | with_reducible apply State.setFld_sound
    | with_reducible apply State.setIml_sound | with_reducible apply State.emptySlot_sound | with_reducible apply outSound_next
    | with_reducible apply sound_ite | with_reducible apply outSound_ite

theorem execReplaceDone_sound {s : State} (hs : s.Sound) : OutSound (execReplaceDone s) := by
  unfold execReplaceDone
  try dsimp only
  repeat' first
    | with_reducible assumption | with_reducible apply State.crewRegions_sound | with_reducible apply State.clearMem_sound
    | with_reducible apply State.resetCrew_sound | with_reducible apply State.setIml_sound | with_reducible apply State.chooseSpare_sound
    | with_reducible apply State.syncSlots_sound | with_reducible apply State.setFld_sound | with_reducible apply State.setLsm_sound
    | with_reducible apply outSound_next | with_reducible apply sound_ite | with_reducible apply outSound_ite
    | with_reducible apply sound_foldl | with_reducible intro _ _ _ _ | with_reducible intro _ _ _ | with_reducible intro _ _
    | with_reducible apply sound_ite_snd | with_reducible refine sound_of_snd (by assumption) ?_
    | with_reducible refine sound_of_fst (by assumption) ?_ | with_reducible refine sound_of_trd (by assumption) ?_
    | with_reducible apply sound_foldl_fst | with_reducible apply sound_foldl_snd | split

end Sys2Proof.Machine
end

