-- ==== Sys2Proof/Laws/SoundVlt.lean ====
section
/-! SUPPORT. The operations and commands of Machine/Vlt.lean keep a sound state sound. -/
namespace Sys2Proof.Machine

theorem State.setVlt_sound {s : State} (hs : s.Sound) (v : VltState) : (State.setVlt s v).Sound := by
  unfold State.setVlt
  try dsimp only
  repeat' first
    | with_reducible assumption | with_reducible apply outSound_next | with_reducible apply sound_ite | with_reducible apply outSound_ite
    | with_reducible apply sound_foldl | with_reducible intro _ _ _ _ | with_reducible intro _ _ _ | with_reducible intro _ _
    | with_reducible apply sound_ite_snd | with_reducible refine sound_of_snd (by assumption) ?_
    | with_reducible refine sound_of_fst (by assumption) ?_ | with_reducible refine sound_of_trd (by assumption) ?_
    | with_reducible apply sound_foldl_fst | with_reducible apply sound_foldl_snd | split | dsimp only | simp only [sound_mk, sound_mk_evl]

theorem State.vltBegin_sound {s : State} (hs : s.Sound) (cmd : Nat) (refuse : Nat) (out : Nat) : (State.vltBegin s cmd refuse out).Sound := by
  unfold State.vltBegin
  try dsimp only
  repeat' first
    | with_reducible assumption | with_reducible apply State.setVlt_sound | with_reducible apply State.setFld_sound

theorem State.vltRefuse_sound {s : State} (hs : s.Sound) (cmd : Nat) (code : Nat) (tap : Bool) : (State.vltRefuse s cmd code tap).Sound := by
  unfold State.vltRefuse
  try dsimp only
  repeat' first
    | with_reducible assumption | with_reducible apply State.log_sound | with_reducible apply State.vltBegin_sound

theorem State.vltLoadKeyOf_sound {s : State} (hs : s.Sound) (x0 : Option (List Nat)) : (State.vltLoadKeyOf s x0).Sound := by
  unfold State.vltLoadKeyOf
  try dsimp only
  repeat' first
    | with_reducible assumption | with_reducible apply State.vltRefuse_sound | with_reducible apply State.setVlt_sound
    | with_reducible apply State.vltBegin_sound | with_reducible apply outSound_next | with_reducible apply sound_ite
    | with_reducible apply outSound_ite | with_reducible apply sound_foldl | with_reducible intro _ _ _ _ | with_reducible intro _ _ _
    | with_reducible intro _ _ | with_reducible apply sound_ite_snd | with_reducible refine sound_of_snd (by assumption) ?_
    | with_reducible refine sound_of_fst (by assumption) ?_ | with_reducible refine sound_of_trd (by assumption) ?_
    | with_reducible apply sound_foldl_fst | with_reducible apply sound_foldl_snd | split

theorem State.vltBusy_sound {s : State} (hs : s.Sound) (cmd : Nat) (tap : Bool) : (State.vltBusy s cmd tap).Sound := by
  unfold State.vltBusy
  try dsimp only
  repeat' first
    | with_reducible assumption | with_reducible apply State.log_sound | with_reducible apply State.setFld_sound

theorem State.vltCommand_sound {s : State} (hs : s.Sound) (cmd : Nat) (tap : Bool) {f : State → State} (hf : ∀ s : State, s.Sound → (f s).Sound) :
    (s.vltCommand cmd tap f).Sound := by
  unfold State.vltCommand
  split
  · exact State.vltBusy_sound hs _ _
  · exact hf s hs

theorem State.fwRefused_sound {s : State} (hs : s.Sound) (code : Nat) (kind : Nat) (k : Nat) : (State.fwRefused s code kind k).Sound := by
  unfold State.fwRefused
  try dsimp only
  repeat' first
    | with_reducible assumption | with_reducible apply State.log_sound

theorem State.decryptInPlace_sound {s : State} (hs : s.Sound) (addr : Nat) (l : List Nat) : (State.decryptInPlace s addr l).Sound := by
  unfold State.decryptInPlace
  try dsimp only
  repeat' first
    | with_reducible assumption | with_reducible apply State.wrList_sound | with_reducible apply outSound_next
    | with_reducible apply sound_ite | with_reducible apply outSound_ite | with_reducible apply sound_foldl | with_reducible intro _ _ _ _
    | with_reducible intro _ _ _ | with_reducible intro _ _ | with_reducible apply sound_ite_snd
    | with_reducible refine sound_of_snd (by assumption) ?_ | with_reducible refine sound_of_fst (by assumption) ?_
    | with_reducible refine sound_of_trd (by assumption) ?_ | with_reducible apply sound_foldl_fst | with_reducible apply sound_foldl_snd
    | split

theorem State.fwRuns_sound {s : State} (hs : s.Sound) (l : List Nat) : (State.fwRuns s l).Sound := by
  unfold State.fwRuns
  try dsimp only
  repeat' first
    | with_reducible assumption | with_reducible apply State.setVlt_sound

theorem State.vltVerifyOf_sound {s : State} (hs : s.Sound) (x0 : Option (List Nat)) : (State.vltVerifyOf s x0).Sound := by
  unfold State.vltVerifyOf
  try dsimp only
  repeat' first
    | with_reducible assumption | with_reducible apply State.fwRefused_sound | with_reducible apply State.vltBegin_sound
    | with_reducible apply State.decryptInPlace_sound | with_reducible apply State.fwRuns_sound
    | with_reducible apply State.extendMeas_sound | with_reducible apply State.log_sound | with_reducible apply outSound_next
    | with_reducible apply sound_ite | with_reducible apply outSound_ite | with_reducible apply sound_foldl | with_reducible intro _ _ _ _
    | with_reducible intro _ _ _ | with_reducible intro _ _ | with_reducible apply sound_ite_snd
    | with_reducible refine sound_of_snd (by assumption) ?_ | with_reducible refine sound_of_fst (by assumption) ?_
    | with_reducible refine sound_of_trd (by assumption) ?_ | with_reducible apply sound_foldl_fst | with_reducible apply sound_foldl_snd
    | split

theorem State.vltVerify_sound {s : State} (hs : s.Sound) : (State.vltVerify s).Sound := by
  unfold State.vltVerify
  try dsimp only
  repeat' first
    | with_reducible assumption | with_reducible apply State.vltVerifyOf_sound

theorem execVltVerify_sound {s : State} (hs : s.Sound) (u : Unit) : OutSound (execVltVerify u s) := by
  unfold execVltVerify
  try dsimp only
  repeat' first
    | with_reducible assumption | with_reducible apply State.vltCommand_sound | with_reducible apply State.vltVerify_sound
    | with_reducible apply outSound_next | with_reducible apply sound_ite | with_reducible apply outSound_ite
    | with_reducible apply sound_foldl | with_reducible intro _ _ _ _ | with_reducible intro _ _ _ | with_reducible intro _ _

theorem State.setFwActive_sound {s : State} (hs : s.Sound) (kind : Nat) (k : Nat) : (State.setFwActive s kind k).Sound := by
  unfold State.setFwActive
  try dsimp only
  repeat' first
    | with_reducible assumption | with_reducible apply State.setVlt_sound

theorem State.fwStore_sound {s : State} (hs : s.Sound) (l : List Nat) : (State.fwStore s l).2.Sound := by
  unfold State.fwStore
  try dsimp only
  repeat' first
    | with_reducible assumption | with_reducible apply State.wrList_sound | with_reducible apply State.clearMem_sound
    | with_reducible apply State.fwRefused_sound | with_reducible apply State.setVlt_sound | with_reducible apply State.setFwActive_sound
    | with_reducible apply State.log_sound | with_reducible apply outSound_next | with_reducible apply sound_ite
    | with_reducible apply outSound_ite | with_reducible apply sound_foldl | with_reducible intro _ _ _ _ | with_reducible intro _ _ _
    | with_reducible intro _ _ | with_reducible apply sound_ite_snd

theorem State.vltStoreOf_sound {s : State} (hs : s.Sound) (x0 : Option (List Nat)) : (State.vltStoreOf s x0).Sound := by
  unfold State.vltStoreOf
  try dsimp only
  repeat' first
    | with_reducible assumption | with_reducible apply State.fwRefused_sound | with_reducible apply State.vltBegin_sound
    | with_reducible apply State.fwStore_sound | with_reducible apply outSound_next | with_reducible apply sound_ite
    | with_reducible apply outSound_ite | with_reducible apply sound_foldl | with_reducible intro _ _ _ _ | with_reducible intro _ _ _
    | with_reducible intro _ _ | with_reducible apply sound_ite_snd | with_reducible refine sound_of_snd (by assumption) ?_
    | with_reducible refine sound_of_fst (by assumption) ?_ | with_reducible refine sound_of_trd (by assumption) ?_
    | with_reducible apply sound_foldl_fst | with_reducible apply sound_foldl_snd | split

theorem State.vltStore_sound {s : State} (hs : s.Sound) : (State.vltStore s).Sound := by
  unfold State.vltStore
  try dsimp only
  repeat' first
    | with_reducible assumption | with_reducible apply State.vltStoreOf_sound

theorem execVltStore_sound {s : State} (hs : s.Sound) (u : Unit) : OutSound (execVltStore u s) := by
  unfold execVltStore
  try dsimp only
  repeat' first
    | with_reducible assumption | with_reducible apply State.vltCommand_sound | with_reducible apply State.vltStore_sound
    | with_reducible apply outSound_next | with_reducible apply sound_ite | with_reducible apply outSound_ite
    | with_reducible apply sound_foldl | with_reducible intro _ _ _ _ | with_reducible intro _ _ _ | with_reducible intro _ _

theorem State.setOwnerSlot_sound {s : State} (hs : s.Sound) (k : Nat) (v : Nat) : (State.setOwnerSlot s k v).Sound := by
  unfold State.setOwnerSlot
  try dsimp only
  repeat' first
    | with_reducible assumption | with_reducible apply State.setFld_sound

theorem State.extendOwner_sound {s : State} (hs : s.Sound) (l : List Nat) : (State.extendOwner s l).Sound := by
  unfold State.extendOwner
  try dsimp only
  repeat' first
    | with_reducible assumption | with_reducible apply State.extendMeas_sound

theorem State.vltEnrol_sound {s : State} (hs : s.Sound) : (State.vltEnrol s).Sound := by
  unfold State.vltEnrol
  try dsimp only
  repeat' first
    | with_reducible assumption | with_reducible apply State.vltRefuse_sound | with_reducible apply State.setVlt_sound
    | with_reducible apply State.setOwnerSlot_sound | with_reducible apply State.log_sound | with_reducible apply State.vltBegin_sound
    | with_reducible apply State.extendOwner_sound | with_reducible apply outSound_next | with_reducible apply sound_ite
    | with_reducible apply outSound_ite | with_reducible apply sound_foldl | with_reducible intro _ _ _ _ | with_reducible intro _ _ _
    | with_reducible intro _ _ | with_reducible apply sound_ite_snd | with_reducible refine sound_of_snd (by assumption) ?_
    | with_reducible refine sound_of_fst (by assumption) ?_ | with_reducible refine sound_of_trd (by assumption) ?_
    | with_reducible apply sound_foldl_fst | with_reducible apply sound_foldl_snd | split

theorem execVltEnrol_sound {s : State} (hs : s.Sound) (u : Unit) : OutSound (execVltEnrol u s) := by
  unfold execVltEnrol
  try dsimp only
  repeat' first
    | with_reducible assumption | with_reducible apply State.vltCommand_sound | with_reducible apply State.vltEnrol_sound
    | with_reducible apply outSound_next | with_reducible apply sound_ite | with_reducible apply outSound_ite
    | with_reducible apply sound_foldl | with_reducible intro _ _ _ _ | with_reducible intro _ _ _ | with_reducible intro _ _

theorem State.vltRevoke_sound {s : State} (hs : s.Sound) : (State.vltRevoke s).Sound := by
  unfold State.vltRevoke
  try dsimp only
  repeat' first
    | with_reducible assumption | with_reducible apply State.vltRefuse_sound | with_reducible apply State.log_sound
    | with_reducible apply State.vltBegin_sound | with_reducible apply State.extendOwner_sound
    | with_reducible apply State.setOwnerSlot_sound | with_reducible apply outSound_next | with_reducible apply sound_ite
    | with_reducible apply outSound_ite | with_reducible apply sound_foldl | with_reducible intro _ _ _ _ | with_reducible intro _ _ _
    | with_reducible intro _ _ | with_reducible apply sound_ite_snd | with_reducible refine sound_of_snd (by assumption) ?_
    | with_reducible refine sound_of_fst (by assumption) ?_ | with_reducible refine sound_of_trd (by assumption) ?_
    | with_reducible apply sound_foldl_fst | with_reducible apply sound_foldl_snd | split

theorem execVltRevoke_sound {s : State} (hs : s.Sound) (u : Unit) : OutSound (execVltRevoke u s) := by
  unfold execVltRevoke
  try dsimp only
  repeat' first
    | with_reducible assumption | with_reducible apply State.vltCommand_sound | with_reducible apply State.vltRevoke_sound
    | with_reducible apply outSound_next | with_reducible apply sound_ite | with_reducible apply outSound_ite
    | with_reducible apply sound_foldl | with_reducible intro _ _ _ _ | with_reducible intro _ _ _ | with_reducible intro _ _

theorem State.vltImport_sound {s : State} (hs : s.Sound) : (State.vltImport s).Sound := by
  unfold State.vltImport
  try dsimp only
  repeat' first
    | with_reducible assumption | with_reducible apply State.vltRefuse_sound | with_reducible apply State.takeFresh_sound
    | with_reducible apply State.log_sound | with_reducible apply State.vltBegin_sound | with_reducible apply State.extendOwner_sound
    | with_reducible apply State.wrList_sound | with_reducible apply State.setVlt_sound | with_reducible apply outSound_next
    | with_reducible apply sound_ite

theorem execVltImport_sound {s : State} (hs : s.Sound) (u : Unit) : OutSound (execVltImport u s) := by
  unfold execVltImport
  try dsimp only
  repeat' first
    | with_reducible assumption | with_reducible apply State.vltCommand_sound | with_reducible apply State.vltImport_sound
    | with_reducible apply outSound_next | with_reducible apply sound_ite | with_reducible apply outSound_ite
    | with_reducible apply sound_foldl | with_reducible intro _ _ _ _ | with_reducible intro _ _ _ | with_reducible intro _ _

theorem State.vltLoadKey_sound {s : State} (hs : s.Sound) : (State.vltLoadKey s).Sound := by
  unfold State.vltLoadKey
  try dsimp only
  repeat' first
    | with_reducible assumption | with_reducible apply State.vltLoadKeyOf_sound

theorem execVltLoadKey_sound {s : State} (hs : s.Sound) : OutSound (execVltLoadKey s) := by
  unfold execVltLoadKey
  try dsimp only
  repeat' first
    | with_reducible assumption | with_reducible apply State.vltCommand_sound | with_reducible apply State.vltLoadKey_sound
    | with_reducible apply outSound_next

theorem State.vltEraseKey_sound {s : State} (hs : s.Sound) (h : Nat) : (State.vltEraseKey s h).Sound := by
  unfold State.vltEraseKey
  try dsimp only
  repeat' first
    | with_reducible assumption | with_reducible apply State.vltBegin_sound | with_reducible apply State.setVlt_sound
    | with_reducible apply State.vltRefuse_sound | with_reducible apply outSound_next | with_reducible apply sound_ite

theorem execVltEraseKey_sound {s : State} (hs : s.Sound) (h : BitVec 16) : OutSound (execVltEraseKey h s) := by
  unfold execVltEraseKey
  try dsimp only
  repeat' first
    | with_reducible assumption | with_reducible apply State.vltCommand_sound | with_reducible apply State.vltEraseKey_sound
    | with_reducible apply outSound_next | with_reducible apply sound_ite | with_reducible apply outSound_ite
    | with_reducible apply sound_foldl | with_reducible intro _ _ _ _ | with_reducible intro _ _ _ | with_reducible intro _ _

theorem State.vltArbAdvance_sound {s : State} (hs : s.Sound) (i : Nat) (ver : Nat) : (State.vltArbAdvance s i ver).Sound := by
  unfold State.vltArbAdvance
  try dsimp only
  repeat' first
    | with_reducible assumption | with_reducible apply State.setVlt_sound | with_reducible apply State.setNum_sound
    | with_reducible apply State.log_sound | with_reducible apply State.vltBegin_sound | with_reducible apply State.vltRefuse_sound
    | with_reducible apply outSound_next | with_reducible apply sound_ite

theorem execVltArbAdvance_sound {s : State} (hs : s.Sound) (i : BitVec 16) : OutSound (execVltArbAdvance i s) := by
  unfold execVltArbAdvance
  try dsimp only
  repeat' first
    | with_reducible assumption | with_reducible apply State.vltCommand_sound | with_reducible apply State.vltArbAdvance_sound
    | with_reducible apply outSound_next | with_reducible apply sound_ite | with_reducible apply outSound_ite
    | with_reducible apply sound_foldl | with_reducible intro _ _ _ _ | with_reducible intro _ _ _ | with_reducible intro _ _

theorem State.vltAttestOf_sound {s : State} (hs : s.Sound) (x0 : Option (List Nat)) : (State.vltAttestOf s x0).Sound := by
  unfold State.vltAttestOf
  try dsimp only
  repeat' first
    | with_reducible assumption | with_reducible apply State.vltRefuse_sound | with_reducible apply State.log_sound
    | with_reducible apply State.vltBegin_sound | with_reducible apply State.wrList_sound | with_reducible apply outSound_next
    | with_reducible apply sound_ite | with_reducible apply outSound_ite | with_reducible apply sound_foldl | with_reducible intro _ _ _ _
    | with_reducible intro _ _ _ | with_reducible intro _ _ | with_reducible apply sound_ite_snd
    | with_reducible refine sound_of_snd (by assumption) ?_ | with_reducible refine sound_of_fst (by assumption) ?_
    | with_reducible refine sound_of_trd (by assumption) ?_ | with_reducible apply sound_foldl_fst | with_reducible apply sound_foldl_snd
    | split

theorem State.vltAttest_sound {s : State} (hs : s.Sound) : (State.vltAttest s).Sound := by
  unfold State.vltAttest
  try dsimp only
  repeat' first
    | with_reducible assumption | with_reducible apply State.vltAttestOf_sound

theorem execVltAttest_sound {s : State} (hs : s.Sound) : OutSound (execVltAttest s) := by
  unfold execVltAttest
  try dsimp only
  repeat' first
    | with_reducible assumption | with_reducible apply State.vltCommand_sound | with_reducible apply State.vltAttest_sound
    | with_reducible apply outSound_next

theorem State.setChal_sound {s : State} (hs : s.Sound) (c : Option Nat) : (State.setChal s c).Sound := by
  unfold State.setChal
  try dsimp only
  repeat' first
    | with_reducible assumption | with_reducible apply State.setNum_sound | with_reducible apply State.setVlt_sound
    | with_reducible apply outSound_next | with_reducible apply sound_ite | with_reducible apply outSound_ite
    | with_reducible apply sound_foldl | with_reducible intro _ _ _ _ | with_reducible intro _ _ _

theorem State.vltChallenge_sound {s : State} (hs : s.Sound) (tap : Bool) : (State.vltChallenge s tap).Sound := by
  unfold State.vltChallenge
  try dsimp only
  repeat' first
    | with_reducible assumption | with_reducible apply State.vltRefuse_sound | with_reducible apply State.vltBegin_sound
    | with_reducible apply State.setChal_sound | with_reducible apply State.takeFresh_sound | with_reducible apply outSound_next
    | with_reducible apply sound_ite

theorem execVltDbgChallenge_sound {s : State} (hs : s.Sound) (tap : Bool) : OutSound (execVltDbgChallenge tap s) := by
  unfold execVltDbgChallenge
  try dsimp only
  repeat' first
    | with_reducible assumption | with_reducible apply State.vltCommand_sound | with_reducible apply State.vltChallenge_sound
    | with_reducible apply outSound_next | with_reducible apply sound_ite | with_reducible apply outSound_ite
    | with_reducible apply sound_foldl | with_reducible intro _ _ _ _ | with_reducible intro _ _ _ | with_reducible intro _ _

theorem State.setScope_sound {s : State} (hs : s.Sound) (v : Nat) : (State.setScope s v).Sound := by
  unfold State.setScope
  try dsimp only
  repeat' first
    | with_reducible assumption | with_reducible apply State.setFld_sound | with_reducible apply outSound_next
    | with_reducible apply sound_ite

theorem State.vltUnlock_sound {s : State} (hs : s.Sound) (tap : Bool) : (State.vltUnlock s tap).Sound := by
  unfold State.vltUnlock
  try dsimp only
  repeat' first
    | with_reducible assumption | with_reducible apply State.vltRefuse_sound | with_reducible apply State.setChal_sound
    | with_reducible apply State.setScope_sound | with_reducible apply State.extendOwner_sound | with_reducible apply State.setVlt_sound
    | with_reducible apply State.log_sound | with_reducible apply State.vltBegin_sound | with_reducible apply outSound_next
    | with_reducible apply sound_ite

theorem execVltDbgUnlock_sound {s : State} (hs : s.Sound) (tap : Bool) (u : Unit) : OutSound (execVltDbgUnlock tap u s) := by
  unfold execVltDbgUnlock
  try dsimp only
  repeat' first
    | with_reducible assumption | with_reducible apply State.vltCommand_sound | with_reducible apply State.vltUnlock_sound
    | with_reducible apply outSound_next | with_reducible apply sound_ite | with_reducible apply outSound_ite
    | with_reducible apply sound_foldl | with_reducible intro _ _ _ _ | with_reducible intro _ _ _ | with_reducible intro _ _

theorem execVltDbgLock_sound {s : State} (hs : s.Sound) : OutSound (execVltDbgLock s) := by
  unfold execVltDbgLock
  try dsimp only
  repeat' first
    | with_reducible assumption | with_reducible apply State.vltCommand_sound | with_reducible apply State.log_sound
    | with_reducible apply State.vltBegin_sound | with_reducible apply State.setVlt_sound | with_reducible apply State.setScope_sound
    | with_reducible apply outSound_next | with_reducible apply sound_ite | with_reducible apply outSound_ite
    | with_reducible apply sound_foldl | with_reducible intro _ _ _ _ | with_reducible intro _ _ _ | with_reducible intro _ _

theorem execVltRngRead_sound {s : State} (hs : s.Sound) : OutSound (execVltRngRead s) := by
  unfold execVltRngRead
  try dsimp only
  repeat' first
    | with_reducible assumption | with_reducible apply State.takeFresh_sound | with_reducible apply State.setBus_sound
    | with_reducible apply outSound_next | with_reducible apply sound_ite | with_reducible apply outSound_ite

theorem execDebugScopeExpire_sound {s : State} (hs : s.Sound) : OutSound (execDebugScopeExpire s) := by
  unfold execDebugScopeExpire
  try dsimp only
  repeat' first
    | with_reducible assumption | with_reducible apply State.log_sound | with_reducible apply State.setVlt_sound
    | with_reducible apply State.setScope_sound | with_reducible apply outSound_next | with_reducible apply sound_ite
    | with_reducible apply outSound_ite

theorem execVltCommandDone_sound {s : State} (hs : s.Sound) : OutSound (execVltCommandDone s) := by
  unfold execVltCommandDone
  try dsimp only
  repeat' first
    | with_reducible assumption | with_reducible apply State.setFld_sound | with_reducible apply State.setVlt_sound
    | with_reducible apply outSound_next | with_reducible apply sound_ite | with_reducible apply outSound_ite
    | with_reducible apply sound_foldl | with_reducible intro _ _ _ _ | with_reducible intro _ _ _ | with_reducible intro _ _
    | with_reducible apply sound_ite_snd | with_reducible refine sound_of_snd (by assumption) ?_
    | with_reducible refine sound_of_fst (by assumption) ?_ | with_reducible refine sound_of_trd (by assumption) ?_
    | with_reducible apply sound_foldl_fst | with_reducible apply sound_foldl_snd | split

theorem execEntropyFail_sound {s : State} (hs : s.Sound) : OutSound (execEntropyFail s) := by
  unfold execEntropyFail
  try dsimp only
  repeat' first
    | with_reducible assumption | with_reducible apply State.log_sound | with_reducible apply State.setFld_sound
    | with_reducible apply outSound_next | with_reducible apply sound_ite | with_reducible apply outSound_ite

end Sys2Proof.Machine
end

