-- ==== Sys2Proof/Laws/SoundReset.lean ====
section
/-! SUPPORT. The operations and commands of Machine/Reset.lean keep a sound state sound. -/
namespace Sys2Proof.Machine

theorem State.cleared_sound {s : State} (hs : s.Sound) (power : Bool) (pav : Bool) (dram : Bool) : (State.cleared s power pav dram).Sound := by
  unfold State.cleared
  try dsimp only
  repeat' first
    | exact ⟨Tab.wf_filter _ hs.1 _, Tab.wf_filter _ hs.2.1 _, hs.2.2⟩ | with_reducible assumption
    | with_reducible apply State.setFld_sound | with_reducible apply outSound_next | with_reducible apply sound_ite
    | with_reducible apply outSound_ite | with_reducible apply sound_foldl | with_reducible intro _ _ _ _ | with_reducible intro _ _ _
    | with_reducible intro _ _ | with_reducible apply sound_ite_snd | with_reducible refine sound_of_snd (by assumption) ?_
    | with_reducible refine sound_of_fst (by assumption) ?_ | with_reducible refine sound_of_trd (by assumption) ?_
    | with_reducible apply sound_foldl_fst | with_reducible apply sound_foldl_snd | split

theorem State.setRpc_sound {s : State} (hs : s.Sound) (r : RpcState) : (State.setRpc s r).Sound := by
  unfold State.setRpc
  try dsimp only
  repeat' first
    | with_reducible assumption | with_reducible apply outSound_next | with_reducible apply sound_ite | with_reducible apply outSound_ite
    | with_reducible apply sound_foldl | with_reducible intro _ _ _ _ | with_reducible intro _ _ _ | with_reducible intro _ _
    | with_reducible apply sound_ite_snd | with_reducible refine sound_of_snd (by assumption) ?_
    | with_reducible refine sound_of_fst (by assumption) ?_ | with_reducible refine sound_of_trd (by assumption) ?_
    | with_reducible apply sound_foldl_fst | with_reducible apply sound_foldl_snd | split | dsimp only | simp only [sound_mk, sound_mk_evl]

theorem State.sysReset_sound {s : State} (hs : s.Sound) (code : Nat) (pav : Bool) : (State.sysReset s code pav).Sound := by
  unfold State.sysReset
  try dsimp only
  repeat' first
    | with_reducible assumption | with_reducible apply State.oeWithdraw_sound | with_reducible apply State.cleared_sound
    | with_reducible apply State.setConnState_sound | with_reducible apply State.setFld_sound | with_reducible apply State.setRpc_sound
    | with_reducible apply outSound_next | with_reducible apply sound_ite | with_reducible apply outSound_ite
    | with_reducible apply sound_foldl | with_reducible intro _ _ _ _ | with_reducible intro _ _ _

theorem State.obBegin_sound {s : State} (hs : s.Sound) (l : List Nat) : (State.obBegin s l).Sound := by
  unfold State.obBegin
  try dsimp only
  repeat' first
    | with_reducible assumption | with_reducible apply State.setRpc_sound | with_reducible apply State.setFld_sound

theorem State.startEvents_sound {s : State} (hs : s.Sound) : (State.startEvents s).Sound := by
  unfold State.startEvents
  try dsimp only
  repeat' first
    | with_reducible assumption | with_reducible apply State.log_sound | with_reducible apply State.logIf_sound
    | with_reducible apply State.logRes_sound | with_reducible apply outSound_next | with_reducible apply sound_ite
    | with_reducible apply outSound_ite | with_reducible apply sound_foldl | with_reducible intro _ _ _ _ | with_reducible intro _ _ _

theorem State.obLoad_sound {s : State} (hs : s.Sound) : (State.obLoad s).Sound := by
  unfold State.obLoad
  try dsimp only
  repeat' first
    | with_reducible assumption | with_reducible apply State.setFld_sound | with_reducible apply State.setRpc_sound
    | with_reducible apply outSound_next | with_reducible apply sound_ite | with_reducible apply outSound_ite
    | with_reducible apply sound_foldl | with_reducible intro _ _ _ _ | with_reducible intro _ _ _ | with_reducible intro _ _
    | with_reducible apply sound_ite_snd | with_reducible refine sound_of_snd (by assumption) ?_
    | with_reducible refine sound_of_fst (by assumption) ?_ | with_reducible refine sound_of_trd (by assumption) ?_
    | with_reducible apply sound_foldl_fst | with_reducible apply sound_foldl_snd | split

theorem State.timeRestore_sound {s : State} (hs : s.Sound) (power : Bool) : (State.timeRestore s power).Sound := by
  unfold State.timeRestore
  try dsimp only
  repeat' first
    | with_reducible assumption | with_reducible apply State.freshInt_sound | with_reducible apply State.setTime_sound
    | with_reducible apply State.aonKeep_sound | with_reducible apply State.log_sound | with_reducible apply State.setNum_sound
    | with_reducible apply outSound_next | with_reducible apply sound_ite

theorem State.releaseDomain_sound {s : State} (hs : s.Sound) (d : Nat) : (State.releaseDomain s d).Sound := by
  unfold State.releaseDomain
  try dsimp only
  repeat' first
    | with_reducible assumption | with_reducible apply State.setFld_sound | with_reducible apply outSound_next
    | with_reducible apply sound_ite

theorem State.enterFolly_sound {s : State} (hs : s.Sound) (reason : Nat) : (State.enterFolly s reason).Sound := by
  unfold State.enterFolly
  try dsimp only
  repeat' first
    | with_reducible assumption | with_reducible apply State.setRpc_sound | with_reducible apply State.clearForces_sound
    | with_reducible apply State.oeWithdraw_sound | with_reducible apply State.setFld_sound | with_reducible apply State.chooseSpare_sound
    | with_reducible apply State.log_sound | with_reducible apply outSound_next | with_reducible apply sound_ite
    | with_reducible apply outSound_ite | with_reducible apply sound_foldl | with_reducible intro _ _ _ _ | with_reducible intro _ _ _

theorem State.fwBoot_sound {s t : State} (hs : s.Sound) (e : s.fwBoot = some t) : t.Sound := by
  unfold State.fwBoot at e
  dsimp only at e
  split at e
  · injection e with e
    subst e
    exact State.fwRuns_sound (State.extendMeas_sound hs _ _) _
  · split at e
    · injection e with e
      subst e
      exact State.fwRuns_sound (State.extendMeas_sound (State.setFwActive_sound (State.fwRefused_sound hs _ _ _) _ _) _ _) _
    · cases e

theorem State.recipesAgain_sound {s : State} (hs : s.Sound) : (State.recipesAgain s).Sound := by
  unfold State.recipesAgain
  try dsimp only
  repeat' first
    | with_reducible assumption | with_reducible apply State.setRcp_sound | with_reducible apply State.rcpShow_sound
    | with_reducible apply State.log_sound | with_reducible apply State.clearMem_sound | with_reducible apply outSound_next
    | with_reducible apply sound_ite | with_reducible apply outSound_ite | with_reducible apply sound_foldl | with_reducible intro _ _ _ _
    | with_reducible intro _ _ _ | with_reducible intro _ _ | with_reducible apply sound_ite_snd
    | with_reducible refine sound_of_snd (by assumption) ?_ | with_reducible refine sound_of_fst (by assumption) ?_
    | with_reducible refine sound_of_trd (by assumption) ?_ | with_reducible apply sound_foldl_fst | with_reducible apply sound_foldl_snd
    | split

theorem State.crewsRelease_sound {s : State} (hs : s.Sound) (power : Bool) : (State.crewsRelease s power).Sound := by
  unfold State.crewsRelease
  try dsimp only
  repeat' first
    | with_reducible assumption | with_reducible apply State.setRpc_sound | with_reducible apply State.setFld_sound
    | with_reducible apply State.recRun_sound | with_reducible apply State.cycReset_sound | with_reducible apply State.ckResync_sound
    | with_reducible apply State.pairListen_sound | with_reducible apply State.resumeOwn_sound | with_reducible apply outSound_next
    | with_reducible apply sound_ite

theorem State.bringUp_sound {s : State} (hs : s.Sound) (sw21 : Bool) (ms : Nat) (code : Nat) : (State.bringUp s sw21 ms code).Sound := by
  unfold State.bringUp
  try dsimp only
  repeat' first
    | with_reducible assumption | with_reducible apply State.setElapsed_sound | with_reducible apply State.obLoad_sound
    | with_reducible apply State.setFld_sound | with_reducible apply State.setNum_sound | with_reducible apply State.timeRestore_sound
    | with_reducible apply State.releaseDomain_sound | with_reducible apply State.startEvents_sound
    | with_reducible apply State.setRpc_sound | with_reducible apply State.enterFolly_sound | with_reducible apply State.calReload_sound
    | with_reducible apply State.imlLoad_sound | with_reducible apply State.recipesAgain_sound | with_reducible apply State.cycReset_sound
    | with_reducible apply State.crewsRelease_sound | with_reducible refine State.fwBoot_sound ?_ (by assumption)
    | with_reducible apply outSound_next | with_reducible apply sound_ite | with_reducible apply outSound_ite
    | with_reducible apply sound_foldl | with_reducible intro _ _ _ _ | with_reducible intro _ _ _ | with_reducible intro _ _
    | with_reducible apply sound_ite_snd | with_reducible refine sound_of_snd (by assumption) ?_
    | with_reducible refine sound_of_fst (by assumption) ?_ | with_reducible refine sound_of_trd (by assumption) ?_
    | with_reducible apply sound_foldl_fst | with_reducible apply sound_foldl_snd | split | dsimp only | simp only [sound_mk, sound_mk_evl]

theorem State.ioReset_sound {s : State} (hs : s.Sound) : (State.ioReset s).Sound := by
  unfold State.ioReset
  try dsimp only
  repeat' first
    | with_reducible assumption | with_reducible apply State.outputsReset_sound | with_reducible apply State.oeWithdraw_sound
    | with_reducible apply State.setAxes_sound

end Sys2Proof.Machine
end

