-- ==== Sys2Proof/Laws/SoundRpc.lean ====
section
/-! SUPPORT. The operations and commands of Machine/Rpc.lean keep a sound state sound. -/
namespace Sys2Proof.Machine

theorem execSwitchCheck_sound {s : State} (hs : s.Sound) (switches : BitVec 24) : OutSound (execSwitchCheck switches s) := by
  unfold execSwitchCheck
  try dsimp only
  repeat' first
    | with_reducible assumption | with_reducible apply State.sysReset_sound | with_reducible apply State.pavSafe_sound
    | with_reducible apply State.log_sound | with_reducible apply outSound_next | with_reducible apply sound_ite
    | with_reducible apply outSound_ite

theorem State.rpcIrq_sound {s : State} (hs : s.Sound) (b : Nat) : (State.rpcIrq s b).Sound := by
  unfold State.rpcIrq
  try dsimp only
  repeat' first
    | with_reducible assumption | with_reducible apply State.setRbit_sound

theorem State.clkNote_sound {s : State} (hs : s.Sound) (d : Nat) : (State.clkNote s d).Sound := by
  unfold State.clkNote
  try dsimp only
  repeat' first
    | with_reducible assumption | with_reducible apply State.setRpc_sound | with_reducible apply outSound_next
    | with_reducible apply sound_ite | with_reducible apply outSound_ite | with_reducible apply sound_foldl | with_reducible intro _ _ _ _
    | with_reducible intro _ _ _ | with_reducible intro _ _ | with_reducible apply sound_ite_snd
    | with_reducible refine sound_of_snd (by assumption) ?_ | with_reducible refine sound_of_fst (by assumption) ?_
    | with_reducible refine sound_of_trd (by assumption) ?_ | with_reducible apply sound_foldl_fst | with_reducible apply sound_foldl_snd
    | split | dsimp only | simp only [sound_mk, sound_mk_evl]

theorem State.endTests_sound {s : State} (hs : s.Sound) (l : List Res) : (State.endTests s l).Sound := by
  unfold State.endTests
  try dsimp only
  repeat' first
    | with_reducible assumption | with_reducible apply State.logRes_sound | with_reducible apply State.setHealth_sound
    | with_reducible apply outSound_next | with_reducible apply sound_ite | with_reducible apply outSound_ite
    | with_reducible apply sound_foldl | with_reducible intro _ _ _ _ | with_reducible intro _ _ _

theorem State.resetBlock_sound {s : State} (hs : s.Sound) (lo hi : Nat) (l : List Res) : (s.resetBlock lo hi l).Sound := by
  unfold State.resetBlock
  dsimp only
  have h0 : State.Sound { s with regs := s.regs.filter (fun e => decide (e.1 < lo) || decide (hi ≤ e.1)) } :=
    ⟨hs.1, Tab.wf_filter _ hs.2.1 _, hs.2.2⟩
  generalize ({ s with regs := s.regs.filter (fun e => decide (e.1 < lo) || decide (hi ≤ e.1)) } : State) = t at *
  repeat' first
    | with_reducible assumption
    | with_reducible apply State.setFld_sound
    | with_reducible apply State.imgWrite_sound
    | with_reducible apply sound_foldl
    | intro _ _ _
    | split

theorem State.resetNet_sound {s : State} (hs : s.Sound) : (State.resetNet s).Sound := by
  unfold State.resetNet
  try dsimp only
  repeat' first
    | with_reducible assumption | with_reducible apply State.endTests_sound | with_reducible apply State.clearMem_sound
    | with_reducible apply State.resetBlock_sound | with_reducible apply State.setPlk_sound | with_reducible apply State.setVlt_sound
    | with_reducible apply State.setFld_sound | with_reducible apply State.setConnState_sound | with_reducible apply State.releaseAll_sound
    | with_reducible apply outSound_next | with_reducible apply sound_ite | with_reducible apply outSound_ite
    | with_reducible apply sound_foldl | with_reducible intro _ _ _ _ | with_reducible intro _ _ _ | with_reducible intro _ _
    | with_reducible apply sound_ite_snd | with_reducible refine sound_of_snd (by assumption) ?_
    | with_reducible refine sound_of_fst (by assumption) ?_ | with_reducible refine sound_of_trd (by assumption) ?_
    | with_reducible apply sound_foldl_fst | with_reducible apply sound_foldl_snd | split | dsimp only | simp only [sound_mk, sound_mk_evl]

theorem State.resetAna_sound {s : State} (hs : s.Sound) : (State.resetAna s).Sound := by
  unfold State.resetAna
  try dsimp only
  repeat' first
    | with_reducible assumption | with_reducible apply State.calRefuse_sound | with_reducible apply State.calIdle_sound
    | with_reducible apply State.resetBlock_sound | with_reducible apply State.endTests_sound | with_reducible apply State.calReload_sound
    | with_reducible apply State.pairRefresh_sound | with_reducible apply outSound_next | with_reducible apply sound_ite
    | with_reducible apply outSound_ite | with_reducible apply sound_foldl | with_reducible intro _ _ _ _ | with_reducible intro _ _ _
    | with_reducible intro _ _ | with_reducible apply sound_ite_snd | with_reducible refine sound_of_snd (by assumption) ?_
    | with_reducible refine sound_of_fst (by assumption) ?_ | with_reducible refine sound_of_trd (by assumption) ?_
    | with_reducible apply sound_foldl_fst | with_reducible apply sound_foldl_snd | split | dsimp only | simp only [sound_mk, sound_mk_evl]

theorem State.resetCrewDomain_sound {s : State} (hs : s.Sound) (n : Nat) : (State.resetCrewDomain s n).Sound := by
  unfold State.resetCrewDomain
  try dsimp only
  repeat' first
    | with_reducible assumption | with_reducible apply State.endTests_sound | with_reducible apply State.releaseAll_sound
    | with_reducible apply State.resetCrew_sound

theorem State.resetCore_sound {s : State} (hs : s.Sound) (c : Nat) : (State.resetCore s c).Sound := by
  unfold State.resetCore
  try dsimp only
  repeat' first
    | with_reducible assumption | with_reducible apply State.releaseAll_sound | with_reducible apply State.cycStopWith_sound
    | with_reducible apply outSound_next | with_reducible apply sound_ite

theorem State.domainReset_sound {s : State} (hs : s.Sound) (d : Nat) (cause : Nat) : (State.domainReset s d cause).Sound := by
  unfold State.domainReset
  try dsimp only
  repeat' first
    | with_reducible assumption | with_reducible apply State.log_sound | with_reducible apply State.setFld_sound
    | with_reducible apply State.resetNet_sound | with_reducible apply State.resetAna_sound
    | with_reducible apply State.resetCrewDomain_sound | with_reducible apply State.resetCore_sound | with_reducible apply outSound_next
    | with_reducible apply sound_ite

theorem State.domainRequest_sound {s : State} (hs : s.Sound) (src : Nat) (key : Nat) (d : Nat) : (State.domainRequest s src key d).Sound := by
  unfold State.domainRequest
  try dsimp only
  repeat' first
    | with_reducible assumption | with_reducible apply State.sysReset_sound | with_reducible apply State.log_sound
    | with_reducible apply State.rpcIrq_sound | with_reducible apply State.clkNote_sound | with_reducible apply State.readmit_sound
    | with_reducible apply State.domainReset_sound | with_reducible apply State.endTests_sound | with_reducible apply outSound_next
    | with_reducible apply sound_ite | with_reducible apply outSound_ite | with_reducible apply sound_foldl | with_reducible intro _ _ _ _
    | with_reducible intro _ _ _ | with_reducible intro _ _ | with_reducible apply sound_ite_snd
    | with_reducible refine sound_of_snd (by assumption) ?_ | with_reducible refine sound_of_fst (by assumption) ?_
    | with_reducible refine sound_of_trd (by assumption) ?_ | with_reducible apply sound_foldl_fst | with_reducible apply sound_foldl_snd
    | split

theorem execDomainResetRequest_sound {s : State} (hs : s.Sound) (src : Fin 160) (key : Byte) (d : Byte) : OutSound (execDomainResetRequest src key d s) := by
  unfold execDomainResetRequest
  try dsimp only
  repeat' first
    | with_reducible assumption | with_reducible apply State.domainRequest_sound | with_reducible apply outSound_next

theorem execRpcFollyRequest_sound {s : State} (hs : s.Sound) (src : Fin 160) (key : Byte) (go : Bool) : OutSound (execRpcFollyRequest src key go s) := by
  unfold execRpcFollyRequest
  try dsimp only
  repeat' first
    | with_reducible assumption | with_reducible apply State.sysReset_sound | with_reducible apply State.setRpc_sound
    | with_reducible apply outSound_next | with_reducible apply sound_ite | with_reducible apply outSound_ite

theorem execStartOk_sound {s : State} (hs : s.Sound) : OutSound (execStartOk s) := by
  unfold execStartOk
  try dsimp only
  repeat' first
    | with_reducible assumption | with_reducible apply State.log_sound | with_reducible apply State.setRpc_sound
    | with_reducible apply State.setFld_sound | with_reducible apply outSound_next

theorem State.kick_sound {s : State} (hs : s.Sound) (c : Nat) : (State.kick s c).Sound := by
  unfold State.kick
  try dsimp only
  repeat' first
    | with_reducible assumption | with_reducible apply State.setRpc_sound | with_reducible apply outSound_next
    | with_reducible apply sound_ite | with_reducible apply outSound_ite | with_reducible apply sound_foldl | with_reducible intro _ _ _ _
    | with_reducible intro _ _ _ | with_reducible intro _ _ | with_reducible apply sound_ite_snd
    | with_reducible refine sound_of_snd (by assumption) ?_ | with_reducible refine sound_of_fst (by assumption) ?_
    | with_reducible refine sound_of_trd (by assumption) ?_ | with_reducible apply sound_foldl_fst | with_reducible apply sound_foldl_snd
    | split | dsimp only | simp only [sound_mk, sound_mk_evl]

theorem execSysWdgKick_sound {s : State} (hs : s.Sound) (v : Word) : OutSound (execSysWdgKick v s) := by
  unfold execSysWdgKick
  try dsimp only
  repeat' first
    | with_reducible assumption | with_reducible apply State.kick_sound | with_reducible apply outSound_next
    | with_reducible apply sound_ite | with_reducible apply outSound_ite

theorem execCoreWdgKick_sound {s : State} (hs : s.Sound) (c : Fin 8) : OutSound (execCoreWdgKick c s) := by
  unfold execCoreWdgKick
  try dsimp only
  repeat' first
    | with_reducible assumption | with_reducible apply State.kick_sound | with_reducible apply outSound_next
    | with_reducible apply sound_ite | with_reducible apply outSound_ite

theorem execEasyEnter_sound {s : State} (hs : s.Sound) : OutSound (execEasyEnter s) := by
  unfold execEasyEnter
  try dsimp only
  repeat' first
    | with_reducible assumption | with_reducible apply State.log_sound | with_reducible apply State.setRpc_sound
    | with_reducible apply outSound_next | with_reducible apply sound_ite | with_reducible apply outSound_ite

theorem execParkEnter_sound {s : State} (hs : s.Sound) : OutSound (execParkEnter s) := by
  unfold execParkEnter
  try dsimp only
  repeat' first
    | with_reducible assumption | with_reducible apply State.log_sound | with_reducible apply State.sysReset_sound
    | with_reducible apply State.setRpc_sound | with_reducible apply outSound_next | with_reducible apply sound_ite
    | with_reducible apply outSound_ite

theorem execObCommit_sound {s : State} (hs : s.Sound) : OutSound (execObCommit s) := by
  unfold execObCommit
  try dsimp only
  repeat' first
    | with_reducible assumption | with_reducible apply State.obBegin_sound | with_reducible apply outSound_next
    | with_reducible apply sound_ite | with_reducible apply outSound_ite

theorem execImlActivate_sound {s : State} (hs : s.Sound) : OutSound (execImlActivate s) := by
  unfold execImlActivate
  try dsimp only
  repeat' first
    | with_reducible assumption | with_reducible apply State.log_sound | with_reducible apply State.sysReset_sound
    | with_reducible apply State.setIml_sound | with_reducible apply State.imlIgnore_sound | with_reducible apply outSound_next
    | with_reducible apply sound_ite | with_reducible apply outSound_ite

theorem State.recovery_sound {s : State} (hs : s.Sound) (code : Nat) (l : List Byte) {f : State → Nat → List Nat → State}
    (hf : ∀ s : State, s.Sound → ∀ q p, (f s q p).Sound) : (s.recovery code l f).Sound := by
  unfold State.recovery
  split
  · exact hs
  · split
    · exact hf s hs _ _
    · exact hs

theorem State.recoveryOut_sound {s : State} (hs : s.Sound) (code : Nat) (seq : Nat) (result : Nat) (l : List Nat) : (State.recoveryOut s code seq result l).Sound := by
  unfold State.recoveryOut
  try dsimp only
  repeat' first
    | with_reducible assumption | with_reducible apply State.emit_sound

theorem execRecoveryLog_sound {s : State} (hs : s.Sound) (frame : List Byte) : OutSound (execRecoveryLog frame s) := by
  unfold execRecoveryLog
  try dsimp only
  repeat' first
    | with_reducible assumption | with_reducible apply State.recovery_sound | with_reducible apply State.recoveryOut_sound
    | with_reducible apply outSound_next | with_reducible apply sound_ite | with_reducible apply outSound_ite
    | with_reducible apply sound_foldl | with_reducible intro _ _ _ _

theorem execBrownOutFinalReset_sound {s : State} (hs : s.Sound) : OutSound (execBrownOutFinalReset s) := by
  unfold execBrownOutFinalReset
  try dsimp only
  repeat' first
    | with_reducible assumption | with_reducible apply State.sysReset_sound | with_reducible apply outSound_next
    | with_reducible apply sound_ite | with_reducible apply outSound_ite

theorem execVfldLost_sound {s : State} (hs : s.Sound) (lost : Bool) (mv : BitVec 16) : OutSound (execVfldLost lost mv s) := by
  unfold execVfldLost
  try dsimp only
  repeat' first
    | with_reducible assumption | with_reducible apply State.setFld_sound | with_reducible apply State.rpcIrq_sound
    | with_reducible apply State.log_sound | with_reducible apply State.coilAbsent_sound | with_reducible apply State.coilBack_sound
    | with_reducible apply outSound_next | with_reducible apply sound_ite | with_reducible apply outSound_ite
    | with_reducible apply sound_foldl | with_reducible intro _ _ _ _ | with_reducible intro _ _ _

theorem execResetPin_sound {s : State} (hs : s.Sound) : OutSound (execResetPin s) := by
  unfold execResetPin
  try dsimp only
  repeat' first
    | with_reducible assumption | with_reducible apply State.logIf_sound | with_reducible apply State.sysReset_sound
    | with_reducible apply outSound_next

theorem execRecoveryObWrite_sound {s : State} (hs : s.Sound) (frame : List Byte) : OutSound (execRecoveryObWrite frame s) := by
  unfold execRecoveryObWrite
  try dsimp only
  repeat' first
    | with_reducible assumption | with_reducible apply State.recovery_sound | with_reducible apply State.recoveryOut_sound
    | with_reducible apply State.obBegin_sound | with_reducible apply outSound_next | with_reducible apply sound_ite
    | with_reducible apply outSound_ite | with_reducible apply sound_foldl | with_reducible intro _ _ _ _

theorem execHoldupLost_sound {s : State} (hs : s.Sound) : OutSound (execHoldupLost s) := by
  unfold execHoldupLost
  try dsimp only
  repeat' first
    | with_reducible assumption | with_reducible apply State.logIf_sound | with_reducible apply State.sysReset_sound
    | with_reducible apply State.setRpc_sound | with_reducible apply outSound_next | with_reducible apply sound_ite
    | with_reducible apply outSound_ite

theorem execVinDipSet_sound {s : State} (hs : s.Sound) (mv : BitVec 16) : OutSound (execVinDipSet mv s) := by
  unfold execVinDipSet
  try dsimp only
  repeat' first
    | with_reducible assumption | with_reducible apply State.setFld_sound | with_reducible apply State.count_sound
    | with_reducible apply State.rpcIrq_sound | with_reducible apply State.log_sound | with_reducible apply State.setRpc_sound
    | with_reducible apply State.setSeq_sound | with_reducible apply State.recModule_sound | with_reducible apply State.writeShadow_sound
    | with_reducible apply outSound_next | with_reducible apply sound_ite | with_reducible apply outSound_ite

theorem execSysWdgHalf_sound {s : State} (hs : s.Sound) : OutSound (execSysWdgHalf s) := by
  unfold execSysWdgHalf
  try dsimp only
  repeat' first
    | with_reducible assumption | with_reducible apply State.rpcIrq_sound | with_reducible apply State.setRpc_sound
    | with_reducible apply outSound_next | with_reducible apply sound_ite | with_reducible apply outSound_ite

theorem execCoreWdgExpire_sound {s : State} (hs : s.Sound) (c : Fin 8) : OutSound (execCoreWdgExpire c s) := by
  unfold execCoreWdgExpire
  try dsimp only
  repeat' first
    | with_reducible assumption | with_reducible apply State.rpcIrq_sound | with_reducible apply State.domainReset_sound
    | with_reducible apply State.kick_sound | with_reducible apply State.setFld_sound | with_reducible apply outSound_next
    | with_reducible apply sound_ite | with_reducible apply outSound_ite

theorem State.parDiff_sound {s : State} (hs : s.Sound) : (State.parDiff s).Sound := by
  unfold State.parDiff
  try dsimp only
  repeat' first
    | with_reducible assumption | with_reducible apply State.setFld_sound | with_reducible apply outSound_next
    | with_reducible apply sound_ite | with_reducible apply outSound_ite | with_reducible apply sound_foldl | with_reducible intro _ _ _ _
    | with_reducible intro _ _ _ | with_reducible intro _ _ | with_reducible apply sound_ite_snd
    | with_reducible refine sound_of_snd (by assumption) ?_ | with_reducible refine sound_of_fst (by assumption) ?_
    | with_reducible refine sound_of_trd (by assumption) ?_ | with_reducible apply sound_foldl_fst | with_reducible apply sound_foldl_snd
    | split | dsimp only | simp only [sound_mk, sound_mk_evl]

theorem execPavilionStartDone_sound {s : State} (hs : s.Sound) (switches : BitVec 24) (selftest : Bool) : OutSound (execPavilionStartDone switches selftest s) := by
  unfold execPavilionStartDone
  try dsimp only
  repeat' first
    | with_reducible assumption | with_reducible apply State.pavStartEnd_sound | with_reducible apply State.extendMeas_sound
    | with_reducible apply State.setFld_sound | with_reducible apply State.sysReset_sound | with_reducible apply State.pavSafe_sound
    | with_reducible apply State.seritStart_sound | with_reducible apply State.parDiff_sound | with_reducible apply outSound_next
    | with_reducible apply sound_ite | with_reducible apply outSound_ite | with_reducible apply sound_foldl | with_reducible intro _ _ _ _
    | with_reducible intro _ _ _ | with_reducible intro _ _ | with_reducible apply sound_ite_snd
    | with_reducible refine sound_of_snd (by assumption) ?_ | with_reducible refine sound_of_fst (by assumption) ?_
    | with_reducible refine sound_of_trd (by assumption) ?_ | with_reducible apply sound_foldl_fst | with_reducible apply sound_foldl_snd
    | split

theorem execVfldWarning_sound {s : State} (hs : s.Sound) (low : Bool) (mv : BitVec 16) : OutSound (execVfldWarning low mv s) := by
  unfold execVfldWarning
  try dsimp only
  repeat' first
    | with_reducible assumption | with_reducible apply State.setFld_sound | with_reducible apply State.rpcIrq_sound
    | with_reducible apply State.log_sound | with_reducible apply outSound_next | with_reducible apply sound_ite
    | with_reducible apply outSound_ite

theorem execRecoveryIdent_sound {s : State} (hs : s.Sound) (frame : List Byte) : OutSound (execRecoveryIdent frame s) := by
  unfold execRecoveryIdent
  try dsimp only
  repeat' first
    | with_reducible assumption | with_reducible apply State.recovery_sound | with_reducible apply State.recoveryOut_sound
    | with_reducible apply outSound_next | with_reducible apply sound_ite | with_reducible apply outSound_ite
    | with_reducible apply sound_foldl | with_reducible intro _ _ _ _

theorem execParkWake_sound {s : State} (hs : s.Sound) : OutSound (execParkWake s) := by
  unfold execParkWake
  try dsimp only
  repeat' first
    | with_reducible assumption | with_reducible apply State.setElapsed_sound | with_reducible apply State.log_sound
    | with_reducible apply State.setRpc_sound | with_reducible apply outSound_next | with_reducible apply sound_ite
    | with_reducible apply outSound_ite

theorem execRefclkTimeout_sound {s : State} (hs : s.Sound) : OutSound (execRefclkTimeout s) := by
  unfold execRefclkTimeout
  try dsimp only
  repeat' first
    | with_reducible assumption | with_reducible apply State.setRpc_sound | with_reducible apply outSound_next
    | with_reducible apply sound_ite | with_reducible apply outSound_ite

theorem execPavilionSafeEntry_sound {s : State} (hs : s.Sound) (cause : BitVec 4) : OutSound (execPavilionSafeEntry cause s) := by
  unfold execPavilionSafeEntry
  try dsimp only
  repeat' first
    | with_reducible assumption | with_reducible apply State.sysReset_sound | with_reducible apply State.pavSafe_sound
    | with_reducible apply outSound_next | with_reducible apply sound_ite | with_reducible apply outSound_ite

theorem State.heldWork_sound {s : State} (hs : s.Sound) (d : Nat) : (State.heldWork s d).Sound := by
  unfold State.heldWork
  try dsimp only
  repeat' first
    | with_reducible assumption | with_reducible apply State.dropEntry_sound | with_reducible apply State.crewFatal_sound
    | with_reducible apply State.cycStopWith_sound | with_reducible apply outSound_next | with_reducible apply sound_ite
    | with_reducible apply outSound_ite | with_reducible apply sound_foldl | with_reducible intro _ _ _ _ | with_reducible intro _ _ _

theorem execClockGoodLoss_sound {s : State} (hs : s.Sound) (d : Fin 32) : OutSound (execClockGoodLoss d s) := by
  unfold execClockGoodLoss
  try dsimp only
  repeat' first
    | with_reducible assumption | with_reducible apply State.sysReset_sound | with_reducible apply State.countFld_sound
    | with_reducible apply State.setFld_sound | with_reducible apply State.transient_sound | with_reducible apply State.clkNote_sound
    | with_reducible apply State.rpcIrq_sound | with_reducible apply State.log_sound | with_reducible apply State.heldWork_sound
    | with_reducible apply outSound_next | with_reducible apply sound_ite | with_reducible apply outSound_ite

theorem execEasyExit_sound {s : State} (hs : s.Sound) : OutSound (execEasyExit s) := by
  unfold execEasyExit
  try dsimp only
  repeat' first
    | with_reducible assumption | with_reducible apply State.rpcIrq_sound | with_reducible apply State.log_sound
    | with_reducible apply State.setRpc_sound | with_reducible apply outSound_next | with_reducible apply sound_ite
    | with_reducible apply outSound_ite

theorem State.domainTested_sound {s : State} (hs : s.Sound) (d : Nat) (code : Nat) : (State.domainTested s d code).Sound := by
  unfold State.domainTested
  try dsimp only
  repeat' first
    | with_reducible assumption | with_reducible apply State.rpcIrq_sound | with_reducible apply State.setFld_sound
    | with_reducible apply State.testPassed_sound | with_reducible apply State.testFailed_sound | with_reducible apply outSound_next
    | with_reducible apply sound_ite

theorem State.recoveryImage_sound {s : State} (hs : s.Sound) (l : List Nat) (c : ImgContent) : (State.recoveryImage s l c).2.Sound := by
  unfold State.recoveryImage
  try dsimp only
  repeat' first
    | with_reducible assumption | with_reducible apply State.wrList_sound | with_reducible apply State.clearMem_sound
    | with_reducible apply State.syncSlots_sound | with_reducible apply State.setSlotIml_sound | with_reducible apply State.setIml_sound
    | with_reducible apply State.log_sound | with_reducible apply outSound_next | with_reducible apply sound_ite
    | with_reducible apply outSound_ite | with_reducible apply sound_foldl | with_reducible intro _ _ _ _ | with_reducible intro _ _ _
    | with_reducible intro _ _ | with_reducible apply sound_ite_snd

theorem execSysWdgExpire_sound {s : State} (hs : s.Sound) : OutSound (execSysWdgExpire s) := by
  unfold execSysWdgExpire
  try dsimp only
  repeat' first
    | with_reducible assumption | with_reducible apply State.sysReset_sound | with_reducible apply outSound_next
    | with_reducible apply sound_ite | with_reducible apply outSound_ite

theorem execPowerOn_sound {s : State} (hs : s.Sound) : OutSound (execPowerOn s) := by
  unfold execPowerOn
  try dsimp only
  repeat' first
    | with_reducible assumption | with_reducible apply State.logIf_sound | with_reducible apply State.sysReset_sound
    | with_reducible apply outSound_next

theorem execOutputEnableGrant_sound {s : State} (hs : s.Sound) : OutSound (execOutputEnableGrant s) := by
  unfold execOutputEnableGrant
  try dsimp only
  repeat' first
    | with_reducible assumption | with_reducible apply State.autoResume_sound | with_reducible apply State.pvmIrq_sound
    | with_reducible apply State.log_sound | with_reducible apply State.heatersEnable_sound | with_reducible apply State.setFld_sound
    | with_reducible apply State.valvesClear_sound | with_reducible apply outSound_next | with_reducible apply sound_ite
    | with_reducible apply outSound_ite

theorem execRecoveryExit_sound {s : State} (hs : s.Sound) (frame : List Byte) : OutSound (execRecoveryExit frame s) := by
  unfold execRecoveryExit
  try dsimp only
  repeat' first
    | with_reducible assumption | with_reducible apply State.recovery_sound | with_reducible apply State.sysReset_sound
    | with_reducible apply State.setFld_sound | with_reducible apply State.recoveryOut_sound | with_reducible apply outSound_next
    | with_reducible apply sound_ite | with_reducible apply outSound_ite | with_reducible apply sound_foldl | with_reducible intro _ _ _ _

theorem execAc0FreezeTimer_sound {s : State} (hs : s.Sound) : OutSound (execAc0FreezeTimer s) := by
  unfold execAc0FreezeTimer
  try dsimp only
  repeat' first
    | with_reducible assumption | with_reducible apply State.sysReset_sound | with_reducible apply outSound_next
    | with_reducible apply sound_ite | with_reducible apply outSound_ite

theorem State.haltCut_sound {s : State} (hs : s.Sound) : (State.haltCut s).Sound := by
  unfold State.haltCut
  try dsimp only
  repeat' first
    | with_reducible assumption | with_reducible apply State.ckptCut_sound | with_reducible apply State.cutAxes_sound
    | with_reducible apply State.cutLoops_sound | with_reducible apply State.putCut_sound | with_reducible apply State.ckptStart_sound
    | with_reducible apply State.cutProg_sound | with_reducible apply outSound_next | with_reducible apply sound_ite
    | with_reducible apply outSound_ite | with_reducible apply sound_foldl | with_reducible intro _ _ _ _ | with_reducible intro _ _ _
    | with_reducible intro _ _ | with_reducible apply sound_ite_snd | with_reducible refine sound_of_snd (by assumption) ?_
    | with_reducible refine sound_of_fst (by assumption) ?_ | with_reducible refine sound_of_trd (by assumption) ?_
    | with_reducible apply sound_foldl_fst | with_reducible apply sound_foldl_snd | split

theorem execBrownOut_sound {s : State} (hs : s.Sound) : OutSound (execBrownOut s) := by
  unfold execBrownOut
  try dsimp only
  repeat' first
    | with_reducible assumption | with_reducible apply State.ioReset_sound | with_reducible apply State.haltCut_sound
    | with_reducible apply State.writeShadow_sound | with_reducible apply State.setRpc_sound | with_reducible apply outSound_next
    | with_reducible apply sound_ite | with_reducible apply outSound_ite

theorem execResetRelease_sound {s : State} (hs : s.Sound) (sw21 : Bool) (ms : Nat) (u : Unit) : OutSound (execResetRelease sw21 ms u s) := by
  unfold execResetRelease
  try dsimp only
  repeat' first
    | with_reducible assumption | with_reducible apply State.bringUp_sound | with_reducible apply outSound_next
    | with_reducible apply sound_ite | with_reducible apply outSound_ite | with_reducible apply sound_foldl | with_reducible intro _ _ _ _
    | with_reducible intro _ _ _ | with_reducible intro _ _ | with_reducible apply sound_ite_snd
    | with_reducible refine sound_of_snd (by assumption) ?_ | with_reducible refine sound_of_fst (by assumption) ?_
    | with_reducible refine sound_of_trd (by assumption) ?_ | with_reducible apply sound_foldl_fst | with_reducible apply sound_foldl_snd
    | split

theorem execClockGoodReturn_sound {s : State} (hs : s.Sound) (d : Fin 32) : OutSound (execClockGoodReturn d s) := by
  unfold execClockGoodReturn
  try dsimp only
  repeat' first
    | with_reducible assumption | with_reducible apply State.setFld_sound | with_reducible apply outSound_next
    | with_reducible apply sound_ite | with_reducible apply outSound_ite

theorem execRecoveryStore_sound {s : State} (hs : s.Sound) (frame : List Byte) (c : ImgContent) (u : Unit) : OutSound (execRecoveryStore frame c u s) := by
  unfold execRecoveryStore
  try dsimp only
  repeat' first
    | with_reducible assumption | with_reducible apply State.recovery_sound | with_reducible apply State.recoveryOut_sound
    | with_reducible apply State.fwRefused_sound | with_reducible apply State.fwStore_sound
    | with_reducible apply State.recoveryImage_sound | with_reducible apply outSound_next | with_reducible apply sound_ite
    | with_reducible apply outSound_ite | with_reducible apply sound_foldl | with_reducible intro _ _ _ _

theorem execDomainClockCheckDone_sound {s : State} (hs : s.Sound) (d : Fin 32) (ok : Bool) : OutSound (execDomainClockCheckDone d ok s) := by
  unfold execDomainClockCheckDone
  try dsimp only
  repeat' first
    | with_reducible assumption | with_reducible apply State.domainTested_sound | with_reducible apply outSound_next
    | with_reducible apply sound_foldl | with_reducible intro _ _ _ _ | with_reducible intro _ _ _ | with_reducible intro _ _
    | with_reducible apply sound_ite_snd | with_reducible refine sound_of_snd (by assumption) ?_
    | with_reducible refine sound_of_fst (by assumption) ?_ | with_reducible refine sound_of_trd (by assumption) ?_
    | with_reducible apply sound_foldl_fst | with_reducible apply sound_foldl_snd | split | dsimp only | simp only [sound_mk, sound_mk_evl]

theorem execObCommitDone_sound {s : State} (hs : s.Sound) (ok : Bool) : OutSound (execObCommitDone ok s) := by
  unfold execObCommitDone
  try dsimp only
  repeat' first
    | with_reducible assumption | with_reducible apply State.setRpc_sound | with_reducible apply State.setFld_sound
    | with_reducible apply State.wrList_sound | with_reducible apply State.freshNat_sound | with_reducible apply State.wrMem_sound
    | with_reducible apply outSound_next | with_reducible apply sound_ite | with_reducible apply outSound_ite
    | with_reducible apply sound_foldl | with_reducible intro _ _ _ _ | with_reducible intro _ _ _ | with_reducible intro _ _
    | with_reducible apply sound_ite_snd | with_reducible refine sound_of_snd (by assumption) ?_
    | with_reducible refine sound_of_fst (by assumption) ?_ | with_reducible refine sound_of_trd (by assumption) ?_
    | with_reducible apply sound_foldl_fst | with_reducible apply sound_foldl_snd | split | dsimp only | simp only [sound_mk, sound_mk_evl]

theorem execVinDipClear_sound {s : State} (hs : s.Sound) (mv : BitVec 16) : OutSound (execVinDipClear mv s) := by
  unfold execVinDipClear
  try dsimp only
  repeat' first
    | with_reducible assumption | with_reducible apply State.setFld_sound | with_reducible apply State.rpcIrq_sound
    | with_reducible apply State.log_sound | with_reducible apply State.setRpc_sound | with_reducible apply State.recModule_sound
    | with_reducible apply State.dipUnused_sound | with_reducible apply outSound_next | with_reducible apply sound_ite
    | with_reducible apply outSound_ite | with_reducible apply sound_foldl | with_reducible intro _ _ _ _ | with_reducible intro _ _ _
    | with_reducible intro _ _ | with_reducible apply sound_ite_snd | with_reducible refine sound_of_snd (by assumption) ?_
    | with_reducible refine sound_of_fst (by assumption) ?_ | with_reducible refine sound_of_trd (by assumption) ?_
    | with_reducible apply sound_foldl_fst | with_reducible apply sound_foldl_snd | split | dsimp only | simp only [sound_mk, sound_mk_evl]

theorem execStartTimerExpire_sound {s : State} (hs : s.Sound) : OutSound (execStartTimerExpire s) := by
  unfold execStartTimerExpire
  try dsimp only
  repeat' first
    | with_reducible assumption | with_reducible apply State.log_sound | with_reducible apply State.sysReset_sound
    | with_reducible apply State.setRpc_sound | with_reducible apply outSound_next | with_reducible apply sound_ite
    | with_reducible apply outSound_ite | with_reducible apply sound_foldl | with_reducible intro _ _ _ _ | with_reducible intro _ _ _
    | with_reducible intro _ _ | with_reducible apply sound_ite_snd | with_reducible refine sound_of_snd (by assumption) ?_
    | with_reducible refine sound_of_fst (by assumption) ?_ | with_reducible refine sound_of_trd (by assumption) ?_
    | with_reducible apply sound_foldl_fst | with_reducible apply sound_foldl_snd | split | dsimp only | simp only [sound_mk, sound_mk_evl]

end Sys2Proof.Machine
end

