-- ==== Sys2Proof/Laws/SoundBus.lean ====
section
/-! SUPPORT. The operations and commands of Machine/Bus.lean keep a sound state sound. -/
namespace Sys2Proof.Machine

theorem State.busErr_sound {s : State} (hs : s.Sound) : (State.busErr s).Sound := by
  unfold State.busErr
  try dsimp only
  repeat' first
    | with_reducible assumption | with_reducible apply State.setBus_sound

theorem State.busOk_sound {s : State} (hs : s.Sound) (v : Nat) : (State.busOk s v).Sound := by
  unfold State.busOk
  try dsimp only
  repeat' first
    | with_reducible assumption | with_reducible apply State.setBus_sound

theorem State.after_sound {s : State} (hs : s.Sound) {o : Host.Outcome State Fault Refusal} (ho : OutSound o) : (s.after o).Sound := by
  unfold State.after
  split
  · exact ho _ rfl
  · exact hs
  · exact hs

theorem State.plainWrite_sound {s : State} (hs : s.Sound) (d : RegDesc) (a : Nat) (v : Nat) : (State.plainWrite s d a v).Sound := by
  unfold State.plainWrite
  try dsimp only
  repeat' first
    | with_reducible assumption | with_reducible apply State.setNum_sound

/-- Every command of a list keeps a sound state sound. -/
def CmdsSound (l : List (Nat × (State → State))) : Prop := ∀ e ∈ l, ∀ s : State, s.Sound → (e.2 s).Sound
theorem CmdsSound.nil : CmdsSound [] := fun _ h => by cases h
theorem CmdsSound.cons {k : Nat} {f : State → State} {l : List (Nat × (State → State))} (hf : ∀ s : State, s.Sound → (f s).Sound) (hl : CmdsSound l) :
    CmdsSound ((k, f) :: l) := by
  intro e h
  rcases List.mem_cons.mp h with rfl | h
  · exact hf
  · exact hl e h
theorem State.bitCmds_sound {s : State} (hs : s.Sound) (v : Nat) {l : List (Nat × (State → State))} (hl : CmdsSound l) : (s.bitCmds v l).Sound := by
  unfold State.bitCmds
  induction l generalizing s with
  | nil => exact hs
  | cons e l ih =>
    refine ih ?_ (fun e h => hl e (List.mem_cons_of_mem _ h))
    dsimp only
    split
    · exact hl e (List.mem_cons_self ..) s hs
    · exact hs

theorem State.codeCmd_sound {s : State} (hs : s.Sound) (k : Nat) {l : List (Nat × (State → State))} (hl : CmdsSound l) : (s.codeCmd k l).Sound := by
  unfold State.codeCmd
  split
  · rename_i e he
    exact hl e (List.mem_of_find?_eq_some he) s hs
  · exact hs

theorem State.writeAxis_sound {s : State} (hs : s.Sound) (n : Nat) (j : Nat) (v : Nat) : (State.writeAxis s n j v).Sound := by
  unfold State.writeAxis
  try dsimp only
  repeat' first
    | with_reducible assumption | with_reducible apply State.codeCmd_sound | with_reducible apply State.after_sound
    | with_reducible apply execAxisEnable_sound | with_reducible apply execAxisDisable_sound | with_reducible apply execAxisMove_sound
    | with_reducible apply State.axRefuse_sound | with_reducible apply execAxisStop_sound | with_reducible apply execAxisHome_sound
    | with_reducible apply execAxisGear_sound | with_reducible apply execAxisGearSet_sound | with_reducible apply execAxisUngear_sound
    | with_reducible apply execAxisClear_sound | with_reducible apply execStageReadmit_sound | with_reducible apply CmdsSound.cons
    | exact CmdsSound.nil | with_reducible apply outSound_next | with_reducible apply sound_ite | with_reducible apply outSound_ite
    | with_reducible apply sound_foldl | with_reducible intro _ _ _ _ | with_reducible intro _ _ _ | with_reducible intro _ _
    | with_reducible apply sound_ite_snd | with_reducible refine sound_of_snd (by assumption) ?_
    | with_reducible refine sound_of_fst (by assumption) ?_ | with_reducible refine sound_of_trd (by assumption) ?_
    | with_reducible apply sound_foldl_fst | with_reducible apply sound_foldl_snd | split

theorem State.writeCrew_sound {s : State} (hs : s.Sound) (n : Fin 9) (o : Nat) (d : RegDesc) (a : Nat) (v : Nat) : (State.writeCrew s n o d a v).Sound := by
  unfold State.writeCrew
  try dsimp only
  repeat' first
    | with_reducible assumption | with_reducible apply State.after_sound | with_reducible apply execCrewReadmit_sound
    | with_reducible apply execCrewForceRetire_sound | with_reducible apply execCrewMigrate_sound
    | with_reducible apply execLsmClrCounts_sound | with_reducible apply State.plainWrite_sound | with_reducible apply State.bitCmds_sound
    | with_reducible apply execCoxClrDepthMax_sound | with_reducible apply execCoxClrCtxCounts_sound
    | with_reducible apply execCoxClrTotals_sound | with_reducible apply execDpDone_sound | with_reducible apply State.setNum_sound
    | with_reducible apply execParamCommit_sound | with_reducible apply execParamClear_sound
    | with_reducible apply execLoopModeRequest_sound | with_reducible apply execLoopFbClr_sound | with_reducible apply State.setLw_sound
    | with_reducible apply execRepAction_sound | with_reducible apply State.writeAxis_sound | with_reducible apply execCdmReadmit_sound
    | with_reducible apply execCdmGo_sound | with_reducible apply execCdmAbort_sound | with_reducible apply execCdmResume_sound
    | with_reducible apply CmdsSound.cons | exact CmdsSound.nil | with_reducible apply outSound_next | with_reducible apply sound_ite
    | with_reducible apply outSound_ite | with_reducible apply sound_foldl | with_reducible intro _ _ _ _ | with_reducible intro _ _ _
    | with_reducible intro _ _

theorem State.clearWrite_sound {s : State} (hs : s.Sound) (d : RegDesc) (a : Nat) (v : Nat) : (State.clearWrite s d a v).Sound := by
  unfold State.clearWrite
  try dsimp only
  repeat' first
    | with_reducible assumption | with_reducible apply State.setNum_sound

theorem State.writeRpc_sound {s : State} (hs : s.Sound) (m : Nat) (d : RegDesc) (a : Nat) (v : Nat) : (State.writeRpc s m d a v).Sound := by
  unfold State.writeRpc
  try dsimp only
  repeat' first
    | with_reducible assumption | with_reducible apply State.after_sound | with_reducible apply execDomainResetRequest_sound
    | with_reducible apply execRpcFollyRequest_sound | with_reducible apply execStartOk_sound | with_reducible apply execSysWdgKick_sound
    | with_reducible apply execCoreWdgKick_sound | with_reducible apply State.codeCmd_sound | with_reducible apply execEasyEnter_sound
    | with_reducible apply execParkEnter_sound | with_reducible apply execObCommit_sound | with_reducible apply State.clearWrite_sound
    | with_reducible apply State.plainWrite_sound | with_reducible apply State.kick_sound | with_reducible apply CmdsSound.cons
    | exact CmdsSound.nil | with_reducible apply outSound_next | with_reducible apply sound_ite | with_reducible apply outSound_ite
    | with_reducible apply sound_foldl | with_reducible intro _ _ _ _ | with_reducible intro _ _ _ | with_reducible intro _ _

theorem State.writeCtu_sound {s : State} (hs : s.Sound) (d : RegDesc) (a : Nat) (v : Nat) : (State.writeCtu s d a v).Sound := by
  unfold State.writeCtu
  try dsimp only
  repeat' first
    | with_reducible assumption | with_reducible apply State.after_sound | with_reducible apply execTimeSnapshot_sound
    | with_reducible apply execTimeIncWrite_sound | with_reducible apply execTimeSlewWrite_sound
    | with_reducible apply State.plainWrite_sound | with_reducible apply execTimeStepGo_sound | with_reducible apply State.clearWrite_sound
    | with_reducible apply execTimeStateWrite_sound | with_reducible apply State.setTime_sound | with_reducible apply State.setNum_sound
    | with_reducible apply execCtGroupGo_sound | with_reducible apply execCtRunWrite_sound | with_reducible apply outSound_next
    | with_reducible apply sound_ite | with_reducible apply outSound_ite | with_reducible apply sound_foldl | with_reducible intro _ _ _ _
    | with_reducible intro _ _ _ | with_reducible intro _ _ | with_reducible apply sound_ite_snd
    | with_reducible refine sound_of_snd (by assumption) ?_ | with_reducible refine sound_of_fst (by assumption) ?_
    | with_reducible refine sound_of_trd (by assumption) ?_ | with_reducible apply sound_foldl_fst | with_reducible apply sound_foldl_snd
    | split

theorem State.writeVlt_sound {s : State} (hs : s.Sound) (m : Nat) (d : RegDesc) (a : Nat) (v : Nat) : (State.writeVlt s m d a v).Sound := by
  unfold State.writeVlt
  try dsimp only
  repeat' first
    | with_reducible assumption | with_reducible apply State.codeCmd_sound | with_reducible apply State.after_sound
    | with_reducible apply execVltVerify_sound | with_reducible apply execVltStore_sound | with_reducible apply execVltEnrol_sound
    | with_reducible apply execVltRevoke_sound | with_reducible apply execVltImport_sound | with_reducible apply execVltLoadKey_sound
    | with_reducible apply execVltEraseKey_sound | with_reducible apply execVltArbAdvance_sound | with_reducible apply execVltAttest_sound
    | with_reducible apply execVltDbgChallenge_sound | with_reducible apply execVltDbgUnlock_sound
    | with_reducible apply execVltDbgLock_sound | with_reducible apply State.plainWrite_sound | with_reducible apply CmdsSound.cons
    | exact CmdsSound.nil | with_reducible apply outSound_next | with_reducible apply sound_ite | with_reducible apply outSound_ite
    | with_reducible apply sound_foldl | with_reducible intro _ _ _ _ | with_reducible intro _ _ _ | with_reducible intro _ _

theorem State.writeEvl_sound {s : State} (hs : s.Sound) (m : Nat) (d : RegDesc) (a : Nat) (v : Nat) : (State.writeEvl s m d a v).Sound := by
  unfold State.writeEvl
  try dsimp only
  repeat' first
    | with_reducible assumption | with_reducible apply State.after_sound | with_reducible apply execEvlDramEnable_sound
    | with_reducible apply State.plainWrite_sound | with_reducible apply execSwEventDetailWrite_sound
    | with_reducible apply execSwEventRaise_sound | with_reducible apply outSound_next | with_reducible apply sound_ite

theorem State.writeSeq_sound {s : State} (hs : s.Sound) (d : RegDesc) (a : Nat) (v : Nat) : (State.writeSeq s d a v).Sound := by
  unfold State.writeSeq
  try dsimp only
  repeat' first
    | with_reducible assumption | with_reducible apply State.codeCmd_sound | with_reducible apply State.after_sound
    | with_reducible apply execSeqLoad_sound | with_reducible apply execSeqUnload_sound | with_reducible apply execSeqStart_sound
    | with_reducible apply execSeqPause_sound | with_reducible apply execSeqHold_sound | with_reducible apply execSeqResume_sound
    | with_reducible apply execSeqAbort_sound | with_reducible apply execPflagSet_sound | with_reducible apply execPflagClr_sound
    | with_reducible apply State.plainWrite_sound | with_reducible apply CmdsSound.cons | exact CmdsSound.nil
    | with_reducible apply outSound_next | with_reducible apply sound_ite | with_reducible apply outSound_ite
    | with_reducible apply sound_foldl | with_reducible intro _ _ _ _ | with_reducible intro _ _ _ | with_reducible intro _ _

theorem State.writeRce_sound {s : State} (hs : s.Sound) (d : RegDesc) (a : Nat) (v : Nat) : (State.writeRce s d a v).Sound := by
  unfold State.writeRce
  try dsimp only
  repeat' first
    | with_reducible assumption | with_reducible apply State.setNum_sound | with_reducible apply State.after_sound
    | with_reducible apply execRecordStart_sound | with_reducible apply execRecordStop_sound
    | with_reducible apply execTriggerArmWrite_sound | with_reducible apply State.bitCmds_sound
    | with_reducible apply State.plainWrite_sound | with_reducible apply execCaptureArm_sound
    | with_reducible apply execCaptureDisarm_sound | with_reducible apply execCaptureForce_sound
    | with_reducible apply execCaptureRelease0_sound | with_reducible apply execCaptureRelease1_sound | with_reducible apply CmdsSound.cons
    | exact CmdsSound.nil | with_reducible apply outSound_next | with_reducible apply sound_ite | with_reducible apply outSound_ite
    | with_reducible apply sound_foldl | with_reducible intro _ _ _ _ | with_reducible intro _ _ _ | with_reducible intro _ _

theorem State.writeRmv_sound {s : State} (hs : s.Sound) (d : RegDesc) (a : Nat) (v : Nat) : (State.writeRmv s d a v).Sound := by
  unfold State.writeRmv
  try dsimp only
  repeat' first
    | with_reducible assumption | with_reducible apply State.plainWrite_sound | with_reducible apply State.bitCmds_sound
    | with_reducible apply State.after_sound | with_reducible apply execRmvGo_sound | with_reducible apply execRmvAbort_sound
    | with_reducible apply execRmvResume_sound | with_reducible apply CmdsSound.cons | exact CmdsSound.nil
    | with_reducible apply outSound_next | with_reducible apply sound_ite | with_reducible apply outSound_ite
    | with_reducible apply sound_foldl | with_reducible intro _ _ _ _ | with_reducible intro _ _ _ | with_reducible intro _ _

theorem State.writeAfe_sound {s : State} (hs : s.Sound) (d : RegDesc) (a : Nat) (v : Nat) : (State.writeAfe s d a v).Sound := by
  unfold State.writeAfe
  try dsimp only
  repeat' first
    | with_reducible assumption | with_reducible apply State.after_sound | with_reducible apply execTdacReadmit_sound
    | with_reducible apply execConverterReadmit_sound | with_reducible apply State.plainWrite_sound
    | with_reducible apply State.codeCmd_sound | with_reducible apply execCalStart_sound | with_reducible apply execCalCaptureLo_sound
    | with_reducible apply execCalCaptureHi_sound | with_reducible apply execCalCommit_sound | with_reducible apply execCalAbort_sound
    | with_reducible apply execCalRevert_sound | with_reducible apply execTdacDiagRequest_sound | with_reducible apply CmdsSound.cons
    | exact CmdsSound.nil | with_reducible apply outSound_next | with_reducible apply sound_ite | with_reducible apply outSound_ite
    | with_reducible apply sound_foldl | with_reducible intro _ _ _ _ | with_reducible intro _ _ _ | with_reducible intro _ _
    | with_reducible apply sound_ite_snd | with_reducible refine sound_of_snd (by assumption) ?_
    | with_reducible refine sound_of_fst (by assumption) ?_ | with_reducible refine sound_of_trd (by assumption) ?_
    | with_reducible apply sound_foldl_fst | with_reducible apply sound_foldl_snd | split

theorem State.writeClo_sound {s : State} (hs : s.Sound) (d : RegDesc) (a : Nat) (v : Nat) : (State.writeClo s d a v).Sound := by
  unfold State.writeClo
  try dsimp only
  repeat' first
    | with_reducible assumption | with_reducible apply State.after_sound | with_reducible apply execCloReadmit_sound
    | with_reducible apply execCloClr_sound | with_reducible apply execHartGo_sound | with_reducible apply State.plainWrite_sound
    | with_reducible apply outSound_next | with_reducible apply sound_ite

theorem State.writePvm_sound {s : State} (hs : s.Sound) (d : RegDesc) (a : Nat) (v : Nat) : (State.writePvm s d a v).Sound := by
  unfold State.writePvm
  try dsimp only
  repeat' first
    | with_reducible assumption | with_reducible apply State.mbGo_sound | with_reducible apply State.plainWrite_sound
    | with_reducible apply outSound_next | with_reducible apply sound_ite

theorem State.writeCyc_sound {s : State} (hs : s.Sound) (m : Nat) (d : RegDesc) (a : Nat) (v : Nat) : (State.writeCyc s m d a v).Sound := by
  unfold State.writeCyc
  try dsimp only
  repeat' first
    | with_reducible assumption | with_reducible apply State.codeCmd_sound | with_reducible apply State.after_sound
    | with_reducible apply execCycLoad_sound | with_reducible apply execCycStartWarm_sound | with_reducible apply execCycStartCold_sound
    | with_reducible apply execCycStop_sound | with_reducible apply execCycOnlineChange_sound | with_reducible apply execCycSwitch_sound
    | with_reducible apply execCycDone_sound | with_reducible apply execCycForceAck_sound | with_reducible apply State.plainWrite_sound
    | with_reducible apply execCycForceWrite_sound | with_reducible apply CmdsSound.cons | exact CmdsSound.nil
    | with_reducible apply outSound_next | with_reducible apply sound_ite | with_reducible apply outSound_ite
    | with_reducible apply sound_foldl | with_reducible intro _ _ _ _ | with_reducible intro _ _ _ | with_reducible intro _ _

theorem State.writePlk_sound {s : State} (hs : s.Sound) (d : RegDesc) (a : Nat) (v : Nat) : (State.writePlk s d a v).Sound := by
  unfold State.writePlk
  try dsimp only
  repeat' first
    | with_reducible assumption | with_reducible apply State.codeCmd_sound | with_reducible apply State.after_sound
    | with_reducible apply execPlkHandover_sound | with_reducible apply execPlkForceTake_sound | with_reducible apply execPlkResync_sound
    | with_reducible apply execPlkReadmitLane0_sound | with_reducible apply execPlkReadmitLane1_sound
    | with_reducible apply State.plainWrite_sound | with_reducible apply CmdsSound.cons | exact CmdsSound.nil
    | with_reducible apply outSound_next | with_reducible apply sound_ite | with_reducible apply outSound_ite
    | with_reducible apply sound_foldl | with_reducible intro _ _ _ _ | with_reducible intro _ _ _ | with_reducible intro _ _

theorem State.writeCan_sound {s : State} (hs : s.Sound) (n : Fin 8) (d : RegDesc) (a : Nat) (v : Nat) : (State.writeCan s n d a v).Sound := by
  unfold State.writeCan
  try dsimp only
  repeat' first
    | with_reducible assumption | with_reducible apply State.after_sound | with_reducible apply execCanRecover_sound
    | with_reducible apply execCanReadmit_sound | with_reducible apply execCanRxbRel_sound | with_reducible apply execCanRxfAck_sound
    | with_reducible apply execCanTxRequest_sound | with_reducible apply State.freshNat_sound | with_reducible apply execCanTxCancel_sound
    | with_reducible apply execCanTxcAppend_sound | with_reducible apply execCanTxjAck_sound | with_reducible apply State.setFld_sound
    | with_reducible apply State.plainWrite_sound | with_reducible apply outSound_next | with_reducible apply sound_ite

theorem State.writeEth_sound {s : State} (hs : s.Sound) (n : Fin 6) (d : RegDesc) (a : Nat) (v : Nat) : (State.writeEth s n d a v).Sound := by
  unfold State.writeEth
  try dsimp only
  repeat' first
    | with_reducible assumption | with_reducible apply State.after_sound | with_reducible apply execEthFrxAck_sound
    | with_reducible apply execEthFtxGo_sound | with_reducible apply execEthReadmit_sound | with_reducible apply State.plainWrite_sound
    | with_reducible apply State.setNum64_sound | with_reducible apply outSound_next | with_reducible apply sound_ite
    | with_reducible apply outSound_ite | with_reducible apply sound_foldl | with_reducible intro _ _ _ _ | with_reducible intro _ _ _
    | with_reducible intro _ _ | with_reducible apply sound_ite_snd | with_reducible refine sound_of_snd (by assumption) ?_
    | with_reducible refine sound_of_fst (by assumption) ?_ | with_reducible refine sound_of_trd (by assumption) ?_
    | with_reducible apply sound_foldl_fst | with_reducible apply sound_foldl_snd | split

theorem State.regWrite_sound {s : State} (hs : s.Sound) (m : Nat) (d : RegDesc) (a : Nat) (v : Nat) : (State.regWrite s m d a v).Sound := by
  unfold State.regWrite
  try dsimp only
  repeat' first
    | with_reducible assumption | with_reducible apply State.writeCrew_sound | with_reducible apply State.writeRpc_sound
    | with_reducible apply State.writeCtu_sound | with_reducible apply State.after_sound | with_reducible apply execEncReadmit_sound
    | with_reducible apply State.codeCmd_sound | with_reducible apply execImlStage_sound | with_reducible apply execImlActivate_sound
    | with_reducible apply execImlReplace_sound | with_reducible apply execImlAbort_sound | with_reducible apply State.plainWrite_sound
    | with_reducible apply execFwlUnfreeze_sound | with_reducible apply execLinkReadmit_sound | with_reducible apply State.writeVlt_sound
    | with_reducible apply State.writeEvl_sound | with_reducible apply State.writeSeq_sound | with_reducible apply State.writeRce_sound
    | with_reducible apply State.writeRmv_sound | with_reducible apply State.writeAfe_sound | with_reducible apply State.writeClo_sound
    | with_reducible apply execVdrReadmit_sound | with_reducible apply State.writePvm_sound | with_reducible apply State.writeCyc_sound
    | with_reducible apply State.writePlk_sound | with_reducible apply State.writeCan_sound | with_reducible apply State.writeEth_sound
    | with_reducible apply CmdsSound.cons | exact CmdsSound.nil | with_reducible apply outSound_next | with_reducible apply sound_ite
    | with_reducible apply outSound_ite | with_reducible apply sound_foldl | with_reducible intro _ _ _ _ | with_reducible intro _ _ _
    | with_reducible intro _ _

theorem State.regRead_sound {s : State} (hs : s.Sound) (d : RegDesc) (a : Nat) : (State.regRead s d a).2.Sound := by
  unfold State.regRead
  try dsimp only
  repeat' first
    | with_reducible assumption | with_reducible apply State.setLatch_sound | with_reducible apply State.after_sound
    | with_reducible apply execVltRngRead_sound | with_reducible apply execPpsCaptureRead_sound | with_reducible apply execDinFifoPop_sound
    | with_reducible apply execEncIdxRead_sound | with_reducible apply execHartBurstRead_sound
    | with_reducible apply execCanRxbReadWord0_sound | with_reducible apply execCanRxbReadLast_sound
    | with_reducible apply execEthTxtsPop_sound | with_reducible apply execDpPop_sound | with_reducible apply outSound_next
    | with_reducible apply sound_ite | with_reducible apply outSound_ite | with_reducible apply sound_foldl | with_reducible intro _ _ _ _
    | with_reducible intro _ _ _ | with_reducible intro _ _ | with_reducible apply sound_ite_snd
    | with_reducible refine sound_of_snd (by assumption) ?_ | with_reducible refine sound_of_fst (by assumption) ?_
    | with_reducible refine sound_of_trd (by assumption) ?_ | with_reducible apply sound_foldl_fst | with_reducible apply sound_foldl_snd
    | split

end Sys2Proof.Machine
end

