-- ==== Sys2Proof/Laws/SoundAccess.lean ====
section
/-! SUPPORT. The operations and commands of Machine/Access.lean keep a sound state sound. -/
namespace Sys2Proof.Machine

theorem State.memWrite_sound {s : State} (hs : s.Sound) (m : Nat) (a : Nat) (n : Nat) (v : Nat) : (State.memWrite s m a n v).Sound := by
  unfold State.memWrite
  try dsimp only
  repeat' first
    | with_reducible assumption | with_reducible apply State.journalByte_sound | with_reducible apply State.wrMem_sound
    | with_reducible apply outSound_next | with_reducible apply sound_ite | with_reducible apply outSound_ite
    | with_reducible apply sound_foldl | with_reducible intro _ _ _ _ | with_reducible intro _ _ _

theorem State.memAccess_sound {s : State} (hs : s.Sound) (m : Nat) (k : Access) (a : Nat) (n : Nat) (v : Nat) (mask : Nat) (e : Ecc) : (State.memAccess s m k a n v mask e).Sound := by
  unfold State.memAccess
  try dsimp only
  repeat' first
    | with_reducible assumption | with_reducible apply State.busOk_sound | with_reducible apply State.memWrite_sound
    | with_reducible apply State.eccAt_sound | with_reducible apply State.busErr_sound | with_reducible apply outSound_next
    | with_reducible apply sound_ite

theorem State.crewAccess_sound {s : State} (hs : s.Sound) (m : Nat) (n : Nat) (k : Access) (a : Nat) (size : Nat) (v : Nat) (mask : Nat) (e : Ecc) : (State.crewAccess s m n k a size v mask e).Sound := by
  unfold State.crewAccess
  try dsimp only
  repeat' first
    | with_reducible assumption | with_reducible apply State.busErr_sound | with_reducible apply State.busOk_sound
    | with_reducible apply State.memAccess_sound | with_reducible apply State.log_sound | with_reducible apply outSound_next
    | with_reducible apply sound_ite

theorem State.unmapped_sound {s : State} (hs : s.Sound) (m : Nat) (a : Nat) : (State.unmapped s m a).Sound := by
  unfold State.unmapped
  try dsimp only
  repeat' first
    | with_reducible assumption | with_reducible apply State.busErr_sound | with_reducible apply State.log_sound

theorem State.regAccess_sound {s : State} (hs : s.Sound) (m : Nat) (k : Access) (a : Nat) (size : Nat) (v : Nat) (mask : Nat) (e : Ecc) : (State.regAccess s m k a size v mask e).Sound := by
  unfold State.regAccess
  try dsimp only
  repeat' first
    | with_reducible assumption | with_reducible apply State.busErr_sound | with_reducible apply State.busOk_sound
    | with_reducible apply State.regWrite_sound | with_reducible apply State.eccAt_sound | with_reducible apply State.regRead_sound
    | with_reducible apply outSound_next | with_reducible apply sound_ite | with_reducible apply outSound_ite
    | with_reducible apply sound_foldl | with_reducible intro _ _ _ _ | with_reducible intro _ _ _ | with_reducible intro _ _
    | with_reducible apply sound_ite_snd | with_reducible refine sound_of_snd (by assumption) ?_
    | with_reducible refine sound_of_fst (by assumption) ?_ | with_reducible refine sound_of_trd (by assumption) ?_
    | with_reducible apply sound_foldl_fst | with_reducible apply sound_foldl_snd | split

theorem State.plicAccess_sound {s : State} (hs : s.Sound) (k : Access) (a : Nat) (size : Nat) (v : Nat) (mask : Nat) : (State.plicAccess s k a size v mask).Sound := by
  unfold State.plicAccess
  try dsimp only
  repeat' first
    | with_reducible assumption | with_reducible apply State.busErr_sound | with_reducible apply State.busOk_sound
    | with_reducible apply State.plicWrite_sound | with_reducible apply State.plicRead_sound | with_reducible apply outSound_next
    | with_reducible apply sound_ite

theorem State.atPlace_sound {s : State} (hs : s.Sound) (p : Place) (m : Nat) (k : Access) (a : Nat) (size : Nat) (v : Nat) (mask : Nat) (e : Ecc) : (State.atPlace s p m k a size v mask e).Sound := by
  unfold State.atPlace
  try dsimp only
  repeat' first
    | with_reducible assumption | with_reducible apply State.busErr_sound | with_reducible apply State.memAccess_sound
    | with_reducible apply State.busOk_sound | with_reducible apply State.crewAccess_sound | with_reducible apply State.unmapped_sound
    | with_reducible apply State.regAccess_sound | with_reducible apply State.plicAccess_sound | with_reducible apply outSound_next
    | with_reducible apply sound_ite | with_reducible apply outSound_ite | with_reducible apply sound_foldl | with_reducible intro _ _ _ _
    | with_reducible intro _ _ _ | with_reducible intro _ _ | with_reducible apply sound_ite_snd
    | with_reducible refine sound_of_snd (by assumption) ?_ | with_reducible refine sound_of_fst (by assumption) ?_
    | with_reducible refine sound_of_trd (by assumption) ?_ | with_reducible apply sound_foldl_fst | with_reducible apply sound_foldl_snd
    | split

theorem State.viaAlias_sound {s : State} (hs : s.Sound) (n : Nat) (m : Nat) (k : Access) (a : Nat) (size : Nat) (v : Nat) (mask : Nat) (e : Ecc) : (State.viaAlias s n m k a size v mask e).Sound := by
  unfold State.viaAlias
  try dsimp only
  repeat' first
    | with_reducible assumption | with_reducible apply State.atPlace_sound | with_reducible apply State.busErr_sound
    | with_reducible apply State.busOk_sound | with_reducible apply outSound_next | with_reducible apply sound_ite
    | with_reducible apply outSound_ite | with_reducible apply sound_foldl | with_reducible intro _ _ _ _ | with_reducible intro _ _ _
    | with_reducible intro _ _ | with_reducible apply sound_ite_snd | with_reducible refine sound_of_snd (by assumption) ?_
    | with_reducible refine sound_of_fst (by assumption) ?_ | with_reducible refine sound_of_trd (by assumption) ?_
    | with_reducible apply sound_foldl_fst | with_reducible apply sound_foldl_snd | split | dsimp only | simp only [sound_mk, sound_mk_evl]

theorem State.perform_sound {s : State} (hs : s.Sound) (m : Nat) (k : Access) (a : Nat) (size : Nat) (v : Nat) (mask : Nat) (e : Ecc) : (State.perform s m k a size v mask e).Sound := by
  unfold State.perform
  try dsimp only
  repeat' first
    | with_reducible assumption | with_reducible apply State.atPlace_sound | with_reducible apply State.busErr_sound
    | with_reducible apply State.log_sound | with_reducible apply State.setMig_sound | with_reducible apply State.count_sound
    | with_reducible apply State.viaAlias_sound | with_reducible apply outSound_next | with_reducible apply sound_ite
    | with_reducible apply outSound_ite | with_reducible apply sound_foldl | with_reducible intro _ _ _ _ | with_reducible intro _ _ _
    | with_reducible intro _ _ | with_reducible apply sound_ite_snd | with_reducible refine sound_of_snd (by assumption) ?_
    | with_reducible refine sound_of_fst (by assumption) ?_ | with_reducible refine sound_of_trd (by assumption) ?_
    | with_reducible apply sound_foldl_fst | with_reducible apply sound_foldl_snd | split

theorem State.access_sound {s : State} (hs : s.Sound) (m : Nat) (k : Access) (a : Nat) (size : Nat) (v : Nat) (mask : Nat) (e : Ecc) (task : Option (Nat × Nat)) : (State.access s m k a size v mask e task).Sound := by
  unfold State.access
  try dsimp only
  repeat' first
    | with_reducible assumption | with_reducible apply State.perform_sound | with_reducible apply State.busErr_sound
    | with_reducible apply State.violate_sound | with_reducible apply outSound_next | with_reducible apply sound_ite

theorem State.releaseHeld_sound {s : State} (hs : s.Sound) (l : List HeldAcc) : (State.releaseHeld s l).Sound := by
  unfold State.releaseHeld
  try dsimp only
  repeat' first
    | with_reducible assumption | with_reducible apply State.perform_sound | with_reducible apply outSound_next
    | with_reducible apply sound_ite | with_reducible apply outSound_ite | with_reducible apply sound_foldl | with_reducible intro _ _ _ _
    | with_reducible intro _ _ _

theorem execMemoryAccess_sound {s : State} (hs : s.Sound) (src : Fin 160) (k : Access) (a : BitVec 40) (len : Fin 65) (v : BitVec 512) (e : Ecc) (task : Option (Fin 512 × Fin 2)) : OutSound (execMemoryAccess src k a len v e task s) := by
  unfold execMemoryAccess
  try dsimp only
  repeat' first
    | with_reducible assumption | with_reducible apply State.access_sound | with_reducible apply outSound_next

theorem execAliasAccess_sound {s : State} (hs : s.Sound) (src : Fin 160) (k : Access) (m : Fin 8) (mem : Bool) (o : BitVec 24) (len : Fin 65) (v : BitVec 512) (e : Ecc) : OutSound (execAliasAccess src k m mem o len v e s) := by
  unfold execAliasAccess
  try dsimp only
  repeat' first
    | with_reducible assumption | with_reducible apply State.access_sound | with_reducible apply outSound_next

theorem execRegisterWrite_sound {s : State} (hs : s.Sound) (src : Fin 160) (a : BitVec 40) (size : Fin 4) (v : BitVec 64) : OutSound (execRegisterWrite src a size v s) := by
  unfold execRegisterWrite
  try dsimp only
  repeat' first
    | with_reducible assumption | with_reducible apply State.access_sound | with_reducible apply outSound_next

end Sys2Proof.Machine
end

