-- ==== Sys2Proof/Laws/SoundMove.lean ====
section
/-! SUPPORT. The operations and commands of Machine/Move.lean keep a sound state sound. -/
namespace Sys2Proof.Machine

theorem State.bufferUe_sound {s : State} (hs : s.Sound) (a : Nat) : (State.bufferUe s a).Sound := by
  unfold State.bufferUe
  try dsimp only
  repeat' first
    | with_reducible assumption | with_reducible apply State.setNum64_sound | with_reducible apply State.count_sound
    | with_reducible apply State.log_sound | with_reducible apply State.setFld_sound

theorem State.cdmPoison_sound {s : State} (hs : s.Sound) (n : Nat) (ch : Nat) (a : Nat) : (State.cdmPoison s n ch a).Sound := by
  unfold State.cdmPoison
  try dsimp only
  repeat' first
    | with_reducible assumption | with_reducible apply State.cdmHalt_sound | with_reducible apply State.setNum_sound

theorem State.cdmFail_sound {s : State} (hs : s.Sound) (n : Nat) (ch : Nat) (a : Nat) : (State.cdmFail s n ch a).Sound := by
  unfold State.cdmFail
  try dsimp only
  repeat' first
    | with_reducible assumption | with_reducible apply State.count_sound | with_reducible apply State.setDma_sound
    | with_reducible apply State.logIf_sound | with_reducible apply State.setNum_sound | with_reducible apply State.transient_sound
    | with_reducible apply State.cdmHalt_sound | with_reducible apply outSound_next | with_reducible apply sound_ite

theorem State.cdmWritten_sound {s : State} (hs : s.Sound) (n : Nat) (ch : Nat) : (State.cdmWritten s n ch).Sound := by
  unfold State.cdmWritten
  try dsimp only
  repeat' first
    | with_reducible assumption | with_reducible apply State.setNum_sound | with_reducible apply State.setDma_sound
    | with_reducible apply State.setRbit_sound | with_reducible apply State.setCdmState_sound | with_reducible apply State.feedDone_sound
    | with_reducible apply outSound_next | with_reducible apply sound_ite

theorem State.cdmMove_sound {s : State} (hs : s.Sound) (n : Nat) (ch : Nat) (e : Ecc) (b : Ecc) : (State.cdmMove s n ch e b).Sound := by
  unfold State.cdmMove
  try dsimp only
  repeat' first
    | with_reducible assumption | with_reducible apply State.access_sound | with_reducible apply State.cdmPoison_sound
    | with_reducible apply State.cdmFail_sound | with_reducible apply State.eccCorrected_sound | with_reducible apply State.fatal_sound
    | with_reducible apply State.bufferUe_sound | with_reducible apply State.cdmWritten_sound | with_reducible apply outSound_next
    | with_reducible apply sound_ite

theorem State.cdmMoves_sound {x3 : State} (hx3 : x3.Sound) (n : Nat) (ch : Nat) (x0 : Nat) (x1 : Ecc) (x2 : Ecc) : (State.cdmMoves n ch x0 x1 x2 x3).Sound := by
  induction x0 generalizing x3 x1 x2 with
  | zero =>
    unfold State.cdmMoves
    try dsimp only
    repeat' first
      | with_reducible apply ih | with_reducible assumption | with_reducible apply State.cdmMove_sound | with_reducible apply outSound_next
      | with_reducible apply sound_ite | with_reducible apply outSound_ite | with_reducible apply sound_foldl
      | with_reducible intro _ _ _ _ | with_reducible intro _ _ _ | with_reducible intro _ _ | with_reducible apply sound_ite_snd
      | with_reducible refine sound_of_snd (by assumption) ?_ | with_reducible refine sound_of_fst (by assumption) ?_
      | with_reducible refine sound_of_trd (by assumption) ?_ | with_reducible apply sound_foldl_fst | with_reducible apply sound_foldl_snd
      | split | dsimp only | simp only [sound_mk, sound_mk_evl]
  | succ x0 ih =>
    unfold State.cdmMoves
    try dsimp only
    repeat' first
      | with_reducible apply ih | with_reducible assumption | with_reducible apply State.cdmMove_sound | with_reducible apply outSound_next
      | with_reducible apply sound_ite | with_reducible apply outSound_ite | with_reducible apply sound_foldl
      | with_reducible intro _ _ _ _ | with_reducible intro _ _ _ | with_reducible intro _ _ | with_reducible apply sound_ite_snd
      | with_reducible refine sound_of_snd (by assumption) ?_ | with_reducible refine sound_of_fst (by assumption) ?_
      | with_reducible refine sound_of_trd (by assumption) ?_ | with_reducible apply sound_foldl_fst | with_reducible apply sound_foldl_snd
      | split | dsimp only | simp only [sound_mk, sound_mk_evl]

theorem execCdmAccess_sound {s : State} (hs : s.Sound) (n : Fin 9) (e : Ecc) (b : Ecc) : OutSound (execCdmAccess n e b s) := by
  unfold execCdmAccess
  try dsimp only
  repeat' first
    | with_reducible assumption | with_reducible apply State.cdmMoves_sound | with_reducible apply State.setDmaLast_sound
    | with_reducible apply outSound_next | with_reducible apply sound_ite | with_reducible apply outSound_ite
    | with_reducible apply sound_foldl | with_reducible intro _ _ _ _ | with_reducible intro _ _ _ | with_reducible intro _ _
    | with_reducible apply sound_ite_snd | with_reducible refine sound_of_snd (by assumption) ?_
    | with_reducible refine sound_of_fst (by assumption) ?_ | with_reducible refine sound_of_trd (by assumption) ?_
    | with_reducible apply sound_foldl_fst | with_reducible apply sound_foldl_snd | split

theorem State.rmvWritten_sound {s : State} (hs : s.Sound) (c : Nat) (p : Nat) : (State.rmvWritten s c p).Sound := by
  unfold State.rmvWritten
  try dsimp only
  repeat' first
    | with_reducible assumption | with_reducible apply State.setFld_sound | with_reducible apply State.setNum_sound
    | with_reducible apply State.setRmv_sound | with_reducible apply outSound_next | with_reducible apply sound_ite

theorem State.rmvFail_sound {s : State} (hs : s.Sound) (c : Nat) : (State.rmvFail s c).Sound := by
  unfold State.rmvFail
  try dsimp only
  repeat' first
    | with_reducible assumption | with_reducible apply State.logIf_sound | with_reducible apply State.setRmv_sound
    | with_reducible apply State.transient_sound | with_reducible apply State.rmvHalt_sound | with_reducible apply outSound_next
    | with_reducible apply sound_ite

theorem State.rmvMove_sound {s : State} (hs : s.Sound) (c : Nat) (e : Ecc) (b : Ecc) : (State.rmvMove s c e b).Sound := by
  unfold State.rmvMove
  try dsimp only
  repeat' first
    | with_reducible assumption | with_reducible apply State.setFld_sound | with_reducible apply State.log_sound
    | with_reducible apply State.setRmv_sound | with_reducible apply State.rmvWritten_sound | with_reducible apply State.access_sound
    | with_reducible apply State.rmvHalt_sound | with_reducible apply State.rmvFail_sound | with_reducible apply State.eccCorrected_sound
    | with_reducible apply State.fatal_sound | with_reducible apply State.bufferUe_sound | with_reducible apply outSound_next
    | with_reducible apply sound_ite | with_reducible apply outSound_ite | with_reducible apply sound_foldl | with_reducible intro _ _ _ _
    | with_reducible intro _ _ _ | with_reducible intro _ _ | with_reducible apply sound_ite_snd
    | with_reducible refine sound_of_snd (by assumption) ?_ | with_reducible refine sound_of_fst (by assumption) ?_
    | with_reducible refine sound_of_trd (by assumption) ?_ | with_reducible apply sound_foldl_fst | with_reducible apply sound_foldl_snd
    | split

theorem State.rmvMoves_sound {x3 : State} (hx3 : x3.Sound) (c : Nat) (x0 : Nat) (x1 : Ecc) (x2 : Ecc) : (State.rmvMoves c x0 x1 x2 x3).Sound := by
  induction x0 generalizing x3 x1 x2 with
  | zero =>
    unfold State.rmvMoves
    try dsimp only
    repeat' first
      | with_reducible apply ih | with_reducible assumption | with_reducible apply State.rmvMove_sound | with_reducible apply outSound_next
      | with_reducible apply sound_ite | with_reducible apply outSound_ite | with_reducible apply sound_foldl
      | with_reducible intro _ _ _ _ | with_reducible intro _ _ _ | with_reducible intro _ _ | with_reducible apply sound_ite_snd
      | with_reducible refine sound_of_snd (by assumption) ?_ | with_reducible refine sound_of_fst (by assumption) ?_
      | with_reducible refine sound_of_trd (by assumption) ?_ | with_reducible apply sound_foldl_fst | with_reducible apply sound_foldl_snd
      | split | dsimp only | simp only [sound_mk, sound_mk_evl]
  | succ x0 ih =>
    unfold State.rmvMoves
    try dsimp only
    repeat' first
      | with_reducible apply ih | with_reducible assumption | with_reducible apply State.rmvMove_sound | with_reducible apply outSound_next
      | with_reducible apply sound_ite | with_reducible apply outSound_ite | with_reducible apply sound_foldl
      | with_reducible intro _ _ _ _ | with_reducible intro _ _ _ | with_reducible intro _ _ | with_reducible apply sound_ite_snd
      | with_reducible refine sound_of_snd (by assumption) ?_ | with_reducible refine sound_of_fst (by assumption) ?_
      | with_reducible refine sound_of_trd (by assumption) ?_ | with_reducible apply sound_foldl_fst | with_reducible apply sound_foldl_snd
      | split | dsimp only | simp only [sound_mk, sound_mk_evl]

theorem execRmvAccess_sound {s : State} (hs : s.Sound) (e : Ecc) (b : Ecc) : OutSound (execRmvAccess e b s) := by
  unfold execRmvAccess
  try dsimp only
  repeat' first
    | with_reducible assumption | with_reducible apply State.rmvMoves_sound | with_reducible apply State.setDmaLast_sound
    | with_reducible apply outSound_next | with_reducible apply sound_ite | with_reducible apply outSound_ite
    | with_reducible apply sound_foldl | with_reducible intro _ _ _ _ | with_reducible intro _ _ _ | with_reducible intro _ _
    | with_reducible apply sound_ite_snd | with_reducible refine sound_of_snd (by assumption) ?_
    | with_reducible refine sound_of_fst (by assumption) ?_ | with_reducible refine sound_of_trd (by assumption) ?_
    | with_reducible apply sound_foldl_fst | with_reducible apply sound_foldl_snd | split

end Sys2Proof.Machine
end

