-- ==== Sys2Proof/Laws/SoundRra.lean ====
section
/-! SUPPORT. The operations and commands of Machine/Rra.lean keep a sound state sound. -/
namespace Sys2Proof.Machine

theorem State.setRra_sound {s : State} (hs : s.Sound) (r : RraState) : (State.setRra s r).Sound := by
  unfold State.setRra
  try dsimp only
  repeat' first
    | with_reducible assumption | with_reducible apply outSound_next | with_reducible apply sound_ite | with_reducible apply outSound_ite
    | with_reducible apply sound_foldl | with_reducible intro _ _ _ _ | with_reducible intro _ _ _ | with_reducible intro _ _
    | with_reducible apply sound_ite_snd | with_reducible refine sound_of_snd (by assumption) ?_
    | with_reducible refine sound_of_fst (by assumption) ?_ | with_reducible refine sound_of_trd (by assumption) ?_
    | with_reducible apply sound_foldl_fst | with_reducible apply sound_foldl_snd | split | dsimp only | simp only [sound_mk, sound_mk_evl]

theorem State.rraAccept_sound {s : State} (hs : s.Sound) (key : Nat) (seq : Nat) : (State.rraAccept s key seq).Sound := by
  unfold State.rraAccept
  try dsimp only
  repeat' first
    | with_reducible assumption | with_reducible apply State.setRra_sound

theorem State.rraOp_sound {s : State} (hs : s.Sound) (op : List Nat) : (State.rraOp s op).2.2.Sound := by
  unfold State.rraOp
  try dsimp only
  repeat' first
    | with_reducible assumption | with_reducible apply State.access_sound | with_reducible apply outSound_next
    | with_reducible apply sound_ite | with_reducible apply outSound_ite | with_reducible apply sound_foldl | with_reducible intro _ _ _ _
    | with_reducible intro _ _ _ | with_reducible intro _ _ | with_reducible apply sound_ite_snd
    | with_reducible refine sound_of_snd (by assumption) ?_ | with_reducible refine sound_of_fst (by assumption) ?_
    | with_reducible refine sound_of_trd (by assumption) ?_ | with_reducible apply sound_foldl_fst | with_reducible apply sound_foldl_snd
    | split

theorem State.rraOps_sound {s : State} (hs : s.Sound) (x0 : List (List Nat)) : (State.rraOps s x0).2.Sound := by
  induction x0 generalizing s with
  | nil =>
    unfold State.rraOps
    try dsimp only
    repeat' first
      | with_reducible apply ih | with_reducible assumption | with_reducible apply State.rraOp_sound | with_reducible apply outSound_next
      | with_reducible apply sound_ite | with_reducible apply outSound_ite | with_reducible apply sound_foldl
      | with_reducible intro _ _ _ _ | with_reducible intro _ _ _ | with_reducible intro _ _ | with_reducible apply sound_ite_snd
      | with_reducible refine sound_of_snd (by assumption) ?_ | with_reducible refine sound_of_fst (by assumption) ?_
      | with_reducible refine sound_of_trd (by assumption) ?_ | with_reducible apply sound_foldl_fst | with_reducible apply sound_foldl_snd
      | split | dsimp only | simp only [sound_mk, sound_mk_evl]
  | cons hd tl ih =>
    unfold State.rraOps
    try dsimp only
    repeat' first
      | with_reducible apply ih | with_reducible assumption | with_reducible apply State.rraOp_sound | with_reducible apply outSound_next
      | with_reducible apply sound_ite | with_reducible apply outSound_ite | with_reducible apply sound_foldl
      | with_reducible intro _ _ _ _ | with_reducible intro _ _ _ | with_reducible intro _ _ | with_reducible apply sound_ite_snd
      | with_reducible refine sound_of_snd (by assumption) ?_ | with_reducible refine sound_of_fst (by assumption) ?_
      | with_reducible refine sound_of_trd (by assumption) ?_ | with_reducible apply sound_foldl_fst | with_reducible apply sound_foldl_snd
      | split | dsimp only | simp only [sound_mk, sound_mk_evl]

theorem State.rraAnswer_sound {s : State} (hs : s.Sound) (who : List Nat) (key : Nat) (seq : Nat) (nops : Nat) (result : Nat) (recs : List Nat) : (State.rraAnswer s who key seq nops result recs).Sound := by
  unfold State.rraAnswer
  try dsimp only
  repeat' first
    | with_reducible assumption | with_reducible apply State.emit_sound

theorem State.rraRun_sound {s : State} (hs : s.Sound) (who : List Nat) (l : List Nat) : (State.rraRun s who l).Sound := by
  unfold State.rraRun
  try dsimp only
  repeat' first
    | with_reducible assumption | with_reducible apply State.rraOps_sound | with_reducible apply State.rraAccept_sound
    | with_reducible apply State.rraAnswer_sound | with_reducible apply State.setRra_sound | with_reducible apply State.ethIrq_sound
    | with_reducible apply State.log_sound | with_reducible apply outSound_next | with_reducible apply sound_ite
    | with_reducible apply outSound_ite | with_reducible apply sound_foldl | with_reducible intro _ _ _ _ | with_reducible intro _ _ _
    | with_reducible intro _ _ | with_reducible apply sound_ite_snd | with_reducible refine sound_of_snd (by assumption) ?_
    | with_reducible refine sound_of_fst (by assumption) ?_ | with_reducible refine sound_of_trd (by assumption) ?_
    | with_reducible apply sound_foldl_fst | with_reducible apply sound_foldl_snd | split

theorem State.rraResume_sound {s : State} (hs : s.Sound) : (State.rraResume s).Sound := by
  unfold State.rraResume
  try dsimp only
  repeat' first
    | with_reducible assumption | with_reducible apply State.rraRun_sound | with_reducible apply State.setRra_sound
    | with_reducible apply outSound_next | with_reducible apply sound_ite | with_reducible apply outSound_ite
    | with_reducible apply sound_foldl | with_reducible intro _ _ _ _ | with_reducible intro _ _ _

theorem execRraRequest_sound {s : State} (hs : s.Sound) (ip : BitVec 32) (port : BitVec 16) (dg : List Byte) : OutSound (execRraRequest ip port dg s) := by
  unfold execRraRequest
  try dsimp only
  repeat' first
    | with_reducible assumption | with_reducible apply State.ethIrq_sound | with_reducible apply State.logPerSecond_sound
    | with_reducible apply State.count_sound | with_reducible apply State.setRra_sound | with_reducible apply State.rraRun_sound
    | with_reducible apply outSound_next | with_reducible apply sound_ite | with_reducible apply outSound_ite

end Sys2Proof.Machine
end

