-- ==== Sys2Proof/Laws/SoundCatch.lean ====
section
/-! SUPPORT. The operations and commands of Machine/Catch.lean keep a sound state sound. -/
namespace Sys2Proof.Machine

theorem State.dipStroke_sound {s : State} (hs : s.Sound) (m : Nat) (q : Nat) : (State.dipStroke s m q).Sound := by
  unfold State.dipStroke
  try dsimp only
  repeat' first
    | with_reducible assumption | with_reducible apply State.ckptCut_sound | with_reducible apply State.setRpc_sound
    | with_reducible apply outSound_next | with_reducible apply sound_ite

theorem State.strokeStart_sound {s : State} (hs : s.Sound) (m : Nat) (q : Nat) : (State.strokeStart s m q).Sound := by
  unfold State.strokeStart
  try dsimp only
  repeat' first
    | with_reducible assumption | with_reducible apply State.dipStroke_sound | with_reducible apply State.mirStroke_sound
    | with_reducible apply State.cutStroke_sound | with_reducible apply State.outputsStroke_sound
    | with_reducible apply State.seritDropout_sound | with_reducible apply State.connTick_sound | with_reducible apply outSound_next
    | with_reducible apply sound_ite

theorem State.redirect_sound {s : State} (hs : s.Sound) (m : Nat) (n : Nat) : (State.redirect s m n).Sound := by
  unfold State.redirect
  try dsimp only
  repeat' first
    | with_reducible assumption | with_reducible apply State.setInflight_sound

theorem State.succApply_sound {s : State} (hs : s.Sound) (h : ImgHdr) (hs : ImgHdr) (c : ImgContent) (cs : ImgContent) (base : ImgContent) : (State.succApply s h hs c cs base).Sound := by
  unfold State.succApply
  try dsimp only
  repeat' first
    | with_reducible assumption | with_reducible apply State.setRce_sound | with_reducible apply State.setImg_sound
    | with_reducible apply State.imgWrite_sound | with_reducible apply State.setNum_sound | with_reducible apply State.setNum64_sound
    | with_reducible apply State.coursesOn_sound | with_reducible apply State.extendMeas_sound | with_reducible apply outSound_next
    | with_reducible apply sound_ite | with_reducible apply outSound_ite | with_reducible apply sound_foldl | with_reducible intro _ _ _ _
    | with_reducible intro _ _ _

theorem State.rcpReplaced_sound {s : State} (hs : s.Sound) (m : Nat) (r : Nat) : (State.rcpReplaced s m r).Sound := by
  unfold State.rcpReplaced
  try dsimp only
  repeat' first
    | with_reducible assumption | with_reducible apply State.setRcpTo_sound | with_reducible apply State.seqForce_sound
    | with_reducible apply State.setSlot_sound | with_reducible apply outSound_next | with_reducible apply sound_ite

theorem State.replace_sound {s : State} (hs : s.Sound) : (State.replace s).Sound := by
  unfold State.replace
  try dsimp only
  repeat' first
    | with_reducible assumption | with_reducible apply State.redirect_sound | with_reducible apply State.mapCrew_sound
    | with_reducible apply State.copyStages_sound | with_reducible apply State.replLoops_sound | with_reducible apply State.succApply_sound
    | with_reducible apply State.setIml_sound | with_reducible apply State.rcpReplaced_sound | with_reducible apply State.chooseSpare_sound
    | with_reducible apply State.cycReplaced_sound | with_reducible apply outSound_next | with_reducible apply sound_ite
    | with_reducible apply outSound_ite | with_reducible apply sound_foldl | with_reducible intro _ _ _ _ | with_reducible intro _ _ _
    | with_reducible intro _ _ | with_reducible apply sound_ite_snd | with_reducible refine sound_of_snd (by assumption) ?_
    | with_reducible refine sound_of_fst (by assumption) ?_ | with_reducible refine sound_of_trd (by assumption) ?_
    | with_reducible apply sound_foldl_fst | with_reducible apply sound_foldl_snd | split

theorem State.completeHeld_sound {s : State} (hs : s.Sound) (l : List HeldAcc) : (State.completeHeld s l).Sound := by
  unfold State.completeHeld
  try dsimp only
  repeat' first
    | with_reducible assumption | with_reducible apply State.releaseHeld_sound | with_reducible apply State.rraResume_sound
    | with_reducible apply outSound_next | with_reducible apply sound_ite

theorem State.migrate_sound {s : State} (hs : s.Sound) : (State.migrate s).Sound := by
  unfold State.migrate
  try dsimp only
  repeat' first
    | with_reducible assumption | with_reducible apply State.completeHeld_sound | with_reducible apply State.domainReset_sound
    | with_reducible apply State.redirect_sound | with_reducible apply State.migSwitch_sound | with_reducible apply outSound_next
    | with_reducible apply sound_ite | with_reducible apply outSound_ite | with_reducible apply sound_foldl | with_reducible intro _ _ _ _
    | with_reducible intro _ _ _ | with_reducible intro _ _ | with_reducible apply sound_ite_snd
    | with_reducible refine sound_of_snd (by assumption) ?_ | with_reducible refine sound_of_fst (by assumption) ?_
    | with_reducible refine sound_of_trd (by assumption) ?_ | with_reducible apply sound_foldl_fst | with_reducible apply sound_foldl_snd
    | split

theorem State.sourceTokens_sound {s : State} (hs : s.Sound) (m : Nat) (q : Nat) : (State.sourceTokens s m q).Sound := by
  unfold State.sourceTokens
  try dsimp only
  repeat' first
    | with_reducible assumption | with_reducible apply State.emitToks_sound | with_reducible apply outSound_next
    | with_reducible apply sound_ite | with_reducible apply outSound_ite | with_reducible apply sound_foldl | with_reducible intro _ _ _ _
    | with_reducible intro _ _ _ | with_reducible intro _ _ | with_reducible apply sound_ite_snd
    | with_reducible refine sound_of_snd (by assumption) ?_ | with_reducible refine sound_of_fst (by assumption) ?_
    | with_reducible refine sound_of_trd (by assumption) ?_ | with_reducible apply sound_foldl_fst | with_reducible apply sound_foldl_snd
    | split | dsimp only | simp only [sound_mk, sound_mk_evl]

theorem State.axesCatch_sound {s : State} (hs : s.Sound) (m : Nat) (n : Nat) (pos : Nat) (q : Nat) : (State.axesCatch s m n pos q).Sound := by
  unfold State.axesCatch
  try dsimp only
  repeat' first
    | with_reducible assumption | with_reducible apply State.axCatch_sound | with_reducible apply outSound_next
    | with_reducible apply sound_ite | with_reducible apply outSound_ite | with_reducible apply sound_foldl | with_reducible intro _ _ _ _
    | with_reducible intro _ _ _

theorem State.crewCatch_sound {s : State} (hs : s.Sound) (m : Nat) (n : Nat) (q : Nat) : (State.crewCatch s m n q).Sound := by
  unfold State.crewCatch
  try dsimp only
  repeat' first
    | with_reducible assumption | with_reducible apply State.dropItem_sound | with_reducible apply State.coxCatch_sound
    | with_reducible apply State.lsmStroke_sound | with_reducible apply outSound_next | with_reducible apply sound_ite

theorem State.catchArrives_sound {s : State} (hs : s.Sound) (c : Catch) : (State.catchArrives s c).Sound := by
  unfold State.catchArrives
  try dsimp only
  repeat' first
    | with_reducible assumption | with_reducible apply State.sourceTokens_sound | with_reducible apply State.strokeStart_sound
    | with_reducible apply State.rceCatch_sound | with_reducible apply State.axesCatch_sound | with_reducible apply State.crewCatch_sound
    | with_reducible apply outSound_next | with_reducible apply sound_ite

theorem execCatchArrival_sound {s : State} (hs : s.Sound) (m : Fin 8) : OutSound (execCatchArrival m s) := by
  unfold execCatchArrival
  try dsimp only
  repeat' first
    | with_reducible assumption | with_reducible apply State.replace_sound | with_reducible apply State.migrate_sound
    | with_reducible apply State.catchArrives_sound | with_reducible apply State.setInflight_sound | with_reducible apply outSound_next
    | with_reducible apply sound_ite | with_reducible apply outSound_ite | with_reducible apply sound_foldl | with_reducible intro _ _ _ _
    | with_reducible intro _ _ _ | with_reducible intro _ _ | with_reducible apply sound_ite_snd
    | with_reducible refine sound_of_snd (by assumption) ?_ | with_reducible refine sound_of_fst (by assumption) ?_
    | with_reducible refine sound_of_trd (by assumption) ?_ | with_reducible apply sound_foldl_fst | with_reducible apply sound_foldl_snd
    | split

theorem State.settleHeld_sound {s : State} (hs : s.Sound) : (State.settleHeld s).Sound := by
  unfold State.settleHeld
  try dsimp only
  repeat' first
    | with_reducible assumption | with_reducible apply State.rraResume_sound | with_reducible apply State.completeHeld_sound
    | with_reducible apply State.setOwed_sound | with_reducible apply outSound_next | with_reducible apply sound_ite

theorem execTimeBaseTick_sound {s : State} (hs : s.Sound) : OutSound (execTimeBaseTick s) := by
  unfold execTimeBaseTick
  try dsimp only
  repeat' first
    | with_reducible assumption | with_reducible apply State.heatersFollow_sound | with_reducible apply State.settleHeld_sound
    | with_reducible apply State.tick_sound | with_reducible apply State.coxCycles_sound | with_reducible apply outSound_next

theorem execReplaceSwitch_sound {s : State} (hs : s.Sound) : OutSound (execReplaceSwitch s) := by
  unfold execReplaceSwitch
  try dsimp only
  repeat' first
    | with_reducible assumption | with_reducible apply State.replace_sound | with_reducible apply outSound_next
    | with_reducible apply sound_ite | with_reducible apply outSound_ite | with_reducible apply sound_foldl | with_reducible intro _ _ _ _
    | with_reducible intro _ _ _ | with_reducible intro _ _ | with_reducible apply sound_ite_snd
    | with_reducible refine sound_of_snd (by assumption) ?_ | with_reducible refine sound_of_fst (by assumption) ?_
    | with_reducible refine sound_of_trd (by assumption) ?_ | with_reducible apply sound_foldl_fst | with_reducible apply sound_foldl_snd
    | split

theorem execMigrationSwitch_sound {s : State} (hs : s.Sound) : OutSound (execMigrationSwitch s) := by
  unfold execMigrationSwitch
  try dsimp only
  repeat' first
    | with_reducible assumption | with_reducible apply State.migrate_sound | with_reducible apply outSound_next
    | with_reducible apply sound_ite | with_reducible apply outSound_ite | with_reducible apply sound_foldl | with_reducible intro _ _ _ _
    | with_reducible intro _ _ _ | with_reducible intro _ _ | with_reducible apply sound_ite_snd
    | with_reducible refine sound_of_snd (by assumption) ?_ | with_reducible refine sound_of_fst (by assumption) ?_
    | with_reducible refine sound_of_trd (by assumption) ?_ | with_reducible apply sound_foldl_fst | with_reducible apply sound_foldl_snd
    | split

end Sys2Proof.Machine
end

