-- ==== Sys2Proof/Laws/SoundDin.lean ====
section
/-! SUPPORT. The operations and commands of Machine/Din.lean keep a sound state sound. -/
namespace Sys2Proof.Machine

theorem State.refLatch_sound {s : State} (hs : s.Sound) (a : Nat) (d : Nat) (departs : Bool) : (State.refLatch s a d departs).Sound := by
  unfold State.refLatch
  try dsimp only
  repeat' first
    | with_reducible assumption | with_reducible apply State.setAxis_sound | with_reducible apply outSound_next
    | with_reducible apply sound_ite | with_reducible apply outSound_ite | with_reducible apply sound_foldl | with_reducible intro _ _ _ _
    | with_reducible intro _ _ _ | with_reducible intro _ _ | with_reducible apply sound_ite_snd
    | with_reducible refine sound_of_snd (by assumption) ?_ | with_reducible refine sound_of_fst (by assumption) ?_
    | with_reducible refine sound_of_trd (by assumption) ?_ | with_reducible apply sound_foldl_fst | with_reducible apply sound_foldl_snd
    | split

theorem execDinRawEdge_sound {s : State} (hs : s.Sound) (n : Fin 64) (level : Bool) : OutSound (execDinRawEdge n level s) := by
  unfold execDinRawEdge
  try dsimp only
  repeat' first
    | with_reducible assumption | with_reducible apply State.setRbit_sound | with_reducible apply State.refLatch_sound
    | with_reducible apply State.setDin_sound | with_reducible apply State.dinQualify_sound | with_reducible apply outSound_next
    | with_reducible apply sound_ite | with_reducible apply outSound_ite | with_reducible apply sound_foldl | with_reducible intro _ _ _ _
    | with_reducible intro _ _ _

theorem execDinQualify_sound {s : State} (hs : s.Sound) (n : Fin 64) : OutSound (execDinQualify n s) := by
  unfold execDinQualify
  try dsimp only
  repeat' first
    | with_reducible assumption | with_reducible apply State.dinQualify_sound | with_reducible apply outSound_next
    | with_reducible apply sound_ite | with_reducible apply outSound_ite | with_reducible apply sound_foldl | with_reducible intro _ _ _ _
    | with_reducible intro _ _ _ | with_reducible intro _ _ | with_reducible apply sound_ite_snd
    | with_reducible refine sound_of_snd (by assumption) ?_ | with_reducible refine sound_of_fst (by assumption) ?_
    | with_reducible refine sound_of_trd (by assumption) ?_ | with_reducible apply sound_foldl_fst | with_reducible apply sound_foldl_snd
    | split | dsimp only | simp only [sound_mk, sound_mk_evl]

end Sys2Proof.Machine
end

