-- ==== Sys2Proof/Laws/SoundHealth.lean ====
section
/-! SUPPORT. The operations and commands of Machine/Health.lean keep a sound state sound. -/
namespace Sys2Proof.Machine

theorem State.withOwner_sound {s : State} (hs : s.Sound) (r : Res) {f : State → State} (hf : ∀ s : State, s.Sound → (f s).Sound) :
    (s.withOwner r f).Sound := by
  have h1 := hf s hs
  unfold State.withOwner
  repeat' first
    | with_reducible assumption
    | with_reducible apply State.canHealth_sound
    | with_reducible apply State.ethHealth_sound
    | with_reducible apply State.laneHealth_sound
    | with_reducible apply State.linkHealth_sound
    | with_reducible apply State.pairRefresh_sound
    | with_reducible apply State.cloDrive_sound
    | with_reducible apply State.vdrDrive_sound
    | with_reducible apply State.rpcIrq_sound
    | with_reducible apply State.chooseSpare_sound
    | with_reducible apply State.encFaultHooks_sound
    | split

theorem State.readmitted_sound {s : State} (hs : s.Sound) (r : Res) : (State.readmitted s r).Sound := by
  unfold State.readmitted
  try dsimp only
  repeat' first
    | with_reducible assumption | with_reducible apply State.withOwner_sound | with_reducible apply State.anaTestOver_sound
    | with_reducible apply State.testPassed_sound | with_reducible apply State.setFldBit_sound
    | with_reducible apply State.groupCycle_sound | with_reducible apply outSound_next | with_reducible apply sound_ite
    | with_reducible apply outSound_ite | with_reducible apply sound_foldl | with_reducible intro _ _ _ _ | with_reducible intro _ _ _
    | with_reducible intro _ _ | with_reducible apply sound_ite_snd | with_reducible refine sound_of_snd (by assumption) ?_
    | with_reducible refine sound_of_fst (by assumption) ?_ | with_reducible refine sound_of_trd (by assumption) ?_
    | with_reducible apply sound_foldl_fst | with_reducible apply sound_foldl_snd | split

theorem State.anaTested_sound {s : State} (hs : s.Sound) (r : Res) : (State.anaTested s r).Sound := by
  unfold State.anaTested
  try dsimp only
  repeat' first
    | with_reducible assumption | with_reducible apply State.readmitted_sound | with_reducible apply State.freshNat_sound
    | with_reducible apply State.withOwner_sound | with_reducible apply State.anaTestOver_sound
    | with_reducible apply State.testFailed_sound | with_reducible apply outSound_next | with_reducible apply sound_ite
    | with_reducible apply outSound_ite | with_reducible apply sound_foldl | with_reducible intro _ _ _ _ | with_reducible intro _ _ _
    | with_reducible intro _ _ | with_reducible apply sound_ite_snd | with_reducible refine sound_of_snd (by assumption) ?_
    | with_reducible refine sound_of_fst (by assumption) ?_ | with_reducible refine sound_of_trd (by assumption) ?_
    | with_reducible apply sound_foldl_fst | with_reducible apply sound_foldl_snd | split | dsimp only | simp only [sound_mk, sound_mk_evl]

theorem execRetryWindowElapsed_sound {s : State} (hs : s.Sound) (r : Res) : OutSound (execRetryWindowElapsed r s) := by
  unfold execRetryWindowElapsed
  try dsimp only
  repeat' first
    | with_reducible assumption | with_reducible apply State.withOwner_sound | with_reducible apply State.windowElapsed_sound
    | with_reducible apply outSound_next | with_reducible apply sound_ite | with_reducible apply outSound_ite
    | with_reducible apply sound_foldl | with_reducible intro _ _ _ _ | with_reducible intro _ _ _ | with_reducible intro _ _

theorem execReadmitTestDone_sound {s : State} (hs : s.Sound) (r : Res) (code : BitVec 16) : OutSound (execReadmitTestDone r code s) := by
  unfold execReadmitTestDone
  try dsimp only
  repeat' first
    | with_reducible assumption | with_reducible apply State.crewTested_sound | with_reducible apply State.domainTested_sound
    | with_reducible apply State.anaTested_sound | with_reducible apply State.freshNat_sound | with_reducible apply State.withOwner_sound
    | with_reducible apply State.testFailed_sound | with_reducible apply State.readmitted_sound | with_reducible apply outSound_next
    | with_reducible apply sound_ite | with_reducible apply outSound_ite | with_reducible apply sound_foldl | with_reducible intro _ _ _ _
    | with_reducible intro _ _ _ | with_reducible intro _ _ | with_reducible apply sound_ite_snd
    | with_reducible refine sound_of_snd (by assumption) ?_ | with_reducible refine sound_of_fst (by assumption) ?_
    | with_reducible refine sound_of_trd (by assumption) ?_ | with_reducible apply sound_foldl_fst | with_reducible apply sound_foldl_snd
    | split

end Sys2Proof.Machine
end

