-- ==== Sys2Proof/Laws/SoundStep.lean ====
section
/-! SUPPORT. The operations and commands of Machine/Step.lean keep a sound state sound. -/
namespace Sys2Proof.Machine

theorem State.withFetchWord_sound {s : State} (hs : s.Sound) (nbits : Nat) (w : Nat) : (State.withFetchWord s nbits w).Sound := by
  unfold State.withFetchWord
  try dsimp only
  repeat' first
    | with_reducible assumption | with_reducible apply outSound_next | with_reducible apply sound_ite | with_reducible apply outSound_ite
    | with_reducible apply sound_foldl | with_reducible intro _ _ _ _ | with_reducible intro _ _ _ | with_reducible intro _ _
    | with_reducible apply sound_ite_snd | with_reducible refine sound_of_snd (by assumption) ?_
    | with_reducible refine sound_of_fst (by assumption) ?_ | with_reducible refine sound_of_trd (by assumption) ?_
    | with_reducible apply sound_foldl_fst | with_reducible apply sound_foldl_snd | split | dsimp only | simp only [sound_mk, sound_mk_evl]

end Sys2Proof.Machine
end

