-- ==== Sys2Proof/Tests/Slice0.lean ====
section
/-! SUPPORT. Tests of the model: WellFormed refuses an ill-formed term for each of its checks, the worked examples of the manual, and
for every statement with hypotheses, states and operands that meet them clause by clause. -/
set_option Elab.async false

namespace Sys2Proof.Machine

/-- The token of the manual's example (R500), with the TAG it gives. -/
def tok : Token := ⟨0x43CE4000, 0x013, 0, 0x9007, 0x7B080000⟩

/-- WellFormed refuses a link number between the links and the converter streams. -/
theorem test_wf_coxTokenArrival : Instr.wf (.coxTokenArrival 0 0 0 12 tok) = false := by decide +kernel

/-- WellFormed refuses a converter stream past the 20 converters. -/
theorem test_wf_rceToken : Instr.wf (.rceToken 0x114 tok) = false := by decide +kernel

/-- WellFormed refuses a link that is not there. -/
theorem test_wf_outputToken : Instr.wf (.outputToken 0 12 tok false) = false := by decide +kernel

/-- WellFormed refuses a link that is not there. -/
theorem test_wf_seritOutputToken : Instr.wf (.seritOutputToken 255 tok) = false := by decide +kernel

/-- WellFormed refuses a link that is not there. -/
theorem test_wf_stepConditionObserve : Instr.wf (.stepConditionObserve 0 12 tok) = false := by decide +kernel

/-- WellFormed refuses nanoseconds of a full second. -/
theorem test_wf_canTxMapToken : Instr.wf (.canTxMapToken 0 0 0 tok (some ⟨0, 1000000000, 0⟩)) = false := by decide +kernel

/-- WellFormed refuses a link that is not there. -/
theorem test_wf_cycStartCatch : Instr.wf (.cycStartCatch 0 [(12, tok)]) = false := by decide +kernel

/-- WellFormed refuses more than eight acquisitions. -/
theorem test_wf_coxRelease : Instr.wf (.coxRelease 0 0 (List.replicate 9 (0, 0))) = false := by decide +kernel

/-- WellFormed refuses a loop element past the 16-bit range. -/
theorem test_wf_loopUpdate : Instr.wf (.loopUpdate 0 0 [65536]) = false := by decide +kernel

/-- WellFormed refuses a signal past the 4096. -/
theorem test_wf_rowClose : Instr.wf (.rowClose 0 [4096]) = false := by decide +kernel

/-- WellFormed refuses a period of zero. -/
theorem test_wf_mainsCrossing : Instr.wf (.mainsCrossing 0 0) = false := by decide +kernel

/-- WellFormed refuses a code wider than 24 bits. -/
theorem test_wf_convEnd : Instr.wf (.convEnd 0 [2 ^ 23]) = false := by decide +kernel

/-- WellFormed refuses more bytes than the DLC says. -/
theorem test_wf_canFrameRx : Instr.wf (.canFrameRx 0 ⟨0, false, false, false, false, false, 1, [0, 0]⟩ ⟨0, 0, 0⟩) = false := by decide +kernel

/-- WellFormed refuses an FD remote frame. -/
theorem test_wf_canFrameRx_remoteFd : Instr.wf (.canFrameRx 0 ⟨0, false, true, false, true, false, 0, []⟩ ⟨0, 0, 0⟩) = false := by decide +kernel

/-- WellFormed refuses a fraction of 2^24. -/
theorem test_wf_canTxCancel : Instr.wf (.canTxCancel 0 0 (some ⟨0, 0, 2 ^ 24⟩)) = false := by decide +kernel

/-- WellFormed refuses seconds past 48 bits. -/
theorem test_wf_canTxComplete : Instr.wf (.canTxComplete 0 ⟨2 ^ 48, 0, 0⟩) = false := by decide +kernel

/-- WellFormed refuses nanoseconds of a full second. -/
theorem test_wf_canBusError : Instr.wf (.canBusError 0 .rx1 (some ⟨0, 1000000000, 0⟩)) = false := by decide +kernel

/-- WellFormed refuses nanoseconds of a full second. -/
theorem test_wf_canArbitrationLost : Instr.wf (.canArbitrationLost 0 ⟨0, 1000000000, 0⟩) = false := by decide +kernel

/-- WellFormed refuses a frame without its header. -/
theorem test_wf_ethFrameRx : Instr.wf (.ethFrameRx 0 (List.replicate 13 0) true none ⟨0, 0, 0⟩) = false := by decide +kernel

/-- WellFormed refuses eleven address bytes. -/
theorem test_wf_ethFrameTx : Instr.wf (.ethFrameTx 0 0 (List.replicate 11 0) 0 []) = false := by decide +kernel

/-- WellFormed refuses a container past 1500 bytes. -/
theorem test_wf_seritContainerRx : Instr.wf (.seritContainerRx 0 (List.replicate 1501 0)) = false := by decide +kernel

/-- WellFormed refuses a heartbeat past 1500 bytes. -/
theorem test_wf_heartbeatRx : Instr.wf (.heartbeatRx 0 (List.replicate 1501 0)) = false := by decide +kernel

/-- WellFormed refuses a frame past 9216 bytes. -/
theorem test_wf_mirrorFrameRx : Instr.wf (.mirrorFrameRx 0 (List.replicate 9217 0)) = false := by decide +kernel

/-- WellFormed refuses a datagram past 1472 bytes. -/
theorem test_wf_retxRequest : Instr.wf (.retxRequest (List.replicate 1473 0)) = false := by decide +kernel

/-- WellFormed refuses a datagram past 1472 bytes. -/
theorem test_wf_rraRequest : Instr.wf (.rraRequest 0 0 (List.replicate 1473 0)) = false := by decide +kernel

/-- WellFormed refuses an address past 40 bits. -/
theorem test_wf_eccScrub : Instr.wf (.eccScrub (2 ^ 40) .clean) = false := by decide +kernel

/-- WellFormed refuses a converter that is not there. -/
theorem test_wf_retryWindowElapsed : Instr.wf (.retryWindowElapsed (.conv 20)) = false := by decide +kernel

/-- WellFormed refuses a domain that is not there. -/
theorem test_wf_readmitTestDone : Instr.wf (.readmitTestDone (.domain 32) 0) = false := by decide +kernel

/-- WellFormed lets the same commands pass within their ranges. -/
theorem test_wf_accepts : Instr.wf (.rceToken 0x113 tok) = true ∧ Instr.wf (.convEnd 19 [2 ^ 23 - 1, -(2 ^ 23)]) = true ∧
    Instr.wf (.retxRequest (List.replicate 1472 0)) = true := by decide +kernel


/-- The TAG of the zone 3 thermocouple token (R500, example). -/
theorem test_tag : tok.ok = true ∧ tok.words = [0x43CE4000, 0x90070013, 0x7B080000] := by decide +kernel

/-- CSEQ of a catch on a 20 kHz crew (R47, example): the stroke index and the entry, and the position the CSEQ names. -/
def ct20k : State :=
  [(Reg.CT_PERIOD_LO 3, 50000), (Reg.CT_ENTRY_LO 3 1, 12500), (Reg.CT_ENTRY_LO 3 2, 25000), (Reg.CT_ENTRY_LO 3 3, 37500)].foldl
    (fun s p => s.setNum p.1 p.2) (((State.reset.setFld (F.CT_CFG_NENT 3) 4).setFld (F.CRS_CFG_EN 0) 1).setCourse 0 { State.reset.courseOf 0 with pos := 1700000000000037000 })

/-- The catch of the example stands at position 1 700 000 000 000 037 500. -/
theorem test_cseq : ct20k.cseqPos 3 0x7B080003 = 1700000000000037500 ∧ strokeOf 0x7B080003 = 32251904 ∧ cseqEntry 0x7B080003 = 3 := by
  decide +kernel

/-- The gear of the example (R263, R264), switched at master count 5 010. -/
def gear49 : Gear := Gear.switch ⟨4, ⟨3, 7, 1000, 0, 5000⟩, none, none⟩ 5 11 5010 0

/-- A ratio change on the wafer-lift gear (example): the commanded positions before, at and after the switch. -/
theorem test_gear : Ratio.pos ⟨3, 7, 1000, 0, 5000⟩ 5010 = 1004 + 2 / 7 ∧ gear49.pos 5010 = 1004 + 3 / 11 ∧ gear49.pos 5011 = 1004 + 8 / 11 ∧
    gear49.pos 5012 = 1005 + 2 / 11 ∧ gear49.pos 5009 = 1003 + 6 / 7 := by decide +kernel

/-- The stop of the lift axis (R258, example): 2 000 steps at A_STOP, and 1 500 steps in 75 ms at the raised deceleration. -/
theorem test_stop : stopDist (4 / 10 ^ 5) (4 / 10 ^ 13) 0 = 2000 ∧ stopDist (4 / 10 ^ 5) ((16 / 10 ^ 10) / 3000) 0 = 1500 ∧
    stopDur (4 / 10 ^ 5) ((16 / 10 ^ 10) / 3000) 0 = 75000000 := by decide +kernel

/-- The integral line of the zone 3 update (R165, example): 17.5 grows by eight units in the last place of binary32. -/
theorem test_integral : F32.fma (F32.ofRatio 8 100000) (F32.ofRatio 2025 10000) (F32.ofRatio 175 10) = F32.ofRatio (17 * 2 ^ 19 + 2 ^ 18 + 8) (2 ^ 19) := by
  decide +kernel

/-- CRC-32C of its check string. -/
theorem test_crc32c : crc32c [0x31, 0x32, 0x33, 0x34, 0x35, 0x36, 0x37, 0x38, 0x39] = 0xE3069283 := by decide +kernel

/-- SHA-384 of the message abc, the example of FIPS 180-4. -/
theorem test_sha384 : sha384 [0x61, 0x62, 0x63] =
    0xCB00753F45A35E8BB5A03D699AC65007272C32AB0EDED1631A8B605A43FF5BED8086072BA1E7CC2358BAECA134C825A7 := by decide +kernel

/-- The bits of the valve matrix (R422, example of conflicting gas lines): the row of the second valve, the bit of the first. -/
theorem test_conflict : parConflict [(0x29C02, 0x10)] 20 16 = true ∧ parConflict [(0x29E02, 0x01)] 16 20 = true ∧
    parConflict [(0x29D02, 0x20)] 21 18 = true ∧ parConflict [(0x29E82, 0x04)] 18 21 = true ∧ parConflict [(0x29C02, 0x10)] 21 16 = false := by
  decide +kernel

end Sys2Proof.Machine

namespace Sys2Proof.Machine
set_option maxRecDepth 100000
/-- Logical crew 7 runs on physical crew 8, whose domain is released. -/
def wCrew : State := (State.reset.setNum Reg.IML_CREWMAP 0x86543210).setFld (F.RPC_DOM_HELD 16) 0

/-- Axis 31 in a state of the axis. -/
def wAxis (st : Nat) : State := wCrew.setAxState 8 31 st

/-- An entry of context 511 of crew 8 is issued to a target. -/
def wIssued (target : Nat) : State :=
  (wCrew.setFld (F.COX_CTX_CFG_TARGET 8 511) target).setEntry 8 511 1 { MEntry.init with state := .issued, cseq := 64 }

/-- Controller CAN_7 runs. -/
def wCan : State := ((State.reset.setFld (F.CAN_CTRL_EN 7) 1).setFld (F.CAN_CTRL_MODE 7) 0).setFld (F.CAN_STATUS_STATE 7) 0

/-- CAN_7 with the frame of transmit buffer 31 requested. -/
def wTx : State := wCan.setRbit (Reg.TXB_PEND 7) 31 true

/-- The bytes of words at offsets of a parameter set. -/
def wParOf (l : List (Nat × Nat)) : List (Nat × Nat) :=
  l.flatMap (fun x => ((List.range 4).map (fun i => (x.1 + i, x.2 / 256 ^ i % 256))).filter (fun y => y.2 != 0))

/-- A parameter set that R407 accepts: nothing in use but the defaults it asks for. -/
def wPar : List (Nat × Nat) :=
  wParOf ([(0, 0x504E4D41), (4, 1), (8, parLen), (0x40, 0x640001), (0x44, 0x320001), (0x48, 0x320001), (0x4C, 0x320001), (0x50, 0x320001)] ++
    (List.range 16).flatMap (fun i => [(0x100 + 8 * i, 0x7019), (0x104 + 8 * i, 10)]))

/-- The public key of the owner of slot 0. -/
def wPub : List Nat := beBytes 97 0x04FBF96095915EB587390F850EC95B35F618AE121C72A70808AD8F9F4C261B602B63541743E395F7C778E52BB28C18DC83016A6FF3F72C9368326AD50A3BD148A53CD2213BB480E4730AD019DB87AE100995EC65DF011E19811A15DC9DDFC9AB3C

/-- A signed item: 64 bytes of header, the digest of the body, 16 bytes, the body and the signature; `w` at 0x78. -/
def wItem (hdr : List Nat) (digest : Nat) (body : List Nat) (w sig : Nat) : List Nat :=
  hdr ++ beBytes 48 digest ++ (leBytes 4 (0x80 + body.length) ++ leBytes 4 0 ++ leBytes 4 w ++ leBytes 4 0) ++ body ++ beBytes 96 sig

/-- A state whose slot 0 is taken by that owner. -/
def wOwner (s : State) : State :=
  (s.setFld ⟨Reg.VLT_STATUS, 0, 2⟩ 1).setVlt { s.vlt with pubs := [(0, wPub)], hashes := [(0, beBytes 48 0xE7EA5DEE60026FC100B51215F3F8897673FF1DB46B29397C5B7C9470AA3CD64D1C62EDB9F30247FF0FF2A725C13555A1)] }

/-- A program image without inputs and outputs, for logical crew 7. -/
def wProgImg : List Nat :=
  wItem (leBytes 4 0x474E4D41 ++ [1, 0, 0x80, 0] ++ leBytes 4 232 ++ leBytes 4 0x7200 ++ [0xB1, 0, 8, 0] ++ leBytes 4 0 ++ leBytes 8 5 ++ leBytes 8 0 ++
    leBytes 8 9 ++ leBytes 2 40 ++ leBytes 2 3 ++ [7, 3] ++ leBytes 2 0 ++ leBytes 8 0)
    0x7C2DB09D310ECE0B36D50C86E4C3E6641684948CD6FC03262B0D0ED91A6CFBC3CD5AFFD396C1F85FD0A109B103364B19 (List.replicate 8 0) 0x80
    0x621F265AB6ED625CD60C8A892393C748CAF8E5CEE593B001FB9187B1B245791DB1FF6487A69F0F3ED8E0EF57C3212FF57BC61507A121463FE399F6F24A9845A4051D1C22F9BB69DA906895CED99370E3E7291D1AF7615EE899A90D6E98443703

/-- The program of that image. -/
def wProg : Prog :=
  ⟨5, 0, 9, 40, 3, 7, 3, false, 0, 0, beBytes 48 0x7C2DB09D310ECE0B36D50C86E4C3E6641684948CD6FC03262B0D0ED91A6CFBC3CD5AFFD396C1F85FD0A109B103364B19, 8, 0, 0, [], [],
    ⟨(0, 64), (0, 0), (0, 0), (0, 0), (0, 0), [], [], true⟩⟩

/-- The program loader has accepted a LOAD of it. -/
def wLoading : State :=
  (((wOwner State.reset).setImg { State.reset.img with crews := 0x80, budget := [(7, ⟨50000, 0, 0, 0, 0, 0, []⟩)] }).wrList 0x1000000000 wProgImg).setCyc
    { CycState.init with loading := some (0x1000000000, 232) }

/-- A program image for crew 7 alone, id 7: every section once, the catch table and its course from the registers of `wContent`. -/
def wProgram : List Nat :=
  wItem ([65, 77, 78, 73, 1, 0, 128, 0, 97, 18, 0, 0, 18, 0, 0, 0, 0, 114, 0, 0, 177, 0, 8, 0, 0, 0, 0, 0, 128, 0, 0, 0, 7] ++ List.replicate 23 0 ++
    [255, 0, 0, 0, 0, 0, 0, 0])
    0x86859E642FE42806D236F879CD79A79CBC022904BA0906091A602B668A2C2E855D31746BF3AC12D06C281B757DEE30DE
    ([1, 0, 255, 0, 192, 1, 0, 0, 16, 1, 0, 0, 82, 17, 70, 100, 2, 0, 255, 0, 0, 3, 0, 0, 1, 0, 0, 0, 82, 208, 22, 160, 4, 0, 255, 0, 64, 3, 0,
    0, 20, 0, 0, 0, 216, 141, 243, 108, 5, 0, 255, 0, 128, 3, 0, 0, 64, 11, 0, 0, 201, 42, 39, 218, 32, 0, 255, 0, 192, 14, 0, 0, 16, 0, 0, 0,
    21, 146, 54, 32, 48, 0, 255, 0, 0, 15, 0, 0, 4, 0, 0, 0, 255, 255, 255, 255, 49, 0, 255, 0, 64, 15, 0, 0, 1, 0, 0, 0, 82, 208, 22, 160, 50,
    0, 255, 0, 128, 15, 0, 0, 1, 0, 0, 0, 82, 208, 22, 160, 51, 0, 255, 0, 192, 15, 0, 0, 1, 0, 0, 0, 82, 208, 22, 160, 52, 0, 255, 0, 0, 16, 0,
    0, 1, 0, 0, 0, 82, 208, 22, 160, 53, 0, 255, 0, 64, 16, 0, 0, 1, 0, 0, 0, 82, 208, 22, 160, 64, 0, 255, 0, 128, 16, 0, 0, 1, 0, 0, 0, 82,
    208, 22, 160, 3, 0, 7, 1, 192, 16, 0, 0, 1, 0, 0, 0, 82, 208, 22, 160, 16, 0, 7, 1, 0, 17, 0, 0, 1, 0, 0, 0, 82, 208, 22, 160, 17, 0, 7, 1,
    64, 17, 0, 0, 1, 0, 0, 0, 82, 208, 22, 160, 18, 0, 7, 1, 128, 17, 0, 0, 1, 0, 0, 0, 82, 208, 22, 160, 19, 0, 7, 1, 192, 17, 0, 0, 1, 0, 0,
    0, 82, 208, 22, 160, 33, 0, 7, 1, 0, 18, 0, 0, 1, 0, 0, 0, 82, 208, 22, 160] ++ List.replicate 272 0 ++ [80, 195, 0, 0, 224, 147, 4, 0, 136,
    19] ++ List.replicate 70 0 ++ [1] ++ List.replicate 63 0 ++ List.replicate 20 15 ++ List.replicate 2924 0 ++ [35, 113] ++ List.replicate 62
    0 ++ [255, 255, 255, 255] ++ List.replicate 60 0 ++ [1] ++ List.replicate 63 0 ++ [1] ++ List.replicate 63 0 ++ [1] ++ List.replicate 63 0
    ++ [1] ++ List.replicate 63 0 ++ [1] ++ List.replicate 63 0 ++ [1] ++ List.replicate 63 0 ++ [1] ++ List.replicate 63 0 ++ [1] ++
    List.replicate 63 0 ++ [1] ++ List.replicate 63 0 ++ [1] ++ List.replicate 63 0 ++ [1] ++ List.replicate 63 0 ++ [1])
    0 0x621F265AB6ED625CD60C8A892393C748CAF8E5CEE593B001FB9187B1B245791DB1FF6487A69F0F3ED8E0EF57C3212FF552A52A9290C5BC2C28B00AB6906CEEEE6B70BAE23E2BC856A021D0ACD728D644104862AF7538F5D95E717E87180B8801

/-- A partial image for crew 7: parent 7, successor 11. -/
def wPartial : List Nat :=
  wItem ([65, 77, 78, 73, 1, 0, 128, 0, 161, 2, 0, 0, 6, 0, 2, 0, 0, 114, 0, 0, 177, 0, 8, 0, 0, 0, 0, 0, 128, 0, 0, 0, 9, 0, 0, 0, 0, 0, 0, 0, 7, 0,
    0, 0, 0, 0, 0, 0, 11, 0, 0, 0, 0, 0, 0, 0, 7, 0, 0, 0, 0, 0, 0, 0])
    0x243F2AB9FE4D8EA55A48E35D0B3538968A192C31853507A4BC2A1DA08182035D8793F9D46F989DD3675D8567B610B52C
    ([3, 0, 7, 1, 0, 1, 0, 0, 1, 0, 0, 0, 82, 208, 22, 160, 16, 0, 7, 1, 64, 1, 0, 0, 1, 0, 0, 0, 82, 208, 22, 160, 17, 0, 7, 1, 128, 1, 0, 0, 1,
    0, 0, 0, 82, 208, 22, 160, 18, 0, 7, 1, 192, 1, 0, 0, 1, 0, 0, 0, 82, 208, 22, 160, 19, 0, 7, 1, 0, 2, 0, 0, 1, 0, 0, 0, 82, 208, 22, 160,
    33, 0, 7, 1, 64, 2, 0, 0, 1, 0, 0, 0, 82, 208, 22, 160] ++ List.replicate 32 0 ++ [1] ++ List.replicate 63 0 ++ [1] ++ List.replicate 63 0
    ++ [1] ++ List.replicate 63 0 ++ [1] ++ List.replicate 63 0 ++ [1] ++ List.replicate 63 0 ++ [1])
    0 0x621F265AB6ED625CD60C8A892393C748CAF8E5CEE593B001FB9187B1B245791DB1FF6487A69F0F3ED8E0EF57C3212FF5B08413D2D6FC42E8C6ED9EC24FC48EDD193BD659516C6165E60E01BEDADB6D3F6052676A8986890F877ADC1071CF4709

/-- What goes with it: course 0 runs, one catch in 100 000 of course; N and W of every class; the signal 0x123 recorded. -/
def wContent : ImgContent :=
  { tables := { ImgTables.empty with health := [((Res.crew 0).cls, (2, 1000))], budget := [(7, ⟨50000, 300000, 5000, 0, 0, 0, []⟩)], mir := ⟨State.reset.fld F.PLK_MIRROR_MDIV, 0, [], [], false⟩ }
    record := { RecImg.empty with sels := [(0x123, ⟨7, false, false, 0, 1, 1, 0, 0⟩)] }
    regs := [(Reg.CRS_CFG 0, 0x80000000), (Reg.CT_CFG 7, 0x100), (Reg.CT_PERIOD_LO 7, 100000)]
    crewRegs := [], crewMem := [], par := [255, 255, 255, 255], recRate := 0, lanA := 0, lanB := 0, mirror := 0 }

/-- A unit whose parameter set has the CRC of that image's, with the owner of slot 0. -/
def wUnit : State := wOwner (State.reset.setPvm { State.reset.pvm with par := [(0, 255), (1, 255), (2, 255), (3, 255)], valid := true })

/-- A recipe image for crew 7 with one END step. -/
def wRecipe : List Nat :=
  wItem ([65, 77, 78, 82, 1, 0, 128, 0, 0, 1, 0, 0, 1, 0, 0, 0, 0, 114, 0, 0, 177, 0, 8, 0, 0, 0, 0, 0, 128, 0, 0, 0, 5] ++ List.replicate 15 0 ++
    [255, 255, 255, 255] ++ List.replicate 12 0)
    0xDC53D31DBBD82C1DAF038C67D5EC53177BF9414214710E319408D66ECF2BACA41EE288145B5DC54DF637A939A584888F
    ([0, 0, 0, 0, 0, 0, 1, 0, 0, 16, 1] ++ List.replicate 13 0 ++ [255, 255, 255, 0, 0, 0, 0, 0])
    0 0x621F265AB6ED625CD60C8A892393C748CAF8E5CEE593B001FB9187B1B245791DB1FF6487A69F0F3ED8E0EF57C3212FF55B021C1FC82BE6539D70A4FF8771C5599731FFE207BB4B1A269B1856994D39E916EFA27322A380D85AEC5285037479D7

/-- The recipe of that image. -/
def wRcp : Recipe := ⟨5, 0, 0x80, none, false, 0, [⟨0, true, 0, 0, false, 0, 0, 1, 0, 1, 0, 0, [], none⟩]⟩

/-- A firmware image of kind 3 for core 2. -/
def wFirmware : List Nat :=
  wItem ([65, 77, 78, 87, 1, 0, 128, 0, 32, 1, 0, 0, 3, 4, 0, 0, 0, 114, 0, 0, 177, 0, 8] ++ List.replicate 9 0 ++ [1, 2, 3] ++ List.replicate 29 0)
    0x78B33DEF495D1529CCE70DB8C60C3857C569BE642F73F04C4B17DF40C2EB50DB0D40AA8D5065E0E16E2DAF1E619687F1
    (List.replicate 8 7 ++ List.replicate 56 0)
    0 0x621F265AB6ED625CD60C8A892393C748CAF8E5CEE593B001FB9187B1B245791DB1FF6487A69F0F3ED8E0EF57C3212FF5D62D9A1873B30A2C0F4ADAED12A382D150380BDF0FEA39FE56DA9B133AFAE9D6D453F63931C02227273A9D4D085F05F2

/-- An owner's record: kind, what stands from 0x10 on, signature; DEV_ID is 0. -/
def wRecord (kind : Nat) (body : List Nat) (sig : Nat) : List Nat :=
  leBytes 4 0x4F4E4D41 ++ leBytes 2 kind ++ List.replicate 10 0 ++ body ++ List.replicate (144 - body.length) 0 ++ beBytes 96 sig

/-- A record that enrols that owner in slot 0. -/
def wEnrol : List Nat := wRecord 1 (wPub)
  0x621F265AB6ED625CD60C8A892393C748CAF8E5CEE593B001FB9187B1B245791DB1FF6487A69F0F3ED8E0EF57C3212FF580AFBAA95B1FE934F655538ABE2615F40BE26F792D2354372D2158AA2B769BC8D9BDE20DD44D9EDF7F58CE5B4DC38494

/-- A record that revokes that owner. -/
def wRevoke : List Nat := wRecord 2 (beBytes 48 0xE7EA5DEE60026FC100B51215F3F8897673FF1DB46B29397C5B7C9470AA3CD64D1C62EDB9F30247FF0FF2A725C13555A1)
  0x621F265AB6ED625CD60C8A892393C748CAF8E5CEE593B001FB9187B1B245791DB1FF6487A69F0F3ED8E0EF57C3212FF55830AE09FE7B0863FDAF4FB77B41E8FC97891CE4A1D8C6445EAB09661095C533CE2AB4C559FE3B09A894EEC19E331FB6

/-- A record that imports host key 1. -/
def wImport1 : List Nat := wRecord 3 ([1, 1, 0, 0, 0, 0, 0, 0] ++ List.replicate 32 9 ++ List.replicate 12 8)
  0x621F265AB6ED625CD60C8A892393C748CAF8E5CEE593B001FB9187B1B245791DB1FF6487A69F0F3ED8E0EF57C3212FF59AD4EC1E35E9ED3907DD6E75B8C3228B23D96C91415787E6369FE2707F17357208B4CBF1AF33376ED8F08E9128F4670F

/-- A record that imports a content key. -/
def wImport2 : List Nat := wRecord 3 ([2, 0, 0, 0, 0, 0, 0, 0] ++ List.replicate 32 9)
  0x621F265AB6ED625CD60C8A892393C748CAF8E5CEE593B001FB9187B1B245791DB1FF6487A69F0F3ED8E0EF57C3212FF5251C1D9200E0BF0EBCE0B249AFE798291469126B7732BA3896DE2F3B02878BFCC3F5F1D359B3D1DC87DF0E1F9D6C45CB

/-- A record that unlocks scope 15 for 1440 minutes. -/
def wUnlock : List Nat := wRecord 4 (List.replicate 32 0 ++ [15, 0] ++ leBytes 2 1440)
  0x621F265AB6ED625CD60C8A892393C748CAF8E5CEE593B001FB9187B1B245791DB1FF6487A69F0F3ED8E0EF57C3212FF572C20164DF9FBFE13E91195110D70D65407DD7E0C8E1200845B8ADF629CCB0C028D3F323931763FD44E38405C9C4DAC4

/-- The vault is given bytes at 0x1000000000, with switches. -/
def wVaultOf (sw : Nat) (s : State) (l : List Nat) : State :=
  (((s.setFld F.PVM_SWITCH_SW sw).setFld F.VLT_ARG_HI_ADDR 0x10).setNum Reg.VLT_ARG_LEN l.length).wrList 0x1000000000 l

/-- The vault is given bytes at 0x1000000000, with the switch for the owner's records set. -/
abbrev wVault (s : State) (l : List Nat) : State := wVaultOf 0x20000 s l

/-- A recovery frame. -/
def wFrame (code seq : Nat) (l : List Nat) : List Byte :=
  let h := leBytes 4 0x554E4D41 ++ leBytes 4 code ++ leBytes 4 l.length ++ leBytes 4 seq ++ l
  (h ++ leBytes 4 (crc32c h)).map (BitVec.ofNat 8)

/-- Register access is on: folly 1, started. -/
def wFolly (s : State) : State := s.setRpc { s.rpc with folly := 1, pend := none }

/-- A register access datagram under host key 3 with one operation of zeros, its number `seq`. -/
def wDatagram (seq : Nat) : List Byte :=
  let h := leBytes 4 0x484E4D41 ++ [1, 0, 1, 3] ++ leBytes 8 seq ++ List.replicate 32 0
  (h ++ rraTag (List.replicate 32 7) (rraNonce 3 seq false) h).map (BitVec.ofNat 8)

/-- Host key 3 is there. -/
def wHost (s : State) : State := s.setVlt { s.vlt with pkeys := [(0x1003, List.replicate 32 7, [])] }

/-- The program is there and the unit in a state. -/
def wCyc (st : Nat) : State := (State.reset.setFld F.CYC_STATUS_STATE st).setCyc { CycState.init with cur := some wProg }

/-- Loop 127 of crew 8 with its word CFG. -/
def wLoop (cfg : Nat) : State := wCrew.setLw 8 127 0x4C (BitVec.ofNat 32 cfg)

/-- Ports ETH_0 to ETH_5 with their link up. -/
def wEth (n : Nat) : State := (State.reset.setFld (F.ETH_CTRL_EN n) 1).setFld (F.ETH_STATUS_LINK n) 1

/-- Mailbox `mb` is busy with a request. -/
def wMb (mb : Nat) (l : List Nat) : State :=
  (l.zipIdx.foldl (fun s x => s.setNum (Reg.PVM_MB_REQ mb x.2) x.1) State.reset).setFld (F.PVM_MB_STATUS_BUSY mb) 1

/-- A chain of 3 rows in slot 5. -/
def wChain : Chain := ⟨7, 2, 5, 100, 3, ⟨1, 2, 3⟩, ⟨1, 3, 3⟩, 0, false, false, false, false, none, none⟩

/-- The record engine with that chain or another. -/
def wRec (c : Chain) : State := State.reset.setRce { State.reset.rce with chain := some c }

/-- The armed set of set 15: valve 63 on. -/
def wSet : ArmedSet := ⟨15, 64, none, [(63, true)], State.reset.setDue none, false⟩

/-- A heartbeat that state `s` accepts: role, flags, epoch. -/
def wHb (s : State) (role flags epoch : Nat) : List Nat :=
  let h := leBytes 4 0x42484D41 ++ [1, 0, role, flags] ++ leBytes 2 s.partnerId ++ leBytes 2 s.ownId ++ leBytes 4 1 ++ leBytes 8 epoch ++
    List.replicate 12 0 ++ leBytes 4 (s.fld F.PLK_CFG_LEASE_MS) ++ List.replicate 20 0
  h ++ leBytes 4 (crc32c (pairKey s.ownId s.partnerId ++ h))

/-- A mirror fragment of type `k`. -/
def wFrag (k : Nat) (body : List Nat) : List Nat :=
  let h := leBytes 4 1296977217 ++ [1, 0] ++ leBytes 2 k ++ List.replicate 16 0 ++ leBytes 4 body.length
  h ++ leBytes 4 (crc32c (h ++ body)) ++ body

/-- A table that lists no key at or above a bound answers its default there. -/
theorem get_above {b : Nat} : ∀ {l : List (Nat × Nat)}, (l.all (fun x => decide (x.1 < b))) = true → ∀ a, b ≤ a →
    Tab.get (fun _ => 0) l a = 0
  | [], _, _, _ => rfl
  | (k, v) :: l, h, a, hb => by
    simp only [List.all_cons, Bool.and_eq_true, decide_eq_true_eq] at h
    have := get_above h.2 a hb
    simp only [Tab.get, Tab.find] at this ⊢
    rw [if_neg (by omega)]; exact this

/-- A parameter set that lists no byte at or above a bound reads 0 there. -/
theorem parFld_above {b : Nat} {p : List (Nat × Nat)} (h : (p.all (fun x => decide (x.1 < b))) = true) (o lo n : Nat) (ho : b ≤ o) :
    parFld p o lo n = 0 := by
  unfold parFld parWord
  simp [get_above h _ (show b ≤ o by omega), get_above h _ (show b ≤ o + 1 by omega), get_above h _ (show b ≤ o + 2 by omega),
    get_above h _ (show b ≤ o + 3 by omega)]

/-- A table that lists no key below a bound answers its default there. -/
theorem get_below {b : Nat} : ∀ {l : List (Nat × Nat)}, (l.all (fun x => decide (b ≤ x.1))) = true → ∀ a, a < b →
    Tab.get (fun _ => 0) l a = 0
  | [], _, _, _ => rfl
  | (k, v) :: l, h, a, hb => by
    simp only [List.all_cons, Bool.and_eq_true, decide_eq_true_eq] at h
    have := get_below h.2 a hb
    simp only [Tab.get, Tab.find] at this ⊢
    rw [if_neg (by omega)]; exact this

theorem parFld_below {b : Nat} {p : List (Nat × Nat)} (h : (p.all (fun x => decide (b ≤ x.1))) = true) (o lo n : Nat) (ho : o + 4 ≤ b) :
    parFld p o lo n = 0 := by
  unfold parFld parWord
  simp [get_below h _ (show o < b by omega), get_below h _ (show o + 1 < b by omega), get_below h _ (show o + 2 < b by omega),
    get_below h _ (show o + 3 < b by omega)]

/-- No pavilion item is in use. -/
theorem items_none {s : State} (h : (s.pvm.par.all (fun x => decide (x.1 < 0x9400))) = true) (k d : Nat) : s.items k d = [] := by
  unfold State.items
  rw [List.filter_eq_nil_iff]
  intro j _
  rw [State.par, parFld_above h _ _ _ (by unfold offItem; omega)]
  simp

theorem firstBad_none {n : Nat} {f : Nat → Bool} (h : ∀ i, f i = false) : firstBad n f = none := by
  simp [firstBad, h]

/-- R407 finds nothing bad in that set, whatever the rest of the state. -/
theorem wPar_ok (s : State) : s.parBad wPar = none := by
  have hz : ∀ o lo n, 0x180 ≤ o → parFld wPar o lo n = 0 := parFld_above (by decide +kernel)
  have hf : ∀ i lo n, parFld wPar (offFun i + 12) lo n = 0 := fun i lo n => hz _ _ _ (by unfold offFun; omega)
  have hb : ∀ i lo n, parFld wPar (offBrk i) lo n = 0 := fun i lo n => hz _ _ _ (by unfold offBrk; omega)
  have hc : ∀ i lo n, parFld wPar (offConn i) lo n = 0 := fun i lo n => hz _ _ _ (by unfold offConn; omega)
  have hi : ∀ i lo n, parFld wPar (offItem i) lo n = 0 := fun i lo n => hz _ _ _ (by unfold offItem; omega)
  have hv : ∀ i lo n, parFld wPar (offValve i) lo n = 0 := fun i lo n => hz _ _ _ (by unfold offValve; omega)
  unfold State.parBad
  simp only [hf, hb, hc, hi, hv]
  simp only [firstBad_none (f := fun _ => false) (fun _ => rfl), Nat.reduceBEq, Bool.false_and, Nat.reduceLT, decide_false, Option.map_none, Option.or_none, Option.none_or]
  have h12 : ¬ (parFld wPar 4 16 1 = 1 ∧ parFld wPar 12 0 16 ≠ s.fld F.PVM_SWITCH_SW % 2 ^ 16) := fun h => absurd h.1 (by decide +kernel)
  rw [if_neg h12]
  decide +kernel


theorem crc32cBits_lt : ∀ (k c : Nat), c < 2 ^ 32 → crc32cBits k c < 2 ^ 32
  | 0, _, h => h
  | k + 1, c, h => by
    rw [crc32cBits]; apply crc32cBits_lt k
    split
    · exact Nat.xor_lt_two_pow (by omega) (by decide)
    · omega

theorem crc32cRun_lt : ∀ (l : List Nat) (c : Nat), (∀ b ∈ l, b < 2 ^ 32) → c < 2 ^ 32 → crc32cRun l c < 2 ^ 32
  | [], _, _, hc => hc
  | b :: l, c, hl, hc => by
    rw [crc32cRun]
    exact crc32cRun_lt l _ (fun x hx => hl x (List.mem_cons_of_mem _ hx))
      (crc32cBits_lt 8 _ (Nat.xor_lt_two_pow hc (hl b List.mem_cons_self)))

theorem get_lt {m : Nat} (h0 : 0 < m) : ∀ {l : List (Nat × Nat)}, (l.all (fun x => decide (x.2 < m))) = true → ∀ a, Tab.get (fun _ => 0) l a < m
  | [], _, _ => h0
  | (k, v) :: l, h, a => by
    simp only [List.all_cons, Bool.and_eq_true, decide_eq_true_eq] at h
    have := get_lt h0 h.2 a
    simp only [Tab.get, Tab.find] at this ⊢
    by_cases ha : a = k
    · rw [if_pos ha]; exact h.1
    · rw [if_neg ha]; exact this

/-- The CRC of a parameter set of bytes has 32 bits. -/
theorem parCrc_lt {p : List (Nat × Nat)} (h : (p.all (fun x => decide (x.2 < 2 ^ 32))) = true) : parCrc p % 2 ^ 32 = parCrc p := by
  refine Nat.mod_eq_of_lt (Nat.xor_lt_two_pow (crc32cRun_lt _ _ (fun b hb => ?_) (by decide)) (by decide))
  obtain ⟨i, -, rfl⟩ := List.mem_map.1 hb
  exact get_lt (by decide) h i

/-- Writing the CRC that a PAR_COMMIT request names changes nothing else that the request is judged by. -/
theorem parReq_set (s : State) (v : Nat) : (s.setNum (Reg.PVM_MB_REQ 1 1) v).mbHas 1 4 = s.mbHas 1 4 ∧
    (s.setNum (Reg.PVM_MB_REQ 1 1) v).parClosed = s.parClosed ∧ (s.setNum (Reg.PVM_MB_REQ 1 1) v).sw17 = s.sw17 ∧
    (s.setNum (Reg.PVM_MB_REQ 1 1) v).pavState = s.pavState ∧
    (s.setNum (Reg.PVM_MB_REQ 1 1) v).fld F.PVM_STATUS_SAFE_CAUSE = s.fld F.PVM_STATUS_SAFE_CAUSE := by
  have h : ∀ a, a ≠ Reg.PVM_MB_REQ 1 1 → (s.setNum (Reg.PVM_MB_REQ 1 1) v).rd a = s.rd a := fun a ha => State.rd_setNum_other s v ha
  have hf : ∀ f : Fld, f.addr ≠ Reg.PVM_MB_REQ 1 1 → (s.setNum (Reg.PVM_MB_REQ 1 1) v).fld f = s.fld f := fun f hf => by
    unfold State.fld; rw [h _ hf]
  have h0 : (s.setNum (Reg.PVM_MB_REQ 1 1) v).mbReq 1 0 = s.mbReq 1 0 := congrArg BitVec.toNat (h _ (by decide))
  refine ⟨?_, ?_, ?_, hf _ (by decide), hf _ (by decide)⟩
  · unfold State.mbHas State.flag; rw [hf _ (by decide), h0]; rfl
  · unfold State.parClosed State.pavState; rw [hf _ (by decide), hf _ (by decide)]
  · unfold State.sw17; rw [hf _ (by decide)]

/-- The CRC of a set as the request's CRC. -/
theorem parReq_crc (s : State) {p : List (Nat × Nat)} (h : (p.all (fun x => decide (x.2 < 2 ^ 32))) = true) :
    parCrc p = (s.setNum (Reg.PVM_MB_REQ 1 1) (parCrc p)).mbReq 1 1 := by
  unfold State.mbReq; rw [State.num_setNum_self, parCrc_lt h]

theorem parReq_other (s : State) : parCrc [] ≠ (s.setNum (Reg.PVM_MB_REQ 1 1) (parCrc [] + 1)).mbReq 1 1 := by
  unfold State.mbReq; rw [State.num_setNum_self]
  have := parCrc_lt (p := []) rfl
  omega

theorem wPar_bytes : (wPar.all (fun x => decide (x.2 < 2 ^ 32))) = true := by decide +kernel

theorem par_empty (s : State) : s.parBad [] = some (1, 0) := by
  unfold State.parBad; exact if_pos (.inl (by decide))

/-- A request PAR_COMMIT in mailbox 1 with bit 17 of the switch set, over a set staged. -/
def wCommit (p : List (Nat × Nat)) : State :=
  ((wMb 1 [4]).setPvm { State.reset.pvm with stage := p }).setFld F.PVM_SWITCH_SW 0x10000

theorem brkShow_pvm (s : State) (l : List Nat) : (l.foldl State.brkShow s).pvm = s.pvm := by
  induction l generalizing s with
  | nil => rfl
  | cons b l ih =>
    rw [List.foldl_cons, ih]
    unfold State.brkShow
    split <;> simp

/-- A start of the pavilion with that set stored passes every check. -/
theorem wPar_starts (s : State) (h : s.pvm.store = wPar) :
    s.pavStartEnd (0x60000 : BitVec 24).toNat true = ((s.pavStartEnd (0x60000 : BitVec 24).toNat true).1, none) := by
  refine Prod.ext rfl ?_
  unfold State.pavStartEnd
  simp only [brkShow_pvm, State.setPvm_pvm]
  rw [if_neg (by decide), if_neg (by decide),
    if_neg (by rw [show (State.setFld s F.PVM_SWITCH_SW (0x60000 : BitVec 24).toNat).pvm.store = wPar from h, wPar_ok]; decide), if_neg]
  intro hc
  refine absurd hc.1 ?_
  unfold State.par
  rw [State.log_pvm, show (State.setFld s F.PVM_SWITCH_SW (0x60000 : BitVec 24).toNat).pvm.store = wPar from h]
  change parFld wPar 4 16 1 ≠ 1
  decide +kernel

/-- A start of the pavilion whose self-test fails answers 7. -/
theorem pavStart_fails (s : State) (sw : Nat) : s.pavStartEnd sw false = ((s.pavStartEnd sw false).1, some 7) := by
  refine Prod.ext rfl ?_
  unfold State.pavStartEnd
  simp only
  rw [if_pos (by decide)]

/-- What the vault reads is what stands in its argument. -/
theorem wVault_bytes {sw : Nat} {s : State} {l : List Nat}
    (hs : let u := (s.setFld F.PVM_SWITCH_SW sw).setFld F.VLT_ARG_HI_ADDR 0x10
      u.flag F.VLT_RES_BUSY = false ∧ u.fld F.VLT_ARG_LO_ADDR = 0 ∧ u.fld F.VLT_ARG_HI_ADDR = 0x10)
    (h : ∀ b ∈ l, b < 256) (hl : l.length < 2 ^ 32) (hd : inDram 0x1000000000 l.length = true) :
    (wVaultOf sw s l).flag F.VLT_RES_BUSY = false ∧ (wVaultOf sw s l).vltBytes = some l ∧ l = (wVaultOf sw s l).vltRecord := by
  have hr : ∀ a, a ≠ Reg.VLT_ARG_LEN → (wVaultOf sw s l).rd a =
      ((s.setFld F.PVM_SWITCH_SW sw).setFld F.VLT_ARG_HI_ADDR 0x10).rd a := fun a ha => by
    unfold wVaultOf; rw [rd_wrList]; exact State.rd_setNum_other _ _ ha
  have hf : ∀ f : Fld, f.addr ≠ Reg.VLT_ARG_LEN → (wVaultOf sw s l).fld f =
      ((s.setFld F.PVM_SWITCH_SW sw).setFld F.VLT_ARG_HI_ADDR 0x10).fld f := fun f hf => by
    unfold State.fld; rw [hr _ hf]
  have h1 : (wVaultOf sw s l).vltLen = l.length := by
    unfold wVaultOf State.vltLen State.num; rw [rd_wrList]
    exact (State.num_setNum_self _ _ _).trans (Nat.mod_eq_of_lt hl)
  have h2 : (wVaultOf sw s l).vltArg = 0x1000000000 := by
    unfold State.vltArg
    rw [hf _ (by decide), hf _ (by decide), hs.2.1, hs.2.2]
    norm_num
  have h3 : (wVaultOf sw s l).vltBytes = some l := by
    unfold State.vltBytes
    rw [h1, h2, if_pos hd]
    unfold wVaultOf
    rw [rdList_wrList_self _ _ _ h]
  refine ⟨?_, h3, ?_⟩
  · unfold State.flag
    rw [hf _ (by decide)]
    exact hs.1
  · unfold State.vltRecord; rw [h3]; rfl

/-- States and operands that meet the hypotheses of AccessCommands, clause by clause. -/
theorem test_wit_AccessCommands :
    (∃ (s : State) (src : Fin 160), s.frozen src.val = true) ∧
    (∃ (s : State) (src : Fin 160) (k : Access) (a : BitVec 40) (len : Fin 65), s.frozen src.val = false ∧ s.fwlAllowed src.val a.toNat len.val k = false
    ∧ (2 ≤ src.val ∧ src.val < 64 ∨ 140 ≤ src.val)) ∧
    (∃ (s : State) (src : Fin 160) (a : BitVec 40) (len : Fin 65), s.frozen src.val = false ∧ s.fwlAllowed src.val a.toNat len.val Access.write = true
    ∧ placeOf a.toNat = Place.ram ∧ memForm src.val a.toNat len.val = true ∧ src ≠ 1) ∧
    (∃ (s : State) (src : Fin 160) (a : BitVec 40) (len : Fin 65), s.frozen src.val = false ∧ s.fwlAllowed src.val a.toNat len.val Access.write = true
    ∧ placeOf a.toNat = Place.ram ∧ memForm src.val a.toNat len.val = false) ∧
    (∃ (s : State) (src : Fin 160) (a : BitVec 40) (len : Fin 65), s.frozen src.val = false ∧ s.fwlAllowed src.val a.toNat len.val Access.read = true
    ∧ placeOf a.toNat = Place.ram ∧ memForm src.val a.toNat len.val = true ∧ src ≠ 1) ∧
    (∃ (s : State) (src : Fin 160) (a : BitVec 40) (size : Fin 4), s.frozen src.val = false
    ∧ s.fwlAllowed src.val a.toNat (2 ^ size.val) Access.write = true ∧ placeOf a.toNat = Place.reg ∧ (size ≠ 2 ∨ a.toNat % 4 ≠ 0
    ∨ regDesc (regAlias a.toNat) = none)) ∧
    (∃ (s : State) (src : Fin 160) (a : BitVec 40) (size : Fin 4) (d : RegDesc), s.frozen src.val = false
    ∧ s.fwlAllowed src.val a.toNat (2 ^ size.val) Access.write = true ∧ placeOf a.toNat = Place.reg ∧ size = 2 ∧ a.toNat % 4 = 0
    ∧ regDesc (regAlias a.toNat) = some d) ∧
    (∃ (s : State) (src : Fin 160) (a : BitVec 40) (size : Fin 4), s.frozen src.val = false
    ∧ s.fwlAllowed src.val a.toNat (2 ^ size.val) Access.write = true ∧ placeOf a.toNat = Place.nowhere) ∧
    (∃ (s : State) (v : Nat) (i : Nat), i < 32 ∧ v < 2 ^ 32) ∧
    (∃ (s : State) (src : Fin 160) (m : Fin 8) (o : BitVec 24) (len : Fin 65), s.frozen src.val = false
    ∧ s.fwlAllowed src.val (1342177280 + m.val * 16777216 + o.toNat) len.val Access.write = true ∧ s.physOf m.val = none) ∧
    (∃ (s : State) (src : Fin 160) (m : Fin 8) (o : BitVec 24) (len : Fin 65) (n : Nat), s.frozen src.val = false
    ∧ s.fwlAllowed src.val (1342177280 + m.val * 16777216 + o.toNat) len.val Access.write = true ∧ s.physOf m.val = some n ∧ s.mig = none) ∧
    (∃ (s : State) (src : Fin 160) (m : Fin 8) (o : BitVec 24) (len : Fin 65) (n : Nat) (g : Migration), s.frozen src.val = false
    ∧ s.fwlAllowed src.val (1342177280 + m.val * 16777216 + o.toNat) len.val Access.write = true ∧ s.physOf m.val = some n ∧ s.mig = some g ∧ g.m = m.val) ∧
    (∃ (s : State) (m : Byte) (x : Viol), 2 ≤ BitVec.toNat m ∧ BitVec.toNat m < 16 ∧ s.frozen (BitVec.toNat m) = true
    ∧ Tab.find s.fwl.viols (BitVec.toNat m) = some x ∧ x.at_ ≠ s.time.cycle) ∧
    (∃ (s : State) (src : Fin 160) (key : Byte) (m : Byte), (src ≠ 0 ∨ BitVec.toNat key ≠ 165 ∨ BitVec.toNat m = 0 ∨ s.frozen (BitVec.toNat m) = false)) ∧
    (∃ (s : State) (a : Nat), scrubbed a = false) ∧
    (∃ (s : State) (a : Nat), scrubbed a = true ∧ canRamAt a = none ∧ crewStateAt a = none ∧ a < 2 ^ 64) := by
  refine ⟨?_, ?_, ?_, ?_, ?_, ?_, ?_, ?_, ?_, ?_, ?_, ?_, ?_, ?_, ?_, ?_⟩
  · refine ⟨(State.reset).setRbit (Reg.FWL_FROZEN 4) 31 true, 159, ?_⟩ <;> decide +kernel
  · refine ⟨State.reset, 63, .read, 0x08000000, 64, ?_, ?_, ?_⟩ <;> decide +kernel
  · refine ⟨State.reset, 0, 0x17FFFFFFFC, 4, ?_, ?_, ?_, ?_, ?_⟩ <;> decide +kernel
  · refine ⟨State.reset, 0, 0x17FFFFFFFE, 64, ?_, ?_, ?_, ?_⟩ <;> decide +kernel
  · refine ⟨State.reset.wrWord 0x0803FFF8 0x12345678, 0, 0x0803FFF8, 8, ?_, ?_, ?_, ?_, ?_⟩ <;> decide +kernel
  · refine ⟨State.reset, 0, 0xE0000001, 2, ?_, ?_, ?_, ?_⟩ <;> decide +kernel
  · refine ⟨State.reset, 0, 0xE0000000, 2, (regDesc 0xE0000000).getD ⟨"", 0, [], 0, false, 0, 0, 0, 0⟩, ?_, ?_, ?_, ?_, ?_, ?_⟩ <;> decide +kernel
  · refine ⟨State.reset, 0, 0xFFFFFFFF, 0, ?_, ?_, ?_⟩ <;> decide +kernel
  · refine ⟨State.reset, 0xFFFFFFFF, 31, ?_, ?_⟩ <;> decide +kernel
  · refine ⟨State.reset, 0, 7, 0xFFFFFC, 64, ?_, ?_, ?_⟩ <;> decide +kernel
  · refine ⟨(State.reset).setNum Reg.IML_CREWMAP 0x76543210, 0, 7, 0x0, 64, 7, ?_, ?_, ?_, ?_⟩ <;> decide +kernel
  · refine ⟨((State.reset).setNum Reg.IML_CREWMAP 0x76543210).setMig (some ⟨7, 7, 8, true, 0, 0, [], []⟩), 0, 7, 0x4, 64, 7, ⟨7, 7, 8, true, 0, 0, [], []⟩, ?_,
      ?_, ?_, ?_, ?_⟩ <;> decide +kernel
  · refine ⟨((State.reset).setRbit (Reg.FWL_FROZEN 0) 15 true).setFwl { State.reset.fwl with viols := [(15, ⟨1, none, 7⟩)] }, 15, ⟨1, none, 7⟩, ?_, ?_, ?_, ?_,
      ?_⟩ <;> decide +kernel
  · refine ⟨State.reset, 159, 165, 7, ?_⟩ <;> decide +kernel
  · refine ⟨State.reset, 0, ?_⟩ <;> decide +kernel
  · refine ⟨State.reset, 0x17FFFFFFFF, ?_, ?_, ?_, ?_⟩ <;> decide +kernel

/-- States and operands that meet the hypotheses of AcquisitionCommands, clause by clause. -/
theorem test_wit_AcquisitionCommands :
    (∃ (s : State) (k : Fin 20) (e : Fin 1024) (q : Word) (d : ConvDue) (m : Nat), s.streamDest k.val = some m
    ∧ List.find? (fun d => d.entry == e.val && d.cseq == BitVec.toNat q) (s.convOf k.val).due = some d ∧ (s.convEntry k.val e.val).kind = 0
    ∧ reached (s.tabCourse m) d.start = false) ∧
    (∃ (s : State) (k : Fin 20) (e : Fin 1024) (q : Word) (d : ConvDue) (m : Nat), s.streamDest k.val = some m
    ∧ List.find? (fun d => d.entry == e.val && d.cseq == BitVec.toNat q) (s.convOf k.val).due = some d ∧ (s.convEntry k.val e.val).kind = 0
    ∧ reached (s.tabCourse m) d.start = true ∧ (s.convOf k.val).phase = ConvPhase.idle ∧ (s.convEntry k.val e.val).ch < 8) ∧
    (∃ (s : State) (k : Fin 20) (e : Fin 1024) (q : Word) (d : ConvDue) (m : Nat), s.streamDest k.val = some m
    ∧ List.find? (fun d => d.entry == e.val && d.cseq == BitVec.toNat q) (s.convOf k.val).due = some d ∧ (s.convEntry k.val e.val).kind = 0
    ∧ reached (s.tabCourse m) d.start = true ∧ (s.convOf k.val).phase ≠ ConvPhase.idle ∧ ((s.convOf k.val).reach ≠ s.time.cycle
    ∨ (s.convOf k.val).entry ≤ e.val) ∧ ((s.convOf k.val).waiting.any fun w => w.entry == e.val) = false) ∧
    (∃ (s : State) (k : Fin 20) (e : Fin 1024) (q : Word) (d : ConvDue) (m : Nat), s.streamDest k.val = some m
    ∧ List.find? (fun d => d.entry == e.val && d.cseq == BitVec.toNat q) (s.convOf k.val).due = some d ∧ (s.convEntry k.val e.val).kind = 0
    ∧ reached (s.tabCourse m) d.start = true ∧ (s.convOf k.val).phase ≠ ConvPhase.idle ∧ ((s.convOf k.val).reach ≠ s.time.cycle
    ∨ (s.convOf k.val).entry ≤ e.val) ∧ ((s.convOf k.val).waiting.any fun w => w.entry == e.val) = true) ∧
    (∃ (s : State) (k : Fin 20), (s.convOf k.val).phase = ConvPhase.settling) ∧
    (∃ (s : State) (k : Fin 20), (s.convOf k.val).phase ≠ ConvPhase.settling) ∧
    (∃ (s : State) (k : Fin 20), (s.convOf k.val).phase = ConvPhase.converting) ∧
    (∃ (s : State) (k : Nat), k < 20 ∧ (s.convEntry k (s.convOf k).entry).kind = 1 ∧ (s.convOf k).waiting = []) ∧
    (∃ (s : State) (n : Fin 9) (k : Fin 20) (tok : Token), s.flying n.val k.val tok = none) ∧
    (∃ (s : State) (n : Fin 9) (k : Fin 20) (tok : Token) (f : Nat × Token), s.flying n.val k.val tok = some f ∧ tok.ok = true) ∧
    (∃ (s : State) (n : Fin 9) (k : Fin 20) (tok : Token) (f : Nat × Token), s.flying n.val k.val tok = some f ∧ tok.ok = false) ∧
    (∃ (s : State) (p : Fin 8) (a : CheckSmp) (b : CheckSmp), (s.pairOf p.val).smpA = some a ∧ (s.pairOf p.val).smpB = some b ∧ a.cseq ≠ b.cseq
    ∧ seqBefore a.cseq b.cseq = true) ∧
    (∃ (s : State) (p : Fin 8) (a : CheckSmp) (b : CheckSmp), (s.pairOf p.val).smpA = some a ∧ (s.pairOf p.val).smpB = some b ∧ a.cseq ≠ b.cseq
    ∧ seqBefore a.cseq b.cseq = false) ∧
    (∃ (s : State) (p : Fin 8) (a : CheckSmp) (b : CheckSmp) (d : Word), (s.pairOf p.val).smpA = some a ∧ (s.pairOf p.val).smpB = some b ∧ a.cseq = b.cseq
    ∧ a.st ≠ 1 ∧ b.st ≠ 1 ∧ s.pairState p.val = 0 ∧ d = F32.sub a.x b.x ∧ s.inTol p.val d = true ∧ s.recSelects (128 + p.val) = false) ∧
    (∃ (s : State) (p : Fin 8) (a : CheckSmp) (b : CheckSmp) (d : Word), (s.pairOf p.val).smpA = some a ∧ (s.pairOf p.val).smpB = some b ∧ a.cseq = b.cseq
    ∧ a.st ≠ 1 ∧ b.st ≠ 1 ∧ s.pairState p.val = 0 ∧ d = F32.sub a.x b.x ∧ s.inTol p.val d = false
    ∧ s.fld (F.AFE_PAIR_STATUS_MISMATCH p.val) + 1 < s.fld (F.AFE_PAIR_CFG_PERSIST p.val)) ∧
    (∃ (s : State) (p : Fin 8) (a : CheckSmp) (b : CheckSmp) (d : Word), (s.pairOf p.val).smpA = some a ∧ (s.pairOf p.val).smpB = some b ∧ a.cseq = b.cseq
    ∧ a.st ≠ 1 ∧ b.st ≠ 1 ∧ s.pairState p.val = 0 ∧ d = F32.sub a.x b.x ∧ s.inTol p.val d = false
    ∧ s.fld (F.AFE_PAIR_CFG_PERSIST p.val) ≤ s.fld (F.AFE_PAIR_STATUS_MISMATCH p.val) + 1) ∧
    (∃ (s : State) (p : Fin 8) (a : CheckSmp) (b : CheckSmp), (s.pairOf p.val).smpA = some a ∧ (s.pairOf p.val).smpB = some b ∧ a.cseq = b.cseq
    ∧ s.pairState p.val = 1 ∧ 2 ≤ (s.pairOf p.val).arb.length) ∧
    (∃ (s : State) (p : Fin 8) (a : CheckSmp) (b : CheckSmp), (s.pairOf p.val).smpA = some a ∧ (s.pairOf p.val).smpB = some b ∧ a.cseq = b.cseq
    ∧ s.pairState p.val = 1 ∧ (s.pairOf p.val).arb.length < 2) ∧
    (∃ (s : State) (p : Fin 8) (a : CheckSmp) (b : CheckSmp), (s.pairOf p.val).smpA = some a ∧ (s.pairOf p.val).smpB = some b ∧ a.cseq = b.cseq
    ∧ s.pairState p.val = 4) ∧
    (∃ (s : State) (p : Fin 8) (mode : BitVec 2) (conv : Bool), s.inUse (Res.conv (2 * p.val + b2n conv)) = true ∧ s.hasDiag (2 * p.val + b2n conv) = true
    ∧ mode.toNat < 2) ∧
    (∃ (s : State) (mode : BitVec 2), 2 ≤ mode.toNat) := by
  refine ⟨?_, ?_, ?_, ?_, ?_, ?_, ?_, ?_, ?_, ?_, ?_, ?_, ?_, ?_, ?_, ?_, ?_, ?_, ?_, ?_, ?_⟩
  · refine ⟨((State.reset).setImg { State.reset.img with xbar := List.replicate 20 7, conv := [(19, [⟨true, 3, 10, 4, 1, 8, 2, 7, 0, 2, 0, 5, 1, false, 0, 0, 0, 0⟩])] }).setConv 19 { State.reset.convOf 19 with due := [⟨0, 67, 5⟩] },
      19, 0, 67, ⟨0, 67, 5⟩, 7, ?_, ?_, ?_, ?_⟩ <;> decide +kernel
  · refine ⟨((State.reset).setImg { State.reset.img with xbar := List.replicate 20 7, conv := [(19, [⟨true, 3, 10, 4, 1, 8, 2, 7, 0, 2, 0, 5, 1, false, 0, 0, 0, 0⟩])] }).setConv 19 { State.reset.convOf 19 with due := [⟨0, 67, 0⟩] },
      19, 0, 67, ⟨0, 67, 0⟩, 7, ?_, ?_, ?_, ?_, ?_, ?_⟩ <;> decide +kernel
  · refine ⟨((State.reset).setImg { State.reset.img with xbar := List.replicate 20 7, conv := [(19, [⟨true, 3, 10, 4, 1, 8, 2, 7, 0, 2, 0, 5, 1, false, 0, 0, 0, 0⟩])] }).setConv 19 { State.reset.convOf 19 with due := [⟨0, 67, 0⟩], phase := .converting },
      19, 0, 67, ⟨0, 67, 0⟩, 7, ?_, ?_, ?_, ?_, ?_, ?_, ?_⟩ <;> decide +kernel
  · refine ⟨((State.reset).setImg { State.reset.img with xbar := List.replicate 20 7, conv := [(19, [⟨true, 3, 10, 4, 1, 8, 2, 7, 0, 2, 0, 5, 1, false, 0, 0, 0, 0⟩])] }).setConv 19 { State.reset.convOf 19 with due := [⟨0, 67, 0⟩], phase := .converting, waiting := [⟨0, 3, 0⟩] },
      19, 0, 67, ⟨0, 67, 0⟩, 7, ?_, ?_, ?_, ?_, ?_, ?_, ?_⟩ <;> decide +kernel
  · refine ⟨(State.reset).setConv 19 { State.reset.convOf 19 with phase := .settling }, 19, ?_⟩ <;> decide +kernel
  · refine ⟨State.reset, 19, ?_⟩ <;> decide +kernel
  · refine ⟨(State.reset).setConv 19 { State.reset.convOf 19 with phase := .converting }, 19, ?_⟩ <;> decide +kernel
  · refine ⟨(State.reset).setImg { State.reset.img with xbar := List.replicate 20 7, conv := [(19, [⟨true, 3, 10, 4, 1, 8, 2, 7, 1, 2, 0, 5, 1, false, 0, 0, 0, 0⟩])] },
      19, ?_, ?_, ?_⟩ <;> decide +kernel
  · refine ⟨State.reset, 8, 19, mkToken 0 1 0 0, ?_⟩ <;> decide +kernel
  · refine ⟨(State.reset).setConv 19 { State.reset.convOf 19 with fly := [(8, mkToken 0 1 0 0)] }, 8, 19, mkToken 0 1 0 0, (8, mkToken 0 1 0 0), ?_, ?_⟩ <;> decide +kernel
  · refine ⟨(State.reset).setConv 19 { State.reset.convOf 19 with fly := [(8, mkToken 0 1 0 0)] }, 8, 19,
      { mkToken 0 1 0 0 with tag := (mkToken 0 1 0 0).tag + 1 }, (8, mkToken 0 1 0 0), ?_, ?_⟩ <;> decide +kernel
  · refine ⟨((State.reset).setFld (F.AFE_PAIR_STATUS_STATE 7) 0).setPair 7 { State.reset.pairOf 7 with smpA := some ⟨0x40000000, 0x40000000, 0, 3, 2⟩, smpB := some ⟨0x40000000, 0x40000000, 0, 67, 2⟩ },
      7, ⟨0x40000000, 0x40000000, 0, 3, 2⟩, ⟨0x40000000, 0x40000000, 0, 67, 2⟩, ?_, ?_, ?_, ?_⟩ <;> decide +kernel
  · refine ⟨((State.reset).setFld (F.AFE_PAIR_STATUS_STATE 7) 0).setPair 7 { State.reset.pairOf 7 with smpA := some ⟨0x40000000, 0x40000000, 0, 67, 2⟩, smpB := some ⟨0x40000000, 0x40000000, 0, 3, 2⟩ },
      7, ⟨0x40000000, 0x40000000, 0, 67, 2⟩, ⟨0x40000000, 0x40000000, 0, 3, 2⟩, ?_, ?_, ?_, ?_⟩ <;> decide +kernel
  · refine ⟨(((State.reset).setFld (F.AFE_PAIR_STATUS_STATE 7) 0).setFld (F.AFE_PAIR_CFG_PERSIST 7) 3).setPair 7 { State.reset.pairOf 7 with smpA := some ⟨0x40000000, 0x40000000, 0, 3, 2⟩, smpB := some ⟨0x40000000, 0x40000000, 0, 3, 2⟩ },
      7, ⟨0x40000000, 0x40000000, 0, 3, 2⟩, ⟨0x40000000, 0x40000000, 0, 3, 2⟩, _, ?_, ?_, ?_, ?_, ?_, ?_, rfl, ?_, ?_⟩ <;> decide +kernel
  · refine ⟨(((State.reset).setFld (F.AFE_PAIR_STATUS_STATE 7) 0).setFld (F.AFE_PAIR_CFG_PERSIST 7) 3).setPair 7 { State.reset.pairOf 7 with smpA := some ⟨0x40000000, 0x40000000, 0, 3, 2⟩, smpB := some ⟨0x3F800000, 0x3F800000, 0, 3, 2⟩ },
      7, ⟨0x40000000, 0x40000000, 0, 3, 2⟩, ⟨0x3F800000, 0x3F800000, 0, 3, 2⟩, _, ?_, ?_, ?_, ?_, ?_, ?_, rfl, ?_, ?_⟩ <;> decide +kernel
  · refine ⟨(((State.reset).setFld (F.AFE_PAIR_STATUS_STATE 7) 0).setFld (F.AFE_PAIR_CFG_PERSIST 7) 1).setPair 7 { State.reset.pairOf 7 with smpA := some ⟨0x40000000, 0x40000000, 0, 3, 2⟩, smpB := some ⟨0x3F800000, 0x3F800000, 0, 3, 2⟩ },
      7, ⟨0x40000000, 0x40000000, 0, 3, 2⟩, ⟨0x3F800000, 0x3F800000, 0, 3, 2⟩, _, ?_, ?_, ?_, ?_, ?_, ?_, rfl, ?_, ?_⟩ <;> decide +kernel
  · refine ⟨((State.reset).setFld (F.AFE_PAIR_STATUS_STATE 7) 1).setPair 7 { State.reset.pairOf 7 with smpA := some ⟨0x40000000, 0x40000000, 0, 3, 2⟩, smpB := some ⟨0x3F800000, 0x3F800000, 0, 3, 2⟩, arb := [(0, 0, 0), (0, 0, 0)] },
      7, ⟨0x40000000, 0x40000000, 0, 3, 2⟩, ⟨0x3F800000, 0x3F800000, 0, 3, 2⟩, ?_, ?_, ?_, ?_, ?_⟩ <;> decide +kernel
  · refine ⟨((State.reset).setFld (F.AFE_PAIR_STATUS_STATE 7) 1).setPair 7 { State.reset.pairOf 7 with smpA := some ⟨0x40000000, 0x40000000, 0, 3, 2⟩, smpB := some ⟨0x3F800000, 0x3F800000, 0, 3, 2⟩ },
      7, ⟨0x40000000, 0x40000000, 0, 3, 2⟩, ⟨0x3F800000, 0x3F800000, 0, 3, 2⟩, ?_, ?_, ?_, ?_, ?_⟩ <;> decide +kernel
  · refine ⟨((State.reset).setFld (F.AFE_PAIR_STATUS_STATE 7) 4).setPair 7 { State.reset.pairOf 7 with smpA := some ⟨0x40000000, 0x40000000, 0, 3, 2⟩, smpB := some ⟨0x3F800000, 0x3F800000, 0, 3, 2⟩ },
      7, ⟨0x40000000, 0x40000000, 0, 3, 2⟩, ⟨0x3F800000, 0x3F800000, 0, 3, 2⟩, ?_, ?_, ?_, ?_⟩ <;> decide +kernel
  · refine ⟨(State.reset).setImg { State.reset.img with conv := [(15, [⟨true, 3, 10, 4, 1, 8, 2, 7, 2, 2, 0, 5, 1, false, 0, 0, 0, 0⟩])] }, 7, 1, true, ?_, ?_,
      ?_⟩ <;> decide +kernel
  · refine ⟨State.reset, 3, ?_⟩ <;> decide +kernel

/-- States and operands that meet the hypotheses of AxisCommands, clause by clause. -/
theorem test_wit_AxisCommands :
    (∃ (s : State) (n : Nat) (a : Nat) (code : Nat), n < 9 ∧ a < 32 ∧ code < 64) ∧
    (∃ (s : State) (a : Fin 32) (n : Nat) (put : Nat → Nat → State), s.axCrew a.val = some n ∧ s.crewDeaf n = false ∧ (∀ (c v : ℕ),
    put c v = s.setAxis a.val ({ s.axisOf a.val with cmds := (s.axisOf a.val).cmds ++ [(c, v, strokeOf (s.num (Reg.CT_LAST_CSEQ (a.val / 4))))] }))) ∧
    (∃ (s : State) (a : Nat) (q : Nat) (l : List (Nat × Nat × Nat)), (s.axisOf a).cmds = l ∧ (∀ c ∈ l, 0 < strokeDiff (strokeOf q) c.2.2)) ∧
    (∃ (s : State) (a : Nat) (q : Nat), (∀ c ∈ (s.axisOf a).cmds, strokeDiff (strokeOf q) c.2.2 ≤ 0)) ∧
    (∃ (s : State) (a : Fin 32) (n : Nat), n < 9 ∧ s.axState n a.val = 0 ∧ s.flag (F.AX_CFG_EN n (a.val % 4)) = true
    ∧ (s.flag (F.AX_CFG_BRAKE_BOUND n (a.val % 4)) = false ∨ s.rbit Reg.PVM_PERMIT a.val = true)) ∧
    (∃ (s : State) (a : Fin 32) (n : Nat), n < 9 ∧ (s.axState n a.val ≠ 0 ∨ s.flag (F.AX_CFG_EN n (a.val % 4)) = false)) ∧
    (∃ (s : State) (a : Fin 32) (n : Nat), n < 9 ∧ s.axState n a.val = 0 ∧ s.flag (F.AX_CFG_EN n (a.val % 4)) = true
    ∧ s.flag (F.AX_CFG_BRAKE_BOUND n (a.val % 4)) = true ∧ s.rbit Reg.PVM_PERMIT a.val = false) ∧
    (∃ (s : State) (a : Fin 32) (n : Nat), s.axCrew a.val = some n ∧ n < 9 ∧ s.crewDeaf n = false ∧ (s.axState n a.val = 1 ∨ s.axState n a.val = 7)) ∧
    (∃ (s : State) (a : Fin 32) (n : Nat), s.axCrew a.val = some n ∧ n < 9 ∧ s.crewDeaf n = false ∧ (s.axState n a.val = 2 ∨ s.axState n a.val = 3
    ∨ s.axState n a.val = 5)) ∧
    (∃ (s : State) (a : Fin 32) (n : Nat), s.axCrew a.val = some n ∧ n < 9 ∧ s.crewDeaf n = false ∧ s.axState n a.val = 4) ∧
    (∃ (s : State) (a : Fin 32) (n : Nat), s.axCrew a.val = some n ∧ n < 9 ∧ s.crewDeaf n = false ∧ s.axState n a.val = 6) ∧
    (∃ (s : State) (a : Fin 32) (n : Nat), s.axCrew a.val = some n ∧ n < 9 ∧ s.crewDeaf n = false ∧ s.axState n a.val = 0) ∧
    (∃ (s : State) (a : Fin 32) (n : Nat) (k : Fin 64), n < 9 ∧ s.moveRefusal n a.val k.val ≠ 0) ∧
    (∃ (s : State) (a : Fin 32) (n : Nat) (k : Fin 64), n < 9 ∧ s.axState n a.val = 1 ∧ s.flag (F.AX_CFG_EN n (a.val % 4)) = true
    ∧ s.mtReady n k.val = true ∧ s.mtBusy n k.val = false ∧ (s.axisOf a.val).table = none ∧ (s.axisOf a.val).old = none ∧ (∀ (ch : ℕ),
    s.feedChan n a.val = some ch → s.cdmState n ch ≠ 1)) ∧
    (∃ (s : State) (a : Fin 32) (n : Nat) (k : Fin 64), n < 9 ∧ s.moveRefusal n a.val k.val = 0 ∧ (s.axState n a.val = 2 ∨ s.axState n a.val = 3
    ∨ s.axState n a.val = 5) ∧ s.mtBlend n k.val = true) ∧
    (∃ (s : State) (a : Fin 32) (n : Nat) (k : Fin 64), n < 9 ∧ s.moveRefusal n a.val k.val = 0 ∧ (s.axState n a.val = 2 ∨ s.axState n a.val = 3
    ∨ s.axState n a.val = 5) ∧ s.mtBlend n k.val = false) ∧
    (∃ (s : State) (a : Fin 32) (n : Nat), s.axCrew a.val = some n ∧ n < 9 ∧ s.crewDeaf n = false ∧ (s.axState n a.val = 0 ∨ s.axState n a.val = 1
    ∨ s.axState n a.val = 4 ∨ s.axState n a.val = 7)) ∧
    (∃ (s : State) (a : Fin 32) (n : Nat), s.axCrew a.val = some n ∧ n < 9 ∧ s.crewDeaf n = false ∧ s.axState n a.val = 5) ∧
    (∃ (s : State) (a : Fin 32) (n : Nat), s.axCrew a.val = some n ∧ n < 9 ∧ s.crewDeaf n = false ∧ s.axState n a.val ≠ 5) ∧
    (∃ (s : State) (a : Fin 32) (n : Nat), s.axCrew a.val = some n ∧ n < 9 ∧ s.crewDeaf n = false ∧ s.axState n a.val = 7) ∧
    (∃ (s : State) (a : Fin 32) (n : Nat), s.axCrew a.val = some n ∧ n < 9 ∧ s.crewDeaf n = false ∧ s.axState n a.val ≠ 7) ∧
    (∃ (s : State) (n : Nat) (a : Nat), n < 9 ∧ a < 32) ∧
    (∃ (s : State) (n : Nat) (a : Nat) (mode : Nat), n < 9 ∧ s.homeRefusal n a mode ≠ 0) ∧
    (∃ (s : State) (n : Nat) (a : Nat) (mode : Nat), n < 9 ∧ s.homeRefusal n a mode = 0 ∧ mode = 7) ∧
    (∃ (s : State) (n : Nat) (a : Nat) (mode : Nat) (u : State), n < 9 ∧ s.homeRefusal n a mode = 0 ∧ mode = 0
    ∧ u = (s.setAxis a ({ s.axisOf a with referenced := false })).setAxState n a 6 ∧ u.homeRef n a 0 = some false) ∧
    (∃ (s : State) (n : Nat) (a : Nat) (mode : Nat) (u : State), n < 9 ∧ s.homeRefusal n a mode = 0 ∧ mode = 0
    ∧ u = (s.setAxis a ({ s.axisOf a with referenced := false })).setAxState n a 6 ∧ u.homeRef n a 0 = some true) ∧
    (∃ (s : State) (a : Fin 32) (n : Nat), n < 9 ∧ s.axState n a.val ≠ 1) ∧
    (∃ (s : State) (a : Fin 32) (n : Nat), n < 9 ∧ s.axState n a.val = 1 ∧ (s.num (Reg.AX_GEAR_DEN n (a.val % 4)) = 0
    ∨ s.encFaulty (s.fld (F.AX_GEAR_CFG_ENC n (a.val % 4))) = true)) ∧
    (∃ (s : State) (a : Fin 32) (n : Nat) (e : Nat), n < 9 ∧ e = s.fld (F.AX_GEAR_CFG_ENC n (a.val % 4)) ∧ s.axState n a.val = 1
    ∧ s.num (Reg.AX_GEAR_DEN n (a.val % 4)) ≠ 0 ∧ s.encFaulty e = false
    ∧ s.gearToward n a.val (toSigned 32 (s.num (Reg.AX_GEAR_NUM n (a.val % 4)))) e = true) ∧
    (∃ (s : State) (a : Fin 32) (n : Nat) (e : Nat), n < 9 ∧ e = s.fld (F.AX_GEAR_CFG_ENC n (a.val % 4)) ∧ s.axState n a.val = 1
    ∧ s.num (Reg.AX_GEAR_DEN n (a.val % 4)) ≠ 0 ∧ s.encFaulty e = false
    ∧ s.gearToward n a.val (toSigned 32 (s.num (Reg.AX_GEAR_NUM n (a.val % 4)))) e = false ∧ s.num (Reg.AX_GEAR_BLEND n (a.val % 4)) = 0) ∧
    (∃ (s : State) (a : Fin 32) (n : Nat), n < 9 ∧ s.axState n a.val ≠ 5) ∧
    (∃ (s : State) (a : Fin 32) (n : Nat) (g : Gear), n < 9 ∧ s.axState n a.val = 5 ∧ (s.axisOf a.val).gear = some g ∧ g.pend.isSome = true) ∧
    (∃ (s : State) (a : Fin 32) (n : Nat) (g : Gear), n < 9 ∧ s.axState n a.val = 5 ∧ (s.axisOf a.val).gear = some g ∧ g.pend = none
    ∧ (s.num (Reg.AX_GEAR_DEN n (a.val % 4)) = 0 ∨ s.encFaulty g.enc = true)) ∧
    (∃ (s : State) (a : Fin 32) (n : Nat) (g : Gear) (num : Int) (den : Nat), n < 9 ∧ num = toSigned 32 (s.num (Reg.AX_GEAR_NUM n (a.val % 4)))
    ∧ den = s.num (Reg.AX_GEAR_DEN n (a.val % 4)) ∧ s.axState n a.val = 5 ∧ (s.axisOf a.val).gear = some g ∧ g.pend = none ∧ den ≠ 0
    ∧ s.encFaulty g.enc = false ∧ s.gearToward n a.val num g.enc = true) ∧
    (∃ (s : State) (a : Fin 32) (n : Nat) (g : Gear) (num : Int) (den : Nat) (sw : Int), n < 9 ∧ num = toSigned 32 (s.num (Reg.AX_GEAR_NUM n (a.val % 4)))
    ∧ den = s.num (Reg.AX_GEAR_DEN n (a.val % 4))
    ∧ sw = toSigned 48 (s.num (Reg.AX_GEAR_MSW_LO n (a.val % 4)) + 2 ^ 32 * s.fld (F.AX_GEAR_MSW_HI_MSW n (a.val % 4))) ∧ s.axState n a.val = 5
    ∧ (s.axisOf a.val).gear = some g ∧ g.pend = none ∧ den ≠ 0 ∧ s.encFaulty g.enc = false ∧ s.gearToward n a.val num g.enc = false
    ∧ s.encCount g.enc ≠ sw) ∧
    (∃ (s : State) (a : Fin 32) (n : Nat) (g : Gear) (num : Int) (den : Nat) (sw : Int), n < 9 ∧ num = toSigned 32 (s.num (Reg.AX_GEAR_NUM n (a.val % 4)))
    ∧ den = s.num (Reg.AX_GEAR_DEN n (a.val % 4))
    ∧ sw = toSigned 48 (s.num (Reg.AX_GEAR_MSW_LO n (a.val % 4)) + 2 ^ 32 * s.fld (F.AX_GEAR_MSW_HI_MSW n (a.val % 4))) ∧ s.axState n a.val = 5
    ∧ (s.axisOf a.val).gear = some g ∧ g.pend = none ∧ den ≠ 0 ∧ s.encFaulty g.enc = false ∧ s.gearToward n a.val num g.enc = false
    ∧ s.encCount g.enc = sw) ∧
    (∃ (s : State) (a : Fin 32) (n : Nat), s.axCrew a.val = some n ∧ n < 9 ∧ s.axState n a.val = 0) ∧
    (∃ (s : State) (a : Fin 32) (n : Nat), s.axCrew a.val = some n ∧ n < 9 ∧ s.axState n a.val ≠ 0 ∧ s.axState n a.val ≠ 6) ∧
    (∃ (s : State) (a : Fin 32) (n : Nat), s.axCrew a.val = some n ∧ n < 9 ∧ s.axState n a.val = 6) := by
  refine ⟨?_, ?_, ?_, ?_, ?_, ?_, ?_, ?_, ?_, ?_, ?_, ?_, ?_, ?_, ?_, ?_, ?_, ?_, ?_, ?_, ?_, ?_, ?_, ?_, ?_, ?_, ?_, ?_, ?_, ?_, ?_, ?_, ?_, ?_, ?_, ?_, ?_, ?_, ?_⟩
  · refine ⟨wCrew, 8, 31, 63, ?_, ?_, ?_⟩ <;> decide +kernel
  · refine ⟨wAxis 1, 31, 8,
      fun c v => (wAxis 1).setAxis 31 { (wAxis 1).axisOf 31 with cmds := ((wAxis 1).axisOf 31).cmds ++ [(c, v, strokeOf ((wAxis 1).num (Reg.CT_LAST_CSEQ ((31 : Fin 32).val / 4))))] },
      ?_, ?_, (fun _ _ => rfl)⟩ <;> decide +kernel
  · refine ⟨(wAxis 1).setAxis 31 { Axis.init with cmds := [(3, 5, 7), (2, 0, 8)] }, 31, 1024, [(3, 5, 7), (2, 0, 8)], ?_, ?_⟩ <;> decide +kernel
  · refine ⟨(wAxis 1).setAxis 31 { Axis.init with cmds := [(3, 5, 7)] }, 31, 448, ?_⟩ <;> decide +kernel
  · refine ⟨(wAxis 0).setFld (F.AX_CFG_EN 8 3) 1, 31, 8, ?_, ?_, ?_, ?_⟩ <;> decide +kernel
  · refine ⟨wAxis 7, 31, 8, ?_, ?_⟩ <;> decide +kernel
  · refine ⟨((wAxis 0).setFld (F.AX_CFG_EN 8 3) 1).setFld (F.AX_CFG_BRAKE_BOUND 8 3) 1, 31, 8, ?_, ?_, ?_, ?_, ?_⟩ <;> decide +kernel
  · refine ⟨wAxis 7, 31, 8, ?_, ?_, ?_, ?_⟩ <;> decide +kernel
  · refine ⟨wAxis 5, 31, 8, ?_, ?_, ?_, ?_⟩ <;> decide +kernel
  · refine ⟨wAxis 4, 31, 8, ?_, ?_, ?_, ?_⟩ <;> decide +kernel
  · refine ⟨wAxis 6, 31, 8, ?_, ?_, ?_, ?_⟩ <;> decide +kernel
  · refine ⟨wAxis 0, 31, 8, ?_, ?_, ?_, ?_⟩ <;> decide +kernel
  · refine ⟨wAxis 0, 31, 8, 63, ?_, ?_⟩ <;> decide +kernel
  · refine ⟨(((wAxis 1).setFld (F.AX_CFG_EN 8 3) 1)).setFld (F.MT_CTRL_READY 8 63) 1, 31, 8, 63, ?_, ?_, ?_, ?_, ?_, ?_, ?_, ?_⟩ <;> decide +kernel
  · refine ⟨((((wAxis 2).setFld (F.AX_CFG_EN 8 3) 1)).setFld (F.MT_CTRL_READY 8 63) 1).wrList (State.reset.mtAddr 8 63) [0, 0, 0, 0, 0, 0, 1], 31, 8, 63, ?_, ?_,
      ?_, ?_⟩ <;> decide +kernel
  · refine ⟨(((wAxis 3).setFld (F.AX_CFG_EN 8 3) 1)).setFld (F.MT_CTRL_READY 8 63) 1, 31, 8, 63, ?_, ?_, ?_, ?_⟩ <;> decide +kernel
  · refine ⟨wAxis 7, 31, 8, ?_, ?_, ?_, ?_⟩ <;> decide +kernel
  · refine ⟨wAxis 5, 31, 8, ?_, ?_, ?_, ?_⟩ <;> decide +kernel
  · refine ⟨wAxis 6, 31, 8, ?_, ?_, ?_, ?_⟩ <;> decide +kernel
  · refine ⟨wAxis 7, 31, 8, ?_, ?_, ?_, ?_⟩ <;> decide +kernel
  · refine ⟨wAxis 6, 31, 8, ?_, ?_, ?_, ?_⟩ <;> decide +kernel
  · refine ⟨wAxis 2, 8, 31, ?_, ?_⟩ <;> decide +kernel
  · refine ⟨wAxis 1, 8, 31, 8, ?_, ?_⟩ <;> decide +kernel
  · refine ⟨wAxis 1, 8, 31, 7, ?_, ?_, ?_⟩ <;> decide +kernel
  · refine ⟨((wAxis 1).setFld (F.AX_INPUTS_HOME 8 3) 0x85).setRbit (Reg.DIO_STATE 0) 5 true, 8, 31, 0, _, ?_, ?_, ?_, rfl, ?_⟩ <;> decide +kernel
  · refine ⟨(wAxis 1).setFld (F.AX_INPUTS_HOME 8 3) 0x85, 8, 31, 0, _, ?_, ?_, ?_, rfl, ?_⟩ <;> decide +kernel
  · refine ⟨wAxis 5, 31, 8, ?_, ?_⟩ <;> decide +kernel
  · refine ⟨wAxis 1, 31, 8, ?_, ?_, ?_⟩ <;> decide +kernel
  · refine ⟨(((((wAxis 1).setNum (Reg.AX_GEAR_DEN 8 3) 7).setNum (Reg.AX_GEAR_NUM 8 3) 3).setFld (F.AX_GEAR_CFG_ENC 8 3) 15).setFld (F.AX_INPUTS_LIM_POS 8 3) 0x85).setEnc 15 { Enc.init with edges := [(0, 1)] },
      31, 8, _, ?_, rfl, ?_, ?_, ?_, ?_⟩ <;> decide +kernel
  · refine ⟨(((wAxis 1).setNum (Reg.AX_GEAR_DEN 8 3) 7).setNum (Reg.AX_GEAR_NUM 8 3) 3).setFld (F.AX_GEAR_CFG_ENC 8 3) 15, 31, 8, _, ?_, rfl, ?_, ?_, ?_, ?_, ?_⟩ <;> decide +kernel
  · refine ⟨wAxis 1, 31, 8, ?_, ?_⟩ <;> decide +kernel
  · refine ⟨(wAxis 5).setAxis 31 { Axis.init with gear := some ⟨15, ⟨3, 7, 1000, 0, 5000⟩, none, some (3, 7, 9, 0)⟩ }, 31, 8, ⟨15, ⟨3, 7, 1000, 0, 5000⟩, none,
      some (3, 7, 9, 0)⟩, ?_, ?_, ?_, ?_⟩ <;> decide +kernel
  · refine ⟨(wAxis 5).setAxis 31 { Axis.init with gear := some ⟨15, ⟨3, 7, 1000, 0, 5000⟩, none, none⟩ }, 31, 8, ⟨15, ⟨3, 7, 1000, 0, 5000⟩, none, none⟩, ?_, ?_,
      ?_, ?_, ?_⟩ <;> decide +kernel
  · refine ⟨((((((wAxis 5).setNum (Reg.AX_GEAR_DEN 8 3) 7).setNum (Reg.AX_GEAR_NUM 8 3) 3).setFld (F.AX_GEAR_CFG_ENC 8 3) 15).setFld (F.AX_INPUTS_LIM_POS 8 3) 0x85).setEnc 15 { Enc.init with edges := [(0, 1)] }).setAxis 31 { Axis.init with gear := some ⟨15, ⟨3, 7, 1000, 0, 5000⟩, none, none⟩ },
      31, 8, ⟨15, ⟨3, 7, 1000, 0, 5000⟩, none, none⟩, _, _, ?_, rfl, rfl, ?_, ?_, ?_, ?_, ?_, ?_⟩ <;> decide +kernel
  · refine ⟨(((((wAxis 5).setNum (Reg.AX_GEAR_DEN 8 3) 7).setNum (Reg.AX_GEAR_NUM 8 3) 3).setFld (F.AX_GEAR_CFG_ENC 8 3) 15).setNum (Reg.AX_GEAR_MSW_LO 8 3) 5).setAxis 31 { Axis.init with gear := some ⟨15, ⟨3, 7, 1000, 0, 5000⟩, none, none⟩ },
      31, 8, ⟨15, ⟨3, 7, 1000, 0, 5000⟩, none, none⟩, _, _, _, ?_, rfl, rfl, rfl, ?_, ?_, ?_, ?_, ?_, ?_, ?_⟩ <;> decide +kernel
  · refine ⟨((((wAxis 5).setNum (Reg.AX_GEAR_DEN 8 3) 7).setNum (Reg.AX_GEAR_NUM 8 3) 3).setFld (F.AX_GEAR_CFG_ENC 8 3) 15).setAxis 31 { Axis.init with gear := some ⟨15, ⟨3, 7, 1000, 0, 5000⟩, none, none⟩ },
      31, 8, ⟨15, ⟨3, 7, 1000, 0, 5000⟩, none, none⟩, _, _, _, ?_, rfl, rfl, rfl, ?_, ?_, ?_, ?_, ?_, ?_, ?_⟩ <;> decide +kernel
  · refine ⟨wAxis 0, 31, 8, ?_, ?_, ?_⟩ <;> decide +kernel
  · refine ⟨wAxis 5, 31, 8, ?_, ?_, ?_, ?_⟩ <;> decide +kernel
  · refine ⟨wAxis 6, 31, 8, ?_, ?_, ?_⟩ <;> decide +kernel

/-- States and operands that meet the hypotheses of AxisMotionCommands, clause by clause. -/
theorem test_wit_AxisMotionCommands :
    (∃ (s : State) (n : Fin 9) (x : Fin 512) (w : Nat) (a : Nat), s.issuedEntry n.val x.val = some w ∧ s.axisOfTask n.val x.val = some a
    ∧ s.ctxTarget n.val x.val = 1 ∧ (s.entryOf n.val x.val w).done = false ∧ s.inUse (Res.crew n.val) = true ∧ s.engineFrozen n.val 2 = false) ∧
    (∃ (s : State) (n : Fin 9) (x : Fin 512) (w : Nat) (a : Nat), s.issuedEntry n.val x.val = some w ∧ s.axisOfTask n.val x.val = some a
    ∧ s.engineFrozen n.val 2 = true) ∧
    (∃ (s : State) (a : Fin 32) (n : Nat), s.axCrew a.val = some n ∧ n < 9 ∧ s.axState n a.val = 0) ∧
    (∃ (s : State) (a : Fin 32) (n : Nat), s.axCrew a.val = some n ∧ n < 9 ∧ s.axState n a.val ≠ 0) ∧
    (∃ (s : State) (a : Fin 32) (n : Nat), s.axCrew a.val = some n ∧ n < 9 ∧ (s.axState n a.val = 1 ∨ s.axState n a.val = 3 ∨ s.axState n a.val = 7)) ∧
    (∃ (s : State) (a : Fin 32) (n : Nat), s.axCrew a.val = some n ∧ n < 9 ∧ s.axState n a.val = 2 ∧ (s.axisOf a.val).gear = none) ∧
    (∃ (s : State) (a : Fin 32) (n : Nat) (r : StopRec), s.axCrew a.val = some n ∧ n < 9 ∧ s.axState n a.val = 4 ∧ (s.axisOf a.val).stop = some r
    ∧ (s.axisOf a.val).rest = false) ∧
    (∃ (s : State) (a : Fin 32) (n : Nat) (g : Gear), s.axCrew a.val = some n ∧ n < 9 ∧ s.axState n a.val = 5 ∧ (s.axisOf a.val).gear = some g) ∧
    (∃ (s : State) (a : Fin 32) (n : Nat) (h : Home), s.axCrew a.val = some n ∧ n < 9 ∧ s.axState n a.val = 6 ∧ (s.axisOf a.val).home = some h
    ∧ (s.axisOf a.val).rest = false) ∧
    (∃ (s : State) (n : Nat) (a : Nat) (want : Int), n < 9 ∧ a < 32 ∧ want = steps (s.axisOf a).cpos - (s.axisOf a).ofs ∧ want = (s.axisOf a).s) ∧
    (∃ (s : State) (n : Nat) (a : Nat) (want : Int), n < 9 ∧ a < 32 ∧ want = steps (s.axisOf a).cpos - (s.axisOf a).ofs ∧ (s.axisOf a).s < want
    ∧ (want - (s.axisOf a).s).natAbs ≤ s.fld (F.AX_CFG_LAG_MAX n (a % 4)) ∧ (s.axisOf a).dirHigh = !s.flag (F.AX_CFG_DIR_INV n (a % 4))
    ∧ (s.stepTimes n a).stepHigh = true ∧ 6 * s.fld (F.AX_STEP_T_PER_MIN n (a % 4)) ≤ (s.stepTimes n a).stepT
    ∧ 6 * s.fld (F.AX_STEP_T_DIR_SETUP n (a % 4)) ≤ (s.stepTimes n a).dirT) ∧
    (∃ (s : State) (n : Nat) (a : Nat) (want : Int), n < 9 ∧ a < 32 ∧ want = steps (s.axisOf a).cpos - (s.axisOf a).ofs ∧ (s.axisOf a).s < want
    ∧ (want - (s.axisOf a).s).natAbs ≤ s.fld (F.AX_CFG_LAG_MAX n (a % 4)) ∧ (s.axisOf a).dirHigh = s.flag (F.AX_CFG_DIR_INV n (a % 4))) ∧
    (∃ (s : State) (a : Fin 32) (n : Nat) (u : State), s.axCrew a.val = some n ∧ n < 9 ∧ s.rampOver a.val = true
    ∧ u = (s.motStatus n a.val 3).settle a.val ∧ s.axState n a.val = 4 ∧ (u.axisOf a.val).disable = true) ∧
    (∃ (s : State) (a : Fin 32) (n : Nat) (u : State), s.axCrew a.val = some n ∧ n < 9 ∧ s.rampOver a.val = true
    ∧ u = (s.motStatus n a.val 3).settle a.val ∧ s.axState n a.val = 4 ∧ (u.axisOf a.val).disable = false ∧ (u.axisOf a.val).fault ≠ 0) ∧
    (∃ (s : State) (a : Fin 32) (n : Nat) (u : State), s.axCrew a.val = some n ∧ n < 9 ∧ s.rampOver a.val = true
    ∧ u = (s.motStatus n a.val 3).settle a.val ∧ s.axState n a.val = 4 ∧ (u.axisOf a.val).disable = false ∧ (u.axisOf a.val).fault = 0
    ∧ (u.axisOf a.val).rtTable = none) ∧
    (∃ (s : State) (a : Fin 32) (n : Nat) (h : Home), s.axCrew a.val = some n ∧ n < 9 ∧ s.rampOver a.val = true ∧ s.axState n a.val = 6
    ∧ (s.axisOf a.val).home = some h ∧ h.phase = HomePhase.refStop) ∧
    (∃ (s : State) (a : Fin 32) (n : Nat) (h : Home), s.axCrew a.val = some n ∧ n < 9 ∧ s.rampOver a.val = true ∧ s.axState n a.val = 6
    ∧ (s.axisOf a.val).home = some h ∧ h.phase = HomePhase.failStop) ∧
    (∃ (s : State) (a : Fin 32), s.rampOver a.val = false) ∧
    (∃ (s : State) (a : Fin 32) (n : Nat) (k : Nat), s.axCrew a.val = some n ∧ n < 9 ∧ (s.axisOf a.val).rtTable = some k ∧ s.axState n a.val = 4
    ∧ (s.axisOf a.val).rest = true ∧ s.mtReady n k = false ∧ (s.axisOf a.val).restAt + 600 * s.fld (F.AX_RT_RT_WAIT_US n (a.val % 4)) ≤ s.time.cycle) ∧
    (∃ (s : State) (a : Fin 32) (n : Nat) (k : Nat), s.axCrew a.val = some n ∧ n < 9 ∧ (s.axisOf a.val).rtTable = some k ∧ s.axState n a.val = 4
    ∧ (s.axisOf a.val).rest = true ∧ (s.mtReady n k = true ∨ s.time.cycle < (s.axisOf a.val).restAt + 600 * s.fld (F.AX_RT_RT_WAIT_US n (a.val % 4)))) ∧
    (∃ (s : State) (a : Fin 32) (n : Nat) (pos : Bool), s.axCrew a.val = some n ∧ (s.axisOf a.val).clear = none
    ∧ (if pos = true then s.limPos n a.val else s.limNeg n a.val) = some true
    ∧ (if pos = true then 0 < (s.axisOf a.val).cvel else (s.axisOf a.val).cvel < 0) ∧ (s.axState n a.val = 2 ∨ s.axState n a.val = 3
    ∨ s.axState n a.val = 4 ∨ s.axState n a.val = 5)) ∧
    (∃ (s : State) (a : Fin 32) (n : Nat) (pos : Bool) (h : Home), s.axCrew a.val = some n ∧ (s.axisOf a.val).clear = none
    ∧ (if pos = true then s.limPos n a.val else s.limNeg n a.val) = some true
    ∧ (if pos = true then 0 < (s.axisOf a.val).cvel else (s.axisOf a.val).cvel < 0) ∧ s.axState n a.val = 6 ∧ (s.axisOf a.val).home = some h ∧ h.mode ≠ 2
    ∧ h.mode ≠ 3) ∧
    (∃ (s : State) (a : Fin 32) (n : Nat) (pos : Bool), s.axCrew a.val = some n ∧ (s.axisOf a.val).clear = none
    ∧ (if pos = true then s.limPos n a.val else s.limNeg n a.val) = some true ∧ (s.axisOf a.val).cvel = 0) ∧
    (∃ (s : State) (a : Fin 32) (n : Nat) (g : Gear) (num : Int) (den : Nat) (sw : Int) (b : Nat), s.axCrew a.val = some n ∧ n < 9
    ∧ (s.axisOf a.val).gear = some g ∧ g.pend = some (num, den, sw, b) ∧ s.encCount g.enc = sw) ∧
    (∃ (s : State) (a : Fin 32) (n : Nat) (g : Gear) (num : Int) (den : Nat) (sw : Int) (b : Nat), s.axCrew a.val = some n ∧ n < 9
    ∧ (s.axisOf a.val).gear = some g ∧ g.pend = some (num, den, sw, b) ∧ s.encCount g.enc ≠ sw) ∧
    (∃ (s : State) (a : Fin 32) (n : Nat) (g : Gear), s.axCrew a.val = some n ∧ n < 9 ∧ (s.axisOf a.val).gear = some g ∧ g.pend = none) ∧
    (∃ (g : Gear) (sw : Int) (m : Int), g.prev = none ∧ m < sw) ∧
    (∃ (s : State) (a : Fin 32) (n : Nat) (h : Home), s.axCrew a.val = some n ∧ (s.axisOf a.val).home = some h ∧ h.phase = HomePhase.search ∧ h.mode ≤ 3
    ∧ s.homeRef n a.val h.mode = some true ∧ (s.axisOf a.val).clear = none) ∧
    (∃ (s : State) (a : Fin 32) (n : Nat) (h : Home), s.axCrew a.val = some n ∧ (s.axisOf a.val).home = some h ∧ h.phase = HomePhase.search ∧ (h.mode = 4
    ∨ h.mode = 5) ∧ s.homeRef n a.val h.mode = some true ∧ (s.axisOf a.val).clear = none) ∧
    (∃ (s : State) (a : Fin 32) (n : Nat) (h : Home), s.axCrew a.val = some n ∧ (s.axisOf a.val).home = some h ∧ h.phase = HomePhase.index) ∧
    (∃ (s : State) (a : Fin 32) (n : Nat) (h : Home), s.axCrew a.val = some n ∧ (s.axisOf a.val).home = some h ∧ h.phase = HomePhase.search
    ∧ (s.homeRef n a.val h.mode ≠ some true ∨ (s.axisOf a.val).clear.isSome = true)) := by
  refine ⟨?_, ?_, ?_, ?_, ?_, ?_, ?_, ?_, ?_, ?_, ?_, ?_, ?_, ?_, ?_, ?_, ?_, ?_, ?_, ?_, ?_, ?_, ?_, ?_, ?_, ?_, ?_, ?_, ?_, ?_, ?_⟩
  · refine ⟨(wIssued 1).setImg { State.reset.img with axctx := [(7, [0, 1, 2, 511])] }, 8, 511, 1, 31, ?_, ?_, ?_, ?_, ?_, ?_⟩ <;> decide +kernel
  · refine ⟨((wIssued 1).setRbit (Reg.FWL_FROZEN 1) 18 true).setImg { State.reset.img with axctx := [(7, [0, 1, 2, 511])] }, 8, 511, 1, 31, ?_, ?_, ?_⟩ <;> decide +kernel
  · refine ⟨wAxis 0, 31, 8, ?_, ?_, ?_⟩ <;> decide +kernel
  · refine ⟨wAxis 1, 31, 8, ?_, ?_, ?_⟩ <;> decide +kernel
  · refine ⟨wAxis 7, 31, 8, ?_, ?_, ?_⟩ <;> decide +kernel
  · refine ⟨wAxis 2, 31, 8, ?_, ?_, ?_, ?_⟩ <;> decide +kernel
  · refine ⟨(wAxis 4).setAxis 31 { Axis.init with stop := some ⟨0, 0, 4294967296, 1, 0, 10, 20⟩ }, 31, 8, ⟨0, 0, 4294967296, 1, 0, 10, 20⟩, ?_, ?_, ?_, ?_, ?_⟩ <;> decide +kernel
  · refine ⟨(wAxis 5).setAxis 31 { Axis.init with gear := some ⟨15, ⟨3, 7, 1000, 0, 5000⟩, none, none⟩ }, 31, 8, ⟨15, ⟨3, 7, 1000, 0, 5000⟩, none, none⟩, ?_, ?_,
      ?_, ?_⟩ <;> decide +kernel
  · refine ⟨(wAxis 6).setAxis 31 { Axis.init with home := some ⟨0, .search, false, 0, 0, none, none, 0⟩ }, 31, 8, ⟨0, .search, false, 0, 0, none, none, 0⟩, ?_,
      ?_, ?_, ?_, ?_⟩ <;> decide +kernel
  · refine ⟨wAxis 1, 8, 31, _, ?_, ?_, rfl, rfl⟩ <;> decide +kernel
  · refine ⟨(((wAxis 1).setFld (F.AX_CFG_LAG_MAX 8 3) 5).setFld (F.AX_STEP_T_PER_MIN 8 3) 10).setAxis 31 { Axis.init with cpos := 4294967296, stepT := 59, dirT := 10000 },
      8, 31, _, ?_, ?_, rfl, ?_, ?_, ?_, ?_, ?_, ?_⟩ <;> decide +kernel
  · refine ⟨(((wAxis 1).setFld (F.AX_CFG_LAG_MAX 8 3) 5).setFld (F.AX_STEP_T_PER_MIN 8 3) 10).setAxis 31 { Axis.init with cpos := 4294967296, dirHigh := false },
      8, 31, _, ?_, ?_, rfl, ?_, ?_, ?_⟩ <;> decide +kernel
  · refine ⟨(wAxis 4).setAxis 31 { Axis.init with disable := true, stopPos := 77, stop := some ⟨0, 0, 0, 1, 1, 0, 0⟩ }, 31, 8, _, ?_, ?_, ?_, rfl, ?_, ?_⟩ <;> decide +kernel
  · refine ⟨(wAxis 4).setAxis 31 { Axis.init with fault := 3, stopPos := 77, stop := some ⟨0, 0, 0, 1, 1, 0, 0⟩ }, 31, 8, _, ?_, ?_, ?_, rfl, ?_, ?_, ?_⟩ <;> decide +kernel
  · refine ⟨(wAxis 4).setAxis 31 { Axis.init with stopPos := 77, stop := some ⟨0, 0, 0, 1, 1, 0, 0⟩ }, 31, 8, _, ?_, ?_, ?_, rfl, ?_, ?_, ?_, ?_⟩ <;> decide +kernel
  · refine ⟨(wAxis 6).setAxis 31 { Axis.init with home := some ⟨0, .refStop, false, 0, 0, none, none, 0⟩, stop := some ⟨0, 0, 0, 1, 1, 0, 0⟩ }, 31, 8, ⟨0,
      .refStop, false, 0, 0, none, none, 0⟩, ?_, ?_, ?_, ?_, ?_, ?_⟩ <;> decide +kernel
  · refine ⟨(wAxis 6).setAxis 31 { Axis.init with home := some ⟨0, .failStop, false, 0, 0, none, none, 0⟩, stop := some ⟨0, 0, 0, 1, 1, 0, 0⟩ }, 31, 8, ⟨0,
      .failStop, false, 0, 0, none, none, 0⟩, ?_, ?_, ?_, ?_, ?_, ?_⟩ <;> decide +kernel
  · refine ⟨State.reset, 31, ?_⟩ <;> decide +kernel
  · refine ⟨((wAxis 4).setFld (F.AX_RT_RT_WAIT_US 8 3) 0).setAxis 31 { Axis.init with rtTable := some 63, rest := true }, 31, 8, 63, ?_, ?_, ?_, ?_, ?_, ?_, ?_⟩ <;> decide +kernel
  · refine ⟨((wAxis 4).setFld (F.MT_CTRL_READY 8 63) 1).setAxis 31 { Axis.init with rtTable := some 63, rest := true }, 31, 8, 63, ?_, ?_, ?_, ?_, ?_, ?_⟩ <;> decide +kernel
  · refine ⟨((wAxis 5).setFld (F.AX_INPUTS_LIM_POS 8 3) 0x85).setAxis 31 { Axis.init with cvel := 1 }, 31, 8, true, ?_, ?_, ?_, ?_, ?_⟩ <;> decide +kernel
  · refine ⟨((wAxis 6).setFld (F.AX_INPUTS_LIM_NEG 8 3) 0x85).setAxis 31 { Axis.init with cvel := -1, home := some ⟨0, .search, false, 0, 0, none, none, 0⟩ },
      31, 8, false, ⟨0, .search, false, 0, 0, none, none, 0⟩, ?_, ?_, ?_, ?_, ?_, ?_, ?_, ?_⟩ <;> decide +kernel
  · refine ⟨((wAxis 5).setFld (F.AX_INPUTS_LIM_POS 8 3) 0x85).setAxis 31 { Axis.init with cvel := 0 }, 31,
      ((((wAxis 5).setFld (F.AX_INPUTS_LIM_POS 8 3) 0x85).setAxis 31 { Axis.init with cvel := 0 }).axCrew (31 : Fin 32).val).getD default, true, ?_, ?_, ?_,
      ?_⟩ <;> decide +kernel
  · refine ⟨((wAxis 5).setNum (Reg.ENC_ACC_LO 15) 5010).setAxis 31 { Axis.init with gear := some ⟨15, ⟨3, 7, 1000, 0, 5000⟩, none, some (5, 11, 5010, 0)⟩ }, 31,
      8, ⟨15, ⟨3, 7, 1000, 0, 5000⟩, none, some (5, 11, 5010, 0)⟩, 5, 11, 5010, 0, ?_, ?_, ?_, ?_, ?_⟩ <;> decide +kernel
  · refine ⟨(wAxis 5).setAxis 31 { Axis.init with gear := some ⟨15, ⟨3, 7, 1000, 0, 5000⟩, none, some (5, 11, 5010, 0)⟩ }, 31,
      (((wAxis 5).setAxis 31 { Axis.init with gear := some ⟨15, ⟨3, 7, 1000, 0, 5000⟩, none, some (5, 11, 5010, 0)⟩ }).axCrew (31 : Fin 32).val).getD default,
      ⟨15, ⟨3, 7, 1000, 0, 5000⟩, none, some (5, 11, 5010, 0)⟩, 5, 11, 5010, 0, ?_, ?_, ?_, ?_, ?_⟩ <;> decide +kernel
  · refine ⟨(wAxis 5).setAxis 31 { Axis.init with gear := some ⟨15, ⟨3, 7, 1000, 0, 5000⟩, none, none⟩ }, 31, 8, ⟨15, ⟨3, 7, 1000, 0, 5000⟩, none, none⟩, ?_, ?_,
      ?_, ?_⟩ <;> decide +kernel
  · refine ⟨⟨15, ⟨3, 7, 1000, 0, 5000⟩, none, none⟩, 5010, 5009, ?_, ?_⟩ <;> decide +kernel
  · refine ⟨((wAxis 6).setFld (F.AX_INPUTS_HOME 8 3) 0x85).setAxis 31 { Axis.init with home := some ⟨0, .search, false, 0, 0, none, none, 0⟩ }, 31,
      ((((wAxis 6).setFld (F.AX_INPUTS_HOME 8 3) 0x85).setAxis 31 { Axis.init with home := some ⟨0, .search, false, 0, 0, none, none, 0⟩ }).axCrew (31 : Fin 32).val).getD default,
      ⟨0, .search, false, 0, 0, none, none, 0⟩, ?_, ?_, ?_, ?_, ?_, ?_⟩ <;> decide +kernel
  · refine ⟨((wAxis 6).setFld (F.AX_INPUTS_HOME 8 3) 0x85).setAxis 31 { Axis.init with home := some ⟨5, .search, false, 0, 0, none, none, 0⟩ }, 31, 8, ⟨5,
      .search, false, 0, 0, none, none, 0⟩, ?_, ?_, ?_, ?_, ?_, ?_⟩ <;> decide +kernel
  · refine ⟨(wAxis 6).setAxis 31 { Axis.init with home := some ⟨4, .index, false, 0, 0, none, none, 0⟩ }, 31, 8, ⟨4, .index, false, 0, 0, none, none, 0⟩, ?_, ?_,
      ?_⟩ <;> decide +kernel
  · refine ⟨(wAxis 6).setAxis 31 { Axis.init with home := some ⟨3, .search, false, 0, 0, none, none, 0⟩ }, 31, 8, ⟨3, .search, false, 0, 0, none, none, 0⟩, ?_,
      ?_, ?_, ?_⟩ <;> decide +kernel

/-- States and operands that meet the hypotheses of BrakeCommands, clause by clause. -/
theorem test_wit_BrakeCommands :
    (∃ (s : State) (b : Fin 8), ((s.brkOf b.val).on = false ∨ s.time.cycle < (s.brkOf b.val).since + parWord s.pvm.par (offBrk b.val + 24) * cycPerMs)) ∧
    (∃ (s : State) (b : Fin 8), (s.brkOf b.val).on = true ∧ (s.brkOf b.val).since + parWord s.pvm.par (offBrk b.val + 24) * cycPerMs ≤ s.time.cycle) ∧
    (∃ (s : State) (o : Fin 12) (t0 : Nat), t0 = (Tab.find s.pvm.otAt o.val).getD s.pvm.frame0 ∧ (s.pavOutOn o.val = false
    ∨ s.time.cycle < t0 + s.par 64 0 16 * 1000 * cycPerMs)) ∧
    (∃ (s : State) (o : Fin 12) (t0 : Nat), t0 = (Tab.find s.pvm.otAt o.val).getD s.pvm.frame0 ∧ s.pavOutOn o.val = true
    ∧ t0 + s.par 64 0 16 * 1000 * cycPerMs ≤ s.time.cycle ∧ o.val < 8) ∧
    (∃ (s : State) (o : Fin 12) (t0 : Nat), t0 = (Tab.find s.pvm.otAt o.val).getD s.pvm.frame0 ∧ s.pavOutOn o.val = true
    ∧ t0 + s.par 64 0 16 * 1000 * cycPerMs ≤ s.time.cycle ∧ 8 ≤ o.val) ∧
    (∃ (s : State) (o : Fin 12) (a : Nat) (t0 : Nat), o.val < 8 ∧ s.brkAxis o.val = some a ∧ s.brkFault o.val = true ∧ s.inUse (Res.brake o.val) = true
    ∧ s.axisEnabled a = false ∧ (s.brkOf o.val).offAt = some t0 ∧ t0 + 1000 * cycPerMs ≤ s.time.cycle) ∧
    (∃ (s : State) (o : Fin 12) (a : Nat), o.val < 8 ∧ s.brkAxis o.val = some a ∧ (s.brkFault o.val = false ∨ s.inUse (Res.brake o.val) = false
    ∨ s.axisEnabled a = true ∨ ∀ (t0 : ℕ), (s.brkOf o.val).offAt = some t0 → s.time.cycle < t0 + 1000 * cycPerMs)) ∧
    (∃ (s : State) (o : Fin 12), o.val < 8 ∧ s.brkAxis o.val = none) ∧
    (∃ (s : State) (o : Fin 12) (t0 : Nat), 8 ≤ o.val ∧ s.grpFault (o.val - 8) = true ∧ s.inUse (Res.group (o.val - 8)) = true
    ∧ Tab.get (fun x => none) s.pvm.grpOff (o.val - 8) = some t0 ∧ t0 + 1000 * cycPerMs ≤ s.time.cycle) ∧
    (∃ (s : State) (o : Fin 12), 8 ≤ o.val ∧ (s.grpFault (o.val - 8) = false ∨ s.inUse (Res.group (o.val - 8)) = false ∨ ∀ (t0 : ℕ),
    Tab.get (fun x => none) s.pvm.grpOff (o.val - 8) = some t0 → s.time.cycle < t0 + 1000 * cycPerMs)) ∧
    (∃ (s : State) (b : Fin 8), s.brkAxis b.val ≠ none ∧ (bit (s.fld F.PVM_BRK_DUE) b.val = true ∨ (s.brkOf b.val).min < s.brkDueMin b.val)) ∧
    (∃ (s : State) (b : Fin 8), s.brkAxis b.val ≠ none ∧ (bit (s.fld F.PVM_BRK_OVERDUE) b.val = true
    ∨ (s.brkOf b.val).min < s.brkDueMin b.val + s.par (offBrk b.val + 8) 8 16)) ∧
    (∃ (s : State) (b : Fin 8), s.brkAxis b.val ≠ none ∧ bit (s.fld F.PVM_BRK_DUE) b.val = false ∧ s.brkDueMin b.val ≤ (s.brkOf b.val).min) ∧
    (∃ (s : State) (b : Fin 8), s.brkAxis b.val ≠ none ∧ bit (s.fld F.PVM_BRK_OVERDUE) b.val = false
    ∧ s.brkDueMin b.val + s.par (offBrk b.val + 8) 8 16 ≤ (s.brkOf b.val).min) ∧
    (∃ (s : State) (b : Fin 8), s.brkAxis b.val = none) ∧
    (∃ (s : State), s.time.cycle < s.pvm.minAt + 60000 * cycPerMs) ∧
    (∃ (s : State), s.pvm.minAt + 60000 * cycPerMs ≤ s.time.cycle) ∧
    (∃ (s : State) (b : Fin 8), (s.brkOf b.val).test = none) ∧
    (∃ (s : State) (b : Fin 8) (x : BrkTest), (s.brkOf b.val).test = some x
    ∧ s.time.cycle < x.at_ + parWord s.pvm.par (offBrk b.val + 20) * 1000 * cycPerMs) ∧
    (∃ (s : State) (b : Fin 8) (x : BrkTest), (s.brkOf b.val).test = some x
    ∧ x.at_ + parWord s.pvm.par (offBrk b.val + 20) * 1000 * cycPerMs ≤ s.time.cycle) ∧
    (∃ (s : State), s.mbHas 1 5 = false) ∧
    (∃ (s : State), s.mbHas 1 6 = false) ∧
    (∃ (s : State) (b : Nat), s.mbHas 1 5 = true ∧ b = s.mbReq 1 1 ∧ (8 ≤ b ∨ s.brkAxis b = none)) ∧
    (∃ (s : State) (b : Nat) (a : Nat), s.mbHas 1 5 = true ∧ b = s.mbReq 1 1 ∧ b < 8 ∧ s.brkAxis b = some a ∧ (s.pavState ≠ 1 ∨ s.brkFault b = true
    ∨ (s.brkOf b).test ≠ none)) ∧
    (∃ (s : State) (b : Nat) (a : Nat) (n : Nat), s.mbHas 1 5 = true ∧ b = s.mbReq 1 1 ∧ b < 8 ∧ s.brkAxis b = some a ∧ s.pavState = 1
    ∧ s.brkFault b = false ∧ (s.brkOf b).test = none ∧ s.axCrew a = some n ∧ 2 ≤ s.axState n a) ∧
    (∃ (s : State) (b : Nat) (a : Nat) (n : Nat), s.mbHas 1 5 = true ∧ b = s.mbReq 1 1 ∧ b < 8 ∧ s.brkAxis b = some a ∧ s.pavState = 1
    ∧ s.brkFault b = false ∧ (s.brkOf b).test = none ∧ s.axCrew a = some n ∧ s.axState n a ≤ 1) ∧
    (∃ (s : State) (b : Nat), s.mbHas 1 6 = true ∧ b = s.mbReq 1 1 ∧ 8 ≤ b) ∧
    (∃ (s : State) (b : Nat), s.mbHas 1 6 = true ∧ b = s.mbReq 1 1 ∧ b < 8 ∧ (s.brkOf b).test = none) ∧
    (∃ (s : State) (b : Nat) (x : BrkTest) (n : Int), s.mbHas 1 6 = true ∧ b = s.mbReq 1 1 ∧ b < 8 ∧ (s.brkOf b).test = some x
    ∧ n = (s.par (offBrk b + 12) 0 32).cast ∧ n ≤ x.hi ∧ x.lo ≤ -n) ∧
    (∃ (s : State) (b : Nat) (x : BrkTest) (n : Int), s.mbHas 1 6 = true ∧ b = s.mbReq 1 1 ∧ b < 8 ∧ (s.brkOf b).test = some x
    ∧ n = (s.par (offBrk b + 12) 0 32).cast ∧ (x.hi < n ∨ -n < x.lo)) ∧
    (∃ (s : State) (b : Nat) (x : BrkTest), b < 8 ∧ (s.brkOf b).test = some x) := by
  refine ⟨?_, ?_, ?_, ?_, ?_, ?_, ?_, ?_, ?_, ?_, ?_, ?_, ?_, ?_, ?_, ?_, ?_, ?_, ?_, ?_, ?_, ?_, ?_, ?_, ?_, ?_, ?_, ?_, ?_, ?_, ?_⟩
  · refine ⟨State.reset, 7, ?_⟩ <;> decide +kernel
  · refine ⟨(State.reset).setPvm { State.reset.pvm with brks := [(7, { Brk.init with on := true })] }, 7, ?_, ?_⟩ <;> decide +kernel
  · refine ⟨State.reset, 11, _, rfl, ?_⟩ <;> decide +kernel
  · refine ⟨(State.reset).setPvm { State.reset.pvm with brks := [(7, { Brk.init with on := true })] }, 7, _, rfl, ?_, ?_, ?_⟩ <;> decide +kernel
  · refine ⟨(State.reset).setFld F.PVM_GRP_ON 8, 11, _, rfl, ?_, ?_, ?_⟩ <;> decide +kernel
  · refine ⟨(((State.reset).setFld F.PVM_BRK_FAULT 0x80).setPvm { State.reset.pvm with par := [(0x2E0, 0x1F), (0x2E3, 0x80), (0x2EC, 0x64)], brks := [(7, { Brk.init with offAt := some 0 })] }).setTime { State.reset.time with cycle := 600000000 },
      7, 31,
      ((((((State.reset).setFld F.PVM_BRK_FAULT 0x80).setPvm { State.reset.pvm with par := [(0x2E0, 0x1F), (0x2E3, 0x80), (0x2EC, 0x64)], brks := [(7, { Brk.init with offAt := some 0 })] }).setTime { State.reset.time with cycle := 600000000 }).brkOf (7 : Fin 12).val).offAt).getD default,
      ?_, ?_, ?_, ?_, ?_, ?_, ?_⟩ <;> decide +kernel
  · refine ⟨(State.reset).setPvm { State.reset.pvm with par := [(0x2E0, 0x1F), (0x2E3, 0x80), (0x2EC, 0x64)] }, 7, 31, ?_, ?_, ?_⟩ <;> decide +kernel
  · refine ⟨State.reset, 7, ?_, ?_⟩ <;> decide +kernel
  · refine ⟨(((State.reset).setFld F.PVM_GRP_FAULT 8).setPvm { State.reset.pvm with grpOff := [(3, some 0)] }).setTime { State.reset.time with cycle := 600000000 },
      11,
      (Tab.get (fun x => none) ((((State.reset).setFld F.PVM_GRP_FAULT 8).setPvm { State.reset.pvm with grpOff := [(3, some 0)] }).setTime { State.reset.time with cycle := 600000000 }).pvm.grpOff ((11 : Fin 12).val - 8)).getD default,
      ?_, ?_, ?_, ?_, ?_⟩ <;> decide +kernel
  · refine ⟨State.reset, 11, ?_, ?_⟩ <;> decide +kernel
  · refine ⟨((State.reset).setFld F.PVM_BRK_DUE 0x80).setPvm { State.reset.pvm with par := [(0x2E0, 0x1F), (0x2E3, 0x80), (0x2EC, 0x64)] }, 7, ?_, ?_⟩ <;> decide +kernel
  · refine ⟨((State.reset).setFld F.PVM_BRK_OVERDUE 0x80).setPvm { State.reset.pvm with par := [(0x2E0, 0x1F), (0x2E3, 0x80), (0x2EC, 0x64)] }, 7, ?_, ?_⟩ <;> decide +kernel
  · refine ⟨(State.reset).setPvm { State.reset.pvm with par := [(0x2E0, 0x1F), (0x2E3, 0x80), (0x2EC, 0x64)] }, 7, ?_, ?_, ?_⟩ <;> decide +kernel
  · refine ⟨(State.reset).setPvm { State.reset.pvm with par := [(0x2E0, 0x1F), (0x2E3, 0x80), (0x2EC, 0x64)] }, 7, ?_, ?_, ?_⟩ <;> decide +kernel
  · refine ⟨State.reset, 7, ?_⟩ <;> decide +kernel
  · refine ⟨State.reset, ?_⟩ <;> decide +kernel
  · refine ⟨(State.reset).setTime { State.reset.time with cycle := 36000000000 }, ?_⟩ <;> decide +kernel
  · refine ⟨State.reset, 7, ?_⟩ <;> decide +kernel
  · refine ⟨(State.reset).setPvm { State.reset.pvm with par := [(0x2F4, 1)], brks := [(7, { Brk.init with test := some ⟨0, 0, 0, 0, 0, 50, -50, 0⟩ })] }, 7, ⟨0,
      0, 0, 0, 0, 50, -50, 0⟩, ?_, ?_⟩ <;> decide +kernel
  · refine ⟨(State.reset).setPvm { State.reset.pvm with brks := [(7, { Brk.init with test := some ⟨0, 0, 0, 0, 0, 50, -50, 0⟩ })] }, 7, ⟨0, 0, 0, 0, 0, 50, -50,
      0⟩, ?_, ?_⟩ <;> decide +kernel
  · refine ⟨State.reset, ?_⟩ <;> decide +kernel
  · refine ⟨State.reset, ?_⟩ <;> decide +kernel
  · refine ⟨(((State.reset.setFld (F.PVM_MB_STATUS_BUSY 1) 1).setNum (Reg.PVM_MB_REQ 1 0) 5).setNum (Reg.PVM_MB_REQ 1 1) 8), _, ?_, rfl, ?_⟩ <;> decide +kernel
  · refine ⟨(((State.reset.setFld (F.PVM_MB_STATUS_BUSY 1) 1).setNum (Reg.PVM_MB_REQ 1 0) 5).setNum (Reg.PVM_MB_REQ 1 1) 7).setPvm { State.reset.pvm with par := [(0x2E0, 0x1F), (0x2E3, 0x80), (0x2EC, 0x64)] },
      _, 31, ?_, rfl, ?_, ?_, ?_⟩ <;> decide +kernel
  · refine ⟨((((((State.reset.setFld (F.PVM_MB_STATUS_BUSY 1) 1).setNum (Reg.PVM_MB_REQ 1 0) 5).setNum (Reg.PVM_MB_REQ 1 1) 7).setFld F.PVM_STATUS_STATE 1).setNum Reg.IML_CREWMAP 0x86543210).setAxState 8 31 2).setPvm { State.reset.pvm with par := [(0x2E0, 0x1F), (0x2E3, 0x80), (0x2EC, 0x64)] },
      _, 31, 8, ?_, rfl, ?_, ?_, ?_, ?_, ?_, ?_, ?_⟩ <;> decide +kernel
  · refine ⟨((((((State.reset.setFld (F.PVM_MB_STATUS_BUSY 1) 1).setNum (Reg.PVM_MB_REQ 1 0) 5).setNum (Reg.PVM_MB_REQ 1 1) 7).setFld F.PVM_STATUS_STATE 1).setNum Reg.IML_CREWMAP 0x86543210).setAxState 8 31 1).setPvm { State.reset.pvm with par := [(0x2E0, 0x1F), (0x2E3, 0x80), (0x2EC, 0x64)] },
      _, 31, 8, ?_, rfl, ?_, ?_, ?_, ?_, ?_, ?_, ?_⟩ <;> decide +kernel
  · refine ⟨(((State.reset.setFld (F.PVM_MB_STATUS_BUSY 1) 1).setNum (Reg.PVM_MB_REQ 1 0) 6).setNum (Reg.PVM_MB_REQ 1 1) 8), _, ?_, rfl, ?_⟩ <;> decide +kernel
  · refine ⟨(((State.reset.setFld (F.PVM_MB_STATUS_BUSY 1) 1).setNum (Reg.PVM_MB_REQ 1 0) 6).setNum (Reg.PVM_MB_REQ 1 1) 7), _, ?_, rfl, ?_, ?_⟩ <;> decide +kernel
  · refine ⟨((((State.reset).setFld (F.PVM_MB_STATUS_BUSY 1) 1).setNum (Reg.PVM_MB_REQ 1 0) 6).setNum (Reg.PVM_MB_REQ 1 1) 7).setPvm { State.reset.pvm with par := [(0x2E0, 0x1F), (0x2E3, 0x80), (0x2EC, 0x64)], brks := [(7, { Brk.init with test := some ⟨0, 0, 0, 0, 0, 150, -150, 0⟩ })] },
      _, ⟨0, 0, 0, 0, 0, 150, -150, 0⟩, _, ?_, rfl, ?_, ?_, rfl, ?_, ?_⟩ <;> decide +kernel
  · refine ⟨((((State.reset).setFld (F.PVM_MB_STATUS_BUSY 1) 1).setNum (Reg.PVM_MB_REQ 1 0) 6).setNum (Reg.PVM_MB_REQ 1 1) 7).setPvm { State.reset.pvm with par := [(0x2E0, 0x1F), (0x2E3, 0x80), (0x2EC, 0x64)], brks := [(7, { Brk.init with test := some ⟨0, 0, 0, 0, 0, 50, -50, 0⟩ })] },
      _, ⟨0, 0, 0, 0, 0, 50, -50, 0⟩, _, ?_, rfl, ?_, ?_, rfl, ?_⟩ <;> decide +kernel
  · refine ⟨(State.reset).setPvm { State.reset.pvm with brks := [(7, { Brk.init with test := some ⟨0, 0, 0, 0, 0, 50, -50, 0⟩ })] }, 7, ⟨0, 0, 0, 0, 0, 50, -50,
      0⟩, ?_, ?_⟩ <;> decide +kernel

/-- States and operands that meet the hypotheses of CalibrationCommands, clause by clause. -/
theorem test_wit_CalibrationCommands :
    (∃ (s : State) (ch : BitVec 8) (r : BitVec 2), s.calState = 0 ∧ ch.toNat < 128 ∧ s.hasEntry ch.toNat r.toNat = true
    ∧ s.inUse (Res.conv (convOfChan ch.toNat)) = true) ∧
    (∃ (s : State), s.calState ≠ 0) ∧
    (∃ (s : State), (s.calState = 1 ∨ s.calState = 3 ∨ s.calState = 4)) ∧
    (∃ (s : State), s.calState = 2 ∧ s.cal.bad = false ∧ s.fld F.AFE_CAL_N_N ≤ s.cal.cnt ∧ s.cal.high = false) ∧
    (∃ (s : State), s.calState = 2 ∧ s.cal.bad = false ∧ s.fld F.AFE_CAL_N_N ≤ s.cal.cnt ∧ s.cal.high = true) ∧
    (∃ (s : State) (gain : Word), (s.calState = 3 ∨ s.calState = 4) ∧ s.flag F.AFE_CAL_STATUS_HAVE_LO = true ∧ s.flag F.AFE_CAL_STATUS_HAVE_HI = true
    ∧ gain = F32.div (F32.sub s.cal.x1 s.cal.x0) (F32.sub s.cal.u1 s.cal.u0)
    ∧ calVerdict s.cal.range (F32.sub s.cal.x1 s.cal.x0) gain (F32.sub s.cal.x0 (F32.mul gain s.cal.u0)) = 0) ∧
    (∃ (s : State), s.flag F.AFE_CAL_STATUS_HAVE_LO = false) ∧
    (∃ (s : State) (r : Nat), s.calState = 5 ∧ s.cal.ch < 128 ∧ r = 4 * s.cal.ch + s.cal.range ∧ s.calNewest r = none) ∧
    (∃ (s : State), s.calState ≠ 0 ∧ s.cal.ch < 128) ∧
    (∃ (s : State) (ch : BitVec 8) (r : BitVec 2), s.calState = 0 ∧ rangeOk ch.toNat r.toNat = true) := by
  refine ⟨?_, ?_, ?_, ?_, ?_, ?_, ?_, ?_, ?_, ?_⟩
  · refine ⟨(State.reset).setImg { State.reset.img with xbar := List.replicate 20 7, conv := [(15, [⟨true, 3, 10, 4, 1, 8, 2, 7, 0, 3, 0, 5, 1, false, 0, 0, 0, 0⟩])] },
      127, 3, ?_, ?_, ?_, ?_⟩ <;> decide +kernel
  · refine ⟨(State.reset).setFld F.AFE_CAL_STATUS_STATE 2, ?_⟩ <;> decide +kernel
  · refine ⟨(State.reset).setFld F.AFE_CAL_STATUS_STATE 4, ?_⟩ <;> decide +kernel
  · refine ⟨(((State.reset).setFld F.AFE_CAL_STATUS_STATE 2).setFld F.AFE_CAL_N_N 64).setCal { State.reset.cal with ch := 127, range := 2, cnt := 64, high := false, sum := 640 },
      ?_, ?_, ?_, ?_⟩ <;> decide +kernel
  · refine ⟨(((State.reset).setFld F.AFE_CAL_STATUS_STATE 2).setFld F.AFE_CAL_N_N 64).setCal { State.reset.cal with ch := 127, range := 2, cnt := 64, high := true, sum := 640 },
      ?_, ?_, ?_, ?_⟩ <;> decide +kernel
  · refine ⟨((((((State.reset).setFld F.AFE_CAL_STATUS_HAVE_LO 1).setFld F.AFE_CAL_STATUS_HAVE_HI 1).setFld F.AFE_CAL_STATUS_STATE 4).setFld F.AFE_CAL_STATUS_HAVE_LO 1).setFld F.AFE_CAL_STATUS_HAVE_HI 1).setCal { State.reset.cal with ch := 79, range := 2, x0 := 0, u0 := 0, x1 := 0x3D4CCCCD, u1 := 0x3D4CCCCD },
      _, ?_, ?_, ?_, rfl, ?_⟩ <;> decide +kernel
  · refine ⟨(State.reset).setFld F.AFE_CAL_STATUS_HAVE_LO 0, ?_⟩ <;> decide +kernel
  · refine ⟨((State.reset).setFld F.AFE_CAL_STATUS_STATE 5).setCal { State.reset.cal with ch := 127, range := 3 }, _, ?_, ?_, rfl, ?_⟩ <;> decide +kernel
  · refine ⟨((State.reset).setFld F.AFE_CAL_STATUS_STATE 5).setCal { State.reset.cal with ch := 127, range := 3 }, ?_, ?_⟩ <;> decide +kernel
  · refine ⟨State.reset, 175, 1, ?_, ?_⟩ <;> decide +kernel

/-- States and operands that meet the hypotheses of CanReceiveAndErrorCommands, clause by clause. -/
theorem test_wit_CanReceiveAndErrorCommands :
    (∃ (s : State) (n : Fin 8) (f : CanFrame) (u : State) (idx : Option Nat) (k : Nat), s.canUp n.val = true ∧ s.fld (F.CAN_CTRL_MODE n.val) ≠ 2
    ∧ (f.fdf = false ∨ s.flag (F.CAN_CTRL_FD_EN n.val) = true) ∧ (s.canOf n.val).rec_ ≤ 127
    ∧ u = (s.setCan n.val ({ s.canOf n.val with rec_ := (s.canOf n.val).rec_ - 1 })).errState n.val ∧ (f.rtr && u.flag (F.CAN_CTRL_RTR_REJ n.val)) = false
    ∧ u.canFilterOf n.val f = (idx, CanDest.fifo k)) ∧
    (∃ (s : State) (n : Fin 8) (f : CanFrame) (u : State) (idx : Option Nat) (i : Nat), s.canUp n.val = true ∧ s.fld (F.CAN_CTRL_MODE n.val) ≠ 2
    ∧ (f.fdf = false ∨ s.flag (F.CAN_CTRL_FD_EN n.val) = true) ∧ (s.canOf n.val).rec_ ≤ 127
    ∧ u = (s.setCan n.val ({ s.canOf n.val with rec_ := (s.canOf n.val).rec_ - 1 })).errState n.val ∧ (f.rtr && u.flag (F.CAN_CTRL_RTR_REJ n.val)) = false
    ∧ u.canFilterOf n.val f = (idx, CanDest.buffer i)) ∧
    (∃ (s : State) (n : Fin 8) (f : CanFrame) (u : State) (idx : Option Nat), s.canUp n.val = true ∧ s.fld (F.CAN_CTRL_MODE n.val) ≠ 2 ∧ (f.fdf = false
    ∨ s.flag (F.CAN_CTRL_FD_EN n.val) = true) ∧ (s.canOf n.val).rec_ ≤ 127
    ∧ u = (s.setCan n.val ({ s.canOf n.val with rec_ := (s.canOf n.val).rec_ - 1 })).errState n.val ∧ (f.rtr && u.flag (F.CAN_CTRL_RTR_REJ n.val)) = false
    ∧ (u.canFilterOf n.val f = (idx, CanDest.discard) ∨ u.canFilterOf n.val f = (idx, CanDest.reject))) ∧
    (∃ (s : State) (n : Fin 8) (f : CanFrame), s.canUp n.val = true ∧ s.fld (F.CAN_CTRL_MODE n.val) ≠ 2 ∧ f.fdf = true
    ∧ s.flag (F.CAN_CTRL_FD_EN n.val) = false) ∧
    (∃ (s : State) (n : Fin 8), (s.canUp n.val = false ∨ s.fld (F.CAN_CTRL_MODE n.val) = 2)) ∧
    (∃ (s : State) (n : Nat) (f : Nat) (ws : List Nat) (w : Nat), n < 8 ∧ f < 2 ∧ ws.length = 21 ∧ s.flag (F.RXF_STATUS_FULL n f) = false ∧ w < 21) ∧
    (∃ (s : State) (n : Nat) (i : Nat) (ws : List Nat) (w : Nat), n < 8 ∧ i < 64 ∧ ws.length = 21 ∧ s.rxbBit Reg.RXB_LOCK n i = false ∧ w < 21) ∧
    (∃ (s : State) (n : Nat) (i : Nat) (ws : List Nat), n < 8 ∧ i < 64 ∧ ws.length = 21 ∧ s.rxbBit Reg.RXB_LOCK n i = false
    ∧ s.rxbBit Reg.RXB_NEW n i = true) ∧
    (∃ (s : State) (n : Fin 8) (i : Fin 64), s.rxbBit Reg.RXB_NEW n.val i.val = true) ∧
    (∃ (s : State) (n : Fin 8) (i : Fin 64), s.rxbBit Reg.RXB_NEW n.val i.val = false ∧ s.rxbBit Reg.RXB_LOCK n.val i.val = false) ∧
    (∃ (s : State) (n : Fin 8) (i : Fin 64), s.rxbBit Reg.RXB_LOCK n.val i.val = true) ∧
    (∃ (s : State) (n : Fin 8) (i : Fin 64), s.rxbBit Reg.RXB_LOCK n.val i.val = false) ∧
    (∃ (s : State) (a : Nat) (i : Nat) (get : Nat) (fill : Nat), get = s.fld { addr := a, lo := 5, width := 5 }
    ∧ (fill = if s.fld { addr := a, lo := 15, width := 1 } = 1 then 32 else s.fld { addr := a, lo := 0, width := 5 }) ∧ i < 32
    ∧ (i + 32 - get) % 32 + 1 ≤ fill) ∧
    (∃ (s : State) (a : Nat) (i : Nat) (get : Nat) (fill : Nat), get = s.fld { addr := a, lo := 5, width := 5 }
    ∧ (fill = if s.fld { addr := a, lo := 15, width := 1 } = 1 then 32 else s.fld { addr := a, lo := 0, width := 5 }) ∧ i < 32
    ∧ fill < (i + 32 - get) % 32 + 1) ∧
    (∃ (s : State) (n : Fin 8), s.canUp n.val = false) ∧
    (∃ (s : State) (n : Nat), n < 8 ∧ (s.canOf n).tec ≤ 255 ∧ s.fld (F.CAN_STATUS_STATE n) ≤ 1 ∧ (128 ≤ (s.canOf n).tec ∨ 128 ≤ (s.canOf n).rec_)) ∧
    (∃ (s : State) (n : Nat), n < 8 ∧ (s.canOf n).tec ≤ 255 ∧ s.fld (F.CAN_STATUS_STATE n) ≤ 1 ∧ (s.canOf n).tec < 128 ∧ (s.canOf n).rec_ < 128) ∧
    (∃ (s : State) (n : Fin 8), s.fld (F.CAN_STATUS_STATE n.val) = 2 ∧ (s.canOf n.val).recov = none) ∧
    (∃ (s : State) (n : Fin 8), s.fld (F.CAN_STATUS_STATE n.val) ≠ 2) ∧
    (∃ (s : State) (n : Fin 8) (r : Nat), s.fld (F.CAN_STATUS_STATE n.val) = 2 ∧ (s.canOf n.val).recov = some r
    ∧ s.time.cycle < r + 1408 * s.canBit n.val) ∧
    (∃ (s : State) (n : Fin 8) (r : Nat), s.fld (F.CAN_STATUS_STATE n.val) = 2 ∧ (s.canOf n.val).recov = some r ∧ r + 1408 * s.canBit n.val ≤ s.time.cycle
    ∧ (s.canOf n.val).lead.isSome = true) ∧
    (∃ (s : State) (n : Fin 8), s.fld (F.CAN_STATUS_STATE n.val) = 3 ∧ s.flag (F.CAN_CTRL_EN n.val) = true ∧ s.inUse (Res.can n.val) = true) ∧
    (∃ (s : State) (n : Fin 8), s.fld (F.CAN_STATUS_STATE n.val) ≠ 3) ∧
    (∃ (s : State) (n : Fin 8) (r : Nat), (s.canOf n.val).suspend = some r ∧ r + 8 * s.canBit n.val ≤ s.time.cycle) ∧
    (∃ (s : State) (n : Fin 8) (r : Nat), (s.canOf n.val).suspend = some r ∧ s.time.cycle < r + 8 * s.canBit n.val) ∧
    (∃ (s : State) (n : Fin 8), n.val < 4) ∧
    (∃ (s : State) (n : Fin 8), 4 ≤ n.val) := by
  refine ⟨?_, ?_, ?_, ?_, ?_, ?_, ?_, ?_, ?_, ?_, ?_, ?_, ?_, ?_, ?_, ?_, ?_, ?_, ?_, ?_, ?_, ?_, ?_, ?_, ?_, ?_, ?_⟩
  · refine ⟨wCan.setFld (F.CAN_CTRL_NOMATCH 7) 2, 7, ⟨0x123, false, false, false, false, false, 2, [1, 2]⟩, _, none, 1, ?_, ?_, ?_, ?_, rfl, ?_, ?_⟩ <;> decide +kernel
  · refine ⟨wCan.setNum (Reg.CAN_FILTER 7 63 0) 0x48DA, 7, ⟨0x123, false, false, false, false, false, 2, [1, 2]⟩, _, some 63, 63, ?_, ?_, ?_, ?_, rfl, ?_, ?_⟩ <;> decide +kernel
  · refine ⟨wCan, 7, ⟨0x123, false, false, false, false, false, 2, [1, 2]⟩, _, none, ?_, ?_, ?_, ?_, rfl, ?_, ?_⟩ <;> decide +kernel
  · refine ⟨wCan.setFld (F.CAN_CTRL_FD_EN 7) 0, 7, ⟨0x123, false, false, false, true, false, 8, [1, 2, 3, 4, 5, 6, 7, 8]⟩, ?_, ?_, ?_, ?_⟩ <;> decide +kernel
  · refine ⟨State.reset, 7, ?_⟩ <;> decide +kernel
  · refine ⟨(((State.reset).setFld (F.RXF_STATUS_FULL 7 1) 0).setFld (F.RXF_STATUS_PUT 7 1) 31).setFld (F.RXF_STATUS_FILL 7 1) 31, 7, 1,
      List.replicate 21 0xFFFFFFFF, 20, ?_, ?_, ?_, ?_, ?_⟩ <;> decide +kernel
  · refine ⟨State.reset, 7, 63, List.replicate 21 0xFFFFFFFF, 20, ?_, ?_, ?_, ?_, ?_⟩ <;> decide +kernel
  · refine ⟨(State.reset).setRxbBit Reg.RXB_NEW 7 63 true, 7, 63, List.replicate 21 0xFFFFFFFF, ?_, ?_, ?_, ?_, ?_⟩ <;> decide +kernel
  · refine ⟨(State.reset).setRxbBit Reg.RXB_NEW 7 63 true, 7, 63, ?_⟩ <;> decide +kernel
  · refine ⟨State.reset, 7, 63, ?_, ?_⟩ <;> decide +kernel
  · refine ⟨(State.reset).setRxbBit Reg.RXB_LOCK 7 63 true, 7, 63, ?_⟩ <;> decide +kernel
  · refine ⟨State.reset, 7, 63, ?_⟩ <;> decide +kernel
  · refine ⟨(State.reset.setFld ⟨Reg.TXJ_STATUS 7, 5, 5⟩ 31).setFld ⟨Reg.TXJ_STATUS 7, 0, 5⟩ 2, Reg.TXJ_STATUS 7, 31, _, _, rfl, rfl, ?_, ?_⟩ <;> decide +kernel
  · refine ⟨(State.reset.setFld ⟨Reg.TXJ_STATUS 7, 5, 5⟩ 30).setFld ⟨Reg.TXJ_STATUS 7, 0, 5⟩ 1, Reg.TXJ_STATUS 7, 31, _, _, rfl, rfl, ?_, ?_⟩ <;> decide +kernel
  · refine ⟨State.reset, 7, ?_⟩ <;> decide +kernel
  · refine ⟨wCan.setCan 7 { CanState.init with tec := 255 }, 7, ?_, ?_, ?_, ?_⟩ <;> decide +kernel
  · refine ⟨wCan.setCan 7 { CanState.init with tec := 127, rec_ := 127 }, 7, ?_, ?_, ?_, ?_, ?_⟩ <;> decide +kernel
  · refine ⟨(State.reset).setFld (F.CAN_STATUS_STATE (7 : Fin 8).val) 2, 7, ?_, ?_⟩ <;> decide +kernel
  · refine ⟨wCan, 7, ?_⟩ <;> decide +kernel
  · refine ⟨((wCan).setFld (F.CAN_STATUS_STATE 7) 2).setCan 7 { CanState.init with recov := some 0 }, 7, 0, ?_, ?_, ?_⟩ <;> decide +kernel
  · refine ⟨(((wCan).setFld (F.CAN_STATUS_STATE 7) 2).setCan 7 { CanState.init with recov := some 0, lead := some 3 }).setTime { State.reset.time with cycle := 1000000000 },
      7, 0, ?_, ?_, ?_, ?_⟩ <;> decide +kernel
  · refine ⟨wCan.setFld (F.CAN_STATUS_STATE 7) 3, 7, ?_, ?_, ?_⟩ <;> decide +kernel
  · refine ⟨wCan, 7, ?_⟩ <;> decide +kernel
  · refine ⟨((wCan).setCan 7 { CanState.init with suspend := some 0 }).setTime { State.reset.time with cycle := 1000000000 }, 7, 0, ?_, ?_⟩ <;> decide +kernel
  · refine ⟨(wCan).setCan 7 { CanState.init with suspend := some 0 }, 7, 0, ?_, ?_⟩ <;> decide +kernel
  · refine ⟨State.reset, 3, ?_⟩ <;> decide +kernel
  · refine ⟨State.reset, 7, ?_⟩ <;> decide +kernel

/-- States and operands that meet the hypotheses of CanTransmitCommands, clause by clause. -/
theorem test_wit_CanTransmitCommands :
    (∃ (s : State) (n : Fin 8) (b : Fin 32), s.txLinked n.val b.val = false ∧ s.txMapped n.val b.val = false ∧ s.txElemOk n.val b.val = true
    ∧ s.inUse (Res.can n.val) = true ∧ s.txPend n.val b.val = false) ∧
    (∃ (s : State) (n : Fin 8) (b : Fin 32), s.txPend n.val b.val = false) ∧
    (∃ (s : State) (n : Fin 8) (b : Fin 32) (t : Stamp), s.txPend n.val b.val = true ∧ s.onBus n.val t = some b.val
    ∧ (s.canOf n.val).canc.contains b.val = false) ∧
    (∃ (s : State) (n : Nat) (b : Nat), n < 8 ∧ b < 32 ∧ (s.canOf n).held = [] ∧ (s.canOf n).lead ≠ some b) ∧
    (∃ (s : State) (n : Fin 8), s.flag (F.CAN_CTRL_CHAIN_EN n.val) = false) ∧
    (∃ (s : State) (n : Fin 8) (b : Fin 32), s.flag (F.CAN_CTRL_CHAIN_EN n.val) = true ∧ (s.txPend n.val b.val = true ∨ s.txMapped n.val b.val = true
    ∨ s.txLinked n.val b.val = true ∨ s.txElemOk n.val b.val = false ∨ s.inUse (Res.can n.val) = false)) ∧
    (∃ (s : State) (n : Fin 8) (b : Fin 32), s.flag (F.CAN_CTRL_CHAIN_EN n.val) = true ∧ s.txPend n.val b.val = false ∧ s.txMapped n.val b.val = false
    ∧ s.txLinked n.val b.val = false ∧ s.txElemOk n.val b.val = true ∧ s.inUse (Res.can n.val) = true ∧ (s.canOf n.val).chain.length < 32) ∧
    (∃ (s : State) (n : Nat) (b : Nat) (l : List Nat) (x : Nat), s.firstRanked n l = some b ∧ x ∈ l) ∧
    (∃ (s : State) (n : Fin 8), (s.canUp n.val = false ∨ s.fld (F.CAN_CTRL_MODE n.val) = 1 ∨ (s.canOf n.val).suspend ≠ none)) ∧
    (∃ (s : State) (n : Fin 8) (t : Stamp), s.onBus n.val t = none) ∧
    (∃ (s : State) (n : Fin 8) (t : Stamp) (b : Nat) (w : State) (u : State), s.onBus n.val t = some b ∧ (s.canOf n.val).boAt = none
    ∧ (w = if bit (s.txw n.val b 1) 10 = true then s.journal n.val b t else s)
    ∧ u = ((w.txEnd n.val b).setRbit (Reg.TXB_DONE n.val) b true).setRbit (Reg.CAN_IRQ n.val) 3 true
    ∧ (u.flag (F.CAN_CTRL_TDC_EN n.val) && (s.txFrame n.val b).fdf && (s.txFrame n.val b).brs) = false) ∧
    (∃ (s : State) (n : Fin 8) (t : Stamp) (b : Nat), s.onBus n.val t = some b ∧ (s.canOf n.val).boAt = none ∧ s.flag (F.CAN_CTRL_DAR n.val) = true) ∧
    (∃ (s : State) (n : Fin 8) (t : Stamp) (b : Nat), s.onBus n.val t = some b ∧ (s.canOf n.val).boAt = none ∧ s.flag (F.CAN_CTRL_DAR n.val) = false
    ∧ (s.canOf n.val).canc.contains b = false) ∧
    (∃ (s : State) (n : Nat), (s.canOf n).held = []) ∧
    (∃ (s : State) (n : Fin 8), s.canUp n.val = false) ∧
    (∃ (s : State) (n : Fin 8) (i : Fin 64) (t : Token), (bitsOf (s.rd (Reg.CAN_TXMAP n.val i.val 0)) 31 1 = 0
    ∨ bitsOf (s.rd (Reg.CAN_TXMAP n.val i.val 0)) 0 12 ≠ t.sig.toNat)) ∧
    (∃ (s : State) (n : Fin 8) (i : Fin 64) (link : Nat) (t : Token), bitsOf (s.rd (Reg.CAN_TXMAP n.val i.val 0)) 31 1 = 1
    ∧ bitsOf (s.rd (Reg.CAN_TXMAP n.val i.val 0)) 0 12 = t.sig.toNat ∧ t.ok = true ∧ s.linkRetired link = false ∧ stReserved t.st = false
    ∧ F32.isFinite t.value = true ∧ bitsOf (s.rd (Reg.CAN_TXMAP n.val i.val 0)) 19 3 = 0 ∧ bitsOf (s.rd (Reg.CAN_TXMAP n.val i.val 0)) 18 1 = 0
    ∧ bitsOf (s.rd (Reg.CAN_TXMAP n.val i.val 0)) 17 1 = 0) := by
  refine ⟨?_, ?_, ?_, ?_, ?_, ?_, ?_, ?_, ?_, ?_, ?_, ?_, ?_, ?_, ?_, ?_, ?_⟩
  · refine ⟨wCan, 7, 31, ?_, ?_, ?_, ?_, ?_⟩ <;> decide +kernel
  · refine ⟨State.reset, 7, 31, ?_⟩ <;> decide +kernel
  · refine ⟨wTx, 7, 31, ⟨1, 2, 3⟩, ?_, ?_, ?_⟩ <;> decide +kernel
  · refine ⟨wTx, 7, 31, ?_, ?_, ?_, ?_⟩ <;> decide +kernel
  · refine ⟨wCan, 7, ?_⟩ <;> decide +kernel
  · refine ⟨wTx.setFld (F.CAN_CTRL_CHAIN_EN 7) 1, 7, 31, ?_, ?_⟩ <;> decide +kernel
  · refine ⟨(wCan.setFld (F.CAN_CTRL_CHAIN_EN 7) 1).setCan 7 { CanState.init with chain := List.range 31 }, 7, 31, ?_, ?_, ?_, ?_, ?_, ?_, ?_⟩ <;> decide +kernel
  · refine ⟨wTx, 7, 31, [31], 31, ?_, ?_⟩ <;> decide +kernel
  · refine ⟨(wCan).setCan 7 { CanState.init with suspend := some 0 }, 7, ?_⟩ <;> decide +kernel
  · refine ⟨wCan, 7, ⟨1, 2, 3⟩, ?_⟩ <;> decide +kernel
  · refine ⟨wTx.setNum (Reg.CAN_TXB 7 31 1) 0x400, 7, ⟨1, 2, 3⟩, 31, _, _, ?_, ?_, rfl, rfl, ?_⟩ <;> decide +kernel
  · refine ⟨wTx.setFld (F.CAN_CTRL_DAR 7) 1, 7, ⟨1, 2, 3⟩, 31, ?_, ?_, ?_⟩ <;> decide +kernel
  · refine ⟨wTx, 7, ⟨1, 2, 3⟩, 31, ?_, ?_, ?_, ?_⟩ <;> decide +kernel
  · refine ⟨State.reset, 0, ?_⟩ <;> decide +kernel
  · refine ⟨State.reset, 7, ?_⟩ <;> decide +kernel
  · refine ⟨State.reset, 7, 63, mkToken 0 5 0 64, ?_⟩ <;> decide +kernel
  · refine ⟨wCan.setNum (Reg.CAN_TXMAP 7 63 0) 0x8FC1FFFF, 7, 63, 11, mkToken 0x3F800000 0xFFF 4 64, ?_, ?_, ?_, ?_, ?_, ?_, ?_, ?_, ?_⟩ <;> decide +kernel

/-- States and operands that meet the hypotheses of CaptureCommands, clause by clause. -/
theorem test_wit_CaptureCommands :
    (∃ (s : State) (c : Nat) (code : Nat), c < 64 ∧ code < 8) ∧
    (∃ (s : State) (c : Fin 64), s.flag (F.CAP_CFG_EN c.val) = false) ∧
    (∃ (s : State) (c : Fin 64), s.flag (F.CAP_CFG_EN c.val) = true ∧ s.fld (F.CAP_STATUS_STATE c.val) ≠ 0) ∧
    (∃ (s : State) (c : Fin 64), s.flag (F.CAP_CFG_EN c.val) = true ∧ s.fld (F.CAP_STATUS_STATE c.val) = 0 ∧ s.fld (F.CAP_POST_POST c.val) = 0) ∧
    (∃ (s : State) (c : Fin 64), s.flag (F.CAP_CFG_EN c.val) = true ∧ s.fld (F.CAP_STATUS_STATE c.val) = 0 ∧ s.fld (F.CAP_POST_POST c.val) ≠ 0
    ∧ s.capNslot c.val < s.fld (F.CAP_PRE_PRE c.val) + s.fld (F.CAP_POST_POST c.val)) ∧
    (∃ (s : State) (c : Fin 64), s.flag (F.CAP_CFG_EN c.val) = true ∧ s.fld (F.CAP_STATUS_STATE c.val) = 0 ∧ s.fld (F.CAP_POST_POST c.val) ≠ 0
    ∧ s.fld (F.CAP_PRE_PRE c.val) + s.fld (F.CAP_POST_POST c.val) ≤ s.capNslot c.val ∧ s.capFree c.val = none) ∧
    (∃ (s : State) (c : Fin 64) (b : Nat), s.flag (F.CAP_CFG_EN c.val) = true ∧ s.fld (F.CAP_STATUS_STATE c.val) = 0 ∧ s.fld (F.CAP_POST_POST c.val) ≠ 0
    ∧ s.fld (F.CAP_PRE_PRE c.val) + s.fld (F.CAP_POST_POST c.val) ≤ s.capNslot c.val ∧ s.capFree c.val = some b) ∧
    (∃ (s : State) (c : Nat) (b : Nat), s.capFree c = some b ∧ b = 1) ∧
    (∃ (s : State) (c : Fin 64), s.fld (F.CAP_STATUS_STATE c.val) = 1) ∧
    (∃ (s : State) (c : Fin 64), (s.fld (F.CAP_STATUS_STATE c.val) = 0 ∨ s.fld (F.CAP_STATUS_STATE c.val) = 3)) ∧
    (∃ (s : State) (c : Fin 64), s.fld (F.CAP_STATUS_STATE c.val) ≠ 1) ∧
    (∃ (s : State) (c : Fin 64), bit (s.fld (F.CAP_STATUS_HELD c.val)) 0 = false) ∧
    (∃ (s : State) (c : Fin 64), bit (s.fld (F.CAP_STATUS_HELD c.val)) 1 = false) ∧
    (∃ (s : State) (c : Fin 64), bit (s.fld (F.CAP_STATUS_HELD c.val)) 0 = true ∧ s.fld (F.CAP_STATUS_STATE c.val) ≠ 3) ∧
    (∃ (s : State) (c : Fin 64), bit (s.fld (F.CAP_STATUS_HELD c.val)) 1 = true ∧ s.fld (F.CAP_STATUS_STATE c.val) = 3) ∧
    (∃ (s : State) (c : Fin 64), s.fld (F.CAP_STATUS_STATE c.val) ≠ 2) ∧
    (∃ (s : State) (c : Fin 64), (s.capOf c.val).trig = none) ∧
    (∃ (s : State) (c : Fin 64), (s.capOf c.val).written < (s.capOf c.val).post) ∧
    (∃ (s : State) (c : Fin 64), s.fld (F.CAP_STATUS_STATE c.val) = 2 ∧ (s.capOf c.val).trig.isSome = true
    ∧ (s.capOf c.val).post ≤ (s.capOf c.val).written) ∧
    (∃ (s : State) (c : Nat) (x : Nat × Stamp × Nat), c < 64 ∧ (s.capOf c).trig = some x ∧ s.flag (F.CAP_CFG_AUTO c) = false
    ∧ Tab.find s.rce.cfg.meas c = none ∧ (s.capOf c).buf < 2) := by
  refine ⟨?_, ?_, ?_, ?_, ?_, ?_, ?_, ?_, ?_, ?_, ?_, ?_, ?_, ?_, ?_, ?_, ?_, ?_, ?_, ?_⟩
  · refine ⟨State.reset, 63, 7, ?_, ?_⟩ <;> decide +kernel
  · refine ⟨(State.reset).setFld (F.CAP_CFG_EN (63 : Fin 64).val) 0, 63, ?_⟩ <;> decide +kernel
  · refine ⟨(State.reset.setFld (F.CAP_CFG_EN 63) 1).setFld (F.CAP_STATUS_STATE 63) 1, 63, ?_, ?_⟩ <;> decide +kernel
  · refine ⟨State.reset.setFld (F.CAP_CFG_EN 63) 1, 63, ?_, ?_, ?_⟩ <;> decide +kernel
  · refine ⟨(State.reset.setFld (F.CAP_CFG_EN 63) 1).setFld (F.CAP_POST_POST 63) 1, 63, ?_, ?_, ?_, ?_⟩ <;> decide +kernel
  · refine ⟨(((State.reset.setFld (F.CAP_CFG_EN 63) 1).setFld (F.CAP_POST_POST 63) 1).setNum (Reg.CAP_BUFLEN 63) 0x1000).setFld (F.CAP_STATUS_HELD 63) 3, 63, ?_,
      ?_, ?_, ?_, ?_⟩ <;> decide +kernel
  · refine ⟨(((State.reset.setFld (F.CAP_CFG_EN 63) 1).setFld (F.CAP_POST_POST 63) 1).setNum (Reg.CAP_BUFLEN 63) 0x1000), 63, 0, ?_, ?_, ?_, ?_, ?_⟩ <;> decide +kernel
  · refine ⟨(State.reset.setFld (F.CAP_STATUS_HELD 63) 1).setFld (F.CAP_CFG_NBUF 63) 1, 63, 1, ?_, ?_⟩ <;> decide +kernel
  · refine ⟨State.reset.setFld (F.CAP_STATUS_STATE 63) 1, 63, ?_⟩ <;> decide +kernel
  · refine ⟨State.reset.setFld (F.CAP_STATUS_STATE 63) 3, 63, ?_⟩ <;> decide +kernel
  · refine ⟨State.reset.setFld (F.CAP_STATUS_STATE 63) 3, 63, ?_⟩ <;> decide +kernel
  · refine ⟨State.reset, 63, ?_⟩ <;> decide +kernel
  · refine ⟨State.reset, 63, ?_⟩ <;> decide +kernel
  · refine ⟨(State.reset.setFld (F.CAP_STATUS_HELD 63) 3).setFld (F.CAP_STATUS_STATE 63) 1, 63, ?_, ?_⟩ <;> decide +kernel
  · refine ⟨(State.reset.setFld (F.CAP_STATUS_HELD 63) 3).setFld (F.CAP_STATUS_STATE 63) 3, 63, ?_, ?_⟩ <;> decide +kernel
  · refine ⟨State.reset, 63, ?_⟩ <;> decide +kernel
  · refine ⟨State.reset, 63, ?_⟩ <;> decide +kernel
  · refine ⟨(State.reset).setCap 63 { Cap.init with post := 5, written := 4 }, 63, ?_⟩ <;> decide +kernel
  · refine ⟨(State.reset.setFld (F.CAP_STATUS_STATE 63) 2).setCap 63 { Cap.init with post := 5, written := 5, trig := some (64, ⟨1, 2, 3⟩, 0) }, 63, ?_, ?_, ?_⟩ <;> decide +kernel
  · refine ⟨(State.reset.setFld (F.CAP_CFG_EN 63) 1).setCap 63 { Cap.init with buf := 1, post := 5, written := 5, trig := some (64, ⟨1, 2, 3⟩, 0) }, 63, (64, ⟨1,
      2, 3⟩, 0), ?_, ?_, ?_, ?_, ?_⟩ <;> decide +kernel

/-- States and operands that meet the hypotheses of CourseAndCatchTableCommands, clause by clause. -/
theorem test_wit_CourseAndCatchTableCommands :
    (∃ (s : State) (c : Nat) (d : Nat), s.flag (F.CRS_CFG_EN c) = true ∧ s.fld (F.CRS_CFG_SRC c) = 0 ∧ d ≠ c) ∧
    (∃ (s : State) (c : Nat) (period : Nat) (peakMv : Nat), s.courseSrc c 1 = true ∧ s.fld (F.CRS_STATUS_STATE c) = 2 ∧ 600000000 ≤ 70 * period
    ∧ 40 * period ≤ 600000000 ∧ 8000 ≤ peakMv) ∧
    (∃ (s : State) (c : Fin 4), s.courseSrc c.val 1 = true ∧ s.fld (F.CRS_STATUS_STATE c.val) = 2
    ∧ 3 * (s.courseOf c.val).period ≤ 2 * (s.time.cycle - (s.courseOf c.val).cross)) ∧
    (∃ (s : State) (m : Fin 8), s.flag (F.CT_CFG_EN m.val) = true ∧ s.holdsToken = true ∧ (s.tabOf m.val).phase = TabPhase.stopped) ∧
    (∃ (s : State) (m : Fin 8), s.flag (F.CT_CFG_EN m.val) = true ∧ (s.tabOf m.val).phase = TabPhase.waiting) ∧
    (∃ (s : State) (m : Fin 8) (o : Int), (s.tabOf m.val).phase = TabPhase.running ∧ (s.tabOf m.val).stopAt = none ∧ s.ctNent m.val ≠ 0
    ∧ s.ctPeriod m.val ≠ 0 ∧ 0 < posDiff (s.tabOf m.val).high (s.tabOf m.val).issued
    ∧ o = s.ordinalAt m.val (s.relPos m.val (s.tabOf m.val).issued + posDiff (s.tabOf m.val).high (s.tabOf m.val).issued)
    ∧ o = s.ordinalAt m.val (s.relPos m.val (s.tabOf m.val).issued) + 1) := by
  refine ⟨?_, ?_, ?_, ?_, ?_, ?_⟩
  · refine ⟨(((State.reset).setFld (F.CRS_CFG_EN 3) 1).setFld (F.CRS_CFG_SRC 3) 0).setFld (F.CRS_CFG_EN 3) 1, 3, 0, ?_, ?_, ?_⟩ <;> decide +kernel
  · refine ⟨((((State.reset).setFld (F.CRS_STATUS_STATE 3) 2).setFld (F.CRS_CFG_EN 3) 1).setFld (F.CRS_CFG_SRC 3) 1).setFld (F.CRS_STATUS_STATE 3) 2, 3, 8571429,
      8000, ?_, ?_, ?_, ?_, ?_⟩ <;> decide +kernel
  · refine ⟨((((State.reset).setFld (F.CRS_STATUS_STATE (3 : Fin 4).val) 2).setFld (F.CRS_CFG_EN 3) 1).setFld (F.CRS_CFG_SRC 3) 1).setFld (F.CRS_STATUS_STATE 3) 2,
      3, ?_, ?_, ?_⟩ <;> decide +kernel
  · refine ⟨((State.reset).setFld (F.CT_CFG_EN (7 : Fin 8).val) 1).setFld F.PLK_STATUS_ROLE 2, 7, ?_, ?_, ?_⟩ <;> decide +kernel
  · refine ⟨((State.reset).setFld (F.CT_CFG_EN (7 : Fin 8).val) 1).setTab 7 { State.reset.tabOf 7 with phase := .waiting }, 7, ?_, ?_⟩ <;> decide +kernel
  · refine ⟨((((State.reset).setFld (F.CT_CFG_NENT 7) 2).setNum (Reg.CT_PERIOD_LO 7) 1000).setNum (Reg.CT_ENTRY_LO 7 1) 500).setTab 7 { State.reset.tabOf 7 with phase := .running, issued := 100, high := 600 },
      7, 1, ?_, ?_, ?_, ?_, ?_, ?_, ?_⟩ <;> decide +kernel

/-- States and operands that meet the hypotheses of CoxCommands, clause by clause. -/
theorem test_wit_CoxCommands :
    (∃ (s : State) (m : Fin 8) (n : Nat), s.physOf m.val = some n ∧ s.crewDeaf n = false) ∧
    (∃ (s : State) (m : Fin 8) (n : Nat), s.physOf m.val = some n ∧ s.crewDeaf n = true) ∧
    (∃ (s : State) (n : Nat) (x : Nat) (k : Nat), s.ctxValid n x = true ∧ k < s.ctxNops n x ∧ s.slotKind n x k = 1 ∧ (s.ctxOf n x).held.length = 4
    ∧ k < 4) ∧
    (∃ (s : State) (n : Nat) (x : Nat) (k : Nat) (w : Nat) (t : Token), n < 9 ∧ s.ctxValid n x = true ∧ k < s.ctxNops n x ∧ s.slotKind n x k ≠ 1
    ∧ (s.findEntry n x fun e => e.state == EntryState.opened && e.cseq == BitVec.toNat t.cseq) = some w
    ∧ ((s.entryOf n x w).ops.getD k none).isSome = true) ∧
    (∃ (s : State) (n : Fin 9), s.crewDeaf n.val = false ∧ s.engineFrozen n.val 0 = false) ∧
    (∃ (s : State) (n : Nat) (t : Nat) (can : Nat) (x : Nat) (w : Nat), s.pick n t can = some (x, w)) ∧
    (∃ (s : State) (n : Fin 9) (x : Fin 512) (w : Nat), s.issuedEntry n.val x.val = some w ∧ s.crewDeaf n.val = false ∧ s.engineFrozen n.val 0 = false
    ∧ s.ctxTarget n.val x.val = 2 ∧ s.engineFrozen n.val 3 = false) ∧
    (∃ (s : State) (n : Fin 9) (x : Fin 512) (w : Nat), s.issuedEntry n.val x.val = some w ∧ s.crewDeaf n.val = false ∧ s.engineFrozen n.val 0 = false
    ∧ s.ctxTarget n.val x.val ≤ 1 ∧ s.engineFrozen n.val (s.ctxTarget n.val x.val + 1) = false ∧ (s.entryOf n.val x.val w).done = true
    ∧ (s.entryOf n.val x.val w).confirmed = true) ∧
    (∃ (s : State) (n : Fin 9) (x : Fin 512) (w : Nat) (ch : Nat), s.issuedEntry n.val x.val = some w ∧ s.crewDeaf n.val = false
    ∧ s.engineFrozen n.val 0 = false ∧ s.ctxTarget n.val x.val = 3 ∧ s.taskChan n.val x.val = some ch ∧ s.cdmState n.val ch ≠ 1) ∧
    (∃ (s : State) (n : Nat) (w : Nat), n < 9 ∧ w < 2) ∧
    (∃ (s : State) (n : Fin 9) (c : Fin 8), s.crewDeaf n.val = false ∧ (s.dpOf n.val c.val).view = none ∧ (s.dpOf n.val c.val).fifo = []) ∧
    (∃ (s : State) (n : Fin 9) (c : Fin 8) (d : Desc) (l : List Desc), s.crewDeaf n.val = false ∧ (s.dpOf n.val c.val).view = none
    ∧ (s.dpOf n.val c.val).fifo = d :: l ∧ l.length < 32) ∧
    (∃ (s : State) (n : Fin 9) (c : Fin 8), s.crewDeaf n.val = false ∧ (s.dpOf n.val c.val).view = none) ∧
    (∃ (s : State) (n : Fin 9) (c : Fin 8) (nres : BitVec 3) (d : Desc) (w : Nat) (u : State), s.crewDeaf n.val = false
    ∧ (s.dpOf n.val c.val).view = some d ∧ u = s.setDp n.val c.val ({ s.dpOf n.val c.val with view := none }) ∧ u.issuedEntry n.val d.ctx = some w
    ∧ nres.toNat = d.nres) ∧
    (∃ (s : State) (n : Fin 9), s.crewDeaf n.val = false ∧ s.windowDue n.val = true) ∧
    (∃ (s : State) (n : Fin 9), (s.crewDeaf n.val = true ∨ s.windowDue n.val = false)) ∧
    (∃ (s : State) (n : Nat) (p : Nat), n < 9 ∧ p < 8 ∧ s.waitBound n p < 255 ∧ s.waitBound n p * 300 < (s.coxOf n).prioMax.getD p 0 * 5) := by
  refine ⟨?_, ?_, ?_, ?_, ?_, ?_, ?_, ?_, ?_, ?_, ?_, ?_, ?_, ?_, ?_, ?_, ?_⟩
  · refine ⟨wCrew, 7, 8, ?_, ?_⟩ <;> decide +kernel
  · refine ⟨wCrew.setFld (F.RPC_DOM_HELD 16) 1, 7, 8, ?_, ?_⟩ <;> decide +kernel
  · refine ⟨((wCrew.setFld (F.COX_CTX_CFG_VALID 8 511) 1).setFld (F.COX_CTX_CFG_NOPS 8 511) 3).setFld (F.COX_CTX_CFG_KINDS 8 511) 0x40, 8, 511, 3, ?_, ?_, ?_,
      ?_, ?_⟩ <;> decide +kernel
  · refine ⟨((wCrew.setFld (F.COX_CTX_CFG_VALID 8 511) 1).setFld (F.COX_CTX_CFG_NOPS 8 511) 3).setEntry 8 511 1 { MEntry.init with state := .opened, cseq := 64, ops := [none, none, none, some ⟨mkToken 1 2 0 64, 3⟩] },
      8, 511, 3, 1, mkToken 1 2 0 64, ?_, ?_, ?_, ?_, ?_, ?_⟩ <;> decide +kernel
  · refine ⟨wCrew, 8, ?_, ?_⟩ <;> decide +kernel
  · refine ⟨wCrew.setCox 8 { CoxState.init with lists := [[(511, 1)], [], [], [], [], [], [], []] }, 8, 0, 7, 511, 1, ?_⟩ <;> decide +kernel
  · refine ⟨wIssued 2, 8, 511, 1, ?_, ?_, ?_, ?_, ?_⟩ <;> decide +kernel
  · refine ⟨(wIssued 1).setEntry 8 511 1 { MEntry.init with state := .issued, cseq := 64, done := true, confirmed := true, results := [mkToken 1 2 0 64] }, 8,
      511, 1, ?_, ?_, ?_, ?_, ?_, ?_, ?_⟩ <;> decide +kernel
  · refine ⟨(((wIssued 3).setFld (F.CDM_CH_CFG_EN 8 7) 1).setFld (F.CDM_CH_CFG_OWNER 8 7) 1).setFld (F.CDM_CH_CFG_CTX 8 7) 511, 8, 511, 1, 7, ?_, ?_, ?_, ?_, ?_,
      ?_⟩ <;> decide +kernel
  · refine ⟨wIssued 1, 8, 1, ?_, ?_⟩ <;> decide +kernel
  · refine ⟨wCrew, 8, 7, ?_, ?_, ?_⟩ <;> decide +kernel
  · refine ⟨wCrew.setCox 8 { CoxState.init with dp := [(7, { DpState.init with fifo := [⟨511, 64, 2, []⟩] })] }, 8, 7, ⟨511, 64, 2, []⟩, [], ?_, ?_, ?_, ?_⟩ <;> decide +kernel
  · refine ⟨wCrew, 8, 7, ?_, ?_⟩ <;> decide +kernel
  · refine ⟨(wCrew.setCox 8 { CoxState.init with dp := [(7, { DpState.init with view := some ⟨511, 64, 2, []⟩ })] }).setEntry 8 511 1 { MEntry.init with state := .issued, cseq := 64 },
      8, 7, 2, ⟨511, 64, 2, []⟩, 1, _, ?_, ?_, rfl, ?_, ?_⟩ <;> decide +kernel
  · refine ⟨(State.reset).setCox 8 { CoxState.init with winSeen := true, winLen := 3, winStroke := 3 }, 8, ?_, ?_⟩ <;> decide +kernel
  · refine ⟨State.reset, 8, ?_⟩ <;> decide +kernel
  · refine ⟨(wCrew.setImg { State.reset.img with budget := [(7, ⟨0, 0, 0, 0, 0, 0, [1, 1, 1, 1, 1, 1, 1, 254]⟩)] }).setCox 8 { CoxState.init with prioMax := [0, 0, 0, 0, 0, 0, 0, 15241] },
      8, 7, ?_, ?_, ?_, ?_⟩ <;> decide +kernel

/-- States and operands that meet the hypotheses of CrewCommands, clause by clause. -/
theorem test_wit_CrewCommands :
    (∃ (s : State) (n : Nat), s.spareFor = some n ∧ s.spareHeld = none) ∧
    (∃ (s : State) (n : Nat), List.find? (fun n => (s.lsmOf n).bist) (List.range 9) = some n ∧ s.iml.repl = none) ∧
    (∃ (s : State) (n : Fin 9), s.inUse (Res.crew n.val) = false) ∧
    (∃ (s : State) (n : Fin 9), s.inUse (Res.crew n.val) = true) ∧
    (∃ (s : State) (n : Nat), s.inUse (Res.crew n) = true) ∧
    (∃ (s : State) (n : Nat), s.inUse (Res.crew n) = false) ∧
    (∃ (s : State) (n : Fin 9) (m : Nat) (d : Nat), d < 9 ∧ s.logicalOf n.val = some m ∧ s.spareFor = some d ∧ s.flag (F.LSM_STATUS_STRANDED n.val) = true
    ∧ d ≠ n.val ∧ s.iml.repl = none) ∧
    (∃ (s : State) (n : Fin 9) (x : Fin 512) (w : Nat), s.issuedEntry n.val x.val = some w ∧ s.crewDeaf n.val = false
    ∧ (s.entryOf n.val x.val w).done = true ∧ (s.entryOf n.val x.val w).confirmed = false ∧ s.ctxTarget n.val x.val ≤ 1) ∧
    (∃ (s : State) (n : Nat) (x : Nat) (w : Nat), n < 9 ∧ (s.entryOf n x w).rerun = true) ∧
    (∃ (s : State) (n : Fin 9), (s.reruns n.val = [] ∨ s.lsmCharge n.val < s.num (Reg.LSM_SLACK n.val))) ∧
    (∃ (s : State) (n : Fin 9) (e : Nat × Nat) (l : List (Nat × Nat)), s.reruns n.val = e :: l ∧ s.num (Reg.LSM_SLACK n.val) ≤ s.lsmCharge n.val) ∧
    (∃ (s : State) (g : Migration), s.mig = some g ∧ g.copied = false) ∧
    (∃ (s : State) (g : Migration) (c : Catch), s.mig = some g ∧ g.copied = true ∧ s.nextCatch g.m = some c ∧ cseqEntry c.cseq = 0) ∧
    (∃ (s : State) (g : Migration) (c : Catch), s.mig = some g ∧ s.nextCatch g.m = some c ∧ cseqEntry c.cseq ≠ 0) := by
  refine ⟨?_, ?_, ?_, ?_, ?_, ?_, ?_, ?_, ?_, ?_, ?_, ?_, ?_, ?_⟩
  · refine ⟨((State.reset.setFld F.IML_SPARE_SPARE 8).setFld (F.RPC_DOM_HELD 16) 0), 8, ?_, ?_⟩ <;> decide +kernel
  · refine ⟨State.reset.setLsm 8 { LsmState.init with bist := true }, 8, ?_, ?_⟩ <;> decide +kernel
  · refine ⟨(State.reset).setHealth (.crew 8) .retired, 8, ?_⟩ <;> decide +kernel
  · refine ⟨State.reset, 8, ?_⟩ <;> decide +kernel
  · refine ⟨wCrew, 8, ?_⟩ <;> decide +kernel
  · refine ⟨(State.reset).setHealth (.crew 8) .retired, 8, ?_⟩ <;> decide +kernel
  · refine ⟨(((State.reset.setNum Reg.IML_CREWMAP 0x76543210).setFld F.IML_SPARE_SPARE 8).setFld (F.RPC_DOM_HELD 16) 0).setFld (F.LSM_STATUS_STRANDED 7) 1, 7, 7,
      8, ?_, ?_, ?_, ?_, ?_, ?_⟩ <;> decide +kernel
  · refine ⟨(wIssued 1).setEntry 8 511 1 { MEntry.init with state := .issued, cseq := 64, done := true, results := [mkToken 1 2 0 64] }, 8, 511, 1, ?_, ?_, ?_,
      ?_, ?_⟩ <;> decide +kernel
  · refine ⟨(wIssued 1).setEntry 8 511 1 { MEntry.init with state := .issued, cseq := 64, rerun := true }, 8, 511, 1, ?_, ?_⟩ <;> decide +kernel
  · refine ⟨wIssued 1, 8, ?_⟩ <;> decide +kernel
  · refine ⟨(wIssued 1).setEntry 8 511 1 { MEntry.init with state := .issued, cseq := 64, rerun := true }, 8, (511, 1), [], ?_, ?_⟩ <;> decide +kernel
  · refine ⟨wCrew.setMig (some ⟨7, 8, 0, false, 3, 4, [], []⟩), ⟨7, 8, 0, false, 3, 4, [], []⟩, ?_, ?_⟩ <;> decide +kernel
  · refine ⟨(wCrew.setMig (some ⟨7, 8, 0, true, 3, 4, [], []⟩)).setInflight [⟨7, 8, 5, 64, ⟨1, 2, 3⟩⟩], ⟨7, 8, 0, true, 3, 4, [], []⟩, ⟨7, 8, 5, 64, ⟨1, 2, 3⟩⟩,
      ?_, ?_, ?_, ?_⟩ <;> decide +kernel
  · refine ⟨(wCrew.setMig (some ⟨7, 8, 0, true, 3, 4, [], []⟩)).setInflight [⟨7, 8, 5, 65, ⟨1, 2, 3⟩⟩], ⟨7, 8, 0, true, 3, 4, [], []⟩, ⟨7, 8, 5, 65, ⟨1, 2, 3⟩⟩,
      ?_, ?_, ?_⟩ <;> decide +kernel

/-- States and operands that meet the hypotheses of CurrentLoopCommands, clause by clause. -/
theorem test_wit_CurrentLoopCommands :
    (∃ (s : State) (n : Nat), n < 16 ∧ (s.flag (F.CLO_CFG_EN n) = false ∨ s.oe = false ∨ s.inUse (Res.clo n) = false
    ∨ s.flag (F.CLO_STATUS_TSD n) = true)) ∧
    (∃ (s : State) (n : Nat) (v : Word), n < 16 ∧ s.flag (F.CLO_CFG_EN n) = true ∧ s.oe = true ∧ s.inUse (Res.clo n) = true
    ∧ s.flag (F.CLO_STATUS_TSD n) = false ∧ s.cloAlarm n = false ∧ s.cloWant n = some v) ∧
    (∃ (s : State) (n : Nat), n < 16 ∧ s.flag (F.CLO_CFG_EN n) = true ∧ s.oe = true ∧ s.inUse (Res.clo n) = true ∧ s.flag (F.CLO_STATUS_TSD n) = false
    ∧ s.cloAlarm n = true) ∧
    (∃ (s : State) (link : Nat) (t : Token), t.ok = true ∧ s.linkRetired link = false ∧ stReserved t.st = false ∧ F32.isFinite t.value = true) ∧
    (∃ (s : State) (o : Fin 80) (t : Token), o.val < 16 ∧ (s.flag (F.CLO_CFG_EN o.val) = false ∨ s.oe = false
    ∨ t.stray (s.fld (F.CLO_SRC_SIG o.val)) = true)) ∧
    (∃ (s : State) (o : Fin 80) (link : Nat) (t : Token) (v : Word) (st : BitVec 4) (u : State), o.val < 16 ∧ s.flag (F.CLO_CFG_EN o.val) = true
    ∧ s.oe = true ∧ t.stray (s.fld (F.CLO_SRC_SIG o.val)) = false ∧ s.outCheck link (16384 + o.val) (s.rd (Reg.CLO_SUBST o.val)) t = (v, st, u)
    ∧ tokLate (s.cloOf o.val).tok (BitVec.toNat t.cseq) = true) ∧
    (∃ (s : State) (o : Fin 80) (link : Nat) (t : Token) (v : Word) (st : BitVec 4) (u : State), o.val < 16 ∧ s.flag (F.CLO_CFG_EN o.val) = true
    ∧ s.oe = true ∧ t.stray (s.fld (F.CLO_SRC_SIG o.val)) = false ∧ s.outCheck link (16384 + o.val) (s.rd (Reg.CLO_SUBST o.val)) t = (v, st, u)
    ∧ tokLate (s.cloOf o.val).tok (BitVec.toNat t.cseq) = false ∧ u.cloShut o.val st = true) ∧
    (∃ (s : State) (o : Fin 80) (link : Nat) (t : Token) (v : Word) (st : BitVec 4) (u : State), o.val < 16 ∧ s.flag (F.CLO_CFG_EN o.val) = true
    ∧ s.oe = true ∧ t.stray (s.fld (F.CLO_SRC_SIG o.val)) = false ∧ s.outCheck link (16384 + o.val) (s.rd (Reg.CLO_SUBST o.val)) t = (v, st, u)
    ∧ tokLate (s.cloOf o.val).tok (BitVec.toNat t.cseq) = false ∧ u.cloShut o.val st = false) ∧
    (∃ (s : State) (o : Fin 80) (t : Token) (n : Nat), 16 ≤ o.val ∧ n = o.val - 16 ∧ (s.vdrMode n ≠ 2 ∨ s.oe = false
    ∨ t.stray (s.fld (F.VDR_STATUS_SIG n)) = true)) ∧
    (∃ (s : State) (o : Fin 80) (link : Nat) (t : Token) (n : Nat) (x : Word) (st : BitVec 4) (u : State), 16 ≤ o.val ∧ n = o.val - 16 ∧ s.vdrMode n = 2
    ∧ s.oe = true ∧ t.stray (s.fld (F.VDR_STATUS_SIG n)) = false ∧ s.outCheck link (16640 + n) 0 t = (x, st, u)
    ∧ tokLate (u.vdrOf n).tok (BitVec.toNat t.cseq) = true) ∧
    (∃ (s : State) (o : Fin 80) (link : Nat) (t : Token) (n : Nat) (x : Word) (st : BitVec 4) (u : State), 16 ≤ o.val ∧ n = o.val - 16 ∧ s.vdrMode n = 2
    ∧ s.oe = true ∧ t.stray (s.fld (F.VDR_STATUS_SIG n)) = false ∧ s.outCheck link (16640 + n) 0 t = (x, st, u)
    ∧ tokLate (u.vdrOf n).tok (BitVec.toNat t.cseq) = false) ∧
    (∃ (s : State) (o : Fin 80), o.val < 16 ∧ s.flag (F.CLO_CFG_EN o.val) = true ∧ s.oe = true ∧ s.flag (F.CLO_STATUS_STOPPED o.val) = false
    ∧ (s.cloOf o.val).tok ≠ none ∧ s.fld (F.CLO_CFG_TMO o.val) ≤ (s.cloOf o.val).strokes) ∧
    (∃ (s : State) (o : Fin 80), o.val < 16 ∧ (s.flag (F.CLO_STATUS_STOPPED o.val) = true ∨ (s.cloOf o.val).tok = none
    ∨ (s.cloOf o.val).strokes < s.fld (F.CLO_CFG_TMO o.val))) ∧
    (∃ (s : State) (o : Fin 80) (n : Nat), 16 ≤ o.val ∧ n = o.val - 16 ∧ s.vdrMode n = 2 ∧ s.oe = true ∧ (s.vdrOf n).stopped = false
    ∧ (s.vdrOf n).tok ≠ none ∧ s.fld (F.VDR_STATUS_TMO n) ≤ (s.vdrOf n).strokes ∧ s.fld (F.VDR_HEAT_STOP n) ≠ 1) ∧
    (∃ (s : State) (n : Fin 16), s.flag (F.CLO_STATUS_ENABLED n.val) = true ∧ s.flag (F.CLO_STATUS_COMPLIANCE n.val) = false ∧ 20 ≤ (s.cloOf n.val).low) ∧
    (∃ (s : State) (n : Fin 16), (s.flag (F.CLO_STATUS_COMPLIANCE n.val) = true ∨ (s.cloOf n.val).low < 20)) ∧
    (∃ (s : State) (n : Fin 16), s.flag (F.CLO_STATUS_COMPLIANCE n.val) = true ∧ 20 ≤ (s.cloOf n.val).okay) ∧
    (∃ (s : State) (n : Fin 16), (s.cloOf n.val).okay < 20) ∧
    (∃ (s : State) (n : Fin 16), s.flag (F.CLO_STATUS_ENABLED n.val) = true ∧ s.flag (F.CLO_STATUS_ALARM n.val) = false ∧ s.cloOff n.val = true) ∧
    (∃ (s : State) (n : Fin 16), s.flag (F.CLO_STATUS_ENABLED n.val) = false) ∧
    (∃ (s : State) (n : Fin 16), s.cloOff n.val = false) ∧
    (∃ (s : State) (n : Fin 16), s.flag (F.CLO_STATUS_ALARM n.val) = true ∧ s.flag (F.CLO_STATUS_ALARM_NR n.val) = false ∧ s.cloOff n.val = true) ∧
    (∃ (s : State) (n : Fin 16), s.flag (F.CLO_STATUS_ALARM n.val) = false) ∧
    (∃ (s : State) (n : Fin 16), s.flag (F.CLO_STATUS_TSD n.val) = true ∧ (∀ (r : ℕ), (s.cloOf n.val).resumed = some r
    → r + 1000 * cycPerMs ≤ s.time.cycle)) ∧
    (∃ (s : State) (n : Fin 16) (r : Nat), (s.cloOf n.val).resumed = some r ∧ s.time.cycle < r + 1000 * cycPerMs) ∧
    (∃ (s : State) (n : Fin 16), s.flag (F.CLO_STATUS_TSD n.val) = false) := by
  refine ⟨?_, ?_, ?_, ?_, ?_, ?_, ?_, ?_, ?_, ?_, ?_, ?_, ?_, ?_, ?_, ?_, ?_, ?_, ?_, ?_, ?_, ?_, ?_, ?_, ?_, ?_⟩
  · refine ⟨State.reset, 15, ?_, ?_⟩ <;> decide +kernel
  · refine ⟨((State.reset.setFld F.PVM_STATUS_OE 1).setFld (F.CLO_CFG_EN 15) 1).setClo 15 { Clo.init with tok := some (0x40A00000, 0, 64) }, 15, 0x40A00000, ?_,
      ?_, ?_, ?_, ?_, ?_, ?_⟩ <;> decide +kernel
  · refine ⟨((State.reset.setFld F.PVM_STATUS_OE 1).setFld (F.CLO_CFG_EN 15) 1).setFld (F.CLO_STATUS_LOOP_LOW 15) 1, 15, ?_, ?_, ?_, ?_, ?_, ?_⟩ <;> decide +kernel
  · refine ⟨State.reset, 11, mkToken 0x40A00000 5 4 64, ?_, ?_, ?_, ?_⟩ <;> decide +kernel
  · refine ⟨State.reset, 15, mkToken 0x40A00000 5 0 64, ?_, ?_⟩ <;> decide +kernel
  · refine ⟨((((State.reset).setFld F.PVM_STATUS_OE 1).setFld (F.CLO_CFG_EN 15) 1).setFld (F.CLO_SRC_SIG 15) 5).setClo 15 { Clo.init with tok := some (0, 0, 65) },
      15, 0, mkToken 0x40A00000 5 0 64,
      ((((((State.reset).setFld F.PVM_STATUS_OE 1).setFld (F.CLO_CFG_EN 15) 1).setFld (F.CLO_SRC_SIG 15) 5).setClo 15 { Clo.init with tok := some (0, 0, 65) }).outCheck 0 (16384 + (15 : Fin 80).val) ((((((State.reset).setFld F.PVM_STATUS_OE 1).setFld (F.CLO_CFG_EN 15) 1).setFld (F.CLO_SRC_SIG 15) 5).setClo 15 { Clo.init with tok := some (0, 0, 65) }).rd (Reg.CLO_SUBST (15 : Fin 80).val)) (mkToken 0x40A00000 5 0 64)).1,
      ((((((State.reset).setFld F.PVM_STATUS_OE 1).setFld (F.CLO_CFG_EN 15) 1).setFld (F.CLO_SRC_SIG 15) 5).setClo 15 { Clo.init with tok := some (0, 0, 65) }).outCheck 0 (16384 + (15 : Fin 80).val) ((((((State.reset).setFld F.PVM_STATUS_OE 1).setFld (F.CLO_CFG_EN 15) 1).setFld (F.CLO_SRC_SIG 15) 5).setClo 15 { Clo.init with tok := some (0, 0, 65) }).rd (Reg.CLO_SUBST (15 : Fin 80).val)) (mkToken 0x40A00000 5 0 64)).2.1,
      ((((((State.reset).setFld F.PVM_STATUS_OE 1).setFld (F.CLO_CFG_EN 15) 1).setFld (F.CLO_SRC_SIG 15) 5).setClo 15 { Clo.init with tok := some (0, 0, 65) }).outCheck 0 (16384 + (15 : Fin 80).val) ((((((State.reset).setFld F.PVM_STATUS_OE 1).setFld (F.CLO_CFG_EN 15) 1).setFld (F.CLO_SRC_SIG 15) 5).setClo 15 { Clo.init with tok := some (0, 0, 65) }).rd (Reg.CLO_SUBST (15 : Fin 80).val)) (mkToken 0x40A00000 5 0 64)).2.2,
      ?_, ?_, ?_, ?_, ?_, ?_⟩ <;> decide +kernel
  · refine ⟨((((State.reset).setFld F.PVM_STATUS_OE 1).setFld (F.CLO_CFG_EN 15) 1).setFld (F.CLO_SRC_SIG 15) 5).setFld (F.CLO_STATUS_LOOP_LOW 15) 1, 15, 0,
      mkToken 0x40A00000 5 0 64,
      ((((((State.reset).setFld F.PVM_STATUS_OE 1).setFld (F.CLO_CFG_EN 15) 1).setFld (F.CLO_SRC_SIG 15) 5).setFld (F.CLO_STATUS_LOOP_LOW 15) 1).outCheck 0 (16384 + (15 : Fin 80).val) ((((((State.reset).setFld F.PVM_STATUS_OE 1).setFld (F.CLO_CFG_EN 15) 1).setFld (F.CLO_SRC_SIG 15) 5).setFld (F.CLO_STATUS_LOOP_LOW 15) 1).rd (Reg.CLO_SUBST (15 : Fin 80).val)) (mkToken 0x40A00000 5 0 64)).1,
      ((((((State.reset).setFld F.PVM_STATUS_OE 1).setFld (F.CLO_CFG_EN 15) 1).setFld (F.CLO_SRC_SIG 15) 5).setFld (F.CLO_STATUS_LOOP_LOW 15) 1).outCheck 0 (16384 + (15 : Fin 80).val) ((((((State.reset).setFld F.PVM_STATUS_OE 1).setFld (F.CLO_CFG_EN 15) 1).setFld (F.CLO_SRC_SIG 15) 5).setFld (F.CLO_STATUS_LOOP_LOW 15) 1).rd (Reg.CLO_SUBST (15 : Fin 80).val)) (mkToken 0x40A00000 5 0 64)).2.1,
      ((((((State.reset).setFld F.PVM_STATUS_OE 1).setFld (F.CLO_CFG_EN 15) 1).setFld (F.CLO_SRC_SIG 15) 5).setFld (F.CLO_STATUS_LOOP_LOW 15) 1).outCheck 0 (16384 + (15 : Fin 80).val) ((((((State.reset).setFld F.PVM_STATUS_OE 1).setFld (F.CLO_CFG_EN 15) 1).setFld (F.CLO_SRC_SIG 15) 5).setFld (F.CLO_STATUS_LOOP_LOW 15) 1).rd (Reg.CLO_SUBST (15 : Fin 80).val)) (mkToken 0x40A00000 5 0 64)).2.2,
      ?_, ?_, ?_, ?_, ?_, ?_, ?_⟩ <;> decide +kernel
  · refine ⟨(((State.reset).setFld F.PVM_STATUS_OE 1).setFld (F.CLO_CFG_EN 15) 1).setFld (F.CLO_SRC_SIG 15) 5, 15, 0, mkToken 0x40A00000 5 0 64,
      (((((State.reset).setFld F.PVM_STATUS_OE 1).setFld (F.CLO_CFG_EN 15) 1).setFld (F.CLO_SRC_SIG 15) 5).outCheck 0 (16384 + (15 : Fin 80).val) (((((State.reset).setFld F.PVM_STATUS_OE 1).setFld (F.CLO_CFG_EN 15) 1).setFld (F.CLO_SRC_SIG 15) 5).rd (Reg.CLO_SUBST (15 : Fin 80).val)) (mkToken 0x40A00000 5 0 64)).1,
      (((((State.reset).setFld F.PVM_STATUS_OE 1).setFld (F.CLO_CFG_EN 15) 1).setFld (F.CLO_SRC_SIG 15) 5).outCheck 0 (16384 + (15 : Fin 80).val) (((((State.reset).setFld F.PVM_STATUS_OE 1).setFld (F.CLO_CFG_EN 15) 1).setFld (F.CLO_SRC_SIG 15) 5).rd (Reg.CLO_SUBST (15 : Fin 80).val)) (mkToken 0x40A00000 5 0 64)).2.1,
      (((((State.reset).setFld F.PVM_STATUS_OE 1).setFld (F.CLO_CFG_EN 15) 1).setFld (F.CLO_SRC_SIG 15) 5).outCheck 0 (16384 + (15 : Fin 80).val) (((((State.reset).setFld F.PVM_STATUS_OE 1).setFld (F.CLO_CFG_EN 15) 1).setFld (F.CLO_SRC_SIG 15) 5).rd (Reg.CLO_SUBST (15 : Fin 80).val)) (mkToken 0x40A00000 5 0 64)).2.2,
      ?_, ?_, ?_, ?_, ?_, ?_, ?_⟩ <;> decide +kernel
  · refine ⟨State.reset, 79, mkToken 0x40A00000 5 0 64, _, ?_, rfl, ?_⟩ <;> decide +kernel
  · refine ⟨((((State.reset).setFld F.PVM_STATUS_OE 1).setFld (F.VDR_CFG_MODE 63) 2).setFld (F.VDR_STATUS_SIG 63) 5).setVdr 63 { Vdr.init with tok := some (0, 0, 65) },
      79, 0, mkToken 0x40A00000 5 0 64, _,
      ((((((State.reset).setFld F.PVM_STATUS_OE 1).setFld (F.VDR_CFG_MODE 63) 2).setFld (F.VDR_STATUS_SIG 63) 5).setVdr 63 { Vdr.init with tok := some (0, 0, 65) }).outCheck 0 (16640 + ((79 : Fin 80).val - 16)) 0 (mkToken 0x40A00000 5 0 64)).1,
      ((((((State.reset).setFld F.PVM_STATUS_OE 1).setFld (F.VDR_CFG_MODE 63) 2).setFld (F.VDR_STATUS_SIG 63) 5).setVdr 63 { Vdr.init with tok := some (0, 0, 65) }).outCheck 0 (16640 + ((79 : Fin 80).val - 16)) 0 (mkToken 0x40A00000 5 0 64)).2.1,
      ((((((State.reset).setFld F.PVM_STATUS_OE 1).setFld (F.VDR_CFG_MODE 63) 2).setFld (F.VDR_STATUS_SIG 63) 5).setVdr 63 { Vdr.init with tok := some (0, 0, 65) }).outCheck 0 (16640 + ((79 : Fin 80).val - 16)) 0 (mkToken 0x40A00000 5 0 64)).2.2,
      ?_, rfl, ?_, ?_, ?_, ?_, ?_⟩ <;> decide +kernel
  · refine ⟨(((State.reset).setFld F.PVM_STATUS_OE 1).setFld (F.VDR_CFG_MODE 63) 2).setFld (F.VDR_STATUS_SIG 63) 5, 79, 0, mkToken 0x40A00000 5 0 64, _,
      (((((State.reset).setFld F.PVM_STATUS_OE 1).setFld (F.VDR_CFG_MODE 63) 2).setFld (F.VDR_STATUS_SIG 63) 5).outCheck 0 (16640 + ((79 : Fin 80).val - 16)) 0 (mkToken 0x40A00000 5 0 64)).1,
      (((((State.reset).setFld F.PVM_STATUS_OE 1).setFld (F.VDR_CFG_MODE 63) 2).setFld (F.VDR_STATUS_SIG 63) 5).outCheck 0 (16640 + ((79 : Fin 80).val - 16)) 0 (mkToken 0x40A00000 5 0 64)).2.1,
      (((((State.reset).setFld F.PVM_STATUS_OE 1).setFld (F.VDR_CFG_MODE 63) 2).setFld (F.VDR_STATUS_SIG 63) 5).outCheck 0 (16640 + ((79 : Fin 80).val - 16)) 0 (mkToken 0x40A00000 5 0 64)).2.2,
      ?_, rfl, ?_, ?_, ?_, ?_, ?_⟩ <;> decide +kernel
  · refine ⟨(((State.reset).setFld F.PVM_STATUS_OE 1).setFld (F.CLO_CFG_EN 15) 1).setClo 15 { Clo.init with tok := some (0, 0, 65), strokes := 5 }, 15, ?_, ?_,
      ?_, ?_, ?_, ?_⟩ <;> decide +kernel
  · refine ⟨((State.reset).setFld F.PVM_STATUS_OE 1).setFld (F.CLO_CFG_EN 15) 1, 15, ?_, ?_⟩ <;> decide +kernel
  · refine ⟨(((State.reset).setFld F.PVM_STATUS_OE 1).setFld (F.VDR_CFG_MODE 63) 2).setVdr 63 { Vdr.init with tok := some (0, 0, 65), strokes := 5 }, 79, _, ?_,
      rfl, ?_, ?_, ?_, ?_, ?_, ?_⟩ <;> decide +kernel
  · refine ⟨((((State.reset).setFld F.PVM_STATUS_OE 1).setFld (F.CLO_CFG_EN 15) 1).setFld (F.CLO_STATUS_ENABLED 15) 1).setClo 15 { Clo.init with low := 20 }, 15,
      ?_, ?_, ?_⟩ <;> decide +kernel
  · refine ⟨((State.reset.setFld F.PVM_STATUS_OE 1).setFld (F.CLO_CFG_EN 15) 1).setFld (F.CLO_STATUS_COMPLIANCE 15) 1, 15, ?_⟩ <;> decide +kernel
  · refine ⟨((((State.reset).setFld F.PVM_STATUS_OE 1).setFld (F.CLO_CFG_EN 15) 1).setFld (F.CLO_STATUS_COMPLIANCE 15) 1).setClo 15 { Clo.init with okay := 20 },
      15, ?_, ?_⟩ <;> decide +kernel
  · refine ⟨State.reset, 15, ?_⟩ <;> decide +kernel
  · refine ⟨(((((State.reset).setFld F.PVM_STATUS_OE 1).setFld (F.CLO_CFG_EN 15) 1).setFld (F.CLO_STATUS_ENABLED 15) 1).setClo 15 { Clo.init with diffAt := some 0 }).setTime { State.reset.time with cycle := 30000000 },
      15, ?_, ?_, ?_⟩ <;> decide +kernel
  · refine ⟨(State.reset).setFld (F.CLO_STATUS_ENABLED (15 : Fin 16).val) 0, 15, ?_⟩ <;> decide +kernel
  · refine ⟨State.reset, 15, ?_⟩ <;> decide +kernel
  · refine ⟨(((((State.reset).setFld F.PVM_STATUS_OE 1).setFld (F.CLO_CFG_EN 15) 1).setFld (F.CLO_STATUS_ALARM 15) 1).setClo 15 { Clo.init with diffAt := some 0 }).setTime { State.reset.time with cycle := 30000000 },
      15, ?_, ?_, ?_⟩ <;> decide +kernel
  · refine ⟨(State.reset).setFld (F.CLO_STATUS_ALARM (15 : Fin 16).val) 0, 15, ?_⟩ <;> decide +kernel
  · refine ⟨(State.reset).setFld (F.CLO_STATUS_TSD (15 : Fin 16).val) 1, 15, ?_, ?_⟩ <;> decide +kernel
  · refine ⟨(State.reset).setClo 15 { Clo.init with resumed := some 0 }, 15, 0, ?_, ?_⟩ <;> decide +kernel
  · refine ⟨((State.reset.setFld F.PVM_STATUS_OE 1).setFld (F.CLO_CFG_EN 15) 1), 15, ?_⟩ <;> decide +kernel

/-- States and operands that meet the hypotheses of CyclicProgramCommands, clause by clause. -/
theorem test_wit_CyclicProgramCommands :
    (∃ (s : State) (cmd : Nat) (code : Nat), cmd < 8 ∧ code < 256 ∧ code ≠ 0 ∧ cmd = 1) ∧
    (∃ (s : State) (cmd : Nat) (code : Nat), cmd < 8 ∧ code < 256 ∧ code ≠ 0 ∧ cmd ≠ 1) ∧
    (∃ (s : State) (cmd : Nat) (code : Nat), cmd < 8 ∧ code < 256 ∧ code = 0) ∧
    (∃ (s : State), s.cyc.loading ≠ none) ∧
    (∃ (s : State), s.cyc.loading = none) ∧
    (∃ (s : State) (u : State) (a : ProgAreas) (src : Nat) (len : Nat) (c : Nat) (o : Option Prog), s.cyc.loading = some (src, len)
    ∧ u = ((s.setCyc ({ s.cyc with loading := none })).setFld F.CYC_RES_BUSY 0).cycIrq 4 ∧ c ≠ 0 ∧ u.progVerify a src len = (c, o)) ∧
    (∃ (s : State) (u : State) (a : ProgAreas) (src : Nat) (len : Nat) (p : Prog), s.cyc.loading = some (src, len)
    ∧ u = ((s.setCyc ({ s.cyc with loading := none })).setFld F.CYC_RES_BUSY 0).cycIrq 4 ∧ u.progVerify a src len = (0, some p)) ∧
    (∃ (s : State) (cold : Bool) (c : Instr) (n : Nat), ((c, n) = if cold = true then (Instr.cycStartCold, 3) else (Instr.cycStartWarm, 2))
    ∧ s.cyc.staged.or s.cyc.cur = none) ∧
    (∃ (s : State) (cold : Bool) (c : Instr) (n : Nat) (p : Prog), ((c, n) = if cold = true then (Instr.cycStartCold, 3) else (Instr.cycStartWarm, 2))
    ∧ s.cyc.staged.or s.cyc.cur = some p ∧ (2 ≤ s.cycState ∨ s.holdsToken = false)) ∧
    (∃ (s : State) (cold : Bool) (c : Instr) (n : Nat) (p : Prog), ((c, n) = if cold = true then (Instr.cycStartCold, 3) else (Instr.cycStartWarm, 2))
    ∧ s.cyc.staged.or s.cyc.cur = some p ∧ s.cycState < 2 ∧ s.holdsToken = true ∧ cold = false ∧ s.cyc.store ≠ some p.retain) ∧
    (∃ (s : State) (cold : Bool) (c : Instr) (n : Nat) (p : Prog), ((c, n) = if cold = true then (Instr.cycStartCold, 3) else (Instr.cycStartWarm, 2))
    ∧ s.cyc.staged.or s.cyc.cur = some p ∧ s.cycState < 2 ∧ s.holdsToken = true ∧ cold = false ∧ s.cyc.store = some p.retain) ∧
    (∃ (s : State) (cold : Bool) (c : Instr) (n : Nat) (p : Prog), ((c, n) = if cold = true then (Instr.cycStartCold, 3) else (Instr.cycStartWarm, 2))
    ∧ s.cyc.staged.or s.cyc.cur = some p ∧ s.cycState < 2 ∧ s.holdsToken = true ∧ cold = true ∧ s.cyc.staged ≠ none) ∧
    (∃ (s : State) (cold : Bool) (c : Instr) (n : Nat) (p : Prog), ((c, n) = if cold = true then (Instr.cycStartCold, 3) else (Instr.cycStartWarm, 2))
    ∧ s.cyc.staged.or s.cyc.cur = some p ∧ s.cycState < 2 ∧ s.holdsToken = true ∧ cold = true ∧ s.cyc.staged = none) ∧
    (∃ (s : State) (cause : Nat), cause < 16) ∧
    (∃ (s : State), s.cycState < 2) ∧
    (∃ (s : State), 2 ≤ s.cycState) ∧
    (∃ (s : State), s.cycState ≠ 3) ∧
    (∃ (s : State), s.cycState = 3) ∧
    (∃ (s : State) (cause : Nat), cause < 16 ∧ s.cyc.batch = none) ∧
    (∃ (s : State), (s.cycState ≠ 3 ∨ s.holdsToken = false)) ∧
    (∃ (s : State), s.cycState = 3 ∧ s.holdsToken = true ∧ (s.cyc.cur = none ∨ s.cyc.staged = none)) ∧
    (∃ (s : State) (c : Prog) (p : Prog), s.cycState = 3 ∧ s.holdsToken = true ∧ s.cyc.cur = some c ∧ s.cyc.staged = some p ∧ p.retain ≠ c.retain) ∧
    (∃ (s : State) (c : Prog) (p : Prog), s.cycState = 3 ∧ s.holdsToken = true ∧ s.cyc.cur = some c ∧ s.cyc.staged = some p ∧ p.retain = c.retain) ∧
    (∃ (s : State), (s.cyc.cur = none ∨ s.cycState = 0)) ∧
    (∃ (s : State), s.cyc.cur ≠ none ∧ s.cycState ≠ 0 ∧ s.cyc.batch ≠ none) ∧
    (∃ (s : State) (p : Prog) (a : Nat) (n : Nat) (r : Nat), s.cyc.cur = some p ∧ s.cycState ≠ 0 ∧ s.cyc.batch = none
    ∧ a = s.fld F.CYC_OC_SRC_LO_ADDR * 16 + s.fld F.CYC_OC_SRC_HI_ADDR * 2 ^ 32
    ∧ r = s.fld F.CYC_OC_RPT_LO_ADDR * 16 + s.fld F.CYC_OC_RPT_HI_ADDR * 2 ^ 32 ∧ n = s.fld F.CYC_OC_N_N ∧ (n = 0 ∨ 4096 < n ∨ inDram a (16 * n) = false
    ∨ inDram r 12 = false)) ∧
    (∃ (s : State) (p : Prog) (a : Nat) (n : Nat) (r : Nat), s.cyc.cur = some p ∧ s.cycState ≠ 0 ∧ s.cyc.batch = none
    ∧ a = s.fld F.CYC_OC_SRC_LO_ADDR * 16 + s.fld F.CYC_OC_SRC_HI_ADDR * 2 ^ 32
    ∧ r = s.fld F.CYC_OC_RPT_LO_ADDR * 16 + s.fld F.CYC_OC_RPT_HI_ADDR * 2 ^ 32 ∧ n = s.fld F.CYC_OC_N_N ∧ 0 < n ∧ n ≤ 4096 ∧ inDram a (16 * n) = true
    ∧ inDram r 12 = true ∧ (∃ i < n, s.ocEntry p (a + 16 * i) = none)) ∧
    (∃ (s : State) (p : Prog) (a : Nat) (n : Nat) (r : Nat) (es : List OcEntry), s.cyc.cur = some p ∧ s.cycState ≠ 0 ∧ s.cyc.batch = none
    ∧ a = s.fld F.CYC_OC_SRC_LO_ADDR * 16 + s.fld F.CYC_OC_SRC_HI_ADDR * 2 ^ 32
    ∧ r = s.fld F.CYC_OC_RPT_LO_ADDR * 16 + s.fld F.CYC_OC_RPT_HI_ADDR * 2 ^ 32 ∧ n = s.fld F.CYC_OC_N_N ∧ 0 < n ∧ n ≤ 4096 ∧ inDram a (16 * n) = true
    ∧ inDram r 12 = true ∧ List.map (fun i => s.ocEntry p (a + 16 * i)) (List.range n) = List.map some es ∧ s.cycState = 1) ∧
    (∃ (s : State) (p : Prog) (a : Nat) (n : Nat) (r : Nat) (es : List OcEntry), s.cyc.cur = some p ∧ s.cycState ≠ 0 ∧ s.cyc.batch = none
    ∧ a = s.fld F.CYC_OC_SRC_LO_ADDR * 16 + s.fld F.CYC_OC_SRC_HI_ADDR * 2 ^ 32
    ∧ r = s.fld F.CYC_OC_RPT_LO_ADDR * 16 + s.fld F.CYC_OC_RPT_HI_ADDR * 2 ^ 32 ∧ n = s.fld F.CYC_OC_N_N ∧ 0 < n ∧ n ≤ 4096 ∧ inDram a (16 * n) = true
    ∧ inDram r 12 = true ∧ List.map (fun i => s.ocEntry p (a + 16 * i)) (List.range n) = List.map some es ∧ s.cycState ≠ 1) ∧
    (∃ (s : State), s.cyc.cur = none) ∧
    (∃ (s : State) (u : State) (p : Prog) (cs : Word) (arr : List (Nat × Token)) (q : Nat), s.cyc.cur = some p ∧ q = BitVec.toNat cs ∧ u = s.cycArrive arr
    ∧ u.isStart p q = false) ∧
    (∃ (s : State) (u : State) (v : State) (p : Prog) (cs : Word) (arr : List (Nat × Token)) (q : Nat), s.cyc.cur = some p ∧ q = BitVec.toNat cs
    ∧ u = s.cycArrive arr ∧ v = (u.setCyc ({ u.cyc with startAt := some q })).closeCycle.sendOwed q ∧ u.isStart p q = true ∧ v.cycState = 1) ∧
    (∃ (s : State) (u : State) (v : State) (p : Prog) (cs : Word) (arr : List (Nat × Token)) (q : Nat), s.cyc.cur = some p ∧ q = BitVec.toNat cs
    ∧ u = s.cycArrive arr ∧ v = (u.setCyc ({ u.cyc with startAt := some q })).closeCycle.sendOwed q ∧ u.isStart p q = true ∧ v.cycState = 2) ∧
    (∃ (s : State) (u : State) (v : State) (p : Prog) (cs : Word) (arr : List (Nat × Token)) (q : Nat), s.cyc.cur = some p ∧ q = BitVec.toNat cs
    ∧ u = s.cycArrive arr ∧ v = (u.setCyc ({ u.cyc with startAt := some q })).closeCycle.sendOwed q ∧ u.isStart p q = true ∧ v.cycState = 3
    ∧ v.cyc.run ≠ none) ∧
    (∃ (s : State) (u : State) (v : State) (p : Prog) (cs : Word) (arr : List (Nat × Token)) (q : Nat), s.cyc.cur = some p ∧ q = BitVec.toNat cs
    ∧ u = s.cycArrive arr ∧ v = (u.setCyc ({ u.cyc with startAt := some q })).closeCycle.sendOwed q ∧ u.isStart p q = true ∧ v.cycState = 3
    ∧ v.cyc.run = none ∧ v.cyc.switch = some SwitchPhase.idle) ∧
    (∃ (s : State) (u : State) (v : State) (p : Prog) (cs : Word) (arr : List (Nat × Token)) (q : Nat), s.cyc.cur = some p ∧ q = BitVec.toNat cs
    ∧ u = s.cycArrive arr ∧ v = (u.setCyc ({ u.cyc with startAt := some q })).closeCycle.sendOwed q ∧ u.isStart p q = true ∧ v.cycState = 3
    ∧ v.cyc.run = none ∧ v.cyc.switch ≠ some SwitchPhase.idle) ∧
    (∃ (s : State) (q : Nat), q < 2 ^ 32) ∧
    (∃ (s : State), (s.cyc.cur = none ∨ s.cyc.run = none)) ∧
    (∃ (s : State) (p : Prog) (q : Nat) (c : Nat), s.cyc.cur = some p ∧ s.cyc.run = some (q, c)) := by
  refine ⟨?_, ?_, ?_, ?_, ?_, ?_, ?_, ?_, ?_, ?_, ?_, ?_, ?_, ?_, ?_, ?_, ?_, ?_, ?_, ?_, ?_, ?_, ?_, ?_, ?_, ?_, ?_, ?_, ?_, ?_, ?_, ?_, ?_, ?_, ?_, ?_, ?_, ?_, ?_⟩
  · refine ⟨State.reset, 1, 255, ?_, ?_, ?_, ?_⟩ <;> decide +kernel
  · refine ⟨State.reset, 7, 1, ?_, ?_, ?_, ?_⟩ <;> decide +kernel
  · refine ⟨State.reset, 7, 0, ?_, ?_, ?_⟩ <;> decide +kernel
  · refine ⟨wLoading, ?_⟩ <;> decide +kernel
  · refine ⟨State.reset, ?_⟩ <;> decide +kernel
  · refine ⟨wLoading.wrList 0x1000000040 [0, 0, 0], _, wProg.areas, 0x1000000000, 232, 3, none, ?_, rfl, ?_, ?_⟩ <;> decide +kernel
  · refine ⟨wLoading, _, wProg.areas, 0x1000000000, 232, wProg, ?_, rfl, ?_⟩ <;> decide +kernel
  · refine ⟨State.reset, true, .cycStartCold, 3, ?_, ?_⟩ <;> decide +kernel
  · refine ⟨wCyc 3, false, .cycStartWarm, 2, wProg, ?_, ?_, ?_⟩ <;> decide +kernel
  · refine ⟨(State.reset.setFld F.CYC_STATUS_STATE 1).setCyc { CycState.init with cur := some wProg, store := some 8 }, false, .cycStartWarm, 2, wProg, ?_, ?_,
      ?_, ?_, ?_, ?_⟩ <;> decide +kernel
  · refine ⟨(State.reset.setFld F.CYC_STATUS_STATE 1).setCyc { CycState.init with cur := some wProg, store := some 9 }, false, .cycStartWarm, 2, wProg, ?_, ?_,
      ?_, ?_, ?_, ?_⟩ <;> decide +kernel
  · refine ⟨(State.reset.setFld F.CYC_STATUS_STATE 1).setCyc { CycState.init with staged := some wProg }, true, .cycStartCold, 3, wProg, ?_, ?_, ?_, ?_, ?_, ?_⟩ <;> decide +kernel
  · refine ⟨(State.reset.setFld F.CYC_STATUS_STATE 1).setCyc { CycState.init with cur := some wProg }, true, .cycStartCold, 3, wProg, ?_, ?_, ?_, ?_, ?_, ?_⟩ <;> decide +kernel
  · refine ⟨wCyc 1, 15, ?_⟩ <;> decide +kernel
  · refine ⟨wCyc 1, ?_⟩ <;> decide +kernel
  · refine ⟨wCyc 2, ?_⟩ <;> decide +kernel
  · refine ⟨wCyc 2, ?_⟩ <;> decide +kernel
  · refine ⟨wCyc 3, ?_⟩ <;> decide +kernel
  · refine ⟨wCyc 3, 15, ?_, ?_⟩ <;> decide +kernel
  · refine ⟨wCyc 2, ?_⟩ <;> decide +kernel
  · refine ⟨wCyc 3, ?_, ?_, ?_⟩ <;> decide +kernel
  · refine ⟨(State.reset.setFld F.CYC_STATUS_STATE 3).setCyc { CycState.init with cur := some wProg, staged := some { wProg with retain := 8 } }, wProg,
      { wProg with retain := 8 }, ?_, ?_, ?_, ?_, ?_⟩ <;> decide +kernel
  · refine ⟨(State.reset.setFld F.CYC_STATUS_STATE 3).setCyc { CycState.init with cur := some wProg, staged := some { wProg with id := 6 } }, wProg,
      { wProg with id := 6 }, ?_, ?_, ?_, ?_, ?_⟩ <;> decide +kernel
  · refine ⟨State.reset, ?_⟩ <;> decide +kernel
  · refine ⟨(State.reset.setFld F.CYC_STATUS_STATE 3).setCyc { CycState.init with cur := some wProg, batch := some [⟨0, 0, 0, 5⟩] }, ?_, ?_, ?_⟩ <;> decide +kernel
  · refine ⟨wCyc 1, wProg, _, _, _, ?_, ?_, ?_, rfl, rfl, rfl, ?_⟩ <;> decide +kernel
  · refine ⟨(((((wCyc 1).setFld F.CYC_OC_SRC_HI_ADDR 0x10).setFld F.CYC_OC_RPT_HI_ADDR 0x10).setFld F.CYC_OC_RPT_LO_ADDR 0x100).setFld F.CYC_OC_N_N 1).wrWord 0x1000000000 0x40000000,
      wProg, _, _, _, ?_, ?_, ?_, rfl, rfl, rfl, ?_, ?_, ?_, ?_, ?_⟩ <;> decide +kernel
  · refine ⟨((((((wCyc 1).setFld F.CYC_OC_SRC_HI_ADDR 0x10).setFld F.CYC_OC_RPT_HI_ADDR 0x10).setFld F.CYC_OC_RPT_LO_ADDR 0x100).setFld F.CYC_OC_N_N 1).wrWord 0x1000000000 63).wrWord 0x1000000008 7,
      wProg, _, _, _, [⟨63, 0, 0, 7⟩], ?_, ?_, ?_, rfl, rfl, rfl, ?_, ?_, ?_, ?_, ?_, ?_⟩ <;> decide +kernel
  · refine ⟨((((((wCyc 3).setFld F.CYC_OC_SRC_HI_ADDR 0x10).setFld F.CYC_OC_RPT_HI_ADDR 0x10).setFld F.CYC_OC_RPT_LO_ADDR 0x100).setFld F.CYC_OC_N_N 1).wrWord 0x1000000000 63).wrWord 0x1000000008 7,
      wProg, _, _, _, [⟨63, 0, 0, 7⟩], ?_, ?_, ?_, rfl, rfl, rfl, ?_, ?_, ?_, ?_, ?_, ?_⟩ <;> decide +kernel
  · refine ⟨State.reset, ?_⟩ <;> decide +kernel
  · refine ⟨((((State.reset).setFld F.CYC_STATUS_STATE 3).setFld (F.CT_CTRL_RUNNING 7) 1).setNum (Reg.CT_LAST_CSEQ 7) 192).setCyc { CycState.init with cur := some wProg },
      _, wProg, 193, [], _, ?_, rfl, rfl, ?_⟩ <;> decide +kernel
  · refine ⟨((((State.reset).setFld F.CYC_STATUS_STATE 1).setFld (F.CT_CTRL_RUNNING 7) 1).setNum (Reg.CT_LAST_CSEQ 7) 192).setCyc { CycState.init with cur := some wProg },
      _, _, wProg, 192, [], _, ?_, rfl, rfl, rfl, ?_, ?_⟩ <;> decide +kernel
  · refine ⟨((((State.reset).setFld F.CYC_STATUS_STATE 2).setFld (F.CT_CTRL_RUNNING 7) 1).setNum (Reg.CT_LAST_CSEQ 7) 192).setCyc { CycState.init with cur := some wProg },
      _, _, wProg, 192, [], _, ?_, rfl, rfl, rfl, ?_, ?_⟩ <;> decide +kernel
  · refine ⟨((((State.reset).setFld F.CYC_STATUS_STATE 3).setFld (F.CT_CTRL_RUNNING 7) 1).setNum (Reg.CT_LAST_CSEQ 7) 192).setCyc { CycState.init with cur := some wProg, run := some (64, 5) },
      _, _, wProg, 192, [], _, ?_, rfl, rfl, rfl, ?_, ?_, ?_⟩ <;> decide +kernel
  · refine ⟨((((State.reset).setFld F.CYC_STATUS_STATE 3).setFld (F.CT_CTRL_RUNNING 7) 1).setNum (Reg.CT_LAST_CSEQ 7) 192).setCyc { CycState.init with cur := some wProg, switch := some .idle },
      _, _, wProg, 192, [], _, ?_, rfl, rfl, rfl, ?_, ?_, ?_, ?_⟩ <;> decide +kernel
  · refine ⟨((((State.reset).setFld F.CYC_STATUS_STATE 3).setFld (F.CT_CTRL_RUNNING 7) 1).setNum (Reg.CT_LAST_CSEQ 7) 192).setCyc { CycState.init with cur := some wProg },
      _, _, wProg, 192, [], _, ?_, rfl, rfl, rfl, ?_, ?_, ?_, ?_⟩ <;> decide +kernel
  · refine ⟨wCyc 3, 0x7B0804C0, ?_⟩ <;> decide +kernel
  · refine ⟨wCyc 3, ?_⟩ <;> decide +kernel
  · refine ⟨(State.reset.setFld F.CYC_STATUS_STATE 3).setCyc { CycState.init with cur := some wProg, run := some (64, 5) }, wProg, 64, 5, ?_, ?_⟩ <;> decide +kernel

/-- States and operands that meet the hypotheses of DmaCommands, clause by clause. -/
theorem test_wit_DmaCommands :
    (∃ (s : State) (n : Fin 9) (ch : Fin 8), s.crewDeaf n.val = false ∧ s.fld (F.CDM_CH_CFG_OWNER n.val ch.val) = 0
    ∧ s.inUse (Res.cdm n.val ch.val) = true ∧ (s.cdmState n.val ch.val = 0 ∨ s.cdmState n.val ch.val = 2) ∧ s.cdmCheck n.val ch.val = 0) ∧
    (∃ (s : State) (n : Fin 9) (ch : Fin 8), s.crewDeaf n.val = false ∧ s.fld (F.CDM_CH_CFG_OWNER n.val ch.val) ≠ 0) ∧
    (∃ (s : State) (n : Fin 9) (ch : Fin 8), s.crewDeaf n.val = false ∧ s.cdmState n.val ch.val = 1) ∧
    (∃ (s : State) (n : Fin 9) (ch : Fin 8), s.crewDeaf n.val = false ∧ s.cdmState n.val ch.val = 2 ∧ s.inUse (Res.cdm n.val ch.val) = true) ∧
    (∃ (s : State) (n : Fin 9) (ch : Nat), s.crewDeaf n.val = false
    ∧ (nextServed (Tab.get (fun x => 7) s.dmaLast n.val) 8 (fun ch => s.cdmState n.val ch == 1 && !s.frozen (64 + 8 * n.val + ch)) fun ch => s.fld (F.CDM_CH_CFG_PRIO n.val ch)) = some ch) ∧
    (∃ (s : State) (n : Nat) (ch : Nat), n < 9 ∧ ch < 8 ∧ (s.dmaOf n ch).pos + 1 < s.cdmTotal n ch) ∧
    (∃ (s : State) (n : Nat) (ch : Nat), n < 9 ∧ ch < 8 ∧ s.cdmTotal n ch ≤ (s.dmaOf n ch).pos + 1 ∧ s.fld (F.CDM_CH_CFG_OWNER n ch) ≠ 2) ∧
    (∃ (s : State) (c : Fin 4), s.inUse (Res.rmv c.val) = true ∧ (s.fld (F.RMV_STATUS_STATE c.val) = 0 ∨ s.fld (F.RMV_STATUS_STATE c.val) = 2)
    ∧ s.rmvCheck c.val = 0) ∧
    (∃ (s : State) (c : Fin 4), s.inUse (Res.rmv c.val) = true ∧ (s.fld (F.RMV_STATUS_STATE c.val) = 0 ∨ s.fld (F.RMV_STATUS_STATE c.val) = 2)
    ∧ s.rmvCheck c.val ≠ 0) ∧
    (∃ (s : State) (c : Fin 4), s.fld (F.RMV_STATUS_STATE c.val) = 1) ∧
    (∃ (s : State) (c : Fin 4), s.fld (F.RMV_STATUS_STATE c.val) = 2 ∧ s.inUse (Res.rmv c.val) = true) ∧
    (∃ (s : State) (c : Nat),
    (nextServed (Tab.get (fun x => 3) s.dmaLast 9) 4 (fun c => s.fld (F.RMV_STATUS_STATE c) == 1 && !s.frozen (136 + c)) fun x => 0) = some c) ∧
    (∃ (s : State) (c : Nat) (k : Nat), c < 4 ∧ s.rmvWaits c (s.rmvOf c).pos = some k ∧ (s.rmvOf c).waiting = false) := by
  refine ⟨?_, ?_, ?_, ?_, ?_, ?_, ?_, ?_, ?_, ?_, ?_, ?_, ?_⟩
  · refine ⟨(((((wCrew.setFld (F.CDM_CH_STATE_STATE 8 7) 2).setFld (F.CDM_CH_CFG_OWNER 8 7) 0).setFld (F.CDM_CH_C0_C 8 7) 2).setFld (F.CDM_CH_C1_C 8 7) 1).setFld (F.CDM_CH_C2_C 8 7) 1),
      8, 7, ?_, ?_, ?_, ?_, ?_⟩ <;> decide +kernel
  · refine ⟨((wCrew.setFld (F.CDM_CH_STATE_STATE 8 7) 0).setFld (F.CDM_CH_CFG_OWNER 8 7) 1), 8, 7, ?_, ?_⟩ <;> decide +kernel
  · refine ⟨((wCrew.setFld (F.CDM_CH_STATE_STATE 8 7) 1).setFld (F.CDM_CH_CFG_OWNER 8 7) 0), 8, 7, ?_, ?_⟩ <;> decide +kernel
  · refine ⟨((wCrew.setFld (F.CDM_CH_STATE_STATE 8 7) 2).setFld (F.CDM_CH_CFG_OWNER 8 7) 0), 8, 7, ?_, ?_, ?_⟩ <;> decide +kernel
  · refine ⟨(((((wCrew.setFld (F.CDM_CH_STATE_STATE 8 7) 1).setFld (F.CDM_CH_CFG_OWNER 8 7) 0).setFld (F.CDM_CH_C0_C 8 7) 2).setFld (F.CDM_CH_C1_C 8 7) 1).setFld (F.CDM_CH_C2_C 8 7) 1),
      8, 7, ?_, ?_⟩ <;> decide +kernel
  · refine ⟨(((((wCrew.setFld (F.CDM_CH_STATE_STATE 8 7) 1).setFld (F.CDM_CH_CFG_OWNER 8 7) 0).setFld (F.CDM_CH_C0_C 8 7) 2).setFld (F.CDM_CH_C1_C 8 7) 1).setFld (F.CDM_CH_C2_C 8 7) 1),
      8, 7, ?_, ?_, ?_⟩ <;> decide +kernel
  · refine ⟨(((((wCrew.setFld (F.CDM_CH_STATE_STATE 8 7) 1).setFld (F.CDM_CH_CFG_OWNER 8 7) 0).setFld (F.CDM_CH_C0_C 8 7) 2).setFld (F.CDM_CH_C1_C 8 7) 1).setFld (F.CDM_CH_C2_C 8 7) 1).setDma 8 7 { State.reset.dmaOf 8 7 with pos := 1 },
      8, 7, ?_, ?_, ?_, ?_⟩ <;> decide +kernel
  · refine ⟨(State.reset.setFld (F.RMV_STATUS_STATE 3) 2), 3, ?_, ?_, ?_⟩ <;> decide +kernel
  · refine ⟨((State.reset.setFld (F.RMV_STATUS_STATE 3) 0).setFld (F.RMV_D_LINE_LINE 3) 8).setFld (F.RMV_D_LINES_LINES 3) 1, 3, ?_, ?_, ?_⟩ <;> decide +kernel
  · refine ⟨(State.reset.setFld (F.RMV_STATUS_STATE 3) 1), 3, ?_⟩ <;> decide +kernel
  · refine ⟨(State.reset.setFld (F.RMV_STATUS_STATE 3) 2), 3, ?_, ?_⟩ <;> decide +kernel
  · refine ⟨(State.reset.setFld (F.RMV_STATUS_STATE 3) 1), 3, ?_⟩ <;> decide +kernel
  · refine ⟨((((State.reset.setFld (F.RMV_CTRL_CIRC 3) 1).setFld (F.RMV_STATUS_FULL 3) 1).setFld (F.RMV_S_LINE_LINE 3) 32).setFld (F.RMV_S_LINES_LINES 3) 1).setRmv 3 { State.reset.rmvOf 3 with pos := 16 },
      3, 1, ?_, ?_, ?_⟩ <;> decide +kernel

/-- States and operands that meet the hypotheses of DomainAndPavilionCommands, clause by clause. -/
theorem test_wit_DomainAndPavilionCommands :
    (∃ (s : State) (src : Fin 160) (key : Byte), (src ≠ 0 ∨ key ≠ BitVec.ofNat 8 165)) ∧
    (∃ (s : State) (d : Byte), BitVec.toNat d = 2) ∧
    (∃ (s : State) (d : Byte), BitVec.toNat d ≠ 2 ∧ s.domainFree (BitVec.toNat d) = false) ∧
    (∃ (s : State) (d : Byte), BitVec.toNat d ≠ 2 ∧ s.domainFree (BitVec.toNat d) = true ∧ s.inUse (Res.domain (BitVec.toNat d)) = true) ∧
    (∃ (s : State) (d : Byte), BitVec.toNat d ≠ 2 ∧ s.domainFree (BitVec.toNat d) = true ∧ s.health (Res.domain (BitVec.toNat d)) = Health.retired) ∧
    (∃ (s : State) (d : Byte), BitVec.toNat d ≠ 2 ∧ s.domainFree (BitVec.toNat d) = true ∧ s.health (Res.domain (BitVec.toNat d)) = Health.testing) ∧
    (∃ (s : State) (c : Fin 8), c ≠ 0 ∧ s.flag (F.RPC_CWD_EN c.val) = true
    ∧ s.kickAt c.val + s.fld (F.RPC_CWD_TIMEOUT_MS c.val) * cycPerMs ≤ s.time.cycle) ∧
    (∃ (s : State) (c : Fin 8), (c = 0 ∨ s.flag (F.RPC_CWD_EN c.val) = false
    ∨ s.time.cycle < s.kickAt c.val + s.fld (F.RPC_CWD_TIMEOUT_MS c.val) * cycPerMs)) ∧
    (∃ (s : State) (d : Fin 32), s.flag (F.RPC_DOM_RELEASED d.val) = true ∧ s.flag (F.RPC_DOM_HELD d.val) = false ∧ (d = 2 ∨ d = 3)) ∧
    (∃ (s : State) (d : Fin 32), s.flag (F.RPC_DOM_RELEASED d.val) = true ∧ s.flag (F.RPC_DOM_HELD d.val) = false ∧ gated d.val = true) ∧
    (∃ (s : State) (d : Fin 32), s.flag (F.RPC_DOM_HELD d.val) = true ∧ s.clkAt d.val + 10 * cycPerUs ≤ s.time.cycle) ∧
    (∃ (s : State) (d : Fin 32), (s.flag (F.RPC_DOM_HELD d.val) = false ∨ s.time.cycle < s.clkAt d.val + 10 * cycPerUs)) ∧
    (∃ (s : State) (t : State) (sw : BitVec 24) (ok : Bool) (c : Option Nat), s.pavState = 0 ∧ s.pavStartEnd sw.toNat ok = (t, c) ∧ c = none) ∧
    (∃ (s : State) (t : State) (sw : BitVec 24) (ok : Bool) (c : Option Nat) (k : Nat), s.pavState = 0 ∧ s.pavStartEnd sw.toNat ok = (t, c) ∧ c = some k) ∧
    (∃ (s : State) (sw : Nat) (ok : Bool), (s.pavStartEnd sw ok).2 = none) ∧
    (∃ (s : State), s.pavState ≠ 2) ∧
    (∃ (s : State), s.pavState = 2) ∧
    (∃ (s : State) (sw : BitVec 24), s.pavState = 1 ∧ s.fld F.PVM_SWITCH_SW ≠ sw.toNat) ∧
    (∃ (s : State) (sw : BitVec 24), (s.pavState ≠ 1 ∨ s.fld F.PVM_SWITCH_SW = sw.toNat)) ∧
    (∃ (s : State), s.pavState = 1 ∧ s.rpc.released = true ∧ s.rpc.folly = 0 ∧ s.rpc.pend = none ∧ s.rpc.brown = false ∧ s.rpc.low ≠ 2 ∧ s.oe = false) ∧
    (∃ (s : State), (s.pavState ≠ 1 ∨ s.oe = true)) ∧
    (∃ (s : State), s.flag F.RPC_OB_STATUS_BUSY = false) ∧
    (∃ (s : State) (k : Nat) (l : List Nat), s.rpc.obWrite = some (k, l) ∧ (∀ b ∈ l, b < 256)) := by
  refine ⟨?_, ?_, ?_, ?_, ?_, ?_, ?_, ?_, ?_, ?_, ?_, ?_, ?_, ?_, ?_, ?_, ?_, ?_, ?_, ?_, ?_, ?_, ?_⟩
  · refine ⟨State.reset, 0, 0xA4, ?_⟩ <;> decide +kernel
  · refine ⟨State.reset, 2, ?_⟩ <;> decide +kernel
  · refine ⟨State.reset.setNum Reg.IML_CREWMAP 0x86543210, 16, ?_, ?_⟩ <;> decide +kernel
  · refine ⟨State.reset, 31, ?_, ?_, ?_⟩ <;> decide +kernel
  · refine ⟨((State.reset).setHealth (Res.domain (BitVec.toNat (31 : Byte))) .retired).setHealth (.domain 31) .retired, 31, ?_, ?_, ?_⟩ <;> decide +kernel
  · refine ⟨(State.reset).setHealth (Res.domain 4) .testing, 4, ?_, ?_, ?_⟩ <;> decide +kernel
  · refine ⟨(State.reset).setFld (F.RPC_CWD_EN (7 : Fin 8).val) 1, 7, ?_, ?_, ?_⟩ <;> decide +kernel
  · refine ⟨State.reset, 7, ?_⟩ <;> decide +kernel
  · refine ⟨(State.reset.setFld (F.RPC_DOM_RELEASED 3) 1).setFld (F.RPC_DOM_HELD 3) 0, 3, ?_, ?_, ?_⟩ <;> decide +kernel
  · refine ⟨(State.reset.setFld (F.RPC_DOM_RELEASED 31) 1).setFld (F.RPC_DOM_HELD 31) 0, 31, ?_, ?_, ?_⟩ <;> decide +kernel
  · refine ⟨((State.reset).setFld (F.RPC_DOM_HELD 31) 1).setTime { State.reset.time with cycle := 6000 }, 31, ?_, ?_⟩ <;> decide +kernel
  · refine ⟨State.reset, 31, ?_⟩ <;> decide +kernel
  · refine ⟨((State.reset).setFld F.PVM_STATUS_STATE 0).setPvm { State.reset.pvm with store := wPar }, _, 0x60000, true, none, ?_, (wPar_starts _ rfl), ?_⟩ <;> decide +kernel
  · refine ⟨(State.reset).setFld F.PVM_STATUS_STATE 0, _, 0, false, some 7, 7, ?_, (pavStart_fails _ _), ?_⟩ <;> decide +kernel
  · refine ⟨(State.reset).setPvm { State.reset.pvm with store := wPar }, (0x60000 : BitVec 24).toNat, true, congrArg Prod.snd (wPar_starts _ rfl)⟩
  · refine ⟨State.reset, ?_⟩ <;> decide +kernel
  · refine ⟨((State.reset).setFld F.PVM_STATUS_STATE 2).setFld F.PVM_STATUS_STATE 2, ?_⟩ <;> decide +kernel
  · refine ⟨((State.reset).setFld F.PVM_STATUS_STATE 1).setFld F.PVM_STATUS_STATE 1, 0xFFFFFF, ?_, ?_⟩ <;> decide +kernel
  · refine ⟨State.reset, 0, ?_⟩ <;> decide +kernel
  · refine ⟨(State.reset.setFld F.PVM_STATUS_STATE 1).setRpc { State.reset.rpc with released := true, pend := none }, ?_, ?_, ?_, ?_, ?_, ?_, ?_⟩ <;> decide +kernel
  · refine ⟨State.reset, ?_⟩ <;> decide +kernel
  · refine ⟨(State.reset).setFld F.RPC_OB_STATUS_BUSY 0, ?_⟩ <;> decide +kernel
  · refine ⟨(State.reset).setRpc { State.reset.rpc with obWrite := some (1, List.replicate 8 255) }, 1, List.replicate 8 255, ?_, ?_⟩ <;> decide +kernel

/-- States and operands that meet the hypotheses of EmptyQueueIdles, clause by clause. -/
theorem test_wit_EmptyQueueIdles :
    (∃ (s : State), s.pending = []) := by
  refine ⟨State.reset, ?_⟩ <;> decide +kernel

/-- States and operands that meet the hypotheses of EncoderCommands, clause by clause. -/
theorem test_wit_EncoderCommands :
    (∃ (s : State) (g : Fin 16), s.flag (F.ENC_CFG_EN g.val) = false) ∧
    (∃ (s : State) (g : Fin 16) (a : Bool) (b : Bool) (d : Int), s.flag (F.ENC_CFG_EN g.val) = true
    ∧ encStep (s.fld (F.ENC_CFG_MODE g.val)) (s.encOf g.val).a (s.encOf g.val).b a b = (d, false)) ∧
    (∃ (s : State) (g : Fin 16) (a : Bool) (b : Bool) (d : Int), s.flag (F.ENC_CFG_EN g.val) = true
    ∧ encStep (s.fld (F.ENC_CFG_MODE g.val)) (s.encOf g.val).a (s.encOf g.val).b a b = (d, true)) ∧
    (∃ (s : State) (g : Nat) (d : Int), g < 16 ∧ s.flag (F.ENC_STATUS_SAT g) = false ∧ (s.encCount g + d).natAbs < 2 ^ 47 - 1) ∧
    (∃ (s : State) (g : Fin 16) (l : BitVec 3), l ≠ 0 ∧ (s.encOf g.val).lines = 0) ∧
    (∃ (s : State) (g : Fin 16) (l : BitVec 3), l ≠ 0 ∧ (s.encOf g.val).lines ≠ 0) ∧
    (∃ (s : State) (g : Fin 16), s.inUse (Res.enc g.val) = false) ∧
    (∃ (s : State) (g : Fin 16), s.inUse (Res.enc g.val) = true) ∧
    (∃ (s : State) (g : Fin 16), s.flag (F.ENC_CFG_Z_QUAL g.val) = false ∧ s.flag (F.ENC_IDX_HI_IDX_VALID g.val) = false) ∧
    (∃ (s : State) (g : Fin 16), s.flag (F.ENC_CFG_Z_QUAL g.val) = false ∧ s.flag (F.ENC_IDX_HI_IDX_VALID g.val) = true) ∧
    (∃ (s : State) (g : Fin 16), s.flag (F.ENC_CFG_Z_QUAL g.val) = true ∧ ((s.encOf g.val).a && (s.encOf g.val).b) = false) := by
  refine ⟨?_, ?_, ?_, ?_, ?_, ?_, ?_, ?_, ?_, ?_, ?_⟩
  · refine ⟨(State.reset).setFld (F.ENC_CFG_EN (15 : Fin 16).val) 0, 15, ?_⟩ <;> decide +kernel
  · refine ⟨(State.reset).setFld (F.ENC_CFG_EN (15 : Fin 16).val) 1, 15, true, false, 1, ?_, ?_⟩ <;> decide +kernel
  · refine ⟨(State.reset).setFld (F.ENC_CFG_EN (15 : Fin 16).val) 1, 15, true, true, 0, ?_, ?_⟩ <;> decide +kernel
  · refine ⟨(State.reset).setFld (F.ENC_STATUS_SAT 15) 0, 15, 0, ?_, ?_, ?_⟩ <;> decide +kernel
  · refine ⟨State.reset, 15, 5, ?_, ?_⟩ <;> decide +kernel
  · refine ⟨State.reset.setEnc 15 { State.reset.encOf 15 with lines := 2 }, 15, 5, ?_, ?_⟩ <;> decide +kernel
  · refine ⟨State.reset.setHealth (.enc 15) .retired, 15, ?_⟩ <;> decide +kernel
  · refine ⟨State.reset, 15, ?_⟩ <;> decide +kernel
  · refine ⟨((State.reset).setFld (F.ENC_CFG_Z_QUAL (15 : Fin 16).val) 0).setFld (F.ENC_IDX_HI_IDX_VALID (15 : Fin 16).val) 0, 15, ?_, ?_⟩ <;> decide +kernel
  · refine ⟨((State.reset).setFld (F.ENC_CFG_Z_QUAL (15 : Fin 16).val) 0).setFld (F.ENC_IDX_HI_IDX_VALID (15 : Fin 16).val) 1, 15, ?_, ?_⟩ <;> decide +kernel
  · refine ⟨(State.reset).setFld (F.ENC_CFG_Z_QUAL (15 : Fin 16).val) 1, 15, ?_, ?_⟩ <;> decide +kernel

/-- States and operands that meet the hypotheses of EthernetCommands, clause by clause. -/
theorem test_wit_EthernetCommands :
    (∃ (s : State) (p : Fin 3), ((s.prpOf p.val).sent = none ∨ ∃ t, (s.prpOf p.val).sent = some t
    ∧ t + s.fld (F.ETH_PRP_LIFE_MS (2 * p.val)) * cycPerMs ≤ s.time.cycle)) ∧
    (∃ (s : State) (p : Fin 3) (t : Nat), (s.prpOf p.val).sent = some t ∧ s.time.cycle < t + s.fld (F.ETH_PRP_LIFE_MS (2 * p.val)) * cycPerMs) ∧
    (∃ (s : State) (l : List Nat), linkLocal (ethType l) = false) ∧
    (∃ (s : State) (n : Nat), s.ethUp n = false) ∧
    (∃ (s : State) (n : Nat) (q : Nat) (l : List Nat), s.ethUp n = true ∧ (s.ethOf n).wait = [] ∧ s.fits n q l.length = true) ∧
    (∃ (s : State) (n : Nat) (q : Nat) (l : List Nat), s.ethUp n = true ∧ s.fits n q l.length = false) ∧
    (∃ (s : State) (n : Nat) (l : List Nat), n < 6 ∧ s.flag (F.ETH_CTRL_PROTECT n) = false ∧ ethType l ≠ 35063) ∧
    (∃ (s : State) (n : Fin 4), (s.ethOf n.val).wait = []) ∧
    (∃ (s : State) (n : Fin 4) (w : EthWait), (s.ethOf n.val).wait = [w] ∧ w.queue < 8 ∧ s.fits n.val w.queue w.bytes.length = true) ∧
    (∃ (s : State) (n : Fin 4) (w : EthWait), (s.ethOf n.val).wait = [w] ∧ w.queue < 8 ∧ s.fits n.val w.queue w.bytes.length = false) ∧
    (∃ (s : State) (n : Fin 6) (i : Fin 16), List.find? (fun x => x.1 == i.val) (s.ethOf n.val).rx = none) ∧
    (∃ (s : State) (n : Fin 6) (i : Fin 16) (x : Nat × Nat), List.find? (fun x => x.1 == i.val) (s.ethOf n.val).rx = some x) ∧
    (∃ (s : State) (n : Fin 6) (i : Fin 8) (len : Nat), len = s.num (Reg.ETH_FTX n.val i.val 0) % 2 ^ 14 ∧ (8 < i.val + spanOfFrame len
    ∨ ((s.ethOf n.val).wait.any fun w => w.slot == some i.val) = true)) ∧
    (∃ (s : State) (n : Fin 6) (i : Fin 8) (len : Nat), len = s.num (Reg.ETH_FTX n.val i.val 0) % 2 ^ 14 ∧ i.val + spanOfFrame len ≤ 8
    ∧ ((s.ethOf n.val).wait.any fun w => w.slot == some i.val) = false) ∧
    (∃ (s : State) (n : Fin 6) (bytes : List Byte) (l : List Nat), l = List.map BitVec.toNat bytes ∧ (s.ethHears n.val = false ∨ 9216 < l.length)) ∧
    (∃ (s : State) (n : Fin 6) (bytes : List Byte) (l : List Nat), l = List.map BitVec.toNat bytes ∧ s.ethHears n.val = true ∧ l.length ≤ 9216
    ∧ s.flag (F.ETH_STATUS_LAN_DOWN n.val) = false ∧ s.flag (F.ETH_CTRL_PROTECT n.val) = true ∧ linkLocal (ethType l) = false) ∧
    (∃ (s : State) (n : Fin 6) (bytes : List Byte) (l : List Nat), l = List.map BitVec.toNat bytes ∧ s.ethHears n.val = true ∧ l.length ≤ 9216
    ∧ s.flag (F.ETH_CTRL_PROTECT n.val) = false ∧ linkLocal (ethType l) = false ∧ s.img.net.vids.contains ((ethVid l).getD 0) = false) ∧
    (∃ (s : State) (n : Fin 6) (bytes : List Byte) (l : List Nat), l = List.map BitVec.toNat bytes ∧ s.ethHears n.val = true ∧ l.length ≤ 9216
    ∧ s.flag (F.ETH_CTRL_PROTECT n.val) = false ∧ linkLocal (ethType l) = true) ∧
    (∃ (s : State) (n : Fin 6), s.flag (F.ETH_STATUS_LAN_DOWN n.val) = true) ∧
    (∃ (s : State) (n : Fin 6), s.time.cycle < (s.ethOf n.val).last + s.fld (F.ETH_PRP_LAN_TMO_MS n.val) * cycPerMs) ∧
    (∃ (s : State) (n : Fin 6), s.flag (F.ETH_STATUS_LAN_DOWN n.val) = false ∧ s.flag (F.ETH_CTRL_EN n.val) = true
    ∧ (s.ethOf n.val).last < (s.ethOf (mate n.val)).last ∧ (s.ethOf n.val).last + s.fld (F.ETH_PRP_LAN_TMO_MS n.val) * cycPerMs ≤ s.time.cycle) ∧
    (∃ (s : State) (n : Fin 6), n.val < 4) ∧
    (∃ (s : State) (n : Fin 6), 4 ≤ n.val) := by
  refine ⟨?_, ?_, ?_, ?_, ?_, ?_, ?_, ?_, ?_, ?_, ?_, ?_, ?_, ?_, ?_, ?_, ?_, ?_, ?_, ?_, ?_, ?_, ?_⟩
  · refine ⟨State.reset, 2, ?_⟩ <;> decide +kernel
  · refine ⟨((State.reset).setPrp 2 { PrpState.init with sent := some 0 }).setFld (F.ETH_PRP_LIFE_MS 4) 10, 2, 0, ?_, ?_⟩ <;> decide +kernel
  · refine ⟨State.reset, List.replicate 60 0, ?_⟩ <;> decide +kernel
  · refine ⟨State.reset, 5, ?_⟩ <;> decide +kernel
  · refine ⟨wEth 3, 3, 7, List.replicate 60 7, ?_, ?_, ?_⟩ <;> decide +kernel
  · refine ⟨(((((wEth 3).setFld (F.ETH_CTRL_QBV_EN 3) 1).setFld F.CTU_TIME_STATE_STATE 2).setFld (F.ETH_QBV_NENT_NENT 3) 1).setNum (Reg.ETH_GCL 3 0) 0x100), 3,
      7, List.replicate 60 7, ?_, ?_⟩ <;> decide +kernel
  · refine ⟨(State.reset).setFld (F.ETH_CTRL_PROTECT 5) 0, 5, List.replicate 60 7, ?_, ?_, ?_⟩ <;> decide +kernel
  · refine ⟨State.reset, 3, ?_⟩ <;> decide +kernel
  · refine ⟨(wEth 3).setEth 3 { State.reset.ethOf 3 with wait := [⟨7, List.replicate 60 7, none⟩] }, 3, ⟨7, List.replicate 60 7, none⟩, ?_, ?_, ?_⟩ <;> decide +kernel
  · refine ⟨(((((wEth 3).setFld (F.ETH_CTRL_QBV_EN 3) 1).setFld F.CTU_TIME_STATE_STATE 2).setFld (F.ETH_QBV_NENT_NENT 3) 1).setNum (Reg.ETH_GCL 3 0) 0x100).setEth 3 { State.reset.ethOf 3 with wait := [⟨7, List.replicate 60 7, none⟩] },
      3, ⟨7, List.replicate 60 7, none⟩, ?_, ?_, ?_⟩ <;> decide +kernel
  · refine ⟨State.reset, 5, 15, ?_⟩ <;> decide +kernel
  · refine ⟨State.reset.setEth 5 { State.reset.ethOf 5 with rx := [(15, 2)] }, 5, 15, (15, 2), ?_⟩ <;> decide +kernel
  · refine ⟨State.reset.setNum (Reg.ETH_FTX 5 7 0) 0x1000, 5, 7, _, rfl, ?_⟩ <;> decide +kernel
  · refine ⟨State.reset.setNum (Reg.ETH_FTX 5 7 0) 60, 5, 7, _, rfl, ?_, ?_⟩ <;> decide +kernel
  · refine ⟨State.reset, 5, [], _, rfl, ?_⟩ <;> decide +kernel
  · refine ⟨(wEth 5).setFld (F.ETH_CTRL_PROTECT 5) 1, 5, List.replicate 60 7, _, rfl, ?_, ?_, ?_, ?_, ?_⟩ <;> decide +kernel
  · refine ⟨wEth 5, 5, List.replicate 12 7 ++ [0x81, 0, 0x0F, 0xFF] ++ List.replicate 44 8, _, rfl, ?_, ?_, ?_, ?_, ?_⟩ <;> decide +kernel
  · refine ⟨wEth 5, 5, List.replicate 12 7 ++ [0x88, 0xF7] ++ List.replicate 46 8, _, rfl, ?_, ?_, ?_, ?_⟩ <;> decide +kernel
  · refine ⟨(State.reset).setFld (F.ETH_STATUS_LAN_DOWN (5 : Fin 6).val) 1, 5, ?_⟩ <;> decide +kernel
  · refine ⟨State.reset, 5, ?_⟩ <;> decide +kernel
  · refine ⟨((((State.reset).setFld (F.ETH_CTRL_EN 5) 1).setEth 4 { State.reset.ethOf 4 with last := 1 }).setFld (F.ETH_PRP_LAN_TMO_MS 5) 10).setTime { State.reset.time with cycle := 6000000 },
      5, ?_, ?_, ?_, ?_⟩ <;> decide +kernel
  · refine ⟨State.reset, 3, ?_⟩ <;> decide +kernel
  · refine ⟨State.reset, 5, ?_⟩ <;> decide +kernel

/-- States and operands that meet the hypotheses of EventLogCommands, clause by clause. -/
theorem test_wit_EventLogCommands :
    (∃ (s : State) (e : Event) (l : List Event), s.evl.queue = e :: l ∧ s.flag F.EVL_CTRL_DRAM_EN = false ∧ s.evl.lostRun = 0 ∧ s.evl.mirrorIdx < 524288) ∧
    (∃ (s : State), s.flag F.EVL_CTRL_DRAM_EN = false) := by
  refine ⟨?_, ?_⟩
  · refine ⟨((State.reset).setFld F.EVL_CTRL_DRAM_EN 0).setEvl { State.reset.evl with queue := [⟨1, 2, 0x12, 3, 4⟩], mirrorIdx := 524287 }, ⟨1, 2, 0x12, 3, 4⟩,
      [], ?_, ?_, ?_, ?_⟩ <;> decide +kernel
  · refine ⟨(State.reset).setFld F.EVL_CTRL_DRAM_EN 0, ?_⟩ <;> decide +kernel

/-- States and operands that meet the hypotheses of FunctionLatch, clause by clause. -/
theorem test_wit_FunctionLatch :
    (∃ (s : State) (f : Nat), f < 4 ∧ s.par (offFun f) 20 1 = 1 ∧ s.funOk f = true ∧ s.funConds f = false ∧ s.pvm.evald = true) ∧
    (∃ (s : State) (f : Nat), f < 4 ∧ s.par (offFun f) 20 1 = 1 ∧ s.funLatch f = true ∧ s.funOk f = false) ∧
    (∃ (s : State) (f : Fin 4), s.funLatch f.val = true ∧ (∀ i < 16, bit (s.par (offFun f.val) 0 16) i = true → s.rbit Reg.PVM_SIN i = true)
    ∧ f.val ∈ s.pvm.resets) ∧
    (∃ (s : State) (f : Fin 4), s.funLatch f.val = true ∧ (∀ i < 16, bit (s.par (offFun f.val) 0 16) i = true → s.rbit Reg.PVM_SIN i = true)
    ∧ f.val ∉ s.pvm.resets) ∧
    (∃ (s : State) (f : Fin 4) (i : Nat), i < 16 ∧ bit (s.par (offFun f.val) 0 16) i = true ∧ s.rbit Reg.PVM_SIN i = false) ∧
    (∃ (s : State) (i : Nat), i < 16 ∧ 100 * cycPerMs ≤ s.time.cycle - (s.sinOf i).rose ∧ (s.sinOf i).rose ≤ s.time.cycle
    ∧ s.time.cycle ≤ (s.sinOf i).rose + 5000 * cycPerMs) ∧
    (∃ (s : State) (i : Nat), i < 16 ∧ (s.time.cycle < (s.sinOf i).rose + 100 * cycPerMs ∨ (s.sinOf i).rose + 5000 * cycPerMs < s.time.cycle)) ∧
    (∃ (s : State) (f : Nat), f < 4 ∧ s.par (offFun f) 20 1 = 0) := by
  refine ⟨?_, ?_, ?_, ?_, ?_, ?_, ?_, ?_⟩
  · refine ⟨((State.reset).setPvm { State.reset.pvm with par := [(0x1B0, 0x1), (0x1B2, 0x10)], evald := true }).setFld F.PVM_FUNC_OK 8, 3, ?_, ?_, ?_, ?_, ?_⟩ <;> decide +kernel
  · refine ⟨((State.reset).setPvm { State.reset.pvm with par := [(0x1B2, 0x10)] }).setFld F.PVM_FUNC_LATCH 8, 3, ?_, ?_, ?_, ?_⟩ <;> decide +kernel
  · refine ⟨(((State.reset).setFld F.PVM_FUNC_LATCH 8).setRbit Reg.PVM_SIN 1 true).setPvm { State.reset.pvm with par := [(0x1B0, 0x2)], resets := [3] }, 3, ?_,
      ?_, ?_⟩ <;> decide +kernel
  · refine ⟨(State.reset).setFld F.PVM_FUNC_LATCH 8, 3, ?_, ?_, ?_⟩ <;> decide +kernel
  · refine ⟨(State.reset).setPvm { State.reset.pvm with par := [(0x1B1, 0x80)] }, 3, 15, ?_, ?_, ?_⟩ <;> decide +kernel
  · refine ⟨((State.reset).setSin 15 { Sin.init with q := true }).setTime { State.reset.time with cycle := 60000000 }, 15, ?_, ?_, ?_, ?_⟩ <;> decide +kernel
  · refine ⟨State.reset, 15, ?_, ?_⟩ <;> decide +kernel
  · refine ⟨State.reset, 3, ?_, ?_⟩ <;> decide +kernel

/-- States and operands that meet the hypotheses of HartAndValveCommands, clause by clause. -/
theorem test_wit_HartAndValveCommands :
    (∃ (s : State) (n : Fin 16), s.flag (F.HART_CFG_EN n.val) = true ∧ s.flag (F.CLO_CFG_EN n.val) = true ∧ s.inUse (Res.clo n.val) = true
    ∧ s.flag (F.CLO_STATUS_TSD n.val) = false ∧ s.flag (F.HART_RES_BUSY n.val) = false) ∧
    (∃ (s : State) (n : Fin 16), (s.flag (F.HART_CFG_EN n.val) = false ∨ s.flag (F.CLO_CFG_EN n.val) = false ∨ s.inUse (Res.clo n.val) = false
    ∨ s.flag (F.CLO_STATUS_TSD n.val) = true ∨ s.flag (F.HART_RES_BUSY n.val) = true)) ∧
    (∃ (s : State) (n : Fin 16), s.flag (F.HART_RES_BUSY n.val) = true ∧ (s.cloOf n.val).retries < s.fld (F.HART_CFG_RETRIES n.val)) ∧
    (∃ (s : State) (n : Fin 16), s.flag (F.HART_RES_BUSY n.val) = true ∧ s.fld (F.HART_CFG_RETRIES n.val) ≤ (s.cloOf n.val).retries) ∧
    (∃ (s : State) (n : Fin 16), s.flag (F.HART_RES_BUSY n.val) = false) ∧
    (∃ (s : State) (n : Nat), n < 64 ∧ s.vdrMode n = 1 ∧ (s.vdrBit Reg.VDR_CMD n && s.vdrCan n) = false) ∧
    (∃ (s : State) (n : Nat), n < 64 ∧ s.vdrMode n = 1 ∧ (s.vdrBit Reg.VDR_CMD n && s.vdrCan n) = true ∧ (s.vdrOf n).phase = VdrPhase.off) ∧
    (∃ (s : State) (n : Nat), n < 64 ∧ s.vdrMode n = 0) ∧
    (∃ (s : State) (n : Fin 64), (s.vdrOf n.val).phase = VdrPhase.hit
    ∧ (s.vdrOf n.val).since + s.fld (F.VDR_HEAT_HIT n.val) * (100 * cycPerUs) ≤ s.time.cycle) ∧
    (∃ (s : State) (n : Fin 64), ((s.vdrOf n.val).phase ≠ VdrPhase.hit
    ∨ s.time.cycle < (s.vdrOf n.val).since + s.fld (F.VDR_HEAT_HIT n.val) * (100 * cycPerUs))) ∧
    (∃ (s : State) (n : Fin 64), (s.vdrOf n.val).tripped = true ∧ (s.vdrOf n.val).tripAt + s.fld (F.VDR_CFG_RETRY_MS n.val) * cycPerMs ≤ s.time.cycle) ∧
    (∃ (s : State) (n : Fin 64), ((s.vdrOf n.val).tripped = false ∨ s.time.cycle < (s.vdrOf n.val).tripAt + s.fld (F.VDR_CFG_RETRY_MS n.val) * cycPerMs)) ∧
    (∃ (s : State) (n : Fin 64), (s.vdrOf n.val).hot = false) ∧
    (∃ (s : State) (n : Fin 64), (s.vdrOf n.val).hot = true) ∧
    (∃ (s : State) (n : Fin 64), s.vdrBit Reg.VDR_OUT n.val = true) ∧
    (∃ (s : State) (n : Fin 64), s.vdrBit Reg.VDR_OUT n.val = false ∧ s.coilOn (n.val / 16) = true ∧ s.vdrBit Reg.VDR_OPEN n.val = false) ∧
    (∃ (s : State) (n : Fin 64), s.vdrBit Reg.VDR_OUT n.val = false ∧ s.coilOn (n.val / 16) = true ∧ s.vdrBit Reg.VDR_OPEN n.val = true) ∧
    (∃ (s : State) (g : Fin 4), bit (s.fld F.VDR_GRP_GRP_OFF) g.val = false) ∧
    (∃ (s : State) (g : Fin 4), bit (s.fld F.VDR_GRP_GRP_OFF) g.val = true) ∧
    (∃ (s : State) (n : Fin 64) (d : Rat) (v : Word) (st : BitVec 4) (q : Nat), s.vdrMode n.val = 2 ∧ s.oe = true
    ∧ (s.fld (F.CRS_STATUS_STATE (s.fld (F.VDR_HEAT_HCRS n.val))) = 2 ∨ s.fld (F.CRS_STATUS_STATE (s.fld (F.VDR_HEAT_HCRS n.val))) = 3)
    ∧ (s.vdrOf n.val).cyc ≠ s.heatCycle n.val ∧ (s.vdrOf n.val).tok = some (v, st, q) ∧ d = f32R (F32.clamp 0 hundred v) ∧ (s.vdrOf n.val).acc + d < 100) ∧
    (∃ (s : State) (n : Fin 64) (d : Rat) (v : Word) (st : BitVec 4) (q : Nat), s.vdrMode n.val = 2 ∧ s.oe = true
    ∧ (s.fld (F.CRS_STATUS_STATE (s.fld (F.VDR_HEAT_HCRS n.val))) = 2 ∨ s.fld (F.CRS_STATUS_STATE (s.fld (F.VDR_HEAT_HCRS n.val))) = 3)
    ∧ (s.vdrOf n.val).cyc ≠ s.heatCycle n.val ∧ (s.vdrOf n.val).tok = some (v, st, q) ∧ d = f32R (F32.clamp 0 hundred v) ∧ 100 ≤ (s.vdrOf n.val).acc + d) ∧
    (∃ (s : State) (n : Fin 64), (s.vdrMode n.val ≠ 2 ∨ s.oe = false ∨ s.heatFires n.val = false ∨ (s.vdrOf n.val).cyc = s.heatCycle n.val)) := by
  refine ⟨?_, ?_, ?_, ?_, ?_, ?_, ?_, ?_, ?_, ?_, ?_, ?_, ?_, ?_, ?_, ?_, ?_, ?_, ?_, ?_, ?_, ?_⟩
  · refine ⟨((((State.reset).setFld (F.HART_CFG_EN (15 : Fin 16).val) 1).setFld (F.CLO_CFG_EN (15 : Fin 16).val) 1).setFld (F.CLO_STATUS_TSD (15 : Fin 16).val) 0).setFld (F.HART_RES_BUSY (15 : Fin 16).val) 0,
      15, ?_, ?_, ?_, ?_, ?_⟩ <;> decide +kernel
  · refine ⟨State.reset, 15, ?_⟩ <;> decide +kernel
  · refine ⟨(State.reset.setFld (F.HART_RES_BUSY 15) 1).setFld (F.HART_CFG_RETRIES 15) 3, 15, ?_, ?_⟩ <;> decide +kernel
  · refine ⟨(State.reset).setFld (F.HART_RES_BUSY (15 : Fin 16).val) 1, 15, ?_, ?_⟩ <;> decide +kernel
  · refine ⟨(State.reset).setFld (F.HART_RES_BUSY (15 : Fin 16).val) 0, 15, ?_⟩ <;> decide +kernel
  · refine ⟨((State.reset.setFld F.PVM_STATUS_OE 1).setFld (F.VDR_CFG_MODE 63) 1), 63, ?_, ?_, ?_⟩ <;> decide +kernel
  · refine ⟨((State.reset.setFld F.PVM_STATUS_OE 1).setFld (F.VDR_CFG_MODE 63) 1).setRbit (Reg.VDR_CMD 1) 31 true, 63, ?_, ?_, ?_, ?_⟩ <;> decide +kernel
  · refine ⟨(State.reset).setFld (F.VDR_CFG_MODE 63) 0, 63, ?_, ?_⟩ <;> decide +kernel
  · refine ⟨(State.reset).setVdr 63 { Vdr.init with phase := .hit }, 63, ?_, ?_⟩ <;> decide +kernel
  · refine ⟨State.reset, 63, ?_⟩ <;> decide +kernel
  · refine ⟨(State.reset).setVdr 63 { Vdr.init with tripped := true }, 63, ?_, ?_⟩ <;> decide +kernel
  · refine ⟨State.reset, 63, ?_⟩ <;> decide +kernel
  · refine ⟨State.reset, 63, ?_⟩ <;> decide +kernel
  · refine ⟨State.reset.setVdr 63 { Vdr.init with hot := true }, 63, ?_⟩ <;> decide +kernel
  · refine ⟨State.reset.setRbit (Reg.VDR_OUT 1) 31 true, 63, ?_⟩ <;> decide +kernel
  · refine ⟨State.reset.setFld F.PVM_GRP_ON 8, 63, ?_, ?_, ?_⟩ <;> decide +kernel
  · refine ⟨(State.reset.setFld F.PVM_GRP_ON 8).setRbit (Reg.VDR_OPEN 1) 31 true, 63, ?_, ?_, ?_⟩ <;> decide +kernel
  · refine ⟨State.reset, 3, ?_⟩ <;> decide +kernel
  · refine ⟨State.reset.setFld ⟨Reg.VDR_GRP, 0, 4⟩ 8, 3, ?_⟩ <;> decide +kernel
  · refine ⟨(((((State.reset).setFld F.PVM_STATUS_OE 1).setFld (F.VDR_CFG_MODE 63) 2).setFld (F.VDR_HEAT_HCRS 63) 3).setFld (F.CRS_STATUS_STATE 3) 2).setVdr 63 { Vdr.init with tok := some (0x42480000, 0, 65), cyc := 7, acc := 49 },
      63, 50, 0x42480000, 0, 65, ?_, ?_, ?_, ?_, ?_, ?_, ?_⟩ <;> decide +kernel
  · refine ⟨(((((State.reset).setFld F.PVM_STATUS_OE 1).setFld (F.VDR_CFG_MODE 63) 2).setFld (F.VDR_HEAT_HCRS 63) 3).setFld (F.CRS_STATUS_STATE 3) 2).setVdr 63 { Vdr.init with tok := some (0x42480000, 0, 65), cyc := 7, acc := 50 },
      63, 50, 0x42480000, 0, 65, ?_, ?_, ?_, ?_, ?_, ?_, ?_⟩ <;> decide +kernel
  · refine ⟨State.reset, 63, ?_⟩ <;> decide +kernel

/-- States and operands that meet the hypotheses of HealthModel, clause by clause. -/
theorem test_wit_HealthModel :
    (∃ (s : State) (r : Res), r.present = true ∧ Option.any s.domainRetired r.domainOf = false ∧ s.health r = Health.retired) ∧
    (∃ (s : State) (r : Res), r.present = true ∧ Option.any s.domainRetired r.domainOf = false ∧ s.health r ≠ Health.retired) ∧
    (∃ (s : State) (r : Res), r.present = true ∧ Option.any s.domainRetired r.domainOf = false ∧ s.inUse r = true) ∧
    (∃ (s : State) (r : Res), r.present = true ∧ Option.any s.domainRetired r.domainOf = false ∧ s.inUse r = false) ∧
    (∃ (s : State) (r : Res) (i : Nat × Nat), r.present = true ∧ Option.any s.domainRetired r.domainOf = false ∧ (s.healthRec r).last = some i) ∧
    (∃ (s : State) (r : Res) (i : Nat × Nat), r.present = true ∧ Option.any s.domainRetired r.domainOf = false ∧ (s.healthRec r).last ≠ some i
    ∧ s.health r = Health.service ∧ 1 < (s.healthNW r).1) ∧
    (∃ (s : State) (r : Res) (i : Nat × Nat), r.present = true ∧ Option.any s.domainRetired r.domainOf = false ∧ (s.healthRec r).last ≠ some i
    ∧ s.health r = Health.service ∧ (s.healthNW r).1 ≤ 1) ∧
    (∃ (s : State) (r : Res) (i : Nat × Nat), r.present = true ∧ Option.any s.domainRetired r.domainOf = false ∧ (s.healthRec r).last ≠ some i
    ∧ s.health r = Health.retry ∧ (s.healthRec r).count + 1 < (s.healthNW r).1) ∧
    (∃ (s : State) (r : Res) (i : Nat × Nat), r.present = true ∧ Option.any s.domainRetired r.domainOf = false ∧ (s.healthRec r).last ≠ some i
    ∧ s.health r = Health.retry ∧ (s.healthNW r).1 ≤ (s.healthRec r).count + 1) ∧
    (∃ (s : State) (r : Res) (i : Nat × Nat), r.present = true ∧ Option.any s.domainRetired r.domainOf = false ∧ (s.healthRec r).last ≠ some i
    ∧ (s.health r = Health.retired ∨ s.health r = Health.testing)) ∧
    (∃ (s : State) (r : Res), r.present = true ∧ Option.any s.domainRetired r.domainOf = false ∧ s.health r = Health.retry
    ∧ s.lasted (s.healthRec r).opened ((s.healthNW r).2 * cycPerMs) = false) ∧
    (∃ (s : State) (r : Res), r.present = true ∧ Option.any s.domainRetired r.domainOf = false ∧ s.health r = Health.retry
    ∧ s.lasted (s.healthRec r).opened ((s.healthNW r).2 * cycPerMs) = true) ∧
    (∃ (s : State) (r : Res), r.present = true ∧ Option.any s.domainRetired r.domainOf = false ∧ s.health r = Health.testing) := by
  refine ⟨?_, ?_, ?_, ?_, ?_, ?_, ?_, ?_, ?_, ?_, ?_, ?_, ?_⟩
  · refine ⟨State.reset.setHealth (.conv 19) .retired, .conv 19, ?_, ?_, ?_⟩ <;> decide +kernel
  · refine ⟨State.reset, .conv 19, ?_, ?_, ?_⟩ <;> decide +kernel
  · refine ⟨State.reset, .conv 19, ?_, ?_, ?_⟩ <;> decide +kernel
  · refine ⟨State.reset.setHealth (.conv 19) .retired, .conv 19, ?_, ?_, ?_⟩ <;> decide +kernel
  · refine ⟨(State.reset).setHealthRec (.conv 19) ⟨1, some (1, 2), 0⟩, .conv 19, (1, 2), ?_, ?_, ?_⟩ <;> decide +kernel
  · refine ⟨(State.reset).setHealth (.conv 19) .service, .conv 19, (1, 2), ?_, ?_, ?_, ?_, ?_⟩ <;> decide +kernel
  · refine ⟨((State.reset).setHealth (.conv 19) .service).setImg { State.reset.img with health := [((Res.conv 19).cls, (1, 10000))] }, .conv 19, (1, 2), ?_, ?_,
      ?_, ?_, ?_⟩ <;> decide +kernel
  · refine ⟨(State.reset).setHealth (.conv 19) .retry, .conv 19, (1, 2), ?_, ?_, ?_, ?_, ?_⟩ <;> decide +kernel
  · refine ⟨((State.reset).setHealth (.conv 19) .retry).setHealthRec (.conv 19) ⟨2, none, 0⟩, .conv 19, (1, 2), ?_, ?_, ?_, ?_, ?_⟩ <;> decide +kernel
  · refine ⟨State.reset.setHealth (.conv 19) .testing, .conv 19, (1, 2), ?_, ?_, ?_, ?_⟩ <;> decide +kernel
  · refine ⟨(State.reset).setHealth (.conv 19) .retry, .conv 19, ?_, ?_, ?_, ?_⟩ <;> decide +kernel
  · refine ⟨(((State.reset).setHealth (.conv 19) .retry).setHealthRec (.conv 19) ⟨2, none, 0⟩).setTime { State.reset.time with cycle := 6000000000 }, .conv 19,
      ?_, ?_, ?_, ?_⟩ <;> decide +kernel
  · refine ⟨(State.reset).setHealth (.conv 19) .testing, .conv 19, ?_, ?_, ?_⟩ <;> decide +kernel

/-- States and operands that meet the hypotheses of HoldoverIgnoresServoWrites, clause by clause. -/
theorem test_wit_HoldoverIgnoresServoWrites :
    (∃ (s : State), s.timeState = 3) := by
  refine ⟨(State.reset).setFld F.CTU_TIME_STATE_STATE 3, ?_⟩ <;> decide +kernel

/-- States and operands that meet the hypotheses of ImageLoaderCommands, clause by clause. -/
theorem test_wit_ImageLoaderCommands :
    (∃ (s : State), (s.imlState = 0 ∨ s.imlState = 3)) ∧
    (∃ (s : State), s.imlState ≠ 0 ∧ s.imlState ≠ 3) ∧
    (∃ (s : State), s.imlState = 1 ∧ s.sourceOk s.imlSrc (s.num Reg.IML_SRC_LEN) = false) ∧
    (∃ (s : State), s.imlState = 1 ∧ s.sourceOk s.imlSrc (s.num Reg.IML_SRC_LEN) = true) ∧
    (∃ (s : State) (u : State) (l : List Nat), s.imlState = 2
    ∧ u = (s.clearMem (imgSlotAddr s.inactive) 33554432).copyMem s.imlSrc (imgSlotAddr s.inactive) (s.num Reg.IML_SRC_LEN)
    ∧ l = u.rdList (imgSlotAddr s.inactive) (s.num Reg.IML_SRC_LEN) ∧ (imgHdrOf l).isPart = false) ∧
    (∃ (s : State), (s.imlState = 1 ∨ s.imlState = 2)) ∧
    (∃ (s : State) (p : Replacing), s.imlState = 4 ∧ s.iml.repl = some p ∧ p.done = false) ∧
    (∃ (s : State), s.imlState = 0) ∧
    (∃ (s : State) (h : ImgHdr) (c : ImgContent) (d : Nat), s.imlState = 3 ∧ s.iml.cand = some (h, c) ∧ s.spareFor = some d) ∧
    (∃ (s : State), s.imlState = 3 ∧ s.spareFor = none) ∧
    (∃ (s : State) (p : Replacing) (h : ImgHdr) (c : ImgContent) (base : ImgContent), s.iml.repl = some p ∧ s.iml.cand = some (h, c)
    ∧ s.runCont = some base ∧ p.loaded = false) ∧
    (∃ (s : State) (p : Replacing) (c : Catch), s.iml.repl = some p ∧ s.nextCatch p.m = some c) ∧
    (∃ (s : State) (p : Replacing), s.iml.repl = some p ∧ p.done = true ∧ p.cleared = false) ∧
    (∃ (s : State) (p : Replacing), s.iml.repl = some p ∧ (p.done = false ∨ p.cleared = true)) ∧
    (∃ (s : State) (p : Replacing), s.iml.repl = some p ∧ p.done = true ∧ p.cleared = true) := by
  refine ⟨?_, ?_, ?_, ?_, ?_, ?_, ?_, ?_, ?_, ?_, ?_, ?_, ?_, ?_, ?_⟩
  · refine ⟨State.reset, ?_⟩ <;> decide +kernel
  · refine ⟨(State.reset).setFld F.IML_STATUS_STATE 2, ?_, ?_⟩ <;> decide +kernel
  · refine ⟨(State.reset).setFld F.IML_STATUS_STATE 1, ?_, ?_⟩ <;> decide +kernel
  · refine ⟨((((State.reset).setFld F.IML_STATUS_STATE 1).setFld F.IML_SRC_HI_ADDR 0x10).setNum Reg.IML_SRC_LEN 64).wrList 0x1000000008 [64], ?_, ?_⟩ <;> decide +kernel
  · refine ⟨(((State.reset).setFld F.IML_STATUS_STATE 2).setFld F.IML_SRC_HI_ADDR 0x10).setNum Reg.IML_SRC_LEN 64, _, _, ?_, rfl, rfl, ?_⟩ <;> decide +kernel
  · refine ⟨(State.reset).setFld F.IML_STATUS_STATE 2, ?_⟩ <;> decide +kernel
  · refine ⟨((State.reset).setFld F.IML_STATUS_STATE 4).setIml { ImlState.init with repl := some ⟨7, 7, 8, false, none, false, false⟩ }, ⟨7, 7, 8, false, none,
      false, false⟩, ?_, ?_, ?_⟩ <;> decide +kernel
  · refine ⟨(State.reset).setFld F.IML_STATUS_STATE 0, ?_⟩ <;> decide +kernel
  · refine ⟨(((State.reset).setFld F.IML_STATUS_STATE 3).setNum Reg.IML_CREWMAP 0x76543210).setIml { ImlState.init with cand := some (⟨7, 5, 9, 7, 0x80, 8, 0, true, []⟩, wContent) },
      ⟨7, 5, 9, 7, 0x80, 8, 0, true, []⟩, wContent, 8, ?_, ?_, ?_⟩ <;> decide +kernel
  · refine ⟨(((State.reset).setFld F.IML_STATUS_STATE 3).setFld F.IML_SPARE_SPARE 15).setIml { ImlState.init with cand := some (⟨7, 5, 9, 7, 0x80, 8, 0, true, []⟩, wContent) },
      ?_, ?_⟩ <;> decide +kernel
  · refine ⟨(((State.reset).setFld F.IML_STATUS_STATE 4).setNum Reg.IML_CREWMAP 0x76543210).setIml { ImlState.init with cand := some (⟨7, 5, 9, 7, 0x80, 8, 0, true, []⟩, wContent), repl := some ⟨7, 7, 8, false, none, false, false⟩, slots := [(0, ⟨false, none, some wContent⟩)] },
      ⟨7, 7, 8, false, none, false, false⟩, ⟨7, 5, 9, 7, 0x80, 8, 0, true, []⟩, wContent, wContent, ?_, ?_, ?_, ?_⟩ <;> decide +kernel
  · refine ⟨(((State.reset).setFld F.IML_STATUS_STATE 4).setNum Reg.IML_CREWMAP 0x76543210).setIml { ImlState.init with repl := some ⟨7, 7, 8, true, some 192, false, false⟩ } |>.setInflight [⟨7,
      7, 1000, 192, ⟨1, 2, 3⟩⟩], ⟨7, 7, 8, true, some 192, false, false⟩, ⟨7, 7, 1000, 192, ⟨1, 2, 3⟩⟩, ?_, ?_⟩ <;> decide +kernel
  · refine ⟨(((State.reset).setFld F.IML_STATUS_STATE 4).setNum Reg.IML_CREWMAP 0x76543210).setIml { ImlState.init with repl := some ⟨7, 7, 8, true, some 192, true, false⟩ },
      ⟨7, 7, 8, true, some 192, true, false⟩, ?_, ?_, ?_⟩ <;> decide +kernel
  · refine ⟨(((State.reset).setFld F.IML_STATUS_STATE 4).setNum Reg.IML_CREWMAP 0x76543210).setIml { ImlState.init with repl := some ⟨7, 7, 8, true, some 192, true, true⟩ },
      ⟨7, 7, 8, true, some 192, true, true⟩, ?_, ?_⟩ <;> decide +kernel
  · refine ⟨(((State.reset).setFld F.IML_STATUS_STATE 4).setNum Reg.IML_CREWMAP 0x76543210).setIml { ImlState.init with repl := some ⟨7, 7, 8, true, some 192, true, true⟩ },
      ⟨7, 7, 8, true, some 192, true, true⟩, ?_, ?_, ?_⟩ <;> decide +kernel

/-- States and operands that meet the hypotheses of InterruptSources, clause by clause. -/
theorem test_wit_InterruptSources :
    (∃ (s : State) (n : Nat) (k : Nat), n < 8 ∧ k < 4) ∧
    (∃ (s : State) (n : Nat) (k : Nat), n < 6 ∧ k < 4) ∧
    (∃ (s : State) (b : Nat), b < 7) ∧
    (∃ (s : State) (b : Nat), b < 5) := by
  refine ⟨?_, ?_, ?_, ?_⟩
  · refine ⟨State.reset, 7, 3, ?_, ?_⟩ <;> decide +kernel
  · refine ⟨State.reset, 5, 3, ?_, ?_⟩ <;> decide +kernel
  · refine ⟨State.reset, 6, ?_⟩ <;> decide +kernel
  · refine ⟨State.reset, 4, ?_⟩ <;> decide +kernel

/-- States and operands that meet the hypotheses of LoopCommands, clause by clause. -/
theorem test_wit_LoopCommands :
    (∃ (s : State) (n : Fin 9) (x : Fin 512) (w : Nat) (l : Nat), s.issuedEntry n.val x.val = some w ∧ s.ctxTarget n.val x.val = 0
    ∧ (s.entryOf n.val x.val w).done = false ∧ s.inUse (Res.crew n.val) = true ∧ s.engineFrozen n.val 1 = false ∧ s.loopOfTask n.val x.val = some l) ∧
    (∃ (s : State) (n : Fin 9) (l : Fin 128) (v : BitVec 3), s.crewDeaf n.val = false ∧ s.lcfg n.val l.val 31 1 ≠ 0 ∧ (v.toNat < 3 ∨ v.toNat = 3
    ∧ s.lcfg n.val l.val 16 1 ≠ 0)) ∧
    (∃ (s : State) (n : Fin 9) (l : Fin 128) (v : BitVec 3), s.crewDeaf n.val = false ∧ s.lcfg n.val l.val 31 1 ≠ 0 ∧ (4 ≤ v.toNat ∨ v.toNat = 3
    ∧ s.lcfg n.val l.val 16 1 = 0)) ∧
    (∃ (s : State) (n : Fin 9) (l : Fin 128), s.crewDeaf n.val = false ∧ bit (BitVec.toNat (s.lw n.val l.val 144)) 5 = true) ∧
    (∃ (s : State) (n : Fin 9) (l : Fin 128), s.crewDeaf n.val = false ∧ bit (BitVec.toNat (s.lw n.val l.val 144)) 5 = false) ∧
    (∃ (s : State) (m : Fin 8) (n : Nat), s.physOf m.val = some n) ∧
    (∃ (s : State) (m : Fin 8), s.physOf m.val = none) ∧
    (∃ (s : State) (n : Nat) (l : Nat), n < 9 ∧ l = s.fld (F.LPE_PC_LOOP_LOOP n) ∧ s.lcfg n l 31 1 = 0) ∧
    (∃ (s : State) (n : Nat) (l : Nat) (k : Nat), n < 9 ∧ l = s.fld (F.LPE_PC_LOOP_LOOP n) ∧ s.lcfg n l 31 1 ≠ 0 ∧ k < 13
    ∧ s.outOfBounds n l (s.stagedVals n) = some k) ∧
    (∃ (s : State) (n : Fin 9) (l : Fin 128), s.crewDeaf n.val = false ∧ s.lcfg n.val l.val 11 1 ≠ 0) ∧
    (∃ (s : State) (n : Fin 9) (l : Fin 128), s.crewDeaf n.val = false ∧ s.lcfg n.val l.val 11 1 = 0) ∧
    (∃ (s : State) (n : Fin 9) (l : Fin 128), repPend (s.loopCtx n.val l.val) = true) ∧
    (∃ (s : State) (n : Nat) (l : Nat) (j : Nat), j < repP (s.loopCtx n l)) := by
  refine ⟨?_, ?_, ?_, ?_, ?_, ?_, ?_, ?_, ?_, ?_, ?_, ?_, ?_⟩
  · refine ⟨((wIssued 0).setLw 8 127 0x4C 0xFFC00000), 8, 511, 1, 127, ?_, ?_, ?_, ?_, ?_, ?_⟩ <;> decide +kernel
  · refine ⟨wLoop 0x80010000, 8, 127, 3, ?_, ?_, ?_⟩ <;> decide +kernel
  · refine ⟨wLoop 0x80000000, 8, 127, 3, ?_, ?_, ?_⟩ <;> decide +kernel
  · refine ⟨wCrew.setLw 8 127 0x90 0x20, 8, 127, ?_, ?_⟩ <;> decide +kernel
  · refine ⟨wCrew, 8, 127, ?_, ?_⟩ <;> decide +kernel
  · refine ⟨wCrew, 7, 8, ?_⟩ <;> decide +kernel
  · refine ⟨State.reset, 7, ?_⟩ <;> decide +kernel
  · refine ⟨wCrew.setFld (F.LPE_PC_LOOP_LOOP 8) 127, 8, 127, ?_, ?_, ?_⟩ <;> decide +kernel
  · refine ⟨(((wLoop 0x80000000).setFld (F.LPE_PC_LOOP_LOOP 8) 127).setFld (F.LPE_PC_MASK_MASK 8) 0x1000).setNum (Reg.LPE_PC_VAL 8 12) 0x7F800000, 8, 127, 12,
      ?_, ?_, ?_, ?_, ?_⟩ <;> decide +kernel
  · refine ⟨wLoop 0x80000800, 8, 127, ?_, ?_⟩ <;> decide +kernel
  · refine ⟨wCrew, 8, 127, ?_, ?_⟩ <;> decide +kernel
  · refine ⟨wCrew.setLw 8 127 0xB4 0x40000000, 8, 127, ?_⟩ <;> decide +kernel
  · refine ⟨State.reset, 0, 0, 0, ?_⟩ <;> decide +kernel

/-- States and operands that meet the hypotheses of MailboxFormsComplete, clause by clause. -/
theorem test_wit_MailboxFormsComplete :
    (∃ (s : State) (mb : Fin 2) (x : Stamp) (a : ArmedSet), s.mbHas mb.val 1 = true ∧ vsetOf (s.mbReq mb.val) 6 = some a.vs ∧ (s.mbReq mb.val 1 ≠ 0
    ∨ s.mbReq mb.val 2 ≠ 0 ∨ s.mbReq mb.val 3 ≠ 0)
    ∧ x = { sec := s.mbReq mb.val 1 + s.mbReq mb.val 3 % 2 ^ 16 * 2 ^ 32, nsec := s.mbReq mb.val 2, sub := s.mbReq mb.val 3 / 2 ^ 16 * 256 }
    ∧ a = { id := s.mbReq mb.val 5 % 16, cseq := s.mbReq mb.val 4, t := some x, vs := a.vs, due := x.units, ripe := false } ∧ s.gateReason a = none) ∧
    (∃ (s : State) (mb : Fin 2), s.mbHas mb.val 2 = true) ∧
    (∃ (s : State) (off : Nat) (n : Nat), s.mbHas 1 3 = true ∧ s.parClosed = false ∧ s.sw17 = true ∧ off = s.mbReq 1 1 ∧ n = s.mbReq 1 2 ∧ 0 < n ∧ n ≤ 128
    ∧ off % 4 = 0 ∧ off + 4 * n ≤ parLen ∧ s.mbReq 1 0 / 2 ^ 8 % 256 = n + 2) ∧
    (∃ (s : State), s.mbHas 1 4 = true ∧ s.parClosed = false ∧ s.sw17 = true ∧ parCrc s.pvm.stage = s.mbReq 1 1 ∧ s.parBad s.pvm.stage = none) ∧
    (∃ (s : State) (r : Nat × Nat), s.flag (F.PVM_MB_STATUS_BUSY 1) = true ∧ Tab.find s.pvm.resp 1 = some r) ∧
    (∃ (s : State) (a : ArmedSet) (id : Fin 16), s.pvm.armed = [a] ∧ a.id < 16 ∧ s.oe = true ∧ s.setCome a = true ∧ a.id = id.val) := by
  refine ⟨?_, ?_, ?_, ?_, ?_, ?_⟩
  · refine ⟨((wMb 1 [1, 5, 0, 0, 64, 15, 1, 63]).setFld F.PVM_STATUS_OE 1).setPvm { State.reset.pvm with par := [(offValve 63, 0x07)] }, 1, _, ⟨15, 64, some ⟨5,
      0, 0⟩, [(63, false)], (⟨5, 0, 0⟩ : Stamp).units, false⟩, ?_, ?_, ?_, rfl, ?_, ?_⟩ <;> decide +kernel
  · refine ⟨(wMb 1 [2, 15]).setPvm { State.reset.pvm with armed := [wSet] }, 1, ?_⟩ <;> decide +kernel
  · refine ⟨((wMb 1 [0x303, 0x40, 1, 5]).setFld F.PVM_SWITCH_SW 0x10000), _, _, ?_, ?_, ?_, rfl, rfl, ?_, ?_, ?_, ?_, ?_⟩ <;> decide +kernel
  · refine ⟨(wCommit wPar).setNum (Reg.PVM_MB_REQ 1 1) (parCrc wPar), (Eq.trans (parReq_set _ _).1 (by decide +kernel)),
      (Eq.trans (parReq_set _ _).2.1 (by decide +kernel)), (Eq.trans (parReq_set _ _).2.2.1 (by decide +kernel)), parReq_crc _ wPar_bytes, wPar_ok _⟩
  · refine ⟨(wMb 1 [1]).setPvm { State.reset.pvm with resp := [(1, (3, 4))] }, (3, 4), ?_, ?_⟩ <;> decide +kernel
  · refine ⟨((State.reset).setFld F.PVM_STATUS_OE 1).setPvm { State.reset.pvm with armed := [⟨15, 64, some ⟨0, 0, 0⟩, [(63, true)], 0, false⟩] }, ⟨15, 64,
      some ⟨0, 0, 0⟩, [(63, true)], 0, false⟩, 15, ?_, ?_, ?_, ?_, ?_⟩ <;> decide +kernel

/-- States and operands that meet the hypotheses of PairSafeValue, clause by clause. -/
theorem test_wit_PairSafeValue :
    (∃ (s : State) (i : Nat), (s.sinOf (i - i % 2)).fault = 0 ∧ (s.sinOf (i - i % 2 + 1)).fault = 0 ∧ s.pairMode (i - i % 2) = 1) ∧
    (∃ (s : State) (i : Nat), (s.sinOf (i - i % 2)).fault = 0 ∧ (s.sinOf (i - i % 2 + 1)).fault = 0 ∧ s.pairMode (i - i % 2) = 2) ∧
    (∃ (s : State) (i : Fin 16) (b : Nat), b = i.val - i.val % 2 ∧ s.pairMode b ≠ 0 ∧ s.noDemand b ≠ s.noDemand (b + 1)
    ∧ (s.sinOf b).since.getD s.pvm.frame0 + 1 + parWord s.pvm.par (offSin b + 4) * cycPerMs ≤ s.time.cycle ∧ (s.sinOf b).fault = 0
    ∧ (s.sinOf (b + 1)).fault = 0) := by
  refine ⟨?_, ?_, ?_⟩
  · refine ⟨(State.reset).setPvm { State.reset.pvm with par := [(0x172, 0x1)] }, 15, ?_, ?_, ?_⟩ <;> decide +kernel
  · refine ⟨(State.reset).setPvm { State.reset.pvm with par := [(0x172, 0x2)] }, 15, ?_, ?_, ?_⟩ <;> decide +kernel
  · refine ⟨((State.reset).setPvm { State.reset.pvm with par := [(offSin 14 + 2, 0x2)], sins := [] }).setTime { State.reset.time with cycle := 1000 }, 15, _,
      rfl, ?_, ?_, ?_, ?_, ?_⟩ <;> decide +kernel

/-- States and operands that meet the hypotheses of PavilionMailboxCommands, clause by clause. -/
theorem test_wit_PavilionMailboxCommands :
    (∃ (s : State) (mb : Fin 2), s.mbHas mb.val 1 = false) ∧
    (∃ (s : State) (mb : Fin 2), s.mbHas mb.val 2 = false) ∧
    (∃ (s : State), s.mbHas 1 3 = false) ∧
    (∃ (s : State), s.mbHas 1 4 = false) ∧
    (∃ (s : State) (mb : Fin 2), s.mbHas mb.val 1 = true ∧ vsetOf (s.mbReq mb.val) 6 = none) ∧
    (∃ (s : State) (mb : Fin 2) (a : ArmedSet) (zero : Bool), s.mbHas mb.val 1 = true ∧ vsetOf (s.mbReq mb.val) 6 = some a.vs
    ∧ a.id = s.mbReq mb.val 5 % 16 ∧ a.cseq = s.mbReq mb.val 4 ∧ zero = (s.mbReq mb.val 1 == 0 && s.mbReq mb.val 2 == 0 && s.mbReq mb.val 3 == 0)
    ∧ (a.t = if zero = true then none else some { sec := s.mbReq mb.val 1 + s.mbReq mb.val 3 % 2 ^ 16 * 2 ^ 32, nsec := s.mbReq mb.val 2, sub := s.mbReq mb.val 3 / 2 ^ 16 * 256 })
    ∧ a.due = s.setDue a.t ∧ a.ripe = false ∧ zero = true ∧ mb = 0) ∧
    (∃ (s : State) (mb : Fin 2) (a : ArmedSet) (zero : Bool), s.mbHas mb.val 1 = true ∧ vsetOf (s.mbReq mb.val) 6 = some a.vs
    ∧ a.id = s.mbReq mb.val 5 % 16 ∧ a.cseq = s.mbReq mb.val 4 ∧ zero = (s.mbReq mb.val 1 == 0 && s.mbReq mb.val 2 == 0 && s.mbReq mb.val 3 == 0)
    ∧ (a.t = if zero = true then none else some { sec := s.mbReq mb.val 1 + s.mbReq mb.val 3 % 2 ^ 16 * 2 ^ 32, nsec := s.mbReq mb.val 2, sub := s.mbReq mb.val 3 / 2 ^ 16 * 256 })
    ∧ a.due = s.setDue a.t ∧ a.ripe = false ∧ (zero = false ∨ mb = 1) ∧ s.gateReason a = none) ∧
    (∃ (s : State) (mb : Fin 2) (a : ArmedSet) (zero : Bool) (r : Nat) (d : Nat), s.mbHas mb.val 1 = true ∧ vsetOf (s.mbReq mb.val) 6 = some a.vs
    ∧ a.id = s.mbReq mb.val 5 % 16 ∧ a.cseq = s.mbReq mb.val 4 ∧ zero = (s.mbReq mb.val 1 == 0 && s.mbReq mb.val 2 == 0 && s.mbReq mb.val 3 == 0)
    ∧ (a.t = if zero = true then none else some { sec := s.mbReq mb.val 1 + s.mbReq mb.val 3 % 2 ^ 16 * 2 ^ 32, nsec := s.mbReq mb.val 2, sub := s.mbReq mb.val 3 / 2 ^ 16 * 256 })
    ∧ a.due = s.setDue a.t ∧ a.ripe = false ∧ (zero = false ∨ mb = 1) ∧ s.gateReason a = some (r, d)) ∧
    (∃ (s : State), 16 ≤ s.pvm.armed.length) ∧
    (∃ (s : State), s.pvm.armed.length < 16 ∧ s.oe = false) ∧
    (∃ (s : State), s.pvm.armed.length < 16 ∧ s.oe = true ∧ s.holdsToken = false) ∧
    (∃ (s : State) (mb : Fin 2) (mine : ArmedSet → Bool), s.mbHas mb.val 2 = true ∧ (∀ (a : ArmedSet),
    mine a = (a.id == s.mbReq mb.val 1 % 16 && !s.setCome a))) ∧
    (∃ (s : State), s.parClosed = true ∧ s.mbHas 1 3 = true) ∧
    (∃ (s : State), s.parClosed = true ∧ s.mbHas 1 4 = true) ∧
    (∃ (s : State), s.parClosed = false ∧ s.sw17 = false ∧ s.mbHas 1 3 = true) ∧
    (∃ (s : State), s.parClosed = false ∧ s.sw17 = false ∧ s.mbHas 1 4 = true) ∧
    (∃ (s : State) (off : Nat) (n : Nat), s.mbHas 1 3 = true ∧ s.parClosed = false ∧ s.sw17 = true ∧ off = s.mbReq 1 1 ∧ n = s.mbReq 1 2 ∧ (n = 0
    ∨ 128 < n ∨ off % 4 ≠ 0 ∨ 300032 < off + 4 * n ∨ s.mbReq 1 0 / 2 ^ 8 % 256 ≠ n + 2)) ∧
    (∃ (s : State) (off : Nat) (n : Nat), s.mbHas 1 3 = true ∧ s.parClosed = false ∧ s.sw17 = true ∧ off = s.mbReq 1 1 ∧ n = s.mbReq 1 2 ∧ 0 < n ∧ n ≤ 128
    ∧ off % 4 = 0 ∧ off + 4 * n ≤ 300032 ∧ s.mbReq 1 0 / 2 ^ 8 % 256 = n + 2) ∧
    (∃ (s : State), s.mbHas 1 4 = true ∧ s.parClosed = false ∧ s.sw17 = true ∧ parCrc s.pvm.stage ≠ s.mbReq 1 1) ∧
    (∃ (s : State) (r : Nat) (o : Nat), s.mbHas 1 4 = true ∧ s.parClosed = false ∧ s.sw17 = true ∧ parCrc s.pvm.stage = s.mbReq 1 1
    ∧ s.parBad s.pvm.stage = some (r, o)) ∧
    (∃ (s : State), s.mbHas 1 4 = true ∧ s.parClosed = false ∧ s.sw17 = true ∧ parCrc s.pvm.stage = s.mbReq 1 1 ∧ s.parBad s.pvm.stage = none
    ∧ s.pavState ≠ 2) ∧
    (∃ (s : State), s.mbHas 1 4 = true ∧ s.parClosed = false ∧ s.sw17 = true ∧ parCrc s.pvm.stage = s.mbReq 1 1 ∧ s.parBad s.pvm.stage = none
    ∧ s.pavState = 2 ∧ s.fld F.PVM_STATUS_SAFE_CAUSE = 6) ∧
    (∃ (s : State), s.flag (F.PVM_MB_STATUS_BUSY 1) = false) ∧
    (∃ (s : State) (r : Nat) (d : Nat), s.flag (F.PVM_MB_STATUS_BUSY 1) = true ∧ Tab.find s.pvm.resp 1 = some (r, d)) ∧
    (∃ (s : State), s.flag (F.PVM_MB_STATUS_BUSY 1) = true ∧ Tab.find s.pvm.resp 1 = none ∧ 0 < s.mbReq 1 0 % 256 ∧ s.mbReq 1 0 % 256 ≤ 7) ∧
    (∃ (s : State), s.flag (F.PVM_MB_STATUS_BUSY 1) = true ∧ Tab.find s.pvm.resp 1 = none ∧ (s.mbReq 1 0 % 256 = 0 ∨ 7 < s.mbReq 1 0 % 256)) ∧
    (∃ (s : State) (id : Fin 16), (List.filter (fun a => a.id == id.val) s.pvm.armed = [] ∨ s.oe = false ∨ ∀ a ∈ s.pvm.armed, s.setCome a = false)) ∧
    (∃ (s : State) (id : Fin 16) (a : ArmedSet), List.filter (fun a => a.id == id.val) s.pvm.armed = [a] ∧ s.oe = true ∧ s.setCome a = true) ∧
    (∃ (s : State) (v : Nat), v < 1024 ∧ 64 ≤ v) := by
  refine ⟨?_, ?_, ?_, ?_, ?_, ?_, ?_, ?_, ?_, ?_, ?_, ?_, ?_, ?_, ?_, ?_, ?_, ?_, ?_, ?_, ?_, ?_, ?_, ?_, ?_, ?_, ?_, ?_, ?_⟩
  · refine ⟨State.reset, 1, ?_⟩ <;> decide +kernel
  · refine ⟨State.reset, 1, ?_⟩ <;> decide +kernel
  · refine ⟨State.reset, ?_⟩ <;> decide +kernel
  · refine ⟨State.reset, ?_⟩ <;> decide +kernel
  · refine ⟨wMb 1 [1, 0, 0, 0, 64, 15, 0], 1, ?_, ?_⟩ <;> decide +kernel
  · refine ⟨(wMb 0 [1, 0, 0, 0, 64, 15, 1, 0x803F]), 0, wSet, _, ?_, ?_, ?_, ?_, rfl, ?_, ?_, ?_, rfl, ?_⟩ <;> decide +kernel
  · refine ⟨((((wMb 1 [1, 0, 0, 0, 64, 15, 1,
      0x803F]).setFld F.PVM_STATUS_OE 1).setFld F.PVM_GRP_ON 8).setFld F.PLK_STATUS_ROLE 2).setPvm { State.reset.pvm with par := [(offValve 63, 0x07)] }, 1,
      wSet, _, ?_, ?_, ?_, ?_, rfl, ?_, ?_, ?_, ?_, ?_⟩ <;> decide +kernel
  · refine ⟨wMb 1 [1, 0, 0, 0, 64, 15, 1, 0x803F], 1, wSet, _, 8, 0, ?_, ?_, ?_, ?_, rfl, ?_, ?_, ?_, ?_, ?_⟩ <;> decide +kernel
  · refine ⟨State.reset.setPvm { State.reset.pvm with armed := List.replicate 16 wSet }, ?_⟩ <;> decide +kernel
  · refine ⟨State.reset, ?_, ?_⟩ <;> decide +kernel
  · refine ⟨(State.reset.setFld F.PVM_STATUS_OE 1).setFld F.PLK_STATUS_ROLE 1, ?_, ?_, ?_⟩ <;> decide +kernel
  · refine ⟨(wMb 1 [2, 15]).setPvm { State.reset.pvm with armed := [wSet] }, 1, fun a => a.id == ((wMb 1 [2,
      15]).setPvm { State.reset.pvm with armed := [wSet] }).mbReq (1 : Fin 2).val 1 % 16 && !((wMb 1 [2,
      15]).setPvm { State.reset.pvm with armed := [wSet] }).setCome a, ?_, (fun _ => rfl)⟩ <;> decide +kernel
  · refine ⟨((wMb 1 [3, 0, 1, 5]).setFld F.PVM_STATUS_STATE 2).setFld F.PVM_STATUS_SAFE_CAUSE 5, ?_, ?_⟩ <;> decide +kernel
  · refine ⟨((wMb 1 [4, 0]).setFld F.PVM_STATUS_STATE 2).setFld F.PVM_STATUS_SAFE_CAUSE 5, ?_, ?_⟩ <;> decide +kernel
  · refine ⟨wMb 1 [3, 0, 1, 5], ?_, ?_, ?_⟩ <;> decide +kernel
  · refine ⟨wMb 1 [4, 0], ?_, ?_, ?_⟩ <;> decide +kernel
  · refine ⟨((wMb 1 [3, 0, 0, 5]).setFld F.PVM_SWITCH_SW 0x10000), 0, 0, ?_, ?_, ?_, ?_, ?_, ?_⟩ <;> decide +kernel
  · refine ⟨((wMb 1 [0x303, 0x40, 1, 5]).setFld F.PVM_SWITCH_SW 0x10000), 0x40, 1, ?_, ?_, ?_, ?_, ?_, ?_, ?_, ?_, ?_, ?_⟩ <;> decide +kernel
  · refine ⟨(wCommit []).setNum (Reg.PVM_MB_REQ 1 1) (parCrc [] + 1), (Eq.trans (parReq_set _ _).1 (by decide +kernel)),
      (Eq.trans (parReq_set _ _).2.1 (by decide +kernel)), (Eq.trans (parReq_set _ _).2.2.1 (by decide +kernel)), parReq_other _⟩
  · refine ⟨(wCommit []).setNum (Reg.PVM_MB_REQ 1 1) (parCrc []), 1, 0, (Eq.trans (parReq_set _ _).1 (by decide +kernel)),
      (Eq.trans (parReq_set _ _).2.1 (by decide +kernel)), (Eq.trans (parReq_set _ _).2.2.1 (by decide +kernel)), parReq_crc _ rfl, par_empty _⟩
  · refine ⟨((wCommit wPar).setFld F.PVM_STATUS_STATE 1).setNum (Reg.PVM_MB_REQ 1 1) (parCrc wPar), (Eq.trans (parReq_set _ _).1 (by decide +kernel)),
      (Eq.trans (parReq_set _ _).2.1 (by decide +kernel)), (Eq.trans (parReq_set _ _).2.2.1 (by decide +kernel)), parReq_crc _ wPar_bytes, wPar_ok _,
      (fun h => absurd ((parReq_set _ _).2.2.2.1.symm.trans h) (by decide +kernel))⟩
  · refine ⟨(((wCommit wPar).setFld F.PVM_STATUS_STATE 2).setFld F.PVM_STATUS_SAFE_CAUSE 6).setNum (Reg.PVM_MB_REQ 1 1) (parCrc wPar),
      (Eq.trans (parReq_set _ _).1 (by decide +kernel)), (Eq.trans (parReq_set _ _).2.1 (by decide +kernel)),
      (Eq.trans (parReq_set _ _).2.2.1 (by decide +kernel)), parReq_crc _ wPar_bytes, wPar_ok _, (Eq.trans (parReq_set _ _).2.2.2.1 (by decide +kernel)),
      (Eq.trans (parReq_set _ _).2.2.2.2 (by decide +kernel))⟩
  · refine ⟨(State.reset).setFld (F.PVM_MB_STATUS_BUSY 1) 0, ?_⟩ <;> decide +kernel
  · refine ⟨(wMb 1 [1]).setPvm { State.reset.pvm with resp := [(1, (3, 4))] }, 3, 4, ?_, ?_⟩ <;> decide +kernel
  · refine ⟨wMb 1 [7], ?_, ?_, ?_, ?_⟩ <;> decide +kernel
  · refine ⟨wMb 1 [8], ?_, ?_, ?_⟩ <;> decide +kernel
  · refine ⟨State.reset, 15, ?_⟩ <;> decide +kernel
  · refine ⟨((State.reset).setFld F.PVM_STATUS_OE 1).setPvm { State.reset.pvm with armed := [⟨15, 64, some ⟨0, 0, 0⟩, [(63, true)], 0, false⟩] }, 15, ⟨15, 64,
      some ⟨0, 0, 0⟩, [(63, true)], 0, false⟩, ?_, ?_, ?_⟩ <;> decide +kernel
  · refine ⟨State.reset, 1023, ?_, ?_⟩ <;> decide +kernel

/-- States and operands that meet the hypotheses of PinAndInputCommands, clause by clause. -/
theorem test_wit_PinAndInputCommands :
    (∃ (s : State), s.flag F.CTU_PPS_OUT_CTRL_OUT_EN = true ∧ (s.flag F.CTU_PPS_OUT_CTRL_LOCK_ONLY = false ∨ s.timeState = 2)) ∧
    (∃ (s : State), s.flag F.CTU_PPS_IN_CTRL_IN_EN = true ∧ s.flag F.CTU_PPS_IN_CTRL_CAP_VALID = false) ∧
    (∃ (s : State), s.flag F.CTU_PPS_IN_CTRL_IN_EN = true ∧ s.flag F.CTU_PPS_IN_CTRL_CAP_VALID = true) ∧
    (∃ (s : State) (n : Fin 64), s.fld (F.DIO_FILT_FILT_US n.val) ≠ 0) ∧
    (∃ (s : State) (n : Fin 64) (d : Stamp), s.dinRaw n.val ≠ s.dinLevel n.val ∧ (s.dinOf n.val).cand = some d
    ∧ bit (s.fld (F.DIO_FILT_EDGES n.val)) (if s.dinRaw n.val = true then 0 else 1) = true ∧ (s.dinOf n.val).fifo.length < 8 ∧ (∀ u < 128,
    s.trgArmed u 4 = false) ∧ s.lasted (s.dinOf n.val).edge (s.fld (F.DIO_FILT_FILT_US n.val) * cycPerUs) = true) ∧
    (∃ (s : State) (n : Fin 64) (e : DinEntry) (l : List DinEntry), (s.dinOf n.val).fifo = e :: l) := by
  refine ⟨?_, ?_, ?_, ?_, ?_, ?_⟩
  · refine ⟨((((State.reset).setFld F.CTU_PPS_OUT_CTRL_OUT_EN 1).setFld F.CTU_PPS_OUT_CTRL_OUT_EN 1).setFld F.CTU_PPS_OUT_CTRL_LOCK_ONLY 1).setFld F.CTU_TIME_STATE_STATE 2,
      ?_, ?_⟩ <;> decide +kernel
  · refine ⟨((State.reset).setFld F.CTU_PPS_IN_CTRL_IN_EN 1).setFld F.CTU_PPS_IN_CTRL_CAP_VALID 0, ?_, ?_⟩ <;> decide +kernel
  · refine ⟨((State.reset).setFld F.CTU_PPS_IN_CTRL_IN_EN 1).setFld F.CTU_PPS_IN_CTRL_CAP_VALID 1, ?_, ?_⟩ <;> decide +kernel
  · refine ⟨((State.reset).setFld (F.DIO_FILT_FILT_US (63 : Fin 64).val) 1).setFld (F.DIO_FILT_FILT_US 63) 1, 63, ?_⟩ <;> decide +kernel
  · refine ⟨(((State.reset).setRbit (Reg.DIO_RAW 1) 31 true).setFld (F.DIO_FILT_EDGES 63) 1).setDin 63 ⟨some ⟨1, 2, 3⟩, [⟨⟨0, 0, 0⟩, true, false⟩], 0⟩, 63, ⟨1,
      2, 3⟩, ?_, ?_, ?_, ?_, ?_, ?_⟩ <;> decide +kernel
  · refine ⟨(State.reset).setDin 63 ⟨none, [⟨⟨1, 2, 3⟩, true, true⟩], 0⟩, 63, ⟨⟨1, 2, 3⟩, true, true⟩, [], ?_⟩ <;> decide +kernel

/-- States and operands that meet the hypotheses of PpsCapture, clause by clause. -/
theorem test_wit_PpsCapture :
    (∃ (s : State), s.flag F.CTU_PPS_IN_CTRL_IN_EN = true ∧ s.flag F.CTU_PPS_IN_CTRL_CAP_VALID = false) ∧
    (∃ (s : State), s.flag F.CTU_PPS_IN_CTRL_IN_EN = true ∧ s.flag F.CTU_PPS_IN_CTRL_CAP_VALID = true) ∧
    (∃ (s : State) (e : Bool), (s.flag F.CTU_PPS_IN_CTRL_IN_EN = false ∨ e ≠ (s.fld F.CTU_PPS_IN_CTRL_EDGE == 0))) := by
  refine ⟨?_, ?_, ?_⟩
  · refine ⟨((State.reset).setFld F.CTU_PPS_IN_CTRL_IN_EN 1).setFld F.CTU_PPS_IN_CTRL_CAP_VALID 0, ?_, ?_⟩ <;> decide +kernel
  · refine ⟨((State.reset).setFld F.CTU_PPS_IN_CTRL_IN_EN 1).setFld F.CTU_PPS_IN_CTRL_CAP_VALID 1, ?_, ?_⟩ <;> decide +kernel
  · refine ⟨State.reset, true, ?_⟩ <;> decide +kernel

/-- States and operands that meet the hypotheses of ReadmissionCommands, clause by clause. -/
theorem test_wit_ReadmissionCommands :
    (∃ (s : State) (n : Fin 9), s.crewDeaf n.val = false) ∧
    (∃ (s : State) (k : Fin 20), s.health (Res.conv k.val) ≠ Health.retired) ∧
    (∃ (s : State) (u : State) (k : Fin 20), s.health (Res.conv k.val) = Health.retired ∧ u = s.readmit (Res.conv k.val) ∧ 16 ≤ k.val
    ∧ (u.hasDiag k.val = false ∨ u.inUse (Res.tdac (2 * (k.val - 16))) = false)) ∧
    (∃ (s : State) (u : State) (k : Fin 20), s.health (Res.conv k.val) = Health.retired ∧ u = s.readmit (Res.conv k.val) ∧ (k.val < 16
    ∨ u.hasDiag k.val = true ∧ u.inUse (Res.tdac (2 * (k.val - 16))) = true)) ∧
    (∃ (s : State) (p : Fin 8), s.health (Res.tdac p.val) ≠ Health.retired) ∧
    (∃ (s : State) (u : State) (p : Fin 8), s.health (Res.tdac p.val) = Health.retired ∧ u = s.readmit (Res.tdac p.val) ∧ u.pairInService p.val = true) ∧
    (∃ (s : State) (u : State) (v : State) (p : Fin 8) (c : Nat), s.health (Res.tdac p.val) = Health.retired ∧ u = s.readmit (Res.tdac p.val)
    ∧ u.pairInService p.val = false ∧ u.freshNat = (c, v)) ∧
    (∃ (s : State) (n : Fin 16), s.health (Res.clo n.val) = Health.retired) ∧
    (∃ (s : State) (n : Fin 16), s.health (Res.clo n.val) ≠ Health.retired) ∧
    (∃ (s : State) (n : Fin 8), s.health (Res.can n.val) = Health.retired ∧ s.domainRetired 4 = false) ∧
    (∃ (s : State) (n : Fin 6), s.health (Res.eth n.val) = Health.retired ∧ s.domainRetired 4 = false) ∧
    (∃ (s : State), s.health (Res.lane 0) = Health.retired) ∧
    (∃ (s : State), s.health (Res.lane 1) = Health.retired) ∧
    (∃ (s : State) (l : BitVec 4), l.toNat < 12 ∧ s.health (Res.link l.toNat) = Health.retired) ∧
    (∃ (s : State) (b : Nat), s.mbHas 1 7 = true ∧ s.mbReq 1 1 = 0 ∧ s.mbReq 1 2 = b ∧ b < 8 ∧ s.health (Res.brake b) = Health.retired) ∧
    (∃ (s : State) (r : Res), r.present = true ∧ s.health r = Health.testing ∧ (∀ (n : ℕ), r ≠ Res.crew n) ∧ (∀ (d : ℕ), r ≠ Res.domain d) ∧ (∀ (k : ℕ),
    r ≠ Res.conv k) ∧ (∀ (p : ℕ), r ≠ Res.tdac p) ∧ (∀ (k : ℕ), r ≠ Res.conn k) ∧ (∀ (n : ℕ), r ≠ Res.clo n)) ∧
    (∃ (s : State) (r : Res), r.present = true ∧ s.health r = Health.testing ∧ ((∃ k, r = Res.conv k) ∨ ∃ p, r = Res.tdac p) ∧ s.anaVerdict r = none) ∧
    (∃ (s : State) (r : Res), r.present = true ∧ s.health r = Health.testing ∧ ((∃ k, r = Res.conv k) ∨ ∃ p, r = Res.tdac p) ∧ s.anaVerdict r = some true) ∧
    (∃ (s : State) (r : Res) (c : Nat) (u : State), r.present = true ∧ s.health r = Health.testing ∧ ((∃ k, r = Res.conv k) ∨ ∃ p, r = Res.tdac p)
    ∧ s.anaVerdict r = some false ∧ s.freshNat = (c, u)) ∧
    (∃ (s : State) (n : Nat), n < 16 ∧ s.health (Res.clo n) = Health.testing ∧ s.cloVerdict n = none) ∧
    (∃ (s : State) (n : Nat), n < 16 ∧ s.health (Res.clo n) = Health.testing ∧ s.cloVerdict n = some true) ∧
    (∃ (s : State) (n : Nat) (c : Nat) (u : State), n < 16 ∧ s.health (Res.clo n) = Health.testing ∧ s.cloVerdict n = some false ∧ s.freshNat = (c, u)) ∧
    (∃ (s : State) (k : Nat), k < 1024 ∧ s.health (Res.conn k) = Health.testing ∧ s.lasted (s.connOf k).test (1000 * cycPerMs) = false) ∧
    (∃ (s : State) (k : Nat) (c : Nat) (u : State), k < 1024 ∧ s.health (Res.conn k) = Health.testing
    ∧ s.lasted (s.connOf k).test (1000 * cycPerMs) = true ∧ s.freshNat = (c, u)) ∧
    (∃ (s : State) (n : Nat), n < 9 ∧ s.health (Res.crew n) = Health.testing) ∧
    (∃ (s : State) (d : Fin 32), s.health (Res.domain d.val) = Health.testing ∧ s.lasted (s.clkAt d.val) (1000 * cycPerMs) = true) := by
  refine ⟨?_, ?_, ?_, ?_, ?_, ?_, ?_, ?_, ?_, ?_, ?_, ?_, ?_, ?_, ?_, ?_, ?_, ?_, ?_, ?_, ?_, ?_, ?_, ?_, ?_, ?_⟩
  · refine ⟨wCrew, 8, ?_⟩ <;> decide +kernel
  · refine ⟨State.reset, 19, ?_⟩ <;> decide +kernel
  · refine ⟨(State.reset).setHealth (Res.conv (19 : Fin 20).val) .retired, _, 19, ?_, rfl, ?_, ?_⟩ <;> decide +kernel
  · refine ⟨((State.reset).setImg { State.reset.img with xbar := List.replicate 20 7, conv := [(19, [⟨true, 3, 10, 4, 1, 8, 2, 7, 2, 2, 0, 5, 1, false, 0, 0, 0, 0⟩])] }).setHealth (.conv 19) .retired,
      _, 19, ?_, rfl, ?_⟩ <;> decide +kernel
  · refine ⟨State.reset, 7, ?_⟩ <;> decide +kernel
  · refine ⟨State.reset.setHealth (.tdac 7) .retired, _, 7, ?_, rfl, ?_⟩ <;> decide +kernel
  · refine ⟨((State.reset).setHealth (.tdac 7) .retired).setHealth (.conv 15) .retired, _,
      (((((State.reset).setHealth (.tdac 7) .retired).setHealth (.conv 15) .retired).readmit (Res.tdac (7 : Fin 8).val)).freshNat).2, 7,
      (((((State.reset).setHealth (.tdac 7) .retired).setHealth (.conv 15) .retired).readmit (Res.tdac (7 : Fin 8).val)).freshNat).1, ?_, rfl, ?_, rfl⟩ <;> decide +kernel
  · refine ⟨(State.reset).setHealth (.clo 15) .retired, 15, ?_⟩ <;> decide +kernel
  · refine ⟨State.reset, 15, ?_⟩ <;> decide +kernel
  · refine ⟨State.reset.setHealth (.can 7) .retired, 7, ?_, ?_⟩ <;> decide +kernel
  · refine ⟨State.reset.setHealth (.eth 5) .retired, 5, ?_, ?_⟩ <;> decide +kernel
  · refine ⟨State.reset.setHealth (.lane 0) .retired, ?_⟩ <;> decide +kernel
  · refine ⟨State.reset.setHealth (.lane 1) .retired, ?_⟩ <;> decide +kernel
  · refine ⟨State.reset.setHealth (.link 11) .retired, 11, ?_, ?_⟩ <;> decide +kernel
  · refine ⟨(wMb 1 [7, 0, 7]).setHealth (.brake 7) .retired, 7, ?_, ?_, ?_, ?_, ?_⟩ <;> decide +kernel
  · refine ⟨(State.reset).setHealth (.can 7) .testing, .can 7, ?_, ?_, (by intro _ h; cases h), (by intro _ h; cases h), (by intro _ h; cases h),
      (by intro _ h; cases h), (by intro _ h; cases h), (by intro _ h; cases h)⟩ <;> decide +kernel
  · refine ⟨((State.reset).setHealth (.conv 19) .testing).setConv 19 { State.reset.convOf 19 with test := some ⟨[(2, -8)], false⟩ }, .conv 19, ?_, ?_,
      Or.inl ⟨19, rfl⟩, ?_⟩ <;> decide +kernel
  · refine ⟨((State.reset).setHealth (.conv 19) .testing).setConv 19 { State.reset.convOf 19 with test := some ⟨[], false⟩ }, .conv 19, ?_, ?_, Or.inl ⟨19, rfl⟩,
      ?_⟩ <;> decide +kernel
  · refine ⟨((State.reset).setHealth (.conv 19) .testing).setConv 19 { State.reset.convOf 19 with test := some ⟨[], true⟩ }, .conv 19,
      ((((State.reset).setHealth (.conv 19) .testing).setConv 19 { State.reset.convOf 19 with test := some ⟨[], true⟩ }).freshNat).1,
      ((((State.reset).setHealth (.conv 19) .testing).setConv 19 { State.reset.convOf 19 with test := some ⟨[], true⟩ }).freshNat).2, ?_, ?_, Or.inl ⟨19,
      rfl⟩, ?_, rfl⟩ <;> decide +kernel
  · refine ⟨(State.reset).setHealth (Res.clo 15) .testing, 15, ?_, ?_, ?_⟩ <;> decide +kernel
  · refine ⟨((State.reset).setHealth (.clo 15) .testing).setClo 15 { Clo.init with readings := [0x40800000, 0x41400000, 0x41A00000] }, 15, ?_, ?_, ?_⟩ <;> decide +kernel
  · refine ⟨((State.reset).setHealth (.clo 15) .testing).setClo 15 { Clo.init with readings := [0x40800000, 0x41400000, 0] }, 15,
      ((((State.reset).setHealth (.clo 15) .testing).setClo 15 { Clo.init with readings := [0x40800000, 0x41400000, 0] }).freshNat).1,
      ((((State.reset).setHealth (.clo 15) .testing).setClo 15 { Clo.init with readings := [0x40800000, 0x41400000, 0] }).freshNat).2, ?_, ?_, ?_, rfl⟩ <;> decide +kernel
  · refine ⟨(State.reset).setHealth (Res.conn 1023) .testing, 1023, ?_, ?_, ?_⟩ <;> decide +kernel
  · refine ⟨((State.reset).setHealth (.conn 1023) .testing).setTime { State.reset.time with cycle := 600000000 }, 1023,
      ((((State.reset).setHealth (.conn 1023) .testing).setTime { State.reset.time with cycle := 600000000 }).freshNat).1,
      ((((State.reset).setHealth (.conn 1023) .testing).setTime { State.reset.time with cycle := 600000000 }).freshNat).2, ?_, ?_, ?_, rfl⟩ <;> decide +kernel
  · refine ⟨State.reset.setHealth (.crew 8) .testing, 8, ?_, ?_⟩ <;> decide +kernel
  · refine ⟨((State.reset).setHealth (.domain 31) .testing).setTime { State.reset.time with cycle := 600000000 }, 31, ?_, ?_⟩ <;> decide +kernel

/-- States and operands that meet the hypotheses of RecordCommands, clause by clause. -/
theorem test_wit_RecordCommands :
    (∃ (s : State) (t : Token), Tab.find s.rce.cfg.sels t.sig.toNat = none) ∧
    (∃ (s : State) (link : Nat) (t : Token) (e : RecSel) (c : Checked) (u : State), Tab.find s.rce.cfg.sels t.sig.toNat = some e
    ∧ s.check link e.subst t = (c, u) ∧ c.good = true ∧ u.rowClosed e.crew (BitVec.toNat t.cseq) = true) ∧
    (∃ (s : State) (link : Nat) (t : Token) (e : RecSel), Tab.find s.rce.cfg.sels t.sig.toNat = some e ∧ t.ok = true ∧ s.linkRetired link = false
    ∧ stReserved t.st = false ∧ s.rowClosed e.crew (BitVec.toNat t.cseq) = false ∧ (∀ x ∈ (s.recCrew e.crew).rows, x.cseq = BitVec.toNat t.cseq
    → ∀ y ∈ x.toks, y.sig ≠ t.sig)) ∧
    (∃ (s : State) (m : Fin 8), (∀ x ∈ s.dueRows, x.2.1 ≠ m.val)) ∧
    (∃ (s : State) (m : Fin 8) (pre : List (Nat × Nat × OpenRow)) (d : Nat) (row : OpenRow) (post : List (Nat × Nat × OpenRow)), s.dueRows = pre ++ (d,
    m.val, row) :: post ∧ (∀ x ∈ pre, x.2.1 ≠ m.val)) ∧
    (∃ (s : State) (m : Nat) (r : OpenRow), r ∈ (s.recCrew m).rows) ∧
    (∃ (s : State), s.flag F.RCE_CTRL_RUN = true) ∧
    (∃ (s : State), s.flag F.RCE_CTRL_RUN = false ∧ s.rce.chain = none) ∧
    (∃ (s : State), s.rce.chain = none) ∧
    (∃ (s : State) (c : Chain), s.rce.chain = some c ∧ c.stop = none ∧ (∀ m < 8, (s.recCrew m).rows = [])) ∧
    (∃ (s : State) (c : Chain), s.rce.chain = some c ∧ c.due = true ∧ s.blockReady c = true) ∧
    (∃ (s : State) (c : Chain), s.rce.chain = some c ∧ c.due = false) ∧
    (∃ (s : State) (c : Chain), s.rce.chain = some c ∧ s.blockReady c = false) ∧
    (∃ (s : State) (c : Chain), s.rce.chain = some c ∧ (c.nrows = 0 ∨ s.time.cycle < c.since + 600000 * s.fld F.RCE_BLOCK_MS_BLOCK_MS)) ∧
    (∃ (s : State) (c : Chain), s.rce.chain = some c ∧ c.nrows ≠ 0 ∧ c.since + 600000 * s.fld F.RCE_BLOCK_MS_BLOCK_MS ≤ s.time.cycle
    ∧ s.blockReady c = true) ∧
    (∃ (s : State) (c : Chain), s.rce.chain = some c ∧ c.nrows ≠ 0 ∧ c.since + 600000 * s.fld F.RCE_BLOCK_MS_BLOCK_MS ≤ s.time.cycle
    ∧ s.blockReady c = false) ∧
    (∃ (s : State) (c : Chain), s.rce.closed = [] ∧ c.isSeal = true ∧ s.flag F.RCE_CTRL_RUN = false) ∧
    (∃ (s : State) (b : ClosedBlk) (rest : List ClosedBlk), s.rce.closed = b :: rest) ∧
    (∃ (s : State) (c : Chain) (b : Nat), s.rce.chain = some c ∧ s.rce.closed = [] ∧ c.await = some b) ∧
    (∃ (s : State), s.rce.exp = []) ∧
    (∃ (s : State) (b : ClosedBlk) (rest : List ClosedBlk) (h : Nat), s.flag F.RCE_CTRL_EXP_EN = true ∧ s.rce.exp = b :: rest ∧ b.hash = some h) ∧
    (∃ (s : State) (b : ClosedBlk) (rest : List ClosedBlk), s.rce.exp = b :: rest ∧ b.hash = none) ∧
    (∃ (s : State) (dg : List Byte), dg.length ≠ 64) ∧
    (∃ (s : State) (dg : List Byte) (l : List Nat), l = List.map BitVec.toNat dg ∧ dg.length = 64 ∧ fieldAt l 0 4 = 1364086081 ∧ fieldAt l 4 4 = 1
    ∧ fieldAt l 28 4 = 0 ∧ fieldAt l 48 16 = 0 ∧ fieldAt l 32 16 ≠ 0 ∧ s.rce.retx.length < 16) ∧
    (∃ (s : State) (dg : List Byte) (l : List Nat), l = List.map BitVec.toNat dg ∧ dg.length = 64 ∧ fieldAt l 0 4 = 1364086081 ∧ fieldAt l 4 4 = 1
    ∧ fieldAt l 28 4 = 0 ∧ fieldAt l 48 16 = 0 ∧ fieldAt l 32 16 ≠ 0 ∧ 16 ≤ s.rce.retx.length) ∧
    (∃ (s : State) (q : RetxReq) (rest : List RetxReq) (c : Chain), s.rce.retx = q :: rest ∧ s.rce.chain = some c ∧ c.slot = q.slot ∧ c.id = q.id
    ∧ c.blkseq = q.blkseq) ∧
    (∃ (s : State) (q : RetxReq) (rest : List RetxReq), s.rce.retx = q :: rest ∧ s.rce.chain = none ∧ 28672 ≤ q.slot) ∧
    (∃ (s : State) (q : RetxReq) (rest : List RetxReq) (hdr : List Nat), s.rce.retx = q :: rest ∧ hdr = s.rdList (ringAddr q.slot) 32 ∧ s.rce.chain = none
    ∧ q.slot < 28672 ∧ fieldAt hdr 0 4 = 1112427841 ∧ fieldAt hdr 8 8 = q.blkseq ∧ fieldAt hdr 16 8 = q.id) ∧
    (∃ (s : State), s.rce.retx = []) := by
  refine ⟨?_, ?_, ?_, ?_, ?_, ?_, ?_, ?_, ?_, ?_, ?_, ?_, ?_, ?_, ?_, ?_, ?_, ?_, ?_, ?_, ?_, ?_, ?_, ?_, ?_, ?_, ?_, ?_, ?_⟩
  · refine ⟨State.reset, mkToken 0x3F800000 2 0 64, ?_⟩ <;> decide +kernel
  · refine ⟨State.reset.setRce { State.reset.rce with cfg := { State.reset.rce.cfg with sels := [(2, ⟨7, false, true, 0, 0, 1, 0, 0⟩)] }, crews := [(7, { RecCrew.init with closed := some 64 })] },
      11, mkToken 0x3F800000 2 0 64, ⟨7, false, true, 0, 0, 1, 0, 0⟩, ⟨0x3F800000, 0, true⟩,
      State.reset.setRce { State.reset.rce with cfg := { State.reset.rce.cfg with sels := [(2, ⟨7, false, true, 0, 0, 1, 0, 0⟩)] }, crews := [(7, { RecCrew.init with closed := some 64 })] },
      ?_, ?_, ?_, ?_⟩ <;> decide +kernel
  · refine ⟨State.reset.setRce { State.reset.rce with cfg := { State.reset.rce.cfg with sels := [(2, ⟨7, false, true, 0, 0, 1, 0, 0⟩)] } }, 11,
      mkToken 0x3F800000 2 0 64, ⟨7, false, true, 0, 0, 1, 0, 0⟩, ?_, ?_, ?_, ?_, ?_, ?_⟩ <;> decide +kernel
  · refine ⟨State.reset, 7, ?_⟩ <;> decide +kernel
  · refine ⟨State.reset.setRce { State.reset.rce with crews := [(5, { RecCrew.init with rows := [⟨64, [], [], some 3⟩] }), (7, { RecCrew.init with rows := [⟨64, [], [], some 9⟩] })] },
      7, [(3, 5, ⟨64, [], [], some 3⟩)], 9, ⟨64, [], [], some 9⟩, [], ?_, ?_⟩ <;> decide +kernel
  · refine ⟨State.reset.setRce { State.reset.rce with crews := [(7, { RecCrew.init with rows := [⟨64, [], [], some 9⟩] })] }, 7, ⟨64, [], [], some 9⟩, ?_⟩ <;> decide +kernel
  · refine ⟨(State.reset).setFld F.RCE_CTRL_RUN 1, ?_⟩ <;> decide +kernel
  · refine ⟨(State.reset).setFld F.RCE_CTRL_RUN 0, ?_, ?_⟩ <;> decide +kernel
  · refine ⟨State.reset, ?_⟩ <;> decide +kernel
  · refine ⟨wRec wChain, wChain, ?_, ?_, ?_⟩ <;> decide +kernel
  · refine ⟨wRec { wChain with due := true }, { wChain with due := true }, ?_, ?_, ?_⟩ <;> decide +kernel
  · refine ⟨wRec wChain, wChain, ?_, ?_⟩ <;> decide +kernel
  · refine ⟨wRec { wChain with await := some 6 }, { wChain with await := some 6 }, ?_, ?_⟩ <;> decide +kernel
  · refine ⟨wRec { wChain with nrows := 0 }, { wChain with nrows := 0 }, ?_, ?_⟩ <;> decide +kernel
  · refine ⟨((wRec wChain).setFld F.RCE_BLOCK_MS_BLOCK_MS 2).setTime { State.reset.time with cycle := 1200000 }, wChain, ?_, ?_, ?_, ?_⟩ <;> decide +kernel
  · refine ⟨((wRec { wChain with await := some 6 }).setFld F.RCE_BLOCK_MS_BLOCK_MS 2).setTime { State.reset.time with cycle := 1200000 },
      { wChain with await := some 6 }, ?_, ?_, ?_, ?_⟩ <;> decide +kernel
  · refine ⟨wRec { wChain with isSeal := true }, { wChain with isSeal := true }, ?_, ?_, ?_⟩ <;> decide +kernel
  · refine ⟨State.reset.setRce { State.reset.rce with closed := [⟨7, 2, 5, some 9, 0⟩] }, ⟨7, 2, 5, some 9, 0⟩, [], ?_⟩ <;> decide +kernel
  · refine ⟨wRec { wChain with await := some 6 }, { wChain with await := some 6 }, 6, ?_, ?_, ?_⟩ <;> decide +kernel
  · refine ⟨State.reset, ?_⟩ <;> decide +kernel
  · refine ⟨(State.reset.setRce { State.reset.rce with exp := [⟨7, 2, 5, some 9, 0⟩] }).setFld F.RCE_CTRL_EXP_EN 1, ⟨7, 2, 5, some 9, 0⟩, [], 9, ?_, ?_, ?_⟩ <;> decide +kernel
  · refine ⟨State.reset.setRce { State.reset.rce with exp := [⟨7, 2, 5, none, 0⟩] }, ⟨7, 2, 5, none, 0⟩, [], ?_, ?_⟩ <;> decide +kernel
  · refine ⟨State.reset, [0x41], ?_⟩ <;> decide +kernel
  · refine ⟨State.reset, (leBytes 4 1364086081 ++ [1, 0, 0,
      0] ++ leBytes 8 2 ++ leBytes 8 7 ++ leBytes 4 5 ++ leBytes 4 0 ++ List.replicate 16 255 ++ List.replicate 16 0).map (BitVec.ofNat 8), _, rfl, ?_, ?_,
      ?_, ?_, ?_, ?_, ?_⟩ <;> decide +kernel
  · refine ⟨State.reset.setRce { State.reset.rce with retx := List.replicate 16 ⟨7, 2, 5, 0xFF⟩ }, (leBytes 4 1364086081 ++ [1, 0, 0,
      0] ++ leBytes 8 2 ++ leBytes 8 7 ++ leBytes 4 5 ++ leBytes 4 0 ++ List.replicate 16 255 ++ List.replicate 16 0).map (BitVec.ofNat 8), _, rfl, ?_, ?_,
      ?_, ?_, ?_, ?_, ?_⟩ <;> decide +kernel
  · refine ⟨State.reset.setRce { State.reset.rce with retx := [⟨7, 2, 5, 0xFF⟩], chain := some wChain }, ⟨7, 2, 5, 0xFF⟩, [], wChain, ?_, ?_, ?_, ?_, ?_⟩ <;> decide +kernel
  · refine ⟨State.reset.setRce { State.reset.rce with retx := [⟨7, 2, 28672, 0xFF⟩] }, ⟨7, 2, 28672, 0xFF⟩, [], ?_, ?_, ?_⟩ <;> decide +kernel
  · refine ⟨(State.reset.setRce { State.reset.rce with retx := [⟨7, 2, 5, 0xFF⟩] }).wrList (ringAddr 5) (leBytes 4 1112427841 ++ [0, 0, 0,
      0] ++ leBytes 8 2 ++ leBytes 8 7), ⟨7, 2, 5, 0xFF⟩, [], _, ?_, rfl, ?_, ?_, ?_, ?_, ?_⟩ <;> decide +kernel
  · refine ⟨State.reset, ?_⟩ <;> decide +kernel

/-- States and operands that meet the hypotheses of RedundantPairCommands, clause by clause. -/
theorem test_wit_RedundantPairCommands :
    (∃ (s : State) (v : Nat), v < 8) ∧
    (∃ (s : State), (s.role ≠ 1 ∨ s.time.cycle < s.plk.listen + (3 * s.lease + 2 * cycPerMs) ∨ s.flag F.PLK_STATUS_IMG_MISMATCH = true)) ∧
    (∃ (s : State), s.role = 1 ∧ s.plk.listen + (3 * s.lease + 2 * cycPerMs) ≤ s.time.cycle ∧ s.flag F.PLK_STATUS_IMG_MISMATCH = false
    ∧ s.fld F.PLK_STATUS_PATHS = 0 ∧ s.sw20 = true) ∧
    (∃ (s : State), s.role = 1 ∧ s.plk.listen + (3 * s.lease + 2 * cycPerMs) ≤ s.time.cycle ∧ s.flag F.PLK_STATUS_IMG_MISMATCH = false
    ∧ s.fld F.PLK_STATUS_PATHS = 0 ∧ s.sw20 = false) ∧
    (∃ (s : State), s.role = 1 ∧ s.plk.listen + (3 * s.lease + 2 * cycPerMs) ≤ s.time.cycle ∧ s.flag F.PLK_STATUS_IMG_MISMATCH = false
    ∧ s.fld F.PLK_STATUS_PATHS ≠ 0 ∧ s.fld F.PLK_STATUS_PARTNER_ROLE ≠ 1) ∧
    (∃ (s : State), s.role = 1 ∧ s.plk.listen + (3 * s.lease + 2 * cycPerMs) ≤ s.time.cycle ∧ s.flag F.PLK_STATUS_IMG_MISMATCH = false
    ∧ s.fld F.PLK_STATUS_PATHS ≠ 0 ∧ s.fld F.PLK_STATUS_PARTNER_ROLE = 1 ∧ s.sw20 = true ∧ bit s.plk.pflags 1 = false) ∧
    (∃ (s : State), s.role = 1 ∧ s.plk.listen + (3 * s.lease + 2 * cycPerMs) ≤ s.time.cycle ∧ s.flag F.PLK_STATUS_IMG_MISMATCH = false
    ∧ s.fld F.PLK_STATUS_PATHS ≠ 0 ∧ s.fld F.PLK_STATUS_PARTNER_ROLE = 1 ∧ s.sw20 = false ∧ bit s.plk.pflags 1 = true) ∧
    (∃ (s : State), s.role = 1 ∧ s.plk.listen + (3 * s.lease + 2 * cycPerMs) ≤ s.time.cycle ∧ s.flag F.PLK_STATUS_IMG_MISMATCH = false
    ∧ s.fld F.PLK_STATUS_PATHS ≠ 0 ∧ s.fld F.PLK_STATUS_PARTNER_ROLE = 1 ∧ s.sw20 = bit s.plk.pflags 1) ∧
    (∃ (s : State), (s.role = 0 ∨ ∃ t, s.plk.hbAt = some t ∧ s.time.cycle < t + s.lease / 4)) ∧
    (∃ (s : State), s.role ≠ 0 ∧ (∀ (t : ℕ), s.plk.hbAt = some t → t + s.lease / 4 ≤ s.time.cycle)) ∧
    (∃ (s : State) (b : List Byte), (s.role = 0 ∨ s.hbValid (List.map BitVec.toNat b) = false)) ∧
    (∃ (s : State) (b : List Byte) (l : List Nat), l = List.map BitVec.toNat b ∧ s.role ≠ 0 ∧ s.hbValid l = true) ∧
    (∃ (s : State), (s.role = 3 ∨ s.role = 5)) ∧
    (∃ (s : State) (l : List Nat), s.role = 1 ∧ fieldAt l 6 1 = 2 ∧ s.flag F.PLK_STATUS_IMG_MISMATCH = false) ∧
    (∃ (s : State) (l : List Nat), s.role = 2 ∧ s.plk.epoch < fieldAt l 16 8) ∧
    (∃ (s : State) (l : List Nat), s.role = 2 ∧ fieldAt l 16 8 ≤ s.plk.epoch) ∧
    (∃ (s : State) (l : List Nat), s.role = 4 ∧ bit (fieldAt l 7 1) 0 = true ∧ s.flag F.PLK_STATUS_IMG_MISMATCH = false) ∧
    (∃ (s : State) (l : List Nat), s.role = 4 ∧ (bit (fieldAt l 7 1) 0 = false ∨ s.flag F.PLK_STATUS_IMG_MISMATCH = true)) ∧
    (∃ (s : State) (p : Fin 4), (bit (s.fld F.PLK_STATUS_PATHS) p.val = false ∨ s.time.cycle < Tab.get (fun x => 0) s.plk.heard p.val + s.lease)) ∧
    (∃ (s : State) (p : Fin 4), bit (s.fld F.PLK_STATUS_PATHS) p.val = true ∧ Tab.get (fun x => 0) s.plk.heard p.val + s.lease ≤ s.time.cycle) ∧
    (∃ (s : State), s.role = 4 ∧ s.plk.lastHb + (s.lease + 2 * cycPerMs) ≤ s.time.cycle ∧ s.flag F.PLK_STATUS_IMG_MISMATCH = false) ∧
    (∃ (s : State), (s.role ≠ 4 ∨ s.time.cycle < s.plk.lastHb + (s.lease + 2 * cycPerMs) ∨ s.flag F.PLK_STATUS_IMG_MISMATCH = true)) ∧
    (∃ (s : State), (s.role ≠ 2 ∨ s.fld F.PLK_STATUS_PARTNER_ROLE ≠ 4)) ∧
    (∃ (s : State), s.role = 2 ∧ s.fld F.PLK_STATUS_PARTNER_ROLE = 4 ∧ s.plk.cut = none) ∧
    (∃ (s : State) (k : Byte), k ≠ 165) ∧
    (∃ (s : State), (s.role ≠ 1 ∧ s.role ≠ 3 ∧ s.role ≠ 5 ∨ s.flag F.PLK_STATUS_IMG_MISMATCH = true)) ∧
    (∃ (s : State), (s.role = 1 ∨ s.role = 3 ∨ s.role = 5) ∧ s.flag F.PLK_STATUS_IMG_MISMATCH = false) ∧
    (∃ (s : State), s.role = 5) ∧
    (∃ (s : State), s.role ≠ 5) ∧
    (∃ (s : State) (q : Word), (s.role ≠ 2 ∨ s.flag (F.CT_CTRL_RUNNING (s.fld F.PLK_MIRROR_MREF)) = false ∨ cseqEntry (BitVec.toNat q) ≠ 0
    ∨ strokeOf (BitVec.toNat q) ≠ strokeOf (s.num (Reg.CT_LAST_CSEQ (s.fld F.PLK_MIRROR_MREF))) ∨ s.plk.lastCut = some (strokeOf (BitVec.toNat q))
    ∨ s.fld F.PLK_MIRROR_MDIV = 0 ∨ strokeOf (BitVec.toNat q) % s.fld F.PLK_MIRROR_MDIV ≠ 0 ∨ s.plk.cut ≠ none)) ∧
    (∃ (s : State) (q : Word), s.role = 2 ∧ s.flag (F.CT_CTRL_RUNNING (s.fld F.PLK_MIRROR_MREF)) = true ∧ cseqEntry (BitVec.toNat q) = 0
    ∧ strokeOf (BitVec.toNat q) = strokeOf (s.num (Reg.CT_LAST_CSEQ (s.fld F.PLK_MIRROR_MREF))) ∧ s.plk.lastCut ≠ some (strokeOf (BitVec.toNat q))
    ∧ s.fld F.PLK_MIRROR_MDIV ≠ 0 ∧ strokeOf (BitVec.toNat q) % s.fld F.PLK_MIRROR_MDIV = 0 ∧ s.plk.cut = none) ∧
    (∃ (s : State), s.role ≠ 3 ∧ s.role ≠ 4) ∧
    (∃ (s : State) (b : List Byte), b.length < 32) ∧
    (∃ (s : State) (b : List Byte) (l : List Nat), l = List.map BitVec.toNat b ∧ (s.role = 3 ∨ s.role = 4) ∧ 32 ≤ l.length ∧ fieldAt l 0 4 = 1296977217
    ∧ fieldAt l 4 2 = 1 ∧ fieldAt l 24 4 = l.length - 32 ∧ l.length ≤ 8192 + 32 ∧ fieldAt l 28 4 = crc32c (List.take 28 l ++ List.drop 32 l)
    ∧ s.plk.mirror = none ∧ fieldAt l 6 2 = 1 ∧ s.plk.rx = none) ∧
    (∃ (s : State) (b : List Byte) (l : List Nat), l = List.map BitVec.toNat b ∧ (s.role = 3 ∨ s.role = 4) ∧ 32 ≤ l.length ∧ fieldAt l 0 4 = 1296977217
    ∧ fieldAt l 4 2 = 1 ∧ fieldAt l 24 4 = l.length - 32 ∧ l.length ≤ 8192 + 32 ∧ fieldAt l 28 4 = crc32c (List.take 28 l ++ List.drop 32 l)
    ∧ s.plk.mirror = none ∧ (fieldAt l 6 2 = 0 ∨ fieldAt l 6 2 = 2) ∧ s.plk.rx = none) ∧
    (∃ (s : State), s.role ≠ 4) ∧
    (∃ (s : State), s.role = 4) := by
  refine ⟨?_, ?_, ?_, ?_, ?_, ?_, ?_, ?_, ?_, ?_, ?_, ?_, ?_, ?_, ?_, ?_, ?_, ?_, ?_, ?_, ?_, ?_, ?_, ?_, ?_, ?_, ?_, ?_, ?_, ?_, ?_, ?_, ?_, ?_, ?_, ?_, ?_⟩
  · refine ⟨State.reset, 7, ?_⟩ <;> decide +kernel
  · refine ⟨(State.reset.setFld F.PLK_STATUS_ROLE 2), ?_⟩ <;> decide +kernel
  · refine ⟨(((State.reset).setFld F.PLK_STATUS_ROLE 1).setFld F.PVM_SWITCH_SW 0x80000).setTime { State.reset.time with cycle := 1000000000000 }, ?_, ?_, ?_, ?_,
      ?_⟩ <;> decide +kernel
  · refine ⟨((State.reset).setFld F.PLK_STATUS_ROLE 1).setTime { State.reset.time with cycle := 1000000000000 }, ?_, ?_, ?_, ?_, ?_⟩ <;> decide +kernel
  · refine ⟨((((State.reset).setFld F.PLK_STATUS_ROLE 1).setFld F.PLK_STATUS_PATHS 1).setFld F.PLK_STATUS_PARTNER_ROLE 2).setTime { State.reset.time with cycle := 1000000000000 },
      ?_, ?_, ?_, ?_, ?_⟩ <;> decide +kernel
  · refine ⟨(((((State.reset).setFld F.PLK_STATUS_ROLE 1).setFld F.PLK_STATUS_PATHS 1).setFld F.PLK_STATUS_PARTNER_ROLE 1).setFld F.PVM_SWITCH_SW 0x80000).setTime { State.reset.time with cycle := 1000000000000 },
      ?_, ?_, ?_, ?_, ?_, ?_, ?_⟩ <;> decide +kernel
  · refine ⟨(((((State.reset).setFld F.PLK_STATUS_ROLE 1).setFld F.PLK_STATUS_PATHS 1).setFld F.PLK_STATUS_PARTNER_ROLE 1).setPlk { PlkState.init with pflags := 2 }).setTime { State.reset.time with cycle := 1000000000000 },
      ?_, ?_, ?_, ?_, ?_, ?_, ?_⟩ <;> decide +kernel
  · refine ⟨((((State.reset).setFld F.PLK_STATUS_ROLE 1).setFld F.PLK_STATUS_PATHS 1).setFld F.PLK_STATUS_PARTNER_ROLE 1).setTime { State.reset.time with cycle := 1000000000000 },
      ?_, ?_, ?_, ?_, ?_, ?_⟩ <;> decide +kernel
  · refine ⟨((State.reset).setFld F.PLK_STATUS_ROLE 4).setPlk { PlkState.init with hbAt := some 0 }, ?_⟩ <;> decide +kernel
  · refine ⟨((State.reset.setFld F.PLK_STATUS_ROLE 4).setPlk { PlkState.init with lastHb := 5 }), ?_, ?_⟩ <;> decide +kernel
  · refine ⟨State.reset, [], ?_⟩ <;> decide +kernel
  · refine ⟨((State.reset.setFld F.PLK_STATUS_ROLE 4).setFld F.PVM_SWITCH_SW 0x1234).setFld F.PLK_PARTNER_ID 0x5678,
      (wHb (((State.reset.setFld F.PLK_STATUS_ROLE 4).setFld F.PVM_SWITCH_SW 0x1234).setFld F.PLK_PARTNER_ID 0x5678) 2 0 5).map (BitVec.ofNat 8), _, rfl,
      ?_, ?_⟩ <;> decide +kernel
  · refine ⟨(State.reset.setFld F.PLK_STATUS_ROLE 3), ?_⟩ <;> decide +kernel
  · refine ⟨(State.reset.setFld F.PLK_STATUS_ROLE 1), wHb State.reset 2 0 5, ?_, ?_, ?_⟩ <;> decide +kernel
  · refine ⟨(State.reset.setFld F.PLK_STATUS_ROLE 2), wHb State.reset 2 0 5, ?_, ?_⟩ <;> decide +kernel
  · refine ⟨(State.reset.setFld F.PLK_STATUS_ROLE 2), wHb State.reset 2 0 0, ?_, ?_⟩ <;> decide +kernel
  · refine ⟨(State.reset.setFld F.PLK_STATUS_ROLE 4), wHb State.reset 1 1 5, ?_, ?_, ?_⟩ <;> decide +kernel
  · refine ⟨(State.reset.setFld F.PLK_STATUS_ROLE 4), wHb State.reset 1 0 5, ?_, ?_⟩ <;> decide +kernel
  · refine ⟨State.reset, 3, ?_⟩ <;> decide +kernel
  · refine ⟨((State.reset).setFld F.PLK_STATUS_PATHS 8).setTime { State.reset.time with cycle := 1000000000000 }, 3, ?_, ?_⟩ <;> decide +kernel
  · refine ⟨((State.reset).setFld F.PLK_STATUS_ROLE 4).setTime { State.reset.time with cycle := 1000000000000 }, ?_, ?_, ?_⟩ <;> decide +kernel
  · refine ⟨State.reset, ?_⟩ <;> decide +kernel
  · refine ⟨(State.reset.setFld F.PLK_STATUS_ROLE 2), ?_⟩ <;> decide +kernel
  · refine ⟨((State.reset.setFld F.PLK_STATUS_ROLE 2).setFld F.PLK_STATUS_PARTNER_ROLE 4), ?_, ?_, ?_⟩ <;> decide +kernel
  · refine ⟨State.reset, 0, ?_⟩ <;> decide +kernel
  · refine ⟨(State.reset.setFld F.PLK_STATUS_ROLE 2), ?_⟩ <;> decide +kernel
  · refine ⟨(State.reset.setFld F.PLK_STATUS_ROLE 5), ?_, ?_⟩ <;> decide +kernel
  · refine ⟨(State.reset.setFld F.PLK_STATUS_ROLE 5), ?_⟩ <;> decide +kernel
  · refine ⟨(State.reset.setFld F.PLK_STATUS_ROLE 1), ?_⟩ <;> decide +kernel
  · refine ⟨State.reset, 0, ?_⟩ <;> decide +kernel
  · refine ⟨((((State.reset).setFld F.PLK_STATUS_ROLE 2).setFld (F.CT_CTRL_RUNNING 0) 1).setNum (Reg.CT_LAST_CSEQ 0) 192).setFld F.PLK_MIRROR_MDIV 3, 192, ?_,
      ?_, ?_, ?_, ?_, ?_, ?_, ?_⟩ <;> decide +kernel
  · refine ⟨(State.reset.setFld F.PLK_STATUS_ROLE 2), ?_, ?_⟩ <;> decide +kernel
  · refine ⟨(State.reset.setFld F.PLK_STATUS_ROLE 3), [], ?_⟩ <;> decide +kernel
  · refine ⟨(State.reset.setFld F.PLK_STATUS_ROLE 4), (wFrag 1 (List.replicate 8 0)).map (BitVec.ofNat 8), _, rfl, ?_, ?_, ?_, ?_, ?_, ?_, ?_, ?_, ?_, ?_⟩ <;> decide +kernel
  · refine ⟨(State.reset.setFld F.PLK_STATUS_ROLE 4), (wFrag 2 (List.replicate 8 0)).map (BitVec.ofNat 8), _, rfl, ?_, ?_, ?_, ?_, ?_, ?_, ?_, ?_, ?_, ?_⟩ <;> decide +kernel
  · refine ⟨(State.reset.setFld F.PLK_STATUS_ROLE 2), ?_⟩ <;> decide +kernel
  · refine ⟨(State.reset.setFld F.PLK_STATUS_ROLE 4), ?_⟩ <;> decide +kernel

/-- States and operands that meet the hypotheses of ResetCommands, clause by clause. -/
theorem test_wit_ResetCommands :
    (∃ (s : State), s.rpc.low ≠ 2) ∧
    (∃ (s : State), s.rpc.low = 2) ∧
    (∃ (s : State), s.rpc.brown = true ∧ (s.seq.cuts = [] ∧ s.seq.repCut = none ∨ s.rpc.brownAt + 15 * cycPerMs ≤ s.time.cycle)) ∧
    (∃ (s : State), s.rpc.brown = true ∧ (s.seq.cuts ≠ [] ∨ s.seq.repCut ≠ none) ∧ s.time.cycle < s.rpc.brownAt + 15 * cycPerMs) ∧
    (∃ (s : State), s.rpc.brown = false) ∧
    (∃ (s : State), s.sysWdgRuns = true ∧ s.kickAt 0 + s.fld F.RPC_WDG_STATUS_TIMEOUT_MS * cycPerMs ≤ s.time.cycle) ∧
    (∃ (s : State), s.sysWdgRuns = true ∧ s.time.cycle < s.kickAt 0 + s.fld F.RPC_WDG_STATUS_TIMEOUT_MS * cycPerMs) ∧
    (∃ (s : State), s.sysWdgRuns = false) ∧
    (∃ (s : State), s.sysWdgRuns = true ∧ s.rpc.half = false ∧ s.kickAt 0 + s.fld F.RPC_WDG_STATUS_TIMEOUT_MS * cycPerMs / 2 ≤ s.time.cycle) ∧
    (∃ (s : State), (s.rpc.half = true ∨ s.time.cycle < s.kickAt 0 + s.fld F.RPC_WDG_STATUS_TIMEOUT_MS * cycPerMs / 2)) ∧
    (∃ (s : State) (v : Word), v ≠ BitVec.ofNat 32 23205) ∧
    (∃ (s : State) (v : Viol), s.fwl.ac0Timer = true ∧ Tab.find s.fwl.viols 0 = some v ∧ v.at_ + 1000 * cycPerMs ≤ s.time.cycle) ∧
    (∃ (s : State) (v : Viol), s.fwl.ac0Timer = true ∧ Tab.find s.fwl.viols 0 = some v ∧ s.time.cycle < v.at_ + 1000 * cycPerMs) ∧
    (∃ (s : State), s.fwl.ac0Timer = false) ∧
    (∃ (s : State), s.rpc.timer = true ∧ s.rpc.startAt + s.obTmo * 1000 * cycPerMs ≤ s.time.cycle) ∧
    (∃ (s : State), (s.rpc.timer = false ∨ s.time.cycle < s.rpc.startAt + s.obTmo * 1000 * cycPerMs)) ∧
    (∃ (s : State) (src : Fin 160) (key : Byte) (go : Bool), (src ≠ 0 ∨ key ≠ BitVec.ofNat 8 165 ∨ go = false)) ∧
    (∃ (s : State), s.imlState = 0 ∧ (s.slotIml s.inactive).valid = true) ∧
    (∃ (s : State), (s.imlState ≠ 0 ∨ (s.slotIml s.inactive).valid = false)) ∧
    (∃ (s : State) (c : Nat), s.rpc.pend = some c ∧ s.rpc.low ≠ 2) ∧
    (∃ (s : State) (c : Nat), s.rpc.pend = some c ∧ s.rpc.low = 2) ∧
    (∃ (s : State), s.rpc.pend = none) ∧
    (∃ (s : State) (code : Nat), s.rpc.pend = some code ∧ s.rpc.low = 2) ∧
    (∃ (s : State) (code : Nat), s.rpc.pend = some code ∧ s.rpc.low ≠ 2) ∧
    (∃ (s : State) (code : Nat), s.rpc.holdLost = false ∧ code ≠ 0 ∧ s.rpc.pend = none) ∧
    (∃ (s : State) (code : Nat) (c : Nat), s.rpc.holdLost = false ∧ code ≠ 0 ∧ s.rpc.pend = some c) ∧
    (∃ (s : State) (code : Nat), (s.rpc.holdLost = true ∨ code = 0)) := by
  refine ⟨?_, ?_, ?_, ?_, ?_, ?_, ?_, ?_, ?_, ?_, ?_, ?_, ?_, ?_, ?_, ?_, ?_, ?_, ?_, ?_, ?_, ?_, ?_, ?_, ?_, ?_, ?_⟩
  · refine ⟨State.reset, ?_⟩ <;> decide +kernel
  · refine ⟨State.reset.setRpc { State.reset.rpc with low := 2 }, ?_⟩ <;> decide +kernel
  · refine ⟨(State.reset).setRpc { State.reset.rpc with brown := true }, ?_, ?_⟩ <;> decide +kernel
  · refine ⟨((State.reset).setRpc { State.reset.rpc with brown := true }).setSeq { SeqState.init with cuts := [⟨1, false, ⟨1, 2, 3⟩, [], [], none, none, 0, 0⟩] },
      ?_, ?_, ?_⟩ <;> decide +kernel
  · refine ⟨State.reset, ?_⟩ <;> decide +kernel
  · refine ⟨(((State.reset).setRpc { State.reset.rpc with pend := none }).setFld F.RPC_WDG_STATUS_TIMEOUT_MS 10).setTime { State.reset.time with cycle := 6000000 },
      ?_, ?_⟩ <;> decide +kernel
  · refine ⟨((State.reset).setRpc { State.reset.rpc with pend := none }).setFld F.RPC_WDG_STATUS_TIMEOUT_MS 10, ?_, ?_⟩ <;> decide +kernel
  · refine ⟨State.reset, ?_⟩ <;> decide +kernel
  · refine ⟨(((State.reset).setRpc { State.reset.rpc with pend := none }).setFld F.RPC_WDG_STATUS_TIMEOUT_MS 10).setTime { State.reset.time with cycle := 3000000 },
      ?_, ?_, ?_⟩ <;> decide +kernel
  · refine ⟨((State.reset).setRpc { State.reset.rpc with pend := none }).setFld F.RPC_WDG_STATUS_TIMEOUT_MS 10, ?_⟩ <;> decide +kernel
  · refine ⟨State.reset, 1, ?_⟩ <;> decide +kernel
  · refine ⟨((State.reset).setFwl { State.reset.fwl with ac0Timer := true, viols := [(0, ⟨1, none, 7⟩)] }).setTime { State.reset.time with cycle := 600000007 },
      ⟨1, none, 7⟩, ?_, ?_, ?_⟩ <;> decide +kernel
  · refine ⟨(State.reset).setFwl { State.reset.fwl with ac0Timer := true, viols := [(0, ⟨1, none, 7⟩)] }, ⟨1, none, 7⟩, ?_, ?_, ?_⟩ <;> decide +kernel
  · refine ⟨State.reset, ?_⟩ <;> decide +kernel
  · refine ⟨((State.reset).setRpc { State.reset.rpc with timer := true }).setTime { State.reset.time with cycle := 1000000000000 }, ?_, ?_⟩ <;> decide +kernel
  · refine ⟨State.reset, ?_⟩ <;> decide +kernel
  · refine ⟨State.reset, 1, 0, true, ?_⟩ <;> decide +kernel
  · refine ⟨(State.reset.setFld F.IML_STATUS_STATE 0).setSlotIml 1 ⟨false, some ⟨5, 0, 0, 0xFF, 0, 0, 0, false, []⟩, none⟩, ?_, ?_⟩ <;> decide +kernel
  · refine ⟨State.reset, ?_⟩ <;> decide +kernel
  · refine ⟨State.reset, 0, ?_, ?_⟩ <;> decide +kernel
  · refine ⟨(State.reset).setRpc { State.reset.rpc with low := 2 }, 0, ?_, ?_⟩ <;> decide +kernel
  · refine ⟨State.reset.setRpc { State.reset.rpc with pend := none }, ?_⟩ <;> decide +kernel
  · refine ⟨State.reset.setRpc { State.reset.rpc with pend := some 3, low := 2 }, 3, ?_, ?_⟩ <;> decide +kernel
  · refine ⟨State.reset, 0, ?_, ?_⟩ <;> decide +kernel
  · refine ⟨State.reset.setRpc { State.reset.rpc with pend := none }, 7, ?_, ?_, ?_⟩ <;> decide +kernel
  · refine ⟨State.reset, 7, 0, ?_, ?_, ?_⟩ <;> decide +kernel
  · refine ⟨State.reset, 0, ?_⟩ <;> decide +kernel

/-- States and operands that meet the hypotheses of SafeInputAndCycleCommands, clause by clause. -/
theorem test_wit_SafeInputAndCycleCommands :
    (∃ (s : State) (o : Bool), s.flag F.PVM_STATUS_COVER_OPEN = o) ∧
    (∃ (s : State), s.flag F.PVM_STATUS_COVER_OPEN = false) ∧
    (∃ (s : State), s.flag F.PVM_STATUS_COVER_OPEN = true) ∧
    (∃ (s : State), s.pvm.pulse = 0) ∧
    (∃ (s : State) (i : Fin 16), ((s.sinOf i.val).cand = (s.sinOf i.val).q ∨ (s.sinOf i.val).run < s.par (offSin i.val) 0 12)) ∧
    (∃ (s : State) (i : Fin 16), (s.sinOf i.val).cand ≠ (s.sinOf i.val).q ∧ s.par (offSin i.val) 0 12 ≤ (s.sinOf i.val).run) ∧
    (∃ (s : State) (k : Fin 4), s.tpoDue k.val = false) ∧
    (∃ (s : State) (k : Fin 4), s.tpoOver k.val = false) ∧
    (∃ (s : State) (k : Fin 4), s.tpoDue k.val = true) ∧
    (∃ (s : State) (k : Fin 4), s.tpoOver k.val = true) ∧
    (∃ (s : State) (i : Nat) (code : Nat) (c : Nat), i < 16 ∧ 0 < code ∧ (∀ c ∈ s.channels i, (s.sinOf c).fault = 0) ∧ c ∈ s.channels i) ∧
    (∃ (s : State) (i : Nat) (code : Nat) (j : Nat), i < 16 ∧ 0 < code ∧ (∀ c ∈ s.channels i, (s.sinOf c).fault = 0) ∧ j < 16) ∧
    (∃ (s : State) (i : Fin 16) (b : Nat), b = i.val - i.val % 2 ∧ (s.pairMode b = 0 ∨ s.noDemand b = s.noDemand (b + 1)
    ∨ s.time.cycle < (s.sinOf b).since.getD s.pvm.frame0 + 1 + parWord s.pvm.par (offSin b + 4) * cycPerMs)) ∧
    (∃ (s : State) (i : Fin 16) (b : Nat), b = i.val - i.val % 2 ∧ s.pairMode b ≠ 0 ∧ s.noDemand b ≠ s.noDemand (b + 1)
    ∧ (s.sinOf b).since.getD s.pvm.frame0 + 1 + parWord s.pvm.par (offSin b + 4) * cycPerMs ≤ s.time.cycle) ∧
    (∃ (s : State) (f : Fin 4), f.val ∉ s.pvm.resets) ∧
    (∃ (s : State) (f : Fin 4), f.val ∈ s.pvm.resets ∧ (s.funLatch f.val = false ∨ ∃ i < 16, bit (s.par (offFun f.val) 0 16) i = true
    ∧ s.rbit Reg.PVM_SIN i = false)) ∧
    (∃ (s : State) (f : Fin 4), f.val ∈ s.pvm.resets ∧ s.funLatch f.val = true ∧ (∀ i < 16, bit (s.par (offFun f.val) 0 16) i = true
    → s.rbit Reg.PVM_SIN i = true)) ∧
    (∃ (s : State), s.pavState ≠ 1) ∧
    (∃ (s : State), s.pavState = 1) ∧
    (∃ (s : State) (f : Nat), f < 4 ∧ (s.funOk f = false ∨ s.pvm.evald = false)) ∧
    (∃ (s : State) (g : Nat), g < 4) := by
  refine ⟨?_, ?_, ?_, ?_, ?_, ?_, ?_, ?_, ?_, ?_, ?_, ?_, ?_, ?_, ?_, ?_, ?_, ?_, ?_, ?_, ?_⟩
  · refine ⟨State.reset, false, ?_⟩ <;> decide +kernel
  · refine ⟨(State.reset).setFld F.PVM_STATUS_COVER_OPEN 0, ?_⟩ <;> decide +kernel
  · refine ⟨(State.reset).setFld F.PVM_STATUS_COVER_OPEN 1, ?_⟩ <;> decide +kernel
  · refine ⟨State.reset, ?_⟩ <;> decide +kernel
  · refine ⟨State.reset, 15, ?_⟩ <;> decide +kernel
  · refine ⟨State.reset.setSin 15 { Sin.init with cand := true, run := 25 }, 15, ?_, ?_⟩ <;> decide +kernel
  · refine ⟨State.reset, 3, ?_⟩ <;> decide +kernel
  · refine ⟨State.reset, 3, ?_⟩ <;> decide +kernel
  · refine ⟨(State.reset).setPvm { State.reset.pvm with par := [(0x44, 1), (0x46, 50), (0x48, 1), (0x4A, 50), (0x4C, 1), (0x4E, 50), (0x50, 1), (0x52, 50)] }, 3,
      ?_⟩ <;> decide +kernel
  · refine ⟨((State.reset).setPvm { State.reset.pvm with par := [(0x44, 1), (0x46, 50), (0x48, 1), (0x4A, 50), (0x4C, 1), (0x4E, 50), (0x50, 1), (0x52, 50)], pulse := 8, pulsed := [(3, 0)] }).setTime { State.reset.time with cycle := 30000 },
      3, ?_⟩ <;> decide +kernel
  · refine ⟨State.reset, 15, 3, 15, ?_, ?_, ?_, ?_⟩ <;> decide +kernel
  · refine ⟨State.reset, 15, 3, 15, ?_, ?_, ?_, ?_⟩ <;> decide +kernel
  · refine ⟨State.reset, 15, _, rfl, ?_⟩ <;> decide +kernel
  · refine ⟨((State.reset).setPvm { State.reset.pvm with par := [(0x172, 1)], sins := [(15, { Sin.init with q := true })] }).setTime { State.reset.time with cycle := 1 },
      15, _, rfl, ?_, ?_, ?_⟩ <;> decide +kernel
  · refine ⟨State.reset, 3, ?_⟩ <;> decide +kernel
  · refine ⟨(State.reset).setPvm { State.reset.pvm with resets := [3] }, 3, ?_, ?_⟩ <;> decide +kernel
  · refine ⟨(((State.reset).setFld F.PVM_FUNC_LATCH 8).setRbit Reg.PVM_SIN 1 true).setPvm { State.reset.pvm with par := [(0x1B0, 0x2)], resets := [3] }, 3, ?_,
      ?_, ?_⟩ <;> decide +kernel
  · refine ⟨State.reset, ?_⟩ <;> decide +kernel
  · refine ⟨State.reset.setFld F.PVM_STATUS_STATE 1, ?_⟩ <;> decide +kernel
  · refine ⟨State.reset, 3, ?_, ?_⟩ <;> decide +kernel
  · refine ⟨State.reset, 3, ?_⟩ <;> decide +kernel

/-- States and operands that meet the hypotheses of SequencerCommands, clause by clause. -/
theorem test_wit_SequencerCommands :
    (∃ (s : State) (r : Nat) (cmd : Nat) (code : Nat), r < 16 ∧ cmd < 8 ∧ code < 16 ∧ code ≠ 0) ∧
    (∃ (s : State) (r : Nat) (cmd : Nat) (code : Nat), r < 16 ∧ cmd < 8 ∧ code < 16 ∧ code = 0) ∧
    (∃ (s : State), s.flag F.SEQ_RES_BUSY = true) ∧
    (∃ (s : State) (r : Fin 16), s.flag F.SEQ_RES_BUSY = false ∧ s.rcpActive r.val = true) ∧
    (∃ (s : State) (r : Fin 16), s.flag F.SEQ_RES_BUSY = false ∧ s.rcpActive r.val = false) ∧
    (∃ (s : State), s.seq.loading = none) ∧
    (∃ (s : State) (r : Nat), s.seq.loading = some r) ∧
    (∃ (s : State) (src : Nat) (len : Nat), s.sourceOk src len = false) ∧
    (∃ (s : State) (src : Nat) (len : Nat), s.sourceOk src len = true ∧ (s.recipeVerify src len).1 ≠ 0) ∧
    (∃ (s : State) (src : Nat) (len : Nat), s.sourceOk src len = true ∧ (s.recipeVerify src len).1 = 0) ∧
    (∃ (s : State) (r : Fin 16), s.seqLoading r.val = false ∧ (s.rcpState r.val = 1 ∨ s.rcpState r.val = 6 ∨ s.rcpState r.val = 7 ∨ s.rcpState r.val = 9)) ∧
    (∃ (s : State) (r : Nat), r < 16) ∧
    (∃ (s : State) (r : Fin 16) (c : Recipe) (k : Nat), k = s.fld F.SEQ_ARG_STEP ∧ (s.slotOf r.val).recipe = some c ∧ s.seqLoading r.val = false
    ∧ (s.rcpState r.val = 1 ∨ s.rcpState r.val = 6 ∨ s.rcpState r.val = 7) ∧ s.holdsToken = true ∧ (∀ q < 16, q ≠ r.val → s.rcpActive q = true
    → s.rcpCrews q &&& c.crews = 0) ∧ k < c.normal) ∧
    (∃ (s : State) (r : Fin 16), ((s.slotOf r.val).recipe = none ∨ s.seqLoading r.val = true ∨ s.holdsToken = false ∨ s.rcpState r.val ≠ 1
    ∧ s.rcpState r.val ≠ 6 ∧ s.rcpState r.val ≠ 7)) ∧
    (∃ (s : State) (r : Fin 16) (c : Recipe) (q : Nat), (s.slotOf r.val).recipe = some c ∧ s.seqLoading r.val = false ∧ (s.rcpState r.val = 1
    ∨ s.rcpState r.val = 6 ∨ s.rcpState r.val = 7) ∧ s.holdsToken = true ∧ q < 16 ∧ q ≠ r.val ∧ s.rcpActive q = true ∧ s.rcpCrews q &&& c.crews ≠ 0) ∧
    (∃ (s : State) (r : Fin 16) (c : Recipe), (s.slotOf r.val).recipe = some c ∧ s.seqLoading r.val = false ∧ (s.rcpState r.val = 1 ∨ s.rcpState r.val = 6
    ∨ s.rcpState r.val = 7) ∧ s.holdsToken = true ∧ (∀ q < 16, q ≠ r.val → s.rcpActive q = true → s.rcpCrews q &&& c.crews = 0)
    ∧ c.normal ≤ s.fld F.SEQ_ARG_STEP) ∧
    (∃ (s : State) (r : Fin 16), s.seqLoading r.val = false ∧ s.rcpState r.val = 2) ∧
    (∃ (s : State) (r : Fin 16), s.seqLoading r.val = false ∧ (s.rcpState r.val = 2 ∨ s.rcpState r.val = 3)) ∧
    (∃ (s : State) (r : Fin 16), s.seqLoading r.val = false ∧ (s.rcpState r.val = 3 ∨ s.rcpState r.val = 4 ∨ s.rcpState r.val = 8) ∧ s.holdsToken = true
    ∧ (s.slotOf r.val).locked = false) ∧
    (∃ (s : State) (r : Fin 16), s.seqLoading r.val = false ∧ (s.rcpState r.val = 2 ∨ s.rcpState r.val = 3 ∨ s.rcpState r.val = 4 ∨ s.rcpState r.val = 5
    ∨ s.rcpState r.val = 8)) ∧
    (∃ (s : State) (r : Fin 16), s.rcpState r.val ≠ 2) ∧
    (∃ (s : State), s.holdsToken = false) ∧
    (∃ (s : State) (r : Fin 16), s.rcpState r.val = 0) := by
  refine ⟨?_, ?_, ?_, ?_, ?_, ?_, ?_, ?_, ?_, ?_, ?_, ?_, ?_, ?_, ?_, ?_, ?_, ?_, ?_, ?_, ?_, ?_, ?_⟩
  · refine ⟨State.reset, 15, 7, 15, ?_, ?_, ?_, ?_⟩ <;> decide +kernel
  · refine ⟨State.reset, 15, 7, 0, ?_, ?_, ?_, ?_⟩ <;> decide +kernel
  · refine ⟨(State.reset).setFld F.SEQ_RES_BUSY 1, ?_⟩ <;> decide +kernel
  · refine ⟨(State.reset).setFld (F.SEQ_R_STATE_STATE 15) 2, 15, ?_, ?_⟩ <;> decide +kernel
  · refine ⟨(State.reset).setFld F.SEQ_RES_BUSY 0, 15, ?_, ?_⟩ <;> decide +kernel
  · refine ⟨State.reset, ?_⟩ <;> decide +kernel
  · refine ⟨(State.reset).setSeq { SeqState.init with loading := some 15 }, 15, ?_⟩ <;> decide +kernel
  · refine ⟨State.reset, 0, 0, ?_⟩ <;> decide +kernel
  · refine ⟨wUnit.wrList 0x1000000000 (wRecipe.set 0 1), 0x1000000000, 256, ?_, ?_⟩ <;> decide +kernel
  · refine ⟨(wUnit.setNum Reg.IML_CREWMAP 0x76543210).wrList 0x1000000000 wRecipe, 0x1000000000, 256, ?_, ?_⟩ <;> decide +kernel
  · refine ⟨(State.reset).setFld (F.SEQ_R_STATE_STATE 15) 1, 15, ?_, ?_⟩ <;> decide +kernel
  · refine ⟨State.reset, 15, ?_⟩ <;> decide +kernel
  · refine ⟨((State.reset).setFld (F.SEQ_R_STATE_STATE 15) 7).setSlot 15 { SeqSlot.init with recipe := some wRcp }, 15, wRcp, 0, ?_, ?_, ?_, ?_, ?_, ?_, ?_⟩ <;> decide +kernel
  · refine ⟨State.reset, 15, ?_⟩ <;> decide +kernel
  · refine ⟨((((State.reset).setFld (F.SEQ_R_STATE_STATE 15) 7).setSlot 15 { SeqSlot.init with recipe := some wRcp }).setFld (F.SEQ_R_STATE_STATE 14) 2).setFld (F.SEQ_R_STATE_CREWS 14) 0x80,
      15, wRcp, 14, ?_, ?_, ?_, ?_, ?_, ?_, ?_, ?_⟩ <;> decide +kernel
  · refine ⟨(((State.reset).setFld (F.SEQ_R_STATE_STATE 15) 7).setSlot 15 { SeqSlot.init with recipe := some wRcp }).setFld F.SEQ_ARG_STEP 1, 15, wRcp, ?_, ?_,
      ?_, ?_, ?_, ?_⟩ <;> decide +kernel
  · refine ⟨(State.reset).setFld (F.SEQ_R_STATE_STATE 15) 2, 15, ?_, ?_⟩ <;> decide +kernel
  · refine ⟨(State.reset).setFld (F.SEQ_R_STATE_STATE 15) 3, 15, ?_, ?_⟩ <;> decide +kernel
  · refine ⟨(State.reset).setFld (F.SEQ_R_STATE_STATE 15) 8, 15, ?_, ?_, ?_, ?_⟩ <;> decide +kernel
  · refine ⟨(State.reset).setFld (F.SEQ_R_STATE_STATE 15) 5, 15, ?_, ?_⟩ <;> decide +kernel
  · refine ⟨State.reset, 15, ?_⟩ <;> decide +kernel
  · refine ⟨(State.reset).setFld F.PLK_STATUS_ROLE 4, ?_⟩ <;> decide +kernel
  · refine ⟨State.reset, 15, ?_⟩ <;> decide +kernel

/-- States and operands that meet the hypotheses of SeritCommands, clause by clause. -/
theorem test_wit_SeritCommands :
    (∃ (s : State) (b : List Byte), (s.pavState ≠ 1 ∨ s.rpc.folly ≠ 0 ∨ parseContainer (List.map BitVec.toNat b) = none)) ∧
    (∃ (s : State) (b : List Byte) (l : List (Pdu × Nat)), s.pavState = 1 ∧ s.rpc.folly = 0 ∧ parseContainer (List.map BitVec.toNat b) = some l) ∧
    (∃ (s : State) (pair : Nat) (k : Nat) (p : Pdu),
    List.find? (fun k => s.par (offConn k) 31 1 == 1 && s.peerId k == p.src && s.connPair k == pair) (List.range 1024) = some k
    ∧ s.health (Res.conn k) = Health.retired) ∧
    (∃ (s : State) (pair : Nat) (k : Nat) (p : Pdu),
    List.find? (fun k => s.par (offConn k) 31 1 == 1 && s.peerId k == p.src && s.connPair k == pair) (List.range 1024) = some k
    ∧ s.health (Res.conn k) ≠ Health.retired ∧ p.dst ≠ s.ownId) ∧
    (∃ (s : State) (pair : Nat) (k : Nat) (p : Pdu) (crc : Nat),
    List.find? (fun k => s.par (offConn k) 31 1 == 1 && s.peerId k == p.src && s.connPair k == pair) (List.range 1024) = some k
    ∧ s.health (Res.conn k) ≠ Health.retired ∧ p.dst = s.ownId ∧ bit p.flags 0 = false ∧ crc ≠ p.crc (s.connOf k).session) ∧
    (∃ (s : State) (pair : Nat) (k : Nat) (p : Pdu),
    List.find? (fun k => s.par (offConn k) 31 1 == 1 && s.peerId k == p.src && s.connPair k == pair) (List.range 1024) = some k
    ∧ s.health (Res.conn k) ≠ Health.retired ∧ p.dst = s.ownId ∧ bit p.flags 0 = false ∧ p.flags < 16 ∧ s.connState k = 2) ∧
    (∃ (s : State) (pair : Nat) (k : Nat) (p : Pdu),
    List.find? (fun k => s.par (offConn k) 31 1 == 1 && s.peerId k == p.src && s.connPair k == pair) (List.range 1024) = some k
    ∧ s.health (Res.conn k) ≠ Health.retired ∧ p.dst = s.ownId ∧ bit p.flags 0 = true ∧ p.flags < 16 ∧ 14 ≤ p.data.length) ∧
    (∃ (s : State) (k : Nat) (p : Pdu), s.items k 0 = [] ∧ 0 < toSigned 16 (p.seq + 2 ^ 16 - (s.connOf k).rx)
    ∧ toSigned 16 (p.seq + 2 ^ 16 - (s.connOf k).rx) ≤ (s.par (offConn k + 12) 16 4).cast) ∧
    (∃ (s : State) (k : Nat) (p : Pdu), toSigned 16 (p.seq + 2 ^ 16 - (s.connOf k).rx) ≤ 0) ∧
    (∃ (s : State) (k : Nat) (p : Pdu), (s.par (offConn k + 12) 16 4).cast < toSigned 16 (p.seq + 2 ^ 16 - (s.connOf k).rx)) ∧
    (∃ (s : State) (k : Nat), k < 1024) ∧
    (∃ (s : State) (k : Fin 1024), (s.pavState ≠ 1 ∨ s.rpc.folly ≠ 0 ∨ s.connState k.val ≠ 2 ∨ (s.connOf k.val).due < s.par (offConn k.val + 4) 0 16)) ∧
    (∃ (s : State) (k : Fin 1024), s.pavState = 1 ∧ s.rpc.folly = 0 ∧ s.connState k.val = 2 ∧ s.par (offConn k.val + 4) 0 16 ≤ (s.connOf k.val).due) ∧
    (∃ (s : State) (k : Fin 1024), (s.pavState ≠ 1 ∨ s.rpc.folly ≠ 0 ∨ s.connState k.val ≠ 1 ∧ ¬(s.connState k.val = 3
    ∧ s.health (Res.conn k.val) = Health.testing))) ∧
    (∃ (s : State) (k : Fin 1024), s.pavState = 1 ∧ s.rpc.folly = 0 ∧ (s.connState k.val = 1 ∨ s.connState k.val = 3
    ∧ s.health (Res.conn k.val) = Health.testing)) ∧
    (∃ (s : State) (k : Fin 1024), (s.connState k.val ≠ 2 ∨ s.time.cycle < (s.connOf k.val).wd + s.par (offConn k.val + 8) 0 16 * cycPerMs)) ∧
    (∃ (s : State) (k : Fin 1024), s.connState k.val = 2 ∧ (s.connOf k.val).wd + s.par (offConn k.val + 8) 0 16 * cycPerMs ≤ s.time.cycle) ∧
    (∃ (s : State) (x : Token), (∀ j < 8192, s.par (offItem j) 31 1 = 1 → s.par (offItem j) 10 1 = 1 → s.itemSig j = x.sig.toNat
    → s.par (offItem j) 11 1 = 0)) ∧
    (∃ (s : State) (link : Nat) (x : Token) (j : Nat) (c : Checked) (u : State), j < 8192 ∧ s.par (offItem j) 31 1 = 1 ∧ s.par (offItem j) 10 1 = 1
    ∧ s.itemSig j = x.sig.toNat ∧ s.par (offItem j) 11 1 = 1 ∧ (∀ i < 8192, i ≠ j → s.par (offItem i) 31 1 = 1 → s.par (offItem i) 10 1 = 1
    → s.itemSig i = x.sig.toNat → s.par (offItem i) 11 1 = 0) ∧ s.check link (s.itemSubst j) x = (c, u)) := by
  refine ⟨?_, ?_, ?_, ?_, ?_, ?_, ?_, ?_, ?_, ?_, ?_, ?_, ?_, ?_, ?_, ?_, ?_, ?_, ?_⟩
  · refine ⟨State.reset, [], ?_⟩ <;> decide +kernel
  · refine ⟨(State.reset).setFld F.PVM_STATUS_STATE 1, [1, 1, 14, 0, 0x34, 0x12, 0x78, 0x56, 1, 0, 0, 2, 7, 8, 0, 0, 0, 0],
      (parseContainer (List.map BitVec.toNat ([1, 1, 14, 0, 0x34, 0x12, 0x78, 0x56, 1, 0, 0, 2, 7, 8, 0, 0, 0, 0] : List Byte))).getD default, ?_, ?_, ?_⟩ <;> decide +kernel
  · refine ⟨(((State.reset).setFld F.PVM_SWITCH_SW 0x1234).setHealth (.conn 1023) .retired).setPvm { State.reset.pvm with par := [(0x93E0, 0x78), (0x93E1, 0x56), (0x93E3, 0x80)] },
      0, 1023, ⟨0x1234, 0x5678, 1, 0, [7, 8]⟩, ?_, ?_⟩ <;> decide +kernel
  · refine ⟨((State.reset).setFld F.PVM_SWITCH_SW 0x1234).setPvm { State.reset.pvm with par := [(0x93E0, 0x78), (0x93E1, 0x56), (0x93E3, 0x80)] }, 0, 1023,
      ⟨0x1111, 0x5678, 1, 0, [7, 8]⟩, ?_, ?_, ?_⟩ <;> decide +kernel
  · refine ⟨((State.reset).setFld F.PVM_SWITCH_SW 0x1234).setPvm { State.reset.pvm with par := [(0x93E0, 0x78), (0x93E1, 0x56), (0x93E3, 0x80)] }, 0, 1023,
      ⟨0x1234, 0x5678, 1, 0, [7, 8]⟩, 0, ?_, ?_, ?_, ?_, ?_⟩ <;> decide +kernel
  · refine ⟨(((State.reset).setFld F.PVM_SWITCH_SW 0x1234).setNum (Reg.PVM_CONN 63) 0x80000000).setPvm { State.reset.pvm with par := [(0x93E0, 0x78), (0x93E1, 0x56), (0x93E3, 0x80)] },
      0, 1023, ⟨0x1234, 0x5678, 1, 0, [7, 8]⟩, ?_, ?_, ?_, ?_, ?_, ?_⟩ <;> decide +kernel
  · refine ⟨(((State.reset).setFld F.PVM_SWITCH_SW 0x1234).setNum (Reg.PVM_CONN 63) 0x80000000).setPvm { State.reset.pvm with par := [(0x93E0, 0x78), (0x93E1, 0x56), (0x93E3, 0x80)] },
      0, 1023, ⟨0x1234, 0x5678, 1, 1, List.replicate 14 3⟩, ?_, ?_, ?_, ?_, ?_, ?_⟩ <;> decide +kernel
  · refine ⟨(State.reset).setPvm { State.reset.pvm with par := [(0x93E0, 0x78), (0x93E1, 0x56), (0x93E3, 0x80), (0x93EE, 1)] }, 1023, ⟨0x1234, 0x5678, 1, 0, [7,
      8]⟩, items_none (by decide +kernel) _ _, ?_, ?_⟩ <;> decide +kernel
  · refine ⟨State.reset, 0, ⟨0, 0, 0, 0, []⟩, ?_⟩ <;> decide +kernel
  · refine ⟨(State.reset).setPvm { State.reset.pvm with par := [(0x93E0, 0x78), (0x93E1, 0x56), (0x93E3, 0x80)] }, 1023, ⟨0x1234, 0x5678, 1, 0, [7, 8]⟩, ?_⟩ <;> decide +kernel
  · refine ⟨State.reset, 1023, ?_⟩ <;> decide +kernel
  · refine ⟨State.reset, 1023, ?_⟩ <;> decide +kernel
  · refine ⟨((((State.reset).setFld F.PVM_SWITCH_SW 0x1234).setFld F.PVM_STATUS_STATE 1).setNum (Reg.PVM_CONN 63) 0x80000000).setPvm { State.reset.pvm with par := [(0x93E0, 0x78), (0x93E1, 0x56), (0x93E3, 0x80)] },
      1023, ?_, ?_, ?_, ?_⟩ <;> decide +kernel
  · refine ⟨State.reset, 1023, ?_⟩ <;> decide +kernel
  · refine ⟨((((State.reset).setFld F.PVM_SWITCH_SW 0x1234).setFld F.PVM_STATUS_STATE 1).setNum (Reg.PVM_CONN 63) 0x40000000).setPvm { State.reset.pvm with par := [(0x93E0, 0x78), (0x93E1, 0x56), (0x93E3, 0x80)] },
      1023, ?_, ?_, ?_⟩ <;> decide +kernel
  · refine ⟨State.reset, 1023, ?_⟩ <;> decide +kernel
  · refine ⟨(((State.reset).setFld F.PVM_SWITCH_SW 0x1234).setNum (Reg.PVM_CONN 63) 0x80000000).setPvm { State.reset.pvm with par := [(0x93E0, 0x78), (0x93E1, 0x56), (0x93E3, 0x80)] },
      1023, ?_, ?_⟩ <;> decide +kernel
  · refine ⟨State.reset, mkToken 0 1 0 0, (fun j _ h => absurd (h.symm.trans (parFld_above (b := 0) (p := []) rfl _ _ _ (Nat.zero_le _))) (by decide))⟩
  · refine ⟨(State.reset).setPvm { State.reset.pvm with par := [(0x293F1, 0x0C), (0x293F3, 0x80), (0x293F4, 1)] }, 0, mkToken 0 1 0 0, 8191,
      (((State.reset).setPvm { State.reset.pvm with par := [(0x293F1, 0x0C), (0x293F3, 0x80), (0x293F4, 1)] }).check 0 (((State.reset).setPvm { State.reset.pvm with par := [(0x293F1, 0x0C), (0x293F3, 0x80), (0x293F4, 1)] }).itemSubst 8191) (mkToken 0 1 0 0)).1,
      (((State.reset).setPvm { State.reset.pvm with par := [(0x293F1, 0x0C), (0x293F3, 0x80), (0x293F4, 1)] }).check 0 (((State.reset).setPvm { State.reset.pvm with par := [(0x293F1, 0x0C), (0x293F3, 0x80), (0x293F4, 1)] }).itemSubst 8191) (mkToken 0 1 0 0)).2,
      ?_, ?_, ?_, ?_, ?_, (fun i _ hi h => absurd (h.symm.trans (parFld_below (b := 0x293F1) (by decide) _ _ _ (by unfold offItem; omega))) (by decide)),
      ?_⟩ <;> decide +kernel

/-- States and operands that meet the hypotheses of StartConfirmation, clause by clause. -/
theorem test_wit_StartConfirmation :
    (∃ (s : State) (m : Nat), m ≠ 0) ∧
    (∃ (s : State) (v : Nat), v % 2 = 1) := by
  refine ⟨?_, ?_⟩
  · refine ⟨State.reset, 1, ?_⟩ <;> decide +kernel
  · refine ⟨State.reset, 1, ?_⟩ <;> decide +kernel

/-- States and operands that meet the hypotheses of StepAndCheckpointCommands, clause by clause. -/
theorem test_wit_StepAndCheckpointCommands :
    (∃ (s : State) (r : Fin 16), s.rcpActive r.val = false) ∧
    (∃ (s : State) (r : Fin 16), (s.rcpState r.val = 3 ∨ s.rcpState r.val = 4) ∧ (s.slotOf r.val).next = none) ∧
    (∃ (s : State) (r : Fin 16), (s.rcpState r.val = 2 ∨ s.rcpState r.val = 5) ∧ (s.slotOf r.val).start = none ∧ (s.slotOf r.val).next = none) ∧
    (∃ (s : State) (r : Fin 16) (p : RStep), s.stepAt r.val (s.rcpStep r.val) = some p ∧ p.isEnd = true ∧ s.inStep r.val = true ∧ p.ckind = 1) ∧
    (∃ (s : State) (r : Fin 16) (link : Nat) (tok : Token) (p : RStep) (c : Checked) (u : State), s.stepAt r.val (s.rcpStep r.val) = some p
    ∧ p.isEnd = true ∧ s.inStep r.val = true ∧ p.ckind ≠ 1 ∧ tok.sig.toNat = p.csrc
    ∧ 0 ≤ strokeDiff (strokeOf (BitVec.toNat tok.cseq)) (s.slotOf r.val).began ∧ s.check link 0 tok = (c, u)) ∧
    (∃ (s : State) (r : Nat) (n : Nat), (s.slotOf r).met = none ∧ n ≤ (s.slotOf r).run + 1) ∧
    (∃ (s : State) (r : Nat) (n : Nat), (s.slotOf r).met = none ∧ (s.slotOf r).run + 1 < n) ∧
    (∃ (s : State) (r : Fin 16), (s.slotOf r.val).next = none) ∧
    (∃ (s : State) (r : Fin 16) (x : SeqNext), (s.slotOf r.val).next = some x ∧ x.wait = false) ∧
    (∃ (s : State) (r : Fin 16) (x : SeqNext) (y : SeqNext), (s.slotOf r.val).next = some x ∧ x.wait = true
    ∧ ((s.seqRefused r.val x 0 true).slotOf r.val).next = some y) ∧
    (∃ (s : State) (k : Nat) (x : SeqNext), x.refused = none ∧ x.restore = none ∧ x.step = some k) ∧
    (∃ (s : State) (r : Fin 16) (ws : List Nat) (x : SeqNext) (u : State), s.seq.mail = [(r.val, ws)] ∧ (Tab.find s.pvm.resp 0).isSome = true
    ∧ u = (s.mbDone 0).setSeq ({ s.seq with mail := [] }) ∧ (u.slotOf r.val).next = some x ∧ x.wait = true ∧ ws.headD 0 % 256 = 1 ∧ ws.getD 4 0 = x.cseq
    ∧ x.sets = [] ∧ x.restore = none ∧ u.num (Reg.PVM_MB_RSP 0 0) = 0) ∧
    (∃ (s : State) (r : Fin 16) (ws : List Nat) (x : SeqNext) (u : State), s.seq.mail = [(r.val, ws)] ∧ (Tab.find s.pvm.resp 0).isSome = true
    ∧ u = (s.mbDone 0).setSeq ({ s.seq with mail := [] }) ∧ (u.slotOf r.val).next = some x ∧ x.wait = true ∧ ws.headD 0 % 256 = 1 ∧ ws.getD 4 0 = x.cseq
    ∧ x.sets = [] ∧ x.restore = none ∧ u.num (Reg.PVM_MB_RSP 0 0) ≠ 0) ∧
    (∃ (s : State), Tab.find s.pvm.resp 0 = none) ∧
    (∃ (s : State) (g : Fin 4), bit (s.fld F.PVM_GRP_ON) g.val = true) ∧
    (∃ (s : State) (g : Fin 4), bit (s.fld F.PVM_GRP_ON) g.val = false) ∧
    (∃ (s : State) (q : Word) (m : Nat), m = s.fld F.SEQ_CKPT_CFG_REF ∧ (s.tabOf m).phase = TabPhase.running ∧ BitVec.toNat q = s.num (Reg.CT_LAST_CSEQ m)
    ∧ cseqEntry (BitVec.toNat q) = 0 ∧ s.ckptMultiple ≠ s.seq.multiple) ∧
    (∃ (s : State) (q : Word) (m : Nat), m = s.fld F.SEQ_CKPT_CFG_REF ∧ ((s.tabOf m).phase ≠ TabPhase.running
    ∨ BitVec.toNat q ≠ s.num (Reg.CT_LAST_CSEQ m) ∨ cseqEntry (BitVec.toNat q) ≠ 0 ∨ s.ckptMultiple = s.seq.multiple)) ∧
    (∃ (s : State) (b : Nat) (c : Cut), s.cutBuf = (b, false) ∧ c ∈ s.seq.cuts) ∧
    (∃ (s : State) (c : Cut) (a : Nat), List.find? (fun c => c.area.isSome) s.seq.cuts = some c ∧ c.area = some a) ∧
    (∃ (s : State) (c : Cut), List.find? (fun c => c.area.isSome) s.seq.cuts = some c ∧ (c.dip = false ∨ s.flag F.RPC_SUP_STATUS_DIP = true)) ∧
    (∃ (s : State) (c : Cut) (a : Nat), s.seq.repCut = some c ∧ c.area = some a) ∧
    (∃ (s : State), s.seq.repCut = none) := by
  refine ⟨?_, ?_, ?_, ?_, ?_, ?_, ?_, ?_, ?_, ?_, ?_, ?_, ?_, ?_, ?_, ?_, ?_, ?_, ?_, ?_, ?_, ?_, ?_⟩
  · refine ⟨State.reset, 15, ?_⟩ <;> decide +kernel
  · refine ⟨(State.reset).setFld (F.SEQ_R_STATE_STATE 15) 4, 15, ?_, ?_⟩ <;> decide +kernel
  · refine ⟨(State.reset).setFld (F.SEQ_R_STATE_STATE 15) 5, 15, ?_, ?_, ?_⟩ <;> decide +kernel
  · refine ⟨((State.reset).setFld (F.SEQ_R_STATE_STATE 15) 2).setSlot 15 { SeqSlot.init with recipe := some wRcp }, 15, ⟨0, true, 0, 0, false, 0, 0, 1, 0, 1, 0,
      0, [], none⟩, ?_, ?_, ?_, ?_⟩ <;> decide +kernel
  · refine ⟨((State.reset).setFld (F.SEQ_R_STATE_STATE 15) 2).setSlot 15 { SeqSlot.init with recipe := some { wRcp with steps := [⟨0, true, 0, 0, false, 0, 1, 0, 0, 1, 0, 0, [], none⟩] } },
      15, 0, mkToken 0 1 0 64, ⟨0, true, 0, 0, false, 0, 1, 0, 0, 1, 0, 0, [], none⟩,
      ((((State.reset).setFld (F.SEQ_R_STATE_STATE 15) 2).setSlot 15 { SeqSlot.init with recipe := some { wRcp with steps := [⟨0, true, 0, 0, false, 0, 1, 0, 0, 1, 0, 0, [], none⟩] } }).check 0 0 (mkToken 0 1 0 64)).1,
      ((((State.reset).setFld (F.SEQ_R_STATE_STATE 15) 2).setSlot 15 { SeqSlot.init with recipe := some { wRcp with steps := [⟨0, true, 0, 0, false, 0, 1, 0, 0, 1, 0, 0, [], none⟩] } }).check 0 0 (mkToken 0 1 0 64)).2,
      ?_, ?_, ?_, ?_, ?_, ?_, ?_⟩ <;> decide +kernel
  · refine ⟨State.reset, 0, 0, ?_, ?_⟩ <;> decide +kernel
  · refine ⟨State.reset, 15, 3, ?_, ?_⟩ <;> decide +kernel
  · refine ⟨State.reset, 15, ?_⟩ <;> decide +kernel
  · refine ⟨((State.reset).setFld (F.SEQ_R_STATE_STATE 15) 2).setSlot 15 { SeqSlot.init with recipe := some wRcp, next := some ⟨some 0, 192, false, none, [], true, false, none⟩ },
      15, ⟨some 0, 192, false, none, [], true, false, none⟩, ?_, ?_⟩ <;> decide +kernel
  · refine ⟨((State.reset).setFld (F.SEQ_R_STATE_STATE 15) 2).setSlot 15 { SeqSlot.init with recipe := some wRcp, next := some ⟨some 0, 192, false, none, [], true, true, none⟩ },
      15, ⟨some 0, 192, false, none, [], true, true, none⟩, ⟨some 0, 192, false, none, [], true, false, some (0, true)⟩, ?_, ?_, ?_⟩ <;> decide +kernel
  · refine ⟨((State.reset).setFld (F.SEQ_R_STATE_STATE 15) 2).setSlot 15 { SeqSlot.init with recipe := some wRcp }, 0, ⟨some 0, 192, false, none, [], true,
      false, none⟩, ?_, ?_, ?_⟩ <;> decide +kernel
  · refine ⟨(((State.reset).setFld (F.SEQ_R_STATE_STATE 15) 2).setSeq { SeqState.init with mail := [(15, [1, 0, 0, 0, 192])], slots := [(15, { SeqSlot.init with recipe := some wRcp, next := some ⟨some 0, 192, false, none, [], true, true, none⟩ })] }).setPvm { State.reset.pvm with resp := [(0, (0, 0))] },
      15, [1, 0, 0, 0, 192], ⟨some 0, 192, false, none, [], true, true, none⟩, _, ?_, ?_, rfl, ?_, ?_, ?_, ?_, ?_, ?_, ?_⟩ <;> decide +kernel
  · refine ⟨(((State.reset).setFld (F.SEQ_R_STATE_STATE 15) 2).setSeq { SeqState.init with mail := [(15, [1, 0, 0, 0, 192])], slots := [(15, { SeqSlot.init with recipe := some wRcp, next := some ⟨some 0, 192, false, none, [], true, true, none⟩ })] }).setPvm { State.reset.pvm with resp := [(0, (1, 6))] },
      15, [1, 0, 0, 0, 192], ⟨some 0, 192, false, none, [], true, true, none⟩, _, ?_, ?_, rfl, ?_, ?_, ?_, ?_, ?_, ?_, ?_⟩ <;> decide +kernel
  · refine ⟨State.reset, ?_⟩ <;> decide +kernel
  · refine ⟨(State.reset).setFld F.PVM_GRP_ON 8, 3, ?_⟩ <;> decide +kernel
  · refine ⟨State.reset, 3, ?_⟩ <;> decide +kernel
  · refine ⟨((((State.reset).setTab 7 { CatchTab.init with phase := .running }).setFld F.SEQ_CKPT_CFG_REF 7).setNum (Reg.CT_LAST_CSEQ 7) 192).setSeq { SeqState.init with multiple := 1 },
      192, 7, ?_, ?_, ?_, ?_, ?_⟩ <;> decide +kernel
  · refine ⟨State.reset, 0, _, rfl, ?_⟩ <;> decide +kernel
  · refine ⟨(State.reset).setSeq { SeqState.init with cuts := [⟨1, false, ⟨1, 2, 3⟩, [], [], none, none, 0, 0⟩] }, 0, ⟨1, false, ⟨1, 2, 3⟩, [], [], none, none,
      0, 0⟩, ?_, ?_⟩ <;> decide +kernel
  · refine ⟨(State.reset).setSeq { SeqState.init with cuts := [⟨1, false, ⟨1, 2, 3⟩, [], [], none, some 1, 0, 0⟩] }, ⟨1, false, ⟨1, 2, 3⟩, [], [], none, some 1,
      0, 0⟩, 1, ?_, ?_⟩ <;> decide +kernel
  · refine ⟨(State.reset).setSeq { SeqState.init with cuts := [⟨1, false, ⟨1, 2, 3⟩, [], [], none, some 1, 0, 0⟩] }, ⟨1, false, ⟨1, 2, 3⟩, [], [], none, some 1,
      0, 0⟩, ?_, ?_⟩ <;> decide +kernel
  · refine ⟨(State.reset).setSeq { SeqState.init with repCut := some ⟨1, false, ⟨1, 2, 3⟩, [], [], none, some 1, 0, 0⟩ }, ⟨1, false, ⟨1, 2, 3⟩, [], [], none,
      some 1, 0, 0⟩, 1, ?_, ?_⟩ <;> decide +kernel
  · refine ⟨State.reset, ?_⟩ <;> decide +kernel

/-- States and operands that meet the hypotheses of StepKeepsSoundness, clause by clause. -/
theorem test_wit_StepKeepsSoundness :
    (∃ (s : State) (t : State), s.Sound ∧ step s = Host.Outcome.next t) := by
  refine ⟨State.reset, State.reset, ⟨by decide +kernel, by decide +kernel, by decide +kernel⟩, rfl⟩

/-- States and operands that meet the hypotheses of SupplyAndRecoveryCommands, clause by clause. -/
theorem test_wit_SupplyAndRecoveryCommands :
    (∃ (s : State) (mv : BitVec 16), s.flag F.RPC_SUP_STATUS_DIP = false ∧ mv.toNat < 19000) ∧
    (∃ (s : State) (mv : BitVec 16), (s.flag F.RPC_SUP_STATUS_DIP = true ∨ 19000 ≤ mv.toNat)) ∧
    (∃ (s : State) (mv : BitVec 16), s.flag F.RPC_SUP_STATUS_DIP = true ∧ s.rpc.brown = false ∧ 19500 ≤ mv.toNat ∧ s.rpc.dipAt + cycPerMs ≤ s.time.cycle
    ∧ s.seq.dip = none) ∧
    (∃ (s : State) (mv : BitVec 16), (s.flag F.RPC_SUP_STATUS_DIP = false ∨ s.rpc.brown = true ∨ mv.toNat < 19500
    ∨ s.time.cycle < s.rpc.dipAt + cycPerMs)) ∧
    (∃ (s : State), s.rpc.brown = false ∧ s.rpc.pend = none) ∧
    (∃ (s : State), (s.rpc.brown = true ∨ s.rpc.pend.isSome = true)) ∧
    (∃ (s : State) (low : Bool) (mv : BitVec 16), s.flag F.RPC_SUP_STATUS_VFLD_LOW ≠ low ∧ (low = true → mv.toNat < fieldAt s.rpc.ob 12 2) ∧ (low = false
    → fieldAt s.rpc.ob 12 2 + 500 ≤ mv.toNat)) ∧
    (∃ (s : State) (low : Bool) (mv : BitVec 16), (s.flag F.RPC_SUP_STATUS_VFLD_LOW = low ∨ low = true ∧ fieldAt s.rpc.ob 12 2 ≤ mv.toNat ∨ low = false
    ∧ mv.toNat < fieldAt s.rpc.ob 12 2 + 500)) ∧
    (∃ (s : State) (low : Bool) (mv : BitVec 16), (s.flag F.RPC_SUP_STATUS_VFLD_LOST = low ∨ low = true ∧ 10000 ≤ mv.toNat ∨ low = false
    ∧ mv.toNat < 12000)) ∧
    (∃ (s : State) (lost : Bool) (mv : BitVec 16), s.flag F.RPC_SUP_STATUS_VFLD_LOST ≠ lost ∧ (lost = true → mv.toNat < 10000) ∧ (lost = false
    → 12000 ≤ mv.toNat)) ∧
    (∃ (s : State), s.rpc.low = 0 ∧ s.rpc.pend = none ∧ s.lowPowerBar = 0) ∧
    (∃ (s : State), s.rpc.low = 0 ∧ s.rpc.pend = none ∧ s.lowPowerBar ≠ 0) ∧
    (∃ (s : State), s.rpc.low = 1 ∧ (∃ i < 448, s.irqEnabled 0 i = true ∧ s.irqLevel i = true)) ∧
    (∃ (s : State), (s.rpc.low ≠ 1 ∨ ∀ i < 448, s.irqEnabled 0 i = false ∨ s.irqLevel i = false)) ∧
    (∃ (s : State), (s.rpc.low ≠ 0 ∨ s.rpc.pend.isSome = true)) ∧
    (∃ (s : State), (s.rpc.low ≠ 2 ∨ s.rpc.wake = 0)) ∧
    (∃ (s : State), s.rpc.low = 2 ∧ s.rpc.wake ≠ 0 ∧ s.rpc.wake < 2 ^ 32) ∧
    (∃ (s : State), s.rpc.folly = 0) ∧
    (∃ (s : State) (frame : List Byte) (seq : Nat) (p : List Nat), s.rpc.folly ≠ 0 ∧ s.rpc.pend = none
    ∧ recoveryIn 1 (List.map BitVec.toNat frame) = some (seq, p)) ∧
    (∃ (s : State) (frame : List Byte) (seq : Nat) (p : List Nat), s.rpc.folly ≠ 0 ∧ s.rpc.pend = none
    ∧ recoveryIn 4 (List.map BitVec.toNat frame) = some (seq, p)) ∧
    (∃ (s : State) (frame : List Byte) (seq : Nat) (p : List Nat), s.rpc.folly ≠ 0 ∧ s.rpc.pend = none
    ∧ recoveryIn 5 (List.map BitVec.toNat frame) = some (seq, p)) ∧
    (∃ (s : State) (frame : List Byte) (seq : Nat) (p : List Nat), s.rpc.folly ≠ 0 ∧ s.rpc.pend = none
    ∧ recoveryIn 3 (List.map BitVec.toNat frame) = some (seq, p) ∧ s.sw18 = false) ∧
    (∃ (s : State) (frame : List Byte) (seq : Nat) (p : List Nat), s.rpc.folly ≠ 0 ∧ s.rpc.pend = none
    ∧ recoveryIn 3 (List.map BitVec.toNat frame) = some (seq, p) ∧ s.sw18 = true ∧ p.length = 28 ∧ s.flag F.RPC_OB_STATUS_BUSY = false) ∧
    (∃ (s : State) (frame : List Byte) (seq : Nat) (p : List Nat), s.rpc.folly ≠ 0 ∧ s.rpc.pend = none
    ∧ recoveryIn 3 (List.map BitVec.toNat frame) = some (seq, p) ∧ s.sw18 = true ∧ p.length ≠ 28) ∧
    (∃ (s : State) (frame : List Byte) (seq : Nat) (p : List Nat), s.rpc.folly ≠ 0 ∧ s.rpc.pend = none
    ∧ recoveryIn 3 (List.map BitVec.toNat frame) = some (seq, p) ∧ s.sw18 = true ∧ p.length = 28 ∧ s.flag F.RPC_OB_STATUS_BUSY = true) ∧
    (∃ (s : State) (frame : List Byte) (seq : Nat) (l : List Nat), s.rpc.folly ≠ 0 ∧ s.rpc.pend = none
    ∧ recoveryIn 2 (List.map BitVec.toNat frame) = some (seq, l) ∧ fieldAt l 0 4 = 1464749377 ∧ s.fwCheck l ≠ 0) ∧
    (∃ (s : State) (frame : List Byte) (seq : Nat) (l : List Nat) (code : Nat) (t : State), s.rpc.folly ≠ 0 ∧ s.rpc.pend = none
    ∧ recoveryIn 2 (List.map BitVec.toNat frame) = some (seq, l) ∧ fieldAt l 0 4 = 1464749377 ∧ s.fwCheck l = 0 ∧ s.fwStore l = (code, t)) ∧
    (∃ (s : State) (frame : List Byte) (c : ImgContent) (seq : Nat) (code : Nat) (l : List Nat) (t : State), s.rpc.folly ≠ 0 ∧ s.rpc.pend = none
    ∧ recoveryIn 2 (List.map BitVec.toNat frame) = some (seq, l) ∧ fieldAt l 0 4 = 1229868353 ∧ (imgHdrOf l).isPart = false ∧ s.recoveryImage l c = (code,
    t)) ∧
    (∃ (s : State) (frame : List Byte) (seq : Nat) (l : List Nat), s.rpc.folly ≠ 0 ∧ s.rpc.pend = none
    ∧ recoveryIn 2 (List.map BitVec.toNat frame) = some (seq, l) ∧ fieldAt l 0 4 ≠ 1464749377 ∧ (fieldAt l 0 4 ≠ 1229868353 ∨ (imgHdrOf l).isPart = true)) := by
  refine ⟨?_, ?_, ?_, ?_, ?_, ?_, ?_, ?_, ?_, ?_, ?_, ?_, ?_, ?_, ?_, ?_, ?_, ?_, ?_, ?_, ?_, ?_, ?_, ?_, ?_, ?_, ?_, ?_, ?_⟩
  · refine ⟨(State.reset).setFld F.RPC_SUP_STATUS_DIP 0, 0, ?_, ?_⟩ <;> decide +kernel
  · refine ⟨(State.reset).setFld F.RPC_SUP_STATUS_DIP 1, 0, ?_⟩ <;> decide +kernel
  · refine ⟨((State.reset).setFld F.RPC_SUP_STATUS_DIP 1).setTime { State.reset.time with cycle := 600000 }, 19500, ?_, ?_, ?_, ?_, ?_⟩ <;> decide +kernel
  · refine ⟨State.reset, 0, ?_⟩ <;> decide +kernel
  · refine ⟨(State.reset).setRpc { State.reset.rpc with pend := none }, ?_, ?_⟩ <;> decide +kernel
  · refine ⟨State.reset, ?_⟩ <;> decide +kernel
  · refine ⟨(State.reset).setFld F.RPC_SUP_STATUS_VFLD_LOW 1, false, 500, ?_, ?_, ?_⟩ <;> decide +kernel
  · refine ⟨State.reset, true, 0, ?_⟩ <;> decide +kernel
  · refine ⟨(State.reset).setFld F.RPC_SUP_STATUS_VFLD_LOST 1, true, 0, ?_⟩ <;> decide +kernel
  · refine ⟨State.reset, true → (0 : BitVec 16).toNat < 10000, 0, ?_, ?_, ?_⟩ <;> decide +kernel
  · refine ⟨(State.reset).setRpc { State.reset.rpc with pend := none }, ?_, ?_, ?_⟩ <;> decide +kernel
  · refine ⟨((State.reset).setRpc { State.reset.rpc with pend := none }).setFld F.CYC_STATUS_STATE 3, ?_, ?_, ?_⟩ <;> decide +kernel
  · refine ⟨((((State.reset).setFld F.VLT_RES_DONE 1).setNum Reg.VLT_IRQ_EN 1).setRbit (plicBase + 0x2000) 16 true).setRpc { State.reset.rpc with low := 1 }, ?_,
      ?_⟩ <;> decide +kernel
  · refine ⟨(State.reset).setRpc { State.reset.rpc with low := 0 }, ?_⟩ <;> decide +kernel
  · refine ⟨State.reset, ?_⟩ <;> decide +kernel
  · refine ⟨State.reset, ?_⟩ <;> decide +kernel
  · refine ⟨(State.reset).setRpc { State.reset.rpc with low := 2, wake := 7 }, ?_, ?_, ?_⟩ <;> decide +kernel
  · refine ⟨State.reset, ?_⟩ <;> decide +kernel
  · refine ⟨wFolly State.reset, wFrame 1 7 ([]), 7, [], ?_, ?_, ?_⟩ <;> decide +kernel
  · refine ⟨wFolly State.reset, wFrame 4 7 ([]), 7, [], ?_, ?_, ?_⟩ <;> decide +kernel
  · refine ⟨wFolly State.reset, wFrame 5 7 ([]), 7, [], ?_, ?_, ?_⟩ <;> decide +kernel
  · refine ⟨wFolly State.reset, wFrame 3 7 (List.replicate 28 1), 7, List.replicate 28 1, ?_, ?_, ?_, ?_⟩ <;> decide +kernel
  · refine ⟨(wFolly State.reset).setFld F.PVM_SWITCH_SW 0x20000, wFrame 3 7 (List.replicate 28 1), 7, List.replicate 28 1, ?_, ?_, ?_, ?_, ?_, ?_⟩ <;> decide +kernel
  · refine ⟨(wFolly State.reset).setFld F.PVM_SWITCH_SW 0x20000, wFrame 3 7 ([1]), 7, [1], ?_, ?_, ?_, ?_, ?_⟩ <;> decide +kernel
  · refine ⟨((wFolly State.reset).setFld F.PVM_SWITCH_SW 0x20000).setFld F.RPC_OB_STATUS_BUSY 1, wFrame 3 7 (List.replicate 28 1), 7, List.replicate 28 1, ?_,
      ?_, ?_, ?_, ?_, ?_⟩ <;> decide +kernel
  · refine ⟨wFolly State.reset, wFrame 2 7 (wFirmware.take 200), 7, wFirmware.take 200, ?_, ?_, ?_, ?_, ?_⟩ <;> decide +kernel
  · refine ⟨wFolly wUnit, wFrame 2 7 (wFirmware), 7, wFirmware, ((wFolly wUnit).fwStore wFirmware).1, ((wFolly wUnit).fwStore wFirmware).2, ?_, ?_, ?_, ?_, ?_,
      ?_⟩ <;> decide +kernel
  · refine ⟨wFolly wUnit, wFrame 2 7 (wProgram.take 200), wContent, 7, ((wFolly wUnit).recoveryImage (wProgram.take 200) wContent).1, wProgram.take 200,
      ((wFolly wUnit).recoveryImage (wProgram.take 200) wContent).2, ?_, ?_, ?_, ?_, ?_, ?_⟩ <;> decide +kernel
  · refine ⟨wFolly wUnit, wFrame 2 7 ([1, 2, 3, 4]), 7, [1, 2, 3, 4], ?_, ?_, ?_, ?_, ?_⟩ <;> decide +kernel

/-- States and operands that meet the hypotheses of TickCatchAndRequestCommands, clause by clause. -/
theorem test_wit_TickCatchAndRequestCommands_1 :
    (∃ (s : State), s.owed = [] ∧ s.rra.wait = [] ∧ (∀ (n : ℕ), s.logicalOf n = none) ∧ s.vdrs = []) ∧
    (∃ (s : State), s.owed ≠ []) ∧
    (∃ (s : State) (m : Fin 8), s.nextCatch m.val = none) ∧
    (∃ (s : State) (m : Fin 8) (c : Catch), s.nextCatch m.val = some c ∧ s.replDue m.val c.cseq = false ∧ s.migDue m.val c.cseq = false) := by
  refine ⟨?_, ?_, ?_, ?_⟩
  · refine ⟨State.reset, ?_, ?_, (fun n => by unfold State.logicalOf; rw [List.find?_eq_none]; intro m hm; rw [(by decide +kernel : ∀ m < 8,
      State.reset.physOf m = none) m (List.mem_range.1 hm)]; simp), ?_⟩ <;> decide +kernel
  · refine ⟨(State.reset).setOwed [⟨0, .read, 0x0080000000, 4, 0, 0⟩], ?_⟩ <;> decide +kernel
  · refine ⟨State.reset, 7, ?_⟩ <;> decide +kernel
  · refine ⟨(State.reset).setInflight [⟨7, 7, 0, 64, ⟨0, 0, 0⟩⟩], 7, ⟨7, 7, 0, 64, ⟨0, 0, 0⟩⟩, ?_, ?_, ?_⟩ <;> decide +kernel

/-- States and operands that meet the hypotheses of TickCatchAndRequestCommands, clause by clause. -/
theorem test_wit_TickCatchAndRequestCommands_2 :
    (∃ (s : State) (u : State) (m : Fin 8) (c : Catch) (d : Catch), s.nextCatch m.val = some c ∧ s.replDue m.val c.cseq = false
    ∧ s.migDue m.val c.cseq = true ∧ u = s.migrate ∧ u.nextCatch m.val = some d) ∧
    (∃ (s : State) (dg : List Byte), s.rraAuthentic (List.map BitVec.toNat dg) = false) ∧
    (∃ (s : State) (dg : List Byte) (l : List Nat), l = List.map BitVec.toNat dg ∧ s.rraAuthentic l = true ∧ (s.rraHeld l = true ∨ s.rra.wait ≠ [])) ∧
    (∃ (s : State) (dg : List Byte) (l : List Nat), l = List.map BitVec.toNat dg ∧ s.rraAuthentic l = true ∧ s.rraHeld l = false ∧ s.rra.wait = []
    ∧ fieldAt l 8 8 < Tab.get (fun x => 0) s.rra.last (fieldAt l 7 1)) := by
  refine ⟨?_, ?_, ?_, ?_⟩
  · refine ⟨((State.reset).setInflight [⟨7, 7, 0, 64, ⟨0, 0, 0⟩⟩]).setMig (some ⟨7, 7, 8, true, 0, 0, [], []⟩), _, 7, ⟨7, 7, 0, 64, ⟨0, 0, 0⟩⟩, ⟨7, 8, 0, 64, ⟨0,
      0, 0⟩⟩, ?_, ?_, ?_, rfl, ?_⟩ <;> decide +kernel
  · refine ⟨State.reset, [], ?_⟩ <;> decide +kernel
  · refine ⟨(wHost State.reset).setRra { State.reset.rra with wait := [([], [])] }, wDatagram 1, _, rfl, ?_, ?_⟩ <;> decide +kernel
  · refine ⟨(wHost State.reset).setRra { State.reset.rra with last := [(3, 2)] }, wDatagram 1, _, rfl, ?_, ?_, ?_, ?_⟩ <;> decide +kernel

/-- States and operands that meet the hypotheses of TickCatchAndRequestCommands, clause by clause. -/
theorem test_wit_TickCatchAndRequestCommands_3 :
    (∃ (s : State) (dg : List Byte) (l : List Nat) (recs : List Nat), l = List.map BitVec.toNat dg ∧ s.rraAuthentic l = true ∧ s.rraHeld l = false
    ∧ s.rra.wait = [] ∧ fieldAt l 8 8 = Tab.get (fun x => 0) s.rra.last (fieldAt l 7 1) ∧ Tab.find s.rra.resp (fieldAt l 7 1) = some recs) ∧
    (∃ (s : State) (dg : List Byte) (l : List Nat) (recs : List Nat) (u : State), l = List.map BitVec.toNat dg ∧ s.rraAuthentic l = true
    ∧ s.rraHeld l = false ∧ s.rra.wait = [] ∧ Tab.get (fun x => 0) s.rra.last (fieldAt l 7 1) < fieldAt l 8 8
    ∧ (s.rraAccept (fieldAt l 7 1) (fieldAt l 8 8)).rraOps (List.map (fun i => List.take 16 (List.drop (32 + 16 * i) l)) (List.range (fieldAt l 6 1))) = (recs,
    u)) := by
  refine ⟨?_, ?_⟩
  · refine ⟨(wHost State.reset).setRra { State.reset.rra with last := [(3, 1)], resp := [(3, [9])] }, wDatagram 1, _, [9], rfl, ?_, ?_, ?_, ?_, ?_⟩ <;> decide +kernel
  · refine ⟨wHost State.reset, wDatagram 65537, _,
      (((wHost State.reset).rraAccept (fieldAt (List.map BitVec.toNat (wDatagram 65537)) 7 1) (fieldAt (List.map BitVec.toNat (wDatagram 65537)) 8 8)).rraOps (List.map (fun i => List.take 16 (List.drop (32 + 16 * i) (List.map BitVec.toNat (wDatagram 65537)))) (List.range (fieldAt (List.map BitVec.toNat (wDatagram 65537)) 6 1)))).1,
      (((wHost State.reset).rraAccept (fieldAt (List.map BitVec.toNat (wDatagram 65537)) 7 1) (fieldAt (List.map BitVec.toNat (wDatagram 65537)) 8 8)).rraOps (List.map (fun i => List.take 16 (List.drop (32 + 16 * i) (List.map BitVec.toNat (wDatagram 65537)))) (List.range (fieldAt (List.map BitVec.toNat (wDatagram 65537)) 6 1)))).2,
      rfl, ?_, ?_, ?_, ?_, ?_⟩ <;> decide +kernel

/-- States and operands that meet the hypotheses of TimeBaseCommands, clause by clause. -/
theorem test_wit_TimeBaseCommands :
    (∃ (s : State), s.timeState ≠ 3) ∧
    (∃ (s : State), s.timeState ≠ 3 ∧ s.fld F.CTU_STEP_NSEC_NSEC ≤ 999999999 ∧ s.stepBlockers = 0) ∧
    (∃ (s : State), (s.timeState = 1 ∨ s.timeState = 3)) ∧
    (∃ (s : State), (s.timeState = 2 ∨ s.timeState = 3)) ∧
    (∃ (s : State), s.timeState = 2 ∧ s.fld F.CTU_SERVO_WD_TIMEOUT_MS ≠ 0 ∧ 600000 * s.fld F.CTU_SERVO_WD_TIMEOUT_MS ≤ s.time.servoWd) := by
  refine ⟨?_, ?_, ?_, ?_, ?_⟩
  · refine ⟨State.reset, ?_⟩ <;> decide +kernel
  · refine ⟨(State.reset).setFld F.CTU_STEP_NSEC_NSEC 999999999, ?_, ?_, ?_⟩ <;> decide +kernel
  · refine ⟨(State.reset).setFld F.CTU_TIME_STATE_STATE 3, ?_⟩ <;> decide +kernel
  · refine ⟨(State.reset).setFld F.CTU_TIME_STATE_STATE 3, ?_⟩ <;> decide +kernel
  · refine ⟨(((State.reset).setFld F.CTU_TIME_STATE_STATE 2).setFld F.CTU_SERVO_WD_TIMEOUT_MS 1).setTime { State.reset.time with servoWd := 600000 }, ?_, ?_, ?_⟩ <;> decide +kernel

/-- States and operands that meet the hypotheses of TimeIncrementIsClamped, clause by clause. -/
theorem test_wit_TimeIncrementIsClamped :
    (∃ (s : State) (v : Word), s.timeState ≠ 3 ∧ 27948046 ≤ BitVec.toNat v ∧ BitVec.toNat v ≤ 27976008) ∧
    (∃ (s : State) (v : Word), s.timeState ≠ 3 ∧ BitVec.toNat v < 27948046) ∧
    (∃ (s : State) (v : Word), s.timeState ≠ 3 ∧ 27976008 < BitVec.toNat v) ∧
    (∃ (s : State), s.timeState ≠ 3) := by
  refine ⟨?_, ?_, ?_, ?_⟩
  · refine ⟨State.reset, 27948046, ?_, ?_, ?_⟩ <;> decide +kernel
  · refine ⟨State.reset, 27948045, ?_, ?_⟩ <;> decide +kernel
  · refine ⟨State.reset, 27976009, ?_, ?_⟩ <;> decide +kernel
  · refine ⟨State.reset, ?_⟩ <;> decide +kernel

/-- States and operands that meet the hypotheses of TimeStateTransitions, clause by clause. -/
theorem test_wit_TimeStateTransitions :
    (∃ (s : State), s.timeState = 0) ∧
    (∃ (s : State), s.timeState = 1) ∧
    (∃ (s : State), s.timeState = 3) ∧
    (∃ (s : State), s.timeState = 0 ∧ s.fld F.CTU_STEP_NSEC_NSEC ≤ 999999999 ∧ s.stepBlockers = 0) ∧
    (∃ (s : State), s.timeState = 2 ∧ (s.fld F.CTU_SERVO_WD_TIMEOUT_MS = 0 ∨ s.time.servoWd < 600000 * s.fld F.CTU_SERVO_WD_TIMEOUT_MS)) ∧
    (∃ (s : State), s.timeState = 2 ∧ s.fld F.CTU_SERVO_WD_TIMEOUT_MS ≠ 0 ∧ 600000 * s.fld F.CTU_SERVO_WD_TIMEOUT_MS ≤ s.time.servoWd) := by
  refine ⟨?_, ?_, ?_, ?_, ?_, ?_⟩
  · refine ⟨(State.reset).setFld F.CTU_TIME_STATE_STATE 0, ?_⟩ <;> decide +kernel
  · refine ⟨(State.reset).setFld F.CTU_TIME_STATE_STATE 1, ?_⟩ <;> decide +kernel
  · refine ⟨(State.reset).setFld F.CTU_TIME_STATE_STATE 3, ?_⟩ <;> decide +kernel
  · refine ⟨((State.reset).setFld F.CTU_TIME_STATE_STATE 0).setFld F.CTU_STEP_NSEC_NSEC 999999999, ?_, ?_, ?_⟩ <;> decide +kernel
  · refine ⟨(State.reset).setFld F.CTU_TIME_STATE_STATE 2, ?_, ?_⟩ <;> decide +kernel
  · refine ⟨(((State.reset).setFld F.CTU_TIME_STATE_STATE 2).setFld F.CTU_SERVO_WD_TIMEOUT_MS 1).setTime { State.reset.time with servoWd := 600000 }, ?_, ?_, ?_⟩ <;> decide +kernel

/-- States and operands that meet the hypotheses of VaultCommands, clause by clause. -/
theorem test_wit_VaultCommands_1 :
    (∃ (s : State) (cmd : Nat) (code : Nat), cmd < 16 ∧ code < 256 ∧ cmd = 11) ∧
    (∃ (s : State) (cmd : Nat) (code : Nat), cmd < 16 ∧ code < 256 ∧ cmd ≠ 11) ∧
    (∃ (s : State) (h : BitVec 16) (i : BitVec 16) (c : Instr) (n : Nat), s.flag F.VLT_RES_BUSY = true ∧ (c, n) ∈ [(Instr.vltVerify, 1), (Instr.vltStore,
    2), (Instr.vltEnrol, 3), (Instr.vltRevoke, 4), (Instr.vltImport, 5), (Instr.vltLoadKey, 6), (Instr.vltEraseKey h, 7), (Instr.vltArbAdvance i, 8),
    (Instr.vltAttest, 9), (Instr.vltDbgLock, 12)]) ∧
    (∃ (s : State) (tap : Bool) (c : Instr) (n : Nat), s.flag F.VLT_RES_BUSY = true ∧ (c, n) ∈ [(Instr.vltDbgChallenge tap, 10), (Instr.vltDbgUnlock tap,
    11)]) := by
  refine ⟨?_, ?_, ?_, ?_⟩
  · refine ⟨State.reset, 11, 255, ?_, ?_, ?_⟩ <;> decide +kernel
  · refine ⟨State.reset, 15, 255, ?_, ?_, ?_⟩ <;> decide +kernel
  · refine ⟨(State.reset).setFld F.VLT_RES_BUSY 1, 0, 0, Instr.vltDbgLock, 12, ?_, ?_⟩ <;> decide +kernel
  · refine ⟨(State.reset).setFld F.VLT_RES_BUSY 1, true, Instr.vltDbgUnlock true, 11, ?_, ?_⟩ <;> decide +kernel

/-- States and operands that meet the hypotheses of VaultCommands, clause by clause. -/
theorem test_wit_VaultCommands_2 :
    (∃ (s : State), s.vlt.busy = none) ∧
    (∃ (s : State) (r : Nat) (o : Nat), s.vlt.busy = some (r, o)) ∧
    (∃ (s : State), s.flag F.VLT_RES_BUSY = false ∧ s.vltBytes = none) ∧
    (∃ (s : State) (l : List Nat) (code : Nat), s.flag F.VLT_RES_BUSY = false ∧ s.vltBytes = some l ∧ code = s.fwCheck l ∧ code ≠ 0) := by
  refine ⟨?_, ?_, ?_, ?_⟩
  · refine ⟨State.reset, ?_⟩ <;> decide +kernel
  · refine ⟨(State.reset).setVlt { State.reset.vlt with busy := some (7, 9) }, 7, 9, ?_⟩ <;> decide +kernel
  · refine ⟨(State.reset).setFld F.VLT_RES_BUSY 0, ?_, ?_⟩ <;> decide +kernel
  · refine ⟨wVault (State.reset) (wFirmware.take 200), wFirmware.take 200, _,
      (wVault_bytes (by decide +kernel) (by decide +kernel) (by decide +kernel) (by decide +kernel)).1,
      (wVault_bytes (by decide +kernel) (by decide +kernel) (by decide +kernel) (by decide +kernel)).2.1, rfl, ?_⟩ <;> decide +kernel

/-- States and operands that meet the hypotheses of VaultCommands, clause by clause. -/
theorem test_wit_VaultCommands_3 :
    (∃ (s : State) (l : List Nat) (code : Nat) (u : State), s.flag F.VLT_RES_BUSY = false ∧ s.vltBytes = some l ∧ s.fwCheck l = 0 ∧ s.fwStore l = (code,
    u)) ∧
    (∃ (s : State) (l : List Nat), s.flag F.VLT_RES_BUSY = false ∧ l = s.vltRecord ∧ (ownRecordOk l 1 [(16, 113)] = false
    ∨ (List.take 97 (List.drop 16 l)).headD 0 ≠ 4)) ∧
    (∃ (s : State) (l : List Nat), s.flag F.VLT_RES_BUSY = false ∧ l = s.vltRecord ∧ ownRecordOk l 2 [(16, 64)] = false) ∧
    (∃ (s : State) (l : List Nat), s.flag F.VLT_RES_BUSY = false ∧ l = s.vltRecord ∧ importOk l = false) := by
  refine ⟨?_, ?_, ?_, ?_⟩
  · refine ⟨wVault (wUnit) (wFirmware), wFirmware, ((wVault (wUnit) (wFirmware)).fwStore wFirmware).1, ((wVault (wUnit) (wFirmware)).fwStore wFirmware).2,
      (wVault_bytes (by decide +kernel) (by decide +kernel) (by decide +kernel) (by decide +kernel)).1,
      (wVault_bytes (by decide +kernel) (by decide +kernel) (by decide +kernel) (by decide +kernel)).2.1, ?_, ?_⟩ <;> decide +kernel
  · refine ⟨(State.reset).setFld F.VLT_RES_BUSY 0, _, ?_, rfl, ?_⟩ <;> decide +kernel
  · refine ⟨(State.reset).setFld F.VLT_RES_BUSY 0, _, ?_, rfl, ?_⟩ <;> decide +kernel
  · refine ⟨(State.reset).setFld F.VLT_RES_BUSY 0, _, ?_, rfl, ?_⟩ <;> decide +kernel

/-- States and operands that meet the hypotheses of VaultCommands, clause by clause. -/
theorem test_wit_VaultCommands_4 :
    (∃ (s : State) (l : List Nat), s.flag F.VLT_RES_BUSY = false ∧ l = s.vltRecord ∧ ownRecordOk l 1 [(16, 113)] = true
    ∧ (List.take 97 (List.drop 16 l)).headD 0 = 4 ∧ s.sw18 = false) ∧
    (∃ (s : State) (l : List Nat), s.flag F.VLT_RES_BUSY = false ∧ l = s.vltRecord ∧ ownRecordOk l 2 [(16, 64)] = true ∧ s.sw18 = false) ∧
    (∃ (s : State) (l : List Nat), s.flag F.VLT_RES_BUSY = false ∧ l = s.vltRecord ∧ importOk l = true ∧ s.sw18 = false) ∧
    (∃ (s : State) (l : List Nat) (k : Nat), s.flag F.VLT_RES_BUSY = false ∧ l = s.vltRecord ∧ ownRecordOk l 1 [(16, 113)] = true
    ∧ (List.take 97 (List.drop 16 l)).headD 0 = 4 ∧ s.sw18 = true ∧ s.owner = none ∧ s.freeSlot = some k ∧ fieldAt l 6 1 = k
    ∧ signedUnder (List.take 97 (List.drop 16 l)) l = true) := by
  refine ⟨?_, ?_, ?_, ?_⟩
  · refine ⟨wVaultOf 0 (State.reset) (wEnrol), wEnrol, (wVault_bytes (by decide +kernel) (by decide +kernel) (by decide +kernel) (by decide +kernel)).1,
      (wVault_bytes (by decide +kernel) (by decide +kernel) (by decide +kernel) (by decide +kernel)).2.2, ?_, ?_, ?_⟩ <;> decide +kernel
  · refine ⟨wVaultOf 0 (State.reset) (wRevoke), wRevoke, (wVault_bytes (by decide +kernel) (by decide +kernel) (by decide +kernel) (by decide +kernel)).1,
      (wVault_bytes (by decide +kernel) (by decide +kernel) (by decide +kernel) (by decide +kernel)).2.2, ?_, ?_⟩ <;> decide +kernel
  · refine ⟨wVaultOf 0 (State.reset) (wImport1), wImport1, (wVault_bytes (by decide +kernel) (by decide +kernel) (by decide +kernel) (by decide +kernel)).1,
      (wVault_bytes (by decide +kernel) (by decide +kernel) (by decide +kernel) (by decide +kernel)).2.2, ?_, ?_⟩ <;> decide +kernel
  · refine ⟨wVault (State.reset) (wEnrol), wEnrol, 0, (wVault_bytes (by decide +kernel) (by decide +kernel) (by decide +kernel) (by decide +kernel)).1,
      (wVault_bytes (by decide +kernel) (by decide +kernel) (by decide +kernel) (by decide +kernel)).2.2, ?_, ?_, ?_, ?_, ?_, ?_, ?_⟩ <;> decide +kernel

/-- States and operands that meet the hypotheses of VaultCommands, clause by clause. -/
theorem test_wit_VaultCommands_5 :
    (∃ (s : State) (l : List Nat) (k : Nat), s.flag F.VLT_RES_BUSY = false ∧ l = s.vltRecord ∧ ownRecordOk l 2 [(16, 64)] = true ∧ s.sw18 = true
    ∧ s.owner = some k ∧ s.ownerSigned l = 0 ∧ List.take 48 (List.drop 16 l) = Tab.get (fun x => []) s.vlt.hashes k) ∧
    (∃ (s : State) (l : List Nat) (u : Nat), s.flag F.VLT_RES_BUSY = false ∧ l = s.vltRecord ∧ importOk l = true ∧ s.sw18 = true ∧ s.ownerSigned l = 0
    ∧ u = fieldAt l 16 1 ∧ u ≠ 2) ∧
    (∃ (s : State) (l : List Nat) (u : Nat), s.flag F.VLT_RES_BUSY = false ∧ l = s.vltRecord ∧ importOk l = true ∧ s.sw18 = true ∧ s.ownerSigned l = 0
    ∧ u = fieldAt l 16 1 ∧ u = 2 ∧ s.rngOk = false) ∧
    (∃ (s : State) (l : List Nat) (u : Nat), s.flag F.VLT_RES_BUSY = false ∧ l = s.vltRecord ∧ importOk l = true ∧ s.sw18 = true ∧ s.ownerSigned l = 0
    ∧ u = fieldAt l 16 1 ∧ u = 2 ∧ s.rngOk = true) := by
  refine ⟨?_, ?_, ?_, ?_⟩
  · refine ⟨wVault (wUnit) (wRevoke), wRevoke, 0, (wVault_bytes (by decide +kernel) (by decide +kernel) (by decide +kernel) (by decide +kernel)).1,
      (wVault_bytes (by decide +kernel) (by decide +kernel) (by decide +kernel) (by decide +kernel)).2.2, ?_, ?_, ?_, ?_, ?_⟩ <;> decide +kernel
  · refine ⟨wVault (wUnit) (wImport1), wImport1, 1, (wVault_bytes (by decide +kernel) (by decide +kernel) (by decide +kernel) (by decide +kernel)).1,
      (wVault_bytes (by decide +kernel) (by decide +kernel) (by decide +kernel) (by decide +kernel)).2.2, ?_, ?_, ?_, ?_, ?_⟩ <;> decide +kernel
  · refine ⟨wVault ((wUnit).setFld F.VLT_STATUS_ENTROPY_FAIL 1) (wImport2), wImport2, 2,
      (wVault_bytes (by decide +kernel) (by decide +kernel) (by decide +kernel) (by decide +kernel)).1,
      (wVault_bytes (by decide +kernel) (by decide +kernel) (by decide +kernel) (by decide +kernel)).2.2, ?_, ?_, ?_, ?_, ?_, ?_⟩ <;> decide +kernel
  · refine ⟨wVault (wUnit) (wImport2), wImport2, 2, (wVault_bytes (by decide +kernel) (by decide +kernel) (by decide +kernel) (by decide +kernel)).1,
      (wVault_bytes (by decide +kernel) (by decide +kernel) (by decide +kernel) (by decide +kernel)).2.2, ?_, ?_, ?_, ?_, ?_, ?_⟩ <;> decide +kernel

/-- States and operands that meet the hypotheses of VaultCommands, clause by clause. -/
theorem test_wit_VaultCommands_6 :
    (∃ (s : State) (l : List Nat), s.flag F.VLT_RES_BUSY = false ∧ (s.vltBytes = none ∨ s.vltBytes = some l ∧ l.length ≠ 64)) ∧
    (∃ (s : State) (l : List Nat), s.flag F.VLT_RES_BUSY = false ∧ s.vltBytes = some l ∧ l.length = 64 ∧ (∀ h < 256, Tab.find s.vlt.vkeys h ≠ none)) ∧
    (∃ (s : State) (l : List Nat) (h : Nat), s.flag F.VLT_RES_BUSY = false ∧ s.vltBytes = some l ∧ l.length = 64 ∧ h < 256 ∧ Tab.find s.vlt.vkeys h = none
    ∧ (∀ i < h, Tab.find s.vlt.vkeys i ≠ none)) ∧
    (∃ (s : State) (h : BitVec 16), s.flag F.VLT_RES_BUSY = false ∧ Tab.find s.vlt.vkeys h.toNat = none) := by
  refine ⟨?_, ?_, ?_, ?_⟩
  · refine ⟨(State.reset).setFld F.VLT_RES_BUSY 0, [], ?_, ?_⟩ <;> decide +kernel
  · refine ⟨wVault ((State.reset).setVlt { State.reset.vlt with vkeys := (List.range 256).map (fun h => (h, ([], []))) }) (List.replicate 64 5),
      List.replicate 64 5, (wVault_bytes (by decide +kernel) (by decide +kernel) (by decide +kernel) (by decide +kernel)).1,
      (wVault_bytes (by decide +kernel) (by decide +kernel) (by decide +kernel) (by decide +kernel)).2.1, ?_, ?_⟩ <;> decide +kernel
  · refine ⟨wVault ((State.reset).setVlt { State.reset.vlt with vkeys := (List.range 255).map (fun i => (i, ([], []))) }) (List.replicate 64 5),
      List.replicate 64 5, 255, (wVault_bytes (by decide +kernel) (by decide +kernel) (by decide +kernel) (by decide +kernel)).1,
      (wVault_bytes (by decide +kernel) (by decide +kernel) (by decide +kernel) (by decide +kernel)).2.1, ?_, ?_, ?_, ?_⟩ <;> decide +kernel
  · refine ⟨(State.reset).setFld F.VLT_RES_BUSY 0, 0, ?_, ?_⟩ <;> decide +kernel

/-- States and operands that meet the hypotheses of VaultCommands, clause by clause. -/
theorem test_wit_VaultCommands_7 :
    (∃ (s : State) (h : BitVec 16), s.flag F.VLT_RES_BUSY = false ∧ Tab.find s.vlt.vkeys h.toNat ≠ none) ∧
    (∃ (s : State) (i : BitVec 16) (rows : Nat), s.flag F.VLT_RES_BUSY = false ∧ rows = Tab.get (fun x => 0) s.vlt.rows i.toNat ∧ (64 ≤ i.toNat
    ∨ 64 ≤ rows ∨ s.vltLen ≤ s.num (Reg.VLT_ARB i.toNat))) ∧
    (∃ (s : State) (i : BitVec 16) (rows : Nat) (k : Nat), s.flag F.VLT_RES_BUSY = false ∧ rows = Tab.get (fun x => 0) s.vlt.rows i.toNat ∧ i.toNat < 64
    ∧ rows < 64 ∧ s.num (Reg.VLT_ARB i.toNat) < s.vltLen ∧ (i.toNat, s.vltLen, k) ∈ s.runningItems ∧ (i.toNat < 8 ∨ s.owner = some k)) ∧
    (∃ (s : State) (l : List Nat), s.flag F.VLT_RES_BUSY = false ∧ (s.vltBytes = none ∨ s.vltBytes = some l ∧ l.length ≠ 864)) := by
  refine ⟨?_, ?_, ?_, ?_⟩
  · refine ⟨(State.reset).setVlt { State.reset.vlt with vkeys := [(255, ([], []))] }, 255, ?_, ?_⟩ <;> decide +kernel
  · refine ⟨(State.reset).setFld F.VLT_RES_BUSY 0, 0, _, ?_, rfl, ?_⟩ <;> decide +kernel
  · refine ⟨((State.reset).setNum Reg.VLT_ARG_LEN 3).setVlt { State.reset.vlt with running := [(1, (0, 3, 0))] }, 0, 0, 0, ?_, ?_, ?_, ?_, ?_, ?_, ?_⟩ <;> decide +kernel
  · refine ⟨(State.reset).setFld F.VLT_RES_BUSY 0, [], ?_, ?_⟩ <;> decide +kernel

/-- States and operands that meet the hypotheses of VaultCommands, clause by clause. -/
theorem test_wit_VaultCommands_8 :
    (∃ (s : State) (l : List Nat), s.flag F.VLT_RES_BUSY = false ∧ s.vltBytes = some l ∧ l.length = 864) ∧
    (∃ (s : State), s.flag F.VLT_RES_BUSY = false ∧ s.rngOk = false) ∧
    (∃ (s : State), s.flag F.VLT_RES_BUSY = false ∧ s.rngOk = true) ∧
    (∃ (s : State) (l : List Nat) (scope : Nat) (minutes : Nat), s.flag F.VLT_RES_BUSY = false ∧ l = s.vltRecord ∧ scope = fieldAt l 48 1
    ∧ minutes = fieldAt l 50 2 ∧ ownRecordOk l 4 [(16, 49), (50, 52)] = true ∧ scope ≤ 15 ∧ minutes ≤ 1440 ∧ (s.vlt.chal = false
    ∨ List.take 32 (List.drop 16 l) ≠ s.chalBytes)) := by
  refine ⟨?_, ?_, ?_, ?_⟩
  · refine ⟨wVault (State.reset) (List.replicate 864 5), List.replicate 864 5,
      (wVault_bytes (by decide +kernel) (by decide +kernel) (by decide +kernel) (by decide +kernel)).1,
      (wVault_bytes (by decide +kernel) (by decide +kernel) (by decide +kernel) (by decide +kernel)).2.1, ?_⟩ <;> decide +kernel
  · refine ⟨(State.reset).setFld F.VLT_STATUS_ENTROPY_FAIL 1, ?_, ?_⟩ <;> decide +kernel
  · refine ⟨(State.reset).setFld F.VLT_RES_BUSY 0, ?_, ?_⟩ <;> decide +kernel
  · refine ⟨wVault (wUnit) (wUnlock), wUnlock, 15, 1440, (wVault_bytes (by decide +kernel) (by decide +kernel) (by decide +kernel) (by decide +kernel)).1,
      (wVault_bytes (by decide +kernel) (by decide +kernel) (by decide +kernel) (by decide +kernel)).2.2, ?_, ?_, ?_, ?_, ?_, ?_⟩ <;> decide +kernel

/-- States and operands that meet the hypotheses of VaultCommands, clause by clause. -/
theorem test_wit_VaultCommands_9 :
    (∃ (s : State) (l : List Nat) (scope : Nat) (minutes : Nat), s.flag F.VLT_RES_BUSY = false ∧ l = s.vltRecord ∧ scope = fieldAt l 48 1
    ∧ minutes = fieldAt l 50 2 ∧ ownRecordOk l 4 [(16, 49), (50, 52)] = true ∧ scope ≤ 15 ∧ minutes ≤ 1440 ∧ s.vlt.chal = true
    ∧ List.take 32 (List.drop 16 l) = s.chalBytes ∧ s.ownerSigned l ≠ 0) ∧
    (∃ (s : State) (l : List Nat) (scope : Nat) (minutes : Nat), s.flag F.VLT_RES_BUSY = false ∧ l = s.vltRecord ∧ scope = fieldAt l 48 1
    ∧ minutes = fieldAt l 50 2 ∧ ownRecordOk l 4 [(16, 49), (50, 52)] = true ∧ scope ≤ 15 ∧ minutes ≤ 1440 ∧ s.vlt.chal = true
    ∧ List.take 32 (List.drop 16 l) = s.chalBytes ∧ s.ownerSigned l = 0) ∧
    (∃ (s : State), (s.fld F.VLT_STATUS_SCOPE = 0 ∨ s.vlt.minutes = 0 ∨ s.time.cycle < s.vlt.since + s.vlt.minutes * 60000 * cycPerMs)) ∧
    (∃ (s : State), s.fld F.VLT_STATUS_SCOPE ≠ 0 ∧ s.vlt.minutes ≠ 0 ∧ s.vlt.since + s.vlt.minutes * 60000 * cycPerMs ≤ s.time.cycle) := by
  refine ⟨?_, ?_, ?_, ?_⟩
  · refine ⟨wVault ((wUnit).setVlt { wUnit.vlt with chal := true }) (wUnlock.set 255 0), wUnlock.set 255 0, 15, 1440,
      (wVault_bytes (by decide +kernel) (by decide +kernel) (by decide +kernel) (by decide +kernel)).1,
      (wVault_bytes (by decide +kernel) (by decide +kernel) (by decide +kernel) (by decide +kernel)).2.2, ?_, ?_, ?_, ?_, ?_, ?_, ?_, ?_⟩ <;> decide +kernel
  · refine ⟨wVault ((wUnit).setVlt { wUnit.vlt with chal := true }) (wUnlock), wUnlock, 15, 1440,
      (wVault_bytes (by decide +kernel) (by decide +kernel) (by decide +kernel) (by decide +kernel)).1,
      (wVault_bytes (by decide +kernel) (by decide +kernel) (by decide +kernel) (by decide +kernel)).2.2, ?_, ?_, ?_, ?_, ?_, ?_, ?_, ?_⟩ <;> decide +kernel
  · refine ⟨State.reset, ?_⟩ <;> decide +kernel
  · refine ⟨((State.reset.setFld F.VLT_STATUS_SCOPE 15).setVlt { State.reset.vlt with minutes := 1440, since := 5 }).setTime { State.reset.time with cycle := 51840000000005 },
      ?_, ?_, ?_⟩ <;> decide +kernel

/-- States and operands that meet the hypotheses of VaultCommands, clause by clause. -/
theorem test_wit_VaultCommands_10 :
    (∃ (s : State), s.rngOk = true) ∧
    (∃ (s : State), s.rngOk = false) := by
  refine ⟨?_, ?_⟩
  · refine ⟨State.reset, ?_⟩ <;> decide +kernel
  · refine ⟨(State.reset).setFld F.VLT_STATUS_ENTROPY_FAIL 1, ?_⟩ <;> decide +kernel


end Sys2Proof.Machine
end

/-! PROOFS. Time base and PPS input (chapter 02): what an update keeps of memory, registers and waiting events, then the commands. -/

namespace Sys2Proof.Machine

/-! ## What updates keep: rules that any command's proof can chain -/

/-- A field reads the same where its register does. -/
theorem State.fld_congr {s t : State} {f : Fld} (h : t.rd f.addr = s.rd f.addr) : t.fld f = s.fld f := by
  unfold State.fld; rw [h]

/-- A flag reads the same where its register does. -/
theorem State.flag_congr {s t : State} {f : Fld} (h : t.rd f.addr = s.rd f.addr) : t.flag f = s.flag f := by
  unfold State.flag; rw [State.fld_congr h]

/-- A flag that shares no bit with the field written keeps its value. -/
theorem State.flag_setFld_other (s : State) (f g : Fld) (v : Nat) (hf : f.fits) (h : f.apart g) : (s.setFld f v).flag g = s.flag g := by
  unfold State.flag; rw [State.fld_setFld_other s f g v hf h]

theorem SameMem.of_mem_eq {s t : State} (h : t.mem = s.mem) : SameMem s t := rdByte_of_mem h

namespace RegsKept

variable {s t : State} {l : List Nat}

theorem refl (s : State) (l : List Nat) : RegsKept s s l := fun _ _ => rfl

theorem wr (h : RegsKept s t l) {a : Nat} (v : Word) (ha : a ∈ l) : RegsKept s (t.wr a v) l :=
  fun b hb => (State.rd_wr_other t v (ne_of_mem_of_not_mem ha hb).symm).trans (h b hb)

theorem setNum (h : RegsKept s t l) {a : Nat} (v : Nat) (ha : a ∈ l) : RegsKept s (t.setNum a v) l := h.wr _ ha

theorem setFld (h : RegsKept s t l) {f : Fld} (v : Nat) (hf : f.addr ∈ l) : RegsKept s (t.setFld f v) l := h.wr _ hf

theorem log (h : RegsKept s t l) (c x d : Nat) (hl : Reg.EVL_LOST ∈ l) : RegsKept s (t.log c x d) l :=
  fun b hb => (State.rd_log t c x d (ne_of_mem_of_not_mem hl hb).symm).trans (h b hb)

theorem setTime (h : RegsKept s t l) (x : TimeState) : RegsKept s (t.setTime x) l := h

theorem setBus (h : RegsKept s t l) (b : BusResp) : RegsKept s (t.setBus b) l := h

theorem recModule (h : RegsKept s t l) (c w : Nat) (m : List (Nat × Nat)) : RegsKept s (t.recModule c w m) l :=
  fun b hb => (rd_recModule t c w m b).trans (h b hb)

end RegsKept

/-- An event logged on a queue that no update before it has touched. -/
theorem logs_log {s t : State} (c x d : Nat) (h : t.evl = s.evl) : Logs s (t.log c x d) c x d := by
  intro hq
  refine log_self' c x d ?_ (by rw [h]; omega)
  unfold State.event State.now
  rw [time_log]

/-- An event stays logged through an update that keeps the log and the network time. -/
theorem Logs.congr {s t u : State} {c x d : Nat} (hl : Logs s t c x d) (he : u.evl = t.evl) (hn : u.now = t.now) : Logs s u c x d := by
  intro hq
  have hev : u.event c x d = t.event c x d := by unfold State.event; rw [hn]
  rw [hev, he]
  exact hl hq

/-! ## Writes of CTU_TIME_INC (R53) -/

@[simp] theorem State.rd_restartServo (s : State) (a : Nat) : s.restartServo.rd a = s.rd a := (rfl)
@[simp] theorem State.restartServo_mem (s : State) : s.restartServo.mem = s.mem := (rfl)
@[simp] theorem State.restartServo_evl (s : State) : s.restartServo.evl = s.evl := (rfl)
@[simp] theorem State.restartServo_now (s : State) : s.restartServo.now = s.now := (rfl)

theorem RegsKept.restartServo {s t : State} {l : List Nat} (h : RegsKept s t l) : RegsKept s t.restartServo l := h

/-- The state after a write of `v` to CTU_TIME_INC that is clamped to `limit`. -/
def State.clampTimeInc (s : State) (limit v : Nat) : State :=
  (((s.setNum Reg.CTU_TIME_INC limit).setFld F.CTU_TIME_STATE_INC_CLAMP 1).log 0x0213 0 v).restartServo

theorem State.writeTimeInc_below {s : State} {v : Word} (hs : s.timeState ≠ 3) (hv : v.toNat < 0x01AA740E) :
    s.writeTimeInc v = s.clampTimeInc 0x01AA740E v.toNat := by
  unfold State.writeTimeInc; rw [if_neg hs, if_pos hv]; rfl

theorem State.writeTimeInc_above {s : State} {v : Word} (hs : s.timeState ≠ 3) (hv : 0x01AAE148 < v.toNat) :
    s.writeTimeInc v = s.clampTimeInc 0x01AAE148 v.toNat := by
  unfold State.writeTimeInc; rw [if_neg hs, if_neg (by omega), if_pos hv]; rfl

theorem State.writeTimeInc_within {s : State} {v : Word} (hs : s.timeState ≠ 3) (hlo : 0x01AA740E ≤ v.toNat) (hhi : v.toNat ≤ 0x01AAE148) :
    s.writeTimeInc v = (s.wr Reg.CTU_TIME_INC v).restartServo := by
  unfold State.writeTimeInc; rw [if_neg hs, if_neg (by omega), if_neg (by omega)]

theorem State.num_clampTimeInc (s : State) (limit v : Nat) : (s.clampTimeInc limit v).num Reg.CTU_TIME_INC = limit % 2 ^ 32 := by
  unfold State.clampTimeInc State.num
  rw [State.rd_restartServo, State.rd_log _ _ _ _ (by decide), State.rd_setFld_other _ _ _ (by decide)]
  exact State.num_setNum_self s _ limit

theorem State.incClamp_clampTimeInc (s : State) (limit v : Nat) : (s.clampTimeInc limit v).flag F.CTU_TIME_STATE_INC_CLAMP = true := by
  have hrd : (s.clampTimeInc limit v).rd Reg.CTU_TIME_STATE =
      ((s.setNum Reg.CTU_TIME_INC limit).setFld F.CTU_TIME_STATE_INC_CLAMP 1).rd Reg.CTU_TIME_STATE := State.rd_log _ _ _ _ (by decide)
  rw [State.flag_congr hrd]
  exact State.flag_setFld_self _ F.CTU_TIME_STATE_INC_CLAMP true (by simp [Fld.fits]) rfl

/-- R53: a clamped write leaves the limit, sets INC_CLAMP and logs the value written. -/
theorem State.clampTimeInc_spec (s : State) {limit : Nat} (v : Nat) (hl : limit < 2 ^ 32) :
    (s.clampTimeInc limit v).num Reg.CTU_TIME_INC = limit ∧ (s.clampTimeInc limit v).flag F.CTU_TIME_STATE_INC_CLAMP = true ∧
      Logs s (s.clampTimeInc limit v) 0x0213 0 v ∧ SameMem s (s.clampTimeInc limit v) ∧
      RegsKept s (s.clampTimeInc limit v) [Reg.CTU_TIME_INC, Reg.CTU_TIME_STATE, Reg.EVL_LOST] := by
  refine ⟨?_, s.incClamp_clampTimeInc limit v, ?_, ?_, ?_⟩
  · rw [State.num_clampTimeInc, Nat.mod_eq_of_lt hl]
  · exact (logs_log 0x0213 0 v (by simp)).congr (State.restartServo_evl _) (State.restartServo_now _)
  · exact SameMem.of_mem_eq (by simp [State.clampTimeInc])
  · exact ((((RegsKept.refl s _).setNum limit (by simp)).setFld 1 (by simp)).log 0x0213 0 v (by simp)).restartServo

/-- The register window hands a write of CTU_TIME_INC to the same operation as the command. -/
theorem State.regWrite_timeInc (s : State) (m : Nat) (d : RegDesc) (n : Nat) :
    s.regWrite m d Reg.CTU_TIME_INC n = s.writeTimeInc (BitVec.ofNat 32 n) := (rfl)

theorem exec_timeIncWrite (v : Word) (s : State) : exec (.timeIncWrite v) s = .next (s.writeTimeInc v) := (rfl)

/-- Settles O6: a write in the range is taken as it is, one below or above it is the clamped write of `clampTimeInc_spec`. -/
theorem timeIncrementIsClamped : Obligations.TimeIncrementIsClamped := by
  unfold Obligations.TimeIncrementIsClamped
  intro s v hs
  refine ⟨fun hlo hhi => ?_, fun hv => ?_, fun hv => ?_, fun m d => ?_⟩
  · refine ⟨_, (exec_timeIncWrite v s).trans (congrArg _ (State.writeTimeInc_within hs hlo hhi)), ?_, ?_, rfl, fun _ => rfl, ?_⟩
    · exact State.rd_wr_self s _ v
    · exact State.flag_congr (State.rd_wr_other s v (by decide))
    · exact ((RegsKept.refl s _).wr v (by simp)).restartServo
  · exact ⟨_, (exec_timeIncWrite v s).trans (congrArg _ (State.writeTimeInc_below hs hv)), s.clampTimeInc_spec v.toNat (by decide)⟩
  · exact ⟨_, (exec_timeIncWrite v s).trans (congrArg _ (State.writeTimeInc_above hs hv)), s.clampTimeInc_spec v.toNat (by decide)⟩
  · rw [exec_timeIncWrite, State.regWrite_timeInc, BitVec.ofNat_toNat, BitVec.setWidth_eq]

/-! ## HOLDOVER (R58) -/

theorem State.writeTimeInc_holdover {s : State} (hs : s.timeState = 3) (v : Word) : s.writeTimeInc v = s := if_pos hs

theorem State.writeSlew_holdover {s : State} (hs : s.timeState = 3) (v : Word) : s.writeSlew v = s := if_pos hs

theorem State.stepGo_holdover {s : State} (hs : s.timeState = 3) (load : Bool) : s.stepGo load = s := if_pos hs

theorem exec_timeSlewWrite (v : Word) (s : State) : exec (.timeSlewWrite v) s = .next (s.writeSlew v) := (rfl)

theorem exec_timeStepGo (load : Bool) (s : State) : exec (.timeStepGo load) s = .next (s.stepGo load) := (rfl)

theorem State.regWrite_timeSlew (s : State) (m : Nat) (d : RegDesc) (n : Nat) :
    s.regWrite m d Reg.CTU_TIME_SLEW n = s.writeSlew (BitVec.ofNat 32 n) := (rfl)

/-- The register window drops the whole write of CTU_STEP_CTRL in HOLDOVER, the stored MODE bit included. -/
theorem State.regWrite_stepCtrl_holdover {s : State} (hs : s.timeState = 3) (m : Nat) (d : RegDesc) (n : Nat) :
    s.regWrite m d Reg.CTU_STEP_CTRL n = s := if_pos hs

/-- Settles O7: in HOLDOVER each of the three operations, and the window's write to each register, is the identity. -/
theorem holdoverIgnoresServoWrites : Obligations.HoldoverIgnoresServoWrites := by
  unfold Obligations.HoldoverIgnoresServoWrites
  intro s v load hs
  refine ⟨?_, ?_, ?_, fun m d n => ⟨?_, ?_, State.regWrite_stepCtrl_holdover hs m d n⟩⟩
  · rw [exec_timeIncWrite, State.writeTimeInc_holdover hs]
  · rw [exec_timeSlewWrite, State.writeSlew_holdover hs]
  · rw [exec_timeStepGo, State.stepGo_holdover hs]
  · rw [State.regWrite_timeInc, State.writeTimeInc_holdover hs]
  · rw [State.regWrite_timeSlew, State.writeSlew_holdover hs]

/-! ## Transitions of the time state (R57) -/

@[simp] theorem State.setTimeState_time (s : State) (v : Nat) : (s.setTimeState v).time = s.time := (rfl)

theorem RegsKept.setTimeState {s t : State} {l : List Nat} (h : RegsKept s t l) (v : Nat) (hl : Reg.CTU_TIME_STATE ∈ l) :
    RegsKept s (t.setTimeState v) l := (h.setFld v hl).setFld 1 hl

theorem State.timeState_setTimeState (s : State) {v : Nat} (hv : v < 4) : (s.setTimeState v).timeState = v := by
  unfold State.setTimeState State.timeState
  rw [State.fld_setFld_other _ _ _ _ (by simp [Fld.fits]) (by simp [Fld.apart]), State.fld_setFld_self _ _ _ (by simp [Fld.fits])]
  exact Nat.mod_eq_of_lt hv

theorem State.stateChg_setTimeState (s : State) (v : Nat) : (s.setTimeState v).flag F.CTU_TIME_STATE_STATE_CHG = true :=
  State.flag_setFld_self _ F.CTU_TIME_STATE_STATE_CHG true (by simp [Fld.fits]) rfl

/-- A state whose CTU_TIME_STATE is that of an entry into `v` is in `v` and has STATE_CHG set, whatever else its updates did. -/
theorem State.entered_of_rd {t u : State} {v : Nat} (hv : v < 4) (h : t.rd Reg.CTU_TIME_STATE = (u.setTimeState v).rd Reg.CTU_TIME_STATE) :
    t.timeState = v ∧ t.flag F.CTU_TIME_STATE_STATE_CHG = true :=
  ⟨(State.fld_congr h).trans (u.timeState_setTimeState hv), (State.flag_congr h).trans (u.stateChg_setTimeState v)⟩

/-- Logging an event and writing its MODULE row change no register but the count of lost events. -/
theorem State.rd_log_recModule (s : State) (c x d k w : Nat) (m : List (Nat × Nat)) {a : Nat} (h : a ≠ Reg.EVL_LOST) :
    ((s.log c x d).recModule k w m).rd a = s.rd a := (rd_recModule ..).trans (State.rd_log s c x d h)

theorem State.time_log_recModule (s : State) (c x d k w : Nat) (m : List (Nat × Nat)) : ((s.log c x d).recModule k w m).time = s.time :=
  (time_recModule ..).trans (time_log s c x d)

/-- An event is logged also where its MODULE row follows it. -/
theorem logs_log_recModule {s t : State} (c x d k w : Nat) (m : List (Nat × Nat)) (h : t.evl = s.evl) :
    Logs s ((t.log c x d).recModule k w m) c x d :=
  (logs_log c x d h).congr (evl_recModule ..) (congrArg TimeState.now (time_recModule ..))

theorem RegsKept.log_recModule {s t : State} {l : List Nat} (h : RegsKept s t l) (c x d k w : Nat) (m : List (Nat × Nat))
    (hl : Reg.EVL_LOST ∈ l) : RegsKept s ((t.log c x d).recModule k w m) l := (h.log c x d hl).recModule k w m

/-! One equation per row of the table of R57. -/

section
variable {s : State}

theorem State.writeTimeState_free_lock (h : s.timeState = 1) : s.writeTimeState 2 = (s.setTimeState 2).restartServo := by
  simp [State.writeTimeState, h]

theorem State.writeTimeState_holdover_lock (h : s.timeState = 3) :
    s.writeTimeState 2 = (((s.setTimeState 2).restartServo).log 0x0212 0 2).recModule 5 2 [] := by simp [State.writeTimeState, h]

theorem State.writeTimeState_holdover_free (h : s.timeState = 3) :
    s.writeTimeState 1 = ((s.setTimeState 1).log 0x0212 0 1).recModule 5 1 [] := by simp [State.writeTimeState, h]

theorem State.writeTimeState_locked_free (h : s.timeState = 2) : s.writeTimeState 1 = s.setTimeState 1 := by
  simp [State.writeTimeState, h]

theorem State.writeTimeState_locked_lock (h : s.timeState = 2) : s.writeTimeState 2 = s.restartServo := by
  simp [State.writeTimeState, h]

theorem State.writeTimeState_locked_holdover (h : s.timeState = 2) :
    s.writeTimeState 3 = (((s.setTimeState 3).setTime { s.time with slew := 0 }).log 0x0211 0 1).recModule 4 1 [] := by
  simp [State.writeTimeState, h]

end

theorem exec_timeStateWrite (v : BitVec 2) (s : State) : exec (.timeStateWrite v) s = .next (s.writeTimeState v.toNat) := (rfl)

/-- The commands that end with no change: writes of 0 and those the table of R57 does not list. -/
theorem timeStateWrite_ignored (s : State) :
    exec (.timeStateWrite 0) s = .next s ∧ (s.timeState = 0 → ∀ v, exec (.timeStateWrite v) s = .next s) ∧
    (s.timeState = 1 → exec (.timeStateWrite 1) s = .next s ∧ exec (.timeStateWrite 3) s = .next s) ∧
    (s.timeState = 3 → exec (.timeStateWrite 3) s = .next s) := by
  simp only [exec_timeStateWrite]
  refine ⟨?_, fun h v => ?_, fun h => ⟨?_, ?_⟩, fun h => ?_⟩
  · simp [State.writeTimeState]
  all_goals simp [State.writeTimeState, h]

/-! The row of UNSET: a step that loads a time (R55). -/

/-- The tables that refuse a step are seen in the registers of the courses and catch tables alone. -/
theorem State.stepBlockers_congr {s t : State} (h : ∀ a, 0xE0010100 ≤ a → t.rd a = s.rd a) : t.stepBlockers = s.stepBlockers := by
  have hfld : ∀ f : Fld, 0xE0010100 ≤ f.addr → t.fld f = s.fld f := fun f hf => State.fld_congr (h f.addr hf)
  have hblocks : t.blocksStep = s.blocksStep := by
    funext m
    have hcrs := hfld (F.CT_CFG_CRS m) (by simp only [Reg.CT_CFG]; omega)
    unfold State.blocksStep State.flag
    rw [hcrs, hfld (F.CT_CFG_EN m) (by simp only [Reg.CT_CFG]; omega), hfld (F.CRS_CFG_SRC _) (by simp only [Reg.CRS_CFG]; omega),
      hfld (F.CRS_CFG_EN _) (by simp only [Reg.CRS_CFG]; omega), hfld (F.CT_CTRL_RUN m) (by simp only [Reg.CT_CTRL]; omega),
      hfld (F.CT_CTRL_RUNNING m) (by simp only [Reg.CT_CTRL]; omega)]
  unfold State.stepBlockers
  rw [hblocks]

/-- A step outside HOLDOVER, with NSEC in its range and no running network table, is applied with the MODE of the write (R55). -/
theorem State.stepGo_applied {s : State} (load : Bool) (hs : s.timeState ≠ 3) (hn : s.fld F.CTU_STEP_NSEC_NSEC ≤ 999999999)
    (hb : s.stepBlockers = 0) : s.stepGo load = (s.setFld F.CTU_STEP_CTRL_MODE (b2n load)).applyStep load := by
  have hother : ∀ a, a ≠ Reg.CTU_STEP_CTRL → (s.setFld F.CTU_STEP_CTRL_MODE (b2n load)).rd a = s.rd a :=
    fun a ha => State.rd_setFld_other s _ _ ha
  have hnsec : (s.setFld F.CTU_STEP_CTRL_MODE (b2n load)).fld F.CTU_STEP_NSEC_NSEC = s.fld F.CTU_STEP_NSEC_NSEC :=
    State.fld_congr (hother _ (by decide))
  have hblock : (s.setFld F.CTU_STEP_CTRL_MODE (b2n load)).stepBlockers = s.stepBlockers :=
    State.stepBlockers_congr (fun a ha => hother a (by simp only [Reg.CTU_STEP_CTRL]; omega))
  unfold State.stepGo
  rw [if_neg hs]
  dsimp only
  rw [hnsec, hblock, if_neg (by omega), if_neg (by omega)]

/-- A step that loads a time in UNSET writes CTU_TIME_STATE as an entry into FREE does. -/
theorem State.rd_applyStep_unset {s : State} (h : s.timeState = 0) :
    ∃ x : TimeState, (s.applyStep true).rd Reg.CTU_TIME_STATE = ((s.setTime x).setTimeState 1).rd Reg.CTU_TIME_STATE := by
  have hunset : ∀ x : TimeState, (s.setTime x).timeState = 0 := fun _ => h
  unfold State.applyStep
  simp only [hunset, Bool.true_and, beq_self_eq_true, if_true]
  exact ⟨_, State.rd_log_recModule _ _ _ _ _ _ _ (by decide)⟩

theorem timeStepGo_unset {s : State} (hs : s.timeState = 0) (hn : s.fld F.CTU_STEP_NSEC_NSEC ≤ 999999999) (hb : s.stepBlockers = 0) :
    Gives (.timeStepGo true) s (fun t => t.timeState = 1 ∧ t.flag F.CTU_TIME_STATE_STATE_CHG = true) := by
  have hmode : (s.setFld F.CTU_STEP_CTRL_MODE (b2n true)).timeState = 0 :=
    (State.fld_congr (State.rd_setFld_other s _ _ (by decide))).trans hs
  refine ⟨_, (exec_timeStepGo true s).trans (congrArg _ (State.stepGo_applied true (by omega) hn hb)), ?_⟩
  obtain ⟨_, hrd⟩ := State.rd_applyStep_unset hmode
  exact State.entered_of_rd (by decide) hrd

/-! The rows of FREE, HOLDOVER and LOCKED. -/

theorem timeStateWrite_free {s : State} (h : s.timeState = 1) :
    Gives (.timeStateWrite 2) s (fun t => t.timeState = 2 ∧ t.flag F.CTU_TIME_STATE_STATE_CHG = true ∧ t.evl = s.evl ∧
      t.time = { s.time with servoWd := 0 } ∧ SameMem s t ∧ RegsKept s t [Reg.CTU_TIME_STATE]) := by
  refine ⟨_, (exec_timeStateWrite 2 s).trans (congrArg _ (State.writeTimeState_free_lock h)), ?_⟩
  obtain ⟨hstate, hchg⟩ := State.entered_of_rd (t := (s.setTimeState 2).restartServo) (u := s) (v := 2) (by decide) rfl
  exact ⟨hstate, hchg, rfl, rfl, fun _ => rfl, ((RegsKept.refl s _).setTimeState 2 (by simp)).restartServo⟩

theorem timeStateWrite_holdover_lock {s : State} (h : s.timeState = 3) :
    Gives (.timeStateWrite 2) s (fun t => t.timeState = 2 ∧ t.flag F.CTU_TIME_STATE_STATE_CHG = true ∧ Logs s t 0x0212 0 2 ∧
      t.time = { s.time with servoWd := 0 } ∧ RegsKept s t [Reg.CTU_TIME_STATE, Reg.EVL_LOST]) := by
  refine ⟨_, (exec_timeStateWrite 2 s).trans (congrArg _ (State.writeTimeState_holdover_lock h)), ?_⟩
  obtain ⟨hstate, hchg⟩ := State.entered_of_rd (v := 2) (by decide)
    (State.rd_log_recModule (s.setTimeState 2).restartServo 0x0212 0 2 5 2 [] (a := Reg.CTU_TIME_STATE) (by decide))
  refine ⟨hstate, hchg, logs_log_recModule _ _ _ _ _ _ rfl, State.time_log_recModule .., ?_⟩
  exact ((RegsKept.refl s _).setTimeState 2 (by simp)).restartServo.log_recModule _ _ _ _ _ _ (by simp)

theorem timeStateWrite_holdover_free {s : State} (h : s.timeState = 3) :
    Gives (.timeStateWrite 1) s (fun t => t.timeState = 1 ∧ t.flag F.CTU_TIME_STATE_STATE_CHG = true ∧ Logs s t 0x0212 0 1 ∧ t.time = s.time ∧
      RegsKept s t [Reg.CTU_TIME_STATE, Reg.EVL_LOST]) := by
  refine ⟨_, (exec_timeStateWrite 1 s).trans (congrArg _ (State.writeTimeState_holdover_free h)), ?_⟩
  obtain ⟨hstate, hchg⟩ := State.entered_of_rd (v := 1) (by decide)
    (State.rd_log_recModule (s.setTimeState 1) 0x0212 0 1 5 1 [] (a := Reg.CTU_TIME_STATE) (by decide))
  refine ⟨hstate, hchg, logs_log_recModule _ _ _ _ _ _ rfl, State.time_log_recModule .., ?_⟩
  exact ((RegsKept.refl s _).setTimeState 1 (by simp)).log_recModule _ _ _ _ _ _ (by simp)

theorem timeStateWrite_locked_free {s : State} (h : s.timeState = 2) :
    Gives (.timeStateWrite 1) s (fun t => t.timeState = 1 ∧ t.flag F.CTU_TIME_STATE_STATE_CHG = true ∧ t.time = s.time ∧
      t.evl = s.evl ∧ SameMem s t ∧ RegsKept s t [Reg.CTU_TIME_STATE]) := by
  refine ⟨_, (exec_timeStateWrite 1 s).trans (congrArg _ (State.writeTimeState_locked_free h)), ?_⟩
  exact ⟨s.timeState_setTimeState (by decide), s.stateChg_setTimeState 1, rfl, rfl, fun _ => rfl, (RegsKept.refl s _).setTimeState 1 (by simp)⟩

/-- In LOCKED a write of STATE = 2 restarts the servo watchdog and changes nothing else. -/
theorem timeStateWrite_locked_lock {s : State} (h : s.timeState = 2) :
    Gives (.timeStateWrite 2) s (fun t => t.time = { s.time with servoWd := 0 } ∧ t.evl = s.evl ∧ SameMem s t ∧ RegsKept s t []) := by
  refine ⟨_, (exec_timeStateWrite 2 s).trans (congrArg _ (State.writeTimeState_locked_lock h)), ?_⟩
  exact ⟨rfl, rfl, fun _ => rfl, (RegsKept.refl s _).restartServo⟩

theorem timeStateWrite_locked_holdover {s : State} (h : s.timeState = 2) :
    Gives (.timeStateWrite 3) s (fun t => t.timeState = 3 ∧ t.flag F.CTU_TIME_STATE_STATE_CHG = true ∧ t.time = { s.time with slew := 0 } ∧
      Logs s t 0x0211 0 1 ∧ RegsKept s t [Reg.CTU_TIME_STATE, Reg.EVL_LOST]) := by
  refine ⟨_, (exec_timeStateWrite 3 s).trans (congrArg _ (State.writeTimeState_locked_holdover h)), ?_⟩
  obtain ⟨hstate, hchg⟩ := State.entered_of_rd (v := 3) (by decide)
    (State.rd_log_recModule ((s.setTimeState 3).setTime { s.time with slew := 0 }) 0x0211 0 1 4 1 [] (a := Reg.CTU_TIME_STATE) (by decide))
  refine ⟨hstate, hchg, State.time_log_recModule .., logs_log_recModule _ _ _ _ _ _ rfl, ?_⟩
  exact (((RegsKept.refl s _).setTimeState 3 (by simp)).setTime _).log_recModule _ _ _ _ _ _ (by simp)

/-! The servo watchdog's row (R59). -/

/-- The state in which the servo watchdog leaves LOCKED, before the event and its MODULE row. -/
def State.servoLost (s : State) : State :=
  ((s.setTimeState 3).setFld F.CTU_TIME_STATE_WD_EXP 1).setTime { s.time with slew := 0, servoWd := 0 }

theorem exec_servoWdExpire_due {s : State} (h : s.timeState = 2) (ht : s.fld F.CTU_SERVO_WD_TIMEOUT_MS ≠ 0)
    (hd : 600000 * s.fld F.CTU_SERVO_WD_TIMEOUT_MS ≤ s.time.servoWd) :
    exec .servoWdExpire s = .next ((s.servoLost.log 0x0211 0 2).recModule 4 2 []) := if_pos ⟨h, ht, hd⟩

/-- A disabled watchdog, and one whose time has not passed, does nothing. -/
theorem exec_servoWdExpire_early {s : State}
    (h : s.fld F.CTU_SERVO_WD_TIMEOUT_MS = 0 ∨ s.time.servoWd < 600000 * s.fld F.CTU_SERVO_WD_TIMEOUT_MS) :
    exec .servoWdExpire s = .next s := if_neg fun ⟨_, ht, hd⟩ => h.elim ht (fun hlt => by omega)

/-- The watchdog's HOLDOVER shows as STATE, STATE_CHG and WD_EXP: WD_EXP is a bit of its own beside the entry's two fields. -/
theorem State.servoLost_flags (s : State) : s.servoLost.timeState = 3 ∧ s.servoLost.flag F.CTU_TIME_STATE_STATE_CHG = true ∧
    s.servoLost.flag F.CTU_TIME_STATE_WD_EXP = true := by
  have hrd : s.servoLost.rd Reg.CTU_TIME_STATE = ((s.setTimeState 3).setFld F.CTU_TIME_STATE_WD_EXP 1).rd Reg.CTU_TIME_STATE :=
    State.rd_setTime ..
  refine ⟨(State.fld_congr hrd).trans ?_, (State.flag_congr hrd).trans ?_, (State.flag_congr hrd).trans ?_⟩
  · rw [State.fld_setFld_other _ _ _ _ (by simp [Fld.fits]) (by simp [Fld.apart])]
    exact s.timeState_setTimeState (by decide)
  · rw [State.flag_setFld_other _ _ _ _ (by simp [Fld.fits]) (by simp [Fld.apart])]
    exact s.stateChg_setTimeState 3
  · exact State.flag_setFld_self _ F.CTU_TIME_STATE_WD_EXP true (by simp [Fld.fits]) rfl

theorem servoWdExpire_due {s : State} (h : s.timeState = 2) (ht : s.fld F.CTU_SERVO_WD_TIMEOUT_MS ≠ 0)
    (hd : 600000 * s.fld F.CTU_SERVO_WD_TIMEOUT_MS ≤ s.time.servoWd) :
    Gives .servoWdExpire s (fun t => t.timeState = 3 ∧ t.flag F.CTU_TIME_STATE_STATE_CHG = true ∧
      t.flag F.CTU_TIME_STATE_WD_EXP = true ∧ t.time.slew = 0 ∧ Logs s t 0x0211 0 2 ∧ RegsKept s t [Reg.CTU_TIME_STATE, Reg.EVL_LOST]) := by
  refine ⟨_, exec_servoWdExpire_due h ht hd, ?_⟩
  have hrd := State.rd_log_recModule s.servoLost 0x0211 0 2 4 2 [] (a := Reg.CTU_TIME_STATE) (by decide)
  obtain ⟨hstate, hchg, hexp⟩ := s.servoLost_flags
  refine ⟨(State.fld_congr hrd).trans hstate, (State.flag_congr hrd).trans hchg, (State.flag_congr hrd).trans hexp, ?_,
    logs_log_recModule _ _ _ _ _ _ rfl, ?_⟩
  · rw [State.time_log_recModule]; rfl
  · exact ((((RegsKept.refl s _).setTimeState 3 (by simp)).setFld 1 (by simp)).setTime _).log_recModule _ _ _ _ _ _ (by simp)

/-- Settles O8, row by row of the table of R57. -/
theorem timeStateTransitions : Obligations.TimeStateTransitions :=
  ⟨timeStateWrite_ignored, fun _ => timeStepGo_unset, fun _ => timeStateWrite_free,
    fun _ h => ⟨timeStateWrite_holdover_lock h, timeStateWrite_holdover_free h⟩,
    fun _ h => ⟨timeStateWrite_locked_free h, timeStateWrite_locked_lock h, timeStateWrite_locked_holdover h, exec_servoWdExpire_early,
      servoWdExpire_due h⟩⟩

/-! ## PPS input (R63, R571) -/

/-- A latched stamp is read from the three registers it was latched into. -/
theorem State.rd_latchStamp (s : State) (t : Stamp) {a0 a1 a2 : Nat} (h01 : a0 ≠ a1) (h02 : a0 ≠ a2) (h12 : a1 ≠ a2) :
    (s.latchStamp t a0 a1 a2).rd a0 = BitVec.ofNat 32 t.w0 ∧ (s.latchStamp t a0 a1 a2).rd a1 = BitVec.ofNat 32 t.w1 ∧
      (s.latchStamp t a0 a1 a2).rd a2 = BitVec.ofNat 32 t.w2 := by
  unfold State.latchStamp
  refine ⟨?_, ?_, State.rd_wr_self ..⟩
  · rw [State.rd_setNum_other _ _ h02, State.rd_setNum_other _ _ h01]; exact State.rd_wr_self ..
  · rw [State.rd_setNum_other _ _ h12]; exact State.rd_wr_self ..

theorem RegsKept.latchStamp {s t : State} {l : List Nat} (h : RegsKept s t l) (x : Stamp) {a0 a1 a2 : Nat} (h0 : a0 ∈ l) (h1 : a1 ∈ l)
    (h2 : a2 ∈ l) : RegsKept s (t.latchStamp x a0 a1 a2) l := ((h.setNum _ h0).setNum _ h1).setNum _ h2

/-- The state that keeps its unread capture at one more edge, before the event. -/
def State.ppsOverrun (s : State) : State := s.setFld F.CTU_PPS_IN_CTRL_OVR 1

/-- The state with a time captured. -/
def State.ppsCapture (s : State) (x : Stamp) : State :=
  (s.latchStamp x Reg.CTU_PPS_CAP_SEC Reg.CTU_PPS_CAP_NSEC Reg.CTU_PPS_CAP_HI).setFld F.CTU_PPS_IN_CTRL_CAP_VALID 1

section
variable {s : State} {e : Bool}

/-- The selected edge with PPS_IN enabled captures the time base less the 9.0 ns of the input (R571), or overruns a capture still unread. -/
theorem exec_ppsInEdge_selected (hen : s.flag F.CTU_PPS_IN_CTRL_IN_EN = true) (he : e = (s.fld F.CTU_PPS_IN_CTRL_EDGE == 0)) :
    exec (.ppsInEdge e) s = .next (if s.flag F.CTU_PPS_IN_CTRL_CAP_VALID = true then s.ppsOverrun.log 0x021A 0 0
      else s.ppsCapture (s.now.move (-(9 * 2 ^ 24)))) := by
  change execPpsInEdge e s = _
  unfold execPpsInEdge
  rw [if_pos (by rw [hen, he, beq_self_eq_true, Bool.and_self])]
  split <;> rfl

/-- With PPS_IN disabled, and at the other edge, nothing happens. -/
theorem exec_ppsInEdge_ignored (h : s.flag F.CTU_PPS_IN_CTRL_IN_EN = false ∨ e ≠ (s.fld F.CTU_PPS_IN_CTRL_EDGE == 0)) :
    exec (.ppsInEdge e) s = .next s := by
  change execPpsInEdge e s = _
  unfold execPpsInEdge
  refine if_neg fun hsel => ?_
  rw [Bool.and_eq_true, beq_iff_eq] at hsel
  exact h.elim (fun hen => by rw [hen] at hsel; cases hsel.1) (fun he => he hsel.2)

end

theorem State.ppsCapture_spec (s : State) (x : Stamp) :
    (s.ppsCapture x).flag F.CTU_PPS_IN_CTRL_CAP_VALID = true ∧ (s.ppsCapture x).rd Reg.CTU_PPS_CAP_SEC = BitVec.ofNat 32 x.w0 ∧
      (s.ppsCapture x).rd Reg.CTU_PPS_CAP_NSEC = BitVec.ofNat 32 x.w1 ∧ (s.ppsCapture x).rd Reg.CTU_PPS_CAP_HI = BitVec.ofNat 32 x.w2 ∧
      SameMem s (s.ppsCapture x) ∧
      RegsKept s (s.ppsCapture x) [Reg.CTU_PPS_CAP_SEC, Reg.CTU_PPS_CAP_NSEC, Reg.CTU_PPS_CAP_HI, Reg.CTU_PPS_IN_CTRL] := by
  obtain ⟨hsec, hnsec, hhi⟩ := s.rd_latchStamp x (a0 := Reg.CTU_PPS_CAP_SEC) (a1 := Reg.CTU_PPS_CAP_NSEC) (a2 := Reg.CTU_PPS_CAP_HI)
    (by decide) (by decide) (by decide)
  refine ⟨State.flag_setFld_self _ F.CTU_PPS_IN_CTRL_CAP_VALID true (by simp [Fld.fits]) rfl, ?_, ?_, ?_, fun _ => rfl, ?_⟩
  · exact (State.rd_setFld_other _ _ _ (by decide)).trans hsec
  · exact (State.rd_setFld_other _ _ _ (by decide)).trans hnsec
  · exact (State.rd_setFld_other _ _ _ (by decide)).trans hhi
  · exact ((RegsKept.refl s _).latchStamp x (by simp) (by simp) (by simp)).setFld 1 (by simp)

/-- An overrun sets OVR and logs 0x021A; the older capture and its CAP_VALID stay. -/
theorem State.ppsOverrun_spec {s : State} (hv : s.flag F.CTU_PPS_IN_CTRL_CAP_VALID = true) :
    (s.ppsOverrun.log 0x021A 0 0).flag F.CTU_PPS_IN_CTRL_OVR = true ∧ Logs s (s.ppsOverrun.log 0x021A 0 0) 0x021A 0 0 ∧
      (s.ppsOverrun.log 0x021A 0 0).flag F.CTU_PPS_IN_CTRL_CAP_VALID = true ∧ SameMem s (s.ppsOverrun.log 0x021A 0 0) ∧
      RegsKept s (s.ppsOverrun.log 0x021A 0 0) [Reg.CTU_PPS_IN_CTRL, Reg.EVL_LOST] := by
  have hrd : (s.ppsOverrun.log 0x021A 0 0).rd Reg.CTU_PPS_IN_CTRL = s.ppsOverrun.rd Reg.CTU_PPS_IN_CTRL := State.rd_log _ _ _ _ (by decide)
  refine ⟨?_, logs_log _ _ _ rfl, ?_, SameMem.of_mem_eq (mem_log ..), ?_⟩
  · exact (State.flag_congr hrd).trans (State.flag_setFld_self _ F.CTU_PPS_IN_CTRL_OVR true (by simp [Fld.fits]) rfl)
  · exact (State.flag_congr hrd).trans ((State.flag_setFld_other _ _ _ _ (by simp [Fld.fits]) (by simp [Fld.apart])).trans hv)
  · exact ((RegsKept.refl s _).setFld 1 (by simp)).log 0x021A 0 0 (by simp)

theorem ppsCaptureRead_releases (s : State) :
    Gives .ppsCaptureRead s (fun t => t.flag F.CTU_PPS_IN_CTRL_CAP_VALID = false ∧ t.bus = ⟨false, s.num Reg.CTU_PPS_CAP_HI⟩ ∧
      SameMem s t ∧ RegsKept s t [Reg.CTU_PPS_IN_CTRL]) :=
  ⟨(s.setFld F.CTU_PPS_IN_CTRL_CAP_VALID 0).setBus ⟨false, s.num Reg.CTU_PPS_CAP_HI⟩, rfl,
    State.flag_setFld_self s F.CTU_PPS_IN_CTRL_CAP_VALID false (by simp [Fld.fits]) rfl, rfl, fun _ => rfl,
    ((RegsKept.refl s _).setFld 0 (by simp)).setBus _⟩

/-- Settles O10: a selected edge captures or, over an unread capture, overruns; any other edge is ignored; a read releases. -/
theorem ppsCapture : Obligations.PpsCapture := by
  unfold Obligations.PpsCapture
  refine ⟨fun s e hen he => ⟨fun hv => ?_, fun hv => ?_⟩, fun _ _ => exec_ppsInEdge_ignored, ppsCaptureRead_releases⟩
  · exact ⟨_, (exec_ppsInEdge_selected hen he).trans (congrArg _ (if_neg (by simp [hv]))), s.ppsCapture_spec _⟩
  · exact ⟨_, (exec_ppsInEdge_selected hen he).trans (congrArg _ (if_pos hv)), State.ppsOverrun_spec hv⟩

end Sys2Proof.Machine

/-! PROOFS. Interrupt sources (R378, R397, R436, R456, R527): what a gated pair of registers asserts, then each unit's sources. -/

namespace Sys2Proof.Machine

/-! ## Flag registers gated by their enables -/

theorem bit_eq_testBit (n i : Nat) : bit n i = n.testBit i := by
  unfold bit; rw [Nat.testBit_eq_decide_div_mod_eq, Nat.shiftRight_eq_div_pow]; rfl

theorem bit_and (m n i : Nat) : bit (m &&& n) i = (bit m i && bit n i) := by
  simp only [bit_eq_testBit, Nat.testBit_and]

theorem ne_zero_iff_exists_bit (n : Nat) : n ≠ 0 ↔ ∃ i, bit n i = true := by
  simp only [bit_eq_testBit]
  refine ⟨Nat.exists_testBit_of_ne_zero, ?_⟩
  rintro ⟨i, hi⟩ rfl
  simp at hi

/-- A flag register asserts through a mask exactly where one of the mask's bits is set in it and in its enable register. -/
theorem State.gated_iff (s : State) (f e m : Nat) :
    s.gated f e m = true ↔ ∃ b, bit m b = true ∧ s.rbit f b = true ∧ s.rbit e b = true := by
  unfold State.gated
  rw [bne_iff_ne, ne_zero_iff_exists_bit]
  refine exists_congr fun b => ?_
  rw [bit_and, bit_and, Bool.and_eq_true, Bool.and_eq_true, and_comm]
  rfl

/-- Through a mask of one bit that bit and its enable decide. -/
theorem State.gated_two_pow (s : State) (f e b : Nat) : s.gated f e (2 ^ b) = (s.rbit f b && s.rbit e b) := by
  rw [Bool.eq_iff_iff, State.gated_iff, Bool.and_eq_true]
  simp only [bit_eq_testBit, Nat.testBit_two_pow, decide_eq_true_eq, exists_eq_left']

/-! ## The sources of CAN, ETH, PVM, PLK and VLT -/

theorem State.irqLevel_can (s : State) {n k : Nat} (hn : n < 8) (hk : k < 4) :
    s.irqLevel (64 + 4 * n + k) = s.gated (Reg.CAN_IRQ n) (Reg.CAN_IRQ_EN n) (canGroup k) := by
  have hdiv : (64 + 4 * n + k - 64) / 4 = n := by omega
  have hmod : (64 + 4 * n + k) % 4 = k := by omega
  unfold State.irqLevel
  simp (disch := omega) only [if_neg, if_pos, hdiv, hmod]

theorem State.irqLevel_eth (s : State) {n k : Nat} (hn : n < 6) (hk : k < 4) :
    s.irqLevel (96 + 4 * n + k) = s.gated (Reg.ETH_IRQ n) (Reg.ETH_IRQ_EN n) (2 ^ k) := by
  have hdiv : (96 + 4 * n + k - 96) / 4 = n := by omega
  have hmod : (96 + 4 * n + k) % 4 = k := by omega
  unfold State.irqLevel
  simp (disch := omega) only [if_neg, if_pos, hdiv, hmod]

theorem State.irqLevel_pvm (s : State) {b : Nat} (hb : b < 7) : s.irqLevel (24 + b) = s.gated Reg.PVM_IRQ Reg.PVM_IRQ_EN (2 ^ b) := by
  unfold State.irqLevel
  simp (disch := omega) only [if_neg, if_pos, Nat.add_sub_cancel_left]

theorem State.irqLevel_plk (s : State) {b : Nat} (hb : b < 5) : s.irqLevel (120 + b) = s.gated Reg.PLK_IRQ Reg.PLK_IRQ_EN (2 ^ b) := by
  unfold State.irqLevel
  simp (disch := omega) only [if_neg, if_pos, Nat.add_sub_cancel_left]

/-- The mask of a CAN group holds the bits R378 lists for it, and none above the 32 of its register. -/
theorem bit_canGroup (k : Nat) (hk : k < 4) (b : Nat) : bit (canGroup k) b = true ↔
    b < 32 ∧ ((k = 0 ∧ b ≤ 2) ∨ (k = 1 ∧ (3 ≤ b ∧ b ≤ 5 ∨ b = 17)) ∨ (k = 2 ∧ 6 ≤ b ∧ b ≤ 9) ∨ (k = 3 ∧ (10 ≤ b ∧ b ≤ 16 ∨ b = 18))) := by
  by_cases hb : b < 32
  · rw [and_iff_right hb]
    interval_cases k <;> revert b <;> decide
  · have hlt : canGroup k < 2 ^ b := by
      calc canGroup k < 2 ^ 32 := by revert k; decide
        _ ≤ 2 ^ b := Nat.pow_le_pow_right (by decide) (by omega)
    simp [bit_eq_testBit, Nat.testBit_lt_two_pow hlt, hb]

/-- Settles O9: each unit's source is its flag register gated by its enables, through a CAN group's mask or through one bit. -/
theorem interruptSources : Obligations.InterruptSources := by
  unfold Obligations.InterruptSources
  refine fun s => ⟨fun n k hn hk => ?_, fun n k hn hk => ?_, fun b hb => ?_, rfl, fun b hb => ?_, rfl, rfl, rfl, rfl, rfl⟩
  · rw [s.irqLevel_can hn hk, State.gated_iff]
    simp only [bit_canGroup k hk, and_assoc]
  · rw [s.irqLevel_eth hn hk, State.gated_two_pow]
  · rw [s.irqLevel_pvm hb, State.gated_two_pow]
  · rw [s.irqLevel_plk hb, State.gated_two_pow]

end Sys2Proof.Machine

/-! PROOFS. Safe inputs and safety functions of the pavilion (R411, R414): the pair's safe value and its fault, then the latch. -/

namespace Sys2Proof.Machine

/-! ## What updates of the pavilion keep -/

namespace RegsKept

variable {s t : State} {l : List Nat}

theorem setPvm (h : RegsKept s t l) (p : PvmState) : RegsKept s (t.setPvm p) l := h

theorem setSin (h : RegsKept s t l) (i : Nat) (x : Sin) : RegsKept s (t.setSin i x) l := h

theorem setRbit (h : RegsKept s t l) {a : Nat} (i : Nat) (b : Bool) (ha : a ∈ l) : RegsKept s (t.setRbit a i b) l := h.wr _ ha

theorem setFldBit (h : RegsKept s t l) {f : Fld} (i : Nat) (b : Bool) (hf : f.addr ∈ l) : RegsKept s (t.setFldBit f i b) l := h.wr _ hf

end RegsKept

@[simp] theorem State.setFldBit_mem (s : State) (f : Fld) (i : Nat) (b : Bool) : (s.setFldBit f i b).mem = s.mem := (rfl)
@[simp] theorem State.setFldBit_evl (s : State) (f : Fld) (i : Nat) (b : Bool) : (s.setFldBit f i b).evl = s.evl := (rfl)
@[simp] theorem State.setFldBit_pvm (s : State) (f : Fld) (i : Nat) (b : Bool) : (s.setFldBit f i b).pvm = s.pvm := (rfl)

theorem State.rd_setFldBit_other (s : State) (f : Fld) (i : Nat) (b : Bool) {a : Nat} (h : a ≠ f.addr) : (s.setFldBit f i b).rd a = s.rd a :=
  State.rd_setFld_other s f _ h

/-- Writing one bit of a field replaces that bit and keeps the field's others. -/
theorem State.bit_setFldBit (s : State) {f : Fld} (hf : f.fits) {i j : Nat} (b : Bool) (hj : j < f.width) :
    bit ((s.setFldBit f i b).fld f) j = if j = i then b else bit (s.fld f) j := by
  unfold State.setFldBit
  rw [State.fld_setFld_self _ _ _ hf, bit_mod _ hj, bit_putBit]

/-! ## Inputs and pairs -/

@[simp] theorem State.sinOf_setSin_self (s : State) (i : Nat) (x : Sin) : (s.setSin i x).sinOf i = x := Tab.get_put_self ..

theorem State.sinOf_setSin_other (s : State) {i j : Nat} (x : Sin) (h : j ≠ i) : (s.setSin i x).sinOf j = s.sinOf j :=
  Tab.get_put_other _ _ _ h

theorem State.sinOf_congr {s t : State} (h : t.pvm = s.pvm) (i : Nat) : t.sinOf i = s.sinOf i := by
  unfold State.sinOf; rw [h]

theorem State.channels_congr {s t : State} (h : t.pvm.par = s.pvm.par) (i : Nat) : t.channels i = s.channels i := by
  unfold State.channels State.pairMode State.par; rw [h]

/-- Both channels of a pair read its MODE at the even one (R406). -/
theorem State.pairMode_even (s : State) (i : Nat) : s.pairMode (i - i % 2) = s.pairMode i := by
  have hb : i - i % 2 - (i - i % 2) % 2 = i - i % 2 := by omega
  unfold State.pairMode; rw [hb]

theorem State.pairMode_odd (s : State) (i : Nat) : s.pairMode (i - i % 2 + 1) = s.pairMode i := by
  have hb : i - i % 2 + 1 - (i - i % 2 + 1) % 2 = i - i % 2 := by omega
  unfold State.pairMode; rw [hb]

/-- The even channel shows no demand where it reads 1, in every mode. -/
theorem State.noDemand_even (s : State) (i : Nat) : s.noDemand (i - i % 2) = (s.sinOf (i - i % 2)).q :=
  if_neg fun h => by omega

/-- The odd channel shows no demand where it reads 0 in antivalent mode, and where it reads 1 otherwise. -/
theorem State.noDemand_odd (s : State) (i : Nat) :
    s.noDemand (i - i % 2 + 1) = if s.pairMode i = 2 then !(s.sinOf (i - i % 2 + 1)).q else (s.sinOf (i - i % 2 + 1)).q := by
  have hodd : (i - i % 2 + 1) % 2 = 1 := by omega
  unfold State.noDemand
  simp only [State.pairMode_odd, hodd, and_true]

theorem State.channels_pair {s : State} {i : Nat} (h : s.pairMode i ≠ 0) : s.channels i = [i - i % 2, i - i % 2 + 1] := if_neg h

/-- A pair without a fault has safe value 1 exactly while neither channel shows a demand. -/
theorem State.safeValue_pair {s : State} {i : Nat} (h : s.pairMode i ≠ 0) (hev : (s.sinOf (i - i % 2)).fault = 0)
    (hodd : (s.sinOf (i - i % 2 + 1)).fault = 0) : s.safeValue i = (s.noDemand (i - i % 2) && s.noDemand (i - i % 2 + 1)) := by
  unfold State.safeValue
  rw [State.channels_pair h]
  simp [hev, hodd]

/-- A faulty channel holds the safe value at 0. -/
theorem State.safeValue_of_fault {s : State} {i c : Nat} (hc : c ∈ s.channels i) (h : (s.sinOf c).fault ≠ 0) : s.safeValue i = false :=
  List.all_eq_false.mpr ⟨c, hc, by simp [h]⟩

/-! ## PVM_SIN follows the inputs -/

@[simp] theorem State.syncSin_pvm (s : State) : s.syncSin.pvm = s.pvm := by
  unfold State.syncSin; exact fold_field State.pvm (fun _ _ => by rfl) _ _
@[simp] theorem State.syncSin_mem (s : State) : s.syncSin.mem = s.mem := by
  unfold State.syncSin; exact fold_field State.mem (fun _ _ => by rfl) _ _
@[simp] theorem State.syncSin_evl (s : State) : s.syncSin.evl = s.evl := by
  unfold State.syncSin; exact fold_field State.evl (fun _ _ => by rfl) _ _
@[simp] theorem State.syncSin_now (s : State) : s.syncSin.now = s.now := by
  unfold State.syncSin; exact fold_field State.now (fun _ _ => by rfl) _ _

theorem RegsKept.syncSin {s t : State} {l : List Nat} (h : RegsKept s t l) (hl : Reg.PVM_SIN ∈ l) : RegsKept s t.syncSin l :=
  fold_keep (fun u => RegsKept s u l) (fun _ _ hu => (hu.setRbit _ _ hl).setRbit _ _ hl) _ h

/-! ## The fault of an input or pair (R412) -/

/-- The state with a fault code on each listed channel, and with whether demand has shown since. -/
def State.markSins (s : State) (l : List Nat) (code : Nat) (demand : Bool) : State :=
  l.foldl (fun s c => s.setSin c { s.sinOf c with fault := code, demand := demand }) s

section
variable (s : State) (l : List Nat) (code : Nat) (demand : Bool)

@[simp] theorem State.markSins_par : (s.markSins l code demand).pvm.par = s.pvm.par := by
  unfold State.markSins; exact fold_field (fun u : State => u.pvm.par) (fun _ _ => by rfl) _ _
@[simp] theorem State.markSins_mem : (s.markSins l code demand).mem = s.mem := by
  unfold State.markSins; exact fold_field State.mem (fun _ _ => by rfl) _ _
@[simp] theorem State.markSins_evl : (s.markSins l code demand).evl = s.evl := by
  unfold State.markSins; exact fold_field State.evl (fun _ _ => by rfl) _ _

theorem RegsKept.markSins {t : State} {k : List Nat} (h : RegsKept s t k) : RegsKept s (t.markSins l code demand) k :=
  fold_keep (fun u => RegsKept s u k) (fun _ _ hu => hu.setSin _ _) _ h

/-- Every channel marked has the code, also where it is listed again. -/
theorem State.fault_markSins {c : Nat} (hc : c ∈ l) : ((s.markSins l code demand).sinOf c).fault = code := by
  unfold State.markSins
  refine fold_est (fun _ => True) (fun u : State => (u.sinOf c).fault = code) (fun _ _ _ => trivial) (fun u _ => ?_) (fun u x _ hu => ?_) hc trivial
  · rw [State.sinOf_setSin_self]
  · by_cases hx : c = x
    · rw [hx, State.sinOf_setSin_self]
    · rw [State.sinOf_setSin_other _ _ hx]; exact hu

end

section
variable {s : State} {i : Nat} (h : ∀ c ∈ s.channels i, (s.sinOf c).fault = 0) (code : Nat)
include h

/-- An input or pair without a fault takes one: its channels are marked, 0x0D20 names the first of them, and PVM_SIN follows. -/
theorem State.sinFault_of_clear : s.sinFault i code =
    ((s.markSins (s.channels i) code ((s.channels i).all (fun c => !s.noDemand c))).log 0x0D20 0
      ((s.channels i).headD i + code * 2 ^ 8)).syncSin := by
  have hany : (s.channels i).any (fun c => (s.sinOf c).fault != 0) = false := by
    rw [List.any_eq_false]
    exact fun c hc => by simp [h c hc]
  unfold State.sinFault
  simp only [hany]
  rfl

theorem State.sinFault_spec : (∀ c ∈ s.channels i, ((s.sinFault i code).sinOf c).fault = code) ∧
    (s.sinFault i code).channels i = s.channels i ∧ Logs s (s.sinFault i code) 0x0D20 0 ((s.channels i).headD i + code * 2 ^ 8) ∧
    SameMem s (s.sinFault i code) ∧ RegsKept s (s.sinFault i code) [Reg.PVM_SIN, Reg.EVL_LOST] := by
  rw [State.sinFault_of_clear h]
  refine ⟨fun c hc => ?_, State.channels_congr (by simp) i, ?_, SameMem.of_mem_eq (by simp), ?_⟩
  · rw [State.sinOf_congr ((State.syncSin_pvm _).trans (State.log_pvm ..))]
    exact State.fault_markSins s _ code _ hc
  · exact (logs_log _ _ _ (State.markSins_evl ..)).congr (State.syncSin_evl _) (State.syncSin_now _)
  · exact (((RegsKept.refl s _).markSins s _ _ _).log _ _ _ (by simp)).syncSin (by simp)

end

/-- A pair whose channels have disagreed for longer than T_DISC takes the fault DISCREPANCY (R411). -/
theorem exec_discrepancyTimeout_due {s : State} {i : Fin 16} (hmode : s.pairMode (i.val - i.val % 2) ≠ 0)
    (hapart : s.noDemand (i.val - i.val % 2) ≠ s.noDemand (i.val - i.val % 2 + 1))
    (hdue : (s.sinOf (i.val - i.val % 2)).since.getD s.pvm.frame0 + 1 + parWord s.pvm.par (offSin (i.val - i.val % 2) + 4) * cycPerMs ≤ s.time.cycle) :
    exec (.discrepancyTimeout i) s = .next (s.sinFault (i.val - i.val % 2) 3) := by
  change execDiscrepancyTimeout i s = _
  unfold execDiscrepancyTimeout
  exact if_pos (by simp [hmode, hapart, State.lasted_of_le hdue])

/-- Settles O11: a pair's safe value is that of its two channels, and the timeout is `sinFault` on both of them. -/
theorem pairSafeValue : Obligations.PairSafeValue := by
  unfold Obligations.PairSafeValue
  refine ⟨fun s i hev hodd => ⟨fun hm => ?_, fun hm => ?_⟩, ?_⟩
  · rw [State.pairMode_even] at hm
    rw [State.safeValue_pair (by omega) hev hodd, State.noDemand_even, State.noDemand_odd, if_neg (by omega), Bool.and_eq_true]
  · rw [State.pairMode_even] at hm
    rw [State.safeValue_pair (by omega) hev hodd, State.noDemand_even, State.noDemand_odd, if_pos hm, Bool.and_eq_true, Bool.not_eq_true']
  · rintro s i b rfl hmode hapart hdue hev hodd
    have hb : i.val - i.val % 2 - (i.val - i.val % 2) % 2 = i.val - i.val % 2 := by omega
    have hch := State.channels_pair hmode
    rw [hb] at hch
    have hclear : ∀ c ∈ s.channels (i.val - i.val % 2), (s.sinOf c).fault = 0 := by simp [hch, hev, hodd]
    obtain ⟨hfault, hkept, hlog, hmem, hregs⟩ := State.sinFault_spec hclear 3
    simp only [hch, List.mem_cons, List.not_mem_nil, or_false, forall_eq_or_imp, forall_eq] at hfault hkept
    obtain ⟨heven3, hodd3⟩ := hfault
    refine ⟨_, exec_discrepancyTimeout_due hmode hapart hdue, heven3, hodd3, ?_, ?_, hmem, hregs⟩
    · exact State.safeValue_of_fault (c := i.val - i.val % 2) (by simp [hkept]) (by simp [heven3])
    · rwa [hch] at hlog

/-! ## LATCH and OK of a function -/

section
variable (s : State) {f : Nat} (b : Bool)

theorem State.funLatch_congr {t : State} (h : t.rd Reg.PVM_FUNC = s.rd Reg.PVM_FUNC) (f : Nat) : t.funLatch f = s.funLatch f := by
  unfold State.funLatch; rw [State.fld_congr h]

theorem State.funOk_congr {t : State} (h : t.rd Reg.PVM_FUNC = s.rd Reg.PVM_FUNC) (f : Nat) : t.funOk f = s.funOk f := by
  unfold State.funOk; rw [State.fld_congr h]

theorem State.funLatch_setLatch (hf : f < 4) : (s.setFldBit F.PVM_FUNC_LATCH f b).funLatch f = b :=
  (State.bit_setFldBit s (by simp [Fld.fits]) b hf).trans (if_pos rfl)

theorem State.funOk_setOk (hf : f < 4) : (s.setFldBit F.PVM_FUNC_OK f b).funOk f = b :=
  (State.bit_setFldBit s (by simp [Fld.fits]) b hf).trans (if_pos rfl)

theorem State.funOk_setLatch (g : Nat) : (s.setFldBit F.PVM_FUNC_LATCH f b).funOk g = s.funOk g :=
  congrArg (bit · g) (State.fld_setFld_other s _ _ _ (by simp [Fld.fits]) (by simp [Fld.apart]))

end

/-! ## A function in a pavilion cycle -/

section
variable (s : State) {a : Nat} (hbt : ∀ b, a ≠ Reg.PVM_BT b) (hbrk : a ≠ Reg.PVM_BRK) (hirq : a ≠ Reg.PVM_IRQ) (hlost : a ≠ Reg.EVL_LOST)
include hbt hbrk hirq hlost

/-- The end of a holding test writes PVM_BT of its brake, PVM_BRK and PVM_IRQ, and logs. -/
theorem State.rd_brkTestEnd (b code : Nat) : (s.brkTestEnd b code).rd a = s.rd a := by
  have hshown (u : State) : (((u.setFld (F.PVM_BT_RUNNING b) 0).setFld (F.PVM_BT_LAST b) code).pvmIrq 2).rd a = u.rd a :=
    (State.rd_setRbit_other _ _ _ hirq).trans ((State.rd_setFld_other _ _ _ (hbt b)).trans (State.rd_setFld_other _ _ _ (hbt b)))
  unfold State.brkTestEnd
  cases hx : (s.brkOf b).test with
  | none => simp only [hx]
  | some t =>
    simp only [hx]
    split
    · rw [State.rd_log _ _ _ _ hlost, State.rd_setFld_other _ _ _ (hbt b), State.rd_setFldBit_other _ _ _ _ hbrk,
        State.rd_setFldBit_other _ _ _ _ hbrk, hshown, State.rd_setBrk]
    · rw [State.rd_log _ _ _ _ hlost, hshown, State.rd_setBrk]

theorem State.rd_demandTests (f : Nat) : (s.demandTests f).rd a = s.rd a := by
  unfold State.demandTests
  refine fold_field (fun u => u.rd a) (fun u b => ?_) _ _
  split
  · split
    · exact State.rd_brkTestEnd u hbt hbrk hirq hlost b 4
    · rfl
  · rfl

end

/-- Whether a function is satisfied (R413): its conditions hold and, for MANUAL reset, its latch is clear. -/
def State.funSat (s : State) (f : Nat) : Bool := s.funConds f && !(s.par (offFun f) 20 1 == 1 && s.funLatch f)

/-- What a demand does: it sets the latch of a function with MANUAL reset, logs 0x0D21, and aborts the holding tests it covers. -/
def State.funDemand (s : State) (f : Nat) : State :=
  (((if s.par (offFun f) 20 1 == 1 then s.setFldBit F.PVM_FUNC_LATCH f true else s).log 0x0D21 0 f).pvmIrq 1).demandTests f

theorem State.funCycle_eq (s : State) (f : Nat) : s.funCycle f = if s.funOk f && !s.funSat f && s.pvm.evald then
    (s.setFldBit F.PVM_FUNC_OK f (s.funSat f)).funDemand f else s.setFldBit F.PVM_FUNC_OK f (s.funSat f) := (rfl)

/-- But for the latch a demand leaves PVM_FUNC as it was. -/
theorem State.rd_funDemand (s : State) (f : Nat) : (s.funDemand f).rd Reg.PVM_FUNC =
    (if s.par (offFun f) 20 1 == 1 then s.setFldBit F.PVM_FUNC_LATCH f true else s).rd Reg.PVM_FUNC := by
  unfold State.funDemand
  rw [State.rd_demandTests _ (fun b => by simp only [Reg.PVM_FUNC, Reg.PVM_BT]; omega) (by decide) (by decide) (by decide)]
  exact (State.rd_setRbit_other _ _ _ (by decide)).trans (State.rd_log _ _ _ _ (by decide))

theorem State.funOk_funDemand (s : State) (f : Nat) : (s.funDemand f).funOk f = s.funOk f := by
  rw [State.funOk_congr _ (s.rd_funDemand f)]
  split
  · exact State.funOk_setLatch s true f
  · rfl

theorem State.funLatch_funDemand (s : State) {f : Nat} (hf : f < 4) (hm : s.par (offFun f) 20 1 = 1) : (s.funDemand f).funLatch f = true := by
  rw [State.funLatch_congr _ (s.rd_funDemand f), if_pos (by simp [hm])]
  exact State.funLatch_setLatch s true hf

/-- After a cycle OK shows whether the function was satisfied, with a demand and without. -/
theorem State.funOk_funCycle (s : State) {f : Nat} (hf : f < 4) : (s.funCycle f).funOk f = s.funSat f := by
  rw [State.funCycle_eq]
  split
  · rw [State.funOk_funDemand, State.funOk_setOk s _ hf]
  · rw [State.funOk_setOk s _ hf]

theorem State.funLatch_funCycle_demand {s : State} {f : Nat} (hf : f < 4) (hm : s.par (offFun f) 20 1 = 1) (hok : s.funOk f = true)
    (hsat : s.funSat f = false) (hev : s.pvm.evald = true) : (s.funCycle f).funLatch f = true := by
  rw [State.funCycle_eq, if_pos (by simp [hok, hsat, hev])]
  exact State.funLatch_funDemand _ hf hm

theorem State.funSat_of_conds {s : State} {f : Nat} (h : s.funConds f = false) : s.funSat f = false := by
  unfold State.funSat; rw [h, Bool.false_and]

theorem State.funSat_of_latch {s : State} {f : Nat} (hm : s.par (offFun f) 20 1 = 1) (hl : s.funLatch f = true) : s.funSat f = false := by
  simp [State.funSat, hm, hl]

theorem State.funSat_auto {s : State} {f : Nat} (hm : s.par (offFun f) 20 1 = 0) : s.funSat f = s.funConds f := by
  simp [State.funSat, hm]

/-! ## The RESET pulse -/

/-- The state with the noted RESET pulse of a function taken. -/
def State.takeReset (s : State) (f : Nat) : State := s.setPvm { s.pvm with resets := s.pvm.resets.filter (fun x => x != f) }

/-- Every input of a function has safe value 1. -/
def State.inputsSafe (s : State) (f : Nat) : Prop := ∀ i, i < 16 → bit (s.par (offFun f) 0 16) i = true → s.rbit Reg.PVM_SIN i = true

section
variable {s : State} {f : Fin 4}

theorem exec_functionResetPulse_none (h : f.val ∉ s.pvm.resets) : exec (.functionResetPulse f) s = .next s := by
  change execFunctionResetPulse f () s = _
  unfold execFunctionResetPulse
  exact if_pos (by simp [h])

/-- A pulse noted is taken, and clears the latch exactly where the function is latched and its inputs are safe. -/
theorem exec_functionResetPulse_noted [Decidable (s.inputsSafe f)] (h : f.val ∈ s.pvm.resets) : exec (.functionResetPulse f) s =
    .next (if s.funLatch f = true ∧ s.inputsSafe f then ((s.takeReset f).setFldBit F.PVM_FUNC_LATCH f false).log 0x0D22 0 f else s.takeReset f) := by
  have hsafe : ((List.range 16).all (fun i => !bit (s.par (offFun f) 0 16) i || s.rbit Reg.PVM_SIN i) = true) ↔ s.inputsSafe f := by
    simp [State.inputsSafe, imp_iff_not_or]
  change execFunctionResetPulse f () s = _
  unfold execFunctionResetPulse
  rw [if_neg (by simp [h])]
  refine Eq.trans ?_ (apply_ite Host.Outcome.next _ _ _).symm
  exact if_congr (and_congr_right' hsafe) rfl rfl

theorem exec_functionResetPulse_clears (h : f.val ∈ s.pvm.resets) (hl : s.funLatch f = true) (hs : s.inputsSafe f) :
    exec (.functionResetPulse f) s = .next (((s.takeReset f).setFldBit F.PVM_FUNC_LATCH f false).log 0x0D22 0 f) := by
  classical
  rw [exec_functionResetPulse_noted h, if_pos ⟨hl, hs⟩]

/-- A pulse finds an input without safe value 1: the latch stays, and no event comes. -/
theorem functionResetPulse_unsafe (hs : ¬ s.inputsSafe f) : Gives (.functionResetPulse f) s (fun t =>
    t.funLatch f = s.funLatch f ∧ t.evl = s.evl ∧ SameMem s t ∧ RegsKept s t []) := by
  classical
  by_cases h : f.val ∈ s.pvm.resets
  · exact ⟨s.takeReset f, by rw [exec_functionResetPulse_noted h, if_neg (fun hc => hs hc.2)], rfl, rfl, fun _ => rfl, RegsKept.refl s _⟩
  · exact ⟨s, exec_functionResetPulse_none h, rfl, rfl, fun _ => rfl, RegsKept.refl s _⟩

/-- A noted pulse with every input safe clears the latch and logs 0x0D22. -/
theorem functionResetPulse_clears (h : f.val ∈ s.pvm.resets) (hl : s.funLatch f = true) (hs : s.inputsSafe f) :
    Gives (.functionResetPulse f) s (fun t => t.funLatch f = false ∧ Logs s t 0x0D22 0 f ∧ t.funOk f = s.funOk f ∧ SameMem s t ∧
      f.val ∉ t.pvm.resets ∧ RegsKept s t [Reg.PVM_FUNC, Reg.EVL_LOST]) := by
  have hrd : (((s.takeReset f).setFldBit F.PVM_FUNC_LATCH f false).log 0x0D22 0 f).rd Reg.PVM_FUNC =
      ((s.takeReset f).setFldBit F.PVM_FUNC_LATCH f false).rd Reg.PVM_FUNC := State.rd_log _ _ _ _ (by decide)
  refine ⟨_, exec_functionResetPulse_clears h hl hs, ?_, logs_log _ _ _ rfl, ?_, SameMem.of_mem_eq (State.log_mem ..), ?_, ?_⟩
  · exact (State.funLatch_congr _ hrd f).trans (State.funLatch_setLatch _ false f.isLt)
  · exact (State.funOk_congr _ hrd f).trans (State.funOk_setLatch _ false f)
  · simp [State.takeReset]
  · exact (((RegsKept.refl s _).setPvm _).setFldBit f false (by simp)).log _ _ _ (by simp)

end

/-- At the falling edge of a RESET input a pulse of 0.1 s to 5 s is noted for the input's functions, and no other pulse is. -/
theorem State.resets_sinEdge_fall (s : State) (i : Nat) : (s.sinEdge i false).pvm.resets =
    if s.lasted (s.sinOf i).rose (100 * cycPerMs) && decide (s.time.cycle ≤ (s.sinOf i).rose + 5000 * cycPerMs) then
      s.pvm.resets ++ s.resetFuns i else s.pvm.resets := by
  unfold State.sinEdge
  simp only [Bool.not_false, Bool.true_and]
  split <;> rfl

theorem State.resets_sinEdge_pulse {s : State} {i : Nat} (hlo : (s.sinOf i).rose + 100 * cycPerMs ≤ s.time.cycle)
    (hhi : s.time.cycle ≤ (s.sinOf i).rose + 5000 * cycPerMs) : (s.sinEdge i false).pvm.resets = s.pvm.resets ++ s.resetFuns i := by
  rw [State.resets_sinEdge_fall, if_pos (by rw [State.lasted_of_le hlo, decide_eq_true hhi, Bool.and_self])]

theorem State.resets_sinEdge_short {s : State} {i : Nat} (h : s.time.cycle < (s.sinOf i).rose + 100 * cycPerMs) :
    (s.sinEdge i false).pvm.resets = s.pvm.resets := by
  rw [State.resets_sinEdge_fall, State.lasted_of_lt h]; rfl

theorem State.resets_sinEdge_long {s : State} {i : Nat} (h : (s.sinOf i).rose + 5000 * cycPerMs < s.time.cycle) :
    (s.sinEdge i false).pvm.resets = s.pvm.resets := by
  rw [State.resets_sinEdge_fall, decide_eq_false (Nat.not_le.mpr h), Bool.and_false]; rfl

/-- Settles O12: OK follows `funSat` in each cycle, a demand latches, and a RESET pulse in its range, over safe inputs only, clears the latch. -/
theorem functionLatch : Obligations.FunctionLatch := by
  unfold Obligations.FunctionLatch
  refine ⟨fun s f hf hm hok hc hev => ⟨?_, ?_⟩, fun s f hf hm hl _ => ?_, fun s f hl hs => ⟨fun hr => ?_, exec_functionResetPulse_none⟩,
    fun s f i hi hb hv => ?_, fun s i _ t ht => ?_, fun s f hf hm => ?_⟩
  · exact State.funLatch_funCycle_demand hf hm hok (State.funSat_of_conds hc) hev
  · rw [State.funOk_funCycle s hf, State.funSat_of_conds hc]
  · rw [State.funOk_funCycle s hf, State.funSat_of_latch hm hl]
  · exact functionResetPulse_clears hr hl hs
  · exact functionResetPulse_unsafe fun hs => by rw [hs i hi hb] at hv; cases hv
  · subst ht
    exact ⟨fun hlo hle hhi => State.resets_sinEdge_pulse (by omega) hhi, fun h => h.elim State.resets_sinEdge_short State.resets_sinEdge_long⟩
  · rw [State.funOk_funCycle s hf, State.funSat_auto hm]

end Sys2Proof.Machine

/-! PROOFS. Confirmation of a start (R544): what START_OK leaves, and which writes of RPC_START reach it. -/

namespace Sys2Proof.Machine

theorem RegsKept.setRpc {s t : State} {l : List Nat} (h : RegsKept s t l) (r : RpcState) : RegsKept s (t.setRpc r) l := h

/-- The state with its start confirmed and the start timer stopped, before the event. -/
def State.startConfirmed (s : State) : State :=
  ((s.setFld F.RPC_START_UNCONF 0).setFld F.RPC_START_CONFIRMED 1).setRpc { s.rpc with timer := false }

@[simp] theorem State.startConfirmed_evl (s : State) : s.startConfirmed.evl = s.evl := by simp [State.startConfirmed]
@[simp] theorem State.startConfirmed_mem (s : State) : s.startConfirmed.mem = s.mem := by simp [State.startConfirmed]

/-- The state START_OK leaves: the event carries the count of unconfirmed starts that the write cleared. -/
def State.confirmStart (s : State) : State := s.startConfirmed.log 0x0117 0 (s.fld F.RPC_START_UNCONF)

theorem exec_startOk (s : State) : exec .startOk s = .next s.confirmStart := (rfl)

/-- The register window confirms a start only for AC_0, and only where the write sets START_OK; it drops every other write of RPC_START. -/
theorem State.regWrite_rpcStart (s : State) (m : Nat) (d : RegDesc) (v : Nat) :
    s.regWrite m d Reg.RPC_START v = if m = 0 ∧ v % 2 = 1 then s.confirmStart else s := (rfl)

/-- UNCONF and CONFIRMED share RPC_START, so the second write must leave the first field alone. -/
theorem State.startConfirmed_flds (s : State) :
    s.startConfirmed.fld F.RPC_START_UNCONF = 0 ∧ s.startConfirmed.flag F.RPC_START_CONFIRMED = true := by
  have hrd : s.startConfirmed.rd Reg.RPC_START = ((s.setFld F.RPC_START_UNCONF 0).setFld F.RPC_START_CONFIRMED 1).rd Reg.RPC_START :=
    State.rd_setRpc ..
  refine ⟨(State.fld_congr hrd).trans ?_, (State.flag_congr hrd).trans ?_⟩
  · rw [State.fld_setFld_other _ _ _ _ (by simp [Fld.fits]) (by simp [Fld.apart]), State.fld_setFld_self _ _ _ (by simp [Fld.fits]), Nat.zero_mod]
  · exact State.flag_setFld_self _ F.RPC_START_CONFIRMED true (by simp [Fld.fits]) rfl

/-- R544: a confirmed start has UNCONF 0, CONFIRMED set, its timer stopped and 0x0117 logged; of memory and the other registers only the count of
lost events may change. -/
theorem State.confirmStart_spec (s : State) :
    s.confirmStart.fld F.RPC_START_UNCONF = 0 ∧ s.confirmStart.flag F.RPC_START_CONFIRMED = true ∧
      s.confirmStart.rpc = { s.rpc with timer := false } ∧ Logs s s.confirmStart 0x0117 0 (s.fld F.RPC_START_UNCONF) ∧
      SameMem s s.confirmStart ∧ RegsKept s s.confirmStart [Reg.RPC_START, Reg.EVL_LOST] := by
  unfold State.confirmStart
  have hrd := State.rd_log s.startConfirmed 0x0117 0 (s.fld F.RPC_START_UNCONF) (a := Reg.RPC_START) (by decide)
  obtain ⟨hunconf, hconf⟩ := s.startConfirmed_flds
  refine ⟨(State.fld_congr hrd).trans hunconf, (State.flag_congr hrd).trans hconf, State.log_rpc .., logs_log _ _ _ s.startConfirmed_evl,
    SameMem.of_mem_eq ((mem_log ..).trans s.startConfirmed_mem), ?_⟩
  exact ((((RegsKept.refl s _).setFld 0 (by simp)).setFld 1 (by simp)).setRpc _).log _ _ _ (by simp)

/-- Settles O13: START_OK is `confirmStart_spec`, and by `regWrite_rpcStart` the window reaches it for AC_0 and ignores every other master. -/
theorem startConfirmation : Obligations.StartConfirmation := by
  unfold Obligations.StartConfirmation
  refine ⟨fun s => ?_, fun s m v d hm => ?_, fun s v d hv => ?_⟩
  · obtain ⟨hunconf, -, hrpc, hlog, hmem, hregs⟩ := s.confirmStart_spec
    exact ⟨s.confirmStart, exec_startOk s, hunconf, hrpc, hlog, hmem, hregs⟩
  · rw [State.regWrite_rpcStart, if_neg fun h => hm h.1]
  · rw [exec_startOk, State.regWrite_rpcStart, if_pos ⟨rfl, hv⟩]

end Sys2Proof.Machine

/-! PROOFS. What each update of the state leaves as it was, stated once for the readers of registers and for the log, so that `simp` carries a
read, a frame or a logged event through any chain of updates. -/

namespace Sys2Proof.Machine

/-! ## Updates that leave the registers alone -/

/-- Every reader of the register file reads in `t` what it reads in `s`. -/
abbrev SameRegs (t s : State) : Prop :=
  (∀ f, t.fld f = s.fld f) ∧ (∀ f, t.flag f = s.flag f) ∧ (∀ a, t.num a = s.num a) ∧ (∀ a i, t.rbit a i = s.rbit a i) ∧
    (∀ lo hi, t.num64 lo hi = s.num64 lo hi) ∧ ∀ r l, RegsKept r t l ↔ RegsKept r s l

/-- An event is logged in `t` exactly where it is in `s`. -/
abbrev SameLog (t s : State) : Prop := ∀ r c x d, Logs r t c x d ↔ Logs r s c x d

/-- The update from `s` to `t` is seen neither by a register nor by the log. -/
abbrev Quiet (t s : State) : Prop := SameRegs t s ∧ SameLog t s

theorem SameRegs.of_rd {t s : State} (h : ∀ a, t.rd a = s.rd a) : SameRegs t s := by
  have hn (a : Nat) : t.num a = s.num a := congrArg BitVec.toNat (h a)
  refine ⟨fun f => State.fld_congr (h _), fun f => State.flag_congr (h _), hn, fun a i => ?_, fun lo hi => ?_, fun r l => ?_⟩
  · unfold State.rbit; rw [hn]
  · unfold State.num64; rw [hn, hn]
  · unfold RegsKept; simp only [h]

theorem SameLog.of_eq {t s : State} (he : t.evl = s.evl) (ht : t.time = s.time) : SameLog t s := by
  intro r c x d
  unfold Logs State.event State.now
  rw [he, ht]

theorem Quiet.of_eq {t s : State} (h : ∀ a, t.rd a = s.rd a) (he : t.evl = s.evl) (ht : t.time = s.time) : Quiet t s :=
  ⟨.of_rd h, .of_eq he ht⟩

@[simp] theorem regsKept_self (s : State) (l : List Nat) : RegsKept s s l := fun _ _ => rfl

section
variable (s : State)

@[simp] theorem State.quiet_setCourse (n : Nat) (c : Course) : Quiet (s.setCourse n c) s := .of_eq (fun _ => rfl) rfl rfl
@[simp] theorem State.quiet_setTab (m : Nat) (t : CatchTab) : Quiet (s.setTab m t) s := .of_eq (fun _ => rfl) rfl rfl
@[simp] theorem State.quiet_setDin (n : Nat) (d : Din) : Quiet (s.setDin n d) s := .of_eq (fun _ => rfl) rfl rfl
@[simp] theorem State.quiet_setCox (n : Nat) (c : CoxState) : Quiet (s.setCox n c) s := .of_eq (fun _ => rfl) rfl rfl
@[simp] theorem State.quiet_setConv (k : Nat) (c : Conv) : Quiet (s.setConv k c) s := .of_eq (fun _ => rfl) rfl rfl
@[simp] theorem State.quiet_setPair (p : Nat) (x : Pair) : Quiet (s.setPair p x) s := .of_eq (fun _ => rfl) rfl rfl
@[simp] theorem State.quiet_setPlk (p : PlkState) : Quiet (s.setPlk p) s := .of_eq (fun _ => rfl) rfl rfl
@[simp] theorem State.quiet_emit (e : Emit) : Quiet (s.emit e) s := .of_eq (fun _ => rfl) rfl rfl
@[simp] theorem State.quiet_setHealthRec (r : Res) (h : HealthRec) : Quiet (s.setHealthRec r h) s := .of_eq (fun _ => rfl) rfl rfl
@[simp] theorem State.quiet_setLpe (n : Nat) (e : LpeState) : Quiet (s.setLpe n e) s := .of_eq (fun _ => rfl) rfl rfl
@[simp] theorem State.quiet_setLsm (n : Nat) (x : LsmState) : Quiet (s.setLsm n x) s := .of_eq (fun _ => rfl) rfl rfl
@[simp] theorem State.quiet_setAxis (a : Nat) (x : Axis) : Quiet (s.setAxis a x) s := .of_eq (fun _ => rfl) rfl rfl
@[simp] theorem State.quiet_setEnc (g : Nat) (e : Enc) : Quiet (s.setEnc g e) s := .of_eq (fun _ => rfl) rfl rfl
@[simp] theorem State.quiet_setRce (r : RecState) : Quiet (s.setRce r) s := .of_eq (fun _ => rfl) rfl rfl
@[simp] theorem State.quiet_setSeq (q : SeqState) : Quiet (s.setSeq q) s := .of_eq (fun _ => rfl) rfl rfl
@[simp] theorem State.quiet_setClo (n : Nat) (c : Clo) : Quiet (s.setClo n c) s := .of_eq (fun _ => rfl) rfl rfl
@[simp] theorem State.quiet_setVdr (n : Nat) (v : Vdr) : Quiet (s.setVdr n v) s := .of_eq (fun _ => rfl) rfl rfl
@[simp] theorem State.quiet_setPvm (p : PvmState) : Quiet (s.setPvm p) s := .of_eq (fun _ => rfl) rfl rfl
@[simp] theorem State.quiet_setCyc (c : CycState) : Quiet (s.setCyc c) s := .of_eq (fun _ => rfl) rfl rfl
@[simp] theorem State.quiet_setIml (i : ImlState) : Quiet (s.setIml i) s := .of_eq (fun _ => rfl) rfl rfl
@[simp] theorem State.quiet_setCan (n : Nat) (c : CanState) : Quiet (s.setCan n c) s := .of_eq (fun _ => rfl) rfl rfl
@[simp] theorem State.quiet_setEth (n : Nat) (e : EthState) : Quiet (s.setEth n e) s := .of_eq (fun _ => rfl) rfl rfl
@[simp] theorem State.quiet_setPrp (p : Nat) (x : PrpState) : Quiet (s.setPrp p x) s := .of_eq (fun _ => rfl) rfl rfl
@[simp] theorem State.quiet_setRra (r : RraState) : Quiet (s.setRra r) s := .of_eq (fun _ => rfl) rfl rfl
@[simp] theorem State.quiet_setVlt (v : VltState) : Quiet (s.setVlt v) s := .of_eq (fun _ => rfl) rfl rfl
@[simp] theorem State.quiet_setRpc (r : RpcState) : Quiet (s.setRpc r) s := .of_eq (fun _ => rfl) rfl rfl
@[simp] theorem State.quiet_setFwl (f : FwlState) : Quiet (s.setFwl f) s := .of_eq (fun _ => rfl) rfl rfl
@[simp] theorem State.quiet_setBus (b : BusResp) : Quiet (s.setBus b) s := .of_eq (fun _ => rfl) rfl rfl
@[simp] theorem State.quiet_setMig (m : Option Migration) : Quiet (s.setMig m) s := .of_eq (fun _ => rfl) rfl rfl
@[simp] theorem State.quiet_setImg (t : ImgTables) : Quiet (s.setImg t) s := .of_eq (fun _ => rfl) rfl rfl
@[simp] theorem State.quiet_setCal (c : Cal) : Quiet (s.setCal c) s := .of_eq (fun _ => rfl) rfl rfl
@[simp] theorem State.quiet_setOwRun (l : List (Nat × Nat)) : Quiet (s.setOwRun l) s := .of_eq (fun _ => rfl) rfl rfl
@[simp] theorem State.quiet_setOwed (l : List HeldAcc) : Quiet (s.setOwed l) s := .of_eq (fun _ => rfl) rfl rfl
@[simp] theorem State.quiet_setInflight (l : List Catch) : Quiet (s.setInflight l) s := .of_eq (fun _ => rfl) rfl rfl
@[simp] theorem State.quiet_setClaimed (l : List Nat) : Quiet (s.setClaimed l) s := .of_eq (fun _ => rfl) rfl rfl
@[simp] theorem State.quiet_setLatch (l : List (Nat × Word)) : Quiet (s.setLatch l) s := .of_eq (fun _ => rfl) rfl rfl
@[simp] theorem State.quiet_setWire (l : List Emit) : Quiet (s.setWire l) s := .of_eq (fun _ => rfl) rfl rfl
@[simp] theorem State.quiet_setDmaLast (l : List (Nat × Nat)) : Quiet (s.setDmaLast l) s := .of_eq (fun _ => rfl) rfl rfl
@[simp] theorem State.quiet_setHealthX (l : List (Nat × Health)) : Quiet (s.setHealthX l) s := .of_eq (fun _ => rfl) rfl rfl
@[simp] theorem State.quiet_setMotHeld (l : List (Nat × MotHeld)) : Quiet (s.setMotHeld l) s := .of_eq (fun _ => rfl) rfl rfl
@[simp] theorem State.quiet_setAxes (l : List (Nat × Axis)) : Quiet (s.setAxes l) s := .of_eq (fun _ => rfl) rfl rfl
@[simp] theorem State.quiet_takeFresh (n : Nat) : Quiet (s.takeFresh n) s := .of_eq (fun _ => rfl) rfl rfl
@[simp] theorem State.quiet_setDma (n ch : Nat) (d : DmaChan) : Quiet (s.setDma n ch d) s := .of_eq (fun _ => rfl) rfl rfl
@[simp] theorem State.quiet_setRmv (c : Nat) (x : RmvChan) : Quiet (s.setRmv c x) s := .of_eq (fun _ => rfl) rfl rfl
@[simp] theorem State.quiet_setSlot (r : Nat) (x : SeqSlot) : Quiet (s.setSlot r x) s := .of_eq (fun _ => rfl) rfl rfl
@[simp] theorem State.quiet_setCap (c : Nat) (x : Cap) : Quiet (s.setCap c x) s := .of_eq (fun _ => rfl) rfl rfl
@[simp] theorem State.quiet_setTrg (t : Nat) (h : TrgHist) : Quiet (s.setTrg t h) s := .of_eq (fun _ => rfl) rfl rfl
@[simp] theorem State.quiet_setSin (i : Nat) (x : Sin) : Quiet (s.setSin i x) s := .of_eq (fun _ => rfl) rfl rfl
@[simp] theorem State.quiet_setBrk (b : Nat) (x : Brk) : Quiet (s.setBrk b x) s := .of_eq (fun _ => rfl) rfl rfl
@[simp] theorem State.quiet_setConn (k : Nat) (x : SConn) : Quiet (s.setConn k x) s := .of_eq (fun _ => rfl) rfl rfl
@[simp] theorem State.quiet_wrByte (a : Nat) (v : Byte) : Quiet (s.wrByte a v) s := .of_eq (fun _ => rfl) rfl rfl
@[simp] theorem State.sameRegs_setTime (t : TimeState) : SameRegs (s.setTime t) s := .of_rd fun _ => rfl
@[simp] theorem State.sameRegs_setEvl (e : EvlState) : SameRegs (s.setEvl e) s := .of_rd fun _ => rfl
@[simp] theorem State.quiet_wrMem (a n v : Nat) : Quiet (s.wrMem a n v) s := .of_eq (rd_wrMem s a n v) (evl_wrMem ..) (time_wrMem ..)
@[simp] theorem State.quiet_wrList (a : Nat) (l : List Nat) : Quiet (s.wrList a l) s := .of_eq (rd_wrList l s a) (evl_wrList ..) (time_wrList ..)
@[simp] theorem State.quiet_copyMem (a b n : Nat) : Quiet (s.copyMem a b n) s := .of_eq (fun _ => rfl) rfl rfl
@[simp] theorem State.quiet_clearMem (a n : Nat) : Quiet (s.clearMem a n) s := .of_eq (fun _ => rfl) rfl rfl
@[simp] theorem State.quiet_recModule (c w : Nat) (m : List (Nat × Nat)) : Quiet (s.recModule c w m) s :=
  .of_eq (rd_recModule s c w m) (evl_recModule ..) (time_recModule ..)

end

/-! ## Updates that write one register -/

/-- Every reader of a register other than the one at `a` reads in `t` what it reads in `s`. -/
abbrev RegsBut (a : Nat) (t s : State) : Prop :=
  (∀ f, f.addr ≠ a → t.fld f = s.fld f) ∧ (∀ f, f.addr ≠ a → t.flag f = s.flag f) ∧ (∀ b, b ≠ a → t.num b = s.num b) ∧
    (∀ b i, b ≠ a → t.rbit b i = s.rbit b i) ∧ (∀ b, b ≠ a → t.rd b = s.rd b) ∧
    (∀ lo hi, lo ≠ a → hi ≠ a → t.num64 lo hi = s.num64 lo hi) ∧ ∀ r l, a ∈ l → (RegsKept r t l ↔ RegsKept r s l)

theorem RegsBut.of_rd {a : Nat} {t s : State} (h : ∀ b, b ≠ a → t.rd b = s.rd b) : RegsBut a t s := by
  have hn {b : Nat} (hb : b ≠ a) : t.num b = s.num b := congrArg BitVec.toNat (h b hb)
  refine ⟨fun f hf => State.fld_congr (h _ hf), fun f hf => State.flag_congr (h _ hf), fun b => hn, fun b i hb => ?_, h, fun lo hi hl hh => ?_,
    fun r l hl => forall₂_congr fun b hb => ?_⟩
  · unfold State.rbit; rw [hn hb]
  · unfold State.num64; rw [hn hl, hn hh]
  · rw [h b (ne_of_mem_of_not_mem hl hb).symm]

section
variable (s : State)

@[simp] theorem State.regsBut_wr (a : Nat) (v : Word) : RegsBut a (s.wr a v) s := .of_rd fun _ => State.rd_wr_other s v
@[simp] theorem State.regsBut_setNum (a v : Nat) : RegsBut a (s.setNum a v) s := .of_rd fun _ => State.rd_wr_other s _
@[simp] theorem State.regsBut_setFld (f : Fld) (v : Nat) : RegsBut f.addr (s.setFld f v) s := .of_rd fun _ => State.rd_wr_other s _
@[simp] theorem State.regsBut_countFld (f : Fld) (n : Nat) : RegsBut f.addr (s.countFld f n) s := .of_rd fun _ => State.rd_wr_other s _
@[simp] theorem State.regsBut_setRbit (a i : Nat) (b : Bool) : RegsBut a (s.setRbit a i b) s := .of_rd fun _ => State.rd_wr_other s _
@[simp] theorem State.regsBut_count (a n : Nat) : RegsBut a (s.count a n) s := .of_rd fun _ => State.rd_wr_other s _
@[simp] theorem State.regsBut_log (c x d : Nat) : RegsBut Reg.EVL_LOST (s.log c x d) s := .of_rd fun _ => State.rd_log s c x d
@[simp] theorem State.regsBut_logIf (b : Bool) (c x d : Nat) : RegsBut Reg.EVL_LOST (s.logIf b c x d) s := .of_rd fun _ => State.rd_logIf s b c x d
@[simp] theorem State.regsBut_accept (e : Event) : RegsBut Reg.EVL_LOST (s.accept e) s := .of_rd fun _ => State.rd_accept s e

@[simp] theorem State.sameLog_wr (a : Nat) (v : Word) : SameLog (s.wr a v) s := .of_eq rfl rfl
@[simp] theorem State.sameLog_setNum (a v : Nat) : SameLog (s.setNum a v) s := .of_eq rfl rfl
@[simp] theorem State.sameLog_setFld (f : Fld) (v : Nat) : SameLog (s.setFld f v) s := .of_eq rfl rfl
@[simp] theorem State.sameLog_countFld (f : Fld) (n : Nat) : SameLog (s.countFld f n) s := .of_eq rfl rfl
@[simp] theorem State.sameLog_setRbit (a i : Nat) (b : Bool) : SameLog (s.setRbit a i b) s := .of_eq rfl rfl
@[simp] theorem State.sameLog_count (a n : Nat) : SameLog (s.count a n) s := .of_eq rfl rfl

/-! ## What a written register reads -/

variable {f g : Fld}

@[simp] theorem State.fld_setFld_same (v : Nat) (h : f.lo + f.width ≤ 32) : (s.setFld f v).fld f = v % 2 ^ f.width := State.fld_setFld_self s f v h

/-- Of two fields of one register the one not written keeps its value. -/
@[simp] theorem State.fld_setFld_apart (v : Nat) (h : f.lo + f.width ≤ 32) (hg : f.lo + f.width ≤ g.lo ∨ g.lo + g.width ≤ f.lo) :
    (s.setFld f v).fld g = s.fld g := State.fld_setFld_other s f g v h (.inr hg)

@[simp] theorem State.flag_setFld_same (v : Nat) (h : f.lo + f.width ≤ 32) : (s.setFld f v).flag f = (v % 2 ^ f.width == 1) := by
  unfold State.flag; rw [State.fld_setFld_same s v h]

@[simp] theorem State.flag_setFld_apart (v : Nat) (h : f.lo + f.width ≤ 32) (hg : f.lo + f.width ≤ g.lo ∨ g.lo + g.width ≤ f.lo) :
    (s.setFld f v).flag g = s.flag g := by
  unfold State.flag; rw [State.fld_setFld_apart s v h hg]

@[simp] theorem State.rbit_setRbit_same (a : Nat) {i : Nat} (b : Bool) (h : i < 32) : (s.setRbit a i b).rbit a i = b := s.rbit_setRbit_self a b h
@[simp] theorem State.rbit_setRbit_apart (a : Nat) {i j : Nat} (b : Bool) (h : j < 32) (hj : j ≠ i) : (s.setRbit a i b).rbit a j = s.rbit a j :=
  s.rbit_setRbit_bit a b h hj
@[simp] theorem State.num_wr_same (a : Nat) (v : Word) : (s.wr a v).num a = v.toNat := by unfold State.num; rw [State.rd_wr_self]
@[simp] theorem State.num_count_same (a n : Nat) : (s.count a n).num a = satAdd 0xFFFFFFFF (s.num a) n := s.num_count_self a n
@[simp] theorem State.fld_countFld_same (n : Nat) (h : f.lo + f.width ≤ 32) :
    (s.countFld f n).fld f = satAdd (2 ^ f.width - 1) (s.fld f) n % 2 ^ f.width := State.fld_setFld_self s f _ h

@[simp] theorem State.fld_countFld_apart (n : Nat) (h : f.lo + f.width ≤ 32) (hg : f.lo + f.width ≤ g.lo ∨ g.lo + g.width ≤ f.lo) :
    (s.countFld f n).fld g = s.fld g := State.fld_setFld_apart s _ h hg
@[simp] theorem State.flag_countFld_apart (n : Nat) (h : f.lo + f.width ≤ 32) (hg : f.lo + f.width ≤ g.lo ∨ g.lo + g.width ≤ f.lo) :
    (s.countFld f n).flag g = s.flag g := State.flag_setFld_apart s _ h hg

/-- Two registers written as one number read back as that number. -/
@[simp] theorem State.num64_setNum64_same {lo hi : Nat} (v : Nat) (h : lo ≠ hi) : (s.setNum64 lo hi v).num64 lo hi = v % 2 ^ 64 := by
  unfold State.setNum64 State.num64 State.num
  rw [State.rd_setNum_other _ _ h]
  change State.num _ _ + 2 ^ 32 * State.num _ _ = _
  rw [State.num_setNum_self, State.num_setNum_self]
  omega

/-! ## Memory -/

theorem SameMem.of_eq {s t : State} (h : t.mem = s.mem) : SameMem s t := rdByte_of_mem h
@[simp] theorem sameMem_self : SameMem s s := fun _ => rfl

/-- The event just logged is in the log, if the updates before it logged at most 15 others. -/
theorem Logs.log_self {s t : State} {c x d : Nat} (h : t.evl.queue.length ≤ s.evl.queue.length + 15) : Logs s (t.log c x d) c x d := by
  intro hq
  refine log_self' c x d ?_ (by omega)
  unfold State.event State.now
  rw [time_log]

/-- A logged event stays while the queue has room for the next. -/
theorem Logs.log_other {s t : State} {c x d : Nat} (h : t.evl.queue.length ≤ s.evl.queue.length + 15) (hl : Logs s t c x d) (c' x' d' : Nat) :
    Logs s (t.log c' x' d') c x d := by
  intro hq
  have he : (t.log c' x' d').event c x d = t.event c x d := by unfold State.event State.now; rw [time_log]
  rw [he]
  exact log_mem_of _ _ _ (by omega) (hl hq)

end

/-! ## Folds -/

/-- A fold whose steps all replace one part of the state replaces that part. -/
theorem foldl_replaces {α β σ : Type} {f : σ → α → σ} {upd : σ → β → σ} (hself : ∀ s, ∃ b, upd s b = s) (hstep : ∀ s x, ∃ b, f s x = upd s b)
    (hupd : ∀ s a b, upd (upd s a) b = upd s b) (l : List α) (s : σ) : ∃ b, l.foldl f s = upd s b := by
  induction l generalizing s with
  | nil => exact (hself s).imp fun _ h => h.symm
  | cons x l ih =>
    obtain ⟨a, ha⟩ := hstep s x
    obtain ⟨b, hb⟩ := ih (upd s a)
    exact ⟨b, by rw [List.foldl_cons, ha, hb, hupd]⟩

/-- A fold that no element of the list changes. -/
theorem foldl_eq_self {α σ : Type} {f : σ → α → σ} {s : σ} {l : List α} (h : ∀ x ∈ l, f s x = s) : l.foldl f s = s := by
  induction l with
  | nil => rfl
  | cons x l ih => rw [List.foldl_cons, h x (by simp), ih fun y hy => h y (by simp [hy])]

end Sys2Proof.Machine


/-! PROOFS. One step (R37; chapter 95): what it runs, what it keeps, and that it always answers. -/

namespace Sys2Proof.Machine

/-- Settles O1: by the definition of `step`. -/
theorem stepRunsTheFrontCommand : Obligations.StepRunsTheFrontCommand := fun _ _ _ => rfl

/-- Settles O2: `step` looks at the queue first. -/
theorem emptyQueueIdles : Obligations.EmptyQueueIdles := by
  unfold Obligations.EmptyQueueIdles
  intro s h
  unfold step
  rw [h]

/-- Settles O3: after reset memory is canonical, every register has its reset value, and nothing waits. -/
theorem resetIsSound : Obligations.ResetIsSound :=
  ⟨⟨Memory.wf_reset, by decide, by decide⟩, rfl⟩

/-! ## Soundness -/

/-- Every command keeps a sound state sound: each by the lemma of its own meaning. -/
theorem exec_sound (c : Instr) {s : State} (hs : s.Sound) : OutSound (exec c s) := by
  cases c with
  | registerWrite src a size v => exact execRegisterWrite_sound hs src a size v
  | memoryAccess src k a size v e task => exact execMemoryAccess_sound hs src k a size v e task
  | aliasAccess src k m mem o size v e => exact execAliasAccess_sound hs src k m mem o size v e
  | retryWindowElapsed r => exact execRetryWindowElapsed_sound hs r
  | readmitTestDone r code => exact execReadmitTestDone_sound hs r code
  | spareSelfTest => exact execSpareSelfTest_sound hs
  | spareSelfTestDone ok => exact execSpareSelfTestDone_sound hs ok
  | evlDrain => exact execEvlDrain_sound hs
  | evlDramEnable => exact execEvlDramEnable_sound hs
  | swEventRaise c subcode => exact execSwEventRaise_sound hs c subcode
  | swEventDetailWrite c v => exact execSwEventDetailWrite_sound hs c v
  | courseUpdate => exact execCourseUpdate_sound hs
  | catchIssue m => exact execCatchIssue_sound hs m
  | catchArrival m => exact execCatchArrival_sound hs m
  | mainsCrossing period peakMv => exact execMainsCrossing_sound hs period peakMv
  | mainsHoldoverTimeout c => exact execMainsHoldoverTimeout_sound hs c
  | ctRunWrite m run => exact execCtRunWrite_sound hs m run
  | ctGroupGo mask => exact execCtGroupGo_sound hs mask
  | timeBaseTick => exact execTimeBaseTick_sound hs
  | timeIncWrite v => exact execTimeIncWrite_sound hs v
  | timeSlewWrite v => exact execTimeSlewWrite_sound hs v
  | timeStepGo load => exact execTimeStepGo_sound hs load
  | timeStateWrite v => exact execTimeStateWrite_sound hs v
  | servoWdExpire => exact execServoWdExpire_sound hs
  | timeSnapshot => exact execTimeSnapshot_sound hs
  | aonTimeSnapshot => exact execAonTimeSnapshot_sound hs
  | ppsOutRise => exact execPpsOutRise_sound hs
  | ppsOutFall => exact execPpsOutFall_sound hs
  | ppsInEdge rising => exact execPpsInEdge_sound hs rising
  | ppsCaptureRead => exact execPpsCaptureRead_sound hs
  | dinRawEdge n level => exact execDinRawEdge_sound hs n level
  | dinQualify n => exact execDinQualify_sound hs n
  | dinFifoPop n => exact execDinFifoPop_sound hs n
  | imlStage => exact execImlStage_sound hs
  | imlVerifyDone c u => exact execImlVerifyDone_sound hs c u
  | imlCopyDone c u => exact execImlCopyDone_sound hs c u
  | imlActivate => exact execImlActivate_sound hs
  | imlReplace => exact execImlReplace_sound hs
  | imlAbort => exact execImlAbort_sound hs
  | replaceSpareLoaded => exact execReplaceSpareLoaded_sound hs
  | replaceSwitch => exact execReplaceSwitch_sound hs
  | coxTokenArrival m x k link t => exact execCoxTokenArrival_sound hs m x k link t
  | coxDispatch n can => exact execCoxDispatch_sound hs n can
  | coxRelease n x acq => exact execCoxRelease_sound hs n x acq
  | dpPop n c => exact execDpPop_sound hs n c
  | dpDone n c nres => exact execDpDone_sound hs n c nres
  | coxWindowEnd n => exact execCoxWindowEnd_sound hs n
  | coxClrTotals n => exact execCoxClrTotals_sound hs n
  | coxClrCtxCounts n => exact execCoxClrCtxCounts_sound hs n
  | coxClrDepthMax n => exact execCoxClrDepthMax_sound hs n
  | convEntryStart k e cseq => exact execConvEntryStart_sound hs k e cseq
  | convSettleEnd k => exact execConvSettleEnd_sound hs k
  | convEnd k codes => exact execConvEnd_sound hs k codes
  | convTimeout k => exact execConvTimeout_sound hs k
  | refMonitorFault k => exact execRefMonitorFault_sound hs k
  | acqToken n k t => exact execAcqToken_sound hs n k t
  | pairCheck p u => exact execPairCheck_sound hs p u
  | converterReadmit k => exact execConverterReadmit_sound hs k
  | tdacReadmit p => exact execTdacReadmit_sound hs p
  | tdacDiagRequest p code mode conv ch => exact execTdacDiagRequest_sound hs p code mode conv ch
  | calStart ch range => exact execCalStart_sound hs ch range
  | calCaptureLo => exact execCalCaptureLo_sound hs
  | calCaptureHi => exact execCalCaptureHi_sound hs
  | calCaptureDone => exact execCalCaptureDone_sound hs
  | calCommit => exact execCalCommit_sound hs
  | calCommitDone ok => exact execCalCommitDone_sound hs ok
  | calAbort => exact execCalAbort_sound hs
  | calRevert ch range => exact execCalRevert_sound hs ch range
  | loopUpdate n x bad => exact execLoopUpdate_sound hs n x bad
  | loopModeRequest n l v => exact execLoopModeRequest_sound hs n l v
  | loopFbClr n l => exact execLoopFbClr_sound hs n l
  | satfbChange m l hi lo => exact execSatfbChange_sound hs m l hi lo
  | paramCommit n clear => exact execParamCommit_sound hs n clear
  | paramClear n => exact execParamClear_sound hs n
  | repAction n l a => exact execRepAction_sound hs n l a
  | repTableClearDone n l => exact execRepTableClearDone_sound hs n l
  | lsmCompare n x ok => exact execLsmCompare_sound hs n x ok
  | slackExhausted n => exact execSlackExhausted_sound hs n
  | migrationCopyDone => exact execMigrationCopyDone_sound hs
  | migrationSwitch => exact execMigrationSwitch_sound hs
  | crewReadmit n => exact execCrewReadmit_sound hs n
  | crewForceRetire n => exact execCrewForceRetire_sound hs n
  | crewMigrate n => exact execCrewMigrate_sound hs n
  | lsmClrCounts n => exact execLsmClrCounts_sound hs n
  | seqLoad r => exact execSeqLoad_sound hs r
  | seqLoadDone u => exact execSeqLoadDone_sound hs u
  | seqUnload r => exact execSeqUnload_sound hs r
  | seqStart r => exact execSeqStart_sound hs r
  | seqPause r => exact execSeqPause_sound hs r
  | seqHold r => exact execSeqHold_sound hs r
  | seqResume r => exact execSeqResume_sound hs r
  | seqAbort r => exact execSeqAbort_sound hs r
  | stepStroke r cseq => exact execStepStroke_sound hs r cseq
  | stepConditionObserve r link t => exact execStepConditionObserve_sound hs r link t
  | stepCatch r => exact execStepCatch_sound hs r
  | vsetAnswer => exact execVsetAnswer_sound hs
  | groupCutNotice g => exact execGroupCutNotice_sound hs g
  | ckptPeriodicCut cseq => exact execCkptPeriodicCut_sound hs cseq
  | ckptWriteDone ok => exact execCkptWriteDone_sound hs ok
  | repSnapshotDone ok => exact execRepSnapshotDone_sound hs ok
  | pflagSet hi v => exact execPflagSet_sound hs hi v
  | pflagClr hi v => exact execPflagClr_sound hs hi v
  | axisEnable a => exact execAxisEnable_sound hs a
  | axisDisable a => exact execAxisDisable_sound hs a
  | axisMove a k => exact execAxisMove_sound hs a k
  | axisStop a => exact execAxisStop_sound hs a
  | axisHome a mode => exact execAxisHome_sound hs a mode
  | axisGear a => exact execAxisGear_sound hs a
  | axisGearSet a => exact execAxisGearSet_sound hs a
  | axisUngear a => exact execAxisUngear_sound hs a
  | axisClear a => exact execAxisClear_sound hs a
  | stageReadmit a => exact execStageReadmit_sound hs a
  | axisTask n x => exact execAxisTask_sound hs n x
  | stepStageCycle a differ => exact execStepStageCycle_sound hs a differ
  | axisAtRest a => exact execAxisAtRest_sound hs a
  | rtTimeout a => exact execRtTimeout_sound hs a
  | hwLimitActive a pos => exact execHwLimitActive_sound hs a pos
  | gearSwitch a => exact execGearSwitch_sound hs a
  | homeReferenceEdge a index => exact execHomeReferenceEdge_sound hs a index
  | axisPermitWithdrawn a => exact execAxisPermitWithdrawn_sound hs a
  | encoderEdge g a b => exact execEncoderEdge_sound hs g a b
  | encLineFault g lines => exact execEncLineFault_sound hs g lines
  | encIndex g => exact execEncIndex_sound hs g
  | encIdxRead g => exact execEncIdxRead_sound hs g
  | encReadmit g => exact execEncReadmit_sound hs g
  | rceToken link t => exact execRceToken_sound hs link t
  | rowClose m bad => exact execRowClose_sound hs m bad
  | captureComplete c => exact execCaptureComplete_sound hs c
  | blockClose => exact execBlockClose_sound hs
  | blockTimeout => exact execBlockTimeout_sound hs
  | blockHashDone => exact execBlockHashDone_sound hs
  | blockSigned ok => exact execBlockSigned_sound hs ok
  | recordStart => exact execRecordStart_sound hs
  | recordStop => exact execRecordStop_sound hs
  | exportDatagram => exact execExportDatagram_sound hs
  | retxRequest dg => exact execRetxRequest_sound hs dg
  | retxServe => exact execRetxServe_sound hs
  | triggerArmWrite g v => exact execTriggerArmWrite_sound hs g v
  | captureArm c => exact execCaptureArm_sound hs c
  | captureDisarm c => exact execCaptureDisarm_sound hs c
  | captureForce c => exact execCaptureForce_sound hs c
  | captureRelease0 c => exact execCaptureRelease0_sound hs c
  | captureRelease1 c => exact execCaptureRelease1_sound hs c
  | outputToken out link t echo => exact execOutputToken_sound hs out link t echo
  | producerTimeout out => exact execProducerTimeout_sound hs out
  | headroomMeasure n head meas => exact execHeadroomMeasure_sound hs n head meas
  | complianceSet n => exact execComplianceSet_sound hs n
  | complianceClear n => exact execComplianceClear_sound hs n
  | loopLowTimeout n => exact execLoopLowTimeout_sound hs n
  | alarmNrTimeout n => exact execAlarmNrTimeout_sound hs n
  | cloClr mask => exact execCloClr_sound hs mask
  | cloThermalShutdown n => exact execCloThermalShutdown_sound hs n
  | cloThermalResume n echo => exact execCloThermalResume_sound hs n echo
  | cloReadmit n => exact execCloReadmit_sound hs n
  | hartGo n => exact execHartGo_sound hs n
  | hartResponse n ok frame => exact execHartResponse_sound hs n ok frame
  | hartNoResponse n => exact execHartNoResponse_sound hs n
  | hartBurstRx n frame => exact execHartBurstRx_sound hs n frame
  | hartBurstRead n => exact execHartBurstRead_sound hs n
  | valveHitEnd n => exact execValveHitEnd_sound hs n
  | valveOvercurrent n => exact execValveOvercurrent_sound hs n
  | valveRetryExpire n => exact execValveRetryExpire_sound hs n
  | valveOvertemp n => exact execValveOvertemp_sound hs n
  | valveCooled n => exact execValveCooled_sound hs n
  | valveOpenLoad n isOpen => exact execValveOpenLoad_sound hs n isOpen
  | coilSupplyAbsent g => exact execCoilSupplyAbsent_sound hs g
  | vdrReadmit n => exact execVdrReadmit_sound hs n
  | heaterCycleDecision n => exact execHeaterCycleDecision_sound hs n
  | canFrameRx n f t => exact execCanFrameRx_sound hs n f t
  | canRxbReadWord0 n ix => exact execCanRxbReadWord0_sound hs n ix
  | canRxbReadLast n ix => exact execCanRxbReadLast_sound hs n ix
  | canRxbRel n g mask => exact execCanRxbRel_sound hs n g mask
  | canRxfAck n f ix => exact execCanRxfAck_sound hs n f ix
  | canTxRequest n mask => exact execCanTxRequest_sound hs n mask
  | canTxCancel n mask sof => exact execCanTxCancel_sound hs n mask sof
  | canTxcAppend n b => exact execCanTxcAppend_sound hs n b
  | canTxComplete n t => exact execCanTxComplete_sound hs n t
  | canBusError n e sof => exact execCanBusError_sound hs n e sof
  | canRecover n => exact execCanRecover_sound hs n
  | canRecoveryDone n => exact execCanRecoveryDone_sound hs n
  | canIntegrationDone n => exact execCanIntegrationDone_sound hs n
  | canSuspendEnd n => exact execCanSuspendEnd_sound hs n
  | canTxjAck n ix => exact execCanTxjAck_sound hs n ix
  | canTxMapToken n ix link t sof => exact execCanTxMapToken_sound hs n ix link t sof
  | canTransceiverFault n => exact execCanTransceiverFault_sound hs n
  | canReadmit n => exact execCanReadmit_sound hs n
  | ethFrameRx n bytes fcs sa t => exact execEthFrameRx_sound hs n bytes fcs sa t
  | ethFrameTx p cls addrs etype payload => exact execEthFrameTx_sound hs p cls addrs etype payload
  | prpSupervisionSend p => exact execPrpSupervisionSend_sound hs p
  | lanDown n => exact execLanDown_sound hs n
  | ethLinkLoss n => exact execEthLinkLoss_sound hs n
  | ethKrTrainingFail n => exact execEthKrTrainingFail_sound hs n
  | ethReadmit n => exact execEthReadmit_sound hs n
  | qbvGateInterval n => exact execQbvGateInterval_sound hs n
  | ethTxtsPop n => exact execEthTxtsPop_sound hs n
  | rraRequest ip port dg => exact execRraRequest_sound hs ip port dg
  | ethFrxAck n ix => exact execEthFrxAck_sound hs n ix
  | ethFtxGo n mask => exact execEthFtxGo_sound hs n mask
  | pavilionStartDone switches selftest => exact execPavilionStartDone_sound hs switches selftest
  | pavilionSafeEntry cause => exact execPavilionSafeEntry_sound hs cause
  | outputEnableGrant => exact execOutputEnableGrant_sound hs
  | switchCheck switches => exact execSwitchCheck_sound hs switches
  | coverCheck isOpen => exact execCoverCheck_sound hs isOpen
  | pavilionCycle x => exact execPavilionCycle_sound hs x
  | safeInputSample levels => exact execSafeInputSample_sound hs levels
  | safeInputQualify ix => exact execSafeInputQualify_sound hs ix
  | testPulse k low => exact execTestPulse_sound hs k low
  | discrepancyTimeout ix => exact execDiscrepancyTimeout_sound hs ix
  | functionResetPulse f u => exact execFunctionResetPulse_sound hs f u
  | brakeReleaseTimer b => exact execBrakeReleaseTimer_sound hs b
  | brakeOutputTest o ok => exact execBrakeOutputTest_sound hs o ok
  | brakeFaultClear o => exact execBrakeFaultClear_sound hs o
  | brakeTestDue b => exact execBrakeTestDue_sound hs b
  | brakeTestOverdue b => exact execBrakeTestOverdue_sound hs b
  | brakeTimerSave => exact execBrakeTimerSave_sound hs
  | brakeTestTimeout b => exact execBrakeTestTimeout_sound hs b
  | pvmVset mb => exact execPvmVset_sound hs mb
  | pvmVwithdraw mb => exact execPvmVwithdraw_sound hs mb
  | pvmParWrite => exact execPvmParWrite_sound hs
  | pvmParCommit => exact execPvmParCommit_sound hs
  | pvmBtStart => exact execPvmBtStart_sound hs
  | pvmBtEnd => exact execPvmBtEnd_sound hs
  | pvmReadmit => exact execPvmReadmit_sound hs
  | vsetSwitch id => exact execVsetSwitch_sound hs id
  | seritContainerRx pair bytes => exact execSeritContainerRx_sound hs pair bytes
  | seritPduSend k => exact execSeritPduSend_sound hs k
  | seritOpenSend k => exact execSeritOpenSend_sound hs k
  | seritWdExpire k => exact execSeritWdExpire_sound hs k
  | seritOutputToken link t => exact execSeritOutputToken_sound hs link t
  | pairListenTimeout => exact execPairListenTimeout_sound hs
  | heartbeatSend => exact execHeartbeatSend_sound hs
  | heartbeatRx path bytes => exact execHeartbeatRx_sound hs path bytes
  | pathTimeout path => exact execPathTimeout_sound hs path
  | leaseExpire => exact execLeaseExpire_sound hs
  | plkHandover => exact execPlkHandover_sound hs
  | plkForceTake key => exact execPlkForceTake_sound hs key
  | plkResync => exact execPlkResync_sound hs
  | plkReadmitLane0 => exact execPlkReadmitLane0_sound hs
  | plkReadmitLane1 => exact execPlkReadmitLane1_sound hs
  | plkLinkLoss l training => exact execPlkLinkLoss_sound hs l training
  | mirrorCut cseq => exact execMirrorCut_sound hs cseq
  | mirrorFrameRx l bytes => exact execMirrorFrameRx_sound hs l bytes
  | cycLoad => exact execCycLoad_sound hs
  | cycLoadDone areas u => exact execCycLoadDone_sound hs areas u
  | cycStartWarm => exact execCycStartWarm_sound hs
  | cycStartCold => exact execCycStartCold_sound hs
  | cycStop => exact execCycStop_sound hs
  | cycOnlineChange => exact execCycOnlineChange_sound hs
  | cycSwitch => exact execCycSwitch_sound hs
  | cycStartCatch cseq arr => exact execCycStartCatch_sound hs cseq arr
  | cycDone => exact execCycDone_sound hs
  | cycProgramFault mcause => exact execCycProgramFault_sound hs mcause
  | cycForceWrite x w v => exact execCycForceWrite_sound hs x w v
  | cycForceAck => exact execCycForceAck_sound hs
  | cdmGo n ch => exact execCdmGo_sound hs n ch
  | cdmAbort n ch => exact execCdmAbort_sound hs n ch
  | cdmResume n ch => exact execCdmResume_sound hs n ch
  | cdmAccess n e b => exact execCdmAccess_sound hs n e b
  | cdmReadmit n ch => exact execCdmReadmit_sound hs n ch
  | rmvGo c => exact execRmvGo_sound hs c
  | rmvAbort c => exact execRmvAbort_sound hs c
  | rmvResume c => exact execRmvResume_sound hs c
  | rmvAccess e b => exact execRmvAccess_sound hs e b
  | fwlUnfreeze src key m => exact execFwlUnfreeze_sound hs src key m
  | ac0FreezeTimer => exact execAc0FreezeTimer_sound hs
  | linkReadmit l => exact execLinkReadmit_sound hs l
  | eccScrub addr e => exact execEccScrub_sound hs addr e
  | vltVerify u => exact execVltVerify_sound hs u
  | vltStore u => exact execVltStore_sound hs u
  | vltEnrol u => exact execVltEnrol_sound hs u
  | vltRevoke u => exact execVltRevoke_sound hs u
  | vltImport u => exact execVltImport_sound hs u
  | vltLoadKey => exact execVltLoadKey_sound hs
  | vltEraseKey h => exact execVltEraseKey_sound hs h
  | vltArbAdvance ix => exact execVltArbAdvance_sound hs ix
  | vltAttest => exact execVltAttest_sound hs
  | vltDbgChallenge tap => exact execVltDbgChallenge_sound hs tap
  | vltDbgUnlock tap u => exact execVltDbgUnlock_sound hs tap u
  | vltDbgLock => exact execVltDbgLock_sound hs
  | vltRngRead => exact execVltRngRead_sound hs
  | debugScopeExpire => exact execDebugScopeExpire_sound hs
  | entropyFail => exact execEntropyFail_sound hs
  | powerOn => exact execPowerOn_sound hs
  | brownOut => exact execBrownOut_sound hs
  | brownOutFinalReset => exact execBrownOutFinalReset_sound hs
  | resetPin => exact execResetPin_sound hs
  | sysWdgExpire => exact execSysWdgExpire_sound hs
  | sysWdgHalf => exact execSysWdgHalf_sound hs
  | sysWdgKick v => exact execSysWdgKick_sound hs v
  | resetRelease sw21 ms u => exact execResetRelease_sound hs sw21 ms u
  | refclkTimeout => exact execRefclkTimeout_sound hs
  | domainResetRequest src key d => exact execDomainResetRequest_sound hs src key d
  | coreWdgExpire c => exact execCoreWdgExpire_sound hs c
  | coreWdgKick c => exact execCoreWdgKick_sound hs c
  | clockGoodLoss d => exact execClockGoodLoss_sound hs d
  | clockGoodReturn d => exact execClockGoodReturn_sound hs d
  | domainClockCheckDone d ok => exact execDomainClockCheckDone_sound hs d ok
  | startOk => exact execStartOk_sound hs
  | startTimerExpire => exact execStartTimerExpire_sound hs
  | rpcFollyRequest src key go => exact execRpcFollyRequest_sound hs src key go
  | recoveryIdent frame => exact execRecoveryIdent_sound hs frame
  | recoveryStore frame c u => exact execRecoveryStore_sound hs frame c u
  | recoveryObWrite frame => exact execRecoveryObWrite_sound hs frame
  | recoveryLog frame => exact execRecoveryLog_sound hs frame
  | recoveryExit frame => exact execRecoveryExit_sound hs frame
  | obCommit => exact execObCommit_sound hs
  | vinDipSet mv => exact execVinDipSet_sound hs mv
  | vinDipClear mv => exact execVinDipClear_sound hs mv
  | vfldWarning low mv => exact execVfldWarning_sound hs low mv
  | vfldLost lost mv => exact execVfldLost_sound hs lost mv
  | holdupLost => exact execHoldupLost_sound hs
  | easyEnter => exact execEasyEnter_sound hs
  | easyExit => exact execEasyExit_sound hs
  | parkEnter => exact execParkEnter_sound hs
  | parkWake => exact execParkWake_sound hs
  | encLineFaultEnd g => exact execEncLineFaultEnd_sound hs g
  | coilSupplyRestored g => exact execCoilSupplyRestored_sound hs g
  | ethLinkUp n => exact execEthLinkUp_sound hs n
  | plkLinkUp l => exact execPlkLinkUp_sound hs l
  | canArbitrationLost n t => exact execCanArbitrationLost_sound hs n t
  | vltCommandDone => exact execVltCommandDone_sound hs
  | pvmMailboxResponse => exact execPvmMailboxResponse_sound hs
  | replaceDone => exact execReplaceDone_sound hs
  | obCommitDone ok => exact execObCommitDone_sound hs ok

/-- Settles O4: taking the command off the queue touches nothing of soundness, and the command keeps it. -/
theorem stepKeepsSoundness : Obligations.StepKeepsSoundness := by
  unfold Obligations.StepKeepsSoundness
  intro s t hs h
  unfold step at h
  split at h
  · exact outSound_next hs t h
  · next c rest _ => exact exec_sound c (s := { s with pending := rest }) hs t h

/-! ## Completion: the meanings that branch, each branch ending in a next state -/

/-- The outcome is a next state. -/
def Completes (o : Host.Outcome State Fault Refusal) : Prop := ∃ t, o = .next t

theorem Completes.next (t : State) : Completes (.next t) := ⟨t, rfl⟩

theorem execReadmitTestDone_completes (r : Res) (code : BitVec 16) (s : State) : Completes (execReadmitTestDone r code s) := by
  dsimp only [execReadmitTestDone]; (repeat' split) <;> exact .next _

theorem execSpareSelfTest_completes (s : State) : Completes (execSpareSelfTest s) := by
  dsimp only [execSpareSelfTest]; (repeat' split) <;> exact .next _

theorem execSpareSelfTestDone_completes (ok : Bool) (s : State) : Completes (execSpareSelfTestDone ok s) := by
  dsimp only [execSpareSelfTestDone]; (repeat' split) <;> exact .next _

theorem execEvlDrain_completes (s : State) : Completes (execEvlDrain s) := by
  dsimp only [execEvlDrain]; (repeat' split) <;> exact .next _

theorem execEvlDramEnable_completes (s : State) : Completes (execEvlDramEnable s) := by
  dsimp only [execEvlDramEnable]; (repeat' split) <;> exact .next _

theorem execCatchIssue_completes (m : Fin 8) (s : State) : Completes (execCatchIssue m s) := by
  dsimp only [execCatchIssue]; (repeat' split) <;> exact .next _

theorem execCatchArrival_completes (m : Fin 8) (s : State) : Completes (execCatchArrival m s) := by
  dsimp only [execCatchArrival]; (repeat' split) <;> exact .next _

theorem execMainsHoldoverTimeout_completes (c : Fin 4) (s : State) : Completes (execMainsHoldoverTimeout c s) := by
  dsimp only [execMainsHoldoverTimeout]; (repeat' split) <;> exact .next _

theorem execServoWdExpire_completes (s : State) : Completes (execServoWdExpire s) := by
  dsimp only [execServoWdExpire]; (repeat' split) <;> exact .next _

theorem execPpsOutRise_completes (s : State) : Completes (execPpsOutRise s) := by
  dsimp only [execPpsOutRise]; (repeat' split) <;> exact .next _

theorem execPpsInEdge_completes (rising : Bool) (s : State) : Completes (execPpsInEdge rising s) := by
  dsimp only [execPpsInEdge]; (repeat' split) <;> exact .next _

theorem execDinRawEdge_completes (n : Fin 64) (level : Bool) (s : State) : Completes (execDinRawEdge n level s) := by
  dsimp only [execDinRawEdge]; (repeat' split) <;> exact .next _

theorem execDinQualify_completes (n : Fin 64) (s : State) : Completes (execDinQualify n s) := by
  dsimp only [execDinQualify]; (repeat' split) <;> exact .next _

theorem execDinFifoPop_completes (n : Fin 64) (s : State) : Completes (execDinFifoPop n s) := by
  dsimp only [execDinFifoPop]; (repeat' split) <;> exact .next _

theorem execImlStage_completes (s : State) : Completes (execImlStage s) := by
  dsimp only [execImlStage]; (repeat' split) <;> exact .next _

theorem execImlVerifyDone_completes (c : ImgContent) (_u : Unit) (s : State) : Completes (execImlVerifyDone c _u s) := by
  dsimp only [execImlVerifyDone]; (repeat' split) <;> exact .next _

theorem execImlCopyDone_completes (c : ImgContent) (_u : Unit) (s : State) : Completes (execImlCopyDone c _u s) := by
  dsimp only [execImlCopyDone]; (repeat' split) <;> exact .next _

theorem execImlActivate_completes (s : State) : Completes (execImlActivate s) := by
  dsimp only [execImlActivate]; (repeat' split) <;> exact .next _

theorem execImlReplace_completes (s : State) : Completes (execImlReplace s) := by
  dsimp only [execImlReplace]; (repeat' split) <;> exact .next _

theorem execImlAbort_completes (s : State) : Completes (execImlAbort s) := by
  dsimp only [execImlAbort]; (repeat' split) <;> exact .next _

theorem execReplaceSpareLoaded_completes (s : State) : Completes (execReplaceSpareLoaded s) := by
  dsimp only [execReplaceSpareLoaded]; (repeat' split) <;> exact .next _

theorem execReplaceSwitch_completes (s : State) : Completes (execReplaceSwitch s) := by
  dsimp only [execReplaceSwitch]; (repeat' split) <;> exact .next _

theorem execCoxTokenArrival_completes (m : Fin 8) (x : Fin 512) (k : Fin 4) (link : Nat) (t : Token) (s : State) :
    Completes (execCoxTokenArrival m x k link t s) := by
  dsimp only [execCoxTokenArrival]; (repeat' split) <;> exact .next _

theorem execCoxDispatch_completes (n : Fin 9) (can : BitVec 3) (s : State) : Completes (execCoxDispatch n can s) := by
  dsimp only [execCoxDispatch]; (repeat' split) <;> exact .next _

theorem execCoxRelease_completes (n : Fin 9) (x : Fin 512) (acq : List (Word × BitVec 4)) (s : State) : Completes (execCoxRelease n x acq s) := by
  dsimp only [execCoxRelease]; (repeat' split) <;> exact .next _

theorem execDpPop_completes (n : Fin 9) (c : Fin 8) (s : State) : Completes (execDpPop n c s) := by
  dsimp only [execDpPop]; (repeat' split) <;> exact .next _

theorem execDpDone_completes (n : Fin 9) (c : Fin 8) (nres : BitVec 3) (s : State) : Completes (execDpDone n c nres s) := by
  dsimp only [execDpDone]; (repeat' split) <;> exact .next _

theorem execCoxWindowEnd_completes (n : Fin 9) (s : State) : Completes (execCoxWindowEnd n s) := by
  dsimp only [execCoxWindowEnd]; (repeat' split) <;> exact .next _

theorem execCoxClrTotals_completes (n : Fin 9) (s : State) : Completes (execCoxClrTotals n s) := by
  dsimp only [execCoxClrTotals]; (repeat' split) <;> exact .next _

theorem execCoxClrCtxCounts_completes (n : Fin 9) (s : State) : Completes (execCoxClrCtxCounts n s) := by
  dsimp only [execCoxClrCtxCounts]; (repeat' split) <;> exact .next _

theorem execCoxClrDepthMax_completes (n : Fin 9) (s : State) : Completes (execCoxClrDepthMax n s) := by
  dsimp only [execCoxClrDepthMax]; (repeat' split) <;> exact .next _

theorem execConvEntryStart_completes (k : Fin 20) (e : Fin 1024) (cseq : Word) (s : State) : Completes (execConvEntryStart k e cseq s) := by
  dsimp only [execConvEntryStart]; (repeat' split) <;> exact .next _

theorem execConvSettleEnd_completes (k : Fin 20) (s : State) : Completes (execConvSettleEnd k s) := by
  dsimp only [execConvSettleEnd]; (repeat' split) <;> exact .next _

theorem execConvEnd_completes (k : Fin 20) (codes : List Int) (s : State) : Completes (execConvEnd k codes s) := by
  dsimp only [execConvEnd]; (repeat' split) <;> exact .next _

theorem execConvTimeout_completes (k : Fin 20) (s : State) : Completes (execConvTimeout k s) := by
  dsimp only [execConvTimeout]; (repeat' split) <;> exact .next _

theorem execAcqToken_completes (n : Fin 9) (k : Fin 20) (t : Token) (s : State) : Completes (execAcqToken n k t s) := by
  dsimp only [execAcqToken]; (repeat' split) <;> exact .next _

theorem execPairCheck_completes (p : Fin 8) (_u : Unit) (s : State) : Completes (execPairCheck p _u s) := by
  dsimp only [execPairCheck]; (repeat' split) <;> exact .next _

theorem execConverterReadmit_completes (k : Fin 20) (s : State) : Completes (execConverterReadmit k s) := by
  dsimp only [execConverterReadmit]; (repeat' split) <;> exact .next _

theorem execTdacReadmit_completes (p : Fin 8) (s : State) : Completes (execTdacReadmit p s) := by
  dsimp only [execTdacReadmit]; (repeat' split) <;> exact .next _

theorem execTdacDiagRequest_completes (p : Fin 8) (code : BitVec 12) (mode : BitVec 2) (conv : Bool) (ch : BitVec 3) (s : State) :
    Completes (execTdacDiagRequest p code mode conv ch s) := by
  dsimp only [execTdacDiagRequest]; (repeat' split) <;> exact .next _

theorem execCalStart_completes (ch : BitVec 8) (range : BitVec 2) (s : State) : Completes (execCalStart ch range s) := by
  dsimp only [execCalStart]; (repeat' split) <;> exact .next _

theorem execCalCaptureDone_completes (s : State) : Completes (execCalCaptureDone s) := by
  dsimp only [execCalCaptureDone]; (repeat' split) <;> exact .next _

theorem execCalCommit_completes (s : State) : Completes (execCalCommit s) := by
  dsimp only [execCalCommit]; (repeat' split) <;> exact .next _

theorem execCalCommitDone_completes (ok : Bool) (s : State) : Completes (execCalCommitDone ok s) := by
  dsimp only [execCalCommitDone]; (repeat' split) <;> exact .next _

theorem execCalAbort_completes (s : State) : Completes (execCalAbort s) := by
  dsimp only [execCalAbort]; (repeat' split) <;> exact .next _

theorem execCalRevert_completes (ch : BitVec 8) (range : BitVec 2) (s : State) : Completes (execCalRevert ch range s) := by
  dsimp only [execCalRevert]; (repeat' split) <;> exact .next _

theorem execLoopUpdate_completes (n : Fin 9) (x : Fin 512) (bad : List Nat) (s : State) : Completes (execLoopUpdate n x bad s) := by
  dsimp only [execLoopUpdate]; (repeat' split) <;> exact .next _

theorem execLoopModeRequest_completes (n : Fin 9) (l : Fin 128) (v : BitVec 3) (s : State) : Completes (execLoopModeRequest n l v s) := by
  dsimp only [execLoopModeRequest]; (repeat' split) <;> exact .next _

theorem execLoopFbClr_completes (n : Fin 9) (l : Fin 128) (s : State) : Completes (execLoopFbClr n l s) := by
  dsimp only [execLoopFbClr]; (repeat' split) <;> exact .next _

theorem execParamCommit_completes (n : Fin 9) (clear : Bool) (s : State) : Completes (execParamCommit n clear s) := by
  dsimp only [execParamCommit]; (repeat' split) <;> exact .next _

theorem execParamClear_completes (n : Fin 9) (s : State) : Completes (execParamClear n s) := by
  dsimp only [execParamClear]; (repeat' split) <;> exact .next _

theorem execRepAction_completes (n : Fin 9) (l : Fin 128) (a : BitVec 2) (s : State) : Completes (execRepAction n l a s) := by
  dsimp only [execRepAction]; (repeat' split) <;> exact .next _

theorem execRepTableClearDone_completes (n : Fin 9) (l : Fin 128) (s : State) : Completes (execRepTableClearDone n l s) := by
  dsimp only [execRepTableClearDone]; (repeat' split) <;> exact .next _

theorem execLsmCompare_completes (n : Fin 9) (x : Fin 512) (ok : Bool) (s : State) : Completes (execLsmCompare n x ok s) := by
  dsimp only [execLsmCompare]; (repeat' split) <;> exact .next _

theorem execSlackExhausted_completes (n : Fin 9) (s : State) : Completes (execSlackExhausted n s) := by
  dsimp only [execSlackExhausted]; (repeat' split) <;> exact .next _

theorem execMigrationCopyDone_completes (s : State) : Completes (execMigrationCopyDone s) := by
  dsimp only [execMigrationCopyDone]; (repeat' split) <;> exact .next _

theorem execMigrationSwitch_completes (s : State) : Completes (execMigrationSwitch s) := by
  dsimp only [execMigrationSwitch]; (repeat' split) <;> exact .next _

theorem execCrewForceRetire_completes (n : Fin 9) (s : State) : Completes (execCrewForceRetire n s) := by
  dsimp only [execCrewForceRetire]; (repeat' split) <;> exact .next _

theorem execCrewMigrate_completes (n : Fin 9) (s : State) : Completes (execCrewMigrate n s) := by
  dsimp only [execCrewMigrate]; (repeat' split) <;> exact .next _

theorem execSeqLoad_completes (r : Fin 16) (s : State) : Completes (execSeqLoad r s) := by
  dsimp only [execSeqLoad]; (repeat' split) <;> exact .next _

theorem execSeqLoadDone_completes (_u : Unit) (s : State) : Completes (execSeqLoadDone _u s) := by
  dsimp only [execSeqLoadDone]; (repeat' split) <;> exact .next _

theorem execSeqStart_completes (r : Fin 16) (s : State) : Completes (execSeqStart r s) := by
  dsimp only [execSeqStart]; (repeat' split) <;> exact .next _

theorem execSeqResume_completes (r : Fin 16) (s : State) : Completes (execSeqResume r s) := by
  dsimp only [execSeqResume]; (repeat' split) <;> exact .next _

theorem execStepStroke_completes (r : Fin 16) (cseq : Word) (s : State) : Completes (execStepStroke r cseq s) := by
  dsimp only [execStepStroke]; (repeat' split) <;> exact .next _

theorem execStepConditionObserve_completes (r : Fin 16) (link : Nat) (t : Token) (s : State) : Completes (execStepConditionObserve r link t s) := by
  dsimp only [execStepConditionObserve]; (repeat' split) <;> exact .next _

theorem execStepCatch_completes (r : Fin 16) (s : State) : Completes (execStepCatch r s) := by
  dsimp only [execStepCatch]; (repeat' split) <;> exact .next _

theorem execVsetAnswer_completes (s : State) : Completes (execVsetAnswer s) := by
  dsimp only [execVsetAnswer]; (repeat' split) <;> exact .next _

theorem execGroupCutNotice_completes (g : Fin 4) (s : State) : Completes (execGroupCutNotice g s) := by
  dsimp only [execGroupCutNotice]; (repeat' split) <;> exact .next _

theorem execCkptPeriodicCut_completes (cseq : Word) (s : State) : Completes (execCkptPeriodicCut cseq s) := by
  dsimp only [execCkptPeriodicCut]; (repeat' split) <;> exact .next _

theorem execCkptWriteDone_completes (ok : Bool) (s : State) : Completes (execCkptWriteDone ok s) := by
  dsimp only [execCkptWriteDone]; (repeat' split) <;> exact .next _

theorem execRepSnapshotDone_completes (ok : Bool) (s : State) : Completes (execRepSnapshotDone ok s) := by
  dsimp only [execRepSnapshotDone]; (repeat' split) <;> exact .next _

theorem execAxisDisable_completes (a : Fin 32) (s : State) : Completes (execAxisDisable a s) := by
  dsimp only [execAxisDisable]; (repeat' split) <;> exact .next _

theorem execAxisStop_completes (a : Fin 32) (s : State) : Completes (execAxisStop a s) := by
  dsimp only [execAxisStop]; (repeat' split) <;> exact .next _

theorem execAxisTask_completes (n : Fin 9) (x : Fin 512) (s : State) : Completes (execAxisTask n x s) := by
  dsimp only [execAxisTask]; (repeat' split) <;> exact .next _

theorem execStepStageCycle_completes (a : Fin 32) (differ : Bool) (s : State) : Completes (execStepStageCycle a differ s) := by
  dsimp only [execStepStageCycle]; (repeat' split) <;> exact .next _

theorem execAxisAtRest_completes (a : Fin 32) (s : State) : Completes (execAxisAtRest a s) := by
  dsimp only [execAxisAtRest]; (repeat' split) <;> exact .next _

theorem execRtTimeout_completes (a : Fin 32) (s : State) : Completes (execRtTimeout a s) := by
  dsimp only [execRtTimeout]; (repeat' split) <;> exact .next _

theorem execHwLimitActive_completes (a : Fin 32) (pos : Bool) (s : State) : Completes (execHwLimitActive a pos s) := by
  dsimp only [execHwLimitActive]; (repeat' split) <;> exact .next _

theorem execGearSwitch_completes (a : Fin 32) (s : State) : Completes (execGearSwitch a s) := by
  dsimp only [execGearSwitch]; (repeat' split) <;> exact .next _

theorem execHomeReferenceEdge_completes (a : Fin 32) (index : Bool) (s : State) : Completes (execHomeReferenceEdge a index s) := by
  dsimp only [execHomeReferenceEdge]; (repeat' split) <;> exact .next _

theorem execAxisPermitWithdrawn_completes (a : Fin 32) (s : State) : Completes (execAxisPermitWithdrawn a s) := by
  dsimp only [execAxisPermitWithdrawn]; (repeat' split) <;> exact .next _

theorem execEncoderEdge_completes (g : Fin 16) (a b : Bool) (s : State) : Completes (execEncoderEdge g a b s) := by
  dsimp only [execEncoderEdge]; (repeat' split) <;> exact .next _

theorem execEncLineFault_completes (g : Fin 16) (lines : BitVec 3) (s : State) : Completes (execEncLineFault g lines s) := by
  dsimp only [execEncLineFault]; (repeat' split) <;> exact .next _

theorem execEncIndex_completes (g : Fin 16) (s : State) : Completes (execEncIndex g s) := by
  dsimp only [execEncIndex]; (repeat' split) <;> exact .next _

theorem execRceToken_completes (link : Nat) (t : Token) (s : State) : Completes (execRceToken link t s) := by
  dsimp only [execRceToken]; (repeat' split) <;> exact .next _

theorem execRowClose_completes (m : Fin 8) (bad : List Nat) (s : State) : Completes (execRowClose m bad s) := by
  dsimp only [execRowClose]; (repeat' split) <;> exact .next _

theorem execCaptureComplete_completes (c : Fin 64) (s : State) : Completes (execCaptureComplete c s) := by
  dsimp only [execCaptureComplete]; (repeat' split) <;> exact .next _

theorem execBlockClose_completes (s : State) : Completes (execBlockClose s) := by
  dsimp only [execBlockClose]; (repeat' split) <;> exact .next _

theorem execBlockTimeout_completes (s : State) : Completes (execBlockTimeout s) := by
  dsimp only [execBlockTimeout]; (repeat' split) <;> exact .next _

theorem execBlockHashDone_completes (s : State) : Completes (execBlockHashDone s) := by
  dsimp only [execBlockHashDone]; (repeat' split) <;> exact .next _

theorem execBlockSigned_completes (ok : Bool) (s : State) : Completes (execBlockSigned ok s) := by
  dsimp only [execBlockSigned]; (repeat' split) <;> exact .next _

theorem execExportDatagram_completes (s : State) : Completes (execExportDatagram s) := by
  dsimp only [execExportDatagram]; (repeat' split) <;> exact .next _

theorem execRetxRequest_completes (dg : List Byte) (s : State) : Completes (execRetxRequest dg s) := by
  dsimp only [execRetxRequest]; (repeat' split) <;> exact .next _

theorem execRetxServe_completes (s : State) : Completes (execRetxServe s) := by
  dsimp only [execRetxServe]; (repeat' split) <;> exact .next _

theorem execOutputToken_completes (out : Fin 80) (link : Nat) (t : Token) (echo : Bool) (s : State) :
    Completes (execOutputToken out link t echo s) := by
  dsimp only [execOutputToken]; (repeat' split) <;> exact .next _

theorem execComplianceSet_completes (n : Fin 16) (s : State) : Completes (execComplianceSet n s) := by
  dsimp only [execComplianceSet]; (repeat' split) <;> exact .next _

theorem execComplianceClear_completes (n : Fin 16) (s : State) : Completes (execComplianceClear n s) := by
  dsimp only [execComplianceClear]; (repeat' split) <;> exact .next _

theorem execLoopLowTimeout_completes (n : Fin 16) (s : State) : Completes (execLoopLowTimeout n s) := by
  dsimp only [execLoopLowTimeout]; (repeat' split) <;> exact .next _

theorem execAlarmNrTimeout_completes (n : Fin 16) (s : State) : Completes (execAlarmNrTimeout n s) := by
  dsimp only [execAlarmNrTimeout]; (repeat' split) <;> exact .next _

theorem execCloThermalShutdown_completes (n : Fin 16) (s : State) : Completes (execCloThermalShutdown n s) := by
  dsimp only [execCloThermalShutdown]; (repeat' split) <;> exact .next _

theorem execCloThermalResume_completes (n : Fin 16) (echo : Bool) (s : State) : Completes (execCloThermalResume n echo s) := by
  dsimp only [execCloThermalResume]; (repeat' split) <;> exact .next _

theorem execHartResponse_completes (n : Fin 16) (ok : Bool) (frame : List Word) (s : State) : Completes (execHartResponse n ok frame s) := by
  dsimp only [execHartResponse]; (repeat' split) <;> exact .next _

theorem execHartNoResponse_completes (n : Fin 16) (s : State) : Completes (execHartNoResponse n s) := by
  dsimp only [execHartNoResponse]; (repeat' split) <;> exact .next _

theorem execValveHitEnd_completes (n : Fin 64) (s : State) : Completes (execValveHitEnd n s) := by
  dsimp only [execValveHitEnd]; (repeat' split) <;> exact .next _

theorem execValveOvercurrent_completes (n : Fin 64) (s : State) : Completes (execValveOvercurrent n s) := by
  dsimp only [execValveOvercurrent]; (repeat' split) <;> exact .next _

theorem execValveRetryExpire_completes (n : Fin 64) (s : State) : Completes (execValveRetryExpire n s) := by
  dsimp only [execValveRetryExpire]; (repeat' split) <;> exact .next _

theorem execValveOvertemp_completes (n : Fin 64) (s : State) : Completes (execValveOvertemp n s) := by
  dsimp only [execValveOvertemp]; (repeat' split) <;> exact .next _

theorem execValveCooled_completes (n : Fin 64) (s : State) : Completes (execValveCooled n s) := by
  dsimp only [execValveCooled]; (repeat' split) <;> exact .next _

theorem execValveOpenLoad_completes (n : Fin 64) (isOpen : Bool) (s : State) : Completes (execValveOpenLoad n isOpen s) := by
  dsimp only [execValveOpenLoad]; (repeat' split) <;> exact .next _

theorem execHeaterCycleDecision_completes (n : Fin 64) (s : State) : Completes (execHeaterCycleDecision n s) := by
  dsimp only [execHeaterCycleDecision]; (repeat' split) <;> exact .next _

theorem execCanFrameRx_completes (n : Fin 8) (f : CanFrame) (t : Stamp) (s : State) : Completes (execCanFrameRx n f t s) := by
  dsimp only [execCanFrameRx]; (repeat' split) <;> exact .next _

theorem execCanRxbReadWord0_completes (n : Fin 8) (i : Fin 64) (s : State) : Completes (execCanRxbReadWord0 n i s) := by
  dsimp only [execCanRxbReadWord0]; (repeat' split) <;> exact .next _

theorem execCanRxbReadLast_completes (n : Fin 8) (i : Fin 64) (s : State) : Completes (execCanRxbReadLast n i s) := by
  dsimp only [execCanRxbReadLast]; (repeat' split) <;> exact .next _

theorem execCanTxcAppend_completes (n : Fin 8) (b : Fin 32) (s : State) : Completes (execCanTxcAppend n b s) := by
  dsimp only [execCanTxcAppend]; (repeat' split) <;> exact .next _

theorem execCanTxComplete_completes (n : Fin 8) (t : Stamp) (s : State) : Completes (execCanTxComplete n t s) := by
  dsimp only [execCanTxComplete]; (repeat' split) <;> exact .next _

theorem execCanBusError_completes (n : Fin 8) (e : CanErr) (sof : Option Stamp) (s : State) : Completes (execCanBusError n e sof s) := by
  dsimp only [execCanBusError]; (repeat' split) <;> exact .next _

theorem execCanRecover_completes (n : Fin 8) (s : State) : Completes (execCanRecover n s) := by
  dsimp only [execCanRecover]; (repeat' split) <;> exact .next _

theorem execCanRecoveryDone_completes (n : Fin 8) (s : State) : Completes (execCanRecoveryDone n s) := by
  dsimp only [execCanRecoveryDone]; (repeat' split) <;> exact .next _

theorem execCanIntegrationDone_completes (n : Fin 8) (s : State) : Completes (execCanIntegrationDone n s) := by
  dsimp only [execCanIntegrationDone]; (repeat' split) <;> exact .next _

theorem execCanSuspendEnd_completes (n : Fin 8) (s : State) : Completes (execCanSuspendEnd n s) := by
  dsimp only [execCanSuspendEnd]; (repeat' split) <;> exact .next _

theorem execCanTxMapToken_completes (n : Fin 8) (i : Fin 64) (link : Nat) (t : Token) (sof : Option Stamp) (s : State) :
    Completes (execCanTxMapToken n i link t sof s) := by
  dsimp only [execCanTxMapToken]; (repeat' split) <;> exact .next _

theorem execCanTransceiverFault_completes (n : Fin 8) (s : State) : Completes (execCanTransceiverFault n s) := by
  dsimp only [execCanTransceiverFault]; (repeat' split) <;> exact .next _

theorem execEthFrameRx_completes (n : Fin 6) (bytes : List Byte) (fcs : Bool) (sa : Option (Fin 8 × Nat)) (t : Stamp) (s : State) :
    Completes (execEthFrameRx n bytes fcs sa t s) := by
  dsimp only [execEthFrameRx]; (repeat' split) <;> exact .next _

theorem execPrpSupervisionSend_completes (p : Fin 3) (s : State) : Completes (execPrpSupervisionSend p s) := by
  dsimp only [execPrpSupervisionSend]; (repeat' split) <;> exact .next _

theorem execLanDown_completes (n : Fin 6) (s : State) : Completes (execLanDown n s) := by
  dsimp only [execLanDown]; (repeat' split) <;> exact .next _

theorem execEthKrTrainingFail_completes (n : Fin 6) (s : State) : Completes (execEthKrTrainingFail n s) := by
  dsimp only [execEthKrTrainingFail]; (repeat' split) <;> exact .next _

theorem execRraRequest_completes (ip : BitVec 32) (port : BitVec 16) (dg : List Byte) (s : State) : Completes (execRraRequest ip port dg s) := by
  dsimp only [execRraRequest]; (repeat' split) <;> exact .next _

theorem execEthFrxAck_completes (n : Fin 6) (i : Fin 16) (s : State) : Completes (execEthFrxAck n i s) := by
  dsimp only [execEthFrxAck]; (repeat' split) <;> exact .next _

theorem execPavilionStartDone_completes (switches : BitVec 24) (selftest : Bool) (s : State) : Completes (execPavilionStartDone switches selftest s) := by
  dsimp only [execPavilionStartDone]; (repeat' split) <;> exact .next _

theorem execPavilionSafeEntry_completes (cause : BitVec 4) (s : State) : Completes (execPavilionSafeEntry cause s) := by
  dsimp only [execPavilionSafeEntry]; (repeat' split) <;> exact .next _

theorem execOutputEnableGrant_completes (s : State) : Completes (execOutputEnableGrant s) := by
  dsimp only [execOutputEnableGrant]; (repeat' split) <;> exact .next _

theorem execSwitchCheck_completes (switches : BitVec 24) (s : State) : Completes (execSwitchCheck switches s) := by
  dsimp only [execSwitchCheck]; (repeat' split) <;> exact .next _

theorem execCoverCheck_completes (isOpen : Bool) (s : State) : Completes (execCoverCheck isOpen s) := by
  dsimp only [execCoverCheck]; (repeat' split) <;> exact .next _

theorem execPavilionCycle_completes (x : PavMeas) (s : State) : Completes (execPavilionCycle x s) := by
  dsimp only [execPavilionCycle]; (repeat' split) <;> exact .next _

theorem execSafeInputQualify_completes (i : Fin 16) (s : State) : Completes (execSafeInputQualify i s) := by
  dsimp only [execSafeInputQualify]; (repeat' split) <;> exact .next _

theorem execTestPulse_completes (k : Fin 4) (low : Bool) (s : State) : Completes (execTestPulse k low s) := by
  dsimp only [execTestPulse]; (repeat' split) <;> exact .next _

theorem execDiscrepancyTimeout_completes (i : Fin 16) (s : State) : Completes (execDiscrepancyTimeout i s) := by
  dsimp only [execDiscrepancyTimeout]; (repeat' split) <;> exact .next _

theorem execFunctionResetPulse_completes (f : Fin 4) (_u : Unit) (s : State) : Completes (execFunctionResetPulse f _u s) := by
  dsimp only [execFunctionResetPulse]; (repeat' split) <;> exact .next _

theorem execBrakeReleaseTimer_completes (b : Fin 8) (s : State) : Completes (execBrakeReleaseTimer b s) := by
  dsimp only [execBrakeReleaseTimer]; (repeat' split) <;> exact .next _

theorem execBrakeOutputTest_completes (o : Fin 12) (ok : Bool) (s : State) : Completes (execBrakeOutputTest o ok s) := by
  dsimp only [execBrakeOutputTest]; (repeat' split) <;> exact .next _

theorem execBrakeFaultClear_completes (o : Fin 12) (s : State) : Completes (execBrakeFaultClear o s) := by
  dsimp only [execBrakeFaultClear]; (repeat' split) <;> exact .next _

theorem execBrakeTestDue_completes (b : Fin 8) (s : State) : Completes (execBrakeTestDue b s) := by
  dsimp only [execBrakeTestDue]; (repeat' split) <;> exact .next _

theorem execBrakeTestOverdue_completes (b : Fin 8) (s : State) : Completes (execBrakeTestOverdue b s) := by
  dsimp only [execBrakeTestOverdue]; (repeat' split) <;> exact .next _

theorem execBrakeTimerSave_completes (s : State) : Completes (execBrakeTimerSave s) := by
  dsimp only [execBrakeTimerSave]; (repeat' split) <;> exact .next _

theorem execBrakeTestTimeout_completes (b : Fin 8) (s : State) : Completes (execBrakeTestTimeout b s) := by
  dsimp only [execBrakeTestTimeout]; (repeat' split) <;> exact .next _

theorem execPvmVset_completes (mb : Fin 2) (s : State) : Completes (execPvmVset mb s) := by
  dsimp only [execPvmVset]; (repeat' split) <;> exact .next _

theorem execPvmVwithdraw_completes (mb : Fin 2) (s : State) : Completes (execPvmVwithdraw mb s) := by
  dsimp only [execPvmVwithdraw]; (repeat' split) <;> exact .next _

theorem execPvmParWrite_completes (s : State) : Completes (execPvmParWrite s) := by
  dsimp only [execPvmParWrite]; (repeat' split) <;> exact .next _

theorem execPvmParCommit_completes (s : State) : Completes (execPvmParCommit s) := by
  dsimp only [execPvmParCommit]; (repeat' split) <;> exact .next _

theorem execPvmBtStart_completes (s : State) : Completes (execPvmBtStart s) := by
  dsimp only [execPvmBtStart]; (repeat' split) <;> exact .next _

theorem execPvmBtEnd_completes (s : State) : Completes (execPvmBtEnd s) := by
  dsimp only [execPvmBtEnd]; (repeat' split) <;> exact .next _

theorem execPvmReadmit_completes (s : State) : Completes (execPvmReadmit s) := by
  dsimp only [execPvmReadmit]; (repeat' split) <;> exact .next _

theorem execVsetSwitch_completes (id : Fin 16) (s : State) : Completes (execVsetSwitch id s) := by
  dsimp only [execVsetSwitch]; (repeat' split) <;> exact .next _

theorem execSeritContainerRx_completes (pair : Fin 3) (bytes : List Byte) (s : State) : Completes (execSeritContainerRx pair bytes s) := by
  dsimp only [execSeritContainerRx]; (repeat' split) <;> exact .next _

theorem execSeritPduSend_completes (k : Fin 1024) (s : State) : Completes (execSeritPduSend k s) := by
  dsimp only [execSeritPduSend]; (repeat' split) <;> exact .next _

theorem execSeritOpenSend_completes (k : Fin 1024) (s : State) : Completes (execSeritOpenSend k s) := by
  dsimp only [execSeritOpenSend]; (repeat' split) <;> exact .next _

theorem execSeritWdExpire_completes (k : Fin 1024) (s : State) : Completes (execSeritWdExpire k s) := by
  dsimp only [execSeritWdExpire]; (repeat' split) <;> exact .next _

theorem execSeritOutputToken_completes (link : Nat) (t : Token) (s : State) : Completes (execSeritOutputToken link t s) := by
  dsimp only [execSeritOutputToken]; (repeat' split) <;> exact .next _

theorem execPairListenTimeout_completes (s : State) : Completes (execPairListenTimeout s) := by
  dsimp only [execPairListenTimeout]; (repeat' split) <;> exact .next _

theorem execHeartbeatSend_completes (s : State) : Completes (execHeartbeatSend s) := by
  dsimp only [execHeartbeatSend]; (repeat' split) <;> exact .next _

theorem execHeartbeatRx_completes (path : Fin 4) (bytes : List Byte) (s : State) : Completes (execHeartbeatRx path bytes s) := by
  dsimp only [execHeartbeatRx]; (repeat' split) <;> exact .next _

theorem execPathTimeout_completes (path : Fin 4) (s : State) : Completes (execPathTimeout path s) := by
  dsimp only [execPathTimeout]; (repeat' split) <;> exact .next _

theorem execPlkHandover_completes (s : State) : Completes (execPlkHandover s) := by
  dsimp only [execPlkHandover]; (repeat' split) <;> exact .next _

theorem execPlkForceTake_completes (key : Byte) (s : State) : Completes (execPlkForceTake key s) := by
  dsimp only [execPlkForceTake]; (repeat' split) <;> exact .next _

theorem execPlkResync_completes (s : State) : Completes (execPlkResync s) := by
  dsimp only [execPlkResync]; (repeat' split) <;> exact .next _

theorem execMirrorCut_completes (cseq : Word) (s : State) : Completes (execMirrorCut cseq s) := by
  dsimp only [execMirrorCut]; (repeat' split) <;> exact .next _

theorem execMirrorFrameRx_completes (_l : Fin 2) (bytes : List Byte) (s : State) : Completes (execMirrorFrameRx _l bytes s) := by
  dsimp only [execMirrorFrameRx]; (repeat' split) <;> exact .next _

theorem execCycLoad_completes (s : State) : Completes (execCycLoad s) := by
  dsimp only [execCycLoad]; (repeat' split) <;> exact .next _

theorem execCycLoadDone_completes (areas : ProgAreas) (_u : Unit) (s : State) : Completes (execCycLoadDone areas _u s) := by
  dsimp only [execCycLoadDone]; (repeat' split) <;> exact .next _

theorem execCycOnlineChange_completes (s : State) : Completes (execCycOnlineChange s) := by
  dsimp only [execCycOnlineChange]; (repeat' split) <;> exact .next _

theorem execCycSwitch_completes (s : State) : Completes (execCycSwitch s) := by
  dsimp only [execCycSwitch]; (repeat' split) <;> exact .next _

theorem execCycStartCatch_completes (cseq : Word) (arr : List (Nat × Token)) (s : State) : Completes (execCycStartCatch cseq arr s) := by
  dsimp only [execCycStartCatch]; (repeat' split) <;> exact .next _

theorem execCycDone_completes (s : State) : Completes (execCycDone s) := by
  dsimp only [execCycDone]; (repeat' split) <;> exact .next _

theorem execCdmGo_completes (n : Fin 9) (ch : Fin 8) (s : State) : Completes (execCdmGo n ch s) := by
  dsimp only [execCdmGo]; (repeat' split) <;> exact .next _

theorem execCdmAbort_completes (n : Fin 9) (ch : Fin 8) (s : State) : Completes (execCdmAbort n ch s) := by
  dsimp only [execCdmAbort]; (repeat' split) <;> exact .next _

theorem execCdmResume_completes (n : Fin 9) (ch : Fin 8) (s : State) : Completes (execCdmResume n ch s) := by
  dsimp only [execCdmResume]; (repeat' split) <;> exact .next _

theorem execCdmAccess_completes (n : Fin 9) (e b : Ecc) (s : State) : Completes (execCdmAccess n e b s) := by
  dsimp only [execCdmAccess]; (repeat' split) <;> exact .next _

theorem execCdmReadmit_completes (n : Fin 9) (ch : Fin 8) (s : State) : Completes (execCdmReadmit n ch s) := by
  dsimp only [execCdmReadmit]; (repeat' split) <;> exact .next _

theorem execRmvGo_completes (c : Fin 4) (s : State) : Completes (execRmvGo c s) := by
  dsimp only [execRmvGo]; (repeat' split) <;> exact .next _

theorem execRmvAbort_completes (c : Fin 4) (s : State) : Completes (execRmvAbort c s) := by
  dsimp only [execRmvAbort]; (repeat' split) <;> exact .next _

theorem execRmvResume_completes (c : Fin 4) (s : State) : Completes (execRmvResume c s) := by
  dsimp only [execRmvResume]; (repeat' split) <;> exact .next _

theorem execRmvAccess_completes (e b : Ecc) (s : State) : Completes (execRmvAccess e b s) := by
  dsimp only [execRmvAccess]; (repeat' split) <;> exact .next _

theorem execAc0FreezeTimer_completes (s : State) : Completes (execAc0FreezeTimer s) := by
  dsimp only [execAc0FreezeTimer]; (repeat' split) <;> exact .next _

theorem execLinkReadmit_completes (l : BitVec 4) (s : State) : Completes (execLinkReadmit l s) := by
  dsimp only [execLinkReadmit]; (repeat' split) <;> exact .next _

theorem execVltRngRead_completes (s : State) : Completes (execVltRngRead s) := by
  dsimp only [execVltRngRead]; (repeat' split) <;> exact .next _

theorem execDebugScopeExpire_completes (s : State) : Completes (execDebugScopeExpire s) := by
  dsimp only [execDebugScopeExpire]; (repeat' split) <;> exact .next _

theorem execEntropyFail_completes (s : State) : Completes (execEntropyFail s) := by
  dsimp only [execEntropyFail]; (repeat' split) <;> exact .next _

theorem execBrownOut_completes (s : State) : Completes (execBrownOut s) := by
  dsimp only [execBrownOut]; (repeat' split) <;> exact .next _

theorem execBrownOutFinalReset_completes (s : State) : Completes (execBrownOutFinalReset s) := by
  dsimp only [execBrownOutFinalReset]; (repeat' split) <;> exact .next _

theorem execSysWdgExpire_completes (s : State) : Completes (execSysWdgExpire s) := by
  dsimp only [execSysWdgExpire]; (repeat' split) <;> exact .next _

theorem execSysWdgHalf_completes (s : State) : Completes (execSysWdgHalf s) := by
  dsimp only [execSysWdgHalf]; (repeat' split) <;> exact .next _

theorem execSysWdgKick_completes (v : Word) (s : State) : Completes (execSysWdgKick v s) := by
  dsimp only [execSysWdgKick]; (repeat' split) <;> exact .next _

theorem execResetRelease_completes (sw21 : Bool) (ms : Nat) (_u : Unit) (s : State) : Completes (execResetRelease sw21 ms _u s) := by
  dsimp only [execResetRelease]; (repeat' split) <;> exact .next _

theorem execRefclkTimeout_completes (s : State) : Completes (execRefclkTimeout s) := by
  dsimp only [execRefclkTimeout]; (repeat' split) <;> exact .next _

theorem execCoreWdgExpire_completes (c : Fin 8) (s : State) : Completes (execCoreWdgExpire c s) := by
  dsimp only [execCoreWdgExpire]; (repeat' split) <;> exact .next _

theorem execCoreWdgKick_completes (c : Fin 8) (s : State) : Completes (execCoreWdgKick c s) := by
  dsimp only [execCoreWdgKick]; (repeat' split) <;> exact .next _

theorem execClockGoodLoss_completes (d : Fin 32) (s : State) : Completes (execClockGoodLoss d s) := by
  dsimp only [execClockGoodLoss]; (repeat' split) <;> exact .next _

theorem execClockGoodReturn_completes (d : Fin 32) (s : State) : Completes (execClockGoodReturn d s) := by
  dsimp only [execClockGoodReturn]; (repeat' split) <;> exact .next _

theorem execStartTimerExpire_completes (s : State) : Completes (execStartTimerExpire s) := by
  dsimp only [execStartTimerExpire]; (repeat' split) <;> exact .next _

theorem execRpcFollyRequest_completes (src : Fin 160) (key : Byte) (go : Bool) (s : State) : Completes (execRpcFollyRequest src key go s) := by
  dsimp only [execRpcFollyRequest]; (repeat' split) <;> exact .next _

theorem execObCommit_completes (s : State) : Completes (execObCommit s) := by
  dsimp only [execObCommit]; (repeat' split) <;> exact .next _

theorem execVinDipSet_completes (mv : BitVec 16) (s : State) : Completes (execVinDipSet mv s) := by
  dsimp only [execVinDipSet]; (repeat' split) <;> exact .next _

theorem execVinDipClear_completes (mv : BitVec 16) (s : State) : Completes (execVinDipClear mv s) := by
  dsimp only [execVinDipClear]; (repeat' split) <;> exact .next _

theorem execVfldWarning_completes (low : Bool) (mv : BitVec 16) (s : State) : Completes (execVfldWarning low mv s) := by
  dsimp only [execVfldWarning]; (repeat' split) <;> exact .next _

theorem execVfldLost_completes (lost : Bool) (mv : BitVec 16) (s : State) : Completes (execVfldLost lost mv s) := by
  dsimp only [execVfldLost]; (repeat' split) <;> exact .next _

theorem execHoldupLost_completes (s : State) : Completes (execHoldupLost s) := by
  dsimp only [execHoldupLost]; (repeat' split) <;> exact .next _

theorem execEasyEnter_completes (s : State) : Completes (execEasyEnter s) := by
  dsimp only [execEasyEnter]; (repeat' split) <;> exact .next _

theorem execEasyExit_completes (s : State) : Completes (execEasyExit s) := by
  dsimp only [execEasyExit]; (repeat' split) <;> exact .next _

theorem execParkEnter_completes (s : State) : Completes (execParkEnter s) := by
  dsimp only [execParkEnter]; (repeat' split) <;> exact .next _

theorem execParkWake_completes (s : State) : Completes (execParkWake s) := by
  dsimp only [execParkWake]; (repeat' split) <;> exact .next _

theorem execCanArbitrationLost_completes (n : Fin 8) (t : Stamp) (s : State) : Completes (execCanArbitrationLost n t s) := by
  dsimp only [execCanArbitrationLost]; (repeat' split) <;> exact .next _

theorem execVltCommandDone_completes (s : State) : Completes (execVltCommandDone s) := by
  dsimp only [execVltCommandDone]; (repeat' split) <;> exact .next _

theorem execPvmMailboxResponse_completes (s : State) : Completes (execPvmMailboxResponse s) := by
  dsimp only [execPvmMailboxResponse]; (repeat' split) <;> exact .next _

theorem execReplaceDone_completes (s : State) : Completes (execReplaceDone s) := by
  dsimp only [execReplaceDone]; (repeat' split) <;> exact .next _

theorem execObCommitDone_completes (ok : Bool) (s : State) : Completes (execObCommitDone ok s) := by
  dsimp only [execObCommitDone]; (repeat' split) <;> exact .next _

/-- Every command completes: most answer `.next` outright, the others by the lemma of their own meaning. -/
theorem exec_completes (c : Instr) (s : State) : Completes (exec c s) := by
  cases c with
  | registerWrite _ _ _ _ | memoryAccess _ _ _ _ _ _ _ | aliasAccess _ _ _ _ _ _ _ _ | retryWindowElapsed _ | swEventRaise _ _
  | swEventDetailWrite _ _ | courseUpdate | mainsCrossing _ _ | ctRunWrite _ _ | ctGroupGo _ | timeBaseTick | timeIncWrite _
  | timeSlewWrite _ | timeStepGo _ | timeStateWrite _ | timeSnapshot | aonTimeSnapshot | ppsOutFall | ppsCaptureRead
  | refMonitorFault _ | calCaptureLo | calCaptureHi | satfbChange _ _ _ _ | crewReadmit _ | lsmClrCounts _ | seqUnload _ | seqPause _
  | seqHold _ | seqAbort _ | pflagSet _ _ | pflagClr _ _ | axisEnable _ | axisMove _ _ | axisHome _ _ | axisGear _ | axisGearSet _
  | axisUngear _ | axisClear _ | stageReadmit _ | encIdxRead _ | encReadmit _ | recordStart | recordStop | triggerArmWrite _ _
  | captureArm _ | captureDisarm _ | captureForce _ | captureRelease0 _ | captureRelease1 _ | producerTimeout _ | headroomMeasure _ _ _
  | cloClr _ | cloReadmit _ | hartGo _ | hartBurstRx _ _ | hartBurstRead _ | coilSupplyAbsent _ | vdrReadmit _ | canRxbRel _ _ _
  | canRxfAck _ _ _ | canTxRequest _ _ | canTxCancel _ _ _ | canTxjAck _ _ | canReadmit _ | ethFrameTx _ _ _ _ _ | ethLinkLoss _
  | ethReadmit _ | qbvGateInterval _ | ethTxtsPop _ | ethFtxGo _ _ | safeInputSample _ | leaseExpire | plkReadmitLane0
  | plkReadmitLane1 | plkLinkLoss _ _ | cycStartWarm | cycStartCold | cycStop | cycProgramFault _ | cycForceWrite _ _ _ | cycForceAck
  | fwlUnfreeze _ _ _ | eccScrub _ _ | vltVerify _ | vltStore _ | vltEnrol _ | vltRevoke _ | vltImport _ | vltLoadKey | vltEraseKey _
  | vltArbAdvance _ | vltAttest | vltDbgChallenge _ | vltDbgUnlock _ _ | vltDbgLock | powerOn | resetPin | domainResetRequest _ _ _
  | domainClockCheckDone _ _ | startOk | recoveryIdent _ | recoveryStore _ _ _ | recoveryObWrite _ | recoveryLog _ | recoveryExit _
  | encLineFaultEnd _ | coilSupplyRestored _ | ethLinkUp _ | plkLinkUp _ => exact ⟨_, rfl⟩
  | readmitTestDone r code => exact execReadmitTestDone_completes r code s
  | spareSelfTest => exact execSpareSelfTest_completes s
  | spareSelfTestDone ok => exact execSpareSelfTestDone_completes ok s
  | evlDrain => exact execEvlDrain_completes s
  | evlDramEnable => exact execEvlDramEnable_completes s
  | catchIssue m => exact execCatchIssue_completes m s
  | catchArrival m => exact execCatchArrival_completes m s
  | mainsHoldoverTimeout c => exact execMainsHoldoverTimeout_completes c s
  | servoWdExpire => exact execServoWdExpire_completes s
  | ppsOutRise => exact execPpsOutRise_completes s
  | ppsInEdge rising => exact execPpsInEdge_completes rising s
  | dinRawEdge n level => exact execDinRawEdge_completes n level s
  | dinQualify n => exact execDinQualify_completes n s
  | dinFifoPop n => exact execDinFifoPop_completes n s
  | imlStage => exact execImlStage_completes s
  | imlVerifyDone c u => exact execImlVerifyDone_completes c u s
  | imlCopyDone c u => exact execImlCopyDone_completes c u s
  | imlActivate => exact execImlActivate_completes s
  | imlReplace => exact execImlReplace_completes s
  | imlAbort => exact execImlAbort_completes s
  | replaceSpareLoaded => exact execReplaceSpareLoaded_completes s
  | replaceSwitch => exact execReplaceSwitch_completes s
  | coxTokenArrival m x k link t => exact execCoxTokenArrival_completes m x k link t s
  | coxDispatch n can => exact execCoxDispatch_completes n can s
  | coxRelease n x acq => exact execCoxRelease_completes n x acq s
  | dpPop n c => exact execDpPop_completes n c s
  | dpDone n c nres => exact execDpDone_completes n c nres s
  | coxWindowEnd n => exact execCoxWindowEnd_completes n s
  | coxClrTotals n => exact execCoxClrTotals_completes n s
  | coxClrCtxCounts n => exact execCoxClrCtxCounts_completes n s
  | coxClrDepthMax n => exact execCoxClrDepthMax_completes n s
  | convEntryStart k e cseq => exact execConvEntryStart_completes k e cseq s
  | convSettleEnd k => exact execConvSettleEnd_completes k s
  | convEnd k codes => exact execConvEnd_completes k codes s
  | convTimeout k => exact execConvTimeout_completes k s
  | acqToken n k t => exact execAcqToken_completes n k t s
  | pairCheck p u => exact execPairCheck_completes p u s
  | converterReadmit k => exact execConverterReadmit_completes k s
  | tdacReadmit p => exact execTdacReadmit_completes p s
  | tdacDiagRequest p code mode conv ch => exact execTdacDiagRequest_completes p code mode conv ch s
  | calStart ch range => exact execCalStart_completes ch range s
  | calCaptureDone => exact execCalCaptureDone_completes s
  | calCommit => exact execCalCommit_completes s
  | calCommitDone ok => exact execCalCommitDone_completes ok s
  | calAbort => exact execCalAbort_completes s
  | calRevert ch range => exact execCalRevert_completes ch range s
  | loopUpdate n x bad => exact execLoopUpdate_completes n x bad s
  | loopModeRequest n l v => exact execLoopModeRequest_completes n l v s
  | loopFbClr n l => exact execLoopFbClr_completes n l s
  | paramCommit n clear => exact execParamCommit_completes n clear s
  | paramClear n => exact execParamClear_completes n s
  | repAction n l a => exact execRepAction_completes n l a s
  | repTableClearDone n l => exact execRepTableClearDone_completes n l s
  | lsmCompare n x ok => exact execLsmCompare_completes n x ok s
  | slackExhausted n => exact execSlackExhausted_completes n s
  | migrationCopyDone => exact execMigrationCopyDone_completes s
  | migrationSwitch => exact execMigrationSwitch_completes s
  | crewForceRetire n => exact execCrewForceRetire_completes n s
  | crewMigrate n => exact execCrewMigrate_completes n s
  | seqLoad r => exact execSeqLoad_completes r s
  | seqLoadDone u => exact execSeqLoadDone_completes u s
  | seqStart r => exact execSeqStart_completes r s
  | seqResume r => exact execSeqResume_completes r s
  | stepStroke r cseq => exact execStepStroke_completes r cseq s
  | stepConditionObserve r link t => exact execStepConditionObserve_completes r link t s
  | stepCatch r => exact execStepCatch_completes r s
  | vsetAnswer => exact execVsetAnswer_completes s
  | groupCutNotice g => exact execGroupCutNotice_completes g s
  | ckptPeriodicCut cseq => exact execCkptPeriodicCut_completes cseq s
  | ckptWriteDone ok => exact execCkptWriteDone_completes ok s
  | repSnapshotDone ok => exact execRepSnapshotDone_completes ok s
  | axisDisable a => exact execAxisDisable_completes a s
  | axisStop a => exact execAxisStop_completes a s
  | axisTask n x => exact execAxisTask_completes n x s
  | stepStageCycle a differ => exact execStepStageCycle_completes a differ s
  | axisAtRest a => exact execAxisAtRest_completes a s
  | rtTimeout a => exact execRtTimeout_completes a s
  | hwLimitActive a pos => exact execHwLimitActive_completes a pos s
  | gearSwitch a => exact execGearSwitch_completes a s
  | homeReferenceEdge a index => exact execHomeReferenceEdge_completes a index s
  | axisPermitWithdrawn a => exact execAxisPermitWithdrawn_completes a s
  | encoderEdge g a b => exact execEncoderEdge_completes g a b s
  | encLineFault g lines => exact execEncLineFault_completes g lines s
  | encIndex g => exact execEncIndex_completes g s
  | rceToken link t => exact execRceToken_completes link t s
  | rowClose m bad => exact execRowClose_completes m bad s
  | captureComplete c => exact execCaptureComplete_completes c s
  | blockClose => exact execBlockClose_completes s
  | blockTimeout => exact execBlockTimeout_completes s
  | blockHashDone => exact execBlockHashDone_completes s
  | blockSigned ok => exact execBlockSigned_completes ok s
  | exportDatagram => exact execExportDatagram_completes s
  | retxRequest dg => exact execRetxRequest_completes dg s
  | retxServe => exact execRetxServe_completes s
  | outputToken out link t echo => exact execOutputToken_completes out link t echo s
  | complianceSet n => exact execComplianceSet_completes n s
  | complianceClear n => exact execComplianceClear_completes n s
  | loopLowTimeout n => exact execLoopLowTimeout_completes n s
  | alarmNrTimeout n => exact execAlarmNrTimeout_completes n s
  | cloThermalShutdown n => exact execCloThermalShutdown_completes n s
  | cloThermalResume n echo => exact execCloThermalResume_completes n echo s
  | hartResponse n ok frame => exact execHartResponse_completes n ok frame s
  | hartNoResponse n => exact execHartNoResponse_completes n s
  | valveHitEnd n => exact execValveHitEnd_completes n s
  | valveOvercurrent n => exact execValveOvercurrent_completes n s
  | valveRetryExpire n => exact execValveRetryExpire_completes n s
  | valveOvertemp n => exact execValveOvertemp_completes n s
  | valveCooled n => exact execValveCooled_completes n s
  | valveOpenLoad n isOpen => exact execValveOpenLoad_completes n isOpen s
  | heaterCycleDecision n => exact execHeaterCycleDecision_completes n s
  | canFrameRx n f t => exact execCanFrameRx_completes n f t s
  | canRxbReadWord0 n ix => exact execCanRxbReadWord0_completes n ix s
  | canRxbReadLast n ix => exact execCanRxbReadLast_completes n ix s
  | canTxcAppend n b => exact execCanTxcAppend_completes n b s
  | canTxComplete n t => exact execCanTxComplete_completes n t s
  | canBusError n e sof => exact execCanBusError_completes n e sof s
  | canRecover n => exact execCanRecover_completes n s
  | canRecoveryDone n => exact execCanRecoveryDone_completes n s
  | canIntegrationDone n => exact execCanIntegrationDone_completes n s
  | canSuspendEnd n => exact execCanSuspendEnd_completes n s
  | canTxMapToken n ix link t sof => exact execCanTxMapToken_completes n ix link t sof s
  | canTransceiverFault n => exact execCanTransceiverFault_completes n s
  | ethFrameRx n bytes fcs sa t => exact execEthFrameRx_completes n bytes fcs sa t s
  | prpSupervisionSend p => exact execPrpSupervisionSend_completes p s
  | lanDown n => exact execLanDown_completes n s
  | ethKrTrainingFail n => exact execEthKrTrainingFail_completes n s
  | rraRequest ip port dg => exact execRraRequest_completes ip port dg s
  | ethFrxAck n ix => exact execEthFrxAck_completes n ix s
  | pavilionStartDone switches selftest => exact execPavilionStartDone_completes switches selftest s
  | pavilionSafeEntry cause => exact execPavilionSafeEntry_completes cause s
  | outputEnableGrant => exact execOutputEnableGrant_completes s
  | switchCheck switches => exact execSwitchCheck_completes switches s
  | coverCheck isOpen => exact execCoverCheck_completes isOpen s
  | pavilionCycle x => exact execPavilionCycle_completes x s
  | safeInputQualify ix => exact execSafeInputQualify_completes ix s
  | testPulse k low => exact execTestPulse_completes k low s
  | discrepancyTimeout ix => exact execDiscrepancyTimeout_completes ix s
  | functionResetPulse f u => exact execFunctionResetPulse_completes f u s
  | brakeReleaseTimer b => exact execBrakeReleaseTimer_completes b s
  | brakeOutputTest o ok => exact execBrakeOutputTest_completes o ok s
  | brakeFaultClear o => exact execBrakeFaultClear_completes o s
  | brakeTestDue b => exact execBrakeTestDue_completes b s
  | brakeTestOverdue b => exact execBrakeTestOverdue_completes b s
  | brakeTimerSave => exact execBrakeTimerSave_completes s
  | brakeTestTimeout b => exact execBrakeTestTimeout_completes b s
  | pvmVset mb => exact execPvmVset_completes mb s
  | pvmVwithdraw mb => exact execPvmVwithdraw_completes mb s
  | pvmParWrite => exact execPvmParWrite_completes s
  | pvmParCommit => exact execPvmParCommit_completes s
  | pvmBtStart => exact execPvmBtStart_completes s
  | pvmBtEnd => exact execPvmBtEnd_completes s
  | pvmReadmit => exact execPvmReadmit_completes s
  | vsetSwitch id => exact execVsetSwitch_completes id s
  | seritContainerRx pair bytes => exact execSeritContainerRx_completes pair bytes s
  | seritPduSend k => exact execSeritPduSend_completes k s
  | seritOpenSend k => exact execSeritOpenSend_completes k s
  | seritWdExpire k => exact execSeritWdExpire_completes k s
  | seritOutputToken link t => exact execSeritOutputToken_completes link t s
  | pairListenTimeout => exact execPairListenTimeout_completes s
  | heartbeatSend => exact execHeartbeatSend_completes s
  | heartbeatRx path bytes => exact execHeartbeatRx_completes path bytes s
  | pathTimeout path => exact execPathTimeout_completes path s
  | plkHandover => exact execPlkHandover_completes s
  | plkForceTake key => exact execPlkForceTake_completes key s
  | plkResync => exact execPlkResync_completes s
  | mirrorCut cseq => exact execMirrorCut_completes cseq s
  | mirrorFrameRx l bytes => exact execMirrorFrameRx_completes l bytes s
  | cycLoad => exact execCycLoad_completes s
  | cycLoadDone areas u => exact execCycLoadDone_completes areas u s
  | cycOnlineChange => exact execCycOnlineChange_completes s
  | cycSwitch => exact execCycSwitch_completes s
  | cycStartCatch cseq arr => exact execCycStartCatch_completes cseq arr s
  | cycDone => exact execCycDone_completes s
  | cdmGo n ch => exact execCdmGo_completes n ch s
  | cdmAbort n ch => exact execCdmAbort_completes n ch s
  | cdmResume n ch => exact execCdmResume_completes n ch s
  | cdmAccess n e b => exact execCdmAccess_completes n e b s
  | cdmReadmit n ch => exact execCdmReadmit_completes n ch s
  | rmvGo c => exact execRmvGo_completes c s
  | rmvAbort c => exact execRmvAbort_completes c s
  | rmvResume c => exact execRmvResume_completes c s
  | rmvAccess e b => exact execRmvAccess_completes e b s
  | ac0FreezeTimer => exact execAc0FreezeTimer_completes s
  | linkReadmit l => exact execLinkReadmit_completes l s
  | vltRngRead => exact execVltRngRead_completes s
  | debugScopeExpire => exact execDebugScopeExpire_completes s
  | entropyFail => exact execEntropyFail_completes s
  | brownOut => exact execBrownOut_completes s
  | brownOutFinalReset => exact execBrownOutFinalReset_completes s
  | sysWdgExpire => exact execSysWdgExpire_completes s
  | sysWdgHalf => exact execSysWdgHalf_completes s
  | sysWdgKick v => exact execSysWdgKick_completes v s
  | resetRelease sw21 ms u => exact execResetRelease_completes sw21 ms u s
  | refclkTimeout => exact execRefclkTimeout_completes s
  | coreWdgExpire c => exact execCoreWdgExpire_completes c s
  | coreWdgKick c => exact execCoreWdgKick_completes c s
  | clockGoodLoss d => exact execClockGoodLoss_completes d s
  | clockGoodReturn d => exact execClockGoodReturn_completes d s
  | startTimerExpire => exact execStartTimerExpire_completes s
  | rpcFollyRequest src key go => exact execRpcFollyRequest_completes src key go s
  | obCommit => exact execObCommit_completes s
  | vinDipSet mv => exact execVinDipSet_completes mv s
  | vinDipClear mv => exact execVinDipClear_completes mv s
  | vfldWarning low mv => exact execVfldWarning_completes low mv s
  | vfldLost lost mv => exact execVfldLost_completes lost mv s
  | holdupLost => exact execHoldupLost_completes s
  | easyEnter => exact execEasyEnter_completes s
  | easyExit => exact execEasyExit_completes s
  | parkEnter => exact execParkEnter_completes s
  | parkWake => exact execParkWake_completes s
  | canArbitrationLost n t => exact execCanArbitrationLost_completes n t s
  | vltCommandDone => exact execVltCommandDone_completes s
  | pvmMailboxResponse => exact execPvmMailboxResponse_completes s
  | replaceDone => exact execReplaceDone_completes s
  | obCommitDone ok => exact execObCommitDone_completes ok s

/-- Settles O5: `exec_completes`. -/
theorem everyCommandCompletes : Obligations.EveryCommandCompletes := exec_completes

end Sys2Proof.Machine


/-! PROOFS. Time base (R52 to R61), PPS pins and digital inputs (R62 to R66): the commands of both families. -/

namespace Sys2Proof.Machine

/-! ## Commands and their next states -/

theorem Gives.mono {c : Instr} {s : State} {P Q : State → Prop} (h : Gives c s P) (hPQ : ∀ t, P t → Q t) : Gives c s Q :=
  h.imp fun t ht => ⟨ht.1, hPQ t ht.2⟩

/-! ## Time base -/

theorem timeIncWrite_clamps {s : State} (v : Word) (hs : s.timeState ≠ 3) : Gives (.timeIncWrite v) s (fun t =>
    t.num Reg.CTU_TIME_INC = max 0x01AA740E (min 0x01AAE148 v.toNat) ∧ t.time = { s.time with servoWd := 0 } ∧
    (v.toNat < 0x01AA740E ∨ 0x01AAE148 < v.toNat → t.flag F.CTU_TIME_STATE_INC_CLAMP = true ∧ Logs s t 0x0213 0 v.toNat) ∧
    RegsKept s t [Reg.CTU_TIME_INC, Reg.CTU_TIME_STATE, Reg.EVL_LOST] ∧ SameMem s t) := by
  refine ⟨_, exec_timeIncWrite v s, ?_⟩
  have hclamp (limit : Nat) : (s.clampTimeInc limit v.toNat).time = { s.time with servoWd := 0 } := by
    simp [State.clampTimeInc, State.restartServo]
  rcases Nat.lt_or_ge v.toNat 0x01AA740E with hlo | hlo
  · obtain ⟨hnum, hflag, hlog, hmem, hregs⟩ := s.clampTimeInc_spec (limit := 0x01AA740E) v.toNat (by decide)
    rw [State.writeTimeInc_below hs hlo]
    exact ⟨by omega, hclamp _, fun _ => ⟨hflag, hlog⟩, hregs, hmem⟩
  rcases Nat.lt_or_ge 0x01AAE148 v.toNat with hhi | hhi
  · obtain ⟨hnum, hflag, hlog, hmem, hregs⟩ := s.clampTimeInc_spec (limit := 0x01AAE148) v.toNat (by decide)
    rw [State.writeTimeInc_above hs hhi]
    exact ⟨by omega, hclamp _, fun _ => ⟨hflag, hlog⟩, hregs, hmem⟩
  · rw [State.writeTimeInc_within hs hlo hhi]
    simp (disch := grind) [State.restartServo, SameMem]
    omega

theorem timeSlewWrite_clamps {s : State} (v : Word) (hs : s.timeState ≠ 3) : Gives (.timeSlewWrite v) s (fun t =>
    t.time = { s.time with slew := max (-1000000) (min 1000000 v.toInt) * 2 ^ 24, servoWd := 0 } ∧
    RegsKept s t [Reg.CTU_TIME_STATE] ∧ SameMem s t) := by
  refine ⟨_, exec_timeSlewWrite v s, ?_⟩
  unfold State.writeSlew
  rw [if_neg hs, toSigned32]
  simp only [clampInt]
  by_cases h : max (-1000000) (min 1000000 v.toInt) = v.toInt <;> simp [h, SameMem]

/-! Steps (R55). -/

theorem Stamp.ofUnits_ns {sec nsec : Nat} (hs : sec < 2 ^ 48) (hn : nsec ≤ 999999999) :
    Stamp.ofUnits ((sec * 1000000000 + nsec) * 2 ^ 24) = ⟨sec, nsec, 0⟩ := by
  simp only [Stamp.ofUnits, Stamp.mk.injEq]
  omega

/-- Moving a time by the distance to another gives that other. -/
theorem Stamp.move_to (t : Stamp) {sec nsec : Nat} (hs : sec < 2 ^ 48) (hn : nsec ≤ 999999999) :
    t.move (((sec * 1000000000 + nsec : Nat) : Int) * 2 ^ 24 - t.units) = ⟨sec, nsec, 0⟩ := by
  have h : ((t.units : Int) + (((sec * 1000000000 + nsec : Nat) : Int) * 2 ^ 24 - t.units)) =
      (((sec * 1000000000 + nsec) * 2 ^ 24 : Nat) : Int) := by push_cast; ring
  unfold Stamp.move
  rw [h, ← Int.natCast_emod, Int.toNat_natCast, Nat.mod_eq_of_lt (by omega), Stamp.ofUnits_ns hs hn]

theorem State.stepSec_lt (s : State) : s.stepSec < 2 ^ 48 := by
  have hlo : s.num Reg.CTU_STEP_SEC < 2 ^ 32 := BitVec.isLt _
  have hhi : s.fld F.CTU_STEP_HI_SEC_HI < 2 ^ 16 := bitsOf_lt _ _ _
  unfold State.stepSec
  omega

/-- The time a step leaves, and the state it enters: FREE when it loads a time in UNSET. -/
theorem State.applyStep_time (s : State) (load : Bool) : (s.applyStep load).time = { s.time with
    now := s.time.now.move (if load then ((s.stepSec * 1000000000 + s.fld F.CTU_STEP_NSEC_NSEC : Nat) : Int) * 2 ^ 24 - s.time.now.units
      else (toSigned 48 s.stepSec * 1000000000 + s.fld F.CTU_STEP_NSEC_NSEC) * 2 ^ 24), slew := 0, servoWd := 0 } := by
  have hfree (b : Bool) (u : State) : (if b then u.setTimeState 1 else u).time = u.time := by cases b <;> rfl
  unfold State.applyStep
  exact (State.time_log_recModule ..).trans (hfree _ _)

theorem State.applyStep_state (s : State) (load : Bool) :
    (s.applyStep load).timeState = if load = true ∧ s.timeState = 0 then 1 else s.timeState := by
  have hkept (x : TimeState) : (s.setTime x).timeState = s.timeState := rfl
  unfold State.applyStep
  refine (State.fld_congr (State.rd_log_recModule _ _ _ _ _ _ _ (by decide))).trans ?_
  change State.timeState _ = _
  simp only [hkept, Bool.and_eq_true, beq_iff_eq]
  split
  · exact State.timeState_setTimeState _ (by decide)
  · exact hkept _

theorem timeStepGo_steps {s : State} (hs : s.timeState ≠ 3) (hn : s.fld F.CTU_STEP_NSEC_NSEC ≤ 999999999) (hb : s.stepBlockers = 0) :
    Gives (.timeStepGo true) s (fun t => t.time.now = ⟨s.stepSec, s.fld F.CTU_STEP_NSEC_NSEC, 0⟩ ∧ t.time.slew = 0 ∧
      t.timeState = (if s.timeState = 0 then 1 else s.timeState)) ∧
    Gives (.timeStepGo false) s (fun t => t.time.slew = 0 ∧ t.timeState = s.timeState ∧
      t.time.now = s.time.now.move ((toSigned 48 s.stepSec * 1000000000 + s.fld F.CTU_STEP_NSEC_NSEC) * 2 ^ 24)) := by
  have hsec (load : Bool) : (s.setFld F.CTU_STEP_CTRL_MODE (b2n load)).stepSec = s.stepSec := by
    simp (disch := grind) [State.stepSec]
  have hnsec (load : Bool) : (s.setFld F.CTU_STEP_CTRL_MODE (b2n load)).fld F.CTU_STEP_NSEC_NSEC = s.fld F.CTU_STEP_NSEC_NSEC := by
    simp (disch := grind)
  have hst (load : Bool) : (s.setFld F.CTU_STEP_CTRL_MODE (b2n load)).timeState = s.timeState := by simp (disch := grind) [State.timeState]
  constructor <;> refine ⟨_, (exec_timeStepGo _ s).trans (congrArg _ (State.stepGo_applied _ hs hn hb)), ?_⟩
  · simp only [State.applyStep_time, State.applyStep_state, hsec, hnsec, hst, State.setFld_time, if_true, true_and]
    exact ⟨Stamp.move_to _ s.stepSec_lt hn, trivial⟩
  · simp [State.applyStep_time, State.applyStep_state, hsec, hnsec, hst]

theorem timeSnapshot_latches (s : State) : Gives .timeSnapshot s (fun t =>
    t.num Reg.CTU_SNAP_SEC = s.now.sec % 2 ^ 32 ∧ t.num Reg.CTU_SNAP_NSEC = s.now.nsec % 2 ^ 32 ∧
    t.num Reg.CTU_SNAP_HI = (s.now.frac * 2 ^ 16 + s.now.sec / 2 ^ 32 % 2 ^ 16) % 2 ^ 32 ∧
    RegsKept s t [Reg.CTU_SNAP_SEC, Reg.CTU_SNAP_NSEC, Reg.CTU_SNAP_HI] ∧ SameMem s t) := by
  refine ⟨_, rfl, ?_⟩
  simp (disch := grind) [State.latchStamp, SameMem, Stamp.w0, Stamp.w1, Stamp.w2]

theorem aonTimeSnapshot_advances (s : State) : Gives .aonTimeSnapshot s (fun t => t.elapsed = (s.elapsed + 1) % 2 ^ 64 ∧
    t.time = { s.time with aonSnap := s.now, aonMs := (s.elapsed + 1) % 2 ^ 64 } ∧
    RegsKept s t [Reg.RPC_ELAPSED_LO, Reg.RPC_ELAPSED_HI] ∧ SameMem s t) := by
  refine ⟨_, rfl, ?_⟩
  have hset : (s.setElapsed (s.elapsed + 1)).elapsed = (s.elapsed + 1) % 2 ^ 64 := by
    simp (disch := grind) [State.setElapsed, State.elapsed]
  refine ⟨hset, ?_, ?_, ?_⟩
  · simp only [State.aonKeep, hset]; rfl
  · simp [State.aonKeep, State.setElapsed, State.setNum64]
  · simp [State.aonKeep, State.setElapsed, SameMem]

/-- Settles O14: each command by its own lemma; the table of R57 and the servo watchdog by those of O8. -/
theorem timeBaseCommands : Obligations.TimeBaseCommands := by
  unfold Obligations.TimeBaseCommands
  refine ⟨fun _ v => timeIncWrite_clamps v, fun _ v => timeSlewWrite_clamps v, fun _ => timeStepGo_steps, fun s => ⟨?_, ?_, fun h => ?_⟩,
    fun s h ht hd => ?_, timeSnapshot_latches, aonTimeSnapshot_advances⟩
  · rintro (h | h)
    · exact (timeStateWrite_free h).mono fun t ht => ht.1
    · exact (timeStateWrite_holdover_lock h).mono fun t ht => ht.1
  · rintro (h | h)
    · exact (timeStateWrite_locked_free h).mono fun t ht => ht.1
    · exact (timeStateWrite_holdover_free h).mono fun t ht => ht.1
  · refine (timeStateWrite_locked_holdover h).mono ?_
    rintro t ⟨hst, -, htime, -⟩
    exact ⟨hst, by rw [htime]⟩
  · refine (servoWdExpire_due h ht hd).mono ?_
    rintro t ⟨hst, hchg, hexp, hslew, -⟩
    exact ⟨hst, hexp, hchg, hslew⟩

/-! ## PPS pins and digital inputs -/

theorem ppsOutRise_high {s : State} (hen : s.flag F.CTU_PPS_OUT_CTRL_OUT_EN = true)
    (hlock : s.flag F.CTU_PPS_OUT_CTRL_LOCK_ONLY = false ∨ s.timeState = 2) :
    Gives .ppsOutRise s (fun t => t.time = { s.time with ppsOut := true } ∧ RegsKept s t [] ∧ SameMem s t) :=
  ⟨_, if_pos (by simpa [hen] using hlock), rfl, by simp, by simp [SameMem]⟩

/-- The reference latches of a raw edge are kept with the axes alone (R275). -/
theorem State.refLatch_eq (s : State) (a d : Nat) (departs : Bool) : ∃ l, s.refLatch a d departs = s.setAxes l := by
  unfold State.refLatch
  (repeat' split) <;> exact ⟨_, rfl⟩

theorem State.foldl_refLatch_eq (s : State) (l : List Nat) (d : Nat) (departs : Bool) :
    ∃ x, l.foldl (fun s a => s.refLatch a d departs) s = s.setAxes x :=
  foldl_replaces (upd := State.setAxes) (fun s => ⟨s.axes, rfl⟩) (fun s a => s.refLatch_eq a d departs) (fun _ _ _ => rfl) l s

theorem dinRawEdge_unqualified {s : State} (n : Fin 64) (level : Bool) (hf : s.fld (F.DIO_FILT_FILT_US n) ≠ 0) :
    Gives (.dinRawEdge n level) s (fun t => t.dinRaw n = level ∧ (level ≠ s.dinRaw n → (t.dinOf n).edge = s.time.cycle) ∧
      (level ≠ s.dinLevel n → (s.dinOf n).cand = none → (t.dinOf n).cand = some (s.now.move (-(1500 * 2 ^ 24)))) ∧
      RegsKept s t [Reg.DIO_RAW (n / 32)] ∧ SameMem s t) := by
  obtain ⟨x, hx⟩ := (s.setRbit (Reg.DIO_RAW (n / 32)) (n % 32) level).foldl_refLatch_eq (List.range 32) n (level != s.dinLevel n)
  have hlevel : (s.setRbit (Reg.DIO_RAW (n / 32)) (n % 32) level).dinLevel n = s.dinLevel n := by
    simp (disch := grind) [State.dinLevel]
  have hfilt : (s.setRbit (Reg.DIO_RAW (n / 32)) (n % 32) level).fld (F.DIO_FILT_FILT_US n) ≠ 0 := by
    rwa [(s.regsBut_setRbit _ _ _).1 _ (by grind)]
  change ∃ t, execDinRawEdge n level s = _ ∧ _
  dsimp only [execDinRawEdge]
  rw [hlevel, hx]
  refine ⟨_, if_neg (by simpa using hfilt), ?_⟩
  simp (disch := grind) [State.dinRaw, State.dinOf, SameMem, State.now]
  split <;> simp_all

/-- An input that no armed unit watches fires nothing. -/
theorem State.fireDin_unarmed {s : State} (h : ∀ u < 128, s.trgArmed u 4 = false) (n : Nat) (t : Stamp) (rising : Bool) :
    s.fireDin n t rising = s :=
  foldl_eq_self fun u hu => if_neg (by simp [h u (List.mem_range.mp hu)])

/-- A new level that EDGES selects qualifies: the transition enters the FIFO with the stamp of its candidate. -/
theorem State.dinQualify_enters {s : State} {n : Nat} {d : Stamp} (hl : s.dinRaw n ≠ s.dinLevel n) (hc : (s.dinOf n).cand = some d)
    (he : bit (s.fld (F.DIO_FILT_EDGES n)) (if s.dinRaw n then 0 else 1) = true) (hf : (s.dinOf n).fifo.length < 8) (hn : n < 64)
    (ht : ∀ u < 128, s.trgArmed u 4 = false) :
    s.dinQualify n = ((s.setDin n { s.dinOf n with cand := none }).setRbit (Reg.DIO_STATE (n / 32)) (n % 32) (s.dinRaw n)).setDin n
      ⟨none, (s.dinOf n).fifo ++ [⟨d, s.dinRaw n, false⟩], (s.dinOf n).edge⟩ := by
  have hpush : ((s.setDin n { s.dinOf n with cand := none }).setRbit (Reg.DIO_STATE (n / 32)) (n % 32) (s.dinRaw n)).dinPush n d (s.dinRaw n) =
      ((s.setDin n { s.dinOf n with cand := none }).setRbit (Reg.DIO_STATE (n / 32)) (n % 32) (s.dinRaw n)).setDin n
        ⟨none, (s.dinOf n).fifo ++ [⟨d, s.dinRaw n, false⟩], (s.dinOf n).edge⟩ := by
    simp only [State.dinOf] at hf
    simp (disch := grind) [State.dinPush, State.dinOf, he, hf]
  simp only [State.dinQualify, hc, hpush]
  rw [if_neg (by simpa using hl)]
  refine State.fireDin_unarmed (fun u hu => ?_) _ _ _
  rw [← ht u hu]
  simp (disch := grind) [State.trgArmed]

theorem dinQualify_takes {s : State} (n : Fin 64) {d : Stamp} (hl : s.dinRaw n ≠ s.dinLevel n) (hc : (s.dinOf n).cand = some d)
    (he : bit (s.fld (F.DIO_FILT_EDGES n)) (if s.dinRaw n then 0 else 1) = true) (hf : (s.dinOf n).fifo.length < 8)
    (ht : ∀ u < 128, s.trgArmed u 4 = false) (hd : s.lasted (s.dinOf n).edge (s.fld (F.DIO_FILT_FILT_US n) * cycPerUs) = true) :
    Gives (.dinQualify n) s (fun t => t.dinLevel n = s.dinRaw n ∧
      t.dinOf n = ⟨none, (s.dinOf n).fifo ++ [⟨d, s.dinRaw n, false⟩], (s.dinOf n).edge⟩ ∧
      RegsKept s t [Reg.DIO_STATE (n / 32)] ∧ SameMem s t) := by
  refine ⟨_, if_pos hd, ?_⟩
  rw [State.dinQualify_enters hl hc he hf n.isLt ht]
  simp (disch := grind) [State.dinLevel, State.dinOf, SameMem]

theorem dinFifoPop_pops {s : State} (n : Fin 64) {e : DinEntry} {l : List DinEntry} (h : (s.dinOf n).fifo = e :: l) :
    Gives (.dinFifoPop n) s (fun t =>
    t.bus = ⟨false, b2n e.ovf * 4 + b2n e.rising * 2 + 1⟩ ∧ (t.dinOf n).fifo = l ∧ RegsKept s t [] ∧ SameMem s t) := by
  refine ⟨(s.setDin n { s.dinOf n with fifo := l }).setBus ⟨false, e.word3⟩, ?_, ?_⟩
  · change execDinFifoPop n s = _
    simp [execDinFifoPop, h]
  · simp [State.dinOf, SameMem, DinEntry.word3]

/-- Settles O15: PPS_IN by the lemmas of O10, the pins and the digital inputs by their own. -/
theorem pinAndInputCommands : Obligations.PinAndInputCommands := by
  unfold Obligations.PinAndInputCommands
  refine ⟨fun _ => ppsOutRise_high, fun s => ⟨_, rfl, by simp [SameMem]⟩, fun s rising hen hedge => ⟨fun hv => ?_, fun hv => ?_⟩, fun s => ?_,
    fun _ n level => dinRawEdge_unqualified n level, fun _ n _ => dinQualify_takes n, fun _ n _ _ => dinFifoPop_pops n⟩
  · have hsel : rising = (s.fld F.CTU_PPS_IN_CTRL_EDGE == 0) := by rw [Bool.eq_iff_iff, hedge, beq_iff_eq]
    obtain ⟨hvalid, hsec, hnsec, hhi, -⟩ := s.ppsCapture_spec (s.now.move (-(9 * 2 ^ 24)))
    refine ⟨_, (exec_ppsInEdge_selected hen hsel).trans (congrArg _ (if_neg (by simp [hv]))), ?_, ?_, ?_, hvalid⟩
    · rw [State.num, hsec, BitVec.toNat_ofNat]
    · rw [State.num, hnsec, BitVec.toNat_ofNat]
    · rw [State.num, hhi, BitVec.toNat_ofNat]
  · have hsel : rising = (s.fld F.CTU_PPS_IN_CTRL_EDGE == 0) := by rw [Bool.eq_iff_iff, hedge, beq_iff_eq]
    obtain ⟨hovr, hlog, -, hmem, hregs⟩ := State.ppsOverrun_spec hv
    exact ⟨_, (exec_ppsInEdge_selected hen hsel).trans (congrArg _ (if_pos hv)), hovr, hlog, hregs, hmem⟩
  · refine (ppsCaptureRead_releases s).mono ?_
    rintro t ⟨hvalid, hbus, hmem, hregs⟩
    exact ⟨hvalid, hbus, hregs, hmem⟩

end Sys2Proof.Machine


/-! PROOFS. Event log (R36 to R38): software events, the drain of the queue and the DRAM log. -/

namespace Sys2Proof.Machine

theorem swEventRaise_logs (s : State) (c : Fin 8) (x : BitVec 7) : Gives (.swEventRaise c x) s (fun t =>
    Logs s t (0x0080 + x.toNat) (0x7000 + c) (Tab.get (fun _ => (0 : Word)) s.evl.swDetail c).toNat ∧
    t.time = s.time ∧ RegsKept s t [Reg.EVL_LOST] ∧ SameMem s t) := by
  refine ⟨_, rfl, logs_log _ _ _ rfl, ?_⟩
  simp [SameMem]

theorem swEventDetailWrite_sets (s : State) (c : Fin 8) (v : Word) : Gives (.swEventDetailWrite c v) s (fun t =>
    Tab.get (fun _ => (0 : Word)) t.evl.swDetail c = v ∧
    (∀ d : Nat, d ≠ c → Tab.get (fun _ => (0 : Word)) t.evl.swDetail d = Tab.get (fun _ => (0 : Word)) s.evl.swDetail d) ∧
    t.evl.queue = s.evl.queue ∧ RegsKept s t [] ∧ SameMem s t) := by
  refine ⟨_, rfl, Tab.get_put_self .., fun d hd => Tab.get_put_other _ _ _ hd, rfl, ?_⟩
  simp [SameMem]

/-! ## The drain -/

theorem Event.bytes_length (e : Event) : e.bytes.length = 16 := by simp [Event.bytes, leBytes_length]

theorem Event.bytes_lt (e : Event) : ∀ b ∈ e.bytes, b < 256 := by
  simp only [Event.bytes, List.mem_append]
  rintro b ((((h | h) | h) | h) | h) <;> exact leBytes_lt _ _ _ h

/-- The boathouse ring and the MRAM mirror share no byte. -/
theorem bhAddr_below (i j : Nat) : bhAddr i + 16 ≤ evlMirrorAddr j := by unfold bhAddr evlMirrorAddr; omega

/-- The oldest entry in its two copies that every drain writes. -/
def State.evlCopies (s : State) (e : Event) : State :=
  (s.wrList (evlMirrorAddr s.evl.mirrorIdx) e.bytes).wrList (bhAddr (s.fld F.EVL_BH_IDX_BH_IDX)) e.bytes

theorem State.rdList_evlCopies (s : State) (e : Event) :
    (s.evlCopies e).rdList (bhAddr (s.fld F.EVL_BH_IDX_BH_IDX)) 16 = e.bytes ∧ (s.evlCopies e).rdList (evlMirrorAddr s.evl.mirrorIdx) 16 = e.bytes := by
  have hself (u : State) (a : Nat) : (u.wrList a e.bytes).rdList a 16 = e.bytes := by
    have h := rdList_wrList_self u a e.bytes e.bytes_lt
    rwa [e.bytes_length] at h
  refine ⟨hself _ _, ?_⟩
  have hbelow := bhAddr_below (s.fld F.EVL_BH_IDX_BH_IDX) s.evl.mirrorIdx
  exact (rdList_congr fun b _ _ => State.rdByte_wrList_other _ _ (by rw [e.bytes_length]; omega)).trans (hself _ _)

theorem State.rdByte_evlCopies (s : State) (e : Event) {a : Nat}
    (hbh : a < bhAddr (s.fld F.EVL_BH_IDX_BH_IDX) ∨ bhAddr (s.fld F.EVL_BH_IDX_BH_IDX) + 16 ≤ a)
    (hmir : a < evlMirrorAddr s.evl.mirrorIdx ∨ evlMirrorAddr s.evl.mirrorIdx + 16 ≤ a) : (s.evlCopies e).rdByte a = s.rdByte a := by
  unfold State.evlCopies
  rw [State.rdByte_wrList_other _ _ (by rwa [e.bytes_length]), State.rdByte_wrList_other _ _ (by rwa [e.bytes_length])]

theorem exec_evlDrain {s : State} {e : Event} {l : List Event} (hq : s.evl.queue = e :: l) (hen : s.flag F.EVL_CTRL_DRAM_EN = false)
    (hlost : s.evl.lostRun = 0) : exec .evlDrain s = .next (((s.evlCopies e).setFld F.EVL_BH_IDX_BH_IDX ((s.fld F.EVL_BH_IDX_BH_IDX + 1) % 256)).setEvl
      { s.evl with queue := l, mirrorIdx := (s.evl.mirrorIdx + 1) % 524288, sinceReset := s.evl.sinceReset + 1, lostRun := 0 }) := by
  change execEvlDrain s = _
  simp (disch := grind) [execEvlDrain, hq, hen, hlost, State.logIf, State.evlCopies, evl_wrList]

theorem evlDrain_copies {s : State} {e : Event} {l : List Event} (hq : s.evl.queue = e :: l) (hen : s.flag F.EVL_CTRL_DRAM_EN = false)
    (hlost : s.evl.lostRun = 0) : Gives .evlDrain s (fun t =>
      t.evl.queue = l ∧ t.rdList (bhAddr (s.fld F.EVL_BH_IDX_BH_IDX)) 16 = e.bytes ∧ t.rdList (evlMirrorAddr s.evl.mirrorIdx) 16 = e.bytes ∧
      t.fld F.EVL_BH_IDX_BH_IDX = (s.fld F.EVL_BH_IDX_BH_IDX + 1) % 256 ∧ t.evl.mirrorIdx = (s.evl.mirrorIdx + 1) % 524288 ∧
      (∀ a, (a < bhAddr (s.fld F.EVL_BH_IDX_BH_IDX) ∨ bhAddr (s.fld F.EVL_BH_IDX_BH_IDX) + 16 ≤ a) →
        (a < evlMirrorAddr s.evl.mirrorIdx ∨ evlMirrorAddr s.evl.mirrorIdx + 16 ≤ a) → t.rdByte a = s.rdByte a) ∧
      RegsKept s t [Reg.EVL_BH_IDX]) := by
  refine ⟨_, exec_evlDrain hq hen hlost, ?_, ?_, ?_, ?_, ?_, fun a hbh hmir => ?_, ?_⟩
  · simp
  · exact (rdList_congr fun _ _ _ => by simp).trans (s.rdList_evlCopies e).1
  · exact (rdList_congr fun _ _ _ => by simp).trans (s.rdList_evlCopies e).2
  · simp (disch := grind)
  · simp
  · rw [State.rdByte_setEvl, State.rdByte_setFld, s.rdByte_evlCopies e hbh hmir]
  · simp [State.evlCopies]

/-! ## The DRAM log -/

theorem State.num_dramLog (s : State) (b : List Nat) : (s.dramLog b).num Reg.EVL_WR_IDX = (s.num Reg.EVL_WR_IDX + 1) % 2 ^ 32 :=
  State.num_setNum_self ..

theorem State.rd_dramLog (s : State) (b : List Nat) {a : Nat} (h : a ≠ Reg.EVL_WR_IDX) : (s.dramLog b).rd a = s.rd a :=
  (State.rd_setNum_other _ _ h).trans (rd_wrList ..)

theorem State.evl_dramLog (s : State) (b : List Nat) : (s.dramLog b).evl = s.evl := evl_wrList ..

/-- Entries copied into the DRAM log move the write index by one each. -/
theorem State.num_foldl_dramLog (s : State) (n : Nat) (g : State → Nat → List Nat) :
    ((List.range n).foldl (fun s k => s.dramLog (g s k)) s).num Reg.EVL_WR_IDX = (s.num Reg.EVL_WR_IDX + n) % 2 ^ 32 := by
  induction n with
  | zero =>
    have hlt : s.num Reg.EVL_WR_IDX < 2 ^ 32 := BitVec.isLt _
    exact (Nat.mod_eq_of_lt hlt).symm
  | succ n ih =>
    rw [List.range_succ, List.foldl_append, List.foldl_cons, List.foldl_nil, State.num_dramLog, ih]
    omega

theorem evlDramEnable_copies {s : State} (hen : s.flag F.EVL_CTRL_DRAM_EN = false) : Gives .evlDramEnable s (fun t =>
    t.flag F.EVL_CTRL_DRAM_EN = true ∧ t.num Reg.EVL_WR_IDX = (s.num Reg.EVL_WR_IDX + min 256 s.evl.sinceReset) % 2 ^ 32 ∧
    Logs s t 0x0011 0 (min 256 s.evl.sinceReset) ∧ RegsKept s t [Reg.EVL_CTRL, Reg.EVL_WR_IDX, Reg.EVL_LOST]) := by
  refine ⟨_, if_neg (by simp [hen]), ?_⟩
  have hevl := fold_field (f := fun u k => u.dramLog (u.rdList (bhAddr (s.fld F.EVL_BH_IDX_BH_IDX + 256 - min 256 s.evl.sinceReset + k)) 16))
    State.evl (fun u _ => u.evl_dramLog _) (List.range (min 256 s.evl.sinceReset)) (s.setFld F.EVL_CTRL_DRAM_EN 1)
  have hregs (a : Nat) (ha : a ≠ Reg.EVL_WR_IDX) := fold_field (f := fun u k => u.dramLog (u.rdList
      (bhAddr (s.fld F.EVL_BH_IDX_BH_IDX + 256 - min 256 s.evl.sinceReset + k)) 16))
    (State.rd · a) (fun u _ => u.rd_dramLog _ ha) (List.range (min 256 s.evl.sinceReset)) (s.setFld F.EVL_CTRL_DRAM_EN 1)
  refine ⟨?_, ?_, logs_log _ _ _ (hevl.trans rfl), ?_⟩
  · rw [(State.regsBut_log _ _ _ _).2.1 _ (by decide), State.flag_congr (hregs _ (by decide))]
    simp
  · rw [(State.regsBut_log _ _ _ _).2.2.1 _ (by decide)]
    refine (State.num_foldl_dramLog _ _ _).trans ?_
    simp (disch := grind)
  · intro a ha
    simp only [List.mem_cons, List.not_mem_nil, or_false, not_or] at ha
    obtain ⟨hctrl, hidx, hlost⟩ := ha
    rw [State.rd_log _ _ _ _ hlost]
    exact (hregs a hidx).trans (State.rd_setFld_other _ _ _ hctrl)

/-- Settles O16: each command by its own lemma. -/
theorem eventLogCommands : Obligations.EventLogCommands := by
  unfold Obligations.EventLogCommands
  exact ⟨swEventRaise_logs, swEventDetailWrite_sets, fun _ _ _ hq hen hlost _ => evlDrain_copies hq hen hlost, fun _ => evlDramEnable_copies⟩

end Sys2Proof.Machine


/-! PROOFS. Courses (R40 to R45) and catch tables (R46 to R51). -/

namespace Sys2Proof.Machine

/-! ## Courses -/

theorem State.courseStep_network {s : State} {c : Nat} (hen : s.flag (F.CRS_CFG_EN c) = true) (hsrc : s.fld (F.CRS_CFG_SRC c) = 0) :
    s.courseStep c = s.setCourse c { s.courseOf c with pos := s.now.ns % 2 ^ 64 } := by
  simp [State.courseStep, hen, hsrc]

theorem State.courseStep_network_spec {s : State} {c : Nat} (hen : s.flag (F.CRS_CFG_EN c) = true) (hsrc : s.fld (F.CRS_CFG_SRC c) = 0) :
    ((s.courseStep c).courseOf c).pos = s.now.ns % 2 ^ 64 ∧ (∀ d, d ≠ c → (s.courseStep c).courseOf d = s.courseOf d) ∧
      RegsKept s (s.courseStep c) [] ∧ SameMem s (s.courseStep c) := by
  rw [State.courseStep_network hen hsrc]
  exact ⟨by rw [courseOf_setCourse], fun d hd => courseOf_setCourse_other s _ hd, by simp, by simp [SameMem]⟩

/-- A valid crossing at a locked mains course (R43, R44). -/
theorem State.mainsAt_locked {s : State} {c period peakMv : Nat} (hsrc : s.courseSrc c 1 = true) (hst : s.fld (F.CRS_STATUS_STATE c) = 2)
    (hlong : 600000000 ≤ 70 * period) (hshort : 40 * period ≤ 600000000) (hpeak : 8000 ≤ peakMv) :
    s.mainsAt period peakMv c = (s.setCourse c { s.courseOf c with
        period := period, err := (s.courseOf c).phaseErr, valid := (s.courseOf c).valid + 1, cross := s.time.cycle }).setFld
      (F.CRS_FREQ_FREQ_MHZ c) (600000000000 / period) := by
  simp [State.mainsAt, hsrc, hst, hlong, hshort, hpeak, Course.phaseErr]

theorem State.mainsAt_locked_spec {s : State} {c period peakMv : Nat} (hsrc : s.courseSrc c 1 = true) (hst : s.fld (F.CRS_STATUS_STATE c) = 2)
    (hlong : 600000000 ≤ 70 * period) (hshort : 40 * period ≤ 600000000) (hpeak : 8000 ≤ peakMv) :
    (s.mainsAt period peakMv c).courseOf c = { s.courseOf c with
        period := period, err := (s.courseOf c).phaseErr, valid := (s.courseOf c).valid + 1, cross := s.time.cycle } ∧
      (s.mainsAt period peakMv c).fld (F.CRS_FREQ_FREQ_MHZ c) = 600000000000 / period % 2 ^ (F.CRS_FREQ_FREQ_MHZ c).width ∧
      RegsKept s (s.mainsAt period peakMv c) [Reg.CRS_FREQ c] ∧ SameMem s (s.mainsAt period peakMv c) := by
  rw [State.mainsAt_locked hsrc hst hlong hshort hpeak]
  simp (disch := grind) [SameMem, State.courseOf]

/-- An entry of a course generator into HOLDOVER (R42). -/
theorem State.setCourseState_holdover {s : State} {c : Nat} (h : s.fld (F.CRS_STATUS_STATE c) ≠ 3) : s.setCourseState c 3 =
    (((s.setFld (F.CRS_STATUS_STATE c) 3).setFld (F.CRS_STATUS_CHANGED c) 1).countFld (F.CRS_STATUS_LOSSES c) 1).log 0x0215 0 c := by
  simp [State.setCourseState, h]

theorem mainsHoldoverTimeout_holds {s : State} (c : Fin 4) (hsrc : s.courseSrc c 1 = true) (hst : s.fld (F.CRS_STATUS_STATE c) = 2)
    (hdue : 3 * (s.courseOf c).period ≤ 2 * (s.time.cycle - (s.courseOf c).cross)) : Gives (.mainsHoldoverTimeout c) s (fun t =>
    t.fld (F.CRS_STATUS_STATE c) = 3 ∧ t.flag (F.CRS_STATUS_CHANGED c) = true ∧
    t.fld (F.CRS_STATUS_LOSSES c) = min 0xFFFF (s.fld (F.CRS_STATUS_LOSSES c) + 1) ∧ (t.courseOf c).valid = 0 ∧ Logs s t 0x0215 0 c ∧
    RegsKept s t [Reg.CRS_STATUS c, Reg.EVL_LOST] ∧ SameMem s t) := by
  refine ⟨_, if_pos (by simp [hsrc, hst, hdue]), ?_⟩
  rw [State.setCourseState_holdover (by simp [hst])]
  refine ⟨?_, ?_, ?_, ?_, Logs.log_self (by simp), ?_, ?_⟩
  all_goals simp (disch := grind) [State.courseOf, SameMem, satAdd]

/-! ## Catch tables -/

/-- A crew that forgets its last catch differs in its cox alone (R99). -/
theorem State.forgetCatch_eq (s : State) (m : Nat) : s.forgetCatch m = s ∨ ∃ n c, s.forgetCatch m = s.setCox n c := by
  unfold State.forgetCatch
  split
  · exact .inr ⟨_, _, rfl⟩
  · exact .inl rfl

theorem ctRunWrite_starts {s : State} (m : Fin 8) (hen : s.flag (F.CT_CFG_EN m) = true) (htok : s.holdsToken = true)
    (hph : (s.tabOf m).phase = .stopped) : Gives (.ctRunWrite m true) s (fun t => t.flag (F.CT_CTRL_RUN m) = true ∧
      t.tabOf m = { s.tabOf m with phase := .waiting, issued := s.tabCourse m, high := s.tabCourse m, stopAt := none } ∧
      RegsKept s t [Reg.CT_CTRL m] ∧ SameMem s t) := by
  refine ⟨s.ctStart m, rfl, ?_⟩
  have hcourse : (s.setFld (F.CT_CTRL_RUN m) 1).tabCourse m = s.tabCourse m := by simp (disch := grind) [State.tabCourse, State.courseOf]
  have htab : (s.setFld (F.CT_CTRL_RUN m) 1).tabOf m = s.tabOf m := rfl
  have heq : s.ctStart m = ((s.setFld (F.CT_CTRL_RUN m) 1).setTab m { s.tabOf m with
      phase := .waiting, issued := s.tabCourse m, high := s.tabCourse m, stopAt := none }).forgetCatch m := by
    simp [State.ctStart, hen, htok, htab, hcourse, hph]
  rw [heq]
  obtain h | ⟨n, x, h⟩ := State.forgetCatch_eq ((s.setFld (F.CT_CTRL_RUN m) 1).setTab m { s.tabOf m with
      phase := .waiting, issued := s.tabCourse m, high := s.tabCourse m, stopAt := none }) m
  all_goals
    rw [h]
    simp (disch := grind) [State.tabOf, SameMem]

theorem ctRunWrite_stops {s : State} (m : Fin 8) (hen : s.flag (F.CT_CFG_EN m) = true) (hph : (s.tabOf m).phase = .waiting) :
    Gives (.ctRunWrite m false) s (fun t => t.flag (F.CT_CTRL_RUN m) = false ∧ (t.tabOf m).phase = .stopped ∧
      RegsKept s t [Reg.CT_CTRL m] ∧ SameMem s t) := by
  refine ⟨s.ctStop m, rfl, ?_⟩
  have htab : (s.setFld (F.CT_CTRL_RUN m) 0).tabOf m = s.tabOf m := rfl
  have heq : s.ctStop m = (s.setFld (F.CT_CTRL_RUN m) 0).setTab m { s.tabOf m with phase := .stopped } := by
    simp [State.ctStop, hen, htab, hph]
  rw [heq]
  simp (disch := grind) [State.tabOf, SameMem]

/-- A running table that has passed one position issues its catch and passes over none. -/
theorem catchIssue_issues {s : State} (m : Fin 8) {o : Int} (hph : (s.tabOf m).phase = .running) (hstop : (s.tabOf m).stopAt = none)
    (hn : s.ctNent m ≠ 0) (hp : s.ctPeriod m ≠ 0) (hpos : 0 < posDiff (s.tabOf m).high (s.tabOf m).issued)
    (ho : o = s.ordinalAt m (s.relPos m (s.tabOf m).issued + posDiff (s.tabOf m).high (s.tabOf m).issued))
    (hnext : o = s.ordinalAt m (s.relPos m (s.tabOf m).issued) + 1) :
    exec (.catchIssue m) s = .next (((s.issueCatch m o 0).setTab m { s.tabOf m with
      phase := .running, issued := (s.tabOf m).high, stopAt := none, catches := (s.tabOf m).catches + 1 }).setFld (F.CT_CTRL_RUNNING m) 1) := by
  change execCatchIssue m s = _
  unfold execCatchIssue
  rw [if_neg (by simp [hph, hn, hp, hpos])]
  simp [hph, hstop, ← ho, ← hnext, b2n]

/-- The state with all its converters replaced. -/
def State.setConvs (s : State) (l : List (Nat × Conv)) : State := { s with convs := l }

@[simp] theorem State.quiet_setConvs (s : State) (l : List (Nat × Conv)) : Quiet (s.setConvs l) s := .of_eq (fun _ => rfl) rfl rfl

/-- The catches due at conversion players are kept with the converters alone. -/
theorem State.convCatch_eq (s : State) (m pos q : Nat) : ∃ l, s.convCatch m pos q = s.setConvs l := by
  refine foldl_replaces (upd := State.setConvs) (fun s => ⟨s.convs, rfl⟩) (fun s k => ?_) (fun _ _ _ => rfl) _ s
  dsimp only
  (repeat' split) <;> exact ⟨_, rfl⟩

theorem State.issueCatch_spec (s : State) (m : Fin 8) (o : Int) :
    (s.issueCatch m o 0).inflight = s.inflight ++ [⟨m, (s.physOf m).getD 15, s.ordinalPos m o, s.ordinalCseq m o, s.now⟩] ∧
    (s.issueCatch m o 0).num (Reg.CT_LAST_CSEQ m) = s.ordinalCseq m o % 2 ^ 32 ∧
    RegsKept s (s.issueCatch m o 0) [Reg.CT_LAST_CSEQ m] ∧ SameMem s (s.issueCatch m o 0) := by
  obtain ⟨l, hl⟩ := State.convCatch_eq ((s.setInflight (s.inflight ++ [Catch.mk m ((s.physOf m).getD 15) (s.ordinalPos m o) (s.ordinalCseq m o)
    s.now])).setNum (Reg.CT_LAST_CSEQ m) (s.ordinalCseq m o)) m (s.ordinalPos m o) (s.ordinalCseq m o)
  have heq : s.issueCatch m o 0 = ((s.setInflight (s.inflight ++ [Catch.mk m ((s.physOf m).getD 15) (s.ordinalPos m o) (s.ordinalCseq m o)
      s.now])).setNum (Reg.CT_LAST_CSEQ m) (s.ordinalCseq m o)).setConvs l := by
    simp only [State.issueCatch, if_true]
    exact hl
  rw [heq]
  exact ⟨rfl, by simp, by simp, fun _ => rfl⟩

/-- Settles O17: the folds over courses and tables by definition, each course and table by its own lemma. -/
theorem courseAndCatchTableCommands : Obligations.CourseAndCatchTableCommands := by
  unfold Obligations.CourseAndCatchTableCommands
  exact ⟨fun _ => rfl, fun _ _ => State.courseStep_network_spec, fun _ _ _ => rfl, fun _ _ _ _ => State.mainsAt_locked_spec,
    fun _ c => mainsHoldoverTimeout_holds c, fun _ m hen => ⟨ctRunWrite_starts m hen, ctRunWrite_stops m hen⟩, fun _ _ => rfl,
    fun _ m _ => catchIssue_issues m, State.issueCatch_spec⟩

end Sys2Proof.Machine


/-! PROOFS. The fabric cycle, the arrival of a catch, remote requests (R51 to R54, R388 to R391), and the health of the resources (R30, R31). -/

namespace Sys2Proof.Machine

/-! ## The fabric cycle -/

theorem State.tick_spec (s : State) :
    s.tick.time.now = s.time.now.move (s.num Reg.CTU_TIME_INC + slewShare (s.num Reg.CTU_TIME_INC) s.time.slew) ∧
    s.tick.time.slew = s.time.slew - slewShare (s.num Reg.CTU_TIME_INC) s.time.slew ∧ s.tick.time.cycle = s.time.cycle + 1 ∧
    s.tick.time.servoWd = (if s.timeState = 2 then s.time.servoWd + 1 else s.time.servoWd) ∧ SameMem s s.tick ∧ RegsKept s s.tick [] :=
  ⟨rfl, rfl, rfl, rfl, fun _ => rfl, fun _ _ => rfl⟩

theorem State.coxCycles_eq_self {s : State} (h : ∀ n, s.logicalOf n = none) : s.coxCycles = s :=
  foldl_eq_self (fun n _ => by simp [h n])

theorem State.settleHeld_eq_self {s : State} (ho : s.owed = []) (hw : s.rra.wait = []) : s.settleHeld = s := by
  simp [State.settleHeld, ho, hw]

theorem State.settleHeld_owed {s : State} (h : s.owed ≠ []) : s.settleHeld = (s.setOwed []).completeHeld s.owed := by
  simp [State.settleHeld, h]

theorem State.heatersFollow_eq_self {s : State} (h : s.vdrs = []) : s.heatersFollow = s := by
  simp [State.heatersFollow, h]

theorem timeBaseTick_idle {s : State} (ho : s.owed = []) (hw : s.rra.wait = []) (hl : ∀ n, s.logicalOf n = none) (hv : s.vdrs = []) :
    exec .timeBaseTick s = .next s.tick := by
  have hs : s.tick.settleHeld = s.tick := State.settleHeld_eq_self ho hw
  have hh : s.tick.heatersFollow = s.tick := State.heatersFollow_eq_self hv
  change Host.Outcome.next s.coxCycles.tick.settleHeld.heatersFollow = _
  rw [State.coxCycles_eq_self hl, hs, hh]

/-! ## The arrival of a catch -/

theorem catchArrival_none {s : State} {m : Fin 8} (h : s.nextCatch m = none) : exec (.catchArrival m) s = .next s := by
  simp only [exec, execCatchArrival, h]

theorem catchArrival_arrives {s : State} {m : Fin 8} {c : Catch} (h : s.nextCatch m = some c) (hr : s.replDue m c.cseq = false)
    (hm : s.migDue m c.cseq = false) : exec (.catchArrival m) s = .next ((s.setInflight (s.inflight.erase c)).catchArrives c) := by
  simp [exec, execCatchArrival, h, hr, hm]

theorem catchArrival_migrates {s u : State} {m : Fin 8} {c d : Catch} (h : s.nextCatch m = some c) (hr : s.replDue m c.cseq = false)
    (hm : s.migDue m c.cseq = true) (hu : u = s.migrate) (hd : u.nextCatch m = some d) :
    exec (.catchArrival m) s = .next ((u.setInflight (u.inflight.erase d)).catchArrives d) := by
  subst hu
  simp [exec, execCatchArrival, h, hr, hm, hd]

/-! ## Remote requests -/

section
variable {s : State} {ip : BitVec 32} {port : BitVec 16} {dg : List Byte} {l who : List Nat}

theorem rraRequest_refused (h : s.rraAuthentic (dg.map BitVec.toNat) = false) : exec (.rraRequest ip port dg) s =
    .next (((s.count (Reg.ETH_CNT_RRA_AUTH 4) 1).logPerSecond 0x68000 0x0C13 0x6014 (fieldAt (dg.map BitVec.toNat) 7 1)).ethIrq 4 3) :=
  if_pos (by simp [h])

theorem rraRequest_waits (hl : l = dg.map BitVec.toNat) (hw : who = (leBytes 4 ip.toNat).reverse ++ (leBytes 2 port.toNat).reverse)
    (ha : s.rraAuthentic l = true) (h : s.rraHeld l = true ∨ s.rra.wait ≠ []) :
    exec (.rraRequest ip port dg) s = .next (s.setRra { s.rra with wait := s.rra.wait ++ [(who, l)] }) := by
  subst hl hw
  have hc : (s.rraHeld (dg.map BitVec.toNat) || !s.rra.wait.isEmpty) = true := by simpa using h
  exact (if_neg (by simp [ha])).trans (if_pos hc)

theorem rraRequest_runs (hl : l = dg.map BitVec.toNat) (hw : who = (leBytes 4 ip.toNat).reverse ++ (leBytes 2 port.toNat).reverse)
    (ha : s.rraAuthentic l = true) (hh : s.rraHeld l = false) (hwait : s.rra.wait = []) :
    exec (.rraRequest ip port dg) s = .next (s.rraRun who l) := by
  subst hl hw
  exact (if_neg (by simp [ha])).trans (if_neg (by simp [hh, hwait]))

end

/-- A request whose number lies below the key's last one is answered with result 2 and has no other effect. -/
theorem State.rraRun_old {s : State} {who l : List Nat} (h : fieldAt l 8 8 < Tab.get (fun _ => 0) s.rra.last (fieldAt l 7 1)) :
    s.rraRun who l = ((s.log 0x0C14 0x6014 (fieldAt l 8 8 % 2 ^ 32)).ethIrq 4 3).rraAnswer who (fieldAt l 7 1) (fieldAt l 8 8) (fieldAt l 6 1) 2
      ((List.range (fieldAt l 6 1)).flatMap (fun _ => leBytes 4 4 ++ leBytes 4 0)) := by
  simp [State.rraRun, Nat.not_lt.mpr h.le, h.ne]

/-- A repeated request is answered from the answers kept for its key. -/
theorem State.rraRun_repeated {s : State} {who l recs : List Nat} (h : fieldAt l 8 8 = Tab.get (fun _ => 0) s.rra.last (fieldAt l 7 1))
    (hr : Tab.find s.rra.resp (fieldAt l 7 1) = some recs) :
    s.rraRun who l = s.rraAnswer who (fieldAt l 7 1) (fieldAt l 8 8) (recs.length / 8) 1 recs := by
  simp only [State.rraRun, h, Nat.lt_irrefl, if_false, if_true, hr]

theorem State.rraRun_new {s u : State} {who l recs : List Nat} (h : Tab.get (fun _ => 0) s.rra.last (fieldAt l 7 1) < fieldAt l 8 8)
    (hu : (s.rraAccept (fieldAt l 7 1) (fieldAt l 8 8)).rraOps ((List.range (fieldAt l 6 1)).map (fun i => (l.drop (0x20 + 16 * i)).take 16)) = (recs, u)) :
    s.rraRun who l = (u.setRra { u.rra with resp := Tab.put u.rra.resp (fieldAt l 7 1) recs }).rraAnswer who (fieldAt l 7 1) (fieldAt l 8 8)
      (fieldAt l 6 1) 0 recs := by
  simp only [State.rraRun, h, if_true, hu]

theorem State.rraRun_old_spec {s : State} {who l : List Nat} (h : fieldAt l 8 8 < Tab.get (fun _ => 0) s.rra.last (fieldAt l 7 1)) :
    (s.rraRun who l).rbit (Reg.ETH_IRQ 4) 3 = true ∧ Logs s (s.rraRun who l) 0x0C14 0x6014 (fieldAt l 8 8 % 2 ^ 32) ∧ (s.rraRun who l).rra = s.rra ∧
      SameMem s (s.rraRun who l) ∧ RegsKept s (s.rraRun who l) [Reg.ETH_IRQ 4, Reg.EVL_LOST] := by
  rw [State.rraRun_old h]
  simp (disch := grind) [State.rraAnswer, State.ethIrq, SameMem, -Nat.reducePow, logs_log]

/-- Settles O18: the cycle, the arrival and the request, each by the branch it takes. -/
theorem tickCatchAndRequestCommands : Obligations.TickCatchAndRequestCommands := by
  unfold Obligations.TickCatchAndRequestCommands
  refine ⟨fun _ => rfl, State.tick_spec, fun _ => timeBaseTick_idle, fun _ => State.settleHeld_owed, fun _ _ => catchArrival_none,
    fun _ _ _ => catchArrival_arrives, fun _ _ _ _ _ => catchArrival_migrates, fun _ _ _ _ => rraRequest_refused, ?_⟩
  intro s ip port dg l who hl hw ha
  refine ⟨fun h => ⟨_, rraRequest_waits hl hw ha h, ?_⟩, fun hh hwait h => ⟨_, rraRequest_runs hl hw ha hh hwait, State.rraRun_old_spec h⟩,
    fun recs hh hwait h hr => ?_, fun recs u hh hwait h hu => ?_⟩
  · exact ⟨rfl, fun _ => rfl, fun _ _ => rfl⟩
  · rw [rraRequest_runs hl hw ha hh hwait, State.rraRun_repeated h hr]
  · rw [rraRequest_runs hl hw ha hh hwait, State.rraRun_new h hu]

/-! ## Health -/

section
variable {s : State} {r : Res}

theorem State.evl_setHealthRec (u : State) (x : HealthRec) : (u.setHealthRec r x).evl = u.evl := rfl

theorem State.readmit_spec (hp : r.present = true) (hd : r.domainOf.any s.domainRetired = false) :
    (s.health r = .retired → (s.readmit r).health r = .testing ∧ Logs s (s.readmit r) (r.block * 256 + 4) (s.sourceOf r) (r.detail 0)) ∧
    (s.health r ≠ .retired → (s.readmit r).health r = s.health r ∧
      Logs s (s.readmit r) (r.block * 256 + 7) (s.sourceOf r) (r.detail (s.health r).code)) := by
  refine ⟨fun h => ⟨health_readmit h hp hd, ?_⟩, fun h => ?_⟩
  · rw [readmit_eq h]
    exact logs_lr 4 0 (evl_setHealth ..) (sourceOf_setHealth _ hp)
  · have heq : s.readmit r = s.logRes r 7 (s.health r).code := by
      unfold State.readmit
      split
      · contradiction
      · rfl
    rw [heq]
    exact ⟨health_logRes _ _ _ hp, logs_lr 7 _ rfl rfl⟩

theorem State.fatal_spec (c : Nat) (hp : r.present = true) (hd : r.domainOf.any s.domainRetired = false) :
    (s.inUse r = true → (s.fatal r c).health r = .retired ∧ Logs s (s.fatal r c) (r.block * 256 + 3) (s.sourceOf r) (r.detail (c + 2 ^ 31))) ∧
    (s.inUse r = false → s.fatal r c = s) := by
  constructor <;> intro h
  · have heq : s.fatal r c = (s.setHealth r .retired).logRes r 3 (c + 2 ^ 31) := if_pos h
    rw [heq, health_logRes _ _ _ hp, health_setHealth _ hp hd]
    exact ⟨rfl, logs_lr 3 _ (evl_setHealth ..) (sourceOf_setHealth _ hp)⟩
  · exact if_neg (by simp [h])

/-- A change of health with its record, then an event of the resource: the health, the record and the event that result. -/
theorem State.setHealth_setHealthRec_logRes_spec (h : Health) (x : HealthRec) (low d : Nat) (hp : r.present = true)
    (hd : r.domainOf.any s.domainRetired = false) :
    ((((s.setHealth r h).setHealthRec r x).logRes r low d).health r = h ∧ (((s.setHealth r h).setHealthRec r x).logRes r low d).healthRec r = x) ∧
      Logs s (((s.setHealth r h).setHealthRec r x).logRes r low d) (r.block * 256 + low) (s.sourceOf r) (r.detail d) := by
  refine ⟨⟨?_, ?_⟩, logs_lr low d (evl_setHealth ..) ?_⟩
  · rw [health_logRes _ _ _ hp, health_setHealthRec, health_setHealth _ hp hd]
  · rw [healthRec_logRes, healthRec_setHealthRec]
  · rw [sourceOf_setHealthRec, sourceOf_setHealth _ hp]

theorem State.evl_queue_length_logRes (low d : Nat) : (s.logRes r low d).evl.queue.length ≤ s.evl.queue.length + 1 :=
  log_length s _ _ _

theorem State.transientIn_spec (i : Nat × Nat) (c : Nat) (hp : r.present = true) (hd : r.domainOf.any s.domainRetired = false) :
    ((s.healthRec r).last = some i → s.transientIn r i c = s) ∧
    ((s.healthRec r).last ≠ some i →
      (s.health r = .service → 1 < (s.healthNW r).1 → (s.transientIn r i c).health r = .retry ∧
        (s.transientIn r i c).healthRec r = ⟨1, some i, s.time.cycle⟩ ∧ Logs s (s.transientIn r i c) (r.block * 256 + 1) (s.sourceOf r) (r.detail c)) ∧
      (s.health r = .service → (s.healthNW r).1 ≤ 1 → (s.transientIn r i c).health r = .retired ∧
        Logs s (s.transientIn r i c) (r.block * 256 + 3) (s.sourceOf r) (r.detail c)) ∧
      (s.health r = .retry → (s.healthRec r).count + 1 < (s.healthNW r).1 → (s.transientIn r i c).health r = .retry ∧
        (s.transientIn r i c).healthRec r = ⟨(s.healthRec r).count + 1, some i, (s.healthRec r).opened⟩ ∧ (s.transientIn r i c).evl = s.evl) ∧
      (s.health r = .retry → (s.healthNW r).1 ≤ (s.healthRec r).count + 1 → (s.transientIn r i c).health r = .retired ∧
        Logs s (s.transientIn r i c) (r.block * 256 + 3) (s.sourceOf r) (r.detail c)) ∧
      (s.health r = .retired ∨ s.health r = .testing → s.transientIn r i c = s)) := by
  refine ⟨fun h => if_pos h, fun hl => ⟨fun hh hn => ?_, fun hh hn => ?_, fun hh hn => ?_, fun hh hn => ?_, fun hh => ?_⟩⟩
  · have heq : s.transientIn r i c = ((s.setHealth r .retry).setHealthRec r ⟨1, some i, s.time.cycle⟩).logRes r 1 c := by
      simp only [State.transientIn, if_neg hl, hh, if_neg (Nat.not_le.mpr hn)]
    obtain ⟨⟨hh', hx⟩, hlog⟩ := State.setHealth_setHealthRec_logRes_spec .retry ⟨1, some i, s.time.cycle⟩ 1 c hp hd
    rw [heq]
    exact ⟨hh', hx, hlog⟩
  · have heq : s.transientIn r i c = (((s.setHealth r .retired).setHealthRec r ⟨1, some i, s.time.cycle⟩).logRes r 1 c).logRes r 3 c := by
      simp only [State.transientIn, if_neg hl, hh, if_pos hn]
    have hlen := State.evl_queue_length_logRes (s := (s.setHealth r .retired).setHealthRec r ⟨1, some i, s.time.cycle⟩) (r := r) 1 c
    rw [heq, health_logRes _ _ _ hp]
    refine ⟨(State.setHealth_setHealthRec_logRes_spec .retired _ 1 c hp hd).1.1, logs_logRes 3 c ?_ ?_⟩
    · rw [State.evl_setHealthRec, evl_setHealth] at hlen; omega
    · rw [sourceOf_logRes, sourceOf_setHealthRec, sourceOf_setHealth _ hp]
  · have heq : s.transientIn r i c = s.setHealthRec r { s.healthRec r with count := (s.healthRec r).count + 1, last := some i } := by
      simp only [State.transientIn, if_neg hl, hh, if_pos hn]
    rw [heq, health_setHealthRec, healthRec_setHealthRec]
    exact ⟨hh, rfl, rfl⟩
  · have heq : s.transientIn r i c = ((s.setHealth r .retired).setHealthRec r
        { s.healthRec r with count := (s.healthRec r).count + 1, last := some i }).logRes r 3 c := by
      simp only [State.transientIn, if_neg hl, hh, if_neg (Nat.not_lt.mpr hn)]
    obtain ⟨⟨hh', -⟩, hlog⟩ := State.setHealth_setHealthRec_logRes_spec .retired
      { s.healthRec r with count := (s.healthRec r).count + 1, last := some i } 3 c hp hd
    rw [heq]
    exact ⟨hh', hlog⟩
  · rcases hh with hh | hh <;> simp only [State.transientIn, if_neg hl, hh]

theorem State.windowElapsed_spec (hp : r.present = true) (hd : r.domainOf.any s.domainRetired = false) (hh : s.health r = .retry) :
    (s.lasted (s.healthRec r).opened ((s.healthNW r).2 * cycPerMs) = false → s.windowElapsed r = s) ∧
    (s.lasted (s.healthRec r).opened ((s.healthNW r).2 * cycPerMs) = true → (s.windowElapsed r).health r = .service ∧
      ((s.windowElapsed r).healthRec r).count = 0 ∧
      Logs s (s.windowElapsed r) (r.block * 256 + 2) (s.sourceOf r) (r.detail (s.healthRec r).count)) := by
  refine ⟨fun h => ?_, fun h => ?_⟩
  · unfold State.windowElapsed
    rw [hh]
    exact if_neg (by simp [h])
  · have heq : s.windowElapsed r =
        ((s.setHealth r .service).setHealthRec r { s.healthRec r with count := 0 }).logRes r 2 (s.healthRec r).count := by
      unfold State.windowElapsed
      rw [hh]
      exact if_pos h
    obtain ⟨⟨hh', hx⟩, hlog⟩ := State.setHealth_setHealthRec_logRes_spec .service { s.healthRec r with count := 0 } 2 (s.healthRec r).count hp hd
    rw [heq]
    exact ⟨hh', congrArg HealthRec.count hx, hlog⟩

theorem State.testPassed_eq (hh : s.health r = .testing) :
    s.testPassed r = ((s.setHealth r .service).setHealthRec r { s.healthRec r with count := 0 }).logRes r 5 0 := by
  unfold State.testPassed; rw [hh]

theorem State.testFailed_eq (c : Nat) (hh : s.health r = .testing) : s.testFailed r c = (s.setHealth r .retired).logRes r 6 c := by
  unfold State.testFailed; rw [hh]

theorem State.testPassed_spec (hp : r.present = true) (hd : r.domainOf.any s.domainRetired = false) (hh : s.health r = .testing) :
    (s.testPassed r).health r = .service ∧ ((s.testPassed r).healthRec r).count = 0 ∧
      Logs s (s.testPassed r) (r.block * 256 + 5) (s.sourceOf r) (r.detail 0) := by
  obtain ⟨⟨hh', hx⟩, hlog⟩ := State.setHealth_setHealthRec_logRes_spec .service { s.healthRec r with count := 0 } 5 0 hp hd
  rw [State.testPassed_eq hh]
  exact ⟨hh', congrArg HealthRec.count hx, hlog⟩

theorem State.testFailed_spec (c : Nat) (hp : r.present = true) (hd : r.domainOf.any s.domainRetired = false) (hh : s.health r = .testing) :
    (s.testFailed r c).health r = .retired ∧ Logs s (s.testFailed r c) (r.block * 256 + 6) (s.sourceOf r) (r.detail c) := by
  rw [State.testFailed_eq c hh, health_logRes _ _ _ hp, health_setHealth _ hp hd]
  exact ⟨rfl, logs_lr 6 c (evl_setHealth ..) (sourceOf_setHealth _ hp)⟩

end

/-- Settles O19: one lemma for each of the model's operations on a resource's health. -/
theorem healthModel : Obligations.HealthModel := by
  unfold Obligations.HealthModel
  exact ⟨fun _ _ => State.readmit_spec, fun _ _ => State.fatal_spec, fun _ _ => State.transientIn_spec, fun _ _ c hp hd =>
    ⟨fun hh => (State.windowElapsed_spec hp hd hh).1, fun hh => (State.windowElapsed_spec hp hd hh).2, State.testPassed_spec hp hd,
      State.testFailed_spec c hp hd⟩⟩

end Sys2Proof.Machine


/-! PROOFS. Re-admission, windows and test ends of resources (R30): which operation on the health each command runs. What that operation does to
the health is said once, in the lemmas of the health model. -/

namespace Sys2Proof.Machine

/-! ## Re-admission commands of analogue resources -/

section
variable {s u v : State}

theorem converterReadmit_other {k : Fin 20} (h : s.health (.conv k) ≠ .retired) : exec (.converterReadmit k) s = .next (s.readmit (.conv k)) :=
  if_pos h

theorem converterReadmit_refused {k : Fin 20} (h : s.health (.conv k) = .retired) (hu : u = s.readmit (.conv k)) (hk : 16 ≤ k.val)
    (hd : u.hasDiag k = false ∨ u.inUse (.tdac (2 * (k - 16))) = false) : exec (.converterReadmit k) s = .next (u.testFailed (.conv k) 1) := by
  subst hu
  exact (if_neg (not_not.mpr h)).trans (if_pos ⟨hk, by simpa using hd⟩)

theorem converterReadmit_tests {k : Fin 20} (h : s.health (.conv k) = .retired) (hu : u = s.readmit (.conv k))
    (hd : k.val < 16 ∨ (u.hasDiag k = true ∧ u.inUse (.tdac (2 * (k - 16))) = true)) :
    exec (.converterReadmit k) s = .next (u.setConv k { u.convOf k with test := some (u.convTest k) }) := by
  subst hu
  refine (if_neg (not_not.mpr h)).trans (if_neg ?_)
  rcases hd with hk | ⟨hdiag, huse⟩
  · exact fun hc => absurd hc.1 (by omega)
  · simp [hdiag, huse]

theorem tdacReadmit_other {p : Fin 8} (h : s.health (.tdac p) ≠ .retired) : exec (.tdacReadmit p) s = .next (s.readmit (.tdac p)) :=
  if_pos h

theorem tdacReadmit_tests {p : Fin 8} (h : s.health (.tdac p) = .retired) (hu : u = s.readmit (.tdac p)) (hp : u.pairInService p = true) :
    exec (.tdacReadmit p) s = .next (u.setPair p { u.pairOf p with dacTest := some (0, false) }) := by
  subst hu
  exact (if_neg (not_not.mpr h)).trans (if_pos hp)

theorem tdacReadmit_fails {p : Fin 8} {c : Nat} (h : s.health (.tdac p) = .retired) (hu : u = s.readmit (.tdac p))
    (hp : u.pairInService p = false) (hc : u.freshNat = (c, v)) : exec (.tdacReadmit p) s = .next (v.testFailed (.tdac p) c) := by
  subst hu
  refine (if_neg (not_not.mpr h)).trans ((if_neg (by simp [hp])).trans ?_)
  rw [hc]

theorem cloReadmit_restarts {n : Fin 16} : (s.health (.clo n) = .retired →
      exec (.cloReadmit n) s = .next (((s.setClo n { s.cloOf n with readings := [] }).readmit (.clo n)).cloDrive n)) ∧
    (s.health (.clo n) ≠ .retired → exec (.cloReadmit n) s = .next ((s.readmit (.clo n)).cloDrive n)) := by
  constructor <;> intro h <;> simp only [exec, execCloReadmit, h, if_true, if_false]

end

/-! ## Re-admission of a port, a lane and a link: its change of health is shown by an interrupt or a flag -/

/-- Setting a bit of a register that holds neither the resource's health nor its domain's leaves the health. -/
theorem State.setRbit_readmit_spec {s : State} {r : Res} (a i : Nat) (hp : r.present = true) (hd : r.domainOf.any s.domainRetired = false)
    (h : s.health r = .retired) (h1 : ∀ d, r.domainOf = some d → (F.RPC_DOM_HEALTH d).addr ≠ a) (h2 : ∀ f, r.healthFld = some f → f.addr ≠ a)
    (hi : i < 32) : ((s.readmit r).setRbit a i true).health r = .testing ∧ ((s.readmit r).setRbit a i true).rbit a i = true := by
  rw [health_setRbit a i true h1 h2]
  exact ⟨health_readmit h hp hd, State.rbit_setRbit_same _ _ true hi⟩

theorem canReadmit_tests {s : State} {n : Fin 8} (h : s.health (.can n) = .retired) (hd : s.domainRetired 4 = false) :
    Gives (.canReadmit n) s (fun t => t.health (.can n) = .testing ∧ t.rbit (Reg.CAN_IRQ n) 18 = true) := by
  refine ⟨_, rfl, ?_⟩
  have hp : (Res.can n).present = true := by simp [Res.present]
  have ht := health_readmit h hp hd
  have hspec := State.setRbit_readmit_spec (Reg.CAN_IRQ n) 18 hp hd h (by simp [Res.domainOf]; grind) (by simp [Res.healthFld]) (by decide)
  have heq : s.canHealth n (fun s => s.readmit (.can n)) = (s.readmit (.can n)).setRbit (Reg.CAN_IRQ n) 18 true := by
    simp [State.canHealth, State.canIrq, h, ht, hspec.1]
  rw [heq]
  exact hspec

theorem ethReadmit_tests {s : State} {n : Fin 6} (h : s.health (.eth n) = .retired) (hd : s.domainRetired 4 = false) :
    Gives (.ethReadmit n) s (fun t => t.health (.eth n) = .testing ∧ t.rbit (Reg.ETH_IRQ n) 2 = true) := by
  refine ⟨_, rfl, ?_⟩
  have hp : (Res.eth n).present = true := by simp [Res.present]
  have heq : s.ethHealth n (fun s => s.readmit (.eth n)) = (s.readmit (.eth n)).setRbit (Reg.ETH_IRQ n) 2 true := by
    simp [State.ethHealth, State.ethIrq, h, health_readmit h hp hd]
  rw [heq]
  exact State.setRbit_readmit_spec (Reg.ETH_IRQ n) 2 hp hd h (by simp [Res.domainOf]; grind) (by simp [Res.healthFld]) (by decide)

theorem State.laneHealth_readmit_spec {s : State} {l : Nat} (hl : l < 2) (h : s.health (.lane l) = .retired) :
    (s.laneHealth l (fun s => s.readmit (.lane l))).health (.lane l) = .testing ∧
      (s.laneHealth l (fun s => s.readmit (.lane l))).rbit Reg.PLK_IRQ 4 = true := by
  have hp : (Res.lane l).present = true := by simpa [Res.present] using hl
  have heq : s.laneHealth l (fun s => s.readmit (.lane l)) = (s.readmit (.lane l)).setRbit Reg.PLK_IRQ 4 true := by
    simp [State.laneHealth, State.plkIrq, h, health_readmit h hp rfl]
  rw [heq]
  refine State.setRbit_readmit_spec Reg.PLK_IRQ 4 hp rfl h (by simp [Res.domainOf]) ?_ (by decide)
  simp only [Res.healthFld, Option.some.injEq]
  rintro f rfl
  split <;> decide

theorem linkReadmit_tests {s : State} {l : BitVec 4} (hl : l.toNat < 12) (h : s.health (.link l.toNat) = .retired) :
    Gives (.linkReadmit l) s (fun t => t.health (.link l.toNat) = .testing ∧ t.flag F.FWL_STATUS_LINK = true) := by
  refine ⟨_, if_pos hl, ?_⟩
  have hp : (Res.link l.toNat).present = true := by simpa [Res.present] using hl
  have ht := health_readmit h hp rfl
  have heq : s.linkHealth l.toNat (fun s => s.readmit (.link l.toNat)) = (s.readmit (.link l.toNat)).setFld F.FWL_STATUS_LINK 1 := by
    simp [State.linkHealth, h, ht]
  rw [heq]
  refine ⟨?_, State.flag_setFld_same _ 1 (by decide)⟩
  refine (health_congr (by simp [Res.domainOf]) ?_ (State.setFld_healthX _ _ _)).trans ht
  simp only [Res.healthFld, Option.some.injEq]
  rintro f rfl
  exact State.rd_setFld_other _ _ _ (by grind)

/-! ## The pavilion's re-admission -/

theorem pvmReadmit_brake {s : State} {b : Nat} (h7 : s.mbHas 1 7 = true) (h1 : s.mbReq 1 1 = 0) (h2 : s.mbReq 1 2 = b) (hb : b < 8)
    (h : s.health (.brake b) = .retired) : exec .pvmReadmit s = .next ((s.readmit (.brake b)).mbAnswer 1 0 0) := by
  subst h2
  refine (if_neg (by simp [h7])).trans ?_
  simp only [h1, hb, if_true, h]

/-! ## Windows and test ends -/

section
variable {s u : State} {code : BitVec 16}

theorem retryWindowElapsed_runs {r : Res} (hp : r.present = true) :
    exec (.retryWindowElapsed r) s = .next (s.withOwner r (fun s => s.windowElapsed r)) := by
  simp only [exec, execRetryWindowElapsed, hp, if_true]

/-- The end of a test is heeded only of a resource under test. -/
theorem readmitTestDone_guard {r : Res} (hp : r.present = true) (ht : s.health r = .testing) :
    (!r.present || s.health r != .testing) = false := by simp [hp, ht]

theorem readmitTestDone_other {r : Res} (hp : r.present = true) (ht : s.health r = .testing) (hcrew : ∀ n, r ≠ .crew n)
    (hdomain : ∀ d, r ≠ .domain d) (hconv : ∀ k, r ≠ .conv k) (htdac : ∀ p, r ≠ .tdac p) (hconn : ∀ k, r ≠ .conn k) (hclo : ∀ n, r ≠ .clo n) :
    exec (.readmitTestDone r code) s =
      .next (if code = 0 then s.readmitted r else s.withOwner r (fun s => s.testFailed r code.toNat)) := by
  simp only [exec, execReadmitTestDone, readmitTestDone_guard hp ht, Bool.false_eq_true, if_false]
  cases r with
  | conv k => exact absurd rfl (hconv k)
  | tdac p => exact absurd rfl (htdac p)
  | crew n => exact absurd rfl (hcrew n)
  | clo n => exact absurd rfl (hclo n)
  | conn k => exact absurd rfl (hconn k)
  | domain d => exact absurd rfl (hdomain d)
  | stage | enc | vdr | can | eth | lane | cdm | rmv | link | brake | group => exact (apply_ite Host.Outcome.next _ _ _).symm

theorem readmitTestDone_analogue {r : Res} (hp : r.present = true) (ht : s.health r = .testing) (hr : (∃ k, r = .conv k) ∨ ∃ p, r = .tdac p) :
    exec (.readmitTestDone r code) s = .next (s.anaTested r) := by
  rcases hr with ⟨k, rfl⟩ | ⟨p, rfl⟩ <;> exact if_neg (by simp [hp, ht])

theorem State.anaTested_spec {r : Res} :
    (s.anaVerdict r = none → s.anaTested r = s) ∧ (s.anaVerdict r = some true → s.anaTested r = s.readmitted r) ∧
    (∀ c u, s.anaVerdict r = some false → s.freshNat = (c, u) →
      s.anaTested r = (u.anaTestOver r).withOwner r (fun s => s.testFailed r c)) := by
  refine ⟨fun h => ?_, fun h => ?_, fun c u h hu => ?_⟩
  · simp only [State.anaTested, h]
  · simp only [State.anaTested, h]
  · simp only [State.anaTested, h, hu]

theorem readmitTestDone_clo {n : Nat} (hn : n < 16) (ht : s.health (.clo n) = .testing) :
    (s.cloVerdict n = none → exec (.readmitTestDone (.clo n) code) s = .next s) ∧
    (s.cloVerdict n = some true → exec (.readmitTestDone (.clo n) code) s = .next (s.readmitted (.clo n))) ∧
    (∀ c u, s.cloVerdict n = some false → s.freshNat = (c, u) →
      exec (.readmitTestDone (.clo n) code) s = .next (u.withOwner (.clo n) (fun s => s.testFailed (.clo n) c))) := by
  have hg := readmitTestDone_guard (r := .clo n) (by simpa [Res.present] using hn) ht
  refine ⟨fun h => ?_, fun h => ?_, fun c u h hu => ?_⟩
  · simp only [exec, execReadmitTestDone, hg, Bool.false_eq_true, if_false, h]
  · simp only [exec, execReadmitTestDone, hg, Bool.false_eq_true, if_false, h]
  · simp only [exec, execReadmitTestDone, hg, Bool.false_eq_true, if_false, h, hu]

theorem readmitTestDone_conn {k : Nat} (hk : k < 1024) (ht : s.health (.conn k) = .testing) :
    (s.lasted (s.connOf k).test (1000 * cycPerMs) = false → exec (.readmitTestDone (.conn k) code) s = .next s) ∧
    (∀ c u, s.lasted (s.connOf k).test (1000 * cycPerMs) = true → s.freshNat = (c, u) →
      exec (.readmitTestDone (.conn k) code) s = .next (u.withOwner (.conn k) (fun s => s.testFailed (.conn k) c))) := by
  have hg := readmitTestDone_guard (r := .conn k) (by simpa [Res.present] using hk) ht
  refine ⟨fun h => ?_, fun c u h hu => ?_⟩
  · simp only [exec, execReadmitTestDone, hg, Bool.false_eq_true, if_false, h]
  · simp only [exec, execReadmitTestDone, hg, Bool.false_eq_true, if_false, if_true, h, hu]

theorem readmitTestDone_crew {n : Nat} (hn : n < 9) (ht : s.health (.crew n) = .testing) :
    exec (.readmitTestDone (.crew n) code) s = .next (s.crewTested n code.toNat) :=
  if_neg (by simp [Res.present, hn, ht])

/-! The clock check of a domain under test (R539). -/

theorem State.domainTested_eq {d c : Nat} (ht : s.health (.domain d) = .testing) (hl : s.lasted (s.clkAt d) (1000 * cycPerMs) = true) :
    s.domainTested d c = if c = 0 then
      ((((s.testPassed (.domain d)).setFld (F.RPC_DOM_HELD d) 0).setFld (F.RPC_DOM_CLK_GOOD d) 1).setFld (F.RPC_DOM_RELEASED d) 1).rpcIrq 5
    else (s.testFailed (.domain d) c).rpcIrq 5 :=
  if_neg (by simp [ht, hl])

/-- The health of a domain is the field HEALTH of its own register. -/
theorem State.health_domain (s : State) (d : Nat) : s.health (.domain d) = Health.ofCode (s.fld (F.RPC_DOM_HEALTH d)) := rfl

theorem domainClockCheckDone_passes {d : Fin 32} (ht : s.health (.domain d) = .testing) (hl : s.lasted (s.clkAt d) (1000 * cycPerMs) = true) :
    Gives (.domainClockCheckDone d true) s (fun t => t.health (.domain d) = .service ∧ t.flag (F.RPC_DOM_RELEASED d) = true ∧
      t.flag (F.RPC_DOM_HELD d) = false ∧ t.rbit Reg.RPC_IRQ 5 = true) := by
  refine ⟨_, congrArg Host.Outcome.next ((State.domainTested_eq ht hl).trans (if_pos rfl)), ?_⟩
  have hh := (State.testPassed_spec (r := .domain d) (by simp [Res.present]) rfl ht).1
  rw [State.health_domain] at hh
  simp (disch := grind) [State.health_domain, State.rpcIrq, hh]

theorem domainClockCheckDone_fails {d : Fin 32} (ht : s.health (.domain d) = .testing) (hl : s.lasted (s.clkAt d) (1000 * cycPerMs) = true) :
    Gives (.domainClockCheckDone d false) s (fun t => t.health (.domain d) = .retired ∧ t.rbit Reg.RPC_IRQ 5 = true) := by
  refine ⟨_, congrArg Host.Outcome.next ((State.domainTested_eq ht hl).trans (if_neg (by decide))), ?_⟩
  have hh := (State.testFailed_spec (r := .domain d) 1 (by simp [Res.present]) rfl ht).1
  rw [State.health_domain] at hh
  simp (disch := grind) [State.health_domain, State.rpcIrq, hh]

end

/-- Settles O20: the operation each command runs on the health of its resource. -/
theorem readmissionCommands : Obligations.ReadmissionCommands := by
  unfold Obligations.ReadmissionCommands
  refine ⟨fun _ _ => rfl, fun _ _ => rfl, fun _ _ _ h => if_neg (by simp [h]), fun _ _ => rfl, fun _ _ => converterReadmit_other,
    fun _ _ _ h hu => ⟨converterReadmit_refused h hu, converterReadmit_tests h hu⟩, fun _ _ => tdacReadmit_other,
    fun _ _ _ => tdacReadmit_tests, fun _ _ _ _ _ => tdacReadmit_fails, fun _ _ => cloReadmit_restarts, fun _ _ => rfl,
    fun _ _ => canReadmit_tests, fun _ _ => ethReadmit_tests, fun _ h => ⟨_, rfl, State.laneHealth_readmit_spec (by decide) h⟩,
    fun _ h => ⟨_, rfl, State.laneHealth_readmit_spec (by decide) h⟩, fun _ _ => linkReadmit_tests, fun _ _ => pvmReadmit_brake,
    fun _ _ => retryWindowElapsed_runs, fun _ _ _ => readmitTestDone_other, fun s r code hp ht hr => ?_, fun _ _ _ => readmitTestDone_clo,
    fun _ _ _ => readmitTestDone_conn, fun _ _ _ => readmitTestDone_crew, fun _ _ => domainClockCheckDone_passes,
    fun _ _ => domainClockCheckDone_fails⟩
  obtain ⟨hnone, htrue, hfalse⟩ := State.anaTested_spec (s := s) (r := r)
  rw [readmitTestDone_analogue hp ht hr]
  exact ⟨fun h => congrArg _ (hnone h), fun h => congrArg _ (htrue h), fun c u h hu => congrArg _ (hfalse c u h hu)⟩

end Sys2Proof.Machine


/-! PROOFS. Accesses of the bus masters, the firewall and the memories' integrity (R3 to R6, R18 to R26, R491 to R499, R581). -/

namespace Sys2Proof.Machine

/-! ## The order of an access's checks -/

section
variable {s : State} {m a n v mask : Nat} {k : Access} {e : Ecc} {task : Option (Nat × Nat)}

theorem State.access_frozen (h : s.frozen m = true) : s.access m k a n v mask e task = s := if_pos h

theorem State.access_denied (hf : s.frozen m = false) (ha : s.fwlAllowed m a n k = false) :
    s.access m k a n v mask e task = (s.violate m a k task).busErr := by
  simp [State.access, hf, ha]

theorem State.access_allowed (hf : s.frozen m = false) (ha : s.fwlAllowed m a n k = true) :
    s.access m k a n v mask e task = s.perform m k a n v mask e := by
  simp [State.access, hf, ha]

/-- An access at a place outside the crew windows is performed there. -/
theorem State.perform_atPlace {p : Place} (hp : placeOf a = p) (halias : aliasOf a = none) : s.perform m k a n v mask e = s.atPlace p m k a n v mask e := by
  simp only [State.perform, halias, hp]

theorem State.access_atPlace {p : Place} (hf : s.frozen m = false) (ha : s.fwlAllowed m a n k = true) (hp : placeOf a = p)
    (h1 : ∀ c, p ≠ .crewAlias c) (h2 : ∀ c, p ≠ .regOfCrew c) : s.access m k a n v mask e task = s.atPlace p m k a n v mask e := by
  rw [State.access_allowed hf ha]
  refine State.perform_atPlace hp ?_
  unfold aliasOf
  rw [hp]
  split
  · exact absurd rfl (h1 _)
  · exact absurd rfl (h2 _)
  · rfl

end

/-! ## Violations and their release (R491 to R494) -/

theorem State.violate_eq {s : State} {m : Nat} (a : Nat) (k : Access) (task : Option (Nat × Nat)) (h : (2 ≤ m ∧ m < 64) ∨ 140 ≤ m) :
    ∃ u : State, (u = s ∨ u = ((s.setNum Reg.FWL_VIOL_INFO (k.kind * 2 ^ 8 + m)).setNum Reg.FWL_VIOL_ADDR_LO (a % 2 ^ 32)).setNum
        Reg.FWL_VIOL_ADDR_HI (a / 2 ^ 32 % 256)) ∧ ∃ x, s.violate m a k task =
      (((((u.setFwl x).count Reg.FWL_VIOL_COUNT 1).setRbit (Reg.FWL_FROZEN (m / 32)) (m % 32) true).setFld F.FWL_STATUS_VIOL 1).log 0x1010
        (masterSource m) (a % 2 ^ 32)) := by
  have hwork (t : State) : t.freezeWork m = t := by
    unfold State.freezeWork
    rw [if_neg (by omega), if_neg (by omega), if_neg (by omega), if_neg (by omega)]
  simp only [State.violate, hwork]
  by_cases hl : s.fwl.viols.any (fun e => e.2.at_ == s.time.cycle && decide (e.1 < m)) = true
  · exact ⟨s, .inl rfl, _, by simp only [hl, if_true]; rfl⟩
  · exact ⟨_, .inr rfl, _, by simp only [hl]; rfl⟩

theorem memoryAccess_denied {s : State} {src : Fin 160} {k : Access} {a : BitVec 40} {len : Fin 65} (v : BitVec 512) (e : Ecc)
    (task : Option (Fin 512 × Fin 2)) (hf : s.frozen src = false) (ha : s.fwlAllowed src a.toNat len.val k = false)
    (hm : (2 ≤ src.val ∧ src.val < 64) ∨ 140 ≤ src.val) :
    Gives (.memoryAccess src k a len v e task) s (fun t => t.frozen src = true ∧ t.flag F.FWL_STATUS_VIOL = true ∧
      t.num Reg.FWL_VIOL_COUNT = satAdd 0xFFFFFFFF (s.num Reg.FWL_VIOL_COUNT) 1 ∧ t.bus = ⟨true, 0⟩ ∧
      Logs s t 0x1010 (masterSource src) (a.toNat % 2 ^ 32) ∧ SameMem s t ∧
      RegsKept s t [Reg.FWL_VIOL_INFO, Reg.FWL_VIOL_ADDR_LO, Reg.FWL_VIOL_ADDR_HI, Reg.FWL_VIOL_COUNT, Reg.FWL_FROZEN (src / 32), Reg.FWL_STATUS,
        Reg.EVL_LOST]) := by
  refine ⟨_, congrArg Host.Outcome.next (State.access_denied hf ha), ?_⟩
  obtain ⟨u, hu, x, heq⟩ := State.violate_eq (s := s) a.toNat k (task.map (fun t => (t.1.val, t.2.val))) hm
  rw [heq]
  have hlog : Logs s (((((u.setFwl x).count Reg.FWL_VIOL_COUNT 1).setRbit (Reg.FWL_FROZEN (src / 32)) (src % 32) true).setFld F.FWL_STATUS_VIOL 1).log
      0x1010 (masterSource src) (a.toNat % 2 ^ 32)) 0x1010 (masterSource src) (a.toNat % 2 ^ 32) :=
    logs_log _ _ _ (by rcases hu with rfl | rfl <;> rfl)
  rcases hu with rfl | rfl <;>
    simp (disch := grind) [State.busErr, State.frozen, SameMem, -Nat.reducePow, hlog]

theorem State.unfreeze_ignored {s : State} {src key m : Nat} (h : src ≠ 0 ∨ key ≠ 0xA5 ∨ m = 0 ∨ s.frozen m = false) : s.unfreeze src key m = s :=
  if_pos (by simpa using h)

theorem State.unfreeze_spec {s : State} {m : Nat} {x : Viol} (hlo : 2 ≤ m) (hhi : m < 16) (hf : s.frozen m = true)
    (hx : Tab.find s.fwl.viols m = some x) (hat : x.at_ ≠ s.time.cycle) :
    (s.unfreeze 0 0xA5 m).frozen m = false ∧ Logs s (s.unfreeze 0 0xA5 m) 0x1011 (masterSource m) 0 ∧
      Tab.find (s.unfreeze 0 0xA5 m).fwl.viols m = none ∧ SameMem s (s.unfreeze 0 0xA5 m) ∧
      RegsKept s (s.unfreeze 0 0xA5 m) [Reg.FWL_FROZEN (m / 32), Reg.EVL_LOST] := by
  have heq : s.unfreeze 0 0xA5 m = (s.unfrozen m 0).unfreezeWork m x := by
    refine (if_neg (by simp [hf]; omega)).trans ?_
    rw [hx]
    exact if_neg hat
  have hwork (t : State) : t.unfreezeWork m x = t ∨ t.unfreezeWork m x = t.setBus ⟨true, 0⟩ := by
    unfold State.unfreezeWork
    by_cases h8 : m < 8
    · exact .inr (if_pos h8)
    · rw [if_neg h8, if_neg (by omega), if_neg (by omega), if_neg (by omega)]
      exact .inl rfl
  have hlog : Logs s (s.unfrozen m 0) 0x1011 (masterSource m) 0 := logs_log _ _ _ rfl
  unfold State.unfrozen at hlog
  rw [heq]
  rcases hwork (s.unfrozen m 0) with h | h <;> rw [h] <;>
    simp (disch := grind) [State.unfrozen, State.frozen, SameMem, Tab.find_del_self, hlog]

/-! ## Memories (R581) -/

theorem memForm_iff (m a n : Nat) : memForm m a n = true ↔
    (n = 1 ∨ n = 2 ∨ n = 4 ∨ n = 8) ∧ a % n = 0 ∨ ¬(n = 1 ∨ n = 2 ∨ n = 4 ∨ n = 8) ∧ 16 ≤ m ∧ 1 ≤ n ∧ a % 64 + n ≤ 64 := by
  unfold memForm burstMaster
  by_cases hn : n = 1 ∨ n = 2 ∨ n = 4 ∨ n = 8
  · simp [hn]
  · simp [hn, and_assoc]

theorem State.memRead_eq_rdMem (s : State) {m : Nat} (hm : m ≠ 1) (a n : Nat) : s.memRead m a n = s.rdMem a n := by
  induction n generalizing a with
  | zero => rfl
  | succ n ih => simp only [State.memRead, State.rdMem, if_neg hm, ih]

section
variable {s : State} {src : Fin 160} {a : BitVec 40} {len : Fin 65}

theorem memoryAccess_ram {k : Access} (v : BitVec 512) (e : Ecc) (task : Option (Fin 512 × Fin 2)) (hf : s.frozen src = false)
    (ha : s.fwlAllowed src a.toNat len.val k = true) (hp : placeOf a.toNat = .ram) : exec (.memoryAccess src k a len v e task) s =
      .next (if !memForm src a.toNat len.val then s.busErr else s.memAccess src k a.toNat len.val v.toNat (2 ^ 512 - 1) e) :=
  congrArg Host.Outcome.next (State.access_atPlace hf ha hp (by simp) (by simp))

theorem memoryAccess_write (v : BitVec 512) (e : Ecc) (task : Option (Fin 512 × Fin 2)) (hf : s.frozen src = false)
    (ha : s.fwlAllowed src a.toNat len.val .write = true) (hp : placeOf a.toNat = .ram) :
    (memForm src a.toNat len.val = true → src ≠ 1 → Gives (.memoryAccess src .write a len v e task) s (fun t =>
      t.rdMem a.toNat len.val = v.toNat % 256 ^ len.val ∧ SameMemOutside s t a.toNat len.val ∧ t.bus = ⟨false, 0⟩ ∧ RegsKept s t [])) ∧
    (memForm src a.toNat len.val = false → exec (.memoryAccess src .write a len v e task) s = .next s.busErr) := by
  rw [memoryAccess_ram v e task hf ha hp]
  refine ⟨fun hm h1 => ?_, fun hm => by simp [hm]⟩
  have h1' : src.val ≠ 1 := fun h => h1 (Fin.ext h)
  have heq : s.memAccess src .write a.toNat len.val v.toNat (2 ^ 512 - 1) e = (s.wrMem a.toNat len.val v.toNat).busOk 0 := by
    simp only [State.memAccess, State.memWrite, if_true, if_neg h1']
  refine ⟨_, (memoryAccess_ram v e task hf ha hp).trans (congrArg _ ((if_neg (by simp [hm])).trans heq)), ?_, ?_, rfl, ?_⟩
  · exact (rdMem_congr (State.setBus_mem _ _) _ _).trans (s.rdMem_wrMem_self _ _ _)
  · exact fun b hb => s.rdByte_wrMem_other _ hb
  · simp [State.busOk]

theorem memoryAccess_read (v : BitVec 512) (task : Option (Fin 512 × Fin 2)) (hf : s.frozen src = false)
    (ha : s.fwlAllowed src a.toNat len.val .read = true) (hp : placeOf a.toNat = .ram) (hm : memForm src a.toNat len.val = true) (h1 : src ≠ 1) :
    exec (.memoryAccess src .read a len v .clean task) s = .next (s.busOk (s.rdMem a.toNat len.val)) := by
  have h1' : src.val ≠ 1 := fun h => h1 (Fin.ext h)
  rw [memoryAccess_ram v .clean task hf ha hp, if_neg (by simp [hm])]
  simp [State.memAccess, State.eccAt, State.memRead_eq_rdMem s h1']

end

/-! ## Register writes (R3 to R6) -/

section
variable {s : State} {src : Fin 160} {a : BitVec 40} {size : Fin 4}

theorem two_pow_ne_four_iff : ∀ n : Fin 4, 2 ^ n.val ≠ 4 ↔ n ≠ 2 := by decide

theorem registerWrite_reg (v : BitVec 64) (hf : s.frozen src = false) (ha : s.fwlAllowed src a.toNat (2 ^ size.val) .write = true)
    (hp : placeOf a.toNat = .reg) :
    (size ≠ 2 ∨ a.toNat % 4 ≠ 0 ∨ regDesc (regAlias a.toNat) = none → exec (.registerWrite src a size v) s = .next s.busErr) ∧
    (∀ d, size = 2 → a.toNat % 4 = 0 → regDesc (regAlias a.toNat) = some d →
      exec (.registerWrite src a size v) s = .next ((s.regWrite src d (regAlias a.toNat) (v.toNat % 2 ^ 32)).busOk 0)) := by
  have heq : exec (.registerWrite src a size v) s = .next (s.regAccess src .write a.toNat (2 ^ size.val) v.toNat 0 .clean) :=
    congrArg Host.Outcome.next (State.access_atPlace hf ha hp (by simp) (by simp))
  have hsize : 2 ^ size.val ≠ 4 ↔ size ≠ 2 := two_pow_ne_four_iff size
  rw [heq]
  refine ⟨fun h => congrArg _ ?_, fun d h2 h4 hd => congrArg _ ?_⟩
  · unfold State.regAccess
    by_cases hform : 2 ^ size.val ≠ 4 ∨ a.toNat % 4 ≠ 0 ∨ Access.write = .fetch
    · exact if_pos hform
    · obtain ⟨hs, hal⟩ : 2 ^ size.val = 4 ∧ a.toNat % 4 = 0 := by simpa using hform
      have hnone : regDesc (regAlias a.toNat) = none := (h.resolve_left fun h => hsize.mpr h hs).resolve_left (not_not.mpr hal)
      rw [if_neg hform, hnone]
  · subst h2
    unfold State.regAccess
    rw [if_neg (by simp [h4]), hd]
    exact if_pos rfl

theorem registerWrite_nowhere (v : BitVec 64) (hf : s.frozen src = false) (ha : s.fwlAllowed src a.toNat (2 ^ size.val) .write = true)
    (hp : placeOf a.toNat = .nowhere) :
    Gives (.registerWrite src a size v) s (fun t => t.bus = ⟨true, 0⟩ ∧ Logs s t 0x0012 (masterSource src) (a.toNat % 2 ^ 32) ∧
      SameMem s t ∧ RegsKept s t [Reg.EVL_LOST]) := by
  refine ⟨_, congrArg Host.Outcome.next (State.access_atPlace hf ha hp (by simp) (by simp)), rfl, ?_⟩
  simp [State.atPlace, State.unmapped, State.busErr, SameMem, -Nat.reducePow, logs_log]

/-- A plain write clears the write-one-to-clear bits it has set, takes the writable bits and keeps the others. -/
theorem State.plainWrite_testBit (s : State) (d : RegDesc) (a v : Nat) {i : Nat} (hi : i < 32) : ((s.plainWrite d a v).num a).testBit i =
    if v.testBit i && d.w1c.testBit i then false else if d.rw.testBit i then v.testBit i else (s.num a).testBit i := by
  have hones : Nat.testBit 0xFFFFFFFF i = true := by
    rw [show 0xFFFFFFFF = 2 ^ 32 - 1 from rfl, Nat.testBit_two_pow_sub_one]
    simpa using hi
  unfold State.plainWrite
  rw [State.num_setNum_self, Nat.testBit_mod_two_pow]
  simp only [hi, decide_true, Bool.true_and, Nat.testBit_and, Nat.testBit_or, Nat.testBit_xor, hones]
  cases v.testBit i <;> cases d.w1c.testBit i <;> cases d.rw.testBit i <;> simp

end

/-! ## Logical aliases (R24, R25) -/

section
variable {s : State} {src : Fin 160} {m : Fin 8} {o : BitVec 24} {len : Fin 65}

theorem placeOf_crewAlias (m : Fin 8) (o : BitVec 24) : placeOf (0x50000000 + m.val * 0x1000000 + o.toNat) = .crewAlias m := by
  have ho := o.isLt
  have hm := m.isLt
  unfold placeOf
  rw [if_neg (by omega), if_neg (by omega), if_neg (by omega), if_pos (by omega)]
  exact congrArg Place.crewAlias (by omega)

theorem placeOf_crew {n : Nat} (hn : n < 9) (o : BitVec 24) : placeOf (0x40000000 + n * 0x1000000 + o.toNat) = .crew n := by
  have ho := o.isLt
  unfold placeOf
  rw [if_neg (by omega), if_neg (by omega), if_pos (by omega)]
  exact congrArg Place.crew (by omega)

theorem aliasOf_of_crewAlias {a c : Nat} (h : placeOf a = .crewAlias c) : aliasOf a = some c := by
  unfold aliasOf
  rw [h]

theorem throughAlias_memory (n : Nat) (m : Fin 8) (o : BitVec 24) :
    throughAlias n (0x50000000 + m.val * 0x1000000 + o.toNat) = 0x40000000 + n * 0x1000000 + o.toNat := by
  have ho := o.isLt
  have hm := m.isLt
  unfold throughAlias
  rw [if_pos (by omega)]
  omega

theorem State.physOf_lt {n : Nat} (h : s.physOf m = some n) : n < 9 := by
  unfold State.physOf at h
  grind

section
variable {x c n a size w mask : Nat} {k : Access} {e : Ecc} {g : Migration}

theorem State.perform_noCrew (hal : aliasOf a = some c) (h : s.physOf c = none) :
    s.perform x k a size w mask e = (s.log 0x0013 (masterSource x) c).busErr := by
  simp only [State.perform, hal, h]

theorem State.perform_alias (hal : aliasOf a = some c) (hn : s.physOf c = some n) (hg : s.mig = none) :
    s.perform x k a size w mask e = s.viaAlias n x k (throughAlias n a) size w mask e := by
  simp only [State.perform, hal, hn, hg]

/-- An access through a window on a migrating crew's memory is held. -/
theorem State.perform_held (hal : aliasOf a = some c) (hn : s.physOf c = some n) (hg : s.mig = some g) (hgm : g.m = c) (ha : a < 0xE2000000) :
    s.perform x k a size w mask e = s.setMig (some { g with held := g.held ++ [⟨x, k, a, size, w, mask⟩] }) := by
  simp only [State.perform, hal, hn, hg, if_pos hgm]
  exact if_neg (by omega)

theorem State.viaAlias_crew {p : Nat} (h : placeOf a = .crew p) : s.viaAlias n x k a size w mask e = s.crewAccess x p k a size w mask e := by
  simp only [State.viaAlias, h, State.atPlace]
  exact if_neg (by simp)

end

/-- A write through a window on a crew's memory that the firewall lets through. -/
theorem aliasAccess_write (v : BitVec 512) (e : Ecc) (hf : s.frozen src = false)
    (ha : s.fwlAllowed src (0x50000000 + m.val * 0x1000000 + o.toNat) len.val .write = true) :
    (s.physOf m = none → Gives (.aliasAccess src .write m true o len v e) s (fun t => t.bus = ⟨true, 0⟩ ∧ Logs s t 0x0013 (masterSource src) m ∧
      SameMem s t ∧ RegsKept s t [Reg.EVL_LOST])) ∧
    (∀ n, s.physOf m = some n → s.mig = none → exec (.aliasAccess src .write m true o len v e) s =
      .next (s.crewAccess src n .write (0x40000000 + n * 0x1000000 + o.toNat) len.val v.toNat (2 ^ 512 - 1) e)) ∧
    (∀ n g, s.physOf m = some n → s.mig = some g → g.m = m → exec (.aliasAccess src .write m true o len v e) s =
      .next (s.setMig (some { g with held := g.held ++ [⟨src, .write, 0x50000000 + m.val * 0x1000000 + o.toNat, len.val, v.toNat, 2 ^ 512 - 1⟩] }))) := by
  have heq : exec (.aliasAccess src .write m true o len v e) s =
      .next (s.perform src .write (0x50000000 + m.val * 0x1000000 + o.toNat) len.val v.toNat (2 ^ 512 - 1) e) := by
    simp only [exec, execAliasAccess, if_true, State.access_allowed hf ha]
  have hal := aliasOf_of_crewAlias (placeOf_crewAlias m o)
  refine ⟨fun h => ⟨_, heq, ?_⟩, fun n hn hg => heq.trans (congrArg _ ?_), fun n g hn hg hgm => heq.trans (congrArg _ ?_)⟩
  · rw [State.perform_noCrew hal h]
    simp [State.busErr, SameMem, logs_log]
  · rw [State.perform_alias hal hn hg, throughAlias_memory]
    exact State.viaAlias_crew (placeOf_crew (State.physOf_lt hn) o)
  · exact State.perform_held hal hn hg hgm (by have := o.isLt; have := m.isLt; omega)

end

/-! ## Errors found by the memories' codes (R496 to R499) -/

section
variable {s : State} {a : Nat}

theorem eccScrub_eq {e : Ecc} (h : scrubbed a = true) : exec (.eccScrub a e) s = .next (s.eccAt e a) := congrArg _ (if_pos h)

theorem State.eccCorrected_spec (mem : Nat) : (s.eccCorrected mem).num Reg.FWL_ECC_CE = satAdd 0xFFFFFFFF (s.num Reg.FWL_ECC_CE) 1 ∧
    SameMem s (s.eccCorrected mem) ∧ RegsKept s (s.eccCorrected mem) [Reg.FWL_ECC_CE, Reg.EVL_LOST] := by
  unfold State.eccCorrected State.logPerSecond
  split <;> simp (disch := grind) [SameMem]

theorem State.eccUncorrectable_spec (hc : crewStateAt a = none) (ha : a < 2 ^ 64) :
    (s.eccUncorrectable a).num Reg.FWL_ECC_UE = satAdd 0xFFFFFFFF (s.num Reg.FWL_ECC_UE) 1 ∧
      (s.eccUncorrectable a).num64 Reg.FWL_ECC_ADDR_LO Reg.FWL_ECC_ADDR_HI = a ∧
      (s.eccUncorrectable a).flag F.FWL_STATUS_ECC_UE = true ∧ Logs s (s.eccUncorrectable a) 0x1021 0 (a % 2 ^ 32) ∧ SameMem s (s.eccUncorrectable a) ∧
      RegsKept s (s.eccUncorrectable a) [Reg.FWL_ECC_UE, Reg.FWL_ECC_ADDR_LO, Reg.FWL_ECC_ADDR_HI, Reg.FWL_STATUS, Reg.EVL_LOST] := by
  have heq : s.eccUncorrectable a = (((s.count Reg.FWL_ECC_UE 1).setNum64 Reg.FWL_ECC_ADDR_LO Reg.FWL_ECC_ADDR_HI a).setFld
      F.FWL_STATUS_ECC_UE 1).log 0x1021 0 (a % 2 ^ 32) := by
    simp only [State.eccUncorrectable, hc]
  rw [heq]
  refine ⟨?_, ?_, ?_, logs_log _ _ _ rfl, ?_, ?_⟩
  · simp (disch := grind) [State.setNum64]
  · simp (disch := grind)
    omega
  · simp (disch := grind)
  · simp [SameMem]
  · simp [State.setNum64]

end

/-- Settles O21: the order of the checks, then each place an access can reach; releases and scrubs by their operations. -/
theorem accessCommands : Obligations.AccessCommands := by
  unfold Obligations.AccessCommands
  refine ⟨fun s src k a size len v w e task h => ⟨congrArg _ (State.access_frozen h), congrArg _ (State.access_frozen h)⟩,
    fun _ _ _ _ _ v e task => memoryAccess_denied v e task, memForm_iff, fun _ _ _ _ v e task => memoryAccess_write v e task,
    fun _ _ _ _ v task => memoryAccess_read v task, fun _ _ _ _ v => registerWrite_reg v, fun _ _ _ _ v => registerWrite_nowhere v,
    fun s d a v i hi _ => s.plainWrite_testBit d a v hi, fun _ _ _ _ _ v e => aliasAccess_write v e, fun s m x hlo hhi hf hx hat => ⟨_, rfl, ?_⟩,
    fun s src key m h => congrArg _ (State.unfreeze_ignored ?_), fun s a e h => congrArg _ (if_neg (by simp [h])), fun s a hs hr => ⟨?_, ?_, ?_⟩⟩
  · exact State.unfreeze_spec hlo hhi hf hx hat
  · exact h.imp_left fun h0 hz => h0 (Fin.ext hz)
  · exact eccScrub_eq hs
  · refine ⟨_, eccScrub_eq hs, ?_⟩
    simp only [State.eccAt, hr]
    exact State.eccCorrected_spec _
  · refine fun hc ha => ⟨_, eccScrub_eq hs, ?_⟩
    simp only [State.eccAt, hr]
    exact State.eccUncorrectable_spec hc ha

end Sys2Proof.Machine


/-! PROOFS. Crew DMA and record mover (R480 to R489): starts, aborts, resumptions, the channel served and what a written element leaves. -/

namespace Sys2Proof.Machine

section
variable (s : State)

@[simp] theorem State.dmaOf_setDma (n ch : Nat) (d : DmaChan) : (s.setDma n ch d).dmaOf n ch = d := by simp [State.dmaOf, State.setDma, Tab.get, Tab.find_put_self]
@[simp] theorem State.rmvOf_setRmv (c : Nat) (x : RmvChan) : (s.setRmv c x).rmvOf c = x := by simp [State.rmvOf, State.setRmv, Tab.get, Tab.find_put_self]

end

/-! ## Crew DMA -/

section
variable {s : State} {n : Fin 9} {ch : Fin 8}

theorem cdmGo_starts (hc : s.crewDeaf n = false) (ho : s.fld (F.CDM_CH_CFG_OWNER n ch) = 0) (hu : s.inUse (.cdm n ch) = true)
    (hs : s.cdmState n ch = 0 ∨ s.cdmState n ch = 2) (hk : s.cdmCheck n ch = 0) :
    Gives (.cdmGo n ch) s (fun t => t.cdmState n ch = 1 ∧ t.num (Reg.CDM_CH_POS n ch) = 0 ∧
      t.dmaOf n ch = ⟨0, s.fld (F.CDM_CH_MODE_RETRY n ch), false, none⟩ ∧ t.rbit (Reg.CDM_STATUS n) (16 + ch) = true ∧ SameMem s t ∧
      RegsKept s t [Reg.CDM_CH_POS n ch, Reg.CDM_CH_STATE n ch, Reg.CDM_STATUS n]) := by
  have heq : s.cdmStart n ch none = ((s.setNum (Reg.CDM_CH_POS n ch) 0).setDma n ch ⟨0, s.fld (F.CDM_CH_MODE_RETRY n ch), false, none⟩).setCdmState n ch 1 := by
    have h1 : s.cdmState n ch ≠ 1 := by omega
    have h3 : s.cdmState n ch ≠ 3 := by omega
    simp (disch := grind) [State.cdmStart, hu, h1, h3, hk]
  refine ⟨_, (if_neg (by simp [hc])).trans ((if_neg (by simp [ho])).trans (congrArg _ heq)), ?_⟩
  refine ⟨?_, ?_, State.dmaOf_setDma .., ?_, ?_, ?_⟩ <;> simp (disch := grind) [State.setCdmState, State.cdmState, SameMem]

theorem cdmGo_owned (hc : s.crewDeaf n = false) (ho : s.fld (F.CDM_CH_CFG_OWNER n ch) ≠ 0) :
    exec (.cdmGo n ch) s = .next (s.setFld (F.CDM_CH_STATE_REFUSE n ch) 2) :=
  (if_neg (by simp [hc])).trans (if_pos ho)

theorem cdmAbort_halts (hc : s.crewDeaf n = false) (hs : s.cdmState n ch = 1) : Gives (.cdmAbort n ch) s (fun t =>
    t.cdmState n ch = 2 ∧ t.fld (F.CDM_CH_STATE_CAUSE n ch) = 3 ∧ t.rbit (Reg.CDM_STATUS n) (8 + ch) = true ∧
    t.rbit (Reg.CDM_STATUS n) (16 + ch) = false ∧ SameMem s t ∧ RegsKept s t [Reg.CDM_CH_STATE n ch, Reg.CDM_STATUS n]) := by
  refine ⟨_, if_neg (by simp [hc, hs]), ?_⟩
  simp (disch := grind) [State.cdmHalt, State.setCdmState, State.cdmState, SameMem]

theorem cdmResume_runs (hc : s.crewDeaf n = false) (hs : s.cdmState n ch = 2) (hu : s.inUse (.cdm n ch) = true) :
    Gives (.cdmResume n ch) s (fun t => t.cdmState n ch = 1 ∧ (t.dmaOf n ch).pos = (s.dmaOf n ch).pos ∧
      (t.dmaOf n ch).left = s.fld (F.CDM_CH_MODE_RETRY n ch) ∧ t.rbit (Reg.CDM_STATUS n) (16 + ch) = true ∧ SameMem s t ∧
      RegsKept s t [Reg.CDM_CH_STATE n ch, Reg.CDM_STATUS n]) := by
  refine ⟨_, (if_neg (by simp [hc, hs])).trans (if_neg (by simp [hu])), ?_⟩
  have hd := congrArg DmaChan.pos (s.dmaOf_setDma n ch { s.dmaOf n ch with left := s.fld (F.CDM_CH_MODE_RETRY n ch) })
  have hl := congrArg DmaChan.left (s.dmaOf_setDma n ch { s.dmaOf n ch with left := s.fld (F.CDM_CH_MODE_RETRY n ch) })
  refine ⟨?_, hd, hl, ?_, ?_, ?_⟩ <;> simp (disch := grind) [State.setCdmState, State.cdmState, SameMem]

theorem cdmAccess_serves {c : Nat} (e b : Ecc) (hc : s.crewDeaf n = false)
    (hn : nextServed (Tab.get (fun _ => 7) s.dmaLast n) 8 (fun ch => s.cdmState n ch == 1 && !s.frozen (64 + 8 * n + ch))
      (fun ch => s.fld (F.CDM_CH_CFG_PRIO n ch)) = some c) :
    exec (.cdmAccess n e b) s = .next ((s.setDmaLast (Tab.put s.dmaLast n c)).cdmMoves n c (s.cdmBurst n c) e b) := by
  simp only [exec, execCdmAccess, hc, Bool.false_eq_true, if_false, hn]

end

/-! Elements written (R483, R484). -/

section
variable {s : State} {n ch : Nat}

/-- The counts of a channel's elements lie outside its position register. -/
theorem State.cdmTotal_written (d : DmaChan) (v : Nat) (hn : n < 9) (hch : ch < 8) :
    ((s.setDma n ch d).setNum (Reg.CDM_CH_POS n ch) v).cdmTotal n ch = s.cdmTotal n ch := by
  simp (disch := grind) [State.cdmTotal]

/-- What each written element leaves: the channel's next position, in its state and in its register. -/
def State.cdmStepped (s : State) (n ch : Nat) : State :=
  (s.setDma n ch { s.dmaOf n ch with pos := (s.dmaOf n ch).pos + 1, left := s.fld (F.CDM_CH_MODE_RETRY n ch) }).setNum (Reg.CDM_CH_POS n ch)
    (((s.dmaOf n ch).pos + 1) % 2 ^ 32)

theorem State.cdmWritten_more (hn : n < 9) (hch : ch < 8) (h : (s.dmaOf n ch).pos + 1 < s.cdmTotal n ch) : s.cdmWritten n ch = s.cdmStepped n ch := by
  simp only [State.cdmWritten, State.cdmTotal_written _ _ hn hch, if_pos h, State.cdmStepped]

theorem State.cdmWritten_last (hn : n < 9) (hch : ch < 8) (h : s.cdmTotal n ch ≤ (s.dmaOf n ch).pos + 1) (ho : s.fld (F.CDM_CH_CFG_OWNER n ch) ≠ 2) :
    s.cdmWritten n ch = ((s.cdmStepped n ch).setCdmState n ch 0).setRbit (Reg.CDM_STATUS n) ch true := by
  simp only [State.cdmWritten, State.cdmTotal_written _ _ hn hch, if_neg (Nat.not_lt.mpr h), State.cdmStepped]
  refine if_neg ?_
  simpa (disch := grind) [State.setCdmState] using ho

theorem State.cdmWritten_more_spec (hn : n < 9) (hch : ch < 8) (h : (s.dmaOf n ch).pos + 1 < s.cdmTotal n ch) :
    ((s.cdmWritten n ch).dmaOf n ch).pos = (s.dmaOf n ch).pos + 1 ∧ ((s.cdmWritten n ch).dmaOf n ch).left = s.fld (F.CDM_CH_MODE_RETRY n ch) ∧
      (s.cdmWritten n ch).cdmState n ch = s.cdmState n ch ∧ (s.cdmWritten n ch).num (Reg.CDM_CH_POS n ch) = ((s.dmaOf n ch).pos + 1) % 2 ^ 32 ∧
      RegsKept s (s.cdmWritten n ch) [Reg.CDM_CH_POS n ch] := by
  rw [State.cdmWritten_more hn hch h]
  have hd : (s.cdmStepped n ch).dmaOf n ch = { s.dmaOf n ch with pos := (s.dmaOf n ch).pos + 1, left := s.fld (F.CDM_CH_MODE_RETRY n ch) } :=
    State.dmaOf_setDma ..
  rw [hd]
  simp (disch := grind) [State.cdmStepped, State.cdmState]

theorem State.cdmWritten_last_spec (hn : n < 9) (hch : ch < 8) (h : s.cdmTotal n ch ≤ (s.dmaOf n ch).pos + 1) (ho : s.fld (F.CDM_CH_CFG_OWNER n ch) ≠ 2) :
    (s.cdmWritten n ch).cdmState n ch = 0 ∧ (s.cdmWritten n ch).rbit (Reg.CDM_STATUS n) ch = true ∧
      (s.cdmWritten n ch).rbit (Reg.CDM_STATUS n) (16 + ch) = false ∧
      RegsKept s (s.cdmWritten n ch) [Reg.CDM_CH_POS n ch, Reg.CDM_CH_STATE n ch, Reg.CDM_STATUS n] := by
  rw [State.cdmWritten_last hn hch h ho]
  simp (disch := grind) [State.cdmStepped, State.setCdmState, State.cdmState]

end

/-! ## Record mover -/

section
variable {s : State} {c : Fin 4}

theorem rmvGo_spec (hu : s.inUse (.rmv c) = true) (hs : s.fld (F.RMV_STATUS_STATE c) = 0 ∨ s.fld (F.RMV_STATUS_STATE c) = 2) :
    (s.rmvCheck c = 0 → Gives (.rmvGo c) s (fun t => t.fld (F.RMV_STATUS_STATE c) = 1 ∧ t.num (Reg.RMV_POS c) = 0 ∧
      t.rmvOf c = ⟨0, s.fld (F.RMV_CTRL_RETRY c), false, false⟩ ∧ SameMem s t ∧ RegsKept s t [Reg.RMV_POS c, Reg.RMV_STATUS c])) ∧
    (s.rmvCheck c ≠ 0 → exec (.rmvGo c) s = .next (s.setFld (F.RMV_STATUS_REFUSE c) (s.rmvCheck c))) := by
  have hrun {t : State} (h : (if s.rmvCheck c ≠ 0 then Host.Outcome.next (s.rmvRefuse c (s.rmvCheck c)) else
      .next (((s.setNum (Reg.RMV_POS c) 0).setRmv c ⟨0, s.fld (F.RMV_CTRL_RETRY c), false, false⟩).setFld (F.RMV_STATUS_STATE c) 1)) = .next t) :
      exec (.rmvGo c) s = .next t :=
    (if_neg (by simp [hu])).trans ((if_neg (by omega)).trans ((if_neg (by omega)).trans h))
  refine ⟨fun h => ⟨_, hrun (if_neg (not_not.mpr h)), ?_⟩, fun h => hrun (if_pos h)⟩
  refine ⟨?_, ?_, State.rmvOf_setRmv .., ?_, ?_⟩ <;> simp (disch := grind) [SameMem]

theorem rmvAbort_halts (hs : s.fld (F.RMV_STATUS_STATE c) = 1) : Gives (.rmvAbort c) s (fun t => t.fld (F.RMV_STATUS_STATE c) = 2 ∧
    t.fld (F.RMV_STATUS_CAUSE c) = 3 ∧ SameMem s t ∧ RegsKept s t [Reg.RMV_STATUS c]) := by
  refine ⟨_, if_pos hs, ?_⟩
  simp (disch := grind) [State.rmvHalt, State.logIf, SameMem]

theorem rmvResume_runs (hs : s.fld (F.RMV_STATUS_STATE c) = 2) (hu : s.inUse (.rmv c) = true) : Gives (.rmvResume c) s (fun t =>
    t.fld (F.RMV_STATUS_STATE c) = 1 ∧ (t.rmvOf c).pos = (s.rmvOf c).pos ∧ (t.rmvOf c).left = s.fld (F.RMV_CTRL_RETRY c) ∧ SameMem s t ∧
    RegsKept s t [Reg.RMV_STATUS c]) := by
  refine ⟨_, (if_neg (not_not.mpr hs)).trans (if_neg (by simp [hu])), ?_⟩
  have hx := s.rmvOf_setRmv c { s.rmvOf c with left := s.fld (F.RMV_CTRL_RETRY c), waiting := false }
  have hp := congrArg RmvChan.pos hx
  have hl := congrArg RmvChan.left hx
  refine ⟨?_, hp, hl, ?_, ?_⟩ <;> simp (disch := grind) [SameMem]

theorem rmvAccess_serves {k : Nat} (e b : Ecc)
    (h : nextServed (Tab.get (fun _ => 3) s.dmaLast 9) 4 (fun c => s.fld (F.RMV_STATUS_STATE c) == 1 && !s.frozen (136 + c)) (fun _ => 0) = some k) :
    exec (.rmvAccess e b) s = .next ((s.setDmaLast (Tab.put s.dmaLast 9 k)).rmvMoves k (s.rmvBurst k) e b) := by
  simp only [exec, execRmvAccess, h]

/-- A mover whose half buffer has not been taken waits, and says so once. -/
theorem State.rmvMove_waits {c k : Nat} (e b : Ecc) (hc : c < 4) (hw : s.rmvWaits c (s.rmvOf c).pos = some k) :
    (s.rmvMove c e b).flag (F.RMV_STATUS_OVR c) = true ∧ RegsKept s (s.rmvMove c e b) [Reg.RMV_STATUS c, Reg.EVL_LOST] ∧
      ((s.rmvOf c).waiting = false → Logs s (s.rmvMove c e b) 0x1014 (0x8100 + c) k) ∧ SameMem s (s.rmvMove c e b) := by
  have heq : s.rmvMove c e b = if (s.rmvOf c).waiting then s.setFld (F.RMV_STATUS_OVR c) 1 else
      ((s.setFld (F.RMV_STATUS_OVR c) 1).setRmv c { s.rmvOf c with waiting := true }).log 0x1014 (0x8100 + c) k := by
    simp only [State.rmvMove, hw]
  rw [heq]
  by_cases h : (s.rmvOf c).waiting = true
  · rw [if_pos h]
    simp (disch := grind) [SameMem, h]
  · rw [if_neg h]
    refine ⟨?_, ?_, fun _ => logs_log _ _ _ rfl, ?_⟩ <;> simp (disch := grind) [SameMem]

end

/-- Settles O22: each command by its own lemma, the moves of a burst by definition. -/
theorem dmaCommands : Obligations.DmaCommands := by
  unfold Obligations.DmaCommands
  exact ⟨fun _ _ _ => cdmGo_starts, fun _ _ _ => cdmGo_owned, fun _ _ _ => cdmAbort_halts, fun _ _ _ => cdmResume_runs,
    fun _ _ _ e b => cdmAccess_serves e b, fun _ _ _ _ _ _ => rfl, fun _ _ _ _ _ => rfl, fun _ _ _ => State.cdmWritten_more_spec,
    fun _ _ _ => State.cdmWritten_last_spec, fun _ _ => rmvGo_spec, fun _ _ => rmvAbort_halts, fun _ _ => rmvResume_runs,
    fun _ _ e b => rmvAccess_serves e b, fun _ _ _ e b => State.rmvMove_waits e b⟩

end Sys2Proof.Machine


/-! PROOFS. Lockstep monitor, spare and migration of crews (R12, R191 to R201). -/

namespace Sys2Proof.Machine

@[simp] theorem State.lsmOf_setLsm (s : State) (n : Nat) (x : LsmState) : (s.setLsm n x).lsmOf n = x := by
  simp [State.lsmOf, State.setLsm, Tab.get, Tab.find_put_self]

/-! ## Spare -/

section
variable {s : State} {n : Nat}

theorem spareSelfTest_starts (h : s.spareFor = some n) (hh : s.spareHeld = none) : Gives .spareSelfTest s (fun t =>
    t.lsmOf n = { s.lsmOf n with bist := true } ∧ RegsKept s t [] ∧ SameMem s t) := by
  refine ⟨s.setLsm n { s.lsmOf n with bist := true }, by simp [exec, execSpareSelfTest, h, hh], State.lsmOf_setLsm .., ?_, fun _ => rfl⟩
  simp

theorem spareSelfTestDone_eq (ok : Bool) (h : (List.range 9).find? (fun n => (s.lsmOf n).bist) = some n) : exec (.spareSelfTestDone ok) s =
    if ok then .next ((s.setLsm n { s.lsmOf n with bist := false }).replTested n)
    else .next (((s.setLsm n { s.lsmOf n with bist := false }).crewFatal n 5).replTested n) := by
  simp only [exec, execSpareSelfTestDone, h]

/-- A spare that passes its test while no replacement runs is no longer untested. -/
theorem State.replTested_spec (h : s.iml.repl = none) : (s.replTested n).lsmOf n = s.lsmOf n ∧ (s.replTested n).iml.untested ≠ some n ∧
    RegsKept s (s.replTested n) [] ∧ SameMem s (s.replTested n) := by
  by_cases hu : s.iml.untested = some n
  · have heq : s.replTested n = s.setIml { s.iml with untested := none } := by simp [State.replTested, hu, h]
    rw [heq]
    exact ⟨rfl, by simp, by simp, fun _ => rfl⟩
  · have heq : s.replTested n = s := by simp [State.replTested, hu, h]
    rw [heq]
    exact ⟨rfl, hu, by simp, fun _ => rfl⟩

theorem spareSelfTestDone_passes (h : (List.range 9).find? (fun n => (s.lsmOf n).bist) = some n) (hr : s.iml.repl = none) :
    Gives (.spareSelfTestDone true) s (fun t => (t.lsmOf n).bist = false ∧ t.iml.untested ≠ some n ∧ RegsKept s t [] ∧ SameMem s t) := by
  refine ⟨_, spareSelfTestDone_eq true h, ?_⟩
  obtain ⟨hl, hu, hk, hm⟩ := State.replTested_spec (s := s.setLsm n { s.lsmOf n with bist := false }) (n := n) hr
  exact ⟨by rw [hl, State.lsmOf_setLsm], hu, hk, hm⟩

end

/-! ## Retirement and migration -/

section
variable {s : State} {n : Fin 9}

theorem crewForceRetire_spec : (s.inUse (.crew n) = false → exec (.crewForceRetire n) s = .next s) ∧
    (s.inUse (.crew n) = true →
      exec (.crewForceRetire n) s = .next ((s.log 0x0635 (0x1000 + n) ((s.logicalOf n).getD 0xF)).crewFatal n 6)) :=
  ⟨fun h => if_neg (by simp [h]), fun h => if_pos h⟩

theorem crewMigrate_starts {m d : Nat} (hd : d < 9) (hl : s.logicalOf n = some m) (hs : s.spareFor = some d)
    (hst : s.flag (F.LSM_STATUS_STRANDED n) = true) (hne : d ≠ n.val) (hr : s.iml.repl = none) :
    Gives (.crewMigrate n) s (fun t => t.mig = some ⟨m, n, d, false, s.time.cycle, 0, [], []⟩ ∧
      t.flag (F.LSM_STATUS_MIGRATING n) = true ∧ t.flag (F.LSM_STATUS_MIGRATING d) = true ∧ t.num (Reg.LSM_MIG_DROP d) = 0 ∧
      t.fld F.IML_SPARE_SPARE = d ∧ (t.lsmOf d).bist = false ∧ SameMem s t ∧
      RegsKept s t [Reg.LSM_STATUS n, Reg.LSM_STATUS d, Reg.LSM_MIG_DROP d, Reg.IML_SPARE]) := by
  refine ⟨s.migStart m n d, by simp [exec, execCrewMigrate, hl, hs, hst], ?_⟩
  have hrepl : s.replAbort = s := by simp [State.replAbort, hr]
  have hlsm : ((s.migStart m n d).lsmOf d) = { s.lsmOf d with bist := false } := by
    rw [State.migStart, hrepl]
    exact State.lsmOf_setLsm ..
  have hd16 : d % 16 = d := Nat.mod_eq_of_lt (by omega)
  refine ⟨by rw [State.migStart, hrepl]; rfl, ?_, ?_, ?_, ?_, by rw [hlsm], ?_, ?_⟩ <;>
    simp (disch := grind) [State.migStart, hrepl, State.chooseSpare, State.spareHeld, hd16, SameMem]

theorem lsmClrCounts_clears : Gives (.lsmClrCounts n) s (fun t => t.num (Reg.LSM_RETRY_MAX n) = 0 ∧ t.num (Reg.LSM_MISMATCHES n) = 0 ∧
    t.num (Reg.LSM_EXHAUSTS n) = 0 ∧ SameMem s t ∧ RegsKept s t [Reg.LSM_RETRY_MAX n, Reg.LSM_MISMATCHES n, Reg.LSM_EXHAUSTS n]) := by
  refine ⟨_, rfl, ?_⟩
  simp (disch := grind) [SameMem]

theorem State.crewFatal_spec (n cause : Nat) : (s.inUse (.crew n) = true → s.crewFatal n cause = (s.fatal (.crew n) cause).crewRetire n cause) ∧
    (s.inUse (.crew n) = false → s.crewFatal n cause = s) :=
  ⟨fun h => if_pos h, fun h => if_neg (by simp [h])⟩

theorem migrationCopyDone_copies {g : Migration} (h : s.mig = some g) (hc : g.copied = false) :
    exec .migrationCopyDone s = .next ((s.copyCrew g.src g.dst).setMig (some { g with copied := true, cycles := s.time.cycle - g.start })) := by
  simp [exec, execMigrationCopyDone, h, hc]

theorem migrationSwitch_eq {g : Migration} {c : Catch} (h : s.mig = some g) (hc : s.nextCatch g.m = some c) :
    exec .migrationSwitch s = .next (if s.migDue g.m c.cseq then s.migrate else s) := by
  simp only [exec, execMigrationSwitch, h, hc]

theorem State.migrate_eq {g : Migration} (h : s.mig = some g) :
    s.migrate = ((s.migSwitch.redirect g.m g.dst).domainReset (8 + g.src) 4).completeHeld g.held := by
  simp only [State.migrate, h]

theorem State.migDue_iff {g : Migration} {q : Nat} (h : s.mig = some g) : s.migDue g.m q = true ↔ g.copied = true ∧ cseqEntry q = 0 := by
  simp [State.migDue, h]

end

/-! ## Comparison and the slack of reruns (R193 to R195) -/

section
variable {s : State}

theorem lsmCompare_eq {n : Fin 9} {x : Fin 512} {w : Nat} (ok : Bool) (hi : s.issuedEntry n x = some w) (hc : s.crewDeaf n = false)
    (hd : (s.entryOf n x w).done = true) (hcf : (s.entryOf n x w).confirmed = false) (ht : s.ctxTarget n x ≤ 1) :
    exec (.lsmCompare n x ok) s = if ok then .next (s.lsmConfirm n x w) else .next (s.lsmMismatch n x w (s.ctxTarget n x)) := by
  simp only [exec, execLsmCompare, hi]
  exact if_neg (by simp [hc, hd, hcf, ht])

theorem State.lsmMismatch_rerun {n x w t : Nat} (hr : (s.entryOf n x w).rerun = true) :
    s.lsmMismatch n x w t = (((((s.setFld (F.LSM_STATUS_MISMATCH n) 1).count (Reg.LSM_MISMATCHES n) 1).log 0x0630 (0x1000 + n)
      (x + t * 2 ^ 9 + 2 ^ 10)).setNum (Reg.LSM_LAST_CSEQ n) (s.entryOf n x w).cseq).setNum (Reg.LSM_LAST_DETAIL n)
      (x + t * 2 ^ 9 + 2 ^ 10)).crewFatal n 2 := by
  simp only [State.lsmMismatch, hr, if_true, b2n, Nat.one_mul]

theorem slackExhausted_early {n : Fin 9} (h : s.reruns n = [] ∨ s.lsmCharge n < s.num (Reg.LSM_SLACK n)) :
    exec (.slackExhausted n) s = .next s :=
  if_pos (by simpa using h)

theorem slackExhausted_drops {n : Fin 9} {e : Nat × Nat} {l : List (Nat × Nat)} {t u : State} (hl : s.reruns n = e :: l)
    (hc : s.num (Reg.LSM_SLACK n) ≤ s.lsmCharge n) (ht : t = (e :: l).foldl (fun s e => s.dropEntry n e.1 e.2) s)
    (hu : u = (if (t.lsmOf n).exh then t else t.count (Reg.LSM_EXHAUSTS n) 1)) : exec (.slackExhausted n) s =
      .next (((((u.setLsm n { u.lsmOf n with exh := true }).setFld (F.LSM_STATUS_EXHAUSTED n) 1).log 0x0632 (0x1000 + n)
        (l.length + 1)).syncCharge n).syncRetrying n) := by
  subst hu ht
  refine (if_neg (by simp [hl, hc])).trans ?_
  rw [hl]
  rfl

end

/-- Settles O23: each command by the branch it takes, with the spare's and the migration's own lemmas. -/
theorem crewCommands : Obligations.CrewCommands := by
  unfold Obligations.CrewCommands
  refine ⟨fun _ _ => spareSelfTest_starts, fun s n h => ⟨spareSelfTestDone_passes h, spareSelfTestDone_eq true h, spareSelfTestDone_eq false h⟩,
    fun _ _ => crewForceRetire_spec, fun _ => State.crewFatal_spec, fun _ _ _ _ => crewMigrate_starts, fun _ _ => lsmClrCounts_clears,
    fun s n x w hi hc hd hcf ht => ⟨lsmCompare_eq true hi hc hd hcf ht, lsmCompare_eq false hi hc hd hcf ht⟩,
    fun _ _ _ _ _ _ hr => State.lsmMismatch_rerun hr, fun _ _ => ⟨slackExhausted_early, fun _ _ _ _ => slackExhausted_drops⟩,
    fun _ _ h hc => ⟨_, migrationCopyDone_copies h hc, rfl⟩, fun s g c h hc hn h0 => ?_, fun s g c h hn h0 => ?_⟩
  · rw [migrationSwitch_eq h hn, if_pos ((State.migDue_iff h).mpr ⟨hc, h0⟩), State.migrate_eq h]
  · rw [migrationSwitch_eq h hn, if_neg fun hd => h0 ((State.migDue_iff h).mp hd).2]

end Sys2Proof.Machine


/-! PROOFS. Image loader: staging, verification and replacement (R81 to R94). -/

namespace Sys2Proof.Machine

/-! ## Staging and abort -/

section
variable {s : State}

theorem State.dropPart_spec (s : State) : s.dropPart.iml = { s.iml with cand := none } ∧ s.dropPart.fld F.IML_PART_PART_CREW = 0xFF ∧
    SameMem s s.dropPart ∧ RegsKept s s.dropPart [Reg.IML_PART] := by
  refine ⟨rfl, ?_⟩
  simp (disch := grind) [State.dropPart, SameMem]

theorem State.imlIgnore_spec (s : State) : s.imlIgnore.flag F.IML_STATUS_CMD_IGN = true ∧ s.imlIgnore.imlState = s.imlState ∧
    SameMem s s.imlIgnore ∧ RegsKept s s.imlIgnore [Reg.IML_STATUS] := by
  simp (disch := grind) [State.imlIgnore, State.imlState, SameMem]

/-- A refusal of the loader: idle, its code, and an event with the code and the step. -/
theorem State.imlRefuse_spec (s : State) (code step : Nat) : (s.imlRefuse code step).imlState = 0 ∧
    (s.imlRefuse code step).fld F.IML_STATUS_REFUSE = code % 256 ∧
    Logs s (s.imlRefuse code step) 0x0321 0 (code + step * 2 ^ 8) ∧ SameMem s (s.imlRefuse code step) ∧
    RegsKept s (s.imlRefuse code step) [Reg.IML_STATUS, Reg.EVL_LOST] := by
  unfold State.imlRefuse
  refine ⟨?_, ?_, logs_log _ _ _ (by simp), ?_, ?_⟩ <;> simp (disch := grind) [State.imlState, SameMem]

theorem imlStage_starts (h : s.imlState = 0 ∨ s.imlState = 3) : Gives .imlStage s (fun t => t.imlState = 1 ∧ t.fld F.IML_STATUS_REFUSE = 0 ∧
    t.fld F.IML_PART_PART_CREW = 0xFF ∧ t.iml = { s.iml with cand := none } ∧ SameMem s t ∧ RegsKept s t [Reg.IML_STATUS, Reg.IML_PART]) := by
  refine ⟨_, if_pos h, ?_⟩
  refine ⟨?_, ?_, ?_, rfl, ?_, ?_⟩ <;> simp (disch := grind) [State.dropPart, State.imlState, SameMem]

theorem imlStage_ignored (h0 : s.imlState ≠ 0) (h3 : s.imlState ≠ 3) : Gives .imlStage s (fun t => t.flag F.IML_STATUS_CMD_IGN = true ∧
    t.imlState = s.imlState ∧ SameMem s t ∧ RegsKept s t [Reg.IML_STATUS]) :=
  ⟨_, if_neg (by simp [h0, h3]), s.imlIgnore_spec⟩

theorem imlAbort_spec (s : State) : (s.imlState = 1 ∨ s.imlState = 2 → exec .imlAbort s =
      .next (((s.emptySlot s.inactive).setFld F.IML_STATUS_STATE 0).setFld F.IML_STATUS_REFUSE 0x11)) ∧
    (s.imlState = 3 → Gives .imlAbort s (fun t => t.imlState = 0 ∧ t.iml.cand = none ∧ t.fld F.IML_PART_PART_CREW = 0xFF ∧ SameMem s t ∧
      RegsKept s t [Reg.IML_STATUS, Reg.IML_PART])) ∧
    (∀ p, s.imlState = 4 → s.iml.repl = some p → p.done = false → exec .imlAbort s = .next s.replAbort) ∧
    (s.imlState = 0 → Gives .imlAbort s (fun t => t.flag F.IML_STATUS_CMD_IGN = true ∧ SameMem s t ∧ RegsKept s t [Reg.IML_STATUS])) := by
  refine ⟨?_, fun h => ⟨s.dropPart.setFld F.IML_STATUS_STATE 0, ?_, ?_⟩, fun p h hp hd => ?_, fun h => ⟨s.imlIgnore, ?_, ?_⟩⟩
  · rintro (h | h) <;> simp only [exec, execImlAbort, h]
  · simp only [exec, execImlAbort, h]
  · refine ⟨?_, rfl, ?_, ?_, ?_⟩ <;> simp (disch := grind) [State.dropPart, State.imlState, SameMem]
  · simp [exec, execImlAbort, h, hp, hd]
  · simp only [exec, execImlAbort, h]
  · obtain ⟨hflag, -, hm, hk⟩ := s.imlIgnore_spec
    exact ⟨hflag, hm, hk⟩

/-! ## Verification and copy -/

theorem imlVerifyDone_unsourced (c : ImgContent) (h : s.imlState = 1) (hs : s.sourceOk s.imlSrc (s.num Reg.IML_SRC_LEN) = false) :
    Gives (.imlVerifyDone c) s (fun t => t.imlState = 0 ∧ t.fld F.IML_STATUS_REFUSE = 0x10 ∧ Logs s t 0x0321 0 0x10 ∧ SameMem s t ∧
      RegsKept s t [Reg.IML_STATUS, Reg.EVL_LOST]) :=
  ⟨_, (if_neg (not_not.mpr h)).trans (if_pos (by simp [hs])), s.imlRefuse_spec 0x10 0⟩

/-- What a verified image of a part leaves: the candidate, and the crew it is for. -/
theorem State.candidate_spec (s : State) (h : ImgHdr) (c : ImgContent) :
    (((s.setIml { s.iml with cand := some (h, c) }).setFld F.IML_STATUS_STATE 3).setFld F.IML_PART_PART_CREW h.part).imlState = 3 ∧
    (((s.setIml { s.iml with cand := some (h, c) }).setFld F.IML_STATUS_STATE 3).setFld F.IML_PART_PART_CREW h.part).iml.cand = some (h, c) ∧
    (((s.setIml { s.iml with cand := some (h, c) }).setFld F.IML_STATUS_STATE 3).setFld F.IML_PART_PART_CREW h.part).fld F.IML_PART_PART_CREW =
      h.part % 256 ∧
    SameMem s (((s.setIml { s.iml with cand := some (h, c) }).setFld F.IML_STATUS_STATE 3).setFld F.IML_PART_PART_CREW h.part) ∧
    RegsKept s (((s.setIml { s.iml with cand := some (h, c) }).setFld F.IML_STATUS_STATE 3).setFld F.IML_PART_PART_CREW h.part)
      [Reg.IML_STATUS, Reg.IML_PART] := by
  refine ⟨?_, rfl, ?_, ?_, ?_⟩ <;> simp (disch := grind) [State.imlState, SameMem]

theorem imlVerifyDone_eq (c : ImgContent) {l : List Nat} (h : s.imlState = 1) (hs : s.sourceOk s.imlSrc (s.num Reg.IML_SRC_LEN) = true)
    (hl : l = s.rdList s.imlSrc (s.num Reg.IML_SRC_LEN)) : exec (.imlVerifyDone c) s =
      if (s.imgVerify l c false).1 ≠ 0 then .next (s.imlRefuse (s.imgVerify l c false).1 (s.imgVerify l c false).2)
      else if (imgHdrOf l).isPart then
        .next (((s.setIml { s.iml with cand := some (imgHdrOf l, imgHolds l c) }).setFld F.IML_STATUS_STATE 3).setFld F.IML_PART_PART_CREW
          (imgHdrOf l).part)
      else .next ((s.setFld F.IML_STATUS_STATE 2).emptySlot s.inactive) := by
  subst hl
  exact (if_neg (not_not.mpr h)).trans (if_neg (by simp [hs]))

theorem imlVerifyDone_verified (c : ImgContent) {l : List Nat} (h : s.imlState = 1) (hs : s.sourceOk s.imlSrc (s.num Reg.IML_SRC_LEN) = true)
    (hl : l = s.rdList s.imlSrc (s.num Reg.IML_SRC_LEN)) : Gives (.imlVerifyDone c) s (fun t =>
      if (s.imgVerify l c false).1 ≠ 0 then t = s.imlRefuse (s.imgVerify l c false).1 (s.imgVerify l c false).2
      else if (imgHdrOf l).isPart then
        t.imlState = 3 ∧ t.iml.cand = some (imgHdrOf l, imgHolds l c) ∧ t.fld F.IML_PART_PART_CREW = (imgHdrOf l).part % 256 ∧ SameMem s t ∧
          RegsKept s t [Reg.IML_STATUS, Reg.IML_PART]
      else t = (s.setFld F.IML_STATUS_STATE 2).emptySlot s.inactive) := by
  have hrun := imlVerifyDone_eq c h hs hl
  by_cases hv : (s.imgVerify l c false).1 = 0
  · rw [if_neg (not_not.mpr hv)] at hrun
    by_cases hp : (imgHdrOf l).isPart = true
    · refine ⟨_, hrun.trans (if_pos hp), ?_⟩
      simp only [hv, ne_eq, not_true, if_false, hp, if_true]
      exact s.candidate_spec _ _
    · refine ⟨_, hrun.trans (if_neg hp), ?_⟩
      simp only [hv, ne_eq, not_true, if_false, if_neg hp]
  · refine ⟨_, hrun.trans (if_pos hv), ?_⟩
    simp only [hv, ne_eq, not_false_eq_true, if_true]

theorem imlCopyDone_eq {u : State} {l : List Nat} (c : ImgContent) (h : s.imlState = 2)
    (hu : u = (s.clearMem (imgSlotAddr s.inactive) 0x2000000).copyMem s.imlSrc (imgSlotAddr s.inactive) (s.num Reg.IML_SRC_LEN))
    (hl : l = u.rdList (imgSlotAddr s.inactive) (s.num Reg.IML_SRC_LEN)) (hp : (imgHdrOf l).isPart = false) :
    exec (.imlCopyDone c) s = .next (if (u.imgVerify l c false).1 = 0 then
      (((u.setSlotIml s.inactive ⟨false, some (imgHdrOf l), some (imgHolds l c)⟩).syncSlots).setFld F.IML_STATUS_STATE 0).log 0x0320 0
        ((imgHdrOf l).id % 2 ^ 32)
      else ((u.setSlotIml s.inactive ImgSlot.init).syncSlots).imlRefuse (u.imgVerify l c false).1 (u.imgVerify l c false).2) := by
  simp only [exec, execImlCopyDone, h, ne_eq, not_true, if_false, ← hu, ← hl]
  rcases u.imgVerify l c false with ⟨code, step⟩
  by_cases hv : code = 0 <;> simp [hv, hp]

/-! ## Replacement of a crew's part (R90 to R94) -/

theorem imlReplace_starts {h : ImgHdr} {c : ImgContent} {d : Nat} (hi : s.imlState = 3) (hc : s.iml.cand = some (h, c)) (hd : s.spareFor = some d) :
    Gives .imlReplace s (fun t => t.imlState = 4 ∧ t.iml.repl = some ⟨h.part, (s.physOf h.part).getD 0xF, d, false, none, false, false⟩ ∧
      t.iml.cand = some (h, c) ∧ (t.lsmOf d).bist = false ∧ SameMem s t ∧ RegsKept s t [Reg.IML_STATUS]) := by
  refine ⟨((s.setLsm d { s.lsmOf d with bist := false }).setIml { s.iml with repl := some ⟨h.part, (s.physOf h.part).getD 0xF, d, false, none, false,
    false⟩ }).setFld F.IML_STATUS_STATE 4, ?_, ?_, rfl, hc, ?_, fun _ => rfl, ?_⟩
  · simp [exec, execImlReplace, hi, hc, hd, State.physOf]
  · simp (disch := grind) [State.imlState]
  · exact congrArg LsmState.bist (State.lsmOf_setLsm s d { s.lsmOf d with bist := false })
  · simp

theorem imlReplace_refused (hi : s.imlState = 3) (hd : s.spareFor = none) : Gives .imlReplace s (fun t => t.imlState = 0 ∧
    t.fld F.IML_STATUS_REFUSE = 0x0F ∧ t.iml.cand = none ∧ Logs s t 0x0321 0 0x0F ∧ SameMem s t ∧
    RegsKept s t [Reg.IML_STATUS, Reg.IML_PART, Reg.EVL_LOST]) := by
  have hrun : exec .imlReplace s = .next (s.dropPart.imlRefuse 0x0F 0) := by simp [exec, execImlReplace, hi, hd]
  refine ⟨_, hrun, ?_, ?_, ?_, logs_log _ _ _ (by simp [State.dropPart]), ?_, ?_⟩ <;>
    simp (disch := grind) [State.imlRefuse, State.dropPart, State.imlState, SameMem]

theorem replaceSpareLoaded_loads {u : State} {p : Replacing} {h : ImgHdr} {c base : ImgContent} (hp : s.iml.repl = some p)
    (hc : s.iml.cand = some (h, c)) (hb : s.runCont = some base) (hl : p.loaded = false)
    (hu : u = (((s.resetCrew p.dst).clearMem (crewMem p.dst) 0x1000000).imgCrew (overlayContent base c p.m) p.m p.dst).crewRegions p.dst (some p.m)) :
    exec .replaceSpareLoaded s = .next (u.setIml { u.iml with
      repl := some { p with loaded := true, sw := some ((u.num (Reg.CT_LAST_CSEQ p.m) / 64 + 3) % 2 ^ 26 * 64) } }) := by
  simp only [exec, execReplaceSpareLoaded, hp, hc, hb, hl, Bool.false_eq_true, if_false, ← hu]

theorem replaceSwitch_eq {p : Replacing} {c : Catch} (hp : s.iml.repl = some p) (hc : s.nextCatch p.m = some c) :
    exec .replaceSwitch s = .next (if s.replDue p.m c.cseq then s.replace else s) := by
  simp only [exec, execReplaceSwitch, hp, hc]

theorem replaceDone_clears {u v : State} {p : Replacing} (hp : s.iml.repl = some p) (hd : p.done = true) (hc : p.cleared = false)
    (hu : u = ((s.resetCrew p.old).clearMem (crewMem p.old) 0x1000000).crewRegions p.old none)
    (hv : v = ((u.setIml { u.iml with repl := some { p with cleared := true }, boot := s.inactive, untested := some p.old }).setFld
      F.IML_STATUS_ACTIVE s.inactive).syncSlots.chooseSpare) :
    exec .replaceDone s = .next (v.setLsm p.old { LsmState.init with stroke := (v.lsmOf p.old).stroke + 1, bist := true }) := by
  subst hv hu
  simp only [exec, execReplaceDone, hp]
  exact if_neg (by simp [hd, hc])

theorem replaceDone_early {p : Replacing} (hp : s.iml.repl = some p) (h : p.done = false ∨ p.cleared = true) : exec .replaceDone s = .next s := by
  simp only [exec, execReplaceDone, hp]
  exact if_pos (by simpa using h)

/-- A replacement ends with the passed test of the crew it replaced. -/
theorem State.replTested_ends {u : State} {p : Replacing} (hp : s.iml.repl = some p) (hd : p.done = true) (hc : p.cleared = true)
    (hu : u = (if s.iml.untested = some p.old then s.setIml { s.iml with untested := none } else s)) :
    s.replTested p.old = ((((u.setIml { u.iml with repl := none, cand := none }).setFld F.IML_PART_PART_CREW 0xFF).setFld
      F.IML_STATUS_STATE 0).chooseSpare).log 0x0323 (0x1000 + p.dst) (p.m + p.old * 2 ^ 8) := by
  have hpu : u.iml.repl = some p := by
    rw [hu]
    split <;> exact hp
  simp only [State.replTested, ← hu, hpu, hd, hc, and_self, if_true]

end

/-- Settles O24: each command by the branch its state selects. -/
theorem imageLoaderCommands : Obligations.ImageLoaderCommands := by
  unfold Obligations.ImageLoaderCommands
  exact ⟨fun _ => imlStage_starts, fun _ => imlStage_ignored, fun _ c => imlVerifyDone_unsourced c, fun _ c _ => imlVerifyDone_verified c,
    fun _ _ c _ => imlCopyDone_eq c, imlAbort_spec, fun _ _ _ _ => imlReplace_starts, fun _ => imlReplace_refused,
    fun _ _ _ _ _ _ => replaceSpareLoaded_loads, fun _ _ _ => replaceSwitch_eq, fun _ _ _ _ => replaceDone_clears, fun _ _ => replaceDone_early,
    fun _ _ _ => State.replTested_ends⟩

end Sys2Proof.Machine


/-! PROOFS. System resets, watchdogs and the release of reset (R84, R531 to R549). -/

namespace Sys2Proof.Machine

section
variable {s : State}

/-! ## Requests of a system reset -/

/-- Power-on, the reset pin and a lost hold-up end PARK with an event. -/
theorem State.logIf_parked (t : State) : (s.rpc.low ≠ 2 → t.logIf (s.rpc.low == 2) 0x011E 0 2 = t) ∧
    (s.rpc.low = 2 → t.logIf (s.rpc.low == 2) 0x011E 0 2 = t.log 0x011E 0 2) :=
  ⟨fun h => by simp [State.logIf, h], fun h => by simp [State.logIf, h]⟩

theorem powerOn_resets (s : State) : (s.rpc.low ≠ 2 → exec .powerOn s = .next (s.sysReset 0 true)) ∧
    (s.rpc.low = 2 → exec .powerOn s = .next ((s.sysReset 0 true).log 0x011E 0 2)) := by
  refine ⟨fun h => ?_, fun h => ?_⟩
  · exact congrArg Host.Outcome.next ((State.logIf_parked (s.sysReset 0 true)).1 h)
  · exact congrArg Host.Outcome.next ((State.logIf_parked (s.sysReset 0 true)).2 h)

theorem resetPin_resets (s : State) : (s.rpc.low ≠ 2 → exec .resetPin s = .next (s.sysReset 2 true)) ∧
    (s.rpc.low = 2 → exec .resetPin s = .next ((s.sysReset 2 true).log 0x011E 0 2)) := by
  refine ⟨fun h => ?_, fun h => ?_⟩
  · exact congrArg Host.Outcome.next ((State.logIf_parked (s.sysReset 2 true)).1 h)
  · exact congrArg Host.Outcome.next ((State.logIf_parked (s.sysReset 2 true)).2 h)

theorem brownOutFinalReset_spec (s : State) :
    (s.rpc.brown = true → (s.seq.cuts = [] ∧ s.seq.repCut = none) ∨ s.rpc.brownAt + 15 * cycPerMs ≤ s.time.cycle →
      exec .brownOutFinalReset s = .next (s.sysReset 1 true)) ∧
    (s.rpc.brown = true → (s.seq.cuts ≠ [] ∨ s.seq.repCut ≠ none) → s.time.cycle < s.rpc.brownAt + 15 * cycPerMs →
      exec .brownOutFinalReset s = .next s) ∧
    (s.rpc.brown = false → exec .brownOutFinalReset s = .next s) := by
  refine ⟨fun hb h => if_pos ?_, fun hb h ht => if_neg ?_, fun hb => if_neg (by simp [hb])⟩
  · rw [Bool.and_eq_true, Bool.or_eq_true, State.lasted_iff]
    exact ⟨hb, h.imp_left fun h => by simp [h.1, h.2]⟩
  · rw [Bool.and_eq_true, Bool.or_eq_true, State.lasted_iff]
    rintro ⟨-, hn | hn⟩
    · simp only [Bool.and_eq_true, List.isEmpty_iff, Option.isNone_iff_eq_none] at hn
      exact h.elim (fun hc => hc hn.1) (fun hr => hr hn.2)
    · omega

theorem holdupLost_spec (s : State) : (s.rpc.pend = none → Gives .holdupLost s (fun t => t.rpc = { s.rpc with holdLost := true } ∧ SameMem s t ∧
      RegsKept s t [])) ∧
    (∀ c, s.rpc.pend = some c → s.rpc.low ≠ 2 → exec .holdupLost s = .next (s.sysReset 0 true)) ∧
    (∀ c, s.rpc.pend = some c → s.rpc.low = 2 → exec .holdupLost s = .next ((s.sysReset 0 true).log 0x011E 0 2)) := by
  refine ⟨fun h => ⟨_, if_neg (by simp [h]), rfl, fun _ => rfl, fun _ _ => rfl⟩, fun c h hl => (if_pos (by simp [h])).trans ?_,
    fun c h hl => (if_pos (by simp [h])).trans ?_⟩
  · exact congrArg Host.Outcome.next ((State.logIf_parked (s.sysReset 0 true)).1 hl)
  · exact congrArg Host.Outcome.next ((State.logIf_parked (s.sysReset 0 true)).2 hl)

/-! ## Watchdogs and timers -/

theorem State.sysWdgRuns_iff (s : State) : s.sysWdgRuns = true ↔ s.rpc.pend = none ∧ s.fld F.RPC_WDG_STATUS_TIMEOUT_MS ≠ 0 := by
  simp [State.sysWdgRuns]

theorem sysWdgExpire_spec (s : State) :
    (s.sysWdgRuns = true → s.kickAt 0 + s.fld F.RPC_WDG_STATUS_TIMEOUT_MS * cycPerMs ≤ s.time.cycle → exec .sysWdgExpire s = .next (s.sysReset 4 false)) ∧
    (s.sysWdgRuns = true → s.time.cycle < s.kickAt 0 + s.fld F.RPC_WDG_STATUS_TIMEOUT_MS * cycPerMs → exec .sysWdgExpire s = .next s) ∧
    (s.sysWdgRuns = false → exec .sysWdgExpire s = .next s ∧ exec .sysWdgHalf s = .next s) :=
  ⟨fun hr ht => if_pos (by simp [hr, State.lasted_of_le ht]), fun _ ht => if_neg (by simp [State.lasted_of_lt ht]),
    fun hr => ⟨if_neg (by simp [hr]), if_neg (by simp [hr])⟩⟩

theorem sysWdgHalf_spec (s : State) :
    (s.sysWdgRuns = true → s.rpc.half = false → s.kickAt 0 + s.fld F.RPC_WDG_STATUS_TIMEOUT_MS * cycPerMs / 2 ≤ s.time.cycle →
      Gives .sysWdgHalf s (fun t => t.rbit Reg.RPC_IRQ 6 = true ∧ t.rpc.half = true ∧ SameMem s t ∧ RegsKept s t [Reg.RPC_IRQ])) ∧
    (s.rpc.half = true ∨ s.time.cycle < s.kickAt 0 + s.fld F.RPC_WDG_STATUS_TIMEOUT_MS * cycPerMs / 2 → exec .sysWdgHalf s = .next s) := by
  refine ⟨fun hr hh ht => ⟨_, if_pos (by simp [hr, hh, State.lasted_of_le ht]), ?_, rfl, fun _ => rfl, ?_⟩, ?_⟩
  · simp (disch := decide) [State.rpcIrq]
  · simp [State.rpcIrq]
  · rintro (hh | ht)
    · exact if_neg (by simp [hh])
    · exact if_neg (by simp [State.lasted_of_lt ht])

theorem sysWdgKick_spec (s : State) (v : Word) : (v = 0x5AA5#32 → Gives (.sysWdgKick v) s (fun t => t.kickAt 0 = s.time.cycle ∧ t.rpc.half = false ∧
    SameMem s t ∧ RegsKept s t [])) ∧ (v ≠ 0x5AA5#32 → exec (.sysWdgKick v) s = .next s) := by
  refine ⟨fun h => ⟨_, if_pos h, ?_, ?_, fun _ => rfl, fun _ _ => rfl⟩, fun h => if_neg h⟩
  · simp [State.kick, State.kickAt, Tab.get, Tab.find_put_self]
  · simp [State.kick]

theorem ac0FreezeTimer_spec (s : State) : (s.fwl.ac0Timer = true → ∀ v, Tab.find s.fwl.viols 0 = some v →
      (v.at_ + 1000 * cycPerMs ≤ s.time.cycle → exec .ac0FreezeTimer s = .next (s.sysReset 4 false)) ∧
      (s.time.cycle < v.at_ + 1000 * cycPerMs → exec .ac0FreezeTimer s = .next s)) ∧
    (s.fwl.ac0Timer = false → exec .ac0FreezeTimer s = .next s) :=
  ⟨fun ha _ hv => ⟨fun ht => if_pos (by simp [ha, hv, State.lasted_of_le ht]), fun ht => if_neg (by simp [hv, State.lasted_of_lt ht])⟩,
    fun ha => if_neg (by simp [ha])⟩

theorem startTimerExpire_spec (s : State) : (s.rpc.timer = true → s.rpc.startAt + s.obTmo * 1000 * cycPerMs ≤ s.time.cycle →
      exec .startTimerExpire s = .next (((s.log 0x0118 0 s.obTmo).setRpc { s.rpc with startTmo := true }).sysReset 4 false)) ∧
    (s.rpc.timer = false ∨ s.time.cycle < s.rpc.startAt + s.obTmo * 1000 * cycPerMs → exec .startTimerExpire s = .next s) := by
  refine ⟨fun h ht => (if_neg (by simp [h, State.lasted_of_le ht])).trans ?_, fun h => if_pos ?_⟩
  · simp only [State.log_rpc]
  · rcases h with h | ht
    · simp [h]
    · simp [State.lasted_of_lt ht]

/-! ## START, FOLLY and the activation of an image -/

theorem startOk_confirms (s : State) : Gives .startOk s (fun t => t.fld F.RPC_START_UNCONF = 0 ∧ t.flag F.RPC_START_CONFIRMED = true ∧
    t.rpc.timer = false ∧ Logs s t 0x0117 0 (s.fld F.RPC_START_UNCONF) ∧ SameMem s t ∧ RegsKept s t [Reg.RPC_START, Reg.EVL_LOST]) := by
  refine ⟨_, rfl, ?_, ?_, ?_, logs_log _ _ _ (by simp), ?_, ?_⟩ <;> simp (disch := grind) [SameMem]

theorem rpcFollyRequest_resets (s : State) :
    exec (.rpcFollyRequest 0 0xA5#8 true) s = .next ((s.setRpc { s.rpc with follyReq := true }).sysReset 6 false) :=
  if_neg (c := (0 : Fin 160).val ≠ 0 ∨ (0xA5#8).toNat ≠ 0xA5 ∨ true = false) (t := .next s) (by decide)

theorem rpcFollyRequest_ignored {src : Fin 160} {key : Byte} {go : Bool} (h : src ≠ 0 ∨ key ≠ 0xA5#8 ∨ go = false) :
    exec (.rpcFollyRequest src key go) s = .next s := by
  refine if_pos ?_
  rcases h with h | h | h
  · exact .inl fun hz => h (Fin.ext hz)
  · exact .inr (.inl fun hk => h (BitVec.eq_of_toNat_eq hk))
  · exact .inr (.inr h)

theorem imlActivate_resets (hi : s.imlState = 0) (hv : (s.slotIml s.inactive).valid = true) :
    exec .imlActivate s = .next (((s.log 0x0322 0 s.inactive).setIml { s.iml with boot := s.inactive }).sysReset 7 false) := by
  have hlog : State.inactive (s.log 0x0322 0 s.inactive) = s.inactive := by simp (disch := grind) [State.inactive]
  refine (if_pos ⟨hi, hv⟩).trans ?_
  simp only [State.log_iml, hlog]

theorem imlActivate_ignored (h : s.imlState ≠ 0 ∨ (s.slotIml s.inactive).valid = false) : Gives .imlActivate s (fun t =>
    t.flag F.IML_STATUS_CMD_IGN = true ∧ SameMem s t ∧ RegsKept s t [Reg.IML_STATUS]) := by
  refine ⟨_, if_neg fun hc => ?_, ?_⟩
  · rcases h with h | h
    · exact h hc.1
    · simp [h] at hc
  · obtain ⟨hflag, -, hm, hk⟩ := s.imlIgnore_spec
    exact ⟨hflag, hm, hk⟩

/-! ## The pending reset -/

theorem refclkTimeout_spec (s : State) : (s.rpc.pend = none → exec .refclkTimeout s = .next s) ∧
    (∀ c, s.rpc.pend = some c → Gives .refclkTimeout s (fun t => t.rpc = { s.rpc with noRef := true } ∧ SameMem s t ∧ RegsKept s t [])) :=
  ⟨fun h => if_neg (by simp [h]), fun c h => ⟨_, if_pos (by simp [h]), rfl, fun _ => rfl, fun _ _ => rfl⟩⟩

theorem resetRelease_spec (s : State) (sw21 : Bool) (ms code : Nat) :
    (s.rpc.pend = none → exec (.resetRelease sw21 ms) s = .next s) ∧
    (s.rpc.pend = some code → s.rpc.low = 2 → exec (.resetRelease sw21 ms) s = .next s) ∧
    (s.rpc.pend = some code → s.rpc.low ≠ 2 → exec (.resetRelease sw21 ms) s = .next (s.bringUp sw21 ms code)) := by
  refine ⟨fun h => ?_, fun h hl => ?_, fun h hl => ?_⟩
  · simp only [exec, execResetRelease, h]
  · simp only [exec, execResetRelease, h]
    exact if_pos hl
  · simp only [exec, execResetRelease, h]
    exact if_neg hl

/-- The cause a reset leaves pending: power-on, or the lower one of the pending and the new cause. -/
theorem State.sysReset_pend (s : State) (code : Nat) (pav : Bool) : (s.sysReset code pav).rpc.pend =
    some (if (code == 0 || s.rpc.holdLost) = true then 0 else s.rpc.pend.elim code (min · code)) := by
  cases h : s.rpc.pend <;> simp [State.sysReset, h]

theorem State.sysReset_spec (s : State) (code : Nat) (pav : Bool) :
    (s.rpc.holdLost = false → code ≠ 0 → s.rpc.pend = none → (s.sysReset code pav).rpc.pend = some code) ∧
    (s.rpc.holdLost = false → code ≠ 0 → ∀ c, s.rpc.pend = some c → (s.sysReset code pav).rpc.pend = some (min c code)) ∧
    (s.rpc.holdLost = true ∨ code = 0 → (s.sysReset code pav).rpc.pend = some 0) ∧
    (s.sysReset code pav).rpc.low = 0 ∧ (s.sysReset code pav).rpc.released = false := by
  rw [State.sysReset_pend]
  refine ⟨fun hh hc hp => by simp [hh, hc, hp], fun hh hc c hp => by simp [hh, hc, hp], fun h => ?_, rfl, rfl⟩
  rcases h with h | h <;> simp [h]

end

/-- Settles O25: each reset by its condition; the effect of the reset on what is pending by `State.sysReset_spec`. -/
theorem resetCommands : Obligations.ResetCommands := by
  unfold Obligations.ResetCommands
  exact ⟨powerOn_resets, resetPin_resets, brownOutFinalReset_spec, fun s => ⟨s.sysWdgRuns_iff, sysWdgExpire_spec s⟩, sysWdgHalf_spec,
    sysWdgKick_spec, ac0FreezeTimer_spec, startTimerExpire_spec, startOk_confirms, rpcFollyRequest_resets,
    fun _ _ _ _ => rpcFollyRequest_ignored, fun _ => imlActivate_resets, fun _ => imlActivate_ignored, holdupLost_spec, refclkTimeout_spec,
    resetRelease_spec, State.sysReset_spec⟩

end Sys2Proof.Machine


/-! PROOFS. Domain resets, core watchdogs, the pavilion's start, the output grant and the option bytes (R401 to R404, R533 to R542). -/

namespace Sys2Proof.Machine

section
variable {s : State}

/-! ## Domain resets and core watchdogs -/

theorem domainResetRequest_ignored {src : Fin 160} {key d : Byte} (h : src ≠ 0 ∨ key ≠ 0xA5#8) : exec (.domainResetRequest src key d) s = .next s :=
  congrArg Host.Outcome.next (if_pos (h.imp (fun h hz => h (Fin.ext hz)) (fun h hk => h (BitVec.eq_of_toNat_eq hk))))

theorem domainResetRequest_eq (d : Byte) : exec (.domainResetRequest 0 0xA5#8 d) s = .next (s.domainRequest 0 0xA5 d.toNat) := rfl

/-- A request with the key and from AC_0, for a domain other than SYS. -/
theorem State.domainRequest_eq {d : Nat} (h2 : d ≠ 2) (hf : s.domainFree d = true) : s.domainRequest 0 0xA5 d =
    match s.health (.domain d) with
    | .retired => (((s.domainReset d 2).readmit (.domain d)).clkNote d).rpcIrq 5
    | .testing => ((s.endTests [.domain d]).domainReset d 2).rpcIrq 5
    | _ => s.domainReset d 2 := by
  unfold State.domainRequest
  exact (if_neg (by decide)).trans ((if_neg h2).trans ((if_neg (by simp [hf])).trans rfl))

theorem domainResetRequest_spec (s : State) (d : Byte) : (d.toNat = 2 → exec (.domainResetRequest 0 0xA5#8 d) s = .next (s.sysReset 5 false)) ∧
    (d.toNat ≠ 2 → s.domainFree d.toNat = false → Gives (.domainResetRequest 0 0xA5#8 d) s (fun t => Logs s t 0x011B 0 d.toNat ∧ SameMem s t ∧
      RegsKept s t [Reg.EVL_LOST])) ∧
    (d.toNat ≠ 2 → s.domainFree d.toNat = true → s.inUse (.domain d.toNat) = true →
      exec (.domainResetRequest 0 0xA5#8 d) s = .next (s.domainReset d.toNat 2)) ∧
    (d.toNat ≠ 2 → s.domainFree d.toNat = true → s.health (.domain d.toNat) = .retired →
      exec (.domainResetRequest 0 0xA5#8 d) s = .next ((((s.domainReset d.toNat 2).readmit (.domain d.toNat)).clkNote d.toNat).rpcIrq 5)) ∧
    (d.toNat ≠ 2 → s.domainFree d.toNat = true → s.health (.domain d.toNat) = .testing →
      exec (.domainResetRequest 0 0xA5#8 d) s = .next (((s.endTests [.domain d.toNat]).domainReset d.toNat 2).rpcIrq 5)) := by
  rw [domainResetRequest_eq]
  refine ⟨fun h => congrArg _ ?_, fun h2 hf => ⟨s.log 0x011B 0 d.toNat, ?_, logs_log _ _ _ rfl, by simp [SameMem], by simp⟩,
    fun h2 hf hu => congrArg _ ?_, fun h2 hf hh => congrArg _ ?_, fun h2 hf hh => congrArg _ ?_⟩
  · unfold State.domainRequest
    rw [if_neg (by decide), if_pos h]
  · rw [domainResetRequest_eq]
    refine congrArg _ ?_
    unfold State.domainRequest
    rw [if_neg (by decide), if_neg h2, if_pos (by simp [hf])]
  · rw [State.domainRequest_eq h2 hf]
    unfold State.inUse at hu
    cases hh : s.health (.domain d.toNat) <;> simp_all
  · rw [State.domainRequest_eq h2 hf, hh]
  · rw [State.domainRequest_eq h2 hf, hh]

theorem coreWdgExpire_spec (s : State) (c : Fin 8) : (c ≠ 0 → s.flag (F.RPC_CWD_EN c) = true →
      s.kickAt c + s.fld (F.RPC_CWD_TIMEOUT_MS c) * cycPerMs ≤ s.time.cycle →
      exec (.coreWdgExpire c) s = .next ((((s.setFld (F.RPC_CWD_EXPIRED c) 1).kick c).domainReset (24 + c) 3).rpcIrq 4)) ∧
    (c = 0 ∨ s.flag (F.RPC_CWD_EN c) = false ∨ s.time.cycle < s.kickAt c + s.fld (F.RPC_CWD_TIMEOUT_MS c) * cycPerMs →
      exec (.coreWdgExpire c) s = .next s) := by
  refine ⟨fun hc he ht => if_neg ?_, fun h => if_pos ?_⟩
  · rintro (h | h | h)
    · exact hc (Fin.ext h)
    · simp [he] at h
    · simp [State.lasted_of_le ht] at h
  · rcases h with h | h | h
    · exact .inl (congrArg Fin.val h)
    · exact .inr (.inl (by simp [h]))
    · exact .inr (.inr (by simp [State.lasted_of_lt h]))

theorem coreWdgKick_spec (s : State) (c : Fin 8) : (c ≠ 0 → Gives (.coreWdgKick c) s (fun t => t.kickAt c = s.time.cycle ∧ SameMem s t ∧
    RegsKept s t [])) ∧ (c = 0 → exec (.coreWdgKick c) s = .next s) := by
  refine ⟨fun h => ⟨_, if_neg fun hc => h (Fin.ext hc), ?_, fun _ => rfl, fun _ _ => rfl⟩, fun h => if_pos (congrArg Fin.val h)⟩
  simp [State.kick, State.kickAt, Tab.get, Tab.find_put_self]

/-! ## Clocks of the domains (R538, R539) -/

theorem gated_ne {d : Nat} (h : gated d = true) : d ≠ 2 ∧ d ≠ 3 := by
  constructor <;> rintro rfl <;> exact absurd h (by decide)

theorem clockGoodLoss_spec (s : State) (d : Fin 32) (hr : s.flag (F.RPC_DOM_RELEASED d) = true) (hh : s.flag (F.RPC_DOM_HELD d) = false) :
    (d = 2 ∨ d = 3 → exec (.clockGoodLoss d) s = .next (s.sysReset 9 false)) ∧
    (gated d = true → ∀ u, u = ((((s.setFld (F.RPC_DOM_HELD d) 1).setFld (F.RPC_DOM_CLK_GOOD d) 0).countFld (F.RPC_DOM_LOSSES d) 1).clkNote d).transient
      (.domain d) 1 → exec (.clockGoodLoss d) s =
        .next (((u.log 0x0119 (0xC000 + d) (u.healthRec (.domain d)).count).rpcIrq 5).heldWork d)) := by
  have hrun : (!s.flag (F.RPC_DOM_RELEASED d) || s.flag (F.RPC_DOM_HELD d)) = false := by simp [hr, hh]
  refine ⟨fun h => ?_, fun hg u hu => ?_⟩
  · exact (if_neg (by simp [hrun])).trans (if_pos (h.imp (congrArg Fin.val) (congrArg Fin.val)))
  · subst hu
    have hne := gated_ne hg
    exact (if_neg (by simp [hrun])).trans ((if_neg (by simp [hne])).trans (if_neg (by simp [hg])))

theorem clockGoodReturn_spec (s : State) (d : Fin 32) :
    (s.flag (F.RPC_DOM_HELD d) = true → s.clkAt d + 10 * cycPerUs ≤ s.time.cycle → Gives (.clockGoodReturn d) s (fun t =>
      t.flag (F.RPC_DOM_CLK_GOOD d) = true ∧ t.flag (F.RPC_DOM_HELD d) = !s.inUse (.domain d) ∧ SameMem s t ∧ RegsKept s t [Reg.RPC_DOM d])) ∧
    (s.flag (F.RPC_DOM_HELD d) = false ∨ s.time.cycle < s.clkAt d + 10 * cycPerUs → exec (.clockGoodReturn d) s = .next s) := by
  refine ⟨fun hh ht => ?_, fun h => if_pos ?_⟩
  · have hgo : ¬(!s.flag (F.RPC_DOM_HELD d) || !s.lasted (s.clkAt d) (10 * cycPerUs)) = true := by simp [hh, State.lasted_of_le ht]
    cases hu : s.inUse (.domain d)
    · refine ⟨_, (if_neg hgo).trans (if_neg (by simp [hu])), ?_⟩
      simp (disch := grind) [SameMem, hh]
    · refine ⟨_, (if_neg hgo).trans (if_pos hu), ?_⟩
      simp (disch := grind) [SameMem]
  · rcases h with h | h
    · simp [h]
    · simp [State.lasted_of_lt h]

/-! ## The pavilion's start and its safe state -/

theorem pavilionStartDone_eq {t u : State} {sw : BitVec 24} {ok : Bool} {c : Option Nat} (h0 : s.pavState = 0) (hp : s.pavStartEnd sw.toNat ok = (t, c))
    (hu : u = (t.extendMeas 6 (beBytes 48 (sha384 ((List.range parLen).map (fun i => Tab.get (fun _ => 0) t.pvm.par i))))).setFld F.VLT_STATUS_SW18
      (b2n (bit sw.toNat 17))) :
    (c = none → exec (.pavilionStartDone sw ok) s = .next u.parDiff.seritStart) ∧
    (∀ k, c = some k → exec (.pavilionStartDone sw ok) s = .next ((u.pavSafe k).sysReset 3 false)) := by
  refine ⟨fun hc => ?_, fun k hc => ?_⟩ <;> subst hc <;>
    simp only [exec, execPavilionStartDone, h0, hp, ne_eq, not_true, if_false, ← hu]

theorem State.pavStartEnd_runs {sw : Nat} {ok : Bool} (h : (s.pavStartEnd sw ok).2 = none) : (s.pavStartEnd sw ok).1.pavState = 1 := by
  unfold State.pavStartEnd at h ⊢
  simp only at h ⊢
  split_ifs at h ⊢
  simp (disch := grind) [State.pavState]

/-- A START whose self-test fails ends in SAFE with cause 7. -/
theorem State.pavStartEnd_fails (s : State) (sw : Nat) : (s.pavStartEnd sw false).2 = some 7 := by
  unfold State.pavStartEnd
  simp only
  rw [if_pos (by decide)]

theorem pavilionSafeEntry_spec (s : State) (cause : BitVec 4) :
    (s.pavState ≠ 2 → exec (.pavilionSafeEntry cause) s = .next ((s.pavSafe cause.toNat).sysReset 3 false)) ∧
    (s.pavState = 2 → exec (.pavilionSafeEntry cause) s = .next s) :=
  ⟨fun h => if_neg h, fun h => if_pos h⟩

theorem switchCheck_spec (s : State) (sw : BitVec 24) : (s.pavState = 1 → s.fld F.PVM_SWITCH_SW ≠ sw.toNat → exec (.switchCheck sw) s =
      .next (((s.log 0x0D12 0 (s.fld F.PVM_SWITCH_SW ^^^ sw.toNat)).pavSafe 4).sysReset 3 false)) ∧
    (s.pavState ≠ 1 ∨ s.fld F.PVM_SWITCH_SW = sw.toNat → exec (.switchCheck sw) s = .next s) :=
  ⟨fun h hne => if_neg (by simp [h, hne]), fun h => if_pos h⟩

theorem outputEnableGrant_grants (h1 : s.pavState = 1) (hr : s.rpc.released = true) (hf : s.rpc.folly = 0) (hp : s.rpc.pend = none)
    (hb : s.rpc.brown = false) (hl : s.rpc.low ≠ 2) (ho : s.oe = false) : exec .outputEnableGrant s =
      .next (((((s.valvesClear.setFld F.PVM_STATUS_OE 1).heatersEnable).log 0x0D15 0 0).pvmIrq 0).autoResume) :=
  if_neg (by simp [h1, hr, hf, hp, hb, hl, ho])

theorem outputEnableGrant_ignored (h : s.pavState ≠ 1 ∨ s.oe = true) : exec .outputEnableGrant s = .next s :=
  if_pos (by rcases h with h | h <;> simp [h])

/-! ## Option bytes (R540 to R542) -/

theorem obCommit_begins (h : s.flag F.RPC_OB_STATUS_BUSY = false) : Gives .obCommit s (fun t => t.flag F.RPC_OB_STATUS_BUSY = true ∧
    t.rpc.obWrite.isSome = true ∧ SameMem s t ∧ RegsKept s t [Reg.RPC_OB_STATUS]) := by
  refine ⟨_, if_neg (by simp [h]), ?_, rfl, fun _ => rfl, ?_⟩
  · simp (disch := decide) [State.obBegin]
  · simp [State.obBegin]

theorem obCommitDone_writes {k : Nat} {l : List Nat} (h : s.rpc.obWrite = some (k, l)) (hl : ∀ b ∈ l, b < 256) :
    Gives (.obCommitDone true) s (fun t => t.flag F.RPC_OB_STATUS_BUSY = false ∧ t.rpc.obWrite = none ∧ t.rdList (obAddr k) l.length = l ∧
      SameMemOutside s t (obAddr k) l.length ∧ RegsKept s t [Reg.RPC_OB_STATUS]) := by
  refine ⟨((s.setFld F.RPC_OB_STATUS_BUSY 0).setRpc { s.rpc with obWrite := none }).wrList (obAddr k) l, ?_, ?_, ?_, rdList_wrList_self _ _ _ hl, ?_, ?_⟩
  · simp [exec, execObCommitDone, h]
  · simp (disch := decide)
  · rw [rpc_wrList]; rfl
  · exact fun b hb => rdByte_wrList_other _ l hb
  · simp

theorem obCommitDone_fails {k : Nat} {l : List Nat} (h : s.rpc.obWrite = some (k, l)) : Gives (.obCommitDone false) s (fun t =>
    t.flag F.RPC_OB_STATUS_BUSY = false ∧ t.rpc.obWrite = none ∧ t.flag F.RPC_OB_STATUS_OB_FAIL = true ∧ SameMemOutside s t (obAddr k) 32 ∧
    RegsKept s t [Reg.RPC_OB_STATUS]) := by
  have hrun : ∃ x, exec (.obCommitDone false) s = .next (((((s.setFld F.RPC_OB_STATUS_BUSY 0).setRpc { s.rpc with obWrite := none }).takeFresh 1).wrMem
      (obAddr k) 32 x).setFld F.RPC_OB_STATUS_OB_FAIL 1) := ⟨Config.freeNat s.fresh, by simp [exec, execObCommitDone, h, State.freshNat]⟩
  obtain ⟨x, hx⟩ := hrun
  refine ⟨_, hx, ?_, ?_, ?_, ?_, ?_⟩
  · simp (disch := decide)
  · rw [State.setFld_rpc, rpc_wrMem]; rfl
  · simp (disch := decide)
  · intro b hb
    rw [State.rdByte_setFld, State.rdByte_wrMem_other _ x hb]
    simp
  · simp

end

/-- Settles O26: each command by its own lemma; the domains' resets by definition. -/
theorem domainAndPavilionCommands : Obligations.DomainAndPavilionCommands := by
  unfold Obligations.DomainAndPavilionCommands
  exact ⟨fun _ _ _ _ => domainResetRequest_ignored, domainResetRequest_spec, coreWdgExpire_spec, fun _ _ _ => rfl, coreWdgKick_spec,
    clockGoodLoss_spec, clockGoodReturn_spec, fun _ _ _ _ _ _ => pavilionStartDone_eq, fun _ _ _ => State.pavStartEnd_runs,
    State.pavStartEnd_fails, pavilionSafeEntry_spec, switchCheck_spec, fun _ => outputEnableGrant_grants,
    fun _ => outputEnableGrant_ignored, fun _ => obCommit_begins, fun _ _ _ => obCommitDone_writes, fun _ _ _ => obCommitDone_fails⟩

end Sys2Proof.Machine


/-! PROOFS. Supply events, low-power states and recovery requests (R547 to R552). -/

namespace Sys2Proof.Machine

section
variable {s : State}

/-! ## Dips of the supply (R547) -/

@[simp] theorem State.quiet_writeShadow (s : State) : Quiet s.writeShadow s := .of_eq (rd_writeShadow s) (evl_writeShadow s) (time_writeShadow s)

theorem vinDipSet_dips {mv : BitVec 16} (hd : s.flag F.RPC_SUP_STATUS_DIP = false) (hmv : mv.toNat < 19000) : Gives (.vinDipSet mv) s (fun t =>
    t.flag F.RPC_SUP_STATUS_DIP = true ∧ t.flag F.RPC_SUP_STATUS_DIP_SET = true ∧ t.fld F.RPC_SUPPLY_VIN_MV = mv.toNat ∧
    t.num Reg.RPC_DIP_COUNT = satAdd 0xFFFFFFFF (s.num Reg.RPC_DIP_COUNT) 1 ∧ t.rbit Reg.RPC_IRQ 1 = true ∧ t.rpc.dipAt = s.time.cycle ∧
    t.rpc.dipCut = s.seq.cuts.any (fun c => c.dip) ∧ t.rpc.dipWait = !t.rpc.dipCut ∧ Logs s t 0x0111 0 mv.toNat ∧
    RegsKept s t [Reg.RPC_SUPPLY, Reg.RPC_SUP_STATUS, Reg.RPC_DIP_COUNT, Reg.RPC_IRQ, Reg.EVL_LOST]) := by
  have hgo : ¬((s.setFld F.RPC_SUPPLY_VIN_MV mv.toNat).flag F.RPC_SUP_STATUS_DIP || decide (19000 ≤ mv.toNat)) = true := by
    simp (disch := decide) [hd, hmv]
  have hmod : mv.toNat % 65536 = mv.toNat := Nat.mod_eq_of_lt mv.isLt
  refine ⟨_, if_neg hgo, ?_⟩
  simp (disch := decide) [rpc_recModule, rpc_writeShadow, State.rpcIrq, hmod]
  exact logs_log _ _ _ (by simp)

theorem vinDipSet_measures {mv : BitVec 16} (h : s.flag F.RPC_SUP_STATUS_DIP = true ∨ 19000 ≤ mv.toNat) : Gives (.vinDipSet mv) s (fun t =>
    t.fld F.RPC_SUPPLY_VIN_MV = mv.toNat ∧ SameMem s t ∧ RegsKept s t [Reg.RPC_SUPPLY]) := by
  have hmod : mv.toNat % 65536 = mv.toNat := Nat.mod_eq_of_lt mv.isLt
  have hstay : ((s.setFld F.RPC_SUPPLY_VIN_MV mv.toNat).flag F.RPC_SUP_STATUS_DIP || decide (19000 ≤ mv.toNat)) = true := by
    simpa (disch := decide) using h
  refine ⟨_, if_pos hstay, ?_⟩
  simp (disch := decide) [hmod, SameMem]

/-- The flags, the event and the interrupt of the end of a dip. -/
def State.dipEnds (s : State) : State :=
  (((s.setFld F.RPC_SUP_STATUS_DIP 0).setFld F.RPC_SUP_STATUS_DIP_END 1).log 0x0112 0
    ((((s.setFld F.RPC_SUP_STATUS_DIP 0).setFld F.RPC_SUP_STATUS_DIP_END 1).time.cycle -
      ((s.setFld F.RPC_SUP_STATUS_DIP 0).setFld F.RPC_SUP_STATUS_DIP_END 1).rpc.dipAt) / 600)).rpcIrq 2

theorem exec_vinDipClear {mv : BitVec 16} {u : State} (hu : u = s.setFld F.RPC_SUPPLY_VIN_MV mv.toNat) : exec (.vinDipClear mv) s =
    if !u.flag F.RPC_SUP_STATUS_DIP || u.rpc.brown || decide (mv.toNat < 19500) || !u.lasted u.rpc.dipAt cycPerMs then .next u
    else .next ((u.dipEnds.setRpc { u.dipEnds.rpc with dipCut := false }).dipUnused.recModule 3 u.dipSeq []) := by
  subst hu
  rfl

/-- The end of a dip is heeded 1 ms after its start and above 19.5 V. -/
theorem vinDipClear_ends {mv : BitVec 16} (hd : s.flag F.RPC_SUP_STATUS_DIP = true) (hb : s.rpc.brown = false) (hmv : 19500 ≤ mv.toNat)
    (ht : s.rpc.dipAt + cycPerMs ≤ s.time.cycle) (hq : s.seq.dip = none) : Gives (.vinDipClear mv) s (fun t =>
      t.flag F.RPC_SUP_STATUS_DIP = false ∧ t.flag F.RPC_SUP_STATUS_DIP_END = true ∧ t.fld F.RPC_SUPPLY_VIN_MV = mv.toNat ∧
      t.rbit Reg.RPC_IRQ 2 = true ∧ t.rpc.dipCut = false ∧ Logs s t 0x0112 0 ((s.time.cycle - s.rpc.dipAt) / 600) ∧
      RegsKept s t [Reg.RPC_SUPPLY, Reg.RPC_SUP_STATUS, Reg.RPC_IRQ, Reg.EVL_LOST]) := by
  obtain ⟨u, hu⟩ : ∃ u, u = s.setFld F.RPC_SUPPLY_VIN_MV mv.toNat := ⟨_, rfl⟩
  have hrpc : u.rpc = s.rpc := by simp [hu]
  have htime : u.time = s.time := by simp [hu]
  have hl : u.lasted u.rpc.dipAt cycPerMs = true := State.lasted_of_le (by rw [hrpc, htime]; exact ht)
  have hgo : ¬(!u.flag F.RPC_SUP_STATUS_DIP || u.rpc.brown || decide (mv.toNat < 19500) || !u.lasted u.rpc.dipAt cycPerMs) = true := by
    rw [hl]
    simp (disch := decide) [hu, hd, hb, hmv]
  have hmod : mv.toNat % 65536 = mv.toNat := Nat.mod_eq_of_lt mv.isLt
  refine ⟨_, (exec_vinDipClear hu).trans (if_neg hgo), ?_⟩
  simp (disch := decide) [State.dipUnused, State.dipEnds, hq, rpc_recModule, State.rpcIrq, hmod, hu]
  exact logs_log _ _ _ (by simp)

theorem vinDipClear_measures {mv : BitVec 16} (h : s.flag F.RPC_SUP_STATUS_DIP = false ∨ s.rpc.brown = true ∨ mv.toNat < 19500 ∨
      s.time.cycle < s.rpc.dipAt + cycPerMs) :
    Gives (.vinDipClear mv) s (fun t => t.fld F.RPC_SUPPLY_VIN_MV = mv.toNat ∧ SameMem s t ∧ RegsKept s t [Reg.RPC_SUPPLY]) := by
  have hmod : mv.toNat % 65536 = mv.toNat := Nat.mod_eq_of_lt mv.isLt
  obtain ⟨u, hu⟩ : ∃ u, u = s.setFld F.RPC_SUPPLY_VIN_MV mv.toNat := ⟨_, rfl⟩
  have hrpc : u.rpc = s.rpc := by simp [hu]
  have htime : u.time = s.time := by simp [hu]
  have hstay : (!u.flag F.RPC_SUP_STATUS_DIP || u.rpc.brown || decide (mv.toNat < 19500) || !u.lasted u.rpc.dipAt cycPerMs) = true := by
    have hl (ht : s.time.cycle < s.rpc.dipAt + cycPerMs) : u.lasted u.rpc.dipAt cycPerMs = false :=
      State.lasted_of_lt (by rw [hrpc, htime]; exact ht)
    simp only [Bool.or_eq_true, or_assoc]
    exact h.imp (fun h => by simp (disch := decide) [hu, h]) (Or.imp (fun h => by rw [hrpc]; exact h) (Or.imp (fun h => by simpa using h) (fun h => by rw [hl h]; rfl)))
  refine ⟨_, (exec_vinDipClear hu).trans (if_pos hstay), ?_⟩
  simp (disch := decide) [hmod, SameMem, hu]

theorem brownOut_spec (s : State) :
    (s.rpc.brown = false → s.rpc.pend = none → ∀ u, u = (if s.rpc.dipCut then s else s.writeShadow.haltCut).ioReset →
      exec .brownOut s = .next (u.setRpc { u.rpc with brown := true, brownAt := u.time.cycle, dipCut := true, dipWait := false })) ∧
    (s.rpc.brown = true ∨ s.rpc.pend.isSome = true → exec .brownOut s = .next s) := by
  refine ⟨fun hb hp u hu => ?_, fun h => if_pos (by simpa using h)⟩
  subst hu
  exact if_neg (by simp [hb, hp])

/-! ## The field supply (R548) -/

theorem vfldWarning_changes {low : Bool} {mv : BitVec 16} (hne : s.flag F.RPC_SUP_STATUS_VFLD_LOW ≠ low)
    (ht : low = true → mv.toNat < fieldAt s.rpc.ob 12 2) (hf : low = false → fieldAt s.rpc.ob 12 2 + 500 ≤ mv.toNat) :
    Gives (.vfldWarning low mv) s (fun t => t.flag F.RPC_SUP_STATUS_VFLD_LOW = low ∧ t.flag F.RPC_SUP_STATUS_VFLD_CHG = true ∧
      t.fld F.RPC_SUPPLY_VFLD_MV = mv.toNat ∧ t.rbit Reg.RPC_IRQ 3 = true ∧ Logs s t (if low then 0x0113 else 0x0114) 0 mv.toNat ∧ SameMem s t ∧
      RegsKept s t [Reg.RPC_SUPPLY, Reg.RPC_SUP_STATUS, Reg.RPC_IRQ, Reg.EVL_LOST]) := by
  have hgo : ¬((s.setFld F.RPC_SUPPLY_VFLD_MV mv.toNat).flag F.RPC_SUP_STATUS_VFLD_LOW == low ||
      !(if low then decide (mv.toNat < fieldAt (s.setFld F.RPC_SUPPLY_VFLD_MV mv.toNat).rpc.ob 12 2)
      else decide (fieldAt (s.setFld F.RPC_SUPPLY_VFLD_MV mv.toNat).rpc.ob 12 2 + 500 ≤ mv.toNat))) = true := by
    cases low <;> simp (disch := decide) [hne, ht, hf]
  have hmod : mv.toNat % 65536 = mv.toNat := Nat.mod_eq_of_lt mv.isLt
  refine ⟨_, if_neg hgo, ?_, ?_, ?_, ?_, logs_log _ _ _ (by simp [State.rpcIrq]), ?_, ?_⟩ <;> cases low <;>
    simp (disch := decide) [State.rpcIrq, hmod, SameMem, b2n]

/-- The level of the field supply that changes nothing but its reading. -/
theorem vfldWarning_stays {low : Bool} {mv : BitVec 16} (h : s.flag F.RPC_SUP_STATUS_VFLD_LOW = low ∨ (low = true ∧ fieldAt s.rpc.ob 12 2 ≤ mv.toNat) ∨
      (low = false ∧ mv.toNat < fieldAt s.rpc.ob 12 2 + 500)) : exec (.vfldWarning low mv) s = .next (s.setFld F.RPC_SUPPLY_VFLD_MV mv.toNat) := by
  have hstay : ((s.setFld F.RPC_SUPPLY_VFLD_MV mv.toNat).flag F.RPC_SUP_STATUS_VFLD_LOW == low ||
      !(if low then decide (mv.toNat < fieldAt (s.setFld F.RPC_SUPPLY_VFLD_MV mv.toNat).rpc.ob 12 2)
      else decide (fieldAt (s.setFld F.RPC_SUPPLY_VFLD_MV mv.toNat).rpc.ob 12 2 + 500 ≤ mv.toNat))) = true := by
    cases low <;> simpa (disch := decide) using h
  exact if_pos hstay

theorem vfldLost_guard {lost : Bool} {mv : BitVec 16} : ((s.setFld F.RPC_SUPPLY_VFLD_MV mv.toNat).flag F.RPC_SUP_STATUS_VFLD_LOST == lost ||
      !(if lost then decide (mv.toNat < 10000) else decide (12000 ≤ mv.toNat))) = true ↔
    s.flag F.RPC_SUP_STATUS_VFLD_LOST = lost ∨ (lost = true ∧ 10000 ≤ mv.toNat) ∨ (lost = false ∧ mv.toNat < 12000) := by
  cases lost <;> simp (disch := decide)

theorem vfldLost_stays {lost : Bool} {mv : BitVec 16} (h : s.flag F.RPC_SUP_STATUS_VFLD_LOST = lost ∨ (lost = true ∧ 10000 ≤ mv.toNat) ∨
      (lost = false ∧ mv.toNat < 12000)) : exec (.vfldLost lost mv) s = .next (s.setFld F.RPC_SUPPLY_VFLD_MV mv.toNat) :=
  if_pos (vfldLost_guard.mpr h)

theorem vfldLost_changes {u : State} {lost : Bool} {mv : BitVec 16} (hne : s.flag F.RPC_SUP_STATUS_VFLD_LOST ≠ lost)
    (ht : lost = true → mv.toNat < 10000) (hf : lost = false → 12000 ≤ mv.toNat)
    (hu : u = ((((s.setFld F.RPC_SUPPLY_VFLD_MV mv.toNat).setFld F.RPC_SUP_STATUS_VFLD_LOST (b2n lost)).setFld F.RPC_SUP_STATUS_VFLD_CHG 1).rpcIrq
      3).log (if lost then 0x0113 else 0x0114) 0 (mv.toNat + (if lost then 2 ^ 31 else 0))) :
    exec (.vfldLost lost mv) s = .next ((List.range 4).foldl (fun s g => if lost then s.coilAbsent g else s.coilBack g) u) := by
  subst hu
  refine if_neg fun h => ?_
  rcases vfldLost_guard.mp h with h | ⟨h, h'⟩ | ⟨h, h'⟩
  · exact hne h
  · exact absurd (ht h) (by omega)
  · exact absurd (hf h) (by omega)

/-! ## Low-power states (R549, R550) -/

theorem easyEnter_spec (hl : s.rpc.low = 0) (hp : s.rpc.pend = none) :
    (s.lowPowerBar = 0 → Gives .easyEnter s (fun t => t.rpc.low = 1 ∧ Logs s t 0x011D 0 1 ∧ SameMem s t ∧ RegsKept s t [Reg.EVL_LOST])) ∧
    (s.lowPowerBar ≠ 0 → Gives .easyEnter s (fun t => t.rpc.low = 0 ∧ Logs s t 0x0120 0 s.lowPowerBar ∧ SameMem s t ∧
      RegsKept s t [Reg.EVL_LOST])) := by
  have hgo : ¬(s.rpc.low ≠ 0 ∨ s.rpc.pend.isSome = true) := by simp [hl, hp]
  refine ⟨fun h => ⟨_, (if_neg hgo).trans (if_neg (not_not.mpr h)), ?_⟩, fun h => ⟨_, (if_neg hgo).trans (if_pos h), ?_⟩⟩
  · refine ⟨?_, logs_log _ _ _ rfl, ?_, ?_⟩ <;> simp [SameMem]
  · refine ⟨?_, logs_log _ _ _ rfl, ?_, ?_⟩ <;> simp [SameMem, hl]

theorem easyExit_spec (s : State) : (s.rpc.low = 1 → (∃ i < 448, s.irqEnabled 0 i = true ∧ s.irqLevel i = true) → Gives .easyExit s (fun t =>
      t.rpc.low = 0 ∧ t.rbit Reg.RPC_IRQ 7 = true ∧ Logs s t 0x011E 0 1 ∧ SameMem s t ∧ RegsKept s t [Reg.RPC_IRQ, Reg.EVL_LOST])) ∧
    (s.rpc.low ≠ 1 ∨ (∀ i < 448, s.irqEnabled 0 i = false ∨ s.irqLevel i = false) → exec .easyExit s = .next s) := by
  refine ⟨fun hl ⟨i, hi, he, hv⟩ => ?_, fun h => if_pos ?_⟩
  · have hany : (List.range 448).any (fun i => s.irqEnabled 0 i && s.irqLevel i) = true :=
      List.any_eq_true.mpr ⟨i, List.mem_range.mpr hi, by simp [he, hv]⟩
    refine ⟨_, if_neg (by simp only [hl, hany]; decide), ?_⟩
    refine ⟨?_, ?_, ?_, ?_, ?_⟩ <;> simp (disch := decide) [State.rpcIrq, SameMem]
    exact logs_log _ _ _ rfl
  · refine h.imp_right fun h => ?_
    rw [Bool.not_eq_true', List.any_eq_false]
    intro i hi
    rcases h i (List.mem_range.mp hi) with h | h <;> simp [h]

theorem parkEnter_spec (hl : s.rpc.low = 0) (hp : s.rpc.pend = none) :
    (s.lowPowerBar = 0 → exec .parkEnter s = .next ((((s.log 0x011D 0 2).sysReset 8 false)).setRpc
      { ((s.log 0x011D 0 2).sysReset 8 false).rpc with low := 2, wake := s.num Reg.RPC_PARK_WAKE })) ∧
    (s.lowPowerBar ≠ 0 → exec .parkEnter s = .next (s.log 0x0120 0 s.lowPowerBar)) := by
  have hgo : ¬(s.rpc.low ≠ 0 ∨ s.rpc.pend.isSome = true) := by simp [hl, hp]
  exact ⟨fun h => (if_neg hgo).trans (if_neg (not_not.mpr h)), fun h => (if_neg hgo).trans (if_pos h)⟩

theorem lowPower_ignored (s : State) : (s.rpc.low ≠ 0 ∨ s.rpc.pend.isSome = true → exec .easyEnter s = .next s ∧ exec .parkEnter s = .next s) ∧
    (s.rpc.low ≠ 2 ∨ s.rpc.wake = 0 → exec .parkWake s = .next s) :=
  ⟨fun h => ⟨if_pos h, if_pos h⟩, fun h => if_pos h⟩

theorem parkWake_wakes (hl : s.rpc.low = 2) (hw : s.rpc.wake ≠ 0) (hw32 : s.rpc.wake < 2 ^ 32) : Gives .parkWake s (fun t => t.rpc.low = 0 ∧
    t.num Reg.RPC_ELAPSED_LO = s.rpc.wake ∧ Logs s t 0x011E 0 2 ∧ SameMem s t ∧
    RegsKept s t [Reg.RPC_ELAPSED_LO, Reg.RPC_ELAPSED_HI, Reg.EVL_LOST]) := by
  refine ⟨_, if_neg (by simp [hl, hw]), ?_, ?_, logs_log _ _ _ (by simp [State.setElapsed]), ?_, ?_⟩
  · simp
  · simp (disch := decide) [State.setElapsed, State.setNum64]
    omega
  · simp [State.setElapsed, SameMem]
  · simp [State.setElapsed, State.setNum64]

/-! ## Recovery requests (R551, R552) -/

theorem State.recovery_ignored {code : Nat} {l : List Byte} {f : State → Nat → List Nat → State} (h : s.rpc.folly = 0) : s.recovery code l f = s :=
  if_pos (.inl h)

theorem State.recovery_served {code seq : Nat} {l : List Byte} {p : List Nat} {f : State → Nat → List Nat → State} (hf : s.rpc.folly ≠ 0)
    (hp : s.rpc.pend = none) (h : recoveryIn code (l.map BitVec.toNat) = some (seq, p)) : s.recovery code l f = f s seq p := by
  unfold State.recovery
  rw [if_neg (by simp [hf, hp]), h]

theorem recovery_ignored (frame : List Byte) (c : ImgContent) (h : s.rpc.folly = 0) : exec (.recoveryIdent frame) s = .next s ∧
    exec (.recoveryStore frame c) s = .next s ∧ exec (.recoveryObWrite frame) s = .next s ∧ exec (.recoveryLog frame) s = .next s ∧
    exec (.recoveryExit frame) s = .next s :=
  ⟨congrArg _ (State.recovery_ignored h), congrArg _ (State.recovery_ignored h), congrArg _ (State.recovery_ignored h),
    congrArg _ (State.recovery_ignored h), congrArg _ (State.recovery_ignored h)⟩

section
variable {frame : List Byte} {seq : Nat} {p : List Nat} (hf : s.rpc.folly ≠ 0) (hp : s.rpc.pend = none)
include hf hp

theorem recoveryObWrite_spec (h : recoveryIn 3 (frame.map BitVec.toNat) = some (seq, p)) :
    (s.sw18 = false → exec (.recoveryObWrite frame) s = .next (s.recoveryOut 3 seq (8 + 2 ^ 8) [])) ∧
    (s.sw18 = true → p.length = 28 → s.flag F.RPC_OB_STATUS_BUSY = false →
      exec (.recoveryObWrite frame) s = .next ((s.obBegin p).recoveryOut 3 seq 0 [])) ∧
    (s.sw18 = true → p.length ≠ 28 → exec (.recoveryObWrite frame) s = .next (s.recoveryOut 3 seq (2 + 2 ^ 8) [])) ∧
    (s.sw18 = true → p.length = 28 → s.flag F.RPC_OB_STATUS_BUSY = true →
      exec (.recoveryObWrite frame) s = .next (s.recoveryOut 3 seq (1 + 2 ^ 8) [])) := by
  refine ⟨fun h18 => ?_, fun h18 hl hb => ?_, fun h18 hl => ?_, fun h18 hl hb => ?_⟩ <;>
    refine congrArg Host.Outcome.next ((State.recovery_served hf hp h).trans ?_)
  · exact if_pos (by simp [h18])
  · exact (if_neg (by simp [h18])).trans ((if_neg (not_not.mpr hl)).trans (if_neg (by simp [hb])))
  · exact (if_neg (by simp [h18])).trans (if_pos hl)
  · exact (if_neg (by simp [h18])).trans ((if_neg (not_not.mpr hl)).trans (if_pos hb))

/-- A firmware is checked, then stored; a refusal carries its code. -/
theorem recoveryStore_firmware (c : ImgContent) (h : recoveryIn 2 (frame.map BitVec.toNat) = some (seq, p)) (hm : fieldAt p 0 4 = 0x574E4D41) :
    (s.fwCheck p ≠ 0 → exec (.recoveryStore frame c) s = .next ((s.fwRefused (s.fwCheck p) (fwKind p)
      (1 - s.fwActive (fwKind p))).recoveryOut 2 seq (s.fwCheck p + 2 ^ 8) [])) ∧
    (∀ code t, s.fwCheck p = 0 → s.fwStore p = (code, t) →
      exec (.recoveryStore frame c) s = .next (t.recoveryOut 2 seq (if code = 0 then 0 else code + 2 ^ 8) [])) := by
  refine ⟨fun hc => ?_, fun code t hc ht => ?_⟩ <;> refine congrArg Host.Outcome.next ((State.recovery_served hf hp h).trans ?_)
  · exact (if_pos hm).trans (if_pos hc)
  · simp only [if_pos hm, if_neg (not_not.mpr hc), ht]

theorem recoveryStore_image {code : Nat} {t : State} (c : ImgContent) (h : recoveryIn 2 (frame.map BitVec.toNat) = some (seq, p))
    (hm : fieldAt p 0 4 = 0x494E4D41) (hpart : (imgHdrOf p).isPart = false) (ht : s.recoveryImage p c = (code, t)) :
    exec (.recoveryStore frame c) s = .next (t.recoveryOut 2 seq (if code = 0 then 0 else code + 2 * 2 ^ 8) []) := by
  refine congrArg Host.Outcome.next ((State.recovery_served hf hp h).trans ?_)
  simp only [hm, hpart, ht]
  rfl

theorem recoveryStore_other (c : ImgContent) (h : recoveryIn 2 (frame.map BitVec.toNat) = some (seq, p)) (hm : fieldAt p 0 4 ≠ 0x574E4D41)
    (hi : fieldAt p 0 4 ≠ 0x494E4D41 ∨ (imgHdrOf p).isPart = true) : exec (.recoveryStore frame c) s = .next (s.recoveryOut 2 seq (2 + 2 ^ 8) []) := by
  refine congrArg Host.Outcome.next ((State.recovery_served hf hp h).trans ((if_neg hm).trans (if_neg ?_)))
  rcases hi with hi | hi <;> simp [hi]

end
end

/-- Settles O27: supply and low-power commands by their own lemmas, recovery requests by `State.recovery_served`. -/
theorem supplyAndRecoveryCommands : Obligations.SupplyAndRecoveryCommands := by
  unfold Obligations.SupplyAndRecoveryCommands
  refine ⟨fun _ _ => vinDipSet_dips, fun _ _ => vinDipSet_measures, fun _ _ => vinDipClear_ends, fun _ _ => vinDipClear_measures, brownOut_spec,
    fun _ _ _ => vfldWarning_changes, fun _ _ _ => ⟨vfldWarning_stays, vfldLost_stays⟩, fun _ _ _ _ => vfldLost_changes, fun _ => easyEnter_spec,
    easyExit_spec, fun _ hl hp => (parkEnter_spec hl hp).1, fun _ hl hp => (parkEnter_spec hl hp).2, lowPower_ignored, fun _ => parkWake_wakes,
    fun _ frame c => recovery_ignored frame c, fun s frame seq p hf hp => ⟨?_, ?_, ?_, recoveryObWrite_spec hf hp⟩,
    fun _ _ c _ _ hf hp => recoveryStore_firmware hf hp c, fun _ _ c _ _ _ _ hf hp => recoveryStore_image hf hp c,
    fun _ _ c _ _ hf hp => recoveryStore_other hf hp c⟩ <;>
    exact fun h => congrArg Host.Outcome.next (State.recovery_served hf hp h)

end Sys2Proof.Machine


/-! PROOFS. The cox: tokens, dispatch, release, dispatch ports, observation windows and counters (R99 to R117). -/

namespace Sys2Proof.Machine

section
variable (s : State)

@[simp] theorem State.coxOf_setCox (n : Nat) (c : CoxState) : (s.setCox n c).coxOf n = c := by simp [State.coxOf, State.setCox, Tab.get, Tab.find_put_self]
@[simp] theorem State.ctxOf_setCtx (n x : Nat) (c : CoxCtx) : (s.setCtx n x c).ctxOf n x = c := by
  simp [State.ctxOf, State.setCtx, CoxState.ctx, Tab.get, Tab.find_put_self]
@[simp] theorem State.dpOf_setDp (n c : Nat) (d : DpState) : (s.setDp n c d).dpOf n c = d := by
  simp [State.dpOf, State.setDp, State.coxOf, State.setCox, Tab.get, Tab.find_put_self]

theorem State.coxOf_congr {s t : State} (h : t.cox = s.cox) (n : Nat) : t.coxOf n = s.coxOf n := congrArg (fun c => Tab.get (fun _ => CoxState.init) c n) h

@[simp] theorem State.quiet_setCtx (n x : Nat) (c : CoxCtx) : Quiet (s.setCtx n x c) s := s.quiet_setCox _ _
@[simp] theorem State.quiet_setEntry (n x w : Nat) (e : MEntry) : Quiet (s.setEntry n x w e) s := s.quiet_setCox _ _

end

/-! ## Tokens (R99) -/

section
variable {s : State}

theorem coxTokenArrival_spec {m : Fin 8} {n : Nat} (x : Fin 512) (k : Fin 4) (link : Nat) (t : Token) (h : s.physOf m = some n) :
    (s.crewDeaf n = false → exec (.coxTokenArrival m x k link t) s = .next (s.coxToken n x k link t)) ∧
    (s.crewDeaf n = true → exec (.coxTokenArrival m x k link t) s = .next (s.dropToken m t)) := by
  constructor <;> intro hd <;> simp only [exec, execCoxTokenArrival, h, hd, if_true, Bool.false_eq_true, if_false]

/-- A HOLD slot keeps the token with the stroke of its arrival. -/
theorem State.coxToken_hold {n x k link : Nat} {t : Token} (hv : s.ctxValid n x = true) (hk : k < s.ctxNops n x) (hs : s.slotKind n x k = 1) :
    s.coxToken n x k link t = s.setCtx n x
      { s.ctxOf n x with held := (s.ctxOf n x).held.set k (some (⟨t, link⟩, (s.coxOf n).lastCatch.map strokeOf)) } :=
  (if_neg (by simp [hv, hk])).trans (if_pos hs)

theorem State.coxToken_hold_spec {n x k link : Nat} {t : Token} (hv : s.ctxValid n x = true) (hk : k < s.ctxNops n x) (hs : s.slotKind n x k = 1)
    (hl : (s.ctxOf n x).held.length = 4) (hk4 : k < 4) :
    ((s.coxToken n x k link t).ctxOf n x).held.getD k none = some (⟨t, link⟩, (s.coxOf n).lastCatch.map strokeOf) ∧
    RegsKept s (s.coxToken n x k link t) [] ∧ SameMem s (s.coxToken n x k link t) := by
  rw [State.coxToken_hold hv hk hs]
  refine ⟨?_, by simp, fun _ => rfl⟩
  rw [State.ctxOf_setCtx]
  simp [List.getD, hl, hk4]

/-- A token for a slot that the entry of its CSEQ has filled is late. -/
theorem State.coxToken_late {n x k link w : Nat} {t : Token} (hv : s.ctxValid n x = true) (hk : k < s.ctxNops n x) (hs : s.slotKind n x k ≠ 1)
    (hf : s.findEntry n x (fun e => e.state == .opened && e.cseq == t.cseq.toNat) = some w)
    (ho : ((s.entryOf n x w).ops.getD k none).isSome = true) : s.coxToken n x k link t = s.lateToken n x k := by
  refine (if_neg (by simp [hv, hk])).trans ((if_neg hs).trans ?_)
  simp only [State.place, hf, if_pos ho]

theorem State.lateToken_spec {n : Nat} (x k : Nat) (hn : n < 9) :
    (s.lateToken n x k).num (Reg.COX_TOT_LATE n) = satAdd 0xFFFFFFFF (s.num (Reg.COX_TOT_LATE n)) 1 ∧
    (s.lateToken n x k).flag (F.COX_STATUS_LATE n) = true ∧
    Logs s (s.lateToken n x k) 0x0412 (0x1000 + n) (x + k * 2 ^ 12) ∧ SameMem s (s.lateToken n x k) ∧
    RegsKept s (s.lateToken n x k) [Reg.COX_TOT_LATE n, Reg.COX_STATUS n, Reg.EVL_LOST] := by
  unfold State.lateToken
  refine ⟨?_, ?_, logs_log _ _ _ (by simp), ?_, ?_⟩ <;> simp (disch := grind) [SameMem]

/-! ## Dispatch and release (R107, R108) -/

theorem coxDispatch_runs {n : Fin 9} (can : BitVec 3) (hd : s.crewDeaf n = false) (hf : s.engineFrozen n 0 = false) :
    exec (.coxDispatch n can) s = .next (s.dispatch n can.toNat) := if_neg (by simp [hd, hf])

/-- The entry picked for a target waits in a list, is for the target, is eligible, and the target takes it. -/
theorem State.pick_spec {n t can x w : Nat} (h : s.pick n t can = some (x, w)) : (x, w) ∈ (s.coxOf n).lists.flatten ∧ s.ctxTarget n x = t ∧
    s.issuedOther n x w = false ∧ s.accepts n x t can = true := by
  have hp := List.find?_some h
  simp only [Bool.and_eq_true, beq_iff_eq, Bool.not_eq_true'] at hp
  exact ⟨List.mem_of_find?_eq_some h, hp.1.1, hp.1.2, hp.2⟩

theorem coxRelease_spec {n : Fin 9} {x : Fin 512} {w : Nat} (acq : List (Word × BitVec 4)) (hi : s.issuedEntry n x = some w)
    (hd : s.crewDeaf n = false) (h0 : s.engineFrozen n 0 = false) :
    (s.ctxTarget n x = 2 → s.engineFrozen n 3 = false → exec (.coxRelease n x acq) s =
      .next ((s.setEntry n x w { s.entryOf n x w with results := s.resultTokens n x (s.entryOf n x w).cseq acq }).release n x w)) ∧
    (s.ctxTarget n x ≤ 1 → s.engineFrozen n (s.ctxTarget n x + 1) = false → (s.entryOf n x w).done = true →
      (s.entryOf n x w).confirmed = true → exec (.coxRelease n x acq) s = .next (s.release n x w)) ∧
    (∀ ch, s.ctxTarget n x = 3 → s.taskChan n x = some ch → s.cdmState n ch ≠ 1 →
      exec (.coxRelease n x acq) s = .next (s.release n x w)) := by
  refine ⟨fun ht hf => ?_, fun ht hf hdone hc => ?_, fun ch ht hch hs => ?_⟩ <;> simp only [exec, execCoxRelease, hi]
  · exact (if_neg (by simp [hd, h0, ht, hf])).trans (if_pos ht)
  · exact (if_neg (by simp [hd, h0, hf])).trans ((if_neg (by omega)).trans ((if_pos ht).trans (if_pos (by simp [hdone, hc]))))
  · refine (if_neg (by simp [hd, h0, ht])).trans ((if_neg (by omega)).trans ((if_neg (by omega)).trans ((if_pos ht).trans ?_)))
    simp only [hch, if_neg hs]

theorem State.release_spec {n w : Nat} (x : Nat) : (s.release n x w).entryOf n x w = MEntry.init ∧
    (s.release n x w).wire = s.wire ++ (s.entryOf n x w).results.map (Emit.tok (s.coxLink n)) ∧
    SameMem s (s.release n x w) ∧ RegsKept s (s.release n x w) [Reg.COX_STATUS n] := by
  refine ⟨entryOf_setEntry s n x w MEntry.init, rfl, fun _ => rfl, ?_⟩
  simp [State.release, State.syncRetrying, State.emitToks]

/-! ## Dispatch ports (R112, R113) -/

/-- The words of a descriptor in view: its CSEQ, then the words of its operands. -/
def Desc.viewWords (d : Desc) : List Word := BitVec.ofNat 32 d.cseq :: (d.ops.map (fun o => o.tok.words)).flatten

theorem State.writeView_eq (n c : Nat) (d : Desc) :
    s.writeView n c d = (List.range 13).foldl (fun t k => t.wr (Reg.COX_DP_VIEW n c k) (d.viewWords.getD k 0)) s := rfl

theorem State.writeView_num_zero (n c : Nat) (d : Desc) : (s.writeView n c d).num (Reg.COX_DP_VIEW n c 0) = d.cseq % 2 ^ 32 := by
  have hw : (s.writeView n c d).num (Reg.COX_DP_VIEW n c 0) = (d.viewWords.getD 0 0).toNat := by
    rw [State.writeView_eq]
    refine fold_est (m := 0) (fun _ => True) (fun t : State => t.num (Reg.COX_DP_VIEW n c 0) = (d.viewWords.getD 0 0).toNat) (fun _ _ _ => trivial)
      (fun t _ => State.num_wr_same _ _ _) (fun t k _ h => ?_) (List.mem_range.mpr (by decide)) trivial
    by_cases hk : k = 0
    · subst hk
      exact State.num_wr_same _ _ _
    · simpa (disch := grind) using h
  rw [hw]
  simp [Desc.viewWords]

theorem State.writeView_keeps (n c : Nat) (d : Desc) : (s.writeView n c d).cox = s.cox ∧ (s.writeView n c d).mem = s.mem := by
  rw [State.writeView_eq]
  exact ⟨fold_field State.cox (by simp) _ s, fold_field State.mem (by simp) _ s⟩

theorem State.writeView_count {n c : Nat} (d : Desc) (hn : n < 9) (hc : c < 8) :
    (s.writeView n c d).fld (F.COX_DP_STATUS_COUNT n c) = s.fld (F.COX_DP_STATUS_COUNT n c) := by
  rw [State.writeView_eq]
  refine List.foldlRecOn (motive := fun t : State => t.fld (F.COX_DP_STATUS_COUNT n c) = s.fld (F.COX_DP_STATUS_COUNT n c)) _ _ rfl
    fun t h k hk => ?_
  have hk' := List.mem_range.mp hk
  simpa (disch := grind) using h

theorem dpPop_empty {n : Fin 9} {c : Fin 8} (hd : s.crewDeaf n = false) (hv : (s.dpOf n c).view = none) (hf : (s.dpOf n c).fifo = []) :
    exec (.dpPop n c) s = .next (s.busOk 0) := by
  simp only [exec, execDpPop, hd, hv, hf, Bool.false_eq_true, if_false]
  rfl

theorem dpPop_pops {n : Fin 9} {c : Fin 8} {d : Desc} {l : List Desc} (hd : s.crewDeaf n = false) (hv : (s.dpOf n c).view = none)
    (hf : (s.dpOf n c).fifo = d :: l) (hl : l.length < 32) : Gives (.dpPop n c) s (fun t => t.dpOf n c = ⟨l, some d⟩ ∧
      t.bus = ⟨false, 2 ^ 31 + d.ops.length * 2 ^ 9 + d.ctx⟩ ∧ t.num (Reg.COX_DP_VIEW n c 0) = d.cseq % 2 ^ 32 ∧
      t.fld (F.COX_DP_STATUS_COUNT n c) = l.length ∧ SameMem s t) := by
  have hrun : exec (.dpPop n c) s =
      .next (((s.setDp n c ⟨l, some d⟩).writeView n c d).setBus ⟨false, 2 ^ 31 + d.ops.length * 2 ^ 9 + d.ctx⟩) := by
    simp only [exec, execDpPop, hd, hv, hf, Bool.false_eq_true, if_false]
  obtain ⟨hcox, hmem⟩ := (s.setDp n c ⟨l, some d⟩).writeView_keeps n c d
  refine ⟨_, hrun, ?_, rfl, ?_, ?_, SameMem.of_eq ((State.setBus_mem _ _).trans (hmem.trans rfl))⟩
  · have h : (((s.setDp n c ⟨l, some d⟩).writeView n c d).setBus ⟨false, 2 ^ 31 + d.ops.length * 2 ^ 9 + d.ctx⟩).dpOf n c =
        (s.setDp n c ⟨l, some d⟩).dpOf n c := by
      unfold State.dpOf
      exact congrArg (fun k => Tab.get (fun _ => DpState.init) k.dp c.val) (State.coxOf_congr ((State.setBus_cox _ _).trans hcox) n)
    rw [h, State.dpOf_setDp]
  · rw [(State.quiet_setBus ..).1.2.2.1]
    exact State.writeView_num_zero n c d
  · rw [(State.quiet_setBus ..).1.1, State.writeView_count d n.isLt c.isLt]
    simp (disch := grind) [State.setDp]
    omega

theorem dpDone_unviewed {n : Fin 9} {c : Fin 8} (nres : BitVec 3) (hd : s.crewDeaf n = false) (hv : (s.dpOf n c).view = none) :
    exec (.dpDone n c nres) s = .next s := by
  refine (if_neg (by simp [hd])).trans (congrArg _ ?_)
  simp only [State.dpDone, hv]

theorem dpDone_releases {n : Fin 9} {c : Fin 8} {nres : BitVec 3} {d : Desc} {w : Nat} {u : State} (hd : s.crewDeaf n = false)
    (hv : (s.dpOf n c).view = some d) (hu : u = s.setDp n c { s.dpOf n c with view := none }) (hi : u.issuedEntry n d.ctx = some w)
    (hr : nres.toNat = d.nres) : exec (.dpDone n c nres) s = .next ((u.setEntry n d.ctx w { u.entryOf n d.ctx w with
        results := u.resultTokens n d.ctx d.cseq ((List.range nres.toNat).map (fun i =>
          (u.rd (Reg.COX_DP_RES n c i), BitVec.ofNat 4 (u.fld (F.COX_DP_RST_ST n c i))))) }).release n d.ctx w) := by
  refine (if_neg (by simp [hd])).trans (congrArg _ ?_)
  simp only [State.dpDone, hv, ← hu, hi, if_pos hr]

/-! ## Observation windows (R114 to R116) -/

theorem State.windowDue_iff (n : Nat) : s.windowDue n = true ↔ (s.coxOf n).winSeen = true ∧ (s.coxOf n).winLen ≤ (s.coxOf n).winStroke := by
  simp [State.windowDue]

theorem State.windowPrio_time (t : State) (n p : Nat) : (t.windowPrio n p).time = t.time := by
  unfold State.windowPrio
  simp only
  split <;> simp

theorem State.windowEnd_spec {n : Nat} (hn : n < 9) : (s.windowEnd n).flag (F.COX_STATUS_WIN_DONE n) = true ∧
    ((s.windowEnd n).coxOf n).winStroke = 0 ∧ ((s.windowEnd n).coxOf n).winStart = s.time.cycle := by
  unfold State.windowEnd
  simp only [State.coxOf_setCox, State.setFld_time, State.setNum_time]
  refine ⟨by simp (disch := grind), trivial, ?_⟩
  rw [fold_field State.time (by simp), fold_field State.time (by intros; exact State.windowPrio_time ..),
    fold_field State.time (by simp [State.windowCtx, State.setCtx])]

theorem coxWindowEnd_spec (s : State) (n : Fin 9) :
    (s.crewDeaf n = false → s.windowDue n = true → Gives (.coxWindowEnd n) s (fun t => t = s.windowEnd n ∧
      t.flag (F.COX_STATUS_WIN_DONE n) = true ∧ (t.coxOf n).winStroke = 0 ∧ (t.coxOf n).winStart = s.time.cycle)) ∧
    (s.crewDeaf n = true ∨ s.windowDue n = false → exec (.coxWindowEnd n) s = .next s) :=
  ⟨fun hd hw => ⟨_, if_neg (by simp [hd, hw]), rfl, State.windowEnd_spec n.isLt⟩, fun h => if_pos (by simpa using h)⟩

/-- A wait beyond the proved bound of its priority is counted, flagged and logged. -/
theorem State.windowPrio_exceeds {n p : Nat} (hn : n < 9) (hp : p < 8) (hb : s.waitBound n p < 255)
    (hw : s.waitBound n p * 300 < (s.coxOf n).prioMax.getD p 0 * 5) :
    (s.windowPrio n p).flag (F.COX_STATUS_WAIT_EXC n) = true ∧
    (s.windowPrio n p).num (Reg.COX_WAITMAX n p) = (s.coxOf n).prioMax.getD p 0 % 2 ^ 32 ∧
    Logs s (s.windowPrio n p) 0x0414 (0x1000 + n) (p + min ((s.coxOf n).prioMax.getD p 0 * 5 / 300) 0xFFFF * 2 ^ 16) ∧
    RegsKept s (s.windowPrio n p) [Reg.COX_WAITMAX n p, Reg.COX_TOT_WAITX n, Reg.COX_STATUS n, Reg.EVL_LOST] := by
  have hmap : (s.setNum (Reg.COX_WAITMAX n p) ((s.coxOf n).prioMax.getD p 0)).rd Reg.IML_CREWMAP = s.rd Reg.IML_CREWMAP :=
    State.rd_setNum_other _ _ (by grind)
  have hbound : (s.setNum (Reg.COX_WAITMAX n p) ((s.coxOf n).prioMax.getD p 0)).waitBound n p = s.waitBound n p := by
    unfold State.waitBound
    rw [logicalOf_congr hmap]
    rfl
  have heq : s.windowPrio n p = (((s.setNum (Reg.COX_WAITMAX n p) ((s.coxOf n).prioMax.getD p 0)).count (Reg.COX_TOT_WAITX n) 1).setFld
      (F.COX_STATUS_WAIT_EXC n) 1).log 0x0414 (0x1000 + n) (p + min ((s.coxOf n).prioMax.getD p 0 * 5 / 300) 0xFFFF * 2 ^ 16) := by
    unfold State.windowPrio
    simp only [hbound]
    exact if_pos ⟨hb, hw⟩
  rw [heq]
  refine ⟨?_, ?_, logs_log _ _ _ (by simp), ?_⟩ <;> simp (disch := grind)

/-! ## Counters cleared (R115, R117) -/

theorem coxClrTotals_clears {n : Fin 9} (hd : s.crewDeaf n = false) : Gives (.coxClrTotals n) s (fun t => t.num (Reg.COX_TOT_DISP n) = 0 ∧
    t.num (Reg.COX_TOT_STALE n) = 0 ∧ t.num (Reg.COX_TOT_DROP n) = 0 ∧ t.num (Reg.COX_TOT_LATE n) = 0 ∧ t.num (Reg.COX_TOT_RETRY n) = 0 ∧
    t.num (Reg.COX_TOT_WAITX n) = 0 ∧ SameMem s t ∧ RegsKept s t [Reg.COX_TOT_DISP n, Reg.COX_TOT_STALE n, Reg.COX_TOT_DROP n,
      Reg.COX_TOT_LATE n, Reg.COX_TOT_RETRY n, Reg.COX_TOT_WAITX n]) := by
  refine ⟨_, if_neg (by simp [hd]), ?_, ?_, ?_, ?_, ?_, ?_, fun _ => rfl, by simp⟩ <;> simp (disch := grind)

theorem coxClrCtxCounts_clears {n : Fin 9} (hd : s.crewDeaf n = false) : Gives (.coxClrCtxCounts n) s (fun t => (∀ x < 512,
    t.fld (F.COX_CTX_MISC_STALE n x) = 0 ∧ t.fld (F.COX_CTX_MISC_DROP n x) = 0) ∧ SameMem s t) := by
  refine ⟨_, if_neg (by simp [hd]), ?_, ?_⟩
  swap
  · exact SameMem.of_eq (fold_field State.mem (by simp) _ s)
  intro x hx
  refine fold_est (m := x) (fun _ => True) (fun t : State => t.fld (F.COX_CTX_MISC_STALE n x) = 0 ∧ t.fld (F.COX_CTX_MISC_DROP n x) = 0)
    (fun _ _ _ => trivial) (fun t _ => ?_) (fun t y _ h => ?_) (List.mem_range.mpr hx) trivial
  · simp (disch := grind)
  · by_cases hy : y = x
    · subst hy
      simp (disch := grind)
    · simpa (disch := grind) using h

theorem coxClrDepthMax_clears {n : Fin 9} (hd : s.crewDeaf n = false) : Gives (.coxClrDepthMax n) s (fun t => (∀ p < 8,
    t.fld (F.COX_DEPTH_MAX n p) = 0 ∧ t.fld (F.COX_DEPTH_CUR n p) = s.fld (F.COX_DEPTH_CUR n p)) ∧ SameMem s t) := by
  refine ⟨_, if_neg (by simp [hd]), ?_, ?_⟩
  swap
  · exact SameMem.of_eq (fold_field State.mem (by simp) _ s)
  intro p hp
  have hcur (t : State) (q : Nat) : (t.setFld (F.COX_DEPTH_MAX n q) 0).fld (F.COX_DEPTH_CUR n p) = t.fld (F.COX_DEPTH_CUR n p) := by
    by_cases hq : q = p
    · subst hq
      simp (disch := grind)
    · simp (disch := grind)
  refine ⟨?_, fold_field (State.fld · (F.COX_DEPTH_CUR n p)) hcur _ s⟩
  refine fold_est (m := p) (fun _ => True) (fun t : State => t.fld (F.COX_DEPTH_MAX n p) = 0) (fun _ _ _ => trivial) (fun t _ => ?_) (fun t q _ h => ?_)
    (List.mem_range.mpr hp) trivial
  · simp (disch := grind)
  · by_cases hq : q = p
    · subst hq
      simp (disch := grind)
    · simpa (disch := grind) using h

end

/-- Settles O28: each command by its own lemma; what a token, a release and a window leave by the cox's operations. -/
theorem coxCommands : Obligations.CoxCommands := by
  unfold Obligations.CoxCommands
  refine ⟨fun _ _ x k link _ t => coxTokenArrival_spec x k link t, fun _ _ _ _ _ _ => State.coxToken_hold_spec, fun s n x k link w t hn hv hk hs hf ho => ?_,
    fun _ _ can => coxDispatch_runs can, fun _ _ _ _ _ _ => State.pick_spec, fun _ _ _ _ acq => coxRelease_spec acq,
    fun _ _ x _ _ _ => State.release_spec x, fun _ _ _ hd hv => ⟨dpPop_empty hd hv, fun _ _ => dpPop_pops hd hv⟩,
    fun _ _ _ nres hd => ⟨dpDone_unviewed nres hd, fun _ _ _ => dpDone_releases hd⟩, fun s n => ⟨s.windowDue_iff n, coxWindowEnd_spec s n⟩,
    fun _ _ _ => State.windowPrio_exceeds, fun _ _ => coxClrTotals_clears, fun _ _ => coxClrCtxCounts_clears, fun _ _ => coxClrDepthMax_clears⟩
  rw [State.coxToken_late hv hk hs hf ho]
  exact State.lateToken_spec x k hn

end Sys2Proof.Machine


/-! PROOFS. Loop engine: updates, mode requests, parameter changes and repetitive tables (R161, R166, R170, R172, R174, R188, R189). -/

namespace Sys2Proof.Machine

section
variable (s : State)

@[simp] theorem State.lpeOf_setLpe (n : Nat) (e : LpeState) : (s.setLpe n e).lpeOf n = e := by simp [State.lpeOf, State.setLpe, Tab.get, Tab.find_put_self]
@[simp] theorem State.loopDyn_setLoopDyn (n l : Nat) (d : LoopDyn) : (s.setLoopDyn n l d).loopDyn n l = d := by
  simp [State.loopDyn, State.setLoopDyn, Tab.get, Tab.find_put_self]
@[simp] theorem State.quiet_setLoopDyn (n l : Nat) (d : LoopDyn) : Quiet (s.setLoopDyn n l d) s := s.quiet_setLpe _ _
@[simp] theorem State.quiet_wrWord (a : Nat) (v : Word) : Quiet (s.wrWord a v) s := s.quiet_wrMem _ _ _
@[simp] theorem State.quiet_setLw (n l o : Nat) (v : Word) : Quiet (s.setLw n l o v) s := s.quiet_wrWord _ _

@[simp] theorem State.rdByte_setLoopDyn (n l : Nat) (d : LoopDyn) (b : Nat) : (s.setLoopDyn n l d).rdByte b = s.rdByte b := by
  simp [State.setLoopDyn, State.setLpe, State.rdByte]

theorem State.loopDyn_congr {s t : State} (h : t.lpe = s.lpe) (n l : Nat) : t.loopDyn n l = s.loopDyn n l :=
  congrArg (fun e => Tab.get (fun _ => LoopDyn.init) (Tab.get (fun _ => LpeState.init) e n).dyn l) h

/-- A word of a loop context reads back what was written to it. -/
theorem State.lw_setLw (n l o : Nat) (v : Word) : (s.setLw n l o v).lw n l o = v := rdWord_wrWord s _ v

theorem State.lpe_pcResult (n l code word : Nat) : (s.pcResult n l code word).lpe = s.lpe := by simp [State.pcResult]

end

section
variable {s : State}

/-! ## Updates (R161) -/

/-- An update leaves its entry done, not confirmed, with its results. -/
theorem State.entryOf_loopUpdate (s : State) (n x w l : Nat) (bad : List Nat) : ∃ r, (s.loopUpdate n x w l bad).entryOf n x w =
    { s.entryOf n x w with done := true, confirmed := false, results := r } :=
  ⟨_, entryOf_setEntry _ n x w _⟩

theorem loopUpdate_runs {n : Fin 9} {x : Fin 512} {w l : Nat} (bad : List Nat) (hi : s.issuedEntry n x = some w) (ht : s.ctxTarget n x = 0)
    (hd : (s.entryOf n x w).done = false) (hu : s.inUse (.crew n) = true) (hf : s.engineFrozen n 1 = false) (hl : s.loopOfTask n x = some l) :
    Gives (.loopUpdate n x bad) s (fun t => t = s.loopUpdate n x w l bad ∧ (t.entryOf n x w).done = true ∧
      (t.entryOf n x w).confirmed = false ∧ (t.entryOf n x w).cseq = (s.entryOf n x w).cseq) := by
  have hrun : exec (.loopUpdate n x bad) s = .next (s.loopUpdate n x w l bad) := by
    simp only [exec, execLoopUpdate, hi, ht, hd, hu, hf, hl]
    rfl
  obtain ⟨r, hr⟩ := s.entryOf_loopUpdate n x w l bad
  exact ⟨_, hrun, rfl, by rw [hr], by rw [hr], by rw [hr]⟩

/-! ## Modes and fallback (R166, R170) -/

theorem loopModeRequest_eq {n : Fin 9} (l : Fin 128) (v : BitVec 3) (hd : s.crewDeaf n = false) :
    exec (.loopModeRequest n l v) s = .next (s.modeRequest n l v.toNat) := if_neg (by simp [hd])

theorem State.modeRequest_taken {n l v : Nat} (hu : s.lcfg n l 31 1 ≠ 0) (h : v < 3 ∨ (v = 3 ∧ s.lcfg n l 16 1 ≠ 0)) :
    s.modeRequest n l v = ((s.setFld (F.LPE_MODE_REQ n l) v).setLoopDyn n l { s.loopDyn n l with req := true }).pcResult n l 0 0 := by
  have hcode : ¬(4 ≤ v ∨ (v = 3 ∧ s.lcfg n l 16 1 = 0)) := by omega
  simp only [State.modeRequest, if_neg hu, if_neg hcode, if_true]

theorem State.modeRequest_refused {n l v : Nat} (hu : s.lcfg n l 31 1 ≠ 0) (h : 4 ≤ v ∨ (v = 3 ∧ s.lcfg n l 16 1 = 0)) :
    s.modeRequest n l v = ((s.pcResult n l 5 0).setFld (F.LPE_STATUS_REFUSED n) 1).log 0x0615 (0x1000 + n) (l + v * 256) := by
  simp only [State.modeRequest, if_neg hu, if_pos h]
  exact if_neg (by decide)

theorem loopModeRequest_spec {n : Fin 9} {l : Fin 128} {v : BitVec 3} (hd : s.crewDeaf n = false) (hu : s.lcfg n l 31 1 ≠ 0) :
    (v.toNat < 3 ∨ (v.toNat = 3 ∧ s.lcfg n l 16 1 ≠ 0) → Gives (.loopModeRequest n l v) s (fun t => t.fld (F.LPE_MODE_REQ n l) = v.toNat ∧
      (t.loopDyn n l).req = true ∧ t.fld (F.LPE_PC_RES_LOOP n) = l ∧ t.fld (F.LPE_PC_RES_REFUSE n) = 0 ∧ SameMem s t ∧
      RegsKept s t [Reg.LPE_MODE n l, Reg.LPE_PC_RES n])) ∧
    (4 ≤ v.toNat ∨ (v.toNat = 3 ∧ s.lcfg n l 16 1 = 0) → Gives (.loopModeRequest n l v) s (fun t =>
      t.fld (F.LPE_PC_RES_REFUSE n) = 5 ∧ t.flag (F.LPE_STATUS_REFUSED n) = true ∧ Logs s t 0x0615 (0x1000 + n) (l + v.toNat * 256) ∧
      SameMem s t ∧ RegsKept s t [Reg.LPE_PC_RES n, Reg.LPE_STATUS n, Reg.EVL_LOST])) := by
  have hv : v.toNat % 8 = v.toNat := Nat.mod_eq_of_lt v.isLt
  have hl : l.val % 128 = l := Nat.mod_eq_of_lt l.isLt
  refine ⟨fun h => ⟨_, (loopModeRequest_eq l v hd).trans (congrArg _ (State.modeRequest_taken hu h)), ?_⟩,
    fun h => ⟨_, (loopModeRequest_eq l v hd).trans (congrArg _ (State.modeRequest_refused hu h)), ?_⟩⟩
  · refine ⟨?_, ?_, ?_, ?_, ?_, ?_⟩
    · simp (disch := grind) [State.pcResult, hv]
    · rw [State.loopDyn_congr (State.lpe_pcResult _ _ _ _ _), State.loopDyn_setLoopDyn]
    · simp (disch := grind) [State.pcResult, hl]
    · simp (disch := grind) [State.pcResult]
    · simp [State.pcResult, SameMem]
    · simp [State.pcResult]
  · refine ⟨?_, ?_, logs_log _ _ _ (by simp [State.pcResult]), ?_, ?_⟩ <;> simp (disch := grind) [State.pcResult, SameMem]

theorem loopFbClr_spec {n : Fin 9} {l : Fin 128} (hd : s.crewDeaf n = false) :
    (bit (s.lw n l 0x90).toNat 5 = true → Gives (.loopFbClr n l) s (fun t => t.flag (F.LPE_MODE_FB_PEND n l) = true ∧ SameMem s t ∧
      RegsKept s t [Reg.LPE_MODE n l])) ∧
    (bit (s.lw n l 0x90).toNat 5 = false → exec (.loopFbClr n l) s = .next s) := by
  refine ⟨fun h => ⟨_, if_neg (by simp [hd, h]), ?_⟩, fun h => if_pos (by simp [h])⟩
  simp (disch := grind) [SameMem]

/-! ## Saturation feedback (R172) -/

theorem satfbChange_spec {m : Fin 8} {l : Fin 128} {n : Nat} (hi lo : Bool) (hn : s.physOf m = some n) :
    Gives (.satfbChange m l hi lo) s (fun t => bit (t.lw n l 0x90).toNat 3 = hi ∧ bit (t.lw n l 0x90).toNat 4 = lo ∧
      (∀ j < 32, j ≠ 3 → j ≠ 4 → bit (t.lw n l 0x90).toNat j = bit (s.lw n l 0x90).toNat j) ∧
      SameMemOutside s t (crewMem n + loopOff l 0x90) 4 ∧ RegsKept s t []) := by
  have hlt : putBit (putBit (s.lw n l 0x90).toNat 3 hi) 4 lo < 2 ^ 32 := putBit_lt _ (putBit_lt _ (BitVec.isLt _) (by decide)) (by decide)
  have hrun : exec (.satfbChange m l hi lo) s =
      .next (s.setLw n l 0x90 (BitVec.ofNat 32 (putBit (putBit (s.lw n l 0x90).toNat 3 hi) 4 lo))) := by
    simp only [exec, execSatfbChange, State.satfb, hn]
  refine ⟨_, hrun, ?_⟩
  simp only [State.lw_setLw, BitVec.toNat_ofNat, Nat.mod_eq_of_lt hlt, bit_putBit]
  refine ⟨by simp, by simp, fun j _ h3 h4 => by simp [h3, h4], fun b hb => State.rdByte_wrMem_other _ _ hb, by simp⟩

theorem satfbChange_unmapped {m : Fin 8} (l : Fin 128) (hi lo : Bool) (hn : s.physOf m = none) : exec (.satfbChange m l hi lo) s = .next s := by
  simp only [exec, execSatfbChange, State.satfb, hn]

/-! ## Parameter changes (R174) -/

/-- A refused commit: its loop, its code and its word, with the event of a refusal that is not an overflow. -/
theorem State.refusal_spec {n : Nat} (l code word : Nat) (hn : n < 9) :
    (((s.pcResult n l code word).setFld (F.LPE_STATUS_REFUSED n) 1).log 0x0610 (0x1000 + n) (l + code * 2 ^ 8 + word * 2 ^ 16)).fld
      (F.LPE_PC_RES_REFUSE n) = code % 256 ∧
    (((s.pcResult n l code word).setFld (F.LPE_STATUS_REFUSED n) 1).log 0x0610 (0x1000 + n) (l + code * 2 ^ 8 + word * 2 ^ 16)).fld
      (F.LPE_PC_RES_WORD n) = word % 16 ∧
    (((s.pcResult n l code word).setFld (F.LPE_STATUS_REFUSED n) 1).log 0x0610 (0x1000 + n) (l + code * 2 ^ 8 + word * 2 ^ 16)).flag
      (F.LPE_STATUS_REFUSED n) = true ∧
    (((s.pcResult n l code word).setFld (F.LPE_STATUS_REFUSED n) 1).log 0x0610 (0x1000 + n) (l + code * 2 ^ 8 + word * 2 ^ 16)).lpe = s.lpe ∧
    Logs s (((s.pcResult n l code word).setFld (F.LPE_STATUS_REFUSED n) 1).log 0x0610 (0x1000 + n) (l + code * 2 ^ 8 + word * 2 ^ 16))
      0x0610 (0x1000 + n) (l + code * 2 ^ 8 + word * 2 ^ 16) := by
  refine ⟨?_, ?_, ?_, ?_, logs_log _ _ _ (by simp [State.pcResult])⟩ <;> simp (disch := grind) [State.pcResult]

theorem State.paramCommit_unused {n l : Nat} (hl : l = s.fld (F.LPE_PC_LOOP_LOOP n)) (hu : s.lcfg n l 31 1 = 0) :
    s.paramCommit n = ((s.pcResult n l 3 0).setFld (F.LPE_STATUS_REFUSED n) 1).log 0x0610 (0x1000 + n) (l + 3 * 2 ^ 8 + 0 * 2 ^ 16) := by
  subst hl
  exact if_pos hu

theorem State.paramCommit_bounds {n l k : Nat} (hl : l = s.fld (F.LPE_PC_LOOP_LOOP n)) (hu : s.lcfg n l 31 1 ≠ 0)
    (hk : s.outOfBounds n l (s.stagedVals n) = some k) :
    s.paramCommit n = ((s.pcResult n l 1 k).setFld (F.LPE_STATUS_REFUSED n) 1).log 0x0610 (0x1000 + n) (l + 1 * 2 ^ 8 + k * 2 ^ 16) := by
  subst hl
  unfold State.paramCommit
  simp only [if_neg hu, hk]
  rfl

theorem State.paramCommit_unused_spec {n l : Nat} (hn : n < 9) (hl : l = s.fld (F.LPE_PC_LOOP_LOOP n)) (hu : s.lcfg n l 31 1 = 0) :
    (s.paramCommit n).fld (F.LPE_PC_RES_REFUSE n) = 3 ∧ (s.paramCommit n).flag (F.LPE_STATUS_REFUSED n) = true ∧
    (s.paramCommit n).lpe = s.lpe ∧ Logs s (s.paramCommit n) 0x0610 (0x1000 + n) (l + 3 * 2 ^ 8) := by
  obtain ⟨hc, -, hf, hlpe, hlog⟩ := State.refusal_spec (s := s) l 3 0 hn
  rw [State.paramCommit_unused hl hu]
  exact ⟨hc, hf, hlpe, hlog⟩

theorem State.paramCommit_bounds_spec {n l k : Nat} (hn : n < 9) (hl : l = s.fld (F.LPE_PC_LOOP_LOOP n)) (hu : s.lcfg n l 31 1 ≠ 0) (hk : k < 13)
    (ho : s.outOfBounds n l (s.stagedVals n) = some k) :
    (s.paramCommit n).fld (F.LPE_PC_RES_REFUSE n) = 1 ∧ (s.paramCommit n).fld (F.LPE_PC_RES_WORD n) = k ∧
    (s.paramCommit n).lpe = s.lpe ∧ Logs s (s.paramCommit n) 0x0610 (0x1000 + n) (l + 2 ^ 8 + k * 2 ^ 16) := by
  obtain ⟨hc, hw, -, hlpe, hlog⟩ := State.refusal_spec (s := s) l 1 k hn
  rw [Nat.one_mul] at hlog
  rw [State.paramCommit_bounds hl hu ho, Nat.one_mul]
  rw [Nat.one_mul] at hc hw hlpe
  exact ⟨hc, hw.trans (Nat.mod_eq_of_lt (by omega)), hlpe, hlog⟩

theorem State.paramClear_spec (s : State) {n : Nat} (hn : n < 9) : (s.paramClear n).num (Reg.LPE_PC_MASK n) = 0 ∧
    (∀ k < 13, (s.paramClear n).num (Reg.LPE_PC_VAL n k) = 0) ∧ SameMem s (s.paramClear n) ∧ (s.paramClear n).lpe = s.lpe := by
  unfold State.paramClear
  refine ⟨?_, fun k hk => ?_, ?_, ?_⟩
  · refine List.foldlRecOn (motive := fun t : State => t.num (Reg.LPE_PC_MASK n) = 0) _ _ (by simp) fun t h k hk => ?_
    have hk' := List.mem_range.mp hk
    simpa (disch := grind) using h
  · refine fold_est (m := k) (fun _ => True) (fun t : State => t.num (Reg.LPE_PC_VAL n k) = 0) (fun _ _ _ => trivial) (fun t _ => by simp)
      (fun t i _ h => ?_) (List.mem_range.mpr hk) trivial
    by_cases hi : i = k
    · subst hi
      simp
    · simpa (disch := grind) using h
  · exact SameMem.of_eq ((fold_field State.mem (by simp) _ _).trans (by simp))
  · exact (fold_field State.lpe (by simp) _ _).trans (by simp)

/-! ## Repetitive tables (R188, R189) -/

theorem repAction_spec {n : Fin 9} {l : Fin 128} {a : BitVec 2} (hd : s.crewDeaf n = false) :
    (s.lcfg n l 11 1 ≠ 0 → Gives (.repAction n l a) s (fun t => (t.loopDyn n l).rep = some a.toNat ∧ SameMem s t ∧ RegsKept s t [])) ∧
    (s.lcfg n l 11 1 = 0 → exec (.repAction n l a) s = .next s) := by
  refine ⟨fun h => ⟨_, if_neg (by simp [hd, h]), ?_, fun _ => rfl, by simp⟩, fun h => if_pos (by simp [h])⟩
  exact congrArg LoopDyn.rep (State.loopDyn_setLoopDyn s n l { s.loopDyn n l with rep := some a.toNat })

@[simp] theorem State.quiet_clearTable (s : State) (n l : Nat) : Quiet (s.clearTable n l) s :=
  .of_eq (fun a => fold_field (State.rd · a) (fun _ _ => rd_wrWord ..) _ s) (fold_field State.evl (fun _ _ => evl_wrMem ..) _ s)
    (fold_field State.time (fun _ _ => time_wrMem ..) _ s)

theorem repTableClearDone_clears {n : Fin 9} {l : Fin 128} (h : repPend (s.loopCtx n l) = true) : Gives (.repTableClearDone n l) s (fun t =>
    bitsOf (t.lw n l 0xB4) 30 1 = 0 ∧ RegsKept s t [Reg.EVL_LOST]) := by
  refine ⟨_, if_pos h, ?_, by simp⟩
  have hlog (u : State) (c x d : Nat) : (u.log c x d).lw n l 0xB4 = u.lw n l 0xB4 := by
    simp [State.lw, State.rdWord, rdMem_congr (mem_log u c x d)]
  rw [hlog, State.lw_setLw, bitsOf_setBits_self _ _ (by decide), Nat.zero_mod]

/-- Words cleared one after the other at addresses that are equal or apart all read 0. -/
theorem rdWord_clear {addr : Nat → Nat} (hsep : ∀ i k, addr i = addr k ∨ addr i + 4 ≤ addr k ∨ addr k + 4 ≤ addr i) {l : List Nat} {j : Nat}
    (hj : j ∈ l) : (l.foldl (fun (t : State) i => t.wrWord (addr i) 0) s).rdWord (addr j) = 0 := by
  refine fold_est (m := j) (fun _ => True) (fun t : State => t.rdWord (addr j) = 0) (fun _ _ _ => trivial)
    (fun t _ => ?_) (fun t i _ h => ?_) hj trivial
  · exact rdWord_wrWord t _ 0
  · obtain heq | hap := hsep i j
    · exact (congrArg (State.rdWord _) heq.symm).trans (rdWord_wrWord t _ 0)
    · exact (rdWord_wrWord_other t 0 (by omega)).trans h

theorem sampleOff_apart (base : Nat) (c : List Word) (i k : Nat) : base + sampleOff c i = base + sampleOff c k ∨
    base + sampleOff c i + 4 ≤ base + sampleOff c k ∨ base + sampleOff c k + 4 ≤ base + sampleOff c i := by
  unfold sampleOff
  omega

/-- Every sample of a cleared table reads 0. -/
theorem State.clearTable_sample {n l j : Nat} (hj : j < repP (s.loopCtx n l)) :
    (s.clearTable n l).rdWord (crewMem n + sampleOff (s.loopCtx n l) j) = 0 :=
  rdWord_clear (addr := fun i => crewMem n + sampleOff (s.loopCtx n l) i) (sampleOff_apart _ _) (List.mem_range.mpr hj)

end

/-- Settles O29: each command by its own lemma. -/
theorem loopCommands : Obligations.LoopCommands := by
  unfold Obligations.LoopCommands
  exact ⟨fun _ _ _ _ _ bad => loopUpdate_runs bad, fun _ _ _ _ => loopModeRequest_spec, fun _ _ _ => loopFbClr_spec,
    fun _ _ _ hi lo _ => satfbChange_spec hi lo, fun _ _ l hi lo => satfbChange_unmapped l hi lo,
    fun _ _ hd => ⟨(if_neg (by simp [hd])).trans (if_neg (by simp)), (if_neg (by simp [hd])).trans (if_pos rfl)⟩,
    fun _ _ _ => State.paramCommit_unused_spec, fun _ _ _ _ => State.paramCommit_bounds_spec,
    fun s n hd => ⟨_, if_neg (by simp [hd]), s.paramClear_spec n.isLt⟩, fun _ _ _ _ => repAction_spec, fun _ _ _ => repTableClearDone_clears,
    fun _ _ _ _ => State.clearTable_sample⟩

end Sys2Proof.Machine


/-! PROOFS. Conversion entries, pair checks and the reference monitor (R132 to R150). -/

namespace Sys2Proof.Machine

section
variable (s : State)

@[simp] theorem State.convOf_setConv (k : Nat) (c : Conv) : (s.setConv k c).convOf k = c := by simp [State.convOf, State.setConv, Tab.get, Tab.find_put_self]
@[simp] theorem State.pairOf_setPair (p : Nat) (x : Pair) : (s.setPair p x).pairOf p = x := by simp [State.pairOf, State.setPair, Tab.get, Tab.find_put_self]

theorem State.convOf_congr {s t : State} (h : t.convs = s.convs) (k : Nat) : t.convOf k = s.convOf k :=
  congrArg (fun c => Tab.get (fun _ => Conv.init) c k) h
theorem State.pairOf_congr {s t : State} (h : t.pairs = s.pairs) (p : Nat) : t.pairOf p = s.pairOf p :=
  congrArg (fun c => Tab.get (fun _ => Pair.init) c p) h
theorem State.convEntry_congr {s t : State} (h : t.img = s.img) (k e : Nat) : t.convEntry k e = s.convEntry k e :=
  congrArg (fun i => (Tab.get (fun _ => []) (ImgTables.conv i) k).getD e ConvEntry.init) h

@[simp] theorem State.wire_emit (e : Emit) : (s.emit e).wire = s.wire ++ [e] := rfl

/-- The entries that wait at any converter are those of before when the converter replaced keeps its own. -/
theorem State.waiting_setConv {k : Nat} {c : Conv} (h : c.waiting = (s.convOf k).waiting) (j : Nat) :
    ((s.setConv k c).convOf j).waiting = (s.convOf j).waiting := by
  by_cases hj : j = k
  · rw [hj, State.convOf_setConv, h]
  · simp [State.convOf, State.setConv, Tab.get, Tab.find_put_other _ _ hj]

/-! ## What sending a token leaves unchanged (R129) -/

@[simp] theorem State.rd_convSend (k : Nat) (t : Token) (a : Nat) : (s.convSend k t).rd a = s.rd a := by
  unfold State.convSend
  dsimp only
  split <;> split <;> simp
@[simp] theorem State.evl_convSend (k : Nat) (t : Token) : (s.convSend k t).evl = s.evl := by
  unfold State.convSend
  dsimp only
  split <;> split <;> simp
@[simp] theorem State.time_convSend (k : Nat) (t : Token) : (s.convSend k t).time = s.time := by
  unfold State.convSend
  dsimp only
  split <;> split <;> simp
@[simp] theorem State.quiet_convSend (k : Nat) (t : Token) : Quiet (s.convSend k t) s := .of_eq (s.rd_convSend k t) (s.evl_convSend k t) (s.time_convSend k t)
@[simp] theorem State.pairs_convSend (k : Nat) (t : Token) : (s.convSend k t).pairs = s.pairs := by
  unfold State.convSend
  dsimp only
  split <;> split <;> simp
@[simp] theorem State.rdByte_convSend (k : Nat) (t : Token) (b : Nat) : (s.convSend k t).rdByte b = s.rdByte b := by
  unfold State.convSend
  dsimp only
  split <;> split <;> simp

/-- A token of a SIG that RECORD does not select leaves on the converter's port only. -/
theorem State.wire_convSend {k : Nat} {t : Token} (h : s.recSelects t.sig.toNat = false) : (s.convSend k t).wire = s.wire ++ [.tok (0x100 + k) t] := by
  have hrec (u : State) (hu : u.rce = s.rce) : u.recSelects t.sig.toNat = false := by simpa [State.recSelects, hu] using h
  unfold State.convSend
  dsimp only
  split
  · rw [if_neg (by rw [hrec _ (by simp)]; decide)]
    simp
  · rw [if_neg (by rw [hrec _ (by simp)]; decide)]
    simp

/-- The entries that wait at a converter wait on while a token is sent. -/
theorem State.waiting_convSend (k j : Nat) (t : Token) : ((s.convSend k t).convOf j).waiting = (s.convOf j).waiting := by
  have hset (c : List (Nat × Token)) := (s.emit (.tok (0x100 + k) t)).waiting_setConv (k := k) (c := { s.convOf k with fly := c }) rfl j
  unfold State.convSend
  dsimp only
  split <;> split
  · exact hset _
  · exact hset _
  · rfl
  · rfl

@[simp] theorem State.quiet_sendAchk (p : Nat) (v : Word) (st : BitVec 4) (q : Nat) : Quiet (s.sendAchk p v st q) s := s.quiet_convSend _ _
@[simp] theorem State.pairs_sendAchk (p : Nat) (v : Word) (st : BitVec 4) (q : Nat) : (s.sendAchk p v st q).pairs = s.pairs := s.pairs_convSend _ _
@[simp] theorem State.rd_sendAchk (p : Nat) (v : Word) (st : BitVec 4) (q a : Nat) : (s.sendAchk p v st q).rd a = s.rd a := s.rd_convSend _ _ _
@[simp] theorem State.evl_sendAchk (p : Nat) (v : Word) (st : BitVec 4) (q : Nat) : (s.sendAchk p v st q).evl = s.evl := s.evl_convSend _ _
@[simp] theorem State.rdByte_sendAchk (p : Nat) (v : Word) (st : BitVec 4) (q b : Nat) : (s.sendAchk p v st q).rdByte b = s.rdByte b :=
  s.rdByte_convSend _ _ _

end

/-! ## Starting an entry (R132, R134) -/

section
variable {s : State}

/-- An input entry starts on an idle converter: no diagnostic request and no level of a test goes with it. -/
theorem State.convStart_input {k : Nat} {w : ConvDue} (h : (s.convEntry k w.entry).kind = 0) :
    ∃ v b, s.convStart k w = ((s.wr (Reg.AFE_ADC_CHSEL k) v).setFld (F.AFE_ADC_STATUS_BUSY k) 1).setConv k { s.convOf k with
      phase := .settling, entry := w.entry, cseq := w.cseq, reach := w.start, refBad := false, burnout := b, diag := false, level := none } := by
  have hlvl : s.testLevel k 0 = none := by
    unfold State.testLevel
    split <;> rfl
  have hconv (v : Word) : ((s.wr (Reg.AFE_ADC_CHSEL k) v).setFld (F.AFE_ADC_STATUS_BUSY k) 1).convOf k = s.convOf k := State.convOf_congr (by simp) k
  unfold State.convStart
  simp only [h, hlvl, hconv, Nat.reduceBEq, Bool.false_and, Bool.false_eq_true, if_false]
  exact ⟨_, _, rfl⟩

/-- What the start position of an input entry brings: a start, a place before the entry in progress, or a place among those that wait. -/
theorem State.convReach_input {k : Nat} {w : ConvDue} (h : (s.convEntry k w.entry).kind = 0) : s.convReach k w =
    if (s.convOf k).phase = .idle then s.convStart k w
    else if (s.convOf k).reach = w.start ∧ w.entry < (s.convOf k).entry then (s.convYield k).convStart k w
    else (if (s.convOf k).waiting.any (fun v => v.entry == w.entry) then s.convLate k w.entry else s).setConv k
      { s.convOf k with waiting := waitInsert w ((s.convOf k).waiting.filter (fun v => v.entry != w.entry)) } := by
  have hdown : s.achkDown k w.entry w.cseq = s := if_neg (by simp [h])
  have hskip : s.checkSkips k w.entry = false := by simp [State.checkSkips, h]
  unfold State.convReach
  simp only [hdown, hskip, Bool.false_eq_true, if_false]

@[simp] theorem State.mem_convLate (s : State) (k e : Nat) : (s.convLate k e).mem = s.mem := by
  unfold State.convLate
  dsimp only
  split <;> simp

theorem State.convLate_spec (s : State) (k e : Nat) (hk : k < 20) :
    (s.convLate k e).num (Reg.AFE_ADC_LATE k) = satAdd 0xFFFFFFFF (s.num (Reg.AFE_ADC_LATE k)) 1 ∧
    RegsKept s (s.convLate k e) [Reg.AFE_ADC_LATE k, Reg.EVL_LOST] := by
  unfold State.convLate
  dsimp only
  split <;> constructor <;> simp (disch := grind)

theorem convEntryStart_spec {k : Fin 20} {e : Fin 1024} {q : Word} {d : ConvDue} {m : Nat} (hm : s.streamDest k = some m)
    (hd : (s.convOf k).due.find? (fun d => d.entry == e.val && d.cseq == q.toNat) = some d) (hk : (s.convEntry k e).kind = 0) :
    (reached (s.tabCourse m) d.start = false → exec (.convEntryStart k e q) s = .next s) ∧
    (reached (s.tabCourse m) d.start = true → (s.convOf k).phase = .idle → (s.convEntry k e).ch < 8 → Gives (.convEntryStart k e q) s (fun t =>
      (t.convOf k).phase = .settling ∧ (t.convOf k).entry = e ∧ (t.convOf k).cseq = q.toNat ∧ (t.convOf k).reach = s.time.cycle ∧
      (t.convOf k).due = (s.convOf k).due.erase d ∧ t.flag (F.AFE_ADC_STATUS_BUSY k) = true ∧ SameMem s t ∧
      RegsKept s t [Reg.AFE_ADC_CHSEL k, Reg.AFE_ADC_STATUS k])) ∧
    (reached (s.tabCourse m) d.start = true → (s.convOf k).phase ≠ .idle → (s.convOf k).reach ≠ s.time.cycle ∨ (s.convOf k).entry ≤ e.val →
      ∀ c, c = { s.convOf k with due := (s.convOf k).due.erase d, waiting := waitInsert ⟨e, q.toNat, s.time.cycle⟩ ((s.convOf k).waiting.filter (fun w => w.entry != e.val)) } →
      ((s.convOf k).waiting.any (fun w => w.entry == e.val) = false → Gives (.convEntryStart k e q) s (fun t => t.convOf k = c ∧ SameMem s t ∧
        RegsKept s t [])) ∧
      ((s.convOf k).waiting.any (fun w => w.entry == e.val) = true → Gives (.convEntryStart k e q) s (fun t => t.convOf k = c ∧
        t.num (Reg.AFE_ADC_LATE k) = satAdd 0xFFFFFFFF (s.num (Reg.AFE_ADC_LATE k)) 1 ∧ SameMem s t ∧
        RegsKept s t [Reg.AFE_ADC_LATE k, Reg.EVL_LOST]))) := by
  obtain ⟨hde, hdq⟩ : d.entry = e ∧ d.cseq = q.toNat := by simpa using List.find?_some hd
  let u := s.setConv k { s.convOf k with due := (s.convOf k).due.erase d }
  have hrun (hr : reached (s.tabCourse m) d.start = true) :
      exec (.convEntryStart k e q) s = .next (u.convReach k ⟨e, q.toNat, s.time.cycle⟩) := by
    simp only [exec, execConvEntryStart, hd, hm, hr, if_true, hde, hdq]
    rfl
  have hu : u.convOf k = { s.convOf k with due := (s.convOf k).due.erase d } := s.convOf_setConv k _
  have hku : (u.convEntry k e).kind = 0 := hk
  refine ⟨fun hr => ?_, fun hr hi _ => ?_, fun hr hi hb c hc => ⟨fun hw => ?_, fun hw => ?_⟩⟩
  · simp only [exec, execConvEntryStart, hd, hm, hr, Bool.false_eq_true, if_false]
  · obtain ⟨v, b, hstart⟩ := State.convStart_input (w := ⟨e, q.toNat, s.time.cycle⟩) hku
    have hreach : u.convReach k ⟨e, q.toNat, s.time.cycle⟩ = _ := (State.convReach_input hku).trans ((if_pos (by rw [hu]; exact hi)).trans hstart)
    refine ⟨_, (hrun hr).trans (congrArg _ hreach), ?_⟩
    rw [hu]
    refine ⟨?_, ?_, ?_, ?_, ?_, ?_, ?_, ?_⟩ <;> simp (disch := grind) [SameMem, u]
  · have hreach := (State.convReach_input (w := ⟨e, q.toNat, s.time.cycle⟩) hku).trans ((if_neg (by rw [hu]; exact hi)).trans
      ((if_neg (by rw [hu]; dsimp only; omega)).trans (congrArg (State.setConv · k _) (if_neg (by rw [hu]; simp [hw])))))
    refine ⟨_, (hrun hr).trans (congrArg _ hreach), ?_⟩
    rw [hu, hc]
    exact ⟨State.convOf_setConv _ _ _, fun _ => rfl, fun _ _ => rfl⟩
  · have hreach := (State.convReach_input (w := ⟨e, q.toNat, s.time.cycle⟩) hku).trans ((if_neg (by rw [hu]; exact hi)).trans
      ((if_neg (by rw [hu]; dsimp only; omega)).trans (congrArg (State.setConv · k _) (if_pos (by rw [hu]; exact hw)))))
    obtain ⟨hnum, hregs⟩ := u.convLate_spec k e k.isLt
    refine ⟨_, (hrun hr).trans (congrArg _ hreach), ?_⟩
    rw [hu, hc]
    refine ⟨State.convOf_setConv _ _ _, by simpa [u] using hnum, .of_eq (by simp [u]), fun a ha => hregs a ha⟩

/-! ## Settling, conversion and end (R134, R136) -/

theorem convSettleEnd_spec {k : Fin 20} : ((s.convOf k).phase = .settling → Gives (.convSettleEnd k) s (fun t =>
      t.convOf k = { s.convOf k with phase := .converting } ∧ SameMem s t ∧ RegsKept s t [])) ∧
    ((s.convOf k).phase ≠ .settling → exec (.convSettleEnd k) s = .next s) := by
  refine ⟨fun h => ⟨_, by simp only [exec, execConvSettleEnd, h], s.convOf_setConv k _, fun _ => rfl, by simp⟩, fun h => ?_⟩
  simp only [exec, execConvSettleEnd]

theorem convEnd_runs {k : Fin 20} (codes : List Int) (h : (s.convOf k).phase = .converting) :
    exec (.convEnd k codes) s = .next (s.convFinish k codes false) ∧
    exec (.convTimeout k) s = .next ((s.convTransient k 1).convFinish k [] true) := by
  simp only [exec, execConvEnd, execConvTimeout, h, and_self]

/-- A check entry ends without a change to the entries that wait. -/
theorem State.waiting_checkEnd (s : State) (k e : Nat) (codes : List Int) (bad : Bool) :
    ((s.checkEnd k e codes bad).convOf k).waiting = (s.convOf k).waiting := by
  have hovr (u : State) (m : Sample) : (u.ovrCount k m).convs = u.convs := by
    unfold State.ovrCount
    split <;> simp
  have hcal (u : State) (i r : Nat) (x : Word) (st : BitVec 4) (o : Bool) : (u.calSample i r x st o).convs = u.convs := by
    unfold State.calSample
    repeat' split
    all_goals simp
  unfold State.checkEnd
  dsimp only
  split
  · rw [State.testMeasure, State.convOf_setConv, State.convOf_congr (hovr _ _)]
  · split
    · unfold State.achkDown
      split
      · rw [State.sendAchk, State.waiting_convSend, State.convOf_congr ((hcal ..).trans (hovr ..))]
      · rw [State.convOf_congr ((hcal ..).trans (hovr ..))]
    · rw [State.convOf_congr (State.setPair_convs _ _ _), State.convOf_congr ((hcal ..).trans (hovr ..))]

/-- A converter at which nothing waits is idle once it is freed. -/
theorem State.convFree_idle {k : Nat} (h : (s.convOf k).waiting = []) : ((s.convFree k).convOf k).phase = .idle ∧
    (s.convFree k).flag (F.AFE_ADC_STATUS_BUSY k) = false ∧ (s.convFree k).flag (F.AFE_ADC_CHSEL_ACTIVE k) = false := by
  have hc : ((s.setFld (F.AFE_ADC_CHSEL_ACTIVE k) 0).setFld (F.AFE_ADC_STATUS_BUSY k) 0).convOf k = s.convOf k :=
    State.convOf_congr (by simp) k
  unfold State.convFree
  simp only [hc, h, State.convNext]
  refine ⟨?_, ?_, ?_⟩ <;> simp (disch := grind)

theorem State.convFinish_check {k : Nat} (codes : List Int) (bad : Bool) (he : (s.convEntry k (s.convOf k).entry).kind = 1)
    (hw : (s.convOf k).waiting = []) : ((s.convFinish k codes bad).convOf k).phase = .idle ∧
    (s.convFinish k codes bad).flag (F.AFE_ADC_STATUS_BUSY k) = false ∧ (s.convFinish k codes bad).flag (F.AFE_ADC_CHSEL_ACTIVE k) = false := by
  have hf : s.convFinish k codes bad = (s.checkEnd k (s.convOf k).entry codes bad).convFree k := by
    unfold State.convFinish
    simp only [he]
  rw [hf]
  exact State.convFree_idle ((s.waiting_checkEnd k _ codes bad).trans hw)

/-! ## Tokens at the ACQ port (R130, R140) -/

theorem acqToken_spec {n : Fin 9} {k : Fin 20} {tok : Token} : (s.flying n k tok = none → exec (.acqToken n k tok) s = .next s) ∧
    (∀ f, s.flying n k tok = some f → tok.ok = true → Gives (.acqToken n k tok) s (fun t =>
      t.num (Reg.ACQ_TOK n) = (s.num (Reg.ACQ_TOK n) + 1) % 2 ^ 32 ∧ (t.convOf k).fly = (s.convOf k).fly.erase f ∧
      t.wire = s.wire ++ [.tok (0x200 + n) tok] ∧ SameMem s t ∧ RegsKept s t [Reg.ACQ_TOK n])) ∧
    (∀ f u, s.flying n k tok = some f → tok.ok = false →
      u = ((s.setConv k { s.convOf k with fly := (s.convOf k).fly.erase f }).mismatch (0x100 + k) tok).count (Reg.ACQ_TAGERR n) 1 →
      exec (.acqToken n k tok) s = .next ((u.setNum (Reg.ACQ_TOK n) (u.num (Reg.ACQ_TOK n) + 1)).emit (.tok (0x200 + n) tok))) := by
  refine ⟨fun h => by simp only [exec, execAcqToken, h], fun f h ho => ⟨_, by simp only [exec, execAcqToken, h, ho, if_true]; rfl, ?_⟩,
    fun f u h ho hu => by simp only [exec, execAcqToken, h, ho, Bool.false_eq_true, if_false, hu]⟩
  refine ⟨?_, ?_, ?_, ?_, ?_⟩
  · simp
  · rw [State.convOf_congr (s := s.setConv k { s.convOf k with fly := (s.convOf k).fly.erase f }) (by simp [State.emit]), State.convOf_setConv]
  · simp
  · simp [SameMem]
  · simp

/-! ## Pair checks (R141 to R145) -/

/-- With no level of the test DAC's own test to measure, a pair's samples are taken by its state. -/
theorem State.dacTest_idle {p : Nat} (h3 : s.pairState p ≠ 3) :
    (s.pairOf p).dacTest.filter (fun t => decide (t.1 < 3) && s.health (.tdac p) == .testing && s.pairState p == 3) = none := by
  simp [h3]

theorem State.pairCheck_calibrating {p : Nat} {a b : CheckSmp} (h : s.pairState p = 4) : s.pairCheck p a b =
    s.sendAchk p (F32.mul (F32.add a.value b.value) 0x3F000000) (if a.st == 1 || b.st == 1 then 1 else 4) a.cseq := by
  unfold State.pairCheck
  rw [State.dacTest_idle (h.trans_ne (by decide))]
  simp only [h]

theorem State.pairCheck_arbitrating {p : Nat} {a b : CheckSmp} (h : s.pairState p = 1) : s.pairCheck p a b = s.arbCheck p a b := by
  unfold State.pairCheck
  rw [State.dacTest_idle (h.trans_ne (by decide))]
  simp only [h]

theorem State.pairCheck_checking {p : Nat} {a b : CheckSmp} (h : s.pairState p = 0) :
    s.pairCheck p a b = s.compareCheck p a b (F32.mul (F32.add a.value b.value) 0x3F000000) := by
  unfold State.pairCheck
  rw [State.dacTest_idle (h.trans_ne (by decide))]
  simp only [h]

theorem pairCheck_paired {p : Fin 8} {a b : CheckSmp} (ha : (s.pairOf p).smpA = some a) (hb : (s.pairOf p).smpB = some b) (hq : a.cseq = b.cseq) :
    exec (.pairCheck p) s = .next ((s.setPair p { s.pairOf p with smpA := none, smpB := none }).pairCheck p a b) := by
  simp only [exec, execPairCheck, ha, hb, hq, if_true]

theorem pairCheck_apart {p : Fin 8} {a b : CheckSmp} (ha : (s.pairOf p).smpA = some a) (hb : (s.pairOf p).smpB = some b) (hq : a.cseq ≠ b.cseq) :
    (seqBefore a.cseq b.cseq = true → exec (.pairCheck p) s = .next (s.setPair p { s.pairOf p with smpA := none })) ∧
    (seqBefore a.cseq b.cseq = false → exec (.pairCheck p) s = .next (s.setPair p { s.pairOf p with smpB := none })) := by
  constructor <;> intro h <;> simp only [exec, execPairCheck, ha, hb, if_neg hq, h, if_true, Bool.false_eq_true, if_false]

/-- A check within the tolerance clears the run of mismatches and sends the mean. -/
theorem State.compareCheck_within {p : Nat} {a b : CheckSmp} {mean : Word} (ha : a.st ≠ 1) (hb : b.st ≠ 1)
    (ht : (s.wr (Reg.AFE_PAIR_DIFF p) (F32.sub a.x b.x)).inTol p (F32.sub a.x b.x) = true) : s.compareCheck p a b mean =
    ((s.wr (Reg.AFE_PAIR_DIFF p) (F32.sub a.x b.x)).setFld (F.AFE_PAIR_STATUS_MISMATCH p) 0).sendAchk p mean 0 a.cseq :=
  (if_neg (by simp only [beq_iff_eq, Bool.or_eq_true, not_or]; exact ⟨ha, hb⟩)).trans (if_pos ht)

/-- The state once a check outside the tolerance is counted, logged and answered. -/
def State.mismatched (s : State) (p : Nat) (d mean : Word) (cseq : Nat) : State :=
  (((s.wr (Reg.AFE_PAIR_DIFF p) d).countFld (F.AFE_PAIR_STATUS_MISMATCH p) 1).log 0x0511 (0x3000 + 2 * p) (microvolts d)).sendAchk p mean 1 cseq

theorem State.compareCheck_outside {p : Nat} {a b : CheckSmp} {mean : Word} (ha : a.st ≠ 1) (hb : b.st ≠ 1)
    (ht : (s.wr (Reg.AFE_PAIR_DIFF p) (F32.sub a.x b.x)).inTol p (F32.sub a.x b.x) = false) : s.compareCheck p a b mean =
    if (s.mismatched p (F32.sub a.x b.x) mean a.cseq).fld (F.AFE_PAIR_STATUS_MISMATCH p) <
      (s.mismatched p (F32.sub a.x b.x) mean a.cseq).fld (F.AFE_PAIR_CFG_PERSIST p) then s.mismatched p (F32.sub a.x b.x) mean a.cseq
    else if (s.mismatched p (F32.sub a.x b.x) mean a.cseq).pairState p = 3 then
      ((s.mismatched p (F32.sub a.x b.x) mean a.cseq).convFatal (2 * p) 7).convFatal (2 * p + 1) 7
    else (((s.mismatched p (F32.sub a.x b.x) mean a.cseq).setFld (F.AFE_PAIR_STATUS_STATE p) 1).setPair p
      { (s.mismatched p (F32.sub a.x b.x) mean a.cseq).pairOf p with arb := [], driving := some 0 }).log 0x0512 (0x3000 + 2 * p)
        ((s.mismatched p (F32.sub a.x b.x) mean a.cseq).fld (F.AFE_PAIR_CFG_PERSIST p)) :=
  (if_neg (by simp only [beq_iff_eq, Bool.or_eq_true, not_or]; exact ⟨ha, hb⟩)).trans (if_neg (by simp [ht]))

theorem State.mismatched_spec {p : Nat} (d mean : Word) (q : Nat) (hp : p < 8) :
    (s.mismatched p d mean q).rd (Reg.AFE_PAIR_DIFF p) = d ∧
    (s.mismatched p d mean q).fld (F.AFE_PAIR_STATUS_MISMATCH p) = min 15 (s.fld (F.AFE_PAIR_STATUS_MISMATCH p) + 1) ∧
    (s.mismatched p d mean q).fld (F.AFE_PAIR_CFG_PERSIST p) = s.fld (F.AFE_PAIR_CFG_PERSIST p) ∧
    (s.mismatched p d mean q).pairState p = s.pairState p ∧ Logs s (s.mismatched p d mean q) 0x0511 (0x3000 + 2 * p) (microvolts d) ∧
    (s.mismatched p d mean q).evl.queue.length ≤ s.evl.queue.length + 15 ∧ SameMem s (s.mismatched p d mean q) ∧
    RegsKept s (s.mismatched p d mean q) [Reg.AFE_PAIR_DIFF p, Reg.AFE_PAIR_STATUS p, Reg.EVL_LOST] := by
  have hle : min 15 (s.fld (F.AFE_PAIR_STATUS_MISMATCH p) + 1) % 16 = min 15 (s.fld (F.AFE_PAIR_STATUS_MISMATCH p) + 1) := by omega
  unfold State.mismatched
  refine ⟨?_, ?_, ?_, ?_, ?_, ?_, ?_, ?_⟩
  · simp (disch := grind)
  · simp (disch := grind) [satAdd, hle]
  · simp (disch := grind)
  · simp (disch := grind) [State.pairState]
  · simpa using logs_log _ _ _ (by simp)
  · rw [State.evl_sendAchk]
    exact (log_length _ _ _ _).trans (by simp)
  · simp (disch := grind) [SameMem]
  · simp (disch := grind)

theorem State.inTol_congr {s t : State} {p : Nat} (h : t.fld (F.AFE_PAIR_CFG_TOL_UV p) = s.fld (F.AFE_PAIR_CFG_TOL_UV p)) (v : Word) :
    t.inTol p v = s.inTol p v := by
  unfold State.inTol
  rw [h]

/-- The SIG of a pair's check token. -/
theorem achk_sig (p : Fin 8) (v : Word) (st : BitVec 4) (q : Nat) : (mkToken v (BitVec.ofNat 12 (0x80 + p)) st q).sig.toNat = 0x80 + p :=
  Nat.mod_eq_of_lt (by omega)

/-- The check token of a pair whose SIG RECORD does not select. -/
theorem State.wire_sendAchk (p : Fin 8) (v : Word) (q : Nat) {st : BitVec 4} (hst : st ≠ 1) (h : s.recSelects (0x80 + p) = false) :
    (s.sendAchk p v st q).wire = s.wire ++ [.tok (0x100 + 2 * p) (mkToken v (BitVec.ofNat 12 (0x80 + p)) st q)] := by
  rw [State.sendAchk, if_neg hst]
  exact s.wire_convSend (by rw [achk_sig]; exact h)

theorem pairCheck_checking_spec {p : Fin 8} {a b : CheckSmp} {d mean : Word} (ha : (s.pairOf p).smpA = some a) (hb : (s.pairOf p).smpB = some b)
    (hq : a.cseq = b.cseq) (hsa : a.st ≠ 1) (hsb : b.st ≠ 1) (hp : s.pairState p = 0) (hd : d = F32.sub a.x b.x)
    (hm : mean = F32.mul (F32.add a.value b.value) 0x3F000000) :
    (s.inTol p d = true → s.recSelects (0x80 + p) = false → Gives (.pairCheck p) s (fun t => t.rd (Reg.AFE_PAIR_DIFF p) = d ∧
      t.fld (F.AFE_PAIR_STATUS_MISMATCH p) = 0 ∧
      t.wire = s.wire ++ [.tok (0x100 + 2 * p) (mkToken mean (BitVec.ofNat 12 (0x80 + p)) 0 a.cseq)] ∧
      (t.pairOf p).smpA = none ∧ (t.pairOf p).smpB = none ∧ SameMem s t ∧
      RegsKept s t [Reg.AFE_PAIR_DIFF p, Reg.AFE_PAIR_STATUS p])) ∧
    (s.inTol p d = false → s.fld (F.AFE_PAIR_STATUS_MISMATCH p) + 1 < s.fld (F.AFE_PAIR_CFG_PERSIST p) → Gives (.pairCheck p) s (fun t =>
      t.rd (Reg.AFE_PAIR_DIFF p) = d ∧ t.fld (F.AFE_PAIR_STATUS_MISMATCH p) = s.fld (F.AFE_PAIR_STATUS_MISMATCH p) + 1 ∧
      Logs s t 0x0511 (0x3000 + 2 * p) (microvolts d) ∧ SameMem s t ∧
      RegsKept s t [Reg.AFE_PAIR_DIFF p, Reg.AFE_PAIR_STATUS p, Reg.EVL_LOST])) ∧
    (s.inTol p d = false → s.fld (F.AFE_PAIR_CFG_PERSIST p) ≤ s.fld (F.AFE_PAIR_STATUS_MISMATCH p) + 1 →
      Gives (.pairCheck p) s (fun t => t.pairState p = 1 ∧ (t.pairOf p).arb = [] ∧ (t.pairOf p).driving = some 0 ∧
        Logs s t 0x0512 (0x3000 + 2 * p) (s.fld (F.AFE_PAIR_CFG_PERSIST p)) ∧ SameMem s t ∧
        RegsKept s t [Reg.AFE_PAIR_DIFF p, Reg.AFE_PAIR_STATUS p, Reg.EVL_LOST])) := by
  subst hd hm
  let u := s.setPair p { s.pairOf p with smpA := none, smpB := none }
  have hpers : s.fld (F.AFE_PAIR_CFG_PERSIST p) < 16 := bitsOf_lt _ _ _
  have htol : (u.wr (Reg.AFE_PAIR_DIFF p) (F32.sub a.x b.x)).inTol p (F32.sub a.x b.x) = s.inTol p (F32.sub a.x b.x) :=
    State.inTol_congr (by simp (disch := grind) [u]) _
  have hrun : exec (.pairCheck p) s = .next (u.compareCheck p a b (F32.mul (F32.add a.value b.value) 0x3F000000)) :=
    (pairCheck_paired ha hb hq).trans (congrArg _ (State.pairCheck_checking hp))
  obtain ⟨hdiff, hmis, hper, hst, hlog, hlen, hmem, hregs⟩ := u.mismatched_spec (F32.sub a.x b.x) (F32.mul (F32.add a.value b.value) 0x3F000000) a.cseq p.isLt
  refine ⟨fun ht hsel => ⟨_, hrun.trans (congrArg _ (State.compareCheck_within hsa hsb (htol.trans ht))), ?_⟩, fun ht hlt => ?_, fun ht hle => ?_⟩
  · refine ⟨?_, ?_, ?_, ?_, ?_, ?_, ?_⟩
    · simp (disch := grind)
    · simp (disch := grind)
    · rw [State.wire_sendAchk (st := 0) p _ _ (by decide) (by exact hsel)]
      simp [u]
    · rw [State.pairOf_congr (s := u) (by simp), State.pairOf_setPair]
    · rw [State.pairOf_congr (s := u) (by simp), State.pairOf_setPair]
    · simp [SameMem, u]
    · simp [u]
  · have hlt' : ¬15 < s.fld (F.AFE_PAIR_STATUS_MISMATCH p) + 1 := by omega
    rw [Nat.min_eq_right (by exact Nat.le_of_not_lt hlt')] at hmis
    have heq := (State.compareCheck_outside (mean := F32.mul (F32.add a.value b.value) 0x3F000000) hsa hsb (htol.trans ht)).trans
      (if_pos (by rw [hmis, hper]; exact hlt))
    exact ⟨_, hrun.trans (congrArg _ heq), hdiff, hmis, hlog, hmem, hregs⟩
  · have hge : ¬(min 15 (u.fld (F.AFE_PAIR_STATUS_MISMATCH p) + 1) < u.fld (F.AFE_PAIR_CFG_PERSIST p)) := by
      simp only [u, State.quiet_setPair]
      omega
    have heq := (State.compareCheck_outside (mean := F32.mul (F32.add a.value b.value) 0x3F000000) hsa hsb (htol.trans ht)).trans
      ((if_neg (by rw [hmis, hper]; exact hge)).trans (if_neg (by rw [hst]; exact hp.trans_ne (by decide))))
    refine ⟨_, hrun.trans (congrArg _ heq), ?_⟩
    rw [hper]
    generalize u.mismatched p (F32.sub a.x b.x) (F32.mul (F32.add a.value b.value) 0x3F000000) a.cseq = v at *
    refine ⟨?_, ?_, ?_, ?_, ?_, ?_⟩
    · simp (disch := grind) [State.pairState]
    · simp [State.pairOf, Tab.get, Tab.find_put_self]
    · simp [State.pairOf, Tab.get, Tab.find_put_self]
    · exact Logs.log_self (by simpa [u] using hlen)
    · simpa [SameMem, u] using hmem
    · intro a ha
      have hv := hregs a ha
      simpa (disch := grind) [u] using hv

/-- A level of an arbitration is measured, and another follows or the arbitration ends. -/
theorem State.arbCheck_eq {p : Nat} {a b : CheckSmp} {l : List (Word × Word × Word)}
    (hl : l = (s.pairOf p).arb ++ [(a.x, b.x, s.dacLevel p a.range (arbLevel (s.pairOf p).arb.length))]) : s.arbCheck p a b =
    if l.length < 3 then ((s.sendAchk p 0 1 a.cseq).setPair p
      { (s.sendAchk p 0 1 a.cseq).pairOf p with arb := l, driving := some l.length }).setFld (F.AFE_PAIR_STATUS_ARB_LEVEL p) l.length
    else (s.sendAchk p 0 1 a.cseq).arbEnd p l := by
  subst hl
  rfl

theorem pairCheck_arbitrating_spec {v : State} {p : Fin 8} {a b : CheckSmp} {l : List (Word × Word × Word)} (ha : (s.pairOf p).smpA = some a)
    (hb : (s.pairOf p).smpB = some b) (hq : a.cseq = b.cseq) (hv : v = s.setPair p { s.pairOf p with smpA := none, smpB := none })
    (hl : l = (s.pairOf p).arb ++ [(a.x, b.x, v.dacLevel p a.range (arbLevel (s.pairOf p).arb.length))]) :
    (s.pairState p = 1 → 2 ≤ (s.pairOf p).arb.length → exec (.pairCheck p) s = .next ((v.sendAchk p 0 1 a.cseq).arbEnd p l)) ∧
    (s.pairState p = 1 → (s.pairOf p).arb.length < 2 → Gives (.pairCheck p) s (fun t => (t.pairOf p).arb = l ∧
      (t.pairOf p).driving = some l.length ∧ t.fld (F.AFE_PAIR_STATUS_ARB_LEVEL p) = l.length ∧ SameMem s t ∧
      RegsKept s t [Reg.AFE_PAIR_STATUS p])) ∧
    (s.pairState p = 4 → exec (.pairCheck p) s = .next (v.sendAchk p (F32.mul (F32.add a.value b.value) 0x3F000000)
      (if a.st == 1 || b.st == 1 then 1 else 4) a.cseq)) := by
  have hlen : l.length = (s.pairOf p).arb.length + 1 := by rw [hl]; simp
  have hrun : exec (.pairCheck p) s = .next (v.pairCheck p a b) := (pairCheck_paired ha hb hq).trans (by rw [hv])
  have hvs : v.pairState p = s.pairState p := by rw [hv]; rfl
  have harb : (v.pairOf p).arb = (s.pairOf p).arb := by rw [hv, State.pairOf_setPair]
  rw [← harb] at hl
  refine ⟨fun h1 hge => ?_, fun h1 hlt => ?_, fun h4 => ?_⟩
  · rw [hrun, State.pairCheck_arbitrating (hvs.trans h1), State.arbCheck_eq hl, if_neg (by omega)]
  · refine ⟨_, hrun.trans (congrArg _ ((State.pairCheck_arbitrating (hvs.trans h1)).trans ((State.arbCheck_eq hl).trans (if_pos (by omega))))), ?_⟩
    have h4 : l.length % 4 = l.length := by omega
    refine ⟨?_, ?_, ?_, ?_, ?_⟩
    · simp [State.pairOf, Tab.get, Tab.find_put_self]
    · simp [State.pairOf, Tab.get, Tab.find_put_self]
    · simp (disch := grind) [h4]
    · simp [SameMem, hv]
    · simp [hv]
  · rw [hrun, State.pairCheck_calibrating (hvs.trans h4)]

/-! ## Diagnostic requests (R150) -/

theorem State.inUse_congr {s t : State} {r : Res} (hdom : ∀ d, r.domainOf = some d → t.rd (F.RPC_DOM_HEALTH d).addr = s.rd (F.RPC_DOM_HEALTH d).addr)
    (hfld : ∀ f, r.healthFld = some f → t.rd f.addr = s.rd f.addr) (hx : t.healthX = s.healthX) : t.inUse r = s.inUse r := by
  unfold State.inUse
  rw [health_congr hdom hfld hx]

theorem tdacDiagRequest_taken {p : Fin 8} {code : BitVec 12} {mode : BitVec 2} {conv : Bool} {ch : BitVec 3}
    (hu : s.inUse (.conv (2 * p.val + b2n conv)) = true) (hd : s.hasDiag (2 * p.val + b2n conv) = true) (hm : mode.toNat < 2) :
    Gives (.tdacDiagRequest p code mode conv ch) s (fun t => t.fld (F.AFE_TDAC_CMD_CODE p) = code.toNat ∧
      t.fld (F.AFE_TDAC_CMD_MODE p) = mode.toNat ∧ t.flag (F.AFE_TDAC_CMD_CONV p) = conv ∧ t.fld (F.AFE_TDAC_CMD_CH p) = ch.toNat ∧
      t.num (Reg.AFE_TDAC_RES p) = 0 ∧ t.num (Reg.AFE_TDAC_MEAS p) = 0 ∧ t.num (Reg.AFE_TDAC_EXP p) = 0 ∧ (t.pairOf p).request = true ∧
      SameMem s t ∧ RegsKept s t [Reg.AFE_TDAC_CMD p, Reg.AFE_TDAC_RES p, Reg.AFE_TDAC_MEAS p, Reg.AFE_TDAC_EXP p]) := by
  have hbit : b2n conv < 2 := by cases conv <;> decide
  refine ⟨_, if_neg ?_, ?_⟩
  · rw [State.inUse_congr (s := s), State.hasDiag, State.convTab]
    · have hdiag : (s.convTab (2 * p.val + b2n conv)).any (fun e => e.valid && e.kind == 2) = true := hd
      simpa [State.convTab, hu, hm] using hdiag
    · rintro _ ⟨rfl⟩
      simp (disch := grind)
    · rintro _ ⟨rfl⟩
      simp (disch := grind)
    · simp
  refine ⟨?_, ?_, ?_, ?_, ?_, ?_, ?_, ?_, ?_, ?_⟩
  · simpa (disch := grind) using code.isLt
  · simpa (disch := grind) using mode.isLt
  · cases conv <;> simp (disch := grind) [b2n]
  · simpa (disch := grind) using ch.isLt
  · simp (disch := grind)
  · simp (disch := grind)
  · simp (disch := grind)
  · simp (disch := grind)
  · simp (disch := grind) [SameMem]
  · simp (disch := grind)

theorem tdacDiagRequest_refused {p : Fin 8} {mode : BitVec 2} (code : BitVec 12) (conv : Bool) (ch : BitVec 3) (hm : 2 ≤ mode.toNat) :
    Gives (.tdacDiagRequest p code mode conv ch) s (fun t => t.flag (F.AFE_TDAC_RES_REFUSED p) = true ∧ (t.pairOf p).request = false ∧
      SameMem s t) := by
  refine ⟨_, if_pos (by simp [hm]), ?_, ?_, ?_⟩
  · simp (disch := grind)
  · rw [State.pairOf_setPair]
  · simp [SameMem]

end

/-- Settles O30: each command by its own lemma. -/
theorem acquisitionCommands : Obligations.AcquisitionCommands := by
  unfold Obligations.AcquisitionCommands
  exact ⟨fun _ _ _ _ _ _ => convEntryStart_spec, fun _ _ => convSettleEnd_spec, fun _ _ codes => convEnd_runs codes,
    fun _ _ codes bad _ => State.convFinish_check codes bad, fun _ _ => ⟨_, rfl, rfl⟩, fun _ _ _ _ => acqToken_spec,
    fun _ _ _ _ _ _ ha hb => ⟨fun hq => (pairCheck_apart ha hb hq).1, fun hq => (pairCheck_apart ha hb hq).2,
      fun hq => pairCheck_checking_spec ha hb hq⟩,
    fun _ _ _ _ _ _ => pairCheck_arbitrating_spec, fun _ _ _ _ _ _ => tdacDiagRequest_taken, fun _ _ code _ conv ch => tdacDiagRequest_refused code conv ch⟩

end Sys2Proof.Machine


/-! PROOFS. Calibration: captures, commit, abort and revert (R152 to R154). -/

namespace Sys2Proof.Machine

/-! ## Records in memory -/

section
variable {s : State}

theorem State.rdList_add (s : State) (a n m : Nat) : s.rdList a (n + m) = s.rdList a n ++ s.rdList (a + n) m := by
  induction n generalizing a with
  | zero => simp [State.rdList]
  | succ n ih => rw [Nat.succ_add, State.rdList, State.rdList, ih, Nat.add_right_comm a 1 n]; rfl

theorem State.rdList_length (s : State) (a n : Nat) : (s.rdList a n).length = n := by simp [rdList_eq]

/-- A number whose bytes stand in memory is read back. -/
theorem State.rdMem_of_rdList {a n v : Nat} (h : s.rdList a n = leBytes n v) : s.rdMem a n = v % 256 ^ n := by
  induction n generalizing a v with
  | zero => simp [State.rdMem, Nat.mod_one]
  | succ n ih =>
    obtain ⟨hb, ht⟩ := List.cons.inj h
    rw [State.rdMem, hb, ih ht, Nat.pow_succ, Nat.mul_comm (256 ^ n), Nat.mod_mul]

theorem State.rdWord_of_rdList {a : Nat} {v : Word} (h : s.rdList a 4 = leBytes 4 v.toNat) : s.rdWord a = v := by
  rw [State.rdWord, State.rdMem_of_rdList h]
  exact BitVec.eq_of_toNat_eq (by simpa using v.isLt)

/-! ## The record's CRC -/

theorem crc32cBits_bound (k : Nat) {c : Nat} (h : c < 2 ^ 32) : crc32cBits k c < 2 ^ 32 := by
  induction k generalizing c with
  | zero => exact h
  | succ k ih =>
    refine ih ?_
    split
    · exact Nat.xor_lt_two_pow (by omega) (by decide)
    · omega

theorem crc32cRun_bound {l : List Nat} (hl : ∀ b ∈ l, b < 256) {c : Nat} (h : c < 2 ^ 32) : crc32cRun l c < 2 ^ 32 := by
  induction l generalizing c with
  | nil => exact h
  | cons b l ih =>
    have hb : b < 2 ^ 32 := Nat.lt_trans (hl b List.mem_cons_self) (by decide)
    exact ih (fun x hx => hl x (List.mem_cons_of_mem _ hx)) (crc32cBits_bound 8 (Nat.xor_lt_two_pow h hb))

theorem crc32c_lt {l : List Nat} (hl : ∀ b ∈ l, b < 256) : crc32c l < 2 ^ 32 := Nat.xor_lt_two_pow (crc32cRun_bound hl (by decide)) (by decide)

/-- The bytes of a system record (R154). -/
def calBytes (r : Nat) (gain offs : Word) (seq : Nat) : List Nat :=
  leBytes 4 gain.toNat ++ leBytes 4 offs.toNat ++ leBytes 4 seq ++
    leBytes 4 (crc32c (leBytes 4 r ++ (leBytes 4 gain.toNat ++ leBytes 4 offs.toNat ++ leBytes 4 seq)))

theorem calBytes_length (r : Nat) (gain offs : Word) (seq : Nat) : (calBytes r gain offs seq).length = 16 := by
  simp [calBytes, leBytes_length]

theorem calBytes_lt (r : Nat) (gain offs : Word) (seq : Nat) : ∀ b ∈ calBytes r gain offs seq, b < 256 := by
  intro b hb
  simp only [calBytes, List.mem_append] at hb
  rcases hb with ((hb | hb) | hb) | hb <;> exact leBytes_lt _ _ _ hb

/-- A record whose bytes stand in a slot is read back, and is valid. -/
theorem State.cal_of_rdList {slot r seq : Nat} {gain offs : Word} (h : s.rdList (calAddr (1 + slot) r) 16 = calBytes r gain offs seq)
    (h0 : seq ≠ 0) (hs : seq < 2 ^ 32) :
    s.calRec (1 + slot) r = (gain, offs) ∧ s.calSeq (1 + slot) r = seq ∧ s.calValid slot r = true := by
  have hlen (n v : Nat) : (leBytes n v).length = n := leBytes_length n v
  rw [show 16 = 12 + 4 from rfl, State.rdList_add] at h
  obtain ⟨hbody, hcrc⟩ := List.append_inj h (by simp [State.rdList_length, hlen])
  have hwhole := hbody
  rw [show 12 = 8 + 4 from rfl, State.rdList_add] at hbody
  obtain ⟨hval, hseq⟩ := List.append_inj hbody (by simp [State.rdList_length, hlen])
  rw [show 8 = 4 + 4 from rfl, State.rdList_add] at hval
  obtain ⟨hgain, hoffs⟩ := List.append_inj hval (by simp [State.rdList_length, hlen])
  have hseq' : s.calSeq (1 + slot) r = seq := (State.rdMem_of_rdList hseq).trans (Nat.mod_eq_of_lt hs)
  refine ⟨Prod.ext (State.rdWord_of_rdList hgain) (State.rdWord_of_rdList hoffs), hseq', ?_⟩
  have hlt : ∀ b ∈ leBytes 4 r ++ (leBytes 4 gain.toNat ++ leBytes 4 offs.toNat ++ leBytes 4 seq), b < 256 := by
    intro b hb
    simp only [List.mem_append] at hb
    rcases hb with hb | (hb | hb) | hb <;> exact leBytes_lt _ _ _ hb
  have hmod : _ % 256 ^ 4 = _ := Nat.mod_eq_of_lt (crc32c_lt hlt)
  rw [State.calValid, State.calCrcOk, hwhole, State.rdMem_of_rdList hcrc, hseq', hmod]
  simpa using h0

end

/-! ## Start and captures (R152) -/

section
variable {s : State}

@[simp] theorem State.setCal_calState (s : State) (c : Cal) : (s.setCal c).calState = s.calState := rfl

theorem State.calRefuse_spec (s : State) (code ch range : Nat) (hc : code < 16) : (s.calRefuse code ch range).fld F.AFE_CAL_STATUS_REFUSE = code ∧
    (s.calRefuse code ch range).calState = s.calState ∧ (s.calRefuse code ch range).cal = s.cal ∧
    Logs s (s.calRefuse code ch range) 0x0519 0 (code + ch * 2 ^ 8 + range * 2 ^ 16) ∧ SameMem s (s.calRefuse code ch range) ∧
    RegsKept s (s.calRefuse code ch range) [Reg.AFE_CAL_STATUS, Reg.EVL_LOST] := by
  have hmod : code % 256 = code := Nat.mod_eq_of_lt (by omega)
  unfold State.calRefuse
  refine ⟨?_, ?_, ?_, logs_log _ _ _ (by simp), ?_, ?_⟩ <;> simp (disch := decide) [State.calState, SameMem, hmod]

theorem exec_calStart {ch : BitVec 8} {r : BitVec 2} {u : State} (hu : u = (s.setFld F.AFE_CAL_CTRL_CH ch.toNat).setFld F.AFE_CAL_CTRL_RANGE r.toNat) :
    exec (.calStart ch r) s = if u.calState ≠ 0 then .next (u.calRefuse 1 ch.toNat r.toNat)
      else if !rangeOk ch.toNat r.toNat then .next (u.calRefuse 9 ch.toNat r.toNat)
      else if !u.hasEntry ch.toNat r.toNat then .next (u.calRefuse 2 ch.toNat r.toNat)
      else if !u.inUse (.conv (convOfChan ch.toNat)) then .next (u.calRefuse 3 ch.toNat r.toNat)
      else .next (if 128 ≤ ch.toNat ∧ ch.toNat < 144 then
          ((u.setFld F.AFE_CAL_STATUS_STATE 1).setCal { Cal.init with ch := ch.toNat, range := r.toNat, snap := u.cal.snap }).pairRefresh ((ch.toNat - 128) / 2)
        else (u.setFld F.AFE_CAL_STATUS_STATE 1).setCal { Cal.init with ch := ch.toNat, range := r.toNat, snap := u.cal.snap }) := by
  subst hu
  rfl

theorem calStart_starts {ch : BitVec 8} {r : BitVec 2} (h0 : s.calState = 0) (hc : ch.toNat < 128) (he : s.hasEntry ch.toNat r.toNat = true)
    (hu : s.inUse (.conv (convOfChan ch.toNat)) = true) : Gives (.calStart ch r) s (fun t => t.calState = 1 ∧
      t.cal = { Cal.init with ch := ch.toNat, range := r.toNat, snap := s.cal.snap } ∧ t.fld F.AFE_CAL_CTRL_CH = ch.toNat ∧ t.fld F.AFE_CAL_CTRL_RANGE = r.toNat ∧
      SameMem s t ∧ RegsKept s t [Reg.AFE_CAL_CTRL, Reg.AFE_CAL_STATUS]) := by
  obtain ⟨u, hset⟩ : ∃ u, u = (s.setFld F.AFE_CAL_CTRL_CH ch.toNat).setFld F.AFE_CAL_CTRL_RANGE r.toNat := ⟨_, rfl⟩
  have hin : u.inUse (.conv (convOfChan ch.toNat)) = true := by
    rw [hset]
    refine (State.inUse_congr (s := s) ?_ ?_ (by simp)).trans hu
    · rintro _ ⟨rfl⟩
      simp (disch := decide)
    · rintro _ ⟨rfl⟩
      simp (disch := grind)
  have hst : u.calState = 0 := by
    simpa (disch := decide) [State.calState, hset] using h0
  have hent : u.hasEntry ch.toNat r.toNat = true := by
    simpa [State.hasEntry, State.streamDest, State.convTab, hset] using he
  have hrun : exec (.calStart ch r) s = .next ((u.setFld F.AFE_CAL_STATUS_STATE 1).setCal { Cal.init with ch := ch.toNat, range := r.toNat, snap := u.cal.snap }) := by
    rw [exec_calStart hset, if_neg (not_not_intro hst), if_neg (by simp [rangeOk, hc]), if_neg (by simp [hent]), if_neg (by simp [hin]), if_neg (by omega)]
  have hch := ch.isLt
  have hr := r.isLt
  refine ⟨_, hrun, ?_, by simp [hset], ?_, ?_, ?_, ?_⟩
  · simp (disch := decide) [State.calState]
  · simpa (disch := decide) [hset] using hch
  · simpa (disch := decide) [hset] using hr
  · simp [hset, SameMem]
  · simp [hset]

theorem calStart_refused {ch : BitVec 8} {r : BitVec 2} (h0 : s.calState ≠ 0) : Gives (.calStart ch r) s (fun t => t.fld F.AFE_CAL_STATUS_REFUSE = 1 ∧
      t.calState = s.calState ∧ t.cal = s.cal ∧ Logs s t 0x0519 0 (1 + ch.toNat * 2 ^ 8 + r.toNat * 2 ^ 16) ∧
      SameMem s t ∧ RegsKept s t [Reg.AFE_CAL_CTRL, Reg.AFE_CAL_STATUS, Reg.EVL_LOST]) := by
  obtain ⟨u, hset⟩ : ∃ u, u = (s.setFld F.AFE_CAL_CTRL_CH ch.toNat).setFld F.AFE_CAL_CTRL_RANGE r.toNat := ⟨_, rfl⟩
  have hst : u.calState = s.calState := by simp (disch := decide) [State.calState, hset]
  have hcal' : u.cal = s.cal := by simp [hset]
  have hevl : u.evl = s.evl := by simp [hset]
  have hsame : SameMem s u := by simp [hset, SameMem]
  have hreg : RegsKept s u [Reg.AFE_CAL_CTRL] := by simp [hset]
  obtain ⟨hcode, hstate, hcal, hlog, hmem, hregs⟩ := u.calRefuse_spec 1 ch.toNat r.toNat (by decide)
  refine ⟨_, (exec_calStart hset).trans (if_pos (hst.trans_ne h0)), hcode, hstate.trans hst, hcal.trans hcal', fun hq => hlog (hevl ▸ hq),
    fun b => (hmem b).trans (hsame b), fun a ha => ?_⟩
  simp only [List.mem_cons, not_or] at ha
  rw [hregs a (by simpa using ha.2), hreg a (by simpa using ha.1)]

theorem State.calCapture_spec (h : s.calState = 1 ∨ s.calState = 3 ∨ s.calState = 4) (high : Bool) (c : Cal)
    (hc : c = if high then { s.cal with high := high, cnt := 0, sum := 0, bad := false, prev := s.calState, x1 := s.rd Reg.AFE_CAL_X }
      else { s.cal with high := high, cnt := 0, sum := 0, bad := false, prev := s.calState, x0 := s.rd Reg.AFE_CAL_X }) :
    (s.calCapture high).calState = 2 ∧ (s.calCapture high).cal = c ∧ SameMem s (s.calCapture high) ∧
    RegsKept s (s.calCapture high) [Reg.AFE_CAL_STATUS] := by
  have heq : s.calCapture high = (s.setCal c).setFld F.AFE_CAL_STATUS_STATE 2 := by
    rw [hc, State.calCapture, if_pos h]
  rw [heq]
  refine ⟨?_, ?_, ?_, ?_⟩ <;> simp (disch := decide) [State.calState, SameMem]

theorem calCapture_spec (h : s.calState = 1 ∨ s.calState = 3 ∨ s.calState = 4) :
    Gives .calCaptureLo s (fun t => t.calState = 2 ∧
      t.cal = { s.cal with high := false, cnt := 0, sum := 0, bad := false, prev := s.calState, x0 := s.rd Reg.AFE_CAL_X } ∧
      SameMem s t ∧ RegsKept s t [Reg.AFE_CAL_STATUS]) ∧
    Gives .calCaptureHi s (fun t => t.calState = 2 ∧
      t.cal = { s.cal with high := true, cnt := 0, sum := 0, bad := false, prev := s.calState, x1 := s.rd Reg.AFE_CAL_X } ∧
      SameMem s t ∧ RegsKept s t [Reg.AFE_CAL_STATUS]) :=
  ⟨⟨_, rfl, State.calCapture_spec h false _ rfl⟩, ⟨_, rfl, State.calCapture_spec h true _ rfl⟩⟩

theorem calCaptureDone_low (h2 : s.calState = 2) (hb : s.cal.bad = false) (hn : s.fld F.AFE_CAL_N_N ≤ s.cal.cnt) (hh : s.cal.high = false) :
    Gives .calCaptureDone s (fun t => t.cal = { s.cal with u0 := F32.ofUnitsRatio s.cal.sum s.cal.cnt } ∧
      t.flag F.AFE_CAL_STATUS_HAVE_LO = true ∧ t.calState = (if s.flag F.AFE_CAL_STATUS_HAVE_HI then 4 else 3) ∧ SameMem s t ∧
      RegsKept s t [Reg.AFE_CAL_STATUS]) := by
  have hrun : exec .calCaptureDone s = .next (((s.setCal { s.cal with u0 := F32.ofUnitsRatio s.cal.sum s.cal.cnt }).setFld
      F.AFE_CAL_STATUS_HAVE_LO 1).setFld F.AFE_CAL_STATUS_STATE (if s.flag F.AFE_CAL_STATUS_HAVE_HI then 4 else 3)) := by
    simp only [exec, execCalCaptureDone, h2, hb, hh, Nat.not_lt.mpr hn, ne_eq, not_true, if_false, Bool.false_eq_true, Bool.false_bne]
  refine ⟨_, hrun, ?_⟩
  cases s.flag F.AFE_CAL_STATUS_HAVE_HI <;> refine ⟨?_, ?_, ?_, ?_, ?_⟩ <;> simp (disch := decide) [State.calState, SameMem]

theorem calCaptureDone_high (h2 : s.calState = 2) (hb : s.cal.bad = false) (hn : s.fld F.AFE_CAL_N_N ≤ s.cal.cnt) (hh : s.cal.high = true) :
    Gives .calCaptureDone s (fun t => t.cal = { s.cal with u1 := F32.ofUnitsRatio s.cal.sum s.cal.cnt } ∧
      t.flag F.AFE_CAL_STATUS_HAVE_HI = true ∧ t.calState = (if s.flag F.AFE_CAL_STATUS_HAVE_LO then 3 else 4) ∧ SameMem s t ∧
      RegsKept s t [Reg.AFE_CAL_STATUS]) := by
  have hrun : exec .calCaptureDone s = .next (((s.setCal { s.cal with u1 := F32.ofUnitsRatio s.cal.sum s.cal.cnt }).setFld
      F.AFE_CAL_STATUS_HAVE_HI 1).setFld F.AFE_CAL_STATUS_STATE (if !s.flag F.AFE_CAL_STATUS_HAVE_LO then 4 else 3)) := by
    simp only [exec, execCalCaptureDone, h2, hb, hh, Nat.not_lt.mpr hn, ne_eq, not_true, if_true, if_false, Bool.false_eq_true, Bool.true_bne]
  refine ⟨_, hrun, ?_⟩
  cases s.flag F.AFE_CAL_STATUS_HAVE_LO <;> refine ⟨?_, ?_, ?_, ?_, ?_⟩ <;> simp (disch := decide) [State.calState, SameMem]

/-! ## Commit (R153, R154) -/

theorem calCommit_computes {gain : Word} (h : s.calState = 3 ∨ s.calState = 4) (hl : s.flag F.AFE_CAL_STATUS_HAVE_LO = true)
    (hh : s.flag F.AFE_CAL_STATUS_HAVE_HI = true) (hg : gain = F32.div (F32.sub s.cal.x1 s.cal.x0) (F32.sub s.cal.u1 s.cal.u0))
    (hv : calVerdict s.cal.range (F32.sub s.cal.x1 s.cal.x0) gain (F32.sub s.cal.x0 (F32.mul gain s.cal.u0)) = 0) :
    Gives .calCommit s (fun t => t.rd Reg.AFE_CAL_GAIN = gain ∧ t.rd Reg.AFE_CAL_OFFS = F32.sub s.cal.x0 (F32.mul gain s.cal.u0) ∧
      t.calState = 5 ∧ t.cal = s.cal ∧ SameMem s t ∧ RegsKept s t [Reg.AFE_CAL_GAIN, Reg.AFE_CAL_OFFS, Reg.AFE_CAL_STATUS]) := by
  have hrun : exec .calCommit s = .next (((s.wr Reg.AFE_CAL_GAIN gain).wr Reg.AFE_CAL_OFFS (F32.sub s.cal.x0 (F32.mul gain s.cal.u0))).setFld
      F.AFE_CAL_STATUS_STATE 5) := by
    simp only [exec, execCalCommit, h, hl, hh, ← hg, hv, and_self, if_true]
  refine ⟨_, hrun, ?_⟩
  generalize F32.sub s.cal.x0 (F32.mul gain s.cal.u0) = offs
  refine ⟨?_, ?_, ?_, ?_, ?_, ?_⟩ <;> simp (disch := decide) [State.calState, SameMem]

theorem calCommit_refused (hl : s.flag F.AFE_CAL_STATUS_HAVE_LO = false) : Gives .calCommit s (fun t => t.fld F.AFE_CAL_STATUS_REFUSE = 1 ∧
      t.calState = s.calState ∧ t.cal = s.cal ∧ SameMem s t ∧ RegsKept s t [Reg.AFE_CAL_STATUS, Reg.EVL_LOST]) := by
  obtain ⟨hcode, hstate, hcal, -, hmem, hregs⟩ := s.calRefuse_spec 1 s.cal.ch s.cal.range (by decide)
  exact ⟨_, if_neg (by simp [hl]), hcode, hstate, hcal, hmem, hregs⟩

/-- The calibration unit goes idle; of an input channel no pair is concerned. -/
theorem State.calIdle_input (h : s.cal.ch < 128) : s.calIdle =
    ((s.setFld F.AFE_CAL_STATUS_STATE 0).setFld F.AFE_CAL_STATUS_HAVE_LO 0).setFld F.AFE_CAL_STATUS_HAVE_HI 0 :=
  if_neg (by simp only [State.setFld_cal]; omega)

theorem State.calIdle_spec (h : s.cal.ch < 128) : s.calIdle.calState = 0 ∧ s.calIdle.flag F.AFE_CAL_STATUS_HAVE_LO = false ∧
    s.calIdle.flag F.AFE_CAL_STATUS_HAVE_HI = false ∧ s.calIdle.evl = s.evl ∧ SameMem s s.calIdle ∧ RegsKept s s.calIdle [Reg.AFE_CAL_STATUS] := by
  rw [State.calIdle_input h]
  refine ⟨?_, ?_, ?_, ?_, ?_, ?_⟩ <;> simp (disch := decide) [State.calState, SameMem]

/-- A calibration that ends refused: the unit is idle, with the code and its event. -/
theorem State.calIdle_refused (h : s.cal.ch < 128) (code : Nat) (hc : code < 16) :
    (s.calIdle.calRefuse code s.cal.ch s.cal.range).calState = 0 ∧ (s.calIdle.calRefuse code s.cal.ch s.cal.range).fld F.AFE_CAL_STATUS_REFUSE = code ∧
    (s.calIdle.calRefuse code s.cal.ch s.cal.range).flag F.AFE_CAL_STATUS_HAVE_LO = false ∧
    (s.calIdle.calRefuse code s.cal.ch s.cal.range).flag F.AFE_CAL_STATUS_HAVE_HI = false ∧
    Logs s (s.calIdle.calRefuse code s.cal.ch s.cal.range) 0x0519 0 (code + s.cal.ch * 2 ^ 8 + s.cal.range * 2 ^ 16) ∧
    SameMem s (s.calIdle.calRefuse code s.cal.ch s.cal.range) ∧
    RegsKept s (s.calIdle.calRefuse code s.cal.ch s.cal.range) [Reg.AFE_CAL_STATUS, Reg.EVL_LOST] := by
  have hmod : code % 256 = code := Nat.mod_eq_of_lt (by omega)
  rw [State.calIdle_input h]
  generalize s.cal.ch = ch, s.cal.range = r
  unfold State.calRefuse
  refine ⟨?_, ?_, ?_, ?_, logs_log _ _ _ (by simp), ?_, ?_⟩ <;> simp (disch := decide) [State.calState, SameMem, hmod]

theorem calAbort_spec (h0 : s.calState ≠ 0) (hc : s.cal.ch < 128) : Gives .calAbort s (fun t => t.calState = 0 ∧ t.fld F.AFE_CAL_STATUS_REFUSE = 0x0A ∧
      t.flag F.AFE_CAL_STATUS_HAVE_LO = false ∧ t.flag F.AFE_CAL_STATUS_HAVE_HI = false ∧
      Logs s t 0x0519 0 (0x0A + s.cal.ch * 2 ^ 8 + s.cal.range * 2 ^ 16) ∧ SameMem s t ∧ RegsKept s t [Reg.AFE_CAL_STATUS, Reg.EVL_LOST]) :=
  ⟨_, if_neg h0, State.calIdle_refused hc 0x0A (by decide)⟩

theorem calCommitDone_failed (h5 : s.calState = 5) (hc : s.cal.ch < 128) : Gives (.calCommitDone false) s (fun t => t.calState = 0 ∧
      t.fld F.AFE_CAL_STATUS_REFUSE = 8 ∧ Logs s t 0x0519 0 (8 + s.cal.ch * 2 ^ 8 + s.cal.range * 2 ^ 16) ∧ SameMem s t ∧
      RegsKept s t [Reg.AFE_CAL_STATUS, Reg.EVL_LOST]) := by
  obtain ⟨hstate, hcode, -, -, hlog, hmem, hregs⟩ := State.calIdle_refused hc 8 (by decide)
  exact ⟨_, (if_neg (not_not_intro h5)).trans (if_neg (by simp)), hstate, hcode, hlog, hmem, hregs⟩

/-! ## Stored records (R154) -/

theorem State.rd_storeRec (s : State) (a : Nat) (l : List Nat) (x : Nat) : (s.storeRec a l).rd x = s.rd x :=
  (State.rd_setCal _ _ x).trans (rd_wrList l s a x)

@[simp] theorem State.quiet_storeRec (s : State) (a : Nat) (l : List Nat) : Quiet (s.storeRec a l) s :=
  .of_eq (s.rd_storeRec a l) ((State.setCal_evl _ _).trans (evl_wrList ..)) ((State.setCal_time _ _).trans (time_wrList ..))

@[simp] theorem State.evl_storeRec (s : State) (a : Nat) (l : List Nat) : (s.storeRec a l).evl = s.evl := (State.setCal_evl _ _).trans (evl_wrList ..)

theorem State.rdByte_storeRec_other (s : State) {a b : Nat} (l : List Nat) (h : b < a ∨ a + l.length ≤ b) : (s.storeRec a l).rdByte b = s.rdByte b :=
  (State.rdByte_setCal _ _ b).trans (s.rdByte_wrList_other l h)

theorem State.rdList_storeRec (s : State) (a : Nat) {l : List Nat} (h : ∀ b ∈ l, b < 256) : (s.storeRec a l).rdList a l.length = l :=
  (rdList_congr fun b _ _ => State.rdByte_setCal _ _ b).trans (rdList_wrList_self s a l h)

theorem State.rdByte_storeRec_zero (s : State) (a : Nat) {n k : Nat} (hk : k < n) : (s.storeRec a (List.replicate n 0)).rdByte (a + k) = 0 := by
  have hz : ∀ b ∈ List.replicate n 0, b < 256 := fun b hb => (List.eq_of_mem_replicate hb).trans_lt (by decide)
  have hread := s.rdList_storeRec a hz
  rw [rdList_eq, List.length_replicate] at hread
  exact BitVec.eq_of_toNat_eq ((List.eq_replicate_iff.mp hread).2 _ (List.mem_map_of_mem (List.mem_range.mpr hk)))

theorem calCommitDone_stored {r : Nat} (h5 : s.calState = 5) (hc : s.cal.ch < 128) (hr : r = 4 * s.cal.ch + s.cal.range)
    (hn : s.calNewest r = none) : Gives (.calCommitDone true) s (fun t => t.calState = 0 ∧
      t.flag F.AFE_CAL_STATUS_HAVE_LO = false ∧ t.flag F.AFE_CAL_STATUS_HAVE_HI = false ∧ t.calValid 0 r = true ∧
      t.calRec 1 r = (s.rd Reg.AFE_CAL_GAIN, s.rd Reg.AFE_CAL_OFFS) ∧ t.calSeq 1 r = 1 ∧
      Logs s t 0x0518 0 (s.cal.ch + s.cal.range * 2 ^ 8) ∧ SameMemOutside s t (calAddr 1 r) 16 ∧
      RegsKept s t [Reg.AFE_CAL_STATUS, Reg.EVL_LOST]) := by
  let w := calBytes r (s.rd Reg.AFE_CAL_GAIN) (s.rd Reg.AFE_CAL_OFFS) 1
  let u := s.storeRec (calAddr 1 r) w
  have hch : u.cal.ch < 128 := hc
  have hrun : exec (.calCommitDone true) s = .next (u.calIdle.log 0x0518 0 (s.cal.ch + s.cal.range * 2 ^ 8)) := by
    refine (if_neg (not_not_intro h5)).trans ((if_pos rfl).trans ?_)
    rw [← hr]
    simp only [hn]
    rfl
  obtain ⟨hst, hlo, hhi, hevl, hmem, hregs⟩ := u.calIdle_spec hch
  have hbytes : u.rdList (calAddr 1 r) 16 = w := (congrArg (u.rdList _) (calBytes_length ..).symm).trans (s.rdList_storeRec _ (calBytes_lt _ _ _ _))
  obtain ⟨hrec, hseq, hval⟩ := State.cal_of_rdList (slot := 0) (s := u.calIdle.log 0x0518 0 (s.cal.ch + s.cal.range * 2 ^ 8))
    ((rdList_congr fun b _ _ => (State.rdByte_log _ _ _ _ b).trans (hmem b)).trans hbytes) (by decide) (by decide)
  refine ⟨_, hrun, ?_, ?_, ?_, hval, hrec, hseq, logs_log _ _ _ (hevl.trans (s.evl_storeRec _ _)), fun b hb => ?_, fun a ha => ?_⟩
  · rw [State.calState, State.fld_congr (State.rd_log _ _ _ _ (by decide))]
    exact hst
  · rw [State.flag_congr (State.rd_log _ _ _ _ (by decide))]
    exact hlo
  · rw [State.flag_congr (State.rd_log _ _ _ _ (by decide))]
    exact hhi
  · rw [State.rdByte_log, hmem b, State.rdByte_storeRec_other _ _ (by rw [calBytes_length]; exact hb)]
  · simp only [List.mem_cons, List.not_mem_nil, or_false, not_or] at ha
    rw [State.rd_log _ _ _ _ ha.2, hregs a (by simpa using ha.1)]
    exact rd_wrList _ _ _ _

/-! ## Revert (R152) -/

theorem State.noCoef_spec (s : State) (r : Nat) : (s.noCoef r).mem = s.mem ∧ RegsKept s (s.noCoef r) [Reg.EVL_LOST] := by
  unfold State.noCoef
  exact ⟨State.logIf_mem .., by simp⟩

/-- An event logged last stays logged through the check of the coefficients. -/
theorem State.logs_noCoef {t : State} {c x d : Nat} (r : Nat) (h : t.evl.queue.length ≤ s.evl.queue.length + 15) (hl : Logs s t c x d) :
    Logs s (t.noCoef r) c x d := by
  unfold State.noCoef State.logIf
  split
  · exact Logs.log_other h hl _ _ _
  · exact hl

theorem calRevert_spec {ch : BitVec 8} {r : BitVec 2} (h0 : s.calState = 0) (hr : rangeOk ch.toNat r.toNat = true) : Gives (.calRevert ch r) s (fun t =>
      (∀ k, k < 16 → t.rdByte (calAddr 1 (4 * ch.toNat + r.toNat) + k) = 0 ∧ t.rdByte (calAddr 2 (4 * ch.toNat + r.toNat) + k) = 0) ∧
      (∀ b, (b < calAddr 1 (4 * ch.toNat + r.toNat) ∨ calAddr 1 (4 * ch.toNat + r.toNat) + 16 ≤ b) →
        (b < calAddr 2 (4 * ch.toNat + r.toNat) ∨ calAddr 2 (4 * ch.toNat + r.toNat) + 16 ≤ b) → t.rdByte b = s.rdByte b) ∧
      Logs s t 0x0518 0 (ch.toNat + r.toNat * 2 ^ 8 + 2 ^ 31) ∧ RegsKept s t [Reg.AFE_CAL_CTRL, Reg.EVL_LOST]) := by
  let u := (s.setFld F.AFE_CAL_CTRL_CH ch.toNat).setFld F.AFE_CAL_CTRL_RANGE r.toNat
  have hst : u.calState = 0 := by simpa (disch := decide) [State.calState, u] using h0
  refine ⟨_, (if_neg (not_not_intro hst)).trans (if_neg (by simp [hr])), ?_⟩
  generalize hn : 4 * ch.toNat + r.toNat = n
  have hn' : n < 1024 := by have := ch.isLt; have := r.isLt; omega
  generalize hv : (u.storeRec (calAddr 1 n) (List.replicate 16 0)).storeRec (calAddr 2 n) (List.replicate 16 0) = v
  have hbyte (b : Nat) : ((v.log 0x0518 0 (ch.toNat + r.toNat * 2 ^ 8 + 2 ^ 31)).noCoef n).rdByte b = v.rdByte b :=
    (rdByte_of_mem (State.noCoef_spec _ _).1 b).trans (State.rdByte_log _ _ _ _ b)
  have hz1 (k : Nat) (hk : k < 16) : v.rdByte (calAddr 1 n + k) = 0 := by
    rw [← hv, State.rdByte_storeRec_other _ _ (by simp only [List.length_replicate, calAddr]; omega), State.rdByte_storeRec_zero _ _ hk]
  have hz2 (k : Nat) (hk : k < 16) : v.rdByte (calAddr 2 n + k) = 0 := by
    rw [← hv, State.rdByte_storeRec_zero _ _ hk]
  have hevl : v.evl = s.evl := by
    rw [← hv]
    simp [u]
  have hlen : (v.log 0x0518 0 (ch.toNat + r.toNat * 2 ^ 8 + 2 ^ 31)).evl.queue.length ≤ s.evl.queue.length + 15 :=
    (log_length ..).trans (by rw [hevl]; omega)
  refine ⟨fun k hk => ⟨(hbyte _).trans (hz1 k hk), (hbyte _).trans (hz2 k hk)⟩, fun b h1 h2 => ?_, State.logs_noCoef _ hlen (logs_log _ _ _ hevl), fun a ha => ?_⟩
  · rw [hbyte, ← hv, State.rdByte_storeRec_other _ _ (by simpa using h2), State.rdByte_storeRec_other _ _ (by simpa using h1)]
    simp [u]
  · simp only [List.mem_cons, List.not_mem_nil, or_false, not_or] at ha
    have hvs : v.rd a = u.rd a := by
      rw [← hv, State.rd_storeRec, State.rd_storeRec]
    rw [(State.noCoef_spec _ _).2 a (by simpa using ha.2), State.rd_log _ _ _ _ ha.2, hvs]
    simp (disch := grind) [u]

end

/-- Settles O31: each command by its own lemma. -/
theorem calibrationCommands : Obligations.CalibrationCommands := by
  unfold Obligations.CalibrationCommands
  exact ⟨fun _ _ _ => calStart_starts, fun _ _ _ => calStart_refused, fun _ => calCapture_spec,
    fun _ h2 hb hn => ⟨calCaptureDone_low h2 hb hn, calCaptureDone_high h2 hb hn⟩, fun _ _ => calCommit_computes, fun _ => calCommit_refused,
    fun _ h5 hc => ⟨fun _ => calCommitDone_stored h5 hc, calCommitDone_failed h5 hc⟩, fun _ => calAbort_spec, fun _ _ _ => calRevert_spec⟩

end Sys2Proof.Machine


/-! PROOFS. Recipe commands: load, unload, start, pause, hold, resume, abort, and program flags (R212, R213, R215, R224, R240). -/

namespace Sys2Proof.Machine

section
variable {s : State}

@[simp] theorem State.slotOf_setSlot (s : State) (r : Nat) (x : SeqSlot) : (s.setSlot r x).slotOf r = x := by
  simp [State.slotOf, State.setSlot, Tab.get, Tab.find_put_self]

theorem State.slotOf_congr {s t : State} (h : t.seq = s.seq) (r : Nat) : t.slotOf r = s.slotOf r :=
  congrArg (fun q => Tab.get (fun _ => SeqSlot.init) (SeqState.slots q) r) h

theorem leadCrew_lt (mask : Nat) : leadCrew mask < 8 := by
  unfold leadCrew
  cases h : crewsOf mask with
  | nil => decide
  | cons m l =>
    have hm : m ∈ crewsOf mask := by rw [h]; exact List.mem_cons_self
    exact List.mem_range.mp (List.mem_of_mem_filter hm)

/-! ## The result of a command (R240) -/

theorem State.seqResult_accepted (s : State) (r cmd : Nat) :
    s.seqResult r cmd 0 = ((s.setFld F.SEQ_RES_RCP r).setFld F.SEQ_RES_CMD cmd).setFld F.SEQ_RES_REFUSE 0 := rfl

theorem State.seqResult_refused (s : State) (r cmd : Nat) {code : Nat} (h : code ≠ 0) : s.seqResult r cmd code =
    (((s.setFld F.SEQ_RES_RCP r).setFld F.SEQ_RES_CMD cmd).setFld F.SEQ_RES_REFUSE code).log 0x0711 0 (code + r * 2 ^ 16 + cmd * 2 ^ 24) := by
  unfold State.seqResult State.logIf
  rw [if_pos (by simpa using h)]

theorem State.seqResult_spec {r cmd code : Nat} (hr : r < 16) (hcmd : cmd < 8) (hcode : code < 16) :
    (s.seqResult r cmd code).fld F.SEQ_RES_RCP = r ∧
    (s.seqResult r cmd code).fld F.SEQ_RES_CMD = cmd ∧ (s.seqResult r cmd code).fld F.SEQ_RES_REFUSE = code ∧
    (code ≠ 0 → Logs s (s.seqResult r cmd code) 0x0711 0 (code + r * 2 ^ 16 + cmd * 2 ^ 24)) ∧
    (code = 0 → (s.seqResult r cmd code).evl = s.evl) ∧ SameMem s (s.seqResult r cmd code) ∧
    RegsKept s (s.seqResult r cmd code) [Reg.SEQ_RES, Reg.EVL_LOST] := by
  have hr' : r % 16 = r := Nat.mod_eq_of_lt hr
  have hcmd' : cmd % 8 = cmd := Nat.mod_eq_of_lt hcmd
  have hcode' : code % 256 = code := Nat.mod_eq_of_lt (by omega)
  by_cases h : code = 0
  · subst h
    rw [State.seqResult_accepted]
    refine ⟨?_, ?_, ?_, fun h => absurd rfl h, fun _ => ?_, ?_, ?_⟩ <;> simp (disch := decide) [SameMem, hr', hcmd']
  · rw [State.seqResult_refused _ _ _ h]
    refine ⟨?_, ?_, ?_, fun _ => logs_log _ _ _ (by simp), fun h0 => absurd h0 h, ?_, ?_⟩ <;>
      simp (disch := decide) [SameMem, hr', hcmd', hcode']

/-! ## Loading (R212) -/

theorem seqLoad_spec {r : Fin 16} :
    (s.flag F.SEQ_RES_BUSY = true → exec (.seqLoad r) s = .next ((s.seqResult r 1 11).setFld F.SEQ_STATUS_LOAD_DONE 1)) ∧
    (s.flag F.SEQ_RES_BUSY = false → s.rcpActive r = true →
      exec (.seqLoad r) s = .next ((s.seqResult r 1 9).setFld F.SEQ_STATUS_LOAD_DONE 1)) ∧
    (s.flag F.SEQ_RES_BUSY = false → s.rcpActive r = false → Gives (.seqLoad r) s (fun t => t.seq.loading = some r.val ∧
      t.flag F.SEQ_RES_BUSY = true ∧ t.fld F.SEQ_RES_RCP = r.val ∧ t.fld F.SEQ_RES_CMD = 1 ∧ t.fld F.SEQ_RES_REFUSE = 0 ∧
      SameMem s t ∧ RegsKept s t [Reg.SEQ_RES])) := by
  have hr : r.val % 16 = r := Nat.mod_eq_of_lt r.isLt
  refine ⟨fun hb => ?_, fun hb ha => ?_, fun hb ha => ?_⟩
  · simp only [exec, execSeqLoad, hb, if_true]
    exact if_pos (by decide)
  · simp only [exec, execSeqLoad, hb, ha, if_true, Bool.false_eq_true, if_false]
    exact if_pos (by decide)
  · have hrun : exec (.seqLoad r) s = .next (((s.seqResult r 1 0).setFld F.SEQ_RES_BUSY 1).setSeq
        { (s.seqResult r 1 0).seq with loading := some r }) := by
      simp only [exec, execSeqLoad, hb, ha, Bool.false_eq_true, if_false]
      exact if_neg (by decide)
    refine ⟨_, hrun, ?_⟩
    rw [State.seqResult_accepted]
    refine ⟨?_, ?_, ?_, ?_, ?_, ?_, ?_⟩ <;> simp (disch := decide) [SameMem, hr]

theorem seqLoadDone_spec : (s.seq.loading = none → exec .seqLoadDone s = .next s) ∧
    (∀ r u, s.seq.loading = some r →
      u = ((s.setSeq { s.seq with loading := none }).setFld F.SEQ_RES_BUSY 0).setFld F.SEQ_STATUS_LOAD_DONE 1 →
      exec .seqLoadDone s = .next (u.seqStore r (u.fld F.SEQ_SRC_LO_ADDR * 64 + u.fld F.SEQ_SRC_HI_ADDR * 2 ^ 32)
        (u.num Reg.SEQ_SRC_LEN))) := by
  refine ⟨fun h => ?_, fun r u h hu => ?_⟩
  · simp only [exec, execSeqLoadDone, h]
  · simp only [exec, execSeqLoadDone, h, hu]

theorem State.seqStore_spec {r src len : Nat} : (s.sourceOk src len = false → s.seqStore r src len = s.seqResult r 1 12) ∧
    (s.sourceOk src len = true → (s.recipeVerify src len).1 ≠ 0 → s.seqStore r src len = s.seqResult r 1 (s.recipeVerify src len).1) ∧
    (s.sourceOk src len = true → (s.recipeVerify src len).1 = 0 → ∀ u, u = (s.clearMem (rcpArea r) 0x400000).copyMem src (rcpArea r) len →
      s.seqStore r src len = u.seqStored r (u.recipeVerify (rcpArea r) len)) := by
  refine ⟨fun h => if_pos (by simp [h]), fun h hv => (if_neg (by simp [h])).trans (if_pos hv), fun h hv u hu => ?_⟩
  rw [hu]
  exact (if_neg (by simp [h])).trans (if_neg (not_not_intro hv))

/-! ## What a recipe's registers and slot show (R213) -/

theorem State.rcpShow_loaded (s : State) (r : Nat) (c : Recipe) : (s.rcpShow r (some c)).slotOf r = { SeqSlot.init with recipe := some c } :=
  State.slotOf_setSlot _ _ _

theorem State.rcpShow_none {r : Nat} (hr : r < 16) : (s.rcpShow r none).slotOf r = SeqSlot.init ∧ (s.rcpShow r none).fld (F.SEQ_R_STATE_CREWS r) = 0 ∧
    (s.rcpShow r none).num (Reg.SEQ_R_ID_LO r) = 0 ∧ (s.rcpShow r none).num (Reg.SEQ_R_ID_HI r) = 0 := by
  unfold State.rcpShow
  refine ⟨State.slotOf_setSlot _ _ _, ?_, ?_, ?_⟩ <;> simp (disch := grind) [State.setNum64]

/-! ## Commands on a loaded recipe (R215, R224) -/

theorem State.seqCmd_taken {r cmd : Nat} {states : List Nat} {act : State → State} (hl : s.seqLoading r = false) (hs : s.rcpState r ∈ states) :
    s.seqCmd r cmd states act = act (s.seqResult r cmd 0) := if_neg (by simp [hl, hs])

theorem State.seqCmd_refused {r cmd : Nat} {states : List Nat} {act : State → State} (hs : s.rcpState r ∉ states) :
    s.seqCmd r cmd states act = s.seqResult r cmd 11 := if_pos (by simp [hs])

theorem seqUnload_runs {r : Fin 16} (hl : s.seqLoading r = false) (hs : s.rcpState r = 1 ∨ s.rcpState r = 6 ∨ s.rcpState r = 7 ∨ s.rcpState r = 9) :
    exec (.seqUnload r) s = .next ((((s.seqResult r 2 0).clearMem (rcpArea r) 0x400000).setRcp r 0 0).rcpShow r none) :=
  congrArg Host.Outcome.next (State.seqCmd_taken hl (by simpa using hs))

theorem seqPause_runs {r : Fin 16} (hl : s.seqLoading r = false) (hs : s.rcpState r = 2) : Gives (.seqPause r) s (fun t =>
      t.flag (F.SEQ_R_STATE_PAUSE_PEND r) = true ∧ t.rcpState r = 2 ∧
      t.fld F.SEQ_RES_CMD = 4 ∧ t.fld F.SEQ_RES_REFUSE = 0 ∧ SameMem s t ∧ RegsKept s t [Reg.SEQ_RES, Reg.SEQ_R_STATE r]) := by
  have hst : s.fld (F.SEQ_R_STATE_STATE r) = 2 := hs
  refine ⟨_, congrArg Host.Outcome.next (State.seqCmd_taken hl (by simp [hs])), ?_⟩
  rw [State.seqResult_accepted]
  refine ⟨?_, ?_, ?_, ?_, ?_, ?_⟩ <;> simp (disch := grind) [SameMem, State.rcpState, hst]

theorem State.slotOf_seqResult (s : State) (r cmd : Nat) : (s.seqResult r cmd 0).slotOf r = s.slotOf r :=
  State.slotOf_congr (by rw [State.seqResult_accepted]; simp) r

/-- A command that only notes a request in the recipe's slot. -/
theorem State.seqNote_spec {r cmd : Nat} {x : SeqSlot} (hc : cmd < 8) : ((s.seqResult r cmd 0).setSlot r x).slotOf r = x ∧
    ((s.seqResult r cmd 0).setSlot r x).fld F.SEQ_RES_CMD = cmd ∧ ((s.seqResult r cmd 0).setSlot r x).fld F.SEQ_RES_REFUSE = 0 ∧
    SameMem s ((s.seqResult r cmd 0).setSlot r x) ∧ RegsKept s ((s.seqResult r cmd 0).setSlot r x) [Reg.SEQ_RES] := by
  have hcmd : cmd % 8 = cmd := Nat.mod_eq_of_lt hc
  rw [State.seqResult_accepted]
  refine ⟨State.slotOf_setSlot _ _ _, ?_, ?_, ?_, ?_⟩ <;> simp (disch := decide) [SameMem, hcmd]

theorem seqHold_runs {r : Fin 16} (hl : s.seqLoading r = false) (hs : s.rcpState r = 2 ∨ s.rcpState r = 3) : Gives (.seqHold r) s (fun t =>
      t.slotOf r = { s.slotOf r with hold := some ((s.slotOf r).hold.getD 0) } ∧ t.fld F.SEQ_RES_CMD = 5 ∧ t.fld F.SEQ_RES_REFUSE = 0 ∧
      SameMem s t ∧ RegsKept s t [Reg.SEQ_RES]) := by
  refine ⟨_, congrArg Host.Outcome.next (State.seqCmd_taken hl (by simpa using hs)), ?_⟩
  rw [State.slotOf_seqResult]
  exact State.seqNote_spec (by decide)

theorem seqResume_runs {r : Fin 16} (hl : s.seqLoading r = false) (hs : s.rcpState r = 3 ∨ s.rcpState r = 4 ∨ s.rcpState r = 8)
    (ht : s.holdsToken = true) (hk : (s.slotOf r).locked = false) : Gives (.seqResume r) s (fun t =>
      t.slotOf r = { s.slotOf r with resume := true } ∧ t.fld F.SEQ_RES_CMD = 6 ∧ t.fld F.SEQ_RES_REFUSE = 0 ∧ SameMem s t ∧ RegsKept s t [Reg.SEQ_RES]) := by
  refine ⟨_, (if_neg (by simp [ht, hk])).trans (congrArg Host.Outcome.next (State.seqCmd_taken hl (by simpa using hs))), ?_⟩
  rw [State.slotOf_seqResult]
  exact State.seqNote_spec (by decide)

theorem seqAbort_runs {r : Fin 16} (hl : s.seqLoading r = false)
    (hs : s.rcpState r = 2 ∨ s.rcpState r = 3 ∨ s.rcpState r = 4 ∨ s.rcpState r = 5 ∨ s.rcpState r = 8) : Gives (.seqAbort r) s (fun t =>
      t.slotOf r = { s.slotOf r with abort := some ((s.slotOf r).abort.getD 0) } ∧ t.fld F.SEQ_RES_CMD = 7 ∧ t.fld F.SEQ_RES_REFUSE = 0 ∧
      SameMem s t ∧ RegsKept s t [Reg.SEQ_RES]) := by
  refine ⟨_, congrArg Host.Outcome.next (State.seqCmd_taken hl (by simpa using hs)), ?_⟩
  rw [State.slotOf_seqResult]
  exact State.seqNote_spec (by decide)

theorem seqCommands_refused {r : Fin 16} : (s.rcpState r ≠ 2 → exec (.seqPause r) s = .next (s.seqResult r 4 11)) ∧
    (s.holdsToken = false → exec (.seqResume r) s = .next (s.seqResult r 6 11)) ∧
    (s.rcpState r = 0 → exec (.seqUnload r) s = .next (s.seqResult r 2 11) ∧ exec (.seqHold r) s = .next (s.seqResult r 5 11) ∧
      exec (.seqResume r) s = .next (s.seqResult r 6 11) ∧ exec (.seqAbort r) s = .next (s.seqResult r 7 11)) := by
  refine ⟨fun h => congrArg Host.Outcome.next (State.seqCmd_refused (by simpa using h)), fun h => if_pos (by simp [h]), fun h => ⟨?_, ?_, ?_, ?_⟩⟩
  · exact congrArg Host.Outcome.next (State.seqCmd_refused (by simp [h]))
  · exact congrArg Host.Outcome.next (State.seqCmd_refused (by simp [h]))
  · exact ite_eq_left_iff.mpr fun _ => congrArg Host.Outcome.next (State.seqCmd_refused (by simp [h]))
  · exact congrArg Host.Outcome.next (State.seqCmd_refused (by simp [h]))

/-! ## Start (R215) -/

/-- Whether another active recipe holds one of the crews. -/
theorem crewsTaken_iff {r : Fin 16} {c : Recipe} : ((List.range 16).any (fun q => q != r.val && s.rcpActive q && s.rcpCrews q &&& c.crews != 0) = true) ↔
    ∃ q, q < 16 ∧ q ≠ r.val ∧ s.rcpActive q = true ∧ s.rcpCrews q &&& c.crews ≠ 0 := by
  simp [and_assoc]

theorem seqStart_runs {r : Fin 16} {c : Recipe} {k : Nat} {u : State} (hk : k = s.fld F.SEQ_ARG_STEP) (hc : (s.slotOf r).recipe = some c)
    (hl : s.seqLoading r = false) (hs : s.rcpState r = 1 ∨ s.rcpState r = 6 ∨ s.rcpState r = 7) (ht : s.holdsToken = true)
    (hfree : ∀ q, q < 16 → q ≠ r.val → s.rcpActive q = true → s.rcpCrews q &&& c.crews = 0) (hn : k < c.normal)
    (hu : u = (s.seqResult r 3 0).setSlot r { SeqSlot.init with recipe := some c, start := some k, stroke := strokeOf (s.num (Reg.CT_LAST_CSEQ (leadCrew c.crews))) }) :
    exec (.seqStart r) s = .next ((((u.setNum (Reg.SEQ_R_STEP r) k).setNum (Reg.SEQ_R_COUNT r) 0).log 0x0712 0 (rcpDetail r k)).setRcp r 2 0) := by
  have hany : ¬(List.range 16).any (fun q => q != r.val && s.rcpActive q && s.rcpCrews q &&& c.crews != 0) = true := by
    rw [crewsTaken_iff]
    rintro ⟨q, hq, hne, hact, hand⟩
    exact hand (hfree q hq hne hact)
  have hcs : (s.seqResult r 3 0).num (Reg.CT_LAST_CSEQ (leadCrew c.crews)) = s.num (Reg.CT_LAST_CSEQ (leadCrew c.crews)) := by
    have := leadCrew_lt c.crews
    rw [State.seqResult_accepted]
    simp (disch := grind)
  subst hk hu
  have hin : ([1, 6, 7].contains (s.rcpState r)) = true := by simpa using hs
  simp only [exec, execSeqStart, hc, hl, hin, ht, Bool.not_true, Bool.or_false, Bool.false_eq_true, if_false, if_neg hany, if_neg (Nat.not_le.mpr hn), hcs]

theorem seqStart_notReady {r : Fin 16} (h : (s.slotOf r).recipe = none ∨ s.seqLoading r = true ∨ s.holdsToken = false ∨
    (s.rcpState r ≠ 1 ∧ s.rcpState r ≠ 6 ∧ s.rcpState r ≠ 7)) : exec (.seqStart r) s = .next (s.seqResult r 3 11) := by
  cases hc : (s.slotOf r).recipe with
  | none => simp only [exec, execSeqStart, hc]
  | some c =>
    have hcond : (s.seqLoading r || !([1, 6, 7].contains (s.rcpState r)) || !s.holdsToken) = true := by
      rcases h with h | h | h | h
      · simp [hc] at h
      · simp [h]
      · simp [h]
      · simp [h]
    simp only [exec, execSeqStart, hc, hcond, if_true]

theorem seqStart_refused {r : Fin 16} {c : Recipe} (hc : (s.slotOf r).recipe = some c) (hl : s.seqLoading r = false)
    (hs : s.rcpState r = 1 ∨ s.rcpState r = 6 ∨ s.rcpState r = 7) (ht : s.holdsToken = true) :
    (∀ q, q < 16 → q ≠ r.val → s.rcpActive q = true → s.rcpCrews q &&& c.crews ≠ 0 → exec (.seqStart r) s = .next (s.seqResult r 3 10)) ∧
    ((∀ q, q < 16 → q ≠ r.val → s.rcpActive q = true → s.rcpCrews q &&& c.crews = 0) → c.normal ≤ s.fld F.SEQ_ARG_STEP →
      exec (.seqStart r) s = .next (s.seqResult r 3 13)) := by
  have hin : ([1, 6, 7].contains (s.rcpState r)) = true := by simpa using hs
  refine ⟨fun q hq hne hact hand => ?_, fun hfree hn => ?_⟩
  · have hany := crewsTaken_iff.mpr ⟨q, hq, hne, hact, hand⟩
    simp only [exec, execSeqStart, hc, hl, hin, ht, Bool.not_true, Bool.or_false, Bool.false_eq_true, if_false, if_pos hany]
  · have hany : ¬(List.range 16).any (fun q => q != r.val && s.rcpActive q && s.rcpCrews q &&& c.crews != 0) = true := by
      rw [crewsTaken_iff]
      rintro ⟨q, hq, hne, hact, hand⟩
      exact hand (hfree q hq hne hact)
    simp only [exec, execSeqStart, hc, hl, hin, ht, Bool.not_true, Bool.or_false, Bool.false_eq_true, if_false, if_neg hany, if_pos hn]

/-! ## Program flags (R219) -/

theorem pflag_spec (v : Word) :
    Gives (.pflagSet false v) s (fun t => t.rd Reg.SEQ_PFLAG_LO = s.rd Reg.SEQ_PFLAG_LO ||| v ∧ SameMem s t ∧ RegsKept s t [Reg.SEQ_PFLAG_LO]) ∧
    Gives (.pflagSet true v) s (fun t => t.rd Reg.SEQ_PFLAG_HI = s.rd Reg.SEQ_PFLAG_HI ||| v ∧ SameMem s t ∧ RegsKept s t [Reg.SEQ_PFLAG_HI]) ∧
    Gives (.pflagClr false v) s (fun t => t.rd Reg.SEQ_PFLAG_LO = s.rd Reg.SEQ_PFLAG_LO &&& ~~~v ∧ SameMem s t ∧
      RegsKept s t [Reg.SEQ_PFLAG_LO]) ∧
    Gives (.pflagClr true v) s (fun t => t.rd Reg.SEQ_PFLAG_HI = s.rd Reg.SEQ_PFLAG_HI &&& ~~~v ∧ SameMem s t ∧
      RegsKept s t [Reg.SEQ_PFLAG_HI]) := by
  have hwr (a : Nat) (w : Word) : (s.wr a w).rd a = w ∧ SameMem s (s.wr a w) ∧ RegsKept s (s.wr a w) [a] :=
    ⟨State.rd_wr_self s a w, by simp [SameMem], by simp⟩
  exact ⟨⟨_, rfl, hwr _ _⟩, ⟨_, rfl, hwr _ _⟩, ⟨_, rfl, hwr _ _⟩, ⟨_, rfl, hwr _ _⟩⟩

end

/-- Settles O32: each command by its own lemma. -/
theorem sequencerCommands : Obligations.SequencerCommands := by
  unfold Obligations.SequencerCommands
  exact ⟨fun _ _ _ _ => State.seqResult_spec, fun _ _ => seqLoad_spec, fun _ => seqLoadDone_spec, fun _ _ _ _ => State.seqStore_spec,
    fun _ _ => seqUnload_runs, fun s r c hr => ⟨s.rcpShow_loaded r c, State.rcpShow_none hr⟩, fun _ _ _ _ _ => seqStart_runs,
    fun _ _ => seqStart_notReady, fun _ _ _ => seqStart_refused,
    fun _ _ hl => ⟨seqPause_runs hl, seqHold_runs hl, seqResume_runs hl, seqAbort_runs hl⟩, fun _ _ => seqCommands_refused, fun _ => pflag_spec⟩

end Sys2Proof.Machine


/-! PROOFS. Recipe steps, valve answers, group cuts and checkpoints (R214 to R230). -/

namespace Sys2Proof.Machine

section
variable {s : State}

/-! ## Stroke starts (R214) -/

theorem stepStroke_idle {r : Fin 16} (q : Word) (h : s.rcpActive r = false) : exec (.stepStroke r q) s = .next s := if_pos (by simp [h])

theorem State.rcpActive_of {r : Nat} (h : s.rcpState r = 2 ∨ s.rcpState r = 3 ∨ s.rcpState r = 4 ∨ s.rcpState r = 5) : s.rcpActive r = true := by
  unfold State.rcpActive activeState
  rcases h with h | h | h | h <;> rw [h] <;> rfl

theorem stepStroke_stopped {r : Fin 16} {q : Word} {u : State} (h : s.rcpState r = 3 ∨ s.rcpState r = 4)
    (hu : u = s.setSlot r { s.slotOf r with stroke := strokeOf q.toNat }) (hn : (s.slotOf r).next = none) :
    exec (.stepStroke r q) s = .next (u.seqRequests r q.toNat) := by
  have hact : s.rcpActive r = true := State.rcpActive_of (by tauto)
  have hrun : ¬(s.rcpState r = 2 ∨ s.rcpState r = 5) := by omega
  simp only [exec, execStepStroke, hact, Bool.not_true, Bool.false_eq_true, if_false, hn, hrun, false_and, hu]

theorem stepStroke_running {r : Fin 16} {q : Word} {u v : State} (h : s.rcpState r = 2 ∨ s.rcpState r = 5) (hs : (s.slotOf r).start = none)
    (hn : (s.slotOf r).next = none) (hu : u = s.setNum (Reg.SEQ_R_COUNT r) (s.rcpCount r + (strokeDiff (strokeOf q.toNat) (s.slotOf r).stroke).toNat))
    (hv : v = (u.setSlot r { u.slotOf r with stroke := strokeOf q.toNat }).noteCount r q.toNat) :
    exec (.stepStroke r q) s = .next (v.seqRequests r q.toNat) := by
  have hact : s.rcpActive r = true := State.rcpActive_of (by tauto)
  simp only [exec, execStepStroke, hact, Bool.not_true, Bool.false_eq_true, if_false, hn, hs, h, Option.isNone_none, Bool.not_false, and_self, if_true, hv, hu]

/-! ## Conditions (R215) -/

theorem stepConditionObserve_spec {r : Fin 16} {link : Nat} {tok : Token} {p : RStep} (hp : s.stepAt r (s.rcpStep r) = some p) (he : p.isEnd = true)
    (hi : s.inStep r = true) :
    (p.ckind = 1 → exec (.stepConditionObserve r link tok) s = .next (s.observe r p.nhold (s.pflag p.csrc == (p.op == 1)))) ∧
    (p.ckind ≠ 1 → tok.sig.toNat = p.csrc → 0 ≤ strokeDiff (strokeOf tok.cseq.toNat) (s.slotOf r).began → ∀ c u, s.check link 0 tok = (c, u) →
      exec (.stepConditionObserve r link tok) s = .next (u.observe r p.nhold (c.good && (c.st == 0 || c.st == 2 || c.st == 4) &&
        condHolds p.op c.value p.thresh))) := by
  refine ⟨fun hk => ?_, fun hk hsig hd c u hc => ?_⟩
  · simp only [exec, execStepConditionObserve, hp, he, hi, Bool.not_true, Bool.or_self, Bool.false_eq_true, if_false, hk, if_true]
  · have hcond : ¬(tok.sig.toNat ≠ p.csrc ∨ strokeDiff (strokeOf tok.cseq.toNat) (s.slotOf r).began < 0) := by
      rintro (h | h)
      · exact h hsig
      · omega
    simp only [exec, execStepConditionObserve, hp, he, hi, Bool.not_true, Bool.or_self, Bool.false_eq_true, if_false, if_neg hk, if_neg hcond, hc]

theorem State.slotOf_observe (s : State) (r n : Nat) (good : Bool) : (s.observe r n good).slotOf r =
    { s.slotOf r with run := if good then (s.slotOf r).run + 1 else 0, met := if decide (n ≤ if good then (s.slotOf r).run + 1 else 0) && (s.slotOf r).met.isNone && good then some (s.slotOf r).stroke else (s.slotOf r).met } :=
  State.slotOf_setSlot _ _ _

theorem State.observe_spec (s : State) (r n : Nat) : ((s.observe r n false).slotOf r).run = 0 ∧ ((s.observe r n false).slotOf r).met = (s.slotOf r).met ∧
    ((s.observe r n true).slotOf r).run = (s.slotOf r).run + 1 ∧
    ((s.slotOf r).met = none → n ≤ (s.slotOf r).run + 1 → ((s.observe r n true).slotOf r).met = some (s.slotOf r).stroke) ∧
    ((s.slotOf r).met = none → (s.slotOf r).run + 1 < n → ((s.observe r n true).slotOf r).met = none) ∧
    SameMem s (s.observe r n true) ∧ RegsKept s (s.observe r n true) [] := by
  rw [State.slotOf_observe, State.slotOf_observe]
  refine ⟨by simp, by simp, by simp, fun hm hn => by simp [hm, hn], fun hm hn => by simp [hm, Nat.not_le.mpr hn], fun _ => rfl, fun _ _ => rfl⟩

/-! ## Step catches (R217, R220) -/

theorem stepCatch_spec {r : Fin 16} : ((s.slotOf r).next = none → exec (.stepCatch r) s = .next s) ∧
    (∀ x, (s.slotOf r).next = some x → x.wait = false → exec (.stepCatch r) s = .next ((s.stepCatch r x).seqRequests r x.cseq)) ∧
    (∀ x y, (s.slotOf r).next = some x → x.wait = true → ((s.seqRefused r x 0 true).slotOf r).next = some y →
      exec (.stepCatch r) s = .next (((s.seqRefused r x 0 true).stepCatch r y).seqRequests r y.cseq)) := by
  refine ⟨fun h => ?_, fun x h hw => ?_, fun x y h hw hy => ?_⟩
  · simp only [exec, execStepCatch, h]
  · simp only [exec, execStepCatch, h, hw, Bool.false_eq_true, if_false, Option.getD_some]
  · simp only [exec, execStepCatch, h, hw, if_true, hy, Option.getD_some]

theorem State.stepCatch_begins {r k : Nat} {x : SeqNext} (hr : x.refused = none) (hs : x.restore = none) (hk : x.step = some k) :
    s.stepCatch r x = s.stepBegin r k x.cseq 0 true := by
  simp only [State.stepCatch, hr, hs, hk]

/-! ## Valve answers (R219, R220) -/

/-- A refusal of a submission that restores nothing leaves the mailbox's queue alone. -/
theorem State.mail_seqRefused {r reason : Nat} {x : SeqNext} (h : x.restore = none) : (s.seqRefused r x reason false).seq.mail = s.seq.mail := by
  have hstage : (s.unstage r x.cseq).seq = s.seq := fold_field State.seq (by simp) _ s
  simp [State.seqRefused, h, State.setSlot, hstage]

theorem vsetAnswer_spec {r : Fin 16} {ws : List Nat} {x : SeqNext} {u : State} (hm : s.seq.mail = [(r.val, ws)])
    (hf : (Tab.find s.pvm.resp 0).isSome = true) (hu : u = (s.mbDone 0).setSeq { s.seq with mail := [] }) (hx : (u.slotOf r).next = some x)
    (hw : x.wait = true) (hk : ws.headD 0 % 256 = 1) (hq : ws.getD 4 0 = x.cseq) (hs : x.sets = []) (hr : x.restore = none) :
    (u.num (Reg.PVM_MB_RSP 0 0) = 0 → exec .vsetAnswer s =
      .next ((u.setSlot r { u.slotOf r with next := some { x with wait := false } }).setFld (F.SEQ_R_STATE_ARMED r) 1)) ∧
    (u.num (Reg.PVM_MB_RSP 0 0) ≠ 0 → exec .vsetAnswer s = .next (u.seqRefused r x (u.num (Reg.PVM_MB_RSP 0 1) % 256) false)) := by
  obtain ⟨rsp, hrsp⟩ := Option.isSome_iff_exists.mp hf
  have hmail : u.seq.mail = [] := by rw [hu]; rfl
  refine ⟨fun h0 => ?_, fun h0 => ?_⟩
  · simp only [exec, execVsetAnswer, hrsp, hm, ← hu, hk, if_true, hx, hw, hq, hs, h0]
    simp [State.setSlot, hmail]
  · have hmail' := (State.mail_seqRefused (s := u) (r := r) (reason := u.num (Reg.PVM_MB_RSP 0 1) % 256) hr).trans hmail
    simp only [exec, execVsetAnswer, hrsp, hm, ← hu, hk, if_true, hx, hw, hq]
    simp [h0, hmail']

theorem vsetAnswer_none (h : Tab.find s.pvm.resp 0 = none) : exec .vsetAnswer s = .next s := by
  simp only [exec, execVsetAnswer, h]

/-! ## Cuts (R222, R225, R227) -/

theorem ckptPeriodicCut_spec {q : Word} {m : Nat} (hm : m = s.fld F.SEQ_CKPT_CFG_REF) :
    ((s.tabOf m).phase = .running → q.toNat = s.num (Reg.CT_LAST_CSEQ m) → cseqEntry q.toNat = 0 → s.ckptMultiple ≠ s.seq.multiple →
      exec (.ckptPeriodicCut q) s = .next ((s.setSeq { s.seq with multiple := s.ckptMultiple }).ckptCut m q.toNat false)) ∧
    ((s.tabOf m).phase ≠ .running ∨ q.toNat ≠ s.num (Reg.CT_LAST_CSEQ m) ∨ cseqEntry q.toNat ≠ 0 ∨ s.ckptMultiple = s.seq.multiple →
      exec (.ckptPeriodicCut q) s = .next s) := by
  subst hm
  refine ⟨fun hp hq he hn => if_neg ?_, fun h => if_pos h⟩
  rintro (h | h | h | h)
  · exact h hp
  · exact h hq
  · exact h he
  · exact hn h

theorem State.cutBuf_free {b : Nat} (h : s.cutBuf = (b, false)) : b < 2 ∧ ∀ c ∈ s.seq.cuts, c.buf ≠ b := by
  unfold State.cutBuf at h
  split at h
  next b' hb =>
    obtain ⟨rfl, -⟩ := Prod.mk.inj h
    refine ⟨?_, fun c hc hbuf => ?_⟩
    · have hmem := List.mem_of_find?_eq_some hb
      simp only [List.mem_cons, List.not_mem_nil, or_false] at hmem
      omega
    · have hfree := List.find?_some hb
      simp only [Bool.not_eq_true', List.any_eq_false, beq_iff_eq] at hfree
      exact hfree c hc hbuf
  next => split at h <;> cases h

/-! ## Writes of a checkpoint (R228, R230) -/

@[simp] theorem State.seq_copyMem (s : State) (a b n : Nat) : (s.copyMem a b n).seq = s.seq := rfl
@[simp] theorem State.seq_wrMem (s : State) (a n v : Nat) : (s.wrMem a n v).seq = s.seq := by
  induction n generalizing s a v with
  | zero => rfl
  | succ n ih => exact ih ..
@[simp] theorem State.seq_wrList (s : State) (a : Nat) (l : List Nat) : (s.wrList a l).seq = s.seq := by
  induction l generalizing s a with
  | nil => rfl
  | cons b l ih => exact ih ..

theorem ckptWriteDone_failed {c : Cut} {a : Nat} (hc : s.seq.cuts.find? (fun c => c.area.isSome) = some c) (ha : c.area = some a) :
    exec (.ckptWriteDone false) s = .next ((((((s.setSeq { s.seq with cuts := s.seq.cuts.filter (fun x => x.buf != c.buf) }).setFld
      F.SEQ_STATUS_CKPT_BUSY 0).setFld F.SEQ_STATUS_CKPT_FAIL 1).log 0x071B 0 (a + 1 * 2)).ckptStart)) := by
  simp only [exec, execCkptWriteDone, hc, ha, Option.getD_some, Bool.not_false, if_true]

theorem ckptWriteDone_written {c : Cut} (hc : s.seq.cuts.find? (fun c => c.area.isSome) = some c)
    (hd : c.dip = false ∨ s.flag F.RPC_SUP_STATUS_DIP = true) : Gives (.ckptWriteDone true) s (fun t => ∃ u : State, t = u.ckptStart ∧
      u.num Reg.SEQ_CKPT_LAST = (s.num Reg.SEQ_CKPT_LAST + 1) % 2 ^ 32 ∧ u.flag F.SEQ_STATUS_CKPT_DONE = true ∧
      u.flag F.SEQ_STATUS_CKPT_BUSY = false ∧ u.rdMem (fastAddr (c.area.getD 0) + 0xFC) 4 = 1 ∧
      u.seq.cuts = s.seq.cuts.filter (fun x => x.buf != c.buf) ∧
      u.seq.dip = (if c.dip then some (c.area.getD 0) else if s.seq.dip = some (c.area.getD 0) then none else s.seq.dip) ∧ RegsKept s u [Reg.SEQ_CKPT_LAST, Reg.SEQ_STATUS, Reg.EVL_LOST]) := by
  refine ⟨_, by simp only [exec, execCkptWriteDone, hc, Bool.not_true, Bool.false_eq_true, if_false]; rfl, _, congrArg State.ckptStart (if_neg ?_), ?_, ?_, ?_, ?_, ?_, ?_, ?_⟩
  · rcases hd with hd | hd <;> simp (disch := decide) [hd]
  · simp (disch := decide)
  · simp (disch := decide)
  · simp (disch := decide)
  · rw [rdMem_congr (s := State.wrMem _ (fastAddr (c.area.getD 0) + 0xFC) 4 1) (by simp; rfl), State.rdMem_wrMem_self]
    rfl
  · simp
  · simp
  · simp

theorem repSnapshotDone_spec {c : Cut} {a : Nat} (hc : s.seq.repCut = some c) (ha : c.area = some a) :
    Gives (.repSnapshotDone false) s (fun t => t.seq = { s.seq with repCut := none } ∧ t.flag F.SEQ_STATUS_REP_BUSY = false ∧
      t.flag F.SEQ_STATUS_CKPT_FAIL = true ∧ Logs s t 0x071B 0 (a + 2 * 2) ∧ SameMem s t ∧ RegsKept s t [Reg.SEQ_STATUS, Reg.EVL_LOST]) ∧
    Gives (.repSnapshotDone true) s (fun t => t.seq.repCut = none ∧ t.seq.repSeq = s.seq.repSeq + 1 ∧ t.seq.repLast = a ∧
      t.flag F.SEQ_STATUS_REP_BUSY = false ∧ t.rdMem (repAddr a + 0xFC) 4 = 1 ∧ RegsKept s t [Reg.SEQ_STATUS]) := by
  constructor
  · refine ⟨_, by simp only [exec, execRepSnapshotDone, hc, ha, Option.getD_some, Bool.not_false, if_true]; rfl, ?_⟩
    refine ⟨?_, ?_, ?_, logs_log _ _ _ (by simp), ?_, ?_⟩ <;> simp (disch := decide) [SameMem]
  · refine ⟨_, by simp only [exec, execRepSnapshotDone, hc, ha, Option.getD_some, Bool.not_true, Bool.false_eq_true, if_false]; rfl, ?_⟩
    generalize hu : List.foldl _ _ _ = u
    have hseq : u.seq = { s.seq with repCut := none } := by
      rw [← hu]
      refine (fold_field State.seq (fun t m => ?_) _ _).trans (by simp)
      split <;> rfl
    have hrd (x : Nat) : u.rd x = (s.setFld F.SEQ_STATUS_REP_BUSY 0).rd x := by
      rw [← hu]
      refine (fold_field (State.rd · x) (fun t m => ?_) _ _).trans rfl
      split <;> rfl
    refine ⟨?_, ?_, rfl, ?_, ?_, ?_⟩
    · simp [hseq]
    · simp [hseq]
    · simp [State.flag_congr (hrd _)]
    · rw [rdMem_congr (State.setSeq_mem _ _), State.rdMem_wrMem_self]
      rfl
    · have hu' : RegsKept s u [Reg.SEQ_STATUS] := fun x hx => (hrd x).trans (by simp (disch := grind))
      simpa using hu'

end

/-- Settles O33: each command by its own lemma. -/
theorem stepAndCheckpointCommands : Obligations.StepAndCheckpointCommands := by
  unfold Obligations.StepAndCheckpointCommands
  exact ⟨fun _ _ q => ⟨stepStroke_idle q, fun h _ => stepStroke_stopped h, fun h hs hn _ _ => stepStroke_running h hs hn⟩,
    fun _ _ _ _ _ => stepConditionObserve_spec, State.observe_spec, fun _ _ => stepCatch_spec, fun _ _ _ _ => State.stepCatch_begins,
    fun _ _ _ _ _ => vsetAnswer_spec, fun _ => vsetAnswer_none, fun _ _ => ⟨fun h => if_pos h, fun h => if_neg (by simp [h])⟩,
    fun _ _ _ => ckptPeriodicCut_spec, fun _ _ => State.cutBuf_free, fun _ _ hc => ⟨fun _ => ckptWriteDone_failed hc, ckptWriteDone_written hc⟩,
    fun _ _ _ => repSnapshotDone_spec, fun _ h => by simp only [exec, execRepSnapshotDone, h]⟩

end Sys2Proof.Machine


/-! PROOFS. Axis commands: the clause on GEAR_SET fails (R264). -/

namespace Sys2Proof.Machine

/-- Axis 0 geared to encoder 0x7F802, which the module does not have: its ENC_ACC_HI stands at the address of AX_0_GEAR_CFG, so that the PEND bit that
GEAR_SET writes is bit 36 of the master count, and the count meets M_SW = 2^36 at once. -/
def gearAliased : State :=
  (((State.reset.setFld (F.AX_STATE_STATE 0 0) 5).setNum (Reg.AX_GEAR_DEN 0 0) 1).setFld (F.AX_GEAR_MSW_HI_MSW 0 0) 0x10).setAxis 0
    { Axis.init with gear := some ⟨0x7F802, ⟨0, 1, 0, 0, 0⟩, none, none⟩ }

/-- The master count differs from M_SW, and still the staged ratio takes over in the same step: PEND is 0. -/
theorem gearAliased_switches : (gearAliased.axGearSet 0 0).flag (F.AX_GEAR_CFG_PEND 0 0) = false := by decide +kernel

/-- Refutes O34: GEAR_SET of an axis geared to an encoder whose count register stands where PEND does. -/
theorem not_axisCommands : ¬ Obligations.AxisCommands := by
  unfold Obligations.AxisCommands
  rintro ⟨-, -, -, -, -, -, -, -, -, -, -, hgear, -⟩
  obtain ⟨-, -, -, -, -, -, -, hset⟩ := hgear gearAliased 0 0 ⟨0x7F802, ⟨0, 1, 0, 0, 0⟩, none, none⟩ (by decide)
  obtain ⟨-, hstaged, -⟩ := hset _ _ _ rfl rfl rfl (by decide +kernel) (by decide +kernel) rfl (by decide +kernel) (by decide +kernel)
  obtain ⟨-, hpend, -⟩ := hstaged (by decide +kernel) (by decide +kernel) _ rfl
  exact absurd (gearAliased_switches.symm.trans hpend) (by decide)

end Sys2Proof.Machine


/-! PROOFS. Axis tasks, step stages, rest, tables that are missing, limits, gear ratios and references (R243 to R277). -/

namespace Sys2Proof.Machine

section
variable {s : State}

@[simp] theorem State.axisOf_setAxis (s : State) (a : Nat) (x : Axis) : (s.setAxis a x).axisOf a = x := by
  simp [State.axisOf, State.setAxis, Tab.get, Tab.find_put_self]

theorem State.axisOf_congr {s t : State} (h : t.axes = s.axes) (a : Nat) : t.axisOf a = s.axisOf a :=
  congrArg (fun l => Tab.get (fun _ => Axis.init) l a) h

/-! ## Axis tasks (R252) -/

theorem axisTask_spec {n : Fin 9} {x : Fin 512} {w a : Nat} (hi : s.issuedEntry n x = some w) (ha : s.axisOfTask n x = some a) :
    (s.ctxTarget n x = 1 → (s.entryOf n x w).done = false → s.inUse (.crew n) = true → s.engineFrozen n 2 = false →
      Gives (.axisTask n x) s (fun t => t = s.axisTask n x w a ∧ (t.entryOf n x w).done = true ∧ (t.entryOf n x w).confirmed = false)) ∧
    (s.engineFrozen n 2 = true → exec (.axisTask n x) s = .next s) := by
  refine ⟨fun ht hd hu hf => ⟨s.axisTask n x w a, ?_, rfl, ?_, ?_⟩, fun hf => ?_⟩
  · simp [exec, execAxisTask, hi, ha, ht, hd, hu, hf]
  · exact congrArg MEntry.done (entryOf_setEntry _ n x w _)
  · exact congrArg MEntry.confirmed (entryOf_setEntry _ n x w _)
  · simp [exec, execAxisTask, hi, ha, hf]

/-! ## Step stages (R243, R255) -/

theorem stepStageCycle_eq {a : Fin 32} {n : Nat} (ha : s.axCrew a = some n) (d : Bool) : exec (.stepStageCycle a d) s = .next (s.stageCycle n a d) := by
  simp only [exec, execStepStageCycle, ha]

theorem State.stageCycle_off {n a : Nat} (h : s.axState n a = 0) (d : Bool) : s.stageCycle n a d = s.setAxis a (s.stepTimes n a) := if_pos h

theorem State.stageCycle_differ {n a : Nat} (h : s.axState n a ≠ 0) :
    s.stageCycle n a true = ((s.axLog a 0x081A 0).axHaltFault n a 7 true 2).fatal (.stage n (a % 4)) 1 := (if_neg h).trans (if_pos rfl)

theorem State.stageCycle_still {n a : Nat} (h : s.axState n a = 1 ∨ s.axState n a = 3 ∨ s.axState n a = 7) :
    s.stageCycle n a false = (s.clearDone n a).stepPins n a := by
  rcases h with h | h | h <;> simp [State.stageCycle, h]

theorem State.stageCycle_moving {n a : Nat} (h : s.axState n a = 2) (hg : (s.axisOf a).gear = none) :
    s.stageCycle n a false = ((s.interpolate n a 5).clearDone n a).stepPins n a := by
  simp [State.stageCycle, h, hg]

theorem State.stageCycle_ramp {n a : Nat} {r : StopRec} (h : s.axState n a = 4) (hs : (s.axisOf a).stop = some r) (hr : (s.axisOf a).rest = false) :
    s.stageCycle n a false = ((s.rampCycle a r).clearDone n a).stepPins n a := by
  simp [State.stageCycle, h, hs, hr]

theorem State.stageCycle_geared {n a : Nat} {g : Gear} (h : s.axState n a = 5) (hg : (s.axisOf a).gear = some g) :
    s.stageCycle n a false = ((s.follow n a g).clearDone n a).stepPins n a := by
  simp [State.stageCycle, h, hg]

theorem State.stageCycle_homing {n a : Nat} {h : Home} (h6 : s.axState n a = 6) (hh : (s.axisOf a).home = some h) (hr : (s.axisOf a).rest = false) :
    s.stageCycle n a false = ((s.homeCycle n a h).clearDone n a).stepPins n a := by
  simp [State.stageCycle, h6, hh, hr]

/-- One cycle of the pins' times leaves the step count, the direction and the commanded position. -/
theorem State.stepTimes_kept (s : State) (n a : Nat) : (s.stepTimes n a).s = (s.axisOf a).s ∧ (s.stepTimes n a).dirHigh = (s.axisOf a).dirHigh ∧
    (s.stepTimes n a).cpos = (s.axisOf a).cpos ∧ (s.stepTimes n a).ofs = (s.axisOf a).ofs := by
  unfold State.stepTimes
  dsimp only
  split <;> exact ⟨rfl, rfl, rfl, rfl⟩

/-- The state with the largest lag seen, against which the pins of the cycle are set (R256). -/
def State.lagSeen (s : State) (n a lag : Nat) : State :=
  if s.fld (F.AX_QUEUE_LAG_MAX n (a % 4)) < lag then s.setFld (F.AX_QUEUE_LAG_MAX n (a % 4)) (min lag 0xFFFF) else s

theorem State.lagSeen_spec (s : State) (n a lag : Nat) : (s.lagSeen n a lag).fld (F.AX_CFG_LAG_MAX n (a % 4)) = s.fld (F.AX_CFG_LAG_MAX n (a % 4)) ∧
    (s.lagSeen n a lag).flag (F.AX_CFG_DIR_INV n (a % 4)) = s.flag (F.AX_CFG_DIR_INV n (a % 4)) ∧
    (s.lagSeen n a lag).fld (F.AX_STEP_T_PER_MIN n (a % 4)) = s.fld (F.AX_STEP_T_PER_MIN n (a % 4)) ∧
    (s.lagSeen n a lag).fld (F.AX_STEP_T_DIR_SETUP n (a % 4)) = s.fld (F.AX_STEP_T_DIR_SETUP n (a % 4)) ∧
    SameMem s (s.lagSeen n a lag) ∧ RegsKept s (s.lagSeen n a lag) [Reg.AX_QUEUE n (a % 4)] := by
  unfold State.lagSeen
  split
  · refine ⟨?_, ?_, ?_, ?_, ?_, ?_⟩ <;> simp (disch := grind) [SameMem]
  · exact ⟨rfl, rfl, rfl, rfl, fun _ => rfl, fun _ _ => rfl⟩

theorem State.stepPins_eq {n a lag : Nat} {want : Int} (hw : want = steps (s.axisOf a).cpos - (s.axisOf a).ofs)
    (hl : lag = (want - (s.axisOf a).s).natAbs) : s.stepPins n a =
    if lag = 0 then (s.lagSeen n a lag).setAxis a (s.stepTimes n a)
    else if (s.lagSeen n a lag).fld (F.AX_CFG_LAG_MAX n (a % 4)) < lag then
      (((s.lagSeen n a lag).setAxis a (s.stepTimes n a)).axHaltFault n a 6 false 4).axLog a 0x0815 lag
    else if (decide ((s.axisOf a).s < want) != (s.lagSeen n a lag).flag (F.AX_CFG_DIR_INV n (a % 4))) != (s.axisOf a).dirHigh then
      (s.lagSeen n a lag).setAxis a { s.stepTimes n a with dirHigh := decide ((s.axisOf a).s < want) != (s.lagSeen n a lag).flag (F.AX_CFG_DIR_INV n (a % 4)), dirT := 0 }
    else if (s.stepTimes n a).stepHigh && decide (6 * (s.lagSeen n a lag).fld (F.AX_STEP_T_PER_MIN n (a % 4)) ≤ (s.stepTimes n a).stepT) &&
        decide (6 * (s.lagSeen n a lag).fld (F.AX_STEP_T_DIR_SETUP n (a % 4)) ≤ (s.stepTimes n a).dirT) then
      (s.lagSeen n a lag).setAxis a { s.stepTimes n a with stepHigh := false, stepT := 0, s := if decide ((s.axisOf a).s < want) then (s.stepTimes n a).s + 1 else (s.stepTimes n a).s - 1 }
    else (s.lagSeen n a lag).setAxis a (s.stepTimes n a) := by
  obtain ⟨hs, hd, hc, ho⟩ := s.stepTimes_kept n a
  subst hl hw
  unfold State.stepPins State.lagSeen
  simp only [hs, hd, hc, ho]

theorem State.stepPins_spec {n a : Nat} {want : Int} (hn : n < 9) (ha : a < 32) (hw : want = steps (s.axisOf a).cpos - (s.axisOf a).ofs) :
    (want = (s.axisOf a).s → ((s.stepPins n a).axisOf a).s = (s.axisOf a).s ∧ ((s.stepPins n a).axisOf a).dirHigh = (s.axisOf a).dirHigh) ∧
    ((s.axisOf a).s < want → (want - (s.axisOf a).s).natAbs ≤ s.fld (F.AX_CFG_LAG_MAX n (a % 4)) →
      (s.axisOf a).dirHigh = !s.flag (F.AX_CFG_DIR_INV n (a % 4)) → (s.stepTimes n a).stepHigh = true →
      6 * s.fld (F.AX_STEP_T_PER_MIN n (a % 4)) ≤ (s.stepTimes n a).stepT →
      6 * s.fld (F.AX_STEP_T_DIR_SETUP n (a % 4)) ≤ (s.stepTimes n a).dirT →
      ((s.stepPins n a).axisOf a).s = (s.axisOf a).s + 1 ∧ ((s.stepPins n a).axisOf a).stepHigh = false ∧
      ((s.stepPins n a).axisOf a).stepT = 0 ∧ SameMem s (s.stepPins n a) ∧ RegsKept s (s.stepPins n a) [Reg.AX_QUEUE n (a % 4)]) ∧
    ((s.axisOf a).s < want → (want - (s.axisOf a).s).natAbs ≤ s.fld (F.AX_CFG_LAG_MAX n (a % 4)) →
      (s.axisOf a).dirHigh = s.flag (F.AX_CFG_DIR_INV n (a % 4)) → ((s.stepPins n a).axisOf a).s = (s.axisOf a).s ∧
      ((s.stepPins n a).axisOf a).dirHigh = !s.flag (F.AX_CFG_DIR_INV n (a % 4)) ∧ ((s.stepPins n a).axisOf a).dirT = 0) := by
  obtain ⟨hs, hd, -, -⟩ := s.stepTimes_kept n a
  generalize hl : (want - (s.axisOf a).s).natAbs = lag
  rw [State.stepPins_eq hw hl.symm]
  obtain ⟨hmax, hinv, hper, hset, hmem, hregs⟩ := s.lagSeen_spec n a lag
  refine ⟨fun heq => ?_, fun hlt hle hdir hhigh hpm hds => ?_, fun hlt hle hdir => ?_⟩
  · rw [if_pos (by omega), State.axisOf_setAxis]
    exact ⟨hs, hd⟩
  · rw [if_neg (by omega), if_neg (by omega), if_neg (by simp [hinv, hdir, hlt]), if_pos (by simp [hhigh, hper, hset, hpm, hds]), State.axisOf_setAxis]
    exact ⟨by simp [hlt, hs], rfl, rfl, fun b => hmem b, fun x hx => hregs x hx⟩
  · rw [if_neg (by omega), if_neg (by omega), if_pos (by cases hf : s.flag (F.AX_CFG_DIR_INV n (a % 4)) <;> simp [hinv, hdir, hlt, hf]), State.axisOf_setAxis]
    exact ⟨hs, by simp [hinv, hlt], rfl⟩

/-! ## Rest (R258, R259, R274) -/

theorem State.settle_eq (s : State) (a : Nat) : ∃ d : Int, s.settle a = (s.takeFresh 1).setAxis a
    { s.axisOf a with cpos := (s.axisOf a).stopPos + d, cvel := 0, stop := none } := ⟨_, rfl⟩

theorem axisAtRest_eq {a : Fin 32} {n : Nat} (ha : s.axCrew a = some n) : exec (.axisAtRest a) s = .next (s.axAtRest n a) := by
  simp only [exec, execAxisAtRest, ha]

theorem axisAtRest_early {a : Fin 32} (h : s.rampOver a = false) : exec (.axisAtRest a) s = .next s := by
  cases ha : s.axCrew a with
  | none => simp only [exec, execAxisAtRest, ha]
  | some n => rw [axisAtRest_eq ha, State.axAtRest, if_pos (by simp [h])]

theorem State.axState_motStatus (s : State) {n a : Nat} (b : Nat) : (s.motStatus n a b).axState n a = s.axState n a := by
  simp (disch := grind) [State.motStatus, State.axState]

theorem axisAtRest_spec {a : Fin 32} {n : Nat} {u : State} (ha : s.axCrew a = some n) (hn : n < 9) (ho : s.rampOver a = true)
    (hu : u = (s.motStatus n a 3).settle a) :
    (s.axState n a = 4 → (u.axisOf a).disable = true → Gives (.axisAtRest a) s (fun t => t.axState n a = 0 ∧
      t.axisOf a = { u.axisOf a with disable := false, fault := 0, rtTable := none } ∧ SameMem s t)) ∧
    (s.axState n a = 4 → (u.axisOf a).disable = false → (u.axisOf a).fault ≠ 0 → exec (.axisAtRest a) s =
      .next ((u.setAxis a { u.axisOf a with fault := 0, rtTable := none }).axFault n a (u.axisOf a).fault)) ∧
    (s.axState n a = 4 → (u.axisOf a).disable = false → (u.axisOf a).fault = 0 → (u.axisOf a).rtTable = none →
      Gives (.axisAtRest a) s (fun t => t.axState n a = 1 ∧ t.axisOf a = u.axisOf a ∧ (t.axisOf a).cvel = 0 ∧ (t.axisOf a).stop = none ∧
        t.rbit (Reg.MOT_STATUS n) (4 * (a % 4) + 3) = true ∧ SameMem s t ∧ RegsKept s t [Reg.AX_STATE n (a % 4), Reg.MOT_STATUS n])) ∧
    (∀ h, s.axState n a = 6 → (s.axisOf a).home = some h → h.phase = .refStop → exec (.axisAtRest a) s = .next (u.homePark n a h)) ∧
    (∀ h, s.axState n a = 6 → (s.axisOf a).home = some h → h.phase = .failStop → exec (.axisAtRest a) s =
      .next ((u.homeFail n a h.code).axFault n a 10)) := by
  have hst := s.axState_motStatus (n := n) (a := a) 3
  obtain ⟨d, hd'⟩ := (s.motStatus n a 3).settle_eq a
  have huax := State.axisOf_setAxis ((s.motStatus n a 3).takeFresh 1) a
    { (s.motStatus n a 3).axisOf a with cpos := ((s.motStatus n a 3).axisOf a).stopPos + d, cvel := 0, stop := none }
  rw [← hd', ← hu] at huax
  have hmem : SameMem s u := by
    rw [hu, hd']
    simp [SameMem, State.motStatus]
  refine ⟨fun h4 hd => ?_, fun h4 hd hf => ?_, fun h4 hd hf hr => ?_, fun h h6 hh hp => ?_, fun h h6 hh hp => ?_⟩
  · have hrest : s.axAtRest n a = (u.setAxis a { u.axisOf a with disable := false, fault := 0, rtTable := none }).setAxState n a 0 := by
      simp only [State.axAtRest, ho, Bool.not_true, Bool.false_eq_true, if_false, hst.trans h4, ← hu, hd, if_true]
    refine ⟨_, (axisAtRest_eq ha).trans (congrArg _ hrest), ?_, ?_, ?_⟩
    · simp (disch := grind) [State.setAxState, State.axState]
    · rw [State.axisOf_congr (s := u.setAxis a _) (by simp only [State.setAxState, State.setFld_axes]; rfl), State.axisOf_setAxis]
    · simpa [SameMem, State.setAxState] using hmem
  · simp only [axisAtRest_eq ha, State.axAtRest, ho, Bool.not_true, Bool.false_eq_true, if_false, hst.trans h4, ← hu, hd, if_pos hf]
  · have hrest : s.axAtRest n a = u.setAxState n a 1 := by
      simp only [State.axAtRest, ho, Bool.not_true, Bool.false_eq_true, if_false, hst.trans h4, ← hu, hd, if_neg (not_not_intro hf), hr]
    have hax : (u.setAxState n a 1).axisOf a = u.axisOf a := State.axisOf_congr (by simp [State.setAxState]) a
    refine ⟨_, (axisAtRest_eq ha).trans (congrArg _ hrest), ?_, hax, ?_, ?_, ?_, ?_, ?_⟩
    · simp (disch := grind) [State.setAxState, State.axState]
    · rw [hax, huax]
    · rw [hax, huax]
    · rw [hu, hd']
      simp (disch := grind) [State.setAxState, State.motStatus]
    · simpa [SameMem, State.setAxState] using hmem
    · rw [hu, hd']
      simp [State.setAxState, State.motStatus]
  · have hhome : ((s.motStatus n a 3).axisOf a).home = some h := hh
    simp only [axisAtRest_eq ha, State.axAtRest, ho, Bool.not_true, Bool.false_eq_true, if_false, hst.trans h6, hhome, hp, ← hu]
  · have hhome : ((s.motStatus n a 3).axisOf a).home = some h := hh
    simp only [axisAtRest_eq ha, State.axAtRest, ho, Bool.not_true, Bool.false_eq_true, if_false, hst.trans h6, hhome, hp, ← hu]

/-! ## A missing table (R259) -/

theorem rtTimeout_spec {a : Fin 32} {n k : Nat} (ha : s.axCrew a = some n) (hn : n < 9) (hk : (s.axisOf a).rtTable = some k) (h4 : s.axState n a = 4)
    (hr : (s.axisOf a).rest = true) :
    (s.mtReady n k = false → (s.axisOf a).restAt + 600 * s.fld (F.AX_RT_RT_WAIT_US n (a % 4)) ≤ s.time.cycle → Gives (.rtTimeout a) s (fun t => t.axState n a = 7 ∧ t.fld (F.AX_STATE_FAULT n (a % 4)) = 9 ∧
      t.flag (F.AX_STATE_RT_PEND n (a % 4)) = false ∧ t.axisOf a = { s.axisOf a with rtTable := none, rest := false } ∧
      t.rbit (Reg.MOT_STATUS n) (4 * (a % 4) + 1) = true ∧ Logs s t 0x0818 (0x5000 + a) k ∧ SameMem s t ∧
      RegsKept s t [Reg.AX_STATE n (a % 4), Reg.MOT_STATUS n, Reg.EVL_LOST])) ∧
    (s.mtReady n k = true ∨ s.time.cycle < (s.axisOf a).restAt + 600 * s.fld (F.AX_RT_RT_WAIT_US n (a % 4)) → exec (.rtTimeout a) s = .next s) := by
  refine ⟨fun hm ht => ?_, fun h => ?_⟩
  · have hrun : exec (.rtTimeout a) s = .next ((((s.setAxis a { s.axisOf a with rtTable := none, rest := false }).setFld
        (F.AX_STATE_RT_PEND n (a % 4)) 0).axFault n a 9).axLog a 0x0818 k) := by
      simp only [exec, execRtTimeout, ha, hk]
      exact if_pos (by simp [h4, hr, hm, ht])
    refine ⟨_, hrun, ?_⟩
    refine ⟨?_, ?_, ?_, ?_, ?_, logs_log _ _ _ (by simp [State.axFault, State.motStatus, State.setAxState]), ?_, ?_⟩
    · simp (disch := grind) [State.axFault, State.axLog, State.motStatus, State.setAxState, State.axState]
    · simp (disch := grind) [State.axFault, State.axLog, State.motStatus, State.setAxState]
    · simp (disch := grind) [State.axFault, State.axLog, State.motStatus, State.setAxState]
    · rw [State.axisOf_congr (s := s.setAxis a _) (by simp [State.axFault, State.axLog, State.motStatus, State.setAxState]; rfl), State.axisOf_setAxis]
    · simp (disch := grind) [State.axFault, State.axLog, State.motStatus, State.setAxState]
    · simp [State.axFault, State.axLog, State.motStatus, State.setAxState, SameMem]
    · simp [State.axFault, State.axLog, State.motStatus, State.setAxState]
  · simp only [exec, execRtTimeout, ha, hk]
    refine if_neg ?_
    rcases h with h | h
    · simp [h]
    · simp [Nat.not_le.mpr h]

/-! ## Hardware limits (R262, R277) -/

theorem hwLimitActive_spec {a : Fin 32} {n : Nat} {pos : Bool} (ha : s.axCrew a = some n) (hc : (s.axisOf a).clear = none)
    (hlim : (if pos then s.limPos n a else s.limNeg n a) = some true) :
    ((if pos then 0 < (s.axisOf a).cvel else (s.axisOf a).cvel < 0) →
      (s.axState n a = 2 ∨ s.axState n a = 3 ∨ s.axState n a = 4 ∨ s.axState n a = 5 →
        exec (.hwLimitActive a pos) s = .next ((s.beginStop n a true 4).axLog a 0x0814 (b2n pos))) ∧
      (∀ h, s.axState n a = 6 → (s.axisOf a).home = some h → h.mode ≠ 2 → h.mode ≠ 3 →
        exec (.hwLimitActive a pos) s = .next (s.homeStop n a { h with code := 1 } .failStop))) ∧
    ((s.axisOf a).cvel = 0 → exec (.hwLimitActive a pos) s = .next s) := by
  have hrun : exec (.hwLimitActive a pos) s = .next (s.hwLimit n a pos) := by simp only [exec, execHwLimitActive, ha]
  refine ⟨fun hv => ⟨fun hst => ?_, fun h h6 hh h2 h3 => ?_⟩, fun hv => ?_⟩
  · rw [hrun, State.hwLimit, hc]
    rcases hst with hst | hst | hst | hst <;> cases pos <;> simp_all [axMoving]
  · rw [hrun, State.hwLimit, hc]
    cases pos <;> simp_all
  · rw [hrun, State.hwLimit, if_pos (by cases pos <;> simp [hv])]

/-! ## Gear ratios (R264) -/

theorem gearSwitch_spec {a : Fin 32} {n : Nat} {g : Gear} {num : Int} {den : Nat} {sw : Int} {b : Nat} (ha : s.axCrew a = some n)
    (hg : (s.axisOf a).gear = some g) : (g.pend = some (num, den, sw, b) → s.encCount g.enc = sw → Gives (.gearSwitch a) s (fun t =>
      t.axisOf a = { s.axisOf a with gear := some (g.switch num den sw b) } ∧ t.flag (F.AX_GEAR_CFG_PEND n (a % 4)) = false ∧
      SameMem s t ∧ RegsKept s t [Reg.AX_GEAR_CFG n (a % 4)])) ∧ (g.pend = some (num, den, sw, b) → s.encCount g.enc ≠ sw → exec (.gearSwitch a) s = .next s) ∧
    (g.pend = none → exec (.gearSwitch a) s = .next s) := by
  refine ⟨fun hp hm => ?_, fun hp hm => ?_, fun hp => ?_⟩
  · refine ⟨_, by simp only [exec, execGearSwitch, ha, State.gearSwitch, hg, hp, if_pos hm]; rfl, ?_, ?_, ?_, ?_⟩
    · rw [State.axisOf_congr (State.setFld_axes _ _ _), State.axisOf_setAxis]
    · simp (disch := grind)
    · simp [SameMem]
    · simp
  · simp only [exec, execGearSwitch, ha, State.gearSwitch, hg, hp, if_neg hm]
  · simp only [exec, execGearSwitch, ha, State.gearSwitch, hg, hp]

/-- A ratio that takes over at M_SW leaves the positions before it. -/
theorem Gear.pos_switch_before {g : Gear} {num : Int} {den : Nat} {sw : Int} (h : g.prev = none) {m : Int} (hm : m < sw) :
    (g.switch num den sw 0).pos m = g.cur.pos m := by
  simp only [Gear.switch, h, Gear.pos]
  exact if_pos (by omega)

/-! ## References (R274, R275) -/

theorem homeReferenceEdge_spec {a : Fin 32} {n : Nat} {h : Home} (ha : s.axCrew a = some n) (hh : (s.axisOf a).home = some h) :
    (∀ p, p = (((s.axisOf a).latch.map Prod.fst).getD (s.axisOf a).cpos) → h.phase = .search → h.mode ≤ 3 → s.homeRef n a h.mode = some true →
      (s.axisOf a).clear = none → exec (.homeReferenceEdge a false) s =
      .next ((s.setAxis a { s.axisOf a with clear := some (h.mode, p) }).homeStop n a { h with pref := some p } .refStop)) ∧
    (h.phase = .search → h.mode = 4 ∨ h.mode = 5 → s.homeRef n a h.mode = some true → (s.axisOf a).clear = none → Gives (.homeReferenceEdge a false) s (fun t =>
      (t.axisOf a).home = some { h with phase := .index, mark := some (((s.axisOf a).latch.map Prod.fst).getD (s.axisOf a).cpos) } ∧ SameMem s t ∧
      RegsKept s t [])) ∧
    (h.phase = .index → exec (.homeReferenceEdge a true) s = .next ((s.setAxis a { s.axisOf a with
      clear := some (h.mode, (s.axisOf a).cpos) }).homeStop n a { h with pref := some (s.axisOf a).cpos } .refStop)) ∧
    (h.phase = .search → s.homeRef n a h.mode ≠ some true ∨ (s.axisOf a).clear.isSome = true → exec (.homeReferenceEdge a false) s = .next s) := by
  have hrun (i : Bool) : exec (.homeReferenceEdge a i) s = .next (s.homeEdge n a i) := by simp only [exec, execHomeReferenceEdge, ha]
  refine ⟨fun p hp hs hm hr hc => ?_, fun hs hm hr hc => ?_, fun hi => ?_, fun hs hno => ?_⟩
  · rw [hrun, hp]
    simp only [State.homeEdge, hh, hs, hr, hc]
    simp [show ¬(h.mode = 4 ∨ h.mode = 5) by omega, hm]
  · have hedge : s.homeEdge n a false = s.setAxis a { s.axisOf a with home := some { h with phase := .index, mark := some (((s.axisOf a).latch.map Prod.fst).getD (s.axisOf a).cpos) } } := by
      simp only [State.homeEdge, hh, hs, hr, hc]
      simp [hm]
    exact ⟨_, (hrun false).trans (congrArg _ hedge), congrArg Axis.home (s.axisOf_setAxis a _), fun _ => rfl, fun _ _ => rfl⟩
  · rw [hrun]
    simp only [State.homeEdge, hh, hi]
  · rw [hrun]
    simp only [State.homeEdge, hh, hs, if_pos hno]

end

/-- Settles O35: each command by its own lemma. -/
theorem axisMotionCommands : Obligations.AxisMotionCommands := by
  unfold Obligations.AxisMotionCommands
  exact ⟨fun _ _ _ _ _ => axisTask_spec,
    fun _ _ _ d ha _ => ⟨fun h => (stepStageCycle_eq ha d).trans (congrArg _ (State.stageCycle_off h d)),
      fun h => (stepStageCycle_eq ha true).trans (congrArg _ (State.stageCycle_differ h)),
      fun h => (stepStageCycle_eq ha false).trans (congrArg _ (State.stageCycle_still h)),
      fun h hg => (stepStageCycle_eq ha false).trans (congrArg _ (State.stageCycle_moving h hg)),
      fun _ h hs hr => (stepStageCycle_eq ha false).trans (congrArg _ (State.stageCycle_ramp h hs hr)),
      fun _ h hg => (stepStageCycle_eq ha false).trans (congrArg _ (State.stageCycle_geared h hg)),
      fun _ h hh hr => (stepStageCycle_eq ha false).trans (congrArg _ (State.stageCycle_homing h hh hr))⟩,
    fun _ _ _ _ => State.stepPins_spec, fun _ _ _ _ => axisAtRest_spec, fun _ _ => axisAtRest_early, fun _ _ _ _ => rtTimeout_spec,
    fun _ _ _ _ => hwLimitActive_spec, fun _ _ _ _ _ _ _ _ ha _ => gearSwitch_spec ha, fun _ _ _ _ hg _ => Gear.pos_switch_before hg,
    fun _ _ _ _ => homeReferenceEdge_spec⟩

end Sys2Proof.Machine


/-! PROOFS. Encoders: the clause on the accumulator fails (R264, R267). -/

namespace Sys2Proof.Machine

/-- Axis 0, on crew 0, is geared to ENC_0 with a staged ratio that takes over at count 1. -/
def gearStaged : State :=
  ((State.reset.setFld ⟨Reg.IML_CREWMAP, 0, 4⟩ 0).setFld (F.AX_GEAR_CFG_PEND 0 0) 1).setAxis 0
    { Axis.init with gear := some ⟨0, ⟨0, 1, 0, 0, 0⟩, none, some (1, 1, 1, 0)⟩ }

/-- The count that reaches M_SW clears PEND of the axis's AX_GEAR_CFG, a register the clause says is kept. -/
theorem gearStaged_switches : (gearStaged.encAdd 0 1).rd (Reg.AX_GEAR_CFG 0 0) ≠ gearStaged.rd (Reg.AX_GEAR_CFG 0 0) := by decide +kernel

/-- Refutes O36: an encoder's count that reaches the M_SW of a geared axis also writes that axis's PEND. -/
theorem not_encoderCommands : ¬ Obligations.EncoderCommands := by
  unfold Obligations.EncoderCommands
  rintro ⟨-, -, hadd, -⟩
  obtain ⟨-, -, hregs⟩ := hadd gearStaged 0 1 (by decide) (by decide +kernel) (by decide +kernel)
  exact gearStaged_switches (hregs _ (by decide))

end Sys2Proof.Machine


/-! PROOFS. The record engine: rows, blocks, signatures and datagrams (R287 to R304). -/

namespace Sys2Proof.Machine

section
variable {s : State}

@[simp] theorem State.recCrew_setRecCrew (s : State) (m : Nat) (c : RecCrew) : (s.setRecCrew m c).recCrew m = c := by
  simp [State.recCrew, State.setRecCrew, Tab.get, Tab.find_put_self]
theorem State.recCrew_congr {s t : State} (h : t.rce = s.rce) (m : Nat) : t.recCrew m = s.recCrew m := by
  unfold State.recCrew; rw [h]

/-! ## Tokens and catches (R287, R288) -/

/-- A token whose tag holds, of a link in use and with a stated status, is taken as it is. -/
theorem State.check_ok {link : Nat} {t : Token} (subst : Word) (ht : t.ok = true) (hl : s.linkRetired link = false) (hs : stReserved t.st = false) :
    s.check link subst t = (⟨t.value, t.st, true⟩, s) := by
  simp [State.check, ht, hl, hs]

@[simp] theorem mkToken_sig (v : Word) (sig : BitVec 12) (st : BitVec 4) (q : Nat) : (mkToken v sig st q).sig = sig := rfl

theorem rceToken_unselected {link : Nat} {t : Token} (h : Tab.find s.rce.cfg.sels t.sig.toNat = none) : exec (.rceToken link t) s = .next s := by
  simp only [exec, execRceToken, State.rceToken, h]

theorem rceToken_late {link : Nat} {t : Token} {e : RecSel} {c : Checked} {u : State} (h : Tab.find s.rce.cfg.sels t.sig.toNat = some e)
    (hc : s.check link e.subst t = (c, u)) (hg : c.good = true) (hq : u.rowClosed e.crew t.cseq.toNat = true) :
    exec (.rceToken link t) s = .next (u.rceLate t.sig.toNat t.cseq.toNat) := by
  simp only [exec, execRceToken, State.rceToken, h, hc, hg, if_true, hq, Bool.true_or, Bool.true_and]
  split <;> rfl

theorem rceToken_stored {link : Nat} {t : Token} {e : RecSel} {r : State} (h : Tab.find s.rce.cfg.sels t.sig.toNat = some e)
    (ht : t.ok = true) (hl : s.linkRetired link = false) (hs : stReserved t.st = false) (hq : s.rowClosed e.crew t.cseq.toNat = false)
    (hd : ∀ x ∈ (s.recCrew e.crew).rows, x.cseq = t.cseq.toNat → ∀ y ∈ x.toks, y.sig ≠ t.sig) (hr : r = s.ensureRow e.crew t.cseq.toNat) :
    exec (.rceToken link t) s = .next (((List.range 128).foldl (fun u k => u.trgToken k t)
      ((r.setRecCrew e.crew { r.recCrew e.crew with rows := (r.recCrew e.crew).rows.map (fun x =>
        if x.cseq = t.cseq.toNat then { x with toks := insTok t x.toks } else x) }).keepTok t)).envTokens t) := by
  have hdup : ((s.recCrew e.crew).rows.find? (fun r => r.cseq == t.cseq.toNat)).any (fun r => r.toks.any (fun x => x.sig == t.sig)) = false := by
    rw [Option.any_eq_false]
    intro x hx
    rw [List.any_eq_false]
    intro y hy
    simpa using hd x (List.mem_of_find?_eq_some hx) (by simpa using List.find?_some hx) y hy
  simp only [exec, execRceToken, State.rceToken, h, State.check_ok e.subst ht hl hs, if_true, beq_self_eq_true, Bool.and_self, hq, hdup,
    Bool.or_self, Bool.false_eq_true, if_false, hr, beq_iff_eq]

theorem State.rceLate_spec (s : State) (sig q : Nat) : (s.rceLate sig q).num Reg.RCE_LATE = satAdd 0xFFFFFFFF (s.num Reg.RCE_LATE) 1 ∧
    (s.rceLate sig q).flag F.RCE_STATUS_LATE = true ∧ SameMem s (s.rceLate sig q) ∧ (s.rceLate sig q).rce.chain = s.rce.chain := by
  unfold State.rceLate State.logPerSecond
  split <;> refine ⟨?_, ?_, ?_, ?_⟩ <;> simp (disch := decide) [SameMem, F.RCE_STATUS_LATE]

theorem mem_insRow {r x : OpenRow} {l : List OpenRow} (h : r ∈ l) : r ∈ insRow x l := by
  induction l with
  | nil => cases h
  | cons y l ih =>
    unfold insRow
    split
    · exact List.mem_cons_of_mem _ h
    · rcases List.mem_cons.mp h with rfl | h
      · exact List.mem_cons_self
      · exact List.mem_cons_of_mem _ (ih h)

theorem State.mem_rows_ensureRow (s : State) (m q : Nat) {r : OpenRow} (h : r ∈ (s.recCrew m).rows) : r ∈ ((s.ensureRow m q).recCrew m).rows := by
  unfold State.ensureRow
  dsimp only
  split
  · exact h
  · rw [State.recCrew_setRecCrew]
    exact mem_insRow h

theorem State.rceCatch_closes (s : State) (m q : Nat) (t : Stamp) {r : OpenRow} (h : r ∈ (s.recCrew m).rows) :
    (if r.due = none ∧ 64 * (s.fld (F.RCE_CREW_ROW_LAG m) : Int) ≤ seqDiff q r.cseq then { r with due := some s.time.cycle } else r) ∈
      ((s.rceCatch m q t).recCrew m).rows := by
  have hmem (c : RecCrew) (hc : c.rows = (s.recCrew m).rows.map (fun r => if r.due.isNone && s.closes m q r.cseq then { r with due := some s.time.cycle } else r)) :
      (if r.due = none ∧ 64 * (s.fld (F.RCE_CREW_ROW_LAG m) : Int) ≤ seqDiff q r.cseq then { r with due := some s.time.cycle } else r) ∈
        ((s.setRecCrew m c).recCrew m).rows := by
    rw [State.recCrew_setRecCrew, hc]
    refine List.mem_map.mpr ⟨r, h, ?_⟩
    simp [State.closes]
  unfold State.rceCatch
  dsimp only
  split
  · exact hmem _ rfl
  · exact State.mem_rows_ensureRow _ m q (hmem _ rfl)

/-! ## Rows that close (R287, R290) -/

theorem rowClose_none {m : Fin 8} (bad : List Nat) (h : ∀ x ∈ s.dueRows, x.2.1 ≠ m.val) : exec (.rowClose m bad) s = .next s := by
  have htake : s.dueRows.takeWhile (fun x => x.2.1 != m.val) = s.dueRows := List.takeWhile_eq_self_iff.mpr fun x hx => by simpa using h x hx
  refine if_neg ?_
  rw [htake]
  exact lt_irrefl _

theorem rowClose_upTo {m : Fin 8} (bad : List Nat) {pre post : List (Nat × Nat × OpenRow)} {d : Nat} {row : OpenRow}
    (h : s.dueRows = pre ++ (d, m.val, row) :: post) (hp : ∀ x ∈ pre, x.2.1 ≠ m.val) : exec (.rowClose m bad) s =
      .next ((pre ++ [(d, m.val, row)]).foldl (fun s x => s.closeRow x.2.1 x.2.2 bad) s) := by
  have htake : s.dueRows.takeWhile (fun x => x.2.1 != m.val) = pre := by
    rw [h, List.takeWhile_append_of_pos fun x hx => by simpa using hp x hx]
    simp
  have hfirst : s.dueRows.take (pre.length + 1) = pre ++ [(d, m.val, row)] := by
    rw [h, List.take_length_add_append]
    simp
  refine (if_pos ?_).trans ?_
  · rw [htake, h]
    simp
  · rw [htake, hfirst]

/-! ## Recording and blocks (R297 to R300) -/

theorem recordStart_running (h : s.flag F.RCE_CTRL_RUN = true) : Gives .recordStart s (fun t => t.flag F.RCE_CTRL_RUN = true ∧ t.rce = s.rce ∧
    SameMem s t ∧ RegsKept s t [Reg.RCE_CTRL]) := by
  refine ⟨s.setFld F.RCE_CTRL_RUN 1, ?_, ?_⟩
  · simp only [exec, execRecordStart, State.recRun, h, if_true]
  · refine ⟨?_, ?_, ?_, ?_⟩ <;> simp (disch := decide) [SameMem, F.RCE_CTRL_RUN]

theorem recordStart_starts (h : s.flag F.RCE_CTRL_RUN = false) (hc : s.rce.chain = none) :
    exec .recordStart s = .next (s.setFld F.RCE_CTRL_RUN 1).recStart := by
  simp only [exec, execRecordStart, State.recRun, h, State.setFld_rce, hc, Bool.false_eq_true, if_false]

theorem recordStop_noChain (h : s.rce.chain = none) : Gives .recordStop s (fun t => t.flag F.RCE_CTRL_RUN = false ∧ t.rce = s.rce ∧ SameMem s t ∧
    RegsKept s t [Reg.RCE_CTRL]) := by
  refine ⟨s.setFld F.RCE_CTRL_RUN 0, ?_, ?_⟩
  · simp only [exec, execRecordStop, State.recStop, State.setFld_rce, h]
  · refine ⟨?_, ?_, ?_, ?_⟩ <;> simp (disch := decide) [SameMem, F.RCE_CTRL_RUN]

theorem State.stopCheck_ended {c : Chain} (h : s.rce.chain = some c) (hs : c.stop = some []) :
    s.stopCheck = if c.isSeal then s else s.setRce { s.rce with chain := some { c with due := true } } := by
  unfold State.stopCheck
  rw [h]
  cases hi : c.isSeal <;> simp [hs, hi]

theorem recordStop_noRows {c : Chain} (h : s.rce.chain = some c) (hs : c.stop = none) (hr : ∀ m < 8, (s.recCrew m).rows = []) :
    Gives .recordStop s (fun t => t.flag F.RCE_CTRL_RUN = false ∧ t.rce.chain = some { c with stop := some [], due := c.due || !c.isSeal } ∧
      SameMem s t ∧ RegsKept s t [Reg.RCE_CTRL]) := by
  have hrows : (List.range 8).flatMap (fun m => (((s.setFld F.RCE_CTRL_RUN 0).recCrew m).rows.map (fun r => (m, r.cseq)))) = [] := by
    rw [List.flatMap_eq_nil_iff]
    intro m hm
    rw [State.recCrew_congr (s := s) (by simp), hr m (List.mem_range.mp hm)]
    rfl
  refine ⟨((s.setFld F.RCE_CTRL_RUN 0).setRce { s.rce with chain := some { c with stop := some [] } }).stopCheck, ?_, ?_⟩
  · simp only [exec, execRecordStop, State.recStop, State.setFld_rce, h, hs, Option.isSome_none, Bool.false_eq_true, if_false, hrows]
  · rw [State.stopCheck_ended (c := { c with stop := some [] }) (by simp) rfl]
    cases hi : c.isSeal <;> refine ⟨?_, ?_, ?_, ?_⟩ <;> simp (disch := decide) [SameMem, F.RCE_CTRL_RUN]

theorem blockClose_spec {c : Chain} (h : s.rce.chain = some c) : exec .blockClose s = .next (if c.due && s.blockReady c then s.closeBlock c else s) := by
  simp only [exec, execBlockClose, h]

theorem blockTimeout_spec {c : Chain} (h : s.rce.chain = some c) : exec .blockTimeout s =
    if c.nrows = 0 ∨ s.time.cycle < c.since + 600000 * s.fld F.RCE_BLOCK_MS_BLOCK_MS then .next s
    else if s.blockReady c then .next (s.closeBlock { c with due := true })
    else .next (s.setRce { s.rce with chain := some { c with due := true } }) := by
  simp only [exec, execBlockTimeout, h]

theorem blockClose_blockTimeout_spec {c : Chain} (h : s.rce.chain = some c) :
    (c.due = true → s.blockReady c = true → exec .blockClose s = .next (s.closeBlock c)) ∧
    (c.due = false → exec .blockClose s = .next s) ∧ (s.blockReady c = false → exec .blockClose s = .next s) ∧
    (c.nrows = 0 ∨ s.time.cycle < c.since + 600000 * s.fld F.RCE_BLOCK_MS_BLOCK_MS → exec .blockTimeout s = .next s) ∧
    (c.nrows ≠ 0 → c.since + 600000 * s.fld F.RCE_BLOCK_MS_BLOCK_MS ≤ s.time.cycle → s.blockReady c = true → exec .blockTimeout s = .next (s.closeBlock { c with due := true })) ∧
    (c.nrows ≠ 0 → c.since + 600000 * s.fld F.RCE_BLOCK_MS_BLOCK_MS ≤ s.time.cycle → s.blockReady c = false → Gives .blockTimeout s (fun t => t.rce.chain = some { c with due := true } ∧ SameMem s t ∧
      RegsKept s t [])) := by
  unfold Gives
  rw [blockClose_spec h, blockTimeout_spec h]
  refine ⟨fun hd hr => by rw [hd, hr]; rfl, fun hd => by rw [hd]; rfl, fun hr => by rw [hr, Bool.and_false]; rfl, fun he => if_pos he,
    fun hn ht hr => ?_, fun hn ht hr => ?_⟩
  · rw [if_neg (by omega), if_pos hr]
  · rw [if_neg (by omega), if_neg (by simp [hr])]
    exact ⟨_, rfl, by simp, by simp [SameMem], by simp⟩

@[simp] theorem State.rce_wrList (s : State) (a : Nat) (l : List Nat) : (s.wrList a l).rce = s.rce := by
  induction l generalizing s a with
  | nil => rfl
  | cons v l ih => exact ih ..
@[simp] theorem State.quiet_writeHeader (s : State) (c : Chain) : Quiet (s.writeHeader c) s := by
  unfold State.writeHeader
  exact .of_eq (fun a => by rw [rd_wrList, rd_wrList]) (by rw [evl_wrList, evl_wrList]) (by rw [time_wrList, time_wrList])
@[simp] theorem State.rce_writeHeader (s : State) (c : Chain) : (s.writeHeader c).rce = s.rce := by simp [State.writeHeader]

@[simp] theorem State.rce_syncExport (s : State) : s.syncExport.rce = s.rce := by
  unfold State.syncExport
  dsimp only
  split
  · simp
  · split <;> simp
@[simp] theorem State.rdByte_syncExport (s : State) (b : Nat) : s.syncExport.rdByte b = s.rdByte b := by
  unfold State.syncExport
  dsimp only
  split
  · simp
  · split <;> simp
@[simp] theorem State.wire_syncExport (s : State) : s.syncExport.wire = s.wire := by
  unfold State.syncExport
  dsimp only
  split
  · simp
  · split <;> simp
theorem State.syncExport_regsKept (s : State) : RegsKept s s.syncExport [Reg.RCE_STATUS, Reg.RCE_EXP_SLOT] := by
  unfold State.syncExport
  dsimp only
  split
  · simp (disch := decide) [F.RCE_STATUS_EXPORTING, F.RCE_EXP_SLOT_SLOT]
  · split <;> simp (disch := decide) [F.RCE_STATUS_EXPORTING, F.RCE_EXP_SLOT_SLOT]
/-- Of RCE_STATUS a datagram shows in EXPORTING only. -/
theorem State.flag_syncExport (s : State) {f : Fld} (hf : f.addr = Reg.RCE_STATUS)
    (h : F.RCE_STATUS_EXPORTING.lo + F.RCE_STATUS_EXPORTING.width ≤ f.lo ∨ f.lo + f.width ≤ F.RCE_STATUS_EXPORTING.lo) : s.syncExport.flag f = s.flag f := by
  have hne : f.addr ≠ F.RCE_EXP_SLOT_SLOT.addr := by rw [hf]; decide
  have hfirst (v : Nat) : (s.setFld F.RCE_STATUS_EXPORTING v).flag f = s.flag f := State.flag_setFld_apart _ _ (by decide) h
  unfold State.syncExport
  dsimp only
  split
  · rw [(State.regsBut_setFld _ _ _).2.1 f hne, hfirst]
  · split
    · rw [(State.regsBut_setFld _ _ _).2.1 f hne, hfirst]
    · exact hfirst _

theorem State.closeBlock_seal {c : Chain} (h : s.rce.closed = []) (hi : c.isSeal = true) (hr : s.flag F.RCE_CTRL_RUN = false) :
    ∃ b, b.id = c.id ∧ b.blkseq = c.blkseq ∧ b.slot = c.slot ∧ b.hash = none ∧ (s.closeBlock c).rce.chain = none ∧
      (s.closeBlock c).rce.closed = [b] ∧ (s.closeBlock c).flag F.RCE_STATUS_RUNNING = false ∧ (s.closeBlock c).flag F.RCE_STATUS_RUN_CHG = true := by
  refine ⟨⟨c.id, c.blkseq, c.slot, none, 0⟩, rfl, rfl, rfl, rfl, ?_⟩
  have hctrl (t : State) (v w x : Nat) (ht : t.flag F.RCE_CTRL_RUN = false) : ((((t.setFld F.RCE_STATUS_RUNNING v).setFld F.RCE_STATUS_RUN_CHG w).log 0x0911 0 x).flag
      F.RCE_CTRL_RUN) = false := by simp (disch := decide) [ht]
  unfold State.closeBlock
  dsimp only
  rw [if_pos hi, hctrl _ _ _ _ (by simp [hr]), if_neg (by decide)]
  refine ⟨by simp, by simp [h], ?_, ?_⟩
  · rw [State.flag_syncExport _ rfl (by decide)]
    simp (disch := decide) [F.RCE_STATUS_RUNNING, F.RCE_STATUS_RUN_CHG]
  · rw [State.flag_syncExport _ rfl (by decide)]
    simp (disch := decide) [F.RCE_STATUS_RUNNING, F.RCE_STATUS_RUN_CHG]

/-! ## HASH and signature (R298, R299) -/

@[simp] theorem length_hashBytes (h : Nat) : (hashBytes h).length = 48 := by simp [hashBytes, beBytes]

theorem blockHashDone_none (h : s.rce.closed = []) : exec .blockHashDone s = .next s := by
  simp only [exec, execBlockHashDone, h]

/-- The registers of the last HASH are all that the first writes of BLOCK_HASH_DONE touch. -/
theorem State.foldl_setNum_frame (s : State) (l : List Nat) (a v : Nat → Nat) :
    (l.foldl (fun s w => s.setNum (a w) (v w)) s).rce = s.rce ∧ (l.foldl (fun s w => s.setNum (a w) (v w)) s).mem = s.mem := by
  induction l generalizing s with
  | nil => exact ⟨rfl, rfl⟩
  | cons w l ih => exact ih _

theorem blockHashDone_oldest {b : ClosedBlk} {rest : List ClosedBlk} (h : s.rce.closed = b :: rest) : Gives .blockHashDone s (fun t =>
    t.rce.closed = rest ∧ t.rce.boat.chain = some (b.id, b.blkseq, sha384 (s.rdList (ringAddr b.slot) 0x100000)) ∧ t.rce.chain = s.rce.chain ∧
    (∀ c, s.rce.chain = some c → c.id = b.id → c.blkseq = b.blkseq + 1 → SameMemOutside s t (ringAddr c.slot + 0x18) 48) ∧
    (s.rce.chain = none → SameMem s t)) := by
  obtain ⟨hrce, hmem⟩ := s.foldl_setNum_frame (List.range 12) (fun w => Reg.RCE_LAST_HASH w)
    (fun w => ofLe ((hashBytes (sha384 (s.rdList (ringAddr b.slot) 0x100000))).drop (4 * w) |>.take 4))
  unfold Gives
  simp only [exec, execBlockHashDone, h]
  generalize sha384 (s.rdList (ringAddr b.slot) 0x100000) = x at hrce hmem ⊢
  generalize List.foldl _ s (List.range 12) = u at hrce hmem ⊢
  have hbyte (a : Nat) : u.rdByte a = s.rdByte a := rdByte_of_mem hmem a
  cases hc : s.rce.chain with
  | none =>
    simp only [State.setRce_rce, hrce, hc]
    exact ⟨_, rfl, by simp, by simp, by simp, by simp, fun _ a => by simp [hbyte]⟩
  | some c =>
    simp only [State.setRce_rce, hrce, hc]
    refine ⟨_, rfl, ?_, ?_, ?_, ?_, by simp⟩
    · split <;> simp
    · split <;> simp
    · split <;> simp
    · rintro c' ⟨⟩ hid hseq a ha
      rw [if_pos ⟨hid, hseq⟩, State.rdByte_wrList_other _ _ (by simpa using ha)]
      simp [hbyte]

theorem blockSigned_spec {c : Chain} {b : Nat} (hc : s.rce.chain = some c) (hn : s.rce.closed = []) (hb : c.await = some b) :
    Gives (.blockSigned true) s (fun t => t.rce.chain = some { c with await := none, signed := true, due := c.due || c.isSeal } ∧
      SameMemOutside s t (ringAddr c.slot + 0x80) 96 ∧ RegsKept s t []) ∧
    Gives (.blockSigned false) s (fun t => t.rce.chain = some { c with await := none, signed := false, due := c.due || c.isSeal } ∧
      t.flag F.RCE_STATUS_SIGN_FAIL = true ∧ Logs s t 0x0916 0 (b % 2 ^ 32) ∧ SameMem s t ∧
      RegsKept s t [Reg.RCE_STATUS, Reg.EVL_LOST]) := by
  refine ⟨?_, ?_⟩
  · refine ⟨_, by simp only [exec, execBlockSigned, hc, hn, hb, if_true]; rfl, ?_⟩
    refine ⟨by simp, fun a ha => ?_, by simp⟩
    rw [rdByte_of_mem (State.setRce_mem _ _)]
    refine State.rdByte_wrList_other _ _ (ha.imp_right fun h => ?_)
    exact le_trans (by simp) h
  · refine ⟨_, by simp only [exec, execBlockSigned, hc, hn, hb, Bool.false_eq_true, if_false]; rfl, ?_⟩
    refine ⟨?_, ?_, ?_, ?_, ?_⟩
    · simp
    · simp (disch := decide) [F.RCE_STATUS_SIGN_FAIL]
    · simp [logs_log]
    · simp [SameMem]
    · simp (disch := decide) [F.RCE_STATUS_SIGN_FAIL]

/-! ## Export and retransmission (R301 to R304) -/

theorem exportDatagram_none (h : s.rce.exp = []) : exec .exportDatagram s = .next s := by
  cases he : s.flag F.RCE_CTRL_EXP_EN <;> simp only [exec, execExportDatagram, h, he]

theorem exportDatagram_unhashed {b : ClosedBlk} {rest : List ClosedBlk} (h : s.rce.exp = b :: rest) (hb : b.hash = none) :
    exec .exportDatagram s = .next s := by
  cases he : s.flag F.RCE_CTRL_EXP_EN <;> simp only [exec, execExportDatagram, h, he, hb]

theorem exportDatagram_sends {b : ClosedBlk} {rest : List ClosedBlk} {x : Nat} (he : s.flag F.RCE_CTRL_EXP_EN = true) (h : s.rce.exp = b :: rest)
    (hb : b.hash = some x) : Gives .exportDatagram s (fun t =>
      t.wire = s.wire ++ [.frame 1 (s.fragment 0 (s.rce.dgseq % 2 ^ 32) b.frag b.id b.blkseq b.slot x)] ∧ t.rce.dgseq = s.rce.dgseq + 1 ∧
      t.rce.exp = (if b.frag = 127 then rest else { b with frag := b.frag + 1 } :: rest) ∧ SameMem s t ∧
      RegsKept s t [Reg.RCE_STATUS, Reg.RCE_EXP_SLOT]) := by
  refine ⟨_, by simp only [exec, execExportDatagram, h, he, hb]; rfl, ?_⟩
  refine ⟨by simp, by simp, by simp [hb], by simp [SameMem], fun a ha => ?_⟩
  rw [State.syncExport_regsKept _ a ha]
  simp

theorem State.retxRefuse_spec (s : State) (id seq slot reason : Nat) : (s.retxRefuse id seq slot reason).flag F.RCE_STATUS_RETX_REF = true ∧
    Logs s (s.retxRefuse id seq slot reason) 0x0917 0 (reason + slot % 2 ^ 16 * 2 ^ 16) ∧ SameMem s (s.retxRefuse id seq slot reason) ∧
    RegsKept s (s.retxRefuse id seq slot reason) [Reg.RCE_STATUS, Reg.EVL_LOST] := by
  unfold State.retxRefuse State.freshNat
  refine ⟨?_, ?_, ?_, ?_⟩
  · simp (disch := decide) [F.RCE_STATUS_RETX_REF]
  · exact logs_log _ _ _ (by simp)
  · simp [SameMem]
  · simp (disch := decide) [F.RCE_STATUS_RETX_REF]

theorem retxRequest_malformed {dg : List Byte} {l : List Nat} (hl : l = dg.map BitVec.toNat) (h : dg.length ≠ 64) :
    exec (.retxRequest dg) s = .next (s.retxRefuse (fieldAt l 8 8) (fieldAt l 0x10 8) (fieldAt l 0x18 4) 3) := by
  subst hl
  exact if_pos (by simp [h])

theorem retxRequest_wellFormed {dg : List Byte} {l : List Nat} (hl : l = dg.map BitVec.toNat) (h : dg.length = 64) (hm : fieldAt l 0 4 = 0x514E4D41)
    (hv : fieldAt l 4 4 = 1) (hz : fieldAt l 0x1C 4 = 0) (hz' : fieldAt l 0x30 16 = 0) (hk : fieldAt l 0x20 16 ≠ 0) :
    exec (.retxRequest dg) s = if 16 ≤ s.rce.retx.length then .next (s.retxRefuse (fieldAt l 8 8) (fieldAt l 0x10 8) (fieldAt l 0x18 4) 4)
      else .next (s.setRce { s.rce with
        retx := s.rce.retx ++ [⟨fieldAt l 8 8, fieldAt l 0x10 8, fieldAt l 0x18 4, fieldAt l 0x20 16⟩] }) := by
  subst hl
  exact if_neg (by simp [h, hm, hv, hz, hz', hk])

theorem retxServe_none (h : s.rce.retx = []) : exec .retxServe s = .next s := by
  simp only [exec, execRetxServe, h]

theorem retxServe_open {q : RetxReq} {rest : List RetxReq} {c : Chain} (h : s.rce.retx = q :: rest) (hc : s.rce.chain = some c) (hs : c.slot = q.slot)
    (hi : c.id = q.id) (hb : c.blkseq = q.blkseq) : exec .retxServe s = .next ((s.setRce { s.rce with retx := rest }).retxRefuse q.id q.blkseq q.slot 2) := by
  simp only [exec, execRetxServe, h, State.setRce_rce, hc, hs, hi, hb, beq_self_eq_true, Bool.and_self, if_true]

theorem retxServe_outside {q : RetxReq} {rest : List RetxReq} (h : s.rce.retx = q :: rest) (hc : s.rce.chain = none) (hs : 28672 ≤ q.slot) :
    exec .retxServe s = .next ((s.setRce { s.rce with retx := rest }).retxRefuse q.id q.blkseq q.slot 1) := by
  have hn : decide (q.slot < 28672) = false := by simp [hs]
  simp only [exec, execRetxServe, h, State.setRce_rce, hc, hn, Bool.false_and, Bool.not_false, Bool.false_eq_true, if_false, if_true]

/-- Sending the fragments that are asked for counts them in RCE_RETX and changes nothing else of registers, memory and engine. -/
theorem State.foldl_fragments (s : State) (q : RetxReq) (l : List Nat) (g : State → Nat → Emit) :
    (l.foldl (fun s f => if bit q.mask f then (s.emit (g s f)).count Reg.RCE_RETX 1 else s) s).rce = s.rce ∧
    SameMem s (l.foldl (fun s f => if bit q.mask f then (s.emit (g s f)).count Reg.RCE_RETX 1 else s) s) ∧
    RegsKept s (l.foldl (fun s f => if bit q.mask f then (s.emit (g s f)).count Reg.RCE_RETX 1 else s) s) [Reg.RCE_RETX] := by
  induction l generalizing s with
  | nil => exact ⟨rfl, by simp, by simp⟩
  | cons f l ih =>
    rw [List.foldl_cons]
    split
    · obtain ⟨h1, h2, h3⟩ := ih ((s.emit (g s f)).count Reg.RCE_RETX 1)
      refine ⟨h1.trans (by simp), fun b => (h2 b).trans (by simp), fun a ha => (h3 a ha).trans ?_⟩
      simp at ha
      simp (disch := assumption)
    · exact ih s

theorem retxServe_serves {q : RetxReq} {rest : List RetxReq} {hdr : List Nat} (h : s.rce.retx = q :: rest) (hh : hdr = s.rdList (ringAddr q.slot) 0x20)
    (hc : s.rce.chain = none) (hs : q.slot < 28672) (hm : fieldAt hdr 0 4 = 0x424E4D41) (hb : fieldAt hdr 8 8 = q.blkseq)
    (hi : fieldAt hdr 0x10 8 = q.id) : Gives .retxServe s (fun t => t.rce = { s.rce with retx := rest } ∧ SameMem s t ∧
      RegsKept s t [Reg.RCE_RETX]) := by
  have hrd (r : RecState) : (s.setRce r).rdList (ringAddr q.slot) 0x20 = hdr := hh.symm
  have hheld : decide (q.slot < 28672) = true := by simp [hs]
  unfold Gives
  simp only [exec, execRetxServe, h, State.setRce_rce, hc, hheld, hrd, hm, hb, hi, beq_self_eq_true, Bool.and_self, Bool.not_true,
    Bool.false_eq_true, if_false]
  generalize sha384 _ = x
  exact ⟨_, rfl, State.foldl_fragments _ q (List.range 128) (fun s f => .frame 1 (s.fragment 1 0xFFFFFFFF f q.id q.blkseq q.slot x))⟩

end

/-- Settles O37: tokens reach their rows, rows the stream, closed blocks their HASH, their signature and the datagrams (R287 to R304). -/
theorem recordCommands : Obligations.RecordCommands := by
  unfold Obligations.RecordCommands
  refine ⟨fun s link t => ⟨rceToken_unselected, fun e c u => rceToken_late⟩, fun s link t e r => rceToken_stored, State.rceLate_spec,
    fun s m bad => ⟨rowClose_none bad, fun pre d row post => rowClose_upTo bad⟩, fun s m q t r => s.rceCatch_closes m q t,
    fun s => ⟨recordStart_running, recordStart_starts, recordStop_noChain, fun c => recordStop_noRows⟩, fun s c => blockClose_blockTimeout_spec,
    fun s c => State.closeBlock_seal, fun s => ⟨blockHashDone_none, fun b rest => blockHashDone_oldest⟩, fun s c b => blockSigned_spec,
    fun s => ⟨exportDatagram_none, fun b rest x => exportDatagram_sends, fun b rest => exportDatagram_unhashed⟩,
    fun s dg l => retxRequest_malformed, fun s dg l hl h hm hv hz hz' hk => ?_, State.retxRefuse_spec,
    fun s q rest h => ⟨fun c => retxServe_open h, retxServe_outside h, fun hdr => retxServe_serves h⟩, fun s => retxServe_none⟩
  have heq := retxRequest_wellFormed (s := s) hl h hm hv hz hz' hk
  refine ⟨fun hlt => ⟨_, heq.trans (if_neg (by omega)), by simp, by simp [SameMem], by simp⟩, fun hge => heq.trans (if_pos hge)⟩

end Sys2Proof.Machine


/-! PROOFS. Capture sets and the arming of trigger units (R305, R310 to R316). -/

namespace Sys2Proof.Machine

section
variable {s : State}

@[simp] theorem State.capOf_setCap (s : State) (c : Nat) (x : Cap) : (s.setCap c x).capOf c = x := by
  simp [State.capOf, State.setCap, Tab.get, Tab.find_put_self]
theorem State.capOf_congr {s t : State} (h : t.rce = s.rce) (c : Nat) : t.capOf c = s.capOf c := by
  unfold State.capOf; rw [h]
@[simp] theorem State.capOf_setFld (s : State) (f : Fld) (v c : Nat) : (s.setFld f v).capOf c = s.capOf c := State.capOf_congr (State.setFld_rce ..) c
@[simp] theorem State.trgOf_setTrg (s : State) (k : Nat) (h : TrgHist) : (s.setTrg k h).trgOf k = h := by
  simp [State.trgOf, State.setTrg, Tab.get, Tab.find_put_self]
theorem State.trgOf_setTrg_other (s : State) {k j : Nat} (h : TrgHist) (hj : j ≠ k) : (s.setTrg k h).trgOf j = s.trgOf j := by
  simp [State.trgOf, State.setTrg, Tab.get, Tab.find_put_other _ _ hj]

theorem State.capRefuse_spec (s : State) (c : Nat) {code : Nat} (h : code < 8) : (s.capRefuse c code).fld (F.CAP_STATUS_REFUSE c) = code ∧
    (s.capRefuse c code).fld (F.CAP_STATUS_STATE c) = s.fld (F.CAP_STATUS_STATE c) ∧ (s.capRefuse c code).capOf c = s.capOf c ∧
    Logs s (s.capRefuse c code) 0x091A (0x9000 + c) code ∧ SameMem s (s.capRefuse c code) ∧
    RegsKept s (s.capRefuse c code) [Reg.CAP_STATUS c, Reg.EVL_LOST] := by
  have hne : Reg.CAP_STATUS c ≠ Reg.EVL_LOST := by grind
  unfold State.capRefuse
  refine ⟨?_, ?_, State.capOf_congr (by simp) c, ?_, ?_, ?_⟩
  · simp [hne, Nat.mod_eq_of_lt (lt_of_lt_of_le h (by decide : 8 ≤ 256))]
  · simp [hne]
  · exact logs_log _ _ _ (by simp)
  · simp [SameMem]
  · simp

/-! ## Arming (R310, R315, R316) -/

/-- What the first check of ARM that fails answers, in the order of the checks. -/
theorem captureArm_refused (s : State) (c : Fin 64) :
    (s.flag (F.CAP_CFG_EN c) = false → exec (.captureArm c) s = .next (s.capRefuse c 4)) ∧
    (s.flag (F.CAP_CFG_EN c) = true → s.fld (F.CAP_STATUS_STATE c) ≠ 0 → exec (.captureArm c) s = .next (s.capRefuse c 1)) ∧
    (s.flag (F.CAP_CFG_EN c) = true → s.fld (F.CAP_STATUS_STATE c) = 0 → s.fld (F.CAP_POST_POST c) = 0 →
      exec (.captureArm c) s = .next (s.capRefuse c 3)) ∧
    (s.flag (F.CAP_CFG_EN c) = true → s.fld (F.CAP_STATUS_STATE c) = 0 → s.fld (F.CAP_POST_POST c) ≠ 0 →
      s.capNslot c < s.fld (F.CAP_PRE_PRE c) + s.fld (F.CAP_POST_POST c) → exec (.captureArm c) s = .next (s.capRefuse c 2)) := by
  refine ⟨fun he => congrArg Host.Outcome.next ?_, fun he h0 => congrArg Host.Outcome.next ?_, fun he h0 hp => congrArg Host.Outcome.next ?_,
    fun he h0 hp hn => congrArg Host.Outcome.next ?_⟩
  · exact if_pos (by simp [he])
  · exact (if_neg (by simp [he])).trans (if_pos h0)
  · exact (if_neg (by simp [he])).trans ((if_neg (by simp [h0])).trans (if_pos hp))
  · exact (if_neg (by simp [he])).trans ((if_neg (by simp [h0])).trans ((if_neg hp).trans (if_pos hn)))

/-- With every check passed ARM takes the lowest free buffer. -/
theorem State.capArm_fits {c : Nat} (he : s.flag (F.CAP_CFG_EN c) = true) (h0 : s.fld (F.CAP_STATUS_STATE c) = 0) (hp : s.fld (F.CAP_POST_POST c) ≠ 0)
    (hn : s.fld (F.CAP_PRE_PRE c) + s.fld (F.CAP_POST_POST c) ≤ s.capNslot c) :
    (s.capFree c = none → s.capArm c = s.capRefuse c 5) ∧ ∀ b, s.capFree c = some b → s.capArm c = s.capArmIn c b (s.fld (F.CAP_POST_POST c)) := by
  unfold State.capArm
  dsimp only
  rw [if_neg (by simp [he]), if_neg (by simp [h0]), if_neg hp, if_neg (by omega)]
  exact ⟨fun hf => by rw [hf], fun b hf => by rw [hf]⟩

theorem State.capArmIn_spec (s : State) (c b post : Nat) : (s.capArmIn c b post).fld (F.CAP_STATUS_STATE c) = 1 ∧
    (s.capArmIn c b post).capOf c =
      { Cap.init with buf := b, post := post, armedAt := s.now.ns, lastDone := (s.capOf c).lastDone, prev := (s.capOf c).prev } ∧
    (s.capArmIn c b post).fld (F.CAP_PREV_PRE_VALID c) = 0 ∧ SameMem s (s.capArmIn c b post) ∧
    RegsKept s (s.capArmIn c b post) [Reg.CAP_STATUS c, Reg.CAP_PREV c] := by
  unfold State.capArmIn
  refine ⟨?_, ?_, ?_, ?_, ?_⟩
  · simp
  · simp
  · simp
  · simp [SameMem]
  · simp

theorem State.capFree_lowest {c b : Nat} (h : s.capFree c = some b) : b < 2 ∧ bit (s.fld (F.CAP_STATUS_HELD c)) b = false ∧
    (b = 1 → bit (s.fld (F.CAP_STATUS_HELD c)) 0 = true) := by
  unfold State.capFree at h
  dsimp only at h
  split at h
  next h0 =>
    cases h
    simpa using h0
  next h0 =>
    split at h
    next h1 =>
      cases h
      simp only [Bool.and_eq_true, Bool.not_eq_true'] at h1
      simp only [Bool.not_eq_true', Bool.not_eq_false] at h0
      exact ⟨by decide, h1.2, fun _ => h0⟩
    next => cases h

/-! ## Disarming, forcing and release (R311, R314, R315) -/

theorem captureDisarm_armed {c : Fin 64} (h : s.fld (F.CAP_STATUS_STATE c) = 1) : Gives (.captureDisarm c) s (fun t =>
    t.fld (F.CAP_STATUS_STATE c) = 0 ∧ t.capOf c = s.capOf c ∧ SameMem s t ∧ RegsKept s t [Reg.CAP_STATUS c]) := by
  refine ⟨s.setFld (F.CAP_STATUS_STATE c) 0, ?_, ?_⟩
  · simp only [exec, execCaptureDisarm, State.capDisarm, h]
  · exact ⟨by simp, State.capOf_congr (by simp) c, by simp [SameMem], by simp⟩

theorem captureDisarm_triggered {c : Fin 64} (h : s.fld (F.CAP_STATUS_STATE c) = 2) : Gives (.captureDisarm c) s (fun t =>
    t.fld (F.CAP_STATUS_STATE c) = 0 ∧ t.capOf c = { s.capOf c with lastDone := none } ∧ t.rdMem (s.capBase c + 0xFC) 4 = 1 ∧
    RegsKept s t [Reg.CAP_STATUS c]) := by
  refine ⟨_, by simp only [exec, execCaptureDisarm, State.capDisarm, h]; rfl, ?_⟩
  refine ⟨?_, ?_, ?_, ?_⟩
  · simp
  · simp
  · refine (rdMem_congr (s := State.wrMem _ (s.capBase c + 0xFC) 4 1) (by simp; rfl) _ _).trans ?_
    exact State.rdMem_wrMem_self ..
  · simp

theorem captureDisarm_idle {c : Fin 64} (h : s.fld (F.CAP_STATUS_STATE c) = 0 ∨ s.fld (F.CAP_STATUS_STATE c) = 3) :
    exec (.captureDisarm c) s = .next s := by
  rcases h with h | h <;> simp only [exec, execCaptureDisarm, State.capDisarm, h]

theorem captureForce_armed {c : Fin 64} (h : s.fld (F.CAP_STATUS_STATE c) = 1) : Gives (.captureForce c) s (fun t =>
    t.fld (F.CAP_STATUS_STATE c) = 2 ∧ t.capOf c = { s.capOf c with forced := true } ∧ SameMem s t ∧ RegsKept s t [Reg.CAP_STATUS c]) := by
  refine ⟨_, congrArg Host.Outcome.next (if_pos h), ?_⟩
  refine ⟨?_, ?_, ?_, ?_⟩
  · simp
  · simp
  · simp [SameMem]
  · simp

theorem captureForce_idle {c : Fin 64} (h : s.fld (F.CAP_STATUS_STATE c) ≠ 1) : exec (.captureForce c) s = .next s := congrArg Host.Outcome.next (if_neg h)

theorem State.capRelease_free {c b : Nat} (h : bit (s.fld (F.CAP_STATUS_HELD c)) b = false) : s.capRelease c b = s := if_pos (by simp [h])

/-- The state in which only the buffer's HELD bit is cleared. -/
theorem State.heldCleared_spec (s : State) (c : Nat) {b : Nat} (hb : b < 2) {t : State}
    (ht : t = s.setFld (F.CAP_STATUS_HELD c) (putBit (s.fld (F.CAP_STATUS_HELD c)) b false)) : bit (t.fld (F.CAP_STATUS_HELD c)) b = false ∧
    t.fld (F.CAP_STATUS_STATE c) = s.fld (F.CAP_STATUS_STATE c) ∧ t.capOf c = s.capOf c ∧ SameMem s t ∧ RegsKept s t [Reg.CAP_STATUS c] := by
  subst ht
  refine ⟨?_, by simp, State.capOf_congr (by simp) c, by simp [SameMem], by simp⟩
  rw [State.fld_setFld_same _ _ (by simp), bit_mod _ hb, bit_putBit, if_pos rfl]

theorem captureRelease0_frees {c : Fin 64} (hb : bit (s.fld (F.CAP_STATUS_HELD c)) 0 = true) (h : s.fld (F.CAP_STATUS_STATE c) ≠ 3) :
    Gives (.captureRelease0 c) s (fun t => bit (t.fld (F.CAP_STATUS_HELD c)) 0 = false ∧ t.capOf c = s.capOf c ∧ SameMem s t ∧
      RegsKept s t [Reg.CAP_STATUS c]) := by
  obtain ⟨h1, h2, h3, h4, h5⟩ := s.heldCleared_spec c (b := 0) (by decide) rfl
  exact ⟨_, congrArg Host.Outcome.next ((if_neg (by simp [hb])).trans (if_neg (h2 ▸ h))), h1, h3, h4, h5⟩

theorem captureRelease1_rearms {c : Fin 64} (hb : bit (s.fld (F.CAP_STATUS_HELD c)) 1 = true) (h : s.fld (F.CAP_STATUS_STATE c) = 3) :
    Gives (.captureRelease1 c) s (fun t => bit (t.fld (F.CAP_STATUS_HELD c)) 1 = false ∧ t.fld (F.CAP_STATUS_STATE c) = 1 ∧
      (t.capOf c).buf = 1 ∧ (t.capOf c).post = (s.capOf c).post ∧ SameMem s t ∧ RegsKept s t [Reg.CAP_STATUS c, Reg.CAP_PREV c]) := by
  obtain ⟨h1, h2, h3, h4, h5⟩ := s.heldCleared_spec c (b := 1) (by decide) rfl
  refine ⟨_, congrArg Host.Outcome.next ((if_neg (by simp [hb])).trans (if_pos (h2.trans h))), ?_⟩
  generalize s.setFld (F.CAP_STATUS_HELD c) _ = u at h1 h2 h3 h4 h5 ⊢
  obtain ⟨g1, g2, g3, g4, g5⟩ := u.capArmIn_spec c 1 (u.capOf c).post
  refine ⟨?_, g1, by rw [g2], by rw [g2, h3], fun b => (g4 b).trans (h4 b), fun a ha => ?_⟩
  · have hheld : (u.capArmIn c 1 (u.capOf c).post).fld (F.CAP_STATUS_HELD c) = u.fld (F.CAP_STATUS_HELD c) := by
      unfold State.capArmIn
      simp (disch := grind)
    rw [hheld, h1]
  · exact (g5 a ha).trans (h5 a fun hm => ha (List.mem_cons.mpr (.inl (List.mem_singleton.mp hm))))

/-! ## Completion (R313) -/

theorem captureComplete_cases (s : State) (c : Fin 64) : (s.fld (F.CAP_STATUS_STATE c) ≠ 2 → exec (.captureComplete c) s = .next s) ∧
    ((s.capOf c).trig = none → exec (.captureComplete c) s = .next s) ∧
    ((s.capOf c).written < (s.capOf c).post → exec (.captureComplete c) s = .next s) ∧
    (s.fld (F.CAP_STATUS_STATE c) = 2 → (s.capOf c).trig.isSome = true → (s.capOf c).post ≤ (s.capOf c).written →
      exec (.captureComplete c) s = .next (s.capComplete c)) := by
  refine ⟨fun h => if_neg fun hc => h hc.1, fun h => if_neg fun hc => ?_, fun h => if_neg fun hc => by omega, fun h0 h1 h2 => if_pos ⟨h0, h1, h2⟩⟩
  have := hc.2.1
  rw [h] at this
  cases this

theorem State.capComplete_spec {c : Nat} {x : Nat × Stamp × Nat} (hx : (s.capOf c).trig = some x) (ha : s.flag (F.CAP_CFG_AUTO c) = false)
    (hm : Tab.find s.rce.cfg.meas c = none) (hb : (s.capOf c).buf < 2) : (s.capComplete c).fld (F.CAP_STATUS_STATE c) = 0 ∧
    (s.capComplete c).flag (F.CAP_STATUS_DONE c) = true ∧ (s.capComplete c).num (Reg.CAP_COUNT c) = (s.num (Reg.CAP_COUNT c) + 1) % 2 ^ 32 ∧
    (s.capComplete c).fld (F.CAP_STATUS_LAST_BUF c) = (s.capOf c).buf ∧ (s.capComplete c).rdMem (s.capBase c + 0xFC) 4 = 1 ∧
    Logs s (s.capComplete c) 0x0919 (0x9000 + c) ((s.num (Reg.CAP_COUNT c) + 1) % 2 ^ 32) ∧
    RegsKept s (s.capComplete c) [Reg.CAP_COUNT c, Reg.CAP_STATUS c, Reg.EVL_LOST] := by
  obtain ⟨q, tr, pos⟩ := x
  have hmeas : Tab.get (fun _ => []) s.rce.cfg.meas c = [] := by unfold Tab.get; rw [hm]
  unfold State.capComplete
  simp only [hx, hmeas, List.foldl_nil, List.zipIdx_nil]
  generalize State.capHeader _ _ _ _ _ = hdr
  rw [if_pos (by simp (disch := grind) [ha])]
  have hnum : ((s.wrList (s.capBase c) hdr).wrMem (s.capBase c + 0xFC) 4 1).num (Reg.CAP_COUNT c) = s.num (Reg.CAP_COUNT c) := by simp
  refine ⟨?_, ?_, ?_, ?_, ?_, ?_, ?_⟩
  · simp
  · simp (disch := grind)
  · simp (disch := grind)
  · simp (disch := grind) [Nat.mod_eq_of_lt hb]
  · refine (rdMem_congr (s := State.wrMem _ (s.capBase c + 0xFC) 4 1) (by simp; rfl) _ _).trans ?_
    exact State.rdMem_wrMem_self ..
  · have hlog (t : State) (ht : t.evl = s.evl) (d : Nat) : Logs s (t.log 0x0919 (0x9000 + c) d) 0x0919 (0x9000 + c) d := logs_log _ _ _ ht
    simp (disch := grind)
    exact hlog _ (by simp [evl_wrMem, evl_wrList]) _
  · simp

/-! ## Arming of trigger units (R305) -/

/-- What a write of RCE_TRG_ARM_g does to unit `i` of the group. -/
def State.trgArmUnit (s : State) (g v i : Nat) : State :=
  if s.flag (F.TRG_CFG_EN (32 * g + i)) then
    if bit v i && !s.rbit (Reg.RCE_TRG_ARM g) i then (s.setRbit (Reg.RCE_TRG_ARM g) i (bit v i)).setTrg (32 * g + i) TrgHist.init
    else s.setRbit (Reg.RCE_TRG_ARM g) i (bit v i)
  else s

theorem State.trgArmWrite_eq (s : State) (g v : Nat) : s.trgArmWrite g v = (List.range 32).foldl (fun s i => s.trgArmUnit g v i) s := rfl

section
variable (s : State) {g i : Nat} (v : Nat)

@[simp] theorem State.mem_trgArmUnit : (s.trgArmUnit g v i).mem = s.mem := by
  unfold State.trgArmUnit
  split
  · split <;> simp
  · rfl

theorem State.rd_trgArmUnit {a : Nat} (ha : a ≠ Reg.RCE_TRG_ARM g) : (s.trgArmUnit g v i).rd a = s.rd a := by
  unfold State.trgArmUnit
  split
  · split <;> simp (disch := assumption)
  · rfl

theorem State.en_trgArmUnit (hg : g < 4) (k : Nat) : (s.trgArmUnit g v i).flag (F.TRG_CFG_EN k) = s.flag (F.TRG_CFG_EN k) :=
  State.flag_congr (s.rd_trgArmUnit v (by grind))

theorem State.rbit_trgArmUnit {j : Nat} (hj : j < 32) : (s.trgArmUnit g v i).rbit (Reg.RCE_TRG_ARM g) j =
    if j = i ∧ s.flag (F.TRG_CFG_EN (32 * g + i)) = true then bit v i else s.rbit (Reg.RCE_TRG_ARM g) j := by
  have hset : (s.setRbit (Reg.RCE_TRG_ARM g) i (bit v i)).rbit (Reg.RCE_TRG_ARM g) j = if j = i then bit v i else s.rbit (Reg.RCE_TRG_ARM g) j := by
    by_cases h : j = i
    · subst h
      simp [hj]
    · simp [hj, h]
  unfold State.trgArmUnit
  split
  next he => split <;> simp [hset, he]
  next he => simp [he]

theorem State.trgOf_trgArmUnit_other {k : Nat} (h : k ≠ 32 * g + i) : (s.trgArmUnit g v i).trgOf k = s.trgOf k := by
  unfold State.trgArmUnit
  split
  · split
    · rw [State.trgOf_setTrg_other _ _ h]
      rfl
    · rfl
  · rfl

theorem State.trgOf_trgArmUnit_armed (he : s.flag (F.TRG_CFG_EN (32 * g + i)) = true) (hv : bit v i = true)
    (hw : s.rbit (Reg.RCE_TRG_ARM g) i = false) : (s.trgArmUnit g v i).trgOf (32 * g + i) = TrgHist.init := by
  unfold State.trgArmUnit
  rw [if_pos he, if_pos (by simp [hv, hw]), State.trgOf_setTrg]

/-- The first `n` units of a group take their bit of the value written; those after them keep theirs. -/
theorem State.trgArmUnits_spec (hg : g < 4) (n : Nat) (hn : n ≤ 32) {t : State} (ht : t = (List.range n).foldl (fun s i => s.trgArmUnit g v i) s) :
    (∀ k, t.flag (F.TRG_CFG_EN k) = s.flag (F.TRG_CFG_EN k)) ∧
    (∀ i < 32, t.rbit (Reg.RCE_TRG_ARM g) i = if i < n ∧ s.flag (F.TRG_CFG_EN (32 * g + i)) = true then bit v i else s.rbit (Reg.RCE_TRG_ARM g) i) ∧
    (∀ i < n, s.flag (F.TRG_CFG_EN (32 * g + i)) = true → bit v i = true → s.rbit (Reg.RCE_TRG_ARM g) i = false →
      t.trgOf (32 * g + i) = TrgHist.init) ∧ t.mem = s.mem ∧ RegsKept s t [Reg.RCE_TRG_ARM g] := by
  subst ht
  induction n with
  | zero => simp
  | succ n ih =>
    obtain ⟨hen, hbit, htrg, hmem, hreg⟩ := ih (by omega)
    rw [List.range_succ, List.foldl_append, List.foldl_cons, List.foldl_nil]
    generalize List.foldl _ s (List.range n) = u at hen hbit htrg hmem hreg ⊢
    refine ⟨fun k => (u.en_trgArmUnit v hg k).trans (hen k), fun i hi => ?_, fun i hi he hv hw => ?_, (u.mem_trgArmUnit v).trans hmem,
      fun a ha => (u.rd_trgArmUnit v (by simpa using ha)).trans (hreg a ha)⟩
    · rw [u.rbit_trgArmUnit v hi, hen, hbit i hi]
      by_cases hin : i = n
      · subst hin
        simp
      · have hlt : i < n ↔ i < n + 1 := by omega
        simp [hin, hlt]
    · by_cases hin : i = n
      · subst hin
        refine u.trgOf_trgArmUnit_armed v ((hen _).trans he) hv ?_
        rw [hbit i (by omega), if_neg (by simp)]
        exact hw
      · rw [u.trgOf_trgArmUnit_other v (by omega), htrg i (by omega) he hv hw]

end

theorem triggerArmWrite_spec (s : State) (g : Fin 4) (v : Word) : Gives (.triggerArmWrite g v) s (fun t =>
    (∀ i < 32, t.rbit (Reg.RCE_TRG_ARM g) i = (if s.flag (F.TRG_CFG_EN (32 * g + i)) then bit v.toNat i else s.rbit (Reg.RCE_TRG_ARM g) i)) ∧
    (∀ i < 32, s.flag (F.TRG_CFG_EN (32 * g + i)) = true → bit v.toNat i = true → s.rbit (Reg.RCE_TRG_ARM g) i = false →
      t.trgOf (32 * g + i) = TrgHist.init) ∧ SameMem s t ∧ RegsKept s t [Reg.RCE_TRG_ARM g]) := by
  obtain ⟨-, hbit, htrg, hmem, hreg⟩ := s.trgArmUnits_spec (g := g) v.toNat g.isLt 32 (le_refl _) rfl
  refine ⟨_, congrArg Host.Outcome.next (s.trgArmWrite_eq g v.toNat), fun i hi => ?_, htrg, .of_eq hmem, hreg⟩
  rw [hbit i hi]
  simp [hi]

end

/-- Settles O38: a set is armed or refused by code, disarmed, forced, released and completed, and trigger units are armed (R305, R310 to R316). -/
theorem captureCommands : Obligations.CaptureCommands := by
  unfold Obligations.CaptureCommands
  refine ⟨fun s c code _ => s.capRefuse_spec c, fun s c => ?_, fun s c b => State.capFree_lowest,
    fun s c => ⟨captureDisarm_armed, captureDisarm_triggered, captureDisarm_idle⟩, fun s c => ⟨captureForce_armed, captureForce_idle⟩,
    fun s c => ⟨fun h => congrArg Host.Outcome.next (State.capRelease_free h), fun h => congrArg Host.Outcome.next (State.capRelease_free h), captureRelease0_frees,
      captureRelease1_rearms⟩,
    captureComplete_cases, fun s c x _ => State.capComplete_spec, triggerArmWrite_spec⟩
  obtain ⟨h4, h1, h3, h2⟩ := captureArm_refused s c
  refine ⟨h4, h1, h3, h2, fun he h0 hp hn => ?_⟩
  obtain ⟨hnone, hsome⟩ := State.capArm_fits he h0 hp hn
  exact ⟨fun hf => congrArg Host.Outcome.next (hnone hf), fun b hf => ⟨_, congrArg Host.Outcome.next (hsome b hf), s.capArmIn_spec c b _⟩⟩

end Sys2Proof.Machine


/-! PROOFS. Field outputs: tokens, timeouts and current-loop channels (R333 to R342). -/

namespace Sys2Proof.Machine

section
variable (s : State)

@[simp] theorem State.cloOf_setClo (n : Nat) (c : Clo) : (s.setClo n c).cloOf n = c := by simp [State.cloOf, State.setClo, Tab.get, Tab.find_put_self]
@[simp] theorem State.vdrOf_setVdr (n : Nat) (v : Vdr) : (s.setVdr n v).vdrOf n = v := by simp [State.vdrOf, State.setVdr, Tab.get, Tab.find_put_self]
theorem State.cloOf_congr {s t : State} (h : t.clos = s.clos) (n : Nat) : t.cloOf n = s.cloOf n := by unfold State.cloOf; rw [h]
theorem State.vdrOf_congr {s t : State} (h : t.vdrs = s.vdrs) (n : Nat) : t.vdrOf n = s.vdrOf n := by unfold State.vdrOf; rw [h]

/-! ## Driving a current loop (R334 to R342) -/

@[simp] theorem State.rd_reportSat (m sig : Nat) (hi lo : Bool) (a : Nat) : (s.reportSat m sig hi lo).rd a = s.rd a := by
  unfold State.reportSat State.satfb
  split
  · split <;> simp [State.setLw, rd_wrWord]
  · rfl

@[simp] theorem State.sameRegs_reportSat (m sig : Nat) (hi lo : Bool) : SameRegs (s.reportSat m sig hi lo) s := .of_rd (s.rd_reportSat m sig hi lo)

theorem dacCode_lt (i : Word) : dacCode i < 2 ^ 16 := by
  unfold dacCode clampInt
  dsimp only
  omega

/-- The current a channel is driven to, if it has one. -/
def State.cloCurrent (s : State) (n : Nat) : Option Word :=
  if s.cloAlarm n then some (if s.alarmHigh n then mA21_5 else mA3_5)
  else (s.cloWant n).map (fun v => F32.clamp (s.cloLimits n).1 (s.cloLimits n).2 v)

/-- The channel conducts: it may, and it has a current to drive. -/
def State.cloOn (s : State) (n : Nat) : Bool :=
  s.flag (F.CLO_CFG_EN n) && s.oe && s.inUse (.clo n) && !s.flag (F.CLO_STATUS_TSD n) && (s.cloCurrent n).isSome

/-- Drive, code and alarm of a channel shown in its registers. -/
def State.cloShow (s : State) (n : Nat) (on alarm high : Bool) (code : Nat) : State :=
  (((s.setFld (F.CLO_STATUS_ENABLED n) (b2n on)).setFld (F.CLO_CODE_CODE n) code).setFld (F.CLO_STATUS_ALARM n) (b2n alarm)).setFld
    (F.CLO_STATUS_DIR_EFF n) (b2n high)

/-- Saturation flags that change are shown and reported to the loop. -/
def State.cloSat (s : State) (n : Nat) (hi lo : Bool) : State :=
  if hi == s.flag (F.CLO_STATUS_SAT_HI n) && lo == s.flag (F.CLO_STATUS_SAT_LO n) then s
  else
    let u := (s.setFld (F.CLO_STATUS_SAT_HI n) (b2n hi)).setFld (F.CLO_STATUS_SAT_LO n) (b2n lo)
    u.reportSat (u.fld (F.CLO_SRC_CREW n)) (u.fld (F.CLO_SRC_SIG n)) hi lo

theorem State.cloDrive_eq (n : Nat) : ∃ (t : State) (high hi lo : Bool), (∀ a, t.rd a = s.rd a) ∧ s.cloDrive n =
    (t.cloShow n (s.cloOn n) (s.cloOn n && s.cloAlarm n) high (if s.cloOn n then dacCode ((s.cloCurrent n).getD 0) else 0)).cloSat n hi lo := by
  unfold State.cloDrive
  dsimp only
  generalize hcur : (if s.cloAlarm n then some (if s.alarmHigh n then mA21_5 else mA3_5)
    else (s.cloWant n).map (fun v => F32.clamp (s.cloLimits n).1 (s.cloLimits n).2 v)) = cur
  obtain rfl : s.cloCurrent n = cur := hcur
  generalize hon : (s.flag (F.CLO_CFG_EN n) && s.oe && s.inUse (.clo n) && !s.flag (F.CLO_STATUS_TSD n) && (s.cloCurrent n).isSome) = on
  obtain rfl : s.cloOn n = on := hon
  generalize ht : @ite State _ (instDecidableEqBool _ _) s (s.setClo n _) = t
  have hrd (a : Nat) : t.rd a = s.rd a := by
    subst ht
    split <;> simp
  exact ⟨t, _, _, _, hrd, rfl⟩

theorem State.rd_cloSat (n : Nat) (hi lo : Bool) {a : Nat} (ha : a ≠ Reg.CLO_STATUS n) : (s.cloSat n hi lo).rd a = s.rd a := by
  unfold State.cloSat
  split
  · rfl
  · simp (disch := assumption)

/-- Of CLO_STATUS only SAT_HI and SAT_LO change. -/
theorem State.flag_cloSat (n : Nat) (hi lo : Bool) {l w : Nat} (h : 5 ≤ l ∨ l + w ≤ 3) :
    (s.cloSat n hi lo).flag ⟨Reg.CLO_STATUS n, l, w⟩ = s.flag ⟨Reg.CLO_STATUS n, l, w⟩ := by
  unfold State.cloSat
  split
  · rfl
  · simp (disch := grind)

theorem State.cloShow_spec (n : Nat) (on alarm high : Bool) {code : Nat} (hc : code < 2 ^ 16) {t : State} (ht : t = s.cloShow n on alarm high code) :
    t.flag (F.CLO_STATUS_ENABLED n) = on ∧ t.flag (F.CLO_STATUS_ALARM n) = alarm ∧ t.fld (F.CLO_CODE_CODE n) = code ∧
    RegsKept s t [Reg.CLO_STATUS n, Reg.CLO_CODE n] ∧
    ∀ l, 1 ≤ l → l + 1 ≤ 10 → t.flag ⟨Reg.CLO_STATUS n, l, 1⟩ = s.flag ⟨Reg.CLO_STATUS n, l, 1⟩ := by
  subst ht
  unfold State.cloShow
  refine ⟨?_, ?_, ?_, ?_, fun l h1 h2 => ?_⟩
  · cases on <;> simp (disch := grind) [b2n]
  · cases alarm <;> simp (disch := grind) [b2n]
  · simpa (disch := grind) using hc
  · simp
  · simp (disch := grind)

theorem State.cloDrive_spec (n : Nat) : (s.cloDrive n).flag (F.CLO_STATUS_ENABLED n) = s.cloOn n ∧
    (s.cloDrive n).flag (F.CLO_STATUS_ALARM n) = (s.cloOn n && s.cloAlarm n) ∧
    (s.cloDrive n).fld (F.CLO_CODE_CODE n) = (if s.cloOn n then dacCode ((s.cloCurrent n).getD 0) else 0) ∧
    RegsKept s (s.cloDrive n) [Reg.CLO_STATUS n, Reg.CLO_CODE n] ∧
    ∀ l, 5 ≤ l → l < 10 → (s.cloDrive n).flag ⟨Reg.CLO_STATUS n, l, 1⟩ = s.flag ⟨Reg.CLO_STATUS n, l, 1⟩ := by
  obtain ⟨t, high, hi, lo, ht, heq⟩ := s.cloDrive_eq n
  have hcode : (if s.cloOn n then dacCode ((s.cloCurrent n).getD 0) else 0) < 2 ^ 16 := by
    split
    · exact dacCode_lt _
    · decide
  rw [heq]
  obtain ⟨h1, h2, h3, h4, h5⟩ := t.cloShow_spec n (s.cloOn n) (s.cloOn n && s.cloAlarm n) high hcode rfl
  refine ⟨?_, ?_, ?_, fun a ha => ?_, fun l hl hl' => ?_⟩
  · rw [State.flag_cloSat _ _ _ _ (by decide), h1]
  · rw [State.flag_cloSat _ _ _ _ (by decide), h2]
  · rw [State.fld_congr (State.rd_cloSat _ _ _ _ (by grind)), h3]
  · rw [State.rd_cloSat _ _ _ _ (by grind), h4 a ha, ht]
  · rw [State.flag_cloSat _ _ _ _ (.inl hl), h5 l (by omega) (by omega)]
    exact State.flag_congr (ht _)

theorem State.cloDrive_cases (n : Nat) :
    (s.flag (F.CLO_CFG_EN n) = false ∨ s.oe = false ∨ s.inUse (.clo n) = false ∨ s.flag (F.CLO_STATUS_TSD n) = true →
      (s.cloDrive n).flag (F.CLO_STATUS_ENABLED n) = false ∧ (s.cloDrive n).fld (F.CLO_CODE_CODE n) = 0) ∧
    (s.flag (F.CLO_CFG_EN n) = true → s.oe = true → s.inUse (.clo n) = true → s.flag (F.CLO_STATUS_TSD n) = false →
      (∀ v, s.cloAlarm n = false → s.cloWant n = some v → (s.cloDrive n).flag (F.CLO_STATUS_ENABLED n) = true ∧
        (s.cloDrive n).flag (F.CLO_STATUS_ALARM n) = false ∧
        (s.cloDrive n).fld (F.CLO_CODE_CODE n) = dacCode (F32.clamp (s.cloLimits n).1 (s.cloLimits n).2 v)) ∧
      (s.cloAlarm n = true → (s.cloDrive n).flag (F.CLO_STATUS_ENABLED n) = true ∧ (s.cloDrive n).flag (F.CLO_STATUS_ALARM n) = true ∧
        (s.cloDrive n).fld (F.CLO_CODE_CODE n) = dacCode (if s.alarmHigh n then mA21_5 else mA3_5))) ∧
    RegsKept s (s.cloDrive n) [Reg.CLO_STATUS n, Reg.CLO_CODE n] := by
  obtain ⟨hen, hal, hcode, hreg, -⟩ := s.cloDrive_spec n
  rw [hen, hal, hcode]
  refine ⟨fun h => ?_, fun he ho hu ht => ⟨fun v ha hv => ?_, fun ha => ?_⟩, hreg⟩
  · have hon : s.cloOn n = false := by
      unfold State.cloOn
      rcases h with h | h | h | h <;> simp [h]
    simp [hon]
  · have hcur : s.cloCurrent n = some (F32.clamp (s.cloLimits n).1 (s.cloLimits n).2 v) := by simp [State.cloCurrent, ha, hv]
    simp [State.cloOn, he, ho, hu, ht, hcur, ha]
  · have hcur : s.cloCurrent n = some (if s.alarmHigh n then mA21_5 else mA3_5) := by simp [State.cloCurrent, ha]
    simp [State.cloOn, he, ho, hu, ht, hcur, ha]

end

/-! ## Tokens and timeouts (R333, R335) -/

section
variable {s : State}

theorem State.outCheck_ok {link : Nat} (source : Nat) (subst : Word) {t : Token} (ht : t.ok = true) (hl : s.linkRetired link = false)
    (hs : stReserved t.st = false) (hf : F32.isFinite t.value = true) : s.outCheck link source subst t = (t.value, t.st, s) := by
  simp [State.outCheck, State.check_ok subst ht hl hs, ht, hf, State.logIf]

theorem outputToken_loop {o : Fin 80} (link : Nat) (t : Token) (echo : Bool) (ho : o.val < 16) : exec (.outputToken o link t echo) s = .next (s.cloToken o link t echo) :=
  congrArg Host.Outcome.next (if_pos ho)

theorem outputToken_heater {o : Fin 80} {n : Nat} (link : Nat) (t : Token) (echo : Bool) (ho : 16 ≤ o.val) (hn : n = o.val - 16) :
    exec (.outputToken o link t echo) s = .next (s.vdrToken n link t) := by
  subst hn
  exact congrArg Host.Outcome.next (if_neg (by omega))

theorem State.cloToken_ignored {n link : Nat} {t : Token} (echo : Bool)
    (h : s.flag (F.CLO_CFG_EN n) = false ∨ s.oe = false ∨ t.stray (s.fld (F.CLO_SRC_SIG n)) = true) : s.cloToken n link t echo = s :=
  if_pos (by rcases h with h | h | h <;> simp [h])

theorem State.cloToken_taken {n link : Nat} {t : Token} {v : Word} {st : BitVec 4} {u : State} (he : s.flag (F.CLO_CFG_EN n) = true) (ho : s.oe = true)
    (hs : t.stray (s.fld (F.CLO_SRC_SIG n)) = false) (hu : s.outCheck link (0x4000 + n) (s.rd (Reg.CLO_SUBST n)) t = (v, st, u)) :
    (∀ echo, tokLate (s.cloOf n).tok t.cseq.toNat = true → s.cloToken n link t echo = u.count (Reg.CLO_LATE n) 1) ∧
    (∀ echo, tokLate (s.cloOf n).tok t.cseq.toNat = false → u.cloShut n st = true → s.cloToken n link t echo = u) ∧
    (tokLate (s.cloOf n).tok t.cseq.toNat = false → u.cloShut n st = false → s.cloToken n link t false =
      ((u.setClo n { s.cloOf n with tok := some (v, st, t.cseq.toNat), clampHi := F32.lt (u.cloLimits n).2 v, clampLo := F32.lt v (u.cloLimits n).1, strokes := 0 }).setFld
        (F.CLO_STATUS_STOPPED n) 0).cloDrive n) := by
  have hgo : (!s.flag (F.CLO_CFG_EN n) || !s.oe || t.stray (s.fld (F.CLO_SRC_SIG n))) = false := by simp [he, ho, hs]
  unfold State.cloToken
  simp only [hgo, hu, Bool.false_eq_true, if_false]
  refine ⟨fun echo h => if_pos h, fun echo h h' => ?_, fun h h' => ?_⟩
  · rw [if_neg (by simp [h]), if_pos h']
  · rw [if_neg (by simp [h]), if_neg (by simp [h'])]

theorem State.vdrToken_ignored {n link : Nat} {t : Token}
    (h : s.vdrMode n ≠ 2 ∨ s.oe = false ∨ t.stray (s.fld (F.VDR_STATUS_SIG n)) = true) : s.vdrToken n link t = s :=
  if_pos (by rcases h with h | h | h <;> simp [h])

theorem State.vdrToken_taken {n link : Nat} {t : Token} {x : Word} {st : BitVec 4} {u : State} (hm : s.vdrMode n = 2) (ho : s.oe = true)
    (hs : t.stray (s.fld (F.VDR_STATUS_SIG n)) = false) (hu : s.outCheck link (0x4100 + n) 0 t = (x, st, u)) :
    (tokLate (u.vdrOf n).tok t.cseq.toNat = true → s.vdrToken n link t = u) ∧
    (tokLate (u.vdrOf n).tok t.cseq.toNat = false → s.vdrToken n link t =
      (u.setVdr n { u.vdrOf n with tok := some (x, st, t.cseq.toNat), clampHi := F32.lt hundred x, clampLo := F32.lt x 0, stopped := false, strokes := 0 }).vdrDrive n) := by
  have hgo : (decide (s.vdrMode n ≠ 2) || !s.oe || t.stray (s.fld (F.VDR_STATUS_SIG n))) = false := by simp [hm, ho, hs]
  unfold State.vdrToken
  simp only [hgo, hu, Bool.false_eq_true, if_false]
  exact ⟨fun h => if_pos h, fun h => if_neg (by simp [h])⟩

theorem State.cloTimeout_stops {n : Nat} (he : s.flag (F.CLO_CFG_EN n) = true) (ho : s.oe = true) (hs : s.flag (F.CLO_STATUS_STOPPED n) = false)
    (ht : (s.cloOf n).tok ≠ none) (hn : s.fld (F.CLO_CFG_TMO n) ≤ (s.cloOf n).strokes) : s.cloTimeout n =
      ((s.setFld (F.CLO_STATUS_STOPPED n) 1).log 0x0A16 (0x4000 + n) (s.fld (F.CLO_CFG_STOP n))).cloDrive n :=
  if_neg (by simp [he, ho, hs, Option.isSome_iff_ne_none.mpr ht, hn])

theorem State.cloTimeout_early {n : Nat} (h : s.flag (F.CLO_STATUS_STOPPED n) = true ∨ (s.cloOf n).tok = none ∨ (s.cloOf n).strokes < s.fld (F.CLO_CFG_TMO n)) :
    s.cloTimeout n = s :=
  if_pos (by rcases h with h | h | h <;> simp [h])

theorem producerTimeout_heater {o : Fin 80} {n : Nat} (ho : 16 ≤ o.val) (hn : n = o.val - 16) (hm : s.vdrMode n = 2) (hoe : s.oe = true)
    (hs : (s.vdrOf n).stopped = false) (ht : (s.vdrOf n).tok ≠ none) (hl : s.fld (F.VDR_STATUS_TMO n) ≤ (s.vdrOf n).strokes)
    (h1 : s.fld (F.VDR_HEAT_STOP n) ≠ 1) : Gives (.producerTimeout o) s (fun t => t.vdrOf n = { s.vdrOf n with stopped := true } ∧
      Logs s t 0x0A16 (0x4100 + n) (s.fld (F.VDR_HEAT_STOP n)) ∧ SameMem s t ∧ RegsKept s t [Reg.EVL_LOST]) := by
  subst hn
  refine ⟨_, congrArg Host.Outcome.next ((if_neg (by omega)).trans (if_neg (by simp [hm, hoe, hs, Option.isSome_iff_ne_none.mpr ht, hl]))), ?_⟩
  refine ⟨?_, logs_log _ _ _ (by simp), by simp [SameMem], by simp⟩
  rw [State.vdrOf_congr (State.log_vdrs ..), State.vdrOf_setVdr, if_neg h1]

/-! ## Headroom and faults (R338 to R342, R351) -/

theorem headroomMeasure_spec (s : State) (n : Fin 16) (h m : Word) : Gives (.headroomMeasure n h m) s (fun t => t.rd (Reg.CLO_HEAD n) = h ∧
    t.rd (Reg.CLO_MEAS n) = m ∧ (t.cloOf n).low = (if f32R h < 3 / 2 then (s.cloOf n).low + 1 else 0) ∧
    (t.cloOf n).okay = (if 2 ≤ f32R h then (s.cloOf n).okay + 1 else 0) ∧ SameMem s t ∧ RegsKept s t [Reg.CLO_HEAD n, Reg.CLO_MEAS n]) := by
  have hclo (c : Clo) : (((s.setClo n c).wr (Reg.CLO_HEAD n) h).wr (Reg.CLO_MEAS n) m).cloOf n = c := by
    rw [State.cloOf_congr (s := s.setClo n c) (by simp), State.cloOf_setClo]
  refine ⟨_, rfl, ?_⟩
  refine ⟨?_, ?_, ?_, ?_, ?_, ?_⟩
  · simp (disch := grind) [State.rd_wr_self]
  · simp (disch := grind) [State.rd_wr_self]
  · rw [hclo]
    rfl
  · rw [hclo]
    rfl
  · simp [SameMem]
  · simp

theorem loopFaults_spec (s : State) (n : Fin 16) :
    (s.flag (F.CLO_STATUS_ENABLED n) = true → s.flag (F.CLO_STATUS_COMPLIANCE n) = false → 20 ≤ (s.cloOf n).low → exec (.complianceSet n) s =
      .next ((((s.setFld (F.CLO_STATUS_COMPLIANCE n) 1).setRbit Reg.CLO_FLT n true).log 0x0A10 (0x4000 + n) (s.headMv n)).cloDrive n)) ∧
    (s.flag (F.CLO_STATUS_COMPLIANCE n) = true ∨ (s.cloOf n).low < 20 → exec (.complianceSet n) s = .next s) ∧
    (s.flag (F.CLO_STATUS_COMPLIANCE n) = true → 20 ≤ (s.cloOf n).okay → exec (.complianceClear n) s =
      .next (((s.setFld (F.CLO_STATUS_COMPLIANCE n) 0).log 0x0A11 (0x4000 + n) (s.headMv n)).cloDrive n)) ∧
    ((s.cloOf n).okay < 20 → exec (.complianceClear n) s = .next s) ∧
    (s.flag (F.CLO_STATUS_ENABLED n) = true → s.flag (F.CLO_STATUS_ALARM n) = false → s.cloOff n = true → exec (.loopLowTimeout n) s =
      .next ((((s.setFld (F.CLO_STATUS_LOOP_LOW n) 1).setRbit Reg.CLO_FLT n true).log 0x0A12 (0x4000 + n)
        (ofSigned 16 (microamps (s.cloLevel n)) + ofSigned 16 (microamps (s.rd (Reg.CLO_MEAS n))) * 2 ^ 16)).cloDrive n)) ∧
    (s.flag (F.CLO_STATUS_ENABLED n) = false → exec (.complianceSet n) s = .next s ∧ exec (.loopLowTimeout n) s = .next s) ∧
    (s.cloOff n = false → exec (.loopLowTimeout n) s = .next s ∧ exec (.alarmNrTimeout n) s = .next s) := by
  refine ⟨fun he hc hl => if_pos (by simp [he, hc, hl]), fun h => if_neg ?_, fun hc ho => if_pos (by simp [hc, ho]), fun h => if_neg (by simp [h]),
    fun he ha ho => if_pos (by simp [he, ha, ho]), fun he => ⟨if_neg (by simp [he]), if_neg (by simp [he])⟩,
    fun ho => ⟨if_neg (by simp [ho]), if_neg (by simp [ho])⟩⟩
  rcases h with h | h <;> simp [h]

theorem alarmNrTimeout_sets {n : Fin 16} (ha : s.flag (F.CLO_STATUS_ALARM n) = true) (hn : s.flag (F.CLO_STATUS_ALARM_NR n) = false) (ho : s.cloOff n = true) :
    Gives (.alarmNrTimeout n) s (fun t => t.flag (F.CLO_STATUS_ALARM_NR n) = true ∧ t.rbit Reg.CLO_FLT n = true ∧
      Logs s t 0x0A13 (0x4000 + n) ((if s.alarmHigh n then 21500 else 3500) + ofSigned 16 (microamps (s.rd (Reg.CLO_MEAS n))) * 2 ^ 16) ∧
      SameMem s t ∧ RegsKept s t [Reg.CLO_STATUS n, Reg.CLO_FLT, Reg.EVL_LOST]) := by
  refine ⟨_, if_pos (by simp [ha, hn, ho]), ?_⟩
  refine ⟨?_, ?_, logs_log _ _ _ (by simp [State.cloFlt]), ?_, ?_⟩
  · simp (disch := grind) [State.cloFlt]
  · simp (disch := grind) [State.cloFlt]
  · simp [SameMem, State.cloFlt]
  · simp [State.cloFlt]

theorem alarmNrTimeout_off {n : Fin 16} (ha : s.flag (F.CLO_STATUS_ALARM n) = false) : exec (.alarmNrTimeout n) s = .next s := if_neg (by simp [ha])

/-! ## CLO_CLR (R339) -/

/-- What a write of CLO_CLR does to channel `n`. -/
def State.cloClrOne (s : State) (mask n : Nat) : State :=
  if bit mask n then ((s.setFld (F.CLO_STATUS_LOOP_LOW n) 0).setFld (F.CLO_STATUS_ALARM_NR n) 0).cloDrive n else s

theorem State.cloClr_eq (s : State) (mask : Nat) : s.cloClr mask = (List.range 16).foldl (fun s n => s.cloClrOne mask n) s := rfl

theorem State.cloClrOne_self (s : State) {mask n : Nat} (h : bit mask n = true) : (s.cloClrOne mask n).flag (F.CLO_STATUS_LOOP_LOW n) = false ∧
    (s.cloClrOne mask n).flag (F.CLO_STATUS_ALARM_NR n) = false := by
  unfold State.cloClrOne
  rw [if_pos h]
  obtain ⟨-, -, -, -, hflag⟩ := ((s.setFld (F.CLO_STATUS_LOOP_LOW n) 0).setFld (F.CLO_STATUS_ALARM_NR n) 0).cloDrive_spec n
  rw [hflag 6 (by decide) (by decide), hflag 7 (by decide) (by decide)]
  refine ⟨?_, ?_⟩ <;> simp (disch := grind)

/-- A channel's write leaves the status and the code of another channel, and those of every channel outside the mask. -/
theorem State.cloClrOne_other (s : State) {mask n m : Nat} (h : m ≠ n ∨ bit mask m = false) :
    (s.cloClrOne mask n).rd (Reg.CLO_STATUS m) = s.rd (Reg.CLO_STATUS m) ∧ (s.cloClrOne mask n).rd (Reg.CLO_CODE m) = s.rd (Reg.CLO_CODE m) := by
  unfold State.cloClrOne
  split
  next hb =>
    have hne : m ≠ n := by
      rintro rfl
      simp [hb] at h
    obtain ⟨-, -, -, hreg, -⟩ := ((s.setFld (F.CLO_STATUS_LOOP_LOW n) 0).setFld (F.CLO_STATUS_ALARM_NR n) 0).cloDrive_spec n
    rw [hreg (Reg.CLO_STATUS m) (by grind), hreg (Reg.CLO_CODE m) (by grind)]
    refine ⟨?_, ?_⟩ <;> simp (disch := grind)
  next => exact ⟨rfl, rfl⟩

theorem State.cloClrs_spec (s : State) (mask k : Nat) {t : State} (ht : t = (List.range k).foldl (fun s n => s.cloClrOne mask n) s) :
    (∀ n < k, bit mask n = true → t.flag (F.CLO_STATUS_LOOP_LOW n) = false ∧ t.flag (F.CLO_STATUS_ALARM_NR n) = false) ∧
    ∀ n, bit mask n = false → t.rd (Reg.CLO_STATUS n) = s.rd (Reg.CLO_STATUS n) ∧ t.rd (Reg.CLO_CODE n) = s.rd (Reg.CLO_CODE n) := by
  subst ht
  induction k with
  | zero => simp
  | succ k ih =>
    obtain ⟨hclr, hkeep⟩ := ih
    rw [List.range_succ, List.foldl_append, List.foldl_cons, List.foldl_nil]
    generalize List.foldl _ s (List.range k) = u at hclr hkeep ⊢
    refine ⟨fun n hn hb => ?_, fun n hb => ?_⟩
    · by_cases hnk : n = k
      · subst hnk
        exact u.cloClrOne_self hb
      · obtain ⟨hst, -⟩ := u.cloClrOne_other (mask := mask) (n := k) (m := n) (.inl hnk)
        obtain ⟨h1, h2⟩ := hclr n (by omega) hb
        exact ⟨(State.flag_congr hst).trans h1, (State.flag_congr hst).trans h2⟩
    · obtain ⟨hst, hco⟩ := u.cloClrOne_other (mask := mask) (n := k) (m := n) (.inr hb)
      obtain ⟨hst', hco'⟩ := hkeep n hb
      exact ⟨hst.trans hst', hco.trans hco'⟩

theorem cloClr_spec (s : State) (mask : BitVec 16) : Gives (.cloClr mask) s (fun t => (∀ n < 16, bit mask.toNat n = true →
      t.flag (F.CLO_STATUS_LOOP_LOW n) = false ∧ t.flag (F.CLO_STATUS_ALARM_NR n) = false) ∧
    (∀ n < 16, bit mask.toNat n = false → t.rd (Reg.CLO_STATUS n) = s.rd (Reg.CLO_STATUS n) ∧ t.rd (Reg.CLO_CODE n) = s.rd (Reg.CLO_CODE n))) := by
  obtain ⟨hclr, hkeep⟩ := s.cloClrs_spec mask.toNat 16 rfl
  exact ⟨_, congrArg Host.Outcome.next (s.cloClr_eq mask.toNat), hclr, fun n _ => hkeep n⟩

/-! ## Thermal shutdown (R342) -/

theorem cloThermalResume_cools {n : Fin 16} {u : State} (h : s.flag (F.CLO_STATUS_TSD n) = true)
    (hr : ∀ r, (s.cloOf n).resumed = some r → r + 1000 * cycPerMs ≤ s.time.cycle)
    (hu : u = (s.setFld (F.CLO_STATUS_TSD n) 0).setClo n { s.cloOf n with resumed := some s.time.cycle }) :
    exec (.cloThermalResume n false) s = .next (u.cloDrive n) ∧ exec (.cloThermalResume n true) s = .next ((u.transient (.clo n) 2).cloDrive n) := by
  have hgo : (s.flag (F.CLO_STATUS_TSD n) && (s.cloOf n).resumed.all (fun t => s.lasted t (1000 * cycPerMs))) = true := by
    cases hc : (s.cloOf n).resumed with
    | none => simp [h]
    | some r =>
      simp [h, State.lasted_iff.mpr (hr r hc)]
  subst hu
  exact ⟨if_pos hgo, if_pos hgo⟩

theorem cloThermalResume_early {n : Fin 16} {r : Nat} (hr : (s.cloOf n).resumed = some r) (ht : s.time.cycle < r + 1000 * cycPerMs) (e : Bool) :
    exec (.cloThermalResume n e) s = .next s := by
  refine if_neg ?_
  rw [hr, Option.all_some, Bool.and_eq_true, State.lasted_iff]
  omega

theorem cloThermal_cases (s : State) (n : Fin 16) :
    (s.flag (F.CLO_STATUS_TSD n) = false → exec (.cloThermalShutdown n) s = .next (((((s.setFld (F.CLO_STATUS_TSD n) 1).setRbit Reg.CLO_FLT n
      true).log 0x0A14 (0x4000 + n) 0).transient (.clo n) 1).cloDrive n)) ∧
    (s.flag (F.CLO_STATUS_TSD n) = true → exec (.cloThermalShutdown n) s = .next s) ∧
    (s.flag (F.CLO_STATUS_TSD n) = false → ∀ e, exec (.cloThermalResume n e) s = .next s) :=
  ⟨fun h => if_neg (by simp [h]), fun h => if_pos h, fun h _ => if_neg (by simp [h])⟩

end

/-- Settles O39: tokens drive an output or are late, timeouts stop it, and headroom, current and heat act on a loop (R333 to R342). -/
theorem currentLoopCommands : Obligations.CurrentLoopCommands := by
  unfold Obligations.CurrentLoopCommands
  refine ⟨fun s n _ => s.cloDrive_cases n, fun s link source subst t => State.outCheck_ok source subst, fun s o link t echo ho => ?_,
    fun s o link t echo n ho hn => ?_, fun s o ho => ?_, fun s o n => producerTimeout_heater, headroomMeasure_spec, loopFaults_spec,
    fun s n => ⟨alarmNrTimeout_sets, alarmNrTimeout_off⟩, cloClr_spec, fun s n => ?_⟩
  · rw [outputToken_loop link t echo ho]
    refine ⟨fun h => congrArg Host.Outcome.next (State.cloToken_ignored echo h), fun v st u he hoe hs hu => ?_⟩
    obtain ⟨h1, h2, h3⟩ := State.cloToken_taken he hoe hs hu
    exact ⟨fun h => congrArg Host.Outcome.next (h1 echo h), fun h h' => congrArg Host.Outcome.next (h2 echo h h'),
      fun h h' => (outputToken_loop link t false ho).trans (congrArg Host.Outcome.next (h3 h h'))⟩
  · rw [outputToken_heater link t echo ho hn]
    refine ⟨fun h => congrArg Host.Outcome.next (State.vdrToken_ignored h), fun x st u hm hoe hs hu => ?_⟩
    obtain ⟨h1, h2⟩ := State.vdrToken_taken hm hoe hs hu
    exact ⟨fun h => congrArg Host.Outcome.next (h1 h), fun h => congrArg Host.Outcome.next (h2 h)⟩
  · have hexec : exec (.producerTimeout o) s = .next (s.cloTimeout o) := congrArg Host.Outcome.next (if_pos ho)
    rw [hexec]
    exact ⟨fun he hoe hs ht hn => congrArg Host.Outcome.next (State.cloTimeout_stops he hoe hs ht hn),
      fun h => congrArg Host.Outcome.next (State.cloTimeout_early h)⟩
  · obtain ⟨h1, h2, h3⟩ := cloThermal_cases s n
    exact ⟨h1, h2, fun u h hr hu => cloThermalResume_cools h hr hu, fun r hr ht e => cloThermalResume_early hr ht e, h3⟩

end Sys2Proof.Machine


/-! PROOFS. HART transactions and valve drivers (R344, R346 to R348). -/

namespace Sys2Proof.Machine

section
variable (s : State)

/-! ## HART (R344) -/

@[simp] theorem State.cloOf_setFld (f : Fld) (v n : Nat) : (s.setFld f v).cloOf n = s.cloOf n := State.cloOf_congr (State.setFld_clos ..) n

/-- A transaction's result is shown in HART_RES and CLO_FLT. -/
theorem State.hartEnd_spec {n : Nat} (hn : n < 16) {r : Nat} (hr : r < 4) : (s.hartEnd n r).fld (F.HART_RES_RESULT n) = r ∧
    (s.hartEnd n r).rbit Reg.CLO_FLT (16 + n) = true ∧ (s.hartEnd n r).flag (F.HART_RES_BUSY n) = s.flag (F.HART_RES_BUSY n) ∧
    SameMem s (s.hartEnd n r) ∧ RegsKept s (s.hartEnd n r) [Reg.HART_RES n, Reg.CLO_FLT, Reg.EVL_LOST] := by
  unfold State.hartEnd
  refine ⟨?_, ?_, ?_, ?_, ?_⟩
  · simpa (disch := grind) using hr
  · simp (disch := grind)
  · simp (disch := grind)
  · simp [SameMem]
  · simp

/-- A refusal is not logged. -/
theorem State.hartEnd_refused (n : Nat) : RegsKept s (s.hartEnd n 3) [Reg.HART_RES n, Reg.CLO_FLT] := by
  simp [State.hartEnd, State.logIf]

theorem State.hartEnd_noResponse (n : Nat) (d : Nat) (hd : d = s.num (Reg.HART_TX n 0)) :
    Logs s (s.hartEnd n 1) 0x0A17 (0x4000 + n) (1 + d % 256 * 2 ^ 8) := by
  subst hd
  have hnum : (((s.setFld (F.HART_RES_RESULT n) 1).setRbit Reg.CLO_FLT (16 + n) true)).num (Reg.HART_TX n 0) = s.num (Reg.HART_TX n 0) := by
    simp (disch := grind)
  unfold State.hartEnd
  dsimp only
  rw [hnum]
  exact logs_log _ _ _ (by simp)

variable {s} {n : Fin 16}

theorem hartGo_sends (he : s.flag (F.HART_CFG_EN n) = true) (hc : s.flag (F.CLO_CFG_EN n) = true) (hu : s.inUse (.clo n) = true)
    (ht : s.flag (F.CLO_STATUS_TSD n) = false) (hb : s.flag (F.HART_RES_BUSY n) = false) : Gives (.hartGo n) s (fun t =>
      t.flag (F.HART_RES_BUSY n) = true ∧ t.cloOf n = { s.cloOf n with retries := 0 } ∧ t.wire.length = s.wire.length + 1 ∧ SameMem s t ∧
      RegsKept s t [Reg.HART_RES n]) := by
  refine ⟨_, congrArg Host.Outcome.next (if_neg (by simp [he, hc, hu, ht, hb])), ?_⟩
  refine ⟨?_, ?_, ?_, ?_, ?_⟩
  · simp
  · exact (State.cloOf_congr (State.emit_clos ..) n).trans (State.cloOf_setClo ..)
  · simp
  · simp [SameMem]
  · simp

theorem hartGo_refused (h : s.flag (F.HART_CFG_EN n) = false ∨ s.flag (F.CLO_CFG_EN n) = false ∨ s.inUse (.clo n) = false ∨
      s.flag (F.CLO_STATUS_TSD n) = true ∨ s.flag (F.HART_RES_BUSY n) = true) : Gives (.hartGo n) s (fun t => t.fld (F.HART_RES_RESULT n) = 3 ∧
        t.rbit Reg.CLO_FLT (16 + n) = true ∧ t.flag (F.HART_RES_BUSY n) = s.flag (F.HART_RES_BUSY n) ∧ SameMem s t ∧
        RegsKept s t [Reg.HART_RES n, Reg.CLO_FLT]) := by
  obtain ⟨h1, h2, h3, h4, -⟩ := s.hartEnd_spec n.isLt (r := 3) (by decide)
  refine ⟨_, congrArg Host.Outcome.next (if_pos ?_), h1, h2, h3, h4, s.hartEnd_refused n⟩
  rcases h with h | h | h | h | h <;> simp [h]

/-- The words of an area are stored one after the other; nothing else changes. -/
theorem State.setAreaFrom_spec (s : State) (a k : Nat) (l : List Word) {t : State} (ht : t = (l.zipIdx k).foldl (fun s w => s.wr (a + 4 * w.2) w.1) s) :
    t.mem = s.mem ∧ (∀ i < l.length, t.rd (a + 4 * (k + i)) = l.getD i 0) ∧
    ∀ b, (∀ i < l.length, b ≠ a + 4 * (k + i)) → t.rd b = s.rd b := by
  subst ht
  induction l generalizing s k with
  | nil => simp
  | cons v l ih =>
    obtain ⟨hmem, hin, hout⟩ := ih (s.wr (a + 4 * k) v) (k + 1)
    rw [List.zipIdx_cons, List.foldl_cons]
    refine ⟨hmem, fun i hi => ?_, fun b hb => ?_⟩
    · cases i with
      | zero => exact (hout _ fun i _ => by omega).trans (State.rd_wr_self ..)
      | succ i =>
        have := hin i (by simpa using hi)
        rwa [show k + 1 + i = k + (i + 1) by omega] at this
    · rw [hout b fun i hi => by
        have := hb (i + 1) (by simpa using hi)
        omega]
      exact State.rd_wr_other s v (by simpa using hb 0 (by simp))

theorem State.setArea_take_spec (s : State) (a : Nat) (f : List Word) : (s.setArea a (f.take 68)).mem = s.mem ∧
    (∀ i, i < 68 → i < f.length → (s.setArea a (f.take 68)).rd (a + 4 * i) = f.getD i 0) ∧
    ∀ b, (b < a ∨ a + 4 * 68 ≤ b) → (s.setArea a (f.take 68)).rd b = s.rd b := by
  obtain ⟨hmem, hin, hout⟩ := s.setAreaFrom_spec a 0 (f.take 68) rfl
  refine ⟨hmem, fun i h1 h2 => ?_, fun b hb => hout b fun i hi => ?_⟩
  · have hi := hin i (by simp; omega)
    rw [Nat.zero_add] at hi
    rw [State.setArea, hi]
    simp [List.getD_eq_getElem?_getD, h1]
  · simp only [List.length_take] at hi
    omega

theorem hartResponse_good (f : List Word) (hb : s.flag (F.HART_RES_BUSY n) = true) : Gives (.hartResponse n true f) s (fun t =>
    t.flag (F.HART_RES_BUSY n) = false ∧ t.fld (F.HART_RES_RESULT n) = 0 ∧ t.rbit Reg.CLO_FLT (16 + n) = true ∧
    (∀ i, i < 68 → i < f.length → t.rd (Reg.HART_RSP n i) = f.getD i 0) ∧ SameMem s t) := by
  obtain ⟨hmem, hin, -⟩ := s.setArea_take_spec (Reg.HART_RSP n 0) f
  generalize hu : (s.setArea (Reg.HART_RSP n 0) (f.take 68)).setFld (F.HART_RES_BUSY n) 0 = u
  obtain ⟨h1, h2, h3, h4, h5⟩ := u.hartEnd_spec n.isLt (r := 0) (by decide)
  refine ⟨u.hartEnd n 0, ?_, ?_, h1, h2, fun i hi hl => ?_, fun b => (h4 b).trans ?_⟩
  · simp only [exec, execHartResponse, hb, Bool.not_true, Bool.false_eq_true, if_false, if_true, hu]
  · rw [h3, ← hu]
    simp
  · rw [h5 _ (by grind), ← hu, ← hin i hi hl]
    simp (disch := grind)
    rfl
  · rw [← hu]
    exact rdByte_of_mem ((State.setFld_mem ..).trans hmem) b

theorem hartResponse_retried (f : List Word) (hb : s.flag (F.HART_RES_BUSY n) = true) (hr : (s.cloOf n).retries < s.fld (F.HART_CFG_RETRIES n)) :
    Gives (.hartResponse n false f) s (fun t => t.flag (F.HART_RES_BUSY n) = true ∧
      t.cloOf n = { s.cloOf n with retries := (s.cloOf n).retries + 1 } ∧ SameMem s t ∧ RegsKept s t []) := by
  refine ⟨_, (if_neg (by simp [hb])).trans ((if_neg (by decide)).trans (if_pos hr)), ?_⟩
  refine ⟨?_, ?_, ?_, ?_⟩
  · simp [hb]
  · exact (State.cloOf_congr (State.emit_clos ..) n).trans (State.cloOf_setClo ..)
  · simp [SameMem]
  · simp

/-- A transaction that ends with a fault is no longer busy. -/
theorem State.hartFails_spec (s : State) (n : Fin 16) {r : Nat} (hr : r < 4) {t : State} (ht : t = (s.setFld (F.HART_RES_BUSY n) 0).hartEnd n r) :
    t.flag (F.HART_RES_BUSY n) = false ∧ t.fld (F.HART_RES_RESULT n) = r ∧ t.rbit Reg.CLO_FLT (16 + n) = true ∧ SameMem s t ∧
    RegsKept s t [Reg.HART_RES n, Reg.CLO_FLT, Reg.EVL_LOST] := by
  subst ht
  obtain ⟨h1, h2, h3, h4, h5⟩ := (s.setFld (F.HART_RES_BUSY n) 0).hartEnd_spec n.isLt hr
  refine ⟨h3.trans (by simp), h1, h2, fun b => (h4 b).trans (by simp), fun a ha => (h5 a ha).trans ?_⟩
  have hne : a ≠ Reg.HART_RES n := fun h => ha (by simp [h])
  simp (disch := assumption)

theorem hartNoResponse_ends (hb : s.flag (F.HART_RES_BUSY n) = true) : Gives (.hartNoResponse n) s (fun t => t.flag (F.HART_RES_BUSY n) = false ∧
    t.fld (F.HART_RES_RESULT n) = 1 ∧ t.rbit Reg.CLO_FLT (16 + n) = true ∧
    Logs s t 0x0A17 (0x4000 + n) (1 + s.num (Reg.HART_TX n 0) % 256 * 2 ^ 8) ∧ SameMem s t ∧
    RegsKept s t [Reg.HART_RES n, Reg.CLO_FLT, Reg.EVL_LOST]) := by
  obtain ⟨h1, h2, h3, h4, h5⟩ := s.hartFails_spec n (r := 1) (by decide) rfl
  have hlog := (s.setFld (F.HART_RES_BUSY n) 0).hartEnd_noResponse n (s.num (Reg.HART_TX n 0)) (by simp (disch := grind))
  exact ⟨_, if_pos hb, h1, h2, h3, fun hq => hlog (by simpa using hq), h4, h5⟩

theorem hartBurstRx_spec (s : State) (n : Fin 16) (f : List Word) : Gives (.hartBurstRx n f) s (fun t => t.flag (F.HART_RES_BURST n) = true ∧
    t.flag (F.HART_RES_BURST_OVR n) = (s.flag (F.HART_RES_BURST n) || s.flag (F.HART_RES_BURST_OVR n)) ∧
    (∀ i, i < 68 → i < f.length → t.rd (Reg.HART_BURST n i) = f.getD i 0) ∧ SameMem s t) := by
  obtain ⟨u, hu, hmem, hovr⟩ : ∃ u, u = (if s.flag (F.HART_RES_BURST n) then s.setFld (F.HART_RES_BURST_OVR n) 1 else s) ∧ u.mem = s.mem ∧
      u.flag (F.HART_RES_BURST_OVR n) = (s.flag (F.HART_RES_BURST n) || s.flag (F.HART_RES_BURST_OVR n)) := by
    refine ⟨_, rfl, ?_, ?_⟩ <;> split <;> simp_all
  obtain ⟨harea, hin, hout⟩ := u.setArea_take_spec (Reg.HART_BURST n 0) f
  refine ⟨(u.setArea (Reg.HART_BURST n 0) (f.take 68)).setFld (F.HART_RES_BURST n) 1, by rw [hu]; rfl, ?_, ?_, fun i hi hl => ?_, ?_⟩
  · simp
  · rw [← hovr]
    simp (disch := grind)
    exact State.flag_congr (hout _ (by grind))
  · rw [← hin i hi hl]
    simp (disch := grind)
    rfl
  · exact .of_eq ((State.setFld_mem ..).trans (harea.trans hmem))

theorem hartBurstRead_spec (s : State) (n : Fin 16) : Gives (.hartBurstRead n) s (fun t => t.flag (F.HART_RES_BURST n) = false ∧
    t.bus = ⟨false, s.num (Reg.HART_BURST n 0)⟩ ∧ SameMem s t ∧ RegsKept s t [Reg.HART_RES n]) := by
  refine ⟨_, rfl, ?_⟩
  refine ⟨?_, rfl, ?_, ?_⟩ <;> simp [SameMem]

end

/-! ## Valve drivers (R346, R347) -/

section
variable {s : State}

theorem State.vdrDrive_valve {n : Nat} (hm : s.vdrMode n = 1) : (s.vdrDrive n).vdrBit Reg.VDR_OUT n = (s.vdrBit Reg.VDR_CMD n && s.vdrCan n) ∧
    ((s.vdrBit Reg.VDR_CMD n && s.vdrCan n) = false → ((s.vdrDrive n).vdrOf n).phase = .off) ∧
    ((s.vdrBit Reg.VDR_CMD n && s.vdrCan n) = true → (s.vdrOf n).phase = .off → ((s.vdrDrive n).vdrOf n).phase =
      (if s.fld (F.VDR_HEAT_HIT n) = 0 then .hold else .hit) ∧ ((s.vdrDrive n).vdrOf n).since = s.time.cycle) ∧
    SameMem s (s.vdrDrive n) ∧ RegsKept s (s.vdrDrive n) [Reg.VDR_OUT (n / 32)] := by
  have hvdr (v : Vdr) (b : Bool) : ((s.setVdr n v).setVdrBit Reg.VDR_OUT n b).vdrOf n = v := by
    rw [State.setVdrBit, State.vdrOf_congr (State.setRbit_vdrs ..), State.vdrOf_setVdr]
  unfold State.vdrDrive
  simp only [hm, hvdr]
  generalize (s.vdrBit Reg.VDR_CMD n && s.vdrCan n) = on
  refine ⟨?_, fun h => ?_, fun h hp => ?_, ?_, ?_⟩
  · simp (disch := omega) [State.vdrBit, State.setVdrBit]
  · simp [h]
  · simp [h, hp]
  · simp [SameMem, State.setVdrBit]
  · simp [State.setVdrBit]

theorem State.vdrDrive_off {n : Nat} (hm : s.vdrMode n = 0) : (s.vdrDrive n).vdrBit Reg.VDR_OUT n = false ∧
    RegsKept s (s.vdrDrive n) [Reg.VDR_OUT (n / 32)] := by
  unfold State.vdrDrive
  simp only [hm]
  refine ⟨?_, ?_⟩
  · simp (disch := omega) [State.vdrBit, State.setVdrBit]
  · simp [State.setVdrBit]

theorem valveHitEnd_spec (s : State) (n : Fin 64) :
    ((s.vdrOf n).phase = .hit → (s.vdrOf n).since + s.fld (F.VDR_HEAT_HIT n) * (100 * cycPerUs) ≤ s.time.cycle → Gives (.valveHitEnd n) s (fun t =>
      t.vdrOf n = { s.vdrOf n with phase := .hold } ∧ SameMem s t ∧ RegsKept s t [])) ∧
    ((s.vdrOf n).phase ≠ .hit ∨ s.time.cycle < (s.vdrOf n).since + s.fld (F.VDR_HEAT_HIT n) * (100 * cycPerUs) → exec (.valveHitEnd n) s = .next s) := by
  have hiff : s.lasted (s.vdrOf n).since (s.fld (F.VDR_HEAT_HIT n) * (100 * cycPerUs)) = true ↔
      (s.vdrOf n).since + s.fld (F.VDR_HEAT_HIT n) * (100 * cycPerUs) ≤ s.time.cycle := State.lasted_iff
  refine ⟨fun hp ht => ⟨_, if_pos ⟨hp, hiff.mpr ht⟩, State.vdrOf_setVdr .., by simp [SameMem], by simp⟩, fun h => if_neg ?_⟩
  rintro ⟨hp, hl⟩
  have := hiff.mp hl
  rcases h with h | h
  · exact h hp
  · omega

theorem valveFaults_spec (s : State) (n : Fin 64) :
    (s.vdrBit Reg.VDR_OUT n = false → exec (.valveOvercurrent n) s = .next s) ∧
    (s.vdrBit Reg.VDR_OUT n = true → exec (.valveOvercurrent n) s = .next ((((((s.setVdr n { s.vdrOf n with
      tripped := true, trips := (s.vdrOf n).trips + 1, tripAt := s.time.cycle }).setVdrBit Reg.VDR_TRIP n true).log 0x0A20 (0x4100 + n)
        (min ((s.vdrOf n).trips + 1) 0xFFFFFFFF)).transient (.vdr n) 1).vdrDrive n))) ∧
    ((s.vdrOf n).tripped = true → (s.vdrOf n).tripAt + s.fld (F.VDR_CFG_RETRY_MS n) * cycPerMs ≤ s.time.cycle →
      exec (.valveRetryExpire n) s = .next ((s.setVdr n { s.vdrOf n with tripped := false, phase := .off }).vdrDrive n)) ∧
    ((s.vdrOf n).tripped = false ∨ s.time.cycle < (s.vdrOf n).tripAt + s.fld (F.VDR_CFG_RETRY_MS n) * cycPerMs →
      exec (.valveRetryExpire n) s = .next s) ∧
    ((s.vdrOf n).hot = false → exec (.valveOvertemp n) s = .next (((((s.setVdr n { s.vdrOf n with hot := true }).setVdrBit Reg.VDR_OT n
      true).log 0x0A22 (0x4100 + n) 0).transient (.vdr n) 2).vdrDrive n)) ∧
    ((s.vdrOf n).hot = true → exec (.valveOvertemp n) s = .next s) ∧
    ((s.vdrOf n).hot = true → exec (.valveCooled n) s = .next ((s.setVdr n { s.vdrOf n with hot := false, phase := .off }).vdrDrive n)) ∧
    ((s.vdrOf n).hot = false → exec (.valveCooled n) s = .next s) := by
  have hiff : s.lasted (s.vdrOf n).tripAt (s.fld (F.VDR_CFG_RETRY_MS n) * cycPerMs) = true ↔
      (s.vdrOf n).tripAt + s.fld (F.VDR_CFG_RETRY_MS n) * cycPerMs ≤ s.time.cycle := State.lasted_iff
  refine ⟨fun h => if_pos (by simp [h]), fun h => if_neg (by simp [h]), fun h ht => if_neg (by simp [h, hiff.mpr ht]), fun h => if_pos ?_,
    fun h => if_neg (by simp [h]), fun h => if_pos h, fun h => if_neg (by simp [h]), fun h => if_pos (by simp [h])⟩
  rcases h with h | h
  · simp [h]
  · rw [← not_le, ← hiff, Bool.not_eq_true] at h
    simp [h]

theorem valveOpenLoad_spec (s : State) (n : Fin 64) :
    (s.vdrBit Reg.VDR_OUT n = true → ∀ o, exec (.valveOpenLoad n o) s = .next s) ∧
    (s.vdrBit Reg.VDR_OUT n = false → s.coilOn (n / 16) = true → s.vdrBit Reg.VDR_OPEN n = false → Gives (.valveOpenLoad n true) s (fun t =>
      t.vdrBit Reg.VDR_OPEN n = true ∧ Logs s t 0x0A21 (0x4100 + n) 0 ∧ SameMem s t ∧ RegsKept s t [Reg.VDR_OPEN (n / 32), Reg.EVL_LOST])) ∧
    (s.vdrBit Reg.VDR_OUT n = false → s.coilOn (n / 16) = true → s.vdrBit Reg.VDR_OPEN n = true → Gives (.valveOpenLoad n false) s (fun t =>
      t.vdrBit Reg.VDR_OPEN n = false ∧ SameMem s t ∧ RegsKept s t [Reg.VDR_OPEN (n / 32)])) := by
  have hlt : n.val % 32 < 32 := Nat.mod_lt _ (by decide)
  refine ⟨fun h o => if_pos (by simp [h]), fun ho hc hp => ⟨_, if_neg (by simp [ho, hc, hp]), ?_⟩, fun ho hc hp => ⟨_, if_neg (by simp [ho, hc, hp]), ?_⟩⟩
  · refine ⟨?_, logs_log _ _ _ (by simp [State.setVdrBit]), ?_, ?_⟩
    · simp (disch := grind) [State.vdrBit, State.setVdrBit]
    · simp [SameMem, State.setVdrBit]
    · simp [State.setVdrBit]
  · refine ⟨?_, ?_, ?_⟩ <;> simp (disch := grind) [State.vdrBit, State.setVdrBit, SameMem, State.logIf]

theorem coilSupply_spec (s : State) (g : Fin 4) :
    (bit (s.fld F.VDR_GRP_GRP_OFF) g = false → exec (.coilSupplyAbsent g) s = .next ((((s.setRbit Reg.VDR_GRP g true).setRbit Reg.VDR_GRP
      (4 + g) true).log 0x0A23 (0x4100 + 16 * g) g).groupDrive g) ∧ exec (.coilSupplyRestored g) s = .next s) ∧
    (bit (s.fld F.VDR_GRP_GRP_OFF) g = true → exec (.coilSupplyAbsent g) s = .next s ∧ exec (.coilSupplyRestored g) s =
      .next (((List.range 16).foldl (fun u i => u.setVdr (16 * g + i) { u.vdrOf (16 * g + i) with phase := .off })
        ((s.setRbit Reg.VDR_GRP g false).setRbit Reg.VDR_GRP (4 + g) true)).groupDrive g)) :=
  ⟨fun h => ⟨congrArg Host.Outcome.next (if_neg (by simp [h])), congrArg Host.Outcome.next (if_pos (by simp [h]))⟩,
    fun h => ⟨congrArg Host.Outcome.next (if_pos h), congrArg Host.Outcome.next (if_neg (by simp [h]))⟩⟩

/-! ## Heaters (R348) -/

theorem heaterCycleDecision_decides {n : Fin 64} {d : Rat} {v : Word} {st : BitVec 4} {q : Nat} (hm : s.vdrMode n = 2) (ho : s.oe = true)
    (hf : s.fld (F.CRS_STATUS_STATE (s.fld (F.VDR_HEAT_HCRS n))) = 2 ∨ s.fld (F.CRS_STATUS_STATE (s.fld (F.VDR_HEAT_HCRS n))) = 3)
    (hc : (s.vdrOf n).cyc ≠ s.heatCycle n) (ht : (s.vdrOf n).tok = some (v, st, q)) (hd : d = f32R (F32.clamp 0 hundred v)) :
    ((s.vdrOf n).acc + d < 100 → exec (.heaterCycleDecision n) s = .next (((s.setVdr n { s.vdrOf n with acc := (s.vdrOf n).acc + d, cyc := s.heatCycle n }).setVdrBit
      Reg.VDR_CMD n false).vdrDrive n)) ∧
    (100 ≤ (s.vdrOf n).acc + d → exec (.heaterCycleDecision n) s = .next (((s.setVdr n { s.vdrOf n with
      acc := (s.vdrOf n).acc + d - 100, cyc := s.heatCycle n }).setVdrBit Reg.VDR_CMD n true).vdrDrive n)) := by
  have hfires : s.heatFires n = true := by simpa [State.heatFires] using hf
  have hgo : (decide (s.vdrMode n ≠ 2) || !s.oe || !s.heatFires n || (s.vdrOf n).cyc == s.heatCycle n) = false := by simp [hm, ho, hfires, hc]
  subst hd
  refine ⟨fun h => ?_, fun h => ?_⟩
  · have hoff : decide (100 ≤ (s.vdrOf n).acc + f32R (F32.clamp 0 hundred v)) = false := by simpa using h
    simp only [exec, execHeaterCycleDecision, hgo, ht, hoff, Bool.false_eq_true, if_false]
  · have hon : decide (100 ≤ (s.vdrOf n).acc + f32R (F32.clamp 0 hundred v)) = true := by simpa using h
    simp only [exec, execHeaterCycleDecision, hgo, ht, hon, Bool.false_eq_true, if_false, if_true]

theorem heaterCycleDecision_none {n : Fin 64} (h : s.vdrMode n ≠ 2 ∨ s.oe = false ∨ s.heatFires n = false ∨ (s.vdrOf n).cyc = s.heatCycle n) :
    exec (.heaterCycleDecision n) s = .next s := if_pos (by rcases h with h | h | h | h <;> simp [h])

end

/-- Settles O40: HART requests, responses and bursts, valve drivers, their faults and supplies, and heaters' cycles (R344, R346 to R348). -/
theorem hartAndValveCommands : Obligations.HartAndValveCommands := by
  unfold Obligations.HartAndValveCommands
  refine ⟨fun s n => ⟨hartGo_sends, hartGo_refused⟩, fun s n f hb => ⟨hartResponse_good f hb, hartResponse_retried f hb, fun hr => ?_,
      hartNoResponse_ends hb⟩,
    fun s n f => ⟨fun hb => ⟨if_pos (by simp [hb]), if_neg (by simp [hb])⟩, hartBurstRx_spec s n f, hartBurstRead_spec s n⟩,
    fun s n _ => ⟨State.vdrDrive_valve, State.vdrDrive_off⟩, fun s n => ?_, valveOpenLoad_spec, coilSupply_spec,
    fun s n d v st q => heaterCycleDecision_decides, fun s n => heaterCycleDecision_none⟩
  · obtain ⟨h1, h2, -, h4, h5⟩ := s.hartFails_spec n (r := 2) (by decide) rfl
    exact ⟨_, (if_neg (by simp [hb])).trans ((if_neg (by decide)).trans (if_neg (by omega))), h1, h2, h4, h5⟩
  · obtain ⟨hhit, hearly⟩ := valveHitEnd_spec s n
    exact ⟨hhit, hearly, valveFaults_spec s n⟩

end Sys2Proof.Machine


/-! PROOFS. CAN reception, acknowledgements and errors (R360 to R364, R368 to R373). -/

namespace Sys2Proof.Machine

section
variable {s : State}

@[simp] theorem State.canOf_setCan (s : State) (n : Nat) (c : CanState) : (s.setCan n c).canOf n = c := by
  simp [State.canOf, State.setCan, Tab.get, Tab.find_put_self]
theorem State.canOf_congr {s t : State} (h : t.cans = s.cans) (n : Nat) : t.canOf n = s.canOf n := by unfold State.canOf; rw [h]
@[simp] theorem State.canOf_setFld (s : State) (f : Fld) (v n : Nat) : (s.setFld f v).canOf n = s.canOf n := State.canOf_congr (State.setFld_cans ..) n
@[simp] theorem State.canOf_setRbit (s : State) (a i : Nat) (b : Bool) (n : Nat) : (s.setRbit a i b).canOf n = s.canOf n :=
  State.canOf_congr (State.setRbit_cans ..) n

/-! ## Words stored one after the other -/

theorem State.setWordsFrom_spec (s : State) (a k : Nat) (l : List Nat) {t : State}
    (ht : t = (l.zipIdx k).foldl (fun s w => s.setNum (a + 4 * w.2) w.1) s) :
    t.mem = s.mem ∧ (∀ i < l.length, t.num (a + 4 * (k + i)) = l.getD i 0 % 2 ^ 32) ∧
    ∀ b, (∀ i < l.length, b ≠ a + 4 * (k + i)) → t.rd b = s.rd b := by
  subst ht
  induction l generalizing s k with
  | nil => simp
  | cons v l ih =>
    obtain ⟨hmem, hin, hout⟩ := ih (s.setNum (a + 4 * k) v) (k + 1)
    rw [List.zipIdx_cons, List.foldl_cons]
    refine ⟨hmem, fun i hi => ?_, fun b hb => ?_⟩
    · cases i with
      | zero => exact (congrArg BitVec.toNat (hout _ fun i _ => by omega)).trans (State.num_setNum_self ..)
      | succ i =>
        have := hin i (by simpa using hi)
        rwa [show k + 1 + i = k + (i + 1) by omega] at this
    · rw [hout b fun i hi => by
        have := hb (i + 1) (by simpa using hi)
        omega]
      exact State.rd_wr_other s _ (by simpa using hb 0 (by simp))

/-- The words of an element of 21 words. -/
theorem State.setElem_spec (s : State) (a : Nat) {l : List Nat} (hl : l.length = 21) {t : State}
    (ht : t = l.zipIdx.foldl (fun s w => s.setNum (a + 4 * w.2) w.1) s) :
    t.mem = s.mem ∧ (∀ w < 21, t.num (a + 4 * w) = l.getD w 0 % 2 ^ 32) ∧ ∀ b, b < a ∨ a + 84 ≤ b → t.rd b = s.rd b := by
  obtain ⟨hmem, hin, hout⟩ := s.setWordsFrom_spec a 0 l ht
  refine ⟨hmem, fun w hw => ?_, fun b hb => hout b fun i hi => by omega⟩
  have := hin w (by omega)
  rwa [Nat.zero_add] at this

theorem State.clearWords_spec (s : State) (a k : Nat) {t : State} (ht : t = (List.range k).foldl (fun s w => s.setNum (a + 4 * w) 0) s) :
    t.mem = s.mem ∧ (∀ w < k, t.num (a + 4 * w) = 0) ∧ ∀ b, b < a ∨ a + 4 * k ≤ b → t.rd b = s.rd b := by
  subst ht
  induction k with
  | zero => simp
  | succ k ih =>
    obtain ⟨hmem, hin, hout⟩ := ih
    rw [List.range_succ, List.foldl_append, List.foldl_cons, List.foldl_nil]
    refine ⟨hmem, fun w hw => ?_, fun b hb => (State.rd_wr_other _ _ (by omega)).trans (hout b (by omega))⟩
    by_cases hwk : w = k
    · subst hwk
      exact (State.num_setNum_self ..).trans (by decide)
    · exact (congrArg BitVec.toNat (State.rd_wr_other _ _ (by omega))).trans (hin w (by omega))

/-! ## Reception (R360 to R364) -/

theorem canFrameRx_accepts {n : Fin 8} {f : CanFrame} {t : Stamp} {u : State} (hup : s.canUp n = true) (hm : s.fld (F.CAN_CTRL_MODE n) ≠ 2)
    (hf : f.fdf = false ∨ s.flag (F.CAN_CTRL_FD_EN n) = true) (hr : (s.canOf n).rec_ ≤ 127)
    (hu : u = (s.setCan n { s.canOf n with rec_ := (s.canOf n).rec_ - 1 }).errState n) :
    exec (.canFrameRx n f t) s = .next (u.canAccept n f t) := by
  have hdown : s.recDown n = s.setCan n { s.canOf n with rec_ := (s.canOf n).rec_ - 1 } := if_neg (by omega)
  rw [hu, ← hdown]
  refine (if_neg (by simp [hup, hm])).trans (if_neg ?_)
  rcases hf with hf | hf <;> simp [hf]

theorem State.canAccept_dest {n : Nat} {f : CanFrame} {t : Stamp} (hr : (f.rtr && s.flag (F.CAN_CTRL_RTR_REJ n)) = false) :
    (∀ idx k, s.canFilterOf n f = (idx, .fifo k) → s.canAccept n f t = (s.fifoStore n k (rxElem f idx t)).rxMapped n idx f) ∧
    (∀ idx i, s.canFilterOf n f = (idx, .buffer i) → s.canAccept n f t = (s.bufStore n i (rxElem f idx t)).rxMapped n idx f) ∧
    (∀ idx, s.canFilterOf n f = (idx, .discard) ∨ s.canFilterOf n f = (idx, .reject) → s.canAccept n f t = s) := by
  unfold State.canAccept
  simp only [hr, Bool.false_eq_true, if_false]
  exact ⟨fun idx k h => by simp only [h], fun idx i h => by simp only [h], fun idx h => by rcases h with h | h <;> simp only [h]⟩

theorem canFrameRx_form {n : Fin 8} {f : CanFrame} {t : Stamp} (hup : s.canUp n = true) (hm : s.fld (F.CAN_CTRL_MODE n) ≠ 2) (hf : f.fdf = true)
    (he : s.flag (F.CAN_CTRL_FD_EN n) = false) : exec (.canFrameRx n f t) s =
      .next ((s.setCan n { s.canOf n with rec_ := (s.canOf n).rec_ + 1 }).errState n) :=
  (if_neg (by simp [hup, hm])).trans (if_pos (by simp [hf, he]))

theorem canFrameRx_deaf {n : Fin 8} {f : CanFrame} {t : Stamp} (h : s.canUp n = false ∨ s.fld (F.CAN_CTRL_MODE n) = 2) :
    exec (.canFrameRx n f t) s = .next s := if_pos (by rcases h with h | h <;> simp [h])

/-- A ring of 32 elements that takes one more. -/
theorem State.ringPut_spec (s : State) (a : Nat) : (s.ringPut a).1 = s.fld ⟨a, 10, 5⟩ ∧ (s.ringPut a).2.mem = s.mem ∧
    (s.ringPut a).2.fld ⟨a, 10, 5⟩ = (s.fld ⟨a, 10, 5⟩ + 1) % 32 ∧ (s.ringPut a).2.fld ⟨a, 5, 5⟩ = s.fld ⟨a, 5, 5⟩ ∧
    (s.ringPut a).2.fld ⟨a, 0, 5⟩ = (s.fld ⟨a, 0, 5⟩ + 1) % 32 ∧ (s.ringPut a).2.flag ⟨a, 15, 1⟩ = (s.fld ⟨a, 0, 5⟩ + 1 == 32) ∧
    ∀ b, b ≠ a → (s.ringPut a).2.rd b = s.rd b := by
  unfold State.ringPut
  refine ⟨rfl, ?_, ?_, ?_, ?_, ?_, fun b hb => ?_⟩
  · simp
  · simp (disch := grind)
  · simp (disch := grind)
  · simp (disch := grind)
  · by_cases h : s.fld ⟨a, 0, 5⟩ = 31 <;> simp (disch := grind) [b2n, h]
  · simp (disch := assumption)

theorem State.fifoStore_room {n f e : Nat} {ws : List Nat} (hf : f < 2) (hl : ws.length = 21)
    (hfull : s.flag (F.RXF_STATUS_FULL n f) = false) (he : e = s.fld (F.RXF_STATUS_PUT n f)) :
    (∀ w < 21, (s.fifoStore n f ws).num (Reg.CAN_RXF n f e w) = ws.getD w 0 % 2 ^ 32) ∧
    (s.fifoStore n f ws).fld (F.RXF_STATUS_PUT n f) = (e + 1) % 32 ∧ (s.fifoStore n f ws).fld (F.RXF_STATUS_GET n f) = s.fld (F.RXF_STATUS_GET n f) ∧
    (s.fifoStore n f ws).fld (F.RXF_STATUS_FILL n f) = (s.fld (F.RXF_STATUS_FILL n f) + 1) % 32 ∧
    (s.fifoStore n f ws).flag (F.RXF_STATUS_FULL n f) = (s.fld (F.RXF_STATUS_FILL n f) + 1 == 32) ∧
    (s.fifoStore n f ws).rbit (Reg.CAN_IRQ n) (1 + f) = true ∧ SameMem s (s.fifoStore n f ws) := by
  obtain ⟨he1, hmem, hput, hget, hfill, hfl, -⟩ := s.ringPut_spec (Reg.RXF_STATUS n f)
  have hlt : e < 32 := he ▸ bitsOf_lt _ _ _
  rw [← he] at he1 hput
  unfold State.fifoStore
  simp only [hfull, Bool.false_and, Bool.false_eq_true, if_false, he1]
  generalize (s.ringPut (Reg.RXF_STATUS n f)).2 = u at hmem hput hget hfill hfl ⊢
  obtain ⟨hmem', hin, hout⟩ := u.setElem_spec (0xE020B000 + 0x10000 * n + 0xC00 * f + 0x60 * e) hl rfl
  generalize List.foldl _ u ws.zipIdx = v at hmem' hin hout ⊢
  have hne (w : Nat) : Reg.CAN_RXF n f e w ≠ Reg.CAN_IRQ n := by grind
  have hst : v.rd (Reg.RXF_STATUS n f) = u.rd (Reg.RXF_STATUS n f) := hout _ (by grind)
  have hirq : Reg.RXF_STATUS n f ≠ Reg.CAN_IRQ n := by grind
  unfold State.canIrq
  refine ⟨fun w hw => ?_, ?_, ?_, ?_, ?_, ?_, ?_⟩
  · simpa [hne] using hin w hw
  · simpa [hirq] using (State.fld_congr hst).trans hput
  · simpa [hirq] using (State.fld_congr hst).trans hget
  · simpa [hirq] using (State.fld_congr hst).trans hfill
  · simpa [hirq] using (State.flag_congr hst).trans hfl
  · simp (disch := omega)
  · exact .of_eq ((State.setRbit_mem ..).trans (hmem'.trans hmem))

theorem State.bufStore_free {n i : Nat} {ws : List Nat} (hl : ws.length = 21) (hlock : s.rxbBit Reg.RXB_LOCK n i = false) :
    (∀ w < 21, (s.bufStore n i ws).num (Reg.CAN_RXB n i w) = ws.getD w 0 % 2 ^ 32) ∧ (s.bufStore n i ws).rxbBit Reg.RXB_NEW n i = true ∧
    (s.rxbBit Reg.RXB_NEW n i = true → (s.bufStore n i ws).rxbBit Reg.RXB_OVW n i = true) ∧
    (s.bufStore n i ws).rbit (Reg.CAN_IRQ n) 0 = true ∧ SameMem s (s.bufStore n i ws) := by
  unfold State.bufStore
  simp only [hlock, Bool.false_eq_true, if_false]
  have hlt : i % 32 < 32 := Nat.mod_lt _ (by decide)
  obtain ⟨u, hu, hmem, hovw⟩ : ∃ u, u = (if s.rxbBit Reg.RXB_NEW n i then s.setRxbBit Reg.RXB_OVW n i true else s) ∧ u.mem = s.mem ∧
      (s.rxbBit Reg.RXB_NEW n i = true → u.rxbBit Reg.RXB_OVW n i = true) := by
    refine ⟨_, rfl, ?_, fun h => ?_⟩
    · split <;> simp [State.setRxbBit]
    · rw [if_pos h]
      simp (disch := omega) [State.setRxbBit, State.rxbBit]
  rw [← hu]
  obtain ⟨hmem', hin, hout⟩ := u.setElem_spec (0xE0209000 + 0x10000 * n + 0x80 * i) hl rfl
  generalize List.foldl _ u ws.zipIdx = v at hmem' hin hout ⊢
  have hne (w : Nat) (hw : w < 21) : Reg.CAN_RXB n i w ≠ Reg.CAN_IRQ n ∧ Reg.CAN_RXB n i w ≠ Reg.RXB_NEW n (i / 32) := by grind
  have hov : v.rd (Reg.RXB_OVW n (i / 32)) = u.rd (Reg.RXB_OVW n (i / 32)) := hout _ (by grind)
  unfold State.canIrq State.setRxbBit State.rxbBit
  refine ⟨fun w hw => ?_, ?_, fun h => ?_, ?_, ?_⟩
  · simpa [hne w hw] using hin w hw
  · simp (disch := grind)
  · have := hovw h
    simp (disch := grind)
    unfold State.rxbBit State.rbit State.num at this
    unfold State.rbit State.num
    rw [hov]
    exact this
  · simp (disch := grind)
  · exact .of_eq ((State.setRbit_mem ..).trans ((State.setRbit_mem ..).trans (hmem'.trans hmem)))

/-! ## RX buffers read and released (R362) -/

theorem canRxbReadWord0_new {n : Fin 8} {i : Fin 64} (h : s.rxbBit Reg.RXB_NEW n i = true) : Gives (.canRxbReadWord0 n i) s (fun t =>
    t.rxbBit Reg.RXB_NEW n i = false ∧ t.rxbBit Reg.RXB_LOCK n i = true ∧ t.bus = ⟨false, s.num (Reg.CAN_RXB n i 0)⟩ ∧ SameMem s t ∧
    RegsKept s t [Reg.RXB_NEW n (i / 32), Reg.RXB_LOCK n (i / 32)]) := by
  have hlt : i.val % 32 < 32 := Nat.mod_lt _ (by decide)
  have hview : s.rxbView n i 0 = s.num (Reg.CAN_RXB n i 0) := by simp [State.rxbView, h]
  refine ⟨_, if_pos h, ?_⟩
  refine ⟨?_, ?_, ?_, ?_, ?_⟩
  · simp (disch := grind) [State.rxbBit, State.setRxbBit]
  · simp (disch := grind) [State.rxbBit, State.setRxbBit]
  · rw [hview]
    rfl
  · simp [SameMem, State.setRxbBit]
  · simp [State.setRxbBit]

theorem canRxbReadWord0_empty {n : Fin 8} {i : Fin 64} (h : s.rxbBit Reg.RXB_NEW n i = false) (hl : s.rxbBit Reg.RXB_LOCK n i = false) :
    Gives (.canRxbReadWord0 n i) s (fun t => t.bus = ⟨false, 0⟩ ∧ SameMem s t ∧ RegsKept s t []) := by
  have hview : s.rxbView n i 0 = 0 := by simp [State.rxbView, h, hl]
  refine ⟨_, if_neg (by simp [h]), ?_, ?_, ?_⟩
  · rw [hview]
    rfl
  · simp [SameMem]
  · simp

/-- A buffer set free is unlocked and its words read 0; of the registers outside its words only its LOCK bit changes. -/
theorem State.rxbFree_spec (s : State) (n i : Nat) : (s.rxbFree n i).mem = s.mem ∧ (s.rxbFree n i).rxbBit Reg.RXB_LOCK n i = false ∧
    (∀ w < 21, (s.rxbFree n i).num (Reg.CAN_RXB n i w) = 0) ∧
    ∀ j < 64, j ≠ i → (s.rxbFree n i).rxbBit Reg.RXB_LOCK n j = s.rxbBit Reg.RXB_LOCK n j := by
  obtain ⟨hmem, hin, hout⟩ := s.clearWords_spec (0xE0209000 + 0x10000 * n + 0x80 * i) 21 rfl
  unfold State.rxbFree
  generalize List.foldl _ s (List.range 21) = u at hmem hin hout ⊢
  have hlt (j : Nat) : j % 32 < 32 := Nat.mod_lt _ (by decide)
  have hrbit (j : Nat) (hj : j < 64) : u.rbit (Reg.RXB_LOCK n (j / 32)) (j % 32) = s.rbit (Reg.RXB_LOCK n (j / 32)) (j % 32) := by
    unfold State.rbit State.num
    rw [hout _ (by grind)]
  unfold State.setRxbBit State.rxbBit
  refine ⟨(State.setRbit_mem ..).trans hmem, ?_, fun w hw => ?_, fun j hj hne => ?_⟩
  · simp (disch := grind)
  · have haddr : Reg.CAN_RXB n i w ≠ Reg.RXB_LOCK n (i / 32) := by grind
    simpa [haddr] using hin w hw
  · rw [← hrbit j hj]
    by_cases hd : j / 32 = i / 32
    · have hm : j % 32 ≠ i % 32 := by omega
      rw [hd]
      simp [hm, hlt]
    · have haddr : Reg.RXB_LOCK n (j / 32) ≠ Reg.RXB_LOCK n (i / 32) := by grind
      exact (State.regsBut_setRbit ..).2.2.2.1 _ _ haddr

theorem canRxbReadLast_locked {n : Fin 8} {i : Fin 64} (h : s.rxbBit Reg.RXB_LOCK n i = true) : Gives (.canRxbReadLast n i) s (fun t =>
    t.bus = ⟨false, s.rxbView n i (s.rxbLast n i)⟩ ∧ t.rxbBit Reg.RXB_LOCK n i = false ∧ (∀ w < 21, t.num (Reg.CAN_RXB n i w) = 0) ∧ SameMem s t) := by
  obtain ⟨hmem, hbit, hnum, -⟩ := s.rxbFree_spec n i
  refine ⟨_, if_pos h, rfl, ?_, fun w hw => ?_, ?_⟩
  · simpa [State.rxbBit] using hbit
  · simpa using hnum w hw
  · exact .of_eq ((State.setBus_mem ..).trans hmem)

theorem canRxbReadLast_free {n : Fin 8} {i : Fin 64} (h : s.rxbBit Reg.RXB_LOCK n i = false) : Gives (.canRxbReadLast n i) s (fun t =>
    t.bus = ⟨false, s.rxbView n i (s.rxbLast n i)⟩ ∧ SameMem s t ∧ RegsKept s t []) :=
  ⟨_, if_neg (by simp [h]), rfl, by simp [SameMem], by simp⟩

/-- What a bit of a mask of RXB_REL does to its buffer. -/
def State.rxbRelease (s : State) (n i : Nat) : State := if s.rxbBit Reg.RXB_LOCK n i then s.rxbFree n i else s

theorem State.rxbRelease_spec (s : State) (n i : Nat) : (s.rxbRelease n i).mem = s.mem ∧
    (s.rxbRelease n i).rxbBit Reg.RXB_LOCK n i = false ∧
    ∀ j < 64, j ≠ i → (s.rxbRelease n i).rxbBit Reg.RXB_LOCK n j = s.rxbBit Reg.RXB_LOCK n j := by
  unfold State.rxbRelease
  split
  next =>
    obtain ⟨hmem, hbit, -, hother⟩ := s.rxbFree_spec n i
    exact ⟨hmem, hbit, hother⟩
  next h => exact ⟨rfl, by simpa using h, fun _ _ _ => rfl⟩

theorem State.rxbReleases_spec (s : State) (n : Nat) {g : Nat} (hg : g < 2) {l : List Nat} (hl : ∀ k ∈ l, k < 32) {t : State}
    (ht : t = l.foldl (fun s k => s.rxbRelease n (32 * g + k)) s) : t.mem = s.mem ∧
    (∀ k ∈ l, t.rxbBit Reg.RXB_LOCK n (32 * g + k) = false) ∧
    ∀ k < 32, k ∉ l → t.rxbBit Reg.RXB_LOCK n (32 * g + k) = s.rxbBit Reg.RXB_LOCK n (32 * g + k) := by
  subst ht
  induction l using List.reverseRecOn with
  | nil => simp
  | append_singleton l k ih =>
    obtain ⟨hmem, hin, hout⟩ := ih fun j hj => hl j (by simp [hj])
    have hk : k < 32 := hl k (by simp)
    rw [List.foldl_append, List.foldl_cons, List.foldl_nil]
    generalize List.foldl _ s l = u at hmem hin hout ⊢
    obtain ⟨hmem', hbit, hother⟩ := u.rxbRelease_spec n (32 * g + k)
    refine ⟨hmem'.trans hmem, fun j hj => ?_, fun j hj hnot => ?_⟩
    · by_cases hjk : j = k
      · rw [hjk]
        exact hbit
      · have hjl : j ∈ l := by simpa [hjk] using hj
        exact (hother _ (by have := hl j hj; omega) (by omega)).trans (hin j hjl)
    · simp only [List.mem_append, List.mem_singleton, not_or] at hnot
      exact (hother _ (by omega) (by omega)).trans (hout j hj hnot.1)

theorem canRxbRel_spec (s : State) (n : Fin 8) (g : Fin 2) (mask : Word) : Gives (.canRxbRel n g mask) s (fun t =>
    (∀ k < 32, bit mask.toNat k = true → t.rxbBit Reg.RXB_LOCK n (32 * g + k) = false) ∧
    (∀ k < 32, bit mask.toNat k = false → t.rxbBit Reg.RXB_LOCK n (32 * g + k) = s.rxbBit Reg.RXB_LOCK n (32 * g + k)) ∧ SameMem s t) := by
  obtain ⟨hmem, hin, hout⟩ := s.rxbReleases_spec n g.isLt (l := (List.range 32).filter (fun k => bit mask.toNat k)) (by simp; tauto) rfl
  refine ⟨_, rfl, fun k hk hb => hin k (by simp [hk, hb]), fun k hk hb => hout k hk (by simp [hb]), .of_eq hmem⟩

/-! ## Acknowledgements (R364, R368) -/

theorem State.ringAck_spec (s : State) {a i get fill : Nat} (hget : get = s.fld ⟨a, 5, 5⟩) (hfill : fill = (if s.fld ⟨a, 15, 1⟩ = 1 then 32 else s.fld ⟨a, 0, 5⟩)) :
    ((i + 32 - get) % 32 + 1 ≤ fill → (s.ringAck a i).fld ⟨a, 5, 5⟩ = (i + 1) % 32 ∧ (s.ringAck a i).fld ⟨a, 15, 1⟩ = 0 ∧
      (s.ringAck a i).fld ⟨a, 0, 5⟩ = fill - ((i + 32 - get) % 32 + 1) ∧ (s.ringAck a i).fld ⟨a, 10, 5⟩ = s.fld ⟨a, 10, 5⟩ ∧
      RegsKept s (s.ringAck a i) [a]) ∧ (fill < (i + 32 - get) % 32 + 1 → s.ringAck a i = s) := by
  have hle : fill ≤ 32 := by
    have : s.fld ⟨a, 0, 5⟩ < 32 := bitsOf_lt _ _ _
    rw [hfill]
    split <;> omega
  have heq : s.ringAck a i = if (i + 32 - get) % 32 + 1 ≤ fill then ((s.setFld ⟨a, 5, 5⟩ ((i + 1) % 32)).setFld ⟨a, 15, 1⟩ 0).setFld ⟨a, 0, 5⟩
      (fill - ((i + 32 - get) % 32 + 1)) else s := by
    rw [hget, hfill]
    rfl
  rw [heq]
  refine ⟨fun h => ?_, fun h => if_neg (by omega)⟩
  rw [if_pos h]
  refine ⟨?_, ?_, ?_, ?_, ?_⟩
  · simp (disch := grind)
  · simp (disch := grind)
  · rw [State.fld_setFld_same _ _ (by simp)]
    exact Nat.mod_eq_of_lt (by simp only []; omega)
  · simp (disch := grind)
  · simp

/-! ## Errors (R369 to R373) -/

theorem canBusError_none {n : Fin 8} (h : s.canUp n = true) :
    exec (.canBusError n .tx8 none) s = .next ((s.setCan n { s.canOf n with tec := (s.canOf n).tec + 8 }).errState n) ∧
    exec (.canBusError n .tx0 none) s = .next ((s.setCan n (s.canOf n)).errState n) ∧
    exec (.canBusError n .rx1 none) s = .next ((s.setCan n { s.canOf n with rec_ := (s.canOf n).rec_ + 1 }).errState n) ∧
    exec (.canBusError n .rx8 none) s = .next ((s.setCan n { s.canOf n with rec_ := (s.canOf n).rec_ + 8 }).errState n) :=
  ⟨if_neg (by simp [h]), if_neg (by simp [h]), if_neg (by simp [h]), if_neg (by simp [h])⟩

/-- TEC, REC and RP of a controller shown in CAN_STATUS. -/
def State.showCounts (s : State) (n : Nat) : State :=
  ((s.setFld (F.CAN_STATUS_TEC n) (min 255 (s.canOf n).tec)).setFld (F.CAN_STATUS_REC n) (min 127 (s.canOf n).rec_)).setFld (F.CAN_STATUS_RP n)
    (b2n (decide (128 ≤ (s.canOf n).rec_)))

theorem State.showCounts_spec (s : State) (n : Nat) : (s.showCounts n).fld (F.CAN_STATUS_STATE n) = s.fld (F.CAN_STATUS_STATE n) ∧
    (s.showCounts n).fld (F.CAN_STATUS_TEC n) = min 255 (s.canOf n).tec ∧ (s.showCounts n).fld (F.CAN_STATUS_REC n) = min 127 (s.canOf n).rec_ ∧
    (s.showCounts n).canOf n = s.canOf n ∧ (s.showCounts n).mem = s.mem ∧ RegsKept s (s.showCounts n) [Reg.CAN_STATUS n] := by
  unfold State.showCounts
  refine ⟨?_, ?_, ?_, ?_, ?_, ?_⟩
  · simp (disch := grind)
  · simp (disch := grind)
  · simp (disch := grind)
  · simp
  · simp
  · simp

/-- EW shown, with its interrupt flag where it changes. -/
def State.showWarning (s : State) (n : Nat) (ew : Bool) : State :=
  if s.flag (F.CAN_STATUS_EW n) = ew then s else (s.setFld (F.CAN_STATUS_EW n) (b2n ew)).canIrq n 6

theorem State.showWarning_spec (s : State) (n : Nat) (ew : Bool) : (s.showWarning n ew).flag (F.CAN_STATUS_EW n) = ew ∧
    (∀ l w, l + w ≤ 18 → (s.showWarning n ew).fld ⟨Reg.CAN_STATUS n, l, w⟩ = s.fld ⟨Reg.CAN_STATUS n, l, w⟩) ∧
    (s.rbit (Reg.CAN_IRQ n) 9 = true → (s.showWarning n ew).rbit (Reg.CAN_IRQ n) 9 = true) ∧ (s.showWarning n ew).canOf n = s.canOf n ∧
    (s.showWarning n ew).mem = s.mem ∧ RegsKept s (s.showWarning n ew) [Reg.CAN_STATUS n, Reg.CAN_IRQ n] := by
  have hne : Reg.CAN_STATUS n ≠ Reg.CAN_IRQ n := by grind
  unfold State.showWarning State.canIrq
  split
  next h => exact ⟨h, fun _ _ _ => rfl, id, rfl, rfl, by simp⟩
  next h =>
    refine ⟨?_, fun l w hl => ?_, fun hq => ?_, ?_, ?_, ?_⟩
    · cases ew <;> simp [b2n]
    · simp (disch := grind)
    · simpa (disch := grind) using hq
    · simp
    · simp
    · simp

theorem State.showErr_eq (s : State) (n : Nat) :
    s.showErr n = (s.showCounts n).showWarning n (decide (96 ≤ (s.canOf n).tec) || decide (96 ≤ (s.canOf n).rec_)) := rfl

/-- TEC, REC and EW are shown; STATE stays. -/
theorem State.showErr_spec (s : State) (n : Nat) : (s.showErr n).fld (F.CAN_STATUS_STATE n) = s.fld (F.CAN_STATUS_STATE n) ∧
    (s.showErr n).canOf n = s.canOf n ∧ (s.showErr n).fld (F.CAN_STATUS_TEC n) = min 255 (s.canOf n).tec ∧
    (s.showErr n).fld (F.CAN_STATUS_REC n) = min 127 (s.canOf n).rec_ ∧
    (s.showErr n).flag (F.CAN_STATUS_EW n) = (decide (96 ≤ (s.canOf n).tec) || decide (96 ≤ (s.canOf n).rec_)) ∧
    (s.showErr n).mem = s.mem ∧ RegsKept s (s.showErr n) [Reg.CAN_STATUS n, Reg.CAN_IRQ n] ∧
    (s.rbit (Reg.CAN_IRQ n) 9 = true → (s.showErr n).rbit (Reg.CAN_IRQ n) 9 = true) := by
  obtain ⟨hst, htec, hrec, hcan, hmem, hreg⟩ := s.showCounts_spec n
  rw [State.showErr_eq]
  generalize s.showCounts n = u at hst htec hrec hcan hmem hreg ⊢
  generalize (decide (96 ≤ (s.canOf n).tec) || decide (96 ≤ (s.canOf n).rec_)) = ew
  obtain ⟨gew, gfld, girq, gcan, gmem, greg⟩ := u.showWarning_spec n ew
  refine ⟨(gfld _ _ (by decide)).trans hst, gcan.trans hcan, (gfld _ _ (by decide)).trans htec, (gfld _ _ (by decide)).trans hrec, gew, gmem.trans hmem,
    fun a ha => (greg a ha).trans (hreg a fun h => ha (by simp at h; simp [h])), fun hq => girq ?_⟩
  have hrd : u.rd (Reg.CAN_IRQ n) = s.rd (Reg.CAN_IRQ n) := hreg _ (by grind)
  unfold State.rbit State.num at hq ⊢
  rw [hrd]
  exact hq

theorem State.errState_spec (s : State) {n : Nat} (ht : (s.canOf n).tec ≤ 255) (hs : s.fld (F.CAN_STATUS_STATE n) ≤ 1) :
    (128 ≤ (s.canOf n).tec ∨ 128 ≤ (s.canOf n).rec_ → (s.errState n).fld (F.CAN_STATUS_STATE n) = 1) ∧
    ((s.canOf n).tec < 128 → (s.canOf n).rec_ < 128 → (s.errState n).fld (F.CAN_STATUS_STATE n) = 0) ∧
    (s.errState n).fld (F.CAN_STATUS_TEC n) = min 255 (s.canOf n).tec ∧ (s.errState n).fld (F.CAN_STATUS_REC n) = min 127 (s.canOf n).rec_ ∧
    (s.errState n).flag (F.CAN_STATUS_EW n) = (decide (96 ≤ (s.canOf n).tec) || decide (96 ≤ (s.canOf n).rec_)) := by
  obtain ⟨hst, hcan, htec, hrec, hew, -, -, -⟩ := s.showErr_spec n
  rw [← hst] at hs
  rw [← htec, ← hrec, ← hew]
  unfold State.errState
  rw [← hcan] at ht ⊢
  generalize s.showErr n = u at hs ht ⊢
  -- a step between the error-active and the error-passive state
  have hstep (v code d : Nat) (hv : v < 4) : (((u.setFld (F.CAN_STATUS_STATE n) v).canIrq n 7).log code (0x6000 + n) d).fld (F.CAN_STATUS_STATE n) = v ∧
      (((u.setFld (F.CAN_STATUS_STATE n) v).canIrq n 7).log code (0x6000 + n) d).fld (F.CAN_STATUS_TEC n) = u.fld (F.CAN_STATUS_TEC n) ∧
      (((u.setFld (F.CAN_STATUS_STATE n) v).canIrq n 7).log code (0x6000 + n) d).fld (F.CAN_STATUS_REC n) = u.fld (F.CAN_STATUS_REC n) ∧
      (((u.setFld (F.CAN_STATUS_STATE n) v).canIrq n 7).log code (0x6000 + n) d).flag (F.CAN_STATUS_EW n) = u.flag (F.CAN_STATUS_EW n) := by
    unfold State.canIrq
    refine ⟨?_, ?_, ?_, ?_⟩
    · simpa (disch := grind) using hv
    · simp (disch := grind)
    · simp (disch := grind)
    · simp (disch := grind)
  dsimp only
  rw [if_neg (by omega), if_neg (by omega)]
  by_cases hp : 128 ≤ (u.canOf n).tec ∨ 128 ≤ (u.canOf n).rec_
  · have hpas : (decide (128 ≤ (u.canOf n).tec) || decide (128 ≤ (u.canOf n).rec_)) = true := by simpa using hp
    rw [hpas]
    by_cases h0 : u.fld (F.CAN_STATUS_STATE n) = 0
    · rw [if_pos (by simp [h0])]
      obtain ⟨g1, g2, g3, g4⟩ := hstep 1 0x0B10 ((u.canOf n).tec % 256 + (u.canOf n).rec_ % 256 * 2 ^ 8) (by decide)
      exact ⟨fun _ => g1, fun _ _ => by omega, g2, g3, g4⟩
    · rw [if_neg (by simp [h0]), if_neg (by simp)]
      exact ⟨fun _ => by omega, fun _ _ => by omega, rfl, rfl, rfl⟩
  · have hact : (decide (128 ≤ (u.canOf n).tec) || decide (128 ≤ (u.canOf n).rec_)) = false := by
      rw [Bool.or_eq_false_iff]
      simpa using hp
    rw [hact]
    by_cases h1 : u.fld (F.CAN_STATUS_STATE n) = 1
    · rw [if_neg (by simp), if_pos (by simp [h1])]
      obtain ⟨g1, g2, g3, g4⟩ := hstep 0 0x0B11 0 (by decide)
      exact ⟨fun h => absurd h hp, fun _ _ => g1, g2, g3, g4⟩
    · rw [if_neg (by simp), if_neg (by simp [h1])]
      exact ⟨fun h => absurd h hp, fun _ _ => by omega, rfl, rfl, rfl⟩

/-! ## Recovery (R370, R371) -/

theorem canRecover_cases (s : State) (n : Fin 8) :
    (s.fld (F.CAN_STATUS_STATE n) = 2 → (s.canOf n).recov = none →
      Gives (.canRecover n) s (fun t => t.canOf n = { s.canOf n with recov := some s.time.cycle } ∧ SameMem s t ∧ RegsKept s t [])) ∧
    (s.fld (F.CAN_STATUS_STATE n) ≠ 2 → exec (.canRecover n) s = .next s ∧ exec (.canRecoveryDone n) s = .next s) ∧
    (s.fld (F.CAN_STATUS_STATE n) = 2 → (∀ r, (s.canOf n).recov = some r → exec (.canRecover n) s = .next s ∧
      (s.time.cycle < r + 1408 * s.canBit n → exec (.canRecoveryDone n) s = .next s))) := by
  refine ⟨fun h hr => ⟨_, if_pos ⟨h, hr⟩, State.canOf_setCan .., by simp [SameMem], by simp⟩, fun h => ⟨if_neg fun hc => h hc.1, if_pos (by simp [h])⟩,
    fun h r hr => ⟨if_neg fun hc => by simp [hr] at hc, fun ht => if_pos ?_⟩⟩
  have hl : s.lasted r (1408 * s.canBit n) = false := by
    rw [← Bool.not_eq_true, State.lasted_iff]
    omega
  simp [hr, hl]

theorem canRecoveryDone_ends {n : Fin 8} {r : Nat} (h : s.fld (F.CAN_STATUS_STATE n) = 2) (hr : (s.canOf n).recov = some r)
    (ht : r + 1408 * s.canBit n ≤ s.time.cycle) (hlead : (s.canOf n).lead.isSome = true) : Gives (.canRecoveryDone n) s (fun t =>
      t.fld (F.CAN_STATUS_STATE n) = 0 ∧ t.canOf n = { s.canOf n with tec := 0, rec_ := 0, recov := none } ∧ t.fld (F.CAN_STATUS_TEC n) = 0 ∧
      t.fld (F.CAN_STATUS_REC n) = 0 ∧ t.flag (F.CAN_STATUS_EW n) = false ∧ t.rbit (Reg.CAN_IRQ n) 9 = true ∧ SameMem s t ∧
      RegsKept s t [Reg.CAN_STATUS n, Reg.CAN_IRQ n]) := by
  have hl : s.lasted r (1408 * s.canBit n) = true := State.lasted_iff.mpr ht
  obtain ⟨u, hu, hcan, hst, hirq, hmem, hreg⟩ : ∃ u, u = ((s.setCan n { s.canOf n with tec := 0, rec_ := 0, recov := none }).setFld (F.CAN_STATUS_STATE n) 0).canIrq n 9 ∧
      u.canOf n = { s.canOf n with tec := 0, rec_ := 0, recov := none } ∧ u.fld (F.CAN_STATUS_STATE n) = 0 ∧ u.rbit (Reg.CAN_IRQ n) 9 = true ∧
      u.mem = s.mem ∧ RegsKept s u [Reg.CAN_STATUS n, Reg.CAN_IRQ n] := by
    refine ⟨_, rfl, ?_, ?_, ?_, ?_, ?_⟩ <;> simp (disch := grind) [State.canIrq]
  obtain ⟨gst, gcan, gtec, grec, gew, gmem, greg, girq⟩ := u.showErr_spec n
  have hkeep : ((u.showErr n).canOf n).lead.isNone = false := by
    rw [gcan, hcan]
    simpa using hlead
  refine ⟨u.showErr n, (if_neg (by simp [h, hr, hl])).trans ?_, gst.trans hst, gcan.trans hcan, by rw [gtec, hcan]; rfl, by rw [grec, hcan]; rfl,
    by rw [gew, hcan]; rfl, girq hirq, .of_eq (gmem.trans hmem), fun a ha => (greg a ha).trans (hreg a ha)⟩
  rw [← hu, if_neg (by simp [hkeep])]

theorem canSuspendEnd_cases {n : Fin 8} {r : Nat} (hr : (s.canOf n).suspend = some r) : (r + 8 * s.canBit n ≤ s.time.cycle →
      Gives (.canSuspendEnd n) s (fun t => t.canOf n = { s.canOf n with suspend := none } ∧ SameMem s t ∧ RegsKept s t [])) ∧
      (s.time.cycle < r + 8 * s.canBit n → exec (.canSuspendEnd n) s = .next s) := by
  refine ⟨fun ht => ⟨_, if_pos (by simp [hr, State.lasted_iff.mpr ht]), State.canOf_setCan .., by simp [SameMem], by simp⟩, fun ht => if_neg ?_⟩
  rw [hr, Option.any_some, State.lasted_iff]
  omega

theorem canIntegrationDone_ends {n : Fin 8} (h : s.fld (F.CAN_STATUS_STATE n) = 3) (he : s.flag (F.CAN_CTRL_EN n) = true) (hu : s.inUse (.can n) = true) :
    Gives (.canIntegrationDone n) s (fun t => t.fld (F.CAN_STATUS_STATE n) = 0 ∧ SameMem s t ∧ RegsKept s t [Reg.CAN_STATUS n]) :=
  ⟨_, if_pos ⟨h, he, hu⟩, by simp, by simp [SameMem], by simp⟩

end

/-- Settles O41: received frames are stored by their filter, RX buffers and rings are freed, errors count and recovery ends (R360 to R364, R368 to R373). -/
theorem canReceiveAndErrorCommands : Obligations.CanReceiveAndErrorCommands := by
  unfold Obligations.CanReceiveAndErrorCommands
  refine ⟨fun s n f t u hup hm hf hr hu hrej => ?_, fun s n f t => canFrameRx_form, fun s n f t => canFrameRx_deaf,
    fun s n f e ws _ => State.fifoStore_room, fun s n i ws _ _ => State.bufStore_free,
    fun s n i => ⟨canRxbReadWord0_new, canRxbReadWord0_empty, canRxbReadLast_locked, canRxbReadLast_free⟩, canRxbRel_spec,
    fun s a i get fill hget hfill _ => s.ringAck_spec hget hfill, fun s n f i => ⟨rfl, rfl⟩, fun s n e sof h => if_pos (by simp [h]),
    fun s n => canBusError_none, fun s n _ => s.errState_spec, fun s n => ?_, fun s n => ⟨fun h => if_pos h, fun h => if_neg (by omega)⟩⟩
  · obtain ⟨h1, h2, h3⟩ := u.canAccept_dest (t := t) hrej
    have hexec := canFrameRx_accepts (t := t) hup hm hf hr hu
    exact ⟨fun idx k h => hexec.trans (congrArg _ (h1 idx k h)), fun idx i h => hexec.trans (congrArg _ (h2 idx i h)),
      fun idx h => hexec.trans (congrArg _ (h3 idx h))⟩
  · obtain ⟨h1, h2, h3⟩ := canRecover_cases s n
    exact ⟨h1, h2, h3, fun r => canRecoveryDone_ends, canIntegrationDone_ends, fun h => if_neg fun hc => h hc.1, fun r => canSuspendEnd_cases⟩

end Sys2Proof.Machine


/-! PROOFS. CAN transmission: requests, cancellation, chains, completion and transmit maps (R365 to R368, R375). -/

namespace Sys2Proof.Machine

section
variable {s : State}

@[simp] theorem State.canOf_canIrq (s : State) (n b m : Nat) : (s.canIrq n b).canOf m = s.canOf m := s.canOf_setRbit ..

/-- A mask of one bit names that buffer alone. -/
theorem filter_bit_two_pow {b : Nat} (hb : b < 32) : (List.range 32).filter (fun k => bit (BitVec.ofNat 32 (2 ^ b)).toNat k) = [b] := by
  have h : ∀ b : Fin 32, (List.range 32).filter (fun k => bit (BitVec.ofNat 32 (2 ^ b.val)).toNat k) = [b.val] := by decide
  exact h ⟨b, hb⟩

/-! ## Requests (R366) -/

theorem State.txRequest_spec (s : State) (n : Nat) {b : Nat} (hb : b < 32) : (s.txRequest n b).txPend n b = true ∧
    (s.txRequest n b).canOf n = { s.canOf n with reqAt := Tab.put (s.canOf n).reqAt b s.now.units } ∧ SameMem s (s.txRequest n b) ∧
    RegsKept s (s.txRequest n b) [Reg.TXB_PEND n] := by
  unfold State.txRequest State.txPend
  refine ⟨?_, ?_, ?_, ?_⟩
  · simp (disch := assumption)
  · simp
  · simp [SameMem]
  · simp

theorem canTxRequest_one {n : Fin 8} {b : Fin 32} (hl : s.txLinked n b = false) (hm : s.txMapped n b = false) (he : s.txElemOk n b = true)
    (hu : s.inUse (.can n) = true) (hp : s.txPend n b = false) : Gives (.canTxRequest n (BitVec.ofNat 32 (2 ^ b.val))) s (fun t =>
      t.txPend n b = true ∧ Tab.find (t.canOf n).reqAt b = some s.now.units ∧ SameMem s t ∧ RegsKept s t [Reg.TXB_PEND n]) := by
  obtain ⟨hpend, hcan, hmem, hreg⟩ := s.txRequest_spec n b.isLt
  refine ⟨s.txRequest n b, ?_, hpend, by rw [hcan]; exact Tab.find_put_self .., hmem, hreg⟩
  simp only [exec, execCanTxRequest, filter_bit_two_pow b.isLt, List.foldl_cons, List.foldl_nil, hl, hm, he, hu, hp, Bool.not_true, Bool.or_self,
    Bool.false_eq_true, if_false]

/-! ## Cancellation (R366) -/

theorem canTxCancel_one (n : Fin 8) (b : Fin 32) (sof : Option Stamp) :
    (s.txPend n b = false → exec (.canTxCancel n (BitVec.ofNat 32 (2 ^ b.val)) sof) s = .next s) ∧
    (s.txPend n b = true → exec (.canTxCancel n (BitVec.ofNat 32 (2 ^ b.val)) none) s = .next (s.txCancelled n b)) ∧
    (∀ t, s.txPend n b = true → s.onBus n t = some b.val → (s.canOf n).canc.contains b.val = false →
      exec (.canTxCancel n (BitVec.ofNat 32 (2 ^ b.val)) (some t)) s = .next (s.setCan n { s.canOf n with canc := b.val :: (s.canOf n).canc })) := by
  simp only [exec, execCanTxCancel, filter_bit_two_pow b.isLt, List.foldl_cons, List.foldl_nil]
  refine ⟨fun h => ?_, fun h => ?_, fun t h hbus hc => ?_⟩
  · simp only [h, Bool.not_false, if_true]
  · simp only [h, Bool.not_true, Bool.false_eq_true, if_false, Option.any_none]
  · simp only [h, hbus, hc, Bool.not_true, Bool.false_eq_true, if_false, Option.any_some, beq_self_eq_true, if_true]

/-- Without bytes held for a buffer the end of its frame writes nothing. -/
theorem State.heldWrite_none {n : Nat} (b : Nat) (h : (s.canOf n).held = []) : (s.heldWrite n b).canOf n = s.canOf n ∧
    RegsKept s (s.heldWrite n b) [] ∧ SameMem s (s.heldWrite n b) := by
  have heq : s.heldWrite n b = s.setCan n { s.canOf n with held := [] } := by simp [State.heldWrite, h]
  rw [heq]
  refine ⟨?_, by simp, by simp [SameMem]⟩
  rw [State.canOf_setCan, ← h]

@[simp] theorem State.mem_syncTxChain (s : State) (n : Nat) : (s.syncTxChain n).mem = s.mem := by
  unfold State.syncTxChain
  dsimp only
  split <;> simp
@[simp] theorem State.canOf_syncTxChain (s : State) (n m : Nat) : (s.syncTxChain n).canOf m = s.canOf m := by
  unfold State.syncTxChain
  dsimp only
  split <;> simp
@[simp] theorem State.regsBut_syncTxChain (s : State) (n : Nat) : RegsBut (Reg.TXC_STATUS n) (s.syncTxChain n) s := by
  refine .of_rd fun a ha => ?_
  unfold State.syncTxChain
  dsimp only
  split <;> simp (disch := assumption)

theorem State.txCancelled_spec {n b : Nat} (hb : b < 32) (hh : (s.canOf n).held = []) (hl : (s.canOf n).lead ≠ some b) :
    (s.txCancelled n b).txPend n b = false ∧ (s.txCancelled n b).rbit (Reg.TXB_CANCELLED n) b = true ∧
    (s.txCancelled n b).rbit (Reg.CAN_IRQ n) 4 = true ∧ b ∉ ((s.txCancelled n b).canOf n).chain ∧ b ∉ ((s.txCancelled n b).canOf n).canc ∧
    SameMem s (s.txCancelled n b) ∧ RegsKept s (s.txCancelled n b) [Reg.TXB_PEND n, Reg.TXB_CANCELLED n, Reg.CAN_IRQ n, Reg.TXC_STATUS n] := by
  obtain ⟨hcan, hreg, hmem⟩ := State.heldWrite_none b hh
  generalize hu : s.heldWrite n b = u at hcan hreg hmem
  generalize hc : ({ u.canOf n with chain := (u.canOf n).chain.filter (fun x => x != b), canc := (u.canOf n).canc.filter (fun x => x != b), reqAt := Tab.del (u.canOf n).reqAt b } : CanState) = c
  have hend : s.txEnd n b = ((u.setCan n c).setRbit (Reg.TXB_PEND n) b false).syncTxChain n := by rw [← hc, ← hu]; rfl
  have hlead : (((s.txEnd n b).setRbit (Reg.TXB_CANCELLED n) b true).canIrq n 4).canOf n = c := by rw [hend]; simp
  have hne : c.lead ≠ some b := by rw [← hc, hcan]; exact hl
  have heq : s.txCancelled n b = ((s.txEnd n b).setRbit (Reg.TXB_CANCELLED n) b true).canIrq n 4 := by
    unfold State.txCancelled
    dsimp only
    rw [hlead, if_neg hne]
  rw [heq, hlead, hend]
  unfold State.canIrq State.txPend
  refine ⟨?_, ?_, ?_, by simp [← hc], by simp [← hc], fun a => Eq.trans ?_ (hmem a), fun a ha => Eq.trans ?_ (hreg a (by simp))⟩
  · simp (disch := grind)
  · simp (disch := grind)
  · simp (disch := grind)
  · exact rdByte_of_mem (by simp) a
  · simp only [List.mem_cons, List.not_mem_nil, or_false, not_or] at ha
    obtain ⟨h1, h2, h3, h4⟩ := ha
    simp [h1, h2, h3, h4]

/-! ## Chains (R367) -/

theorem canTxcAppend_refused {n : Fin 8} {b : Fin 32} (hc : s.flag (F.CAN_CTRL_CHAIN_EN n) = true) (h : s.txPend n b = true ∨ s.txMapped n b = true ∨
      s.txLinked n b = true ∨ s.txElemOk n b = false ∨ s.inUse (.can n) = false) : Gives (.canTxcAppend n b) s (fun t =>
        t.rbit (Reg.CAN_IRQ n) 17 = true ∧ t.canOf n = s.canOf n ∧ SameMem s t ∧ RegsKept s t [Reg.CAN_IRQ n]) := by
  refine ⟨s.canIrq n 17, (if_neg (by simp [hc])).trans (if_pos ?_), ?_, by simp, ?_, ?_⟩
  · rcases h with h | h | h | h | h <;> simp [h]
  · simp (disch := decide) [State.canIrq]
  · simp [State.canIrq, SameMem]
  · simp [State.canIrq]

/-- The tail and the count of a chain that has just grown by `b`. -/
theorem State.syncTxChain_append {n b : Nat} {l : List Nat} (hb : b < 32) (h : (s.canOf n).chain = l ++ [b]) (hl : l.length < 32) :
    (s.syncTxChain n).fld (F.TXC_STATUS_COUNT n) = l.length + 1 ∧ (s.syncTxChain n).fld (F.TXC_STATUS_TAIL n) = b := by
  have hcount : (l.length + 1) % 2 ^ 6 = l.length + 1 := Nat.mod_eq_of_lt (by omega)
  obtain ⟨x, hx⟩ : ∃ x, (l ++ [b]).head? = some x := ⟨(l ++ [b]).head (by simp), List.head?_eq_some_head _⟩
  unfold State.syncTxChain
  dsimp only
  rw [h]
  simp only [hx, List.getLast?_concat]
  refine ⟨?_, ?_⟩
  · simp (disch := grind)
    omega
  · simpa (disch := grind) using hb

theorem canTxcAppend_appends {n : Fin 8} {b : Fin 32} (hc : s.flag (F.CAN_CTRL_CHAIN_EN n) = true) (hp : s.txPend n b = false) (hm : s.txMapped n b = false)
    (hk : s.txLinked n b = false) (he : s.txElemOk n b = true) (hu : s.inUse (.can n) = true) (hl : (s.canOf n).chain.length < 32) :
    Gives (.canTxcAppend n b) s (fun t => (t.canOf n).chain = (s.canOf n).chain ++ [b.val] ∧ t.txPend n b = true ∧
      t.fld (F.TXC_STATUS_COUNT n) = (s.canOf n).chain.length + 1 ∧ t.fld (F.TXC_STATUS_TAIL n) = b.val ∧ SameMem s t ∧
      RegsKept s t [Reg.TXB_PEND n, Reg.TXC_STATUS n]) := by
  obtain ⟨hpend, hcan, hmem, hreg⟩ := s.txRequest_spec n b.isLt
  refine ⟨_, (if_neg (by simp [hc])).trans (if_neg (by simp [hp, hm, hk, he, hu])), ?_⟩
  generalize s.txRequest n b = u at hpend hcan hmem hreg ⊢
  have hchain : (u.canOf n).chain = (s.canOf n).chain := by rw [hcan]
  rw [hchain]
  obtain ⟨hcount, htail⟩ := State.syncTxChain_append (s := u.setCan n { u.canOf n with chain := (s.canOf n).chain ++ [b.val] }) (n := n) b.isLt (by simp) hl
  refine ⟨by simp, ?_, hcount, htail, fun a => Eq.trans ?_ (hmem a), fun a ha => Eq.trans ?_ (hreg a ?_)⟩
  · unfold State.txPend at hpend ⊢
    simpa (disch := grind) using hpend
  · exact rdByte_of_mem (by simp) a
  · have hne : a ≠ Reg.TXC_STATUS n := fun h => ha (by simp [h])
    simp (disch := assumption)
  · exact fun h => ha (List.mem_cons.mpr (.inl (List.mem_singleton.mp h)))

/-! ## Order and completion (R366 to R370) -/

theorem State.firstRanked_eq_none {n : Nat} {l : List Nat} (h : s.firstRanked n l = none) : l = [] := by
  cases l with
  | nil => rfl
  | cons y l =>
    unfold State.firstRanked at h
    split at h
    · cases h
    · split at h <;> cases h

theorem State.firstRanked_least (s : State) (n : Nat) {b : Nat} {l : List Nat} (h : s.firstRanked n l = some b) :
    b ∈ l ∧ ∀ x ∈ l, s.txRank n b ≤ s.txRank n x := by
  induction l generalizing b with
  | nil => cases h
  | cons y l ih =>
    unfold State.firstRanked at h
    cases hr : s.firstRanked n l with
    | none =>
      simp only [hr] at h
      obtain rfl := Option.some.inj h
      rw [State.firstRanked_eq_none hr]
      simp
    | some c =>
      obtain ⟨hc, hle⟩ := ih hr
      simp only [hr] at h
      split at h
      next hlt =>
        obtain rfl := Option.some.inj h
        exact ⟨List.mem_cons_of_mem _ hc, List.forall_mem_cons.mpr ⟨hlt.le, hle⟩⟩
      next hlt =>
        obtain rfl := Option.some.inj h
        exact ⟨List.mem_cons_self, List.forall_mem_cons.mpr ⟨le_refl _, fun x hx => le_trans (not_lt.mp hlt) (hle x hx)⟩⟩

theorem State.onBus_none {n : Nat} {t : Stamp} (h : s.canUp n = false ∨ s.fld (F.CAN_CTRL_MODE n) = 1 ∨ (s.canOf n).suspend ≠ none) : s.onBus n t = none := by
  refine if_pos ?_
  rcases h with h | h | h
  · simp [h]
  · simp [h]
  · simp [Option.isSome_iff_ne_none.mpr h]

theorem State.leadSof_noBusOff {n : Nat} (b : Nat) (t : Stamp) (h : (s.canOf n).boAt = none) : s.leadSof n b t = s := by
  simp only [State.leadSof, h]

theorem canTxComplete_idle {n : Fin 8} {t : Stamp} (h : s.onBus n t = none) : exec (.canTxComplete n t) s = .next s := by
  simp only [exec, execCanTxComplete, h]

theorem canTxComplete_sent {n : Fin 8} {t : Stamp} {b : Nat} {w u v : State} {sus : Option Nat} (h : s.onBus n t = some b) (hb : (s.canOf n).boAt = none)
    (hw : w = (if bit (s.txw n b 1) 10 then s.journal n b t else s))
    (hu : u = ((w.txEnd n b).setRbit (Reg.TXB_DONE n) b true).setRbit (Reg.CAN_IRQ n) 3 true)
    (ht : (u.flag (F.CAN_CTRL_TDC_EN n) && (s.txFrame n b).fdf && (s.txFrame n b).brs) = false)
    (hs : sus = (if u.fld (F.CAN_STATUS_STATE n) = 1 then some u.time.cycle else none))
    (hv : v = (u.setCan n { u.canOf n with tec := (u.canOf n).tec - 1, suspend := sus }).errState n) :
    exec (.canTxComplete n t) s = .next (if v.fld (F.CAN_CTRL_MODE n) = 2 then v.canAccept n (s.txFrame n b) t else v) := by
  have hu' : ((w.txEnd n b).setRbit (Reg.TXB_DONE n) b true).canIrq n 3 = u := hu.symm
  simp only [exec, execCanTxComplete, h, State.leadSof_noBusOff b t hb, ← hw, hu', ht, Bool.false_eq_true, if_false, ← hs, ← hv]

theorem canArbitrationLost_idle {n : Fin 8} {t : Stamp} (h : s.onBus n t = none) : exec (.canArbitrationLost n t) s = .next s := by
  simp only [exec, execCanArbitrationLost, h]

theorem canArbitrationLost_lost {n : Fin 8} {t : Stamp} {b : Nat} (h : s.onBus n t = some b) (hb : (s.canOf n).boAt = none) :
    (s.flag (F.CAN_CTRL_DAR n) = true → exec (.canArbitrationLost n t) s = .next (s.txCancelled n b)) ∧
    (s.flag (F.CAN_CTRL_DAR n) = false → (s.canOf n).canc.contains b = false → exec (.canArbitrationLost n t) s = .next (s.heldWrite n b)) := by
  simp only [exec, execCanArbitrationLost, h, State.leadSof_noBusOff b t hb]
  exact ⟨fun hd => if_pos (by simp [hd]), fun hd hc => if_neg (by simpa [hd] using hc)⟩

/-! ## Transmit maps (R375) -/

theorem mapRaw_byte_lt (v scale offs : Word) : mapRaw 0 v scale offs < 256 := by
  have hbyte (z : Int) : (clampInt 0 ((2 ^ (8 * mapSize 0) : Nat) - 1) z).toNat < 256 := by
    have hsize : mapSize 0 = 1 := rfl
    rw [hsize]
    unfold clampInt
    omega
  exact hbyte _

theorem canTxMapToken_other {n : Fin 8} {i : Fin 64} (link : Nat) {t : Token} (sof : Option Stamp)
    (h : bitsOf (s.rd (Reg.CAN_TXMAP n i 0)) 31 1 = 0 ∨ bitsOf (s.rd (Reg.CAN_TXMAP n i 0)) 0 12 ≠ t.sig.toNat) :
    exec (.canTxMapToken n i link t sof) s = .next s := if_pos h

theorem canTxMapToken_byte {n : Fin 8} {i : Fin 64} {link : Nat} {t : Token} {w : Word} (hw : w = s.rd (Reg.CAN_TXMAP n i 0)) (hv : bitsOf w 31 1 = 1)
    (hsig : bitsOf w 0 12 = t.sig.toNat) (ht : t.ok = true) (hl : s.linkRetired link = false) (hst : stReserved t.st = false)
    (hf : F32.isFinite t.value = true) (htyp : bitsOf w 19 3 = 0) (hord : bitsOf w 18 1 = 0) (hreq : bitsOf w 17 1 = 0) {b o : Nat}
    (hb : b = bitsOf w 12 5) (ho : o = bitsOf w 22 6) : Gives (.canTxMapToken n i link t none) s (fun u =>
      u.fld ⟨Reg.CAN_TXB n b (4 + o / 4), 8 * (o % 4), 8⟩ = mapRaw 0 t.value (s.rd (Reg.CAN_TXMAP n i 1)) (s.rd (Reg.CAN_TXMAP n i 2)) ∧
      SameMem s u ∧ RegsKept s u [Reg.CAN_TXB n b (4 + o / 4)]) := by
  have ho64 : o < 64 := ho ▸ bitsOf_lt _ _ _
  have hraw := mapRaw_byte_lt t.value (s.rd (Reg.CAN_TXMAP n i 1)) (s.rd (Reg.CAN_TXMAP n i 2))
  generalize hm : mapRaw 0 t.value (s.rd (Reg.CAN_TXMAP n i 1)) (s.rd (Reg.CAN_TXMAP n i 2)) = m at hraw
  have hbytes : ((leBytes 1 m).zipIdx o).filter (fun x => decide (x.2 < 64)) = [(m, o)] := by
    simp [leBytes, ho64, Nat.mod_eq_of_lt hraw]
  refine ⟨s.setFld ⟨Reg.CAN_TXB n b (4 + o / 4), 8 * (o % 4), 8⟩ m, ?_, ?_, by simp [SameMem], by simp⟩
  · have hgo : ¬(bitsOf w 31 1 = 0 ∨ bitsOf w 0 12 ≠ t.sig.toNat) := by simp [hv, hsig]
    simp only [exec, execCanTxMapToken, State.check_ok _ ht hl hst, ← hw, if_neg hgo, if_true, hf, htyp, hord, hreq, hm, ← hb, ← ho, Option.any_none, Bool.false_eq_true, if_false,
      Nat.zero_ne_one, mapSize, hbytes, List.foldl_cons, List.foldl_nil]
  · rw [State.fld_setFld_same _ _ (by simp only []; omega)]
    exact Nat.mod_eq_of_lt hraw

end

/-- Settles O42: requests are checked and ordered, chained, withdrawn and sent, and map tokens fill their bytes (R365 to R368, R375). -/
theorem canTransmitCommands : Obligations.CanTransmitCommands := by
  unfold Obligations.CanTransmitCommands
  refine ⟨fun s n mask => rfl, fun s n b => canTxRequest_one, fun s n b => canTxCancel_one n b, fun s n b _ => State.txCancelled_spec,
    fun s n b => ⟨fun h => if_pos (by simp [h]), canTxcAppend_refused, canTxcAppend_appends⟩, fun s n b l => s.firstRanked_least n,
    fun s n t => State.onBus_none, fun s n t => ⟨canTxComplete_idle, fun b w u v h hb hw hu ht sus hs hv => canTxComplete_sent h hb hw hu ht hs hv⟩,
    fun s n t => ⟨canArbitrationLost_idle, fun b => canArbitrationLost_lost⟩, fun s n b => State.heldWrite_none b,
    fun s n t h => ⟨canTxComplete_idle (State.onBus_none (.inl h)), canArbitrationLost_idle (State.onBus_none (.inl h))⟩,
    fun s n i link t sof => ⟨canTxMapToken_other link sof, fun hv hsig ht hl hst hf htyp hord hreq b o hb ho =>
      canTxMapToken_byte rfl hv hsig ht hl hst hf htyp hord hreq hb ho⟩⟩

end Sys2Proof.Machine


/-! PROOFS. Ethernet ports: PRP, gates, stamps, the frame port and links (R380 to R387, R394, R397). -/

namespace Sys2Proof.Machine

section
variable (s : State)

@[simp] theorem State.ethOf_setEth (n : Nat) (e : EthState) : (s.setEth n e).ethOf n = e := by simp [State.ethOf, State.setEth, Tab.get, Tab.find_put_self]
@[simp] theorem State.prpOf_setPrp (p : Nat) (x : PrpState) : (s.setPrp p x).prpOf p = x := by simp [State.prpOf, State.setPrp, Tab.get, Tab.find_put_self]
theorem State.ethOf_congr {s t : State} (h : t.eths = s.eths) (n : Nat) : t.ethOf n = s.ethOf n := by unfold State.ethOf; rw [h]
theorem State.prpOf_congr {s t : State} (h : t.prps = s.prps) (p : Nat) : t.prpOf p = s.prpOf p := by unfold State.prpOf; rw [h]

/-! ## What sending a frame leaves unchanged -/

@[simp] theorem State.mem_syncTxts (n : Nat) : (s.syncTxts n).mem = s.mem := by
  unfold State.syncTxts
  split <;> simp
@[simp] theorem State.prps_syncTxts (n : Nat) : (s.syncTxts n).prps = s.prps := by
  unfold State.syncTxts
  split <;> simp
@[simp] theorem State.eths_syncTxts (n : Nat) : (s.syncTxts n).eths = s.eths := by
  unfold State.syncTxts
  split <;> simp

@[simp] theorem State.mem_txPn (n k : Nat) : (s.txPn n k).mem = s.mem := by
  unfold State.txPn State.ethIrq
  dsimp only
  split <;> split <;> simp
@[simp] theorem State.prps_txPn (n k : Nat) : (s.txPn n k).prps = s.prps := by
  unfold State.txPn State.ethIrq
  dsimp only
  split <;> split <;> simp

/-- A frame that leaves a port as it is: counted, and stamped if it is a PTP frame. -/
def State.ethOut (s : State) (n : Nat) (l : List Nat) : State :=
  let s := (s.emit (.frame (0xE000 + n) l)).count (Reg.ETH_CNT_TXF n) 1
  if ethType l = 0x88F7 then
    if (s.ethOf n).txts.length < 16 then ((s.setEth n { s.ethOf n with
      txts := (s.ethOf n).txts ++ [(s.now, fieldAt l (ethPay l) 1 % 16, be l (ethPay l + 30) 2)] }).syncTxts n).ethIrq n 1 else s
  else s

theorem State.ethEmit_plain {n : Nat} {l : List Nat} (h : (s.flag (F.ETH_CTRL_PROTECT n) && !linkLocal (ethType l)) = false) :
    s.ethEmit n l = s.ethOut n l := if_neg (by simp [h])

@[simp] theorem State.mem_ethOut (n : Nat) (l : List Nat) : (s.ethOut n l).mem = s.mem := by
  unfold State.ethOut State.ethIrq
  dsimp only
  split
  · split <;> simp
  · simp
@[simp] theorem State.prps_ethOut (n : Nat) (l : List Nat) : (s.ethOut n l).prps = s.prps := by
  unfold State.ethOut State.ethIrq
  dsimp only
  split
  · split <;> simp
  · simp

/-- A frame that leaves a port goes out as it is, under the next packet number, or not at all. -/
theorem State.ethEmit_cases (n : Nat) (l : List Nat) : s.ethEmit n l = s.ethOut n l ∨ (∃ k, s.ethEmit n l = (s.txPn n k).ethOut n l) ∨ s.ethEmit n l = s := by
  by_cases h : (s.flag (F.ETH_CTRL_PROTECT n) && !linkLocal (ethType l)) = true
  · cases hk : s.txSa n with
    | none =>
      refine .inr (.inr ((if_pos h).trans ?_))
      simp only [hk]
    | some k =>
      refine .inr (.inl ⟨k, (if_pos h).trans ?_⟩)
      simp only [hk]
      rfl
  · exact .inl (s.ethEmit_plain (by simpa using h))

@[simp] theorem State.mem_ethEmit (n : Nat) (l : List Nat) : (s.ethEmit n l).mem = s.mem := by
  rcases s.ethEmit_cases n l with h | ⟨k, h⟩ | h <;> simp [h]
@[simp] theorem State.prps_ethEmit (n : Nat) (l : List Nat) : (s.ethEmit n l).prps = s.prps := by
  rcases s.ethEmit_cases n l with h | ⟨k, h⟩ | h <;> simp [h]
@[simp] theorem State.mem_portSend (n q : Nat) (l : List Nat) (slot : Option Nat) : (s.portSend n q l slot).mem = s.mem := by
  unfold State.portSend
  split_ifs <;> simp
@[simp] theorem State.prps_portSend (n q : Nat) (l : List Nat) (slot : Option Nat) : (s.portSend n q l slot).prps = s.prps := by
  unfold State.portSend
  split_ifs <;> simp

/-! ## Sending (R380 to R387) -/

theorem State.pairSend_pair (p : Nat) {l : List Nat} (slot : Option Nat) (h : linkLocal (ethType l) = false) {t : State} (ht : t = s.pairSend (2 * p) l slot) :
    (t.prpOf p).seq = ((s.prpOf p).seq + 1) % 2 ^ 16 ∧ (t.prpOf p).dup = (s.prpOf p).dup ∧ SameMem s t := by
  have hp : 2 * p / 2 = p := by omega
  have hprps : t.prps = (s.setPrp p { s.prpOf p with seq := ((s.prpOf p).seq + 1) % 2 ^ 16 }).prps := by
    rw [ht, State.pairSend, h, if_neg (by decide), hp]
    simp
  have hmem : t.mem = s.mem := by
    rw [ht, State.pairSend, h, if_neg (by decide)]
    simp
  rw [State.prpOf_congr hprps, State.prpOf_setPrp]
  exact ⟨rfl, rfl, .of_eq hmem⟩

theorem prpSupervisionSend_spec (p : Fin 3) :
    ((s.prpOf p).sent = none ∨ (∃ t, (s.prpOf p).sent = some t ∧ t + s.fld (F.ETH_PRP_LIFE_MS (2 * p.val)) * cycPerMs ≤ s.time.cycle) →
      exec (.prpSupervisionSend p) s = .next ((s.setPrp p { s.prpOf p with sent := some s.time.cycle }).pairSend (2 * p)
        (List.replicate 12 0 ++ [0x88, 0xFB]) none)) ∧
    (∀ t, (s.prpOf p).sent = some t → s.time.cycle < t + s.fld (F.ETH_PRP_LIFE_MS (2 * p.val)) * cycPerMs → exec (.prpSupervisionSend p) s = .next s) := by
  refine ⟨fun h => if_neg ?_, fun t h ht => if_pos ?_⟩
  · rcases h with h | ⟨t, h, ht⟩
    · simp [h]
    · simp [h, State.lasted_of_le ht]
  · simp [h, State.lasted_of_lt ht]

theorem State.portSend_spec (n q : Nat) (l : List Nat) (slot : Option Nat) : (s.ethUp n = false → s.portSend n q l slot = s) ∧
    (s.ethUp n = true → (s.ethOf n).wait = [] → s.fits n q l.length = true → s.portSend n q l slot = s.ethEmit n l) ∧
    (s.ethUp n = true → s.fits n q l.length = false → (s.portSend n q l slot).wire = s.wire ∧
      ((s.portSend n q l slot).ethOf n).wait = (s.ethOf n).wait ++ [⟨q, l, slot⟩]) := by
  refine ⟨fun h => if_pos (by simp [h]), fun h hw hf => (if_neg (by simp [h])).trans (if_pos (by simp [hf, hw])), fun h hf => ?_⟩
  have heq : s.portSend n q l slot = s.setEth n { s.ethOf n with wait := (s.ethOf n).wait ++ [⟨q, l, slot⟩] } :=
    (if_neg (by simp [h])).trans (if_neg (by simp [hf]))
  rw [heq, State.ethOf_setEth]
  exact ⟨rfl, rfl⟩

theorem State.ethEmit_unprotected {n : Nat} {l : List Nat} (h : s.flag (F.ETH_CTRL_PROTECT n) = false) (ht : ethType l ≠ 0x88F7) {t : State}
    (hu : t = s.ethEmit n l) : t.wire = s.wire ++ [.frame (0xE000 + n) l] ∧ t.num (Reg.ETH_CNT_TXF n) = satAdd 0xFFFFFFFF (s.num (Reg.ETH_CNT_TXF n)) 1 ∧
    SameMem s t ∧ RegsKept s t [Reg.ETH_CNT_TXF n] := by
  have heq : t = (s.emit (.frame (0xE000 + n) l)).count (Reg.ETH_CNT_TXF n) 1 := by
    rw [hu, s.ethEmit_plain (by simp [h])]
    exact if_neg ht
  rw [heq]
  refine ⟨by simp, by simp, by simp [SameMem], by simp⟩

/-! ## Gates and stamps (R385, R386) -/

variable {s}

theorem State.drainWait_empty {n : Nat} (h : (s.ethOf n).wait = []) : s.drainWait n = s := by simp [State.drainWait, h]

/-- One waiting frame of a queue is the only frame the drain looks at. -/
theorem State.drainWait_one {n : Nat} {w : EthWait} (h : (s.ethOf n).wait = [w]) (hq : w.queue < 8) :
    s.drainWait n = if s.fits n w.queue w.bytes.length then (s.setEth n { s.ethOf n with wait := [] }).ethEmit n w.bytes else s := by
  have hlist : [7, 6, 5, 4, 3, 2, 1, 0].flatMap (fun q => (s.ethOf n).wait.filter (fun w => w.queue == q)) = [w] := by
    rw [h]
    generalize hk : w.queue = q at hq
    interval_cases q <;> simp [List.filter_cons, hk]
  unfold State.drainWait
  rw [hlist, List.foldl_cons, List.foldl_nil, h]
  simp

theorem ethTxtsPop_spec (s : State) (n : Fin 6) : Gives (.ethTxtsPop n) s (fun t => t.bus = ⟨false, s.num (Reg.ETH_TXTS n)⟩ ∧
    t.ethOf n = { s.ethOf n with txts := (s.ethOf n).txts.drop 1 } ∧ ((s.ethOf n).txts.length ≤ 1 → t.num (Reg.ETH_TXTS n) = 0) ∧
    (∀ x y m q l, (s.ethOf n).txts = x :: (y, m, q) :: l → m < 16 → q < 2 ^ 16 → t.num (Reg.ETH_TXTS n) = 2 ^ 31 + m * 2 ^ 16 + q ∧
      t.rd (Reg.ETH_TXTS_NSEC n) = BitVec.ofNat 32 y.w1) ∧
    SameMem s t ∧ RegsKept s t [Reg.ETH_TXTS n, Reg.ETH_TXTS_SEC n, Reg.ETH_TXTS_NSEC n, Reg.ETH_TXTS_HI n]) := by
  have heth (u : State) (b : BusResp) : ((u.syncTxts n).setBus b).ethOf n = u.ethOf n := State.ethOf_congr (by simp) n
  refine ⟨((s.setEth n { s.ethOf n with txts := (s.ethOf n).txts.drop 1 }).syncTxts n).setBus ⟨false, s.num (Reg.ETH_TXTS n)⟩, rfl, rfl, ?_, ?_, ?_,
    .of_eq (by simp), ?_⟩
  · rw [heth, State.ethOf_setEth]
  · intro h
    have hnil : (s.ethOf n).txts.drop 1 = [] := List.drop_eq_nil_of_le h
    simp [State.syncTxts, hnil]
  · intro x y m q l h hm hq
    have hcons : (s.ethOf n).txts.drop 1 = (y, m, q) :: l := by rw [h]; rfl
    have hmod : (2 ^ 31 + m * 2 ^ 16 + q) % 2 ^ 32 = 2 ^ 31 + m * 2 ^ 16 + q := Nat.mod_eq_of_lt (by omega)
    unfold State.syncTxts
    simp only [State.ethOf_setEth, hcons]
    refine ⟨?_, ?_⟩
    · simpa using hmod
    · simp (disch := grind) [State.setNum, State.rd_wr_self]
  · unfold State.syncTxts
    split <;> simp

/-! ## The frame port (R394) -/

theorem ethFrxAck_none {n : Fin 6} {i : Fin 16} (h : (s.ethOf n).rx.find? (fun x => x.1 == i.val) = none) : exec (.ethFrxAck n i) s = .next s := by
  simp only [exec, execEthFrxAck, h]

/-- The bits of a span of the frame port are cleared; nothing else changes. -/
theorem State.clearSpan_spec (s : State) (a x k : Nat) {t : State} (ht : t = (List.range k).foldl (fun s j => s.setRbit a ((x + j) % 16) false) s) :
    (∀ j < k, t.rbit a ((x + j) % 16) = false) ∧ t.mem = s.mem ∧ RegsKept s t [a] := by
  subst ht
  induction k with
  | zero => simp
  | succ k ih =>
    obtain ⟨hbit, hmem, hreg⟩ := ih
    rw [List.range_succ, List.foldl_append, List.foldl_cons, List.foldl_nil]
    generalize List.foldl _ s (List.range k) = u at hbit hmem hreg ⊢
    refine ⟨fun j hj => ?_, (State.setRbit_mem ..).trans hmem, fun b hb => ?_⟩
    · have hlt (i : Nat) : i % 16 < 32 := by omega
      by_cases he : (x + j) % 16 = (x + k) % 16
      · rw [he]
        simp [hlt]
      · have hjk : j < k := by
          rcases Nat.lt_succ_iff_lt_or_eq.mp hj with h | rfl
          · exact h
          · exact absurd rfl he
        simpa [hlt, he] using hbit j hjk
    · have hne : b ≠ a := by simpa using hb
      exact ((State.regsBut_setRbit u a _ _).2.2.2.2.1 b hne).trans (hreg b hb)

theorem ethFrxAck_frees {n : Fin 6} {i : Fin 16} {x : Nat × Nat} (h : (s.ethOf n).rx.find? (fun x => x.1 == i.val) = some x) :
    Gives (.ethFrxAck n i) s (fun t => (t.ethOf n).rx = (s.ethOf n).rx.filter (fun y => y.1 != i.val) ∧
      (∀ j, j < x.2 → t.rbit (Reg.ETH_FRX_STATUS n) ((x.1 + j) % 16) = false) ∧ SameMem s t ∧ RegsKept s t [Reg.ETH_FRX_STATUS n]) := by
  obtain ⟨hbit, hmem, hreg⟩ := s.clearSpan_spec (Reg.ETH_FRX_STATUS n) x.1 x.2 rfl
  refine ⟨_, by simp only [exec, execEthFrxAck, h]; rfl, by rw [State.ethOf_setEth], fun j hj => ?_, .of_eq ((State.setEth_mem ..).trans hmem), fun a ha => ?_⟩
  · simpa using hbit j hj
  · simpa using hreg a ha

theorem filter_bit_of_byte {i : Nat} (hi : i < 8) : (List.range 8).filter (bit (BitVec.ofNat 8 (2 ^ i)).toNat) = [i] := by
  have h : ∀ i : Fin 8, (List.range 8).filter (bit (BitVec.ofNat 8 (2 ^ i.val)).toNat) = [i.val] := by decide
  exact h ⟨i, hi⟩

theorem ethFtxGo_one {n : Fin 6} {i : Fin 8} {len : Nat} {bytes : List Nat} (hl : len = s.num (Reg.ETH_FTX n i 0) % 2 ^ 14)
    (hb : bytes = (List.range (512 * spanOfFrame len)).flatMap (fun w => leBytes 4 (s.num (Reg.ETH_FTX n (i + w / 512) (w % 512))))) :
    (8 < i + spanOfFrame len ∨ (s.ethOf n).wait.any (fun w => w.slot == some i.val) = true → exec (.ethFtxGo n (BitVec.ofNat 8 (2 ^ i.val))) s =
      .next (s.count (Reg.ETH_CNT_FRX_DROP n) 1)) ∧
    (i + spanOfFrame len ≤ 8 → (s.ethOf n).wait.any (fun w => w.slot == some i.val) = false →
      exec (.ethFtxGo n (BitVec.ofNat 8 (2 ^ i.val))) s = .next (s.pairSend n ((bytes.drop 16).take len) (some i.val))) := by
  simp only [exec, execEthFtxGo, filter_bit_of_byte i.isLt, List.foldl_cons, List.foldl_nil, ← hl]
  refine ⟨fun h => congrArg Host.Outcome.next (if_pos ?_), fun h hw => congrArg Host.Outcome.next ((if_neg ?_).trans ?_)⟩
  · simpa using h
  · rw [hw]
    simpa using h
  · rw [hb]

/-! ## Reception (R381 to R387) -/

theorem ethFrameRx_dropped {n : Fin 6} {bytes : List Byte} {l : List Nat} (fcs : Bool) (sa : Option (Fin 8 × Nat)) (st : Stamp)
    (hl : l = bytes.map BitVec.toNat) (h : s.ethHears n = false ∨ 9216 < l.length) : exec (.ethFrameRx n bytes fcs sa st) s = .next s := by
  subst hl
  refine if_pos ?_
  rcases h with h | h
  · simp [h]
  · simpa using .inr (by simpa using h)

section
variable {n : Fin 6} {bytes : List Byte} {l : List Nat} (sa : Option (Fin 8 × Nat)) (st : Stamp) (hl : l = bytes.map BitVec.toNat)
  (hh : s.ethHears n = true) (h9 : l.length ≤ 9216)
include hl hh h9

theorem ethHears_guard : (!s.ethHears n || decide (9216 < (bytes.map (fun b => b.toNat)).length)) = false := by
  subst hl
  simpa [hh] using h9

theorem ethFrameRx_fcs : Gives (.ethFrameRx n bytes false sa st) s (fun t =>
    t.num (Reg.ETH_CNT_FCS n) = satAdd 0xFFFFFFFF (s.num (Reg.ETH_CNT_FCS n)) 1 ∧ SameMem s t ∧ RegsKept s t [Reg.ETH_CNT_FCS n]) :=
  ⟨s.count (Reg.ETH_CNT_FCS n) 1, (if_neg (by rw [ethHears_guard hl hh h9]; decide)).trans (if_pos rfl), by simp, by simp [SameMem], by simp⟩

theorem ethFrameRx_unsecured (hd : s.flag (F.ETH_STATUS_LAN_DOWN n) = false) (hp : s.flag (F.ETH_CTRL_PROTECT n) = true) (hk : linkLocal (ethType l) = false) :
    Gives (.ethFrameRx n bytes true none st) s (fun t =>
      t.num (Reg.ETH_CNT_SEC_DROP n) = satAdd 0xFFFFFFFF (s.num (Reg.ETH_CNT_SEC_DROP n)) 1 ∧
      t.num (Reg.ETH_CNT_RXF n) = satAdd 0xFFFFFFFF (s.num (Reg.ETH_CNT_RXF n)) 1 ∧ SameMem s t ∧
      RegsKept s t [Reg.ETH_CNT_SEC_DROP n, Reg.ETH_CNT_RXF n]) := by
  have hheard : (s.count (Reg.ETH_CNT_RXF n) 1).lanHeard n =
      (s.count (Reg.ETH_CNT_RXF n) 1).setEth n { (s.count (Reg.ETH_CNT_RXF n) 1).ethOf n with last := s.time.cycle } :=
    if_neg (by simp (disch := grind) [hd])
  have hguard := ethHears_guard hl hh h9
  subst hl
  refine ⟨_, (if_neg (by rw [hguard]; decide)).trans ((if_neg (by decide)).trans (if_pos ?_)), ?_⟩
  · rw [hheard]
    simp (disch := grind) [hp, hk]
  · rw [hheard]
    refine ⟨?_, ?_, ?_, ?_⟩
    · simp (disch := grind)
    · simp (disch := grind)
    · simp [SameMem]
    · simp

theorem ethFrameRx_taken {u : State} (hp : s.flag (F.ETH_CTRL_PROTECT n) = false)
    (hu : u = ((s.count (Reg.ETH_CNT_RXF n) 1).lanHeard n).paNote n sa) : exec (.ethFrameRx n bytes true sa st) s = .next (u.ethTake n l st) := by
  have hguard := ethHears_guard hl hh h9
  have hprot : ((s.count (Reg.ETH_CNT_RXF n) 1).lanHeard n).flag (F.ETH_CTRL_PROTECT n) = false := by
    unfold State.lanHeard State.ethIrq
    dsimp only
    split <;> simp (disch := grind) [hp]
  subst hl hu
  exact (if_neg (by rw [hguard]; decide)).trans ((if_neg (by decide)).trans (if_neg (by simp [hprot])))

end

theorem State.img_received (n : Nat) (sa : Option (Fin 8 × Nat)) : (((s.count (Reg.ETH_CNT_RXF n) 1).lanHeard n).paNote n sa).img = s.img := by
  have hnote (t : State) : (t.paNote n sa).img = t.img := by
    unfold State.paNote
    split
    · split <;> simp
    · rfl
  rw [hnote]
  unfold State.lanHeard State.ethIrq
  dsimp only
  split <;> simp

/-! ## Links and health (R383, R397) -/

theorem lanDown_kept (n : Fin 6) : (s.flag (F.ETH_STATUS_LAN_DOWN n) = true → exec (.lanDown n) s = .next s) ∧
    (s.time.cycle < (s.ethOf n).last + s.fld (F.ETH_PRP_LAN_TMO_MS n) * cycPerMs → exec (.lanDown n) s = .next s) :=
  ⟨fun h => if_pos (by simp [h]), fun h => if_pos (by simp [State.lasted_of_lt h])⟩

theorem lanDown_falls {n : Fin 6} (hd : s.flag (F.ETH_STATUS_LAN_DOWN n) = false) (he : s.flag (F.ETH_CTRL_EN n) = true)
    (hm : (s.ethOf n).last < (s.ethOf (mate n)).last) (ht : (s.ethOf n).last + s.fld (F.ETH_PRP_LAN_TMO_MS n) * cycPerMs ≤ s.time.cycle) :
    Gives (.lanDown n) s (fun t => t.flag (F.ETH_STATUS_LAN_DOWN n) = true ∧ t.rbit (Reg.ETH_IRQ n) 2 = true ∧
      Logs s t 0x0C10 (0x6010 + n) (n / 2) ∧ SameMem s t ∧ RegsKept s t [Reg.ETH_STATUS n, Reg.ETH_IRQ n, Reg.EVL_LOST]) := by
  refine ⟨_, if_neg (by simp [hd, he, hm, State.lasted_of_le ht]), ?_⟩
  unfold State.ethIrq
  refine ⟨?_, ?_, ?_, ?_, ?_⟩
  · simp (disch := grind)
  · simp (disch := grind)
  · simpa using logs_log (s := s) _ _ _ (by simp)
  · simp [SameMem]
  · simp

theorem ethLinkUp_spec (s : State) (n : Fin 6) : Gives (.ethLinkUp n) s (fun t => t.flag (F.ETH_STATUS_LINK n) = true ∧ t.rbit (Reg.ETH_IRQ n) 2 = true ∧
    SameMem s t ∧ RegsKept s t [Reg.ETH_STATUS n, Reg.ETH_IRQ n]) := by
  refine ⟨_, rfl, ?_⟩
  unfold State.ethIrq
  refine ⟨?_, ?_, ?_, ?_⟩
  · simp (disch := grind)
  · simp (disch := grind)
  · simp [SameMem]
  · simp

end

/-- Settles O43: frames leave on both ports of a pair, wait for gates, are stamped, and a received frame is checked and taken (R380 to R387, R394, R397). -/
theorem ethernetCommands : Obligations.EthernetCommands := by
  unfold Obligations.EthernetCommands
  refine ⟨fun s p cls addrs pay ty l hl => by rw [hl]; rfl, prpSupervisionSend_spec, fun s p l slot h t ht => s.pairSend_pair p slot h ht,
    fun s n q l slot => s.portSend_spec n q l slot, fun s n l _ h ht t hu => s.ethEmit_unprotected h ht hu,
    fun s n => ⟨fun h => congrArg Host.Outcome.next (State.drainWait_empty h),
      fun w h hq hf => congrArg Host.Outcome.next ((State.drainWait_one h hq).trans (if_pos hf)),
      fun w h hq hf => congrArg Host.Outcome.next ((State.drainWait_one h hq).trans (if_neg (by simp [hf])))⟩,
    ethTxtsPop_spec, fun s n i => ⟨ethFrxAck_none, fun x => ethFrxAck_frees⟩, fun s n i len bytes => ethFtxGo_one,
    fun s n bytes l fcs sa st hl => ⟨ethFrameRx_dropped fcs sa st hl, ethFrameRx_fcs sa st hl, fun hh h9 => ethFrameRx_unsecured st hl hh h9,
      fun u hh h9 hp hu => ⟨ethFrameRx_taken sa st hl hh h9 hp hu, fun hk hv => ?_, fun hk => if_pos hk⟩⟩,
    fun s n => ?_⟩
  · rw [← State.img_received n sa, ← hu] at hv
    exact (if_neg (by simp [hk])).trans (if_pos (by simpa using hv))
  · obtain ⟨h1, h2⟩ := lanDown_kept (s := s) n
    exact ⟨h1, h2, lanDown_falls, rfl, ethLinkUp_spec s n, fun h => if_pos h, fun h => if_neg (by omega)⟩

end Sys2Proof.Machine


/-! PROOFS. Safe inputs, test pulses, the functions and the pavilion cycle (R405, R409 to R421). -/

namespace Sys2Proof.Machine

section
variable (s : State)

@[simp] theorem State.regsBut_setFldBit (f : Fld) (i : Nat) (b : Bool) : RegsBut f.addr (s.setFldBit f i b) s := .of_rd fun _ => State.rd_setFld_other s f _
@[simp] theorem State.sameLog_setFldBit (f : Fld) (i : Nat) (b : Bool) : SameLog (s.setFldBit f i b) s := .of_eq rfl rfl
@[simp] theorem State.regsBut_pvmIrq (b : Nat) : RegsBut Reg.PVM_IRQ (s.pvmIrq b) s := s.regsBut_setRbit ..
@[simp] theorem State.sameLog_pvmIrq (b : Nat) : SameLog (s.pvmIrq b) s := .of_eq rfl rfl
@[simp] theorem State.mem_pvmIrq (b : Nat) : (s.pvmIrq b).mem = s.mem := State.setRbit_mem ..
@[simp] theorem State.pvm_pvmIrq (b : Nat) : (s.pvmIrq b).pvm = s.pvm := State.setRbit_pvm ..
@[simp] theorem State.rbit_pvmIrq {b : Nat} (h : b < 32) : (s.pvmIrq b).rbit Reg.PVM_IRQ b = true := State.rbit_setRbit_same _ _ _ h

/-! ## The cover -/

theorem coverCheck_opens (h : s.flag F.PVM_STATUS_COVER_OPEN = false) : Gives (.coverCheck true) s (fun t => t.flag F.PVM_STATUS_COVER_OPEN = true ∧
    t.pvm = { s.pvm with cover := s.pvm.cover + 1 } ∧ Logs s t 0x0D13 0 (min (s.pvm.cover + 1) 0xFFFFFFFF) ∧ t.rbit Reg.PVM_IRQ 6 = true ∧ SameMem s t ∧
    RegsKept s t [Reg.PVM_STATUS, Reg.PVM_IRQ, Reg.EVL_LOST]) := by
  refine ⟨_, (if_neg (by simp [h])).trans (if_pos rfl), ?_⟩
  refine ⟨?_, ?_, ?_, ?_, ?_, ?_⟩
  · simp (disch := decide)
  · simp
  · simp (disch := decide)
    exact logs_log _ _ _ (by simp)
  · simp (disch := decide)
  · exact .of_eq (by simp)
  · simp

theorem coverCheck_closes (h : s.flag F.PVM_STATUS_COVER_OPEN = true) : Gives (.coverCheck false) s (fun t => t.flag F.PVM_STATUS_COVER_OPEN = false ∧
    t.pvm = s.pvm ∧ Logs s t 0x0D14 0 0 ∧ t.rbit Reg.PVM_IRQ 6 = true ∧ SameMem s t ∧
    RegsKept s t [Reg.PVM_STATUS, Reg.PVM_IRQ, Reg.EVL_LOST]) := by
  refine ⟨_, (if_neg (by simp [h])).trans (if_neg (by decide)), ?_⟩
  refine ⟨?_, ?_, ?_, ?_, ?_, ?_⟩
  · simp (disch := decide)
  · simp
  · simp (disch := decide)
    exact logs_log _ _ _ (by simp)
  · simp (disch := decide)
  · exact .of_eq (by simp)
  · simp

/-! ## Inputs -/

/-- Updates of inputs, each of its own, leave each listed input updated and every other as it was. -/
theorem State.sinOf_updates (g : Nat → Sin → Sin) (l : List Nat) (h : l.Nodup) (j : Nat) :
    (l.foldl (fun u i => u.setSin i (g i (u.sinOf i))) s).sinOf j = if j ∈ l then g j (s.sinOf j) else s.sinOf j := by
  induction l generalizing s with
  | nil => simp
  | cons x l ih =>
    obtain ⟨hx, hl⟩ := List.nodup_cons.mp h
    rw [List.foldl_cons, ih _ hl]
    by_cases hj : j = x
    · subst hj
      simp [hx]
    · simp [hj, State.sinOf_setSin_other _ _ hj]

/-- Memory and every register are as they were. -/
def State.Still (s t : State) : Prop := t.mem = s.mem ∧ ∀ a, t.rd a = s.rd a

theorem State.Still.spec {s t : State} (h : s.Still t) : SameMem s t ∧ RegsKept s t [] := ⟨.of_eq h.1, fun a _ => h.2 a⟩

theorem State.Still.fold {α : Type} {f : State → α → State} (h : ∀ u x, State.Still u (f u x)) (l : List α) : s.Still (l.foldl f s) :=
  ⟨fold_field State.mem (fun u x => (h u x).1) l s, fun a => fold_field (fun u => u.rd a) (fun u x => (h u x).2 a) l s⟩

theorem State.Still.trans {s t u : State} (h : s.Still t) (h' : t.Still u) : s.Still u := ⟨h'.1.trans h.1, fun a => (h'.2 a).trans (h.2 a)⟩

theorem State.still_setSin (i : Nat) (x : Sin) : s.Still (s.setSin i x) := ⟨rfl, fun _ => rfl⟩
theorem State.still_setPvm (p : PvmState) : s.Still (s.setPvm p) := ⟨rfl, fun _ => rfl⟩

/-- An input sampled while no test pulse is low. -/
def Sin.sampled (x : Sin) (lvl : Bool) : Sin := { x with run := if x.cand = lvl then x.run + 1 else 1, cand := lvl, before := lvl }

theorem State.sinSample_idle {s : State} (h : s.pvm.pulse = 0) (i : Nat) (lvl : Bool) :
    s.sinSample i lvl = s.setSin i ((s.sinOf i).sampled lvl) := by
  unfold State.sinSample
  cases ht : parTpo s.pvm.par i with
  | none => simp [h, Sin.sampled]
  | some k => simp [h, Sin.sampled, bit]

theorem State.sinSamples_idle {s : State} (h : s.pvm.pulse = 0) (v : Nat) (l : List Nat) :
    l.foldl (fun u i => u.sinSample i (bit v i)) s = l.foldl (fun u i => u.setSin i ((u.sinOf i).sampled (bit v i))) s := by
  induction l generalizing s with
  | nil => rfl
  | cons x l ih =>
    rw [List.foldl_cons, List.foldl_cons, State.sinSample_idle h]
    exact ih h

theorem safeInputSample_idle {s : State} (v : BitVec 16) (h : s.pvm.pulse = 0) : Gives (.safeInputSample v) s (fun t =>
    (∀ i, i < 16 → t.sinOf i = { s.sinOf i with
      run := if (s.sinOf i).cand = bit v.toNat i then (s.sinOf i).run + 1 else 1, cand := bit v.toNat i, before := bit v.toNat i }) ∧
    SameMem s t ∧ RegsKept s t []) := by
  refine ⟨_, rfl, ?_⟩
  rw [State.sinSamples_idle h]
  refine ⟨fun i hi => ?_, (State.Still.fold s (fun u x => u.still_setSin x _) _).spec⟩
  rw [State.sinOf_updates _ (fun i x => x.sampled (bit v.toNat i)) _ List.nodup_range, if_pos (List.mem_range.mpr hi)]
  rfl

/-! ## A qualified edge (R410, R412) -/

theorem State.safeValue_congr {s t : State} (h : t.pvm = s.pvm) (i : Nat) : t.safeValue i = s.safeValue i := by
  unfold State.safeValue State.noDemand State.pairMode State.channels State.pairMode State.par State.sinOf
  rw [h]

/-- PVM_SIN shows the safe values of the inputs. -/
theorem State.rbit_syncSin {j : Nat} (hj : j < 16) : s.syncSin.rbit Reg.PVM_SIN j = s.syncSin.safeValue j := by
  rw [State.safeValue_congr s.syncSin_pvm]
  unfold State.syncSin
  refine fold_est (fun u : State => u.pvm = s.pvm) (fun u => u.rbit Reg.PVM_SIN j = s.safeValue j) (fun u x hu => by simpa using hu) (fun u hu => ?_) (fun u x hu h => ?_)
    (List.mem_range.mpr hj) rfl
  · rw [State.rbit_setRbit_apart _ _ _ (by omega) (by omega), State.rbit_setRbit_same _ _ _ (by omega), State.safeValue_congr hu]
  · rw [State.rbit_setRbit_apart _ _ _ (by omega) (by omega)]
    by_cases hx : j = x
    · rw [hx, State.rbit_setRbit_same _ _ _ (by omega), State.safeValue_congr hu]
    · rw [State.rbit_setRbit_apart _ _ _ (by omega) hx, h]

theorem State.q_setSin {s : State} {j : Nat} {x : Sin} (h : x.q = (s.sinOf j).q) (i : Nat) : ((s.setSin j x).sinOf i).q = (s.sinOf i).q := by
  by_cases hi : i = j
  · rw [hi, State.sinOf_setSin_self, h]
  · rw [State.sinOf_setSin_other _ _ hi]

theorem State.sinEdge_spec (i : Nat) (q : Bool) : ((s.sinEdge i q).sinOf i).q = q ∧ s.Still (s.sinEdge i q) := by
  unfold State.sinEdge
  dsimp only
  split
  · exact ⟨congrArg Sin.q (State.sinOf_setSin_self ..), (s.still_setSin ..).trans (State.still_setPvm ..)⟩
  · exact ⟨congrArg Sin.q (State.sinOf_setSin_self ..), s.still_setSin ..⟩

theorem State.pairWatch_spec (i j : Nat) : ((s.pairWatch i).sinOf j).q = (s.sinOf j).q ∧ s.Still (s.pairWatch i) := by
  unfold State.pairWatch
  dsimp only
  split
  · exact ⟨rfl, rfl, fun _ => rfl⟩
  · exact ⟨State.q_setSin (by rfl) j, s.still_setSin ..⟩

/-- The channels show a demand since the fault. -/
def State.showDemand (s : State) (i : Nat) : State :=
  if (s.channels i).all (fun c => (s.sinOf c).fault != 0 && !s.noDemand c)
  then (s.channels i).foldl (fun s c => s.setSin c { s.sinOf c with demand := true }) s else s

theorem State.showDemand_spec (i j : Nat) : ((s.showDemand i).sinOf j).q = (s.sinOf j).q ∧ s.Still (s.showDemand i) := by
  unfold State.showDemand
  split
  · exact ⟨fold_field (fun u => (u.sinOf j).q) (fun u c => State.q_setSin (by rfl) j) _ _, State.Still.fold s (fun u c => u.still_setSin ..) _⟩
  · exact ⟨rfl, rfl, fun _ => rfl⟩

theorem State.sinClear_spec (i j : Nat) : ((s.sinClear i).sinOf j).q = (s.sinOf j).q ∧ s.Still (s.sinClear i) := by
  unfold State.sinClear
  dsimp only
  split
  · exact ⟨fold_field (fun u => (u.sinOf j).q) (fun u c => State.q_setSin (by rfl) j) _ _, State.Still.fold s (fun u c => u.still_setSin ..) _⟩
  · exact ⟨rfl, rfl, fun _ => rfl⟩

theorem exec_safeInputQualify {s : State} {i : Fin 16} (hc : (s.sinOf i).cand ≠ (s.sinOf i).q) (hr : s.par (offSin i) 0 12 ≤ (s.sinOf i).run) :
    exec (.safeInputQualify i) s = .next (((((s.sinEdge i (s.sinOf i).cand).pairWatch i).showDemand i).sinClear i).syncSin) :=
  if_neg (by simp [hc, hr])

theorem safeInputQualify_spec {s : State} {i : Fin 16} (hc : (s.sinOf i).cand ≠ (s.sinOf i).q) (hr : s.par (offSin i) 0 12 ≤ (s.sinOf i).run) :
    Gives (.safeInputQualify i) s (fun t => (t.sinOf i).q = (s.sinOf i).cand ∧ (∀ j, j < 16 → t.rbit Reg.PVM_SIN j = t.safeValue j) ∧
      SameMem s t ∧ RegsKept s t [Reg.PVM_SIN]) := by
  obtain ⟨hq1, hs1⟩ := s.sinEdge_spec i (s.sinOf i).cand
  obtain ⟨hq2, hs2⟩ := (s.sinEdge i (s.sinOf i).cand).pairWatch_spec i i
  obtain ⟨hq3, hs3⟩ := ((s.sinEdge i (s.sinOf i).cand).pairWatch i).showDemand_spec i i
  obtain ⟨hq4, hs4⟩ := (((s.sinEdge i (s.sinOf i).cand).pairWatch i).showDemand i).sinClear_spec i i
  have hs := ((hs1.trans hs2).trans hs3).trans hs4
  refine ⟨_, exec_safeInputQualify hc hr, ?_, fun j hj => State.rbit_syncSin _ hj, .of_eq ((State.syncSin_mem _).trans hs.1), ?_⟩
  · rw [State.sinOf_congr (State.syncSin_pvm _), hq4, hq3, hq2, hq1]
  · exact RegsKept.syncSin (fun a _ => hs.2 a) (by simp)

/-! ## Test pulses (R409) -/

theorem testPulse_low {s : State} {k : Fin 4} (h : s.tpoDue k = true) : Gives (.testPulse k true) s (fun t => t.pvm.pulse = putBit s.pvm.pulse k true ∧
    Tab.find t.pvm.pulsed k = some s.time.cycle ∧
    (∀ i, i < 16 → t.sinOf i = if parTpo s.pvm.par i = some k.val then { s.sinOf i with own := false, ownHigh := true } else s.sinOf i) ∧
    SameMem s t ∧ RegsKept s t []) := by
  refine ⟨_, (if_neg (by simp [h])).trans (if_pos rfl), ?_⟩
  refine ⟨?_, ?_, fun i hi => ?_, ((s.still_setPvm _).trans (State.Still.fold _ (fun u x => u.still_setSin x _) _)).spec⟩
  · exact fold_field (fun u => u.pvm.pulse) (fun _ _ => by rfl) _ _
  · refine Eq.trans (fold_field (fun u => Tab.find u.pvm.pulsed k) (fun _ _ => by rfl) _ _) ?_
    exact Tab.find_put_self ..
  · refine (State.sinOf_updates _ (fun _ x => { x with own := false, ownHigh := true }) _ (List.nodup_range.filter _) i).trans ?_
    simp only [List.mem_filter, List.mem_range, hi, true_and, beq_iff_eq]
    rfl

theorem testPulse_spec (k : Fin 4) :
    (s.tpoDue k = false → exec (.testPulse k true) s = .next s) ∧ (s.tpoOver k = false → exec (.testPulse k false) s = .next s) ∧
    (s.tpoDue k = true → Gives (.testPulse k true) s (fun t => t.pvm.pulse = putBit s.pvm.pulse k true ∧
      Tab.find t.pvm.pulsed k = some s.time.cycle ∧
      (∀ i, i < 16 → t.sinOf i = if parTpo s.pvm.par i = some k.val then { s.sinOf i with own := false, ownHigh := true } else s.sinOf i) ∧
      SameMem s t ∧ RegsKept s t [])) ∧
    (s.tpoOver k = true → exec (.testPulse k false) s = .next (((List.range 16).filter (fun i => parTpo s.pvm.par i == some k.val)).foldl
      (fun u i => if (u.sinOf i).own && (u.sinOf i).ownHigh && (u.sinOf i).q then u.sinFault i 1 else u)
      (s.setPvm { s.pvm with pulse := putBit s.pvm.pulse k false }))) :=
  ⟨fun h => if_pos (by simp [h]), fun h => if_pos (by simp [h]), testPulse_low, fun h => (if_neg (by simp [h])).trans (if_neg (by decide))⟩

/-! ## Faults of inputs (R411, R412) -/

theorem State.sinFault_shown {s : State} {i code : Nat} (h : ∀ c ∈ s.channels i, (s.sinOf c).fault = 0) (t : State) (ht : t = s.sinFault i code) :
    (∀ c ∈ s.channels i, (t.sinOf c).fault = code) ∧ (∀ j, j < 16 → t.rbit Reg.PVM_SIN j = t.safeValue j) ∧
    Logs s t 0x0D20 0 ((s.channels i).headD i + code * 2 ^ 8) ∧ SameMem s t ∧ RegsKept s t [Reg.PVM_SIN, Reg.EVL_LOST] := by
  obtain ⟨hfault, -, hlog, hmem, hregs⟩ := State.sinFault_spec h code
  refine ht ▸ ⟨hfault, fun j hj => ?_, hlog, hmem, hregs⟩
  rw [State.sinFault_of_clear h code]
  exact State.rbit_syncSin _ hj

theorem exec_discrepancyTimeout_early {s : State} {i : Fin 16} {b : Nat} (hb : b = i.val - i.val % 2)
    (h : s.pairMode b = 0 ∨ s.noDemand b = s.noDemand (b + 1) ∨
      s.time.cycle < (s.sinOf b).since.getD s.pvm.frame0 + 1 + parWord s.pvm.par (offSin b + 4) * cycPerMs) :
    exec (.discrepancyTimeout i) s = .next s := by
  subst hb
  refine if_neg ?_
  rcases h with h | h | h
  · simp [h]
  · simp [h]
  · simp [State.lasted_of_lt h]

/-! ## Functions (R413, R414) -/

theorem functionResetPulse_spec (s u : State) (f : Fin 4) (hu : u = s.setPvm { s.pvm with resets := s.pvm.resets.filter (fun x => x != f.val) }) :
    (f.val ∉ s.pvm.resets → exec (.functionResetPulse f) s = .next s) ∧
    (f.val ∈ s.pvm.resets → s.funLatch f = false ∨ (∃ i < 16, bit (s.par (offFun f) 0 16) i = true ∧ s.rbit Reg.PVM_SIN i = false) →
      exec (.functionResetPulse f) s = .next u) ∧
    (f.val ∈ s.pvm.resets → s.funLatch f = true → (∀ i, i < 16 → bit (s.par (offFun f) 0 16) i = true → s.rbit Reg.PVM_SIN i = true) →
      Gives (.functionResetPulse f) s (fun t => t.funLatch f = false ∧ Logs s t 0x0D22 0 f ∧ t.pvm = u.pvm ∧ SameMem s t ∧
        RegsKept s t [Reg.PVM_FUNC, Reg.EVL_LOST])) := by
  classical
  refine ⟨exec_functionResetPulse_none, fun hr h => ?_, fun hr hl hs => ?_⟩
  · rw [exec_functionResetPulse_noted hr, if_neg, hu]
    · rfl
    · rintro ⟨hl, hs⟩
      rcases h with h | ⟨i, hi, hb, hv⟩
      · simp [h] at hl
      · simp [hs i hi hb] at hv
  · obtain ⟨t, ht, hlatch, hlog, -, hmem, -, hregs⟩ := functionResetPulse_clears hr hl hs
    refine ⟨t, ht, hlatch, hlog, ?_, hmem, hregs⟩
    rw [exec_functionResetPulse_clears hr hl hs] at ht
    rw [← Host.Outcome.next.inj ht, hu]
    simp [State.takeReset]

/-- The end of a holding test keeps memory and whether the functions have been evaluated. -/
theorem State.brkTestEnd_keeps (b code : Nat) : (s.brkTestEnd b code).mem = s.mem ∧ (s.brkTestEnd b code).pvm.evald = s.pvm.evald := by
  unfold State.brkTestEnd
  cases hx : (s.brkOf b).test with
  | none => simp only [hx, and_self]
  | some x =>
    simp only [hx]
    split <;> simp [State.setBrk]

theorem State.demandTests_keeps (f : Nat) : (s.demandTests f).mem = s.mem ∧ (s.demandTests f).pvm.evald = s.pvm.evald := by
  unfold State.demandTests
  refine fold_keep (fun u : State => u.mem = s.mem ∧ u.pvm.evald = s.pvm.evald) (fun u b hu => ?_) _ ⟨rfl, rfl⟩
  split
  · split
    · obtain ⟨hm, he⟩ := u.brkTestEnd_keeps b 4
      exact ⟨hm.trans hu.1, he.trans hu.2⟩
    · exact hu
  · exact hu

theorem State.funCycle_keeps (f : Nat) : (s.funCycle f).mem = s.mem ∧ (s.funCycle f).pvm.evald = s.pvm.evald := by
  rw [State.funCycle_eq]
  split
  · unfold State.funDemand
    obtain ⟨hm, he⟩ := State.demandTests_keeps (((if (s.setFldBit F.PVM_FUNC_OK f (s.funSat f)).par (offFun f) 20 1 == 1 then
      (s.setFldBit F.PVM_FUNC_OK f (s.funSat f)).setFldBit F.PVM_FUNC_LATCH f true else
      s.setFldBit F.PVM_FUNC_OK f (s.funSat f)).log 0x0D21 0 f).pvmIrq 1) f
    rw [hm, he]
    split <;> simp
  · simp

/-! ## Groups (R415) -/

/-- Driving an output writes its bit of VDR_OUT and its VDR_STATUS. -/
theorem State.rd_vdrDrive (n : Nat) {a : Nat} (ho : a ≠ Reg.VDR_OUT (n / 32)) (hs : a ≠ Reg.VDR_STATUS n) : (s.vdrDrive n).rd a = s.rd a := by
  unfold State.vdrDrive State.setVdrBit
  dsimp only
  split
  · simp [ho]
  · split
    · simp [ho]
    · simp [ho, hs]
  · simp [ho]

theorem State.rd_groupDrive {a g : Nat} (hg : g < 4) (ho : ∀ k, k < 2 → a ≠ Reg.VDR_OUT k) (hs : ∀ n, n < 64 → a ≠ Reg.VDR_STATUS n) :
    (s.groupDrive g).rd a = s.rd a := by
  unfold State.groupDrive
  refine List.foldlRecOn (motive := fun u : State => u.rd a = s.rd a) _ _ rfl fun u hu i hi => ?_
  have hi := List.mem_range.mp hi
  rw [State.rd_vdrDrive u _ (ho _ (by omega)) (hs _ (by omega)), hu]

theorem State.bit_groupCycle {g : Nat} (hg : g < 4) : bit ((s.groupCycle g).fld F.PVM_GRP_ON) g = s.groupOn g := by
  unfold State.groupCycle
  dsimp only
  split
  · exact (eq_of_beq ‹_›).symm
  · rw [State.fld_congr (s := (s.setFldBit F.PVM_GRP_ON g (s.groupOn g)))]
    · exact (State.bit_setFldBit s (by simp [Fld.fits]) _ hg).trans (if_pos rfl)
    · rw [State.rd_groupDrive _ hg (by grind) (by grind)]
      split <;> simp

end

/-- Settles O44: a clause for each command, with the parts of the pavilion cycle in their order. -/
theorem safeInputAndCycleCommands : Obligations.SafeInputAndCycleCommands := by
  unfold Obligations.SafeInputAndCycleCommands
  refine ⟨fun s o h => if_pos (by simp [h]), coverCheck_opens, coverCheck_closes, fun s v => safeInputSample_idle v, fun s v => rfl,
    fun s i => ⟨fun h => if_pos ?_, safeInputQualify_spec⟩, testPulse_spec, fun s i code _ _ h t ht => State.sinFault_shown h t ht,
    fun s i b hb => ⟨exec_discrepancyTimeout_early hb, ?_⟩, fun s u f => functionResetPulse_spec s u f, fun s x h => if_pos h,
    fun s x u1 u2 u3 u4 u5 hst h1 h2 h3 h4 h5 => ?_, fun s f hf => ⟨?_, ?_, fun _ => s.funOk_funCycle hf⟩, fun s g => s.bit_groupCycle⟩
  · rcases h with h | h <;> simp [h]
  · subst hb
    exact exec_discrepancyTimeout_due
  · subst h1 h2 h3 h4 h5
    exact if_neg (by simp [hst])
  · exact (s.funCycle_keeps f).2
  · exact .of_eq (s.funCycle_keeps f).1

end Sys2Proof.Machine


/-! PROOFS. Brakes: release, output tests, faults and holding tests (R416 to R420, R434). -/

namespace Sys2Proof.Machine

section
variable (s : State)

@[simp] theorem State.brkOf_setBrk (b : Nat) (x : Brk) : (s.setBrk b x).brkOf b = x := Tab.get_put_self ..
theorem State.brkOf_setBrk_other {b c : Nat} (x : Brk) (h : c ≠ b) : (s.setBrk b x).brkOf c = s.brkOf c := Tab.get_put_other _ _ _ h
@[simp] theorem State.par_setBrk (b : Nat) (x : Brk) : (s.setBrk b x).pvm.par = s.pvm.par := rfl
@[simp] theorem State.evl_pvmIrq (b : Nat) : (s.pvmIrq b).evl = s.evl := State.setRbit_evl ..
theorem State.par_congr {s t : State} (h : t.pvm.par = s.pvm.par) (off lo w : Nat) : t.par off lo w = s.par off lo w := by unfold State.par; rw [h]
theorem State.brkOf_congr {s t : State} (h : t.pvm = s.pvm) (b : Nat) : t.brkOf b = s.brkOf b := by unfold State.brkOf; rw [h]

@[simp] theorem State.fld_setFldBit_same {f : Fld} {i : Nat} (b : Bool) (hf : f.lo + f.width ≤ 32) (hi : i < f.width) :
    bit ((s.setFldBit f i b).fld f) i = b := (State.bit_setFldBit s hf b hi).trans (if_pos rfl)
@[simp] theorem State.fld_setFldBit_apart {f g : Fld} (i : Nat) (b : Bool) (h : f.lo + f.width ≤ 32) (hg : f.lo + f.width ≤ g.lo ∨ g.lo + g.width ≤ f.lo) :
    (s.setFldBit f i b).fld g = s.fld g := State.fld_setFld_apart s _ h hg

/-! ## The release timer -/

theorem brakeReleaseTimer_spec (b : Fin 8) :
    ((s.brkOf b).on = false ∨ s.time.cycle < (s.brkOf b).since + parWord s.pvm.par (offBrk b + 24) * cycPerMs → exec (.brakeReleaseTimer b) s = .next s) ∧
    ((s.brkOf b).on = true → (s.brkOf b).since + parWord s.pvm.par (offBrk b + 24) * cycPerMs ≤ s.time.cycle →
      Gives (.brakeReleaseTimer b) s (fun t => bit (t.fld F.PVM_BRK_REL) b = true ∧ t.pvm = s.pvm ∧ SameMem s t ∧ RegsKept s t [F.PVM_BRK_REL.addr])) := by
  refine ⟨fun h => if_neg ?_, fun h ht => ⟨_, if_pos ?_, ?_, ?_, ?_, ?_⟩⟩
  · rcases h with h | h
    · simp [h]
    · simp [State.lasted_of_lt h]
  · simp [h, State.lasted_of_le ht]
  · simp (disch := grind)
  · simp
  · exact .of_eq (by simp)
  · simp

/-! ## Output tests and faults -/

/-- A fatal fault of a brake sets its FAULT, takes its power and withdraws its release. -/
theorem State.brkFaulted_spec {b : Nat} (hb : b < 8) (cause : Nat) : ((s.brkFaulted b cause true).brkOf b).on = false ∧
    (s.brkFaulted b cause true).brkFault b = true ∧ bit ((s.brkFaulted b cause true).fld F.PVM_BRK_REL) b = false := by
  have hfatal (u : State) : (u.fatal (.brake b) cause).rd Reg.PVM_BRK = u.rd Reg.PVM_BRK := by
    unfold State.fatal State.logRes
    split
    · exact State.rd_log _ _ _ _ (by decide)
    · rfl
  unfold State.brkFaulted State.brkFault
  refine ⟨?_, ?_, ?_⟩
  · exact congrArg Brk.on ((State.brkOf_congr (State.setFldBit_pvm ..) b).trans (State.brkOf_setBrk ..))
  · rw [State.fld_setFldBit_apart _ _ _ (by decide) (by decide)]
    simp only [State.setBrk, if_true]
    rw [State.fld_congr ((State.rd_setPvm ..).trans (hfatal _))]
    exact State.fld_setFldBit_same _ _ (by decide) hb
  · exact State.fld_setFldBit_same _ _ (by decide) hb

theorem brakeOutputTest_spec (u : State) (o : Fin 12) (t0 : Nat) (h0 : t0 = (Tab.find s.pvm.otAt o).getD s.pvm.frame0)
    (hu : u = s.setPvm { s.pvm with otAt := Tab.put s.pvm.otAt o s.time.cycle }) :
    (s.pavOutOn o = (if o.val < 8 then (s.brkOf o).on else bit (s.fld F.PVM_GRP_ON) (o - 8))) ∧
    (s.pavOutOn o = false ∨ s.time.cycle < t0 + s.par 0x40 0 16 * 1000 * cycPerMs → ∀ ok, exec (.brakeOutputTest o ok) s = .next s) ∧
    (s.pavOutOn o = true → t0 + s.par 0x40 0 16 * 1000 * cycPerMs ≤ s.time.cycle →
      exec (.brakeOutputTest o true) s = .next u ∧
      (o.val < 8 → Gives (.brakeOutputTest o false) s (fun t => u.brkFaulted o 1 true = t ∧ (t.brkOf o).on = false ∧
        t.brkFault o = true ∧ bit (t.fld F.PVM_BRK_REL) o = false)) ∧
      (8 ≤ o.val → exec (.brakeOutputTest o false) s = .next ((u.grpFaulted (o - 8) 1 true).groupCycle (o - 8)))) := by
  subst h0 hu
  refine ⟨rfl, fun h ok => if_pos ?_, fun hon ht => ?_⟩
  · rcases h with h | h
    · simp [h]
    · simp [State.lasted_of_lt h]
  · have hdue : ¬ (!s.pavOutOn o || !s.lasted ((Tab.find s.pvm.otAt o).getD s.pvm.frame0) (s.par 0x40 0 16 * 1000 * cycPerMs)) = true := by
      simp [hon, State.lasted_of_le ht]
    refine ⟨(if_neg hdue).trans (if_pos rfl), fun ho => ?_, fun ho => ?_⟩
    · exact ⟨_, (if_neg hdue).trans ((if_neg (by decide)).trans (if_pos ho)), rfl, State.brkFaulted_spec _ ho 1⟩
    · exact (if_neg hdue).trans ((if_neg (by decide)).trans (if_neg (by omega)))

/-- An output that has been off for the second its fault must wait. -/
theorem State.any_lasted {s : State} {o : Option Nat} {d : Nat} : o.any (fun t => s.lasted t d) = true ↔ ∃ t0, o = some t0 ∧ t0 + d ≤ s.time.cycle := by
  cases o <;> simp [State.lasted_iff]

theorem brakeFaultClear_brake {s : State} {o : Fin 12} {a : Nat} (ho : o.val < 8) (ha : s.brkAxis o = some a) :
    (∀ t0, s.brkFault o = true → s.inUse (.brake o) = true → s.axisEnabled a = false → (s.brkOf o).offAt = some t0 →
      t0 + 1000 * cycPerMs ≤ s.time.cycle → Gives (.brakeFaultClear o) s (fun t => t.brkFault o = false ∧
      t.pvm = s.pvm ∧ SameMem s t ∧ RegsKept s t [F.PVM_BRK_FAULT.addr])) ∧
    (s.brkFault o = false ∨ s.inUse (.brake o) = false ∨ s.axisEnabled a = true ∨
      (∀ t0, (s.brkOf o).offAt = some t0 → s.time.cycle < t0 + 1000 * cycPerMs) → exec (.brakeFaultClear o) s = .next s) := by
  have hex : exec (.brakeFaultClear o) s = if s.brkFault o && s.inUse (.brake o) && !s.axisEnabled a &&
      (s.brkOf o).offAt.any (fun t => s.lasted t (1000 * cycPerMs)) then .next (s.setFldBit F.PVM_BRK_FAULT o false) else .next s := by
    refine (if_pos ho).trans ?_
    simp only [ha]
  refine ⟨fun t0 hf hi he ht hc => ⟨_, hex.trans (if_pos ?_), ?_, ?_, ?_, ?_⟩, fun h => hex.trans (if_neg ?_)⟩
  · simp [hf, hi, he, State.any_lasted.mpr ⟨t0, ht, hc⟩]
  · exact State.fld_setFldBit_same _ _ (by decide) ho
  · simp
  · exact .of_eq (by simp)
  · simp
  · simp only [Bool.and_eq_true, not_and, State.any_lasted]
    rintro ⟨⟨hf, hi⟩, he⟩ ⟨t0, ht, hc⟩
    rcases h with h | h | h | h
    · simp [h] at hf
    · simp [h] at hi
    · simp [h] at he
    · have := h t0 ht
      omega

theorem brakeFaultClear_none {s : State} {o : Fin 12} (ho : o.val < 8) (ha : s.brkAxis o = none) : exec (.brakeFaultClear o) s = .next s := by
  refine (if_pos ho).trans ?_
  simp only [ha]

theorem brakeFaultClear_group {s : State} {o : Fin 12} (ho : 8 ≤ o.val) :
    (∀ t0, s.grpFault (o - 8) = true → s.inUse (.group (o - 8)) = true →
      Tab.get (fun _ => none) s.pvm.grpOff (o.val - 8) = some t0 → t0 + 1000 * cycPerMs ≤ s.time.cycle → exec (.brakeFaultClear o) s =
      .next ((s.setFldBit F.PVM_GRP_FAULT (o - 8) false).groupCycle (o - 8))) ∧
    (s.grpFault (o - 8) = false ∨ s.inUse (.group (o - 8)) = false ∨
      (∀ t0, Tab.get (fun _ => none) s.pvm.grpOff (o.val - 8) = some t0 → s.time.cycle < t0 + 1000 * cycPerMs) →
      exec (.brakeFaultClear o) s = .next s) := by
  refine ⟨fun t0 hf hi ht hc => (if_neg (by omega)).trans (if_pos ?_), fun h => (if_neg (by omega)).trans (if_neg ?_)⟩
  · simp [hf, hi, State.any_lasted.mpr ⟨t0, ht, hc⟩]
  · simp only [Bool.and_eq_true, not_and, State.any_lasted]
    rintro ⟨hf, hi⟩ ⟨t0, ht, hc⟩
    rcases h with h | h | h
    · simp [h] at hf
    · simp [h] at hi
    · have := h t0 ht
      omega

/-! ## Tests due and overdue (R419) -/

theorem brakeTestDue_spec {s : State} {b : Fin 8} (ha : s.brkAxis b ≠ none) :
    (bit (s.fld F.PVM_BRK_DUE) b = true ∨ (s.brkOf b).min < s.brkDueMin b → exec (.brakeTestDue b) s = .next s) ∧
    (bit (s.fld F.PVM_BRK_DUE) b = false → s.brkDueMin b ≤ (s.brkOf b).min → Gives (.brakeTestDue b) s (fun t => bit (t.fld F.PVM_BRK_DUE) b = true ∧
      t.fld (F.PVM_BT_LEFT_MIN b) = 0 ∧ Logs s t 0x0D26 0 b ∧ t.rbit Reg.PVM_IRQ 2 = true ∧ t.pvm = s.pvm ∧ SameMem s t ∧
      RegsKept s t [F.PVM_BRK_DUE.addr, Reg.PVM_BT b, Reg.PVM_IRQ, Reg.EVL_LOST])) := by
  refine ⟨fun h => if_neg ?_, fun hd hm => ⟨_, if_pos ?_, ?_, ?_, ?_, ?_, ?_, ?_, ?_⟩⟩
  · rcases h with h | h <;> simp [h]
  · simp [hd, hm, Option.isSome_iff_ne_none.mpr ha]
  · simp (disch := grind)
  · simp (disch := grind)
  · simp (disch := grind)
    exact logs_log _ _ _ (by simp)
  · simp (disch := decide)
  · simp
  · exact .of_eq (by simp)
  · simp

theorem brakeTestOverdue_spec {s : State} {b : Fin 8} (ha : s.brkAxis b ≠ none) :
    (bit (s.fld F.PVM_BRK_OVERDUE) b = true ∨ (s.brkOf b).min < s.brkDueMin b + s.par (offBrk b + 8) 8 16 → exec (.brakeTestOverdue b) s = .next s) ∧
    (bit (s.fld F.PVM_BRK_OVERDUE) b = false → s.brkDueMin b + s.par (offBrk b + 8) 8 16 ≤ (s.brkOf b).min →
      Gives (.brakeTestOverdue b) s (fun t => bit (t.fld F.PVM_BRK_OVERDUE) b = true ∧
      Logs s t 0x0D27 0 b ∧ t.rbit Reg.PVM_IRQ 2 = true ∧ t.pvm = s.pvm ∧ SameMem s t ∧
      RegsKept s t [F.PVM_BRK_OVERDUE.addr, Reg.PVM_IRQ, Reg.EVL_LOST])) := by
  refine ⟨fun h => if_neg ?_, fun hd hm => ⟨_, if_pos ?_, ?_, ?_, ?_, ?_, ?_, ?_⟩⟩
  · rcases h with h | h <;> simp [h]
  · simp [hd, hm, Option.isSome_iff_ne_none.mpr ha]
  · simp (disch := grind)
  · simp (disch := grind)
    exact logs_log _ _ _ (by simp)
  · simp (disch := decide)
  · simp
  · exact .of_eq (by simp)
  · simp

theorem brakeTest_none {s : State} {b : Fin 8} (ha : s.brkAxis b = none) : exec (.brakeTestDue b) s = .next s ∧ exec (.brakeTestOverdue b) s = .next s :=
  ⟨if_neg (by simp [ha]), if_neg (by simp [ha])⟩

/-! ## The minutes since the last test -/

/-- One minute more for a brake with an axis, shown as what is left of its interval. -/
def State.brkMinute (s : State) (b : Nat) : State :=
  if (s.brkAxis b).isSome then (s.setBrk b { s.brkOf b with min := (s.brkOf b).min + 1 }).brkShow b else s

theorem State.brkAxis_congr {s t : State} (h : t.pvm.par = s.pvm.par) (b : Nat) : t.brkAxis b = s.brkAxis b := by
  unfold State.brkAxis State.par; rw [h]

theorem State.brkDueMin_congr {s t : State} (h : t.pvm.par = s.pvm.par) (b : Nat) : t.brkDueMin b = s.brkDueMin b := by
  unfold State.brkDueMin State.par; rw [h]

theorem State.brkDueMin_lt (b : Nat) : s.brkDueMin b < 2 ^ 16 := by
  have : s.par (offBrk b + 8) 0 8 < 2 ^ 8 := Nat.mod_lt _ (by decide)
  unfold State.brkDueMin
  omega

theorem State.brkMinute_some {s : State} {b : Nat} (h : s.brkAxis b ≠ none) : s.brkMinute b =
    (s.setBrk b { s.brkOf b with min := (s.brkOf b).min + 1 }).setFld (F.PVM_BT_LEFT_MIN b) (s.brkDueMin b - ((s.brkOf b).min + 1)) := by
  have hs := Option.isSome_iff_ne_none.mpr h
  have hs' (x : Brk) : ((s.setBrk b x).brkAxis b).isSome = true := by rwa [State.brkAxis_congr (s.par_setBrk b x)]
  refine (if_pos hs).trans ((if_pos (hs' _)).trans ?_)
  rw [State.brkOf_setBrk, State.brkDueMin_congr (s.par_setBrk b _)]

theorem State.brkMinute_none {s : State} {b : Nat} (h : s.brkAxis b = none) : s.brkMinute b = s := if_neg (by simp [h])

/-- A minute more for a brake leaves every other brake, memory and the registers but its PVM_BT. -/
theorem State.brkMinute_keeps (b : Nat) : (s.brkMinute b).pvm.par = s.pvm.par ∧ (s.brkMinute b).pvm.minAt = s.pvm.minAt ∧
    (s.brkMinute b).mem = s.mem ∧ (∀ c, c ≠ b → (s.brkMinute b).brkOf c = s.brkOf c) ∧ ∀ a, a ≠ Reg.PVM_BT b → (s.brkMinute b).rd a = s.rd a := by
  by_cases h : s.brkAxis b = none
  · simp [State.brkMinute_none h]
  · rw [State.brkMinute_some h]
    refine ⟨by simp, by simp [State.setBrk], by simp [State.setBrk], fun c hc => ?_, fun a ha => State.rd_setFld_other _ _ _ ha⟩
    exact (State.brkOf_congr (State.setFld_pvm ..) c).trans (State.brkOf_setBrk_other _ _ hc)

theorem State.brkMinutes_spec (n : Nat) {t : State} (ht : t = (List.range n).foldl State.brkMinute s) :
    (t.pvm.par = s.pvm.par ∧ t.pvm.minAt = s.pvm.minAt ∧ t.mem = s.mem ∧ ∀ a, (∀ b, b < n → a ≠ Reg.PVM_BT b) → t.rd a = s.rd a) ∧
    (∀ b, b < n → s.brkAxis b ≠ none → t.brkOf b = { s.brkOf b with min := (s.brkOf b).min + 1 } ∧
      t.fld (F.PVM_BT_LEFT_MIN b) = s.brkDueMin b - ((s.brkOf b).min + 1)) ∧
    ∀ b, n ≤ b ∨ s.brkAxis b = none → t.brkOf b = s.brkOf b := by
  induction n generalizing t with
  | zero => subst ht; simp
  | succ k ih =>
    obtain ⟨⟨hp, hma, hm, hr⟩, hs, hn⟩ := ih rfl
    rw [List.range_succ, List.foldl_append, List.foldl_cons, List.foldl_nil] at ht
    generalize List.foldl State.brkMinute s (List.range k) = u at *
    obtain ⟨hp', hma', hm', ho', hr'⟩ := u.brkMinute_keeps k
    have hax := State.brkAxis_congr hp k
    subst ht
    refine ⟨⟨hp'.trans hp, hma'.trans hma, hm'.trans hm, fun a ha => (hr' a (ha k (by omega))).trans (hr a fun b hb => ha b (by omega))⟩,
      fun b hb hb' => ?_, fun b hb => ?_⟩
    · by_cases hbk : b = k
      · subst hbk
        rw [State.brkMinute_some (hax.trans_ne hb'), hn b (.inl le_rfl), State.brkDueMin_congr hp]
        refine ⟨(State.brkOf_congr (State.setFld_pvm ..) b).trans (State.brkOf_setBrk ..), ?_⟩
        refine (State.fld_setFld_same _ _ (Nat.le_of_ble_eq_true rfl)).trans (Nat.mod_eq_of_lt ?_)
        have := s.brkDueMin_lt b
        change _ < 2 ^ 16
        omega
      · obtain ⟨hs1, hs2⟩ := hs b (by omega) hb'
        exact ⟨(ho' b hbk).trans hs1, (State.fld_congr (hr' _ (by grind))).trans hs2⟩
    · by_cases hbk : b = k
      · subst hbk
        rw [State.brkMinute_none (hax.trans (hb.resolve_left (by omega))), hn b (.inl le_rfl)]
      · exact (ho' b hbk).trans (hn b (hb.imp_left (by omega)))

theorem brakeTimerSave_spec (h : s.pvm.minAt + 60000 * cycPerMs ≤ s.time.cycle) : Gives .brakeTimerSave s (fun t => t.pvm.minAt = s.time.cycle ∧
    (∀ b, b < 8 → s.brkAxis b ≠ none → t.brkOf b = { s.brkOf b with min := (s.brkOf b).min + 1 } ∧
      t.fld (F.PVM_BT_LEFT_MIN b) = s.brkDueMin b - ((s.brkOf b).min + 1)) ∧
    (∀ b, b < 8 → s.brkAxis b = none → t.brkOf b = s.brkOf b) ∧ SameMem s t ∧ RegsKept s t ((List.range 8).map Reg.PVM_BT)) := by
  obtain ⟨⟨-, hma, hm, hr⟩, hs, hn⟩ := State.brkMinutes_spec (s.setPvm { s.pvm with minAt := s.time.cycle }) 8 rfl
  refine ⟨_, if_neg (by simp [State.lasted_of_le h]), hma, hs, fun b _ hb => hn b (.inr hb), .of_eq hm, fun a ha => hr a fun b hb hab => ha ?_⟩
  exact List.mem_map.mpr ⟨b, List.mem_range.mpr hb, hab.symm⟩

/-! ## Holding tests (R419) -/

section
variable {s : State} {b : Nat} {x : BrkTest} (hx : (s.brkOf b).test = some x)
include hx

theorem State.brkTestEnd_passed : s.brkTestEnd b 0 = ((((((s.setBrk b { s.brkOf b with test := none, min := 0 }).setFld (F.PVM_BT_RUNNING b) 0).setFld
    (F.PVM_BT_LAST b) 0).pvmIrq 2).setFldBit F.PVM_BRK_DUE b false).setFldBit F.PVM_BRK_OVERDUE b false |>.setFld (F.PVM_BT_LEFT_MIN b)
      (s.brkDueMin b)).log 0x0D28 0 (b + x.slip % 2 ^ 24 * 2 ^ 8) := by
  unfold State.brkTestEnd
  simp only [hx, if_true, State.brkDueMin]
  rw [State.par_congr (s := s) (by simp)]

theorem State.brkTestEnd_failed {code : Nat} (hc : code ≠ 0) : s.brkTestEnd b code = ((((s.setBrk b { s.brkOf b with test := none }).setFld
    (F.PVM_BT_RUNNING b) 0).setFld (F.PVM_BT_LAST b) code).pvmIrq 2).log 0x0D29 0 (b + code * 2 ^ 8) := by
  unfold State.brkTestEnd
  simp only [hx, hc, if_false]

theorem State.brkTestEnd_passed_spec (hb : b < 8) {t : State} (ht : t = s.brkTestEnd b 0) :
    t.brkOf b = { s.brkOf b with test := none, min := 0 } ∧ t.fld (F.PVM_BT_LAST b) = 0 ∧ t.flag (F.PVM_BT_RUNNING b) = false ∧
    bit (t.fld F.PVM_BRK_DUE) b = false ∧ bit (t.fld F.PVM_BRK_OVERDUE) b = false ∧ Logs s t 0x0D28 0 (b + x.slip % 2 ^ 24 * 2 ^ 8) := by
  subst ht
  rw [State.brkTestEnd_passed hx]
  refine ⟨?_, ?_, ?_, ?_, ?_, logs_log _ _ _ (by simp [State.setBrk])⟩
  · refine (State.brkOf_congr (t := State.log _ _ _ _) (s := s.setBrk b _) ?_ b).trans (State.brkOf_setBrk ..)
    simp
  · simp (disch := grind)
  · simp (disch := grind)
  · simp (disch := grind)
  · simp (disch := grind)

theorem State.brkTestEnd_failed_spec {code : Nat} (hc : code ≠ 0) (hc' : code < 8) {t : State} (ht : t = s.brkTestEnd b code) :
    t.brkOf b = { s.brkOf b with test := none } ∧ t.flag (F.PVM_BT_RUNNING b) = false ∧ t.fld (F.PVM_BT_LAST b) = code ∧ t.rbit Reg.PVM_IRQ 2 = true ∧
    Logs s t 0x0D29 0 (b + code * 2 ^ 8) ∧ SameMem s t ∧ RegsKept s t [Reg.PVM_BT b, Reg.PVM_IRQ, Reg.EVL_LOST] := by
  subst ht
  rw [State.brkTestEnd_failed hx hc]
  refine ⟨?_, ?_, ?_, ?_, logs_log _ _ _ (by simp [State.setBrk]), .of_eq (by simp [State.setBrk]), by simp [State.setBrk]⟩
  · refine (State.brkOf_congr (t := State.log _ _ _ _) (s := s.setBrk b _) ?_ b).trans (State.brkOf_setBrk ..)
    simp
  · simp (disch := grind)
  · simp (disch := grind)
    omega
  · simp (disch := grind)

end

theorem brakeTestTimeout_spec (b : Fin 8) : ((s.brkOf b).test = none → exec (.brakeTestTimeout b) s = .next s) ∧
    (∀ x, (s.brkOf b).test = some x → s.time.cycle < x.at_ + parWord s.pvm.par (offBrk b + 20) * 1000 * cycPerMs →
      exec (.brakeTestTimeout b) s = .next s) ∧
    (∀ x, (s.brkOf b).test = some x → x.at_ + parWord s.pvm.par (offBrk b + 20) * 1000 * cycPerMs ≤ s.time.cycle →
      Gives (.brakeTestTimeout b) s (fun t => t.brkOf b = { s.brkOf b with test := none } ∧
      t.flag (F.PVM_BT_RUNNING b) = false ∧ t.fld (F.PVM_BT_LAST b) = 3 ∧ t.rbit Reg.PVM_IRQ 2 = true ∧ Logs s t 0x0D29 0 (b + 3 * 2 ^ 8) ∧
      SameMem s t ∧ RegsKept s t [Reg.PVM_BT b, Reg.PVM_IRQ, Reg.EVL_LOST])) := by
  refine ⟨fun h => if_neg (by simp [h]), fun x hx ht => if_neg (by simp [hx, State.lasted_of_lt ht]), fun x hx ht => ⟨_, if_pos ?_, ?_⟩⟩
  · simp [hx, State.lasted_of_le ht]
  · exact State.brkTestEnd_failed_spec hx (by decide) (by decide) rfl

/-! ## Start and end of a holding test by mailbox (R434) -/

/-- The brake under a holding test that starts: without power, and with where its axis and its encoder stand. -/
def State.btBrk (s : State) (b a : Nat) : Brk :=
  let g := s.par (offBrk b) 8 4
  { s.brkOf b with on := false, dis := 0, lowI := 0, test := some ⟨s.time.cycle, (s.brkOf b).sp, (s.brkOf b).ep, (s.axisOf a).s,
    toSigned 48 (s.num (Reg.ENC_ACC_LO g) + 2 ^ 32 * s.fld (F.ENC_ACC_HI_ACC g)), 0, 0, 0⟩ }

/-- The state with a holding test started. -/
def State.btStarted (s : State) (b a : Nat) : State :=
  ((s.setBrk b (s.btBrk b a)).setFldBit F.PVM_BRK_REL b false).setFld (F.PVM_BT_RUNNING b) 1

theorem State.brkOf_mbAnswer (mb r d b : Nat) : (s.mbAnswer mb r d).brkOf b = s.brkOf b := rfl
theorem State.brkOf_btStarted (b a : Nat) : (s.btStarted b a).brkOf b = s.btBrk b a :=
  (State.brkOf_congr ((State.setFld_pvm ..).trans (State.setFldBit_pvm ..)) b).trans (State.brkOf_setBrk ..)

section
variable {s : State} {b : Nat}

theorem exec_pvmBtStart_bad (hm : s.mbHas 1 5 = true) (hb : b = s.mbReq 1 1) (h : 8 ≤ b ∨ s.brkAxis b = none) :
    exec .pvmBtStart s = .next (s.mbAnswer 1 4 0) := by
  have hax : (if b < 8 then s.brkAxis b else none) = none := by
    rcases h with h | h
    · exact if_neg (by omega)
    · rw [h, ite_self]
  refine (if_neg (by simp [hm])).trans ?_
  simp only [← hb, hax]

variable {a : Nat} (hm : s.mbHas 1 5 = true) (hb : b = s.mbReq 1 1) (hlt : b < 8) (ha : s.brkAxis b = some a)
include hm hb hlt ha

theorem exec_pvmBtStart_busy (h : s.pavState ≠ 1 ∨ s.brkFault b = true ∨ (s.brkOf b).test ≠ none) :
    exec .pvmBtStart s = .next (s.mbAnswer 1 3 0) := by
  refine (if_neg (by simp [hm])).trans ?_
  simp only [← hb, if_pos hlt, ha]
  refine if_pos ?_
  rcases h with h | h | h
  · simp [h]
  · simp [h]
  · simp [Option.isSome_iff_ne_none.mpr h]

theorem exec_pvmBtStart_moving {n : Nat} (hn : s.axCrew a = some n) (h : 2 ≤ s.axState n a) : exec .pvmBtStart s = .next (s.mbAnswer 1 3 0) := by
  have hr : decide (s.axState n a ≤ 1) = false := decide_eq_false (by omega)
  refine (if_neg (by simp [hm])).trans ?_
  simp only [← hb, if_pos hlt, ha, hn]
  exact if_pos (by simp [hr])

theorem exec_pvmBtStart_starts {n : Nat} (hst : s.pavState = 1) (hf : s.brkFault b = false) (ht : (s.brkOf b).test = none) (hn : s.axCrew a = some n)
    (h : s.axState n a ≤ 1) : exec .pvmBtStart s = .next ((s.btStarted b a).mbAnswer 1 0 0) := by
  refine (if_neg (by simp [hm])).trans ?_
  simp only [← hb, if_pos hlt, ha, hn]
  exact if_neg (by simp [hst, hf, ht, h])

theorem pvmBtStart_starts {n : Nat} (hst : s.pavState = 1) (hf : s.brkFault b = false) (ht : (s.brkOf b).test = none) (hn : s.axCrew a = some n)
    (h : s.axState n a ≤ 1) : Gives .pvmBtStart s (fun t => Tab.find t.pvm.resp 1 = some (0, 0) ∧ (t.brkOf b).on = false ∧
      (t.brkOf b).test.map (fun x => (x.sp0, x.ep0, x.s0)) = some ((s.brkOf b).sp, (s.brkOf b).ep, (s.axisOf a).s) ∧
      bit (t.fld F.PVM_BRK_REL) b = false ∧ t.flag (F.PVM_BT_RUNNING b) = true ∧ SameMem s t ∧ RegsKept s t [F.PVM_BRK_REL.addr, Reg.PVM_BT b]) := by
  refine ⟨_, exec_pvmBtStart_starts hm hb hlt ha hst hf ht hn h, Tab.find_put_self .., ?_, ?_, ?_, ?_, ?_, ?_⟩
  · rw [State.brkOf_mbAnswer, State.brkOf_btStarted]; rfl
  · rw [State.brkOf_mbAnswer, State.brkOf_btStarted]; rfl
  · simp (disch := grind) [State.mbAnswer, State.btStarted]
  · simp (disch := grind) [State.mbAnswer, State.btStarted]
  · exact .of_eq (by simp [State.mbAnswer, State.btStarted, State.setBrk])
  · simp [State.mbAnswer, State.btStarted, State.setBrk]

end

section
variable {s : State} {b : Nat} (hm : s.mbHas 1 6 = true) (hb : b = s.mbReq 1 1)
include hm hb

theorem pvmBtEnd_spec : (8 ≤ b → exec .pvmBtEnd s = .next (s.mbAnswer 1 4 0)) ∧
    (b < 8 → (s.brkOf b).test = none → exec .pvmBtEnd s = .next (s.mbAnswer 1 3 0)) ∧
    (∀ x (n : Int), b < 8 → (s.brkOf b).test = some x → n = (s.par (offBrk b + 12) 0 32 : Nat) →
      (n ≤ x.hi → x.lo ≤ -n → exec .pvmBtEnd s = .next ((s.brkTestEnd b 0).mbAnswer 1 0 0)) ∧
      (x.hi < n ∨ -n < x.lo → exec .pvmBtEnd s = .next ((s.brkTestEnd b 2).mbAnswer 1 0 0))) := by
  have hex : exec .pvmBtEnd s = if 8 ≤ b then .next (s.mbAnswer 1 4 0) else exec .pvmBtEnd s := by
    split
    · subst hb
      exact (if_neg (by simp [hm])).trans (if_pos ‹_›)
    · rfl
  refine ⟨fun h => hex.trans (if_pos h), fun h hx => ?_, fun x n h hx hn => ⟨fun h1 h2 => ?_, fun h1 => ?_⟩⟩
  · subst hb
    refine (if_neg (by simp [hm])).trans ((if_neg (by omega)).trans ?_)
    simp only [hx]
  · subst hb hn
    refine (if_neg (by simp [hm])).trans ((if_neg (by omega)).trans ?_)
    simp only [hx, if_pos (And.intro h1 h2)]
  · subst hb hn
    refine (if_neg (by simp [hm])).trans ((if_neg (by omega)).trans ?_)
    simp only [hx]
    rw [if_neg (by omega)]

end

end

/-- Settles O45: a lemma for each command, the holding tests by `brkTestEnd_passed_spec` and `brkTestEnd_failed_spec`. -/
theorem brakeCommands : Obligations.BrakeCommands := by
  unfold Obligations.BrakeCommands
  refine ⟨brakeReleaseTimer_spec, brakeOutputTest_spec, fun s o a => brakeFaultClear_brake, fun s o => ⟨brakeFaultClear_none, ?_, ?_⟩,
    fun s b ha => ?_, fun s b => brakeTest_none, fun s h => if_pos (by simp [State.lasted_of_lt h]), brakeTimerSave_spec, brakeTestTimeout_spec,
    fun s => ⟨fun h => if_pos (by simp [h]), fun h => if_pos (by simp [h])⟩,
    fun s b hm hb => ⟨exec_pvmBtStart_bad hm hb, fun a hlt ha => exec_pvmBtStart_busy hm hb hlt ha, fun a n hlt ha hst hf ht hn =>
      ⟨exec_pvmBtStart_moving hm hb hlt ha hn, pvmBtStart_starts hm hb hlt ha hst hf ht hn⟩⟩,
    fun s b => pvmBtEnd_spec, fun s b x hb hx t ht => State.brkTestEnd_passed_spec hx hb ht⟩
  · exact fun t0 ho => (brakeFaultClear_group ho).1 t0
  · exact fun ho => (brakeFaultClear_group ho).2
  · obtain ⟨hd, hd'⟩ := brakeTestDue_spec ha
    obtain ⟨hv, hv'⟩ := brakeTestOverdue_spec ha
    exact ⟨hd, hv, hd', hv'⟩

end Sys2Proof.Machine


/-! PROOFS. The valve gate, the parameter set and the pavilion mailboxes (R408, R422, R423, R434). -/

namespace Sys2Proof.Machine

section
variable (s : State)

/-! ## The valve gate -/

/-- A set with switching time 0 asks for the next end of a cycle. -/
def State.vsetZero (mb : Nat) : Bool := s.mbReq mb 1 == 0 && s.mbReq mb 2 == 0 && s.mbReq mb 3 == 0

/-- The switching time a request names. -/
def State.vsetTime (mb : Nat) : Option Stamp :=
  if s.vsetZero mb then none else some ⟨s.mbReq mb 1 + s.mbReq mb 3 % 2 ^ 16 * 2 ^ 32, s.mbReq mb 2, s.mbReq mb 3 / 2 ^ 16 * 256⟩

/-- The armed set a request with valves `vs` asks for. -/
def State.vsetSet (mb : Nat) (vs : List (Nat × Bool)) : ArmedSet :=
  ⟨s.mbReq mb 5 % 16, s.mbReq mb 4, s.vsetTime mb, vs, s.setDue (s.vsetTime mb), false⟩

/-- Why the gate refuses a set, if it does. -/
def State.vsetReason (mb : Nat) (a : ArmedSet) : Option (Nat × Nat) := if s.vsetZero mb && mb == 0 then some (6, 0) else s.gateReason a

/-- The state with a set refused. -/
def State.vsetRefuse (mb r d : Nat) : State := (s.log 0x0D30 0 (r + s.mbReq mb 5 % 16 * 2 ^ 8)).mbAnswer mb 1 (r + d)

/-- The state with a set armed. -/
def State.vsetArm (mb : Nat) (a : ArmedSet) : State :=
  ((s.setPvm { s.pvm with armed := s.pvm.armed ++ [a] }).setFld F.PVM_VARM_ARMED (s.pvm.armed.length + 1)).mbAnswer mb 0 0

variable {s}

theorem exec_pvmVset_bad {mb : Fin 2} (hm : s.mbHas mb 1 = true) (hv : vsetOf (s.mbReq mb) 6 = none) :
    exec (.pvmVset mb) s = .next (s.vsetRefuse mb 5 0) := by
  refine (if_neg (by simp [hm])).trans ?_
  simp only [hv]
  rfl

theorem exec_pvmVset_refused {mb : Fin 2} {vs : List (Nat × Bool)} {r d : Nat} (hm : s.mbHas mb 1 = true) (hv : vsetOf (s.mbReq mb) 6 = some vs)
    (hr : s.vsetReason mb (s.vsetSet mb vs) = some (r, d)) : exec (.pvmVset mb) s = .next (s.vsetRefuse mb r d) := by
  unfold State.vsetReason State.vsetSet State.vsetTime State.vsetZero at hr
  refine (if_neg (by simp [hm])).trans ?_
  simp only [hv, hr]
  rfl

theorem exec_pvmVset_armed {mb : Fin 2} {vs : List (Nat × Bool)} (hm : s.mbHas mb 1 = true) (hv : vsetOf (s.mbReq mb) 6 = some vs)
    (hr : s.vsetReason mb (s.vsetSet mb vs) = none) : exec (.pvmVset mb) s = .next (s.vsetArm mb (s.vsetSet mb vs)) := by
  have hlen : (s.pvm.armed ++ [s.vsetSet mb vs]).length = s.pvm.armed.length + 1 := List.length_append
  unfold State.vsetArm
  rw [← hlen]
  unfold State.vsetReason State.vsetSet State.vsetTime State.vsetZero at *
  refine (if_neg (by simp [hm])).trans ?_
  simp only [hv, hr]
  rfl

/-- A refused set leaves the armed ones, and its answer carries the reason. -/
theorem State.vsetRefuse_spec (s : State) (mb r d : Nat) : (s.vsetRefuse mb r d).pvm.armed = s.pvm.armed ∧
    Tab.find (s.vsetRefuse mb r d).pvm.resp mb = some (1, r + d) ∧ Logs s (s.vsetRefuse mb r d) 0x0D30 0 (r + s.mbReq mb 5 % 16 * 2 ^ 8) ∧
    SameMem s (s.vsetRefuse mb r d) ∧ RegsKept s (s.vsetRefuse mb r d) [Reg.EVL_LOST] := by
  unfold State.vsetRefuse State.mbAnswer
  refine ⟨?_, Tab.find_put_self .., ?_, .of_eq (by simp), by simp⟩
  · simp
  · simp
    exact logs_log _ _ _ rfl

theorem State.vsetArm_spec (s : State) (mb : Nat) (a : ArmedSet) : (s.vsetArm mb a).pvm.armed = s.pvm.armed ++ [a] ∧
    Tab.find (s.vsetArm mb a).pvm.resp mb = some (0, 0) ∧ (s.vsetArm mb a).fld F.PVM_VARM_ARMED = (s.pvm.armed.length + 1) % 2 ^ 5 ∧
    SameMem s (s.vsetArm mb a) ∧ RegsKept s (s.vsetArm mb a) [Reg.PVM_VARM] := by
  unfold State.vsetArm State.mbAnswer
  refine ⟨?_, Tab.find_put_self .., ?_, .of_eq (by simp), by simp⟩
  · simp
  · simp (disch := decide)

/-- A set whose fields are those of the request is the set the request asks for. -/
theorem State.vsetSet_unique {mb : Nat} {a : ArmedSet} {zero : Bool} (hid : a.id = s.mbReq mb 5 % 16) (hc : a.cseq = s.mbReq mb 4)
    (hz : zero = (s.mbReq mb 1 == 0 && s.mbReq mb 2 == 0 && s.mbReq mb 3 == 0))
    (ht : a.t = if zero then none else some ⟨s.mbReq mb 1 + s.mbReq mb 3 % 2 ^ 16 * 2 ^ 32, s.mbReq mb 2, s.mbReq mb 3 / 2 ^ 16 * 256⟩)
    (hd : a.due = s.setDue a.t) (hr : a.ripe = false) : a = s.vsetSet mb a.vs ∧ zero = s.vsetZero mb := by
  obtain ⟨id, cseq, t, vs, due, ripe⟩ := a
  dsimp only at hid hc ht hd hr
  subst hid hc hz ht hd hr
  exact ⟨rfl, rfl⟩

theorem State.vsetReason_gate {mb : Fin 2} {a : ArmedSet} (h : s.vsetZero mb = false ∨ mb = 1) : s.vsetReason mb a = s.gateReason a := by
  refine if_neg ?_
  rcases h with h | h <;> simp [h]

theorem pvmVset_spec {mb : Fin 2} {a : ArmedSet} {zero : Bool} (hm : s.mbHas mb 1 = true) (hv : vsetOf (s.mbReq mb) 6 = some a.vs)
    (hid : a.id = s.mbReq mb 5 % 16) (ha : a = s.vsetSet mb a.vs) (hz : zero = s.vsetZero mb) :
    (zero = true → mb = 0 → Gives (.pvmVset mb) s (fun t => t.pvm.armed = s.pvm.armed ∧ Tab.find t.pvm.resp mb = some (1, 6) ∧
      Logs s t 0x0D30 0 (6 + a.id * 2 ^ 8) ∧ SameMem s t ∧ RegsKept s t [Reg.EVL_LOST])) ∧
    (zero = false ∨ mb = 1 → s.gateReason a = none → Gives (.pvmVset mb) s (fun t => t.pvm.armed = s.pvm.armed ++ [a] ∧ Tab.find t.pvm.resp mb = some (0, 0) ∧
      t.fld F.PVM_VARM_ARMED = (s.pvm.armed.length + 1) % 2 ^ 5 ∧ SameMem s t ∧ RegsKept s t [Reg.PVM_VARM])) ∧
    (∀ r d, zero = false ∨ mb = 1 → s.gateReason a = some (r, d) → Gives (.pvmVset mb) s (fun t => t.pvm.armed = s.pvm.armed ∧
      Tab.find t.pvm.resp mb = some (1, r + d) ∧ Logs s t 0x0D30 0 (r + a.id * 2 ^ 8) ∧ SameMem s t ∧ RegsKept s t [Reg.EVL_LOST])) := by
  subst hz
  rw [hid]
  refine ⟨fun hz h0 => ⟨_, exec_pvmVset_refused (r := 6) (d := 0) hm hv (if_pos (by subst h0; simpa using hz)), s.vsetRefuse_spec mb 6 0⟩,
    fun h hg => ⟨_, exec_pvmVset_armed hm hv ((State.vsetReason_gate h).trans (ha ▸ hg)), ?_⟩,
    fun r d h hg => ⟨_, exec_pvmVset_refused hm hv ((State.vsetReason_gate h).trans (ha ▸ hg)), s.vsetRefuse_spec mb r d⟩⟩
  rw [← ha]
  exact s.vsetArm_spec mb a

/-! ## Withdrawal -/

theorem pvmVwithdraw_spec {mb : Fin 2} {mine : ArmedSet → Bool} {any : Bool} (hm : s.mbHas mb 2 = true)
    (hmine : ∀ a, mine a = (a.id == s.mbReq mb 1 % 16 && !s.setCome a)) (ha : any = s.pvm.armed.any mine) :
    Gives (.pvmVwithdraw mb) s (fun t => t.pvm.armed = s.pvm.armed.filter (fun a => !mine a) ∧ Tab.find t.pvm.resp mb = some (0, b2n any) ∧
      (any = true → Logs s t 0x0D31 0 (s.mbReq mb 1 % 16)) ∧ t.fld F.PVM_VARM_ARMED = (s.pvm.armed.filter (fun a => !mine a)).length % 2 ^ 5 ∧
      SameMem s t ∧ RegsKept s t [Reg.PVM_VARM, Reg.EVL_LOST]) := by
  obtain rfl : mine = fun a => a.id == s.mbReq mb 1 % 16 && !s.setCome a := funext hmine
  subst ha
  refine ⟨_, if_neg (by simp [hm]), ?_⟩
  refine ⟨?_, Tab.find_put_self .., fun h => ?_, ?_, .of_eq (by simp [State.mbAnswer]), by simp [State.mbAnswer]⟩
  · simp [State.mbAnswer]
  · simp only [h, State.mbAnswer, State.logIf, if_true]
    exact logs_log (t := _) _ _ _ (by simp)
  · simp (disch := decide) [State.mbAnswer]

/-! ## The parameter set -/

theorem pvmPar_closed (hc : s.parClosed = true) : (s.mbHas 1 3 = true → exec .pvmParWrite s = .next (s.mbAnswer 1 3 0)) ∧
    (s.mbHas 1 4 = true → exec .pvmParCommit s = .next (s.mbAnswer 1 3 0)) :=
  ⟨fun h => (if_neg (by simp [h])).trans (if_pos hc), fun h => (if_neg (by simp [h])).trans (if_pos hc)⟩

/-- A request refused for the locked switch keeps the pavilion's data. -/
theorem State.parLocked_spec (s : State) {t : State} (ht : t = (s.log 0x0D18 0 0).mbAnswer 1 2 0) : Tab.find t.pvm.resp 1 = some (2, 0) ∧
    Logs s t 0x0D18 0 0 ∧ t.pvm.stage = s.pvm.stage ∧ t.pvm.store = s.pvm.store ∧ SameMem s t ∧ RegsKept s t [Reg.EVL_LOST] := by
  subst ht
  refine ⟨Tab.find_put_self .., ?_, by simp [State.mbAnswer], by simp [State.mbAnswer], .of_eq (by simp [State.mbAnswer]), by simp [State.mbAnswer]⟩
  simp [State.mbAnswer]
  exact logs_log _ _ _ rfl

theorem pvmPar_locked (hc : s.parClosed = false) (hs : s.sw17 = false) :
    (s.mbHas 1 3 = true → Gives .pvmParWrite s (fun t => Tab.find t.pvm.resp 1 = some (2, 0) ∧ Logs s t 0x0D18 0 0 ∧ t.pvm.stage = s.pvm.stage ∧
      SameMem s t ∧ RegsKept s t [Reg.EVL_LOST])) ∧
    (s.mbHas 1 4 = true → Gives .pvmParCommit s (fun t => Tab.find t.pvm.resp 1 = some (2, 0) ∧ Logs s t 0x0D18 0 0 ∧ t.pvm.store = s.pvm.store ∧
      SameMem s t ∧ RegsKept s t [Reg.EVL_LOST])) := by
  obtain ⟨h1, h2, h3, h4, h5, h6⟩ := s.parLocked_spec rfl
  exact ⟨fun h => ⟨_, (if_neg (by simp [h])).trans ((if_neg (by simp [hc])).trans (if_pos (by simp [hs]))), h1, h2, h3, h5, h6⟩,
    fun h => ⟨_, (if_neg (by simp [h])).trans ((if_neg (by simp [hc])).trans (if_pos (by simp [hs]))), h1, h2, h4, h5, h6⟩⟩

/-- The bytes at `off`, put one after another, read back; every other offset keeps its byte. -/
theorem get_foldl_parPut (f : Nat → Nat) (off n : Nat) (p : List (Nat × Nat)) (o : Nat) :
    Tab.get (fun _ => 0) ((List.range n).foldl (fun p i => parPut p (off + i) (f i)) p) o =
      if off ≤ o ∧ o < off + n then f (o - off) % 256 else Tab.get (fun _ => 0) p o := by
  induction n with
  | zero => simp
  | succ k ih =>
    rw [List.range_succ, List.foldl_append, List.foldl_cons, List.foldl_nil]
    by_cases ho : o = off + k
    · subst ho
      rw [parPut, Tab.get_set_self, if_pos (by omega), Nat.add_sub_cancel_left]
    · rw [parPut, Tab.get_set_other _ _ _ ho, ih]
      exact if_congr (by omega) rfl rfl

section
variable {off n : Nat} (hm : s.mbHas 1 3 = true) (hc : s.parClosed = false) (hs : s.sw17 = true) (ho : off = s.mbReq 1 1) (hn : n = s.mbReq 1 2)
include hm hc hs ho hn

theorem exec_pvmParWrite_bad (h : n = 0 ∨ 128 < n ∨ off % 4 ≠ 0 ∨ 0x49400 < off + 4 * n ∨ s.mbReq 1 0 / 2 ^ 8 % 256 ≠ n + 2) :
    exec .pvmParWrite s = .next (s.mbAnswer 1 4 0) := by
  subst ho hn
  exact (if_neg (by simp [hm])).trans ((if_neg (by simp [hc])).trans ((if_neg (by simp [hs])).trans (if_pos h)))

theorem exec_pvmParWrite_staged (h0 : 0 < n) (h128 : n ≤ 128) (h4 : off % 4 = 0) (hl : off + 4 * n ≤ parLen) (hw : s.mbReq 1 0 / 2 ^ 8 % 256 = n + 2) :
    exec .pvmParWrite s = .next ((s.setPvm { s.pvm with
      stage := (List.range (4 * n)).foldl (fun p i => parPut p (off + i) (s.mbReq 1 (3 + i / 4) / 256 ^ (i % 4))) s.pvm.stage }).mbAnswer 1 0 0) := by
  subst ho hn
  exact (if_neg (by simp [hm])).trans ((if_neg (by simp [hc])).trans ((if_neg (by simp [hs])).trans (if_neg (by omega))))

theorem pvmParWrite_staged (h0 : 0 < n) (h128 : n ≤ 128) (h4 : off % 4 = 0) (hl : off + 4 * n ≤ 0x49400) (hw : s.mbReq 1 0 / 2 ^ 8 % 256 = n + 2) :
    Gives .pvmParWrite s (fun t =>
      Tab.find t.pvm.resp 1 = some (0, 0) ∧ t.pvm.store = s.pvm.store ∧ t.pvm.par = s.pvm.par ∧ (∀ i, i < 4 * n →
        Tab.get (fun _ => 0) t.pvm.stage (off + i) = s.mbReq 1 (3 + i / 4) / 256 ^ (i % 4) % 256) ∧
      (∀ o, o < off ∨ off + 4 * n ≤ o → Tab.get (fun _ => 0) t.pvm.stage o = Tab.get (fun _ => 0) s.pvm.stage o) ∧ SameMem s t ∧ RegsKept s t []) := by
  refine ⟨_, exec_pvmParWrite_staged hm hc hs ho hn h0 h128 h4 hl hw, Tab.find_put_self .., rfl, rfl, fun i hi => ?_, fun o ho' => ?_,
    .of_eq (by simp [State.mbAnswer]), by simp [State.mbAnswer]⟩
  · refine (get_foldl_parPut (fun i => s.mbReq 1 (3 + i / 4) / 256 ^ (i % 4)) ..).trans ((if_pos (by omega)).trans ?_)
    rw [Nat.add_sub_cancel_left]
  · exact (get_foldl_parPut (fun i => s.mbReq 1 (3 + i / 4) / 256 ^ (i % 4)) ..).trans (if_neg (by omega))

end

/-- The state with the staged parameters stored and the request answered. -/
def State.parStored (s : State) : State := ((s.setPvm { s.pvm with store := s.pvm.stage }).log 0x0D17 0 (parCrc s.pvm.stage)).mbAnswer 1 0 0

theorem State.parStored_fld (s : State) : s.parStored.pavState = s.pavState ∧ s.parStored.fld F.PVM_STATUS_SAFE_CAUSE = s.fld F.PVM_STATUS_SAFE_CAUSE := by
  unfold State.pavState State.parStored State.mbAnswer
  simp

section
variable (hm : s.mbHas 1 4 = true) (hc : s.parClosed = false) (hs : s.sw17 = true)
include hm hc hs

theorem exec_pvmParCommit_crc (h : parCrc s.pvm.stage ≠ s.mbReq 1 1) : exec .pvmParCommit s = .next (s.mbAnswer 1 4 0) :=
  (if_neg (by simp [hm])).trans ((if_neg (by simp [hc])).trans ((if_neg (by simp [hs])).trans (if_pos h)))

variable (h : parCrc s.pvm.stage = s.mbReq 1 1)
include h

theorem exec_pvmParCommit_bad {r o : Nat} (hb : s.parBad s.pvm.stage = some (r, o)) :
    exec .pvmParCommit s = .next ((s.log 0x0D18 0 (r + o * 2 ^ 8)).mbAnswer 1 1 r) := by
  refine (if_neg (by simp [hm])).trans ((if_neg (by simp [hc])).trans ((if_neg (by simp [hs])).trans ((if_neg (by simp [h])).trans ?_)))
  simp only [hb]

theorem exec_pvmParCommit_good (hb : s.parBad s.pvm.stage = none) : exec .pvmParCommit s =
    .next (if s.parStored.pavState = 2 ∧ s.parStored.fld F.PVM_STATUS_SAFE_CAUSE = 6 then s.parStored.pavStart else s.parStored) := by
  refine (if_neg (by simp [hm])).trans ((if_neg (by simp [hc])).trans ((if_neg (by simp [hs])).trans ((if_neg (by simp [h])).trans ?_)))
  simp only [hb]
  exact (apply_ite Host.Outcome.next _ _ _).symm

theorem pvmParCommit_stored (hb : s.parBad s.pvm.stage = none) (hst : s.pavState ≠ 2) : Gives .pvmParCommit s
      (fun t => t.pvm.store = s.pvm.stage ∧ t.pvm.par = s.pvm.par ∧ Tab.find t.pvm.resp 1 = some (0, 0) ∧
        Logs s t 0x0D17 0 (parCrc s.pvm.stage) ∧ SameMem s t ∧ RegsKept s t [Reg.EVL_LOST]) := by
  refine ⟨s.parStored, ?_, ?_, ?_, Tab.find_put_self .., ?_, .of_eq (by simp [State.parStored, State.mbAnswer]), by simp [State.parStored, State.mbAnswer]⟩
  · rw [exec_pvmParCommit_good hm hc hs h hb, if_neg fun h => hst (s.parStored_fld.1 ▸ h.1)]
  · simp [State.parStored, State.mbAnswer]
  · simp [State.parStored, State.mbAnswer]
  · simp [State.parStored, State.mbAnswer]
    exact logs_log _ _ _ rfl

theorem pvmParCommit_starts (hb : s.parBad s.pvm.stage = none) (hst : s.pavState = 2) (hca : s.fld F.PVM_STATUS_SAFE_CAUSE = 6) :
    exec .pvmParCommit s = .next s.parStored.pavStart := by
  rw [exec_pvmParCommit_good hm hc hs h hb, if_pos ⟨s.parStored_fld.1.trans hst, s.parStored_fld.2.trans hca⟩]

end

/-! ## Answers -/

section
variable (hb : s.flag (F.PVM_MB_STATUS_BUSY 1) = true)
include hb

theorem exec_pvmMailboxResponse_ready {r : Nat × Nat} (hr : Tab.find s.pvm.resp 1 = some r) : exec .pvmMailboxResponse s = .next ((s.mbDone 1).pvmIrq 4) := by
  have hu : (if (s.mbReq 1 0 % 256 = 0 ∨ 7 < s.mbReq 1 0 % 256) ∧ (Tab.find s.pvm.resp 1).isNone then s.mbAnswer 1 4 0 else s) = s :=
    if_neg (by simp [hr])
  refine (if_neg (by simp [hb])).trans ?_
  simp only [hu]
  exact if_pos (by simp [hr])

theorem pvmMailboxResponse_ready {r d : Nat} (hr : Tab.find s.pvm.resp 1 = some (r, d)) : Gives .pvmMailboxResponse s (fun t =>
      t.rd (Reg.PVM_MB_RSP 1 0) = BitVec.ofNat 32 r ∧ t.rd (Reg.PVM_MB_RSP 1 1) = BitVec.ofNat 32 d ∧ t.flag (F.PVM_MB_STATUS_BUSY 1) = false ∧
      t.flag (F.PVM_MB_STATUS_DONE 1) = true ∧ t.rbit Reg.PVM_IRQ 4 = true ∧ Tab.find t.pvm.resp 1 = none ∧ SameMem s t ∧
      RegsKept s t [Reg.PVM_MB_RSP 1 0, Reg.PVM_MB_RSP 1 1, Reg.PVM_MB_STATUS 1, Reg.PVM_IRQ]) := by
  refine ⟨_, exec_pvmMailboxResponse_ready hb hr, ?_⟩
  have hd : s.mbDone 1 = ((((s.setPvm { s.pvm with resp := Tab.del s.pvm.resp 1 }).setNum (Reg.PVM_MB_RSP 1 0) r).setNum (Reg.PVM_MB_RSP 1 1) d).setFld
      (F.PVM_MB_STATUS_BUSY 1) 0).setFld (F.PVM_MB_STATUS_DONE 1) 1 := by
    unfold State.mbDone
    simp only [hr]
  rw [hd]
  refine ⟨?_, ?_, ?_, ?_, ?_, ?_, .of_eq (by simp), by simp⟩
  · simp (disch := decide)
    exact State.rd_wr_self ..
  · simp (disch := decide)
    exact State.rd_wr_self ..
  · simp (disch := decide)
  · simp (disch := decide)
  · simp (disch := decide)
  · simp [Tab.find_del_self]

theorem exec_pvmMailboxResponse_none (hr : Tab.find s.pvm.resp 1 = none) (h0 : 0 < s.mbReq 1 0 % 256) (h7 : s.mbReq 1 0 % 256 ≤ 7) :
    exec .pvmMailboxResponse s = .next s := by
  have hu : (if (s.mbReq 1 0 % 256 = 0 ∨ 7 < s.mbReq 1 0 % 256) ∧ (Tab.find s.pvm.resp 1).isNone then s.mbAnswer 1 4 0 else s) = s :=
    if_neg (by omega)
  refine (if_neg (by simp [hb])).trans ?_
  simp only [hu]
  exact if_neg (by simp [hr])

theorem exec_pvmMailboxResponse_unknown (hr : Tab.find s.pvm.resp 1 = none) (h : s.mbReq 1 0 % 256 = 0 ∨ 7 < s.mbReq 1 0 % 256) :
    exec .pvmMailboxResponse s = .next (((s.mbAnswer 1 4 0).mbDone 1).pvmIrq 4) := by
  have hu : (if (s.mbReq 1 0 % 256 = 0 ∨ 7 < s.mbReq 1 0 % 256) ∧ (Tab.find s.pvm.resp 1).isNone then s.mbAnswer 1 4 0 else s) = s.mbAnswer 1 4 0 :=
    if_pos ⟨h, by simp [hr]⟩
  refine (if_neg (by simp [hb])).trans ?_
  simp only [hu]
  exact if_pos (by rw [State.mbAnswer]; exact Option.isSome_of_eq_some (Tab.find_put_self ..))

end

/-! ## Switching -/

theorem mem_insArmed {a x : ArmedSet} {l : List ArmedSet} : x ∈ insArmed a l ↔ x = a ∨ x ∈ l := by
  induction l with
  | nil => simp [insArmed]
  | cons y l ih =>
    unfold insArmed
    split
    · exact List.mem_cons
    · rw [List.mem_cons, ih, List.mem_cons]
      tauto

theorem mem_foldl_insArmed {x : ArmedSet} {l k : List ArmedSet} (h : x ∈ l.foldl (fun l x => insArmed x l) k) : x ∈ l ∨ x ∈ k := by
  induction l generalizing k with
  | nil => exact .inr h
  | cons y l ih =>
    rcases ih h with h | h
    · exact .inl (List.mem_cons_of_mem _ h)
    · rcases mem_insArmed.mp h with h | h
      · exact .inl (h ▸ List.mem_cons_self)
      · exact .inr h

theorem exec_vsetSwitch_idle {id : Fin 16}
    (h : s.pvm.armed.filter (fun a => a.id == id.val) = [] ∨ s.oe = false ∨ (∀ a ∈ s.pvm.armed, s.setCome a = false)) :
    exec (.vsetSwitch id) s = .next s := by
  cases hl : (s.pvm.armed.filter (fun a => a.id == id.val)).foldl (fun l x => insArmed x l) [] with
  | nil => simp only [exec, execVsetSwitch, hl]
  | cons a l =>
    have ha : a ∈ s.pvm.armed.filter (fun a => a.id == id.val) := by
      have hm := mem_foldl_insArmed (hl ▸ List.mem_cons_self : a ∈ List.foldl (fun l x => insArmed x l) [] _)
      exact hm.resolve_right List.not_mem_nil
    have hskip : (!s.oe || !s.setCome a) = true := by
      rcases h with h | h | h
      · simp [h] at ha
      · simp [h]
      · simp [h a (List.mem_of_mem_filter ha)]
    simp only [exec, execVsetSwitch, hl, hskip, if_true]

theorem exec_vsetSwitch_one {id : Fin 16} {a : ArmedSet} (ha : s.pvm.armed.filter (fun a => a.id == id.val) = [a]) (ho : s.oe = true)
    (hc : s.setCome a = true) : exec (.vsetSwitch id) s =
      .next (((s.setPvm { s.pvm with armed := s.pvm.armed.filter (fun x => x != a) }).setFld F.PVM_VARM_ARMED
        (s.pvm.armed.filter (fun x => x != a)).length).switchSet a) := by
  have hrest : s.pvm.armed.filter (fun x => !([a].filter (fun x => x.t == a.t)).contains x) = s.pvm.armed.filter (fun x => x != a) := by
    refine List.filter_congr fun x _ => ?_
    simp [bne, beq_eq_decide]
  simp only [exec, execVsetSwitch, ha, List.foldl_cons, List.foldl_nil, insArmed, ho, hc, Bool.not_true, Bool.or_self, Bool.false_eq_true, if_false, hrest]
  simp

theorem State.switchValve_spec (s : State) {v : Nat} (on : Bool) (hv : v < 1024) : (s.switchValve (v, on)).vcmd v = on ∧
    (64 ≤ v → SameMem s (s.switchValve (v, on)) ∧ RegsKept s (s.switchValve (v, on)) [Reg.PVM_VCMD (v / 32)]) := by
  have hset : (s.setVcmd v on).vcmd v = on := State.rbit_setRbit_same _ _ _ (Nat.mod_lt _ (by decide))
  unfold State.switchValve
  refine ⟨?_, fun h => ?_⟩
  · dsimp only
    split
    · unfold State.valveCommand
      split
      · exact hset
      · refine Eq.trans ?_ hset
        unfold State.vcmd State.rbit State.num
        rw [State.rd_vdrDrive _ _ (by grind) (by grind)]
        simp (disch := grind) [State.setVdrBit]
    · exact hset
  · rw [if_neg (by omega)]
    exact ⟨.of_eq (by simp [State.setVcmd]), by simp [State.setVcmd]⟩

end

/-- Settles O46: the gate by `pvmVset_spec`, the parameters by the commit's cases, the answers and the switching by their own lemmas. -/
theorem pavilionMailboxCommands : Obligations.PavilionMailboxCommands := by
  unfold Obligations.PavilionMailboxCommands
  refine ⟨fun s mb => ⟨fun h => if_pos (by simp [h]), fun h => if_pos (by simp [h])⟩, fun s => ⟨fun h => if_pos (by simp [h]), fun h => if_pos (by simp [h])⟩,
    fun s mb id hm hid hv => ⟨_, exec_pvmVset_bad hm hv, ?_⟩, fun s mb a zero hm hv hid hc hz ht hd hr => ?_, fun s a => ⟨fun h => if_pos h, fun h ho => ?_, fun h ho ht => ?_⟩,
    fun s mb mine any => pvmVwithdraw_spec, fun s => pvmPar_closed, fun s => pvmPar_locked,
    fun s off n hm hc hs ho hn => ⟨exec_pvmParWrite_bad hm hc hs ho hn, pvmParWrite_staged hm hc hs ho hn⟩,
    fun s hm hc hs => ⟨exec_pvmParCommit_crc hm hc hs, fun r o h => exec_pvmParCommit_bad hm hc hs h, pvmParCommit_stored hm hc hs,
      fun h hb hst hca u hu => hu ▸ pvmParCommit_starts hm hc hs h hb hst hca⟩,
    fun s => ⟨fun h => if_pos (by simp [h]), fun r d hb => pvmMailboxResponse_ready hb, exec_pvmMailboxResponse_none, exec_pvmMailboxResponse_unknown⟩,
    fun s id => ⟨exec_vsetSwitch_idle, fun a => exec_vsetSwitch_one⟩, fun s v on => s.switchValve_spec on⟩
  · obtain ⟨h1, h2, h3, h4, h5⟩ := s.vsetRefuse_spec mb 5 0
    exact ⟨h2, h1, hid ▸ h3, h4, h5⟩
  · obtain ⟨ha, hz⟩ := State.vsetSet_unique hid hc hz ht hd hr
    exact pvmVset_spec hm hv hid ha hz
  · exact (if_neg (by omega)).trans (if_pos (by simp [ho]))
  · exact (if_neg (by omega)).trans ((if_neg (by simp [ho])).trans (if_pos (by simp [ht])))

/-! ## The accepted requests as equations -/

theorem State.mbHas_iff (s : State) (mb code : Nat) : s.mbHas mb code = true ↔
    s.flag (F.PVM_MB_STATUS_BUSY mb) = true ∧ s.mbReq mb 0 % 256 = code ∧ Tab.find s.pvm.resp mb = none := by
  simp [State.mbHas, and_assoc]

theorem State.vsetZero_false {s : State} {mb : Nat} (h : s.mbReq mb 1 ≠ 0 ∨ s.mbReq mb 2 ≠ 0 ∨ s.mbReq mb 3 ≠ 0) : s.vsetZero mb = false := by
  unfold State.vsetZero
  rcases h with h | h | h <;> simp [h]

/-- Settles O47: each form is the equation of its command that `pavilionMailboxCommands` rests on. -/
theorem mailboxFormsComplete : Obligations.MailboxFormsComplete := by
  unfold Obligations.MailboxFormsComplete
  refine ⟨State.mbHas_iff, fun s mb x a hm hv h hx ha hg => ?_, fun s u mb id hm hid hu => ?_, fun s off n hm hc hs ho hn => exec_pvmParWrite_staged hm hc hs ho hn,
    fun s u hm hc hs h hb hu => hu ▸ exec_pvmParCommit_good hm hc hs h hb, fun s r hb => exec_pvmMailboxResponse_ready hb, fun s u a ha hid ho hc hu id hi => ?_⟩
  · have hz := State.vsetZero_false h
    have hset : a = s.vsetSet mb a.vs := by
      rw [State.vsetSet, State.vsetTime, if_neg (by simp [hz]), ← hx]
      exact ha
    rw [exec_pvmVset_armed hm hv ((State.vsetReason_gate (.inl hz)).trans (hset ▸ hg)), ← hset]
    rfl
  · subst hid hu
    exact if_neg (by simp [hm])
  · subst hu
    have hne : s.pvm.armed.filter (fun x => x != a) = [] := by simp [ha]
    rw [exec_vsetSwitch_one (a := a) (by simp [ha, hi]) ho hc, hne]
    rfl

end Sys2Proof.Machine


/-! PROOFS. Serit-S: containers, PDUs, openings, the watchdog and output items (R425 to R433). -/

namespace Sys2Proof.Machine

section
variable (s : State)

@[simp] theorem State.connOf_setConn (k : Nat) (x : SConn) : (s.setConn k x).connOf k = x := Tab.get_put_self ..
theorem State.connOf_congr {s t : State} (h : t.pvm = s.pvm) (k : Nat) : t.connOf k = s.connOf k := by unfold State.connOf; rw [h]

@[simp] theorem State.regsBut_logPerSecond (key c x d : Nat) : RegsBut Reg.EVL_LOST (s.logPerSecond key c x d) s := by
  refine .of_rd fun b hb => ?_
  unfold State.logPerSecond
  split
  · exact State.rd_log _ _ _ _ hb
  · rfl
@[simp] theorem State.mem_logPerSecond (key c x d : Nat) : (s.logPerSecond key c x d).mem = s.mem := by
  unfold State.logPerSecond
  split <;> simp
/-! ## What a mismatched token leaves of the pavilion and of time -/

@[simp] theorem State.steady_logPerSecond (key c x d : Nat) : (s.logPerSecond key c x d).pvm = s.pvm ∧ (s.logPerSecond key c x d).time = s.time := by
  unfold State.logPerSecond
  split <;> simp
@[simp] theorem State.steady_setHealth (r : Res) (h : Health) : (s.setHealth r h).pvm = s.pvm ∧ (s.setHealth r h).time = s.time := by
  unfold State.setHealth
  split <;> simp
@[simp] theorem State.steady_transient (r : Res) (c : Nat) : (s.transient r c).pvm = s.pvm ∧ (s.transient r c).time = s.time := by
  unfold State.transient State.transientIn State.logRes
  dsimp only
  split
  · simp
  · split
    · split <;> simp
    · split <;> simp
    · simp
    · simp
@[simp] theorem State.steady_convSend (k : Nat) (x : Token) : (s.convSend k x).pvm = s.pvm ∧ (s.convSend k x).time = s.time := by
  unfold State.convSend
  dsimp only
  split <;> split <;> simp
@[simp] theorem State.steady_pairSet (p v : Nat) : (s.pairSet p v).pvm = s.pvm ∧ (s.pairSet p v).time = s.time := by
  unfold State.pairSet State.sendAchk
  dsimp only
  split <;> simp
@[simp] theorem State.steady_pairRefresh (p : Nat) : (s.pairRefresh p).pvm = s.pvm ∧ (s.pairRefresh p).time = s.time := by
  unfold State.pairRefresh
  simp only [apply_ite State.pvm, apply_ite State.time, State.steady_pairSet, State.setFld_pvm, State.setFld_time, ite_self, and_self]
@[simp] theorem State.steady_calIdle : s.calIdle.pvm = s.pvm ∧ s.calIdle.time = s.time := by
  unfold State.calIdle
  dsimp only
  split <;> simp
@[simp] theorem State.steady_convRetired (k : Nat) : (s.convRetired k).pvm = s.pvm ∧ (s.convRetired k).time = s.time := by
  unfold State.convRetired State.calRefuse
  dsimp only
  split <;> split <;> simp
@[simp] theorem State.steady_convTransient (k c : Nat) : (s.convTransient k c).pvm = s.pvm ∧ (s.convTransient k c).time = s.time := by
  unfold State.convTransient
  dsimp only
  split <;> simp
@[simp] theorem State.steady_noteBad (link : Nat) (x : Token) : (s.noteBad link x).2.pvm = s.pvm ∧ (s.noteBad link x).2.time = s.time := by
  unfold State.noteBad
  split <;> simp
@[simp] theorem State.steady_mismatch (link : Nat) (x : Token) : (s.mismatch link x).pvm = s.pvm ∧ (s.mismatch link x).time = s.time := by
  obtain ⟨hpvm, htime⟩ := s.steady_noteBad link x
  unfold State.mismatch
  generalize s.noteBad link x = r at *
  obtain ⟨first, u⟩ := r
  dsimp only at hpvm htime ⊢
  rw [← hpvm, ← htime]
  cases first <;>
    simp only [Bool.false_eq_true, if_false, if_true, apply_ite State.pvm, apply_ite State.time, State.setFld_pvm, State.setFld_time,
      State.steady_transient, State.steady_convTransient, State.steady_logPerSecond, State.countFld_pvm, State.countFld_time, ite_self, and_self]

@[simp] theorem State.steady_check (link : Nat) (v : Word) (x : Token) : (s.check link v x).2.pvm = s.pvm ∧ (s.check link v x).2.time = s.time := by
  unfold State.check
  simp only [apply_ite Prod.snd, apply_ite State.pvm, apply_ite State.time, State.steady_mismatch, State.log_pvm, time_log, ite_self, and_self]

/-! ## Containers and the data of a PDU -/

variable {s}

section
variable {pair k crc : Nat} {p : Pdu}
  (hk : (List.range 1024).find? (fun k => s.par (offConn k) 31 1 == 1 && s.peerId k == p.src && s.connPair k == pair) = some k)
include hk

/-- What a PDU that finds its connection does there. -/
theorem State.pduIn_found : s.pduIn pair (p, crc) =
    if s.health (.conn k) = .retired then s
    else if p.dst ≠ s.ownId then s.pduReject k 2
    else if crc ≠ p.crc (if bit p.flags 0 then ofLe ((p.data.drop 2).take 4) else (s.connOf k).session) ∨ p.flags / 16 ≠ 0 ∨
      (bit p.flags 0 ∧ p.data.length < 14) then s.pduReject k 1
    else if bit p.flags 0 then s.pduOpen k p (if bit p.flags 0 then ofLe ((p.data.drop 2).take 4) else (s.connOf k).session)
    else if s.connState k = 2 then s.pduData k p else s := by
  unfold State.pduIn
  simp only [hk]

theorem State.pduIn_cases : (s.health (.conn k) = .retired → s.pduIn pair (p, crc) = s) ∧
    (s.health (.conn k) ≠ .retired → p.dst ≠ s.ownId → s.pduIn pair (p, crc) = s.pduReject k 2) ∧
    (s.health (.conn k) ≠ .retired → p.dst = s.ownId → bit p.flags 0 = false → crc ≠ p.crc (s.connOf k).session →
      s.pduIn pair (p, crc) = s.pduReject k 1) ∧
    (s.health (.conn k) ≠ .retired → p.dst = s.ownId → bit p.flags 0 = false → p.flags < 16 → crc = p.crc (s.connOf k).session → s.connState k = 2 →
      s.pduIn pair (p, crc) = s.pduData k p) ∧
    (s.health (.conn k) ≠ .retired → p.dst = s.ownId → bit p.flags 0 = true → p.flags < 16 → 14 ≤ p.data.length →
      crc = p.crc (ofLe ((p.data.drop 2).take 4)) → s.pduIn pair (p, crc) = s.pduOpen k p (ofLe ((p.data.drop 2).take 4))) := by
  rw [State.pduIn_found hk]
  refine ⟨fun h => if_pos h, fun h hd => (if_neg h).trans (if_pos hd), fun h hd ho hc => ?_, fun h hd ho hf hc hst => ?_, fun h hd ho hf hl hc => ?_⟩
  · exact (if_neg h).trans ((if_neg (by simp [hd])).trans (if_pos (by simp [ho, hc])))
  · have hflags : p.flags / 16 = 0 := by omega
    exact (if_neg h).trans ((if_neg (by simp [hd])).trans ((if_neg (by simp [ho, hc, hflags])).trans ((if_neg (by simp [ho])).trans (if_pos hst))))
  · have hflags : p.flags / 16 = 0 := by omega
    rw [if_pos ho]
    exact (if_neg h).trans ((if_neg (by simp [hd])).trans ((if_neg (by simp [hc, hflags, hl])).trans (if_pos ho)))

end

theorem exec_seritContainerRx (h : s.pavState = 1) (hf : s.rpc.folly = 0) (p : Fin 3) (b : List Byte) {l : List (Pdu × Nat)}
    (hl : parseContainer (b.map BitVec.toNat) = some l) : exec (.seritContainerRx p b) s = .next (l.foldl (fun u x => u.pduIn p x) s) := by
  refine (if_neg (by simp [h, hf])).trans ?_
  simp only [hl]

theorem exec_seritContainerRx_dropped (p : Fin 3) (b : List Byte)
    (h : s.pavState ≠ 1 ∨ s.rpc.folly ≠ 0 ∨ parseContainer (b.map BitVec.toNat) = none) : exec (.seritContainerRx p b) s = .next s := by
  by_cases hr : s.pavState ≠ 1 ∨ s.rpc.folly ≠ 0
  · exact if_pos hr
  · have hn : parseContainer (b.map BitVec.toNat) = none := by tauto
    refine (if_neg hr).trans ?_
    simp only [hn]

/-- A PDU for another module is counted, and an event tells of it at most once a second. -/
theorem State.pduReject_foreign (s : State) (k : Nat) : (s.pduReject k 2).connOf k = { s.connOf k with reject := satAdd 0xFFFFFFFF (s.connOf k).reject 1 } ∧
    SameMem s (s.pduReject k 2) ∧ RegsKept s (s.pduReject k 2) [Reg.EVL_LOST] := by
  have heq : s.pduReject k 2 = (s.setConn k { s.connOf k with reject := satAdd 0xFFFFFFFF (s.connOf k).reject 1 }).logPerSecond (0x40000 + k) 0x0D3A
    (0xA000 + k) 2 := by
    unfold State.pduReject
    exact if_pos rfl
  rw [heq]
  exact ⟨(State.connOf_congr (State.steady_logPerSecond ..).1 k).trans (State.connOf_setConn ..), .of_eq (by simp [State.setConn]), by simp [State.setConn]⟩

theorem State.pduData_taken {k : Nat} {p : Pdu} (hi : s.items k 0 = []) (h0 : 0 < toSigned 16 (p.seq + 2 ^ 16 - (s.connOf k).rx))
    (hw : toSigned 16 (p.seq + 2 ^ 16 - (s.connOf k).rx) ≤ s.par (offConn k + 12) 16 4) : ((s.pduData k p).connOf k).rx = p.seq ∧
      ((s.pduData k p).connOf k).lost = satAdd 0xFFFFFFFF (s.connOf k).lost ((toSigned 16 (p.seq + 2 ^ 16 - (s.connOf k).rx)).toNat - 1) ∧
      SameMem s (s.pduData k p) ∧ RegsKept s (s.pduData k p) [] := by
  have hi' (x : SConn) : (s.setConn k x).items k 0 = [] := hi
  unfold State.pduData
  dsimp only
  rw [if_neg (by omega), if_neg (by omega), hi', List.foldl_nil, State.connOf_setConn]
  exact ⟨rfl, rfl, fun _ => rfl, regsKept_self s _⟩

theorem State.pduData_old {k : Nat} {p : Pdu} (h : toSigned 16 (p.seq + 2 ^ 16 - (s.connOf k).rx) ≤ 0) : s.pduData k p = s := if_pos h

theorem State.pduData_far {k : Nat} {p : Pdu} (h : (s.par (offConn k + 12) 16 4 : Int) < toSigned 16 (p.seq + 2 ^ 16 - (s.connOf k).rx)) :
    s.pduData k p = s.pduReject k 3 := (if_neg (by omega)).trans (if_pos h)

/-! ## Connections -/

/-- A connection's state is a two-bit field of PVM_CONN; a change is shown by PVM_IRQ. -/
theorem State.setConnState_spec (s : State) (k : Nat) {v : Nat} (hv : v < 4) : (s.setConnState k v).connState k = v ∧
    (s.setConnState k v).pvm = s.pvm ∧ (s.setConnState k v).evl = s.evl ∧ (s.setConnState k v).mem = s.mem ∧
    RegsKept s (s.setConnState k v) [Reg.PVM_CONN (k / 16), Reg.PVM_IRQ] := by
  unfold State.setConnState
  split
  · exact ⟨‹_›, rfl, rfl, rfl, regsKept_self s _⟩
  · refine ⟨?_, by simp, by simp, by simp, by simp⟩
    change State.fld _ ⟨Reg.PVM_CONN (k / 16), 2 * (k % 16), 2⟩ = v
    simp (disch := grind)
    omega

theorem State.connUp_spec (s : State) (k session : Nat) : (s.connUp k session).connState k = 2 ∧
    (s.connUp k session).connOf k = { s.connOf k with session := session, tx := 0, rx := 0, rtt := 0, wasRun := true, wd := s.time.cycle, due := 0 } ∧
    Logs s (s.connUp k session) 0x0D38 (0xA000 + k) session ∧ SameMem s (s.connUp k session) ∧
    RegsKept s (s.connUp k session) [Reg.PVM_CONN (k / 16), Reg.PVM_IRQ, Reg.EVL_LOST] := by
  unfold State.connUp
  generalize hu : s.setConn k { s.connOf k with session := session, tx := 0, rx := 0, rtt := 0, wasRun := true, wd := s.time.cycle, due := 0 } = u
  obtain ⟨hst, hpvm, hevl, hmem, hregs⟩ := u.setConnState_spec k (v := 2) (by decide)
  refine ⟨?_, ?_, ?_, ?_, fun a ha => ?_⟩
  · refine Eq.trans ?_ hst
    unfold State.connState
    rw [State.rd_log _ _ _ _ (by grind)]
  · rw [State.connOf_congr (State.log_pvm ..), State.connOf_congr hpvm, ← hu, State.connOf_setConn]
  · exact logs_log _ _ _ (hevl.trans (hu ▸ rfl))
  · exact .of_eq ((State.log_mem ..).trans (hmem.trans (hu ▸ rfl)))
  · simp only [List.mem_cons, List.not_mem_nil, or_false, not_or] at ha
    rw [State.rd_log _ _ _ _ ha.2.2, hregs a (by simp [ha]), ← hu]
    rfl

/-! ## Sending (R427, R430) -/

theorem State.itemOutRaw_fresh (s : State) (j : Nat) (v : Word) : ∃ n, (s.itemOutRaw j v).2 = s.takeFresh n := by
  unfold State.itemOutRaw State.freshNat
  dsimp only
  split
  · exact ⟨0, rfl⟩
  · split
    · exact ⟨1, rfl⟩
    · split <;> exact ⟨0, rfl⟩

theorem State.outRaw_fresh (s : State) (j : Nat) : ∃ n, (s.outRaw j).2 = s.takeFresh n := by
  unfold State.outRaw
  split
  · exact ⟨0, rfl⟩
  · exact s.itemOutRaw_fresh j _

/-- Building the items of a PDU takes numbers the spec leaves open, and nothing else. -/
theorem State.outBytes_fresh (s : State) (k : Nat) : ∃ n, (s.outBytes k).2 = s.takeFresh n := by
  unfold State.outBytes
  dsimp only
  refine List.foldlRecOn (motive := fun r : Nat × State => ∃ n, r.2 = s.takeFresh n) _ _ ⟨0, rfl⟩ fun r hr j _ => ?_
  obtain ⟨n, hn⟩ := hr
  obtain ⟨m, hm⟩ := r.2.outRaw_fresh j
  refine ⟨n + m, hm.trans ?_⟩
  rw [hn]
  unfold State.takeFresh
  simp only [Nat.add_assoc]

/-- What sending a PDU with DATA `l` in the state `u` does to a connection and to the wire. -/
def State.pduSent (u : State) (k seq : Nat) (c : SConn) (l : List Nat) : State :=
  (u.setConn k (c.note seq u.time.cycle (u.transit k))).sendPdus (u.connPair k) [l]

/-- The connection has sent the new epoch, and PLK_GAP takes the time once all have. -/
def State.epochSent (u : State) (k : Nat) (cmd : Bool) : State :=
  if cmd && u.plk.owed.contains k then
    let v := u.setPlk { u.plk with owed := u.plk.owed.erase k }
    if v.plk.owed.isEmpty then v.setNum Reg.PLK_GAP (min ((v.time.cycle - v.plk.lastHb) / 600) 0xFFFFFFFF) else v
  else u

theorem State.epochSent_keeps (u : State) (k : Nat) (cmd : Bool) : (u.epochSent k cmd).pvm = u.pvm ∧ (u.epochSent k cmd).wire = u.wire ∧
    (u.epochSent k cmd).mem = u.mem ∧ RegsKept u (u.epochSent k cmd) [Reg.PLK_GAP] := by
  unfold State.epochSent
  dsimp only
  split
  · split <;> simp
  · simp

theorem State.seritSend_eq (s : State) (k : Nat) (x : Option Stamp) : ∃ n l cmd,
    s.seritSend k x = ((s.takeFresh n).pduSent k (((s.connOf k).tx + 1) % 2 ^ 16) (s.connOf k) l).epochSent k cmd := by
  obtain ⟨n, hn⟩ := s.outBytes_fresh k
  unfold State.seritSend
  generalize s.outBytes k = r at *
  obtain ⟨items, u⟩ := r
  dsimp only at hn
  subst hn
  exact ⟨n, _, _, rfl⟩

theorem State.seritSend_spec (s : State) (k : Nat) (x : Option Stamp) : ((s.seritSend k x).connOf k).tx = ((s.connOf k).tx + 1) % 2 ^ 16 ∧
    ((s.seritSend k x).connOf k).rx = (s.connOf k).rx ∧ ((s.seritSend k x).connOf k).session = (s.connOf k).session ∧
    (s.seritSend k x).wire.length = s.wire.length + 1 ∧ SameMem s (s.seritSend k x) ∧ RegsKept s (s.seritSend k x) [Reg.PLK_GAP] := by
  obtain ⟨n, l, cmd, heq⟩ := s.seritSend_eq k x
  obtain ⟨hpvm, hwire, hmem, hregs⟩ := State.epochSent_keeps ((s.takeFresh n).pduSent k (((s.connOf k).tx + 1) % 2 ^ 16) (s.connOf k) l) k cmd
  rw [heq, State.connOf_congr hpvm, hwire]
  have hconn (u : State) (seq : Nat) (c : SConn) : (u.pduSent k seq c l).connOf k = c.note seq u.time.cycle (u.transit k) :=
    (State.connOf_congr (State.emit_pvm ..) k).trans (State.connOf_setConn ..)
  rw [hconn]
  refine ⟨rfl, rfl, rfl, by simp [State.pduSent, State.sendPdus, State.emit, State.setConn], .of_eq (hmem.trans ?_), fun a ha => (hregs a ha).trans ?_⟩
  · simp [State.pduSent, State.sendPdus, State.setConn]
  · simp [State.pduSent, State.sendPdus, State.setConn]

theorem seritPduSend_spec (s : State) (k : Fin 1024) :
    (s.pavState ≠ 1 ∨ s.rpc.folly ≠ 0 ∨ s.connState k ≠ 2 ∨ (s.connOf k).due < s.par (offConn k + 4) 0 16 → exec (.seritPduSend k) s = .next s) ∧
    (s.pavState = 1 → s.rpc.folly = 0 → s.connState k = 2 → s.par (offConn k + 4) 0 16 ≤ (s.connOf k).due → Gives (.seritPduSend k) s (fun t =>
      (t.connOf k).tx = ((s.connOf k).tx + 1) % 2 ^ 16 ∧ (t.connOf k).rx = (s.connOf k).rx ∧ (t.connOf k).session = (s.connOf k).session ∧
      t.wire.length = s.wire.length + 1 ∧ SameMem s t ∧ RegsKept s t [Reg.PLK_GAP])) :=
  ⟨fun h => if_neg (by omega), fun h1 h2 h3 h4 => ⟨_, if_pos ⟨h1, h2, h3, h4⟩, s.seritSend_spec k none⟩⟩

theorem seritOpenSend_spec (s : State) (k : Fin 1024) (n : Nat) (hn : n = (s.pvm.session + 1) % 2 ^ 32) :
    (s.pavState ≠ 1 ∨ s.rpc.folly ≠ 0 ∨ (s.connState k ≠ 1 ∧ ¬(s.connState k = 3 ∧ s.health (.conn k) = .testing)) → exec (.seritOpenSend k) s = .next s) ∧
    (s.pavState = 1 → s.rpc.folly = 0 → s.connState k = 1 ∨ (s.connState k = 3 ∧ s.health (.conn k) = .testing) → Gives (.seritOpenSend k) s (fun t =>
      t.pvm.session = n ∧ (t.connOf k).session = n ∧ (t.connOf k).tx = 0 ∧ (t.connOf k).due = 0 ∧ (t.connOf k).rx = 0 ∧ t.wire.length = s.wire.length + 1 ∧ SameMem s t ∧
      RegsKept s t [])) := by
  subst hn
  refine ⟨fun h => if_neg (by tauto), fun h1 h2 h3 => ⟨_, if_pos ⟨h1, h2, h3⟩, ?_⟩⟩
  have hconn (u : State) (c : SConn) (pair : Nat) (l : List (List Nat)) : ((u.setConn k c).sendPdus pair l).connOf k = c :=
    (State.connOf_congr (State.emit_pvm ..) k).trans (State.connOf_setConn ..)
  dsimp only
  rw [hconn]
  exact ⟨by simp [State.sendPdus, State.setConn], rfl, rfl, rfl, rfl, by simp [State.sendPdus, State.emit, State.setConn],
    .of_eq (by simp [State.sendPdus, State.setConn]), by simp [State.sendPdus, State.setConn]⟩

theorem seritWdExpire_spec (s : State) (k : Fin 1024) :
    (s.connState k ≠ 2 ∨ s.time.cycle < (s.connOf k).wd + s.par (offConn k + 8) 0 16 * cycPerMs → exec (.seritWdExpire k) s = .next s) ∧
    (s.connState k = 2 → (s.connOf k).wd + s.par (offConn k + 8) 0 16 * cycPerMs ≤ s.time.cycle → exec (.seritWdExpire k) s =
      .next ((((s.setConnState k 1).log 0x0D39 (0xA000 + k) 1).transient (.conn k) 2).connRefresh k)) := by
  refine ⟨fun h => if_neg ?_, fun h ht => if_pos ⟨h, State.lasted_of_le ht⟩⟩
  rintro ⟨h1, h2⟩
  rcases h with h | h
  · exact h h1
  · rw [State.lasted_of_lt h] at h2
    cases h2

/-! ## Output items (R432) -/

/-- Item `j` is an enabled process output of signature `sig`. -/
def State.outputItem (s : State) (sig j : Nat) : Bool :=
  decide (s.par (offItem j) 31 1 = 1) && s.par (offItem j) 10 1 == 1 && s.itemSig j == sig && s.par (offItem j) 11 1 == 1

/-- What a token does to an item. -/
def State.outToken (s : State) (link : Nat) (x : Token) (j : Nat) : State :=
  if s.outputItem x.sig.toNat j then
    let r := s.check link (s.itemSubst j) x
    let u := r.2.logIf (!x.ok) 0x0D3C (0xA000 + r.2.par (offItem j) 0 10) x.sig.toNat
    u.setPvm { u.pvm with outs := Tab.put u.pvm.outs j r.1.value }
  else s

theorem exec_seritOutputToken (link : Nat) (x : Token) : exec (.seritOutputToken link x) s = .next ((List.range 8192).foldl (fun u j => u.outToken link x j) s) := rfl

theorem State.outToken_skip {sig j : Nat} {link : Nat} {x : Token} (hs : sig = x.sig.toNat) (h : s.outputItem sig j = false) : s.outToken link x j = s := by
  subst hs
  exact if_neg (by simp [h])

theorem State.outToken_par (s : State) (link : Nat) (x : Token) (j : Nat) : (s.outToken link x j).pvm.par = s.pvm.par := by
  unfold State.outToken State.logIf
  dsimp only
  split
  · split
    · simp
    · simp
  · rfl

theorem State.outputItem_congr {s t : State} (h : t.pvm.par = s.pvm.par) (sig j : Nat) : t.outputItem sig j = s.outputItem sig j := by
  unfold State.outputItem State.itemSig State.par
  rw [h]

theorem State.outToken_taken {link j : Nat} {x : Token} {c : Checked} {u : State} (h : s.outputItem x.sig.toNat j = true)
    (hc : s.check link (s.itemSubst j) x = (c, u)) : Tab.find (s.outToken link x j).pvm.outs j = some c.value := by
  unfold State.outToken
  rw [if_pos h, hc]
  exact Tab.find_put_self ..

theorem State.outputItem_false {sig j : Nat} (h : s.par (offItem j) 31 1 = 1 → s.par (offItem j) 10 1 = 1 → s.itemSig j = sig → s.par (offItem j) 11 1 = 0) :
    s.outputItem sig j = false := by
  rw [Bool.eq_false_iff]
  intro ho
  simp only [State.outputItem, Bool.and_eq_true, decide_eq_true_eq, beq_iff_eq] at ho
  obtain ⟨⟨⟨h1, h2⟩, h3⟩, h4⟩ := ho
  have := h h1 h2 h3
  omega

/-- With one item for a token's signature that item takes its value, and no other item changes anything. -/
theorem State.outTokens_one {link j : Nat} {x : Token} (n : Nat) (ho : ∀ i, i < n → i ≠ j → s.outputItem x.sig.toNat i = false) :
    (List.range n).foldl (fun u j => u.outToken link x j) s = if j < n then s.outToken link x j else s := by
  induction n with
  | zero => simp
  | succ k ih =>
    rw [List.range_succ, List.foldl_append, ih fun i hi => ho i (by omega), List.foldl_cons, List.foldl_nil]
    by_cases hk : j = k
    · subst hk
      rw [if_neg (by omega), if_pos (by omega)]
    · have hskip := ho k (by omega) (Ne.symm hk)
      by_cases hlt : j < k
      · rw [if_pos hlt, if_pos (by omega)]
        exact State.outToken_skip rfl ((State.outputItem_congr (s.outToken_par link x j) _ _).trans hskip)
      · rw [if_neg hlt, if_neg (by omega)]
        exact State.outToken_skip rfl hskip

end

/-- Settles O48: a lemma for each command and for what a PDU, a connection and an item do. -/
theorem seritCommands : Obligations.SeritCommands := by
  unfold Obligations.SeritCommands
  refine ⟨fun s => exec_seritContainerRx_dropped, fun s p b l h hf => exec_seritContainerRx h hf p b, fun s pair k p crc => State.pduIn_cases,
    State.pduReject_foreign, fun s k p => State.pduData_taken, fun s k p => State.pduData_old, fun s k p => State.pduData_far, fun s k n _ => s.connUp_spec k n,
    seritPduSend_spec, seritOpenSend_spec, seritWdExpire_spec, fun s link x h => ?_, fun s link x j hj h31 h10 hsig h11 ho c u hc => ⟨_, exec_seritOutputToken link x, ?_⟩⟩
  · rw [exec_seritOutputToken, foldl_eq_self fun j hj => ?_]
    exact State.outToken_skip rfl (State.outputItem_false (h j (List.mem_range.mp hj)))
  · have hitem : s.outputItem x.sig.toNat j = true := by simp [State.outputItem, h31, h10, hsig, h11]
    rw [State.outTokens_one 8192 fun i hi hij => State.outputItem_false (ho i hi hij), if_pos hj]
    exact State.outToken_taken hitem hc

end Sys2Proof.Machine


/-! PROOFS. The redundant pair: heartbeats, the token, roles and the mirror (R440 to R448, R450, R457). -/

namespace Sys2Proof.Machine

section
variable (s : State)

/-! ## The role and the token -/

theorem State.setRole_spec {v : Nat} (hv : v < 8) {t : State} (ht : t = s.setRole v) : t.role = v ∧ t.flag F.PLK_STATUS_TOKEN = (v == 2 || v == 0) ∧
    t.rbit Reg.PLK_IRQ 0 = true ∧ t.plk = { s.plk with rx := none } ∧ Logs s t 0x0E10 0 (v + s.role * 16) ∧ SameMem s t ∧
    RegsKept s t [Reg.PLK_STATUS, Reg.PLK_IRQ, Reg.EVL_LOST] := by
  subst ht
  unfold State.setRole State.plkIrq
  refine ⟨?_, ?_, ?_, ?_, logs_log _ _ _ (by simp), .of_eq (by simp), by simp⟩
  · unfold State.role
    simp (disch := decide)
    omega
  · simp (disch := decide)
    cases (v == 2 || v == 0) <;> rfl
  · simp (disch := decide)
  · simp

theorem State.inSync_setRole (v : Nat) : (s.setRole v).flag F.PLK_STATUS_IN_SYNC = s.flag F.PLK_STATUS_IN_SYNC := by
  unfold State.setRole State.plkIrq
  simp (disch := decide)

theorem State.setInSync_spec (b : Bool) : (s.setInSync b).flag F.PLK_STATUS_IN_SYNC = b ∧ (s.setInSync b).plk = s.plk ∧
    (s.setInSync b).evl = s.evl ∧ (s.setInSync b).mem = s.mem ∧ RegsKept s (s.setInSync b) [Reg.PLK_STATUS, Reg.PLK_IRQ] := by
  unfold State.setInSync State.plkIrq
  split
  · exact ⟨‹_›, rfl, rfl, rfl, regsKept_self s _⟩
  · refine ⟨?_, by simp, by simp, by simp, by simp⟩
    cases b <;> simp (disch := decide) [b2n]

/-- The next epoch is the least one of this module's parity above every epoch seen. -/
theorem State.nextEpoch_spec : s.plk.eseen < s.nextEpoch ∧ s.nextEpoch % 2 = (if s.ownId < s.partnerId then 1 else 0) := by
  unfold State.nextEpoch
  dsimp only
  split <;> split <;> omega

theorem State.num64_of_kept {s t : State} {l : List Nat} {lo hi : Nat} (h : RegsKept s t l) (hlo : lo ∉ l) (hhi : hi ∉ l) :
    t.num64 lo hi = s.num64 lo hi := by
  unfold State.num64 State.num
  rw [h lo hlo, h hi hhi]

theorem State.num_of_kept {s t : State} {l : List Nat} {a : Nat} (h : RegsKept s t l) (ha : a ∉ l) : t.num a = s.num a := by
  unfold State.num
  rw [h a ha]

/-- The state with the next epoch taken, before the role. -/
def State.tookEpoch (s : State) : State :=
  (((s.setPlk { s.plk with eseen := s.nextEpoch, epoch := s.nextEpoch, handing := false }).setNum64 Reg.PLK_EPOCH_LO Reg.PLK_EPOCH_HI s.nextEpoch).count
    Reg.PLK_TAKES 1).setInSync false

theorem State.takeToken_eq : s.takeToken = (s.tookEpoch.setRole 2).log 0x0E11 0 (s.nextEpoch % 2 ^ 32) := rfl

theorem State.tookEpoch_spec : s.tookEpoch.plk = { s.plk with eseen := s.nextEpoch, epoch := s.nextEpoch, handing := false } ∧
    s.tookEpoch.num64 Reg.PLK_EPOCH_LO Reg.PLK_EPOCH_HI = s.nextEpoch % 2 ^ 64 ∧ s.tookEpoch.num Reg.PLK_TAKES = satAdd 0xFFFFFFFF (s.num Reg.PLK_TAKES) 1 ∧
    s.tookEpoch.flag F.PLK_STATUS_IN_SYNC = false ∧ s.tookEpoch.mem = s.mem := by
  unfold State.tookEpoch
  generalize hu : ((s.setPlk { s.plk with eseen := s.nextEpoch, epoch := s.nextEpoch, handing := false }).setNum64 Reg.PLK_EPOCH_LO Reg.PLK_EPOCH_HI
    s.nextEpoch).count Reg.PLK_TAKES 1 = u
  obtain ⟨hs, hp, -, hm, hr⟩ := u.setInSync_spec false
  refine ⟨hp.trans ?_, (State.num64_of_kept hr (by decide) (by decide)).trans ?_, (State.num_of_kept hr (by decide)).trans ?_, hs, hm.trans ?_⟩
  · simp [← hu, State.setNum64]
  · rw [← hu]
    simp (disch := decide)
  · rw [← hu]
    simp (disch := decide) [State.setNum64]
  · simp [← hu, State.setNum64]

theorem State.takeToken_spec {t : State} (ht : t = s.takeToken) : t.role = 2 ∧ t.plk.epoch = s.nextEpoch ∧ t.plk.eseen = s.nextEpoch ∧
    t.num64 Reg.PLK_EPOCH_LO Reg.PLK_EPOCH_HI = s.nextEpoch % 2 ^ 64 ∧ t.num Reg.PLK_TAKES = satAdd 0xFFFFFFFF (s.num Reg.PLK_TAKES) 1 ∧
    t.flag F.PLK_STATUS_IN_SYNC = false ∧ s.plk.eseen < s.nextEpoch ∧ s.nextEpoch % 2 = (if s.ownId < s.partnerId then 1 else 0) ∧ SameMem s t := by
  subst ht
  obtain ⟨hp, he, hk, hi, hm⟩ := s.tookEpoch_spec
  obtain ⟨hseen, hpar⟩ := s.nextEpoch_spec
  obtain ⟨hrole, -, -, hplk, -, hmem, hregs⟩ := s.tookEpoch.setRole_spec (v := 2) (by decide) rfl
  rw [State.takeToken_eq]
  refine ⟨?_, ?_, ?_, ?_, ?_, ?_, hseen, hpar, fun a => ?_⟩
  · refine Eq.trans ?_ hrole
    unfold State.role
    simp
  · rw [State.log_plk, hplk, hp]
  · rw [State.log_plk, hplk, hp]
  · simp
    exact (State.num64_of_kept hregs (by decide) (by decide)).trans he
  · simp
    exact (State.num_of_kept hregs (by decide)).trans hk
  · simp
    exact (State.inSync_setRole ..).trans hi
  · rw [rdByte_of_mem (State.log_mem ..), hmem, rdByte_of_mem hm]

/-! ## Listening -/

variable {s}

theorem exec_pairListenTimeout_early (h : s.role ≠ 1 ∨ s.time.cycle < s.plk.listen + (3 * s.lease + 2 * cycPerMs) ∨ s.flag F.PLK_STATUS_IMG_MISMATCH = true) :
    exec .pairListenTimeout s = .next s := by
  refine if_pos ?_
  rcases h with h | h | h
  · simp [h]
  · simp [State.lasted_of_lt h]
  · simp [h]

/-- What a module that has listened long enough does. -/
def State.afterListen (s : State) : State :=
  if s.fld F.PLK_STATUS_PATHS != 0 then
    if s.fld F.PLK_STATUS_PARTNER_ROLE = 1 ∧ (if s.sw20 != bit s.plk.pflags 1 then s.sw20 else decide (s.ownId < s.partnerId)) then s.takeOwn else s
  else if s.sw20 then s.takeOwn else s

theorem exec_pairListenTimeout_due (h : s.role = 1) (ht : s.plk.listen + (3 * s.lease + 2 * cycPerMs) ≤ s.time.cycle)
    (hi : s.flag F.PLK_STATUS_IMG_MISMATCH = false) : exec .pairListenTimeout s = .next s.afterListen :=
  (if_neg (by simp [h, State.lasted_of_le ht, hi])).trans (apply_ite Host.Outcome.next _ _ _).symm

theorem State.afterListen_spec (s : State) :
    (s.fld F.PLK_STATUS_PATHS = 0 → s.sw20 = true → s.afterListen = s.takeOwn) ∧ (s.fld F.PLK_STATUS_PATHS = 0 → s.sw20 = false → s.afterListen = s) ∧
    (s.fld F.PLK_STATUS_PATHS ≠ 0 → s.fld F.PLK_STATUS_PARTNER_ROLE ≠ 1 → s.afterListen = s) ∧
    (s.fld F.PLK_STATUS_PATHS ≠ 0 → s.fld F.PLK_STATUS_PARTNER_ROLE = 1 → s.sw20 = true → bit s.plk.pflags 1 = false → s.afterListen = s.takeOwn) ∧
    (s.fld F.PLK_STATUS_PATHS ≠ 0 → s.fld F.PLK_STATUS_PARTNER_ROLE = 1 → s.sw20 = false → bit s.plk.pflags 1 = true → s.afterListen = s) ∧
    (s.fld F.PLK_STATUS_PATHS ≠ 0 → s.fld F.PLK_STATUS_PARTNER_ROLE = 1 → s.sw20 = bit s.plk.pflags 1 →
      s.afterListen = if s.ownId < s.partnerId then s.takeOwn else s) := by
  unfold State.afterListen
  refine ⟨fun h hs => ?_, fun h hs => ?_, fun h hr => ?_, fun h hr hs hb => ?_, fun h hr hs hb => ?_, fun h hr hs => ?_⟩
  · simp [h, hs]
  · simp [h, hs]
  · simp [h, hr]
  · simp [h, hr, hs, hb]
  · simp [h, hr, hs, hb]
  · simp [h, hr, hs]

/-! ## Sending heartbeats -/

/-- The pair's state, the time and memory are as they were. -/
def State.PairStill (s t : State) : Prop := t.plk = s.plk ∧ t.time = s.time ∧ t.mem = s.mem

theorem State.PairStill.trans {s t u : State} (h : s.PairStill t) (h' : t.PairStill u) : s.PairStill u :=
  ⟨h'.1.trans h.1, h'.2.1.trans h.2.1, h'.2.2.trans h.2.2⟩

theorem State.PairStill.refl (s : State) : s.PairStill s := ⟨rfl, rfl, rfl⟩

theorem State.txPn_still (s : State) (n k : Nat) : s.PairStill (s.txPn n k) := by
  unfold State.txPn State.ethIrq
  dsimp only
  refine ⟨?_, ?_, ?_⟩ <;> split <;> split <;> simp [State.setNum64]

theorem State.syncTxts_still (s : State) (n : Nat) : s.PairStill (s.syncTxts n) := by
  unfold State.syncTxts
  split
  · exact ⟨by simp, by simp, by simp⟩
  · exact ⟨by simp, by simp, by simp⟩

theorem State.ethOut_still (s : State) (n : Nat) (l : List Nat) : s.PairStill (s.ethOut n l) := by
  unfold State.ethOut State.ethIrq
  dsimp only
  split
  · split
    · obtain ⟨hp, ht, hm⟩ := State.syncTxts_still (((s.emit (.frame (0xE000 + n) l)).count (Reg.ETH_CNT_TXF n) 1).setEth n
        { ((s.emit (.frame (0xE000 + n) l)).count (Reg.ETH_CNT_TXF n) 1).ethOf n with
          txts := (((s.emit (.frame (0xE000 + n) l)).count (Reg.ETH_CNT_TXF n) 1).ethOf n).txts ++
            [(((s.emit (.frame (0xE000 + n) l)).count (Reg.ETH_CNT_TXF n) 1).now, fieldAt l (ethPay l) 1 % 16, be l (ethPay l + 30) 2)] }) n
      exact ⟨(State.setRbit_plk ..).trans (hp.trans (by simp)), (State.setRbit_time ..).trans (ht.trans (by simp)), (State.setRbit_mem ..).trans (hm.trans (by simp))⟩
    · exact ⟨by simp, by simp, by simp⟩
  · exact ⟨by simp, by simp, by simp⟩

theorem State.ethEmit_still (s : State) (n : Nat) (l : List Nat) : s.PairStill (s.ethEmit n l) := by
  rcases s.ethEmit_cases n l with h | ⟨k, h⟩ | h
  · exact h ▸ s.ethOut_still n l
  · exact h ▸ (s.txPn_still n k).trans (State.ethOut_still _ n l)
  · exact h.symm ▸ .refl s

theorem State.portSend_still (s : State) (n q : Nat) (l : List Nat) (slot : Option Nat) : s.PairStill (s.portSend n q l slot) := by
  unfold State.portSend
  split
  · exact .refl s
  · split
    · exact s.ethEmit_still n l
    · exact ⟨by simp, by simp, by simp⟩

theorem State.pairSend_still (s : State) (n : Nat) (l : List Nat) (slot : Option Nat) : s.PairStill (s.pairSend n l slot) := by
  unfold State.pairSend
  dsimp only
  split
  · exact s.portSend_still ..
  · have hset (x : PrpState) : s.PairStill (s.setPrp (n / 2) x) := ⟨by simp, by simp, by simp⟩
    exact ((hset _).trans (State.portSend_still ..)).trans (State.portSend_still ..)

theorem State.laneSend_still (s : State) (l : List Nat) : s.PairStill (s.laneSend l) := by
  unfold State.laneSend
  refine fold_keep (fun u => s.PairStill u) (fun u x hu => ?_) _ (.refl s)
  split
  · exact hu.trans ⟨by simp, by simp, by simp⟩
  · exact hu

theorem State.length_heartbeat (s : State) : s.heartbeat.length = 64 := by
  simp [State.heartbeat, wordBytes, leBytes_length]

theorem exec_heartbeatSend_early (h : s.role = 0 ∨ (∃ t, s.plk.hbAt = some t ∧ s.time.cycle < t + s.lease / 4)) : exec .heartbeatSend s = .next s := by
  refine if_pos ?_
  rcases h with h | ⟨t, ht, hc⟩
  · simp [h]
  · simp [ht, State.lasted_of_lt hc]

theorem heartbeatSend_spec (h : s.role ≠ 0) (ht : ∀ t, s.plk.hbAt = some t → t + s.lease / 4 ≤ s.time.cycle) : Gives .heartbeatSend s (fun t =>
      t.plk = { s.plk with hbseq := (s.plk.hbseq + 1) % 2 ^ 32, hbAt := some s.time.cycle } ∧ SameMem s t) := by
  have hdue : (decide (s.role = 0) || s.plk.hbAt.any (fun t => !s.lasted t (s.lease / 4))) = false := by
    cases hb : s.plk.hbAt with
    | none => simp [h]
    | some t => simp [h, State.lasted_of_le (ht t hb)]
  obtain ⟨hp, htime, hm⟩ := (s.laneSend_still s.heartbeat).trans (State.pairSend_still _ (2 * (s.laneSend s.heartbeat).fld F.PLK_CFG_HB_PAIR)
    (List.replicate 12 0 ++ beBytes 2 (s.laneSend s.heartbeat).img.net.hb ++ s.heartbeat) none)
  refine ⟨_, if_neg (by simp [hdue]), ?_, .of_eq hm⟩
  dsimp only
  rw [State.setPlk_plk, hp, htime]

/-! ## Receiving heartbeats -/

theorem State.fld_of_rd {s t : State} {f : Fld} (h : t.rd f.addr = s.rd f.addr) : t.fld f = s.fld f := State.fld_congr h

/-- A path over which a heartbeat comes is up. -/
def State.hbPath (s : State) (p : Nat) : State :=
  if bit (s.fld F.PLK_STATUS_PATHS) p then s
  else ((s.setFld F.PLK_STATUS_PATHS (putBit (s.fld F.PLK_STATUS_PATHS) p true)).plkIrq 2).log 0x0E17 0 p

/-- What a heartbeat tells of the partner. -/
def State.hbNote (s : State) (p : Nat) (l : List Nat) : State :=
  let s := (s.setFld F.PLK_STATUS_PARTNER_ROLE (fieldAt l 6 1)).setFld F.PLK_STATUS_HANDOVER (fieldAt l 7 1 % 2)
  let s := if s.num64 Reg.PLK_PEPOCH_LO Reg.PLK_PEPOCH_HI < fieldAt l 0x10 8 then s.setNum64 Reg.PLK_PEPOCH_LO Reg.PLK_PEPOCH_HI (fieldAt l 0x10 8) else s
  s.setPlk { s.plk with
    eseen := max s.plk.eseen (fieldAt l 0x10 8), pflags := fieldAt l 7 1
    lastHb := if fieldAt l 6 1 = 2 then s.time.cycle else s.plk.lastHb
    handing := s.plk.handing && fieldAt l 6 1 != 2
    heard := Tab.put s.plk.heard p s.time.cycle }

/-- Whether the partner runs another image. -/
def State.hbImage (s : State) (l : List Nat) : State :=
  let u := if fieldAt l 0x28 8 != s.imageId && !s.flag F.PLK_STATUS_IMG_MISMATCH then (s.log 0x0E18 0 (fieldAt l 0x28 8 % 2 ^ 32)).plkIrq 3 else s
  u.setFld F.PLK_STATUS_IMG_MISMATCH (b2n (fieldAt l 0x28 8 != s.imageId))

theorem exec_heartbeatRx {p : Fin 4} {b : List Byte} {l : List Nat} (hl : l = b.map BitVec.toNat) (hr : s.role ≠ 0) (hv : s.hbValid l = true) :
    exec (.heartbeatRx p b) s = .next ((((s.hbPath p).hbNote p l).hbImage l).hbRole l) := by
  subst hl
  exact if_neg (by simp [hr, hv])

theorem State.hbPath_spec (s : State) {p : Nat} (hp : p < 4) {t : State} (ht : t = s.hbPath p) : t.role = s.role ∧ bit (t.fld F.PLK_STATUS_PATHS) p = true ∧
    t.plk = s.plk ∧ t.time = s.time ∧ t.mem = s.mem ∧ t.evl.queue.length ≤ s.evl.queue.length + 1 ∧
    (bit (s.fld F.PLK_STATUS_PATHS) p = false → Logs s t 0x0E17 0 p ∧ t.rbit Reg.PLK_IRQ 2 = true) ∧
    RegsKept s t [Reg.PLK_STATUS, Reg.PLK_IRQ, Reg.EVL_LOST] := by
  subst ht
  unfold State.hbPath State.plkIrq State.role
  split
  · rename_i h
    exact ⟨rfl, h, rfl, rfl, rfl, Nat.le_succ _, fun hf => (by simp [h] at hf), regsKept_self s _⟩
  · refine ⟨?_, ?_, by simp, by simp, by simp, log_length .., fun _ => ⟨logs_log _ _ _ (by simp), ?_⟩, by simp⟩
    · simp (disch := decide)
    · simp (disch := decide)
      exact (bit_mod _ (w := 4) hp).trans (by simp [bit_putBit])
    · simp (disch := decide)

theorem State.hbNote_spec (s : State) (p : Nat) (l : List Nat) {t : State} (ht : t = s.hbNote p l) : t.role = s.role ∧
    t.fld F.PLK_STATUS_PATHS = s.fld F.PLK_STATUS_PATHS ∧ t.fld F.PLK_STATUS_PARTNER_ROLE = fieldAt l 6 1 % 8 ∧
    t.flag F.PLK_STATUS_HANDOVER = bit (fieldAt l 7 1) 0 ∧ t.plk.eseen = max s.plk.eseen (fieldAt l 0x10 8) ∧ t.plk.pflags = fieldAt l 7 1 ∧
    t.plk.epoch = s.plk.epoch ∧ t.plk.lastHb = (if fieldAt l 6 1 = 2 then s.time.cycle else s.plk.lastHb) ∧
    (t.evl = s.evl ∧ t.time = s.time ∧ t.mem = s.mem) ∧ RegsKept s t [Reg.PLK_STATUS, Reg.PLK_PEPOCH_LO, Reg.PLK_PEPOCH_HI] := by
  subst ht
  unfold State.hbNote State.role
  generalize hu : (s.setFld F.PLK_STATUS_PARTNER_ROLE (fieldAt l 6 1)).setFld F.PLK_STATUS_HANDOVER (fieldAt l 7 1 % 2) = u
  obtain ⟨v, hv, hk⟩ : ∃ v : State, v = (if u.num64 Reg.PLK_PEPOCH_LO Reg.PLK_PEPOCH_HI < fieldAt l 0x10 8 then
      u.setNum64 Reg.PLK_PEPOCH_LO Reg.PLK_PEPOCH_HI (fieldAt l 0x10 8) else u) ∧
      (v.plk = u.plk ∧ v.evl = u.evl ∧ v.time = u.time ∧ v.mem = u.mem) ∧ RegsKept u v [Reg.PLK_PEPOCH_LO, Reg.PLK_PEPOCH_HI] := by
    refine ⟨_, rfl, ?_⟩
    split
    · simp [State.setNum64]
    · simp
  obtain ⟨⟨hplk, hevl, htime, hmem⟩, hregs⟩ := hk
  dsimp only
  rw [← hv]
  have hst : v.rd Reg.PLK_STATUS = u.rd Reg.PLK_STATUS := hregs _ (by decide)
  have hfld {f : Fld} (hf : f.addr = Reg.PLK_STATUS) : v.fld f = u.fld f := State.fld_congr (by rw [hf]; exact hst)
  have hflag {f : Fld} (hf : f.addr = Reg.PLK_STATUS) : v.flag f = u.flag f := State.flag_congr (by rw [hf]; exact hst)
  refine ⟨?_, ?_, ?_, ?_, ?_, rfl, ?_, ?_, ⟨?_, ?_, ?_⟩, fun a ha => ?_⟩
  · refine (hfld rfl).trans ?_
    rw [← hu]
    simp (disch := decide)
  · refine (hfld rfl).trans ?_
    rw [← hu]
    simp (disch := decide)
  · refine (hfld rfl).trans ?_
    rw [← hu]
    simp (disch := decide)
  · refine (hflag rfl).trans ?_
    rw [← hu]
    simp (disch := decide) [bit]
  · simp [hplk, ← hu]
  · simp [hplk, ← hu]
  · simp [hplk, htime, ← hu]
  · simp [hevl, ← hu]
  · simp [htime, ← hu]
  · simp [hmem, ← hu]
  · simp only [List.mem_cons, List.not_mem_nil, or_false, not_or] at ha
    refine (hregs a (by simp [ha])).trans ?_
    rw [← hu, State.rd_setFld_other _ _ _ ha.1, State.rd_setFld_other _ _ _ ha.1]

theorem State.hbImage_spec (s : State) (l : List Nat) {t : State} (ht : t = s.hbImage l) : t.role = s.role ∧
    t.fld F.PLK_STATUS_PATHS = s.fld F.PLK_STATUS_PATHS ∧ t.fld F.PLK_STATUS_PARTNER_ROLE = s.fld F.PLK_STATUS_PARTNER_ROLE ∧
    t.flag F.PLK_STATUS_HANDOVER = s.flag F.PLK_STATUS_HANDOVER ∧ t.plk = s.plk ∧ t.flag F.PLK_STATUS_IMG_MISMATCH = (fieldAt l 0x28 8 != s.imageId) ∧
    t.mem = s.mem ∧ (s.rbit Reg.PLK_IRQ 2 = true → t.rbit Reg.PLK_IRQ 2 = true) ∧
    (∀ r c x d, s.evl.queue.length ≤ r.evl.queue.length + 15 → Logs r s c x d → Logs r t c x d) ∧
    RegsKept s t [Reg.PLK_STATUS, Reg.PLK_IRQ, Reg.EVL_LOST] := by
  subst ht
  unfold State.hbImage State.role State.plkIrq
  have himg (u : State) (d : Bool) : (u.setFld F.PLK_STATUS_IMG_MISMATCH (b2n d)).flag F.PLK_STATUS_IMG_MISMATCH = d := by
    cases d <;> simp (disch := decide) [b2n]
  dsimp only
  rw [himg]
  split
  · refine ⟨?_, ?_, ?_, ?_, by simp, rfl, by simp, fun h => ?_, fun r c x d hq hl => ?_, by simp⟩
    · simp (disch := decide)
    · simp (disch := decide)
    · simp (disch := decide)
    · simp (disch := decide)
    · simp (disch := decide) [h]
    · simp (disch := decide)
      exact Logs.log_other hq hl _ _ _
  · refine ⟨?_, ?_, ?_, ?_, by simp, rfl, by simp, fun h => ?_, fun r c x d hq hl => ?_, by simp⟩
    · simp (disch := decide)
    · simp (disch := decide)
    · simp (disch := decide)
    · simp (disch := decide)
    · simp (disch := decide) [h]
    · simpa (disch := decide) using hl

theorem heartbeatRx_spec {p : Fin 4} {b : List Byte} {l : List Nat} (hl : l = b.map BitVec.toNat) (hr : s.role ≠ 0) (hv : s.hbValid l = true) : ∃ u : State,
    exec (.heartbeatRx p b) s = .next (u.hbRole l) ∧ u.role = s.role ∧ bit (u.fld F.PLK_STATUS_PATHS) p = true ∧
    u.fld F.PLK_STATUS_PARTNER_ROLE = fieldAt l 6 1 % 8 ∧ u.flag F.PLK_STATUS_HANDOVER = bit (fieldAt l 7 1) 0 ∧
    u.plk.eseen = max s.plk.eseen (fieldAt l 0x10 8) ∧ u.plk.pflags = fieldAt l 7 1 ∧ u.plk.epoch = s.plk.epoch ∧
    u.plk.lastHb = (if fieldAt l 6 1 = 2 then s.time.cycle else s.plk.lastHb) ∧
    u.flag F.PLK_STATUS_IMG_MISMATCH = (fieldAt l 0x28 8 != s.imageId) ∧
    (bit (s.fld F.PLK_STATUS_PATHS) p = false → Logs s u 0x0E17 0 p ∧ u.rbit Reg.PLK_IRQ 2 = true) ∧ SameMem s u ∧
    RegsKept s u [Reg.PLK_STATUS, Reg.PLK_IRQ, Reg.PLK_PEPOCH_LO, Reg.PLK_PEPOCH_HI, Reg.EVL_LOST] := by
  obtain ⟨u, hu⟩ : ∃ u, u = s.hbPath p := ⟨_, rfl⟩
  obtain ⟨v, hv'⟩ : ∃ v, v = u.hbNote p l := ⟨_, rfl⟩
  obtain ⟨p1, p2, p3, p4, p5, p6, p7, p8⟩ := s.hbPath_spec p.isLt hu
  obtain ⟨n1, n2, n3, n4, n5, n6, n7, n8, ⟨n9, n10, n11⟩, n12⟩ := u.hbNote_spec p l hv'
  obtain ⟨i1, i2, i3, i4, i5, i6, i7, i8, i9, i10⟩ := v.hbImage_spec l rfl
  have himg : v.imageId = s.imageId := by
    unfold State.imageId
    rw [State.num64_of_kept n12 (by decide) (by decide), State.num64_of_kept p8 (by decide) (by decide)]
  refine ⟨v.hbImage l, by rw [exec_heartbeatRx hl hr hv, hv', hu], i1.trans (n1.trans p1), ?_, i3.trans n3, i4.trans n4, ?_, ?_, ?_, ?_, ?_, fun hf => ?_,
    .of_eq (i7.trans (n11.trans p5)), fun a ha => ?_⟩
  · rw [i2, n2, p2]
  · rw [i5, n5, p3]
  · rw [i5, n6]
  · rw [i5, n7, p3]
  · rw [i5, n8, p3, p4]
  · rw [i6, himg]
  · obtain ⟨hlog, hirq⟩ := p7 hf
    have hlen : v.evl.queue.length ≤ s.evl.queue.length + 15 := by
      rw [n9]
      exact p6.trans (Nat.add_le_add_left (by decide) _)
    have hnow : v.now = u.now := by
      unfold State.now
      rw [n10]
    refine ⟨i9 s _ _ _ hlen (hlog.congr n9 hnow), i8 ?_⟩
    unfold State.rbit at *
    rwa [State.num_of_kept n12 (by decide)]
  · simp only [List.mem_cons, List.not_mem_nil, or_false, not_or] at ha
    rw [i10 a (by simp [ha]), n12 a (by simp [ha]), p8 a (by simp [ha])]

theorem State.hbRole_cases (s : State) (l : List Nat) : (s.role = 3 ∨ s.role = 5 → s.hbRole l = s) ∧
    (s.role = 1 → fieldAt l 6 1 = 2 → s.flag F.PLK_STATUS_IMG_MISMATCH = false → s.hbRole l = s.setRole 3) ∧
    (s.role = 2 → s.plk.epoch < fieldAt l 0x10 8 → s.hbRole l = s.demote (fieldAt l 0x10 8)) ∧
    (s.role = 2 → fieldAt l 0x10 8 ≤ s.plk.epoch → s.hbRole l = s) ∧
    (s.role = 4 → bit (fieldAt l 7 1) 0 = true → s.flag F.PLK_STATUS_IMG_MISMATCH = false → s.hbRole l = s.takeOver) ∧
    (s.role = 4 → bit (fieldAt l 7 1) 0 = false ∨ s.flag F.PLK_STATUS_IMG_MISMATCH = true → s.hbRole l = s) := by
  unfold State.hbRole
  refine ⟨fun h => ?_, fun h hp hi => ?_, fun h he => ?_, fun h he => ?_, fun h hb hi => ?_, fun h hb => ?_⟩
  · rcases h with h | h <;> simp only [h]
  · simp [h, hp, hi]
  · simp [h, he]
  · simp [h, he]
  · simp [h, hb, hi]
  · rcases hb with hb | hb <;> simp [h, hb]

theorem pathTimeout_spec (s : State) (p : Fin 4) : (bit (s.fld F.PLK_STATUS_PATHS) p = false ∨
      s.time.cycle < Tab.get (fun _ => 0) s.plk.heard p.val + s.lease → exec (.pathTimeout p) s = .next s) ∧
    (bit (s.fld F.PLK_STATUS_PATHS) p = true → Tab.get (fun _ => 0) s.plk.heard p.val + s.lease ≤ s.time.cycle → Gives (.pathTimeout p) s (fun t =>
      bit (t.fld F.PLK_STATUS_PATHS) p = false ∧ t.rbit Reg.PLK_IRQ 2 = true ∧ Logs s t 0x0E16 0 p ∧ t.plk = s.plk ∧ SameMem s t ∧
      RegsKept s t [Reg.PLK_STATUS, Reg.PLK_IRQ, Reg.EVL_LOST])) := by
  refine ⟨fun h => if_neg ?_, fun h ht => ⟨_, if_pos ?_, ?_⟩⟩
  · rcases h with h | h
    · simp [h]
    · simp [State.lasted_of_lt h]
  · simp [h, State.lasted_of_le ht]
  · unfold State.plkIrq
    refine ⟨?_, ?_, logs_log _ _ _ (by simp), by simp, .of_eq (by simp), by simp⟩
    · simp (disch := decide)
      exact (bit_mod _ (w := 4) p.isLt).trans (by simp [bit_putBit])
    · simp (disch := decide)

theorem leaseExpire_spec (s : State) : (s.role = 4 → s.plk.lastHb + (s.lease + 2 * cycPerMs) ≤ s.time.cycle →
      s.flag F.PLK_STATUS_IMG_MISMATCH = false → exec .leaseExpire s = .next s.takeOver) ∧
    (s.role ≠ 4 ∨ s.time.cycle < s.plk.lastHb + (s.lease + 2 * cycPerMs) ∨ s.flag F.PLK_STATUS_IMG_MISMATCH = true →
      exec .leaseExpire s = .next s) := by
  refine ⟨fun h ht hi => congrArg Host.Outcome.next (if_pos ?_), fun h => congrArg Host.Outcome.next (if_neg ?_)⟩
  · simp [h, State.lasted_of_le ht, hi]
  · rcases h with h | h | h
    · simp [h]
    · simp [State.lasted_of_lt h]
    · simp [h]

/-! ## Commands -/

/-- An ignored command is only marked as ignored. -/
theorem State.cmdIgnored_spec (s : State) : s.cmdIgnored.flag F.PLK_STATUS_CMD_IGN = true ∧ s.cmdIgnored.plk = s.plk ∧ SameMem s s.cmdIgnored ∧
    RegsKept s s.cmdIgnored [Reg.PLK_STATUS] := by
  unfold State.cmdIgnored
  refine ⟨?_, by simp, .of_eq (by simp), by simp⟩
  simp (disch := decide)

theorem exec_plkHandover (m : Nat) (u : State) (hr : s.role = 2) (hp : s.fld F.PLK_STATUS_PARTNER_ROLE = 4) (hc : s.plk.cut = none)
    (hm : m = s.fld F.PLK_MIRROR_MREF) (hu : u = s.mirStart m (s.num (Reg.CT_LAST_CSEQ m)) false true) : exec .plkHandover s =
      .next (((u.setPlk { u.plk with handing := true }).setRole 3).log 0x0E12 0 (u.plk.epoch % 2 ^ 32)).standDown.cycDemote := by
  subst hm hu
  refine (if_neg (by simp [hr, hp])).trans ?_
  simp only [hc]
  generalize s.mirStart (s.fld F.PLK_MIRROR_MREF) (s.num (Reg.CT_LAST_CSEQ (s.fld F.PLK_MIRROR_MREF))) false true = u
  rw [State.setPlk_plk]

theorem plkForceTake_spec (s : State) (k : Byte) : (k ≠ 0xA5 → exec (.plkForceTake k) s = .next s.cmdIgnored) ∧
    ((s.role ≠ 1 ∧ s.role ≠ 3 ∧ s.role ≠ 5) ∨ s.flag F.PLK_STATUS_IMG_MISMATCH = true → Gives (.plkForceTake 0xA5) s (fun t =>
      t.flag F.PLK_STATUS_CMD_IGN = true ∧ t.plk = s.plk ∧ SameMem s t ∧ RegsKept s t [Reg.PLK_STATUS])) ∧
    (s.role = 1 ∨ s.role = 3 ∨ s.role = 5 → s.flag F.PLK_STATUS_IMG_MISMATCH = false → exec (.plkForceTake 0xA5) s =
      .next (s.takeOwn.log 0x0E19 0 (s.nextEpoch % 2 ^ 32))) := by
  have hex (k : Byte) : exec (.plkForceTake k) s = if k ≠ 0xA5 then .next s.cmdIgnored
      else if !([1, 3, 5].contains s.role) || s.flag F.PLK_STATUS_IMG_MISMATCH then .next s.cmdIgnored
      else .next (s.takeOwn.log 0x0E19 0 (s.nextEpoch % 2 ^ 32)) := rfl
  refine ⟨fun h => if_pos h, fun h => ⟨s.cmdIgnored, ?_, s.cmdIgnored_spec⟩, fun h hi => ?_⟩ <;> rw [hex, if_neg (by decide)]
  · rcases h with ⟨h1, h3, h5⟩ | h
    · exact if_pos (by simp [h1, h3, h5])
    · exact if_pos (by simp [h])
  · rcases h with h | h | h <;> exact if_neg (by simp [h, hi])

theorem plkResync_spec (s : State) : (s.role = 5 → exec .plkResync s = .next (s.setRole 3).standDown) ∧
    (s.role ≠ 5 → Gives .plkResync s (fun t => t.flag F.PLK_STATUS_CMD_IGN = true ∧ t.plk = s.plk ∧ SameMem s t ∧ RegsKept s t [Reg.PLK_STATUS])) :=
  ⟨fun h => if_neg (by simp [h]), fun h => ⟨_, if_pos h, s.cmdIgnored_spec⟩⟩

theorem plkLinkUp_spec (s : State) (l : Fin 2) : Gives (.plkLinkUp l) s (fun t => l.val ∈ t.plk.links ∧ (l.val ∈ s.plk.links → t = s) ∧ SameMem s t ∧
    RegsKept s t []) := by
  refine ⟨_, rfl, ?_⟩
  by_cases h : l.val ∈ s.plk.links
  · rw [if_pos (by simpa using h)]
    exact ⟨h, fun _ => rfl, fun _ => rfl, regsKept_self s _⟩
  · rw [if_neg (by simpa using h)]
    exact ⟨by simp, fun h' => absurd h' h, .of_eq (by simp), by simp⟩

/-! ## The mirror (R446 to R448) -/

theorem exec_mirrorCut_skip {q : Word} (h : s.role ≠ 2 ∨ s.flag (F.CT_CTRL_RUNNING (s.fld F.PLK_MIRROR_MREF)) = false ∨ cseqEntry q.toNat ≠ 0 ∨
      strokeOf q.toNat ≠ strokeOf (s.num (Reg.CT_LAST_CSEQ (s.fld F.PLK_MIRROR_MREF))) ∨ s.plk.lastCut = some (strokeOf q.toNat) ∨
      s.fld F.PLK_MIRROR_MDIV = 0 ∨ strokeOf q.toNat % s.fld F.PLK_MIRROR_MDIV ≠ 0 ∨ s.plk.cut ≠ none) : exec (.mirrorCut q) s = .next s := by
  refine if_pos ?_
  rcases h with h | h | h | h | h | h | h | h
  · simp [h]
  · simp [h]
  · simp [h]
  · simp [h]
  · simp [h]
  · simp [h]
  · simp [h]
  · simp [Option.isSome_iff_ne_none.mpr h]

theorem exec_mirrorCut_due {q : Word} (h1 : s.role = 2) (h2 : s.flag (F.CT_CTRL_RUNNING (s.fld F.PLK_MIRROR_MREF)) = true) (h3 : cseqEntry q.toNat = 0)
    (h4 : strokeOf q.toNat = strokeOf (s.num (Reg.CT_LAST_CSEQ (s.fld F.PLK_MIRROR_MREF)))) (h5 : s.plk.lastCut ≠ some (strokeOf q.toNat))
    (h6 : s.fld F.PLK_MIRROR_MDIV ≠ 0) (h7 : strokeOf q.toNat % s.fld F.PLK_MIRROR_MDIV = 0) (h8 : s.plk.cut = none) :
    exec (.mirrorCut q) s = .next ((s.setPlk { s.plk with lastCut := some (strokeOf q.toNat) }).mirStart (s.fld F.PLK_MIRROR_MREF) q.toNat
        (s.fld F.PLK_STATUS_PARTNER_ROLE == 3) false) := by
  have hcut : (s.plk.lastCut != some (strokeOf q.toNat)) = true := bne_iff_ne.mpr h5
  exact if_neg (by simp [h1, h2, h3, ← h4, hcut, h6, h7, h8])

theorem State.mirCount_spec (s : State) (n : Nat) : (s.mirCount n).role = s.role ∧ (s.mirCount n).plk.rx = s.plk.rx ∧ (s.mirCount n).mem = s.mem ∧
    RegsKept s (s.mirCount n) [Reg.PLK_RATE] := by
  unfold State.mirCount State.role
  dsimp only
  split <;> simp

section
variable {i : Fin 2} {b : List Byte} {l : List Nat} (hl : l = b.map BitVec.toNat)

theorem exec_mirrorFrameRx_idle (h3 : s.role ≠ 3) (h4 : s.role ≠ 4) : exec (.mirrorFrameRx i b) s = .next s := if_pos (.inl ⟨h3, h4⟩)

theorem exec_mirrorFrameRx_short (h : b.length < 0x20) : exec (.mirrorFrameRx i b) s = .next s := by
  have hs : decide (0x20 ≤ (b.map (fun b => b.toNat)).length) = false := by
    rw [List.length_map]
    exact decide_eq_false (by omega)
  refine if_pos (.inr ?_)
  simp only [hs, Bool.false_and, Bool.not_false, Bool.true_or]

/-- The header and the check sums of a mirror frame are right. -/
def mirFrameOk (l : List Nat) : Prop := 0x20 ≤ l.length ∧ fieldAt l 0 4 = 0x4D4E4D41 ∧ fieldAt l 4 2 = 1 ∧ fieldAt l 0x18 4 = l.length - 0x20 ∧
  l.length ≤ 8192 + 0x20 ∧ fieldAt l 0x1C 4 = crc32c (l.take 0x1C ++ l.drop 0x20)

variable (hr : s.role = 3 ∨ s.role = 4) (hok : mirFrameOk l) (hm : s.plk.mirror = none) (hx : s.plk.rx = none)
include hl hr hok hm hx

theorem exec_mirrorFrameRx_trailer (hk : fieldAt l 6 2 = 1) :
    exec (.mirrorFrameRx i b) s = .next ((s.mirCount l.length).mirTrailer (fieldAt l 8 4) (fieldAt l 0x0C 2) [] (l.drop 0x20)) := by
  obtain ⟨h1, h2, h3, h4, h5, h6⟩ := hok
  obtain ⟨-, hrx, -⟩ := s.mirCount_spec l.length
  have hl' : b.map (fun b => b.toNat) = l := hl.symm
  simp only [exec, execMirrorFrameRx, hl', hm, hrx.trans hx]
  refine (if_neg ?_).trans (if_pos hk)
  simp [h1, h2, h3, h4, h6, hk]
  omega

theorem mirrorFrameRx_fragment (hk : fieldAt l 6 2 = 0 ∨ fieldAt l 6 2 = 2) : Gives (.mirrorFrameRx i b) s (fun t =>
    t.plk.rx = some (fieldAt l 8 4, [(fieldAt l 0x0C 2, l.drop 0x20)]) ∧ t.role = s.role ∧ SameMem s t ∧ RegsKept s t [Reg.PLK_RATE]) := by
  obtain ⟨h1, h2, h3, h4, h5, h6⟩ := hok
  obtain ⟨hrole, hrx, hmem, hregs⟩ := s.mirCount_spec l.length
  have hl' : b.map (fun b => b.toNat) = l := hl.symm
  refine ⟨(s.mirCount l.length).setPlk { (s.mirCount l.length).plk with rx := some (fieldAt l 8 4, [(fieldAt l 0x0C 2, l.drop 0x20)]) }, ?_, rfl, ?_, ?_, ?_⟩
  · simp only [exec, execMirrorFrameRx, hl', hm, hrx.trans hx]
    refine (if_neg ?_).trans ((if_neg (by omega)).trans (if_neg ?_))
    · simp [h1, h2, h3, h4, h6]
      omega
    · simp [Tab.put, Tab.find]
      omega
  · exact (State.fld_congr (State.rd_setPlk ..)).trans hrole
  · exact .of_eq hmem
  · exact fun a ha => hregs a ha

end

theorem State.syncLost_spec (s : State) (code : Nat) : (s.role ≠ 4 → s.syncLost code = s.setPlk { s.plk with rx := none }) ∧
    (s.role = 4 → (s.syncLost code).role = 3 ∧ (s.syncLost code).flag F.PLK_STATUS_IN_SYNC = false ∧ Logs s (s.syncLost code) 0x0E15 0 code) := by
  refine ⟨fun h => if_neg h, fun h => ?_⟩
  have heq : s.syncLost code = ((((s.setPlk { s.plk with rx := none }).setInSync false).setRole 3).log 0x0E15 0 code) := if_pos h
  rw [heq]
  obtain ⟨hs, -, hevl, -⟩ := (s.setPlk { s.plk with rx := none }).setInSync_spec false
  generalize (s.setPlk { s.plk with rx := none }).setInSync false = u at *
  obtain ⟨hrole, -⟩ := u.setRole_spec (v := 3) (by decide) rfl
  refine ⟨?_, ?_, Logs.log_self ?_⟩
  · refine Eq.trans ?_ hrole
    unfold State.role
    simp
  · simp
    exact (State.inSync_setRole ..).trans hs
  · have hlen : (u.setRole 3).evl.queue.length ≤ u.evl.queue.length + 1 := log_length ..
    rw [hevl] at hlen
    exact hlen.trans (by simp)

end

/-- Settles O49: roles, the token, heartbeats and the mirror by their lemmas, each command by its cases. -/
theorem redundantPairCommands : Obligations.RedundantPairCommands := by
  unfold Obligations.RedundantPairCommands
  refine ⟨fun s v hv t => s.setRole_spec hv, fun s t => s.takeToken_spec, fun s => exec_pairListenTimeout_early, fun s h ht hi => ?_,
    fun s => ⟨exec_heartbeatSend_early, heartbeatSend_spec, s.length_heartbeat⟩, fun s p b h => if_pos ?_, fun s p b l hl hr hv => heartbeatRx_spec hl hr hv,
    State.hbRole_cases, pathTimeout_spec, leaseExpire_spec, fun s => ⟨fun h => ⟨_, if_pos h, s.cmdIgnored_spec⟩, fun m u => exec_plkHandover m u⟩,
    plkForceTake_spec, plkResync_spec, fun s l => ⟨fun tr => rfl, plkLinkUp_spec s l⟩, fun s q => ⟨exec_mirrorCut_skip, exec_mirrorCut_due⟩,
    fun s l b => ⟨exec_mirrorFrameRx_idle, exec_mirrorFrameRx_short⟩,
    fun s i b l hl hr h1 h2 h3 h4 h5 h6 hm => ⟨fun hk hx => exec_mirrorFrameRx_trailer hl hr ⟨h1, h2, h3, h4, h5, h6⟩ hm hx hk,
      fun hk hx => mirrorFrameRx_fragment hl hr ⟨h1, h2, h3, h4, h5, h6⟩ hm hx hk⟩, State.syncLost_spec⟩
  · rw [exec_pairListenTimeout_due h ht hi]
    obtain ⟨h1, h2, h3, h4, h5, h6⟩ := s.afterListen_spec
    exact ⟨fun a b => congrArg _ (h1 a b), fun a b => congrArg _ (h2 a b), fun a b => congrArg _ (h3 a b), fun a b c d => congrArg _ (h4 a b c d),
      fun a b c d => congrArg _ (h5 a b c d), fun a b c => congrArg _ (h6 a b c)⟩
  · rcases h with h | h
    · exact .inl h
    · exact .inr (by simp [h])

end Sys2Proof.Machine


/-! PROOFS. The cyclic program: load, start, stop, change, cycle and forces (R460 to R476). -/

namespace Sys2Proof.Machine

section
variable (s : State)

@[simp] theorem State.time_setCyc (c : CycState) : (s.setCyc c).time = s.time := rfl
theorem State.forceTable_setCyc (c : CycState) : (s.setCyc c).forceTable = s.forceTable := rfl
@[simp] theorem State.time_logIf (b : Bool) (c x d : Nat) : (s.logIf b c x d).time = s.time := by
  unfold State.logIf
  split <;> simp
@[simp] theorem State.time_freshWord : s.freshWord.2.time = s.time := rfl

theorem State.flag_eq_rbit (a i : Nat) : s.flag ⟨a, i, 1⟩ = s.rbit a i := rfl

@[simp] theorem State.quiet_cycIrq (b : Nat) : (s.cycIrq b).mem = s.mem ∧ (s.cycIrq b).cyc = s.cyc ∧ (s.cycIrq b).evl = s.evl ∧ (s.cycIrq b).time = s.time := by
  simp [State.cycIrq]
@[simp] theorem State.regsBut_cycIrq (b : Nat) : RegsBut Reg.CYC_IRQ (s.cycIrq b) s := s.regsBut_setRbit ..
@[simp] theorem State.rbit_cycIrq {b : Nat} (h : b < 32) : (s.cycIrq b).rbit Reg.CYC_IRQ b = true := State.rbit_setRbit_same _ _ _ h

/-! ## The result of a command (R476) -/

/-- CYC_RES holds a command and its code, before the event. -/
def State.resSet (s : State) (cmd code : Nat) : State := (s.setFld F.CYC_RES_CMD cmd).setFld F.CYC_RES_REFUSE code

theorem State.resSet_spec {cmd code : Nat} (hcmd : cmd < 8) (hcode : code < 256) : (s.resSet cmd code).fld F.CYC_RES_CMD = cmd ∧
    (s.resSet cmd code).fld F.CYC_RES_REFUSE = code ∧ (s.resSet cmd code).cyc = s.cyc ∧ (s.resSet cmd code).evl = s.evl ∧ (s.resSet cmd code).mem = s.mem ∧
    RegsKept s (s.resSet cmd code) [Reg.CYC_RES] := by
  unfold State.resSet
  refine ⟨?_, ?_, by simp, by simp, by simp, by simp⟩
  · simp (disch := decide)
    omega
  · simp (disch := decide)
    omega

theorem State.cycRes_spec {cmd code : Nat} (hcmd : cmd < 8) (hcode : code < 256) {t : State} (ht : t = s.cycRes cmd code) : t.fld F.CYC_RES_CMD = cmd ∧
    t.fld F.CYC_RES_REFUSE = code ∧ t.cyc = s.cyc ∧ (code ≠ 0 → cmd = 1 → Logs s t 0x0F17 0x7001 code) ∧
    (code ≠ 0 → cmd ≠ 1 → Logs s t 0x0F14 0x7001 (code + cmd * 256)) ∧ (code = 0 → RegsKept s t [Reg.CYC_RES]) ∧ SameMem s t ∧
    RegsKept s t [Reg.CYC_RES, Reg.EVL_LOST] := by
  obtain ⟨h1, h2, h3, h4, h5, h6⟩ := s.resSet_spec hcmd hcode
  have heq : s.cycRes cmd code = if code = 0 then s.resSet cmd code
    else if cmd = 1 then (s.resSet cmd code).log 0x0F17 0x7001 code else (s.resSet cmd code).log 0x0F14 0x7001 (code + cmd * 256) := rfl
  have hkept : RegsKept s (s.resSet cmd code) [Reg.CYC_RES, Reg.EVL_LOST] := fun a ha => h6 a (by simp_all)
  subst ht
  rw [heq]
  by_cases h0 : code = 0
  · rw [if_pos h0]
    exact ⟨h1, h2, h3, fun h => absurd h0 h, fun h => absurd h0 h, fun _ => h6, .of_eq h5, hkept⟩
  · rw [if_neg h0]
    by_cases hc : cmd = 1
    · rw [if_pos hc]
      refine ⟨by simpa using h1, by simpa using h2, by simpa using h3, fun _ _ => logs_log _ _ _ h4, fun _ h => absurd hc h, fun h => absurd h h0,
        .of_eq (by simpa using h5), by simpa using hkept⟩
    · rw [if_neg hc]
      refine ⟨by simpa using h1, by simpa using h2, by simpa using h3, fun _ h => absurd h hc, fun _ _ => logs_log _ _ _ h4, fun h => absurd h h0,
        .of_eq (by simpa using h5), by simpa using hkept⟩

/-- An accepted command writes CYC_RES and nothing else. -/
theorem State.cycRes_zero (cmd : Nat) : s.cycRes cmd 0 = s.resSet cmd 0 := rfl

@[simp] theorem State.cyc_resSet (cmd code : Nat) : (s.resSet cmd code).cyc = s.cyc := by simp [State.resSet]
@[simp] theorem State.mem_resSet (cmd code : Nat) : (s.resSet cmd code).mem = s.mem := by simp [State.resSet]
@[simp] theorem State.regsBut_resSet (cmd code : Nat) : RegsBut Reg.CYC_RES (s.resSet cmd code) s :=
  .of_rd fun b hb => by
    unfold State.resSet
    rw [State.rd_setFld_other _ _ _ hb, State.rd_setFld_other _ _ _ hb]

/-! ## Loading (R460) -/

variable {s}

theorem cycLoad_spec : (s.cyc.loading ≠ none → exec .cycLoad s = .next (s.cycRes 1 9)) ∧
    (s.cyc.loading = none → Gives .cycLoad s (fun t => t.flag F.CYC_RES_BUSY = true ∧ t.fld F.CYC_RES_REFUSE = 0 ∧ SameMem s t ∧
      t.cyc = { s.cyc with loading := some (s.fld F.CYC_SRC_LO_ADDR * 64 + s.fld F.CYC_SRC_HI_ADDR * 2 ^ 32, s.num Reg.CYC_SRC_LEN) } ∧
      RegsKept s t [Reg.CYC_RES])) := by
  refine ⟨fun h => if_pos (Option.isSome_iff_ne_none.mpr h), fun h => ⟨_, if_neg (by simp [h]), ?_⟩⟩
  rw [State.cycRes_zero]
  obtain ⟨-, h2, -⟩ := s.resSet_spec (cmd := 1) (code := 0) (by decide) (by decide)
  refine ⟨?_, ?_, .of_eq (by simp [State.setCyc]), rfl, by simp⟩
  · simp (disch := decide)
  · simp (disch := decide)
    exact h2

theorem exec_cycLoadDone_idle (a : ProgAreas) (h : s.cyc.loading = none) : exec (.cycLoadDone a) s = .next s := by
  simp only [exec, execCycLoadDone, h]

/-- Extending a measurement writes its words of VLT_MEAS. -/
theorem State.extendMeas_keeps (v : State) {r : Nat} (hr : r < 8) (d : List Nat) : (v.extendMeas r d).mem = v.mem ∧
    ∀ b, (b < 0xE0060200 ∨ 0xE0060400 ≤ b) → (v.extendMeas r d).rd b = v.rd b := by
  unfold State.extendMeas
  dsimp only
  refine List.foldlRecOn (motive := fun w : State => w.mem = v.mem ∧ ∀ b, (b < 0xE0060200 ∨ 0xE0060400 ≤ b) → w.rd b = v.rd b) _ _
    ⟨rfl, fun _ _ => rfl⟩ fun w hw i hi => ?_
  obtain ⟨hm, hrd⟩ := hw
  have hi := List.mem_range.mp hi
  refine ⟨hm, fun b hb => ?_⟩
  have ha : Reg.VLT_MEAS r i = 0xE0060200 + 0x40 * r + 4 * i := rfl
  rw [State.rd_setNum_other _ _ (by omega), hrd b hb]

section
variable {u : State} {a : ProgAreas} {src len : Nat} (h : s.cyc.loading = some (src, len))
  (hu : u = ((s.setCyc { s.cyc with loading := none }).setFld F.CYC_RES_BUSY 0).cycIrq 4)
include h hu

theorem exec_cycLoadDone_refused {c : Nat} {o : Option Prog} (hc : c ≠ 0) (hv : u.progVerify a src len = (c, o)) :
    exec (.cycLoadDone a) s = .next (u.cycRes 1 c) := by
  simp only [exec, execCycLoadDone, h, ← hu, hv]
  split
  · rename_i heq
    exact absurd (Prod.mk.inj heq).1 hc
  · rename_i heq
    rw [(Prod.mk.inj heq).1]

theorem exec_cycLoadDone_staged {p : Prog} (hv : u.progVerify a src len = (0, some p)) : exec (.cycLoadDone a) s =
    .next ((((u.cycRes 1 0).setFld F.CYC_STATUS_STAGED 1).extendMeas 4 p.digest).setCyc { u.cyc with staged := some p }) := by
  simp only [exec, execCycLoadDone, h, ← hu, hv]

theorem cycLoadDone_staged {p : Prog} (hv : u.progVerify a src len = (0, some p)) : Gives (.cycLoadDone a) s (fun t =>
      t.cyc = { s.cyc with loading := none, staged := some p } ∧
      t.flag F.CYC_STATUS_STAGED = true ∧ t.flag F.CYC_RES_BUSY = false ∧ t.fld F.CYC_RES_REFUSE = 0 ∧ t.rbit Reg.CYC_IRQ 4 = true ∧ SameMem s t) := by
  refine ⟨_, exec_cycLoadDone_staged h hu hv, ?_⟩
  rw [State.cycRes_zero]
  obtain ⟨hm, hrd⟩ := State.extendMeas_keeps ((u.resSet 1 0).setFld F.CYC_STATUS_STAGED 1) (r := 4) (by decide) p.digest
  obtain ⟨-, hcode, -⟩ := u.resSet_spec (cmd := 1) (code := 0) (by decide) (by decide)
  generalize ((u.resSet 1 0).setFld F.CYC_STATUS_STAGED 1).extendMeas 4 p.digest = v at *
  refine ⟨?_, ?_, ?_, ?_, ?_, .of_eq ?_⟩
  · have hcyc : u.cyc = { s.cyc with loading := none } := by simp [hu, State.setCyc]
    simp [State.setCyc, hcyc]
  · refine (State.flag_congr (hrd _ (by decide))).trans ?_
    simp (disch := decide)
  · refine (State.flag_congr (hrd _ (by decide))).trans ?_
    rw [hu]
    unfold State.resSet
    simp (disch := decide)
  · refine (State.fld_congr (hrd _ (by decide))).trans ?_
    simp (disch := decide)
    exact hcode
  · have hirq : u.rbit Reg.CYC_IRQ 4 = true := by rw [hu]; exact State.rbit_cycIrq _ (by decide)
    rw [← State.flag_eq_rbit] at hirq ⊢
    refine (State.flag_congr (hrd Reg.CYC_IRQ (by decide))).trans ?_
    simpa using hirq
  · refine hm.trans ?_
    rw [hu]
    simp [State.setCyc]

end

/-! ## States (R467) -/

theorem State.cycTo_spec (s : State) {v cause : Nat} (hv : v < 4) (hc : cause < 16) {t : State} (ht : t = s.cycTo v cause) : t.cycState = v ∧
    t.fld F.CYC_STATUS_CAUSE = cause ∧ t.fld F.CYC_STATUS_K = s.fld F.CYC_STATUS_K ∧ t.cyc = s.cyc ∧ t.rbit Reg.CYC_IRQ 1 = true ∧
    Logs s t 0x0F10 0x7001 (v + cause * 16) ∧ SameMem s t ∧ RegsKept s t [Reg.CYC_STATUS, Reg.CYC_IRQ, Reg.EVL_LOST] := by
  subst ht
  unfold State.cycTo State.cycState
  refine ⟨?_, ?_, ?_, by simp, ?_, logs_log _ _ _ (by simp), .of_eq (by simp), by simp⟩
  · simp (disch := decide)
    omega
  · simp (disch := decide)
    omega
  · simp (disch := decide)
  · simp (disch := decide)

/-- The state of a program that is about to start, before CYC_STATUS says so. -/
def State.cycPrepared (s : State) (cold : Bool) : State :=
  ((((s.setCyc { s.cyc with
    due := some cold, body := none, toks := [], used := [], bound := none, overran := false, run := none, winN := 0, idleMin := 0, idleSum := 0,
    execMax := 0 }).setNum Reg.CYC_CNT 0).setNum Reg.CYC_SKIP 0).setFld F.CYC_STATUS_K 0)

theorem State.cycPrepared_spec (s : State) (cold : Bool) {u : State} (hu : u = s.cycPrepared cold) : u.fld F.CYC_STATUS_K = 0 ∧ u.num Reg.CYC_CNT = 0 ∧
    u.num Reg.CYC_SKIP = 0 ∧ u.cyc.due = some cold ∧ u.cyc.cur = s.cyc.cur ∧ u.evl = s.evl ∧ u.mem = s.mem ∧
    RegsKept s u [Reg.CYC_CNT, Reg.CYC_SKIP, Reg.CYC_STATUS] := by
  subst hu
  unfold State.cycPrepared
  refine ⟨?_, ?_, ?_, ?_, ?_, by simp [State.setCyc], by simp [State.setCyc], fun a ha => ?_⟩
  · simp (disch := decide)
  · simp (disch := decide)
  · simp (disch := decide)
  · simp [State.setCyc]
  · simp [State.setCyc]
  · simp only [List.mem_cons, List.not_mem_nil, or_false, not_or] at ha
    obtain ⟨hcnt, hskip, hstat⟩ := ha
    rw [State.rd_setFld_other _ _ _ hstat, State.rd_setNum_other _ _ hskip, State.rd_setNum_other _ _ hcnt]
    rfl

theorem State.cycBegin_spec (s : State) (cold : Bool) {cause : Nat} (hc : cause < 16) {t : State} (ht : t = s.cycBegin cold none cause) : t.cycState = 2 ∧
    t.fld F.CYC_STATUS_CAUSE = cause ∧ t.fld F.CYC_STATUS_K = 0 ∧ t.num Reg.CYC_CNT = 0 ∧ t.num Reg.CYC_SKIP = 0 ∧ t.cyc.due = some cold ∧
    t.cyc.cur = s.cyc.cur ∧ t.rbit Reg.CYC_IRQ 1 = true ∧ Logs s t 0x0F10 0x7001 (2 + cause * 16) ∧ SameMem s t ∧
    RegsKept s t [Reg.CYC_CNT, Reg.CYC_SKIP, Reg.CYC_STATUS, Reg.CYC_IRQ, Reg.EVL_LOST] := by
  obtain ⟨u, hu⟩ : ∃ u, u = s.cycPrepared cold := ⟨_, rfl⟩
  have heq : t = u.cycTo 2 cause := ht.trans (hu ▸ rfl)
  obtain ⟨hk, hcnt, hskip, hdue, hcur, hevl, hmem, hregs⟩ := s.cycPrepared_spec cold hu
  obtain ⟨h1, h2, h3, h4, h5, h6, h7, h8⟩ := u.cycTo_spec (v := 2) (by decide) hc heq
  refine ⟨h1, h2, h3.trans hk, (State.num_of_kept h8 (by decide)).trans hcnt, (State.num_of_kept h8 (by decide)).trans hskip, h4 ▸ hdue, h4 ▸ hcur, h5,
    fun hlen => h6 (hevl ▸ hlen), fun b => (h7 b).trans (rdByte_of_mem hmem b), fun a ha => ?_⟩
  simp only [List.mem_cons, List.not_mem_nil, or_false, not_or] at ha
  rw [h8 a (by simp [ha]), hregs a (by simp [ha])]

theorem State.takeStaged_none {s : State} (h : s.cyc.staged = none) : s.takeStaged = s := by
  unfold State.takeStaged
  simp only [h]

theorem State.cycStart_cases (s : State) (cold : Bool) (n : Nat) : (s.cyc.staged.or s.cyc.cur = none → s.cycStart n cold = s.cycRes n 9) ∧
    (∀ p, s.cyc.staged.or s.cyc.cur = some p → (2 ≤ s.cycState ∨ s.holdsToken = false → s.cycStart n cold = s.cycRes n 9) ∧
      (s.cycState < 2 → s.holdsToken = true → (cold = false → s.cyc.store ≠ some p.retain → s.cycStart n cold = s.cycRes n 11) ∧
        (cold = false → s.cyc.store = some p.retain → s.cycStart n cold = (s.cycRes n 0).takeStaged.cycBegin false none 0) ∧
        (cold = true → s.cyc.staged ≠ none → s.cycStart n cold = (s.cycRes n 0).takeStaged.cycBegin true none 0) ∧
        (cold = true → s.cyc.staged = none → s.cycStart n cold = (s.cycRes n 0).clearForces.cycBegin true none 0))) := by
  unfold State.cycStart
  refine ⟨fun h => by simp only [h], fun p h => ?_⟩
  simp only [h]
  refine ⟨fun hr => if_pos (by simpa using hr), fun hs ht => ?_⟩
  rw [if_neg (by simp [ht]; omega)]
  refine ⟨fun hc hst => if_pos (by simp [hc, hst]), fun hc hst => ?_, fun hc hst => ?_, fun hc hst => ?_⟩
  · simp [hc, hst]
  · rw [if_neg (by simp [hc])]
    simp [hc, Option.isSome_iff_ne_none.mpr hst]
  · rw [if_neg (by simp [hc]), State.takeStaged_none (by rw [State.cycRes_zero, State.cyc_resSet, hst])]
    simp [hc, hst]

theorem State.ocFlush_none {s : State} (h : s.cyc.batch = none) : s.ocFlush = s := by
  unfold State.ocFlush
  cases hc : s.cyc.cur <;> simp only [h]

theorem State.takeForces_eq (s : State) : ∃ l, s.takeForces = s.setCyc { s.cyc with forces := l } ∧ l = s.forceTable := ⟨_, rfl, rfl⟩

theorem State.takeForces_keeps (s : State) : (∀ a, s.takeForces.rd a = s.rd a) ∧ s.takeForces.mem = s.mem ∧ s.takeForces.evl = s.evl ∧
    s.takeForces.time = s.time ∧ s.takeForces.cyc = { s.cyc with forces := s.forceTable } := by
  obtain ⟨l, heq, hl⟩ := s.takeForces_eq
  rw [heq, ← hl]
  exact ⟨fun _ => rfl, rfl, rfl, rfl, rfl⟩

theorem State.fld_takeForces (s : State) (f : Fld) : s.takeForces.fld f = s.fld f := State.fld_congr (s.takeForces_keeps.1 _)

theorem State.forces_takeForces (s : State) : s.takeForces.cyc.forces = s.takeForces.forceTable := by
  unfold State.takeForces
  rw [State.setCyc_cyc, State.forceTable_setCyc]

/-- The state of a program that stops: no cycle runs, none is due, no switch waits. -/
def State.cycEnded (s : State) : State := s.setCyc { s.cyc with run := none, due := none, body := none, bound := none, switch := none }

theorem State.cycStopWith_eq (s : State) (cause : Nat) : s.cycStopWith cause = (s.cycEnded.ocFlush.cycTo 1 cause).takeForces := rfl

theorem State.cycStopWith_spec (s : State) {cause : Nat} (hc : cause < 16) (hb : s.cyc.batch = none) {t : State} (ht : t = s.cycStopWith cause) : t.cycState = 1 ∧
    t.fld F.CYC_STATUS_CAUSE = cause ∧ t.cyc.run = none ∧ t.cyc.due = none ∧ t.cyc.switch = none ∧ t.cyc.forces = t.forceTable ∧
    Logs s t 0x0F10 0x7001 (1 + cause * 16) ∧ SameMem s t ∧ RegsKept s t [Reg.CYC_STATUS, Reg.CYC_IRQ, Reg.EVL_LOST] := by
  obtain ⟨u, hu⟩ : ∃ u, u = s.cycEnded := ⟨_, rfl⟩
  obtain ⟨w, hw⟩ : ∃ w, w = u.cycTo 1 cause := ⟨_, rfl⟩
  have heq : t = w.takeForces := by
    rw [ht, State.cycStopWith_eq, State.ocFlush_none (s := s.cycEnded) hb, hw, hu]
  obtain ⟨h1, h2, -, h4, -, h6, h7, h8⟩ := u.cycTo_spec (v := 1) (by decide) hc hw
  subst heq
  have hcyc : u.cyc = { s.cyc with run := none, due := none, body := none, bound := none, switch := none } := by rw [hu]; rfl
  have hevl : u.evl = s.evl := by rw [hu]; rfl
  have hsame : SameMem s u := by rw [hu]; exact fun _ => rfl
  have hregs : RegsKept s u [] := by rw [hu]; exact fun _ _ => rfl
  obtain ⟨hrd, hmem, hq, htime, hf⟩ := w.takeForces_keeps
  rw [h4, hcyc] at hf
  refine ⟨(State.fld_takeForces w _).trans h1, (State.fld_takeForces w _).trans h2, ?_, ?_, ?_, w.forces_takeForces, ?_, ?_, ?_⟩
  · rw [hf]
  · rw [hf]
  · rw [hf]
  · exact fun hlen => (Logs.congr h6 hq (congrArg TimeState.now htime)) (hevl ▸ hlen)
  · exact fun b => ((rdByte_of_mem hmem b).trans (h7 b)).trans (hsame b)
  · exact fun a ha => ((hrd a).trans (h8 a ha)).trans (hregs a List.not_mem_nil)

theorem cycStop_spec (s : State) : (s.cycState < 2 → exec .cycStop s = .next (s.cycRes 4 9)) ∧ (2 ≤ s.cycState → exec .cycStop s = .next ((s.cycRes 4 0).cycStopWith 0)) ∧
    (∀ x : Word, s.cycState ≠ 3 → exec (.cycProgramFault x) s = .next s) ∧
    (∀ x : Word, s.cycState = 3 → exec (.cycProgramFault x) s = .next ((s.log 0x0F19 0x7001 x.toNat).cycStopWith 2)) :=
  ⟨fun h => congrArg Host.Outcome.next (if_pos h), fun h => congrArg Host.Outcome.next (if_neg (by omega)), fun _ h => congrArg Host.Outcome.next (if_neg h),
    fun _ h => congrArg Host.Outcome.next (if_pos h)⟩

/-! ## A switch to the staged program (R471) -/

theorem exec_cycSwitch_state (h : s.cycState ≠ 3 ∨ s.holdsToken = false) : exec .cycSwitch s = .next (s.cycRes 6 9) := by
  have hr : s.cycState ≠ 3 ∨ (!s.holdsToken) = true := by simpa using h
  cases hc : s.cyc.cur <;> cases hs : s.cyc.staged <;> simp only [exec, execCycSwitch, hc, hs, if_pos hr]

theorem exec_cycSwitch_nothing (h3 : s.cycState = 3) (ht : s.holdsToken = true) (h : s.cyc.cur = none ∨ s.cyc.staged = none) :
    exec .cycSwitch s = .next (s.cycRes 6 14) := by
  have hr : ¬ (s.cycState ≠ 3 ∨ (!s.holdsToken) = true) := by simp [h3, ht]
  rcases h with h | h
  · simp only [exec, execCycSwitch, h, if_neg hr]
  · cases hc : s.cyc.cur <;> simp only [exec, execCycSwitch, h, hc, if_neg hr]

section
variable {c p : Prog} (h3 : s.cycState = 3) (ht : s.holdsToken = true) (hc : s.cyc.cur = some c) (hs : s.cyc.staged = some p)
include h3 ht hc hs

theorem cycSwitch_spec : (p.retain ≠ c.retain → exec .cycSwitch s = .next (s.cycRes 6 11)) ∧
      (p.retain = c.retain → Gives .cycSwitch s (fun t => t.cyc = { s.cyc with switch := some .boundary } ∧ t.fld F.CYC_RES_CMD = 6 ∧
        t.fld F.CYC_RES_REFUSE = 0 ∧ SameMem s t ∧ RegsKept s t [Reg.CYC_RES])) := by
  have hr : ¬ (s.cycState ≠ 3 ∨ (!s.holdsToken) = true) := by simp [h3, ht]
  obtain ⟨h1, h2, -, -, h5, h6⟩ := s.resSet_spec (cmd := 6) (code := 0) (by decide) (by decide)
  refine ⟨fun h => ?_, fun h => ⟨(s.resSet 6 0).setCyc { s.cyc with switch := some .boundary }, ?_, rfl, h1, h2, .of_eq h5, h6⟩⟩
  · simp only [exec, execCycSwitch, hc, hs, if_neg hr, if_pos h]
  · simp only [exec, execCycSwitch, hc, hs, if_neg hr, h, ne_eq, not_true_eq_false, if_false]
    rfl

end

/-! ## Online change (R470) -/

/-- The state with an online change refused and reported. -/
def State.ocRefused (s : State) (code : Nat) : State := ((s.cycRes 5 code).ocReport code 0 []).cycIrq 3

theorem exec_cycOnlineChange_idle (h : s.cyc.cur = none ∨ s.cycState = 0) : exec .cycOnlineChange s = .next (s.ocRefused 9) := by
  cases hc : s.cyc.cur with
  | none =>
    simp only [exec, execCycOnlineChange, hc]
    rfl
  | some p =>
    have h0 := h.resolve_left (by simp [hc])
    simp only [exec, execCycOnlineChange, hc, if_pos h0]
    rfl

section
variable {p : Prog} {n a r : Nat} (hc : s.cyc.cur = some p) (h0 : s.cycState ≠ 0)
include hc h0

theorem exec_cycOnlineChange_pending (hb : s.cyc.batch ≠ none) : exec .cycOnlineChange s = .next (s.ocRefused 12) := by
  simp only [exec, execCycOnlineChange, hc, if_neg h0, if_pos (Option.isSome_iff_ne_none.mpr hb)]
  rfl

variable (hb : s.cyc.batch = none) (ha : a = s.fld F.CYC_OC_SRC_LO_ADDR * 16 + s.fld F.CYC_OC_SRC_HI_ADDR * 2 ^ 32)
  (hr : r = s.fld F.CYC_OC_RPT_LO_ADDR * 16 + s.fld F.CYC_OC_RPT_HI_ADDR * 2 ^ 32) (hn : n = s.fld F.CYC_OC_N_N)
include hb ha hr hn

/-- What an online change of a program in a state does, by its batch. -/
theorem exec_cycOnlineChange_batch : exec .cycOnlineChange s =
    if n = 0 ∨ 4096 < n ∨ (!inDram a (16 * n)) = true ∨ (!inDram r 12) = true then .next (s.ocRefused 10)
    else if ((List.range n).map (fun i => s.ocEntry p (a + 16 * i))).any (fun e => e.isNone) then .next (s.ocRefused 13)
    else .next (if (s.resSet 5 0).cycState = 1
      then ((s.resSet 5 0).setCyc { s.cyc with batch := some (((List.range n).map (fun i => s.ocEntry p (a + 16 * i))).filterMap id) }).ocFlush
      else (s.resSet 5 0).setCyc { s.cyc with batch := some (((List.range n).map (fun i => s.ocEntry p (a + 16 * i))).filterMap id) }) := by
  have hb' : ¬ s.cyc.batch.isSome = true := by simp [hb]
  subst ha hr hn
  simp only [exec, execCycOnlineChange, hc, if_neg h0, if_neg hb', State.cycRes_zero, State.cyc_resSet]
  rfl

theorem cycOnlineChange_spec : (n = 0 ∨ 4096 < n ∨ inDram a (16 * n) = false ∨ inDram r 12 = false → exec .cycOnlineChange s = .next (s.ocRefused 10)) ∧
    (0 < n → n ≤ 4096 → inDram a (16 * n) = true → inDram r 12 = true →
      ((∃ i, i < n ∧ s.ocEntry p (a + 16 * i) = none) → exec .cycOnlineChange s = .next (s.ocRefused 13)) ∧
      ∀ es, ((List.range n).map (fun i => s.ocEntry p (a + 16 * i)) = es.map some →
        (s.cycState = 1 → exec .cycOnlineChange s = .next ((s.cycRes 5 0).setCyc { s.cyc with batch := some es }).ocFlush) ∧
        (s.cycState ≠ 1 → Gives .cycOnlineChange s (fun t => t.cyc = { s.cyc with batch := some es } ∧ t.fld F.CYC_RES_REFUSE = 0 ∧ SameMem s t ∧
          RegsKept s t [Reg.CYC_RES])))) := by
  rw [exec_cycOnlineChange_batch hc h0 hb ha hr hn]
  refine ⟨fun h => if_pos (by simpa using h), fun hn0 hn4 hia hir => ?_⟩
  have hok : ¬ (n = 0 ∨ 4096 < n ∨ (!inDram a (16 * n)) = true ∨ (!inDram r 12) = true) := by
    simp [hia, hir]
    omega
  have hst : (s.resSet 5 0).cycState = s.cycState := by
    unfold State.cycState
    simp
  rw [if_neg hok]
  refine ⟨fun hbad => if_pos ?_, fun es hes => ?_⟩
  · obtain ⟨i, hi, hnone⟩ := hbad
    exact List.any_eq_true.mpr ⟨none, List.mem_map.mpr ⟨i, List.mem_range.mpr hi, hnone⟩, rfl⟩
  · obtain ⟨-, h2, -, -, h5, h6⟩ := s.resSet_spec (cmd := 5) (code := 0) (by decide) (by decide)
    have hgood : ¬ (es.map some).any (fun e => e.isNone) = true := by simp
    have hfil : (es.map some).filterMap id = es := by simp [List.filterMap_map]
    have hex := exec_cycOnlineChange_batch hc h0 hb ha hr hn
    rw [if_neg hok, hes, if_neg hgood, hfil, hst] at hex
    rw [hes, if_neg hgood, hfil, hst]
    refine ⟨fun h1 => by rw [if_pos h1]; rfl, fun h1 => ⟨_, hex.trans (congrArg Host.Outcome.next (if_neg h1)), rfl, h2, .of_eq h5, h6⟩⟩

end

/-! ## The cycle (R461 to R465) -/

theorem exec_cycStartCatch_idle (q : Word) (arr : List (Nat × Token)) (h : s.cyc.cur = none) : exec (.cycStartCatch q arr) s = .next s := by
  simp only [exec, execCycStartCatch, h]

theorem State.isStart_iff (u : State) (p : Prog) (q : Nat) : u.isStart p q = true ↔ u.flag (F.CT_CTRL_RUNNING p.crew) = true ∧ cseqEntry q = 0 ∧
    strokeOf q = strokeOf (u.num (Reg.CT_LAST_CSEQ p.crew)) ∧ strokeOf q % p.period = p.phase ∧ u.cyc.startAt ≠ some q := by
  simp [State.isStart, and_assoc]

section
variable {u v : State} {p : Prog} {cs : Word} {arr : List (Nat × Token)} {q : Nat} (hc : s.cyc.cur = some p) (hq : q = cs.toNat) (hu : u = s.cycArrive arr)
  (hv : v = (u.setCyc { u.cyc with startAt := some q }).closeCycle.sendOwed q)
include hc hq hu hv

theorem exec_cycStartCatch : exec (.cycStartCatch cs arr) s = if !u.isStart p q then .next u
    else if v.cycState = 1 then .next (v.stopAction p q)
    else if v.cycState = 2 then .next ((v.cycTo 3 (v.fld F.CYC_STATUS_CAUSE)).beginCycle p q)
    else if v.cyc.run.isSome then .next (v.skipCycle p q)
    else if v.cyc.switch = some .idle then .next (v.setCyc { v.cyc with switch := none, due := some false })
    else .next (v.beginCycle p q) := by
  subst hq hu hv
  simp only [exec, execCycStartCatch, hc]

theorem cycStartCatch_spec : (u.isStart p q = false → exec (.cycStartCatch cs arr) s = .next u) ∧
    (u.isStart p q = true → (v.cycState = 1 → exec (.cycStartCatch cs arr) s = .next (v.stopAction p q)) ∧
      (v.cycState = 2 → exec (.cycStartCatch cs arr) s = .next ((v.cycTo 3 (v.fld F.CYC_STATUS_CAUSE)).beginCycle p q)) ∧
      (v.cycState = 3 → v.cyc.run ≠ none → exec (.cycStartCatch cs arr) s = .next (v.skipCycle p q)) ∧
      (v.cycState = 3 → v.cyc.run = none → v.cyc.switch = some .idle → exec (.cycStartCatch cs arr) s =
        .next (v.setCyc { v.cyc with switch := none, due := some false })) ∧
      (v.cycState = 3 → v.cyc.run = none → v.cyc.switch ≠ some .idle → exec (.cycStartCatch cs arr) s = .next (v.beginCycle p q))) := by
  rw [exec_cycStartCatch hc hq hu hv]
  refine ⟨fun h => if_pos (by simp [h]), fun h => ?_⟩
  rw [if_neg (by simp [h])]
  refine ⟨fun h1 => if_pos h1, fun h2 => (if_neg (by omega)).trans (if_pos h2), fun h3 hr => ?_, fun h3 hr hs => ?_, fun h3 hr hs => ?_⟩
  · rw [if_neg (by omega), if_neg (by omega), if_pos (Option.isSome_iff_ne_none.mpr hr)]
  · rw [if_neg (by omega), if_neg (by omega), if_neg (by simp [hr]), if_pos hs]
  · rw [if_neg (by omega), if_neg (by omega), if_neg (by simp [hr]), if_neg hs]

end

theorem State.time_putRetained (s : State) (p : Prog) (i : Nat) (l : List Nat) : (s.putRetained p i l).time = s.time := by
  induction l generalizing s i with
  | nil => rfl
  | cons b l ih =>
    unfold State.putRetained
    rw [ih]
    simp

theorem State.time_putBody (s : State) (p : Prog) (all : Bool) (a : Nat) (l : List Nat) : (s.putBody p all a l).time = s.time := by
  induction l generalizing s a with
  | nil => rfl
  | cons b l ih =>
    unfold State.putBody
    rw [ih]
    split <;> simp

theorem State.time_playJournal (s : State) : s.playJournal.time = s.time := by
  unfold State.playJournal
  exact fold_field State.time (fun u e => by simp) _ _

theorem State.time_cycInit (s : State) (p : Prog) (cold : Bool) : (s.cycInit p cold).time = s.time := by
  unfold State.cycInit
  dsimp only
  cases cold
  · simp only [Bool.false_eq_true, if_false]
    split
    · simp [State.setCyc, State.time_putBody, State.time_playJournal, time_wrList]
    · simp [State.setCyc, State.time_playJournal, time_wrList]
  · simp only [if_true]
    split <;> simp [State.setCyc, State.time_putRetained, time_wrList]

/-- An item of the input area takes a value and a status, or its force. -/
def State.putInput (s : State) (a sig : Nat) (v : Word) (st : Nat) : State :=
  match s.itemForce 1 sig with
  | some f => (s.wrMem a 4 f.value).wrMem (a + 4) 4 0
  | none => (s.wrWord a v).wrMem (a + 4) 4 st

theorem State.time_putInput (s : State) (a sig : Nat) (v : Word) (st : Nat) : (s.putInput a sig v st).time = s.time := by
  unfold State.putInput
  split
  · simp [time_wrMem]
  · simp [time_wrMem, State.wrWord]

theorem State.cycInput_none {s : State} {p : Prog} {q : Nat} {i : Nat × Nat} (h : newestToken q (Tab.get (fun _ => []) s.cyc.toks i.1) = none) :
    s.cycInput p q i = s.putInput (p.areas.inImg.1 + i.2) i.1 0 1 := by
  unfold State.cycInput
  simp only [h]
  rfl

theorem State.time_cycInput (s : State) (p : Prog) (q : Nat) (i : Nat × Nat) : (s.cycInput p q i).time = s.time := by
  cases h : newestToken q (Tab.get (fun _ => []) s.cyc.toks i.1) with
  | none => rw [State.cycInput_none h, State.time_putInput]
  | some x =>
    obtain ⟨link, t⟩ := x
    unfold State.cycInput
    simp only [h]
    change ((State.putInput _ _ _ _ _).time) = _
    rw [State.time_putInput]
    simp only [apply_ite Prod.snd, apply_ite State.time, State.steady_check, State.time_logIf, State.time_freshWord, State.time_setCyc, ite_self]

theorem State.beginCycle_spec (s : State) (p : Prog) {q : Nat} (hq : q < 2 ^ 32) {t : State} (ht : t = s.beginCycle p q) : t.cyc.run = some (q, s.time.cycle) ∧
    t.flag F.CYC_IRQ_START = true ∧ t.num Reg.CYC_START_CSEQ = q := by
  obtain ⟨u, hu⟩ : ∃ u : State, u = p.ins.foldl (fun s i => s.cycInput p q i) (match s.cyc.due with | some cold => s.cycInit p cold | none => s) := ⟨_, rfl⟩
  have htime : u.time = s.time := by
    rw [hu]
    refine (fold_field State.time (fun u i => u.time_cycInput p q i) _ _).trans ?_
    split
    · exact s.time_cycInit p _
    · rfl
  have heq : t = ((u.setCyc { u.cyc with run := some (q, u.time.cycle), overran := false }).setNum Reg.CYC_START_CSEQ q).setFld F.CYC_IRQ_START 1 := by
    rw [ht, hu]
    rfl
  rw [htime] at heq
  subst heq
  refine ⟨?_, ?_, ?_⟩
  · simp
  · simp (disch := decide)
  · simp (disch := decide)
    omega

/-! ## The end of a cycle (R464, R466) -/

theorem exec_cycDone_idle (h : s.cyc.cur = none ∨ s.cyc.run = none) : exec .cycDone s = .next s := by
  rcases h with h | h
  · simp only [exec, execCycDone, h]
  · cases hc : s.cyc.cur <;> simp only [exec, execCycDone, h, hc]

/-- The end of a cycle is counted, and its run is over. -/
def State.cycCounted (s : State) (c : Nat) : State :=
  let u := if s.cyc.overran then s else s.setFld F.CYC_STATUS_K 0
  let u := u.setNum Reg.CYC_CNT (u.num Reg.CYC_CNT + 1)
  (u.setCyc { u.cyc with run := none, bound := some u.time.cycle, execMax := max u.cyc.execMax (cycNs (u.time.cycle - c)) }).setFld F.CYC_IRQ_START 0

/-- A pending online change is applied, unless a switch waits; the journal is empty. -/
def State.cycSettled (s : State) : State :=
  let u := if s.cyc.switch = some .boundary then s else s.ocFlush
  u.setCyc { u.cyc with journal := [] }

theorem exec_cycDone {p : Prog} {q c : Nat} (hc : s.cyc.cur = some p) (hr : s.cyc.run = some (q, c)) : exec .cycDone s =
    .next ((((s.takeForces.cycOutputs p q).cycCounted c).cycSettled.cutBoundary.mirBoundary).cycSwitchNow p) := by
  simp only [exec, execCycDone, hc, hr]
  rfl

/-- What the outputs of a cycle leave as it was. -/
def OutKept (s t : State) : Prop := t.cyc.forces = s.cyc.forces ∧ t.cyc.overran = s.cyc.overran ∧ t.time = s.time ∧ RegsKept s t [Reg.SEQ_PFLAG_LO, Reg.SEQ_PFLAG_HI]

theorem State.outKept_cycFlag (u : State) (i : Nat) (b : Bool) : OutKept u (u.cycFlag i b) := by
  unfold State.cycFlag
  split <;> exact ⟨by simp, by simp, by simp, by simp⟩

theorem State.outKept_cycSend (u : State) (o : Nat) (v : Word) (st : BitVec 4) (q : Nat) : OutKept u (u.cycSend o v st q) := by
  have hemit : (u.emitToks 8 [mkToken v (BitVec.ofNat 12 o) st q]).time = u.time ∧ ∀ a, (u.emitToks 8 [mkToken v (BitVec.ofNat 12 o) st q]).rd a = u.rd a := by
    simp [State.emitToks]
  unfold State.cycSend
  exact ⟨by simp, by simp, by simpa using hemit.1, fun a _ => by simpa using hemit.2 a⟩

theorem State.outKept_cycOutputs (u : State) (p : Prog) (q : Nat) : OutKept u (u.cycOutputs p q) := by
  unfold State.cycOutputs
  refine fold_keep (OutKept u) (fun w o h => ?_) _ ⟨rfl, rfl, rfl, fun _ _ => rfl⟩
  have step {x : State} (hx : OutKept w x) : OutKept u x :=
    ⟨hx.1.trans h.1, hx.2.1.trans h.2.1, hx.2.2.1.trans h.2.2.1, fun a ha => (hx.2.2.2 a ha).trans (h.2.2.2 a ha)⟩
  dsimp only
  split
  · exact step (w.outKept_cycFlag ..)
  · split <;> exact step (w.outKept_cycSend ..)

theorem State.cycCounted_spec (u : State) (c : Nat) {v : State} (hv : v = u.cycCounted c) : v.cyc.run = none ∧ v.cyc.bound = some u.time.cycle ∧
    v.cyc.forces = u.cyc.forces ∧ v.num Reg.CYC_CNT = (u.num Reg.CYC_CNT + 1) % 2 ^ 32 ∧ v.flag F.CYC_IRQ_START = false ∧
    (u.cyc.overran = false → v.fld F.CYC_STATUS_K = 0) := by
  subst hv
  unfold State.cycCounted
  cases u.cyc.overran
  · refine ⟨?_, ?_, ?_, ?_, ?_, fun _ => ?_⟩ <;> simp (disch := decide)
  · refine ⟨?_, ?_, ?_, ?_, ?_, fun h => nomatch h⟩ <;> simp (disch := decide)

theorem State.ocApply_keeps (u : State) (p : Prog) (e : OcEntry) : (u.ocApply p e).cyc.run = u.cyc.run ∧ (u.ocApply p e).cyc.bound = u.cyc.bound ∧
    (u.ocApply p e).cyc.forces = u.cyc.forces ∧ RegsKept u (u.ocApply p e) [] := by
  obtain ⟨w, hw⟩ : ∃ w : State, w = ((e.addrs p).zip (leBytes 8 e.value)).foldl (fun s x => s.wrByte x.1 (BitVec.ofNat 8 x.2)) u := ⟨_, rfl⟩
  have hkeep : w.cyc = u.cyc ∧ RegsKept u w [] := by
    rw [hw]
    exact fold_keep (fun w : State => w.cyc = u.cyc ∧ RegsKept u w []) (fun x y h => ⟨by simpa using h.1, by simpa using h.2⟩) _ ⟨rfl, fun _ _ => rfl⟩
  have heq : u.ocApply p e = if e.area = 1 then w.setCyc { w.cyc with journal := w.cyc.journal.filter (fun x => !(e.addrs p).contains x.1) } else w := by
    rw [hw]
    rfl
  rw [heq]
  split
  · exact ⟨by simp [hkeep.1], by simp [hkeep.1], by simp [hkeep.1], hkeep.2⟩
  · exact ⟨by rw [hkeep.1], by rw [hkeep.1], by rw [hkeep.1], hkeep.2⟩

theorem State.cyc_wrList (u : State) (a : Nat) (l : List Nat) : (u.wrList a l).cyc = u.cyc := by
  induction l generalizing u a with
  | nil => rfl
  | cons b l ih =>
    rw [State.wrList, ih]
    simp

theorem State.ocReport_keeps (u : State) (code n : Nat) (l : List (Nat × Nat)) : (u.ocReport code n l).cyc = u.cyc ∧ RegsKept u (u.ocReport code n l) [] := by
  obtain ⟨a, ws, heq⟩ : ∃ a ws, u.ocReport code n l = if inDram a (4 * ws.length) then u.wrList a (wordBytes ws) else u := ⟨_, _, rfl⟩
  rw [heq]
  split
  · exact ⟨u.cyc_wrList _ _, by simp⟩
  · exact ⟨rfl, fun _ _ => rfl⟩

/-- A batch with its last entries applied. -/
def State.ocApplied (u : State) (p : Prog) (l : List OcEntry) : State :=
  let w := l.foldl (fun s e => s.ocApply p e) u
  w.setCyc { w.cyc with batch := none }

theorem State.ocApplied_keeps (u : State) (p : Prog) (l : List OcEntry) {v : State} (hv : v = u.ocApplied p l) : v.cyc.run = u.cyc.run ∧
    v.cyc.bound = u.cyc.bound ∧ v.cyc.forces = u.cyc.forces ∧ RegsKept u v [] := by
  obtain ⟨w, hw⟩ : ∃ w, w = l.foldl (fun s e => s.ocApply p e) u := ⟨_, rfl⟩
  have hkeep : w.cyc.run = u.cyc.run ∧ w.cyc.bound = u.cyc.bound ∧ w.cyc.forces = u.cyc.forces ∧ RegsKept u w [] := by
    rw [hw]
    refine fold_keep (fun w : State => w.cyc.run = u.cyc.run ∧ w.cyc.bound = u.cyc.bound ∧ w.cyc.forces = u.cyc.forces ∧ RegsKept u w []) (fun w e h => ?_) _
      ⟨rfl, rfl, rfl, fun _ _ => rfl⟩
    obtain ⟨h1, h2, h3, h4⟩ := h
    obtain ⟨g1, g2, g3, g4⟩ := w.ocApply_keeps p e
    exact ⟨g1.trans h1, g2.trans h2, g3.trans h3, fun a ha => (g4 a ha).trans (h4 a ha)⟩
  have heq : v = w.setCyc { w.cyc with batch := none } := by
    rw [hv, hw]
    rfl
  subst heq
  exact hkeep

theorem State.ocRun_eq (u : State) (p : Prog) (l : List OcEntry) : ∃ n ts d, u.ocRun p l = (((u.ocApplied p l).ocReport 0 n ts).cycIrq 3).log 0x0F13 0x7001 d :=
  ⟨_, _, _, rfl⟩

theorem State.ocFlush_keeps (u : State) : u.ocFlush.cyc.run = u.cyc.run ∧ u.ocFlush.cyc.bound = u.cyc.bound ∧ u.ocFlush.cyc.forces = u.cyc.forces ∧
    u.ocFlush.flag F.CYC_IRQ_START = u.flag F.CYC_IRQ_START ∧ RegsKept u u.ocFlush [Reg.CYC_IRQ, Reg.EVL_LOST] := by
  unfold State.ocFlush
  split
  · next p l _ _ =>
    obtain ⟨n, ts, d, heq⟩ := u.ocRun_eq p l
    obtain ⟨v, hv⟩ : ∃ v, v = u.ocApplied p l := ⟨_, rfl⟩
    obtain ⟨w, hw⟩ : ∃ w, w = v.ocReport 0 n ts := ⟨_, rfl⟩
    obtain ⟨h1, h2, h3, h4⟩ := u.ocApplied_keeps p l hv
    obtain ⟨hcyc, hregs⟩ := v.ocReport_keeps 0 n ts
    rw [← hw] at hcyc hregs
    have hkept : RegsKept u w [] := fun a ha => (hregs a ha).trans (h4 a ha)
    rw [heq, ← hv, ← hw]
    unfold State.cycIrq
    refine ⟨by simpa [hcyc] using h1, by simpa [hcyc] using h2, by simpa [hcyc] using h3, ?_, fun a ha => ?_⟩
    · rw [← State.flag_congr (f := F.CYC_IRQ_START) (hkept _ List.not_mem_nil)]
      simp (disch := decide)
      exact w.rbit_setRbit_apart Reg.CYC_IRQ true (i := 3) (j := 0) (by decide) (by decide)
    · simp only [List.mem_cons, List.not_mem_nil, or_false, not_or] at ha
      rw [State.rd_log _ _ _ _ ha.2, State.rd_setRbit_other _ _ _ ha.1, hkept a List.not_mem_nil]
  · exact ⟨rfl, rfl, rfl, rfl, fun _ _ => rfl⟩

theorem State.cycSettled_spec (v : State) {u : State} (hu : u = v.cycSettled) : u.cyc.run = v.cyc.run ∧ u.cyc.bound = v.cyc.bound ∧ u.cyc.journal = [] ∧
    u.cyc.forces = v.cyc.forces ∧ u.flag F.CYC_IRQ_START = v.flag F.CYC_IRQ_START ∧ RegsKept v u [Reg.CYC_IRQ, Reg.EVL_LOST] := by
  obtain ⟨w, hw⟩ : ∃ w : State, w = if v.cyc.switch = some .boundary then v else v.ocFlush := ⟨_, rfl⟩
  have heq : u = w.setCyc { w.cyc with journal := [] } := by
    rw [hu, hw]
    rfl
  have hkeep : w.cyc.run = v.cyc.run ∧ w.cyc.bound = v.cyc.bound ∧ w.cyc.forces = v.cyc.forces ∧ w.flag F.CYC_IRQ_START = v.flag F.CYC_IRQ_START ∧
      RegsKept v w [Reg.CYC_IRQ, Reg.EVL_LOST] := by
    rw [hw]
    split
    · exact ⟨rfl, rfl, rfl, rfl, fun _ _ => rfl⟩
    · exact v.ocFlush_keeps
  obtain ⟨h1, h2, h3, h4, h5⟩ := hkeep
  subst heq
  exact ⟨h1, h2, rfl, h3, h4, h5⟩

theorem cycDone_spec {p : Prog} {q c : Nat} (hc : s.cyc.cur = some p) (hr : s.cyc.run = some (q, c)) : ∃ u : State, exec .cycDone s =
    .next ((u.cutBoundary.mirBoundary).cycSwitchNow p) ∧ u.cyc.run = none ∧ u.cyc.bound = some s.time.cycle ∧ u.cyc.journal = [] ∧
    u.cyc.forces = s.forceTable ∧ u.num Reg.CYC_CNT = (s.num Reg.CYC_CNT + 1) % 2 ^ 32 ∧ u.flag F.CYC_IRQ_START = false ∧
    (s.cyc.overran = false → u.fld F.CYC_STATUS_K = 0) := by
  obtain ⟨hrd, -, -, htime, hcyc⟩ := s.takeForces_keeps
  obtain ⟨x, hx⟩ : ∃ x, x = s.takeForces.cycOutputs p q := ⟨_, rfl⟩
  obtain ⟨v, hv⟩ : ∃ v, v = x.cycCounted c := ⟨_, rfl⟩
  obtain ⟨u, hu⟩ : ∃ u, u = v.cycSettled := ⟨_, rfl⟩
  have hout : OutKept s.takeForces x := hx ▸ s.takeForces.outKept_cycOutputs p q
  obtain ⟨hforces, hover, htime', hregs⟩ := hout
  obtain ⟨hrun, hbound, hforces', hcnt, hstart, hk⟩ := x.cycCounted_spec c hv
  obtain ⟨hrun', hbound', hjour, hforces'', hstart', hregs'⟩ := v.cycSettled_spec hu
  have hcnt' : x.num Reg.CYC_CNT = s.num Reg.CYC_CNT := (State.num_of_kept hregs (by decide)).trans (congrArg BitVec.toNat (hrd _))
  refine ⟨u, (exec_cycDone hc hr).trans (by rw [hu, hv, hx]), hrun'.trans hrun, ?_, hjour, ?_, ?_, hstart'.trans hstart, fun ho => ?_⟩
  · rw [hbound', hbound, htime', htime]
  · rw [hforces'', hforces', hforces, hcyc]
  · rw [State.num_of_kept hregs' (by decide), hcnt, hcnt']
  · rw [State.fld_congr (hregs' _ (by decide))]
    exact hk (hover.trans (hcyc ▸ ho))

/-! ## Forces (R472, R473) -/

/-- A program that does not run takes the table of forces over at once. -/
def State.forcesSettled (s : State) : State := if s.cycState < 2 then s.takeForces else s

theorem State.forcesSettled_keeps (u : State) {t : State} (ht : t = u.forcesSettled) : (∀ a, t.rd a = u.rd a) ∧ t.mem = u.mem ∧ t.evl = u.evl ∧
    t.time = u.time ∧ (u.cycState < 2 → t.cyc = { u.cyc with forces := t.forceTable }) ∧ (2 ≤ u.cycState → t = u) := by
  subst ht
  unfold State.forcesSettled
  by_cases h : u.cycState < 2
  · rw [if_pos h]
    obtain ⟨h1, h2, h3, h4, h5⟩ := u.takeForces_keeps
    refine ⟨h1, h2, h3, h4, fun _ => ?_, fun h' => absurd h (by omega)⟩
    rw [← u.forces_takeForces, h5]
  · rw [if_neg h]
    exact ⟨fun _ => rfl, rfl, rfl, rfl, fun h' => absurd h' h, fun _ => rfl⟩

/-- A word of an entry of the table of forces written, and its change reported. -/
def State.forceWritten (s : State) (x : Fin 1024) (w : Fin 4) (v : Word) : State :=
  let u := if w = 0 then s.wr (Reg.CYC_FRC0 x) (v &&& 0xBFFFFFFF) else if w = 1 then s
    else s.wr (if w = 2 then Reg.CYC_FRC_VALUE_LO x else Reg.CYC_FRC_VALUE_HI x) v
  u.logIf (w == 0 && (u.flag (F.CYC_FRC0_ACTIVE x) || s.flag (F.CYC_FRC0_ACTIVE x))) 0x0F15 0x7001 (x.val + if u.flag (F.CYC_FRC0_ACTIVE x) then 0 else 2 ^ 31)

theorem exec_cycForceWrite (x : Fin 1024) (w : Fin 4) (v : Word) : exec (.cycForceWrite x w v) s = .next (s.forceWritten x w v).forcesSettled := rfl

theorem State.forceWritten_zero (s : State) (x : Fin 1024) (v : Word) {u : State} (hu : u = s.wr (Reg.CYC_FRC0 x) (v &&& 0xBFFFFFFF)) :
    s.forceWritten x 0 v = u.logIf (u.flag (F.CYC_FRC0_ACTIVE x) || s.flag (F.CYC_FRC0_ACTIVE x)) 0x0F15 0x7001
      (x.val + if u.flag (F.CYC_FRC0_ACTIVE x) then 0 else 2 ^ 31) := by
  subst hu
  rfl

theorem State.forceWritten_one (s : State) (x : Fin 1024) (v : Word) : s.forceWritten x 1 v = s := rfl
theorem State.forceWritten_lo (s : State) (x : Fin 1024) (v : Word) : s.forceWritten x 2 v = s.wr (Reg.CYC_FRC_VALUE_LO x) v := rfl
theorem State.forceWritten_hi (s : State) (x : Fin 1024) (v : Word) : s.forceWritten x 3 v = s.wr (Reg.CYC_FRC_VALUE_HI x) v := rfl

theorem bitsOf_one (v : Word) (i : Nat) : (bitsOf v i 1 == 1) = v.getLsbD i := by
  rw [BitVec.getLsbD, Nat.testBit_eq_decide_div_mod_eq, bitsOf, Nat.shiftRight_eq_div_pow, Nat.pow_one, beq_eq_decide]

theorem cycForceWrite_entry (s : State) (x : Fin 1024) (v : Word) : Gives (.cycForceWrite x 0 v) s (fun t => t.rd (Reg.CYC_FRC0 x) = v &&& 0xBFFFFFFF ∧
      (s.flag (F.CYC_FRC0_ACTIVE x) = true → Logs s t 0x0F15 0x7001 (x.val + if v.getLsbD 31 then 0 else 2 ^ 31)) ∧
      (s.cycState < 2 → t.cyc = { s.cyc with forces := t.forceTable }) ∧ (2 ≤ s.cycState → t.cyc = s.cyc) ∧ SameMem s t ∧
      RegsKept s t [Reg.CYC_FRC0 x, Reg.EVL_LOST]) := by
  have ha : Reg.CYC_FRC0 x = 0xE00F4000 + 0x10 * x.val := rfl
  obtain ⟨u, hu⟩ : ∃ u, u = s.wr (Reg.CYC_FRC0 x) (v &&& 0xBFFFFFFF) := ⟨_, rfl⟩
  have hword : u.rd (Reg.CYC_FRC0 x) = v &&& 0xBFFFFFFF := by rw [hu, State.rd_wr_self]
  have hon : u.flag (F.CYC_FRC0_ACTIVE x) = v.getLsbD 31 := by
    rw [State.flag, State.fld, hword]
    exact (bitsOf_one _ _).trans (by simp)
  obtain ⟨w, hw⟩ : ∃ w, w = s.forceWritten x 0 v := ⟨_, rfl⟩
  have hlog := hw.trans (s.forceWritten_zero x v hu)
  rw [hon] at hlog
  have hcyc : w.cyc = s.cyc := by simp [hlog, hu]
  have hmem : w.mem = s.mem := by simp [hlog, hu]
  have hregs : RegsKept s w [Reg.CYC_FRC0 x, Reg.EVL_LOST] := by rw [hlog, hu]; simp
  have hrd : w.rd (Reg.CYC_FRC0 x) = v &&& 0xBFFFFFFF := by
    rw [hlog, State.rd_logIf _ _ _ _ _ (by grind), hword]
  have hstate : w.cycState = s.cycState := State.fld_congr (hregs _ (by grind))
  obtain ⟨t, ht⟩ : ∃ t, t = w.forcesSettled := ⟨_, rfl⟩
  obtain ⟨h1, h2, h3, h4, h5, h6⟩ := w.forcesSettled_keeps ht
  rw [hstate, hcyc] at h5
  rw [hstate] at h6
  refine ⟨t, by rw [exec_cycForceWrite, ← hw, ← ht], (h1 _).trans hrd, fun hwas => ?_, h5, fun h => (h6 h ▸ hcyc), .of_eq (h2.trans hmem), fun a ha => (h1 a).trans (hregs a ha)⟩
  have hl : Logs s w 0x0F15 0x7001 (x.val + if v.getLsbD 31 then 0 else 2 ^ 31) := by
    rw [hlog, hwas, Bool.or_true]
    exact logs_log _ _ _ (by simp [hu])
  exact hl.congr h3 (congrArg TimeState.now h4)

theorem cycForceWrite_reserved (s : State) (x : Fin 1024) (v : Word) : Gives (.cycForceWrite x 1 v) s (fun t => (2 ≤ s.cycState → t = s) ∧ SameMem s t ∧ RegsKept s t []) := by
  obtain ⟨t, ht⟩ : ∃ t, t = s.forcesSettled := ⟨_, rfl⟩
  obtain ⟨h1, h2, -, -, -, h6⟩ := s.forcesSettled_keeps ht
  exact ⟨t, by rw [exec_cycForceWrite, State.forceWritten_one, ← ht], h6, .of_eq h2, fun a _ => h1 a⟩

theorem cycForceWrite_value (s : State) (x : Fin 1024) (v : Word) :
    Gives (.cycForceWrite x 2 v) s (fun t => t.rd (Reg.CYC_FRC_VALUE_LO x) = v ∧ SameMem s t ∧ RegsKept s t [Reg.CYC_FRC_VALUE_LO x]) ∧
    Gives (.cycForceWrite x 3 v) s (fun t => t.rd (Reg.CYC_FRC_VALUE_HI x) = v ∧ SameMem s t ∧ RegsKept s t [Reg.CYC_FRC_VALUE_HI x]) := by
  have hset (b : Nat) {t : State} (ht : t = (s.wr b v).forcesSettled) : t.rd b = v ∧ SameMem s t ∧ RegsKept s t [b] := by
    obtain ⟨h1, h2, -⟩ := (s.wr b v).forcesSettled_keeps ht
    exact ⟨(h1 b).trans (State.rd_wr_self ..), .of_eq h2, fun a ha => (h1 a).trans (State.rd_wr_other _ _ (by simpa using ha))⟩
  exact ⟨⟨_, by rw [exec_cycForceWrite, State.forceWritten_lo], hset _ rfl⟩, ⟨_, by rw [exec_cycForceWrite, State.forceWritten_hi], hset _ rfl⟩⟩

/-- A cleared entry is acknowledged. -/
def State.forceAcked (s : State) (x : Nat) : State := if s.flag (F.CYC_FRC0_CLEARED x) then s.setFld (F.CYC_FRC0_CLEARED x) 0 else s

theorem State.forceAcked_spec (u : State) {x : Nat} {t : State} (ht : t = u.forceAcked x) : t.flag (F.CYC_FRC0_CLEARED x) = false ∧
    (∀ y, u.flag (F.CYC_FRC0_CLEARED y) = false → t.flag (F.CYC_FRC0_CLEARED y) = false) ∧
    (∀ y, t.flag (F.CYC_FRC0_ACTIVE y) = u.flag (F.CYC_FRC0_ACTIVE y)) ∧ t.cyc = u.cyc ∧ t.mem = u.mem ∧ RegsKept u t [Reg.CYC_FRC0 x] := by
  subst ht
  unfold State.forceAcked
  split
  · next h =>
    have hself : (u.setFld (F.CYC_FRC0_CLEARED x) 0).flag (F.CYC_FRC0_CLEARED x) = false := by simp (disch := grind)
    refine ⟨hself, fun y hy => ?_, fun y => ?_, by simp, by simp, by simp⟩
    · by_cases hxy : y = x
      · rw [hxy, hself]
      · simp (disch := grind) [hy]
    · simp (disch := grind)
  · next h => exact ⟨by simpa using h, fun _ hy => hy, fun _ => rfl, rfl, rfl, fun _ _ => rfl⟩

theorem cycForceAck_spec (s : State) : Gives .cycForceAck s (fun t => (∀ x, x < 1024 → t.flag (F.CYC_FRC0_CLEARED x) = false ∧
    t.flag (F.CYC_FRC0_ACTIVE x) = s.flag (F.CYC_FRC0_ACTIVE x)) ∧ t.cyc = s.cyc ∧ SameMem s t ∧ RegsKept s t ((List.range 1024).map Reg.CYC_FRC0)) := by
  obtain ⟨t, ht⟩ : ∃ t, t = (List.range 1024).foldl State.forceAcked s := ⟨_, rfl⟩
  have hkept : (∀ y, t.flag (F.CYC_FRC0_ACTIVE y) = s.flag (F.CYC_FRC0_ACTIVE y)) ∧ t.cyc = s.cyc ∧ t.mem = s.mem ∧
      RegsKept s t ((List.range 1024).map Reg.CYC_FRC0) := by
    rw [ht]
    refine List.foldlRecOn (motive := fun u : State => (∀ y, u.flag (F.CYC_FRC0_ACTIVE y) = s.flag (F.CYC_FRC0_ACTIVE y)) ∧ u.cyc = s.cyc ∧ u.mem = s.mem ∧
      RegsKept s u ((List.range 1024).map Reg.CYC_FRC0)) _ _ ⟨fun _ => rfl, rfl, rfl, fun _ _ => rfl⟩ fun u hu x hx => ?_
    obtain ⟨hact, hcyc, hmem, hregs⟩ := hu
    obtain ⟨-, -, hact', hcyc', hmem', hregs'⟩ := u.forceAcked_spec (x := x) rfl
    refine ⟨fun y => (hact' y).trans (hact y), hcyc'.trans hcyc, hmem'.trans hmem, fun a ha => (hregs' a ?_).trans (hregs a ha)⟩
    intro hmem
    rw [List.mem_singleton.mp hmem] at ha
    exact ha (List.mem_map_of_mem hx)
  obtain ⟨hact, hcyc, hmem, hregs⟩ := hkept
  refine ⟨t, by rw [ht]; rfl, fun x hx => ⟨?_, hact x⟩, hcyc, .of_eq hmem, hregs⟩
  rw [ht]
  exact fold_est (fun _ => True) (fun u : State => u.flag (F.CYC_FRC0_CLEARED x) = false) (fun _ _ _ => trivial) (fun u _ => (u.forceAcked_spec rfl).1)
    (fun u y _ hu => (u.forceAcked_spec (x := y) rfl).2.1 x hu) (List.mem_range.mpr hx) trivial

end

/-- Settles O50: each command by its own lemma. -/
theorem cyclicProgramCommands : Obligations.CyclicProgramCommands := by
  unfold Obligations.CyclicProgramCommands
  refine ⟨fun s _ _ hcmd hcode _ ht => s.cycRes_spec hcmd hcode ht, fun _ => cycLoad_spec, fun _ a h => exec_cycLoadDone_idle a h,
    fun _ _ _ _ _ h hu => ⟨fun _ _ hc hv => exec_cycLoadDone_refused h hu hc hv, fun _ hv => cycLoadDone_staged h hu hv⟩, fun s cold c n hcn => ?_,
    fun s cold _ hc _ ht => s.cycBegin_spec cold hc ht, cycStop_spec, fun s _ hc hb _ ht => s.cycStopWith_spec hc hb ht,
    fun _ => ⟨exec_cycSwitch_state, exec_cycSwitch_nothing, fun _ _ h3 ht hc hs => cycSwitch_spec h3 ht hc hs⟩,
    fun _ => ⟨exec_cycOnlineChange_idle, fun hc h0 hb => ?_⟩, fun _ _ _ _ _ es hc h0 hb ha hr hn => ?_,
    fun _ q arr h => exec_cycStartCatch_idle q arr h, fun _ u _ p _ _ q hc hq hu hv => ⟨u.isStart_iff p q, cycStartCatch_spec hc hq hu hv⟩,
    fun s p _ hq _ ht => s.beginCycle_spec p hq ht, fun _ => exec_cycDone_idle, fun _ _ _ _ hc hr => cycDone_spec hc hr,
    fun s x v => ⟨cycForceWrite_entry s x v, cycForceWrite_reserved s x v, cycForceWrite_value s x v⟩, cycForceAck_spec⟩
  · have hcases := s.cycStart_cases cold n
    have hex : exec c s = .next (s.cycStart n cold) := by
      cases cold
      · obtain ⟨rfl, rfl⟩ := Prod.mk.inj hcn
        rfl
      · obtain ⟨rfl, rfl⟩ := Prod.mk.inj hcn
        rfl
    rw [hex]
    simp only [Host.Outcome.next.injEq]
    exact hcases
  · obtain ⟨p, hp⟩ := Option.ne_none_iff_exists'.mp hc
    exact exec_cycOnlineChange_pending hp h0 hb
  · obtain ⟨hbad, hok⟩ := cycOnlineChange_spec hc h0 hb ha hr hn
    exact ⟨hbad, fun hn0 hn4 hia hir => ⟨(hok hn0 hn4 hia hir).1, (hok hn0 hn4 hia hir).2 es⟩⟩

end Sys2Proof.Machine


/-! PROOFS. The vault: firmware, owner records, keys, counters, attestation, debug and DRBG (R512 to R526). -/

namespace Sys2Proof.Machine

/-! ## What the vault's operations leave as it was -/

section
variable (s : State)

@[simp] theorem State.steady_extendMeas (r : Nat) (d : List Nat) : (s.extendMeas r d).mem = s.mem ∧ (s.extendMeas r d).vlt = s.vlt ∧
    (s.extendMeas r d).evl = s.evl ∧ (s.extendMeas r d).time = s.time ∧ (s.extendMeas r d).fresh = s.fresh := by
  unfold State.extendMeas
  dsimp only
  refine fold_keep (fun w : State => w.mem = s.mem ∧ w.vlt = s.vlt ∧ w.evl = s.evl ∧ w.time = s.time ∧ w.fresh = s.fresh) (fun w i h => ?_) _
    ⟨rfl, rfl, rfl, rfl, rfl⟩
  simpa using h

@[simp] theorem State.steady_extendOwner (l : List Nat) : (s.extendOwner l).mem = s.mem ∧ (s.extendOwner l).vlt = s.vlt ∧
    (s.extendOwner l).evl = s.evl ∧ (s.extendOwner l).time = s.time ∧ (s.extendOwner l).fresh = s.fresh := s.steady_extendMeas ..

theorem State.rd_extendOwner (l : List Nat) {a : Nat} (h : a < 0xE0060200 ∨ 0xE0060400 ≤ a) : (s.extendOwner l).rd a = s.rd a :=
  (State.extendMeas_keeps s (by decide) _).2 a h

@[simp] theorem State.steady_vltBegin (cmd r o : Nat) : (s.vltBegin cmd r o).mem = s.mem ∧ (s.vltBegin cmd r o).vlt = { s.vlt with busy := some (r, o) } ∧
    (s.vltBegin cmd r o).evl = s.evl ∧ (s.vltBegin cmd r o).time = s.time ∧ (s.vltBegin cmd r o).fresh = s.fresh := by
  unfold State.vltBegin
  simp

@[simp] theorem State.regsBut_vltBegin (cmd r o : Nat) : RegsBut Reg.VLT_RES (s.vltBegin cmd r o) s :=
  .of_rd fun b hb => by
    unfold State.vltBegin
    simp (disch := exact hb)

@[simp] theorem State.steady_setScope (v : Nat) : (s.setScope v).mem = s.mem ∧ (s.setScope v).vlt = s.vlt ∧ (s.setScope v).evl = s.evl ∧
    (s.setScope v).time = s.time ∧ (s.setScope v).fresh = s.fresh := by
  unfold State.setScope
  split <;> simp

@[simp] theorem State.regsBut_setScope (v : Nat) : RegsBut Reg.VLT_STATUS (s.setScope v) s :=
  .of_rd fun b hb => by
    unfold State.setScope
    split
    · rfl
    · simp (disch := exact hb)

theorem State.fld_setScope {v : Nat} (h : v < 16) : (s.setScope v).fld F.VLT_STATUS_SCOPE = v := by
  unfold State.setScope
  split
  · assumption
  · simp (disch := decide)
    omega

/-- The words of the challenge. -/
def State.chalWords (c : Nat) : State := (List.range 8).foldl (fun s w => s.setNum (Reg.VLT_DBG_CHAL w) (c / 2 ^ (32 * w) % 2 ^ 32)) s

theorem State.setChal_eq (c : Option Nat) : s.setChal c = (s.chalWords (c.getD 0)).setVlt { (s.chalWords (c.getD 0)).vlt with chal := c.isSome } := rfl

theorem State.chalWords_keeps (c : Nat) : ((s.chalWords c).mem = s.mem ∧ (s.chalWords c).vlt = s.vlt ∧ (s.chalWords c).evl = s.evl ∧
    (s.chalWords c).time = s.time ∧ (s.chalWords c).fresh = s.fresh) ∧ RegsKept s (s.chalWords c) ((List.range 8).map Reg.VLT_DBG_CHAL) := by
  unfold State.chalWords
  refine List.foldlRecOn (motive := fun w : State => (w.mem = s.mem ∧ w.vlt = s.vlt ∧ w.evl = s.evl ∧ w.time = s.time ∧ w.fresh = s.fresh) ∧
    RegsKept s w ((List.range 8).map Reg.VLT_DBG_CHAL)) _ _ ⟨⟨rfl, rfl, rfl, rfl, rfl⟩, fun _ _ => rfl⟩ fun w hw i hi => ?_
  obtain ⟨hkeep, hregs⟩ := hw
  refine ⟨by simpa using hkeep, fun a ha => ?_⟩
  have hne : a ≠ Reg.VLT_DBG_CHAL i := fun h => ha (h ▸ List.mem_map_of_mem hi)
  rw [State.rd_setNum_other _ _ hne, hregs a ha]

@[simp] theorem State.steady_chalWords (c : Nat) : (s.chalWords c).mem = s.mem ∧ (s.chalWords c).vlt = s.vlt ∧ (s.chalWords c).evl = s.evl ∧
    (s.chalWords c).time = s.time ∧ (s.chalWords c).fresh = s.fresh := (s.chalWords_keeps c).1

theorem State.num_chalWords (c : Nat) {w : Nat} (hw : w < 8) : (s.chalWords c).num (Reg.VLT_DBG_CHAL w) = c / 2 ^ (32 * w) % 2 ^ 32 := by
  unfold State.chalWords
  have hmem : w ∈ List.range 8 := List.mem_range.mpr hw
  refine fold_est (fun _ => True) (fun u : State => u.num (Reg.VLT_DBG_CHAL w) = c / 2 ^ (32 * w) % 2 ^ 32) (fun _ _ _ => trivial) (fun u _ => ?_)
    (fun u x _ hu => ?_) hmem trivial
  · rw [State.num_setNum_self, Nat.mod_mod]
  · by_cases hx : x = w
    · rw [hx, State.num_setNum_self, Nat.mod_mod]
    · rw [← hu]
      exact congrArg BitVec.toNat (State.rd_setNum_other _ _ (by grind))

theorem State.steady_vltList (a : Nat) (l : List Nat) : (s.wrList a l).vlt = s.vlt ∧ (s.wrList a l).evl = s.evl ∧ (s.wrList a l).fresh = s.fresh := by
  induction l generalizing s a with
  | nil => exact ⟨rfl, rfl, rfl⟩
  | cons b l ih =>
    rw [State.wrList]
    simpa using ih (s := s.wrByte a (BitVec.ofNat 8 b)) (a + 1)

/-- A command that finds the vault free runs its effect. -/
theorem State.vltCommand_free {s : State} (h : s.flag F.VLT_RES_BUSY = false) (cmd : Nat) (tap : Bool) (f : State → State) : s.vltCommand cmd tap f = f s :=
  if_neg (by simp [h])

end

/-! ## The protocol (R525, R526) -/

theorem State.vltRefuse_spec (s : State) {cmd code : Nat} (tap : Bool) (hcmd : cmd < 16) {t : State} (ht : t = s.vltRefuse cmd code tap) :
    t.flag F.VLT_RES_BUSY = true ∧ t.fld F.VLT_RES_CMD = cmd ∧ t.vlt = { s.vlt with busy := some (code, 0) } ∧
    (cmd = 11 → Logs s t 0x1117 (if tap then 0 else 0x7000) code) ∧ (cmd ≠ 11 → Logs s t 0x1115 (if tap then 0 else 0x7000) (code + cmd * 2 ^ 8)) ∧
    SameMem s t ∧ RegsKept s t [Reg.VLT_RES, Reg.EVL_LOST] := by
  subst ht
  unfold State.vltRefuse
  refine ⟨?_, ?_, by simp, fun h => ?_, fun h => ?_, .of_eq (by simp), by simp⟩
  · unfold State.vltBegin
    simp (disch := decide)
  · unfold State.vltBegin
    simp (disch := decide)
    omega
  · rw [if_pos h, if_pos h]
    exact logs_log _ _ _ (by simp)
  · rw [if_neg h, if_neg h]
    exact logs_log _ _ _ (by simp)

theorem vlt_busy {s : State} (h i : BitVec 16) (tap : Bool) (c : Instr) (n : Nat) (hb : s.flag F.VLT_RES_BUSY = true) :
    ((c, n) ∈ [(Instr.vltVerify, 1), (.vltStore, 2), (.vltEnrol, 3), (.vltRevoke, 4), (.vltImport, 5), (.vltLoadKey, 6), (.vltEraseKey h, 7),
      (.vltArbAdvance i, 8), (.vltAttest, 9), (.vltDbgLock, 12)] → exec c s = .next (s.vltBusy n false)) ∧
    ((c, n) ∈ [(Instr.vltDbgChallenge tap, 10), (.vltDbgUnlock tap, 11)] → exec c s = .next (s.vltBusy n tap)) := by
  have hall (m : Nat) (b : Bool) (f : State → State) : s.vltCommand m b f = s.vltBusy m b := if_pos hb
  simp only [List.mem_cons, List.not_mem_nil, or_false, Prod.mk.injEq]
  constructor
  · rintro (⟨rfl, rfl⟩ | ⟨rfl, rfl⟩ | ⟨rfl, rfl⟩ | ⟨rfl, rfl⟩ | ⟨rfl, rfl⟩ | ⟨rfl, rfl⟩ | ⟨rfl, rfl⟩ | ⟨rfl, rfl⟩ | ⟨rfl, rfl⟩ | ⟨rfl, rfl⟩) <;>
      exact congrArg Host.Outcome.next (hall _ _ _)
  · rintro (⟨rfl, rfl⟩ | ⟨rfl, rfl⟩) <;> exact congrArg Host.Outcome.next (hall _ _ _)

theorem vltCommandDone_spec (s : State) : (s.vlt.busy = none → exec .vltCommandDone s = .next s) ∧
    (∀ r o, s.vlt.busy = some (r, o) → Gives .vltCommandDone s (fun t =>
      t.flag F.VLT_RES_BUSY = false ∧ t.flag F.VLT_RES_DONE = true ∧ t.fld F.VLT_RES_REFUSE = r % 2 ^ 8 ∧ t.fld F.VLT_RES_OUT = o % 2 ^ 16 ∧
      t.vlt = { s.vlt with busy := none } ∧ SameMem s t ∧ RegsKept s t [Reg.VLT_RES])) := by
  have hex : exec .vltCommandDone s = execVltCommandDone s := rfl
  refine ⟨fun h => ?_, fun r o h => ?_⟩
  · rw [hex, execVltCommandDone, h]
  · refine ⟨(((((s.setFld F.VLT_RES_BUSY 0).setFld F.VLT_RES_DONE 1).setFld F.VLT_RES_REFUSE r).setFld F.VLT_RES_OUT o).setVlt { s.vlt with busy := none }), ?_, ?_⟩
    · rw [hex, execVltCommandDone, h]
      simp
    · refine ⟨?_, ?_, ?_, ?_, ?_, .of_eq (by simp), by simp⟩ <;> simp (disch := decide)

section
variable {s : State} (hb : s.flag F.VLT_RES_BUSY = false)
include hb

/-! ## Firmware (R510 to R513) -/

theorem vltFirmware_none (hn : s.vltBytes = none) : Gives .vltVerify s (fun t => t.vlt = { s.vlt with busy := some (2, 0) } ∧ Logs s t 0x1111 0x7000 2 ∧ SameMem s t) ∧
    Gives .vltStore s (fun t => t.vlt = { s.vlt with busy := some (2, 0) } ∧ Logs s t 0x1111 0x7000 2 ∧ SameMem s t) := by
  have hrefused (cmd : Nat) : ((s.vltBegin cmd 2 0).fwRefused 2 0 0).vlt = { s.vlt with busy := some (2, 0) } ∧
      Logs s ((s.vltBegin cmd 2 0).fwRefused 2 0 0) 0x1111 0x7000 2 ∧ SameMem s ((s.vltBegin cmd 2 0).fwRefused 2 0 0) := by
    unfold State.fwRefused
    exact ⟨by simp, logs_log _ _ _ (by simp), .of_eq (by simp)⟩
  refine ⟨⟨_, congrArg Host.Outcome.next (State.vltCommand_free hb ..), ?_⟩, ⟨_, congrArg Host.Outcome.next (State.vltCommand_free hb ..), ?_⟩⟩
  · rw [State.vltVerify, hn]
    exact hrefused 1
  · rw [State.vltStore, hn]
    exact hrefused 2

theorem vltFirmware_refused {l : List Nat} {code : Nat} (hl : s.vltBytes = some l) (hc : code = s.fwCheck l) (h0 : code ≠ 0) :
    Gives .vltVerify s (fun t => t.vlt = { s.vlt with busy := some (code, 0) } ∧ Logs s t 0x1111 0x7000 (code + fwKind l * 2 ^ 8) ∧ SameMem s t) ∧
    Gives .vltStore s (fun t => t.vlt = { s.vlt with busy := some (code, 0) } ∧
      Logs s t 0x1111 0x7000 (code + fwKind l * 2 ^ 8 + (1 - s.fwActive (fwKind l)) * 2 ^ 16) ∧ SameMem s t) := by
  have hrefused (cmd kind k : Nat) {t : State} (ht : t = (s.vltBegin cmd code 0).fwRefused code kind k) : t.vlt = { s.vlt with busy := some (code, 0) } ∧
      Logs s t 0x1111 0x7000 (code + kind * 2 ^ 8 + k * 2 ^ 16) ∧ SameMem s t := by
    subst ht
    unfold State.fwRefused
    exact ⟨by simp, logs_log _ _ _ (by simp), .of_eq (by simp)⟩
  refine ⟨⟨_, congrArg Host.Outcome.next (State.vltCommand_free hb ..), ?_⟩, ⟨_, congrArg Host.Outcome.next (State.vltCommand_free hb ..), ?_⟩⟩
  · rw [State.vltVerify, hl]
    have h := hrefused 1 (fwKind l) 0 (t := s.vltVerifyOf (some l)) (by simp only [State.vltVerifyOf, ← hc, if_pos h0])
    rwa [Nat.zero_mul, Nat.add_zero] at h
  · rw [State.vltStore, hl]
    exact hrefused 2 (fwKind l) _ (by simp only [State.vltStoreOf, ← hc, if_pos h0])

/-- What a verified firmware image leaves in the vault's measurements. -/
def State.fwMeasured (s : State) (l : List Nat) : State :=
  if fwKind l = 2 then (s.extendMeas 1 ((l.drop 0x40).take 48)).fwRuns l
  else if fwKind l = 3 then (s.extendMeas 3 ((l.drop 0x40).take 48)).fwRuns l else s

omit hb in
theorem State.fwMeasured_keeps (s : State) (l : List Nat) {t : State} (ht : t = s.fwMeasured l) : t.mem = s.mem ∧ t.evl = s.evl ∧ (fwKind l = 1 → t.vlt = s.vlt) := by
  subst ht
  unfold State.fwMeasured State.fwRuns
  split
  · exact ⟨by simp, by simp, by omega⟩
  · split
    · exact ⟨by simp, by simp, by omega⟩
    · exact ⟨rfl, rfl, fun _ => rfl⟩

omit hb in
theorem State.decryptInPlace_keeps (s : State) (a : Nat) (l : List Nat) {t : State} (ht : t = s.decryptInPlace a l) : (fwEnc l = false → t.mem = s.mem) ∧
    t.evl = s.evl ∧ t.vlt = s.vlt := by
  subst ht
  unfold State.decryptInPlace
  split
  · next h _ => exact ⟨fun h' => by simp [h] at h', evl_wrList .., (s.steady_vltList ..).1⟩
  · exact ⟨fun _ => rfl, rfl, rfl⟩

theorem vltVerify_accepted {l : List Nat} (hl : s.vltBytes = some l) (h0 : s.fwCheck l = 0) :
    Gives .vltVerify s (fun t => t.vlt.busy = some (0, fwKind l) ∧ Logs s t 0x1110 0x7000 (fwKind l + fieldAt l 0x20 3 * 2 ^ 8) ∧
      (fwEnc l = false → SameMem s t) ∧ (fwKind l = 1 → t.vlt = { s.vlt with busy := some (0, 1) })) := by
  obtain ⟨u, hu⟩ : ∃ u, u = s.decryptInPlace s.vltArg l := ⟨_, rfl⟩
  obtain ⟨v, hv⟩ : ∃ v, v = u.fwMeasured l := ⟨_, rfl⟩
  obtain ⟨humem, huevl, huvlt⟩ := s.decryptInPlace_keeps s.vltArg l hu
  obtain ⟨hvmem, hvevl, hvvlt⟩ := u.fwMeasured_keeps l hv
  have hrun : exec .vltVerify s = .next ((v.vltBegin 1 0 (fwKind l)).log 0x1110 0x7000 (fwDetail l)) := by
    refine congrArg Host.Outcome.next ((State.vltCommand_free hb ..).trans ?_)
    rw [State.vltVerify, hl, hv, hu]
    simp only [State.vltVerifyOf, h0, ne_eq, not_true_eq_false, if_false]
    rfl
  refine ⟨_, hrun, by simp, logs_log _ _ _ (by simp [hvevl, huevl]), fun he => .of_eq (by simp [hvmem, humem he]), fun hk => ?_⟩
  simp [hvvlt hk, huvlt, hk]

theorem vltStore_accepted {l : List Nat} (hl : s.vltBytes = some l) (h0 : s.fwCheck l = 0) {code : Nat} {u : State} (hs : s.fwStore l = (code, u)) :
    exec .vltStore s = .next (u.vltBegin 2 code (if code = 0 then 1 - s.fwActive (fwKind l) else 0)) := by
  refine congrArg Host.Outcome.next ((State.vltCommand_free hb ..).trans ?_)
  rw [State.vltStore, hl]
  simp only [State.vltStoreOf, h0, ne_eq, not_true_eq_false, if_false, hs]

/-! ## Owner records (R515, R516, R519) -/

theorem exec_vltEnrol : exec .vltEnrol s = .next s.vltEnrol := congrArg Host.Outcome.next (State.vltCommand_free hb ..)
theorem exec_vltRevoke : exec .vltRevoke s = .next s.vltRevoke := congrArg Host.Outcome.next (State.vltCommand_free hb ..)
theorem exec_vltImport : exec .vltImport s = .next s.vltImport := congrArg Host.Outcome.next (State.vltCommand_free hb ..)

theorem vltRecord_refused {l : List Nat} (hl : l = s.vltRecord) :
    (ownRecordOk l 1 [(0x10, 0x71)] = false ∨ ((l.drop 0x10).take 97).headD 0 ≠ 4 → exec .vltEnrol s = .next (s.vltRefuse 3 2 false)) ∧
    (ownRecordOk l 2 [(0x10, 0x40)] = false → exec .vltRevoke s = .next (s.vltRefuse 4 2 false)) ∧
    (importOk l = false → exec .vltImport s = .next (s.vltRefuse 5 2 false)) ∧
    (ownRecordOk l 1 [(0x10, 0x71)] = true → ((l.drop 0x10).take 97).headD 0 = 4 → s.sw18 = false → exec .vltEnrol s = .next (s.vltRefuse 3 8 false)) ∧
    (ownRecordOk l 2 [(0x10, 0x40)] = true → s.sw18 = false → exec .vltRevoke s = .next (s.vltRefuse 4 8 false)) ∧
    (importOk l = true → s.sw18 = false → exec .vltImport s = .next (s.vltRefuse 5 8 false)) := by
  rw [exec_vltEnrol hb, exec_vltRevoke hb, exec_vltImport hb]
  subst hl
  have hswitch (h : s.sw18 = false) : (!s.sw18) = true := by rw [h]; rfl
  refine ⟨fun h => ?_, fun h => ?_, fun h => ?_, fun h h4 hs => ?_, fun h hs => ?_, fun h hs => ?_⟩ <;> refine congrArg Host.Outcome.next ?_
  · exact if_pos (by rcases h with h | h <;> simp [h, -List.headD_eq_head?_getD])
  · exact if_pos (by simp [h])
  · exact if_pos (by simp [h])
  · exact (if_neg (by simp [h, h4, -List.headD_eq_head?_getD])).trans (if_pos (hswitch hs))
  · exact (if_neg (by simp [h])).trans (if_pos (hswitch hs))
  · exact (if_neg (by simp [h])).trans (if_pos (hswitch hs))

omit hb in
theorem State.setOwnerSlot_spec (s : State) {k v : Nat} (hk : k < 4) (hv : v < 4) : (s.setOwnerSlot k v).ownerSlot k = v :=
  (State.fld_setFld_self s _ v (by simp [Fld.fits]; omega)).trans (Nat.mod_eq_of_lt hv)

omit hb in
theorem State.steady_setOwnerSlot (s : State) (k v : Nat) : (s.setOwnerSlot k v).mem = s.mem ∧ (s.setOwnerSlot k v).vlt = s.vlt ∧ (s.setOwnerSlot k v).evl = s.evl := by
  unfold State.setOwnerSlot
  simp

omit hb in
/-- An owner's record that changes a slot: the slot, the vault's state, its event and the memory. -/
theorem State.slotChanged_spec (s : State) {k v cmd code : Nat} {l : List Nat} (hk : k < 4) (hv : v < 4) {u t : State}
    (hslot : u.rd Reg.VLT_STATUS = (s.setOwnerSlot k v).rd Reg.VLT_STATUS) (hmem : u.mem = s.mem) (hevl : u.evl = s.evl)
    (ht : t = ((u.extendOwner l).vltBegin cmd 0 k).log code 0x7000 k) : t.ownerSlot k = v ∧ Logs s t code 0x7000 k ∧ SameMem s t ∧
    t.vlt = { u.vlt with busy := some (0, k) } := by
  subst ht
  refine ⟨?_, logs_log _ _ _ (by simp [hevl]), .of_eq (by simp [hmem]), by simp⟩
  have hrd : (((u.extendOwner l).vltBegin cmd 0 k).log code 0x7000 k).rd Reg.VLT_STATUS = (s.setOwnerSlot k v).rd Reg.VLT_STATUS := by
    rw [State.rd_log _ _ _ _ (by decide), ← hslot, ← u.rd_extendOwner l (a := Reg.VLT_STATUS) (by decide)]
    simp
  rw [State.ownerSlot, hrd]
  exact s.setOwnerSlot_spec hk hv

theorem vltEnrol_enrolls {l : List Nat} {k : Nat} (hl : l = s.vltRecord) (hok : ownRecordOk l 1 [(0x10, 0x71)] = true)
    (h4 : ((l.drop 0x10).take 97).headD 0 = 4) (hs : s.sw18 = true) (ho : s.owner = none) (hf : s.freeSlot = some k) (hk : fieldAt l 6 1 = k)
    (hsig : signedUnder ((l.drop 0x10).take 97) l = true) : if recordBound l = false then exec .vltEnrol s = .next (s.vltRefuse 3 0x0B false)
      else Gives .vltEnrol s (fun t => t.ownerSlot k = 1 ∧ Logs s t 0x1112 0x7000 k ∧ SameMem s t ∧
        t.vlt = { s.vlt with
          hashes := Tab.put s.vlt.hashes k (beBytes 48 (sha384 ((l.drop 0x10).take 97))), pubs := Tab.put s.vlt.pubs k ((l.drop 0x10).take 97),
          busy := some (0, k) }) := by
  have hk4 : k < 4 := List.mem_range.mp (List.mem_of_find?_eq_some hf)
  rw [exec_vltEnrol hb]
  split
  · next h =>
    subst hl
    unfold State.vltEnrol
    simp only [hok, h4, hs, h, Bool.not_true, Bool.not_false, Bool.false_eq_true, if_false, if_true, beq_self_eq_true, Bool.and_self]
  · next h =>
    rw [Bool.not_eq_false] at h
    obtain ⟨u, hu⟩ : ∃ u, u = (s.setOwnerSlot k 1).setVlt { s.vlt with
      hashes := Tab.put s.vlt.hashes k (beBytes 48 (sha384 ((l.drop 0x10).take 97))), pubs := Tab.put s.vlt.pubs k ((l.drop 0x10).take 97) } := ⟨_, rfl⟩
    have hrun : s.vltEnrol = ((u.extendOwner l).vltBegin 3 0 k).log 0x1112 0x7000 k := by
      subst hl hu
      unfold State.vltEnrol
      simp only [hok, h4, hs, h, ho, hf, hk, hsig, Bool.not_true, Bool.false_eq_true, if_false, ne_eq, not_true_eq_false, beq_self_eq_true, Bool.and_self]
    obtain ⟨hmem, -, hevl⟩ := s.steady_setOwnerSlot k 1
    obtain ⟨hslot, hlog, hsame, hvlt⟩ := s.slotChanged_spec (v := 1) hk4 (by decide) (by simp [hu]) (by simp [hu, hmem]) (by simp [hu, hevl]) hrun
    exact ⟨_, exec_vltEnrol hb, hslot, hlog, hsame, hvlt.trans (by simp [hu])⟩

theorem vltRevoke_revokes {l : List Nat} {k : Nat} (hl : l = s.vltRecord) (hok : ownRecordOk l 2 [(0x10, 0x40)] = true) (hs : s.sw18 = true)
    (ho : s.owner = some k) (hsig : s.ownerSigned l = 0) (hh : (l.drop 0x10).take 48 = Tab.get (fun _ => []) s.vlt.hashes k) :
    if recordBound l = false then exec .vltRevoke s = .next (s.vltRefuse 4 0x0B false)
    else Gives .vltRevoke s (fun t => t.ownerSlot k = 2 ∧ t.vlt = { s.vlt with busy := some (0, k) } ∧ Logs s t 0x1113 0x7000 k ∧ SameMem s t) := by
  have hk4 : k < 4 := List.mem_range.mp (List.mem_of_find?_eq_some ho)
  rw [exec_vltRevoke hb]
  split
  · next h =>
    subst hl
    unfold State.vltRevoke
    simp only [hok, hs, h, Bool.not_true, Bool.not_false, Bool.false_eq_true, if_false, if_true]
  · next h =>
    rw [Bool.not_eq_false] at h
    have hrun : s.vltRevoke = (((s.setOwnerSlot k 2).extendOwner l).vltBegin 4 0 k).log 0x1113 0x7000 k := by
      subst hl
      unfold State.vltRevoke
      simp only [hok, hs, h, ho, hsig, hh, Bool.not_true, Bool.false_eq_true, if_false, ne_eq, not_true_eq_false, or_self]
    obtain ⟨hmem, hvlt', hevl⟩ := s.steady_setOwnerSlot k 2
    obtain ⟨hslot, hlog, hsame, hvlt⟩ := s.slotChanged_spec (v := 2) hk4 (by decide) rfl hmem hevl hrun
    exact ⟨_, exec_vltRevoke hb, hslot, hvlt.trans (by rw [hvlt']), hlog, hsame⟩

section
variable {l : List Nat} {u i : Nat} (hl : l = s.vltRecord) (hok : importOk l = true) (hs : s.sw18 = true) (hsig : s.ownerSigned l = 0)
  (hu : u = fieldAt l 0x10 1) (hi : i = fieldAt l 0x11 1)
include hl hok hs hsig hu hi

theorem vltImport_checked : exec .vltImport s = .next (if recordBound l = false then s.vltRefuse 5 0x0B false
    else if u = 2 then
      if s.rngOk = false then s.vltRefuse 5 0x0F false
      else (((((s.takeFresh 2).wrList s.vltArg (keyWrap (leBytes 12 (Config.drbg s.fresh)) (leBytes 8 (Config.drbg (s.fresh + 1))) ((l.drop 0x18).take 32))).extendOwner
        l).vltBegin 5 0 0).log 0x111B 0x7000 (u + i * 2 ^ 8))
    else ((((s.setVlt { s.vlt with pkeys := Tab.put s.vlt.pkeys (0x1000 + 4 * u + i) ((l.drop 0x18).take 32, if u = 1 then (l.drop 0x38).take 12 else []) }).extendOwner
      l).vltBegin 5 0 (0x1000 + 4 * u + i)).log 0x111B 0x7000 (u + i * 2 ^ 8))) := by
  rw [exec_vltImport hb]
  subst hl hu hi
  unfold State.vltImport
  cases hr : recordBound s.vltRecord <;> cases hg : s.rngOk <;>
    simp only [hok, hs, hr, hsig, Bool.not_true, Bool.not_false, Bool.false_eq_true, Bool.true_eq_false, if_false, if_true, ne_eq, not_true_eq_false] <;> rfl

omit hb hl hok hs hsig hu hi in
/-- An imported key stands in the vault, and its import is reported. -/
theorem State.keyImported_spec (s : State) (l : List Nat) (h d : Nat) (x : VltState) {t : State}
    (ht : t = (((s.setVlt x).extendOwner l).vltBegin 5 0 h).log 0x111B 0x7000 d) : t.vlt = { x with busy := some (0, h) } ∧ Logs s t 0x111B 0x7000 d ∧ SameMem s t := by
  subst ht
  exact ⟨by simp, logs_log _ _ _ (by simp), .of_eq (by simp)⟩

theorem vltImport_private (h2 : u ≠ 2) : if recordBound l = false then exec .vltImport s = .next (s.vltRefuse 5 0x0B false)
    else Gives .vltImport s (fun t => t.vlt.busy = some (0, 0x1000 + 4 * u + i) ∧ Logs s t 0x111B 0x7000 (u + i * 2 ^ 8) ∧
      Tab.find t.vlt.pkeys (0x1000 + 4 * u + i) = some ((l.drop 0x18).take 32, if u = 1 then (l.drop 0x38).take 12 else []) ∧ SameMem s t) := by
  have hex := vltImport_checked hb hl hok hs hsig hu hi
  split
  · next hr => rwa [if_pos hr] at hex
  · next hr =>
    rw [if_neg hr, if_neg h2] at hex
    obtain ⟨hvlt, hlog, hsame⟩ := s.keyImported_spec l (0x1000 + 4 * u + i) (u + i * 2 ^ 8) { s.vlt with
      pkeys := Tab.put s.vlt.pkeys (0x1000 + 4 * u + i) ((l.drop 0x18).take 32, if u = 1 then (l.drop 0x38).take 12 else []) } rfl
    refine ⟨_, hex, by rw [hvlt], hlog, ?_, hsame⟩
    rw [hvlt]
    exact Tab.find_put_self _ _ _

theorem vltImport_stopped (h2 : u = 2) (hg : s.rngOk = false) : exec .vltImport s = .next (s.vltRefuse 5 (if recordBound l = false then 0x0B else 0x0F) false) := by
  rw [vltImport_checked hb hl hok hs hsig hu hi, if_pos h2, if_pos hg]
  split <;> rfl

theorem vltImport_wrapped (h2 : u = 2) (hg : s.rngOk = true) : if recordBound l = false then exec .vltImport s = .next (s.vltRefuse 5 0x0B false)
    else Gives .vltImport s (fun t => t.vlt = { s.vlt with busy := some (0, 0) } ∧ t.fresh = s.fresh + 2 ∧ Logs s t 0x111B 0x7000 (2 + i * 2 ^ 8)) := by
  have hex := vltImport_checked hb hl hok hs hsig hu hi
  split
  · next hr => rwa [if_pos hr] at hex
  · next hr =>
    rw [if_neg hr, if_pos h2, if_neg (by simp [hg])] at hex
    generalize keyWrap _ _ _ = b at hex
    obtain ⟨v, hv⟩ : ∃ v, v = (s.takeFresh 2).wrList s.vltArg b := ⟨_, rfl⟩
    obtain ⟨hvlt, hevl, hfresh⟩ : v.vlt = s.vlt ∧ v.evl = s.evl ∧ v.fresh = s.fresh + 2 := hv ▸ (s.takeFresh 2).steady_vltList s.vltArg b
    rw [← hv, h2] at hex
    exact ⟨_, hex, by simp [hvlt], by simp [hfresh], logs_log _ _ _ (by simp [hevl])⟩

end

/-! ## Keys and counters (R517, R518) -/

theorem exec_vltLoadKey : exec .vltLoadKey s = .next s.vltLoadKey := congrArg Host.Outcome.next (State.vltCommand_free hb ..)

theorem vltLoadKey_format {l : List Nat} (h : s.vltBytes = none ∨ (s.vltBytes = some l ∧ l.length ≠ 64)) : exec .vltLoadKey s = .next (s.vltRefuse 6 2 false) := by
  rw [exec_vltLoadKey hb, State.vltLoadKey]
  rcases h with h | ⟨h, hlen⟩
  · rw [h, State.vltLoadKeyOf]
  · rw [h, State.vltLoadKeyOf, if_pos hlen]

theorem vltLoadKey_full {l : List Nat} (h : s.vltBytes = some l) (hlen : l.length = 64) (hall : ∀ h, h < 256 → Tab.find s.vlt.vkeys h ≠ none) :
    exec .vltLoadKey s = .next (s.vltRefuse 6 0x0D false) := by
  have hnone : (List.range 256).find? (fun h => (Tab.find s.vlt.vkeys h).isNone) = none := by
    refine List.find?_eq_none.mpr fun x hx => ?_
    simpa using hall x (List.mem_range.mp hx)
  rw [exec_vltLoadKey hb, State.vltLoadKey, h, State.vltLoadKeyOf, if_neg (by simp [hlen]), hnone]

theorem vltLoadKey_loads {l : List Nat} {h : Nat} (hl : s.vltBytes = some l) (hlen : l.length = 64) (hh : h < 256) (hfree : Tab.find s.vlt.vkeys h = none)
    (hlow : ∀ i, i < h → Tab.find s.vlt.vkeys i ≠ none) : Gives .vltLoadKey s (fun t => Tab.find t.vlt.vkeys h = some (l.take 32, (l.drop 32).take 12) ∧
      t.vlt.busy = some (0, h) ∧ (∀ i, i ≠ h → Tab.find t.vlt.vkeys i = Tab.find s.vlt.vkeys i) ∧ SameMem s t ∧ RegsKept s t [Reg.VLT_RES]) := by
  have hfind : (List.range 256).find? (fun h => (Tab.find s.vlt.vkeys h).isNone) = some h := by
    rw [List.find?_range_eq_some]
    exact ⟨by simp [hfree], List.mem_range.mpr hh, fun i hi => by simpa [Option.isSome_iff_ne_none] using hlow i hi⟩
  have hrun : s.vltLoadKey = (s.setVlt { s.vlt with vkeys := Tab.put s.vlt.vkeys h (l.take 32, (l.drop 32).take 12) }).vltBegin 6 0 h := by
    rw [State.vltLoadKey, hl, State.vltLoadKeyOf, if_neg (by simp [hlen]), hfind]
  refine ⟨_, (exec_vltLoadKey hb).trans (congrArg Host.Outcome.next hrun), ?_, by simp, fun i hi => ?_, .of_eq (by simp), by simp⟩
  · simp [Tab.find_put_self]
  · simp [Tab.find_put_other _ _ hi]

theorem vltEraseKey_spec (h : BitVec 16) : (Tab.find s.vlt.vkeys h.toNat = none → exec (.vltEraseKey h) s = .next (s.vltRefuse 7 0x0E false)) ∧
    (Tab.find s.vlt.vkeys h.toNat ≠ none → Gives (.vltEraseKey h) s (fun t => Tab.find t.vlt.vkeys h.toNat = none ∧ t.vlt.busy = some (0, 0) ∧
      (∀ i, i ≠ h.toNat → Tab.find t.vlt.vkeys i = Tab.find s.vlt.vkeys i) ∧ SameMem s t ∧ RegsKept s t [Reg.VLT_RES])) := by
  have hex : exec (.vltEraseKey h) s = .next (s.vltEraseKey h.toNat) := congrArg Host.Outcome.next (State.vltCommand_free hb ..)
  refine ⟨fun hn => hex.trans (congrArg Host.Outcome.next (if_neg (by simp [hn]))),
    fun hn => ⟨_, hex.trans (congrArg Host.Outcome.next (if_pos (Option.isSome_iff_ne_none.mpr hn))), ?_, by simp, fun i hi => ?_, .of_eq (by simp), by simp⟩⟩
  · simp [Tab.find_del_self]
  · simp [Tab.find_del_other _ hi]

section
variable {i : BitVec 16} {rows : Nat} (hr : rows = Tab.get (fun _ => 0) s.vlt.rows i.toNat)
include hr

theorem vltArbAdvance_refused (h : 64 ≤ i.toNat ∨ 64 ≤ rows ∨ s.vltLen ≤ s.num (Reg.VLT_ARB i.toNat)) :
    exec (.vltArbAdvance i) s = .next (s.vltRefuse 8 0x0C false) := by
  subst hr
  exact congrArg Host.Outcome.next ((State.vltCommand_free hb ..).trans (if_neg (by omega)))

theorem vltArbAdvance_advances {k : Nat} (hi : i.toNat < 64) (hrow : rows < 64) (hn : s.num (Reg.VLT_ARB i.toNat) < s.vltLen)
    (hrun : (i.toNat, s.vltLen, k) ∈ s.runningItems) (ho : i.toNat < 8 ∨ s.owner = some k) :
    Gives (.vltArbAdvance i) s (fun t => t.num (Reg.VLT_ARB i.toNat) = s.vltLen ∧ Tab.get (fun _ => 0) t.vlt.rows i.toNat = rows + 1 ∧
      t.vlt.busy = some (0, s.vltLen % 2 ^ 16) ∧ Logs s t 0x1114 0x7000 (i.toNat + (rows + 1) * 2 ^ 8) ∧ SameMem s t ∧
      RegsKept s t [Reg.VLT_ARB i.toNat, Reg.VLT_RES, Reg.EVL_LOST]) := by
  have hany : s.runningItems.any (fun t => t.1 == i.toNat && t.2.1 == s.vltLen && (decide (i.toNat < 8) || s.owner == some t.2.2)) = true :=
    List.any_eq_true.mpr ⟨_, hrun, by simpa using ho⟩
  have hlen : s.vltLen < 2 ^ 32 := BitVec.isLt _
  subst hr
  refine ⟨_, congrArg Host.Outcome.next ((State.vltCommand_free hb ..).trans (if_pos ⟨hi, hrow, hn, hany⟩)), ?_, ?_, by simp, logs_log _ _ _ (by simp), .of_eq (by simp), ?_⟩
  · simp (disch := grind)
    omega
  · simp
  · simp

end

/-! ## Attestation and debug (R522 to R524) -/

theorem exec_vltAttest : exec .vltAttest s = .next s.vltAttest := congrArg Host.Outcome.next (State.vltCommand_free hb ..)

theorem vltAttest_format {l : List Nat} (h : s.vltBytes = none ∨ (s.vltBytes = some l ∧ l.length ≠ 864)) : exec .vltAttest s = .next (s.vltRefuse 9 2 false) := by
  rw [exec_vltAttest hb, State.vltAttest]
  rcases h with h | ⟨h, hlen⟩
  · rw [h, State.vltAttestOf]
  · rw [h, State.vltAttestOf, if_pos hlen]

omit hb in
/-- A byte of a list that stands in memory. -/
theorem State.rdByte_wrList_getD (s : State) (a : Nat) (l : List Nat) {j : Nat} (hj : j < l.length) : ((s.wrList a l).rdByte (a + j)).toNat = l.getD j 0 % 256 := by
  induction l generalizing s a j with
  | nil => exact absurd hj (Nat.not_lt_zero j)
  | cons b l ih =>
    rw [State.wrList]
    cases j with
    | zero =>
      rw [State.rdByte_wrList_other _ _ (by omega)]
      simp
    | succ j =>
      rw [Nat.add_comm j 1, ← Nat.add_assoc, ih _ _ (by simpa using hj), Nat.add_comm 1 j]
      rfl

theorem vltAttest_attests {l n r : List Nat} (hl : s.vltBytes = some l) (hlen : l.length = 864) (hn : n = (l.drop 8).take 32) (hr : r = s.report n) :
    Gives .vltAttest s (fun t => t.vlt = { s.vlt with busy := some (0, 864) } ∧ Logs s t 0x1119 0x7000 (fieldAt n 0 4) ∧ RegsKept s t [Reg.VLT_RES, Reg.EVL_LOST] ∧
      (∀ j, j < r.length → (t.rdByte (s.vltArg + j)).toNat = r.getD j 0 % 256)) := by
  obtain ⟨sig, hsig⟩ : ∃ sig, sig = (Config.deviceSign (sha384 r) ++ List.replicate 96 0).take 96 := ⟨_, rfl⟩
  have hrun : s.vltAttest = ((s.wrList s.vltArg (r ++ sig)).vltBegin 9 0 864).log 0x1119 0x7000 (fieldAt n 0 4) := by
    subst hsig hr hn
    rw [State.vltAttest, hl, State.vltAttestOf, if_neg (by simp [hlen])]
  obtain ⟨hvlt, hevl, -⟩ := s.steady_vltList s.vltArg (r ++ sig)
  refine ⟨_, (exec_vltAttest hb).trans (congrArg Host.Outcome.next hrun), by simp [hvlt], logs_log _ _ _ (by simp [hevl]), by simp, fun j hj => ?_⟩
  rw [State.rdByte_log, rdByte_of_mem ((s.wrList s.vltArg (r ++ sig)).steady_vltBegin 9 0 864).1,
    State.rdByte_wrList_getD _ _ _ (by rw [List.length_append]; omega), List.getD_append _ _ _ _ hj]

theorem vltDbgChallenge_spec (tap : Bool) : (s.rngOk = false → exec (.vltDbgChallenge tap) s = .next (s.vltRefuse 10 0x0F tap)) ∧
    (s.rngOk = true → Gives (.vltDbgChallenge tap) s (fun t => t.vlt = { s.vlt with chal := true, busy := some (0, 0) } ∧ t.fresh = s.fresh + 1 ∧
      (∀ w, w < 8 → t.num (Reg.VLT_DBG_CHAL w) = Config.drbg s.fresh % 2 ^ 256 / 2 ^ (32 * w) % 2 ^ 32) ∧ SameMem s t ∧
      RegsKept s t (Reg.VLT_RES :: (List.range 8).map Reg.VLT_DBG_CHAL))) := by
  have hex : exec (.vltDbgChallenge tap) s = .next (s.vltChallenge tap) := congrArg Host.Outcome.next (State.vltCommand_free hb ..)
  refine ⟨fun h => hex.trans (congrArg Host.Outcome.next (if_pos (by simp [h]))), fun h => ?_⟩
  obtain ⟨c, hc⟩ : ∃ c, c = Config.drbg s.fresh % 2 ^ 256 := ⟨_, rfl⟩
  obtain ⟨u, hu⟩ : ∃ u, u = (s.takeFresh 1).chalWords c := ⟨_, rfl⟩
  have hrun : exec (.vltDbgChallenge tap) s = .next ((u.setVlt { u.vlt with chal := true }).vltBegin 10 0 0) := by
    rw [hu, hc]
    exact hex.trans (congrArg Host.Outcome.next (if_neg (by simp [h])))
  obtain ⟨⟨hmem, hvlt, -, -, hfresh⟩, hregs⟩ : (u.mem = s.mem ∧ u.vlt = s.vlt ∧ u.evl = s.evl ∧ u.time = s.time ∧ u.fresh = s.fresh + 1) ∧
    RegsKept s u ((List.range 8).map Reg.VLT_DBG_CHAL) := hu ▸ (s.takeFresh 1).chalWords_keeps c
  refine ⟨_, hrun, by simp [hvlt], by simp [hfresh], fun w hw => ?_, .of_eq (by simp [hmem]), fun a ha => ?_⟩
  · rw [← hc, ← (s.takeFresh 1).num_chalWords c hw, ← hu]
    simp (disch := grind)
  · simp only [List.mem_cons, not_or] at ha
    rw [← hregs a ha.2]
    simp (disch := exact ha.1)

section
variable {tap : Bool} {l : List Nat} {scope minutes : Nat} (hl : l = s.vltRecord) (hsc : scope = fieldAt l 0x30 1) (hmi : minutes = fieldAt l 0x32 2)
  (hok : ownRecordOk l 4 [(0x10, 0x31), (0x32, 0x34)] = true) (h15 : scope ≤ 15) (h1440 : minutes ≤ 1440)
include hl hsc hmi hok h15 h1440

/-- What an unlock does once its record has its form. -/
theorem exec_vltDbgUnlock : exec (.vltDbgUnlock tap) s = .next (if recordBound l = false then s.vltRefuse 11 0x0B tap
    else if (!s.vlt.chal || (l.drop 0x10).take 32 != s.chalBytes) = true then s.vltRefuse 11 0x10 tap
    else if s.ownerSigned l ≠ 0 then s.vltRefuse 11 (s.ownerSigned l) tap
    else ((((((s.setScope scope).setChal none).setVlt { ((s.setScope scope).setChal none).vlt with
      minutes := minutes, since := ((s.setScope scope).setChal none).time.cycle }).extendOwner l).vltBegin 11 0 scope).log 0x1116 (vltSource tap)
        (scope + minutes * 2 ^ 16))) := by
  have hex : exec (.vltDbgUnlock tap) s = .next (s.vltUnlock tap) := congrArg Host.Outcome.next (State.vltCommand_free hb ..)
  rw [hex]
  have h15' := decide_eq_true h15
  have h1440' := decide_eq_true h1440
  subst hl hsc hmi
  unfold State.vltUnlock
  cases hr : recordBound s.vltRecord <;>
    simp only [hok, hr, h15', h1440', Bool.and_self, Bool.not_true, Bool.not_false, Bool.false_eq_true, Bool.true_eq_false, if_false, if_true]

theorem vltDbgUnlock_challenge (h : s.vlt.chal = false ∨ (l.drop 0x10).take 32 ≠ s.chalBytes) :
    exec (.vltDbgUnlock tap) s = .next (s.vltRefuse 11 (if recordBound l = false then 0x0B else 0x10) tap) := by
  rw [exec_vltDbgUnlock hb hl hsc hmi hok h15 h1440, if_pos (c := (!s.vlt.chal || (l.drop 0x10).take 32 != s.chalBytes) = true) (by rcases h with h | h <;> simp [h])]
  split <;> rfl

section
variable (hc : s.vlt.chal = true) (hm : (l.drop 0x10).take 32 = s.chalBytes)
include hc hm

theorem vltDbgUnlock_signature (h : s.ownerSigned l ≠ 0) :
    exec (.vltDbgUnlock tap) s = .next (s.vltRefuse 11 (if recordBound l = false then 0x0B else s.ownerSigned l) tap) := by
  rw [exec_vltDbgUnlock hb hl hsc hmi hok h15 h1440, if_neg (c := (!s.vlt.chal || (l.drop 0x10).take 32 != s.chalBytes) = true) (by simp [hc, hm]), if_pos h]
  split <;> rfl

theorem vltDbgUnlock_unlocks (h : s.ownerSigned l = 0) : if recordBound l = false then exec (.vltDbgUnlock tap) s = .next (s.vltRefuse 11 0x0B tap)
    else Gives (.vltDbgUnlock tap) s (fun t => t.fld F.VLT_STATUS_SCOPE = scope ∧
      t.vlt = { s.vlt with chal := false, minutes := minutes, since := s.time.cycle, busy := some (0, scope) } ∧
      Logs s t 0x1116 (if tap then 0 else 0x7000) (scope + minutes * 2 ^ 16) ∧ SameMem s t) := by
  have hex := exec_vltDbgUnlock (tap := tap) hb hl hsc hmi hok h15 h1440
  rw [if_neg (c := (!s.vlt.chal || (l.drop 0x10).take 32 != s.chalBytes) = true) (by simp [hc, hm]), if_neg (not_not_intro h)] at hex
  split
  · next hr => rwa [if_pos hr] at hex
  · next hr =>
    rw [if_neg hr, State.setChal_eq] at hex
    obtain ⟨hkeep, hregs⟩ := (s.setScope scope).chalWords_keeps (Option.getD none 0)
    generalize hu : (s.setScope scope).chalWords (Option.getD none 0) = u at hex hkeep hregs
    have hscope : u.fld F.VLT_STATUS_SCOPE = scope := (State.fld_congr (hregs _ (by decide))).trans (s.fld_setScope (by omega))
    simp only [State.steady_setScope] at hkeep
    obtain ⟨hmem, hvlt, hevl, htime, -⟩ := hkeep
    refine ⟨_, hex, ?_, ?_, logs_log _ _ _ (by simp [hevl]), .of_eq (by simp [hmem])⟩
    · rw [← hscope]
      refine (State.fld_congr (State.rd_log _ _ _ _ (by decide))).trans ?_
      simp (disch := decide)
      exact State.fld_congr (State.rd_extendOwner _ _ (by decide))
    · simp [hvlt, htime]

end

end

theorem vltDbgLock_spec : Gives .vltDbgLock s (fun t => t.fld F.VLT_STATUS_SCOPE = 0 ∧
    t.vlt = { s.vlt with minutes := 0, busy := some (0, 0) } ∧ Logs s t 0x1118 0x7000 0 ∧ SameMem s t ∧
    RegsKept s t [Reg.VLT_STATUS, Reg.VLT_RES, Reg.EVL_LOST]) := by
  have hrun : exec .vltDbgLock s = .next ((((s.setScope 0).setVlt { s.vlt with minutes := 0 }).vltBegin 12 0 0).log 0x1118 0x7000 0) :=
    congrArg Host.Outcome.next (State.vltCommand_free hb ..)
  refine ⟨_, hrun, ?_, by simp, logs_log _ _ _ (by simp), .of_eq (by simp), by simp⟩
  simp (disch := decide)
  exact s.fld_setScope (by decide)

end

/-- The end of a debug scope by its time. -/
theorem debugScopeExpire_spec (s : State) : (s.fld F.VLT_STATUS_SCOPE = 0 ∨ s.vlt.minutes = 0 ∨ s.time.cycle < s.vlt.since + s.vlt.minutes * 60000 * cycPerMs →
      exec .debugScopeExpire s = .next s) ∧
    (s.fld F.VLT_STATUS_SCOPE ≠ 0 → s.vlt.minutes ≠ 0 → s.vlt.since + s.vlt.minutes * 60000 * cycPerMs ≤ s.time.cycle → Gives .debugScopeExpire s (fun t => t.fld F.VLT_STATUS_SCOPE = 0 ∧
      t.flag F.VLT_STATUS_DBG_CHG = true ∧ t.vlt = { s.vlt with minutes := 0 } ∧ Logs s t 0x1118 0x7000 1 ∧ SameMem s t ∧
      RegsKept s t [Reg.VLT_STATUS, Reg.EVL_LOST])) := by
  refine ⟨fun h => if_pos (h.imp_right (Or.imp_right fun ht => by rw [State.lasted_of_lt ht]; rfl)), fun h0 hm ht => ?_⟩
  have hgo : ¬ (s.fld F.VLT_STATUS_SCOPE = 0 ∨ s.vlt.minutes = 0 ∨ (!s.lasted s.vlt.since (s.vlt.minutes * 60000 * cycPerMs)) = true) := by
    rw [State.lasted_of_le ht]
    simp [h0, hm]
  refine ⟨_, if_neg hgo, ?_, ?_, by simp, logs_log _ _ _ (by simp), .of_eq (by simp), by simp⟩
  · simp (disch := decide)
    exact s.fld_setScope (by decide)
  · simp (disch := decide)
    rw [State.setScope, if_neg h0]
    simp (disch := decide)

/-! ## The DRBG (R523) -/

theorem rng_spec (s : State) : (s.rngOk = true → Gives .vltRngRead s (fun t => t.bus = ⟨false, Config.drbg s.fresh % 2 ^ 32⟩ ∧ t.fresh = s.fresh + 1 ∧ SameMem s t ∧ RegsKept s t []) ∧
      Gives .entropyFail s (fun t => t.flag F.VLT_STATUS_ENTROPY_FAIL = true ∧ Logs s t 0x111A 0x7000 0 ∧ SameMem s t ∧
        RegsKept s t [Reg.VLT_STATUS, Reg.EVL_LOST])) ∧
    (s.rngOk = false → Gives .vltRngRead s (fun t => t.bus = ⟨false, 0⟩ ∧ t.fresh = s.fresh ∧ SameMem s t ∧ RegsKept s t []) ∧
      exec .entropyFail s = .next s) := by
  refine ⟨fun h => ⟨⟨_, if_pos h, rfl, rfl, fun _ => rfl, fun _ _ => rfl⟩, ⟨_, if_neg (by simp [h]), ?_, logs_log _ _ _ (by simp), .of_eq (by simp), by simp⟩⟩,
    fun h => ⟨⟨_, if_neg (by simp [h]), rfl, rfl, fun _ => rfl, fun _ _ => rfl⟩, if_pos (by simp [h])⟩⟩
  simp (disch := decide)

/-- Settles O51: each command by its own lemma. -/
theorem vaultCommands : Obligations.VaultCommands := by
  unfold Obligations.VaultCommands
  exact ⟨fun s _ _ tap hcmd _ _ ht => s.vltRefuse_spec tap hcmd ht, fun _ h i tap c n hb => vlt_busy h i tap c n hb, vltCommandDone_spec,
    fun _ hb => ⟨vltFirmware_none hb, fun _ _ hl hc h0 => vltFirmware_refused hb hl hc h0,
      fun _ hl h0 => ⟨vltVerify_accepted hb hl h0, fun _ _ hs => vltStore_accepted hb hl h0 hs⟩⟩,
    fun _ _ hb hl => vltRecord_refused hb hl, fun _ _ _ hb hl hok h4 hs ho hf hk hsig => vltEnrol_enrolls hb hl hok h4 hs ho hf hk hsig,
    fun _ _ _ hb hl hok hs ho hsig hh => vltRevoke_revokes hb hl hok hs ho hsig hh,
    fun _ _ _ _ hb hl hok hs hsig hu hi => ⟨vltImport_private hb hl hok hs hsig hu hi, vltImport_stopped hb hl hok hs hsig hu hi,
      vltImport_wrapped hb hl hok hs hsig hu hi⟩,
    fun _ _ hb => ⟨vltLoadKey_format hb, vltLoadKey_full hb, fun _ hl hlen hh hfree hlow => vltLoadKey_loads hb hl hlen hh hfree hlow⟩,
    fun _ h hb => vltEraseKey_spec hb h,
    fun _ _ _ hb hr => ⟨vltArbAdvance_refused hb hr, fun _ hi hrow hn hrun ho => vltArbAdvance_advances hb hr hi hrow hn hrun ho⟩,
    fun _ _ hb => ⟨vltAttest_format hb, fun hl hlen => vltAttest_attests hb hl hlen rfl rfl⟩, fun _ tap hb => vltDbgChallenge_spec hb tap,
    fun _ _ _ _ _ hb hl hsc hmi hok h15 h1440 => ⟨vltDbgUnlock_challenge hb hl hsc hmi hok h15 h1440, vltDbgUnlock_signature hb hl hsc hmi hok h15 h1440,
      vltDbgUnlock_unlocks hb hl hsc hmi hok h15 h1440⟩,
    fun _ => vltDbgLock_spec, fun s => ⟨(debugScopeExpire_spec s).1, (debugScopeExpire_spec s).2, (rng_spec s).1, (rng_spec s).2⟩⟩

end Sys2Proof.Machine
